-- ==== Sys2Proof/Word.lean ====
section
/-! DEFINITION. Words, bytes and the plainest arithmetic on them: fields of a word, two's complement readings, byte orders. -/
namespace Sys2Proof

/-- A register word: 32 bits (R5). -/
abbrev Word := BitVec 32
/-- One byte. -/
abbrev Byte := BitVec 8
/-- A Dater time as it stands in structures: seconds (48 bits), nanoseconds (32 bits), fraction of a
nanosecond (16 bits) (Notation of 00_scope.md). -/
structure DTime where
  sec : BitVec 48
  ns : BitVec 32
  frac : BitVec 16
  deriving DecidableEq, Repr

/-- All ones: a stamp that was not taken or does not apply (R87). -/
def DTime.none : DTime := { sec := BitVec.allOnes 48, ns := BitVec.allOnes 32, frac := BitVec.allOnes 16 }

/-- The bits `[lo + w - 1 : lo]` of a number. -/
def bits (n lo w : Nat) : Nat := n / 2 ^ lo % 2 ^ w

/-- One bit of a number. -/
def bitAt (n i : Nat) : Bool := n / 2 ^ i % 2 == 1

/-- `n` with the bits `[lo + w - 1 : lo]` replaced by `v`. -/
def setBits (n lo w v : Nat) : Nat :=
  n % 2 ^ lo + v % 2 ^ w * 2 ^ lo + n / 2 ^ (lo + w) * 2 ^ (lo + w)

/-- `n` clamped to `[a, b]`. -/
def clampN (n a b : Nat) : Nat := if n < a then a else if b < n then b else n

/-- `x` clamped to `[a, b]`, signed. -/
def clampI (x a b : Int) : Int := if x < a then a else if b < x then b else x

/-- Saturating addition of a counter of `w` bits. -/
def satAdd (w n k : Nat) : Nat := if n + k < 2 ^ w then n + k else 2 ^ w - 1

/-- The ceiling of `a / b`; 0 where `b` is 0. -/
def ceilDiv (a b : Nat) : Nat := if b = 0 then 0 else if a % b = 0 then a / b else a / b + 1

/-- A number of `w` bits read as two's complement. -/
def toSigned (w n : Nat) : Int := if n % 2 ^ w < 2 ^ (w - 1) then Int.ofNat (n % 2 ^ w) else Int.ofNat (n % 2 ^ w) - Int.ofNat (2 ^ w)

/-- An integer as `w` bits of two's complement. -/
def ofSigned (w : Nat) (x : Int) : Nat := (x % Int.ofNat (2 ^ w)).toNat

/-- The floor of the base-2 logarithm, 0 for 0. -/
def log2 (n : Nat) : Nat := n.log2

/-- `k` bytes of `n`, least significant first. -/
def leBytes : Nat → Nat → List Byte
  | 0, _ => []
  | k + 1, n => BitVec.ofNat 8 n :: leBytes k (n / 256)

/-- `k` bytes of `n`, most significant first. -/
def beBytes (k n : Nat) : List Byte := (leBytes k n).reverse

/-- The number whose bytes, least significant first, are listed. -/
def leNum : List Byte → Nat
  | [] => 0
  | b :: r => b.toNat + 256 * leNum r

/-- The number whose bytes, most significant first, are listed. -/
def beNum (l : List Byte) : Nat := l.foldl (fun a b => a * 256 + b.toNat) 0

/-- The element at an index of a list, or the given value past its end. -/
def listAt {α : Type} (l : List α) (i : Nat) (d : α) : α := l.getD i d

/-- `List.range` from `a`, `n` numbers. -/
def rangeFrom (a n : Nat) : List Nat := (List.range n).map (a + ·)

/-- The bits of a Dater time in a 12-byte big-endian slot (R72). -/
def DTime.bytes (t : DTime) : List Byte :=
  beBytes 6 t.sec.toNat ++ beBytes 4 t.ns.toNat ++ beBytes 2 t.frac.toNat

end Sys2Proof
end

