-- ==== Sys2Proof/Machine/Tab.lean ====
section
/-! DEFINITION. The one canonical table: a list of (key, value) pairs with strictly rising keys and no entry
equal to what an unlisted key reads as. Register words, memory bytes and per-unit records are held in it. -/
namespace Sys2Proof

/-- A table from natural keys. `d` below is always what an unlisted key reads as. -/
abbrev Tab (V : Type) := List (Nat × V)

/-- The value at a key. -/
def Tab.get {V : Type} (d : Nat → V) : Tab V → Nat → V
  | [], k => d k
  | (a, v) :: r, k => if a = k then v else Tab.get d r k

/-- The table without a key. -/
def Tab.erase {V : Type} : Tab V → Nat → Tab V
  | [], _ => []
  | (a, v) :: r, k => if a = k then Tab.erase r k else (a, v) :: Tab.erase r k

/-- A new entry in its place of the rising order. -/
def Tab.insert {V : Type} : Tab V → Nat → V → Tab V
  | [], k, v => [(k, v)]
  | (a, w) :: r, k, v => if k < a then (k, v) :: (a, w) :: r else (a, w) :: Tab.insert r k v

/-- Writing a key. A value equal to what the key reads as unlisted removes the entry. -/
def Tab.set {V : Type} [DecidableEq V] (d : Nat → V) (t : Tab V) (k : Nat) (v : V) : Tab V :=
  if v = d k then t.erase k else Tab.insert (t.erase k) k v

/-- The keys rise strictly, from `lo` on. -/
def Tab.risesFrom {V : Type} : Nat → Tab V → Bool
  | _, [] => true
  | lo, (a, _) :: r => decide (lo ≤ a) && Tab.risesFrom (a + 1) r

/-- No entry equals what its key reads as unlisted. -/
def Tab.lean {V : Type} [DecidableEq V] (d : Nat → V) : Tab V → Bool
  | [] => true
  | (a, v) :: r => decide (v ≠ d a) && Tab.lean d r

/-- The canonical form. -/
def Tab.wf {V : Type} [DecidableEq V] (d : Nat → V) (t : Tab V) : Bool := Tab.risesFrom 0 t && Tab.lean d t

/-- The table of the entries whose key satisfies `p`. -/
def Tab.keep {V : Type} (p : Nat → Bool) : Tab V → Tab V
  | [] => []
  | (a, v) :: r => if p a then (a, v) :: Tab.keep p r else Tab.keep p r

end Sys2Proof
end

