-- ==== Sys2Proof/Machine/UnitsBnd.lean ====
section
/-! DEFINITION. What the block holds behind the BND registers for the magazine ports, the volumes they have mounted and the takes that are
being recorded (09), and a magazine as the port finds it. -/
namespace Sys2Proof.Machine

/-- A magazine as it is put in (R247, R248, R251): a single-function endpoint; class code; MSI-X; the NVMe 2.0 register interface with the NVM command set;
CAP.MPSMIN, MQES and TO (in 500 ms); MDTS; namespace 1 active; data and metadata bytes of its LBA format; end-to-end protection; blocks of namespace 1;
a volatile write cache is enabled; I/O queue pairs that it grants; what its blocks hold, an unlisted block being 0. -/
structure Magazine where
  single : Bool
  cls : Nat
  msix : Bool
  nvm : Bool
  mpsmin : Nat
  mqes : Nat
  capTo : Nat
  mdts : Nat
  active : Bool
  lbaData : Nat
  lbaMeta : Nat
  protect : Bool
  nsze : Nat
  vwc : Bool
  pairs : Nat
  blocks : List (Nat × List Byte)
  deriving DecidableEq, Repr

/-- A take entry (R255). -/
structure TakeEntry where
  number : Nat
  state : Nat
  layout : Nat
  stripe : Nat
  codec : Nat
  name : List Byte
  partner : List Byte
  first : Nat
  last : Nat
  pictures : Nat
  firstShelf : Nat
  shelves : Nat
  length : Nat
  aidOff : Nat
  aidLen : Nat
  start : DTime
  fin : DTime
  digest : Nat
  seqId : Nat
  flags : Nat
  deriving DecidableEq, Repr

/-- An aid entry (R258). -/
structure AidEntry where
  num : Nat
  flags : Nat
  off : Nat
  len : Nat
  epoch : Nat
  digest : Nat
  stamps : List DTime
  sha : List Byte
  mark : Nat
  note : List Byte
  deriving DecidableEq, Repr

/-- A mounted volume (R252 to R256, R262): its identity, size and shelves, take slots, shelf list by shelf as take and next shelf, the next
journal record, records since the last checkpoint, GENERATION and place of the newer inventory copy, its JOURNAL_SEQ. -/
structure Volume where
  id : List Byte
  nsze : Nat
  shelves : Nat
  made : DTime
  slots : Tab (Option TakeEntry)
  shelf : Tab (Nat × Nat)
  seq : Nat
  since : Nat
  gen : Nat
  copyB : Bool
  ckptSeq : Nat
  deriving DecidableEq, Repr

/-- How far a port's bring-up has come (R251), with the tick its wait began. Pulsing: MGn_PERST_N is low for 1 ms; `again` of the link wait: it has been.
`reset`: the controller is being reset under R249. -/
inductive MagStage where
  | empty
  | settling (t : Nat)
  | powering (t : Nat)
  | linking (t : Nat) (again : Bool)
  | pulsing (t : Nat)
  | enabling (t : Nat) (reset : Bool)
  | identifying (reset : Bool)
  | mounting (reset : Bool)
  | up
  deriving DecidableEq, Repr

/-- What waits for a checkpoint to end (R262). -/
inductive CkptFor where
  | routine
  | stop (stream : Nat)
  | eject
  | delete
  | mount
  deriving DecidableEq, Repr

/-- What a command on a magazine serves. -/
inductive MagJob where
  | identify
  /-- Set Features 0x07, Get Features 0x06, the creation of the I/O queues, Get Log Page 0x02 and 0x01 -/
  | setQueues
  | getVwc
  | makeQueues
  | health
  | errorLog
  | mount
  | recover
  /-- a picture's record; its relocated copy; a record read back to be verified -/
  | record (stream num : Nat) (moved : Bool)
  | verify (stream num : Nat)
  | aid (stream : Nat)
  | flush (stream : Nat)
  | finalAid (stream : Nat)
  /-- journal records: of a take's opening, commit and close; of a mark or a relocation; of a deletion -/
  | jOpen (stream : Nat)
  | jCommit (stream : Nat)
  | jClose (stream : Nat)
  | jMark (stream rp id : Nat)
  | jMove
  | jDelete (take : Nat)
  | ckptBody
  | ckptFlush
  | ckptHead
  | format (step : Nat)
  | trim
  | extent (rp id : Nat)
  deriving DecidableEq, Repr

/-- Commands outstanding for one job: how many are still to complete, that one has been retried, the tick of the issue, the sequence number
of a journal record, and what they write. -/
structure MagCmd where
  job : MagJob
  left : Nat
  retried : Bool
  admin : Bool
  tick : Nat
  seq : Option Nat
  writes : List (Nat × List Byte)
  deriving DecidableEq, Repr

/-- A magazine port. `queues`: the I/O queue pairs created, as entries and MSI-X vector of each; `ckpt`: what waits for the checkpoint in progress, and its
JOURNAL_SEQ; `op`: the housekeeping operation that runs. -/
structure Mag where
  stage : MagStage
  refclk : Bool
  perst : Bool
  inserted : Option Magazine
  media : Tab (List Byte)
  queues : List (Nat × Nat)
  cmds : List MagCmd
  vol : Option Volume
  ckpt : Option (List CkptFor × Nat)
  ckptNext : List CkptFor
  op : Option Nat
  deriving DecidableEq, Repr

def Mag.init : Mag :=
  { stage := .empty, refclk := false, perst := true, inserted := none, media := [], queues := [], cmds := [], vol := none, ckpt := none, ckptNext := [], op := none }

/-- A commit that runs on a volume (R263): first and last picture, the offset and length of its aid group, the tick of its start, its stamp,
shelves that its record will carry. -/
structure CommitRun where
  first : Nat
  last : Nat
  aidOff : Nat
  aidLen : Nat
  start : Nat
  stamp : DTime
  shelves : List Nat
  done : Bool
  deriving DecidableEq, Repr

/-- A take's part on a volume (R257, R269): its port; end of what has been laid down; DURABLE_LENGTH; chain in the journal; shelves taken and not yet
in the journal; entries of committed pictures; relocations for the next commit as picture, offset, length, flags; the commit that runs. -/
structure TakeVol where
  port : Nat
  stripe : Nat
  length : Nat
  durable : Nat
  chain : List Nat
  fresh : List Nat
  aids : List AidEntry
  moves : List (Nat × Nat × Nat × Nat)
  commit : Option CommitRun
  opened : Bool
  aidWritten : Option (Nat × Nat)
  closed : Bool
  finished : Bool
  deriving DecidableEq, Repr

/-- A picture of a take that is not committed on every volume, or whose folios are held (R263, R270, R273): its data while held, its aid entry, offsets by port,
ports its record is written on and still to be verified on, ports with a relocated copy and those where that failed too, records read back by port, when it
was released to the Bindery and written. -/
structure RecPic where
  num : Nat
  key : Bool
  gap : Bool
  held : Bool
  data : List Byte
  aid : AidEntry
  offs : List (Nat × Nat)
  written : List Nat
  verify : List Nat
  moved : List Nat
  failed : List Nat
  back : List (Nat × List Byte)
  givenTick : Nat
  writtenTick : Nat
  committed : List Nat
  deriving DecidableEq, Repr

/-- A mark that waits to be durable: picture, code, note, ring and number of its slip; ports whose MARK record is still to complete,
`none` while it is to go into the aid entry (R272). -/
structure Mark where
  pic : Nat
  code : Nat
  note : List Byte
  rp : Nat
  id : Nat
  wait : Option (List Nat)
  deriving DecidableEq, Repr

/-- A take that is open on a stream (R266 to R274). `stop`: the last picture, and the slip that asked, where one did. -/
structure Take where
  stream : Nat
  number : Nat
  layout : Nat
  verify : Bool
  name : List Byte
  codec : Nat
  digest : Nat
  seqId : Nat
  slip : Option (Nat × Nat)
  first : Nat
  start : DTime
  fin : DTime
  lastGood : Option Nat
  vols : List TakeVol
  partners : List (Nat × List Byte)
  pics : List RecPic
  /-- the next picture that the Bindery has not yet had -/
  next : Nat
  /-- the first picture not covered by a commit -/
  from' : Nat
  gapping : Bool
  degraded : Bool
  gaps : Bool
  verifyFailed : Bool
  incomplete : Bool
  marks : List Mark
  /-- marks of pictures not yet committed, in force: picture, code, note -/
  marked : List (Nat × Nat × List Byte)
  loadNum : Nat
  loadDen : Nat
  tailMs : Nat
  lagMs : Nat
  bufMib : Nat
  commitTick : Nat
  commitNext : Bool
  stop : Option (Nat × Option (Nat × Nat))
  closing : Bool
  deriving DecidableEq, Repr

/-- A READ_EXTENT in hand (R279, R280): its ring and number, pictures and gaps still to come as port and aid entry, its results so far. -/
structure Extent where
  rp : Nat
  id : Nat
  port : Nat
  take : Nat
  left : List (Nat × AidEntry)
  head : List Byte
  bytes : Nat
  pics : Nat
  gaps : Nat
  mirror : Nat
  bad : Nat
  deriving DecidableEq, Repr

/-- The Bindery. `ids`: every VOLUME_ID it has given (R253). -/
structure Bindery where
  mags : Tab Mag
  takes : List Take
  extents : List Extent
  ids : List Nat
  deriving DecidableEq, Repr

def Bindery.init : Bindery := { mags := [], takes := [], extents := [], ids := [] }

end Sys2Proof.Machine
end

