-- ==== Sys2Proof/Config.lean ====
section
/-! DEFINITION. The free values: constants with no body, for what the specification leaves open. -/
namespace Sys2Proof.Config

/-- The free values. Nothing is known of them: a value the specification does not state is this
constant at the State's counter `free`, which the drawing step advances. -/
opaque freeValue : Nat → Nat

/-- The default scaler banks that firmware loads when a stream supplies none (R114). The manual does not
print them; they are open in each tap: bank, input size, output size, phase, tap. -/
opaque defaultTap : Nat → Nat → Nat → Nat → Nat → Int

/-- The public keys that the keeper derives from its identity seed (R481): the RSA-3072 modulus and the SLH-DSA public key. The seed is a
fuse that nothing reads; the same seed always yields the same keys. -/
opaque identityRsa : Nat
opaque identitySlh : Nat

/-- The measurement of the fuse shadow (R483) as a function of the FUS words: the order of its bytes is not stated. -/
opaque fuseMeasurement : List Nat → Nat

/-- The payload of a NAL unit from what it is to say, as the codec's own standard writes it (R129, R130): the standards are named and not printed. -/
opaque nalPayload : List Nat → List Byte

/-- The decoded picture of an access unit that the encoders have made, plane by plane, from its slices and its reference pictures (R129, R130), and the bytes
of its CRC picture hash: the codec's own standard gives both. -/
opaque decodedPlanes : Nat → List Byte → List (List (List Nat)) → List (List Nat)
opaque pictureHash : Nat → List (List Nat) → List Nat

/-- The colour description of a stream whose pictures come from the host: primaries, transfer, matrix (R132 gives them by PROOFING alone). -/
opaque hostColour : Nat → Nat

/-- Of the device's own data set (R316) what the profile's values do not give: clock accuracy, variance, identity. -/
opaque ptpAccuracy : Nat
opaque ptpVariance : Nat
opaque ptpIdentity : Nat

/-- The address of the microword that a unit executes, and the entry address of its routine (R424, R435), from what the unit holds: Sveteno's microcode gives
them, and it is not described. -/
opaque microAddress : List Nat → Nat
opaque routineEntry : List Nat → Nat

/-- VOLUME_ID as a function of the words of the device identity and the Dater time (R253): how it is made of them is not stated. -/
opaque volumeId : List Nat → Nat → Nat

/-- What a curator applet makes of a plan is the camera maker's code (R184, R186): the unit figures it
leaves in the plan buffer are operands of RC_POST, never a value of this file. -/
def appletAbi : Nat := 0x00010000

end Sys2Proof.Config
end

