-- ==== Sys2Proof/Machine/Crc.lean ====
section
/-! DEFINITION. CRC-32C (R62) and SHA-2 (SHA-256 for colophons, R85; SHA-256 and SHA-384 elsewhere). -/
namespace Sys2Proof.Machine

/-- One bit of the reflected CRC-32C register: polynomial 0x1EDC_6F41, reflected 0x82F6_3B78. -/
def crcBit (c : Nat) : Nat := if c % 2 = 1 then Nat.xor (c / 2) 0x82F63B78 else c / 2

/-- Eight bits. -/
def crcBit8 (c : Nat) : Nat := crcBit (crcBit (crcBit (crcBit (crcBit (crcBit (crcBit (crcBit c)))))))

/-- One byte into the CRC register. -/
def crcByte (c : Nat) (b : Byte) : Nat := crcBit8 (Nat.xor c b.toNat)

/-- The register after a list of bytes. -/
def crcFold (c : Nat) (l : List Byte) : Nat := l.foldl crcByte c

/-- CRC-32C: reflected, initial value and final XOR 0xFFFF_FFFF (R62). -/
def crc32c (l : List Byte) : Nat := Nat.xor (crcFold 0xFFFFFFFF l) 0xFFFFFFFF

/-- The greatest number of so many bits, on top of `r`, whose kth power is at most n. -/
def rootBits (k n : Nat) : Nat → Nat → Nat
  | 0, r => r
  | b + 1, r => rootBits k n b (if (r + 2 ^ b) ^ k ≤ n then r + 2 ^ b else r)

/-- The first w bits of the fraction of the kth root of p, for a root below 8. -/
def fracRoot (k w p : Nat) : Nat := rootBits k (p * 2 ^ (k * w)) (w + 3) 0 % 2 ^ w

/-- The 80 primes below 410. -/
def shaPrimes : List Nat :=
  (List.range 410).filter fun n => decide (2 ≤ n) && [2, 3, 5, 7, 11, 13, 17, 19].all fun d => n == d || n % d != 0

/-- The parameters of one SHA-2 hash: word width, rounds' constants, the rotation amounts. -/
structure Sha2 where
  w : Nat
  ks : List Nat
  a : Nat × Nat × Nat
  e : Nat × Nat × Nat
  s0 : Nat × Nat × Nat
  s1 : Nat × Nat × Nat
  init : List Nat

/-- SHA-256 as FIPS 180-4 gives it: constants from the cube roots of the first 64 primes, initial words from the square roots of the first 8. -/
def sha256P : Sha2 :=
  { w := 32, ks := (shaPrimes.take 64).map (fracRoot 3 32), a := (2, 13, 22), e := (6, 11, 25), s0 := (7, 18, 3), s1 := (17, 19, 10),
    init := (shaPrimes.take 8).map (fracRoot 2 32) }

/-- SHA-384: cube roots of all 80, square roots of the ninth to the sixteenth. -/
def sha384P : Sha2 :=
  { w := 64, ks := shaPrimes.map (fracRoot 3 64), a := (28, 34, 39), e := (14, 18, 41), s0 := (1, 8, 7), s1 := (19, 61, 6),
    init := ((shaPrimes.drop 8).take 8).map (fracRoot 2 64) }

/-- Rotation right by `k` of a word of `w` bits. -/
def rotr (w x k : Nat) : Nat := x / 2 ^ k + x % 2 ^ k * 2 ^ (w - k)

def xor3 (a b c : Nat) : Nat := Nat.xor (Nat.xor a b) c

/-- The four SHA-2 sums. -/
def Sha2.big (p : Sha2) (r : Nat × Nat × Nat) (x : Nat) : Nat :=
  xor3 (rotr p.w x r.1) (rotr p.w x r.2.1) (rotr p.w x r.2.2)

def Sha2.small (p : Sha2) (r : Nat × Nat × Nat) (x : Nat) : Nat :=
  xor3 (rotr p.w x r.1) (rotr p.w x r.2.1) (x / 2 ^ r.2.2)

/-- The eight working words. -/
structure ShaReg where
  a : Nat
  b : Nat
  c : Nat
  d : Nat
  e : Nat
  f : Nat
  g : Nat
  h : Nat

/-- One round, with its message word and constant. -/
def Sha2.round (p : Sha2) (r : ShaReg) (wk : Nat) : ShaReg :=
  let m := 2 ^ p.w
  let ch := Nat.xor (Nat.land r.e r.f) (Nat.land (m - 1 - r.e) r.g)
  let t1 := r.h + p.big p.e r.e + ch + wk
  let maj := xor3 (Nat.land r.a r.b) (Nat.land r.a r.c) (Nat.land r.b r.c)
  let t2 := p.big p.a r.a + maj
  { a := (t1 + t2) % m, b := r.a, c := r.b, d := r.c, e := (r.d + t1) % m, f := r.e, g := r.f, h := r.g }

/-- The message schedule, newest word first, extended `n` times from sixteen words. -/
def Sha2.extend (p : Sha2) : Nat → List Nat → List Nat
  | 0, l => l
  | n + 1, l =>
    let w := (p.small p.s1 (l.getD 1 0) + l.getD 6 0 + p.small p.s0 (l.getD 14 0) + l.getD 15 0) % 2 ^ p.w
    p.extend n (w :: l)

/-- One block of sixteen words. -/
def Sha2.block (p : Sha2) (h : List Nat) (m : List Nat) : List Nat :=
  let sched := (p.extend (p.ks.length - 16) m.reverse).reverse
  let r0 : ShaReg := { a := h.getD 0 0, b := h.getD 1 0, c := h.getD 2 0, d := h.getD 3 0,
                       e := h.getD 4 0, f := h.getD 5 0, g := h.getD 6 0, h := h.getD 7 0 }
  let r := (List.zip sched p.ks).foldl (fun r wk => p.round r (wk.1 + wk.2)) r0
  List.zipWith (fun x y => (x + y) % 2 ^ p.w) h [r.a, r.b, r.c, r.d, r.e, r.f, r.g, r.h]

/-- The first `n` groups of `k` elements. -/
def groups {α : Type} (k : Nat) : Nat → List α → List (List α)
  | 0, _ => []
  | n + 1, l => l.take k :: groups k n (l.drop k)

/-- The padded message. -/
def Sha2.pad (p : Sha2) (l : List Byte) : List Byte :=
  let blk := p.w * 2
  let z := (blk - (l.length + 1 + p.w / 4) % blk) % blk
  l ++ 0x80#8 :: List.replicate z 0#8 ++ beBytes (p.w / 4) (8 * l.length)

/-- The hash as the bytes of its words. -/
def Sha2.hash (p : Sha2) (l : List Byte) : List Byte :=
  let q := p.pad l
  let ws := (groups (p.w / 8) (q.length / (p.w / 8)) q).map beNum
  let h := (groups 16 (ws.length / 16) ws).foldl p.block p.init
  h.flatMap (beBytes (p.w / 8))

/-- SHA-256: 32 bytes. -/
def sha256 (l : List Byte) : List Byte := sha256P.hash l

/-- SHA-384: 48 bytes. -/
def sha384 (l : List Byte) : List Byte := (sha384P.hash l).take 48

end Sys2Proof.Machine
end

