-- ==== Sys2Proof/Machine/KremaModel.lean ====
section
/-! DEFINITION. The Krema coding model (02_krema_coding_model.md): pictures, planes, leaves, blocks, prediction,
the lossless residual arithmetic and lifting of Krema-L, the transform arithmetic of Krema-V. -/
namespace Sys2Proof.Machine

/-- What a sequence header fixes (R74): variant, size, depth, CFA descriptor, key interval, identifier. -/
structure KSeq where
  variantV : Bool
  width : Nat
  height : Nat
  depth : Nat
  period : Nat
  phase : List Nat
  tags : List Nat
  key : Nat
  seqId : Nat
  deriving DecidableEq, Repr

/-- A picture: rows of samples. -/
abbrev Rows := List (List Nat)

/-- The sample at column `x`, row `y`; 0 outside. -/
def Rows.at (p : Rows) (x y : Nat) : Nat := (p.getD y []).getD x 0

/-- `mid` of R32. -/
def KSeq.mid (k : KSeq) : Nat := 2 ^ (k.depth - 1)

/-- The channel index of a phase position (R32, R74). -/
def KSeq.chan (k : KSeq) (i j : Nat) : Nat := k.phase.getD (i * k.period + j) 0

/-- The tag of a channel index: 0 R, 1 G, 2 B, 3 W, 4 Y (R74). -/
def KSeq.tag (k : KSeq) (c : Nat) : Nat := k.tags.getD c 15

/-- The phase positions in raster order. -/
def KSeq.positions (k : KSeq) : List (Nat × Nat) :=
  (List.range (k.period * k.period)).map fun n => (n / k.period, n % k.period)

/-- R33: the conditions of a valid CFA descriptor. -/
def KSeq.cfaValid (k : KSeq) : Bool :=
  (k.period == 1 || k.period == 2 || k.period == 4) &&
  k.positions.all (fun q => decide (k.chan q.1 q.2 < 4) && decide (k.tag (k.chan q.1 q.2) < 5)) &&
  (k.period != 1 || (let t := k.tag (k.chan 0 0); t == 1 || t == 3 || t == 4))

/-- R32 and R37: depth and size of a Krema picture. -/
def KSeq.sizeValid (k : KSeq) : Bool :=
  (k.depth == 10 || k.depth == 12 || k.depth == 14 || k.depth == 16) &&
  decide (256 ≤ k.width ∧ k.width ≤ 16384 ∧ 128 ≤ k.height ∧ k.height ≤ 8640) &&
  k.width % k.period == 0 && k.height % k.period == 0

/-- R35: the phase positions in plane order, those tagged G first. -/
def KSeq.planes (k : KSeq) : List (Nat × Nat) :=
  k.positions.filter (fun q => k.tag (k.chan q.1 q.2) == 1) ++
  k.positions.filter (fun q => k.tag (k.chan q.1 q.2) != 1)

/-- R36: the plane class of a plane position. -/
def KSeq.planeClass (k : KSeq) (q : Nat × Nat) : Nat := k.chan q.1 q.2

/-- R38: leaf columns and rows. -/
def KSeq.leafCols (k : KSeq) : Nat := ceilDiv k.width 512
def KSeq.leafRows (k : KSeq) : Nat := ceilDiv k.height 64
def KSeq.leafCount (k : KSeq) : Nat := k.leafCols * k.leafRows

/-- A rectangle. -/
structure Rect where
  x : Nat
  y : Nat
  w : Nat
  h : Nat
  deriving DecidableEq, Repr

/-- R38: the CFA rectangle of leaf `n`. -/
def KSeq.leaf (k : KSeq) (n : Nat) : Rect :=
  let x := 512 * (n % k.leafCols)
  let y := 64 * (n / k.leafCols)
  { x := x, y := y, w := min 512 (k.width - x), h := min 64 (k.height - y) }

/-- The plane leaf of a leaf, in plane samples. -/
def KSeq.planeLeaf (k : KSeq) (n : Nat) : Rect :=
  let r := k.leaf n
  { x := r.x / k.period, y := r.y / k.period, w := r.w / k.period, h := r.h / k.period }

/-- Tiles of `size` over a width and height, in raster order, truncated at the edges. -/
def tiles (size w h : Nat) : List Rect :=
  (List.range (ceilDiv h size)).flatMap fun j =>
    (List.range (ceilDiv w size)).map fun i =>
      { x := size * i, y := size * j, w := min size (w - size * i), h := min size (h - size * j) }

/-- R41: the 16 × 16 blocks of a plane leaf. -/
def blocksOf (w h : Nat) : List Rect := tiles 16 w h

/-- R39, R41: the 8 × 8 parts of a block that are present, top-left first, in the block's own plane leaf coordinates. -/
def subBlocks (b : Rect) : List Rect :=
  (tiles 8 b.w b.h).map fun t => { t with x := b.x + t.x, y := b.y + t.y }

/-- R41: a block may be split unless it is at most 8 wide and at most 8 high. -/
def Rect.mayBeSplit (b : Rect) : Bool := decide (8 < b.w) || decide (8 < b.h)

/-- The prediction units of a block. -/
def unitsOf (b : Rect) (split : Bool) : List Rect := if split then subBlocks b else [b]

/-- The positions of a rectangle, raster order. -/
def Rect.cells (r : Rect) : List (Nat × Nat) :=
  (List.range r.h).flatMap fun j => (List.range r.w).map fun i => (r.x + i, r.y + j)

/-- The values of a plane leaf known so far, the latest first: column, row, value. -/
abbrev Known (α : Type) := List (Nat × Nat × α)

/-- The value at a position: `none` where nothing is reconstructed yet or outside. -/
def Known.at {α : Type} : Known α → Nat → Nat → Option α
  | [], _, _ => none
  | (a, b, v) :: r, x, y => if a = x ∧ b = y then some v else Known.at r x y

/-- Knowing one more position. -/
def Known.set {α : Type} (f : Known α) (x y : Nat) (v : α) : Known α := (x, y, v) :: f

/-! ### Prediction -/

/-- R43: the median predictor. -/
def med (a b c : Nat) : Int :=
  if max a b ≤ c then Int.ofNat (min a b)
  else if c ≤ min a b then Int.ofNat (max a b)
  else Int.ofNat a + Int.ofNat b - Int.ofNat c

/-- A neighbour of the plane leaf: `mid` outside it. The offset is one left and / or one up. -/
def neigh (mid : Nat) (rec : Known Nat) (x y dx dy : Nat) : Nat :=
  if x < dx ∨ y < dy then mid else (rec.at (x - dx) (y - dy)).getD mid

/-- R43: INTRA_GRAD at a position. -/
def predGrad (mid : Nat) (rec : Known Nat) (x y : Nat) : Int :=
  med (neigh mid rec x y 1 0) (neigh mid rec x y 0 1) (neigh mid rec x y 1 1)

/-- R44: a reference array: `mid` outside the plane leaf, the entry before it where not yet reconstructed. -/
def refArray (mid : Nat) (rec : Known Nat) (w h : Nat) (pos : Nat → Option (Nat × Nat)) (n : Nat) : List Nat :=
  ((List.range n).foldl (fun (acc : List Nat × Nat) i =>
    let v := match pos i with
      | none => mid
      | some (x, y) => if w ≤ x ∨ h ≤ y then mid else (rec.at x y).getD acc.2
    (v :: acc.1, v)) ([], mid)).1.reverse

/-- R45: slope and class of a mode from 2 to 9: (vertical, d). -/
def dirSlope (mode : Nat) : Bool × Int :=
  match mode with
  | 2 => (true, 0) | 3 => (true, 1) | 4 => (true, -1) | 5 => (true, 2) | 6 => (true, -2)
  | 7 => (false, 0) | 8 => (false, 1) | _ => (false, -1)

/-- R44: an extended array: entry −1 is the corner, further entries come from the other array. -/
def extended (main other : List Nat) (corner : Nat) (i : Int) : Nat :=
  if 0 ≤ i then main.getD i.toNat corner
  else if i = -1 then corner
  else other.getD (-i - 2).toNat corner

/-- R44 to R46: INTRA_DIR over a whole unit: the prediction at an offset inside it. -/
def predDir (mid : Nat) (rec : Known Nat) (lw lh : Nat) (u : Rect) (mode : Nat) : Nat → Nat → Int :=
  let n := u.w + u.h
  let top := refArray mid rec lw lh (fun i => if u.y = 0 then none else some (u.x + i, u.y - 1)) n
  let left := refArray mid rec lw lh (fun j => if u.x = 0 then none else some (u.x - 1, u.y + j)) n
  let corner := neigh mid rec u.x u.y 1 1
  let t := fun i => top.getD i mid
  let l := fun j => left.getD j mid
  match mode with
  | 0 =>
    let s := (top.take u.w).sum + (left.take u.h).sum
    fun _ _ => Int.ofNat ((s + (u.w + u.h) / 2) / (u.w + u.h))
  | 1 => fun x y =>
    let hs := (u.w - 1 - x) * l y + (x + 1) * t u.w
    let vs := (u.h - 1 - y) * t x + (y + 1) * l u.h
    Int.ofNat ((hs * u.h + vs * u.w + u.w * u.h) / (2 * u.w * u.h))
  | m =>
    let c := dirSlope m
    fun x y =>
      let q := if c.1 then 2 * Int.ofNat x + (Int.ofNat y + 1) * c.2 else 2 * Int.ofNat y + (Int.ofNat x + 1) * c.2
      let e := if c.1 then extended top left corner else extended left top corner
      let i := q / 2
      if q % 2 = 0 then Int.ofNat (e i) else Int.ofNat ((e i + e (i + 1) + 1) / 2)

/-- The half-sample value of R47 at a position of a plane of `wp` × `hp` samples. -/
def halfSample (wp hp : Nat) (s : Nat → Nat → Nat) (x y : Int) (mvx mvy : Int) : Nat :=
  let ix := x + mvx / 2
  let iy := y + mvy / 2
  let at' := fun (u v : Int) =>
    s (clampI u 0 (Int.ofNat wp - 1)).toNat (clampI v 0 (Int.ofNat hp - 1)).toNat
  let a := at' ix iy
  let b := at' (ix + 1) iy
  let c := at' ix (iy + 1)
  let e := at' (ix + 1) (iy + 1)
  if mvx % 2 = 0 then (if mvy % 2 = 0 then a else (a + c + 1) / 2)
  else (if mvy % 2 = 0 then (a + b + 1) / 2 else (a + b + c + e + 2) / 4)

/-- R47: the range of a vector. -/
def mvOk (x y : Int) : Bool := decide (-4096 ≤ x ∧ x ≤ 4095 ∧ -2048 ≤ y ∧ y ≤ 2047)

/-- The families of R42. -/
inductive Family where
  | grad
  | dir (mode : Nat)
  | inter (ref : Nat) (mvx mvy : Int)
  | plane (src : Nat) (offset : Int)
  deriving DecidableEq, Repr

def Family.code : Family → Nat
  | .grad => 0 | .dir _ => 1 | .inter _ _ _ => 2 | .plane _ _ => 3

/-- R103: `ie` of the class context. -/
def Family.ie : Family → Nat
  | .grad => 0 | .dir _ => 0 | .inter _ _ _ => 1 | .plane _ _ => 1

/-! ### Krema-L arithmetic -/

/-- R51: wrap into `[-mid, mid - 1]`. -/
def wrapB (b : Nat) (v : Int) : Int := (v + 2 ^ (b - 1)) % 2 ^ b - 2 ^ (b - 1)

/-- R51: the decoder's sample. -/
def losslessSample (b : Nat) (p r : Int) : Nat := ((p + r) % 2 ^ b).toNat

/-- R52: the 1D lifting transform. -/
def liftFwd (b : Nat) (x : Int × Int × Int × Int) : Int × Int × Int × Int :=
  let d0 := wrapB b (x.2.1 - x.1)
  let s0 := wrapB b (x.1 + d0 / 2)
  let d1 := wrapB b (x.2.2.2 - x.2.2.1)
  let s1 := wrapB b (x.2.2.1 + d1 / 2)
  let d2 := wrapB b (s1 - s0)
  let s2 := wrapB b (s0 + d2 / 2)
  (s2, d2, d0, d1)

/-- R52: its inverse. -/
def liftInv (b : Nat) (c : Int × Int × Int × Int) : Int × Int × Int × Int :=
  let s0 := wrapB b (c.1 - c.2.1 / 2)
  let s1 := wrapB b (c.2.1 + s0)
  let x0 := wrapB b (s0 - c.2.2.1 / 2)
  let x1 := wrapB b (c.2.2.1 + x0)
  let x2 := wrapB b (s1 - c.2.2.2 / 2)
  let x3 := wrapB b (c.2.2.2 + x2)
  (x0, x1, x2, x3)

/-- The component of a quadruple. -/
def q4 (c : Int × Int × Int × Int) (i : Nat) : Int :=
  match i with | 0 => c.1 | 1 => c.2.1 | 2 => c.2.2.1 | _ => c.2.2.2

/-- A 1D transform on every row of a 4 × 4 unit (values by column, row). -/
def onRows (f : Int × Int × Int × Int → Int × Int × Int × Int) (v : Nat → Nat → Int) : Nat → Nat → Int :=
  fun x y => q4 (f (v 0 y, v 1 y, v 2 y, v 3 y)) x

/-- A 1D transform on every column. -/
def onCols (f : Int × Int × Int × Int → Int × Int × Int × Int) (v : Nat → Nat → Int) : Nat → Nat → Int :=
  fun x y => q4 (f (v x 0, v x 1, v x 2, v x 3)) y

/-- R52: the 2D transforms on a 4 × 4 unit. -/
def lift2Fwd (b : Nat) (v : Nat → Nat → Int) : Nat → Nat → Int := onCols (liftFwd b) (onRows (liftFwd b) v)
def lift2Inv (b : Nat) (v : Nat → Nat → Int) : Nat → Nat → Int := onRows (liftInv b) (onCols (liftInv b) v)

/-- R52: a block's lifting applies to the 4 × 4 unit that holds a position when that unit lies wholly inside
the block. Values are given by plane leaf position; the transform of the unit is read back. -/
def liftBlock (f : (Nat → Nat → Int) → Nat → Nat → Int) (b : Rect) (v : Nat → Nat → Int) : Nat → Nat → Int :=
  fun x y =>
    let ux := (x - b.x) / 4 * 4
    let uy := (y - b.y) / 4 * 4
    if ux + 4 ≤ b.w ∧ uy + 4 ≤ b.h then
      f (fun i j => v (b.x + ux + i) (b.y + uy + j)) (x - b.x - ux) (y - b.y - uy)
    else v x y

/-! ### Krema-V arithmetic -/

/-- R57: the matrix of the inverse transform. -/
def kremaM : List (List Int) :=
  [ [64, 64, 64, 64, 64, 64, 64, 64],
    [88, 75, 50, 18, -18, -50, -75, -88],
    [84, 35, -35, -84, -84, -35, 35, 84],
    [75, -18, -88, -50, 50, 88, 18, -75],
    [64, -64, -64, 64, 64, -64, -64, 64],
    [50, -88, 18, 75, -75, -18, 88, -50],
    [35, -84, 84, -35, -35, 84, -84, 35],
    [18, -50, 75, -88, 88, -75, 50, -18] ]

def mAt (k n : Nat) : Int := (kremaM.getD k []).getD n 0

def sumI (l : List Int) : Int := l.foldl (· + ·) 0

/-- R57: the inverse transform; coefficients by (v, u), residual by (y, x). -/
def inverseTransform (b : Nat) (c : Nat → Nat → Int) : Nat → Nat → Int :=
  let t := fun (y u : Nat) =>
    clampI ((sumI ((List.range 8).map fun v => mAt v y * c v u) + 64) / 128) (-(2 ^ (b + 4))) (2 ^ (b + 4) - 1)
  fun y x => (sumI ((List.range 8).map fun u => mAt u x * t y u) + 128) / 256

/-- R58: the scale table. -/
def scaleS : List Nat := [64, 70, 76, 83, 91, 99, 108, 117]

/-- R58: dequantisation of a level. -/
def dequant (b qi : Nat) (l : Int) : Int :=
  let mag := l.natAbs * scaleS.getD (qi % 8) 64 * 2 ^ (qi / 8 + b - 10) + 32
  let m := Int.ofNat (mag / 64)
  clampI (if l < 0 then -m else if l = 0 then 0 else m) (-(2 ^ (b + 3))) (2 ^ (b + 3) - 1)

/-- R58: the clamped reconstruction. -/
def lossySample (b : Nat) (p r : Int) : Nat := (clampI (p + r) 0 (2 ^ b - 1)).toNat

/-- R59: the diagonal order of the 64 levels, as (v, u). -/
def diagonal : List (Nat × Nat) :=
  (List.range 15).flatMap fun s =>
    ((List.range 8).filter fun v => decide (v ≤ s) && decide (s - v < 8)).map fun v => (v, s - v)

/-- R60: the sample a FLAT level gives. -/
def flatSample (b lf : Nat) : Nat := lf * 2 ^ (b - 8) + 2 ^ (b - 9)

/-- R173: the FLAT level of a unit: the mean of its samples shifted right by B − 8, rounding half up, at most 255. -/
def flatLevel (b : Nat) (samples : List Nat) : Nat :=
  let n := samples.length
  min 255 ((2 * samples.sum + n * 2 ^ (b - 8)) / (2 * (n * 2 ^ (b - 8))))

/-! ### Packed leaves and the input CRC -/

/-- The CFA samples of a leaf, raster order. -/
def leafSamples (pic : Rows) (r : Rect) : List Nat := r.cells.map fun q => Rows.at pic q.1 q.2

/-- A number as `b` bits, most significant first. -/
def msbBits (b n : Nat) : List Bool := (List.range b).map fun i => bitAt n (b - 1 - i)

/-- Bits packed into bytes, most significant first, the last byte padded with 0. -/
def packBits (l : List Bool) : List Byte :=
  (groups 8 (ceilDiv l.length 8) l).map fun g =>
    BitVec.ofNat 8 ((List.range 8).foldl (fun a i => 2 * a + (if g.getD i false then 1 else 0)) 0)

/-- Bytes as bits, most significant first. -/
def unpackBits (l : List Byte) : List Bool := l.flatMap fun b => msbBits 8 b.toNat

def bitsToNat (l : List Bool) : Nat := l.foldl (fun a b => 2 * a + (if b then 1 else 0)) 0

/-- R54: the packed size of a leaf, in bytes. -/
def packedSize (b : Nat) (r : Rect) : Nat := ceilDiv (r.w * r.h * b) 8

/-- R54: the packed samples of a STORED leaf. -/
def packSamples (b : Nat) (l : List Nat) : List Byte := packBits (l.flatMap (msbBits b))

/-- R54: the samples of packed bytes. -/
def unpackSamples (b n : Nat) (l : List Byte) : List Nat := (groups b n (unpackBits l)).map bitsToNat

/-- R62: the input CRC over samples as 16-bit little-endian values. -/
def inputCrc (l : List Nat) : Nat := crc32c (l.flatMap (leBytes 2))

/-- R84: the FLAT units of a leaf, plane by plane: plane position and rectangle in plane leaf coordinates. -/
def KSeq.flatUnits (k : KSeq) (n : Nat) : List ((Nat × Nat) × Rect) :=
  let pl := k.planeLeaf n
  k.planes.flatMap fun q => (tiles 8 pl.w pl.h).map fun t => (q, t)

/-- R167: the FLAT size of a leaf: its header byte and one byte per unit. -/
def KSeq.flatSize (k : KSeq) (n : Nat) : Nat := 1 + (k.flatUnits n).length

/-- The picture sample of a plane position (R34). -/
def KSeq.planeAt (k : KSeq) (pic : Rows) (q : Nat × Nat) (x y : Nat) : Nat :=
  Rows.at pic (x * k.period + q.2) (y * k.period + q.1)

/-- R60, R173: the body of a FLAT leaf for a picture. -/
def KSeq.flatBody (k : KSeq) (pic : Rows) (n : Nat) : List Byte :=
  let pl := k.planeLeaf n
  (k.flatUnits n).map fun u =>
    BitVec.ofNat 8 (flatLevel k.depth (u.2.cells.map fun c => k.planeAt pic u.1 (pl.x + c.1) (pl.y + c.2)))

/-- A leaf's reconstruction, CFA samples by column and row inside the leaf, from its plane leaves. -/
def KSeq.mosaic (k : KSeq) (r : Rect) (f : Nat → Nat → Nat → Nat) : Rows :=
  (List.range r.h).map fun y => (List.range r.w).map fun x =>
    f (k.planes.idxOf (y % k.period, x % k.period)) (x / k.period) (y / k.period)

/-- Placing a leaf's rows into a picture. -/
def placeLeaf (pic : Rows) (r : Rect) (leaf : Rows) : Rows :=
  pic.mapIdx fun y row =>
    if r.y ≤ y ∧ y < r.y + r.h then
      row.mapIdx fun x v => if r.x ≤ x ∧ x < r.x + r.w then Rows.at leaf (x - r.x) (y - r.y) else v
    else row

/-- A picture filled with one value. -/
def fillPicture (w h v : Nat) : Rows := List.replicate h (List.replicate w v)

/-- The leaf's rows of a picture. -/
def cutLeaf (pic : Rows) (r : Rect) : Rows :=
  (List.range r.h).map fun y => (List.range r.w).map fun x => Rows.at pic (r.x + x) (r.y + y)

end Sys2Proof.Machine
end

