-- ==== Sys2Proof/Machine/KremaCoder.lean ====
section
/-! DEFINITION. The Krema range coder and adaptive tables (R91 to R104 of 03_krema_bitstream.md). -/
namespace Sys2Proof.Machine

/-- R95: an adaptive table of `n` symbols. -/
structure ATab where
  n : Nat
  g : List Nat
  count : Nat
  deriving DecidableEq, Repr

/-- R95: `gtot`. -/
def gtot (n : Nat) : Nat := 32768 - 128 * n

/-- R96: a table at reset. -/
def ATab.reset (n : Nat) : ATab :=
  { n := n, g := (List.range (n + 1)).map fun s => gtot n * s / n, count := 0 }

/-- R95: the cumulative frequency `F[s]`. -/
def ATab.F (t : ATab) (s : Nat) : Nat := t.g.getD s 0 + 128 * s

/-- R98: adaptation after symbol `x`. -/
def ATab.adapt (t : ATab) (x : Nat) : ATab :=
  let rate := 4 + min (t.count / 16) 3
  { t with
    g := t.g.mapIdx (fun s v =>
      if s = 0 ∨ s = t.n then v
      else if s ≤ x then v - v / 2 ^ rate
      else v + (gtot t.n - v) / 2 ^ rate)
    count := if t.count < 48 then t.count + 1 else t.count }

/-- R97: the boundary `lo(s)`. -/
def ATab.bound (t : ATab) (rng s : Nat) : Nat := rng * t.F s / 32768

/-! ### Context tables (R102), numbered -/

def tabClass (ctx : Nat) : Nat := ctx
def tabSplit (pc : Nat) : Nat := 64 + pc
def tabLift : Nat := 68
def tabFamily (pc : Nat) : Nat := 69 + pc
def tabDirMode : Nat := 73
def tabRefIdx : Nat := 74
def tabMvClass (axis : Nat) : Nat := 75 + axis
def tabOffsetClass : Nat := 77
def tabTuCoded (pc : Nat) : Nat := 78 + pc

/-- R102: the alphabet of each table. -/
def tabSize (k : Nat) : Nat :=
  if k < 64 then 17 else if k < 69 then 2 else if k < 73 then 4 else if k = 73 then 10
  else if k = 74 then 2 else if k < 77 then 15 else if k = 77 then 17 else 2

/-- The tables of a leaf; a table not listed is at reset. -/
abbrev Tables := Tab ATab

def freshTable (k : Nat) : ATab := ATab.reset (tabSize k)
def Tables.at (t : Tables) (k : Nat) : ATab := Tab.get freshTable t k
def Tables.adapt (t : Tables) (k x : Nat) : Tables := Tab.set freshTable t k ((t.at k).adapt x)

/-- One coded element: a symbol of a table, or a bypass bit. -/
inductive Sym where
  | sym (table value : Nat)
  | bypass (bit : Bool)
  deriving DecidableEq, Repr

/-! ### Encoder -/

/-- R91: the encoder; the body's bytes newest first. -/
structure Enc where
  low : Nat
  rng : Nat
  count : Nat
  out : List Byte
  tabs : Tables
  deriving DecidableEq, Repr

def Enc.init : Enc := { low := 0, rng := 0xFFFF, count := 0, out := [], tabs := [] }

/-- R92: the carry into the last byte written. -/
def carryInto : List Byte → List Byte
  | [] => []
  | b :: r => if b = 0xFF#8 then 0#8 :: carryInto r else (b + 1#8) :: r

/-- R92: `put`. -/
def Enc.put (e : Enc) (v : Nat) : Enc :=
  { e with out := if 2 ≤ e.count then BitVec.ofNat 8 v :: e.out else e.out, count := e.count + 1 }

/-- R92: renormalisation; two steps always suffice. -/
def Enc.renorm : Nat → Enc → Enc
  | 0, e => e
  | n + 1, e =>
    if e.rng < 256 then
      let e' := e.put (e.low / 2 ^ 24 % 256)
      Enc.renorm n { e' with low := e.low * 256 % 2 ^ 32, rng := e.rng * 256 }
    else e

/-- R92: `enc_interval`. -/
def Enc.interval (e : Enc) (a b : Nat) : Enc :=
  let l := e.low + a
  let e1 := if 2 ^ 32 ≤ l then { e with low := l % 2 ^ 32, out := carryInto e.out } else { e with low := l }
  Enc.renorm 2 { e1 with rng := b - a }

/-- R97, R99: one element. -/
def Enc.sym (e : Enc) : Sym → Enc
  | .sym k s =>
    let t := e.tabs.at k
    let e' := e.interval (t.bound e.rng s) (t.bound e.rng (s + 1))
    { e' with tabs := e.tabs.adapt k s }
  | .bypass bit => let half := e.rng / 2; if bit then e.interval half e.rng else e.interval 0 half

/-- R92: `enc_finish`, and the body. -/
def Enc.finish (e : Enc) : List Byte :=
  ((((e.put (e.low / 2 ^ 24 % 256)).put (e.low / 2 ^ 16 % 256)).put (e.low / 2 ^ 8 % 256)).put (e.low % 256)).out.reverse

/-- The body of a CODED leaf from its elements (R84). -/
def encodeSyms (l : List Sym) : List Byte := (l.foldl Enc.sym Enc.init).finish

/-! ### Decoder -/

/-- R94: how decoding a leaf fails. -/
inductive KErr where
  | overrun
  | syntaxError
  deriving DecidableEq, Repr

/-- R91: the decoder. -/
structure Dec where
  rng : Nat
  d : Nat
  body : List Byte
  tabs : Tables
  deriving DecidableEq, Repr

/-- A decoding step: a result, or the failure. -/
abbrev DecM (α : Type) := Dec → Except KErr (α × Dec)

def DecM.pure {α : Type} (a : α) : DecM α := fun d => .ok (a, d)
def DecM.bind {α β : Type} (m : DecM α) (f : α → DecM β) : DecM β := fun d =>
  match m d with
  | .error e => .error e
  | .ok (a, d') => f a d'
def DecM.fail {α : Type} (e : KErr) : DecM α := fun _ => .error e

/-- A step for each element of a list, in order, threading a value. -/
def DecM.fold {α σ : Type} (f : σ → α → DecM σ) : List α → σ → DecM σ
  | [], s => DecM.pure s
  | a :: r, s => DecM.bind (f s a) (DecM.fold f r)

/-- R94: renormalisation. -/
def Dec.renorm : Nat → Dec → Except KErr Dec
  | 0, d => .ok d
  | n + 1, d =>
    if d.rng < 256 then
      match d.body with
      | [] => .error .overrun
      | b :: r => Dec.renorm n { d with d := d.d * 256 + b.toNat, rng := d.rng * 256, body := r }
    else .ok d

/-- R94: `dec_init`. -/
def Dec.init (body : List Byte) : Except KErr Dec :=
  match body with
  | a :: b :: r =>
    let v := a.toNat * 256 + b.toNat
    if 0xFFFF ≤ v then .error .syntaxError else .ok { rng := 0xFFFF, d := v, body := r, tabs := [] }
  | _ => .error .overrun

/-- R97: the largest symbol whose boundary does not exceed `d`. -/
def ATab.find (t : ATab) (rng d : Nat) : Nat → Nat
  | 0 => 0
  | s + 1 => if t.bound rng (s + 1) ≤ d then s + 1 else t.find rng d s

/-- R97: decode a symbol. -/
def decSym (k : Nat) : DecM Nat := fun d =>
  let t := d.tabs.at k
  let s := t.find d.rng d.d (t.n - 1)
  let lo := t.bound d.rng s
  match Dec.renorm 2 { d with d := d.d - lo, rng := t.bound d.rng (s + 1) - lo } with
  | .error e => .error e
  | .ok d' => .ok (s, { d' with tabs := d.tabs.adapt k s })

/-- R99: decode a bypass bit. -/
def decBypass : DecM Bool := fun d =>
  let half := d.rng / 2
  let r := if d.d < half then Dec.renorm 2 { d with rng := half }
    else Dec.renorm 2 { d with d := d.d - half, rng := d.rng - half }
  match r with
  | .error e => .error e
  | .ok d' => .ok (decide (half ≤ d.d), d')

/-- R99: `n` bypass bits, most significant first. -/
def decBits : Nat → Nat → DecM Nat
  | 0, acc => DecM.pure acc
  | n + 1, acc => DecM.bind decBypass fun b => decBits n (2 * acc + (if b then 1 else 0))

/-! ### Signed values (R100) -/

def zigzag (v : Int) : Nat := if 0 ≤ v then 2 * v.toNat else 2 * v.natAbs - 1

def unzigzag (u : Nat) : Int := if u % 2 = 0 then Int.ofNat (u / 2) else -Int.ofNat ((u + 1) / 2)

def magClass (u : Nat) : Nat := if u = 0 then 0 else log2 u + 1

/-- The elements of a signed value coded with table `t`. -/
def signedSyms (t : Nat) (v : Int) : List Sym :=
  let u := zigzag v
  let k := magClass u
  .sym t k :: (msbBits (k - 1) u).map .bypass

/-- R100, R101: decode a signed value whose class may be at most `limit`. -/
def decSigned (t limit : Nat) : DecM Int :=
  DecM.bind (decSym t) fun k =>
    if limit < k then DecM.fail .syntaxError
    else if k = 0 then DecM.pure 0
    else DecM.bind (decBits (k - 1) 1) fun u => DecM.pure (unzigzag u)

/-- R103: the activity bin. -/
def activityBin (a : Nat) : Nat :=
  ([1, 3, 7, 15, 31, 63, 127].filter (fun t => decide (t ≤ a))).length

/-- R103: the class context. -/
def classCtx (a pc ie : Nat) : Nat := activityBin a + 8 * pc + 32 * ie

end Sys2Proof.Machine
end

