-- ==== Sys2Proof/Machine/KremaLeaf.lean ====
section
/-! DEFINITION. Leaf syntax, leaf reconstruction and the coding of a leaf from a carrel's choices (R39 to R61,
R83, R84, R105 to R112). Choices are the encoder's own (not normative); an illegal or missing choice counts
as INTRA_DIR mode DC, which every picture and variant permits. -/
namespace Sys2Proof.Machine

/-- A prediction unit: its family and, in Krema-L, its coded values in raster order. -/
structure PUnit where
  fam : Family
  vals : List Int
  deriving DecidableEq, Repr

/-- A block: flags, units, and in Krema-V the levels of its transform units in coding order, diagonal order
inside each (`none`: tu_coded is 0). -/
structure KBlock where
  split : Bool
  lift : Bool
  units : List PUnit
  tus : List (Option (List Int))
  deriving DecidableEq, Repr

/-- The syntax of a CODED leaf: blocks by plane. -/
abbrev LeafSyn := List (List KBlock)

/-- What a leaf is coded or decoded against: the sequence, the leaf, the picture type, the named references. -/
structure LeafEnv where
  k : KSeq
  leaf : Nat
  refFlags : Nat
  refs : List Rows
  qi : Nat

def LeafEnv.pl (e : LeafEnv) : Rect := e.k.planeLeaf e.leaf

/-- R105: the number of bypass bits of src_plane. -/
def srcPlaneBits (p : Nat) : Nat := if p ≤ 1 then 0 else log2 (p - 1) + 1

/-- R108 and the element ranges: a family is permitted in plane `p`. -/
def LeafEnv.famOk (e : LeafEnv) (p : Nat) : Family → Bool
  | .grad => !e.k.variantV
  | .dir m => decide (m < 10)
  | .inter r x y => bitAt e.refFlags r && decide (r < 2) && mvOk x y
  | .plane s o => decide (s < p) && decide (-(2 ^ (e.k.depth - 1)) ≤ o ∧ o < 2 ^ (e.k.depth - 1))

/-- R42 to R48: the prediction of a unit that is predicted as a whole (every family but INTRA_GRAD). -/
def LeafEnv.pred (e : LeafEnv) (p : Nat) (earlier : List (Known Nat)) (rec : Known Nat) (u : Rect) :
    Family → Nat → Nat → Int
  | .grad => fun _ _ => 0
  | .dir m => predDir e.k.mid rec e.pl.w e.pl.h u m
  | .inter r mx my => fun x y =>
    let q := e.k.planes.getD p (0, 0)
    Int.ofNat (halfSample (e.k.width / e.k.period) (e.k.height / e.k.period)
      (e.k.planeAt (e.refs.getD r []) q)
      (Int.ofNat (e.pl.x + u.x + x)) (Int.ofNat (e.pl.y + u.y + y)) mx my)
  | .plane s o => fun x y =>
    clampI (Int.ofNat (((earlier.getD s []).at (u.x + x) (u.y + y)).getD e.k.mid) + o)
      0 (2 ^ e.k.depth - 1)

/-- The 64 coefficients, by (v, u), of levels in diagonal order. -/
def coefOf (b qi : Nat) (levels : List Int) (v u : Nat) : Int :=
  dequant b qi (levels.getD (diagonal.idxOf (v, u)) 0)

/-- R56, R57: the residual of a block in Krema-V, by plane leaf position. -/
def LeafEnv.lossyResidual (e : LeafEnv) (b : Rect) (tus : List (Option (List Int))) (x y : Nat) : Int :=
  let i := (x - b.x) / 8 + (y - b.y) / 8 * ceilDiv b.w 8
  match tus.getD i none with
  | none => 0
  | some l => inverseTransform e.k.depth (coefOf e.k.depth e.qi l) ((y - b.y) % 8) ((x - b.x) % 8)

/-- The values of the units of a block by position. -/
def valuesAt (us : List (Rect × PUnit)) (x y : Nat) : Option Int :=
  match us.find? (fun u => decide (u.1.x ≤ x ∧ x < u.1.x + u.1.w ∧ u.1.y ≤ y ∧ y < u.1.y + u.1.h)) with
  | none => none
  | some u => some (u.2.vals.getD ((y - u.1.y) * u.1.w + (x - u.1.x)) 0)

/-- R43 to R58: reconstruct one unit, its residual given by position. -/
def LeafEnv.reconUnit (e : LeafEnv) (p : Nat) (earlier : List (Known Nat)) (res : Nat → Nat → Int)
    (rec : Known Nat) (u : Rect) (fam : Family) : Known Nat :=
  let whole := e.pred p earlier rec u fam
  u.cells.foldl (fun r c =>
    let pr := match fam with
      | .grad => predGrad e.k.mid r c.1 c.2
      | _ => whole (c.1 - u.x) (c.2 - u.y)
    let s := if e.k.variantV then lossySample e.k.depth pr (res c.1 c.2)
      else losslessSample e.k.depth pr (res c.1 c.2)
    r.set c.1 c.2 s) rec

/-- Reconstruct one block of plane `p`. -/
def LeafEnv.reconBlock (e : LeafEnv) (p : Nat) (earlier : List (Known Nat)) (rec : Known Nat) (b : Rect)
    (kb : KBlock) : Known Nat :=
  let us := List.zip (unitsOf b kb.split) kb.units
  let coded : Nat → Nat → Int := fun x y => (valuesAt us x y).getD 0
  let res : Nat → Nat → Int :=
    if e.k.variantV then e.lossyResidual b kb.tus
    else if kb.lift then liftBlock (lift2Inv e.k.depth) b coded else coded
  us.foldl (fun r u => e.reconUnit p earlier res r u.1 u.2.fam) rec

/-- Reconstruct the planes of a leaf, in plane order. -/
def LeafEnv.reconPlanes (e : LeafEnv) (syn : LeafSyn) : List (Known Nat) :=
  (List.range e.k.planes.length).foldl (fun done p =>
    done ++ [(List.zip (blocksOf e.pl.w e.pl.h) (syn.getD p [])).foldl
      (fun r b => e.reconBlock p done r b.1 b.2) []]) []

/-- The CFA rows of a leaf's reconstruction. -/
def LeafEnv.recon (e : LeafEnv) (syn : LeafSyn) : Rows :=
  let ps := e.reconPlanes syn
  e.k.mosaic (e.k.leaf e.leaf) fun p x y => ((ps.getD p []).at x y).getD e.k.mid

/-! ### Elements of a leaf, in coding order (R107) -/

/-- R107 `unit_params`, with the vector predictor of R106 threaded. -/
def unitSyms (e : LeafEnv) (pc p : Nat) (mvp : Int × Int) (f : Family) : List Sym × (Int × Int) :=
  let fam := Sym.sym (tabFamily pc) f.code
  match f with
  | .grad => ([fam], mvp)
  | .dir m => ([fam, .sym tabDirMode m], mvp)
  | .inter r x y =>
    (fam :: (if e.refFlags = 3 then [.sym tabRefIdx r] else []) ++
      signedSyms (tabMvClass 0) (x - mvp.1) ++ signedSyms (tabMvClass 1) (y - mvp.2), (x, y))
  | .plane s o =>
    (fam :: (msbBits (srcPlaneBits p) s).map .bypass ++ signedSyms tabOffsetClass o, mvp)

/-- R103, R104: the residual elements of a unit in Krema-L; the coded values so far are threaded. -/
def residualSyms (pc ie : Nat) (u : Rect) (vals : List Int) (known : Known Int) : List Sym × Known Int :=
  (List.zip u.cells vals).foldl (fun (acc : List Sym × Known Int) cv =>
    let x := cv.1.1
    let y := cv.1.2
    let left := if x = 0 then 0 else ((acc.2.at (x - 1) y).getD 0).natAbs
    let up := if y = 0 then 0 else ((acc.2.at x (y - 1)).getD 0).natAbs
    (acc.1 ++ signedSyms (tabClass (classCtx (left + up) pc ie)) cv.2, acc.2.set x y cv.2)) ([], known)

/-- R104, R107: the elements of a transform unit in Krema-V. -/
def tuSyms (pc ie : Nat) : Option (List Int) → List Sym
  | none => [.sym (tabTuCoded pc) 0]
  | some ls =>
    .sym (tabTuCoded pc) 1 ::
    ((List.zip diagonal ls).foldl (fun (acc : List Sym × Known Int) cv =>
      let v := cv.1.1
      let u := cv.1.2
      let left := if u = 0 then 0 else ((acc.2.at v (u - 1)).getD 0).natAbs
      let up := if v = 0 then 0 else ((acc.2.at (v - 1) u).getD 0).natAbs
      (acc.1 ++ signedSyms (tabClass (classCtx (left + up) pc ie)) cv.2, acc.2.set v u cv.2))
      ([], [])).1

/-- What is threaded through a leaf: elements so far, vector predictor, coded values of the plane leaf. -/
structure SynSt where
  out : List Sym
  mvp : Int × Int
  known : Known Int

/-- The elements of one block (R107). -/
def blockSyms (e : LeafEnv) (pc p : Nat) (s : SynSt) (bk : Rect × KBlock) : SynSt :=
  let b := bk.1
  let kb := bk.2
  let s1 := { s with
    out := s.out ++ (if b.mayBeSplit then [.sym (tabSplit pc) (if kb.split then 1 else 0)] else [])
      ++ (if !e.k.variantV && decide (4 ≤ b.w ∧ 4 ≤ b.h) then [.sym tabLift (if kb.lift then 1 else 0)] else []) }
  let us := List.zip (unitsOf b kb.split) kb.units
  let s2 := (us.zipIdx).foldl (fun (st : SynSt) ui =>
    let u := ui.1
    let q := unitSyms e pc p st.mvp u.2.fam
    let st1 := { st with out := st.out ++ q.1, mvp := q.2 }
    if e.k.variantV then
      if kb.split then { st1 with out := st1.out ++ tuSyms pc u.2.fam.ie (kb.tus.getD ui.2 none) } else st1
    else
      let r := residualSyms pc u.2.fam.ie u.1 u.2.vals st1.known
      { st1 with out := st1.out ++ r.1, known := r.2 }) s1
  if e.k.variantV && !kb.split then
    let ie := match kb.units with | u :: _ => u.fam.ie | [] => 0
    { s2 with out := s2.out ++ ((List.range (subBlocks b).length).flatMap fun i => tuSyms pc ie (kb.tus.getD i none)) }
  else s2

/-- R107: every element of a leaf. -/
def leafSyms (e : LeafEnv) (syn : LeafSyn) : List Sym :=
  ((List.range e.k.planes.length).foldl (fun (s : SynSt) p =>
    let pc := e.k.planeClass (e.k.planes.getD p (0, 0))
    (List.zip (blocksOf e.pl.w e.pl.h) (syn.getD p [])).foldl (blockSyms e pc p)
      { s with known := [] }) { out := [], mvp := (0, 0), known := [] }).out

/-! ### Decoding (R107 to R109) -/

/-- R107 `unit_params` of the decoder. -/
def decUnit (e : LeafEnv) (pc p : Nat) (mvp : Int × Int) : DecM (Family × (Int × Int)) :=
  DecM.bind (decSym (tabFamily pc)) fun f =>
  match f with
  | 0 => if e.k.variantV then DecM.fail .syntaxError else DecM.pure (.grad, mvp)
  | 1 => DecM.bind (decSym tabDirMode) fun m => DecM.pure (.dir m, mvp)
  | 2 =>
    if e.refFlags = 0 then DecM.fail .syntaxError
    else
      DecM.bind (if e.refFlags = 3 then decSym tabRefIdx else DecM.pure 0) fun r =>
      if bitAt e.refFlags r then
        DecM.bind (decSigned (tabMvClass 0) 14) fun dx =>
        DecM.bind (decSigned (tabMvClass 1) 14) fun dy =>
        let v := (mvp.1 + dx, mvp.2 + dy)
        if mvOk v.1 v.2 then DecM.pure (.inter r v.1 v.2, v) else DecM.fail .syntaxError
      else DecM.fail .syntaxError
  | _ =>
    if p = 0 then DecM.fail .syntaxError
    else
      DecM.bind (decBits (srcPlaneBits p) 0) fun s =>
      if p ≤ s then DecM.fail .syntaxError
      else DecM.bind (decSigned tabOffsetClass e.k.depth) fun o => DecM.pure (.plane s o, mvp)

/-- The residual values of a unit. -/
def decResidual (e : LeafEnv) (pc ie : Nat) (u : Rect) (known : Known Int) : DecM (List Int × Known Int) :=
  DecM.fold (fun (acc : List Int × Known Int) (c : Nat × Nat) =>
    let left := if c.1 = 0 then 0 else ((acc.2.at (c.1 - 1) c.2).getD 0).natAbs
    let up := if c.2 = 0 then 0 else ((acc.2.at c.1 (c.2 - 1)).getD 0).natAbs
    DecM.bind (decSigned (tabClass (classCtx (left + up) pc ie)) e.k.depth) fun v =>
      DecM.pure (acc.1 ++ [v], acc.2.set c.1 c.2 v)) u.cells ([], known)

/-- A transform unit's levels. -/
def decTu (pc ie : Nat) : DecM (Option (List Int)) :=
  DecM.bind (decSym (tabTuCoded pc)) fun c =>
    if c = 0 then DecM.pure none
    else
      DecM.bind (DecM.fold (fun (acc : List Int × Known Int) (q : Nat × Nat) =>
        let left := if q.2 = 0 then 0 else ((acc.2.at q.1 (q.2 - 1)).getD 0).natAbs
        let up := if q.1 = 0 then 0 else ((acc.2.at (q.1 - 1) q.2).getD 0).natAbs
        DecM.bind (decSigned (tabClass (classCtx (left + up) pc ie)) 16) fun v =>
          DecM.pure (acc.1 ++ [v], acc.2.set q.1 q.2 v)) diagonal ([], [])) fun r =>
      DecM.pure (some r.1)

/-- What the decoder threads: blocks so far, vector predictor, coded values. -/
structure DecSt where
  blocks : List KBlock
  mvp : Int × Int
  known : Known Int

/-- One block (R107). -/
def decBlock (e : LeafEnv) (pc p : Nat) (s : DecSt) (b : Rect) : DecM DecSt :=
  DecM.bind (if b.mayBeSplit then decSym (tabSplit pc) else DecM.pure 0) fun sp =>
  DecM.bind (if !e.k.variantV && decide (4 ≤ b.w ∧ 4 ≤ b.h) then decSym tabLift else DecM.pure 0) fun lf =>
  let split := sp == 1
  DecM.bind (DecM.fold (fun (acc : KBlock × (Int × Int) × Known Int) (u : Rect) =>
    DecM.bind (decUnit e pc p acc.2.1) fun fm =>
    if e.k.variantV then
      DecM.bind (if split then DecM.bind (decTu pc fm.1.ie) (fun t => DecM.pure [t]) else DecM.pure []) fun ts =>
      DecM.pure ({ acc.1 with units := acc.1.units ++ [{ fam := fm.1, vals := [] }], tus := acc.1.tus ++ ts },
        fm.2, acc.2.2)
    else
      DecM.bind (decResidual e pc fm.1.ie u acc.2.2) fun r =>
      DecM.pure ({ acc.1 with units := acc.1.units ++ [{ fam := fm.1, vals := r.1 }] }, fm.2, r.2))
    (unitsOf b split) ({ split := split, lift := lf == 1, units := [], tus := [] }, s.mvp, s.known)) fun r =>
  let ie := match r.1.units with | u :: _ => u.fam.ie | [] => 0
  DecM.bind (if e.k.variantV && !split then
      DecM.fold (fun (acc : List (Option (List Int))) (_ : Rect) =>
        DecM.bind (decTu pc ie) fun t => DecM.pure (acc ++ [t])) (subBlocks b) []
    else DecM.pure r.1.tus) fun ts =>
  DecM.pure { blocks := s.blocks ++ [{ r.1 with tus := ts }], mvp := r.2.1, known := r.2.2 }

/-- The planes of a leaf. -/
def decPlanes (e : LeafEnv) : DecM (LeafSyn × (Int × Int)) :=
  DecM.fold (fun (acc : LeafSyn × (Int × Int)) p =>
    let pc := e.k.planeClass (e.k.planes.getD p (0, 0))
    DecM.bind (DecM.fold (decBlock e pc p) (blocksOf e.pl.w e.pl.h)
      { blocks := [], mvp := acc.2, known := [] }) fun s =>
    DecM.pure (acc.1 ++ [s.blocks], s.mvp)) (List.range e.k.planes.length) ([], (0, 0))

/-- R107: decode a CODED body whole, with `dec_finish`. -/
def decodeCoded (e : LeafEnv) (body : List Byte) : Except KErr LeafSyn :=
  match Dec.init body with
  | .error x => .error x
  | .ok d =>
    match decPlanes e d with
    | .error x => .error x
    | .ok (r, d') => if d'.body.isEmpty then .ok r.1 else .error .syntaxError

/-! ### Coding a leaf from choices -/

/-- Leaf kinds (R54, R83). -/
inductive LeafKind where
  | coded
  | stored
  | flat
  deriving DecidableEq, Repr

def LeafKind.code : LeafKind → Nat
  | .coded => 0 | .stored => 1 | .flat => 2

/-- The choice made legal. -/
def LeafEnv.legal (e : LeafEnv) (p : Nat) (f : Family) : Family := if e.famOk p f then f else .dir 0

/-- R51, R52: code one block of plane `p` in Krema-L from its choices: the input samples are the
reconstruction. -/
def LeafEnv.codeBlockL (e : LeafEnv) (p : Nat) (earlier : List (Known Nat)) (input : Nat → Nat → Nat)
    (rec : Known Nat) (b : Rect) (ch : KBlock) : Known Nat × KBlock :=
  let split := ch.split && b.mayBeSplit
  let lift := ch.lift && decide (4 ≤ b.w ∧ 4 ≤ b.h)
  let us := (unitsOf b split).zipIdx.map fun ui =>
    (ui.1, e.legal p ((ch.units.getD ui.2 { fam := .dir 0, vals := [] }).fam))
  let step := us.foldl (fun (acc : Known Nat × Known Int) u =>
    let whole := e.pred p earlier acc.1 u.1 u.2
    u.1.cells.foldl (fun (a : Known Nat × Known Int) c =>
      let pr := match u.2 with
        | .grad => predGrad e.k.mid a.1 c.1 c.2
        | _ => whole (c.1 - u.1.x) (c.2 - u.1.y)
      (a.1.set c.1 c.2 (input c.1 c.2), a.2.set c.1 c.2 (wrapB e.k.depth (Int.ofNat (input c.1 c.2) - pr))))
      acc) (rec, [])
  let res : Nat → Nat → Int := fun x y => (step.2.at x y).getD 0
  let coded := if lift then liftBlock (lift2Fwd e.k.depth) b res else res
  (step.1, { split := split, lift := lift, tus := [],
             units := us.map fun u => { fam := u.2, vals := u.1.cells.map fun c => coded c.1 c.2 } })

/-- R56: code one block in Krema-V: the levels are the carrel's choice, clamped to their class limit (R101). -/
def LeafEnv.codeBlockV (e : LeafEnv) (p : Nat) (earlier : List (Known Nat)) (rec : Known Nat) (b : Rect)
    (ch : KBlock) : Known Nat × KBlock :=
  let split := ch.split && b.mayBeSplit
  let us := (unitsOf b split).zipIdx.map fun ui =>
    { fam := e.legal p ((ch.units.getD ui.2 { fam := .dir 0, vals := [] }).fam), vals := [] }
  let tus := (List.range (subBlocks b).length).map fun i =>
    (ch.tus.getD i none).map fun l => (List.range 64).map fun j => clampI (l.getD j 0) (-32768) 32767
  let kb : KBlock := { split := split, lift := false, units := us, tus := tus }
  (e.reconBlock p earlier rec b kb, kb)

/-- Code every plane of a leaf: the reconstruction and the syntax. -/
def LeafEnv.codePlanes (e : LeafEnv) (pic : Rows) (ch : LeafSyn) : List (Known Nat) × LeafSyn :=
  (List.range e.k.planes.length).foldl (fun (acc : List (Known Nat) × LeafSyn) p =>
    let q := e.k.planes.getD p (0, 0)
    let input := fun x y => e.k.planeAt pic q (e.pl.x + x) (e.pl.y + y)
    let r := ((blocksOf e.pl.w e.pl.h).zipIdx).foldl (fun (a : Known Nat × List KBlock) bi =>
      let c := (ch.getD p []).getD bi.2 { split := false, lift := false, units := [], tus := [] }
      let o := if e.k.variantV then e.codeBlockV p acc.1 a.1 bi.1 c else e.codeBlockL p acc.1 input a.1 bi.1 c
      (o.1, a.2 ++ [o.2])) ([], [])
    (acc.1 ++ [r.1], acc.2 ++ [r.2])) ([], [])

/-- A coded leaf: kind, quantiser index, body, reconstruction. -/
structure LeafCode where
  kind : LeafKind
  qi : Nat
  body : List Byte
  recon : Rows
  deriving DecidableEq, Repr

/-- R83: the leaf header byte and the body. -/
def LeafCode.bytes (c : LeafCode) : List Byte := BitVec.ofNat 8 (c.kind.code * 64 + c.qi) :: c.body

/-- R159, R165: the bits of a Krema leaf: 8 × (1 + body length). -/
def LeafCode.bits (c : LeafCode) : Nat := 8 * (1 + c.body.length)

/-- R60, R173: a leaf coded FLAT. -/
def LeafEnv.codeFlat (e : LeafEnv) (pic : Rows) : LeafCode :=
  let body := e.k.flatBody pic e.leaf
  let units := List.zip (e.k.flatUnits e.leaf) body
  { kind := .flat, qi := 0, body := body,
    recon := e.k.mosaic (e.k.leaf e.leaf) fun p x y =>
      match units.find? (fun u => u.1.1 == e.k.planes.getD p (0, 0) &&
          decide (u.1.2.x ≤ x ∧ x < u.1.2.x + u.1.2.w ∧ u.1.2.y ≤ y ∧ y < u.1.2.y + u.1.2.h)) with
      | some u => flatSample e.k.depth u.2.toNat
      | none => e.k.mid }

/-- R54, R84: a leaf coded CODED, or in Krema-L STORED where the coded payload is not smaller than the packed size. -/
def LeafEnv.codeLeaf (e : LeafEnv) (pic : Rows) (ch : LeafSyn) : LeafCode :=
  let r := e.codePlanes pic ch
  let body := encodeSyms (leafSyms e r.2)
  let rect := e.k.leaf e.leaf
  if !e.k.variantV && decide (packedSize e.k.depth rect ≤ body.length) then
    { kind := .stored, qi := 0, body := packSamples e.k.depth (leafSamples pic rect), recon := cutLeaf pic rect }
  else
    { kind := .coded, qi := if e.k.variantV then e.qi else 0, body := body,
      recon := e.k.mosaic rect fun p x y => ((r.1.getD p []).at x y).getD e.k.mid }

/-- The references that the INTER units of a leaf read. -/
def LeafSyn.usedRefs (s : LeafSyn) : List Nat :=
  s.flatMap fun p => p.flatMap fun b => b.units.flatMap fun u =>
    match u.fam with
    | .inter r _ _ => [r]
    | _ => []

/-- R111, rules 2 and 3: decode a leaf's header and body, without the CRC check: the rows and the references read. The bits that pad the
last byte of a STORED leaf are not looked at (DESIGN CHOICE, log entry 118). -/
def LeafEnv.decodeLeaf (e : LeafEnv) (leafBytes : List Byte) : Except KErr (Rows × List Nat) :=
  let rect := e.k.leaf e.leaf
  match leafBytes with
  | [] => .error .syntaxError
  | h :: body =>
    let kind := h.toNat / 64
    let qi := h.toNat % 64
    if kind = 0 then
      if !e.k.variantV && decide (qi ≠ 0) then .error .syntaxError
      else
        match decodeCoded { e with qi := qi } body with
        | .error x => .error x
        | .ok syn => .ok (LeafEnv.recon { e with qi := qi } syn, LeafSyn.usedRefs syn)
    else if qi ≠ 0 then .error .syntaxError
    else if kind = 1 then
      if body.length = packedSize e.k.depth rect then
        let l := unpackSamples e.k.depth (rect.w * rect.h) body
        .ok ((List.range rect.h).map fun y => (List.range rect.w).map fun x => l.getD (y * rect.w + x) 0, [])
      else .error .syntaxError
    else if kind = 2 then
      if !e.k.variantV || body.length ≠ (e.k.flatUnits e.leaf).length then .error .syntaxError
      else
        let units := List.zip (e.k.flatUnits e.leaf) body
        .ok ((e.k.mosaic rect fun p x y =>
          match units.find? (fun u => u.1.1 == e.k.planes.getD p (0, 0) &&
              decide (u.1.2.x ≤ x ∧ x < u.1.2.x + u.1.2.w ∧ u.1.2.y ≤ y ∧ y < u.1.2.y + u.1.2.h)) with
          | some u => flatSample e.k.depth u.2.toNat
          | none => e.k.mid), [])
    else .error .syntaxError

end Sys2Proof.Machine
end

