-- ==== Sys2Proof/Machine/KremaStream.lean ====
section
/-! DEFINITION. The Krema stream: headers, leaf index, colophon, leaf carriers (R71 to R90), and the decoding of a
picture with concealment, substitution and the concealment map (R66 to R70, R75, R76, R79, R82, R88, R89, R111). -/
namespace Sys2Proof.Machine

/-- Field of `n` bytes, most significant first, at an offset (R72). -/
def beAt (l : List Byte) (off n : Nat) : Nat := beNum ((l.drop off).take n)
/-- Field of `n` bytes, least significant first, at an offset. -/
def leAt (l : List Byte) (off n : Nat) : Nat := leNum ((l.drop off).take n)

/-- R73: a structure closed by its CRC-32C. -/
def withCrc (l : List Byte) : List Byte := l ++ beBytes 4 (crc32c l)

/-- R74: PHASE_TABLE as a word. -/
def KSeq.phaseWord (k : KSeq) : Nat :=
  (List.range 16).foldl (fun a i => a * 4 + (if i < k.period * k.period then k.phase.getD i 0 else 0) % 4) 0

/-- R74: CHANNEL_TAGS as a half word. -/
def KSeq.tagsWord (k : KSeq) : Nat := (List.range 4).foldl (fun a c => a * 16 + k.tag c % 16) 0

/-- R74: the sequence header. -/
def KSeq.header (k : KSeq) : List Byte :=
  withCrc (beBytes 4 0x4B525351 ++ [1#8, if k.variantV then 1#8 else 0#8] ++ beBytes 2 k.width ++ beBytes 2 k.height ++
    [BitVec.ofNat 8 k.depth, BitVec.ofNat 8 k.period] ++ beBytes 4 k.phaseWord ++ beBytes 2 k.tagsWord ++
    [BitVec.ofNat 8 k.key, 0#8] ++ beBytes 8 k.seqId)

/-- The phase table entries of a PHASE_TABLE word. -/
def phaseEntries (w : Nat) : List Nat := (List.range 16).map fun i => w / 2 ^ (30 - 2 * i) % 4
/-- The tags of a CHANNEL_TAGS half word. -/
def tagEntries (w : Nat) : List Nat := (List.range 4).map fun c => w / 2 ^ (12 - 4 * c) % 16

/-- R75: the entries of the phase table beyond the period are 0. -/
def phaseTailZero (period w : Nat) : Bool :=
  (List.range 16).all fun i => decide (i < period * period) || (phaseEntries w).getD i 0 == 0

/-- R75: a valid sequence header's contents. -/
def parseSeq (l : List Byte) : Option KSeq :=
  let k : KSeq :=
    { variantV := leAt l 5 1 == 1, width := beAt l 6 2, height := beAt l 8 2, depth := leAt l 10 1,
      period := leAt l 11 1, phase := phaseEntries (beAt l 12 4), tags := tagEntries (beAt l 16 2),
      key := leAt l 18 1, seqId := beAt l 20 8 }
  if beAt l 28 4 = crc32c (l.take 28) ∧ beAt l 0 4 = 0x4B525351 ∧ leAt l 4 1 = 1 ∧ leAt l 5 1 ≤ 1 ∧
     32 ≤ l.length ∧ 1 ≤ k.key ∧ k.key ≤ 240 ∧ k.cfaValid = true ∧ k.sizeValid = true ∧
     phaseTailZero k.period (beAt l 12 4) = true
  then some k else none

/-- R76: the fields that make a new sequence. -/
def KSeq.sameSequence (a b : KSeq) : Bool := decide ({ a with seqId := 0 } = { b with seqId := 0 })

/-- R69: the same geometry: W, H, CFA descriptor and B. -/
def KSeq.sameGeometry (a b : KSeq) : Bool :=
  a.width == b.width && a.height == b.height && a.depth == b.depth && a.period == b.period &&
  a.positions.all (fun q => a.chan q.1 q.2 == b.chan q.1 q.2 && a.tag (a.chan q.1 q.2) == b.tag (b.chan q.1 q.2))

/-- R77: what a picture header carries. -/
structure PicHdr where
  number : Nat
  typeP : Bool
  refFlags : Nat
  flags : Nat
  exposure : DTime
  epoch : Nat
  digest32 : Nat
  leafCount : Nat
  payloadLen : Nat
  deriving DecidableEq, Repr

/-- R77: the picture header. -/
def PicHdr.bytes (h : PicHdr) : List Byte :=
  withCrc (beBytes 4 0x4B525048 ++ beBytes 4 h.number ++ [if h.typeP then 1#8 else 0#8, BitVec.ofNat 8 h.refFlags] ++
    beBytes 2 h.flags ++ h.exposure.bytes ++ beBytes 4 h.epoch ++ beBytes 4 h.digest32 ++ beBytes 2 h.leafCount ++
    beBytes 2 0 ++ beBytes 4 h.payloadLen)

/-- A Dater time read from 12 bytes. -/
def parseTime (l : List Byte) : DTime :=
  { sec := BitVec.ofNat 48 (beAt l 0 6), ns := BitVec.ofNat 32 (beAt l 6 4), frac := BitVec.ofNat 16 (beAt l 10 2) }

/-- R79: a decodable picture header, for the last picture number decoded in the sequence. -/
def parsePicHdr (k : KSeq) (last : Option Nat) (l : List Byte) : Option PicHdr :=
  let h : PicHdr :=
    { number := beAt l 4 4, typeP := leAt l 8 1 == 1, refFlags := leAt l 9 1 % 4, flags := beAt l 10 2,
      exposure := parseTime (l.drop 12), epoch := beAt l 24 4, digest32 := beAt l 28 4,
      leafCount := beAt l 32 2, payloadLen := beAt l 36 4 }
  if 44 ≤ l.length ∧ beAt l 40 4 = crc32c (l.take 40) ∧ beAt l 0 4 = 0x4B525048 ∧ leAt l 8 1 ≤ 1 ∧
     (h.typeP = false → h.refFlags = 0) ∧ (h.typeP = true → bitAt h.refFlags 0 = true) ∧
     h.leafCount = k.leafCount ∧ (match last with | none => true | some n => decide (n < h.number)) = true
  then some h else none

/-- R81: the leaf index of leaves of given lengths. -/
def leafIndex (lens : List Nat) : List Byte :=
  let offs := lens.foldl (fun (acc : List Nat × Nat) n => (acc.1 ++ [acc.2 + n], acc.2 + n)) ([0], 0)
  offs.1.flatMap (beBytes 4)

/-- R81, R82: the offsets of a consistent leaf index of `n` leaves. -/
def parseIndex (n payloadLen : Nat) (l : List Byte) : Option (List Nat) :=
  let e := (List.range (n + 1)).map fun j => beAt l (4 * j) 4
  if 4 * (n + 1) ≤ l.length ∧ e.getD 0 1 = 0 ∧
     (List.range n).all (fun j => decide (e.getD j 0 ≤ e.getD (j + 1) 0)) = true ∧
     e.getD n 0 + 4 * (n + 1) = payloadLen
  then some e else none

/-- R85: what a colophon carries. -/
structure Colophon where
  number : Nat
  digest : Nat
  stamps : List DTime
  leafCrcs : List Nat
  leafFlags : List Nat
  sha : List Byte
  deriving DecidableEq, Repr

/-- R85: the colophon. -/
def Colophon.bytes (c : Colophon) : List Byte :=
  withCrc (beBytes 4 0x4B52434F ++ beBytes 4 c.number ++ beBytes 2 c.leafCrcs.length ++ beBytes 2 0 ++ beBytes 8 c.digest ++
    (List.range 6).flatMap (fun i => (c.stamps.getD i DTime.none).bytes) ++ c.leafCrcs.flatMap (beBytes 4) ++
    c.leafFlags.map (BitVec.ofNat 8) ++ c.sha)

/-- R88: a colophon that may be used for a picture of `n` leaves: its leaf CRCs and its hash. -/
def parseColophon (n number : Nat) (l : List Byte) : Option (List Nat × List Byte) :=
  if 128 + 5 * n ≤ l.length ∧ beAt l 0 4 = 0x4B52434F ∧ beAt l 4 4 = number ∧ beAt l 8 2 = n ∧
     beAt l (124 + 5 * n) 4 = crc32c (l.take (124 + 5 * n))
  then some ((List.range n).map (fun j => beAt l (92 + 4 * j) 4), (l.drop (92 + 5 * n)).take 32) else none

/-- R90: the leaf carrier. -/
def leafCarrier (pic leaf flags : Nat) (leafBytes : List Byte) : List Byte :=
  withCrc (beBytes 4 0x4B524C46 ++ beBytes 4 pic ++ beBytes 2 leaf ++ [BitVec.ofNat 8 flags, 0#8] ++
    beBytes 4 leafBytes.length ++ beBytes 4 (crc32c leafBytes))

/-! ### Decoding a picture -/

/-- A picture the decoder holds: its number, its sequence, whether that is still the current one (R76), whether its header was
decodable (R67, R69), its samples. -/
structure KPic where
  number : Nat
  seq : KSeq
  current : Bool
  decoded : Bool
  rows : Rows
  deriving DecidableEq, Repr

/-- The decoder's own state for a stream of kind KREMA_DECODE: the sequence in force, the number of the last
picture decoded or concealed in it (R67) and of the last decoded (R79), every picture so far with the latest first. -/
structure KDec where
  seq : Option KSeq
  last : Option Nat
  lastDecoded : Option Nat
  pics : List KPic
  deriving DecidableEq, Repr

def KDec.init : KDec := { seq := none, last := none, lastDecoded := none, pics := [] }

/-- What decoding one picture gives. -/
structure KDecOut where
  number : Nat
  seq : KSeq
  rows : Rows
  map : List Byte
  colophonUnverified : Bool
  shaMismatch : Bool
  deriving DecidableEq, Repr

/-- R50, R69: a reference picture by number: its samples, and whether it was substituted, and by mid. -/
def KDec.reference (d : KDec) (k : KSeq) (n back : Nat) : Rows × Bool × Bool :=
  let keyAt := (n - 1) / k.key * k.key
  let usable := decide (back ≤ n) && decide (keyAt ≤ n - back)
  match if usable then d.pics.find? (fun p => p.number == n - back && p.current) else none with
  | some p => (p.rows, false, false)
  | none =>
    match d.pics.find? (fun p => p.decoded && p.seq.sameGeometry k) with
    | some p => (p.rows, true, false)
    | none => (fillPicture k.width k.height k.mid, true, true)

/-- R70: a map byte. -/
def mapByte (crc limit syn : Bool) (action : Nat) (subst mid : Bool) : Byte :=
  BitVec.ofNat 8 ((if crc then 1 else 0) + (if limit then 2 else 0) + (if syn then 4 else 0) + 8 * action +
    (if subst then 32 else 0) + (if mid then 64 else 0))

/-- R68: conceal leaf `n` of a picture: the rows, the action, the flags of the reference copied from. -/
def concealLeaf (k : KSeq) (n : Nat) (typeP : Bool) (ref0 : Rows × Bool × Bool) (pic : Rows) :
    Rows × Nat × Bool × Bool :=
  let r := k.leaf n
  if typeP then (cutLeaf ref0.1 r, 1, ref0.2.1, ref0.2.2)
  else if k.leafCols ≤ n then (cutLeaf pic { k.leaf (n - k.leafCols) with h := r.h, w := r.w }, 2, false, false)
  else (List.replicate r.h (List.replicate r.w k.mid), 3, false, false)

/-- R111 and R68 for one leaf, and R455 for one whose work was lost: the picture and the map so far are threaded. The CRC comes first, as in
step 1 of R111: a leaf of length 0 whose LEAF_CRC differs is CRC_FAIL and not SYNTAX too (DESIGN CHOICE, log entry 117). -/
def decodeOneLeaf (k : KSeq) (hdr : Option PicHdr) (refs : List (Rows × Bool × Bool)) (leaf : Nat → Option (List Byte))
    (crcs : Option (List Nat)) (lost : List Nat) (acc : Rows × List Byte) (n : Nat) : Rows × List Byte :=
  let r := k.leaf n
  let typeP := match hdr with | none => true | some h => h.typeP
  let refFlags := match hdr with | none => 0 | some h => h.refFlags
  let conceal := fun (crc limit syn : Bool) =>
    let c := concealLeaf k n typeP (refs.getD 0 ([], false, false)) acc.1
    (placeLeaf acc.1 r c.1, acc.2 ++ [mapByte crc limit syn c.2.1 c.2.2.1 c.2.2.2])
  if lost.contains n then conceal false false false else
  match leaf n with
  | none => conceal false false true
  | some bs =>
    if (match crcs with | none => false | some l => l.getD n 0 != crc32c bs) then conceal true false false
    else
      match LeafEnv.decodeLeaf { k := k, leaf := n, refFlags := refFlags, refs := refs.map (·.1), qi := 0 } bs with
      | .error .overrun => conceal false true false
      | .error .syntaxError => conceal false false true
      | .ok (rows, used) =>
        let sub := used.any fun u => (refs.getD u ([], false, false)).2.1
        let mid := used.any fun u => (refs.getD u ([], false, false)).2.2
        (placeLeaf acc.1 r rows, acc.2 ++ [mapByte false false false 0 sub mid])

/-- A sequence begins (R76): pictures of the earlier one serve substitution only. -/
def KDec.begin (d : KDec) (k : KSeq) : KDec :=
  { seq := some k, last := none, lastDecoded := none, pics := d.pics.map fun p => { p with current := false } }

/-- R204, R66 to R70, R111: decode one Krema picture with any sequence header before it. `none` where the stream
has no valid sequence header yet (R75). A sequence header is known by its SEQ_MARKER: bytes that do not begin with it are read as a picture
header (DESIGN CHOICE, log entry 116). A leaf that the end of the input cuts off is decoded from the bytes that are there (DESIGN CHOICE,
log entry 119). -/
def KDec.decode (d : KDec) (input : List Byte) (lost : List Nat) : KDec × Option KDecOut :=
  let hasSeq := decide (32 ≤ input.length) && beAt input 0 4 == 0x4B525351
  let newSeq := if hasSeq then parseSeq (input.take 32) else none
  let body := if hasSeq then input.drop 32 else input
  let d1 : KDec := match newSeq, d.seq with
    | none, _ => d
    | some k, none => d.begin k
    | some k, some k0 => if k0.sameSequence k then { d with seq := some k } else d.begin k
  match d1.seq with
  | none => (d1, none)
  | some k =>
    let hdr := parsePicHdr k d1.lastDecoded body
    let number := match hdr with
      | some h => h.number
      | none => match d1.last with | none => 0 | some n => n + 1
    let n := k.leafCount
    let refs := match hdr with
      | none => [d1.reference k number 1]
      | some h =>
        (if bitAt h.refFlags 0 then [d1.reference k number 1] else []) ++
        (if bitAt h.refFlags 1 then [d1.reference k number 2] else [])
    let index := match hdr with
      | none => none
      | some h => parseIndex n h.payloadLen (body.drop 44)
    let area := body.drop (44 + 4 * (n + 1))
    let leaf := fun j => match index with
      | none => none
      | some e => some ((area.drop (e.getD j 0)).take (e.getD (j + 1) 0 - e.getD j 0))
    let col := match hdr with
      | none => none
      | some h => parseColophon n number (body.drop (44 + h.payloadLen))
    let sha := match hdr with
      | none => []
      | some h => sha256 (body.take (44 + h.payloadLen))
    let r := (List.range n).foldl (decodeOneLeaf k hdr refs leaf (col.map (·.1)) lost) (fillPicture k.width k.height k.mid, [])
    let out : KDecOut :=
      { number := number, seq := k, rows := r.1, map := r.2,
        colophonUnverified := col.isNone,
        shaMismatch := match col with | none => false | some c => decide (c.2 ≠ sha) }
    ({ d1 with
       last := some number, lastDecoded := if hdr.isSome then some number else d1.lastDecoded,
       pics := { number := number, seq := k, current := true, decoded := hdr.isSome, rows := r.1 } :: d1.pics }, some out)

/-- R204: a picture's rows as 16-bit little-endian containers at a pitch. Bytes between rows are not listed. -/
def rowBytes (row : List Nat) : List Byte := row.flatMap (leBytes 2)

/-- R204: the full length of an output of rows at a pitch. -/
def outputLen (pitch rows width : Nat) : Nat := if rows = 0 then 0 else pitch * (rows - 1) + 2 * width

end Sys2Proof.Machine
end

