-- ==== Sys2Proof/Machine/Proofing.lean ====
section
/-! DEFINITION. The proofing path (R113 to R125 of 04_proofing_and_standard_codecs.md), the CTU segments of the
standard codecs (R133) and their concealment map bytes (R140). -/
namespace Sys2Proof.Machine

/-- The proofing parameters of a stream (R114, R218), with the LUT and the scaler banks read when an epoch is
taken (R125). -/
structure ProofP where
  black : List Nat
  gain : List Nat
  edge : Bool
  ycc : Nat
  transfer : Nat
  chroma : Nat
  outDepth : Nat
  x0 : Nat
  y0 : Nat
  wi : Nat
  hi : Nat
  ow : Nat
  oh : Nat
  matrix : List Int
  lutAddr : Nat
  scalerAddr : Nat
  lut : List Nat
  taps : List Int
  deriving DecidableEq, Repr

/-- R116: black level and white balance of a sample of channel `c`. -/
def linear16 (p : ProofP) (b c s : Nat) : Nat :=
  let v := (s - p.black.getD c 0) * 2 ^ (16 - b)
  min ((v * p.gain.getD c 0 + 2048) / 4096) 65535

/-- The tag at a position. -/
def KSeq.tagAt (k : KSeq) (x y : Nat) : Nat := k.tag (k.chan (y % k.period) (x % k.period))

/-- R115: the descriptor has tag `t` in its phase table. -/
def KSeq.hasTag (k : KSeq) (t : Nat) : Bool := k.positions.any fun q => k.tag (k.chan q.1 q.2) == t

/-- R115: colour, or monochrome. -/
def KSeq.isColour (k : KSeq) : Bool := k.hasTag 0 && k.hasTag 1 && k.hasTag 2
def KSeq.isMono (k : KSeq) : Bool := !k.hasTag 0 && !k.hasTag 2

/-- R115: a Bayer descriptor. -/
def KSeq.isBayer (k : KSeq) : Bool :=
  k.period == 2 &&
  (let t := fun i j => k.tag (k.chan i j)
   (t 0 0 == 1 && t 1 1 == 1 && ((t 0 1 == 0 && t 1 0 == 2) || (t 0 1 == 2 && t 1 0 == 0))) ||
   (t 0 1 == 1 && t 1 0 == 1 && ((t 0 0 == 0 && t 1 1 == 2) || (t 0 0 == 2 && t 1 1 == 0))))

/-- Stage 1 and 2 over a picture. -/
def linearPicture (p : ProofP) (k : KSeq) (pic : Rows) : Rows :=
  pic.mapIdx fun y row => row.mapIdx fun x s => linear16 p k.depth (k.chan (y % k.period) (x % k.period)) s

/-- R117: one pass of the weighted search of half-width `h`. -/
def bilinearAt (k : KSeq) (s : Rows) (t h x y : Nat) : Nat × Nat :=
  (List.range ((2 * h + 1) * (2 * h + 1))).foldl (fun (acc : Nat × Nat) i =>
    let dx := i % (2 * h + 1)
    let dy := i / (2 * h + 1)
    let px := x + dx
    let py := y + dy
    if h ≤ px ∧ h ≤ py ∧ px - h < k.width ∧ py - h < k.height ∧ k.tagAt (px - h) (py - h) = t then
      let ax := if dx < h then h - dx else dx - h
      let ay := if dy < h then h - dy else dy - h
      let w := (h + 1 - ax) * (h + 1 - ay)
      (acc.1 + w, acc.2 + w * Rows.at s (px - h) (py - h))
    else acc) (0, 0)

/-- R117: BILINEAR for tag `t`. -/
def bilinear (k : KSeq) (s : Rows) (t x y : Nat) : Nat :=
  if k.tagAt x y = t then Rows.at s x y
  else
    let try' := fun h => bilinearAt k s t h x y
    let pick := if 0 < (try' 1).1 then try' 1 else if 0 < (try' 2).1 then try' 2 else try' 3
    if 0 < pick.1 then (pick.2 + pick.1 / 2) / pick.1 else 0

/-- R118: a reflected coordinate. -/
def reflect (n : Nat) (x : Int) : Nat :=
  if x < 0 then (-x).toNat else if Int.ofNat n ≤ x then (2 * Int.ofNat n - 2 - x).toNat else x.toNat

/-- R118: the linear value at a reflected position. -/
def sRef (k : KSeq) (s : Rows) (x y : Int) : Int := Int.ofNat (Rows.at s (reflect k.width x) (reflect k.height y))

/-- The tag at a reflected position. -/
def tagRef (k : KSeq) (x y : Int) : Nat := k.tagAt (reflect k.width x) (reflect k.height y)

/-- R118: the green plane of EDGE. -/
def greenEdge (k : KSeq) (s : Rows) (x y : Int) : Int :=
  if tagRef k x y = 1 then sRef k s x y
  else
    let a := sRef k s
    let c := a x y
    let gh := Int.ofNat (a (x - 1) y - a (x + 1) y).natAbs + Int.ofNat (2 * c - a (x - 2) y - a (x + 2) y).natAbs
    let gv := Int.ofNat (a x (y - 1) - a x (y + 1)).natAbs + Int.ofNat (2 * c - a x (y - 2) - a x (y + 2)).natAbs
    let eh := 2 * (a (x - 1) y + a (x + 1) y) + 2 * c - a (x - 2) y - a (x + 2) y
    let ev := 2 * (a x (y - 1) + a x (y + 1)) + 2 * c - a x (y - 2) - a x (y + 2)
    clampI (if gh < gv then (eh + 2) / 4 else if gv < gh then (ev + 2) / 4 else (eh + ev + 4) / 8) 0 65535

/-- R118: a colour difference at a site of its colour. -/
def diffEdge (k : KSeq) (s : Rows) (x y : Int) : Int :=
  sRef k s x y - greenEdge k s (Int.ofNat (reflect k.width x)) (Int.ofNat (reflect k.height y))

/-- R118: EDGE for tag `t` (0 R, 1 G, 2 B). -/
def edgeValue (k : KSeq) (s : Rows) (t x y : Nat) : Nat :=
  let xi := Int.ofNat x
  let yi := Int.ofNat y
  let g := greenEdge k s xi yi
  let v : Int :=
    if k.tagAt x y = t then Int.ofNat (Rows.at s x y)
    else if t = 1 then g
    else if k.tagAt x y = 1 then
      if tagRef k (xi + 1) yi = t then g + (diffEdge k s (xi - 1) yi + diffEdge k s (xi + 1) yi + 1) / 2
      else g + (diffEdge k s xi (yi - 1) + diffEdge k s xi (yi + 1) + 1) / 2
    else g + (diffEdge k s (xi - 1) (yi - 1) + diffEdge k s (xi + 1) (yi - 1) + diffEdge k s (xi - 1) (yi + 1)
        + diffEdge k s (xi + 1) (yi + 1) + 2) / 4
  (clampI v 0 65535).toNat

/-- Stage 3: R, G, B at a position. -/
def demosaic (p : ProofP) (k : KSeq) (s : Rows) (x y : Nat) : Nat × Nat × Nat :=
  if k.isMono then (Rows.at s x y, Rows.at s x y, Rows.at s x y)
  else if p.edge then (edgeValue k s 0 x y, edgeValue k s 1 x y, edgeValue k s 2 x y)
  else (bilinear k s 0 x y, bilinear k s 1 x y, bilinear k s 2 x y)

/-- R119: the colour matrix. -/
def colourMatrix (m : List Int) (rgb : Nat × Nat × Nat) : Nat × Nat × Nat :=
  let o := fun i => (clampI ((m.getD (3 * i) 0 * Int.ofNat rgb.1 + m.getD (3 * i + 1) 0 * Int.ofNat rgb.2.1 +
    m.getD (3 * i + 2) 0 * Int.ofNat rgb.2.2 + 4096) / 8192) 0 65535).toNat
  (o 0, o 1, o 2)

/-- R120: a LUT with linear interpolation. -/
def lutValue (l : List Nat) (v : Nat) : Nat :=
  let k := v / 16
  let f := v % 16
  (l.getD k 0 * (16 - f) + l.getD (min (k + 1) 4095) 0 * f + 8) / 16

/-- R121: the rows of the YCbCr matrix. -/
def yccRows (ycc : Nat) : List (Int × Int × Int) :=
  if ycc = 0 then [(11922, 40107, 4049), (-6572, -22107, 28679), (28679, -26049, -2630)]
  else [(14732, 38021, 3325), (-8009, -20670, 28679), (28679, -26372, -2307)]

/-- R121: Y, Cb, Cr in 12-bit narrow range. -/
def toYcc (ycc : Nat) (rgb : Nat × Nat × Nat) : Nat × Nat × Nat :=
  let o := fun (i : Nat) (base : Int) =>
    let c := (yccRows ycc).getD i (0, 0, 0)
    (base + (c.1 * Int.ofNat rgb.1 + c.2.1 * Int.ofNat rgb.2.1 + c.2.2 * Int.ofNat rgb.2.2 + 32768) / 65536).toNat
  (o 0 256, o 1 2048, o 2 2048)

/-- Clamped indexing of a row. -/
def clampedAt (row : List Nat) (i : Int) : Nat :=
  row.getD (clampI i 0 (Int.ofNat row.length - 1)).toNat 0

/-- R122: the 4:2:2 step on one row. -/
def chroma422Row (row : List Nat) : List Nat :=
  (List.range (row.length / 2)).map fun i =>
    let j := Int.ofNat (2 * i)
    (clampedAt row (j - 1) + 2 * clampedAt row j + clampedAt row (j + 1) + 2) / 4

/-- R122: the chroma filter. -/
def chromaFilter (chroma : Nat) (c : Rows) : Rows :=
  let h := c.map chroma422Row
  if chroma = 1 then h
  else (List.range (h.length / 2)).map fun j =>
    let a := h.getD (2 * j) []
    let b := h.getD (min (2 * j + 1) (h.length - 1)) a
    a.mapIdx fun i v => (v + b.getD i 0 + 1) / 2

/-- R123: one scaler pass over a line of samples. -/
def scaleLine (coSited : Bool) (taps : Nat → Nat → Int) (out : Nat) (x : List Nat) : List Int :=
  let n := x.length
  let step := n * 65536 / out
  (List.range out).map fun i =>
    let pos : Int := if coSited then Int.ofNat (i * step) else Int.ofNat ((2 * i + 1) * step / 2) - 32768
    let ip := pos / 65536
    let ph := (pos / 1024 % 64).toNat
    (sumI ((List.range 8).map fun t => taps ph t * Int.ofNat (clampedAt x (ip - 3 + Int.ofNat t))) + 128) / 256

/-- R123: the taps of bank `b` (0 luma horizontal, 1 luma vertical, 2 chroma horizontal, 3 chroma vertical). A
stream that supplies no banks uses firmware's default banks, which the manual does not print (log entry 22). -/
def bankTap (p : ProofP) (b nin nout ph t : Nat) : Int :=
  if p.scalerAddr = 0 then Config.defaultTap b nin nout ph t else p.taps.getD (b * 512 + ph * 8 + t) 0

/-- A transposed picture. -/
def transpose (w : Nat) (r : Rows) : Rows := (List.range w).map fun x => r.map fun row => row.getD x 0

/-- R123: the two passes; the clamp applies after both. -/
def scalePlane (p : ProofP) (chroma : Bool) (w h ow oh : Nat) (r : Rows) : Rows :=
  let hi : Int := if chroma then 3840 else 3760
  let bh := if chroma then 2 else 0
  let cl := fun (v : Int) => (clampI v 256 hi).toNat
  let hp := r.map fun row => (scaleLine chroma (fun ph t => bankTap p bh w ow ph t) ow row).map cl
  let vp := (transpose ow hp).map fun col => (scaleLine false (fun ph t => bankTap p (bh + 1) h oh ph t) oh col).map cl
  transpose oh vp

/-- R124: the output depth. -/
def outSample (depth v : Nat) : Nat := if depth = 10 then (v + 2) / 4 else (v + 8) / 16

/-- A YCbCr picture. -/
structure Ycc where
  y : Rows
  cb : Rows
  cr : Rows
  deriving DecidableEq, Repr

/-- R113: the proofing path over a raw picture. -/
def develop (p : ProofP) (k : KSeq) (pic : Rows) : Ycc :=
  let s := linearPicture p k pic
  let full := (List.range p.hi).map fun j => (List.range p.wi).map fun i =>
    let m := colourMatrix p.matrix (demosaic p k s (p.x0 + i) (p.y0 + j))
    toYcc p.ycc (lutValue (p.lut.take 4096) m.1, lutValue ((p.lut.drop 4096).take 4096) m.2.1,
      lutValue (p.lut.drop 8192) m.2.2)
  let cb := chromaFilter p.chroma (full.map fun r => r.map fun v => v.2.1)
  let cr := chromaFilter p.chroma (full.map fun r => r.map fun v => v.2.2)
  let ch := fun n => if p.chroma = 1 then n else n / 2
  let o := fun (r : Rows) => r.map fun row => row.map (outSample p.outDepth)
  { y := o (scalePlane p false p.wi p.hi p.ow p.oh (full.map fun r => r.map fun v => v.1)),
    cb := o (scalePlane p true (p.wi / 2) (ch p.hi) (p.ow / 2) (ch p.oh) cb),
    cr := o (scalePlane p true (p.wi / 2) (ch p.hi) (p.ow / 2) (ch p.oh) cr) }

/-- R124, R127: the narrow range of a host sample at a depth. -/
def narrow (depth : Nat) (chroma : Bool) (v : Nat) : Nat :=
  if depth = 10 then clampN v 64 (if chroma then 960 else 940) else clampN v 16 (if chroma then 240 else 235)

/-- R114: taps of every phase of every bank sum to 256. -/
def banksOk (taps : List Int) : Bool :=
  (List.range 256).all fun ph => decide (sumI ((taps.drop (8 * ph)).take 8) = 256)

/-! ### CTU segments (R133) -/

/-- Limits on tiles at a level: MaxTileCols and MaxTileRows. -/
structure TileLimit where
  cols : Nat
  rows : Nat
  deriving DecidableEq, Repr

/-- Reducing a count until the last part of an even split is not empty. -/
def reduceParts (total : Nat) : Nat → Nat
  | 0 => 1
  | n + 1 => if n + 1 ≤ 1 then 1 else if (n + 1 - 1) * ceilDiv total (n + 1) < total then n + 1 else reduceParts total n

/-- R133: the tile grid of HEVC (`ctu = 64`) and VVC (`ctu = 128`): columns and rows of tiles. -/
def tileGrid (ctu ow oh : Nat) (subFrame : Bool) (lim : TileLimit) : Nat × Nat :=
  let c := ceilDiv ow ctu
  let r := ceilDiv oh ctu
  let tc := ceilDiv ow 1024
  let tr := if subFrame then r else ceilDiv oh 512
  let even := fun (total n : Nat) => if ctu = 128 then reduceParts total n else n
  let tc := even c (min tc lim.cols)
  let tr := if subFrame then (if lim.rows < tr then ceilDiv r (ceilDiv r lim.rows) else tr) else even r (min tr lim.rows)
  (tc, tr)

/-- R133: CTU segments of a picture: tiles, or groups of macroblock rows in AVC. -/
def segmentCount (codec ow oh : Nat) (subFrame : Bool) (lim : TileLimit) : Nat :=
  if codec = 4 then ceilDiv (ceilDiv oh 16) (if subFrame then 2 else 8)
  else
    let g := tileGrid (if codec = 3 then 128 else 64) ow oh subFrame lim
    g.1 * g.2

/-- R164: guard units of a picture of a standard codec. -/
def guardUnits (codec ow oh : Nat) (subFrame : Bool) (lim : TileLimit) : Nat :=
  if codec = 4 then ceilDiv oh 16
  else
    let ctu := if codec = 3 then 128 else 64
    (tileGrid ctu ow oh subFrame lim).1 * ceilDiv oh ctu

/-- R140: a map byte of a standard codec. -/
def codecMapByte (damaged missing : Bool) (action : Nat) (subst mid : Bool) : Byte :=
  BitVec.ofNat 8 ((if damaged then 1 else 0) + (if missing then 2 else 0) + 8 * action +
    (if subst then 32 else 0) + (if mid then 64 else 0))

/-- R139, rule 2: spatial concealment of one column between a decoded sample above and one below. -/
def spatialConceal (depth : Nat) (above below : Option (Nat × Nat)) (y : Nat) : Nat :=
  match above, below with
  | some (ya, a), some (yb, b) => (a * (yb - y) + b * (y - ya) + (yb - ya) / 2) / (yb - ya)
  | some (_, a), none => a
  | none, some (_, b) => b
  | none, none => 2 ^ (depth - 1)

end Sys2Proof.Machine
end

