-- ==== Sys2Proof/Machine/Levels.lean ====
section
/-! DEFINITION. The level tables of the standard codecs and the level that a stream signals (R126, R130, R133, R217). The tables are the standards'
own, which the specification names and does not print: PRESUMED, log entry 122. -/
namespace Sys2Proof.Machine

/-- A level: its number × 10; luma samples (AVC: macroblocks) of a picture and in a second; kbit/s in the Main tier and in the High tier,
0 where the level has none; MaxTileCols and MaxTileRows. -/
structure Level where
  idc : Nat
  maxPs : Nat
  maxSr : Nat
  brMain : Nat
  brHigh : Nat
  lim : TileLimit
  deriving DecidableEq, Repr

def level (idc maxPs maxSr brMain brHigh cols rows : Nat) : Level := { idc, maxPs, maxSr, brMain, brHigh, lim := { cols, rows } }

/-- Levels of HEVC, ascending (ITU-T H.265, Annex A). -/
def hevcLevels : List Level :=
  [level 10 36864 552960 128 0 1 1, level 20 122880 3686400 1500 0 1 1, level 21 245760 7372800 3000 0 1 1,
   level 30 552960 16588800 6000 0 2 2, level 31 983040 33177600 10000 0 3 3, level 40 2228224 66846720 12000 30000 5 5,
   level 41 2228224 133693440 20000 50000 5 5, level 50 8912896 267386880 25000 100000 10 11,
   level 51 8912896 534773760 40000 160000 10 11, level 52 8912896 1069547520 60000 240000 10 11,
   level 60 35651584 1069547520 60000 240000 20 22, level 61 35651584 2139095040 120000 480000 20 22,
   level 62 35651584 4278190080 240000 800000 20 22]

/-- Levels of VVC, ascending (ITU-T H.266, Annex A). Its tables give MaxTileCols and the tiles of an access unit, whose quotient stands here as
MaxTileRows. -/
def vvcLevels : List Level :=
  [level 10 36864 552960 128 0 1 1, level 20 122880 3686400 1500 0 1 1, level 21 245760 7372800 3000 0 1 1,
   level 30 552960 16588800 6000 0 2 2, level 31 983040 33177600 10000 0 3 3, level 40 2228224 66846720 12000 30000 5 5,
   level 41 2228224 133693440 20000 50000 5 5, level 50 8912896 267386880 25000 100000 10 11,
   level 51 8912896 534773760 40000 160000 10 11, level 52 8912896 1069547520 60000 240000 10 11,
   level 60 35651584 1069547520 80000 320000 20 22, level 61 35651584 2139095040 120000 480000 20 22,
   level 62 35651584 4278190080 180000 800000 20 22]

/-- Levels of AVC, ascending (ITU-T H.264, Annex A), in macroblocks. AVC has neither tiles nor tiers. -/
def avcLevels : List Level :=
  [level 10 99 1485 64 0 1 1, level 11 396 3000 192 0 1 1, level 12 396 6000 384 0 1 1, level 13 396 11880 768 0 1 1,
   level 20 396 11880 2000 0 1 1, level 21 792 19800 4000 0 1 1, level 22 1620 20250 4000 0 1 1, level 30 1620 40500 10000 0 1 1,
   level 31 3600 108000 14000 0 1 1, level 32 5120 216000 20000 0 1 1, level 40 8192 245760 20000 0 1 1,
   level 41 8192 245760 50000 0 1 1, level 42 8704 522240 50000 0 1 1, level 50 22080 589824 135000 0 1 1,
   level 51 36864 983040 240000 0 1 1, level 52 36864 2073600 240000 0 1 1]

def codecLevels (codec : Nat) : List Level := match codec with | 2 => hevcLevels | 3 => vvcLevels | _ => avcLevels

/-- What a stream asks of a level: codec, profile, GEOMETRY.TIER_LEVEL, picture size and rate, bit rate in kbit/s; it is decoded. -/
structure LevelAsk where
  codec : Nat
  profile : Nat
  tierLevel : Nat
  w : Nat
  h : Nat
  rateNum : Nat
  rateDen : Nat
  kbps : Nat
  decode : Bool
  deriving DecidableEq, Repr

/-- The High tier is permitted. -/
def LevelAsk.high (a : LevelAsk) : Bool := decide (128 ≤ a.tierLevel)

/-- The standards' factor of the bit rate by profile, in thousandths. -/
def rateFactor (codec profile : Nat) : Nat :=
  match codec, profile with
  | 2, 2 => 1667
  | 4, 0 => 1250 | 4, 1 => 3000 | 4, _ => 4000
  | _, _ => 1000

/-- The highest level that the device supports (R126). -/
def deviceLevel (codec : Nat) (decode : Bool) : Nat :=
  match codec, decode with | 4, _ => 52 | 3, _ => 61 | _, true => 62 | _, false => 61

/-- Width and height in the units of the level's limits. -/
def LevelAsk.dims (a : LevelAsk) : Nat × Nat := if a.codec = 4 then (ceilDiv a.w 16, ceilDiv a.h 16) else (a.w, a.h)

/-- A level admits the stream in its tier: picture size and shape, sample rate, bit rate. -/
def Level.admits (v : Level) (a : LevelAsk) : Bool :=
  let d := a.dims
  decide (d.1 * d.2 ≤ v.maxPs ∧ d.1 * d.1 ≤ 8 * v.maxPs ∧ d.2 * d.2 ≤ 8 * v.maxPs) &&
  decide (d.1 * d.2 * a.rateNum ≤ v.maxSr * a.rateDen) &&
  decide (a.kbps * 1000 ≤ (if a.high then v.brHigh else v.brMain) * rateFactor a.codec a.profile)

/-- The lowest level of the configured tier that admits the stream, none where it would exceed what TIER_LEVEL permits or what the device supports
(R126, R130, R217). Tile counts follow the level (R133), so they ask for none. -/
def LevelAsk.level (a : LevelAsk) : Option Level :=
  if a.high ∧ (a.codec = 4 ∨ (a.codec = 3 ∧ a.decode = false)) then none
  else (codecLevels a.codec).find? fun v => decide (v.idc ≤ min (a.tierLevel % 128) (deviceLevel a.codec a.decode)) && v.admits a

/-- The tile limits of the level signalled. -/
def LevelAsk.lim (a : LevelAsk) : TileLimit := match a.level with | some v => v.lim | none => { cols := 0, rows := 0 }

end Sys2Proof.Machine
end

