-- ==== Sys2Proof/Machine/Search.lean ====
section
/-! DEFINITION. Motion search and picture statistics (R141 to R163 of 05_motion_and_statistics.md). -/
namespace Sys2Proof.Machine

/-- R141: the Y-proxy of a raw picture. -/
def yProxy (k : KSeq) (pic : Rows) : Rows :=
  let pp := k.period * k.period
  let e := k.depth + log2 pp
  (List.range (k.height / k.period)).map fun y => (List.range (k.width / k.period)).map fun x =>
    let m := ((List.range pp).map fun i => Rows.at pic (x * k.period + i % k.period) (y * k.period + i / k.period)).sum
    min (if 12 < e then (m + 2 ^ (e - 13)) / 2 ^ (e - 12) else m * 2 ^ (12 - e)) 4095

/-- R142: the search picture of a standard codec: its luma as 12-bit values. -/
def lumaSearch (depth : Nat) (y : Rows) : Rows := y.map fun r => r.map fun v => v * 2 ^ (12 - depth)

/-- R143: the next level of the pyramid. -/
def pyramidUp (l : Rows) : Rows :=
  let h := l.length
  let w := (l.getD 0 []).length
  let at' := fun x y => Rows.at l (min x (w - 1)) (min y (h - 1))
  (List.range ((h + 1) / 2)).map fun y => (List.range ((w + 1) / 2)).map fun x =>
    (at' (2 * x) (2 * y) + at' (2 * x + 1) (2 * y) + at' (2 * x) (2 * y + 1) + at' (2 * x + 1) (2 * y + 1) + 2) / 4

/-- The rectangle of a search block at a level (R145). -/
def searchRect (level bx by' : Nat) (pic : Rows) : Rect :=
  let n := 32 / 2 ^ level
  let h := pic.length
  let w := (pic.getD 0 []).length
  { x := bx * n, y := by' * n, w := min n (w - bx * n), h := min n (h - by' * n) }

/-- R147: the sum of absolute differences at an absolute position of a stage. -/
def sadAt (cur prev : Rows) (half : Bool) (r : Rect) (cx cy : Int) : Nat :=
  let h := prev.length
  let w := (prev.getD 0 []).length
  (r.cells.map fun q =>
    let c := Rows.at cur q.1 q.2
    let v := if half then halfSample w h (Rows.at prev) (Int.ofNat q.1) (Int.ofNat q.2) cx cy
      else Rows.at prev (clampI (Int.ofNat q.1 + cx) 0 (Int.ofNat w - 1)).toNat
        (clampI (Int.ofNat q.2 + cy) 0 (Int.ofNat h - 1)).toNat
    if c < v then v - c else c - v).sum

/-- A candidate of a stage: its displacement, cost and sad. -/
structure Cand where
  dx : Int
  dy : Int
  cost : Nat
  sad : Nat
  deriving DecidableEq, Repr

/-- R148: a later candidate replaces the best at a lower cost, or an equal cost and a shorter displacement. -/
def betterOf (best : Option Cand) (c : Cand) : Option Cand :=
  match best with
  | none => some c
  | some b =>
    if c.cost < b.cost ∨ (c.cost = b.cost ∧ c.dx.natAbs + c.dy.natAbs < b.dx.natAbs + b.dy.natAbs) then some c
    else some b

/-- The integers from `-n` to `n`. -/
def spread (n : Nat) : List Int := (List.range (2 * n + 1)).map fun i => Int.ofNat i - Int.ofNat n

/-- R146 to R148: one stage about a centre, `dy` ascending and then `dx`: the best absolute position and its sad. -/
def searchStage (cur prev : Rows) (half : Bool) (r : Rect) (lambda : Nat) (center : Int × Int) (rx ry : Nat) :
    (Int × Int) × Nat :=
  let best := (spread ry).foldl (fun b dy => (spread rx).foldl (fun b dx =>
    let sad := sadAt cur prev half r (center.1 + dx) (center.2 + dy)
    betterOf b { dx := dx, dy := dy, cost := sad + lambda * (dx.natAbs + dy.natAbs) / 4, sad := sad }) b) none
  match best with
  | some c => ((center.1 + c.dx, center.2 + c.dy), c.sad)
  | none => (center, 0)

/-- R146, R149: the result vector of a search block, in half level-0 units, and its result SAD. `q` is P for Krema. -/
def searchBlock (cur prev : Rows) (q lambda bx by' : Nat) : (Int × Int) × Nat :=
  let c1 := pyramidUp cur
  let c2 := pyramidUp c1
  let p1 := pyramidUp prev
  let p2 := pyramidUp p1
  let s2 := searchStage c2 p2 false (searchRect 2 bx by' c2) lambda (0, 0) (128 / q) (64 / q)
  let s1 := searchStage c1 p1 false (searchRect 1 bx by' c1) lambda (2 * s2.1.1, 2 * s2.1.2) 8 8
  let s0 := searchStage cur prev false (searchRect 0 bx by' cur) lambda (2 * s1.1.1, 2 * s1.1.2) 2 2
  searchStage cur prev true (searchRect 0 bx by' cur) lambda (2 * s0.1.1, 2 * s0.1.2) 1 1

/-- R157: the SAD field of a vector record. -/
def sadField (sad n : Nat) : Nat := if n = 0 then 0xFFFF else min ((sad * 16 + n / 2) / n) 65534

/-- R158: the complexity of a block. -/
def blockCplx (cur : Rows) (r : Rect) : Nat :=
  let d := fun a b => if a < b then b - a else a - b
  (r.cells.map fun q =>
    (if r.x < q.1 then d (Rows.at cur q.1 q.2) (Rows.at cur (q.1 - 1) q.2) else 0) +
    (if r.y < q.2 then d (Rows.at cur q.1 q.2) (Rows.at cur q.1 (q.2 - 1)) else 0)).sum

/-- R160: COARSE_CPLX of a search picture. -/
def coarseCplx (cur : Rows) : Nat :=
  let l := pyramidUp (pyramidUp cur)
  let h := l.length
  let w := (l.getD 0 []).length
  let g := blockCplx l { x := 0, y := 0, w := w, h := h }
  let n := w * h
  if n = 0 then 0 else (g * 16 + n / 2) / n

/-- R162: the histogram of 1,024 bins. -/
def histogram (vals : List Nat) : List Nat :=
  (List.range 1024).map fun i => (vals.filter (· == i)).length

/-- R162: the bins' inputs for a source. -/
def histValues (src : Nat) (k : KSeq) (pic search : Rows) : List Nat :=
  if src = 0 then search.flatten.map (· / 4)
  else (pic.mapIdx fun y row => (row.mapIdx fun x s => (x, s)).filterMap fun c =>
    if k.chan (y % k.period) (c.1 % k.period) = src - 1 then some (c.2 / 2 ^ (k.depth - 10)) else none).flatten

/-- R157: one record of the vector field. -/
structure VecRec where
  x : Int
  y : Int
  sad : Nat
  deriving DecidableEq, Repr

/-- R159: one bits record. -/
structure BitsRec where
  bits : Nat
  quant : Nat
  kind : Nat
  flags : Nat
  deriving DecidableEq, Repr

/-- The contents of a statistics folio (R156 to R162). -/
structure StatsFolio where
  source : Nat
  sections : Nat
  stream : Nat
  flags : Nat
  picNumber : Nat
  cols : Nat
  rows : Nat
  coarse : Nat
  pictureBits : Nat
  epoch : Nat
  histSrc : Nat
  lambda : Nat
  vectors : List VecRec
  cplx : List Nat
  bitsRecs : List BitsRec
  hist : List Nat
  deriving DecidableEq, Repr

def align64 (n : Nat) : Nat := (n + 63) / 64 * 64

/-- R156: offsets of the four sections (0 when absent) and TOTAL_LEN. -/
def statsLayout (sections blocks recs : Nat) : List Nat × Nat :=
  let sizes := [6 * blocks, 4 * blocks, 8 * recs, 4096]
  let r := (List.range 4).foldl (fun (acc : List Nat × Nat × Nat) i =>
    if bitAt sections i then
      let off := align64 acc.2.1
      (acc.1 ++ [off], off + sizes.getD i 0, off + sizes.getD i 0)
    else (acc.1 ++ [0], acc.2.1, acc.2.2)) ([], 64, 64)
  (r.1, r.2.2)

/-- Zeros up to an offset. -/
def padTo (n : Nat) (l : List Byte) : List Byte := l ++ List.replicate (n - l.length) 0#8

/-- R156: the bytes of a folio, little-endian. -/
def StatsFolio.bytes (f : StatsFolio) : List Byte :=
  let lay := statsLayout f.sections (f.cols * f.rows) f.bitsRecs.length
  let o := fun i => lay.1.getD i 0
  let hdr := leBytes 4 0x53544154 ++ leBytes 1 1 ++ leBytes 1 f.source ++ leBytes 2 f.sections ++ leBytes 1 f.stream ++
    leBytes 1 f.flags ++ leBytes 2 0 ++ leBytes 4 f.picNumber ++ leBytes 2 f.cols ++ leBytes 2 f.rows ++
    leBytes 2 f.bitsRecs.length ++ leBytes 2 0 ++ leBytes 4 f.coarse ++ leBytes 4 f.pictureBits ++
    leBytes 4 (o 0) ++ leBytes 4 (o 1) ++ leBytes 4 (o 2) ++ leBytes 4 (o 3) ++ leBytes 4 lay.2 ++
    leBytes 4 f.epoch ++ leBytes 1 f.histSrc ++ leBytes 1 f.lambda ++ leBytes 6 0
  let secs := [ f.vectors.flatMap (fun v => leBytes 2 (ofSigned 16 v.x) ++ leBytes 2 (ofSigned 16 v.y) ++ leBytes 2 v.sad),
    f.cplx.flatMap (leBytes 4),
    f.bitsRecs.flatMap (fun b => leBytes 4 b.bits ++ leBytes 1 b.quant ++ leBytes 1 b.kind ++ leBytes 1 b.flags ++ leBytes 1 0),
    f.hist.flatMap (leBytes 4) ]
  (List.range 4).foldl (fun l i => if bitAt f.sections i then padTo (o i) l ++ secs.getD i [] else l) hdr

end Sys2Proof.Machine
end

