-- ==== Sys2Proof/Machine/Rate.lean ====
section
/-! DEFINITION. Rate plans, the guard, the Krema-V cap and the built-in firmware's planning (R164 to R183 of
06_rate_control.md), and the charges of the capacity ledger (R222 to R224 of 07_call_slips_and_streams.md). -/
namespace Sys2Proof.Machine

/-- R166: a rate plan. -/
structure Plan where
  stream : Nat
  guardOff : Bool
  pic : Nat
  target : Nat
  reserve : Nat
  allot : List Nat
  cap : List Nat
  quant : List Int
  deriving DecidableEq, Repr

/-- What a stream requires of its plans (R166, R167): guard units, quantiser ranges, caps. -/
structure PlanReq where
  stream : Nat
  units : Nat
  kremaV : Bool
  codecMin : Int
  codecMax : Int
  quantMin : Int
  quantMax : Int
  flatSizes : List Nat
  picCap : Nat
  deriving DecidableEq, Repr

/-- R166: a plan read from its little-endian record; `none` where MARKER differs, a Reserved field is not 0, or
the record is too short for its UNIT_COUNT (R167). -/
def parsePlan (l : List Byte) : Option Plan :=
  let u := leAt l 6 2
  let unit := fun j o n => leAt l (32 + 12 * j + o) n
  if leAt l 0 4 = 0x52504C4E ∧ leAt l 5 1 < 2 ∧ (l.drop 20).take 12 = List.replicate 12 0#8 ∧ 32 + 12 * u ≤ l.length ∧
     (List.range u).all (fun j => unit j 9 3 == 0) = true
  then some
    { stream := leAt l 4 1, guardOff := leAt l 5 1 == 1, pic := leAt l 8 4, target := leAt l 12 4, reserve := leAt l 16 4,
      allot := (List.range u).map fun j => unit j 0 4, cap := (List.range u).map fun j => unit j 4 4,
      quant := (List.range u).map fun j => toSigned 8 (unit j 8 1) }
  else none

/-- R167: a plan is valid for what the stream requires. MARKER is checked as 0x5250_4C4E by `parsePlan`. -/
def PlanReq.valid (r : PlanReq) (p : Plan) : Bool :=
  p.stream == r.stream && p.allot.length == r.units &&
  p.quant.all (fun q => decide (r.codecMin ≤ q ∧ q ≤ r.codecMax ∧ r.quantMin ≤ q ∧ q ≤ r.quantMax)) &&
  (if r.kremaV then
    (List.range r.units).all (fun j => decide (r.flatSizes.getD j 0 ≤ p.cap.getD j 0)) && decide (p.cap.sum ≤ r.picCap)
   else p.cap.all (· == 0))

/-- R175: the per-leaf share, and PIC_CAP. -/
def leafShare (k : KSeq) (ratio j : Nat) : Nat := packedSize k.depth (k.leaf j) * 16 / ratio
def picCapOf (k : KSeq) (ratio : Nat) : Nat := ((List.range k.leafCount).map (leafShare k ratio)).sum

/-- R169: the fallback plan. `samples` are the guard units' sample counts. -/
def fallbackPlan (stream pic : Nat) (targetBytes : Nat) (samples caps : List Nat) (quantInit : Int) : Plan :=
  let a := samples.sum
  { stream := stream, guardOff := false, pic := pic, target := 8 * targetBytes, reserve := 8 * targetBytes / 8,
    allot := samples.map fun s => if a = 0 then 0 else 8 * targetBytes * s / a,
    cap := caps, quant := samples.map fun _ => quantInit }

/-- R170: the first guard unit at which the guard trips, over the bits of the units evaluated so far. -/
def guardTrip (p : Plan) (constQ : Bool) (unitBits : List Nat) : Option Nat :=
  if p.guardOff || constQ then none
  else (List.range unitBits.length).find? fun j =>
    decide ((p.allot.take (j + 1)).sum + p.reserve < (unitBits.take (j + 1)).sum)

/-- R173: the first floor leaf whose bits exceed its allotment. -/
def floorStage2 (p : Plan) (trip : Nat) (unitBits : List Nat) : Option Nat :=
  (List.range unitBits.length).find? fun k => decide (trip < k) && decide (p.allot.getD k 0 < unitBits.getD k 0)

/-! ### The built-in firmware (R178 to R182) -/

/-- The floor of the `k`-th root of `n`, by halving: `fuel` bits of the result. -/
def rootFloor (k n : Nat) : Nat → Nat → Nat
  | 0, acc => acc
  | fuel + 1, acc => if (acc + 2 ^ fuel) ^ k ≤ n then rootFloor k n fuel (acc + 2 ^ fuel) else rootFloor k n fuel acc

/-- R179: the greatest integer `t` from `lo` on, at most `fuel` above it, for which the ratio `num / den` to the
power `2m` is at least `2^(2t - 1)`: the integer nearest to `m × log2 (num / den)`. -/
def nearestLog (m num den : Nat) (lo : Int) : Nat → Int
  | 0 => lo
  | fuel + 1 =>
    let t := lo + 1
    let e := 2 * t - 1
    let ok := if 0 ≤ e then decide (den ^ (2 * m) * 2 ^ e.toNat ≤ num ^ (2 * m))
      else decide (den ^ (2 * m) ≤ num ^ (2 * m) * 2 ^ (-e).toNat)
    if ok then nearestLog m num den t fuel else lo

/-- R182: seed constants by codec (1 Krema-V, 2 HEVC, 3 VVC, 4 AVC), 4:2:2, and intra. -/
def seedConst (codec : Nat) (is422 intra : Bool) : Nat :=
  match codec with
  | 2 => if is422 then (if intra then 5112 else 1704) else if intra then 3932 else 1311
  | 3 => if intra then 3277 else 1049
  | 4 => if is422 then (if intra then 7078 else 2359) else if intra then 5505 else 1835
  | _ => if intra then 14418 else 7209

/-- What R178 to R180 read of a stream. -/
structure FwIn where
  stream : Nat
  pic : Nat
  key : Bool
  kremaV : Bool
  meanNum : Nat
  meanDen : Nat
  peakPerPic : Nat
  cpbBits : Nat
  fullness : Int
  keyBoost : Nat
  picCap : Nat
  reserveQ8 : Nat
  rowDelta : Nat
  quantMin : Int
  quantMax : Int
  /-- samples of the picture, model constant in 1/65,536, complexity numerator and denominator in 12-bit codes -/
  samples : Nat
  kConst : Nat
  cNum : Nat
  cDen : Nat
  unitSamples : List Nat
  unitCplx : List Nat
  flatSizes : List Nat
  deriving DecidableEq, Repr

/-- R178: the picture target, in bits: the exact value, then its floor (log entry 23). Where the upper bound of the clamp is below mean / 4, the upper
one wins, and a negative bound gives 0 (DESIGN CHOICE, log entry 125). -/
def FwIn.target (f : FwIn) : Nat :=
  let exact := (Int.ofNat (f.meanNum * 16) + (Int.ofNat f.cpbBits - 2 * f.fullness) * Int.ofNat f.meanDen) *
    (if f.key then Int.ofNat f.keyBoost else 16)
  let t := exact / Int.ofNat (256 * f.meanDen)
  let hi := f.fullness + Int.ofNat f.peakPerPic
  let hi := if f.kremaV then min hi (Int.ofNat (8 * f.picCap)) else hi
  (clampI t (Int.ofNat (f.meanNum / (4 * f.meanDen))) hi).toNat

/-- R179: the picture quantiser: `step = K C / bpp`, `bpp = target / samples`. A complexity of 0 asks for a step of 0, so the least quantiser; a
target of 0 for a step without bound, so the greatest. -/
def FwIn.quant (f : FwIn) : Int :=
  let num := f.kConst * f.cNum * f.samples
  let den := 65536 * f.cDen * f.target * 4
  let q := if num = 0 then f.quantMin else if den = 0 then f.quantMax
    else if f.kremaV then nearestLog 8 num den (-70) 200 else 4 + nearestLog 6 num den (-70) 200
  clampI q f.quantMin f.quantMax

/-- R180: the largest cap, lowered by one byte. -/
def lowerLargest (l : List Nat) : List Nat :=
  let m := l.foldl max 0
  l.set (l.idxOf m) (m - 1)

/-- R180: caps lowered until their sum is at most PIC_CAP. -/
def lowerCaps : Nat → List Nat → List Nat
  | 0, l => l
  | n + 1, l => lowerCaps n (lowerLargest l)

/-- R180: the plan of a picture. The picture's complexity is the sum of its units', so a search block that covers several units counts in each
(DESIGN CHOICE, log entry 126). In picture 0, and where the map is all 0, complexity, a measure per sample, is equal in every unit: each has the same
ALLOT and the picture quantiser, as in the example of R183 (DEDUCED, log entry 126). -/
def FwIn.plan (f : FwIn) : Plan :=
  let target := f.target
  let q := f.quant
  let w := if f.pic = 0 ∨ f.unitCplx.sum = 0 then f.unitSamples.map fun _ => 1 else f.unitCplx
  let tot := w.sum
  let u := w.length
  let allot := w.map fun c => if tot = 0 then 0 else target * c / tot
  let d := Int.ofNat f.rowDelta
  let quant := w.map fun c =>
    let r := if c = 0 then -d else clampI (nearestLog 3 (c * u) tot (-40) 80) (-d) d
    clampI (q + r) f.quantMin f.quantMax
  let caps := if f.kremaV then (List.range u).map fun j => max (f.flatSizes.getD j 0) (allot.getD j 0 / 7) else w.map fun _ => 0
  { stream := f.stream, guardOff := false, pic := f.pic, target := target, reserve := target * f.reserveQ8 / 256,
    allot := allot, cap := if f.kremaV then lowerCaps (caps.sum - f.picCap) caps else caps, quant := quant }

/-- R181: the measured constant in 1/65,536: `bits / samples × step / C`, with `step` 4 × 2^((q − 4)/6), or
4 × 2^(q/8) in Krema-V, as the floor of the exact value (log entry 23). -/
def kMeasured (kremaV : Bool) (bits samples cNum cDen : Nat) (q : Int) : Nat :=
  let a := bits * 4 * cDen * 65536
  let b := samples * cNum
  if b = 0 then 0
  else
    let r := if kremaV then 8 else 6
    let e := if kremaV then q else q - 4
    let n := if 0 ≤ e then a ^ r * 2 ^ e.toNat / b ^ r else a ^ r / (b ^ r * 2 ^ (-e).toNat)
    rootFloor r n 40 0

/-- R181: the constant after a measurement of weight `w`/16. -/
def kUpdate (k meas w : Nat) : Nat := (Int.ofNat k + (Int.ofNat meas - Int.ofNat k) * Int.ofNat w / 16).toNat

/-! ### The capacity ledger (R222 to R224) -/

/-- R223: carrel-units of a job of `S` samples in a second as a fraction, at `r` Msample/s at N. -/
def carrelUnits (sNum sDen mcNum mcDen r f : Nat) : Nat :=
  ceilDiv (sNum * mcNum * 2 ^ 20) (sDen * mcDen * (r * 1000000) * f)

/-- R223: scribe-units of `Y` symbols in a second as a fraction, at `r` Msymbol/s at N. -/
def scribeUnits (yNum yDen ms r f : Nat) : Nat := ceilDiv (yNum * ms * 2 ^ 20) (yDen * (r * 1000000) * f)

/-- A job of a stream (R223): samples per second and symbols per second as fractions, and the rates at N. -/
structure Job where
  sNum : Nat
  sDen : Nat
  r : Nat
  yNum : Nat
  yDen : Nat
  rs : Nat
  deriving DecidableEq, Repr

/-- R223: the charge of a job: carrel-units and scribe-units. -/
def Job.charge (j : Job) (prot : Nat) (subFrame : Bool) (f : Nat) : Nat × Nat :=
  (carrelUnits j.sNum j.sDen (prot * (if subFrame then 5 else 4)) 4 j.r f,
   if j.rs = 0 then 0 else scribeUnits j.yNum j.yDen prot j.rs f)

/-- R222: the capacity with and without spares held: carrel-units and scribe-units. -/
def ledgerCapacity (big spares : Bool) : Nat × Nat :=
  if big then (if spares then (65536, 16384) else (69632, 18432))
  else (if spares then (32768, 8192) else (36864, 10240))

/-- R16: the ledger factor of a pace: 0 Even, 1 Pace, 2 Frugal. -/
def paceFactor (p : Nat) : Nat := match p with | 0 => 0x400 | 1 => 0x48F | _ => 0x2CD

end Sys2Proof.Machine
end

