-- ==== Sys2Proof/Machine/Sections.lean ====
section
/-! DEFINITION. The descriptor sections of OPEN_STREAM and SET_CONFIG: their fields (R217 to R219, R244, R290), their
checks (R114, R115, R155, R177, R230, R242, R289) and the naming of what was refused (R216, R543). -/
namespace Sys2Proof.Machine

/-- R217: GEOMETRY. -/
structure Geometry where
  codec : Nat
  profile : Nat
  tierLevel : Nat
  depth : Nat
  width : Nat
  height : Nat
  period : Nat
  chroma : Nat
  tags : Nat
  phaseTable : Nat
  keyInterval : Nat
  source : Nat
  flags : Nat
  rateNum : Nat
  rateDen : Nat
  maxRate : Nat
  seqId : Nat
  deriving DecidableEq, Repr

/-- R219, R155: STATISTICS. -/
structure StatsP where
  sections : Nat
  pool : Nat
  toHost : Bool
  histSrc : Nat
  lambda : Nat
  deriving DecidableEq, Repr

/-- R219, R177: RATE, with the defaults that a 0 selects already in place. Rates are in kb/s. -/
structure RateP where
  rcMode : Nat
  quantInit : Int
  quantMin : Int
  quantMax : Int
  targetRate : Nat
  peakRate : Nat
  cpbMs : Nat
  ratioQ4 : Nat
  rowDelta : Nat
  keyBoost : Nat
  reserveQ8 : Nat
  modelWeight : Nat
  seedIntra : Nat
  seedInter : Nat
  applet : Nat
  deriving DecidableEq, Repr

/-- R219: EVENTS. -/
structure EventsP where
  ring : Nat
  readTimeout : Nat
  pictureEvents : Nat
  deriving DecidableEq, Repr

/-- R244: INGEST. -/
structure IngestP where
  portMask : Nat
  stripe : Bool
  vc : Nat
  dataType : Nat
  lanes : Nat
  hold : Nat
  trigger : Nat
  frameBuffers : Nat
  laneRate : Nat
  ingLines : Nat
  high : Nat
  low : Nat
  lineTimeout : Nat
  useFrameNumber : Bool
  deriving DecidableEq, Repr

/-- R290: one path of NETWORK. -/
structure NetPath where
  mac : Nat
  srcUdp : Nat
  dstUdp : Nat
  dstIp : Nat
  deriving DecidableEq, Repr

/-- R290: NETWORK. -/
structure NetP where
  ports : Nat
  media : Nat
  sender : Nat
  tc : Nat
  vlan : Bool
  ipv6 : Bool
  pcp : Nat
  vid : Nat
  dscp : Nat
  hops : Nat
  maxPayload : Nat
  ssrc : Nat
  pt : Nat
  mediaDelay : Nat
  tro : Nat
  paths : List NetPath
  deriving DecidableEq, Repr

/-- The sections of one descriptor. -/
structure Sections where
  geo : Option Geometry
  proof : Option ProofP
  stats : Option StatsP
  rate : Option RateP
  events : Option EventsP
  ingest : Option IngestP
  network : Option NetP
  device : Option Nat
  deriving DecidableEq, Repr

def Sections.empty : Sections :=
  { geo := none, proof := none, stats := none, rate := none, events := none, ingest := none, network := none, device := none }

/-! ### Section types (R216) -/

def tyGeometry : Nat := 0x0001
def tyProofing : Nat := 0x0002
def tyStatistics : Nat := 0x0003
def tyRate : Nat := 0x0004
def tyEvents : Nat := 0x0005
def tyIngest : Nat := 0x0010
def tyNetwork : Nat := 0x0011
def tyDevice : Nat := 0x0020

/-- The length of a known section type. -/
def sectionLen (ty : Nat) : Option Nat :=
  match ty with
  | 0x0001 => some 48 | 0x0002 => some 76 | 0x0003 => some 12 | 0x0004 => some 40 | 0x0005 => some 12
  | 0x0010 => some 24 | 0x0011 => some 96 | 0x0020 => some 8 | _ => none

/-- R216: a section type applies to a stream kind; `kind = 0` stands for SET_CONFIG of the device. -/
def sectionApplies (kind ty codec : Nat) : Bool :=
  match ty with
  | 0x0001 => kind != 0
  | 0x0002 => kind == 4 || kind == 7
  | 0x0003 => kind == 1 || kind == 2 || kind == 4 || kind == 5
  | 0x0004 => kind == 4 || kind == 5 || ((kind == 1 || kind == 2) && codec == 1)
  | 0x0005 => kind != 0
  | 0x0010 => kind == 1
  | 0x0011 => kind == 4 || kind == 7
  | 0x0020 => kind == 0
  | _ => false

/-- R216: the section types required of an OPEN_STREAM. -/
def sectionsRequired (kind codec : Nat) : List Nat :=
  [tyGeometry] ++ (if kind = 4 ∨ kind = 7 then [tyProofing] else []) ++
  (if kind = 4 ∨ kind = 5 ∨ ((kind = 1 ∨ kind = 2) ∧ codec = 1) then [tyRate] else []) ++
  (if kind = 1 then [tyIngest] else [])

/-- A refusal: the places (section type, offset) of the fields it rests on. -/
abbrev Refusals := List (List (Nat × Nat))

/-- A section found in a descriptor: its type and its bytes. -/
structure RawSec where
  ty : Nat
  bytes : List Byte
  deriving DecidableEq, Repr

/-- R216: the sections of a descriptor, as far as they can be read, and whether reading stopped at a section whose
LENGTH is wrong or runs past the descriptor (its type), or at bytes that make no section (`none`). -/
def splitDescriptor : Nat → List Byte → List RawSec × Option (Option Nat)
  | 0, _ => ([], none)
  | fuel + 1, l =>
    if l.isEmpty then ([], none)
    else if l.length < 4 then ([], some none)
    else
      let ty := leAt l 0 2
      let len := leAt l 2 2
      if len < 4 ∨ len % 4 ≠ 0 ∨ l.length < len ∨ (match sectionLen ty with | some n => n != len | none => false) = true then
        ([{ ty := ty, bytes := l }], some (some ty))
      else
        let r := splitDescriptor fuel (l.drop len)
        ({ ty := ty, bytes := l.take len } :: r.1, r.2)

/-! ### Reading the fields -/

def signed8 (l : List Byte) (o : Nat) : Int := toSigned 8 (leAt l o 1)

def readGeometry (l : List Byte) : Geometry :=
  { codec := leAt l 4 1, profile := leAt l 5 1, tierLevel := leAt l 6 1, depth := leAt l 7 1, width := leAt l 8 2,
    height := leAt l 10 2, period := leAt l 12 1, chroma := leAt l 13 1, tags := leAt l 14 2, phaseTable := leAt l 16 4,
    keyInterval := leAt l 20 2, source := leAt l 22 1, flags := leAt l 23 1, rateNum := leAt l 24 4, rateDen := leAt l 28 4,
    maxRate := leAt l 32 4, seqId := leAt l 36 8 }

/-- The Krema sequence a GEOMETRY section describes (R74, R217). -/
def Geometry.seq (g : Geometry) : KSeq :=
  { variantV := g.codec == 1, width := g.width, height := g.height, depth := g.depth, period := g.period,
    phase := phaseEntries g.phaseTable, tags := tagEntries g.tags, key := g.keyInterval, seqId := g.seqId }

/-- R218, with the contents read at LUT_ADDR and SCALER_ADDR (R125). -/
def readProofing (l : List Byte) (lut : List Nat) (taps : List Int) : ProofP :=
  { black := (List.range 4).map fun c => leAt l (4 + 2 * c) 2, gain := (List.range 4).map fun c => leAt l (12 + 2 * c) 2,
    edge := leAt l 20 1 == 1, ycc := leAt l 21 1, transfer := leAt l 22 1, chroma := leAt l 23 1, outDepth := leAt l 24 1,
    x0 := leAt l 28 2, y0 := leAt l 30 2, wi := leAt l 32 2, hi := leAt l 34 2, ow := leAt l 36 2, oh := leAt l 38 2,
    matrix := (List.range 9).map fun i => toSigned 16 (leAt l (40 + 2 * i) 2), lutAddr := leAt l 60 8,
    scalerAddr := leAt l 68 8, lut := lut, taps := taps }

def readStats (l : List Byte) : StatsP :=
  { sections := leAt l 4 1, pool := leAt l 5 1, toHost := leAt l 6 1 == 1, histSrc := leAt l 7 1, lambda := leAt l 8 1 }

/-- R219: the default that a 0 selects. -/
def orDefault (v d : Nat) : Nat := if v = 0 then d else v

def readRate (l : List Byte) : RateP :=
  { rcMode := leAt l 4 1, quantInit := signed8 l 5, quantMin := signed8 l 6, quantMax := signed8 l 7,
    targetRate := leAt l 8 4, peakRate := orDefault (leAt l 12 4) (leAt l 8 4), cpbMs := orDefault (leAt l 16 2) 1000,
    ratioQ4 := orDefault (leAt l 18 1) 64, rowDelta := leAt l 19 1, keyBoost := orDefault (leAt l 20 1) 48,
    reserveQ8 := leAt l 21 1, modelWeight := orDefault (leAt l 22 1) 4, seedIntra := leAt l 24 2, seedInter := leAt l 26 2,
    applet := leAt l 28 4 }

def readEvents (l : List Byte) : EventsP :=
  { ring := leAt l 4 1, readTimeout := leAt l 6 2, pictureEvents := leAt l 8 1 }

def readIngest (l : List Byte) : IngestP :=
  { portMask := leAt l 4 1, stripe := leAt l 5 1 == 1, vc := leAt l 6 1, dataType := leAt l 7 1, lanes := leAt l 8 1,
    hold := leAt l 9 1, trigger := leAt l 10 1, frameBuffers := leAt l 11 1, laneRate := leAt l 12 2, ingLines := leAt l 14 1,
    high := leAt l 15 1, low := leAt l 16 1, lineTimeout := leAt l 18 2, useFrameNumber := leAt l 20 1 == 1 }

def readPath (l : List Byte) (q : Nat) : NetPath :=
  { mac := beAt l (32 + 32 * q) 6, srcUdp := leAt l (38 + 32 * q) 2, dstUdp := leAt l (40 + 32 * q) 2,
    dstIp := beAt l (44 + 32 * q) 16 }

def readNetwork (l : List Byte) : NetP :=
  { ports := leAt l 4 1, media := leAt l 5 1, sender := leAt l 6 1, tc := leAt l 7 1, vlan := bitAt (leAt l 8 1) 0,
    ipv6 := bitAt (leAt l 8 1) 1, pcp := leAt l 9 1, vid := leAt l 10 2, dscp := leAt l 12 1, hops := leAt l 13 1,
    maxPayload := leAt l 14 2, ssrc := leAt l 16 4, pt := leAt l 20 1, mediaDelay := leAt l 24 4, tro := leAt l 28 4,
    paths := [readPath l 0, readPath l 1] }

/-! ### Checks: each gives the refusals of a section, every refusal as the fields it rests on -/

/-- A refusal at one field unless the condition holds. -/
def need (ty off : Nat) (ok : Bool) : Refusals := if ok then [] else [[(ty, off)]]
/-- A refusal that rests on several fields. -/
def needAll (fs : List (Nat × Nat)) (ok : Bool) : Refusals := if ok then [] else [fs]
/-- Bytes that must be 0. -/
def zeros (l : List Byte) (o n : Nat) : Bool := leAt l o n == 0
def within (v a b : Nat) : Bool := decide (a ≤ v ∧ v ≤ b)

def isKremaKind (k : Nat) : Bool := k == 1 || k == 2 || k == 3
def isDecodeKind (k : Nat) : Bool := k == 3 || k == 6

/-- R126, R217: the profiles of a codec. Main 10 is VVC's one profile. -/
def profileOk (codec profile : Nat) : Bool :=
  match codec with | 2 => decide (profile ≤ 2) | 3 => profile == 1 | _ => decide (profile ≤ 3)

/-- R126, R128, R217: depth, chroma and key interval against the profile. High 4:2:2 Intra asks for KI = 1 of a stream
that is encoded (log 114 for the fields named). -/
def checkProfile (kind : Nat) (profile depth chroma ki : Nat) : Refusals :=
  let t := tyGeometry
  needAll [(t, 5), (t, 7)] (decide (1 ≤ profile) || depth == 8) ++
  needAll [(t, 5), if kind = 4 then (tyProofing, 23) else (t, 13)] (decide (2 ≤ profile) || chroma == 0) ++
  (if kind = 6 then [] else needAll [(t, 5), (t, 20)] (profile != 3 || ki == 1))

/-- R217 for a stream kind. -/
def checkGeometry (kind : Nat) (chroma : Nat) (l : List Byte) : Refusals :=
  let g := readGeometry l
  let t := tyGeometry
  let krema := isKremaKind kind
  need t 4 (if krema then decide (g.codec ≤ 1) else if kind = 7 then g.codec == 0xFF else within g.codec 2 4) ++
  (if krema ∨ kind = 7 then [] else
    need t 5 (profileOk g.codec g.profile) ++ checkProfile kind g.profile g.depth chroma g.keyInterval) ++
  need t 5 (decide (g.profile ≤ 3)) ++
  need t 7 (if krema then g.depth == 10 || g.depth == 12 || g.depth == 14 || g.depth == 16 else g.depth == 8 || g.depth == 10) ++
  need t 8 (if krema then within g.width 256 16384 else if kind = 5 then within g.width 128 8192 && g.width % 8 == 0
    else if kind = 6 then within g.width 16 8192 else g.width == 0) ++
  need t 10 (if krema then within g.height 128 8640 else if kind = 5 then within g.height 64 4320 && g.height % 8 == 0
    else if kind = 6 then within g.height 16 4320 else g.height == 0) ++
  need t 12 (if krema then g.period == 1 || g.period == 2 || g.period == 4 else g.period == 0) ++
  (if krema ∧ g.period ≠ 0 then
    needAll [(t, 8), (t, 12)] (g.width % g.period == 0) ++ needAll [(t, 10), (t, 12)] (g.height % g.period == 0) ++
    needAll [(t, 12), (t, 14), (t, 16)] g.seq.cfaValid ++ needAll [(t, 12), (t, 16)] (phaseTailZero g.period g.phaseTable)
   else []) ++
  (if kind = 5 ∨ kind = 6 then need t 13 (decide (g.chroma ≤ 1)) else []) ++
  (if kind = 7 then [] else need t 20 (within g.keyInterval 1 (if krema then 240 else 600))) ++
  need t 23 (decide (g.flags < 2)) ++ need t 28 (g.rateDen != 0) ++
  need t 32 (if isDecodeKind kind then within g.maxRate 1000 2000000 else g.maxRate == 0) ++
  need t 44 (zeros l 44 4)

/-- R218, R114, R115. `known`: the source stream is one that may be developed, and the fields are judged against its sequence too; where it is not, the
source is what is refused (R543). -/
def checkProofing (kind codec depth : Nat) (known : Bool) (src : KSeq) (lut : List Nat) (taps : List Int) (l : List Byte) : Refusals :=
  let t := tyProofing
  let p := readProofing l lut taps
  let even := fun n => n % 2 == 0 && (!known || n % src.period == 0)
  (List.range 4).flatMap (fun c => need t (4 + 2 * c) (!known || decide (p.black.getD c 0 < 2 ^ src.depth))) ++
  need t 20 (decide (leAt l 20 1 ≤ 1) && (!known || leAt l 20 1 != 1 || src.isBayer)) ++ need t 21 (decide (p.ycc ≤ 1)) ++
  need t 22 (decide (p.transfer ≤ 3)) ++ needAll [(t, 21), (t, 22)] (decide (p.transfer < 2) || p.ycc == 1) ++
  need t 23 (decide (p.chroma ≤ 1)) ++ need t 24 (p.outDepth == 8 || p.outDepth == 10) ++
  needAll [(tyGeometry, 7), (t, 24)] (p.outDepth == depth) ++
  (if kind = 4 then needAll [(tyGeometry, 5), (t, 23)] (codec != 3 || p.chroma == 0) else []) ++
  need t 25 (zeros l 25 3) ++ need t 28 (even p.x0) ++ need t 30 (even p.y0) ++
  need t 32 (even p.wi && decide (256 ≤ p.wi)) ++ need t 34 (even p.hi && decide (128 ≤ p.hi)) ++
  needAll [(t, 28), (t, 32)] (!known || decide (p.x0 + p.wi ≤ src.width)) ++ needAll [(t, 30), (t, 34)] (!known || decide (p.y0 + p.hi ≤ src.height)) ++
  need t 36 (within p.ow 128 8192 && p.ow % 8 == 0) ++ need t 38 (within p.oh 64 4320 && p.oh % 8 == 0) ++
  needAll [(t, 32), (t, 36)] (decide (p.ow ≤ p.wi ∧ p.wi ≤ 8 * p.ow)) ++
  needAll [(t, 34), (t, 38)] (decide (p.oh ≤ p.hi ∧ p.hi ≤ 8 * p.oh)) ++
  need t 58 (zeros l 58 2) ++ need t 60 (lut.all (fun v => decide (v < 4096))) ++
  need t 68 (p.scalerAddr == 0 || (banksOk taps && taps.all (fun v => decide (-512 ≤ v ∧ v < 512))))

/-- R155, R156 for a stream's search geometry: `total` is TOTAL_LEN for its sections, `folio` the pool's folio size. -/
def checkStats (kind : Nat) (seq : KSeq) (total folio : Nat) (l : List Byte) : Refusals :=
  let t := tyStatistics
  let s := readStats l
  need t 4 (decide (s.sections ≤ 15)) ++ need t 5 (decide (s.pool ≤ 15)) ++ need t 6 (decide (leAt l 6 1 ≤ 1)) ++
  need t 7 (decide (s.histSrc ≤ 4) && (s.histSrc == 0 || kind == 1 || kind == 2)) ++
  needAll [(tyGeometry, 16), (t, 7)]
    (s.histSrc == 0 || seq.positions.any (fun q => seq.chan q.1 q.2 == s.histSrc - 1)) ++
  need t 9 (zeros l 9 3) ++ needAll [(t, 4), (t, 5)] (s.sections == 0 || decide (total ≤ folio))

/-- R166, R177: a codec's quantiser range. -/
def quantRange (codec depth : Nat) : Int × Int :=
  match codec with
  | 1 => (0, 63)
  | 3 => (-6 * (Int.ofNat depth - 8), 63)
  | _ => (-6 * (Int.ofNat depth - 8), 51)

/-- R177, R219, R175. -/
def checkRate (codec depth : Nat) (seq : KSeq) (l : List Byte) : Refusals :=
  let t := tyRate
  let r := readRate l
  let q := quantRange codec depth
  let inQ := fun (v : Int) => decide (q.1 ≤ v ∧ v ≤ q.2)
  need t 4 (decide (r.rcMode ≤ 2)) ++ need t 5 (inQ r.quantInit) ++ need t 6 (inQ r.quantMin) ++ need t 7 (inQ r.quantMax) ++
  needAll [(t, 6), (t, 7)] (decide (r.quantMin ≤ r.quantMax)) ++
  (if codec = 1 then [] else
    need t 8 (within r.targetRate 1000 2000000) ++ needAll [(t, 8), (t, 12)] (within r.peakRate r.targetRate (4 * r.targetRate))) ++
  need t 16 (within r.cpbMs 50 4000) ++
  (if codec = 1 then
    need t 18 (within r.ratioQ4 32 192) ++
    needAll [(tyGeometry, 7), (tyGeometry, 8), (tyGeometry, 10), (tyGeometry, 12), (t, 18)]
      ((List.range seq.leafCount).all fun j => decide (seq.flatSize j ≤ leafShare seq (max r.ratioQ4 1) j))
   else []) ++
  need t 19 (decide (r.rowDelta ≤ 12)) ++ need t 20 (within r.keyBoost 16 128) ++ need t 22 (within r.modelWeight 1 16) ++
  need t 23 (zeros l 23 1) ++ need t 32 (zeros l 32 8)

/-- R219. -/
def checkEvents (l : List Byte) : Refusals :=
  let t := tyEvents
  let e := readEvents l
  need t 4 (decide (e.ring ≤ 63)) ++ need t 5 (zeros l 5 1) ++ need t 6 (within e.readTimeout 1 10000) ++
  need t 8 (decide (e.pictureEvents ≤ 2)) ++ need t 9 (zeros l 9 3)

/-- The ports of a mask, ascending (R229). -/
def portsOf (mask : Nat) : List Nat := (List.range 6).filter (bitAt mask)

/-- R227: the depth of a data type. -/
def depthOfType (dt : Nat) : Nat := 10 + 2 * (dt - 0x2B)

/-- A port's load that another open stream puts on it: port mask, virtual channel, lanes, lane rate. -/
abbrev PortLoad := Nat × Nat × Nat × Nat

/-- R244, R230, R242, R227. `others`: the INGEST sections of the capture streams that are open. -/
def checkIngest (g : Geometry) (others : List IngestP) (l : List Byte) : Refusals :=
  let t := tyIngest
  let i := readIngest l
  let ps := portsOf i.portMask
  let k := ps.length
  let share := fun (o : IngestP) => (portsOf o.portMask).any fun p => ps.contains p
  need t 4 (decide (i.portMask < 64) && i.portMask != 0) ++ need t 5 (decide (leAt l 5 1 ≤ 1)) ++ need t 6 (decide (i.vc ≤ 15)) ++
  need t 7 (within i.dataType 0x2B 0x2E) ++ needAll [(tyGeometry, 7), (t, 7)] (depthOfType i.dataType == g.depth) ++
  need t 8 (i.lanes == 1 || i.lanes == 2 || i.lanes == 4) ++ need t 9 (decide (i.hold ≤ 1) || i.hold == 0xFF) ++
  need t 10 (decide (i.trigger ≤ 7) || i.trigger == 0xFF) ++ need t 11 (within i.frameBuffers 2 16) ++
  need t 12 (within i.laneRate 1000 9000) ++ need t 14 (within i.ingLines 4 64) ++
  need t 16 (decide (1 ≤ i.low)) ++ needAll [(t, 15), (t, 16)] (decide (i.low < i.high)) ++
  needAll [(t, 14), (t, 15)] (decide (i.high + 3 ≤ i.ingLines)) ++
  need t 17 (zeros l 17 1) ++ need t 18 (within i.lineTimeout 10 10000) ++ need t 20 (decide (leAt l 20 1 ≤ 1)) ++
  need t 21 (zeros l 21 3) ++
  needAll ([(tyGeometry, 8)] ++ (if i.stripe then [(t, 4)] else []) ++ [(t, 5)])
    (if i.stripe then k != 0 && g.width % k == 0 && (g.width / k) % 8 == 0 else g.width % 8 == 0) ++
  needAll [(t, 4), (t, 6)] (others.all fun o => !(share o && o.vc == i.vc)) ++
  needAll [(t, 4), (t, 8), (t, 12)] (others.all fun o => !share o || (o.lanes == i.lanes && o.laneRate == i.laneRate)) ++
  needAll [(tyGeometry, 8), (tyGeometry, 10), (tyGeometry, 24), (tyGeometry, 28), (t, 4), (t, 8), (t, 12)]
    (decide (g.width * g.height * g.rateNum * 16 * 21 ≤ g.rateDen * 20 * (k * i.lanes * (i.laneRate * 1000000)))) ++
  need t 4 (ps.all fun p => decide ((others.filter fun o => bitAt o.portMask p).length < 4))

/-- R290: ranges of NETWORK. -/
def checkNetwork (rateNum rateDen : Nat) (l : List Byte) : Refusals :=
  let t := tyNetwork
  let n := readNetwork l
  need t 4 (within n.ports 1 3) ++ need t 5 (decide (n.media ≤ 1)) ++
  need t 6 (if n.media = 0 then decide (n.sender ≤ 1) else n.sender == 0) ++ need t 7 (decide (n.tc ≤ 7)) ++
  need t 8 (decide (leAt l 8 1 < 4)) ++ need t 9 (decide (n.pcp ≤ 7)) ++
  need t 10 (if n.vlan then within n.vid 1 4094 else n.vid == 0) ++ need t 12 (decide (n.dscp ≤ 63)) ++ need t 13 (decide (1 ≤ n.hops)) ++
  need t 14 (if n.media = 1 then within n.maxPayload 512 1400 else n.maxPayload == 0) ++ need t 20 (within n.pt 96 127) ++
  need t 21 (zeros l 21 3) ++ need t 24 (if n.media = 0 then decide (n.mediaDelay ≤ 1000000) else n.mediaDelay == 0) ++
  need t 28 (n.media == 0 || n.tro == 0) ++
  needAll [(tyGeometry, 24), (tyGeometry, 28), (t, 28)] (n.media != 0 || decide (n.tro * 2 * rateNum ≤ rateDen * 1000000000)) ++
  (List.range 2).flatMap (fun q =>
    if q = 1 ∧ n.ports ≠ 3 then [] else
      let p := n.paths.getD q { mac := 0, srcUdp := 0, dstUdp := 0, dstIp := 0 }
      need t (38 + 32 * q) (decide (1024 ≤ p.srcUdp)) ++ need t (40 + 32 * q) (decide (1024 ≤ p.dstUdp)) ++
      need t (42 + 32 * q) (zeros l (42 + 32 * q) 2) ++
      need t (44 + 32 * q) (n.ipv6 || decide (p.dstIp < 2 ^ 32)) ++ need t (60 + 32 * q) (zeros l (60 + 32 * q) 4))

/-- R289: the cases in which NETWORK is accepted. -/
def netFormatOk (kind : Nat) (g : Geometry) (p : ProofP) (n : NetP) : Bool :=
  if n.media = 0 then
    kind == 7 && p.chroma == 1 && within p.ow 640 3840 && decide (p.oh ≤ 2160) && decide (g.rateNum ≤ 60 * g.rateDen)
  else kind == 4 && (g.codec == 2 || g.codec == 3)

/-- R291: the flow rate in b/s. -/
def flowRate (g : Geometry) (p : ProofP) (r : Option RateP) (n : NetP) : Nat :=
  let h := (if n.ipv6 then 20 else 0) + (if n.vlan then 4 else 0)
  if n.media = 0 then
    let lb := if p.outDepth = 10 then p.ow * 5 / 2 else p.ow * 2
    let np := ceilDiv (lb * p.oh) 1260
    ceilDiv (np * (1260 + 92 + h) * 8 * g.rateNum) g.rateDen
  else
    let br := match r with
      | some r => (if r.rcMode = 1 then r.peakRate else r.targetRate) * 1000
      | none => 0
    ceilDiv (br * 5 * (n.maxPayload + 81 + h)) (4 * n.maxPayload)

/-! ### The first refusal in the descriptor (R543) -/

/-- The place of a field in a descriptor: the index of its section, its offset. -/
def placeOf (secs : List RawSec) (f : Nat × Nat) : Option (Nat × Nat) :=
  match secs.findIdx? (fun s => s.ty == f.1) with
  | some i => some (i, f.2)
  | none => none

/-- One refusal's first field in descriptor order. -/
def firstField (secs : List RawSec) (fs : List (Nat × Nat)) : Option ((Nat × Nat) × (Nat × Nat)) :=
  fs.foldl (fun best f =>
    match placeOf secs f, best with
    | none, b => b
    | some p, none => some (p, f)
    | some p, some (q, g) => if p.1 < q.1 ∨ (p.1 = q.1 ∧ p.2 < q.2) then some (p, f) else some (q, g)) none

/-- R543: the refusals that stand: a field that is refused by itself gives no refusal that rests on several fields
(DEDUCED, log 114). -/
def standing (rs : Refusals) : Refusals := rs.filter fun fs => decide (fs.length ≤ 1) || fs.all fun f => !rs.contains [f]

/-- R543: the refusal that comes first. -/
def firstRefusal (secs : List RawSec) (rs : Refusals) : Option (Nat × Nat) :=
  match ((standing rs).filterMap (firstField secs)).foldl (fun (best : Option ((Nat × Nat) × (Nat × Nat))) r =>
    match best with
    | none => some r
    | some b => if r.1.1 < b.1.1 ∨ (r.1.1 = b.1.1 ∧ r.1.2 < b.1.2) then some r else some b) none with
  | some r => some r.2
  | none => none

/-- R216: unknown, repeated and inapplicable types, and wrong lengths: refusals at offset 0 by section index. -/
def typeRefusal (kind codec : Nat) (secs : List RawSec) (stop : Option (Option Nat)) : Option (Nat × Nat) :=
  secs.zipIdx.foldl (fun (best : Option (Nat × Nat)) si =>
    match best with
    | some b => some b
    | none =>
      let s := si.1
      let bad := (sectionLen s.ty).isNone || !sectionApplies kind s.ty codec ||
        (secs.take si.2).any (fun r => r.ty == s.ty) || (si.2 + 1 == secs.length && stop == some (some s.ty))
      if bad then some (si.2, s.ty) else none) none

/-- R543: what w5 names for a descriptor, if it is refused: the earlier of a type refusal and a field refusal, then an
absent required section, then the descriptor's length. -/
def descriptorRefusal (kind codec : Nat) (required : List Nat) (secs : List RawSec) (stop : Option (Option Nat))
    (fields : Refusals) : Option (Nat × Nat) :=
  let tr := typeRefusal kind codec secs stop
  let fr := firstRefusal secs fields
  match tr, fr with
  | some (i, ty), some f =>
    (match placeOf secs f with
     | some p => if p.1 < i then some f else some (ty, 0)
     | none => some (ty, 0))
  | some (_, ty), none => some (ty, 0)
  | none, some f => some f
  | none, none =>
    match required.find? (fun t => !(secs.any fun s => s.ty == t)) with
    | some t => some (t, 0xFFFF)
    | none => if stop = some none then some (0, 0xFFFF) else none

/-- The bytes of a section, if present. -/
def secBytes (secs : List RawSec) (ty : Nat) : Option (List Byte) :=
  match secs.find? (fun s => s.ty == ty) with
  | some s => some s.bytes
  | none => none

end Sys2Proof.Machine
end

