-- ==== Sys2Proof/Machine/UnitsCore.lean ====
section
/-! DEFINITION. What the block holds behind its registers for the Registrar, the ICU and the curator pairs, the carrels
and scribes, the MMU, the DMA, the Stacks, the Lending desk, the Catalogue and the reset and power controller (13 to 18). -/
namespace Sys2Proof.Machine

/-- A fault message as logged (R436, R437). -/
structure Msg where
  unit : Nat
  kind : Nat
  cls : Nat
  esc : Bool
  detail : Nat
  detailValid : Bool
  addr : Nat
  sec : Nat
  ns : Nat
  injected : Bool
  seq : Nat
  deriving DecidableEq, Repr

/-- The four words of a message (R436). -/
def Msg.words (m : Msg) : List Nat :=
  [ m.unit % 4096 + m.kind % 256 * 2 ^ 12 + m.cls % 8 * 2 ^ 20 + (if m.esc then 2 ^ 23 else 0) + m.detail % 256 * 2 ^ 24,
    m.addr % 2 ^ 32, bits m.addr 32 16 + m.sec % 65536 * 2 ^ 16,
    m.ns % 2 ^ 30 + (if m.injected then 2 ^ 30 else 0) + (if m.detailValid then 2 ^ 31 else 0) ]

/-- An unacknowledged class of a unit (R441, R442). `escalates`: some message of it is of a kind other than APPLET. -/
structure Unack where
  unit : Nat
  cls : Nat
  escalates : Bool
  deriving DecidableEq, Repr

/-- The Registrar (R437 to R445, R449): log and log head newest first, the next SEQ, the unacknowledged messages, whether
the log has wrapped, the tick until which FAULT_N is held (R444). -/
structure Registrar where
  log : List Msg
  head : List Msg
  seq : Nat
  unack : List Unack
  wrapped : Bool
  hold : Option Nat
  deriving DecidableEq, Repr

def Registrar.init : Registrar := { log := [], head := [], seq := 0, unack := [], wrapped := false, hold := none }

/-- A PMP entry of a core (R407, R414): the bytes it covers, what it permits, and that it is locked. -/
structure Pmp where
  lo : Nat
  hi : Nat
  r : Bool
  w : Bool
  x : Bool
  locked : Bool
  deriving DecidableEq, Repr

def Pmp.off : Pmp := { lo := 0, hi := 0, r := false, w := false, x := false, locked := false }
/-- An entry over a region of memory, in whole units of 4 KiB (R407). -/
def Pmp.region (addr len : Nat) (r w x : Bool) : Pmp :=
  { lo := addr / 4096 * 4096, hi := (addr + len + 4095) / 4096 * 4096, r, w, x, locked := false }
/-- The first entry that an access touches decides on it: the whole of it lies within, and the entry permits it. An entry that is not locked leaves M-mode
alone, and U-mode has only what an entry grants (R414). `kind`: 0 read, 1 write, 2 execute. -/
def pmpAllows (l : List Pmp) (user : Bool) (kind addr len : Nat) : Bool :=
  match l.find? fun p => decide (p.lo < addr + len ∧ addr < p.hi) with
  | none => !user
  | some p => !(user || p.locked) || (decide (p.lo ≤ addr ∧ addr + len ≤ p.hi) && (if kind = 0 then p.r else if kind = 1 then p.w else p.x))

/-- What a pair checkpoint saves (R410): x1 to x31, pc, mstatus, mepc, mcause, mtval, mie, mscratch, the PMP entries, and mtimecmp. -/
structure CoreRegs where
  x : List Nat
  pc : Nat
  mstatus : Nat
  mepc : Nat
  mcause : Nat
  mtval : Nat
  mie : Nat
  mscratch : Nat
  pmp : List Pmp
  mtimecmp : Nat
  deriving DecidableEq, Repr

def CoreRegs.init : CoreRegs :=
  { x := List.replicate 31 0, pc := 0, mstatus := 0, mepc := 0, mcause := 0, mtval := 0, mie := 0, mscratch := 0,
    pmp := List.replicate 8 Pmp.off, mtimecmp := 0xFFFFFFFFFFFFFFFF }

/-- A line of a curator cache (R407, R415): the block's address, its 64 bytes, and that it differs from memory. -/
structure CacheLine where
  addr : Nat
  data : List Byte
  dirty : Bool
  deriving DecidableEq, Repr

/-- A logical hart (R407 to R417, R420, R421): its claim stack, top first; its core's registers, with the mode, mtvec and the caches, newest line
first; the save area of its last pair checkpoint; whether a mismatch with no spare pair stopped it; halted for sleep; mpoison (R417). `regs.mtimecmp`
stands in the save area alone: the compare itself is ICU.MTIMECMPh. -/
structure Hart where
  claims : List Nat
  regs : CoreRegs
  user : Bool
  mtvec : Nat
  dcache : List CacheLine
  icache : List CacheLine
  save : CoreRegs
  stopped : Bool
  halted : Bool
  poison : Nat
  /-- MTIP (R416) -/
  mtip : Bool
  deriving DecidableEq, Repr

def Hart.init : Hart :=
  { claims := [], regs := CoreRegs.init, user := false, mtvec := 0, dcache := [], icache := [], save := CoreRegs.init, stopped := false,
    halted := false, poison := 0, mtip := false }

/-- A scribe checkpoint (R453): coder state and contexts as bytes, and the items consumed before it. -/
structure Checkpoint where
  state : List Byte
  items : Nat
  deriving DecidableEq, Repr

/-- A carrel or scribe behind its registers (R370, R424 to R433, R451 to R453), by grant index. -/
structure Engine where
  /-- stream, picture, unit and run of the work held, `none` when it holds none -/
  work : Option (Nat × Nat × Nat × Nat)
  /-- scribe checkpoint -/
  ckpt : Option Checkpoint
  /-- staged writes waiting for the commit (R428): at most 64 entries of 32 bytes -/
  staging : List (List Byte)
  /-- control store, by word address: 128 bits and the parity bits above them -/
  store : Tab Nat
  /-- word address and tick of the last reload for a parity failure (R432) -/
  parity : Option (Nat × Nat)
  /-- micro-TLB entries, newest first (R364) -/
  utlb : List (Nat × Nat × Nat × Nat)
  /-- writes translated and not landed (R451) -/
  writes : Nat
  /-- tick of the fence whose drain is not ended -/
  drain : Option Nat
  /-- the unit that takes this fenced unit's place (R20) -/
  heir : Option Nat
  /-- the WAIT condition that the routine waits on, 0 for none (R425, R427) -/
  wait : Nat
  /-- the chunk whose commit waits for the other run's in Paired protection (R454) -/
  offer : Option Nat
  deriving DecidableEq, Repr

def Engine.init : Engine :=
  { work := none, ckpt := none, staging := [], store := [], parity := none, utlb := [], writes := 0, drain := none, heir := none, wait := 0, offer := none }

/-- Who waits on a translation: an engine, a DMA channel, or the buffer of a call slip (ring, index of the slip). -/
inductive Waiter where
  | engine (i : Nat)
  | dma (ch : Nat)
  | slip (rp k : Nat)
  deriving DecidableEq, Repr

/-- A fault record (R368, R381). -/
structure FltRec where
  id : Nat
  who : Waiter
  asid : Nat
  va : Nat
  write : Bool
  kind : Nat
  level : Nat
  tick : Nat
  deriving DecidableEq, Repr

/-- The MMU (R363 to R371): staged CTX_LO words, shared TLB newest first as (ASID, VA page of 4 KiB, log2 of the size,
leaf entry), records queued and waiting outside, the next record ID, host bus addresses last written by each DMA channel. -/
structure Mmu where
  staged : Tab Nat
  tlb : List (Nat × Nat × Nat × Nat)
  queue : List FltRec
  outside : List FltRec
  nextId : Nat
  deriving DecidableEq, Repr

def Mmu.init : Mmu := { staged := [], tlb := [], queue := [], outside := [], nextId := 0 }

/-- A DMA channel behind its registers (R373 to R380): the words of the slip in progress; STOP has been written; the offset at
which COMPARE found a difference; host bus address of the last write through the host window, for BARRIER (R375); the bytes left of a burst that has started (R377); its burst waits for the host window (R366); its turn within its
priority, counted up at each burst (R372). -/
structure DmaCh where
  slip : List Nat
  stop : Bool
  mismatch : Option Nat
  last : Nat
  burst : Nat
  held : Bool
  served : Nat
  deriving DecidableEq, Repr

def DmaCh.init : DmaCh := { slip := [], stop := false, mismatch := none, last := 0, burst := 0, held := false, served := 0 }

/-- An item of a Stacks queue (R385 to R389, R452): its cells as a count for each bank. -/
structure Item where
  ty : Nat
  len : Nat
  producer : Nat
  data : List Byte
  complete : Bool
  /-- stream, picture and unit of work that produced it, where an engine did (R452) -/
  work : Option (Nat × Nat × Nat)
  epoch : Nat
  chunk : Nat
  banks : List Nat
  deriving DecidableEq, Repr

/-- A Stacks queue (R386 to R395), registers behind QSEL included. -/
structure Queue where
  cfg : Nat
  limit : Nat
  wmark : Nat
  tmo : Nat
  grant : Nat
  /-- items begun and not popped, in the order their pushes began -/
  items : List Item
  /-- consumer and item of each claim not released, oldest first -/
  claimed : List (Nat × Item)
  tripped : Bool
  /-- producers whose open item was truncated and whose END is still to come -/
  truncated : List Nat
  timer : Option Nat
  /-- a write has cleared ENABLE while the queue still holds items (R405) -/
  disabling : Bool
  deriving DecidableEq, Repr

def Queue.init : Queue :=
  { cfg := 0, limit := 0, wmark := 0, tmo := 100, grant := 0, items := [], claimed := [], tripped := false, truncated := [],
    timer := none, disabling := false }

/-- A lent folio (R402): share count, 0 for an orphan, and last owner. -/
structure Lent where
  count : Nat
  owner : Nat
  deriving DecidableEq, Repr

/-- A folio pool behind its registers (R399 to R402): the cache, ring head and fill in handles, lent folios by index. -/
structure Pool where
  cache : List Nat
  ringHead : Nat
  ringFill : Nat
  lent : Tab Lent
  deriving DecidableEq, Repr

def Lent.none : Lent := { count := 0, owner := 0xFFF }
def Pool.init : Pool := { cache := [], ringHead := 0, ringFill := 0, lent := [] }

/-- What a unit holds for the Catalogue (R461): its epoch, its digest, the digest expected, whether its acknowledgement of
the epoch being taken is still missing. -/
structure CatUnit where
  epoch : Nat
  digest : Nat
  expect : Nat
  /-- digest expected in the epoch being taken -/
  expectNext : Nat
  waiting : Bool
  /-- the Catalogue has rewritten its configuration after a mismatch, and no sweep has found it well since (R439) -/
  rewritten : Bool
  /-- epoch, digest and expected digest as found at its last sweep (R465) -/
  seen : Nat × Nat × Nat
  deriving DecidableEq, Repr

def CatUnit.init : CatUnit := { epoch := 0, digest := 0, expect := 0, expectNext := 0, waiting := false, rewritten := false, seen := (0, 0, 0) }

/-- A rate-control applet as its image gives it (R185): identifier, MAGIC, ABI, offsets of rc_open, rc_plan, rc_result and rc_close, DATA_SIZE; the
place of the image in SECURE_FW. -/
structure AppletImage where
  id : Nat
  magic : Nat
  abi : Nat
  entries : List Nat
  dataSize : Nat
  addr : Nat
  len : Nat
  deriving DecidableEq, Repr

/-- The Catalogue (R459 to R463): the epoch being taken, the tick it began, the measurement of the bundle. -/
structure Catalogue where
  taking : Option (Nat × Nat)
  /-- SHA-384 measurement of the firmware bundle (R460, R483) -/
  bundle : List Byte
  /-- rate-control applets of the bundle that the camera-maker slot signed (R184, R185) -/
  applets : List AppletImage
  units : Tab CatUnit
  deriving DecidableEq, Repr

def Catalogue.init : Catalogue := { taking := none, bundle := [], applets := [], units := [] }

/-- The reset controller and the sleep sequencer (R486 to R502), PDA parts included. -/
structure Power where
  /-- reset held, waiting for RESET_RELEASE; its scope is wide when cold -/
  held : Bool
  cold : Bool
  /-- requests latched while SYS_REFCLK is stopped: (rank, cause, cold) -/
  latched : List (Nat × Nat × Bool)
  refclk : Bool
  suppliesOk : Bool
  sysResetLow : Bool
  perstLow : Bool
  /-- tick of the RST_KEY write that opens a sequence -/
  key : Option Nat
  /-- the unit reset in progress, its tick, and whether the unit was not idle -/
  unit : Option (Nat × Nat × Bool)
  /-- pace charged at a warm reset (rule 6 of R17) -/
  pace : Nat
  /-- VDD_AON in range -/
  aon : Bool
  /-- pads forced to the safe state (R492, R493) -/
  padsSafe : Bool
  /-- sleep request in hand: REQ, the last step done, its tick -/
  sleep : Option (Nat × Nat × Nat)
  /-- a sleep entry being unwound: the source that cancelled it, `none` for a link that did not reach L2; REQ; the step to undo -/
  unwind : Option (Option Nat × Nat × Nat)
  /-- the domains that were on when sleep was accepted, as the words of PD_STAT -/
  domains : List Nat
  /-- wake in hand: source, from Vault, last step done, tick of the start -/
  wake : Option (Nat × Bool × Nat × Nat)
  /-- state held in PDA (R505): 0 ACTIVE to 4 VAULT -/
  wakeN : Bool
  linkL2 : Bool
  /-- the location of the protected copy and the launch measurement (R482, R499) -/
  launch : Option (List Byte)
  deriving DecidableEq, Repr

def Power.init : Power :=
  { held := true, cold := true, latched := [], refclk := false, suppliesOk := false, sysResetLow := false, perstLow := false,
    key := none, unit := none, pace := 0, aon := true, padsSafe := true, sleep := none, unwind := none, domains := [], wake := none, wakeN := false,
    linkL2 := false, launch := none }

end Sys2Proof.Machine
end

