-- ==== Sys2Proof/Machine/UnitsHost.lean ====
section
/-! DEFINITION. What the block holds behind its registers for the host interface, the streams, their pictures, the
sensor ports and the carrels' and scribes' work (01, 02 to 08). Register words themselves are in the register file. -/
namespace Sys2Proof.Machine

/-- A call slip that the device has taken and not completed (R194, R197): its 16 words; whether its work has started;
whether it is staged for an epoch (R220). -/
structure Taken where
  /-- its number among the slips taken from its ring -/
  id : Nat
  words : List Nat
  started : Bool
  staged : Bool
  /-- the status, EXTRA and words it completes with once earlier slips of its stream have (R208) -/
  verdict : Option (Nat × Nat × List Nat)
  deriving DecidableEq, Repr

/-- A return slip before it is written (R199): words 2 to 6 in `w`. `noIrq`: FLAGS.NO_IRQ of its call slip. `counted`: it has counted for its vector while
it waits (R212). `frees`: the charge that is released when it is written (R214). `before`: the source stream whose close completes after it (R213). -/
structure RetSlip where
  tag : Nat
  status : Nat
  stream : Option Nat
  opcode : Nat
  kind : Nat
  extra : Nat
  w : List Nat
  noIrq : Bool
  counted : Bool := false
  frees : Nat × Nat := (0, 0)
  before : Option Nat := none
  deriving DecidableEq, Repr

/-- A ring pair behind RP_STAT and RP_RQ_STAT (R190 to R199, R209). -/
structure Ring where
  /-- slips taken from the submission ring and not completed, in ring order; how many have been taken -/
  taken : List Taken
  count : Nat
  /-- re-reads made of the slot at the head (R197) -/
  rereads : Nat
  /-- completions formed and not yet written (R209), oldest first -/
  compl : List RetSlip
  /-- the event queue, at most 1,024 slips (R209), oldest first -/
  events : List RetSlip
  /-- event slips dropped since the last LOST slip -/
  lost : Nat
  /-- slips of a drain that are still to be written (R209, R215) -/
  drain : Nat
  /-- tick of the last slip taken from, or first put into, the event queue -/
  evTick : Nat
  deriving DecidableEq, Repr

def Ring.init : Ring := { taken := [], count := 0, rereads := 0, compl := [], events := [], lost := 0, drain := 0, evTick := 0 }

/-- An MSI-X vector behind its registers (R211): the count, and the tick the hold timer started. -/
structure Vec where
  count : Nat
  timer : Option Nat
  deriving DecidableEq, Repr

def Vec.init : Vec := { count := 0, timer := none }

/-- The state of a stream context (R214). -/
inductive StreamState where
  | closed
  | opened
  | closing
  deriving DecidableEq, Repr

def StreamState.code : StreamState → Nat
  | .closed => 0 | .opened => 1 | .closing => 2

/-- How a guard unit of a standard codec is coded (R129, R171): by the encoder's own choices, or in floor mode: every CU of `size` skipped with merge
index 0, or intra DC of the largest size without residual; P_Skip, or I_16x16 with DC prediction and no coefficients. -/
inductive UnitMode where
  | coded (choice : List Nat)
  | skip (size : Nat)
  | intraDc (size : Nat)
  | pSkip
  | i16Dc
  deriving DecidableEq, Repr

/-- A guard unit as coded: its mode, the QP of its first CTU or macroblock, and its bits in slice data (R165, R166). -/
structure UnitCode where
  mode : UnitMode
  qp : Int
  bits : Nat
  deriving DecidableEq, Repr

/-- What coding a unit of work gives (R54, R133, R176): leaf kind, quantiser, coded bytes (a leaf's header and body, a slice's NAL
units, or the pgroups of a band), reconstruction, bits of each guard unit in it (R165), and in a standard codec how each is coded. -/
structure Coded where
  kind : Nat
  quant : Nat
  bytes : List Byte
  recon : Rows
  gbits : List Nat
  unverified : Bool
  floor : Bool
  capped : Bool
  units : List UnitCode
  deriving DecidableEq, Repr

def Coded.init : Coded :=
  { kind := 0, quant := 0, bytes := [], recon := [], gbits := [], unverified := false, floor := false, capped := false, units := [] }

/-- One unit of work of a picture: one Krema leaf, a CTU segment, or a band of a developed raw picture (R38, R133). -/
structure UnitRec where
  /-- engines now working on it: unit ID and placement epoch (R24) -/
  runs : List (Nat × Nat)
  /-- results not yet committed: run, the unit that gave it, the result (R28) -/
  results : List (Nat × Nat × Coded)
  committed : Bool
  commitTick : Nat
  /-- chunks committed so far: the unit that drained it, its number, its placement epoch (R430, R452) -/
  chunks : List (Nat × Nat × Nat)
  code : Coded
  /-- carrels whose input CRC differed (R64) -/
  crcMiss : List Nat
  redone : Bool
  /-- guard units of it redone for floor mode -/
  redoneFloor : Nat
  lost : Bool
  /-- codings that guard units keep when the others of their unit are coded anew (R170) -/
  kept : List UnitCode
  /-- tick at which the redo after a fault was ordered, for MASK_LAST (R449) -/
  redoTick : Option Nat
  deriving DecidableEq, Repr

def UnitRec.init : UnitRec :=
  { runs := [], results := [], committed := false, commitTick := 0, chunks := [], code := Coded.init, crcMiss := [], redone := false,
    redoneFloor := 0, lost := false, kept := [], redoTick := none }

/-- A search block's record as found, with the placement epoch of the work it was found for, `none` before that work is placed (R150). -/
structure Searched where
  found : VecRec
  epoch : Option Nat
  deriving DecidableEq, Repr

/-- A picture in flight of a stream (R25, R85, R163, R168 to R174, R200). -/
structure Pic where
  num : Nat
  key : Bool
  /-- the input samples: CFA rows, or luma rows of a YCbCr picture -/
  input : Rows
  chromaB : Rows
  chromaR : Rows
  /-- the tick at which each row landed in the frame buffer, in row order (R24, R65) -/
  lands : List Nat
  /-- input CRC of each leaf once Accession has recorded it (R238) -/
  crcs : List (Option Nat)
  expSrc : Nat
  stamps : List DTime
  epoch : Nat
  digest : Nat
  /-- proofing parameters taken at the first dispatch (R125) -/
  proof : Option ProofP
  /-- the picture of the source stream that it is developed from (R213) -/
  src : Option (Nat × Nat)
  plan : Option Plan
  planStale : Bool
  planFallback : Bool
  units : Tab UnitRec
  unitCount : Nat
  dispatched : Bool
  /-- guard units evaluated; where and when the guard tripped; the leaf that entered floor stage 2 (R170, R173) -/
  evaluated : Nat
  trip : Option Nat
  tripTick : Nat
  floor2 : Option Nat
  /-- every unit of work is committed for good -/
  finished : Bool
  releasedUnits : Nat
  /-- tick of the last unit released (R134) -/
  releaseTick : Nat
  released : Bool
  /-- handle of the statistics folio (R163); its statistics were dropped; the firmware still holds its share -/
  folio : Option Nat
  statsDropped : Bool
  statsHeld : Bool
  coarse : Option Nat
  vectors : Tab Searched
  /-- the LAMBDA of its search: that in force at its first search block or dispatch (R155, R156) -/
  lambda : Option Nat
  /-- its frame buffer among those of a capture stream (R232) -/
  buf : Nat
  /-- bytes of the decoded picture hash of a standard codec's picture (R130) -/
  crcHash : List Nat
  linesDropped : Bool
  unmasked : Bool
  boundMissed : Bool
  clamped : Nat
  /-- the ENCODE_PICTURE slip: its ring and its number; bytes released for its output buffer so far; its output buffer could
  not be reached -/
  slip : Option (Nat × Nat)
  outLen : Nat
  addrFault : Bool
  /-- the lowest-numbered network stream developed from the picture (R200); DEPART; NOT_SENT -/
  netStream : Option Nat
  depart : Option Nat
  notSent : Bool
  slipWritten : Bool
  /-- who still reads the picture (R232): developed streams by number, 256 and above for network paths and the Bindery -/
  readers : List Nat
  deriving DecidableEq, Repr

/-- The entries of an applet (R185, R186). -/
inductive AppletEntry where
  | rcOpen
  | rcPlan
  | rcResult
  | rcClose
  deriving DecidableEq, Repr

/-- A call of an applet (R186): the entry, its picture, a0 and the arguments after it, the bytes of its argument buffers and that they may be
written, the tick at which it began. -/
structure AppletCall where
  entry : AppletEntry
  picture : Nat
  args : List Nat
  argLen : Nat
  writable : Bool
  tick : Nat
  deriving DecidableEq, Repr

/-- A rate-control applet of a stream (R184 to R189): in use, and its log of at most 64 entries, newest first; its image; the hart it runs on; the place
of its data region and of the buffers of a call; the call in progress; calls that wait for it to return. -/
structure Applet where
  active : Bool
  log : List (Nat × Nat)
  image : AppletImage
  hart : Nat
  dataAt : Nat
  argsAt : Nat
  call : Option AppletCall
  queue : List AppletCall
  deriving DecidableEq, Repr

/-- The address of an entry of an applet's image (R185). -/
def AppletImage.entry (m : AppletImage) (e : AppletEntry) : Nat :=
  m.addr + m.entries.getD (match e with | .rcOpen => 0 | .rcPlan => 1 | .rcResult => 2 | .rcClose => 3) 0

/-- The three regions of an applet call, as PMP entries 5 to 7 (R188). -/
def Applet.regions (a : Applet) (c : AppletCall) : List Pmp :=
  [ Pmp.region a.image.addr a.image.len true false true, Pmp.region a.dataAt a.image.dataSize true true false,
    Pmp.region (if c.entry = .rcResult then c.args.getD 1 0 else a.argsAt) c.argLen true c.writable false ]

/-! ### A decoder of a standard codec (R135 to R140) -/

/-- A parameter set received (R130, R137, R138): 0 VPS, 1 SPS, 2 PPS; its identifier and that of the set it names; whether it can be parsed. Of an SPS: it
asks for something R126 does not support, tier and level × 10, size, depth, chroma (0 4:2:0, 1 4:2:2, 2 4:0:0), CTU size; pictures of the decoded picture
buffer, and the limits on reordering and latency (0 for none) of its bumping process. -/
structure ParamSet where
  kind : Nat
  id : Nat
  names : Nat
  ok : Bool
  unsupported : Bool
  high : Bool
  level : Nat
  width : Nat
  height : Nat
  depth : Nat
  chroma : Nat
  ctu : Nat
  dpbSize : Nat
  reorder : Nat
  latency : Nat
  deriving DecidableEq, Repr

/-- A decoded picture held (R135, R138): picture order count, planes, depth and chroma; held as a reference; generated; the slip and what it is to have
while it waits for output: its map, PFLAGS, pictures decoded since. -/
structure DpbPic where
  poc : Int
  y : Rows
  cb : Rows
  cr : Rows
  depth : Nat
  chroma : Nat
  ref : Bool
  slip : Option (Nat × Nat)
  map : List Byte
  flags : Nat
  age : Nat
  deriving DecidableEq, Repr

/-- A decoder's state: it has started; RASL pictures are left out until the next random-access point; pictures are left out before this order count; the
parameter sets and the pictures it holds, the most recently decoded first. -/
structure Decoder where
  started : Bool
  dropRasl : Bool
  from' : Option Int
  sets : List ParamSet
  dpb : List DpbPic
  deriving DecidableEq, Repr

def Decoder.init : Decoder := { started := false, dropRasl := false, from' := none, sets := [], dpb := [] }

/-- A row of a member's ingest queue (R236, R239, R240): being received, whole with its samples, or dropped and holding no cell. -/
inductive RowState where
  | receiving
  | whole (samples : List Nat)
  | dropped
  deriving DecidableEq, Repr

/-- A row in an ingest queue: its line number on the member, and its cells by bank. -/
structure IngRow where
  line : Nat
  st : RowState
  cells : List Nat
  deriving DecidableEq, Repr

/-- One member of a port group within a frame (R229, R233, R239): it has sent its frame start; its frame end; the first line number
that it has neither sent nor passed over; lines that it has delivered; its rows in the queue. -/
structure Member where
  started : Bool
  ended : Bool
  next : Nat
  got : Nat
  rows : List IngRow
  deriving DecidableEq, Repr

/-- A frame of a capture stream whose rows are not all emitted (R233): its picture, its CSI-2 frame number, the tick of its start, its
members, rows emitted, the tick of the last of them, and how many packets of its last row have ended. -/
structure Frame where
  num : Nat
  frameNumber : Nat
  startTick : Nat
  members : List Member
  emitted : Nat
  emitTick : Nat
  lastParts : Nat
  closed : Bool
  deriving DecidableEq, Repr

/-- A stream context (R213). -/
structure Stream where
  state : StreamState
  kind : Nat
  prot : Nat
  subFrame : Bool
  rp : Nat
  secs : Sections
  cu : Nat
  su : Nat
  nextPic : Nat
  lastReleased : Option Nat
  pics : List Pic
  /-- reconstructed pictures that later pictures may name as references, newest first (R50) -/
  refs : List (Nat × Rows)
  /-- search pictures of finished pictures that a later one may be searched against (R144), by number -/
  searched : List (Nat × Rows)
  plans : List Plan
  lastPlan : Option Plan
  fullness : Int
  kIntra : Nat
  kInter : Nat
  /-- complexity map of the most recent picture whose statistics arrived (R179, R183) -/
  cplx : List Nat
  /-- plans discarded as invalid, and as late (R167, R168) -/
  planDrops : Nat
  planLate : Nat
  /-- picture quantiser and complexity C, as a fraction, of the built-in firmware's plans, newest first (R181) -/
  quants : List (Nat × Int × Nat × Nat)
  applet : Option Applet
  kdec : KDec
  /-- the decoder of a standard codec (R135 to R140) -/
  dec : Decoder
  /-- a CLOSE_STREAM is in hand: its ring and its number; ABORT was set -/
  closeSlip : Option (Nat × Nat)
  abort : Bool
  /-- frames open or with rows still to be emitted, oldest first; only the last can be open -/
  frames : List Frame
  /-- members whose latest frame start was taken into a frame (R233) -/
  joined : List Nat
  /-- ingest slot: its Accession request line of the DMA (R376) -/
  slot : Nat
  /-- edges of its TIME_OUT output since the last accepted frame start (R235), newest first -/
  edges : List (Nat × DTime)
  /-- tile limits of the level signalled (R133) -/
  lim : TileLimit
  /-- COARSE_CPLX as posted (R160, R187), by picture, newest first -/
  coarse : List (Nat × Nat)
  /-- the epoch in which its CLOSE_STREAM was taken (R220) -/
  closeEpoch : Option Nat
  /-- a take of it is open (R266) -/
  recorded : Bool
  /-- the FLUSH_STREAM in hand: slips it completed as FLUSHED, and the number of the first picture after it (R215) -/
  flush : Option (Nat × Nat)
  /-- least free frame buffers (R450) -/
  hrMin : Nat
  /-- placement epoch last used (R451), 16 bits -/
  place : Nat
  deriving DecidableEq, Repr

def Stream.init : Stream :=
  { state := .closed, kind := 0, prot := 0, subFrame := false, rp := 0, secs := Sections.empty, cu := 0, su := 0, nextPic := 0,
    lastReleased := none, pics := [], refs := [], searched := [], plans := [], lastPlan := none, fullness := 0, kIntra := 0,
    kInter := 0, cplx := [], planDrops := 0, planLate := 0, quants := [], applet := none, kdec := KDec.init, dec := Decoder.init, closeSlip := none,
    abort := false, frames := [], joined := [], slot := 0, edges := [], lim := { cols := 0, rows := 0 }, coarse := [],
    closeEpoch := none, recorded := false, flush := none, hrMin := 0xFF, place := 0 }

/-- A slip staged for the next configuration epoch (R220): its ring, its number, its stream, what it changes. -/
inductive StagedKind where
  | openS (kind prot : Nat) (subFrame : Bool) (secs : Sections) (lim : TileLimit) (cu su : Nat)
  /-- stands in the epoch being taken only: the stream's work is finished by then (R214) -/
  | closeS
  | setS (secs : Sections) (cu su : Nat)
  deriving DecidableEq, Repr

structure Staged where
  rp : Nat
  id : Nat
  stream : Nat
  what : StagedKind
  deriving DecidableEq, Repr

/-- Host side of the PCIe function (R212): power state, bus master, PME enable, the function mask of MSI-X, link state
(0 L0, 1 L1, 2 L1.2, 3 L2, 4 down). -/
structure HostFn where
  d3 : Bool
  busMaster : Bool
  pmeEn : Bool
  fnMask : Bool
  link : Nat
  /-- PME messages sent and messages of vectors sent so far: what the host has seen -/
  pmes : Nat
  messages : Nat
  deriving DecidableEq, Repr

def HostFn.init : HostFn :=
  { d3 := false, busMaster := false, pmeEn := false, fnMask := false, link := 4, pmes := 0, messages := 0 }

end Sys2Proof.Machine
end

