-- ==== Sys2Proof/Machine/UnitsKpr.lean ====
section
/-! DEFINITION. What the block holds behind the KPR, FUS, CNS and SMB registers (17 to 20), and what its keeper, its monitors and its fuses
are given from outside. -/
namespace Sys2Proof.Machine

/-- What a load of the fuses finds (R466, R467): sections that fail their CRC; UID, RSA and SLH key hashes of the two slots, DRAM profile,
debug word, deny fuses by class, set counter bits; the baseline plus end-of-life target of each pace and band (key 32 × pace + band, in mV)
of section 2; Tj as the Conservator starts (R515). -/
structure FuseLoad where
  failed : Nat
  uid : List Nat
  slots : List (List Nat)
  profile : Nat
  debug : Nat
  deny : List Nat
  counter : Nat
  baseline : List (Nat × Nat)
  tj : Int
  deriving DecidableEq, Repr

/-- What the signature checks and the decryption of a container give (R473 steps 6 to 8): the payload where its tag checks. -/
structure Crypto where
  rsa : Bool
  slh : Bool
  plain : Option (List Byte)
  deriving DecidableEq, Repr

/-- A container as it is reported (R471, R483). -/
structure Container where
  kind : Nat
  slot : Nat
  result : Nat
  svn : Nat
  applet : Nat
  version : Nat
  hash : List Byte
  deriving DecidableEq, Repr

/-- A mailbox request as the keeper copies it (R470). -/
structure MbxReq where
  op : Nat
  seq : Nat
  len : Nat
  arg0 : Nat
  data : List Byte
  deriving DecidableEq, Repr

/-- A LOAD that has been verified and waits for its response (R473 to R476): its containers, the CORE's code, the CORE's SVN where ADVANCE
is set, the measurement, the plaintexts with their places in SECURE_FW, and the images of the two kinds of control store. -/
structure LoadJob where
  containers : List Container
  status : Nat
  advance : Option Nat
  measurement : List Byte
  plains : List (Nat × Nat)
  applets : List AppletImage
  car : Tab Nat
  scb : Tab Nat
  deriving DecidableEq, Repr

/-- The keeper (R466 to R483). Blown counter bits and `uid` are fuses. `asked`: a request copied
as MBX_CTL.GO was written, until it is served. `req`: SEQ of the request in service. `launched`: firmware has been
started, and the tick. `advance`: an SVN the counter is still to reach. `plains`: retained plaintext in SECURE_FW as (address, length).
`record`: an ageing record held for the Conservator. `atStart`: FAILED_STARTS at the start in hand. -/
structure Keeper where
  blown : Nat
  vfuse : Bool
  startTick : Nat
  opened : Bool
  asked : Option MbxReq
  req : Option Nat
  load : Option LoadJob
  launched : Option Nat
  aliveTick : Option Nat
  containers : List Container
  advance : Option Nat
  plains : List (Nat × Nat)
  record : Option (List Byte)
  atStart : Nat
  mismatch : Option Nat
  deriving DecidableEq, Repr

def Keeper.init : Keeper :=
  { blown := 0, vfuse := false, startTick := 0, opened := false, asked := none, req := none, load := none, launched := none, aliveTick := none,
    containers := [], advance := none, plains := [], record := none, atStart := 0, mismatch := none }

/-- What a round measures (R507 to R512): Tj of each powered domain in 1/8 °C; its least slack in 0.1 %; the least voltage at which each pace
and band (key 32 × pace + band) meets the conditions of R509, in µV; the greatest trim of each domain in mV (R510); the passing run of each
DRAM lane (key 4 × channel + 2 × lane + direction) as first tap and length; the needs that an adopted record implies. -/
structure RoundIn where
  temps : List (Nat × Int)
  slacks : List (Nat × Nat)
  needs : List (Nat × Nat)
  trims : List (Nat × Nat)
  eyes : List (Nat × Nat × Nat)
  aged : List (Nat × Nat)
  deriving DecidableEq, Repr

/-- The Conservator (R507 to R517). `plan`: targets in mV by 32 × pace + band. `seen` and `rooms`: needs, and
greatest trims, of the rounds of the last 60 s, newest first, with their ticks. `trims` and `trimNow`: planned and present trims by domain. `slacks`: least slacks of the last round. `centres`: taps that DRAM
centres are moving to. `dwell`: tick since which Tj has been in a new band, for less than 1 s. `fails`: transactions failed in a row. `rail`: the voltage
of VDD_CORE, in mV. `first`: the next round makes the first plan after a start. `margins`: conditions of R514 that stand. -/
structure Conservator where
  plan : Tab Nat
  seen : List (Nat × List (Nat × Nat))
  rooms : List (Nat × List (Nat × Nat))
  aged : List (Nat × Nat)
  trims : Tab Nat
  trimNow : Tab Nat
  slacks : Tab Nat
  measured : List Nat
  centres : Tab (Option Nat)
  tj : Option Int
  dwell : Option Nat
  fails : Nat
  rail : Nat
  first : Bool
  margins : List (Nat × Nat)
  started : Bool
  deriving DecidableEq, Repr

def Conservator.init : Conservator :=
  { plan := [], seen := [], rooms := [], aged := [], trims := [], trimNow := [], slacks := [], measured := [], centres := [], tj := none, dwell := none,
    fails := 0, rail := 800, first := false, margins := [], started := false }

/-- Output pins that are compared with the level driven (R457). -/
inductive OutPin where
  | timeOut (t : Nat)
  | pps
  | ingHold (h : Nat)
  | magPerst (m : Nat)
  | lpReset
  | txDis (n : Nat)
  deriving DecidableEq, Repr

/-- The parts that hang on the pins and the SMBus (R486, R503, R506, R541): LP_RESET_N asserted; THERM_N asserted; SMB_CFG's RWL fields locked;
conditions of ALERT_MASK that an Alert Response has answered and that still stand; levels of NETn_LOS and NETn_MODABS. -/
structure Pads where
  lpReset : Bool
  therm : Bool
  locked : Bool
  answered : Nat
  cages : Tab (Bool × Bool)
  deriving DecidableEq, Repr

def Pads.init : Pads := { lpReset := true, therm := false, locked := false, answered := 0, cages := [] }

end Sys2Proof.Machine
end

