-- ==== Sys2Proof/Machine/UnitsMem.lean ====
section
/-! DEFINITION. What the block holds behind the DRC and MPR registers (12): the channels' queues, their activate-count
tables, and the scrubber. -/
namespace Sys2Proof.Machine

/-- A request waiting in a channel (R335 to R337): physical address of its block, the data of a write, the engine it is of,
the tick it entered. `isRead` tells the two queues apart where they are joined. -/
structure DramReq where
  block : Nat
  data : List Byte
  engine : Option Nat
  tick : Nat
  isRead : Bool
  deriving DecidableEq, Repr

/-- An entry of the activate-count table (R338): rank, bank and row as one number, and its count. -/
structure ActEntry where
  row : Nat
  count : Nat
  deriving DecidableEq, Repr

/-- A DRAM channel (R331 to R341). Banks are numbered with their rank; a row number holds rank, bank and row. -/
structure Chan where
  readQ : List DramReq
  writeQ : List DramReq
  draining : Bool
  /-- open row of each bank, by bank number -/
  openRows : Tab (Option Nat)
  acts : List ActEntry
  /-- threshold in force since the last tREFW boundary (R355) -/
  threshold : Nat
  /-- per-bank refreshes due -/
  refresh : Nat
  /-- rows whose neighbours are to be refreshed, and banks that RFM is due for (R339, R340) -/
  neighbours : List Nat
  rfm : List Nat
  /-- ZQ calibrations made since training -/
  zq : Nat
  /-- the address of the last column command, and the last refresh, neighbour refresh or RFM issued -/
  issued : List Nat
  deriving DecidableEq, Repr

def Chan.init : Chan :=
  { readQ := [], writeQ := [], draining := false, openRows := [], acts := [], threshold := 2000, refresh := 0, neighbours := [],
    rfm := [], zq := 0, issued := [] }

/-- The scrubber (R352 to R354): range, page and granule it is at, the time its lap began, the tick of its last granule. -/
structure Scrubber where
  range : Nat
  pos : Nat
  stackPos : Nat
  lapStart : Nat
  last : Option Nat
  deriving DecidableEq, Repr

def Scrubber.init : Scrubber := { range := 0, pos := 0, stackPos := 0, lapStart := 0, last := none }

end Sys2Proof.Machine
end

