-- ==== Sys2Proof/Syntax.lean ====
section
/-! DEFINITION. The commands of the block: one constructor for each row of the opcode table. -/
namespace Sys2Proof

open Machine

/-- Who asks for a translation (R357): an engine by grant index, a DMA channel, the buffer of a slip taken (ring, position),
or a requester of a class that issues physical addresses, with its unit ID. -/
inductive Requester where
  | engine (i : Nat)
  | dma (ch : Nat)
  | slip (rp k : Nat)
  | phys (cls unit : Nat)
  deriving DecidableEq, Repr

/-- What one attempt at training a channel finds (R329, R331, R332): density code and I/O width in MR8 of each rank, whether CA training and
levelling passed, and the passing taps of each byte lane as 128-bit maps. -/
structure TrainTry where
  mr8 : List (Nat × Nat)
  stepsOk : Bool
  rd0 : Nat
  rd1 : Nat
  wr0 : Nat
  wr1 : Nat
  deriving DecidableEq, Repr

/-- What a commit microword finds and what the routine has made (R63, R64, R430, R438): whether the chunk is the work's last;
the checks; samples read that differ from the frame buffer, as column, row and value; the encoder's own choices for a leaf,
and its choices at QI 63 where the first coding exceeds the leaf's cap; for a standard codec its choices for each guard unit of the segment, with the
bits that they come to; bytes that replace the right ones in a result that is consistent but wrong (R26). -/
structure Commit where
  last : Bool
  signOk : Bool
  reconOk : Bool
  residueOk : Bool
  read : List (Nat × Nat × Nat)
  choice : LeafSyn
  retry : LeafSyn
  units : List (List Nat × Nat)
  wrong : Option (List Byte)
  deriving DecidableEq, Repr

/-- A random-access point (R136): none, an IDR, BLA or CRA picture, a GDR picture or one with a recovery point SEI, with the order count of the
recovery point. -/
inductive RaPoint where
  | none
  | idr
  | bla
  | cra
  | recovery (poc : Int)
  deriving DecidableEq, Repr

/-- A slice as its NAL unit is parsed (R139): its headers can be parsed; the PPS it names; CABAC decoding ends with the end of the slice, within
the NAL unit; every element lies in its range; of type P or B; the raster addresses of the CTUs or macroblocks that it codes; order counts of
RefPicList0; the order counts that each of its CTUs is predicted from. -/
structure SliceFacts where
  parsed : Bool
  pps : Nat
  ended : Bool
  inRange : Bool
  inter : Bool
  ctus : List Nat
  list0 : List Int
  uses : List (List Int)
  deriving DecidableEq, Repr

/-- An access unit of a standard codec as the codec's own standard reads it (R135 to R140): its parameter sets; what random-access point it is, that it is a
RASL picture; its order count; it is output, it is kept as a reference; it drops the pictures before it that have not been output; the order counts of
pictures that stay references; its slices; the samples that the slices decode to; its hash SEI disagrees with them. -/
structure CodecAu where
  sets : List ParamSet
  point : RaPoint
  rasl : Bool
  poc : Int
  shown : Bool
  isRef : Bool
  dropPrior : Bool
  keeps : List Int
  slices : List SliceFacts
  y : Rows
  cb : Rows
  cr : Rows
  hashBad : Bool
  deriving DecidableEq, Repr

/-- What a hart's program does between two commands, effect by effect (R187, R407, R410, R413 to R415, R417): it writes a register, jumps, reads or writes
memory, fetches an instruction, works on its caches, writes and reads CSRs, goes to U-mode, or makes an ecall of an applet. -/
inductive CoreOp where
  | setReg (i v : Nat)
  | jump (pc : Nat)
  | load (rd addr len : Nat) (signed : Bool)
  | store (addr len v : Nat)
  | fetch (addr : Nat)
  | cboClean (addr : Nat)
  | cboFlush (addr : Nat)
  | cboInval (addr : Nat)
  | fenceI
  | setPmp (i : Nat) (p : Pmp)
  | setCsr (c v : Nat)
  | readCsr (rd c : Nat)
  | enterUser (pc : Nat)
  | ecall (num : Nat)
  deriving DecidableEq, Repr

/-- What an applet call traps on (R189): an access (0 read, 1 write, 2 execute), a misaligned one, or an illegal instruction. -/
inductive AppletFault where
  | access (kind addr len : Nat)
  | misaligned (addr len : Nat)
  | illegal
  deriving DecidableEq, Repr

/-- What a received frame carries (R288, R316): a PTP message of a transport and a domain, a request to an address, or anything else.
Times and corrections of PTP messages are in units of 2^-28 ns. -/
inductive PtpMsg where
  /-- an Announce: its master; the data set it carries, in the order of comparison of IEEE 1588 (priority1, clockClass, clockAccuracy,
  variance, priority2, identity, steps removed); whether it qualifies -/
  | announce (id : Nat) (data : List Nat) (qualified : Bool)
  | sync (id seq : Nat) (twoStep : Bool) (correction origin : Int)
  | followUp (id seq : Nat) (correction origin : Int)
  | delayReq (id seq : Nat)
  | delayResp (id seq : Nat) (correction receive : Int)
  | other
  deriving DecidableEq, Repr

inductive RxBody where
  | ptp (transport domain : Nat) (m : PtpMsg)
  | arp (target : Nat)
  | solicit (target : Nat)
  | echo (v6 : Bool) (target size : Nat)
  | pause
  | other
  deriving DecidableEq, Repr

/-- A received frame: destination MAC, VID (0 untagged), PCP, bytes through the FCS, whether the FCS is good. -/
structure RxFrame where
  mac : Nat
  vid : Nat
  pcp : Nat
  len : Nat
  good : Bool
  body : RxBody
  deriving DecidableEq, Repr

/-- A handshake that is not acknowledged: the unit that waits, and of a carrel or scribe the condition of its microword (R10, R427). -/
structure WaitIn where
  unit : Nat
  cond : Nat
  deriving DecidableEq, Repr

/-- The header of a short packet: its virtual channel, and what its ECC finds (0 nothing, 1 a bit to mend, 2 or more what it cannot mend) (R226). -/
structure PacketHead where
  vc : Nat
  ecc : Nat
  deriving DecidableEq, Repr

/-- A network port with the levels of its two cage pins, NETn_LOS and NETn_MODABS (R285). -/
structure CageIn where
  port : Nat
  los : Bool
  modabs : Bool
  deriving DecidableEq, Repr

/-- The commands. -/
inductive Instr where
  /-- REGISTER_WRITE (R6). A write to a register field that has no row of its own sets, ignores or counts the value under its access code, including
  writes to unassigned BAR0 offsets. -/
  | registerWrite (byHost : Bool) (off v : Nat)
  /-- HANDSHAKE_WATCHDOG (R10). A handshake not acknowledged within 20 µs makes the unit's watchdog report a WATCHDOG fault to the Registrar. -/
  | handshakeWatchdog (u : WaitIn)
  /-- PACE_CTL_WRITE (R17). A write of TOP.PACE_CTL.PACE requests a pace, which is checked against the ledger and accepted or refused. -/
  | paceCtlWrite (v : Nat)
  /-- LEAF_DISPATCH (R24). A curator dispatches a leaf or CTU segment to a carrel with a placement epoch once its last input line has landed and its
  input CRC is recorded. -/
  | leafDispatch (n num j : Nat) (cars scrs : List Nat)
  /-- SUBFRAME_LEAF_DISPATCH (R65). In Sub-frame latency a curator dispatches a Krema leaf as soon as its first input line has landed. -/
  | subframeLeafDispatch (n num j : Nat) (cars scrs : List Nat)
  /-- CHUNK_COMMIT (R430). A commit microword drains the staging file and progress register after the chunk's checks, making its results visible. -/
  | chunkCommit (i : Nat) (c : Commit)
  /-- LEAF_RELEASE (R29). In Sub-frame latency a coded, checked leaf or slice is released in order with its carrier once every earlier unit has been
  released. -/
  | leafRelease (n num : Nat)
  /-- PICTURE_RELEASE (R29). In Frame latency a picture is released whole to its consumers once its colophon is formed. -/
  | pictureRelease (n num : Nat)
  /-- SEARCH_BLOCK (R152). A search block is searched through the pyramid stages once every input line it depends on has landed. -/
  | searchBlock (n num b : Nat)
  /-- COARSE_CPLX_POST (R160). When level 2 of a picture's pyramid is complete, COARSE_CPLX is computed and posted to rate-control firmware. -/
  | coarseCplxPost (n num : Nat)
  /-- PLAN_POST (R168). A rate plan is posted to the stream's plan slot and accepted, replaced, refused as busy, discarded as late or invalid. -/
  | planPost (n : Nat) (rec : List Byte)
  /-- GUARD_EVALUATE (R170). The guard evaluates a guard unit once it and every earlier unit have committed, and trips when bits exceed allotment plus
  reserve. -/
  | guardEvaluate (n num : Nat)
  /-- STATS_FOLIO_ARRIVAL (R181). When a picture's statistics folio arrives, firmware or rc_result updates the model constant and CPB fullness. -/
  | statsFolioArrival (n num : Nat)
  /-- RC_POST (R187). The applet ecall RC_POST posts a plan buffer under R168 and returns its status. -/
  | rcPost (n : Nat) (rec : List Byte)
  /-- RC_CPLX (R187). The applet ecall RC_CPLX returns COARSE_CPLX of a picture if posted. -/
  | rcCplx (n num : Nat)
  /-- RC_TIME (R187). The applet ecall RC_TIME returns Dater nanoseconds [31:0]. -/
  | rcTime (n : Nat)
  /-- RC_LOG (R187). The applet ecall RC_LOG appends an entry to the stream's 64-entry applet log. -/
  | rcLog (n code value : Nat)
  /-- APPLET_CALL_TIMEOUT (R189). An applet call exceeding its time limit is ended, reported as APPLET, and the stream reverts to built-in firmware. -/
  | appletCallTimeout (n h : Nat)
  /-- APPLET_TRAP (R189). An applet call that traps is ended, reported as APPLET, and the stream reverts to built-in firmware. -/
  | appletTrap (n : Nat) (f : AppletFault)
  /-- SQ_TAIL (R192). A doorbell write of SQ_TAIL tells the device of new call slips, or is ignored and counted. -/
  | sqTail (n idx : Nat)
  /-- RQ_HEAD (R193). A doorbell write of RQ_HEAD frees return slots for the device to write. -/
  | rqHead (n idx : Nat)
  /-- SLIP_REREAD (R197). Every 2 µs the device re-reads a submission slot whose PHASE was not valid, up to 8 times. -/
  | slipReread (n : Nat)
  /-- NOP (R204). A NOP call slip completes once every earlier slip of its ring has completed. -/
  | nopSlip (n k : Nat)
  /-- OPEN_STREAM (R224). An OPEN_STREAM call slip checks the descriptor and ledger and stages a stream open for an epoch. -/
  | openStream (n k : Nat) (fits : Bool)
  /-- CLOSE_STREAM (R214). A CLOSE_STREAM call slip moves the stream to CLOSING, with or without ABORT, and stages its close. -/
  | closeStream (n k : Nat)
  /-- STREAM_CLOSED (R214). When a closing stream's work is finished it reaches CLOSED, its charge is released and its completion written. -/
  | streamClosed (n : Nat)
  /-- SET_CONFIG (R220). A SET_CONFIG call slip for a stream is checked and staged for a configuration epoch. -/
  | setConfig (n k : Nat)
  /-- SET_CONFIG_DEVICE (R220). A SET_CONFIG with DEVICE = 1 requests a pace under R17 and takes no epoch. -/
  | setConfigDevice (n k : Nat)
  /-- ENCODE_PICTURE (R204). An ENCODE_PICTURE call slip supplies a raw or YCbCr picture from host memory for encoding. -/
  | encodePicture (n k : Nat)
  /-- DECODE_PICTURE (R204). A DECODE_PICTURE call slip decodes one Krema picture or access unit with concealment and map output. -/
  | decodePicture (n k : Nat) (lost : List (Nat × Nat)) (au : CodecAu)
  /-- FLUSH_STREAM (R215). A FLUSH_STREAM call slip completes after earlier slips, discarding unstarted ones with DISCARD, and drains events. -/
  | flushStream (n k : Nat)
  /-- RECORD_START (R266). A RECORD_START call slip checks and opens a take on one or two magazines. -/
  | recordStart (n k : Nat)
  /-- RECORD_STOP (R271). A RECORD_STOP call slip records up to the last picture, commits, writes the final finding aid and closes the take. -/
  | recordStop (n k : Nat)
  /-- MARK (R272). A MARK call slip marks a picture of the open take. -/
  | markTake (n k : Nat)
  /-- READ_EXTENT (R279). A READ_EXTENT call slip reads durable pictures of a take from a magazine to a destination buffer. -/
  | readExtent (n k : Nat)
  /-- QUERY_LEDGER (R206). A QUERY with WHAT 0 returns the ledger capacities and charges as one snapshot. -/
  | queryLedger (n k : Nat)
  /-- QUERY_STREAM (R206). A QUERY with WHAT 1 returns a stream's state, charges, last picture and pending events. -/
  | queryStream (n k : Nat)
  /-- QUERY_DIGEST (R206). A QUERY with WHAT 2 returns the current epoch and device digest. -/
  | queryDigest (n k : Nat)
  /-- RETURN_FOLIO (R205). A RETURN_FOLIO call slip copies from a shared folio and releases or keeps the host's share. -/
  | returnFolio (n k : Nat)
  /-- UNKNOWN_OPCODE (R204). A call slip with an unknown opcode completes with BAD_OPCODE. -/
  | unknownOpcode (n k : Nat)
  /-- COMPLETION_WRITE (R209). A completion return slip is written as soon as its return ring has a free slot. -/
  | completionWrite (n : Nat)
  /-- EVENT_GROUP_WRITE (R209). A group of 8 event slips is written from the event queue when at least 8 ring slots are free. -/
  | eventGroupWrite (n : Nat)
  /-- EVENT_QUEUE_TIMEOUT (R209). When an event queue with fewer than 8 slips reaches READ_TIMEOUT it is drained and its vector raised. -/
  | eventQueueTimeout (n : Nat)
  /-- LOST_SLIP (R209). When the event queue next has room, a LOST slip carrying the drop count is put in. -/
  | lostSlip (n : Nat)
  /-- MSIX_HOLD_TIMER (R211). When a vector's hold timer reaches HOLD the vector fires. -/
  | msixHoldTimer (v : Nat)
  /-- MSIX_UNMASK (R211). Unmasking a vector or its function sends a pending vector. -/
  | msixUnmask (v : Option Nat)
  /-- HOST_D3HOT_ENTRY (R212). When the function enters D3hot or Bus Master Enable is cleared, the device stops writing return slips. -/
  | hostD3hotEntry (d3 pmeEn : Bool)
  /-- HOST_D0_RETURN (R212). On return to D0 with bus mastering the device writes waiting slips and sends pending vectors, setting VEC_LATE. -/
  | hostD0Return (fnMask : Bool)
  /-- RP_CFG_WRITE (R225). A write of HIF.RP_CFG sets up a ring pair and enables it, resetting heads, tails, doorbells and phases, or is ignored. -/
  | rpCfgWrite (n v : Nat)
  /-- EPOCH_BEGIN (R220). A staged epoch begins once every touched stream is at a picture boundary and units receive new configuration. -/
  | epochBegin
  /-- EPOCH_TAKEN (R459). The epoch is taken when every unit has acknowledged, updating EPOCH and digest, and its slips complete. -/
  | epochTaken
  /-- EPOCH_ACK_TIMEOUT (R459). A unit not acknowledging within 1 ms receives EPOCH_NO_ACK and the epoch is taken without it. -/
  | epochAckTimeout (missing : List Nat)
  /-- FRAME_START (R233). A CSI-2 frame start on member 0 opens a frame of a stream, closing any earlier frame, or drops the frame when no buffer is
  free. -/
  | frameStart (port : Nat) (k : PacketHead) (fnum : Nat)
  /-- MEMBER_FRAME_START (R233). A frame start on another member joins the open frame or is discarded as unbound. -/
  | memberFrameStart (port : Nat) (k : PacketHead) (fnum : Nat)
  /-- FRAME_END (R233). A CSI-2 frame end on a member, which closes the frame once every member has sent one. -/
  | frameEnd (port : Nat) (k : PacketHead)
  /-- ROW_HEADER_ARRIVAL (R240). A long packet header arrives and Accession reserves its row's cells, or drops the row when the queue is full. -/
  | rowHeaderArrival (port vc dt l ecc : Nat)
  /-- LONG_PACKET (R236). A whole RAW long packet is unpacked and checked, and its row is stored or dropped. -/
  | longPacket (port vc l wc : Nat) (crcOk : Bool) (data : List Byte)
  /-- LINE_TIMEOUT (R236). When LINE_TIMEOUT passes since the previous row, the awaited row is declared missing. -/
  | lineTimeout (n : Nat)
  /-- ROW_EMIT (R231). The reassembler emits the next row in ascending order, or a fill row, updating leaf CRCs and raising the line-ready request. -/
  | rowEmit (n : Nat)
  /-- ROW_LANDED (R231). The DMA reports the landing of a row in the frame buffer, on which dispatch and search act. -/
  | rowLanded (n : Nat)
  /-- HOLD_CTL_WRITE (R241). A write of ACC.HOLD_CTL.FORCE asserts or releases forced ING_HOLD outputs. -/
  | holdCtlWrite (v : Nat)
  /-- DESKEW_SEQUENCE (R226). A D-PHY initial or periodic deskew sequence is received on a sensor port. -/
  | deskewSequence (p lanes : Nat) (initial : Bool)
  /-- ULPS_ENTRY (R226). A sensor port recognises ULPS entry. -/
  | ulpsEntry (p : Nat)
  /-- ULPS_EXIT (R226). A sensor port recognises ULPS exit. -/
  | ulpsExit (p : Nat)
  /-- SENSOR_LINK_LOSS (R438). A lane or clock of a sensor port carrying an open stream loses HS mode within a frame and SENSOR_LINK is reported. -/
  | sensorLinkLoss (p lanes : Nat) (clock : Bool)
  /-- MAG_PRESENCE_FALL (R251). MGn_PRSNT_N falls and the presence debounce starts. -/
  | magPresenceFall (p : Nat) (m : Magazine)
  /-- MAG_PRESENCE_ACCEPT (R251). After 50 ms low, presence is accepted, the port enters STARTING and the reference clock starts. -/
  | magPresenceAccept (p : Nat)
  /-- MAG_PERST_RELEASE (R251). 100 ms after acceptance MGn_PERST_N is released. -/
  | magPerstRelease (p : Nat)
  /-- MAG_LINK_UP (R251). The magazine link reaches L0 and configuration follows. -/
  | magLinkUp (p speed width : Nat)
  /-- MAG_LINK_TIMEOUT (R251). The link fails to reach L0 in time, MGn_PERST_N is pulsed and the wait repeated once, then FAILED. -/
  | magLinkTimeout (p : Nat)
  /-- MAG_CONTROLLER_READY (R251). CSTS.RDY is set after CC.EN and the Bindery proceeds to Identify and queue setup. -/
  | magControllerReady (p : Nat)
  /-- NVME_COMPLETION (R249). An NVMe command completion on a magazine advances bring-up, recording, commits, checkpoints or reads, or is retried on
  error. -/
  | nvmeCompletion (p k : Nat) (ok : Bool) (reply : List Nat) (damage : Option (List Byte))
  /-- NVME_TIMEOUT (R249). An NVMe command not completed within 2 s or 5 s is counted and retried, then the controller is reset. -/
  | nvmeTimeout (p k : Nat)
  /-- COMMIT_TIMER (R263). Every TAIL_MS / 4 a take starts a commit on each volume. -/
  | commitTimer (n : Nat)
  /-- PICTURE_TO_BINDERY (R270). A picture is released to the Bindery, held under the take buffer cap and written, or entered as a gap. -/
  | pictureToBindery (n num : Nat)
  /-- VERIFY_COMPARE_DONE (R274). A verification compare of a written record ends, and on mismatch the record is relocated. -/
  | verifyCompareDone (p n num : Nat) (equal : Bool)
  /-- VERIFY_LAG_EXPIRY (R273). A record not verified within VERIFY_LAG_MS of its write is skipped and counted. -/
  | verifyLagExpiry (p n num : Nat)
  /-- HEALTH_LOG_TIMER (R248). Every 60 s the Bindery reads the SMART and health log of each magazine. -/
  | healthLogTimer (p : Nat)
  /-- MAG_REMOVAL (R275). MGn_PRSNT_N high for 10 µs removes the magazine, abandoning commands and handling each take by its layout. -/
  | magRemoval (p : Nat)
  /-- MAG_LINK_LOSS (R275). A magazine link that leaves L0 and does not return within 100 µs is treated as removed. -/
  | magLinkLoss (p : Nat)
  /-- FORMAT (R282). The housekeeping command FORMAT writes a new empty Panor volume on the magazine. -/
  | formatMagazine (p key : Nat)
  /-- EJECT (R282). The housekeeping command EJECT writes a checkpoint, asserts MGn_PERST_N and enters EJECTED. -/
  | ejectMagazine (p key : Nat)
  /-- RESCAN (R282). The housekeeping command RESCAN runs bring-up again from step 3 from FAILED or EJECTED. -/
  | rescanMagazine (p key : Nat)
  /-- DELETE_TAKE (R282). The housekeeping command DELETE_TAKE deletes a take's part on the volume and frees its shelves. -/
  | deleteTake (p key : Nat)
  /-- ALIGNMENT_POINT (R296). At each alignment point a -20 flow chooses its picture for the period or skips it. -/
  | alignmentPoint (p f : Nat)
  /-- PACKET_RELEASE (R295). At its release or pacing time a media packet is released to its class queue once its data is ready. -/
  | packetRelease (p f : Nat)
  /-- FRAME_TRANSMIT (R298). When the MAC is free it selects the highest qualifying class and sends its head frame, stamping PTP and departure times. -/
  | frameTransmit (p : Nat)
  /-- GATE_BLOCK_DROP (R298). A head frame blocked by its gate for one whole cycle is dropped and counted. -/
  | gateBlockDrop (p c : Nat)
  /-- NET_LINK_DOWN (R286). A port's link goes down; frames are dropped and NET_LINK is reported when flows are open. -/
  | netLinkDown (p : CageIn)
  /-- NET_LINK_UP (R286). A port's link returns and sending resumes with the packet due. -/
  | netLinkUp (p : CageIn)
  /-- RX_FRAME (R304). A received frame is policed by the stream filters and handed to the Dater, replied to or dropped. -/
  | rxFrame (p : Nat) (f : RxFrame)
  /-- ANNOUNCE_TIMEOUT (R317). The active port reaches announceReceiptTimeout and the servo changes port or enters HOLDOVER. -/
  | announceTimeout (p : Nat)
  /-- PTP_SEND_TIMER (R316). A PTP message interval expires and the port sends Sync, Announce or Delay_Req. -/
  | ptpSendTimer (p ty : Nat)
  /-- GCL_COMMIT (R300). A write of GCL_CTL.COMMIT checks the admin gate list and makes it pending or refuses it. -/
  | gclCommit (p : Nat)
  /-- GCL_START (R301). At its start instant the pending gate list becomes the operating list. -/
  | gclStart (p : Nat)
  /-- GATE_ENTRY_CHANGE (R299). A gate-list entry interval or cycle ends and the next entry's gates apply. -/
  | gateEntryChange (p : Nat)
  /-- CBS_WRITE (R303). A write to CBS_IDLE, CBS_HI or CBS_LO of a class sets its credit to 0. -/
  | cbsWrite (p c which v : Nat)
  /-- PSF_WRITE (R305). A write to PSF_CIR, PSF_CBS or PSF_CTL fills the filter's bucket to the new CBS. -/
  | psfWrite (p f which v : Nat)
  /-- TELEMETRY_SAMPLE (R306). Every SAMPLE_US each class records its queue depth and mean delay. -/
  | telemetrySample (p : Nat)
  /-- PORT_CFG_WRITE (R285). A write of NET.PORT_CFG enables or disables the port and drives NETn_TXDIS. -/
  | portCfgWrite (p v : Nat)
  /-- I2C_CMD (R285). A write of NET.I2C_CMD starts a module bus transaction. -/
  | i2cCmd (v : Nat)
  /-- I2C_DONE (R285). A module bus transaction ends, setting DONE and NACK and the byte read. -/
  | i2cDone (ack : Bool) (data : Nat)
  /-- SNAP (R311). The SNAP command copies the Dater time at the next tick into the SNAP registers. -/
  | snapTime
  /-- SET (R311). The SET command sets the Dater time to SET_*, or is refused. -/
  | setTime (snap step : Bool)
  /-- STEP (R311). The STEP command adds STEP_NS to the Dater time. -/
  | stepTime (snap : Bool)
  /-- INCR_WRITE (R310). A write of DAT.INCR sets the increment, or is ignored when out of range or while the servo runs. -/
  | incrWrite (v : Nat)
  /-- TIME_REFCLK_LOST (R314). TIME_REFCLK stops or leaves range, the Dater counts from the PDA oscillator and REFCLK_LOST is reported. -/
  | timeRefclkLost
  /-- TIME_REFCLK_RETURN (R314). TIME_REFCLK returns and counting goes back to it. -/
  | timeRefclkReturn
  /-- TIME_OUT_ARM (R322). A write of TOUTt_CTL.ARM checks a schedule and makes it pending or refuses it. -/
  | timeOutArm (t : Nat)
  /-- TIME_OUT_DISARM (R323). A write of TOUTt_CTL.DISARM stops the schedule after the pulse in progress. -/
  | timeOutDisarm (t : Nat)
  /-- TIME_OUT_EDGE (R321). A scheduled leading edge of TIME_OUT falls, starting a pulse and a DMA request and ICU event, or is skipped. -/
  | timeOutEdge (t : Nat)
  /-- TIME_OUT_PULSE_END (R321). After WIDTH_NS the TIME_OUT pulse ends. -/
  | timeOutPulseEnd (t : Nat)
  /-- PPS_EDGE (R324). PPS_OUT rises at a whole second of Dater time when enabled. -/
  | ppsEdge
  /-- PPS_PULSE_END (R324). After WIDTH_MS PPS_OUT falls. -/
  | ppsPulseEnd
  /-- TIME_IN_CAPTURE (R325). A selected edge on TIME_IN is captured into the queue, or dropped and counted when full. -/
  | timeInCapture (i : Nat) (rising : Bool)
  /-- TIME_IN_POP (R325). A write of TINi_CTL.POP removes the head capture. -/
  | timeInPop (i : Nat)
  /-- ALARM_ARM (R326). A write of ALARM_CTL.ARM arms the alarm, firing at once late if its time is past. -/
  | alarmArm
  /-- ALARM_DISARM (R326). A write of ALARM_CTL.DISARM clears ARMED. -/
  | alarmDisarm
  /-- ALARM_FIRE (R326). The Dater time reaches the alarm and it fires, raising ICU source 5, an optional event slip and wake. -/
  | alarmFire
  /-- DRAM_TRAINING (R331). After reset release or self-refresh exit the controller trains every enabled channel. -/
  | dramTraining
  /-- DRAM_TRAINING_DONE (R331). Training ends, refresh starts and READY is set, or the channel fails after one repeat. -/
  | dramTrainingDone (tries : List (TrainTry × TrainTry))
  /-- MR4_POLL (R334). Every 16 ms each channel reads MR4 and adjusts refresh, reporting DRAM_HOT when above range. -/
  | mr4Poll (c code : Nat) (hot : Bool)
  /-- ZQ_CALIBRATION (R334). Every 128 ms ZQ calibration is repeated. -/
  | zqCalibration (c : Nat)
  /-- REFRESH_DUE (R335). A per-bank refresh falls due and is issued before other commands. -/
  | refreshDue (c : Nat)
  /-- TREFW_BOUNDARY (R338). At each tREFW boundary the activate-count table is cleared and a new threshold applies. -/
  | trefwBoundary (c : Nat)
  /-- DRAM_COMMAND_ISSUE (R335). A channel chooses and issues its next command under the scheduling rules. -/
  | dramCommandIssue (c : Nat)
  /-- DRAM_READ (R336). A read request reaches a channel and is queued or forwarded from the write queue. -/
  | dramRead (block : Nat) (engine : Option Nat)
  /-- DRAM_WRITE (R337). A whole-block write enters the write queue, replacing any queued write to the block. -/
  | dramWrite (block : Nat) (data : List Byte) (engine : Option Nat)
  /-- NARROW_WRITE (R347). A write of fewer than 256 bits is merged, or read-modified-written, or refused when the read is uncorrectable. -/
  | narrowWrite (addr : Nat) (data : List Byte)
  /-- READ_DATA_CHECK (R343). Read data arrives and the conservation code mends, logs or poisons it. -/
  | readDataCheck (unit addr mask : Nat) (engine hart : Option Nat) (again : Bool)
  /-- LOG_ENTRY_FREE (R350). Writing 1 to a log entry's VALID frees it. -/
  | logEntryFree (e : Nat)
  /-- SCRUB_READ (R352). The scrubber reads the next block in an idle slot and writes back a mended block. -/
  | scrubRead
  /-- SCRUB_CTL_WRITE (R354). A write to SCRUB_CTL or a range restarts the lap from the first range. -/
  | scrubCtlWrite (which value : Nat)
  /-- DQ_CENTRE_MOVE (R332). At a tREFI refresh the Conservator moves a lane's delay centre by one tap. -/
  | dqCentreMove (c lane : Nat) (write : Bool)
  /-- TRANSLATION_WALK (R362). An access is translated through the TLB or a table walk, and checked against the protection map, or faults. -/
  | translationWalk (who : Requester) (va : Nat) (write : Bool)
  /-- RESUME (R368). FLT_CTL RESUME of the head record retries the requester's walk from the root. -/
  | resumeFault (id : Nat)
  /-- ABORT (R368). FLT_CTL ABORT of the head record fails the access with ADDRESS_FAULT. -/
  | abortFault (id : Nat)
  /-- FAULT_RECORD_TIMEOUT (R368). A record not resolved within TIMEOUT_US is aborted and TIMEOUT set. -/
  | faultRecordTimeout
  /-- INVALIDATE_ALL (R365). INV_CTL with scope ALL invalidates every TLB entry. -/
  | invalidateAll
  /-- INVALIDATE_ASID (R365). INV_CTL with scope ASID invalidates every entry of one ASID. -/
  | invalidateAsid (asid : Nat)
  /-- INVALIDATE_PAGE (R365). INV_CTL with scope PAGE invalidates entries of one ASID covering INV_VA. -/
  | invalidatePage (asid : Nat)
  /-- INVALIDATION_DONE (R365). No access under an invalidated entry is in flight and INV_BUSY clears. -/
  | invalidationDone
  /-- CONTEXT_COMMIT (R363). A write of CTXa_HI commits the staged context and invalidates the ASID. -/
  | contextCommit (a hi : Nat)
  /-- GRANT_FENCE (R370). Setting GRANTi.FENCED fences a carrel or scribe, removing its fault records, micro-TLB and Stacks grants. -/
  | grantFence (i : Nat)
  /-- START (R379). CHn_CTL.START starts a DMA channel at HEAD. -/
  | startDma (ch : Nat)
  /-- STOP (R379). CHn_CTL.STOP ends the channel's list after, or at once in PAUSED, the slip in progress. -/
  | stopDma (ch : Nat)
  /-- PAUSE (R379). CHn_CTL.PAUSE stops new reads of a DMA channel. -/
  | pauseDma (ch : Nat)
  /-- DMA_RESUME (R379). CHn_CTL.RESUME restarts a paused channel from its exact registers. -/
  | dmaResume (ch : Nat)
  /-- DMA_PAUSED (R379). Data already read has been written and the pausing channel enters PAUSED. -/
  | dmaPaused (ch : Nat)
  /-- DMA_BURST (R377). A DMA channel moves a burst, paced by its request line or at the arbitration granule. -/
  | dmaBurst (ch : Nat)
  /-- DMA_SLIP_COMPLETE (R374). A transfer slip completes with its status written back and the next slip read. -/
  | dmaSlipComplete (ch : Nat)
  /-- BARRIER_COMPLETE (R375). A BARRIER slip completes once the earlier writes are visible. -/
  | barrierComplete (ch : Nat)
  /-- REQ_SW (R376). A write of DMA.REQ_SW gives one request to a software line. -/
  | reqSw (line : Nat)
  /-- BEGIN (R387). A producer's BEGIN reserves an item's cells on a queue, or is refused. -/
  | beginItem (u n ty len : Nat)
  /-- ITEM_WORD_WRITE (R387). A producer writes a data word of its open item. -/
  | itemWordWrite (u n : Nat) (data : List Byte)
  /-- END (R387). END completes an open item, or returns TRUNCATED after a flush. -/
  | endItem (u n : Nat)
  /-- SINGLE_OPERATION_PUSH (R387). A push of at most 256 bytes with BEGIN, data and END in one request. -/
  | singleOperationPush (u n ty : Nat) (data : List Byte)
  /-- POP_RELEASE (R389). A pop-release returns the head item and frees its cells. -/
  | popRelease (u n : Nat)
  /-- POP_CLAIM (R389). A pop-claim returns the head item and keeps its cells until release. -/
  | popClaim (u n : Nat)
  /-- ITEM_RELEASE (R389). A consumer's RELEASE frees the cells of a claimed item. -/
  | itemRelease (u n k : Nat)
  /-- FLUSH (R394). Q_CTL.FLUSH removes a queue's unpopped items and open item and sets its depth to 0. -/
  | flushQueue (n : Nat)
  /-- QUEUE_TIMEOUT (R393). A TIMEOUT queue's timer reaches Q_TIMEOUT.US while non-empty and signals its consumer. -/
  | queueTimeout (n : Nat)
  /-- QUEUE_DISABLE (R405). A write clearing Q_CFG.ENABLE takes effect once the queue holds no item. -/
  | queueDisable (n : Nat)
  /-- FOLIO_ALLOCATE (R401). An allocation request lends a folio from a pool or its fallback chain, or fails with NO_FOLIO. -/
  | folioAllocate (p u : Nat)
  /-- SHARE (R402). SHARE sets a folio's share count and last owner, or is refused. -/
  | shareFolio (h u n owner : Nat)
  /-- RELEASE (R402). RELEASE lowers a folio's share count, returning it, orphaning it or refusing. -/
  | releaseFolio (h u : Nat)
  /-- RECLAIM (R402). ORPHAN_CTL.RECLAIM returns the oldest orphan to its pool. -/
  | reclaimOrphans
  /-- INIT (R400). POOLp_CTL.INIT checks a pool and writes its free ring, or refuses. -/
  | initPool (p : Nat)
  /-- POOL_INIT_DONE (R400). The pool's ring has been written, FREE is set to COUNT and the pool is enabled. -/
  | poolInitDone (p : Nat)
  /-- DISABLE (R400). POOLp_CTL.DISABLE disables a pool when every folio is free. -/
  | disablePool (p : Nat)
  /-- FREE_CACHE_REFILL (R399). The handle cache is refilled from, or spilled to, the pool's ring. -/
  | freeCacheRefill (p : Nat)
  /-- MCKPT (R410). A write of CSR mckpt takes a pair checkpoint to the hart's save area. -/
  | mckpt (h : Nat) (ops : List CoreOp)
  /-- LOCKSTEP_MISMATCH (R411). A lockstep mismatch stops a curator pair and fails the hart over to the spare pair. -/
  | lockstepMismatch (p : Nat)
  /-- MCLAIM (R421). A csrrw of mclaim claims the best pending source and pushes it on the claim stack. -/
  | mclaim (h : Nat)
  /-- MCOMPLETE (R421). A write of mcomplete pops the top source of the claim stack, or is counted as bad. -/
  | mcomplete (h n : Nat)
  /-- SOURCE_CONFIG_WRITE (R422). A write to ICU.SRCs sets priority and target, ignored when changing a busy target. -/
  | sourceConfigWrite (n v : Nat)
  /-- SWSET (R418). A write of ICU.SWSET sets source 255 pending. -/
  | swset
  /-- TIMER_COMPARE (R416). Dater time reaches a hart's mtimecmp and MTIP is set. -/
  | timerCompare (h : Nat)
  /-- STORE_PARITY_ERROR (R432). A microword fails parity on fetch, the routine is abandoned and the word reloaded, or the unit fenced on repeat. -/
  | storeParityError (i a : Nat) (copyPoisoned : Bool)
  /-- STORE_SCAN (R433). An idle unit reads its whole control store and reloads any word failing parity. -/
  | storeScan (i : Nat) (upsets : List (Nat × Nat))
  /-- INTERRUPT (R429). UNITk_CTL.INTERRUPT abandons and restarts a unit's routine. -/
  | interruptUnit (i : Nat)
  /-- DROP (R429). UNITk_CTL.DROP discards a unit's routine and firmware dispatches the work again. -/
  | dropWork (i : Nat) (byFirmware : Bool) (dest : Nat)
  /-- SCRIBE_CHECKPOINT (R453). A scribe writes a checkpoint of its coder state and releases consumed items. -/
  | scribeCheckpoint (i : Nat) (state : List Byte) (items : Nat)
  /-- FAULT_MESSAGE (R437). A fault message is logged, stamped, classed and escalated, and its class action started. -/
  | faultMessage (u k : Nat) (detail : Option Nat) (raw addr : Nat)
  /-- ACK (R442). A write of RGS.ACK acknowledges messages of a class from a unit or all units. -/
  | ackFault (all : Bool) (c u : Nat)
  /-- INJECT (R464). A write of RGS.INJECT logs a message that acts as a real one. -/
  | injectFault (c k u : Nat)
  /-- FAULT_N_HOLD_EXPIRY (R444). The 1 ms minimum assertion of FAULT_N after a message expires. -/
  | faultNHoldExpiry
  /-- WRITE_DRAIN_EMPTY (R451). The count of a fenced unit's outstanding writes reaches 0 and the drain ends. -/
  | writeDrainEmpty (i : Nat)
  /-- WRITE_DRAIN_TIMEOUT (R451). 20 µs after a fence the MMU voids the unit's remaining writes. -/
  | writeDrainTimeout (i : Nat)
  /-- REDISPATCH (R451). Firmware dispatches a fenced unit's work to a spare from its PROG with a new epoch. -/
  | redispatch (i dest : Nat)
  /-- DIGEST_SWEEP (R462). Every 1 ms the Catalogue compares each unit's epoch and digest with the expected values. -/
  | digestSweep (held : List (Nat × Nat × Nat))
  /-- PIN_CHECK (R457). 50 µs after a change and every 50 µs an output pin's receiver is compared with the level driven. -/
  | pinCheck (p : OutPin) (level : Bool)
  /-- KEEPER_LOCKSTEP_MISMATCH (R447). A keeper lockstep mismatch resets the keeper pair, which restores and reruns its request. -/
  | keeperLockstepMismatch
  /-- FUSE_LOAD_DONE (R467). A fuse load ends; trims are applied when all sections pass, or the load restarts or enters fuse-fail. -/
  | fuseLoadDone (f : FuseLoad)
  /-- WINDOW_CLEAR_DONE (R469). The keeper has zeroed the DOWNLOAD aperture and sets WINDOW_OPEN. -/
  | windowClearDone
  /-- WINDOW_WRITE (R469). A host write to the BAR2 window lands in DOWNLOAD or is discarded and counted. -/
  | windowWrite (off : Nat) (data : List Byte)
  /-- LOAD (R473). The mailbox LOAD request closes the window and verifies and decrypts the bundle's containers. -/
  | loadBundle (word : Nat) (cs : List Crypto)
  /-- LOAD_COMPLETE (R476). The LOAD response is written and, on success, control stores are loaded and curators started. -/
  | loadComplete
  /-- AGEING_PUT (R480). The mailbox AGEING_PUT request checks and holds an ageing record for the Conservator. -/
  | ageingPut (word : Nat) (macOk : Bool)
  /-- AGEING_GET (R471). The mailbox AGEING_GET request returns an ageing record. -/
  | ageingGet (word : Nat)
  /-- ATTEST (R483). The mailbox ATTEST request writes a signed attestation report into the window. -/
  | keeperAttest (word : Nat)
  /-- IDENTITY (R481). The mailbox IDENTITY request writes the identity public keys into the window. -/
  | keeperIdentity (word : Nat)
  /-- ALIVE (R477). Firmware writes KPR.ALIVE, setting READY, clearing FAILED_STARTS and beginning epoch 1. -/
  | keeperAlive (bar0 : Bool) (key : Nat)
  /-- START_DEADLINE (R477). A start with no ALIVE within 3 s fails, counts FAILED_STARTS and requests a warm reset, or in recovery reopens the window.
  -/
  | startDeadline
  /-- POWER_ON (R490). VDD_AON enters its range, PDA is cleared and pads take their safe states. -/
  | powerOn
  /-- SUPPLY_FAULT (R492). A monitored supply leaves its range or VR_PG falls, pads go safe and a cold reset is taken. -/
  | supplyFault
  /-- SYS_RESET_N (R486). SYS_RESET_N held low requests a cold reset. -/
  | sysResetN (ns : Nat)
  /-- PERST_N (R486). PERST_N held low requests a cold reset, except in Vault with PERST_IN_VAULT. -/
  | perstN (ns : Nat)
  /-- RESET_RELEASE (R490). Once supplies, VR_PG, SYS_REFCLK and reset pins allow, reset is released and domains switch on. -/
  | resetRelease
  /-- SYS_REFCLK_LOST (R492). A PDA monitor detects loss of SYS_REFCLK and sets REFCLK_LOST. -/
  | sysRefclkLost
  /-- SYS_REFCLK_RETURN (R486). SYS_REFCLK returns and latched reset requests are taken. -/
  | sysRefclkReturn
  /-- RST_KEY (R489). A write of RST_KEY opens a host reset sequence. -/
  | rstKey (v : Nat)
  /-- COLD_RESET_COMMAND (R489). RST_CMD with SCOPE cold after a matching key takes a cold reset. -/
  | coldResetCommand (key2 : Nat)
  /-- WARM_RESET_COMMAND (R489). RST_CMD with SCOPE warm after a matching key takes a warm reset. -/
  | warmResetCommand (key2 : Nat)
  /-- UNIT_RESET (R495). RST_CMD with SCOPE unit resets one accepted unit, or is refused. -/
  | unitReset (key2 u : Nat)
  /-- UNIT_RESET_DONE (R495). A unit reset completes, with control store reloaded, and DONE is set. -/
  | unitResetDone
  /-- PD_REQ_WRITE (R496). Firmware writes PD_REQk to switch domains on or off, or the request is refused. -/
  | pdReqWrite (byHost : Bool) (k v : Nat)
  /-- DOMAIN_ON_DONE (R496). A switched domain is on with isolation released and its unit ready. -/
  | domainOnDone (d : Nat)
  /-- SLEEP_STANDBY (R498). SLEEP_CTL with REQ 1 requests Standby and starts the entry sequence or refuses. -/
  | sleepStandby (key : Nat)
  /-- SLEEP_VAULT (R498). SLEEP_CTL with REQ 2 requests Vault and starts the entry sequence or refuses. -/
  | sleepVault (key : Nat)
  /-- SLEEP_STEP_DONE (R499). A step of the sleep entry sequence completes, testing for a pending wake before steps 5 and 7. -/
  | sleepStepDone (ops : List (List CoreOp))
  /-- PME_TURN_OFF (R499). The host's PME_Turn_Off is answered and the link enters L2. -/
  | pmeTurnOff
  /-- L2_TIMEOUT (R499). The link does not reach L2 within 1 s and the device unwinds with REFUSED_LINK. -/
  | l2Timeout
  /-- WAKE_EVENT (R501). A wake source's event sets WAKE_PEND and begins a wake or cancels a sleep entry when enabled. -/
  | wakeEvent (src : Nat)
  /-- WAKE_STEP_DONE (R502). A step of the wake sequence completes until the device is Active. -/
  | wakeStepDone
  /-- STATUS (R503). The SMBus STATUS command returns the device status word. -/
  | smbStatus
  /-- CAUSE (R503). The SMBus CAUSE command returns LAST_CAUSE. -/
  | smbCause
  /-- DEVICE_ID (R503). The SMBus DEVICE_ID command returns device ID and stepping. -/
  | smbDeviceId
  /-- UID (R503). The SMBus UID command returns DEVICE_UID. -/
  | smbUid
  /-- EPOCH_DIGEST (R503). The SMBus EPOCH_DIGEST command returns the epoch and device digest. -/
  | smbEpochDigest
  /-- FAULTS (R503). The SMBus FAULTS command returns RGS_STAT and the newest log-head message. -/
  | smbFaults
  /-- RESET (R503). The SMBus RESET command requests a cold or warm reset while RESET_EN is 1. -/
  | resetMessage (v : Nat) (pecOk : Bool)
  /-- WAKE (R503). The SMBus WAKE command sets WAKE_PEND bit 5. -/
  | wakeMessage (pecOk : Bool)
  /-- ALERT_RESPONSE (R503). A read of the Alert Response Address returns ADDR and releases SMB_ALERT_N. -/
  | alertResponse
  /-- SMB_CFG_WRITE (R506). A write of SMB_CFG sets and locks its RWL fields, or is ignored and counted when locked. -/
  | smbCfgWrite (v : Nat)
  /-- THERM_ASSERT (R541). The PDA sensor reads 115 °C or more and THERM_N is driven low, logging OVER_TEMP. -/
  | thermAssert
  /-- THERM_RELEASE (R541). The PDA sensor reads below 110 °C and THERM_N is released. -/
  | thermRelease
  /-- CONSERVATOR_ROUND (R512). Every 10 s the Conservator reads its monitors and re-plans targets, trims and DRAM centres. -/
  | conservatorRound (r : RoundIn)
  /-- SLACK_ALARM (R513). A monitor reporting least slack below 5 % makes the Conservator re-plan at once. -/
  | slackAlarm (d slack : Nat) (needs : List (Nat × Nat))
  /-- VOLTAGE_STEP (R511). Every 10 ms the ramp moves VDD_CORE or a trim by at most 1 mV. -/
  | voltageStep
  /-- BAND_DWELL_EXPIRY (R511). Tj has stayed in a new lower band for 1 s and a voltage fall may start. -/
  | bandDwellExpiry
  /-- BASELINE_TIMEOUT (R515). 60 s after ALIVE with no record the Conservator leaves BASELINE and re-plans. -/
  | baselineTimeout
  /-- AVS_TRANSACTION (R517). An AVSBus transaction completes with read-back, or failure sets AVS_ERR and HELD. -/
  | avsTransaction (ok : Bool) (mv : Nat)
  /-- PCIE_LINK_DOWN (R457). The PCIe endpoint link leaves L0 without a host request, or an uncorrectable error is logged, and PCIE_LINK is reported. -/
  | pcieLinkDown (linkLost : Bool)
  /-- PCIE_CORRECTED_ERROR (R438). A correctable error is logged in the endpoint's AER capability and PCIE_CORRECTED is reported. -/
  | pcieCorrectedError
  /-- MAILBOX_UNKNOWN_OPCODE (R471). A mailbox GO whose request carries an opcode not in the table completes with BAD_OPCODE. -/
  | mailboxUnknownOpcode (word : Nat)
  /-- SMBUS_UNKNOWN_COMMAND (R503). An SMBus transaction with an unknown command code is refused and counted in SMB_STAT.PEC_ERR. -/
  | smbusUnknownCommand
  /-- VDD_FUSE_RAMP (R473). VDD_FUSE enters or leaves its range, changing FUS_STAT.VFUSE_OK and letting a pending rollback-counter raise proceed. -/
  | vddFuseRamp (inRange : Bool)
  /-- POWER_DOWN (R535). VDD_AON leaves its range, PDA state is lost, THERM_N is released and the pins go to their unpowered state. -/
  | powerDown
  deriving DecidableEq, Repr

end Sys2Proof
end

