-- ==== Sys2Proof/Decode.lean ====
section
/-! DEFINITION. The commands that words spell. The block's opcode table gives no row any bits: its commands are register accesses, slips,
bus operations, events of pins and links, and ends of the block's own operations, each with its operands as it stands. -/
namespace Sys2Proof

/-- The command that a word of the table's bits spells: none, as no row has bits (log entry 2). -/
def decodeTableWord (_nbits _w : Nat) : Option Instr := none

end Sys2Proof
end

