-- ==== Sys2Proof/Machine/Conservation.lean ====
section
/-! DEFINITION. The conservation code (R342 to R344): check words, syndromes and what a reader makes of them. -/
namespace Sys2Proof.Machine

/-- The parity of the bits of `n` at the given places. -/
def parityOf (n : Nat) (places : List Nat) : Nat := (places.map fun b => bits n b 1).sum % 2

/-- The places of row r and of column c of a block (R342). -/
def rowPlaces (r : Nat) : List Nat := (List.range 16).map fun c => 16 * r + c
def colPlaces (c : Nat) : List Nat := (List.range 16).map fun r => 16 * r + c

/-- The check word of 256 data bits: row parities below, column parities above (R342). -/
def checkWord (data : Nat) : Nat :=
  ((List.range 16).map fun i => parityOf data (rowPlaces i) * 2 ^ i + parityOf data (colPlaces i) * 2 ^ (16 + i)).sum

/-- What a reader finds (R343). -/
inductive Verdict where
  | clean
  | dataBit (b : Nat)
  | checkBit (b : Nat)
  | bad
  deriving DecidableEq, Repr

/-- The places of the set bits among the first n of a number. -/
def setPlaces (n v : Nat) : List Nat := (List.range n).filter (bitAt v)

/-- The verdict on a syndrome: row parities below, column parities above (R343). -/
def verdictOf (syn : Nat) : Verdict :=
  match setPlaces 16 syn, setPlaces 16 (syn / 65536) with
  | [], [] => .clean
  | [r], [c] => .dataBit (16 * r + c)
  | [r], [] => .checkBit r
  | [], [c] => .checkBit (16 + c)
  | _, _ => .bad

/-- The syndrome of a block damaged by a mask: data bits below, check bits from 256 up (R343, R344). -/
def syndromeOf (mask : Nat) : Nat := Nat.xor (checkWord (mask % 2 ^ 256)) (mask / 2 ^ 256 % 2 ^ 32)

/-- The verdict on a damaged block. -/
def judge (mask : Nat) : Verdict := verdictOf (syndromeOf mask)

/-- The damage that is left in the data handed to the reader: a mended data bit is inverted (R343). -/
def Verdict.left (v : Verdict) (mask : Nat) : Nat :=
  match v with
  | .dataBit b => Nat.xor (mask % 2 ^ 256) (2 ^ b)
  | _ => mask % 2 ^ 256

/-- A single error: the block is mended. -/
def Verdict.mends (v : Verdict) : Bool :=
  match v with
  | .dataBit _ => true
  | .checkBit _ => true
  | _ => false

/-- Bytes with the bits of a mask inverted. -/
def invertBits (mask : Nat) (l : List Byte) : List Byte :=
  l.zipIdx.map fun q => q.1 ^^^ BitVec.ofNat 8 (mask / 2 ^ (8 * q.2))

end Sys2Proof.Machine
end

