-- ==== Sys2Proof/Machine/RegMap.lean ====
section
/-! DEFINITION. The register map: every field of every register of BAR0 with its place, and the access code
of every field (R5 to R7, R23 and the register maps of the chapters). -/
namespace Sys2Proof.Machine

/-- A register field: the BAR0 offset of its register, its lowest bit, its width. -/
structure Fld where
  off : Nat
  lo : Nat
  w : Nat
  deriving DecidableEq, Repr

/-- Access codes (R6). `rw min max`: set by a write of a value in `[min, max]`, else unchanged. `own`: the
field acts as its own command, or its register's rule, says. -/
inductive Acc where
  | rw (min max : Nat)
  | ro
  | w1c
  | own
  deriving DecidableEq, Repr

/-- A register, or an array of registers: first offset, stride and count, and the same for an outer array. -/
structure RegDesc where
  base : Nat
  stride : Nat
  count : Nat
  pstride : Nat
  pcount : Nat
  fields : List (Nat × Nat × Acc)
  deriving DecidableEq, Repr


/-! ### TOP -/

/-- TOP.DEVICE_ID (R31). -/
def TOP.DEVICE_ID : Nat := 0x0
def TOP.DEVICE_ID_FAMILY : Fld := ⟨TOP.DEVICE_ID, 16, 16⟩
def TOP.DEVICE_ID_PART : Fld := ⟨TOP.DEVICE_ID, 0, 16⟩
/-- TOP.STEPPING (R31). -/
def TOP.STEPPING : Nat := 0x4
def TOP.STEPPING_LETTER : Fld := ⟨TOP.STEPPING, 4, 4⟩
def TOP.STEPPING_NUMBER : Fld := ⟨TOP.STEPPING, 0, 4⟩
/-- TOP.GRADE (R31). -/
def TOP.GRADE : Nat := 0x8
def TOP.GRADE_CNS_DETAIL : Fld := ⟨TOP.GRADE, 27, 1⟩
def TOP.GRADE_SN_PORTS : Fld := ⟨TOP.GRADE, 24, 3⟩
def TOP.GRADE_MAG_PORTS : Fld := ⟨TOP.GRADE, 22, 2⟩
def TOP.GRADE_NET_PORTS : Fld := ⟨TOP.GRADE, 20, 2⟩
def TOP.GRADE_DRAM_CH : Fld := ⟨TOP.GRADE, 16, 4⟩
def TOP.GRADE_SCRIBES : Fld := ⟨TOP.GRADE, 8, 8⟩
def TOP.GRADE_CARRELS : Fld := ⟨TOP.GRADE, 0, 8⟩
/-- TOP.PACE_CTL (R31). -/
def TOP.PACE_CTL : Nat := 0x10
def TOP.PACE_CTL_PACE : Fld := ⟨TOP.PACE_CTL, 0, 2⟩
/-- TOP.PACE_STAT (R31). -/
def TOP.PACE_STAT : Nat := 0x14
def TOP.PACE_STAT_REFUSED : Fld := ⟨TOP.PACE_STAT, 3, 1⟩
def TOP.PACE_STAT_RAMPING : Fld := ⟨TOP.PACE_STAT, 2, 1⟩
def TOP.PACE_STAT_CURRENT : Fld := ⟨TOP.PACE_STAT, 0, 2⟩
/-- TOP.RATE_FACTOR (R31). -/
def TOP.RATE_FACTOR : Nat := 0x18
def TOP.RATE_FACTOR_TARGET : Fld := ⟨TOP.RATE_FACTOR, 16, 12⟩
def TOP.RATE_FACTOR_FACTOR : Fld := ⟨TOP.RATE_FACTOR, 0, 12⟩
/-- TOP.SCRATCH (R31). -/
def TOP.SCRATCH : Nat := 0x1C
def TOP.SCRATCH_VALUE : Fld := ⟨TOP.SCRATCH, 0, 32⟩

/-! ### KPR -/

/-- KPR.BOOT_STAT (R484). -/
def KPR.BOOT_STAT : Nat := 0x10000
def KPR.BOOT_STAT_AGEING_ADOPTED : Fld := ⟨KPR.BOOT_STAT, 11, 1⟩
def KPR.BOOT_STAT_COUNTER_PENDING : Fld := ⟨KPR.BOOT_STAT, 10, 1⟩
def KPR.BOOT_STAT_FAILED_STARTS : Fld := ⟨KPR.BOOT_STAT, 8, 2⟩
def KPR.BOOT_STAT_STAGE : Fld := ⟨KPR.BOOT_STAT, 4, 4⟩
def KPR.BOOT_STAT_RECOVERY : Fld := ⟨KPR.BOOT_STAT, 3, 1⟩
def KPR.BOOT_STAT_ALIVE : Fld := ⟨KPR.BOOT_STAT, 2, 1⟩
def KPR.BOOT_STAT_WINDOW_OPEN : Fld := ⟨KPR.BOOT_STAT, 1, 1⟩
/-- KPR.BOOT_ERR (R484). -/
def KPR.BOOT_ERR : Nat := 0x10004
def KPR.BOOT_ERR_CONTAINER : Fld := ⟨KPR.BOOT_ERR, 8, 8⟩
def KPR.BOOT_ERR_CODE : Fld := ⟨KPR.BOOT_ERR, 0, 8⟩
/-- KPR.ALIVE (R484). -/
def KPR.ALIVE : Nat := 0x10008
def KPR.ALIVE_KEY : Fld := ⟨KPR.ALIVE, 0, 16⟩
/-- KPR.MBX_CTL (R484). -/
def KPR.MBX_CTL : Nat := 0x1000C
def KPR.MBX_CTL_GO : Fld := ⟨KPR.MBX_CTL, 31, 1⟩
def KPR.MBX_CTL_IRQ : Fld := ⟨KPR.MBX_CTL, 8, 1⟩
def KPR.MBX_CTL_VECTOR : Fld := ⟨KPR.MBX_CTL, 0, 6⟩
/-- KPR.MBX_STAT (R484). -/
def KPR.MBX_STAT : Nat := 0x10010
def KPR.MBX_STAT_DONE : Fld := ⟨KPR.MBX_STAT, 31, 1⟩
def KPR.MBX_STAT_BUSY : Fld := ⟨KPR.MBX_STAT, 30, 1⟩
def KPR.MBX_STAT_GO_IGNORED : Fld := ⟨KPR.MBX_STAT, 29, 1⟩
def KPR.MBX_STAT_SEQ : Fld := ⟨KPR.MBX_STAT, 0, 16⟩
/-- KPR.WINDOW_DROPS (R484). -/
def KPR.WINDOW_DROPS : Nat := 0x10014
def KPR.WINDOW_DROPS_VALUE : Fld := ⟨KPR.WINDOW_DROPS, 0, 32⟩
/-- KPR.START_MS (R484). -/
def KPR.START_MS : Nat := 0x10018
def KPR.START_MS_VALUE : Fld := ⟨KPR.START_MS, 0, 32⟩
/-- KPR.MEASUREMENT (R484). -/
def KPR.MEASUREMENT (i : Nat) : Nat := 0x10020 + 0x4 * i
def KPR.MEASUREMENT_VALUE (i : Nat) : Fld := ⟨KPR.MEASUREMENT i, 0, 32⟩

/-! ### FUS -/

/-- FUS.FUS_STAT (R485). -/
def FUS.FUS_STAT : Nat := 0x20000
def FUS.FUS_STAT_LOADED : Fld := ⟨FUS.FUS_STAT, 31, 1⟩
def FUS.FUS_STAT_FUSE_FAIL : Fld := ⟨FUS.FUS_STAT, 30, 1⟩
def FUS.FUS_STAT_VFUSE_OK : Fld := ⟨FUS.FUS_STAT, 29, 1⟩
def FUS.FUS_STAT_ATTEMPTS : Fld := ⟨FUS.FUS_STAT, 26, 2⟩
def FUS.FUS_STAT_SECTION_FAIL : Fld := ⟨FUS.FUS_STAT, 8, 8⟩
def FUS.FUS_STAT_SLOTS : Fld := ⟨FUS.FUS_STAT, 0, 2⟩
/-- FUS.DEVICE_UID (R485). -/
def FUS.DEVICE_UID (i : Nat) : Nat := 0x20010 + 0x4 * i
def FUS.DEVICE_UID_VALUE (i : Nat) : Fld := ⟨FUS.DEVICE_UID i, 0, 32⟩
/-- FUS.DRAM_PROFILE (R485). -/
def FUS.DRAM_PROFILE : Nat := 0x20024
def FUS.DRAM_PROFILE_VALUE : Fld := ⟨FUS.DRAM_PROFILE, 0, 32⟩
/-- FUS.DEBUG (R485). -/
def FUS.DEBUG : Nat := 0x20028
def FUS.DEBUG_VALUE : Fld := ⟨FUS.DEBUG, 0, 32⟩
/-- FUS.COUNTER_LO (R485). -/
def FUS.COUNTER_LO : Nat := 0x20030
def FUS.COUNTER_LO_VALUE : Fld := ⟨FUS.COUNTER_LO, 0, 32⟩
/-- FUS.COUNTER_HI (R485). -/
def FUS.COUNTER_HI : Nat := 0x20034
def FUS.COUNTER_HI_VALUE : Fld := ⟨FUS.COUNTER_HI, 0, 32⟩
/-- FUS.COUNTER_VALUE (R485). -/
def FUS.COUNTER_VALUE : Nat := 0x20038
def FUS.COUNTER_VALUE_VALUE : Fld := ⟨FUS.COUNTER_VALUE, 0, 32⟩
/-- FUS.DENY (R485). -/
def FUS.DENY (i : Nat) : Nat := 0x20040 + 0x4 * i
def FUS.DENY_VALUE (i : Nat) : Fld := ⟨FUS.DENY i, 0, 32⟩
/-- FUS.SLOT0_RSA_HASH (R485). -/
def FUS.SLOT0_RSA_HASH (i : Nat) : Nat := 0x20100 + 0x4 * i
def FUS.SLOT0_RSA_HASH_VALUE (i : Nat) : Fld := ⟨FUS.SLOT0_RSA_HASH i, 0, 32⟩
/-- FUS.SLOT0_SLH_HASH (R485). -/
def FUS.SLOT0_SLH_HASH (i : Nat) : Nat := 0x20140 + 0x4 * i
def FUS.SLOT0_SLH_HASH_VALUE (i : Nat) : Fld := ⟨FUS.SLOT0_SLH_HASH i, 0, 32⟩
/-- FUS.SLOT1_RSA_HASH (R485). -/
def FUS.SLOT1_RSA_HASH (i : Nat) : Nat := 0x20180 + 0x4 * i
def FUS.SLOT1_RSA_HASH_VALUE (i : Nat) : Fld := ⟨FUS.SLOT1_RSA_HASH i, 0, 32⟩
/-- FUS.SLOT1_SLH_HASH (R485). -/
def FUS.SLOT1_SLH_HASH (i : Nat) : Nat := 0x201C0 + 0x4 * i
def FUS.SLOT1_SLH_HASH_VALUE (i : Nat) : Fld := ⟨FUS.SLOT1_SLH_HASH i, 0, 32⟩

/-! ### RST -/

/-- RST.RST_STAT (R504). -/
def RST.RST_STAT : Nat := 0x30000
def RST.RST_STAT_RESETS : Fld := ⟨RST.RST_STAT, 16, 16⟩
def RST.RST_STAT_REFCLK_OK : Fld := ⟨RST.RST_STAT, 15, 1⟩
def RST.RST_STAT_REFCLK_LOST : Fld := ⟨RST.RST_STAT, 14, 1⟩
def RST.RST_STAT_LAST_SCOPE : Fld := ⟨RST.RST_STAT, 12, 2⟩
def RST.RST_STAT_LAST_CAUSE : Fld := ⟨RST.RST_STAT, 0, 8⟩
/-- RST.RST_KEY (R504). -/
def RST.RST_KEY : Nat := 0x30004
def RST.RST_KEY_KEY : Fld := ⟨RST.RST_KEY, 0, 32⟩
/-- RST.RST_CMD (R504). -/
def RST.RST_CMD : Nat := 0x30008
def RST.RST_CMD_KEY2 : Fld := ⟨RST.RST_CMD, 16, 16⟩
def RST.RST_CMD_SCOPE : Fld := ⟨RST.RST_CMD, 12, 2⟩
def RST.RST_CMD_UNIT : Fld := ⟨RST.RST_CMD, 0, 12⟩
/-- RST.RST_CFG (R504). -/
def RST.RST_CFG : Nat := 0x3000C
def RST.RST_CFG_PERST_IN_VAULT : Fld := ⟨RST.RST_CFG, 0, 1⟩
/-- RST.RST_UNIT (R504). -/
def RST.RST_UNIT : Nat := 0x30010
def RST.RST_UNIT_DONE : Fld := ⟨RST.RST_UNIT, 31, 1⟩
def RST.RST_UNIT_BUSY_AT_RESET : Fld := ⟨RST.RST_UNIT, 30, 1⟩
def RST.RST_UNIT_REFUSED : Fld := ⟨RST.RST_UNIT, 29, 1⟩
def RST.RST_UNIT_RUNNING : Fld := ⟨RST.RST_UNIT, 28, 1⟩
def RST.RST_UNIT_UNIT : Fld := ⟨RST.RST_UNIT, 0, 12⟩
/-- RST.RST_ERR (R504). -/
def RST.RST_ERR : Nat := 0x30014
def RST.RST_ERR_KEY_ERR : Fld := ⟨RST.RST_ERR, 0, 16⟩

/-! ### PWR -/

/-- PWR.PWR_STAT (R505). -/
def PWR.PWR_STAT : Nat := 0x40000
def PWR.PWR_STAT_WAKE_TIME : Fld := ⟨PWR.PWR_STAT, 16, 16⟩
def PWR.PWR_STAT_STATE : Fld := ⟨PWR.PWR_STAT, 0, 3⟩
/-- PWR.SLEEP_CTL (R505). -/
def PWR.SLEEP_CTL : Nat := 0x40004
def PWR.SLEEP_CTL_KEY : Fld := ⟨PWR.SLEEP_CTL, 16, 16⟩
def PWR.SLEEP_CTL_REQ : Fld := ⟨PWR.SLEEP_CTL, 0, 2⟩
/-- PWR.SLEEP_STAT (R505). -/
def PWR.SLEEP_STAT : Nat := 0x40008
def PWR.SLEEP_STAT_DONE : Fld := ⟨PWR.SLEEP_STAT, 31, 1⟩
def PWR.SLEEP_STAT_RESULT : Fld := ⟨PWR.SLEEP_STAT, 24, 4⟩
def PWR.SLEEP_STAT_WAKE_SRC : Fld := ⟨PWR.SLEEP_STAT, 16, 3⟩
def PWR.SLEEP_STAT_REQUESTED : Fld := ⟨PWR.SLEEP_STAT, 0, 2⟩
/-- PWR.WAKE_EN (R505). -/
def PWR.WAKE_EN : Nat := 0x4000C
def PWR.WAKE_EN_SOURCES : Fld := ⟨PWR.WAKE_EN, 0, 6⟩
/-- PWR.WAKE_PEND (R505). -/
def PWR.WAKE_PEND : Nat := 0x40010
def PWR.WAKE_PEND_SOURCES : Fld := ⟨PWR.WAKE_PEND, 0, 6⟩
/-- PWR.PD_REQ0 (R505). -/
def PWR.PD_REQ0 : Nat := 0x40020
def PWR.PD_REQ0_DOMAINS : Fld := ⟨PWR.PD_REQ0, 0, 32⟩
/-- PWR.PD_REQ1 (R505). -/
def PWR.PD_REQ1 : Nat := 0x40024
def PWR.PD_REQ1_DOMAINS : Fld := ⟨PWR.PD_REQ1, 0, 32⟩
/-- PWR.PD_REQ2 (R505). -/
def PWR.PD_REQ2 : Nat := 0x40028
def PWR.PD_REQ2_DOMAINS : Fld := ⟨PWR.PD_REQ2, 0, 32⟩
/-- PWR.PD_REQ3 (R505). -/
def PWR.PD_REQ3 : Nat := 0x4002C
def PWR.PD_REQ3_DOMAINS : Fld := ⟨PWR.PD_REQ3, 0, 32⟩
/-- PWR.PD_STAT0 (R505). -/
def PWR.PD_STAT0 : Nat := 0x40030
def PWR.PD_STAT0_DOMAINS : Fld := ⟨PWR.PD_STAT0, 0, 32⟩
/-- PWR.PD_STAT1 (R505). -/
def PWR.PD_STAT1 : Nat := 0x40034
def PWR.PD_STAT1_DOMAINS : Fld := ⟨PWR.PD_STAT1, 0, 32⟩
/-- PWR.PD_STAT2 (R505). -/
def PWR.PD_STAT2 : Nat := 0x40038
def PWR.PD_STAT2_DOMAINS : Fld := ⟨PWR.PD_STAT2, 0, 32⟩
/-- PWR.PD_STAT3 (R505). -/
def PWR.PD_STAT3 : Nat := 0x4003C
def PWR.PD_STAT3_DOMAINS : Fld := ⟨PWR.PD_STAT3, 0, 32⟩
/-- PWR.PD_ERR (R505). -/
def PWR.PD_ERR : Nat := 0x40040
def PWR.PD_ERR_REFUSED : Fld := ⟨PWR.PD_ERR, 31, 1⟩
def PWR.PD_ERR_REASON : Fld := ⟨PWR.PD_ERR, 8, 2⟩
def PWR.PD_ERR_DOMAIN : Fld := ⟨PWR.PD_ERR, 0, 7⟩
/-- PWR.PD_SWITCHES (R505). -/
def PWR.PD_SWITCHES : Nat := 0x40044
def PWR.PD_SWITCHES_COUNT : Fld := ⟨PWR.PD_SWITCHES, 0, 32⟩

/-! ### CNS -/

/-- CNS.CNS_STAT (R520). -/
def CNS.CNS_STAT : Nat := 0x50000
def CNS.CNS_STAT_MARGIN_CAUSE : Fld := ⟨CNS.CNS_STAT, 8, 4⟩
def CNS.CNS_STAT_AVS_ERR : Fld := ⟨CNS.CNS_STAT, 7, 1⟩
def CNS.CNS_STAT_PACE_LIMITED : Fld := ⟨CNS.CNS_STAT, 6, 1⟩
def CNS.CNS_STAT_RAMPING : Fld := ⟨CNS.CNS_STAT, 5, 1⟩
def CNS.CNS_STAT_RECORD : Fld := ⟨CNS.CNS_STAT, 4, 1⟩
def CNS.CNS_STAT_STATE : Fld := ⟨CNS.CNS_STAT, 0, 2⟩
/-- CNS.REPLANS (R520). -/
def CNS.REPLANS : Nat := 0x50004
def CNS.REPLANS_VALUE : Fld := ⟨CNS.REPLANS, 0, 32⟩
/-- CNS.LAST_SEC_LO (R520). -/
def CNS.LAST_SEC_LO : Nat := 0x50008
def CNS.LAST_SEC_LO_VALUE : Fld := ⟨CNS.LAST_SEC_LO, 0, 32⟩
/-- CNS.LAST_SEC_HI (R520). -/
def CNS.LAST_SEC_HI : Nat := 0x5000C
def CNS.LAST_SEC_HI_VALUE : Fld := ⟨CNS.LAST_SEC_HI, 0, 32⟩
/-- CNS.LAST_NS (R520). -/
def CNS.LAST_NS : Nat := 0x50010
def CNS.LAST_NS_VALUE : Fld := ⟨CNS.LAST_NS, 0, 32⟩
/-- CNS.VOLTAGE (R520). -/
def CNS.VOLTAGE : Nat := 0x50014
def CNS.VOLTAGE_TARGET_MV : Fld := ⟨CNS.VOLTAGE, 16, 10⟩
def CNS.VOLTAGE_PRESENT_MV : Fld := ⟨CNS.VOLTAGE, 0, 10⟩
/-- CNS.TEMP (R520). -/
def CNS.TEMP : Nat := 0x50018
def CNS.TEMP_BAND : Fld := ⟨CNS.TEMP, 16, 5⟩
def CNS.TEMP_TJ : Fld := ⟨CNS.TEMP, 0, 16⟩
/-- CNS.SLACK_MIN (R520). -/
def CNS.SLACK_MIN : Nat := 0x5001C
def CNS.SLACK_MIN_DOMAIN : Fld := ⟨CNS.SLACK_MIN, 16, 7⟩
def CNS.SLACK_MIN_SLACK : Fld := ⟨CNS.SLACK_MIN, 0, 16⟩
/-- CNS.DOMAIN_SEL (R520). -/
def CNS.DOMAIN_SEL : Nat := 0x50020
def CNS.DOMAIN_SEL_DOMAIN : Fld := ⟨CNS.DOMAIN_SEL, 0, 7⟩
/-- CNS.DOMAIN_STAT (R520). -/
def CNS.DOMAIN_STAT : Nat := 0x50024
def CNS.DOMAIN_STAT_VALID : Fld := ⟨CNS.DOMAIN_STAT, 31, 1⟩
def CNS.DOMAIN_STAT_TRIM_MV : Fld := ⟨CNS.DOMAIN_STAT, 16, 8⟩
def CNS.DOMAIN_STAT_SLACK : Fld := ⟨CNS.DOMAIN_STAT, 0, 16⟩
/-- CNS.EYE_RD (R520). -/
def CNS.EYE_RD (i : Nat) : Nat := 0x50040 + 0x4 * i
def CNS.EYE_RD_LANE1_PS (i : Nat) : Fld := ⟨CNS.EYE_RD i, 16, 16⟩
def CNS.EYE_RD_LANE0_PS (i : Nat) : Fld := ⟨CNS.EYE_RD i, 0, 16⟩
/-- CNS.EYE_WR (R520). -/
def CNS.EYE_WR (i : Nat) : Nat := 0x50060 + 0x4 * i
def CNS.EYE_WR_LANE1_PS (i : Nat) : Fld := ⟨CNS.EYE_WR i, 16, 16⟩
def CNS.EYE_WR_LANE0_PS (i : Nat) : Fld := ⟨CNS.EYE_WR i, 0, 16⟩

/-! ### RGS -/

/-- RGS.RGS_STAT (R464). -/
def RGS.RGS_STAT : Nat := 0x60000
def RGS.RGS_STAT_FAULT_N : Fld := ⟨RGS.RGS_STAT, 31, 1⟩
def RGS.RGS_STAT_LOG_WRAPPED : Fld := ⟨RGS.RGS_STAT, 30, 1⟩
def RGS.RGS_STAT_UNACK_C3 : Fld := ⟨RGS.RGS_STAT, 24, 6⟩
def RGS.RGS_STAT_UNACK_C2 : Fld := ⟨RGS.RGS_STAT, 18, 6⟩
def RGS.RGS_STAT_UNACK_C1 : Fld := ⟨RGS.RGS_STAT, 12, 6⟩
def RGS.RGS_STAT_UNACK_C0 : Fld := ⟨RGS.RGS_STAT, 6, 6⟩
/-- RGS.RGS_CFG (R464). -/
def RGS.RGS_CFG : Nat := 0x60004
def RGS.RGS_CFG_FAULTN_CLASS : Fld := ⟨RGS.RGS_CFG, 0, 3⟩
/-- RGS.ACK (R464). -/
def RGS.ACK : Nat := 0x60008
def RGS.ACK_ALL : Fld := ⟨RGS.ACK, 15, 1⟩
def RGS.ACK_CLASS : Fld := ⟨RGS.ACK, 12, 3⟩
def RGS.ACK_UNIT : Fld := ⟨RGS.ACK, 0, 12⟩
/-- RGS.INJECT (R464). -/
def RGS.INJECT : Nat := 0x6000C
def RGS.INJECT_CLASS : Fld := ⟨RGS.INJECT, 20, 3⟩
def RGS.INJECT_KIND : Fld := ⟨RGS.INJECT, 12, 8⟩
def RGS.INJECT_UNIT : Fld := ⟨RGS.INJECT, 0, 12⟩
/-- RGS.LOG_NEWEST (R464). -/
def RGS.LOG_NEWEST : Nat := 0x60010
def RGS.LOG_NEWEST_SEQ : Fld := ⟨RGS.LOG_NEWEST, 0, 31⟩
/-- RGS.LOG_SEL (R464). -/
def RGS.LOG_SEL : Nat := 0x60014
def RGS.LOG_SEL_HEAD : Fld := ⟨RGS.LOG_SEL, 31, 1⟩
def RGS.LOG_SEL_INDEX : Fld := ⟨RGS.LOG_SEL, 0, 31⟩
/-- RGS.LOG_SEQ (R464). -/
def RGS.LOG_SEQ : Nat := 0x60018
def RGS.LOG_SEQ_VALID : Fld := ⟨RGS.LOG_SEQ, 31, 1⟩
def RGS.LOG_SEQ_SEQ : Fld := ⟨RGS.LOG_SEQ, 0, 31⟩
/-- RGS.LOG_W (R464). -/
def RGS.LOG_W (i : Nat) : Nat := 0x6001C + 0x4 * i
def RGS.LOG_W_VALUE (i : Nat) : Fld := ⟨RGS.LOG_W i, 0, 32⟩
/-- RGS.LOG_SEC (R464). -/
def RGS.LOG_SEC : Nat := 0x6002C
def RGS.LOG_SEC_VALUE : Fld := ⟨RGS.LOG_SEC, 0, 32⟩
/-- RGS.CLASS_COUNT (R464). -/
def RGS.CLASS_COUNT (i : Nat) : Nat := 0x60030 + 0x4 * i
def RGS.CLASS_COUNT_COUNT (i : Nat) : Fld := ⟨RGS.CLASS_COUNT i, 0, 32⟩
/-- RGS.ESCALATIONS (R464). -/
def RGS.ESCALATIONS : Nat := 0x60044
def RGS.ESCALATIONS_COUNT : Fld := ⟨RGS.ESCALATIONS, 0, 32⟩
/-- RGS.LATE_DISCARDS (R464). -/
def RGS.LATE_DISCARDS : Nat := 0x60048
def RGS.LATE_DISCARDS_COUNT : Fld := ⟨RGS.LATE_DISCARDS, 0, 32⟩
/-- RGS.MIGRATIONS (R464). -/
def RGS.MIGRATIONS : Nat := 0x6004C
def RGS.MIGRATIONS_COUNT : Fld := ⟨RGS.MIGRATIONS, 0, 32⟩
/-- RGS.MASK_LAST (R464). -/
def RGS.MASK_LAST : Nat := 0x60050
def RGS.MASK_LAST_US : Fld := ⟨RGS.MASK_LAST, 0, 32⟩
/-- RGS.MASK_MAX (R464). -/
def RGS.MASK_MAX : Nat := 0x60054
def RGS.MASK_MAX_US : Fld := ⟨RGS.MASK_MAX, 0, 32⟩
/-- RGS.SPARE_STAT (R464). -/
def RGS.SPARE_STAT : Nat := 0x60058
def RGS.SPARE_STAT_PAIR : Fld := ⟨RGS.SPARE_STAT, 16, 1⟩
def RGS.SPARE_STAT_SCRIBES : Fld := ⟨RGS.SPARE_STAT, 8, 8⟩
def RGS.SPARE_STAT_CARRELS : Fld := ⟨RGS.SPARE_STAT, 0, 8⟩
/-- RGS.HR_SEL (R464). -/
def RGS.HR_SEL : Nat := 0x6005C
def RGS.HR_SEL_VALUE : Fld := ⟨RGS.HR_SEL, 0, 8⟩
/-- RGS.HR_MIN (R464). -/
def RGS.HR_MIN : Nat := 0x60060
def RGS.HR_MIN_VALUE : Fld := ⟨RGS.HR_MIN, 0, 8⟩
/-- RGS.FAULT_MAP (R464). -/
def RGS.FAULT_MAP (i : Nat) : Nat := 0x60080 + 0x4 * i
def RGS.FAULT_MAP_UNITS (i : Nat) : Fld := ⟨RGS.FAULT_MAP i, 0, 32⟩

/-! ### CAT -/

/-- CAT.CAT_STAT (R465). -/
def CAT.CAT_STAT : Nat := 0x70000
def CAT.CAT_STAT_WAITING_ACK : Fld := ⟨CAT.CAT_STAT, 2, 1⟩
def CAT.CAT_STAT_SWEEPING : Fld := ⟨CAT.CAT_STAT, 1, 1⟩
def CAT.CAT_STAT_EPOCH_VALID : Fld := ⟨CAT.CAT_STAT, 0, 1⟩
/-- CAT.EPOCH (R465). -/
def CAT.EPOCH : Nat := 0x70004
def CAT.EPOCH_VALUE : Fld := ⟨CAT.EPOCH, 0, 32⟩
/-- CAT.DIGEST_HI (R465). -/
def CAT.DIGEST_HI : Nat := 0x70008
def CAT.DIGEST_HI_VALUE : Fld := ⟨CAT.DIGEST_HI, 0, 32⟩
/-- CAT.DIGEST_LO (R465). -/
def CAT.DIGEST_LO : Nat := 0x7000C
def CAT.DIGEST_LO_VALUE : Fld := ⟨CAT.DIGEST_LO, 0, 32⟩
/-- CAT.EPOCH_SEC_LO (R465). -/
def CAT.EPOCH_SEC_LO : Nat := 0x70010
def CAT.EPOCH_SEC_LO_VALUE : Fld := ⟨CAT.EPOCH_SEC_LO, 0, 32⟩
/-- CAT.EPOCH_SEC_HI (R465). -/
def CAT.EPOCH_SEC_HI : Nat := 0x70014
def CAT.EPOCH_SEC_HI_VALUE : Fld := ⟨CAT.EPOCH_SEC_HI, 0, 32⟩
/-- CAT.EPOCH_NS (R465). -/
def CAT.EPOCH_NS : Nat := 0x70018
def CAT.EPOCH_NS_VALUE : Fld := ⟨CAT.EPOCH_NS, 0, 32⟩
/-- CAT.SWEEPS (R465). -/
def CAT.SWEEPS : Nat := 0x70020
def CAT.SWEEPS_COUNT : Fld := ⟨CAT.SWEEPS, 0, 32⟩
/-- CAT.MISMATCHES (R465). -/
def CAT.MISMATCHES : Nat := 0x70024
def CAT.MISMATCHES_COUNT : Fld := ⟨CAT.MISMATCHES, 0, 32⟩
/-- CAT.NO_ACKS (R465). -/
def CAT.NO_ACKS : Nat := 0x70028
def CAT.NO_ACKS_COUNT : Fld := ⟨CAT.NO_ACKS, 0, 32⟩
/-- CAT.UNIT_SEL (R465). -/
def CAT.UNIT_SEL : Nat := 0x70030
def CAT.UNIT_SEL_UNIT : Fld := ⟨CAT.UNIT_SEL, 0, 12⟩
/-- CAT.UNIT_HELD_HI (R465). -/
def CAT.UNIT_HELD_HI : Nat := 0x70034
def CAT.UNIT_HELD_HI_VALUE : Fld := ⟨CAT.UNIT_HELD_HI, 0, 32⟩
/-- CAT.UNIT_HELD_LO (R465). -/
def CAT.UNIT_HELD_LO : Nat := 0x70038
def CAT.UNIT_HELD_LO_VALUE : Fld := ⟨CAT.UNIT_HELD_LO, 0, 32⟩
/-- CAT.UNIT_EXPECT_HI (R465). -/
def CAT.UNIT_EXPECT_HI : Nat := 0x7003C
def CAT.UNIT_EXPECT_HI_VALUE : Fld := ⟨CAT.UNIT_EXPECT_HI, 0, 32⟩
/-- CAT.UNIT_EXPECT_LO (R465). -/
def CAT.UNIT_EXPECT_LO : Nat := 0x70040
def CAT.UNIT_EXPECT_LO_VALUE : Fld := ⟨CAT.UNIT_EXPECT_LO, 0, 32⟩
/-- CAT.UNIT_EPOCH (R465). -/
def CAT.UNIT_EPOCH : Nat := 0x70044
def CAT.UNIT_EPOCH_VALUE : Fld := ⟨CAT.UNIT_EPOCH, 0, 32⟩

/-! ### HIF -/

/-- HIF.HIF_STAT (R225). -/
def HIF.HIF_STAT : Nat := 0x80000
def HIF.HIF_STAT_RECOVERY : Fld := ⟨HIF.HIF_STAT, 1, 1⟩
def HIF.HIF_STAT_READY : Fld := ⟨HIF.HIF_STAT, 0, 1⟩
/-- HIF.ERR_COUNT (R225). -/
def HIF.ERR_COUNT : Nat := 0x80008
def HIF.ERR_COUNT_DOORBELL : Fld := ⟨HIF.ERR_COUNT, 16, 16⟩
def HIF.ERR_COUNT_UNASSIGNED : Fld := ⟨HIF.ERR_COUNT, 0, 16⟩
/-- HIF.LEDGER_CU_CAP (R225). -/
def HIF.LEDGER_CU_CAP : Nat := 0x80010
def HIF.LEDGER_CU_CAP_UNITS : Fld := ⟨HIF.LEDGER_CU_CAP, 0, 24⟩
/-- HIF.LEDGER_CU_USED (R225). -/
def HIF.LEDGER_CU_USED : Nat := 0x80014
def HIF.LEDGER_CU_USED_UNITS : Fld := ⟨HIF.LEDGER_CU_USED, 0, 24⟩
/-- HIF.LEDGER_SU_CAP (R225). -/
def HIF.LEDGER_SU_CAP : Nat := 0x80018
def HIF.LEDGER_SU_CAP_UNITS : Fld := ⟨HIF.LEDGER_SU_CAP, 0, 24⟩
/-- HIF.LEDGER_SU_USED (R225). -/
def HIF.LEDGER_SU_USED : Nat := 0x8001C
def HIF.LEDGER_SU_USED_UNITS : Fld := ⟨HIF.LEDGER_SU_USED, 0, 24⟩
/-- HIF.VEC_PEND (R225). -/
def HIF.VEC_PEND (i : Nat) : Nat := 0x80020 + 0x4 * i
def HIF.VEC_PEND_VECTOR (i : Nat) : Fld := ⟨HIF.VEC_PEND i, 0, 32⟩
/-- HIF.VEC_LATE (R225). -/
def HIF.VEC_LATE (i : Nat) : Nat := 0x80028 + 0x4 * i
def HIF.VEC_LATE_VECTOR (i : Nat) : Fld := ⟨HIF.VEC_LATE i, 0, 32⟩
/-- HIF.EVT_LOST (R225). -/
def HIF.EVT_LOST : Nat := 0x80030
def HIF.EVT_LOST_COUNT : Fld := ⟨HIF.EVT_LOST, 0, 32⟩
/-- HIF.MSIX_MOD (R225). -/
def HIF.MSIX_MOD (i : Nat) : Nat := 0x80800 + 0x4 * i
def HIF.MSIX_MOD_HOLD (i : Nat) : Fld := ⟨HIF.MSIX_MOD i, 16, 10⟩
def HIF.MSIX_MOD_COUNT (i : Nat) : Fld := ⟨HIF.MSIX_MOD i, 0, 8⟩
/-- HIF.RP_SQ_BASE_LO (R225). -/
def HIF.RP_SQ_BASE_LO (i : Nat) : Nat := 0x81000 + 0x40 * i
def HIF.RP_SQ_BASE_LO_ADDR (i : Nat) : Fld := ⟨HIF.RP_SQ_BASE_LO i, 0, 32⟩
/-- HIF.RP_SQ_BASE_HI (R225). -/
def HIF.RP_SQ_BASE_HI (i : Nat) : Nat := 0x81004 + 0x40 * i
def HIF.RP_SQ_BASE_HI_ADDR (i : Nat) : Fld := ⟨HIF.RP_SQ_BASE_HI i, 0, 32⟩
/-- HIF.RP_RQ_BASE_LO (R225). -/
def HIF.RP_RQ_BASE_LO (i : Nat) : Nat := 0x81008 + 0x40 * i
def HIF.RP_RQ_BASE_LO_ADDR (i : Nat) : Fld := ⟨HIF.RP_RQ_BASE_LO i, 0, 32⟩
/-- HIF.RP_RQ_BASE_HI (R225). -/
def HIF.RP_RQ_BASE_HI (i : Nat) : Nat := 0x8100C + 0x40 * i
def HIF.RP_RQ_BASE_HI_ADDR (i : Nat) : Fld := ⟨HIF.RP_RQ_BASE_HI i, 0, 32⟩
/-- HIF.RP_CFG (R225). -/
def HIF.RP_CFG (i : Nat) : Nat := 0x81010 + 0x40 * i
def HIF.RP_CFG_ASID (i : Nat) : Fld := ⟨HIF.RP_CFG i, 17, 8⟩
def HIF.RP_CFG_VECTOR (i : Nat) : Fld := ⟨HIF.RP_CFG i, 11, 6⟩
def HIF.RP_CFG_RQ_LOG2 (i : Nat) : Fld := ⟨HIF.RP_CFG i, 6, 5⟩
def HIF.RP_CFG_SQ_LOG2 (i : Nat) : Fld := ⟨HIF.RP_CFG i, 1, 5⟩
def HIF.RP_CFG_ENABLE (i : Nat) : Fld := ⟨HIF.RP_CFG i, 0, 1⟩
/-- HIF.RP_STAT (R225). -/
def HIF.RP_STAT (i : Nat) : Nat := 0x81014 + 0x40 * i
def HIF.RP_STAT_BUSY (i : Nat) : Fld := ⟨HIF.RP_STAT i, 19, 1⟩
def HIF.RP_STAT_NOT_VISIBLE (i : Nat) : Fld := ⟨HIF.RP_STAT i, 18, 1⟩
def HIF.RP_STAT_SQ_PHASE (i : Nat) : Fld := ⟨HIF.RP_STAT i, 16, 1⟩
def HIF.RP_STAT_SQ_HEAD (i : Nat) : Fld := ⟨HIF.RP_STAT i, 0, 16⟩
/-- HIF.RP_RQ_STAT (R225). -/
def HIF.RP_RQ_STAT (i : Nat) : Nat := 0x81018 + 0x40 * i
def HIF.RP_RQ_STAT_RQ_PHASE (i : Nat) : Fld := ⟨HIF.RP_RQ_STAT i, 27, 1⟩
def HIF.RP_RQ_STAT_PENDING (i : Nat) : Fld := ⟨HIF.RP_RQ_STAT i, 16, 11⟩
def HIF.RP_RQ_STAT_RQ_TAIL (i : Nat) : Fld := ⟨HIF.RP_RQ_STAT i, 0, 16⟩
/-- HIF.MSIX_ADDR_LO (R210). -/
def HIF.MSIX_ADDR_LO (i : Nat) : Nat := 0x84000 + 0x10 * i
def HIF.MSIX_ADDR_LO_ADDR (i : Nat) : Fld := ⟨HIF.MSIX_ADDR_LO i, 2, 30⟩
/-- HIF.MSIX_ADDR_HI (R210). -/
def HIF.MSIX_ADDR_HI (i : Nat) : Nat := 0x84004 + 0x10 * i
def HIF.MSIX_ADDR_HI_ADDR (i : Nat) : Fld := ⟨HIF.MSIX_ADDR_HI i, 0, 32⟩
/-- HIF.MSIX_DATA (R210). -/
def HIF.MSIX_DATA (i : Nat) : Nat := 0x84008 + 0x10 * i
def HIF.MSIX_DATA_DATA (i : Nat) : Fld := ⟨HIF.MSIX_DATA i, 0, 32⟩
/-- HIF.MSIX_CTL (R210). -/
def HIF.MSIX_CTL (i : Nat) : Nat := 0x8400C + 0x10 * i
def HIF.MSIX_CTL_MASK (i : Nat) : Fld := ⟨HIF.MSIX_CTL i, 0, 1⟩
/-- HIF.MSIX_PBA (R210). -/
def HIF.MSIX_PBA (i : Nat) : Nat := 0x85000 + 0x4 * i
def HIF.MSIX_PBA_PENDING (i : Nat) : Fld := ⟨HIF.MSIX_PBA i, 0, 32⟩

/-! ### ICU -/

/-- ICU.ICU_STAT (R434). -/
def ICU.ICU_STAT : Nat := 0x90000
def ICU.ICU_STAT_SPARE_LEFT : Fld := ⟨ICU.ICU_STAT, 4, 1⟩
def ICU.ICU_STAT_REQ : Fld := ⟨ICU.ICU_STAT, 0, 4⟩
/-- ICU.ICU_ERR (R434). -/
def ICU.ICU_ERR : Nat := 0x90004
def ICU.ICU_ERR_TARGET_BUSY : Fld := ⟨ICU.ICU_ERR, 16, 16⟩
def ICU.ICU_ERR_BAD_COMPLETE : Fld := ⟨ICU.ICU_ERR, 0, 16⟩
/-- ICU.SWSET (R434). -/
def ICU.SWSET : Nat := 0x90008
def ICU.SWSET_SET : Fld := ⟨ICU.SWSET, 0, 1⟩
/-- ICU.ALARM_EVT (R434). -/
def ICU.ALARM_EVT : Nat := 0x9000C
def ICU.ALARM_EVT_EN : Fld := ⟨ICU.ALARM_EVT, 6, 1⟩
def ICU.ALARM_EVT_RING : Fld := ⟨ICU.ALARM_EVT, 0, 6⟩
/-- ICU.THRESHOLD (R434). -/
def ICU.THRESHOLD (i : Nat) : Nat := 0x90010 + 0x4 * i
def ICU.THRESHOLD_LEVEL (i : Nat) : Fld := ⟨ICU.THRESHOLD i, 0, 4⟩
/-- ICU.HARTMAP0 (R434). -/
def ICU.HARTMAP0 : Nat := 0x90020
def ICU.HARTMAP0_PAIR : Fld := ⟨ICU.HARTMAP0, 0, 3⟩
/-- ICU.HARTMAP1 (R434). -/
def ICU.HARTMAP1 : Nat := 0x90024
def ICU.HARTMAP1_PAIR : Fld := ⟨ICU.HARTMAP1, 0, 3⟩
/-- ICU.HARTMAP2 (R434). -/
def ICU.HARTMAP2 : Nat := 0x90028
def ICU.HARTMAP2_PAIR : Fld := ⟨ICU.HARTMAP2, 0, 3⟩
/-- ICU.HARTMAP3 (R434). -/
def ICU.HARTMAP3 : Nat := 0x9002C
def ICU.HARTMAP3_PAIR : Fld := ⟨ICU.HARTMAP3, 0, 3⟩
/-- ICU.EFFECTIVE (R434). -/
def ICU.EFFECTIVE (i : Nat) : Nat := 0x90030 + 0x4 * i
def ICU.EFFECTIVE_TOP (i : Nat) : Fld := ⟨ICU.EFFECTIVE i, 16, 8⟩
def ICU.EFFECTIVE_DEPTH (i : Nat) : Fld := ⟨ICU.EFFECTIVE i, 8, 4⟩
def ICU.EFFECTIVE_LEVEL (i : Nat) : Fld := ⟨ICU.EFFECTIVE i, 0, 4⟩
/-- ICU.MTIMECMP_LO (R434). -/
def ICU.MTIMECMP_LO (i : Nat) : Nat := 0x90040 + 0x8 * i
def ICU.MTIMECMP_LO_VALUE (i : Nat) : Fld := ⟨ICU.MTIMECMP_LO i, 0, 32⟩
/-- ICU.MTIMECMP_HI (R434). -/
def ICU.MTIMECMP_HI (i : Nat) : Nat := 0x90044 + 0x8 * i
def ICU.MTIMECMP_HI_VALUE (i : Nat) : Fld := ⟨ICU.MTIMECMP_HI i, 0, 32⟩
/-- ICU.SRC (R434). -/
def ICU.SRC (i : Nat) : Nat := 0x90404 + 0x4 * i
def ICU.SRC_PENDING (i : Nat) : Fld := ⟨ICU.SRC i, 31, 1⟩
def ICU.SRC_CLAIMED (i : Nat) : Fld := ⟨ICU.SRC i, 30, 1⟩
def ICU.SRC_TARGET (i : Nat) : Fld := ⟨ICU.SRC i, 8, 2⟩
def ICU.SRC_PRIORITY (i : Nat) : Fld := ⟨ICU.SRC i, 0, 4⟩
/-- ICU.QSRC (R434). -/
def ICU.QSRC (i : Nat) : Nat := 0x90800 + 0x4 * i
def ICU.QSRC_EN (i : Nat) : Fld := ⟨ICU.QSRC i, 31, 1⟩
def ICU.QSRC_QUEUE (i : Nat) : Fld := ⟨ICU.QSRC i, 0, 12⟩

/-! ### MMU -/

/-- MMU.MMU_STAT (R381). -/
def MMU.MMU_STAT : Nat := 0xA0000
def MMU.MMU_STAT_TIMEOUT : Fld := ⟨MMU.MMU_STAT, 11, 1⟩
def MMU.MMU_STAT_BAD_ID : Fld := ⟨MMU.MMU_STAT, 10, 1⟩
def MMU.MMU_STAT_INV_DROPPED : Fld := ⟨MMU.MMU_STAT, 9, 1⟩
def MMU.MMU_STAT_INV_BUSY : Fld := ⟨MMU.MMU_STAT, 8, 1⟩
def MMU.MMU_STAT_FLT_COUNT : Fld := ⟨MMU.MMU_STAT, 0, 7⟩
/-- MMU.FLT_CFG (R381). -/
def MMU.FLT_CFG : Nat := 0xA0004
def MMU.FLT_CFG_TIMEOUT_US : Fld := ⟨MMU.FLT_CFG, 0, 16⟩
/-- MMU.HWIN_BASE_LO (R381). -/
def MMU.HWIN_BASE_LO : Nat := 0xA0008
def MMU.HWIN_BASE_LO_ADDR : Fld := ⟨MMU.HWIN_BASE_LO, 12, 20⟩
/-- MMU.HWIN_BASE_HI (R381). -/
def MMU.HWIN_BASE_HI : Nat := 0xA000C
def MMU.HWIN_BASE_HI_ADDR : Fld := ⟨MMU.HWIN_BASE_HI, 0, 32⟩
/-- MMU.HWIN_SIZE (R381). -/
def MMU.HWIN_SIZE : Nat := 0xA0010
def MMU.HWIN_SIZE_GIB : Fld := ⟨MMU.HWIN_SIZE, 0, 17⟩
/-- MMU.DENY_COUNT (R381). -/
def MMU.DENY_COUNT : Nat := 0xA0014
def MMU.DENY_COUNT_COUNT : Fld := ⟨MMU.DENY_COUNT, 0, 32⟩
/-- MMU.INV_CTL (R381). -/
def MMU.INV_CTL : Nat := 0xA0020
def MMU.INV_CTL_ASID : Fld := ⟨MMU.INV_CTL, 8, 8⟩
def MMU.INV_CTL_SCOPE : Fld := ⟨MMU.INV_CTL, 0, 2⟩
/-- MMU.INV_VA_LO (R381). -/
def MMU.INV_VA_LO : Nat := 0xA0024
def MMU.INV_VA_LO_VA : Fld := ⟨MMU.INV_VA_LO, 12, 20⟩
/-- MMU.INV_VA_HI (R381). -/
def MMU.INV_VA_HI : Nat := 0xA0028
def MMU.INV_VA_HI_VA : Fld := ⟨MMU.INV_VA_HI, 0, 16⟩
/-- MMU.FLT_INFO (R381). -/
def MMU.FLT_INFO : Nat := 0xA0040
def MMU.FLT_INFO_VALID : Fld := ⟨MMU.FLT_INFO, 31, 1⟩
def MMU.FLT_INFO_WRITE : Fld := ⟨MMU.FLT_INFO, 30, 1⟩
def MMU.FLT_INFO_KIND : Fld := ⟨MMU.FLT_INFO, 26, 4⟩
def MMU.FLT_INFO_LEVEL : Fld := ⟨MMU.FLT_INFO, 24, 2⟩
def MMU.FLT_INFO_UNIT : Fld := ⟨MMU.FLT_INFO, 12, 12⟩
def MMU.FLT_INFO_ID : Fld := ⟨MMU.FLT_INFO, 0, 8⟩
/-- MMU.FLT_VA_LO (R381). -/
def MMU.FLT_VA_LO : Nat := 0xA0044
def MMU.FLT_VA_LO_VA : Fld := ⟨MMU.FLT_VA_LO, 0, 32⟩
/-- MMU.FLT_VA_HI (R381). -/
def MMU.FLT_VA_HI : Nat := 0xA0048
def MMU.FLT_VA_HI_ASID : Fld := ⟨MMU.FLT_VA_HI, 24, 8⟩
def MMU.FLT_VA_HI_CHANNEL : Fld := ⟨MMU.FLT_VA_HI, 16, 8⟩
def MMU.FLT_VA_HI_VA : Fld := ⟨MMU.FLT_VA_HI, 0, 16⟩
/-- MMU.FLT_CTL (R381). -/
def MMU.FLT_CTL : Nat := 0xA004C
def MMU.FLT_CTL_ACTION : Fld := ⟨MMU.FLT_CTL, 30, 2⟩
def MMU.FLT_CTL_ID : Fld := ⟨MMU.FLT_CTL, 0, 8⟩
/-- MMU.PMAP (R381). -/
def MMU.PMAP (i : Nat) : Nat := 0xA0080 + 0x4 * i
def MMU.PMAP_MAP (i : Nat) : Fld := ⟨MMU.PMAP i, 0, 20⟩
/-- MMU.GRANT (R381). -/
def MMU.GRANT (i : Nat) : Nat := 0xA0400 + 0x4 * i
def MMU.GRANT_FENCED (i : Nat) : Fld := ⟨MMU.GRANT i, 31, 1⟩
def MMU.GRANT_VALID (i : Nat) : Fld := ⟨MMU.GRANT i, 8, 1⟩
def MMU.GRANT_ASID (i : Nat) : Fld := ⟨MMU.GRANT i, 0, 8⟩
/-- MMU.CTX_LO (R381). -/
def MMU.CTX_LO (i : Nat) : Nat := 0xA1000 + 0x8 * i
def MMU.CTX_LO_ROOT (i : Nat) : Fld := ⟨MMU.CTX_LO i, 12, 20⟩
def MMU.CTX_LO_VALID (i : Nat) : Fld := ⟨MMU.CTX_LO i, 0, 1⟩
/-- MMU.CTX_HI (R381). -/
def MMU.CTX_HI (i : Nat) : Nat := 0xA1004 + 0x8 * i
def MMU.CTX_HI_ROOT (i : Nat) : Fld := ⟨MMU.CTX_HI i, 0, 16⟩

/-! ### DMA -/

/-- DMA.DMA_STAT (R382). -/
def DMA.DMA_STAT : Nat := 0xB0000
def DMA.DMA_STAT_CHANNELS : Fld := ⟨DMA.DMA_STAT, 0, 32⟩
/-- DMA.DMA_ERR (R382). -/
def DMA.DMA_ERR : Nat := 0xB0004
def DMA.DMA_ERR_CHANNELS : Fld := ⟨DMA.DMA_ERR, 0, 32⟩
/-- DMA.REQ_SW (R382). -/
def DMA.REQ_SW : Nat := 0xB0008
def DMA.REQ_SW_LINE : Fld := ⟨DMA.REQ_SW, 0, 6⟩
/-- DMA.REQ_COUNT (R382). -/
def DMA.REQ_COUNT (i : Nat) : Nat := 0xB0100 + 0x4 * i
def DMA.REQ_COUNT_COUNT (i : Nat) : Fld := ⟨DMA.REQ_COUNT i, 0, 16⟩
/-- DMA.CFG (R382). -/
def DMA.CFG (i : Nat) : Nat := 0xB1000 + 0x40 * i
def DMA.CFG_PRIORITY (i : Nat) : Fld := ⟨DMA.CFG i, 8, 2⟩
def DMA.CFG_ASID (i : Nat) : Fld := ⟨DMA.CFG i, 0, 8⟩
/-- DMA.CTL (R382). -/
def DMA.CTL (i : Nat) : Nat := 0xB1004 + 0x40 * i
def DMA.CTL_RESUME (i : Nat) : Fld := ⟨DMA.CTL i, 3, 1⟩
def DMA.CTL_PAUSE (i : Nat) : Fld := ⟨DMA.CTL i, 2, 1⟩
def DMA.CTL_STOP (i : Nat) : Fld := ⟨DMA.CTL i, 1, 1⟩
def DMA.CTL_START (i : Nat) : Fld := ⟨DMA.CTL i, 0, 1⟩
/-- DMA.STAT (R382). -/
def DMA.STAT (i : Nat) : Nat := 0xB1008 + 0x40 * i
def DMA.STAT_LAST_STATUS (i : Nat) : Fld := ⟨DMA.STAT i, 24, 8⟩
def DMA.STAT_STOPPED (i : Nat) : Fld := ⟨DMA.STAT i, 17, 1⟩
def DMA.STAT_DONE (i : Nat) : Fld := ⟨DMA.STAT i, 16, 1⟩
def DMA.STAT_PAUSING (i : Nat) : Fld := ⟨DMA.STAT i, 3, 1⟩
def DMA.STAT_STATE (i : Nat) : Fld := ⟨DMA.STAT i, 0, 3⟩
/-- DMA.HEAD_LO (R382). -/
def DMA.HEAD_LO (i : Nat) : Nat := 0xB100C + 0x40 * i
def DMA.HEAD_LO_VA (i : Nat) : Fld := ⟨DMA.HEAD_LO i, 6, 26⟩
/-- DMA.HEAD_HI (R382). -/
def DMA.HEAD_HI (i : Nat) : Nat := 0xB1010 + 0x40 * i
def DMA.HEAD_HI_VA (i : Nat) : Fld := ⟨DMA.HEAD_HI i, 0, 16⟩
/-- DMA.CUR_LO (R382). -/
def DMA.CUR_LO (i : Nat) : Nat := 0xB1014 + 0x40 * i
def DMA.CUR_LO_VA (i : Nat) : Fld := ⟨DMA.CUR_LO i, 6, 26⟩
/-- DMA.CUR_HI (R382). -/
def DMA.CUR_HI (i : Nat) : Nat := 0xB1018 + 0x40 * i
def DMA.CUR_HI_VA (i : Nat) : Fld := ⟨DMA.CUR_HI i, 0, 16⟩
/-- DMA.SRC_LO (R382). -/
def DMA.SRC_LO (i : Nat) : Nat := 0xB101C + 0x40 * i
def DMA.SRC_LO_VA (i : Nat) : Fld := ⟨DMA.SRC_LO i, 0, 32⟩
/-- DMA.SRC_HI (R382). -/
def DMA.SRC_HI (i : Nat) : Nat := 0xB1020 + 0x40 * i
def DMA.SRC_HI_VA (i : Nat) : Fld := ⟨DMA.SRC_HI i, 0, 32⟩
/-- DMA.DST_LO (R382). -/
def DMA.DST_LO (i : Nat) : Nat := 0xB1024 + 0x40 * i
def DMA.DST_LO_VA (i : Nat) : Fld := ⟨DMA.DST_LO i, 0, 32⟩
/-- DMA.DST_HI (R382). -/
def DMA.DST_HI (i : Nat) : Nat := 0xB1028 + 0x40 * i
def DMA.DST_HI_VA (i : Nat) : Fld := ⟨DMA.DST_HI i, 0, 16⟩
/-- DMA.REMAIN (R382). -/
def DMA.REMAIN (i : Nat) : Nat := 0xB102C + 0x40 * i
def DMA.REMAIN_COUNT (i : Nat) : Fld := ⟨DMA.REMAIN i, 0, 32⟩
/-- DMA.SLIPS (R382). -/
def DMA.SLIPS (i : Nat) : Nat := 0xB1030 + 0x40 * i
def DMA.SLIPS_COUNT (i : Nat) : Fld := ⟨DMA.SLIPS i, 0, 32⟩

/-! ### STK -/

/-- STK.STK_STAT (R405). -/
def STK.STK_STAT : Nat := 0xC0000
def STK.STK_STAT_CELLS : Fld := ⟨STK.STK_STAT, 0, 18⟩
/-- STK.STK_ERR (R405). -/
def STK.STK_ERR : Nat := 0xC0004
def STK.STK_ERR_TRUNCATED : Fld := ⟨STK.STK_ERR, 16, 16⟩
def STK.STK_ERR_REFUSED : Fld := ⟨STK.STK_ERR, 0, 16⟩
/-- STK.BANK_FREE (R405). -/
def STK.BANK_FREE (i : Nat) : Nat := 0xC0020 + 0x4 * i
def STK.BANK_FREE_CELLS (i : Nat) : Fld := ⟨STK.BANK_FREE i, 0, 18⟩
/-- STK.QSEL (R405). -/
def STK.QSEL : Nat := 0xC0100
def STK.QSEL_QUEUE : Fld := ⟨STK.QSEL, 0, 12⟩
/-- STK.Q_CFG (R405). -/
def STK.Q_CFG : Nat := 0xC0104
def STK.Q_CFG_BANKS : Fld := ⟨STK.Q_CFG, 8, 8⟩
def STK.Q_CFG_CLASS : Fld := ⟨STK.Q_CFG, 1, 2⟩
def STK.Q_CFG_ENABLE : Fld := ⟨STK.Q_CFG, 0, 1⟩
/-- STK.Q_LIMIT (R405). -/
def STK.Q_LIMIT : Nat := 0xC0108
def STK.Q_LIMIT_ITEMS : Fld := ⟨STK.Q_LIMIT, 0, 16⟩
/-- STK.Q_WMARK (R405). -/
def STK.Q_WMARK : Nat := 0xC010C
def STK.Q_WMARK_HIGH : Fld := ⟨STK.Q_WMARK, 16, 16⟩
def STK.Q_WMARK_LOW : Fld := ⟨STK.Q_WMARK, 0, 16⟩
/-- STK.Q_TIMEOUT (R405). -/
def STK.Q_TIMEOUT : Nat := 0xC0110
def STK.Q_TIMEOUT_US : Fld := ⟨STK.Q_TIMEOUT, 0, 14⟩
/-- STK.Q_GRANT (R405). -/
def STK.Q_GRANT : Nat := 0xC0114
def STK.Q_GRANT_PRODUCER : Fld := ⟨STK.Q_GRANT, 16, 12⟩
def STK.Q_GRANT_CONSUMER : Fld := ⟨STK.Q_GRANT, 0, 12⟩
/-- STK.Q_STAT (R405). -/
def STK.Q_STAT : Nat := 0xC0118
def STK.Q_STAT_OPEN_ITEM : Fld := ⟨STK.Q_STAT, 31, 1⟩
def STK.Q_STAT_TRIPPED : Fld := ⟨STK.Q_STAT, 30, 1⟩
def STK.Q_STAT_EMPTY : Fld := ⟨STK.Q_STAT, 28, 1⟩
def STK.Q_STAT_CLAIMED : Fld := ⟨STK.Q_STAT, 16, 5⟩
def STK.Q_STAT_DEPTH : Fld := ⟨STK.Q_STAT, 0, 16⟩
/-- STK.Q_CTL (R405). -/
def STK.Q_CTL : Nat := 0xC011C
def STK.Q_CTL_FLUSH : Fld := ⟨STK.Q_CTL, 0, 1⟩
/-- STK.Q_CELLS (R405). -/
def STK.Q_CELLS : Nat := 0xC0120
def STK.Q_CELLS_CELLS : Fld := ⟨STK.Q_CELLS, 0, 18⟩

/-! ### LND -/

/-- LND.LND_STAT (R406). -/
def LND.LND_STAT : Nat := 0xD0000
def LND.LND_STAT_ORPHANS : Fld := ⟨LND.LND_STAT, 16, 16⟩
def LND.LND_STAT_ENABLED : Fld := ⟨LND.LND_STAT, 0, 16⟩
/-- LND.LND_ERR (R406). -/
def LND.LND_ERR : Nat := 0xD0004
def LND.LND_ERR_DOUBLE_RELEASE : Fld := ⟨LND.LND_ERR, 16, 16⟩
def LND.LND_ERR_BAD_SHARE : Fld := ⟨LND.LND_ERR, 0, 16⟩
/-- LND.ORPHAN_HEAD (R406). -/
def LND.ORPHAN_HEAD : Nat := 0xD0008
def LND.ORPHAN_HEAD_VALUE : Fld := ⟨LND.ORPHAN_HEAD, 0, 32⟩
/-- LND.ORPHAN_CTL (R406). -/
def LND.ORPHAN_CTL : Nat := 0xD000C
def LND.ORPHAN_CTL_RECLAIM : Fld := ⟨LND.ORPHAN_CTL, 0, 1⟩
/-- LND.POOL_CFG (R406). -/
def LND.POOL_CFG (i : Nat) : Nat := 0xD0100 + 0x40 * i
def LND.POOL_CFG_FALLBACK (i : Nat) : Fld := ⟨LND.POOL_CFG i, 8, 4⟩
def LND.POOL_CFG_SIZE_LOG2 (i : Nat) : Fld := ⟨LND.POOL_CFG i, 0, 5⟩
/-- LND.POOL_BASE_LO (R406). -/
def LND.POOL_BASE_LO (i : Nat) : Nat := 0xD0104 + 0x40 * i
def LND.POOL_BASE_LO_ADDR (i : Nat) : Fld := ⟨LND.POOL_BASE_LO i, 0, 32⟩
/-- LND.POOL_BASE_HI (R406). -/
def LND.POOL_BASE_HI (i : Nat) : Nat := 0xD0108 + 0x40 * i
def LND.POOL_BASE_HI_ADDR (i : Nat) : Fld := ⟨LND.POOL_BASE_HI i, 0, 16⟩
/-- LND.POOL_COUNT (R406). -/
def LND.POOL_COUNT (i : Nat) : Nat := 0xD010C + 0x40 * i
def LND.POOL_COUNT_COUNT (i : Nat) : Fld := ⟨LND.POOL_COUNT i, 0, 27⟩
/-- LND.POOL_RING_LO (R406). -/
def LND.POOL_RING_LO (i : Nat) : Nat := 0xD0110 + 0x40 * i
def LND.POOL_RING_LO_ADDR (i : Nat) : Fld := ⟨LND.POOL_RING_LO i, 0, 32⟩
/-- LND.POOL_RING_HI (R406). -/
def LND.POOL_RING_HI (i : Nat) : Nat := 0xD0114 + 0x40 * i
def LND.POOL_RING_HI_ADDR (i : Nat) : Fld := ⟨LND.POOL_RING_HI i, 0, 16⟩
/-- LND.POOL_CTL (R406). -/
def LND.POOL_CTL (i : Nat) : Nat := 0xD0118 + 0x40 * i
def LND.POOL_CTL_DISABLE (i : Nat) : Fld := ⟨LND.POOL_CTL i, 1, 1⟩
def LND.POOL_CTL_INIT (i : Nat) : Fld := ⟨LND.POOL_CTL i, 0, 1⟩
/-- LND.POOL_STAT (R406). -/
def LND.POOL_STAT (i : Nat) : Nat := 0xD011C + 0x40 * i
def LND.POOL_STAT_ENABLED (i : Nat) : Fld := ⟨LND.POOL_STAT i, 31, 1⟩
def LND.POOL_STAT_INIT_BUSY (i : Nat) : Fld := ⟨LND.POOL_STAT i, 30, 1⟩
def LND.POOL_STAT_INIT_REFUSED (i : Nat) : Fld := ⟨LND.POOL_STAT i, 29, 1⟩
def LND.POOL_STAT_CACHED (i : Nat) : Fld := ⟨LND.POOL_STAT i, 0, 6⟩
/-- LND.POOL_FREE (R406). -/
def LND.POOL_FREE (i : Nat) : Nat := 0xD0120 + 0x40 * i
def LND.POOL_FREE_COUNT (i : Nat) : Fld := ⟨LND.POOL_FREE i, 0, 27⟩
/-- LND.POOL_LOW (R406). -/
def LND.POOL_LOW (i : Nat) : Nat := 0xD0124 + 0x40 * i
def LND.POOL_LOW_COUNT (i : Nat) : Fld := ⟨LND.POOL_LOW i, 0, 27⟩
/-- LND.POOL_FALLBACKS (R406). -/
def LND.POOL_FALLBACKS (i : Nat) : Nat := 0xD0128 + 0x40 * i
def LND.POOL_FALLBACKS_COUNT (i : Nat) : Fld := ⟨LND.POOL_FALLBACKS i, 0, 32⟩
/-- LND.POOL_EMPTY (R406). -/
def LND.POOL_EMPTY (i : Nat) : Nat := 0xD012C + 0x40 * i
def LND.POOL_EMPTY_COUNT (i : Nat) : Fld := ⟨LND.POOL_EMPTY i, 0, 32⟩

/-! ### DRC -/

/-- DRC.DRC_STAT (R355). -/
def DRC.DRC_STAT : Nat := 0xE0000
def DRC.DRC_STAT_FAIL : Fld := ⟨DRC.DRC_STAT, 10, 8⟩
def DRC.DRC_STAT_ENABLED : Fld := ⟨DRC.DRC_STAT, 2, 8⟩
def DRC.DRC_STAT_TRAINING : Fld := ⟨DRC.DRC_STAT, 1, 1⟩
def DRC.DRC_STAT_READY : Fld := ⟨DRC.DRC_STAT, 0, 1⟩
/-- DRC.DRC_CFG (R355). -/
def DRC.DRC_CFG : Nat := 0xE0004
def DRC.DRC_CFG_USABLE_MIB : Fld := ⟨DRC.DRC_CFG, 16, 16⟩
def DRC.DRC_CFG_DENSITY : Fld := ⟨DRC.DRC_CFG, 6, 2⟩
def DRC.DRC_CFG_RANKS : Fld := ⟨DRC.DRC_CFG, 4, 2⟩
def DRC.DRC_CFG_RATE : Fld := ⟨DRC.DRC_CFG, 0, 2⟩
/-- DRC.SCHED_CFG (R355). -/
def DRC.SCHED_CFG : Nat := 0xE0008
def DRC.SCHED_CFG_WR_LOW : Fld := ⟨DRC.SCHED_CFG, 24, 6⟩
def DRC.SCHED_CFG_WR_HIGH : Fld := ⟨DRC.SCHED_CFG, 16, 6⟩
def DRC.SCHED_CFG_AGE_CAP : Fld := ⟨DRC.SCHED_CFG, 0, 7⟩
/-- DRC.RH_CFG (R355). -/
def DRC.RH_CFG : Nat := 0xE000C
def DRC.RH_CFG_THRESHOLD : Fld := ⟨DRC.RH_CFG, 0, 15⟩
/-- DRC.CH_STAT (R355). -/
def DRC.CH_STAT (i : Nat) : Nat := 0xE0100 + 0x40 * i
def DRC.CH_STAT_REFRESH_RATE (i : Nat) : Fld := ⟨DRC.CH_STAT i, 8, 4⟩
def DRC.CH_STAT_HOT (i : Nat) : Fld := ⟨DRC.CH_STAT i, 2, 1⟩
def DRC.CH_STAT_SELF_REFRESH (i : Nat) : Fld := ⟨DRC.CH_STAT i, 1, 1⟩
def DRC.CH_STAT_TRAINED (i : Nat) : Fld := ⟨DRC.CH_STAT i, 0, 1⟩
/-- DRC.CH_AGE_MAX (R355). -/
def DRC.CH_AGE_MAX (i : Nat) : Nat := 0xE0104 + 0x40 * i
def DRC.CH_AGE_MAX_COUNT (i : Nat) : Fld := ⟨DRC.CH_AGE_MAX i, 0, 32⟩
/-- DRC.CH_FWD (R355). -/
def DRC.CH_FWD (i : Nat) : Nat := 0xE0108 + 0x40 * i
def DRC.CH_FWD_COUNT (i : Nat) : Fld := ⟨DRC.CH_FWD i, 0, 32⟩
/-- DRC.CH_RMW (R355). -/
def DRC.CH_RMW (i : Nat) : Nat := 0xE010C + 0x40 * i
def DRC.CH_RMW_COUNT (i : Nat) : Fld := ⟨DRC.CH_RMW i, 0, 32⟩
/-- DRC.CH_RH (R355). -/
def DRC.CH_RH (i : Nat) : Nat := 0xE0110 + 0x40 * i
def DRC.CH_RH_COUNT (i : Nat) : Fld := ⟨DRC.CH_RH i, 0, 32⟩
/-- DRC.CH_RFM (R355). -/
def DRC.CH_RFM (i : Nat) : Nat := 0xE0114 + 0x40 * i
def DRC.CH_RFM_COUNT (i : Nat) : Fld := ⟨DRC.CH_RFM i, 0, 32⟩
/-- DRC.CH_RD_CENTRE (R355). -/
def DRC.CH_RD_CENTRE (i : Nat) : Nat := 0xE0118 + 0x40 * i
def DRC.CH_RD_CENTRE_EYE1 (i : Nat) : Fld := ⟨DRC.CH_RD_CENTRE i, 24, 8⟩
def DRC.CH_RD_CENTRE_EYE0 (i : Nat) : Fld := ⟨DRC.CH_RD_CENTRE i, 16, 8⟩
def DRC.CH_RD_CENTRE_TAP1 (i : Nat) : Fld := ⟨DRC.CH_RD_CENTRE i, 8, 8⟩
def DRC.CH_RD_CENTRE_TAP0 (i : Nat) : Fld := ⟨DRC.CH_RD_CENTRE i, 0, 8⟩
/-- DRC.CH_WR_CENTRE (R355). -/
def DRC.CH_WR_CENTRE (i : Nat) : Nat := 0xE011C + 0x40 * i
def DRC.CH_WR_CENTRE_EYE1 (i : Nat) : Fld := ⟨DRC.CH_WR_CENTRE i, 24, 8⟩
def DRC.CH_WR_CENTRE_EYE0 (i : Nat) : Fld := ⟨DRC.CH_WR_CENTRE i, 16, 8⟩
def DRC.CH_WR_CENTRE_TAP1 (i : Nat) : Fld := ⟨DRC.CH_WR_CENTRE i, 8, 8⟩
def DRC.CH_WR_CENTRE_TAP0 (i : Nat) : Fld := ⟨DRC.CH_WR_CENTRE i, 0, 8⟩

/-! ### MPR -/

/-- MPR.MPR_STAT (R356). -/
def MPR.MPR_STAT : Nat := 0xF0000
def MPR.MPR_STAT_OVERFLOW : Fld := ⟨MPR.MPR_STAT, 16, 16⟩
def MPR.MPR_STAT_VALID_COUNT : Fld := ⟨MPR.MPR_STAT, 0, 5⟩
/-- MPR.SCRUB_CTL (R356). -/
def MPR.SCRUB_CTL : Nat := 0xF0010
def MPR.SCRUB_CTL_MAX_MBPS : Fld := ⟨MPR.SCRUB_CTL, 8, 22⟩
def MPR.SCRUB_CTL_STACKS : Fld := ⟨MPR.SCRUB_CTL, 1, 1⟩
def MPR.SCRUB_CTL_DRAM : Fld := ⟨MPR.SCRUB_CTL, 0, 1⟩
/-- MPR.SCRUB_STAT (R356). -/
def MPR.SCRUB_STAT : Nat := 0xF0014
def MPR.SCRUB_STAT_LAPS : Fld := ⟨MPR.SCRUB_STAT, 16, 16⟩
def MPR.SCRUB_STAT_SLOW : Fld := ⟨MPR.SCRUB_STAT, 1, 1⟩
def MPR.SCRUB_STAT_RUNNING : Fld := ⟨MPR.SCRUB_STAT, 0, 1⟩
/-- MPR.SCRUB_LAP_MS (R356). -/
def MPR.SCRUB_LAP_MS : Nat := 0xF0018
def MPR.SCRUB_LAP_MS_VALUE : Fld := ⟨MPR.SCRUB_LAP_MS, 0, 32⟩
/-- MPR.SCRUB_WARN_S (R356). -/
def MPR.SCRUB_WARN_S : Nat := 0xF001C
def MPR.SCRUB_WARN_S_VALUE : Fld := ⟨MPR.SCRUB_WARN_S, 0, 32⟩
/-- MPR.SCRUB_RANGE_BASE (R356). -/
def MPR.SCRUB_RANGE_BASE (i : Nat) : Nat := 0xF0020 + 0x8 * i
def MPR.SCRUB_RANGE_BASE_PAGES (i : Nat) : Fld := ⟨MPR.SCRUB_RANGE_BASE i, 0, 32⟩
/-- MPR.SCRUB_RANGE_PAGES (R356). -/
def MPR.SCRUB_RANGE_PAGES (i : Nat) : Nat := 0xF0024 + 0x8 * i
def MPR.SCRUB_RANGE_PAGES_PAGES (i : Nat) : Fld := ⟨MPR.SCRUB_RANGE_PAGES i, 0, 32⟩
/-- MPR.SCRUB_POS (R356). -/
def MPR.SCRUB_POS : Nat := 0xF0060
def MPR.SCRUB_POS_VALUE : Fld := ⟨MPR.SCRUB_POS, 0, 32⟩
/-- MPR.CORR_DRAM (R356). -/
def MPR.CORR_DRAM (i : Nat) : Nat := 0xF0080 + 0x4 * i
def MPR.CORR_DRAM_COUNT (i : Nat) : Fld := ⟨MPR.CORR_DRAM i, 0, 32⟩
/-- MPR.CORR_STACKS (R356). -/
def MPR.CORR_STACKS (i : Nat) : Nat := 0xF00A0 + 0x4 * i
def MPR.CORR_STACKS_COUNT (i : Nat) : Fld := ⟨MPR.CORR_STACKS i, 0, 32⟩
/-- MPR.CORR_LOCAL (R356). -/
def MPR.CORR_LOCAL : Nat := 0xF00C0
def MPR.CORR_LOCAL_COUNT : Fld := ⟨MPR.CORR_LOCAL, 0, 32⟩
/-- MPR.UNCORR_DRAM (R356). -/
def MPR.UNCORR_DRAM : Nat := 0xF00C4
def MPR.UNCORR_DRAM_COUNT : Fld := ⟨MPR.UNCORR_DRAM, 0, 32⟩
/-- MPR.UNCORR_SRAM (R356). -/
def MPR.UNCORR_SRAM : Nat := 0xF00C8
def MPR.UNCORR_SRAM_COUNT : Fld := ⟨MPR.UNCORR_SRAM, 0, 32⟩
/-- MPR.LOG_ADDR_LO (R356). -/
def MPR.LOG_ADDR_LO (i : Nat) : Nat := 0xF0100 + 0x10 * i
def MPR.LOG_ADDR_LO_ADDR (i : Nat) : Fld := ⟨MPR.LOG_ADDR_LO i, 0, 32⟩
/-- MPR.LOG_ADDR_HI (R356). -/
def MPR.LOG_ADDR_HI (i : Nat) : Nat := 0xF0104 + 0x10 * i
def MPR.LOG_ADDR_HI_VALID (i : Nat) : Fld := ⟨MPR.LOG_ADDR_HI i, 31, 1⟩
def MPR.LOG_ADDR_HI_CHECK_BIT (i : Nat) : Fld := ⟨MPR.LOG_ADDR_HI i, 30, 1⟩
def MPR.LOG_ADDR_HI_UNIT (i : Nat) : Fld := ⟨MPR.LOG_ADDR_HI i, 16, 12⟩
def MPR.LOG_ADDR_HI_ADDR (i : Nat) : Fld := ⟨MPR.LOG_ADDR_HI i, 0, 16⟩
/-- MPR.LOG_BIT (R356). -/
def MPR.LOG_BIT (i : Nat) : Nat := 0xF0108 + 0x10 * i
def MPR.LOG_BIT_REPEATS (i : Nat) : Fld := ⟨MPR.LOG_BIT i, 16, 16⟩
def MPR.LOG_BIT_BIT (i : Nat) : Fld := ⟨MPR.LOG_BIT i, 0, 8⟩
/-- MPR.LOG_FIRST (R356). -/
def MPR.LOG_FIRST (i : Nat) : Nat := 0xF010C + 0x10 * i
def MPR.LOG_FIRST_SECONDS (i : Nat) : Fld := ⟨MPR.LOG_FIRST i, 0, 32⟩

/-! ### ACC -/

/-- ACC.ACC_STAT (R245). -/
def ACC.ACC_STAT : Nat := 0x100000
def ACC.ACC_STAT_PORT_HS : Fld := ⟨ACC.ACC_STAT, 2, 6⟩
def ACC.ACC_STAT_HOLD : Fld := ⟨ACC.ACC_STAT, 0, 2⟩
/-- ACC.HOLD_CTL (R245). -/
def ACC.HOLD_CTL : Nat := 0x100004
def ACC.HOLD_CTL_FORCE : Fld := ⟨ACC.HOLD_CTL, 0, 2⟩
/-- ACC.FRAMES_DROPPED (R245). -/
def ACC.FRAMES_DROPPED : Nat := 0x100008
def ACC.FRAMES_DROPPED_COUNT : Fld := ⟨ACC.FRAMES_DROPPED, 0, 32⟩
/-- ACC.EXTRA_TRIGGERS (R245). -/
def ACC.EXTRA_TRIGGERS : Nat := 0x10000C
def ACC.EXTRA_TRIGGERS_COUNT : Fld := ⟨ACC.EXTRA_TRIGGERS, 0, 32⟩
/-- ACC.PORT_PHY (R245). -/
def ACC.PORT_PHY (i : Nat) : Nat := 0x100100 + 0x20 * i
def ACC.PORT_PHY_INVERT (i : Nat) : Fld := ⟨ACC.PORT_PHY i, 8, 5⟩
def ACC.PORT_PHY_LANE_MAP (i : Nat) : Fld := ⟨ACC.PORT_PHY i, 0, 8⟩
/-- ACC.PORT_STAT (R245). -/
def ACC.PORT_STAT (i : Nat) : Nat := 0x100104 + 0x20 * i
def ACC.PORT_STAT_LANE_SYNC (i : Nat) : Fld := ⟨ACC.PORT_STAT i, 8, 4⟩
def ACC.PORT_STAT_ULPS (i : Nat) : Fld := ⟨ACC.PORT_STAT i, 7, 1⟩
def ACC.PORT_STAT_DESKEW_DONE (i : Nat) : Fld := ⟨ACC.PORT_STAT i, 6, 1⟩
def ACC.PORT_STAT_CLK_ACTIVE (i : Nat) : Fld := ⟨ACC.PORT_STAT i, 5, 1⟩
def ACC.PORT_STAT_STREAMS (i : Nat) : Fld := ⟨ACC.PORT_STAT i, 0, 4⟩
/-- ACC.PORT_ERR (R245). -/
def ACC.PORT_ERR (i : Nat) : Nat := 0x100108 + 0x20 * i
def ACC.PORT_ERR_LENGTH (i : Nat) : Fld := ⟨ACC.PORT_ERR i, 24, 8⟩
def ACC.PORT_ERR_CRC_FAIL (i : Nat) : Fld := ⟨ACC.PORT_ERR i, 16, 8⟩
def ACC.PORT_ERR_ECC_FAIL (i : Nat) : Fld := ⟨ACC.PORT_ERR i, 8, 8⟩
def ACC.PORT_ERR_ECC_CORR (i : Nat) : Fld := ⟨ACC.PORT_ERR i, 0, 8⟩
/-- ACC.PORT_LOSS (R245). -/
def ACC.PORT_LOSS (i : Nat) : Nat := 0x10010C + 0x20 * i
def ACC.PORT_LOSS_MISSING (i : Nat) : Fld := ⟨ACC.PORT_LOSS i, 16, 16⟩
def ACC.PORT_LOSS_DROPPED (i : Nat) : Fld := ⟨ACC.PORT_LOSS i, 0, 16⟩
/-- ACC.PORT_DISCARD (R245). -/
def ACC.PORT_DISCARD (i : Nat) : Nat := 0x100110 + 0x20 * i
def ACC.PORT_DISCARD_EXCESS (i : Nat) : Fld := ⟨ACC.PORT_DISCARD i, 16, 16⟩
def ACC.PORT_DISCARD_UNBOUND (i : Nat) : Fld := ⟨ACC.PORT_DISCARD i, 0, 16⟩
/-- ACC.PORT_DEPTH (R245). -/
def ACC.PORT_DEPTH (i : Nat) : Nat := 0x100114 + 0x20 * i
def ACC.PORT_DEPTH_MAX (i : Nat) : Fld := ⟨ACC.PORT_DEPTH i, 16, 7⟩
def ACC.PORT_DEPTH_DEPTH (i : Nat) : Fld := ⟨ACC.PORT_DEPTH i, 0, 7⟩

/-! ### CAR -/

/-- CAR.UCODE_REV (R435). -/
def CAR.UCODE_REV : Nat := 0x110000
def CAR.UCODE_REV_BASE : Fld := ⟨CAR.UCODE_REV, 16, 16⟩
def CAR.UCODE_REV_PATCH : Fld := ⟨CAR.UCODE_REV, 0, 16⟩
/-- CAR.CS_ERR (R435). -/
def CAR.CS_ERR : Nat := 0x110004
def CAR.CS_ERR_FENCED : Fld := ⟨CAR.CS_ERR, 16, 16⟩
def CAR.CS_ERR_RELOADS : Fld := ⟨CAR.CS_ERR, 0, 16⟩
/-- CAR.UNIT_CTL (R435). -/
def CAR.UNIT_CTL (i : Nat) : Nat := 0x110100 + 0x10 * i
def CAR.UNIT_CTL_DROP (i : Nat) : Fld := ⟨CAR.UNIT_CTL i, 1, 1⟩
def CAR.UNIT_CTL_INTERRUPT (i : Nat) : Fld := ⟨CAR.UNIT_CTL i, 0, 1⟩
/-- CAR.UNIT_STAT (R435). -/
def CAR.UNIT_STAT (i : Nat) : Nat := 0x110104 + 0x10 * i
def CAR.UNIT_STAT_EPOCH (i : Nat) : Fld := ⟨CAR.UNIT_STAT i, 16, 16⟩
def CAR.UNIT_STAT_UPC (i : Nat) : Fld := ⟨CAR.UNIT_STAT i, 4, 11⟩
def CAR.UNIT_STAT_SPARE (i : Nat) : Fld := ⟨CAR.UNIT_STAT i, 3, 1⟩
def CAR.UNIT_STAT_STATE (i : Nat) : Fld := ⟨CAR.UNIT_STAT i, 0, 3⟩
/-- CAR.UNIT_PROG (R435). -/
def CAR.UNIT_PROG (i : Nat) : Nat := 0x110108 + 0x10 * i
def CAR.UNIT_PROG_ENTRY (i : Nat) : Fld := ⟨CAR.UNIT_PROG i, 16, 11⟩
def CAR.UNIT_PROG_PROG (i : Nat) : Fld := ⟨CAR.UNIT_PROG i, 0, 16⟩
/-- CAR.UNIT_COUNT (R435). -/
def CAR.UNIT_COUNT (i : Nat) : Nat := 0x11010C + 0x10 * i
def CAR.UNIT_COUNT_ABANDONS (i : Nat) : Fld := ⟨CAR.UNIT_COUNT i, 16, 16⟩
def CAR.UNIT_COUNT_RELOADS (i : Nat) : Fld := ⟨CAR.UNIT_COUNT i, 0, 16⟩

/-! ### SCB -/

/-- SCB.UCODE_REV (R435). -/
def SCB.UCODE_REV : Nat := 0x120000
def SCB.UCODE_REV_BASE : Fld := ⟨SCB.UCODE_REV, 16, 16⟩
def SCB.UCODE_REV_PATCH : Fld := ⟨SCB.UCODE_REV, 0, 16⟩
/-- SCB.CS_ERR (R435). -/
def SCB.CS_ERR : Nat := 0x120004
def SCB.CS_ERR_FENCED : Fld := ⟨SCB.CS_ERR, 16, 16⟩
def SCB.CS_ERR_RELOADS : Fld := ⟨SCB.CS_ERR, 0, 16⟩
/-- SCB.UNIT_CTL (R435). -/
def SCB.UNIT_CTL (i : Nat) : Nat := 0x120100 + 0x10 * i
def SCB.UNIT_CTL_DROP (i : Nat) : Fld := ⟨SCB.UNIT_CTL i, 1, 1⟩
def SCB.UNIT_CTL_INTERRUPT (i : Nat) : Fld := ⟨SCB.UNIT_CTL i, 0, 1⟩
/-- SCB.UNIT_STAT (R435). -/
def SCB.UNIT_STAT (i : Nat) : Nat := 0x120104 + 0x10 * i
def SCB.UNIT_STAT_EPOCH (i : Nat) : Fld := ⟨SCB.UNIT_STAT i, 16, 16⟩
def SCB.UNIT_STAT_UPC (i : Nat) : Fld := ⟨SCB.UNIT_STAT i, 4, 11⟩
def SCB.UNIT_STAT_SPARE (i : Nat) : Fld := ⟨SCB.UNIT_STAT i, 3, 1⟩
def SCB.UNIT_STAT_STATE (i : Nat) : Fld := ⟨SCB.UNIT_STAT i, 0, 3⟩
/-- SCB.UNIT_PROG (R435). -/
def SCB.UNIT_PROG (i : Nat) : Nat := 0x120108 + 0x10 * i
def SCB.UNIT_PROG_ENTRY (i : Nat) : Fld := ⟨SCB.UNIT_PROG i, 16, 11⟩
def SCB.UNIT_PROG_PROG (i : Nat) : Fld := ⟨SCB.UNIT_PROG i, 0, 16⟩
/-- SCB.UNIT_COUNT (R435). -/
def SCB.UNIT_COUNT (i : Nat) : Nat := 0x12010C + 0x10 * i
def SCB.UNIT_COUNT_ABANDONS (i : Nat) : Fld := ⟨SCB.UNIT_COUNT i, 16, 16⟩
def SCB.UNIT_COUNT_RELOADS (i : Nat) : Fld := ⟨SCB.UNIT_COUNT i, 0, 16⟩

/-! ### BND -/

/-- BND.BND_STAT (R283). -/
def BND.BND_STAT : Nat := 0x130000
def BND.BND_STAT_TAKES : Fld := ⟨BND.BND_STAT, 4, 7⟩
def BND.BND_STAT_LINK_UP : Fld := ⟨BND.BND_STAT, 2, 2⟩
def BND.BND_STAT_PRESENT : Fld := ⟨BND.BND_STAT, 0, 2⟩
/-- BND.COMMIT_CFG (R283). -/
def BND.COMMIT_CFG : Nat := 0x130004
def BND.COMMIT_CFG_VERIFY_LAG_MS : Fld := ⟨BND.COMMIT_CFG, 16, 16⟩
def BND.COMMIT_CFG_TAIL_MS : Fld := ⟨BND.COMMIT_CFG, 0, 16⟩
/-- BND.BUFFER_CFG (R283). -/
def BND.BUFFER_CFG : Nat := 0x130008
def BND.BUFFER_CFG_TAKE_BUF_MIB : Fld := ⟨BND.BUFFER_CFG, 0, 16⟩
/-- BND.MG_STATE (R283). -/
def BND.MG_STATE (i : Nat) : Nat := 0x130100 + 0x80 * i
def BND.MG_STATE_TAKES_OPEN (i : Nat) : Fld := ⟨BND.MG_STATE i, 16, 3⟩
def BND.MG_STATE_RECOVERED (i : Nat) : Fld := ⟨BND.MG_STATE i, 12, 1⟩
def BND.MG_STATE_VWC (i : Nat) : Fld := ⟨BND.MG_STATE i, 11, 1⟩
def BND.MG_STATE_LINK_WIDTH (i : Nat) : Fld := ⟨BND.MG_STATE i, 8, 3⟩
def BND.MG_STATE_LINK_SPEED (i : Nat) : Fld := ⟨BND.MG_STATE i, 4, 3⟩
def BND.MG_STATE_STATE (i : Nat) : Fld := ⟨BND.MG_STATE i, 0, 4⟩
/-- BND.MG_CMD (R283). -/
def BND.MG_CMD (i : Nat) : Nat := 0x130104 + 0x80 * i
def BND.MG_CMD_KEY (i : Nat) : Fld := ⟨BND.MG_CMD i, 16, 16⟩
def BND.MG_CMD_OP (i : Nat) : Fld := ⟨BND.MG_CMD i, 0, 4⟩
/-- BND.MG_CMD_STAT (R283). -/
def BND.MG_CMD_STAT (i : Nat) : Nat := 0x130108 + 0x80 * i
def BND.MG_CMD_STAT_RESULT (i : Nat) : Fld := ⟨BND.MG_CMD_STAT i, 8, 8⟩
def BND.MG_CMD_STAT_BUSY (i : Nat) : Fld := ⟨BND.MG_CMD_STAT i, 1, 1⟩
def BND.MG_CMD_STAT_DONE (i : Nat) : Fld := ⟨BND.MG_CMD_STAT i, 0, 1⟩
/-- BND.MG_WRITE_RATE (R283). -/
def BND.MG_WRITE_RATE (i : Nat) : Nat := 0x13010C + 0x80 * i
def BND.MG_WRITE_RATE_RATE (i : Nat) : Fld := ⟨BND.MG_WRITE_RATE i, 0, 16⟩
/-- BND.MG_SHELF_TOTAL (R283). -/
def BND.MG_SHELF_TOTAL (i : Nat) : Nat := 0x130110 + 0x80 * i
def BND.MG_SHELF_TOTAL_SHELVES (i : Nat) : Fld := ⟨BND.MG_SHELF_TOTAL i, 0, 20⟩
/-- BND.MG_SHELF_FREE (R283). -/
def BND.MG_SHELF_FREE (i : Nat) : Nat := 0x130114 + 0x80 * i
def BND.MG_SHELF_FREE_SHELVES (i : Nat) : Fld := ⟨BND.MG_SHELF_FREE i, 0, 20⟩
/-- BND.MG_LOW_SHELVES (R283). -/
def BND.MG_LOW_SHELVES (i : Nat) : Nat := 0x130118 + 0x80 * i
def BND.MG_LOW_SHELVES_SHELVES (i : Nat) : Fld := ⟨BND.MG_LOW_SHELVES i, 0, 20⟩
/-- BND.MG_ERR (R283). -/
def BND.MG_ERR (i : Nat) : Nat := 0x13011C + 0x80 * i
def BND.MG_ERR_TIMEOUT (i : Nat) : Fld := ⟨BND.MG_ERR i, 16, 16⟩
def BND.MG_ERR_CMD_ERR (i : Nat) : Fld := ⟨BND.MG_ERR i, 0, 16⟩
/-- BND.MG_VERIFY (R283). -/
def BND.MG_VERIFY (i : Nat) : Nat := 0x130120 + 0x80 * i
def BND.MG_VERIFY_SKIPPED (i : Nat) : Fld := ⟨BND.MG_VERIFY i, 16, 16⟩
def BND.MG_VERIFY_MISMATCH (i : Nat) : Fld := ⟨BND.MG_VERIFY i, 0, 16⟩
/-- BND.MG_COMMIT (R283). -/
def BND.MG_COMMIT (i : Nat) : Nat := 0x130124 + 0x80 * i
def BND.MG_COMMIT_GAPS (i : Nat) : Fld := ⟨BND.MG_COMMIT i, 16, 16⟩
def BND.MG_COMMIT_LATE (i : Nat) : Fld := ⟨BND.MG_COMMIT i, 0, 16⟩
/-- BND.MG_HEALTH (R283). -/
def BND.MG_HEALTH (i : Nat) : Nat := 0x130128 + 0x80 * i
def BND.MG_HEALTH_TEMPERATURE (i : Nat) : Fld := ⟨BND.MG_HEALTH i, 16, 16⟩
def BND.MG_HEALTH_CRITICAL_WARNING (i : Nat) : Fld := ⟨BND.MG_HEALTH i, 8, 8⟩
def BND.MG_HEALTH_PERCENT_USED (i : Nat) : Fld := ⟨BND.MG_HEALTH i, 0, 8⟩
/-- BND.MG_CMD_ARG (R283). -/
def BND.MG_CMD_ARG (i : Nat) : Nat := 0x13012C + 0x80 * i
def BND.MG_CMD_ARG_TAKE (i : Nat) : Fld := ⟨BND.MG_CMD_ARG i, 0, 32⟩
/-- BND.MG_VOLUME_ID0 (R283). -/
def BND.MG_VOLUME_ID0 (i : Nat) : Nat := 0x130130 + 0x80 * i
def BND.MG_VOLUME_ID0_ID (i : Nat) : Fld := ⟨BND.MG_VOLUME_ID0 i, 0, 32⟩
/-- BND.MG_VOLUME_ID1 (R283). -/
def BND.MG_VOLUME_ID1 (i : Nat) : Nat := 0x130134 + 0x80 * i
def BND.MG_VOLUME_ID1_ID (i : Nat) : Fld := ⟨BND.MG_VOLUME_ID1 i, 0, 32⟩
/-- BND.MG_VOLUME_ID2 (R283). -/
def BND.MG_VOLUME_ID2 (i : Nat) : Nat := 0x130138 + 0x80 * i
def BND.MG_VOLUME_ID2_ID (i : Nat) : Fld := ⟨BND.MG_VOLUME_ID2 i, 0, 32⟩
/-- BND.MG_VOLUME_ID3 (R283). -/
def BND.MG_VOLUME_ID3 (i : Nat) : Nat := 0x13013C + 0x80 * i
def BND.MG_VOLUME_ID3_ID (i : Nat) : Fld := ⟨BND.MG_VOLUME_ID3 i, 0, 32⟩

/-! ### NET -/

/-- NET.PORT_CFG (R309). -/
def NET.PORT_CFG (i : Nat) : Nat := 0x140000 + 0x8000 * i
def NET.PORT_CFG_PTP_TC (i : Nat) : Fld := ⟨NET.PORT_CFG i, 8, 3⟩
def NET.PORT_CFG_MGMT_TC (i : Nat) : Fld := ⟨NET.PORT_CFG i, 4, 3⟩
def NET.PORT_CFG_FEC (i : Nat) : Fld := ⟨NET.PORT_CFG i, 1, 2⟩
def NET.PORT_CFG_ENABLE (i : Nat) : Fld := ⟨NET.PORT_CFG i, 0, 1⟩
/-- NET.PORT_STAT (R309). -/
def NET.PORT_STAT (i : Nat) : Nat := 0x140004 + 0x8000 * i
def NET.PORT_STAT_FLOWS (i : Nat) : Fld := ⟨NET.PORT_STAT i, 8, 5⟩
def NET.PORT_STAT_TXDIS (i : Nat) : Fld := ⟨NET.PORT_STAT i, 3, 1⟩
def NET.PORT_STAT_MODABS (i : Nat) : Fld := ⟨NET.PORT_STAT i, 2, 1⟩
def NET.PORT_STAT_LOS (i : Nat) : Fld := ⟨NET.PORT_STAT i, 1, 1⟩
def NET.PORT_STAT_LINK_UP (i : Nat) : Fld := ⟨NET.PORT_STAT i, 0, 1⟩
/-- NET.MAC_LO (R309). -/
def NET.MAC_LO (i : Nat) : Nat := 0x140008 + 0x8000 * i
def NET.MAC_LO_ADDR (i : Nat) : Fld := ⟨NET.MAC_LO i, 0, 32⟩
/-- NET.MAC_HI (R309). -/
def NET.MAC_HI (i : Nat) : Nat := 0x14000C + 0x8000 * i
def NET.MAC_HI_ADDR (i : Nat) : Fld := ⟨NET.MAC_HI i, 0, 16⟩
/-- NET.IPV4_ADDR (R309). -/
def NET.IPV4_ADDR (i : Nat) : Nat := 0x140010 + 0x8000 * i
def NET.IPV4_ADDR_ADDR (i : Nat) : Fld := ⟨NET.IPV4_ADDR i, 0, 32⟩
/-- NET.IPV6_ADDR0 (R309). -/
def NET.IPV6_ADDR0 (i : Nat) : Nat := 0x140014 + 0x8000 * i
def NET.IPV6_ADDR0_ADDR (i : Nat) : Fld := ⟨NET.IPV6_ADDR0 i, 0, 32⟩
/-- NET.IPV6_ADDR1 (R309). -/
def NET.IPV6_ADDR1 (i : Nat) : Nat := 0x140018 + 0x8000 * i
def NET.IPV6_ADDR1_ADDR (i : Nat) : Fld := ⟨NET.IPV6_ADDR1 i, 0, 32⟩
/-- NET.IPV6_ADDR2 (R309). -/
def NET.IPV6_ADDR2 (i : Nat) : Nat := 0x14001C + 0x8000 * i
def NET.IPV6_ADDR2_ADDR (i : Nat) : Fld := ⟨NET.IPV6_ADDR2 i, 0, 32⟩
/-- NET.IPV6_ADDR3 (R309). -/
def NET.IPV6_ADDR3 (i : Nat) : Nat := 0x140020 + 0x8000 * i
def NET.IPV6_ADDR3_ADDR (i : Nat) : Fld := ⟨NET.IPV6_ADDR3 i, 0, 32⟩
/-- NET.PORT_BUDGET (R309). -/
def NET.PORT_BUDGET (i : Nat) : Nat := 0x140024 + 0x8000 * i
def NET.PORT_BUDGET_MBPS (i : Nat) : Fld := ⟨NET.PORT_BUDGET i, 0, 15⟩
/-- NET.TX_FRAMES (R309). -/
def NET.TX_FRAMES (i : Nat) : Nat := 0x140028 + 0x8000 * i
def NET.TX_FRAMES_COUNT (i : Nat) : Fld := ⟨NET.TX_FRAMES i, 0, 32⟩
/-- NET.TX_DROPS (R309). -/
def NET.TX_DROPS (i : Nat) : Nat := 0x14002C + 0x8000 * i
def NET.TX_DROPS_COUNT (i : Nat) : Fld := ⟨NET.TX_DROPS i, 0, 32⟩
/-- NET.RX_FRAMES (R309). -/
def NET.RX_FRAMES (i : Nat) : Nat := 0x140030 + 0x8000 * i
def NET.RX_FRAMES_COUNT (i : Nat) : Fld := ⟨NET.RX_FRAMES i, 0, 32⟩
/-- NET.RX_DROPS (R309). -/
def NET.RX_DROPS (i : Nat) : Nat := 0x140034 + 0x8000 * i
def NET.RX_DROPS_COUNT (i : Nat) : Fld := ⟨NET.RX_DROPS i, 0, 32⟩
/-- NET.GCL_CTL (R309). -/
def NET.GCL_CTL (i : Nat) : Nat := 0x140040 + 0x8000 * i
def NET.GCL_CTL_COMMIT (i : Nat) : Fld := ⟨NET.GCL_CTL i, 0, 1⟩
/-- NET.GCL_STAT (R309). -/
def NET.GCL_STAT (i : Nat) : Nat := 0x140044 + 0x8000 * i
def NET.GCL_STAT_SKIPPED (i : Nat) : Fld := ⟨NET.GCL_STAT i, 16, 16⟩
def NET.GCL_STAT_LATE (i : Nat) : Fld := ⟨NET.GCL_STAT i, 3, 1⟩
def NET.GCL_STAT_REFUSED (i : Nat) : Fld := ⟨NET.GCL_STAT i, 2, 1⟩
def NET.GCL_STAT_PENDING (i : Nat) : Fld := ⟨NET.GCL_STAT i, 1, 1⟩
def NET.GCL_STAT_OPER_VALID (i : Nat) : Fld := ⟨NET.GCL_STAT i, 0, 1⟩
/-- NET.ADMIN_BASE_SEC_LO (R309). -/
def NET.ADMIN_BASE_SEC_LO (i : Nat) : Nat := 0x140048 + 0x8000 * i
def NET.ADMIN_BASE_SEC_LO_VALUE (i : Nat) : Fld := ⟨NET.ADMIN_BASE_SEC_LO i, 0, 32⟩
/-- NET.ADMIN_BASE_SEC_HI (R309). -/
def NET.ADMIN_BASE_SEC_HI (i : Nat) : Nat := 0x14004C + 0x8000 * i
def NET.ADMIN_BASE_SEC_HI_VALUE (i : Nat) : Fld := ⟨NET.ADMIN_BASE_SEC_HI i, 0, 16⟩
/-- NET.ADMIN_BASE_NS (R309). -/
def NET.ADMIN_BASE_NS (i : Nat) : Nat := 0x140050 + 0x8000 * i
def NET.ADMIN_BASE_NS_VALUE (i : Nat) : Fld := ⟨NET.ADMIN_BASE_NS i, 0, 30⟩
/-- NET.ADMIN_CYCLE_NS (R309). -/
def NET.ADMIN_CYCLE_NS (i : Nat) : Nat := 0x140054 + 0x8000 * i
def NET.ADMIN_CYCLE_NS_VALUE (i : Nat) : Fld := ⟨NET.ADMIN_CYCLE_NS i, 0, 30⟩
/-- NET.ADMIN_LENGTH (R309). -/
def NET.ADMIN_LENGTH (i : Nat) : Nat := 0x140058 + 0x8000 * i
def NET.ADMIN_LENGTH_VALUE (i : Nat) : Fld := ⟨NET.ADMIN_LENGTH i, 0, 8⟩
/-- NET.TEL_CFG (R309). -/
def NET.TEL_CFG (i : Nat) : Nat := 0x140060 + 0x8000 * i
def NET.TEL_CFG_SAMPLE_US (i : Nat) : Fld := ⟨NET.TEL_CFG i, 0, 10⟩
/-- NET.I2C_CMD (R309). -/
def NET.I2C_CMD : Nat := 0x140080
def NET.I2C_CMD_ADDR : Fld := ⟨NET.I2C_CMD, 24, 7⟩
def NET.I2C_CMD_READ : Fld := ⟨NET.I2C_CMD, 23, 1⟩
def NET.I2C_CMD_REG : Fld := ⟨NET.I2C_CMD, 8, 8⟩
def NET.I2C_CMD_DATA : Fld := ⟨NET.I2C_CMD, 0, 8⟩
/-- NET.I2C_STAT (R309). -/
def NET.I2C_STAT : Nat := 0x140084
def NET.I2C_STAT_DONE : Fld := ⟨NET.I2C_STAT, 10, 1⟩
def NET.I2C_STAT_NACK : Fld := ⟨NET.I2C_STAT, 9, 1⟩
def NET.I2C_STAT_BUSY : Fld := ⟨NET.I2C_STAT, 8, 1⟩
def NET.I2C_STAT_DATA : Fld := ⟨NET.I2C_STAT, 0, 8⟩
/-- NET.CBS_IDLE (R309). -/
def NET.CBS_IDLE (p i : Nat) : Nat := 0x140100 + 0x8000 * p + 0x10 * i
def NET.CBS_IDLE_VALUE (p i : Nat) : Fld := ⟨NET.CBS_IDLE p i, 0, 25⟩
/-- NET.CBS_HI (R309). -/
def NET.CBS_HI (p i : Nat) : Nat := 0x140104 + 0x8000 * p + 0x10 * i
def NET.CBS_HI_VALUE (p i : Nat) : Fld := ⟨NET.CBS_HI p i, 0, 20⟩
/-- NET.CBS_LO (R309). -/
def NET.CBS_LO (p i : Nat) : Nat := 0x140108 + 0x8000 * p + 0x10 * i
def NET.CBS_LO_VALUE (p i : Nat) : Fld := ⟨NET.CBS_LO p i, 0, 20⟩
/-- NET.CBS_CREDIT (R309). -/
def NET.CBS_CREDIT (p i : Nat) : Nat := 0x14010C + 0x8000 * p + 0x10 * i
def NET.CBS_CREDIT_VALUE (p i : Nat) : Fld := ⟨NET.CBS_CREDIT p i, 0, 32⟩
/-- NET.TEL_DEPTH (R309). -/
def NET.TEL_DEPTH (p i : Nat) : Nat := 0x140200 + 0x8000 * p + 0x10 * i
def NET.TEL_DEPTH_MAX (p i : Nat) : Fld := ⟨NET.TEL_DEPTH p i, 16, 16⟩
def NET.TEL_DEPTH_LAST (p i : Nat) : Fld := ⟨NET.TEL_DEPTH p i, 0, 16⟩
/-- NET.TEL_DELAY (R309). -/
def NET.TEL_DELAY (p i : Nat) : Nat := 0x140204 + 0x8000 * p + 0x10 * i
def NET.TEL_DELAY_MAX (p i : Nat) : Fld := ⟨NET.TEL_DELAY p i, 16, 16⟩
def NET.TEL_DELAY_MEAN (p i : Nat) : Fld := ⟨NET.TEL_DELAY p i, 0, 16⟩
/-- NET.TEL_FRAMES (R309). -/
def NET.TEL_FRAMES (p i : Nat) : Nat := 0x140208 + 0x8000 * p + 0x10 * i
def NET.TEL_FRAMES_COUNT (p i : Nat) : Fld := ⟨NET.TEL_FRAMES p i, 0, 32⟩
/-- NET.TEL_DROPS (R309). -/
def NET.TEL_DROPS (p i : Nat) : Nat := 0x14020C + 0x8000 * p + 0x10 * i
def NET.TEL_DROPS_COUNT (p i : Nat) : Fld := ⟨NET.TEL_DROPS p i, 0, 32⟩
/-- NET.PSF_MAC_LO (R309). -/
def NET.PSF_MAC_LO (p i : Nat) : Nat := 0x140400 + 0x8000 * p + 0x20 * i
def NET.PSF_MAC_LO_VALUE (p i : Nat) : Fld := ⟨NET.PSF_MAC_LO p i, 0, 32⟩
/-- NET.PSF_MAC_HI (R309). -/
def NET.PSF_MAC_HI (p i : Nat) : Nat := 0x140404 + 0x8000 * p + 0x20 * i
def NET.PSF_MAC_HI_VID (p i : Nat) : Fld := ⟨NET.PSF_MAC_HI p i, 16, 12⟩
def NET.PSF_MAC_HI_MAC (p i : Nat) : Fld := ⟨NET.PSF_MAC_HI p i, 0, 16⟩
/-- NET.PSF_CTL (R309). -/
def NET.PSF_CTL (p i : Nat) : Nat := 0x140408 + 0x8000 * p + 0x20 * i
def NET.PSF_CTL_PCP (p i : Nat) : Fld := ⟨NET.PSF_CTL p i, 4, 3⟩
def NET.PSF_CTL_MATCH_PCP (p i : Nat) : Fld := ⟨NET.PSF_CTL p i, 3, 1⟩
def NET.PSF_CTL_MATCH_VID (p i : Nat) : Fld := ⟨NET.PSF_CTL p i, 2, 1⟩
def NET.PSF_CTL_MATCH_MAC (p i : Nat) : Fld := ⟨NET.PSF_CTL p i, 1, 1⟩
def NET.PSF_CTL_ENABLE (p i : Nat) : Fld := ⟨NET.PSF_CTL p i, 0, 1⟩
/-- NET.PSF_CIR (R309). -/
def NET.PSF_CIR (p i : Nat) : Nat := 0x14040C + 0x8000 * p + 0x20 * i
def NET.PSF_CIR_KBPS (p i : Nat) : Fld := ⟨NET.PSF_CIR p i, 0, 25⟩
/-- NET.PSF_CBS (R309). -/
def NET.PSF_CBS (p i : Nat) : Nat := 0x140410 + 0x8000 * p + 0x20 * i
def NET.PSF_CBS_BYTES (p i : Nat) : Fld := ⟨NET.PSF_CBS p i, 0, 24⟩
/-- NET.PSF_PASS (R309). -/
def NET.PSF_PASS (p i : Nat) : Nat := 0x140414 + 0x8000 * p + 0x20 * i
def NET.PSF_PASS_COUNT (p i : Nat) : Fld := ⟨NET.PSF_PASS p i, 0, 32⟩
/-- NET.PSF_DROP (R309). -/
def NET.PSF_DROP (p i : Nat) : Nat := 0x140418 + 0x8000 * p + 0x20 * i
def NET.PSF_DROP_COUNT (p i : Nat) : Fld := ⟨NET.PSF_DROP p i, 0, 32⟩
/-- NET.FLOW_STAT (R309). -/
def NET.FLOW_STAT (p i : Nat) : Nat := 0x140800 + 0x8000 * p + 0x10 * i
def NET.FLOW_STAT_ACTIVE (p i : Nat) : Fld := ⟨NET.FLOW_STAT p i, 16, 1⟩
def NET.FLOW_STAT_STREAM (p i : Nat) : Fld := ⟨NET.FLOW_STAT p i, 0, 8⟩
/-- NET.FLOW_PKTS (R309). -/
def NET.FLOW_PKTS (p i : Nat) : Nat := 0x140804 + 0x8000 * p + 0x10 * i
def NET.FLOW_PKTS_COUNT (p i : Nat) : Fld := ⟨NET.FLOW_PKTS p i, 0, 32⟩
/-- NET.FLOW_LATE (R309). -/
def NET.FLOW_LATE (p i : Nat) : Nat := 0x140808 + 0x8000 * p + 0x10 * i
def NET.FLOW_LATE_COUNT (p i : Nat) : Fld := ⟨NET.FLOW_LATE p i, 0, 32⟩
/-- NET.FLOW_PERIODS (R309). -/
def NET.FLOW_PERIODS (p i : Nat) : Nat := 0x14080C + 0x8000 * p + 0x10 * i
def NET.FLOW_PERIODS_DROPPED (p i : Nat) : Fld := ⟨NET.FLOW_PERIODS p i, 16, 16⟩
def NET.FLOW_PERIODS_SKIPPED (p i : Nat) : Fld := ⟨NET.FLOW_PERIODS p i, 0, 16⟩
/-- NET.GCL_ADMIN_GATES (R309). -/
def NET.GCL_ADMIN_GATES (p i : Nat) : Nat := 0x141000 + 0x8000 * p + 0x8 * i
def NET.GCL_ADMIN_GATES_GATES (p i : Nat) : Fld := ⟨NET.GCL_ADMIN_GATES p i, 0, 8⟩
/-- NET.GCL_ADMIN_INTERVAL (R309). -/
def NET.GCL_ADMIN_INTERVAL (p i : Nat) : Nat := 0x141004 + 0x8000 * p + 0x8 * i
def NET.GCL_ADMIN_INTERVAL_INTERVAL (p i : Nat) : Fld := ⟨NET.GCL_ADMIN_INTERVAL p i, 0, 32⟩
/-- NET.GCL_OPER_GATES (R309). -/
def NET.GCL_OPER_GATES (p i : Nat) : Nat := 0x141800 + 0x8000 * p + 0x8 * i
def NET.GCL_OPER_GATES_GATES (p i : Nat) : Fld := ⟨NET.GCL_OPER_GATES p i, 0, 8⟩
/-- NET.GCL_OPER_INTERVAL (R309). -/
def NET.GCL_OPER_INTERVAL (p i : Nat) : Nat := 0x141804 + 0x8000 * p + 0x8 * i
def NET.GCL_OPER_INTERVAL_INTERVAL (p i : Nat) : Fld := ⟨NET.GCL_OPER_INTERVAL p i, 0, 32⟩

/-! ### DAT -/

/-- DAT.DAT_CMD (R327). -/
def DAT.DAT_CMD : Nat := 0x150000
def DAT.DAT_CMD_STEP : Fld := ⟨DAT.DAT_CMD, 2, 1⟩
def DAT.DAT_CMD_SET : Fld := ⟨DAT.DAT_CMD, 1, 1⟩
def DAT.DAT_CMD_SNAP : Fld := ⟨DAT.DAT_CMD, 0, 1⟩
/-- DAT.DAT_STAT (R327). -/
def DAT.DAT_STAT : Nat := 0x150004
def DAT.DAT_STAT_STEPS : Fld := ⟨DAT.DAT_STAT, 24, 8⟩
def DAT.DAT_STAT_SNAP_VALID : Fld := ⟨DAT.DAT_STAT, 23, 1⟩
def DAT.DAT_STAT_SNAP_SEQ : Fld := ⟨DAT.DAT_STAT, 16, 6⟩
def DAT.DAT_STAT_WRITE_IGNORED : Fld := ⟨DAT.DAT_STAT, 3, 1⟩
def DAT.DAT_STAT_REFCLK_LOST : Fld := ⟨DAT.DAT_STAT, 2, 1⟩
def DAT.DAT_STAT_STEPPED : Fld := ⟨DAT.DAT_STAT, 1, 1⟩
def DAT.DAT_STAT_REFCLK_OK : Fld := ⟨DAT.DAT_STAT, 0, 1⟩
/-- DAT.INCR (R327). -/
def DAT.INCR : Nat := 0x150008
def DAT.INCR_VALUE : Fld := ⟨DAT.INCR, 0, 32⟩
/-- DAT.SNAP_SEC_LO (R327). -/
def DAT.SNAP_SEC_LO : Nat := 0x150010
def DAT.SNAP_SEC_LO_VALUE : Fld := ⟨DAT.SNAP_SEC_LO, 0, 32⟩
/-- DAT.SNAP_SEC_HI (R327). -/
def DAT.SNAP_SEC_HI : Nat := 0x150014
def DAT.SNAP_SEC_HI_VALUE : Fld := ⟨DAT.SNAP_SEC_HI, 0, 32⟩
/-- DAT.SNAP_NS (R327). -/
def DAT.SNAP_NS : Nat := 0x150018
def DAT.SNAP_NS_VALUE : Fld := ⟨DAT.SNAP_NS, 0, 32⟩
/-- DAT.SET_SEC_LO (R327). -/
def DAT.SET_SEC_LO : Nat := 0x150020
def DAT.SET_SEC_LO_VALUE : Fld := ⟨DAT.SET_SEC_LO, 0, 32⟩
/-- DAT.SET_SEC_HI (R327). -/
def DAT.SET_SEC_HI : Nat := 0x150024
def DAT.SET_SEC_HI_VALUE : Fld := ⟨DAT.SET_SEC_HI, 0, 32⟩
/-- DAT.SET_NS (R327). -/
def DAT.SET_NS : Nat := 0x150028
def DAT.SET_NS_VALUE : Fld := ⟨DAT.SET_NS, 0, 30⟩
/-- DAT.STEP_NS (R327). -/
def DAT.STEP_NS : Nat := 0x15002C
def DAT.STEP_NS_VALUE : Fld := ⟨DAT.STEP_NS, 0, 32⟩
/-- DAT.PTP_CFG (R327). -/
def DAT.PTP_CFG : Nat := 0x150030
def DAT.PTP_CFG_TRANSPORT : Fld := ⟨DAT.PTP_CFG, 12, 2⟩
def DAT.PTP_CFG_SLAVE_ONLY : Fld := ⟨DAT.PTP_CFG, 11, 1⟩
def DAT.PTP_CFG_ONE_STEP : Fld := ⟨DAT.PTP_CFG, 10, 1⟩
def DAT.PTP_CFG_PORTS : Fld := ⟨DAT.PTP_CFG, 8, 2⟩
def DAT.PTP_CFG_DOMAIN : Fld := ⟨DAT.PTP_CFG, 0, 7⟩
/-- DAT.SERVO_CFG (R327). -/
def DAT.SERVO_CFG : Nat := 0x150034
def DAT.SERVO_CFG_LOCK_NS : Fld := ⟨DAT.SERVO_CFG, 16, 16⟩
def DAT.SERVO_CFG_STEP_US : Fld := ⟨DAT.SERVO_CFG, 0, 16⟩
/-- DAT.SERVO_STAT (R327). -/
def DAT.SERVO_STAT : Nat := 0x150038
def DAT.SERVO_STAT_PORT : Fld := ⟨DAT.SERVO_STAT, 8, 1⟩
def DAT.SERVO_STAT_STATE : Fld := ⟨DAT.SERVO_STAT, 0, 3⟩
/-- DAT.SERVO_OFFSET (R327). -/
def DAT.SERVO_OFFSET : Nat := 0x15003C
def DAT.SERVO_OFFSET_VALUE : Fld := ⟨DAT.SERVO_OFFSET, 0, 32⟩
/-- DAT.PORT_EGRESS_LAT (R327). -/
def DAT.PORT_EGRESS_LAT (i : Nat) : Nat := 0x150040 + 0x10 * i
def DAT.PORT_EGRESS_LAT_VALUE (i : Nat) : Fld := ⟨DAT.PORT_EGRESS_LAT i, 0, 32⟩
/-- DAT.PORT_INGRESS_LAT (R327). -/
def DAT.PORT_INGRESS_LAT (i : Nat) : Nat := 0x150044 + 0x10 * i
def DAT.PORT_INGRESS_LAT_VALUE (i : Nat) : Fld := ⟨DAT.PORT_INGRESS_LAT i, 0, 32⟩
/-- DAT.PORT_ASYM (R327). -/
def DAT.PORT_ASYM (i : Nat) : Nat := 0x150048 + 0x10 * i
def DAT.PORT_ASYM_VALUE (i : Nat) : Fld := ⟨DAT.PORT_ASYM i, 0, 32⟩
/-- DAT.ALARM_SEC_LO (R327). -/
def DAT.ALARM_SEC_LO : Nat := 0x150060
def DAT.ALARM_SEC_LO_VALUE : Fld := ⟨DAT.ALARM_SEC_LO, 0, 32⟩
/-- DAT.ALARM_SEC_HI (R327). -/
def DAT.ALARM_SEC_HI : Nat := 0x150064
def DAT.ALARM_SEC_HI_VALUE : Fld := ⟨DAT.ALARM_SEC_HI, 0, 32⟩
/-- DAT.ALARM_NS (R327). -/
def DAT.ALARM_NS : Nat := 0x150068
def DAT.ALARM_NS_VALUE : Fld := ⟨DAT.ALARM_NS, 0, 30⟩
/-- DAT.ALARM_CTL (R327). -/
def DAT.ALARM_CTL : Nat := 0x15006C
def DAT.ALARM_CTL_LATE : Fld := ⟨DAT.ALARM_CTL, 5, 1⟩
def DAT.ALARM_CTL_FIRED : Fld := ⟨DAT.ALARM_CTL, 4, 1⟩
def DAT.ALARM_CTL_ARMED : Fld := ⟨DAT.ALARM_CTL, 3, 1⟩
def DAT.ALARM_CTL_WAKE : Fld := ⟨DAT.ALARM_CTL, 2, 1⟩
def DAT.ALARM_CTL_DISARM : Fld := ⟨DAT.ALARM_CTL, 1, 1⟩
def DAT.ALARM_CTL_ARM : Fld := ⟨DAT.ALARM_CTL, 0, 1⟩
/-- DAT.PPS_CTL (R327). -/
def DAT.PPS_CTL : Nat := 0x150070
def DAT.PPS_CTL_LOCK_GATE : Fld := ⟨DAT.PPS_CTL, 17, 1⟩
def DAT.PPS_CTL_ENABLE : Fld := ⟨DAT.PPS_CTL, 16, 1⟩
def DAT.PPS_CTL_WIDTH_MS : Fld := ⟨DAT.PPS_CTL, 0, 10⟩
/-- DAT.TOUT_START_SEC_LO (R327). -/
def DAT.TOUT_START_SEC_LO (i : Nat) : Nat := 0x150100 + 0x20 * i
def DAT.TOUT_START_SEC_LO_VALUE (i : Nat) : Fld := ⟨DAT.TOUT_START_SEC_LO i, 0, 32⟩
/-- DAT.TOUT_START_SEC_HI (R327). -/
def DAT.TOUT_START_SEC_HI (i : Nat) : Nat := 0x150104 + 0x20 * i
def DAT.TOUT_START_SEC_HI_VALUE (i : Nat) : Fld := ⟨DAT.TOUT_START_SEC_HI i, 0, 32⟩
/-- DAT.TOUT_START_NS (R327). -/
def DAT.TOUT_START_NS (i : Nat) : Nat := 0x150108 + 0x20 * i
def DAT.TOUT_START_NS_VALUE (i : Nat) : Fld := ⟨DAT.TOUT_START_NS i, 0, 30⟩
/-- DAT.TOUT_RATE_NUM (R327). -/
def DAT.TOUT_RATE_NUM (i : Nat) : Nat := 0x15010C + 0x20 * i
def DAT.TOUT_RATE_NUM_VALUE (i : Nat) : Fld := ⟨DAT.TOUT_RATE_NUM i, 0, 32⟩
/-- DAT.TOUT_RATE_DEN (R327). -/
def DAT.TOUT_RATE_DEN (i : Nat) : Nat := 0x150110 + 0x20 * i
def DAT.TOUT_RATE_DEN_VALUE (i : Nat) : Fld := ⟨DAT.TOUT_RATE_DEN i, 0, 32⟩
/-- DAT.TOUT_WIDTH_NS (R327). -/
def DAT.TOUT_WIDTH_NS (i : Nat) : Nat := 0x150114 + 0x20 * i
def DAT.TOUT_WIDTH_NS_VALUE (i : Nat) : Fld := ⟨DAT.TOUT_WIDTH_NS i, 0, 32⟩
/-- DAT.TOUT_CTL (R327). -/
def DAT.TOUT_CTL (i : Nat) : Nat := 0x150118 + 0x20 * i
def DAT.TOUT_CTL_POLARITY (i : Nat) : Fld := ⟨DAT.TOUT_CTL i, 8, 1⟩
def DAT.TOUT_CTL_DISARM (i : Nat) : Fld := ⟨DAT.TOUT_CTL i, 1, 1⟩
def DAT.TOUT_CTL_ARM (i : Nat) : Fld := ⟨DAT.TOUT_CTL i, 0, 1⟩
/-- DAT.TOUT_STAT (R327). -/
def DAT.TOUT_STAT (i : Nat) : Nat := 0x15011C + 0x20 * i
def DAT.TOUT_STAT_SKIPPED (i : Nat) : Fld := ⟨DAT.TOUT_STAT i, 16, 16⟩
def DAT.TOUT_STAT_REFUSED (i : Nat) : Fld := ⟨DAT.TOUT_STAT i, 3, 1⟩
def DAT.TOUT_STAT_LATE (i : Nat) : Fld := ⟨DAT.TOUT_STAT i, 2, 1⟩
def DAT.TOUT_STAT_PENDING (i : Nat) : Fld := ⟨DAT.TOUT_STAT i, 1, 1⟩
def DAT.TOUT_STAT_ACTIVE (i : Nat) : Fld := ⟨DAT.TOUT_STAT i, 0, 1⟩
/-- DAT.TIN_CTL (R327). -/
def DAT.TIN_CTL (i : Nat) : Nat := 0x150200 + 0x20 * i
def DAT.TIN_CTL_WAKE (i : Nat) : Fld := ⟨DAT.TIN_CTL i, 9, 1⟩
def DAT.TIN_CTL_POP (i : Nat) : Fld := ⟨DAT.TIN_CTL i, 8, 1⟩
def DAT.TIN_CTL_EDGE (i : Nat) : Fld := ⟨DAT.TIN_CTL i, 0, 2⟩
/-- DAT.TIN_STAT (R327). -/
def DAT.TIN_STAT (i : Nat) : Nat := 0x150204 + 0x20 * i
def DAT.TIN_STAT_VALID (i : Nat) : Fld := ⟨DAT.TIN_STAT i, 31, 1⟩
def DAT.TIN_STAT_SEQ (i : Nat) : Fld := ⟨DAT.TIN_STAT i, 24, 6⟩
def DAT.TIN_STAT_COUNT (i : Nat) : Fld := ⟨DAT.TIN_STAT i, 16, 5⟩
def DAT.TIN_STAT_HEAD_RISING (i : Nat) : Fld := ⟨DAT.TIN_STAT i, 12, 1⟩
def DAT.TIN_STAT_OVERFLOW (i : Nat) : Fld := ⟨DAT.TIN_STAT i, 0, 12⟩
/-- DAT.TIN_CAP_SEC_LO (R327). -/
def DAT.TIN_CAP_SEC_LO (i : Nat) : Nat := 0x150208 + 0x20 * i
def DAT.TIN_CAP_SEC_LO_VALUE (i : Nat) : Fld := ⟨DAT.TIN_CAP_SEC_LO i, 0, 32⟩
/-- DAT.TIN_CAP_SEC_HI (R327). -/
def DAT.TIN_CAP_SEC_HI (i : Nat) : Nat := 0x15020C + 0x20 * i
def DAT.TIN_CAP_SEC_HI_VALUE (i : Nat) : Fld := ⟨DAT.TIN_CAP_SEC_HI i, 0, 32⟩
/-- DAT.TIN_CAP_NS (R327). -/
def DAT.TIN_CAP_NS (i : Nat) : Nat := 0x150210 + 0x20 * i
def DAT.TIN_CAP_NS_VALUE (i : Nat) : Fld := ⟨DAT.TIN_CAP_NS i, 0, 32⟩

/-! ### SMB -/

/-- SMB.SMB_CFG (R506). -/
def SMB.SMB_CFG : Nat := 0x160000
def SMB.SMB_CFG_ALERT_MASK : Fld := ⟨SMB.SMB_CFG, 12, 4⟩
def SMB.SMB_CFG_RESET_EN : Fld := ⟨SMB.SMB_CFG, 8, 1⟩
def SMB.SMB_CFG_ADDR : Fld := ⟨SMB.SMB_CFG, 0, 7⟩
/-- SMB.SMB_STAT (R506). -/
def SMB.SMB_STAT : Nat := 0x160004
def SMB.SMB_STAT_COMMANDS : Fld := ⟨SMB.SMB_STAT, 16, 16⟩
def SMB.SMB_STAT_PEC_ERR : Fld := ⟨SMB.SMB_STAT, 0, 16⟩
/-- SMB.SMB_LOCK_ERR (R506). -/
def SMB.SMB_LOCK_ERR : Nat := 0x160008
def SMB.SMB_LOCK_ERR_COUNT : Fld := ⟨SMB.SMB_LOCK_ERR, 0, 16⟩

/-! ### DBL -/

/-- DBL.SQ_TAIL (R191). -/
def DBL.SQ_TAIL (i : Nat) : Nat := 0x800000 + 0x1000 * i
def DBL.SQ_TAIL_INDEX (i : Nat) : Fld := ⟨DBL.SQ_TAIL i, 0, 16⟩
/-- DBL.RQ_HEAD (R191). -/
def DBL.RQ_HEAD (i : Nat) : Nat := 0x800004 + 0x1000 * i
def DBL.RQ_HEAD_INDEX (i : Nat) : Fld := ⟨DBL.RQ_HEAD i, 0, 16⟩

/-! ### The access codes of each block -/

def descsTOP0 : List RegDesc :=
  [ ⟨0x0, 0x4, 1, 0x4, 1, [(16, 16, .ro), (0, 16, .ro)]⟩,
    ⟨0x4, 0x4, 1, 0x4, 1, [(4, 4, .ro), (0, 4, .ro)]⟩,
    ⟨0x8, 0x4, 1, 0x4, 1, [(27, 1, .ro), (24, 3, .ro), (22, 2, .ro), (20, 2, .ro), (16, 4, .ro), (8, 8, .ro), (0, 8, .ro)]⟩,
    ⟨0x10, 0x4, 1, 0x4, 1, [(0, 2, .own)]⟩,
    ⟨0x14, 0x4, 1, 0x4, 1, [(3, 1, .w1c), (2, 1, .ro), (0, 2, .ro)]⟩,
    ⟨0x18, 0x4, 1, 0x4, 1, [(16, 12, .ro), (0, 12, .ro)]⟩,
    ⟨0x1C, 0x4, 1, 0x4, 1, [(0, 32, .rw 0 0xFFFFFFFF)]⟩ ]

/-- The registers of TOP (R31). -/
def descsTOP : List RegDesc := descsTOP0

def descsKPR0 : List RegDesc :=
  [ ⟨0x10000, 0x4, 1, 0x4, 1, [(11, 1, .ro), (10, 1, .ro), (8, 2, .ro), (4, 4, .ro), (3, 1, .ro), (2, 1, .ro), (1, 1, .ro)]⟩,
    ⟨0x10004, 0x4, 1, 0x4, 1, [(8, 8, .ro), (0, 8, .ro)]⟩,
    ⟨0x10008, 0x4, 1, 0x4, 1, [(0, 16, .own)]⟩,
    ⟨0x1000C, 0x4, 1, 0x4, 1, [(31, 1, .own), (8, 1, .rw 0 1), (0, 6, .rw 0 63)]⟩,
    ⟨0x10010, 0x4, 1, 0x4, 1, [(31, 1, .w1c), (30, 1, .ro), (29, 1, .w1c), (0, 16, .ro)]⟩,
    ⟨0x10014, 0x4, 1, 0x4, 1, [(0, 32, .rw 0 0xFFFFFFFF)]⟩,
    ⟨0x10018, 0x4, 1, 0x4, 1, [(0, 32, .ro)]⟩,
    ⟨0x10020, 0x4, 12, 0x4, 1, [(0, 32, .ro)]⟩ ]

/-- The registers of KPR (R484). -/
def descsKPR : List RegDesc := descsKPR0

def descsFUS0 : List RegDesc :=
  [ ⟨0x20000, 0x4, 1, 0x4, 1, [(31, 1, .ro), (30, 1, .ro), (29, 1, .ro), (26, 2, .ro), (8, 8, .ro), (0, 2, .ro)]⟩,
    ⟨0x20010, 0x4, 4, 0x4, 1, [(0, 32, .ro)]⟩,
    ⟨0x20024, 0x4, 1, 0x4, 1, [(0, 32, .ro)]⟩,
    ⟨0x20028, 0x4, 1, 0x4, 1, [(0, 32, .ro)]⟩,
    ⟨0x20030, 0x4, 1, 0x4, 1, [(0, 32, .ro)]⟩,
    ⟨0x20034, 0x4, 1, 0x4, 1, [(0, 32, .ro)]⟩,
    ⟨0x20038, 0x4, 1, 0x4, 1, [(0, 32, .ro)]⟩,
    ⟨0x20040, 0x4, 8, 0x4, 1, [(0, 32, .ro)]⟩,
    ⟨0x20100, 0x4, 12, 0x4, 1, [(0, 32, .ro)]⟩,
    ⟨0x20140, 0x4, 12, 0x4, 1, [(0, 32, .ro)]⟩,
    ⟨0x20180, 0x4, 12, 0x4, 1, [(0, 32, .ro)]⟩,
    ⟨0x201C0, 0x4, 12, 0x4, 1, [(0, 32, .ro)]⟩ ]

/-- The registers of FUS (R485). -/
def descsFUS : List RegDesc := descsFUS0

def descsRST0 : List RegDesc :=
  [ ⟨0x30000, 0x4, 1, 0x4, 1, [(16, 16, .ro), (15, 1, .ro), (14, 1, .w1c), (12, 2, .ro), (0, 8, .ro)]⟩,
    ⟨0x30004, 0x4, 1, 0x4, 1, [(0, 32, .own)]⟩,
    ⟨0x30008, 0x4, 1, 0x4, 1, [(16, 16, .own), (12, 2, .own), (0, 12, .own)]⟩,
    ⟨0x3000C, 0x4, 1, 0x4, 1, [(0, 1, .rw 0 1)]⟩,
    ⟨0x30010, 0x4, 1, 0x4, 1, [(31, 1, .w1c), (30, 1, .w1c), (29, 1, .w1c), (28, 1, .ro), (0, 12, .ro)]⟩,
    ⟨0x30014, 0x4, 1, 0x4, 1, [(0, 16, .rw 0 0xFFFF)]⟩ ]

/-- The registers of RST (R504). -/
def descsRST : List RegDesc := descsRST0

def descsPWR0 : List RegDesc :=
  [ ⟨0x40000, 0x4, 1, 0x4, 1, [(16, 16, .ro), (0, 3, .ro)]⟩,
    ⟨0x40004, 0x4, 1, 0x4, 1, [(16, 16, .own), (0, 2, .own)]⟩,
    ⟨0x40008, 0x4, 1, 0x4, 1, [(31, 1, .w1c), (24, 4, .ro), (16, 3, .ro), (0, 2, .ro)]⟩,
    ⟨0x4000C, 0x4, 1, 0x4, 1, [(0, 6, .rw 0 63)]⟩,
    ⟨0x40010, 0x4, 1, 0x4, 1, [(0, 6, .w1c)]⟩,
    ⟨0x40020, 0x4, 1, 0x4, 1, [(0, 32, .own)]⟩,
    ⟨0x40024, 0x4, 1, 0x4, 1, [(0, 32, .own)]⟩,
    ⟨0x40028, 0x4, 1, 0x4, 1, [(0, 32, .own)]⟩,
    ⟨0x4002C, 0x4, 1, 0x4, 1, [(0, 32, .own)]⟩,
    ⟨0x40030, 0x4, 1, 0x4, 1, [(0, 32, .ro)]⟩,
    ⟨0x40034, 0x4, 1, 0x4, 1, [(0, 32, .ro)]⟩,
    ⟨0x40038, 0x4, 1, 0x4, 1, [(0, 32, .ro)]⟩ ]

def descsPWR1 : List RegDesc :=
  [ ⟨0x4003C, 0x4, 1, 0x4, 1, [(0, 32, .ro)]⟩,
    ⟨0x40040, 0x4, 1, 0x4, 1, [(31, 1, .w1c), (8, 2, .ro), (0, 7, .ro)]⟩,
    ⟨0x40044, 0x4, 1, 0x4, 1, [(0, 32, .rw 0 0xFFFFFFFF)]⟩ ]

/-- The registers of PWR (R505). -/
def descsPWR : List RegDesc := descsPWR0 ++ descsPWR1

def descsCNS0 : List RegDesc :=
  [ ⟨0x50000, 0x4, 1, 0x4, 1, [(8, 4, .ro), (7, 1, .ro), (6, 1, .ro), (5, 1, .ro), (4, 1, .ro), (0, 2, .ro)]⟩,
    ⟨0x50004, 0x4, 1, 0x4, 1, [(0, 32, .ro)]⟩,
    ⟨0x50008, 0x4, 1, 0x4, 1, [(0, 32, .ro)]⟩,
    ⟨0x5000C, 0x4, 1, 0x4, 1, [(0, 32, .ro)]⟩,
    ⟨0x50010, 0x4, 1, 0x4, 1, [(0, 32, .ro)]⟩,
    ⟨0x50014, 0x4, 1, 0x4, 1, [(16, 10, .ro), (0, 10, .ro)]⟩,
    ⟨0x50018, 0x4, 1, 0x4, 1, [(16, 5, .ro), (0, 16, .ro)]⟩,
    ⟨0x5001C, 0x4, 1, 0x4, 1, [(16, 7, .ro), (0, 16, .ro)]⟩,
    ⟨0x50020, 0x4, 1, 0x4, 1, [(0, 7, .rw 0 112)]⟩,
    ⟨0x50024, 0x4, 1, 0x4, 1, [(31, 1, .ro), (16, 8, .ro), (0, 16, .ro)]⟩,
    ⟨0x50040, 0x4, 8, 0x4, 1, [(16, 16, .ro), (0, 16, .ro)]⟩,
    ⟨0x50060, 0x4, 8, 0x4, 1, [(16, 16, .ro), (0, 16, .ro)]⟩ ]

/-- The registers of CNS (R520). -/
def descsCNS : List RegDesc := descsCNS0

def descsRGS0 : List RegDesc :=
  [ ⟨0x60000, 0x4, 1, 0x4, 1, [(31, 1, .ro), (30, 1, .ro), (24, 6, .ro), (18, 6, .ro), (12, 6, .ro), (6, 6, .ro)]⟩,
    ⟨0x60004, 0x4, 1, 0x4, 1, [(0, 3, .rw 1 4)]⟩,
    ⟨0x60008, 0x4, 1, 0x4, 1, [(15, 1, .own), (12, 3, .own), (0, 12, .own)]⟩,
    ⟨0x6000C, 0x4, 1, 0x4, 1, [(20, 3, .own), (12, 8, .own), (0, 12, .own)]⟩,
    ⟨0x60010, 0x4, 1, 0x4, 1, [(0, 31, .ro)]⟩,
    ⟨0x60014, 0x4, 1, 0x4, 1, [(31, 1, .rw 0 1), (0, 31, .rw 0 0x7FFFFFFF)]⟩,
    ⟨0x60018, 0x4, 1, 0x4, 1, [(31, 1, .ro), (0, 31, .ro)]⟩,
    ⟨0x6001C, 0x4, 4, 0x4, 1, [(0, 32, .ro)]⟩,
    ⟨0x6002C, 0x4, 1, 0x4, 1, [(0, 32, .ro)]⟩,
    ⟨0x60030, 0x4, 5, 0x4, 1, [(0, 32, .rw 0 0xFFFFFFFF)]⟩,
    ⟨0x60044, 0x4, 1, 0x4, 1, [(0, 32, .rw 0 0xFFFFFFFF)]⟩,
    ⟨0x60048, 0x4, 1, 0x4, 1, [(0, 32, .rw 0 0xFFFFFFFF)]⟩ ]

def descsRGS1 : List RegDesc :=
  [ ⟨0x6004C, 0x4, 1, 0x4, 1, [(0, 32, .rw 0 0xFFFFFFFF)]⟩,
    ⟨0x60050, 0x4, 1, 0x4, 1, [(0, 32, .ro)]⟩,
    ⟨0x60054, 0x4, 1, 0x4, 1, [(0, 32, .rw 0 0xFFFFFFFF)]⟩,
    ⟨0x60058, 0x4, 1, 0x4, 1, [(16, 1, .ro), (8, 8, .ro), (0, 8, .ro)]⟩,
    ⟨0x6005C, 0x4, 1, 0x4, 1, [(0, 8, .rw 0 255)]⟩,
    ⟨0x60060, 0x4, 1, 0x4, 1, [(0, 8, .ro)]⟩,
    ⟨0x60080, 0x4, 16, 0x4, 1, [(0, 32, .ro)]⟩ ]

/-- The registers of RGS (R464). -/
def descsRGS : List RegDesc := descsRGS0 ++ descsRGS1

def descsCAT0 : List RegDesc :=
  [ ⟨0x70000, 0x4, 1, 0x4, 1, [(2, 1, .ro), (1, 1, .ro), (0, 1, .ro)]⟩,
    ⟨0x70004, 0x4, 1, 0x4, 1, [(0, 32, .ro)]⟩,
    ⟨0x70008, 0x4, 1, 0x4, 1, [(0, 32, .ro)]⟩,
    ⟨0x7000C, 0x4, 1, 0x4, 1, [(0, 32, .ro)]⟩,
    ⟨0x70010, 0x4, 1, 0x4, 1, [(0, 32, .ro)]⟩,
    ⟨0x70014, 0x4, 1, 0x4, 1, [(0, 32, .ro)]⟩,
    ⟨0x70018, 0x4, 1, 0x4, 1, [(0, 32, .ro)]⟩,
    ⟨0x70020, 0x4, 1, 0x4, 1, [(0, 32, .rw 0 0xFFFFFFFF)]⟩,
    ⟨0x70024, 0x4, 1, 0x4, 1, [(0, 32, .rw 0 0xFFFFFFFF)]⟩,
    ⟨0x70028, 0x4, 1, 0x4, 1, [(0, 32, .rw 0 0xFFFFFFFF)]⟩,
    ⟨0x70030, 0x4, 1, 0x4, 1, [(0, 12, .rw 0 4095)]⟩,
    ⟨0x70034, 0x4, 1, 0x4, 1, [(0, 32, .ro)]⟩ ]

def descsCAT1 : List RegDesc :=
  [ ⟨0x70038, 0x4, 1, 0x4, 1, [(0, 32, .ro)]⟩,
    ⟨0x7003C, 0x4, 1, 0x4, 1, [(0, 32, .ro)]⟩,
    ⟨0x70040, 0x4, 1, 0x4, 1, [(0, 32, .ro)]⟩,
    ⟨0x70044, 0x4, 1, 0x4, 1, [(0, 32, .ro)]⟩ ]

/-- The registers of CAT (R465). -/
def descsCAT : List RegDesc := descsCAT0 ++ descsCAT1

def descsHIF0 : List RegDesc :=
  [ ⟨0x80000, 0x4, 1, 0x4, 1, [(1, 1, .ro), (0, 1, .ro)]⟩,
    ⟨0x80008, 0x4, 1, 0x4, 1, [(16, 16, .rw 0 0xFFFF), (0, 16, .rw 0 0xFFFF)]⟩,
    ⟨0x80010, 0x4, 1, 0x4, 1, [(0, 24, .ro)]⟩,
    ⟨0x80014, 0x4, 1, 0x4, 1, [(0, 24, .ro)]⟩,
    ⟨0x80018, 0x4, 1, 0x4, 1, [(0, 24, .ro)]⟩,
    ⟨0x8001C, 0x4, 1, 0x4, 1, [(0, 24, .ro)]⟩,
    ⟨0x80020, 0x4, 2, 0x4, 1, [(0, 32, .ro)]⟩,
    ⟨0x80028, 0x4, 2, 0x4, 1, [(0, 32, .w1c)]⟩,
    ⟨0x80030, 0x4, 1, 0x4, 1, [(0, 32, .ro)]⟩,
    ⟨0x80800, 0x4, 64, 0x4, 1, [(16, 10, .rw 0 1000), (0, 8, .rw 1 255)]⟩,
    ⟨0x81000, 0x40, 64, 0x4, 1, [(0, 32, .own)]⟩,
    ⟨0x81004, 0x40, 64, 0x4, 1, [(0, 32, .own)]⟩ ]

def descsHIF1 : List RegDesc :=
  [ ⟨0x81008, 0x40, 64, 0x4, 1, [(0, 32, .own)]⟩,
    ⟨0x8100C, 0x40, 64, 0x4, 1, [(0, 32, .own)]⟩,
    ⟨0x81010, 0x40, 64, 0x4, 1, [(17, 8, .own), (11, 6, .own), (6, 5, .own), (1, 5, .own), (0, 1, .own)]⟩,
    ⟨0x81014, 0x40, 64, 0x4, 1, [(19, 1, .ro), (18, 1, .ro), (16, 1, .ro), (0, 16, .ro)]⟩,
    ⟨0x81018, 0x40, 64, 0x4, 1, [(27, 1, .ro), (16, 11, .ro), (0, 16, .ro)]⟩,
    ⟨0x84000, 0x10, 64, 0x4, 1, [(2, 30, .rw 0 0x3FFFFFFF)]⟩,
    ⟨0x84004, 0x10, 64, 0x4, 1, [(0, 32, .rw 0 0xFFFFFFFF)]⟩,
    ⟨0x84008, 0x10, 64, 0x4, 1, [(0, 32, .rw 0 0xFFFFFFFF)]⟩,
    ⟨0x8400C, 0x10, 64, 0x4, 1, [(0, 1, .own)]⟩,
    ⟨0x85000, 0x4, 2, 0x4, 1, [(0, 32, .ro)]⟩ ]

/-- The registers of HIF (R225). -/
def descsHIF : List RegDesc := descsHIF0 ++ descsHIF1

def descsICU0 : List RegDesc :=
  [ ⟨0x90000, 0x4, 1, 0x4, 1, [(4, 1, .ro), (0, 4, .ro)]⟩,
    ⟨0x90004, 0x4, 1, 0x4, 1, [(16, 16, .rw 0 0xFFFF), (0, 16, .rw 0 0xFFFF)]⟩,
    ⟨0x90008, 0x4, 1, 0x4, 1, [(0, 1, .own)]⟩,
    ⟨0x9000C, 0x4, 1, 0x4, 1, [(6, 1, .rw 0 1), (0, 6, .rw 0 63)]⟩,
    ⟨0x90010, 0x4, 4, 0x4, 1, [(0, 4, .own)]⟩,
    ⟨0x90020, 0x4, 1, 0x4, 1, [(0, 3, .ro)]⟩,
    ⟨0x90024, 0x4, 1, 0x4, 1, [(0, 3, .ro)]⟩,
    ⟨0x90028, 0x4, 1, 0x4, 1, [(0, 3, .ro)]⟩,
    ⟨0x9002C, 0x4, 1, 0x4, 1, [(0, 3, .ro)]⟩,
    ⟨0x90030, 0x4, 4, 0x4, 1, [(16, 8, .ro), (8, 4, .ro), (0, 4, .ro)]⟩,
    ⟨0x90040, 0x8, 4, 0x4, 1, [(0, 32, .rw 0 0xFFFFFFFF)]⟩,
    ⟨0x90044, 0x8, 4, 0x4, 1, [(0, 32, .rw 0 0xFFFFFFFF)]⟩ ]

def descsICU1 : List RegDesc :=
  [ ⟨0x90404, 0x4, 255, 0x4, 1, [(31, 1, .ro), (30, 1, .ro), (8, 2, .own), (0, 4, .own)]⟩,
    ⟨0x90800, 0x4, 128, 0x4, 1, [(31, 1, .own), (0, 12, .own)]⟩ ]

/-- The registers of ICU (R434). -/
def descsICU : List RegDesc := descsICU0 ++ descsICU1

def descsMMU0 : List RegDesc :=
  [ ⟨0xA0000, 0x4, 1, 0x4, 1, [(11, 1, .w1c), (10, 1, .w1c), (9, 1, .w1c), (8, 1, .ro), (0, 7, .ro)]⟩,
    ⟨0xA0004, 0x4, 1, 0x4, 1, [(0, 16, .rw 10 0xEA60)]⟩,
    ⟨0xA0008, 0x4, 1, 0x4, 1, [(12, 20, .rw 0 0xFFFFF)]⟩,
    ⟨0xA000C, 0x4, 1, 0x4, 1, [(0, 32, .rw 0 0xFFFFFFFF)]⟩,
    ⟨0xA0010, 0x4, 1, 0x4, 1, [(0, 17, .rw 0 0x10000)]⟩,
    ⟨0xA0014, 0x4, 1, 0x4, 1, [(0, 32, .rw 0 0xFFFFFFFF)]⟩,
    ⟨0xA0020, 0x4, 1, 0x4, 1, [(8, 8, .own), (0, 2, .own)]⟩,
    ⟨0xA0024, 0x4, 1, 0x4, 1, [(12, 20, .rw 0 0xFFFFF)]⟩,
    ⟨0xA0028, 0x4, 1, 0x4, 1, [(0, 16, .rw 0 0xFFFF)]⟩,
    ⟨0xA0040, 0x4, 1, 0x4, 1, [(31, 1, .ro), (30, 1, .ro), (26, 4, .ro), (24, 2, .ro), (12, 12, .ro), (0, 8, .ro)]⟩,
    ⟨0xA0044, 0x4, 1, 0x4, 1, [(0, 32, .ro)]⟩,
    ⟨0xA0048, 0x4, 1, 0x4, 1, [(24, 8, .ro), (16, 8, .ro), (0, 16, .ro)]⟩ ]

def descsMMU1 : List RegDesc :=
  [ ⟨0xA004C, 0x4, 1, 0x4, 1, [(30, 2, .own), (0, 8, .own)]⟩,
    ⟨0xA0080, 0x4, 8, 0x4, 1, [(0, 20, .ro)]⟩,
    ⟨0xA0400, 0x4, 86, 0x4, 1, [(31, 1, .own), (8, 1, .rw 0 1), (0, 8, .rw 0 255)]⟩,
    ⟨0xA1000, 0x8, 256, 0x4, 1, [(12, 20, .rw 0 0xFFFFF), (0, 1, .rw 0 1)]⟩,
    ⟨0xA1004, 0x8, 256, 0x4, 1, [(0, 16, .own)]⟩ ]

/-- The registers of MMU (R381). -/
def descsMMU : List RegDesc := descsMMU0 ++ descsMMU1

def descsDMA0 : List RegDesc :=
  [ ⟨0xB0000, 0x4, 1, 0x4, 1, [(0, 32, .ro)]⟩,
    ⟨0xB0004, 0x4, 1, 0x4, 1, [(0, 32, .ro)]⟩,
    ⟨0xB0008, 0x4, 1, 0x4, 1, [(0, 6, .own)]⟩,
    ⟨0xB0100, 0x4, 16, 0x4, 1, [(0, 16, .rw 0 0xFFFF)]⟩,
    ⟨0xB0140, 0x4, 18, 0x4, 1, [(0, 16, .ro)]⟩,
    ⟨0xB0188, 0x4, 30, 0x4, 1, [(0, 16, .rw 0 0xFFFF)]⟩,
    ⟨0xB1000, 0x40, 32, 0x4, 1, [(8, 2, .own), (0, 8, .own)]⟩,
    ⟨0xB1004, 0x40, 32, 0x4, 1, [(3, 1, .own), (2, 1, .own), (1, 1, .own), (0, 1, .own)]⟩,
    ⟨0xB1008, 0x40, 32, 0x4, 1, [(24, 8, .ro), (17, 1, .w1c), (16, 1, .w1c), (3, 1, .ro), (0, 3, .ro)]⟩,
    ⟨0xB100C, 0x40, 32, 0x4, 1, [(6, 26, .own)]⟩,
    ⟨0xB1010, 0x40, 32, 0x4, 1, [(0, 16, .own)]⟩,
    ⟨0xB1014, 0x40, 32, 0x4, 1, [(6, 26, .ro)]⟩,
    ⟨0xB1018, 0x40, 32, 0x4, 1, [(0, 16, .ro)]⟩,
    ⟨0xB101C, 0x40, 32, 0x4, 1, [(0, 32, .ro)]⟩ ]

def descsDMA1 : List RegDesc :=
  [ ⟨0xB1020, 0x40, 32, 0x4, 1, [(0, 32, .ro)]⟩,
    ⟨0xB1024, 0x40, 32, 0x4, 1, [(0, 32, .ro)]⟩,
    ⟨0xB1028, 0x40, 32, 0x4, 1, [(0, 16, .ro)]⟩,
    ⟨0xB102C, 0x40, 32, 0x4, 1, [(0, 32, .ro)]⟩,
    ⟨0xB1030, 0x40, 32, 0x4, 1, [(0, 32, .rw 0 0xFFFFFFFF)]⟩ ]

/-- The registers of DMA (R382). -/
def descsDMA : List RegDesc := descsDMA0 ++ descsDMA1

def descsSTK0 : List RegDesc :=
  [ ⟨0xC0000, 0x4, 1, 0x4, 1, [(0, 18, .ro)]⟩,
    ⟨0xC0004, 0x4, 1, 0x4, 1, [(16, 16, .rw 0 0xFFFF), (0, 16, .rw 0 0xFFFF)]⟩,
    ⟨0xC0020, 0x4, 8, 0x4, 1, [(0, 18, .ro)]⟩,
    ⟨0xC0100, 0x4, 1, 0x4, 1, [(0, 12, .rw 0 4095)]⟩,
    ⟨0xC0104, 0x4, 1, 0x4, 1, [(8, 8, .own), (1, 2, .own), (0, 1, .own)]⟩,
    ⟨0xC0108, 0x4, 1, 0x4, 1, [(0, 16, .own)]⟩,
    ⟨0xC010C, 0x4, 1, 0x4, 1, [(16, 16, .own), (0, 16, .own)]⟩,
    ⟨0xC0110, 0x4, 1, 0x4, 1, [(0, 14, .own)]⟩,
    ⟨0xC0114, 0x4, 1, 0x4, 1, [(16, 12, .own), (0, 12, .own)]⟩,
    ⟨0xC0118, 0x4, 1, 0x4, 1, [(31, 1, .ro), (30, 1, .ro), (28, 1, .ro), (16, 5, .ro), (0, 16, .ro)]⟩,
    ⟨0xC011C, 0x4, 1, 0x4, 1, [(0, 1, .own)]⟩,
    ⟨0xC0120, 0x4, 1, 0x4, 1, [(0, 18, .ro)]⟩ ]

/-- The registers of STK (R405). -/
def descsSTK : List RegDesc := descsSTK0

def descsLND0 : List RegDesc :=
  [ ⟨0xD0000, 0x4, 1, 0x4, 1, [(16, 16, .ro), (0, 16, .ro)]⟩,
    ⟨0xD0004, 0x4, 1, 0x4, 1, [(16, 16, .rw 0 0xFFFF), (0, 16, .rw 0 0xFFFF)]⟩,
    ⟨0xD0008, 0x4, 1, 0x4, 1, [(0, 32, .ro)]⟩,
    ⟨0xD000C, 0x4, 1, 0x4, 1, [(0, 1, .own)]⟩,
    ⟨0xD0100, 0x40, 16, 0x4, 1, [(8, 4, .own), (0, 5, .own)]⟩,
    ⟨0xD0104, 0x40, 16, 0x4, 1, [(0, 32, .own)]⟩,
    ⟨0xD0108, 0x40, 16, 0x4, 1, [(0, 16, .own)]⟩,
    ⟨0xD010C, 0x40, 16, 0x4, 1, [(0, 27, .own)]⟩,
    ⟨0xD0110, 0x40, 16, 0x4, 1, [(0, 32, .own)]⟩,
    ⟨0xD0114, 0x40, 16, 0x4, 1, [(0, 16, .own)]⟩,
    ⟨0xD0118, 0x40, 16, 0x4, 1, [(1, 1, .own), (0, 1, .own)]⟩,
    ⟨0xD011C, 0x40, 16, 0x4, 1, [(31, 1, .ro), (30, 1, .ro), (29, 1, .w1c), (0, 6, .ro)]⟩ ]

def descsLND1 : List RegDesc :=
  [ ⟨0xD0120, 0x40, 16, 0x4, 1, [(0, 27, .ro)]⟩,
    ⟨0xD0124, 0x40, 16, 0x4, 1, [(0, 27, .rw 0 0x7FFFFFF)]⟩,
    ⟨0xD0128, 0x40, 16, 0x4, 1, [(0, 32, .rw 0 0xFFFFFFFF)]⟩,
    ⟨0xD012C, 0x40, 16, 0x4, 1, [(0, 32, .rw 0 0xFFFFFFFF)]⟩ ]

/-- The registers of LND (R406). -/
def descsLND : List RegDesc := descsLND0 ++ descsLND1

def descsDRC0 : List RegDesc :=
  [ ⟨0xE0000, 0x4, 1, 0x4, 1, [(10, 8, .ro), (2, 8, .ro), (1, 1, .ro), (0, 1, .ro)]⟩,
    ⟨0xE0004, 0x4, 1, 0x4, 1, [(16, 16, .ro), (6, 2, .ro), (4, 2, .ro), (0, 2, .ro)]⟩,
    ⟨0xE0008, 0x4, 1, 0x4, 1, [(24, 6, .own), (16, 6, .own), (0, 7, .own)]⟩,
    ⟨0xE000C, 0x4, 1, 0x4, 1, [(0, 15, .rw 500 0x7FFF)]⟩,
    ⟨0xE0100, 0x40, 8, 0x4, 1, [(8, 4, .ro), (2, 1, .ro), (1, 1, .ro), (0, 1, .ro)]⟩,
    ⟨0xE0104, 0x40, 8, 0x4, 1, [(0, 32, .rw 0 0xFFFFFFFF)]⟩,
    ⟨0xE0108, 0x40, 8, 0x4, 1, [(0, 32, .rw 0 0xFFFFFFFF)]⟩,
    ⟨0xE010C, 0x40, 8, 0x4, 1, [(0, 32, .rw 0 0xFFFFFFFF)]⟩,
    ⟨0xE0110, 0x40, 8, 0x4, 1, [(0, 32, .rw 0 0xFFFFFFFF)]⟩,
    ⟨0xE0114, 0x40, 8, 0x4, 1, [(0, 32, .rw 0 0xFFFFFFFF)]⟩,
    ⟨0xE0118, 0x40, 8, 0x4, 1, [(24, 8, .ro), (16, 8, .ro), (8, 8, .ro), (0, 8, .ro)]⟩,
    ⟨0xE011C, 0x40, 8, 0x4, 1, [(24, 8, .ro), (16, 8, .ro), (8, 8, .ro), (0, 8, .ro)]⟩ ]

/-- The registers of DRC (R355). -/
def descsDRC : List RegDesc := descsDRC0

def descsMPR0 : List RegDesc :=
  [ ⟨0xF0000, 0x4, 1, 0x4, 1, [(16, 16, .ro), (0, 5, .ro)]⟩,
    ⟨0xF0010, 0x4, 1, 0x4, 1, [(8, 22, .own), (1, 1, .own), (0, 1, .own)]⟩,
    ⟨0xF0014, 0x4, 1, 0x4, 1, [(16, 16, .ro), (1, 1, .w1c), (0, 1, .ro)]⟩,
    ⟨0xF0018, 0x4, 1, 0x4, 1, [(0, 32, .ro)]⟩,
    ⟨0xF001C, 0x4, 1, 0x4, 1, [(0, 32, .rw 1 0x15180)]⟩,
    ⟨0xF0020, 0x8, 8, 0x4, 1, [(0, 32, .rw 0 0xFFFFFFFF)]⟩,
    ⟨0xF0024, 0x8, 8, 0x4, 1, [(0, 32, .rw 0 0xFFFFFFFF)]⟩,
    ⟨0xF0060, 0x4, 1, 0x4, 1, [(0, 32, .ro)]⟩,
    ⟨0xF0080, 0x4, 8, 0x4, 1, [(0, 32, .rw 0 0xFFFFFFFF)]⟩,
    ⟨0xF00A0, 0x4, 8, 0x4, 1, [(0, 32, .rw 0 0xFFFFFFFF)]⟩,
    ⟨0xF00C0, 0x4, 1, 0x4, 1, [(0, 32, .rw 0 0xFFFFFFFF)]⟩,
    ⟨0xF00C4, 0x4, 1, 0x4, 1, [(0, 32, .rw 0 0xFFFFFFFF)]⟩ ]

def descsMPR1 : List RegDesc :=
  [ ⟨0xF00C8, 0x4, 1, 0x4, 1, [(0, 32, .rw 0 0xFFFFFFFF)]⟩,
    ⟨0xF0100, 0x10, 16, 0x4, 1, [(0, 32, .ro)]⟩,
    ⟨0xF0104, 0x10, 16, 0x4, 1, [(31, 1, .own), (30, 1, .ro), (16, 12, .ro), (0, 16, .ro)]⟩,
    ⟨0xF0108, 0x10, 16, 0x4, 1, [(16, 16, .ro), (0, 8, .ro)]⟩,
    ⟨0xF010C, 0x10, 16, 0x4, 1, [(0, 32, .ro)]⟩ ]

/-- The registers of MPR (R356). -/
def descsMPR : List RegDesc := descsMPR0 ++ descsMPR1

def descsACC0 : List RegDesc :=
  [ ⟨0x100000, 0x4, 1, 0x4, 1, [(2, 6, .ro), (0, 2, .ro)]⟩,
    ⟨0x100004, 0x4, 1, 0x4, 1, [(0, 2, .own)]⟩,
    ⟨0x100008, 0x4, 1, 0x4, 1, [(0, 32, .rw 0 0xFFFFFFFF)]⟩,
    ⟨0x10000C, 0x4, 1, 0x4, 1, [(0, 32, .rw 0 0xFFFFFFFF)]⟩,
    ⟨0x100100, 0x20, 6, 0x4, 1, [(8, 5, .own), (0, 8, .own)]⟩,
    ⟨0x100104, 0x20, 6, 0x4, 1, [(8, 4, .ro), (7, 1, .ro), (6, 1, .ro), (5, 1, .ro), (0, 4, .ro)]⟩,
    ⟨0x100108, 0x20, 6, 0x4, 1, [(24, 8, .rw 0 255), (16, 8, .rw 0 255), (8, 8, .rw 0 255), (0, 8, .rw 0 255)]⟩,
    ⟨0x10010C, 0x20, 6, 0x4, 1, [(16, 16, .rw 0 0xFFFF), (0, 16, .rw 0 0xFFFF)]⟩,
    ⟨0x100110, 0x20, 6, 0x4, 1, [(16, 16, .rw 0 0xFFFF), (0, 16, .rw 0 0xFFFF)]⟩,
    ⟨0x100114, 0x20, 6, 0x4, 1, [(16, 7, .ro), (0, 7, .ro)]⟩ ]

/-- The registers of ACC (R245). -/
def descsACC : List RegDesc := descsACC0

def descsCAR0 : List RegDesc :=
  [ ⟨0x110000, 0x4, 1, 0x4, 1, [(16, 16, .ro), (0, 16, .ro)]⟩,
    ⟨0x110004, 0x4, 1, 0x4, 1, [(16, 16, .rw 0 0xFFFF), (0, 16, .rw 0 0xFFFF)]⟩,
    ⟨0x110100, 0x10, 68, 0x4, 1, [(1, 1, .own), (0, 1, .own)]⟩,
    ⟨0x110104, 0x10, 68, 0x4, 1, [(16, 16, .ro), (4, 11, .ro), (3, 1, .ro), (0, 3, .ro)]⟩,
    ⟨0x110108, 0x10, 68, 0x4, 1, [(16, 11, .ro), (0, 16, .ro)]⟩,
    ⟨0x11010C, 0x10, 68, 0x4, 1, [(16, 16, .rw 0 0xFFFF), (0, 16, .rw 0 0xFFFF)]⟩ ]

/-- The registers of CAR (R435). -/
def descsCAR : List RegDesc := descsCAR0

def descsSCB0 : List RegDesc :=
  [ ⟨0x120000, 0x4, 1, 0x4, 1, [(16, 16, .ro), (0, 16, .ro)]⟩,
    ⟨0x120004, 0x4, 1, 0x4, 1, [(16, 16, .rw 0 0xFFFF), (0, 16, .rw 0 0xFFFF)]⟩,
    ⟨0x120100, 0x10, 18, 0x4, 1, [(1, 1, .own), (0, 1, .own)]⟩,
    ⟨0x120104, 0x10, 18, 0x4, 1, [(16, 16, .ro), (4, 11, .ro), (3, 1, .ro), (0, 3, .ro)]⟩,
    ⟨0x120108, 0x10, 18, 0x4, 1, [(16, 11, .ro), (0, 16, .ro)]⟩,
    ⟨0x12010C, 0x10, 18, 0x4, 1, [(16, 16, .rw 0 0xFFFF), (0, 16, .rw 0 0xFFFF)]⟩ ]

/-- The registers of SCB (R435). -/
def descsSCB : List RegDesc := descsSCB0

def descsBND0 : List RegDesc :=
  [ ⟨0x130000, 0x4, 1, 0x4, 1, [(4, 7, .ro), (2, 2, .ro), (0, 2, .ro)]⟩,
    ⟨0x130004, 0x4, 1, 0x4, 1, [(16, 16, .rw 100 0x2710), (0, 16, .rw 100 0x2710)]⟩,
    ⟨0x130008, 0x4, 1, 0x4, 1, [(0, 16, .rw 64 0x4000)]⟩,
    ⟨0x130100, 0x80, 2, 0x4, 1, [(16, 3, .ro), (12, 1, .ro), (11, 1, .ro), (8, 3, .ro), (4, 3, .ro), (0, 4, .ro)]⟩,
    ⟨0x130104, 0x80, 2, 0x4, 1, [(16, 16, .own), (0, 4, .own)]⟩,
    ⟨0x130108, 0x80, 2, 0x4, 1, [(8, 8, .ro), (1, 1, .ro), (0, 1, .w1c)]⟩,
    ⟨0x13010C, 0x80, 2, 0x4, 1, [(0, 16, .rw 0 0xFFFF)]⟩,
    ⟨0x130110, 0x80, 2, 0x4, 1, [(0, 20, .ro)]⟩,
    ⟨0x130114, 0x80, 2, 0x4, 1, [(0, 20, .ro)]⟩,
    ⟨0x130118, 0x80, 2, 0x4, 1, [(0, 20, .rw 0 0xFFFFF)]⟩,
    ⟨0x13011C, 0x80, 2, 0x4, 1, [(16, 16, .rw 0 0xFFFF), (0, 16, .rw 0 0xFFFF)]⟩,
    ⟨0x130120, 0x80, 2, 0x4, 1, [(16, 16, .rw 0 0xFFFF), (0, 16, .rw 0 0xFFFF)]⟩ ]

def descsBND1 : List RegDesc :=
  [ ⟨0x130124, 0x80, 2, 0x4, 1, [(16, 16, .rw 0 0xFFFF), (0, 16, .rw 0 0xFFFF)]⟩,
    ⟨0x130128, 0x80, 2, 0x4, 1, [(16, 16, .ro), (8, 8, .ro), (0, 8, .ro)]⟩,
    ⟨0x13012C, 0x80, 2, 0x4, 1, [(0, 32, .rw 0 0xFFFFFFFF)]⟩,
    ⟨0x130130, 0x80, 2, 0x4, 1, [(0, 32, .ro)]⟩,
    ⟨0x130134, 0x80, 2, 0x4, 1, [(0, 32, .ro)]⟩,
    ⟨0x130138, 0x80, 2, 0x4, 1, [(0, 32, .ro)]⟩,
    ⟨0x13013C, 0x80, 2, 0x4, 1, [(0, 32, .ro)]⟩ ]

/-- The registers of BND (R283). -/
def descsBND : List RegDesc := descsBND0 ++ descsBND1

def descsNET0 : List RegDesc :=
  [ ⟨0x140000, 0x8000, 2, 0x4, 1, [(8, 3, .own), (4, 3, .own), (1, 2, .own), (0, 1, .own)]⟩,
    ⟨0x140004, 0x8000, 2, 0x4, 1, [(8, 5, .ro), (3, 1, .ro), (2, 1, .ro), (1, 1, .ro), (0, 1, .ro)]⟩,
    ⟨0x140008, 0x8000, 2, 0x4, 1, [(0, 32, .own)]⟩,
    ⟨0x14000C, 0x8000, 2, 0x4, 1, [(0, 16, .own)]⟩,
    ⟨0x140010, 0x8000, 2, 0x4, 1, [(0, 32, .own)]⟩,
    ⟨0x140014, 0x8000, 2, 0x4, 1, [(0, 32, .own)]⟩,
    ⟨0x140018, 0x8000, 2, 0x4, 1, [(0, 32, .own)]⟩,
    ⟨0x14001C, 0x8000, 2, 0x4, 1, [(0, 32, .own)]⟩,
    ⟨0x140020, 0x8000, 2, 0x4, 1, [(0, 32, .own)]⟩,
    ⟨0x140024, 0x8000, 2, 0x4, 1, [(0, 15, .rw 1 0x61A8)]⟩,
    ⟨0x140028, 0x8000, 2, 0x4, 1, [(0, 32, .rw 0 0xFFFFFFFF)]⟩,
    ⟨0x14002C, 0x8000, 2, 0x4, 1, [(0, 32, .rw 0 0xFFFFFFFF)]⟩ ]

def descsNET1 : List RegDesc :=
  [ ⟨0x140030, 0x8000, 2, 0x4, 1, [(0, 32, .rw 0 0xFFFFFFFF)]⟩,
    ⟨0x140034, 0x8000, 2, 0x4, 1, [(0, 32, .rw 0 0xFFFFFFFF)]⟩,
    ⟨0x140040, 0x8000, 2, 0x4, 1, [(0, 1, .own)]⟩,
    ⟨0x140044, 0x8000, 2, 0x4, 1, [(16, 16, .ro), (3, 1, .w1c), (2, 1, .w1c), (1, 1, .ro), (0, 1, .ro)]⟩,
    ⟨0x140048, 0x8000, 2, 0x4, 1, [(0, 32, .rw 0 0xFFFFFFFF)]⟩,
    ⟨0x14004C, 0x8000, 2, 0x4, 1, [(0, 16, .rw 0 0xFFFF)]⟩,
    ⟨0x140050, 0x8000, 2, 0x4, 1, [(0, 30, .rw 0 0x3FFFFFFF)]⟩,
    ⟨0x140054, 0x8000, 2, 0x4, 1, [(0, 30, .rw 0 0x3FFFFFFF)]⟩,
    ⟨0x140058, 0x8000, 2, 0x4, 1, [(0, 8, .rw 0 255)]⟩,
    ⟨0x140060, 0x8000, 2, 0x4, 1, [(0, 10, .rw 1 1000)]⟩,
    ⟨0x140080, 0x4, 1, 0x4, 1, [(24, 7, .own), (23, 1, .own), (8, 8, .own), (0, 8, .own)]⟩,
    ⟨0x140084, 0x4, 1, 0x4, 1, [(10, 1, .w1c), (9, 1, .ro), (8, 1, .ro), (0, 8, .ro)]⟩ ]

def descsNET2 : List RegDesc :=
  [ ⟨0x140100, 0x10, 8, 0x8000, 2, [(0, 25, .own)]⟩,
    ⟨0x140104, 0x10, 8, 0x8000, 2, [(0, 20, .own)]⟩,
    ⟨0x140108, 0x10, 8, 0x8000, 2, [(0, 20, .own)]⟩,
    ⟨0x14010C, 0x10, 8, 0x8000, 2, [(0, 32, .ro)]⟩,
    ⟨0x140200, 0x10, 8, 0x8000, 2, [(16, 16, .rw 0 0xFFFF), (0, 16, .ro)]⟩,
    ⟨0x140204, 0x10, 8, 0x8000, 2, [(16, 16, .rw 0 0xFFFF), (0, 16, .ro)]⟩,
    ⟨0x140208, 0x10, 8, 0x8000, 2, [(0, 32, .rw 0 0xFFFFFFFF)]⟩,
    ⟨0x14020C, 0x10, 8, 0x8000, 2, [(0, 32, .rw 0 0xFFFFFFFF)]⟩,
    ⟨0x140400, 0x20, 16, 0x8000, 2, [(0, 32, .own)]⟩,
    ⟨0x140404, 0x20, 16, 0x8000, 2, [(16, 12, .own), (0, 16, .own)]⟩,
    ⟨0x140408, 0x20, 16, 0x8000, 2, [(4, 3, .own), (3, 1, .own), (2, 1, .own), (1, 1, .own), (0, 1, .own)]⟩,
    ⟨0x14040C, 0x20, 16, 0x8000, 2, [(0, 25, .own)]⟩ ]

def descsNET3 : List RegDesc :=
  [ ⟨0x140410, 0x20, 16, 0x8000, 2, [(0, 24, .own)]⟩,
    ⟨0x140414, 0x20, 16, 0x8000, 2, [(0, 32, .rw 0 0xFFFFFFFF)]⟩,
    ⟨0x140418, 0x20, 16, 0x8000, 2, [(0, 32, .rw 0 0xFFFFFFFF)]⟩,
    ⟨0x140800, 0x10, 16, 0x8000, 2, [(16, 1, .ro), (0, 8, .ro)]⟩,
    ⟨0x140804, 0x10, 16, 0x8000, 2, [(0, 32, .rw 0 0xFFFFFFFF)]⟩,
    ⟨0x140808, 0x10, 16, 0x8000, 2, [(0, 32, .rw 0 0xFFFFFFFF)]⟩,
    ⟨0x14080C, 0x10, 16, 0x8000, 2, [(16, 16, .rw 0 0xFFFF), (0, 16, .rw 0 0xFFFF)]⟩,
    ⟨0x141000, 0x8, 128, 0x8000, 2, [(0, 8, .rw 0 255)]⟩,
    ⟨0x141004, 0x8, 128, 0x8000, 2, [(0, 32, .rw 0 0xFFFFFFFF)]⟩,
    ⟨0x141800, 0x8, 128, 0x8000, 2, [(0, 8, .ro)]⟩,
    ⟨0x141804, 0x8, 128, 0x8000, 2, [(0, 32, .ro)]⟩ ]

/-- The registers of NET (R309). -/
def descsNET : List RegDesc := descsNET0 ++ descsNET1 ++ descsNET2 ++ descsNET3

def descsDAT0 : List RegDesc :=
  [ ⟨0x150000, 0x4, 1, 0x4, 1, [(2, 1, .own), (1, 1, .own), (0, 1, .own)]⟩,
    ⟨0x150004, 0x4, 1, 0x4, 1, [(24, 8, .ro), (23, 1, .ro), (16, 6, .ro), (3, 1, .w1c), (2, 1, .w1c), (1, 1, .w1c), (0, 1, .ro)]⟩,
    ⟨0x150008, 0x4, 1, 0x4, 1, [(0, 32, .own)]⟩,
    ⟨0x150010, 0x4, 1, 0x4, 1, [(0, 32, .ro)]⟩,
    ⟨0x150014, 0x4, 1, 0x4, 1, [(0, 32, .ro)]⟩,
    ⟨0x150018, 0x4, 1, 0x4, 1, [(0, 32, .ro)]⟩,
    ⟨0x150020, 0x4, 1, 0x4, 1, [(0, 32, .rw 0 0xFFFFFFFF)]⟩,
    ⟨0x150024, 0x4, 1, 0x4, 1, [(0, 32, .rw 0 0xFFFFFFFF)]⟩,
    ⟨0x150028, 0x4, 1, 0x4, 1, [(0, 30, .rw 0 0x3FFFFFFF)]⟩,
    ⟨0x15002C, 0x4, 1, 0x4, 1, [(0, 32, .rw 0 0xFFFFFFFF)]⟩,
    ⟨0x150030, 0x4, 1, 0x4, 1, [(12, 2, .rw 0 2), (11, 1, .rw 0 1), (10, 1, .rw 0 1), (8, 2, .rw 0 3), (0, 7, .rw 0 127)]⟩,
    ⟨0x150034, 0x4, 1, 0x4, 1, [(16, 16, .rw 10 0xFFFF), (0, 16, .rw 0 0xFFFF)]⟩ ]

def descsDAT1 : List RegDesc :=
  [ ⟨0x150038, 0x4, 1, 0x4, 1, [(8, 1, .ro), (0, 3, .ro)]⟩,
    ⟨0x15003C, 0x4, 1, 0x4, 1, [(0, 32, .ro)]⟩,
    ⟨0x150040, 0x10, 2, 0x4, 1, [(0, 32, .rw 0 0xFFFFFFFF)]⟩,
    ⟨0x150044, 0x10, 2, 0x4, 1, [(0, 32, .rw 0 0xFFFFFFFF)]⟩,
    ⟨0x150048, 0x10, 2, 0x4, 1, [(0, 32, .rw 0 0xFFFFFFFF)]⟩,
    ⟨0x150060, 0x4, 1, 0x4, 1, [(0, 32, .rw 0 0xFFFFFFFF)]⟩,
    ⟨0x150064, 0x4, 1, 0x4, 1, [(0, 32, .rw 0 0xFFFFFFFF)]⟩,
    ⟨0x150068, 0x4, 1, 0x4, 1, [(0, 30, .rw 0 0x3FFFFFFF)]⟩,
    ⟨0x15006C, 0x4, 1, 0x4, 1, [(5, 1, .w1c), (4, 1, .w1c), (3, 1, .ro), (2, 1, .rw 0 1), (1, 1, .own), (0, 1, .own)]⟩,
    ⟨0x150070, 0x4, 1, 0x4, 1, [(17, 1, .rw 0 1), (16, 1, .rw 0 1), (0, 10, .rw 1 999)]⟩,
    ⟨0x150100, 0x20, 8, 0x4, 1, [(0, 32, .rw 0 0xFFFFFFFF)]⟩,
    ⟨0x150104, 0x20, 8, 0x4, 1, [(0, 32, .rw 0 0xFFFFFFFF)]⟩ ]

def descsDAT2 : List RegDesc :=
  [ ⟨0x150108, 0x20, 8, 0x4, 1, [(0, 30, .rw 0 0x3FFFFFFF)]⟩,
    ⟨0x15010C, 0x20, 8, 0x4, 1, [(0, 32, .rw 0 0xFFFFFFFF)]⟩,
    ⟨0x150110, 0x20, 8, 0x4, 1, [(0, 32, .rw 0 0xFFFFFFFF)]⟩,
    ⟨0x150114, 0x20, 8, 0x4, 1, [(0, 32, .rw 0 0xFFFFFFFF)]⟩,
    ⟨0x150118, 0x20, 8, 0x4, 1, [(8, 1, .rw 0 1), (1, 1, .own), (0, 1, .own)]⟩,
    ⟨0x15011C, 0x20, 8, 0x4, 1, [(16, 16, .ro), (3, 1, .w1c), (2, 1, .w1c), (1, 1, .ro), (0, 1, .ro)]⟩,
    ⟨0x150200, 0x20, 4, 0x4, 1, [(9, 1, .rw 0 1), (8, 1, .own), (0, 2, .own)]⟩,
    ⟨0x150204, 0x20, 4, 0x4, 1, [(31, 1, .ro), (24, 6, .ro), (16, 5, .ro), (12, 1, .ro), (0, 12, .ro)]⟩,
    ⟨0x150208, 0x20, 4, 0x4, 1, [(0, 32, .ro)]⟩,
    ⟨0x15020C, 0x20, 4, 0x4, 1, [(0, 32, .ro)]⟩,
    ⟨0x150210, 0x20, 4, 0x4, 1, [(0, 32, .ro)]⟩ ]

/-- The registers of DAT (R327). -/
def descsDAT : List RegDesc := descsDAT0 ++ descsDAT1 ++ descsDAT2

def descsSMB0 : List RegDesc :=
  [ ⟨0x160000, 0x4, 1, 0x4, 1, [(12, 4, .own), (8, 1, .own), (0, 7, .own)]⟩,
    ⟨0x160004, 0x4, 1, 0x4, 1, [(16, 16, .rw 0 0xFFFF), (0, 16, .rw 0 0xFFFF)]⟩,
    ⟨0x160008, 0x4, 1, 0x4, 1, [(0, 16, .rw 0 0xFFFF)]⟩ ]

/-- The registers of SMB (R506). -/
def descsSMB : List RegDesc := descsSMB0

def descsDBL0 : List RegDesc :=
  [ ⟨0x800000, 0x1000, 64, 0x4, 1, [(0, 16, .own)]⟩,
    ⟨0x800004, 0x1000, 64, 0x4, 1, [(0, 16, .own)]⟩ ]

/-- The registers of DBL (R191). -/
def descsDBL : List RegDesc := descsDBL0

/-- The registers of the block that holds an offset (R23). -/
def descsOf (off : Nat) : List RegDesc :=
  if 0x800000 ≤ off then descsDBL else
  match off / 0x10000 with
  | 0x0 => descsTOP
  | 0x1 => descsKPR
  | 0x2 => descsFUS
  | 0x3 => descsRST
  | 0x4 => descsPWR
  | 0x5 => descsCNS
  | 0x6 => descsRGS
  | 0x7 => descsCAT
  | 0x8 => descsHIF
  | 0x9 => descsICU
  | 0xA => descsMMU
  | 0xB => descsDMA
  | 0xC => descsSTK
  | 0xD => descsLND
  | 0xE => descsDRC
  | 0xF => descsMPR
  | 0x10 => descsACC
  | 0x11 => descsCAR
  | 0x12 => descsSCB
  | 0x13 => descsBND
  | 0x14 => descsNET
  | 0x15 => descsDAT
  | 0x16 => descsSMB
  | _ => []

/-- An offset is one of a register array's. -/
def RegDesc.covers (d : RegDesc) (off : Nat) : Bool :=
  (List.range d.pcount).any fun p =>
    let o := d.base + d.pstride * p
    decide (o ≤ off) && (off - o) % d.stride == 0 && decide ((off - o) / d.stride < d.count)

/-- The register at an offset, if the map assigns one. -/
def regDesc (off : Nat) : Option RegDesc := (descsOf off).find? (·.covers off)

/-- The reset word of a register (the Reset columns of the register maps), `big` on the DD-4816. Every register
not named here resets to 0. -/
def resetNat (big : Bool) (off : Nat) : Nat :=
  if 0x800000 ≤ off then 0 else
  match off / 0x10000 with
  | 0x0 =>  -- TOP
    if off = 0x0 then (if big then 0xDDA14816 else 0xDDA14808)
    else if off = 0x4 then 0x21
    else if off = 0x8 then (if big then 0xEA81244 else 0x6940A24)
    else if off = 0x18 then 0x4000400
    else 0
  | 0x4 =>  -- PWR
    if off = 0x4000C then 0x21
    else if off = 0x40028 then 0xF8000000
    else if off = 0x4002C then (if big then 0x1FF else 0x13F)
    else if off = 0x40038 then 0xF8000000
    else if off = 0x4003C then (if big then 0x1FF else 0x13F)
    else 0
  | 0x6 =>  -- RGS
    if off = 0x60004 then 0x3
    else if 0x6001C ≤ off ∧ off ≤ 0x60028 then 0xFFFFFFFF
    else if off = 0x6002C then 0xFFFFFFFF
    else if off = 0x60060 then 0xFF
    else 0
  | 0x8 =>  -- HIF
    if off = 0x80010 then (if big then 0x11000 else 0x9000)
    else if off = 0x80018 then (if big then 0x4800 else 0x2800)
    else if 0x80800 ≤ off ∧ off ≤ 0x808FC then 0x1
    else if 0x8400C ≤ off ∧ off ≤ 0x843FC ∧ (off - 0x8400C) % 0x10 = 0 then 0x1
    else 0
  | 0x9 =>  -- ICU
    if off = 0x90024 then 0x1
    else if off = 0x90028 then 0x2
    else if off = 0x9002C then 0x3
    else if 0x90040 ≤ off ∧ off ≤ 0x90058 ∧ (off - 0x90040) % 0x8 = 0 then 0xFFFFFFFF
    else if 0x90044 ≤ off ∧ off ≤ 0x9005C ∧ (off - 0x90044) % 0x8 = 0 then 0xFFFFFFFF
    else 0
  | 0xA =>  -- MMU
    if off = 0xA0004 then 0x3E8
    else if off = 0xA0080 then 0xCC0FF
    else if off = 0xA0084 then 0xFFF13
    else if off = 0xA0088 then 0x13
    else if off = 0xA008C then 0xC0F03
    else if off = 0xA0090 then 0x33F03
    else if off = 0xA0094 then 0x3
    else if off = 0xA0098 then 0xC
    else if off = 0xA009C then 0x33F03
    else 0
  | 0xC =>  -- STK
    if off = 0xC0000 then 0x20000
    else if 0xC0020 ≤ off ∧ off ≤ 0xC003C then 0x4000
    else if off = 0xC0110 then 0x64
    else if off = 0xC0118 then 0x10000000
    else 0
  | 0xD =>  -- LND
    if 0xD0100 ≤ off ∧ off ≤ 0xD04C0 ∧ (off - 0xD0100) % 0x40 = 0 then 0xF0C
    else 0
  | 0xE =>  -- DRC
    if off = 0xE0008 then 0x10300014
    else if off = 0xE000C then 0x7D0
    else 0
  | 0xF =>  -- MPR
    if off = 0xF0010 then 0x3E800
    else if off = 0xF001C then 0x78
    else 0
  | 0x10 =>  -- ACC
    if off = 0x100000 then 0x3
    else if 0x100100 ≤ off ∧ off ≤ 0x1001A0 ∧ (off - 0x100100) % 0x20 = 0 then 0xE4
    else 0
  | 0x13 =>  -- BND
    if off = 0x130004 then 0x7D003E8
    else if off = 0x130008 then 0x1000
    else if 0x130118 ≤ off ∧ off ≤ 0x130198 ∧ (off - 0x130118) % 0x80 = 0 then 0x40
    else 0
  | 0x14 =>  -- NET
    if off % 0x8000 = 0x0 then 0x700
    else if off % 0x8000 = 0x4 then 0x8
    else if off % 0x8000 = 0x24 then 0x57E4
    else if off % 0x8000 = 0x60 then 0x64
    else if 0x104 ≤ off % 0x8000 ∧ off % 0x8000 ≤ 0x174 ∧ (off - 0x140104) % 0x10 = 0 then 0xBDC
    else if 0x108 ≤ off % 0x8000 ∧ off % 0x8000 ≤ 0x178 ∧ (off - 0x140108) % 0x10 = 0 then 0xBDC
    else if off = 0x140408 then 0x1
    else if off = 0x14040C then 0x186A0
    else if off = 0x140410 then 0x4000
    else if off = 0x148408 then 0x1
    else if off = 0x14840C then 0x186A0
    else if off = 0x148410 then 0x4000
    else 0
  | 0x15 =>  -- DAT
    if off = 0x150004 then 0x1
    else if off = 0x150008 then 0x40000000
    else if off = 0x150010 then 0xFFFFFFFF
    else if off = 0x150014 then 0xFFFFFFFF
    else if off = 0x150018 then 0xFFFFFFFF
    else if off = 0x150030 then 0x87F
    else if off = 0x150034 then 0x3E803E8
    else if off = 0x150070 then 0x64
    else if 0x150208 ≤ off ∧ off ≤ 0x150268 ∧ (off - 0x150208) % 0x20 = 0 then 0xFFFFFFFF
    else if 0x15020C ≤ off ∧ off ≤ 0x15026C ∧ (off - 0x15020C) % 0x20 = 0 then 0xFFFFFFFF
    else if 0x150210 ≤ off ∧ off ≤ 0x150270 ∧ (off - 0x150210) % 0x20 = 0 then 0xFFFFFFFF
    else 0
  | 0x16 =>  -- SMB
    if off = 0x160000 then 0x13A
    else 0
  | _ => 0

/-- The reset word. -/
def resetWord (big : Bool) (off : Nat) : Word := BitVec.ofNat 32 (resetNat big off)

end Sys2Proof.Machine
end

