-- ==== Sys2Proof/Machine/UnitsDater.lean ====
section
/-! DEFINITION. What the block holds behind the DAT registers (11): schedules of the time outputs, capture queues, the pulse
per second, the servo. Times are counted in units of 2^-28 ns (R310), schedule instants in whole nanoseconds. -/
namespace Sys2Proof.Machine

/-- A schedule of a time output (R321): START in ns, rate, width, POLARITY when it was armed, and the index of its next edge. -/
structure Sched where
  start : Nat
  num : Nat
  den : Nat
  width : Nat
  n : Nat
  deriving DecidableEq, Repr

/-- Time of the nth leading edge (R321). -/
def Sched.edge (c : Sched) (n : Nat) : Nat := c.start + (if c.num = 0 then 0 else n * 1000000000 * c.den / c.num)

/-- The instant of the next edge. -/
def Sched.next (c : Sched) : Nat := c.edge c.n

/-- A time output (R322, R323): running and pending schedules, end of the pulse in progress, whether an ARM has ever taken
effect since reset (R493). -/
structure Tout where
  running : Option Sched
  pending : Option Sched
  /-- end of the pulse in progress, in ns -/
  pulse : Option Nat
  configured : Bool
  deriving DecidableEq, Repr

def Tout.init : Tout := { running := none, pending := none, pulse := none, configured := false }

/-- A master that an enabled port hears and whose Announce messages qualify it (R316): the port, its identity, and its data set in the order
of comparison of IEEE 1588. -/
structure Master where
  port : Nat
  id : Nat
  data : List Nat
  deriving DecidableEq, Repr

/-- The PTP instance and the servo (R316 to R318). Times are in units of 2^-28 ns. -/
structure Servo where
  masters : List Master
  /-- the master that the servo takes time from, once selected -/
  master : Option Nat
  /-- a two-step Sync that waits for its Follow_Up: sequence number, corrected ingress time less its correction -/
  sync : Option (Nat × Int)
  /-- ingress time less origin of the last complete Sync; what a Delay_Req with its Delay_Resp has measured the other way -/
  down : Option Int
  up : Option Int
  /-- the Delay_Req in hand: sequence number and corrected egress time once it has left -/
  req : Option (Nat × Option Int)
  /-- consecutive offsets within LOCK_NS, and above 4 times it -/
  good : Nat
  bad : Nat
  /-- spans of ACQUIRING and LOCKED since ACQUIRING was last entered from LISTENING: ticks, INCR, in LOCKED; newest first -/
  spans : List (Nat × Nat × Bool)
  /-- tick at which the span in progress began -/
  since : Nat
  /-- sequence number of the next Delay_Req, Sync and Announce; message types sent, each with the tick of its last sending -/
  seq : Nat
  sent : List (Nat × Nat)
  deriving DecidableEq, Repr

def Servo.init : Servo :=
  { masters := [], master := none, sync := none, down := none, up := none, req := none, good := 0, bad := 0, spans := [], since := 0, seq := 0, sent := [] }

/-- A change of the time (R311). -/
inductive TimeChange where
  | set (t : Nat)
  | step (ns : Int)
  deriving DecidableEq, Repr

/-- A command that has been written and takes effect at the next tick (R311): SNAP, and SET or STEP with the value written. -/
structure DaterCmd where
  snap : Bool
  change : Option TimeChange
  deriving DecidableEq, Repr

/-- The Dater (R310 to R326). -/
structure Dater where
  outs : Tab Tout
  /-- captures waiting at each input, oldest first: time and whether rising -/
  ins : Tab (List (Nat × Bool))
  /-- end of the PPS pulse in progress, in ns -/
  pps : Option Nat
  /-- no PPS edge falls before this instant, in ns (R315) -/
  ppsFrom : Nat
  servo : Servo
  /-- TIME_REFCLK is present -/
  refclk : Bool
  /-- commands that take effect at the next tick, oldest first -/
  cmds : List DaterCmd
  deriving DecidableEq, Repr

def Dater.init : Dater := { outs := [], ins := [], pps := none, ppsFrom := 0, servo := Servo.init, refclk := true, cmds := [] }

end Sys2Proof.Machine
end

