-- ==== Sys2Proof/Machine/UnitsNet.lean ====
section
/-! DEFINITION. What the block holds behind the NET registers (10): class queues and their frames, flows, gate lists, shapers,
filters, the module bus. Times are whole nanoseconds of Dater time; credit and tokens are counted in 1/8,000,000 byte, which
is what 1 kb/s gives in 1 ns. -/
namespace Sys2Proof.Machine

/-- What a queued frame carries (R287, R288, R297): a packet of a flow slot, a PTP message, or a reply. -/
inductive FrameBody where
  /-- flow slot, picture, packet number, RTP sequence number, RTP timestamp, marker, payload bytes -/
  | media (slot pic j seq ts : Nat) (marker : Bool) (payload : List Byte)
  /-- messageType of IEEE 1588 and sequence number; a Follow_Up carries the egress time of its Sync, a Delay_Resp the ingress time of the
  Delay_Req and who sent that -/
  | ptp (ty seq : Nat) (time : Option Int) (dest : Option Nat)
  | reply (ty : Nat)
  deriving DecidableEq, Repr

/-- A frame in a class queue: its length in bytes from the destination address through the FCS, when it was queued, when it
was due, and that its data came after that. -/
structure NetFrame where
  body : FrameBody
  len : Nat
  queued : Nat
  due : Nat
  late : Bool
  deriving DecidableEq, Repr

/-- A flow slot (R289, R294 to R297): its stream and path, the next sequence number, the alignment point last taken, the pictures being
sent with the alignment point of each, the next packet of the first of them, the least picture neither sent nor passed over, start
and payload length of the last packet, and that the stream is closing (R307). -/
structure Flow where
  stream : Nat
  path : Nat
  seq : Nat
  period : Nat
  sending : List (Nat × Nat)
  j : Nat
  nextPic : Nat
  lastStart : Nat
  lastLen : Nat
  closing : Bool
  deriving DecidableEq, Repr

/-- A gate list that operates or waits (R299, R300): base, cycle, entries as gates and interval. -/
structure GateList where
  base : Nat
  cycle : Nat
  entries : List (Nat × Nat)
  deriving DecidableEq, Repr

/-- A traffic class (R298, R302, R306). `blocked`: since when its head frame has been held by condition 2 of R298. `sum` and `n`:
delays in ns of the frames that left in the sample period. -/
structure NetClass where
  queue : List NetFrame
  credit : Int
  blocked : Option Nat
  sum : Nat
  n : Nat
  deriving DecidableEq, Repr

def NetClass.init : NetClass := { queue := [], credit := 0, blocked := none, sum := 0, n := 0 }

/-- An Ethernet port. `busy`: class and end of the frame in transmission; `upto`: time up to which credits and tokens are
accounted; `hold`: gates held, and until when, after the Dater time was changed (R315); `sampled`: the tick of the last telemetry sample. -/
structure NetPort where
  classes : Tab NetClass
  flows : Tab (Option Flow)
  oper : Option GateList
  pending : Option GateList
  start : Nat
  hold : Option (Nat × Nat)
  busy : Option (Nat × Nat)
  upto : Nat
  tokens : Tab (Option Nat)
  sampled : Nat
  deriving DecidableEq, Repr

def NetPort.init : NetPort :=
  { classes := [], flows := [], oper := none, pending := none, start := 0, hold := none, busy := none, upto := 0, tokens := [], sampled := 0 }

/-- Both ports and the module bus: the transaction running, as ADDR, READ, REG and DATA. -/
structure Net where
  ports : Tab NetPort
  i2c : Option (Nat × Bool × Nat × Nat)
  deriving DecidableEq, Repr

def Net.init : Net := { ports := [], i2c := none }

end Sys2Proof.Machine
end

