-- ==== Sys2Proof/Machine/State.lean ====
section
/-! DEFINITION. The state of the block as plain data, and the state right after reset. -/
namespace Sys2Proof.Machine

/-- Stops of the machine. -/
inductive Fault where
  /-- Raised by REGISTER_WRITE at an offset outside the 16 MiB of BAR0 (R23): the address does not exist. Safe. -/
  | outsideBar0 (off : Nat)
  deriving DecidableEq, Repr

/-- Commands without a meaning. -/
inductive Refusal where
  /-- Raised by an arm of `exec` whose command is not modelled yet. Safe. -/
  | notModelled (mnemonic : String)
  deriving DecidableEq, Repr

/-- The block. Register words are in `regs`, by BAR0 offset; everything else the specification gives the block and does not
put into a register is in the other fields. -/
structure State where
  /-- grade: true is the DD-4816 (R2, R19) -/
  big : Bool
  /-- the register file, by BAR0 offset; an unlisted register reads its reset value (R6, R23) -/
  regs : Tab Word
  /-- device DRAM, by physical address -/
  dram : Tab Byte
  /-- damage of conservation blocks, by block number: inverted bits of the data (low 256) and of the check word above them -/
  damage : Tab Nat
  /-- host memory, by host bus address -/
  host : Tab Byte
  /-- commands waiting, first in, first out -/
  pending : List Instr
  /-- the model's own counter of free values drawn -/
  free : Nat
  /-- the model's own count of Dater clock ticks of 4 ns -/
  ticks : Nat
  /-- Dater time in units of 2^-28 ns (R310) -/
  time : Nat
  /-- what the block last answered to the sender of a command: words of a reply, an item, an SMBus block -/
  answer : List Nat
  dater : Dater
  net : Net
  bnd : Bindery
  rgs : Registrar
  harts : Tab Hart
  engines : Tab Engine
  /-- protected copies of the carrels' and the scribes' control stores (R431) -/
  copyCar : Tab Nat
  copyScb : Tab Nat
  mmu : Mmu
  dma : Tab DmaCh
  /-- level request lines that are asserted (R376) -/
  levels : List Nat
  queues : Tab Queue
  pools : Tab Pool
  /-- orphaned folios, oldest first, by handle (R402) -/
  orphans : List Nat
  chans : Tab Chan
  scrub : Scrubber
  cat : Catalogue
  power : Power
  keeper : Keeper
  cons : Conservator
  pads : Pads
  rings : Tab Ring
  vecs : Tab Vec
  hostFn : HostFn
  streams : Tab Stream
  staged : List Staged
  /-- the slips of the epoch that is being taken -/
  taking : List Staged
  /-- ING_HOLD outputs that are tripped (R241) -/
  tripped : List Nat
  /-- carrels and scribes removed from the ledger's capacity (R222) -/
  gone : Nat × Nat
  deriving DecidableEq, Repr

/-- The request lines "network gate open" of the grade's ports (R301, R376): every gate is open while no list operates. -/
def gateLines (big : Bool) : List Nat := rangeFrom 18 (if big then 16 else 8)

/-- Right after power-on reset has been taken, with reset held: every register at its reset value, nothing in any memory,
queue or ring. -/
def State.reset : State :=
  { big := true, regs := [], dram := [], damage := [], host := [], pending := [], free := 0, ticks := 0, time := 0, answer := [],
    dater := Dater.init, net := Net.init, bnd := Bindery.init, rgs := Registrar.init, harts := [], engines := [], copyCar := [], copyScb := [], mmu := Mmu.init, dma := [], levels := gateLines true, queues := [],
    pools := [], orphans := [], chans := [], scrub := Scrubber.init, cat := Catalogue.init, power := Power.init, keeper := Keeper.init, cons := Conservator.init, pads := Pads.init, rings := [],
    vecs := [], hostFn := HostFn.init, streams := [], staged := [], taking := [], tripped := [], gone := (0, 0) }

end Sys2Proof.Machine
end

