-- ==== Sys2Proof/Machine/Ops.lean ====
section
/-! DEFINITION. The named operations over registers, units, time and memory that the meanings share. -/
namespace Sys2Proof.Machine

/-! ### Registers -/

/-- The word a register holds. -/
def State.rd (s : State) (off : Nat) : Word := Tab.get (resetWord s.big) s.regs off
/-- Registers of resources that the DD-4808 does not have: NET1 (R286), the channels E to H (R355), the Conservator's figures (R519). -/
def gradeReg (off : Nat) : Bool :=
  (decide (0x148000 ≤ off) && decide (off < 0x150000)) || (decide (0xE0200 ≤ off) && decide (off < 0xE0300)) ||
  [CNS.SLACK_MIN, CNS.DOMAIN_SEL, CNS.DOMAIN_STAT].contains off || (decide (CNS.EYE_RD 0 ≤ off) && decide (off ≤ CNS.EYE_WR 7))
/-- The grade does not have the register: it reads 0, and a write of it is ignored (R2, R286, R355, R519; the write DESIGN CHOICE, log entry 115). -/
def State.lacks (s : State) (off : Nat) : Bool := !s.big && gradeReg off
/-- Store a register word. -/
def State.wr (s : State) (off : Nat) (w : Word) : State := { s with regs := Tab.set (resetWord s.big) s.regs off w }
/-- A field's value. -/
def State.get (s : State) (f : Fld) : Nat := bits (s.rd f.off).toNat f.lo f.w
/-- Store a field; the other bits of its register are unchanged. -/
def State.put (s : State) (f : Fld) (v : Nat) : State :=
  s.wr f.off (BitVec.ofNat 32 (setBits (s.rd f.off).toNat f.lo f.w v))
/-- A flag. -/
def State.on (s : State) (f : Fld) : Bool := s.get f != 0
/-- Add to a saturating counter. -/
def State.add (s : State) (f : Fld) (k : Nat) : State := s.put f (satAdd f.w (s.get f) k)
/-- Count one event. -/
def State.bump (s : State) (f : Fld) : State := s.add f 1
/-- Set one bit of a bit map that spans registers of 32 bits. -/
def State.putBit (s : State) (base i : Nat) (v : Bool) : State := s.put ⟨base + 4 * (i / 32), i % 32, 1⟩ (if v then 1 else 0)
/-- One bit of such a map. -/
def State.bitOn (s : State) (base i : Nat) : Bool := s.on ⟨base + 4 * (i / 32), i % 32, 1⟩
/-- A 64-bit value in a LO and a HI register. -/
def State.pair (s : State) (lo hi : Nat) : Nat := (s.rd lo).toNat + (s.rd hi).toNat * 2 ^ 32
/-- Store a value in a LO and a HI register. -/
def State.putPair (s : State) (lo hi v : Nat) : State := (s.wr lo (BitVec.ofNat 32 v)).wr hi (BitVec.ofNat 32 (v / 2 ^ 32))

/-! ### Units -/

def State.ring (s : State) (n : Nat) : Ring := Tab.get (fun _ => Ring.init) s.rings n
def State.setRing (s : State) (n : Nat) (r : Ring) : State := { s with rings := Tab.set (fun _ => Ring.init) s.rings n r }
def State.vec (s : State) (n : Nat) : Vec := Tab.get (fun _ => Vec.init) s.vecs n
def State.setVec (s : State) (n : Nat) (v : Vec) : State := { s with vecs := Tab.set (fun _ => Vec.init) s.vecs n v }
def State.stream (s : State) (n : Nat) : Stream := Tab.get (fun _ => Stream.init) s.streams n
def State.setStream (s : State) (n : Nat) (x : Stream) : State := { s with streams := Tab.set (fun _ => Stream.init) s.streams n x }
def State.hart (s : State) (n : Nat) : Hart := Tab.get (fun _ => Hart.init) s.harts n
def State.setHart (s : State) (n : Nat) (h : Hart) : State := { s with harts := Tab.set (fun _ => Hart.init) s.harts n h }
def State.engine (s : State) (n : Nat) : Engine := Tab.get (fun _ => Engine.init) s.engines n
def State.setEngine (s : State) (n : Nat) (e : Engine) : State := { s with engines := Tab.set (fun _ => Engine.init) s.engines n e }
def State.dmaCh (s : State) (n : Nat) : DmaCh := Tab.get (fun _ => DmaCh.init) s.dma n
def State.setDmaCh (s : State) (n : Nat) (c : DmaCh) : State := { s with dma := Tab.set (fun _ => DmaCh.init) s.dma n c }
def State.queue (s : State) (n : Nat) : Queue := Tab.get (fun _ => Queue.init) s.queues n
def State.setQueue (s : State) (n : Nat) (q : Queue) : State := { s with queues := Tab.set (fun _ => Queue.init) s.queues n q }
def State.pool (s : State) (n : Nat) : Pool := Tab.get (fun _ => Pool.init) s.pools n
def State.setPool (s : State) (n : Nat) (p : Pool) : State := { s with pools := Tab.set (fun _ => Pool.init) s.pools n p }
def State.chan (s : State) (n : Nat) : Chan := Tab.get (fun _ => Chan.init) s.chans n
def State.setChan (s : State) (n : Nat) (c : Chan) : State := { s with chans := Tab.set (fun _ => Chan.init) s.chans n c }
def State.mag (s : State) (n : Nat) : Mag := Tab.get (fun _ => Mag.init) s.bnd.mags n
def State.setMag (s : State) (n : Nat) (m : Mag) : State := { s with bnd := { s.bnd with mags := Tab.set (fun _ => Mag.init) s.bnd.mags n m } }
def State.catUnit (s : State) (n : Nat) : CatUnit := Tab.get (fun _ => CatUnit.init) s.cat.units n
def State.setCatUnit (s : State) (n : Nat) (c : CatUnit) : State :=
  { s with cat := { s.cat with units := Tab.set (fun _ => CatUnit.init) s.cat.units n c } }

/-- The stream contexts that are not CLOSED, ascending. -/
def State.openStreams (s : State) : List (Nat × Stream) := s.streams.filter fun e => e.2.state != .closed

/-! ### Free values, replies, time -/

/-- A value the specification leaves open, and the state that has drawn it. -/
def State.draw (s : State) : Nat × State := (Config.freeValue s.free, { s with free := s.free + 1 })
/-- One of the elements of a list, which one being open. -/
def State.pick {α : Type} (s : State) (l : List α) : Option α × State :=
  (l[(s.draw).1 % l.length]?, (s.draw).2)
/-- Answer the sender. -/
def State.reply (s : State) (l : List Nat) : State := { s with answer := l }

/-- Units of 2^-28 ns in a second. -/
def secUnits : Nat := 1000000000 * 2 ^ 28
/-- A time of the Dater in the format of stamps (R310). -/
def dtOf (t : Nat) : DTime :=
  { sec := BitVec.ofNat 48 (t / secUnits), ns := BitVec.ofNat 32 (t % secUnits / 2 ^ 28), frac := BitVec.ofNat 16 (t % 2 ^ 28 / 2 ^ 12) }
def State.now (s : State) : DTime := dtOf s.time
/-- Whole nanoseconds of Dater time. -/
def State.nowNs (s : State) : Nat := s.time / 2 ^ 28
/-- Ticks of 4 ns in k microseconds. -/
def usTicks (k : Nat) : Nat := 250 * k
/-- Microseconds since a tick. -/
def State.usSince (s : State) (t : Nat) : Nat := (s.ticks - t) / 250
/-- A Dater time over the three registers that show it (R327). -/
def State.putTime (s : State) (lo hi ns : Nat) (t : DTime) : State :=
  ((s.wr lo (BitVec.ofNat 32 t.sec.toNat)).wr hi (BitVec.ofNat 32 (t.sec.toNat / 2 ^ 32 % 65536 + t.frac.toNat * 65536))).wr ns
    (BitVec.ofNat 32 t.ns.toNat)

/-! ### Unit IDs, engines and domains (R18, R19) -/

/-- Grant index of a carrel or scribe (R370), by unit ID. -/
def engineOf (unit : Nat) : Option Nat :=
  if unit < 68 then some unit else if 0x80 ≤ unit ∧ unit < 0x92 then some (unit - 0x80 + 68) else none
/-- Unit ID of a grant index. -/
def unitOfEngine (i : Nat) : Nat := if i < 68 then i else 0x80 + (i - 68)
def isCarrel (i : Nat) : Bool := decide (i < 68)
/-- A register of the engine's block (R435): +0 CTL, +4 STAT, +8 PROG, +C COUNT. -/
def engReg (i r : Nat) : Nat := (if i < 68 then 0x110100 + 0x10 * i else 0x120100 + 0x10 * (i - 68)) + r
def engState (i : Nat) : Fld := ⟨engReg i 4, 0, 3⟩
def engSpare (i : Nat) : Fld := ⟨engReg i 4, 3, 1⟩
def engUpc (i : Nat) : Fld := ⟨engReg i 4, 4, 11⟩
def engEpoch (i : Nat) : Fld := ⟨engReg i 4, 16, 16⟩
def engProg (i : Nat) : Fld := ⟨engReg i 8, 0, 16⟩
def engEntry (i : Nat) : Fld := ⟨engReg i 8, 16, 11⟩
def engReloads (i : Nat) : Fld := ⟨engReg i 12, 0, 16⟩
def engAbandons (i : Nat) : Fld := ⟨engReg i 12, 16, 16⟩
/-- RELOADS and FENCED of CS_ERR of the engine's block. -/
def csReloads (i : Nat) : Fld := ⟨if i < 68 then 0x110004 else 0x120004, 0, 16⟩
def csFenced (i : Nat) : Fld := ⟨if i < 68 then 0x110004 else 0x120004, 16, 16⟩

/-- Engine states (R435). -/
def stOff : Nat := 0
def stIdle : Nat := 1
def stRunning : Nat := 2
def stWaiting : Nat := 3
def stAbandoned : Nat := 4
def stFenced : Nat := 5
def stAbsent : Nat := 6

/-- The engine is one that the grade enables (R19). -/
def State.engineEnabled (s : State) (i : Nat) : Bool :=
  if s.big then decide (i < 86) else decide (i < 36) || (decide (68 ≤ i) && decide (i < 78))

/-- The grade enables the unit, and the ID is assigned (R18, R19). -/
def State.unitEnabled (s : State) (u : Nat) : Bool :=
  match engineOf u with
  | some i => s.engineEnabled i
  | none =>
    (decide (0xC0 ≤ u) && decide (u ≤ 0xC9)) || u == 0xD0 || u == 0xD1 || (decide (0x100 ≤ u) && decide (u ≤ 0x107)) ||
    (decide (0x110 ≤ u) && decide (u ≤ if s.big then 0x117 else 0x113)) || (decide (0x120 ≤ u) && decide (u ≤ 0x122)) ||
    u == 0x130 || (s.big && u == 0x131) || (decide (0x140 ≤ u) && decide (u ≤ 0x145)) || u == 0x150 || u == 0x160 ||
    u == 0x170 || u == 0x180 || (decide (0x1F0 ≤ u) && decide (u ≤ 0x1F3))

/-- The switched domain of a unit, 112 for one that lies in the common core or PDA (R18). -/
def domainOf (u : Nat) : Nat :=
  match engineOf u with
  | some i => i
  | none =>
    if 0xC0 ≤ u ∧ u ≤ 0xC9 then 86 + (u - 0xC0) / 2 else if u = 0xD0 ∨ u = 0xD1 then 91
    else if 0x100 ≤ u ∧ u ≤ 0x107 then 92 + (u - 0x100) else if 0x110 ≤ u ∧ u ≤ 0x117 then 100 + (u - 0x110) / 2
    else if u = 0x120 then 104 else if u = 0x121 ∨ u = 0x122 then 105 + (u - 0x121)
    else if u = 0x130 ∨ u = 0x131 then 107 + (u - 0x130) else if 0x140 ≤ u ∧ u ≤ 0x145 then 109 + (u - 0x140) / 2 else 112

/-- The unit's domain is on. -/
def State.powered (s : State) (u : Nat) : Bool := domainOf u == 112 || s.bitOn PWR.PD_STAT0 (domainOf u)
/-- The unit is in its fault state (R440). -/
def State.faulty (s : State) (u : Nat) : Bool := s.bitOn (RGS.FAULT_MAP 0) u

/-! ### The ICU (R418, R419) -/

def srcReg (n : Nat) : Nat := 0x90400 + 4 * n
def srcPending (n : Nat) : Fld := ⟨srcReg n, 31, 1⟩
def srcClaimed (n : Nat) : Fld := ⟨srcReg n, 30, 1⟩
def srcTarget (n : Nat) : Fld := ⟨srcReg n, 8, 2⟩
def srcPriority (n : Nat) : Fld := ⟨srcReg n, 0, 4⟩

/-- An event of a source sets its PENDING bit (R419). Source 0 does not exist. -/
def State.raise (s : State) (n : Nat) : State := if 1 ≤ n ∧ n ≤ 255 then s.put (srcPending n) 1 else s

/-- A signal of a Stacks queue raises every source whose QSRC follows it (R418). -/
def State.raiseQueue (s : State) (q : Nat) : State :=
  (List.range 128).foldl (fun s k =>
    if s.on (ICU.QSRC_EN k) && s.get (ICU.QSRC_QUEUE k) == q then s.raise (125 + k) else s) s

/-! ### Event slips (R209) -/

/-- The ring that a stream's event slips go to (R216, R219). -/
def Stream.eventRing (x : Stream) : Nat := match x.secs.events with | some e => e.ring | none => x.rp
def Stream.readTimeout (x : Stream) : Nat := match x.secs.events with | some e => e.readTimeout | none => 100
def Stream.pictureEventsOn (x : Stream) : Nat := match x.secs.events with | some e => e.pictureEvents | none => 1

/-- An event slip (R199, R201). -/
def eventSlip (status : Nat) (stream : Option Nat) (kind extra : Nat) (w : List Nat) : RetSlip :=
  { tag := 0, status, stream, opcode := 0, kind, extra, w, noIrq := false }

/-- PENDING of RP_RQ_STAT follows the event queue. -/
def State.showPending (s : State) (n : Nat) : State := s.put (HIF.RP_RQ_STAT_PENDING n) (s.ring n).events.length

/-- An event slip arrives at a ring's event queue: kept while there are fewer than 1,024, else dropped and counted. The LOST slip
of events dropped before goes in first (R209). -/
def State.postEvent (s : State) (n : Nat) (e : RetSlip) : State :=
  let r := s.ring n
  let lost := if r.lost ≠ 0 ∧ r.events.length < 1024 then [eventSlip 0 none 4 0 [r.lost]] else []
  let q := r.events ++ lost
  let r := if lost.isEmpty then r else { r with lost := 0 }
  if q.length < 1024 then
    (s.setRing n { r with events := q ++ [e], evTick := if r.events.isEmpty then s.ticks else r.evTick }).showPending n
  else ((s.setRing n { r with events := q, lost := r.lost + 1 }).bump HIF.EVT_LOST_COUNT).showPending n

/-- An event slip of a stream goes to its ring. -/
def State.streamEvent (s : State) (n : Nat) (status kind extra : Nat) (w : List Nat) : State :=
  s.postEvent (s.stream n).eventRing (eventSlip status (some n) kind extra w)

/-- A PME message, or WAKE_N where the link is in L2 (R212). -/
def State.pme (s : State) : State :=
  if s.power.linkL2 then { s with power := { s.power with wakeN := true } }
  else { s with hostFn := { s.hostFn with pmes := s.hostFn.pmes + 1 } }

/-- The function is in D0 with bus mastering enabled. -/
def HostFn.open (h : HostFn) : Bool := !h.d3 && h.busMaster
def State.setVecPending (s : State) (v : Nat) (b : Bool) : State := (s.putBit (HIF.VEC_PEND 0) v b).putBit (HIF.MSIX_PBA 0) v b

/-- A vector fires that cannot be sent: it is kept pending, with a PME where the host's power state is why and PME_En asks for it (R211, R212). -/
def State.keepVec (s : State) (v : Nat) : State :=
  let s := (s.setVec v Vec.init).setVecPending v true
  if !s.hostFn.fnMask && !s.on (HIF.MSIX_CTL_MASK v) && s.hostFn.pmeEn then s.pme else s

/-- A slip that waits in D3hot or without bus mastering counts for its vector, whose count and timer go on (R212). -/
def State.countWaiting (s : State) (v : Nat) : State :=
  let x := s.vec v
  let s := s.setVec v { count := x.count + 1, timer := x.timer <|> some s.ticks }
  if s.get (HIF.MSIX_MOD_COUNT v) ≤ x.count + 1 ∨ s.get (HIF.MSIX_MOD_HOLD v) = 0 then s.keepVec v else s

/-- A completion joins the ring's completions (R202, R209, R212). -/
def State.complete (s : State) (n : Nat) (r : RetSlip) : State :=
  let waits := !s.hostFn.open && !r.noIrq && s.on (HIF.RP_CFG_ENABLE n)
  let s := s.setRing n { s.ring n with compl := (s.ring n).compl ++ [{ r with counted := waits }] }
  if waits then s.countWaiting (s.get (HIF.RP_CFG_VECTOR n)) else s

/-! ### Slips taken (R194, R199, R202) -/

def Taken.word (t : Taken) (i : Nat) : Nat := t.words.getD i 0
def Taken.op (t : Taken) : Nat := t.word 0 % 256
def Taken.flags (t : Taken) : Nat := bits (t.word 0) 8 8
def Taken.tag (t : Taken) : Nat := bits (t.word 0) 16 16
def Taken.streamField (t : Taken) : Nat := t.word 1 % 256
/-- The stream that a slip concerns (R194, R199): the opcodes that use a context, SET_CONFIG without DEVICE, QUERY of a stream. -/
def Taken.stream (t : Taken) : Option Nat :=
  if [0x01, 0x02, 0x04, 0x05, 0x06, 0x07, 0x08, 0x09].contains t.op || (t.op == 0x03 && !bitAt (t.word 1) 8) ||
     (t.op == 0x0B && bits (t.word 1) 8 8 == 1) then some t.streamField else none
/-- A 48-bit address in words i and i + 1. -/
def Taken.addr (t : Taken) (i : Nat) : Nat := t.word i + bits (t.word (i + 1)) 0 16 * 2 ^ 32

/-- BUSY of RP_STAT: a stream is bound to the pair, or a slip is outstanding (R225). -/
def State.showBusy (s : State) (n : Nat) : State :=
  let bound := s.openStreams.any fun e => e.2.rp == n
  s.put (HIF.RP_STAT_BUSY n) (if bound || !(s.ring n).taken.isEmpty || !(s.ring n).compl.isEmpty then 1 else 0)

/-- The completion of a slip (R199). -/
def Taken.completion (t : Taken) (status extra : Nat) (w : List Nat) : RetSlip :=
  { tag := t.tag, status, stream := t.stream, opcode := t.op, kind := 0, extra, w, noIrq := bitAt (t.word 0) 8 }

/-- An earlier slip names the same stream (R208). QUERY stands aside. -/
def sameStream (t e : Taken) : Bool := t.stream.isSome && e.stream == t.stream && t.op != 0x0B && e.op != 0x0B

/-- One slip completes: it leaves the slips taken, and its completion waits to be written (R202). -/
def State.finishOne (s : State) (n : Nat) (t : Taken) (status extra : Nat) (w : List Nat) : State :=
  let s := s.setRing n { s.ring n with taken := (s.ring n).taken.filter (·.id != t.id) }
  (s.complete n (t.completion status extra w)).showBusy n

/-- The first slip of a list that is decided and that no slip before it holds back (R208). -/
def firstDecided : List Taken → List Taken → Option (Taken × Nat × Nat × List Nat)
  | _, [] => none
  | before, t :: r =>
    match t.verdict with
    | some v => if before.any (sameStream t) then firstDecided (before ++ [t]) r else some (t, v)
    | none => firstDecided (before ++ [t]) r

/-- Slips that are decided complete once no earlier slip of their stream is outstanding (R208). -/
def State.finishDecided (s : State) (n : Nat) : Nat → State
  | 0 => s
  | f + 1 =>
    match firstDecided [] (s.ring n).taken with
    | some (t, st, x, w) => (s.finishOne n t st x w).finishDecided n f
    | none => s

/-- A slip completes, and with it those that waited for it. -/
def State.finish (s : State) (n : Nat) (t : Taken) (status extra : Nat) (w : List Nat) : State :=
  (s.finishOne n t status extra w).finishDecided n (s.ring n).taken.length

/-- The slip of a ring with a number. -/
def Ring.byId (r : Ring) (id : Nat) : Option Taken := r.taken.find? (·.id == id)

/-! ### Pictures and units of work -/

def Stream.pic (x : Stream) (num : Nat) : Option Pic := x.pics.find? (·.num == num)
def Stream.setPic (x : Stream) (p : Pic) : Stream := { x with pics := x.pics.map fun q => if q.num = p.num then p else q }
def Pic.unit (p : Pic) (j : Nat) : UnitRec := Tab.get (fun _ => UnitRec.init) p.units j
def Pic.setUnit (p : Pic) (j : Nat) (u : UnitRec) : Pic := { p with units := Tab.set (fun _ => UnitRec.init) p.units j u }
/-- Change a picture of a stream where there is one. -/
def State.onPic (s : State) (n num : Nat) (f : Pic → Pic) : State :=
  match (s.stream n).pic num with
  | some p => s.setStream n ((s.stream n).setPic (f p))
  | none => s

/-! ### The Registrar (R437 to R445) -/

/-- The kinds of R438. -/
def kindKnown (k : Nat) : Bool :=
  [0x01, 0x02, 0x03, 0x04, 0x05, 0x06, 0x07, 0x08, 0x09, 0x0A, 0x0B, 0x0C, 0x10, 0x11, 0x12, 0x13, 0x18, 0x19, 0x1A, 0x20, 0x21,
   0x22, 0x23, 0x28, 0x29, 0x30, 0x31, 0x32, 0x33, 0x34, 0x35, 0x36, 0x37, 0x40, 0x41, 0x42, 0x48, 0x49, 0x50, 0x51].contains k

/-- The class of a kind for a unit (R438), before escalation. The kinds whose class depends on more than the unit give it
themselves: LOCKSTEP and KEEPER_LOCKSTEP. -/
def kindClass (k u : Nat) : Nat :=
  if k = 0x01 then
    (if (engineOf u).isSome ∨ (0xC0 ≤ u ∧ u ≤ 0xC9) then 2
     else if u = 0x180 ∨ u = 0x1F0 ∨ u = 0x1F1 ∨ u = 0x1F3 then 4 else 3)
  else if [0x02, 0x03, 0x04, 0x07, 0x0A, 0x20, 0x48, 0x49].contains k then 2
  else if [0x05, 0x08, 0x09, 0x21, 0x22, 0x32].contains k then 1
  else if [0x0B, 0x10, 0x1A, 0x30].contains k then 0
  else 3

/-- The kinds marked (F) (R438, R440). -/
def kindFaults (k : Nat) : Bool := [0x01, 0x12, 0x20, 0x21, 0x37].contains k

/-- The kind APPLET neither escalates nor is escalated (R441). -/
def kindApplet : Nat := 0x22

/-- An earlier message of the class from the unit is unacknowledged and escalates (R441). -/
def Registrar.raises (r : Registrar) (u c : Nat) : Bool := r.unack.any fun a => a.unit == u && a.cls == c && a.escalates

/-- The unacknowledged messages with one more. -/
def Registrar.noteUnack (r : Registrar) (u c : Nat) (esc : Bool) : List Unack :=
  { unit := u, cls := c, escalates := esc || r.raises u c } :: r.unack.filter fun a => !(a.unit == u && a.cls == c)

/-- The class a message is logged with (R441). -/
def State.classAsLogged (s : State) (u k c : Nat) : Nat := if k != kindApplet && s.rgs.raises u c then min (c + 1) 4 else c

/-- FAULT_N is asserted (R444): from alive on, while a message of the class or above is unacknowledged or the pin is held. -/
def State.faultN (s : State) : Bool :=
  s.on KPR.BOOT_STAT_ALIVE && (s.rgs.hold.isSome || s.rgs.unack.any fun a => decide (s.get RGS.RGS_CFG_FAULTN_CLASS ≤ a.cls))

/-- A condition of SMB_CFG.ALERT_MASK arises: SMB_ALERT_N is asserted for it again (R503, R506). Conditions: 0 FAULT_N, 1 fuse-fail, 2 recovery
mode, 3 a sleep request ended. -/
def State.alertRise (s : State) (i : Nat) : State :=
  { s with pads := { s.pads with answered := s.pads.answered - (if bitAt s.pads.answered i then 2 ^ i else 0) } }

/-- Log a message: stamp, SEQ, escalation, counts, FAULT_N hold and ICU source 1 (R437, R441, R444). -/
def State.logMsg (s : State) (u k c : Nat) (detail : Option Nat) (raw addr : Nat) (inj : Bool) : State :=
  let c' := s.classAsLogged u k c
  let t := s.now
  let s := if !s.faultN && decide (s.get RGS.RGS_CFG_FAULTN_CLASS ≤ c') then s.alertRise 0 else s
  let m : Msg := { unit := u, kind := k, cls := c', esc := c' != c, detail := detail.getD raw, detailValid := detail.isSome, addr,
                   sec := t.sec.toNat, ns := t.ns.toNat, injected := inj, seq := s.rgs.seq % 2 ^ 31 }
  let s := { s with rgs := { s.rgs with
    log := (m :: s.rgs.log).take 512, head := (m :: s.rgs.head).take 16, seq := (s.rgs.seq + 1) % 2 ^ 31,
    unack := s.rgs.noteUnack u c' (k != kindApplet), wrapped := s.rgs.wrapped || decide (512 ≤ s.rgs.log.length),
    hold := if s.get RGS.RGS_CFG_FAULTN_CLASS ≤ c' then some (s.ticks + usTicks 1000) else s.rgs.hold } }
  let s := if c' != c then s.bump RGS.ESCALATIONS_COUNT else s
  let s := if c' = 2 ∨ (c' = 3 ∧ kindFaults k = true) ∨ (c' ≠ c ∧ 2 ≤ c') then s.putBit (RGS.FAULT_MAP 0) u true else s
  (s.bump (RGS.CLASS_COUNT_COUNT c')).raise 1

/-- Streams and pictures whose work an engine holds. -/
def State.workOf (s : State) (u : Nat) : Option (Nat × Nat × Nat × Nat) :=
  match engineOf u with
  | some i => (s.engine i).work
  | none => none

/-- FAULT_NOTICE for a stream, and UNMASKED in the picture touched (R201, R439). -/
def State.notice (s : State) (n u c k : Nat) (pic : Option Nat) : State :=
  if (s.stream n).state = .closed then s
  else
    let s := s.streamEvent n 0x000E 3 0 [u % 4096 + c % 8 * 2 ^ 12 + k % 256 * 2 ^ 16, pic.getD 0xFFFFFFFF, 0, 0, 0]
    match pic with
    | some p => s.onPic n p fun q => { q with unmasked := true }
    | none => s

/-- The action of a C3 message (R439). -/
def State.notices (s : State) (u k : Nat) (detail : Option Nat) : State :=
  let held := s.workOf u
  let s := match held with
    | some (n, p, _, _) => s.notice n u 3 k (some p)
    | none => s
  match detail, held with
  | some d, some (n, _, _, _) => if d = n then s else s.notice d u 3 k none
  | some d, none => s.notice d u 3 k none
  | none, _ => s

/-! ### Reset (R486 to R488) -/

/-- Registers that a warm reset keeps: those of PDA (R487, R504 to R506, R327, R520). -/
def warmKeeps (off : Nat) : Bool :=
  let b := off / 65536
  b == 0x2 || off == RST.RST_STAT || off == RST.RST_CFG || off == PWR.WAKE_EN || off == PWR.WAKE_PEND || off == PWR.SLEEP_STAT ||
  off == CNS.REPLANS || off == CNS.LAST_SEC_LO || off == CNS.LAST_SEC_HI || off == CNS.LAST_NS || b == 0x15 || b == 0x16

/-- Registers that a cold reset keeps (R487, R520). -/
def coldKeeps (off : Nat) : Bool :=
  off == RST.RST_STAT || off == RST.RST_CFG || off == SMB.SMB_CFG || off == SMB.SMB_LOCK_ERR || off == CNS.REPLANS || off == CNS.LAST_SEC_LO ||
  off == CNS.LAST_SEC_HI || off == CNS.LAST_NS

/-- Every output disarmed (R323), PPS disabled (R324). -/
def State.disarmOutputs (s : State) : State :=
  let s := (List.range 8).foldl (fun s t => (s.put (DAT.TOUT_STAT_ACTIVE t) 0).put (DAT.TOUT_STAT_PENDING t) 0) s
  { s.put DAT.PPS_CTL_ENABLE 0 with dater := { s.dater with outs := [], pps := none } }

/-- What a reset leaves of the magazine ports: the magazines that are in them, whose presence is to be accepted again (R251). -/
def Bindery.afterReset (b : Bindery) (now : Nat) : Bindery :=
  let one : Mag → Mag := fun m =>
    { Mag.init with inserted := m.inserted, media := m.media, stage := if m.inserted.isSome then .settling now else .empty }
  { Bindery.init with mags := b.mags.map fun q => (q.1, one q.2), ids := b.ids }

/-- The state with everything reset that the scope resets (R487). -/
def State.wiped (s : State) (cold : Bool) : State :=
  let f := s.get KPR.BOOT_STAT_FAILED_STARTS
  let c := s.get TOP.PACE_STAT_CURRENT
  let fresh := { State.reset with
    big := s.big, regs := Tab.keep (if cold then coldKeeps else warmKeeps) s.regs, host := s.host, pending := s.pending,
    free := s.free, ticks := s.ticks, bnd := s.bnd.afterReset s.ticks,
    keeper := { Keeper.init with blown := s.keeper.blown, vfuse := s.keeper.vfuse },
    cons := if cold then Conservator.init else { s.cons with started := false, centres := [], dwell := none, fails := 0 },
    pads := { Pads.init with therm := s.pads.therm, locked := s.pads.locked, answered := if cold then 0 else s.pads.answered, cages := s.pads.cages },
    levels := gateLines s.big }
  let fresh := (fresh.put KPR.BOOT_STAT_FAILED_STARTS f).put FUS.FUS_STAT_VFUSE_OK (if s.keeper.vfuse then 1 else 0)
  let pw := { Power.init with
    refclk := s.power.refclk, suppliesOk := s.power.suppliesOk, sysResetLow := s.power.sysResetLow, perstLow := s.power.perstLow,
    cold, aon := s.power.aon, pace := if cold then 0 else c, launch := if cold then none else s.power.launch }
  if cold then
    (({ fresh with power := pw, dater := { Dater.init with refclk := s.dater.refclk } }).put DAT.DAT_STAT_REFCLK_OK (if s.dater.refclk then 1 else 0)).put RST.RST_STAT_REFCLK_LOST 0
  else { fresh with power := pw, time := s.time, dater := s.dater, rgs := { Registrar.init with head := s.rgs.head, seq := s.rgs.seq } }.disarmOutputs

/-- A sleep request ends (R498 to R500, R505). -/
def State.sleepEnd (s : State) (req result src : Nat) : State :=
  ((((s.alertRise 3).put PWR.SLEEP_STAT_DONE 1).put PWR.SLEEP_STAT_RESULT result).put PWR.SLEEP_STAT_WAKE_SRC src).put PWR.SLEEP_STAT_REQUESTED req

/-- A reset is taken: scope, cause and count recorded, everything in scope reset, reset held (R487, R488). A sleep request
that a warm reset meets ends as ABORTED_BY_RESET (R500). -/
def State.takeReset (s : State) (cold : Bool) (cause : Nat) (count : Bool) : State :=
  let s := if cold then s else match s.power.sleep, s.power.unwind with
    | some (req, _, _), _ => s.sleepEnd req 6 0
    | none, some (_, req, _) => s.sleepEnd req 6 0
    | none, none => s
  let s := s.wiped cold
  let s := (s.put RST.RST_STAT_LAST_CAUSE cause).put RST.RST_STAT_LAST_SCOPE (if cold then 0 else 1)
  if count then s.bump RST.RST_STAT_RESETS else s

/-- A reset request: latched while SYS_REFCLK is stopped, merged into or widening a reset in progress, else taken (R486, R488). -/
def State.requestReset (s : State) (rank cause : Nat) (cold : Bool) : State :=
  if s.power.refclk = false then
    { s with power := { s.power with
      padsSafe := s.power.padsSafe || decide (rank ≤ 4), latched := s.power.latched ++ [(rank, cause, cold)] } }
  else if s.power.held then
    (if cold && !s.power.cold then s.takeReset true cause false else s)
  else s.takeReset cold cause true

/-- Report a message whose class action touches no engine: log it, and for C3 post the notices, for C4 reset (R439, R443). -/
def State.reportBase (s : State) (u k c : Nat) (detail : Option Nat) (raw addr : Nat) (inj : Bool) : State :=
  let c' := s.classAsLogged u k c
  let s := s.logMsg u k c detail raw addr inj
  if c' = 4 then s.requestReset 7 0x04 false
  else if c' = 3 then s.notices u k detail
  else s

/-! ### Loss of work, spares and the fence (R370, R395, R451, R455) -/

/-- Work is lost: WORK_LOST with DETAIL naming the stream, the unit of work emitted as nothing (R455). -/
def State.loseWork (s : State) (u n num j : Nat) : State :=
  let s := s.onPic n num fun p =>
    let x := p.unit j
    let code := { x.code with bytes := [], gbits := x.code.gbits.map fun _ => 0 }
    { p.setUnit j { x with committed := true, lost := true, runs := [], results := [], commitTick := s.ticks, code } with unmasked := true }
  s.reportBase u 0x0C 3 (some n) 0xFF 0 false

/-- Engines of the kind of engine i that hold a spare role. -/
def State.sparesOf (s : State) (i : Nat) : List Nat :=
  (List.range 86).filter fun k => isCarrel k == isCarrel i && s.engineEnabled k && s.on (engSpare k)

/-- SPARE_STAT follows the roles held (R464). -/
def State.showSpares (s : State) : State :=
  (s.put RGS.SPARE_STAT_CARRELS (s.sparesOf 0).length).put RGS.SPARE_STAT_SCRIBES (s.sparesOf 68).length

/-- Items of a queue that a fenced unit held claimed go back to the head, in their order (R395), and one it has open is
truncated (R394). -/
def Queue.fenceUnit (q : Queue) (u : Nat) : Queue × Bool :=
  let back := (q.claimed.filter (·.1 == u)).map (·.2)
  let opened := q.items.any fun it => it.producer == u && !it.complete
  ({ q with items := back ++ q.items.filter (fun it => !(it.producer == u && !it.complete)),
            claimed := q.claimed.filter (·.1 != u) }, opened)

/-- Cells of an item, by bank, given back to the free counts (R386). -/
def State.freeCells (s : State) (banks : List Nat) : State :=
  let s := banks.zipIdx.foldl (fun s q => s.put (STK.BANK_FREE_CELLS q.2) (s.get (STK.BANK_FREE_CELLS q.2) + q.1)) s
  s.put STK.STK_STAT_CELLS (s.get STK.STK_STAT_CELLS + banks.sum)

/-- The Stacks' treatment of a fenced unit, over every queue (R395). -/
def State.fenceStacks (s : State) (u : Nat) : State :=
  s.queues.foldl (fun s e =>
    let (q', cut) := e.2.fenceUnit u
    let gone := (e.2.items.filter fun it => it.producer == u && !it.complete)
    let s := (s.setQueue e.1 q')
    let s := gone.foldl (fun s it => s.freeCells it.banks) s
    if cut then s.bump STK.STK_ERR_TRUNCATED else s) s

/-- FLT_COUNT and the head record's registers follow the fault queue (R368, R381). -/
def State.showFaults (s : State) : State :=
  let s := s.put MMU.MMU_STAT_FLT_COUNT s.mmu.queue.length
  match s.mmu.queue with
  | [] => ((s.wr MMU.FLT_INFO 0#32).wr MMU.FLT_VA_LO 0#32).wr MMU.FLT_VA_HI 0#32
  | r :: _ =>
    let unit := match r.who with | .engine i => unitOfEngine i | .dma _ => 0x170 | .slip _ _ => 0x120
    let ch := match r.who with | .dma c => c | _ => 0xFF
    ((s.wr MMU.FLT_INFO (BitVec.ofNat 32 (2 ^ 31 + (if r.write then 2 ^ 30 else 0) + r.kind * 2 ^ 26 + r.level * 2 ^ 24 +
        unit * 2 ^ 12 + r.id))).wr MMU.FLT_VA_LO (BitVec.ofNat 32 r.va)).wr MMU.FLT_VA_HI
      (BitVec.ofNat 32 (r.asid * 2 ^ 24 + ch * 2 ^ 16 + r.va / 2 ^ 32 % 65536))

/-- Faults waiting outside take the places that come free in the queue (R368). Each arrival raises ICU source 4. -/
def State.refillFaults (s : State) : State :=
  let n := 64 - s.mmu.queue.length
  let moved := s.mmu.outside.take n
  let s' := { s with mmu := { s.mmu with queue := s.mmu.queue ++ moved, outside := s.mmu.outside.drop n } }
  (if moved.isEmpty then s' else s'.raise 4).showFaults

/-- The records of a requester are gone (R370). -/
def State.dropFaults (s : State) (who : Waiter) : State :=
  { s with mmu := { s.mmu with queue := s.mmu.queue.filter (·.who != who), outside := s.mmu.outside.filter (·.who != who) } }.refillFaults

/-- A routine is abandoned before its commit: its staging file is emptied and the abandonment counted (R429). -/
def State.abandon (s : State) (i : Nat) : State :=
  (s.setEngine i { s.engine i with staging := [], offer := none }).bump (engAbandons i)

/-- The routine of an engine is in hand. -/
def State.routineHeld (s : State) (i : Nat) : Bool := (s.engine i).work.isSome

/-- The register that shows the capacity of engine i's kind. -/
def capField (i : Nat) : Fld := if isCarrel i then HIF.LEDGER_CU_CAP_UNITS else HIF.LEDGER_SU_CAP_UNITS

/-- The ledger's capacity falls by one unit of engine i's kind, and its register with it (R222, R225, R455). -/
def State.loseCapacity (s : State) (i : Nat) : State :=
  { s with gone := if isCarrel i then (s.gone.1 + 1, s.gone.2) else (s.gone.1, s.gone.2 + 1) }.put (capField i) (s.get (capField i) - 1024)

/-- A fence (R370, R395, R429, R455): every grant of the engine revoked, its routine discarded, a spare named in its place or
SPARES_EXHAUSTED reported. Nothing changes for a unit fenced already, nor for one that the grade does not have (R19). -/
def State.fence (s : State) (i : Nat) : State :=
  if s.on (MMU.GRANT_FENCED i) || !s.engineEnabled i then s
  else
    let u := unitOfEngine i
    let held := s.routineHeld i
    let wasSpare := s.on (engSpare i)
    let s := s.put (MMU.GRANT_FENCED i) 1
    let s := s.dropFaults (.engine i)
    let s := s.setEngine i { s.engine i with utlb := [], drain := some s.ticks }
    let s := s.fenceStacks u
    let s := if held then s.abandon i else s
    let s := (s.put (engState i) stFenced).put (engSpare i) 0
    if wasSpare && !held then s.showSpares
    else
      let (heir, s) := if (s.sparesOf i).isEmpty then (none, s) else s.pick (s.sparesOf i)
      let s := match heir with
        | some k => ((s.put (engSpare k) 0).setEngine i { s.engine i with heir := some k }).showSpares
        | none => (s.loseCapacity i).reportBase 0x1F0 0x51 3 none 0xFF u false
      match (s.engine i).work with
      | some (n, p, j, _) =>
        let s := s.onPic n p fun q => q.setUnit j { q.unit j with redoTick := (q.unit j).redoTick <|> some s.ticks }
        if heir.isNone || (s.stream n).prot = 2 then (s.setEngine i { s.engine i with work := none }).loseWork u n p j else s
      | none => s

/-! ### Curator failover (R411) -/

def hartPair (h : Nat) : Fld := ⟨ICU.HARTMAP0 + 4 * h, 0, 3⟩
/-- The physical pairs that carry a hart. -/
def State.pairsInUse (s : State) : List Nat := (List.range 4).map fun h => s.get (hartPair h)
/-- Claimed sources go back to PENDING and the claim stack is emptied (R411 step 2). -/
def State.unclaim (s : State) (h : Nat) : State :=
  let s := (s.hart h).claims.foldl (fun s n => (s.put (srcPending n) 1).put (srcClaimed n) 0) s
  s.setHart h { s.hart h with claims := [] }
/-- MTIP of a hart is set while the time CSR has reached its mtimecmp (R416). -/
def State.checkTimer (s : State) (h : Nat) : State :=
  s.setHart h { s.hart h with mtip := decide (s.pair (ICU.MTIMECMP_LO h) (ICU.MTIMECMP_HI h) ≤ s.nowNs % 2 ^ 64) }

/-- A hart takes an exception (R407, R417): mepc, mcause and mtval are written, mstatus keeps MIE in MPIE and the mode in MPP, and the hart goes on in
M-mode at the base of mtvec. The places of these bits and the codes of the causes are those of the RISC-V privileged architecture (PRESUMED, log entry 128). -/
def State.trap (s : State) (h cause tval : Nat) : State :=
  let k := s.hart h
  let m := k.regs.mstatus
  let m := setBits (setBits (setBits m 7 1 (bits m 3 1)) 3 1 0) 11 2 (if k.user then 0 else 3)
  s.setHart h { k with user := false, regs := { k.regs with mepc := k.regs.pc, mcause := cause, mtval := tval, mstatus := m, pc := k.mtvec / 4 * 4 } }
/-- Causes of exceptions. -/
def causeFetchAlign : Nat := 0
def causeFetchFault : Nat := 1
def causeIllegal : Nat := 2
def causeLoadAlign : Nat := 4
def causeLoadFault : Nat := 5
def causeStoreAlign : Nat := 6
def causeStoreFault : Nat := 7
def causeUserCall : Nat := 8

/-- A pair takes up the hart's save area (R410, R411 steps 3 and 4): its registers, its compare and no cached line, in M-mode. -/
def State.loadSave (s : State) (h : Nat) : State :=
  let k := s.hart h
  let s := s.setHart h { k with regs := k.save, user := false, dcache := [], icache := [] }
  (s.putPair (ICU.MTIMECMP_LO h) (ICU.MTIMECMP_HI h) k.save.mtimecmp).checkTimer h

/-- A hart enters an applet call in U-mode: arguments from a0 on, and PMP entries 5 to 7 set to the call's regions (R185, R186, R188, R414). -/
def State.enterCall (s : State) (a : Applet) (c : AppletCall) : State :=
  let k := s.hart a.hart
  s.setHart a.hart { k with user := true, regs := { k.regs with
    pc := a.image.entry c.entry, pmp := k.regs.pmp.take 5 ++ a.regions c,
    x := c.args.zipIdx.foldl (fun l q => l.set (9 + q.2) q.1) k.regs.x } }

/-- A call of the stream's applet begins. -/
def State.beginCall (s : State) (n : Nat) (a : Applet) (c : AppletCall) : State :=
  (s.setStream n { s.stream n with applet := some { a with call := some { c with tick := s.ticks } } }).enterCall a c

/-- The stream's applet call ends: the next call that waits begins, or the hart is back in firmware. -/
def State.endCall (s : State) (n : Nat) : State :=
  match (s.stream n).applet with
  | some a =>
    (match a.queue with
     | c :: r => s.beginCall n { a with queue := r } c
     | [] => (s.setStream n { s.stream n with applet := some { a with call := none } }).setHart a.hart { s.hart a.hart with user := false })
  | none => s

/-- An event calls an entry of the stream's applet (R186). Calls of a stream do not overlap: one that still runs makes the new one wait. No command tells that
rc_open has returned, nor rc_plan with a status that is not 0: rc_open is over at the next call, and rc_plan at the next rc_plan (DESIGN CHOICE, log entry 129). -/
def State.callDue (s : State) (n : Nat) (c : AppletCall) : State :=
  let isOver : AppletCall → Bool := fun d => d.entry == .rcOpen || (d.entry == .rcPlan && c.entry == .rcPlan)
  let s := match (s.stream n).applet with
    | some a => if a.call.any isOver then s.endCall n else s
    | none => s
  match (s.stream n).applet with
  | some a =>
    if a.active = false then s
    else if a.call.isNone then s.beginCall n a c
    else s.setStream n { s.stream n with applet := some { a with queue := a.queue ++ [c] } }
  | none => s

/-- Applet calls that a failover has cut begin again from their entries, with the same arguments (R412). -/
def State.recall (s : State) (h : Nat) : State :=
  s.openStreams.foldl (fun s e =>
    match e.2.applet with
    | some a => (match a.call with | some c => if a.active ∧ a.hart = h then s.beginCall e.1 a c else s | none => s)
    | none => s) s

/-- Failover of hart h to the spare pair, or its stop where none is left (R411, R412). The failed pair's dirty lines are gone. -/
def State.failover (s : State) (h : Nat) : State :=
  let s := s.unclaim h
  let s := s.setHart h { s.hart h with dcache := (s.hart h).dcache.filter fun l => !l.dirty }
  if s.on ICU.ICU_STAT_SPARE_LEFT then
    match (List.range 5).find? fun p => !s.pairsInUse.contains p && !s.faulty (0xC0 + 2 * p) with
    | some p => ((((s.put (hartPair h) p).put ICU.ICU_STAT_SPARE_LEFT 0).put RGS.SPARE_STAT_PAIR 0).loadSave h).recall h
    | none => s.setHart h { s.hart h with stopped := true }
  else s.setHart h { s.hart h with stopped := true }

/-! ### The Catalogue's repair (R439) -/

/-- The Catalogue rewrites a unit's configuration from the record of the current epoch (R439). -/
def State.rewriteUnit (s : State) (u : Nat) : State :=
  let c := s.catUnit u
  s.setCatUnit u { c with epoch := s.get CAT.EPOCH_VALUE, digest := c.expect, rewritten := true }

/-- Report a fault message: it is logged, and the action of its class and of the fault state started (R437 to R443). A unit that the
grade does not enable, and an ID that is not assigned, never appear in a message (R18, R19). -/
def State.reportAs (s : State) (u k c : Nat) (detail : Option Nat) (raw addr : Nat) (inj : Bool) : State :=
  if s.unitEnabled u = false then s else
  let c' := s.classAsLogged u k c
  let s := s.reportBase u k c detail raw addr inj
  if c' = 4 then s
  else
    match engineOf u with
    | some i => if c' = 2 ∨ (c' ≠ c ∧ 2 ≤ c') then s.fence i else s
    | none =>
      if c' = 2 then
        (if 0xC0 ≤ u ∧ u ≤ 0xC9 then
          match (List.range 4).find? fun h => s.get (hartPair h) == (u - 0xC0) / 2 with
          | some h => s.failover h
          | none => s
         else s.rewriteUnit u)
      else s

/-- Report a message of a kind, with the class of R438. `detail`: the stream touched; `addr`: the address the kind names. -/
def State.report (s : State) (u k : Nat) (detail : Option Nat) (addr : Nat) : State :=
  s.reportAs u k (kindClass k u) detail 0xFF addr false

/-- One message for an event that touches the work of several streams: DETAIL names the first, and every one has its FAULT_NOTICE
(R437, R439). -/
def State.reportStreams (s : State) (u k : Nat) (l : List Nat) : State :=
  let s := s.report u k l.head? 0
  if s.power.held then s else l.tail.foldl (fun s n => s.notice n u (kindClass k u) k none) s

end Sys2Proof.Machine
end

