-- ==== Sys2Proof/Machine/Plan.lean ====
section
/-! DEFINITION. The Conservator's plan as the rest of the block sees it: the target of the present band and pace (R509, R514, R520). -/
namespace Sys2Proof.Machine

/-- Key of a pace and a band in the plan. -/
def planKey (pace band : Nat) : Nat := 32 * pace + band
def State.consState (s : State) : Nat := s.get CNS.CNS_STAT_STATE
/-- States of the Conservator (R520). -/
def csBaseline : Nat := 0
def csPlanned : Nat := 1
def csHeld : Nat := 2

/-- The planned target of a pace in the present band, in mV. -/
def State.planned (s : State) (pace : Nat) : Nat := Tab.get (fun _ => 0) s.cons.plan (planKey pace (s.get CNS.TEMP_BAND))

/-- VOLTAGE.TARGET_MV follows the pace and the band; in HELD it stays (R514, R517). -/
def State.showTarget (s : State) : State :=
  if s.cons.started && s.consState != csHeld then s.put CNS.VOLTAGE_TARGET_MV (s.planned (s.get TOP.PACE_CTL_PACE)) else s

/-- Trims that are not where the plan puts them. -/
def State.trimsMoving (s : State) : List Nat :=
  (List.range 113).filter fun d => Tab.get (fun _ => 0) s.cons.trims d != Tab.get (fun _ => 0) s.cons.trimNow d

/-- CNS_STAT.RAMPING: a voltage, a trim or a centre is moving (R520). -/
def State.showRamp (s : State) : State :=
  let core := s.consState != csHeld && s.cons.rail != s.get CNS.VOLTAGE_TARGET_MV
  s.put CNS.CNS_STAT_RAMPING (if s.cons.started && (core || !s.trimsMoving.isEmpty || !s.cons.centres.isEmpty) then 1 else 0)

end Sys2Proof.Machine
end

