-- ==== Sys2Proof/Machine/Wake.lean ====
section
/-! DEFINITION. Wake events and what they begin (R500 to R502). -/
namespace Sys2Proof.Machine

/-- Values of PWR_STAT.STATE (R505). -/
def pwActive : Nat := 0
def pwEntering : Nat := 1
def pwStandby : Nat := 2
def pwWaking : Nat := 3
def pwVault : Nat := 4

def State.pwState (s : State) : Nat := s.get PWR.PWR_STAT_STATE

/-- The device's BAR0 answers: out of reset, powered, and not in Vault. -/
def State.bar0Up (s : State) : Bool := s.power.aon && !s.power.held && s.pwState != pwVault

/-- The enabled sources that are pending, lowest first. -/
def State.wakeSources (s : State) : List Nat :=
  (List.range 6).filter fun i => bitAt (s.get PWR.WAKE_EN_SOURCES) i && bitAt (s.get PWR.WAKE_PEND_SOURCES) i

/-- A wake begins in Standby or Vault while an enabled source is pending (R501, R502 step 1). An entry that goes on to Vault is
cancelled instead (R500). -/
def State.checkWake (s : State) : State :=
  match s.wakeSources with
  | [] => s
  | src :: _ =>
    if s.power.sleep.isNone ∧ (s.pwState = pwStandby ∨ s.pwState = pwVault) then
      let vault := s.pwState == pwVault
      let s := { s with power := { s.power with wake := some (src, vault, 1, s.ticks), wakeN := s.power.wakeN || (vault && src != 0) } }
      s.put PWR.PWR_STAT_STATE pwWaking
    else s

/-- A sleep entry is unwound (R499, R500): the cause is a wake source, or none for a link that did not reach L2. -/
def State.unwind (s : State) (cause : Option Nat) : State :=
  match s.power.sleep with
  | some (req, step, _) =>
    let n := s.power.linkL2 && (match cause with | some 0 => false | some _ => true | none => false)
    { s with power := { s.power with sleep := none, unwind := some (cause, req, step), wakeN := s.power.wakeN || n } }.put
      PWR.PWR_STAT_STATE pwWaking
  | none => s

/-- A wake source's event (R501): its bit is set in any state; enabled, it wakes the device or cancels an entry. -/
def State.wakeEvent (s : State) (src : Nat) : State :=
  let s := s.putBit PWR.WAKE_PEND src true
  if bitAt (s.get PWR.WAKE_EN_SOURCES) src then
    (if s.power.sleep.isSome then s.unwind s.wakeSources.head? else s.checkWake)
  else s

/-- An access of BAR0 or BAR2 by the host is a TLP on the link: the LINK wake event while a sleep request runs, and in Standby
(R5, R501). -/
def State.linkActivity (s : State) : State := if s.pwState = pwStandby ∨ s.power.sleep.isSome = true then s.wakeEvent 0 else s

/-- The state in which a write is taken that may be the host's. -/
def State.heard (s : State) (byHost : Bool) : State := if byHost then s.linkActivity else s

end Sys2Proof.Machine
end

