-- ==== Sys2Proof/Machine/Memory.lean ====
section
/-! DEFINITION. External memory and data protection (12): reads and writes of DRAM, and the commands of the DRC and MPR parts. -/
namespace Sys2Proof.Machine

/-! ### Addresses (R328, R330, R358) -/

def State.chanCount (s : State) : Nat := if s.big then 8 else 4
/-- Usable DRAM bytes (R328). -/
def State.usable (s : State) : Nat := s.get DRC.DRC_CFG_USABLE_MIB * 2 ^ 20
/-- The channel that holds a physical address (R330). -/
def State.chanAt (s : State) (pa : Nat) : Nat :=
  if s.big then Nat.xor (Nat.xor (bits pa 8 3) (bits pa 14 3)) (bits pa 20 3)
  else Nat.xor (Nat.xor (bits pa 8 2) (bits pa 14 2)) (bits pa 20 2)
/-- The address within the channel (R330). -/
def State.localAt (s : State) (pa : Nat) : Nat := (if s.big then pa / 2 ^ 11 else pa / 2 ^ 10) * 256 + pa % 256
/-- The row of a local address with its rank and bank, as one number: bank in the low 4 bits (R330). -/
def rowKey (l : Nat) : Nat := l / 2 ^ 11
/-- Die density in MiB per rank and channel, by the code of DRC_CFG.DENSITY (R328). -/
def densityMib (d : Nat) : Nat := if d = 1 then 1024 else if d = 2 then 2048 else 0
/-- Rows of a bank: 16 banks of 2 KiB pages in a rank (R328, R330). -/
def State.rowsPerBank (s : State) : Nat := densityMib (s.get DRC.DRC_CFG_DENSITY) * 32
/-- The bank, with its rank, of a row number (R330). -/
def State.bankOfRow (s : State) (row : Nat) : Nat := row % 16 + 16 * (if s.rowsPerBank = 0 then 0 else row / 16 / s.rowsPerBank)
/-- The aperture of a physical address (R358); the bounds lie at whole MiB below the usable capacity. -/
def State.aperture (s : State) (pa : Nat) : Option Nat :=
  let m := s.get DRC.DRC_CFG_USABLE_MIB
  let p := pa / 2 ^ 20
  if p + 320 < m then some 0
  else if p + 256 < m then some 1
  else if p + 32 < m then some 2
  else if p < m then some 9
  else if pa / 0x10000 = 0x1000000 then some 3
  else if pa / 0x400000000000 = 1 then some 8
  else none

/-! ### Blocks -/

/-- The youngest queued write to a block (R336). -/
def State.queuedWrite (s : State) (b : Nat) : Option DramReq :=
  (s.chan (s.chanAt (32 * b))).writeQ.reverse.find? (·.block == b)
/-- One byte of DRAM as any later read returns it: from a queued write, else from memory. Memory that nothing has written
reads 0 (DESIGN CHOICE, log entry 5). -/
def State.dramByte (s : State) (a : Nat) : Byte :=
  match s.queuedWrite (a / 32) with
  | some q => q.data.getD (a % 32) 0#8
  | none => Tab.get (fun _ => 0#8) s.dram a
def State.dramBytes (s : State) (a n : Nat) : List Byte := (List.range n).map fun i => s.dramByte (a + i)
/-- The damage of a block. -/
def State.damageOf (s : State) (b : Nat) : Nat := Tab.get (fun _ => 0) s.damage b
def State.setDamage (s : State) (b m : Nat) : State := { s with damage := Tab.set (fun _ => 0) s.damage b m }
/-- Store bytes in DRAM, one after another. -/
def State.storeBytes (s : State) (a : Nat) (l : List Byte) : State :=
  { s with dram := (l.zipIdx).foldl (fun d q => Tab.set (fun _ => 0#8) d (a + q.2) q.1) s.dram }
/-- A whole block is written: data and check word replaced, a queued write to it overwritten (R337, R346). -/
def State.storeBlock (s : State) (b : Nat) (l : List Byte) : State :=
  let c := s.chanAt (32 * b)
  let ch := s.chan c
  ((s.storeBytes (32 * b) l).setDamage b 0).setChan c
    { ch with writeQ := ch.writeQ.map fun q => if q.block = b then { q with data := l } else q }

/-! ### Mends (R343 to R350) -/

def logAddrLo (e : Nat) : Nat := MPR.LOG_ADDR_LO e
def State.logValid (s : State) (e : Nat) : Bool := s.on (MPR.LOG_ADDR_HI_VALID e)
/-- An entry of the correction log matches the memory, the block address and the bit (R350). -/
def State.logMatches (s : State) (e unit addr bit : Nat) (check : Bool) : Bool :=
  s.logValid e && (s.rd (MPR.LOG_ADDR_LO e)).toNat == addr % 2 ^ 32 && s.get (MPR.LOG_ADDR_HI_ADDR e) == addr / 2 ^ 32 % 65536 &&
  s.get (MPR.LOG_ADDR_HI_UNIT e) == unit && s.get (MPR.LOG_BIT_BIT e) == bit && s.on (MPR.LOG_ADDR_HI_CHECK_BIT e) == check

/-- The corrected count of a memory (R349): DRAM channel, Stacks bank, or the local memories. -/
def corrField (unit : Nat) : Fld :=
  if 0x110 ≤ unit ∧ unit ≤ 0x117 then MPR.CORR_DRAM_COUNT (unit - 0x110)
  else if 0x100 ≤ unit ∧ unit ≤ 0x107 then MPR.CORR_STACKS_COUNT (unit - 0x100) else MPR.CORR_LOCAL_COUNT
def uncorrField (unit : Nat) : Fld := if 0x110 ≤ unit ∧ unit ≤ 0x117 then MPR.UNCORR_DRAM_COUNT else MPR.UNCORR_SRAM_COUNT

/-- A mend is counted and logged (R349, R350). A new entry sends the C0 message. -/
def State.logMend (s : State) (unit addr bit : Nat) (check : Bool) : State :=
  let s := s.bump (corrField unit)
  match (List.range 16).find? fun e => s.logMatches e unit addr bit check with
  | some e => s.bump ⟨MPR.LOG_BIT e, 16, 16⟩
  | none =>
    match (List.range 16).find? fun e => !s.logValid e with
    | some e =>
      let s := s.wr (MPR.LOG_ADDR_LO e) (BitVec.ofNat 32 addr)
      let s := s.wr (MPR.LOG_ADDR_HI e) (BitVec.ofNat 32 (2 ^ 31 + (if check then 2 ^ 30 else 0) + unit % 4096 * 65536 + addr / 2 ^ 32 % 65536))
      let s := s.wr (MPR.LOG_BIT e) (BitVec.ofNat 32 (65536 + bit))
      let s := s.wr (MPR.LOG_FIRST e) (BitVec.ofNat 32 s.now.sec.toNat)
      (s.bump ⟨MPR.MPR_STAT, 0, 5⟩).report unit 0x10 none addr
    | none => s.bump MPR.MPR_STAT_OVERFLOW

/-- The verdict on a read is counted, logged and reported (R343, R346, R349). -/
def State.noteVerdict (s : State) (unit addr : Nat) (v : Verdict) : State :=
  match v with
  | .clean => s
  | .dataBit b => s.logMend unit addr b false
  | .checkBit b => s.logMend unit addr b true
  | .bad => (s.bump (uncorrField unit)).report unit 0x11 none addr

/-- Read a block: forwarded from a queued write (R336), else checked by the conservation code. Answers the 32 bytes handed to
the reader and whether they carry the poison mark. -/
def State.readBlock (s : State) (b : Nat) : State × List Byte × Bool :=
  let c := s.chanAt (32 * b)
  match s.queuedWrite b with
  | some q => (s.bump (DRC.CH_FWD_COUNT c), q.data, false)
  | none =>
    let m := s.damageOf b
    let v := judge m
    (s.noteVerdict (0x110 + c) (32 * b) v, invertBits (v.left m) (s.dramBytes (32 * b) 32), v == .bad)

/-- Read n bytes: the bytes, and whether any block of them carries the poison mark. -/
def State.readMem (s : State) (a n : Nat) : State × List Byte × Bool :=
  let r := (rangeFrom (a / 32) (ceilDiv (a % 32 + n) 32)).foldl (fun (q : State × List Byte × Bool) b =>
    let (s, l, p) := q.1.readBlock b
    (s, q.2.1 ++ l, q.2.2 || p)) (s, [], false)
  (r.1, (r.2.1.drop (a % 32)).take n, r.2.2)

/-- A write within one block: a whole block replaces it (R337); fewer bytes are merged with a queued write or with the block
read and mended, and refused where that read is uncorrectable (R347). -/
def State.writeInBlock (s : State) (a : Nat) (l : List Byte) : State × Bool :=
  let b := a / 32
  let o := a % 32
  if o = 0 ∧ l.length = 32 then (s.storeBlock b l, true)
  else
    let merge (old : List Byte) : List Byte := old.take o ++ l ++ old.drop (o + l.length)
    match s.queuedWrite b with
    | some q => (s.storeBlock b (merge q.data), true)
    | none =>
      let (s, old, poison) := s.readBlock b
      if poison then (s, false)
      else ((s.storeBlock b (merge old)).bump (DRC.CH_RMW_COUNT (s.chanAt a)), true)

/-- The pieces of a run of bytes, block by block. -/
def blockPieces (a : Nat) (l : List Byte) : List (Nat × List Byte) :=
  let first := min l.length (32 - a % 32)
  (a, l.take first) ::
    ((List.range (ceilDiv (l.length - first) 32)).map fun i => (a + first + 32 * i, ((l.drop (first + 32 * i)).take 32)))

/-- Write bytes to DRAM; whether every part landed. -/
def State.writeMem (s : State) (a : Nat) (l : List Byte) : State × Bool :=
  if l.isEmpty then (s, true)
  else (blockPieces a l).foldl (fun q p => let r := q.1.writeInBlock p.1 p.2; (r.1, q.2 && r.2)) (s, true)

/-- Host memory (R366). -/
def State.hostByte (s : State) (a : Nat) : Byte := Tab.get (fun _ => 0#8) s.host a
def State.hostBytes (s : State) (a n : Nat) : List Byte := (List.range n).map fun i => s.hostByte (a + i)
def State.storeHost (s : State) (a : Nat) (l : List Byte) : State :=
  { s with host := (l.zipIdx).foldl (fun d q => Tab.set (fun _ => 0#8) d (a + q.2) q.1) s.host }
/-- 32-bit little-endian words in host memory. -/
def State.hostWord (s : State) (a : Nat) : Nat := leNum (s.hostBytes a 4)

/-! ### Training (R331 to R333) -/

/-- The longest run of passing taps, the lower where two are longest: first tap and length (R332). -/
def longestRun (pass : Nat) : Nat × Nat :=
  let step (q : (Nat × Nat) × (Nat × Nat)) (t : Nat) : (Nat × Nat) × (Nat × Nat) :=
    let (cur, best) := q
    if bitAt pass t then
      let cur := (cur.1, cur.2 + 1)
      (cur, if best.2 < cur.2 then cur else best)
    else ((t + 1, 0), best)
  ((List.range 128).foldl step ((0, 0), (0, 0))).2

/-- The tap a lane is set to, and its eye width (R332). -/
def laneCentre (pass : Nat) : Nat × Nat :=
  let r := longestRun pass
  (r.1 + (r.2 - 1) / 2, r.2)

/-- The DRAM profile: code of the data rate, and ranks. An unprogrammed one selects 6,400 MT/s and one rank (R329, R466). -/
def State.dramProfile (s : State) : Nat × Nat :=
  let p := (s.rd FUS.DRAM_PROFILE).toNat
  if bitAt p 2 then (bits p 0 2, bits p 3 1 + 1) else (0, 1)

/-- Density code and I/O width that MR8 of a channel's ranks give: the profile's number of ranks, all alike, x16, and of the density `like` of the
channels before it (R328, R329). -/
def mr8Ok (ranks : Nat) (like : Option Nat) (l : List (Nat × Nat)) : Bool :=
  l.length == ranks && l.all fun q => some q == l.head? && q.2 == 16 && densityMib q.1 != 0 && (like.isNone || like == some q.1)

/-- An attempt passes: MR8 as it should be, every step passed, every eye at least 16 taps. -/
def trainPasses (ranks : Nat) (like : Option Nat) (t : TrainTry) : Bool :=
  mr8Ok ranks like t.mr8 && t.stepsOk && [t.rd0, t.rd1, t.wr0, t.wr1].all fun p => decide (16 ≤ (laneCentre p).2)

def centreWord (l0 l1 : Nat) : Nat :=
  let a := laneCentre l0
  let b := laneCentre l1
  a.1 + b.1 * 2 ^ 8 + a.2 * 2 ^ 16 + b.2 * 2 ^ 24

/-- Training may start, SYS_REFCLK running: after the verified fuse load of a start, or as self-refresh is left (R331, R502). -/
def State.trainable (s : State) : Bool :=
  !s.power.held && s.power.refclk && s.on FUS.FUS_STAT_LOADED && !s.on DRC.DRC_STAT_READY && (s.pwState == pwActive || s.pwState == pwWaking) &&
  (match s.power.wake with | some (_, true, k, _) => decide (2 ≤ k) | _ => true)

/-- Training of the enabled channels starts after reset release or self-refresh exit (R331). -/
def execDramTraining (s : State) : Host.Outcome State Fault Refusal :=
  if s.trainable = false then .next s else
  let s := (s.put DRC.DRC_STAT_READY 0).put DRC.DRC_STAT_TRAINING 1
  let s := s.put DRC.DRC_STAT_ENABLED (2 ^ s.chanCount - 1)
  let s := { s with pads := { s.pads with lpReset := false } }
  .next ((List.range s.chanCount).foldl (fun s c => s.put (DRC.CH_STAT_TRAINED c) 0) s)

/-- One channel's training ends: its centres stand, or it has failed twice (R332, R333). -/
def State.trainChannel (s : State) (c : Nat) (like : Option Nat) (a b : TrainTry) : State × Option Nat :=
  let passes := trainPasses s.dramProfile.2 like
  let t := if passes a then a else b
  if passes t then
    let s := s.wr (DRC.CH_RD_CENTRE c) (BitVec.ofNat 32 (centreWord t.rd0 t.rd1))
    let s := s.wr (DRC.CH_WR_CENTRE c) (BitVec.ofNat 32 (centreWord t.wr0 t.wr1))
    (s.put (DRC.CH_STAT_TRAINED c) 1, t.mr8.head?.map (·.1))
  else ((s.put ⟨DRC.DRC_STAT, 10 + c, 1⟩ 1).report (0x110 + c) 0x12 none 0, none)

/-- What a channel holds after training: its table empty, its threshold the one written, and after self-refresh RFM sent to
every bank of every rank (R341). -/
def State.freshChannel (s : State) (c ranks : Nat) : State :=
  let s := if s.on (DRC.CH_STAT_SELF_REFRESH c) then
    (s.add (DRC.CH_RFM_COUNT c) (16 * ranks)).put (DRC.CH_STAT_SELF_REFRESH c) 0 else s
  s.setChan c { s.chan c with acts := [], threshold := s.get DRC.RH_CFG_THRESHOLD }

/-- Training ends on every enabled channel (R329, R331, R333). READY is set only when no channel has failed. `tries` holds the
first attempt and its repeat, by channel. Nothing changes while no training runs. -/
def execDramTrainingDone (tries : List (TrainTry × TrainTry)) (s : State) : Host.Outcome State Fault Refusal :=
  if s.on DRC.DRC_STAT_TRAINING then
    let bad : TrainTry := { mr8 := [], stepsOk := false, rd0 := 0, rd1 := 0, wr0 := 0, wr1 := 0 }
    let r := (List.range s.chanCount).foldl (fun (q : State × List (Option Nat)) c =>
      let t := tries.getD c (bad, bad)
      let (s, o) := q.1.trainChannel c (q.2.findSome? id) t.1 t.2
      (s, q.2 ++ [o])) (s, [])
    let s := r.1.put DRC.DRC_STAT_TRAINING 0
    if r.2.all Option.isSome then
      let ranks := s.dramProfile.2
      let density := (r.2.findSome? id).getD 0
      let s := (List.range s.chanCount).foldl (fun s c => s.freshChannel c ranks) s
      let s := ((s.put DRC.DRC_CFG_RATE s.dramProfile.1).put DRC.DRC_CFG_RANKS ranks).put DRC.DRC_CFG_DENSITY density
      let s := s.put DRC.DRC_CFG_USABLE_MIB (densityMib density * ranks * s.chanCount * 7 / 8)
      let s := if s.get KPR.BOOT_STAT_STAGE = 1 then s.put KPR.BOOT_STAT_STAGE 2 else s
      .next ((s.put DRC.DRC_STAT_READY 1).raise 253)
    else .next (s.raise 253)
  else .next s

/-! ### Maintenance (R334, R335, R338) -/

/-- MR4 is read: refresh at the rate it asks for, DRAM_HOT where it reports a temperature above range (R334). -/
def execMr4Poll (c code : Nat) (hot : Bool) (s : State) : Host.Outcome State Fault Refusal :=
  if s.chanCount ≤ c then .next s else
  let s := (s.put (DRC.CH_STAT_REFRESH_RATE c) code).put (DRC.CH_STAT_HOT c) (if hot then 1 else 0)
  .next (if hot then (s.report (0x110 + c) 0x13 none 0).raise 253 else s)

/-- ZQ calibration is repeated; its result is latched in the PHY (R334). -/
def execZqCalibration (c : Nat) (s : State) : Host.Outcome State Fault Refusal :=
  .next (if c < s.chanCount then s.setChan c { s.chan c with zq := (s.chan c).zq + 1 } else s)

/-- A per-bank refresh falls due (R334, R335). -/
def execRefreshDue (c : Nat) (s : State) : Host.Outcome State Fault Refusal :=
  .next (if c < s.chanCount then s.setChan c { s.chan c with refresh := (s.chan c).refresh + 1 } else s)

/-- At a tREFW boundary the table is cleared and a new threshold applies (R338, R355). -/
def execTrefwBoundary (c : Nat) (s : State) : Host.Outcome State Fault Refusal :=
  .next (if c < s.chanCount then s.setChan c { s.chan c with acts := [], threshold := s.get DRC.RH_CFG_THRESHOLD } else s)

/-! ### The scheduler (R335 to R341) -/

/-- The entry an untracked row takes when the table is full: the lowest count, the lowest-numbered among equals (R338). -/
def lowestEntry (l : List ActEntry) : Option (Nat × Nat) :=
  l.zipIdx.foldl (fun best q => match best with
    | none => some (q.2, q.1.count)
    | some b => if q.1.count < b.2 then some (q.2, q.1.count) else some b) none

/-- An ACT of a row is counted; a count at the threshold calls for a neighbour refresh, a replacement at half of it for RFM
(R338 to R340). -/
def State.countAct (s : State) (c row : Nat) : State :=
  let ch := s.chan c
  let note (s : State) (acts : List ActEntry) : State :=
    match acts.find? fun e => e.row == row && decide (ch.threshold ≤ e.count) with
    | some _ =>
      (s.setChan c { s.chan c with acts := acts.map (fun e => if e.row = row then { e with count := 0 } else e),
                                   neighbours := (s.chan c).neighbours ++ [row] }).bump (DRC.CH_RH_COUNT c)
    | none => s.setChan c { s.chan c with acts }
  if ch.acts.any (·.row == row) then note s (ch.acts.map fun e => if e.row = row then { e with count := e.count + 1 } else e)
  else if ch.acts.length < 256 then note s (ch.acts ++ [{ row, count := 1 }])
  else
    match lowestEntry ch.acts with
    | some (i, n) =>
      let s := if ch.threshold ≤ 2 * (n + 1) then
        (s.setChan c { ch with rfm := ch.rfm ++ [s.bankOfRow row] }).bump (DRC.CH_RFM_COUNT c) else s
      note s (ch.acts.set i { row, count := n + 1 })
    | none => s

/-- A request opens its row when another is open in its bank: an ACT (R338). -/
def State.openRow (s : State) (c pa : Nat) : State :=
  let l := s.localAt pa
  if Tab.get (fun _ => none) (s.chan c).openRows (s.bankOfRow (rowKey l)) = some (rowKey l) then s
  else (s.setChan c { s.chan c with openRows := Tab.set (fun _ => none) (s.chan c).openRows (s.bankOfRow (rowKey l)) (some (rowKey l)) }).countAct c (rowKey l)

/-- The request hits the row open in its bank. -/
def State.rowHit (s : State) (c : Nat) (r : DramReq) : Bool :=
  let l := s.localAt (32 * r.block)
  Tab.get (fun _ => none) (s.chan c).openRows (s.bankOfRow (rowKey l)) == some (rowKey l)

/-- A row hit first, then the oldest (R335). -/
def State.bestOf (s : State) (c : Nat) (l : List DramReq) : Option DramReq :=
  match l.find? (s.rowHit c) with
  | some r => some r
  | none => l.head?

/-- The oldest request whose age has reached AGE_CAP (R335 rule 2). -/
def State.agedOut (s : State) (c : Nat) : Option DramReq :=
  let cap := 25 * s.get DRC.SCHED_CFG_AGE_CAP
  let all := ((s.chan c).readQ ++ (s.chan c).writeQ).filter fun r => decide (cap ≤ s.ticks - r.tick)
  all.foldl (fun best r => match best with
    | none => some r
    | some b => if r.tick < b.tick then some r else some b) none

/-- What the channel issues next (R335): 0 a refresh, 1 a neighbour refresh, 2 an RFM, 3 a request, 4 nothing. -/
inductive DramPick where
  | refresh
  | neighbour (row : Nat)
  | rfm (bank : Nat)
  | request (r : DramReq)
  | nothing
  deriving DecidableEq, Repr

/-- Writes are drained from WR_HIGH until WR_LOW (R335 rule 3). -/
def State.drains (s : State) (c : Nat) : Bool :=
  let n := (s.chan c).writeQ.length
  decide (s.get DRC.SCHED_CFG_WR_HIGH ≤ n) || ((s.chan c).draining && decide (s.get DRC.SCHED_CFG_WR_LOW < n))

/-- A write waits for the reads of its block that were queued before it (R336). -/
def State.pickDram (s : State) (c : Nat) : DramPick :=
  let ch := s.chan c
  if ch.refresh ≠ 0 then .refresh
  else match ch.neighbours, ch.rfm with
    | r :: _, _ => .neighbour r
    | [], b :: _ => .rfm b
    | [], [] =>
      match s.agedOut c with
      | some r => .request r
      | none =>
        let w := s.bestOf c (ch.writeQ.filter fun w => !ch.readQ.any (·.block == w.block))
        let rd := s.bestOf c ch.readQ
        match (if s.drains c then w else none), rd, w with
        | some r, _, _ => .request r
        | none, some r, _ => .request r
        | none, none, some r => .request r
        | none, none, none => .nothing

/-- The age of a request as it is served is kept when it is the greatest (R335, R355). -/
def State.noteAge (s : State) (c : Nat) (r : DramReq) : State :=
  let age := (s.ticks - r.tick) * 4 / 10
  if s.get (DRC.CH_AGE_MAX_COUNT c) < age then s.put (DRC.CH_AGE_MAX_COUNT c) (min age (2 ^ 32 - 1)) else s

/-- A write of a unit has landed, or another has taken its place (R451). -/
def State.writeGone (s : State) (engine : Option Nat) : State :=
  match engine with
  | some i => s.setEngine i { s.engine i with writes := (s.engine i).writes - 1 }
  | none => s

/-- A queued write lands in memory (R337, R346), unless its unit's writes have been voided (R451). -/
def State.landWrite (s : State) (c : Nat) (r : DramReq) : State :=
  let s := s.setChan c { s.chan c with writeQ := (s.chan c).writeQ.erase r }
  ((s.storeBytes (32 * r.block) r.data).setDamage r.block 0).writeGone r.engine

/-- The rows that a neighbour refresh refreshes, clipped at the bank's first and last rows (R339). -/
def State.neighbourRows (s : State) (row : Nat) : List Nat :=
  let n := s.rowsPerBank
  let r := if n = 0 then row / 16 else row / 16 % n
  ((if 2 ≤ r then [row - 32] else []) ++ (if 1 ≤ r then [row - 16] else []) ++ (if r + 1 < n then [row + 16] else []) ++
    (if r + 2 < n then [row + 32] else []))

/-- The rows beside a row are refreshed, each by an ACT, which is counted as any other, and a PRE (R338, R339). -/
def State.refreshNeighbours (s : State) (c row : Nat) : State :=
  let s := s.setChan c { s.chan c with neighbours := (s.chan c).neighbours.drop 1, issued := 1 :: s.neighbourRows row
                                       openRows := Tab.set (fun _ => none) (s.chan c).openRows (s.bankOfRow row) none }
  (s.neighbourRows row).foldl (fun s r => s.countAct c r) s

/-- A channel issues its next command (R335 to R340); with SYS_REFCLK the DRAM's PLL stops (R492). A read that is issued hands its 32 bytes to the sender, to be checked. -/
def execDramCommandIssue (c : Nat) (s : State) : Host.Outcome State Fault Refusal :=
  if s.chanCount ≤ c ∨ s.power.refclk = false then .next s else
  let s := s.setChan c { s.chan c with draining := s.drains c }
  match s.pickDram c with
  | .refresh => .next (s.setChan c { s.chan c with refresh := (s.chan c).refresh - 1, issued := [0] })
  | .neighbour row => .next (s.refreshNeighbours c row)
  | .rfm b => .next (s.setChan c { s.chan c with rfm := (s.chan c).rfm.drop 1, issued := [2, b] })
  | .request r =>
    let s := (s.noteAge c r).openRow c (32 * r.block)
    let s := s.setChan c { s.chan c with issued := [3, r.block] }
    if r.isRead then .next (s.setChan c { s.chan c with readQ := (s.chan c).readQ.erase r })
    else .next (s.landWrite c r)
  | .nothing => .next s

/-- A read request reaches a channel: forwarded from a queued write, else queued while the queue has room (R335, R336). While
READY is 0 it completes with an error (R333): the answer is empty. -/
def execDramRead (block : Nat) (engine : Option Nat) (s : State) : Host.Outcome State Fault Refusal :=
  if s.on DRC.DRC_STAT_READY then
    let c := s.chanAt (32 * block)
    match s.queuedWrite block with
    | some q => .next ((s.bump (DRC.CH_FWD_COUNT c)).reply (q.data.map BitVec.toNat))
    | none =>
      if (s.chan c).readQ.length < 64 then
        .next (s.setChan c { s.chan c with readQ := (s.chan c).readQ ++ [{ block, data := [], engine, tick := s.ticks, isRead := true }] })
      else .next s
  else .next (s.reply [])

/-- The queued write to a block carries other data, of a unit (R337, R347). -/
def State.requeue (s : State) (c block : Nat) (data : List Byte) (engine : Option Nat) : State :=
  s.setChan c { s.chan c with writeQ := (s.chan c).writeQ.map fun q => if q.block = block then { q with data, engine } else q }

/-- A whole-block write enters the write queue, replacing a queued write to the block (R337). A write of a unit whose writes
have been voided is dropped (R451); while READY is 0 every request completes with an error (R333). -/
def execDramWrite (block : Nat) (data : List Byte) (engine : Option Nat) (s : State) : Host.Outcome State Fault Refusal :=
  let voided := match engine with | some i => s.on (MMU.GRANT_FENCED i) && (s.engine i).drain.isNone | none => false
  if s.on DRC.DRC_STAT_READY && !voided then
    let c := s.chanAt (32 * block)
    let ch := s.chan c
    match s.queuedWrite block with
    | some q => .next ((s.requeue c block data engine).writeGone q.engine)
    | none =>
    if ch.writeQ.length < 64 then
      .next (s.setChan c { ch with writeQ := ch.writeQ ++ [{ block, data, engine, tick := s.ticks, isRead := false }] })
    else .next s
  else .next s

/-- A write of fewer than 256 bits (R347). The answer is 1 where it completes and 0 where it completes with an error; one that needs a place in a full
write queue waits. -/
def execNarrowWrite (addr : Nat) (data : List Byte) (s : State) : Host.Outcome State Fault Refusal :=
  if s.on DRC.DRC_STAT_READY then
    let b := addr / 32
    let c := s.chanAt addr
    let l := data.take (32 - addr % 32)
    let merge (old : List Byte) : List Byte := old.take (addr % 32) ++ l ++ old.drop (addr % 32 + l.length)
    match s.queuedWrite b with
    | some q => .next ((s.requeue c b (merge q.data) q.engine).reply [1])
    | none =>
      if 64 ≤ (s.chan c).writeQ.length then .next s
      else
        let (s, old, poison) := s.readBlock b
        if poison then .next (s.reply [0])
        else
          let r : DramReq := { block := b, data := merge old, engine := none, tick := s.ticks, isRead := false }
          .next (((s.setChan c { s.chan c with writeQ := (s.chan c).writeQ ++ [r] }).bump (DRC.CH_RMW_COUNT c)).reply [1])
  else .next (s.reply [0])

/-! ### Checks, log and scrubber (R343 to R354) -/

/-- A routine that reads a poison mark is abandoned and the unit reports it; its work goes for dispatch again, or is lost for an
Open stream and at a second poisoned read (R346, R429, R439, R455). -/
def State.poisonRead (s : State) (i addr : Nat) (again : Bool) : State :=
  match (s.engine i).work with
  | some (n, p, j, _) =>
    let s := (s.abandon i).report (unitOfEngine i) 0x08 (some n) addr
    if again || (s.stream n).prot = 2 then
      ((s.setEngine i { s.engine i with work := none }).put (engState i) stIdle).loseWork (unitOfEngine i) n p j
    else s.put (engState i) stAbandoned
  | none => s.report (unitOfEngine i) 0x08 none addr

/-- Read data arrives from a memory and is checked (R343 to R350). `mask` is damage that has arisen in the block since it was
written, data bits below and check bits from 256 up. For a DRAM channel it joins the block's damage; for an on-chip memory
`addr` is the byte offset within it and the damage is all the mask. `reader`: the engine or hart that reads; `again`: its
earlier read of the same work was poisoned as well. A unit that the grade does not have holds no memory. The answer is the damage left in the data, and 1 for a poison mark. -/
def execReadDataCheck (unit addr mask : Nat) (engine hart : Option Nat) (again : Bool) (s : State) : Host.Outcome State Fault Refusal :=
  if s.unitEnabled unit = false then .next s else
  let b := addr / 32
  let dram := decide (0x110 ≤ unit ∧ unit ≤ 0x117)
  let m := if dram then Nat.xor (s.damageOf b) mask else mask
  let s := if dram then s.setDamage b m else s
  let v := judge m
  let s := s.noteVerdict unit (32 * b) v
  let s := s.reply [v.left m, if v = .bad then 1 else 0]
  if v = .bad then
    let s := match engine with | some i => s.poisonRead i (32 * b) again | none => s
    match hart with
    | some h => .next ((s.setHart h { s.hart h with poison := 1 }).trap h causeLoadFault (32 * b))
    | none => .next s
  else .next s

/-- Writing 1 to a log entry's VALID frees it; OVERFLOW clears once every entry is free (R350, R356). -/
def execLogEntryFree (e : Nat) (s : State) : Host.Outcome State Fault Refusal :=
  if s.logValid e then
    let s := (s.put (MPR.LOG_ADDR_HI_VALID e) 0)
    let n := s.get ⟨MPR.MPR_STAT, 0, 5⟩ - 1
    let s := s.put ⟨MPR.MPR_STAT, 0, 5⟩ n
    .next (if n = 0 then s.put MPR.MPR_STAT_OVERFLOW 0 else s)
  else .next s

/-- The enabled scrub ranges: first page and pages, ascending in r, those beyond the usable capacity cut off (R352, R356). -/
def State.scrubRanges (s : State) : List (Nat × Nat) :=
  if s.on MPR.SCRUB_CTL_DRAM then
    ((List.range 8).map fun r =>
      let b := s.get (MPR.SCRUB_RANGE_BASE_PAGES r)
      (b, min (s.get (MPR.SCRUB_RANGE_PAGES_PAGES r)) (256 * s.get DRC.DRC_CFG_USABLE_MIB - b))).filter (·.2 != 0)
  else []

/-- Blocks of the items on every queue, which the scrubber visits when STACKS is set (R352, R396). -/
def State.stackBlocks (s : State) : Nat :=
  if s.on MPR.SCRUB_CTL_STACKS then (s.queues.map fun e => (e.2.items.map fun it => ceilDiv it.len 32).sum).sum else 0

/-- The lap ends: its duration and the count of laps recorded, SLOW set when it took longer than the warning (R354). -/
def State.endLap (s : State) : State :=
  let ms := (s.time - s.scrub.lapStart) / 2 ^ 28 / 1000000
  let s := (s.wr MPR.SCRUB_LAP_MS (BitVec.ofNat 32 (min ms (2 ^ 32 - 1)))).bump MPR.SCRUB_STAT_LAPS
  let s := if s.get MPR.SCRUB_WARN_S_VALUE * 1000 < ms then s.put MPR.SCRUB_STAT_SLOW 1 else s
  { s with scrub := { s.scrub with range := 0, pos := 0, stackPos := 0, lapStart := s.time } }

/-- A block read by the scrubber: a mended one is written back unless a write to it is queued (R353). -/
def State.scrubBlock (s : State) (b : Nat) : State :=
  let queued := (s.queuedWrite b).isSome
  let m := s.damageOf b
  let (s, l, _) := s.readBlock b
  if (judge m).mends && !queued then s.storeBlock b l else s

/-- The eight blocks of a granule are read; SCRUB_POS shows its page. -/
def State.scrubGranule (s : State) (a : Nat) : State :=
  let s := { s with scrub := { s.scrub with last := some s.ticks } }
  (rangeFrom (a / 32) 8).foldl (fun s b => s.scrubBlock b) ((s.put MPR.SCRUB_STAT_RUNNING 1).wr MPR.SCRUB_POS (BitVec.ofNat 32 (a / 4096)))
/-- The scrubber goes on to the next granule of a range of so many pages, or to the next range. -/
def State.scrubOn (s : State) (pages : Nat) : State :=
  { s with scrub := if s.scrub.pos + 1 < 16 * pages then { s.scrub with pos := s.scrub.pos + 1 }
                    else { s.scrub with pos := 0, range := s.scrub.range + 1 } }
/-- A block of the Stacks is read. -/
def State.scrubStack (s : State) : State :=
  ({ s with scrub := { s.scrub with stackPos := s.scrub.stackPos + 1 } }).put MPR.SCRUB_STAT_RUNNING 1
/-- The lap ends where neither one of `n` ranges nor a block of the Stacks is left. -/
def State.lapUnless (s : State) (n : Nat) : State :=
  if s.scrub.range < n ∨ s.scrub.stackPos < s.stackBlocks then s else s.endLap

/-- The next granule may be read: 256 bytes at MAX_MBPS after the last (R352). -/
def State.scrubDue (s : State) : Bool :=
  match s.scrub.last with
  | some t => decide (64000 ≤ s.get MPR.SCRUB_CTL_MAX_MBPS * (s.ticks - t))
  | none => true

/-- The scrubber reads the next 256-byte granule of its lap, or the next block of the Stacks (R352 to R354). Nothing changes
while nothing is enabled, nor before its rate allows the granule. -/
def execScrubRead (s : State) : Host.Outcome State Fault Refusal :=
  match s.scrubRanges[s.scrub.range]? with
  | some (base, pages) =>
    if s.scrubDue = false then .next s
    else .next (((s.scrubGranule (256 * (16 * base + s.scrub.pos))).scrubOn pages).lapUnless s.scrubRanges.length)
  | none =>
    if s.scrub.stackPos < s.stackBlocks then .next (s.scrubStack.lapUnless 0)
    else if s.scrubRanges.isEmpty then .next (s.put MPR.SCRUB_STAT_RUNNING 0)
    else .next s.endLap

/-- The lap starts again from the first range, with no lap time for the one cut short (R354). -/
def State.restartLap (s : State) : State :=
  let s := { s with scrub := { Scrubber.init with lapStart := s.time, last := s.scrub.last } }
  s.put MPR.SCRUB_STAT_RUNNING (if s.get MPR.SCRUB_CTL_DRAM = 0 ∧ s.get MPR.SCRUB_CTL_STACKS = 0 then 0 else 1)

/-- A write to SCRUB_CTL or to a range register (R354, R356): MAX_MBPS keeps its value outside 10 to 10,000. `which`: 0 for
SCRUB_CTL, 1 + r for the base and 9 + r for the pages of range r. -/
def execScrubCtlWrite (which value : Nat) (s : State) : Host.Outcome State Fault Refusal :=
  if which = 0 then
    let s := (s.put MPR.SCRUB_CTL_STACKS (bits value 1 1)).put MPR.SCRUB_CTL_DRAM (bits value 0 1)
    let r := bits value 8 22
    .next (if 10 ≤ r ∧ r ≤ 10000 then (s.put MPR.SCRUB_CTL_MAX_MBPS r).restartLap else s.restartLap)
  else if which ≤ 8 then .next ((s.put (MPR.SCRUB_RANGE_BASE_PAGES (which - 1)) value).restartLap)
  else .next ((s.put (MPR.SCRUB_RANGE_PAGES_PAGES (which - 9)) value).restartLap)

/-- The Conservator moves a lane's centre by one tap towards the planned one during a refresh that blocks the lane's bank (R332, R511). -/
def execDqCentreMove (c lane : Nat) (write : Bool) (s : State) : Host.Outcome State Fault Refusal :=
  let f : Fld := ⟨if write then DRC.CH_WR_CENTRE c else DRC.CH_RD_CENTRE c, 8 * (lane % 2), 8⟩
  let key := 4 * c + 2 * (lane % 2) + (if write then 1 else 0)
  match Tab.get (fun _ => none) s.cons.centres key with
  | none => .next s
  | some t =>
    let v := s.get f
    let v' := if v < t then v + 1 else if t < v then v - 1 else v
    .next ({ s with cons := { s.cons with centres := Tab.set (fun _ => none) s.cons.centres key (if v' = t then none else some t) } }.put f v')

end Sys2Proof.Machine
end

