-- ==== Sys2Proof/Machine/Translate.lean ====
section
/-! DEFINITION. Address translation and the protection map (R357 to R368). -/
namespace Sys2Proof.Machine

/-- What a translation comes to: a physical address and its leaf's NS, or a fault of a kind at a level (R367). -/
inductive XRes where
  | ok (pa : Nat) (ns : Bool)
  | fail (kind level : Nat)
  deriving DecidableEq, Repr

def fltNotValid : Nat := 1
def fltReadDenied : Nat := 2
def fltWriteDenied : Nat := 3
def fltMalformed : Nat := 4
def fltTableAddr : Nat := 5
def fltNoContext : Nat := 6
def fltPoison : Nat := 7
def fltDenied : Nat := 8
def fltNoAperture : Nat := 9
def fltFenced : Nat := 10

/-- The kinds queued for resolution (R367). -/
def resolvable (k : Nat) : Bool := decide (k ≤ 7)

/-! ### Table walk (R360 to R362) -/

/-- A table entry in DRAM: its value and whether it read uncorrectable. -/
def State.pte (s : State) (a : Nat) : Nat × Bool :=
  (leNum (s.dramBytes a 8), (s.queuedWrite (a / 32)).isNone && judge (s.damageOf (a / 32)) == .bad)

/-- An entry keeps its reserved bits 0 (R361). -/
def pteReservedOk (e : Nat) : Bool := bits e 6 6 == 0 && bits e 48 16 == 0
def pteAddr (e : Nat) : Nat := bits e 12 36 * 4096

/-- A leaf found at a level: the log2 of its page size and the entry it takes, or the fault. -/
def State.leafAt (s : State) (table va level e : Nat) : Except (Nat × Nat) (Nat × Nat) :=
  if level = 1 then
    (if bits e 12 9 = 0 ∧ bitAt e 4 = false then .ok (21, e) else .error (fltMalformed, level))
  else if bitAt e 4 then
    -- 64 KiB page: the first entry of the aligned group of 16 is the one read (R362)
    let g := s.pte (table + 8 * (bits va 16 5 * 16))
    if g.2 then .error (fltPoison, 0)
    else if bitAt g.1 0 = false then .error (fltNotValid, 0)
    else if pteReservedOk g.1 ∧ bitAt g.1 1 = false ∧ bitAt g.1 4 ∧ bits g.1 12 4 = 0 then .ok (16, g.1)
    else .error (fltMalformed, 0)
  else .ok (12, e)

/-- The walk from a table at a level down (R362): page size and leaf entry, or fault kind and level. -/
def State.walk (s : State) (va : Nat) : Nat → Nat → Except (Nat × Nat) (Nat × Nat)
  | level, table =>
    if s.aperture table ≠ some 0 then .error (fltTableAddr, level)
    else
      let (e, poison) := s.pte (table + 8 * bits va (12 + 9 * level) 9)
      if poison then .error (fltPoison, level)
      else if bitAt e 0 = false then .error (fltNotValid, level)
      else if pteReservedOk e = false then .error (fltMalformed, level)
      else
        match level with
        | 0 => if bitAt e 1 then .error (fltMalformed, 0) else s.leafAt table va 0 e
        | l + 1 =>
          if bitAt e 1 then (if bitAt e 4 then .error (fltMalformed, l + 1) else s.walk va l (pteAddr e))
          else if l = 0 then s.leafAt table va 1 e
          else .error (fltMalformed, l + 1)

/-- The page of an entry covers an address. -/
def covers (asid va : Nat) (q : Nat × Nat × Nat × Nat) : Bool := q.1 == asid && va / 2 ^ q.2.2.1 == q.2.1 * 4096 / 2 ^ q.2.2.1

/-- The leaf for an address: from the micro-TLB, the TLB, or a walk from the root of the ASID (R362 to R364). -/
def State.leafFor (s : State) (eng : Option Nat) (asid va : Nat) : Except (Nat × Nat) (Nat × Nat) :=
  let u := match eng with | some i => (s.engine i).utlb | none => []
  match u.find? (covers asid va), s.mmu.tlb.find? (covers asid va) with
  | some q, _ => .ok (q.2.2.1, q.2.2.2)
  | none, some q => .ok (q.2.2.1, q.2.2.2)
  | none, none =>
    if s.on (MMU.CTX_LO_VALID asid) then
      s.walk va 3 (s.get (MMU.CTX_LO_ROOT asid) * 4096 + s.get (MMU.CTX_HI_ROOT asid) * 2 ^ 32)
    else .error (fltNoContext, 3)

/-- A list of cached entries with one more in front; a full one gives up an entry, which one being open. -/
def State.cacheIn (s : State) (cap : Nat) (l : List (Nat × Nat × Nat × Nat)) (e : Nat × Nat × Nat × Nat) :
    List (Nat × Nat × Nat × Nat) × State :=
  if l.contains e then (l, s)
  else if l.length < cap then (e :: l, s)
  else (e :: l.eraseIdx (s.draw.1 % l.length), s.draw.2)

/-- A translation that succeeded is cached (R364). -/
def State.cache (s : State) (eng : Option Nat) (e : Nat × Nat × Nat × Nat) : State :=
  let (l, s) := s.cacheIn 2048 s.mmu.tlb e
  let s := { s with mmu := { s.mmu with tlb := l } }
  match eng with
  | some i => let (l, s) := s.cacheIn 16 (s.engine i).utlb e
              s.setEngine i { s.engine i with utlb := l }
  | none => s

/-! ### Protection (R358, R359, R366) -/

/-- The protection map lets class c at a physical address, or the kind it is refused with. -/
def State.refusedBy (s : State) (c pa : Nat) (write : Bool) : Option Nat :=
  match s.aperture pa with
  | none => some fltNoAperture
  | some a =>
    if s.bitOn (MMU.PMAP c) (2 * a + (if write then 1 else 0)) = false then some fltDenied
    else if a = 8 ∧ s.get MMU.HWIN_SIZE_GIB ≤ pa % 0x400000000000 / 2 ^ 30 then some fltNoAperture
    else none

/-- A denial is counted and reported with the requester class in DETAIL (R359, R438). -/
def State.deny (s : State) (c pa : Nat) : State :=
  (s.bump MMU.DENY_COUNT_COUNT).reportAs 0x180 0x18 3 none c pa false

/-- The access after translation: checked against the map, a denial counted and reported. -/
def State.protect (s : State) (c pa : Nat) (write ns : Bool) : State × XRes :=
  match s.refusedBy c pa write with
  | none => (s, .ok pa ns)
  | some k => (if k = fltDenied then s.deny c pa else s, .fail k 0)

/-- Translate an access of class c in an address space (R362 to R367). -/
def State.translate (s : State) (c : Nat) (eng : Option Nat) (asid va : Nat) (write : Bool) : State × XRes :=
  match s.leafFor eng asid va with
  | .error (k, l) => (s, .fail k l)
  | .ok (n, e) =>
    let level := if n = 21 then 1 else 0
    if write = false ∧ bitAt e 2 = false then (s, .fail fltReadDenied level)
    else if write = true ∧ bitAt e 3 = false then (s, .fail fltWriteDenied level)
    else
      let s := s.cache eng (asid, va / 2 ^ n * 2 ^ n / 4096, n, e)
      s.protect c (pteAddr e / 2 ^ n * 2 ^ n + va % 2 ^ n) write (bitAt e 5)

/-- Host bus address of a host-window address (R366). -/
def State.hostAddr (s : State) (pa : Nat) : Nat := s.get MMU.HWIN_BASE_LO_ADDR * 4096 + s.get MMU.HWIN_BASE_HI_ADDR * 2 ^ 32 + pa % 0x400000000000

/-- Read bytes at a physical address, in DRAM or through the host window: bytes and poison. -/
def State.readPhys (s : State) (pa n : Nat) : State × List Byte × Bool :=
  if s.aperture pa = some 8 then (s, s.hostBytes (s.hostAddr pa) n, false) else s.readMem pa n
/-- Write bytes at a physical address; whether they landed. -/
def State.writePhys (s : State) (pa : Nat) (l : List Byte) : State × Bool :=
  if s.aperture pa = some 8 then (s.storeHost (s.hostAddr pa) l, true) else s.writeMem pa l

/-! ### Faults (R367 to R369) -/

/-- A resolvable fault is queued as a record, or waits outside a full queue; ICU source 4 is raised (R368). -/
def State.queueFault (s : State) (who : Waiter) (asid va : Nat) (write : Bool) (kind level : Nat) : State :=
  let r : FltRec := { id := s.mmu.nextId % 256, who, asid, va, write, kind, level, tick := s.ticks }
  let s := { s with mmu := { s.mmu with outside := s.mmu.outside ++ [r], nextId := (s.mmu.nextId + 1) % 256 } }
  s.refillFaults

end Sys2Proof.Machine
end

