-- ==== Sys2Proof/Machine/Dma.lean ====
section
/-! DEFINITION. The DMA channels: transfer slips, bursts, request lines and channel control (R372 to R380). -/
namespace Sys2Proof.Machine

/-! ### Channels (R378) -/

def dmaState (ch : Nat) : Fld := ⟨DMA.STAT ch, 0, 3⟩
def dmaIdle : Nat := 0
def dmaRunning : Nat := 1
def dmaWaiting : Nat := 2
def dmaFaulted : Nat := 3
def dmaPaused : Nat := 4
def dmaError : Nat := 5

/-- DMA_STAT and DMA_ERR follow a channel's state; entering ERROR raises the channel's ICU source (R378, R382, R418). -/
def State.setDmaState (s : State) (ch v : Nat) : State :=
  let s := s.put (dmaState ch) v
  let s := if v = dmaIdle ∨ v = dmaError then s.put (DMA.STAT_PAUSING ch) 0 else s
  let s := s.put ⟨DMA.DMA_STAT, ch, 1⟩ (if v = dmaIdle ∨ v = dmaError then 0 else 1)
  let s := s.put ⟨DMA.DMA_ERR, ch, 1⟩ (if v = dmaError then 1 else 0)
  if v = dmaError then s.raise (93 + ch) else s

/-- The channel is neither IDLE nor ERROR. -/
def State.dmaActive (s : State) (ch : Nat) : Bool := s.get (dmaState ch) != dmaIdle && s.get (dmaState ch) != dmaError

/-- 48-bit addresses and the FILL pattern in a LO and HI register. -/
def State.dmaSrc (s : State) (ch : Nat) : Nat := s.pair (DMA.SRC_LO ch) (DMA.SRC_HI ch)
def State.dmaDst (s : State) (ch : Nat) : Nat := s.pair (DMA.DST_LO ch) (DMA.DST_HI ch)
def State.dmaCur (s : State) (ch : Nat) : Nat := s.pair (DMA.CUR_LO ch) (DMA.CUR_HI ch)

/-! ### Transfer slips (R373, R374) -/

def DmaCh.word (c : DmaCh) (i : Nat) : Nat := c.slip.getD i 0
def DmaCh.op (c : DmaCh) : Nat := c.word 0 % 16
def DmaCh.flag (c : DmaCh) (i : Nat) : Bool := bitAt (c.word 0) (8 + i)
def DmaCh.irq (c : DmaCh) : Bool := c.flag 0
def DmaCh.isLast (c : DmaCh) : Bool := c.flag 1
def DmaCh.paced (c : DmaCh) : Bool := c.flag 2
def DmaCh.line (c : DmaCh) : Nat := bits (c.word 0) 16 6
def DmaCh.next (c : DmaCh) : Nat := c.word 8 + bits (c.word 9) 0 16 * 2 ^ 32

/-- The slip keeps the table of R373. -/
def DmaCh.slipOk (c : DmaCh) : Bool :=
  let w := c.word
  decide (c.op ≤ 3) && bits (w 0) 4 4 == 0 && bits (w 0) 13 3 == 0 && bits (w 0) 22 10 == 0 && (c.op == 3 || !c.flag 4) &&
  (c.paced || c.line == 0) && (if c.op = 3 then w 1 == 0 else w 1 != 0) &&
  (!(c.op == 0 || c.op == 2) || bits (w 3) 16 16 == 0) && bits (w 5) 16 16 == 0 && bits (w 9) 16 16 == 0 &&
  (if c.paced then decide (32 ≤ w 6 ∧ w 6 ≤ 1048576 ∧ w 6 % 32 = 0) else w 6 == 0) &&
  w 7 == 0 && w 13 == 0 && w 14 == 0 && w 15 == 0

/-- Another channel that is neither IDLE nor ERROR owns the line (R377). -/
def State.lineOwned (s : State) (ch line : Nat) : Bool :=
  (List.range 32).any fun k => k != ch && s.dmaActive k && (s.dmaCh k).paced && (s.dmaCh k).line == line

/-- A line has a request: its counter is not 0, or it is asserted (R376, R377). -/
def isLevelLine (l : Nat) : Bool := decide (16 ≤ l ∧ l ≤ 33)
def State.requested (s : State) (l : Nat) : Bool :=
  if isLevelLine l then s.levels.contains l else s.get (DMA.REQ_COUNT_COUNT l) != 0
/-- One request for a count line (R376). -/
def State.request (s : State) (l : Nat) : State := if isLevelLine l then s else s.bump (DMA.REQ_COUNT_COUNT l)
/-- A level line is asserted or not (R376). -/
def State.setLevel (s : State) (l : Nat) (v : Bool) : State :=
  { s with levels := if v then (if s.levels.contains l then s.levels else l :: s.levels) else s.levels.filter (· != l) }

/-- Bytes of the slip done so far. -/
def State.bytesDone (s : State) (ch : Nat) : Nat := (s.dmaCh ch).word 1 - s.get (DMA.REMAIN_COUNT ch)

/-- The slip's results are written back: words 11 and 12, then word 10 (R374). Whether that succeeded. -/
def State.writeBack (s : State) (ch status : Nat) : State × Bool :=
  let c := s.dmaCh ch
  let (s, x) := s.translate 4 none (s.get (DMA.CFG_ASID ch)) (s.dmaCur ch) true
  match x with
  | .ok pa _ =>
    let mis := match c.mismatch with | some o => o | none => 0xFFFFFFFF
    let (s, a) := s.writePhys (pa + 44) (leBytes 4 (s.bytesDone ch) ++ leBytes 4 mis)
    let (s, b) := s.writePhys (pa + 40) (leBytes 4 (2 ^ 31 + status))
    (s, a && b)
  | .fail _ _ => (s, false)

/-- A physical address through the host window, to which requests wait while the function may not master the bus (R366). -/
def State.hostShut (s : State) (pa : Nat) : Bool := s.aperture pa == some 8 && !s.hostFn.open

/-- The channel takes up the slip at CUR (R373): it is read and checked; a slip that cannot be read leaves the channel in ERROR
with no write-back; one behind a host window that is shut is read later. `endBad` ends one that breaks the table or names a line in use. -/
def State.readSlip (s : State) (ch : Nat) (endBad : State → Nat → State) : State :=
  let (s, x) := s.translate 4 none (s.get (DMA.CFG_ASID ch)) (s.dmaCur ch) false
  match x with
  | .fail _ _ => s.setDmaState ch dmaError
  | .ok pa _ =>
    if s.hostShut pa then ((s.setDmaCh ch { s.dmaCh ch with slip := [], mismatch := none, burst := 0 }).put (DMA.REMAIN_COUNT ch) 0).setDmaState ch dmaRunning
    else
    let (s, l, poison) := s.readPhys pa 64
    if poison then s.setDmaState ch dmaError
    else
      let w := (List.range 16).map fun i => leAt l (4 * i) 4
      let c : DmaCh := { s.dmaCh ch with slip := w, mismatch := none, burst := 0, held := false }
      let s := s.setDmaCh ch c
      let s := s.putPair (DMA.SRC_LO ch) (DMA.SRC_HI ch) (if c.op = 1 then c.word 2 + c.word 3 * 2 ^ 32 else c.word 2 + bits (c.word 3) 0 16 * 2 ^ 32)
      let s := s.putPair (DMA.DST_LO ch) (DMA.DST_HI ch) (c.word 4 + bits (c.word 5) 0 16 * 2 ^ 32)
      let s := (s.put (DMA.REMAIN_COUNT ch) (c.word 1)).setDmaState ch dmaRunning
      if c.slipOk = false then endBad s 0x07
      else if c.paced && s.lineOwned ch c.line then endBad s 0x08
      else if c.paced && !s.requested c.line then s.setDmaState ch dmaWaiting else s

/-- A slip ends in error: written back, the channel in ERROR (R374). -/
def State.endInError (s : State) (ch status : Nat) : State :=
  let (s, _) := s.writeBack ch status
  let s := (s.put ⟨DMA.STAT ch, 24, 8⟩ status).bump (DMA.SLIPS_COUNT ch)
  s.setDmaState ch dmaError

/-- A slip ends (R374, R379): written back; OK and MISMATCH go on to the next slip, to IDLE after LAST or under STOP; STOPPED goes to
IDLE with CUR at that slip; every other status leaves the channel in ERROR. -/
def State.endSlip (s : State) (ch status : Nat) : State :=
  if 3 ≤ status then s.endInError ch status
  else
    let c := s.dmaCh ch
    let (s, ok) := s.writeBack ch status
    if ok = false then s.setDmaState ch dmaError
    else
      let s := ((s.put ⟨DMA.STAT ch, 24, 8⟩ status).put (DMA.STAT_PAUSING ch) 0).bump (DMA.SLIPS_COUNT ch)
      let s := if c.irq then s.raise (93 + ch) else s
      if status = 2 then
        ((s.put (DMA.STAT_STOPPED ch) 1).setDmaCh ch { s.dmaCh ch with stop := false }).setDmaState ch dmaIdle
      else
        let s := if c.isLast then s.put (DMA.STAT_DONE ch) 1 else s.putPair (DMA.CUR_LO ch) (DMA.CUR_HI ch) (c.next / 64 * 64)
        if c.stop then
          ((s.put (DMA.STAT_STOPPED ch) 1).setDmaCh ch { s.dmaCh ch with stop := false }).setDmaState ch dmaIdle
        else if c.isLast then s.setDmaState ch dmaIdle
        else s.readSlip ch fun s st => s.endInError ch st

/-- A burst meets a fault (R369, R380): a resolvable one leaves the channel FAULTED with exact registers, any other ends the slip
with DENIED. -/
def State.dmaFault (s : State) (ch va : Nat) (write : Bool) (kind level : Nat) : State :=
  if resolvable kind then (s.setDmaState ch dmaFaulted).queueFault (.dma ch) (s.get (DMA.CFG_ASID ch)) va write kind level
  else s.endSlip ch 0x04

/-- Move n bytes of a channel's slip done: registers advance (R380). -/
def State.advance (s : State) (ch n : Nat) : State :=
  let s := if (s.dmaCh ch).op = 1 then s else s.putPair (DMA.SRC_LO ch) (DMA.SRC_HI ch) (s.dmaSrc ch + n)
  let s := s.putPair (DMA.DST_LO ch) (DMA.DST_HI ch) (s.dmaDst ch + n)
  s.put (DMA.REMAIN_COUNT ch) (s.get (DMA.REMAIN_COUNT ch) - n)

/-- Bytes from an address to the end of its 4 KiB page. -/
def toPageEnd (va : Nat) : Nat := 4096 - va % 4096

/-- First index at which two byte lists differ. -/
def firstDiff (a b : List Byte) : Option Nat := (List.range (min a.length b.length)).find? fun i => a.getD i 0 != b.getD i 0

/-- The burst waits for the host window. -/
def State.holdBurst (s : State) (ch : Nat) : State := s.setDmaCh ch { s.dmaCh ch with held := true }
/-- A write through the host window is the last one of its channel (R375). -/
def State.noteLast (s : State) (ch pa k : Nat) : State :=
  if s.aperture pa = some 8 then s.setDmaCh ch { s.dmaCh ch with last := s.hostAddr pa + k - 1 } else s

/-- One piece of a burst within a page of each side (R375): the bytes it may still move, and whether the burst goes on. -/
def State.movePiece (s : State) (ch n : Nat) : State × Option Nat :=
  let c := s.dmaCh ch
  let asid := s.get (DMA.CFG_ASID ch)
  let src := s.dmaSrc ch
  let dst := s.dmaDst ch
  let k := if c.op = 1 then min n (toPageEnd dst) else min n (min (toPageEnd src) (toPageEnd dst))
  if c.op = 1 then
    let (s, x) := s.translate 4 none asid dst true
    match x with
    | .fail kd l => (s.dmaFault ch dst true kd l, none)
    | .ok pa _ =>
      if s.hostShut pa then (s.holdBurst ch, none)
      else
      let o := s.bytesDone ch
      let pat := leBytes 8 src
      let (s, ok) := s.writePhys pa ((List.range k).map fun i => pat.getD ((o + i) % 8) 0)
      let s := s.noteLast ch pa k
      if ok then (s.advance ch k, some (n - k)) else (s.endSlip ch 0x06, none)
  else
    let (s, x) := s.translate 4 none asid src false
    match x with
    | .fail kd l => (s.dmaFault ch src false kd l, none)
    | .ok pa _ =>
      let (s, y) := s.translate 4 none asid dst (c.op == 0)
      match y with
      | .fail kd l => (s.dmaFault ch dst (c.op == 0) kd l, none)
      | .ok pb _ =>
        if s.hostShut pa ∨ s.hostShut pb then (s.holdBurst ch, none)
        else
        let (s, l, poison) := s.readPhys pa k
        if poison then (s.endSlip ch 0x05, none)
        else if c.op = 0 then
          let (s, ok) := s.writePhys pb l
          let s := s.noteLast ch pb k
          if ok then (s.advance ch k, some (n - k)) else (s.endSlip ch 0x06, none)
        else
          let (s, l2, poison2) := s.readPhys pb k
          if poison2 then (s.endSlip ch 0x05, none)
          else match firstDiff l l2 with
            | some i => (s.setDmaCh ch { s.dmaCh ch with mismatch := some (s.bytesDone ch + i) } |>.advance ch i, none)
            | none => (s.advance ch k, some (n - k))

/-- A burst of n bytes, piece by piece in ascending order; what a fault or a shut host window leaves of it is done later. -/
def State.moveBurst (s : State) (ch : Nat) : Nat → Nat → State
  | 0, _ => s
  | f + 1, n =>
    if n = 0 then s
    else match s.movePiece ch n with
      | (s, some m) => State.moveBurst (s.setDmaCh ch { s.dmaCh ch with burst := m, held := false }) ch f m
      | (s, none) => s

/-- The channel moves data: its slip has bytes left, and nothing stops it. -/
def State.dmaMoves (s : State) (ch : Nat) : Bool :=
  let c := s.dmaCh ch
  (s.get (dmaState ch) == dmaRunning || s.get (dmaState ch) == dmaWaiting) && !s.on (DMA.STAT_PAUSING ch) && s.get (DMA.REMAIN_COUNT ch) != 0 &&
  c.mismatch.isNone && c.op != 3
/-- It wants a burst, and has the request for it where it is paced (R377). -/
def State.dmaWants (s : State) (ch : Nat) : Bool :=
  let c := s.dmaCh ch
  s.dmaMoves ch && (!c.paced || c.burst != 0 || s.requested c.line) && (!c.held || s.hostFn.open)
/-- The channel is served next: none of higher priority wants a burst, and none of its own that has waited longer (R372). -/
def State.dmaTurn (s : State) (ch : Nat) : Bool :=
  let prio : Nat → Nat := fun k => s.get (DMA.CFG_PRIORITY k)
  (List.range 32).all fun k => k == ch || !s.dmaWants k || decide (prio k < prio ch) ||
    (prio k == prio ch && (decide ((s.dmaCh ch).served < (s.dmaCh k).served) || ((s.dmaCh ch).served == (s.dmaCh k).served && decide (ch < k))))
/-- A burst of a channel starts, or one that has started goes on: a new one takes its request from a count line (R377). -/
def State.startBurst (s : State) (ch : Nat) : State :=
  let c := s.dmaCh ch
  let n := if c.burst ≠ 0 then c.burst else min (if c.paced then c.word 6 else 4096) (s.get (DMA.REMAIN_COUNT ch))
  let turn := ((List.range 32).foldl (fun m k => max m (s.dmaCh k).served) 0) + 1
  let s := if c.burst = 0 ∧ c.paced ∧ isLevelLine c.line = false then
    s.put (DMA.REQ_COUNT_COUNT c.line) (s.get (DMA.REQ_COUNT_COUNT c.line) - 1) else s
  ((s.setDmaCh ch { c with burst := n, held := false, served := turn }).setDmaState ch dmaRunning).moveBurst ch n n

/-- DMA_BURST (R372, R375 to R377): the channel that is served next moves BURST bytes for a request, or 4 KiB where it is not paced. A channel
without a request is WAITING. A slip that could not be read behind the host window is read first (R366). -/
def execDmaBurst (ch : Nat) (s : State) : Host.Outcome State Fault Refusal :=
  let c := s.dmaCh ch
  if s.get (dmaState ch) = dmaRunning ∧ s.on (DMA.STAT_PAUSING ch) = false ∧ c.slip = [] then .next (s.readSlip ch fun s st => s.endInError ch st)
  else if s.dmaMoves ch = false then .next s
  else if c.paced ∧ c.burst = 0 ∧ s.requested c.line = false then .next (s.setDmaState ch dmaWaiting)
  else if s.dmaWants ch = false ∨ s.dmaTurn ch = false then .next s
  else .next (s.startBurst ch)

/-- A slip may end: the channel runs it, is not pausing, and can write its results back now (R366, R374, R379). -/
def State.mayEnd (s : State) (ch : Nat) : Bool :=
  (s.get (dmaState ch) == dmaRunning || s.get (dmaState ch) == dmaWaiting) && !s.on (DMA.STAT_PAUSING ch) && !(s.dmaCh ch).slip.isEmpty &&
  (match (s.translate 4 none (s.get (DMA.CFG_ASID ch)) (s.dmaCur ch) true).2 with
   | .ok pa _ => !s.hostShut pa
   | .fail _ _ => true)

/-- DMA_SLIP_COMPLETE (R374): a slip whose bytes are all done, or whose COMPARE has found a difference, completes. -/
def execDmaSlipComplete (ch : Nat) (s : State) : Host.Outcome State Fault Refusal :=
  let c := s.dmaCh ch
  if s.mayEnd ch = true ∧ c.op ≠ 3 ∧ (s.get (DMA.REMAIN_COUNT ch) = 0 ∨ c.mismatch.isSome) then
    .next (s.endSlip ch (if c.mismatch.isSome then 1 else 0))
  else .next s

/-- A barrier reads the last host address that each channel concerned has written: it waits where that cannot be read (R366, R375). -/
def State.barrierReads (s : State) (ch : Nat) : Bool :=
  s.hostFn.open || ((if (s.dmaCh ch).flag 4 then List.range 32 else [ch]).all fun k => (s.dmaCh k).last == 0)

/-- BARRIER_COMPLETE (R375): the writes that a BARRIER waits for are visible. -/
def execBarrierComplete (ch : Nat) (s : State) : Host.Outcome State Fault Refusal :=
  if s.mayEnd ch = true ∧ (s.dmaCh ch).op = 3 ∧ s.barrierReads ch = true then .next (s.endSlip ch 0) else .next s

/-- A request given to a software line by a write of REQ_SW; other lines are ignored (R376, R382). -/
def execReqSw (line : Nat) (s : State) : Host.Outcome State Fault Refusal :=
  .next (if 42 ≤ line ∧ line ≤ 63 then s.request line else s)

/-! ### Channel control (R379) -/

/-- START from IDLE or ERROR: CUR := HEAD, and the slip there is read. A DMA in its fault state takes no new list (R440). -/
def State.dmaStart (s : State) (ch : Nat) : State :=
  if s.dmaActive ch || s.faulty 0x170 then s
  else
    let s := s.setDmaCh ch { DmaCh.init with last := (s.dmaCh ch).last, served := (s.dmaCh ch).served }
    let s := (s.wr (DMA.CUR_LO ch) (s.rd (DMA.HEAD_LO ch))).wr (DMA.CUR_HI ch) (s.rd (DMA.HEAD_HI ch))
    s.readSlip ch fun s st => s.endInError ch st

/-- STOP: after the slip in progress, or at once in PAUSED and while pausing, a record that still waits being gone with the slip. -/
def State.dmaStop (s : State) (ch : Nat) : State :=
  let st := s.get (dmaState ch)
  if st = dmaPaused ∨ s.on (DMA.STAT_PAUSING ch) then (s.dropFaults (.dma ch)).endSlip ch 2
  else if st = dmaRunning ∨ st = dmaWaiting ∨ st = dmaFaulted then s.setDmaCh ch { s.dmaCh ch with stop := true }
  else s

/-- PAUSE: new reads stop, and PAUSING stands until data already read is written; a FAULTED channel is PAUSED at once. -/
def State.dmaPause (s : State) (ch : Nat) : State :=
  let st := s.get (dmaState ch)
  if st = dmaRunning ∨ st = dmaWaiting then s.put (DMA.STAT_PAUSING ch) 1
  else if st = dmaFaulted then s.setDmaState ch dmaPaused
  else s

/-- RESUME from PAUSED: RUNNING from the registers, or FAULTED while its record is still queued. -/
def State.dmaResume (s : State) (ch : Nat) : State :=
  if s.get (dmaState ch) = dmaPaused then
    s.setDmaState ch (if (s.mmu.queue ++ s.mmu.outside).any (·.who == .dma ch) then dmaFaulted else dmaRunning)
  else s

def execStart (ch : Nat) (s : State) : Host.Outcome State Fault Refusal := .next (s.dmaStart ch)
def execStop (ch : Nat) (s : State) : Host.Outcome State Fault Refusal := .next (s.dmaStop ch)
def execPause (ch : Nat) (s : State) : Host.Outcome State Fault Refusal := .next (s.dmaPause ch)
def execDmaResume (ch : Nat) (s : State) : Host.Outcome State Fault Refusal := .next (s.dmaResume ch)
/-- Data already read has been written, and a pausing channel enters PAUSED (R379). -/
def execDmaPaused (ch : Nat) (s : State) : Host.Outcome State Fault Refusal :=
  .next (if s.on (DMA.STAT_PAUSING ch) then (s.put (DMA.STAT_PAUSING ch) 0).setDmaState ch dmaPaused else s)

end Sys2Proof.Machine
end

