-- ==== Sys2Proof/Machine/Lending.lean ====
section
/-! DEFINITION. The Lending desk: folio pools, lending, sharing and return (R397 to R404). -/
namespace Sys2Proof.Machine

/-! ### Pools (R397 to R400) -/

def State.poolSize (s : State) (p : Nat) : Nat := 2 ^ s.get (LND.POOL_CFG_SIZE_LOG2 p)
def State.poolCount (s : State) (p : Nat) : Nat := bits (s.rd (LND.POOL_COUNT p)).toNat 0 27
def State.poolBase (s : State) (p : Nat) : Nat := s.pair (LND.POOL_BASE_LO p) (LND.POOL_BASE_HI p)
def State.poolRing (s : State) (p : Nat) : Nat := s.pair (LND.POOL_RING_LO p) (LND.POOL_RING_HI p)
def State.poolFree (s : State) (p : Nat) : Nat := s.get (LND.POOL_FREE_COUNT p)
def State.poolEnabled (s : State) (p : Nat) : Bool := s.on (LND.POOL_STAT_ENABLED p)
/-- The handle of a folio (R398). -/
def handleOf (p i : Nat) : Nat := 2 ^ 31 + p % 16 * 2 ^ 27 + i % 2 ^ 27
def handlePool (h : Nat) : Nat := bits h 27 4
def handleIndex (h : Nat) : Nat := bits h 0 27
/-- Physical address of a folio (R397). -/
def State.folioAddr (s : State) (h : Nat) : Nat := s.poolBase (handlePool h) + handleIndex h * s.poolSize (handlePool h)

/-- CACHED and FREE follow the free store; LOW falls with FREE, and reaching it raises ICU source 18 (R406, R418). -/
def State.showPool (s : State) (p : Nat) : State :=
  let q := s.pool p
  let free := q.cache.length + q.ringFill
  let s := (s.put (LND.POOL_STAT_CACHED p) q.cache.length).put (LND.POOL_FREE_COUNT p) free
  s
def State.noteLow (s : State) (p : Nat) : State :=
  let s := s.showPool p
  if s.poolFree p ≤ s.get (LND.POOL_LOW_COUNT p) then (s.put (LND.POOL_LOW_COUNT p) (s.poolFree p)).raise 18 else s

/-- Address of a slot of a pool's ring. -/
def State.ringSlot (s : State) (p i : Nat) : Nat := s.poolRing p + 4 * (i % max 1 (s.poolCount p))

/-- Eight handles from the ring's head to the cache, or from the cache to the ring's tail; which of those cached is open (R399). -/
def State.refill (s : State) (p : Nat) : State :=
  let q := s.pool p
  if q.cache.length < 8 ∧ q.ringFill ≠ 0 then
    let n := min 8 q.ringFill
    let got := (List.range n).map fun i => leNum (s.dramBytes (s.ringSlot p (q.ringHead + i)) 4)
    (s.setPool p { q with cache := q.cache ++ got, ringHead := (q.ringHead + n) % max 1 (s.poolCount p), ringFill := q.ringFill - n }).showPool p
  else if 24 < q.cache.length then
    let k := s.draw.1 % q.cache.length
    let s := s.draw.2
    let rot := q.cache.drop k ++ q.cache.take k
    let s := s.storeBlock (s.ringSlot p (q.ringHead + q.ringFill) / 32) ((rot.take 8).flatMap (leBytes 4))
    (s.setPool p { q with cache := rot.drop 8, ringFill := q.ringFill + 8 }).showPool p
  else s

/-- FREE_CACHE_REFILL (R399). -/
def execFreeCacheRefill (p : Nat) (s : State) : Host.Outcome State Fault Refusal := .next (s.refill p)

/-- A pool's configuration keeps R397 and R399. -/
def State.poolOk (s : State) (p : Nat) : Bool :=
  let sz := s.poolSize p
  let n := s.poolCount p
  let inDram (a len : Nat) : Bool := s.aperture a == some 0 && s.aperture (a + len - 1) == some 0
  decide (12 ≤ s.get (LND.POOL_CFG_SIZE_LOG2 p) ∧ s.get (LND.POOL_CFG_SIZE_LOG2 p) ≤ 24 ∧ n % 8 = 0 ∧ 8 ≤ n ∧ n ≤ 134217720) &&
  s.poolBase p % min sz (2 ^ 21) == 0 && s.poolRing p % 32 == 0 && inDram (s.poolBase p) (n * sz) && inDram (s.poolRing p) (4 * n)

/-- POOLp_CTL.INIT (R400): ignored for a pool that is enabled or being written; refused where the check fails. -/
def execInit (p : Nat) (s : State) : Host.Outcome State Fault Refusal :=
  if s.poolEnabled p ∨ s.on (LND.POOL_STAT_INIT_BUSY p) then .next s
  else if s.poolOk p then .next (s.put (LND.POOL_STAT_INIT_BUSY p) 1)
  else .next (s.put (LND.POOL_STAT_INIT_REFUSED p) 1)

/-- The ring has been written with every handle in index order, FREE is COUNT, and the pool lends (R400). -/
def execPoolInitDone (p : Nat) (s : State) : Host.Outcome State Fault Refusal :=
  if s.on (LND.POOL_STAT_INIT_BUSY p) then
    let n := s.poolCount p
    let s := (List.range (n / 8)).foldl (fun s b =>
      s.storeBlock ((s.poolRing p) / 32 + b) ((List.range 8).flatMap fun i => leBytes 4 (handleOf p (8 * b + i)))) s
    let s := s.setPool p { Pool.init with ringFill := n }
    let s := (s.put (LND.POOL_STAT_INIT_BUSY p) 0).put (LND.POOL_STAT_ENABLED p) 1
    .next ((s.put ⟨LND.LND_STAT, p, 1⟩ 1).showPool p)
  else .next s

/-- POOLp_CTL.DISABLE, ignored unless every folio is free (R400). -/
def execDisable (p : Nat) (s : State) : Host.Outcome State Fault Refusal :=
  if s.poolEnabled p ∧ s.poolFree p = s.poolCount p then
    let s := (s.setPool p Pool.init).put (LND.POOL_STAT_ENABLED p) 0
    .next ((s.put ⟨LND.LND_STAT, p, 1⟩ 0).showPool p)
  else .next s

/-! ### Lending and return (R401 to R403) -/

def State.lent (s : State) (h : Nat) : Lent := Tab.get (fun _ => Lent.none) (s.pool (handlePool h)).lent (handleIndex h)
def State.setLent (s : State) (h : Nat) (v : Lent) : State :=
  let q := s.pool (handlePool h)
  s.setPool (handlePool h) { q with lent := Tab.set (fun _ => Lent.none) q.lent (handleIndex h) v }
/-- The ID under which a unit borrows: curator firmware is 0x0C0, whichever core runs it (R402). -/
def borrower (u : Nat) : Nat := if 0xC0 ≤ u ∧ u ≤ 0xC9 then 0xC0 else u
/-- The folio is lent: neither free nor orphaned. -/
def State.isLent (s : State) (h : Nat) : Bool := bitAt h 31 && (s.lent h).count != 0

/-- The first pool of a fallback chain with a free folio (R401). -/
def State.lender (s : State) : Nat → Nat → Option Nat
  | 0, _ => none
  | f + 1, p =>
    if s.poolEnabled p ∧ s.poolFree p ≠ 0 then some p
    else if s.get (LND.POOL_CFG_FALLBACK p) = 0xF then none
    else State.lender s f (s.get (LND.POOL_CFG_FALLBACK p))

/-- A folio lent to a unit from a pool or its fallbacks (R401, R402): its handle, or none. A desk in its fault
state lends nothing (R440). Which free folio is lent is open (R399). -/
def State.allocate (s : State) (p u : Nat) : State × Option Nat :=
  if s.faulty 0x160 then (s, none)
  else
  match s.lender 16 p with
  | none => (s.bump (LND.POOL_EMPTY_COUNT p), none)
  | some k =>
    let s := if (s.pool k).cache.isEmpty then s.refill k else s
    let (h, s) := s.pick (s.pool k).cache
    match h with
    | none => (s.bump (LND.POOL_EMPTY_COUNT p), none)
    | some h =>
      let q := s.pool k
      let s := (s.setPool k { q with cache := q.cache.erase h }).setLent h { count := 1, owner := borrower u }
      let s := if k = p then s else s.bump (LND.POOL_FALLBACKS_COUNT p)
      (s.noteLow k, some h)

/-- FOLIO_ALLOCATE (R401). The answer is the handle, or empty for NO_FOLIO. -/
def execFolioAllocate (p u : Nat) (s : State) : Host.Outcome State Fault Refusal :=
  let (s, h) := s.allocate p u
  .next (s.reply h.toList)

/-- A folio goes back to its pool. -/
def State.giveBack (s : State) (h : Nat) : State :=
  let p := handlePool h
  let s := if 32 ≤ (s.pool p).cache.length then s.refill p else s
  let q := s.pool p
  (s.setPool p { q with cache := q.cache ++ [h], lent := Tab.set (fun _ => Lent.none) q.lent (handleIndex h) Lent.none }).showPool p

/-- ORPHANS and ORPHAN_HEAD follow the orphan list (R402, R406). -/
def State.showOrphans (s : State) : State :=
  (s.put LND.LND_STAT_ORPHANS (min s.orphans.length 65535)).wr LND.ORPHAN_HEAD (BitVec.ofNat 32 (s.orphans.headD 0))

/-- SHARE (R402): by the last owner of a folio of count 1, for 2 to 255 shares; refused and counted otherwise. -/
def State.share (s : State) (h u n owner : Nat) : State × Bool :=
  let l := s.lent h
  if s.isLent h ∧ l.count = 1 ∧ l.owner = borrower u ∧ 2 ≤ n ∧ n ≤ 255 then (s.setLent h { count := n, owner := borrower owner }, true)
  else (s.bump LND.LND_ERR_BAD_SHARE, false)

/-- RELEASE (R402): whether it was accepted. -/
def State.release (s : State) (h u : Nat) : State × Bool :=
  let l := s.lent h
  if s.isLent h = false then
    ((s.bump LND.LND_ERR_DOUBLE_RELEASE).report 0x160 0x29 none (s.folioAddr h), false)
  else if 1 < l.count then (s.setLent h { l with count := l.count - 1 }, true)
  else if l.owner = borrower u then (s.giveBack h, true)
  else
    let s := s.setLent h { l with count := 0 }
    let s := { s with orphans := s.orphans ++ [h] }.showOrphans
    ((s.raise 18).report 0x160 0x28 none (s.folioAddr h), true)

/-- SHARE. The answer is 1 where it is accepted. -/
def execShare (h u n owner : Nat) (s : State) : Host.Outcome State Fault Refusal :=
  let r := s.share h u n owner
  .next (r.1.reply [if r.2 then 1 else 0])
/-- RELEASE. The answer is 1 where it is accepted. -/
def execRelease (h u : Nat) (s : State) : Host.Outcome State Fault Refusal :=
  let r := s.release h u
  .next (r.1.reply [if r.2 then 1 else 0])

/-- ORPHAN_CTL.RECLAIM returns the oldest orphan to its pool (R402). -/
def execReclaim (s : State) : Host.Outcome State Fault Refusal :=
  match s.orphans with
  | h :: r => .next (({ s with orphans := r }.showOrphans).giveBack h)
  | [] => .next s

end Sys2Proof.Machine
end

