-- ==== Sys2Proof/Machine/Slips.lean ====
section
/-! DEFINITION. Ring pairs, doorbells, call slips as they are taken, return slips as they are written, MSI-X vectors, and the slips
that need no stream to be open (R190 to R212, R225). -/
namespace Sys2Proof.Machine

/-! ### Status values (R207) -/
def stSuccess : Nat := 0x0000
def stBadOpcode : Nat := 0x0002
def stBadField : Nat := 0x0003
def stBadStream : Nat := 0x0004
def stAddressFault : Nat := 0x000C
def stFlushed : Nat := 0x000D
def stUnmasked : Nat := 0x000E

/-! ### MSI-X (R210 to R212) -/

/-- The vector is pending. -/
def State.vecPending (s : State) (v : Nat) : Bool := s.bitOn (HIF.VEC_PEND 0) v
/-- The vector's message is sent: its data word written at its address. -/
def State.sendVec (s : State) (v : Nat) : State :=
  let a := s.get (HIF.MSIX_ADDR_LO_ADDR v) * 4 + s.get (HIF.MSIX_ADDR_HI_ADDR v) * 2 ^ 32
  let s := s.storeHost a (leBytes 4 (s.get (HIF.MSIX_DATA_DATA v)))
  { s with hostFn := { s.hostFn with messages := s.hostFn.messages + 1 } }

/-- A vector fires (R211, R212): the count and the timer are cleared, and the message is sent or kept pending. -/
def State.fireVec (s : State) (v : Nat) : State :=
  if s.hostFn.fnMask || s.on (HIF.MSIX_CTL_MASK v) || !s.hostFn.open then s.keepVec v else (s.setVec v Vec.init).sendVec v

/-- A return slip not marked NO_IRQ is counted (R211). -/
def State.countVec (s : State) (v : Nat) : State :=
  let x := s.vec v
  let s := s.setVec v { count := x.count + 1, timer := x.timer <|> some s.ticks }
  if s.get (HIF.MSIX_MOD_COUNT v) ≤ x.count + 1 ∨ s.get (HIF.MSIX_MOD_HOLD v) = 0 then s.fireVec v else s

/-- A vector's hold timer reaches HOLD (R211). -/
def execMsixHoldTimer (v : Nat) (s : State) : Host.Outcome State Fault Refusal :=
  .next (match (s.vec v).timer with
    | some t => if s.get (HIF.MSIX_MOD_HOLD v) ≤ s.usSince t then s.fireVec v else s
    | none => s)

/-- A pending vector that may be sent is sent (R211). -/
def State.sendPending (s : State) (v : Nat) : State :=
  if s.vecPending v && !s.hostFn.fnMask && !s.on (HIF.MSIX_CTL_MASK v) && s.hostFn.open then (s.setVecPending v false).sendVec v else s

/-- A vector, or the function where none is named, is unmasked (R211). -/
def execMsixUnmask (v : Option Nat) (s : State) : Host.Outcome State Fault Refusal :=
  match v with
  | some v => .next ((s.put (HIF.MSIX_CTL_MASK v) 0).sendPending v)
  | none =>
    let s := { s with hostFn := { s.hostFn with fnMask := false } }
    .next ((List.range 64).foldl (fun s v => s.sendPending v) s)

/-! ### Return rings (R193, R198, R199, R209) -/

def State.ringOn (s : State) (n : Nat) : Bool := s.on (HIF.RP_CFG_ENABLE n)
def State.sqSize (s : State) (n : Nat) : Nat := 2 ^ s.get (HIF.RP_CFG_SQ_LOG2 n)
def State.rqSize (s : State) (n : Nat) : Nat := 2 ^ s.get (HIF.RP_CFG_RQ_LOG2 n)
def State.rqBase (s : State) (n : Nat) : Nat := s.get (HIF.RP_RQ_BASE_LO_ADDR n) / 32 * 32 + s.get (HIF.RP_RQ_BASE_HI_ADDR n) * 2 ^ 32
def State.sqBase (s : State) (n : Nat) : Nat := s.get (HIF.RP_SQ_BASE_LO_ADDR n) / 64 * 64 + s.get (HIF.RP_SQ_BASE_HI_ADDR n) * 2 ^ 32
/-- Slots the device may write: all but one of those the host has consumed. -/
def State.rqFree (s : State) (n : Nat) : Nat :=
  let size := s.rqSize n
  size - 1 - (s.get (HIF.RP_RQ_STAT_RQ_TAIL n) + size - s.get (DBL.RQ_HEAD_INDEX n)) % size
/-- The device writes return slips (R212). -/
def State.mayWrite (s : State) (n : Nat) : Bool := s.ringOn n && s.hostFn.open

/-- The words of a return slip (R199). -/
def RetSlip.words (r : RetSlip) (head phase : Nat) : List Nat :=
  [r.tag % 65536 + r.status * 65536, r.stream.getD 0 % 256 + r.opcode % 256 * 256 + r.kind % 16 * 65536 + min r.extra 4095 * 2 ^ 20] ++
  (List.range 5).map (fun i => r.w.getD i 0 % 2 ^ 32) ++
  [(if r.tag = 0 ∧ r.kind ≠ 0 then 0 else head % 65536) + (if r.stream.isSome then 2 ^ 30 else 0) + phase % 2 * 2 ^ 31]

/-- Write one return slip at the tail: words 0 to 6 and then word 7; the tail moves on, the phase inverting at the wrap; the slip
counts for the ring's vector (R196, R198, R211). -/
def State.writeSlip (s : State) (n : Nat) (r : RetSlip) : State :=
  let tail := s.get (HIF.RP_RQ_STAT_RQ_TAIL n)
  let phase := s.get (HIF.RP_RQ_STAT_RQ_PHASE n)
  let w := r.words (s.get (HIF.RP_STAT_SQ_HEAD n)) phase
  let s := s.storeHost (s.rqBase n + 32 * tail) (w.flatMap (leBytes 4))
  let wrap := decide (tail + 1 = s.rqSize n)
  let s := (s.put (HIF.RP_RQ_STAT_RQ_TAIL n) (if wrap then 0 else tail + 1)).put (HIF.RP_RQ_STAT_RQ_PHASE n) (if wrap then 1 - phase else phase)
  if r.noIrq || r.counted then s else s.countVec (s.get (HIF.RP_CFG_VECTOR n))

/-! ### Taking call slips (R192 to R197) -/

/-- The words of the slot at the device's head. -/
def State.headSlot (s : State) (n : Nat) : List Nat :=
  let a := s.sqBase n + 64 * s.get (HIF.RP_STAT_SQ_HEAD n)
  (List.range 16).map fun i => s.hostWord (a + 4 * i)

/-- A completion waits for a free slot: no further slip is read (R209). -/
def State.stalled (s : State) (n : Nat) : Bool := !(s.ring n).compl.isEmpty && s.rqFree n == 0

/-- Take slips in ring order up to SQ_TAIL, as long as they are visible (R197 steps 1 and 2). -/
def State.takeSlips (s : State) (n : Nat) : Nat → State
  | 0 => s
  | f + 1 =>
    let head := s.get (HIF.RP_STAT_SQ_HEAD n)
    if s.ringOn n = false ∨ s.stalled n ∨ s.on (HIF.RP_STAT_NOT_VISIBLE n) ∨ head = s.get (DBL.SQ_TAIL_INDEX n) then s
    else
      let w := s.headSlot n
      let phase := s.get (HIF.RP_STAT_SQ_PHASE n)
      if w.getD 15 0 / 2 ^ 31 = phase then
        let r := s.ring n
        let s := s.setRing n { r with
          taken := r.taken ++ [{ id := r.count, words := w, started := false, staged := false, verdict := none }], count := r.count + 1, rereads := 0 }
        let wrap := decide (head + 1 = s.sqSize n)
        let s := (s.put (HIF.RP_STAT_SQ_HEAD n) (if wrap then 0 else head + 1)).put (HIF.RP_STAT_SQ_PHASE n) (if wrap then 1 - phase else phase)
        (s.showBusy n).takeSlips n f
      else s

/-- All that may be taken. -/
def State.takeAll (s : State) (n : Nat) : State := s.takeSlips n (s.sqSize n)

/-- A doorbell write is ignored and counted (R192, R225). -/
def State.doorbellOk (s : State) (n size idx : Nat) : Bool :=
  s.on HIF.HIF_STAT_READY && !s.on HIF.HIF_STAT_RECOVERY && s.ringOn n && decide (idx < size)

/-- SQ_TAIL (R192, R197): kept in Standby until the wake (R501). -/
def execSqTail (n idx : Nat) (s : State) : Host.Outcome State Fault Refusal :=
  let s := s.linkActivity
  if s.doorbellOk n (s.sqSize n) idx = false then .next (s.bump HIF.ERR_COUNT_DOORBELL)
  else
    let s := s.put (DBL.SQ_TAIL_INDEX n) idx
    if s.pwState = pwStandby ∨ s.pwState = pwWaking then .next s
    else .next (((s.put (HIF.RP_STAT_NOT_VISIBLE n) 0).raise (29 + n)).takeAll n)

/-- RQ_HEAD (R192, R193). -/
def execRqHead (n idx : Nat) (s : State) : Host.Outcome State Fault Refusal :=
  let s := s.linkActivity
  if s.doorbellOk n (s.rqSize n) idx = false then .next (s.bump HIF.ERR_COUNT_DOORBELL)
  else
    let s := s.put (DBL.RQ_HEAD_INDEX n) idx
    if s.pwState = pwStandby ∨ s.pwState = pwWaking then .next s else .next ((s.raise (29 + n)).takeAll n)

/-- Doorbells kept in Standby are acted on (R501, R502 step 7). -/
def State.keptDoorbells (s : State) : State :=
  (List.range 64).foldl (fun s n => if s.ringOn n then (s.put (HIF.RP_STAT_NOT_VISIBLE n) 0).takeAll n else s) s

/-- A slot whose PHASE was not valid is read again; after the eighth time it is posted as SLIP_NOT_VISIBLE (R197 steps 3, 4). -/
def execSlipReread (n : Nat) (s : State) : Host.Outcome State Fault Refusal :=
  let head := s.get (HIF.RP_STAT_SQ_HEAD n)
  if s.ringOn n = false ∨ s.stalled n ∨ s.on (HIF.RP_STAT_NOT_VISIBLE n) ∨ head = s.get (DBL.SQ_TAIL_INDEX n) then .next s
  else if (s.headSlot n).getD 15 0 / 2 ^ 31 = s.get (HIF.RP_STAT_SQ_PHASE n) then .next (s.takeAll n)
  else
    let r := s.ring n
    if r.rereads < 7 then .next (s.setRing n { r with rereads := r.rereads + 1 })
    else
      let s := s.setRing n { r with rereads := 0 }
      let s := s.put (HIF.RP_STAT_NOT_VISIBLE n) 1
      .next ((s.complete n { tag := 0, status := 1, stream := none, opcode := 0, kind := 0, extra := 0, w := [head], noIrq := false }).showBusy n)

/-! ### Writing completions and events (R209) -/

/-- The LOST slip (R201, R209). -/
def lostSlip (k : Nat) : RetSlip := eventSlip 0 none 4 0 [k]

/-- LOST_SLIP: the queue has room again (R209). -/
def State.putLost (s : State) (n : Nat) : State :=
  let r := s.ring n
  if r.lost ≠ 0 ∧ r.events.length < 1024 then
    (s.setRing n { r with events := r.events ++ [lostSlip r.lost], lost := 0 }).showPending n
  else s
def execLostSlip (n : Nat) (s : State) : Host.Outcome State Fault Refusal := .next (s.putLost n)

/-- Write k event slips from the queue. -/
def State.writeEvents (s : State) (n k : Nat) : State :=
  let r := s.ring n
  let s := s.setRing n { r with events := r.events.drop k, evTick := s.ticks }
  let s := (r.events.take k).foldl (fun s e => s.writeSlip n e) s
  (s.showPending n).putLost n

/-- A drain writes as many of its slips as there are free slots; the rest wait for the next ones (R209 step 2). -/
def State.drainOn (s : State) (n : Nat) : State :=
  let r := s.ring n
  if s.mayWrite n && r.compl.isEmpty then
    let k := min (min r.drain r.events.length) (s.rqFree n)
    (s.setRing n { r with drain := r.drain - k }).writeEvents n k
  else s

/-- A drain of the whole queue begins (R209). -/
def State.beginDrain (s : State) (n : Nat) : State := (s.setRing n { s.ring n with drain := (s.ring n).events.length }).drainOn n

/-- A drain begins, and the vector is raised at once (R209, R211, R215). -/
def State.startDrain (s : State) (n : Nat) : State :=
  let s := s.beginDrain n
  s.fireVec (s.get (HIF.RP_CFG_VECTOR n))

/-- EVENT_GROUP_WRITE: a drain in hand goes on; else a group of 8 is written where at least 8 slots are free (R209 step 1). -/
def execEventGroupWrite (n : Nat) (s : State) : Host.Outcome State Fault Refusal :=
  let r := s.ring n
  if r.drain ≠ 0 then .next (s.drainOn n)
  else if s.mayWrite n && r.compl.isEmpty && decide (8 ≤ r.events.length) && decide (8 ≤ s.rqFree n) then .next (s.writeEvents n 8)
  else .next s

/-- READ_TIMEOUT of a ring: the least of the streams whose events go to it. -/
def State.ringTimeout (s : State) (n : Nat) : Nat :=
  (s.openStreams.filter fun e => e.2.eventRing == n).foldl (fun a e => min a e.2.readTimeout) 10000 |> fun t =>
    if s.openStreams.any fun e => e.2.eventRing == n then t else 100

/-- EVENT_QUEUE_TIMEOUT (R209 step 2). -/
def execEventQueueTimeout (n : Nat) (s : State) : Host.Outcome State Fault Refusal :=
  let r := s.ring n
  if r.events ≠ [] ∧ r.events.length < 8 ∧ r.drain = 0 ∧ s.ringTimeout n ≤ s.usSince r.evTick then .next (s.startDrain n)
  else .next s

/-! ### Host power states (R212) -/

/-- The function enters D3hot, or Bus Master Enable is cleared. `pmeEn`: PME_En as it stands then. -/
def execHostD3hotEntry (d3 pmeEn : Bool) (s : State) : Host.Outcome State Fault Refusal :=
  .next { s with hostFn := { s.hostFn with d3 := s.hostFn.d3 || d3, busMaster := s.hostFn.busMaster && d3, pmeEn } }

/-! ### Setting up a ring pair (R225) -/

/-- A write of RP_CFG. -/
def execRpCfgWrite (n v : Nat) (s : State) : Host.Outcome State Fault Refusal :=
  let en := bitAt v 0
  let sizesOk := decide (4 ≤ bits v 1 5 ∧ bits v 1 5 ≤ 16 ∧ 4 ≤ bits v 6 5 ∧ bits v 6 5 ≤ 16)
  if s.ringOn n then
    (if en ∨ s.on (HIF.RP_STAT_BUSY n) then .next s else .next (s.put (HIF.RP_CFG_ENABLE n) 0))
  else if en then
    (if sizesOk then
      let s := s.wr (HIF.RP_CFG n) (BitVec.ofNat 32 (v % 2 ^ 25))
      let s := (s.put (HIF.RP_STAT_SQ_HEAD n) 0).put (HIF.RP_STAT_SQ_PHASE n) 1
      let s := (s.put (HIF.RP_STAT_NOT_VISIBLE n) 0).put (HIF.RP_RQ_STAT_RQ_TAIL n) 0
      let s := (s.put (HIF.RP_RQ_STAT_RQ_PHASE n) 1).put (DBL.SQ_TAIL_INDEX n) 0
      .next ((s.put (DBL.RQ_HEAD_INDEX n) 0).setRing n { s.ring n with rereads := 0 })
     else .next s)
  else .next (s.wr (HIF.RP_CFG n) (BitVec.ofNat 32 (v % 2 ^ 25)))

/-! ### What every slip is checked for (R194, R203, R204, R208) -/

/-- The bits of words 1 to 14 that an opcode uses (R194, R204). -/
def slipMasks (op : Nat) : List Nat :=
  let f := 0xFFFFFFFF
  let a := 0xFFFF
  match op with
  | 0x00 => []
  | 0x01 => [0x7FFFF, f, a, f]
  | 0x02 => [0x1FF]
  | 0x03 => [0x1FF, f, a, f]
  | 0x04 => [0xFF, f, a, f, f, a, f, f, f, f]
  | 0x05 => [0xFF, f, a, f, f, a, f, f, f, a, f]
  | 0x06 => [0x1FF]
  | 0x07 => [0xFFF, f, f, f, f, f, f, 0xFF]
  | 0x08 => [0xFF, f]
  | 0x09 => [0xFF, f, f, f, f, f, f]
  | 0x0A => [0x1FF, f, f, f, f, a, f]
  | 0x0B => [0xFFFF]
  | 0x0C => [0x300, f, f, f, f, a]
  | _ => List.replicate 14 f

/-- The used bits hold all that is not 0. -/
def underMask (w m : Nat) : Bool := (List.range 32).all fun i => !bitAt w i || bitAt m i

/-- Every unused and Reserved field of a slip is 0 (R194). -/
def Taken.reservedOk (t : Taken) : Bool :=
  decide (t.flags < 8) && t.word 15 % 2 ^ 31 == 0 &&
  ((List.range 14).all fun i => underMask (t.word (i + 1)) ((slipMasks t.op).getD i 0)) &&
  (t.op != 0x0B || bits (t.word 1) 8 8 == 1 || t.streamField == 0)

/-- The slips of a ring taken before the one at a place, not yet completed. -/
def State.earlier (s : State) (n k : Nat) : List Taken := (s.ring n).taken.take k
/-- The slip may start (R194, R206, R208): ORDERED waits for every earlier slip of the ring, every slip waits for an earlier NOP and for
an earlier OPEN_STREAM of its stream, and slips of one stream start in order. -/
def State.mayStart (s : State) (n k : Nat) (t : Taken) : Bool :=
  (!bitAt t.flags 2 || (s.earlier n k).isEmpty) &&
  (s.earlier n k).all fun e => e.op != 0x00 && (!sameStream t e || (e.started && e.op != 0x01))
/-- No earlier slip of the slip's stream is outstanding: it may complete (R208). -/
def State.mayComplete (s : State) (n k : Nat) (t : Taken) : Bool := (s.earlier n k).all fun e => !sameStream t e

/-- The slip taken at a place with an opcode, where it has not started and may start. -/
def State.slipAt (s : State) (n k op : Nat) : Option Taken :=
  match (s.ring n).taken[k]? with
  | some t => if t.op = op ∧ t.started = false ∧ s.mayStart n k t = true then some t else none
  | none => none

/-- The slip's work has started. -/
def State.startSlip (s : State) (n : Nat) (t : Taken) : State :=
  s.setRing n { s.ring n with taken := (s.ring n).taken.map fun e => if e.id = t.id then { e with started := true } else e }

/-- A slip is decided: it completes at once, or once its stream's earlier slips have (R208). -/
def State.finishExtra (s : State) (n k : Nat) (t : Taken) (status extra : Nat) (w : List Nat) : State :=
  if s.mayComplete n k t then s.finish n t status extra w
  else s.setRing n { s.ring n with
    taken := (s.ring n).taken.map fun e => if e.id = t.id then { e with started := true, verdict := some (status, extra, w) } else e }
def State.finishInOrder (s : State) (n k : Nat) (t : Taken) (status : Nat) (w : List Nat) : State := s.finishExtra n k t status 0 w

/-- Where a slip taken stands in its ring. -/
def Ring.placeOf (r : Ring) (id : Nat) : Option Nat := r.taken.findIdx? (·.id == id)
/-- The slip with a number is decided. -/
def State.finishByIdX (s : State) (n id status extra : Nat) (w : List Nat) : State :=
  match (s.ring n).byId id, (s.ring n).placeOf id with
  | some t, some k => s.finishExtra n k t status extra w
  | _, _ => s
def State.finishById (s : State) (n id status : Nat) (w : List Nat) : State := s.finishByIdX n id status 0 w

/-- The stream of a slip takes it: OPEN, of this ring, of a kind (R203, R214). -/
def State.streamFor (s : State) (n : Nat) (t : Taken) (kinds : List Nat) : Bool :=
  let x := s.stream t.streamField
  x.state == .opened && x.rp == n && kinds.contains x.kind

/-! ### Buffers of slips (R194, R369) -/

/-- What an access to a slip's buffer comes to. -/
inductive BufRes where
  | ok (pieces : List (Nat × Nat))
  | fail (kind level va : Nat)
  deriving DecidableEq, Repr

/-- The physical pieces of a buffer, page by page. -/
def State.slipPages (s : State) (asid : Nat) (write : Bool) : Nat → Nat → Nat → State × BufRes
  | 0, _, _ => (s, .ok [])
  | f + 1, va, n =>
    if n = 0 then (s, .ok [])
    else
      let k := min n (4096 - va % 4096)
      let (s, x) := s.translate 7 none asid va write
      match x with
      | .fail kd l => (s, .fail kd l va)
      | .ok pa _ =>
        let (s, r) := s.slipPages asid write f (va + k) (n - k)
        match r with
        | .fail a b c => (s, .fail a b c)
        | .ok ps => (s, .ok ((pa, k) :: ps))

def State.slipPieces (s : State) (n va len : Nat) (write : Bool) : State × BufRes :=
  s.slipPages (s.get (HIF.RP_CFG_ASID n)) write (len / 4096 + 2) va len

/-- A slip's buffer access fails: a resolvable fault makes a record and the slip waits; any other completes it with
ADDRESS_FAULT (R367 to R369). -/
def State.slipFault (s : State) (n : Nat) (t : Taken) (write : Bool) (kind level va : Nat) : State :=
  if kind ≤ 7 then s.queueFault (.slip n t.id) (s.get (HIF.RP_CFG_ASID n)) va write kind level
  else s.finishById n t.id stAddressFault []

/-- A fault record of the slip waits to be resolved (R368). -/
def State.slipWaits (s : State) (n : Nat) (t : Taken) : Bool :=
  (s.mmu.queue ++ s.mmu.outside).any fun r => r.who == .slip n t.id

/-- Read the pieces of a buffer: bytes, and whether any was poisoned. -/
def State.readPieces (s : State) : List (Nat × Nat) → State × List Byte × Bool
  | [] => (s, [], false)
  | (pa, k) :: r =>
    let (s, a, p) := s.readPhys pa k
    let (s, b, q) := s.readPieces r
    (s, a ++ b, p || q)

/-- Write bytes over the pieces of a buffer; whether all landed. -/
def State.writePieces (s : State) : List (Nat × Nat) → List Byte → State × Bool
  | [], _ => (s, true)
  | (pa, k) :: r, l =>
    let (s, a) := s.writePhys pa (l.take k)
    let (s, b) := s.writePieces r (l.drop k)
    (s, a && b)

/-! ### Slips that use no stream -/

/-- NOP: completes once every earlier slip of its ring has (R204). -/
def execNop (n k : Nat) (s : State) : Host.Outcome State Fault Refusal :=
  match s.slipAt n k 0x00 with
  | some t => if (s.earlier n k).isEmpty then .next (s.finish n t (if t.reservedOk then stSuccess else stBadField) 0 []) else .next s
  | none => .next s

/-- A slip of an opcode that is not in the table (R204). -/
def execUnknownOpcode (n k : Nat) (s : State) : Host.Outcome State Fault Refusal :=
  match (s.ring n).taken[k]? with
  | some t => if 0x0C < t.op ∧ s.mayStart n k t = true then .next (s.finish n t stBadOpcode 0 []) else .next s
  | none => .next s

/-- A QUERY of a WHAT: its answer, BAD_FIELD for a Reserved field not 0 (R206). -/
def State.query (s : State) (n k what : Nat) (w : List Nat) : State :=
  match s.slipAt n k 0x0B with
  | some t => if bits (t.word 1) 8 8 = what then s.finish n t (if t.reservedOk then stSuccess else stBadField) 0 (if t.reservedOk then w else []) else s
  | none => s

/-- QUERY WHAT 0 (R206). -/
def execQueryLedger (n k : Nat) (s : State) : Host.Outcome State Fault Refusal :=
  .next (s.query n k 0 [s.get HIF.LEDGER_CU_CAP_UNITS, s.get HIF.LEDGER_CU_USED_UNITS, s.get HIF.LEDGER_SU_CAP_UNITS, s.get HIF.LEDGER_SU_USED_UNITS])

/-- QUERY WHAT 1 (R206). The last picture of a stream that has released none is open. -/
def execQueryStream (n k : Nat) (s : State) : Host.Outcome State Fault Refusal :=
  match (s.ring n).taken[k]? with
  | some t =>
    let x := s.stream t.streamField
    let pend := (s.rings.map fun e => (e.2.events.filter fun v => v.stream == some t.streamField).length).sum
    let (last, s) := match x.lastReleased with | some v => (v, s) | none => s.draw
    .next (s.query n k 1 [x.state.code, x.cu, x.su, last % 2 ^ 32, pend])
  | none => .next s

/-- QUERY WHAT 2 (R206). A WHAT above 2 completes with BAD_FIELD. -/
def execQueryDigest (n k : Nat) (s : State) : Host.Outcome State Fault Refusal :=
  match s.slipAt n k 0x0B with
  | some t =>
    if 2 < bits (t.word 1) 8 8 then .next (s.finish n t stBadField 0 [])
    else .next (s.query n k 2 [s.get CAT.EPOCH_VALUE, s.get CAT.DIGEST_HI_VALUE, s.get CAT.DIGEST_LO_VALUE])
  | none => .next s

/-- The host holds a share of the folio (R163, R205). -/
def State.hostHolds (s : State) (h : Nat) : Bool := s.isLent h && (s.lent h).owner == 0x120

/-- RETURN_FOLIO (R205): a copy from a folio shared to the host, and the release of the host's share unless KEEP is set. -/
def execReturnFolio (n k : Nat) (s : State) : Host.Outcome State Fault Refusal :=
  match s.slipAt n k 0x0C with
  | none => .next s
  | some t =>
    let h := t.word 2
    let copy := bitAt (t.word 1) 8
    let drop := !bitAt (t.word 1) 9
    if s.slipWaits n t then .next s
    else if t.reservedOk = false then .next (s.finish n t stBadField 0 [])
    else if s.hostHolds h = false then .next (s.finish n t 0x0012 0 [])
    else if copy = false then .next ((if drop then (s.release h 0x120).1 else s).finish n t stSuccess 0 [0])
    else if s.poolSize (handlePool h) < t.word 3 + t.word 4 then .next (s.finish n t stBadField 0 [])
    else
      let (s, r) := s.slipPieces n (t.addr 5) (t.word 4) true
      match r with
      | .fail kd l va => .next (s.slipFault n t true kd l va)
      | .ok ps =>
        let r := s.readMem (s.folioAddr h + t.word 3) (t.word 4)
        let w := r.1.writePieces ps r.2.1
        .next ((if drop then (w.1.release h 0x120).1 else w.1).finish n t (if r.2.2 || !w.2 then stUnmasked else stSuccess) 0 [t.word 4])

end Sys2Proof.Machine
end

