-- ==== Sys2Proof/Machine/Streams.lean ====
section
/-! DEFINITION. What follows from a stream's parameters alone: sizes, units of work, guard units, charges, and its part of the device
digest (R133, R164, R213, R217 to R219, R222 to R224, R460). -/
namespace Sys2Proof.Machine

/-! ### Parameters -/

def Geometry.zero : Geometry :=
  { codec := 0, profile := 0, tierLevel := 0, depth := 8, width := 0, height := 0, period := 1, chroma := 0, tags := 0, phaseTable := 0,
    keyInterval := 1, source := 0, flags := 0, rateNum := 1, rateDen := 1, maxRate := 0, seqId := 0 }

def Stream.geo (x : Stream) : Geometry := x.secs.geo.getD Geometry.zero
/-- A Krema stream (R213). -/
def Stream.isKrema (x : Stream) : Bool := isKremaKind x.kind
/-- Developed from a source stream (R213). -/
def Stream.isDeveloped (x : Stream) : Bool := x.kind == 4 || x.kind == 7
/-- Codes in a standard codec. -/
def Stream.isCodec (x : Stream) : Bool := x.kind == 4 || x.kind == 5
/-- Krema-V of an encoding kind. -/
def Stream.isV (x : Stream) : Bool := (x.kind == 1 || x.kind == 2) && x.geo.codec == 1
/-- Krema-V or a standard codec: coded under rate plans (R164). -/
def Stream.rated (x : Stream) : Bool := x.isV || x.isCodec
/-- The Krema sequence of a Krema stream. -/
def Stream.seq (x : Stream) : KSeq := x.geo.seq
/-- Coded width and height of a standard codec's picture, or of a developed picture (R217). -/
def Stream.dims (x : Stream) : Nat × Nat :=
  match x.secs.proof with
  | some p => (p.ow, p.oh)
  | none => (x.geo.width, x.geo.height)
def Stream.is422 (x : Stream) : Bool := match x.secs.proof with | some p => p.chroma == 1 | none => x.geo.chroma == 1
def Stream.statsP (x : Stream) : StatsP :=
  x.secs.stats.getD { sections := 0, pool := 0, toHost := false, histSrc := 0, lambda := 16 }

def RateP.zero : RateP :=
  { rcMode := 0, quantInit := 0, quantMin := 0, quantMax := 0, targetRate := 0, peakRate := 0, cpbMs := 1000, ratioQ4 := 64,
    rowDelta := 0, keyBoost := 48, reserveQ8 := 0, modelWeight := 4, seedIntra := 0, seedInter := 0, applet := 0 }
def Stream.rateP (x : Stream) : RateP := x.secs.rate.getD RateP.zero

/-- Key or IDR pictures (R50, R128). -/
def Stream.isKey (x : Stream) (n : Nat) : Bool := n % max 1 x.geo.keyInterval == 0
/-- References of picture n: their numbers, reference 0 first (R50, R128). -/
def Stream.refNums (x : Stream) (n : Nat) : List Nat :=
  if x.isKey n then [] else
    let k := max 1 x.geo.keyInterval
    let key := (n - 1) / k * k
    if 2 ≤ n ∧ key ≤ n - 2 then [n - 1, n - 2] else [n - 1]

/-- A picture of the stream is searched (R151). -/
def Stream.searches (x : Stream) (n : Nat) : Bool := decide (1 < x.geo.keyInterval) && n != 0

/-! ### CTU rows, tiles and guard units (R133, R164) -/

def ctuOf (codec : Nat) : Nat := if codec = 4 then 16 else if codec = 3 then 128 else 64

/-- Parts of an even split as HEVC's uniform spacing makes it: start and size of part i of n. -/
def uniformPart (total n i : Nat) : Nat × Nat := (i * total / n, (i + 1) * total / n - i * total / n)
/-- Parts of the rounded-up size, the last taking the rest. -/
def roundedPart (total n i : Nat) : Nat × Nat :=
  let h := ceilDiv total n
  (i * h, min h (total - i * h))

/-- What cuts a standard codec's picture. -/
structure Cut where
  codec : Nat
  w : Nat
  h : Nat
  subFrame : Bool
  lim : TileLimit

def Cut.ctu (c : Cut) : Nat := ctuOf c.codec
def Cut.rows (c : Cut) : Nat := ceilDiv c.h c.ctu
def Cut.grid (c : Cut) : Nat × Nat := tileGrid c.ctu c.w c.h c.subFrame c.lim
/-- CTU rows of tile row i. -/
def Cut.rowSpan (c : Cut) (i : Nat) : Nat × Nat :=
  if c.codec = 2 ∧ c.subFrame = false then uniformPart c.rows c.grid.2 i else roundedPart c.rows c.grid.2 i
/-- CTU columns of tile column i. -/
def Cut.colSpan (c : Cut) (i : Nat) : Nat × Nat :=
  if c.codec = 2 then uniformPart (ceilDiv c.w c.ctu) c.grid.1 i else roundedPart (ceilDiv c.w c.ctu) c.grid.1 i
/-- CTU or macroblock rows of segment j. -/
def Cut.segRows (c : Cut) (j : Nat) : Nat × Nat :=
  if c.codec = 4 then
    let g := if c.subFrame then 2 else 8
    (g * j, min g (c.rows - g * j))
  else c.rowSpan (j / c.grid.1)
/-- Guard units of segment j: the first, and how many. -/
def Cut.guards (c : Cut) (j : Nat) : Nat × Nat :=
  let r := c.segRows j
  if c.codec = 4 then r else (c.grid.1 * r.1 + j % c.grid.1 * r.2, r.2)
/-- The area of the kth guard unit of segment j, in luma samples. -/
def Cut.guardRect (c : Cut) (j k : Nat) : Rect :=
  let y := (c.segRows j).1 + k
  let col := if c.codec = 4 then (0, ceilDiv c.w 16) else c.colSpan (j % c.grid.1)
  let x0 := col.1 * c.ctu
  { x := x0, y := y * c.ctu, w := min (col.2 * c.ctu) (c.w - x0), h := min c.ctu (c.h - y * c.ctu) }
/-- Luma rows of segment j: the first row, and the row after the last. -/
def Cut.lumaRows (c : Cut) (j : Nat) : Nat × Nat :=
  let r := c.segRows j
  (r.1 * c.ctu, min ((r.1 + r.2) * c.ctu) c.h)

def Stream.cut (x : Stream) : Cut := { codec := x.geo.codec, w := x.dims.1, h := x.dims.2, subFrame := x.subFrame, lim := x.lim }

/-- Units of work of a picture: leaves, segments, or bands of 64 rows of a developed raw picture. -/
def Stream.unitCount (x : Stream) : Nat :=
  if x.isKrema then x.seq.leafCount
  else if x.kind = 7 then ceilDiv x.dims.2 64
  else segmentCount x.geo.codec x.dims.1 x.dims.2 x.subFrame x.lim

/-- U of R164, 0 for a stream without rate plans. -/
def Stream.guardCount (x : Stream) : Nat :=
  if x.isV then x.seq.leafCount
  else if x.isCodec then guardUnits x.geo.codec x.dims.1 x.dims.2 x.subFrame x.lim
  else 0

/-- Guard units of unit of work j: the first, and how many. -/
def Stream.guardsOf (x : Stream) (j : Nat) : Nat × Nat := if x.isCodec then x.cut.guards j else (j, 1)

/-- The area of each guard unit on the search picture, in guard order. -/
def Stream.guardRects (x : Stream) : List Rect :=
  if x.isCodec then
    (List.range x.unitCount).flatMap fun j => (List.range (x.cut.guards j).2).map fun k => x.cut.guardRect j k
  else (List.range x.seq.leafCount).map fun j => x.seq.planeLeaf j
/-- A place of the search picture lies in an area. -/
def Rect.has (r : Rect) (px py : Nat) : Bool := decide (r.x ≤ px ∧ px < r.x + r.w ∧ r.y ≤ py ∧ py < r.y + r.h)
/-- Columns of search blocks (R156). -/
def Stream.blockCols (x : Stream) : Nat := if x.isKrema then ceilDiv (x.geo.width / x.geo.period) 32 else ceilDiv x.dims.1 32
/-- The unit of work that owns a search block: the one that holds the block's first sample (R150). -/
def Stream.blockOwner (x : Stream) (b : Nat) : Option Nat :=
  let px := 32 * (b % max 1 x.blockCols)
  let py := 32 * (b / max 1 x.blockCols)
  (List.range x.unitCount).find? fun j =>
    if x.isKrema then (x.seq.planeLeaf j).has px py
    else x.isCodec && (List.range (x.cut.guards j).2).any fun k => (x.cut.guardRect j k).has px py

/-- Samples of each guard unit. -/
def Stream.guardSamples (x : Stream) : List Nat :=
  if x.isCodec then x.guardRects.map fun r => r.w * r.h
  else (List.range x.seq.leafCount).map fun j => (x.seq.leaf j).w * (x.seq.leaf j).h

/-! ### The quantiser and the caps (R166, R167, R175) -/

def Stream.codecId (x : Stream) : Nat := if x.isKrema then 1 else x.geo.codec
def Stream.quantBounds (x : Stream) : Int × Int := quantRange x.codecId x.geo.depth
def Stream.flatSizes (x : Stream) : List Nat := if x.isV then (List.range x.seq.leafCount).map x.seq.flatSize else []
def Stream.picCap (x : Stream) : Nat := if x.isV then picCapOf x.seq (max 1 x.rateP.ratioQ4) else 0
def Stream.planReq (x : Stream) (n : Nat) : PlanReq :=
  { stream := n, units := x.guardCount, kremaV := x.isV, codecMin := x.quantBounds.1, codecMax := x.quantBounds.2,
    quantMin := x.rateP.quantMin, quantMax := x.rateP.quantMax, flatSizes := x.flatSizes, picCap := x.picCap }

/-- Mean bits of a picture as a fraction (R178). -/
def Stream.meanBits (x : Stream) : Nat × Nat :=
  if x.isV then (7 * x.picCap, 1) else (x.rateP.targetRate * 1000 * x.geo.rateDen, max 1 x.geo.rateNum)
/-- PEAK_RATE / f; the mean itself where the stream has no rate of its own. -/
def Stream.peakBits (x : Stream) : Nat :=
  if x.isV then x.meanBits.1
  else (if x.rateP.rcMode = 1 then x.rateP.peakRate else x.rateP.targetRate) * 1000 * x.geo.rateDen / max 1 x.geo.rateNum
/-- CPB_SIZE in bits. -/
def Stream.cpbBits (x : Stream) : Nat :=
  if x.isV then x.meanBits.1 * x.geo.rateNum * x.rateP.cpbMs / (1000 * max 1 x.geo.rateDen)
  else (if x.rateP.rcMode = 1 then x.rateP.peakRate else x.rateP.targetRate) * x.rateP.cpbMs
/-- TARGET_BYTES of the fallback plan (R169). -/
def Stream.targetBytes (x : Stream) : Nat :=
  if x.isV then x.picCap * 7 / 8 else x.rateP.targetRate * 1000 * x.geo.rateDen / (8 * max 1 x.geo.rateNum)
/-- Seed constants in force (R177, R182): intra, inter. -/
def Stream.seed (x : Stream) (intra : Bool) : Nat :=
  let v := if intra then x.rateP.seedIntra else x.rateP.seedInter
  if v = 0 then seedConst x.codecId x.is422 intra else v

/-! ### Charges (R223) -/

def encodeRate (codec : Nat) : Nat := match codec with | 2 => 70 | 3 => 45 | _ => 110
def decodeRate (codec : Nat) : Nat := match codec with | 2 => 250 | 3 => 180 | _ => 300
/-- Krema Msample/s at N. -/
def kremaRate (kind : Nat) (g : Geometry) : Nat := if kind = 3 then 400 else if g.codec = 1 then 240 else if g.keyInterval = 1 then 320 else 200

/-- The jobs of a stream. -/
def Stream.jobs (x : Stream) : List Job :=
  let g := x.geo
  let r := x.rateP
  let d := x.dims
  let proofing : List Job := match x.secs.proof with
    | some p => [{ sNum := p.ow * p.oh * g.rateNum * (if p.chroma = 1 then 4 else 3), sDen := 2 * g.rateDen, r := 600, yNum := 0, yDen := 1, rs := 0 }]
    | none => []
  if x.isKrema then
    [{ sNum := g.width * g.height * g.rateNum, sDen := g.rateDen, r := kremaRate x.kind g,
       yNum := 17 * (g.width * g.height * g.rateNum), yDen := 16 * g.rateDen, rs := 1200 }]
  else if x.kind = 6 then
    [{ sNum := g.width * g.height * g.rateNum, sDen := g.rateDen, r := decodeRate g.codec, yNum := 4 * (g.maxRate * 1000), yDen := 3, rs := 600 }]
  else
    proofing ++ (if x.kind = 7 then [] else
      [{ sNum := d.1 * d.2 * g.rateNum, sDen := g.rateDen, r := encodeRate g.codec,
         yNum := 4 * ((if r.rcMode = 1 then r.peakRate else r.targetRate) * 1000), yDen := 3, rs := 600 }])

/-- 1 in Spared and Open, 2 in Paired. -/
def protFactor (prot : Nat) : Nat := if prot = 1 then 2 else 1

/-- Carrel-units and scribe-units of a stream at a ledger factor. -/
def Stream.charge (x : Stream) (f : Nat) : Nat × Nat :=
  let l := x.jobs.map fun j => j.charge (protFactor x.prot) x.subFrame f
  ((l.map (·.1)).sum, (l.map (·.2)).sum)

/-! ### Sections as they are in force (R217 to R219, R460) -/

def Geometry.bytes (g : Geometry) : List Byte :=
  leBytes 2 tyGeometry ++ leBytes 2 48 ++ leBytes 1 g.codec ++ leBytes 1 g.profile ++ leBytes 1 g.tierLevel ++ leBytes 1 g.depth ++
  leBytes 2 g.width ++ leBytes 2 g.height ++ leBytes 1 g.period ++ leBytes 1 g.chroma ++ leBytes 2 g.tags ++ leBytes 4 g.phaseTable ++
  leBytes 2 g.keyInterval ++ leBytes 1 g.source ++ leBytes 1 g.flags ++ leBytes 4 g.rateNum ++ leBytes 4 g.rateDen ++ leBytes 4 g.maxRate ++
  leBytes 8 0 ++ leBytes 4 0

def ProofP.bytes (p : ProofP) : List Byte :=
  let u := fun (l : List Nat) => (List.range 4).flatMap fun c => leBytes 2 (l.getD c 0)
  leBytes 2 tyProofing ++ leBytes 2 76 ++ u p.black ++ u p.gain ++ leBytes 1 (if p.edge then 1 else 0) ++ leBytes 1 p.ycc ++
  leBytes 1 p.transfer ++ leBytes 1 p.chroma ++ leBytes 1 p.outDepth ++ leBytes 3 0 ++ leBytes 2 p.x0 ++ leBytes 2 p.y0 ++ leBytes 2 p.wi ++
  leBytes 2 p.hi ++ leBytes 2 p.ow ++ leBytes 2 p.oh ++ (List.range 9).flatMap (fun i => leBytes 2 (ofSigned 16 (p.matrix.getD i 0))) ++
  leBytes 2 0 ++ (sha256 (p.lut.flatMap (leBytes 2))).take 8 ++
  (if p.scalerAddr = 0 then leBytes 8 0 else (sha256 (p.taps.flatMap fun t => leBytes 2 (ofSigned 16 t))).take 8)

def StatsP.bytes (p : StatsP) : List Byte :=
  leBytes 2 tyStatistics ++ leBytes 2 12 ++ leBytes 1 p.sections ++ leBytes 1 p.pool ++ leBytes 1 (if p.toHost then 1 else 0) ++
  leBytes 1 p.histSrc ++ leBytes 1 p.lambda ++ leBytes 3 0

def Stream.rateBytes (x : Stream) : List Byte :=
  let r := x.rateP
  leBytes 2 tyRate ++ leBytes 2 40 ++ leBytes 1 r.rcMode ++ leBytes 1 (ofSigned 8 r.quantInit) ++ leBytes 1 (ofSigned 8 r.quantMin) ++
  leBytes 1 (ofSigned 8 r.quantMax) ++ leBytes 4 r.targetRate ++ leBytes 4 r.peakRate ++ leBytes 2 r.cpbMs ++ leBytes 1 r.ratioQ4 ++
  leBytes 1 r.rowDelta ++ leBytes 1 r.keyBoost ++ leBytes 1 r.reserveQ8 ++ leBytes 1 r.modelWeight ++ leBytes 1 0 ++
  leBytes 2 (x.seed true) ++ leBytes 2 (x.seed false) ++ leBytes 4 r.applet ++ leBytes 8 0

/-- A stream's part of the canonical record (R460). -/
def Stream.record (x : Stream) (n : Nat) : List Byte :=
  leBytes 1 n ++ leBytes 1 x.kind ++ leBytes 1 x.prot ++ leBytes 1 (if x.subFrame then 1 else 0) ++ x.geo.bytes ++
  (match x.secs.proof with | some p => p.bytes | none => []) ++ (match x.secs.stats with | some p => p.bytes | none => []) ++
  (match x.secs.rate with | some _ => x.rateBytes | none => [])

/-- The device digest (R460) over the streams that are open after the epoch. -/
def State.deviceDigest (s : State) : Nat :=
  let l := leBytes 4 0x46434444 ++ [1#8] ++ (s.cat.bundle ++ List.replicate (48 - s.cat.bundle.length) 0#8) ++
    beBytes 4 (s.rd CAR.UCODE_REV).toNat ++ beBytes 4 (s.rd SCB.UCODE_REV).toNat ++
    (s.streams.filter fun e => e.2.state == .opened).flatMap fun e => e.2.record e.1
  beNum ((sha256 l).take 8)

/-! ### The ledger (R222, R224) -/

def Stream.sparing (x : Stream) : Bool := x.prot != 2

/-- Some open stream is Spared or Paired, or is being opened so (R27). -/
def State.sparesHeld (s : State) : Bool :=
  s.openStreams.any (fun e => e.2.sparing) ||
  (s.staged ++ s.taking).any fun q => match q.what with | .openS _ prot _ _ _ _ _ => prot != 2 | _ => false

/-- Capacity: the table less the units removed from it. -/
def State.capacity (s : State) (spares : Bool) : Nat × Nat :=
  let c := ledgerCapacity s.big spares
  (c.1 - 1024 * s.gone.1, c.2 - 1024 * s.gone.2)

/-- Charges held, those of staged opens and changes included. -/
def State.charges (s : State) : Nat × Nat :=
  let held := s.openStreams.map fun e =>
    match (s.staged ++ s.taking).foldl (fun (r : Option (Nat × Nat)) q =>
        match q.what with | .setS _ cu su => if q.stream = e.1 then some (cu, su) else r | _ => r) none with
    | some c => (max c.1 e.2.cu, max c.2 e.2.su)
    | none => (e.2.cu, e.2.su)
  let opening := (s.staged ++ s.taking).filterMap fun q => match q.what with | .openS _ _ _ _ _ cu su => some (cu, su) | _ => none
  let closing := s.rings.flatMap fun e => e.2.compl.map (·.frees)
  (((held ++ opening ++ closing).map (·.1)).sum, ((held ++ opening ++ closing).map (·.2)).sum)

/-- The ledger registers follow it. -/
def State.showLedger (s : State) : State :=
  let c := s.capacity s.sparesHeld
  let u := s.charges
  (((s.put HIF.LEDGER_CU_CAP_UNITS c.1).put HIF.LEDGER_CU_USED_UNITS u.1).put HIF.LEDGER_SU_CAP_UNITS c.2).put HIF.LEDGER_SU_USED_UNITS u.2

def State.factor (s : State) : Nat := s.get TOP.RATE_FACTOR_FACTOR

/-- The charges of every open and staged stream at a factor, as a total. -/
def State.chargesAt (s : State) (f : Nat) : Nat × Nat :=
  let l := s.openStreams.map (fun e => e.2.charge f) ++ (s.staged ++ s.taking).filterMap fun q =>
    match q.what with
    | .openS kind prot sub secs lim _ _ => some (Stream.charge { Stream.init with kind, prot, subFrame := sub, secs, lim } f)
    | _ => none
  ((l.map (·.1)).sum, (l.map (·.2)).sum)

/-- Every charge is recomputed at the factor charged now (R224). -/
def State.recharge (s : State) : State :=
  let f := s.factor
  let s := s.openStreams.foldl (fun s e =>
    let c := e.2.charge f
    s.setStream e.1 { s.stream e.1 with cu := c.1, su := c.2 }) s
  let redo : Staged → Staged := fun q => { q with what := match q.what with
    | .openS kind prot sub secs lim _ _ =>
      let c := Stream.charge { Stream.init with kind, prot, subFrame := sub, secs, lim } f
      .openS kind prot sub secs lim c.1 c.2
    | .setS secs _ _ =>
      let c := Stream.charge { s.stream q.stream with secs } f
      .setS secs c.1 c.2
    | .closeS => .closeS }
  { s with staged := s.staged.map redo, taking := s.taking.map redo }.showLedger

/-! ### Pace (R16, R17) -/

/-- A pace request is checked and accepted or refused (R17). Whether it was accepted. -/
def State.requestPace (s : State) (v : Nat) : State × Bool :=
  let f := paceFactor v
  let need := s.chargesAt f
  let cap := s.capacity s.sparesHeld
  if 2 < v then (s, false)
  else if (v = 1 ∧ s.on CNS.CNS_STAT_PACE_LIMITED = true) ∨ (f < s.factor ∧ (cap.1 < need.1 ∨ cap.2 < need.2)) then
    (s.put TOP.PACE_STAT_REFUSED 1, false)
  else
    let same := s.get TOP.PACE_CTL_PACE == v
    let s := ((s.put TOP.PACE_CTL_PACE v).put TOP.RATE_FACTOR_TARGET f).showTarget
    let s := if f < s.factor then ((s.put TOP.RATE_FACTOR_FACTOR f).put TOP.PACE_STAT_CURRENT v).recharge else s
    ((if same then s else s.put TOP.PACE_STAT_RAMPING 1), true)

/-- The voltage has reached the target of the accepted pace: a higher factor is credited (R17 rule 3). -/
def State.rampDone (s : State) : State :=
  let v := s.get TOP.PACE_CTL_PACE
  let s := s.put TOP.PACE_STAT_RAMPING 0
  if s.factor < paceFactor v then ((s.put TOP.RATE_FACTOR_FACTOR (paceFactor v)).put TOP.PACE_STAT_CURRENT v).recharge
  else s.put TOP.PACE_STAT_CURRENT v

/-- PACE_CTL_WRITE. -/
def execPaceCtlWrite (v : Nat) (s : State) : Host.Outcome State Fault Refusal := .next (s.requestPace (v % 4)).1

end Sys2Proof.Machine
end

