-- ==== Sys2Proof/Machine/Decoder.lean ====
section
/-! DEFINITION. The decoder of the standard codecs: parameter sets, random access, references and their substitutes, concealment, the decoded picture
buffer and its output (R126, R135 to R140, R200, R204, R544). -/
namespace Sys2Proof.Machine

/-! ### Output of decoded pictures to the buffers of slips (R200, R204) -/

/-- The pieces of the parts of a buffer that lie within its capacity: address and bytes of each part. -/
def State.outPieces (s : State) (n : Nat) : List (Nat × List Byte) → State × Except (Nat × Nat × Nat) (List (List (Nat × Nat) × List Byte))
  | [] => (s, .ok [])
  | (va, l) :: r =>
    match s.slipPieces n va l.length true with
    | (s, .fail kd lv a) => (s, .error (kd, lv, a))
    | (s, .ok ps) =>
      match s.outPieces n r with
      | (s, .error e) => (s, .error e)
      | (s, .ok q) => (s, .ok ((ps, l) :: q))

/-- Rows of an output as far as they fit: address and bytes. -/
def fitRows (va pitch cap : Nat) (rows : Rows) : List (Nat × List Byte) :=
  (rows.zipIdx.map fun r => (va + pitch * r.2, (rowBytes r.1).take (cap - pitch * r.2))).filter fun q => !q.2.isEmpty

/-- What decoding gives a slip: picture number, rows of all planes, map, PFLAGS. -/
structure Decoded where
  num : Nat
  rows : Rows
  map : List Byte
  flags : Nat

/-- Write what was decoded to the buffers of a slip and complete it: with the answer whether it is done. `s0`: the state that a page fault of a buffer goes
back to. -/
def State.writeDecoded (s : State) (n : Nat) (t : Taken) (d : Decoded) (s0 : State) : State × Bool :=
  let pitch := t.word 8
  let len := outputLen pitch d.rows.length ((d.rows.getLast?.getD []).length)
  let parts := fitRows (t.addr 5) pitch (t.word 7) d.rows ++
    (let m := d.map.take (t.word 11); if m.isEmpty then [] else [(t.addr 9, m)])
  match s.outPieces n parts with
  | (_, .error e) => (s0.slipFault n t true e.1 e.2.1 e.2.2, decide (7 < e.1))
  | (s, .ok ps) =>
    let (s, ok) := ps.foldl (fun (a : State × Bool) q => let (s, b) := a.1.writePieces q.1 q.2; (s, a.2 && b)) (s, true)
    let flags := if ok then d.flags else setBits d.flags 11 1 1
    let count := (d.map.filter (· != 0#8)).length
    let st := if t.word 7 < len ∨ t.word 11 < d.map.length then 0x0013 else if bitAt flags 11 then stUnmasked else stSuccess
    let s := s.setStream t.streamField { s.stream t.streamField with lastReleased := some d.num }
    (s.finishById n t.id st [d.num, len, 0, min count 65535, flags + 0xFFFF0000], true)

/-- REF_SUBST of PFLAGS follows the map. -/
def substFlag (m : List Byte) : Nat := if m.any fun b => bitAt b.toNat 5 then 2 ^ 10 else 0

/-! ### Parameter sets (R126, R137, R138, R217) -/

def Decoder.find (d : Decoder) (kind id : Nat) : Option ParamSet := d.sets.find? fun p => p.kind == kind && p.id == id
/-- Parameter sets are received. One that cannot be parsed is ignored, and the last valid one of its identifier stays in force (R138). -/
def Decoder.receive (d : Decoder) (l : List ParamSet) : Decoder :=
  { d with sets := l.foldl (fun sets p => if p.ok then p :: sets.filter fun q => !(q.kind == p.kind && q.id == p.id) else sets) d.sets }

/-- The SPS that a PPS makes active, where it has been received with what it names: for HEVC its VPS as well (R137). -/
def Decoder.spsOf (d : Decoder) (codec pps : Nat) : Option ParamSet :=
  (d.find 2 pps).bind fun p => (d.find 1 p.names).bind fun q => if codec = 2 ∧ (d.find 0 q.names).isNone then none else some q

/-- The SPS of an access unit: of the PPS that its first readable slice header names. -/
def Decoder.active (d : Decoder) (codec : Nat) (a : CodecAu) : Option ParamSet :=
  (a.slices.find? (·.parsed)).bind fun h => d.spsOf codec h.pps

/-- The SPS asks for more than the device or the stream supports (R126, R204, R217). -/
def ParamSet.refused (p : ParamSet) (g : Geometry) : Bool :=
  p.unsupported || decide (10 < p.depth) || decide (deviceLevel g.codec true < p.level) || decide (g.tierLevel % 128 < p.level) ||
  (p.high && decide (g.tierLevel < 128)) || decide (g.width < p.width) || decide (g.height < p.height)

/-! ### Random access (R136, R137) -/

/-- Where a decoder that has not started starts: at a random-access point, or with START_ANYWHERE at the first unit whose parameter sets have been received. -/
def startsAt (anywhere : Bool) (a : CodecAu) : Bool := anywhere || a.point != .none

/-- A decoder meets an access unit that it does not skip: it has started; at its start it notes what it leaves out, the RASL pictures of a starting CRA or
BLA picture and those before a recovery point; a later random-access point ends the first, and a picture at the point the second. -/
def Decoder.enter (d : Decoder) (a : CodecAu) : Decoder :=
  let until' : Option Int := if d.started then d.from' else match a.point with | .recovery p => some p | _ => none
  { d with
    started := true, dropRasl := if d.started then d.dropRasl && a.point == .none else a.point == .cra || a.point == .bla,
    from' := match until' with | some p => if p ≤ a.poc then none else some p | none => none }

/-! ### References (R137, R138) -/

/-- A picture of a size, chroma format and depth. -/
def DpbPic.alike (q : DpbPic) (p : ParamSet) : Bool :=
  q.y.length == p.height && (q.y.headD []).length == p.width && q.depth == p.depth && q.chroma == p.chroma

/-- The generated picture: every sample at 1 << (depth − 1). -/
def midPic (p : ParamSet) : DpbPic :=
  let plane : Nat → Nat → Rows := fun w h => List.replicate h (List.replicate w (2 ^ (p.depth - 1)))
  let c := if p.chroma = 2 then [] else plane (p.width / 2) (if p.chroma = 1 then p.height else p.height / 2)
  { poc := 0, y := plane p.width p.height, cb := c, cr := c, depth := p.depth, chroma := p.chroma, ref := false, slip := none, map := [], flags := 0, age := 0 }

/-- The reference of an order count: with whether it is a substitute, and a generated one. -/
def Decoder.refOf (d : Decoder) (p : ParamSet) (poc : Int) : DpbPic × Bool × Bool :=
  match d.dpb.find? fun q => q.ref && decide (q.poc = poc) with
  | some q => (q, false, false)
  | none =>
    match d.dpb.find? fun q => q.alike p with
    | some q => (q, true, false)
    | none => (midPic p, true, true)

/-! ### Damage and concealment (R139, R140) -/

/-- What is known of a CTU or macroblock: 0 decoded, 1 damaged, 2 missing, 3 lost; the first reference of the slice that names it, and the order counts it
is predicted from. -/
structure CtuState where
  state : Nat
  list0 : Option Int
  uses : List Int
  deriving DecidableEq, Repr

/-- The CTUs of a picture, of so many columns. -/
structure CtuMap where
  cols : Nat
  rows : Nat
  ctus : List CtuState
  deriving DecidableEq, Repr

def CtuMap.at (m : CtuMap) (i : Nat) : CtuState := m.ctus.getD i { state := 2, list0 := none, uses := [] }
def CtuMap.decoded (m : CtuMap) (r c : Nat) : Bool := (m.at (r * m.cols + c)).state == 0
/-- The nearest decoded CTU row above a CTU, and below one among `k` rows. -/
def CtuMap.above (m : CtuMap) (c : Nat) : Nat → Option Nat
  | 0 => none
  | r + 1 => if m.decoded r c then some r else m.above c r
def CtuMap.below (m : CtuMap) (c : Nat) (r : Nat) : Nat → Option Nat
  | 0 => none
  | k + 1 => if m.decoded (r + 1) c then some (r + 1) else m.below c (r + 1) k

/-- A slice is taken in (R139): damaged where it breaks off, has an element out of range, names a parameter set that has not been received or overlaps CTUs
already decoded. One whose header cannot be parsed covers nothing. -/
def CtuMap.slice (m : CtuMap) (d : Decoder) (f : SliceFacts) : CtuMap :=
  if f.parsed = false then m
  else
    let bad := !f.ended || !f.inRange || (d.find 2 f.pps).isNone || f.ctus.any fun i => (m.at i).state == 0
    { m with ctus := f.ctus.zipIdx.foldl (fun l q =>
        if (m.at q.1).state = 0 then l
        else l.set q.1 { state := if bad then 1 else 0, list0 := f.list0.head?, uses := f.uses.getD q.2 [] }) m.ctus }

/-- The CTUs of an access unit's picture, those of lost work among them (R139, R455). -/
def Decoder.ctuMap (d : Decoder) (p : ParamSet) (a : CodecAu) (lost : List Nat) : CtuMap :=
  let cols := ceilDiv p.width (max 1 p.ctu)
  let rows := ceilDiv p.height (max 1 p.ctu)
  let m : CtuMap := a.slices.foldl (fun (m : CtuMap) f => m.slice d f)
    { cols, rows, ctus := List.replicate (cols * rows) { state := 2, list0 := none, uses := [] } }
  { m with ctus := lost.foldl (fun l i => l.set i { m.at i with state := 3 }) m.ctus }

/-- A picture with a slice of type P or B. -/
def interAu (a : CodecAu) : Bool := a.slices.any fun f => f.parsed && f.inter

/-- The picture that a concealed CTU is copied from: the first reference of its slice, else the most recent one in decoding order. -/
def Decoder.copyOf (d : Decoder) (p : ParamSet) (c : CtuState) : DpbPic × Bool × Bool :=
  match c.list0 with
  | some poc => d.refOf p poc
  | none => match d.dpb with | q :: _ => (q, false, false) | [] => (midPic p, true, true)

/-- The samples of a column that surround a CTU row, of a plane whose CTUs are `ch` rows high. -/
def CtuMap.around (m : CtuMap) (plane : Rows) (ch r c x : Nat) : Option (Nat × Nat) × Option (Nat × Nat) :=
  ((m.above c r).map fun q => ((q + 1) * ch - 1, Rows.at plane x ((q + 1) * ch - 1)),
   (m.below c r (m.rows - 1 - r)).map fun q => (q * ch, Rows.at plane x (q * ch)))

/-- A plane with its damaged and missing areas concealed. CTUs of it are `cw` by `ch`. -/
def Decoder.conceal (d : Decoder) (p : ParamSet) (a : CodecAu) (m : CtuMap) (plane : Rows) (ref : DpbPic → Rows) (cw ch : Nat) : Rows :=
  plane.zipIdx.map fun row => row.1.zipIdx.map fun v =>
    let r := row.2 / max 1 ch
    let c := v.2 / max 1 cw
    if m.decoded r c then v.1
    else if interAu a then Rows.at (ref (d.copyOf p (m.at (r * m.cols + c))).1) v.2 row.2
    else let n := m.around plane ch r c v.2; spatialConceal p.depth n.1 n.2 row.2

/-- The map byte of a CTU (R140). -/
def Decoder.mapByte (d : Decoder) (p : ParamSet) (a : CodecAu) (m : CtuMap) (i : Nat) : Byte :=
  let c := m.at i
  let r := i / max 1 m.cols
  let x := i % max 1 m.cols
  let refs := if c.state = 0 then c.uses.map (d.refOf p) else if interAu a then [d.copyOf p c] else []
  let action := if c.state = 0 then 0 else if interAu a then 1
    else if (m.above x r).isSome || (m.below x r (m.rows - 1 - r)).isSome then 2 else 3
  codecMapByte (c.state == 1) (c.state == 2) action (refs.any fun q => q.2.1) (refs.any fun q => q.2.2)

/-- An access unit decoded and concealed. -/
def Decoder.decode (d : Decoder) (p : ParamSet) (a : CodecAu) (lost : List Nat) (flags : Nat) : DpbPic :=
  let m := d.ctuMap p a lost
  let ch := if p.chroma = 1 then p.ctu else p.ctu / 2
  let map := (List.range (m.cols * m.rows)).map (d.mapByte p a m)
  { poc := a.poc, depth := p.depth, chroma := p.chroma, ref := a.isRef, slip := none, map, age := 0,
    y := d.conceal p a m a.y (·.y) p.ctu p.ctu,
    cb := if p.chroma = 2 then [] else d.conceal p a m a.cb (·.cb) (p.ctu / 2) ch,
    cr := if p.chroma = 2 then [] else d.conceal p a m a.cr (·.cr) (p.ctu / 2) ch,
    flags := flags + (if a.hashBad then 2 ^ 9 else 0) + substFlag map }

/-! ### The decoded picture buffer (R135) -/

/-- Pictures that wait for output. -/
def Decoder.waiting (d : Decoder) : List DpbPic := d.dpb.filter (·.slip.isSome)
/-- Pictures that hold a place: references, and those that wait. -/
def Decoder.held (d : Decoder) : List DpbPic := d.dpb.filter fun q => q.ref || q.slip.isSome
/-- What nobody needs leaves the buffer; the most recently decoded picture stays for R139. -/
def Decoder.tidy (d : Decoder) : Decoder :=
  { d with dpb := match d.dpb with | q :: r => q :: r.filter (fun v => v.ref || v.slip.isSome) | [] => [] }
/-- The bumping process puts a picture out: more wait than may be reordered, or one has waited for its latency. -/
def Decoder.bumps (d : Decoder) (p : ParamSet) : Bool :=
  decide (p.reorder < d.waiting.length) || (p.latency != 0 && d.waiting.any fun q => decide (p.latency ≤ q.age))
/-- The same, or no place is free. -/
def Decoder.full (d : Decoder) (p : ParamSet) : Bool := d.bumps p || decide (max 1 p.dpbSize ≤ d.held.length)

/-- The waiting picture that is first in output order. -/
def Decoder.first (d : Decoder) : Option DpbPic :=
  d.waiting.foldl (fun b q => match b with | some v => if q.poc < v.poc then some q else b | none => some q) none

/-- A picture no longer waits. -/
def State.unwait (s : State) (m : Nat) (slip : Option (Nat × Nat)) : State :=
  let d := (s.stream m).dec
  s.setStream m { s.stream m with dec := Decoder.tidy { d with dpb := d.dpb.map fun q => if q.slip = slip then { q with slip := none } else q } }

/-- The first waiting picture is put out, with the next picture number: whether it is done. It waits on while its buffer waits on a page fault. -/
def State.bumpOne (s : State) (m : Nat) : State × Bool :=
  let x := s.stream m
  match x.dec.first with
  | none => (s, true)
  | some q =>
    match q.slip.bind fun v => ((s.ring v.1).byId v.2).map fun t => (v.1, t) with
    | none => (s.unwait m q.slip, true)
    | some (n, t) =>
      if s.slipWaits n t then (s, false)
      else
        let (s, done) := s.writeDecoded n t { num := x.nextPic % 2 ^ 32, rows := q.y ++ q.cb ++ q.cr, map := q.map, flags := q.flags } s
        if done then ((s.setStream m { s.stream m with nextPic := (s.stream m).nextPic + 1 }).unwait m q.slip, true) else (s, false)

/-- Pictures are put out as long as a condition on the decoder holds. -/
def State.bumpWhile (s : State) (m : Nat) (p : Decoder → Bool) : Nat → State × Bool
  | 0 => (s, true)
  | f + 1 =>
    let d := (s.stream m).dec
    if p d && !d.waiting.isEmpty then
      match s.bumpOne m with
      | (s, true) => s.bumpWhile m p f
      | (s, false) => (s, false)
    else (s, true)
def State.putOut (s : State) (m : Nat) (p : Decoder → Bool) : State × Bool := s.bumpWhile m p (s.stream m).dec.dpb.length
/-- Every waiting picture is put out: at an IDR picture, a flush, a close. -/
def State.bumpAll (s : State) (m : Nat) : State × Bool := s.putOut m fun _ => true

end Sys2Proof.Machine
end

