-- ==== Sys2Proof/Machine/NalUnits.lean ====
section
/-! DEFINITION. Access units of the standard codecs as the encoders emit them: NAL units, parameter sets, VUI, slices, and the coding of guard
units in floor mode (R128 to R133, R171). -/
namespace Sys2Proof.Machine

/-! ### Levels of a stream (R130, R217) -/

/-- The bit rate that a stream's level is to admit, in kbit/s (R177, R217). -/
def Stream.levelRate (x : Stream) : Nat :=
  if x.kind = 6 then x.geo.maxRate else if x.rateP.rcMode = 1 then x.rateP.peakRate else x.rateP.targetRate

def Stream.levelAsk (x : Stream) : LevelAsk :=
  { codec := x.geo.codec, profile := x.geo.profile, tierLevel := x.geo.tierLevel, w := x.dims.1, h := x.dims.2,
    rateNum := x.geo.rateNum, rateDen := x.geo.rateDen, kbps := x.levelRate, decode := x.kind == 6 }

/-! ### What the parameter sets say (R128, R129, R132) -/

/-- The VUI (R132): range, colour description, chroma sample location where it is signalled, picture rate. -/
structure Vui where
  fullRange : Nat
  primaries : Nat
  transfer : Nat
  matrix : Nat
  chromaLoc : Option Nat
  rateNum : Nat
  rateDen : Nat
  deriving DecidableEq, Repr

/-- Colour description by TRANSFER and YCC_MATRIX (R132): primaries, transfer characteristics, matrix coefficients. -/
def colourOf (transfer ycc : Nat) : Nat × Nat × Nat :=
  match transfer with
  | 0 => (1, 1, if ycc = 1 then 9 else 1)
  | 1 => (9, 14, 9)
  | 2 => (9, 16, 9)
  | _ => (9, 18, 9)

/-- The VUI of a stream. A stream without PROOFING has pictures of the host, whose colour the specification does not say (log entry 123). -/
def Stream.vui (x : Stream) : Vui :=
  let c := match x.secs.proof with
    | some p => colourOf p.transfer p.ycc
    | none => (Config.hostColour 0, Config.hostColour 1, Config.hostColour 2)
  { fullRange := 0, primaries := c.1, transfer := c.2.1, matrix := c.2.2, chromaLoc := if x.is422 then none else some 0,
    rateNum := x.geo.rateNum, rateDen := x.geo.rateDen }

def Vui.code (v : Vui) : List Nat :=
  [v.fullRange, v.primaries, v.transfer, v.matrix] ++ (match v.chromaLoc with | some c => [1, c] | none => [0, 0]) ++ [v.rateNum, v.rateDen]

/-- The tools of a codec (R129), in the order of its table: block structure (CTU, least and greatest CU, multi-type tree depth); intra modes and
least and greatest block; references, merge candidates; transform sizes; QP change per CTU; sign data hiding; scaling lists; deblocking, SAO,
ALF; filtering across tile and slice boundaries; CABAC, WPP, dependent slices; weighted prediction, long-term references, PCM. -/
def codecTools (codec : Nat) : List Nat :=
  match codec with
  | 2 => [64, 8, 64, 0, 35, 4, 32, 2, 5, 4, 32, 1, 1, 0, 1, 1, 0, 0, 1, 0, 0, 0, 0, 0]
  | 3 => [128, 4, 128, 2, 67, 4, 64, 2, 6, 4, 64, 1, 1, 0, 1, 1, 1, 0, 1, 0, 0, 0, 0, 0]
  | _ => [16, 16, 16, 0, 9, 4, 16, 2, 0, 4, 8, 1, 0, 0, 1, 0, 0, 0, 1, 0, 0, 0, 0, 0]

/-- What a slice says (R128, R130, R133): intra or P, its picture order count, that it is an IDR picture, references by their distance, its place, and its
guard units. -/
structure SliceBody where
  inter : Bool
  idr : Bool
  poc : Nat
  refs : List Nat
  seg : Nat
  units : List UnitCode
  deriving DecidableEq, Repr

/-- NAL units of an access unit (R130). -/
inductive Nal where
  | aud
  | vps (level : Nat) (high : Bool)
  | sps (codec profile level : Nat) (high : Bool) (w h depth : Nat) (is422 : Bool) (key : Nat) (vui : Vui)
  | pps (cols rows : List Nat)
  | picHeader (inter : Bool) (poc : Nat)
  | sei (payload : List Byte)
  | slice (b : SliceBody)
  | hash (crc : List Nat)
  deriving DecidableEq, Repr

def flag (b : Bool) : Nat := if b then 1 else 0

def UnitMode.code : UnitMode → List Nat
  | .coded l => 0 :: l.length :: l
  | .skip n => [1, n]
  | .intraDc n => [2, n]
  | .pSkip => [3]
  | .i16Dc => [4]

def UnitCode.code (u : UnitCode) : List Nat := ofSigned 8 u.qp :: u.mode.code

def SliceBody.code (b : SliceBody) : List Nat :=
  [flag b.inter, flag b.idr, b.poc, b.refs.length] ++ b.refs ++ [b.seg] ++ b.units.flatMap UnitCode.code

/-- The contents of a NAL unit as numbers, for the payload that the codec's standard makes of them. -/
def Nal.code (codec : Nat) : Nal → List Nat
  | .aud => [codec, 0]
  | .vps level high => [codec, 1, level, flag high]
  | .sps c profile level high w h depth is422 key vui =>
    [codec, 2, c, profile, level, flag high, w, h, depth, flag is422, key] ++ codecTools codec ++ vui.code
  | .pps cols rows => [codec, 3, cols.length] ++ cols ++ [rows.length] ++ rows
  | .picHeader inter poc => [codec, 4, flag inter, poc]
  | .sei _ => [codec, 5]
  | .slice b => [codec, 6] ++ b.code
  | .hash crc => [codec, 7] ++ crc

/-- The header of a NAL unit in a codec: nal_unit_type of its standard, temporal layer 0, layer 0 (PRESUMED: the codes are the standards', log
entry 78). -/
def Nal.header (codec : Nat) (u : Nal) : List Byte :=
  match codec with
  | 2 =>
    let ty := match u with
      | .aud => 35 | .vps _ _ => 32 | .sps _ _ _ _ _ _ _ _ _ _ => 33 | .pps _ _ => 34 | .picHeader _ _ => 0 | .sei _ => 39 | .hash _ => 40
      | .slice b => if b.idr then 19 else 1
    [BitVec.ofNat 8 (2 * ty), 1#8]
  | 3 =>
    let ty := match u with
      | .aud => 20 | .vps _ _ => 14 | .sps _ _ _ _ _ _ _ _ _ _ => 15 | .pps _ _ => 16 | .picHeader _ _ => 19 | .sei _ => 23 | .hash _ => 24
      | .slice b => if b.idr then 8 else 0
    [0#8, BitVec.ofNat 8 (8 * ty + 1)]
  | _ =>
    [match u with
      | .aud => 0x09#8 | .vps _ _ => 0x00#8 | .sps _ _ _ _ _ _ _ _ _ _ => 0x67#8 | .pps _ _ => 0x68#8 | .picHeader _ _ => 0x00#8 | .sei _ => 0x06#8 | .hash _ => 0x06#8
      | .slice b => if b.idr then 0x65#8 else 0x61#8]

/-- Emulation prevention of a NAL unit's payload. -/
def emulate : Nat → List Byte → List Byte
  | _, [] => []
  | z, b :: r => if z = 2 ∧ b.toNat ≤ 3 then 3#8 :: b :: emulate (if b = 0#8 then 1 else 0) r
                 else b :: emulate (if b = 0#8 then z + 1 else 0) r

/-- A NAL unit in the byte stream: a 4-byte start code, its header, its payload (R130). The SEI message of R131 has its own bytes. -/
def Nal.bytes (codec : Nat) (u : Nal) : List Byte :=
  beBytes 4 1 ++ u.header codec ++ emulate 0 (match u with
    | .sei l => [5#8, BitVec.ofNat 8 l.length] ++ l ++ [0x80#8]
    | _ => Config.nalPayload (u.code codec))

/-! ### A stream's parameter sets, and what stands around the slices (R130) -/

/-- Level × 10 and tier that the stream signals. -/
def Stream.signalled (x : Stream) : Nat × Bool :=
  (match x.levelAsk.level with | some v => v.idc | none => x.geo.tierLevel % 128, x.levelAsk.high)

/-- Tile columns and rows of the PPS, in CTUs; none in AVC, which has no tiles. -/
def Stream.tiles (x : Stream) : List Nat × List Nat :=
  if x.geo.codec = 4 then ([], [])
  else ((List.range x.cut.grid.1).map fun i => (x.cut.colSpan i).2, (List.range x.cut.grid.2).map fun i => (x.cut.rowSpan i).2)

/-- The parameter sets of a stream, the same for its life: no VPS in VVC and AVC. -/
def Stream.paramSets (x : Stream) : List Nal :=
  let g := x.geo
  let v := x.signalled
  (if g.codec = 2 then [.vps v.1 v.2] else []) ++
  [.sps g.codec g.profile v.1 v.2 x.dims.1 x.dims.2 g.depth x.is422 g.keyInterval x.vui, .pps x.tiles.1 x.tiles.2]

/-- The NAL units before the slices of picture num. -/
def Stream.leadNals (x : Stream) (num : Nat) (sei : List Byte) : List Nal :=
  [.aud] ++ (if x.isKey num then x.paramSets else []) ++ (if x.geo.codec = 3 then [.picHeader (!x.isKey num) (num % x.geo.keyInterval)] else []) ++
  [.sei sei]

def nalBytes (codec : Nat) (l : List Nal) : List Byte := l.flatMap (Nal.bytes codec)

/-! ### Guard units and slices (R128, R166, R170, R171) -/

/-- Guard units in floor mode (R171). -/
def floorUnit (codec : Nat) (key : Bool) (bits : Nat) : UnitCode :=
  { mode := match codec with
      | 4 => if key then .i16Dc else .pSkip
      | 3 => if key then .intraDc 64 else .skip 128
      | _ => if key then .intraDc 32 else .skip 64
    qp := if codec = 3 then 63 else 51, bits }

/-- The slice of segment j of a picture (R128, R133): P slices of a picture that is no IDR picture, order counts from the last one on. -/
def Stream.slice (x : Stream) (num j : Nat) (units : List UnitCode) : Nal :=
  .slice { inter := !x.isKey num, idr := x.isKey num, poc := num % x.geo.keyInterval, refs := (x.refNums num).map fun r => num - r, seg := j, units }

end Sys2Proof.Machine
end

