-- ==== Sys2Proof/Machine/Stacks.lean ====
section
/-! DEFINITION. The Stacks: items, queues, cells (R383 to R396). -/
namespace Sys2Proof.Machine

/-! ### What a routine waits on (R425, R427) -/

/-- The WAIT conditions that a command here sets or ends: a complete item, an accepted BEGIN, a landed row, a checkpoint. -/
def waitItem : Nat := 2
def waitBegin : Nat := 3
def waitLine : Nat := 4
def waitCkpt : Nat := 8

/-- A routine waits on a condition, or no longer does (R425, R427): STATE is WAITING meanwhile (R435). -/
def State.setWait (s : State) (i w : Nat) : State :=
  if (s.engine i).work.isNone then s
  else if w = 0 then
    (if s.get (engState i) = stWaiting then (s.setEngine i { s.engine i with wait := 0 }).put (engState i) stRunning else s)
  else if s.get (engState i) = stRunning ∨ s.get (engState i) = stWaiting then
    (s.setEngine i { s.engine i with wait := w }).put (engState i) stWaiting
  else s

/-- A unit that runs a routine waits on a condition. -/
def State.waitFor (s : State) (u w : Nat) : State := match engineOf u with | some i => s.setWait i w | none => s
/-- The condition it waits on has come about. -/
def State.waitOver (s : State) (u w : Nat) : State :=
  match engineOf u with | some i => if (s.engine i).wait = w then s.setWait i 0 else s | none => s

/-! ### Queue registers (R405) -/

def Queue.enabled (q : Queue) : Bool := bitAt q.cfg 0
def Queue.cls (q : Queue) : Nat := bits q.cfg 1 2
def Queue.banks (q : Queue) : Nat := bits q.cfg 8 8
def Queue.high (q : Queue) : Nat := bits q.wmark 16 16
def Queue.low (q : Queue) : Nat := bits q.wmark 0 16
def Queue.producer (q : Queue) : Nat := bits q.grant 16 12
def Queue.consumer (q : Queue) : Nat := bits q.grant 0 12
def Queue.depth (q : Queue) : Nat := q.items.length
def Queue.holdsNone (q : Queue) : Bool := q.items.isEmpty && q.claimed.isEmpty

/-- Cells an item takes (R385). -/
def cellsOf (len : Nat) : Nat := ceilDiv len 256

/-- Cells taken from the banks of a mask, the lowest-numbered with a free cell first (R386): how many from each bank. -/
def takeCells (mask : Nat) : List Nat → Nat → Nat → Option (List Nat)
  | [], _, need => if need = 0 then some [] else none
  | f :: r, k, need =>
    let n := if bitAt mask k then min f need else 0
    (takeCells mask r (k + 1) (need - n)).map (n :: ·)

def State.bankFree (s : State) : List Nat := (List.range 8).map fun k => s.get (STK.BANK_FREE_CELLS k)

/-- The free counts less the cells taken. -/
def State.useCells (s : State) (banks : List Nat) : State :=
  let s := banks.zipIdx.foldl (fun s q => s.put (STK.BANK_FREE_CELLS q.2) (s.get (STK.BANK_FREE_CELLS q.2) - q.1)) s
  s.put STK.STK_STAT_CELLS (s.get STK.STK_STAT_CELLS - banks.sum)

/-! ### Grants (R357, R387, R388, R395) -/

/-- Requester class of a unit (R357). -/
def classOf (u : Nat) : Nat :=
  if (engineOf u).isSome then 3 else if 0xC0 ≤ u ∧ u ≤ 0xC9 then 1 else if u = 0xD0 ∨ u = 0xD1 then 0
  else if u = 0x170 then 4 else if u = 0x121 ∨ u = 0x122 then 5 else 7

/-- The map admits the unit to the queue's partition. -/
def State.partitionOpen (s : State) (u q : Nat) (write : Bool) : Bool :=
  s.bitOn (MMU.PMAP (classOf u)) (2 * (4 + q / 1024 % 4) + (if write then 1 else 0))

def State.unitFenced (s : State) (u : Nat) : Bool := match engineOf u with | some i => s.on (MMU.GRANT_FENCED i) | none => false

/-- A push or pop the unit may not make is refused as DENIED and counted (R388, R395); one that the protection map denies is
reported as well (R359). -/
def State.refuseDenied (s : State) (u q : Nat) (write : Bool) : State :=
  let s := s.bump STK.STK_ERR_REFUSED
  if s.partitionOpen u q write then s.bump MMU.DENY_COUNT_COUNT else s.deny (classOf u) q

def State.mayPush (s : State) (u q : Nat) (single : Bool) : Bool :=
  let g := (s.queue q).producer
  s.partitionOpen u q true && !s.unitFenced u && (g == u || (g == 0xFFF && single))
def State.mayPop (s : State) (u q : Nat) : Bool :=
  let g := (s.queue q).consumer
  s.partitionOpen u q false && !s.unitFenced u && (g == u || g == 0xFFF)

/-! ### Signals (R393) -/

/-- The watermark state and the timer follow a change of depth (R390, R393): a trip raises the sources that follow the queue. -/
def State.afterDepth (s : State) (n before : Nat) (popped : Bool) : State :=
  let q := s.queue n
  let s := if q.cls = 1 then
      (if q.tripped = false ∧ q.high < q.depth then (s.setQueue n { q with tripped := true }).raiseQueue n
       else if q.tripped = true ∧ q.depth ≤ q.low then s.setQueue n { q with tripped := false } else s)
    else if q.cls = 2 then
      (if (before = 0 ∧ q.depth ≠ 0) ∨ (popped = true ∧ q.depth ≠ 0) then s.setQueue n { q with timer := some s.ticks }
       else if q.depth = 0 then s.setQueue n { q with timer := none } else s)
    else s
  let q := s.queue n
  if q.disabling && q.holdsNone then s.setQueue n { q with cfg := q.cfg / 2 * 2, disabling := false } else s

/-! ### Pushes (R387 to R390) -/

def ansOk : Nat := 0
def ansFull : Nat := 1
def ansNoCell : Nat := 2
def ansOpenItem : Nat := 3
def ansDenied : Nat := 4

/-- The item a unit begins, with the placement it works under (R452). -/
def State.newItem (s : State) (u ty len : Nat) (banks : List Nat) : Item :=
  let e := match engineOf u with | some i => (s.get (engEpoch i), s.get (engProg i)) | none => (0, 0)
  { ty, len, producer := u, data := [], complete := false, work := (s.workOf u).map fun w => (w.1, w.2.1, w.2.2.1), epoch := e.1,
    chunk := e.2, banks }

/-- Why a BEGIN is refused, or the cells it takes (R388). -/
def State.beginResult (s : State) (u n len : Nat) (single : Bool) : Except Nat (List Nat) :=
  let q := s.queue n
  if q.enabled = false ∨ s.mayPush u n single = false then .error ansDenied
  else if q.items.any (fun it => it.producer == u && !it.complete) then .error ansOpenItem
  else if q.depth = q.limit % 65536 then .error ansFull
  else match takeCells q.banks s.bankFree 0 (cellsOf len) with
    | some b => .ok b
    | none => .error ansNoCell

/-- A BEGIN, or a push that begins and completes at once. -/
def State.beginItem (s : State) (u n ty len : Nat) (single : Option (List Byte)) : State :=
  match s.beginResult u n len single.isSome with
  | .error k =>
    let s := if k = ansDenied then s.refuseDenied u n true else s.bump STK.STK_ERR_REFUSED
    (if k = ansFull ∨ k = ansNoCell then s.waitFor u waitBegin else s).reply [k]
  | .ok banks =>
    let it := s.newItem u ty len banks
    let it := match single with | some d => { it with data := d.take len, complete := true } | none => it
    let q := s.queue n
    let s := (s.setQueue n { q with items := q.items ++ [it] }).useCells banks
    ((s.afterDepth n q.depth false).waitOver u waitBegin).reply [ansOk]

/-- BEGIN (R387, R388). A routine that is refused for want of room waits on OUT_BEGIN (R427). The answer is 0, or the refusal: 1 FULL, 2 NO_CELL, 3 OPEN_ITEM, 4 DENIED. -/
def execBegin (u n ty len : Nat) (s : State) : Host.Outcome State Fault Refusal := .next (s.beginItem u n ty len none)

/-- A data word of the producer's open item (R387); words of a truncated item are discarded (R394). -/
def execItemWordWrite (u n : Nat) (data : List Byte) (s : State) : Host.Outcome State Fault Refusal :=
  let q := s.queue n
  .next (s.setQueue n { q with items := q.items.map fun it =>
    if it.producer = u ∧ it.complete = false then { it with data := (it.data ++ data.take 32).take it.len } else it })

/-- END (R387, R394): completes the open item, or answers TRUNCATED after a flush. -/
def execEnd (u n : Nat) (s : State) : Host.Outcome State Fault Refusal :=
  let q := s.queue n
  if q.truncated.contains u then
    .next (((s.setQueue n { q with truncated := q.truncated.erase u }).bump STK.STK_ERR_TRUNCATED).reply [1])
  else
    .next ((s.setQueue n { q with items := q.items.map fun it =>
      if it.producer = u ∧ it.complete = false then { it with complete := true } else it }).reply [0])

/-- A single-operation push of at most 256 bytes (R387). -/
def execSingleOperationPush (u n ty : Nat) (data : List Byte) (s : State) : Host.Outcome State Fault Refusal :=
  .next (s.beginItem u n ty (min data.length 256) (some data))

/-! ### Pops (R389, R390, R452) -/

/-- The item's placement epoch is the one under which its chunk is placed now (R452). -/
def State.itemCurrent (s : State) (it : Item) : Bool :=
  match it.work with
  | none => true
  | some (n, p, j) =>
    match (s.stream n).pic p with
    | none => false
    | some pic =>
      let u := pic.unit j
      (u.chunks.any fun c => c.2 == (it.chunk, it.epoch)) || u.runs.any fun r => r.2 == it.epoch

/-- An item handed to its consumer. -/
def Item.answer (it : Item) : List Nat := [it.ty, it.len] ++ it.data.map BitVec.toNat

/-- A pop by unit u: the idle item, on which a routine waits on IN_ITEM (R427), from an empty queue or an open head; a late result is discarded whole and counted (R389, R452). -/
def State.popItem (s : State) (u n : Nat) (claim : Bool) : State :=
  let q := s.queue n
  if q.enabled = false ∨ s.mayPop u n = false then (s.refuseDenied u n false).reply [0, 0]
  else if claim && decide (16 ≤ (q.claimed.filter (·.1 == u)).length) then (s.bump STK.STK_ERR_REFUSED).reply [0, 0, 1]
  else match q.items with
    | [] => (s.waitFor u waitItem).reply [0, 0]
    | it :: rest =>
      if it.complete = false then (s.waitFor u waitItem).reply [0, 0]
      else if s.itemCurrent it then
        let s := s.setQueue n { q with items := rest, claimed := if claim then q.claimed ++ [(u, it)] else q.claimed }
        let s := if claim then s else s.freeCells it.banks
        ((s.afterDepth n q.depth true).waitOver u waitItem).reply it.answer
      else
        let s := (s.setQueue n { q with items := rest }).freeCells it.banks
        ((s.bump RGS.LATE_DISCARDS_COUNT).afterDepth n q.depth true).reply [0, 0]

/-- RELEASE of a claimed item, the kth of the consumer on the queue, frees its cells (R389). -/
def execItemRelease (u n k : Nat) (s : State) : Host.Outcome State Fault Refusal :=
  let q := s.queue n
  match (q.claimed.filter (·.1 == u))[k]? with
  | some c => .next (((s.setQueue n { q with claimed := q.claimed.erase c }).freeCells c.2.banks).afterDepth n q.depth false)
  | none => .next s

/-- Pop-claim (R389). The answer is the item's type, length and bytes, or the idle item; with 1 after it for CLAIM_LIMIT. -/
def execPopClaim (u n : Nat) (s : State) : Host.Outcome State Fault Refusal := .next (s.popItem u n true)

/-! ### Flush, timeout, disable (R393, R394, R405) -/

/-- A flush (R394): unpopped items and the open one are gone, the depth 0; claimed items stay. -/
def State.flushQueue (s : State) (n : Nat) : State :=
  let q := s.queue n
  let cut := (q.items.filter fun it => !it.complete).map (·.producer)
  let s' := s.setQueue n { q with items := [], truncated := q.truncated ++ cut }
  (q.items.foldl (fun s it => s.freeCells it.banks) s').afterDepth n q.depth false

def execFlush (n : Nat) (s : State) : Host.Outcome State Fault Refusal := .next (s.flushQueue n)

/-- A TIMEOUT queue's timer reaches its time with the queue not empty: its consumer is signalled once, and the timer restarts
(R393, R418). -/
def execQueueTimeout (n : Nat) (s : State) : Host.Outcome State Fault Refusal :=
  let q := s.queue n
  match q.timer with
  | some t =>
    if q.cls = 2 ∧ q.depth ≠ 0 ∧ q.tmo ≤ s.usSince t then .next ((s.setQueue n { q with timer := some s.ticks }).raiseQueue n)
    else .next s
  | none => .next s

/-- A write that clears Q_CFG.ENABLE takes effect once the queue holds no item (R405). -/
def execQueueDisable (n : Nat) (s : State) : Host.Outcome State Fault Refusal :=
  let q := s.queue n
  .next (s.setQueue n (if q.holdsNone then { q with cfg := q.cfg / 2 * 2, disabling := false } else { q with disabling := true }))

/-- A queue may be enabled (R393, R405): a bank named, a limit, LOW below HIGH in the WATERMARK class. -/
def Queue.mayEnable (q : Queue) : Bool := q.banks != 0 && q.limit != 0 && (q.cls != 1 || decide (q.low < q.high))

/-- A write of one of the queue registers behind QSEL (R405): ignored while the queue is enabled. -/
def State.writeQueueReg (s : State) (off v : Nat) : State :=
  let n := s.get STK.QSEL_QUEUE
  let q := s.queue n
  if q.enabled then s
  else if off = STK.Q_CFG then
    let c := bits v 8 8 * 256 + (if bits v 1 2 = 3 then bits q.cfg 1 2 else bits v 1 2) * 2
    let q := { q with cfg := c }
    s.setQueue n (if bitAt v 0 ∧ q.mayEnable then { q with cfg := c + 1 } else q)
  else if off = STK.Q_LIMIT then s.setQueue n { q with limit := v % 65536 }
  else if off = STK.Q_WMARK then s.setQueue n { q with wmark := v % 2 ^ 32 }
  else if off = STK.Q_TIMEOUT then (if 1 ≤ v % 16384 ∧ v % 16384 ≤ 10000 then s.setQueue n { q with tmo := v % 16384 } else s)
  else if off = STK.Q_GRANT then s.setQueue n { q with grant := bits v 16 12 * 65536 + bits v 0 12 }
  else s

/-- Q_STAT and Q_CELLS of the queue selected (R405). -/
def Queue.statWord (q : Queue) : Nat :=
  (if q.items.any (fun it => !it.complete) then 2 ^ 31 else 0) + (if q.tripped then 2 ^ 30 else 0) +
  (if q.items.isEmpty then 2 ^ 28 else 0) + q.claimed.length % 32 * 65536 + q.depth % 65536
def Queue.cells (q : Queue) : Nat := (q.items.map fun it => it.banks.sum).sum + (q.claimed.map fun c => c.2.banks.sum).sum

end Sys2Proof.Machine
end

