-- ==== Sys2Proof/Machine/Curators.lean ====
section
/-! DEFINITION. Curator pairs, the ICU, and the carrels' and scribes' routines (R408 to R433, R453). -/
namespace Sys2Proof.Machine

/-! ### The ICU (R419 to R422) -/

/-- The effective threshold of a hart (R420). -/
def State.effective (s : State) (h : Nat) : Nat :=
  max (s.get (ICU.THRESHOLD_LEVEL h)) (match (s.hart h).claims with | n :: _ => s.get (srcPriority n) | [] => 0)

/-- The source may be delivered to the hart (R419, R420). -/
def State.deliverable (s : State) (h n : Nat) : Bool :=
  s.on (srcPending n) && !s.on (srcClaimed n) && s.get (srcTarget n) == h && decide (s.effective h < s.get (srcPriority n))

/-- The source a claim takes: the highest priority, the lowest number among equals, 0 when there is none (R421). -/
def State.claimable (s : State) (h : Nat) : Nat :=
  ((rangeFrom 1 255).foldl (fun (b : Nat × Nat) n =>
    if s.deliverable h n && decide (b.2 < s.get (srcPriority n)) then (n, s.get (srcPriority n)) else b) (0, 0)).1

/-- MEIP of a hart (R420). -/
def State.meip (s : State) (h : Nat) : Bool := s.claimable h != 0

/-- A hart executes: it is neither held in reset, nor stopped, nor halted (R411, R499). -/
def State.hartRuns (s : State) (h : Nat) : Bool := !s.power.held && !(s.hart h).stopped && !(s.hart h).halted

/-- csrrw of mclaim (R421): the source claimed is pushed on the claim stack. The answer is its number, 0 for none. In U-mode the access of this M-mode
CSR is an illegal instruction. -/
def execMclaim (h : Nat) (s : State) : Host.Outcome State Fault Refusal :=
  let n := s.claimable h
  if s.hartRuns h = false then .next s
  else if (s.hart h).user then .next (s.trap h causeIllegal 0)
  else if n = 0 then .next (s.reply [0])
  else
    let s := (s.put (srcPending n) 0).put (srcClaimed n) 1
    .next ((s.setHart h { s.hart h with claims := n :: (s.hart h).claims }).reply [n])

/-- mcomplete (R421), an M-mode CSR: pops the source at the top of the stack; any other value is ignored and counted. -/
def execMcomplete (h n : Nat) (s : State) : Host.Outcome State Fault Refusal :=
  if s.hartRuns h = false then .next s
  else if (s.hart h).user then .next (s.trap h causeIllegal 0) else
  match (s.hart h).claims with
  | t :: r => if t = n then .next ((s.put (srcClaimed n) 0).setHart h { s.hart h with claims := r })
              else .next (s.bump ICU.ICU_ERR_BAD_COMPLETE)
  | [] => .next (s.bump ICU.ICU_ERR_BAD_COMPLETE)

/-- A write of ICU.SRCn (R422): ignored as a whole, and counted, where it changes the TARGET of a busy source. -/
def execSourceConfigWrite (n v : Nat) (s : State) : Host.Outcome State Fault Refusal :=
  if n = 0 ∨ 255 < n then .next s
  else if (s.on (srcPending n) ∨ s.on (srcClaimed n)) ∧ bits v 8 2 ≠ s.get (srcTarget n) then .next (s.bump ICU.ICU_ERR_TARGET_BUSY)
  else .next ((s.put (srcTarget n) (bits v 8 2)).put (srcPriority n) (bits v 0 4))

/-- A write of ICU.SWSET with SET (R418). -/
def execSwset (s : State) : Host.Outcome State Fault Refusal := .next (s.raise 255)

/-- Dater time reaches a hart's mtimecmp (R416). -/
def execTimerCompare (h : Nat) (s : State) : Host.Outcome State Fault Refusal := .next (s.checkTimer h)

/-! ### Pairs (R410 to R412) -/

/-- A lockstep mismatch of a pair (R411): the fault message, and the hart fails over, or stops where no spare pair is left. A
pair that carries no hart executes nothing. -/
def execLockstepMismatch (p : Nat) (s : State) : Host.Outcome State Fault Refusal :=
  match (List.range 4).find? fun h => s.get (hartPair h) == p && !(s.hart h).stopped with
  | none => .next s
  | some h =>
    let u := 0xC0 + 2 * p
    let s := s.reportAs u 0x20 (if s.on ICU.ICU_STAT_SPARE_LEFT then 2 else 3) none 0xFF 0 false
    .next (if s.power.held ∨ s.get (hartPair h) ≠ p ∨ (s.hart h).stopped = true then s else s.failover h)

/-! ### Control stores (R424, R425, R431 to R433) -/

/-- A microword with its parity bits: even parity over [63:0] and over [127:64] (R425, R431). -/
def withParity (w : Nat) : Nat :=
  w % 2 ^ 128 + parityOf w (List.range 64) * 2 ^ 128 + parityOf w (rangeFrom 64 64) * 2 ^ 129
def parityOk (w : Nat) : Bool := withParity w == w % 2 ^ 130

def State.copyOf (s : State) (i : Nat) : Tab Nat := if isCarrel i then s.copyCar else s.copyScb
/-- A word of a control store; a store that nothing has written holds words of 0, whose parity bits are 0. -/
def Engine.word (e : Engine) (a : Nat) : Nat := Tab.get (fun _ => 0) e.store a
/-- The reload engine writes a word from the protected copy (R431). -/
def State.reloadWord (s : State) (i a : Nat) : State :=
  let e := s.engine i
  let s := s.setEngine i { e with store := Tab.set (fun _ => 0) e.store a (Tab.get (fun _ => 0) (s.copyOf i) a) }
  (s.bump (engReloads i)).bump (csReloads i)
/-- The reload engine writes the whole store (R431). -/
def State.loadStore (s : State) (i : Nat) : State := s.setEngine i { s.engine i with store := s.copyOf i, parity := none }

/-- A microword fails parity on its fetch (R432): the routine is abandoned, the word reloaded and the routine restarted under a
C1 message; a C2 message where the same word fails again within 1 s or the protected copy reads as poisoned. -/
def execStoreParityError (i a : Nat) (copyPoisoned : Bool) (s : State) : Host.Outcome State Fault Refusal :=
  let detail := (s.engine i).work.map (·.1)
  let again := match (s.engine i).parity with | some (b, t) => b == a && decide (s.ticks - t < 250000000) | none => false
  let s := if s.routineHeld i then s.abandon i else s
  if again || copyPoisoned then
    .next ((s.bump (csFenced i)).report (unitOfEngine i) 0x0A detail a)
  else
    let s := s.reloadWord i a
    let s := s.setEngine i { s.engine i with parity := some (a, s.ticks) }
    .next (s.report (unitOfEngine i) 0x09 detail a)

/-- An idle unit reads its whole control store, and every word that fails parity is reloaded, under a C0 message (R433).
`upsets`: bits inverted in words of the store since its last scan. -/
def execStoreScan (i : Nat) (upsets : List (Nat × Nat)) (s : State) : Host.Outcome State Fault Refusal :=
  if s.get (engState i) = stIdle then
    let e := s.engine i
    let s := s.setEngine i { e with store := upsets.foldl (fun t q => Tab.set (fun _ => 0) t q.1 (Nat.xor (Tab.get (fun _ => 0) t q.1) q.2)) e.store }
    let bad := ((s.engine i).store.filter fun q => !parityOk q.2).map (·.1)
    let s := bad.foldl (fun s a => s.reloadWord i a) s
    .next (if bad.isEmpty then s else s.report (unitOfEngine i) 0x0B none (bad.headD 0))
  else .next s

/-! ### Routines (R428 to R430, R453) -/

/-- Items that a unit holds claimed go back to the heads of their queues (R395, R429). -/
def State.unclaimItems (s : State) (u : Nat) : State :=
  s.queues.foldl (fun s e =>
    let back := (e.2.claimed.filter (·.1 == u)).map (·.2)
    s.setQueue e.1 { e.2 with items := back ++ e.2.items, claimed := e.2.claimed.filter (·.1 != u) }) s

/-- The next placement epoch of a stream (R451). -/
def State.nextPlace (s : State) (n : Nat) : Nat := ((s.stream n).place + 1) % 65536

/-- The search of a unit's blocks under an earlier placement goes with that placement: it is made again (R150). -/
def Pic.dropSearch (p : Pic) (x : Stream) (j : Nat) : Pic :=
  { p with vectors := p.vectors.filter fun v => v.2.epoch.isNone || x.blockOwner v.1 != some j }

/-- Work is placed on an engine under a placement epoch, from a chunk (R24, R150, R451): the engine runs it. -/
def State.placeAt (s : State) (n p j run i prog e : Nat) : State :=
  let s := s.onPic n p fun q =>
    (q.setUnit j { q.unit j with runs := (q.unit j).runs ++ [(unitOfEngine i, e)] }).dropSearch (s.stream n) j
  let s := s.setEngine i { s.engine i with work := some (n, p, j, run), staging := [], wait := 0, offer := none }
  ((s.put (engState i) stRunning).put (engEpoch i) e).put (engProg i) prog
/-- The same under the stream's next placement epoch. -/
def State.place (s : State) (n p j run i prog : Nat) : State :=
  let e := s.nextPlace n
  (s.setStream n { s.stream n with place := e }).placeAt n p j run i prog e

/-- The placement of a unit on an engine ends: its epoch is no longer current (R452). -/
def State.unplace (s : State) (i : Nat) : State :=
  match (s.engine i).work with
  | some (n, p, j, _) =>
    (s.onPic n p fun q => q.setUnit j { q.unit j with runs := (q.unit j).runs.filter (·.1 != unitOfEngine i) }).setEngine i
      { s.engine i with work := none }
  | none => s

/-- An engine may take work: enabled, idle, not fenced, its domain on (R21, R440). -/
def State.engineFree (s : State) (i : Nat) : Bool :=
  s.engineEnabled i && s.get (engState i) == stIdle && !s.on (MMU.GRANT_FENCED i) && (s.engine i).work.isNone

/-- Spares of engine i's kind that the device is to hold: 4 carrels, 2 scribes, less those that have taken a fenced unit's place (R20, R27, R222). -/
def State.sparesWanted (s : State) (i : Nat) : Nat :=
  let fenced := ((List.range 86).filter fun j => isCarrel j == isCarrel i && s.engineEnabled j && s.on (MMU.GRANT_FENCED j)).length
  (if isCarrel i then 4 else 2) - (fenced - (if isCarrel i then s.gone.1 else s.gone.2))

/-- The engines that become spares beside those that are: the highest unit IDs of the kind that are free, as many as are wanting (R27). -/
def State.spareChoice (s : State) (i : Nat) : List Nat :=
  ((List.range 86).filter fun j => isCarrel j == isCarrel i && s.engineFree j && !s.on (engSpare j)).reverse.take
    (s.sparesWanted i - (s.sparesOf i).length)

/-- While some open stream is Spared or Paired, free engines take the spare roles that are wanting (R27). -/
def State.topSpares (s : State) : State :=
  if s.openStreams.any fun e => e.2.prot != 2 then
    ((s.spareChoice 0 ++ s.spareChoice 68).foldl (fun s i => s.put (engSpare i) 1) s).showSpares
  else s

/-- UNITk_CTL.INTERRUPT (R429): the routine is abandoned and restarts at once, a scribe from its last checkpoint with its
claimed items given back. -/
def State.interruptUnit (s : State) (i : Nat) : State :=
  if s.routineHeld i ∧ s.get (engState i) ≠ stFenced then
    let s := s.abandon i
    let s := if isCarrel i then s else s.unclaimItems (unitOfEngine i)
    s.put (engState i) stRunning
  else s
def execInterrupt (i : Nat) (s : State) : Host.Outcome State Fault Refusal := .next (s.interruptUnit i)

/-- UNITk_CTL.DROP (R429): the routine is discarded and the unit IDLE, its claimed items given back. Written by anyone but
firmware, the work is dispatched again to unit `to` with a new epoch, from the carrel's PROG or the scribe's last checkpoint. -/
def execDrop (i : Nat) (byFirmware : Bool) (dest : Nat) (s : State) : Host.Outcome State Fault Refusal :=
  match (s.engine i).work with
  | some (n, p, j, run) =>
    if s.get (engState i) = stFenced then .next s
    else
      let prog := s.get (engProg i)
      let ck := (s.engine i).ckpt
      let s := ((s.abandon i).unclaimItems (unitOfEngine i)).unplace i
      let s := s.put (engState i) stIdle
      if byFirmware then .next s
      else
        let k := if s.engineFree dest ∧ isCarrel dest = isCarrel i then dest else i
        let s := s.place n p j run k prog
        .next (if isCarrel i then s else s.setEngine k { s.engine k with ckpt := ck })
  | none => .next s

/-- A scribe writes a checkpoint of its coder state and then releases the items it has consumed (R453): the first `items` of
those it holds claimed. -/
def execScribeCheckpoint (i : Nat) (state : List Byte) (items : Nat) (s : State) : Host.Outcome State Fault Refusal :=
  let u := unitOfEngine i
  let s := (s.setEngine i { s.engine i with ckpt := some { state, items } }).waitOver u waitCkpt
  .next (s.queues.foldl (fun s e =>
    let mine := (e.2.claimed.filter (·.1 == u)).take items
    let s := s.setQueue e.1 { e.2 with claimed := mine.foldl (fun l c => l.erase c) e.2.claimed }
    mine.foldl (fun s c => s.freeCells c.2.banks) s) s)

/-- The WAIT conditions that the handshake watchdog runs on (R427): an acknowledgement, a sub-band of the local store, a staging entry, a checkpoint,
a helper. The others wait on another unit's progress and are not watched. -/
def waitWatched (w : Nat) : Bool := w == 1 || w == 6 || w == 7 || w == 8 || decide (16 ≤ w ∧ w ≤ 63)

/-- HANDSHAKE_WATCHDOG: a wait of 20 µs, the delay the watchdog allows (R10). A carrel or scribe waits on a condition of its microword and is
reported where the watchdog runs on it; a wait that is not watched goes on (R427). -/
def execHandshakeWatchdog (u : WaitIn) (s : State) : Host.Outcome State Fault Refusal :=
  match engineOf u.unit with
  | none => .next (s.report u.unit 0x01 none 0)
  | some i =>
    let s := s.setWait i u.cond
    .next (if s.get (engState i) = stWaiting ∧ waitWatched u.cond = true then s.report u.unit 0x01 ((s.workOf u.unit).map (·.1)) 0 else s)

end Sys2Proof.Machine
end

