-- ==== Sys2Proof/Machine/Gates.lean ====
section
/-! DEFINITION. Gate lists of the Ethernet ports and their place in Dater time (R299 to R301, R315), and the credit and token
accounts that run with time (R302, R304). -/
namespace Sys2Proof.Machine

def State.port (s : State) (p : Nat) : NetPort := Tab.get (fun _ => NetPort.init) s.net.ports p
def State.setPort (s : State) (p : Nat) (x : NetPort) : State :=
  { s with net := { s.net with ports := Tab.set (fun _ => NetPort.init) s.net.ports p x } }
def NetPort.cls (x : NetPort) (c : Nat) : NetClass := Tab.get (fun _ => NetClass.init) x.classes c
def NetPort.setCls (x : NetPort) (c : Nat) (k : NetClass) : NetPort :=
  { x with classes := Tab.set (fun _ => NetClass.init) x.classes c k }

/-! ### Gate lists -/

/-- The least m for which base + m × cycle is not before t (R300, R315). -/
def GateList.firstAt (l : GateList) (t : Nat) : Nat := if l.base < t then ceilDiv (t - l.base) l.cycle else 0

/-- The entries of one cycle as (start, end, gates): cut at the cycle's end, the last one held to it (R299). -/
def gateSpans : List (Nat × Nat) → Nat → Nat → List (Nat × Nat × Nat)
  | [], _, _ => []
  | [(g, _)], t, cycle => if t < cycle then [(t, cycle, g)] else []
  | (g, i) :: r, t, cycle => if t < cycle then (t, min (t + i) cycle, g) :: gateSpans r (t + i) cycle else []

def GateList.spans (l : GateList) : List (Nat × Nat × Nat) := gateSpans l.entries 0 l.cycle

/-- The gates of a list at a time, every gate open before its base. -/
def GateList.at (l : GateList) (t : Nat) : Nat :=
  if t < l.base then 255
  else match l.spans.find? fun e => decide (e.1 ≤ (t - l.base) % l.cycle ∧ (t - l.base) % l.cycle < e.2.1) with
    | some e => e.2.2
    | none => 255

/-- The gates in force at a time: those held since a change of the time, those of the operating list, or all open (R299, R315). -/
def NetPort.gates (x : NetPort) (t : Nat) : Nat :=
  match x.hold with
  | some (g, until_) => if t < until_ then g else match x.oper with | some l => l.at t | none => 255
  | none => match x.oper with | some l => l.at t | none => 255

/-- When the gate of class c, open at t, next closes under a list. -/
def GateList.closes (l : GateList) (c t : Nat) : Option Nat :=
  if t < l.base then
    match l.spans.find? fun e => !bitAt e.2.2 c with
    | some e => some (l.base + e.1)
    | none => none
  else
    let pos := (t - l.base) % l.cycle
    let start := t - pos
    match l.spans.find? fun e => decide (pos < e.2.1) && !bitAt e.2.2 c with
    | some e => some (start + max e.1 pos)
    | none =>
      match l.spans.find? fun e => !bitAt e.2.2 c with
      | some e => some (start + l.cycle + e.1)
      | none => none

/-- Somewhere in a cycle the gate of class c opens for long enough for w ns on the wire (R298). -/
def GateList.fits (l : GateList) (c w : Nat) : Bool :=
  l.spans.any fun e => bitAt e.2.2 c && (match l.closes c (l.base + e.1) with | some t => decide (l.base + e.1 + w ≤ t) | none => true)

/-- When the open gate of class c next closes on a port. -/
def NetPort.closes (x : NetPort) (c t : Nat) : Option Nat :=
  match x.oper with
  | none => none
  | some l =>
    match x.hold with
    | some (_, until_) => if t < until_ then (if bitAt (l.at until_) c then l.closes c until_ else some until_) else l.closes c t
    | none => l.closes c t

/-- Time for which class c is open in [0, d) of a cycle. -/
def GateList.openIn (l : GateList) (c d : Nat) : Nat :=
  (l.spans.map fun e => if bitAt e.2.2 c then min e.2.1 d - min e.1 d else 0).sum

/-- Time for which class c is open from the base up to t. -/
def GateList.openTo (l : GateList) (c t : Nat) : Nat :=
  (t - l.base) / l.cycle * l.openIn c l.cycle + l.openIn c ((t - l.base) % l.cycle)

/-- Time in [a, b) for which the gate of class c is open on a port. -/
def NetPort.openTime (x : NetPort) (c a b : Nat) : Nat :=
  let (held, a) := match x.hold with
    | some (g, until_) => (if bitAt g c then min until_ b - min a until_ else 0, max a (min until_ b))
    | none => (0, a)
  held + match x.oper with
    | none => b - a
    | some l => (min b l.base - min a l.base) + (l.openTo c b - l.openTo c a)

/-- The "gate open" request lines of a port follow its gates (R301, R376). -/
def State.showGates (s : State) (p : Nat) : State :=
  (List.range 8).foldl (fun s c => s.setLevel (18 + 8 * p + c) (bitAt ((s.port p).gates s.nowNs) c)) s

/-! ### Credit and tokens -/

/-- 1/8,000,000 byte, the unit of credit and tokens: what 1 kb/s gives in 1 ns. -/
def creditUnit : Nat := 8000000

/-- Credit of a class over a span in which the MAC sends it or not, `open_` being the time its gate is open (R302). -/
def State.credit (s : State) (p c : Nat) (k : NetClass) (sending : Bool) (open_ : Nat) : Int :=
  let idle := s.get (NET.CBS_IDLE_VALUE p c)
  let v : Int := if sending then k.credit - ((25000000 - idle) * open_ : Nat)
    else if k.queue.isEmpty then k.credit else k.credit + (idle * open_ : Nat)
  clampI v (-(s.get (NET.CBS_LO_VALUE p c) * creditUnit : Nat)) (s.get (NET.CBS_HI_VALUE p c) * creditUnit : Nat)

/-- Bring the credit of every shaped class and the tokens of every filter of a port up to now (R302, R304). -/
def State.account (s : State) (p : Nat) : State :=
  let t := s.nowNs
  let x := s.port p
  let (cls, e) := match x.busy with | some (c, e) => (c, max x.upto (min e t)) | none => (8, x.upto)
  let s := (List.range 8).foldl (fun s c =>
    if s.on (NET.CBS_IDLE_VALUE p c) then
      let x := s.port p
      let k := x.cls c
      let k := { k with credit := s.credit p c k (cls == c) (x.openTime c x.upto e) }
      let k := { k with credit := s.credit p c k false (x.openTime c e t) }
      (s.setPort p (x.setCls c k)).put (NET.CBS_CREDIT_VALUE p c) (ofSigned 32 (k.credit / (creditUnit : Nat)))
    else s) s
  let x := s.port p
  let tok := (List.range 16).foldl (fun (tab : Tab (Option Nat)) f =>
    match Tab.get (fun _ => none) tab f with
    | none => tab
    | some v =>
      let v' := v + s.get (NET.PSF_CIR_KBPS p f) * (t - x.upto)
      Tab.set (fun _ => none) tab f (if creditUnit * s.get (NET.PSF_CBS_BYTES p f) ≤ v' then none else some v')) x.tokens
  s.setPort p { x with tokens := tok, upto := max x.upto t }

/-! ### Change of the time (R315) -/

/-- A time of the block's own measure after the Dater time was changed from t0 to t1. -/
def rebase (t0 t1 x : Nat) : Nat := x + t1 - t0

/-- Instants of a cycle from `next` on that a change of the time to t has passed over. -/
def passedOver (next cycle t : Nat) : Nat := if next ≤ t then (t - next) / max 1 cycle + 1 else 0

/-- The first whole nanosecond at which an instant may fall after now (R315, R322): 10 µs ahead. -/
def State.leadNs (s : State) : Nat := 10000 + s.nowNs + (if s.time % 2 ^ 28 = 0 then 0 else 1)

/-- The alignment point reached last (R295). -/
def State.periodOf (s : State) (x : Stream) : Nat :=
  match x.secs.geo with
  | some g => ((s.nowNs + 1) * g.rateNum - 1) / (g.rateDen * 1000000000)
  | none => 0

/-- A flow goes on from the alignment point last reached under the new time; its pacing keeps its distances (R296, R297). -/
def State.alignFlow (s : State) (t0 t1 : Nat) (v : Flow) : Flow :=
  { v with period := s.periodOf (s.stream v.stream), lastStart := rebase t0 t1 v.lastStart }

/-- The port's list places its next instant 10 µs or more after the change; until then the gates stay as they are. An instant that a step
forward has passed over is counted as skipped and LATE set. -/
def State.alignGates (s : State) (p t0 t1 : Nat) : State :=
  let x := s.port p
  let g := x.gates t0
  let (hold, passed) := match x.oper with
    | some l =>
      (some (g, l.base + l.firstAt s.leadNs * l.cycle), if t0 < t1 then passedOver (l.base + l.firstAt (t0 + 1) * l.cycle) l.cycle t1 else 0)
    | none => (none, 0)
  let (start, m) := match x.pending with
    | some l => (l.base + l.firstAt s.leadNs * l.cycle, if t0 < t1 then passedOver x.start l.cycle t1 else 0)
    | none => (x.start, 0)
  let s := s.setPort p { x with
    hold, start, busy := x.busy.map fun b => (b.1, rebase t0 t1 b.2), upto := rebase t0 t1 x.upto,
    flows := x.flows.map fun e => (e.1, e.2.map (s.alignFlow t0 t1)),
    classes := x.classes.map fun e => (e.1, { e.2 with
      queue := e.2.queue.map fun f => { f with queued := rebase t0 t1 f.queued, due := rebase t0 t1 f.due }, blocked := e.2.blocked.map (rebase t0 t1) }) }
  if passed + m = 0 then s
  else (s.add (NET.GCL_STAT_SKIPPED p) (passed + m)).put (NET.GCL_STAT_LATE p) 1

end Sys2Proof.Machine
end

