-- ==== Sys2Proof/Machine/Dater.lean ====
section
/-! DEFINITION. The Dater: the counter and its commands, the servo, time outputs, the pulse per second, time inputs and the
alarm (R310 to R326). -/
namespace Sys2Proof.Machine

/-- Seconds are held in 48 bits. -/
def timeWrap : Nat := 2 ^ 48 * secUnits
/-- A time from the words of SEC_LO, SEC_HI and NS (R327). -/
def timeOf (lo hi ns : Nat) : Nat := (lo + hi % 65536 * 2 ^ 32) * secUnits + ns * 2 ^ 28 + hi / 65536 % 65536 * 2 ^ 12
def State.timeAt (s : State) (lo hi ns : Nat) : Nat := timeOf (s.rd lo).toNat (s.rd hi).toNat (bits (s.rd ns).toNat 0 30)
def State.alarmTime (s : State) : Nat := s.timeAt DAT.ALARM_SEC_LO DAT.ALARM_SEC_HI DAT.ALARM_NS

def State.tout (s : State) (t : Nat) : Tout := Tab.get (fun _ => Tout.init) s.dater.outs t
/-- Store an output; ACTIVE and PENDING follow it (R327). -/
def State.setTout (s : State) (t : Nat) (o : Tout) : State :=
  let s := { s with dater := { s.dater with outs := Tab.set (fun _ => Tout.init) s.dater.outs t o } }
  (s.put (DAT.TOUT_STAT_ACTIVE t) (if o.running.isSome then 1 else 0)).put (DAT.TOUT_STAT_PENDING t) (if o.pending.isSome then 1 else 0)

/-- Edges passed over are counted and LATE set (R315, R322, R323). -/
def State.skipEdges (s : State) (t k : Nat) : State :=
  if k = 0 then s else (s.add (DAT.TOUT_STAT_SKIPPED t) k).put (DAT.TOUT_STAT_LATE t) 1

/-! ### The alarm (R326) -/

/-- The alarm fires, late or on time. Firmware answers source 5 with a STATE slip where ALARM_EVT.EN asks for it (R418). -/
def State.fireAlarm (s : State) (late : Bool) : State :=
  let s := (s.put DAT.ALARM_CTL_FIRED 1).put DAT.ALARM_CTL_ARMED 0
  let s := if late then s.put DAT.ALARM_CTL_LATE 1 else s
  let s := s.raise 5
  let s := if s.on ICU.ALARM_EVT_EN then s.postEvent (s.get ICU.ALARM_EVT_RING) (eventSlip 0 none 5 0 [0xFF, 0x0301, 0, 0, 0]) else s
  if s.on DAT.ALARM_CTL_WAKE then s.wakeEvent 2 else s

/-- A write of ALARM_CTL.ARM (R326). -/
def execAlarmArm (s : State) : Host.Outcome State Fault Refusal :=
  let s := s.put DAT.ALARM_CTL_ARMED 1
  .next (if s.alarmTime < s.time then s.fireAlarm true else if s.alarmTime = s.time then s.fireAlarm false else s)

/-- A write of ALARM_CTL.DISARM (R326). -/
def execAlarmDisarm (s : State) : Host.Outcome State Fault Refusal := .next (s.put DAT.ALARM_CTL_ARMED 0)

/-- The Dater time reaches an armed alarm (R326). -/
def execAlarmFire (s : State) : Host.Outcome State Fault Refusal :=
  .next (if s.on DAT.ALARM_CTL_ARMED && decide (s.alarmTime ≤ s.time) then s.fireAlarm false else s)

/-! ### Schedules (R321 to R323) -/

/-- The least n whose edge lies at or after t, `none` where the schedule has no such edge. -/
def Sched.firstAt (c : Sched) (t : Nat) : Option Nat :=
  if t ≤ c.start then some 0
  else if c.num = 0 then none
  else some (ceilDiv ((t - c.start) * c.num) (1000000000 * c.den))

/-- The checks of R322. -/
def Sched.ok (c : Sched) (startNs : Nat) : Bool :=
  decide (startNs < 1000000000) && decide (8 ≤ c.width) &&
  (if c.num = 0 then decide (c.width ≤ 1000000000)
   else c.den != 0 && decide (1000 * c.num ≤ 1000000000 * c.den) && decide (1000000000 * c.den ≤ 10 ^ 12 * c.num) &&
     decide ((c.width + 8) * c.num ≤ 1000000000 * c.den))

/-- The schedule that the registers of output t describe. The fraction of START is ignored (R327). -/
def State.schedOf (s : State) (t : Nat) : Sched :=
  { start := 1000000000 * ((s.rd (DAT.TOUT_START_SEC_LO t)).toNat + 2 ^ 32 * ((s.rd (DAT.TOUT_START_SEC_HI t)).toNat % 65536)) +
      s.get (DAT.TOUT_START_NS_VALUE t),
    num := s.get (DAT.TOUT_RATE_NUM_VALUE t), den := s.get (DAT.TOUT_RATE_DEN_VALUE t), width := s.get (DAT.TOUT_WIDTH_NS_VALUE t), n := 0 }

/-- A write of TOUTt_CTL.ARM without DISARM (R322, R323). -/
def execTimeOutArm (t : Nat) (s : State) : Host.Outcome State Fault Refusal :=
  let c := s.schedOf t
  if c.ok (s.get (DAT.TOUT_START_NS_VALUE t)) = false then .next (s.put (DAT.TOUT_STAT_REFUSED t) 1)
  else
    match c.firstAt s.leadNs with
    | none =>
      .next (((s.put (DAT.TOUT_STAT_SKIPPED t) 1).put (DAT.TOUT_STAT_LATE t) 1).setTout t
        { s.tout t with pending := none, configured := true })
    | some n =>
      let s := s.put (DAT.TOUT_STAT_SKIPPED t) (min n 65535)
      let s := if n = 0 then s else s.put (DAT.TOUT_STAT_LATE t) 1
      .next (s.setTout t { s.tout t with pending := some { c with n := n }, configured := true })

/-- A write of TOUTt_CTL.DISARM (R323): the pulse in progress completes. -/
def execTimeOutDisarm (t : Nat) (s : State) : Host.Outcome State Fault Refusal :=
  .next (s.setTout t { s.tout t with running := none, pending := none })

/-- The schedule after an edge. -/
def Sched.after (c : Sched) : Option Sched := if c.num = 0 then none else some { c with n := c.n + 1 }

/-- The instant of the next edge of an output, of the running or the pending schedule. -/
def Tout.due (o : Tout) : Option Nat :=
  match o.running, o.pending with
  | some a, some b => some (min a.next b.next)
  | some a, none => some a.next
  | none, some b => some b.next
  | none, none => none

/-- An edge is recorded for every capture stream that the output triggers (R235). -/
def State.noteEdge (s : State) (t ns : Nat) : State :=
  s.openStreams.foldl (fun s e =>
    match e.2.secs.ingest with
    | some i => if i.trigger = t then s.setStream e.1 { e.2 with edges := (s.ticks, dtOf (ns * 2 ^ 28)) :: e.2.edges } else s
    | none => s) s

/-- The next leading edge of output t falls due (R321, R323): one edge where both schedules have one at the instant; within a
pulse it is not emitted. -/
def execTimeOutEdge (t : Nat) (s : State) : Host.Outcome State Fault Refusal :=
  let o := s.tout t
  match o.due with
  | none => .next s
  | some d =>
    if s.nowNs < d then .next s
    else
      let (cur, pending) := match o.pending with
        | some b => if b.next = d then (some b, none) else (o.running, some b)
        | none => (o.running, none)
      let busy := match o.pulse with | some e => decide (d < e) | none => false
      let width := match cur with | some c => c.width | none => 0
      let s := s.setTout t { o with running := cur.bind Sched.after, pending, pulse := if busy then o.pulse else some (d + width) }
      .next (if busy then s.skipEdges t 1 else ((s.request (34 + t)).raise (10 + t)).noteEdge t d)

/-- The pulse of output t ends after WIDTH_NS (R321). -/
def execTimeOutPulseEnd (t : Nat) (s : State) : Host.Outcome State Fault Refusal :=
  .next (match (s.tout t).pulse with
    | some e => if e ≤ s.nowNs then s.setTout t { s.tout t with pulse := none } else s
    | none => s)

/-! ### The pulse per second (R324) -/

/-- PPS_OUT may be high: enabled, and not gated by the servo's state. -/
def State.ppsOpen (s : State) : Bool := s.on DAT.PPS_CTL_ENABLE && (!s.on DAT.PPS_CTL_LOCK_GATE || s.get DAT.SERVO_STAT_STATE == 3)
/-- PPS_OUT is low while it may not be high. -/
def State.ppsUpdate (s : State) : State := if s.ppsOpen then s else { s with dater := { s.dater with pps := none } }

/-- A whole second of Dater time passes (R324). -/
def execPpsEdge (s : State) : Host.Outcome State Fault Refusal :=
  let start := s.nowNs / 1000000000 * 1000000000
  .next (if s.ppsOpen && decide (s.time % secUnits < s.get DAT.INCR_VALUE) && decide (s.dater.ppsFrom ≤ start) then
      { s with dater := { s.dater with pps := some (start + s.get DAT.PPS_CTL_WIDTH_MS * 1000000) } }
    else s)

/-- After WIDTH_MS PPS_OUT falls (R324). -/
def execPpsPulseEnd (s : State) : Host.Outcome State Fault Refusal :=
  .next (match s.dater.pps with
    | some e => if e ≤ s.nowNs then { s with dater := { s.dater with pps := none } } else s
    | none => s)

/-! ### Change of the time (R311, R315) -/

/-- An output's schedules place their next edges 10 µs or more after the change; a pulse in progress keeps its length. Edges that a step
forward has passed over are counted, and a single edge that is never emitted (R315, R322). -/
def State.alignOut (s : State) (t t0 t1 : Nat) : State :=
  let o := s.tout t
  let move := fun (c : Option Sched) =>
    match c with
    | none => (none, 0)
    | some c => match c.firstAt s.leadNs with
      | some n => (some { c with n := n }, if t0 < t1 then (c.firstAt (t1 + 1)).getD 0 - c.n else 0)
      | none => (none, 1)
  let (r, a) := move o.running
  let (p, b) := move o.pending
  (s.setTout t { o with running := r, pending := p, pulse := o.pulse.map (rebase t0 t1) }).skipEdges t (a + b)

/-- The time becomes `new`: STEPPED and STEPS, and every schedule, gate list, timer and the alarm under the new time. -/
def State.changeTime (s : State) (new : Nat) : State :=
  let t0 := s.nowNs
  let s := (List.range 2).foldl (fun s p => s.account p) s
  let s := { s with time := new % timeWrap }
  let t1 := s.nowNs
  let s := (s.put DAT.DAT_STAT_STEPPED 1).bump DAT.DAT_STAT_STEPS
  let s := (List.range 8).foldl (fun s t => if (s.tout t) = Tout.init then s else s.alignOut t t0 t1) s
  let s := (List.range 2).foldl (fun s p => s.alignGates p t0 t1) s
  let s := { s with dater := { s.dater with pps := s.dater.pps.map (rebase t0 t1), ppsFrom := s.leadNs } }
  let s := if s.on DAT.ALARM_CTL_ARMED then
      (if s.alarmTime < s.time then s.fireAlarm true else if s.alarmTime = s.time then s.fireAlarm false else s) else s
  (List.range 4).foldl (fun s h => s.checkTimer h) s

/-- The time is copied to SNAP_* (R311). -/
def State.snapshot (s : State) : State :=
  let s := s.putTime DAT.SNAP_SEC_LO DAT.SNAP_SEC_HI DAT.SNAP_NS s.now
  (s.put DAT.DAT_STAT_SNAP_VALID 1).put DAT.DAT_STAT_SNAP_SEQ (s.get DAT.DAT_STAT_SNAP_SEQ + 1)

/-- The time moved by a signed number of nanoseconds, no further back than 0 s, 0 ns (R311). -/
def stepped (t : Nat) (ns : Int) : Nat := (Int.ofNat t + ns * 2 ^ 28).toNat

/-- From the write of a SNAP until it takes effect no snapshot shows (R311). -/
def State.noSnapshot (s : State) : State :=
  ((s.put DAT.DAT_STAT_SNAP_VALID 0).wr DAT.SNAP_SEC_LO (BitVec.allOnes 32) |>.wr DAT.SNAP_SEC_HI (BitVec.allOnes 32)).wr DAT.SNAP_NS (BitVec.allOnes 32)

/-- The change of the time that a write asks for; `none` where it asks for none, or is ignored while the servo runs or its SET_NS is out of range
(R311, R312). -/
def State.changeOf (s : State) (set step : Bool) : Option TimeChange :=
  if s.get DAT.SERVO_STAT_STATE ≠ 0 then none
  else if set then (if 1000000000 ≤ s.get DAT.SET_NS_VALUE then none else some (.set (s.timeAt DAT.SET_SEC_LO DAT.SET_SEC_HI DAT.SET_NS)))
  else if step then some (.step (toSigned 32 (s.get DAT.STEP_NS_VALUE)))
  else none

/-- One write of DAT_CMD by the host or firmware outside the servo: it takes effect at the next tick (R311, R312). -/
def State.daterCmd (s : State) (snap set step : Bool) : State :=
  let c := s.changeOf set step
  let s := if (set || step) && c.isNone then s.put DAT.DAT_STAT_WRITE_IGNORED 1 else s
  let s := if snap then s.noSnapshot else s
  if snap || c.isSome then { s with dater := { s.dater with cmds := s.dater.cmds ++ [{ snap, change := c }] } } else s

/-- A command takes effect: SNAP captures the time before the change is applied (R311). -/
def State.runCmd (s : State) (c : DaterCmd) : State :=
  let s := if c.snap then s.snapshot else s
  match c.change with
  | some (.set t) => s.changeTime t
  | some (.step ns) => s.changeTime (stepped s.time ns)
  | none => s

/-- The SNAP command alone. -/
def execSnap (s : State) : Host.Outcome State Fault Refusal := .next (s.daterCmd true false false)
/-- The SET command, with SNAP and STEP written beside it or not. -/
def execSet (snap step : Bool) (s : State) : Host.Outcome State Fault Refusal := .next (s.daterCmd snap true step)
/-- The STEP command, with SNAP written beside it or not. -/
def execStep (snap : Bool) (s : State) : Host.Outcome State Fault Refusal := .next (s.daterCmd snap false true)

/-- Values of INCR that are taken (R310). -/
def incrOk (v : Nat) : Bool := decide (0x3FF7CED9 ≤ v ∧ v ≤ 0x40083127)

/-- A write of INCR (R310, R312). -/
def execIncrWrite (v : Nat) (s : State) : Host.Outcome State Fault Refusal :=
  if s.get DAT.SERVO_STAT_STATE ≠ 0 then .next (s.put DAT.DAT_STAT_WRITE_IGNORED 1)
  else if incrOk v then .next (s.put DAT.INCR_VALUE v)
  else .next s

/-! ### The servo (R316 to R319) -/

def State.servo (s : State) : Servo := s.dater.servo
def State.setServo (s : State) (v : Servo) : State := { s with dater := { s.dater with servo := v } }
def State.servoState (s : State) : Nat := s.get DAT.SERVO_STAT_STATE

/-- The span in progress ends: kept while the servo is in ACQUIRING or LOCKED (R318). -/
def State.closeSpan (s : State) : State :=
  let v := s.servo
  let keep := s.servoState == 2 || s.servoState == 3
  s.setServo { v with
    spans := if keep && v.since != s.ticks then (s.ticks - v.since, s.get DAT.INCR_VALUE, s.servoState == 3) :: v.spans else v.spans,
    since := s.ticks }

/-- The servo writes INCR. -/
def State.setIncr (s : State) (v : Nat) : State := s.closeSpan.put DAT.INCR_VALUE v

/-- The first `limit` ticks of the spans, and INCR summed over them. -/
def spanSum : List (Nat × Nat × Bool) → Nat → Nat × Nat
  | [], _ => (0, 0)
  | (d, v, _) :: r, limit =>
    let d' := min d limit
    let (n, a) := spanSum r (limit - d')
    (n + d', a + d' * v)

/-- INCR on entry to HOLDOVER (R318): the mean over the last 16 s spent in LOCKED; else over all of ACQUIRING and LOCKED since
ACQUIRING was entered from LISTENING; as it is where that is under 1 s. -/
def State.holdIncr (s : State) : Nat :=
  let sp := s.servo.spans
  let locked := spanSum (sp.filter fun e => e.2.2) (usTicks 16000000)
  let all := spanSum sp ((sp.map (·.1)).sum)
  if usTicks 16000000 ≤ locked.1 then locked.2 / locked.1
  else if usTicks 1000000 ≤ all.1 then all.2 / all.1
  else s.get DAT.INCR_VALUE

/-- The servo enters a state. -/
def State.enterServo (s : State) (st : Nat) : State :=
  let s := s.closeSpan
  let from_ := s.servoState
  let v := s.servo
  let s := s.setServo { v with good := 0, bad := 0, since := s.ticks, spans := if st = 2 ∧ from_ = 1 then [] else v.spans }
  let s := if st = 4 then s.put DAT.INCR_VALUE s.holdIncr else s
  (s.put DAT.SERVO_STAT_STATE st).ppsUpdate

/-- The order of data sets (R316): the first value that differs decides, the lower being the better. -/
def betterData : List Nat → List Nat → Bool
  | a :: l, b :: r => decide (a < b) || (a == b && betterData l r)
  | _, _ => false

/-- The best master of those heard (R316). -/
def bestMaster (l : List Master) : Option Master :=
  l.foldl (fun b m => match b with | none => some m | some a => if betterData m.data a.data then some m else some a) none

/-- The device's own data set (R316). -/
def ownData : List Nat := [128, 248, Config.ptpAccuracy, Config.ptpVariance, 128, Config.ptpIdentity, 0]

/-- PTP runs on the port. Bit 1 of PORTS is ignored on the DD-4808 (R327). -/
def State.ptpPort (s : State) (p : Nat) : Bool := bitAt (s.get DAT.PTP_CFG_PORTS) p && (p == 0 || s.big)
/-- The active port; while no master has been selected the lowest-numbered enabled one (R316; the latter DESIGN CHOICE, log entry 131). -/
def State.activePort (s : State) : Nat :=
  if s.ptpPort (s.get DAT.SERVO_STAT_PORT) then s.get DAT.SERVO_STAT_PORT else if s.ptpPort 0 then 0 else 1

/-- A master that the device follows: heard on an enabled port, and better than its own data set where it may be the master itself. -/
def State.follows (s : State) (m : Master) : Bool := s.ptpPort m.port && (s.on DAT.PTP_CFG_SLAVE_ONLY || betterData m.data ownData)

/-- The curators run, and with them the servo (R313). -/
def State.servoRuns (s : State) : Bool :=
  s.pwState != pwStandby && s.pwState != pwVault && (List.range 4).any s.hartRuns

/-- The port of the best master becomes the active port (R316). A measurement begun with another master is dropped. -/
def State.selectMaster (s : State) : State :=
  let v := s.servo
  match bestMaster v.masters with
  | none => s
  | some m =>
    let s := s.put DAT.SERVO_STAT_PORT m.port
    if v.master = some m.id then s
    else s.setServo { v with master := some m.id, sync := none, down := none, up := none, req := none }

/-- Masters that do not meet p are gone: the best of the others takes over, and without any the servo enters HOLDOVER (R317). -/
def State.keepMasters (s : State) (p : Master → Bool) : State :=
  let v := s.servo
  if v.masters.all p then s
  else
    let left := v.masters.filter p
    let s := s.setServo { v with masters := left }
    if left.isEmpty then
      let s := s.setServo { s.servo with master := none, sync := none, down := none, up := none, req := none }
      if s.servoState = 0 then s else s.enterServo 4
    else s.selectMaster

/-- A write of PTP_CFG starts or stops the servo, and masters that are followed no longer are gone (R316 to R318). -/
def State.servoPorts (s : State) : State :=
  if s.ptpPort 0 = false ∧ s.ptpPort 1 = false then
    (if s.servoState = 0 then s else (s.setServo { Servo.init with seq := s.servo.seq }).enterServo 0)
  else
    let s := s.keepMasters s.follows
    if s.servoState = 0 then s.enterServo 1 else s

/-- A port reaches announceReceiptTimeout (R317). While the curators are off the servo does not run (R313). -/
def execAnnounceTimeout (p : Nat) (s : State) : Host.Outcome State Fault Refusal :=
  .next (if s.servoRuns then s.keepMasters fun m => m.port != p else s)

/-- A Dater time as an integer of 2^-28 ns, with the resolution of port stamps, 0.25 ns (R319). -/
def State.portStamp (s : State) : Int := Int.ofNat (s.time / 2 ^ 26 * 2 ^ 26)
/-- A port correction, in 1/16 ns, as 2^-28 ns (R319). -/
def State.portLat (s : State) (f : Fld) : Int := toSigned 32 (s.get f) * 2 ^ 24
/-- Stamps as the servo uses them (R319). -/
def State.ingress (s : State) (p : Nat) : Int := s.portStamp - s.portLat (DAT.PORT_INGRESS_LAT_VALUE p)
def State.egress (s : State) (p : Nat) : Int := s.portStamp + s.portLat (DAT.PORT_EGRESS_LAT_VALUE p)

/-- An integer saturated to 32 bits of two's complement. -/
def sat32 (x : Int) : Nat := ofSigned 32 (clampI x (-2147483648) 2147483647)

/-- A slewing correction: INCR takes a value within ± 500 ppm that the servo's own filter gives, which the specification does
not state (R318). -/
def State.slew (s : State) : State :=
  let (v, s) := s.draw
  s.setIncr (0x3FF7CED9 + v % (0x40083127 - 0x3FF7CED9 + 1))

/-- A complete offset measurement, in 2^-28 ns (R318). -/
def State.measure (s : State) (off : Int) : State :=
  let mag := off.natAbs
  let s := s.put DAT.SERVO_OFFSET_VALUE (sat32 (off / 2 ^ 28))
  let lock := s.get DAT.SERVO_CFG_LOCK_NS * 2 ^ 28
  let step := fun (s : State) => s.changeTime (Int.ofNat s.time - off).toNat
  if s.servoState = 0 ∨ s.on DAT.DAT_STAT_REFCLK_OK = false then s
  else if s.servoState = 1 then step (s.enterServo 2)
  else
    let s := if s.servoState = 4 then s.enterServo 2 else s
    let v := s.servo
    let good := if mag ≤ lock then v.good + 1 else 0
    let bad := if 4 * lock < mag then v.bad + 1 else 0
    let s := s.setServo { v with good, bad }
    let s := if s.servoState = 2 ∧ 16 ≤ good then s.enterServo 3 else if s.servoState = 3 ∧ 4 ≤ bad then s.enterServo 2 else s
    let stepUs := s.get DAT.SERVO_CFG_STEP_US
    if stepUs ≠ 0 ∧ stepUs * 1000 * 2 ^ 28 < mag then step s else s.slew

/-- TIME_REFCLK stops or leaves its range (R314, R318). -/
def execTimeRefclkLost (s : State) : Host.Outcome State Fault Refusal :=
  if s.dater.refclk = false then .next s
  else
    let s := { s with dater := { s.dater with refclk := false } }
    let s := (s.put DAT.DAT_STAT_REFCLK_LOST 1).put DAT.DAT_STAT_REFCLK_OK 0
    let s := if s.servoState = 0 then s else s.enterServo 1
    .next (s.report 0x150 0x40 none 0)

/-- TIME_REFCLK returns (R314). -/
def execTimeRefclkReturn (s : State) : Host.Outcome State Fault Refusal :=
  .next ({ s with dater := { s.dater with refclk := true } }.put DAT.DAT_STAT_REFCLK_OK 1)

/-! ### Time inputs (R325) -/

def State.tin (s : State) (i : Nat) : List (Nat × Bool) := Tab.get (fun _ => []) s.dater.ins i
/-- Store a capture queue; VALID, COUNT, HEAD_RISING and CAP follow it. -/
def State.setTin (s : State) (i : Nat) (q : List (Nat × Bool)) : State :=
  let s := { s with dater := { s.dater with ins := Tab.set (fun _ => []) s.dater.ins i q } }
  let s := s.put (DAT.TIN_STAT_COUNT i) q.length
  match q with
  | [] => (((s.put (DAT.TIN_STAT_VALID i) 0).put (DAT.TIN_STAT_HEAD_RISING i) 0).wr (DAT.TIN_CAP_SEC_LO i) (BitVec.allOnes 32)
      |>.wr (DAT.TIN_CAP_SEC_HI i) (BitVec.allOnes 32)).wr (DAT.TIN_CAP_NS i) (BitVec.allOnes 32)
  | (t, r) :: _ => ((s.put (DAT.TIN_STAT_VALID i) 1).put (DAT.TIN_STAT_HEAD_RISING i) (if r then 1 else 0)).putTime
      (DAT.TIN_CAP_SEC_LO i) (DAT.TIN_CAP_SEC_HI i) (DAT.TIN_CAP_NS i) (dtOf t)

/-- An edge on TIME_INi that TINi_CTL.EDGE selects is captured, or counted where the queue is full (R325). -/
def execTimeInCapture (i : Nat) (rising : Bool) (s : State) : Host.Outcome State Fault Refusal :=
  if bitAt (s.get (DAT.TIN_CTL_EDGE i)) (if rising then 0 else 1) = false then .next s
  else if 16 ≤ (s.tin i).length then .next (s.bump (DAT.TIN_STAT_OVERFLOW i))
  else
    let s := (s.setTin i (s.tin i ++ [(s.time / 2 ^ 26 * 2 ^ 26, rising)])).raise (6 + i)
    .next (if s.on (DAT.TIN_CTL_WAKE i) then s.wakeEvent 1 else s)

/-- A write of TINi_CTL.POP (R325). SEQ counts entries removed. -/
def execTimeInPop (i : Nat) (s : State) : Host.Outcome State Fault Refusal :=
  match s.tin i with
  | [] => .next s
  | _ :: r => .next ((s.setTin i r).put (DAT.TIN_STAT_SEQ i) (s.get (DAT.TIN_STAT_SEQ i) + 1))

/-- One tick of the Dater clock: the time goes on, and the commands written before it take effect in order (R310, R311). -/
def State.tick (s : State) : State :=
  s.dater.cmds.foldl State.runCmd
    { s with time := (s.time + s.get DAT.INCR_VALUE) % timeWrap, ticks := s.ticks + 1, dater := { s.dater with cmds := [] } }

end Sys2Proof.Machine
end

