-- ==== Sys2Proof/Machine/View.lean ====
section
/-! DEFINITION. What a read of a BAR0 register returns. A read changes nothing (R5), so it is a function of the state and no command. -/
namespace Sys2Proof.Machine

/-- The index of a register within an array. -/
def regIndex (off base stride : Nat) : Nat := (off - base) / stride

/-- Units with an unacknowledged message of a class, saturating at 63 (R464). -/
def State.unackCount (s : State) (c : Nat) : Nat := min 63 (s.rgs.unack.filter fun a => a.cls == c).length
/-- RGS_STAT as it reads (R464). -/
def State.rgsStat (s : State) : Nat :=
  (if s.faultN then 2 ^ 31 else 0) + (if s.rgs.wrapped then 2 ^ 30 else 0) + s.unackCount 3 * 2 ^ 24 + s.unackCount 2 * 2 ^ 18 +
    s.unackCount 1 * 2 ^ 12 + s.unackCount 0 * 2 ^ 6

/-- The log entry that LOG_SEL shows (R464). -/
def State.logShown (s : State) : Option Msg :=
  let i := s.get RGS.LOG_SEL_INDEX
  if s.on RGS.LOG_SEL_HEAD then s.rgs.head[i % 16]? else s.rgs.log.find? fun m => m.seq == i

/-- The newest message held, for LOG_NEWEST (R464). -/
def State.logNewest (s : State) : Nat :=
  match s.rgs.log.head? with
  | some m => m.seq
  | none => match s.rgs.head.head? with | some m => m.seq | none => 0

/-- HR_MIN of the stream that HR_SEL selects (R450, R464). -/
def State.hrShown (s : State) : Nat :=
  let x := s.stream (s.get RGS.HR_SEL_VALUE)
  if x.kind = 1 ∧ x.state ≠ .closed then min x.hrMin 0xFF else 0xFF

/-- EFFECTIVEh (R423). -/
def State.effectiveWord (s : State) (h : Nat) : Nat :=
  (s.hart h).claims.headD 0 * 65536 + (s.hart h).claims.length % 16 * 256 + s.effective h % 16

/-- PORT_STAT as it reads: LOS and MODABS are the levels of the pins (R285, R309). -/
def State.portStat (s : State) (p : Nat) : Nat :=
  let c := Tab.get (fun _ => (false, false)) s.pads.cages p
  setBits (setBits (s.rd (NET.PORT_STAT p)).toNat 1 1 (if c.1 then 1 else 0)) 2 1 (if c.2 then 1 else 0)

/-- CBS_CREDIT of class c as it reads: the credit at the read (R302, R309). -/
def State.creditWord (s : State) (p c : Nat) : Nat := ((s.account p).rd (NET.CBS_CREDIT p c)).toNat

/-- The engine that a register of the CAR or SCB block belongs to. -/
def engineAt (off : Nat) : Nat := if off < 0x120000 then (off - 0x110100) / 0x10 else 68 + (off - 0x120100) / 0x10
/-- UNITk_STAT and UNITk_PROG as they read: UPC and ENTRY are those of the routine that the unit holds, and 0 while it holds none (R435). -/
def State.microWord (s : State) (off : Nat) : Nat :=
  let i := engineAt off
  let w := (s.rd off).toNat
  match (s.engine i).work with
  | none => w
  | some (n, p, j, run) =>
    if off % 16 = 4 then setBits w 4 11 (Config.microAddress [i, n, p, j, run, w, (s.rd (engReg i 8)).toNat, (s.rd (engReg i 12)).toNat, s.ticks] % 2048)
    else setBits w 16 11 (Config.routineEntry [i, n, p, j, run] % 2048)

/-- A read of a register: 0 where no block assigns the offset or the grade lacks the register, the shown state where the register is a window, the word held elsewhere
(R5 to R7, R23, R405, R423, R464, R465). -/
def State.readReg (s : State) (off : Nat) : Nat :=
  if (regDesc off).isNone || s.lacks off then 0
  else if off = RGS.RGS_STAT then s.rgsStat
  else if off = RGS.LOG_NEWEST then s.logNewest
  else if off = RGS.LOG_SEQ then (match s.logShown with | some m => 2 ^ 31 + m.seq | none => 0)
  else if RGS.LOG_W 0 ≤ off ∧ off ≤ RGS.LOG_W 3 then
    (match s.logShown with | some m => m.words.getD (regIndex off (RGS.LOG_W 0) 4) 0 | none => 0xFFFFFFFF)
  else if off = RGS.LOG_SEC then (match s.logShown with | some m => bits m.sec 16 32 | none => 0xFFFFFFFF)
  else if off = RGS.HR_MIN then s.hrShown
  else if off = CAT.UNIT_HELD_HI then (s.catUnit (s.get CAT.UNIT_SEL_UNIT)).seen.2.1 / 2 ^ 32
  else if off = CAT.UNIT_HELD_LO then (s.catUnit (s.get CAT.UNIT_SEL_UNIT)).seen.2.1 % 2 ^ 32
  else if off = CAT.UNIT_EXPECT_HI then (s.catUnit (s.get CAT.UNIT_SEL_UNIT)).seen.2.2 / 2 ^ 32
  else if off = CAT.UNIT_EXPECT_LO then (s.catUnit (s.get CAT.UNIT_SEL_UNIT)).seen.2.2 % 2 ^ 32
  else if off = CAT.UNIT_EPOCH then (s.catUnit (s.get CAT.UNIT_SEL_UNIT)).seen.1
  else if off = ICU.ICU_STAT then
    s.get ICU.ICU_STAT_SPARE_LEFT * 16 + ((List.range 4).map fun h => if s.meip h then 2 ^ h else 0).sum
  else if ICU.EFFECTIVE 0 ≤ off ∧ off ≤ ICU.EFFECTIVE 3 then s.effectiveWord (regIndex off (ICU.EFFECTIVE 0) 4)
  else if STK.Q_CFG ≤ off ∧ off ≤ STK.Q_CELLS then
    let q := s.queue (s.get STK.QSEL_QUEUE)
    if off = STK.Q_CFG then q.cfg
    else if off = STK.Q_LIMIT then q.limit
    else if off = STK.Q_WMARK then q.wmark
    else if off = STK.Q_TIMEOUT then q.tmo
    else if off = STK.Q_GRANT then q.grant
    else if off = STK.Q_STAT then q.statWord
    else if off = STK.Q_CELLS then q.cells
    else 0
  else if ((0x110100 ≤ off ∧ off < 0x110540) ∨ (0x120100 ≤ off ∧ off < 0x120220)) ∧ (off % 16 = 4 ∨ off % 16 = 8) then s.microWord off
  else if off = NET.PORT_STAT 0 ∨ off = NET.PORT_STAT 1 then s.portStat (regIndex off (NET.PORT_STAT 0) 0x8000)
  else if NET.PORT_CFG 0 ≤ off ∧ off < NET.PORT_CFG 0 + 0x10000 ∧ 0x100 ≤ off % 0x8000 ∧ off % 0x8000 < 0x180 ∧ off % 16 = 12 then
    s.creditWord (regIndex off (NET.PORT_CFG 0) 0x8000) (regIndex (off % 0x8000) 0x100 0x10)
  else (s.rd off).toNat

end Sys2Proof.Machine
end

