-- ==== Sys2Proof/Machine/Harts.lean ====
section
/-! DEFINITION. What a curator's program does to its core, its caches and memory, and pair checkpoints (R407, R410, R413 to R417). -/
namespace Sys2Proof.Machine

/-! ### Caches (R407, R413, R415) -/

/-- Lines of a curator cache: 32 KiB in lines of 64 bytes. -/
def cacheLines : Nat := 512
/-- The address of the cache block that holds an address. -/
def lineAt (addr : Nat) : Nat := addr / 64 * 64

/-- A line that has been changed is written to memory. -/
def State.writeBackLine (s : State) (l : CacheLine) : State := if l.dirty then (s.writeMem l.addr l.data).1 else s

/-- A hart's cache: of instructions, or of data. -/
def Hart.cache (k : Hart) (instr : Bool) : List CacheLine := if instr then k.icache else k.dcache
def Hart.setCache (k : Hart) (instr : Bool) (l : List CacheLine) : Hart := if instr then { k with icache := l } else { k with dcache := l }

/-- The line of an address is brought into a cache where it is not there; a full cache gives up its oldest line, written back where it is dirty. A
poisoned block is never installed: its address is the answer (R417). -/
def State.fillLine (s : State) (h addr : Nat) (instr : Bool) : State × Except Nat CacheLine :=
  let a := lineAt addr
  match ((s.hart h).cache instr).find? (·.addr == a) with
  | some l => (s, .ok l)
  | none =>
    let (s, lo, p) := s.readBlock (a / 32)
    let (s, hi, q) := s.readBlock (a / 32 + 1)
    if p then (s, .error a)
    else if q then (s, .error (a + 32))
    else
      let c := (s.hart h).cache instr
      let s := (c.drop (cacheLines - 1)).foldl State.writeBackLine s
      let l : CacheLine := { addr := a, data := lo ++ hi, dirty := false }
      (s.setHart h ((s.hart h).setCache instr (l :: c.take (cacheLines - 1))), .ok l)

/-- Bytes written within a line of the data cache. -/
def State.storeLine (s : State) (h : Nat) (l : CacheLine) (addr : Nat) (b : List Byte) : State :=
  let d := l.data.take (addr % 64) ++ b ++ l.data.drop (addr % 64 + b.length)
  s.setHart h { s.hart h with dcache := (s.hart h).dcache.map fun q => if q.addr = l.addr then { q with data := d, dirty := true } else q }

/-- The block of an address is written back where it is dirty, and stays. -/
def State.cboClean (s : State) (h addr : Nat) : State :=
  let s := ((s.hart h).dcache.filter (·.addr == lineAt addr)).foldl State.writeBackLine s
  s.setHart h { s.hart h with dcache := (s.hart h).dcache.map fun q => if q.addr = lineAt addr then { q with dirty := false } else q }
/-- The block of an address leaves the data cache, its changes lost. -/
def State.cboInval (s : State) (h addr : Nat) : State :=
  s.setHart h { s.hart h with dcache := (s.hart h).dcache.filter (·.addr != lineAt addr) }

/-! ### Accesses (R407, R413, R414, R417) -/

/-- What answers an access of a hart: memory through its caches, the host window, a register. -/
inductive CoreWay where
  | cached
  | window
  | register (off : Nat)
  deriving DecidableEq, Repr

/-- Where BAR0 lies for the curators (R413). -/
def coreBar0 : Nat := 0x020000000000

/-- An access of a hart is checked by its PMP, and by the protection map except where it is of a register; registers are M-mode's alone. `kind`: 0 read, 1 write,
2 fetch. `none`: an access fault. -/
def State.coreCheck (s : State) (h kind addr len : Nat) : State × Option CoreWay :=
  let k := s.hart h
  let c := if k.user then 2 else 1
  if pmpAllows k.regs.pmp k.user kind addr len = false then (s, none)
  else if coreBar0 ≤ addr ∧ addr < coreBar0 + 2 ^ 24 then (s, if k.user ∨ kind = 2 then none else some (.register (addr - coreBar0)))
  else
    match s.refusedBy c addr (kind == 1) with
    | some f => (if f = fltDenied then s.deny c addr else s, none)
    | none => if s.aperture addr = some 8 then (s, some .window) else (s, if s.on DRC.DRC_STAT_READY then some .cached else none)

/-- An access fault, and mpoison where it comes of a poison mark. -/
def State.poisonTrap (s : State) (h cause block : Nat) : State := (s.setHart h { s.hart h with poison := 1 }).trap h cause block

/-- A general register of a hart is written; x0 stays 0. -/
def State.setX (s : State) (h i v : Nat) : State :=
  if i = 0 ∨ 32 ≤ i then s
  else s.setHart h { s.hart h with regs := { (s.hart h).regs with x := (s.hart h).regs.x.set (i - 1) (v % 2 ^ 64) } }

/-- A load's value: of so many bytes, with their sign or with zeros above. -/
def loadValue (len v : Nat) (signed : Bool) : Nat := if signed then ofSigned 64 (toSigned (8 * len) v) else v % 2 ^ (8 * len)

/-- A load. -/
def State.coreLoad (s : State) (h rd addr len : Nat) (signed : Bool) : State :=
  if addr % len ≠ 0 then s.trap h causeLoadAlign addr
  else
    match s.coreCheck h 0 addr len with
    | (s, none) => if s.power.held then s else s.trap h causeLoadFault addr
    | (s, some (.register off)) => s.setX h rd (loadValue len (s.readReg (off / 4 * 4) / 2 ^ (8 * (off % 4))) signed)
    | (s, some .window) => let (s, b, _) := s.readPhys addr len; s.setX h rd (loadValue len (leNum b) signed)
    | (s, some .cached) =>
      match s.fillLine h addr false with
      | (s, .error b) => s.poisonTrap h causeLoadFault b
      | (s, .ok l) => s.setX h rd (loadValue len (leNum ((l.data.drop (addr % 64)).take len)) signed)

/-- A store. One to a register is a REGISTER_WRITE of its own. -/
def State.coreStore (s : State) (h addr len v : Nat) : State :=
  if addr % len ≠ 0 then s.trap h causeStoreAlign addr
  else
    match s.coreCheck h 1 addr len with
    | (s, none) => if s.power.held then s else s.trap h causeStoreFault addr
    | (s, some (.register _)) => s
    | (s, some .window) => (s.writePhys addr (leBytes len v)).1
    | (s, some .cached) =>
      match s.fillLine h addr false with
      | (s, .error b) => s.poisonTrap h causeStoreFault b
      | (s, .ok l) => s.storeLine h l addr (leBytes len v)

/-- An instruction is fetched through the instruction cache. -/
def State.coreFetch (s : State) (h addr : Nat) : State :=
  if addr % 2 ≠ 0 then s.trap h causeFetchAlign addr
  else
    match s.coreCheck h 2 addr 2 with
    | (s, some .cached) =>
      (match s.fillLine h addr true with
       | (s, .error b) => s.poisonTrap h causeFetchFault b
       | (s, .ok _) => s.setHart h { s.hart h with regs := { (s.hart h).regs with pc := addr } })
    | (s, _) => if s.power.held then s else s.trap h causeFetchFault addr

/-- A CSR is written; the ICU's and mckpt are commands of their own (R410, R417, R421). -/
def State.coreCsr (s : State) (h c v : Nat) : State :=
  let k := s.hart h
  let v := v % 2 ^ 64
  if c = 0x300 then s.setHart h { k with regs := { k.regs with mstatus := v } }
  else if c = 0x304 then s.setHart h { k with regs := { k.regs with mie := v } }
  else if c = 0x305 then s.setHart h { k with mtvec := v }
  else if c = 0x340 then s.setHart h { k with regs := { k.regs with mscratch := v } }
  else if c = 0x341 then s.setHart h { k with regs := { k.regs with mepc := v } }
  else if c = 0x342 then s.setHart h { k with regs := { k.regs with mcause := v } }
  else if c = 0x343 then s.setHart h { k with regs := { k.regs with mtval := v } }
  else if c = 0x7C3 then s.setHart h { k with poison := 0 }
  else s

/-- What a CSR reads (R410, R416, R417, R421): time is Dater time in nanoseconds, and mclaim the source that a claim would take. -/
def State.csrValue (s : State) (h c : Nat) : Nat :=
  let k := s.hart h
  if c = 0xC01 then s.nowNs % 2 ^ 64
  else if c = 0x300 then k.regs.mstatus
  else if c = 0x304 then k.regs.mie
  else if c = 0x305 then k.mtvec
  else if c = 0x340 then k.regs.mscratch
  else if c = 0x341 then k.regs.mepc
  else if c = 0x342 then k.regs.mcause
  else if c = 0x343 then k.regs.mtval
  else if c = 0x7C1 then s.claimable h
  else if c = 0x7C3 then k.poison
  else 0

/-- A PMP entry is written: not one that is locked. Bounds lie at whole units of 4 KiB (R407, R414). -/
def State.corePmp (s : State) (h i : Nat) (p : Pmp) : State :=
  let k := s.hart h
  if (k.regs.pmp.getD i Pmp.off).locked then s
  else s.setHart h { k with regs := { k.regs with pmp := k.regs.pmp.set i { p with lo := p.lo / 4096 * 4096, hi := p.hi / 4096 * 4096 } } }

/-- One effect of a hart's program. CSRs are M-mode's: a write of one in U-mode is an illegal instruction (R414). An ecall of an applet by a number that is none
of R187's returns −1; the others are rows of their own. -/
def State.coreOp (s : State) (h : Nat) (op : CoreOp) : State :=
  let k := s.hart h
  if s.hartRuns h = false then s else
  match op with
  | .setReg i v => s.setX h i v
  | .jump pc => s.setHart h { k with regs := { k.regs with pc := pc % 2 ^ 64 } }
  | .load rd addr len signed => if [1, 2, 4, 8].contains len then s.coreLoad h rd addr len signed else s
  | .store addr len v => if [1, 2, 4, 8].contains len then s.coreStore h addr len v else s
  | .fetch addr => s.coreFetch h addr
  | .cboClean addr => s.cboClean h addr
  | .cboFlush addr => (s.cboClean h addr).cboInval h addr
  | .cboInval addr => s.cboInval h addr
  | .fenceI => s.setHart h { k with icache := [] }
  | .setPmp i p => if k.user then s.trap h causeIllegal 0 else s.corePmp h i p
  | .setCsr c v => if k.user then s.trap h causeIllegal 0 else s.coreCsr h c v
  | .readCsr rd c => if k.user ∧ c ≠ 0xC01 then s.trap h causeIllegal 0 else s.setX h rd (s.csrValue h c)
  | .enterUser pc =>
    if k.user then s.trap h causeIllegal 0
    else
      let m := k.regs.mstatus
      s.setHart h { k with user := true, regs := { k.regs with mstatus := setBits (setBits (setBits m 3 1 (bits m 7 1)) 7 1 1) 11 2 0, pc := pc % 2 ^ 64 } }
  | .ecall num => if k.user ∧ (num < 0x100 ∨ 0x103 < num) then s.setX h 10 (2 ^ 64 - 1) else s

/-- A hart's program between two commands. -/
def State.coreRun (s : State) (h : Nat) (ops : List CoreOp) : State := ops.foldl (fun s op => s.coreOp h op) s

/-! ### Pair checkpoints (R410) -/

/-- Every dirty line is written back, and the hart's registers and its mtimecmp go to the save area. -/
def State.checkpoint (s : State) (h : Nat) : State :=
  let s := (s.hart h).dcache.foldl State.writeBackLine s
  let k := s.hart h
  s.setHart h { k with dcache := k.dcache.map (fun l => { l with dirty := false }),
                       save := { k.regs with mtimecmp := s.pair (ICU.MTIMECMP_LO h) (ICU.MTIMECMP_HI h) } }

/-- MCKPT: a write of mckpt takes a pair checkpoint. It is an M-mode CSR. `ops`: what the hart's program has done since the last one. -/
def execMckpt (h : Nat) (ops : List CoreOp) (s : State) : Host.Outcome State Fault Refusal :=
  if s.hartRuns h = false then .next s
  else
    let s := s.coreRun h ops
    if s.power.held then .next s
    else .next (if (s.hart h).user then s.trap h causeIllegal 0 else s.checkpoint h)

end Sys2Proof.Machine
end

