-- ==== Sys2Proof/Machine/Pictures.lean ====
section
/-! DEFINITION. Pictures in flight: their input, plans, statistics, coded bytes, return slips and end (R25, R71 to R90, R127 to R131, R141
to R144, R151 to R169, R178 to R183, R200). -/
namespace Sys2Proof.Machine

/-! ### Input (R113, R127, R141, R142) -/

def Pic.fresh (num : Nat) (key : Bool) (units leaves : Nat) : Pic :=
  { num, key, input := [], chromaB := [], chromaR := [], lands := [], crcs := List.replicate leaves none, expSrc := 1,
    stamps := List.replicate 6 DTime.none, epoch := 0, digest := 0, proof := none, src := none, plan := none, planStale := false,
    planFallback := false, units := [], unitCount := units, dispatched := false, evaluated := 0, trip := none, tripTick := 0, floor2 := none,
    finished := false, releasedUnits := 0, releaseTick := 0, released := false, folio := none, statsDropped := false, statsHeld := false,
    coarse := none, vectors := [], lambda := none, buf := 0, crcHash := [], linesDropped := false, unmasked := false, boundMissed := false, clamped := 0,
    slip := none, outLen := 0, addrFault := false, netStream := none, depart := none, notSent := false, slipWritten := false, readers := [] }

def Pic.stamp (p : Pic) (i : Nat) : DTime := p.stamps.getD i DTime.none
def Pic.setStamp (p : Pic) (i : Nat) (t : DTime) : Pic := { p with stamps := p.stamps.set i t }
def Pic.codes (p : Pic) : List Coded := (List.range p.unitCount).map fun j => (p.unit j).code
def Pic.allCommitted (p : Pic) : Bool := (List.range p.unitCount).all fun j => (p.unit j).committed
def Pic.redoneAny (p : Pic) : Bool := (List.range p.unitCount).any fun j => (p.unit j).redone

/-- The source of a developed picture: its stream's record and picture. -/
def State.sourceOf (s : State) (p : Pic) : Option (Stream × Pic) :=
  match p.src with
  | some (n, k) => ((s.stream n).pic k).map fun q => (s.stream n, q)
  | none => none

/-- The picture's samples as its encoder takes them: developed from the source's frame buffer where it is a developed picture (R113). -/
def State.inputOf (s : State) (x : Stream) (p : Pic) : Ycc :=
  match x.secs.proof, p.finished, s.sourceOf p with
  | some cur, false, some (y, q) => develop (p.proof.getD cur) y.seq q.input
  | _, _, _ => { y := p.input, cb := p.chromaB, cr := p.chromaR }

/-- Ticks at which its input rows landed. -/
def State.landsOf (s : State) (p : Pic) : List Nat := match s.sourceOf p with | some (_, q) => q.lands | none => p.lands
/-- Rows of input that the picture needs in all. -/
def State.inputRows (s : State) (x : Stream) (p : Pic) : Nat :=
  match s.sourceOf p with
  | some (y, _) => y.geo.height
  | none => if x.kind = 5 then x.geo.height else if p.src.isSome then p.lands.length else x.geo.height
/-- Every row has landed. -/
def State.allLanded (s : State) (x : Stream) (p : Pic) : Bool := decide (s.inputRows x p ≤ (s.landsOf p).length)

/-- The search picture (R141, R142). -/
def State.searchOf (s : State) (x : Stream) (p : Pic) : Rows :=
  if x.isKrema then yProxy x.seq p.input else lumaSearch x.geo.depth (s.inputOf x p).y
/-- The previous picture's search picture (R144). -/
def State.prevSearchOf (s : State) (x : Stream) (p : Pic) : Rows :=
  match x.pic (p.num - 1) with
  | some q => s.searchOf x q
  | none => match x.searched.find? (·.1 + 1 == p.num) with | some q => q.2 | none => []

/-- Columns and rows of search blocks (R156). -/
def Stream.blocks (x : Stream) : Nat × Nat :=
  if x.isKrema then (ceilDiv (x.geo.width / x.geo.period) 32, ceilDiv (x.geo.height / x.geo.period) 32)
  else (ceilDiv x.dims.1 32, ceilDiv x.dims.2 32)

/-- The vector record of a search block (R149, R151, R157). -/
def State.vectorOf (s : State) (x : Stream) (p : Pic) (b : Nat) : VecRec :=
  if x.searches p.num then
    let cols := x.blocks.1
    let cur := s.searchOf x p
    let r := searchBlock cur (s.prevSearchOf x p) (if x.isKrema then x.geo.period else 1) (p.lambda.getD x.statsP.lambda) (b % cols) (b / cols)
    let n := let q := searchRect 0 (b % cols) (b / cols) cur; q.w * q.h
    { x := r.1.1, y := r.1.2, sad := sadField r.2 n }
  else { x := 0, y := 0, sad := 0xFFFF }

/-- A block that no search has been made of. -/
def unsearched : Searched := { found := { x := 0, y := 0, sad := 0x10000 }, epoch := none }
/-- The record searched already, or what the search gives (R150). -/
def State.vectorAt (s : State) (x : Stream) (p : Pic) (b : Nat) : VecRec :=
  match Tab.get (fun _ => unsearched) p.vectors b with
  | v => if v = unsearched then s.vectorOf x p b else v.found

/-! ### Rate plans (R166 to R169, R178 to R183) -/

/-- Complexity of a guard unit: of the search blocks that cover it (R180). -/
def Stream.unitCplx (x : Stream) (r : Rect) : Nat :=
  if r.w = 0 ∨ r.h = 0 then 0 else
  let cols := x.blocks.1
  ((rangeFrom (r.y / 32) ((r.y + r.h - 1) / 32 - r.y / 32 + 1)).flatMap fun by' =>
    (rangeFrom (r.x / 32) ((r.x + r.w - 1) / 32 - r.x / 32 + 1)).map fun bx => x.cplx.getD (by' * cols + bx) 0).sum

/-- COARSE_CPLX of a picture as posted (R160), else the one posted last. -/
def Stream.coarseOf (x : Stream) (num : Nat) : Nat :=
  match x.coarse.find? (·.1 == num) with
  | some q => q.2
  | none => match x.coarse with | q :: _ => q.2 | [] => 0

/-- What the built-in firmware reads for picture num (R178 to R180). C is COARSE_CPLX / 16 while no complexity map has arrived. -/
def Stream.fwIn (x : Stream) (n num : Nat) : FwIn :=
  let r := x.rateP
  { stream := n, pic := num, key := x.isKey num, kremaV := x.isV, meanNum := x.meanBits.1, meanDen := x.meanBits.2, peakPerPic := x.peakBits,
    cpbBits := x.cpbBits, fullness := x.fullness, keyBoost := r.keyBoost, picCap := x.picCap, reserveQ8 := r.reserveQ8,
    rowDelta := r.rowDelta, quantMin := r.quantMin, quantMax := r.quantMax, samples := x.guardSamples.sum,
    kConst := if x.isKey num then x.kIntra else x.kInter, cNum := if num = 0 ∨ x.cplx = [] then x.coarseOf num else x.cplx.sum,
    cDen := if num = 0 ∨ x.cplx = [] then 16 else 32 * x.cplx.length, unitSamples := x.guardSamples,
    unitCplx := x.guardRects.map x.unitCplx, flatSizes := x.flatSizes }

/-- The plan the built-in firmware makes. -/
def Stream.fwPlan (x : Stream) (n num : Nat) : Plan := (x.fwIn n num).plan

/-- CONST_Q codes every unit at QUANT_INIT, whatever the plan says (R177). -/
def Stream.constQ (x : Stream) : Bool := x.isCodec && x.rateP.rcMode == 2
def Stream.govern (x : Stream) (p : Plan) : Plan :=
  if x.constQ then { p with quant := p.quant.map fun _ => x.rateP.quantInit } else p

def postOk : Int := 0
def postInvalid : Int := -2
def postLate : Int := -3
def postBusy : Int := -4

/-- A plan is posted (R167, R168): 0 accepted, −2 invalid, −3 late, −4 busy. Invalid and late plans are counted apart. -/
def State.postPlan (s : State) (n : Nat) (plan : Option Plan) : State × Int :=
  let x := s.stream n
  let drop : State := s.setStream n { x with planDrops := x.planDrops + 1 }
  match plan with
  | none => (drop, postInvalid)
  | some p =>
    let gone := match x.pic p.pic with | some q => q.dispatched | none => decide (p.pic < x.nextPic)
    if x.state = .closed ∨ x.rated = false ∨ (x.planReq n).valid p = false then (drop, postInvalid)
    else if gone then (s.setStream n { x with planLate := x.planLate + 1 }, postLate)
    else if x.plans.any fun q => q.pic == p.pic then
      (s.setStream n { x with plans := x.plans.map fun q => if q.pic = p.pic then p else q }, postOk)
    else if 2 ≤ x.plans.length then (s, postBusy)
    else (s.setStream n { x with plans := x.plans ++ [p] }, postOk)

/-- An applet plans the stream. -/
def Stream.appletOn (x : Stream) : Bool := match x.applet with | some a => a.active | none => false

/-- The call of rc_plan for a picture (R186). Its type is 0 for a key picture and 1 for another (DESIGN CHOICE, log entry 129). -/
def Stream.planCall (x : Stream) (a : Applet) (num : Nat) : AppletCall :=
  { entry := .rcPlan, picture := num, argLen := 32 + 12 * x.guardSamples.length, writable := true, tick := 0,
    args := [a.dataAt, num, if x.isKey num then 0 else 1, if num = 0 then x.coarseOf 0 else 0xFFFFFFFF, a.argsAt] }

/-- The moment of R183 for a picture: the applet that plans the stream is called, else the built-in firmware posts its plan. -/
def State.fwPost (s : State) (n num : Nat) : State :=
  let x := s.stream n
  if x.rated && x.state != .closed && x.appletOn then
    match x.applet with
    | some a => s.callDue n (x.planCall a num)
    | none => s
  else if x.rated && x.state != .closed then
    let s := (s.postPlan n (some (x.fwPlan n num))).1
    let f := x.fwIn n num
    s.setStream n { s.stream n with quants := ((num, f.quant, f.cNum, f.cDen) :: (s.stream n).quants).take 8 }
  else s

/-- The plan of a picture at its first dispatch (R168 step 4, R169). -/
def State.takePlan (s : State) (n : Nat) (p : Pic) : State × Pic :=
  let x := s.stream n
  if x.rated = false then (s, p)
  else
    match x.plans.find? (·.pic == p.num) with
    | some q => (s.setStream n { x with plans := x.plans.filter (·.pic != p.num), lastPlan := some q }, { p with plan := some (x.govern q) })
    | none =>
      match x.lastPlan with
      | some q =>
        let q := { q with pic := p.num }
        (s.setStream n { x with lastPlan := some q }, { p with plan := some (x.govern q), planStale := true })
      | none =>
        let caps := if x.isV then (List.range x.seq.leafCount).map (leafShare x.seq (max 1 x.rateP.ratioQ4)) else x.guardSamples.map fun _ => 0
        let q := fallbackPlan n p.num x.targetBytes x.guardSamples caps x.rateP.quantInit
        (s.setStream n { x with lastPlan := some q }, { p with plan := some q, planFallback := true })

/-! ### Floor mode (R170 to R174) -/

/-- Guard unit g is coded in floor mode. -/
def Pic.floorAt (p : Pic) (g : Nat) : Bool := match p.trip with | some t => decide (t < g) | none => false
/-- Leaf g is coded FLAT in floor stage 2. -/
def Pic.flatAt (p : Pic) (g : Nat) : Bool := match p.floor2 with | some t => decide (t < g) | none => false
/-- Floor guard units of a picture of U. -/
def Pic.floorUnits (p : Pic) (u : Nat) : Nat := match p.trip with | some t => u - 1 - t | none => 0
/-- Bits of the guard units of the units of work that stand committed, from the first on. -/
def Pic.guardBits (p : Pic) (x : Stream) : List (Option Nat) :=
  (List.range p.unitCount).flatMap fun j =>
    let u := p.unit j
    (List.range (x.guardsOf j).2).map fun k => if u.committed then some (u.code.gbits.getD k 0) else none
/-- Guard bits in guard order up to the first that is not committed. -/
def Pic.knownBits (p : Pic) (x : Stream) : List Nat := (p.guardBits x).takeWhile (·.isSome) |>.map (·.getD 0)

/-! ### Coded bytes (R71 to R87, R90, R130, R131) -/

def Pic.leafFlags (c : Coded) : Nat := (if c.unverified then 1 else 0) + (if c.floor then 2 else 0)

/-- The picture header of a Krema picture (R77, R78). -/
def Pic.header (p : Pic) (x : Stream) : PicHdr :=
  let refs := (x.refNums p.num).length
  let cs := p.codes
  { number := p.num, typeP := !p.key, refFlags := if refs = 0 then 0 else if refs = 1 then 1 else 3,
    flags := (if x.isV && cs.any (·.floor) then 1 else 0) + (if cs.any (·.unverified) then 2 else 0) + 4 * p.expSrc,
    exposure := p.stamp 0, epoch := p.epoch, digest32 := p.digest / 2 ^ 32, leafCount := p.unitCount,
    payloadLen := 4 * (p.unitCount + 1) + (cs.map (·.bytes.length)).sum }

/-- The colophon, over the payload (R85 to R87). -/
def Pic.colophon (p : Pic) (payload : List Byte) : Colophon :=
  { number := p.num, digest := p.digest, stamps := [p.stamp 0, p.stamp 1, p.stamp 2, p.stamp 3, DTime.none, DTime.none],
    leafCrcs := p.codes.map fun c => crc32c c.bytes, leafFlags := p.codes.map Pic.leafFlags, sha := sha256 payload }

/-- A Krema picture from its header through its colophon (R71). -/
def Pic.kremaBody (p : Pic) (x : Stream) : List Byte :=
  let payload := (p.header x).bytes ++ leafIndex (p.codes.map (·.bytes.length)) ++ p.codes.flatMap (·.bytes)
  payload ++ (p.colophon payload).bytes

/-- What Sub-frame latency releases after the last leaf (R90). -/
def Pic.kremaTail (p : Pic) (x : Stream) : List Byte :=
  let payload := (p.header x).bytes ++ leafIndex (p.codes.map (·.bytes.length)) ++ p.codes.flatMap (·.bytes)
  (p.header x).bytes ++ leafIndex (p.codes.map (·.bytes.length)) ++ (p.colophon payload).bytes

/-- The sequence header before a key picture. -/
def Pic.seqHeader (p : Pic) (x : Stream) : List Byte := if p.key then x.seq.header else []

/-- EXPOSURE_TIME of the user data SEI message (R131): of a developed picture its source's, of a host picture the time in its call slip, all ones
where the slip says so. -/
def Pic.seiTime (p : Pic) : DTime := if p.src.isNone ∧ p.expSrc = 3 then DTime.none else p.stamp 0

/-- The 40-byte payload of the user data SEI message (R131). -/
def Pic.seiPayload (p : Pic) : List Byte :=
  beBytes 16 0x8c3f5e217a4d4b90b6e219d04c7a5f38 ++ p.seiTime.bytes ++ beBytes 4 p.epoch ++ beBytes 4 (p.digest / 2 ^ 32) ++
  beBytes 4 (match p.src with | some (_, k) => k | none => 0xFFFFFFFF)

/-- What stands before the slices of an access unit, and after them: the decoded picture hash in HEVC and VVC (R130). -/
def Pic.lead (p : Pic) (x : Stream) : List Byte := nalBytes x.geo.codec (x.leadNals p.num p.seiPayload)
def Pic.trail (p : Pic) (x : Stream) : List Byte := if x.geo.codec = 4 then [] else nalBytes x.geo.codec [.hash p.crcHash]

/-- An access unit (R130). -/
def Pic.accessUnit (p : Pic) (x : Stream) : List Byte := p.lead x ++ p.codes.flatMap (·.bytes) ++ p.trail x

/-- The coded picture as released in Frame latency. -/
def Pic.coded (p : Pic) (x : Stream) : List Byte :=
  if x.isKrema then p.seqHeader x ++ p.kremaBody x else if x.kind = 7 then p.codes.flatMap (·.bytes) else p.accessUnit x

/-! ### Statistics (R155 to R163, R181) -/

def fwUnit : Nat := 0xC0

/-- The folio of a picture is allocated at its first dispatch (R163). -/
def State.allocStats (s : State) (n : Nat) (p : Pic) : State × Pic :=
  let st := (s.stream n).statsP
  if st.sections = 0 then (s, p)
  else
    match s.allocate st.pool fwUnit with
    | (s, some h) => (s, { p with folio := some h })
    | (s, none) => (s, { p with statsDropped := true })

/-- Bits records (R159). -/
def Pic.bitsRecs (p : Pic) (x : Stream) : List BitsRec :=
  if x.isKrema then
    (List.range p.unitCount).map fun j =>
      let u := p.unit j
      { bits := u.code.gbits.sum, quant := u.code.quant, kind := u.code.kind,
        flags := (if u.code.floor then 1 else 0) + (if u.redone then 2 else 0) + (if u.code.unverified then 4 else 0) }
  else
    (List.range x.cut.rows).map fun row =>
      let js := (List.range p.unitCount).filter fun j => decide ((x.cut.segRows j).1 ≤ row ∧ row < (x.cut.segRows j).1 + (x.cut.segRows j).2)
      let at' := fun j => (p.unit j).code.gbits.getD (row - (x.cut.segRows j).1) 0
      let g := match js with | j :: _ => (x.cut.guards j).1 + (row - (x.cut.segRows j).1) | [] => 0
      let floor := js.any fun j => p.floorAt ((x.cut.guards j).1 + (row - (x.cut.segRows j).1))
      let q : Int := if p.floorAt g then (if x.geo.codec = 3 then 63 else 51) else match p.plan with | some r => r.quant.getD g 0 | none => 0
      { bits := (js.map at').sum, quant := ofSigned 8 q, kind := 0,
        flags := (if floor then 1 else 0) + (if js.any fun j => (p.unit j).redone then 2 else 0) }

/-- The folio's contents. -/
def State.statsOf (s : State) (n : Nat) (p : Pic) : StatsFolio :=
  let x := s.stream n
  let cur := s.searchOf x p
  let bl := x.blocks
  { source := if x.isKrema then 0 else if x.kind = 4 then 1 else 2, sections := x.statsP.sections, stream := n,
    flags := (if x.searches p.num then 0 else 1) + (if p.trip.isSome then 2 else 0) + (if p.redoneAny then 4 else 0),
    picNumber := p.num, cols := bl.1, rows := bl.2, coarse := coarseCplx cur, pictureBits := 8 * (p.coded x).length, epoch := p.epoch,
    histSrc := x.statsP.histSrc, lambda := p.lambda.getD x.statsP.lambda, vectors := (List.range (bl.1 * bl.2)).map fun b => s.vectorAt x p b,
    cplx := (List.range (bl.1 * bl.2)).map fun b => blockCplx cur (searchRect 0 (b % bl.1) (b / bl.1) cur),
    bitsRecs := p.bitsRecs x, hist := histogram (histValues x.statsP.histSrc x.seq p.input cur) }

/-- Fullness after a picture of known size (R178, R181). -/
def Stream.updateFullness (x : Stream) (bits : Nat) : Stream := { x with fullness := x.fullness + Int.ofNat x.peakBits - Int.ofNat bits }

/-! ### Return slips (R200, R544) -/

def Pic.pflags (p : Pic) : Nat :=
  let b := fun (c : Bool) (i : Nat) => if c then 2 ^ i else 0
  b p.trip.isSome 0 + b p.planStale 1 + b p.planFallback 2 + b p.statsDropped 3 + b (p.codes.any (·.unverified)) 4 + b p.redoneAny 5 +
  b p.boundMissed 6 + b p.unmasked 11 + b p.linesDropped 12 + b p.notSent 13

/-- Whole nanoseconds of a stamp. -/
def nanosOf (t : DTime) : Nat := t.sec.toNat * 1000000000 + t.ns.toNat

/-- DEPART. -/
def Pic.departField (p : Pic) : Nat :=
  match p.depart with
  | some t => let d := (t - nanosOf (p.stamp 0)) / 1000; if p.notSent ∨ 65535 ≤ d then 0xFFFF else d
  | none => 0xFFFF

/-- Words 2 to 6. `u`: guard units of the picture; `toHost`: STATS_TO_HOST. -/
def Pic.slipWords (p : Pic) (u : Nat) (toHost : Bool) : List Nat :=
  let redo := ((List.range p.unitCount).map fun j => (p.unit j).redoneFloor).sum
  let capped := (p.codes.filter (·.capped)).length
  [p.num, p.outLen, if toHost then p.folio.getD 0 else 0, p.floorUnits u % 65536 + min redo 255 * 2 ^ 16 + min capped 255 * 2 ^ 24,
   p.pflags + p.departField * 2 ^ 16]

/-- The picture's slip may be written (R163, R200). -/
def Pic.slipDue (p : Pic) (toHost : Bool) : Bool :=
  p.released && !p.slipWritten && (!toHost || !p.statsHeld) && (p.netStream.isNone || p.depart.isSome || p.notSent)

/-- The RECORD_START that began recording a picture has not had its completion written. -/
def State.recordWaits (s : State) (n num : Nat) : Bool :=
  s.bnd.takes.any fun t => t.stream == n && decide (t.first ≤ num) &&
    (t.slip.isSome || s.rings.any fun r => r.2.compl.any fun c => c.opcode == 0x07 && c.stream == some n && c.status == 0)

/-- Write a picture's slip where it is due. -/
def State.picSlip (s : State) (n : Nat) (p : Pic) : State :=
  let x := s.stream n
  let w := p.slipWords x.guardCount x.statsP.toHost
  let extra := min p.clamped 4095
  if p.slipDue x.statsP.toHost = false then s
  else
    let done := s.onPic n p.num fun q => { q with slipWritten := true }
    match p.slip with
    | some (rp, id) =>
      match (s.ring rp).byId id, (s.ring rp).placeOf id with
      | some t, some k =>
        if s.mayComplete rp k t then
          let cap := t.word 7
          let st := if p.addrFault then stAddressFault else if cap < p.outLen then 0x0013 else if p.unmasked then stUnmasked else stSuccess
          done.finish rp t st extra w
        else s
      | _, _ => done
    | none =>
      -- a PICTURE slip follows the completion of the RECORD_START that began recording it, once that is written (R208)
      if s.recordWaits n p.num then s
      else if x.kind = 1 ∧ (x.pictureEventsOn = 1 ∨ (x.pictureEventsOn = 2 ∧ p.pflags ≠ 0)) then
        done.streamEvent n (if p.unmasked then stUnmasked else stSuccess) 1 extra w
      else done

/-- A picture leaves the stream once nobody needs it. -/
def Pic.spent (p : Pic) : Bool := p.released && p.slipWritten && p.readers.isEmpty && !p.statsHeld

/-- The slips of a stream's pictures, in order, and the end of those that are spent. -/
def State.settle (s : State) (n : Nat) : State :=
  let s := (s.stream n).pics.foldl (fun s p => match (s.stream n).pic p.num with | some q => s.picSlip n q | none => s) s
  s.setStream n { s.stream n with pics := (s.stream n).pics.filter fun p => !p.spent }

/-- A reader of a picture has released it (R232). -/
def State.dropReader (s : State) (n num who : Nat) : State :=
  (s.onPic n num fun q => { q with readers := q.readers.erase who }).settle n

/-- A developed picture lets go of its source. -/
def State.leaveSource (s : State) (n : Nat) (p : Pic) : State :=
  match p.src with
  | some (m, k) => s.dropReader m k n
  | none => s

/-- The first packet of a network stream's picture departs, or never will (R200). -/
def State.firstPacket (s : State) (d num : Nat) (at' : Option Nat) : State :=
  match ((s.stream d).pic num).bind (·.src) with
  | some (m, k) =>
    let s := s.onPic m k fun q =>
      if q.netStream = some d ∧ q.depart.isNone ∧ q.notSent = false then
        (match at' with | some t => { q with depart := some t } | none => { q with notSent := true })
      else q
    s.settle m
  | none => s

/-! ### A picture begins (R78, R213, R234) -/

/-- Streams that are open and developed from stream n, ascending. -/
def State.developed (s : State) (n : Nat) : List (Nat × Stream) :=
  s.openStreams.filter fun e => e.2.isDeveloped && e.2.geo.source == n && e.2.state == .opened

/-- The picture of a developed stream for a picture of its source, whose exposure time it keeps (R78, R131, R213). -/
def State.developPic (s : State) (n : Nat) (q : Pic) (d : Nat) : State :=
  let y := s.stream d
  let paths := match y.secs.network with | some w => if w.ports = 3 then [256, 257] else [256] | none => []
  let p := { (Pic.fresh y.nextPic (y.isKey y.nextPic) y.unitCount 0).setStamp 0 (q.stamp 0) with
    src := some (n, q.num), readers := paths, slipWritten := true, expSrc := q.expSrc }
  s.setStream d { y with nextPic := y.nextPic + 1, pics := y.pics ++ [p] }

/-- A new picture of a stream, and of every stream developed from it. -/
def State.beginPic (s : State) (n : Nat) (f : Pic → Pic) : State :=
  let x := s.stream n
  let ds := if x.isKrema then s.developed n else []
  let net := (ds.filter fun e => e.2.secs.network.isSome).map (·.1)
  let p := f { Pic.fresh x.nextPic (x.isKey x.nextPic) x.unitCount (if x.isKrema then x.seq.leafCount else 0) with
    readers := ds.map (·.1), netStream := net.head? }
  let s := s.setStream n { x with nextPic := x.nextPic + 1, pics := x.pics ++ [p] }
  ds.foldl (fun s e => s.developPic n p e.1) s

/-- The plans of a picture and of the pictures developed from it are posted (R183). Picture 0 waits for COARSE_CPLX. -/
def State.planAll (s : State) (n num : Nat) : State :=
  let one := fun (s : State) (m k : Nat) => if k = 0 then s else s.fwPost m k
  let s := one s n num
  s.openStreams.foldl (fun s e =>
    match e.2.pics.find? fun p => p.src == some (n, num) with
    | some p => one s e.1 p.num
    | none => s) s

/-! ### A picture's work is done -/

/-- A reference picture's samples. -/
def Stream.refRows (x : Stream) (num : Nat) : Rows := match x.refs.find? (·.1 == num) with | some q => q.2 | none => []

/-- Samples of the reconstruction of a Krema picture. A leaf whose work was lost reads as a decoder conceals it (R66, R68, R455). -/
def Pic.reconRows (p : Pic) (x : Stream) : Rows :=
  let ref0 := match x.refNums p.num with | r :: _ => x.refRows r | [] => []
  (List.range p.unitCount).foldl (fun r j =>
      let u := p.unit j
      placeLeaf r (x.seq.leaf j) (if u.lost then (concealLeaf x.seq j (!p.key) (ref0, false, false) r).1 else u.code.recon))
    (fillPicture x.geo.width x.geo.height x.seq.mid)

/-- Samples of the decoded picture of an encoded access unit, plane by plane: what the codec's own standard makes of its slices (R129, R130). -/
def Pic.decodedRows (p : Pic) (x : Stream) : Rows :=
  Config.decodedPlanes x.geo.codec (p.codes.flatMap (·.bytes)) ((x.refNums p.num).map x.refRows)

/-- The least number of a picture of the stream that is not finished. -/
def Stream.unfinished (x : Stream) : Nat := (x.pics.filter fun q => !q.finished).foldl (fun a q => min a q.num) x.nextPic

/-- Once every unit of work stands committed and evaluated: the reconstruction, the search picture and the statistics folio are
complete, and the folio is handed to firmware (R50, R144, R163). -/
def State.tryFinish (s : State) (n num : Nat) : State :=
  let x := s.stream n
  match x.pic num with
  | none => s
  | some p =>
    if p.finished || !p.dispatched || !p.allCommitted || (x.rated && decide (p.evaluated < x.guardCount)) then s
    else
      let inp := s.inputOf x p
      let rows := if x.isKrema then p.reconRows x else if x.isCodec then p.decodedRows x else []
      let p := { p with crcHash := if x.isCodec then Config.pictureHash x.geo.codec rows else [] }
      let st := s.statsOf n p
      -- references and search pictures stay as long as a picture that is not finished may name them (R50, R144)
      let m := (x.setPic { p with finished := true }).unfinished
      let x := { x with
        refs := if x.kind = 7 then [] else ((p.num, rows) :: x.refs).filter fun q => decide (m ≤ q.1 + 2),
        searched := if x.kind = 7 ∨ x.geo.keyInterval ≤ 1 then [] else ((p.num, s.searchOf x p) :: x.searched).filter fun q => decide (m ≤ q.1 + 1) }
      let p := if p.src.isSome then { p with input := inp.y, chromaB := inp.cb, chromaR := inp.cr } else p
      match p.folio with
      | some h =>
        let s := s.setStream n (x.setPic { p with finished := true, statsHeld := true })
        let s := (s.writeMem (s.folioAddr h) st.bytes).1
        if x.statsP.toHost then (s.share h fwUnit 2 0x120).1 else s
      | none =>
        let x := if x.rated then x.updateFullness st.pictureBits else x
        s.setStream n (x.setPic { p with finished := true })

/-- A stored output buffer piece: translate and write, at an offset, as much as fits. Whether the release may go on. -/
def State.writeOut (s : State) (p : Pic) (data : List Byte) : State × Pic × Bool :=
  match p.slip with
  | none => (s, p, true)
  | some (rp, id) =>
    match (s.ring rp).byId id with
    | none => (s, p, true)
    | some t =>
      let cap := t.word 7
      let k := min data.length (cap - p.outLen)
      let next := { p with outLen := p.outLen + data.length }
      if s.slipWaits rp t then (s, p, false)
      else if k = 0 ∨ p.addrFault = true then (s, next, true)
      else
        match s.slipPieces rp (t.addr 5 + p.outLen) k true with
        | (s, .fail kd l va) =>
          if resolvable kd then (s.queueFault (.slip rp t.id) (s.get (HIF.RP_CFG_ASID rp)) va true kd l, p, false)
          else (s, { next with addrFault := true }, true)
        | (s, .ok ps) =>
          let r := s.writePieces ps (data.take k)
          (r.1, { next with unmasked := next.unmasked || !r.2 }, true)

/-- The picture is released as a whole: its consumers have it (R29, R232). -/
def State.setReleased (s : State) (n : Nat) (p : Pic) : State :=
  let x := s.stream n
  let s := s.setStream n { x.setPic { p with released := true, readers := if x.recorded then p.readers ++ [512] else p.readers } with
    lastReleased := some p.num }
  (s.leaveSource n p).settle n

end Sys2Proof.Machine
end

