-- ==== Sys2Proof/Machine/Leaves.lean ====
section
/-! DEFINITION. Work on pictures: dispatch, commit, the guard, release, search, rate plans and applets (R24 to R29, R62 to R65, R129, R134,
R152 to R154, R168 to R189, R430, R451 to R455). -/
namespace Sys2Proof.Machine

/-! ### Dispatch (R24, R65, R161, R220) -/

/-- The last input row of a plane of `nin` rows that output row i of `nout` reads through the vertical scaler (R123). -/
def scalerReach (nin nout i : Nat) : Nat :=
  let step := nin * 65536 / nout
  let pos : Int := Int.ofNat ((2 * i + 1) * step / 2) - 32768
  (clampI (pos / 65536 + 4) 0 (Int.ofNat nin - 1)).toNat

/-- The last row that BILINEAR reads for tag t at a position: its own, or the lowest row of that tag within the first half-width that finds one (R117). -/
def bilinearReach (k : KSeq) (t x y : Nat) : Nat :=
  let found := fun (h : Nat) => (rangeFrom (y - h) (h + min h y + 1)).filter fun v => decide (v < k.height) &&
    (rangeFrom (x - h) (h + min h x + 1)).any fun u => decide (u < k.width) && k.tagAt u v == t
  if k.tagAt x y = t then y
  else match [1, 2, 3].find? fun h => !(found h).isEmpty with
    | some h => (found h).foldl max y
    | none => y

/-- The last row of the raw picture that demosaicing rows up to y of the crop window reads (R117, R118). Eight columns at either side of the window show
every phase and the picture's edges, and the rows of one period every row's reach. -/
def demosaicReach (p : ProofP) (k : KSeq) (y : Nat) : Nat :=
  if k.isMono then y
  else if p.edge then y + 3
  else
    let cols := (rangeFrom p.x0 (min 8 p.wi)) ++ rangeFrom (p.x0 + p.wi - min 8 p.wi) (min 8 p.wi)
    let rows := (rangeFrom (y - 3) 4).filter fun v => decide (p.y0 ≤ v ∧ v ≤ y)
    (rows.flatMap fun v => cols.flatMap fun u => [0, 1, 2].map fun t => bilinearReach k t u v).foldl max y

/-- Rows of the raw picture that output rows below yEnd depend on (R134). -/
def proofReach (p : ProofP) (k : KSeq) (yEnd : Nat) : Nat :=
  let l := scalerReach p.hi p.oh (yEnd - 1)
  let c := if p.chroma = 1 then scalerReach p.hi p.oh (yEnd - 1) else 2 * scalerReach (p.hi / 2) (p.oh / 2) ((yEnd + 1) / 2 - 1) + 1
  min (demosaicReach p k (min (p.y0 + max l c) (p.y0 + p.hi - 1))) (k.height - 1) + 1

/-- Luma rows, or output rows, of unit of work j of a developed or host-encoded picture. -/
def Stream.unitRows (x : Stream) (j : Nat) : Nat × Nat :=
  if x.kind = 7 then (64 * j, min (64 * j + 64) x.dims.2) else x.cut.lumaRows j

/-- Input rows that unit j waits for: all of its leaf, or all that it depends on; the whole picture in Frame latency for a developed or
host-encoded one. `early`: a Krema leaf at its first row (R65). -/
def State.rowsFor (s : State) (x : Stream) (p : Pic) (j : Nat) (early : Bool) : Nat :=
  if x.isKrema then (let r := x.seq.leaf j; if early then r.y + 1 else r.y + r.h)
  else if x.subFrame = false then s.inputRows x p
  else
    match x.secs.proof, s.sourceOf p with
    | some q, some (y, _) => proofReach (p.proof.getD q) y.seq (x.unitRows j).2
    | _, _ => (x.unitRows j).2

/-- A slip staged for the next epoch, or for the one being taken, changes the stream (R220). -/
def State.touched (s : State) (n : Nat) : Bool :=
  (s.staged ++ s.taking).any fun q => q.stream == n && (match q.what with | .setS _ _ _ => true | _ => false)

/-- Each reference picture is complete. -/
def Stream.refsReady (x : Stream) (num : Nat) : Bool :=
  (x.refNums num).all fun r => match x.pic r with | some q => q.finished | none => true

/-- Unit j of picture num may be dispatched now. -/
def State.dispatchable (s : State) (n num j : Nat) (early : Bool) : Bool :=
  let x := s.stream n
  match x.pic num with
  | none => false
  | some p =>
    let u := p.unit j
    x.state != .closed && decide (j < p.unitCount) && !u.committed && u.runs.isEmpty && u.results.isEmpty && !p.finished &&
    (p.dispatched || !(s.touched n)) && x.refsReady num && !(x.rated && num == 0 && p.coarse.isNone) &&
    decide (s.rowsFor x p j early ≤ (s.landsOf p).length) &&
    (early || x.kind != 1 || ((p.crcs.getD j none).isSome))

/-- Engines fit to take a unit of the stream: free, not spare, two of each kind in Paired, no scribe for a developed raw picture. -/
def State.enginesFit (s : State) (x : Stream) (cars scrs : List Nat) : Bool :=
  let k := protFactor x.prot
  let ok := fun (l : List Nat) (c : Bool) (m : Nat) => l.length == m && l.eraseDups.length == m && l.all fun i => isCarrel i == c && s.engineFree i && !s.on (engSpare i)
  ok cars true k && ok scrs false (if x.kind = 7 then 0 else k)

/-- What the first work on a picture fixes, a search block's or its dispatch: LAMBDA of its search (R155; DESIGN CHOICE, log entry 120) and, for a
developed picture, the proofing parameters that its search picture and its coding share (R125; DESIGN CHOICE, log entry 121). -/
def Pic.fixed (p : Pic) (x : Stream) : Pic :=
  { p with lambda := p.lambda <|> some x.statsP.lambda, proof := p.proof <|> x.secs.proof }

/-- What a picture's first dispatch fixes (R25, R77, R125, R163, R168). -/
def State.firstDispatch (s : State) (n : Nat) (p : Pic) : State :=
  let p := { (p.setStamp 3 s.now).fixed (s.stream n) with
    dispatched := true, epoch := s.get CAT.EPOCH_VALUE, digest := s.get CAT.DIGEST_HI_VALUE * 2 ^ 32 + s.get CAT.DIGEST_LO_VALUE }
  let (s, p) := s.takePlan n p
  let (s, p) := s.allocStats n p
  s.setStream n ((s.stream n).setPic p)

/-- The runs of a unit are placed: each carrel under a new placement epoch, the scribe of its run under the same. -/
def State.placeRuns (s : State) (n num j : Nat) (cars scrs : List Nat) (run0 : Nat) : State :=
  cars.zipIdx.foldl (fun s c =>
    let s := s.place n num j (run0 + c.2) c.1 0
    match scrs[c.2]? with
    | some b => s.placeAt n num j (run0 + c.2) b 0 (s.stream n).place
    | none => s) s

/-- A dispatch to the engines named, ignored where R24, R65, R161 or R220 does not allow it. -/
def State.dispatch (s : State) (n num j : Nat) (cars scrs : List Nat) (early : Bool) : State :=
  let x := s.stream n
  if s.dispatchable n num j early && s.enginesFit x cars scrs then
    let s := match x.pic num with
      | some p => if p.dispatched then s else s.firstDispatch n p
      | none => s
    s.placeRuns n num j cars scrs 0
  else s

/-- LEAF_DISPATCH. -/
def execLeafDispatch (n num j : Nat) (cars scrs : List Nat) (s : State) : Host.Outcome State Fault Refusal :=
  .next (s.dispatch n num j cars scrs false)

/-- SUBFRAME_LEAF_DISPATCH: a Krema leaf in Sub-frame latency, as soon as its first row has landed. -/
def execSubframeLeafDispatch (n num j : Nat) (cars scrs : List Nat) (s : State) : Host.Outcome State Fault Refusal :=
  .next (if (s.stream n).isKrema && (s.stream n).subFrame then s.dispatch n num j cars scrs true else s)

/-! ### What a carrel makes of a unit (R39 to R61, R127, R154, R171 to R176) -/

/-- Input rows that a search block's level-0 area depends on (R152). -/
def State.blockRows (s : State) (x : Stream) (p : Pic) (b : Nat) : Nat :=
  let yEnd := min (32 * (b / max 1 x.blocks.1) + 32) (if x.isKrema then x.geo.height / x.geo.period else x.dims.2)
  if x.isKrema then yEnd * x.geo.period
  else match x.secs.proof, s.sourceOf p with
    | some q, some (y, _) => proofReach (p.proof.getD q) y.seq yEnd
    | _, _ => yEnd

/-- A search block of the picture can have a result: it exists, and its rows have landed (R149, R152). -/
def State.blockLanded (s : State) (x : Stream) (p : Pic) (b : Nat) : Bool :=
  decide (b < x.blocks.1 * x.blocks.2) && decide (s.blockRows x p b ≤ (s.landsOf p).length)

/-- The vectors an encoder may use at a place of the search picture (R154): (0, 0), and the results of the block that holds it and of the four beside
it, as far as they have results. -/
def State.vectorsNear (s : State) (x : Stream) (p : Pic) (px py : Nat) : List (Int × Int) :=
  let cols := x.blocks.1
  let rows := x.blocks.2
  let bx := px / 32
  let by' := py / 32
  let at' := fun (a b : Nat) => if s.blockLanded x p (b * cols + a) then (let v := s.vectorAt x p (b * cols + a); [(v.x, v.y)]) else []
  [(0, 0)] ++ at' bx by' ++ (if 0 < bx then at' (bx - 1) by' else []) ++ (if bx + 1 < cols then at' (bx + 1) by' else []) ++
  (if 0 < by' then at' bx (by' - 1) else []) ++ (if by' + 1 < rows then at' bx (by' + 1) else [])

/-- A choice of vector outside the set of R154 counts as no choice. -/
def State.keepVectors (s : State) (x : Stream) (p : Pic) (j : Nat) (ch : LeafSyn) : LeafSyn :=
  let pl := x.seq.planeLeaf j
  ch.map fun plane => (List.zip (blocksOf pl.w pl.h) plane).map fun b =>
    { b.2 with units := (List.zip (unitsOf b.1 b.2.split) b.2.units).map fun u =>
        match u.2.fam with
        | .inter _ vx vy =>
          if (s.vectorsNear x p (pl.x + u.1.x) (pl.y + u.1.y)).contains (vx, vy) then u.2 else { u.2 with fam := .dir 0 }
        | _ => u.2 }

/-- The samples that the carrel read. -/
def readWith (r : Rect) (read : List (Nat × Nat × Nat)) (pic : Rows) : Rows :=
  read.foldl (fun p q =>
    if r.x ≤ q.1 ∧ q.1 < r.x + r.w ∧ r.y ≤ q.2.1 ∧ q.2.1 < r.y + r.h then p.set q.2.1 ((p.getD q.2.1 []).set q.1 q.2.2) else p) pic

def codedOf (c : LeafCode) (floor capped unv : Bool) : Coded :=
  { kind := c.kind.code, quant := c.qi, bytes := c.bytes, recon := c.recon, gbits := [c.bits], units := [], unverified := unv, floor, capped }

/-- A Krema leaf coded from the samples read (R51 to R61, R172 to R176). `retry`: the encoder's choices at QI 63 where the first coding exceeds the cap. -/
def State.codeKrema (s : State) (x : Stream) (p : Pic) (j : Nat) (ch retry : LeafSyn) (pic : Rows) (unv : Bool) : Coded :=
  let nums := x.refNums p.num
  let e : LeafEnv := { k := x.seq, leaf := j, refFlags := if nums.length = 0 then 0 else if nums.length = 1 then 1 else 3,
                       refs := nums.map x.refRows, qi := 0 }
  let ch := s.keepVectors x p j ch
  if x.isV = false then codedOf (e.codeLeaf pic ch) false false unv
  else
    let floor := p.floorAt j
    let quant := match p.plan with | some q => (q.quant.getD j 0).toNat | none => 0
    let cap := match p.plan with | some q => q.cap.getD j 0 | none => 0
    if p.flatAt j then codedOf (e.codeFlat pic) floor false unv
    else
      let a := LeafEnv.codeLeaf { e with qi := if floor then 63 else quant } pic ch
      if a.bytes.length ≤ cap then codedOf a floor false unv
      else
        let b := LeafEnv.codeLeaf { e with qi := 63 } pic (s.keepVectors x p j retry)
        if b.bytes.length ≤ cap then codedOf b floor true unv else codedOf (e.codeFlat pic) floor true unv

/-- The pixel groups of rows of a 4:2:2 picture: Cb, Y, Cr, Y, 10 bits each most significant first, or a byte each; 4:2:0 rows as their
planes stand. -/
def pgroups (depth : Nat) (f : Ycc) (y0 y1 : Nat) : List Byte :=
  (rangeFrom y0 (y1 - y0)).flatMap fun y =>
    packBits ((List.range ((f.y.getD y []).length / 2)).flatMap fun i =>
      msbBits depth (Rows.at f.cb i y) ++ msbBits depth (Rows.at f.y (2 * i) y) ++ msbBits depth (Rows.at f.cr i y) ++
      msbBits depth (Rows.at f.y (2 * i + 1) y))

/-- The guard units of a segment as coded (R170, R171): those that stand keep their coding, those in floor mode have the one R171 names, and the others the
encoder's own choices at the QP of the plan. -/
def Stream.unitCodes (x : Stream) (p : Pic) (j : Nat) (c : Commit) : List UnitCode :=
  let g := x.guardsOf j
  (List.range g.2).map fun k =>
    let own := c.units.getD k ([], 0)
    match (p.unit j).kept[k]? with
    | some u => u
    | none =>
      if p.floorAt (g.1 + k) then floorUnit x.geo.codec p.key own.2
      else { mode := .coded own.1, qp := match p.plan with | some q => q.quant.getD (g.1 + k) 0 | none => 0, bits := own.2 }

/-- A segment coded: one slice (R133). -/
def Stream.codeSegment (x : Stream) (p : Pic) (j : Nat) (c : Commit) : Coded :=
  let g := x.guardsOf j
  let us := Stream.unitCodes x p j c
  { Coded.init with
    bytes := (x.slice p.num j us).bytes x.geo.codec, gbits := us.map (·.bits), units := us,
    floor := (List.range g.2).any fun k => p.floorAt (g.1 + k) }

/-- The result of unit j from what the commit says. -/
def State.codeUnit (s : State) (x : Stream) (p : Pic) (j : Nat) (c : Commit) (unv : Bool) : Coded :=
  let r := if x.isKrema then s.codeKrema x p j c.choice c.retry (readWith (x.seq.leaf j) c.read p.input) unv
    else if x.kind = 7 then
      let d := match x.secs.proof with | some q => q.outDepth | none => 8
      { Coded.init with bytes := pgroups d (s.inputOf x p) (x.unitRows j).1 (x.unitRows j).2 }
    else Stream.codeSegment x p j c
  match c.wrong with
  | some b => { r with bytes := b }
  | none => r

/-! ### Commit (R28, R63, R64, R430, R452, R454) -/

/-- An engine lets go of its work and is idle; where spares are wanting it becomes one (R27). -/
def State.freeEngine (s : State) (i : Nat) : State :=
  ((s.unplace i |>.setEngine i { (s.unplace i).engine i with staging := [], wait := 0, offer := none }).put (engState i) stIdle).topSpares

/-- Some engine holds the unit of work. -/
def State.heldBy (s : State) (n num j : Nat) : List Nat :=
  (s.engines.filter fun e => match e.2.work with | some (a, b, c, _) => a == n && b == num && c == j | none => false).map (·.1)

/-- The delay of a masked fault (R449, R464). -/
def State.noteMask (s : State) (t : Nat) : State :=
  let d := min (s.usSince t) (2 ^ 32 - 1)
  (s.put RGS.MASK_LAST_US d).put RGS.MASK_MAX_US (max d (s.get RGS.MASK_MAX_US))

/-- A result stands as the unit's. -/
def State.commitUnit (s : State) (n num j : Nat) (c : Coded) : State :=
  let redo := ((s.stream n).pic num).bind fun p => (p.unit j).redoTick
  let s := s.onPic n num fun p =>
    { p.setUnit j { p.unit j with committed := true, commitTick := s.ticks, code := c, results := [], runs := [], redoTick := none } with
      unmasked := p.unmasked || c.unverified }
  let s := match redo with | some t => s.noteMask t | none => s
  let s := s.onPic n num fun p =>
    { p with boundMissed := p.boundMissed || ((s.stream n).subFrame && (s.stream n).isV && decide (p.unitCount < 32 * (p.codes.filter (·.capped)).length)) }
  s.tryFinish n num

/-- The third run of a Paired unit, on a spare of each kind with a new epoch (R28). -/
def State.thirdRun (s : State) (n num j u : Nat) : State :=
  let c := s.pick ((s.sparesOf 0).filter s.engineFree)
  let b := c.2.pick ((c.2.sparesOf 68).filter c.2.engineFree)
  match c.1, b.1, (s.stream n).kind == 7 with
  | some i, some k, false => b.2.placeRuns n num j [i] [k] 2
  | some i, _, true => c.2.placeRuns n num j [i] [] 2
  | _, _, _ => s.loseWork u n num j

/-- Two results of a run agree. -/
def sameResult (a b : Nat × Nat × Coded) : Bool := decide (a.2.2 = b.2.2)

/-- When no engine works on the unit any more, its result is committed; in Paired after the comparison (R26, R28). -/
def State.settleUnit (s : State) (n num j : Nat) : State :=
  let x := s.stream n
  match x.pic num with
  | none => s
  | some p =>
    let u := p.unit j
    if u.committed || !(s.heldBy n num j).isEmpty then s
    else
      match u.results with
      | [] => s
      | [a] => if x.prot = 1 then s else s.commitUnit n num j a.2.2
      | [a, b] => if sameResult a b then s.commitUnit n num j a.2.2 else s.thirdRun n num j b.2.1
      | a :: b :: c :: _ =>
        if sameResult a c then ((s.bump RGS.LATE_DISCARDS_COUNT).commitUnit n num j a.2.2).report b.2.1 0x07 (some n) 0
        else if sameResult b c then ((s.bump RGS.LATE_DISCARDS_COUNT).commitUnit n num j b.2.2).report a.2.1 0x07 (some n) 0
        else s.loseWork c.2.1 n num j

/-- A late result is discarded whole, and its unit is free (R452). -/
def State.lateResult (s : State) (i : Nat) : State := (s.freeEngine i).bump RGS.LATE_DISCARDS_COUNT

/-- The staged writes of a chunk that is not the last are drained, with the progress register (R428, R430). -/
def State.drainChunk (s : State) (i n num j : Nat) : State :=
  let k := s.get (engProg i)
  let e := s.get (engEpoch i)
  let u := unitOfEngine i
  let s := s.onPic n num fun p => p.setUnit j { p.unit j with chunks := (p.unit j).chunks.filter (fun c => c.1 != u || c.2.1 != k) ++ [(u, k, e)] }
  (s.setEngine i { s.engine i with staging := [], offer := none }).put (engProg i) (k + 1)

/-- The engine that makes the other run of a Paired unit of work (R28). -/
def State.otherRun (s : State) (i n num j run : Nat) : Option Nat :=
  if (s.stream n).prot = 1 ∧ run < 2 then
    (s.heldBy n num j).find? fun q => isCarrel q == isCarrel i && (match (s.engine q).work with | some w => w.2.2.2 == 1 - run | none => false)
  else none

/-- A chunk that is not the last is committed: in Paired protection with the same chunk of the other run, for which the first to be ready waits (R454). -/
def State.commitChunk (s : State) (i n num j run : Nat) : State :=
  match s.otherRun i n num j run with
  | none => s.drainChunk i n num j
  | some q =>
    let k := s.get (engProg i)
    if s.get (engProg q) = k ∧ (s.engine q).offer = some k then (s.drainChunk q n num j).drainChunk i n num j
    else if s.get (engProg q) ≤ k then s.setEngine i { s.engine i with offer := some k }
    else s.drainChunk i n num j

/-- A carrel's last chunk: the input CRC is compared, and the result made (R64). -/
def State.carrelEnd (s : State) (i n num j run : Nat) (c : Commit) : State :=
  let x := s.stream n
  let u := unitOfEngine i
  match x.pic num with
  | none => s.lateResult i
  | some p =>
    let leaf := x.seq.leaf j
    let bad := x.kind == 1 && (match p.crcs.getD j none with
      | some v => v != inputCrc (leafSamples (readWith leaf c.read p.input) leaf)
      | none => false)
    let second := (p.unit j).crcMiss.any (· != u)
    let finishRun := fun (s : State) (unv : Bool) =>
      let r := s.codeUnit x p j c unv
      let s := (s.drainChunk i n num j).onPic n num fun q => q.setUnit j { q.unit j with results := (q.unit j).results ++ [(run, u, r)] }
      ((s.freeEngine i).settleUnit n num j)
    if bad = false then finishRun s false
    else if second then (finishRun s true).report u 0x06 (some n) 0
    else
      let s := s.onPic n num fun q => q.setUnit j { q.unit j with crcMiss := u :: (q.unit j).crcMiss }
      let s := (s.abandon i).put (engState i) stAbandoned
      let s := s.report u 0x05 (some n) 0
      if x.prot = 2 then ((s.freeEngine i).loseWork u n num j) else s

/-- A scribe's last chunk, once its run's carrel has finished. -/
def State.scribeEnd (s : State) (i n num j run : Nat) (c : Commit) : State :=
  match (s.stream n).pic num with
  | none => s.lateResult i
  | some p =>
    if (p.unit j).results.any (·.1 == run) then
      let s := s.drainChunk i n num j
      let s := s.onPic n num fun q => q.setUnit j { q.unit j with results := (q.unit j).results.map fun r =>
        match c.wrong with
        | some b => if r.1 = run then (run, unitOfEngine i, { r.2.2 with bytes := b }) else r
        | none => r }
      (s.freeEngine i).settleUnit n num j
    else s.drainChunk i n num j

/-- Every row of the leaf has landed, and a capture stream's input CRC is recorded: what a carrel's last chunk of a leaf that was dispatched early waits
for (R24, R64, R65). -/
def State.leafWhole (s : State) (x : Stream) (p : Pic) (j : Nat) : Bool :=
  !x.isKrema || (decide (s.rowsFor x p j false ≤ (s.landsOf p).length) && (x.kind != 1 || (p.crcs.getD j none).isSome))

/-- Carrels that wait for a row go on once the rows of their leaf have landed (R65, R427). -/
def State.wakeLanded (s : State) (n num : Nat) : State :=
  match (s.stream n).pic num with
  | none => s
  | some p => s.engines.foldl (fun s e => match e.2.work with
      | some (a, b, j, _) => if a = n ∧ b = num ∧ e.2.wait = waitLine ∧ s.leafWhole (s.stream n) p j = true then s.setWait e.1 0 else s
      | none => s) s

/-- CHUNK_COMMIT: a commit microword of engine i, after the checks of its chunk (R63, R64, R430, R448). A carrel that is to end a leaf before its last
row has landed waits on LINE_LANDED (R65, R427). -/
def execChunkCommit (i : Nat) (c : Commit) (s : State) : Host.Outcome State Fault Refusal :=
  match (s.engine i).work with
  | none => .next s
  | some (n, num, j, run) =>
    if s.get (engState i) ≠ stRunning then .next s
    else
      let u := unitOfEngine i
      let current := match (s.stream n).pic num with
        | some p => !(p.unit j).committed && (p.unit j).runs.contains (u, s.get (engEpoch i))
        | none => false
      if current = false then .next (s.lateResult i)
      else if c.signOk = false then .next (s.report u 0x04 (some n) 0)
      else if isCarrel i && !c.reconOk then .next (s.report u 0x02 (some n) 0)
      else if c.residueOk = false then .next (s.report u 0x03 (some n) 0)
      else if c.last = false then .next (s.commitChunk i n num j run)
      else if isCarrel i && !(match (s.stream n).pic num with | some p => s.leafWhole (s.stream n) p j | none => true) then .next (s.setWait i waitLine)
      else .next (if isCarrel i then s.carrelEnd i n num j run c else s.scribeEnd i n num j run c)

/-! ### The guard (R170 to R173) -/

/-- Units after guard unit t, or holding guard units after it, are to be coded anew: a result that stands is discarded as late, and work in
hand is placed again under a new epoch (R172). The guard units of a segment up to t keep their coding (R170). Each redo counts: a leaf redone at both
floor stages counts twice among the units redone (DESIGN CHOICE, log entry 127). -/
def State.redoAfter (s : State) (n num t : Nat) : State :=
  let x := s.stream n
  let js := (List.range x.unitCount).filter fun j => decide (t + 1 < (x.guardsOf j).1 + (x.guardsOf j).2)
  js.foldl (fun s j =>
    match (s.stream n).pic num with
    | none => s
    | some p =>
      let u := p.unit j
      let g := x.guardsOf j
      let k := g.1 + g.2 - max g.1 (t + 1)
      let held := s.heldBy n num j
      let had := u.committed && !u.lost
      let done := (if had then 1 else 0) + u.results.length
      if (had || !u.results.isEmpty || !held.isEmpty) = false then s
      else
        let s := s.add RGS.LATE_DISCARDS_COUNT done
        let s := s.onPic n num fun q => q.setUnit j { u with
          committed := false, results := [], runs := [], chunks := [], redoneFloor := u.redoneFloor + k
          kept := if had then u.code.units.take (t + 1 - g.1) else u.kept }
        let cars := held.filter isCarrel
        if had || cars.isEmpty then held.foldl (fun s i => s.freeEngine i) s
        else s.placeRuns n num j cars (held.filter fun i => !isCarrel i) 0) s

/-- GUARD_EVALUATE: the next guard unit of the picture in guard order, once it and every earlier one has been committed. -/
def execGuardEvaluate (n num : Nat) (s : State) : Host.Outcome State Fault Refusal :=
  let x := s.stream n
  match x.pic num with
  | none => .next s
  | some p =>
    let known := p.knownBits x
    let g := p.evaluated
    match x.rated && p.dispatched && decide (g < known.length), p.plan with
    | true, some plan =>
      let p := { p with evaluated := g + 1 }
      let tripped := p.trip.isNone && (guardTrip plan x.constQ (known.take (g + 1))) == some g
      let stage2 := x.isV && p.floorAt g && p.floor2.isNone && decide (plan.allot.getD g 0 < known.getD g 0)
      let tick := match (List.range p.unitCount).find? fun j => decide ((x.guardsOf j).1 ≤ g ∧ g < (x.guardsOf j).1 + (x.guardsOf j).2) with
        | some j => (p.unit j).commitTick
        | none => s.ticks
      let p := if tripped then { p with trip := some g, tripTick := tick } else if stage2 then { p with floor2 := some g } else p
      let s := s.setStream n (x.setPic p)
      .next ((if tripped || stage2 then s.redoAfter n num g else s).tryFinish n num)
    | _, _ => .next s

/-! ### Release (R29, R90, R134, R172) -/

/-- Every earlier picture of the stream has been released. -/
def Stream.inTurn (x : Stream) (num : Nat) : Bool := x.pics.all fun q => decide (num ≤ q.num) || q.released

/-- Per-carrel rate of the stream's codec at N, Msample/s. -/
def Stream.carrelRate (x : Stream) : Nat := if x.kind = 7 then 600 else encodeRate x.geo.codec

/-- The tick by which unit j must be released, where a bound holds (R29, R134, R161, R172). -/
def State.releaseBound (s : State) (x : Stream) (p : Pic) (j : Nat) : Option Nat :=
  let rows := s.rowsFor x p j false
  let land := (s.landsOf p).getD (rows - 1) 0
  let base := if x.isKrema then (if j = 0 then some (land + usTicks 40) else none)
    else
      let r := x.unitRows j
      let w := if x.kind = 7 ∨ x.geo.codec = 4 then x.dims.1
        else (let c := x.cut.colSpan (j % x.cut.grid.1); min (c.2 * x.cut.ctu) (x.dims.1 - c.1 * x.cut.ctu))
      some (max (land + 250 * (w * (r.2 - r.1)) * 1024 / (x.carrelRate * max 1 s.factor) + usTicks 40) p.releaseTick)
  if x.rated && p.num == 0 then none
  else base.map fun b =>
    let g := x.guardsOf j
    let b := if (List.range g.2).any fun k => p.floorAt (g.1 + k) then max b p.tripTick + usTicks 20 else b
    if (p.unit j).redone then b + usTicks 400 else b

/-- What the release of the picture's next unit gives its consumers: with the first unit what stands before the units, with the last
what stands behind them (R29, R76, R130, R134). -/
def Pic.releaseBytes (p : Pic) (x : Stream) : List Byte :=
  let j := p.releasedUnits
  let c := (p.unit j).code
  (if j = 0 then (if x.isKrema then p.seqHeader x else if x.kind = 7 then [] else p.lead x) else []) ++
  (if x.isKrema then leafCarrier p.num j (Pic.leafFlags c) c.bytes ++ c.bytes else c.bytes) ++
  (if j + 1 = p.unitCount then (if x.isKrema then p.kremaTail x else if x.kind = 7 then [] else p.trail x) else [])

/-- LEAF_RELEASE: the next unit of a picture in Sub-frame latency (R29, R90, R134, R172). -/
def execLeafRelease (n num : Nat) (s : State) : Host.Outcome State Fault Refusal :=
  let s := s.tryFinish n num
  let x := s.stream n
  match x.pic num with
  | none => .next s
  | some p =>
    let j := p.releasedUnits
    let g := x.guardsOf j
    let last := decide (j + 1 = p.unitCount)
    let ready := x.subFrame && x.inTurn num && decide (j < p.unitCount) && (p.unit j).committed && (!last || p.finished) &&
      (!x.rated || decide (g.1 + g.2 ≤ p.evaluated + 1))
    if ready = false then .next s
    else
      let (s, p, ok) := s.writeOut p (p.releaseBytes x)
      if ok = false then .next s
      else
        let missed := match s.releaseBound x p j with | some b => decide (b < s.ticks) | none => false
        let p := { p with releasedUnits := j + 1, releaseTick := s.ticks, boundMissed := p.boundMissed || missed }
        .next (if last then s.setReleased n p else s.setStream n ((s.stream n).setPic p))

/-- PICTURE_RELEASE: a picture in Frame latency, once it is complete (R29, R71). -/
def execPictureRelease (n num : Nat) (s : State) : Host.Outcome State Fault Refusal :=
  let s := s.tryFinish n num
  let x := s.stream n
  match x.pic num with
  | none => .next s
  | some p =>
    if x.subFrame || !p.finished || p.released || !(x.inTurn num) then .next s
    else
      let (s, p, ok) := s.writeOut p (p.coded x)
      if ok = false then .next s else .next (s.setReleased n { p with releasedUnits := p.unitCount, releaseTick := s.ticks })

/-! ### Search and planning (R152, R160, R161, R168, R181 to R189) -/

/-- SEARCH_BLOCK: block b of a picture, once every input row that its level-0 area depends on has landed (R152). It carries the placement epoch of the work
that owns it, where that is placed (R150). -/
def execSearchBlock (n num b : Nat) (s : State) : Host.Outcome State Fault Refusal :=
  let x := s.stream n
  match x.pic num with
  | none => .next s
  | some p =>
    let p := p.fixed x
    let epoch := (x.blockOwner b).bind fun j => ((p.unit j).runs.head?).map (·.2)
    if x.searches num && x.kind != 7 && s.blockLanded x p b && (p.dispatched || !s.touched n) then
      .next (s.setStream n (x.setPic { p with vectors := Tab.set (fun _ => unsearched) p.vectors b { found := s.vectorOf x p b, epoch } }))
    else .next s

/-- COARSE_CPLX_POST: level 2 of the picture is complete (R160, R161, R183). -/
def execCoarseCplxPost (n num : Nat) (s : State) : Host.Outcome State Fault Refusal :=
  let x := s.stream n
  match x.pic num with
  | none => .next s
  | some p =>
    if x.state = .closed ∨ x.kind = 7 ∨ p.coarse.isSome ∨ s.allLanded x p = false then .next s
    else
      let v := coarseCplx (s.searchOf x p)
      let s := s.setStream n { x.setPic { p with coarse := some v } with coarse := (num, v) :: x.coarse.filter (·.1 != num) }
      .next (if num = 0 then s.fwPost n 0 else s)

/-- A signed status as the 64-bit word of a0. -/
def statusWord (v : Int) : Nat := ofSigned 64 v

/-- PLAN_POST: a plan record posted by firmware: its own, or the plan buffer of an rc_plan that has returned 0, which ends that call (R186). The answer is
its status. -/
def execPlanPost (n : Nat) (rec : List Byte) (s : State) : Host.Outcome State Fault Refusal :=
  let r := s.postPlan n (parsePlan rec)
  let planned : Bool := match (r.1.stream n).applet with | some a => a.call.any (fun c => c.entry == .rcPlan) | none => false
  .next ((if planned then r.1.endCall n else r.1).reply [statusWord r.2])

/-- An ecall of the stream's applet, made during a call of it: the result is in a0 of its hart (R187). Nothing changes where no call is in progress. -/
def State.appletCalls (s : State) (n : Nat) (f : State → State × Nat) : State :=
  match (s.stream n).applet with
  | some a =>
    if a.active && a.call.isSome then
      let r := f s
      (r.1.setX a.hart 10 r.2).reply [r.2]
    else s
  | none => s

/-- RC_POST (R187). -/
def execRcPost (n : Nat) (rec : List Byte) (s : State) : Host.Outcome State Fault Refusal :=
  .next (s.appletCalls n fun s => let r := s.postPlan n (parsePlan rec); (r.1, statusWord r.2))

/-- RC_CPLX (R187): COARSE_CPLX of a picture as it was posted. -/
def execRcCplx (n num : Nat) (s : State) : Host.Outcome State Fault Refusal :=
  .next (s.appletCalls n fun s => (s, match (s.stream n).coarse.find? (·.1 == num) with | some v => v.2 | none => statusWord (-1)))

/-- RC_TIME (R187): the low 32 bits of Dater time in nanoseconds, which R416 gives the time CSR (DEDUCED, log entry 130). -/
def execRcTime (n : Nat) (s : State) : Host.Outcome State Fault Refusal :=
  .next (s.appletCalls n fun s => (s, s.nowNs % 2 ^ 32))

/-- RC_LOG (R187): the stream's log keeps 64 entries. -/
def execRcLog (n code value : Nat) (s : State) : Host.Outcome State Fault Refusal :=
  .next (s.appletCalls n fun s =>
    (match (s.stream n).applet with
     | some a => s.setStream n { s.stream n with applet := some { a with log := ((code, value) :: a.log).take 64 } }
     | none => s, 0))

/-- The firmware releases its share of a picture's statistics folio (R163, R186). -/
def State.returnStats (s : State) (n num : Nat) : State :=
  match (s.stream n).pic num with
  | some p =>
    (match p.statsHeld, p.folio with
     | true, some h => (((s.setStream n ((s.stream n).setPic { p with statsHeld := false })).release h fwUnit).1).settle n
     | _, _ => s)
  | none => s

/-- A failed call of the stream's applet (R189): it ends and is reported for the core it ran on, the applet is called no more, and the built-in firmware plans
again. The folios of rc_result calls, the failed one and those that waited, go back. -/
def State.appletFails (s : State) (n : Nat) : State :=
  let x := s.stream n
  match x.applet with
  | some a =>
    if a.active && a.call.isSome then
      let results := ((a.call.toList ++ a.queue).filter fun c => c.entry == .rcResult).map (·.picture)
      let s := (s.setStream n { x with applet := some { a with active := false, call := none, queue := [] },
                                       kIntra := x.seed true, kInter := x.seed false }).setHart a.hart { s.hart a.hart with user := false }
      let s := s.report (0xC0 + 2 * s.get (hartPair a.hart)) 0x22 (some n) 0
      if s.power.held then s else results.foldl (fun s k => s.returnStats n k) s
    else s
  | none => s

/-- The limit of a call, in ticks (R186). -/
def AppletEntry.limit : AppletEntry → Nat
  | .rcOpen | .rcClose => usTicks 1000
  | .rcPlan | .rcResult => usTicks 100

/-- APPLET_CALL_TIMEOUT: the call of the stream in progress on hart h has run longer than its limit. -/
def execAppletCallTimeout (n h : Nat) (s : State) : Host.Outcome State Fault Refusal :=
  match (s.stream n).applet with
  | some a => .next (if a.hart = h ∧ (a.call.any fun c => decide (c.entry.limit < s.ticks - c.tick)) = true then s.appletFails n else s)
  | none => .next s

/-- What an applet does is a trap (R188, R189): an access that its PMP view does not permit, a misaligned one, or an illegal instruction. -/
def trapsOf (f : AppletFault) (pmp : List Pmp) : Bool :=
  match f with
  | .access kind addr len => !pmpAllows pmp true kind addr len
  | .misaligned addr len => addr % len != 0
  | .illegal => true

/-- APPLET_TRAP. What the applet's three regions permit is no trap. -/
def execAppletTrap (n : Nat) (f : AppletFault) (s : State) : Host.Outcome State Fault Refusal :=
  match (s.stream n).applet with
  | some a => .next (if a.call.any fun c => trapsOf f ((s.hart a.hart).regs.pmp.take 5 ++ a.regions c) then s.appletFails n else s)
  | none => .next s

/-- The picture quantiser and C of picture num as planned, else of the plan before it (R181). -/
def Stream.plannedBy (x : Stream) (n num : Nat) : Int × Nat × Nat :=
  match x.quants.find? (fun q => decide (q.1 ≤ num)) with
  | some q => q.2
  | none => (x.rateP.quantInit, (x.fwIn n num).cNum, (x.fwIn n num).cDen)

/-- The model and the fullness take in a picture's statistics; the built-in firmware's constants learn from a picture without FLOOR (R181). -/
def Stream.learn (x : Stream) (n : Nat) (p : Pic) (st : StatsFolio) : Stream :=
  let q := x.plannedBy n p.num
  let meas := kMeasured x.isV st.pictureBits (x.fwIn n p.num).samples q.2.1 q.2.2 q.1
  let w := x.rateP.modelWeight
  let x := if x.rated && p.trip.isNone && !x.appletOn then
    (if p.key then { x with kIntra := kUpdate x.kIntra meas w } else { x with kInter := kUpdate x.kInter meas w }) else x
  let x := if x.rated then x.updateFullness st.pictureBits else x
  if bitAt st.sections 1 then { x with cplx := st.cplx } else x

/-- A call of rc_result for the picture runs or waits. -/
def Applet.hasResult (a : Applet) (num : Nat) : Bool := (a.call.toList ++ a.queue).any fun c => c.entry == .rcResult && c.picture == num

/-- STATS_FOLIO_ARRIVAL: firmware takes the folio in and releases its share, or calls rc_result with it. A second arrival of a folio that rc_result has
stands for the return of that call, and the folio goes back then (R163, R181, R186; DESIGN CHOICE, log entry 129). -/
def execStatsFolioArrival (n num : Nat) (s : State) : Host.Outcome State Fault Refusal :=
  let x := s.stream n
  match x.pic num with
  | none => .next s
  | some p =>
    match p.statsHeld, p.folio, x.applet with
    | true, some h, some a =>
      if a.active = false then .next ((s.setStream n (x.learn n p (s.statsOf n p))).returnStats n num)
      else if a.hasResult num then
        .next (if a.call.any fun c => c.entry == .rcResult && c.picture == num then (s.endCall n).returnStats n num else s)
      else
        .next ((s.setStream n (x.learn n p (s.statsOf n p))).callDue n
          { entry := .rcResult, picture := num, args := [a.dataAt, s.folioAddr h, a.argsAt], argLen := (s.statsOf n p).bytes.length,
            writable := false, tick := 0 })
    | true, some _, none => .next ((s.setStream n (x.learn n p (s.statsOf n p))).returnStats n num)
    | _, _, _ => .next s

end Sys2Proof.Machine
end

