-- ==== Sys2Proof/Machine/Ingest.lean ====
section
/-! DEFINITION. Accession: sensor ports, frames, rows, ingest queues and ING_HOLD (R226 to R243). -/
namespace Sys2Proof.Machine

/-! ### RAW data types (R227) -/

/-- Samples of a RAW long packet, in the bit order of CSI-2. PRESUMED: the packings of MIPI CSI-2. -/
def rawSamples (dt : Nat) (l : List Byte) : List Nat :=
  let b := fun (g : List Byte) i => (g.getD i 0#8).toNat
  match dt with
  | 0x2B => (groups 5 (l.length / 5) l).flatMap fun g => (List.range 4).map fun i => b g i * 4 + bits (b g 4) (2 * i) 2
  | 0x2C => (groups 3 (l.length / 3) l).flatMap fun g => [b g 0 * 16 + bits (b g 2) 0 4, b g 1 * 16 + bits (b g 2) 4 4]
  | 0x2D => (groups 7 (l.length / 7) l).flatMap fun g =>
      let low := b g 4 + b g 5 * 256 + b g 6 * 65536
      (List.range 4).map fun i => b g i * 64 + bits low (6 * i) 6
  | _ => (groups 2 (l.length / 2) l).map fun g => b g 0 * 256 + b g 1

/-- Bytes of a packet of n samples. -/
def rawBytes (dt n : Nat) : Nat := ceilDiv (n * depthOfType dt) 8

/-! ### Port groups (R229) -/

def sensorUnit (p : Nat) : Nat := 0x140 + p
def Stream.ing (x : Stream) : IngestP :=
  x.secs.ingest.getD {
    portMask := 0, stripe := false, vc := 0, dataType := 0x2B, lanes := 1, hold := 0xFF, trigger := 0xFF, frameBuffers := 2,
    laneRate := 1000, ingLines := 4, high := 1, low := 1, lineTimeout := 10, useFrameNumber := false }
/-- The ports of a stream's group, in member order. -/
def Stream.ports (x : Stream) : List Nat := if x.kind = 1 then portsOf x.ing.portMask else []
/-- Lines that member m carries, and samples in each. -/
def Stream.linesOf (x : Stream) (m : Nat) : Nat :=
  if x.ing.stripe then x.geo.height else ceilDiv (x.geo.height - m) (max 1 x.ports.length)
def Stream.lineWidth (x : Stream) : Nat := if x.ing.stripe then x.geo.width / max 1 x.ports.length else x.geo.width
/-- The picture row of line l of member m. -/
def Stream.rowOf (x : Stream) (m l : Nat) : Nat := if x.ing.stripe then l else l * x.ports.length + m
/-- What makes up row y: member and line. -/
def Stream.partsOf (x : Stream) (y : Nat) : List (Nat × Nat) :=
  let k := max 1 x.ports.length
  if x.ing.stripe then (List.range k).map fun m => (m, y) else [(y % k, y / k)]

/-- The capture stream that a packet of a port and virtual channel belongs to, and its member index. -/
def State.captureOf (s : State) (port vc : Nat) : Option (Nat × Nat) :=
  match s.openStreams.find? fun e => e.2.ports.contains port && e.2.ing.vc == vc with
  | some e => some (e.1, e.2.ports.idxOf port)
  | none => none

/-- Streams that are not CLOSED and use a port. -/
def State.portStreams (s : State) (port : Nat) : List (Nat × Stream) := s.openStreams.filter fun e => e.2.ports.contains port

/-! ### Queues and ING_HOLD (R239 to R241, R243) -/

def IngRow.holds (r : IngRow) : Bool := match r.st with | .dropped => false | _ => true
def Frame.member (f : Frame) (m : Nat) : Member := f.members.getD m { started := false, ended := false, next := 0, got := 0, rows := [] }
def Frame.setMember (f : Frame) (m : Nat) (v : Member) : Frame := { f with members := f.members.set m v }
/-- Rows of member m's queue whose cells are reserved. -/
def Stream.queueDepth (x : Stream) (m : Nat) : Nat := (x.frames.map fun f => ((f.member m).rows.filter IngRow.holds).length).sum
def Stream.depths (x : Stream) : List Nat := (List.range x.ports.length).map x.queueDepth

/-- ING_HOLD and ACC_STAT.HOLD follow the queues and FORCE (R241). -/
def State.showHold (s : State) : State :=
  let names := fun h => (s.openStreams.filter fun e => e.2.kind == 1 && e.2.ing.hold == h).map (·.2)
  let trip := fun h =>
    if (names h).any fun x => x.depths.any fun d => decide (x.ing.high < d) then true
    else if (names h).all fun x => x.depths.all fun d => decide (d ≤ x.ing.low) then false
    else s.tripped.contains h
  let t := (List.range 2).filter trip
  let held := fun h => (names h).isEmpty || bitAt (s.get ACC.HOLD_CTL_FORCE) h || t.contains h
  { s with tripped := t }.put ACC.ACC_STAT_HOLD ((if held 0 then 1 else 0) + (if held 1 then 2 else 0))

/-- PORTn_DEPTH of a port (R245). -/
def State.showDepth (s : State) (port : Nat) : State :=
  let d := (s.portStreams port).foldl (fun a e => max a (e.2.queueDepth (e.2.ports.idxOf port))) 0
  (s.put (ACC.PORT_DEPTH_DEPTH port) d).put (ACC.PORT_DEPTH_MAX port) (max d (s.get (ACC.PORT_DEPTH_MAX port)))

/-- PORTn_STAT.STREAMS of every port (R245). -/
def State.showPorts (s : State) : State :=
  (List.range 6).foldl (fun s p => (s.put (ACC.PORT_STAT_STREAMS p) (s.portStreams p).length).showDepth p) s

/-- Registers that follow a change of a stream's queues. -/
def State.showQueues (s : State) (n : Nat) : State := ((s.stream n).ports.foldl (fun s p => s.showDepth p) s).showHold

/-- Cells of a list of rows go back (R240, R243). -/
def State.freeRows (s : State) (l : List IngRow) : State := l.foldl (fun s r => if r.holds then s.freeCells r.cells else s) s

/-! ### Frames (R233 to R235, R450) -/

/-- PORT_HS follows CLK_ACTIVE and DESKEW_DONE (R245). -/
def State.showHs (s : State) (p : Nat) : State :=
  s.put ⟨ACC.ACC_STAT, 2 + p, 1⟩ (if s.on (ACC.PORT_STAT_CLK_ACTIVE p) && s.on (ACC.PORT_STAT_DESKEW_DONE p) then 1 else 0)

/-- The port decodes HS data (R226): on, not in ULPS, and deskewed where a lane rate of 1.5 Gb/s or more needs it. -/
def State.portDecodes (s : State) (p : Nat) : Bool :=
  s.powered (sensorUnit p) && !s.on (ACC.PORT_STAT_ULPS p) &&
  (s.on (ACC.PORT_STAT_DESKEW_DONE p) || (s.portStreams p).all fun e => decide (e.2.ing.laneRate < 1500))

/-- The stream has an open frame. -/
def Stream.openFrame (x : Stream) : Option Frame := match x.frames.getLast? with | some f => if f.closed then none else some f | none => none
def Stream.setFrame (x : Stream) (f : Frame) : Stream := { x with frames := x.frames.map fun g => if g.num = f.num then f else g }

/-- The frame closes (R233): rows still being received are missing, *last line ingested* is taken where it is still open, and ICU
source 23 + n is raised for every port n of the group (R235, R236, R418). -/
def State.closeFrame (s : State) (n : Nat) : State :=
  let x := s.stream n
  match x.openFrame with
  | none => s
  | some f =>
    let part := fun (m : Member) => m.rows.filter fun r => r.st == .receiving
    let s := f.members.foldl (fun s m => s.freeRows (part m)) s
    let f := { f with closed := true, members := f.members.map fun m => { m with rows := m.rows.filter fun r => r.st != .receiving } }
    let x := x.setFrame f
    let s := s.setStream n { x with frames := x.frames.filter fun g => !(g.closed && decide (x.geo.height ≤ g.emitted)) }
    let whole := decide ((x.partsOf (x.geo.height - 1)).length ≤ f.lastParts)
    let s := s.onPic n f.num fun p => if whole then p else p.setStamp 2 s.now
    (x.ports.foldl (fun s p => s.raise (23 + p)) s).showQueues n

/-- Every member has sent its frame end, or delivered all its lines (R233). -/
def Stream.frameDone (x : Stream) (f : Frame) : Bool :=
  (f.members.all (·.ended)) ||
  (f.members.zipIdx.all fun q => decide (x.linesOf q.2 ≤ q.1.got) && q.1.rows.all fun r => r.st != .receiving)

def State.closeIfDone (s : State) (n : Nat) : State :=
  match (s.stream n).openFrame with
  | some f => if (s.stream n).frameDone f then s.closeFrame n else s
  | none => s

/-- Frame buffers in use (R232): of pictures that a stream still reads. -/
def Stream.buffersUsed (x : Stream) : Nat :=
  (x.pics.filter fun p => !p.released || p.readers.any fun r => decide (r < 256)).length
def Stream.buffersFree (x : Stream) : Nat := x.ing.frameBuffers - x.buffersUsed
/-- A migration of the stream's work is in progress (R450). -/
def Stream.migrating (x : Stream) : Bool := x.pics.any fun p => p.units.any fun u => u.2.redoTick.isSome

/-- The pitch of a frame buffer, and its bytes (R232). -/
def Stream.bufferPitch (x : Stream) : Nat := ceilDiv (2 * x.geo.width) 256 * 256
def Stream.bufferSize (x : Stream) : Nat := x.bufferPitch * x.geo.height
/-- A picture's frame buffer as it lies in memory: a row of 16-bit containers to each pitch (R227, R232). -/
def Pic.bufferBytes (p : Pic) (x : Stream) : List Byte :=
  p.input.flatMap fun r => rowBytes r ++ List.replicate (x.bufferPitch - 2 * r.length) 0#8
/-- Buffers that pictures hold. -/
def Stream.bufsHeld (x : Stream) : List Nat := (x.pics.filter fun p => !p.released || p.readers.any fun r => decide (r < 256)).map (·.buf)
/-- The next free buffer in turn (R232). -/
def Stream.nextBuf (x : Stream) : Nat :=
  let f := max 1 x.ing.frameBuffers
  let last := match x.pics.getLast? with | some p => p.buf | none => (x.nextPic + f - 1) % f
  (((rangeFrom 1 f).map fun i => (last + i) % f).find? fun b => !x.bufsHeld.contains b).getD ((last + 1) % f)

/-- The port receives in HS mode: its clock lane is active, and the lanes of its streams have synchronised (R226, R245). -/
def State.hsSeen (s : State) (p : Nat) : State :=
  if s.on (ACC.PORT_STAT_CLK_ACTIVE p) then s
  else
    let lanes := (s.portStreams p).foldl (fun a e => max a e.2.ing.lanes) 0
    ((s.put (ACC.PORT_STAT_CLK_ACTIVE p) 1).put (ACC.PORT_STAT_LANE_SYNC p) (2 ^ lanes - 1)).showHs p

/-- A packet header as it is received: `ecc` 0 good, 1 corrected, 2 not correctable. Corrections and failures are counted; whether the packet goes
on (R226, R236). -/
def State.header (s : State) (port ecc : Nat) : State × Bool :=
  if s.portDecodes port = false then (s, false)
  else if 2 ≤ ecc then ((s.hsSeen port).bump (ACC.PORT_ERR_ECC_FAIL port), false)
  else if ecc = 1 then ((s.hsSeen port).bump (ACC.PORT_ERR_ECC_CORR port), true)
  else (s.hsSeen port, true)

/-- An accepted frame start opens a frame and begins its picture (R233, R235). -/
def State.openFrame (s : State) (n fnum : Nat) : State :=
  let x := s.stream n
  let (src, at', extra) := match x.edges with
    | e :: r => (0, e.2, r.length)
    | [] => (1, s.now, 0)
  let s := (s.add ACC.EXTRA_TRIGGERS_COUNT extra).setStream n { x with
    edges := []
    joined := 0 :: x.joined.erase 0
    frames := x.frames ++ [{
      num := x.nextPic, frameNumber := fnum, startTick := s.ticks
      members := x.ports.zipIdx.map fun q => { started := decide (q.2 = 0), ended := false, next := 0, got := 0, rows := [] }
      emitted := 0, emitTick := s.ticks, lastParts := 0, closed := false }] }
  s.beginPic n fun p => { p with expSrc := src, stamps := p.stamps.set 0 at', buf := x.nextBuf }

/-- FRAME_START on member 0 (R232 to R234, R450). A packet on no open stream's virtual channel is counted as unbound. A stream that has had its
2^32 pictures takes no further frame, which is counted as dropped (R80; DESIGN CHOICE, log entry 124). -/
def execFrameStart (port : Nat) (k : PacketHead) (fnum : Nat) (s : State) : Host.Outcome State Fault Refusal :=
  let (s, ok) := s.header port k.ecc
  if ok = false then .next s
  else match s.captureOf port k.vc with
  | none => .next (s.bump (ACC.PORT_DISCARD_UNBOUND port))
  | some (n, m) =>
    if m ≠ 0 then .next s
    else
      let s := s.closeFrame n
      let x := s.stream n
      if x.state ≠ .opened then .next (s.setStream n { x with joined := x.joined.erase 0 })
      else
        let s := if x.migrating then s else s.setStream n { x with hrMin := min x.hrMin x.buffersFree }
        if x.buffersFree = 0 ∨ 2 ^ 32 ≤ x.nextPic then .next ((s.setStream n { s.stream n with joined := (s.stream n).joined.erase 0 }).bump ACC.FRAMES_DROPPED_COUNT)
        else .next (s.openFrame n fnum)

/-- A frame start on another member joins the open frame, or is discarded (R233). -/
def execMemberFrameStart (port : Nat) (k : PacketHead) (fnum : Nat) (s : State) : Host.Outcome State Fault Refusal :=
  let (s, ok) := s.header port k.ecc
  if ok = false then .next s
  else match s.captureOf port k.vc with
  | none => .next (s.bump (ACC.PORT_DISCARD_UNBOUND port))
  | some (n, m) =>
    if m = 0 then .next s
    else
      let x := s.stream n
      let away := s.setStream n { x with joined := x.joined.erase m }
      match x.openFrame with
      | none => .next away
      | some f =>
        if (f.member m).started ∨ (x.ing.useFrameNumber = true ∧ f.frameNumber ≠ fnum) then .next away
        else .next (s.setStream n { x.setFrame (f.setMember m { f.member m with started := true }) with joined := m :: x.joined.erase m })

/-- FRAME_END of a member (R233). -/
def execFrameEnd (port : Nat) (k : PacketHead) (s : State) : Host.Outcome State Fault Refusal :=
  let (s, ok) := s.header port k.ecc
  if ok = false then .next s
  else match s.captureOf port k.vc with
  | none => .next (s.bump (ACC.PORT_DISCARD_UNBOUND port))
  | some (n, m) =>
    let x := s.stream n
    match x.openFrame with
    | some f =>
      if x.joined.contains m && (f.member m).started then
        .next ((s.setStream n (x.setFrame (f.setMember m { f.member m with ended := true, next := x.linesOf m }))).closeIfDone n)
      else .next s
    | none => .next s

/-! ### Rows (R235 to R240) -/

/-- A packet that no open frame takes on the member: excess after a frame that it joined, else unbound; on member 0 a frame that was
not taken is discarded (R233, R234, R237). -/
def State.strayPacket (s : State) (n m port : Nat) : State :=
  if (s.stream n).joined.contains m then s.bump (ACC.PORT_DISCARD_EXCESS port)
  else if m = 0 then s else s.bump (ACC.PORT_DISCARD_UNBOUND port)

/-- A header's row is reserved, or dropped where the queue has no room (R239, R240). -/
def State.reserveRow (s : State) (n m l : Nat) (f : Frame) : State :=
  let x := s.stream n
  let mb := f.member m
  let put := fun (s : State) (r : IngRow) => s.setStream n (x.setFrame (f.setMember m { mb with next := l + 1, got := mb.got + 1, rows := mb.rows ++ [r] }))
  let need := cellsOf (2 * x.lineWidth)
  match takeCells 0xFF s.bankFree 0 need with
  | some b =>
    if x.queueDepth m < x.ing.ingLines then ((put s { line := l, st := .receiving, cells := b }).useCells b).showQueues n
    else put s { line := l, st := .dropped, cells := [] }
  | none => put s { line := l, st := .dropped, cells := [] }

/-- *First line ingested* is taken and the picture's plan posted (R183, R235). -/
def State.firstLine (s : State) (n num : Nat) : State :=
  match (s.stream n).pic num with
  | some p => if p.stamp 1 = DTime.none then (s.onPic n num fun p => p.setStamp 1 s.now).planAll n num else s
  | none => s

/-- ROW_HEADER_ARRIVAL: the header of a long packet, which carries line `l` of the member's frame. -/
def execRowHeaderArrival (port vc dt l ecc : Nat) (s : State) : Host.Outcome State Fault Refusal :=
  let (s, ok) := s.header port ecc
  if ok = false then .next s
  else
    match s.captureOf port vc with
    | none => .next (s.bump (ACC.PORT_DISCARD_UNBOUND port))
    | some (n, m) =>
      let x := s.stream n
      if dt ≠ x.ing.dataType then .next (s.bump (ACC.PORT_DISCARD_UNBOUND port))
      else match x.openFrame with
      | none => .next (s.strayPacket n m port)
      | some f =>
        let mb := f.member m
        if mb.started = false ∨ x.joined.contains m = false then .next (s.strayPacket n m port)
        else if mb.ended || decide (x.linesOf m ≤ l) || decide (l < mb.next) then .next (s.bump (ACC.PORT_DISCARD_EXCESS port))
        else
          let s := s.reserveRow n m l f
          .next (if x.rowOf m l = 0 then s.firstLine n f.num else s)

/-- Replace a row being received: whole, or dropped with its cells given back (R236, R240). -/
def State.endRow (s : State) (n m : Nat) (f : Frame) (l : Nat) (samples : Option (List Nat)) : State :=
  let mb := f.member m
  let gone := mb.rows.filter fun r => r.line == l && r.st == .receiving && samples.isNone
  let rows := mb.rows.map fun r =>
    if r.line = l ∧ r.st = .receiving then
      (match samples with | some v => { r with st := .whole v } | none => { line := l, st := .dropped, cells := [] })
    else r
  ((s.setStream n ((s.stream n).setFrame (f.setMember m { mb with rows }))).freeRows gone).showQueues n

/-- The checks that every long packet has (R226, R236, R245): its length, and its CRC-16 where it came whole. -/
def State.checkPacket (s : State) (port : Nat) (cut mismatch crcOk : Bool) : State :=
  let s := if cut || mismatch then s.bump (ACC.PORT_ERR_LENGTH port) else s
  if cut || crcOk then s else s.bump (ACC.PORT_ERR_CRC_FAIL port)

/-- A packet of the picture's last row has ended: *last line ingested* (R235). -/
def State.lastRow (s : State) (n m l : Nat) : State :=
  let x := s.stream n
  match x.openFrame with
  | some f =>
    if x.rowOf m l + 1 = x.geo.height then
      (s.setStream n (x.setFrame { f with lastParts := f.lastParts + 1 })).onPic n f.num fun p => p.setStamp 2 s.now
    else s
  | none => s

/-- LONG_PACKET: the packet of line `l` has ended, with its word count and the bytes that came. Its checks, the row stored or dropped,
*last line ingested*, and the close of a frame with all its lines (R226, R227, R233, R235, R236). A packet that no row waits for is checked all the
same. -/
def execLongPacket (port vc l wc : Nat) (crcOk : Bool) (data : List Byte) (s : State) : Host.Outcome State Fault Refusal :=
  let cut := decide (data.length < wc)
  if s.portDecodes port = false then .next s
  else match s.captureOf port vc with
  | none => .next (s.checkPacket port cut false crcOk)
  | some (n, m) =>
    let x := s.stream n
    match x.openFrame with
    | none => .next (s.checkPacket port cut false crcOk)
    | some f =>
      if (f.member m).rows.any (fun r => r.line == l) = false then .next (s.checkPacket port cut false crcOk)
      else
        let other := decide (wc ≠ rawBytes x.ing.dataType x.lineWidth)
        let s := s.checkPacket port cut other crcOk
        let s := s.endRow n m f l (if cut || other || !crcOk then none else some ((rawSamples x.ing.dataType data).take x.lineWidth))
        .next ((s.lastRow n m l).closeIfDone n)

/-- How part of a row stands (R236): `none` while it may still come. -/
inductive PartState where
  | whole (samples : List Nat)
  | dropped
  | missing
  deriving DecidableEq, Repr

def Frame.part (f : Frame) (m l : Nat) : Option PartState :=
  let mb := f.member m
  match mb.rows.find? (·.line == l) with
  | some r => match r.st with | .whole v => some (.whole v) | .dropped => some .dropped | .receiving => none
  | none => if f.closed || mb.ended || decide (l < mb.next) then some .missing else none

/-- The oldest frame with rows still to be emitted. -/
def Stream.emitting (x : Stream) : Option Frame := x.frames.find? fun f => decide (f.emitted < x.geo.height)

/-- LINE_TIMEOUT of a stream: the awaited row is declared missing on the members that have not delivered it (R236). -/
def execLineTimeout (n : Nat) (s : State) : Host.Outcome State Fault Refusal :=
  let x := s.stream n
  match x.emitting with
  | none => .next s
  | some f =>
    let parts := x.partsOf f.emitted
    if x.state = .closed ∨ s.usSince f.emitTick < x.ing.lineTimeout ∨ parts.all (fun q => (f.part q.1 q.2).isSome) = true then .next s
    else
      let late := parts.filter fun q => (f.part q.1 q.2).isNone
      let gone := late.flatMap fun q => (f.member q.1).rows.filter (·.line == q.2)
      let f := late.foldl (fun f q => f.setMember q.1 { f.member q.1 with
        next := max (f.member q.1).next (q.2 + 1), rows := (f.member q.1).rows.filter (·.line != q.2) }) f
      .next ((((s.setStream n (x.setFrame f)).freeRows gone).showQueues n).closeIfDone n)

/-- The input CRCs of the leaves whose last row has been emitted (R62, R238). -/
def Pic.noteCrcs (p : Pic) (k : KSeq) (y : Nat) : Pic :=
  if (y + 1) % 64 = 0 ∨ y + 1 = k.height then
    let first := y / 64 * k.leafCols
    { p with crcs := p.crcs.zipIdx.map fun q =>
        if first ≤ q.2 ∧ q.2 < first + k.leafCols then some (inputCrc (cutLeaf p.input (k.leaf q.2)).flatten) else q.1 }
  else p

/-- ROW_EMIT: the next row in ascending order, or its fill row, goes to the DMA (R231, R237, R238, R376). -/
def execRowEmit (n : Nat) (s : State) : Host.Outcome State Fault Refusal :=
  let x := s.stream n
  match x.emitting with
  | none => .next s
  | some f =>
    let y := f.emitted
    let parts := x.partsOf y
    if x.state = .closed ∨ parts.any (fun q => (f.part q.1 q.2).isNone) = true then .next s
    else
      let got := parts.filterMap fun q => f.part q.1 q.2
      let good := got.all fun g => match g with | .whole _ => true | _ => false
      let row := if good then got.flatMap fun g => match g with | .whole v => v | _ => []
        else List.replicate x.geo.width x.seq.mid
      let s := parts.foldl (fun s q =>
        let port := x.ports.getD q.1 0
        match f.part q.1 q.2 with
        | some .dropped => s.bump (ACC.PORT_LOSS_DROPPED port)
        | some .missing => s.bump (ACC.PORT_LOSS_MISSING port)
        | _ => s) s
      let gone := parts.flatMap fun q => (f.member q.1).rows.filter (·.line == q.2)
      let f := parts.foldl (fun f q => f.setMember q.1 { f.member q.1 with rows := (f.member q.1).rows.filter (·.line != q.2) }) f
      let f := { f with emitted := y + 1, emitTick := s.ticks }
      let x := x.setFrame f
      let s := s.setStream n { x with frames := x.frames.filter fun g => !(g.closed && decide (x.geo.height ≤ g.emitted)) }
      let s := s.onPic n f.num fun p =>
        { { p with input := p.input ++ [row] }.noteCrcs x.seq y with linesDropped := p.linesDropped || !good }
      .next (((s.freeRows gone).request x.slot).showQueues n)

/-- ROW_LANDED: the next row emitted and not landed stands in the frame buffer (R231). -/
def execRowLanded (n : Nat) (s : State) : Host.Outcome State Fault Refusal :=
  let x := s.stream n
  if x.kind ≠ 1 then .next s
  else match x.pics.find? fun p => decide (p.lands.length < p.input.length) with
  | some p => .next ((s.onPic n p.num fun p => { p with lands := p.lands ++ [s.ticks] }).wakeLanded n p.num)
  | none => .next s

/-- A write of HOLD_CTL (R241). -/
def execHoldCtlWrite (v : Nat) (s : State) : Host.Outcome State Fault Refusal := .next (s.put ACC.HOLD_CTL_FORCE v).showHold

/-- A pop-release by unit u (R389); ING_HOLD follows the queues (R241). -/
def execPopRelease (u n : Nat) (s : State) : Host.Outcome State Fault Refusal := .next (s.popItem u n false).showHold

/-! ### Ports (R226, R438) -/

/-- A deskew sequence on the logical lanes of a mask: the port is in HS mode; an initial one, once complete, lets HS data be decoded. -/
def execDeskewSequence (p lanes : Nat) (initial : Bool) (s : State) : Host.Outcome State Fault Refusal :=
  if s.powered (sensorUnit p) && !s.on (ACC.PORT_STAT_ULPS p) then
    let s := (s.put (ACC.PORT_STAT_CLK_ACTIVE p) 1).put (ACC.PORT_STAT_LANE_SYNC p) lanes
    .next ((if initial then s.put (ACC.PORT_STAT_DESKEW_DONE p) 1 else s).showHs p)
  else .next s

/-- The lanes and the clock are in an LP state. -/
def State.portLp (s : State) (p : Nat) : State :=
  (((s.put (ACC.PORT_STAT_LANE_SYNC p) 0).put (ACC.PORT_STAT_CLK_ACTIVE p) 0).put (ACC.PORT_STAT_DESKEW_DONE p) 0).showHs p

/-- ULPS_ENTRY. -/
def execUlpsEntry (p : Nat) (s : State) : Host.Outcome State Fault Refusal :=
  .next (if s.powered (sensorUnit p) then (s.put (ACC.PORT_STAT_ULPS p) 1).portLp p else s)

/-- ULPS_EXIT. -/
def execUlpsExit (p : Nat) (s : State) : Host.Outcome State Fault Refusal := .next (s.put (ACC.PORT_STAT_ULPS p) 0)

/-- Lanes of a mask, or the clock, lose HS mode. Within a frame of an open stream SENSOR_LINK is reported for the stream and its picture
flagged UNMASKED (R438, R439). -/
def State.sensorLoss (s : State) (p lanes : Nat) (clock : Bool) : State :=
  let left := (List.range 4).foldl (fun a i => if bitAt (s.get (ACC.PORT_STAT_LANE_SYNC p)) i && !bitAt lanes i then a + 2 ^ i else a) 0
  let s := s.put (ACC.PORT_STAT_LANE_SYNC p) left
  let s := if clock then s.portLp p else s
  let hit := (s.portStreams p).filter fun e => e.2.openFrame.isSome
  if hit.isEmpty then s
  else (hit.foldl (fun s e =>
    match e.2.openFrame with
    | some f => s.onPic e.1 f.num fun q => { q with unmasked := true }
    | none => s) s).reportStreams (sensorUnit p) 0x36 (hit.map (·.1))

/-- SENSOR_LINK_LOSS. -/
def execSensorLinkLoss (p lanes : Nat) (clock : Bool) (s : State) : Host.Outcome State Fault Refusal := .next (s.sensorLoss p lanes clock)

end Sys2Proof.Machine
end

