-- ==== Sys2Proof/Machine/Net.lean ====
section
/-! DEFINITION. Circulation: flows and their packets, class queues and transmission, gate lists, shapers, policing, PTP messages at the ports,
telemetry and the module bus (R284 to R309, R316 to R320). -/
namespace Sys2Proof.Machine

/-! ### Ports (R285, R286) -/

def netUnit (p : Nat) : Nat := 0x130 + p
/-- The grade has the port. -/
def State.netPresent (s : State) (p : Nat) : Bool := p == 0 || (p == 1 && s.big)
def State.linkUp (s : State) (p : Nat) : Bool := s.netPresent p && s.on (NET.PORT_STAT_LINK_UP p)
def NetPort.flow (x : NetPort) (f : Nat) : Option Flow := Tab.get (fun _ => none) x.flows f
def State.flow (s : State) (p f : Nat) : Option Flow := (s.port p).flow f
def State.setFlow (s : State) (p f : Nat) (v : Option Flow) : State :=
  s.setPort p { s.port p with flows := Tab.set (fun _ => none) (s.port p).flows f v }
/-- FLOW_STAT and PORT_STAT.FLOWS follow the flow slots (R309). -/
def State.showFlows (s : State) (p : Nat) : State :=
  let s := (List.range 16).foldl (fun s f =>
    match s.flow p f with
    | some x => (s.put (NET.FLOW_STAT_ACTIVE p f) 1).put (NET.FLOW_STAT_STREAM p f) x.stream
    | none => (s.put (NET.FLOW_STAT_ACTIVE p f) 0).put (NET.FLOW_STAT_STREAM p f) 0) s
  s.put (NET.PORT_STAT_FLOWS p) ((List.range 16).filter fun f => (s.flow p f).isSome).length

/-! ### Admission (R289 to R291, R308) -/

/-- Ports of a NETWORK section with the path on each. -/
def NetP.places (n : NetP) : List (Nat × Nat) := if n.ports = 3 then [(0, 0), (1, 1)] else if n.ports = 2 then [(1, 0)] else [(0, 0)]
def Sections.flowRate (c : Sections) : Nat :=
  match c.geo, c.proof, c.network with
  | some g, some p, some n => Machine.flowRate g p c.rate n
  | _, _, _ => 0
/-- Sections with NETWORK of the streams that are not CLOSED or are being opened, but for an opening of context n, which a new one replaces (R221). -/
def State.netSections (s : State) (n : Nat) : List Sections :=
  ((s.openStreams.map fun e => e.2.secs) ++ (s.staged ++ s.taking).filterMap fun q =>
    match q.what with | .openS _ _ _ secs _ _ _ => if q.stream = n then none else some secs | _ => none).filter fun c => c.network.isSome
/-- Flows on a port beside those of context n: their sections and the path. -/
def State.portFlows (s : State) (n p : Nat) : List (Sections × NetP × Nat) :=
  (s.netSections n).flatMap fun c =>
    match c.network with
    | some n => (n.places.filter (·.1 == p)).map fun q => (c, n, q.2)
    | none => []
def NetP.path (n : NetP) (q : Nat) : NetPath := n.paths.getD q { mac := 0, srcUdp := 0, dstUdp := 0, dstIp := 0 }
/-- The port has a source address of the flow's family (R290). -/
def State.hasSource (s : State) (p : Nat) (v6 : Bool) : Bool :=
  if v6 then [NET.IPV6_ADDR0 p, NET.IPV6_ADDR1 p, NET.IPV6_ADDR2 p, NET.IPV6_ADDR3 p].any fun r => s.rd r != 0#32
  else s.rd (NET.IPV4_ADDR p) != 0#32

/-- The status that refuses a NETWORK section for context m, if one does. -/
def State.netRefusal (s : State) (m kind : Nat) (c : Sections) : Option Nat :=
  match c.network, c.geo, c.proof with
  | some n, some g, some pr =>
    let on := n.places
    if netFormatOk kind g pr n = false then some 0x0200
    else if on.any fun q => decide (16 ≤ (s.portFlows m q.1).length) then some 0x0204
    else if on.any fun q => !s.hasSource q.1 n.ipv6 then some 0x0202
    else if on.any fun q => (s.portFlows m q.1).any fun o =>
        o.2.1.ssrc == n.ssrc && (o.2.1.path o.2.2).dstIp == (n.path q.2).dstIp && (o.2.1.path o.2.2).dstUdp == (n.path q.2).dstUdp then some 0x0203
    else if on.any fun q =>
        let l := s.portFlows m q.1
        let all := (l.map fun o => o.1.flowRate).sum + c.flowRate
        let cls := ((l.filter fun o => o.2.1.tc == n.tc).map fun o => o.1.flowRate).sum + c.flowRate
        decide (s.get (NET.PORT_BUDGET_MBPS q.1) * 1000000 < all) ||
        (s.on (NET.CBS_IDLE_VALUE q.1 n.tc) && decide (s.get (NET.CBS_IDLE_VALUE q.1 n.tc) * 1000 < cls)) then some 0x0201
    else none
  | some _, _, _ => some 0x0200
  | none, _, _ => none

/-- The flow slots of a stream that opens. -/
def State.openFlows (s : State) (n : Nat) : State :=
  match (s.stream n).secs.network with
  | none => s
  | some w => w.places.foldl (fun s q =>
      match (List.range 16).find? fun f => (s.flow q.1 f).isNone with
      | some f =>
        let v : Flow := { stream := n, path := q.2, seq := 0, period := 0, sending := [], j := 0, nextPic := 0, lastStart := 0, lastLen := 0, closing := false }
        (s.setFlow q.1 f (some v)).showFlows q.1
      | none => s) s

/-- Flow slots of a stream: port, slot, flow. -/
def State.flowsOf (s : State) (n : Nat) : List (Nat × Nat × Flow) :=
  (List.range 2).flatMap fun p => (List.range 16).filterMap fun f =>
    match s.flow p f with
    | some v => if v.stream = n then some (p, f, v) else none
    | none => none

/-! ### Packets (R293, R294, R297) -/

/-- 20 bytes of IPv6 and 4 of a tag (R291). -/
def NetP.extra (n : NetP) : Nat := (if n.ipv6 then 20 else 0) + (if n.vlan then 4 else 0)

/-- The NAL units of a byte stream, without start codes: `cur` is the NAL unit so far, reversed. -/
def splitNals : List Byte → List Byte → List (List Byte)
  | [], cur => [cur.reverse]
  | b :: r, cur =>
    match b, cur with
    | 1#8, 0#8 :: 0#8 :: c => (c.dropWhile (· == 0#8)).reverse :: splitNals r []
    | _, _ => splitNals r (b :: cur)
def nalsOf (l : List Byte) : List (List Byte) := (splitNals l []).filter fun n => !n.isEmpty

/-- Payloads of a NAL unit (R297): whole, or as fragmentation units. PRESUMED: the layouts of RFC 7798 and RFC 9328. `lastNal`: the
last NAL unit of the access unit. -/
def nalPayloads (codec maxLen : Nat) (lastNal : Bool) (nal : List Byte) : List (List Byte) :=
  if nal.length ≤ maxLen then [nal]
  else
    let b0 := (nal.getD 0 0#8).toNat
    let b1 := (nal.getD 1 0#8).toNat
    let body := nal.drop 2
    let size := max 1 (maxLen - 3)
    let parts := groups size (ceilDiv body.length size) body
    parts.zipIdx.map fun q =>
      let se := (if q.2 = 0 then 128 else 0) + (if q.2 + 1 = parts.length then 64 else 0)
      if codec = 2 then
        [BitVec.ofNat 8 (b0 / 128 * 128 + 49 * 2 + b0 % 2), BitVec.ofNat 8 b1, BitVec.ofNat 8 (se + b0 / 2 % 64)] ++ q.1
      else
        [BitVec.ofNat 8 b0, BitVec.ofNat 8 (29 * 8 + b1 % 8),
         BitVec.ofNat 8 (se + (if lastNal ∧ q.2 + 1 = parts.length then 32 else 0) + b1 / 8)] ++ q.1

/-- Bytes of a picture that its stream has released. -/
def Pic.releasedBytes (p : Pic) (x : Stream) : List Byte :=
  let c := ((List.range p.releasedUnits).map fun j => (p.unit j).code.bytes).flatten
  if x.kind = 7 then c else if p.releasedUnits = 0 then [] else p.lead x ++ c ++ (if p.released then p.trail x else [])

/-- The tick at which the units that hold the first k bytes of a developed raw picture had been written (R296). -/
def Pic.writtenTick (p : Pic) (k : Nat) : Nat :=
  ((List.range p.unitCount).foldl (fun (q : Nat × Nat) j =>
    if q.1 < k then (q.1 + (p.unit j).code.bytes.length, max q.2 (p.unit j).commitTick) else q) (0, 0)).2

/-- Bytes of a line, and packets of a picture, of a -20 flow (R291). -/
def Stream.lineBytes (x : Stream) : Nat := if x.geo.depth = 10 then x.dims.1 * 5 / 2 else x.dims.1 * 2
def Stream.packetCount (x : Stream) : Nat := ceilDiv (x.lineBytes * x.dims.2) 1260

/-- The bytes of a -20 picture that packet j carries, as start and end (R293). -/
def Stream.packetSpan (x : Stream) (j : Nat) : Nat × Nat := (1260 * j, min (1260 * (j + 1)) (x.lineBytes * x.dims.2))

/-- A sample row data header: length in bytes, row, Continuation, offset in pixels. PRESUMED: the layout of RFC 4175. -/
def rowHeader (len row offset : Nat) (more : Bool) : List Byte := beBytes 2 len ++ beBytes 2 row ++ beBytes 2 (offset + if more then 2 ^ 15 else 0)

/-- The sample row data headers of packet j: one, or two where it crosses a line boundary, the first with the Continuation bit (R293). -/
def Stream.rowHeaders (x : Stream) (j : Nat) : List Byte :=
  let (a, b) := x.packetSpan j
  let row := a / x.lineBytes
  let col := a % x.lineBytes * 2 / (if x.geo.depth = 10 then 5 else 4)
  let edge := (row + 1) * x.lineBytes
  if b ≤ edge then rowHeader (b - a) row col false
  else rowHeader (edge - a) row col true ++ rowHeader (b - edge) (row + 1) 0 false

/-- Packet j of a picture, where its data is there: its payload, of a -20 flow after the extended sequence number, and the marker. -/
def Stream.packetAt (x : Stream) (w : NetP) (p : Pic) (j : Nat) : Option (List Byte × Bool) :=
  let data := p.releasedBytes x
  if w.media = 0 then
    let (a, b) := x.packetSpan j
    if j < x.packetCount ∧ b ≤ data.length then some (x.rowHeaders j ++ (data.drop a).take (b - a), decide (j + 1 = x.packetCount)) else none
  else
    let nals := nalsOf data
    let l := nals.zipIdx.flatMap fun q => nalPayloads x.geo.codec w.maxPayload (p.released && decide (q.2 + 1 = nals.length)) q.1
    match l[j]? with
    | some b => some (b, p.released && decide (j + 1 = l.length))
    | none => none

/-- Exposure time of a developed picture, which it has of its source (R78, R294). -/
def Pic.exposure (p : Pic) : Nat := nanosOf (p.stamp 0)

/-- Release time of packet j in period k, in whole ns (R295). -/
def Stream.dueAt (x : Stream) (w : NetP) (k j : Nat) : Nat :=
  let np := max 1 x.packetCount
  let f := 1000000000 * x.geo.rateDen
  let num := max 1 x.geo.rateNum
  let step := if w.sender = 1 then (j * 1125, 1125 * np) else (j * 1080, 1125 * np)
  if w.tro = 0 then f * (k * step.2 + 43 * np + step.1) / (num * step.2)
  else (f * (k * step.2 + step.1) + w.tro * num * step.2) / (num * step.2)

/-! ### Class queues -/

/-- A frame joins a class queue (R298). Its credit is brought up to date first. -/
def State.enqueue (s : State) (p c : Nat) (body : FrameBody) (len due : Nat) (late : Bool) : State :=
  let s := s.account p
  let x := s.port p
  let k := x.cls c
  s.setPort p (x.setCls c { k with queue := k.queue ++ [{ body, len := max len 64, queued := s.nowNs, due, late }] })

/-- Whether the first packet of a picture is the one whose departure counts (R200, R297). -/
def FrameBody.leads (b : FrameBody) (s : State) (p : Nat) : Option (Nat × Nat) :=
  match b with
  | .media f pic 0 _ _ _ _ => (s.flow p f).bind fun v => if v.path = 0 then some (v.stream, pic) else none
  | _ => none

/-- A frame will never be sent (R200, R286). -/
def State.neverSent (s : State) (p : Nat) (b : FrameBody) : State :=
  match b.leads s p with
  | some (d, pic) => s.firstPacket d pic none
  | none => s

/-- The head of a class queue is gone. Positive credit ends with the queue (R302). -/
def State.unqueue (s : State) (p c : Nat) : State :=
  let x := s.port p
  let k := x.cls c
  let q := k.queue.tail
  s.setPort p (x.setCls c { k with queue := q, blocked := none, credit := if q.isEmpty then min k.credit 0 else k.credit })

/-- With the link down every frame that heads its queue is dropped and counted (R286). Credit is brought up to date first (R302). -/
def State.dropQueue (s : State) (p c : Nat) : Nat → State
  | 0 => s
  | n + 1 =>
    match ((s.port p).cls c).queue with
    | [] => s
    | f :: _ => (((s.neverSent p f.body).unqueue p c).bump (NET.TX_DROPS_COUNT p)).dropQueue p c n
def State.dropQueues (s : State) (p : Nat) : State :=
  (List.range 8).foldl (fun s c => s.dropQueue p c ((s.port p).cls c).queue.length) (s.account p)

/-- A flow lets go of a picture (R232). -/
def State.flowDone (s : State) (v : Flow) (num : Nat) : State := s.dropReader v.stream num (256 + v.path)
/-- A picture is passed over, or will not be sent. -/
def State.passOver (s : State) (v : Flow) (num : Nat) : State :=
  let s := if v.path = 0 then s.firstPacket v.stream num none else s
  s.flowDone v num

/-! ### Pacing (R294 to R297) -/

/-- ALIGNMENT_POINT of a -20 flow (R296): it chooses its picture for the period. -/
def execAlignmentPoint (p f : Nat) (s : State) : Host.Outcome State Fault Refusal :=
  match s.flow p f with
  | none => .next s
  | some v =>
    let x := s.stream v.stream
    let k := s.periodOf x
    match x.secs.network with
    | none => .next s
    | some w =>
      if w.media ≠ 0 ∨ k ≤ v.period ∨ v.closing = true then .next s
      else
        let a := k * 1000000000 * x.geo.rateDen / max 1 x.geo.rateNum
        let fit := x.pics.filter fun q => decide (v.nextPic ≤ q.num) && decide (q.exposure + 1000 * w.mediaDelay ≤ a) &&
          (q.released || (x.subFrame && (x.packetAt w q 0).isSome))
        match fit.getLast? with
        | none => .next ((s.setFlow p f (some { v with period := k })).bump (NET.FLOW_PERIODS_SKIPPED p f))
        | some q =>
          let old := (x.pics.filter fun r => decide (v.nextPic ≤ r.num ∧ r.num < q.num)).map (·.num)
          let s := s.setFlow p f (some { v with period := k, sending := v.sending ++ [(k, q.num)], nextPic := q.num + 1 })
          .next (old.foldl (fun s n => (s.passOver v n).bump (NET.FLOW_PERIODS_DROPPED p f)) s)

/-- The picture that a -22 flow takes up next: the first it has not sent with something released. -/
def Stream.nextToSend (x : Stream) (v : Flow) : Option Pic := x.pics.find? fun q => decide (v.nextPic ≤ q.num) && decide (0 < q.releasedUnits)

/-- A packet of a flow goes to its class queue, or is dropped at once where the link is down (R286, R294, R295). -/
def State.sendPacket (s : State) (p f : Nat) (v : Flow) (w : NetP) (pic : Pic) (due : Nat) (late : Bool) (pkt : List Byte × Bool) : State :=
  let ts := pic.exposure * 90000 / 1000000000 % 2 ^ 32
  let payload := (if w.media = 0 then beBytes 2 (v.seq / 65536) else []) ++ pkt.1
  let body := FrameBody.media f pic.num v.j v.seq ts pkt.2 payload
  let sending := if pkt.2 then v.sending.tail else v.sending
  let v' := { v with seq := (v.seq + 1) % 2 ^ 32, sending, j := if pkt.2 then 0 else v.j + 1, lastStart := s.nowNs, lastLen := pkt.1.length }
  let s := s.setFlow p f (some v')
  let s := if s.linkUp p then s.enqueue p w.tc body (58 + w.extra + payload.length) due late
    else (s.neverSent p body).bump (NET.TX_DROPS_COUNT p)
  if pkt.2 then s.flowDone v pic.num else s

/-- PACKET_RELEASE of a flow: its next packet, at its time and with its data there (R295 to R297). -/
def execPacketRelease (p f : Nat) (s : State) : Host.Outcome State Fault Refusal :=
  match s.flow p f with
  | none => .next s
  | some v =>
    let x := s.stream v.stream
    match x.secs.network with
    | none => .next s
    | some w =>
      if w.media = 0 then
        match v.sending with
        | [] => .next s
        | (k, n) :: _ =>
          let due := x.dueAt w k v.j
          match x.pic n with
          | none => .next s
          | some pic =>
            if s.nowNs < due then .next s
            else match x.packetAt w pic v.j with
              | none => .next s
              | some pkt =>
                -- R296: its rows were written after its release time
                .next (s.sendPacket p f v w pic due (decide (4 * (s.ticks - pic.writtenTick (x.packetSpan v.j).2) < s.nowNs - due)) pkt)
      else
        let v := match v.sending with
          | [] => (match x.nextToSend v with
            | some q => if v.closing then v else { v with sending := [(0, q.num)], j := 0, nextPic := q.num + 1 }
            | none => v)
          | _ => v
        match v.sending with
        | [] => .next s
        | (_, n) :: _ =>
          match x.pic n with
          | none => .next s
          | some pic =>
            match x.packetAt w pic v.j with
            | none => .next s
            | some pkt =>
              let gap := ceilDiv ((v.lastLen + 81 + w.extra) * 8 * 1000000000) (max 1 x.secs.flowRate)
              let due := if v.lastLen = 0 then 0 else v.lastStart + gap
              if s.nowNs < due then .next s else .next (s.sendPacket p f v w pic s.nowNs false pkt)

/-- The port has a frame of a flow slot in a class queue. -/
def NetPort.holdsFlow (x : NetPort) (f : Nat) : Bool :=
  (List.range 8).any fun c => (x.cls c).queue.any fun q => match q.body with | .media g _ _ _ _ _ _ => g == f | _ => false

/-- Every flow of a closing stream has sent all, or has its link down: what is still to be sent never goes (R307). -/
def State.endFlows (s : State) (n : Nat) : State :=
  if (s.flowsOf n).all fun q => q.2.2.closing && (!s.linkUp q.1 || (q.2.2.sending.isEmpty && !(s.port q.1).holdsFlow q.2.1)) then
    (s.flowsOf n).foldl (fun s q => q.2.2.sending.foldl (fun s e => s.passOver q.2.2 e.2) (s.setFlow q.1 q.2.1 (some { q.2.2 with sending := [] }))) s
  else s

/-- A stream's flows take no later picture (R307): what is not being sent, and of a -22 flow not yet released, never goes. -/
def State.closeFlows (s : State) (n : Nat) : State :=
  State.endFlows (n := n) <| (s.flowsOf n).foldl (fun s q =>
    let v := q.2.2
    let x := s.stream n
    let more := if x.kind = 7 then [] else
      ((x.pics.filter fun p => decide (v.nextPic ≤ p.num) && decide (0 < p.releasedUnits)).map fun p => ((0 : Nat), p.num))
    let v' := { v with closing := true, sending := v.sending ++ more }
    let gone := (x.pics.filter fun p => decide (v.nextPic ≤ p.num) && !(more.any fun e => e.2 == p.num)).map (·.num)
    gone.foldl (fun s k => s.passOver v' k) (s.setFlow q.1 q.2.1 (some v'))) s

/-- Nothing of the stream is still to leave a port, or the link is down (R307). -/
def State.flowsIdle (s : State) (n : Nat) : Bool :=
  (s.flowsOf n).all fun q => !s.linkUp q.1 || (q.2.2.sending.isEmpty && !(s.port q.1).holdsFlow q.2.1)

/-- After frames of a port have left or been dropped, closing streams with nothing more to send let go of their pictures. -/
def State.endClosed (s : State) (p : Nat) : State :=
  (((List.range 16).filterMap fun f => (s.flow p f).bind fun v => if v.closing then some v.stream else none).eraseDups).foldl (fun s n => s.endFlows n) s

/-- A closed stream's flow slots are free. Pictures that its flows still held are let go. -/
def State.freeFlows (s : State) (n : Nat) : State :=
  (s.flowsOf n).foldl (fun s q =>
    let s := q.2.2.sending.foldl (fun s e => s.passOver q.2.2 e.2) s
    (s.setFlow q.1 q.2.1 none).showFlows q.1) s

/-! ### Transmission (R298, R302, R306) -/

/-- Time of a frame on the wire with preamble and gap, in ns: 25 Gb/s. -/
def wireNs (len : Nat) : Nat := ceilDiv ((len + 20) * 8) 25

/-- The head frame of class c may be sent now: its gate is open, it ends before the gate next closes, its credit is not negative. -/
def State.classReady (s : State) (p c : Nat) : Bool :=
  let x := s.port p
  let k := x.cls c
  let t := s.nowNs
  match k.queue with
  | [] => false
  | f :: _ =>
    bitAt (x.gates t) c && (match x.closes c t with | some e => decide (t + wireNs f.len ≤ e) | none => true) &&
    (!s.on (NET.CBS_IDLE_VALUE p c) || decide (0 ≤ k.credit))

/-- Since when the head of a class is held by condition 2 of R298: until it fits before the gate closes. -/
def State.noteBlocked (s : State) (p c : Nat) : State :=
  let x := s.port p
  let k := x.cls c
  let t := s.nowNs
  match k.queue with
  | [] => s
  | f :: _ =>
    let open_ := bitAt (x.gates t) c
    let long := match x.closes c t with | some e => decide (e < t + wireNs f.len) | none => false
    if open_ && long && k.blocked.isNone then s.setPort p (x.setCls c { k with blocked := some t })
    else if open_ && !long && k.blocked.isSome then s.setPort p (x.setCls c { k with blocked := none })
    else s

/-- What a departure does for the frame's own kind (R200, R295, R318, R320). A two-step Sync is followed by its Follow_Up. -/
def State.departed (s : State) (p : Nat) (f : NetFrame) : State :=
  match f.body with
  | .media g _ _ _ _ _ _ =>
    let s := s.bump (NET.FLOW_PKTS_COUNT p g)
    let s := if f.late || decide (f.due + 1000 < s.nowNs) then s.bump (NET.FLOW_LATE_COUNT p g) else s
    match f.body.leads s p with
    | some (d, n) => s.firstPacket d n (some s.nowNs)
    | none => s
  | .ptp ty seq _ _ =>
    let e := s.egress p
    if ty = 1 then
      (match s.servo.req with
       | some (q, none) => if q = seq then s.setServo { s.servo with req := some (seq, some e) } else s
       | _ => s)
    else if ty = 0 ∧ s.on DAT.PTP_CFG_ONE_STEP = false then s.enqueue p (s.get (NET.PORT_CFG_PTP_TC p)) (.ptp 8 seq (some e) none) f.len s.nowNs false
    else s
  | .reply _ => s

/-- FRAME_TRANSMIT on a port whose MAC is free. -/
def execFrameTransmit (p : Nat) (s : State) : Host.Outcome State Fault Refusal :=
  if s.netPresent p = false then .next s
  else
    let s := s.account p
    let busy := match (s.port p).busy with | some (_, e) => decide (s.nowNs < e) | none => false
    if busy then .next s
    else
      let s := s.setPort p { s.port p with busy := none }
      if s.linkUp p = false then .next (s.dropQueues p)
      else
        let s := (List.range 8).foldl (fun s c => s.noteBlocked p c) s
        match ([7, 6, 5, 4, 3, 2, 1, 0] : List Nat).find? fun c => s.classReady p c with
        | none => .next s
        | some c =>
          match ((s.port p).cls c).queue with
          | [] => .next s
          | f :: _ =>
            let wait := s.nowNs - f.queued
            let k := (s.port p).cls c
            let s := s.setPort p (((s.port p).setCls c { k with sum := k.sum + wait, n := k.n + 1 }))
            let s := s.unqueue p c
            let s := s.setPort p { s.port p with busy := some (c, s.nowNs + wireNs f.len) }
            let s := (s.bump (NET.TX_FRAMES_COUNT p)).bump (NET.TEL_FRAMES_COUNT p c)
            let s := s.put (NET.TEL_DELAY_MAX p c) (max (s.get (NET.TEL_DELAY_MAX p c)) (min (wait / 10) 65535))
            .next ((s.departed p f).endClosed p)

/-- GATE_BLOCK_DROP (R298): the head of class c has been held by its gate for a whole cycle, in which the gate never opens long enough for it. -/
def execGateBlockDrop (p c : Nat) (s : State) : Host.Outcome State Fault Refusal :=
  let s := (s.account p).noteBlocked p c
  let x := s.port p
  match (x.cls c).blocked, x.oper, (x.cls c).queue with
  | some t, some l, f :: _ =>
    if l.cycle ≤ s.nowNs - t ∧ l.fits c (wireNs f.len) = false then
      .next ((((s.neverSent p f.body).unqueue p c).bump (NET.TEL_DROPS_COUNT p c)).endClosed p)
    else .next s
  | _, _, _ => .next s

/-- TELEMETRY_SAMPLE of a port, once SAMPLE_US have passed since the last (R306). The mean of a period in which no frame left is open. -/
def execTelemetrySample (p : Nat) (s : State) : Host.Outcome State Fault Refusal :=
  if s.netPresent p = false ∨ s.usSince (s.port p).sampled < s.get (NET.TEL_CFG_SAMPLE_US p) then .next s
  else .next ((List.range 8).foldl (fun s c =>
    let k := (s.port p).cls c
    let d := min (ceilDiv ((k.queue.map (·.len)).sum) 64) 65535
    let (m, s) := if k.n = 0 then s.draw else (min (k.sum / k.n / 10) 65535, s)
    let s := (s.put (NET.TEL_DEPTH_LAST p c) d).put (NET.TEL_DEPTH_MAX p c) (max d (s.get (NET.TEL_DEPTH_MAX p c)))
    let s := s.put (NET.TEL_DELAY_MEAN p c) m
    s.setPort p ((s.port p).setCls c { k with sum := 0, n := 0 })) (s.setPort p { s.port p with sampled := s.ticks }))

/-! ### Links (R285, R286) -/

/-- A link that was up falls: NET_LINK is reported where a flow was open (R438). -/
def State.netFall (s : State) (p : Nat) : State :=
  if s.linkUp p = false then s
  else
    let s := ((s.put (NET.PORT_STAT_LINK_UP p) 0).raise (21 + p)).dropQueues p
    let hit := ((List.range 16).filterMap fun f => (s.flow p f).map (·.stream)).eraseDups
    (if hit.isEmpty then s else s.reportStreams (netUnit p) 0x35 hit).endClosed p

/-- The levels of NETn_LOS and NETn_MODABS, which PORT_STAT shows (R285, R309). -/
def State.setCage (s : State) (p : CageIn) : State :=
  { s with pads := { s.pads with cages := Tab.set (fun _ => (false, false)) s.pads.cages p.port (p.los, p.modabs) } }

/-- NET_LINK_DOWN: with it come the levels of the port's two cage pins, which switch nothing (R285; DESIGN CHOICE, log entry 19). -/
def execNetLinkDown (p : CageIn) (s : State) : Host.Outcome State Fault Refusal := .next ((s.setCage p).netFall p.port)

/-- Packets of a -20 flow whose time has passed while the link was down are not sent (R286). -/
def State.skipPassed (s : State) (p f : Nat) : Nat → State
  | 0 => s
  | n + 1 =>
    match s.flow p f with
    | none => s
    | some v =>
      let x := s.stream v.stream
      match x.secs.network, v.sending with
      | some w, (k, num) :: rest =>
        if w.media = 0 ∧ x.dueAt w k v.j < s.nowNs then
          let last := decide (v.j + 1 = x.packetCount)
          let s := if v.j = 0 ∧ v.path = 0 then s.firstPacket v.stream num none else s
          let v' := { v with seq := (v.seq + 1) % 2 ^ 32, sending := if last then rest else v.sending, j := if last then 0 else v.j + 1 }
          let s := (s.setFlow p f (some v')).bump (NET.TX_DROPS_COUNT p)
          (if last then s.flowDone v num else s).skipPassed p f n
        else s
      | _, _ => s

/-- NET_LINK_UP, with the levels of the cage pins: sending goes on with the packet due now. -/
def execNetLinkUp (q : CageIn) (s : State) : Host.Outcome State Fault Refusal :=
  let s := s.setCage q
  let p := q.port
  if s.netPresent p && s.on (NET.PORT_CFG_ENABLE p) && !s.linkUp p then
    let s := (List.range 16).foldl (fun s f =>
      match s.flow p f with
      | some v => s.skipPassed p f (v.sending.length * (s.stream v.stream).packetCount)
      | none => s) s
    .next ((s.put (NET.PORT_STAT_LINK_UP p) 1).raise (21 + p))
  else .next s

/-- A write of PORT_CFG (R285, R309). A port that is off has no link. -/
def execPortCfgWrite (p v : Nat) (s : State) : Host.Outcome State Fault Refusal :=
  if s.netPresent p = false then .next s
  else
    let s := if s.on (NET.PORT_CFG_ENABLE p) || bits v 1 2 == 3 then s else s.put (NET.PORT_CFG_FEC p) (bits v 1 2)
    let s := ((s.put (NET.PORT_CFG_PTP_TC p) (bits v 8 3)).put (NET.PORT_CFG_MGMT_TC p) (bits v 4 3)).put (NET.PORT_CFG_ENABLE p) (bits v 0 1)
    let s := s.put (NET.PORT_STAT_TXDIS p) (1 - bits v 0 1)
    .next (if bitAt v 0 then s else ((s.put (NET.PORT_STAT_LINK_UP p) 0).dropQueues p).endClosed p)

/-! ### Gate lists (R299 to R301) -/

/-- The list in the admin bank. -/
def State.adminList (s : State) (p : Nat) : GateList :=
  { base := ((s.rd (NET.ADMIN_BASE_SEC_LO p)).toNat + s.get (NET.ADMIN_BASE_SEC_HI_VALUE p) * 2 ^ 32) * 1000000000 + s.get (NET.ADMIN_BASE_NS_VALUE p)
    cycle := s.get (NET.ADMIN_CYCLE_NS_VALUE p)
    entries := (List.range (s.get (NET.ADMIN_LENGTH_VALUE p))).map fun i =>
      (s.get (NET.GCL_ADMIN_GATES_GATES p i), s.get (NET.GCL_ADMIN_INTERVAL_INTERVAL p i)) }

/-- The checks of R300. -/
def State.adminOk (s : State) (p : Nat) : Bool :=
  let l := s.adminList p
  decide (1 ≤ l.entries.length ∧ l.entries.length ≤ 128) && decide (1000 ≤ l.cycle ∧ l.cycle ≤ 1000000000) &&
  l.entries.all (fun e => decide (100 ≤ e.2)) && decide (s.get (NET.ADMIN_BASE_NS_VALUE p) < 1000000000)

/-- The pending list becomes the operating one (R301). -/
def State.startList (s : State) (p : Nat) : State :=
  match (s.port p).pending with
  | none => s
  | some l =>
    let s := s.account p
    let s := s.setPort p { s.port p with oper := some l, pending := none, hold := none }
    let s := (s.put (NET.GCL_STAT_PENDING p) 0).put (NET.GCL_STAT_OPER_VALID p) 1
    let s := (List.range 128).foldl (fun s i =>
      let e := l.entries.getD i (0, 0)
      (s.put (NET.GCL_OPER_GATES_GATES p i) e.1).put (NET.GCL_OPER_INTERVAL_INTERVAL p i) e.2) s
    s.showGates p

/-- A pending list whose start instant has come starts. -/
def State.startDue (s : State) (p : Nat) : State := if (s.port p).pending.isSome ∧ (s.port p).start ≤ s.nowNs then s.startList p else s

/-- GCL_COMMIT (R300, R301): an earlier list whose start is this very instant starts first (R307). -/
def execGclCommit (p : Nat) (s : State) : Host.Outcome State Fault Refusal :=
  if s.netPresent p = false then .next s
  else
    let s := s.startDue p
    if s.adminOk p = false then .next (s.put (NET.GCL_STAT_REFUSED p) 1)
    else
      let l := s.adminList p
      let m := l.firstAt s.leadNs
      let s := s.setPort p { s.port p with pending := some l, start := l.base + m * l.cycle }
      let s := (s.put (NET.GCL_STAT_PENDING p) 1).put (NET.GCL_STAT_SKIPPED p) (min m 65535)
      .next (if m = 0 then s else s.put (NET.GCL_STAT_LATE p) 1)

/-- GCL_START. -/
def execGclStart (p : Nat) (s : State) : Host.Outcome State Fault Refusal := .next (s.startDue p)

/-- GATE_ENTRY_CHANGE (R299, R301): gates held from a change of the time end at their instant, and the request lines follow. -/
def execGateEntryChange (p : Nat) (s : State) : Host.Outcome State Fault Refusal :=
  if s.netPresent p = false then .next s
  else
    let s := s.account p
    let s := match (s.port p).hold with
      | some (_, u) => if u ≤ s.nowNs then s.setPort p { s.port p with hold := none } else s
      | none => s
    .next (s.showGates p)

/-! ### Shapers and filters (R303, R305) -/

/-- CBS_WRITE: `which` 0 CBS_IDLE, 1 CBS_HI, 2 CBS_LO of class c. -/
def execCbsWrite (p c which v : Nat) (s : State) : Host.Outcome State Fault Refusal :=
  if s.netPresent p = false then .next s
  else
    let s := s.account p
    let f := if which = 0 then NET.CBS_IDLE_VALUE p c else if which = 1 then NET.CBS_HI_VALUE p c else NET.CBS_LO_VALUE p c
    let x := s.port p
    let s := s.setPort p (x.setCls c { x.cls c with credit := 0 })
    .next ((s.put f v).put (NET.CBS_CREDIT_VALUE p c) 0)

/-- PSF_WRITE: `which` 0 PSF_CTL, 1 PSF_CIR, 2 PSF_CBS of filter f. The bucket is full after it. -/
def execPsfWrite (p f which v : Nat) (s : State) : Host.Outcome State Fault Refusal :=
  if s.netPresent p = false then .next s
  else
    let s := s.account p
    let s := if which = 0 then s.wr (NET.PSF_CTL p f) (BitVec.ofNat 32 (v % 128))
      else if which = 1 then s.put (NET.PSF_CIR_KBPS p f) v else s.put (NET.PSF_CBS_BYTES p f) v
    .next (s.setPort p { s.port p with tokens := Tab.set (fun _ => none) (s.port p).tokens f none })

/-! ### PTP at the ports (R316 to R320) -/

/-- A PTP message on the wire, in bytes. PRESUMED: the message lengths of IEEE 1588. -/
def State.ptpLen (s : State) (ty : Nat) : Nat :=
  let body := if ty = 0xB then 64 else if ty = 9 then 54 else if ty = 0xD then 96 else 44
  -- R320: one-step sending over IPv6 appends 2 bytes to a Sync
  let pad := if ty = 0 ∧ s.get DAT.PTP_CFG_TRANSPORT = 1 ∧ s.on DAT.PTP_CFG_ONE_STEP = true then 2 else 0
  pad + 18 + (match s.get DAT.PTP_CFG_TRANSPORT with | 0 => 28 | 1 => 48 | _ => 0) + body

/-- The device is the master: it may be one, and follows none (R316). -/
def State.isMaster (s : State) : Bool := !s.on DAT.PTP_CFG_SLAVE_ONLY && s.servo.masters.isEmpty

def State.sendPtp (s : State) (p ty seq : Nat) (time : Option Int) (dest : Option Nat) : State :=
  s.enqueue p (s.get (NET.PORT_CFG_PTP_TC p)) (.ptp ty seq time dest) (s.ptpLen ty) s.nowNs false

/-- The interval between messages of a type that the master sends, in µs: Sync 2^-3 s, Announce 2^-2 s (R316), and the ST 2059-2 metadata, a management
message, 1 s (PRESUMED). -/
def ptpInterval (ty : Nat) : Nat := if ty = 0 then 125000 else if ty = 0xB then 250000 else 1000000

/-- A message of a type is due: none has been sent, or its interval has passed. -/
def State.ptpDue (s : State) (ty : Nat) : Bool :=
  match s.servo.sent.find? fun e => e.1 == ty with
  | some e => decide (ptpInterval ty ≤ s.usSince e.2)
  | none => true

/-- PTP_SEND_TIMER: the active port sends a Delay_Req (1) as a slave; a Sync (0), an Announce (0xB) or the synchronisation metadata (0xD) as the master. -/
def execPtpSendTimer (p ty : Nat) (s : State) : Host.Outcome State Fault Refusal :=
  let v := s.servo
  let next := { v with seq := (v.seq + 1) % 65536 }
  if !s.ptpPort p || !s.linkUp p || p != s.activePort then .next s
  else if ty = 1 then
    (if v.master.isSome then .next ((s.setServo { next with req := some (v.seq, none) }).sendPtp p 1 v.seq none none) else .next s)
  else if (ty = 0 ∨ ty = 0xB ∨ ty = 0xD) ∧ s.isMaster = true ∧ s.ptpDue ty = true then
    .next ((s.setServo { next with sent := (ty, s.ticks) :: v.sent.filter fun e => e.1 != ty }).sendPtp p ty v.seq none none)
  else .next s

/-- A measurement is complete with a Sync and a Delay_Req of the same master, in whichever order they came (R318). -/
def State.tryMeasure (s : State) : State :=
  match s.servo.down, s.servo.up with
  | some d, some u => (s.setServo { s.servo with sync := none, down := none, up := none }).measure ((d - u) / 2)
  | _, _ => s

/-- A PTP message received on a port (R316 to R319). -/
def State.ptpIn (s : State) (p : Nat) (m : PtpMsg) : State :=
  let v := s.servo
  let t := s.ingress p
  let mine := fun id => decide (s.get DAT.SERVO_STAT_PORT = p) && v.master == some id
  let asym := s.portLat (DAT.PORT_ASYM_VALUE p)
  match m with
  | .announce id data q =>
    let m : Master := { port := p, id, data }
    if q && s.follows m then (s.setServo { v with masters := m :: v.masters.filter fun a => !(a.port == p && a.id == id) }).selectMaster
    else s.keepMasters fun a => !(a.port == p && a.id == id)
  | .sync id seq two corr origin =>
    if mine id then
      (if two then s.setServo { v with sync := some (seq, t - corr - asym), down := none }
       else (s.setServo { v with sync := none, down := some (t - corr - asym - origin) }).tryMeasure)
    else s
  | .followUp id seq corr origin =>
    if mine id then
      (match v.sync with
       | some (q, d) => if q = seq then (s.setServo { v with sync := none, down := some (d - corr - origin) }).tryMeasure else s
       | none => s)
    else s
  | .delayReq id seq => if s.isMaster ∧ p = s.activePort then s.sendPtp p 9 seq (some t) (some id) else s
  | .delayResp id seq corr receive =>
    if mine id then
      (match v.req with
       | some (q, some e) => if q = seq then (s.setServo { v with req := none, up := some (receive - e - corr) }).tryMeasure else s
       | _ => s)
    else s
  | .other => s

/-! ### Reception (R284, R288, R304) -/

/-- The filter that takes a frame: the lowest-numbered enabled one whose enabled match fields agree. -/
def State.filterFor (s : State) (p : Nat) (f : RxFrame) : Option Nat :=
  (List.range 16).find? fun i =>
    let c := (s.rd (NET.PSF_CTL p i)).toNat
    bitAt c 0 &&
    (!bitAt c 1 || f.mac == 2 ^ 32 * s.get (NET.PSF_MAC_HI_MAC p i) + (s.rd (NET.PSF_MAC_LO p i)).toNat) &&
    (!bitAt c 2 || f.vid == s.get (NET.PSF_MAC_HI_VID p i)) && (!bitAt c 3 || f.pcp == bits c 4 3)

/-- An IPv6 address over its four registers. -/
def State.ipv6 (s : State) (p : Nat) : Nat :=
  (((s.rd (NET.IPV6_ADDR0 p)).toNat * 2 ^ 32 + (s.rd (NET.IPV6_ADDR1 p)).toNat) * 2 ^ 32 + (s.rd (NET.IPV6_ADDR2 p)).toNat) * 2 ^ 32 +
  (s.rd (NET.IPV6_ADDR3 p)).toNat
def State.ipv4 (s : State) (p : Nat) : Nat := (s.rd (NET.IPV4_ADDR p)).toNat

/-- What the device does with a frame that passed its filter (R288). -/
def State.takeFrame (s : State) (p : Nat) (f : RxFrame) : State :=
  let reply := fun (ty len : Nat) => s.enqueue p (s.get (NET.PORT_CFG_MGMT_TC p)) (.reply ty) len s.nowNs false
  let drop := s.bump (NET.RX_DROPS_COUNT p)
  match f.body with
  | .ptp tr dom m =>
    let s := s.raise (21 + p)
    if s.ptpPort p && tr == s.get DAT.PTP_CFG_TRANSPORT && dom == s.get DAT.PTP_CFG_DOMAIN then s.ptpIn p m else s
  | .arp a => if a = s.ipv4 p ∧ a ≠ 0 then reply 0 64 else drop
  | .solicit a => if a = s.ipv6 p ∧ a ≠ 0 then reply 1 90 else drop
  | .echo v6 a n => if a = (if v6 then s.ipv6 p else s.ipv4 p) ∧ a ≠ 0 ∧ n ≤ 1024 then reply 2 f.len else drop
  | .pause => drop
  | .other => drop

/-- RX_FRAME on a port. -/
def execRxFrame (p : Nat) (f : RxFrame) (s : State) : Host.Outcome State Fault Refusal :=
  if !s.linkUp p then .next s
  else
    let s := (s.account p).bump (NET.RX_FRAMES_COUNT p)
    if !f.good || decide (1522 < f.len) || f.body == .pause then .next (s.bump (NET.RX_DROPS_COUNT p))
    else match s.filterFor p f with
      | none => .next (s.bump (NET.RX_DROPS_COUNT p))
      | some i =>
        let full := creditUnit * s.get (NET.PSF_CBS_BYTES p i)
        let have_ := (Tab.get (fun _ => none) (s.port p).tokens i).getD full
        if have_ < creditUnit * f.len then .next (s.bump (NET.PSF_DROP_COUNT p i))
        else
          let left := have_ - creditUnit * f.len
          let s := s.setPort p { s.port p with tokens := Tab.set (fun _ => none) (s.port p).tokens i (if full ≤ left then none else some left) }
          .next ((s.bump (NET.PSF_PASS_COUNT p i)).takeFrame p f)

/-! ### The module bus (R285, R309) -/

/-- I2C_CMD: ignored while a transaction runs. -/
def execI2cCmd (v : Nat) (s : State) : Host.Outcome State Fault Refusal :=
  if s.on NET.I2C_STAT_BUSY then .next s
  else .next { s.put NET.I2C_STAT_BUSY 1 with net := { s.net with i2c := some (bits v 24 7, bitAt v 23, bits v 8 8, bits v 0 8) } }

/-- I2C_DONE: the transaction has ended, acknowledged or not, with the byte read. -/
def execI2cDone (ack : Bool) (data : Nat) (s : State) : Host.Outcome State Fault Refusal :=
  match s.net.i2c with
  | none => .next s
  | some (_, read, _, _) =>
    let s := { s with net := { s.net with i2c := none } }
    let s := ((s.put NET.I2C_STAT_BUSY 0).put NET.I2C_STAT_DONE 1).put NET.I2C_STAT_NACK (if ack then 0 else 1)
    .next (if read && ack then s.put NET.I2C_STAT_DATA data else s)

end Sys2Proof.Machine
end

