-- ==== Sys2Proof/Machine/OpenClose.lean ====
section
/-! DEFINITION. The call slips that open, change, close and flush streams, up to their staging for an epoch (R213 to R224, R543). -/
namespace Sys2Proof.Machine

/-! ### Reading what a slip names -/

/-- Read a buffer of a slip: its bytes and whether any was poisoned; `none` where the access failed and the slip has its answer or waits. -/
def State.slipRead (s : State) (n : Nat) (t : Taken) (va len : Nat) : State × Option (List Byte × Bool) :=
  match s.slipPieces n va len false with
  | (s, .fail kd l a) => (s.slipFault n t false kd l a, none)
  | (s, .ok ps) =>
    let (s, b, p) := s.readPieces ps
    (s, some (b, p))

/-- LUT entries and filter taps as they lie in memory (R218). -/
def lutOf (l : List Byte) : List Nat := (groups 2 12288 l).map leNum
def tapsOf (l : List Byte) : List Int := (groups 2 2048 l).map fun g => toSigned 16 (leNum g)

/-- A section of its right length. -/
def secOf (secs : List RawSec) (ty : Nat) : Option (List Byte) :=
  match secBytes secs ty with
  | some l => if sectionLen ty = some l.length then some l else none
  | none => none

/-- The LUT and the banks that a PROOFING section names (R125, R218). -/
def State.readTables (s : State) (n : Nat) (t : Taken) (secs : List RawSec) : State × Option (List Nat × List Int) :=
  match secOf secs tyProofing with
  | none => (s, some ([], []))
  | some l =>
    match s.slipRead n t (leAt l 60 8) 24576 with
    | (s, none) => (s, none)
    | (s, some (lut, _)) =>
      if leAt l 68 8 = 0 then (s, some (lutOf lut, []))
      else match s.slipRead n t (leAt l 68 8) 4096 with
        | (s, none) => (s, none)
        | (s, some (taps, _)) => (s, some (lutOf lut, tapsOf taps))

/-- Sections read over those of `base`. -/
def Sections.withSecs (base : Sections) (secs : List RawSec) (lut : List Nat) (taps : List Int) : Sections :=
  { geo := (secOf secs tyGeometry).map readGeometry <|> base.geo
    proof := ((secOf secs tyProofing).map fun l => readProofing l lut taps) <|> base.proof
    stats := (secOf secs tyStatistics).map readStats <|> base.stats
    rate := (secOf secs tyRate).map readRate <|> base.rate
    events := (secOf secs tyEvents).map readEvents <|> base.events
    ingest := (secOf secs tyIngest).map readIngest <|> base.ingest
    network := (secOf secs tyNetwork).map readNetwork <|> base.network
    device := (secOf secs tyDevice).map fun l => leAt l 4 1 }

/-! ### Checks (R543) -/

/-- Streams being opened. -/
def State.opening (s : State) : List (Nat × Nat × Sections) :=
  (s.staged ++ s.taking).filterMap fun q => match q.what with | .openS kind _ _ secs _ _ _ => some (q.stream, kind, secs) | _ => none

/-- INGEST sections of the other capture streams. -/
def State.otherIngest (s : State) (n : Nat) : List IngestP :=
  ((s.openStreams.filter fun e => e.1 != n).filterMap fun e => e.2.secs.ingest) ++
  ((s.opening.filter fun e => e.1 != n).filterMap fun e => e.2.2.ingest)

/-- The fields that the level of a stream rests on (R217, R543): tier and level, size, rate, bit rate. -/
def levelFields (kind rcMode : Nat) : List (Nat × Nat) :=
  [(tyGeometry, 6), (tyGeometry, 24), (tyGeometry, 28)] ++
  (if kind = 4 then [(tyProofing, 36), (tyProofing, 38)] else [(tyGeometry, 8), (tyGeometry, 10)]) ++
  (if kind = 6 then [(tyGeometry, 32)] else [(tyRate, if rcMode = 1 then 12 else 8)])

/-- The source that a developed stream names is an open capture or host stream with a CFA that can be developed (R115, R213). -/
def State.sourceOk (s : State) (y : Stream) : Bool :=
  let src := s.stream y.geo.source
  !y.isDeveloped || (src.state == .opened && (src.kind == 1 || src.kind == 2) && (src.seq.isColour || src.seq.isMono))

/-- Every refusal of the fields of the sections present. `y`: the stream as it would be; `opens`: it is being opened, so that its level is judged. -/
def State.fieldRefusals (s : State) (n : Nat) (y : Stream) (opens : Bool) (secs : List RawSec) : Refusals :=
  let g := y.geo
  let src := s.stream g.source
  let p := fun ty (f : List Byte → Refusals) => match secOf secs ty with | some l => f l | none => []
  let chroma := match y.secs.proof with | some q => q.chroma | none => g.chroma
  p tyGeometry (checkGeometry y.kind chroma) ++
  p tyGeometry (fun _ => needAll (levelFields y.kind y.rateP.rcMode) (!opens || !(y.isCodec || y.kind == 6) || y.levelAsk.level.isSome)) ++
  p tyGeometry (fun _ => need tyGeometry 22 (s.sourceOk y)) ++
  p tyProofing (fun l => checkProofing y.kind g.codec g.depth (s.sourceOk y) src.seq ((y.secs.proof.map (·.lut)).getD []) ((y.secs.proof.map (·.taps)).getD []) l) ++
  p tyStatistics (fun l =>
    let bl := y.blocks
    let recs := if y.isKrema then y.seq.leafCount else y.cut.rows
    checkStats y.kind y.seq (statsLayout (readStats l).sections (bl.1 * bl.2) recs).2 (s.poolSize ((readStats l).pool)) l) ++
  p tyRate (checkRate y.codecId g.depth y.seq) ++ p tyEvents checkEvents ++ p tyIngest (checkIngest g (s.otherIngest n)) ++
  p tyNetwork (checkNetwork g.rateNum g.rateDen)

def w5Of (f : Nat × Nat) : Nat := f.1 + f.2 * 65536

/-- The applet that RATE names may run (R184, R185, R219). -/
def State.appletOk (s : State) (c : Sections) : Bool :=
  match c.rate with
  | some r => r.applet == 0 || s.cat.applets.any fun a => a.id == r.applet && a.magic == 0x52434150 && a.abi == Config.appletAbi && decide (a.dataSize ≤ 262144)
  | none => true

/-! ### Staging (R220, R221) -/

/-- Staged slips that are given up complete with FLUSHED, in the order in which they were read. -/
def State.flushStaged (s : State) (p : Staged → Bool) : State :=
  let gone := s.staged.filter p
  let s := { s with staged := s.staged.filter fun q => !p q }
  (gone.foldl (fun s q => (s.finishById q.rp q.id stFlushed []).settle q.stream) s).showLedger

/-- A slip is staged. -/
def State.stage (s : State) (n : Nat) (t : Taken) (what : StagedKind) : State :=
  let s := s.setRing n { s.ring n with
    taken := (s.ring n).taken.map fun e => if e.id = t.id then { e with started := true, staged := true } else e }
  let q : Staged := { rp := n, id := t.id, stream := t.streamField, what }
  { s with staged := s.staged ++ [q] }.showLedger

/-! ### Room for a capture stream (R144, R232, R239, R244) -/

/-- Cells that a capture stream's ingest queues take when they are full. -/
def Stream.ingestCells (x : Stream) : Nat := x.ports.length * x.ing.ingLines * cellsOf (2 * x.lineWidth)
/-- Bytes of a picture's pyramid: three levels of 16-bit containers, each half the one before it, rounded up. -/
def pyramidBytes (w h : Nat) : Nat := 2 * (w * h + ceilDiv w 2 * ceilDiv h 2 + ceilDiv (ceilDiv w 2) 2 * ceilDiv (ceilDiv h 2) 2)
/-- Bytes of a capture stream's frame buffers and of its pyramids, two where it searches. -/
def Stream.ingestBytes (x : Stream) : Nat :=
  x.ing.frameBuffers * x.bufferSize + (if x.geo.keyInterval = 1 then 1 else 2) * pyramidBytes (x.geo.width / max 1 x.geo.period) (x.geo.height / max 1 x.geo.period)

/-- The Stacks hold every capture stream's queues with this one's, and DRAM their buffers. -/
def State.holdsIngest (s : State) (y : Stream) : Bool :=
  let others := (s.openStreams.map (·.2)).filter (fun x => x.kind == 1) ++
    (s.opening.filter (fun e => e.2.1 == 1)).map fun e => { Stream.init with kind := 1, secs := e.2.2 }
  y.kind != 1 ||
  (decide (((y :: others).map Stream.ingestCells).sum ≤ ((List.range 8).map fun k => bits (resetWord s.big (STK.BANK_FREE k)).toNat 0 18).sum) &&
   decide (((y :: others).map Stream.ingestBytes).sum ≤ s.usable - 320 * 2 ^ 20))

/-! ### OPEN_STREAM (R204, R213, R216 to R219, R224, R230, R289) -/

/-- The rest of an OPEN_STREAM whose descriptor has been read. -/
def State.openChecked (s : State) (n k : Nat) (t : Taken) (fits : Bool) (secs : List RawSec) (stop : Option (Option Nat))
    (lut : List Nat) (taps : List Int) : State :=
  let kind := bits (t.word 1) 8 8
  let prot := bits (t.word 1) 16 2
  let sub := bitAt (t.word 1) 18
  let c := Sections.empty.withSecs secs lut taps
  let y : Stream := { Stream.init with kind, prot, subFrame := sub, rp := n, secs := c }
  let y := { y with lim := y.levelAsk.lim }
  let codec := y.geo.codec
  let cu := y.charge s.factor
  let cap := s.capacity (s.sparesHeld || prot != 2)
  let used := s.charges
  match descriptorRefusal kind codec (sectionsRequired kind codec) secs stop (s.fieldRefusals t.streamField y true secs) with
  | some f => s.finishInOrder n k t stBadField [0, 0, 0, w5Of f]
  | none =>
    if !s.big && (match c.network with | some w => bitAt w.ports 1 | none => false) then s.finishInOrder n k t 0x0010 []
    else if kind = 1 ∧ 16 ≤ ((s.openStreams.filter fun e => e.2.kind == 1).length + (s.opening.filter fun e => e.2.1 == 1).length) then
      s.finishInOrder n k t 0x0014 []
    else if s.appletOk c = false then s.finishInOrder n k t 0x000F []
    else match s.netRefusal t.streamField kind c with
    | some st => s.finishInOrder n k t st []
    | none =>
      if fits = false ∨ s.holdsIngest y = false then s.finishInOrder n k t 0x0011 []
      else if cap.1 < used.1 + cu.1 ∨ cap.2 < used.2 + cu.2 then s.finishInOrder n k t 0x0006 []
      else
        let s := s.flushStaged fun q => q.stream == t.streamField && (match q.what with | .openS _ _ _ _ _ _ _ => true | _ => false)
        s.stage n t (.openS kind prot sub c y.lim cu.1 cu.2)

/-- OPEN_STREAM, the slip taken at place k of ring pair n. -/
def execOpenStream (n k : Nat) (fits : Bool) (s : State) : Host.Outcome State Fault Refusal :=
  match s.slipAt n k 0x01 with
  | none => .next s
  | some t =>
    let kind := bits (t.word 1) 8 8
    if s.slipWaits n t then .next s
    else if t.reservedOk = false ∨ kind = 0 ∨ 7 < kind ∨ bits (t.word 1) 16 2 = 3 then .next (s.finishInOrder n k t stBadField [])
    else if (s.stream t.streamField).state ≠ .closed ∨ (s.taking.any fun q => q.stream == t.streamField) = true then
      .next (s.finishInOrder n k t 0x0005 [])
    else match s.slipRead n t (t.addr 2) (t.word 4) with
    | (s, none) => .next s
    | (s, some (l, _)) =>
      let d := splitDescriptor (l.length / 4 + 1) l
      match s.readTables n t d.1 with
      | (s, none) => .next s
      | (s, some (lut, taps)) => .next (s.openChecked n k t fits d.1 d.2 lut taps)

/-! ### SET_CONFIG (R30, R125, R155, R177, R217, R220, R224, R244, R289) -/

/-- A section changes what is fixed for the life of the stream. -/
def fixedChanged (kind : Nat) (x y : Stream) (secs : List RawSec) : Bool :=
  let has := fun ty => (secOf secs ty).isSome
  (has tyGeometry && x.secs.geo != y.secs.geo) || (has tyIngest && x.secs.ingest != y.secs.ingest) ||
  (has tyNetwork && x.secs.network != y.secs.network) ||
  (has tyStatistics && { x.statsP with lambda := 0 } != { y.statsP with lambda := 0 }) ||
  (has tyRate && (x.rateP.rcMode != y.rateP.rcMode || x.rateP.ratioQ4 != y.rateP.ratioQ4 || x.rateP.cpbMs != y.rateP.cpbMs ||
    x.rateP.applet != y.rateP.applet)) ||
  (has tyProofing && (match x.secs.proof, y.secs.proof with
    | some a, some b => a.ow != b.ow || a.oh != b.oh || a.wi != b.wi || a.hi != b.hi || a.chroma != b.chroma || a.outDepth != b.outDepth ||
        a.edge != b.edge || (kind == 4 && (a.transfer != b.transfer || a.ycc != b.ycc))
    | _, _ => false))

/-- The stream with what is staged for it (R220): later fields override earlier ones. -/
def State.withStaged (s : State) (n : Nat) : Stream :=
  (s.staged ++ s.taking).foldl (fun x q =>
    match q.what with
    | .setS secs cu su => if q.stream = n then { x with secs, cu, su } else x
    | _ => x) (s.stream n)

/-- A SET_CONFIG whose descriptor has been read. -/
def State.setChecked (s : State) (n k : Nat) (t : Taken) (secs : List RawSec) (stop : Option (Option Nat)) (lut : List Nat)
    (taps : List Int) : State :=
  let x := s.withStaged t.streamField
  let y := { x with secs := x.secs.withSecs secs lut taps }
  let tr := typeRefusal x.kind x.geo.codec secs stop
  let cu := y.charge s.factor
  let cap := s.capacity s.sparesHeld
  let used := s.charges
  if tr.isNone ∧ stop.isNone ∧ fixedChanged x.kind x y secs = true then s.finishInOrder n k t 0x0007 []
  else match descriptorRefusal x.kind x.geo.codec [] secs stop (s.fieldRefusals t.streamField y false secs) with
  | some f => s.finishInOrder n k t stBadField [0, 0, 0, w5Of f]
  | none =>
    if cu ≠ (x.cu, x.su) ∧ (cap.1 + x.cu < used.1 + cu.1 ∨ cap.2 + x.su < used.2 + cu.2) then s.finishInOrder n k t 0x0006 []
    else s.stage n t (.setS y.secs cu.1 cu.2)

/-- SET_CONFIG of a stream. -/
def execSetConfig (n k : Nat) (s : State) : Host.Outcome State Fault Refusal :=
  match s.slipAt n k 0x03 with
  | none => .next s
  | some t =>
    if bitAt (t.word 1) 8 ∨ s.slipWaits n t = true then .next s
    else if t.reservedOk = false then .next (s.finishInOrder n k t stBadField [])
    else if s.streamFor n t [1, 2, 3, 4, 5, 6, 7] = false then .next (s.finishInOrder n k t stBadStream [])
    else match s.slipRead n t (t.addr 2) (t.word 4) with
    | (s, none) => .next s
    | (s, some (l, _)) =>
      let d := splitDescriptor (l.length / 4 + 1) l
      match s.readTables n t d.1 with
      | (s, none) => .next s
      | (s, some (lut, taps)) => .next (s.setChecked n k t d.1 d.2 lut taps)

/-- SET_CONFIG with DEVICE = 1: a pace request (R17, R216, R220). -/
def execSetConfigDevice (n k : Nat) (s : State) : Host.Outcome State Fault Refusal :=
  match s.slipAt n k 0x03 with
  | none => .next s
  | some t =>
    if bitAt (t.word 1) 8 = false ∨ s.slipWaits n t = true then .next s
    else if t.reservedOk = false then .next (s.finish n t stBadField 0 [])
    else match s.slipRead n t (t.addr 2) (t.word 4) with
    | (s, none) => .next s
    | (s, some (l, _)) =>
      let d := splitDescriptor (l.length / 4 + 1) l
      let fields := match secOf d.1 tyDevice with
        | some b => need tyDevice 4 (decide (leAt b 4 1 ≤ 2)) ++ need tyDevice 5 (zeros b 5 3)
        | none => []
      match descriptorRefusal 0 0 [tyDevice] d.1 d.2 fields with
      | some f => .next (s.finish n t stBadField 0 [0, 0, 0, w5Of f])
      | none =>
        let v := match secOf d.1 tyDevice with | some b => leAt b 4 1 | none => 0
        let (s, ok) := s.requestPace v
        .next (s.finish n t (if ok then stSuccess else 0x0006) 0
          [s.get CAT.EPOCH_VALUE, s.get CAT.DIGEST_HI_VALUE, s.get CAT.DIGEST_LO_VALUE])

/-! ### CLOSE_STREAM (R213, R214, R221, R234, R307) -/

/-- A picture of a closing stream is still needed: its own work, or that of a picture developed from it, has been dispatched. -/
def State.stillNeeded (s : State) (n : Nat) (p : Pic) : Bool :=
  p.dispatched || s.openStreams.any fun e => e.2.pics.any fun q => q.src == some (n, p.num) && q.dispatched

/-- A picture is given up before its work is dispatched. Its rows stay for those that read them. -/
def State.dropPic (s : State) (n : Nat) (p : Pic) : State :=
  let s := s.onPic n p.num fun q => { q with unitCount := 0, units := [], dispatched := true, finished := true, released := true, slipWritten := true }
  let s := match p.slip with | some (rp, id) => s.finishById rp id stFlushed [] | none => s
  (s.leaveSource n p).settle n

/-- ABORT (R214): pictures not dispatched are given up, with their frames, and slips that have not started complete with FLUSHED. -/
def State.abortStream (s : State) (n : Nat) : State :=
  let x := s.stream n
  let gone := x.pics.filter fun p => !p.dispatched && !p.released
  let frames := x.frames.filter fun f => gone.any fun p => p.num == f.num && !s.stillNeeded n p
  let s := frames.foldl (fun s f => f.members.foldl (fun s m => s.freeRows m.rows) s) s
  let s := s.setStream n { s.stream n with frames := (s.stream n).frames.filter fun f => !(frames.any fun g => g.num == f.num) }
  (gone.foldl (fun s p => s.dropPic n p) s).showQueues n

/-- Slips of a stream in its ring before a place that have not started complete with FLUSHED, in read order: how many. -/
def State.flushWaiting (s : State) (n k : Nat) (t : Taken) : State × Nat :=
  let l := (s.earlier n k).filter fun e => sameStream t e && !e.started
  (l.foldl (fun s e => s.finishById n e.id stFlushed []) s, l.length)

/-- A stream goes to CLOSING. Pictures that a decoder holds for output are put out. -/
def State.toClosing (s : State) (n : Nat) (abort : Bool) (slip : Option (Nat × Nat)) : State :=
  let s := s.setStream n { s.stream n with state := .closing, abort, closeSlip := slip }
  let s := s.flushStaged fun q => q.stream == n
  let s := s.closeFlows n
  let s := (s.bumpAll n).1
  if abort then s.abortStream n else s

/-- Open streams that are developed from a stream. -/
def State.dependents (s : State) (m : Nat) : List Nat :=
  ((s.openStreams.filter fun e => e.2.isDeveloped && e.2.geo.source == m && e.2.state == .opened).map (·.1)).filter (· != m)

/-- A slip staged to open a stream developed from a stream. -/
def Staged.developsFrom (q : Staged) (m : Nat) : Bool :=
  match q.what with
  | .openS kind _ _ c _ _ _ => (kind == 4 || kind == 7) && (c.geo.map (·.source)) == some m
  | _ => false

/-- Slips that name a stream, read before a slip where that is of the same ring, and not started. -/
def State.unstarted (s : State) (d n k : Nat) : List Taken :=
  let rp := (s.stream d).rp
  ((if rp = n then s.earlier n k else (s.ring rp).taken).filter fun e => !e.started && e.op != 0x0B && e.stream == some d)

/-- CLOSE_STREAM: streams developed from it go first. Its close joins an epoch once its work is finished. -/
def execCloseStream (n k : Nat) (s : State) : Host.Outcome State Fault Refusal :=
  match (s.ring n).taken[k]? with
  | none => .next s
  | some t =>
    let abort := bitAt (t.word 1) 8
    if t.op ≠ 0x02 ∨ t.started = true ∨ (bitAt t.flags 2 = true ∧ (s.earlier n k).isEmpty = false) then .next s
    else
      let m := t.streamField
      let forced := abort && t.reservedOk && s.streamFor n t [1, 2, 3, 4, 5, 6, 7] && (s.earlier n k).all fun e => e.op != 0x00
      let may := s.mayStart n k t || forced
      if may = false then .next s
      else if t.reservedOk = false then .next (s.finishInOrder n k t stBadField [])
      else if s.streamFor n t [1, 2, 3, 4, 5, 6, 7] = false then .next (s.finishInOrder n k t stBadStream [])
      else
        let deps := s.dependents m
        -- without ABORT every slip read before the close is finished first, those of the streams that close with it among them
        if !abort && deps.any fun d => !(s.unstarted d n k).isEmpty then .next s
        else
          let s := deps.foldl (fun s d => (s.unstarted d n k).foldl (fun s e => s.finishById (s.stream d).rp e.id stFlushed []) s) s
          let s := s.flushStaged fun q => q.developsFrom m
          let s := if abort then (s.flushWaiting n k t).1 else s
          let s := s.startSlip n t
          let s := deps.foldl (fun s d => s.toClosing d abort none) s
          .next (s.toClosing m abort (some (n, t.id)))

/-- No slip of a stream that has started is outstanding. -/
def State.slipsDone (s : State) (n : Nat) : Bool :=
  (s.ring (s.stream n).rp).taken.all fun e => !(e.started && e.op != 0x0B && e.stream == some n)

/-- A closing stream's work is finished (R214, R234, R307). -/
def State.closeReady (s : State) (n : Nat) : Bool :=
  let x := s.stream n
  x.state == .closing && x.pics.isEmpty && x.frames.isEmpty && !x.recorded && s.flowsIdle n &&
  (match x.closeSlip with
   | some (rp, id) => (match (s.ring rp).byId id, (s.ring rp).placeOf id with | some t, some k => s.mayComplete rp k t | _, _ => true)
   | none => s.slipsDone n) &&
  (s.openStreams.all fun e => !(e.2.isDeveloped && e.2.geo.source == n && e.1 != n) || e.2.closeEpoch.isSome ||
    (e.2.pics.isEmpty && s.flowsIdle e.1 && s.slipsDone e.1))

/-- A STATE slip of a stream developed from this one is still to be written ahead of this one's completion (R213). -/
def State.stateDue (s : State) (n : Nat) : Bool := s.rings.any fun r => s.ringOn r.1 && r.2.events.any fun e => e.before == some n

/-- The completion of a stream's close holds the stream's charge until it is written (R214). -/
def State.holdCharge (s : State) (rp n tag : Nat) (c : Nat × Nat) : State :=
  s.setRing rp { s.ring rp with compl := (s.ring rp).compl.map fun r =>
    if r.opcode = 0x02 ∧ r.stream = some n ∧ r.tag = tag ∧ r.status = stSuccess then { r with frees := c } else r }

/-- The applet that plans the stream and has not been called to close (R186). -/
def Stream.toClose (x : Stream) : Option Applet := x.applet.filter fun a => a.active && !(a.call.any fun c => c.entry == .rcClose)
/-- rc_close is called; what was due before it is not. -/
def State.closeCall (s : State) (n : Nat) (a : Applet) : State :=
  s.beginCall n { a with call := none, queue := [] } { entry := .rcClose, picture := 0, args := [a.dataAt], argLen := 0, writable := false, tick := 0 }

/-- STREAM_CLOSED: a stream whose close has been taken in an epoch reaches CLOSED; its queues, flows and spares go, and its completion is formed, which holds
its charge until it is written. A stream that was closed with its source has a STATE slip in its place, written ahead of the source's completion (R27, R213,
R214, R222, R243). Where an applet plans the stream, rc_close runs first, and the next STREAM_CLOSED finds it returned (R186; DESIGN CHOICE, log entry 129). -/
def execStreamClosed (n : Nat) (s : State) : Host.Outcome State Fault Refusal :=
  let x := s.stream n
  match x.closeEpoch with
  | none => .next s
  | some e =>
    let deps := s.openStreams.any fun d => d.2.isDeveloped && d.2.geo.source == n && d.1 != n
    if deps ∨ x.state ≠ .closing ∨ s.flowsIdle n = false ∨ s.stateDue n = true then .next s
    else match x.toClose with
    | some a => .next (s.closeCall n a)
    | none =>
      let (last, s) := match x.lastReleased with | some v => (v, s) | none => s.draw
      let s := s.freeFlows n
      let s := if x.isDeveloped ∧ x.closeSlip.isNone then
        (s.postEvent x.eventRing { eventSlip 0 (some n) 5 0 [0, 0x0010] with before := some x.geo.source }).beginDrain x.eventRing else s
      let s := match x.applet with | some a => if a.active then s.setHart a.hart { s.hart a.hart with user := false } else s | none => s
      let s := s.setStream n Stream.init
      let s := match x.closeSlip with
        | some (rp, id) =>
          (match (s.ring rp).byId id with
           | some t => (s.finish rp t stSuccess 0 [last % 2 ^ 32, e]).holdCharge rp n t.tag (x.cu, x.su)
           | none => s)
        | none => s
      let s := s.showPorts.showHold.showLedger.showBusy x.rp
      .next (if s.sparesHeld then s else
        ((List.range 86).foldl (fun s i => if s.on (engSpare i) then s.put (engSpare i) 0 else s) s).showSpares)

/-! ### FLUSH_STREAM (R215) -/

/-- The pictures that a flush waits for are done. -/
def Stream.flushDone (x : Stream) (upto : Nat) : Bool :=
  (x.pics.all fun p => decide (upto ≤ p.num) || (p.released && p.slipWritten)) && x.frames.all fun f => decide (upto ≤ f.num)

/-- FLUSH_STREAM: begins, with DISCARD giving up earlier slips that have not started, or completes and drains the events. -/
def execFlushStream (n k : Nat) (s : State) : Host.Outcome State Fault Refusal :=
  match (s.ring n).taken[k]? with
  | none => .next s
  | some t =>
    let m := t.streamField
    let discard := bitAt (t.word 1) 8
    if t.op ≠ 0x06 ∨ t.verdict.isSome = true then .next s
    else if t.started = false then
      let may := s.mayStart n k t || (discard && t.reservedOk && s.streamFor n t [1, 2, 3, 4, 5, 6, 7] &&
        !(bitAt t.flags 2 && !(s.earlier n k).isEmpty) && (s.earlier n k).all fun e => e.op != 0x00)
      let flushing := (s.earlier n k).any fun e => sameStream t e && e.op == 0x06
      if may = false ∨ flushing = true then .next s
      else if t.reservedOk = false then .next (s.finishInOrder n k t stBadField [])
      else if s.streamFor n t [1, 2, 3, 4, 5, 6, 7] = false then .next (s.finishInOrder n k t stBadStream [])
      else
        let staged := (s.staged.filter fun q => q.stream == m).length
        let (s, c) := if discard then s.flushWaiting n k t else (s, 0)
        let s := if discard then s.flushStaged fun q => q.stream == m else s
        let s := (s.startSlip n t).setStream m { s.stream m with flush := some (if discard then c + staged else 0, (s.stream m).nextPic) }
        .next (s.bumpAll m).1
    else
      match (s.stream m).flush with
      | some (c, upto) =>
        if s.mayComplete n k t && (s.stream m).flushDone upto then
          let s := s.setStream m { s.stream m with flush := none }
          .next (((s.finish n t stSuccess 0 [c]).startDrain (s.stream m).eventRing).settle m)
        else .next s
      | none => .next s

end Sys2Proof.Machine
end

