-- ==== Sys2Proof/Machine/Completions.lean ====
section
/-! DEFINITION. Writing completions, and what waits for one to be written (R208, R209, R212, R214). -/
namespace Sys2Proof.Machine

/-- What the writing of a completion sets free: the charge of a stream closed (R214), and the slips of pictures that follow a RECORD_START (R208). -/
def State.written (s : State) (r : RetSlip) : State :=
  let s := if r.frees = (0, 0) then s else s.showLedger
  match r.stream with
  | some m => if r.opcode = 0x07 then s.settle m else s
  | none => s

/-- The oldest completion of a ring takes the next free slot (R209). -/
def State.writeCompletion (s : State) (n : Nat) : State :=
  match (s.ring n).compl with
  | [] => s
  | r :: rest =>
    if s.mayWrite n && decide (0 < s.rqFree n) then
      (((s.setRing n { s.ring n with compl := rest }).writeSlip n r).showBusy n).written r
    else s

/-- COMPLETION_WRITE. -/
def execCompletionWrite (n : Nat) (s : State) : Host.Outcome State Fault Refusal := .next ((s.writeCompletion n).takeAll n)

/-- Completions that wait are written while there is room. -/
def State.writeWaiting (s : State) (n : Nat) : Nat → State
  | 0 => s
  | f + 1 => (s.writeCompletion n).writeWaiting n f

/-- Every slip that waits on a ring is written, the completions first. -/
def State.writeAllWaiting (s : State) (n : Nat) : State :=
  if s.ringOn n then
    let s := s.writeWaiting n (s.ring n).compl.length
    if (s.ring n).compl.isEmpty then (s.beginDrain n).takeAll n else s
  else s

/-- HOST_D0_RETURN: every waiting slip is written first; each vector pending then is sent, once, and its VEC_LATE set (R212). `fnMask`: the
function mask of MSI-X as it stands then. -/
def execHostD0Return (fnMask : Bool) (s : State) : Host.Outcome State Fault Refusal :=
  let s := { s with hostFn := { s.hostFn with d3 := false, busMaster := true, fnMask := true } }
  let s := (List.range 64).foldl (fun s n => s.writeAllWaiting n) s
  let s := { s with hostFn := { s.hostFn with fnMask } }
  .next ((List.range 64).foldl (fun s v =>
    if s.vecPending v && !s.hostFn.fnMask && !s.on (HIF.MSIX_CTL_MASK v) then (s.sendPending v).putBit (HIF.VEC_LATE 0) v true else s) s)

end Sys2Proof.Machine
end

