-- ==== Sys2Proof/Machine/Conserv.lean ====
section
/-! DEFINITION. Ageing and margin planning: rounds, the plan, its limits, the ramp, the regulator (R507 to R520). -/
namespace Sys2Proof.Machine

def consUnit : Nat := 0x1F2

/-! ### Bands (R509, R511) -/

/-- The 5 °C band of a temperature in 1/8 °C. -/
def bandOf (t : Int) : Nat := (clampI ((t + 320) / 40) 0 29).toNat
/-- The band after one, Tj having moved 1 °C past its edges. -/
def nextBand (b : Nat) (t : Int) : Nat := if b < bandOf (t - 8) then bandOf (t - 8) else if bandOf (t + 8) < b then bandOf (t + 8) else b

/-- Tj is measured: TEMP, the band, and the second that a fall waits (R511). -/
def State.noteTj (s : State) (t : Int) : State :=
  let old := s.get CNS.TEMP_BAND
  let b := match s.cons.tj with | some _ => nextBand old t | none => bandOf t
  let fresh := s.cons.tj.isNone
  let s := (s.put CNS.TEMP_TJ (ofSigned 16 t)).put CNS.TEMP_BAND b
  let s := { s with cons := { s.cons with tj := some t, dwell := if fresh then none else if b = old then s.cons.dwell else some s.ticks } }
  s.showTarget

/-! ### Limits (R514) -/

/-- MARGIN is logged as a condition arises. -/
def State.margin (s : State) (cause id : Nat) : State :=
  if s.cons.margins.contains (cause, id) then s
  else
    let s := { s with cons := { s.cons with margins := (cause, id) :: s.cons.margins } }
    (s.put CNS.CNS_STAT_MARGIN_CAUSE cause).report consUnit 0x42 none (256 * cause + id)
/-- A condition is found no more. -/
def State.marginOver (s : State) (cause id : Nat) : State :=
  { s with cons := { s.cons with margins := s.cons.margins.filter (· != (cause, id)) } }
def State.marginIf (s : State) (c : Bool) (cause id : Nat) : State := if c then s.margin cause id else s.marginOver cause id

/-- The greatest target of a pace, in mV. -/
def paceLimit (pace : Nat) : Nat := if pace = 1 then 860 else 900

/-! ### The plan (R509, R510, R512) -/

/-- The greatest need of a key among lists of needs, in µV. -/
def needOf (l : List (List (Nat × Nat))) (k : Nat) : Nat := l.foldl (fun a r => (r.filter (·.1 == k)).foldl (fun a q => max a q.2) a) 0

/-- The target of a pace and a band before its limit: the greatest need of the band and its neighbours, rounded up to 1 mV, and 5 mV of guard;
0 where nothing has been measured. -/
def targetOf (l : List (List (Nat × Nat))) (pace band : Nat) : Nat :=
  let bands := (List.range 30).filter fun b => decide (b ≤ band + 1 ∧ band ≤ b + 1)
  let n := bands.foldl (fun a b => max a (ceilDiv (needOf l (planKey pace b)) 1000)) 0
  if n = 0 then 0 else n + 5

/-- The needs that count: those of the last 60 s, and an adopted record's for the first plan. -/
def State.needsNow (s : State) : List (List (Nat × Nat)) :=
  (s.cons.seen.filter fun q => decide (s.ticks - q.1 ≤ 250000 * 60000)).map (·.2) ++ (if s.cons.first then [s.cons.aged] else [])

/-- A new value differs enough to be taken. -/
def differs (a b : Nat) : Bool := decide (a + 3 ≤ b ∨ b + 3 ≤ a)

/-- The targets that change, as (key, mV). -/
def State.newTargets (s : State) : List (Nat × Nat) :=
  let l := s.needsNow
  (List.range 3).flatMap fun pace => (List.range 30).filterMap fun b =>
    let raw := targetOf l pace b
    let v := min raw (paceLimit pace)
    if raw ≠ 0 ∧ differs (Tab.get (fun _ => 0) s.cons.plan (planKey pace b)) v = true then some (planKey pace b, v) else none

/-- A re-plan is counted, stamped and signalled. -/
def State.countReplan (s : State) : State :=
  ((s.bump CNS.REPLANS_VALUE).putTime CNS.LAST_SEC_LO CNS.LAST_SEC_HI CNS.LAST_NS s.now).raise 3

/-- Causes 0 and 3 of R514 as the needs stand. They concern the common rail, domain 112. -/
def State.checkLimits (s : State) : State :=
  let l := s.needsNow
  let above := [0, 2].any fun pace => (List.range 30).any fun b => decide (900 < targetOf l pace b)
  let s := s.marginIf above 0 112
  if s.power.held then s
  else if 860 < targetOf l 1 (s.get CNS.TEMP_BAND) then
    (if s.on CNS.CNS_STAT_PACE_LIMITED then s else ((s.put CNS.CNS_STAT_PACE_LIMITED 1).margin 3 112).raise 3)
  else (s.put CNS.CNS_STAT_PACE_LIMITED 0).marginOver 3 112

/-- Targets are planned again from the needs that count; whether one has changed. -/
def State.planTargets (s : State) : State × Bool :=
  let l := s.newTargets
  let s := { s with cons := { s.cons with plan := l.foldl (fun (p : Tab Nat) (q : Nat × Nat) => Tab.set (fun _ => 0) p q.1 q.2) s.cons.plan } }
  (s.showTarget, !l.isEmpty)

/-- The greatest trim of a domain that every round of the last 60 s allows: 0 to 40 mV. -/
def State.roomFor (s : State) (d : Nat) : Nat := s.cons.rooms.foldl (fun a r => (r.2.filter (·.1 == d)).foldl (fun a q => min a q.2) a) 40

/-- Trims are planned for the domains that the round measured. -/
def State.planTrims (s : State) (l : List (Nat × Nat)) : State × Bool :=
  let ds := (l.map (·.1)).filter fun d => decide (d < 112) && s.bitOn PWR.PD_STAT0 d && differs (Tab.get (fun _ => 0) s.cons.trims d) (s.roomFor d)
  ({ s with cons := { s.cons with trims := ds.foldl (fun t d => Tab.set (fun _ => 0) t d (s.roomFor d)) s.cons.trims } }, !ds.isEmpty)

/-- The centre register of a DRAM lane by its key. -/
def centreField (key : Nat) : Fld :=
  ⟨if key % 2 = 1 then DRC.CH_WR_CENTRE (key / 4) else DRC.CH_RD_CENTRE (key / 4), 8 * (key / 2 % 2), 8⟩

/-- Centres whose eye's middle lies 2 taps or more away are to move. -/
def State.planCentres (s : State) (l : List (Nat × Nat × Nat)) : State × Bool :=
  let mid : Nat × Nat × Nat → Nat := fun q => q.2.1 + (q.2.2 - 1) / 2
  let ch := l.filter fun q => decide (2 ≤ (mid q - s.get (centreField q.1)) + (s.get (centreField q.1) - mid q)) && decide (q.1 < 4 * (if s.big then 8 else 4))
  ({ s with cons := { s.cons with centres := ch.foldl (fun t q => Tab.set (fun _ => none) t q.1 (some (mid q))) s.cons.centres } }, !ch.isEmpty)

/-! ### What a round shows (R507, R508, R519, R520) -/

/-- Data rate in MT/s (R355). -/
def rateMts (r : Nat) : Nat := if r = 0 then 6400 else if r = 1 then 7500 else if r = 2 then 8533 else 9600
/-- An eye width in ps, rounded to the nearest. -/
def eyePs (taps mts : Nat) : Nat := (taps * 2000000 + mts * 64) / (2 * mts * 64)

/-- DOMAIN_STAT follows DOMAIN_SEL. -/
def State.showDomain (s : State) : State :=
  if s.big then
    let d := s.get CNS.DOMAIN_SEL_DOMAIN
    ((s.put CNS.DOMAIN_STAT_VALID (if s.cons.measured.contains d then 1 else 0)).put CNS.DOMAIN_STAT_TRIM_MV (Tab.get (fun _ => 0) s.cons.trimNow d)).put
      CNS.DOMAIN_STAT_SLACK (Tab.get (fun _ => 0) s.cons.slacks d)
  else s

/-- Slacks of the round and the least of them. -/
def State.showSlacks (s : State) (l : List (Nat × Nat)) : State :=
  let s := { s with cons := { s.cons with measured := l.map (·.1), slacks := l.foldl (fun t q => Tab.set (fun _ => 0) t q.1 q.2) [] } }
  match l with
  | [] => s
  | a :: r =>
    let m := r.foldl (fun m q => if q.2 < m.2 then q else m) a
    if s.big then ((s.put CNS.SLACK_MIN_DOMAIN m.1).put CNS.SLACK_MIN_SLACK m.2).showDomain else s

/-- Eye widths of the round. -/
def State.showEyes (s : State) (l : List (Nat × Nat × Nat)) : State :=
  if s.big then
    l.foldl (fun s q =>
      let r := if q.1 % 2 = 1 then CNS.EYE_WR (q.1 / 4) else CNS.EYE_RD (q.1 / 4)
      if q.1 < 32 then s.put ⟨r, 16 * (q.1 / 2 % 2), 16⟩ (eyePs q.2.2 (rateMts (s.get DRC.DRC_CFG_RATE))) else s) s
  else s

/-- A domain is measured: on, or the common core (R507). -/
def State.measurable (s : State) (d : Nat) : Bool := d == 112 || (decide (d < 112) && s.bitOn PWR.PD_STAT0 d)

/-- Causes 0 and 1 of R514 as the round finds them. -/
def State.roundMargins (s : State) (r : RoundIn) : State :=
  let s := r.eyes.foldl (fun s q => if s.power.held then s else s.marginIf (decide (q.2.2 < 16)) 1 q.1) s
  r.slacks.foldl (fun s q => if s.power.held ∨ s.measurable q.1 = false then s else s.marginIf (decide (q.2 < 50 ∧ 900 ≤ s.cons.rail)) 0 q.1) s

/-- The Conservator runs: it has started, and is in no fault state, in which a unit takes no new work (R440, R515). -/
def State.consRuns (s : State) : Bool := s.cons.started && !s.faulty consUnit

/-- CONSERVATOR_ROUND: the end of a round of 10 s. In BASELINE it measures without re-planning (R515). -/
def execConservatorRound (r : RoundIn) (s : State) : Host.Outcome State Fault Refusal :=
  if s.consRuns = false then .next s
  else
    let temps := (r.temps.filter fun q => s.measurable q.1).map (·.2)
    let s := match temps with | [] => s | a :: l => s.noteTj (l.foldl max a)
    let s := (s.showSlacks (r.slacks.filter fun q => s.measurable q.1)).showEyes r.eyes
    let young : Nat × List (Nat × Nat) → Bool := fun q => decide (s.ticks - q.1 ≤ 250000 * 60000)
    let s := { s with cons := { s.cons with
      seen := (s.ticks, r.needs) :: s.cons.seen.filter young, rooms := (s.ticks, r.trims) :: s.cons.rooms.filter young, aged := if s.cons.first then r.aged else s.cons.aged } }
    let s := s.roundMargins r
    if s.power.held then .next s
    else if s.consState = csBaseline then .next s.showRamp
    else
      let s := s.checkLimits
      if s.power.held then .next s
      else
        let (s, a) := s.planTargets
        let (s, b) := s.planTrims r.trims
        let (s, c) := s.planCentres r.eyes
        let s := { s with cons := { s.cons with first := false } }
        .next (if a || b || c then s.countReplan else s).showRamp

/-- SLACK_ALARM (R513): a domain's least slack is below 5 %, and `needs` is what its monitors now ask for. -/
def execSlackAlarm (d slack : Nat) (needs : List (Nat × Nat)) (s : State) : Host.Outcome State Fault Refusal :=
  if s.consRuns = false ∨ 50 ≤ slack ∨ s.measurable d = false then .next s
  else
    let s := { s with cons := { s.cons with seen := (s.ticks, needs) :: s.cons.seen } }
    let s := (s.raise 3).marginIf (decide (900 ≤ s.cons.rail)) 0 d
    if s.power.held ∨ s.consState = csBaseline then .next s
    else
      let s := s.checkLimits
      if s.power.held then .next s
      else
        let (s, a) := s.planTargets
        .next (if a then s.countReplan else s).showRamp

/-- BASELINE_TIMEOUT: 60 s after ALIVE with no record, the Conservator plans from its own measurements (R515). -/
def execBaselineTimeout (s : State) : Host.Outcome State Fault Refusal :=
  match s.keeper.aliveTick with
  | none => .next s
  | some t =>
    if s.consRuns = false ∨ s.consState ≠ csBaseline ∨ s.usSince t < 60000000 then .next s
    else
      let s := (s.put CNS.CNS_STAT_STATE csPlanned).checkLimits
      if s.power.held then .next s
      else
        let (s, a) := s.planTargets
        .next (if a then s.countReplan else s).showRamp

/-- A record is adopted (R480, R515, R516). -/
def State.adopt (s : State) (seq : Nat) : State :=
  let s := ((s.put CNS.REPLANS_VALUE (min seq (2 ^ 32 - 1))).put CNS.CNS_STAT_RECORD 1).put KPR.BOOT_STAT_AGEING_ADOPTED 1
  let s := s.put CNS.CNS_STAT_STATE csPlanned
  { s with keeper := { s.keeper with record := none }, cons := { s.cons with first := true } }

/-- The Conservator starts once the fuse load has been verified (R515). -/
def State.consStart (s : State) (f : FuseLoad) : State :=
  let s := { s with cons := { Conservator.init with
    started := true, rail := s.cons.rail, plan := f.baseline.foldl (fun (p : Tab Nat) (q : Nat × Nat) => Tab.set (fun _ => 0) p q.1 q.2) [] } }
  ((s.put CNS.CNS_STAT_STATE csBaseline).noteTj f.tj).showTarget.showRamp

/-- After a warm reset and a wake from Vault it starts in PLANNED from the plan held in PDA, and counts as having adopted a record (R516). -/
def State.consResume (s : State) : State :=
  let s := { s with cons := { s.cons with started := true, first := false } }
  let s := (((s.put CNS.CNS_STAT_STATE csPlanned).put CNS.CNS_STAT_RECORD 1).put KPR.BOOT_STAT_AGEING_ADOPTED 1)
  (match s.cons.tj with | some t => s.noteTj t | none => s).showTarget.showRamp

/-! ### The ramp and the regulator (R511, R517) -/

/-- One step of 1 mV from one value towards another. -/
def stepTo (a b : Nat) : Nat := if a < b then a + 1 else if b < a then a - 1 else a

/-- VDD_CORE moves by one step over AVSBus: a rise at once, a fall once the band has dwelt. -/
def State.stepCore (s : State) : State :=
  let t := s.get CNS.VOLTAGE_TARGET_MV
  let v := s.cons.rail
  if s.consState = csHeld ∨ t = 0 ∨ v = t ∨ (t < v ∧ s.cons.dwell.isSome = true) then s
  else { s with cons := { s.cons with rail := stepTo v t } }.put CNS.VOLTAGE_PRESENT_MV (stepTo v t)

/-- Trims move so that each domain's voltage, VDD_CORE less its trim, moves by 1 mV at most: with VDD_CORE or while it stands. -/
def State.stepTrims (s : State) (before : Nat) : State :=
  let d : Int := Int.ofNat s.cons.rail - Int.ofNat before
  s.trimsMoving.foldl (fun s k =>
    let a := Tab.get (fun _ => 0) s.cons.trimNow k
    let b := stepTo a (Tab.get (fun _ => 0) s.cons.trims k)
    let e : Int := Int.ofNat b - Int.ofNat a
    if (d - e).natAbs ≤ 1 then { s with cons := { s.cons with trimNow := Tab.set (fun _ => 0) s.cons.trimNow k b } } else s) s

/-- VOLTAGE_STEP: every 10 ms (R511). A pace's ramp that has reached its target is done (R17 rule 3). -/
def execVoltageStep (s : State) : Host.Outcome State Fault Refusal :=
  if s.cons.started = false ∨ s.power.held = true then .next s
  else
    let s := s.showTarget
    let before := s.cons.rail
    let s := ((s.stepCore).stepTrims before).showDomain
    let done := s.cons.rail == s.get CNS.VOLTAGE_TARGET_MV
    .next (if done && s.on TOP.PACE_STAT_RAMPING then s.rampDone else s).showRamp

/-- BAND_DWELL_EXPIRY: Tj has stayed in the new band for 1 s, and a fall may start (R511). -/
def execBandDwellExpiry (s : State) : Host.Outcome State Fault Refusal :=
  match s.cons.dwell with
  | some t => .next (if s.usSince t < 1000000 then s else { s with cons := { s.cons with dwell := none } })
  | none => .next s

/-- AVS_TRANSACTION: a transaction and its read-back in mV, or a failure (R517). -/
def execAvsTransaction (ok : Bool) (mv : Nat) (s : State) : Host.Outcome State Fault Refusal :=
  if s.cons.started = false ∨ s.power.held = true then .next s
  else
    let far := decide (s.cons.rail + 10 < mv ∨ mv + 10 < s.cons.rail)
    let fails := if ok then 0 else s.cons.fails + 1
    let s := { s with cons := { s.cons with fails } }
    if (ok && far) || decide (3 ≤ fails) then
      (if s.consState = csHeld then .next s
       else .next (((s.put CNS.CNS_STAT_AVS_ERR 1).put CNS.CNS_STAT_STATE csHeld).margin 2 112))
    else if ok && s.consState == csHeld then
      .next ((((s.put CNS.CNS_STAT_AVS_ERR 0).put CNS.CNS_STAT_STATE csPlanned).marginOver 2 112).showTarget.showRamp)
    else .next s

end Sys2Proof.Machine
end

