-- ==== Sys2Proof/Machine/Faults.lean ====
section
/-! DEFINITION. The Registrar's and the Catalogue's commands, migration, and faults of the links (R436 to R465). -/
namespace Sys2Proof.Machine

/-- The memories of R345 and R356: DRAM channels, Stacks banks, and those of engines, curators and keeper. -/
def isMemory (u : Nat) : Bool :=
  (engineOf u).isSome || decide ((0x100 ≤ u ∧ u ≤ 0x107) ∨ (0x110 ≤ u ∧ u ≤ 0x117) ∨ (0xC0 ≤ u ∧ u ≤ 0xC9) ∨ u = 0xD0 ∨ u = 0xD1)
/-- Units that a kind is reported for (R438). -/
def kindFits (k u : Nat) : Bool :=
  let engine := (engineOf u).isSome
  let carrel := decide (u ≤ 0x43)
  kindKnown k &&
  (if [0x02, 0x05, 0x06].contains k then carrel
   else if [0x03, 0x04, 0x07, 0x08, 0x09, 0x0A, 0x0B].contains k then engine
   else if k = 0x10 ∨ k = 0x11 then isMemory u
   else if k = 0x12 ∨ k = 0x13 then decide (0x110 ≤ u ∧ u ≤ 0x117)
   else if [0x18, 0x19, 0x1A].contains k then u == 0x180
   else if [0x20, 0x22, 0x23].contains k then decide (0xC0 ≤ u ∧ u ≤ 0xC9)
   else if k = 0x21 then u == 0xD0
   else if k = 0x28 ∨ k = 0x29 then u == 0x160
   else if k = 0x30 ∨ k = 0x31 then u == 0x120
   else if [0x32, 0x33, 0x34].contains k then u == 0x121 || u == 0x122
   else if k = 0x35 then u == 0x130 || u == 0x131
   else if k = 0x36 then decide (0x140 ≤ u ∧ u ≤ 0x145)
   else if k = 0x37 then [0x110, 0x121, 0x122, 0x130, 0x131, 0x140, 0x150].contains u
   else if k = 0x40 then u == 0x150
   else if k = 0x41 ∨ k = 0x42 then u == 0x1F2
   else if k = 0x51 then u == 0x1F0
   else true)

/-- FAULT_MESSAGE (R437 to R443): a unit reports a kind that R438 lists for it. Other kinds, and units that the grade does not
enable, are never reported. Work that C1 would send for dispatch again is lost for an Open stream (R439). -/
def execFaultMessage (u k : Nat) (detail : Option Nat) (raw addr : Nat) (s : State) : Host.Outcome State Fault Refusal :=
  if kindFits k u && s.unitEnabled u then
    let work := s.workOf u
    let s := s.reportAs u k (if k = 0x20 then (if s.on ICU.ICU_STAT_SPARE_LEFT then 2 else 3) else kindClass k u) detail raw addr false
    match work, engineOf u with
    | some (n, p, j, _), some i =>
      if (k = 0x05 ∨ k = 0x08) ∧ (s.stream n).prot = 2 ∧ (s.engine i).work.isSome then
        .next (((s.abandon i).unplace i |>.put (engState i) stIdle).loseWork u n p j)
      else .next s
    | _, _ => .next s
  else .next s

/-- A write of RGS.ACK (R442, R464): every message of the class from the unit, or from every unit, is acknowledged. -/
def execAck (all : Bool) (c u : Nat) (s : State) : Host.Outcome State Fault Refusal :=
  if c < 4 then
    .next { s with rgs := { s.rgs with unack := s.rgs.unack.filter fun a => !(a.cls == c && (all || a.unit == u)) } }
  else .next s

/-- A write of RGS.INJECT (R464): the message is logged with INJECTED and acts as a real one; a class of 4 or above, a unit that is
not enabled, or a kind not in R438 leaves it ignored. -/
def execInject (c k u : Nat) (s : State) : Host.Outcome State Fault Refusal :=
  if c < 4 ∧ kindKnown k ∧ s.unitEnabled u then .next (s.reportAs u k c none 0xFF 0 true) else .next s

/-- The 1 ms for which FAULT_N is held from a message has passed (R444). -/
def execFaultNHoldExpiry (s : State) : Host.Outcome State Fault Refusal :=
  match s.rgs.hold with
  | some t => .next (if t ≤ s.ticks then { s with rgs := { s.rgs with hold := none } } else s)
  | none => .next s

/-! ### Migration (R451, R454) -/

/-- The count of a fenced unit's outstanding writes is 0, and the drain ends. -/
def execWriteDrainEmpty (i : Nat) (s : State) : Host.Outcome State Fault Refusal :=
  let e := s.engine i
  .next (if e.drain.isSome ∧ e.writes = 0 then s.setEngine i { e with drain := none } else s)

/-- A unit's writes leave the write queues (R451). -/
def State.voidWrites (s : State) (i : Nat) : State :=
  s.chans.foldl (fun s e => s.setChan e.1 { e.2 with writeQ := e.2.writeQ.filter (·.engine != some i) }) s

/-- 20 µs after the fence, every write still counted is voided, and WRITES_VOIDED logged. -/
def execWriteDrainTimeout (i : Nat) (s : State) : Host.Outcome State Fault Refusal :=
  let e := s.engine i
  match e.drain with
  | some t =>
    if 20 ≤ s.usSince t then
      let s := s.setEngine i { e with drain := none, writes := 0 }
      .next (if e.writes = 0 then s else (s.voidWrites i).report 0x180 0x1A none (unitOfEngine i))
    else .next s
  | none => .next s

/-- REDISPATCH (R451 step 3, R439): the work that unit i held is dispatched with a new epoch, the same plan and its PROG as the
starting chunk: to the spare that took a fenced unit's place, or to unit `to` where none was named. A fenced unit is drained first. -/
def execRedispatch (i dest : Nat) (s : State) : Host.Outcome State Fault Refusal :=
  let e := s.engine i
  let k := e.heir.getD dest
  match e.work with
  | some (n, p, j, run) =>
    if e.drain.isNone ∧ s.engineFree k ∧ isCarrel k = isCarrel i ∧ k ≠ i then
      let prog := s.get (engProg i)
      let s := s.unplace i
      let s := s.setEngine i { s.engine i with heir := none }
      let s := if s.get (engState i) = stFenced then s else s.put (engState i) stIdle
      let s := s.onPic n p fun q => q.setUnit j { q.unit j with redone := true, redoTick := (q.unit j).redoTick <|> some s.ticks }
      let s := s.place n p j run k prog
      let s := if isCarrel i then s else s.setEngine k { s.engine k with ckpt := e.ckpt }
      .next (s.bump RGS.MIGRATIONS_COUNT)
    else .next s
  | none => .next s

/-! ### The Catalogue's sweep (R461, R462) -/

/-- Units that hold a configuration epoch and a digest (R461): every enabled unit but the Dater, Registrar, Catalogue, and reset and
power controller. -/
def State.digestUnits (s : State) : List Nat :=
  (List.range 0x200).filter fun u => s.unitEnabled u && u != 0x150 && u != 0x1F0 && u != 0x1F1 && u != 0x1F3

/-- What the sweep expects of a unit that reports an epoch (R462). -/
def State.expected (s : State) (c : CatUnit) : Option Nat :=
  if c.epoch = s.get CAT.EPOCH_VALUE then some c.expect
  else match s.cat.taking with
    | some (e, _) => if c.epoch = e then some c.expectNext else none
    | none => none

/-- A unit is swept: a mismatch is counted and reported, C3 where the Catalogue's rewrite has not mended it (R439, R462). -/
def State.sweepUnit (s : State) (u : Nat) : State :=
  let c := s.catUnit u
  let want := s.expected c
  let s := s.setCatUnit u { c with seen := (c.epoch, c.digest, want.getD 0), rewritten := false }
  if want = some c.digest then s
  else
    let s := (s.bump CAT.MISMATCHES_COUNT).raise 2
    s.reportAs u 0x48 (if c.rewritten then 3 else 2) none 0xFF 0 false

/-- DIGEST_SWEEP: every unit that is powered and not in its fault state. `held`: units whose configuration has been damaged since the
last sweep, with the epoch and digest they now hold. No sweep is made before an epoch is taken. -/
def execDigestSweep (held : List (Nat × Nat × Nat)) (s : State) : Host.Outcome State Fault Refusal :=
  if s.on CAT.CAT_STAT_EPOCH_VALID then
    let s := held.foldl (fun s h => s.setCatUnit h.1 { s.catUnit h.1 with epoch := h.2.1, digest := h.2.2 }) s
    let us := s.digestUnits.filter fun u => s.powered u && !s.faulty u
    .next ((us.foldl (fun s u => if s.power.held then s else s.sweepUnit u) s).bump CAT.SWEEPS_COUNT)
  else .next s

/-! ### The PCIe endpoint (R438, R457) -/

/-- The link leaves L0 without a host request, or an uncorrectable error is logged. -/
def execPcieLinkDown (linkLost : Bool) (s : State) : Host.Outcome State Fault Refusal :=
  let s := if linkLost then { s with hostFn := { s.hostFn with link := 4 } } else s
  .next (s.report 0x120 0x31 none 0)

/-- A correctable error is logged in the AER capability. -/
def execPcieCorrectedError (s : State) : Host.Outcome State Fault Refusal := .next (s.report 0x120 0x30 none 0)

end Sys2Proof.Machine
end

