-- ==== Sys2Proof/Machine/Epochs.lean ====
section
/-! DEFINITION. Configuration epochs: when one begins, when it is taken, and what its slips then change (R27, R125, R220, R221, R459 to R463). -/
namespace Sys2Proof.Machine

/-- The epoch number after another (R459). -/
def nextEpoch (e : Nat) : Nat := if e = 0xFFFFFFFF then 1 else e + 1

/-- Closing streams whose work is finished, as they join an epoch (R214, R220). -/
def State.closings (s : State) : List Staged :=
  (s.openStreams.filter fun e => e.2.closeEpoch.isNone && s.closeReady e.1).map fun e =>
    let c := e.2.closeSlip.getD (e.2.rp, 0)
    { rp := c.1, id := c.2, stream := e.1, what := .closeS }

/-- A stream is at a picture boundary: no picture of it has dispatched work that is not committed (R220). -/
def Stream.atBoundary (x : Stream) : Bool := x.pics.all fun p => !p.dispatched || p.finished

/-- An epoch begins: every unit receives its new configuration and is to acknowledge it (R459, R461). -/
def State.beginEpoch (s : State) : State :=
  let s := { s with taking := s.staged ++ s.closings, staged := [], cat := { s.cat with taking := some (nextEpoch (s.get CAT.EPOCH_VALUE), s.ticks) } }
  let s := s.digestUnits.foldl (fun s u =>
    let (v, s) := s.draw
    s.setCatUnit u { s.catUnit u with expectNext := v % 2 ^ 64, waiting := s.powered u }) s
  s.put CAT.CAT_STAT_WAITING_ACK 1

/-- EPOCH_BEGIN (R220 step 2): once every stream that the staged slips touch is at a boundary. -/
def execEpochBegin (s : State) : Host.Outcome State Fault Refusal :=
  let ready := s.staged.all fun q => match q.what with | .setS _ _ _ => (s.stream q.stream).atBoundary | _ => true
  if s.cat.taking.isNone ∧ s.on HIF.HIF_STAT_READY = true ∧ ready = true ∧ (s.staged.isEmpty && s.closings.isEmpty) = false then
    .next s.beginEpoch
  else .next s

/-- A port's greatest queue depth counts from the opening of a stream on it (R245). -/
def State.freshPorts (s : State) (ports : List Nat) : State :=
  ports.foldl (fun s p => s.put (ACC.PORT_DEPTH_MAX p) 0) s

/-- The least ingest slot that no open capture stream has. -/
def State.freeSlot (s : State) : Nat :=
  let used := (s.openStreams.filter fun e => e.2.kind == 1).map (·.2.slot)
  ((List.range 16).find? fun i => !used.contains i).getD 0

/-- A stream context as OPEN_STREAM leaves it (R50, R178, R182, R214). -/
def openedStream (kind prot rp slot : Nat) (sub : Bool) (secs : Sections) (lim : TileLimit) (cu su : Nat) : Stream :=
  let x : Stream := { Stream.init with
    state := .opened, kind, prot, subFrame := sub, rp, secs, cu, su, lim, slot }
  { x with fullness := Int.ofNat (x.cpbBits / 2), kIntra := x.seed true, kInter := x.seed false }

/-- The applet that a stream names is set up and rc_open called (R184 to R186, R188). The firmware chooses its hart, its data region and the place of its
argument buffers (log entry 129). -/
def State.openApplet (s : State) (n : Nat) : State :=
  match s.cat.applets.find? fun a => a.id == (s.stream n).rateP.applet && a.id != 0 with
  | none => s
  | some image =>
    let (hart, s) := s.draw
    let (data, s) := s.draw
    let (args, s) := s.draw
    let a : Applet := { active := true, log := [], image, hart := hart % 4, dataAt := 4096 * (data % 2 ^ 24), argsAt := 4096 * (args % 2 ^ 24), call := none, queue := [] }
    s.beginCall n a { entry := .rcOpen, picture := 0, args := [a.dataAt, a.argsAt], argLen := 4096, writable := false, tick := 0 }

/-- A stream under a new configuration. A seed that changes replaces the constant learnt (R182, R224). -/
def Stream.reconfigured (x : Stream) (secs : Sections) (cu su : Nat) : Stream :=
  let y := { x with secs, cu, su }
  { y with kIntra := if x.seed true = y.seed true then x.kIntra else y.seed true,
           kInter := if x.seed false = y.seed false then x.kInter else y.seed false }

/-- A slip of the epoch takes effect. A stream that is opened while the stream it is developed from closes goes to CLOSING with it (R213). -/
def State.applySlip (s : State) (q : Staged) (epoch : Nat) : State :=
  match q.what with
  | .openS kind prot sub secs lim cu su =>
    let s := s.setStream q.stream (openedStream kind prot q.rp s.freeSlot sub secs lim cu su)
    let s := (((s.freshPorts (if kind = 1 then (s.stream q.stream).ports else [])).openFlows q.stream).showBusy q.rp).openApplet q.stream
    let src := s.stream (s.stream q.stream).geo.source
    if (s.stream q.stream).isDeveloped ∧ src.state ≠ .opened then s.toClosing q.stream src.abort none else s
  | .setS secs cu su => s.setStream q.stream ((s.stream q.stream).reconfigured secs cu su)
  | .closeS => s.setStream q.stream { s.stream q.stream with closeEpoch := some epoch }

/-- Bytes of a stream's buffer through the address space of its ring pair; `none` where the access faults. -/
def State.streamRead (s : State) (n va len : Nat) : State × Option (List Byte) :=
  match s.slipPieces (s.stream n).rp va len false with
  | (s, .fail _ _ _) => (s, none)
  | (s, .ok ps) => let (s, b, _) := s.readPieces ps; (s, some b)

/-- The LUT and the scaler banks of a stream are read for the epoch (R125, R218). What cannot be read keeps its contents, and what has changed since the slip's
check is taken as it stands, unchecked: entries of 4,096 or more, taps that do not sum to 256 (DESIGN CHOICE, log entry 75). -/
def State.readLut (s : State) (n : Nat) : State :=
  match (s.stream n).secs.proof with
  | none => s
  | some p =>
    let (s, lut) := s.streamRead n p.lutAddr 24576
    let (s, taps) := if p.scalerAddr = 0 then (s, none) else s.streamRead n p.scalerAddr 4096
    let x := s.stream n
    s.setStream n { x with secs := { x.secs with proof := some { p with
      lut := (lut.map lutOf).getD p.lut, taps := (taps.map tapsOf).getD p.taps } } }

/-- A slip's completion once its epoch is taken (R205, R220). -/
def State.completeStaged (s : State) (q : Staged) (epoch digest : Nat) : State :=
  match (s.ring q.rp).byId q.id, q.what with
  | some t, .openS _ _ _ _ _ cu su => s.finish q.rp t stSuccess 0 [epoch, cu, su]
  | some t, .setS _ _ _ => s.finish q.rp t stSuccess 0 [epoch, digest / 2 ^ 32, digest % 2 ^ 32]
  | _, _ => s

/-- A unit takes the configuration of the epoch. -/
def State.unitTakes (s : State) (e u : Nat) : State :=
  let c := s.catUnit u
  s.setCatUnit u { c with
    expect := c.expectNext, waiting := false, epoch := if c.waiting then e else c.epoch, digest := if c.waiting then c.expectNext else c.digest }

/-- The epoch being taken is taken (R220 steps 3 and 4, R459, R460, R463). -/
def State.takeEpoch (s : State) : State :=
  match s.cat.taking with
  | none => s
  | some (e, _) =>
    let slips := s.taking
    let s : State := s.digestUnits.foldl (fun s u => s.unitTakes e u) s
    let s : State := slips.foldl (fun (s : State) q => s.applySlip q e) { s with taking := [], cat := { s.cat with taking := none } }
    let s := (s.openStreams.filter fun x => x.2.state == .opened).foldl (fun s x => s.readLut x.1) s
    let d := s.deviceDigest
    let s := ((s.put CAT.EPOCH_VALUE e).put CAT.DIGEST_HI_VALUE (d / 2 ^ 32)).put CAT.DIGEST_LO_VALUE d
    let s := (s.putTime CAT.EPOCH_SEC_LO CAT.EPOCH_SEC_HI CAT.EPOCH_NS s.now).put CAT.CAT_STAT_EPOCH_VALID 1
    let s := (s.put CAT.CAT_STAT_WAITING_ACK 0).raise 2
    let s := s.topSpares
    let s := slips.foldl (fun s q => (s.completeStaged q e d).settle q.stream) s
    s.showPorts.showHold.showLedger

/-- EPOCH_TAKEN: every unit has acknowledged. -/
def execEpochTaken (s : State) : Host.Outcome State Fault Refusal := .next s.takeEpoch

/-- EPOCH_ACK_TIMEOUT: 1 ms after an epoch began, the units that have not acknowledged are reported, and it is taken without them. -/
def execEpochAckTimeout (missing : List Nat) (s : State) : Host.Outcome State Fault Refusal :=
  match s.cat.taking with
  | none => .next s
  | some (_, t) =>
    let m := missing.eraseDups.filter fun u => (s.catUnit u).waiting
    if s.usSince t < 1000 ∨ m.isEmpty = true then .next s
    else
      let s := m.foldl (fun s u => s.setCatUnit u { s.catUnit u with waiting := false }) s
      let s := m.foldl (fun s u => if s.power.held then s else (s.bump CAT.NO_ACKS_COUNT).report u 0x49 none 0) s
      .next (if s.power.held then s else s.takeEpoch)

end Sys2Proof.Machine
end

