-- ==== Sys2Proof/Machine/Panor.lean ====
section
/-! DEFINITION. The Panor volume: its layout on a magazine's blocks, records, entries, the journal, and what a mount finds (R252 to R262, R265). -/
namespace Sys2Proof.Machine

/-- A structure with its CRC-32C behind it. -/
def sealed (l : List Byte) : List Byte := l ++ beBytes 4 (crc32c l)
/-- The number in `k` bytes from an offset. -/
def be (l : List Byte) (off k : Nat) : Nat := beNum ((l.drop off).take k)
/-- The structure of `n` bytes carries its own CRC. -/
def sealOk (l : List Byte) (n : Nat) : Bool := decide (n ≤ l.length) && be l (n - 4) 4 == crc32c (l.take (n - 4))
/-- A Dater time at an offset. -/
def dtAt (l : List Byte) (off : Nat) : DTime :=
  { sec := BitVec.ofNat 48 (be l off 6), ns := BitVec.ofNat 32 (be l (off + 6) 4), frac := BitVec.ofNat 16 (be l (off + 10) 2) }

def ones32 : Nat := 0xFFFFFFFF
def ones64 : Nat := 0xFFFFFFFFFFFFFFFF

/-! ### Regions (R252) -/

def shelfCount (nsze : Nat) : Nat := min 524288 ((nsze - 256) / 16384 - 2)
def invLba (copyB : Bool) : Nat := if copyB then 2304 else 256
def journalLba (seq : Nat) : Nat := 4352 + seq % 16384
def shelfLba (k : Nat) : Nat := 32768 + 16384 * k
def shelfBytes : Nat := 67108864

/-- Bytes cut into blocks from an LBA on. -/
def blocksFrom (lba : Nat) (l : List Byte) : List (Nat × List Byte) :=
  (List.range (ceilDiv l.length 4096)).map fun i => (lba + i, padTo 4096 ((l.drop (4096 * i)).take 4096))

/-- A block that holds only 0 is not listed. -/
def Mag.block (m : Mag) (lba : Nat) : List Byte := padTo 4096 (Tab.get (fun _ => []) m.media lba)
def Mag.setBlock (m : Mag) (lba : Nat) (l : List Byte) : Mag :=
  { m with media := Tab.set (fun _ => []) m.media lba (if l.all (· == 0#8) then [] else l) }
def Mag.write (m : Mag) (l : List (Nat × List Byte)) : Mag := l.foldl (fun m q => m.setBlock q.1 q.2) m
/-- Bytes of `n` blocks. -/
def Mag.read (m : Mag) (lba n : Nat) : List Byte := (List.range n).flatMap fun i => m.block (lba + i)

/-! ### Entries (R255, R258) -/

def TakeEntry.bytes (e : TakeEntry) : List Byte :=
  sealed (padTo 252 (beBytes 4 e.number ++ beBytes 1 e.state ++ beBytes 1 e.layout ++ beBytes 1 e.stripe ++ beBytes 1 e.codec ++ padTo 16 e.name ++
    padTo 16 e.partner ++ beBytes 4 e.first ++ beBytes 4 e.last ++ beBytes 4 e.pictures ++ beBytes 4 e.firstShelf ++ beBytes 4 e.shelves ++
    beBytes 8 e.length ++ beBytes 8 e.aidOff ++ beBytes 4 e.aidLen ++ e.start.bytes ++ e.fin.bytes ++ beBytes 8 e.digest ++ beBytes 8 e.seqId ++
    beBytes 4 e.flags))

def parseTake (l : List Byte) : Option TakeEntry :=
  if be l 0 4 = 0 then none
  else some
    { number := be l 0 4, state := be l 4 1, layout := be l 5 1, stripe := be l 6 1, codec := be l 7 1, name := (l.drop 8).take 16,
      partner := (l.drop 24).take 16, first := be l 40 4, last := be l 44 4, pictures := be l 48 4, firstShelf := be l 52 4,
      shelves := be l 56 4, length := be l 60 8, aidOff := be l 68 8, aidLen := be l 76 4, start := dtAt l 80, fin := dtAt l 92,
      digest := be l 104 8, seqId := be l 112 8, flags := be l 120 4 }

def AidEntry.bytes (e : AidEntry) : List Byte :=
  sealed (padTo 188 (beBytes 4 e.num ++ beBytes 4 e.flags ++ beBytes 8 e.off ++ beBytes 4 e.len ++ beBytes 4 e.epoch ++ beBytes 8 e.digest ++
    ((List.range 6).flatMap fun i => (e.stamps.getD i DTime.none).bytes) ++ padTo 32 e.sha ++ beBytes 4 e.mark ++ padTo 16 e.note))

def parseAid (l : List Byte) : AidEntry :=
  { num := be l 0 4, flags := be l 4 4, off := be l 8 8, len := be l 16 4, epoch := be l 20 4, digest := be l 24 8,
    stamps := (List.range 6).map fun i => dtAt l (32 + 12 * i), sha := (l.drop 104).take 32, mark := be l 136 4, note := (l.drop 140).take 16 }

def AidEntry.key (e : AidEntry) : Bool := bitAt e.flags 0
def AidEntry.gap (e : AidEntry) : Bool := bitAt e.flags 1
/-- The entry with a mark. -/
def AidEntry.withMark (e : AidEntry) (code : Nat) (note : List Byte) : AidEntry := { e with flags := setBits e.flags 7 1 1, mark := code, note }
/-- The entry of a relocated record. -/
def AidEntry.moveTo (e : AidEntry) (off len flags : Nat) : AidEntry :=
  { e with off, len, flags := setBits (setBits e.flags 3 1 1) 2 1 (if bitAt flags 0 then 1 else bits e.flags 2 1) }
/-- The entry with its commit stamp. -/
def AidEntry.stamped (e : AidEntry) (t : DTime) : AidEntry := { e with stamps := e.stamps.set 5 t }

/-- The entries of a finding aid's or an aid group's bytes. -/
def parseAids (l : List Byte) : Nat → List AidEntry
  | 0 => []
  | n + 1 => if l.length < 192 then [] else parseAid (l.take 192) :: parseAids (l.drop 192) n

/-- The data of a final finding aid (R259). -/
def finalAidBytes (l : List AidEntry) : List Byte :=
  padTo 64 (beBytes 4 l.length ++ beBytes 4 (l.filter (·.key)).length) ++ l.flatMap (·.bytes) ++ (l.filter (·.key)).flatMap fun e => beBytes 4 e.num

/-! ### Records (R257) -/

/-- Length of a record on its blocks. -/
def recSpan (len : Nat) : Nat := 4096 * ceilDiv (64 + len) 4096
def recordBytes (num kind flags : Nat) (data : List Byte) : List Byte :=
  padTo (recSpan data.length) (sealed (padTo 60 (beBytes 4 0x504E5052 ++ beBytes 4 num ++ beBytes 4 data.length ++ beBytes 1 kind ++
    beBytes 1 flags ++ beBytes 2 0 ++ sha256 data)) ++ data)

/-- The block at an offset of a take whose chain is given. -/
def takeLba (chain : List Nat) (o : Nat) : Nat := shelfLba (chain.getD (o / shelfBytes) 0) + o % shelfBytes / 4096
/-- Bytes of a take. -/
def Mag.takeBytes (m : Mag) (chain : List Nat) (o n : Nat) : List Byte :=
  (((List.range (ceilDiv (o % 4096 + n) 4096)).flatMap fun i => m.block (takeLba chain (o / 4096 * 4096 + 4096 * i))).drop (o % 4096)).take n
/-- A record's blocks for writing. -/
def takeBlocks (chain : List Nat) (o : Nat) (l : List Byte) : List (Nat × List Byte) :=
  (blocksFrom 0 l).map fun q => (takeLba chain (o + 4096 * q.1), q.2)

/-- The record at an offset: its data where its header stands, and whether its checks pass (R280). -/
def Mag.recordAt (m : Mag) (chain : List Nat) (o len : Nat) : List Byte × Bool :=
  let h := m.takeBytes chain o 64
  let d := m.takeBytes chain (o + 64) len
  (d, be h 0 4 == 0x504E5052 && sealOk h 64 && be h 8 4 == len && decide ((h.drop 16).take 32 = sha256 d))

/-! ### Journal (R260, R261) -/

def jrnBlock (ty seq take : Nat) (t : DTime) (body : List Byte) : List Byte :=
  sealed (padTo 4092 (beBytes 4 0x504E4A52 ++ beBytes 4 ty ++ beBytes 8 seq ++ beBytes 4 take ++ beBytes 4 0 ++ t.bytes ++ body))

def commitBody (durable first last aidOff aidLen : Nat) (t : DTime) (shelves : List Nat) : List Byte :=
  beBytes 8 durable ++ beBytes 4 first ++ beBytes 4 last ++ beBytes 8 aidOff ++ beBytes 4 aidLen ++ t.bytes ++ beBytes 2 shelves.length ++
  beBytes 2 0 ++ shelves.flatMap (beBytes 4)
def markBody (pic code : Nat) (note : List Byte) : List Byte := beBytes 4 pic ++ beBytes 4 code ++ padTo 16 note
def moveBody (pic off len flags : Nat) : List Byte := beBytes 4 pic ++ beBytes 8 off ++ beBytes 4 len ++ beBytes 4 flags

/-- The valid record with a sequence number. -/
def Mag.journalAt (m : Mag) (seq : Nat) : Option (List Byte) :=
  let b := m.block (journalLba seq)
  if be b 0 4 = 0x504E4A52 ∧ be b 8 8 = seq ∧ sealOk b 4096 = true then some b else none

/-! ### Volume tables (R254 to R256, R265 step 3) -/

def Volume.slot (v : Volume) (i : Nat) : Option TakeEntry := Tab.get (fun _ => none) v.slots i
def Volume.setSlot (v : Volume) (i : Nat) (e : Option TakeEntry) : Volume := { v with slots := Tab.set (fun _ => none) v.slots i e }
def Volume.shelfOf (v : Volume) (k : Nat) : Nat × Nat := Tab.get (fun _ => (0, 0)) v.shelf k
def Volume.setShelf (v : Volume) (k : Nat) (e : Nat × Nat) : Volume := { v with shelf := Tab.set (fun _ => (0, 0)) v.shelf k e }
/-- The slot of a take. -/
def Volume.slotOf (v : Volume) (take : Nat) : Option Nat := (v.slots.find? fun q => (match q.2 with | some e => e.number == take | none => false)).map (·.1)
def Volume.take (v : Volume) (take : Nat) : Option TakeEntry := (v.slotOf take).bind v.slot
/-- The lowest free slot, of 4,096. -/
def Volume.freeSlot (v : Volume) : Option Nat := if v.slots.length < 4096 then (List.range (v.slots.length + 1)).find? fun i => (v.slot i).isNone else none
/-- A chain from its head. -/
def Volume.chainFrom (v : Volume) : Nat → Nat → List Nat
  | 0, _ => []
  | n + 1, k => if k = ones32 then [] else k :: v.chainFrom n (v.shelfOf k).2
def Volume.chain (v : Volume) (e : TakeEntry) : List Nat := v.chainFrom e.shelves e.firstShelf

/-- A chain grows by shelves. -/
def Volume.appendShelves (v : Volume) (take : Nat) (old new : List Nat) : Volume :=
  let all := old ++ new
  (all.zip (all.drop 1 ++ [ones32])).foldl (fun v q => v.setShelf q.1 (take, q.2)) v

/-- A take is gone: its slot and its shelves are free. -/
def Volume.drop (v : Volume) (take : Nat) : Volume :=
  let v := match v.slotOf take with | some i => v.setSlot i none | none => v
  { v with shelf := v.shelf.filter fun q => q.2.1 != take }

/-- What a COMMIT does to a take's entry and its chain. -/
def Volume.commit (v : Volume) (take durable last : Nat) (shelves : List Nat) : Volume :=
  match v.slotOf take, v.take take with
  | some i, some e =>
    let old := v.chain e
    let v := v.appendShelves take old shelves
    v.setSlot i (some { e with length := durable, last, firstShelf := (old ++ shelves).headD ones32, shelves := e.shelves + shelves.length })
  | _, _ => v

/-- A journal record is applied to the tables. -/
def Volume.apply (v : Volume) (b : List Byte) : Volume :=
  let take := be b 16 4
  match be b 4 4 with
  | 1 => match v.freeSlot, parseTake (b.drop 36) with
    | some i, some e => v.setSlot i (some e)
    | _, _ => v
  | 2 => v.commit take (be b 36 8) (be b 48 4) ((List.range (be b 76 2)).map fun i => be b (80 + 4 * i) 4)
  | 3 => match v.slotOf take, parseTake (b.drop 36) with
    | some i, some e => v.setSlot i (some e)
    | _, _ => v
  | 6 => v.drop take
  | _ => v

/-- The tables as an inventory body: 4,096 take entries and 524,288 shelf list entries. -/
def Volume.body (v : Volume) : List Byte :=
  ((List.range 4096).flatMap fun i => match v.slot i with | some e => e.bytes | none => List.replicate 256 0#8) ++
  ((List.range 524288).flatMap fun k => let e := v.shelfOf k; beBytes 4 e.1 ++ beBytes 4 e.2)

/-- Block 0 of an inventory copy. -/
def Volume.head (v : Volume) (gen seq : Nat) (body : List Byte) : List Byte :=
  padTo 4096 (sealed (beBytes 4 0x504E4956 ++ beBytes 4 0 ++ beBytes 8 gen ++ beBytes 8 seq ++ beBytes 4 v.shelves ++ beBytes 4 4096 ++ padTo 16 v.id ++
    beBytes 4 (crc32c body)))

/-- The volume header, or its copy (R253). -/
def Volume.header (v : Volume) (copy : Bool) : List Byte :=
  padTo 4096 (sealed (padTo 252 (beBytes 4 0x504E5648 ++ beBytes 2 1 ++ beBytes 2 (if copy then 1 else 0) ++ padTo 16 v.id ++ beBytes 8 v.nsze ++
    beBytes 4 v.shelves ++ v.made.bytes)))

/-! ### What a mount finds (R265) -/

/-- A valid header at an LBA, as a volume with empty tables. -/
def Mag.headerAt (m : Mag) (nsze lba : Nat) : Option Volume :=
  let b := m.block lba
  if be b 0 4 = 0x504E5648 ∧ be b 4 2 = 1 ∧ sealOk b 256 = true ∧ be b 24 8 = nsze then
    some { id := (b.drop 8).take 16, nsze, shelves := be b 32 4, made := dtAt b 36, slots := [], shelf := [], seq := 1, since := 0, gen := 0, copyB := false, ckptSeq := 1 }
  else none

/-- A valid inventory copy, read into a volume. -/
def Mag.inventoryAt (m : Mag) (v : Volume) (copyB : Bool) : Option Volume :=
  let h := m.block (invLba copyB)
  let body := m.read (invLba copyB + 1) 1280
  if be h 0 4 = 0x504E4956 ∧ sealOk h 56 = true ∧ (h.drop 32).take 16 = v.id ∧ be h 48 4 = crc32c body then
    let slots := (List.range 4096).foldl (fun (t : Tab (Option TakeEntry)) i => Tab.set (fun _ => none) t i (parseTake ((body.drop (256 * i)).take 256))) []
    let tail := body.drop 1048576
    let shelf := (List.range v.shelves).foldl (fun (t : Tab (Nat × Nat)) k => Tab.set (fun _ => (0, 0)) t k (be tail (8 * k) 4, be tail (8 * k + 4) 4)) []
    some { v with slots, shelf, gen := be h 8 8, seq := be h 16 8, ckptSeq := be h 16 8, copyB }
  else none

/-- The newer of two copies. -/
def newerCopy (a b : Option Volume) : Option Volume :=
  match a, b with
  | some x, some y => if x.gen < y.gen then some y else some x
  | some x, none => some x
  | none, y => y

/-- Journal records applied from the next one on. -/
def Mag.replay (m : Mag) : Nat → Volume → Volume
  | 0, v => v
  | n + 1, v =>
    match m.journalAt v.seq with
    | some b => m.replay n { v.apply b with seq := v.seq + 1, since := v.since + 1 }
    | none => v

/-- The records of a take up to its durable length: offset, header, data of aid groups. -/
def Mag.records (m : Mag) (chain : List Nat) (len : Nat) : Nat → Nat → List (Nat × List Byte)
  | 0, _ => []
  | n + 1, o =>
    if len ≤ o then []
    else
      let h := m.takeBytes chain o 64
      if be h 0 4 = 0x504E5052 ∧ sealOk h 64 = true then (o, h) :: m.records chain len n (o + recSpan (be h 8 4))
      else m.records chain len n (o + 4096)

/-- Records after the last one that opens or deletes a take of the number: those of the take itself. -/
def sinceOpen : List (List Byte) → List (List Byte)
  | [] => []
  | b :: r => if r.any fun c => be c 4 4 == 1 || be c 4 4 == 6 then sinceOpen r else if be b 4 4 = 1 ∨ be b 4 4 = 6 then r else b :: r
/-- The journal's valid records of a take, in order, without those of an earlier take that had its number. -/
def Mag.journalOf (m : Mag) (seq take : Nat) : List (List Byte) :=
  sinceOpen (((List.range 16384).filterMap fun i => if 16384 ≤ seq + i then m.journalAt (seq + i - 16384) else none).filter fun b => be b 16 4 == take)

/-- The entries of a take that was open when its volume went: from its aid groups, with the marks, relocations and stamps that the
journal holds. -/
def Mag.recovered (m : Mag) (v : Volume) (e : TakeEntry) : List AidEntry :=
  let chain := v.chain e
  let groups := (m.records chain e.length (e.length / 4096 + 1) 0).filter fun r => be r.2 12 1 == 2
  let l := groups.flatMap fun r => let n := be r.2 8 4; parseAids (m.takeBytes chain (r.1 + 64) n) (n / 192)
  (m.journalOf v.seq e.number).foldl (fun (l : List AidEntry) b => l.map fun a =>
    match be b 4 4 with
    | 2 => if be b 44 4 ≤ a.num ∧ a.num ≤ be b 48 4 then a.stamped (dtAt b 64) else a
    | 4 => if a.num = be b 36 4 then a.withMark (be b 40 4) ((b.drop 44).take 16) else a
    | 5 => if a.num = be b 36 4 then a.moveTo (be b 40 8) (be b 48 4) (be b 52 4) else a
    | _ => a) l

/-- The lowest `n` free shelves. -/
def Volume.freeShelves (v : Volume) (busy : List Nat) (n : Nat) : List Nat :=
  ((List.range v.shelves).filter fun k => (v.shelfOf k).1 == 0 && !busy.contains k).take n

/-- The COMMIT record that names shelves which no commit of pictures has named, those of a final finding aid (R256, R261): its run of pictures is empty.
DESIGN CHOICE, log entry 133. -/
def shelvesBody (durable last : Nat) (t : DTime) (shelves : List Nat) : List Byte := commitBody durable (last + 1) last ones64 0 t shelves

/-- An open take found at a mount: RECOVERED, with LENGTH and LAST_PIC of its last COMMIT and its final finding aid, whose shelves a journal record names
(R256, R259, R265 step 4). The volume, and blocks to write. -/
def Mag.recoverTake (m : Mag) (now : DTime) (v : Volume) (i : Nat) (e : TakeEntry) : Volume × List (Nat × List Byte) :=
  let l := m.recovered v e
  let data := finalAidBytes l
  let need := ceilDiv (e.length + recSpan data.length) shelfBytes
  let old := v.chain e
  let new := v.freeShelves [] (need - old.length)
  let chain := old ++ new
  let fin := match l.getLast? with | some a => a.stamps.getD 0 DTime.none | none => DTime.none
  let e' := { e with
    state := 3, pictures := (l.filter fun a => !a.gap).length, firstShelf := chain.headD ones32, shelves := chain.length,
    aidOff := e.length, aidLen := data.length, fin,
    start := match l.head? with | some a => a.stamps.getD 0 DTime.none | none => e.start }
  let b := jrnBlock 2 v.seq e.number now (shelvesBody e.length e.last now new)
  let named := if new.isEmpty then v else { v.apply b with seq := v.seq + 1, since := v.since + 1 }
  (named.setSlot i (some e'), (if new.isEmpty then [] else [(journalLba v.seq, b)]) ++ takeBlocks chain e.length (recordBytes e.last 3 0 data))

/-- What a mount comes to. -/
inductive MountRes where
  | noVolume
  | failed
  /-- the volume, blocks to write, that something changed, that an open take was found -/
  | ok (v : Volume) (writes : List (Nat × List Byte)) (changed recovered : Bool)

def Mag.mount (m : Mag) (now : DTime) (nsze : Nat) : MountRes :=
  let a := m.headerAt nsze 0
  let b := m.headerAt nsze (nsze - 256)
  match a <|> b with
  | none => .noVolume
  | some h =>
    let fix := if a.isNone then [(0, h.header false)] else if b.isNone then [(nsze - 256, h.header true)] else []
    match newerCopy (m.inventoryAt h false) (m.inventoryAt h true) with
    | none => .failed
    | some v =>
      let v := m.replay 16384 v
      let opens := v.slots.filterMap fun q => match q.2 with | some e => if e.state = 1 then some (q.1, e) else none | none => none
      let r := opens.foldl (fun (acc : Volume × List (Nat × List Byte)) q =>
        let x := m.recoverTake now acc.1 q.1 q.2
        (x.1, acc.2 ++ x.2)) (v, fix)
      .ok r.1 r.2 (!fix.isEmpty || !opens.isEmpty) (!opens.isEmpty)

end Sys2Proof.Machine
end

