-- ==== Sys2Proof/Machine/Bindery.lean ====
section
/-! DEFINITION. The Bindery's takes: records, gaps, commits, marks, their end, and what the removal of a magazine does to them (R257, R259,
R262 to R264, R268 to R278). -/
namespace Sys2Proof.Machine

/-! ### Ports and their registers (R250, R283) -/

def msAbsent : Nat := 0
def msStarting : Nat := 1
def msNoVolume : Nat := 2
def msReady : Nat := 3
def msFormatting : Nat := 4
def msFailed : Nat := 5
def msEjected : Nat := 6

/-- Ticks in k milliseconds. -/
def msTicks (k : Nat) : Nat := 250000 * k
/-- Unit ID of a magazine port. -/
def magUnit (p : Nat) : Nat := 0x121 + p

def State.magState (s : State) (p : Nat) : Nat := s.get (BND.MG_STATE_STATE p)
/-- A port enters a state; ICU source 19 or 20 is raised. -/
def State.setMagState (s : State) (p v : Nat) : State := (s.put (BND.MG_STATE_STATE p) v).raise (19 + p)

def State.take (s : State) (n : Nat) : Option Take := s.bnd.takes.find? (·.stream == n)
def State.setTake (s : State) (t : Take) : State :=
  { s with bnd := { s.bnd with takes := s.bnd.takes.map fun u => if u.stream = t.stream then t else u } }
def Take.vol (t : Take) (p : Nat) : Option TakeVol := t.vols.find? (·.port == p)
def Take.setVol (t : Take) (v : TakeVol) : Take := { t with vols := t.vols.map fun u => if u.port = v.port then v else u }

/-- Shelves of a port that takes have and the journal has not yet. -/
def State.freshOn (s : State) (p : Nat) : List Nat := s.bnd.takes.flatMap fun t => (t.vols.filter (·.port == p)).flatMap (·.fresh)
/-- Free shelves of a volume. -/
def State.shelvesFree (s : State) (p : Nat) : Nat :=
  match (s.mag p).vol with | some v => v.shelves - v.shelf.length - (s.freshOn p).length | none => 0

/-- The registers of a port's volume and of the takes follow them. While FORMAT runs no volume is mounted. -/
def State.showBnd (s : State) : State :=
  let s := (List.range 2).foldl (fun s p =>
    let v := if s.magState p = msFormatting then none else (s.mag p).vol
    let id := match v with | some v => v.id | none => []
    let w := fun i => beNum (((padTo 16 id).drop (4 * i)).take 4)
    let s := (s.put (BND.MG_SHELF_TOTAL_SHELVES p) (match v with | some v => v.shelves | none => 0)).put (BND.MG_SHELF_FREE_SHELVES p) (if v.isSome then s.shelvesFree p else 0)
    let s := (((s.put (BND.MG_VOLUME_ID0_ID p) (w 0)).put (BND.MG_VOLUME_ID1_ID p) (w 1)).put (BND.MG_VOLUME_ID2_ID p) (w 2)).put (BND.MG_VOLUME_ID3_ID p) (w 3)
    s.put (BND.MG_STATE_TAKES_OPEN p) (s.bnd.takes.filter fun t => (t.vol p).isSome).length) s
  s.put BND.BND_STAT_TAKES s.bnd.takes.length

/-! ### Commands on a magazine (R248) -/

/-- Blocks that one data transfer moves at most: 1 MiB, or MDTS if smaller, which counts pages of 4 KiB as a power of two. -/
def Magazine.chunk (m : Magazine) : Nat := if m.mdts = 0 then 256 else min 256 (2 ^ m.mdts)
/-- What R247 asks of the endpoint, of its controller, and of its namespace. -/
def Magazine.endpointOk (m : Magazine) : Bool := m.single && m.cls == 0x010802 && m.msix
def Magazine.controllerOk (m : Magazine) : Bool := m.nvm && m.mpsmin == 0 && decide (63 ≤ m.mqes)
def Magazine.namespaceOk (m : Magazine) : Bool :=
  (m.mdts == 0 || decide (5 ≤ m.mdts)) && m.active && m.lbaData == 4096 && m.lbaMeta == 0 && !m.protect
def Magazine.ok (m : Magazine) : Bool := m.endpointOk && m.controllerOk && m.namespaceOk
/-- I/O queue pairs: 8 are requested, and at least 1 is granted; each of min(256, MQES + 1) entries, with an MSI-X vector of its own. -/
def Magazine.ioPairs (m : Magazine) : List (Nat × Nat) := (List.range (max 1 (min 8 m.pairs))).map fun i => (min 256 (m.mqes + 1), i + 1)

/-- So many commands are issued for a job. -/
def State.issueN (s : State) (p : Nat) (job : MagJob) (admin : Bool) (n : Nat) (seq : Option Nat) (writes : List (Nat × List Byte)) : State :=
  let m := s.mag p
  s.setMag p { m with cmds := m.cmds ++ [{ job, left := max 1 n, retried := false, admin, tick := s.ticks, seq, writes }] }
/-- Transfers that so many blocks take. -/
def State.transfers (s : State) (p blocks : Nat) : Nat := ceilDiv blocks (match (s.mag p).inserted with | some i => i.chunk | none => 256)
/-- Commands are issued for a job. -/
def State.issue (s : State) (p : Nat) (job : MagJob) (admin : Bool) (seq : Option Nat) (writes : List (Nat × List Byte)) : State :=
  s.issueN p job admin (s.transfers p writes.length) seq writes
/-- A record's data is read. -/
def State.issueRead (s : State) (p : Nat) (job : MagJob) (len : Nat) : State := s.issueN p job false (s.transfers p (recSpan len / 4096)) none []

/-- A checkpoint starts: the tables go to the copy with the lower GENERATION (R262). One that runs is followed by another. -/
def State.startCkpt (s : State) (p : Nat) (w : CkptFor) : State :=
  let m := s.mag p
  match m.vol with
  | none => s
  | some v =>
    if m.ckpt.isSome then s.setMag p { m with ckptNext := m.ckptNext ++ [w] }
    else
      (s.setMag p { m with ckpt := some ([w], v.seq) }).issue p .ckptBody false none (blocksFrom (invLba (!v.copyB) + 1) v.body)

/-- A journal record is written with FUA; every 1,024 records a checkpoint is (R260, R262). -/
def State.journal (s : State) (p : Nat) (job : MagJob) (ty take : Nat) (body : List Byte) : State :=
  let m := s.mag p
  match m.vol with
  | none => s
  | some v =>
    let b := jrnBlock ty v.seq take s.now body
    let s := (s.setMag p { m with vol := some { v.apply b with seq := v.seq + 1, since := v.since + 1 } }).issue p job false (some v.seq)
      [(journalLba v.seq, b)]
    if 1024 ≤ v.since + 1 ∧ m.ckpt.isNone then s.startCkpt p .routine else s

/-! ### Events of a take (R201, R277) -/

/-- A STATE slip of a recording. -/
def State.takeEvent (s : State) (t : Take) (cause p : Nat) : State := s.streamEvent t.stream 0 5 0 [1, cause, p, t.number]

/-- A take leaves the Bindery. -/
def State.endTake (s : State) (n : Nat) : State :=
  let s := { s with bnd := { s.bnd with takes := s.bnd.takes.filter (·.stream != n) } }
  (s.setStream n { s.stream n with recorded := false }).showBnd

/-- Slips that wait on a take are answered. -/
def State.failTakeSlips (s : State) (t : Take) (st : Nat) : State :=
  let s := match t.slip with | some (rp, id) => s.finishById rp id st [] | none => s
  let s := match t.stop with | some (_, some (rp, id)) => s.finishById rp id st [] | _ => s
  t.marks.foldl (fun s m => s.finishById m.rp m.id st []) s

/-- Every folio of the take is released. -/
def State.releaseHeld (s : State) (t : Take) : State := (t.pics.filter (·.held)).foldl (fun s r => s.dropReader t.stream r.num 512) s

/-- Recording stops with nothing more written (R275). -/
def State.stopTake (s : State) (t : Take) (cause p st : Nat) : State :=
  let s := (s.failTakeSlips t st).releaseHeld t
  ((s.endTake t.stream).takeEvent t cause p).settle t.stream

/-- A mark that no longer waits for a port. -/
def Mark.without (m : Mark) (p : Nat) : Mark := { m with wait := m.wait.map (·.filter (· != p)) }

/-- A take loses its part on port p (R275, R277); `st`: what its slips complete with. -/
def State.dropVol (s : State) (n p cause st : Nat) : State :=
  match s.take n with
  | none => s
  | some t =>
    let left := t.vols.filter (·.port != p)
    if (t.vol p).isNone then s
    else if left.isEmpty then s.stopTake t cause p st
    else if t.layout = 1 then
      (s.setTake { t with
        vols := left, degraded := true, marks := t.marks.map (·.without p),
        pics := t.pics.map fun r => { r with verify := r.verify.filter (· != p) } }).takeEvent t 0x0103 p |>.showBnd
    else
      -- striped: the volume that stays is closed as INCOMPLETE, at the last picture before the first that it does not hold
      let stay := left.map fun v => (v.port, v.stripe)
      let mine := fun (r : RecPic) => stay.any fun v => (r.num - t.first) % 2 == v.2 && (r.gap || r.written.contains v.1)
      let theirs := fun (r : RecPic) => stay.all fun v => (r.num - t.first) % 2 != v.2
      let cut := ((t.pics.filter fun r => !mine r && !theirs r).map (·.num)).foldl min t.next
      let last := match t.stop with | some (l, _) => min l (cut - 1) | none => cut - 1
      let s := s.failTakeSlips t st
      let s := (t.pics.filter fun r => r.held && (decide (cut ≤ r.num) || theirs r)).foldl (fun s r => s.dropReader n r.num 512) s
      let keep : RecPic → RecPic := fun r => { r with verify := r.verify.filter (· != p), held := r.held && !theirs r }
      (s.setTake { t with
        vols := left, incomplete := true, slip := none, marks := [], stop := some (last, none),
        pics := (t.pics.filter fun r => decide (r.num < cut)).map keep }).takeEvent t cause p |>.showBnd

/-! ### Laying down records (R256, R257, R269) -/

/-- The ports that a picture of the take goes to. -/
def Take.portsOf (t : Take) (num : Nat) : List Nat :=
  if t.layout = 2 then (t.vols.filter fun v => v.stripe == (num - t.first) % 2).map (·.port) else t.vols.map (·.port)

/-- Shelves for a take's part up to a length; `none` where the volume has too few. Free shelves that fall to the threshold are
reported (R277). -/
def State.ensure (s : State) (n p upto : Nat) : State × Bool :=
  match s.take n with
  | none => (s, false)
  | some t =>
    match t.vol p, (s.mag p).vol with
    | some tv, some v =>
      let need := ceilDiv upto shelfBytes - (tv.chain.length + tv.fresh.length)
      if need = 0 then (s, true)
      else
        let new := v.freeShelves (s.freshOn p) need
        if new.length < need then (s, false)
        else
          let before := s.shelvesFree p
          let s := (s.setTake (t.setVol { tv with fresh := tv.fresh ++ new })).showBnd
          let low := s.get (BND.MG_LOW_SHELVES_SHELVES p)
          (if low < before ∧ s.shelvesFree p ≤ low then s.takeEvent t 0x0105 p else s, true)
    | _, _ => (s, false)

/-- Where the next record of a take goes: at its end, the same on both volumes of a mirrored take. -/
def Take.endOf (t : Take) (p : Nat) : Nat :=
  if t.layout = 1 then (t.vols.map (·.length)).foldl max 0 else match t.vol p with | some v => v.length | none => 0

/-- A record is laid down at an offset on a port; a volume that is full is dropped, and that is a detected fault (R275, R277). -/
def State.layDown (s : State) (n p off : Nat) (job : MagJob) (bytes : List Byte) : State :=
  let (s, ok) := s.ensure n p (off + bytes.length)
  if ok = false then (s.dropVol n p 0x0102 0x0100).reportStreams (magUnit p) 0x33 [n]
  else
    match s.take n with
    | some t =>
      match t.vol p with
      | some tv =>
        let s := s.setTake (t.setVol { tv with length := off + bytes.length })
        s.issue p job false none (takeBlocks (tv.chain ++ tv.fresh) off bytes)
      | none => s
    | none => s

def Take.onPic (t : Take) (num : Nat) (f : RecPic → RecPic) : Take := { t with pics := t.pics.map fun r => if r.num = num then f r else r }
def Take.pic (t : Take) (num : Nat) : Option RecPic := t.pics.find? (·.num == num)

/-- KIND of a picture's record. -/
def Take.recKind (t : Take) : Nat := if t.codec ≤ 1 then 0 else 1

/-- A picture's record on one port at an offset; `moved`: its relocated copy (R274). -/
def State.writeRecord (s : State) (n num p off : Nat) (moved : Bool) : State :=
  match s.take n with
  | none => s
  | some t =>
    match t.pic num with
    | none => s
    | some r =>
      let t := t.onPic num fun r => { r with
        offs := (p, off) :: r.offs.filter (·.1 != p), written := r.written.filter (· != p),
        moved := if moved then p :: r.moved.filter (· != p) else r.moved }
      let flags := (if r.key then 1 else 0) + (if moved then 2 else 0)
      (s.setTake t).layDown n p off (.record n num moved) (recordBytes num t.recKind flags r.data)

/-! ### Commits (R263, R264) -/

/-- The record writes of a picture have completed on every volume of the take that it goes to. -/
def Take.laid (t : Take) (r : RecPic) : Bool := r.gap || (t.portsOf r.num).all r.written.contains
/-- The run that a commit covers. -/
def Take.run (t : Take) : List RecPic := (t.pics.filter fun r => decide (t.from' ≤ r.num)).takeWhile t.laid
/-- No commit of the take runs. -/
def Take.quiet (t : Take) : Bool := t.vols.all (·.commit.isNone)

/-- The aid entry of a picture on a port as its commit writes it: offset, mark, and the departure stamp where it is known. -/
def State.aidFor (s : State) (t : Take) (p : Nat) (r : RecPic) : AidEntry :=
  let e := if r.gap then r.aid else { r.aid with off := ((r.offs.find? (·.1 == p)).map (·.2)).getD ones64 }
  let e := if r.moved.contains p then { e with flags := setBits e.flags 3 1 1 } else e
  let e := if r.failed.contains p then { e with flags := setBits e.flags 2 1 1 } else e
  let e := match ((s.stream t.stream).pic r.num).bind (·.depart) with
    | some d => { e with stamps := e.stamps.set 4 (dtOf (d * 2 ^ 28)) }
    | none => e
  match t.marked.find? (·.1 == r.num) with
  | some m => e.withMark m.2.1 m.2.2
  | none => e

/-- A commit starts on one volume: its aid group is written at the end of the take. Its PIC_NUMBER is the last picture of the group (R257). -/
def State.commitOn (s : State) (n p off : Nat) (run : List RecPic) : State :=
  match s.take n with
  | none => s
  | some t =>
    match t.vol p with
    | none => s
    | some tv =>
      let mine := run.filter fun r => t.layout != 2 || (r.num - t.first) % 2 == tv.stripe
      if mine.isEmpty ∧ tv.moves.isEmpty = true then s
      else
        let es := mine.map fun r => s.aidFor t p r
        let data := es.flatMap (·.bytes)
        let lastNum := match run.getLast? with | some r => r.num | none => t.from' - 1
        let c : CommitRun := { first := match run.head? with | some r => r.num | none => lastNum, last := lastNum, aidOff := off, aidLen := data.length,
                               start := s.ticks, stamp := DTime.none, shelves := [], done := false }
        let s := s.setTake (t.setVol { tv with commit := some c, aids := tv.aids ++ es })
        s.layDown n p off (.aid n) (recordBytes (match mine.getLast? with | some r => r.num | none => lastNum) 2 0 data)

/-- A commit of a take starts; one that runs is followed by another. -/
def State.startCommit (s : State) (n : Nat) : State :=
  match s.take n with
  | none => s
  | some t =>
    if t.quiet = false then s.setTake { t with commitNext := true }
    else
      let run := t.run
      let s := s.setTake { t with commitNext := false }
      t.vols.foldl (fun s v => s.commitOn n v.port (t.endOf v.port) run) s

/-- A commit starts early once a volume has 1,000 shelves that the journal has not. -/
def State.earlyCommit (s : State) (n : Nat) : State :=
  match s.take n with
  | some t => if t.vols.any (fun v => decide (1000 ≤ v.fresh.length)) then s.startCommit n else s
  | none => s

/-- The COMMIT record of a volume, after the RELOCATE records that it carries. -/
def State.writeCommit (s : State) (n p : Nat) : State :=
  match s.take n with
  | none => s
  | some t =>
    match t.vol p with
    | none => s
    | some tv =>
      match tv.commit with
      | none => s
      | some c =>
        let sh := tv.fresh.take 1000
        let durable := c.aidOff + recSpan c.aidLen
        let s := tv.moves.foldl (fun s m => s.journal p .jMove 5 t.number (moveBody m.1 m.2.1 m.2.2.1 m.2.2.2)) s
        let s := s.setTake (t.setVol { tv with moves := [], chain := tv.chain ++ sh, fresh := tv.fresh.drop 1000, commit := some { c with shelves := sh } })
        s.journal p (.jCommit n) 2 t.number (commitBody durable c.first c.last c.aidOff c.aidLen c.stamp sh)

/-- The moment that the commit's stamp is taken (R263 step 3). -/
def State.stampCommit (s : State) (n p : Nat) : State :=
  match s.take n with
  | none => s
  | some t =>
    match t.vol p with
    | some tv =>
      (match tv.commit with
       | some c => (s.setTake (t.setVol { tv with commit := some { c with stamp := s.now } })).writeCommit n p
       | none => s)
    | none => s

/-! ### Folios (R270, R273) -/

/-- A picture's folios are released once its records are written and verified. -/
def State.releaseRecs (s : State) (n : Nat) : State :=
  match s.take n with
  | none => s
  | some t =>
    let done := t.pics.filter fun r => r.held && t.laid r && r.verify.isEmpty
    let drop : RecPic → RecPic := fun r => { r with held := false, data := [], aid := { s.aidFor t 2 r with off := r.aid.off } }
    let t := { t with pics := t.pics.map fun r => if done.any (fun d => d.num == r.num) then drop r else r }
    done.foldl (fun s r => s.dropReader n r.num 512) (s.setTake t)

/-- Pictures that are committed and hold nothing are forgotten. -/
def Take.prune (t : Take) : Take := { t with pics := t.pics.filter fun r => r.held || decide (t.from' ≤ r.num) }

/-! ### The end of a take (R259, R271) -/

/-- The take entry of a part (R255). -/
def Take.entry (t : Take) (tv : TakeVol) (state aidOff aidLen lastNum : Nat) : TakeEntry :=
  let all := tv.chain ++ tv.fresh
  { number := t.number, state, layout := t.layout, stripe := tv.stripe, codec := t.codec, name := t.name,
    partner := ((t.partners.find? (·.1 == tv.port)).map (·.2)).getD [], first := t.first, last := lastNum,
    pictures := (tv.aids.filter fun e => !e.gap).length, firstShelf := all.headD ones32, shelves := all.length, length := tv.length,
    aidOff, aidLen, start := t.start, fin := t.fin, digest := t.digest, seqId := t.seqId,
    flags := (if t.degraded then 1 else 0) + (if t.gaps then 2 else 0) + (if t.verify then 4 else 0) + (if t.verifyFailed then 8 else 0) +
      (if t.incomplete then 16 else 0) }

/-- The final finding aid goes to every volume. -/
def State.writeFinal (s : State) (n : Nat) : State :=
  match s.take n with
  | none => s
  | some t =>
    let s := s.setTake { t with closing := true }
    let t0 := t
    t.vols.foldl (fun s v =>
      match s.take n with
      | some t =>
        let data := finalAidBytes v.aids
        let off := t0.endOf v.port
        let s := match t.vol v.port with
          | some tv => s.setTake (t.setVol { tv with aidWritten := some (off, data.length) })
          | none => s
        s.layDown n v.port off (.finalAid n) (recordBytes (t.from' - 1) 3 0 data)
      | none => s) s

/-- TAKE_CLOSE of a part, once its finding aid is written, after a record of the shelves that the finding aid took (R256). -/
def State.writeClose (s : State) (n p : Nat) : State :=
  match s.take n with
  | none => s
  | some t =>
    match t.vol p with
    | some tv =>
      let a := tv.aidWritten.getD (ones64, 0)
      let e := t.entry tv 2 a.1 a.2 (t.from' - 1)
      let s := s.setTake (t.setVol { tv with chain := tv.chain ++ tv.fresh, fresh := [] })
      let s := (groups 1000 (ceilDiv tv.fresh.length 1000) tv.fresh).foldl (fun s l =>
        s.journal p .jMove 2 t.number (shelvesBody tv.durable (t.from' - 1) s.now l)) s
      s.journal p (.jClose n) 3 t.number e.bytes
    | none => s

/-- RECORD_START completes once TAKE_OPEN is durable on every volume that is left (R268). -/
def State.openDone (s : State) (n : Nat) : State :=
  match s.take n with
  | none => s
  | some t =>
    match t.slip with
    | some (rp, id) =>
      if t.vols.all (·.opened) then ((s.setTake { t with slip := none }).finishById rp id stSuccess [t.number, t.first]).settle n else s
    | none => s

/-- Marks that are durable on every volume that is left complete (R272). -/
def State.marksDone (s : State) (n : Nat) : State :=
  match s.take n with
  | none => s
  | some t =>
    let done := t.marks.filter fun m => m.wait == some []
    if done.isEmpty then s
    else (done.foldl (fun s m => s.finishById m.rp m.id stSuccess [m.pic]) (s.setTake { t with marks := t.marks.filter fun m => m.wait != some [] })).settle n

/-- The stop of a take is complete on every volume that is left. Marks of pictures that it never came to are outside it (R272). -/
def State.takeDone (s : State) (n : Nat) : State :=
  match s.take n with
  | none => s
  | some t =>
    if t.closing && t.vols.all (·.finished) then
      let s := (t.marks.foldl (fun s m => s.finishById m.rp m.id 0x0108 []) s).settle n
      let used := (t.vols.map fun v => v.chain.length).sum
      let extra := (if t.degraded then 1 else 0) + (if t.gaps then 2 else 0) + (if t.verifyFailed then 4 else 0)
      let (last, s) := match t.lastGood with | some v => (v, s) | none => s.draw
      let s := s.releaseHeld t
      let s := s.endTake n
      let s := if t.incomplete then s.takeEvent t 0x0104 ((t.vols.head?.map (·.port)).getD 0) else s
      match t.stop with
      | some (_, some (rp, id)) => s.finishByIdX rp id stSuccess extra [last % 2 ^ 32, used]
      | _ => s
    else s

/-- Everything of a picture's folios that is released: no picture of the stream waits for the Bindery. -/
def State.noneWaiting (s : State) (n : Nat) : Bool :=
  (s.stream n).pics.all fun p => p.released && (!p.readers.contains 512 || (match s.take n with | some t => (t.pic p.num).isSome | none => true))

/-- A closing stream stops its take at the last picture that it finished (R271). -/
def State.stopClosing (s : State) (n : Nat) : State :=
  match s.take n with
  | some t =>
    if (s.stream n).state = .closing ∧ t.stop.isNone = true ∧ s.noneWaiting n = true then
      s.setTake { t with stop := some (match (s.stream n).lastReleased with | some v => v | none => 0, none) }
    else s
  | none => s

/-- The take goes on with its stop as far as it can. -/
def State.tryStop (s : State) (n : Nat) : State :=
  match s.take n with
  | none => s
  | some t =>
    match t.stop with
    | none => s
    | some (last, _) =>
      let all := decide (last < t.next) || ((s.stream n).state == .closing && s.noneWaiting n)
      let still := t.pics.any fun r => !t.laid r || !r.verify.isEmpty
      if t.closing || !all || still || !t.quiet || t.vols.any (fun v => !v.opened) then s
      else if !t.run.isEmpty || t.vols.any (fun v => !v.moves.isEmpty) then s.startCommit n
      else s.writeFinal n

/-! ### Durability (R263, R264) -/

/-- The take's commit has ended on every volume: the COMMIT slip, the marks, and the next commit. -/
def State.commitDone (s : State) (n : Nat) : State :=
  match s.take n with
  | none => s
  | some t =>
    let runs := t.vols.filterMap (·.commit)
    if runs.isEmpty || !(runs.all (·.done)) then s
    else
      let first := (runs.map (·.first)).foldl min (runs.headD { first := 0, last := 0, aidOff := 0, aidLen := 0, start := 0, stamp := DTime.none, shelves := [], done := true }).first
      let last := (runs.map (·.last)).foldl max 0
      let stamp := runs.foldl (fun (a : DTime) r => if nanosOf a * 65536 + a.frac.toNat ≤ nanosOf r.stamp * 65536 + r.stamp.frac.toNat then r.stamp else a)
        { sec := 0, ns := 0, frac := 0 }
      let good := ((t.pics.filter fun r => decide (t.from' ≤ r.num ∧ r.num ≤ last) && !r.gap).map (·.num)).getLast?
      let fresh := decide (t.from' ≤ last)
      let durable := t.marks.filter fun m => m.wait.isNone && decide (m.pic ≤ last)
      let fin := match (t.pics.filter fun r => decide (r.num ≤ last)).getLast? with | some r => r.aid.stamps.getD 0 t.fin | none => t.fin
      let idle : TakeVol → TakeVol := fun v => { v with commit := none }
      let t := { t with
        vols := t.vols.map idle, from' := max t.from' (last + 1),
        lastGood := good <|> t.lastGood, marks := t.marks.filter fun m => !(m.wait.isNone && decide (m.pic ≤ last)),
        marked := t.marked.filter fun m => decide (last < m.1),
        fin }
      let s := s.setTake t.prune
      let s := if fresh then
        s.streamEvent n 0 2 0 [first, last, stamp.sec.toNat % 2 ^ 32, stamp.ns.toNat, stamp.frac.toNat + stamp.sec.toNat / 2 ^ 32 * 65536]
        else s
      let s := (durable.foldl (fun s m => s.finishById m.rp m.id stSuccess [m.pic]) s).settle n
      if t.commitNext then s.startCommit n else s

/-- A COMMIT record is written: its pictures are durable on that volume. -/
def State.durableOn (s : State) (n p : Nat) : State :=
  match s.take n with
  | none => s
  | some t =>
    match t.vol p with
    | none => s
    | some tv =>
      match tv.commit with
      | none => s
      | some c =>
        let mine := t.pics.filter fun r => decide (c.first ≤ r.num ∧ r.num ≤ c.last) && !r.gap && r.written.contains p
        let late := (mine.filter fun r => decide (msTicks t.tailMs < s.ticks - r.givenTick)).length
        let s := s.add (BND.MG_COMMIT_LATE p) late
        let tv := { tv with
          durable := c.aidOff + recSpan c.aidLen, commit := some { c with done := true },
          aids := tv.aids.map fun e => if c.first ≤ e.num ∧ e.num ≤ c.last then e.stamped c.stamp else e }
        (s.setTake (t.setVol tv)).commitDone n

/-- A take goes on after an event. -/
def State.takeStep (s : State) (n : Nat) : State :=
  (((((((s.openDone n).commitDone n).marksDone n).releaseRecs n).stopClosing n).tryStop n).takeDone n)

/-- A magazine is treated as removed (R275): every take on it is handled; MAG_LOST is reported where one was open. `st`: what slips on them complete with. -/
def State.loseTakes (s : State) (p st : Nat) : State :=
  let ns := (s.bnd.takes.filter fun t => (t.vol p).isSome).map (·.stream)
  let s := ns.foldl (fun s n => (s.dropVol n p 0x0101 st).takeStep n) s
  if ns.isEmpty then s else s.reportStreams (magUnit p) 0x33 ns

end Sys2Proof.Machine
end

