-- ==== Sys2Proof/Machine/Recording.lean ====
section
/-! DEFINITION. The call slips of recording, pictures as they come to the Bindery, and verification (R266 to R274, R279 to R281). -/
namespace Sys2Proof.Machine

def stMagazineAbsent : Nat := 0x0100
def stMagazineError : Nat := 0x0109
def stNotRecording : Nat := 0x0108

/-! ### Admission (R267) -/

/-- Link figure of a port in bytes per second (R246). -/
def State.linkFigure (s : State) (p : Nat) : Nat :=
  let lane := match s.get (BND.MG_STATE_LINK_SPEED p) with | 5 => 3500 | 4 => 1750 | 3 => 860 | 2 => 400 | 1 => 200 | _ => 0
  lane * s.get (BND.MG_STATE_LINK_WIDTH p) * 1000000
/-- The budget of a volume. -/
def State.budget (s : State) (p : Nat) : Nat :=
  let w := s.get (BND.MG_WRITE_RATE_RATE p) * 1000000
  if w = 0 then s.linkFigure p else min w (s.linkFigure p)

/-- Pmax and the 64 bytes of a record's header, in blocks, rounded up. -/
def Stream.maxBlocks (x : Stream) : Nat :=
  if x.isKrema then
    let n := x.seq.leafCount
    let coded := if x.isV then x.picCap else ((List.range n).map fun j => packedSize x.geo.depth (x.seq.leaf j)).sum
    ceilDiv (coded + (176 + 10 * n) + 32 + 64) 4096
  else
    let rate := (if x.rateP.rcMode = 1 then x.rateP.peakRate else x.rateP.targetRate) * 1000
    ceilDiv (2 * rate * x.geo.rateDen + 512 * x.geo.rateNum) (4096 * 8 * x.geo.rateNum)

/-- The bound rate of a take as a fraction, in bytes per second. -/
def Stream.boundRate (x : Stream) (ratio : Nat) : Nat × Nat :=
  let r := if x.isKrema && !x.isV then (if ratio = 0 then 16 else ratio) else 16
  (x.geo.rateNum * 4096 * (x.maxBlocks + 1) * 16, x.geo.rateDen * r)

/-- The load of a take on each of its volumes. -/
def loadOf (layout : Nat) (r : Nat × Nat) : Nat × Nat := if layout = 2 then (r.1, 2 * r.2) else r
/-- Loads of the takes open on a port, as a fraction, with one more. -/
def State.loadOn (s : State) (p : Nat) (more : Nat × Nat) : Nat × Nat :=
  (s.bnd.takes.filter fun t => (t.vol p).isSome).foldl (fun a t => (a.1 * t.loadDen + t.loadNum * a.2, a.2 * t.loadDen)) more
/-- A take is admitted on a port. -/
def State.admitted (s : State) (p : Nat) (load : Nat × Nat) : Bool := let l := s.loadOn p load; decide (l.1 ≤ s.budget p * l.2)

/-! ### RECORD_START (R266, R268) -/

/-- Ports of LAYOUT: 0 MG0, 1 MG1, 2 mirrored, 3 striped; the layout as a take entry has it. -/
def layoutPorts (l : Nat) : List Nat := if l = 0 then [0] else if l = 1 then [1] else [0, 1]
def layoutCode (l : Nat) : Nat := if l = 2 then 1 else if l = 3 then 2 else 0

/-- A take number is in use on a port. -/
def State.takeUsed (s : State) (p num : Nat) : Bool :=
  (match (s.mag p).vol with | some v => (v.take num).isSome | none => false) || s.bnd.takes.any fun t => t.number == num && (t.vol p).isSome
/-- The lowest take number that is free on every port. -/
def State.freeTake (s : State) (ports : List Nat) : Nat :=
  let most := (ports.map fun p => match (s.mag p).vol with | some v => v.slots.length | none => 0).sum + s.bnd.takes.length
  ((rangeFrom 1 (most + 1)).find? fun k => !(ports.any fun p => s.takeUsed p k)).getD 1

/-- The picture that the stream releases next. -/
def Stream.nextReleased (x : Stream) : Nat := match x.lastReleased with | some v => v + 1 | none => 0
/-- The first key picture at or after another. -/
def Stream.keyFrom (x : Stream) (n : Nat) : Nat := ceilDiv n (max 1 x.geo.keyInterval) * max 1 x.geo.keyInterval

/-- The checks of R266 in order; `none` when all pass. -/
def State.recordRefusal (s : State) (n : Nat) (t : Taken) : Option Nat :=
  let m := t.streamField
  let x := s.stream m
  let ports := layoutPorts (bits (t.word 1) 8 3)
  let num := t.word 2
  let vol := fun p => (s.mag p).vol
  if s.streamFor n t [1, 2, 4, 5] = false then some stBadStream
  else if (s.take m).isSome then some 0x0107
  else match ports.find? fun p => s.magState p != msReady with
  | some p => some (if s.magState p = msNoVolume then 0x0101 else stMagazineAbsent)
  | none =>
    if num ≠ 0 ∧ (ports.any fun p => s.takeUsed p num) = true then some 0x0103
    else if ports.any fun p => (match vol p with | some v => v.freeSlot.isNone | none => true) || decide (4 ≤ (s.bnd.takes.filter fun u => (u.vol p).isSome).length) then some 0x010B
    else if ports.any fun p => decide (s.shelvesFree p < 2) then some 0x0102
    else if (ports.all fun p => s.admitted p (loadOf (layoutCode (bits (t.word 1) 8 3)) (x.boundRate (t.word 8 % 256)))) = false then some 0x0106
    else if t.word 7 ≠ ones32 ∧ x.nextReleased + 65536 < t.word 7 then some stBadField
    else none

/-- The fields of a RECORD_START. -/
def recordFieldsOk (t : Taken) : Bool :=
  let r := t.word 8 % 256
  t.reservedOk && decide (bits (t.word 1) 8 3 ≤ 3) && (r == 0 || (decide (16 ≤ r) && decide (r ≤ 64))) && t.word 2 != ones32

/-- The take that a RECORD_START opens. -/
def State.newTake (s : State) (n : Nat) (t : Taken) : Take :=
  let m := t.streamField
  let x := s.stream m
  let layout := bits (t.word 1) 8 3
  let ports := layoutPorts layout
  let first := x.keyFrom (if t.word 7 = ones32 then x.nextReleased else max (t.word 7) x.nextReleased)
  let load := loadOf (layoutCode layout) (x.boundRate (t.word 8 % 256))
  let part : Nat → TakeVol := fun p =>
    { port := p, stripe := if layout = 3 then p else 0, length := 0, durable := 0, chain := [], fresh := [], aids := [], moves := [], commit := none,
      opened := false, aidWritten := none, closed := false, finished := false }
  let idOf := fun p => match (s.mag p).vol with | some v => v.id | none => []
  { stream := m, number := if t.word 2 = 0 then s.freeTake ports else t.word 2, layout := layoutCode layout, verify := bitAt (t.word 1) 11,
    name := (rangeFrom 3 4).flatMap fun i => leBytes 4 (t.word i), codec := x.geo.codec, digest := s.get CAT.DIGEST_HI_VALUE * 2 ^ 32 + s.get CAT.DIGEST_LO_VALUE,
    seqId := if x.isKrema then x.geo.seqId else 0, slip := some (n, t.id), first, start := DTime.none, fin := DTime.none, lastGood := none,
    vols := ports.map part, partners := if ports.length = 2 then [(0, idOf 1), (1, idOf 0)] else [], pics := [], next := first, from' := first,
    gapping := false, degraded := false, gaps := false, verifyFailed := false, incomplete := false, marks := [], marked := [], loadNum := load.1,
    loadDen := load.2, tailMs := s.get BND.COMMIT_CFG_TAIL_MS, lagMs := s.get BND.COMMIT_CFG_VERIFY_LAG_MS, bufMib := s.get BND.BUFFER_CFG_TAKE_BUF_MIB,
    commitTick := s.ticks, commitNext := false, stop := none, closing := false }

/-- RECORD_START. LAST_PIC of the opening entry, before any picture is durable, is open. -/
def execRecordStart (n k : Nat) (s : State) : Host.Outcome State Fault Refusal :=
  match s.slipAt n k 0x07 with
  | none => .next s
  | some t =>
    if recordFieldsOk t = false then .next (s.finishInOrder n k t stBadField [])
    else match s.recordRefusal n t with
    | some st => .next (s.finishInOrder n k t st [])
    | none =>
      let u := s.newTake n t
      let (v, s) := s.draw
      let s := s.startSlip n t
      let s := { s with bnd := { s.bnd with takes := s.bnd.takes ++ [u] } }
      let s := s.setStream u.stream { s.stream u.stream with recorded := true }
      .next (u.vols.foldl (fun s w => s.journal w.port (.jOpen u.stream) 1 u.number (u.entry w 1 ones64 0 (v % 2 ^ 32)).bytes) s).showBnd

/-- TAKE_OPEN is durable on a volume. -/
def State.openedOn (s : State) (n p : Nat) : State :=
  match s.take n with
  | none => s
  | some t =>
    s.setTake (match t.vol p with | some v => t.setVol { v with opened := true } | none => t)

/-! ### RECORD_STOP (R271, R278) -/

/-- The last picture whose first leaf or segment has been dispatched. -/
def Stream.lastDispatched (x : Stream) : Option Nat :=
  match ((x.pics.filter (·.dispatched)).map (·.num)).getLast? with
  | some v => some v
  | none => x.lastReleased

/-- RECORD_STOP. -/
def execRecordStop (n k : Nat) (s : State) : Host.Outcome State Fault Refusal :=
  match s.slipAt n k 0x08 with
  | none => .next s
  | some t =>
    let m := t.streamField
    let x := s.stream m
    if t.reservedOk = false then .next (s.finishInOrder n k t stBadField [])
    else if s.streamFor n t [1, 2, 4, 5] = false then .next (s.finishInOrder n k t stBadStream [])
    else match s.take m with
    | none => .next (s.finishInOrder n k t stNotRecording [])
    | some u =>
      if u.stop.isSome then .next (s.finishInOrder n k t stNotRecording [])
      else
        let last := if t.word 2 = ones32 then x.lastDispatched.getD 0 else t.word 2
        .next (((s.startSlip n t).setTake { u with stop := some (last, some (n, t.id)) }).takeStep m)

/-! ### MARK (R272) -/

/-- MARK. -/
def execMark (n k : Nat) (s : State) : Host.Outcome State Fault Refusal :=
  match s.slipAt n k 0x09 with
  | none => .next s
  | some t =>
    let m := t.streamField
    if t.reservedOk = false then .next (s.finishInOrder n k t stBadField [])
    else if s.streamFor n t [1, 2, 4, 5] = false then .next (s.finishInOrder n k t stBadStream [])
    else if t.word 3 = 0 then .next (s.finishInOrder n k t stBadField [])
    else match s.take m with
    | none => .next (s.finishInOrder n k t stNotRecording [])
    | some u =>
      let pic := if t.word 2 = ones32 then max u.first (s.stream m).nextReleased else t.word 2
      let past := match u.stop with | some (l, _) => decide (l < pic) | none => false
      let note := (rangeFrom 4 4).flatMap fun i => leBytes 4 (t.word i)
      if pic < u.first ∨ past = true ∨ u.closing = true then .next (s.finishInOrder n k t stNotRecording [])
      else
        let s := s.startSlip n t
        if u.from' ≤ pic ∧ (u.vols.any fun v => match v.commit with | some c => decide (c.first ≤ pic ∧ pic ≤ c.last) | none => false) = false then
          .next (s.setTake { u with
            marks := u.marks ++ [{ pic, code := t.word 3, note, rp := n, id := t.id, wait := none }],
            marked := (pic, t.word 3, note) :: u.marked.filter (·.1 != pic) })
        else
          let ports := u.portsOf pic
          let set : TakeVol → TakeVol := fun v => { v with aids := v.aids.map fun e => if e.num = pic then e.withMark (t.word 3) note else e }
          let s := s.setTake { u with
            marks := u.marks ++ [{ pic, code := t.word 3, note, rp := n, id := t.id, wait := some ports }], vols := u.vols.map set }
          .next (ports.foldl (fun s p => s.journal p (.jMark m n t.id) 4 u.number (markBody pic (t.word 3) note)) s)

/-- A MARK record is durable on a volume. -/
def State.markedOn (s : State) (n p rp id : Nat) : State :=
  match s.take n with
  | none => s
  | some t =>
    s.setTake { t with marks := t.marks.map fun m => if m.rp = rp ∧ m.id = id then m.without p else m }

/-! ### Pictures (R257, R270) -/

/-- The aid entry of a picture when it comes to the Bindery. -/
def aidOfPic (x : Stream) (p : Pic) (data : List Byte) : AidEntry :=
  { num := p.num, flags := (if p.key then 1 else 0) + (if p.trip.isSome then 16 else 0) + (if p.codes.any (·.unverified) then 32 else 0) + (if p.unmasked then 64 else 0),
    off := ones64, len := data.length, epoch := p.epoch, digest := p.digest, stamps := (List.range 4).map p.stamp ++ [DTime.none, DTime.none],
    sha := if x.isKrema then (p.colophon ((p.header x).bytes ++ leafIndex (p.codes.map (·.bytes.length)) ++ p.codes.flatMap (·.bytes))).sha else sha256 data,
    mark := 0, note := [] }

def Take.heldBytes (t : Take) : Nat := ((t.pics.filter (·.held)).map (·.data.length)).sum

/-- A record's verification is given up: counted on each port, and its folios released. -/
def State.skipVerify (s : State) (n num : Nat) : State :=
  match s.take n with
  | none => s
  | some t =>
    match t.pic num with
    | none => s
    | some r =>
      let s := r.verify.foldl (fun s p => s.bump (BND.MG_VERIFY_SKIPPED p)) s
      (s.setTake (t.onPic num fun r => { r with verify := [] })).releaseRecs n

/-- Folios that wait for verification are released, oldest first, until so many bytes fit. -/
def State.makeRoom (s : State) (n size : Nat) : Nat → State
  | 0 => s
  | f + 1 =>
    match s.take n with
    | none => s
    | some t =>
      if t.heldBytes + size ≤ t.bufMib * 2 ^ 20 then s
      else match t.pics.find? fun r => r.held && t.laid r && !r.verify.isEmpty with
      | some r => (s.skipVerify n r.num).makeRoom n size f
      | none => s

/-- PICTURE_TO_BINDERY: the oldest picture that waits for the Bindery is recorded, entered as a gap, or is none of the take's. -/
def execPictureToBindery (n num : Nat) (s : State) : Host.Outcome State Fault Refusal :=
  let x := s.stream n
  match (x.pics.filter fun p => p.released && p.readers.contains 512 && !(match s.take n with | some t => (t.pic p.num).isSome | none => false)).head? with
  | none => .next s
  | some p =>
    if p.num ≠ num then .next s
    else match s.take n with
    | none => .next (s.dropReader n num 512)
    | some t =>
      let past := match t.stop with | some (l, _) => decide (l < num) | none => false
      let t := { t with next := max t.next (num + 1), start := if num = t.first then p.stamp 0 else t.start }
      let s := s.setTake t
      if num < t.first ∨ past = true then .next ((s.dropReader n num 512).takeStep n)
      else
        let data := p.coded x
        let aid := aidOfPic x p data
        let s := if t.gapping && !p.key then s else s.makeRoom n data.length t.pics.length
        match s.take n with
        | none => .next s
        | some t =>
          let rec' : RecPic := { num, key := p.key, gap := false, held := true, data, aid, offs := [], written := [], verify := [], moved := [], failed := [], back := [],
                                 givenTick := s.ticks, writtenTick := s.ticks, committed := [] }
          if (t.gapping && !p.key) ∨ t.bufMib * 2 ^ 20 < t.heldBytes + data.length then
            let gap := { rec' with gap := true, held := false, data := [], aid := { aid with flags := setBits aid.flags 1 1 1, len := 0 } }
            let s := s.setTake { t with pics := t.pics ++ [gap], gaps := true, gapping := true }
            let s := (t.portsOf num).foldl (fun s p => s.bump (BND.MG_COMMIT_GAPS p)) s
            .next ((s.dropReader n num 512).takeStep n)
          else
            let s := s.setTake { t with pics := t.pics ++ [rec'], gapping := false }
            let s := (t.portsOf num).foldl (fun s p => s.writeRecord n num p (t.endOf p) false) s
            .next ((s.earlyCommit n).takeStep n)

/-- COMMIT_TIMER: every TAIL_MS / 4 of a take (R263). -/
def execCommitTimer (n : Nat) (s : State) : Host.Outcome State Fault Refusal :=
  match s.take n with
  | none => .next s
  | some t =>
    if t.closing ∨ s.ticks - t.commitTick < msTicks t.tailMs / 4 then .next s
    else .next (((s.setTake { t with commitTick := t.commitTick + msTicks t.tailMs / 4 }).startCommit n).takeStep n)

/-- A RELOCATE record for the next commit of a port, with its flags; one that waits for a commit is replaced. Entries already committed follow (R274). -/
def Take.relocate (t : Take) (p num flags : Nat) : Take :=
  match t.pic num, t.vol p with
  | some r, some v =>
    let off := ((r.offs.find? (·.1 == p)).map (·.2)).getD 0
    t.setVol { v with
      moves := v.moves.filter (·.1 != num) ++ [(num, off, r.aid.len, flags)],
      aids := v.aids.map fun e => if e.num = num then e.moveTo off r.aid.len flags else e }
  | _, _ => t

/-- A picture's record is written on a port (R263): under VERIFY it is read back, and a relocated copy is named in the next commit (R273, R274). -/
def State.recordWritten (s : State) (n num p : Nat) (moved : Bool) : State :=
  match s.take n with
  | none => s
  | some t =>
    let len := match t.pic num with | some r => r.aid.len | none => 0
    let t := t.onPic num fun r => { r with
      written := p :: r.written.filter (· != p), writtenTick := s.ticks, verify := if t.verify then p :: r.verify.filter (· != p) else r.verify,
      back := r.back.filter (·.1 != p) }
    let t := if moved then t.relocate p num 0 else t
    let s := s.setTake t
    (if t.verify then s.issueRead p (.verify n num) len else s).takeStep n

/-! ### Verification (R273, R274) -/

/-- The data of a record that a verification Read has brought into the verify buffer; `damage`: what it gave in place of what the blocks hold (R273). -/
def State.readBack (s : State) (n num p : Nat) (damage : Option (List Byte)) : State :=
  match s.take n with
  | none => s
  | some t =>
    match t.pic num, t.vol p with
    | some r, some v =>
      let off := ((r.offs.find? (·.1 == p)).map (·.2)).getD 0
      let got := match damage with | some d => d | none => (s.mag p).takeBytes (v.chain ++ v.fresh) (off + 64) r.aid.len
      s.setTake (t.onPic num fun r => { r with back := (p, got) :: r.back.filter (·.1 != p) })
    | _, _ => s

/-- VERIFY_COMPARE_DONE of a record on a port: what was read back has been compared with the held folio, with the outcome that the two give. -/
def execVerifyCompareDone (p n num : Nat) (equal : Bool) (s : State) : Host.Outcome State Fault Refusal :=
  match s.take n with
  | none => .next s
  | some t =>
    match t.pic num with
    | none => .next s
    | some r =>
      match r.verify.contains p, r.back.find? (·.1 == p) with
      | true, some got =>
        let clear := t.onPic num fun r => { r with verify := r.verify.filter (· != p), back := r.back.filter (·.1 != p) }
        if decide (got.2 = r.data) ≠ equal then .next s
        else if equal then .next ((s.setTake clear).takeStep n)
        else
          let s := s.bump (BND.MG_VERIFY_MISMATCH p)
          if r.moved.contains p then
            let u := (clear.onPic num fun r => { r with failed := p :: r.failed.filter (· != p) }).relocate p num 1
            let s := (s.setTake { u with verifyFailed := true }).report (magUnit p) 0x34 (some n) 0
            .next (if s.power.held then s else s.takeStep n)
          else .next ((((s.setTake clear).writeRecord n num p (t.endOf p) true).earlyCommit n).takeStep n)
      | _, _ => .next s

/-- VERIFY_LAG_EXPIRY of a record on a port: VERIFY_LAG_MS have passed since its write. -/
def execVerifyLagExpiry (p n num : Nat) (s : State) : Host.Outcome State Fault Refusal :=
  match s.take n with
  | none => .next s
  | some t =>
    match t.pic num with
    | none => .next s
    | some r =>
      if r.verify.contains p = false ∨ s.ticks - r.writtenTick < msTicks t.lagMs then .next s
      else .next (((s.bump (BND.MG_VERIFY_SKIPPED p)).setTake (t.onPic num fun r => { r with verify := r.verify.filter (· != p) })).takeStep n)

/-! ### READ_EXTENT (R279, R280) -/

/-- Entries of a take's durable pictures on a port: of an open take those committed, else those of its final finding aid. -/
def State.entriesOn (s : State) (p num : Nat) : List AidEntry :=
  match s.bnd.takes.find? fun t => t.number == num && (t.vol p).isSome with
  | some t => (match t.vol p with | some v => v.aids.filter fun e => decide (e.num < t.from') | none => [])
  | none =>
    match (s.mag p).vol with
    | none => []
    | some v =>
      match v.take num with
      | some e =>
        let l := (s.mag p).takeBytes (v.chain e) (e.aidOff + 64) e.aidLen
        parseAids (l.drop 64) (be l 0 4)
      | none => []

/-- The chain of a take on a port. -/
def State.chainOn (s : State) (p num : Nat) : List Nat :=
  match s.bnd.takes.find? fun t => t.number == num && (t.vol p).isSome with
  | some t => (match t.vol p with | some v => v.chain ++ v.fresh | none => [])
  | none => match (s.mag p).vol with | some v => (match v.take num with | some e => v.chain e | none => []) | none => []

/-- Layout of a take on a port. -/
def State.layoutOn (s : State) (p num : Nat) : Nat :=
  match s.bnd.takes.find? fun t => t.number == num && (t.vol p).isSome with
  | some t => t.layout
  | none => match (s.mag p).vol with | some v => (match v.take num with | some e => e.layout | none => 0) | none => 0

/-- A list of entries with their ports in picture order. -/
def mergeEntries : Nat → List (Nat × AidEntry) → List (Nat × AidEntry) → List (Nat × AidEntry)
  | 0, a, b => a ++ b
  | _, [], b => b
  | _, a, [] => a
  | f + 1, x :: a, y :: b => if x.2.num ≤ y.2.num then x :: mergeEntries f a (y :: b) else y :: mergeEntries f (x :: a) b

/-- VOLUME_ID of the other volume of a take on a port (R255). -/
def State.partnerOf (s : State) (p num : Nat) : List Byte :=
  match s.bnd.takes.find? fun t => t.number == num && (t.vol p).isSome with
  | some t => ((t.partners.find? (·.1 == p)).map (·.2)).getD []
  | none => match (s.mag p).vol.bind fun v => v.take num with | some e => e.partner | none => []
/-- The other port holds the other volume of a take: each names the other (R255, R280). -/
def State.partnered (s : State) (p num : Nat) : Bool :=
  match (s.mag p).vol, (s.mag (1 - p)).vol with
  | some v, some w => s.magState (1 - p) == msReady && s.takeUsed (1 - p) num && s.partnerOf p num == w.id && s.partnerOf (1 - p) num == v.id
  | _, _ => false

/-- READ_EXTENT may read from a port: no verification waits there, and the write backlog of its takes is low enough (R273, R280). -/
def State.mayRead (s : State) (p : Nat) : Bool :=
  !((s.mag p).cmds.any fun c => match c.job with | .verify _ _ => true | _ => false) &&
  (s.bnd.takes.filter fun t => (t.vol p).isSome).all fun t =>
    decide (((t.pics.filter fun r => r.held && !r.written.contains p).map (·.data.length)).sum < t.bufMib * 2 ^ 20 / 4)

def State.extent (s : State) (rp id : Nat) : Option Extent := s.bnd.extents.find? fun e => e.rp == rp && e.id == id
def State.setExtent (s : State) (e : Extent) : State :=
  { s with bnd := { s.bnd with extents := s.bnd.extents.map fun f => if f.rp = e.rp ∧ f.id = e.id then e else f } }
/-- A READ_EXTENT ends. -/
def State.endExtent (s : State) (e : Extent) (st : Nat) : State :=
  let s := { s with bnd := { s.bnd with extents := s.bnd.extents.filter fun f => !(f.rp == e.rp && f.id == e.id) } }
  s.finishById e.rp e.id st [e.bytes, e.pics, e.gaps, min e.mirror 65535 + min e.bad 65535 * 65536]

/-- Gaps at the front of what is to be read are skipped and counted. -/
def Extent.skipGaps (e : Extent) : Extent :=
  { e with left := e.left.dropWhile (·.2.gap), gaps := e.gaps + (e.left.takeWhile (·.2.gap)).length }

/-- The next picture is read, or the slip ends. A read waits while the backlog of a take on the port is too long. -/
def State.nextRead (s : State) (rp id : Nat) : State :=
  match s.extent rp id with
  | none => s
  | some e =>
    let e := e.skipGaps
    let s := s.setExtent e
    match e.left with
    | [] => s.endExtent e stSuccess
    | (p, a) :: _ =>
      let cap := match (s.ring rp).byId id with | some t => t.word 7 | none => 0
      if cap < e.bytes + e.head.length + a.len then s.endExtent e 0x0013
      else if (s.mag p).cmds.any fun c => c.job == .extent rp id then s
      else if s.mayRead p then s.issueRead p (.extent rp id) a.len else s

/-- READ_EXTENT. -/
def execReadExtent (n k : Nat) (s : State) : Host.Outcome State Fault Refusal :=
  match s.slipAt n k 0x0A with
  | none => .next s
  | some t =>
    let p := bits (t.word 1) 8 1
    let num := t.word 2
    if t.reservedOk = false then .next (s.finish n t stBadField 0 [])
    else if s.magState p ≠ msReady then .next (s.finish n t (if s.magState p = msNoVolume then 0x0101 else stMagazineAbsent) 0 [])
    else if s.takeUsed p num = false then .next (s.finish n t 0x0104 0 [])
    else
      let striped := s.layoutOn p num == 2
      let q := 1 - p
      if striped ∧ s.partnered p num = false then .next (s.finish n t 0x010A 0 [])
      else
        let mine := (s.entriesOn p num).map fun e => (p, e)
        let all := if striped then (let other := (s.entriesOn q num).map fun e => (q, e); mergeEntries (mine.length + other.length) mine other) else mine
        if (all.any fun e => e.2.num == t.word 3) = false then .next (s.finish n t 0x0105 0 [])
        else
          let want := (all.filter fun e => decide (t.word 3 ≤ e.2.num)).take (t.word 4)
          let pics := want.filter fun e => !e.2.gap
          let head := match pics.head? with
            | some (_, a) =>
              if a.key then [] else
                (match (all.filter fun e => e.2.key && decide (e.2.num < a.num)).getLast? with
                 | some (kp, ka) => (fun d => if beNum (List.take 4 d) = 0x4B525351 then d else []) ((s.mag kp).takeBytes (s.chainOn kp num) (ka.off + 64) 32)
                 | none => [])
            | none => []
          let e : Extent := { rp := n, id := t.id, port := p, take := num, left := want, head, bytes := 0, pics := 0, gaps := 0, mirror := 0, bad := 0 }
          let s := s.startSlip n t
          .next ({ s with bnd := { s.bnd with extents := s.bnd.extents ++ [e] } }.nextRead n t.id)

/-- A picture of a READ_EXTENT has been read; `damage`: what was read in place of what the record holds. -/
def State.extentRead (s : State) (rp id : Nat) (damage : Option (List Byte)) : State :=
  match s.extent rp id, (s.ring rp).byId id with
  | some e, some t =>
    match e.left with
    | [] => s.endExtent e stSuccess
    | (p, a) :: rest =>
      let got := (s.mag p).recordAt (s.chainOn p e.take) a.off a.len
      let got := match damage with | some d => (d.take a.len, got.2 && decide (d.take a.len = got.1)) | none => got
      let q := 1 - p
      let twin := if s.layoutOn p e.take = 1 ∧ s.partnered p e.take = true then (s.entriesOn q e.take).find? (·.num == a.num) else none
      let (data, ok, mirror) := match got.2, twin with
        | false, some b => let r := (s.mag q).recordAt (s.chainOn q e.take) b.off b.len; (r.1, r.2, true)
        | _, _ => (got.1, got.2, false)
      let out := e.head ++ data
      match s.slipPieces rp (t.addr 5 + e.bytes) out.length true with
      | (s, .fail kd l va) =>
        if resolvable kd then (s.queueFault (.slip rp id) (s.get (HIF.RP_CFG_ASID rp)) va true kd l).issueRead p (.extent rp id) a.len
        else s.endExtent e stAddressFault
      | (s, .ok ps) =>
        let s := (s.writePieces ps out).1
        let e := { e with left := rest, head := [], bytes := e.bytes + out.length, pics := e.pics + 1, mirror := e.mirror + (if mirror then 1 else 0), bad := e.bad + (if ok then 0 else 1) }
        (s.setExtent e).nextRead rp id
  | _, _ => s

end Sys2Proof.Machine
end

