-- ==== Sys2Proof/Machine/MagPorts.lean ====
section
/-! DEFINITION. The magazine ports: presence, bring-up, the completions of NVMe commands, removal, housekeeping (R246 to R251, R262, R265, R275,
R276, R282). -/
namespace Sys2Proof.Machine

/-! ### Removal and failure (R249, R275) -/

/-- One bit of a field of BND_STAT. -/
def State.bndBit (s : State) (f : Fld) (p : Nat) (v : Bool) : State := s.put ⟨f.off, f.lo + p, 1⟩ (if v then 1 else 0)

/-- A housekeeping operation ends with a result. -/
def State.endOp (s : State) (p result : Nat) : State :=
  let s := s.setMag p { s.mag p with op := none }
  (((s.put (BND.MG_CMD_STAT_BUSY p) 0).put (BND.MG_CMD_STAT_RESULT p) result).put (BND.MG_CMD_STAT_DONE p) 1).raise (19 + p)

/-- READ_EXTENTs that read a port are answered. -/
def State.failExtents (s : State) (p st : Nat) : State :=
  (s.bnd.extents.filter fun e => e.port == p || (e.left.any fun q => q.1 == p)).foldl (fun s e => s.endExtent e st) s

/-- The port lets go of its magazine: commands are abandoned, takes handled, and it enters a state. `st`: what slips on it complete with (R281). -/
def State.letGo (s : State) (p state st : Nat) : State :=
  let s := if (s.mag p).op.isSome then s.endOp p 4 else s
  let s := s.loseTakes p st
  if s.power.held then s
  else
    let s := s.failExtents p st
    let s := s.setMag p { s.mag p with stage := .empty, queues := [], cmds := [], vol := none, ckpt := none, ckptNext := [] }
    let s := ((s.put (BND.MG_STATE_VWC p) 0).put (BND.MG_STATE_LINK_SPEED p) 0).put (BND.MG_STATE_LINK_WIDTH p) 0
    ((s.bndBit BND.BND_STAT_LINK_UP p false).setMagState p state).showBnd

/-- The port enters FAILED after commands have failed, or a check (R247, R249). -/
def State.failPort (s : State) (p : Nat) : State := s.letGo p msFailed stMagazineError

/-- MAG_PRESENCE_FALL: MGn_PRSNT_N falls as a magazine is put in. -/
def execMagPresenceFall (p : Nat) (m : Magazine) (s : State) : Host.Outcome State Fault Refusal :=
  let g := s.mag p
  if p < 2 ∧ g.inserted.isNone ∧ g.stage = .empty then
    .next (s.setMag p (Mag.write { g with stage := .settling s.ticks, inserted := some m, media := [] } m.blocks))
  else .next s

/-- MAG_PRESENCE_ACCEPT (R251 step 2). -/
def execMagPresenceAccept (p : Nat) (s : State) : Host.Outcome State Fault Refusal :=
  match (s.mag p).stage with
  | .settling t =>
    if s.ticks - t < msTicks 50 ∨ s.powered (magUnit p) = false then .next s
    else .next (((s.setMag p { s.mag p with stage := .powering s.ticks, refclk := true, perst := true }).bndBit BND.BND_STAT_PRESENT p true).setMagState p msStarting)
  | _ => .next s

/-- MAG_PERST_RELEASE (R251 step 3), or after the 1 ms of step 4. -/
def execMagPerstRelease (p : Nat) (s : State) : Host.Outcome State Fault Refusal :=
  match (s.mag p).stage with
  | .pulsing t => if s.ticks - t < msTicks 1 then .next s
                  else .next (s.setMag p { s.mag p with stage := .linking s.ticks true, perst := false })
  | .powering t => if s.ticks - t < msTicks 100 then .next s
                   else .next (s.setMag p { s.mag p with stage := .linking s.ticks false, perst := false })
  | _ => .next s

/-- The magazine in a port meets a part of R247. -/
def State.magMeets (s : State) (p : Nat) (f : Magazine → Bool) : Bool := match (s.mag p).inserted with | some g => f g | none => false

/-- MAG_LINK_UP (R246, R251 steps 4 to 6): the link has trained to a rate and a width. An endpoint that R247 does not accept fails the port. -/
def execMagLinkUp (p speed width : Nat) (s : State) : Host.Outcome State Fault Refusal :=
  match (s.mag p).stage with
  | .linking _ _ =>
    if 1 ≤ speed ∧ speed ≤ 5 ∧ (width = 1 ∨ width = 2 ∨ width = 4) then
      let s := s.setMag p { s.mag p with stage := .enabling s.ticks false }
      let s := ((s.put (BND.MG_STATE_LINK_SPEED p) speed).put (BND.MG_STATE_LINK_WIDTH p) width).bndBit BND.BND_STAT_LINK_UP p true
      .next (if s.magMeets p Magazine.endpointOk then s else s.failPort p)
    else .next s
  | _ => .next s

/-- MAG_LINK_TIMEOUT (R251 step 4): 100 ms after MGn_PERST_N was released, it is pulsed low for 1 ms once, and then the port fails. -/
def execMagLinkTimeout (p : Nat) (s : State) : Host.Outcome State Fault Refusal :=
  match (s.mag p).stage with
  | .linking t again =>
    if s.ticks - t < msTicks 100 then .next s
    else if again then .next (s.failPort p)
    else .next (s.setMag p { s.mag p with stage := .pulsing s.ticks, perst := true })
  | _ => .next s

/-- MAG_CONTROLLER_READY (R251 step 7): a controller that R247 does not accept fails the port. -/
def execMagControllerReady (p : Nat) (s : State) : Host.Outcome State Fault Refusal :=
  match (s.mag p).stage with
  | .enabling _ reset =>
    .next (if s.magMeets p Magazine.controllerOk then (s.setMag p { s.mag p with stage := .identifying reset }).issue p .identify true none []
           else s.failPort p)
  | _ => .next s

/-- A command of the mount itself, which a mount run again repeats. -/
def MagJob.ofMount : MagJob → Bool
  | .mount | .health | .errorLog => true
  | _ => false

/-- The controller is reset (R249): CC.EN is cleared and it is brought up again from step 6, data commands being held; a mount that was under way begins
anew. A reset that fails removes the magazine. -/
def State.resetController (s : State) (p : Nat) : State :=
  let m := s.mag p
  let go : Mag → State := fun m => (s.setMag p { m with stage := .enabling s.ticks true, queues := [] }).setMagState p msStarting
  match m.stage with
  | .enabling _ true | .identifying true | .mounting true => s.failPort p
  | .mounting false => go { m with vol := none, cmds := [], ckpt := none, ckptNext := [] }
  | _ => go { m with cmds := (m.cmds.filter fun c => !c.admin).map fun c => { c with retried := false } }

/-- A command has failed: it is retried once, and then the controller is reset. The first failure is reported (R438). -/
def State.cmdFails (s : State) (p k : Nat) : State :=
  match (s.mag p).cmds[k]? with
  | none => s
  | some c =>
    if c.retried then s.resetController p
    else
      let m := s.mag p
      (s.setMag p { m with cmds := m.cmds.set k { c with retried := true, tick := s.ticks } }).report (magUnit p) 0x32 none 0

/-- Data commands and the mount's own wait while the controller is being reset. -/
def Mag.mayComplete (m : Mag) (c : MagCmd) : Bool :=
  match m.stage with
  | .identifying _ => c.admin
  | .mounting reset => !reset || c.job.ofMount
  | .up => true
  | _ => false

/-- NVME_TIMEOUT: 2 s for an I/O command, 5 s for an admin command, CAP.TO for CSTS.RDY (R249, R251). -/
def execNvmeTimeout (p k : Nat) (s : State) : Host.Outcome State Fault Refusal :=
  let m := s.mag p
  match m.stage with
  | .enabling t _ =>
    let wait := match m.inserted with | some g => 500 * g.capTo | none => 0
    .next (if s.ticks - t < msTicks wait then s else s.failPort p)
  | _ =>
    match m.cmds[k]? with
    | none => .next s
    | some c =>
      if m.mayComplete c = false ∨ s.ticks - c.tick < msTicks (if c.admin then 5000 else 2000) then .next s
      else .next ((s.bump (BND.MG_ERR_TIMEOUT p)).cmdFails p k)

/-! ### Mount (R251 steps 7 and 8, R265) -/

/-- The volume stands: the port is READY. -/
def State.volumeUp (s : State) (p : Nat) : State := ((s.setMag p { s.mag p with stage := .up }).setMagState p msReady).showBnd

/-- Identify has come back: the namespace is checked (R247), and the number of queues is set. -/
def State.identified (s : State) (p : Nat) : State :=
  if s.magMeets p Magazine.namespaceOk then s.issue p .setQueues true none [] else s.failPort p

/-- Get Features has come back with the volatile write cache: the queues are created, two commands for each pair (R248). -/
def State.vwcRead (s : State) (p : Nat) : State :=
  match (s.mag p).inserted with
  | some g => (s.put (BND.MG_STATE_VWC p) (if g.vwc then 1 else 0)).issueN p .makeQueues true (2 * g.ioPairs.length) none []
  | none => s

/-- The queues stand: the logs are read, and the volume is mounted (R251 steps 7 and 8). -/
def State.queuesMade (s : State) (p : Nat) : State :=
  let m := s.mag p
  match m.inserted, m.stage with
  | some g, .identifying reset =>
    let again := reset && (m.vol.isSome || m.op == some 1)
    (((s.setMag p { m with stage := .mounting again, queues := g.ioPairs, cmds := if again then m.cmds else [] }).issue p .health true none []).issue p
      .errorLog true none []).issue p .mount false none []
  | _, _ => s

/-- What the mount reads has come back. After a reset of the controller it finds the volume that the Bindery has in hand, and what was held goes on. -/
def State.mounted (s : State) (p : Nat) : State :=
  let m := s.mag p
  match m.inserted, m.stage with
  | none, _ => s
  | some _, .mounting true =>
    let now : MagCmd → MagCmd := fun c => { c with tick := s.ticks }
    (s.setMag p { m with stage := .up, cmds := m.cmds.map now }).setMagState p (if m.op = some 1 then msFormatting else msReady)
  | some g, _ =>
    match m.mount s.now g.nsze with
    | .noVolume => ((s.put (BND.MG_STATE_RECOVERED p) 0).setMag p { m with stage := .up }).showBnd.setMagState p msNoVolume
    | .failed => s.failPort p
    | .ok v writes changed recovered =>
      let s := (s.setMag p { m with vol := some v }).put (BND.MG_STATE_RECOVERED p) (if recovered then 1 else 0)
      if writes.isEmpty = false then s.issue p .recover false none writes
      else if changed then s.startCkpt p .mount else s.volumeUp p

/-! ### Checkpoints (R262) -/

/-- What waited for a checkpoint goes on. -/
def State.ckptDone (s : State) (p : Nat) (w : CkptFor) : State :=
  match w with
  | .routine => s
  | .stop n =>
    (match s.take n with
     | some t => (match t.vol p with | some v => (s.setTake (t.setVol { v with finished := true })).takeStep n | none => s)
     | none => s)
  | .eject =>
    let s := (s.endOp p 0).letGo p msEjected stMagazineAbsent
    s.setMag p { s.mag p with perst := true }
  | .delete => s.endOp p 0
  | .mount => s.volumeUp p

/-- Block 0 of the copy is written. -/
def State.ckptHeadDone (s : State) (p : Nat) : State :=
  let m := s.mag p
  match m.vol, m.ckpt with
  | some v, some (ws, seq) =>
    let v := { v with gen := v.gen + 1, copyB := !v.copyB, ckptSeq := seq, since := v.seq - seq }
    let s := s.setMag p { m with vol := some v, ckpt := none, ckptNext := [] }
    let s := ws.foldl (fun s w => s.ckptDone p w) s
    match m.ckptNext with
    | [] => s
    | w :: r =>
      let s := s.startCkpt p w
      s.setMag p { s.mag p with ckpt := (s.mag p).ckpt.map fun c => (c.1 ++ r, c.2) }
  | _, _ => s

/-! ### FORMAT (R282) -/

/-- Blocks that a step of FORMAT writes: 1 zeros to both headers, 2 deallocation and zeros to the inventory and the journal, 3 inventory A, 4 Flush,
5 the header copy, 6 the header. -/
def formatWrites (v : Volume) (step : Nat) : List (Nat × List Byte) :=
  let zeros := fun a n => (List.range n).map fun i => (a + i, List.replicate 4096 0#8)
  match step with
  | 1 => zeros 0 1 ++ zeros (v.nsze - 256) 1
  | 2 => zeros 256 4096 ++ zeros 4352 16384
  | 3 => (256, v.head 1 1 v.body) :: blocksFrom 257 v.body
  | 5 => [(v.nsze - 256, v.header true)]
  | 6 => [(0, v.header false)]
  | _ => []

/-- VOLUME_ID of a new volume, from the device identity and the Dater time: how they make it is open, but that no two are the same (R253). -/
def State.freshVolumeId (s : State) : Nat :=
  let v := Config.volumeId ((List.range 4).map fun i => (s.rd (FUS.DEVICE_UID i)).toNat) s.time
  (((List.range (s.bnd.ids.length + 1)).map fun k => (v + k) % 2 ^ 128).find? fun x => !s.bnd.ids.contains x).getD (v % 2 ^ 128)

/-- A new volume of FORMAT. -/
def State.newVolume (s : State) (nsze : Nat) : State × Volume :=
  let a := s.freshVolumeId
  let n := nsze
  ({ s with bnd := { s.bnd with ids := a :: s.bnd.ids } }, { id := beBytes 16 a, nsze := n, shelves := shelfCount n, made := s.now, slots := [], shelf := [], seq := 1, since := 0, gen := 1, copyB := false, ckptSeq := 1 })

/-- A step of FORMAT has ended. -/
def State.formatStep (s : State) (p step : Nat) : State :=
  let m := s.mag p
  match m.vol with
  | none => s
  | some v =>
    let m := if step = 2 then { m with media := Tab.keep (fun a => decide (v.nsze ≤ a)) m.media } else m
    let s := s.setMag p m
    if step = 6 then (((s.endOp p 0).setMag p { (s.endOp p 0).mag p with stage := .up }).setMagState p msReady).showBnd
    else s.issue p (.format (step + 1)) false none (formatWrites v (step + 1))

/-! ### Housekeeping commands (R282) -/

/-- A command is refused with a result. -/
def State.refuseCmd (s : State) (p result : Nat) : State :=
  if result = 6 then s.put (BND.MG_CMD_STAT_RESULT p) 6
  else (s.put (BND.MG_CMD_STAT_RESULT p) result).put (BND.MG_CMD_STAT_DONE p) 1

def State.takesOn (s : State) (p : Nat) : Bool := s.bnd.takes.any fun t => (t.vol p).isSome
/-- An operation begins. -/
def State.beginOp (s : State) (p op : Nat) : State := (s.setMag p { s.mag p with op := some op }).put (BND.MG_CMD_STAT_BUSY p) 1

/-- A write of MGn_CMD. -/
def State.magCmd (s : State) (p v : Nat) : State :=
  let st := s.magState p
  let op := bits v 0 4
  if (s.mag p).op.isSome then s.refuseCmd p 6
  else if bits v 16 16 ≠ 0x5E1F ∨ op = 0 ∨ 4 < op then s.refuseCmd p 5
  else if op = 1 then
    (if st ≠ msReady ∧ st ≠ msNoVolume then s.refuseCmd p 7
     else if s.takesOn p then s.refuseCmd p 1
     else
       let n := match (s.mag p).inserted with | some g => g.nsze | none => 0
       if shelfCount n < 16 then s.refuseCmd p 4
       else
         let (s, w) := (s.beginOp p 1).newVolume n
         let s := (s.setMag p { s.mag p with vol := some w, ckpt := none, ckptNext := [] }).setMagState p msFormatting |>.showBnd
         s.issue p (.format 1) false none (formatWrites w 1))
  else if op = 2 then
    (if st ≠ msReady ∧ st ≠ msNoVolume then s.refuseCmd p 7
     else if s.takesOn p then s.refuseCmd p 1
     else if st = msReady then (s.beginOp p 2).startCkpt p .eject
     else (s.beginOp p 2).ckptDone p .eject)
  else if op = 3 then
    (if st ≠ msFailed ∧ st ≠ msEjected then s.refuseCmd p 7
     else
       let s := (s.setMag p { s.mag p with stage := .linking s.ticks false, perst := false }).setMagState p msStarting
       (s.put (BND.MG_CMD_STAT_RESULT p) 0).put (BND.MG_CMD_STAT_DONE p) 1)
  else
    (if st = msNoVolume then s.refuseCmd p 2
     else if st ≠ msReady then s.refuseCmd p 7
     else
       let num := s.get (BND.MG_CMD_ARG_TAKE p)
       match (s.mag p).vol.bind fun w => w.take num with
       | none => s.refuseCmd p 3
       | some e =>
         if e.state = 1 then s.refuseCmd p 1
         else (s.beginOp p 4).journal p (.jDelete num) 6 num [] |>.showBnd)

/-- FORMAT, EJECT, RESCAN and DELETE_TAKE: writes of MGn_CMD with a KEY and their OP. -/
def execFormat (p key : Nat) (s : State) : Host.Outcome State Fault Refusal := .next (s.magCmd p (key % 65536 * 65536 + 1))
def execEject (p key : Nat) (s : State) : Host.Outcome State Fault Refusal := .next (s.magCmd p (key % 65536 * 65536 + 2))
def execRescan (p key : Nat) (s : State) : Host.Outcome State Fault Refusal := .next (s.magCmd p (key % 65536 * 65536 + 3))
def execDeleteTake (p key : Nat) (s : State) : Host.Outcome State Fault Refusal := .next (s.magCmd p (key % 65536 * 65536 + 4))

/-! ### Completions (R249, R263) -/

/-- A job's last command has completed, its blocks written. `reply`: temperature, critical warning and percentage of a health log; `damage`: what a
read gave in place of what the blocks hold. -/
def State.jobDone (s : State) (p : Nat) (c : MagCmd) (reply : List Nat) (damage : Option (List Byte)) : State :=
  match c.job with
  | .identify => s.identified p
  | .setQueues => s.issue p .getVwc true none []
  | .getVwc => s.vwcRead p
  | .makeQueues => s.queuesMade p
  | .errorLog => s
  | .health =>
    ((s.put (BND.MG_HEALTH_TEMPERATURE p) (reply.getD 0 0)).put (BND.MG_HEALTH_CRITICAL_WARNING p) (reply.getD 1 0)).put (BND.MG_HEALTH_PERCENT_USED p) (reply.getD 2 0)
  | .mount => s.mounted p
  | .recover => s.startCkpt p .mount
  | .record n num moved => s.recordWritten n num p moved
  | .verify n num => s.readBack n num p damage
  | .aid n =>
    if s.on (BND.MG_STATE_VWC p) then s.issue p (.flush n) false none [] else (s.stampCommit n p)
  | .flush n => s.stampCommit n p
  | .finalAid n => s.writeClose n p
  | .jOpen n => (s.openedOn n p).takeStep n
  | .jCommit n => (s.durableOn n p).takeStep n
  | .jClose n => s.startCkpt p (.stop n)
  | .jMark n rp id => (s.markedOn n p rp id).takeStep n
  | .jMove => s
  | .jDelete _ => s.issue p .trim false none []
  | .trim => s.startCkpt p .delete
  | .ckptBody => s.issue p .ckptFlush false none []
  | .ckptFlush =>
    (match (s.mag p).vol, (s.mag p).ckpt with
     | some v, some (_, seq) =>
       let lba := invLba (!v.copyB)
       s.issue p .ckptHead false none [(lba, v.head (v.gen + 1) seq ((s.mag p).read (lba + 1) 1280))]
     | _, _ => s)
  | .ckptHead => s.ckptHeadDone p
  | .format step => s.formatStep p step
  | .extent rp id => s.extentRead rp id damage

/-- A journal record waits for those before it; while it would overwrite one that a mount from the newest complete checkpoint needs; and, while a checkpoint
runs, for the block of the record before its JOURNAL_SEQ by one round of the ring (R262, R264). -/
def Mag.journalWaits (m : Mag) (q : Nat) : Bool :=
  (m.cmds.any fun c => match c.seq with | some r => decide (r < q) | none => false) ||
  (match m.vol with | some v => decide (v.ckptSeq + 16384 ≤ q) | none => false) ||
  (match m.ckpt with | some (_, j) => decide (j ≤ q) | none => false)

/-- A command is not issued yet: a journal record that waits; a verification Read, while a data write is to be done; a Read of READ_EXTENT, while a
verification waits or its slip does (R262, R273). -/
def State.cmdBlocked (s : State) (p : Nat) (c : MagCmd) : Bool :=
  (match c.seq with | some q => (s.mag p).journalWaits q | none => false) ||
  (match c.job with
   | .verify _ _ => (s.mag p).cmds.any fun d => match d.job with | .record _ _ _ => true | _ => false
   | .extent rp id =>
     ((s.mag p).cmds.any fun d => match d.job with | .verify _ _ => true | _ => false) ||
     (match (s.ring rp).byId id with | some t => s.slipWaits rp t | none => false)
   | _ => false)

/-- NVME_COMPLETION of the kth job of a port. -/
def execNvmeCompletion (p k : Nat) (ok : Bool) (reply : List Nat) (damage : Option (List Byte)) (s : State) : Host.Outcome State Fault Refusal :=
  let m := s.mag p
  match m.cmds[k]? with
  | none => .next s
  | some c =>
    if m.mayComplete c = false ∨ s.cmdBlocked p c = true then .next s
    else if ok = false then .next ((s.bump (BND.MG_ERR_CMD_ERR p)).cmdFails p k)
    else if 1 < c.left then .next (s.setMag p { m with cmds := m.cmds.set k { c with left := c.left - 1, retried := false, tick := s.ticks } })
    else
      let s := s.setMag p (Mag.write { m with cmds := m.cmds.eraseIdx k } c.writes)
      let s := s.jobDone p c reply damage
      .next (if s.power.held then s else (s.bnd.extents.filter fun e => (match e.left with | q :: _ => q.1 == p | [] => false)).foldl (fun s e => s.nextRead e.rp e.id) s)

/-- HEALTH_LOG_TIMER: every 60 s, the error information with it. -/
def execHealthLogTimer (p : Nat) (s : State) : Host.Outcome State Fault Refusal :=
  if (s.mag p).stage = .up ∧ ((s.mag p).cmds.any fun c => c.job == .health) = false then .next ((s.issue p .health true none []).issue p .errorLog true none []) else .next s

/-- MAG_REMOVAL: MGn_PRSNT_N has been high for 10 µs. Before presence was accepted there is no other effect. -/
def execMagRemoval (p : Nat) (s : State) : Host.Outcome State Fault Refusal :=
  let m := s.mag p
  if m.inserted.isNone then .next s
  else match m.stage with
  | .settling _ => .next (s.setMag p { m with stage := .empty, inserted := none, media := [] })
  | _ =>
    let s := s.letGo p msAbsent stMagazineAbsent
    .next ((s.setMag p { s.mag p with inserted := none, media := [], refclk := false, perst := true }).bndBit BND.BND_STAT_PRESENT p false)

/-- MAG_LINK_LOSS: the link has left L0 and has not returned within 100 µs. The magazine is treated as removed, and its port, whose presence stands, has
failed (R250, R275). -/
def execMagLinkLoss (p : Nat) (s : State) : Host.Outcome State Fault Refusal :=
  match (s.mag p).stage with
  | .empty | .settling _ | .powering _ | .linking _ _ | .pulsing _ => .next s
  | _ => .next (s.letGo p msFailed stMagazineAbsent)

/-- A port is taken down for sleep (R499 step 3): Flush, MGn_PERST_N asserted, ABSENT. Its magazine stays in it. -/
def State.magSleep (s : State) (p : Nat) : State :=
  let s := s.letGo p msAbsent stMagazineAbsent
  (s.setMag p { s.mag p with refclk := false, perst := true }).bndBit BND.BND_STAT_PRESENT p false

/-- A port whose magazine is still in it is brought up again from step 3 (R495, R502). -/
def State.magAgain (s : State) (p : Nat) : State :=
  if (s.mag p).inserted.isSome then
    ((s.setMag p { s.mag p with stage := .linking s.ticks false, perst := false, refclk := true }).bndBit BND.BND_STAT_PRESENT p true).setMagState p msStarting
  else s

end Sys2Proof.Machine
end

