-- ==== Sys2Proof/Machine/Reset.lean ====
section
/-! DEFINITION. Reset sources and release, host reset commands, unit resets and power domains (R486 to R497). -/
namespace Sys2Proof.Machine

/-! ### Sources (R486 to R488, R490, R492, R535) -/

/-- Pads driven safe by PDA (R492). -/
def State.safePads (s : State) : State := { s with power := { s.power with padsSafe := true } }

/-- Everything that VDD_AON feeds is lost. Fuses, host memory and the magazines in the ports stay. -/
def State.unpowered (s : State) (aon : Bool) : State :=
  let fresh := { State.reset with
    big := s.big, host := s.host, pending := s.pending, free := s.free, ticks := s.ticks, bnd := s.bnd.afterReset s.ticks,
    keeper := { Keeper.init with blown := s.keeper.blown, vfuse := s.keeper.vfuse },
    power := { Power.init with aon, refclk := s.power.refclk }, dater := { Dater.init with refclk := s.dater.refclk },
    pads := { Pads.init with cages := s.pads.cages }, levels := gateLines s.big }
  let fresh := fresh.put RST.RST_STAT_REFCLK_OK (if s.power.refclk then 1 else 0)
  (fresh.put DAT.DAT_STAT_REFCLK_OK (if s.dater.refclk then 1 else 0)).put FUS.FUS_STAT_VFUSE_OK (if s.keeper.vfuse then 1 else 0)

/-- POWER_ON: VDD_AON enters its range. PDA is cleared, LAST_CAUSE 0x00, FAILED_STARTS 0, and the pads take their safe states. -/
def execPowerOn (s : State) : Host.Outcome State Fault Refusal :=
  .next (if s.power.aon then s else s.unpowered true)

/-- POWER_DOWN: VDD_AON leaves its range. THERM_N is released, and no pin is driven. -/
def execPowerDown (s : State) : Host.Outcome State Fault Refusal := .next (s.unpowered false)

/-- SUPPLY_FAULT: another monitored supply leaves its window, or VR_PG falls. -/
def execSupplyFault (s : State) : Host.Outcome State Fault Refusal :=
  if s.power.aon then
    let s := { s with power := { s.power with suppliesOk := false } }.safePads
    let s := s.requestReset 2 0x07 true
    .next { s with power := { s.power with suppliesOk := false } }
  else .next s

/-- A low pulse of a filtered pin is taken: never below 100 ns, always from 1 µs on, and in between as it may be (R486). -/
def State.pulseTaken (s : State) (ns : Nat) : State × Bool :=
  if ns < 100 then (s, false) else if 1000 ≤ ns then (s, true) else (s.draw.2, s.draw.1 % 2 == 1)

/-- SYS_RESET_N has been low for some nanoseconds. -/
def execSysResetN (ns : Nat) (s : State) : Host.Outcome State Fault Refusal :=
  let (s, taken) := s.pulseTaken ns
  if taken then
    let s := s.safePads.requestReset 3 0x02 true
    .next { s with power := { s.power with sysResetLow := true } }
  else .next s

/-- PERST_N has been low for some nanoseconds. In Vault it is no reset while PERST_IN_VAULT is 1 (R501). -/
def execPerstN (ns : Nat) (s : State) : Host.Outcome State Fault Refusal :=
  let (s, taken) := s.pulseTaken ns
  if taken then
    let s := if s.pwState = pwVault ∧ s.on RST.RST_CFG_PERST_IN_VAULT = true then s else s.safePads.requestReset 4 0x01 true
    .next { s with power := { s.power with perstLow := true } }
  else .next s

/-- SYS_REFCLK_LOST: the PDA monitor sees the clock stop (R492). -/
def execSysRefclkLost (s : State) : Host.Outcome State Fault Refusal :=
  let s := { s with power := { s.power with refclk := false } }
  .next ((s.put RST.RST_STAT_REFCLK_OK 0).put RST.RST_STAT_REFCLK_LOST 1)

/-- The request of the lowest rank among those latched, and whether any of them is cold (R486, R488). -/
def resolveRequests : List (Nat × Nat × Bool) → Option (Nat × Nat × Bool)
  | [] => none
  | (r, c, w) :: l =>
    match resolveRequests l with
    | none => some (r, c, w)
    | some (r', c', w') => some (if r ≤ r' then (r, c, w || w') else (r', c', w || w'))

/-- SYS_REFCLK_RETURN: the clock runs, and requests latched meanwhile are taken together. -/
def execSysRefclkReturn (s : State) : Host.Outcome State Fault Refusal :=
  let l := s.power.latched
  let s := ({ s with power := { s.power with refclk := true, latched := [] } }).put RST.RST_STAT_REFCLK_OK 1
  match resolveRequests l with
  | some (r, c, cold) => .next (s.requestReset r c cold)
  | none => .next s

/-! ### Release (R490, R491, R477, R478, R17 rule 6, R516) -/

/-- A pair that carries no hart, is fit and is not being reset, is the spare pair (R20, R409, R495). -/
def State.sparePair (s : State) : Option Nat :=
  (List.range 5).find? fun p => !s.pairsInUse.contains p && !s.faulty (0xC0 + 2 * p) && !s.faulty (0xC1 + 2 * p) &&
    (match s.power.unit with | some (u, _, _) => !(decide (0xC0 ≤ u ∧ u ≤ 0xC9) && (u - 0xC0) / 2 == p) | none => true)
def State.showSparePair (s : State) : State :=
  let v := if s.sparePair.isSome then 1 else 0
  (s.put ICU.ICU_STAT_SPARE_LEFT v).put RGS.SPARE_STAT_PAIR v

/-- A start begins (R477): its deadline counts from here, and in recovery mode there is none (R478). -/
def State.beginStart (s : State) : State :=
  let f := s.get KPR.BOOT_STAT_FAILED_STARTS
  let s := { s with keeper := { s.keeper with startTick := s.ticks, atStart := f, opened := false, launched := none, aliveTick := none, load := none, req := none } }
  if f = 3 then ((s.alertRise 2).put KPR.BOOT_STAT_RECOVERY 1).put HIF.HIF_STAT_RECOVERY 1 else s

/-- Deny fuses in force: PMAPc is the baseline ANDed with their inverse (R359). -/
def State.applyDeny (s : State) : State :=
  (List.range 8).foldl (fun s c =>
    let b := (resetWord s.big (MMU.PMAP c)).toNat
    s.wr (MMU.PMAP c) (BitVec.ofNat 32 (b - Nat.land b (s.rd (FUS.DENY c)).toNat))) s

/-- The pace from a warm reset's release on (R17 rule 6). -/
def State.warmPace (s : State) : State :=
  let v := if s.power.pace = 2 then 2 else 0
  let s := ((s.put TOP.PACE_STAT_CURRENT v).put TOP.RATE_FACTOR_FACTOR (paceFactor v)).put TOP.PACE_STAT_RAMPING 1
  if s.cons.rail = s.get CNS.VOLTAGE_TARGET_MV then s.rampDone else s

/-- RESET_RELEASE: supplies, VR_PG and both pins allow it, and SYS_REFCLK runs. -/
def execResetRelease (s : State) : Host.Outcome State Fault Refusal :=
  if s.power.held ∧ s.power.refclk = true ∧ s.power.aon = true then
    let cold := s.power.cold
    let s := { s with
      power := { s.power with held := false, suppliesOk := true, sysResetLow := false, perstLow := false, padsSafe := false }, hostFn := { s.hostFn with link := 0 } }
    let s := (List.range 86).foldl (fun (s : State) i => if s.engineEnabled i then s else s.put (engState i) stAbsent) s
    let s := s.showSparePair.beginStart
    if cold then .next s
    else if s.on FUS.FUS_STAT_FUSE_FAIL then .next (s.safePads.put KPR.BOOT_STAT_STAGE 7)
    else if s.on FUS.FUS_STAT_LOADED then .next ((s.put KPR.BOOT_STAT_STAGE 1).applyDeny.consResume.warmPace)
    else .next (s.put FUS.FUS_STAT_ATTEMPTS 0)
  else .next s

/-! ### Host reset commands (R489, R504) -/

/-- A discarded sequence. -/
def State.keyErr (s : State) : State := ({ s with power := { s.power with key := none } }).bump RST.RST_ERR_KEY_ERR
/-- The key's 1 ms has passed. -/
def State.keyStale (s : State) : Bool := match s.power.key with | some t => decide (1000 < s.usSince t) | none => false

/-- RST_KEY. -/
def execRstKey (v : Nat) (s : State) : Host.Outcome State Fault Refusal :=
  if s.bar0Up = false then .next s else
  let first : State → State := fun s =>
    if v % 2 ^ 32 = 0xA5C3 then { s with power := { s.power with key := some s.ticks } } else s
  if s.power.key.isNone then .next (first s)
  else if s.keyStale then .next (first s.keyErr)
  else .next s.keyErr

/-- A write of RST_CMD: whether it completes a sequence. -/
def State.rstCmd (s : State) (key2 : Nat) : State × Bool :=
  if s.bar0Up = false then (s, false)
  else if s.power.key.isNone ∨ s.keyStale = true ∨ key2 ≠ 0x3C5A then (s.keyErr, false)
  else ({ s with power := { s.power with key := none } }, true)

/-- COLD_RESET_COMMAND: RST_CMD with SCOPE 0. -/
def execColdResetCommand (key2 : Nat) (s : State) : Host.Outcome State Fault Refusal :=
  let (s, ok) := s.rstCmd key2
  .next (if ok then s.requestReset 6 0x05 true else s)

/-- WARM_RESET_COMMAND: RST_CMD with SCOPE 1. -/
def execWarmResetCommand (key2 : Nat) (s : State) : Host.Outcome State Fault Refusal :=
  let (s, ok) := s.rstCmd key2
  .next (if ok then s.requestReset 6 0x05 false else s)

/-! ### Unit reset (R456, R495) -/

def isMagUnit (u : Nat) : Bool := u == 0x121 || u == 0x122
def isNetUnit (u : Nat) : Bool := u == 0x130 || u == 0x131
def isSnUnit (u : Nat) : Bool := decide (0x140 ≤ u ∧ u ≤ 0x145)
def isCurator (u : Nat) : Bool := decide (0xC0 ≤ u ∧ u ≤ 0xC9)

/-- The unit holds no routine, no open or claimed item, no folio that it alone owns, no fault record and no access in flight (R456). -/
def State.unitIdle (s : State) (u : Nat) : Bool :=
  (match engineOf u with
   | some i => (s.engine i).work.isNone && (s.engine i).writes == 0 && !((s.mmu.queue ++ s.mmu.outside).any fun r => r.who == .engine i)
   | none => true) &&
  !(s.queues.any fun q => (q.2.claimed.any fun c => c.1 == u) || (q.2.items.any fun it => it.producer == u && !it.complete)) &&
  !(s.pools.any fun p => p.2.lent.any fun l => l.2.owner == u && l.2.count == 1) &&
  (if isMagUnit u then (s.mag (u - 0x121)).cmds.isEmpty && (s.mag (u - 0x121)).op.isNone
   else if isNetUnit u then (s.port (u - 0x130)).busy.isNone && ((s.port (u - 0x130)).classes.all fun c => c.2.queue.isEmpty)
   else if isSnUnit u then ((s.portStreams (u - 0x140)).all fun e => e.2.openFrame.isNone)
   else true)

/-- The command is accepted for the unit (R495). -/
def State.unitAccepted (s : State) (u : Nat) : Bool :=
  !s.on RST.RST_UNIT_RUNNING && s.unitEnabled u && s.powered u &&
  ((engineOf u).isSome || isMagUnit u || isNetUnit u || isSnUnit u || (isCurator u && !s.pairsInUse.contains ((u - 0xC0) / 2)))

/-- What the unit was doing ends: open items are truncated, claimed ones given back, its work lost for an Open stream and else left to be
dispatched again (R394, R439, R456). -/
def State.stopUnit (s : State) (u : Nat) : State :=
  let s := s.fenceStacks u
  match engineOf u with
  | some i =>
    let s := s.dropFaults (.engine i)
    let s := if s.routineHeld i then s.abandon i else s
    let s := (s.setEngine i { s.engine i with writes := 0, drain := none, utlb := [] }).put (engState i) stOff
    (match (s.engine i).work with
     | some (n, p, j, _) =>
       if (s.stream n).prot = 2 then (s.setEngine i { s.engine i with work := none }).loseWork u n p j
       else s.onPic n p fun q => q.setUnit j { q.unit j with redoTick := (q.unit j).redoTick <|> some s.ticks }
     | none => s)
  | none =>
    if isMagUnit u then
      (match (s.mag (u - 0x121)).stage with
       | .empty | .settling _ => s
       | _ => s.letGo (u - 0x121) msStarting stMagazineAbsent)
    else if isNetUnit u then s.netFall (u - 0x130)
    else if isSnUnit u then (s.sensorLoss (u - 0x140) 15 true)
    else s.showSparePair

/-- UNIT_RESET: RST_CMD with SCOPE 2. -/
def execUnitReset (key2 u : Nat) (s : State) : Host.Outcome State Fault Refusal :=
  let (s, ok) := s.rstCmd key2
  if ok = false then .next s
  else if s.unitAccepted u = false then .next ((s.put RST.RST_UNIT_REFUSED 1).put RST.RST_UNIT_UNIT u)
  else
    let busy := !s.unitIdle u
    let s := ({ s with power := { s.power with unit := some (u, s.ticks, busy) } }).put RST.RST_UNIT_RUNNING 1
    let s := if busy then s.report u 0x50 none 0 else s
    .next (if s.power.held then s else s.stopUnit u)

/-- A fenced carrel or scribe returns to service, as a spare or in the capacity (R222). -/
def State.returnEngine (s : State) (i : Nat) : State :=
  let need := if isCarrel i then 4 else 2
  if s.sparesHeld && decide ((s.sparesOf i).length < need) then (s.put (engSpare i) 1).showSpares
  else { s with gone := if isCarrel i then (s.gone.1 - 1, s.gone.2) else (s.gone.1, s.gone.2 - 1) }.showLedger

/-- UNIT_RESET_DONE: the unit is out of its fault state, its store reloaded, its port brought up again. -/
def execUnitResetDone (s : State) : Host.Outcome State Fault Refusal :=
  match s.power.unit with
  | none => .next s
  | some (u, _, busy) =>
    let s := { s with power := { s.power with unit := none } }
    let s := ((s.put RST.RST_UNIT_RUNNING 0).put RST.RST_UNIT_DONE 1).put RST.RST_UNIT_UNIT u
    let s := if busy then s.put RST.RST_UNIT_BUSY_AT_RESET 1 else s
    let s := s.putBit (RGS.FAULT_MAP 0) u false
    match engineOf u with
    | some i =>
      let fenced := s.on (MMU.GRANT_FENCED i)
      let s := (s.put (MMU.GRANT_FENCED i) 0).loadStore i
      let s := s.put (engState i) (if s.powered u then stIdle else stOff)
      .next (if fenced then s.returnEngine i else s).topSpares
    | none =>
      if isMagUnit u then .next (s.magAgain (u - 0x121))
      else if isCurator u then .next ((s.putBit (RGS.FAULT_MAP 0) (if u % 2 = 0 then u + 1 else u - 1) false).showSparePair)
      else .next s

/-! ### Power domains (R21, R22, R496, R497) -/

/-- Units of a switched domain (R18). -/
def domainUnits (d : Nat) : List Nat :=
  if d < 68 then [d] else if d < 86 then [0x80 + (d - 68)] else if d < 91 then [0xC0 + 2 * (d - 86), 0xC1 + 2 * (d - 86)]
  else if d = 105 ∨ d = 106 then [0x121 + (d - 105)] else if d = 107 ∨ d = 108 then [0x130 + (d - 107)]
  else if 109 ≤ d ∧ d ≤ 111 then [0x140 + 2 * (d - 109), 0x141 + 2 * (d - 109)] else []

/-- A domain that the grade holds off (R22). -/
def State.heldOff (s : State) (d : Nat) : Bool :=
  !s.big && (decide (36 ≤ d ∧ d ≤ 67) || decide (78 ≤ d ∧ d ≤ 85) || d == 102 || d == 103 || d == 108)

/-- A unit of the domain has a spare role, or would carry a hart. -/
def State.domainSpare (s : State) (d : Nat) : Bool :=
  (decide (d < 86) && s.on (engSpare d)) || (decide (86 ≤ d ∧ d < 91) && s.sparePair == some (d - 86))
def State.domainIdle (s : State) (d : Nat) : Bool :=
  (domainUnits d).all (fun u => s.unitIdle u && !(isNetUnit u && !((List.range 16).all fun f => (s.flow (u - 0x130) f).isNone)) &&
    !(isSnUnit u && !(s.portStreams (u - 0x140)).isEmpty)) &&
  !(decide (86 ≤ d ∧ d < 91) && s.pairsInUse.contains (d - 86))

/-- One bit of PD_STAT. -/
def State.setDomain (s : State) (d : Nat) (v : Bool) : State :=
  if s.bitOn PWR.PD_STAT0 d = v then s else (s.putBit PWR.PD_STAT0 d v).bump PWR.PD_SWITCHES_COUNT

/-- A domain is isolated and its state is lost (R496). -/
def State.domainOff (s : State) (d : Nat) : State :=
  let s := if d < 86 then (s.setEngine d Engine.init).put (engState d) (if s.engineEnabled d then stOff else stAbsent)
    else if d = 105 ∨ d = 106 then (match (s.mag (d - 105)).stage with | .empty | .settling _ => s | _ => s.magSleep (d - 105))
    else if d = 107 ∨ d = 108 then (s.netFall (d - 107)).put (NET.PORT_STAT_TXDIS (d - 107)) 1
    else if 109 ≤ d ∧ d ≤ 111 then ((s.put (ACC.PORT_STAT_ULPS (2 * (d - 109))) 0).portLp (2 * (d - 109))).put (ACC.PORT_STAT_ULPS (2 * (d - 109) + 1)) 0 |>.portLp (2 * (d - 109) + 1)
    else s
  s.setDomain d false

/-- A domain is on, its unit reset; a control store is loaded, and the unit IDLE (R431, R496), or a spare where one is wanting (R27). -/
def State.domainUp (s : State) (d : Nat) : State :=
  let s := s.setDomain d true
  if d < 86 then ((s.loadStore d).put (engState d) (if s.on (MMU.GRANT_FENCED d) then stFenced else stIdle)).topSpares
  else if d = 107 ∨ d = 108 then s.put (NET.PORT_STAT_TXDIS (d - 107)) (1 - s.get (NET.PORT_CFG_ENABLE (d - 107)))
  else s

/-- A refused request (R496). -/
def State.refuseDomain (s : State) (d reason : Nat) : State :=
  ((s.put PWR.PD_ERR_REFUSED 1).put PWR.PD_ERR_REASON reason).put PWR.PD_ERR_DOMAIN d

/-- One bit of a PD_REQ write. -/
def State.requestDomain (s : State) (d : Nat) (v : Bool) : State :=
  if 112 ≤ d ∨ s.bitOn PWR.PD_REQ0 d = v then s
  else if 91 ≤ d ∧ d ≤ 104 then s.refuseDomain d 3
  else if s.heldOff d ∨ (v = true ∧ s.on KPR.BOOT_STAT_RECOVERY = true) then s.refuseDomain d 2
  else if v then s.putBit PWR.PD_REQ0 d true
  else if s.domainSpare d then s.refuseDomain d 1
  else if s.domainIdle d = false then s.refuseDomain d 0
  else (s.putBit PWR.PD_REQ0 d false).domainOff d

/-- PD_REQ_WRITE: firmware writes PD_REQk; the host's writes are ignored. -/
def execPdReqWrite (byHost : Bool) (k v : Nat) (s : State) : Host.Outcome State Fault Refusal :=
  if byHost ∨ 3 < k then .next s
  else .next ((List.range 32).foldl (fun s i => if s.power.held then s else s.requestDomain (32 * k + i) (bitAt v i)) s)

/-- Domains granted on that are not on yet, in ascending order; at most 8 ramp up at one time. -/
def State.ramping (s : State) : List Nat :=
  ((List.range 112).filter fun d => s.bitOn PWR.PD_REQ0 d && !s.bitOn PWR.PD_STAT0 d).take 8

/-- DOMAIN_ON_DONE. -/
def execDomainOnDone (d : Nat) (s : State) : Host.Outcome State Fault Refusal :=
  .next (if s.ramping.contains d && s.pwState == pwActive then s.domainUp d else s)

end Sys2Proof.Machine
end

