-- ==== Sys2Proof/Machine/Sleep.lean ====
section
/-! DEFINITION. Standby and Vault: entry, its cancellation, and the wake (R498 to R502). -/
namespace Sys2Proof.Machine

/-! ### Requests (R498) -/

/-- The result a request is refused with. -/
def State.sleepRefusal (s : State) : Option Nat :=
  if !s.openStreams.isEmpty then some 1
  else if (List.range 32).any s.dmaActive || !s.mmu.queue.isEmpty || !s.mmu.outside.isEmpty then some 2
  else if (List.range 2).any fun p => (s.mag p).op.isSome then some 2
  else if s.get PWR.WAKE_EN_SOURCES = 0 then some 3
  else none

/-- The words of PD_STAT. -/
def State.domainWords (s : State) : List Nat := (List.range 4).map fun k => (s.rd (PWR.PD_STAT0 + 4 * k)).toNat

/-- A write of SLEEP_CTL with a request. It is ignored while a request is in hand, or the device is not Active. -/
def State.sleepRequest (s : State) (req key : Nat) : State :=
  if key % 65536 ≠ 0x51EE ∨ s.power.held = true ∨ s.power.sleep.isSome = true ∨ s.power.unwind.isSome = true ∨ s.pwState ≠ pwActive then s
  else
    let s := s.put PWR.WAKE_PEND_SOURCES 0
    match s.sleepRefusal with
    | some r => s.sleepEnd req r 0
    | none => { s with power := { s.power with sleep := some (req, 1, s.ticks), domains := s.domainWords } }.put PWR.PWR_STAT_STATE pwEntering

/-- SLEEP_STANDBY. -/
def execSleepStandby (key : Nat) (s : State) : Host.Outcome State Fault Refusal := .next (s.sleepRequest 1 key)
/-- SLEEP_VAULT. -/
def execSleepVault (key : Nat) (s : State) : Host.Outcome State Fault Refusal := .next (s.sleepRequest 2 key)

/-! ### Entry (R499, R500, R494) -/

/-- Domains of a range that are on are switched off. -/
def State.domainsOff (s : State) (lo n : Nat) : State :=
  (rangeFrom lo n).foldl (fun (s : State) d => if s.bitOn PWR.PD_STAT0 d then s.domainOff d else s) s
/-- The domain was on when sleep was accepted. -/
def State.wasOn (s : State) (d : Nat) : Bool := bitAt (s.power.domains.getD (d / 32) 0) (d % 32)
/-- Domains of a range that were on are switched on again. -/
def State.domainsBack (s : State) (lo n : Nat) : State :=
  (rangeFrom lo n).foldl (fun (s : State) d => if s.wasOn d then s.domainUp d else s) s

/-- Step 3: magazines flushed and held in reset, Ethernet and sensor ports off. -/
def State.portsOff (s : State) : State :=
  let s := (List.range 2).foldl (fun (s : State) p => if s.bitOn PWR.PD_STAT0 (105 + p) then s else
    match (s.mag p).stage with | .empty | .settling _ => s | _ => s.magSleep p) s
  (s.domainsOff 105 7).showHold

/-- A hart ends what it is doing, takes a checkpoint in M-mode and halts; its pair goes off, and what its core and caches hold is lost (R410, R499). -/
def State.haltHart (s : State) (h : Nat) (ops : List CoreOp) : State :=
  if (s.hart h).stopped then s
  else
    let s := s.coreRun h ops
    if s.power.held then s
    else
      let s := s.checkpoint h
      s.setHart h { s.hart h with halted := true, user := false, regs := CoreRegs.init, dcache := [], icache := [] }

/-- Step 4: every hart takes a checkpoint and halts, and the pairs go off. -/
def State.curatorsOff (s : State) (ops : List (List CoreOp)) : State :=
  ((List.range 4).foldl (fun (s : State) h => s.haltHart h (ops.getD h [])) s).domainsOff 86 5

/-- Step 5: queued writes land, DRAM centres that were moving stay where they are (R518), and every channel enters self-refresh. -/
def State.selfRefresh (s : State) : State :=
  let s := (List.range s.chanCount).foldl (fun (s : State) c =>
    let s := (s.chan c).writeQ.foldl (fun (s : State) r => s.landWrite c r) s
    (s.setChan c { s.chan c with readQ := [], openRows := [], refresh := 0, neighbours := [], rfm := [], acts := [] }).put (DRC.CH_STAT_SELF_REFRESH c) 1) s
  ({ s with cons := { s.cons with centres := [] } }.put DRC.DRC_STAT_READY 0).showRamp

/-- Registers that Vault keeps: those of PDA, the keeper's, the DRAM controllers' with their delay centres, and the microcode revisions. -/
def vaultKeeps (off : Nat) : Bool :=
  warmKeeps off || off / 65536 == 0x1 || off == PWR.PWR_STAT || off / 65536 == 0xE || off == CAR.UCODE_REV || off == SCB.UCODE_REV

/-- Step 7: the common core, the keeper and the Stacks are switched off. -/
def State.vaultWipe (s : State) : State :=
  let s : State := { State.reset with
    big := s.big, regs := Tab.keep vaultKeeps s.regs, dram := s.dram, damage := s.damage, host := s.host, pending := s.pending,
    free := s.free, ticks := s.ticks, time := s.time, answer := s.answer, dater := s.dater, bnd := s.bnd,
    rgs := { Registrar.init with head := s.rgs.head, seq := s.rgs.seq }, harts := s.harts,
    copyCar := s.copyCar, copyScb := s.copyScb, power := s.power, keeper := s.keeper, cons := { s.cons with started := false }, pads := s.pads, levels := gateLines s.big,
    cat := { Catalogue.init with bundle := s.cat.bundle, applets := s.cat.applets },
    hostFn := { HostFn.init with link := 3, pmes := s.hostFn.pmes, messages := s.hostFn.messages } }
  let s := (List.range 4).foldl (fun (s : State) h => s.setHart h { s.hart h with claims := [] }) s
  let s := (List.range 86).foldl (fun (s : State) i => if s.engineEnabled i then s else s.put (engState i) stAbsent) s
  let s := (rangeFrom 91 9).foldl (fun (s : State) d => s.putBit PWR.PD_STAT0 d false) s
  s.putBit PWR.PD_STAT0 104 false

/-- SLEEP_STEP_DONE: the next step of the entry is done. Steps 5 and 7 first test for a wake; step 6 is PME_TURN_OFF. `ops`: what the program of each
hart has done since its last checkpoint. -/
def execSleepStepDone (ops : List (List CoreOp)) (s : State) : Host.Outcome State Fault Refusal :=
  match s.power.sleep with
  | none => .next s
  | some (req, k, _) =>
    let at' : State → Nat → State := fun s k => { s with power := { s.power with sleep := some (req, k, s.ticks) } }
    if k = 1 then .next (at' (s.domainsOff 0 86) 2)
    else if k = 2 then .next (at' s.portsOff 3)
    else if k = 3 then
      let s := s.curatorsOff ops
      .next (if s.power.held then s else at' s 4)
    else if k = 4 then
      if s.wakeSources.isEmpty = false then .next (s.unwind s.wakeSources.head?)
      else
        let s := s.selfRefresh.put PWR.PWR_STAT_STATE pwStandby
        if req = 1 then .next { s with power := { s.power with sleep := none }, hostFn := { s.hostFn with link := 2 } }
        else .next (at' s 5)
    else if k = 6 then
      if s.wakeSources.isEmpty = false then .next (s.unwind s.wakeSources.head?)
      else
        let s := s.vaultWipe
        .next ({ s with power := { s.power with sleep := none } }.put PWR.PWR_STAT_STATE pwVault)
    else .next s

/-- PME_TURN_OFF: answered, and the link enters L2 (R499 step 6). -/
def execPmeTurnOff (s : State) : Host.Outcome State Fault Refusal :=
  match s.power.sleep with
  | some (2, 5, _) => .next { s with power := { s.power with sleep := some (2, 6, s.ticks), linkL2 := true }, hostFn := { s.hostFn with link := 3 } }
  | _ => .next s

/-- L2_TIMEOUT: the link has not reached L2 within 1 s of step 5. -/
def execL2Timeout (s : State) : Host.Outcome State Fault Refusal :=
  match s.power.sleep with
  | some (2, 5, t) => .next (if s.usSince t < 1000000 then s else s.unwind none)
  | _ => .next s

/-! ### Wake (R500 to R502) -/

/-- The link trains as PERST_N is high, and WAKE_N is released at link-up. -/
def State.linkBack (s : State) : State :=
  { s with power := { s.power with linkL2 := false, wakeN := false }, hostFn := { s.hostFn with link := 0 } }
def State.tryLink (s : State) : State := if s.power.linkL2 ∧ s.power.perstLow = false then s.linkBack else s

/-- PERST_N is released while the link waits for it, the endpoint being on. -/
def State.perstUp (s : State) : State :=
  let s := { s with power := { s.power with perstLow := false } }
  if s.pwState = pwVault then s
  else if s.power.linkL2 && s.bitOn PWR.PD_STAT0 104 then s.linkBack
  else s

/-- WAKE_EVENT: an event of a wake source (R501). LINK counts in Standby, during an entry, and in Vault as PERST_N's release while
PERST_IN_VAULT is 1. -/
def execWakeEvent (src : Nat) (s : State) : Host.Outcome State Fault Refusal :=
  if s.power.held = true ∨ 6 ≤ src then .next s
  else if src = 0 then
    if s.pwState = pwVault then .next (if s.on RST.RST_CFG_PERST_IN_VAULT then s.perstUp.wakeEvent 0 else s)
    else if s.power.perstLow then .next s.perstUp
    else if s.pwState = pwStandby ∨ s.power.sleep.isSome = true then .next (s.wakeEvent 0)
    else .next s
  else .next (s.wakeEvent src)

/-- Harts resume from their save areas; after Vault their compare registers come back with them (R410). -/
def State.hartsBack (s : State) : State :=
  (List.range 4).foldl (fun (s : State) h =>
    if (s.hart h).halted then (s.setHart h { s.hart h with halted := false }).loadSave h else s) s
def State.curatorsOn (s : State) : State := (s.domainsBack 86 5).hartsBack.showSparePair

/-- Ports on, magazines brought up from step 3 of R251. -/
def State.portsOn (s : State) : State :=
  let s := s.domainsBack 105 7
  (List.range 2).foldl (fun (s : State) p => if s.bitOn PWR.PD_STAT0 (105 + p) && (s.mag p).stage == .empty then s.magAgain p else s) s

/-- The unwinding is complete: Active again, with its result. -/
def State.unwound (s : State) (cause : Option Nat) (req : Nat) : State :=
  let s := ({ s with power := { s.power with unwind := none } }.put PWR.PWR_STAT_STATE pwActive).sleepEnd req (if cause.isSome then 4 else 5) (cause.getD 0)
  s.keptDoorbells

/-- One step of an entry is undone, and the last of them completes the unwinding. -/
def State.undo (s : State) (cause : Option Nat) (req k : Nat) : State :=
  let next : State → State := fun s => { s with power := { s.power with unwind := some (cause, req, k - 1) } }
  if k = 6 then next s.tryLink
  else if k = 5 then (if s.on DRC.DRC_STAT_READY then next s else s)
  else if k = 4 then next s.curatorsOn
  else if k = 3 then next s.portsOn
  else if k = 2 then (s.domainsBack 0 86).unwound cause req
  else s.unwound cause req

/-- Step 2 of a wake from Vault: the common core, the keeper and the Stacks are on, and the Conservator has the plan held in PDA. -/
def State.coreBack (s : State) : State :=
  let s := (rangeFrom 91 9).foldl (fun (s : State) d => s.putBit PWR.PD_STAT0 d true) s
  s.consResume

/-- The bytes of SECURE_FW that were measured as firmware was launched (R482). -/
def State.secureBytes (s : State) : State × List Byte :=
  s.keeper.plains.foldl (fun (q : State × List Byte) p => let r := q.1.readMem p.1 p.2; (r.1, q.2 ++ r.2.1)) (s, [])

/-- A wake that becomes a start (R482): the firmware's state is gone, and the window is to be zeroed and opened. -/
def State.wakeToStart (s : State) (src : Nat) : State :=
  let s := { s with power := { s.power with wake := none, launch := none }, harts := [], copyCar := [], copyScb := [],
                    keeper := { s.keeper with plains := [], containers := [], advance := none }, cat := Catalogue.init }
  let s := ((s.putBit PWR.PD_STAT0 104 true).put PWR.PWR_STAT_STATE pwActive).sleepEnd 2 0 src
  let f := s.get KPR.BOOT_STAT_FAILED_STARTS
  let s := { s with regs := Tab.keep (fun off => off / 65536 != 0x1) s.regs }
  let s := ((s.put KPR.BOOT_STAT_FAILED_STARTS f).put KPR.BOOT_STAT_STAGE 2).put KPR.BOOT_STAT_AGEING_ADOPTED 1
  s.tryLink.beginStart

/-- The wake is complete (R502 step 7). -/
def State.woken (s : State) (src : Nat) (vault : Bool) (t : Nat) : State :=
  let s := { s with power := { s.power with wake := none }, hostFn := { s.hostFn with link := if s.hostFn.link = 2 then 0 else s.hostFn.link } }
  let s := (((s.put HIF.HIF_STAT_READY 1).put PWR.PWR_STAT_STATE pwActive).put PWR.PWR_STAT_WAKE_TIME (min (s.usSince t / 10) 65535)).sleepEnd
    (if vault then 2 else 1) 0 src
  if vault then s else s.keptDoorbells

/-- The next step of a wake. -/
def State.wakeStep (s : State) (src : Nat) (vault : Bool) (k t : Nat) : State :=
  let dest : State → Nat → State := fun s j => { s with power := { s.power with wake := some (src, vault, j, t) } }
  if k = 1 then (if vault then dest s.coreBack 2 else if s.on DRC.DRC_STAT_READY then dest s 3 else s)
  else if k = 2 then (if s.on DRC.DRC_STAT_READY then dest s 3 else s)
  else if k = 3 ∧ vault = true then
    let (s, l) := s.secureBytes
    if s.power.held then s
    else if s.power.launch = some (sha384 l) then dest s 4 else s.wakeToStart src
  else if k = 3 ∨ k = 4 then dest (s.curatorsOn.domainsBack 0 86) 5
  else if k = 5 then
    let s := s.portsOn
    dest (if vault then (s.putBit PWR.PD_STAT0 104 true).tryLink else s) 6
  else s.woken src vault t

/-- WAKE_STEP_DONE: the next step of an unwinding or of a wake is done. -/
def execWakeStepDone (s : State) : Host.Outcome State Fault Refusal :=
  match s.power.unwind, s.power.wake with
  | some (cause, req, k), _ => .next (s.undo cause req k)
  | none, some (src, vault, k, t) => .next (s.wakeStep src vault k t)
  | none, none => .next s

end Sys2Proof.Machine
end

