-- ==== Sys2Proof/Machine/Keeper.lean ====
section
/-! DEFINITION. The keeper: fuses, the download window, the mailbox, firmware loading, starts, attestation (R447, R466 to R483, R536). -/
namespace Sys2Proof.Machine

/-! ### Fuses (R466 to R468, R473, R485) -/

/-- Words stored in consecutive registers. -/
def State.putWords (s : State) (base : Nat) (l : List Nat) : State :=
  l.zipIdx.foldl (fun (s : State) q => s.wr (base + 4 * q.2) (BitVec.ofNat 32 q.1)) s
/-- Words of consecutive registers, as bytes, first byte in [31:24]. -/
def State.regBytes (s : State) (base n : Nat) : List Byte := (List.range n).flatMap fun i => beBytes 4 (s.rd (base + 4 * i)).toNat

/-- Set bits of a number of `n` bits. -/
def popCount (n v : Nat) : Nat := ((List.range n).filter (bitAt v)).length

/-- The counter's registers follow its logical bits. -/
def State.showCounter (s : State) : State :=
  let c := s.keeper.blown
  (s.putPair FUS.COUNTER_LO FUS.COUNTER_HI c).wr FUS.COUNTER_VALUE (BitVec.ofNat 32 (popCount 64 c))
def State.counter (s : State) : Nat := popCount 64 s.keeper.blown

/-- The lowest clear bits of 64 are set until `svn` are set (R473). -/
def raiseBits (svn : Nat) : Nat → Nat → Nat
  | 0, v => v
  | n + 1, v => if popCount 64 v < svn then raiseBits svn n (match (List.range 64).find? fun i => !bitAt v i with | some i => v + 2 ^ i | none => v) else v

/-- The counter is raised to the CORE's SVN while VDD_FUSE allows it, else the raise is pending (R473). -/
def State.raiseCounter (s : State) : State :=
  match s.keeper.advance with
  | none => s
  | some svn =>
    if s.counter < svn then
      if s.keeper.vfuse then
        (({ s with keeper := { s.keeper with advance := none, blown := raiseBits svn 64 s.keeper.blown } }).showCounter).put KPR.BOOT_STAT_COUNTER_PENDING 0
      else s.put KPR.BOOT_STAT_COUNTER_PENDING 1
    else { s with keeper := { s.keeper with advance := none } }.put KPR.BOOT_STAT_COUNTER_PENDING 0

/-- FUSE_LOAD_DONE: a load of the eight sections ends (R467). Three failed loads after one release enter fuse-fail. -/
def execFuseLoadDone (f : FuseLoad) (s : State) : Host.Outcome State Fault Refusal :=
  if s.power.held = true ∨ s.on FUS.FUS_STAT_LOADED = true ∨ s.on FUS.FUS_STAT_FUSE_FAIL = true then .next s
  else if f.failed % 256 ≠ 0 then
    let n := s.get FUS.FUS_STAT_ATTEMPTS + 1
    let s := (s.put FUS.FUS_STAT_ATTEMPTS n).put FUS.FUS_STAT_SECTION_FAIL f.failed
    .next (if 3 ≤ n then (((s.alertRise 1).put FUS.FUS_STAT_FUSE_FAIL 1).put KPR.BOOT_STAT_STAGE 7).safePads else s)
  else
    let s := { s with keeper := { s.keeper with blown := Nat.lor s.keeper.blown (f.counter % 2 ^ 64) } }
    let set : Nat → Bool := fun i => ((f.slots.getD (2 * i) []) ++ (f.slots.getD (2 * i + 1) [])).any (· != 0)
    let s := (s.put FUS.FUS_STAT_LOADED 1).put FUS.FUS_STAT_SLOTS ((if set 0 then 1 else 0) + (if set 1 then 2 else 0))
    let s := s.putWords (FUS.DEVICE_UID 0) (f.uid.take 4)
    let s := (s.wr FUS.DRAM_PROFILE (BitVec.ofNat 32 (f.profile % 16))).wr FUS.DEBUG (BitVec.ofNat 32 (f.debug % 2))
    let s := s.putWords (FUS.DENY 0) ((f.deny.take 8).map (· % 2 ^ 20))
    let s := (s.putWords (FUS.SLOT0_RSA_HASH 0) ((f.slots.getD 0 []).take 12)).putWords (FUS.SLOT0_SLH_HASH 0) ((f.slots.getD 1 []).take 12)
    let s := (s.putWords (FUS.SLOT1_RSA_HASH 0) ((f.slots.getD 2 []).take 12)).putWords (FUS.SLOT1_SLH_HASH 0) ((f.slots.getD 3 []).take 12)
    .next ((s.showCounter.applyDeny.put KPR.BOOT_STAT_STAGE 1).consStart f)

/-- VDD_FUSE_RAMP: VDD_FUSE enters or leaves its range. A raise of the counter that is pending goes on. -/
def execVddFuseRamp (inRange : Bool) (s : State) : Host.Outcome State Fault Refusal :=
  let s := { s with keeper := { s.keeper with vfuse := inRange } }.put FUS.FUS_STAT_VFUSE_OK (if inRange then 1 else 0)
  .next (if inRange && s.on KPR.BOOT_STAT_COUNTER_PENDING then s.raiseCounter else s)

/-! ### The window (R358, R469) -/

/-- The DOWNLOAD and SECURE_FW apertures (R358). -/
def State.downloadBase (s : State) : Nat := (s.get DRC.DRC_CFG_USABLE_MIB - 320) * 2 ^ 20
def State.secureBase (s : State) : Nat := (s.get DRC.DRC_CFG_USABLE_MIB - 256) * 2 ^ 20
def windowLen : Nat := 67092480
def requestOff : Nat := 0x03FFC000
def responseOff : Nat := 0x03FFE000

/-- The keeper is out of service (R447). -/
def State.keeperOut (s : State) : Bool := s.faulty 0xD0

/-- Zeros over a range of DRAM, in whole blocks. -/
def State.zeroRange (s : State) (a n : Nat) : State :=
  let out : Nat → Bool := fun b => !(decide (a ≤ b ∧ b < a + n))
  let s := { s with dram := Tab.keep out s.dram, damage := Tab.keep (fun b => out (32 * b)) s.damage }
  (List.range s.chanCount).foldl (fun (s : State) c => s.setChan c { s.chan c with writeQ := (s.chan c).writeQ.filter fun r => out (32 * r.block) }) s

/-- WINDOW_CLEAR_DONE. -/
def execWindowClearDone (s : State) : Host.Outcome State Fault Refusal :=
  if s.power.held = false ∧ s.get KPR.BOOT_STAT_STAGE = 2 ∧ s.on DRC.DRC_STAT_READY = true ∧ s.keeperOut = false then
    let s := s.zeroRange s.downloadBase (2 ^ 26)
    let s := { s with keeper := { s.keeper with opened := true } }
    .next ((s.put KPR.BOOT_STAT_WINDOW_OPEN 1).put KPR.BOOT_STAT_STAGE 3)
  else .next s

/-- Host writes at a BAR2 offset land: in the window while it is open, in the request region once it has been opened (R469, R470). -/
def State.windowTakes (s : State) (off n : Nat) : Bool :=
  if off + n ≤ requestOff then s.on KPR.BOOT_STAT_WINDOW_OPEN
  else decide (off + n ≤ responseOff) && s.keeper.opened && (decide (requestOff ≤ off) || s.on KPR.BOOT_STAT_WINDOW_OPEN)

/-- WINDOW_WRITE. -/
def execWindowWrite (off : Nat) (data : List Byte) (s : State) : Host.Outcome State Fault Refusal :=
  if s.power.held = true ∨ s.pwState = pwVault then .next s
  else
    let s := s.linkActivity
    if s.windowTakes off data.length then .next (s.writeMem (s.downloadBase + off) data).1
    else .next (s.bump KPR.WINDOW_DROPS_VALUE)

/-! ### The mailbox (R470, R471) -/

/-- Status codes of R471. -/
def mbOk : Nat := 0x00
def mbBadOpcode : Nat := 0x01
def mbBadLength : Nat := 0x02
def mbNotNow : Nat := 0x03
def mbBadHeader : Nat := 0x10
def mbWrongGrade : Nat := 0x11
def mbRollback : Nat := 0x12
def mbKeyMismatch : Nat := 0x13
def mbRsaFail : Nat := 0x14
def mbSlhFail : Nat := 0x15
def mbDecryptFail : Nat := 0x16
def mbBadSection : Nat := 0x17
def mbNoCore : Nat := 0x18
def mbDuplicate : Nat := 0x19
def mbTooMany : Nat := 0x1A
def mbAgeingRejected : Nat := 0x20
def mbNoIdentity : Nat := 0x21
def mbBadOffset : Nat := 0x22

/-- The request region is copied. -/
def State.mbxCopy (s : State) : State × MbxReq :=
  let h := s.readMem (requestOff + s.downloadBase) 64
  let w : Nat → Nat := fun i => leNum ((h.2.1.drop (4 * i)).take 4)
  let d := h.1.readMem (requestOff + s.downloadBase + 64) (min (w 2) 8128)
  (d.1, { op := w 0, seq := w 1, len := w 2, arg0 := w 3, data := d.2.1 })

/-- A response is written (R470). -/
def State.mbxRespond (s : State) (seq status : Nat) (data : List Byte) : State :=
  let a := responseOff + s.downloadBase
  let s := (s.writeMem a (leBytes 4 seq ++ leBytes 4 status ++ leBytes 4 data.length)).1
  let s := (s.writeMem (a + 64) data).1
  let s := ((s.put KPR.MBX_STAT_BUSY 0).put KPR.MBX_STAT_DONE 1).put KPR.MBX_STAT_SEQ seq
  let s := if s.on KPR.MBX_CTL_IRQ then s.fireVec (s.get KPR.MBX_CTL_VECTOR) else s
  s.raise 254

/-- IRQ and VECTOR of MBX_CTL are written; GO is answered beside it. -/
def State.mbxMode (s : State) (word : Nat) : State := (s.put KPR.MBX_CTL_IRQ (bits word 8 1)).put KPR.MBX_CTL_VECTOR (bits word 0 6)
/-- The keeper serves the mailbox once it has opened the window. -/
def State.mbxOpen (s : State) : Bool := s.keeper.opened && s.on DRC.DRC_STAT_READY

/-- A copied request waits to be served. -/
def State.mbxHold (s : State) (r : MbxReq) : State := { s with keeper := { s.keeper with asked := some r } }.put KPR.MBX_STAT_BUSY 1

/-- MBX_CTL as a register is written (R470): GO copies the request, which stands in the keeper until a mailbox row of its opcode serves it. -/
def State.mbxAsk (s : State) (word : Nat) : State :=
  let s := s.mbxMode word
  if bitAt word 31 = false then s
  else if s.on KPR.MBX_STAT_BUSY then s.put KPR.MBX_STAT_GO_IGNORED 1
  else if s.mbxOpen = false then s
  else
    let r := s.mbxCopy
    r.1.mbxHold r.2

/-- A write of MBX_CTL whose GO finds a request with an opcode that `p` admits, or, without GO, the turn of the request that is held. -/
def State.mbxGo (s : State) (word : Nat) (p : Nat → Bool) (serve : MbxReq → State → State) : State :=
  if s.power.held = true ∨ s.pwState = pwVault then s
  else
    let s := s.mbxMode word
    if bitAt word 31 = false then
      match s.keeper.asked with
      | some r => if p r.op then serve r { s with keeper := { s.keeper with asked := none } } else s
      | none => s
    else if s.on KPR.MBX_STAT_BUSY then s.put KPR.MBX_STAT_GO_IGNORED 1
    else if s.mbxOpen = false then s
    else
      let r := s.mbxCopy
      if p r.2.op then serve r.2 r.1 else s

/-- A request that the keeper answers at once: while it is out of service every known request completes with NO_IDENTITY. -/
def State.mbxServe (s : State) (word op : Nat) (f : MbxReq → State → State × Nat × List Byte) : State :=
  s.mbxGo word (· == op) fun r s =>
    if s.keeperOut then s.mbxRespond r.seq mbNoIdentity []
    else
      let (s, st, d) := f r s
      s.mbxRespond r.seq st d

/-- MAILBOX_UNKNOWN_OPCODE. -/
def execMailboxUnknownOpcode (word : Nat) (s : State) : Host.Outcome State Fault Refusal :=
  .next (s.mbxGo word (fun op => op == 0 || decide (5 < op)) fun r s => s.mbxRespond r.seq mbBadOpcode [])

/-! ### Bundles (R472 to R475) -/

def be4 (l : List Byte) (o : Nat) : Nat := beNum ((l.drop o).take 4)
def allZero (l : List Byte) : Bool := l.all (· == 0#8)

/-- The fields of a container that step 1 needs, and whether they are correct for a container that begins a run of bytes. -/
def headerOk (l : List Byte) : Bool :=
  let p := be4 l 28
  let n := be4 l 8
  let flags := (l.getD 7 0#8).toNat
  decide (17136 ≤ l.length) && be4 l 0 == 0x56444B43 && beNum ((l.drop 4).take 2) == 1 && p % 64 == 0 && n == ceilDiv (17136 + p) 64 * 64 &&
  decide (n ≤ l.length) && flags / 2 == 0 && decide (be4 l 16 / 4 = 0) && decide (be4 l 12 ≤ 64) && allZero ((l.drop 60).take 4) && allZero ((l.drop 500).take 12) &&
  allZero ((l.drop (17136 + p)).take (n - (17136 + p)))

/-- A container's kind is the one its place asks for. -/
def kindOk (l : List Byte) (first : Bool) : Bool := (l.getD 6 0#8).toNat == (if first then 1 else 2)

/-- The section table of a CORE's plaintext: type, offset and length of each section (R474). -/
def sectionsOf (p : List Byte) : List (Nat × Nat × Nat) :=
  (List.range (min (be4 p 0) 5)).map fun i => (be4 p (8 + 16 * i), be4 p (12 + 16 * i), be4 p (16 + 16 * i))
def sectionBytes (p : List Byte) (ty : Nat) : List Byte :=
  match (sectionsOf p).find? (·.1 == ty) with
  | some q => (p.drop q.2.1).take q.2.2
  | none => []

/-- Patches: unit type, address, word. -/
def patchesOf (l : List Byte) : List (Nat × Nat × Nat) :=
  (List.range (l.length / 20)).map fun i =>
    ((l.getD (20 * i) 0#8).toNat, beNum ((l.drop (20 * i + 2)).take 2), beNum ((l.drop (20 * i + 4)).take 16))

def coreOk (p : List Byte) : Bool :=
  let l := sectionsOf p
  let n := be4 p 0
  let len : Nat → Nat := fun ty => match l.find? (·.1 == ty) with | some q => q.2.2 | none => 0
  decide (n ≤ 4) && be4 p 4 == 0 && decide (8 + 16 * n ≤ p.length) &&
  (l.zipIdx.all fun q => decide (1 ≤ q.1.1 ∧ q.1.1 ≤ 4 ∧ q.1.2.1 + q.1.2.2 ≤ p.length) && be4 p (20 + 16 * q.2) == 0) &&
  decide ((l.map (·.1)).eraseDups.length = n) && (l.any fun q => q.1 == 1) && len 2 == 32768 && len 3 == 32768 && len 4 % 20 == 0 &&
  ((patchesOf (sectionBytes p 4)).all fun q => decide (q.1 ≤ 1 ∧ q.2.1 < 2048)) &&
  ((List.range (len 4 / 20)).all fun i => (sectionBytes p 4).getD (20 * i + 1) 0#8 == 0#8)

/-- The entry table of an applet's image (R185), in little-endian words. -/
def entryWord (p : List Byte) (i : Nat) : Nat := leNum ((p.drop (4 * i)).take 4)
def imageOk (p : List Byte) : Bool :=
  decide (32 ≤ p.length) && entryWord p 0 == 0x52434150 && entryWord p 1 == Config.appletAbi && decide (entryWord p 6 ≤ 262144) && entryWord p 7 == 0 &&
  ([2, 3, 4, 5].all fun i => decide (entryWord p i < p.length))

/-- The control store of a unit type: its section's words, patched in bundle order, with parity (R431). -/
def buildCopy (p : List Byte) (ty : Nat) : Tab Nat :=
  let base := sectionBytes p (2 + ty)
  let patches := (patchesOf (sectionBytes p 4)).filter fun q => q.1 == ty
  (List.range 2048).filterMap fun a =>
    let w := patches.foldl (fun w q => if q.2.1 = a then q.2.2 else w) (beNum ((base.drop (16 * a)).take 16))
    if withParity w = 0 then none else some (a, withParity w)

/-- What verifying a bundle has built so far. -/
structure Loading where
  done : List Container
  plains : List (Nat × List Byte)
  core : List Byte
  advance : Option Nat
  applets : List AppletImage
  next : Nat
  deriving DecidableEq, Repr

/-- The checks of R473 on the container at the head of `l`, in their order, the first failure giving the code. -/
def State.checkContainer (s : State) (l : List Byte) (first : Bool) (b : Loading) (c : Crypto) : Nat :=
  let slot := if first then 0 else 1
  let rsaHash := if first then FUS.SLOT0_RSA_HASH 0 else FUS.SLOT1_RSA_HASH 0
  let slhHash := if first then FUS.SLOT0_SLH_HASH 0 else FUS.SLOT1_SLH_HASH 0
  if headerOk l = false then mbBadHeader
  else if kindOk l first = false ∨ bitAt (s.get FUS.FUS_STAT_SLOTS) slot = false then (if first then mbNoCore else mbBadHeader)
  else if 17 ≤ b.done.length then mbTooMany
  else if bitAt (be4 l 16) (if s.big then 0 else 1) = false then mbWrongGrade
  else if be4 l 12 < s.counter then mbRollback
  else if sha384 ((l.drop 64).take 388) ≠ s.regBytes rsaHash 12 ∨ sha384 ((l.drop 452).take 48) ≠ s.regBytes slhHash 12 then mbKeyMismatch
  else if c.rsa = false then mbRsaFail
  else if c.slh = false then mbSlhFail
  else match c.plain with
    | none => mbDecryptFail
    | some p =>
      if (if first then coreOk p else imageOk p) = false ∨ p.length ≠ be4 l 28 then mbBadSection
      else if b.applets.any fun a => a.id == be4 l 24 then mbDuplicate
      else mbOk

/-- The containers of a bundle, one after another. A failed CORE ends the run, and so does a container whose length cannot be trusted. -/
def State.verifyFrom (s : State) : Nat → List Byte → List Crypto → Loading → Loading
  | 0, _, _, b => b
  | n + 1, l, cs, b =>
    if l.isEmpty then b
    else
      let first := b.done.isEmpty
      let c := cs.headD { rsa := false, slh := false, plain := none }
      let code := s.checkContainer l first b c
      let len := be4 l 8
      let con : Container := { kind := (l.getD 6 0#8).toNat, slot := if first then 0 else 1, result := code, svn := be4 l 12, applet := be4 l 24,
                               version := be4 l 20, hash := sha384 (l.take len) }
      let b := { b with done := b.done ++ [con] }
      if code ≠ mbOk then
        (if first || code == mbBadHeader || code == mbTooMany then b else s.verifyFrom n (l.drop len) cs.tail b)
      else
        let p := c.plain.getD []
        let a : AppletImage := { id := be4 l 24, magic := entryWord p 0, abi := entryWord p 1, entries := [2, 3, 4, 5].map (entryWord p),
                                 dataSize := entryWord p 6, addr := b.next, len := p.length }
        let b := { b with plains := b.plains ++ [(b.next, p)], next := b.next + p.length }
        let b := if first then { b with core := p, advance := if bitAt (l.getD 7 0#8).toNat 0 then some (be4 l 12) else none }
                 else { b with applets := b.applets ++ [a] }
        s.verifyFrom n (l.drop len) cs.tail b

/-- A bundle is verified, its plaintext placed in SECURE_FW, and the response is due (R473 to R476). -/
def State.verifyBundle (s : State) (r : MbxReq) (cs : List Crypto) : State :=
  let read := s.readMem s.downloadBase r.arg0
  let s := read.1
  let l := read.2.1
  let b := s.verifyFrom 18 l cs { done := [], plains := [], core := [], advance := none, applets := [], next := s.secureBase }
  let s := b.plains.foldl (fun (s : State) q => (s.writeMem q.1 q.2).1) s
  let job : LoadJob := { containers := b.done, status := match b.done.head? with | some c => c.result | none => mbNoCore, advance := b.advance,
                         measurement := sha384 l, plains := b.plains.map fun q => (q.1, q.2.length), applets := b.applets,
                         car := buildCopy b.core 0, scb := buildCopy b.core 1 }
  let s := { s with keeper := { s.keeper with load := some job, req := some r.seq } }
  ((s.put KPR.BOOT_STAT_WINDOW_OPEN 0).put KPR.BOOT_STAT_STAGE 4).put KPR.MBX_STAT_BUSY 1

/-- LOAD. `cs`: what the signature checks and decryptions give, container by container. -/
def execLoad (word : Nat) (cs : List Crypto) (s : State) : Host.Outcome State Fault Refusal :=
  .next (s.mbxGo word (· == 1) fun r s =>
    if s.keeperOut then s.mbxRespond r.seq mbNoIdentity []
    else if s.on KPR.BOOT_STAT_WINDOW_OPEN = false ∨ s.keeper.launched.isSome = true then s.mbxRespond r.seq mbNotNow []
    else if r.arg0 = 0 ∨ windowLen < r.arg0 then s.mbxRespond r.seq mbBadLength []
    else s.verifyBundle r cs)

/-- The response data of LOAD. -/
def loadReport (l : List Container) : List Byte := l.flatMap fun c => beBytes 1 c.kind ++ beBytes 1 c.result ++ [0#8, 0#8] ++ leBytes 4 c.applet

/-- The launch measurement is taken down. -/
def State.setLaunch (s : State) (d : List Byte) : State := { s with power := { s.power with launch := some d } }

/-- The protected copies are built. The microcode revisions are Sveteno's. -/
def State.setCopies (s : State) (j : LoadJob) (v0 v1 : Nat) : State :=
  let s := { s with copyCar := j.car, copyScb := j.scb }
  (s.wr CAR.UCODE_REV (BitVec.ofNat 32 v0)).wr SCB.UCODE_REV (BitVec.ofNat 32 v1)

/-- A hart is started: M-mode, with PMP entries 0 to 4 locked (R414). They grant U-mode nothing: as they stand they cover no byte. -/
def Hart.started (k : Hart) : Hart :=
  { k with stopped := false, halted := false, user := false,
           regs := { k.regs with pmp := List.replicate 5 { Pmp.off with locked := true } ++ k.regs.pmp.drop 5 } }

/-- The stores of the units that are on are loaded, and the pairs' domains are on. -/
def State.startUnits (s : State) : State :=
  let s := (List.range 86).foldl (fun (s : State) i => if s.engineEnabled i && s.bitOn PWR.PD_STAT0 i then s.loadStore i else s) s
  let s := (rangeFrom 86 5).foldl (fun (s : State) d => (s.putBit PWR.PD_REQ0 d true).setDomain d true) s
  (List.range 4).foldl (fun (s : State) h => s.setHart h (s.hart h).started) s

/-- What the Catalogue and the keeper hold of the bundle that runs. -/
def State.noteBundle (s : State) (j : LoadJob) : State :=
  { s with cat := { s.cat with bundle := j.measurement, applets := j.applets },
           keeper := { s.keeper with launched := some s.ticks, containers := j.containers, plains := j.plains,
                                     advance := j.advance.bind fun v => if s.counter < v then some v else none } }

/-- The protected copies are built and loaded, and harts 0 to 3 started (R431, R476, R491). -/
def State.launch (s : State) (j : LoadJob) : State :=
  let d := s.draw
  let e := d.2.draw
  let s := (e.2.setCopies j d.1 e.1).startUnits
  let s := ((s.putWords (KPR.MEASUREMENT 0) ((List.range 12).map fun i => be4 j.measurement (4 * i))).showSparePair).noteBundle j
  let r := s.secureBytes
  r.1.setLaunch (sha384 r.2)

/-- LOAD_COMPLETE: the response is written, and on success firmware is started (R476). -/
def execLoadComplete (s : State) : Host.Outcome State Fault Refusal :=
  match s.keeper.load with
  | none => .next s
  | some j =>
    if s.power.held = true ∨ s.keeperOut = true then .next s
    else
      let seq := s.keeper.req.getD 0
      let s := { s with keeper := { s.keeper with load := none, req := none } }
      if j.status ≠ mbOk then
        let s := ((s.put KPR.BOOT_ERR_CODE j.status).put KPR.BOOT_ERR_CONTAINER 0).mbxRespond seq j.status (loadReport j.containers)
        .next ((s.put KPR.BOOT_STAT_WINDOW_OPEN 1).put KPR.BOOT_STAT_STAGE 3)
      else
        let s := (s.mbxRespond seq mbOk (loadReport j.containers)).launch j
        .next ((s.put KPR.BOOT_STAT_WINDOW_OPEN 1).put KPR.BOOT_STAT_STAGE 5)

/-! ### Ageing records (R480, R515, R516) -/

/-- A record that is addressed to this device. Its MAC is the keeper's own check. -/
def State.recordOk (s : State) (l : List Byte) : Bool :=
  let n := beNum ((l.drop 6).take 2)
  be4 l 0 == 0x41475244 && beNum ((l.drop 4).take 2) == 1 && decide (108 ≤ n ∧ n ≤ 4096) && n == l.length &&
  (l.drop 8).take 16 == s.regBytes (FUS.DEVICE_UID 0) 4
/-- SEQ of a record. -/
def recordSeq (l : List Byte) : Nat := beNum ((l.drop 24).take 8)

/-- AGEING_PUT is accepted: up to 60 s after ALIVE, and before a record is adopted. -/
def State.puttable (s : State) : Bool :=
  !s.on KPR.BOOT_STAT_AGEING_ADOPTED && s.consState == csBaseline &&
  (match s.keeper.aliveTick with | some t => decide (s.usSince t ≤ 60000000) | none => true)

/-- AGEING_PUT. `macOk`: the record's MAC checks under the key of this device. -/
def execAgeingPut (word : Nat) (macOk : Bool) (s : State) : Host.Outcome State Fault Refusal :=
  .next (s.mbxServe word 2 fun r s =>
    if s.puttable = false then (s, mbNotNow, [])
    else if 8128 < r.len then (s, mbBadLength, [])
    else if s.recordOk r.data = false ∨ macOk = false then (s, mbAgeingRejected, [])
    else if s.on KPR.BOOT_STAT_ALIVE then (s.adopt (recordSeq r.data), mbOk, [])
    else ({ s with keeper := { s.keeper with record := some r.data } }, mbOk, []))

/-- The record that AGEING_GET gives: the Conservator's state, and so its length, and the MAC are open. -/
def State.ageingRecord (s : State) : State × List Byte :=
  let (n, s) := s.draw
  let (v, s) := s.draw
  let (m, s) := s.draw
  let len := 108 + n % 3989
  (s, beBytes 4 0x41475244 ++ beBytes 2 1 ++ beBytes 2 len ++ s.regBytes (FUS.DEVICE_UID 0) 4 ++ beBytes 8 (s.get CNS.REPLANS_VALUE) ++ s.now.bytes ++
    beBytes (len - 76) v ++ beBytes 32 m)

/-- AGEING_GET. -/
def execAgeingGet (word : Nat) (s : State) : Host.Outcome State Fault Refusal :=
  .next (s.mbxServe word 3 fun _ s =>
    if s.on KPR.BOOT_STAT_ALIVE then ((s.ageingRecord).1, mbOk, (s.ageingRecord).2) else (s, mbNotNow, []))

/-! ### Identity and attestation (R481, R483) -/

/-- A result of `n` bytes is written at a window offset. -/
def State.windowResult (s : State) (r : MbxReq) (l : List Byte) : State × Nat × List Byte :=
  if r.arg0 % 64 ≠ 0 ∨ windowLen < r.arg0 + l.length then (s, mbBadOffset, [])
  else ((s.writeMem (s.downloadBase + r.arg0) l).1, mbOk, [])

/-- IDENTITY. -/
def execIdentity (word : Nat) (s : State) : Host.Outcome State Fault Refusal :=
  .next (s.mbxServe word 5 fun r s =>
    if s.on KPR.BOOT_STAT_ALIVE = false then (s, mbNotNow, [])
    else s.windowResult r (s.regBytes (FUS.DEVICE_UID 0) 4 ++ beBytes 384 Config.identityRsa ++ beBytes 4 65537 ++ beBytes 48 Config.identitySlh))

/-- One container's entry of the report. -/
def Container.entry (c : Container) : List Byte :=
  beBytes 1 c.kind ++ beBytes 1 c.slot ++ beBytes 1 c.result ++ [0#8] ++ beBytes 4 c.svn ++ beBytes 4 c.applet ++ beBytes 4 c.version ++ c.hash

/-- The FUS words that the fuse measurement covers. -/
def State.fuseWords (s : State) : List Nat :=
  ((List.range 4).map FUS.DEVICE_UID ++ [TOP.GRADE, FUS.DRAM_PROFILE, FUS.DEBUG, FUS.COUNTER_LO, FUS.COUNTER_HI] ++ (List.range 8).map FUS.DENY ++
    (List.range 12).flatMap fun i => [FUS.SLOT0_RSA_HASH i, FUS.SLOT0_SLH_HASH i, FUS.SLOT1_RSA_HASH i, FUS.SLOT1_SLH_HASH i]).map fun r => (s.rd r).toNat

/-- The body of the report: 1,288 bytes. -/
def State.reportBody (s : State) (nonce : List Byte) : List Byte :=
  let flag : Fld → Nat → Nat := fun f v => if s.on f then v else 0
  let cs := (s.keeper.containers.take 17).flatMap Container.entry
  beBytes 4 0x41545354 ++ beBytes 2 1 ++
  beBytes 2 (flag KPR.BOOT_STAT_RECOVERY 1 + (if s.get ⟨FUS.DEBUG, 0, 1⟩ = 0 then 2 else 0) + flag KPR.BOOT_STAT_AGEING_ADOPTED 4 + flag KPR.BOOT_STAT_COUNTER_PENDING 8) ++
  s.regBytes (FUS.DEVICE_UID 0) 4 ++ s.regBytes TOP.DEVICE_ID 1 ++ s.regBytes TOP.STEPPING 1 ++ nonce ++ s.regBytes (KPR.MEASUREMENT 0) 12 ++
  beBytes 48 (Config.fuseMeasurement s.fuseWords) ++ beBytes 8 s.counter ++ s.regBytes CAT.EPOCH 1 ++ beBytes 4 0 ++
  s.regBytes CAT.DIGEST_HI 1 ++ s.regBytes CAT.DIGEST_LO 1 ++ s.now.bytes ++ beBytes 1 (s.get RST.RST_STAT_LAST_CAUSE) ++ beBytes 1 s.keeper.atStart ++
  beBytes 1 (min s.keeper.containers.length 17) ++ [0#8] ++ cs ++ List.replicate (1088 - cs.length) 0#8

/-- ATTEST. The two signatures are open: no private key leaves the keeper. -/
def execAttest (word : Nat) (s : State) : Host.Outcome State Fault Refusal :=
  .next (s.mbxServe word 4 fun r s =>
    if s.on KPR.BOOT_STAT_ALIVE = false then (s, mbNotNow, [])
    else if r.len ≠ 32 then (s, mbBadLength, [])
    else
      let (a, s) := s.draw
      let (b, s) := s.draw
      s.windowResult r (s.reportBody (r.data.take 32) ++ beBytes 384 a ++ beBytes 16224 b))

/-! ### Starts (R477, R478) -/

/-- ALIVE: the first write of the key by a curator after a start. Writes through BAR0 are ignored. -/
def execAlive (bar0 : Bool) (key : Nat) (s : State) : Host.Outcome State Fault Refusal :=
  if bar0 = true ∨ key % 65536 ≠ 0x5A17 ∨ s.power.held = true ∨ s.keeper.launched = none ∨ s.on KPR.BOOT_STAT_ALIVE = true then .next s
  else
    let ms := s.usSince s.keeper.startTick / 1000
    let s := ((s.put KPR.BOOT_STAT_ALIVE 1).put HIF.HIF_STAT_READY 1).put KPR.BOOT_STAT_FAILED_STARTS 0
    let s := (((s.put KPR.BOOT_STAT_RECOVERY 0).put HIF.HIF_STAT_RECOVERY 0).put KPR.BOOT_STAT_STAGE 6).wr KPR.START_MS (BitVec.ofNat 32 (min ms (2 ^ 32 - 1)))
    let s := { s with keeper := { s.keeper with aliveTick := some s.ticks } }
    let s := if s.keeperOut then s else s.raiseCounter
    let s := match s.keeper.record with | some l => s.adopt (recordSeq l) | none => s
    .next (s.alertRise 0).beginEpoch

/-- START_DEADLINE: 3 s of a start have passed without ALIVE, or in recovery 3 s of the firmware's run (R478). -/
def execStartDeadline (s : State) : Host.Outcome State Fault Refusal :=
  if s.power.held = true ∨ s.on KPR.BOOT_STAT_ALIVE = true ∨ s.on FUS.FUS_STAT_FUSE_FAIL = true ∨ s.pwState = pwVault then .next s
  else if s.on KPR.BOOT_STAT_RECOVERY then
    match s.keeper.launched with
    | none => .next s
    | some t =>
      if s.usSince t < 3000000 then .next s
      else
        let s := { s with keeper := { s.keeper with launched := none, advance := none } }
        let s := (List.range 4).foldl (fun (s : State) h => s.setHart h { s.hart h with stopped := true }) s
        .next ((s.put KPR.BOOT_STAT_WINDOW_OPEN 1).put KPR.BOOT_STAT_STAGE 3)
  else if s.usSince s.keeper.startTick < 3000000 then .next s
  else
    let f := s.get KPR.BOOT_STAT_FAILED_STARTS
    .next ((s.put KPR.BOOT_STAT_FAILED_STARTS (min 3 (f + 1))).requestReset 8 0x03 false)

/-- KEEPER_LOCKSTEP_MISMATCH (R438, R447): C3 within 1 s of the one before it. The pair resets itself and runs its request again; a message
of C2 or above puts it out of service. -/
def execKeeperLockstepMismatch (s : State) : Host.Outcome State Fault Refusal :=
  if s.power.held = true ∨ s.keeperOut = true ∨ s.pwState = pwVault then .next s
  else
    let soon := match s.keeper.mismatch with | some t => decide (s.usSince t < 1000000) | none => false
    let s := { s with keeper := { s.keeper with mismatch := some s.ticks } }
    let s := s.reportAs 0xD0 0x21 (if soon then 3 else 1) none 0xFF 0 false
    .next (if s.power.held = false ∧ s.keeperOut = true then s.put KPR.BOOT_STAT_STAGE 8 else s)

end Sys2Proof.Machine
end

