-- ==== Sys2Proof/Machine/Mmu.lean ====
section
/-! DEFINITION. What a requester does at a translation fault, and the commands of the MMU part (R362 to R371). -/
namespace Sys2Proof.Machine

/-- The leaf or segment of an engine fails: its routine ends and its work is lost (R369, R455). -/
def State.failEngine (s : State) (i : Nat) : State :=
  match (s.engine i).work with
  | some (n, p, j, _) =>
    let s := s.abandon i
    ((s.setEngine i { s.engine i with work := none }).put (engState i) stIdle).loseWork (unitOfEngine i) n p j
  | none => s

/-- A requester meets a fault (R369): a resolvable one is queued and the requester waits; any other fails the access. -/
def State.faultFor (s : State) (who : Waiter) (asid va : Nat) (write : Bool) (kind level : Nat) : State :=
  if resolvable kind then
    let s := match who with
      | .engine i => if s.routineHeld i then (s.abandon i).put (engState i) stAbandoned else s
      | .dma ch => if s.get (dmaState ch) = dmaPaused then s else s.setDmaState ch dmaFaulted
      | .slip _ _ => s
    s.queueFault who asid va write kind level
  else
    match who with
    | .engine i => s.failEngine i
    | .dma ch => s.endSlip ch 0x04
    | .slip n id => match (s.ring n).byId id with | some t => s.finish n t 0x000C 0 [] | none => s

/-- Retry a requester's access (R368): where it translates, an engine restarts its routine and a channel goes on. -/
def State.retry (s : State) (r : FltRec) : State :=
  let (c, eng) := match r.who with | .engine i => (3, some i) | .dma _ => (4, none) | .slip _ _ => (7, none)
  let (s, x) := s.translate c eng r.asid r.va r.write
  match x with
  | .fail k l => s.faultFor r.who r.asid r.va r.write k l
  | .ok _ _ =>
    match r.who with
    | .engine i => if s.get (engState i) = stAbandoned then s.put (engState i) stRunning else s
    | .dma ch => if s.get (dmaState ch) = dmaFaulted then s.setDmaState ch dmaRunning else s
    | .slip _ _ => s

/-- A waiting access fails with ADDRESS_FAULT (R368, R369, R379). -/
def State.abortAccess (s : State) (r : FltRec) : State :=
  match r.who with
  | .engine i => s.failEngine i
  | .dma ch => s.endSlip ch 0x03
  | .slip n id => match (s.ring n).byId id with | some t => s.finish n t 0x000C 0 [] | none => s

/-- The head record leaves the queue. -/
def State.popFault (s : State) : State :=
  { s with mmu := { s.mmu with queue := s.mmu.queue.drop 1 } }.refillFaults

/-! ### Commands -/

/-- What a translated access is answered with: the physical address, and 1 after it where it goes out through the host window with No Snoop (R366). -/
def State.walkAnswer (s : State) (pa : Nat) (noSnoop : Bool) : List Nat := if s.aperture pa = some 8 ∧ noSnoop then [pa, 1] else [pa]

/-- TRANSLATION_WALK (R357, R362, R367 to R370): an access is translated and checked. The answer is the physical address, with a
mark for No Snoop, or empty where it faults. An engine's write that translates is counted until it lands (R451). -/
def execTranslationWalk (who : Requester) (va : Nat) (write : Bool) (s : State) : Host.Outcome State Fault Refusal :=
  match who with
  | .phys c _ =>
    let (s, x) := s.protect c va write false
    .next (s.reply (match x with | .ok pa _ => [pa] | .fail _ _ => []))
  | .engine i =>
    if s.on (MMU.GRANT_FENCED i) || !s.on (MMU.GRANT_VALID i) then .next ((s.failEngine i).reply [])
    else
      let (s, x) := s.translate 3 (some i) (s.get (MMU.GRANT_ASID i)) va write
      match x with
      | .ok pa ns =>
        let s := if write then s.setEngine i { s.engine i with writes := (s.engine i).writes + 1 } else s
        .next (s.reply (s.walkAnswer pa ns))
      | .fail k l => .next ((s.faultFor (.engine i) (s.get (MMU.GRANT_ASID i)) va write k l).reply [])
  | .dma ch =>
    let asid := s.get (DMA.CFG_ASID ch)
    let (s, x) := s.translate 4 none asid va write
    match x with
    | .ok pa ns => .next (s.reply (s.walkAnswer pa (ns || (s.dmaCh ch).flag 3)))
    | .fail k l => .next ((s.faultFor (.dma ch) asid va write k l).reply [])
  | .slip n k =>
    let asid := s.get (HIF.RP_CFG_ASID n)
    let (s, x) := s.translate 7 none asid va write
    match x, (s.ring n).taken[k]? with
    | .ok pa ns, o => .next (s.reply (s.walkAnswer pa (ns || (match o with | some t => bitAt t.flags 1 | none => false))))
    | .fail kd l, some t => .next ((s.faultFor (.slip n t.id) asid va write kd l).reply [])
    | .fail _ _, none => .next (s.reply [])

/-- FLT_CTL RESUME (R368): retries the head record's requester from the root; another ID sets BAD_ID. -/
def execResume (id : Nat) (s : State) : Host.Outcome State Fault Refusal :=
  match s.mmu.queue with
  | r :: _ => if r.id = id then .next (s.popFault.retry r) else .next (s.put MMU.MMU_STAT_BAD_ID 1)
  | [] => .next (s.put MMU.MMU_STAT_BAD_ID 1)

/-- FLT_CTL ABORT (R368): fails the head record's access with ADDRESS_FAULT; another ID sets BAD_ID. -/
def execAbort (id : Nat) (s : State) : Host.Outcome State Fault Refusal :=
  match s.mmu.queue with
  | r :: _ => if r.id = id then .next (s.popFault.abortAccess r) else .next (s.put MMU.MMU_STAT_BAD_ID 1)
  | [] => .next (s.put MMU.MMU_STAT_BAD_ID 1)

/-- A record not resolved within TIMEOUT_US of its fault is aborted, TIMEOUT set and FAULT_TIMEOUT reported (R368, R438). The
records are taken oldest first, queued or waiting outside. -/
def execFaultRecordTimeout (s : State) : Host.Outcome State Fault Refusal :=
  match (s.mmu.queue ++ s.mmu.outside).find? fun r => decide (s.get MMU.FLT_CFG_TIMEOUT_US ≤ s.usSince r.tick) with
  | some r =>
    let s := { s with mmu := { s.mmu with queue := s.mmu.queue.erase r, outside := s.mmu.outside.erase r } }.refillFaults
    let s := (s.put MMU.MMU_STAT_TIMEOUT 1).abortAccess r
    .next (s.report 0x180 0x19 none r.va)
  | none => .next s

/-- Entries that satisfy p leave the TLB and every micro-TLB (R364, R365). -/
def State.dropCached (s : State) (p : Nat × Nat × Nat × Nat → Bool) : State :=
  let s := { s with mmu := { s.mmu with tlb := s.mmu.tlb.filter fun q => !p q } }
  s.engines.foldl (fun s e => s.setEngine e.1 { e.2 with utlb := e.2.utlb.filter fun q => !p q }) s

/-- An invalidation, ignored while one is in progress (R365). -/
def State.invalidate (s : State) (p : Nat × Nat × Nat × Nat → Bool) : State :=
  if s.on MMU.MMU_STAT_INV_BUSY then s.put MMU.MMU_STAT_INV_DROPPED 1
  else (s.dropCached p).put MMU.MMU_STAT_INV_BUSY 1

/-- INV_CTL with scope ALL (R365). -/
def execInvalidateAll (s : State) : Host.Outcome State Fault Refusal := .next (s.invalidate fun _ => true)
/-- INV_CTL with scope ASID (R365). -/
def execInvalidateAsid (asid : Nat) (s : State) : Host.Outcome State Fault Refusal := .next (s.invalidate fun q => q.1 == asid)
/-- The address in INV_VA (R381). -/
def State.invVa (s : State) : Nat := s.get MMU.INV_VA_LO_VA * 4096 + s.get MMU.INV_VA_HI_VA * 2 ^ 32
/-- INV_CTL with scope PAGE (R365): every entry of the ASID, of any page size, that covers INV_VA. -/
def execInvalidatePage (asid : Nat) (s : State) : Host.Outcome State Fault Refusal :=
  .next (s.invalidate fun q => covers asid s.invVa q)
/-- No access translated under an invalidated entry is in flight any more (R365). -/
def execInvalidationDone (s : State) : Host.Outcome State Fault Refusal := .next (s.put MMU.MMU_STAT_INV_BUSY 0)

/-- A write of CTXa_HI commits the staged CTXa_LO with its own value and invalidates the ASID (R363). -/
def execContextCommit (a hi : Nat) (s : State) : Host.Outcome State Fault Refusal :=
  let lo := Tab.get (fun _ => (s.rd (MMU.CTX_LO a)).toNat) s.mmu.staged a
  let s := (s.put (MMU.CTX_LO_ROOT a) (bits lo 12 20)).put (MMU.CTX_LO_VALID a) (bits lo 0 1)
  let s := s.put (MMU.CTX_HI_ROOT a) hi
  .next ((s.dropCached fun q => q.1 == a).put MMU.MMU_STAT_INV_BUSY 1)

/-- GRANTi.FENCED is set (R370). -/
def execGrantFence (i : Nat) (s : State) : Host.Outcome State Fault Refusal := .next (s.fence i)

end Sys2Proof.Machine
end

