-- ==== Sys2Proof/Machine/PictureSlips.lean ====
section
/-! DEFINITION. ENCODE_PICTURE and DECODE_PICTURE (R66 to R70, R75, R78, R80, R126, R127, R135 to R140, R200, R204, R455, R544). -/
namespace Sys2Proof.Machine

/-! ### ENCODE_PICTURE -/

/-- A Dater time in words i to i + 2 of a slip. -/
def Taken.time (t : Taken) (i : Nat) : DTime :=
  { sec := BitVec.ofNat 48 (t.word i + bits (t.word (i + 1)) 0 16 * 2 ^ 32), ns := BitVec.ofNat 32 (t.word (i + 2)),
    frac := BitVec.ofNat 16 (bits (t.word (i + 1)) 16 16) }

/-- Samples of a row of containers, and how many of them a rule changed. -/
def rowSamples (w : Nat) (rule : Nat → Nat) (l : List Byte) : List Nat × Nat :=
  let v := (groups 2 w l).map leNum
  (v.map rule, (v.filter fun x => rule x != x).length)

/-- The rows of a plane, `k` of them from address `va` on: samples, how many a rule changed, whether any was poisoned; `none` where the
access failed. -/
def State.readPlane (s : State) (n : Nat) (t : Taken) (pitch w : Nat) (rule : Nat → Nat) : Nat → Nat → State × Option (Rows × Nat × Bool)
  | 0, _ => (s, some ([], 0, false))
  | k + 1, va =>
    match s.slipRead n t va (2 * w) with
    | (s, none) => (s, none)
    | (s, some (l, bad)) =>
      match s.readPlane n t pitch w rule k (va + pitch) with
      | (s, none) => (s, none)
      | (s, some (rows, c, bad')) =>
        let r := rowSamples w rule l
        (s, some (r.1 :: rows, r.2 + c, bad || bad'))

/-- A host picture: its samples, how many were clamped, whether any was poisoned (R127, R204). -/
def State.readPicture (s : State) (n : Nat) (t : Taken) (x : Stream) : State × Option (Ycc × Nat × Bool) :=
  let g := x.geo
  let pitch := t.word 4
  let a := t.addr 2
  if x.isKrema then
    match s.readPlane n t pitch g.width (min (2 ^ g.depth - 1)) g.height a with
    | (s, none) => (s, none)
    | (s, some (y, c, b)) => (s, some ({ y, cb := [], cr := [] }, c, b))
  else
    let h := if x.is422 then g.height else g.height / 2
    match s.readPlane n t pitch g.width (narrow g.depth false) g.height a with
    | (s, none) => (s, none)
    | (s, some (y, c, b)) =>
      match s.readPlane n t pitch (g.width / 2) (narrow g.depth true) h (a + pitch * g.height) with
      | (s, none) => (s, none)
      | (s, some (cb, c', b')) =>
        match s.readPlane n t pitch (g.width / 2) (narrow g.depth true) h (a + pitch * (g.height + h)) with
        | (s, none) => (s, none)
        | (s, some (cr, c'', b'')) => (s, some ({ y, cb, cr }, c + c' + c'', b || b' || b''))

/-- The picture of an ENCODE_PICTURE is taken in: accepted now, its input complete. -/
def State.takePicture (s : State) (n : Nat) (t : Taken) (v : Ycc × Nat × Bool) : State :=
  let x := s.stream t.streamField
  let own := decide (t.time 8 = DTime.none)
  let num := x.nextPic
  let s := s.startSlip n t
  let f : Pic → Pic := fun p =>
    { p.setStamp 0 (if own then s.now else t.time 8) with
      input := v.1.y, chromaB := v.1.cb, chromaR := v.1.cr, clamped := v.2.1, unmasked := v.2.2,
      lands := List.replicate x.geo.height s.ticks, expSrc := if own then 3 else 2, slip := some (n, t.id) }
  (s.beginPic t.streamField f).planAll t.streamField num

/-- ENCODE_PICTURE. -/
def execEncodePicture (n k : Nat) (s : State) : Host.Outcome State Fault Refusal :=
  match s.slipAt n k 0x04 with
  | none => .next s
  | some t =>
    let x := s.stream t.streamField
    if s.slipWaits n t then .next s
    else if t.reservedOk = false then .next (s.finishInOrder n k t stBadField [])
    else if s.streamFor n t [2, 5] = false then .next (s.finishInOrder n k t stBadStream [])
    else if t.word 4 % 64 ≠ 0 ∨ t.word 4 < 2 * x.geo.width then .next (s.finishInOrder n k t stBadField [])
    else if 2 ^ 32 ≤ x.nextPic then .next (s.finishInOrder n k t 0x000B [])
    else match s.readPicture n t x with
    | (s, none) => .next s
    | (s, some v) => .next (s.takePicture n t v)

/-! ### DECODE_PICTURE -/

/-- Units of work of a decoder that were lost (R455): reported, each with the unit that held it. -/
def State.reportLost (s : State) (n : Nat) (lost : List (Nat × Nat)) : State :=
  lost.foldl (fun s q => if s.power.held || !s.unitEnabled q.2 then s else s.report q.2 0x0C (some n) 0) s

/-- DECODE_PICTURE of a Krema picture. -/
def State.decodeKrema (s : State) (n k : Nat) (t : Taken) (input : List Byte) (bad : Bool) (lost : List (Nat × Nat)) : State :=
  let m := t.streamField
  let x := s.stream m
  match x.kdec.decode input (lost.map (·.1)) with
  | (d, none) => (s.setStream m { x with kdec := d }).finishInOrder n k t 0x0009 []
  | (d, some o) =>
    if t.word 8 < 2 * o.seq.width then s.finishInOrder n k t stBadField []
    else
      let lost := lost.filter fun q => decide (q.1 < o.seq.leafCount)
      let flags := (if o.colophonUnverified then 2 ^ 7 else 0) + (if o.shaMismatch then 2 ^ 8 else 0) + substFlag o.map +
        (if bad || !lost.isEmpty then 2 ^ 11 else 0)
      let s1 := (s.setStream m { x with kdec := d }).reportLost m lost
      if s1.power.held then s1
      else (s1.writeDecoded n t { num := o.number, rows := o.rows, map := o.map, flags } s).1

/-- The pictures before an access unit leave as its standard has it: all of them at an IDR or BLA picture and at the start, given up where the unit drops
them and put out otherwise; else as many as make room (R135, R136). The answer is whether the unit can be decoded now. -/
def State.makeDpbRoom (s : State) (m : Nat) (p : ParamSet) (a : CodecAu) : State × Bool :=
  let clears := a.point == .idr || a.point == .bla || !(s.stream m).dec.started
  if clears && a.dropPrior then
    ((s.stream m).dec.waiting.foldl (fun s q =>
      (match q.slip with | some v => s.finishById v.1 v.2 0x000A [] | none => s).unwait m q.slip) s, true)
  else if clears then s.bumpAll m
  else s.putOut m fun d => d.full p

/-- References that the unit's standard lets go (R135). -/
def Decoder.release (d : Decoder) (a : CodecAu) : Decoder :=
  let clears := a.point == .idr || a.point == .bla || !d.started
  Decoder.tidy { d with dpb := d.dpb.map fun q => if clears || !a.keeps.contains q.poc then { q with ref := false } else q }

/-- An access unit that the decoder takes: decoded, concealed and held; its slip has its picture once that is put out, and a skipped picture's at once. -/
def State.takeAu (s : State) (n : Nat) (t : Taken) (p : ParamSet) (a : CodecAu) (bad : Bool) (lost : List (Nat × Nat)) : State :=
  let m := t.streamField
  let d := ((s.stream m).dec.receive a.sets).release a
  let d := d.enter a
  let q := d.decode p a (lost.map (·.1)) (if bad || !lost.isEmpty then 2 ^ 11 else 0)
  let shown := a.shown && d.from'.isNone
  let q := if shown then { q with slip := some (n, t.id) } else q
  let d := Decoder.tidy { d with dpb := q :: d.dpb.map fun v => if v.slip.isSome then { v with age := v.age + 1 } else v }
  let s := (s.setStream m { s.stream m with dec := d }).reportLost m lost
  if s.power.held then s
  else
    let s := if shown then s.startSlip n t else s.finishById n t.id 0x000A []
    (s.putOut m fun d => d.bumps p).1

/-- DECODE_PICTURE of an access unit of a standard codec (R126, R135 to R140). -/
def State.decodeCodec (s : State) (n k : Nat) (t : Taken) (a : CodecAu) (bad : Bool) (lost : List (Nat × Nat)) : State :=
  let m := t.streamField
  let x := s.stream m
  let d := x.dec.receive a.sets
  let took := s.setStream m { x with dec := d }
  match d.active x.geo.codec a with
  | none => took.finishInOrder n k t 0x000A []
  | some p =>
    if p.refused x.geo then took.finishInOrder n k t 0x0008 []
    else if !d.started && !startsAt (bitAt x.geo.flags 0) a then took.finishInOrder n k t 0x000A []
    else if a.rasl && (d.enter a).dropRasl then took.finishInOrder n k t 0x000A []
    else if t.word 8 < 2 * p.width then s.finishInOrder n k t stBadField []
    else
      let r := s.makeDpbRoom m p a
      if r.2 then r.1.takeAu n t p a bad lost else r.1

/-- A picture's slip that waits for its output goes on, after a page fault of an output buffer (R135, R369). -/
def State.decodeOn (s : State) (m : Nat) : State :=
  let x := s.stream m
  if x.state = .closing ∨ x.flush.isSome = true then (s.bumpAll m).1
  else match x.dec.sets.find? fun p => p.kind == 1 with
    | some p => (s.putOut m fun d => d.bumps p).1
    | none => s

/-- DECODE_PICTURE. `lost`: units of work lost to a fault, with the engine of each; `au`: what the codec's own standard makes of the access
unit, for a stream of a standard codec. It waits while a SET_CONFIG of the stream is staged (R220). -/
def execDecodePicture (n k : Nat) (lost : List (Nat × Nat)) (au : CodecAu) (s : State) : Host.Outcome State Fault Refusal :=
  match (s.ring n).taken[k]? with
  | none => .next s
  | some t =>
    if t.op = 0x05 ∧ t.started = true ∧ t.verdict.isNone = true then .next (s.decodeOn t.streamField)
    else
    match s.slipAt n k 0x05 with
    | none => .next s
    | some t =>
      if s.slipWaits n t then .next s
      else if t.reservedOk = false then .next (s.finishInOrder n k t stBadField [])
      else if s.streamFor n t [3, 6] = false then .next (s.finishInOrder n k t stBadStream [])
      else if s.touched t.streamField then .next s
      else match s.slipRead n t (t.addr 2) (t.word 4) with
      | (s, none) => .next s
      | (s, some (input, bad)) =>
        .next (if (s.stream t.streamField).kind = 3 then s.decodeKrema n k t input bad lost else s.decodeCodec n k t au bad lost)

end Sys2Proof.Machine
end

