-- ==== Sys2Proof/Machine/Smbus.lean ====
section
/-! DEFINITION. The SMBus target (R503, R506). -/
namespace Sys2Proof.Machine

/-- A transaction addressed to the device is counted. PDA answers in every power state. -/
def State.smb (s : State) (f : State → State) : Host.Outcome State Fault Refusal :=
  if s.power.aon then .next (f (s.bump SMB.SMB_STAT_COMMANDS)) else .next s

/-- A block read: its status byte and data, or FF for data that is not available. -/
def State.smbBlock (s : State) (n : Nat) (data : Option (List Byte)) : State :=
  match data with
  | some l => s.reply (0 :: l.map BitVec.toNat)
  | none => s.reply (1 :: List.replicate n 0xFF)

/-- The device is Active, out of reset. -/
def State.smbActive (s : State) : Bool := !s.power.held && s.pwState == pwActive

/-- STATUS: the status word. -/
def State.statusWord (s : State) : Nat :=
  s.get KPR.BOOT_STAT_ALIVE + 2 * s.get KPR.BOOT_STAT_RECOVERY + 4 * s.get FUS.FUS_STAT_FUSE_FAIL + (if s.faultN then 8 else 0) +
    16 * s.pwState + 128 * s.get RST.RST_STAT_REFCLK_LOST + 256 * s.get KPR.BOOT_STAT_FAILED_STARTS
def execStatus (s : State) : Host.Outcome State Fault Refusal := s.smb fun s => s.reply [s.statusWord]

/-- CAUSE. -/
def execCause (s : State) : Host.Outcome State Fault Refusal := s.smb fun s => s.reply [s.get RST.RST_STAT_LAST_CAUSE]

/-- DEVICE_ID. Words of registers go low byte first, as SMBus sends a word. -/
def execDeviceId (s : State) : Host.Outcome State Fault Refusal :=
  s.smb fun s => s.smbBlock 8 (if s.on FUS.FUS_STAT_LOADED then some (leBytes 4 (s.rd TOP.DEVICE_ID).toNat ++ leBytes 4 (s.rd TOP.STEPPING).toNat) else none)

/-- UID, first byte first. -/
def execUid (s : State) : Host.Outcome State Fault Refusal :=
  s.smb fun s => s.smbBlock 16 (if s.on FUS.FUS_STAT_LOADED then some (s.regBytes (FUS.DEVICE_UID 0) 4) else none)

/-- EPOCH_DIGEST: one snapshot, big-endian (R463). -/
def execEpochDigest (s : State) : Host.Outcome State Fault Refusal :=
  s.smb fun s => s.smbBlock 12 (if s.smbActive then some (s.regBytes CAT.EPOCH 1 ++ s.regBytes CAT.DIGEST_HI 1 ++ s.regBytes CAT.DIGEST_LO 1) else none)

/-- FAULTS: RGS_STAT while the device is Active, and the newest message of the log head always; with no message its words read 0. -/
def execFaults (s : State) : Host.Outcome State Fault Refusal :=
  s.smb fun s =>
    let stat := if s.smbActive then leBytes 4 s.rgsStat else List.replicate 4 0xFF#8
    let msg := match s.rgs.head.head? with | some m => m.words | none => [0, 0, 0, 0]
    s.smbBlock 20 (some (stat ++ msg.flatMap (leBytes 4)))

/-- RESET. -/
def execReset (v : Nat) (pecOk : Bool) (s : State) : Host.Outcome State Fault Refusal :=
  s.smb fun s =>
    if pecOk = false then s.bump SMB.SMB_STAT_PEC_ERR
    else if s.on SMB.SMB_CFG_RESET_EN = false then s
    else if v % 65536 = 0xC01D then s.requestReset 5 0x06 true
    else if v % 65536 = 0x3A3A then s.requestReset 5 0x06 false
    else s

/-- WAKE. -/
def execWake (pecOk : Bool) (s : State) : Host.Outcome State Fault Refusal :=
  s.smb fun s => if pecOk then s.wakeEvent 5 else s.bump SMB.SMB_STAT_PEC_ERR

/-- Conditions of ALERT_MASK that hold now. -/
def State.alertNow (s : State) : Nat :=
  (if s.faultN then 1 else 0) + (if s.on FUS.FUS_STAT_FUSE_FAIL then 2 else 0) + (if s.on KPR.BOOT_STAT_RECOVERY then 4 else 0) +
    (if s.on PWR.SLEEP_STAT_DONE then 8 else 0)
/-- SMB_ALERT_N is asserted: an enabled condition holds that no read of the Alert Response Address has answered. -/
def State.alertN (s : State) : Bool :=
  (List.range 4).any fun i => bitAt s.alertNow i && bitAt (s.get SMB.SMB_CFG_ALERT_MASK) i && !bitAt s.pads.answered i

/-- ALERT_RESPONSE: a read of the Alert Response Address, which is not an address of the device's own. -/
def execAlertResponse (s : State) : Host.Outcome State Fault Refusal :=
  if s.power.aon = true ∧ s.alertN = true then
    .next ({ s with pads := { s.pads with answered := Nat.lor s.pads.answered s.alertNow } }.reply [s.get SMB.SMB_CFG_ADDR])
  else .next (s.reply [])

/-- SMB_CFG_WRITE: the RWL fields lock at the first write after power-on. A condition that the write enables counts from now. -/
def execSmbCfgWrite (v : Nat) (s : State) : Host.Outcome State Fault Refusal :=
  if s.power.held = true ∨ s.pwState = pwVault then .next s
  else
    let new := Nat.land (bits v 12 4) (15 - s.get SMB.SMB_CFG_ALERT_MASK)
    let s := (List.range 4).foldl (fun (s : State) i => if bitAt new i then s.alertRise i else s) s
    let s := s.put SMB.SMB_CFG_ALERT_MASK (bits v 12 4)
    if s.pads.locked then .next (s.bump SMB.SMB_LOCK_ERR_COUNT)
    else .next ({ (s.put SMB.SMB_CFG_RESET_EN (bits v 8 1)).put SMB.SMB_CFG_ADDR (bits v 0 7) with pads := { s.pads with locked := true } })

/-- SMBUS_UNKNOWN_COMMAND: refused and counted. -/
def execSmbusUnknownCommand (s : State) : Host.Outcome State Fault Refusal := s.smb fun s => s.bump SMB.SMB_STAT_PEC_ERR

end Sys2Proof.Machine
end

