-- ==== Sys2Proof/Machine/Pins.lean ====
section
/-! DEFINITION. Output pins, their comparison, and THERM_N (R457, R493, R494, R532, R541). -/
namespace Sys2Proof.Machine

/-- The level that a checked output drives: `none` for a pin that drives nothing, such as a released OD18 pin (R493, R494, R532). -/
def State.pinLevel (s : State) (p : OutPin) : Option Bool :=
  if s.power.aon = false then none
  else
    let safe := s.power.padsSafe
    match p with
    | .timeOut t =>
      let o := Tab.get (fun _ => Tout.init) s.dater.outs t
      some (!safe && o.configured && (o.pulse.isSome != s.on (DAT.TOUT_CTL_POLARITY t)))
    | .pps => some (!safe && s.dater.pps.isSome)
    | .ingHold h => if safe || bitAt (s.get ACC.ACC_STAT_HOLD) h || s.pwState == pwStandby || s.pwState == pwVault then none else some false
    | .magPerst m => some (!safe && !(s.mag m).perst)
    | .lpReset => some (!safe && !s.pads.lpReset)
    | .txDis n => if safe || s.netPresent n = false || s.on (NET.PORT_STAT_TXDIS n) || s.pwState == pwVault then none else some false

/-- The unit that owns a pin. Either ING_HOLD output counts as the first sensor port's. -/
def OutPin.owner : OutPin → Nat
  | .timeOut _ => 0x150
  | .pps => 0x150
  | .ingHold _ => 0x140
  | .magPerst m => 0x121 + m
  | .lpReset => 0x110
  | .txDis n => 0x130 + n

/-- The pin exists. -/
def OutPin.exists : OutPin → Bool
  | .timeOut t => decide (t < 8)
  | .pps => true
  | .ingHold h => decide (h < 2)
  | .magPerst m => decide (m < 2)
  | .lpReset => true
  | .txDis n => decide (n < 2)

/-- PIN_CHECK: the pad's receiver reads a level, which is compared with the level driven (R457, R532). -/
def execPinCheck (p : OutPin) (level : Bool) (s : State) : Host.Outcome State Fault Refusal :=
  match s.pinLevel p with
  | some l => .next (if p.exists && l != level && s.power.held == false then s.report p.owner 0x37 none 0 else s)
  | none => .next s

/-- THERM_ASSERT: the PDA sensor reads 115 °C or more. OVER_TEMP is logged once for each assertion, while firmware is alive. -/
def execThermAssert (s : State) : Host.Outcome State Fault Refusal :=
  if s.power.aon = false ∨ s.pads.therm = true then .next s
  else
    let s := { s with pads := { s.pads with therm := true } }
    .next (if s.on KPR.BOOT_STAT_ALIVE = true ∧ s.pwState ≠ pwVault then s.report 0x1F2 0x41 none 0 else s)

/-- THERM_RELEASE: it reads below 110 °C. -/
def execThermRelease (s : State) : Host.Outcome State Fault Refusal := .next { s with pads := { s.pads with therm := false } }

end Sys2Proof.Machine
end

