-- ==== Sys2Proof/Machine/RegWrite.lean ====
section
/-! DEFINITION. Writes of registers (R5 to R7, R23 and the register maps), and what a read of a register returns. -/
namespace Sys2Proof.Machine

/-! ### The access codes (R6) -/

/-- A write acts on one field under its access code. -/
def State.writeField (s : State) (off v : Nat) (q : Nat × Nat × Acc) : State :=
  let f : Fld := ⟨off, q.1, q.2.1⟩
  let x := bits v q.1 q.2.1
  match q.2.2 with
  | .rw lo hi => if lo ≤ x ∧ x ≤ hi then s.put f x else s
  | .ro => s
  | .w1c => s.put f (s.get f - Nat.land (s.get f) x)
  | .own => s

/-- Every field of a register under its code; fields with rules of their own are left (R6, R7). -/
def State.writeFields (s : State) (off v : Nat) : State :=
  match regDesc off with
  | some d => d.fields.foldl (fun (s : State) q => s.writeField off v q) s
  | none => s

/-! ### Registers with rules of their own -/

/-- RST_CMD by its SCOPE; 3 discards the sequence (R489, R504). -/
def State.writeRstCmd (s : State) (v : Nat) : Host.Outcome State Fault Refusal :=
  match bits v 12 2 with
  | 0 => execColdResetCommand (bits v 16 16) s
  | 1 => execWarmResetCommand (bits v 16 16) s
  | 2 => execUnitReset (bits v 16 16) (bits v 0 12) s
  | _ => .next s.keyErr

/-- INV_CTL by its SCOPE (R365, R381). -/
def State.writeInvCtl (s : State) (v : Nat) : Host.Outcome State Fault Refusal :=
  match bits v 0 2 with
  | 0 => execInvalidateAll s
  | 1 => execInvalidateAsid (bits v 8 8) s
  | 2 => execInvalidatePage (bits v 8 8) s
  | _ => .next s

/-- FLT_CTL by its ACTION (R368, R381). -/
def State.writeFltCtl (s : State) (v : Nat) : Host.Outcome State Fault Refusal :=
  match bits v 30 2 with
  | 1 => execResume (bits v 0 8) s
  | 2 => execAbort (bits v 0 8) s
  | _ => .next s

/-- SIZE_LOG2 and FALLBACK of a pool (R401, R406): a fallback names a larger pool, or none; a write that breaks this leaves the field. -/
def State.writePoolCfg (s : State) (p v : Nat) : State :=
  let size : Nat → Nat := fun q => s.get (LND.POOL_CFG_SIZE_LOG2 q)
  let larger : Nat → Nat → Bool := fun fb z => fb == 15 || decide (z < size fb)
  let z := bits v 0 5
  let fb := bits v 8 4
  let named := (List.range 15).all fun q => q == p || s.get (LND.POOL_CFG_FALLBACK q) != p || decide (size q < z)
  let old := s.get (LND.POOL_CFG_FALLBACK p)
  let ok := decide (12 ≤ z ∧ z ≤ 24) && named && (larger fb z || larger old z)
  let z' := if ok then z else size p
  let s := s.put (LND.POOL_CFG_SIZE_LOG2 p) z'
  if larger fb z' then s.put (LND.POOL_CFG_FALLBACK p) fb else s

/-- SCHED_CFG: ignored as a whole outside its rules (R355). -/
def State.writeSchedCfg (s : State) (v : Nat) : State :=
  let lo := bits v 24 6
  let hi := bits v 16 6
  let cap := bits v 0 7
  if lo < hi ∧ 5 ≤ cap ∧ cap ≤ 100 then ((s.put DRC.SCHED_CFG_WR_LOW lo).put DRC.SCHED_CFG_WR_HIGH hi).put DRC.SCHED_CFG_AGE_CAP cap else s

/-- PORTn_PHY: ignored while a stream uses the port; so is a map of two lanes to one (R228, R245). -/
def State.writePortPhy (s : State) (p v : Nat) : State :=
  let lanes := (List.range 4).map fun i => bits v (2 * i) 2
  if (s.portStreams p).isEmpty = false ∨ lanes.eraseDups.length ≠ 4 then s
  else (s.put (ACC.PORT_PHY_INVERT p) (bits v 8 5)).put (ACC.PORT_PHY_LANE_MAP p) (bits v 0 8)

/-- UNITk_CTL (R435): an interrupt, and a drop. -/
def State.writeUnitCtl (s : State) (byHost : Bool) (i v : Nat) : Host.Outcome State Fault Refusal :=
  let s := if bitAt v 0 then s.interruptUnit i else s
  if bitAt v 1 then execDrop i (!byHost) i s else .next s

/-- TIN_CTL: WAKE and EDGE, which clears OVERFLOW, and POP (R325, R327). -/
def State.writeTinCtl (s : State) (i v : Nat) : Host.Outcome State Fault Refusal :=
  let s := ((s.put (DAT.TIN_CTL_WAKE i) (bits v 9 1)).put (DAT.TIN_CTL_EDGE i) (bits v 0 2)).put (DAT.TIN_STAT_OVERFLOW i) 0
  if bitAt v 8 then execTimeInPop i s else .next s

/-- The registers whose fields act by rules of their own, below the common blocks' midpoint. `none`: the access codes say it all. -/
def State.ownLow (s : State) (byHost : Bool) (off v : Nat) : Option (Host.Outcome State Fault Refusal) :=
  if off = TOP.PACE_CTL then some (execPaceCtlWrite v s)
  else if off = KPR.ALIVE then some (execAlive byHost v s)
  else if off = KPR.MBX_CTL then some (.next (s.mbxAsk v))
  else if off = RST.RST_KEY then some (execRstKey v s)
  else if off = RST.RST_CMD then some (s.writeRstCmd v)
  else if off = PWR.SLEEP_CTL then
    some (if bits v 0 2 = 1 then execSleepStandby (bits v 16 16) s else if bits v 0 2 = 2 then execSleepVault (bits v 16 16) s else .next s)
  else if PWR.PD_REQ0 ≤ off ∧ off ≤ PWR.PD_REQ3 then some (execPdReqWrite byHost (regIndex off PWR.PD_REQ0 4) v s)
  else if off = RGS.ACK then some (execAck (bitAt v 15) (bits v 12 3) (bits v 0 12) s)
  else if off = RGS.INJECT then some (execInject (bits v 20 3) (bits v 12 8) (bits v 0 12) s)
  else if HIF.RP_SQ_BASE_LO 0 ≤ off ∧ off ≤ HIF.RP_RQ_STAT 63 then
    let n := regIndex off (HIF.RP_SQ_BASE_LO 0) 0x40
    if off = HIF.RP_CFG n then some (execRpCfgWrite n v s)
    else if off = HIF.RP_STAT n ∨ off = HIF.RP_RQ_STAT n then none
    else some (.next (if s.ringOn n then s else s.wr off (BitVec.ofNat 32 v)))
  else if HIF.MSIX_ADDR_LO 0 ≤ off ∧ off ≤ HIF.MSIX_CTL 63 ∧ off % 16 = 12 then
    let n := regIndex off (HIF.MSIX_ADDR_LO 0) 16
    some (if bitAt v 0 then .next (s.put (HIF.MSIX_CTL_MASK n) 1) else execMsixUnmask (some n) s)
  else if off = ICU.SWSET then some (if bitAt v 0 then execSwset s else .next s)
  else if ICU.THRESHOLD 0 ≤ off ∧ off ≤ ICU.THRESHOLD 3 then some (.next (s.wr off (BitVec.ofNat 32 (v % 16))))
  else if srcReg 1 ≤ off ∧ off ≤ srcReg 255 then some (execSourceConfigWrite (regIndex off (srcReg 0) 4) v s)
  else if ICU.QSRC 0 ≤ off ∧ off ≤ ICU.QSRC 127 then some (.next (s.wr off (BitVec.ofNat 32 (bits v 31 1 * 2 ^ 31 + bits v 0 12))))
  else if off = MMU.INV_CTL then some (s.writeInvCtl v)
  else if off = MMU.FLT_CTL then some (s.writeFltCtl v)
  else if MMU.GRANT 0 ≤ off ∧ off ≤ MMU.GRANT 85 then
    let i := regIndex off (MMU.GRANT 0) 4
    let s := if s.on (MMU.GRANT_FENCED i) then s else (s.put (MMU.GRANT_VALID i) (bits v 8 1)).put (MMU.GRANT_ASID i) (bits v 0 8)
    some (if bitAt v 31 then execGrantFence i s else .next s)
  else if MMU.CTX_LO 0 ≤ off ∧ off ≤ MMU.CTX_HI 255 then
    let a := regIndex off (MMU.CTX_LO 0) 8
    some (if off = MMU.CTX_LO a then .next { s with mmu := { s.mmu with staged := Tab.set (fun _ => (s.rd (MMU.CTX_LO a)).toNat) s.mmu.staged a v } }
          else execContextCommit a (bits v 0 16) s)
  else none

/-- The same for the DMA, the Stacks, the Lending desk and external memory. -/
def State.ownMid (s : State) (off v : Nat) : Option (Host.Outcome State Fault Refusal) :=
  if off = DMA.REQ_SW then some (execReqSw (bits v 0 6) s)
  else if DMA.CFG 0 ≤ off ∧ off ≤ DMA.SLIPS 31 then
    let n := regIndex off (DMA.CFG 0) 0x40
    if off = DMA.CTL n then
      let s := if bitAt v 2 then s.dmaPause n else s
      let s := if bitAt v 1 then s.dmaStop n else s
      let s := if bitAt v 3 ∧ bitAt v 2 = false then s.dmaResume n else s
      some (.next (if bitAt v 0 then s.dmaStart n else s))
    else if off = DMA.CFG n then some (.next (if s.dmaActive n then s else s.wr off (BitVec.ofNat 32 (v % 1024))))
    else if off = DMA.HEAD_LO n then some (.next (if s.dmaActive n then s else s.wr off (BitVec.ofNat 32 (v / 64 * 64))))
    else if off = DMA.HEAD_HI n then some (.next (if s.dmaActive n then s else s.wr off (BitVec.ofNat 32 (v % 65536))))
    else none
  else if STK.Q_CFG ≤ off ∧ off ≤ STK.Q_GRANT then
    let n := s.get STK.QSEL_QUEUE
    some (if off = STK.Q_CFG ∧ (s.queue n).enabled = true ∧ bitAt v 0 = false then execQueueDisable n s else .next (s.writeQueueReg off v))
  else if off = STK.Q_CTL then some (if bitAt v 0 then execFlush (s.get STK.QSEL_QUEUE) s else .next s)
  else if off = LND.ORPHAN_CTL then some (if bitAt v 0 then execReclaim s else .next s)
  else if LND.POOL_CFG 0 ≤ off ∧ off ≤ LND.POOL_EMPTY 15 then
    let p := regIndex off (LND.POOL_CFG 0) 0x40
    if off = LND.POOL_CTL p then
      some (if bitAt v 1 then (match execDisable p s with | .next t => if bitAt v 0 then execInit p t else .next t | o => o)
            else if bitAt v 0 then execInit p s else .next s)
    else if off = LND.POOL_CFG p then some (.next (if s.poolEnabled p then s else s.writePoolCfg p v))
    else if off = LND.POOL_BASE_HI p ∨ off = LND.POOL_RING_HI p then some (.next (if s.poolEnabled p then s else s.wr off (BitVec.ofNat 32 (v % 65536))))
    else if off = LND.POOL_COUNT p then some (.next (if s.poolEnabled p then s else s.wr off (BitVec.ofNat 32 (v % 2 ^ 27))))
    else if off = LND.POOL_BASE_LO p ∨ off = LND.POOL_RING_LO p then some (.next (if s.poolEnabled p then s else s.wr off (BitVec.ofNat 32 v)))
    else none
  else if off = DRC.SCHED_CFG then some (.next (s.writeSchedCfg v))
  else if off = MPR.SCRUB_CTL then some (execScrubCtlWrite 0 v s)
  else if MPR.SCRUB_RANGE_BASE 0 ≤ off ∧ off ≤ MPR.SCRUB_RANGE_PAGES 7 then
    let r := regIndex off (MPR.SCRUB_RANGE_BASE 0) 8
    some (execScrubCtlWrite (if off = MPR.SCRUB_RANGE_BASE r then 1 + r else 9 + r) v s)
  else if MPR.LOG_ADDR_LO 0 ≤ off ∧ off ≤ MPR.LOG_FIRST 15 then
    let e := regIndex off (MPR.LOG_ADDR_LO 0) 0x10
    some (if off = MPR.LOG_ADDR_HI e ∧ bitAt v 31 = true then execLogEntryFree e s else .next s)
  else none

/-- A port carries an open flow: its addresses are not to be written (R309). -/
def State.carriesFlow (s : State) (p : Nat) : Bool := (List.range 16).any fun f => (s.flow p f).isSome

/-- The same for one Ethernet port. `o`: the offset within the port's half of the block. -/
def State.ownNet (s : State) (p o v : Nat) : Option (Host.Outcome State Fault Refusal) :=
  let off := NET.PORT_CFG 0 + 0x8000 * p + o
  if o = 0 then some (execPortCfgWrite p v s)
  else if 8 ≤ o ∧ o ≤ 0x20 then
    some (.next (if s.carriesFlow p then s else s.wr off (BitVec.ofNat 32 (if o = 0xC then v % 65536 else v))))
  else if o = 0x40 then some (if bitAt v 0 then execGclCommit p s else .next s)
  else if 0x100 ≤ o ∧ o < 0x180 ∧ o % 16 ≠ 12 then some (execCbsWrite p (regIndex o 0x100 0x10) (o % 16 / 4) v s)
  else if 0x400 ≤ o ∧ o < 0x600 ∧ o % 32 < 20 then
    let f := regIndex o 0x400 0x20
    if o % 32 = 0 then some (.next (s.wr off (BitVec.ofNat 32 v)))
    else if o % 32 = 4 then some (.next (s.wr off (BitVec.ofNat 32 (v % 2 ^ 28))))
    else some (execPsfWrite p f ((o % 32 - 8) / 4) v s)
  else none

/-- The same for the rest of the blocks. -/
def State.ownHigh (s : State) (byHost : Bool) (off v : Nat) : Option (Host.Outcome State Fault Refusal) :=
  if off = ACC.HOLD_CTL then some (execHoldCtlWrite v s)
  else if ACC.PORT_PHY 0 ≤ off ∧ off ≤ ACC.PORT_PHY 5 ∧ (off - ACC.PORT_PHY 0) % 0x20 = 0 then some (.next (s.writePortPhy (regIndex off (ACC.PORT_PHY 0) 0x20) v))
  else if CAR.UNIT_CTL 0 ≤ off ∧ off ≤ CAR.UNIT_CTL 67 ∧ off % 16 = 0 then some (s.writeUnitCtl byHost (regIndex off (CAR.UNIT_CTL 0) 0x10) v)
  else if SCB.UNIT_CTL 0 ≤ off ∧ off ≤ SCB.UNIT_CTL 17 ∧ off % 16 = 0 then some (s.writeUnitCtl byHost (68 + regIndex off (SCB.UNIT_CTL 0) 0x10) v)
  else if off = BND.MG_CMD 0 then some (.next (s.magCmd 0 v))
  else if off = BND.MG_CMD 1 then some (.next (s.magCmd 1 v))
  else if off = NET.I2C_CMD then some (execI2cCmd v s)
  else if NET.PORT_CFG 0 ≤ off ∧ off < NET.PORT_CFG 0 + 0x10000 then
    s.ownNet ((off - NET.PORT_CFG 0) / 0x8000) ((off - NET.PORT_CFG 0) % 0x8000) v
  else if off = DAT.DAT_CMD then some (.next (s.daterCmd (bitAt v 0) (bitAt v 1) (bitAt v 2)))
  else if off = DAT.INCR then some (execIncrWrite v s)
  else if off = DAT.ALARM_CTL then
    let s := s.writeFields off v
    some (if bitAt v 1 then execAlarmDisarm s else if bitAt v 0 then execAlarmArm s else .next s)
  else if DAT.TOUT_CTL 0 ≤ off ∧ off ≤ DAT.TOUT_CTL 7 ∧ (off - DAT.TOUT_CTL 0) % 0x20 = 0 then
    let t := regIndex off (DAT.TOUT_CTL 0) 0x20
    let s := s.writeFields off v
    some (if bitAt v 1 then execTimeOutDisarm t s else if bitAt v 0 then execTimeOutArm t s else .next s)
  else if DAT.TIN_CTL 0 ≤ off ∧ off ≤ DAT.TIN_CTL 3 ∧ (off - DAT.TIN_CTL 0) % 0x20 = 0 then some (s.writeTinCtl (regIndex off (DAT.TIN_CTL 0) 0x20) v)
  else if off = SMB.SMB_CFG then some (execSmbCfgWrite v s)
  else if DBL.SQ_TAIL 0 ≤ off ∧ off ≤ DBL.RQ_HEAD 63 then
    let n := regIndex off (DBL.SQ_TAIL 0) 0x1000
    some (if off = DBL.SQ_TAIL n then execSqTail n (bits v 0 16) s else execRqHead n (bits v 0 16) s)
  else none

/-- What follows from a field that has just been set. -/
def State.afterWrite (s t : State) (off : Nat) : State :=
  if off = PWR.WAKE_EN then t.checkWake
  else if off = CNS.DOMAIN_SEL then t.showDomain
  else if off = RGS.RGS_CFG then (if !s.faultN && t.faultN then t.alertRise 0 else t)
  else if ICU.MTIMECMP_LO 0 ≤ off ∧ off ≤ ICU.MTIMECMP_HI 3 then t.checkTimer (regIndex off (ICU.MTIMECMP_LO 0) 8)
  else if off = DAT.PTP_CFG then t.servoPorts
  else if off = DAT.PPS_CTL then t.ppsUpdate
  else t

/-- REGISTER_WRITE: a write of a BAR0 register by the host, or by firmware. An offset that no block assigns is ignored and counted (R23);
an access of the host is link activity (R5). -/
def execRegisterWrite (byHost : Bool) (off v : Nat) (s : State) : Host.Outcome State Fault Refusal :=
  if 2 ^ 24 ≤ off then .fault (.outsideBar0 off)
  else if s.bar0Up = false then .next s
  else
    let s := s.heard byHost
    if (regDesc off).isNone then .next (s.bump HIF.ERR_COUNT_UNASSIGNED)
    else if s.lacks off then .next s
    else
      match s.ownLow byHost off v with
      | some o => o
      | none =>
        match s.ownMid off v with
        | some o => o
        | none =>
          match s.ownHigh byHost off v with
          | some o => o
          | none => .next (s.afterWrite (s.writeFields off v) off)

end Sys2Proof.Machine
end

