-- ==== Sys2Proof/Machine/Dispatch.lean ====
section
/-! DEFINITION. The dispatch of a command to its meaning. -/
namespace Sys2Proof.Machine

/-- The effect of a command on everything but the queue. -/
def exec (i : Instr) (s : State) : Host.Outcome State Fault Refusal :=
  match i with
  | .registerWrite byHost off v => Sys2Proof.Machine.execRegisterWrite byHost off v s
  | .handshakeWatchdog u => Sys2Proof.Machine.execHandshakeWatchdog u s
  | .paceCtlWrite v => Sys2Proof.Machine.execPaceCtlWrite v s
  | .leafDispatch n num j cars scrs => Sys2Proof.Machine.execLeafDispatch n num j cars scrs s
  | .subframeLeafDispatch n num j cars scrs => Sys2Proof.Machine.execSubframeLeafDispatch n num j cars scrs s
  | .chunkCommit e c => Sys2Proof.Machine.execChunkCommit e c s
  | .leafRelease n num => Sys2Proof.Machine.execLeafRelease n num s
  | .pictureRelease n num => Sys2Proof.Machine.execPictureRelease n num s
  | .searchBlock n num b => Sys2Proof.Machine.execSearchBlock n num b s
  | .coarseCplxPost n num => Sys2Proof.Machine.execCoarseCplxPost n num s
  | .planPost n rec => Sys2Proof.Machine.execPlanPost n rec s
  | .guardEvaluate n num => Sys2Proof.Machine.execGuardEvaluate n num s
  | .statsFolioArrival n num => Sys2Proof.Machine.execStatsFolioArrival n num s
  | .rcPost n rec => Sys2Proof.Machine.execRcPost n rec s
  | .rcCplx n num => Sys2Proof.Machine.execRcCplx n num s
  | .rcTime n => Sys2Proof.Machine.execRcTime n s
  | .rcLog n code value => Sys2Proof.Machine.execRcLog n code value s
  | .appletCallTimeout n h => Sys2Proof.Machine.execAppletCallTimeout n h s
  | .appletTrap n f => Sys2Proof.Machine.execAppletTrap n f s
  | .sqTail n idx => Sys2Proof.Machine.execSqTail n idx s
  | .rqHead n idx => Sys2Proof.Machine.execRqHead n idx s
  | .slipReread n => Sys2Proof.Machine.execSlipReread n s
  | .nopSlip n k => Sys2Proof.Machine.execNop n k s
  | .openStream n k fits => Sys2Proof.Machine.execOpenStream n k fits s
  | .closeStream n k => Sys2Proof.Machine.execCloseStream n k s
  | .streamClosed n => Sys2Proof.Machine.execStreamClosed n s
  | .setConfig n k => Sys2Proof.Machine.execSetConfig n k s
  | .setConfigDevice n k => Sys2Proof.Machine.execSetConfigDevice n k s
  | .encodePicture n k => Sys2Proof.Machine.execEncodePicture n k s
  | .decodePicture n k lost au => Sys2Proof.Machine.execDecodePicture n k lost au s
  | .flushStream n k => Sys2Proof.Machine.execFlushStream n k s
  | .recordStart n k => Sys2Proof.Machine.execRecordStart n k s
  | .recordStop n k => Sys2Proof.Machine.execRecordStop n k s
  | .markTake n k => Sys2Proof.Machine.execMark n k s
  | .readExtent n k => Sys2Proof.Machine.execReadExtent n k s
  | .queryLedger n k => Sys2Proof.Machine.execQueryLedger n k s
  | .queryStream n k => Sys2Proof.Machine.execQueryStream n k s
  | .queryDigest n k => Sys2Proof.Machine.execQueryDigest n k s
  | .returnFolio n k => Sys2Proof.Machine.execReturnFolio n k s
  | .unknownOpcode n k => Sys2Proof.Machine.execUnknownOpcode n k s
  | .completionWrite n => Sys2Proof.Machine.execCompletionWrite n s
  | .eventGroupWrite n => Sys2Proof.Machine.execEventGroupWrite n s
  | .eventQueueTimeout n => Sys2Proof.Machine.execEventQueueTimeout n s
  | .lostSlip n => Sys2Proof.Machine.execLostSlip n s
  | .msixHoldTimer v => Sys2Proof.Machine.execMsixHoldTimer v s
  | .msixUnmask v => Sys2Proof.Machine.execMsixUnmask v s
  | .hostD3hotEntry d3 pmeEn => Sys2Proof.Machine.execHostD3hotEntry d3 pmeEn s
  | .hostD0Return fnMask => Sys2Proof.Machine.execHostD0Return fnMask s
  | .rpCfgWrite n v => Sys2Proof.Machine.execRpCfgWrite n v s
  | .epochBegin => Sys2Proof.Machine.execEpochBegin s
  | .epochTaken => Sys2Proof.Machine.execEpochTaken s
  | .epochAckTimeout missing => Sys2Proof.Machine.execEpochAckTimeout missing s
  | .frameStart port k fnum => Sys2Proof.Machine.execFrameStart port k fnum s
  | .memberFrameStart port k fnum => Sys2Proof.Machine.execMemberFrameStart port k fnum s
  | .frameEnd port k => Sys2Proof.Machine.execFrameEnd port k s
  | .rowHeaderArrival port vc dt l ecc => Sys2Proof.Machine.execRowHeaderArrival port vc dt l ecc s
  | .longPacket port vc l wc crcOk data => Sys2Proof.Machine.execLongPacket port vc l wc crcOk data s
  | .lineTimeout n => Sys2Proof.Machine.execLineTimeout n s
  | .rowEmit n => Sys2Proof.Machine.execRowEmit n s
  | .rowLanded n => Sys2Proof.Machine.execRowLanded n s
  | .holdCtlWrite v => Sys2Proof.Machine.execHoldCtlWrite v s
  | .deskewSequence p lanes initial => Sys2Proof.Machine.execDeskewSequence p lanes initial s
  | .ulpsEntry p => Sys2Proof.Machine.execUlpsEntry p s
  | .ulpsExit p => Sys2Proof.Machine.execUlpsExit p s
  | .sensorLinkLoss p lanes clock => Sys2Proof.Machine.execSensorLinkLoss p lanes clock s
  | .magPresenceFall p m => Sys2Proof.Machine.execMagPresenceFall p m s
  | .magPresenceAccept p => Sys2Proof.Machine.execMagPresenceAccept p s
  | .magPerstRelease p => Sys2Proof.Machine.execMagPerstRelease p s
  | .magLinkUp p speed width => Sys2Proof.Machine.execMagLinkUp p speed width s
  | .magLinkTimeout p => Sys2Proof.Machine.execMagLinkTimeout p s
  | .magControllerReady p => Sys2Proof.Machine.execMagControllerReady p s
  | .nvmeCompletion p k ok reply damage => Sys2Proof.Machine.execNvmeCompletion p k ok reply damage s
  | .nvmeTimeout p k => Sys2Proof.Machine.execNvmeTimeout p k s
  | .commitTimer n => Sys2Proof.Machine.execCommitTimer n s
  | .pictureToBindery n num => Sys2Proof.Machine.execPictureToBindery n num s
  | .verifyCompareDone p n num equal => Sys2Proof.Machine.execVerifyCompareDone p n num equal s
  | .verifyLagExpiry p n num => Sys2Proof.Machine.execVerifyLagExpiry p n num s
  | .healthLogTimer p => Sys2Proof.Machine.execHealthLogTimer p s
  | .magRemoval p => Sys2Proof.Machine.execMagRemoval p s
  | .magLinkLoss p => Sys2Proof.Machine.execMagLinkLoss p s
  | .formatMagazine p key => Sys2Proof.Machine.execFormat p key s
  | .ejectMagazine p key => Sys2Proof.Machine.execEject p key s
  | .rescanMagazine p key => Sys2Proof.Machine.execRescan p key s
  | .deleteTake p key => Sys2Proof.Machine.execDeleteTake p key s
  | .alignmentPoint p f => Sys2Proof.Machine.execAlignmentPoint p f s
  | .packetRelease p f => Sys2Proof.Machine.execPacketRelease p f s
  | .frameTransmit p => Sys2Proof.Machine.execFrameTransmit p s
  | .gateBlockDrop p c => Sys2Proof.Machine.execGateBlockDrop p c s
  | .netLinkDown p => Sys2Proof.Machine.execNetLinkDown p s
  | .netLinkUp p => Sys2Proof.Machine.execNetLinkUp p s
  | .rxFrame p f => Sys2Proof.Machine.execRxFrame p f s
  | .announceTimeout p => Sys2Proof.Machine.execAnnounceTimeout p s
  | .ptpSendTimer p ty => Sys2Proof.Machine.execPtpSendTimer p ty s
  | .gclCommit p => Sys2Proof.Machine.execGclCommit p s
  | .gclStart p => Sys2Proof.Machine.execGclStart p s
  | .gateEntryChange p => Sys2Proof.Machine.execGateEntryChange p s
  | .cbsWrite p c which v => Sys2Proof.Machine.execCbsWrite p c which v s
  | .psfWrite p f which v => Sys2Proof.Machine.execPsfWrite p f which v s
  | .telemetrySample p => Sys2Proof.Machine.execTelemetrySample p s
  | .portCfgWrite p v => Sys2Proof.Machine.execPortCfgWrite p v s
  | .i2cCmd v => Sys2Proof.Machine.execI2cCmd v s
  | .i2cDone ack data => Sys2Proof.Machine.execI2cDone ack data s
  | .snapTime => Sys2Proof.Machine.execSnap s
  | .setTime snap step => Sys2Proof.Machine.execSet snap step s
  | .stepTime snap => Sys2Proof.Machine.execStep snap s
  | .incrWrite v => Sys2Proof.Machine.execIncrWrite v s
  | .timeRefclkLost => Sys2Proof.Machine.execTimeRefclkLost s
  | .timeRefclkReturn => Sys2Proof.Machine.execTimeRefclkReturn s
  | .timeOutArm t => Sys2Proof.Machine.execTimeOutArm t s
  | .timeOutDisarm t => Sys2Proof.Machine.execTimeOutDisarm t s
  | .timeOutEdge t => Sys2Proof.Machine.execTimeOutEdge t s
  | .timeOutPulseEnd t => Sys2Proof.Machine.execTimeOutPulseEnd t s
  | .ppsEdge => Sys2Proof.Machine.execPpsEdge s
  | .ppsPulseEnd => Sys2Proof.Machine.execPpsPulseEnd s
  | .timeInCapture u rising => Sys2Proof.Machine.execTimeInCapture u rising s
  | .timeInPop u => Sys2Proof.Machine.execTimeInPop u s
  | .alarmArm => Sys2Proof.Machine.execAlarmArm s
  | .alarmDisarm => Sys2Proof.Machine.execAlarmDisarm s
  | .alarmFire => Sys2Proof.Machine.execAlarmFire s
  | .dramTraining => Sys2Proof.Machine.execDramTraining s
  | .dramTrainingDone tries => Sys2Proof.Machine.execDramTrainingDone tries s
  | .mr4Poll c code hot => Sys2Proof.Machine.execMr4Poll c code hot s
  | .zqCalibration c => Sys2Proof.Machine.execZqCalibration c s
  | .refreshDue c => Sys2Proof.Machine.execRefreshDue c s
  | .trefwBoundary c => Sys2Proof.Machine.execTrefwBoundary c s
  | .dramCommandIssue c => Sys2Proof.Machine.execDramCommandIssue c s
  | .dramRead block engine => Sys2Proof.Machine.execDramRead block engine s
  | .dramWrite block data engine => Sys2Proof.Machine.execDramWrite block data engine s
  | .narrowWrite addr data => Sys2Proof.Machine.execNarrowWrite addr data s
  | .readDataCheck unit addr mask engine hart again => Sys2Proof.Machine.execReadDataCheck unit addr mask engine hart again s
  | .logEntryFree e => Sys2Proof.Machine.execLogEntryFree e s
  | .scrubRead => Sys2Proof.Machine.execScrubRead s
  | .scrubCtlWrite which value => Sys2Proof.Machine.execScrubCtlWrite which value s
  | .dqCentreMove c lane write => Sys2Proof.Machine.execDqCentreMove c lane write s
  | .translationWalk who va write => Sys2Proof.Machine.execTranslationWalk who va write s
  | .resumeFault id => Sys2Proof.Machine.execResume id s
  | .abortFault id => Sys2Proof.Machine.execAbort id s
  | .faultRecordTimeout => Sys2Proof.Machine.execFaultRecordTimeout s
  | .invalidateAll => Sys2Proof.Machine.execInvalidateAll s
  | .invalidateAsid asid => Sys2Proof.Machine.execInvalidateAsid asid s
  | .invalidatePage asid => Sys2Proof.Machine.execInvalidatePage asid s
  | .invalidationDone => Sys2Proof.Machine.execInvalidationDone s
  | .contextCommit a hi => Sys2Proof.Machine.execContextCommit a hi s
  | .grantFence u => Sys2Proof.Machine.execGrantFence u s
  | .startDma ch => Sys2Proof.Machine.execStart ch s
  | .stopDma ch => Sys2Proof.Machine.execStop ch s
  | .pauseDma ch => Sys2Proof.Machine.execPause ch s
  | .dmaResume ch => Sys2Proof.Machine.execDmaResume ch s
  | .dmaPaused ch => Sys2Proof.Machine.execDmaPaused ch s
  | .dmaBurst ch => Sys2Proof.Machine.execDmaBurst ch s
  | .dmaSlipComplete ch => Sys2Proof.Machine.execDmaSlipComplete ch s
  | .barrierComplete ch => Sys2Proof.Machine.execBarrierComplete ch s
  | .reqSw line => Sys2Proof.Machine.execReqSw line s
  | .beginItem u n ty len => Sys2Proof.Machine.execBegin u n ty len s
  | .itemWordWrite u n data => Sys2Proof.Machine.execItemWordWrite u n data s
  | .endItem u n => Sys2Proof.Machine.execEnd u n s
  | .singleOperationPush u n ty data => Sys2Proof.Machine.execSingleOperationPush u n ty data s
  | .popRelease u n => Sys2Proof.Machine.execPopRelease u n s
  | .popClaim u n => Sys2Proof.Machine.execPopClaim u n s
  | .itemRelease u n k => Sys2Proof.Machine.execItemRelease u n k s
  | .flushQueue n => Sys2Proof.Machine.execFlush n s
  | .queueTimeout n => Sys2Proof.Machine.execQueueTimeout n s
  | .queueDisable n => Sys2Proof.Machine.execQueueDisable n s
  | .folioAllocate p u => Sys2Proof.Machine.execFolioAllocate p u s
  | .shareFolio h u n owner => Sys2Proof.Machine.execShare h u n owner s
  | .releaseFolio h u => Sys2Proof.Machine.execRelease h u s
  | .reclaimOrphans => Sys2Proof.Machine.execReclaim s
  | .initPool p => Sys2Proof.Machine.execInit p s
  | .poolInitDone p => Sys2Proof.Machine.execPoolInitDone p s
  | .disablePool p => Sys2Proof.Machine.execDisable p s
  | .freeCacheRefill p => Sys2Proof.Machine.execFreeCacheRefill p s
  | .mckpt h ops => Sys2Proof.Machine.execMckpt h ops s
  | .lockstepMismatch p => Sys2Proof.Machine.execLockstepMismatch p s
  | .mclaim h => Sys2Proof.Machine.execMclaim h s
  | .mcomplete h n => Sys2Proof.Machine.execMcomplete h n s
  | .sourceConfigWrite n v => Sys2Proof.Machine.execSourceConfigWrite n v s
  | .swset => Sys2Proof.Machine.execSwset s
  | .timerCompare h => Sys2Proof.Machine.execTimerCompare h s
  | .storeParityError u a copyPoisoned => Sys2Proof.Machine.execStoreParityError u a copyPoisoned s
  | .storeScan u upsets => Sys2Proof.Machine.execStoreScan u upsets s
  | .interruptUnit u => Sys2Proof.Machine.execInterrupt u s
  | .dropWork u byFirmware dest => Sys2Proof.Machine.execDrop u byFirmware dest s
  | .scribeCheckpoint u state items => Sys2Proof.Machine.execScribeCheckpoint u state items s
  | .faultMessage u k detail raw addr => Sys2Proof.Machine.execFaultMessage u k detail raw addr s
  | .ackFault all c u => Sys2Proof.Machine.execAck all c u s
  | .injectFault c k u => Sys2Proof.Machine.execInject c k u s
  | .faultNHoldExpiry => Sys2Proof.Machine.execFaultNHoldExpiry s
  | .writeDrainEmpty u => Sys2Proof.Machine.execWriteDrainEmpty u s
  | .writeDrainTimeout u => Sys2Proof.Machine.execWriteDrainTimeout u s
  | .redispatch u dest => Sys2Proof.Machine.execRedispatch u dest s
  | .digestSweep held => Sys2Proof.Machine.execDigestSweep held s
  | .pinCheck p level => Sys2Proof.Machine.execPinCheck p level s
  | .keeperLockstepMismatch => Sys2Proof.Machine.execKeeperLockstepMismatch s
  | .fuseLoadDone f => Sys2Proof.Machine.execFuseLoadDone f s
  | .windowClearDone => Sys2Proof.Machine.execWindowClearDone s
  | .windowWrite off data => Sys2Proof.Machine.execWindowWrite off data s
  | .loadBundle word cs => Sys2Proof.Machine.execLoad word cs s
  | .loadComplete => Sys2Proof.Machine.execLoadComplete s
  | .ageingPut word macOk => Sys2Proof.Machine.execAgeingPut word macOk s
  | .ageingGet word => Sys2Proof.Machine.execAgeingGet word s
  | .keeperAttest word => Sys2Proof.Machine.execAttest word s
  | .keeperIdentity word => Sys2Proof.Machine.execIdentity word s
  | .keeperAlive bar0 key => Sys2Proof.Machine.execAlive bar0 key s
  | .startDeadline => Sys2Proof.Machine.execStartDeadline s
  | .powerOn => Sys2Proof.Machine.execPowerOn s
  | .supplyFault => Sys2Proof.Machine.execSupplyFault s
  | .sysResetN ns => Sys2Proof.Machine.execSysResetN ns s
  | .perstN ns => Sys2Proof.Machine.execPerstN ns s
  | .resetRelease => Sys2Proof.Machine.execResetRelease s
  | .sysRefclkLost => Sys2Proof.Machine.execSysRefclkLost s
  | .sysRefclkReturn => Sys2Proof.Machine.execSysRefclkReturn s
  | .rstKey v => Sys2Proof.Machine.execRstKey v s
  | .coldResetCommand key2 => Sys2Proof.Machine.execColdResetCommand key2 s
  | .warmResetCommand key2 => Sys2Proof.Machine.execWarmResetCommand key2 s
  | .unitReset key2 u => Sys2Proof.Machine.execUnitReset key2 u s
  | .unitResetDone => Sys2Proof.Machine.execUnitResetDone s
  | .pdReqWrite byHost k v => Sys2Proof.Machine.execPdReqWrite byHost k v s
  | .domainOnDone d => Sys2Proof.Machine.execDomainOnDone d s
  | .sleepStandby key => Sys2Proof.Machine.execSleepStandby key s
  | .sleepVault key => Sys2Proof.Machine.execSleepVault key s
  | .sleepStepDone ops => Sys2Proof.Machine.execSleepStepDone ops s
  | .pmeTurnOff => Sys2Proof.Machine.execPmeTurnOff s
  | .l2Timeout => Sys2Proof.Machine.execL2Timeout s
  | .wakeEvent src => Sys2Proof.Machine.execWakeEvent src s
  | .wakeStepDone => Sys2Proof.Machine.execWakeStepDone s
  | .smbStatus => Sys2Proof.Machine.execStatus s
  | .smbCause => Sys2Proof.Machine.execCause s
  | .smbDeviceId => Sys2Proof.Machine.execDeviceId s
  | .smbUid => Sys2Proof.Machine.execUid s
  | .smbEpochDigest => Sys2Proof.Machine.execEpochDigest s
  | .smbFaults => Sys2Proof.Machine.execFaults s
  | .resetMessage v pecOk => Sys2Proof.Machine.execReset v pecOk s
  | .wakeMessage pecOk => Sys2Proof.Machine.execWake pecOk s
  | .alertResponse => Sys2Proof.Machine.execAlertResponse s
  | .smbCfgWrite v => Sys2Proof.Machine.execSmbCfgWrite v s
  | .thermAssert => Sys2Proof.Machine.execThermAssert s
  | .thermRelease => Sys2Proof.Machine.execThermRelease s
  | .conservatorRound r => Sys2Proof.Machine.execConservatorRound r s
  | .slackAlarm d slack needs => Sys2Proof.Machine.execSlackAlarm d slack needs s
  | .voltageStep => Sys2Proof.Machine.execVoltageStep s
  | .bandDwellExpiry => Sys2Proof.Machine.execBandDwellExpiry s
  | .baselineTimeout => Sys2Proof.Machine.execBaselineTimeout s
  | .avsTransaction ok mv => Sys2Proof.Machine.execAvsTransaction ok mv s
  | .pcieLinkDown linkLost => Sys2Proof.Machine.execPcieLinkDown linkLost s
  | .pcieCorrectedError => Sys2Proof.Machine.execPcieCorrectedError s
  | .mailboxUnknownOpcode word => Sys2Proof.Machine.execMailboxUnknownOpcode word s
  | .smbusUnknownCommand => Sys2Proof.Machine.execSmbusUnknownCommand s
  | .vddFuseRamp inRange => Sys2Proof.Machine.execVddFuseRamp inRange s
  | .powerDown => Sys2Proof.Machine.execPowerDown s

end Sys2Proof.Machine
end

