-- ==== Sys2Proof/Safety.lean ====
section
/-! DEFINITION. What a state must keep, and what a command leaves alone, in the terms that the statements use. -/
namespace Sys2Proof.Machine

/-- A memory of bytes is in its canonical form: addresses rising strictly, and no byte listed that an unlisted address reads as. -/
def Memory.wf (m : Tab Byte) : Bool := Tab.wf (fun _ => 0#8) m

/-- Register file, device DRAM with its damage, and host memory are in canonical form. -/
def State.canon (s : State) : Bool :=
  Tab.wf (resetWord s.big) s.regs && Memory.wf s.dram && Tab.wf (fun _ => 0) s.damage && Memory.wf s.host

/-- The parts of the state beside the registers. `dram` and `host` are the bytes that a read of the memory returns, `damage` what
the conservation code finds inverted; every other part is the field of State of that name. -/
inductive Part where
  | dram
  | damage
  | host
  | free
  | time
  | answer
  | dater
  | net
  | bnd
  | rgs
  | harts
  | engines
  | copyCar
  | copyScb
  | mmu
  | dma
  | levels
  | queues
  | pools
  | orphans
  | chans
  | scrub
  | cat
  | power
  | keeper
  | cons
  | pads
  | rings
  | vecs
  | hostFn
  | streams
  | staged
  | taking
  | tripped
  | gone
  | big
  | pending
  | ticks
  deriving DecidableEq, Repr

/-- The part is in both states the same. -/
def Part.same (s t : State) : Part → Prop
  | .dram => ∀ a, t.dramByte a = s.dramByte a
  | .damage => ∀ b, t.damageOf b = s.damageOf b
  | .host => ∀ a, t.hostByte a = s.hostByte a
  | .free => t.free = s.free
  | .time => t.time = s.time
  | .answer => t.answer = s.answer
  | .dater => t.dater = s.dater
  | .net => t.net = s.net
  | .bnd => t.bnd = s.bnd
  | .rgs => t.rgs = s.rgs
  | .harts => t.harts = s.harts
  | .engines => t.engines = s.engines
  | .copyCar => t.copyCar = s.copyCar
  | .copyScb => t.copyScb = s.copyScb
  | .mmu => t.mmu = s.mmu
  | .dma => t.dma = s.dma
  | .levels => t.levels = s.levels
  | .queues => t.queues = s.queues
  | .pools => t.pools = s.pools
  | .orphans => t.orphans = s.orphans
  | .chans => t.chans = s.chans
  | .scrub => t.scrub = s.scrub
  | .cat => t.cat = s.cat
  | .power => t.power = s.power
  | .keeper => t.keeper = s.keeper
  | .cons => t.cons = s.cons
  | .pads => t.pads = s.pads
  | .rings => t.rings = s.rings
  | .vecs => t.vecs = s.vecs
  | .hostFn => t.hostFn = s.hostFn
  | .streams => t.streams = s.streams
  | .staged => t.staged = s.staged
  | .taking => t.taking = s.taking
  | .tripped => t.tripped = s.tripped
  | .gone => t.gone = s.gone
  | .big => t.big = s.big
  | .pending => t.pending = s.pending
  | .ticks => t.ticks = s.ticks

/-- Two register fields share no bit. -/
abbrev Fld.apart (f g : Fld) : Prop := f.off ≠ g.off ∨ f.lo + f.w ≤ g.lo ∨ g.lo + g.w ≤ f.lo
/-- A whole register as one field. -/
def Fld.whole (off : Nat) : Fld := ⟨off, 0, 32⟩

/-- From s to t nothing has changed but the parts `ps` and the register fields `fs`: every part that is not listed is the same, and
every field of every register that shares no bit with a listed field reads as before. -/
def State.frame (s t : State) (ps : List Part) (fs : List Fld) : Prop :=
  (∀ p, p ∉ ps → p.same s t) ∧ ∀ f : Fld, f.lo + f.w ≤ 32 → (∀ g ∈ fs, f.apart g) → t.get f = s.get f

/-- Register fields that the firing of the alarm may write (R326, R418, R501): its own, source 5, the event queue it is told to, the wake. -/
def alarmFields : List Fld :=
  [DAT.ALARM_CTL_FIRED, DAT.ALARM_CTL_ARMED, DAT.ALARM_CTL_LATE, srcPending 5, HIF.EVT_LOST_COUNT, ⟨PWR.WAKE_PEND, 2, 1⟩, PWR.PWR_STAT_STATE] ++
  (List.range 64).map HIF.RP_RQ_STAT_PENDING

/-- Register fields of the schedules, gate lists and the alarm that a change of the time may write (R315, R326). -/
def scheduleFields : List Fld :=
  (List.range 8).flatMap (fun t => [DAT.TOUT_STAT_ACTIVE t, DAT.TOUT_STAT_PENDING t, DAT.TOUT_STAT_SKIPPED t, DAT.TOUT_STAT_LATE t]) ++
  (List.range 2).flatMap (fun p => [NET.GCL_STAT_SKIPPED p, NET.GCL_STAT_LATE p]) ++
  (List.range 2).flatMap (fun p => (List.range 8).map (NET.CBS_CREDIT_VALUE p)) ++ alarmFields

/-- Register fields that a change of the time may write (R311, R315). -/
def timeFields : List Fld := [DAT.DAT_STAT_STEPPED, DAT.DAT_STAT_STEPS] ++ scheduleFields

/-- From s to t one message has been logged, or one more before others: unit u, kind k, class c, address addr, under the next SEQ, and
ICU source 1 is pending (R436, R437, R443). -/
def State.logged (s t : State) (u k c addr : Nat) : Prop :=
  (∃ m ∈ t.rgs.log, m.unit = u ∧ m.kind = k ∧ m.cls = c ∧ m.addr = addr ∧ m.seq = s.rgs.seq % 2 ^ 31) ∧ t.get (srcPending 1) = 1

/-- A message that is logged with class c, C0 or C1, counts there and raises source 1: the fields it writes, and the parts. -/
def lowFields (c : Nat) : List Fld := [RGS.CLASS_COUNT_COUNT c, srcPending 1]
def lowParts : List Part := [.rgs, .pads]

/-- An access of class c in an address space has a leaf that allows it, and leads to a physical address that the protection map opens
to the class (R357, R359, R362). -/
def State.mapped (s : State) (c : Nat) (eng : Option Nat) (asid va : Nat) (write : Bool) (pa : Nat) : Bool :=
  match s.leafFor eng asid va with
  | .ok (n, e) => (if write then bitAt e 3 else bitAt e 2) && pteAddr e / 2 ^ n * 2 ^ n + va % 2 ^ n == pa && (s.refusedBy c pa write).isNone
  | .error _ => false

/-- The blocks of n bytes of DRAM are undamaged, and no write to them is queued. -/
def State.sound (s : State) (pa n : Nat) : Bool :=
  s.aperture pa != some 8 && (rangeFrom (pa / 32) (ceilDiv (pa % 32 + n) 32)).all fun b => s.damageOf b == 0 && (s.queuedWrite b).isNone

/-- The pending bits of an MSI-X vector (R211, R225). -/
def vectorBits (v : Nat) : List Fld := [⟨HIF.VEC_PEND 0 + 4 * (v / 32), v % 32, 1⟩, ⟨HIF.MSIX_PBA 0 + 4 * (v / 32), v % 32, 1⟩]
/-- The parts and register fields that a completion on ring pair n may change: the pair and its BUSY, and, where the slip has to wait in D3hot or
without bus mastering, its vector's count and pending bits, and a PME (R199, R212). -/
def State.complParts (s : State) : List Part := .rings :: if s.hostFn.open then [] else [.power, .vecs, .hostFn]
def State.complFields (s : State) (n : Nat) : List Fld :=
  HIF.RP_STAT_BUSY n :: if s.hostFn.open then [] else vectorBits (s.get (HIF.RP_CFG_VECTOR n))

/-- A completion as it joins those that wait on ring pair n: marked as counted where it has to wait in D3hot or without bus mastering (R212). -/
def State.waiting (s : State) (n : Nat) (r : RetSlip) : RetSlip :=
  { r with counted := !s.hostFn.open && !r.noIrq && s.on (HIF.RP_CFG_ENABLE n) }

/-- The slip u of ring pair n has completed: its completion has joined those that wait to be written (after it, those of slips that
waited for it), and it is no longer taken (R199, R202, R208). -/
def State.answered (s t : State) (n : Nat) (u : Taken) (status extra : Nat) (w : List Nat) : Prop :=
  (∃ l, (t.ring n).compl = (s.ring n).compl ++ s.waiting n (u.completion status extra w) :: l) ∧ (t.ring n).byId u.id = none

/-- The slip u of ring pair n has completed, and nothing else has changed in the rings but what its completion lets complete. -/
def State.completes (s t : State) (n : Nat) (u : Taken) (status extra : Nat) (w : List Nat) : Prop :=
  s.answered t n u status extra w ∧ (∀ m, m ≠ n → t.ring m = s.ring m) ∧
  ((∀ e ∈ (s.ring n).taken, e.verdict = none) → t.ring n =
    { s.ring n with taken := (s.ring n).taken.filter (·.id != u.id), compl := (s.ring n).compl ++ [s.waiting n (u.completion status extra w)] })

/-- Host memory holds words at an address, each little-endian. -/
def State.hostHas (s : State) (a : Nat) (w : List Nat) : Bool := s.hostBytes a (4 * w.length) == w.flatMap (leBytes 4)

/-- A buffer that a slip of ring pair n names lies in one page, at the physical address pa, open to the host interface, and holds the
bytes l (R194, R357 to R366). -/
def State.buffer (s : State) (n va pa : Nat) (l : List Byte) : Bool :=
  s.mapped 7 none (s.get (HIF.RP_CFG_ASID n)) va false pa && decide (va % 4096 + l.length ≤ 4096) &&
  (if s.aperture pa = some 8 then s.hostBytes (s.hostAddr pa) l.length == l else s.sound pa l.length && s.dramBytes pa l.length == l)

/-- The stream that an OPEN_STREAM with a descriptor without PROOFING asks for. -/
def Taken.asks (u : Taken) (n : Nat) (secs : List RawSec) : Stream :=
  let x := { Stream.init with kind := bits (u.word 1) 8 8, prot := bits (u.word 1) 16 2, subFrame := bitAt (u.word 1) 18, rp := n,
                              secs := Sections.empty.withSecs secs [] [] }
  { x with lim := x.levelAsk.lim }

/-- The ledger's registers (R225), and those that follow the streams on the sensor ports (R245). -/
def ledgerFields : List Fld := [HIF.LEDGER_CU_CAP_UNITS, HIF.LEDGER_CU_USED_UNITS, HIF.LEDGER_SU_CAP_UNITS, HIF.LEDGER_SU_USED_UNITS]
def portFields : List Fld :=
  ACC.ACC_STAT_HOLD :: (List.range 6).flatMap fun p => [ACC.PORT_STAT_STREAMS p, ACC.PORT_DEPTH_DEPTH p, ACC.PORT_DEPTH_MAX p]
/-- The registers that show which engines are spares (R435, R464). -/
def spareFields : List Fld := [RGS.SPARE_STAT_CARRELS, RGS.SPARE_STAT_SCRIBES] ++ (List.range 86).map engSpare
/-- A slip that is staged: started, and marked so. -/
def Ring.stages (r : Ring) (u : Taken) : Ring :=
  { r with taken := r.taken.map fun e => if e.id = u.id then { e with started := true, staged := true } else e }

/-- The request region of the window holds the request r, undamaged (R469, R470). -/
def State.mbxHolds (s : State) (r : MbxReq) : Bool :=
  let a := requestOff + s.downloadBase
  s.sound a 64 && s.sound (a + 64) (min r.len 8128) && r.op == leNum (s.dramBytes a 4) && r.seq == leNum (s.dramBytes (a + 4) 4) &&
  r.len == leNum (s.dramBytes (a + 8) 4) && r.arg0 == leNum (s.dramBytes (a + 12) 4) && r.data == s.dramBytes (a + 64) (min r.len 8128)

/-- A word written to MBX_CTL is a GO, without IRQ, that finds the keeper ready to serve the request r, and the response region undamaged
for n bytes of data (R470). -/
def State.mailbox (s : State) (word : Nat) (r : MbxReq) (n : Nat) : Bool :=
  !s.power.held && s.pwState != pwVault && bitAt word 31 && !bitAt word 8 && !s.on KPR.MBX_STAT_BUSY && s.keeper.opened &&
  s.on DRC.DRC_STAT_READY && s.mbxHolds r && s.sound (responseOff + s.downloadBase) (64 + n)

/-- The mailbox holds a response: its words, its data, MBX_STAT, ICU source 254 (R470). -/
def State.responds (t : State) (seq status : Nat) (data : List Byte) : Prop :=
  t.dramBytes (responseOff + t.downloadBase) 12 = leBytes 4 seq ++ leBytes 4 status ++ leBytes 4 data.length ∧
  t.dramBytes (responseOff + t.downloadBase + 64) data.length = data ∧
  t.get KPR.MBX_STAT_DONE = 1 ∧ t.get KPR.MBX_STAT_BUSY = 0 ∧ t.get KPR.MBX_STAT_SEQ = seq % 65536 ∧ t.get (srcPending 254) = 1

/-- Register fields that answering a request may write: the mailbox, ICU source 254, the counts of merged writes. -/
def mbxFields : List Fld :=
  [KPR.MBX_CTL_IRQ, KPR.MBX_CTL_VECTOR, KPR.MBX_STAT_DONE, KPR.MBX_STAT_BUSY, KPR.MBX_STAT_SEQ, srcPending 254] ++ (List.range 8).map DRC.CH_RMW_COUNT

/-- Nothing of a take is due that only waits for the take to go on: its RECORD_START, a mark, a commit that has ended (R263, R268, R272). -/
def Take.steady (t : Take) : Bool :=
  (t.slip.isNone || !t.vols.all (·.opened)) && (t.marks.all fun m => m.wait != some []) &&
  (t.quiet || t.vols.any fun v => match v.commit with | some c => !c.done | none => false)

/-- Of what the Bindery holds, only port p's magazine, its commands and its volume have changed. -/
def State.portOnly (s t : State) (p : Nat) : Prop :=
  (∀ q, q ≠ p → t.mag q = s.mag q) ∧ t.bnd.takes = s.bnd.takes ∧ t.bnd.extents = s.bnd.extents
/-- The registers that follow the volumes and the takes (R283). -/
def volumeFields : List Fld :=
  BND.BND_STAT_TAKES :: (List.range 2).flatMap fun p => [BND.MG_SHELF_TOTAL_SHELVES p, BND.MG_SHELF_FREE_SHELVES p, BND.MG_VOLUME_ID0_ID p, BND.MG_VOLUME_ID1_ID p,
    BND.MG_VOLUME_ID2_ID p, BND.MG_VOLUME_ID3_ID p, BND.MG_STATE_TAKES_OPEN p]
/-- One port's bits of BND_STAT. -/
def presentBit (p : Nat) : Fld := ⟨BND.BND_STAT, p, 1⟩
def linkUpBit (p : Nat) : Fld := ⟨BND.BND_STAT, 2 + p, 1⟩

/-- The registers that follow the ingest queues, and the Stacks' free counts that cells, by bank, are taken from or go back to (R241, R245,
R386). -/
def queueFields : List Fld := ACC.ACC_STAT_HOLD :: (List.range 6).flatMap fun p => [ACC.PORT_DEPTH_DEPTH p, ACC.PORT_DEPTH_MAX p]
def cellFields (cells : List Nat) : List Fld := STK.STK_STAT_CELLS :: (List.range cells.length).map STK.BANK_FREE_CELLS
/-- The free counts have gone up by cells given back (R240, R389). -/
def State.cellsBack (s t : State) (cells : List Nat) : Prop :=
  (∀ k, k < 8 → t.get (STK.BANK_FREE_CELLS k) = (s.get (STK.BANK_FREE_CELLS k) + cells.getD k 0) % 2 ^ 18) ∧
  t.get STK.STK_STAT_CELLS = (s.get STK.STK_STAT_CELLS + cells.sum) % 2 ^ 18
/-- A call of rc_plan is in progress (R186). -/
def Stream.planning (x : Stream) : Bool := match x.applet with | some a => a.call.any (fun c => c.entry == .rcPlan) | none => false
/-- An applet's ecall has returned: its result is in a0 of the hart, and nothing else of the harts has changed (R187). -/
def State.result (s t : State) (h v : Nat) : Prop :=
  t.hart h = { s.hart h with regs := { (s.hart h).regs with x := (s.hart h).regs.x.set 9 (v % 2 ^ 64) } } ∧ ∀ k, k ≠ h → t.hart k = s.hart k
/-- A port's cage pins read at two levels, the other port's as before (R285, R309). -/
def State.caged (s t : State) (p : Nat) (los modabs : Bool) : Prop :=
  Tab.get (fun _ => (false, false)) t.pads.cages p = (los, modabs) ∧
  ∀ q, q ≠ p → Tab.get (fun _ => (false, false)) t.pads.cages q = Tab.get (fun _ => (false, false)) s.pads.cages q
/-- What the header of a packet that a port receives may write: the port's HS state and its count of corrected headers (R226, R245). -/
def headFields (port : Nat) : List Fld :=
  [ACC.PORT_STAT_CLK_ACTIVE port, ACC.PORT_STAT_LANE_SYNC port, ⟨ACC.ACC_STAT, 2 + port, 1⟩, ACC.PORT_ERR_ECC_CORR port]
/-- A header that is good (`ecc` 0) or corrected (1) has been received: the port shows HS mode, on the lanes of its streams where it did not
before, and a correction is counted (R226, R245). -/
def State.headed (s t : State) (port ecc : Nat) : Prop :=
  t.get (ACC.PORT_STAT_CLK_ACTIVE port) = 1 ∧
  t.get (ACC.PORT_STAT_LANE_SYNC port) =
    (if s.on (ACC.PORT_STAT_CLK_ACTIVE port) then s.get (ACC.PORT_STAT_LANE_SYNC port)
     else (2 ^ ((s.portStreams port).foldl (fun a e => max a e.2.ing.lanes) 0) - 1) % 2 ^ (ACC.PORT_STAT_LANE_SYNC port).w) ∧
  t.get (ACC.PORT_ERR_ECC_CORR port) = satAdd (ACC.PORT_ERR_ECC_CORR port).w (s.get (ACC.PORT_ERR_ECC_CORR port)) ecc
/-- An open frame no row of which is being received. -/
def Frame.quiet (f : Frame) : Bool := f.members.all fun m => m.rows.all fun r => r.st != .receiving

/-- The rows of the members' queues that make up the row to be emitted next (R231). -/
def Stream.headRows (x : Stream) (f : Frame) : List IngRow := (x.partsOf f.emitted).flatMap fun q => (f.member q.1).rows.filter fun r => r.line == q.2

/-- The credits of a port's classes, which every account brings up to date (R302). -/
def creditFields (p : Nat) : List Fld := (List.range 8).map (NET.CBS_CREDIT_VALUE p)
/-- The frames that wait in class queue c of port p (R298). -/
def State.netQueue (s : State) (p c : Nat) : List NetFrame := ((s.port p).cls c).queue
/-- The tokens of filter i of port p: full where none are listed (R304, R305). -/
def State.bucket (s : State) (p i : Nat) : Nat := (Tab.get (fun _ => none) (s.port p).tokens i).getD (creditUnit * s.get (NET.PSF_CBS_BYTES p i))
/-- The pictures that a -20 flow may choose at its alignment point k (R296). -/
def State.fitAt (s : State) (v : Flow) (w : NetP) (k : Nat) : List Pic :=
  (s.stream v.stream).pics.filter fun q => decide (v.nextPic ≤ q.num) &&
    decide (q.exposure + 1000 * w.mediaDelay ≤ k * 1000000000 * (s.stream v.stream).geo.rateDen / max 1 (s.stream v.stream).geo.rateNum) &&
    (q.released || ((s.stream v.stream).subFrame && ((s.stream v.stream).packetAt w q 0).isSome))
/-- The flow after its packet, and the frame it has put into the class queue (R294, R295). -/
def Flow.after (v : Flow) (marker : Bool) (now len : Nat) : Flow :=
  { v with seq := (v.seq + 1) % 2 ^ 32, sending := if marker then v.sending.tail else v.sending, j := if marker then 0 else v.j + 1, lastStart := now, lastLen := len }
def State.mediaFrame (s : State) (f : Nat) (v : Flow) (w : NetP) (q : Pic) (due : Nat) (late : Bool) (pkt : List Byte × Bool) : NetFrame :=
  let payload := (if w.media = 0 then beBytes 2 (v.seq / 65536) else []) ++ pkt.1
  { body := .media f q.num v.j v.seq (q.exposure * 90000 / 1000000000 % 2 ^ 32) pkt.2 payload, len := max (58 + w.extra + payload.length) 64,
    queued := s.nowNs, due, late }

/-- What a write of x leaves in a field that holds `old`, under its access code (R6). -/
def Acc.written (a : Acc) (old x : Nat) : Nat :=
  match a with
  | .rw lo hi => if lo ≤ x ∧ x ≤ hi then x else old
  | .ro => old
  | .w1c => old - Nat.land old x
  | .own => old
/-- No field of the register has a rule of its own. -/
def RegDesc.plain (d : RegDesc) : Bool := d.fields.all fun q => q.2.2 != .own
/-- The fields of the register at an offset. -/
def RegDesc.flds (d : RegDesc) (off : Nat) : List Fld := d.fields.map fun q => ⟨off, q.1, q.2.1⟩
/-- The registers whose fields have the plain codes, but a write of which bears on something else (R318, R324, R354, R359, R416, R444, R501,
R519). -/
def sideRegs : List Nat :=
  [PWR.WAKE_EN, CNS.DOMAIN_SEL, RGS.RGS_CFG, DAT.PTP_CFG, DAT.PPS_CTL] ++ (List.range 8).map (fun i => ICU.MTIMECMP_LO 0 + 4 * i) ++
  (List.range 8).flatMap (fun i => [MPR.SCRUB_RANGE_BASE i, MPR.SCRUB_RANGE_PAGES i]) ++ (List.range 256).map MMU.CTX_LO

/-- The parts that reporting a fault message may change (R437 to R443): the Registrar, and what its class actions act on. -/
def reportParts : List Part := [.free, .rgs, .harts, .engines, .mmu, .queues, .cat, .power, .pads, .rings, .vecs, .hostFn, .streams, .gone]

/-- The parts of the state that a command may change, short of taking a reset. Registers are no part: they are spoken of field by
field. -/
def touches : Instr → List Part
  | .registerWrite _ _ _ => reportParts ++ [.dram, .damage, .host, .dater, .net, .bnd, .dma, .levels, .pools, .orphans, .chans, .scrub, .keeper, .cons, .staged, .taking, .tripped]
  | .handshakeWatchdog _ => reportParts
  | .paceCtlWrite _ => [.streams, .staged, .taking]
  | .leafDispatch _ _ _ _ _ => [.dram, .damage, .free, .engines, .mmu, .pools, .chans, .streams]
  | .subframeLeafDispatch _ _ _ _ _ => [.dram, .damage, .free, .engines, .mmu, .pools, .chans, .streams]
  | .chunkCommit _ _ => reportParts ++ [.dram, .damage, .pools, .chans]
  | .leafRelease _ _ => reportParts ++ [.dram, .damage, .host, .pools, .chans]
  | .pictureRelease _ _ => reportParts ++ [.dram, .damage, .host, .pools, .chans]
  | .searchBlock _ _ _ => [.streams]
  | .coarseCplxPost _ _ => [.harts, .streams]
  | .planPost _ _ => [.answer, .harts, .streams]
  | .guardEvaluate _ _ => reportParts ++ [.dram, .damage, .pools, .chans]
  | .statsFolioArrival _ _ => reportParts ++ [.dram, .damage, .pools, .orphans, .chans]
  | .rcPost _ _ => [.answer, .harts, .streams]
  | .rcCplx _ _ => [.answer, .harts]
  | .rcTime _ => [.answer, .harts]
  | .rcLog _ _ _ => [.answer, .harts, .streams]
  | .appletCallTimeout _ _ => reportParts ++ [.dram, .damage, .pools, .orphans, .chans]
  | .appletTrap _ _ => reportParts ++ [.dram, .damage, .pools, .orphans, .chans]
  | .sqTail _ _ => [.power, .rings]
  | .rqHead _ _ => [.power, .rings]
  | .slipReread _ => [.power, .rings, .vecs, .hostFn]
  | .nopSlip _ _ => [.power, .rings, .vecs, .hostFn]
  | .openStream _ _ _ => reportParts ++ [.staged]
  | .closeStream _ _ => reportParts ++ [.dram, .damage, .host, .net, .chans, .staged, .tripped]
  | .streamClosed _ => [.host, .free, .net, .harts, .power, .rings, .vecs, .hostFn, .streams, .tripped]
  | .setConfig _ _ => reportParts ++ [.staged]
  | .setConfigDevice _ _ => reportParts ++ [.staged, .taking]
  | .encodePicture _ _ => reportParts
  | .decodePicture _ _ _ _ => reportParts ++ [.dram, .damage, .host, .pools, .orphans, .chans]
  | .flushStream _ _ => reportParts ++ [.dram, .damage, .host, .chans, .staged]
  | .recordStart _ _ => [.free, .bnd, .power, .rings, .vecs, .hostFn, .streams]
  | .recordStop _ _ => reportParts ++ [.bnd]
  | .markTake _ _ => [.bnd, .power, .rings, .vecs, .hostFn]
  | .readExtent _ _ => [.bnd, .power, .rings, .vecs, .hostFn]
  | .queryLedger _ _ => [.power, .rings, .vecs, .hostFn]
  | .queryStream _ _ => [.free, .power, .rings, .vecs, .hostFn]
  | .queryDigest _ _ => [.power, .rings, .vecs, .hostFn]
  | .returnFolio _ _ => reportParts ++ [.dram, .damage, .host, .pools, .orphans, .chans]
  | .unknownOpcode _ _ => [.power, .rings, .vecs, .hostFn]
  | .completionWrite _ => [.host, .power, .rings, .vecs, .hostFn, .streams]
  | .eventGroupWrite _ => [.host, .power, .rings, .vecs, .hostFn]
  | .eventQueueTimeout _ => [.host, .power, .rings, .vecs, .hostFn]
  | .lostSlip _ => [.rings]
  | .msixHoldTimer _ => [.host, .power, .vecs, .hostFn]
  | .msixUnmask _ => [.host, .hostFn]
  | .hostD3hotEntry _ _ => [.hostFn]
  | .hostD0Return _ => [.host, .power, .rings, .vecs, .hostFn, .streams]
  | .rpCfgWrite _ _ => [.rings]
  | .epochBegin => [.free, .cat, .staged, .taking]
  | .epochTaken => reportParts ++ [.dram, .damage, .host, .net, .chans, .staged, .taking, .tripped]
  | .epochAckTimeout _ => reportParts ++ [.dram, .damage, .host, .net, .chans, .staged, .taking, .tripped]
  | .frameStart _ _ _ => [.streams, .tripped]
  | .memberFrameStart _ _ _ => [.streams]
  | .frameEnd _ _ => [.streams, .tripped]
  | .rowHeaderArrival _ _ _ _ _ => [.harts, .streams, .tripped]
  | .longPacket _ _ _ _ _ _ => [.streams, .tripped]
  | .lineTimeout _ => [.streams, .tripped]
  | .rowEmit _ => [.streams, .tripped]
  | .rowLanded _ => [.engines, .streams]
  | .holdCtlWrite _ => [.tripped]
  | .deskewSequence _ _ _ => []
  | .ulpsEntry _ => []
  | .ulpsExit _ => []
  | .sensorLinkLoss _ _ _ => reportParts
  | .magPresenceFall _ _ => [.bnd, .rings, .staged]
  | .magPresenceAccept _ => [.bnd, .rings, .staged]
  | .magPerstRelease _ => [.bnd, .rings, .staged]
  | .magLinkUp _ _ _ => reportParts ++ [.bnd, .staged]
  | .magLinkTimeout _ => reportParts ++ [.bnd, .staged]
  | .magControllerReady _ => reportParts ++ [.bnd, .staged]
  | .nvmeCompletion _ _ _ _ _ => reportParts ++ [.dram, .damage, .host, .answer, .bnd, .chans, .staged]
  | .nvmeTimeout _ _ => reportParts ++ [.bnd, .staged]
  | .commitTimer _ => reportParts ++ [.bnd]
  | .pictureToBindery _ _ => reportParts ++ [.bnd]
  | .verifyCompareDone _ _ _ _ => reportParts ++ [.bnd]
  | .verifyLagExpiry _ _ _ => reportParts ++ [.bnd]
  | .healthLogTimer _ => [.bnd, .rings, .staged]
  | .magRemoval _ => reportParts ++ [.bnd, .staged]
  | .magLinkLoss _ => reportParts ++ [.bnd, .staged]
  | .formatMagazine _ _ => reportParts ++ [.bnd, .staged]
  | .ejectMagazine _ _ => reportParts ++ [.bnd, .staged]
  | .rescanMagazine _ _ => reportParts ++ [.bnd, .staged]
  | .deleteTake _ _ => reportParts ++ [.bnd, .staged]
  | .alignmentPoint _ _ => [.net, .power, .rings, .vecs, .hostFn, .streams]
  | .packetRelease _ _ => [.net, .power, .rings, .vecs, .hostFn, .streams]
  | .frameTransmit _ => [.answer, .dater, .net, .power, .rings, .vecs, .hostFn, .streams]
  | .gateBlockDrop _ _ => [.net, .power, .rings, .vecs, .hostFn, .streams]
  | .netLinkDown _ => reportParts ++ [.net]
  | .netLinkUp _ => [.net, .power, .pads, .rings, .vecs, .hostFn, .streams]
  | .rxFrame _ _ => [.free, .time, .answer, .dater, .net, .harts, .power, .rings]
  | .announceTimeout _ => [.dater]
  | .ptpSendTimer _ _ => [.dater, .net]
  | .gclCommit _ => [.net, .levels]
  | .gclStart _ => [.net, .levels]
  | .gateEntryChange _ => [.net, .levels]
  | .cbsWrite _ _ _ _ => [.net]
  | .psfWrite _ _ _ _ => [.net]
  | .telemetrySample _ => [.free, .net]
  | .portCfgWrite _ _ => [.net, .power, .rings, .vecs, .hostFn, .streams]
  | .i2cCmd _ => [.net]
  | .i2cDone _ _ => [.net]
  | .snapTime => [.dater]
  | .setTime _ _ => [.dater]
  | .stepTime _ => [.dater]
  | .incrWrite _ => []
  | .timeRefclkLost => reportParts ++ [.dater]
  | .timeRefclkReturn => [.dater]
  | .timeOutArm _ => [.dater]
  | .timeOutDisarm _ => [.dater]
  | .timeOutEdge _ => [.dater, .streams]
  | .timeOutPulseEnd _ => [.dater]
  | .ppsEdge => [.dater]
  | .ppsPulseEnd => [.dater]
  | .timeInCapture _ _ => [.dater, .power]
  | .timeInPop _ => [.dater]
  | .alarmArm => [.power, .rings]
  | .alarmDisarm => []
  | .alarmFire => [.power, .rings]
  | .dramTraining => [.pads]
  | .dramTrainingDone _ => reportParts ++ [.dram, .chans]
  | .mr4Poll _ _ _ => reportParts
  | .zqCalibration _ => [.dram, .chans]
  | .refreshDue _ => [.dram, .chans]
  | .trefwBoundary _ => [.dram, .chans]
  | .dramCommandIssue _ => [.dram, .damage, .engines, .chans]
  | .dramRead _ _ => [.dram, .answer, .chans]
  | .dramWrite _ _ _ => [.dram, .engines, .chans]
  | .narrowWrite _ _ => reportParts ++ [.dram, .answer, .chans]
  | .readDataCheck _ _ _ _ _ _ => reportParts ++ [.damage, .answer]
  | .logEntryFree _ => []
  | .scrubRead => reportParts ++ [.dram, .damage, .chans, .scrub]
  | .scrubCtlWrite _ _ => [.scrub]
  | .dqCentreMove _ _ _ => [.cons]
  | .translationWalk _ _ _ => reportParts ++ [.dram, .damage, .host, .answer, .dma, .chans]
  | .resumeFault _ => reportParts ++ [.dram, .damage, .host, .dma, .chans]
  | .abortFault _ => reportParts ++ [.dram, .damage, .host, .dma, .chans]
  | .faultRecordTimeout => reportParts ++ [.dram, .damage, .host, .dma, .chans]
  | .invalidateAll => [.engines, .mmu]
  | .invalidateAsid _ => [.engines, .mmu]
  | .invalidatePage _ => [.engines, .mmu]
  | .invalidationDone => []
  | .contextCommit _ _ => [.engines, .mmu]
  | .grantFence _ => [.free, .rgs, .engines, .mmu, .queues, .power, .pads, .rings, .vecs, .hostFn, .streams, .gone]
  | .startDma _ => reportParts ++ [.dram, .damage, .host, .dma, .chans]
  | .stopDma _ => reportParts ++ [.dram, .damage, .host, .dma, .chans]
  | .pauseDma _ => []
  | .dmaResume _ => []
  | .dmaPaused _ => []
  | .dmaBurst _ => reportParts ++ [.dram, .damage, .host, .dma, .chans]
  | .dmaSlipComplete _ => reportParts ++ [.dram, .damage, .host, .dma, .chans]
  | .barrierComplete _ => reportParts ++ [.dram, .damage, .host, .dma, .chans]
  | .reqSw _ => []
  | .beginItem _ _ _ _ => reportParts ++ [.answer]
  | .itemWordWrite _ _ _ => [.queues, .power, .rings, .vecs, .hostFn]
  | .endItem _ _ => [.answer, .queues, .power, .rings, .vecs, .hostFn]
  | .singleOperationPush _ _ _ _ => reportParts ++ [.answer]
  | .popRelease _ _ => reportParts ++ [.answer, .tripped]
  | .popClaim _ _ => reportParts ++ [.answer]
  | .itemRelease _ _ _ => [.queues]
  | .flushQueue _ => [.queues, .power, .rings, .vecs, .hostFn]
  | .queueTimeout _ => [.queues]
  | .queueDisable _ => [.queues]
  | .folioAllocate _ _ => [.dram, .damage, .free, .answer, .engines, .mmu, .pools, .chans]
  | .shareFolio _ _ _ _ => [.answer, .pools]
  | .releaseFolio _ _ => reportParts ++ [.dram, .damage, .answer, .pools, .orphans, .chans]
  | .reclaimOrphans => [.dram, .damage, .free, .engines, .mmu, .pools, .orphans, .chans]
  | .initPool _ => []
  | .poolInitDone _ => [.dram, .damage, .free, .engines, .mmu, .pools, .chans]
  | .disablePool _ => [.free, .engines, .mmu, .pools]
  | .freeCacheRefill _ => [.dram, .damage, .free, .engines, .mmu, .pools, .chans]
  | .mckpt _ _ => reportParts ++ [.dram, .damage, .host, .chans]
  | .lockstepMismatch _ => reportParts
  | .mclaim _ => [.answer, .harts]
  | .mcomplete _ _ => [.harts]
  | .sourceConfigWrite _ _ => []
  | .swset => []
  | .timerCompare _ => [.harts]
  | .storeParityError _ _ _ => reportParts
  | .storeScan _ _ => reportParts
  | .interruptUnit _ => [.engines, .queues]
  | .dropWork _ _ _ => [.engines, .queues, .streams]
  | .scribeCheckpoint _ _ _ => [.engines, .queues]
  | .faultMessage _ _ _ _ _ => reportParts
  | .ackFault _ _ _ => [.rgs]
  | .injectFault _ _ _ => reportParts
  | .faultNHoldExpiry => [.rgs]
  | .writeDrainEmpty _ => [.engines]
  | .writeDrainTimeout _ => reportParts ++ [.dram, .chans]
  | .redispatch _ _ => [.engines, .streams]
  | .digestSweep _ => reportParts
  | .pinCheck _ _ => reportParts
  | .keeperLockstepMismatch => reportParts ++ [.keeper]
  | .fuseLoadDone _ => reportParts ++ [.keeper, .cons]
  | .windowClearDone => [.dram, .damage, .chans, .keeper]
  | .windowWrite _ _ => reportParts ++ [.dram, .damage, .chans]
  | .loadBundle _ _ => reportParts ++ [.dram, .damage, .host, .chans, .keeper]
  | .loadComplete => reportParts ++ [.dram, .damage, .host, .copyCar, .copyScb, .chans, .keeper]
  | .ageingPut _ _ => reportParts ++ [.dram, .damage, .host, .chans, .keeper, .cons]
  | .ageingGet _ => reportParts ++ [.dram, .damage, .host, .chans, .keeper]
  | .keeperAttest _ => reportParts ++ [.dram, .damage, .host, .chans, .keeper]
  | .keeperIdentity _ => reportParts ++ [.dram, .damage, .host, .chans, .keeper]
  | .keeperAlive _ _ => [.free, .cat, .keeper, .cons, .pads, .staged, .taking]
  | .startDeadline => [.harts, .power, .keeper]
  | .powerOn => []
  | .supplyFault => [.power]
  | .sysResetN _ => [.free, .power]
  | .perstN _ => [.free, .power]
  | .resetRelease => [.power, .keeper, .cons, .pads, .hostFn, .streams, .staged, .taking]
  | .sysRefclkLost => [.power]
  | .sysRefclkReturn => [.power]
  | .rstKey _ => [.power]
  | .coldResetCommand _ => [.power]
  | .warmResetCommand _ => [.power]
  | .unitReset _ _ => reportParts ++ [.net, .bnd, .staged]
  | .unitResetDone => [.bnd, .engines, .power, .rings, .staged, .gone]
  | .pdReqWrite _ _ _ => reportParts ++ [.net, .bnd, .staged]
  | .domainOnDone _ => [.engines]
  | .sleepStandby _ => [.power, .pads]
  | .sleepVault _ => [.power, .pads]
  | .sleepStepDone _ => reportParts ++ [.dram, .damage, .host, .net, .bnd, .dma, .levels, .pools, .orphans, .chans, .scrub, .cons, .staged, .taking, .tripped]
  | .pmeTurnOff => [.power, .hostFn]
  | .l2Timeout => [.power]
  | .wakeEvent _ => [.power, .hostFn]
  | .wakeStepDone => reportParts ++ [.bnd, .copyCar, .copyScb, .keeper, .cons, .staged]
  | .smbStatus => [.answer]
  | .smbCause => [.answer]
  | .smbDeviceId => [.answer]
  | .smbUid => [.answer]
  | .smbEpochDigest => [.answer]
  | .smbFaults => [.answer]
  | .resetMessage _ _ => [.power]
  | .wakeMessage _ => [.power]
  | .alertResponse => [.answer, .pads]
  | .smbCfgWrite _ => [.pads]
  | .thermAssert => reportParts
  | .thermRelease => [.pads]
  | .conservatorRound _ => reportParts ++ [.cons]
  | .slackAlarm _ _ _ => reportParts ++ [.cons]
  | .voltageStep => [.cons, .streams, .staged, .taking]
  | .bandDwellExpiry => [.cons]
  | .baselineTimeout => reportParts ++ [.cons]
  | .avsTransaction _ _ => reportParts ++ [.cons]
  | .pcieLinkDown _ => reportParts
  | .pcieCorrectedError => reportParts
  | .mailboxUnknownOpcode _ => reportParts ++ [.dram, .damage, .host, .chans, .keeper]
  | .smbusUnknownCommand => []
  | .vddFuseRamp _ => [.keeper]
  | .powerDown => []

/-- The command answers a next state, and P holds of it. -/
def Answers (c : Instr) (s : State) (P : State → Prop) : Prop := ∃ t, exec c s = .next t ∧ P t

end Sys2Proof.Machine
end

