-- ==== Sys2Proof/Certificates/Slice0/Obligations.lean ====
section
/-! DEFINITION. The statements for the provers. Every statement about a command says in its conclusion that the command answers a next
state (`Answers`), what that state holds, and what is unchanged (`State.frame`). -/
section
open Sys2Proof Sys2Proof.Machine

/-- One step, with a command waiting: the command in front, run on the state with the rest of the queue. -/
def Obligations.StepRunsTheCommandInFront : Prop :=
  (∀ (s : State) (c : Instr) (r : List Instr), step { s with pending := c :: r } = exec c { s with pending := r })

/-- One step with no command waiting: a tick of the Dater (R310). That time passes on an empty queue is the model's choice (log entry 3). -/
def Obligations.AnEmptyQueueIsOneTick : Prop :=
  (∀ (s : State), s.pending = [] → s.dater.cmds = [] →
    ∃ t, step s = .next t ∧ t.time = (s.time + s.get DAT.INCR_VALUE) % (2 ^ 48 * secUnits) ∧ t.ticks = s.ticks + 1 ∧ s.frame t [.time, .ticks] [])

/-- The state after reset (R487, the Reset columns of the register maps). Words that no map gives are 0, the model's choice (log entry 8). -/
def Obligations.ResetLeavesTheMapsValues : Prop :=
  ( State.reset.canon = true ∧ State.reset.pending = [] ∧ State.reset.power.held = true ∧ State.reset.time = 0 ∧
      (∀ off, State.reset.rd off = resetWord State.reset.big off) ∧ (∀ n, (State.reset.stream n).state = .closed) ∧
      (∀ n, State.reset.ring n = Ring.init) ∧ State.reset.rgs.log = [])

/-- Every step keeps the canonical form of the register file, the memories and the damage. -/
def Obligations.StepsKeepTheCanonicalForm : Prop :=
  (∀ (s t : State), s.canon = true → step s = .next t →
    t.canon = true)

/-- What a command may change at most, for all commands at once: the parts of its row in `touches`, unless the device has gone into reset. Host memory is spared by a reset too. -/
def Obligations.CommandsTouchOnlyTheirParts : Prop :=
  (∀ (c : Instr) (s t : State), s.canon = true → exec c s = .next t →
    (t.power.held = true ∨ ∀ p, p ∉ touches c → p.same s t) ∧ (Part.host ∉ touches c → Part.host.same s t))

/-- The grade, the queue and the ticks outlive every command (R1, R2). -/
def Obligations.CommandsLeaveGradeQueueAndTicks : Prop :=
  (∀ (c : Instr) (s t : State), exec c s = .next t →
    t.big = s.big ∧ t.pending = s.pending ∧ t.ticks = s.ticks)

/-- Every command completes from every state; only a register write outside BAR0 (R23) stops. -/
def Obligations.OnlyAnOffsetOutsideBar0Stops : Prop :=
  (∀ (c : Instr) (s : State), (∀ h off v, c = .registerWrite h off v → off < 2 ^ 24) →
    ∃ t, exec c s = .next t) ∧
  (∀ (s : State) (h : Bool) (off v : Nat), 2 ^ 24 ≤ off →
    exec (.registerWrite h off v) s = .fault (.outsideBar0 off))

/-- Writes of registers by their access codes (R6, R7, R23). A value outside a field's range leaves it: the model's choice (log entry 9). So is that a write of a register that the grade lacks changes nothing (log entry 115). -/
def Obligations.RegisterWritesFollowTheirAccessCodes : Prop :=
  (∀ (s : State) (h : Bool) (off v : Nat) (d : RegDesc), s.bar0Up = true → off < 2 ^ 24 → regDesc off = some d → d.plain = true → off ∉ sideRegs → s.lacks off = false →
    Answers (.registerWrite h off v) s fun t =>
      (∀ q ∈ d.fields, t.get ⟨off, q.1, q.2.1⟩ = q.2.2.written ((s.heard h).get ⟨off, q.1, q.2.1⟩) (bits v q.1 q.2.1)) ∧ (s.heard h).frame t [] (d.flds off)) ∧
  (∀ (s : State) (h : Bool) (off v : Nat), s.bar0Up = true → off < 2 ^ 24 → regDesc off = none →
    Answers (.registerWrite h off v) s fun t =>
      t.get HIF.ERR_COUNT_UNASSIGNED = satAdd HIF.ERR_COUNT_UNASSIGNED.w ((s.heard h).get HIF.ERR_COUNT_UNASSIGNED) 1 ∧ (s.heard h).frame t [] [HIF.ERR_COUNT_UNASSIGNED]) ∧
  (∀ (s : State) (off : Nat), regDesc off = none →
    s.readReg off = 0) ∧
  (∀ (s : State) (h : Bool) (off v : Nat), s.bar0Up = true → off < 2 ^ 24 → (regDesc off).isSome = true → s.lacks off = true →
    Answers (.registerWrite h off v) s fun t => (s.heard h).frame t [] [] ∧ s.readReg off = 0 ∧ t.readReg off = 0) ∧
  (∀ (s : State) (h : Bool) (off v : Nat), s.bar0Up = false → off < 2 ^ 24 →
    Answers (.registerWrite h off v) s fun t => s.frame t [] []) ∧
  (∀ (s : State) (h : Bool) (off v : Nat) (d : RegDesc), s.bar0Up = true → (off = PWR.WAKE_EN ∨ off = RGS.RGS_CFG ∨ off = DAT.PPS_CTL ∨ off = CNS.DOMAIN_SEL ∧ s.big = true) → regDesc off = some d →
    Answers (.registerWrite h off v) s fun t =>
      (∀ q ∈ d.fields, t.get ⟨off, q.1, q.2.1⟩ = q.2.2.written ((s.heard h).get ⟨off, q.1, q.2.1⟩) (bits v q.1 q.2.1)) ∧
      (s.heard h).frame t (if off = PWR.WAKE_EN then [.power] else if off = RGS.RGS_CFG then [.pads] else if off = DAT.PPS_CTL then [.dater] else [])
      (d.flds off ++ (if off = PWR.WAKE_EN then [PWR.PWR_STAT_STATE] else if off = CNS.DOMAIN_SEL then [CNS.DOMAIN_STAT_VALID, CNS.DOMAIN_STAT_TRIM_MV, CNS.DOMAIN_STAT_SLACK] else []))) ∧
  (∀ (s : State) (h : Bool) (v : Nat), s.bar0Up = true → s.big = false →
    Answers (.registerWrite h CNS.DOMAIN_SEL v) s fun t => (s.heard h).frame t [] []) ∧
  (∀ (s : State) (h : Bool) (i v : Nat), s.bar0Up = true → i < 8 →
    exec (.registerWrite h (ICU.MTIMECMP_LO 0 + 4 * i) v) s = exec (.timerCompare (i / 2)) ((s.heard h).put (.whole (ICU.MTIMECMP_LO 0 + 4 * i)) v))

/-- Registers whose writing is a command of its own: REGISTER_WRITE of them is that command. -/
def Obligations.RegistersWithRulesRunTheirCommands : Prop :=
  (∀ (s : State) (h : Bool) (v : Nat) , s.bar0Up = true →
    exec (.registerWrite h TOP.PACE_CTL v) s = exec (.paceCtlWrite v) (s.heard h)) ∧
  (∀ (s : State) (h : Bool) (v : Nat) , s.bar0Up = true →
    exec (.registerWrite h KPR.ALIVE v) s = exec (.keeperAlive h v) (s.heard h)) ∧
  (∀ (s : State) (h : Bool) (v : Nat) , s.bar0Up = true →
    exec (.registerWrite h RST.RST_KEY v) s = exec (.rstKey v) (s.heard h)) ∧
  (∀ (s : State) (h : Bool) (v : Nat) , s.bar0Up = true → bits v 12 2 = 0 →
    exec (.registerWrite h RST.RST_CMD v) s = exec (.coldResetCommand (bits v 16 16)) (s.heard h)) ∧
  (∀ (s : State) (h : Bool) (v : Nat) , s.bar0Up = true → bits v 12 2 = 1 →
    exec (.registerWrite h RST.RST_CMD v) s = exec (.warmResetCommand (bits v 16 16)) (s.heard h)) ∧
  (∀ (s : State) (h : Bool) (v : Nat) , s.bar0Up = true → bits v 12 2 = 2 →
    exec (.registerWrite h RST.RST_CMD v) s = exec (.unitReset (bits v 16 16) (bits v 0 12)) (s.heard h)) ∧
  (∀ (s : State) (h : Bool) (v : Nat) , s.bar0Up = true → bits v 0 2 = 1 →
    exec (.registerWrite h PWR.SLEEP_CTL v) s = exec (.sleepStandby (bits v 16 16)) (s.heard h)) ∧
  (∀ (s : State) (h : Bool) (v : Nat) , s.bar0Up = true → bits v 0 2 = 2 →
    exec (.registerWrite h PWR.SLEEP_CTL v) s = exec (.sleepVault (bits v 16 16)) (s.heard h)) ∧
  (∀ (s : State) (h : Bool) (v : Nat) (i : Nat) , s.bar0Up = true → i < 4 →
    exec (.registerWrite h (PWR.PD_REQ0 + 4 * i) v) s = exec (.pdReqWrite h i v) (s.heard h)) ∧
  (∀ (s : State) (h : Bool) (v : Nat) , s.bar0Up = true →
    exec (.registerWrite h RGS.ACK v) s = exec (.ackFault (bitAt v 15) (bits v 12 3) (bits v 0 12)) (s.heard h)) ∧
  (∀ (s : State) (h : Bool) (v : Nat) , s.bar0Up = true →
    exec (.registerWrite h RGS.INJECT v) s = exec (.injectFault (bits v 20 3) (bits v 12 8) (bits v 0 12)) (s.heard h)) ∧
  (∀ (s : State) (h : Bool) (v : Nat) (i : Nat) , s.bar0Up = true → i < 64 →
    exec (.registerWrite h (HIF.RP_CFG i) v) s = exec (.rpCfgWrite i v) (s.heard h)) ∧
  (∀ (s : State) (h : Bool) (v : Nat) (i : Nat) , s.bar0Up = true → i < 64 → bitAt v 0 = false →
    exec (.registerWrite h (HIF.MSIX_CTL i) v) s = exec (.msixUnmask (some i)) (s.heard h)) ∧
  (∀ (s : State) (h : Bool) (v : Nat) , s.bar0Up = true → bitAt v 0 = true →
    exec (.registerWrite h ICU.SWSET v) s = exec (.swset) (s.heard h)) ∧
  (∀ (s : State) (h : Bool) (v : Nat) (i : Nat) , s.bar0Up = true → 1 ≤ i ∧ i ≤ 255 →
    exec (.registerWrite h (srcReg i) v) s = exec (.sourceConfigWrite i v) (s.heard h)) ∧
  (∀ (s : State) (h : Bool) (v : Nat) , s.bar0Up = true → bits v 0 2 = 0 →
    exec (.registerWrite h MMU.INV_CTL v) s = exec (.invalidateAll) (s.heard h)) ∧
  (∀ (s : State) (h : Bool) (v : Nat) , s.bar0Up = true → bits v 0 2 = 1 →
    exec (.registerWrite h MMU.INV_CTL v) s = exec (.invalidateAsid (bits v 8 8)) (s.heard h)) ∧
  (∀ (s : State) (h : Bool) (v : Nat) , s.bar0Up = true → bits v 0 2 = 2 →
    exec (.registerWrite h MMU.INV_CTL v) s = exec (.invalidatePage (bits v 8 8)) (s.heard h)) ∧
  (∀ (s : State) (h : Bool) (v : Nat) , s.bar0Up = true → bits v 30 2 = 1 →
    exec (.registerWrite h MMU.FLT_CTL v) s = exec (.resumeFault (bits v 0 8)) (s.heard h)) ∧
  (∀ (s : State) (h : Bool) (v : Nat) , s.bar0Up = true → bits v 30 2 = 2 →
    exec (.registerWrite h MMU.FLT_CTL v) s = exec (.abortFault (bits v 0 8)) (s.heard h)) ∧
  (∀ (s : State) (h : Bool) (v : Nat) (i : Nat) , s.bar0Up = true → i < 256 →
    exec (.registerWrite h (MMU.CTX_HI i) v) s = exec (.contextCommit i (bits v 0 16)) (s.heard h)) ∧
  (∀ (s : State) (h : Bool) (v : Nat) , s.bar0Up = true →
    exec (.registerWrite h DMA.REQ_SW v) s = exec (.reqSw (bits v 0 6)) (s.heard h)) ∧
  (∀ (s : State) (h : Bool) (v : Nat) , s.bar0Up = true → bitAt v 0 = true →
    exec (.registerWrite h STK.Q_CTL v) s = exec (.flushQueue ((s.heard h).get STK.QSEL_QUEUE)) (s.heard h)) ∧
  (∀ (s : State) (h : Bool) (v : Nat) , s.bar0Up = true → bitAt v 0 = true →
    exec (.registerWrite h LND.ORPHAN_CTL v) s = exec (.reclaimOrphans) (s.heard h)) ∧
  (∀ (s : State) (h : Bool) (v : Nat) , s.bar0Up = true →
    exec (.registerWrite h MPR.SCRUB_CTL v) s = exec (.scrubCtlWrite 0 v) (s.heard h)) ∧
  (∀ (s : State) (h : Bool) (v : Nat) (i : Nat) , s.bar0Up = true → i < 8 →
    exec (.registerWrite h (MPR.SCRUB_RANGE_BASE i) v) s = exec (.scrubCtlWrite (1 + i) v) (s.heard h)) ∧
  (∀ (s : State) (h : Bool) (v : Nat) (i : Nat) , s.bar0Up = true → i < 8 →
    exec (.registerWrite h (MPR.SCRUB_RANGE_PAGES i) v) s = exec (.scrubCtlWrite (9 + i) v) (s.heard h)) ∧
  (∀ (s : State) (h : Bool) (v : Nat) (i : Nat) , s.bar0Up = true → i < 16 → bitAt v 31 = true →
    exec (.registerWrite h (MPR.LOG_ADDR_HI i) v) s = exec (.logEntryFree i) (s.heard h)) ∧
  (∀ (s : State) (h : Bool) (v : Nat) , s.bar0Up = true →
    exec (.registerWrite h ACC.HOLD_CTL v) s = exec (.holdCtlWrite v) (s.heard h)) ∧
  (∀ (s : State) (h : Bool) (v : Nat) , s.bar0Up = true →
    exec (.registerWrite h NET.I2C_CMD v) s = exec (.i2cCmd v) (s.heard h)) ∧
  (∀ (s : State) (h : Bool) (v : Nat) (i : Nat) , s.bar0Up = true → i < 2 → (i = 1 → s.big = true) →
    exec (.registerWrite h (NET.PORT_CFG i) v) s = exec (.portCfgWrite i v) (s.heard h)) ∧
  (∀ (s : State) (h : Bool) (v : Nat) , s.bar0Up = true →
    exec (.registerWrite h DAT.INCR v) s = exec (.incrWrite v) (s.heard h)) ∧
  (∀ (s : State) (h : Bool) (v : Nat) , s.bar0Up = true →
    exec (.registerWrite h SMB.SMB_CFG v) s = exec (.smbCfgWrite v) (s.heard h)) ∧
  (∀ (s : State) (h : Bool) (v : Nat) (i : Nat) , s.bar0Up = true → i < 64 →
    exec (.registerWrite h (DBL.SQ_TAIL i) v) s = exec (.sqTail i (bits v 0 16)) (s.heard h)) ∧
  (∀ (s : State) (h : Bool) (v : Nat) (i : Nat) , s.bar0Up = true → i < 64 →
    exec (.registerWrite h (DBL.RQ_HEAD i) v) s = exec (.rqHead i (bits v 0 16)) (s.heard h))

/-- Writes of whole blocks (R337). -/
def Obligations.WritesOfWholeBlocksAreQueued : Prop :=
  (∀ (s : State) (block : Nat) (data : List Byte) (engine : Option Nat) (c : Nat), s.get DRC.DRC_STAT_READY = 1 → (∀ i, engine = some i → s.get (MMU.GRANT_FENCED i) = 0) → c = s.chanAt (32 * block) → (∃ q ∈ (s.chan c).writeQ, q.block = block) →
    Answers (.dramWrite block data engine) s fun t =>
      (t.chan c).writeQ.map (·.block) = (s.chan c).writeQ.map (·.block) ∧
      (∀ (k : Nat) (q r : DramReq), (s.chan c).writeQ[k]? = some q → (t.chan c).writeQ[k]? = some r → r = if q.block = block then { q with data, engine } else q) ∧
      (t.chan c) = { s.chan c with writeQ := (t.chan c).writeQ } ∧ (∀ d, d ≠ c → t.chan d = s.chan d) ∧
      (∀ q, t.queuedWrite block = some q → q.data = data) ∧ (∀ a, a / 32 ≠ block → t.dramByte a = s.dramByte a) ∧
      (∀ q i, s.queuedWrite block = some q → q.engine = some i → (t.engine i).writes = (s.engine i).writes - 1) ∧
      (∀ i, (∀ q, s.queuedWrite block = some q → q.engine ≠ some i) → t.engine i = s.engine i) ∧ s.frame t [.dram, .chans, .engines] []) ∧
  (∀ (s : State) (block : Nat) (data : List Byte) (engine : Option Nat) (c : Nat), s.get DRC.DRC_STAT_READY = 1 → (∀ i, engine = some i → s.get (MMU.GRANT_FENCED i) = 0) → c = s.chanAt (32 * block) → (∀ q ∈ (s.chan c).writeQ, q.block ≠ block) → (s.chan c).writeQ.length < 64 →
    Answers (.dramWrite block data engine) s fun t =>
      (∃ q, (t.chan c).writeQ = (s.chan c).writeQ ++ [q] ∧ q.block = block ∧ q.data = data) ∧
      (t.chan c) = { s.chan c with writeQ := (t.chan c).writeQ } ∧ (∀ d, d ≠ c → t.chan d = s.chan d) ∧ (∀ a, a / 32 ≠ block → t.dramByte a = s.dramByte a) ∧ s.frame t [.dram, .chans] [])

/-- The sources of the ICU (R419), the effective threshold and MEIP (R420). `State.raise` is what every event of a source calls. -/
def Obligations.SourcesArePendingMergedAndDelivered : Prop :=
  (∀ (s : State) (n : Nat), 1 ≤ n ∧ n ≤ 255 →
    (s.raise n).get (srcPending n) = 1 ∧ s.frame (s.raise n) [] [srcPending n]) ∧
  (∀ (s : State) (n : Nat), s.canon = true → s.get (srcPending n) = 1 →
    s.raise n = s) ∧
  (∀ (s : State) (h n : Nat), 1 ≤ n → (s.get (srcPriority n) = 0 ∨ s.get (srcClaimed n) = 1) →
    s.deliverable h n = false ∧ s.claimable h ≠ n) ∧
  (∀ (s : State) (h n : Nat) (r : List Nat), 1 ≤ n ∧ n ≤ 255 → s.hartRuns h = true → (s.hart h).user = false → (s.hart h).claims = n :: r → s.get (srcClaimed n) = 1 →
    Answers (.mcomplete h n) (s.raise n) fun t =>
      t.get (srcPending n) = 1 ∧ t.get (srcClaimed n) = 0 ∧ (t.hart h).claims = r ∧
      (∀ g, s.get (srcTarget n) = g → t.effective g < s.get (srcPriority n) → t.deliverable g n = true ∧ t.meip g = true) ∧
      s.frame t [.harts] [srcPending n, srcClaimed n]) ∧
  (∀ (s : State) (h : Nat), ((s.hart h).claims = [] → s.effective h = s.get (ICU.THRESHOLD_LEVEL h)) ∧
      (∀ n r, (s.hart h).claims = n :: r → s.effective h = max (s.get (ICU.THRESHOLD_LEVEL h)) (s.get (srcPriority n)))) ∧
  (∀ (s : State) (h : Nat), s.meip h = true ↔ ∃ n, 1 ≤ n ∧ n ≤ 255 ∧ s.get (srcTarget n) = h ∧ s.get (srcPending n) = 1 ∧ s.get (srcClaimed n) = 0 ∧ s.effective h < s.get (srcPriority n))

/-- TARGET, PRIORITY and THRESHOLD (R422). -/
def Obligations.SourceTargetsAreStatic : Prop :=
  (∀ (s : State) (n v : Nat), 1 ≤ n ∧ n ≤ 255 → (s.get (srcPending n) = 1 ∨ s.get (srcClaimed n) = 1) → bits v 8 2 ≠ s.get (srcTarget n) →
    Answers (.sourceConfigWrite n v) s fun t =>
      t.get ICU.ICU_ERR_TARGET_BUSY = satAdd ICU.ICU_ERR_TARGET_BUSY.w (s.get ICU.ICU_ERR_TARGET_BUSY) 1 ∧ s.frame t [] [ICU.ICU_ERR_TARGET_BUSY]) ∧
  (∀ (s : State) (n v : Nat), 1 ≤ n ∧ n ≤ 255 → ((s.get (srcPending n) = 0 ∧ s.get (srcClaimed n) = 0) ∨ bits v 8 2 = s.get (srcTarget n)) →
    Answers (.sourceConfigWrite n v) s fun t =>
      t.get (srcTarget n) = bits v 8 2 ∧ t.get (srcPriority n) = bits v 0 4 ∧
      (∀ h r, (s.hart h).claims = n :: r → t.effective h = max (s.get (ICU.THRESHOLD_LEVEL h)) (bits v 0 4)) ∧
      (∀ h, t.hart h = s.hart h) ∧ s.frame t [] [srcTarget n, srcPriority n]) ∧
  (∀ (s : State) (b : Bool) (h v : Nat), s.bar0Up = true → h < 4 →
    Answers (.registerWrite b (ICU.THRESHOLD h) v) s fun t =>
      t.get (ICU.THRESHOLD_LEVEL h) = bits v 0 4 ∧ bits v 0 4 ≤ t.effective h ∧ (∀ g, t.hart g = (s.heard b).hart g) ∧ (s.heard b).frame t [] [.whole (ICU.THRESHOLD h)])

/-- SNAP, SET, STEP and INCR_WRITE (R310 to R312): what the counter takes, what is ignored, and what SNAP shows. That the next tick is the step with an empty queue is the model's choice (log entry 3). What the specification leaves open in it is the model's choice: log entry 134. -/
def Obligations.CounterCommandsFollowTheirRules : Prop :=
  (∀ (s : State), s.pending = [] → s.dater.cmds = [] →
    Answers .snapTime s fun t =>
      t.get DAT.DAT_STAT_SNAP_VALID = 0 ∧ (∀ o ∈ [DAT.SNAP_SEC_LO, DAT.SNAP_SEC_HI, DAT.SNAP_NS], (t.rd o).toNat = 2 ^ 32 - 1) ∧
      s.frame t [.dater] [.whole DAT.SNAP_SEC_LO, .whole DAT.SNAP_SEC_HI, .whole DAT.SNAP_NS, DAT.DAT_STAT_SNAP_VALID] ∧
      (∃ u, step t = .next u ∧ u.time = (s.time + s.get DAT.INCR_VALUE) % timeWrap ∧
      (u.rd DAT.SNAP_SEC_LO).toNat = u.time / secUnits % 2 ^ 32 ∧
      (u.rd DAT.SNAP_SEC_HI).toNat = u.time / secUnits / 2 ^ 32 % 2 ^ 16 + u.time % 2 ^ 28 / 2 ^ 12 * 2 ^ 16 ∧
      (u.rd DAT.SNAP_NS).toNat = u.time % secUnits / 2 ^ 28 ∧
      u.get DAT.DAT_STAT_SNAP_VALID = 1 ∧ u.get DAT.DAT_STAT_SNAP_SEQ = (s.get DAT.DAT_STAT_SNAP_SEQ + 1) % 64 ∧
      s.frame u [.time, .ticks] [.whole DAT.SNAP_SEC_LO, .whole DAT.SNAP_SEC_HI, .whole DAT.SNAP_NS, DAT.DAT_STAT_SNAP_VALID, DAT.DAT_STAT_SNAP_SEQ])) ∧
  (∀ (s : State) (snap step' : Bool), s.pending = [] → s.dater.cmds = [] → s.get DAT.SERVO_STAT_STATE = 0 → s.get DAT.SET_NS_VALUE < 1000000000 →
    Answers (.setTime snap step') s fun t => t.time = s.time ∧ t.get DAT.DAT_STAT_STEPS = s.get DAT.DAT_STAT_STEPS ∧
      (∃ u, step t = .next u ∧
      u.time = ((s.rd DAT.SET_SEC_LO).toNat + 2 ^ 32 * ((s.rd DAT.SET_SEC_HI).toNat % 2 ^ 16)) * secUnits +
      s.get DAT.SET_NS_VALUE * 2 ^ 28 + (s.rd DAT.SET_SEC_HI).toNat / 2 ^ 16 * 2 ^ 12 ∧
      u.get DAT.DAT_STAT_STEPPED = 1 ∧ u.get DAT.DAT_STAT_STEPS = min (s.get DAT.DAT_STAT_STEPS + 1) 255)) ∧
  (∀ (s : State) (snap : Bool), s.pending = [] → s.dater.cmds = [] → s.get DAT.SERVO_STAT_STATE = 0 → s.time < 2 ^ 47 * secUnits →
    Answers (.stepTime snap) s fun t => t.time = s.time ∧
      (∃ u, step t = .next u ∧
      Int.ofNat u.time = max 0 (Int.ofNat (s.time + s.get DAT.INCR_VALUE) + (s.rd DAT.STEP_NS).toInt * 2 ^ 28) ∧
      u.get DAT.DAT_STAT_STEPPED = 1 ∧ u.get DAT.DAT_STAT_STEPS = min (s.get DAT.DAT_STAT_STEPS + 1) 255)) ∧
  (∀ (s : State) (c : Instr), (c = .setTime false false ∨ c = .setTime false true ∨ c = .stepTime false) → s.get DAT.SERVO_STAT_STATE ≠ 0 →
    Answers c s fun t => t.get DAT.DAT_STAT_WRITE_IGNORED = 1 ∧ s.frame t [] [DAT.DAT_STAT_WRITE_IGNORED]) ∧
  (∀ (s : State) (v : Nat), s.get DAT.SERVO_STAT_STATE ≠ 0 →
    Answers (.incrWrite v) s fun t => t.get DAT.DAT_STAT_WRITE_IGNORED = 1 ∧ s.frame t [] [DAT.DAT_STAT_WRITE_IGNORED]) ∧
  (∀ (s : State) (c : Instr), (c = .setTime true false ∨ c = .setTime true true ∨ c = .stepTime true) → s.get DAT.SERVO_STAT_STATE ≠ 0 →
    exec c s = exec .snapTime (s.put DAT.DAT_STAT_WRITE_IGNORED 1)) ∧
  (∀ (s : State) (step : Bool), s.get DAT.SERVO_STAT_STATE = 0 → 1000000000 ≤ s.get DAT.SET_NS_VALUE →
    Answers (.setTime false step) s fun t => t.get DAT.DAT_STAT_WRITE_IGNORED = 1 ∧ s.frame t [] [DAT.DAT_STAT_WRITE_IGNORED]) ∧
  (∀ (s : State) (v : Nat), s.get DAT.SERVO_STAT_STATE = 0 → 0x3FF7CED9 ≤ v → v ≤ 0x40083127 →
    Answers (.incrWrite v) s fun t => t.get DAT.INCR_VALUE = v ∧ s.frame t [] [DAT.INCR_VALUE]) ∧
  (∀ (s : State) (v : Nat), s.get DAT.SERVO_STAT_STATE = 0 → (v < 0x3FF7CED9 ∨ 0x40083127 < v) →
    Answers (.incrWrite v) s fun t => t = s)

/-- The alarm (R326). The pulse per second and the time inputs (R324, R325). What the specification leaves open in it is the model's choice: log entries 32, 109. -/
def Obligations.AlarmPulseAndTimeInputs : Prop :=
  (∀ (s : State), s.time < s.alarmTime →
    Answers .alarmArm s fun t => t.get DAT.ALARM_CTL_ARMED = 1 ∧ s.frame t [] [DAT.ALARM_CTL_ARMED]) ∧
  (∀ (s : State), s.alarmTime ≤ s.time →
    Answers .alarmArm s fun t =>
      t.get DAT.ALARM_CTL_FIRED = 1 ∧ t.get DAT.ALARM_CTL_ARMED = 0 ∧ (s.alarmTime < s.time → t.get DAT.ALARM_CTL_LATE = 1) ∧
      t.get (srcPending 5) = 1 ∧ (s.on DAT.ALARM_CTL_WAKE → t.bitOn PWR.WAKE_PEND 2 = true)) ∧
  (∀ (s : State), s.on DAT.ALARM_CTL_ARMED → s.alarmTime ≤ s.time → s.on DAT.ALARM_CTL_WAKE = false → s.on ICU.ALARM_EVT_EN = false →
    Answers .alarmFire s fun t => t.get DAT.ALARM_CTL_FIRED = 1 ∧ t.get DAT.ALARM_CTL_ARMED = 0 ∧ t.get (srcPending 5) = 1 ∧
      s.frame t [] [DAT.ALARM_CTL_FIRED, DAT.ALARM_CTL_ARMED, srcPending 5]) ∧
  (∀ (s : State), s.on DAT.ALARM_CTL_ARMED → s.alarmTime ≤ s.time →
    Answers .alarmFire s fun t =>
      t.get DAT.ALARM_CTL_FIRED = 1 ∧ t.get DAT.ALARM_CTL_ARMED = 0 ∧ t.get DAT.ALARM_CTL_LATE = s.get DAT.ALARM_CTL_LATE ∧
      t.get (srcPending 5) = 1 ∧ (s.on DAT.ALARM_CTL_WAKE → t.bitOn PWR.WAKE_PEND 2 = true)) ∧
  (∀ (s : State), Answers .alarmDisarm s fun t => t.get DAT.ALARM_CTL_ARMED = 0 ∧ s.frame t [] [DAT.ALARM_CTL_ARMED]) ∧
  (∀ (s : State), s.on DAT.PPS_CTL_ENABLE → (s.on DAT.PPS_CTL_LOCK_GATE = false ∨ s.get DAT.SERVO_STAT_STATE = 3) → s.time % secUnits < s.get DAT.INCR_VALUE → s.dater.ppsFrom ≤ s.nowNs / 1000000000 * 1000000000 →
    Answers .ppsEdge s fun t =>
      t.dater.pps = some (s.nowNs / 1000000000 * 1000000000 + s.get DAT.PPS_CTL_WIDTH_MS * 1000000) ∧ s.frame t [.dater] []) ∧
  (∀ (s : State), (s.on DAT.PPS_CTL_ENABLE = false ∨ s.on DAT.PPS_CTL_LOCK_GATE = true ∧ s.get DAT.SERVO_STAT_STATE ≠ 3) →
    Answers .ppsEdge s fun t => t = s) ∧
  (∀ (s : State) (e : Nat), s.dater.pps = some e → e ≤ s.nowNs →
    Answers .ppsPulseEnd s fun t => t.dater = { s.dater with pps := none } ∧ s.frame t [.dater] []) ∧
  (∀ (s : State) (i : Nat) (rising : Bool), i < 4 → (bitAt (s.get (DAT.TIN_CTL_EDGE i)) (if rising then 0 else 1) = true) → (s.tin i).length < 16 → s.on (DAT.TIN_CTL_WAKE i) = false →
    Answers (.timeInCapture i rising) s fun t =>
      t.tin i = s.tin i ++ [(s.time / 2 ^ 26 * 2 ^ 26, rising)] ∧ t.get (DAT.TIN_STAT_COUNT i) = (s.tin i).length + 1 ∧
      t.get (DAT.TIN_STAT_VALID i) = 1 ∧ t.get (srcPending (6 + i)) = 1) ∧
  (∀ (s : State) (i : Nat) (rising : Bool), (bitAt (s.get (DAT.TIN_CTL_EDGE i)) (if rising then 0 else 1) = true) → 16 ≤ (s.tin i).length →
    Answers (.timeInCapture i rising) s fun t =>
      t.get (DAT.TIN_STAT_OVERFLOW i) = min (s.get (DAT.TIN_STAT_OVERFLOW i) + 1) 4095 ∧ s.frame t [] [DAT.TIN_STAT_OVERFLOW i]) ∧
  (∀ (s : State) (i : Nat) (a : Nat × Bool) (r : List (Nat × Bool)), r.length < 16 → s.tin i = a :: r →
    Answers (.timeInPop i) s fun t =>
      t.tin i = r ∧ t.get (DAT.TIN_STAT_SEQ i) = (s.get (DAT.TIN_STAT_SEQ i) + 1) % 64 ∧ t.get (DAT.TIN_STAT_COUNT i) = r.length ∧
      (r = [] → t.get (DAT.TIN_STAT_VALID i) = 0 ∧ (t.rd (DAT.TIN_CAP_NS i)).toNat = 2 ^ 32 - 1) ∧
      s.frame t [.dater] [DAT.TIN_STAT_SEQ i, DAT.TIN_STAT_COUNT i, DAT.TIN_STAT_VALID i, DAT.TIN_STAT_HEAD_RISING i,
      .whole (DAT.TIN_CAP_SEC_LO i), .whole (DAT.TIN_CAP_SEC_HI i), .whole (DAT.TIN_CAP_NS i)])

/-- Time outputs (R321 to R323): what ARM checks and takes, DISARM, an edge, the end of a pulse. What the specification leaves open in it is the model's choice: log entry 31. -/
def Obligations.TimeOutputsFollowTheirSchedules : Prop :=
  (∀ (s : State) (n : Nat), (s.schedOf n).ok (s.get (DAT.TOUT_START_NS_VALUE n)) = false →
    Answers (.timeOutArm n) s fun t => t.get (DAT.TOUT_STAT_REFUSED n) = 1 ∧ s.frame t [] [DAT.TOUT_STAT_REFUSED n]) ∧
  (∀ (s : State) (n k : Nat), (s.schedOf n).ok (s.get (DAT.TOUT_START_NS_VALUE n)) = true → s.leadNs ≤ (s.schedOf n).edge k → (∀ i, i < k → (s.schedOf n).edge i < s.leadNs) → (k = 0 ∨ (s.schedOf n).num ≠ 0) →
    Answers (.timeOutArm n) s fun t =>
      (t.tout n).pending = some { s.schedOf n with n := k } ∧ (t.tout n).running = (s.tout n).running ∧
      t.get (DAT.TOUT_STAT_PENDING n) = 1 ∧ t.get (DAT.TOUT_STAT_SKIPPED n) = min k 65535 ∧ (k ≠ 0 → t.get (DAT.TOUT_STAT_LATE n) = 1) ∧
      (∀ m, m ≠ n → t.tout m = s.tout m) ∧
      s.frame t [.dater] [DAT.TOUT_STAT_ACTIVE n, DAT.TOUT_STAT_PENDING n, DAT.TOUT_STAT_SKIPPED n, DAT.TOUT_STAT_LATE n]) ∧
  (∀ (s : State) (n : Nat), (s.schedOf n).ok (s.get (DAT.TOUT_START_NS_VALUE n)) = true → (s.schedOf n).num = 0 → (s.schedOf n).start < s.leadNs →
    Answers (.timeOutArm n) s fun t =>
      (t.tout n).pending = none ∧ (t.tout n).running = (s.tout n).running ∧ t.get (DAT.TOUT_STAT_SKIPPED n) = 1 ∧
      t.get (DAT.TOUT_STAT_LATE n) = 1 ∧ t.get (DAT.TOUT_STAT_PENDING n) = 0) ∧
  (∀ (s : State) (n : Nat), Answers (.timeOutDisarm n) s fun t =>
      (t.tout n).running = none ∧ (t.tout n).pending = none ∧ (t.tout n).pulse = (s.tout n).pulse ∧
      t.get (DAT.TOUT_STAT_ACTIVE n) = 0 ∧ t.get (DAT.TOUT_STAT_PENDING n) = 0 ∧ (∀ m, m ≠ n → t.tout m = s.tout m) ∧
      s.frame t [.dater] [DAT.TOUT_STAT_ACTIVE n, DAT.TOUT_STAT_PENDING n]) ∧
  (∀ (s : State) (n d : Nat) (c : Sched), n < 8 → (s.tout n).running = some c → (s.tout n).pending = none → d = c.next → d ≤ s.nowNs → (s.tout n).pulse.all (· ≤ d) = true →
    Answers (.timeOutEdge n) s fun t =>
      (t.tout n).pulse = some (d + c.width) ∧ (t.tout n).running = c.after ∧ t.get (srcPending (10 + n)) = 1) ∧
  (∀ (s : State) (n d e : Nat) (c : Sched), n < 8 → (s.tout n).running = some c → (s.tout n).pending = none → d = c.next → d ≤ s.nowNs → (s.tout n).pulse = some e → d < e →
    Answers (.timeOutEdge n) s fun t =>
      (t.tout n).pulse = some e ∧ (t.tout n).running = c.after ∧
      t.get (DAT.TOUT_STAT_SKIPPED n) = min (s.get (DAT.TOUT_STAT_SKIPPED n) + 1) 65535 ∧ t.get (DAT.TOUT_STAT_LATE n) = 1 ∧
      s.frame t [.dater] [DAT.TOUT_STAT_ACTIVE n, DAT.TOUT_STAT_PENDING n, DAT.TOUT_STAT_SKIPPED n, DAT.TOUT_STAT_LATE n]) ∧
  (∀ (s : State) (n e : Nat), (s.tout n).pulse = some e → e ≤ s.nowNs →
    Answers (.timeOutPulseEnd n) s fun t =>
      t.tout n = { s.tout n with pulse := none } ∧ (∀ m, m ≠ n → t.tout m = s.tout m) ∧
      s.frame t [.dater] [DAT.TOUT_STAT_ACTIVE n, DAT.TOUT_STAT_PENDING n])

/-- TIME_REFCLK lost and returned (R314), and the receipt timeout of Announce messages (R316 to R318). What the specification leaves open in it is the model's choice: log entry 107. -/
def Obligations.ServoLosesItsClockOrItsMaster : Prop :=
  (∀ (s : State), s.dater.refclk = true → s.rgs.raises 0x150 3 = false → s.servoState = 0 →
    Answers .timeRefclkLost s fun t =>
      t.dater = { s.dater with refclk := false } ∧ t.get DAT.DAT_STAT_REFCLK_LOST = 1 ∧ t.get DAT.DAT_STAT_REFCLK_OK = 0 ∧ s.logged t 0x150 0x40 3 0 ∧
      s.frame t [.dater, .rgs, .pads] [DAT.DAT_STAT_REFCLK_LOST, DAT.DAT_STAT_REFCLK_OK, RGS.CLASS_COUNT_COUNT 3, srcPending 1]) ∧
  (∀ (s : State), s.dater.refclk = true → s.rgs.raises 0x150 3 = false → s.servoState ≠ 0 →
    Answers .timeRefclkLost s fun t =>
      t.servoState = 1 ∧ t.get DAT.DAT_STAT_REFCLK_LOST = 1 ∧ t.get DAT.DAT_STAT_REFCLK_OK = 0 ∧ s.logged t 0x150 0x40 3 0) ∧
  (∀ (s : State), Answers .timeRefclkReturn s fun t =>
      t.dater = { s.dater with refclk := true } ∧ t.get DAT.DAT_STAT_REFCLK_OK = 1 ∧ s.frame t [.dater] [DAT.DAT_STAT_REFCLK_OK]) ∧
  (∀ (s : State) (p : Nat) (m : Master), s.servoRuns = true → m ∈ s.servo.masters → (∀ k ∈ s.servo.masters, k.port = p) → s.servoState ≠ 0 →
    Answers (.announceTimeout p) s fun t =>
      t.servoState = 4 ∧ t.servo.masters = [] ∧ t.servo.master = none ∧ s.frame t [.dater] [DAT.SERVO_STAT_STATE, DAT.INCR_VALUE]) ∧
  (∀ (s : State) (p : Nat) (m k : Master), s.servoRuns = true → m ∈ s.servo.masters → m.port = p → k ∈ s.servo.masters → k.port = 1 - p → p < 2 → (∀ i ∈ s.servo.masters, i.port ≠ p → i = k ∨ betterData k.data i.data = true ∧ betterData i.data k.data = false) →
    Answers (.announceTimeout p) s fun t =>
      t.get DAT.SERVO_STAT_PORT = 1 - p ∧ t.servo.master = some k.id ∧ s.frame t [.dater] [DAT.SERVO_STAT_PORT]) ∧
  (∀ (s : State) (p : Nat), s.servoRuns = false →
    Answers (.announceTimeout p) s fun t => t = s)

/-- The ICU (R416 to R422). Pairs (R410, R411) and the handshake watchdog (R10). What the specification leaves open in it is the model's choice: log entries 93, 105, 128. -/
def Obligations.CuratorsClaimSourcesAndFailOver : Prop :=
  (∀ (s : State) (h n : Nat), 1 ≤ n → n ≤ 255 → s.hartRuns h = true → (s.hart h).user = false → s.deliverable h n = true → (∀ m, m < 256 → 1 ≤ m → s.deliverable h m = true → s.get (srcPriority m) < s.get (srcPriority n) ∨ s.get (srcPriority m) = s.get (srcPriority n) ∧ n ≤ m) →
    Answers (.mclaim h) s fun t =>
      t.answer = [n] ∧ t.get (srcPending n) = 0 ∧ t.get (srcClaimed n) = 1 ∧ t.hart h = { s.hart h with claims := n :: (s.hart h).claims } ∧
      (∀ g, g ≠ h → t.hart g = s.hart g) ∧ s.frame t [.answer, .harts] [srcPending n, srcClaimed n]) ∧
  (∀ (s : State) (h : Nat), s.hartRuns h = true → (s.hart h).user = false → (∀ m, m < 256 → 1 ≤ m → s.deliverable h m = false) →
    Answers (.mclaim h) s fun t => t.answer = [0] ∧ s.frame t [.answer] []) ∧
  (∀ (s : State) (h n : Nat) (r : List Nat), s.hartRuns h = true → (s.hart h).user = false → (s.hart h).claims = n :: r →
    Answers (.mcomplete h n) s fun t =>
      t.get (srcClaimed n) = 0 ∧ t.hart h = { s.hart h with claims := r } ∧ (∀ g, g ≠ h → t.hart g = s.hart g) ∧ s.frame t [.harts] [srcClaimed n]) ∧
  (∀ (s : State) (h n : Nat), s.hartRuns h = true → (s.hart h).user = false → (s.hart h).claims.head? ≠ some n →
    Answers (.mcomplete h n) s fun t =>
      t.get ICU.ICU_ERR_BAD_COMPLETE = satAdd ICU.ICU_ERR_BAD_COMPLETE.w (s.get ICU.ICU_ERR_BAD_COMPLETE) 1 ∧ s.frame t [] [ICU.ICU_ERR_BAD_COMPLETE]) ∧
  (∀ (s : State) (h : Nat) (c : Instr), s.hartRuns h = true → (s.hart h).user = true → (c = .mclaim h ∨ c = .mcomplete h 0) →
    Answers c s fun t =>
      (t.hart h).user = false ∧ (t.hart h).regs.mcause = 2 ∧ (t.hart h).regs.mepc = (s.hart h).regs.pc ∧ (t.hart h).regs.pc = (s.hart h).mtvec / 4 * 4 ∧
      bits (t.hart h).regs.mstatus 11 2 = 0 ∧ (t.hart h).regs.x = (s.hart h).regs.x ∧ (t.hart h).claims = (s.hart h).claims ∧
      (∀ g, g ≠ h → t.hart g = s.hart g) ∧ s.frame t [.harts] []) ∧
  (∀ (s : State), Answers .swset s fun t => t.get (srcPending 255) = 1 ∧ s.frame t [] [srcPending 255]) ∧
  (∀ (s : State) (h : Nat), Answers (.timerCompare h) s fun t =>
      t.hart h = { s.hart h with mtip := decide (s.pair (ICU.MTIMECMP_LO h) (ICU.MTIMECMP_HI h) ≤ s.nowNs % 2 ^ 64) } ∧
      (∀ g, g ≠ h → t.hart g = s.hart g) ∧ s.frame t [.harts] []) ∧
  (∀ (s c : State) (h : Nat) (ops : List CoreOp), s.hartRuns h = true → c = s.coreRun h ops → c.power.held = false → (c.hart h).user = false → (∀ l ∈ (c.hart h).dcache, l.dirty = false) →
    Answers (.mckpt h ops) s fun t =>
      t.hart h = { c.hart h with save := { (c.hart h).regs with mtimecmp := c.pair (ICU.MTIMECMP_LO h) (ICU.MTIMECMP_HI h) } } ∧
      (∀ g, g ≠ h → t.hart g = c.hart g) ∧ c.frame t [.harts] []) ∧
  (∀ (s c : State) (h : Nat) (ops : List CoreOp), s.hartRuns h = true → c = s.coreRun h ops → c.power.held = false → (c.hart h).user = false →
    Answers (.mckpt h ops) s fun t =>
      (t.power.held = false → (t.hart h).save = { (c.hart h).regs with mtimecmp := c.pair (ICU.MTIMECMP_LO h) (ICU.MTIMECMP_HI h) } ∧
      (t.hart h).regs = (c.hart h).regs ∧ (t.hart h).dcache.map (·.data) = (c.hart h).dcache.map (·.data) ∧ (∀ l ∈ (t.hart h).dcache, l.dirty = false) ∧
      (∀ a, (∀ l ∈ (c.hart h).dcache, l.dirty = true → a < l.addr ∨ l.addr + l.data.length ≤ a) → t.dramByte a = c.dramByte a))) ∧
  (∀ (s : State) (h i : Nat) (p : Pmp), s.hartRuns h = true → (s.hart h).user = false →
    s.coreOp h .fenceI = s.setHart h { s.hart h with icache := [] } ∧
      (∀ a, s.coreOp h (.cboInval a) = s.setHart h { s.hart h with dcache := (s.hart h).dcache.filter (·.addr != a / 64 * 64) }) ∧
      (((s.hart h).regs.pmp.getD i Pmp.off).locked = true → s.coreOp h (.setPmp i p) = s)) ∧
  (∀ (s : State) (p h q : Nat), h < 4 → p < 5 → s.get (hartPair h) = p → (∀ g, g < 4 → g ≠ h → s.get (hartPair g) ≠ p) → (s.hart h).stopped = false → s.get ICU.ICU_STAT_SPARE_LEFT = 1 → s.rgs.raises (0xC0 + 2 * p) 2 = false → q < 5 → s.pairsInUse.contains q = false → s.faulty (0xC0 + 2 * q) = false → (∀ r, r < q → s.pairsInUse.contains r = true ∨ s.faulty (0xC0 + 2 * r) = true) →
    Answers (.lockstepMismatch p) s fun t =>
      t.get (hartPair h) = q ∧ t.get ICU.ICU_STAT_SPARE_LEFT = 0 ∧ (t.hart h).claims = [] ∧ (t.hart h).stopped = false ∧
      ((∀ e ∈ s.openStreams, e.2.applet = none) → (t.hart h).regs = (s.hart h).save ∧ (t.hart h).user = false ∧ (t.hart h).dcache = [] ∧ (t.hart h).icache = []) ∧
      t.faulty (0xC0 + 2 * p) = true ∧ (∀ g, g ≠ h → t.hart g = s.hart g) ∧ s.logged t (0xC0 + 2 * p) 0x20 2 0) ∧
  (∀ (s : State) (p h : Nat), h < 4 → p < 5 → s.get (hartPair h) = p → (∀ g, g < 4 → g ≠ h → s.get (hartPair g) ≠ p) → (s.hart h).stopped = false → s.get ICU.ICU_STAT_SPARE_LEFT = 0 → s.power.held = false → s.rgs.raises (0xC0 + 2 * p) 3 = false →
    Answers (.lockstepMismatch p) s fun t =>
      (t.hart h).stopped = true ∧ (t.hart h).claims = [] ∧ t.get (hartPair h) = p ∧ (∀ g, g ≠ h → t.hart g = s.hart g) ∧
      s.logged t (0xC0 + 2 * p) 0x20 3 0) ∧
  (∀ (s : State) (p : Nat), (∀ h, h < 4 → s.get (hartPair h) = p → (s.hart h).stopped = true) →
    Answers (.lockstepMismatch p) s fun t => t = s) ∧
  (∀ (s : State) (u w : Nat), s.unitEnabled u = true → engineOf u = none → kindClass 1 u = 3 → s.rgs.raises u 3 = false →
    Answers (.handshakeWatchdog ⟨u, w⟩) s fun t =>
      t.faulty u = true ∧ s.logged t u 1 3 0 ∧
      s.frame t [.rgs, .pads] [RGS.CLASS_COUNT_COUNT 3, srcPending 1, ⟨RGS.FAULT_MAP 0 + 4 * (u / 32), u % 32, 1⟩]) ∧
  (∀ (s : State) (i w : Nat), i < 86 → s.unitEnabled (unitOfEngine i) = true → (s.engine i).work.isSome = true → (s.get (engState i) = stRunning ∨ s.get (engState i) = stWaiting) → waitWatched w = true → s.rgs.raises (unitOfEngine i) 2 = false →
    Answers (.handshakeWatchdog ⟨unitOfEngine i, w⟩) s fun t => s.logged t (unitOfEngine i) 1 2 0) ∧
  (∀ (s : State) (i w : Nat), i < 86 → (s.engine i).work.isSome = true → (s.get (engState i) = stRunning ∨ s.get (engState i) = stWaiting) → (w = 2 ∨ w = 3 ∨ w = 4 ∨ w = 5) →
    Answers (.handshakeWatchdog ⟨unitOfEngine i, w⟩) s fun t =>
      t.get (engState i) = stWaiting ∧ t.engine i = { s.engine i with wait := w } ∧ (∀ k, k ≠ i → t.engine k = s.engine k) ∧ s.frame t [.engines] [engState i])

/-- Control stores (R431 to R433). Routines (R428, R429, R451, R453). What the specification leaves open in it is the model's choice: log entries 29, 106, 153. -/
def Obligations.ControlStoresAndRoutines : Prop :=
  (∀ (s : State) (i a : Nat), s.engineEnabled i = true → (s.engine i).work = none → (s.engine i).parity = none → s.rgs.raises (unitOfEngine i) 1 = false →
    Answers (.storeParityError i a false) s fun t =>
      (t.engine i).word a = Tab.get (fun _ => 0) (s.copyOf i) a ∧ (∀ b, b ≠ a → (t.engine i).word b = (s.engine i).word b) ∧
      (t.engine i).parity = some (a, s.ticks) ∧ (∀ k, k ≠ i → t.engine k = s.engine k) ∧
      t.get (engReloads i) = satAdd 16 (s.get (engReloads i)) 1 ∧ t.get (csReloads i) = satAdd 16 (s.get (csReloads i)) 1 ∧
      s.logged t (unitOfEngine i) 9 1 a ∧ s.frame t (.engines :: lowParts) (engReloads i :: csReloads i :: lowFields 1)) ∧
  (∀ (s : State) (i : Nat) (upsets : List (Nat × Nat)) (a : Nat) (bad : List Nat), s.engineEnabled i = true → s.get (engState i) = stIdle → (((upsets.foldl (fun t q => Tab.set (fun _ => 0) t q.1 (Nat.xor (Tab.get (fun _ => 0) t q.1) q.2)) (s.engine i).store).filter fun q => !parityOk q.2).map (·.1) = a :: bad) → s.rgs.raises (unitOfEngine i) 0 = false →
    Answers (.storeScan i upsets) s fun t =>
      (∀ b ∈ a :: bad, (t.engine i).word b = Tab.get (fun _ => 0) (s.copyOf i) b) ∧
      s.logged t (unitOfEngine i) 0x0B 0 a ∧ s.frame t (.engines :: lowParts) (engReloads i :: csReloads i :: lowFields 0)) ∧
  (∀ (s : State) (i : Nat) (upsets : List (Nat × Nat)), s.get (engState i) = stIdle → ((upsets.foldl (fun t q => Tab.set (fun _ => 0) t q.1 (Nat.xor (Tab.get (fun _ => 0) t q.1) q.2)) (s.engine i).store).all (fun q => parityOk q.2) = true) →
    Answers (.storeScan i upsets) s fun t => t.rgs = s.rgs ∧ s.frame t [.engines] []) ∧
  (∀ (s : State) (i : Nat) (upsets : List (Nat × Nat)), s.get (engState i) ≠ stIdle →
    Answers (.storeScan i upsets) s fun t => t = s) ∧
  (∀ (s : State) (i : Nat), i < 68 → (s.engine i).work.isSome = true → s.get (engState i) ≠ stFenced →
    Answers (.interruptUnit i) s fun t =>
      t.engine i = { s.engine i with staging := [] } ∧ (∀ k, k ≠ i → t.engine k = s.engine k) ∧ t.get (engState i) = 2 ∧
      t.get (engAbandons i) = satAdd 16 (s.get (engAbandons i)) 1 ∧ s.frame t [.engines] [engState i, engAbandons i]) ∧
  (∀ (s : State) (i : Nat), 68 ≤ i → i < 86 → (s.engine i).work.isSome = true → s.get (engState i) ≠ stFenced →
    Answers (.interruptUnit i) s fun t =>
      t.engine i = { s.engine i with staging := [] } ∧ t.get (engState i) = 2 ∧ t.get (engAbandons i) = satAdd 16 (s.get (engAbandons i)) 1 ∧
      (∀ n, ((t.queue n).claimed.any fun c => c.1 == unitOfEngine i) = false) ∧ s.frame t [.engines, .queues] [engState i, engAbandons i]) ∧
  (∀ (s : State) (i dest : Nat), (s.engine i).work.isSome = true → s.get (engState i) ≠ stFenced →
    Answers (.dropWork i true dest) s fun t =>
      (t.engine i).work = none ∧ (t.engine i).staging = [] ∧ t.get (engState i) = 1 ∧ (∀ k, k ≠ i → t.engine k = s.engine k) ∧
      s.frame t [.engines, .queues, .streams] [engState i, engAbandons i]) ∧
  (∀ (s : State) (i dest n p j run : Nat), i < 68 → dest < 68 → i ≠ dest → (s.engine i).work = some (n, p, j, run) → s.get (engState i) ≠ stFenced → s.engineFree dest = true →
    Answers (.dropWork i false dest) s fun t =>
      (t.engine dest).work = some (n, p, j, run) ∧ (t.engine i).work = none ∧ t.get (engState dest) = 2 ∧ t.get (engState i) = 1 ∧
      t.get (engProg dest) = s.get (engProg i) ∧ t.get (engEpoch dest) = s.nextPlace n ∧ (t.stream n).place = s.nextPlace n ∧
      s.frame t [.engines, .queues, .streams] [engState i, engAbandons i, engState dest, engEpoch dest, engProg dest]) ∧
  (∀ (s : State) (i : Nat) (state : List Byte) (items n : Nat) (q : Queue), s.queues = [(n, q)] → (q.claimed.all (fun c => c.1 == unitOfEngine i) = true) →
    Answers (.scribeCheckpoint i state items) s fun t =>
      t.engine i = { s.engine i with ckpt := some { state, items } } ∧ (∀ k, k ≠ i → t.engine k = s.engine k) ∧
      (t.queue n).claimed.length = q.claimed.length - items ∧ (t.queue n).items = q.items) ∧
  (∀ (s : State) (i : Nat) (state : List Byte) (items : Nat), Answers (.scribeCheckpoint i state items) s fun t =>
      (t.engine i).ckpt = some { state, items } ∧ (t.engine i).work = (s.engine i).work ∧ (∀ k, k ≠ i → t.engine k = s.engine k) ∧ t.streams = s.streams)

/-- FAULT_MESSAGE (R437 to R443). What the specification leaves open in it is the model's choice: log entries 20, 21, 24, 65. -/
def Obligations.FaultMessagesActByTheirClass : Prop :=
  (∀ (s : State) (u k c : Nat) (detail : Option Nat) (raw addr : Nat), kindFits k u = true → s.unitEnabled u = true → kindClass k u = c → c ≤ 1 → (k ≠ 0x05 ∧ k ≠ 0x08 ∨ s.workOf u = none) → s.rgs.raises u c = false →
    Answers (.faultMessage u k detail raw addr) s fun t => s.logged t u k c addr ∧ s.frame t lowParts (lowFields c)) ∧
  (∀ (s : State) (u k : Nat) (raw addr : Nat), kindFits k u = true → s.unitEnabled u = true → kindClass k u = 2 → k ≠ 0x20 → engineOf u = none → (u < 0xC0 ∨ 0xC9 < u) → s.rgs.raises u 2 = false →
    Answers (.faultMessage u k none raw addr) s fun t =>
      s.logged t u k 2 addr ∧ t.faulty u = true ∧ (t.catUnit u).digest = (s.catUnit u).expect ∧ (t.catUnit u).epoch = s.get CAT.EPOCH_VALUE ∧
      s.frame t (.cat :: lowParts) (⟨RGS.FAULT_MAP 0 + 4 * (u / 32), u % 32, 1⟩ :: lowFields 2)) ∧
  (∀ (s : State) (u k i : Nat) (raw addr : Nat), kindFits k u = true → s.unitEnabled u = true → kindClass k u = 2 → k ≠ 0x20 → engineOf u = some i → s.on (MMU.GRANT_FENCED i) = false → (s.engine i).work = none → s.get (engSpare i) = 0 → s.sparesOf i ≠ [] → s.rgs.raises u 2 = false →
    Answers (.faultMessage u k none raw addr) s fun t =>
      s.logged t u k 2 addr ∧ t.faulty u = true ∧ t.get (MMU.GRANT_FENCED i) = 1 ∧ t.get (engState i) = 5 ∧
      (t.engine i).heir.any (fun h => (s.sparesOf i).contains h && t.get (engSpare h) == 0) = true) ∧
  (∀ (s : State) (u k : Nat) (raw addr : Nat), kindFits k u = true → s.unitEnabled u = true → kindClass k u = 3 → k ≠ 0x20 → s.workOf u = none → s.rgs.raises u 3 = false →
    Answers (.faultMessage u k none raw addr) s fun t =>
      s.logged t u k 3 addr ∧ (kindFaults k = true → t.faulty u = true) ∧
      s.frame t lowParts ((if kindFaults k then [⟨RGS.FAULT_MAP 0 + 4 * (u / 32), u % 32, 1⟩] else []) ++ lowFields 3)) ∧
  (∀ (s : State) (u k : Nat) (detail : Option Nat) (raw addr : Nat), kindFits k u = true → s.unitEnabled u = true → kindClass k u = 4 → s.power.held = false → s.power.refclk = true →
    Answers (.faultMessage u k detail raw addr) s fun t =>
      t.power.held = true ∧ t.power.cold = false ∧ t.get RST.RST_STAT_LAST_CAUSE = 4 ∧ t.get RST.RST_STAT_LAST_SCOPE = 1 ∧
      t.get RST.RST_STAT_RESETS = satAdd RST.RST_STAT_RESETS.w (s.get RST.RST_STAT_RESETS) 1 ∧ t.dram = [] ∧ t.streams = []) ∧
  (∀ (s : State) (u k : Nat) (detail : Option Nat) (raw addr : Nat), (kindFits k u = false ∨ s.unitEnabled u = false) →
    Answers (.faultMessage u k detail raw addr) s fun t => t = s)

/-- Commands of the Registrar (R442, R444, R464). Migration (R451). What the specification leaves open in it is the model's choice: log entries 20, 21. -/
def Obligations.TheRegistrarActsAndWorkMigrates : Prop :=
  (∀ (s : State) (all : Bool) (c u : Nat), c < 4 →
    Answers (.ackFault all c u) s fun t =>
      (∀ a, a ∈ t.rgs.unack ↔ a ∈ s.rgs.unack ∧ ¬(a.cls = c ∧ (all = true ∨ a.unit = u))) ∧
      t.rgs.log = s.rgs.log ∧ t.rgs.seq = s.rgs.seq ∧ s.frame t [.rgs] []) ∧
  (∀ (s : State) (all : Bool) (c u : Nat), 4 ≤ c →
    Answers (.ackFault all c u) s fun t => t = s) ∧
  (∀ (s : State) (c k u : Nat), c ≤ 1 → kindKnown k = true → s.unitEnabled u = true → s.rgs.raises u c = false →
    Answers (.injectFault c k u) s fun t =>
      s.logged t u k c 0 ∧ (t.rgs.log.any fun m => m.injected && m.seq == s.rgs.seq % 2 ^ 31) = true ∧ s.frame t lowParts (lowFields c)) ∧
  (∀ (s : State) (c k u : Nat), (4 ≤ c ∨ kindKnown k = false ∨ s.unitEnabled u = false) →
    Answers (.injectFault c k u) s fun t => t = s) ∧
  (∀ (s : State) (d : Nat), s.rgs.hold = some d → d ≤ s.ticks →
    Answers .faultNHoldExpiry s fun t => t.rgs = { s.rgs with hold := none } ∧ s.frame t [.rgs] []) ∧
  (∀ (s : State) (i d : Nat), (s.engine i).drain = some d → (s.engine i).writes = 0 →
    Answers (.writeDrainEmpty i) s fun t =>
      t.engine i = { s.engine i with drain := none } ∧ (∀ k, k ≠ i → t.engine k = s.engine k) ∧ s.frame t [.engines] []) ∧
  (∀ (s : State) (i d : Nat), (s.engine i).drain = some d → 20 ≤ s.usSince d → (s.engine i).writes ≠ 0 → s.rgs.raises 0x180 0 = false →
    Answers (.writeDrainTimeout i) s fun t =>
      t.engine i = { s.engine i with drain := none, writes := 0 } ∧ (∀ k, k ≠ i → t.engine k = s.engine k) ∧
      (∀ c, ((t.chan c).writeQ.any fun w => w.engine == some i) = false) ∧
      s.logged t 0x180 0x1A 0 (unitOfEngine i) ∧ s.frame t (.engines :: .chans :: lowParts) (lowFields 0)) ∧
  (∀ (s : State) (i dest n p j run : Nat), i < 68 → (s.engine i).drain = none → (s.engine i).work = some (n, p, j, run) → ((s.engine i).heir = some dest ∨ (s.engine i).heir = none) → i ≠ dest → dest < 68 → s.engineFree dest = true →
    Answers (.redispatch i dest) s fun t =>
      (t.engine dest).work = some (n, p, j, run) ∧ (t.engine i).work = none ∧ (t.engine i).heir = none ∧ t.get (engState dest) = 2 ∧
      t.get (engProg dest) = s.get (engProg i) ∧ t.get (engEpoch dest) = s.nextPlace n ∧ (t.stream n).place = s.nextPlace n ∧
      t.get RGS.MIGRATIONS_COUNT = satAdd RGS.MIGRATIONS_COUNT.w (s.get RGS.MIGRATIONS_COUNT) 1 ∧
      s.frame t [.engines, .streams] [engState i, engState dest, engEpoch dest, engProg dest, RGS.MIGRATIONS_COUNT])

/-- Sweeps (R461, R462) and the endpoint's faults (R438, R457). Pins (R457, R541). What the specification leaves open in it is the model's choice: log entry 104. -/
def Obligations.SweepsPinsAndTheThermalSensor : Prop :=
  (∀ (s : State), s.on CAT.CAT_STAT_EPOCH_VALID = true → s.power.held = false → (∀ u ∈ s.digestUnits, s.powered u = true → s.faulty u = false → s.expected (s.catUnit u) = some (s.catUnit u).digest) →
    Answers (.digestSweep []) s fun t =>
      t.get CAT.SWEEPS_COUNT = satAdd CAT.SWEEPS_COUNT.w (s.get CAT.SWEEPS_COUNT) 1 ∧
      (∀ u, (t.catUnit u).epoch = (s.catUnit u).epoch ∧ (t.catUnit u).digest = (s.catUnit u).digest) ∧ s.frame t [.cat] [CAT.SWEEPS_COUNT]) ∧
  (∀ (s : State) (u e d : Nat), s.on CAT.CAT_STAT_EPOCH_VALID = true → s.power.held = false → u ∈ s.digestUnits → s.powered u = true → s.faulty u = false → engineOf u = none → (u < 0xC0 ∨ 0xC9 < u) → (s.catUnit u).rewritten = false → s.expected { s.catUnit u with epoch := e, digest := d } ≠ some d → s.rgs.raises u 2 = false → (∀ v ∈ s.digestUnits, v ≠ u → s.powered v = true → s.faulty v = false → s.expected (s.catUnit v) = some (s.catUnit v).digest) →
    Answers (.digestSweep [(u, e, d)]) s fun t =>
      t.get CAT.MISMATCHES_COUNT = satAdd CAT.MISMATCHES_COUNT.w (s.get CAT.MISMATCHES_COUNT) 1 ∧ s.logged t u 0x48 2 0 ∧
      (t.catUnit u).digest = (s.catUnit u).expect ∧ (t.catUnit u).rewritten = true ∧ t.get (srcPending 2) = 1) ∧
  (∀ (s : State) (held : List (Nat × Nat × Nat)), s.on CAT.CAT_STAT_EPOCH_VALID = false →
    Answers (.digestSweep held) s fun t => t = s) ∧
  (∀ (s : State) (lost : Bool), s.rgs.raises 0x120 3 = false →
    Answers (.pcieLinkDown lost) s fun t =>
      t.hostFn = (if lost then { s.hostFn with link := 4 } else s.hostFn) ∧ s.logged t 0x120 0x31 3 0 ∧ s.frame t (.hostFn :: lowParts) (lowFields 3)) ∧
  (∀ (s : State), s.rgs.raises 0x120 0 = false →
    Answers .pcieCorrectedError s fun t => s.logged t 0x120 0x30 0 0 ∧ s.frame t lowParts (lowFields 0)) ∧
  (∀ (s : State) (p : OutPin) (l : Bool), s.pinLevel p = some l → p.exists = true → s.unitEnabled p.owner = true → s.power.held = false → s.rgs.raises p.owner 3 = false →
    Answers (.pinCheck p (!l)) s fun t =>
      s.logged t p.owner 0x37 3 0 ∧ t.faulty p.owner = true ∧
      s.frame t lowParts (⟨RGS.FAULT_MAP 0 + 4 * (p.owner / 32), p.owner % 32, 1⟩ :: lowFields 3)) ∧
  (∀ (s : State) (p : OutPin) (l : Bool), (s.pinLevel p = some l ∨ s.pinLevel p = none) →
    Answers (.pinCheck p l) s fun t => t = s) ∧
  (∀ (s : State), s.power.aon = true → s.pads.therm = false → s.on KPR.BOOT_STAT_ALIVE = true → s.pwState ≠ pwVault → s.rgs.raises 0x1F2 3 = false →
    Answers .thermAssert s fun t => t.pads.therm = true ∧ s.logged t 0x1F2 0x41 3 0 ∧ s.frame t lowParts (lowFields 3)) ∧
  (∀ (s : State), s.power.aon = true → s.on KPR.BOOT_STAT_ALIVE = false →
    Answers .thermAssert s fun t => t.pads = { s.pads with therm := true } ∧ s.frame t [.pads] []) ∧
  (∀ (s : State), Answers .thermRelease s fun t => t.pads = { s.pads with therm := false } ∧ s.frame t [.pads] [])

/-- Reset sources (R486 to R488, R490, R492, R501, R535). RESET_RELEASE (R490) and the clock (R486, R492). What the specification leaves open in it is the model's choice: log entries 88, 91. -/
def Obligations.ResetsAreTakenAndReleased : Prop :=
  (∀ (s : State), s.power.aon = false →
    Answers .powerOn s fun t =>
      t.power.held = true ∧ t.power.aon = true ∧ t.power.padsSafe = true ∧ t.get RST.RST_STAT_LAST_CAUSE = 0 ∧ t.get KPR.BOOT_STAT_FAILED_STARTS = 0 ∧
      t.dram = [] ∧ t.streams = [] ∧ t.rgs = Registrar.init ∧ t.host = s.host ∧ t.keeper.blown = s.keeper.blown ∧ t.big = s.big ∧ t.pending = s.pending) ∧
  (∀ (s : State), s.power.aon = true →
    Answers .powerOn s fun t => t = s) ∧
  (∀ (s : State), Answers .powerDown s fun t =>
      t.power.held = true ∧ t.power.aon = false ∧ (∀ p, t.pinLevel p = none) ∧ t.host = s.host ∧ t.keeper.blown = s.keeper.blown) ∧
  (∀ (s : State), s.power.aon = true → s.power.refclk = true → s.power.held = false →
    Answers .supplyFault s fun t =>
      t.power.held = true ∧ t.power.cold = true ∧ t.power.padsSafe = true ∧ t.power.suppliesOk = false ∧ t.get RST.RST_STAT_LAST_CAUSE = 7 ∧
      t.get RST.RST_STAT_LAST_SCOPE = 0 ∧ t.get RST.RST_STAT_RESETS = satAdd RST.RST_STAT_RESETS.w (s.get RST.RST_STAT_RESETS) 1 ∧ t.dram = []) ∧
  (∀ (s : State) (ns : Nat), 1000 ≤ ns → s.power.refclk = true → s.power.held = false →
    Answers (.sysResetN ns) s fun t =>
      t.power.held = true ∧ t.power.cold = true ∧ t.power.padsSafe = true ∧ t.power.sysResetLow = true ∧ t.get RST.RST_STAT_LAST_CAUSE = 2 ∧
      t.get RST.RST_STAT_LAST_SCOPE = 0 ∧ t.get RST.RST_STAT_RESETS = satAdd RST.RST_STAT_RESETS.w (s.get RST.RST_STAT_RESETS) 1 ∧ t.dram = []) ∧
  (∀ (s : State) (ns : Nat), 1000 ≤ ns → s.power.refclk = true → s.power.held = false → s.pwState ≠ pwVault →
    Answers (.perstN ns) s fun t =>
      t.power.held = true ∧ t.power.cold = true ∧ t.power.padsSafe = true ∧ t.power.perstLow = true ∧ t.get RST.RST_STAT_LAST_CAUSE = 1 ∧
      t.get RST.RST_STAT_LAST_SCOPE = 0 ∧ t.get RST.RST_STAT_RESETS = satAdd RST.RST_STAT_RESETS.w (s.get RST.RST_STAT_RESETS) 1 ∧ t.dram = []) ∧
  (∀ (s : State) (ns : Nat) (c : Instr), ns < 100 → (c = .sysResetN ns ∨ c = .perstN ns) →
    Answers c s fun t => t = s) ∧
  (∀ (s : State) (ns : Nat), 1000 ≤ ns → s.pwState = pwVault → s.on RST.RST_CFG_PERST_IN_VAULT = true →
    Answers (.perstN ns) s fun t => t.power = { s.power with perstLow := true } ∧ s.frame t [.power] []) ∧
  (∀ (s : State), s.power.held = true → s.power.refclk = true → s.power.aon = true → s.power.cold = true →
    Answers .resetRelease s fun t =>
      t.power.held = false ∧ t.power.padsSafe = false ∧ t.power.suppliesOk = true ∧ t.power.sysResetLow = false ∧ t.power.perstLow = false ∧
      t.keeper.startTick = s.ticks ∧ t.keeper.atStart = s.get KPR.BOOT_STAT_FAILED_STARTS ∧
      (∀ i, i < 86 → s.engineEnabled i = false → t.get (engState i) = 6) ∧
      (s.get KPR.BOOT_STAT_FAILED_STARTS = 3 → t.get KPR.BOOT_STAT_RECOVERY = 1) ∧ t.get KPR.BOOT_STAT_FAILED_STARTS = s.get KPR.BOOT_STAT_FAILED_STARTS ∧
      s.frame t [.power, .keeper, .pads, .hostFn] ([ICU.ICU_STAT_SPARE_LEFT, RGS.SPARE_STAT_PAIR, KPR.BOOT_STAT_RECOVERY, HIF.HIF_STAT_RECOVERY] ++
      (List.range 86).map engState)) ∧
  (∀ (s : State), s.power.held = true → s.power.refclk = true → s.power.aon = true → s.power.cold = false → s.get FUS.FUS_STAT_FUSE_FAIL = 0 → s.on FUS.FUS_STAT_LOADED = true →
    Answers .resetRelease s fun t => t.power.held = false ∧ t.get KPR.BOOT_STAT_STAGE = 1) ∧
  (∀ (s : State), s.power.held = false →
    Answers .resetRelease s fun t => t = s) ∧
  (∀ (s : State), Answers .sysRefclkLost s fun t =>
      t.power = { s.power with refclk := false } ∧ t.get RST.RST_STAT_REFCLK_OK = 0 ∧ t.get RST.RST_STAT_REFCLK_LOST = 1 ∧
      s.frame t [.power] [RST.RST_STAT_REFCLK_OK, RST.RST_STAT_REFCLK_LOST]) ∧
  (∀ (s : State), s.power.latched = [] →
    Answers .sysRefclkReturn s fun t =>
      t.power = { s.power with refclk := true } ∧ t.get RST.RST_STAT_REFCLK_OK = 1 ∧ s.frame t [.power] [RST.RST_STAT_REFCLK_OK]) ∧
  (∀ (s : State) (r c : Nat) (cold : Bool), (r, c, cold) ∈ s.power.latched → (∀ e ∈ s.power.latched, e = (r, c, cold) ∨ r < e.1) → c < 8 → s.power.held = false →
    Answers .sysRefclkReturn s fun t =>
      t.power.held = true ∧ t.power.cold = (s.power.latched.any fun e => e.2.2) ∧ t.get RST.RST_STAT_LAST_CAUSE = c ∧ t.power.latched = [])

/-- Host reset commands (R489). Unit resets (R456, R495) and domains (R21, R22, R496). What the specification leaves open in it is the model's choice: log entries 89, 90. -/
def Obligations.KeyedResetsUnitsAndDomains : Prop :=
  (∀ (s : State), s.bar0Up = true → s.power.key = none →
    Answers (.rstKey 0xA5C3) s fun t => t.power = { s.power with key := some s.ticks } ∧ s.frame t [.power] []) ∧
  (∀ (s : State) (v d : Nat), s.bar0Up = true → s.power.key = some d → s.usSince d ≤ 1000 →
    Answers (.rstKey v) s fun t =>
      t.power = { s.power with key := none } ∧ t.get RST.RST_ERR_KEY_ERR = satAdd RST.RST_ERR_KEY_ERR.w (s.get RST.RST_ERR_KEY_ERR) 1 ∧
      s.frame t [.power] [RST.RST_ERR_KEY_ERR]) ∧
  (∀ (s : State) (d : Nat) (cold : Bool), s.bar0Up = true → s.power.key = some d → s.usSince d ≤ 1000 → s.power.refclk = true → s.power.held = false →
    Answers (if cold then .coldResetCommand 0x3C5A else .warmResetCommand 0x3C5A) s fun t =>
      t.power.held = true ∧ t.power.cold = cold ∧ t.power.key = none ∧ t.get RST.RST_STAT_LAST_CAUSE = 5 ∧
      t.get RST.RST_STAT_LAST_SCOPE = (if cold then 0 else 1) ∧
      t.get RST.RST_STAT_RESETS = satAdd RST.RST_STAT_RESETS.w (s.get RST.RST_STAT_RESETS) 1 ∧ t.dram = [] ∧ t.streams = []) ∧
  (∀ (s : State) (key2 u : Nat) (c : Instr), (c = .coldResetCommand key2 ∨ c = .warmResetCommand key2 ∨ c = .unitReset key2 u) → s.bar0Up = true → (s.power.key = none ∨ s.keyStale = true ∨ key2 ≠ 0x3C5A) →
    Answers c s fun t =>
      t.power = { s.power with key := none } ∧ t.get RST.RST_ERR_KEY_ERR = satAdd RST.RST_ERR_KEY_ERR.w (s.get RST.RST_ERR_KEY_ERR) 1 ∧
      s.frame t [.power] [RST.RST_ERR_KEY_ERR]) ∧
  (∀ (s : State) (v key2 u : Nat) (c : Instr), (c = .rstKey v ∨ c = .coldResetCommand key2 ∨ c = .warmResetCommand key2 ∨ c = .unitReset key2 u) → s.bar0Up = false →
    Answers c s fun t => t = s) ∧
  (∀ (s : State) (u i d : Nat), s.bar0Up = true → s.power.key = some d → s.usSince d ≤ 1000 → s.unitAccepted u = true → s.unitIdle u = true → engineOf u = some i → s.power.held = false →
    Answers (.unitReset 0x3C5A u) s fun t =>
      t.get (engState i) = 0 ∧ t.get RST.RST_UNIT_RUNNING = 1 ∧ t.power = { s.power with key := none, unit := some (u, s.ticks, false) } ∧
      (t.engine i).writes = 0 ∧ (t.engine i).work = none) ∧
  (∀ (s : State) (u d : Nat), s.bar0Up = true → s.power.key = some d → s.usSince d ≤ 1000 → s.unitAccepted u = false → u < 4096 →
    Answers (.unitReset 0x3C5A u) s fun t =>
      t.get RST.RST_UNIT_REFUSED = 1 ∧ t.get RST.RST_UNIT_UNIT = u ∧ s.frame t [.power] [RST.RST_UNIT_REFUSED, RST.RST_UNIT_UNIT]) ∧
  (∀ (s : State) (u i d : Nat) (busy : Bool), s.power.unit = some (u, d, busy) → engineOf u = some i → s.on (MMU.GRANT_FENCED i) = false →
    Answers .unitResetDone s fun t =>
      t.power = { s.power with unit := none } ∧ t.get RST.RST_UNIT_RUNNING = 0 ∧ t.get RST.RST_UNIT_DONE = 1 ∧ t.get RST.RST_UNIT_UNIT = u ∧
      (busy = true → t.get RST.RST_UNIT_BUSY_AT_RESET = 1) ∧ t.faulty u = false ∧ (t.engine i).store = s.copyOf i ∧
      t.get (engState i) = (if s.powered u then 1 else 0)) ∧
  (∀ (s : State) (k v : Nat), Answers (.pdReqWrite true k v) s fun t => t = s) ∧
  (∀ (s : State) (k i v : Nat), k < 4 → i < 32 → s.power.held = false → (∀ j, j < 32 → j ≠ i → bitAt v j = s.bitOn PWR.PD_REQ0 (32 * k + j)) → bitAt v i = true → s.bitOn PWR.PD_REQ0 (32 * k + i) = false → (32 * k + i < 91 ∨ 104 < 32 * k + i ∧ 32 * k + i < 112) → s.heldOff (32 * k + i) = false → s.on KPR.BOOT_STAT_RECOVERY = false →
    Answers (.pdReqWrite false k v) s fun t =>
      t.bitOn PWR.PD_REQ0 (32 * k + i) = true ∧ s.frame t [] [⟨PWR.PD_REQ0 + 4 * k, i, 1⟩]) ∧
  (∀ (s : State) (k i v : Nat), k < 4 → i < 32 → s.power.held = false → (∀ j, j < 32 → j ≠ i → bitAt v j = s.bitOn PWR.PD_REQ0 (32 * k + j)) → bitAt v i = false → s.bitOn PWR.PD_REQ0 (32 * k + i) = true → 32 * k + i < 86 → s.heldOff (32 * k + i) = false → s.engineEnabled (32 * k + i) = true → s.domainSpare (32 * k + i) = false → s.domainIdle (32 * k + i) = true →
    Answers (.pdReqWrite false k v) s fun t =>
      t.bitOn PWR.PD_REQ0 (32 * k + i) = false ∧ t.bitOn PWR.PD_STAT0 (32 * k + i) = false ∧ t.get (engState (32 * k + i)) = 0 ∧
      (∀ e, e ≠ 32 * k + i → t.engine e = s.engine e)) ∧
  (∀ (s : State) (d : Nat), d ∈ s.ramping → s.pwState = pwActive → d < 86 → s.on (MMU.GRANT_FENCED d) = false →
    Answers (.domainOnDone d) s fun t =>
      t.bitOn PWR.PD_STAT0 d = true ∧ t.get (engState d) = 1 ∧ (t.engine d).store = s.copyOf d ∧
      t.get PWR.PD_SWITCHES_COUNT = satAdd PWR.PD_SWITCHES_COUNT.w (s.get PWR.PD_SWITCHES_COUNT) 1 ∧
      (∀ e, e ≠ d → t.engine e = s.engine e) ∧
      ((∀ e ∈ s.openStreams, e.2.prot = 2) → ∀ k, t.get (engSpare k) = s.get (engSpare k)) ∧
      s.frame t [.engines] ([⟨PWR.PD_STAT0 + 4 * (d / 32), d % 32, 1⟩, PWR.PD_SWITCHES_COUNT, engState d] ++ spareFields))

/-- Sleep entry (R498 to R500). Wakes (R500 to R502). What the specification leaves open in it is the model's choice: log entries 18, 95, 96, 97. -/
def Obligations.SleepsAndWakesFollowTheirRules : Prop :=
  (∀ (s : State) (vault : Bool), s.power.held = false → s.power.sleep = none → s.power.unwind = none → s.pwState = pwActive → s.sleepRefusal = none →
    Answers (if vault then .sleepVault 0x51EE else .sleepStandby 0x51EE) s fun t =>
      t.power = { s.power with sleep := some (if vault then 2 else 1, 1, s.ticks), domains := s.domainWords } ∧
      t.pwState = pwEntering ∧ t.get PWR.WAKE_PEND_SOURCES = 0 ∧ s.frame t [.power] [PWR.WAKE_PEND_SOURCES, PWR.PWR_STAT_STATE]) ∧
  (∀ (s : State) (vault : Bool) (r : Nat), s.power.held = false → s.power.sleep = none → s.power.unwind = none → s.pwState = pwActive → s.sleepRefusal = some r →
    Answers (if vault then .sleepVault 0x51EE else .sleepStandby 0x51EE) s fun t =>
      t.get PWR.SLEEP_STAT_DONE = 1 ∧ t.get PWR.SLEEP_STAT_RESULT = r ∧ t.get PWR.SLEEP_STAT_REQUESTED = (if vault then 2 else 1) ∧ t.pwState = pwActive ∧
      s.frame t [.pads] [PWR.WAKE_PEND_SOURCES, PWR.SLEEP_STAT_DONE, PWR.SLEEP_STAT_RESULT, PWR.SLEEP_STAT_WAKE_SRC, PWR.SLEEP_STAT_REQUESTED]) ∧
  (∀ (s : State) (req d : Nat) (ops : List (List CoreOp)), s.power.sleep = some (req, 1, d) →
    Answers (.sleepStepDone ops) s fun t =>
      t.power.sleep = some (req, 2, s.ticks) ∧ (∀ i, i < 86 → t.bitOn PWR.PD_STAT0 i = false) ∧
      (∀ i, i < 86 → s.bitOn PWR.PD_STAT0 i = true → t.engine i = Engine.init) ∧
      s.frame t [.power, .engines] ([PWR.PD_SWITCHES_COUNT] ++ (List.range 86).flatMap fun i => [engState i, ⟨PWR.PD_STAT0 + 4 * (i / 32), i % 32, 1⟩])) ∧
  (∀ (s : State) (d : Nat) (ops : List (List CoreOp)), s.power.sleep = some (1, 4, d) → s.wakeSources = [] →
    Answers (.sleepStepDone ops) s fun t =>
      t.pwState = pwStandby ∧ t.power = { s.power with sleep := none } ∧ t.hostFn = { s.hostFn with link := 2 } ∧ t.get DRC.DRC_STAT_READY = 0 ∧
      (∀ c, c < s.chanCount → t.get (DRC.CH_STAT_SELF_REFRESH c) = 1 ∧ (t.chan c).openRows = [] ∧ (t.chan c).readQ = []) ∧ t.streams = s.streams) ∧
  (∀ (s : State) (req k d : Nat) (ops : List (List CoreOp)), s.power.sleep = some (req, k, d) → (k = 4 ∨ k = 6) → s.wakeSources ≠ [] →
    Answers (.sleepStepDone ops) s fun t =>
      t.pwState = pwWaking ∧ t.power.sleep = none ∧ t.power.unwind = some (s.wakeSources.head?, req, k) ∧ s.frame t [.power] [PWR.PWR_STAT_STATE]) ∧
  (∀ (s : State) (d : Nat) (ops : List (List CoreOp)), s.power.sleep = some (2, 6, d) → s.wakeSources = [] →
    Answers (.sleepStepDone ops) s fun t =>
      t.pwState = pwVault ∧ t.power = { s.power with sleep := none } ∧ t.dram = s.dram ∧ t.time = s.time ∧ t.streams = [] ∧ t.rings = [] ∧
      t.rgs.log = [] ∧ t.rgs.head = s.rgs.head ∧ (∀ d, 91 ≤ d → d < 100 → t.bitOn PWR.PD_STAT0 d = false)) ∧
  (∀ (s : State) (d : Nat), s.power.sleep = some (2, 5, d) →
    Answers .pmeTurnOff s fun t =>
      t.power = { s.power with sleep := some (2, 6, s.ticks), linkL2 := true } ∧ t.hostFn = { s.hostFn with link := 3 } ∧ s.frame t [.power, .hostFn] []) ∧
  (∀ (s : State) (d : Nat), s.power.sleep = some (2, 5, d) → 1000000 ≤ s.usSince d →
    Answers .l2Timeout s fun t =>
      t.pwState = pwWaking ∧ t.power = { s.power with sleep := none, unwind := some (none, 2, 5) } ∧ s.frame t [.power] [PWR.PWR_STAT_STATE]) ∧
  (∀ (s : State) (src : Nat), s.power.held = false → 1 ≤ src → src < 6 → bitAt (s.get PWR.WAKE_EN_SOURCES) src = false →
    Answers (.wakeEvent src) s fun t => t.bitOn PWR.WAKE_PEND src = true ∧ s.frame t [] [⟨PWR.WAKE_PEND, src, 1⟩]) ∧
  (∀ (s : State) (src : Nat), s.power.held = false → 1 ≤ src → src < 6 → bitAt (s.get PWR.WAKE_EN_SOURCES) src = true → (s.wakeSources = [] ∨ s.wakeSources = [src]) → s.power.sleep = none → s.pwState = pwStandby →
    Answers (.wakeEvent src) s fun t =>
      t.bitOn PWR.WAKE_PEND src = true ∧ t.pwState = pwWaking ∧ t.power.wake = some (src, false, 1, s.ticks) ∧
      s.frame t [.power] [⟨PWR.WAKE_PEND, src, 1⟩, PWR.PWR_STAT_STATE]) ∧
  (∀ (s : State) (src req k d : Nat), s.power.held = false → 1 ≤ src → src < 6 → bitAt (s.get PWR.WAKE_EN_SOURCES) src = true → s.wakeSources = [] → s.power.sleep = some (req, k, d) →
    Answers (.wakeEvent src) s fun t =>
      t.bitOn PWR.WAKE_PEND src = true ∧ t.pwState = pwWaking ∧ t.power.sleep = none ∧ t.power.unwind = some (some src, req, k) ∧
      s.frame t [.power] [⟨PWR.WAKE_PEND, src, 1⟩, PWR.PWR_STAT_STATE]) ∧
  (∀ (s : State) (off v req k d : Nat), s.bar0Up = true → off < 2 ^ 24 → regDesc off = none → bitAt (s.get PWR.WAKE_EN_SOURCES) 0 = true → s.power.sleep = some (req, k, d) →
    Answers (.registerWrite true off v) s fun t =>
      t.bitOn PWR.WAKE_PEND 0 = true ∧ t.pwState = pwWaking ∧ t.power.sleep = none ∧ t.power.unwind = some (some 0, req, k) ∧
      s.frame t [.power] [⟨PWR.WAKE_PEND, 0, 1⟩, PWR.PWR_STAT_STATE, HIF.ERR_COUNT_UNASSIGNED]) ∧
  (∀ (s : State) (n idx : Nat), n < 64 → s.doorbellOk n (s.sqSize n) idx = true → bitAt (s.get PWR.WAKE_EN_SOURCES) 0 = true → s.power.sleep = none → s.pwState = pwStandby →
    Answers (.sqTail n idx) s fun t =>
      t.get (DBL.SQ_TAIL_INDEX n) = idx % 65536 ∧ t.bitOn PWR.WAKE_PEND 0 = true ∧ t.pwState = pwWaking ∧ t.power.wake = some (0, false, 1, s.ticks) ∧
      s.frame t [.power] [DBL.SQ_TAIL_INDEX n, ⟨PWR.WAKE_PEND, 0, 1⟩, PWR.PWR_STAT_STATE]) ∧
  (∀ (s : State) (src d : Nat), s.power.unwind = none → s.power.wake = some (src, false, 1, d) →
    Answers .wakeStepDone s fun t =>
      (s.on DRC.DRC_STAT_READY = true → t.power = { s.power with wake := some (src, false, 3, d) }) ∧
      (s.on DRC.DRC_STAT_READY = false → t.power = s.power) ∧ s.frame t [.power] []) ∧
  (∀ (s : State) (src d : Nat), s.power.unwind = none → s.power.wake = some (src, true, 6, d) → src < 6 →
    Answers .wakeStepDone s fun t =>
      t.pwState = pwActive ∧ t.get HIF.HIF_STAT_READY = 1 ∧ t.power = { s.power with wake := none } ∧ t.get PWR.SLEEP_STAT_DONE = 1 ∧
      t.get PWR.SLEEP_STAT_RESULT = 0 ∧ t.get PWR.SLEEP_STAT_WAKE_SRC = src ∧ t.get PWR.SLEEP_STAT_REQUESTED = 2 ∧
      t.get PWR.PWR_STAT_WAKE_TIME = min (s.usSince d / 10) 65535 ∧
      s.frame t [.power, .hostFn, .pads] [HIF.HIF_STAT_READY, PWR.PWR_STAT_STATE, PWR.PWR_STAT_WAKE_TIME, PWR.SLEEP_STAT_DONE, PWR.SLEEP_STAT_RESULT,
      PWR.SLEEP_STAT_WAKE_SRC, PWR.SLEEP_STAT_REQUESTED]) ∧
  (∀ (s : State) (cause : Option Nat) (req : Nat), s.power.unwind = some (cause, req, 5) → s.on DRC.DRC_STAT_READY = true →
    Answers .wakeStepDone s fun t => t.power = { s.power with unwind := some (cause, req, 4) } ∧ s.frame t [.power] [])

/-- SMBus (R503, R506). What the specification leaves open in it is the model's choice: log entry 103. -/
def Obligations.SmbusMessagesAreAnsweredInEveryPowerState : Prop :=
  (∀ (s : State), s.power.aon = true →
    Answers .smbStatus s fun t =>
      t.answer = [s.statusWord] ∧ t.get SMB.SMB_STAT_COMMANDS = satAdd SMB.SMB_STAT_COMMANDS.w (s.get SMB.SMB_STAT_COMMANDS) 1 ∧
      s.frame t [.answer] [SMB.SMB_STAT_COMMANDS]) ∧
  (∀ (s : State), s.power.aon = true →
    Answers .smbCause s fun t =>
      t.answer = [s.get RST.RST_STAT_LAST_CAUSE] ∧ t.get SMB.SMB_STAT_COMMANDS = satAdd SMB.SMB_STAT_COMMANDS.w (s.get SMB.SMB_STAT_COMMANDS) 1 ∧
      s.frame t [.answer] [SMB.SMB_STAT_COMMANDS]) ∧
  (∀ (s : State), s.power.aon = true →
    Answers .smbDeviceId s fun t =>
      t.answer = (if s.on FUS.FUS_STAT_LOADED then 0 :: (leBytes 4 (s.rd TOP.DEVICE_ID).toNat ++ leBytes 4 (s.rd TOP.STEPPING).toNat).map BitVec.toNat
      else 1 :: List.replicate 8 0xFF) ∧
      t.get SMB.SMB_STAT_COMMANDS = satAdd SMB.SMB_STAT_COMMANDS.w (s.get SMB.SMB_STAT_COMMANDS) 1 ∧ s.frame t [.answer] [SMB.SMB_STAT_COMMANDS]) ∧
  (∀ (s : State), s.power.aon = true →
    Answers .smbUid s fun t =>
      t.answer = (if s.on FUS.FUS_STAT_LOADED then 0 :: (s.regBytes (FUS.DEVICE_UID 0) 4).map BitVec.toNat else 1 :: List.replicate 16 0xFF) ∧
      t.get SMB.SMB_STAT_COMMANDS = satAdd SMB.SMB_STAT_COMMANDS.w (s.get SMB.SMB_STAT_COMMANDS) 1 ∧ s.frame t [.answer] [SMB.SMB_STAT_COMMANDS]) ∧
  (∀ (s : State), s.power.aon = true →
    Answers .smbEpochDigest s fun t =>
      t.answer = (if s.smbActive then 0 :: (s.regBytes CAT.EPOCH 1 ++ s.regBytes CAT.DIGEST_HI 1 ++ s.regBytes CAT.DIGEST_LO 1).map BitVec.toNat
      else 1 :: List.replicate 12 0xFF) ∧
      t.get SMB.SMB_STAT_COMMANDS = satAdd SMB.SMB_STAT_COMMANDS.w (s.get SMB.SMB_STAT_COMMANDS) 1 ∧ s.frame t [.answer] [SMB.SMB_STAT_COMMANDS]) ∧
  (∀ (s : State) (m : Msg), s.power.aon = true → s.rgs.head.head? = some m →
    Answers .smbFaults s fun t =>
      t.answer = 0 :: ((if s.smbActive then leBytes 4 s.rgsStat else List.replicate 4 0xFF#8) ++ m.words.flatMap (leBytes 4)).map BitVec.toNat ∧
      t.get SMB.SMB_STAT_COMMANDS = satAdd SMB.SMB_STAT_COMMANDS.w (s.get SMB.SMB_STAT_COMMANDS) 1 ∧ s.frame t [.answer] [SMB.SMB_STAT_COMMANDS]) ∧
  (∀ (s : State) (cold : Bool), s.power.aon = true → s.power.refclk = true → s.power.held = false → s.on SMB.SMB_CFG_RESET_EN = true →
    Answers (.resetMessage (if cold then 0xC01D else 0x3A3A) true) s fun t =>
      t.power.held = true ∧ t.power.cold = cold ∧ t.get RST.RST_STAT_LAST_CAUSE = 6 ∧ t.get RST.RST_STAT_LAST_SCOPE = (if cold then 0 else 1) ∧
      t.get RST.RST_STAT_RESETS = satAdd RST.RST_STAT_RESETS.w (s.get RST.RST_STAT_RESETS) 1) ∧
  (∀ (s : State) (v : Nat), s.power.aon = true → s.on SMB.SMB_CFG_RESET_EN = false →
    Answers (.resetMessage v true) s fun t =>
      t.get SMB.SMB_STAT_COMMANDS = satAdd SMB.SMB_STAT_COMMANDS.w (s.get SMB.SMB_STAT_COMMANDS) 1 ∧ s.frame t [] [SMB.SMB_STAT_COMMANDS]) ∧
  (∀ (s : State) (v : Nat) (c : Instr), s.power.aon = true → (c = .resetMessage v false ∨ c = .wakeMessage false ∨ c = .smbusUnknownCommand) →
    Answers c s fun t =>
      t.get SMB.SMB_STAT_COMMANDS = satAdd SMB.SMB_STAT_COMMANDS.w (s.get SMB.SMB_STAT_COMMANDS) 1 ∧
      t.get SMB.SMB_STAT_PEC_ERR = satAdd SMB.SMB_STAT_PEC_ERR.w (s.get SMB.SMB_STAT_PEC_ERR) 1 ∧ s.frame t [] [SMB.SMB_STAT_COMMANDS, SMB.SMB_STAT_PEC_ERR]) ∧
  (∀ (s : State), s.power.aon = true →
    Answers (.wakeMessage true) s fun t =>
      t.bitOn PWR.WAKE_PEND 5 = true ∧ t.get SMB.SMB_STAT_COMMANDS = satAdd SMB.SMB_STAT_COMMANDS.w (s.get SMB.SMB_STAT_COMMANDS) 1 ∧
      s.frame t [.power] [SMB.SMB_STAT_COMMANDS, ⟨PWR.WAKE_PEND, 5, 1⟩, PWR.PWR_STAT_STATE]) ∧
  (∀ (s : State), s.power.aon = true → s.alertN = true →
    Answers .alertResponse s fun t => t.answer = [s.get SMB.SMB_CFG_ADDR] ∧ t.alertN = false ∧ s.frame t [.answer, .pads] []) ∧
  (∀ (s : State), s.alertN = false →
    Answers .alertResponse s fun t => t.answer = [] ∧ s.frame t [.answer] []) ∧
  (∀ (s : State) (v : Nat), s.power.held = false → s.pwState ≠ pwVault → s.pads.locked = false →
    Answers (.smbCfgWrite v) s fun t =>
      t.get SMB.SMB_CFG_RESET_EN = bits v 8 1 ∧ t.get SMB.SMB_CFG_ADDR = bits v 0 7 ∧ t.get SMB.SMB_CFG_ALERT_MASK = bits v 12 4 ∧ t.pads.locked = true ∧
      s.frame t [.pads] [SMB.SMB_CFG_RESET_EN, SMB.SMB_CFG_ADDR, SMB.SMB_CFG_ALERT_MASK]) ∧
  (∀ (s : State) (v : Nat), s.power.held = false → s.pwState ≠ pwVault → s.pads.locked = true →
    Answers (.smbCfgWrite v) s fun t =>
      t.get SMB.SMB_CFG_ALERT_MASK = bits v 12 4 ∧ t.get SMB.SMB_LOCK_ERR_COUNT = satAdd SMB.SMB_LOCK_ERR_COUNT.w (s.get SMB.SMB_LOCK_ERR_COUNT) 1 ∧
      s.frame t [.pads] [SMB.SMB_CFG_ALERT_MASK, SMB.SMB_LOCK_ERR_COUNT])

/-- PACE_CTL_WRITE (R17). -/
def Obligations.PaceRequestsAreCheckedAndCharged : Prop :=
  (∀ (s : State) (v : Nat), v % 4 = 3 →
    Answers (.paceCtlWrite v) s fun t => t = s) ∧
  (∀ (s : State) (v : Nat), v ≤ 2 → ((v = 1 ∧ s.on CNS.CNS_STAT_PACE_LIMITED = true) ∨ (paceFactor v < s.factor ∧ ((s.capacity s.sparesHeld).1 < (s.chargesAt (paceFactor v)).1 ∨ (s.capacity s.sparesHeld).2 < (s.chargesAt (paceFactor v)).2))) →
    Answers (.paceCtlWrite v) s fun t => t.get TOP.PACE_STAT_REFUSED = 1 ∧ s.frame t [] [TOP.PACE_STAT_REFUSED]) ∧
  (∀ (s : State) (v : Nat), v ≤ 2 → (v ≠ 1 ∨ s.on CNS.CNS_STAT_PACE_LIMITED = false) → s.factor ≤ paceFactor v →
    Answers (.paceCtlWrite v) s fun t =>
      t.get TOP.PACE_CTL_PACE = v ∧ t.get TOP.RATE_FACTOR_TARGET = paceFactor v ∧ (s.get TOP.PACE_CTL_PACE ≠ v → t.get TOP.PACE_STAT_RAMPING = 1) ∧
      t.factor = s.factor ∧ s.frame t [] [TOP.PACE_CTL_PACE, TOP.RATE_FACTOR_TARGET, TOP.PACE_STAT_RAMPING, CNS.VOLTAGE_TARGET_MV]) ∧
  (∀ (s : State) (v : Nat), v ≤ 2 → (v ≠ 1 ∨ s.on CNS.CNS_STAT_PACE_LIMITED = false) → paceFactor v < s.factor → (s.chargesAt (paceFactor v)).1 ≤ (s.capacity s.sparesHeld).1 → (s.chargesAt (paceFactor v)).2 ≤ (s.capacity s.sparesHeld).2 → Tab.risesFrom 0 s.streams = true →
    Answers (.paceCtlWrite v) s fun t =>
      t.get TOP.PACE_CTL_PACE = v ∧ t.get TOP.RATE_FACTOR_TARGET = paceFactor v ∧ t.factor = paceFactor v ∧ t.get TOP.PACE_STAT_CURRENT = v ∧
      (∀ e ∈ s.openStreams, (t.stream e.1).cu = (e.2.charge (paceFactor v)).1 ∧ (t.stream e.1).su = (e.2.charge (paceFactor v)).2) ∧
      s.frame t [.streams, .staged, .taking] [TOP.PACE_CTL_PACE, TOP.RATE_FACTOR_TARGET, TOP.RATE_FACTOR_FACTOR, TOP.PACE_STAT_CURRENT, TOP.PACE_STAT_RAMPING,
      CNS.VOLTAGE_TARGET_MV, HIF.LEDGER_CU_CAP_UNITS, HIF.LEDGER_CU_USED_UNITS, HIF.LEDGER_SU_CAP_UNITS, HIF.LEDGER_SU_USED_UNITS])

/-- Rounds (R512) and slack alarms (R513). The ramp and the regulator (R511, R515, R517). What the specification leaves open in it is the model's choice: log entries 91, 92, 158. -/
def Obligations.RoundsPlanAndVoltageMoves : Prop :=
  (∀ (s : State) (r : RoundIn), s.consRuns = true → s.power.held = false → s.consState = csPlanned → s.cons.seen = [] → s.cons.first = false → r.temps = [] ∧ r.slacks = [] ∧ r.trims = [] ∧ r.eyes = [] → (∀ pace, pace < 3 → ∀ b, b < 30 → targetOf [r.needs] pace b ≤ paceLimit pace) →
    Answers (.conservatorRound r) s fun t =>
      (∀ pace, pace < 3 → ∀ b, b < 30 → Tab.get (fun _ => 0) t.cons.plan (planKey pace b) =
      (if targetOf [r.needs] pace b ≠ 0 ∧ differs (Tab.get (fun _ => 0) s.cons.plan (planKey pace b)) (targetOf [r.needs] pace b) = true
      then targetOf [r.needs] pace b else Tab.get (fun _ => 0) s.cons.plan (planKey pace b))) ∧
      (t.get CNS.REPLANS_VALUE = (if s.cons.plan = t.cons.plan then s.get CNS.REPLANS_VALUE else satAdd CNS.REPLANS_VALUE.w (s.get CNS.REPLANS_VALUE) 1)) ∧
      t.cons.seen = [(s.ticks, r.needs)] ∧ t.get CNS.CNS_STAT_PACE_LIMITED = 0 ∧
      s.frame t [.cons] [CNS.CNS_STAT_PACE_LIMITED, CNS.VOLTAGE_TARGET_MV, CNS.CNS_STAT_RAMPING, CNS.REPLANS_VALUE, .whole CNS.LAST_SEC_LO, .whole CNS.LAST_SEC_HI,
      .whole CNS.LAST_NS, srcPending 3]) ∧
  (∀ (s : State) (d slack : Nat) (needs : List (Nat × Nat)), s.consRuns = true → slack < 50 → s.measurable d = true → s.cons.rail < 900 → s.power.held = false → s.consState = csPlanned → s.cons.seen = [] → s.cons.first = false → (∀ pace, pace < 3 → ∀ b, b < 30 → targetOf [needs] pace b ≤ paceLimit pace) →
    Answers (.slackAlarm d slack needs) s fun t =>
      (∀ pace, pace < 3 → ∀ b, b < 30 → Tab.get (fun _ => 0) t.cons.plan (planKey pace b) =
      (if targetOf [needs] pace b ≠ 0 ∧ differs (Tab.get (fun _ => 0) s.cons.plan (planKey pace b)) (targetOf [needs] pace b) = true
      then targetOf [needs] pace b else Tab.get (fun _ => 0) s.cons.plan (planKey pace b))) ∧
      t.get (srcPending 3) = 1 ∧ t.cons.seen = [(s.ticks, needs)]) ∧
  (∀ (s : State) (d slack : Nat) (needs : List (Nat × Nat)), s.consRuns = true → slack < 50 → s.measurable d = true → s.cons.rail < 900 → s.consState = csBaseline →
    Answers (.slackAlarm d slack needs) s fun t =>
      t.get (srcPending 3) = 1 ∧ t.cons.plan = s.cons.plan ∧ s.frame t [.cons] [srcPending 3]) ∧
  (∀ (s : State) (c : Instr) (r : RoundIn) (d slack : Nat) (needs : List (Nat × Nat)), (c = .conservatorRound r ∧ s.consRuns = false ∨ c = .slackAlarm d slack needs ∧ (s.consRuns = false ∨ 50 ≤ slack ∨ s.measurable d = false)) →
    Answers c s fun t => t = s) ∧
  (∀ (s : State), s.cons.started = true → s.power.held = false → s.consState ≠ csHeld → s.planned (s.get TOP.PACE_CTL_PACE) < 1024 → s.cons.rail < s.planned (s.get TOP.PACE_CTL_PACE) → s.on TOP.PACE_STAT_RAMPING = false →
    Answers .voltageStep s fun t =>
      t.cons.rail = s.cons.rail + 1 ∧ t.get CNS.VOLTAGE_PRESENT_MV = s.cons.rail + 1 ∧ t.get CNS.VOLTAGE_TARGET_MV = s.planned (s.get TOP.PACE_CTL_PACE) ∧
      s.frame t [.cons] [CNS.VOLTAGE_PRESENT_MV, CNS.VOLTAGE_TARGET_MV, CNS.CNS_STAT_RAMPING, CNS.DOMAIN_STAT_VALID, CNS.DOMAIN_STAT_TRIM_MV, CNS.DOMAIN_STAT_SLACK]) ∧
  (∀ (s : State), s.cons.started = true → s.power.held = false → s.consState ≠ csHeld → s.cons.rail < 1024 → 0 < s.planned (s.get TOP.PACE_CTL_PACE) → s.planned (s.get TOP.PACE_CTL_PACE) < s.cons.rail → s.on TOP.PACE_STAT_RAMPING = false →
    Answers .voltageStep s fun t => t.cons.rail = (if s.cons.dwell.isSome then s.cons.rail else s.cons.rail - 1)) ∧
  (∀ (s : State) (d : Nat), s.cons.dwell = some d → 1000000 ≤ s.usSince d →
    Answers .bandDwellExpiry s fun t => t.cons = { s.cons with dwell := none } ∧ s.frame t [.cons] []) ∧
  (∀ (s : State) (d : Nat), s.keeper.aliveTick = some d → s.consRuns = true → s.consState = csBaseline → 60000000 ≤ s.usSince d → s.power.held = false → s.needsNow = [] →
    Answers .baselineTimeout s fun t =>
      t.consState = csPlanned ∧ t.cons.plan = s.cons.plan ∧
      s.frame t [.cons] [CNS.CNS_STAT_STATE, CNS.CNS_STAT_PACE_LIMITED, CNS.VOLTAGE_TARGET_MV, CNS.CNS_STAT_RAMPING]) ∧
  (∀ (s : State) (mv : Nat), s.cons.started = true → s.power.held = false → s.consState ≠ csHeld → mv ≤ s.cons.rail + 10 → s.cons.rail ≤ mv + 10 →
    Answers (.avsTransaction true mv) s fun t => t.cons = { s.cons with fails := 0 } ∧ s.frame t [.cons] []) ∧
  (∀ (s : State) (ok : Bool) (mv : Nat), s.cons.started = true → s.power.held = false → s.consState ≠ csHeld → ((ok = true ∧ (s.cons.rail + 10 < mv ∨ mv + 10 < s.cons.rail)) ∨ (ok = false ∧ s.cons.fails = 2)) → s.cons.margins.contains (2, 112) = false → s.rgs.raises 0x1F2 3 = false →
    Answers (.avsTransaction ok mv) s fun t =>
      t.get CNS.CNS_STAT_AVS_ERR = 1 ∧ t.consState = csHeld ∧ t.get CNS.CNS_STAT_MARGIN_CAUSE = 2 ∧ s.logged t 0x1F2 0x42 3 (512 + 112) ∧
      t.cons.rail = s.cons.rail ∧ s.frame t (.cons :: lowParts) ([CNS.CNS_STAT_AVS_ERR, CNS.CNS_STAT_STATE, CNS.CNS_STAT_MARGIN_CAUSE] ++ lowFields 3)) ∧
  (∀ (s : State) (mv : Nat), s.cons.started = true → s.power.held = false → s.consState = csHeld → mv ≤ s.cons.rail + 10 → s.cons.rail ≤ mv + 10 →
    Answers (.avsTransaction true mv) s fun t =>
      t.consState = csPlanned ∧ t.get CNS.CNS_STAT_AVS_ERR = 0 ∧ t.cons.fails = 0 ∧
      s.frame t [.cons] [CNS.CNS_STAT_AVS_ERR, CNS.CNS_STAT_STATE, CNS.VOLTAGE_TARGET_MV, CNS.CNS_STAT_RAMPING])

/-- Training (R331 to R333). Channels (R332, R334 to R338). What the specification leaves open in it is the model's choice: log entries 30, 94, 148, 149, 159. -/
def Obligations.ChannelsAreTrainedMaintainedAndIssueCommands : Prop :=
  (∀ (s : State), s.trainable = true →
    Answers .dramTraining s fun t =>
      t.get DRC.DRC_STAT_TRAINING = 1 ∧ t.get DRC.DRC_STAT_READY = 0 ∧ t.get DRC.DRC_STAT_ENABLED = 2 ^ s.chanCount - 1 ∧ t.pads.lpReset = false ∧
      (∀ c, c < s.chanCount → t.get (DRC.CH_STAT_TRAINED c) = 0) ∧
      s.frame t [.pads] ([DRC.DRC_STAT_TRAINING, DRC.DRC_STAT_READY, DRC.DRC_STAT_ENABLED] ++ (List.range 8).map DRC.CH_STAT_TRAINED)) ∧
  (∀ (s : State), s.trainable = false →
    Answers .dramTraining s fun t => t = s) ∧
  (∀ (s : State) (tries : List (TrainTry × TrainTry)) (n : Nat), s.on DRC.DRC_STAT_TRAINING = true → tries.length = s.chanCount → (∀ p ∈ tries, trainPasses s.dramProfile.2 (some n) p.1 = true) →
    Answers (.dramTrainingDone tries) s fun t =>
      t.get DRC.DRC_STAT_READY = 1 ∧ t.get DRC.DRC_STAT_TRAINING = 0 ∧ t.get (srcPending 253) = 1 ∧
      t.get DRC.DRC_CFG_RATE = s.dramProfile.1 ∧ t.get DRC.DRC_CFG_DENSITY = n % 2 ^ DRC.DRC_CFG_DENSITY.w ∧
      t.get DRC.DRC_CFG_USABLE_MIB = densityMib n * s.dramProfile.2 * s.chanCount * 7 / 8 % 2 ^ DRC.DRC_CFG_USABLE_MIB.w ∧
      (∀ c, c < s.chanCount → t.get (DRC.CH_STAT_TRAINED c) = 1 ∧ (t.chan c).acts = [] ∧
      (tries[c]?.all fun p => t.rd (DRC.CH_RD_CENTRE c) == BitVec.ofNat 32 (centreWord p.1.rd0 p.1.rd1) &&
      t.rd (DRC.CH_WR_CENTRE c) == BitVec.ofNat 32 (centreWord p.1.wr0 p.1.wr1)) = true) ∧
      (s.get KPR.BOOT_STAT_STAGE = 1 → t.get KPR.BOOT_STAT_STAGE = 2) ∧ t.streams = s.streams ∧ t.rgs = s.rgs) ∧
  (∀ (s : State) (tries : List (TrainTry × TrainTry)) (c n : Nat), s.on DRC.DRC_STAT_TRAINING = true → tries.length = s.chanCount → c < s.chanCount → (tries[c]?.all (fun p => !trainPasses s.dramProfile.2 none p.1 && !trainPasses s.dramProfile.2 none p.2) = true) → (∀ d, d < s.chanCount → d ≠ c → tries[d]?.all (fun p => trainPasses s.dramProfile.2 (some n) p.1) = true) → s.rgs.raises (0x110 + c) 3 = false →
    Answers (.dramTrainingDone tries) s fun t =>
      t.get DRC.DRC_STAT_READY = s.get DRC.DRC_STAT_READY ∧ t.get DRC.DRC_STAT_TRAINING = 0 ∧ t.get (srcPending 253) = 1 ∧
      t.get ⟨DRC.DRC_STAT, 10 + c, 1⟩ = 1 ∧ t.get (DRC.CH_STAT_TRAINED c) = s.get (DRC.CH_STAT_TRAINED c) ∧ s.logged t (0x110 + c) 0x12 3 0 ∧ t.faulty (0x110 + c) = true) ∧
  (∀ (s : State) (tries : List (TrainTry × TrainTry)), s.on DRC.DRC_STAT_TRAINING = false →
    Answers (.dramTrainingDone tries) s fun t => t = s) ∧
  (∀ (s : State) (c code : Nat), c < s.chanCount → code < 2 ^ (DRC.CH_STAT_REFRESH_RATE c).w →
    Answers (.mr4Poll c code false) s fun t =>
      t.get (DRC.CH_STAT_REFRESH_RATE c) = code ∧ t.get (DRC.CH_STAT_HOT c) = 0 ∧ s.frame t [] [DRC.CH_STAT_REFRESH_RATE c, DRC.CH_STAT_HOT c]) ∧
  (∀ (s : State) (c code : Nat), c < s.chanCount → code < 2 ^ (DRC.CH_STAT_REFRESH_RATE c).w → s.rgs.raises (0x110 + c) 3 = false →
    Answers (.mr4Poll c code true) s fun t =>
      t.get (DRC.CH_STAT_REFRESH_RATE c) = code ∧ t.get (DRC.CH_STAT_HOT c) = 1 ∧ t.get (srcPending 253) = 1 ∧ s.logged t (0x110 + c) 0x13 3 0 ∧
      s.frame t lowParts ([DRC.CH_STAT_REFRESH_RATE c, DRC.CH_STAT_HOT c, srcPending 253] ++ lowFields 3)) ∧
  (∀ (s : State) (c : Nat), c < s.chanCount →
    Answers (.zqCalibration c) s fun t =>
      t.chan c = { s.chan c with zq := (s.chan c).zq + 1 } ∧ (∀ d, d ≠ c → t.chan d = s.chan d) ∧ s.frame t [.chans] []) ∧
  (∀ (s : State) (c : Nat), c < s.chanCount →
    Answers (.refreshDue c) s fun t =>
      t.chan c = { s.chan c with refresh := (s.chan c).refresh + 1 } ∧ (∀ d, d ≠ c → t.chan d = s.chan d) ∧ s.frame t [.chans] []) ∧
  (∀ (s : State) (c : Nat), c < s.chanCount →
    Answers (.trefwBoundary c) s fun t =>
      t.chan c = { s.chan c with acts := [], threshold := s.get DRC.RH_CFG_THRESHOLD } ∧ (∀ d, d ≠ c → t.chan d = s.chan d) ∧ s.frame t [.chans] []) ∧
  (∀ (s : State) (c : Nat), c < s.chanCount → s.power.refclk = true → (s.chan c).refresh ≠ 0 →
    Answers (.dramCommandIssue c) s fun t =>
      (t.chan c).refresh = (s.chan c).refresh - 1 ∧ (t.chan c).issued = [0] ∧ (t.chan c).readQ = (s.chan c).readQ ∧ (t.chan c).writeQ = (s.chan c).writeQ ∧
      (∀ d, d ≠ c → t.chan d = s.chan d) ∧ s.frame t [.chans] []) ∧
  (∀ (s : State) (c : Nat) (r : DramReq), c < s.chanCount → s.power.refclk = true → (s.chan c).refresh = 0 → (s.chan c).neighbours = [] → (s.chan c).rfm = [] → (s.chan c).readQ = [r] → (s.chan c).writeQ = [] → r.isRead = true →
    Answers (.dramCommandIssue c) s fun t =>
      (t.chan c).readQ = [] ∧ (t.chan c).writeQ = [] ∧ (t.chan c).issued = [3, r.block] ∧ (∀ d, d ≠ c → t.chan d = s.chan d) ∧
      s.frame t [.chans] [DRC.CH_AGE_MAX_COUNT c, DRC.CH_RH_COUNT c, DRC.CH_RFM_COUNT c]) ∧
  (∀ (s : State) (c : Nat) (r : DramReq), c < s.chanCount → s.power.refclk = true → (s.chan c).refresh = 0 → (s.chan c).neighbours = [] → (s.chan c).rfm = [] → (s.chan c).readQ = [] → (s.chan c).writeQ = [r] → r.isRead = false → r.data.length = 32 → s.chanAt (32 * r.block) = c → r.engine = none →
    Answers (.dramCommandIssue c) s fun t =>
      (t.chan c).writeQ = [] ∧ (t.chan c).issued = [3, r.block] ∧ (∀ a, t.dramByte a = s.dramByte a) ∧ t.damageOf r.block = 0 ∧
      (∀ b, b ≠ r.block → t.damageOf b = s.damageOf b) ∧
      s.frame t [.chans, .damage] [DRC.CH_AGE_MAX_COUNT c, DRC.CH_RH_COUNT c, DRC.CH_RFM_COUNT c]) ∧
  (∀ (s : State) (c code : Nat) (hot : Bool) (i : Instr), (i = .mr4Poll c code hot ∨ i = .zqCalibration c ∨ i = .refreshDue c ∨ i = .trefwBoundary c ∨ i = .dramCommandIssue c) → (s.chanCount ≤ c ∨ s.power.refclk = false ∧ i = .dramCommandIssue c) →
    Answers i s fun t => t = s) ∧
  (∀ (s : State) (c lane p : Nat) (write : Bool), c < 8 → (Tab.get (fun _ => none) s.cons.centres (4 * c + 2 * (lane % 2) + (if write then 1 else 0)) = some p) → p < 128 → (s.get ⟨if write then DRC.CH_WR_CENTRE c else DRC.CH_RD_CENTRE c, 8 * (lane % 2), 8⟩ < 128) →
    Answers (.dqCentreMove c lane write) s fun t =>
      t.get ⟨if write then DRC.CH_WR_CENTRE c else DRC.CH_RD_CENTRE c, 8 * (lane % 2), 8⟩ =
      stepTo (s.get ⟨if write then DRC.CH_WR_CENTRE c else DRC.CH_RD_CENTRE c, 8 * (lane % 2), 8⟩) p ∧
      s.frame t [.cons] [⟨if write then DRC.CH_WR_CENTRE c else DRC.CH_RD_CENTRE c, 8 * (lane % 2), 8⟩])

/-- Reads and writes (R333, R336, R337, R347). What the specification leaves open in it is the model's choice: log entries 5, 25. -/
def Obligations.MemoryReadsWhatWasWrittenLast : Prop :=
  (∀ (s : State) (block : Nat) (engine : Option Nat), s.on DRC.DRC_STAT_READY = false →
    Answers (.dramRead block engine) s fun t => t.answer = [] ∧ s.frame t [.answer] []) ∧
  (∀ (s : State) (block : Nat) (engine : Option Nat), s.on DRC.DRC_STAT_READY = true → s.queuedWrite block = none → (s.chan (s.chanAt (32 * block))).readQ.length < 64 →
    Answers (.dramRead block engine) s fun t =>
      (t.chan (s.chanAt (32 * block))).readQ = (s.chan (s.chanAt (32 * block))).readQ ++ [{ block, data := [], engine, tick := s.ticks, isRead := true }] ∧
      s.frame t [.chans] []) ∧
  (∀ (s : State) (block : Nat) (engine : Option Nat) (q : DramReq), s.on DRC.DRC_STAT_READY = true → s.queuedWrite block = some q →
    Answers (.dramRead block engine) s fun t =>
      t.answer = q.data.map BitVec.toNat ∧
      t.get (DRC.CH_FWD_COUNT (s.chanAt (32 * block))) = satAdd (DRC.CH_FWD_COUNT 0).w (s.get (DRC.CH_FWD_COUNT (s.chanAt (32 * block)))) 1 ∧
      s.frame t [.answer] [DRC.CH_FWD_COUNT (s.chanAt (32 * block))]) ∧
  (∀ (s : State) (block : Nat) (data : List Byte), s.on DRC.DRC_STAT_READY = true → data.length = 32 → s.queuedWrite block = none → (s.chan (s.chanAt (32 * block))).writeQ.length < 64 →
    Answers (.dramWrite block data none) s fun t =>
      (∀ a, t.dramByte a = if a / 32 = block then data.getD (a % 32) 0#8 else s.dramByte a) ∧ s.frame t [.chans, .dram] []) ∧
  (∀ (s : State) (block : Nat) (data : List Byte) (engine : Option Nat), s.on DRC.DRC_STAT_READY = false →
    Answers (.dramWrite block data engine) s fun t => t = s) ∧
  (∀ (s : State) (addr : Nat) (data : List Byte), s.on DRC.DRC_STAT_READY = true → data ≠ [] → data.length + addr % 32 ≤ 32 → s.queuedWrite (addr / 32) = none → (s.chan (s.chanAt addr)).writeQ.length < 64 → s.damageOf (addr / 32) = 0 →
    Answers (.narrowWrite addr data) s fun t =>
      t.answer = [1] ∧ (∀ a, t.dramByte a = if addr ≤ a ∧ a < addr + data.length then data.getD (a - addr) 0#8 else s.dramByte a) ∧
      s.frame t [.answer, .dram, .chans] [DRC.CH_RMW_COUNT (s.chanAt addr)]) ∧
  (∀ (s : State) (addr : Nat) (data : List Byte), s.on DRC.DRC_STAT_READY = true → data ≠ [] → data.length + addr % 32 < 32 → s.queuedWrite (addr / 32) = none → (s.chan (s.chanAt addr)).writeQ.length < 64 → judge (s.damageOf (addr / 32)) = .bad → s.rgs.raises (0x110 + s.chanAt (32 * (addr / 32))) 3 = false →
    Answers (.narrowWrite addr data) s fun t =>
      t.answer = [0] ∧ (∀ a, t.dramByte a = s.dramByte a) ∧ (∀ b, t.damageOf b = s.damageOf b) ∧
      t.get MPR.UNCORR_DRAM_COUNT = satAdd MPR.UNCORR_DRAM_COUNT.w (s.get MPR.UNCORR_DRAM_COUNT) 1 ∧
      s.logged t (0x110 + s.chanAt (32 * (addr / 32))) 0x11 3 (32 * (addr / 32))) ∧
  (∀ (s : State) (addr : Nat) (data : List Byte), s.on DRC.DRC_STAT_READY = true → s.queuedWrite (addr / 32) = none → 64 ≤ (s.chan (s.chanAt addr)).writeQ.length →
    Answers (.narrowWrite addr data) s fun t => t = s)

/-- The conservation code (R343 to R350). What the specification leaves open in it is the model's choice: log entry 25. -/
def Obligations.ReadsAreMendedLoggedAndPoisoned : Prop :=
  (∀ (s : State) (unit addr : Nat) (engine hart : Option Nat) (again : Bool), 0x110 ≤ unit → unit ≤ 0x117 → s.unitEnabled unit = true → s.damageOf (addr / 32) = 0 →
    Answers (.readDataCheck unit addr 0 engine hart again) s fun t => t.answer = [0, 0] ∧ s.frame t [.answer] []) ∧
  (∀ (s : State) (unit addr bit e : Nat) (engine hart : Option Nat) (again : Bool), 0x110 ≤ unit → unit ≤ 0x117 → s.unitEnabled unit = true → addr < 2 ^ 48 → bit < 256 → s.damageOf (addr / 32) = 0 → e < 16 → (∀ k, k < 16 → s.logMatches k unit (32 * (addr / 32)) bit false = false) → s.logValid e = false → (∀ k, k < e → s.logValid k = true) →
    Answers (.readDataCheck unit addr (2 ^ bit) engine hart again) s fun t =>
      t.answer = [0, 0] ∧ t.damageOf (addr / 32) = 2 ^ bit ∧
      t.get (MPR.CORR_DRAM_COUNT (unit - 0x110)) = satAdd (MPR.CORR_DRAM_COUNT 0).w (s.get (MPR.CORR_DRAM_COUNT (unit - 0x110))) 1 ∧
      t.logMatches e unit (32 * (addr / 32)) bit false = true ∧ (∀ k, k < 16 → k ≠ e → t.logValid k = s.logValid k) ∧ t.dram = s.dram) ∧
  (∀ (s : State) (unit addr mask h : Nat) (again : Bool), 0x110 ≤ unit → unit ≤ 0x117 → s.unitEnabled unit = true → s.damageOf (addr / 32) = 0 → judge mask = .bad → s.rgs.raises unit 3 = false →
    Answers (.readDataCheck unit addr mask none (some h) again) s fun t =>
      t.answer = [mask % 2 ^ 256, 1] ∧ (t.hart h).poison = 1 ∧ (t.hart h).regs.mcause = 5 ∧ (t.hart h).regs.mtval = 32 * (addr / 32) ∧
      t.get MPR.UNCORR_DRAM_COUNT = satAdd MPR.UNCORR_DRAM_COUNT.w (s.get MPR.UNCORR_DRAM_COUNT) 1 ∧ s.logged t unit 0x11 3 (32 * (addr / 32)) ∧
      s.frame t (.answer :: .harts :: .damage :: lowParts) (MPR.UNCORR_DRAM_COUNT :: lowFields 3)) ∧
  (∀ (s : State) (unit addr mask : Nat) (engine hart : Option Nat) (again : Bool), s.unitEnabled unit = false →
    Answers (.readDataCheck unit addr mask engine hart again) s fun t => t = s) ∧
  (∀ (s : State) (e n : Nat), e < 16 → s.logValid e = true → s.get ⟨MPR.MPR_STAT, 0, 5⟩ = n + 1 →
    Answers (.logEntryFree e) s fun t =>
      t.logValid e = false ∧ t.get ⟨MPR.MPR_STAT, 0, 5⟩ = n ∧ (n = 0 → t.get MPR.MPR_STAT_OVERFLOW = 0) ∧
      (n ≠ 0 → t.get MPR.MPR_STAT_OVERFLOW = s.get MPR.MPR_STAT_OVERFLOW) ∧
      s.frame t [] [MPR.LOG_ADDR_HI_VALID e, ⟨MPR.MPR_STAT, 0, 5⟩, MPR.MPR_STAT_OVERFLOW]) ∧
  (∀ (s : State) (e : Nat), s.logValid e = false →
    Answers (.logEntryFree e) s fun t => t = s)

/-- The scrubber (R352 to R354). What the specification leaves open in it is the model's choice: log entries 25, 150. -/
def Obligations.TheScrubberMendsWhatItReads : Prop :=
  (∀ (s : State) (base pages b bit : Nat), s.scrubRanges[s.scrub.range]? = some (base, pages) → s.scrubDue = true → 8 * (16 * base + s.scrub.pos) ≤ b → b < 8 * (16 * base + s.scrub.pos) + 8 → bit < 256 → s.damageOf b = 2 ^ bit → (∀ d, d < 8 → 8 * (16 * base + s.scrub.pos) + d ≠ b → s.damageOf (8 * (16 * base + s.scrub.pos) + d) = 0) → (∀ d, d < 8 → s.queuedWrite (8 * (16 * base + s.scrub.pos) + d) = none) →
    Answers .scrubRead s fun t =>
      t.damageOf b = 0 ∧ (∀ d, d ≠ b → t.damageOf d = s.damageOf d) ∧ (∀ a, t.dramByte a = s.dramByte a) ∧
      t.get (MPR.CORR_DRAM_COUNT (s.chanAt (32 * b))) = satAdd (MPR.CORR_DRAM_COUNT 0).w (s.get (MPR.CORR_DRAM_COUNT (s.chanAt (32 * b)))) 1) ∧
  (∀ (s : State), (s.scrubRanges[s.scrub.range]?).isSome = true → s.scrubDue = false →
    Answers .scrubRead s fun t => t = s) ∧
  (∀ (s : State), s.scrubRanges = [] → s.stackBlocks ≤ s.scrub.stackPos →
    Answers .scrubRead s fun t => t.get MPR.SCRUB_STAT_RUNNING = 0 ∧ s.frame t [] [MPR.SCRUB_STAT_RUNNING]) ∧
  (∀ (s : State) (v : Nat), Answers (.scrubCtlWrite 0 v) s fun t =>
      t.get MPR.SCRUB_CTL_STACKS = bits v 1 1 ∧ t.get MPR.SCRUB_CTL_DRAM = bits v 0 1 ∧
      t.get MPR.SCRUB_CTL_MAX_MBPS = (if 10 ≤ bits v 8 22 ∧ bits v 8 22 ≤ 10000 then bits v 8 22 else s.get MPR.SCRUB_CTL_MAX_MBPS) ∧
      t.scrub = { Scrubber.init with lapStart := s.time, last := s.scrub.last } ∧
      s.frame t [.scrub] [MPR.SCRUB_CTL_STACKS, MPR.SCRUB_CTL_DRAM, MPR.SCRUB_CTL_MAX_MBPS, MPR.SCRUB_STAT_RUNNING]) ∧
  (∀ (s : State) (r v : Nat), r < 8 → v < 2 ^ (MPR.SCRUB_RANGE_BASE_PAGES r).w →
    Answers (.scrubCtlWrite (1 + r) v) s fun t =>
      t.get (MPR.SCRUB_RANGE_BASE_PAGES r) = v ∧ t.scrub = { Scrubber.init with lapStart := s.time, last := s.scrub.last } ∧
      s.frame t [.scrub] [MPR.SCRUB_RANGE_BASE_PAGES r, MPR.SCRUB_STAT_RUNNING]) ∧
  (∀ (s : State) (r v : Nat), r < 8 → v < 2 ^ (MPR.SCRUB_RANGE_PAGES_PAGES r).w →
    Answers (.scrubCtlWrite (9 + r) v) s fun t =>
      t.get (MPR.SCRUB_RANGE_PAGES_PAGES r) = v ∧ t.scrub = { Scrubber.init with lapStart := s.time, last := s.scrub.last } ∧
      s.frame t [.scrub] [MPR.SCRUB_RANGE_PAGES_PAGES r, MPR.SCRUB_STAT_RUNNING])

/-- TRANSLATION_WALK (R357 to R370). What the specification leaves open in it is the model's choice: log entry 28. -/
def Obligations.TranslationsWalkTheTables : Prop :=
  (∀ (s : State) (ch va r e3 e2 e1 e0 : Nat) (write : Bool), r = s.get (MMU.CTX_LO_ROOT (s.get (DMA.CFG_ASID ch))) * 4096 + s.get (MMU.CTX_HI_ROOT (s.get (DMA.CFG_ASID ch))) * 2 ^ 32 → s.mmu.tlb = [] → s.on (MMU.CTX_LO_VALID (s.get (DMA.CFG_ASID ch))) = true → s.aperture r = some 0 ∧ s.pte (r + 8 * bits va 39 9) = (e3, false) → s.aperture (pteAddr e3) = some 0 ∧ s.pte (pteAddr e3 + 8 * bits va 30 9) = (e2, false) → s.aperture (pteAddr e2) = some 0 ∧ s.pte (pteAddr e2 + 8 * bits va 21 9) = (e1, false) → s.aperture (pteAddr e1) = some 0 ∧ s.pte (pteAddr e1 + 8 * bits va 12 9) = (e0, false) → (∀ e ∈ [e3, e2, e1], bitAt e 0 = true ∧ bitAt e 1 = true ∧ bitAt e 4 = false ∧ pteReservedOk e = true) → bitAt e0 0 = true ∧ bitAt e0 1 = false ∧ bitAt e0 4 = false ∧ pteReservedOk e0 = true → ((if write then bitAt e0 3 else bitAt e0 2) = true) → s.refusedBy 4 (pteAddr e0 + va % 4096) write = none →
    Answers (.translationWalk (.dma ch) va write) s fun t => t.answer = [pteAddr e0 + va % 4096] ++
      (if s.aperture (pteAddr e0 + va % 4096) = some 8 ∧ (bitAt e0 5 = true ∨ (s.dmaCh ch).flag 3 = true) then [1] else []) ∧ s.frame t [.answer, .mmu] []) ∧
  (∀ (s : State) (c u pa : Nat) (write : Bool), s.refusedBy c pa write = none →
    Answers (.translationWalk (.phys c u) pa write) s fun t => t.answer = [pa] ∧ s.frame t [.answer] []) ∧
  (∀ (s : State) (c u pa : Nat) (write : Bool), s.refusedBy c pa write = some fltDenied → s.rgs.raises 0x180 3 = false →
    Answers (.translationWalk (.phys c u) pa write) s fun t =>
      t.answer = [] ∧ t.get MMU.DENY_COUNT_COUNT = satAdd MMU.DENY_COUNT_COUNT.w (s.get MMU.DENY_COUNT_COUNT) 1 ∧ s.logged t 0x180 0x18 3 pa ∧
      s.frame t (.answer :: lowParts) (MMU.DENY_COUNT_COUNT :: lowFields 3)) ∧
  (∀ (s : State) (i va pa : Nat) (write : Bool), s.on (MMU.GRANT_FENCED i) = false → s.on (MMU.GRANT_VALID i) = true → s.mapped 3 (some i) (s.get (MMU.GRANT_ASID i)) va write pa = true →
    Answers (.translationWalk (.engine i) va write) s fun t =>
      t.answer.head? = some pa ∧ (s.aperture pa ≠ some 8 → t.answer = [pa]) ∧ (t.engine i).writes = (s.engine i).writes + (if write then 1 else 0) ∧ (∀ k, k ≠ i → t.engine k = s.engine k) ∧
      s.frame t [.answer, .mmu, .engines, .free] []) ∧
  (∀ (s : State) (i va k l : Nat) (write : Bool), s.on (MMU.GRANT_FENCED i) = false → s.on (MMU.GRANT_VALID i) = true → ((match s.leafFor (some i) (s.get (MMU.GRANT_ASID i)) va with | .error e => e == (k, l) | .ok _ => false) = true) → k ≤ 7 → (s.engine i).work = none → s.mmu.outside = [] → s.mmu.queue.length < 64 →
    Answers (.translationWalk (.engine i) va write) s fun t =>
      t.answer = [] ∧ t.mmu.queue = s.mmu.queue ++ [{ id := s.mmu.nextId % 256, who := .engine i, asid := s.get (MMU.GRANT_ASID i), va, write, kind := k, level := l, tick := s.ticks }] ∧
      t.mmu.nextId = (s.mmu.nextId + 1) % 256 ∧ t.mmu.outside = [] ∧ t.get MMU.MMU_STAT_FLT_COUNT = s.mmu.queue.length + 1 ∧ t.get (srcPending 4) = 1 ∧
      s.frame t [.answer, .mmu] [srcPending 4, MMU.MMU_STAT_FLT_COUNT, .whole MMU.FLT_INFO, .whole MMU.FLT_VA_LO, .whole MMU.FLT_VA_HI])

/-- Fault records (R368, R369) and the fence (R370). What the specification leaves open in it is the model's choice: log entry 29. -/
def Obligations.FaultRecordsAreResolvedAbortedOrTimedOut : Prop :=
  (∀ (s : State) (id : Nat) (c : Instr), (c = .resumeFault id ∨ c = .abortFault id) → (s.mmu.queue.head?.all (fun r => r.id != id) = true) →
    Answers c s fun t => t.get MMU.MMU_STAT_BAD_ID = 1 ∧ s.frame t [] [MMU.MMU_STAT_BAD_ID]) ∧
  (∀ (s : State) (r : FltRec) (q : List FltRec) (ch pa : Nat), s.mmu.queue = r :: q → s.mmu.outside = [] → r.who = .dma ch → ch < 32 → s.get (dmaState ch) = dmaFaulted → s.mapped 4 none r.asid r.va r.write pa = true →
    Answers (.resumeFault r.id) s fun t =>
      t.mmu.queue = q ∧ t.get (dmaState ch) = dmaRunning ∧ t.get MMU.MMU_STAT_FLT_COUNT = q.length % 128 ∧
      s.frame t [.mmu, .free] [MMU.MMU_STAT_FLT_COUNT, .whole MMU.FLT_INFO, .whole MMU.FLT_VA_LO, .whole MMU.FLT_VA_HI, dmaState ch, ⟨DMA.DMA_STAT, ch, 1⟩, ⟨DMA.DMA_ERR, ch, 1⟩]) ∧
  (∀ (s : State) (r : FltRec) (q : List FltRec) (ch : Nat), s.mmu.queue = r :: q → r.who = .dma ch → ch < 32 →
    Answers (.abortFault r.id) s fun t => t.get (dmaState ch) = dmaError ∧ t.get ⟨DMA.STAT ch, 24, 8⟩ = 3 ∧ t.get ⟨DMA.DMA_ERR, ch, 1⟩ = 1 ∧ t.get (srcPending (93 + ch)) = 1) ∧
  (∀ (s : State) (r : FltRec) (q : List FltRec) (i : Nat), s.mmu.queue = r :: q → s.mmu.outside = [] → s.get MMU.FLT_CFG_TIMEOUT_US ≤ s.usSince r.tick → r.who = .engine i → (s.engine i).work = none → s.rgs.raises 0x180 3 = false →
    Answers .faultRecordTimeout s fun t =>
      t.mmu.queue = q ∧ t.get MMU.MMU_STAT_TIMEOUT = 1 ∧ s.logged t 0x180 0x19 3 r.va ∧
      s.frame t (.mmu :: lowParts) ([MMU.MMU_STAT_TIMEOUT, MMU.MMU_STAT_FLT_COUNT, .whole MMU.FLT_INFO, .whole MMU.FLT_VA_LO, .whole MMU.FLT_VA_HI] ++ lowFields 3)) ∧
  (∀ (s : State) (i : Nat), i < 86 → s.on (MMU.GRANT_FENCED i) = false → (s.engine i).work = none → s.get (engSpare i) = 0 → s.sparesOf i ≠ [] →
    Answers (.grantFence i) s fun t =>
      t.get (MMU.GRANT_FENCED i) = 1 ∧ t.get (engState i) = 5 ∧ (t.engine i).utlb = [] ∧ (t.engine i).drain = some s.ticks ∧
      (t.engine i).heir.any (fun h => (s.sparesOf i).contains h && t.get (engSpare h) == 0) = true ∧ t.rgs = s.rgs ∧ t.streams = s.streams) ∧
  (∀ (s : State) (i : Nat), s.on (MMU.GRANT_FENCED i) = true →
    Answers (.grantFence i) s fun t => t = s)

/-- Invalidation (R363 to R365). -/
def Obligations.InvalidationsDropCachedEntries : Prop :=
  (∀ (s : State), s.on MMU.MMU_STAT_INV_BUSY = false →
    Answers .invalidateAll s fun t =>
      t.mmu = { s.mmu with tlb := [] } ∧ (∀ i, (t.engine i).utlb = []) ∧ t.get MMU.MMU_STAT_INV_BUSY = 1 ∧ s.frame t [.mmu, .engines] [MMU.MMU_STAT_INV_BUSY]) ∧
  (∀ (s : State) (a : Nat), s.on MMU.MMU_STAT_INV_BUSY = false →
    Answers (.invalidateAsid a) s fun t =>
      t.mmu = { s.mmu with tlb := s.mmu.tlb.filter fun q => q.1 != a } ∧ (∀ i, ∀ q ∈ (t.engine i).utlb, q.1 ≠ a) ∧ t.get MMU.MMU_STAT_INV_BUSY = 1 ∧
      s.frame t [.mmu, .engines] [MMU.MMU_STAT_INV_BUSY]) ∧
  (∀ (s : State) (a : Nat), s.on MMU.MMU_STAT_INV_BUSY = false →
    Answers (.invalidatePage a) s fun t =>
      t.mmu = { s.mmu with tlb := s.mmu.tlb.filter fun q => !covers a s.invVa q } ∧ (∀ i, ∀ q ∈ (t.engine i).utlb, covers a s.invVa q = false) ∧
      t.get MMU.MMU_STAT_INV_BUSY = 1 ∧ s.frame t [.mmu, .engines] [MMU.MMU_STAT_INV_BUSY]) ∧
  (∀ (s : State) (a : Nat) (c : Instr), s.on MMU.MMU_STAT_INV_BUSY = true → (c = .invalidateAll ∨ c = .invalidateAsid a ∨ c = .invalidatePage a) →
    Answers c s fun t => t.get MMU.MMU_STAT_INV_DROPPED = 1 ∧ s.frame t [] [MMU.MMU_STAT_INV_DROPPED]) ∧
  (∀ (s : State), Answers .invalidationDone s fun t => t.get MMU.MMU_STAT_INV_BUSY = 0 ∧ s.frame t [] [MMU.MMU_STAT_INV_BUSY]) ∧
  (∀ (s : State) (a hi lo : Nat), a < 256 → hi < 2 ^ 16 → (lo = Tab.get (fun _ => (s.rd (MMU.CTX_LO a)).toNat) s.mmu.staged a) →
    Answers (.contextCommit a hi) s fun t =>
      t.get (MMU.CTX_LO_ROOT a) = bits lo 12 20 ∧ t.get (MMU.CTX_LO_VALID a) = bits lo 0 1 ∧ t.get (MMU.CTX_HI_ROOT a) = hi ∧
      t.mmu.tlb = s.mmu.tlb.filter (fun q => q.1 != a) ∧ (∀ i, ∀ q ∈ (t.engine i).utlb, q.1 ≠ a) ∧ t.get MMU.MMU_STAT_INV_BUSY = 1 ∧
      s.frame t [.mmu, .engines] [MMU.CTX_LO_ROOT a, MMU.CTX_LO_VALID a, MMU.CTX_HI_ROOT a, MMU.MMU_STAT_INV_BUSY])

/-- Channel control (R373, R376, R379). Bursts and completions (R374 to R377). What the specification leaves open in it is the model's choice: log entries 11, 108, 151, 152. -/
def Obligations.DmaChannelsRunTheirSlips : Prop :=
  (∀ (s : State) (ch pa : Nat) (w : List Nat), ch < 32 → s.dmaActive ch = false → s.faulty 0x170 = false → s.mapped 4 none (s.get (DMA.CFG_ASID ch)) (s.pair (DMA.HEAD_LO ch) (DMA.HEAD_HI ch)) false pa = true → s.sound pa 64 = true → (w = (List.range 16).map fun i => leAt (s.dramBytes pa 64) (4 * i) 4) → ({ DmaCh.init with slip := w } : DmaCh).slipOk = true → ({ DmaCh.init with slip := w } : DmaCh).paced = false →
    Answers (.startDma ch) s fun t =>
      t.get (dmaState ch) = dmaRunning ∧ (t.dmaCh ch).slip = w ∧ t.get (DMA.REMAIN_COUNT ch) = w.getD 1 0 ∧
      t.dmaDst ch = w.getD 4 0 + w.getD 5 0 * 2 ^ 32 ∧ t.dmaCur ch = s.pair (DMA.HEAD_LO ch) (DMA.HEAD_HI ch) ∧ (∀ k, k ≠ ch → t.dmaCh k = s.dmaCh k) ∧
      s.frame t [.mmu, .free, .dma] [.whole (DMA.CUR_LO ch), .whole (DMA.CUR_HI ch), .whole (DMA.SRC_LO ch), .whole (DMA.SRC_HI ch), .whole (DMA.DST_LO ch),
      .whole (DMA.DST_HI ch), DMA.REMAIN_COUNT ch, dmaState ch, ⟨DMA.DMA_STAT, ch, 1⟩, ⟨DMA.DMA_ERR, ch, 1⟩]) ∧
  (∀ (s : State) (ch : Nat), (s.dmaActive ch = true ∨ s.faulty 0x170 = true) →
    Answers (.startDma ch) s fun t => t = s) ∧
  (∀ (s : State) (ch : Nat), (s.get (dmaState ch) = dmaRunning ∨ s.get (dmaState ch) = dmaWaiting ∨ s.get (dmaState ch) = dmaFaulted) → s.on (DMA.STAT_PAUSING ch) = false →
    Answers (.stopDma ch) s fun t =>
      t.dmaCh ch = { s.dmaCh ch with stop := true } ∧ (∀ k, k ≠ ch → t.dmaCh k = s.dmaCh k) ∧ s.frame t [.dma] []) ∧
  (∀ (s : State) (ch : Nat), (s.get (dmaState ch) = dmaRunning ∨ s.get (dmaState ch) = dmaWaiting) →
    Answers (.pauseDma ch) s fun t => t.get (DMA.STAT_PAUSING ch) = 1 ∧ s.frame t [] [DMA.STAT_PAUSING ch]) ∧
  (∀ (s : State) (ch : Nat), ch < 32 → s.get (dmaState ch) = dmaFaulted →
    Answers (.pauseDma ch) s fun t => t.get (dmaState ch) = dmaPaused ∧ s.frame t [] [dmaState ch, ⟨DMA.DMA_STAT, ch, 1⟩, ⟨DMA.DMA_ERR, ch, 1⟩]) ∧
  (∀ (s : State) (ch : Nat), ch < 32 → s.get (dmaState ch) = dmaPaused → (((s.mmu.queue ++ s.mmu.outside).any fun r => r.who == .dma ch) = false) →
    Answers (.dmaResume ch) s fun t => t.get (dmaState ch) = dmaRunning ∧ t.get ⟨DMA.DMA_STAT, ch, 1⟩ = 1 ∧ s.frame t [] [dmaState ch, ⟨DMA.DMA_STAT, ch, 1⟩, ⟨DMA.DMA_ERR, ch, 1⟩]) ∧
  (∀ (s : State) (ch : Nat), ch < 32 → s.on (DMA.STAT_PAUSING ch) = true →
    Answers (.dmaPaused ch) s fun t =>
      t.get (dmaState ch) = dmaPaused ∧ t.get (DMA.STAT_PAUSING ch) = 0 ∧ s.frame t [] [dmaState ch, DMA.STAT_PAUSING ch, ⟨DMA.DMA_STAT, ch, 1⟩, ⟨DMA.DMA_ERR, ch, 1⟩]) ∧
  (∀ (s : State) (l : Nat), 42 ≤ l → l ≤ 63 →
    Answers (.reqSw l) s fun t =>
      t.get (DMA.REQ_COUNT_COUNT l) = satAdd (DMA.REQ_COUNT_COUNT l).w (s.get (DMA.REQ_COUNT_COUNT l)) 1 ∧ s.frame t [] [DMA.REQ_COUNT_COUNT l]) ∧
  (∀ (s : State) (l : Nat), (l < 42 ∨ 63 < l) →
    Answers (.reqSw l) s fun t => t = s) ∧
  (∀ (s : State) (ch pa n : Nat), ch < 32 → s.get (dmaState ch) = dmaRunning → s.on (DMA.STAT_PAUSING ch) = false → s.get (DMA.REMAIN_COUNT ch) = n → 1 ≤ n → n ≤ toPageEnd (s.dmaDst ch) → n ≤ (s.dmaCh ch).word 1 → (s.dmaCh ch).mismatch = none → (s.dmaCh ch).op = 1 → (s.dmaCh ch).paced = false → s.mapped 4 none (s.get (DMA.CFG_ASID ch)) (s.dmaDst ch) true pa = true → s.sound pa n = true → s.dmaDst ch + n < 2 ^ 48 → (s.dmaCh ch).burst = 0 → ((s.dmaCh ch).held = false ∨ s.hostFn.open = true) → s.dmaTurn ch = true →
    Answers (.dmaBurst ch) s fun t =>
      (∀ i, i < n → t.dramByte (pa + i) = (leBytes 8 (s.dmaSrc ch)).getD (((s.dmaCh ch).word 1 - n + i) % 8) 0#8) ∧
      (∀ a, a < pa ∨ pa + n ≤ a → t.dramByte a = s.dramByte a) ∧
      t.get (DMA.REMAIN_COUNT ch) = 0 ∧ t.dmaDst ch = s.dmaDst ch + n ∧ t.dmaSrc ch = s.dmaSrc ch ∧ t.get (dmaState ch) = dmaRunning) ∧
  (∀ (s : State) (ch : Nat), ch < 32 → (s.get (dmaState ch) = dmaRunning ∨ s.get (dmaState ch) = dmaWaiting) → s.on (DMA.STAT_PAUSING ch) = false → s.get (DMA.REMAIN_COUNT ch) ≠ 0 → (s.dmaCh ch).mismatch = none → (s.dmaCh ch).op ≠ 3 → (s.dmaCh ch).paced = true → s.requested (s.dmaCh ch).line = false → (s.dmaCh ch).burst = 0 →
    Answers (.dmaBurst ch) s fun t => t.get (dmaState ch) = dmaWaiting ∧ s.frame t [] [dmaState ch, ⟨DMA.DMA_STAT, ch, 1⟩, ⟨DMA.DMA_ERR, ch, 1⟩]) ∧
  (∀ (s : State) (ch : Nat), (s.dmaCh ch).slip ≠ [] → (s.dmaCh ch).paced = false → s.dmaTurn ch = false →
    Answers (.dmaBurst ch) s fun t => t = s) ∧
  (∀ (s : State) (ch pa : Nat) (c : Instr), (c = .dmaSlipComplete ch ∧ (s.dmaCh ch).op ≠ 3 ∧ s.get (DMA.REMAIN_COUNT ch) = 0 ∨ c = .barrierComplete ch ∧ (s.dmaCh ch).op = 3) → ch < 32 → s.get (dmaState ch) = dmaRunning → s.on (DMA.STAT_PAUSING ch) = false → (c = .barrierComplete ch → s.barrierReads ch = true) → (s.dmaCh ch).mismatch = none → (s.dmaCh ch).isLast = true → s.mapped 4 none (s.get (DMA.CFG_ASID ch)) (s.dmaCur ch) true pa = true → s.dmaCur ch % 64 = 0 → s.sound pa 64 = true →
    Answers c s fun t =>
      t.get (dmaState ch) = dmaIdle ∧ t.get (DMA.STAT_DONE ch) = 1 ∧ t.get ⟨DMA.STAT ch, 24, 8⟩ = 0 ∧
      t.get (DMA.SLIPS_COUNT ch) = satAdd (DMA.SLIPS_COUNT ch).w (s.get (DMA.SLIPS_COUNT ch)) 1 ∧ ((s.dmaCh ch).irq = true → t.get (srcPending (93 + ch)) = 1) ∧
      leNum (t.dramBytes (pa + 40) 4) = 2 ^ 31 ∧ leNum (t.dramBytes (pa + 44) 4) = s.bytesDone ch % 2 ^ 32 ∧ leNum (t.dramBytes (pa + 48) 4) = 2 ^ 32 - 1 ∧
      (∀ a, a < pa + 40 ∨ pa + 52 ≤ a → t.dramByte a = s.dramByte a))

/-- Items (R385 to R390, R452). FLUSH (R394), timeouts (R393), disabling (R405). What the specification leaves open in it is the model's choice: log entries 27, 153. -/
def Obligations.StacksQueuesTakeHandOutAndFlush : Prop :=
  (∀ (s : State) (u n ty len : Nat) (banks : List Nat), ((match s.beginResult u n len false with | .ok b => b == banks | .error _ => false) = true) → (s.queue n).cls = 0 → (s.queue n).disabling = false →
    Answers (.beginItem u n ty len) s fun t =>
      t.answer = [0] ∧ (t.queue n).items = (s.queue n).items ++ [s.newItem u ty len banks] ∧ (t.queue n).claimed = (s.queue n).claimed ∧
      (∀ m, m ≠ n → t.queue m = s.queue m) ∧ (∀ k, k < 8 → t.get (STK.BANK_FREE_CELLS k) = s.get (STK.BANK_FREE_CELLS k) - banks.getD k 0) ∧
      t.get STK.STK_STAT_CELLS = s.get STK.STK_STAT_CELLS - banks.sum ∧
      (∀ j, engineOf u ≠ some j → t.engine j = s.engine j) ∧
      (∀ i, engineOf u = some i → (s.engine i).work.isSome = true → (s.engine i).wait = waitBegin → s.get (engState i) = stWaiting → (t.engine i).wait = 0 ∧ t.get (engState i) = stRunning) ∧
      s.frame t [.answer, .queues, .engines] (STK.STK_STAT_CELLS :: (engineOf u).toList.map engState ++ (List.range 8).map STK.BANK_FREE_CELLS)) ∧
  (∀ (s : State) (u n ty : Nat) (data : List Byte) (banks : List Nat), ((match s.beginResult u n (min data.length 256) true with | .ok b => b == banks | .error _ => false) = true) → (s.queue n).cls = 0 → (s.queue n).disabling = false →
    Answers (.singleOperationPush u n ty data) s fun t =>
      t.answer = [0] ∧ (t.queue n).items = (s.queue n).items ++ [{ s.newItem u ty (min data.length 256) banks with data := data.take 256, complete := true }] ∧
      (∀ m, m ≠ n → t.queue m = s.queue m) ∧ (∀ k, k < 8 → t.get (STK.BANK_FREE_CELLS k) = s.get (STK.BANK_FREE_CELLS k) - banks.getD k 0) ∧
      (∀ j, engineOf u ≠ some j → t.engine j = s.engine j) ∧
      (∀ i, engineOf u = some i → (s.engine i).work.isSome = true → (s.engine i).wait = waitBegin → s.get (engState i) = stWaiting → (t.engine i).wait = 0 ∧ t.get (engState i) = stRunning) ∧
      s.frame t [.answer, .queues, .engines] (STK.STK_STAT_CELLS :: (engineOf u).toList.map engState ++ (List.range 8).map STK.BANK_FREE_CELLS)) ∧
  (∀ (s : State) (u n ty len k : Nat), ((match s.beginResult u n len false with | .ok _ => false | .error e => e == k) = true) → k ≠ ansDenied →
    Answers (.beginItem u n ty len) s fun t =>
      t.answer = [k] ∧ t.get STK.STK_ERR_REFUSED = satAdd STK.STK_ERR_REFUSED.w (s.get STK.STK_ERR_REFUSED) 1 ∧
      (∀ j, engineOf u ≠ some j → t.engine j = s.engine j) ∧
      (∀ i, engineOf u = some i → (s.engine i).work.isSome = true → (k = ansFull ∨ k = ansNoCell) → s.get (engState i) = stRunning → (t.engine i).wait = waitBegin ∧ t.get (engState i) = stWaiting) ∧
      s.frame t [.answer, .engines] (STK.STK_ERR_REFUSED :: (engineOf u).toList.map engState)) ∧
  (∀ (s : State) (u n : Nat) (data : List Byte) (it : Item) (l : List Item), (s.queue n).items = l ++ [it] → it.producer = u ∧ it.complete = false → (∀ j ∈ l, ¬(j.producer = u ∧ j.complete = false)) →
    Answers (.itemWordWrite u n data) s fun t =>
      (t.queue n).items = l ++ [{ it with data := (it.data ++ data.take 32).take it.len }] ∧ (∀ m, m ≠ n → t.queue m = s.queue m) ∧ s.frame t [.queues] []) ∧
  (∀ (s : State) (u n : Nat) (it : Item) (l : List Item), (s.queue n).items = l ++ [it] → it.producer = u ∧ it.complete = false → (∀ j ∈ l, ¬(j.producer = u ∧ j.complete = false)) → (s.queue n).truncated.contains u = false →
    Answers (.endItem u n) s fun t =>
      t.answer = [0] ∧ (t.queue n).items = l ++ [{ it with complete := true }] ∧ (∀ m, m ≠ n → t.queue m = s.queue m) ∧ s.frame t [.answer, .queues] []) ∧
  (∀ (s : State) (u n : Nat), (s.queue n).truncated.contains u = true →
    Answers (.endItem u n) s fun t =>
      t.answer = [1] ∧ (t.queue n).items = (s.queue n).items ∧ (t.queue n).truncated = (s.queue n).truncated.erase u ∧
      t.get STK.STK_ERR_TRUNCATED = satAdd STK.STK_ERR_TRUNCATED.w (s.get STK.STK_ERR_TRUNCATED) 1 ∧ s.frame t [.answer, .queues] [STK.STK_ERR_TRUNCATED]) ∧
  (∀ (s : State) (u n : Nat) (it : Item) (l : List Item), (s.queue n).enabled = true → s.mayPop u n = true → (((s.queue n).claimed.filter (fun c => c.1 == u)).length < 16) → (s.queue n).items = it :: l → it.complete = true → s.itemCurrent it = true → (s.queue n).cls = 0 → (s.queue n).disabling = false →
    Answers (.popClaim u n) s fun t =>
      t.answer = [it.ty, it.len] ++ it.data.map BitVec.toNat ∧ (t.queue n).items = l ∧ (t.queue n).claimed = (s.queue n).claimed ++ [(u, it)] ∧
      (∀ m, m ≠ n → t.queue m = s.queue m) ∧
      (∀ j, engineOf u ≠ some j → t.engine j = s.engine j) ∧
      (∀ i, engineOf u = some i → (s.engine i).work.isSome = true → (s.engine i).wait = waitItem → s.get (engState i) = stWaiting → (t.engine i).wait = 0 ∧ t.get (engState i) = stRunning) ∧
      s.frame t [.answer, .queues, .engines] ((engineOf u).toList.map engState)) ∧
  (∀ (s : State) (u n : Nat), (s.queue n).enabled = true → s.mayPop u n = true → (((s.queue n).claimed.filter (fun c => c.1 == u)).length < 16) → (s.queue n).items = [] →
    Answers (.popClaim u n) s fun t =>
      t.answer = [0, 0] ∧ (∀ j, engineOf u ≠ some j → t.engine j = s.engine j) ∧
      (∀ i, engineOf u = some i → (s.engine i).work.isSome = true → s.get (engState i) = stRunning → (t.engine i).wait = waitItem ∧ t.get (engState i) = stWaiting) ∧
      s.frame t [.answer, .engines] ((engineOf u).toList.map engState)) ∧
  (∀ (s : State) (u n : Nat) (it : Item) (l : List Item), (s.queue n).enabled = true → s.mayPop u n = true → (((s.queue n).claimed.filter (fun c => c.1 == u)).length < 16) → (s.queue n).items = it :: l → it.complete = true → s.itemCurrent it = false →
    Answers (.popClaim u n) s fun t =>
      t.answer = [0, 0] ∧ (t.queue n).items = l ∧ (t.queue n).claimed = (s.queue n).claimed ∧
      t.get RGS.LATE_DISCARDS_COUNT = satAdd RGS.LATE_DISCARDS_COUNT.w (s.get RGS.LATE_DISCARDS_COUNT) 1) ∧
  (∀ (s : State) (u n k : Nat) (c : Nat × Item), (((s.queue n).claimed.filter (fun c => c.1 == u))[k]? = some c) → (s.queue n).cls = 0 → (s.queue n).disabling = false → c.2.banks.length ≤ 8 → c.2.banks.sum < 1024 → (∀ i, i < 8 → s.get (STK.BANK_FREE_CELLS i) < 200000) → s.get STK.STK_STAT_CELLS < 200000 →
    Answers (.itemRelease u n k) s fun t =>
      (t.queue n).claimed = (s.queue n).claimed.erase c ∧ (t.queue n).items = (s.queue n).items ∧ (∀ m, m ≠ n → t.queue m = s.queue m) ∧
      (∀ i, i < 8 → t.get (STK.BANK_FREE_CELLS i) = s.get (STK.BANK_FREE_CELLS i) + c.2.banks.getD i 0) ∧
      t.get STK.STK_STAT_CELLS = s.get STK.STK_STAT_CELLS + c.2.banks.sum ∧
      s.frame t [.queues] (STK.STK_STAT_CELLS :: (List.range 8).map STK.BANK_FREE_CELLS)) ∧
  (∀ (s : State) (n : Nat), (s.queue n).cls = 0 → (s.queue n).disabling = false →
    Answers (.flushQueue n) s fun t =>
      (t.queue n).items = [] ∧ (t.queue n).claimed = (s.queue n).claimed ∧
      (t.queue n).truncated = (s.queue n).truncated ++ ((s.queue n).items.filter fun it => !it.complete).map (fun it => it.producer) ∧
      (∀ m, m ≠ n → t.queue m = s.queue m) ∧ t.streams = s.streams ∧ t.answer = s.answer) ∧
  (∀ (s : State) (n d : Nat), (s.queue n).timer = some d → (s.queue n).cls = 2 → (s.queue n).items ≠ [] → (s.queue n).tmo ≤ s.usSince d →
    Answers (.queueTimeout n) s fun t =>
      t.queue n = { s.queue n with timer := some s.ticks } ∧ (∀ m, m ≠ n → t.queue m = s.queue m) ∧
      (∀ k, k < 128 → s.on (ICU.QSRC_EN k) = true → s.get (ICU.QSRC_QUEUE k) = n → t.get (srcPending (125 + k)) = 1) ∧
      s.frame t [.queues] ((List.range 128).map fun k => srcPending (125 + k))) ∧
  (∀ (s : State) (n : Nat), ((s.queue n).timer.all (fun d => decide (s.usSince d < (s.queue n).tmo)) = true) →
    Answers (.queueTimeout n) s fun t => t = s) ∧
  (∀ (s : State) (n : Nat), (s.queue n).holdsNone = true →
    Answers (.queueDisable n) s fun t =>
      (t.queue n).enabled = false ∧ (t.queue n).cls = (s.queue n).cls ∧ (t.queue n).banks = (s.queue n).banks ∧ (∀ m, m ≠ n → t.queue m = s.queue m) ∧ s.frame t [.queues] []) ∧
  (∀ (s : State) (n : Nat), (s.queue n).holdsNone = false →
    Answers (.queueDisable n) s fun t =>
      t.queue n = { s.queue n with disabling := true } ∧ (∀ m, m ≠ n → t.queue m = s.queue m) ∧ s.frame t [.queues] [])

/-- Lending (R401, R402). Pools (R397, R399, R400). What the specification leaves open in it is the model's choice: log entries 6, 157. -/
def Obligations.FoliosAndTheirPools : Prop :=
  (∀ (s : State) (p u : Nat), p < 16 → s.faulty 0x160 = false → s.poolEnabled p = true → s.poolFree p ≠ 0 → (s.pool p).cache ≠ [] → (∀ h ∈ (s.pool p).cache, handlePool h = p) →
    Answers (.folioAllocate p u) s fun t =>
      (∃ h ∈ (s.pool p).cache, t.answer = [h] ∧ t.lent h = { count := 1, owner := borrower u } ∧ (t.pool p).cache = (s.pool p).cache.erase h) ∧
      (t.pool p).ringFill = (s.pool p).ringFill ∧ (∀ q, q ≠ p → t.pool q = s.pool q) ∧
      s.frame t [.answer, .free, .pools] [LND.POOL_STAT_CACHED p, LND.POOL_FREE_COUNT p, LND.POOL_LOW_COUNT p, srcPending 18]) ∧
  (∀ (s : State) (p u : Nat), p < 16 → s.faulty 0x160 = false → s.lender 16 p = none →
    Answers (.folioAllocate p u) s fun t =>
      t.answer = [] ∧ t.get (LND.POOL_EMPTY_COUNT p) = satAdd (LND.POOL_EMPTY_COUNT p).w (s.get (LND.POOL_EMPTY_COUNT p)) 1 ∧
      s.frame t [.answer] [LND.POOL_EMPTY_COUNT p]) ∧
  (∀ (s : State) (p u : Nat), s.faulty 0x160 = true →
    Answers (.folioAllocate p u) s fun t => t.answer = [] ∧ s.frame t [.answer] []) ∧
  (∀ (s : State) (h u n owner : Nat), s.isLent h = true → (s.lent h).count = 1 → (s.lent h).owner = borrower u → 2 ≤ n → n ≤ 255 →
    Answers (.shareFolio h u n owner) s fun t =>
      t.answer = [1] ∧ t.lent h = { count := n, owner := borrower owner } ∧ (∀ k, handlePool k ≠ handlePool h ∨ handleIndex k ≠ handleIndex h → t.lent k = s.lent k) ∧
      s.frame t [.answer, .pools] []) ∧
  (∀ (s : State) (h u n owner : Nat), (s.isLent h = false ∨ (s.lent h).count ≠ 1 ∨ (s.lent h).owner ≠ borrower u ∨ n < 2 ∨ 255 < n) →
    Answers (.shareFolio h u n owner) s fun t =>
      t.answer = [0] ∧ t.get LND.LND_ERR_BAD_SHARE = satAdd LND.LND_ERR_BAD_SHARE.w (s.get LND.LND_ERR_BAD_SHARE) 1 ∧ s.frame t [.answer] [LND.LND_ERR_BAD_SHARE]) ∧
  (∀ (s : State) (h u : Nat), s.isLent h = true → 1 < (s.lent h).count →
    Answers (.releaseFolio h u) s fun t =>
      t.answer = [1] ∧ t.lent h = { s.lent h with count := (s.lent h).count - 1 } ∧ (∀ k, handlePool k ≠ handlePool h ∨ handleIndex k ≠ handleIndex h → t.lent k = s.lent k) ∧
      s.frame t [.answer, .pools] []) ∧
  (∀ (s : State) (h u : Nat), s.isLent h = true → (s.lent h).count = 1 → (s.lent h).owner = borrower u → (s.pool (handlePool h)).cache.length < 32 →
    Answers (.releaseFolio h u) s fun t =>
      t.answer = [1] ∧ t.isLent h = false ∧ (t.pool (handlePool h)).cache = (s.pool (handlePool h)).cache ++ [h] ∧
      t.get (LND.POOL_FREE_COUNT (handlePool h)) = ((s.pool (handlePool h)).cache.length + 1 + (s.pool (handlePool h)).ringFill) % 2 ^ 27 ∧
      s.frame t [.answer, .pools] [LND.POOL_STAT_CACHED (handlePool h), LND.POOL_FREE_COUNT (handlePool h)]) ∧
  (∀ (s : State) (h u : Nat), s.isLent h = true → (s.lent h).count = 1 → (s.lent h).owner ≠ borrower u → s.rgs.raises 0x160 3 = false →
    Answers (.releaseFolio h u) s fun t =>
      t.answer = [1] ∧ t.isLent h = false ∧ t.orphans = s.orphans ++ [h] ∧ t.get (srcPending 18) = 1 ∧ s.logged t 0x160 0x28 3 (s.folioAddr h) ∧
      s.frame t (.answer :: .pools :: .orphans :: lowParts) ([LND.LND_STAT_ORPHANS, .whole LND.ORPHAN_HEAD, srcPending 18] ++ lowFields 3)) ∧
  (∀ (s : State) (h u : Nat), s.isLent h = false → s.rgs.raises 0x160 3 = false →
    Answers (.releaseFolio h u) s fun t =>
      t.answer = [0] ∧ t.get LND.LND_ERR_DOUBLE_RELEASE = satAdd LND.LND_ERR_DOUBLE_RELEASE.w (s.get LND.LND_ERR_DOUBLE_RELEASE) 1 ∧
      s.logged t 0x160 0x29 3 (s.folioAddr h) ∧ s.frame t (.answer :: lowParts) (LND.LND_ERR_DOUBLE_RELEASE :: lowFields 3)) ∧
  (∀ (s : State) (h : Nat) (r : List Nat), s.orphans = h :: r → (s.pool (handlePool h)).cache.length < 32 →
    Answers .reclaimOrphans s fun t =>
      t.orphans = r ∧ (t.pool (handlePool h)).cache = (s.pool (handlePool h)).cache ++ [h] ∧ t.lent h = Lent.none ∧
      s.frame t [.orphans, .pools] [LND.LND_STAT_ORPHANS, .whole LND.ORPHAN_HEAD, LND.POOL_STAT_CACHED (handlePool h), LND.POOL_FREE_COUNT (handlePool h)]) ∧
  (∀ (s : State) (p : Nat), s.poolEnabled p = false → s.on (LND.POOL_STAT_INIT_BUSY p) = false → s.poolOk p = true →
    Answers (.initPool p) s fun t => t.get (LND.POOL_STAT_INIT_BUSY p) = 1 ∧ s.frame t [] [LND.POOL_STAT_INIT_BUSY p]) ∧
  (∀ (s : State) (p : Nat), s.poolEnabled p = false → s.on (LND.POOL_STAT_INIT_BUSY p) = false → s.poolOk p = false →
    Answers (.initPool p) s fun t => t.get (LND.POOL_STAT_INIT_REFUSED p) = 1 ∧ s.frame t [] [LND.POOL_STAT_INIT_REFUSED p]) ∧
  (∀ (s : State) (p : Nat), p < 16 → s.on (LND.POOL_STAT_INIT_BUSY p) = true → s.poolRing p % 32 = 0 → s.poolCount p % 8 = 0 →
    Answers (.poolInitDone p) s fun t =>
      (∀ i, i < s.poolCount p → leNum (t.dramBytes (s.poolRing p + 4 * i) 4) = handleOf p i) ∧
      (∀ a, a < s.poolRing p ∨ s.poolRing p + 4 * s.poolCount p ≤ a → t.dramByte a = s.dramByte a) ∧
      t.pool p = { Pool.init with ringFill := s.poolCount p } ∧ (∀ q, q ≠ p → t.pool q = s.pool q) ∧ t.get (LND.POOL_STAT_INIT_BUSY p) = 0 ∧
      t.get (LND.POOL_STAT_ENABLED p) = 1 ∧ t.get (LND.POOL_FREE_COUNT p) = s.poolCount p ∧ t.get ⟨LND.LND_STAT, p, 1⟩ = 1 ∧
      s.frame t [.dram, .damage, .chans, .pools] [LND.POOL_STAT_INIT_BUSY p, LND.POOL_STAT_ENABLED p, ⟨LND.LND_STAT, p, 1⟩, LND.POOL_STAT_CACHED p, LND.POOL_FREE_COUNT p]) ∧
  (∀ (s : State) (p : Nat), p < 16 → s.poolEnabled p = true → s.poolFree p = s.poolCount p →
    Answers (.disablePool p) s fun t =>
      t.pool p = Pool.init ∧ t.poolEnabled p = false ∧ t.get ⟨LND.LND_STAT, p, 1⟩ = 0 ∧ (∀ q, q ≠ p → t.pool q = s.pool q) ∧
      s.frame t [.pools] [LND.POOL_STAT_ENABLED p, ⟨LND.LND_STAT, p, 1⟩, LND.POOL_STAT_CACHED p, LND.POOL_FREE_COUNT p]) ∧
  (∀ (s : State) (p : Nat), (s.poolEnabled p = false ∨ s.poolFree p ≠ s.poolCount p) →
    Answers (.disablePool p) s fun t => t = s) ∧
  (∀ (s : State) (p : Nat), p < 16 → (s.pool p).cache.length < 8 → (s.pool p).ringFill ≠ 0 →
    Answers (.freeCacheRefill p) s fun t =>
      (t.pool p).cache = (s.pool p).cache ++ (List.range (min 8 (s.pool p).ringFill)).map (fun i => leNum (s.dramBytes (s.ringSlot p ((s.pool p).ringHead + i)) 4)) ∧
      (t.pool p).ringFill = (s.pool p).ringFill - 8 ∧ (t.pool p).lent = (s.pool p).lent ∧ (∀ q, q ≠ p → t.pool q = s.pool q) ∧
      s.frame t [.pools] [LND.POOL_STAT_CACHED p, LND.POOL_FREE_COUNT p])

/-- Doorbells and the submission ring (R191 to R197). What the specification leaves open in it is the model's choice: log entry 67. -/
def Obligations.DoorbellsLetSlipsBeTakenInOrder : Prop :=
  (∀ (s0 s : State) (n idx : Nat), s = s0.linkActivity → s.doorbellOk n (s.sqSize n) idx = false →
    Answers (.sqTail n idx) s0 fun t =>
      t.get HIF.ERR_COUNT_DOORBELL = satAdd HIF.ERR_COUNT_DOORBELL.w (s.get HIF.ERR_COUNT_DOORBELL) 1 ∧ s.frame t [] [HIF.ERR_COUNT_DOORBELL]) ∧
  (∀ (s0 s : State) (n idx : Nat), s = s0.linkActivity → s.doorbellOk n (s.rqSize n) idx = false →
    Answers (.rqHead n idx) s0 fun t =>
      t.get HIF.ERR_COUNT_DOORBELL = satAdd HIF.ERR_COUNT_DOORBELL.w (s.get HIF.ERR_COUNT_DOORBELL) 1 ∧ s.frame t [] [HIF.ERR_COUNT_DOORBELL]) ∧
  (∀ (s0 s : State) (n idx : Nat), s = s0.linkActivity → n < 64 → s.doorbellOk n (s.sqSize n) idx = true → (s.pwState = pwStandby ∨ s.pwState = pwWaking) →
    Answers (.sqTail n idx) s0 fun t => t.get (DBL.SQ_TAIL_INDEX n) = idx % 65536 ∧ s.frame t [] [DBL.SQ_TAIL_INDEX n]) ∧
  (∀ (s0 s : State) (n idx : Nat), s = s0.linkActivity → n < 64 → s.doorbellOk n (s.rqSize n) idx = true → (s.pwState = pwStandby ∨ s.pwState = pwWaking) →
    Answers (.rqHead n idx) s0 fun t => t.get (DBL.RQ_HEAD_INDEX n) = idx % 65536 ∧ s.frame t [] [DBL.RQ_HEAD_INDEX n]) ∧
  (∀ (s0 s : State) (n idx : Nat), s = s0.linkActivity → n < 64 → s.doorbellOk n (s.sqSize n) idx = true → s.pwState ≠ pwStandby → s.pwState ≠ pwWaking → (idx = s.get (HIF.RP_STAT_SQ_HEAD n) ∨ (s.headSlot n).getD 15 0 / 2 ^ 31 ≠ s.get (HIF.RP_STAT_SQ_PHASE n) ∨ s.stalled n = true) →
    Answers (.sqTail n idx) s0 fun t =>
      t.get (DBL.SQ_TAIL_INDEX n) = idx % 65536 ∧ t.get (HIF.RP_STAT_NOT_VISIBLE n) = 0 ∧ t.get (srcPending (29 + n)) = 1 ∧
      s.frame t [] [DBL.SQ_TAIL_INDEX n, HIF.RP_STAT_NOT_VISIBLE n, srcPending (29 + n)]) ∧
  (∀ (s0 s : State) (n idx : Nat), s = s0.linkActivity → n < 64 → s.doorbellOk n (s.sqSize n) idx = true → s.pwState ≠ pwStandby → s.pwState ≠ pwWaking → idx = (s.get (HIF.RP_STAT_SQ_HEAD n) + 1) % s.sqSize n → s.get (HIF.RP_STAT_SQ_HEAD n) < s.sqSize n → idx ≠ s.get (HIF.RP_STAT_SQ_HEAD n) → (s.headSlot n).getD 15 0 / 2 ^ 31 = s.get (HIF.RP_STAT_SQ_PHASE n) → s.stalled n = false →
    Answers (.sqTail n idx) s0 fun t =>
      t.get (DBL.SQ_TAIL_INDEX n) = idx % 65536 ∧ t.get (HIF.RP_STAT_NOT_VISIBLE n) = 0 ∧ t.get (srcPending (29 + n)) = 1 ∧
      t.get (HIF.RP_STAT_SQ_HEAD n) = idx % 65536 ∧
      t.get (HIF.RP_STAT_SQ_PHASE n) = (if idx = 0 then 1 - s.get (HIF.RP_STAT_SQ_PHASE n) else s.get (HIF.RP_STAT_SQ_PHASE n)) ∧
      t.get (HIF.RP_STAT_BUSY n) = 1 ∧
      t.ring n = { s.ring n with
      taken := (s.ring n).taken ++ [{ id := (s.ring n).count, words := s.headSlot n, started := false, staged := false, verdict := none }],
      count := (s.ring n).count + 1, rereads := 0 } ∧
      (∀ m, m ≠ n → t.ring m = s.ring m) ∧
      s.frame t [.rings] [DBL.SQ_TAIL_INDEX n, HIF.RP_STAT_NOT_VISIBLE n, HIF.RP_STAT_SQ_HEAD n, HIF.RP_STAT_SQ_PHASE n, HIF.RP_STAT_BUSY n, srcPending (29 + n)]) ∧
  (∀ (s0 s : State) (n idx : Nat), s = s0.linkActivity → n < 64 → s.doorbellOk n (s.rqSize n) idx = true → s.pwState ≠ pwStandby → s.pwState ≠ pwWaking → s.get (DBL.SQ_TAIL_INDEX n) = s.get (HIF.RP_STAT_SQ_HEAD n) →
    Answers (.rqHead n idx) s0 fun t =>
      t.get (DBL.RQ_HEAD_INDEX n) = idx % 65536 ∧ t.get (srcPending (29 + n)) = 1 ∧ s.frame t [] [DBL.RQ_HEAD_INDEX n, srcPending (29 + n)]) ∧
  (∀ (s : State) (n : Nat), s.ringOn n = true → s.stalled n = false → s.on (HIF.RP_STAT_NOT_VISIBLE n) = false → s.get (HIF.RP_STAT_SQ_HEAD n) ≠ s.get (DBL.SQ_TAIL_INDEX n) → (s.headSlot n).getD 15 0 / 2 ^ 31 ≠ s.get (HIF.RP_STAT_SQ_PHASE n) → (s.ring n).rereads < 7 →
    Answers (.slipReread n) s fun t =>
      t.ring n = { s.ring n with rereads := (s.ring n).rereads + 1 } ∧ (∀ m, m ≠ n → t.ring m = s.ring m) ∧ s.frame t [.rings] []) ∧
  (∀ (s : State) (n : Nat), n < 64 → s.ringOn n = true → s.stalled n = false → s.on (HIF.RP_STAT_NOT_VISIBLE n) = false → s.get (HIF.RP_STAT_SQ_HEAD n) ≠ s.get (DBL.SQ_TAIL_INDEX n) → (s.headSlot n).getD 15 0 / 2 ^ 31 ≠ s.get (HIF.RP_STAT_SQ_PHASE n) → 7 ≤ (s.ring n).rereads →
    Answers (.slipReread n) s fun t =>
      t.get (HIF.RP_STAT_NOT_VISIBLE n) = 1 ∧
      t.ring n = { s.ring n with rereads := 0, compl := (s.ring n).compl ++
      [s.waiting n { tag := 0, status := 1, stream := none, opcode := 0, kind := 0, extra := 0, w := [s.get (HIF.RP_STAT_SQ_HEAD n)], noIrq := false }] } ∧
      (∀ m, m ≠ n → t.ring m = s.ring m) ∧ s.frame t s.complParts (HIF.RP_STAT_NOT_VISIBLE n :: s.complFields n)) ∧
  (∀ (s : State) (n : Nat), n < 64 → s.ringOn n = true → s.stalled n = false → s.on (HIF.RP_STAT_NOT_VISIBLE n) = false → s.get (DBL.SQ_TAIL_INDEX n) = (s.get (HIF.RP_STAT_SQ_HEAD n) + 1) % s.sqSize n → s.get (HIF.RP_STAT_SQ_HEAD n) < s.sqSize n → s.get (HIF.RP_STAT_SQ_HEAD n) ≠ s.get (DBL.SQ_TAIL_INDEX n) → (s.headSlot n).getD 15 0 / 2 ^ 31 = s.get (HIF.RP_STAT_SQ_PHASE n) →
    Answers (.slipReread n) s fun t =>
      t.get (HIF.RP_STAT_SQ_HEAD n) = s.get (DBL.SQ_TAIL_INDEX n) ∧
      t.ring n = { s.ring n with
      taken := (s.ring n).taken ++ [{ id := (s.ring n).count, words := s.headSlot n, started := false, staged := false, verdict := none }],
      count := (s.ring n).count + 1, rereads := 0 } ∧
      s.frame t [.rings] [HIF.RP_STAT_SQ_HEAD n, HIF.RP_STAT_SQ_PHASE n, HIF.RP_STAT_BUSY n])

/-- Slips without a stream (R204 to R207). What the specification leaves open in it is the model's choice: log entries 67, 70, 110. -/
def Obligations.SlipsWithoutAStreamComplete : Prop :=
  (∀ (s : State) (n k : Nat) (u : Taken), s.slipAt n k 0x00 = some u → s.earlier n k = [] →
    Answers (.nopSlip n k) s fun t => s.completes t n u (if u.reservedOk then stSuccess else stBadField) 0 [] ∧ s.frame t s.complParts (s.complFields n)) ∧
  (∀ (s : State) (n k : Nat) (u : Taken), (s.ring n).taken[k]? = some u → 0x0C < u.op → s.mayStart n k u = true →
    Answers (.unknownOpcode n k) s fun t => s.completes t n u stBadOpcode 0 [] ∧ s.frame t s.complParts (s.complFields n)) ∧
  (∀ (s : State) (n k : Nat) (u : Taken), s.slipAt n k 0x0B = some u → bits (u.word 1) 8 8 = 0 → u.reservedOk = true →
    Answers (.queryLedger n k) s fun t =>
      s.completes t n u stSuccess 0 [s.get HIF.LEDGER_CU_CAP_UNITS, s.get HIF.LEDGER_CU_USED_UNITS, s.get HIF.LEDGER_SU_CAP_UNITS, s.get HIF.LEDGER_SU_USED_UNITS] ∧
      s.frame t s.complParts (s.complFields n)) ∧
  (∀ (s : State) (n k last : Nat) (u : Taken), s.slipAt n k 0x0B = some u → bits (u.word 1) 8 8 = 1 → u.reservedOk = true → (s.stream u.streamField).lastReleased = some last →
    Answers (.queryStream n k) s fun t =>
      s.completes t n u stSuccess 0 [(s.stream u.streamField).state.code, (s.stream u.streamField).cu, (s.stream u.streamField).su, last % 2 ^ 32,
      (s.rings.map fun e => (e.2.events.filter fun v => v.stream == some u.streamField).length).sum] ∧
      s.frame t s.complParts (s.complFields n)) ∧
  (∀ (s : State) (n k : Nat) (u : Taken), s.slipAt n k 0x0B = some u → bits (u.word 1) 8 8 = 1 → u.reservedOk = true → (s.stream u.streamField).lastReleased = none →
    Answers (.queryStream n k) s fun t =>
      (∃ last, s.completes t n u stSuccess 0 [(s.stream u.streamField).state.code, (s.stream u.streamField).cu, (s.stream u.streamField).su, last,
      (s.rings.map fun e => (e.2.events.filter fun v => v.stream == some u.streamField).length).sum]) ∧
      s.frame t (.free :: s.complParts) (s.complFields n)) ∧
  (∀ (s : State) (n k : Nat) (u : Taken), s.slipAt n k 0x0B = some u → bits (u.word 1) 8 8 = 2 → u.reservedOk = true →
    Answers (.queryDigest n k) s fun t =>
      s.completes t n u stSuccess 0 [s.get CAT.EPOCH_VALUE, s.get CAT.DIGEST_HI_VALUE, s.get CAT.DIGEST_LO_VALUE] ∧ s.frame t s.complParts (s.complFields n)) ∧
  (∀ (s : State) (n k : Nat) (u : Taken), s.slipAt n k 0x0B = some u → (2 < bits (u.word 1) 8 8 ∨ bits (u.word 1) 8 8 = 2 ∧ u.reservedOk = false) →
    Answers (.queryDigest n k) s fun t => s.completes t n u stBadField 0 [] ∧ s.frame t s.complParts (s.complFields n)) ∧
  (∀ (s : State) (n k : Nat) (u : Taken), s.slipAt n k 0x0C = some u → s.slipWaits n u = false → u.reservedOk = true → s.hostHolds (u.word 2) = false →
    Answers (.returnFolio n k) s fun t => s.completes t n u 0x0012 0 [] ∧ s.frame t s.complParts (s.complFields n)) ∧
  (∀ (s : State) (n k : Nat) (u : Taken), s.slipAt n k 0x0C = some u → s.slipWaits n u = false → u.reservedOk = false →
    Answers (.returnFolio n k) s fun t => s.completes t n u stBadField 0 [] ∧ s.frame t s.complParts (s.complFields n)) ∧
  (∀ (s : State) (n k : Nat) (u : Taken), s.slipAt n k 0x0C = some u → s.slipWaits n u = false → u.reservedOk = true → s.hostHolds (u.word 2) = true → bitAt (u.word 1) 8 = true → s.poolSize (handlePool (u.word 2)) < u.word 3 + u.word 4 →
    Answers (.returnFolio n k) s fun t => s.completes t n u stBadField 0 [] ∧ s.frame t s.complParts (s.complFields n)) ∧
  (∀ (s : State) (n k : Nat) (u : Taken), s.slipAt n k 0x0C = some u → s.slipWaits n u = false → u.reservedOk = true → s.hostHolds (u.word 2) = true → bitAt (u.word 1) 8 = false → bitAt (u.word 1) 9 = true →
    Answers (.returnFolio n k) s fun t => s.completes t n u stSuccess 0 [0] ∧ s.frame t s.complParts (s.complFields n)) ∧
  (∀ (s : State) (n k : Nat) (u : Taken), s.slipAt n k 0x0C = some u → s.slipWaits n u = false → u.reservedOk = true → s.hostHolds (u.word 2) = true → bitAt (u.word 1) 8 = false → bitAt (u.word 1) 9 = false → 1 < (s.lent (u.word 2)).count →
    Answers (.returnFolio n k) s fun t =>
      s.completes t n u stSuccess 0 [0] ∧ t.lent (u.word 2) = { s.lent (u.word 2) with count := (s.lent (u.word 2)).count - 1 } ∧
      s.frame t (.pools :: s.complParts) (s.complFields n))

/-- Return rings and vectors (R196 to R199, R209 to R212). What the specification leaves open in it is the model's choice: log entries 37, 38, 39. -/
def Obligations.ReturnSlipsAreWrittenAndVectorsFire : Prop :=
  (∀ (s : State) (n : Nat) (r : RetSlip) (l : List RetSlip), n < 64 → (s.ring n).compl = r :: l → r.frees = (0, 0) → r.opcode ≠ 0x07 → (r.noIrq = true ∨ r.counted = true) → s.mayWrite n = true → 0 < s.rqFree n → s.get (HIF.RP_RQ_STAT_RQ_TAIL n) < s.rqSize n → s.get (DBL.SQ_TAIL_INDEX n) = s.get (HIF.RP_STAT_SQ_HEAD n) →
    Answers (.completionWrite n) s fun t =>
      t.hostHas (s.rqBase n + 32 * s.get (HIF.RP_RQ_STAT_RQ_TAIL n)) (r.words (s.get (HIF.RP_STAT_SQ_HEAD n)) (s.get (HIF.RP_RQ_STAT_RQ_PHASE n))) = true ∧
      (∀ a, a < s.rqBase n + 32 * s.get (HIF.RP_RQ_STAT_RQ_TAIL n) ∨ s.rqBase n + 32 * s.get (HIF.RP_RQ_STAT_RQ_TAIL n) + 32 ≤ a → t.hostByte a = s.hostByte a) ∧
      t.get (HIF.RP_RQ_STAT_RQ_TAIL n) = (s.get (HIF.RP_RQ_STAT_RQ_TAIL n) + 1) % s.rqSize n % 65536 ∧
      t.get (HIF.RP_RQ_STAT_RQ_PHASE n) =
      (if s.get (HIF.RP_RQ_STAT_RQ_TAIL n) + 1 = s.rqSize n then 1 - s.get (HIF.RP_RQ_STAT_RQ_PHASE n) else s.get (HIF.RP_RQ_STAT_RQ_PHASE n)) ∧
      t.ring n = { s.ring n with compl := l } ∧ (∀ m, m ≠ n → t.ring m = s.ring m) ∧
      s.frame t [.host, .rings] [HIF.RP_RQ_STAT_RQ_TAIL n, HIF.RP_RQ_STAT_RQ_PHASE n, HIF.RP_STAT_BUSY n]) ∧
  (∀ (s : State) (n : Nat) (r : RetSlip) (l : List RetSlip), n < 64 → (s.ring n).compl = r :: l → r.frees = (0, 0) → r.opcode ≠ 0x07 → r.noIrq = false → r.counted = false → s.mayWrite n = true → 0 < s.rqFree n → (s.vec (s.get (HIF.RP_CFG_VECTOR n))).count + 1 < s.get (HIF.MSIX_MOD_COUNT (s.get (HIF.RP_CFG_VECTOR n))) → s.get (HIF.MSIX_MOD_HOLD (s.get (HIF.RP_CFG_VECTOR n))) ≠ 0 →
    Answers (.completionWrite n) s fun t =>
      t.hostHas (s.rqBase n + 32 * s.get (HIF.RP_RQ_STAT_RQ_TAIL n)) (r.words (s.get (HIF.RP_STAT_SQ_HEAD n)) (s.get (HIF.RP_RQ_STAT_RQ_PHASE n))) = true ∧
      (t.ring n).compl = l ∧
      (t.vec (s.get (HIF.RP_CFG_VECTOR n))).count = (s.vec (s.get (HIF.RP_CFG_VECTOR n))).count + 1 ∧
      (t.vec (s.get (HIF.RP_CFG_VECTOR n))).timer = ((s.vec (s.get (HIF.RP_CFG_VECTOR n))).timer <|> some s.ticks) ∧
      s.frame t [.host, .rings, .vecs] [HIF.RP_RQ_STAT_RQ_TAIL n, HIF.RP_RQ_STAT_RQ_PHASE n, HIF.RP_STAT_BUSY n, HIF.RP_STAT_SQ_HEAD n, HIF.RP_STAT_SQ_PHASE n]) ∧
  (∀ (s : State) (n : Nat) (r : RetSlip) (l : List RetSlip), n < 64 → (s.ring n).compl = r :: l → r.frees = (0, 0) → r.opcode ≠ 0x07 → r.noIrq = false → r.counted = false → s.mayWrite n = true → 0 < s.rqFree n → s.get (HIF.MSIX_MOD_COUNT (s.get (HIF.RP_CFG_VECTOR n))) ≤ (s.vec (s.get (HIF.RP_CFG_VECTOR n))).count + 1 → s.hostFn.fnMask = false → s.on (HIF.MSIX_CTL_MASK (s.get (HIF.RP_CFG_VECTOR n))) = false →
    Answers (.completionWrite n) s fun t =>
      (t.ring n).compl = l ∧ t.vec (s.get (HIF.RP_CFG_VECTOR n)) = Vec.init ∧ t.hostFn = { s.hostFn with messages := s.hostFn.messages + 1 } ∧
      t.hostHas (s.get (HIF.MSIX_ADDR_LO_ADDR (s.get (HIF.RP_CFG_VECTOR n))) * 4 + s.get (HIF.MSIX_ADDR_HI_ADDR (s.get (HIF.RP_CFG_VECTOR n))) * 2 ^ 32)
      [s.get (HIF.MSIX_DATA_DATA (s.get (HIF.RP_CFG_VECTOR n)))] = true ∧
      s.frame t [.host, .rings, .vecs, .hostFn] [HIF.RP_RQ_STAT_RQ_TAIL n, HIF.RP_RQ_STAT_RQ_PHASE n, HIF.RP_STAT_BUSY n, HIF.RP_STAT_SQ_HEAD n, HIF.RP_STAT_SQ_PHASE n]) ∧
  (∀ (s : State) (n : Nat) (r : RetSlip) (l : List RetSlip), n < 64 → (s.ring n).compl = r :: l → r.frees ≠ (0, 0) → r.opcode ≠ 0x07 → (r.noIrq = true ∨ r.counted = true) → s.mayWrite n = true → 0 < s.rqFree n → s.get (DBL.SQ_TAIL_INDEX n) = s.get (HIF.RP_STAT_SQ_HEAD n) →
    Answers (.completionWrite n) s fun t =>
      (t.ring n).compl = l ∧ (∀ m, m ≠ n → t.ring m = s.ring m) ∧
      t.get HIF.LEDGER_CU_USED_UNITS = t.charges.1 % 2 ^ HIF.LEDGER_CU_USED_UNITS.w ∧ t.get HIF.LEDGER_SU_USED_UNITS = t.charges.2 % 2 ^ HIF.LEDGER_SU_USED_UNITS.w ∧
      s.frame t [.host, .rings] ([HIF.RP_RQ_STAT_RQ_TAIL n, HIF.RP_RQ_STAT_RQ_PHASE n, HIF.RP_STAT_BUSY n] ++ ledgerFields)) ∧
  (∀ (s : State) (n m : Nat) (r : RetSlip) (l : List RetSlip), n < 64 → (s.ring n).compl = r :: l → r.frees = (0, 0) → r.opcode = 0x07 → r.stream = some m → (s.stream m).pics = [] → (r.noIrq = true ∨ r.counted = true) → s.mayWrite n = true → 0 < s.rqFree n → s.get (DBL.SQ_TAIL_INDEX n) = s.get (HIF.RP_STAT_SQ_HEAD n) →
    Answers (.completionWrite n) s fun t =>
      t.ring n = { s.ring n with compl := l } ∧ (∀ k, k ≠ n → t.ring k = s.ring k) ∧ (∀ k, t.stream k = s.stream k) ∧
      s.frame t [.host, .rings, .streams] [HIF.RP_RQ_STAT_RQ_TAIL n, HIF.RP_RQ_STAT_RQ_PHASE n, HIF.RP_STAT_BUSY n]) ∧
  (∀ (s : State) (n : Nat), ((s.ring n).compl = [] ∨ s.mayWrite n = false ∨ s.rqFree n = 0) → s.get (DBL.SQ_TAIL_INDEX n) = s.get (HIF.RP_STAT_SQ_HEAD n) →
    Answers (.completionWrite n) s fun t => s.frame t [] []) ∧
  (∀ (s : State) (n : Nat), n < 64 → (s.ring n).drain = 0 → (s.ring n).compl = [] → (s.ring n).lost = 0 → 8 ≤ (s.ring n).events.length → s.mayWrite n = true → 8 ≤ s.rqFree n → s.get (HIF.RP_RQ_STAT_RQ_TAIL n) + 8 < s.rqSize n → s.rqSize n ≤ 65536 → (s.vec (s.get (HIF.RP_CFG_VECTOR n))).count + 8 < s.get (HIF.MSIX_MOD_COUNT (s.get (HIF.RP_CFG_VECTOR n))) → s.get (HIF.MSIX_MOD_HOLD (s.get (HIF.RP_CFG_VECTOR n))) ≠ 0 →
    Answers (.eventGroupWrite n) s fun t =>
      (t.ring n).events = (s.ring n).events.drop 8 ∧ (t.ring n).evTick = s.ticks ∧ t.get (HIF.RP_RQ_STAT_RQ_TAIL n) = s.get (HIF.RP_RQ_STAT_RQ_TAIL n) + 8 ∧
      (∀ i, i < 8 → ∀ e, (s.ring n).events[i]? = some e →
      t.hostHas (s.rqBase n + 32 * (s.get (HIF.RP_RQ_STAT_RQ_TAIL n) + i)) (e.words (s.get (HIF.RP_STAT_SQ_HEAD n)) (s.get (HIF.RP_RQ_STAT_RQ_PHASE n))) = true) ∧
      s.frame t [.host, .rings, .vecs] [HIF.RP_RQ_STAT_RQ_TAIL n, HIF.RP_RQ_STAT_RQ_PHASE n, HIF.RP_RQ_STAT_PENDING n]) ∧
  (∀ (s : State) (n : Nat), n < 64 → (s.ring n).drain = 0 → (s.ring n).compl = [] → (s.ring n).lost = 0 → (s.ring n).events ≠ [] → (s.ring n).events.length < 8 → s.ringTimeout n ≤ s.usSince (s.ring n).evTick → s.mayWrite n = true → (s.ring n).events.length ≤ s.rqFree n → (s.vec (s.get (HIF.RP_CFG_VECTOR n))).count + 8 < s.get (HIF.MSIX_MOD_COUNT (s.get (HIF.RP_CFG_VECTOR n))) → s.get (HIF.MSIX_MOD_HOLD (s.get (HIF.RP_CFG_VECTOR n))) ≠ 0 → s.hostFn.fnMask = false → s.on (HIF.MSIX_CTL_MASK (s.get (HIF.RP_CFG_VECTOR n))) = false →
    Answers (.eventQueueTimeout n) s fun t =>
      (t.ring n).events = [] ∧ t.vec (s.get (HIF.RP_CFG_VECTOR n)) = Vec.init ∧ t.hostFn = { s.hostFn with messages := s.hostFn.messages + 1 } ∧
      t.hostHas (s.get (HIF.MSIX_ADDR_LO_ADDR (s.get (HIF.RP_CFG_VECTOR n))) * 4 + s.get (HIF.MSIX_ADDR_HI_ADDR (s.get (HIF.RP_CFG_VECTOR n))) * 2 ^ 32)
      [s.get (HIF.MSIX_DATA_DATA (s.get (HIF.RP_CFG_VECTOR n)))] = true ∧
      s.frame t [.host, .rings, .vecs, .hostFn] [HIF.RP_RQ_STAT_RQ_TAIL n, HIF.RP_RQ_STAT_RQ_PHASE n, HIF.RP_RQ_STAT_PENDING n]) ∧
  (∀ (s : State) (n : Nat), (s.ring n).lost ≠ 0 → (s.ring n).events.length < 1024 →
    Answers (.lostSlip n) s fun t =>
      t.ring n = { s.ring n with events := (s.ring n).events ++ [eventSlip 0 none 4 0 [(s.ring n).lost]], lost := 0 } ∧ (∀ m, m ≠ n → t.ring m = s.ring m) ∧
      t.get (HIF.RP_RQ_STAT_PENDING n) = (s.ring n).events.length + 1 ∧ s.frame t [.rings] [HIF.RP_RQ_STAT_PENDING n]) ∧
  (∀ (s : State) (v start : Nat), v < 64 → (s.vec v).timer = some start → s.get (HIF.MSIX_MOD_HOLD v) ≤ s.usSince start → s.hostFn.fnMask = false → s.on (HIF.MSIX_CTL_MASK v) = false → s.hostFn.open = true →
    Answers (.msixHoldTimer v) s fun t =>
      t.vec v = Vec.init ∧ (∀ u, u ≠ v → t.vec u = s.vec u) ∧ t.hostFn = { s.hostFn with messages := s.hostFn.messages + 1 } ∧
      t.hostHas (s.get (HIF.MSIX_ADDR_LO_ADDR v) * 4 + s.get (HIF.MSIX_ADDR_HI_ADDR v) * 2 ^ 32) [s.get (HIF.MSIX_DATA_DATA v)] = true ∧
      (∀ a, a < s.get (HIF.MSIX_ADDR_LO_ADDR v) * 4 + s.get (HIF.MSIX_ADDR_HI_ADDR v) * 2 ^ 32 ∨
      s.get (HIF.MSIX_ADDR_LO_ADDR v) * 4 + s.get (HIF.MSIX_ADDR_HI_ADDR v) * 2 ^ 32 + 4 ≤ a → t.hostByte a = s.hostByte a) ∧
      s.frame t [.host, .vecs, .hostFn] []) ∧
  (∀ (s : State) (v start : Nat), v < 64 → (s.vec v).timer = some start → s.get (HIF.MSIX_MOD_HOLD v) ≤ s.usSince start → (s.hostFn.fnMask = true ∨ s.on (HIF.MSIX_CTL_MASK v) = true) →
    Answers (.msixHoldTimer v) s fun t =>
      t.vec v = Vec.init ∧ (∀ u, u ≠ v → t.vec u = s.vec u) ∧ t.vecPending v = true ∧ (∀ u, u < 64 → u ≠ v → t.vecPending u = s.vecPending u) ∧
      s.frame t [.vecs] [⟨HIF.VEC_PEND (v / 32), v % 32, 1⟩, ⟨HIF.MSIX_PBA (v / 32), v % 32, 1⟩]) ∧
  (∀ (s : State) (v start : Nat), v < 64 → (s.vec v).timer = some start → s.get (HIF.MSIX_MOD_HOLD v) ≤ s.usSince start → s.hostFn.fnMask = false → s.on (HIF.MSIX_CTL_MASK v) = false → s.hostFn.open = false →
    Answers (.msixHoldTimer v) s fun t =>
      t.vec v = Vec.init ∧ t.vecPending v = true ∧
      t.hostFn = { s.hostFn with pmes := s.hostFn.pmes + if s.hostFn.pmeEn = true ∧ s.power.linkL2 = false then 1 else 0 } ∧
      t.power = { s.power with wakeN := s.power.wakeN || (s.hostFn.pmeEn && s.power.linkL2) } ∧
      s.frame t [.vecs, .hostFn, .power] [⟨HIF.VEC_PEND (v / 32), v % 32, 1⟩, ⟨HIF.MSIX_PBA (v / 32), v % 32, 1⟩]) ∧
  (∀ (s : State) (v : Nat), v < 64 → s.vecPending v = true → s.hostFn.fnMask = false → s.hostFn.open = true →
    Answers (.msixUnmask (some v)) s fun t =>
      t.get (HIF.MSIX_CTL_MASK v) = 0 ∧ t.vecPending v = false ∧ t.hostFn = { s.hostFn with messages := s.hostFn.messages + 1 } ∧
      t.hostHas (s.get (HIF.MSIX_ADDR_LO_ADDR v) * 4 + s.get (HIF.MSIX_ADDR_HI_ADDR v) * 2 ^ 32) [s.get (HIF.MSIX_DATA_DATA v)] = true ∧
      s.frame t [.host, .hostFn] [HIF.MSIX_CTL_MASK v, ⟨HIF.VEC_PEND (v / 32), v % 32, 1⟩, ⟨HIF.MSIX_PBA (v / 32), v % 32, 1⟩]) ∧
  (∀ (s : State) (v : Nat), v < 64 → (s.vecPending v = false ∨ s.hostFn.fnMask = true ∨ s.hostFn.open = false) →
    Answers (.msixUnmask (some v)) s fun t => t.get (HIF.MSIX_CTL_MASK v) = 0 ∧ s.frame t [] [HIF.MSIX_CTL_MASK v]) ∧
  (∀ (s : State), s.hostFn.open = true →
    Answers (.msixUnmask none) s fun t =>
      t.hostFn.fnMask = false ∧ (∀ v, v < 64 → t.vecPending v = (s.vecPending v && s.on (HIF.MSIX_CTL_MASK v))) ∧
      t.hostFn.messages = s.hostFn.messages + ((List.range 64).filter fun v => s.vecPending v && !s.on (HIF.MSIX_CTL_MASK v)).length ∧
      s.frame t [.host, .hostFn] [HIF.VEC_PEND_VECTOR 0, HIF.VEC_PEND_VECTOR 1, HIF.MSIX_PBA_PENDING 0, HIF.MSIX_PBA_PENDING 1])

/-- Host power states and ring set-up (R212, R225). What the specification leaves open in it is the model's choice: log entries 8, 37, 38. -/
def Obligations.TheHostFunctionSleepsAndRingsAreSetUp : Prop :=
  (∀ (s : State) (pme : Bool), Answers (.hostD3hotEntry true pme) s fun t => t.hostFn = { s.hostFn with d3 := true, pmeEn := pme } ∧ s.frame t [.hostFn] []) ∧
  (∀ (s : State) (pme : Bool), Answers (.hostD3hotEntry false pme) s fun t => t.hostFn = { s.hostFn with busMaster := false, pmeEn := pme } ∧ s.frame t [.hostFn] []) ∧
  (∀ (s : State) (mask : Bool), (∀ n, n < 64 → s.ringOn n = false) →
    Answers (.hostD0Return mask) s fun t =>
      t.hostFn.d3 = false ∧ t.hostFn.busMaster = true ∧ t.hostFn.fnMask = mask ∧
      (∀ v, v < 64 → t.vecPending v = (s.vecPending v && (mask || s.on (HIF.MSIX_CTL_MASK v))) ∧
      t.bitOn (HIF.VEC_LATE 0) v = (s.bitOn (HIF.VEC_LATE 0) v || (s.vecPending v && !mask && !s.on (HIF.MSIX_CTL_MASK v)))) ∧
      s.frame t [.host, .hostFn] [HIF.VEC_PEND_VECTOR 0, HIF.VEC_PEND_VECTOR 1, HIF.MSIX_PBA_PENDING 0, HIF.MSIX_PBA_PENDING 1, HIF.VEC_LATE_VECTOR 0, HIF.VEC_LATE_VECTOR 1]) ∧
  (∀ (s : State) (mask : Bool) (n : Nat) (r : RetSlip), n < 64 → (∀ m, m < 64 → (s.ringOn m = true ↔ m = n)) → (∀ v, v < 64 → s.vecPending v = false) → (s.ring n).compl = [r] → (s.ring n).events = [] → (s.ring n).lost = 0 → r.frees = (0, 0) → r.opcode ≠ 0x07 → (r.noIrq = true ∨ r.counted = true) → 0 < s.rqFree n → s.get (DBL.SQ_TAIL_INDEX n) = s.get (HIF.RP_STAT_SQ_HEAD n) →
    Answers (.hostD0Return mask) s fun t =>
      (t.ring n).compl = [] ∧ t.hostFn.d3 = false ∧
      t.hostHas (s.rqBase n + 32 * s.get (HIF.RP_RQ_STAT_RQ_TAIL n)) (r.words (s.get (HIF.RP_STAT_SQ_HEAD n)) (s.get (HIF.RP_RQ_STAT_RQ_PHASE n))) = true ∧
      s.frame t [.host, .rings, .hostFn] [HIF.RP_RQ_STAT_RQ_TAIL n, HIF.RP_RQ_STAT_RQ_PHASE n, HIF.RP_RQ_STAT_PENDING n, HIF.RP_STAT_BUSY n]) ∧
  (∀ (s : State) (n v : Nat), n < 64 → s.ringOn n = false → bitAt v 0 = true → 4 ≤ bits v 1 5 ∧ bits v 1 5 ≤ 16 ∧ 4 ≤ bits v 6 5 ∧ bits v 6 5 ≤ 16 →
    Answers (.rpCfgWrite n v) s fun t =>
      (t.rd (HIF.RP_CFG n)).toNat = v % 2 ^ 25 ∧ t.get (HIF.RP_STAT_SQ_HEAD n) = 0 ∧ t.get (HIF.RP_STAT_SQ_PHASE n) = 1 ∧ t.get (HIF.RP_STAT_NOT_VISIBLE n) = 0 ∧
      t.get (HIF.RP_RQ_STAT_RQ_TAIL n) = 0 ∧ t.get (HIF.RP_RQ_STAT_RQ_PHASE n) = 1 ∧ t.get (DBL.SQ_TAIL_INDEX n) = 0 ∧ t.get (DBL.RQ_HEAD_INDEX n) = 0 ∧
      t.ring n = { s.ring n with rereads := 0 } ∧ (∀ m, m ≠ n → t.ring m = s.ring m) ∧
      s.frame t [.rings] [Fld.whole (HIF.RP_CFG n), HIF.RP_STAT_SQ_HEAD n, HIF.RP_STAT_SQ_PHASE n, HIF.RP_STAT_NOT_VISIBLE n, HIF.RP_RQ_STAT_RQ_TAIL n,
      HIF.RP_RQ_STAT_RQ_PHASE n, DBL.SQ_TAIL_INDEX n, DBL.RQ_HEAD_INDEX n]) ∧
  (∀ (s : State) (n v : Nat), s.ringOn n = false → bitAt v 0 = true → ¬(4 ≤ bits v 1 5 ∧ bits v 1 5 ≤ 16 ∧ 4 ≤ bits v 6 5 ∧ bits v 6 5 ≤ 16) →
    Answers (.rpCfgWrite n v) s fun t => s.frame t [] []) ∧
  (∀ (s : State) (n v : Nat), s.ringOn n = true → (bitAt v 0 = true ∨ s.on (HIF.RP_STAT_BUSY n) = true) →
    Answers (.rpCfgWrite n v) s fun t => s.frame t [] []) ∧
  (∀ (s : State) (n v : Nat), s.ringOn n = true → bitAt v 0 = false → s.on (HIF.RP_STAT_BUSY n) = false →
    Answers (.rpCfgWrite n v) s fun t => t.get (HIF.RP_CFG_ENABLE n) = 0 ∧ s.frame t [] [HIF.RP_CFG_ENABLE n]) ∧
  (∀ (s : State) (n v : Nat), s.ringOn n = false → bitAt v 0 = false →
    Answers (.rpCfgWrite n v) s fun t => (t.rd (HIF.RP_CFG n)).toNat = v % 2 ^ 25 ∧ s.frame t [] [Fld.whole (HIF.RP_CFG n)])

/-- Streams (R203, R213 to R224). What the specification leaves open in it is the model's choice: log entries 66, 67, 68, 69, 70, 139. -/
def Obligations.StreamsAreOpenedChangedAndClosedBySlips : Prop :=
  (∀ (s : State) (n k pa : Nat) (fits : Bool) (u : Taken) (l : List Byte) (secs : List RawSec), s.slipAt n k 0x01 = some u → s.slipWaits n u = false → u.reservedOk = true → 1 ≤ bits (u.word 1) 8 8 ∧ bits (u.word 1) 8 8 ≤ 7 → bits (u.word 1) 16 2 ≠ 3 → (s.stream u.streamField).state = .closed → ((s.taking.any fun q => q.stream == u.streamField) = false) → ((s.staged.any fun q => q.stream == u.streamField) = false) → l.length = u.word 4 → s.buffer n (u.addr 2) pa l = true → splitDescriptor (l.length / 4 + 1) l = (secs, none) → secOf secs tyProofing = none → (descriptorRefusal (bits (u.word 1) 8 8) (u.asks n secs).geo.codec (sectionsRequired (bits (u.word 1) 8 8) (u.asks n secs).geo.codec) secs none (s.fieldRefusals u.streamField (u.asks n secs) true secs)).isNone = true → ((!s.big && ((u.asks n secs).secs.network.any fun w => bitAt w.ports 1)) = false) → s.netRefusal u.streamField (bits (u.word 1) 8 8) (u.asks n secs).secs = none → (bits (u.word 1) 8 8 = 1 → (s.openStreams.filter fun e => e.2.kind == 1).length + (s.opening.filter fun e => e.2.1 == 1).length < 16) → s.appletOk (u.asks n secs).secs = true → fits = true → s.holdsIngest (u.asks n secs) = true → s.charges.1 + ((u.asks n secs).charge s.factor).1 ≤ (s.capacity (s.sparesHeld || bits (u.word 1) 16 2 != 2)).1 → s.charges.2 + ((u.asks n secs).charge s.factor).2 ≤ (s.capacity (s.sparesHeld || bits (u.word 1) 16 2 != 2)).2 →
    Answers (.openStream n k fits) s fun t =>
      t.staged = s.staged ++ [{ rp := n, id := u.id, stream := u.streamField, what := .openS (bits (u.word 1) 8 8) (bits (u.word 1) 16 2) (bitAt (u.word 1) 18) (u.asks n secs).secs (u.asks n secs).lim ((u.asks n secs).charge s.factor).1 ((u.asks n secs).charge s.factor).2 }] ∧
      t.ring n = (s.ring n).stages u ∧ (∀ m, m ≠ n → t.ring m = s.ring m) ∧
      t.get HIF.LEDGER_CU_USED_UNITS = (s.charges.1 + ((u.asks n secs).charge s.factor).1) % 2 ^ 24 ∧
      t.get HIF.LEDGER_SU_USED_UNITS = (s.charges.2 + ((u.asks n secs).charge s.factor).2) % 2 ^ 24 ∧
      s.frame t [.free, .mmu, .rings, .staged] ledgerFields) ∧
  (∀ (s : State) (n k : Nat) (fits : Bool) (u : Taken), s.slipAt n k 0x01 = some u → s.slipWaits n u = false → u.reservedOk = true → 1 ≤ bits (u.word 1) 8 8 ∧ bits (u.word 1) 8 8 ≤ 7 → bits (u.word 1) 16 2 ≠ 3 → (s.stream u.streamField).state ≠ .closed → s.mayComplete n k u = true →
    Answers (.openStream n k fits) s fun t => s.completes t n u 0x0005 0 [] ∧ s.frame t s.complParts (s.complFields n)) ∧
  (∀ (s : State) (n k pa : Nat) (fits : Bool) (u : Taken) (l : List Byte) (secs : List RawSec) (f : Nat × Nat), s.slipAt n k 0x01 = some u → s.slipWaits n u = false → u.reservedOk = true → 1 ≤ bits (u.word 1) 8 8 ∧ bits (u.word 1) 8 8 ≤ 7 → bits (u.word 1) 16 2 ≠ 3 → (s.stream u.streamField).state = .closed → ((s.taking.any fun q => q.stream == u.streamField) = false) → l.length = u.word 4 → s.buffer n (u.addr 2) pa l = true → splitDescriptor (l.length / 4 + 1) l = (secs, none) → secOf secs tyProofing = none → descriptorRefusal (bits (u.word 1) 8 8) (u.asks n secs).geo.codec (sectionsRequired (bits (u.word 1) 8 8) (u.asks n secs).geo.codec) secs none (s.fieldRefusals u.streamField (u.asks n secs) true secs) = some f → s.mayComplete n k u = true →
    Answers (.openStream n k fits) s fun t => s.completes t n u stBadField 0 [0, 0, 0, f.1 + f.2 * 65536] ∧ s.frame t (.free :: .mmu :: s.complParts) (s.complFields n)) ∧
  (∀ (s : State) (n k pa : Nat) (fits : Bool) (u : Taken) (l : List Byte) (secs : List RawSec), s.slipAt n k 0x01 = some u → s.slipWaits n u = false → u.reservedOk = true → 1 ≤ bits (u.word 1) 8 8 ∧ bits (u.word 1) 8 8 ≤ 7 → (bits (u.word 1) 8 8 = 1 → (s.openStreams.filter fun e => e.2.kind == 1).length + (s.opening.filter fun e => e.2.1 == 1).length < 16) → bits (u.word 1) 16 2 ≠ 3 → (s.stream u.streamField).state = .closed → ((s.taking.any fun q => q.stream == u.streamField) = false) → l.length = u.word 4 → s.buffer n (u.addr 2) pa l = true → splitDescriptor (l.length / 4 + 1) l = (secs, none) → secOf secs tyProofing = none → (descriptorRefusal (bits (u.word 1) 8 8) (u.asks n secs).geo.codec (sectionsRequired (bits (u.word 1) 8 8) (u.asks n secs).geo.codec) secs none (s.fieldRefusals u.streamField (u.asks n secs) true secs)).isNone = true → ((!s.big && ((u.asks n secs).secs.network.any fun w => bitAt w.ports 1)) = false) → s.netRefusal u.streamField (bits (u.word 1) 8 8) (u.asks n secs).secs = none → s.appletOk (u.asks n secs).secs = true → fits = true → s.holdsIngest (u.asks n secs) = true → ((s.capacity (s.sparesHeld || bits (u.word 1) 16 2 != 2)).1 < s.charges.1 + ((u.asks n secs).charge s.factor).1 ∨ (s.capacity (s.sparesHeld || bits (u.word 1) 16 2 != 2)).2 < s.charges.2 + ((u.asks n secs).charge s.factor).2) → s.mayComplete n k u = true →
    Answers (.openStream n k fits) s fun t => s.completes t n u 0x0006 0 [] ∧ s.frame t (.free :: .mmu :: s.complParts) (s.complFields n)) ∧
  (∀ (s : State) (n k pa : Nat) (u : Taken) (l : List Byte) (secs : List RawSec) (x : Stream), s.slipAt n k 0x03 = some u → bitAt (u.word 1) 8 = false → s.slipWaits n u = false → u.reservedOk = true → s.streamFor n u [1, 2, 3, 4, 5, 6, 7] = true → ((s.taking ++ s.staged).all (fun q => q.stream != u.streamField) = true) → x = s.stream u.streamField → l.length = u.word 4 → s.buffer n (u.addr 2) pa l = true → splitDescriptor (l.length / 4 + 1) l = (secs, none) → secOf secs tyProofing = none → fixedChanged x.kind x { x with secs := x.secs.withSecs secs [] [] } secs = false → (descriptorRefusal x.kind x.geo.codec [] secs none (s.fieldRefusals u.streamField { x with secs := x.secs.withSecs secs [] [] } false secs)).isNone = true → ({ x with secs := x.secs.withSecs secs [] [] }.charge s.factor = (x.cu, x.su) ∨ (s.charges.1 + ({ x with secs := x.secs.withSecs secs [] [] }.charge s.factor).1 ≤ (s.capacity s.sparesHeld).1 + x.cu ∧ s.charges.2 + ({ x with secs := x.secs.withSecs secs [] [] }.charge s.factor).2 ≤ (s.capacity s.sparesHeld).2 + x.su)) →
    Answers (.setConfig n k) s fun t =>
      t.staged = s.staged ++ [{ rp := n, id := u.id, stream := u.streamField, what := .setS (x.secs.withSecs secs [] []) ({ x with secs := x.secs.withSecs secs [] [] }.charge s.factor).1 ({ x with secs := x.secs.withSecs secs [] [] }.charge s.factor).2 }] ∧
      t.ring n = (s.ring n).stages u ∧ (∀ m, m ≠ n → t.ring m = s.ring m) ∧ s.frame t [.free, .mmu, .rings, .staged] ledgerFields) ∧
  (∀ (s : State) (n k pa : Nat) (u : Taken) (l : List Byte) (secs : List RawSec) (x : Stream), s.slipAt n k 0x03 = some u → bitAt (u.word 1) 8 = false → s.slipWaits n u = false → u.reservedOk = true → s.streamFor n u [1, 2, 3, 4, 5, 6, 7] = true → ((s.taking ++ s.staged).all (fun q => q.stream != u.streamField) = true) → x = s.stream u.streamField → l.length = u.word 4 → s.buffer n (u.addr 2) pa l = true → splitDescriptor (l.length / 4 + 1) l = (secs, none) → secOf secs tyProofing = none → (typeRefusal x.kind x.geo.codec secs none).isNone = true → fixedChanged x.kind x { x with secs := x.secs.withSecs secs [] [] } secs = true → s.mayComplete n k u = true →
    Answers (.setConfig n k) s fun t => s.completes t n u 0x0007 0 [] ∧ s.frame t (.free :: .mmu :: s.complParts) (s.complFields n)) ∧
  (∀ (s : State) (n k : Nat) (u : Taken), s.slipAt n k 0x03 = some u → bitAt (u.word 1) 8 = false → s.slipWaits n u = false → u.reservedOk = true → s.streamFor n u [1, 2, 3, 4, 5, 6, 7] = false → s.mayComplete n k u = true →
    Answers (.setConfig n k) s fun t => s.completes t n u stBadStream 0 [] ∧ s.frame t s.complParts (s.complFields n)) ∧
  (∀ (s : State) (n k pa v : Nat) (u : Taken), s.slipAt n k 0x03 = some u → bitAt (u.word 1) 8 = true → s.slipWaits n u = false → u.reservedOk = true → u.word 4 = 8 → s.buffer n (u.addr 2) pa [0x20, 0, 8, 0, BitVec.ofNat 8 v, 0, 0, 0] = true → v ≤ 2 → s.factor ≤ paceFactor v → (v = 1 → s.on CNS.CNS_STAT_PACE_LIMITED = false) →
    Answers (.setConfigDevice n k) s fun t =>
      s.completes t n u stSuccess 0 [s.get CAT.EPOCH_VALUE, s.get CAT.DIGEST_HI_VALUE, s.get CAT.DIGEST_LO_VALUE] ∧
      t.get TOP.PACE_CTL_PACE = v ∧ t.get TOP.RATE_FACTOR_TARGET = paceFactor v ∧
      s.frame t (.free :: .mmu :: s.complParts) (s.complFields n ++ [TOP.PACE_CTL_PACE, TOP.RATE_FACTOR_TARGET, TOP.PACE_STAT_RAMPING, CNS.VOLTAGE_TARGET_MV])) ∧
  (∀ (s : State) (n k m : Nat) (u : Taken), s.slipAt n k 0x02 = some u → u.reservedOk = true → bitAt (u.word 1) 8 = false → u.streamField = m → s.streamFor n u [1, 2, 3, 4, 5, 6, 7] = true → s.flowsOf m = [] → (s.stream m).dec.waiting = [] → (s.staged.all (fun q => q.stream != m && !q.developsFrom m) = true) → ((s.openStreams.any fun e => e.2.isDeveloped && e.2.geo.source == m && e.2.state == .opened && e.1 != m) = false) →
    Answers (.closeStream n k) s fun t =>
      t.stream m = { s.stream m with state := .closing, abort := false, closeSlip := some (n, u.id) } ∧ (∀ j, j ≠ m → t.stream j = s.stream j) ∧
      t.ring n = { s.ring n with taken := (s.ring n).taken.map fun e => if e.id = u.id then { e with started := true } else e } ∧
      (∀ r, r ≠ n → t.ring r = s.ring r) ∧ s.frame t [.rings, .streams] ledgerFields) ∧
  (∀ (s : State) (n k m : Nat) (u : Taken), s.slipAt n k 0x02 = some u → u.reservedOk = true → bitAt (u.word 1) 8 = true → u.streamField = m → s.streamFor n u [2, 3, 5, 6] = true → (s.stream m).pics = [] → s.earlier n k = [] → s.flowsOf m = [] → (s.stream m).dec.waiting = [] → (s.staged.all (fun q => q.stream != m && !q.developsFrom m) = true) → ((s.openStreams.any fun e => e.2.isDeveloped && e.2.geo.source == m && e.2.state == .opened && e.1 != m) = false) →
    Answers (.closeStream n k) s fun t =>
      t.stream m = { s.stream m with state := .closing, abort := true, closeSlip := some (n, u.id) } ∧ (∀ j, j ≠ m → t.stream j = s.stream j) ∧
      s.frame t [.rings, .streams, .tripped] (ACC.ACC_STAT_HOLD :: ledgerFields)) ∧
  (∀ (s : State) (n e last rp id : Nat) (u : Taken), (s.stream n).closeEpoch = some e → (s.stream n).state = .closing → (s.stream n).toClose = none → (s.stream n).lastReleased = some last → (s.stream n).closeSlip = some (rp, id) → (s.ring rp).byId id = some u → u.op = 0x02 → u.streamField = n → s.flowsOf n = [] → s.stateDue n = false → ((s.openStreams.any fun d => d.2.isDeveloped && d.2.geo.source == n && d.1 != n) = false) →
    Answers (.streamClosed n) s fun t =>
      t.stream n = Stream.init ∧ (∀ j, j ≠ n → t.stream j = s.stream j) ∧ (t.ring rp).byId id = none ∧
      { s.waiting rp (u.completion stSuccess 0 [last % 2 ^ 32, e]) with frees := ((s.stream n).cu, (s.stream n).su) } ∈ (t.ring rp).compl ∧
      (∀ m, m ≠ rp → t.ring m = s.ring m) ∧
      t.get HIF.LEDGER_CU_USED_UNITS = t.charges.1 % 2 ^ 24 ∧ t.get HIF.LEDGER_SU_USED_UNITS = t.charges.2 % 2 ^ 24 ∧
      (∀ h, (s.stream n).applet.all (fun a => !a.active || a.hart != h) = true → t.hart h = s.hart h) ∧
      s.frame t (.streams :: .tripped :: .harts :: s.complParts) (s.complFields rp ++ HIF.RP_STAT_BUSY (s.stream n).rp :: ledgerFields ++ portFields ++ spareFields)) ∧
  (∀ (s : State) (n e last : Nat) (x : Stream), s.stream n = x → x.closeEpoch = some e → x.state = .closing → x.toClose = none → x.lastReleased = some last → x.closeSlip = none → x.isDeveloped = true → s.flowsOf n = [] → s.stateDue n = false → ((s.openStreams.any fun d => d.2.isDeveloped && d.2.geo.source == n && d.1 != n) = false) → (s.ring x.eventRing).lost = 0 → (s.ring x.eventRing).events.length < 1024 → (s.mayWrite x.eventRing = false ∨ (s.ring x.eventRing).compl ≠ []) →
    Answers (.streamClosed n) s fun t =>
      t.stream n = Stream.init ∧ (∀ j, j ≠ n → t.stream j = s.stream j) ∧
      (t.ring x.eventRing).events = (s.ring x.eventRing).events ++ [{ eventSlip 0 (some n) 5 0 [0, 0x0010] with before := some x.geo.source }] ∧
      (t.ring x.eventRing).drain = (s.ring x.eventRing).events.length + 1 ∧
      (t.ring x.eventRing).compl = (s.ring x.eventRing).compl ∧ (∀ m, m ≠ x.eventRing → t.ring m = s.ring m) ∧
      s.frame t [.rings, .streams, .tripped, .harts]
      (HIF.RP_STAT_BUSY x.rp :: HIF.RP_RQ_STAT_PENDING x.eventRing :: ledgerFields ++ portFields ++ spareFields)) ∧
  (∀ (s : State) (n e last : Nat) (x : Stream), s.stream n = x → x.closeEpoch = some e → x.state = .closing → x.toClose = none → x.lastReleased = some last → x.closeSlip = none → x.isDeveloped = true → s.flowsOf n = [] → s.stateDue n = false → ((s.openStreams.any fun d => d.2.isDeveloped && d.2.geo.source == n && d.1 != n) = false) → (s.ring x.eventRing).lost = 0 → (s.ring x.eventRing).compl = [] → (s.ring x.eventRing).events.length < 1024 → s.mayWrite x.eventRing = true → (s.ring x.eventRing).events.length < s.rqFree x.eventRing →
    Answers (.streamClosed n) s fun t =>
      t.stream n = Stream.init ∧ (∀ j, j ≠ n → t.stream j = s.stream j) ∧ (t.ring x.eventRing).events = [] ∧
      (∀ m, m ≠ x.eventRing → t.ring m = s.ring m) ∧
      s.frame t [.host, .rings, .vecs, .hostFn, .streams, .tripped, .harts]
      ([HIF.RP_STAT_BUSY x.rp, HIF.RP_RQ_STAT_PENDING x.eventRing, HIF.RP_RQ_STAT_RQ_TAIL x.eventRing, HIF.RP_RQ_STAT_RQ_PHASE x.eventRing] ++
      vectorBits (s.get (HIF.RP_CFG_VECTOR x.eventRing)) ++ ledgerFields ++ portFields ++ spareFields)) ∧
  (∀ (s : State) (n e : Nat) (a : Applet), (s.stream n).closeEpoch = some e → (s.stream n).state = .closing → (s.stream n).toClose = some a → s.flowsIdle n = true → s.stateDue n = false → ((s.openStreams.any fun d => d.2.isDeveloped && d.2.geo.source == n && d.1 != n) = false) →
    Answers (.streamClosed n) s fun t =>
      (t.stream n).applet = some { a with queue := [], call := some { entry := .rcClose, picture := 0, args := [a.dataAt], argLen := 0, writable := false, tick := s.ticks } } ∧
      (t.stream n).state = .closing ∧ (t.hart a.hart).user = true ∧ (t.hart a.hart).regs.pc = a.image.entry .rcClose ∧
      (∀ j, j ≠ n → t.stream j = s.stream j) ∧ (∀ h, h ≠ a.hart → t.hart h = s.hart h) ∧ s.frame t [.streams, .harts] []) ∧
  (∀ (s : State) (n k m : Nat) (u : Taken), s.slipAt n k 0x06 = some u → u.verdict = none → u.reservedOk = true → bitAt (u.word 1) 8 = false → u.streamField = m → s.streamFor n u [1, 2, 3, 4, 5, 6, 7] = true → (((s.earlier n k).any fun e => sameStream u e && e.op == 0x06) = false) → (s.stream m).dec.waiting = [] →
    Answers (.flushStream n k) s fun t =>
      t.stream m = { s.stream m with flush := some (0, (s.stream m).nextPic) } ∧ (∀ j, j ≠ m → t.stream j = s.stream j) ∧
      t.ring n = { s.ring n with taken := (s.ring n).taken.map fun e => if e.id = u.id then { e with started := true } else e } ∧
      s.frame t [.rings, .streams] []) ∧
  (∀ (s : State) (n k m : Nat) (u e : Taken), (s.ring n).taken[k]? = some u → u.op = 0x06 → u.started = false ∧ u.verdict = none → u.reservedOk = true → u.flags = 0 → bitAt (u.word 1) 8 = true → u.streamField = m → s.streamFor n u [1, 2, 3, 4, 5, 6, 7] = true → s.earlier n k = [e] → sameStream u e = true → e.op ≠ 0x06 → e.started = false ∧ e.verdict = none → e.id ≠ u.id → (s.staged.all (fun q => q.stream != m) = true) → (s.stream m).dec.waiting = [] →
    Answers (.flushStream n k) s fun t =>
      (t.stream m).flush = some (1, (s.stream m).nextPic) ∧ s.waiting n (e.completion stFlushed 0 []) ∈ (t.ring n).compl ∧ (t.ring n).byId e.id = none ∧
      s.frame t (.streams :: s.complParts) (s.complFields n ++ ledgerFields)) ∧
  (∀ (s : State) (n k m c upto r : Nat) (u : Taken), (s.ring n).taken[k]? = some u → u.op = 0x06 → u.started = true ∧ u.verdict = none → u.streamField = m → (s.stream m).flush = some (c, upto) → s.mayComplete n k u = true → (s.stream m).flushDone upto = true → (s.stream m).pics = [] → (s.stream m).eventRing = r → r ≠ n → r < 64 → (s.ring r).compl = [] → (s.ring r).lost = 0 → s.mayWrite r = true → (s.ring r).events.length ≤ s.rqFree r → s.hostFn.fnMask = false → s.on (HIF.MSIX_CTL_MASK (s.get (HIF.RP_CFG_VECTOR r))) = false →
    Answers (.flushStream n k) s fun t =>
      s.answered t n u stSuccess 0 [c] ∧ (t.stream m).flush = none ∧ (t.ring r).events = [] ∧ t.vec (s.get (HIF.RP_CFG_VECTOR r)) = Vec.init ∧
      s.frame t [.host, .rings, .vecs, .hostFn, .streams] [HIF.RP_STAT_BUSY n, HIF.RP_RQ_STAT_RQ_TAIL r, HIF.RP_RQ_STAT_RQ_PHASE r, HIF.RP_RQ_STAT_PENDING r])

/-- Epochs (R220, R459 to R463). What the specification leaves open in it is the model's choice: log entries 74, 75, 129. -/
def Obligations.EpochsBeginAndAreTaken : Prop :=
  (∀ (s : State), s.cat.taking = none → s.on HIF.HIF_STAT_READY = true → ((s.staged.all fun q => match q.what with | .setS _ _ _ => (s.stream q.stream).atBoundary | _ => true) = true) → (s.staged ≠ [] ∨ s.closings ≠ []) →
    Answers .epochBegin s fun t =>
      t.taking = s.staged ++ s.closings ∧ t.staged = [] ∧ t.cat.taking = some (nextEpoch (s.get CAT.EPOCH_VALUE), s.ticks) ∧
      t.get CAT.CAT_STAT_WAITING_ACK = 1 ∧ (∀ u ∈ s.digestUnits, (t.catUnit u).waiting = s.powered u) ∧
      s.frame t [.free, .cat, .staged, .taking] [CAT.CAT_STAT_WAITING_ACK]) ∧
  (∀ (s : State), (s.cat.taking.isSome = true ∨ s.on HIF.HIF_STAT_READY = false ∨ (s.staged = [] ∧ s.closings = []) ∨ (s.staged.any fun q => match q.what with | .setS _ _ _ => !(s.stream q.stream).atBoundary | _ => false) = true) →
    Answers .epochBegin s fun t => t = s) ∧
  (∀ (s : State) (e tk cu su kind prot : Nat) (sub : Bool) (secs : Sections) (lim : TileLimit) (q : Staged) (u : Taken), s.cat.taking = some (e, tk) → s.taking = [q] → q.what = .openS kind prot sub secs lim cu su → 2 ≤ kind → secs.network = none → secs.proof = none → ((s.openStreams.all fun x => x.2.secs.proof.isNone) = true) → (s.ring q.rp).byId q.id = some u → (∀ r, secs.rate = some r → r.applet = 0) → ((openedStream kind prot q.rp s.freeSlot sub secs lim cu su).isDeveloped = true → (s.stream (openedStream kind prot q.rp s.freeSlot sub secs lim cu su).geo.source).state = .opened) →
    Answers .epochTaken s fun t =>
      t.stream q.stream = openedStream kind prot q.rp s.freeSlot sub secs lim cu su ∧ (∀ m, m ≠ q.stream → t.stream m = s.stream m) ∧
      t.taking = [] ∧ t.cat.taking = none ∧ t.get CAT.EPOCH_VALUE = e % 2 ^ 32 ∧ t.get CAT.DIGEST_HI_VALUE = t.deviceDigest / 2 ^ 32 % 2 ^ 32 ∧
      t.get CAT.DIGEST_LO_VALUE = t.deviceDigest % 2 ^ 32 ∧ t.get CAT.CAT_STAT_EPOCH_VALID = 1 ∧ t.get CAT.CAT_STAT_WAITING_ACK = 0 ∧
      t.get (srcPending 2) = 1 ∧ (t.rd CAT.EPOCH_NS).toNat = s.now.ns.toNat ∧ s.completes t q.rp u stSuccess 0 [e, cu, su] ∧
      s.frame t (.free :: .cat :: .streams :: .taking :: .tripped :: s.complParts)
      ([CAT.EPOCH_VALUE, CAT.DIGEST_HI_VALUE, CAT.DIGEST_LO_VALUE, .whole CAT.EPOCH_SEC_LO, .whole CAT.EPOCH_SEC_HI, .whole CAT.EPOCH_NS,
      CAT.CAT_STAT_EPOCH_VALID, CAT.CAT_STAT_WAITING_ACK, srcPending 2] ++ s.complFields q.rp ++ ledgerFields ++ portFields ++ spareFields)) ∧
  (∀ (s : State) (e tk cu su : Nat) (secs : Sections) (q : Staged) (u : Taken), s.cat.taking = some (e, tk) → s.taking = [q] → q.what = .setS secs cu su → (s.stream q.stream).pics = [] → secs.proof = none → ((s.openStreams.all fun x => x.2.secs.proof.isNone) = true) → (s.ring q.rp).byId q.id = some u →
    Answers .epochTaken s fun t =>
      t.stream q.stream = (s.stream q.stream).reconfigured secs cu su ∧ (∀ m, m ≠ q.stream → t.stream m = s.stream m) ∧
      t.taking = [] ∧ t.get CAT.EPOCH_VALUE = e % 2 ^ 32 ∧
      s.completes t q.rp u stSuccess 0 [e, t.deviceDigest / 2 ^ 32, t.deviceDigest % 2 ^ 32] ∧
      (∀ v ∈ s.digestUnits, (t.catUnit v).expect = (s.catUnit v).expectNext ∧ (t.catUnit v).waiting = false)) ∧
  (∀ (s : State) (e tk cu su : Nat) (secs : Sections) (q : Staged), s.cat.taking = some (e, tk) → s.taking = [q] → q.what = .setS secs cu su → secs.proof = none → ((s.openStreams.all fun x => x.2.secs.proof.isNone) = true) →
    Answers .epochTaken s fun t =>
      (t.stream q.stream).secs = secs ∧ (t.stream q.stream).cu = cu ∧ (t.stream q.stream).su = su ∧ (t.stream q.stream).state = (s.stream q.stream).state ∧
      t.taking = [] ∧ t.cat.taking = none ∧ t.get CAT.EPOCH_VALUE = e % 2 ^ 32 ∧ t.get (srcPending 2) = 1) ∧
  (∀ (s : State) (e tk : Nat) (q : Staged), s.cat.taking = some (e, tk) → s.taking = [q] → q.what = .closeS → (s.stream q.stream).pics = [] → ((s.openStreams.all fun x => x.2.secs.proof.isNone) = true) →
    Answers .epochTaken s fun t =>
      t.stream q.stream = { s.stream q.stream with closeEpoch := some e } ∧ (∀ m, m ≠ q.stream → t.stream m = s.stream m) ∧ t.taking = [] ∧
      t.get CAT.EPOCH_VALUE = e % 2 ^ 32 ∧ (∀ m, t.ring m = s.ring m)) ∧
  (∀ (s : State) (e tk u : Nat), s.cat.taking = some (e, tk) → 1000 ≤ s.usSince tk → (s.catUnit u).waiting = true → s.rgs.raises u 2 = false → s.power.held = false → s.taking = [] → s.unitEnabled u = true → 0x100 ≤ u ∧ u < 0x140 →
    Answers (.epochAckTimeout [u]) s fun t =>
      s.logged t u 0x49 2 0 ∧ t.get CAT.NO_ACKS_COUNT = satAdd CAT.NO_ACKS_COUNT.w (s.get CAT.NO_ACKS_COUNT) 1 ∧ t.get CAT.EPOCH_VALUE = e % 2 ^ 32 ∧
      t.cat.taking = none)

/-- Fuses and the window (R466 to R469). What the specification leaves open in it is the model's choice: log entries 30, 98. -/
def Obligations.FusesLoadAndTheWindowOpens : Prop :=
  (∀ (s : State) (f : FuseLoad), s.power.held = false → s.on FUS.FUS_STAT_LOADED = false → s.on FUS.FUS_STAT_FUSE_FAIL = false → f.failed % 256 ≠ 0 → s.get FUS.FUS_STAT_ATTEMPTS < 2 →
    Answers (.fuseLoadDone f) s fun t =>
      t.get FUS.FUS_STAT_ATTEMPTS = s.get FUS.FUS_STAT_ATTEMPTS + 1 ∧ t.get FUS.FUS_STAT_SECTION_FAIL = f.failed % 256 ∧
      s.frame t [] [FUS.FUS_STAT_ATTEMPTS, FUS.FUS_STAT_SECTION_FAIL]) ∧
  (∀ (s : State) (f : FuseLoad), s.power.held = false → s.on FUS.FUS_STAT_LOADED = false → s.on FUS.FUS_STAT_FUSE_FAIL = false → f.failed % 256 ≠ 0 → s.get FUS.FUS_STAT_ATTEMPTS = 2 →
    Answers (.fuseLoadDone f) s fun t =>
      t.get FUS.FUS_STAT_ATTEMPTS = 3 ∧ t.get FUS.FUS_STAT_SECTION_FAIL = f.failed % 256 ∧ t.get FUS.FUS_STAT_FUSE_FAIL = 1 ∧ t.get KPR.BOOT_STAT_STAGE = 7 ∧
      t.power = { s.power with padsSafe := true } ∧
      s.frame t [.pads, .power] [FUS.FUS_STAT_ATTEMPTS, FUS.FUS_STAT_SECTION_FAIL, FUS.FUS_STAT_FUSE_FAIL, KPR.BOOT_STAT_STAGE]) ∧
  (∀ (s : State) (f : FuseLoad), s.power.held = false → s.on FUS.FUS_STAT_LOADED = false → s.on FUS.FUS_STAT_FUSE_FAIL = false → f.failed % 256 = 0 → f.uid.length = 4 →
    Answers (.fuseLoadDone f) s fun t =>
      t.get FUS.FUS_STAT_LOADED = 1 ∧ t.get KPR.BOOT_STAT_STAGE = 1 ∧ (∀ i, i < 4 → (t.rd (FUS.DEVICE_UID i)).toNat = f.uid.getD i 0 % 2 ^ 32) ∧
      (∀ i, i < 8 → i < f.deny.length → (t.rd (FUS.DENY i)).toNat = f.deny.getD i 0 % 2 ^ 20) ∧ t.keeper.blown = Nat.lor s.keeper.blown (f.counter % 2 ^ 64) ∧
      (t.rd FUS.COUNTER_VALUE).toNat = popCount 64 (Nat.lor s.keeper.blown (f.counter % 2 ^ 64)) ∧ t.cons.started = true ∧
      (∀ p, p ∉ [Part.keeper, .cons] → p.same s t)) ∧
  (∀ (s : State), s.power.held = false → s.get KPR.BOOT_STAT_STAGE = 2 → s.on DRC.DRC_STAT_READY = true → s.keeperOut = false →
    Answers .windowClearDone s fun t =>
      t.get KPR.BOOT_STAT_WINDOW_OPEN = 1 ∧ t.get KPR.BOOT_STAT_STAGE = 3 ∧ t.keeper = { s.keeper with opened := true } ∧
      (∀ c, s.chanCount ≤ c → (t.chan c).writeQ = (s.chan c).writeQ) ∧
      (∀ b, s.downloadBase ≤ b → b < s.downloadBase + 2 ^ 26 → Tab.get (fun _ => 0#8) t.dram b = 0) ∧
      (∀ b, b < s.downloadBase ∨ s.downloadBase + 2 ^ 26 ≤ b → Tab.get (fun _ => 0#8) t.dram b = Tab.get (fun _ => 0#8) s.dram b) ∧
      (∀ c, c < s.chanCount → (t.chan c).writeQ = (s.chan c).writeQ.filter fun r => !(decide (s.downloadBase ≤ 32 * r.block ∧ 32 * r.block < s.downloadBase + 2 ^ 26))) ∧
      s.frame t [.dram, .damage, .chans, .keeper] [KPR.BOOT_STAT_WINDOW_OPEN, KPR.BOOT_STAT_STAGE]) ∧
  (∀ (s0 s : State) (off : Nat) (data : List Byte), s = s0.linkActivity → s0.power.held = false → s0.pwState ≠ pwVault → s.windowTakes off data.length = true → s.sound (s.downloadBase + off) data.length = true →
    Answers (.windowWrite off data) s0 fun t =>
      t.dramBytes (s.downloadBase + off) data.length = data ∧
      (∀ a, a < s.downloadBase + off ∨ s.downloadBase + off + data.length ≤ a → t.dramByte a = s.dramByte a) ∧
      s.frame t [.dram, .chans] ((List.range 8).map DRC.CH_RMW_COUNT)) ∧
  (∀ (s0 s : State) (off : Nat) (data : List Byte), s = s0.linkActivity → s0.power.held = false → s0.pwState ≠ pwVault → s.windowTakes off data.length = false →
    Answers (.windowWrite off data) s0 fun t =>
      t.get KPR.WINDOW_DROPS_VALUE = satAdd KPR.WINDOW_DROPS_VALUE.w (s.get KPR.WINDOW_DROPS_VALUE) 1 ∧ s.frame t [] [KPR.WINDOW_DROPS_VALUE]) ∧
  (∀ (s : State) (b : Bool), s.on KPR.BOOT_STAT_COUNTER_PENDING = false →
    Answers (.vddFuseRamp b) s fun t =>
      t.keeper = { s.keeper with vfuse := b } ∧ t.get FUS.FUS_STAT_VFUSE_OK = (if b then 1 else 0) ∧ s.frame t [.keeper] [FUS.FUS_STAT_VFUSE_OK]) ∧
  (∀ (s : State) (svn : Nat), s.on KPR.BOOT_STAT_COUNTER_PENDING = true → s.keeper.advance = some svn → s.counter < svn →
    Answers (.vddFuseRamp true) s fun t =>
      t.get FUS.FUS_STAT_VFUSE_OK = 1 ∧ t.keeper.blown = raiseBits svn 64 s.keeper.blown ∧ t.keeper.advance = none ∧ t.get KPR.BOOT_STAT_COUNTER_PENDING = 0 ∧
      (t.rd FUS.COUNTER_VALUE).toNat = popCount 64 (raiseBits svn 64 s.keeper.blown) ∧
      s.frame t [.keeper] [FUS.FUS_STAT_VFUSE_OK, KPR.BOOT_STAT_COUNTER_PENDING, .whole FUS.COUNTER_LO, .whole FUS.COUNTER_HI, .whole FUS.COUNTER_VALUE])

/-- The mailbox (R470 to R483). What the specification leaves open in it is the model's choice: log entries 17, 99, 100, 101. -/
def Obligations.MailboxRequestsAreAnswered : Prop :=
  (∀ (s : State) (word : Nat), s.power.held = false → s.pwState ≠ pwVault → bitAt word 31 = true → s.on KPR.MBX_STAT_BUSY = true →
    Answers (.loadBundle word []) s fun t =>
      t.get KPR.MBX_STAT_GO_IGNORED = 1 ∧ t.get KPR.MBX_CTL_IRQ = bits word 8 1 ∧ t.get KPR.MBX_CTL_VECTOR = bits word 0 6 ∧
      s.frame t [] [KPR.MBX_CTL_IRQ, KPR.MBX_CTL_VECTOR, KPR.MBX_STAT_GO_IGNORED]) ∧
  (∀ (s : State) (h : Bool) (word : Nat) (r : MbxReq), s.bar0Up = true → (s.heard h).mailbox word r 0 = true →
    Answers (.registerWrite h KPR.MBX_CTL word) s fun t =>
      t.get KPR.MBX_STAT_BUSY = 1 ∧ t.keeper = { s.keeper with asked := some r } ∧
      (s.heard h).frame t [.keeper] [KPR.MBX_CTL_IRQ, KPR.MBX_CTL_VECTOR, KPR.MBX_STAT_BUSY]) ∧
  (∀ (s : State) (word : Nat) (r : MbxReq), s.power.held = false → s.pwState ≠ pwVault → bitAt word 31 = false → bitAt word 8 = false → s.keeper.asked = some r → s.sound (responseOff + s.downloadBase) 64 = true → (r.op = 0 ∨ 5 < r.op) →
    Answers (.mailboxUnknownOpcode word) s fun t =>
      t.responds r.seq mbBadOpcode [] ∧ t.keeper = { s.keeper with asked := none } ∧ s.frame t [.dram, .chans, .keeper] mbxFields) ∧
  (∀ (s : State) (word : Nat) (r : MbxReq), s.mailbox word r 0 = true → (r.op = 0 ∨ 5 < r.op) →
    Answers (.mailboxUnknownOpcode word) s fun t => t.responds r.seq mbBadOpcode [] ∧ s.frame t [.dram, .chans] mbxFields) ∧
  (∀ (s : State) (word : Nat) (r : MbxReq), s.mailbox word r 0 = true → 1 ≤ r.op ∧ r.op ≤ 5 →
    Answers (.mailboxUnknownOpcode word) s fun t => s.frame t [] [KPR.MBX_CTL_IRQ, KPR.MBX_CTL_VECTOR]) ∧
  (∀ (s : State) (word : Nat) (r : MbxReq), s.mailbox word r 0 = true → r.op = 5 → s.keeperOut = true →
    Answers (.keeperIdentity word) s fun t => t.responds r.seq mbNoIdentity [] ∧ s.frame t [.dram, .chans] mbxFields) ∧
  (∀ (s : State) (word : Nat) (r : MbxReq) (cs : List Crypto) (b : Loading), s.mailbox word r 0 = true → r.op = 1 → s.keeperOut = false → s.on KPR.BOOT_STAT_WINDOW_OPEN = true → s.keeper.launched = none → 1 ≤ r.arg0 ∧ r.arg0 ≤ windowLen → s.sound s.downloadBase r.arg0 = true → b = s.verifyFrom 18 (s.dramBytes s.downloadBase r.arg0) cs { done := [], plains := [], core := [], advance := none, applets := [], next := s.secureBase } →
    Answers (.loadBundle word cs) s fun t =>
      t.get KPR.MBX_STAT_BUSY = 1 ∧ t.get KPR.BOOT_STAT_WINDOW_OPEN = 0 ∧ t.get KPR.BOOT_STAT_STAGE = 4 ∧ t.keeper.req = some r.seq ∧
      (∃ j, t.keeper.load = some j ∧ j.containers = b.done ∧ j.status = (match b.done.head? with | some c => c.result | none => mbNoCore) ∧ j.advance = b.advance ∧
      j.applets = b.applets ∧ j.measurement = sha384 (s.dramBytes s.downloadBase r.arg0) ∧ j.plains = b.plains.map fun q => (q.1, q.2.length))) ∧
  (∀ (s : State) (word : Nat) (r : MbxReq) (cs : List Crypto), s.mailbox word r 0 = true → r.op = 1 → s.keeperOut = false → (s.on KPR.BOOT_STAT_WINDOW_OPEN = false ∨ s.keeper.launched.isSome = true) →
    Answers (.loadBundle word cs) s fun t => t.responds r.seq mbNotNow [] ∧ s.frame t [.dram, .chans] mbxFields) ∧
  (∀ (s : State) (word : Nat) (r : MbxReq) (cs : List Crypto), s.mailbox word r 0 = true → r.op = 1 → s.keeperOut = false → s.on KPR.BOOT_STAT_WINDOW_OPEN = true → s.keeper.launched = none → (r.arg0 = 0 ∨ windowLen < r.arg0) →
    Answers (.loadBundle word cs) s fun t => t.responds r.seq mbBadLength [] ∧ s.frame t [.dram, .chans] mbxFields) ∧
  (∀ (s : State) (word : Nat) (r : MbxReq) (macOk : Bool), s.mailbox word r 0 = true → r.op = 2 → s.keeperOut = false → s.puttable = true → r.len ≤ 8128 → s.recordOk r.data = true ∧ macOk = true → s.on KPR.BOOT_STAT_ALIVE = false →
    Answers (.ageingPut word macOk) s fun t =>
      t.responds r.seq mbOk [] ∧ t.keeper = { s.keeper with record := some r.data } ∧ s.frame t [.dram, .chans, .keeper] mbxFields) ∧
  (∀ (s : State) (word : Nat) (r : MbxReq) (macOk : Bool), s.mailbox word r 0 = true → r.op = 2 → s.keeperOut = false → s.puttable = true → r.len ≤ 8128 → s.recordOk r.data = true ∧ macOk = true → s.on KPR.BOOT_STAT_ALIVE = true →
    Answers (.ageingPut word macOk) s fun t =>
      t.responds r.seq mbOk [] ∧ t.get KPR.BOOT_STAT_AGEING_ADOPTED = 1 ∧ t.get CNS.CNS_STAT_STATE = csPlanned ∧ t.get CNS.CNS_STAT_RECORD = 1 ∧
      t.get CNS.REPLANS_VALUE = min (recordSeq r.data) (2 ^ 32 - 1) ∧
      s.frame t [.dram, .chans, .keeper, .cons] (mbxFields ++ [KPR.BOOT_STAT_AGEING_ADOPTED, CNS.CNS_STAT_STATE, CNS.CNS_STAT_RECORD, CNS.REPLANS_VALUE])) ∧
  (∀ (s : State) (word : Nat) (r : MbxReq) (macOk : Bool), s.mailbox word r 0 = true → r.op = 2 → s.keeperOut = false → s.puttable = true → r.len ≤ 8128 → (s.recordOk r.data = false ∨ macOk = false) →
    Answers (.ageingPut word macOk) s fun t => t.responds r.seq mbAgeingRejected [] ∧ s.frame t [.dram, .chans] mbxFields) ∧
  (∀ (s : State) (word : Nat) (r : MbxReq), s.mailbox word r 4096 = true → r.op = 3 → s.keeperOut = false → s.on KPR.BOOT_STAT_ALIVE = true →
    Answers (.ageingGet word) s fun t =>
      (∃ d, t.responds r.seq mbOk d ∧ 108 ≤ d.length ∧ d.length ≤ 4096 ∧ d.take 8 = beBytes 4 0x41475244 ++ beBytes 2 1 ++ beBytes 2 d.length ∧
      (d.drop 8).take 16 = s.regBytes (FUS.DEVICE_UID 0) 4) ∧ s.frame t [.free, .dram, .chans] mbxFields) ∧
  (∀ (s : State) (word : Nat) (r : MbxReq), s.mailbox word r 0 = true → r.op = 3 → s.keeperOut = false → s.on KPR.BOOT_STAT_ALIVE = false →
    Answers (.ageingGet word) s fun t => t.responds r.seq mbNotNow [] ∧ s.frame t [.dram, .chans] mbxFields) ∧
  (∀ (s : State) (word : Nat) (r : MbxReq), s.mailbox word r 0 = true → r.op = 4 → s.keeperOut = false → s.on KPR.BOOT_STAT_ALIVE = true → r.len = 32 → r.arg0 % 64 = 0 ∧ r.arg0 + (s.reportBody r.data).length + 16608 ≤ windowLen → s.sound (s.downloadBase + r.arg0) ((s.reportBody r.data).length + 16608) = true →
    Answers (.keeperAttest word) s fun t =>
      t.responds r.seq mbOk [] ∧ t.dramBytes (s.downloadBase + r.arg0) (s.reportBody r.data).length = s.reportBody r.data ∧
      s.frame t [.free, .dram, .chans] mbxFields) ∧
  (∀ (s : State) (word : Nat) (r : MbxReq), s.mailbox word r 0 = true → r.op = 4 → s.keeperOut = false → s.on KPR.BOOT_STAT_ALIVE = true → r.len ≠ 32 →
    Answers (.keeperAttest word) s fun t => t.responds r.seq mbBadLength [] ∧ s.frame t [.dram, .chans] mbxFields) ∧
  (∀ (s : State) (word : Nat) (r : MbxReq), s.mailbox word r 0 = true → r.op = 5 → s.keeperOut = false → s.on KPR.BOOT_STAT_ALIVE = true → r.arg0 % 64 = 0 ∧ r.arg0 + 452 ≤ windowLen → s.sound (s.downloadBase + r.arg0) 452 = true →
    Answers (.keeperIdentity word) s fun t =>
      t.responds r.seq mbOk [] ∧
      t.dramBytes (s.downloadBase + r.arg0) 452 = s.regBytes (FUS.DEVICE_UID 0) 4 ++ beBytes 384 Config.identityRsa ++ beBytes 4 65537 ++ beBytes 48 Config.identitySlh ∧
      s.frame t [.dram, .chans] mbxFields) ∧
  (∀ (s : State) (word : Nat) (r : MbxReq), s.mailbox word r 0 = true → r.op = 5 → s.keeperOut = false → s.on KPR.BOOT_STAT_ALIVE = true → (r.arg0 % 64 ≠ 0 ∨ windowLen < r.arg0 + 452) →
    Answers (.keeperIdentity word) s fun t => t.responds r.seq mbBadOffset [] ∧ s.frame t [.dram, .chans] mbxFields)

/-- Starts (R476 to R478, R447). What the specification leaves open in it is the model's choice: log entries 101, 102. -/
def Obligations.FirmwareIsLaunchedAndComesAlive : Prop :=
  (∀ (s : State) (j : LoadJob) (seq : Nat), s.keeper.load = some j → s.keeper.req = some seq → j.status ≠ mbOk → s.power.held = false → s.keeperOut = false → s.on KPR.MBX_CTL_IRQ = false → s.sound (responseOff + s.downloadBase) (64 + (loadReport j.containers).length) = true →
    Answers .loadComplete s fun t =>
      t.responds seq j.status (loadReport j.containers) ∧ t.get KPR.BOOT_ERR_CODE = j.status % 256 ∧ t.get KPR.BOOT_ERR_CONTAINER = 0 ∧
      t.get KPR.BOOT_STAT_WINDOW_OPEN = 1 ∧ t.get KPR.BOOT_STAT_STAGE = 3 ∧ t.keeper = { s.keeper with load := none, req := none } ∧
      s.frame t [.dram, .chans, .keeper] (mbxFields ++ [KPR.BOOT_ERR_CODE, KPR.BOOT_ERR_CONTAINER, KPR.BOOT_STAT_WINDOW_OPEN, KPR.BOOT_STAT_STAGE])) ∧
  (∀ (s : State) (j : LoadJob) (seq : Nat), s.keeper.load = some j → s.keeper.req = some seq → j.status = mbOk → s.power.held = false → s.keeperOut = false → s.on KPR.MBX_CTL_IRQ = false → s.sound (responseOff + s.downloadBase) (64 + (loadReport j.containers).length) = true → j.plains = [] →
    Answers .loadComplete s fun t =>
      t.responds seq mbOk (loadReport j.containers) ∧ t.get KPR.BOOT_STAT_WINDOW_OPEN = 1 ∧ t.get KPR.BOOT_STAT_STAGE = 5 ∧ t.copyCar = j.car ∧ t.copyScb = j.scb ∧
      t.keeper.launched = some s.ticks ∧ t.keeper.containers = j.containers ∧ t.keeper.load = none ∧ t.cat.bundle = j.measurement ∧ t.cat.applets = j.applets ∧
      (∀ h, h < 4 → (t.hart h).stopped = false ∧ (t.hart h).halted = false ∧ (t.hart h).user = false ∧
      (∀ i, i < 5 → ((t.hart h).regs.pmp.getD i Pmp.off).locked = true))) ∧
  (∀ (s : State) (key : Nat), key % 65536 = 0x5A17 → s.power.held = false → s.keeper.launched.isSome = true → s.on KPR.BOOT_STAT_ALIVE = false → s.keeper.record = none →
    Answers (.keeperAlive false key) s fun t =>
      t.get KPR.BOOT_STAT_ALIVE = 1 ∧ t.get HIF.HIF_STAT_READY = 1 ∧ t.get KPR.BOOT_STAT_FAILED_STARTS = 0 ∧ t.get KPR.BOOT_STAT_RECOVERY = 0 ∧
      t.get HIF.HIF_STAT_RECOVERY = 0 ∧ t.get KPR.BOOT_STAT_STAGE = 6 ∧ (t.rd KPR.START_MS).toNat = min (s.usSince s.keeper.startTick / 1000) (2 ^ 32 - 1) ∧
      t.keeper.aliveTick = some s.ticks ∧ t.cat.taking = some (nextEpoch (s.get CAT.EPOCH_VALUE), s.ticks) ∧ t.get CAT.CAT_STAT_WAITING_ACK = 1 ∧
      s.frame t [.free, .cat, .keeper, .pads, .staged, .taking] [KPR.BOOT_STAT_ALIVE, HIF.HIF_STAT_READY, KPR.BOOT_STAT_FAILED_STARTS, KPR.BOOT_STAT_RECOVERY,
      HIF.HIF_STAT_RECOVERY, KPR.BOOT_STAT_STAGE, .whole KPR.START_MS, CAT.CAT_STAT_WAITING_ACK, KPR.BOOT_STAT_COUNTER_PENDING, .whole FUS.COUNTER_LO,
      .whole FUS.COUNTER_HI, .whole FUS.COUNTER_VALUE]) ∧
  (∀ (s : State) (key : Nat), Answers (.keeperAlive true key) s fun t => t = s) ∧
  (∀ (s : State), s.power.held = false → s.power.refclk = true → s.on KPR.BOOT_STAT_ALIVE = false → s.on FUS.FUS_STAT_FUSE_FAIL = false → s.pwState ≠ pwVault → s.on KPR.BOOT_STAT_RECOVERY = false → 3000000 ≤ s.usSince s.keeper.startTick →
    Answers .startDeadline s fun t =>
      t.power.held = true ∧ t.power.cold = false ∧ t.get KPR.BOOT_STAT_FAILED_STARTS = min 3 (s.get KPR.BOOT_STAT_FAILED_STARTS + 1) ∧
      t.get RST.RST_STAT_LAST_CAUSE = 3) ∧
  (∀ (s : State) (tk : Nat), s.power.held = false → s.on KPR.BOOT_STAT_ALIVE = false → s.on FUS.FUS_STAT_FUSE_FAIL = false → s.pwState ≠ pwVault → s.on KPR.BOOT_STAT_RECOVERY = true → s.keeper.launched = some tk → 3000000 ≤ s.usSince tk →
    Answers .startDeadline s fun t =>
      t.get KPR.BOOT_STAT_WINDOW_OPEN = 1 ∧ t.get KPR.BOOT_STAT_STAGE = 3 ∧ t.keeper = { s.keeper with launched := none, advance := none } ∧
      (∀ h, h < 4 → t.hart h = { s.hart h with stopped := true }) ∧ s.frame t [.keeper, .harts] [KPR.BOOT_STAT_WINDOW_OPEN, KPR.BOOT_STAT_STAGE]) ∧
  (∀ (s : State), s.power.held = false → s.keeperOut = false → s.pwState ≠ pwVault → ((match s.keeper.mismatch with | some t => decide (s.usSince t < 1000000) | none => false) = false) → s.rgs.raises 0xD0 1 = false →
    Answers .keeperLockstepMismatch s fun t =>
      s.logged t 0xD0 0x21 1 0 ∧ t.keeper = { s.keeper with mismatch := some s.ticks } ∧ s.frame t (.keeper :: lowParts) (lowFields 1)) ∧
  (∀ (s : State) (tk : Nat), s.power.held = false → s.keeperOut = false → s.pwState ≠ pwVault → s.keeper.mismatch = some tk → s.usSince tk < 1000000 → s.rgs.raises 0xD0 3 = false →
    Answers .keeperLockstepMismatch s fun t =>
      s.logged t 0xD0 0x21 3 0 ∧ t.get KPR.BOOT_STAT_STAGE = 8 ∧ t.faulty 0xD0 = true ∧ t.keeper = { s.keeper with mismatch := some s.ticks })

/-- Picture slips (R204, R544). What the specification leaves open in it is the model's choice: log entries 76, 77, 78, 122, 123, 141, 143, 144. -/
def Obligations.HostPicturesAreTakenInAndDecoded : Prop :=
  (∀ (s : State) (n k m : Nat) (u : Taken) (x : Stream) (v : Ycc × Nat × Bool), s.slipAt n k 0x04 = some u → s.slipWaits n u = false → u.reservedOk = true → s.streamFor n u [2, 5] = true → u.streamField = m → s.stream m = x → u.word 4 % 64 = 0 ∧ 2 * x.geo.width ≤ u.word 4 → x.nextPic < 2 ^ 32 → (s.readPicture n u x).2 = some v → (s.readPicture n u x).1.streams = s.streams ∧ (s.readPicture n u x).1.rings = s.rings → s.developed m = [] → ((s.openStreams.all fun e => e.2.pics.all fun p => p.src != some (m, x.nextPic)) = true) → (x.nextPic = 0 ∨ x.rated = false) →
    Answers (.encodePicture n k) s fun t =>
      (t.stream m).nextPic = x.nextPic + 1 ∧
      (∃ p, (t.stream m).pics = x.pics ++ [p] ∧ p.num = x.nextPic ∧ p.input = v.1.y ∧ p.chromaB = v.1.cb ∧ p.chromaR = v.1.cr ∧ p.clamped = v.2.1 ∧ p.slip = some (n, u.id) ∧
      p.key = x.isKey x.nextPic ∧ p.unitCount = x.unitCount ∧ p.dispatched = false ∧
      p.stamp 0 = (if u.time 8 = DTime.none then (s.readPicture n u x).1.now else u.time 8)) ∧
      (∀ j, j ≠ m → t.stream j = s.stream j) ∧ (s.readPicture n u x).1.frame t [.rings, .streams] []) ∧
  (∀ (s : State) (n k : Nat) (u : Taken), s.slipAt n k 0x04 = some u → s.slipWaits n u = false → u.reservedOk = true → s.streamFor n u [2, 5] = true → (u.word 4 % 64 ≠ 0 ∨ u.word 4 < 2 * (s.stream u.streamField).geo.width) → s.mayComplete n k u = true →
    Answers (.encodePicture n k) s fun t => s.completes t n u stBadField 0 [] ∧ s.frame t s.complParts (s.complFields n)) ∧
  (∀ (s : State) (n k : Nat) (u : Taken), s.slipAt n k 0x04 = some u → s.slipWaits n u = false → u.reservedOk = true → s.streamFor n u [2, 5] = true → u.word 4 % 64 = 0 ∧ 2 * (s.stream u.streamField).geo.width ≤ u.word 4 → 2 ^ 32 ≤ (s.stream u.streamField).nextPic → s.mayComplete n k u = true →
    Answers (.encodePicture n k) s fun t => s.completes t n u 0x000B 0 [] ∧ s.frame t s.complParts (s.complFields n)) ∧
  (∀ (s : State) (n k : Nat) (u : Taken), s.slipAt n k 0x04 = some u → s.slipWaits n u = false → u.reservedOk = true → s.streamFor n u [2, 5] = false → s.mayComplete n k u = true →
    Answers (.encodePicture n k) s fun t => s.completes t n u stBadStream 0 [] ∧ s.frame t s.complParts (s.complFields n)) ∧
  (∀ (s s1 : State) (n k m : Nat) (u : Taken) (x : Stream) (au : CodecAu) (input : List Byte) (bad : Bool) (p : ParamSet) (d : Decoder), s.slipAt n k 0x05 = some u → s.slipWaits n u = false → u.reservedOk = true → s.streamFor n u [6] = true → u.streamField = m → s.stream m = x → s.touched m = false → s.slipRead n u (u.addr 2) (u.word 4) = (s1, some (input, bad)) → s1.streams = s.streams ∧ s1.rings = s.rings ∧ s1.mmu.queue = s.mmu.queue ∧ s1.mmu.outside = s.mmu.outside → d = ((x.dec.receive au.sets).release au).enter au → (x.dec.receive au.sets).active x.geo.codec au = some p → p.refused x.geo = false → (x.dec.started = true ∨ startsAt (bitAt x.geo.flags 0) au = true) → (au.rasl = false ∨ ((x.dec.receive au.sets).enter au).dropRasl = false) → 2 * p.width ≤ u.word 8 → x.dec.waiting = [] → au.shown = true ∧ d.from' = none → s1.power.held = false → 1 ≤ p.reorder →
    Answers (.decodePicture n k [] au) s fun t =>
      (t.stream m).dec = Decoder.tidy { d with dpb := { d.decode p au [] (if bad then 2 ^ 11 else 0) with slip := some (n, u.id) } :: d.dpb.map fun v => if v.slip.isSome then { v with age := v.age + 1 } else v } ∧
      (t.stream m).nextPic = x.nextPic ∧ (∀ j, j ≠ m → t.stream j = s.stream j) ∧
      t.ring n = { s.ring n with taken := (s.ring n).taken.map fun e => if e.id = u.id then { e with started := true } else e } ∧
      s1.frame t [.rings, .streams] []) ∧
  (∀ (s s1 s2 : State) (n k m : Nat) (u : Taken) (x : Stream) (au : CodecAu) (input : List Byte) (bad : Bool) (p : ParamSet) (d : Decoder) (q : DpbPic) (rows : Rows) (ps : List (List (Nat × Nat) × List Byte)), s.slipAt n k 0x05 = some u → s.slipWaits n u = false → u.reservedOk = true → s.streamFor n u [6] = true → u.streamField = m → s.stream m = x → s.touched m = false → s.slipRead n u (u.addr 2) (u.word 4) = (s1, some (input, bad)) → s1.streams = s.streams ∧ s1.rings = s.rings ∧ s1.mmu.queue = s.mmu.queue ∧ s1.mmu.outside = s.mmu.outside → d = ((x.dec.receive au.sets).release au).enter au → (x.dec.receive au.sets).active x.geo.codec au = some p → p.refused x.geo = false → (x.dec.started = true ∨ startsAt (bitAt x.geo.flags 0) au = true) → (au.rasl = false ∨ ((x.dec.receive au.sets).enter au).dropRasl = false) → 2 * p.width ≤ u.word 8 → x.dec.waiting = [] → au.shown = true ∧ d.from' = none → s1.power.held = false → p.reorder = 0 → bad = false → q = d.decode p au [] 0 → rows = q.y ++ q.cb ++ q.cr → outputLen (u.word 8) rows.length ((rows.getLast?.getD []).length) ≤ u.word 7 → q.map.length ≤ u.word 11 → q.map ≠ [] → au.hashBad = false → (s.ring n).byId u.id = some u ∧ (s.ring n).placeOf u.id = some k → ((match ((s1.setStream m { x with dec := Decoder.tidy { d with dpb := { d.decode p au [] (if bad then 2 ^ 11 else 0) with slip := some (n, u.id) } :: d.dpb.map fun v => if v.slip.isSome then { v with age := v.age + 1 } else v } }).startSlip n u).outPieces n (fitRows (u.addr 5) (u.word 8) (u.word 7) rows ++ [(u.addr 9, q.map.take (u.word 11))]) with | (q, .ok l) => decide (q = s2) && decide (l = ps) | (_, .error _) => false) = true) → ((ps.all fun q => q.1.all fun r => s2.aperture r.1 == some 8) = true) → s.mayComplete n k u = true →
    Answers (.decodePicture n k [] au) s fun t =>
      s2.completes t n u stSuccess 0 [x.nextPic % 2 ^ 32, outputLen (u.word 8) rows.length ((rows.getLast?.getD []).length), 0,
      min (q.map.filter (· != 0#8)).length 65535, substFlag q.map + 0xFFFF0000] ∧
      (t.stream m).nextPic = x.nextPic + 1 ∧ (t.stream m).lastReleased = some (x.nextPic % 2 ^ 32) ∧ (t.stream m).dec.waiting = [] ∧
      (∀ a, t.hostByte a = (ps.foldl (fun s q => (s.writePieces q.1 q.2).1) s2).hostByte a) ∧ s2.frame t (.host :: .streams :: s2.complParts) (s2.complFields n)) ∧
  (∀ (s s1 : State) (n k m : Nat) (u : Taken) (x : Stream) (au : CodecAu) (input : List Byte) (bad : Bool) (p : ParamSet) (d : Decoder) (q : DpbPic) (rows : Rows), s.slipAt n k 0x05 = some u → s.slipWaits n u = false → u.reservedOk = true → s.streamFor n u [6] = true → u.streamField = m → s.stream m = x → s.touched m = false → s.slipRead n u (u.addr 2) (u.word 4) = (s1, some (input, bad)) → s1.streams = s.streams ∧ s1.rings = s.rings ∧ s1.mmu.queue = s.mmu.queue ∧ s1.mmu.outside = s.mmu.outside → d = ((x.dec.receive au.sets).release au).enter au → (x.dec.receive au.sets).active x.geo.codec au = some p → p.refused x.geo = false → (x.dec.started = true ∨ startsAt (bitAt x.geo.flags 0) au = true) → (au.rasl = false ∨ ((x.dec.receive au.sets).enter au).dropRasl = false) → 2 * p.width ≤ u.word 8 → x.dec.waiting = [] → au.shown = true ∧ d.from' = none → s1.power.held = false → p.reorder = 0 → (q = d.decode p au [] (if bad then 2 ^ 11 else 0)) → rows = q.y ++ q.cb ++ q.cr → u.word 7 = 0 ∧ u.word 11 = 0 → q.map ≠ [] → (s.ring n).byId u.id = some u ∧ (s.ring n).placeOf u.id = some k → s.mayComplete n k u = true →
    Answers (.decodePicture n k [] au) s fun t =>
      s1.completes t n u 0x0013 0 [x.nextPic % 2 ^ 32, outputLen (u.word 8) rows.length ((rows.getLast?.getD []).length), 0,
      min (q.map.filter (· != 0#8)).length 65535, q.flags + 0xFFFF0000] ∧
      (t.stream m).nextPic = x.nextPic + 1 ∧ (t.stream m).dec.waiting = [] ∧ s1.frame t (.streams :: s1.complParts) (s1.complFields n)) ∧
  (∀ (s s1 : State) (n k m : Nat) (u : Taken) (x : Stream) (au : CodecAu) (lost : List (Nat × Nat)) (input : List Byte) (bad : Bool), s.slipAt n k 0x05 = some u → s.slipWaits n u = false → u.reservedOk = true → s.streamFor n u [6] = true → u.streamField = m → s.stream m = x → s.touched m = false → s.slipRead n u (u.addr 2) (u.word 4) = (s1, some (input, bad)) → s1.streams = s.streams ∧ s1.rings = s.rings ∧ s1.mmu.queue = s.mmu.queue ∧ s1.mmu.outside = s.mmu.outside → ((match (x.dec.receive au.sets).active x.geo.codec au with | none => true | some p => !p.refused x.geo && ((!x.dec.started && !startsAt (bitAt x.geo.flags 0) au) || (au.rasl && ((x.dec.receive au.sets).enter au).dropRasl))) = true) → s.mayComplete n k u = true →
    Answers (.decodePicture n k lost au) s fun t =>
      s1.completes t n u 0x000A 0 [] ∧ t.stream m = { x with dec := x.dec.receive au.sets } ∧ s1.frame t (.streams :: s1.complParts) (s1.complFields n)) ∧
  (∀ (s s1 : State) (n k m : Nat) (u : Taken) (x : Stream) (au : CodecAu) (lost : List (Nat × Nat)) (input : List Byte) (bad : Bool) (p : ParamSet), s.slipAt n k 0x05 = some u → s.slipWaits n u = false → u.reservedOk = true → s.streamFor n u [6] = true → u.streamField = m → s.stream m = x → s.touched m = false → s.slipRead n u (u.addr 2) (u.word 4) = (s1, some (input, bad)) → s1.streams = s.streams ∧ s1.rings = s.rings ∧ s1.mmu.queue = s.mmu.queue ∧ s1.mmu.outside = s.mmu.outside → (x.dec.receive au.sets).active x.geo.codec au = some p → p.refused x.geo = true → s.mayComplete n k u = true →
    Answers (.decodePicture n k lost au) s fun t =>
      s1.completes t n u 0x0008 0 [] ∧ t.stream m = { x with dec := x.dec.receive au.sets } ∧ s1.frame t (.streams :: s1.complParts) (s1.complFields n)) ∧
  (∀ (s s1 : State) (n k m : Nat) (u : Taken) (x : Stream) (au : CodecAu) (lost : List (Nat × Nat)) (input : List Byte) (bad : Bool), s.slipAt n k 0x05 = some u → s.slipWaits n u = false → u.reservedOk = true → s.streamFor n u [3] = true → u.streamField = m → s.stream m = x → s.touched m = false → x.kind = 3 → s.slipRead n u (u.addr 2) (u.word 4) = (s1, some (input, bad)) → s1.streams = s.streams ∧ s1.rings = s.rings → (x.kdec.decode input (lost.map (·.1))).2.isNone = true → s.mayComplete n k u = true →
    Answers (.decodePicture n k lost au) s fun t => s1.completes t n u 0x0009 0 [] ∧ s1.frame t (.streams :: s1.complParts) (s1.complFields n)) ∧
  (∀ (s s1 : State) (n k m : Nat) (u : Taken) (x : Stream) (au : CodecAu) (input : List Byte) (d : KDec) (o : KDecOut), s.slipAt n k 0x05 = some u → s.slipWaits n u = false → u.reservedOk = true → s.streamFor n u [3] = true → u.streamField = m → s.stream m = x → s.touched m = false → x.kind = 3 → s.slipRead n u (u.addr 2) (u.word 4) = (s1, some (input, false)) → s1.streams = s.streams ∧ s1.rings = s.rings → x.kdec.decode input [] = (d, some o) → s1.power.held = false → 2 * o.seq.width ≤ u.word 8 → u.word 7 = 0 ∧ u.word 11 = 0 → o.map ≠ [] → (s.ring n).byId u.id = some u ∧ (s.ring n).placeOf u.id = some k → s.mayComplete n k u = true →
    Answers (.decodePicture n k [] au) s fun t =>
      s1.completes t n u 0x0013 0 [o.number, outputLen (u.word 8) o.rows.length ((o.rows.getLast?.getD []).length), 0, min (o.map.filter (· != 0#8)).length 65535,
      (if o.colophonUnverified then 2 ^ 7 else 0) + (if o.shaMismatch then 2 ^ 8 else 0) + substFlag o.map + 0xFFFF0000] ∧
      (t.stream m).kdec = d ∧ (t.stream m).lastReleased = some o.number ∧ s1.frame t (.streams :: s1.complParts) (s1.complFields n))

/-- Takes (R266 to R272, R279). What the specification leaves open in it is the model's choice: log entries 85, 86. -/
def Obligations.TakesAreOpenedMarkedAndStopped : Prop :=
  (∀ (s : State) (n k m : Nat) (u : Taken), s.slipAt n k 0x07 = some u → u.streamField = m → recordFieldsOk u = true → s.recordRefusal n u = none →
    Answers (.recordStart n k) s fun t =>
      t.bnd.takes = s.bnd.takes ++ [s.newTake n u] ∧ t.stream m = { s.stream m with recorded := true } ∧ (∀ j, j ≠ m → t.stream j = s.stream j) ∧
      t.ring n = { s.ring n with taken := (s.ring n).taken.map fun e => if e.id = u.id then { e with started := true } else e } ∧
      (∀ p ∈ layoutPorts (bits (u.word 1) 8 3), ∃ c ∈ (t.mag p).cmds, c.job = .jOpen m) ∧ t.bnd.extents = s.bnd.extents ∧
      s.frame t [.free, .bnd, .rings, .streams] volumeFields) ∧
  (∀ (s : State) (n k st : Nat) (u : Taken), s.slipAt n k 0x07 = some u → recordFieldsOk u = true → s.recordRefusal n u = some st → s.mayComplete n k u = true →
    Answers (.recordStart n k) s fun t => s.completes t n u st 0 [] ∧ s.frame t s.complParts (s.complFields n)) ∧
  (∀ (s : State) (n k m : Nat) (u : Taken) (tk : Take), s.slipAt n k 0x08 = some u → u.streamField = m → u.reservedOk = true → s.streamFor n u [1, 2, 4, 5] = true → s.take m = some tk → tk.steady = true → tk.stop = none → tk.closing = false → tk.pics = [] → u.word 2 ≠ ones32 → tk.next ≤ u.word 2 →
    Answers (.recordStop n k) s fun t =>
      t.take m = some { tk with stop := some (u.word 2, some (n, u.id)) } ∧ (∀ j, j ≠ m → t.take j = s.take j) ∧ (∀ p, t.mag p = s.mag p) ∧
      t.ring n = { s.ring n with taken := (s.ring n).taken.map fun e => if e.id = u.id then { e with started := true } else e } ∧
      s.frame t [.bnd, .rings] []) ∧
  (∀ (s : State) (n k : Nat) (u : Taken), s.slipAt n k 0x08 = some u → u.reservedOk = true → s.streamFor n u [1, 2, 4, 5] = true → s.take u.streamField = none → s.mayComplete n k u = true →
    Answers (.recordStop n k) s fun t => s.completes t n u stNotRecording 0 [] ∧ s.frame t s.complParts (s.complFields n)) ∧
  (∀ (s : State) (n k m : Nat) (u : Taken) (tk : Take), s.slipAt n k 0x09 = some u → u.streamField = m → u.reservedOk = true → s.streamFor n u [1, 2, 4, 5] = true → u.word 3 ≠ 0 → s.take m = some tk → u.word 2 ≠ ones32 → tk.first ≤ u.word 2 ∧ tk.from' ≤ u.word 2 → tk.stop = none → tk.closing = false → ((tk.vols.any fun v => v.commit.isSome) = false) →
    Answers (.markTake n k) s fun t =>
      t.take m = some { tk with
      marks := tk.marks ++ [{ pic := u.word 2, code := u.word 3, note := (rangeFrom 4 4).flatMap fun i => leBytes 4 (u.word i), rp := n, id := u.id, wait := none }],
      marked := (u.word 2, u.word 3, (rangeFrom 4 4).flatMap fun i => leBytes 4 (u.word i)) :: tk.marked.filter (·.1 != u.word 2) } ∧
      (∀ p, t.mag p = s.mag p) ∧ s.frame t [.bnd, .rings] []) ∧
  (∀ (s : State) (n k : Nat) (u : Taken), s.slipAt n k 0x09 = some u → u.reservedOk = true → s.streamFor n u [1, 2, 4, 5] = true → u.word 3 ≠ 0 → s.take u.streamField = none → s.mayComplete n k u = true →
    Answers (.markTake n k) s fun t => s.completes t n u stNotRecording 0 [] ∧ s.frame t s.complParts (s.complFields n)) ∧
  (∀ (s : State) (n k p : Nat) (u : Taken) (want : List AidEntry), s.slipAt n k 0x0A = some u → u.reservedOk = true → bits (u.word 1) 8 1 = p → s.magState p = msReady → s.takeUsed p (u.word 2) = true → s.layoutOn p (u.word 2) ≠ 2 → (((s.entriesOn p (u.word 2)).any fun e => e.num == u.word 3) = true) → (want = ((s.entriesOn p (u.word 2)).filter fun e => decide (u.word 3 ≤ e.num)).take (u.word 4)) → ((want.filter fun e => !e.gap).head?.any (·.key) = true) → (((want.filter fun e => !e.gap).head?.map (·.len)).getD 0 ≤ u.word 7) → s.mayRead p = true → s.extent n u.id = none → (((s.mag p).cmds.any fun c => c.job == .extent n u.id) = false) →
    Answers (.readExtent n k) s fun t =>
      t.extent n u.id = some { rp := n, id := u.id, port := p, take := u.word 2, left := (want.dropWhile (·.gap)).map fun e => (p, e), head := [], bytes := 0, pics := 0, gaps := (want.takeWhile (·.gap)).length, mirror := 0, bad := 0 } ∧
      (∃ c, (t.mag p).cmds = (s.mag p).cmds ++ [c] ∧ c.job = .extent n u.id ∧ c.writes = []) ∧ t.bnd.takes = s.bnd.takes ∧ s.frame t [.bnd, .rings] []) ∧
  (∀ (s : State) (n k p : Nat) (u : Taken), s.slipAt n k 0x0A = some u → u.reservedOk = true → bits (u.word 1) 8 1 = p → s.magState p ≠ msReady →
    Answers (.readExtent n k) s fun t =>
      s.completes t n u (if s.magState p = msNoVolume then 0x0101 else stMagazineAbsent) 0 [] ∧ s.frame t s.complParts (s.complFields n)) ∧
  (∀ (s : State) (n k p : Nat) (u : Taken), s.slipAt n k 0x0A = some u → u.reservedOk = true → bits (u.word 1) 8 1 = p → s.magState p = msReady → s.takeUsed p (u.word 2) = false →
    Answers (.readExtent n k) s fun t => s.completes t n u 0x0104 0 [] ∧ s.frame t s.complParts (s.complFields n))

/-- Records and commits (R263, R269 to R274). What the specification leaves open in it is the model's choice: log entries 81, 84, 133. -/
def Obligations.PicturesAreLaidDownCommittedAndVerified : Prop :=
  (∀ (s : State) (n num p : Nat) (tk : Take) (tv : TakeVol) (pc : Pic), (((s.stream n).pics.filter fun q => q.released && q.readers.contains 512 && !(match s.take n with | some t => (t.pic q.num).isSome | none => false)).head? = some pc) → pc.num = num → s.take n = some tk → tk.steady = true → tk.stop = none → tk.first ≤ num → tk.gapping = false → tk.pics = [] → tk.layout = 0 ∧ tk.vols = [tv] ∧ tv.port = p → (s.mag p).vol.isSome = true → (pc.coded (s.stream n)).length ≤ tk.bufMib * 2 ^ 20 → ceilDiv (tv.length + recSpan (pc.coded (s.stream n)).length) shelfBytes ≤ tv.chain.length + tv.fresh.length → tv.fresh.length < 1000 → (s.stream n).state = .opened → tk.closing = false →
    Answers (.pictureToBindery n num) s fun t =>
      (∃ r, (t.take n).map (·.pics) = some [r] ∧ r.num = num ∧ r.gap = false ∧ r.held = true ∧ r.data = pc.coded (s.stream n) ∧ r.offs = [(p, tv.length)]) ∧
      ((t.take n).bind fun k => k.vol p) = some { tv with length := tv.length + recSpan (pc.coded (s.stream n)).length } ∧
      (∃ c, (t.mag p).cmds = (s.mag p).cmds ++ [c] ∧ c.job = .record n num false ∧
      c.writes = takeBlocks (tv.chain ++ tv.fresh) tv.length (recordBytes num tk.recKind (if pc.key then 1 else 0) (pc.coded (s.stream n)))) ∧
      s.frame t [.bnd] []) ∧
  (∀ (s : State) (n num p : Nat) (tk : Take) (tv : TakeVol) (pc : Pic), (((s.stream n).pics.filter fun q => q.released && q.readers.contains 512 && !(match s.take n with | some t => (t.pic q.num).isSome | none => false)).head? = some pc) → pc.num = num → s.take n = some tk → tk.steady = true → tk.stop = none → tk.first ≤ num → tk.pics = [] → tk.layout = 0 ∧ tk.vols = [tv] ∧ tv.port = p → tk.bufMib * 2 ^ 20 < (pc.coded (s.stream n)).length →
    Answers (.pictureToBindery n num) s fun t =>
      t.get (BND.MG_COMMIT_GAPS p) = satAdd (BND.MG_COMMIT_GAPS p).w (s.get (BND.MG_COMMIT_GAPS p)) 1 ∧
      (∀ q, (t.mag q).cmds = (s.mag q).cmds)) ∧
  (∀ (s : State) (n : Nat) (tk : Take), s.take n = some tk → (tk.closing = true ∨ s.ticks - tk.commitTick < msTicks tk.tailMs / 4) →
    Answers (.commitTimer n) s fun t => t = s) ∧
  (∀ (s : State) (n : Nat) (tk : Take), s.take n = some tk → tk.steady = true → tk.closing = false → msTicks tk.tailMs / 4 ≤ s.ticks - tk.commitTick → tk.pics = [] → tk.stop = none → tk.quiet = true → (tk.vols.all (fun v => v.moves.isEmpty) = true) → (s.stream n).state = .opened →
    Answers (.commitTimer n) s fun t =>
      t.take n = some { tk with commitTick := tk.commitTick + msTicks tk.tailMs / 4, commitNext := false } ∧ (∀ p, t.mag p = s.mag p) ∧ s.frame t [.bnd] []) ∧
  (∀ (s : State) (n p : Nat) (tk : Take) (tv : TakeVol) (r : RecPic), s.take n = some tk → tk.steady = true → tk.closing = false → msTicks tk.tailMs / 4 ≤ s.ticks - tk.commitTick → tk.pics = [r] → tk.from' ≤ r.num ∧ tk.laid r = true ∧ r.verify ≠ [] → tk.layout = 0 ∧ tk.vols = [tv] ∧ tv.port = p → tv.commit = none → tk.stop = none → (s.mag p).vol.isSome = true → ceilDiv (tv.length + recSpan (s.aidFor tk p r).bytes.length) shelfBytes ≤ tv.chain.length + tv.fresh.length → (s.stream n).state = .opened →
    Answers (.commitTimer n) s fun t =>
      (∃ c, (((t.take n).bind fun k => k.vol p).bind (·.commit)) = some c ∧ c.first = r.num ∧ c.last = r.num ∧ c.aidOff = tv.length ∧
      c.aidLen = (s.aidFor tk p r).bytes.length ∧ c.done = false) ∧
      (∃ c, (t.mag p).cmds = (s.mag p).cmds ++ [c] ∧ c.job = .aid n ∧
      c.writes = takeBlocks (tv.chain ++ tv.fresh) tv.length (recordBytes r.num 2 0 (s.aidFor tk p r).bytes)) ∧ s.frame t [.bnd] []) ∧
  (∀ (s : State) (p n num : Nat) (tk : Take) (r : RecPic), s.take n = some tk → tk.steady = true → tk.pic num = some r → tk.pics = [r] → r.verify = [p] ∧ r.back = [(p, r.data)] ∧ r.held = false → tk.stop = none ∧ tk.closing = false → (s.stream n).state = .opened →
    Answers (.verifyCompareDone p n num true) s fun t =>
      (t.take n).map (·.pics) = some [{ r with verify := [], back := [] }] ∧ (∀ q, t.mag q = s.mag q) ∧ s.frame t [.bnd] []) ∧
  (∀ (s : State) (p n num : Nat) (tk : Take) (r : RecPic) (d : List Byte) (equal : Bool), s.take n = some tk → tk.pic num = some r → r.verify = [p] ∧ r.back = [(p, d)] → decide (d = r.data) ≠ equal →
    Answers (.verifyCompareDone p n num equal) s fun t => t = s) ∧
  (∀ (s : State) (p n num : Nat) (tk : Take) (tv : TakeVol) (r : RecPic) (d : List Byte), s.take n = some tk → tk.steady = true → tk.pic num = some r → tk.pics = [r] → r.verify = [p] ∧ r.moved = [] ∧ r.back = [(p, d)] → d ≠ r.data → tk.layout = 0 ∧ tk.vols = [tv] ∧ tv.port = p → (s.mag p).vol.isSome = true → ceilDiv (tv.length + recSpan r.data.length) shelfBytes ≤ tv.chain.length + tv.fresh.length → tv.fresh.length < 1000 → tk.stop = none ∧ tk.closing = false → (s.stream n).state = .opened →
    Answers (.verifyCompareDone p n num false) s fun t =>
      t.get (BND.MG_VERIFY_MISMATCH p) = satAdd (BND.MG_VERIFY_MISMATCH p).w (s.get (BND.MG_VERIFY_MISMATCH p)) 1 ∧
      (∃ c, (t.mag p).cmds = (s.mag p).cmds ++ [c] ∧ c.job = .record n num true ∧
      c.writes = takeBlocks (tv.chain ++ tv.fresh) tv.length (recordBytes num tk.recKind ((if r.key then 1 else 0) + 2) r.data)) ∧
      s.frame t [.bnd] [BND.MG_VERIFY_MISMATCH p]) ∧
  (∀ (s : State) (p n num : Nat) (tk : Take) (r : RecPic) (d : List Byte), s.take n = some tk → tk.steady = true → tk.pic num = some r → tk.pics = [r] → r.verify = [p] ∧ r.moved = [p] ∧ r.back = [(p, d)] ∧ r.held = false → d ≠ r.data → tk.layout = 0 → (tk.vol p).isSome = true → p < 2 → tk.stop = none ∧ tk.closing = false → (s.stream n).state = .opened → s.rgs.raises (magUnit p) 3 = false →
    Answers (.verifyCompareDone p n num false) s fun t =>
      t.get (BND.MG_VERIFY_MISMATCH p) = satAdd (BND.MG_VERIFY_MISMATCH p).w (s.get (BND.MG_VERIFY_MISMATCH p)) 1 ∧
      (t.take n).map (·.pics) = some [{ r with verify := [], back := [], failed := p :: r.failed.filter (· != p) }] ∧ (t.take n).map (·.verifyFailed) = some true ∧
      s.logged t (magUnit p) 0x34 3 0) ∧
  (∀ (s : State) (p n num : Nat) (tk : Take) (r : RecPic), s.take n = some tk → tk.steady = true → tk.pic num = some r → tk.pics = [r] → r.verify = [p] ∧ r.held = false → msTicks tk.lagMs ≤ s.ticks - r.writtenTick → tk.stop = none ∧ tk.closing = false → (s.stream n).state = .opened →
    Answers (.verifyLagExpiry p n num) s fun t =>
      t.get (BND.MG_VERIFY_SKIPPED p) = satAdd (BND.MG_VERIFY_SKIPPED p).w (s.get (BND.MG_VERIFY_SKIPPED p)) 1 ∧
      (t.take n).map (·.pics) = some [{ r with verify := [] }] ∧ (∀ q, t.mag q = s.mag q) ∧ s.frame t [.bnd] [BND.MG_VERIFY_SKIPPED p])

/-- Magazine ports (R246 to R251, R275, R282). What the specification leaves open in it is the model's choice: log entries 80, 82, 83, 87, 136, 137, 138. -/
def Obligations.MagazinesAreBroughtUpAndLost : Prop :=
  (∀ (s : State) (p : Nat) (m : Magazine), p < 2 → (s.mag p).inserted = none → (s.mag p).stage = .empty →
    Answers (.magPresenceFall p m) s fun t =>
      t.mag p = Mag.write { s.mag p with stage := .settling s.ticks, inserted := some m, media := [] } m.blocks ∧ s.portOnly t p ∧ s.frame t [.bnd] []) ∧
  (∀ (s : State) (p tk : Nat), p < 2 → (s.mag p).stage = .settling tk → msTicks 50 ≤ s.ticks - tk → s.powered (magUnit p) = true →
    Answers (.magPresenceAccept p) s fun t =>
      t.mag p = { s.mag p with stage := .powering s.ticks, refclk := true, perst := true } ∧ t.get (presentBit p) = 1 ∧ t.magState p = msStarting ∧
      t.get (srcPending (19 + p)) = 1 ∧ s.portOnly t p ∧ s.frame t [.bnd] [presentBit p, BND.MG_STATE_STATE p, srcPending (19 + p)]) ∧
  (∀ (s : State) (p tk : Nat), (s.mag p).stage = .powering tk → msTicks 100 ≤ s.ticks - tk →
    Answers (.magPerstRelease p) s fun t => t.mag p = { s.mag p with stage := .linking s.ticks false, perst := false } ∧ s.portOnly t p ∧ s.frame t [.bnd] []) ∧
  (∀ (s : State) (p tk : Nat), (s.mag p).stage = .pulsing tk → msTicks 1 ≤ s.ticks - tk →
    Answers (.magPerstRelease p) s fun t => t.mag p = { s.mag p with stage := .linking s.ticks true, perst := false } ∧ s.portOnly t p ∧ s.frame t [.bnd] []) ∧
  (∀ (s : State) (p speed width tk : Nat) (again : Bool), p < 2 → (s.mag p).stage = .linking tk again → 1 ≤ speed ∧ speed ≤ 5 → (width = 1 ∨ width = 2 ∨ width = 4) → s.magMeets p Magazine.endpointOk = true →
    Answers (.magLinkUp p speed width) s fun t =>
      t.mag p = { s.mag p with stage := .enabling s.ticks false } ∧ t.get (BND.MG_STATE_LINK_SPEED p) = speed ∧ t.get (BND.MG_STATE_LINK_WIDTH p) = width ∧ t.get (linkUpBit p) = 1 ∧
      s.portOnly t p ∧ s.frame t [.bnd] [BND.MG_STATE_LINK_SPEED p, BND.MG_STATE_LINK_WIDTH p, linkUpBit p]) ∧
  (∀ (s : State) (p tk : Nat), (s.mag p).stage = .linking tk false → msTicks 100 ≤ s.ticks - tk →
    Answers (.magLinkTimeout p) s fun t => t.mag p = { s.mag p with stage := .pulsing s.ticks, perst := true } ∧ s.portOnly t p ∧ s.frame t [.bnd] []) ∧
  (∀ (s : State) (p tk : Nat), p < 2 → (s.mag p).stage = .linking tk true → msTicks 100 ≤ s.ticks - tk → (s.mag p).op = none → s.bnd.takes = [] ∧ s.bnd.extents = [] → s.power.held = false →
    Answers (.magLinkTimeout p) s fun t =>
      t.magState p = msFailed ∧ (t.mag p).stage = .empty ∧ (t.mag p).inserted = (s.mag p).inserted ∧ (t.mag p).vol = none ∧ t.get (srcPending (19 + p)) = 1 ∧ s.portOnly t p ∧
      s.frame t [.bnd] (volumeFields ++ [BND.MG_STATE_STATE p, BND.MG_STATE_VWC p, BND.MG_STATE_LINK_SPEED p, BND.MG_STATE_LINK_WIDTH p, linkUpBit p, srcPending (19 + p)])) ∧
  (∀ (s : State) (p tk : Nat) (reset : Bool), (s.mag p).stage = .enabling tk reset → s.magMeets p Magazine.controllerOk = true →
    Answers (.magControllerReady p) s fun t =>
      (t.mag p).stage = .identifying reset ∧ (∃ c, (t.mag p).cmds = (s.mag p).cmds ++ [c] ∧ c.job = .identify ∧ c.admin = true) ∧ s.portOnly t p ∧ s.frame t [.bnd] []) ∧
  (∀ (s : State) (p tk : Nat) (reset : Bool), p < 2 → (s.mag p).stage = .enabling tk reset → s.magMeets p Magazine.controllerOk = false → (s.mag p).op = none → s.bnd.takes = [] ∧ s.bnd.extents = [] → s.power.held = false →
    Answers (.magControllerReady p) s fun t =>
      t.magState p = msFailed ∧ (t.mag p).stage = .empty ∧ (t.mag p).vol = none ∧ s.portOnly t p ∧
      s.frame t [.bnd] (volumeFields ++ [BND.MG_STATE_STATE p, BND.MG_STATE_VWC p, BND.MG_STATE_LINK_SPEED p, BND.MG_STATE_LINK_WIDTH p, linkUpBit p, srcPending (19 + p)])) ∧
  (∀ (s : State) (p k : Nat) (c : MagCmd) (reply : List Nat), (s.mag p).cmds[k]? = some c → (s.mag p).mayComplete c = true → s.cmdBlocked p c = false → 1 < c.left →
    Answers (.nvmeCompletion p k true reply none) s fun t =>
      t.mag p = { s.mag p with cmds := (s.mag p).cmds.set k { c with left := c.left - 1, retried := false, tick := s.ticks } } ∧ s.portOnly t p ∧ s.frame t [.bnd] []) ∧
  (∀ (s : State) (p k : Nat) (c : MagCmd) (a b d : Nat), (s.mag p).cmds[k]? = some c → (s.mag p).mayComplete c = true → s.cmdBlocked p c = false → c.left ≤ 1 → c.job = .health → c.writes = [] → s.bnd.extents = [] → s.power.held = false →
    Answers (.nvmeCompletion p k true [a, b, d] none) s fun t =>
      t.get (BND.MG_HEALTH_TEMPERATURE p) = a % 65536 ∧ t.get (BND.MG_HEALTH_CRITICAL_WARNING p) = b % 256 ∧ t.get (BND.MG_HEALTH_PERCENT_USED p) = d % 256 ∧
      t.mag p = { s.mag p with cmds := (s.mag p).cmds.eraseIdx k } ∧ s.portOnly t p ∧
      s.frame t [.bnd] [BND.MG_HEALTH_TEMPERATURE p, BND.MG_HEALTH_CRITICAL_WARNING p, BND.MG_HEALTH_PERCENT_USED p]) ∧
  (∀ (s : State) (p k : Nat) (c : MagCmd) (reply : List Nat), (s.mag p).cmds[k]? = some c → (s.mag p).mayComplete c = true → s.cmdBlocked p c = false → c.retried = false → p < 2 → s.rgs.raises (magUnit p) 1 = false →
    Answers (.nvmeCompletion p k false reply none) s fun t =>
      s.logged t (magUnit p) 0x32 1 0 ∧ t.get (BND.MG_ERR_CMD_ERR p) = satAdd (BND.MG_ERR_CMD_ERR p).w (s.get (BND.MG_ERR_CMD_ERR p)) 1 ∧
      t.mag p = { s.mag p with cmds := (s.mag p).cmds.set k { c with retried := true, tick := s.ticks } } ∧ s.portOnly t p ∧
      s.frame t (.bnd :: lowParts) (BND.MG_ERR_CMD_ERR p :: lowFields 1)) ∧
  (∀ (s : State) (p k : Nat) (c : MagCmd), (s.mag p).cmds[k]? = some c → (s.mag p).stage = .up → (msTicks (if c.admin then 5000 else 2000) ≤ s.ticks - c.tick) → c.retried = false → p < 2 → s.rgs.raises (magUnit p) 1 = false →
    Answers (.nvmeTimeout p k) s fun t =>
      s.logged t (magUnit p) 0x32 1 0 ∧ t.get (BND.MG_ERR_TIMEOUT p) = satAdd (BND.MG_ERR_TIMEOUT p).w (s.get (BND.MG_ERR_TIMEOUT p)) 1 ∧
      t.mag p = { s.mag p with cmds := (s.mag p).cmds.set k { c with retried := true, tick := s.ticks } } ∧ s.portOnly t p ∧
      s.frame t (.bnd :: lowParts) (BND.MG_ERR_TIMEOUT p :: lowFields 1)) ∧
  (∀ (s : State) (p k : Nat) (c : MagCmd), (s.mag p).cmds[k]? = some c → (s.mag p).stage = .up → (msTicks (if c.admin then 5000 else 2000) ≤ s.ticks - c.tick) → c.retried = true → p < 2 →
    Answers (.nvmeTimeout p k) s fun t =>
      (t.mag p).stage = .enabling s.ticks true ∧ (t.mag p).queues = [] ∧ t.magState p = msStarting ∧ t.get (BND.MG_ERR_TIMEOUT p) = satAdd (BND.MG_ERR_TIMEOUT p).w (s.get (BND.MG_ERR_TIMEOUT p)) 1 ∧
      (t.mag p).cmds = ((s.mag p).cmds.filter fun c => !c.admin).map (fun c => { c with retried := false }) ∧ (t.mag p).vol = (s.mag p).vol ∧ s.portOnly t p ∧
      s.frame t [.bnd] [BND.MG_ERR_TIMEOUT p, BND.MG_STATE_STATE p, srcPending (19 + p)]) ∧
  (∀ (s : State) (p : Nat), (s.mag p).stage = .up → (((s.mag p).cmds.any fun c => c.job == .health) = false) →
    Answers (.healthLogTimer p) s fun t =>
      (∃ c d, (t.mag p).cmds = (s.mag p).cmds ++ [c, d] ∧ c.job = .health ∧ c.admin = true ∧ d.job = .errorLog ∧ d.admin = true) ∧ s.portOnly t p ∧ s.frame t [.bnd] []) ∧
  (∀ (s : State) (p tk : Nat), (s.mag p).inserted.isSome = true → (s.mag p).stage = .settling tk →
    Answers (.magRemoval p) s fun t =>
      t.mag p = { s.mag p with stage := .empty, inserted := none, media := [] } ∧ s.portOnly t p ∧ s.frame t [.bnd] []) ∧
  (∀ (s : State) (p : Nat), p < 2 → (s.mag p).inserted.isSome = true → (s.mag p).stage = .up → (s.mag p).op = none → s.bnd.takes = [] ∧ s.bnd.extents = [] → s.power.held = false →
    Answers (.magRemoval p) s fun t =>
      t.magState p = msAbsent ∧ t.mag p = { Mag.init with inserted := none } ∧ t.get (presentBit p) = 0 ∧ t.get (linkUpBit p) = 0 ∧ t.get (srcPending (19 + p)) = 1 ∧
      s.portOnly t p ∧
      s.frame t [.bnd] (volumeFields ++ [BND.MG_STATE_STATE p, BND.MG_STATE_VWC p, BND.MG_STATE_LINK_SPEED p, BND.MG_STATE_LINK_WIDTH p, linkUpBit p, presentBit p, srcPending (19 + p)])) ∧
  (∀ (s : State) (p : Nat), p < 2 → (s.mag p).stage = .up → (s.mag p).op = none → s.bnd.takes = [] ∧ s.bnd.extents = [] → s.power.held = false →
    Answers (.magLinkLoss p) s fun t =>
      t.magState p = msFailed ∧ (t.mag p).stage = .empty ∧ (t.mag p).vol = none ∧ (t.mag p).cmds = [] ∧ (t.mag p).inserted = (s.mag p).inserted ∧
      t.get (linkUpBit p) = 0 ∧ s.portOnly t p ∧
      s.frame t [.bnd] (volumeFields ++ [BND.MG_STATE_STATE p, BND.MG_STATE_VWC p, BND.MG_STATE_LINK_SPEED p, BND.MG_STATE_LINK_WIDTH p, linkUpBit p, srcPending (19 + p)])) ∧
  (∀ (s : State) (p key : Nat) (m : Magazine), p < 2 → key % 65536 = 0x5E1F → (s.mag p).op = none → (s.magState p = msReady ∨ s.magState p = msNoVolume) → s.takesOn p = false → (s.mag p).inserted = some m → 16 ≤ shelfCount m.nsze →
    Answers (.formatMagazine p key) s fun t =>
      t.magState p = msFormatting ∧ t.get (BND.MG_CMD_STAT_BUSY p) = 1 ∧ (t.mag p).op = some 1 ∧
      (∃ v, (t.mag p).vol = some v ∧ v.id = beBytes 16 s.freshVolumeId ∧ v.nsze = m.nsze ∧ v.shelves = shelfCount m.nsze ∧ v.slots = [] ∧ v.shelf = [] ∧ v.made = s.now) ∧
      (∃ c, (t.mag p).cmds = (s.mag p).cmds ++ [c] ∧ c.job = .format 1) ∧ t.bnd.ids = s.freshVolumeId :: s.bnd.ids ∧ s.portOnly t p ∧
      s.frame t [.bnd] ([BND.MG_STATE_STATE p, BND.MG_CMD_STAT_BUSY p, srcPending (19 + p)] ++ volumeFields)) ∧
  (∀ (s : State) (p key : Nat), (s.mag p).op = none → key % 65536 ≠ 0x5E1F →
    Answers (.formatMagazine p key) s fun t =>
      t.get (BND.MG_CMD_STAT_RESULT p) = 5 ∧ t.get (BND.MG_CMD_STAT_DONE p) = 1 ∧ s.frame t [] [BND.MG_CMD_STAT_RESULT p, BND.MG_CMD_STAT_DONE p]) ∧
  (∀ (s : State) (p key : Nat) (v : Volume), p < 2 → key % 65536 = 0x5E1F → (s.mag p).op = none → s.magState p = msReady → s.takesOn p = false → (s.mag p).vol = some v → (s.mag p).ckpt = none →
    Answers (.ejectMagazine p key) s fun t =>
      t.get (BND.MG_CMD_STAT_BUSY p) = 1 ∧ (t.mag p).op = some 2 ∧ (t.mag p).ckpt = some ([.eject], v.seq) ∧
      (∃ c, (t.mag p).cmds = (s.mag p).cmds ++ [c] ∧ c.job = .ckptBody ∧ c.writes = blocksFrom (invLba (!v.copyB) + 1) v.body) ∧ s.portOnly t p ∧
      s.frame t [.bnd] [BND.MG_CMD_STAT_BUSY p]) ∧
  (∀ (s : State) (p key : Nat), p < 2 → key % 65536 = 0x5E1F → (s.mag p).op = none → (s.magState p = msFailed ∨ s.magState p = msEjected) →
    Answers (.rescanMagazine p key) s fun t =>
      t.magState p = msStarting ∧ t.mag p = { s.mag p with stage := .linking s.ticks false, perst := false } ∧ t.get (BND.MG_CMD_STAT_RESULT p) = 0 ∧
      t.get (BND.MG_CMD_STAT_DONE p) = 1 ∧ s.portOnly t p ∧
      s.frame t [.bnd] [BND.MG_STATE_STATE p, BND.MG_CMD_STAT_RESULT p, BND.MG_CMD_STAT_DONE p, srcPending (19 + p)]) ∧
  (∀ (s : State) (p key : Nat) (v : Volume) (e : TakeEntry), p < 2 → key % 65536 = 0x5E1F → (s.mag p).op = none → s.magState p = msReady → (s.mag p).vol = some v → v.take (s.get (BND.MG_CMD_ARG_TAKE p)) = some e → e.state ≠ 1 →
    Answers (.deleteTake p key) s fun t =>
      t.get (BND.MG_CMD_STAT_BUSY p) = 1 ∧ (t.mag p).op = some 4 ∧ (∃ c ∈ (t.mag p).cmds, c.job = .jDelete (s.get (BND.MG_CMD_ARG_TAKE p)) ∧ c.seq = some v.seq) ∧
      s.portOnly t p ∧ s.frame t [.bnd] (BND.MG_CMD_STAT_BUSY p :: volumeFields)) ∧
  (∀ (s : State) (p key : Nat) (v : Volume), key % 65536 = 0x5E1F → (s.mag p).op = none → s.magState p = msReady → (s.mag p).vol = some v → v.take (s.get (BND.MG_CMD_ARG_TAKE p)) = none →
    Answers (.deleteTake p key) s fun t =>
      t.get (BND.MG_CMD_STAT_RESULT p) = 3 ∧ t.get (BND.MG_CMD_STAT_DONE p) = 1 ∧ s.frame t [] [BND.MG_CMD_STAT_RESULT p, BND.MG_CMD_STAT_DONE p])

/-- Frame starts and ends (R232 to R235). That edges are kept per stream until the next accepted frame is the model's form. The premise that no stream is developed from itself holds in every state that opening streams can give. What the specification leaves open in it is the model's choice: log entries 61, 62, 64, 124. -/
def Obligations.FramesOpenJoinAndClose : Prop :=
  (∀ (s : State) (port vc fnum n ecc : Nat), s.portDecodes port = true → ecc < 2 → s.captureOf port vc = some (n, 0) → (s.stream n).openFrame = none → (s.stream n).state = .opened → (s.stream n).buffersFree ≠ 0 → (s.stream n).nextPic < 2 ^ 32 → (s.stream n).edges = [] → ((s.developed n).all (fun e => e.1 != n) = true) →
    Answers (.frameStart port ⟨vc, ecc⟩ fnum) s fun t =>
      s.headed t port ecc ∧
      (t.stream n).frames = (s.stream n).frames ++ [{ num := (s.stream n).nextPic, frameNumber := fnum, startTick := s.ticks, members := (s.stream n).ports.zipIdx.map fun q => { started := decide (q.2 = 0), ended := false, next := 0, got := 0, rows := [] }, emitted := 0, emitTick := s.ticks, lastParts := 0, closed := false }] ∧
      (t.stream n).joined = 0 :: (s.stream n).joined.erase 0 ∧ (t.stream n).nextPic = (s.stream n).nextPic + 1 ∧
      (∃ p, (t.stream n).pics = (s.stream n).pics ++ [p] ∧ p.num = (s.stream n).nextPic ∧ p.key = (s.stream n).isKey p.num ∧ p.expSrc = 1 ∧ p.stamp 0 = s.now ∧ p.buf = (s.stream n).nextBuf ∧ p.input = []) ∧
      (∀ m, m ≠ n → (s.developed n).all (fun e => e.1 != m) = true → t.stream m = s.stream m) ∧ s.frame t [.streams] (headFields port)) ∧
  (∀ (s : State) (port vc fnum n ecc : Nat) (e : Nat × DTime) (l : List (Nat × DTime)), s.portDecodes port = true → ecc < 2 → s.captureOf port vc = some (n, 0) → (s.stream n).openFrame = none → (s.stream n).state = .opened → (s.stream n).buffersFree ≠ 0 → (s.stream n).nextPic < 2 ^ 32 → (s.stream n).edges = e :: l → ((s.developed n).all (fun d => d.1 != n) = true) →
    Answers (.frameStart port ⟨vc, ecc⟩ fnum) s fun t =>
      s.headed t port ecc ∧
      (t.stream n).nextPic = (s.stream n).nextPic + 1 ∧ (t.stream n).edges = [] ∧
      (∃ p, (t.stream n).pics = (s.stream n).pics ++ [p] ∧ p.num = (s.stream n).nextPic ∧ p.expSrc = 0 ∧ p.stamp 0 = e.2) ∧
      t.get ACC.EXTRA_TRIGGERS_COUNT = satAdd ACC.EXTRA_TRIGGERS_COUNT.w (s.get ACC.EXTRA_TRIGGERS_COUNT) l.length ∧
      s.frame t [.streams] (headFields port ++ [ACC.EXTRA_TRIGGERS_COUNT])) ∧
  (∀ (s : State) (port vc fnum n ecc : Nat) (f : Frame), s.portDecodes port = true → ecc < 2 → s.captureOf port vc = some (n, 0) → (s.stream n).openFrame = some f → f.quiet = true → (s.stream n).state = .opened → ((s.stream n).buffersFree = 0 ∨ 2 ^ 32 ≤ (s.stream n).nextPic) →
    Answers (.frameStart port ⟨vc, ecc⟩ fnum) s fun t =>
      s.headed t port ecc ∧
      (t.stream n).nextPic = (s.stream n).nextPic ∧ (t.stream n).pics.length = (s.stream n).pics.length ∧ (t.stream n).joined = (s.stream n).joined.erase 0 ∧
      (∀ g ∈ (t.stream n).frames, g.num = f.num → g.closed = true) ∧ (∀ p ∈ (s.stream n).ports, t.get (srcPending (23 + p)) = 1) ∧
      t.get ACC.FRAMES_DROPPED_COUNT = satAdd ACC.FRAMES_DROPPED_COUNT.w (s.get ACC.FRAMES_DROPPED_COUNT) 1 ∧
      (∀ m, m ≠ n → t.stream m = s.stream m) ∧
      s.frame t [.streams, .tripped] (headFields port ++ ACC.FRAMES_DROPPED_COUNT :: queueFields ++ (s.stream n).ports.map fun p => srcPending (23 + p))) ∧
  (∀ (s : State) (port vc fnum ecc : Nat), s.portDecodes port = true → ecc < 2 → s.captureOf port vc = none → port < 6 →
    Answers (.frameStart port ⟨vc, ecc⟩ fnum) s fun t =>
      s.headed t port ecc ∧
      t.get (ACC.PORT_DISCARD_UNBOUND port) = satAdd (ACC.PORT_DISCARD_UNBOUND port).w (s.get (ACC.PORT_DISCARD_UNBOUND port)) 1 ∧ s.frame t [] (headFields port ++ [ACC.PORT_DISCARD_UNBOUND port])) ∧
  (∀ (s : State) (port vc fnum n m ecc : Nat) (f : Frame), s.portDecodes port = true → ecc < 2 → s.captureOf port vc = some (n, m) → m ≠ 0 → (s.stream n).openFrame = some f → (f.member m).started = false → ((s.stream n).ing.useFrameNumber = true → f.frameNumber = fnum) →
    Answers (.memberFrameStart port ⟨vc, ecc⟩ fnum) s fun t =>
      s.headed t port ecc ∧
      t.stream n = { (s.stream n).setFrame (f.setMember m { f.member m with started := true }) with joined := m :: (s.stream n).joined.erase m } ∧
      (∀ k, k ≠ n → t.stream k = s.stream k) ∧ s.frame t [.streams] (headFields port)) ∧
  (∀ (s : State) (port vc fnum n m ecc : Nat) (f : Frame), s.portDecodes port = true → ecc < 2 → s.captureOf port vc = some (n, m) → m ≠ 0 → (s.stream n).openFrame = some f → ((f.member m).started = true ∨ (s.stream n).ing.useFrameNumber = true ∧ f.frameNumber ≠ fnum) →
    Answers (.memberFrameStart port ⟨vc, ecc⟩ fnum) s fun t =>
      s.headed t port ecc ∧
      t.stream n = { s.stream n with joined := (s.stream n).joined.erase m } ∧ (∀ k, k ≠ n → t.stream k = s.stream k) ∧ s.frame t [.streams] (headFields port)) ∧
  (∀ (s : State) (port vc n m ecc : Nat) (f g : Frame), s.portDecodes port = true → ecc < 2 → s.captureOf port vc = some (n, m) → (s.stream n).openFrame = some f → (s.stream n).joined.contains m = true → (f.member m).started = true → g = f.setMember m { f.member m with ended := true, next := (s.stream n).linesOf m } → ((s.stream n).setFrame g).frameDone g = false →
    Answers (.frameEnd port ⟨vc, ecc⟩) s fun t =>
      s.headed t port ecc ∧
      t.stream n = (s.stream n).setFrame g ∧ (∀ k, k ≠ n → t.stream k = s.stream k) ∧ s.frame t [.streams] (headFields port)) ∧
  (∀ (s : State) (port vc n m ecc : Nat) (f g : Frame) (p : Pic), s.portDecodes port = true → ecc < 2 → s.captureOf port vc = some (n, m) → (s.stream n).openFrame = some f → (s.stream n).joined.contains m = true → (f.member m).started = true → g = f.setMember m { f.member m with ended := true, next := (s.stream n).linesOf m } → ((s.stream n).setFrame g).frameDone g = true → g.quiet = true → (s.stream n).pic f.num = some p → p.stamps.length = 6 →
    Answers (.frameEnd port ⟨vc, ecc⟩) s fun t =>
      s.headed t port ecc ∧
      (∀ h ∈ (t.stream n).frames, h.num = f.num → h.closed = true) ∧
      (t.stream n).pic f.num = some (if ((s.stream n).partsOf ((s.stream n).geo.height - 1)).length ≤ f.lastParts then p else p.setStamp 2 s.now) ∧
      (∀ q ∈ (s.stream n).ports, t.get (srcPending (23 + q)) = 1) ∧ (∀ k, k ≠ n → t.stream k = s.stream k) ∧
      s.frame t [.streams, .tripped] (headFields port ++ queueFields ++ (s.stream n).ports.map fun q => srcPending (23 + q)))

/-- Rows (R231, R236 to R240). The depth of a queue and the cells of a row are per member; the premises on cells say that a row's cells lie in the eight banks. What the specification leaves open in it is the model's choice: log entries 60, 63. -/
def Obligations.RowsAreReservedCheckedAndEmitted : Prop :=
  (∀ (s : State) (port vc dt l n m ecc : Nat) (f : Frame) (b : List Nat), s.portDecodes port = true → ecc < 2 → s.captureOf port vc = some (n, m) → m < (s.stream n).ports.length → (s.stream n).state = .opened → dt = (s.stream n).ing.dataType → (s.stream n).openFrame = some f → (f.member m).started = true → (s.stream n).joined.contains m = true → (f.member m).ended = false → l < (s.stream n).linesOf m → (f.member m).next ≤ l → (s.stream n).rowOf m l ≠ 0 → (s.stream n).queueDepth m < (s.stream n).ing.ingLines → takeCells 0xFF s.bankFree 0 (cellsOf (2 * (s.stream n).lineWidth)) = some b →
    Answers (.rowHeaderArrival port vc dt l ecc) s fun t =>
      s.headed t port ecc ∧
      t.stream n = (s.stream n).setFrame (f.setMember m { f.member m with next := l + 1, got := (f.member m).got + 1, rows := (f.member m).rows ++ [{ line := l, st := .receiving, cells := b }] }) ∧
      (∀ k, k < 8 → t.get (STK.BANK_FREE_CELLS k) = s.get (STK.BANK_FREE_CELLS k) - b.getD k 0) ∧
      (∀ h, h < 2 → (s.stream n).ing.hold = h → (s.stream n).ing.high < (t.stream n).queueDepth m → bitAt (t.get ACC.ACC_STAT_HOLD) h = true) ∧
      (∀ k, k ≠ n → t.stream k = s.stream k) ∧ s.frame t [.streams, .tripped] (headFields port ++ queueFields ++ cellFields b)) ∧
  (∀ (s : State) (port vc dt l n m ecc : Nat) (f : Frame), s.portDecodes port = true → ecc < 2 → s.captureOf port vc = some (n, m) → dt = (s.stream n).ing.dataType → (s.stream n).openFrame = some f → (f.member m).started = true → (s.stream n).joined.contains m = true → (f.member m).ended = false → l < (s.stream n).linesOf m → (f.member m).next ≤ l → (s.stream n).rowOf m l ≠ 0 → ((s.stream n).ing.ingLines ≤ (s.stream n).queueDepth m ∨ takeCells 0xFF s.bankFree 0 (cellsOf (2 * (s.stream n).lineWidth)) = none) →
    Answers (.rowHeaderArrival port vc dt l ecc) s fun t =>
      s.headed t port ecc ∧
      t.stream n = (s.stream n).setFrame (f.setMember m { f.member m with next := l + 1, got := (f.member m).got + 1, rows := (f.member m).rows ++ [{ line := l, st := .dropped, cells := [] }] }) ∧
      (∀ k, k ≠ n → t.stream k = s.stream k) ∧ s.frame t [.streams] (headFields port)) ∧
  (∀ (s : State) (port vc dt l n m ecc : Nat), s.portDecodes port = true → ecc < 2 → s.captureOf port vc = some (n, m) → m ≠ 0 → (s.stream n).joined.contains m = false →
    Answers (.rowHeaderArrival port vc dt l ecc) s fun t =>
      s.headed t port ecc ∧ t.get (ACC.PORT_DISCARD_UNBOUND port) = satAdd (ACC.PORT_DISCARD_UNBOUND port).w (s.get (ACC.PORT_DISCARD_UNBOUND port)) 1 ∧
      s.frame t [] (headFields port ++ [ACC.PORT_DISCARD_UNBOUND port])) ∧
  (∀ (s : State) (port vc dt l n m ecc : Nat) (f : Frame) (p : Pic), s.portDecodes port = true → ecc < 2 → s.captureOf port vc = some (n, m) → dt = (s.stream n).ing.dataType → (s.stream n).openFrame = some f → (f.member m).started = true → (s.stream n).joined.contains m = true → (f.member m).ended = false → l < (s.stream n).linesOf m → (f.member m).next ≤ l → (s.stream n).rowOf m l = 0 → (s.stream n).pic f.num = some p → p.stamps.length = 6 →
    Answers (.rowHeaderArrival port vc dt l ecc) s fun t =>
      ((t.stream n).pic f.num).map (fun q => q.stamp 1) = some (if p.stamp 1 = DTime.none then s.now else p.stamp 1)) ∧
  (∀ (s : State) (port ecc : Nat) (c : Instr), s.portDecodes port = true → 2 ≤ ecc → port < 6 → ((match c with | .frameStart q k _ => decide (q = port ∧ k.ecc = ecc) | .memberFrameStart q k _ => decide (q = port ∧ k.ecc = ecc) | .frameEnd q k => decide (q = port ∧ k.ecc = ecc) | .rowHeaderArrival q _ _ _ n => decide (q = port ∧ n = ecc) | _ => false) = true) →
    Answers c s fun t =>
      t.get (ACC.PORT_STAT_CLK_ACTIVE port) = 1 ∧
      t.get (ACC.PORT_ERR_ECC_FAIL port) = satAdd (ACC.PORT_ERR_ECC_FAIL port).w (s.get (ACC.PORT_ERR_ECC_FAIL port)) 1 ∧
      t.get (ACC.PORT_ERR_ECC_CORR port) = s.get (ACC.PORT_ERR_ECC_CORR port) ∧ s.frame t [] (ACC.PORT_ERR_ECC_FAIL port :: headFields port)) ∧
  (∀ (s : State) (port vc l wc n m : Nat) (data : List Byte) (f g : Frame), s.portDecodes port = true → s.captureOf port vc = some (n, m) → (s.stream n).openFrame = some f → ((f.member m).rows.any (fun r => r.line == l) = true) → wc ≤ data.length → wc = rawBytes (s.stream n).ing.dataType (s.stream n).lineWidth → (s.stream n).rowOf m l + 1 ≠ (s.stream n).geo.height → (g = f.setMember m { f.member m with rows := (f.member m).rows.map fun r => if r.line = l ∧ r.st = .receiving then { r with st := .whole ((rawSamples (s.stream n).ing.dataType data).take (s.stream n).lineWidth) } else r }) → ((s.stream n).setFrame g).frameDone g = false →
    Answers (.longPacket port vc l wc true data) s fun t =>
      t.stream n = (s.stream n).setFrame g ∧ (∀ k, k ≠ n → t.stream k = s.stream k) ∧ s.frame t [.streams, .tripped] queueFields) ∧
  (∀ (s : State) (port vc l wc n m : Nat) (data : List Byte) (f g : Frame) (p : Pic), s.portDecodes port = true → s.captureOf port vc = some (n, m) → (s.stream n).openFrame = some f → ((f.member m).rows.any (fun r => r.line == l) = true) → wc ≤ data.length → wc = rawBytes (s.stream n).ing.dataType (s.stream n).lineWidth → (s.stream n).rowOf m l + 1 = (s.stream n).geo.height → (g = { f.setMember m { f.member m with rows := (f.member m).rows.map fun r => if r.line = l ∧ r.st = .receiving then { r with st := .whole ((rawSamples (s.stream n).ing.dataType data).take (s.stream n).lineWidth) } else r } with lastParts := f.lastParts + 1 }) → ((s.stream n).setFrame g).frameDone g = false → (s.stream n).pic f.num = some p →
    Answers (.longPacket port vc l wc true data) s fun t =>
      (t.stream n).openFrame = some g ∧ (t.stream n).pic f.num = some (p.setStamp 2 s.now) ∧ (∀ k, k ≠ n → t.stream k = s.stream k) ∧
      s.frame t [.streams, .tripped] queueFields) ∧
  (∀ (s : State) (port vc l wc : Nat) (data : List Byte) (ok : Bool), s.portDecodes port = true → s.captureOf port vc = none →
    Answers (.longPacket port vc l wc ok data) s fun t =>
      t.get (ACC.PORT_ERR_CRC_FAIL port) = satAdd (ACC.PORT_ERR_CRC_FAIL port).w (s.get (ACC.PORT_ERR_CRC_FAIL port)) (if ok = false ∧ wc ≤ data.length then 1 else 0) ∧
      t.get (ACC.PORT_ERR_LENGTH port) = satAdd (ACC.PORT_ERR_LENGTH port).w (s.get (ACC.PORT_ERR_LENGTH port)) (if data.length < wc then 1 else 0) ∧
      s.frame t [] [ACC.PORT_ERR_CRC_FAIL port, ACC.PORT_ERR_LENGTH port]) ∧
  (∀ (s : State) (port vc l wc n m : Nat) (data : List Byte) (f g : Frame) (r : IngRow), s.portDecodes port = true → s.captureOf port vc = some (n, m) → (s.stream n).openFrame = some f → ((f.member m).rows.filter (fun q => q.line == l && q.st == .receiving) = [r]) → r.cells.length ≤ 8 → wc ≤ data.length → wc = rawBytes (s.stream n).ing.dataType (s.stream n).lineWidth → (s.stream n).rowOf m l + 1 ≠ (s.stream n).geo.height → (g = f.setMember m { f.member m with rows := (f.member m).rows.map fun q => if q.line = l ∧ q.st = .receiving then { line := l, st := .dropped, cells := [] } else q }) → ((s.stream n).setFrame g).frameDone g = false →
    Answers (.longPacket port vc l wc false data) s fun t =>
      t.stream n = (s.stream n).setFrame g ∧ s.cellsBack t r.cells ∧
      t.get (ACC.PORT_ERR_CRC_FAIL port) = satAdd (ACC.PORT_ERR_CRC_FAIL port).w (s.get (ACC.PORT_ERR_CRC_FAIL port)) 1 ∧
      (∀ k, k ≠ n → t.stream k = s.stream k) ∧ s.frame t [.streams, .tripped] (ACC.PORT_ERR_CRC_FAIL port :: queueFields ++ cellFields r.cells)) ∧
  (∀ (s : State) (n : Nat) (f : Frame), (s.stream n).emitting = some f → (s.stream n).state ≠ .closed → (s.stream n).ing.lineTimeout ≤ s.usSince f.emitTick → (((s.stream n).partsOf f.emitted).any (fun q => (f.part q.1 q.2).isNone) = true) → (((s.stream n).partsOf f.emitted).all (fun q => decide (q.1 < f.members.length)) = true) →
    Answers (.lineTimeout n) s fun t =>
      (∀ g ∈ (t.stream n).frames, g.num = f.num → ∀ q ∈ (s.stream n).partsOf f.emitted, (g.part q.1 q.2).isSome = true ∧ ((f.part q.1 q.2).isNone = true → g.part q.1 q.2 = some .missing)) ∧
      (∀ k, k ≠ n → t.stream k = s.stream k)) ∧
  (∀ (s : State) (n : Nat) (f : Frame), (s.stream n).emitting = some f → s.usSince f.emitTick < (s.stream n).ing.lineTimeout →
    Answers (.lineTimeout n) s fun t => s.frame t [] []) ∧
  (∀ (s : State) (n : Nat) (f : Frame) (p : Pic) (rows : List (List Nat)), (s.stream n).emitting = some f → (s.stream n).state ≠ .closed → (((s.stream n).partsOf f.emitted).map (fun q => f.part q.1 q.2) = rows.map (fun v => some (.whole v))) → (s.stream n).pic f.num = some p →
    Answers (.rowEmit n) s fun t =>
      (t.stream n).pic f.num = some ({ p with input := p.input ++ [rows.flatten] }.noteCrcs (s.stream n).seq f.emitted) ∧
      (∀ g ∈ (t.stream n).frames, g.num = f.num → g.emitted = f.emitted + 1 ∧ g.emitTick = s.ticks) ∧
      ((s.stream n).slot < 16 → ((s.stream n).headRows f).all (fun r => decide (r.cells.length ≤ 8)) = true →
      t.get (DMA.REQ_COUNT_COUNT (s.stream n).slot) = satAdd (DMA.REQ_COUNT_COUNT (s.stream n).slot).w (s.get (DMA.REQ_COUNT_COUNT (s.stream n).slot)) 1) ∧
      (∀ r, (s.stream n).headRows f = [r] → r.holds = true → r.cells.length ≤ 8 → s.cellsBack t r.cells) ∧
      (∀ k, k ≠ n → t.stream k = s.stream k) ∧
      s.frame t [.streams, .tripped] (DMA.REQ_COUNT_COUNT (s.stream n).slot :: queueFields ++ ((s.stream n).headRows f).flatMap fun r => cellFields r.cells)) ∧
  (∀ (s : State) (n : Nat) (f : Frame) (p : Pic), (s.stream n).emitting = some f → (s.stream n).state ≠ .closed → (((s.stream n).partsOf f.emitted).all (fun q => (f.part q.1 q.2).isSome) = true) → (((s.stream n).partsOf f.emitted).any (fun q => f.part q.1 q.2 == some .dropped || f.part q.1 q.2 == some .missing) = true) → (s.stream n).pic f.num = some p →
    Answers (.rowEmit n) s fun t =>
      (t.stream n).pic f.num = some { ({ p with input := p.input ++ [List.replicate (s.stream n).geo.width (s.stream n).seq.mid] }.noteCrcs (s.stream n).seq f.emitted) with linesDropped := true } ∧
      (((s.stream n).headRows f).all (fun r => decide (r.cells.length ≤ 8)) = true → ∀ q ∈ (s.stream n).partsOf f.emitted,
      t.get (ACC.PORT_LOSS_DROPPED ((s.stream n).ports.getD q.1 0)) = satAdd 16 (s.get (ACC.PORT_LOSS_DROPPED ((s.stream n).ports.getD q.1 0))) (if f.part q.1 q.2 = some .dropped then 1 else 0) ∧
      t.get (ACC.PORT_LOSS_MISSING ((s.stream n).ports.getD q.1 0)) = satAdd 16 (s.get (ACC.PORT_LOSS_MISSING ((s.stream n).ports.getD q.1 0))) (if f.part q.1 q.2 = some .missing then 1 else 0)) ∧
      (∀ k, k ≠ n → t.stream k = s.stream k)) ∧
  (∀ (s : State) (n : Nat) (p : Pic), (s.stream n).kind = 1 → ((s.stream n).pics.find? (fun q => decide (q.lands.length < q.input.length)) = some p) → Tab.risesFrom 0 s.engines = true →
    Answers (.rowLanded n) s fun t =>
      (((t.stream n).pic p.num).map (fun q => q.lands)) = ((s.stream n).pic p.num).map (fun q => q.lands ++ [s.ticks]) ∧ (∀ k, k ≠ n → t.stream k = s.stream k) ∧
      (∀ i, (s.engine i).wait = waitLine → (t.engine i).wait = 0 → (s.engine i).work.any (fun w => w.1 == n && w.2.1 == p.num) = true) ∧
      s.frame t [.streams, .engines] (s.engines.map fun e => engState e.1))

/-- Accession's outputs and ports (R226, R241, R438). -/
def Obligations.HoldOutputsAndSensorPortsFollow : Prop :=
  (∀ (s : State) (v : Nat), v < 4 →
    Answers (.holdCtlWrite v) s fun t =>
      t.get ACC.HOLD_CTL_FORCE = v ∧
      (∀ h, h < 2 → (bitAt v h = true ∨ (s.openStreams.all fun e => !(e.2.kind == 1 && e.2.ing.hold == h)) = true) → bitAt (t.get ACC.ACC_STAT_HOLD) h = true) ∧
      s.frame t [.tripped] [ACC.HOLD_CTL_FORCE, ACC.ACC_STAT_HOLD]) ∧
  (∀ (s : State) (u n : Nat) (it : Item) (l : List Item), (s.queue n).enabled = true → s.mayPop u n = true → (s.queue n).items = it :: l → it.complete = true → s.itemCurrent it = true → (s.queue n).cls = 0 → (s.queue n).disabling = false → it.banks.length ≤ 8 →
    Answers (.popRelease u n) s fun t =>
      t.answer = [it.ty, it.len] ++ it.data.map BitVec.toNat ∧ (t.queue n).items = l ∧ (t.queue n).claimed = (s.queue n).claimed ∧
      (∀ m, m ≠ n → t.queue m = s.queue m) ∧ s.cellsBack t it.banks ∧
      (∀ i, engineOf u = some i → (s.engine i).work.isSome = true → (s.engine i).wait = waitItem → s.get (engState i) = stWaiting → (t.engine i).wait = 0 ∧ t.get (engState i) = stRunning) ∧
      s.frame t [.answer, .queues, .tripped, .engines] (ACC.ACC_STAT_HOLD :: (engineOf u).toList.map engState ++ cellFields it.banks)) ∧
  (∀ (s : State) (u n : Nat), (s.queue n).enabled = true → s.mayPop u n = true → (s.queue n).items = [] →
    Answers (.popRelease u n) s fun t => t.answer = [0, 0] ∧
      (∀ i, engineOf u = some i → (s.engine i).work.isSome = true → s.get (engState i) = stRunning → (t.engine i).wait = waitItem ∧ t.get (engState i) = stWaiting) ∧
      s.frame t [.answer, .tripped, .engines] (ACC.ACC_STAT_HOLD :: (engineOf u).toList.map engState)) ∧
  (∀ (s : State) (p lanes : Nat), s.powered (sensorUnit p) = true → s.on (ACC.PORT_STAT_ULPS p) = false → p < 6 → lanes < 16 →
    Answers (.deskewSequence p lanes true) s fun t =>
      t.get (ACC.PORT_STAT_CLK_ACTIVE p) = 1 ∧ t.get (ACC.PORT_STAT_LANE_SYNC p) = lanes ∧ t.get (ACC.PORT_STAT_DESKEW_DONE p) = 1 ∧ t.get ⟨ACC.ACC_STAT, 2 + p, 1⟩ = 1 ∧
      s.frame t [] [ACC.PORT_STAT_CLK_ACTIVE p, ACC.PORT_STAT_LANE_SYNC p, ACC.PORT_STAT_DESKEW_DONE p, ⟨ACC.ACC_STAT, 2 + p, 1⟩]) ∧
  (∀ (s : State) (p lanes : Nat), s.powered (sensorUnit p) = true → s.on (ACC.PORT_STAT_ULPS p) = false → p < 6 → lanes < 16 →
    Answers (.deskewSequence p lanes false) s fun t =>
      t.get (ACC.PORT_STAT_CLK_ACTIVE p) = 1 ∧ t.get (ACC.PORT_STAT_LANE_SYNC p) = lanes ∧ t.get ⟨ACC.ACC_STAT, 2 + p, 1⟩ = s.get (ACC.PORT_STAT_DESKEW_DONE p) ∧
      s.frame t [] [ACC.PORT_STAT_CLK_ACTIVE p, ACC.PORT_STAT_LANE_SYNC p, ⟨ACC.ACC_STAT, 2 + p, 1⟩]) ∧
  (∀ (s : State) (p : Nat), s.powered (sensorUnit p) = true → p < 6 →
    Answers (.ulpsEntry p) s fun t =>
      t.get (ACC.PORT_STAT_ULPS p) = 1 ∧ t.get (ACC.PORT_STAT_CLK_ACTIVE p) = 0 ∧ t.get (ACC.PORT_STAT_LANE_SYNC p) = 0 ∧ t.get (ACC.PORT_STAT_DESKEW_DONE p) = 0 ∧
      t.get ⟨ACC.ACC_STAT, 2 + p, 1⟩ = 0 ∧
      s.frame t [] [ACC.PORT_STAT_ULPS p, ACC.PORT_STAT_CLK_ACTIVE p, ACC.PORT_STAT_LANE_SYNC p, ACC.PORT_STAT_DESKEW_DONE p, ⟨ACC.ACC_STAT, 2 + p, 1⟩]) ∧
  (∀ (s : State) (p : Nat), Answers (.ulpsExit p) s fun t => t.get (ACC.PORT_STAT_ULPS p) = 0 ∧ s.frame t [] [ACC.PORT_STAT_ULPS p]) ∧
  (∀ (s : State) (p lanes : Nat), ((s.portStreams p).all (fun e => e.2.openFrame.isNone) = true) →
    Answers (.sensorLinkLoss p lanes false) s fun t =>
      (∀ i, i < 4 → bitAt (t.get (ACC.PORT_STAT_LANE_SYNC p)) i = (bitAt (s.get (ACC.PORT_STAT_LANE_SYNC p)) i && !bitAt lanes i)) ∧ s.frame t [] [ACC.PORT_STAT_LANE_SYNC p]) ∧
  (∀ (s : State) (p lanes : Nat), ((s.portStreams p).all (fun e => e.2.openFrame.isNone) = true) → p < 6 →
    Answers (.sensorLinkLoss p lanes true) s fun t =>
      t.get (ACC.PORT_STAT_CLK_ACTIVE p) = 0 ∧ t.get (ACC.PORT_STAT_LANE_SYNC p) = 0 ∧ t.get (ACC.PORT_STAT_DESKEW_DONE p) = 0 ∧ t.get ⟨ACC.ACC_STAT, 2 + p, 1⟩ = 0 ∧
      s.frame t [] [ACC.PORT_STAT_CLK_ACTIVE p, ACC.PORT_STAT_LANE_SYNC p, ACC.PORT_STAT_DESKEW_DONE p, ⟨ACC.ACC_STAT, 2 + p, 1⟩]) ∧
  (∀ (s : State) (p lanes n : Nat) (x : Stream) (f : Frame), ((s.portStreams p).filter (fun e => e.2.openFrame.isSome) = [(n, x)]) → x.openFrame = some f → ((s.stream n).pic f.num).isSome = true → s.rgs.raises (sensorUnit p) 3 = false → s.unitEnabled (sensorUnit p) = true → s.power.held = false → p < 6 →
    Answers (.sensorLinkLoss p lanes false) s fun t =>
      (∀ i, i < 4 → bitAt (t.get (ACC.PORT_STAT_LANE_SYNC p)) i = (bitAt (s.get (ACC.PORT_STAT_LANE_SYNC p)) i && !bitAt lanes i)) ∧
      s.logged t (sensorUnit p) 0x36 3 0 ∧ ((t.stream n).pic f.num).map (fun q => q.unmasked) = some true ∧ (∀ k, k ≠ n → t.stream k = s.stream k))

/-- Dispatch (R24, R65), first dispatch (R25, R77, R168 step 4, R169), placement epochs (R451). What the specification leaves open in it is the model's choice: log entries 44, 45, 54, 120, 121. -/
def Obligations.UnitsOfWorkAreDispatched : Prop :=
  (∀ (s : State) (n num j : Nat) (cars scrs : List Nat) (p : Pic), (s.stream n).pic num = some p → p.dispatched = true → s.dispatchable n num j false = true → s.enginesFit (s.stream n) cars scrs = true →
    Answers (.leafDispatch n num j cars scrs) s fun t =>
      (∀ k i, cars[k]? = some i → (t.engine i).work = some (n, num, j, k) ∧ t.get (engState i) = stRunning ∧ t.get (engEpoch i) = ((s.stream n).place + k + 1) % 65536 ∧ t.get (engProg i) = 0) ∧
      (∀ k i, scrs[k]? = some i → (t.engine i).work = some (n, num, j, k) ∧ t.get (engState i) = stRunning ∧ t.get (engEpoch i) = ((s.stream n).place + k + 1) % 65536 ∧ t.get (engProg i) = 0) ∧
      ((t.stream n).pic num).map (fun q => (q.unit j).runs.length) = some (cars.length + scrs.length) ∧
      (∀ i, cars.contains i = false → scrs.contains i = false → t.engine i = s.engine i) ∧ (∀ m, m ≠ n → t.stream m = s.stream m) ∧
      s.frame t [.engines, .streams] ((cars ++ scrs).flatMap fun i => [engState i, engEpoch i, engProg i])) ∧
  (∀ (s : State) (n num j : Nat) (cars scrs : List Nat) (p : Pic), (s.stream n).pic num = some p → p.dispatched = true → (s.stream n).isKrema = true ∧ (s.stream n).subFrame = true → s.dispatchable n num j true = true → s.enginesFit (s.stream n) cars scrs = true →
    Answers (.subframeLeafDispatch n num j cars scrs) s fun t =>
      (∀ k i, cars[k]? = some i → (t.engine i).work = some (n, num, j, k) ∧ t.get (engState i) = stRunning ∧ t.get (engEpoch i) = ((s.stream n).place + k + 1) % 65536 ∧ t.get (engProg i) = 0) ∧
      (∀ k i, scrs[k]? = some i → (t.engine i).work = some (n, num, j, k) ∧ t.get (engState i) = stRunning ∧ t.get (engEpoch i) = ((s.stream n).place + k + 1) % 65536 ∧ t.get (engProg i) = 0) ∧
      ((t.stream n).pic num).map (fun q => (q.unit j).runs.length) = some (cars.length + scrs.length) ∧
      (∀ i, cars.contains i = false → scrs.contains i = false → t.engine i = s.engine i) ∧ (∀ m, m ≠ n → t.stream m = s.stream m) ∧
      s.frame t [.engines, .streams] ((cars ++ scrs).flatMap fun i => [engState i, engEpoch i, engProg i])) ∧
  (∀ (s : State) (n num j : Nat) (cars scrs : List Nat), (s.dispatchable n num j false = false ∨ s.enginesFit (s.stream n) cars scrs = false) →
    Answers (.leafDispatch n num j cars scrs) s fun t => s.frame t [] []) ∧
  (∀ (s : State) (n num j : Nat) (cars scrs : List Nat), ((s.stream n).isKrema = false ∨ (s.stream n).subFrame = false ∨ s.dispatchable n num j true = false ∨ s.enginesFit (s.stream n) cars scrs = false) →
    Answers (.subframeLeafDispatch n num j cars scrs) s fun t => s.frame t [] []) ∧
  (∀ (s : State) (n num j : Nat) (cars scrs : List Nat) (p : Pic), (s.stream n).pic num = some p → p.dispatched = false → p.stamps.length = 6 → (s.stream n).statsP.sections = 0 → s.dispatchable n num j false = true → s.enginesFit (s.stream n) cars scrs = true →
    Answers (.leafDispatch n num j cars scrs) s fun t =>
      (∀ q, (t.stream n).pic num = some q → q.dispatched = true ∧ q.stamp 3 = s.now ∧ q.epoch = s.get CAT.EPOCH_VALUE ∧
      q.digest = s.get CAT.DIGEST_HI_VALUE * 2 ^ 32 + s.get CAT.DIGEST_LO_VALUE ∧ q.proof = (p.proof <|> (s.stream n).secs.proof) ∧ q.lambda = (p.lambda <|> some (s.stream n).statsP.lambda)) ∧
      ((t.stream n).pic num).isSome = true ∧ (∀ k i, cars[k]? = some i → (t.engine i).work = some (n, num, j, k)) ∧
      (∀ m, m ≠ n → t.stream m = s.stream m) ∧ s.frame t [.engines, .streams] ((cars ++ scrs).flatMap fun i => [engState i, engEpoch i, engProg i])) ∧
  (∀ (s : State) (n num j : Nat) (cars scrs : List Nat) (p : Pic), (s.stream n).pic num = some p → p.dispatched = false → (s.stream n).rated = true → (s.stream n).statsP.sections = 0 → s.dispatchable n num j false = true → s.enginesFit (s.stream n) cars scrs = true →
    Answers (.leafDispatch n num j cars scrs) s fun t =>
      (∀ q, (t.stream n).pic num = some q → ∀ r, (s.stream n).plans.find? (fun z => z.pic == p.num) = some r → q.plan = some ((s.stream n).govern r) ∧ q.planStale = p.planStale ∧ q.planFallback = p.planFallback) ∧
      (∀ q, (t.stream n).pic num = some q → (s.stream n).plans.find? (fun z => z.pic == p.num) = none → ∀ r, (s.stream n).lastPlan = some r → q.plan = some ((s.stream n).govern { r with pic := p.num }) ∧ q.planStale = true) ∧
      (∀ q, (t.stream n).pic num = some q → (s.stream n).plans.find? (fun z => z.pic == p.num) = none → (s.stream n).lastPlan = none → q.planFallback = true ∧ q.plan = (t.stream n).lastPlan ∧
      (q.plan.map fun r => (r.target, r.reserve, r.quant)) = some (8 * (s.stream n).targetBytes, 8 * (s.stream n).targetBytes / 8, (s.stream n).guardSamples.map fun _ => (s.stream n).rateP.quantInit)) ∧
      (t.stream n).plans = (s.stream n).plans.filter (fun z => z.pic != p.num))

/-- Commits (R28, R63, R64, R430, R452). That the engine is then at once IDLE is the model's form. What the specification leaves open in it is the model's choice: log entries 47, 48, 49, 79, 153, 156. -/
def Obligations.ChunksAreCheckedAndCommitted : Prop :=
  (∀ (s : State) (i n num j run : Nat) (c : Commit) (p : Pic), (s.engine i).work = some (n, num, j, run) → s.get (engState i) = stRunning → (s.stream n).pic num = some p → (p.unit j).committed = false → (p.unit j).runs.contains (unitOfEngine i, s.get (engEpoch i)) = true → (c.signOk = true ∧ c.residueOk = true ∧ (isCarrel i = true → c.reconOk = true)) → c.last = false → s.get (engProg i) < 65535 → s.otherRun i n num j run = none → i < 86 →
    Answers (.chunkCommit i c) s fun t =>
      ((t.stream n).pic num).map (fun q => (q.unit j).chunks) = some ((p.unit j).chunks.filter (fun k => k.1 != unitOfEngine i || k.2.1 != s.get (engProg i)) ++ [(unitOfEngine i, s.get (engProg i), s.get (engEpoch i))]) ∧
      ((t.stream n).pic num).map (fun q => (q.unit j).committed) = some false ∧
      t.engine i = { s.engine i with staging := [], offer := none } ∧ t.get (engProg i) = s.get (engProg i) + 1 ∧
      (∀ k, k ≠ i → t.engine k = s.engine k) ∧ (∀ m, m ≠ n → t.stream m = s.stream m) ∧ s.frame t [.engines, .streams] [engProg i]) ∧
  (∀ (s : State) (i n num j run : Nat) (c : Commit) (p : Pic), (s.engine i).work = some (n, num, j, run) → s.get (engState i) = stRunning → (s.stream n).pic num = some p → ((p.unit j).committed = true ∨ (p.unit j).runs.contains (unitOfEngine i, s.get (engEpoch i)) = false) → i < 86 →
    Answers (.chunkCommit i c) s fun t =>
      t.get RGS.LATE_DISCARDS_COUNT = satAdd RGS.LATE_DISCARDS_COUNT.w (s.get RGS.LATE_DISCARDS_COUNT) 1 ∧ t.get (engState i) = stIdle ∧
      (t.engine i).work = none ∧ (t.engine i).staging = [] ∧ (t.engine i).wait = 0 ∧ (t.engine i).offer = none ∧ ((t.stream n).pic num).map (fun q => ((q.unit j).committed, (q.unit j).results, (q.unit j).code)) = some ((p.unit j).committed, (p.unit j).results, (p.unit j).code) ∧
      (∀ k, k ≠ i → t.engine k = s.engine k) ∧ (∀ m, m ≠ n → t.stream m = s.stream m) ∧ s.frame t [.engines, .streams] (RGS.LATE_DISCARDS_COUNT :: engState i :: spareFields)) ∧
  (∀ (s : State) (i n num j run : Nat) (c : Commit) (p : Pic), (s.engine i).work = some (n, num, j, run) → s.get (engState i) = stRunning → (s.stream n).pic num = some p → (p.unit j).committed = false → (p.unit j).runs.contains (unitOfEngine i, s.get (engEpoch i)) = true → c.signOk = false → s.engineEnabled i = true ∧ i < 86 → s.rgs.raises (unitOfEngine i) 2 = false → s.rgs.raises 0x1F0 3 = false → s.power.held = false →
    Answers (.chunkCommit i c) s fun t => s.logged t (unitOfEngine i) 0x04 2 0 ∧ t.get (MMU.GRANT_FENCED i) = 1) ∧
  (∀ (s : State) (i n num j run k : Nat) (c : Commit) (p : Pic), (s.engine i).work = some (n, num, j, run) → s.get (engState i) = stRunning → (s.stream n).pic num = some p → (p.unit j).committed = false → (p.unit j).runs.contains (unitOfEngine i, s.get (engEpoch i)) = true → (c.signOk = true ∧ c.residueOk = true ∧ (isCarrel i = true → c.reconOk = true)) → c.last = false → s.otherRun i n num j run = some k → s.get (engProg k) ≤ s.get (engProg i) → (s.get (engProg k) ≠ s.get (engProg i) ∨ (s.engine k).offer ≠ some (s.get (engProg i))) →
    Answers (.chunkCommit i c) s fun t =>
      t.engine i = { s.engine i with offer := some (s.get (engProg i)) } ∧ (∀ m, m ≠ i → t.engine m = s.engine m) ∧ s.frame t [.engines] []) ∧
  (∀ (s : State) (i n num j run k : Nat) (c : Commit) (p : Pic), (s.engine i).work = some (n, num, j, run) → s.get (engState i) = stRunning → (s.stream n).pic num = some p → (p.unit j).committed = false → (p.unit j).runs.contains (unitOfEngine i, s.get (engEpoch i)) = true → (c.signOk = true ∧ c.residueOk = true ∧ (isCarrel i = true → c.reconOk = true)) → c.last = false → s.otherRun i n num j run = some k → s.get (engProg k) = s.get (engProg i) → (s.engine k).offer = some (s.get (engProg i)) → k ≠ i ∧ i < 86 ∧ k < 86 ∧ s.get (engProg i) < 65535 →
    Answers (.chunkCommit i c) s fun t =>
      t.engine i = { s.engine i with staging := [], offer := none } ∧ t.engine k = { s.engine k with staging := [], offer := none } ∧
      t.get (engProg i) = s.get (engProg i) + 1 ∧ t.get (engProg k) = s.get (engProg i) + 1 ∧
      (∀ q, (t.stream n).pic num = some q → (q.unit j).chunks.contains (unitOfEngine i, s.get (engProg i), s.get (engEpoch i)) = true ∧
      (q.unit j).chunks.contains (unitOfEngine k, s.get (engProg i), s.get (engEpoch k)) = true) ∧
      (∀ m, m ≠ i → m ≠ k → t.engine m = s.engine m) ∧ (∀ m, m ≠ n → t.stream m = s.stream m) ∧ s.frame t [.engines, .streams] [engProg i, engProg k]) ∧
  (∀ (s : State) (i n num j run : Nat) (c : Commit) (p : Pic), (s.engine i).work = some (n, num, j, run) → s.get (engState i) = stRunning → (s.stream n).pic num = some p → (p.unit j).committed = false → (p.unit j).runs.contains (unitOfEngine i, s.get (engEpoch i)) = true → c.signOk = true ∧ c.reconOk = true ∧ c.residueOk = true ∧ c.last = true → isCarrel i = true → s.leafWhole (s.stream n) p j = false →
    Answers (.chunkCommit i c) s fun t =>
      t.get (engState i) = stWaiting ∧ t.engine i = { s.engine i with wait := waitLine } ∧ (∀ m, m ≠ i → t.engine m = s.engine m) ∧ s.frame t [.engines] [engState i]) ∧
  (∀ (s : State) (i n num j run : Nat) (c : Commit) (p : Pic), (s.engine i).work = some (n, num, j, run) → s.get (engState i) = stRunning → (s.stream n).pic num = some p → (p.unit j).committed = false → (p.unit j).runs.contains (unitOfEngine i, s.get (engEpoch i)) = true → c.signOk = true ∧ c.reconOk = true ∧ c.residueOk = true ∧ c.last = true → s.leafWhole (s.stream n) p j = true → isCarrel i = true → ((s.stream n).kind ≠ 1 ∨ p.crcs.getD j none = some (inputCrc (leafSamples (readWith ((s.stream n).seq.leaf j) c.read p.input) ((s.stream n).seq.leaf j)))) → (s.engines.any (fun e => e.1 != i && (s.engine e.1).work == e.2.work && (match e.2.work with | some (a, b, d, _) => a == n && b == num && d == j | none => false)) = true) →
    Answers (.chunkCommit i c) s fun t =>
      (∃ r, r = s.codeUnit (s.stream n) p j c false ∧ ((t.stream n).pic num).map (fun q => (q.unit j).results) = some ((p.unit j).results ++ [(run, unitOfEngine i, r)])) ∧
      ((t.stream n).pic num).map (fun q => (q.unit j).committed) = some false ∧ t.get (engState i) = stIdle ∧ (t.engine i).work = none ∧
      (∀ k, k ≠ i → t.engine k = s.engine k) ∧ (∀ m, m ≠ n → t.stream m = s.stream m) ∧ s.frame t [.engines, .streams] (engState i :: engProg i :: spareFields)) ∧
  (∀ (s : State) (i n num j run v : Nat) (c : Commit) (p : Pic), (s.engine i).work = some (n, num, j, run) → s.get (engState i) = stRunning → (s.stream n).pic num = some p → (p.unit j).committed = false → (p.unit j).runs.contains (unitOfEngine i, s.get (engEpoch i)) = true → c.signOk = true ∧ c.reconOk = true ∧ c.residueOk = true ∧ c.last = true → s.leafWhole (s.stream n) p j = true → isCarrel i = true → (s.stream n).kind = 1 → (s.stream n).prot ≠ 2 → p.crcs.getD j none = some v → v ≠ inputCrc (leafSamples (readWith ((s.stream n).seq.leaf j) c.read p.input) ((s.stream n).seq.leaf j)) → (p.unit j).crcMiss = [] → s.engineEnabled i = true ∧ i < 86 → s.rgs.raises (unitOfEngine i) 1 = false → s.power.held = false →
    Answers (.chunkCommit i c) s fun t =>
      s.logged t (unitOfEngine i) 0x05 1 0 ∧ t.get (engState i) = stAbandoned ∧ (t.engine i).staging = [] ∧ (t.engine i).work = (s.engine i).work ∧
      t.get (engAbandons i) = satAdd (engAbandons i).w (s.get (engAbandons i)) 1 ∧
      ((t.stream n).pic num).map (fun q => ((q.unit j).crcMiss, (q.unit j).results, (q.unit j).committed)) = some ([unitOfEngine i], (p.unit j).results, false)) ∧
  (∀ (s : State) (i n num j k run : Nat) (c : Commit) (p : Pic) (r : Nat × Nat × Coded), (s.engine i).work = some (n, num, j, run) → s.get (engState i) = stRunning → (s.stream n).pic num = some p → (p.unit j).committed = false → (p.unit j).runs.contains (unitOfEngine i, s.get (engEpoch i)) = true → c.signOk = true ∧ c.residueOk = true ∧ c.last = true ∧ c.wrong = none → isCarrel i = false → i < 86 → (s.stream n).prot ≠ 1 → (p.unit j).results = [r] → r.1 = run → (p.unit j).redoTick = none → (s.engines.all (fun e => e.1 == i || (match e.2.work with | some (a, b, d, _) => !(a == n && b == num && d == j) | none => true)) = true) → k < p.unitCount ∧ k ≠ j ∧ (p.unit k).committed = false →
    Answers (.chunkCommit i c) s fun t =>
      ((t.stream n).pic num).map (fun q => ((q.unit j).committed, (q.unit j).code, (q.unit j).commitTick, (q.unit j).results, (q.unit j).runs)) = some (true, r.2.2, s.ticks, [], []) ∧
      ((t.stream n).pic num).map (fun q => (q.finished, q.unmasked)) = some (p.finished, p.unmasked || r.2.2.unverified) ∧
      t.get (engState i) = stIdle ∧ (t.engine i).work = none ∧ (∀ m, m ≠ n → t.stream m = s.stream m) ∧ s.frame t [.engines, .streams] (engState i :: engProg i :: spareFields))

/-- The guard (R170, R172) and releases (R29, R134, R200). What the specification leaves open in it is the model's choice: log entries 50, 51, 52, 53, 127. -/
def Obligations.TheGuardTripsAndReleasesFollowInOrder : Prop :=
  (∀ (s : State) (n num g k : Nat) (p : Pic) (plan : Plan), (s.stream n).pic num = some p → p.plan = some plan → (s.stream n).rated = true ∧ p.dispatched = true → p.evaluated = g → g < (p.knownBits (s.stream n)).length → (p.trip ≠ none ∨ guardTrip plan (s.stream n).constQ ((p.knownBits (s.stream n)).take (g + 1)) ≠ some g) → ((s.stream n).isV = false ∨ p.floorAt g = false ∨ p.floor2 ≠ none ∨ (p.knownBits (s.stream n)).getD g 0 ≤ plan.allot.getD g 0) → k < p.unitCount ∧ (p.unit k).committed = false →
    Answers (.guardEvaluate n num) s fun t =>
      t.stream n = (s.stream n).setPic { p with evaluated := g + 1 } ∧ (∀ m, m ≠ n → t.stream m = s.stream m) ∧ s.frame t [.streams] []) ∧
  (∀ (s : State) (n num g k j : Nat) (p : Pic) (plan : Plan), (s.stream n).pic num = some p → p.plan = some plan → (s.stream n).rated = true ∧ p.dispatched = true → p.evaluated = g → g < (p.knownBits (s.stream n)).length → p.trip = none → guardTrip plan (s.stream n).constQ ((p.knownBits (s.stream n)).take (g + 1)) = some g → Tab.risesFrom 0 s.engines = true → ((List.range p.unitCount).find? (fun i => decide (((s.stream n).guardsOf i).1 ≤ g ∧ g < ((s.stream n).guardsOf i).1 + ((s.stream n).guardsOf i).2)) = some j) → (k < p.unitCount ∧ k < (s.stream n).unitCount ∧ (p.unit k).lost = false ∧ ((p.unit k).committed = false ∨ g + 1 < ((s.stream n).guardsOf k).1 + ((s.stream n).guardsOf k).2)) →
    Answers (.guardEvaluate n num) s fun t =>
      ((t.stream n).pic num).map (fun q => (q.evaluated, q.trip, q.tripTick)) = some (g + 1, some g, (p.unit j).commitTick) ∧
      (∀ i, i < (s.stream n).unitCount → g + 1 < ((s.stream n).guardsOf i).1 + ((s.stream n).guardsOf i).2 → (p.unit i).lost = false →
      ((t.stream n).pic num).map (fun q => (q.unit i).committed) = some false) ∧
      (∀ i, i < (s.stream n).unitCount → ((s.stream n).guardsOf i).1 + ((s.stream n).guardsOf i).2 ≤ g + 1 → ((t.stream n).pic num).map (fun q => q.unit i) = some (p.unit i)) ∧
      (∀ m, m ≠ n → t.stream m = s.stream m)) ∧
  (∀ (s : State) (n num : Nat) (p : Pic), (s.stream n).pic num = some p → (p.knownBits (s.stream n)).length ≤ p.evaluated →
    Answers (.guardEvaluate n num) s fun t => s.frame t [] []) ∧
  (∀ (s s1 : State) (n num j : Nat) (p p1 : Pic) (bound : Option Nat), (s.stream n).pic num = some p → (s.stream n).subFrame = true → (s.stream n).inTurn num = true → p.releasedUnits = j → j + 1 < p.unitCount → (p.unit j).committed = true → (p.finished = true ∨ p.allCommitted = false) → ((s.stream n).rated = false ∨ ((s.stream n).guardsOf j).1 + ((s.stream n).guardsOf j).2 ≤ p.evaluated + 1) → ((match s.writeOut p (p.releaseBytes (s.stream n)) with | (a, b, c) => decide (a = s1) && decide (b = p1) && c) = true) → bound = s1.releaseBound (s.stream n) p1 j →
    Answers (.leafRelease n num) s fun t =>
      t.stream n = (s1.stream n).setPic { p1 with releasedUnits := j + 1, releaseTick := s1.ticks, boundMissed := p1.boundMissed || (match bound with | some b => decide (b < s1.ticks) | none => false) } ∧
      (∀ m, m ≠ n → t.stream m = s1.stream m) ∧ s1.frame t [.streams] []) ∧
  (∀ (s : State) (n num j rp id pa : Nat) (p : Pic) (u : Taken) (data : List Byte), (s.stream n).pic num = some p → (s.stream n).subFrame = true → (s.stream n).inTurn num = true → p.releasedUnits = j → j + 1 < p.unitCount → (p.unit j).committed = true → (p.finished = true ∨ p.allCommitted = false) → ((s.stream n).rated = false ∨ ((s.stream n).guardsOf j).1 + ((s.stream n).guardsOf j).2 ≤ p.evaluated + 1) → p.slip = some (rp, id) → (s.ring rp).byId id = some u → s.slipWaits rp u = false → p.addrFault = false → data = p.releaseBytes (s.stream n) → data ≠ [] → p.outLen + data.length ≤ u.word 7 → s.mapped 7 none (s.get (HIF.RP_CFG_ASID rp)) (u.addr 5 + p.outLen) true pa = true → (u.addr 5 + p.outLen) % 4096 + data.length ≤ 4096 → s.aperture pa = some 8 →
    Answers (.leafRelease n num) s fun t =>
      t.hostBytes (s.hostAddr pa) data.length = data ∧ (∀ a, a < s.hostAddr pa ∨ s.hostAddr pa + data.length ≤ a → t.hostByte a = s.hostByte a) ∧
      ((t.stream n).pic num).map (fun q => (q.releasedUnits, q.outLen)) = some (j + 1, p.outLen + data.length) ∧ (∀ a, t.dramByte a = s.dramByte a)) ∧
  (∀ (s : State) (n num : Nat) (p : Pic), (s.stream n).pic num = some p → (p.finished = true ∨ p.allCommitted = false) → ((s.stream n).subFrame = false ∨ (s.stream n).inTurn num = false ∨ (p.unit p.releasedUnits).committed = false) →
    Answers (.leafRelease n num) s fun t => s.frame t [] []) ∧
  (∀ (s : State) (n num : Nat) (p : Pic), (s.stream n).pics = [p] → p.num = num → (s.stream n).subFrame = false → p.finished = true ∧ p.released = false ∧ p.readers = [] ∧ p.statsHeld = false ∧ p.slip = none ∧ p.netStream = none ∧ p.src = none → (s.stream n).recorded = false → s.recordWaits n num = false → ((s.stream n).kind ≠ 1 ∨ (s.stream n).pictureEventsOn = 0) →
    Answers (.pictureRelease n num) s fun t =>
      t.stream n = { s.stream n with lastReleased := some num, pics := [] } ∧ (∀ m, m ≠ n → t.stream m = s.stream m) ∧ s.frame t [.streams] []) ∧
  (∀ (s s1 : State) (n num rp id k : Nat) (p p1 : Pic) (u : Taken), (s.stream n).pics = [p] → p.num = num → (s.stream n).subFrame = false → p.finished = true ∧ p.released = false ∧ p.netStream = none ∧ p.slipWritten = false ∧ p.src = none → p.slip = some (rp, id) → ((s.stream n).statsP.toHost = false ∨ p.statsHeld = false) → ((match s.writeOut p (p.coded (s.stream n)) with | (a, b, c) => decide (a = s1) && decide (b = p1) && c) = true) → p1.addrFault = false → s1.stream n = s.stream n ∧ (s1.ring rp).byId id = some u ∧ (s1.ring rp).placeOf id = some k ∧ s1.mayComplete rp k u = true →
    Answers (.pictureRelease n num) s fun t =>
      (t.stream n).lastReleased = some num ∧
      (∃ w, u.completion (if u.word 7 < p1.outLen then 0x0013 else if p1.unmasked then stUnmasked else stSuccess) (min p1.clamped 4095) w ∈ (t.ring rp).compl) ∧ (t.ring rp).byId id = none) ∧
  (∀ (s : State) (n num : Nat) (p : Pic), (s.stream n).pic num = some p → (p.finished = true ∨ p.allCommitted = false) → ((s.stream n).subFrame = true ∨ p.finished = false ∨ p.released = true ∨ (s.stream n).inTurn num = false) →
    Answers (.pictureRelease n num) s fun t => s.frame t [] [])

/-- Search and planning (R152, R160, R168, R181, R187, R189). What the specification leaves open in it is the model's choice: log entries 55, 57, 58, 120, 126, 129, 130, 147. -/
def Obligations.SearchPlansStatisticsAndAppletCalls : Prop :=
  (∀ (s : State) (n num b : Nat) (p : Pic), (s.stream n).pic num = some p → (s.stream n).searches num = true ∧ (s.stream n).kind ≠ 7 → s.blockLanded (s.stream n) (p.fixed (s.stream n)) b = true → (p.dispatched = true ∨ s.touched n = false) →
    Answers (.searchBlock n num b) s fun t =>
      (∃ v, v = s.vectorOf (s.stream n) (p.fixed (s.stream n)) b ∧ ((t.stream n).pic num) = some { p.fixed (s.stream n) with vectors := Tab.set (fun _ => unsearched) p.vectors b { found := v, epoch := ((s.stream n).blockOwner b).bind fun j => ((p.unit j).runs.head?).map (fun r => r.2) } }) ∧
      (∀ m, m ≠ n → t.stream m = s.stream m) ∧ s.frame t [.streams] []) ∧
  (∀ (s : State) (n num b : Nat) (p : Pic), (s.stream n).pic num = some p → ((s.stream n).searches num = false ∨ (s.stream n).kind = 7 ∨ s.blockLanded (s.stream n) (p.fixed (s.stream n)) b = false ∨ (p.dispatched = false ∧ s.touched n = true)) →
    Answers (.searchBlock n num b) s fun t => s.frame t [] []) ∧
  (∀ (s : State) (n num : Nat) (p : Pic), (s.stream n).pic num = some p → (s.stream n).state ≠ .closed ∧ (s.stream n).kind ≠ 7 → p.coarse = none → s.allLanded (s.stream n) p = true → num ≠ 0 →
    Answers (.coarseCplxPost n num) s fun t =>
      (∃ v, v = coarseCplx (s.searchOf (s.stream n) p) ∧ (t.stream n).pic num = some { p with coarse := some v } ∧ (t.stream n).coarse = (num, v) :: (s.stream n).coarse.filter (fun q => q.1 != num)) ∧
      (∀ m, m ≠ n → t.stream m = s.stream m) ∧ s.frame t [.streams] []) ∧
  (∀ (s : State) (n : Nat) (bs : List Byte) (p : Plan), (s.stream n).planning = false → parsePlan bs = some p → (s.stream n).state ≠ .closed ∧ (s.stream n).rated = true → ((s.stream n).planReq n).valid p = true → ((match (s.stream n).pic p.pic with | some q => q.dispatched | none => decide (p.pic < (s.stream n).nextPic)) = false) → ((s.stream n).plans.all (fun q => q.pic != p.pic) = true) → (s.stream n).plans.length < 2 →
    Answers (.planPost n bs) s fun t =>
      t.answer = [0] ∧ t.stream n = { s.stream n with plans := (s.stream n).plans ++ [p] } ∧ (∀ m, m ≠ n → t.stream m = s.stream m) ∧ s.frame t [.answer, .streams] []) ∧
  (∀ (s : State) (n : Nat) (bs : List Byte) (p : Plan), (s.stream n).planning = false → parsePlan bs = some p → (s.stream n).state ≠ .closed ∧ (s.stream n).rated = true → ((s.stream n).planReq n).valid p = true → ((match (s.stream n).pic p.pic with | some q => q.dispatched | none => decide (p.pic < (s.stream n).nextPic)) = false) → ((s.stream n).plans.any (fun q => q.pic == p.pic) = true) →
    Answers (.planPost n bs) s fun t =>
      t.answer = [0] ∧ t.stream n = { s.stream n with plans := (s.stream n).plans.map fun q => if q.pic = p.pic then p else q } ∧ (∀ m, m ≠ n → t.stream m = s.stream m) ∧
      s.frame t [.answer, .streams] []) ∧
  (∀ (s : State) (n : Nat) (bs : List Byte) (p : Plan), (s.stream n).planning = false → parsePlan bs = some p → (s.stream n).state ≠ .closed ∧ (s.stream n).rated = true → ((s.stream n).planReq n).valid p = true → ((match (s.stream n).pic p.pic with | some q => q.dispatched | none => decide (p.pic < (s.stream n).nextPic)) = false) → ((s.stream n).plans.all (fun q => q.pic != p.pic) = true) → 2 ≤ (s.stream n).plans.length →
    Answers (.planPost n bs) s fun t => t.answer = [statusWord (-4)] ∧ s.frame t [.answer] []) ∧
  (∀ (s : State) (n : Nat) (bs : List Byte) (p : Plan), (s.stream n).planning = false → parsePlan bs = some p → (s.stream n).state ≠ .closed ∧ (s.stream n).rated = true → ((s.stream n).planReq n).valid p = true → ((match (s.stream n).pic p.pic with | some q => q.dispatched | none => decide (p.pic < (s.stream n).nextPic)) = true) →
    Answers (.planPost n bs) s fun t =>
      t.answer = [statusWord (-3)] ∧ t.stream n = { s.stream n with planLate := (s.stream n).planLate + 1 } ∧ (∀ m, m ≠ n → t.stream m = s.stream m) ∧ s.frame t [.answer, .streams] []) ∧
  (∀ (s : State) (n : Nat) (bs : List Byte), (s.stream n).planning = false → ((match parsePlan bs with | some p => !(((s.stream n).planReq n).valid p) | none => true) = true) →
    Answers (.planPost n bs) s fun t =>
      t.answer = [statusWord (-2)] ∧ t.stream n = { s.stream n with planDrops := (s.stream n).planDrops + 1 } ∧ (∀ m, m ≠ n → t.stream m = s.stream m) ∧ s.frame t [.answer, .streams] []) ∧
  (∀ (s : State) (n : Nat) (bs : List Byte) (p : Plan) (a : Applet), (s.stream n).applet = some a ∧ a.active = true ∧ a.call ≠ none → parsePlan bs = some p → (s.stream n).state ≠ .closed ∧ (s.stream n).rated = true → ((s.stream n).planReq n).valid p = true → ((match (s.stream n).pic p.pic with | some q => q.dispatched | none => decide (p.pic < (s.stream n).nextPic)) = false) → ((s.stream n).plans.all (fun q => q.pic != p.pic) = true) → (s.stream n).plans.length < 2 →
    Answers (.rcPost n bs) s fun t =>
      t.answer = [0] ∧ t.stream n = { s.stream n with plans := (s.stream n).plans ++ [p] } ∧ (∀ m, m ≠ n → t.stream m = s.stream m) ∧ s.result t a.hart 0 ∧ s.frame t [.answer, .streams, .harts] []) ∧
  (∀ (s : State) (n : Nat) (bs : List Byte) (p : Plan) (a : Applet), (s.stream n).applet = some a → (a.call.any (fun c => c.entry == .rcPlan) = true ∧ a.queue = []) → parsePlan bs = some p → (s.stream n).state ≠ .closed ∧ (s.stream n).rated = true → ((s.stream n).planReq n).valid p = true → ((match (s.stream n).pic p.pic with | some q => q.dispatched | none => decide (p.pic < (s.stream n).nextPic)) = false) → ((s.stream n).plans.all (fun q => q.pic != p.pic) = true) → (s.stream n).plans.length < 2 →
    Answers (.planPost n bs) s fun t =>
      t.answer = [0] ∧ t.stream n = { s.stream n with plans := (s.stream n).plans ++ [p], applet := some { a with call := none } } ∧
      t.hart a.hart = { s.hart a.hart with user := false } ∧ (∀ m, m ≠ n → t.stream m = s.stream m) ∧ s.frame t [.answer, .streams, .harts] []) ∧
  (∀ (s : State) (n num code value : Nat) (bs : List Byte), ((match (s.stream n).applet with | some a => a.active && a.call.isSome | none => false) = false) →
    Answers (.rcPost n bs) s (fun t => s.frame t [] []) ∧ Answers (.rcCplx n num) s (fun t => s.frame t [] []) ∧ Answers (.rcTime n) s (fun t => s.frame t [] []) ∧ Answers (.rcLog n code value) s (fun t => s.frame t [] [])) ∧
  (∀ (s : State) (n num v : Nat) (a : Applet), (s.stream n).applet = some a ∧ a.active = true ∧ a.call ≠ none → (v = match (s.stream n).coarse.find? (fun q => q.1 == num) with | some q => q.2 | none => statusWord (-1)) →
    Answers (.rcCplx n num) s fun t => t.answer = [v] ∧ s.result t a.hart v ∧ s.frame t [.answer, .harts] []) ∧
  (∀ (s : State) (n : Nat) (a : Applet), (s.stream n).applet = some a ∧ a.active = true ∧ a.call ≠ none →
    Answers (.rcTime n) s fun t =>
      t.answer = [s.time / 2 ^ 28 % 2 ^ 32] ∧ s.result t a.hart (s.time / 2 ^ 28 % 2 ^ 32) ∧ s.frame t [.answer, .harts] []) ∧
  (∀ (s : State) (n code value : Nat) (a : Applet), (s.stream n).applet = some a → a.active = true ∧ a.call ≠ none →
    Answers (.rcLog n code value) s fun t =>
      s.result t a.hart 0 ∧
      t.answer = [0] ∧ t.stream n = { s.stream n with applet := some { a with log := ((code, value) :: a.log).take 64 } } ∧ (∀ m, m ≠ n → t.stream m = s.stream m) ∧ s.frame t [.answer, .streams, .harts] []) ∧
  (∀ (s : State) (n num h : Nat) (x : Stream) (p : Pic) (q : StatsFolio), s.stream n = x → x.pic num = some p → p.statsHeld = true ∧ p.folio = some h → ((match x.applet with | some a => !a.active | none => true) = true) → s.isLent h = true ∧ 1 < (s.lent h).count → (x.pics.all (fun k => !k.released) = true) → s.statsOf n p = q →
    Answers (.statsFolioArrival n num) s fun t =>
      (t.lent h).count = (s.lent h).count - 1 ∧
      (t.stream n).fullness = (if x.rated then x.fullness + Int.ofNat x.peakBits - Int.ofNat q.pictureBits else x.fullness) ∧
      (t.stream n).cplx = (if bitAt q.sections 1 then q.cplx else x.cplx) ∧
      ((t.stream n).kIntra, (t.stream n).kInter) = (if x.rated = true ∧ p.trip = none then
      (if p.key then (kUpdate x.kIntra (kMeasured x.isV q.pictureBits (x.fwIn n num).samples (x.plannedBy n num).2.1 (x.plannedBy n num).2.2 (x.plannedBy n num).1) x.rateP.modelWeight, x.kInter)
      else (x.kIntra, kUpdate x.kInter (kMeasured x.isV q.pictureBits (x.fwIn n num).samples (x.plannedBy n num).2.1 (x.plannedBy n num).2.2 (x.plannedBy n num).1) x.rateP.modelWeight))
      else (x.kIntra, x.kInter)) ∧
      ((t.stream n).pic num).map (fun k => k.statsHeld) = some false ∧ (∀ m, m ≠ n → t.stream m = s.stream m) ∧ s.frame t [.pools, .streams] []) ∧
  (∀ (s : State) (n num h : Nat) (x : Stream) (p : Pic) (a : Applet), s.stream n = x → x.pic num = some p → p.statsHeld = true ∧ p.folio = some h → x.applet = some a ∧ a.active = true ∧ a.call = none ∧ a.queue = [] →
    Answers (.statsFolioArrival n num) s fun t =>
      (∃ b c, (t.stream n).applet = some b ∧ b.call = some c ∧ c.entry = .rcResult ∧ c.picture = num ∧ c.tick = s.ticks ∧ c.args = [a.dataAt, s.folioAddr h, a.argsAt]) ∧
      (t.hart a.hart).user = true ∧ ((t.stream n).kIntra, (t.stream n).kInter) = (x.kIntra, x.kInter) ∧
      ((t.stream n).pic num).map (fun k => k.statsHeld) = some true ∧ (∀ m, m ≠ n → t.stream m = s.stream m) ∧ s.frame t [.streams, .harts] []) ∧
  (∀ (s : State) (n : Nat) (a : Applet) (c : AppletCall), (s.stream n).applet = some a → a.active = true ∧ a.call = some c → ((c :: a.queue).all (fun d => d.entry != .rcResult) = true) → s.get (hartPair a.hart) < 5 → s.power.held = false → c.entry.limit < s.ticks - c.tick →
    Answers (.appletCallTimeout n a.hart) s fun t =>
      s.logged t (0xC0 + 2 * s.get (hartPair a.hart)) 0x22 1 0 ∧ (t.stream n).applet = some { a with active := false, call := none, queue := [] } ∧ (t.stream n).kIntra = (s.stream n).seed true ∧
      (t.stream n).kInter = (s.stream n).seed false ∧ (t.hart a.hart).user = false ∧ (∀ m, m ≠ n → t.stream m = s.stream m)) ∧
  (∀ (s : State) (n : Nat) (f : AppletFault) (a : Applet) (c : AppletCall), (s.stream n).applet = some a → a.active = true ∧ a.call = some c → ((c :: a.queue).all (fun d => d.entry != .rcResult) = true) → s.get (hartPair a.hart) < 5 → s.power.held = false → trapsOf f ((s.hart a.hart).regs.pmp.take 5 ++ a.regions c) = true →
    Answers (.appletTrap n f) s fun t =>
      s.logged t (0xC0 + 2 * s.get (hartPair a.hart)) 0x22 1 0 ∧ (t.stream n).applet = some { a with active := false, call := none, queue := [] } ∧ (t.stream n).kIntra = (s.stream n).seed true ∧
      (t.stream n).kInter = (s.stream n).seed false ∧ (t.hart a.hart).user = false ∧ (∀ m, m ≠ n → t.stream m = s.stream m)) ∧
  (∀ (s : State) (n h : Nat) (f : AppletFault) (a : Applet) (c : AppletCall), (s.stream n).applet = some a → a.call = some c →
    (a.hart = h ∧ c.entry.limit < s.ticks - c.tick ∨ Answers (.appletCallTimeout n h) s (fun t => s.frame t [] [])) ∧
      (trapsOf f ((s.hart a.hart).regs.pmp.take 5 ++ a.regions c) = true ∨ Answers (.appletTrap n f) s (fun t => s.frame t [] []))) ∧
  (∀ (s : State) (n h : Nat) (f : AppletFault), (s.stream n).appletOn = false →
    Answers (.appletCallTimeout n h) s (fun t => s.frame t [] []) ∧ Answers (.appletTrap n f) s (fun t => s.frame t [] []))

/-- Flows (R293 to R297). That the gap after a -22 packet uses that packet's own length is the model's reading. What the specification leaves open in it is the model's choice: log entries 42, 43, 132. -/
def Obligations.FlowsPaceAndQueueTheirPackets : Prop :=
  (∀ (s : State) (p f k : Nat) (v : Flow) (w : NetP) (q : Pic), s.flow p f = some v → (s.stream v.stream).secs.network = some w → w.media = 0 ∧ v.closing = false → s.periodOf (s.stream v.stream) = k → v.period < k → (s.fitAt v w k).getLast? = some q → ((s.stream v.stream).pics.all (fun r => !(decide (v.nextPic ≤ r.num ∧ r.num < q.num))) = true) →
    Answers (.alignmentPoint p f) s fun t =>
      t.flow p f = some { v with period := k, sending := v.sending ++ [(k, q.num)], nextPic := q.num + 1 } ∧
      (∀ i, i ≠ f → t.flow p i = s.flow p i) ∧ (∀ i, i ≠ p → t.port i = s.port i) ∧ s.frame t [.net] []) ∧
  (∀ (s : State) (p f k : Nat) (v : Flow) (w : NetP) (q : Pic) (old : List Nat), s.flow p f = some v → (s.stream v.stream).secs.network = some w → w.media = 0 ∧ v.closing = false → s.periodOf (s.stream v.stream) = k → v.period < k → (s.fitAt v w k).getLast? = some q → (old = ((s.stream v.stream).pics.filter fun r => decide (v.nextPic ≤ r.num ∧ r.num < q.num)).map (fun r => r.num)) →
    Answers (.alignmentPoint p f) s fun t =>
      t.flow p f = some { v with period := k, sending := v.sending ++ [(k, q.num)], nextPic := q.num + 1 } ∧
      t.get (NET.FLOW_PERIODS_DROPPED p f) = satAdd (NET.FLOW_PERIODS_DROPPED p f).w (s.get (NET.FLOW_PERIODS_DROPPED p f)) old.length ∧
      (∀ n, old.contains n = true → ((t.stream v.stream).pic n).all (fun r => !(r.readers.contains (256 + v.path))) = true ∨ ((s.stream v.stream).pic n).any (fun r => (r.readers.filter fun z => z == 256 + v.path).length ≠ 1) = true)) ∧
  (∀ (s : State) (p f k : Nat) (v : Flow) (w : NetP), s.flow p f = some v → (s.stream v.stream).secs.network = some w → w.media = 0 ∧ v.closing = false → s.periodOf (s.stream v.stream) = k → v.period < k → s.fitAt v w k = [] →
    Answers (.alignmentPoint p f) s fun t =>
      t.flow p f = some { v with period := k } ∧ t.get (NET.FLOW_PERIODS_SKIPPED p f) = satAdd (NET.FLOW_PERIODS_SKIPPED p f).w (s.get (NET.FLOW_PERIODS_SKIPPED p f)) 1 ∧
      (∀ i, i ≠ f → t.flow p i = s.flow p i) ∧ (∀ i, i ≠ p → t.port i = s.port i) ∧ s.frame t [.net] [NET.FLOW_PERIODS_SKIPPED p f]) ∧
  (∀ (s : State) (p f : Nat) (v : Flow), s.flow p f = some v → s.periodOf (s.stream v.stream) ≤ v.period →
    Answers (.alignmentPoint p f) s fun t => s.frame t [] []) ∧
  (∀ (s : State) (p f k num due : Nat) (v : Flow) (w : NetP) (q : Pic) (pkt : List Byte × Bool) (l : List (Nat × Nat)), s.flow p f = some v → (s.stream v.stream).secs.network = some w → w.media = 0 → v.sending = (k, num) :: l → (s.stream v.stream).pic num = some q → due = (s.stream v.stream).dueAt w k v.j → due ≤ s.nowNs → (s.stream v.stream).packetAt w q v.j = some pkt → pkt.2 = false → s.linkUp p = true →
    Answers (.packetRelease p f) s fun t =>
      t.flow p f = some (v.after false s.nowNs pkt.1.length) ∧
      t.netQueue p w.tc = s.netQueue p w.tc ++ [s.mediaFrame f v w q due (decide (4 * (s.ticks - q.writtenTick ((s.stream v.stream).packetSpan v.j).2) < s.nowNs - due)) pkt] ∧
      (∀ c, c ≠ w.tc → t.netQueue p c = s.netQueue p c) ∧ (∀ i, i ≠ f → t.flow p i = s.flow p i) ∧ (∀ i, i ≠ p → t.port i = s.port i) ∧ s.frame t [.net] (creditFields p)) ∧
  (∀ (s : State) (p f k num due : Nat) (v : Flow) (w : NetP) (q : Pic) (pkt : List Byte × Bool) (l : List (Nat × Nat)), s.flow p f = some v → (s.stream v.stream).secs.network = some w → w.media = 0 → v.sending = (k, num) :: l → (s.stream v.stream).pic num = some q → due = (s.stream v.stream).dueAt w k v.j → due ≤ s.nowNs → (s.stream v.stream).packetAt w q v.j = some pkt → pkt.2 = true → s.linkUp p = true → q.num = num ∧ q.readers.length = 1 →
    Answers (.packetRelease p f) s fun t =>
      t.flow p f = some (v.after true s.nowNs pkt.1.length) ∧
      t.netQueue p w.tc = s.netQueue p w.tc ++ [s.mediaFrame f v w q due (decide (4 * (s.ticks - q.writtenTick ((s.stream v.stream).packetSpan v.j).2) < s.nowNs - due)) pkt] ∧
      ((t.stream v.stream).pic num).all (fun r => r.readers == q.readers.erase (256 + v.path)) = true) ∧
  (∀ (s : State) (p f k num : Nat) (v : Flow) (w : NetP) (q : Pic) (l : List (Nat × Nat)), s.flow p f = some v → (s.stream v.stream).secs.network = some w → w.media = 0 → v.sending = (k, num) :: l → (s.stream v.stream).pic num = some q → (s.nowNs < (s.stream v.stream).dueAt w k v.j ∨ (s.stream v.stream).packetAt w q v.j = none) →
    Answers (.packetRelease p f) s fun t => s.frame t [] []) ∧
  (∀ (s : State) (p f k num : Nat) (v : Flow) (w : NetP) (q : Pic) (pkt : List Byte × Bool) (l : List (Nat × Nat)), s.flow p f = some v → (s.stream v.stream).secs.network = some w → w.media = 0 → v.sending = (k, num) :: l → v.j ≠ 0 → (s.stream v.stream).pic num = some q → (s.stream v.stream).dueAt w k v.j ≤ s.nowNs → (s.stream v.stream).packetAt w q v.j = some pkt → pkt.2 = false → s.linkUp p = false →
    Answers (.packetRelease p f) s fun t =>
      t.flow p f = some (v.after false s.nowNs pkt.1.length) ∧ t.get (NET.TX_DROPS_COUNT p) = satAdd (NET.TX_DROPS_COUNT p).w (s.get (NET.TX_DROPS_COUNT p)) 1 ∧
      (∀ c, t.netQueue p c = s.netQueue p c) ∧ (∀ i, i ≠ p → t.port i = s.port i) ∧ s.frame t [.net] [NET.TX_DROPS_COUNT p]) ∧
  (∀ (s : State) (p f : Nat) (v : Flow) (w : NetP) (q : Pic) (pkt : List Byte × Bool), s.flow p f = some v → (s.stream v.stream).secs.network = some w → w.media ≠ 0 → v.sending = [] ∧ v.closing = false ∧ v.lastLen = 0 → (s.stream v.stream).nextToSend v = some q → (s.stream v.stream).pic q.num = some q → (s.stream v.stream).packetAt w q 0 = some pkt → pkt.2 = false → s.linkUp p = true →
    Answers (.packetRelease p f) s fun t =>
      t.flow p f = some ({ v with sending := [(0, q.num)], j := 0, nextPic := q.num + 1 }.after false s.nowNs pkt.1.length) ∧
      t.netQueue p w.tc = s.netQueue p w.tc ++ [s.mediaFrame f { v with j := 0 } w q s.nowNs false pkt] ∧ (∀ i, i ≠ p → t.port i = s.port i) ∧ s.frame t [.net] (creditFields p)) ∧
  (∀ (s : State) (p f k num : Nat) (v : Flow) (w : NetP) (q : Pic) (l : List (Nat × Nat)), s.flow p f = some v → (s.stream v.stream).secs.network = some w → w.media ≠ 0 → v.sending = (k, num) :: l → (s.stream v.stream).pic num = some q → v.lastLen ≠ 0 → s.nowNs < v.lastStart + ceilDiv ((v.lastLen + 81 + w.extra) * 8 * 1000000000) (max 1 (s.stream v.stream).secs.flowRate) →
    Answers (.packetRelease p f) s fun t => s.frame t [] [])

/-- Transmission (R298, R302), telemetry (R306), links (R285, R286). What the specification leaves open in it is the model's choice: log entries 19, 41, 71, 72, 135. -/
def Obligations.FramesLeaveByClassGateAndCredit : Prop :=
  (∀ (s : State) (p c ty : Nat) (f : NetFrame) (l : List NetFrame), s.netPresent p = true → s.linkUp p = true → ((match (s.port p).busy with | some (_, e) => decide (s.nowNs < e) | none => false) = false) → c < 8 → (s.account p).classReady p c = true → (∀ d, d < 8 → c < d → (s.account p).classReady p d = false) → s.netQueue p c = f :: l → f.body = .reply ty → ((List.range 16).all (fun i => match s.flow p i with | some r => !r.closing | none => true) = true) →
    Answers (.frameTransmit p) s fun t =>
      t.netQueue p c = l ∧ (∀ d, d ≠ c → t.netQueue p d = s.netQueue p d) ∧ (t.port p).busy = some (c, s.nowNs + wireNs f.len) ∧
      t.get (NET.TX_FRAMES_COUNT p) = satAdd 32 (s.get (NET.TX_FRAMES_COUNT p)) 1 ∧ t.get (NET.TEL_FRAMES_COUNT p c) = satAdd 32 (s.get (NET.TEL_FRAMES_COUNT p c)) 1 ∧
      t.get (NET.TEL_DELAY_MAX p c) = max (s.get (NET.TEL_DELAY_MAX p c)) (min ((s.nowNs - f.queued) / 10) 65535) ∧ (∀ i, i ≠ p → t.port i = s.port i) ∧
      s.frame t [.net] ([NET.TX_FRAMES_COUNT p, NET.TEL_FRAMES_COUNT p c, NET.TEL_DELAY_MAX p c] ++ creditFields p)) ∧
  (∀ (s : State) (p c g num j seq ts : Nat) (mk : Bool) (pay : List Byte) (f : NetFrame) (l : List NetFrame), s.netPresent p = true → s.linkUp p = true → ((match (s.port p).busy with | some (_, e) => decide (s.nowNs < e) | none => false) = false) → c < 8 → (s.account p).classReady p c = true → (∀ d, d < 8 → c < d → (s.account p).classReady p d = false) → s.netQueue p c = f :: l → f.body = .media g num j seq ts mk pay → j ≠ 0 ∧ g < 16 → ((List.range 16).all (fun i => match s.flow p i with | some r => !r.closing | none => true) = true) →
    Answers (.frameTransmit p) s fun t =>
      t.netQueue p c = l ∧ t.get (NET.FLOW_PKTS_COUNT p g) = satAdd 32 (s.get (NET.FLOW_PKTS_COUNT p g)) 1 ∧
      t.get (NET.FLOW_LATE_COUNT p g) = satAdd 32 (s.get (NET.FLOW_LATE_COUNT p g)) (if f.late = true ∨ f.due + 1000 < s.nowNs then 1 else 0) ∧
      t.get (NET.TX_FRAMES_COUNT p) = satAdd 32 (s.get (NET.TX_FRAMES_COUNT p)) 1 ∧
      s.frame t [.net] ([NET.FLOW_PKTS_COUNT p g, NET.FLOW_LATE_COUNT p g, NET.TX_FRAMES_COUNT p, NET.TEL_FRAMES_COUNT p c, NET.TEL_DELAY_MAX p c] ++ creditFields p)) ∧
  (∀ (s : State) (p c g num seq ts m k : Nat) (mk : Bool) (pay : List Byte) (f : NetFrame) (l : List NetFrame) (v : Flow) (q : Pic), s.netPresent p = true → s.linkUp p = true → ((match (s.port p).busy with | some (_, e) => decide (s.nowNs < e) | none => false) = false) → c < 8 → (s.account p).classReady p c = true → (∀ d, d < 8 → c < d → (s.account p).classReady p d = false) → s.netQueue p c = f :: l → f.body = .media g num 0 seq ts mk pay → s.flow p g = some v → v.path = 0 → ((List.range 16).all (fun i => match s.flow p i with | some r => !r.closing | none => true) = true) → (((s.stream v.stream).pic num).bind (fun r => r.src) = some (m, k)) → (s.stream m).pic k = some q → q.netStream = some v.stream ∧ q.depart = none ∧ q.notSent = false ∧ q.released = false →
    Answers (.frameTransmit p) s fun t => t.netQueue p c = l ∧ (((t.stream m).pic k).map (fun r => r.depart)) = some (some s.nowNs) ∧ t.get (NET.FLOW_PKTS_COUNT p g) = satAdd 32 (s.get (NET.FLOW_PKTS_COUNT p g)) 1) ∧
  (∀ (s : State) (p : Nat), s.netPresent p = true → s.linkUp p = true → ((match (s.port p).busy with | some (_, e) => decide (s.nowNs < e) | none => false) = true ∨ ∀ d, d < 8 → (s.account p).classReady p d = false) →
    Answers (.frameTransmit p) s fun t => (∀ c, t.netQueue p c = s.netQueue p c) ∧ (∀ i, i ≠ p → t.port i = s.port i) ∧ s.frame t [.net] (creditFields p)) ∧
  (∀ (s : State) (p : Nat), s.netPresent p = true → s.linkUp p = false → ((match (s.port p).busy with | some (_, e) => decide (s.nowNs < e) | none => false) = false) → p < 2 →
    Answers (.frameTransmit p) s fun t =>
      (∀ c, c < 8 → t.netQueue p c = []) ∧
      t.get (NET.TX_DROPS_COUNT p) = satAdd 32 (s.get (NET.TX_DROPS_COUNT p)) (((List.range 8).map fun c => (s.netQueue p c).length).sum)) ∧
  (∀ (s : State) (p c b : Nat) (g : GateList) (f : NetFrame) (l : List NetFrame), ((((s.account p).noteBlocked p c).port p).cls c).blocked = some b → (s.port p).oper = some g → s.netQueue p c = f :: l → g.cycle ≤ s.nowNs - b → g.fits c (wireNs f.len) = false → f.body.leads s p = none → ((List.range 16).all (fun i => match s.flow p i with | some r => !r.closing | none => true) = true) →
    Answers (.gateBlockDrop p c) s fun t =>
      t.netQueue p c = l ∧ (∀ d, d ≠ c → t.netQueue p d = s.netQueue p d) ∧ t.get (NET.TEL_DROPS_COUNT p c) = satAdd (NET.TEL_DROPS_COUNT p c).w (s.get (NET.TEL_DROPS_COUNT p c)) 1 ∧
      (∀ i, i ≠ p → t.port i = s.port i) ∧ s.frame t [.net] (NET.TEL_DROPS_COUNT p c :: creditFields p)) ∧
  (∀ (s : State) (p c b : Nat) (g : GateList) (f : NetFrame) (l : List NetFrame), ((((s.account p).noteBlocked p c).port p).cls c).blocked = some b → (s.port p).oper = some g → s.netQueue p c = f :: l → (s.nowNs - b < g.cycle ∨ g.fits c (wireNs f.len) = true) →
    Answers (.gateBlockDrop p c) s fun t =>
      (∀ d, t.netQueue p d = s.netQueue p d) ∧ (∀ i, i ≠ p → t.port i = s.port i) ∧ s.frame t [.net] (creditFields p)) ∧
  (∀ (s : State) (p : Nat), (s.netPresent p = false ∨ s.usSince (s.port p).sampled < s.get (NET.TEL_CFG_SAMPLE_US p)) →
    Answers (.telemetrySample p) s fun t => s.frame t [] []) ∧
  (∀ (s : State) (p c : Nat), s.netPresent p = true → c < 8 → ((s.port p).cls c).n ≠ 0 → s.get (NET.TEL_CFG_SAMPLE_US p) ≤ s.usSince (s.port p).sampled →
    Answers (.telemetrySample p) s fun t =>
      t.get (NET.TEL_DEPTH_LAST p c) = min (ceilDiv (((s.netQueue p c).map fun f => f.len).sum) 64) 65535 ∧
      t.get (NET.TEL_DEPTH_MAX p c) = max (min (ceilDiv (((s.netQueue p c).map fun f => f.len).sum) 64) 65535) (s.get (NET.TEL_DEPTH_MAX p c)) ∧
      t.get (NET.TEL_DELAY_MEAN p c) = min (((s.port p).cls c).sum / ((s.port p).cls c).n / 10) 65535 ∧
      (t.port p).cls c = { (s.port p).cls c with sum := 0, n := 0 } ∧ (∀ d, t.netQueue p d = s.netQueue p d) ∧ (∀ i, i ≠ p → t.port i = s.port i) ∧
      s.frame t [.free, .net] ((List.range 8).flatMap fun d => [NET.TEL_DEPTH_LAST p d, NET.TEL_DEPTH_MAX p d, NET.TEL_DELAY_MEAN p d])) ∧
  (∀ (s : State) (p : Nat) (los modabs : Bool), s.linkUp p = true → (∀ f, f < 16 → s.flow p f = none) → p < 2 →
    Answers (.netLinkDown ⟨p, los, modabs⟩) s fun t =>
      s.caged t p los modabs ∧ t.pads = { s.pads with cages := t.pads.cages } ∧
      t.get (NET.PORT_STAT_LINK_UP p) = 0 ∧ t.get (srcPending (21 + p)) = 1 ∧ (∀ c, c < 8 → t.netQueue p c = []) ∧ t.streams = s.streams ∧
      s.frame t [.net, .pads] ([NET.PORT_STAT_LINK_UP p, srcPending (21 + p), NET.TX_DROPS_COUNT p] ++ creditFields p)) ∧
  (∀ (s : State) (p f : Nat) (v : Flow) (los modabs : Bool), s.linkUp p = true → s.flow p f = some v → f < 16 → ((List.range 16).all (fun i => match s.flow p i with | some r => !r.closing | none => true) = true) → s.rgs.raises (netUnit p) 3 = false → s.power.held = false → p < 2 →
    Answers (.netLinkDown ⟨p, los, modabs⟩) s fun t =>
      s.caged t p los modabs ∧
      t.get (NET.PORT_STAT_LINK_UP p) = 0 ∧ t.get (srcPending (21 + p)) = 1 ∧ (∀ c, c < 8 → t.netQueue p c = []) ∧ s.logged t (netUnit p) 0x35 3 0 ∧ (∀ i, t.flow p i = s.flow p i)) ∧
  (∀ (s : State) (p : Nat) (los modabs : Bool), s.linkUp p = false →
    Answers (.netLinkDown ⟨p, los, modabs⟩) s fun t =>
      s.caged t p los modabs ∧ t.pads = { s.pads with cages := t.pads.cages } ∧ s.frame t [.pads] []) ∧
  (∀ (s : State) (p : Nat) (los modabs : Bool), s.netPresent p = true → s.on (NET.PORT_CFG_ENABLE p) = true → s.linkUp p = false → (∀ f, f < 16 → (match s.flow p f with | some v => decide (v.sending = []) | none => true) = true) →
    Answers (.netLinkUp ⟨p, los, modabs⟩) s fun t =>
      s.caged t p los modabs ∧ t.pads = { s.pads with cages := t.pads.cages } ∧ t.get (NET.PORT_STAT_LINK_UP p) = 1 ∧ t.get (srcPending (21 + p)) = 1 ∧ s.frame t [.pads] [NET.PORT_STAT_LINK_UP p, srcPending (21 + p)]) ∧
  (∀ (s : State) (p f k num : Nat) (v : Flow) (w : NetP) (los modabs : Bool), s.netPresent p = true → s.on (NET.PORT_CFG_ENABLE p) = true → s.linkUp p = false → s.flow p f = some v → (f < 16 ∧ ∀ i, i < 16 → i ≠ f → s.flow p i = none) → (s.stream v.stream).secs.network = some w → w.media = 0 → v.sending = [(k, num)] → v.j ≠ 0 → v.j + 2 = (s.stream v.stream).packetCount → (s.stream v.stream).dueAt w k v.j < s.nowNs → s.nowNs ≤ (s.stream v.stream).dueAt w k (v.j + 1) →
    Answers (.netLinkUp ⟨p, los, modabs⟩) s fun t =>
      s.caged t p los modabs ∧ t.pads = { s.pads with cages := t.pads.cages } ∧
      t.flow p f = some { v with seq := (v.seq + 1) % 2 ^ 32, j := v.j + 1 } ∧ t.get (NET.TX_DROPS_COUNT p) = satAdd 32 (s.get (NET.TX_DROPS_COUNT p)) 1 ∧
      t.get (NET.PORT_STAT_LINK_UP p) = 1 ∧ t.get (srcPending (21 + p)) = 1 ∧ s.frame t [.net, .pads] [NET.PORT_STAT_LINK_UP p, srcPending (21 + p), NET.TX_DROPS_COUNT p]) ∧
  (∀ (s : State) (p v : Nat), s.netPresent p = true → bitAt v 0 = true → s.on (NET.PORT_CFG_ENABLE p) = false → bits v 1 2 ≠ 3 →
    Answers (.portCfgWrite p v) s fun t =>
      t.get (NET.PORT_CFG_ENABLE p) = 1 ∧ t.get (NET.PORT_CFG_FEC p) = bits v 1 2 ∧ t.get (NET.PORT_CFG_MGMT_TC p) = bits v 4 3 ∧ t.get (NET.PORT_CFG_PTP_TC p) = bits v 8 3 ∧
      t.get (NET.PORT_STAT_TXDIS p) = 0 ∧ s.frame t [] [NET.PORT_CFG_ENABLE p, NET.PORT_CFG_FEC p, NET.PORT_CFG_MGMT_TC p, NET.PORT_CFG_PTP_TC p, NET.PORT_STAT_TXDIS p]) ∧
  (∀ (s : State) (p v : Nat), s.netPresent p = true → bitAt v 0 = false →
    Answers (.portCfgWrite p v) s fun t =>
      t.get (NET.PORT_CFG_ENABLE p) = 0 ∧ t.get (NET.PORT_STAT_TXDIS p) = 1 ∧ t.get (NET.PORT_STAT_LINK_UP p) = 0 ∧ (∀ c, c < 8 → t.netQueue p c = []))

/-- Gate lists (R299 to R301), shapers (R303), filters (R304, R305), reception (R288), PTP at a port (R316, R318), the module bus (R285, R309). What the specification leaves open in it is the model's choice: log entries 31, 73, 131. -/
def Obligations.GatesShapersFiltersAndTheModuleBus : Prop :=
  (∀ (s : State) (p : Nat), s.netPresent p = true → ((s.port p).pending = none ∨ s.nowNs < (s.port p).start) → s.adminOk p = false →
    Answers (.gclCommit p) s fun t => t.get (NET.GCL_STAT_REFUSED p) = 1 ∧ s.frame t [] [NET.GCL_STAT_REFUSED p]) ∧
  (∀ (s : State) (p m : Nat), s.netPresent p = true → ((s.port p).pending = none ∨ s.nowNs < (s.port p).start) → s.adminOk p = true → (s.adminList p).firstAt s.leadNs = m →
    Answers (.gclCommit p) s fun t =>
      (t.port p).pending = some (s.adminList p) ∧ (t.port p).start = (s.adminList p).base + m * (s.adminList p).cycle ∧ (t.port p).oper = (s.port p).oper ∧
      t.get (NET.GCL_STAT_PENDING p) = 1 ∧ t.get (NET.GCL_STAT_SKIPPED p) = min m 65535 ∧ (m ≠ 0 → t.get (NET.GCL_STAT_LATE p) = 1) ∧
      (∀ i, i ≠ p → t.port i = s.port i) ∧ s.frame t [.net] [NET.GCL_STAT_PENDING p, NET.GCL_STAT_SKIPPED p, NET.GCL_STAT_LATE p]) ∧
  (∀ (s : State) (p : Nat) (l : GateList), (s.port p).pending = some l → (s.port p).start ≤ s.nowNs → p < 2 →
    Answers (.gclStart p) s fun t =>
      (t.port p).oper = some l ∧ (t.port p).pending = none ∧ t.get (NET.GCL_STAT_OPER_VALID p) = 1 ∧ t.get (NET.GCL_STAT_PENDING p) = 0 ∧
      (∀ i, i < 128 → t.get (NET.GCL_OPER_GATES_GATES p i) = (l.entries.getD i (0, 0)).1 % 256 ∧ t.get (NET.GCL_OPER_INTERVAL_INTERVAL p i) = (l.entries.getD i (0, 0)).2 % 2 ^ 32) ∧
      (∀ c, c < 8 → t.levels.contains (18 + 8 * p + c) = bitAt (l.at s.nowNs) c) ∧ (∀ c, t.netQueue p c = s.netQueue p c)) ∧
  (∀ (s : State) (p : Nat), ((s.port p).pending = none ∨ s.nowNs < (s.port p).start) →
    Answers (.gclStart p) s fun t => s.frame t [] []) ∧
  (∀ (s : State) (p : Nat) (l : GateList), s.netPresent p = true → (s.port p).oper = some l → ((s.port p).hold = none ∨ (match (s.port p).hold with | some (_, u) => decide (u ≤ s.nowNs) | none => true) = true) →
    Answers (.gateEntryChange p) s fun t =>
      (∀ c, c < 8 → t.levels.contains (18 + 8 * p + c) = bitAt (l.at s.nowNs) c) ∧ (t.port p).hold = none ∧ (t.port p).oper = some l ∧
      (∀ c, t.netQueue p c = s.netQueue p c) ∧ (∀ i, i ≠ p → t.port i = s.port i) ∧ s.frame t [.net, .levels] (creditFields p)) ∧
  (∀ (s : State) (p c which v : Nat) (f : Fld), s.netPresent p = true → c < 8 → ((which = 0 ∧ f = NET.CBS_IDLE_VALUE p c) ∨ (which = 1 ∧ f = NET.CBS_HI_VALUE p c) ∨ (which = 2 ∧ f = NET.CBS_LO_VALUE p c)) → v < 2 ^ f.w →
    Answers (.cbsWrite p c which v) s fun t =>
      t.get f = v ∧ ((t.port p).cls c).credit = 0 ∧ t.get (NET.CBS_CREDIT_VALUE p c) = 0 ∧ (∀ d, t.netQueue p d = s.netQueue p d) ∧
      (∀ i, i ≠ p → t.port i = s.port i) ∧ s.frame t [.net] (f :: creditFields p)) ∧
  (∀ (s : State) (p f which v : Nat) (r : Fld), s.netPresent p = true → f < 16 → ((which = 0 ∧ r = ⟨NET.PSF_CTL p f, 0, 7⟩) ∨ (which = 1 ∧ r = NET.PSF_CIR_KBPS p f) ∨ (which = 2 ∧ r = NET.PSF_CBS_BYTES p f)) → v < 2 ^ r.w →
    Answers (.psfWrite p f which v) s fun t =>
      t.get r = v ∧ t.bucket p f = creditUnit * t.get (NET.PSF_CBS_BYTES p f) ∧ (∀ d, t.netQueue p d = s.netQueue p d) ∧ (∀ i, i ≠ p → t.port i = s.port i) ∧
      s.frame t [.net] ((if which = 0 then .whole (NET.PSF_CTL p f) else r) :: creditFields p)) ∧
  (∀ (s : State) (p : Nat) (f : RxFrame), s.linkUp p = true → (f.good = false ∨ 1522 < f.len ∨ f.body = .pause ∨ s.filterFor p f = none) →
    Answers (.rxFrame p f) s fun t =>
      t.get (NET.RX_FRAMES_COUNT p) = satAdd 32 (s.get (NET.RX_FRAMES_COUNT p)) 1 ∧ t.get (NET.RX_DROPS_COUNT p) = satAdd 32 (s.get (NET.RX_DROPS_COUNT p)) 1 ∧
      (∀ c, t.netQueue p c = s.netQueue p c) ∧ s.frame t [.net] ([NET.RX_FRAMES_COUNT p, NET.RX_DROPS_COUNT p] ++ creditFields p)) ∧
  (∀ (s : State) (p i : Nat) (f : RxFrame), s.linkUp p = true → f.good = true ∧ f.len ≤ 1522 ∧ f.body ≠ .pause → s.filterFor p f = some i → (s.account p).bucket p i < creditUnit * f.len →
    Answers (.rxFrame p f) s fun t =>
      t.get (NET.RX_FRAMES_COUNT p) = satAdd 32 (s.get (NET.RX_FRAMES_COUNT p)) 1 ∧ t.get (NET.PSF_DROP_COUNT p i) = satAdd 32 (s.get (NET.PSF_DROP_COUNT p i)) 1 ∧
      t.bucket p i = (s.account p).bucket p i ∧ (∀ c, t.netQueue p c = s.netQueue p c) ∧ s.frame t [.net] ([NET.RX_FRAMES_COUNT p, NET.PSF_DROP_COUNT p i] ++ creditFields p)) ∧
  (∀ (s : State) (p i a : Nat) (f : RxFrame), s.linkUp p = true → f.good = true ∧ f.len ≤ 1522 → f.body = .arp a → a = (s.rd (NET.IPV4_ADDR p)).toNat ∧ a ≠ 0 → s.filterFor p f = some i → creditUnit * f.len ≤ (s.account p).bucket p i →
    Answers (.rxFrame p f) s fun t =>
      t.get (NET.PSF_PASS_COUNT p i) = satAdd 32 (s.get (NET.PSF_PASS_COUNT p i)) 1 ∧ t.bucket p i = (s.account p).bucket p i - creditUnit * f.len ∧
      t.netQueue p (s.get (NET.PORT_CFG_MGMT_TC p)) = s.netQueue p (s.get (NET.PORT_CFG_MGMT_TC p)) ++ [{ body := .reply 0, len := 64, queued := s.nowNs, due := s.nowNs, late := false }] ∧
      s.frame t [.net] ([NET.RX_FRAMES_COUNT p, NET.PSF_PASS_COUNT p i] ++ creditFields p)) ∧
  (∀ (s : State) (p i id seq : Nat) (corr origin : Int) (f : RxFrame), s.linkUp p = true → f.good = true ∧ f.len ≤ 1522 → f.body = .ptp (s.get DAT.PTP_CFG_TRANSPORT) (s.get DAT.PTP_CFG_DOMAIN) (.sync id seq true corr origin) → bitAt (s.get DAT.PTP_CFG_PORTS) p = true → s.get DAT.SERVO_STAT_PORT = p ∧ s.servo.master = some id → s.filterFor p f = some i → creditUnit * f.len ≤ (s.account p).bucket p i → p < 2 →
    Answers (.rxFrame p f) s fun t =>
      t.get (srcPending (21 + p)) = 1 ∧ t.servo = { s.servo with sync := some (seq, s.ingress p - corr - s.portLat (DAT.PORT_ASYM_VALUE p)), down := none } ∧
      (∀ c, t.netQueue p c = s.netQueue p c) ∧ s.frame t [.net, .dater] ([NET.RX_FRAMES_COUNT p, NET.PSF_PASS_COUNT p i, srcPending (21 + p)] ++ creditFields p)) ∧
  (∀ (s : State) (p i id seq : Nat) (f : RxFrame), s.linkUp p = true → f.good = true ∧ f.len ≤ 1522 → f.body = .ptp (s.get DAT.PTP_CFG_TRANSPORT) (s.get DAT.PTP_CFG_DOMAIN) (.delayReq id seq) → bitAt (s.get DAT.PTP_CFG_PORTS) p = true → s.isMaster = true ∧ p = s.activePort → s.filterFor p f = some i → creditUnit * f.len ≤ (s.account p).bucket p i → p < 2 →
    Answers (.rxFrame p f) s fun t =>
      t.get (srcPending (21 + p)) = 1 ∧
      t.netQueue p (s.get (NET.PORT_CFG_PTP_TC p)) = s.netQueue p (s.get (NET.PORT_CFG_PTP_TC p)) ++ [{ body := .ptp 9 seq (some (s.ingress p)) (some id), len := max (s.ptpLen 9) 64, queued := s.nowNs, due := s.nowNs, late := false }] ∧
      s.frame t [.net] ([NET.RX_FRAMES_COUNT p, NET.PSF_PASS_COUNT p i, srcPending (21 + p)] ++ creditFields p)) ∧
  (∀ (s : State) (p ty : Nat), bitAt (s.get DAT.PTP_CFG_PORTS) p = true → s.linkUp p = true → (ty = 0 ∨ ty = 0xB ∨ ty = 0xD) → s.isMaster = true → p = s.activePort ∧ s.ptpDue ty = true →
    Answers (.ptpSendTimer p ty) s fun t =>
      t.servo = { s.servo with seq := (s.servo.seq + 1) % 65536, sent := (ty, s.ticks) :: s.servo.sent.filter fun q => q.1 != ty } ∧
      t.netQueue p (s.get (NET.PORT_CFG_PTP_TC p)) = s.netQueue p (s.get (NET.PORT_CFG_PTP_TC p)) ++ [{ body := .ptp ty s.servo.seq none none, len := max (s.ptpLen ty) 64, queued := s.nowNs, due := s.nowNs, late := false }] ∧
      s.frame t [.net, .dater] (creditFields p)) ∧
  (∀ (s : State) (p m : Nat), bitAt (s.get DAT.PTP_CFG_PORTS) p = true → s.linkUp p = true → s.servo.master = some m → s.get DAT.SERVO_STAT_PORT = p →
    Answers (.ptpSendTimer p 1) s fun t =>
      t.servo = { s.servo with seq := (s.servo.seq + 1) % 65536, req := some (s.servo.seq, none) } ∧
      t.netQueue p (s.get (NET.PORT_CFG_PTP_TC p)) = s.netQueue p (s.get (NET.PORT_CFG_PTP_TC p)) ++ [{ body := .ptp 1 s.servo.seq none none, len := max (s.ptpLen 1) 64, queued := s.nowNs, due := s.nowNs, late := false }] ∧
      s.frame t [.net, .dater] (creditFields p)) ∧
  (∀ (s : State) (p ty : Nat), (bitAt (s.get DAT.PTP_CFG_PORTS) p = false ∨ s.linkUp p = false ∨ p ≠ s.activePort ∨ (ty = 1 ∧ s.servo.master = none) ∨ (ty ≠ 1 ∧ (s.isMaster = false ∨ s.ptpDue ty = false))) →
    Answers (.ptpSendTimer p ty) s fun t => s.frame t [] []) ∧
  (∀ (s : State) (v : Nat), s.on NET.I2C_STAT_BUSY = false →
    Answers (.i2cCmd v) s fun t =>
      t.get NET.I2C_STAT_BUSY = 1 ∧ t.net.i2c = some (bits v 24 7, bitAt v 23, bits v 8 8, bits v 0 8) ∧ t.net.ports = s.net.ports ∧ s.frame t [.net] [NET.I2C_STAT_BUSY]) ∧
  (∀ (s : State) (v : Nat), s.on NET.I2C_STAT_BUSY = true →
    Answers (.i2cCmd v) s fun t => s.frame t [] []) ∧
  (∀ (s : State) (ack : Bool) (data a r w : Nat) (read : Bool), s.net.i2c = some (a, read, r, w) → data < 256 →
    Answers (.i2cDone ack data) s fun t =>
      t.net.i2c = none ∧ t.net.ports = s.net.ports ∧ t.get NET.I2C_STAT_BUSY = 0 ∧ t.get NET.I2C_STAT_DONE = 1 ∧ t.get NET.I2C_STAT_NACK = (if ack then 0 else 1) ∧
      t.get NET.I2C_STAT_DATA = (if read && ack then data else s.get NET.I2C_STAT_DATA) ∧
      s.frame t [.net] [NET.I2C_STAT_BUSY, NET.I2C_STAT_DONE, NET.I2C_STAT_NACK, NET.I2C_STAT_DATA])

end
end

