-- ==== Sys2Proof/Laws/Tab.lean ====
section
/-! SUPPORT. The laws of the canonical table: reads after writes, and the canonical form kept. -/
namespace Sys2Proof

variable {V : Type}

@[simp] theorem Tab.get_nil (d : Nat → V) (k : Nat) : Tab.get d [] k = d k := rfl

theorem Tab.get_erase_same (d : Nat → V) (t : Tab V) (k : Nat) : Tab.get d (Tab.erase t k) k = d k := by
  induction t with
  | nil => rfl
  | cons e r ih =>
    obtain ⟨a, v⟩ := e
    by_cases h : a = k
    · simpa [Tab.erase, h] using ih
    · simpa [Tab.erase, Tab.get, h] using ih

theorem Tab.get_erase_other (d : Nat → V) (t : Tab V) {k j : Nat} (h : j ≠ k) : Tab.get d (Tab.erase t k) j = Tab.get d t j := by
  induction t with
  | nil => rfl
  | cons e r ih =>
    obtain ⟨a, v⟩ := e
    by_cases ha : a = k
    · subst ha; simpa [Tab.erase, Tab.get, Ne.symm h] using ih
    · by_cases hj : a = j
      · subst hj; simp [Tab.erase, Tab.get, h]
      · simpa [Tab.erase, Tab.get, ha, hj] using ih

theorem Tab.get_insert_same (d : Nat → V) (t : Tab V) (k : Nat) (v : V) (h : Tab.get d (Tab.erase t k) k = d k) :
    Tab.get d (Tab.insert (Tab.erase t k) k v) k = v := by
  induction t with
  | nil => simp [Tab.erase, Tab.insert, Tab.get]
  | cons e r ih =>
    obtain ⟨a, w⟩ := e
    by_cases ha : a = k
    · simp only [Tab.erase, ha, if_true] at h ⊢; exact ih h
    · simp only [Tab.erase, ha, if_false, Tab.insert] at h ⊢
      split
      · simp [Tab.get]
      · simp only [Tab.get, ha, if_false] at h ⊢; exact ih h

theorem Tab.get_insert_other (d : Nat → V) (t : Tab V) {k j : Nat} (v : V) (h : j ≠ k) :
    Tab.get d (Tab.insert t k v) j = Tab.get d t j := by
  induction t with
  | nil => simp [Tab.insert, Tab.get, Ne.symm h]
  | cons e r ih =>
    obtain ⟨a, w⟩ := e
    simp only [Tab.insert]
    split
    · simp [Tab.get, Ne.symm h]
    · simp only [Tab.get]; split
      · rfl
      · exact ih

/-- A read after a write of the same key gives the value written. -/
@[simp] theorem Tab.get_set_same [DecidableEq V] (d : Nat → V) (t : Tab V) (k : Nat) (v : V) :
    Tab.get d (Tab.set d t k v) k = v := by
  unfold Tab.set
  split
  · rename_i h; rw [Tab.get_erase_same]; exact h.symm
  · exact Tab.get_insert_same d t k v (Tab.get_erase_same d t k)

/-- A write leaves every other key alone. -/
theorem Tab.get_set_other [DecidableEq V] (d : Nat → V) (t : Tab V) {k j : Nat} (v : V) (h : j ≠ k) :
    Tab.get d (Tab.set d t k v) j = Tab.get d t j := by
  unfold Tab.set
  split
  · exact Tab.get_erase_other d t h
  · rw [Tab.get_insert_other _ _ _ h, Tab.get_erase_other _ _ h]

theorem Tab.get_set [DecidableEq V] (d : Nat → V) (t : Tab V) (k j : Nat) (v : V) :
    Tab.get d (Tab.set d t k v) j = if j = k then v else Tab.get d t j := by
  split
  · subst_vars; simp
  · exact Tab.get_set_other d t v ‹_›

theorem Tab.get_keep (d : Nat → V) (p : Nat → Bool) (t : Tab V) (k : Nat) :
    Tab.get d (Tab.keep p t) k = if p k then Tab.get d t k else d k := by
  induction t with
  | nil => simp [Tab.keep]
  | cons e r ih =>
    obtain ⟨a, v⟩ := e
    by_cases hp : p a
    · simp only [Tab.keep, hp, if_true, Tab.get]
      by_cases h : a = k
      · subst h; simp [hp]
      · simp [h, ih]
    · simp only [Tab.keep, hp, Bool.false_eq_true, if_false, Tab.get, ih]
      by_cases h : a = k
      · subst h; simp [hp]
      · simp [h]

/-! ### The canonical form -/

theorem Tab.risesFrom_mono {t : Tab V} {a b : Nat} (h : a ≤ b) (w : Tab.risesFrom b t = true) : Tab.risesFrom a t = true := by
  cases t with
  | nil => rfl
  | cons e r => obtain ⟨c, v⟩ := e; simp only [Tab.risesFrom, Bool.and_eq_true, decide_eq_true_eq] at w ⊢; exact ⟨by omega, w.2⟩

theorem Tab.risesFrom_erase {t : Tab V} (k : Nat) : ∀ {a : Nat}, Tab.risesFrom a t = true → Tab.risesFrom a (Tab.erase t k) = true := by
  induction t with
  | nil => intro a _; rfl
  | cons e r ih =>
    obtain ⟨c, v⟩ := e
    intro a w
    simp only [Tab.risesFrom, Bool.and_eq_true, decide_eq_true_eq] at w
    simp only [Tab.erase]
    split
    · exact Tab.risesFrom_mono (by omega) (ih w.2)
    · simp only [Tab.risesFrom, Bool.and_eq_true, decide_eq_true_eq]; exact ⟨w.1, ih w.2⟩

theorem Tab.lean_erase [DecidableEq V] (d : Nat → V) {t : Tab V} (k : Nat) (w : Tab.lean d t = true) : Tab.lean d (Tab.erase t k) = true := by
  induction t with
  | nil => rfl
  | cons e r ih =>
    obtain ⟨c, v⟩ := e
    simp only [Tab.lean, Bool.and_eq_true] at w
    simp only [Tab.erase]
    split
    · exact ih w.2
    · simp only [Tab.lean, Bool.and_eq_true]; exact ⟨w.1, ih w.2⟩

/-- The key is not in the table. -/
theorem Tab.not_mem_erase (t : Tab V) (k : Nat) : ∀ e ∈ Tab.erase t k, e.1 ≠ k := by
  induction t with
  | nil => intro e he; cases he
  | cons x r ih =>
    obtain ⟨c, v⟩ := x
    simp only [Tab.erase]
    split
    · exact ih
    · intro e he
      rcases List.mem_cons.mp he with rfl | he
      · assumption
      · exact ih e he

theorem Tab.risesFrom_insert {t : Tab V} {k : Nat} (v : V) : ∀ {a : Nat}, a ≤ k → Tab.risesFrom a t = true →
    (∀ e ∈ t, e.1 ≠ k) → Tab.risesFrom a (Tab.insert t k v) = true := by
  induction t with
  | nil => intro a h _ _; simp [Tab.insert, Tab.risesFrom, h]
  | cons x r ih =>
    obtain ⟨c, w⟩ := x
    intro a h hr hm
    simp only [Tab.risesFrom, Bool.and_eq_true, decide_eq_true_eq] at hr
    have hc : c ≠ k := hm (c, w) (by simp)
    simp only [Tab.insert]
    split
    · simp only [Tab.risesFrom, Bool.and_eq_true, decide_eq_true_eq]; exact ⟨h, by omega, hr.2⟩
    · simp only [Tab.risesFrom, Bool.and_eq_true, decide_eq_true_eq]
      exact ⟨hr.1, ih (by omega) hr.2 fun e he => hm e (by simp [he])⟩

theorem Tab.lean_insert [DecidableEq V] (d : Nat → V) {t : Tab V} {k : Nat} {v : V} (hv : v ≠ d k) (w : Tab.lean d t = true) :
    Tab.lean d (Tab.insert t k v) = true := by
  induction t with
  | nil => simp [Tab.insert, Tab.lean, hv]
  | cons x r ih =>
    obtain ⟨c, u⟩ := x
    have hw := w
    simp only [Tab.lean, Bool.and_eq_true] at w
    simp only [Tab.insert]
    split
    · simp only [Tab.lean, Bool.and_eq_true]; exact ⟨by simpa using hv, w⟩
    · simp only [Tab.lean, Bool.and_eq_true]; exact ⟨w.1, ih w.2⟩

/-- A write keeps the canonical form. -/
theorem Tab.wf_set [DecidableEq V] (d : Nat → V) {t : Tab V} (k : Nat) (v : V) (w : Tab.wf d t = true) : Tab.wf d (Tab.set d t k v) = true := by
  simp only [Tab.wf, Bool.and_eq_true] at w ⊢
  unfold Tab.set
  split
  · exact ⟨Tab.risesFrom_erase k w.1, Tab.lean_erase d k w.2⟩
  · exact ⟨Tab.risesFrom_insert v (by omega) (Tab.risesFrom_erase k w.1) (Tab.not_mem_erase t k), Tab.lean_insert d ‹_› (Tab.lean_erase d k w.2)⟩

/-- Leaving out keys keeps the canonical form. -/
theorem Tab.wf_keep [DecidableEq V] (d : Nat → V) (p : Nat → Bool) {t : Tab V} (w : Tab.wf d t = true) : Tab.wf d (Tab.keep p t) = true := by
  simp only [Tab.wf, Bool.and_eq_true] at w ⊢
  have hr : ∀ {t : Tab V} {a : Nat}, Tab.risesFrom a t = true → Tab.risesFrom a (Tab.keep p t) = true := by
    intro t
    induction t with
    | nil => intro a _; rfl
    | cons x r ih =>
      obtain ⟨c, u⟩ := x
      intro a h
      simp only [Tab.risesFrom, Bool.and_eq_true, decide_eq_true_eq] at h
      simp only [Tab.keep]
      split
      · simp only [Tab.risesFrom, Bool.and_eq_true, decide_eq_true_eq]; exact ⟨h.1, ih h.2⟩
      · exact Tab.risesFrom_mono (by omega) (ih h.2)
  have hl : ∀ {t : Tab V}, Tab.lean d t = true → Tab.lean d (Tab.keep p t) = true := by
    intro t
    induction t with
    | nil => intro _; rfl
    | cons x r ih =>
      obtain ⟨c, u⟩ := x
      intro h
      simp only [Tab.lean, Bool.and_eq_true] at h
      simp only [Tab.keep]
      split
      · simp only [Tab.lean, Bool.and_eq_true]; exact ⟨h.1, ih h.2⟩
      · exact ih h.2
  exact ⟨hr w.1, hl w.2⟩

@[simp] theorem Tab.wf_nil [DecidableEq V] (d : Nat → V) : Tab.wf d ([] : Tab V) = true := rfl

/-- Writing a run of keys keeps the canonical form. -/
theorem Tab.wf_setAll [DecidableEq V] {α : Type} (d : Nat → V) (key : α → Nat) (val : α → V) (l : List α) :
    ∀ {t : Tab V}, Tab.wf d t = true → Tab.wf d (l.foldl (fun u q => Tab.set d u (key q) (val q)) t) = true := by
  induction l with
  | nil => intro t w; exact w
  | cons x r ih => intro t w; exact ih (Tab.wf_set d _ _ w)

end Sys2Proof
end

