-- ==== Sys2Proof/Laws/State.lean ====
section
/-! SUPPORT. Reads after writes of register words and fields. -/
set_option linter.unusedTactic false
set_option linter.unreachableTactic false

namespace Sys2Proof.Machine

variable (s : State)

/-! ### Numbers -/

theorem setBits_lt {n lo w : Nat} (v : Nat) (hn : n < 2 ^ 32) (h : lo + w ≤ 32) : setBits n lo w v < 2 ^ 32 := by
  unfold setBits
  have h1 : n % 2 ^ lo < 2 ^ lo := Nat.mod_lt _ (Nat.two_pow_pos _)
  have h2 : v % 2 ^ w < 2 ^ w := Nat.mod_lt _ (Nat.two_pow_pos _)
  have h3 : n / 2 ^ (lo + w) < 2 ^ (32 - (lo + w)) := by
    rw [Nat.div_lt_iff_lt_mul (Nat.two_pow_pos _), ← Nat.pow_add]
    simpa [Nat.sub_add_cancel h] using hn
  have h4 : 2 ^ (32 - (lo + w)) * 2 ^ (lo + w) = 2 ^ 32 := by rw [← Nat.pow_add, Nat.sub_add_cancel h]
  have h5 : 2 ^ w * 2 ^ lo = 2 ^ (lo + w) := by rw [← Nat.pow_add, Nat.add_comm]
  have h6 : (v % 2 ^ w + 1) * 2 ^ lo ≤ 2 ^ w * 2 ^ lo := Nat.mul_le_mul_right _ h2
  have h7 : (n / 2 ^ (lo + w) + 1) * 2 ^ (lo + w) ≤ 2 ^ (32 - (lo + w)) * 2 ^ (lo + w) := Nat.mul_le_mul_right _ h3
  rw [Nat.add_mul] at h6 h7
  omega

theorem bits_setBits_same (n lo w v : Nat) : bits (setBits n lo w v) lo w = v % 2 ^ w := by
  unfold bits setBits
  have e : n / 2 ^ (lo + w) * 2 ^ (lo + w) = 2 ^ lo * (2 ^ w * (n / 2 ^ (lo + w))) := by rw [Nat.pow_add]; ac_rfl
  rw [e, Nat.mul_comm (v % 2 ^ w), Nat.add_assoc, ← Nat.mul_add, Nat.add_mul_div_left _ _ (Nat.two_pow_pos _),
    Nat.div_eq_of_lt (Nat.mod_lt _ (Nat.two_pow_pos _)), Nat.zero_add, Nat.add_mul_mod_self_left, Nat.mod_mod]

theorem bits_setBits_above (n lo w v : Nat) {l k : Nat} (h : lo + w ≤ l) : bits (setBits n lo w v) l k = bits n l k := by
  unfold bits setBits
  obtain ⟨d, rfl⟩ := Nat.exists_eq_add_of_le h
  congr 1
  rw [Nat.pow_add 2 (lo + w) d, ← Nat.div_div_eq_div_mul, ← Nat.div_div_eq_div_mul]
  congr 1
  have h1 : n % 2 ^ lo < 2 ^ lo := Nat.mod_lt _ (Nat.two_pow_pos _)
  have h2 : v % 2 ^ w + 1 ≤ 2 ^ w := Nat.mod_lt _ (Nat.two_pow_pos _)
  have h3 : (v % 2 ^ w + 1) * 2 ^ lo ≤ 2 ^ w * 2 ^ lo := Nat.mul_le_mul_right _ h2
  have h4 : 2 ^ w * 2 ^ lo = 2 ^ (lo + w) := by rw [← Nat.pow_add, Nat.add_comm]
  rw [Nat.add_mul] at h3
  rw [Nat.add_mul_div_right _ _ (Nat.two_pow_pos _), Nat.div_eq_of_lt (by omega), Nat.zero_add]

theorem bits_setBits_below (n lo w v : Nat) {l k : Nat} (h : l + k ≤ lo) : bits (setBits n lo w v) l k = bits n l k := by
  unfold bits setBits
  obtain ⟨d, rfl⟩ := Nat.exists_eq_add_of_le h
  have e1 : v % 2 ^ w * 2 ^ (l + k + d) = 2 ^ l * (2 ^ k * (2 ^ d * (v % 2 ^ w))) := by rw [Nat.pow_add, Nat.pow_add]; ac_rfl
  have e2 : n / 2 ^ (l + k + d + w) * 2 ^ (l + k + d + w) = 2 ^ l * (2 ^ k * (2 ^ d * 2 ^ w * (n / 2 ^ (l + k + d + w)))) := by
    simp only [Nat.pow_add]; ac_rfl
  rw [e1, e2, Nat.add_assoc, ← Nat.mul_add, ← Nat.mul_add, Nat.add_mul_div_left _ _ (Nat.two_pow_pos _), Nat.add_mul_mod_self_left]
  rw [show l + k + d = l + (k + d) by omega, Nat.pow_add, Nat.mod_mul_right_div_self, Nat.pow_add, Nat.mod_mul_right_mod]

/-! ### Words -/

theorem State.rd_wr (off k : Nat) (w : Word) : (s.wr off w).rd k = if k = off then w else s.rd k := by
  unfold State.rd State.wr; exact Tab.get_set _ _ _ _ _
@[simp] theorem State.rd_wr_same (off : Nat) (w : Word) : (s.wr off w).rd off = w := by simp [State.rd_wr]
theorem State.rd_wr_ne {off k : Nat} (w : Word) (h : k ≠ off) : (s.wr off w).rd k = s.rd k := by simp [State.rd_wr, h]
theorem State.rd_put_ne {f : Fld} {k : Nat} (v : Nat) (h : k ≠ f.off) : (s.put f v).rd k = s.rd k := State.rd_wr_ne _ _ h

/-- A field holds what was put into it. -/
theorem State.get_put_same {f : Fld} (v : Nat) (h : f.lo + f.w ≤ 32) : (s.put f v).get f = v % 2 ^ f.w := by
  unfold State.get State.put
  rw [State.rd_wr_same, BitVec.toNat_ofNat, Nat.mod_eq_of_lt (setBits_lt _ (BitVec.isLt _) h), bits_setBits_same]

/-- A field that shares no bit with the one written is unchanged. -/
theorem State.get_put_apart {f g : Fld} (v : Nat) (h : g.lo + g.w ≤ 32) (ha : g.apart f) : (s.put f v).get g = s.get g := by
  by_cases ho : g.off = f.off
  · unfold State.get State.put
    rw [ho, State.rd_wr_same, BitVec.toNat_ofNat]
    by_cases hb : g.lo + g.w ≤ f.lo
    · have : ∀ x, bits (x % 2 ^ 32) g.lo g.w = bits x g.lo g.w := by
        intro x; unfold bits
        rw [show (32:Nat) = g.lo + (g.w + (32 - g.lo - g.w)) by omega, Nat.pow_add, Nat.mod_mul_right_div_self, Nat.pow_add, Nat.mod_mul_right_mod]
      rw [this, bits_setBits_below _ _ _ _ hb]
    · have hc : f.lo + f.w ≤ g.lo := by
        rcases ha with ha | ha | ha
        · exact absurd ho ha
        · exact absurd ha hb
        · exact ha
      have : ∀ x, bits (x % 2 ^ 32) g.lo g.w = bits x g.lo g.w := by
        intro x; unfold bits
        rw [show (32:Nat) = g.lo + (g.w + (32 - g.lo - g.w)) by omega, Nat.pow_add, Nat.mod_mul_right_div_self, Nat.pow_add, Nat.mod_mul_right_mod]
      rw [this, bits_setBits_above _ _ _ _ hc]
  · unfold State.get
    rw [State.rd_put_ne _ _ ho]

theorem State.get_wr_apart {g : Fld} {off : Nat} (w : Word) (h : g.lo + g.w ≤ 32) (ha : g.apart (Fld.whole off)) : (s.wr off w).get g = s.get g := by
  unfold State.get
  by_cases ho : g.off = off
  · rcases ha with ha | ha | ha
    · exact absurd ho ha
    · have : g.lo = 0 ∧ g.w = 0 := by simp only [Fld.whole] at ha; omega
      simp [bits, this.2, Nat.mod_one]
    · have : g.w = 0 := by simp only [Fld.whole] at ha; omega
      simp [bits, this, Nat.mod_one]
  · rw [State.rd_wr_ne _ _ ho]

/-- Registers depend on the register file and the grade alone. -/
theorem State.rd_congr {s t : State} (hr : t.regs = s.regs) (hb : t.big = s.big) (off : Nat) : t.rd off = s.rd off := by
  unfold State.rd; rw [hr, hb]
theorem State.get_congr {s t : State} (hr : t.regs = s.regs) (hb : t.big = s.big) (f : Fld) : t.get f = s.get f := by
  unfold State.get; rw [State.rd_congr hr hb]

theorem State.get_lt (f : Fld) : s.get f < 2 ^ f.w := Nat.mod_lt _ (Nat.two_pow_pos _)

/-! ### Fields through the named updates -/

@[simp] theorem State.wr_big (o : Nat) (w : Word) : (s.wr o w).big = s.big := by unfold State.wr; rfl
@[simp] theorem State.wr_dram (o : Nat) (w : Word) : (s.wr o w).dram = s.dram := by unfold State.wr; rfl
@[simp] theorem State.wr_damage (o : Nat) (w : Word) : (s.wr o w).damage = s.damage := by unfold State.wr; rfl
@[simp] theorem State.wr_host (o : Nat) (w : Word) : (s.wr o w).host = s.host := by unfold State.wr; rfl
@[simp] theorem State.wr_pending (o : Nat) (w : Word) : (s.wr o w).pending = s.pending := by unfold State.wr; rfl
@[simp] theorem State.wr_free (o : Nat) (w : Word) : (s.wr o w).free = s.free := by unfold State.wr; rfl
@[simp] theorem State.wr_ticks (o : Nat) (w : Word) : (s.wr o w).ticks = s.ticks := by unfold State.wr; rfl
@[simp] theorem State.wr_time (o : Nat) (w : Word) : (s.wr o w).time = s.time := by unfold State.wr; rfl
@[simp] theorem State.wr_answer (o : Nat) (w : Word) : (s.wr o w).answer = s.answer := by unfold State.wr; rfl
@[simp] theorem State.wr_dater (o : Nat) (w : Word) : (s.wr o w).dater = s.dater := by unfold State.wr; rfl
@[simp] theorem State.wr_net (o : Nat) (w : Word) : (s.wr o w).net = s.net := by unfold State.wr; rfl
@[simp] theorem State.wr_bnd (o : Nat) (w : Word) : (s.wr o w).bnd = s.bnd := by unfold State.wr; rfl
@[simp] theorem State.wr_rgs (o : Nat) (w : Word) : (s.wr o w).rgs = s.rgs := by unfold State.wr; rfl
@[simp] theorem State.wr_harts (o : Nat) (w : Word) : (s.wr o w).harts = s.harts := by unfold State.wr; rfl
@[simp] theorem State.wr_engines (o : Nat) (w : Word) : (s.wr o w).engines = s.engines := by unfold State.wr; rfl
@[simp] theorem State.wr_copyCar (o : Nat) (w : Word) : (s.wr o w).copyCar = s.copyCar := by unfold State.wr; rfl
@[simp] theorem State.wr_copyScb (o : Nat) (w : Word) : (s.wr o w).copyScb = s.copyScb := by unfold State.wr; rfl
@[simp] theorem State.wr_mmu (o : Nat) (w : Word) : (s.wr o w).mmu = s.mmu := by unfold State.wr; rfl
@[simp] theorem State.wr_dma (o : Nat) (w : Word) : (s.wr o w).dma = s.dma := by unfold State.wr; rfl
@[simp] theorem State.wr_levels (o : Nat) (w : Word) : (s.wr o w).levels = s.levels := by unfold State.wr; rfl
@[simp] theorem State.wr_queues (o : Nat) (w : Word) : (s.wr o w).queues = s.queues := by unfold State.wr; rfl
@[simp] theorem State.wr_pools (o : Nat) (w : Word) : (s.wr o w).pools = s.pools := by unfold State.wr; rfl
@[simp] theorem State.wr_orphans (o : Nat) (w : Word) : (s.wr o w).orphans = s.orphans := by unfold State.wr; rfl
@[simp] theorem State.wr_chans (o : Nat) (w : Word) : (s.wr o w).chans = s.chans := by unfold State.wr; rfl
@[simp] theorem State.wr_scrub (o : Nat) (w : Word) : (s.wr o w).scrub = s.scrub := by unfold State.wr; rfl
@[simp] theorem State.wr_cat (o : Nat) (w : Word) : (s.wr o w).cat = s.cat := by unfold State.wr; rfl
@[simp] theorem State.wr_power (o : Nat) (w : Word) : (s.wr o w).power = s.power := by unfold State.wr; rfl
@[simp] theorem State.wr_keeper (o : Nat) (w : Word) : (s.wr o w).keeper = s.keeper := by unfold State.wr; rfl
@[simp] theorem State.wr_cons (o : Nat) (w : Word) : (s.wr o w).cons = s.cons := by unfold State.wr; rfl
@[simp] theorem State.wr_pads (o : Nat) (w : Word) : (s.wr o w).pads = s.pads := by unfold State.wr; rfl
@[simp] theorem State.wr_rings (o : Nat) (w : Word) : (s.wr o w).rings = s.rings := by unfold State.wr; rfl
@[simp] theorem State.wr_vecs (o : Nat) (w : Word) : (s.wr o w).vecs = s.vecs := by unfold State.wr; rfl
@[simp] theorem State.wr_hostFn (o : Nat) (w : Word) : (s.wr o w).hostFn = s.hostFn := by unfold State.wr; rfl
@[simp] theorem State.wr_streams (o : Nat) (w : Word) : (s.wr o w).streams = s.streams := by unfold State.wr; rfl
@[simp] theorem State.wr_staged (o : Nat) (w : Word) : (s.wr o w).staged = s.staged := by unfold State.wr; rfl
@[simp] theorem State.wr_taking (o : Nat) (w : Word) : (s.wr o w).taking = s.taking := by unfold State.wr; rfl
@[simp] theorem State.wr_tripped (o : Nat) (w : Word) : (s.wr o w).tripped = s.tripped := by unfold State.wr; rfl
@[simp] theorem State.wr_gone (o : Nat) (w : Word) : (s.wr o w).gone = s.gone := by unfold State.wr; rfl

@[simp] theorem State.put_big (f : Fld) (v : Nat) : (s.put f v).big = s.big := by rw [State.put, State.wr_big]
@[simp] theorem State.put_dram (f : Fld) (v : Nat) : (s.put f v).dram = s.dram := by rw [State.put, State.wr_dram]
@[simp] theorem State.put_damage (f : Fld) (v : Nat) : (s.put f v).damage = s.damage := by rw [State.put, State.wr_damage]
@[simp] theorem State.put_host (f : Fld) (v : Nat) : (s.put f v).host = s.host := by rw [State.put, State.wr_host]
@[simp] theorem State.put_pending (f : Fld) (v : Nat) : (s.put f v).pending = s.pending := by rw [State.put, State.wr_pending]
@[simp] theorem State.put_free (f : Fld) (v : Nat) : (s.put f v).free = s.free := by rw [State.put, State.wr_free]
@[simp] theorem State.put_ticks (f : Fld) (v : Nat) : (s.put f v).ticks = s.ticks := by rw [State.put, State.wr_ticks]
@[simp] theorem State.put_time (f : Fld) (v : Nat) : (s.put f v).time = s.time := by rw [State.put, State.wr_time]
@[simp] theorem State.put_answer (f : Fld) (v : Nat) : (s.put f v).answer = s.answer := by rw [State.put, State.wr_answer]
@[simp] theorem State.put_dater (f : Fld) (v : Nat) : (s.put f v).dater = s.dater := by rw [State.put, State.wr_dater]
@[simp] theorem State.put_net (f : Fld) (v : Nat) : (s.put f v).net = s.net := by rw [State.put, State.wr_net]
@[simp] theorem State.put_bnd (f : Fld) (v : Nat) : (s.put f v).bnd = s.bnd := by rw [State.put, State.wr_bnd]
@[simp] theorem State.put_rgs (f : Fld) (v : Nat) : (s.put f v).rgs = s.rgs := by rw [State.put, State.wr_rgs]
@[simp] theorem State.put_harts (f : Fld) (v : Nat) : (s.put f v).harts = s.harts := by rw [State.put, State.wr_harts]
@[simp] theorem State.put_engines (f : Fld) (v : Nat) : (s.put f v).engines = s.engines := by rw [State.put, State.wr_engines]
@[simp] theorem State.put_copyCar (f : Fld) (v : Nat) : (s.put f v).copyCar = s.copyCar := by rw [State.put, State.wr_copyCar]
@[simp] theorem State.put_copyScb (f : Fld) (v : Nat) : (s.put f v).copyScb = s.copyScb := by rw [State.put, State.wr_copyScb]
@[simp] theorem State.put_mmu (f : Fld) (v : Nat) : (s.put f v).mmu = s.mmu := by rw [State.put, State.wr_mmu]
@[simp] theorem State.put_dma (f : Fld) (v : Nat) : (s.put f v).dma = s.dma := by rw [State.put, State.wr_dma]
@[simp] theorem State.put_levels (f : Fld) (v : Nat) : (s.put f v).levels = s.levels := by rw [State.put, State.wr_levels]
@[simp] theorem State.put_queues (f : Fld) (v : Nat) : (s.put f v).queues = s.queues := by rw [State.put, State.wr_queues]
@[simp] theorem State.put_pools (f : Fld) (v : Nat) : (s.put f v).pools = s.pools := by rw [State.put, State.wr_pools]
@[simp] theorem State.put_orphans (f : Fld) (v : Nat) : (s.put f v).orphans = s.orphans := by rw [State.put, State.wr_orphans]
@[simp] theorem State.put_chans (f : Fld) (v : Nat) : (s.put f v).chans = s.chans := by rw [State.put, State.wr_chans]
@[simp] theorem State.put_scrub (f : Fld) (v : Nat) : (s.put f v).scrub = s.scrub := by rw [State.put, State.wr_scrub]
@[simp] theorem State.put_cat (f : Fld) (v : Nat) : (s.put f v).cat = s.cat := by rw [State.put, State.wr_cat]
@[simp] theorem State.put_power (f : Fld) (v : Nat) : (s.put f v).power = s.power := by rw [State.put, State.wr_power]
@[simp] theorem State.put_keeper (f : Fld) (v : Nat) : (s.put f v).keeper = s.keeper := by rw [State.put, State.wr_keeper]
@[simp] theorem State.put_cons (f : Fld) (v : Nat) : (s.put f v).cons = s.cons := by rw [State.put, State.wr_cons]
@[simp] theorem State.put_pads (f : Fld) (v : Nat) : (s.put f v).pads = s.pads := by rw [State.put, State.wr_pads]
@[simp] theorem State.put_rings (f : Fld) (v : Nat) : (s.put f v).rings = s.rings := by rw [State.put, State.wr_rings]
@[simp] theorem State.put_vecs (f : Fld) (v : Nat) : (s.put f v).vecs = s.vecs := by rw [State.put, State.wr_vecs]
@[simp] theorem State.put_hostFn (f : Fld) (v : Nat) : (s.put f v).hostFn = s.hostFn := by rw [State.put, State.wr_hostFn]
@[simp] theorem State.put_streams (f : Fld) (v : Nat) : (s.put f v).streams = s.streams := by rw [State.put, State.wr_streams]
@[simp] theorem State.put_staged (f : Fld) (v : Nat) : (s.put f v).staged = s.staged := by rw [State.put, State.wr_staged]
@[simp] theorem State.put_taking (f : Fld) (v : Nat) : (s.put f v).taking = s.taking := by rw [State.put, State.wr_taking]
@[simp] theorem State.put_tripped (f : Fld) (v : Nat) : (s.put f v).tripped = s.tripped := by rw [State.put, State.wr_tripped]
@[simp] theorem State.put_gone (f : Fld) (v : Nat) : (s.put f v).gone = s.gone := by rw [State.put, State.wr_gone]

@[simp] theorem State.add_big (f : Fld) (k : Nat) : (s.add f k).big = s.big := by rw [State.add, State.put_big]
@[simp] theorem State.add_dram (f : Fld) (k : Nat) : (s.add f k).dram = s.dram := by rw [State.add, State.put_dram]
@[simp] theorem State.add_damage (f : Fld) (k : Nat) : (s.add f k).damage = s.damage := by rw [State.add, State.put_damage]
@[simp] theorem State.add_host (f : Fld) (k : Nat) : (s.add f k).host = s.host := by rw [State.add, State.put_host]
@[simp] theorem State.add_pending (f : Fld) (k : Nat) : (s.add f k).pending = s.pending := by rw [State.add, State.put_pending]
@[simp] theorem State.add_free (f : Fld) (k : Nat) : (s.add f k).free = s.free := by rw [State.add, State.put_free]
@[simp] theorem State.add_ticks (f : Fld) (k : Nat) : (s.add f k).ticks = s.ticks := by rw [State.add, State.put_ticks]
@[simp] theorem State.add_time (f : Fld) (k : Nat) : (s.add f k).time = s.time := by rw [State.add, State.put_time]
@[simp] theorem State.add_answer (f : Fld) (k : Nat) : (s.add f k).answer = s.answer := by rw [State.add, State.put_answer]
@[simp] theorem State.add_dater (f : Fld) (k : Nat) : (s.add f k).dater = s.dater := by rw [State.add, State.put_dater]
@[simp] theorem State.add_net (f : Fld) (k : Nat) : (s.add f k).net = s.net := by rw [State.add, State.put_net]
@[simp] theorem State.add_bnd (f : Fld) (k : Nat) : (s.add f k).bnd = s.bnd := by rw [State.add, State.put_bnd]
@[simp] theorem State.add_rgs (f : Fld) (k : Nat) : (s.add f k).rgs = s.rgs := by rw [State.add, State.put_rgs]
@[simp] theorem State.add_harts (f : Fld) (k : Nat) : (s.add f k).harts = s.harts := by rw [State.add, State.put_harts]
@[simp] theorem State.add_engines (f : Fld) (k : Nat) : (s.add f k).engines = s.engines := by rw [State.add, State.put_engines]
@[simp] theorem State.add_copyCar (f : Fld) (k : Nat) : (s.add f k).copyCar = s.copyCar := by rw [State.add, State.put_copyCar]
@[simp] theorem State.add_copyScb (f : Fld) (k : Nat) : (s.add f k).copyScb = s.copyScb := by rw [State.add, State.put_copyScb]
@[simp] theorem State.add_mmu (f : Fld) (k : Nat) : (s.add f k).mmu = s.mmu := by rw [State.add, State.put_mmu]
@[simp] theorem State.add_dma (f : Fld) (k : Nat) : (s.add f k).dma = s.dma := by rw [State.add, State.put_dma]
@[simp] theorem State.add_levels (f : Fld) (k : Nat) : (s.add f k).levels = s.levels := by rw [State.add, State.put_levels]
@[simp] theorem State.add_queues (f : Fld) (k : Nat) : (s.add f k).queues = s.queues := by rw [State.add, State.put_queues]
@[simp] theorem State.add_pools (f : Fld) (k : Nat) : (s.add f k).pools = s.pools := by rw [State.add, State.put_pools]
@[simp] theorem State.add_orphans (f : Fld) (k : Nat) : (s.add f k).orphans = s.orphans := by rw [State.add, State.put_orphans]
@[simp] theorem State.add_chans (f : Fld) (k : Nat) : (s.add f k).chans = s.chans := by rw [State.add, State.put_chans]
@[simp] theorem State.add_scrub (f : Fld) (k : Nat) : (s.add f k).scrub = s.scrub := by rw [State.add, State.put_scrub]
@[simp] theorem State.add_cat (f : Fld) (k : Nat) : (s.add f k).cat = s.cat := by rw [State.add, State.put_cat]
@[simp] theorem State.add_power (f : Fld) (k : Nat) : (s.add f k).power = s.power := by rw [State.add, State.put_power]
@[simp] theorem State.add_keeper (f : Fld) (k : Nat) : (s.add f k).keeper = s.keeper := by rw [State.add, State.put_keeper]
@[simp] theorem State.add_cons (f : Fld) (k : Nat) : (s.add f k).cons = s.cons := by rw [State.add, State.put_cons]
@[simp] theorem State.add_pads (f : Fld) (k : Nat) : (s.add f k).pads = s.pads := by rw [State.add, State.put_pads]
@[simp] theorem State.add_rings (f : Fld) (k : Nat) : (s.add f k).rings = s.rings := by rw [State.add, State.put_rings]
@[simp] theorem State.add_vecs (f : Fld) (k : Nat) : (s.add f k).vecs = s.vecs := by rw [State.add, State.put_vecs]
@[simp] theorem State.add_hostFn (f : Fld) (k : Nat) : (s.add f k).hostFn = s.hostFn := by rw [State.add, State.put_hostFn]
@[simp] theorem State.add_streams (f : Fld) (k : Nat) : (s.add f k).streams = s.streams := by rw [State.add, State.put_streams]
@[simp] theorem State.add_staged (f : Fld) (k : Nat) : (s.add f k).staged = s.staged := by rw [State.add, State.put_staged]
@[simp] theorem State.add_taking (f : Fld) (k : Nat) : (s.add f k).taking = s.taking := by rw [State.add, State.put_taking]
@[simp] theorem State.add_tripped (f : Fld) (k : Nat) : (s.add f k).tripped = s.tripped := by rw [State.add, State.put_tripped]
@[simp] theorem State.add_gone (f : Fld) (k : Nat) : (s.add f k).gone = s.gone := by rw [State.add, State.put_gone]

@[simp] theorem State.bump_big (f : Fld) : (s.bump f).big = s.big := by rw [State.bump, State.add_big]
@[simp] theorem State.bump_dram (f : Fld) : (s.bump f).dram = s.dram := by rw [State.bump, State.add_dram]
@[simp] theorem State.bump_damage (f : Fld) : (s.bump f).damage = s.damage := by rw [State.bump, State.add_damage]
@[simp] theorem State.bump_host (f : Fld) : (s.bump f).host = s.host := by rw [State.bump, State.add_host]
@[simp] theorem State.bump_pending (f : Fld) : (s.bump f).pending = s.pending := by rw [State.bump, State.add_pending]
@[simp] theorem State.bump_free (f : Fld) : (s.bump f).free = s.free := by rw [State.bump, State.add_free]
@[simp] theorem State.bump_ticks (f : Fld) : (s.bump f).ticks = s.ticks := by rw [State.bump, State.add_ticks]
@[simp] theorem State.bump_time (f : Fld) : (s.bump f).time = s.time := by rw [State.bump, State.add_time]
@[simp] theorem State.bump_answer (f : Fld) : (s.bump f).answer = s.answer := by rw [State.bump, State.add_answer]
@[simp] theorem State.bump_dater (f : Fld) : (s.bump f).dater = s.dater := by rw [State.bump, State.add_dater]
@[simp] theorem State.bump_net (f : Fld) : (s.bump f).net = s.net := by rw [State.bump, State.add_net]
@[simp] theorem State.bump_bnd (f : Fld) : (s.bump f).bnd = s.bnd := by rw [State.bump, State.add_bnd]
@[simp] theorem State.bump_rgs (f : Fld) : (s.bump f).rgs = s.rgs := by rw [State.bump, State.add_rgs]
@[simp] theorem State.bump_harts (f : Fld) : (s.bump f).harts = s.harts := by rw [State.bump, State.add_harts]
@[simp] theorem State.bump_engines (f : Fld) : (s.bump f).engines = s.engines := by rw [State.bump, State.add_engines]
@[simp] theorem State.bump_copyCar (f : Fld) : (s.bump f).copyCar = s.copyCar := by rw [State.bump, State.add_copyCar]
@[simp] theorem State.bump_copyScb (f : Fld) : (s.bump f).copyScb = s.copyScb := by rw [State.bump, State.add_copyScb]
@[simp] theorem State.bump_mmu (f : Fld) : (s.bump f).mmu = s.mmu := by rw [State.bump, State.add_mmu]
@[simp] theorem State.bump_dma (f : Fld) : (s.bump f).dma = s.dma := by rw [State.bump, State.add_dma]
@[simp] theorem State.bump_levels (f : Fld) : (s.bump f).levels = s.levels := by rw [State.bump, State.add_levels]
@[simp] theorem State.bump_queues (f : Fld) : (s.bump f).queues = s.queues := by rw [State.bump, State.add_queues]
@[simp] theorem State.bump_pools (f : Fld) : (s.bump f).pools = s.pools := by rw [State.bump, State.add_pools]
@[simp] theorem State.bump_orphans (f : Fld) : (s.bump f).orphans = s.orphans := by rw [State.bump, State.add_orphans]
@[simp] theorem State.bump_chans (f : Fld) : (s.bump f).chans = s.chans := by rw [State.bump, State.add_chans]
@[simp] theorem State.bump_scrub (f : Fld) : (s.bump f).scrub = s.scrub := by rw [State.bump, State.add_scrub]
@[simp] theorem State.bump_cat (f : Fld) : (s.bump f).cat = s.cat := by rw [State.bump, State.add_cat]
@[simp] theorem State.bump_power (f : Fld) : (s.bump f).power = s.power := by rw [State.bump, State.add_power]
@[simp] theorem State.bump_keeper (f : Fld) : (s.bump f).keeper = s.keeper := by rw [State.bump, State.add_keeper]
@[simp] theorem State.bump_cons (f : Fld) : (s.bump f).cons = s.cons := by rw [State.bump, State.add_cons]
@[simp] theorem State.bump_pads (f : Fld) : (s.bump f).pads = s.pads := by rw [State.bump, State.add_pads]
@[simp] theorem State.bump_rings (f : Fld) : (s.bump f).rings = s.rings := by rw [State.bump, State.add_rings]
@[simp] theorem State.bump_vecs (f : Fld) : (s.bump f).vecs = s.vecs := by rw [State.bump, State.add_vecs]
@[simp] theorem State.bump_hostFn (f : Fld) : (s.bump f).hostFn = s.hostFn := by rw [State.bump, State.add_hostFn]
@[simp] theorem State.bump_streams (f : Fld) : (s.bump f).streams = s.streams := by rw [State.bump, State.add_streams]
@[simp] theorem State.bump_staged (f : Fld) : (s.bump f).staged = s.staged := by rw [State.bump, State.add_staged]
@[simp] theorem State.bump_taking (f : Fld) : (s.bump f).taking = s.taking := by rw [State.bump, State.add_taking]
@[simp] theorem State.bump_tripped (f : Fld) : (s.bump f).tripped = s.tripped := by rw [State.bump, State.add_tripped]
@[simp] theorem State.bump_gone (f : Fld) : (s.bump f).gone = s.gone := by rw [State.bump, State.add_gone]

@[simp] theorem State.putBit_big (b i : Nat) (v : Bool) : (s.putBit b i v).big = s.big := by rw [State.putBit, State.put_big]
@[simp] theorem State.putBit_dram (b i : Nat) (v : Bool) : (s.putBit b i v).dram = s.dram := by rw [State.putBit, State.put_dram]
@[simp] theorem State.putBit_damage (b i : Nat) (v : Bool) : (s.putBit b i v).damage = s.damage := by rw [State.putBit, State.put_damage]
@[simp] theorem State.putBit_host (b i : Nat) (v : Bool) : (s.putBit b i v).host = s.host := by rw [State.putBit, State.put_host]
@[simp] theorem State.putBit_pending (b i : Nat) (v : Bool) : (s.putBit b i v).pending = s.pending := by rw [State.putBit, State.put_pending]
@[simp] theorem State.putBit_free (b i : Nat) (v : Bool) : (s.putBit b i v).free = s.free := by rw [State.putBit, State.put_free]
@[simp] theorem State.putBit_ticks (b i : Nat) (v : Bool) : (s.putBit b i v).ticks = s.ticks := by rw [State.putBit, State.put_ticks]
@[simp] theorem State.putBit_time (b i : Nat) (v : Bool) : (s.putBit b i v).time = s.time := by rw [State.putBit, State.put_time]
@[simp] theorem State.putBit_answer (b i : Nat) (v : Bool) : (s.putBit b i v).answer = s.answer := by rw [State.putBit, State.put_answer]
@[simp] theorem State.putBit_dater (b i : Nat) (v : Bool) : (s.putBit b i v).dater = s.dater := by rw [State.putBit, State.put_dater]
@[simp] theorem State.putBit_net (b i : Nat) (v : Bool) : (s.putBit b i v).net = s.net := by rw [State.putBit, State.put_net]
@[simp] theorem State.putBit_bnd (b i : Nat) (v : Bool) : (s.putBit b i v).bnd = s.bnd := by rw [State.putBit, State.put_bnd]
@[simp] theorem State.putBit_rgs (b i : Nat) (v : Bool) : (s.putBit b i v).rgs = s.rgs := by rw [State.putBit, State.put_rgs]
@[simp] theorem State.putBit_harts (b i : Nat) (v : Bool) : (s.putBit b i v).harts = s.harts := by rw [State.putBit, State.put_harts]
@[simp] theorem State.putBit_engines (b i : Nat) (v : Bool) : (s.putBit b i v).engines = s.engines := by rw [State.putBit, State.put_engines]
@[simp] theorem State.putBit_copyCar (b i : Nat) (v : Bool) : (s.putBit b i v).copyCar = s.copyCar := by rw [State.putBit, State.put_copyCar]
@[simp] theorem State.putBit_copyScb (b i : Nat) (v : Bool) : (s.putBit b i v).copyScb = s.copyScb := by rw [State.putBit, State.put_copyScb]
@[simp] theorem State.putBit_mmu (b i : Nat) (v : Bool) : (s.putBit b i v).mmu = s.mmu := by rw [State.putBit, State.put_mmu]
@[simp] theorem State.putBit_dma (b i : Nat) (v : Bool) : (s.putBit b i v).dma = s.dma := by rw [State.putBit, State.put_dma]
@[simp] theorem State.putBit_levels (b i : Nat) (v : Bool) : (s.putBit b i v).levels = s.levels := by rw [State.putBit, State.put_levels]
@[simp] theorem State.putBit_queues (b i : Nat) (v : Bool) : (s.putBit b i v).queues = s.queues := by rw [State.putBit, State.put_queues]
@[simp] theorem State.putBit_pools (b i : Nat) (v : Bool) : (s.putBit b i v).pools = s.pools := by rw [State.putBit, State.put_pools]
@[simp] theorem State.putBit_orphans (b i : Nat) (v : Bool) : (s.putBit b i v).orphans = s.orphans := by rw [State.putBit, State.put_orphans]
@[simp] theorem State.putBit_chans (b i : Nat) (v : Bool) : (s.putBit b i v).chans = s.chans := by rw [State.putBit, State.put_chans]
@[simp] theorem State.putBit_scrub (b i : Nat) (v : Bool) : (s.putBit b i v).scrub = s.scrub := by rw [State.putBit, State.put_scrub]
@[simp] theorem State.putBit_cat (b i : Nat) (v : Bool) : (s.putBit b i v).cat = s.cat := by rw [State.putBit, State.put_cat]
@[simp] theorem State.putBit_power (b i : Nat) (v : Bool) : (s.putBit b i v).power = s.power := by rw [State.putBit, State.put_power]
@[simp] theorem State.putBit_keeper (b i : Nat) (v : Bool) : (s.putBit b i v).keeper = s.keeper := by rw [State.putBit, State.put_keeper]
@[simp] theorem State.putBit_cons (b i : Nat) (v : Bool) : (s.putBit b i v).cons = s.cons := by rw [State.putBit, State.put_cons]
@[simp] theorem State.putBit_pads (b i : Nat) (v : Bool) : (s.putBit b i v).pads = s.pads := by rw [State.putBit, State.put_pads]
@[simp] theorem State.putBit_rings (b i : Nat) (v : Bool) : (s.putBit b i v).rings = s.rings := by rw [State.putBit, State.put_rings]
@[simp] theorem State.putBit_vecs (b i : Nat) (v : Bool) : (s.putBit b i v).vecs = s.vecs := by rw [State.putBit, State.put_vecs]
@[simp] theorem State.putBit_hostFn (b i : Nat) (v : Bool) : (s.putBit b i v).hostFn = s.hostFn := by rw [State.putBit, State.put_hostFn]
@[simp] theorem State.putBit_streams (b i : Nat) (v : Bool) : (s.putBit b i v).streams = s.streams := by rw [State.putBit, State.put_streams]
@[simp] theorem State.putBit_staged (b i : Nat) (v : Bool) : (s.putBit b i v).staged = s.staged := by rw [State.putBit, State.put_staged]
@[simp] theorem State.putBit_taking (b i : Nat) (v : Bool) : (s.putBit b i v).taking = s.taking := by rw [State.putBit, State.put_taking]
@[simp] theorem State.putBit_tripped (b i : Nat) (v : Bool) : (s.putBit b i v).tripped = s.tripped := by rw [State.putBit, State.put_tripped]
@[simp] theorem State.putBit_gone (b i : Nat) (v : Bool) : (s.putBit b i v).gone = s.gone := by rw [State.putBit, State.put_gone]

@[simp] theorem State.putPair_big (a b v : Nat) : (s.putPair a b v).big = s.big := by rw [State.putPair, State.wr_big, State.wr_big]
@[simp] theorem State.putPair_dram (a b v : Nat) : (s.putPair a b v).dram = s.dram := by rw [State.putPair, State.wr_dram, State.wr_dram]
@[simp] theorem State.putPair_damage (a b v : Nat) : (s.putPair a b v).damage = s.damage := by rw [State.putPair, State.wr_damage, State.wr_damage]
@[simp] theorem State.putPair_host (a b v : Nat) : (s.putPair a b v).host = s.host := by rw [State.putPair, State.wr_host, State.wr_host]
@[simp] theorem State.putPair_pending (a b v : Nat) : (s.putPair a b v).pending = s.pending := by rw [State.putPair, State.wr_pending, State.wr_pending]
@[simp] theorem State.putPair_free (a b v : Nat) : (s.putPair a b v).free = s.free := by rw [State.putPair, State.wr_free, State.wr_free]
@[simp] theorem State.putPair_ticks (a b v : Nat) : (s.putPair a b v).ticks = s.ticks := by rw [State.putPair, State.wr_ticks, State.wr_ticks]
@[simp] theorem State.putPair_time (a b v : Nat) : (s.putPair a b v).time = s.time := by rw [State.putPair, State.wr_time, State.wr_time]
@[simp] theorem State.putPair_answer (a b v : Nat) : (s.putPair a b v).answer = s.answer := by rw [State.putPair, State.wr_answer, State.wr_answer]
@[simp] theorem State.putPair_dater (a b v : Nat) : (s.putPair a b v).dater = s.dater := by rw [State.putPair, State.wr_dater, State.wr_dater]
@[simp] theorem State.putPair_net (a b v : Nat) : (s.putPair a b v).net = s.net := by rw [State.putPair, State.wr_net, State.wr_net]
@[simp] theorem State.putPair_bnd (a b v : Nat) : (s.putPair a b v).bnd = s.bnd := by rw [State.putPair, State.wr_bnd, State.wr_bnd]
@[simp] theorem State.putPair_rgs (a b v : Nat) : (s.putPair a b v).rgs = s.rgs := by rw [State.putPair, State.wr_rgs, State.wr_rgs]
@[simp] theorem State.putPair_harts (a b v : Nat) : (s.putPair a b v).harts = s.harts := by rw [State.putPair, State.wr_harts, State.wr_harts]
@[simp] theorem State.putPair_engines (a b v : Nat) : (s.putPair a b v).engines = s.engines := by rw [State.putPair, State.wr_engines, State.wr_engines]
@[simp] theorem State.putPair_copyCar (a b v : Nat) : (s.putPair a b v).copyCar = s.copyCar := by rw [State.putPair, State.wr_copyCar, State.wr_copyCar]
@[simp] theorem State.putPair_copyScb (a b v : Nat) : (s.putPair a b v).copyScb = s.copyScb := by rw [State.putPair, State.wr_copyScb, State.wr_copyScb]
@[simp] theorem State.putPair_mmu (a b v : Nat) : (s.putPair a b v).mmu = s.mmu := by rw [State.putPair, State.wr_mmu, State.wr_mmu]
@[simp] theorem State.putPair_dma (a b v : Nat) : (s.putPair a b v).dma = s.dma := by rw [State.putPair, State.wr_dma, State.wr_dma]
@[simp] theorem State.putPair_levels (a b v : Nat) : (s.putPair a b v).levels = s.levels := by rw [State.putPair, State.wr_levels, State.wr_levels]
@[simp] theorem State.putPair_queues (a b v : Nat) : (s.putPair a b v).queues = s.queues := by rw [State.putPair, State.wr_queues, State.wr_queues]
@[simp] theorem State.putPair_pools (a b v : Nat) : (s.putPair a b v).pools = s.pools := by rw [State.putPair, State.wr_pools, State.wr_pools]
@[simp] theorem State.putPair_orphans (a b v : Nat) : (s.putPair a b v).orphans = s.orphans := by rw [State.putPair, State.wr_orphans, State.wr_orphans]
@[simp] theorem State.putPair_chans (a b v : Nat) : (s.putPair a b v).chans = s.chans := by rw [State.putPair, State.wr_chans, State.wr_chans]
@[simp] theorem State.putPair_scrub (a b v : Nat) : (s.putPair a b v).scrub = s.scrub := by rw [State.putPair, State.wr_scrub, State.wr_scrub]
@[simp] theorem State.putPair_cat (a b v : Nat) : (s.putPair a b v).cat = s.cat := by rw [State.putPair, State.wr_cat, State.wr_cat]
@[simp] theorem State.putPair_power (a b v : Nat) : (s.putPair a b v).power = s.power := by rw [State.putPair, State.wr_power, State.wr_power]
@[simp] theorem State.putPair_keeper (a b v : Nat) : (s.putPair a b v).keeper = s.keeper := by rw [State.putPair, State.wr_keeper, State.wr_keeper]
@[simp] theorem State.putPair_cons (a b v : Nat) : (s.putPair a b v).cons = s.cons := by rw [State.putPair, State.wr_cons, State.wr_cons]
@[simp] theorem State.putPair_pads (a b v : Nat) : (s.putPair a b v).pads = s.pads := by rw [State.putPair, State.wr_pads, State.wr_pads]
@[simp] theorem State.putPair_rings (a b v : Nat) : (s.putPair a b v).rings = s.rings := by rw [State.putPair, State.wr_rings, State.wr_rings]
@[simp] theorem State.putPair_vecs (a b v : Nat) : (s.putPair a b v).vecs = s.vecs := by rw [State.putPair, State.wr_vecs, State.wr_vecs]
@[simp] theorem State.putPair_hostFn (a b v : Nat) : (s.putPair a b v).hostFn = s.hostFn := by rw [State.putPair, State.wr_hostFn, State.wr_hostFn]
@[simp] theorem State.putPair_streams (a b v : Nat) : (s.putPair a b v).streams = s.streams := by rw [State.putPair, State.wr_streams, State.wr_streams]
@[simp] theorem State.putPair_staged (a b v : Nat) : (s.putPair a b v).staged = s.staged := by rw [State.putPair, State.wr_staged, State.wr_staged]
@[simp] theorem State.putPair_taking (a b v : Nat) : (s.putPair a b v).taking = s.taking := by rw [State.putPair, State.wr_taking, State.wr_taking]
@[simp] theorem State.putPair_tripped (a b v : Nat) : (s.putPair a b v).tripped = s.tripped := by rw [State.putPair, State.wr_tripped, State.wr_tripped]
@[simp] theorem State.putPair_gone (a b v : Nat) : (s.putPair a b v).gone = s.gone := by rw [State.putPair, State.wr_gone, State.wr_gone]

@[simp] theorem State.putTime_big (a b c : Nat) (d : DTime) : (s.putTime a b c d).big = s.big := by rw [State.putTime, State.wr_big, State.wr_big, State.wr_big]
@[simp] theorem State.putTime_dram (a b c : Nat) (d : DTime) : (s.putTime a b c d).dram = s.dram := by rw [State.putTime, State.wr_dram, State.wr_dram, State.wr_dram]
@[simp] theorem State.putTime_damage (a b c : Nat) (d : DTime) : (s.putTime a b c d).damage = s.damage := by rw [State.putTime, State.wr_damage, State.wr_damage, State.wr_damage]
@[simp] theorem State.putTime_host (a b c : Nat) (d : DTime) : (s.putTime a b c d).host = s.host := by rw [State.putTime, State.wr_host, State.wr_host, State.wr_host]
@[simp] theorem State.putTime_pending (a b c : Nat) (d : DTime) : (s.putTime a b c d).pending = s.pending := by rw [State.putTime, State.wr_pending, State.wr_pending, State.wr_pending]
@[simp] theorem State.putTime_free (a b c : Nat) (d : DTime) : (s.putTime a b c d).free = s.free := by rw [State.putTime, State.wr_free, State.wr_free, State.wr_free]
@[simp] theorem State.putTime_ticks (a b c : Nat) (d : DTime) : (s.putTime a b c d).ticks = s.ticks := by rw [State.putTime, State.wr_ticks, State.wr_ticks, State.wr_ticks]
@[simp] theorem State.putTime_time (a b c : Nat) (d : DTime) : (s.putTime a b c d).time = s.time := by rw [State.putTime, State.wr_time, State.wr_time, State.wr_time]
@[simp] theorem State.putTime_answer (a b c : Nat) (d : DTime) : (s.putTime a b c d).answer = s.answer := by rw [State.putTime, State.wr_answer, State.wr_answer, State.wr_answer]
@[simp] theorem State.putTime_dater (a b c : Nat) (d : DTime) : (s.putTime a b c d).dater = s.dater := by rw [State.putTime, State.wr_dater, State.wr_dater, State.wr_dater]
@[simp] theorem State.putTime_net (a b c : Nat) (d : DTime) : (s.putTime a b c d).net = s.net := by rw [State.putTime, State.wr_net, State.wr_net, State.wr_net]
@[simp] theorem State.putTime_bnd (a b c : Nat) (d : DTime) : (s.putTime a b c d).bnd = s.bnd := by rw [State.putTime, State.wr_bnd, State.wr_bnd, State.wr_bnd]
@[simp] theorem State.putTime_rgs (a b c : Nat) (d : DTime) : (s.putTime a b c d).rgs = s.rgs := by rw [State.putTime, State.wr_rgs, State.wr_rgs, State.wr_rgs]
@[simp] theorem State.putTime_harts (a b c : Nat) (d : DTime) : (s.putTime a b c d).harts = s.harts := by rw [State.putTime, State.wr_harts, State.wr_harts, State.wr_harts]
@[simp] theorem State.putTime_engines (a b c : Nat) (d : DTime) : (s.putTime a b c d).engines = s.engines := by rw [State.putTime, State.wr_engines, State.wr_engines, State.wr_engines]
@[simp] theorem State.putTime_copyCar (a b c : Nat) (d : DTime) : (s.putTime a b c d).copyCar = s.copyCar := by rw [State.putTime, State.wr_copyCar, State.wr_copyCar, State.wr_copyCar]
@[simp] theorem State.putTime_copyScb (a b c : Nat) (d : DTime) : (s.putTime a b c d).copyScb = s.copyScb := by rw [State.putTime, State.wr_copyScb, State.wr_copyScb, State.wr_copyScb]
@[simp] theorem State.putTime_mmu (a b c : Nat) (d : DTime) : (s.putTime a b c d).mmu = s.mmu := by rw [State.putTime, State.wr_mmu, State.wr_mmu, State.wr_mmu]
@[simp] theorem State.putTime_dma (a b c : Nat) (d : DTime) : (s.putTime a b c d).dma = s.dma := by rw [State.putTime, State.wr_dma, State.wr_dma, State.wr_dma]
@[simp] theorem State.putTime_levels (a b c : Nat) (d : DTime) : (s.putTime a b c d).levels = s.levels := by rw [State.putTime, State.wr_levels, State.wr_levels, State.wr_levels]
@[simp] theorem State.putTime_queues (a b c : Nat) (d : DTime) : (s.putTime a b c d).queues = s.queues := by rw [State.putTime, State.wr_queues, State.wr_queues, State.wr_queues]
@[simp] theorem State.putTime_pools (a b c : Nat) (d : DTime) : (s.putTime a b c d).pools = s.pools := by rw [State.putTime, State.wr_pools, State.wr_pools, State.wr_pools]
@[simp] theorem State.putTime_orphans (a b c : Nat) (d : DTime) : (s.putTime a b c d).orphans = s.orphans := by rw [State.putTime, State.wr_orphans, State.wr_orphans, State.wr_orphans]
@[simp] theorem State.putTime_chans (a b c : Nat) (d : DTime) : (s.putTime a b c d).chans = s.chans := by rw [State.putTime, State.wr_chans, State.wr_chans, State.wr_chans]
@[simp] theorem State.putTime_scrub (a b c : Nat) (d : DTime) : (s.putTime a b c d).scrub = s.scrub := by rw [State.putTime, State.wr_scrub, State.wr_scrub, State.wr_scrub]
@[simp] theorem State.putTime_cat (a b c : Nat) (d : DTime) : (s.putTime a b c d).cat = s.cat := by rw [State.putTime, State.wr_cat, State.wr_cat, State.wr_cat]
@[simp] theorem State.putTime_power (a b c : Nat) (d : DTime) : (s.putTime a b c d).power = s.power := by rw [State.putTime, State.wr_power, State.wr_power, State.wr_power]
@[simp] theorem State.putTime_keeper (a b c : Nat) (d : DTime) : (s.putTime a b c d).keeper = s.keeper := by rw [State.putTime, State.wr_keeper, State.wr_keeper, State.wr_keeper]
@[simp] theorem State.putTime_cons (a b c : Nat) (d : DTime) : (s.putTime a b c d).cons = s.cons := by rw [State.putTime, State.wr_cons, State.wr_cons, State.wr_cons]
@[simp] theorem State.putTime_pads (a b c : Nat) (d : DTime) : (s.putTime a b c d).pads = s.pads := by rw [State.putTime, State.wr_pads, State.wr_pads, State.wr_pads]
@[simp] theorem State.putTime_rings (a b c : Nat) (d : DTime) : (s.putTime a b c d).rings = s.rings := by rw [State.putTime, State.wr_rings, State.wr_rings, State.wr_rings]
@[simp] theorem State.putTime_vecs (a b c : Nat) (d : DTime) : (s.putTime a b c d).vecs = s.vecs := by rw [State.putTime, State.wr_vecs, State.wr_vecs, State.wr_vecs]
@[simp] theorem State.putTime_hostFn (a b c : Nat) (d : DTime) : (s.putTime a b c d).hostFn = s.hostFn := by rw [State.putTime, State.wr_hostFn, State.wr_hostFn, State.wr_hostFn]
@[simp] theorem State.putTime_streams (a b c : Nat) (d : DTime) : (s.putTime a b c d).streams = s.streams := by rw [State.putTime, State.wr_streams, State.wr_streams, State.wr_streams]
@[simp] theorem State.putTime_staged (a b c : Nat) (d : DTime) : (s.putTime a b c d).staged = s.staged := by rw [State.putTime, State.wr_staged, State.wr_staged, State.wr_staged]
@[simp] theorem State.putTime_taking (a b c : Nat) (d : DTime) : (s.putTime a b c d).taking = s.taking := by rw [State.putTime, State.wr_taking, State.wr_taking, State.wr_taking]
@[simp] theorem State.putTime_tripped (a b c : Nat) (d : DTime) : (s.putTime a b c d).tripped = s.tripped := by rw [State.putTime, State.wr_tripped, State.wr_tripped, State.wr_tripped]
@[simp] theorem State.putTime_gone (a b c : Nat) (d : DTime) : (s.putTime a b c d).gone = s.gone := by rw [State.putTime, State.wr_gone, State.wr_gone, State.wr_gone]

@[simp] theorem State.reply_big (l : List Nat) : (s.reply l).big = s.big := by unfold State.reply; rfl
@[simp] theorem State.reply_regs (l : List Nat) : (s.reply l).regs = s.regs := by unfold State.reply; rfl
@[simp] theorem State.reply_dram (l : List Nat) : (s.reply l).dram = s.dram := by unfold State.reply; rfl
@[simp] theorem State.reply_damage (l : List Nat) : (s.reply l).damage = s.damage := by unfold State.reply; rfl
@[simp] theorem State.reply_host (l : List Nat) : (s.reply l).host = s.host := by unfold State.reply; rfl
@[simp] theorem State.reply_pending (l : List Nat) : (s.reply l).pending = s.pending := by unfold State.reply; rfl
@[simp] theorem State.reply_free (l : List Nat) : (s.reply l).free = s.free := by unfold State.reply; rfl
@[simp] theorem State.reply_ticks (l : List Nat) : (s.reply l).ticks = s.ticks := by unfold State.reply; rfl
@[simp] theorem State.reply_time (l : List Nat) : (s.reply l).time = s.time := by unfold State.reply; rfl
@[simp] theorem State.reply_dater (l : List Nat) : (s.reply l).dater = s.dater := by unfold State.reply; rfl
@[simp] theorem State.reply_net (l : List Nat) : (s.reply l).net = s.net := by unfold State.reply; rfl
@[simp] theorem State.reply_bnd (l : List Nat) : (s.reply l).bnd = s.bnd := by unfold State.reply; rfl
@[simp] theorem State.reply_rgs (l : List Nat) : (s.reply l).rgs = s.rgs := by unfold State.reply; rfl
@[simp] theorem State.reply_harts (l : List Nat) : (s.reply l).harts = s.harts := by unfold State.reply; rfl
@[simp] theorem State.reply_engines (l : List Nat) : (s.reply l).engines = s.engines := by unfold State.reply; rfl
@[simp] theorem State.reply_copyCar (l : List Nat) : (s.reply l).copyCar = s.copyCar := by unfold State.reply; rfl
@[simp] theorem State.reply_copyScb (l : List Nat) : (s.reply l).copyScb = s.copyScb := by unfold State.reply; rfl
@[simp] theorem State.reply_mmu (l : List Nat) : (s.reply l).mmu = s.mmu := by unfold State.reply; rfl
@[simp] theorem State.reply_dma (l : List Nat) : (s.reply l).dma = s.dma := by unfold State.reply; rfl
@[simp] theorem State.reply_levels (l : List Nat) : (s.reply l).levels = s.levels := by unfold State.reply; rfl
@[simp] theorem State.reply_queues (l : List Nat) : (s.reply l).queues = s.queues := by unfold State.reply; rfl
@[simp] theorem State.reply_pools (l : List Nat) : (s.reply l).pools = s.pools := by unfold State.reply; rfl
@[simp] theorem State.reply_orphans (l : List Nat) : (s.reply l).orphans = s.orphans := by unfold State.reply; rfl
@[simp] theorem State.reply_chans (l : List Nat) : (s.reply l).chans = s.chans := by unfold State.reply; rfl
@[simp] theorem State.reply_scrub (l : List Nat) : (s.reply l).scrub = s.scrub := by unfold State.reply; rfl
@[simp] theorem State.reply_cat (l : List Nat) : (s.reply l).cat = s.cat := by unfold State.reply; rfl
@[simp] theorem State.reply_power (l : List Nat) : (s.reply l).power = s.power := by unfold State.reply; rfl
@[simp] theorem State.reply_keeper (l : List Nat) : (s.reply l).keeper = s.keeper := by unfold State.reply; rfl
@[simp] theorem State.reply_cons (l : List Nat) : (s.reply l).cons = s.cons := by unfold State.reply; rfl
@[simp] theorem State.reply_pads (l : List Nat) : (s.reply l).pads = s.pads := by unfold State.reply; rfl
@[simp] theorem State.reply_rings (l : List Nat) : (s.reply l).rings = s.rings := by unfold State.reply; rfl
@[simp] theorem State.reply_vecs (l : List Nat) : (s.reply l).vecs = s.vecs := by unfold State.reply; rfl
@[simp] theorem State.reply_hostFn (l : List Nat) : (s.reply l).hostFn = s.hostFn := by unfold State.reply; rfl
@[simp] theorem State.reply_streams (l : List Nat) : (s.reply l).streams = s.streams := by unfold State.reply; rfl
@[simp] theorem State.reply_staged (l : List Nat) : (s.reply l).staged = s.staged := by unfold State.reply; rfl
@[simp] theorem State.reply_taking (l : List Nat) : (s.reply l).taking = s.taking := by unfold State.reply; rfl
@[simp] theorem State.reply_tripped (l : List Nat) : (s.reply l).tripped = s.tripped := by unfold State.reply; rfl
@[simp] theorem State.reply_gone (l : List Nat) : (s.reply l).gone = s.gone := by unfold State.reply; rfl

@[simp] theorem State.setRing_big (n : Nat) (x : Ring) : (s.setRing n x).big = s.big := by unfold State.setRing; rfl
@[simp] theorem State.setRing_regs (n : Nat) (x : Ring) : (s.setRing n x).regs = s.regs := by unfold State.setRing; rfl
@[simp] theorem State.setRing_dram (n : Nat) (x : Ring) : (s.setRing n x).dram = s.dram := by unfold State.setRing; rfl
@[simp] theorem State.setRing_damage (n : Nat) (x : Ring) : (s.setRing n x).damage = s.damage := by unfold State.setRing; rfl
@[simp] theorem State.setRing_host (n : Nat) (x : Ring) : (s.setRing n x).host = s.host := by unfold State.setRing; rfl
@[simp] theorem State.setRing_pending (n : Nat) (x : Ring) : (s.setRing n x).pending = s.pending := by unfold State.setRing; rfl
@[simp] theorem State.setRing_free (n : Nat) (x : Ring) : (s.setRing n x).free = s.free := by unfold State.setRing; rfl
@[simp] theorem State.setRing_ticks (n : Nat) (x : Ring) : (s.setRing n x).ticks = s.ticks := by unfold State.setRing; rfl
@[simp] theorem State.setRing_time (n : Nat) (x : Ring) : (s.setRing n x).time = s.time := by unfold State.setRing; rfl
@[simp] theorem State.setRing_answer (n : Nat) (x : Ring) : (s.setRing n x).answer = s.answer := by unfold State.setRing; rfl
@[simp] theorem State.setRing_dater (n : Nat) (x : Ring) : (s.setRing n x).dater = s.dater := by unfold State.setRing; rfl
@[simp] theorem State.setRing_net (n : Nat) (x : Ring) : (s.setRing n x).net = s.net := by unfold State.setRing; rfl
@[simp] theorem State.setRing_bnd (n : Nat) (x : Ring) : (s.setRing n x).bnd = s.bnd := by unfold State.setRing; rfl
@[simp] theorem State.setRing_rgs (n : Nat) (x : Ring) : (s.setRing n x).rgs = s.rgs := by unfold State.setRing; rfl
@[simp] theorem State.setRing_harts (n : Nat) (x : Ring) : (s.setRing n x).harts = s.harts := by unfold State.setRing; rfl
@[simp] theorem State.setRing_engines (n : Nat) (x : Ring) : (s.setRing n x).engines = s.engines := by unfold State.setRing; rfl
@[simp] theorem State.setRing_copyCar (n : Nat) (x : Ring) : (s.setRing n x).copyCar = s.copyCar := by unfold State.setRing; rfl
@[simp] theorem State.setRing_copyScb (n : Nat) (x : Ring) : (s.setRing n x).copyScb = s.copyScb := by unfold State.setRing; rfl
@[simp] theorem State.setRing_mmu (n : Nat) (x : Ring) : (s.setRing n x).mmu = s.mmu := by unfold State.setRing; rfl
@[simp] theorem State.setRing_dma (n : Nat) (x : Ring) : (s.setRing n x).dma = s.dma := by unfold State.setRing; rfl
@[simp] theorem State.setRing_levels (n : Nat) (x : Ring) : (s.setRing n x).levels = s.levels := by unfold State.setRing; rfl
@[simp] theorem State.setRing_queues (n : Nat) (x : Ring) : (s.setRing n x).queues = s.queues := by unfold State.setRing; rfl
@[simp] theorem State.setRing_pools (n : Nat) (x : Ring) : (s.setRing n x).pools = s.pools := by unfold State.setRing; rfl
@[simp] theorem State.setRing_orphans (n : Nat) (x : Ring) : (s.setRing n x).orphans = s.orphans := by unfold State.setRing; rfl
@[simp] theorem State.setRing_chans (n : Nat) (x : Ring) : (s.setRing n x).chans = s.chans := by unfold State.setRing; rfl
@[simp] theorem State.setRing_scrub (n : Nat) (x : Ring) : (s.setRing n x).scrub = s.scrub := by unfold State.setRing; rfl
@[simp] theorem State.setRing_cat (n : Nat) (x : Ring) : (s.setRing n x).cat = s.cat := by unfold State.setRing; rfl
@[simp] theorem State.setRing_power (n : Nat) (x : Ring) : (s.setRing n x).power = s.power := by unfold State.setRing; rfl
@[simp] theorem State.setRing_keeper (n : Nat) (x : Ring) : (s.setRing n x).keeper = s.keeper := by unfold State.setRing; rfl
@[simp] theorem State.setRing_cons (n : Nat) (x : Ring) : (s.setRing n x).cons = s.cons := by unfold State.setRing; rfl
@[simp] theorem State.setRing_pads (n : Nat) (x : Ring) : (s.setRing n x).pads = s.pads := by unfold State.setRing; rfl
@[simp] theorem State.setRing_vecs (n : Nat) (x : Ring) : (s.setRing n x).vecs = s.vecs := by unfold State.setRing; rfl
@[simp] theorem State.setRing_hostFn (n : Nat) (x : Ring) : (s.setRing n x).hostFn = s.hostFn := by unfold State.setRing; rfl
@[simp] theorem State.setRing_streams (n : Nat) (x : Ring) : (s.setRing n x).streams = s.streams := by unfold State.setRing; rfl
@[simp] theorem State.setRing_staged (n : Nat) (x : Ring) : (s.setRing n x).staged = s.staged := by unfold State.setRing; rfl
@[simp] theorem State.setRing_taking (n : Nat) (x : Ring) : (s.setRing n x).taking = s.taking := by unfold State.setRing; rfl
@[simp] theorem State.setRing_tripped (n : Nat) (x : Ring) : (s.setRing n x).tripped = s.tripped := by unfold State.setRing; rfl
@[simp] theorem State.setRing_gone (n : Nat) (x : Ring) : (s.setRing n x).gone = s.gone := by unfold State.setRing; rfl

@[simp] theorem State.setVec_big (n : Nat) (x : Vec) : (s.setVec n x).big = s.big := by unfold State.setVec; rfl
@[simp] theorem State.setVec_regs (n : Nat) (x : Vec) : (s.setVec n x).regs = s.regs := by unfold State.setVec; rfl
@[simp] theorem State.setVec_dram (n : Nat) (x : Vec) : (s.setVec n x).dram = s.dram := by unfold State.setVec; rfl
@[simp] theorem State.setVec_damage (n : Nat) (x : Vec) : (s.setVec n x).damage = s.damage := by unfold State.setVec; rfl
@[simp] theorem State.setVec_host (n : Nat) (x : Vec) : (s.setVec n x).host = s.host := by unfold State.setVec; rfl
@[simp] theorem State.setVec_pending (n : Nat) (x : Vec) : (s.setVec n x).pending = s.pending := by unfold State.setVec; rfl
@[simp] theorem State.setVec_free (n : Nat) (x : Vec) : (s.setVec n x).free = s.free := by unfold State.setVec; rfl
@[simp] theorem State.setVec_ticks (n : Nat) (x : Vec) : (s.setVec n x).ticks = s.ticks := by unfold State.setVec; rfl
@[simp] theorem State.setVec_time (n : Nat) (x : Vec) : (s.setVec n x).time = s.time := by unfold State.setVec; rfl
@[simp] theorem State.setVec_answer (n : Nat) (x : Vec) : (s.setVec n x).answer = s.answer := by unfold State.setVec; rfl
@[simp] theorem State.setVec_dater (n : Nat) (x : Vec) : (s.setVec n x).dater = s.dater := by unfold State.setVec; rfl
@[simp] theorem State.setVec_net (n : Nat) (x : Vec) : (s.setVec n x).net = s.net := by unfold State.setVec; rfl
@[simp] theorem State.setVec_bnd (n : Nat) (x : Vec) : (s.setVec n x).bnd = s.bnd := by unfold State.setVec; rfl
@[simp] theorem State.setVec_rgs (n : Nat) (x : Vec) : (s.setVec n x).rgs = s.rgs := by unfold State.setVec; rfl
@[simp] theorem State.setVec_harts (n : Nat) (x : Vec) : (s.setVec n x).harts = s.harts := by unfold State.setVec; rfl
@[simp] theorem State.setVec_engines (n : Nat) (x : Vec) : (s.setVec n x).engines = s.engines := by unfold State.setVec; rfl
@[simp] theorem State.setVec_copyCar (n : Nat) (x : Vec) : (s.setVec n x).copyCar = s.copyCar := by unfold State.setVec; rfl
@[simp] theorem State.setVec_copyScb (n : Nat) (x : Vec) : (s.setVec n x).copyScb = s.copyScb := by unfold State.setVec; rfl
@[simp] theorem State.setVec_mmu (n : Nat) (x : Vec) : (s.setVec n x).mmu = s.mmu := by unfold State.setVec; rfl
@[simp] theorem State.setVec_dma (n : Nat) (x : Vec) : (s.setVec n x).dma = s.dma := by unfold State.setVec; rfl
@[simp] theorem State.setVec_levels (n : Nat) (x : Vec) : (s.setVec n x).levels = s.levels := by unfold State.setVec; rfl
@[simp] theorem State.setVec_queues (n : Nat) (x : Vec) : (s.setVec n x).queues = s.queues := by unfold State.setVec; rfl
@[simp] theorem State.setVec_pools (n : Nat) (x : Vec) : (s.setVec n x).pools = s.pools := by unfold State.setVec; rfl
@[simp] theorem State.setVec_orphans (n : Nat) (x : Vec) : (s.setVec n x).orphans = s.orphans := by unfold State.setVec; rfl
@[simp] theorem State.setVec_chans (n : Nat) (x : Vec) : (s.setVec n x).chans = s.chans := by unfold State.setVec; rfl
@[simp] theorem State.setVec_scrub (n : Nat) (x : Vec) : (s.setVec n x).scrub = s.scrub := by unfold State.setVec; rfl
@[simp] theorem State.setVec_cat (n : Nat) (x : Vec) : (s.setVec n x).cat = s.cat := by unfold State.setVec; rfl
@[simp] theorem State.setVec_power (n : Nat) (x : Vec) : (s.setVec n x).power = s.power := by unfold State.setVec; rfl
@[simp] theorem State.setVec_keeper (n : Nat) (x : Vec) : (s.setVec n x).keeper = s.keeper := by unfold State.setVec; rfl
@[simp] theorem State.setVec_cons (n : Nat) (x : Vec) : (s.setVec n x).cons = s.cons := by unfold State.setVec; rfl
@[simp] theorem State.setVec_pads (n : Nat) (x : Vec) : (s.setVec n x).pads = s.pads := by unfold State.setVec; rfl
@[simp] theorem State.setVec_rings (n : Nat) (x : Vec) : (s.setVec n x).rings = s.rings := by unfold State.setVec; rfl
@[simp] theorem State.setVec_hostFn (n : Nat) (x : Vec) : (s.setVec n x).hostFn = s.hostFn := by unfold State.setVec; rfl
@[simp] theorem State.setVec_streams (n : Nat) (x : Vec) : (s.setVec n x).streams = s.streams := by unfold State.setVec; rfl
@[simp] theorem State.setVec_staged (n : Nat) (x : Vec) : (s.setVec n x).staged = s.staged := by unfold State.setVec; rfl
@[simp] theorem State.setVec_taking (n : Nat) (x : Vec) : (s.setVec n x).taking = s.taking := by unfold State.setVec; rfl
@[simp] theorem State.setVec_tripped (n : Nat) (x : Vec) : (s.setVec n x).tripped = s.tripped := by unfold State.setVec; rfl
@[simp] theorem State.setVec_gone (n : Nat) (x : Vec) : (s.setVec n x).gone = s.gone := by unfold State.setVec; rfl

@[simp] theorem State.setStream_big (n : Nat) (x : Stream) : (s.setStream n x).big = s.big := by unfold State.setStream; rfl
@[simp] theorem State.setStream_regs (n : Nat) (x : Stream) : (s.setStream n x).regs = s.regs := by unfold State.setStream; rfl
@[simp] theorem State.setStream_dram (n : Nat) (x : Stream) : (s.setStream n x).dram = s.dram := by unfold State.setStream; rfl
@[simp] theorem State.setStream_damage (n : Nat) (x : Stream) : (s.setStream n x).damage = s.damage := by unfold State.setStream; rfl
@[simp] theorem State.setStream_host (n : Nat) (x : Stream) : (s.setStream n x).host = s.host := by unfold State.setStream; rfl
@[simp] theorem State.setStream_pending (n : Nat) (x : Stream) : (s.setStream n x).pending = s.pending := by unfold State.setStream; rfl
@[simp] theorem State.setStream_free (n : Nat) (x : Stream) : (s.setStream n x).free = s.free := by unfold State.setStream; rfl
@[simp] theorem State.setStream_ticks (n : Nat) (x : Stream) : (s.setStream n x).ticks = s.ticks := by unfold State.setStream; rfl
@[simp] theorem State.setStream_time (n : Nat) (x : Stream) : (s.setStream n x).time = s.time := by unfold State.setStream; rfl
@[simp] theorem State.setStream_answer (n : Nat) (x : Stream) : (s.setStream n x).answer = s.answer := by unfold State.setStream; rfl
@[simp] theorem State.setStream_dater (n : Nat) (x : Stream) : (s.setStream n x).dater = s.dater := by unfold State.setStream; rfl
@[simp] theorem State.setStream_net (n : Nat) (x : Stream) : (s.setStream n x).net = s.net := by unfold State.setStream; rfl
@[simp] theorem State.setStream_bnd (n : Nat) (x : Stream) : (s.setStream n x).bnd = s.bnd := by unfold State.setStream; rfl
@[simp] theorem State.setStream_rgs (n : Nat) (x : Stream) : (s.setStream n x).rgs = s.rgs := by unfold State.setStream; rfl
@[simp] theorem State.setStream_harts (n : Nat) (x : Stream) : (s.setStream n x).harts = s.harts := by unfold State.setStream; rfl
@[simp] theorem State.setStream_engines (n : Nat) (x : Stream) : (s.setStream n x).engines = s.engines := by unfold State.setStream; rfl
@[simp] theorem State.setStream_copyCar (n : Nat) (x : Stream) : (s.setStream n x).copyCar = s.copyCar := by unfold State.setStream; rfl
@[simp] theorem State.setStream_copyScb (n : Nat) (x : Stream) : (s.setStream n x).copyScb = s.copyScb := by unfold State.setStream; rfl
@[simp] theorem State.setStream_mmu (n : Nat) (x : Stream) : (s.setStream n x).mmu = s.mmu := by unfold State.setStream; rfl
@[simp] theorem State.setStream_dma (n : Nat) (x : Stream) : (s.setStream n x).dma = s.dma := by unfold State.setStream; rfl
@[simp] theorem State.setStream_levels (n : Nat) (x : Stream) : (s.setStream n x).levels = s.levels := by unfold State.setStream; rfl
@[simp] theorem State.setStream_queues (n : Nat) (x : Stream) : (s.setStream n x).queues = s.queues := by unfold State.setStream; rfl
@[simp] theorem State.setStream_pools (n : Nat) (x : Stream) : (s.setStream n x).pools = s.pools := by unfold State.setStream; rfl
@[simp] theorem State.setStream_orphans (n : Nat) (x : Stream) : (s.setStream n x).orphans = s.orphans := by unfold State.setStream; rfl
@[simp] theorem State.setStream_chans (n : Nat) (x : Stream) : (s.setStream n x).chans = s.chans := by unfold State.setStream; rfl
@[simp] theorem State.setStream_scrub (n : Nat) (x : Stream) : (s.setStream n x).scrub = s.scrub := by unfold State.setStream; rfl
@[simp] theorem State.setStream_cat (n : Nat) (x : Stream) : (s.setStream n x).cat = s.cat := by unfold State.setStream; rfl
@[simp] theorem State.setStream_power (n : Nat) (x : Stream) : (s.setStream n x).power = s.power := by unfold State.setStream; rfl
@[simp] theorem State.setStream_keeper (n : Nat) (x : Stream) : (s.setStream n x).keeper = s.keeper := by unfold State.setStream; rfl
@[simp] theorem State.setStream_cons (n : Nat) (x : Stream) : (s.setStream n x).cons = s.cons := by unfold State.setStream; rfl
@[simp] theorem State.setStream_pads (n : Nat) (x : Stream) : (s.setStream n x).pads = s.pads := by unfold State.setStream; rfl
@[simp] theorem State.setStream_rings (n : Nat) (x : Stream) : (s.setStream n x).rings = s.rings := by unfold State.setStream; rfl
@[simp] theorem State.setStream_vecs (n : Nat) (x : Stream) : (s.setStream n x).vecs = s.vecs := by unfold State.setStream; rfl
@[simp] theorem State.setStream_hostFn (n : Nat) (x : Stream) : (s.setStream n x).hostFn = s.hostFn := by unfold State.setStream; rfl
@[simp] theorem State.setStream_staged (n : Nat) (x : Stream) : (s.setStream n x).staged = s.staged := by unfold State.setStream; rfl
@[simp] theorem State.setStream_taking (n : Nat) (x : Stream) : (s.setStream n x).taking = s.taking := by unfold State.setStream; rfl
@[simp] theorem State.setStream_tripped (n : Nat) (x : Stream) : (s.setStream n x).tripped = s.tripped := by unfold State.setStream; rfl
@[simp] theorem State.setStream_gone (n : Nat) (x : Stream) : (s.setStream n x).gone = s.gone := by unfold State.setStream; rfl

@[simp] theorem State.setHart_big (n : Nat) (x : Hart) : (s.setHart n x).big = s.big := by unfold State.setHart; rfl
@[simp] theorem State.setHart_regs (n : Nat) (x : Hart) : (s.setHart n x).regs = s.regs := by unfold State.setHart; rfl
@[simp] theorem State.setHart_dram (n : Nat) (x : Hart) : (s.setHart n x).dram = s.dram := by unfold State.setHart; rfl
@[simp] theorem State.setHart_damage (n : Nat) (x : Hart) : (s.setHart n x).damage = s.damage := by unfold State.setHart; rfl
@[simp] theorem State.setHart_host (n : Nat) (x : Hart) : (s.setHart n x).host = s.host := by unfold State.setHart; rfl
@[simp] theorem State.setHart_pending (n : Nat) (x : Hart) : (s.setHart n x).pending = s.pending := by unfold State.setHart; rfl
@[simp] theorem State.setHart_free (n : Nat) (x : Hart) : (s.setHart n x).free = s.free := by unfold State.setHart; rfl
@[simp] theorem State.setHart_ticks (n : Nat) (x : Hart) : (s.setHart n x).ticks = s.ticks := by unfold State.setHart; rfl
@[simp] theorem State.setHart_time (n : Nat) (x : Hart) : (s.setHart n x).time = s.time := by unfold State.setHart; rfl
@[simp] theorem State.setHart_answer (n : Nat) (x : Hart) : (s.setHart n x).answer = s.answer := by unfold State.setHart; rfl
@[simp] theorem State.setHart_dater (n : Nat) (x : Hart) : (s.setHart n x).dater = s.dater := by unfold State.setHart; rfl
@[simp] theorem State.setHart_net (n : Nat) (x : Hart) : (s.setHart n x).net = s.net := by unfold State.setHart; rfl
@[simp] theorem State.setHart_bnd (n : Nat) (x : Hart) : (s.setHart n x).bnd = s.bnd := by unfold State.setHart; rfl
@[simp] theorem State.setHart_rgs (n : Nat) (x : Hart) : (s.setHart n x).rgs = s.rgs := by unfold State.setHart; rfl
@[simp] theorem State.setHart_engines (n : Nat) (x : Hart) : (s.setHart n x).engines = s.engines := by unfold State.setHart; rfl
@[simp] theorem State.setHart_copyCar (n : Nat) (x : Hart) : (s.setHart n x).copyCar = s.copyCar := by unfold State.setHart; rfl
@[simp] theorem State.setHart_copyScb (n : Nat) (x : Hart) : (s.setHart n x).copyScb = s.copyScb := by unfold State.setHart; rfl
@[simp] theorem State.setHart_mmu (n : Nat) (x : Hart) : (s.setHart n x).mmu = s.mmu := by unfold State.setHart; rfl
@[simp] theorem State.setHart_dma (n : Nat) (x : Hart) : (s.setHart n x).dma = s.dma := by unfold State.setHart; rfl
@[simp] theorem State.setHart_levels (n : Nat) (x : Hart) : (s.setHart n x).levels = s.levels := by unfold State.setHart; rfl
@[simp] theorem State.setHart_queues (n : Nat) (x : Hart) : (s.setHart n x).queues = s.queues := by unfold State.setHart; rfl
@[simp] theorem State.setHart_pools (n : Nat) (x : Hart) : (s.setHart n x).pools = s.pools := by unfold State.setHart; rfl
@[simp] theorem State.setHart_orphans (n : Nat) (x : Hart) : (s.setHart n x).orphans = s.orphans := by unfold State.setHart; rfl
@[simp] theorem State.setHart_chans (n : Nat) (x : Hart) : (s.setHart n x).chans = s.chans := by unfold State.setHart; rfl
@[simp] theorem State.setHart_scrub (n : Nat) (x : Hart) : (s.setHart n x).scrub = s.scrub := by unfold State.setHart; rfl
@[simp] theorem State.setHart_cat (n : Nat) (x : Hart) : (s.setHart n x).cat = s.cat := by unfold State.setHart; rfl
@[simp] theorem State.setHart_power (n : Nat) (x : Hart) : (s.setHart n x).power = s.power := by unfold State.setHart; rfl
@[simp] theorem State.setHart_keeper (n : Nat) (x : Hart) : (s.setHart n x).keeper = s.keeper := by unfold State.setHart; rfl
@[simp] theorem State.setHart_cons (n : Nat) (x : Hart) : (s.setHart n x).cons = s.cons := by unfold State.setHart; rfl
@[simp] theorem State.setHart_pads (n : Nat) (x : Hart) : (s.setHart n x).pads = s.pads := by unfold State.setHart; rfl
@[simp] theorem State.setHart_rings (n : Nat) (x : Hart) : (s.setHart n x).rings = s.rings := by unfold State.setHart; rfl
@[simp] theorem State.setHart_vecs (n : Nat) (x : Hart) : (s.setHart n x).vecs = s.vecs := by unfold State.setHart; rfl
@[simp] theorem State.setHart_hostFn (n : Nat) (x : Hart) : (s.setHart n x).hostFn = s.hostFn := by unfold State.setHart; rfl
@[simp] theorem State.setHart_streams (n : Nat) (x : Hart) : (s.setHart n x).streams = s.streams := by unfold State.setHart; rfl
@[simp] theorem State.setHart_staged (n : Nat) (x : Hart) : (s.setHart n x).staged = s.staged := by unfold State.setHart; rfl
@[simp] theorem State.setHart_taking (n : Nat) (x : Hart) : (s.setHart n x).taking = s.taking := by unfold State.setHart; rfl
@[simp] theorem State.setHart_tripped (n : Nat) (x : Hart) : (s.setHart n x).tripped = s.tripped := by unfold State.setHart; rfl
@[simp] theorem State.setHart_gone (n : Nat) (x : Hart) : (s.setHart n x).gone = s.gone := by unfold State.setHart; rfl

@[simp] theorem State.setEngine_big (n : Nat) (x : Engine) : (s.setEngine n x).big = s.big := by unfold State.setEngine; rfl
@[simp] theorem State.setEngine_regs (n : Nat) (x : Engine) : (s.setEngine n x).regs = s.regs := by unfold State.setEngine; rfl
@[simp] theorem State.setEngine_dram (n : Nat) (x : Engine) : (s.setEngine n x).dram = s.dram := by unfold State.setEngine; rfl
@[simp] theorem State.setEngine_damage (n : Nat) (x : Engine) : (s.setEngine n x).damage = s.damage := by unfold State.setEngine; rfl
@[simp] theorem State.setEngine_host (n : Nat) (x : Engine) : (s.setEngine n x).host = s.host := by unfold State.setEngine; rfl
@[simp] theorem State.setEngine_pending (n : Nat) (x : Engine) : (s.setEngine n x).pending = s.pending := by unfold State.setEngine; rfl
@[simp] theorem State.setEngine_free (n : Nat) (x : Engine) : (s.setEngine n x).free = s.free := by unfold State.setEngine; rfl
@[simp] theorem State.setEngine_ticks (n : Nat) (x : Engine) : (s.setEngine n x).ticks = s.ticks := by unfold State.setEngine; rfl
@[simp] theorem State.setEngine_time (n : Nat) (x : Engine) : (s.setEngine n x).time = s.time := by unfold State.setEngine; rfl
@[simp] theorem State.setEngine_answer (n : Nat) (x : Engine) : (s.setEngine n x).answer = s.answer := by unfold State.setEngine; rfl
@[simp] theorem State.setEngine_dater (n : Nat) (x : Engine) : (s.setEngine n x).dater = s.dater := by unfold State.setEngine; rfl
@[simp] theorem State.setEngine_net (n : Nat) (x : Engine) : (s.setEngine n x).net = s.net := by unfold State.setEngine; rfl
@[simp] theorem State.setEngine_bnd (n : Nat) (x : Engine) : (s.setEngine n x).bnd = s.bnd := by unfold State.setEngine; rfl
@[simp] theorem State.setEngine_rgs (n : Nat) (x : Engine) : (s.setEngine n x).rgs = s.rgs := by unfold State.setEngine; rfl
@[simp] theorem State.setEngine_harts (n : Nat) (x : Engine) : (s.setEngine n x).harts = s.harts := by unfold State.setEngine; rfl
@[simp] theorem State.setEngine_copyCar (n : Nat) (x : Engine) : (s.setEngine n x).copyCar = s.copyCar := by unfold State.setEngine; rfl
@[simp] theorem State.setEngine_copyScb (n : Nat) (x : Engine) : (s.setEngine n x).copyScb = s.copyScb := by unfold State.setEngine; rfl
@[simp] theorem State.setEngine_mmu (n : Nat) (x : Engine) : (s.setEngine n x).mmu = s.mmu := by unfold State.setEngine; rfl
@[simp] theorem State.setEngine_dma (n : Nat) (x : Engine) : (s.setEngine n x).dma = s.dma := by unfold State.setEngine; rfl
@[simp] theorem State.setEngine_levels (n : Nat) (x : Engine) : (s.setEngine n x).levels = s.levels := by unfold State.setEngine; rfl
@[simp] theorem State.setEngine_queues (n : Nat) (x : Engine) : (s.setEngine n x).queues = s.queues := by unfold State.setEngine; rfl
@[simp] theorem State.setEngine_pools (n : Nat) (x : Engine) : (s.setEngine n x).pools = s.pools := by unfold State.setEngine; rfl
@[simp] theorem State.setEngine_orphans (n : Nat) (x : Engine) : (s.setEngine n x).orphans = s.orphans := by unfold State.setEngine; rfl
@[simp] theorem State.setEngine_chans (n : Nat) (x : Engine) : (s.setEngine n x).chans = s.chans := by unfold State.setEngine; rfl
@[simp] theorem State.setEngine_scrub (n : Nat) (x : Engine) : (s.setEngine n x).scrub = s.scrub := by unfold State.setEngine; rfl
@[simp] theorem State.setEngine_cat (n : Nat) (x : Engine) : (s.setEngine n x).cat = s.cat := by unfold State.setEngine; rfl
@[simp] theorem State.setEngine_power (n : Nat) (x : Engine) : (s.setEngine n x).power = s.power := by unfold State.setEngine; rfl
@[simp] theorem State.setEngine_keeper (n : Nat) (x : Engine) : (s.setEngine n x).keeper = s.keeper := by unfold State.setEngine; rfl
@[simp] theorem State.setEngine_cons (n : Nat) (x : Engine) : (s.setEngine n x).cons = s.cons := by unfold State.setEngine; rfl
@[simp] theorem State.setEngine_pads (n : Nat) (x : Engine) : (s.setEngine n x).pads = s.pads := by unfold State.setEngine; rfl
@[simp] theorem State.setEngine_rings (n : Nat) (x : Engine) : (s.setEngine n x).rings = s.rings := by unfold State.setEngine; rfl
@[simp] theorem State.setEngine_vecs (n : Nat) (x : Engine) : (s.setEngine n x).vecs = s.vecs := by unfold State.setEngine; rfl
@[simp] theorem State.setEngine_hostFn (n : Nat) (x : Engine) : (s.setEngine n x).hostFn = s.hostFn := by unfold State.setEngine; rfl
@[simp] theorem State.setEngine_streams (n : Nat) (x : Engine) : (s.setEngine n x).streams = s.streams := by unfold State.setEngine; rfl
@[simp] theorem State.setEngine_staged (n : Nat) (x : Engine) : (s.setEngine n x).staged = s.staged := by unfold State.setEngine; rfl
@[simp] theorem State.setEngine_taking (n : Nat) (x : Engine) : (s.setEngine n x).taking = s.taking := by unfold State.setEngine; rfl
@[simp] theorem State.setEngine_tripped (n : Nat) (x : Engine) : (s.setEngine n x).tripped = s.tripped := by unfold State.setEngine; rfl
@[simp] theorem State.setEngine_gone (n : Nat) (x : Engine) : (s.setEngine n x).gone = s.gone := by unfold State.setEngine; rfl

@[simp] theorem State.setDmaCh_big (n : Nat) (x : DmaCh) : (s.setDmaCh n x).big = s.big := by unfold State.setDmaCh; rfl
@[simp] theorem State.setDmaCh_regs (n : Nat) (x : DmaCh) : (s.setDmaCh n x).regs = s.regs := by unfold State.setDmaCh; rfl
@[simp] theorem State.setDmaCh_dram (n : Nat) (x : DmaCh) : (s.setDmaCh n x).dram = s.dram := by unfold State.setDmaCh; rfl
@[simp] theorem State.setDmaCh_damage (n : Nat) (x : DmaCh) : (s.setDmaCh n x).damage = s.damage := by unfold State.setDmaCh; rfl
@[simp] theorem State.setDmaCh_host (n : Nat) (x : DmaCh) : (s.setDmaCh n x).host = s.host := by unfold State.setDmaCh; rfl
@[simp] theorem State.setDmaCh_pending (n : Nat) (x : DmaCh) : (s.setDmaCh n x).pending = s.pending := by unfold State.setDmaCh; rfl
@[simp] theorem State.setDmaCh_free (n : Nat) (x : DmaCh) : (s.setDmaCh n x).free = s.free := by unfold State.setDmaCh; rfl
@[simp] theorem State.setDmaCh_ticks (n : Nat) (x : DmaCh) : (s.setDmaCh n x).ticks = s.ticks := by unfold State.setDmaCh; rfl
@[simp] theorem State.setDmaCh_time (n : Nat) (x : DmaCh) : (s.setDmaCh n x).time = s.time := by unfold State.setDmaCh; rfl
@[simp] theorem State.setDmaCh_answer (n : Nat) (x : DmaCh) : (s.setDmaCh n x).answer = s.answer := by unfold State.setDmaCh; rfl
@[simp] theorem State.setDmaCh_dater (n : Nat) (x : DmaCh) : (s.setDmaCh n x).dater = s.dater := by unfold State.setDmaCh; rfl
@[simp] theorem State.setDmaCh_net (n : Nat) (x : DmaCh) : (s.setDmaCh n x).net = s.net := by unfold State.setDmaCh; rfl
@[simp] theorem State.setDmaCh_bnd (n : Nat) (x : DmaCh) : (s.setDmaCh n x).bnd = s.bnd := by unfold State.setDmaCh; rfl
@[simp] theorem State.setDmaCh_rgs (n : Nat) (x : DmaCh) : (s.setDmaCh n x).rgs = s.rgs := by unfold State.setDmaCh; rfl
@[simp] theorem State.setDmaCh_harts (n : Nat) (x : DmaCh) : (s.setDmaCh n x).harts = s.harts := by unfold State.setDmaCh; rfl
@[simp] theorem State.setDmaCh_engines (n : Nat) (x : DmaCh) : (s.setDmaCh n x).engines = s.engines := by unfold State.setDmaCh; rfl
@[simp] theorem State.setDmaCh_copyCar (n : Nat) (x : DmaCh) : (s.setDmaCh n x).copyCar = s.copyCar := by unfold State.setDmaCh; rfl
@[simp] theorem State.setDmaCh_copyScb (n : Nat) (x : DmaCh) : (s.setDmaCh n x).copyScb = s.copyScb := by unfold State.setDmaCh; rfl
@[simp] theorem State.setDmaCh_mmu (n : Nat) (x : DmaCh) : (s.setDmaCh n x).mmu = s.mmu := by unfold State.setDmaCh; rfl
@[simp] theorem State.setDmaCh_levels (n : Nat) (x : DmaCh) : (s.setDmaCh n x).levels = s.levels := by unfold State.setDmaCh; rfl
@[simp] theorem State.setDmaCh_queues (n : Nat) (x : DmaCh) : (s.setDmaCh n x).queues = s.queues := by unfold State.setDmaCh; rfl
@[simp] theorem State.setDmaCh_pools (n : Nat) (x : DmaCh) : (s.setDmaCh n x).pools = s.pools := by unfold State.setDmaCh; rfl
@[simp] theorem State.setDmaCh_orphans (n : Nat) (x : DmaCh) : (s.setDmaCh n x).orphans = s.orphans := by unfold State.setDmaCh; rfl
@[simp] theorem State.setDmaCh_chans (n : Nat) (x : DmaCh) : (s.setDmaCh n x).chans = s.chans := by unfold State.setDmaCh; rfl
@[simp] theorem State.setDmaCh_scrub (n : Nat) (x : DmaCh) : (s.setDmaCh n x).scrub = s.scrub := by unfold State.setDmaCh; rfl
@[simp] theorem State.setDmaCh_cat (n : Nat) (x : DmaCh) : (s.setDmaCh n x).cat = s.cat := by unfold State.setDmaCh; rfl
@[simp] theorem State.setDmaCh_power (n : Nat) (x : DmaCh) : (s.setDmaCh n x).power = s.power := by unfold State.setDmaCh; rfl
@[simp] theorem State.setDmaCh_keeper (n : Nat) (x : DmaCh) : (s.setDmaCh n x).keeper = s.keeper := by unfold State.setDmaCh; rfl
@[simp] theorem State.setDmaCh_cons (n : Nat) (x : DmaCh) : (s.setDmaCh n x).cons = s.cons := by unfold State.setDmaCh; rfl
@[simp] theorem State.setDmaCh_pads (n : Nat) (x : DmaCh) : (s.setDmaCh n x).pads = s.pads := by unfold State.setDmaCh; rfl
@[simp] theorem State.setDmaCh_rings (n : Nat) (x : DmaCh) : (s.setDmaCh n x).rings = s.rings := by unfold State.setDmaCh; rfl
@[simp] theorem State.setDmaCh_vecs (n : Nat) (x : DmaCh) : (s.setDmaCh n x).vecs = s.vecs := by unfold State.setDmaCh; rfl
@[simp] theorem State.setDmaCh_hostFn (n : Nat) (x : DmaCh) : (s.setDmaCh n x).hostFn = s.hostFn := by unfold State.setDmaCh; rfl
@[simp] theorem State.setDmaCh_streams (n : Nat) (x : DmaCh) : (s.setDmaCh n x).streams = s.streams := by unfold State.setDmaCh; rfl
@[simp] theorem State.setDmaCh_staged (n : Nat) (x : DmaCh) : (s.setDmaCh n x).staged = s.staged := by unfold State.setDmaCh; rfl
@[simp] theorem State.setDmaCh_taking (n : Nat) (x : DmaCh) : (s.setDmaCh n x).taking = s.taking := by unfold State.setDmaCh; rfl
@[simp] theorem State.setDmaCh_tripped (n : Nat) (x : DmaCh) : (s.setDmaCh n x).tripped = s.tripped := by unfold State.setDmaCh; rfl
@[simp] theorem State.setDmaCh_gone (n : Nat) (x : DmaCh) : (s.setDmaCh n x).gone = s.gone := by unfold State.setDmaCh; rfl

@[simp] theorem State.setQueue_big (n : Nat) (x : Queue) : (s.setQueue n x).big = s.big := by unfold State.setQueue; rfl
@[simp] theorem State.setQueue_regs (n : Nat) (x : Queue) : (s.setQueue n x).regs = s.regs := by unfold State.setQueue; rfl
@[simp] theorem State.setQueue_dram (n : Nat) (x : Queue) : (s.setQueue n x).dram = s.dram := by unfold State.setQueue; rfl
@[simp] theorem State.setQueue_damage (n : Nat) (x : Queue) : (s.setQueue n x).damage = s.damage := by unfold State.setQueue; rfl
@[simp] theorem State.setQueue_host (n : Nat) (x : Queue) : (s.setQueue n x).host = s.host := by unfold State.setQueue; rfl
@[simp] theorem State.setQueue_pending (n : Nat) (x : Queue) : (s.setQueue n x).pending = s.pending := by unfold State.setQueue; rfl
@[simp] theorem State.setQueue_free (n : Nat) (x : Queue) : (s.setQueue n x).free = s.free := by unfold State.setQueue; rfl
@[simp] theorem State.setQueue_ticks (n : Nat) (x : Queue) : (s.setQueue n x).ticks = s.ticks := by unfold State.setQueue; rfl
@[simp] theorem State.setQueue_time (n : Nat) (x : Queue) : (s.setQueue n x).time = s.time := by unfold State.setQueue; rfl
@[simp] theorem State.setQueue_answer (n : Nat) (x : Queue) : (s.setQueue n x).answer = s.answer := by unfold State.setQueue; rfl
@[simp] theorem State.setQueue_dater (n : Nat) (x : Queue) : (s.setQueue n x).dater = s.dater := by unfold State.setQueue; rfl
@[simp] theorem State.setQueue_net (n : Nat) (x : Queue) : (s.setQueue n x).net = s.net := by unfold State.setQueue; rfl
@[simp] theorem State.setQueue_bnd (n : Nat) (x : Queue) : (s.setQueue n x).bnd = s.bnd := by unfold State.setQueue; rfl
@[simp] theorem State.setQueue_rgs (n : Nat) (x : Queue) : (s.setQueue n x).rgs = s.rgs := by unfold State.setQueue; rfl
@[simp] theorem State.setQueue_harts (n : Nat) (x : Queue) : (s.setQueue n x).harts = s.harts := by unfold State.setQueue; rfl
@[simp] theorem State.setQueue_engines (n : Nat) (x : Queue) : (s.setQueue n x).engines = s.engines := by unfold State.setQueue; rfl
@[simp] theorem State.setQueue_copyCar (n : Nat) (x : Queue) : (s.setQueue n x).copyCar = s.copyCar := by unfold State.setQueue; rfl
@[simp] theorem State.setQueue_copyScb (n : Nat) (x : Queue) : (s.setQueue n x).copyScb = s.copyScb := by unfold State.setQueue; rfl
@[simp] theorem State.setQueue_mmu (n : Nat) (x : Queue) : (s.setQueue n x).mmu = s.mmu := by unfold State.setQueue; rfl
@[simp] theorem State.setQueue_dma (n : Nat) (x : Queue) : (s.setQueue n x).dma = s.dma := by unfold State.setQueue; rfl
@[simp] theorem State.setQueue_levels (n : Nat) (x : Queue) : (s.setQueue n x).levels = s.levels := by unfold State.setQueue; rfl
@[simp] theorem State.setQueue_pools (n : Nat) (x : Queue) : (s.setQueue n x).pools = s.pools := by unfold State.setQueue; rfl
@[simp] theorem State.setQueue_orphans (n : Nat) (x : Queue) : (s.setQueue n x).orphans = s.orphans := by unfold State.setQueue; rfl
@[simp] theorem State.setQueue_chans (n : Nat) (x : Queue) : (s.setQueue n x).chans = s.chans := by unfold State.setQueue; rfl
@[simp] theorem State.setQueue_scrub (n : Nat) (x : Queue) : (s.setQueue n x).scrub = s.scrub := by unfold State.setQueue; rfl
@[simp] theorem State.setQueue_cat (n : Nat) (x : Queue) : (s.setQueue n x).cat = s.cat := by unfold State.setQueue; rfl
@[simp] theorem State.setQueue_power (n : Nat) (x : Queue) : (s.setQueue n x).power = s.power := by unfold State.setQueue; rfl
@[simp] theorem State.setQueue_keeper (n : Nat) (x : Queue) : (s.setQueue n x).keeper = s.keeper := by unfold State.setQueue; rfl
@[simp] theorem State.setQueue_cons (n : Nat) (x : Queue) : (s.setQueue n x).cons = s.cons := by unfold State.setQueue; rfl
@[simp] theorem State.setQueue_pads (n : Nat) (x : Queue) : (s.setQueue n x).pads = s.pads := by unfold State.setQueue; rfl
@[simp] theorem State.setQueue_rings (n : Nat) (x : Queue) : (s.setQueue n x).rings = s.rings := by unfold State.setQueue; rfl
@[simp] theorem State.setQueue_vecs (n : Nat) (x : Queue) : (s.setQueue n x).vecs = s.vecs := by unfold State.setQueue; rfl
@[simp] theorem State.setQueue_hostFn (n : Nat) (x : Queue) : (s.setQueue n x).hostFn = s.hostFn := by unfold State.setQueue; rfl
@[simp] theorem State.setQueue_streams (n : Nat) (x : Queue) : (s.setQueue n x).streams = s.streams := by unfold State.setQueue; rfl
@[simp] theorem State.setQueue_staged (n : Nat) (x : Queue) : (s.setQueue n x).staged = s.staged := by unfold State.setQueue; rfl
@[simp] theorem State.setQueue_taking (n : Nat) (x : Queue) : (s.setQueue n x).taking = s.taking := by unfold State.setQueue; rfl
@[simp] theorem State.setQueue_tripped (n : Nat) (x : Queue) : (s.setQueue n x).tripped = s.tripped := by unfold State.setQueue; rfl
@[simp] theorem State.setQueue_gone (n : Nat) (x : Queue) : (s.setQueue n x).gone = s.gone := by unfold State.setQueue; rfl

@[simp] theorem State.setPool_big (n : Nat) (x : Pool) : (s.setPool n x).big = s.big := by unfold State.setPool; rfl
@[simp] theorem State.setPool_regs (n : Nat) (x : Pool) : (s.setPool n x).regs = s.regs := by unfold State.setPool; rfl
@[simp] theorem State.setPool_dram (n : Nat) (x : Pool) : (s.setPool n x).dram = s.dram := by unfold State.setPool; rfl
@[simp] theorem State.setPool_damage (n : Nat) (x : Pool) : (s.setPool n x).damage = s.damage := by unfold State.setPool; rfl
@[simp] theorem State.setPool_host (n : Nat) (x : Pool) : (s.setPool n x).host = s.host := by unfold State.setPool; rfl
@[simp] theorem State.setPool_pending (n : Nat) (x : Pool) : (s.setPool n x).pending = s.pending := by unfold State.setPool; rfl
@[simp] theorem State.setPool_free (n : Nat) (x : Pool) : (s.setPool n x).free = s.free := by unfold State.setPool; rfl
@[simp] theorem State.setPool_ticks (n : Nat) (x : Pool) : (s.setPool n x).ticks = s.ticks := by unfold State.setPool; rfl
@[simp] theorem State.setPool_time (n : Nat) (x : Pool) : (s.setPool n x).time = s.time := by unfold State.setPool; rfl
@[simp] theorem State.setPool_answer (n : Nat) (x : Pool) : (s.setPool n x).answer = s.answer := by unfold State.setPool; rfl
@[simp] theorem State.setPool_dater (n : Nat) (x : Pool) : (s.setPool n x).dater = s.dater := by unfold State.setPool; rfl
@[simp] theorem State.setPool_net (n : Nat) (x : Pool) : (s.setPool n x).net = s.net := by unfold State.setPool; rfl
@[simp] theorem State.setPool_bnd (n : Nat) (x : Pool) : (s.setPool n x).bnd = s.bnd := by unfold State.setPool; rfl
@[simp] theorem State.setPool_rgs (n : Nat) (x : Pool) : (s.setPool n x).rgs = s.rgs := by unfold State.setPool; rfl
@[simp] theorem State.setPool_harts (n : Nat) (x : Pool) : (s.setPool n x).harts = s.harts := by unfold State.setPool; rfl
@[simp] theorem State.setPool_engines (n : Nat) (x : Pool) : (s.setPool n x).engines = s.engines := by unfold State.setPool; rfl
@[simp] theorem State.setPool_copyCar (n : Nat) (x : Pool) : (s.setPool n x).copyCar = s.copyCar := by unfold State.setPool; rfl
@[simp] theorem State.setPool_copyScb (n : Nat) (x : Pool) : (s.setPool n x).copyScb = s.copyScb := by unfold State.setPool; rfl
@[simp] theorem State.setPool_mmu (n : Nat) (x : Pool) : (s.setPool n x).mmu = s.mmu := by unfold State.setPool; rfl
@[simp] theorem State.setPool_dma (n : Nat) (x : Pool) : (s.setPool n x).dma = s.dma := by unfold State.setPool; rfl
@[simp] theorem State.setPool_levels (n : Nat) (x : Pool) : (s.setPool n x).levels = s.levels := by unfold State.setPool; rfl
@[simp] theorem State.setPool_queues (n : Nat) (x : Pool) : (s.setPool n x).queues = s.queues := by unfold State.setPool; rfl
@[simp] theorem State.setPool_orphans (n : Nat) (x : Pool) : (s.setPool n x).orphans = s.orphans := by unfold State.setPool; rfl
@[simp] theorem State.setPool_chans (n : Nat) (x : Pool) : (s.setPool n x).chans = s.chans := by unfold State.setPool; rfl
@[simp] theorem State.setPool_scrub (n : Nat) (x : Pool) : (s.setPool n x).scrub = s.scrub := by unfold State.setPool; rfl
@[simp] theorem State.setPool_cat (n : Nat) (x : Pool) : (s.setPool n x).cat = s.cat := by unfold State.setPool; rfl
@[simp] theorem State.setPool_power (n : Nat) (x : Pool) : (s.setPool n x).power = s.power := by unfold State.setPool; rfl
@[simp] theorem State.setPool_keeper (n : Nat) (x : Pool) : (s.setPool n x).keeper = s.keeper := by unfold State.setPool; rfl
@[simp] theorem State.setPool_cons (n : Nat) (x : Pool) : (s.setPool n x).cons = s.cons := by unfold State.setPool; rfl
@[simp] theorem State.setPool_pads (n : Nat) (x : Pool) : (s.setPool n x).pads = s.pads := by unfold State.setPool; rfl
@[simp] theorem State.setPool_rings (n : Nat) (x : Pool) : (s.setPool n x).rings = s.rings := by unfold State.setPool; rfl
@[simp] theorem State.setPool_vecs (n : Nat) (x : Pool) : (s.setPool n x).vecs = s.vecs := by unfold State.setPool; rfl
@[simp] theorem State.setPool_hostFn (n : Nat) (x : Pool) : (s.setPool n x).hostFn = s.hostFn := by unfold State.setPool; rfl
@[simp] theorem State.setPool_streams (n : Nat) (x : Pool) : (s.setPool n x).streams = s.streams := by unfold State.setPool; rfl
@[simp] theorem State.setPool_staged (n : Nat) (x : Pool) : (s.setPool n x).staged = s.staged := by unfold State.setPool; rfl
@[simp] theorem State.setPool_taking (n : Nat) (x : Pool) : (s.setPool n x).taking = s.taking := by unfold State.setPool; rfl
@[simp] theorem State.setPool_tripped (n : Nat) (x : Pool) : (s.setPool n x).tripped = s.tripped := by unfold State.setPool; rfl
@[simp] theorem State.setPool_gone (n : Nat) (x : Pool) : (s.setPool n x).gone = s.gone := by unfold State.setPool; rfl

@[simp] theorem State.setChan_big (n : Nat) (x : Chan) : (s.setChan n x).big = s.big := by unfold State.setChan; rfl
@[simp] theorem State.setChan_regs (n : Nat) (x : Chan) : (s.setChan n x).regs = s.regs := by unfold State.setChan; rfl
@[simp] theorem State.setChan_dram (n : Nat) (x : Chan) : (s.setChan n x).dram = s.dram := by unfold State.setChan; rfl
@[simp] theorem State.setChan_damage (n : Nat) (x : Chan) : (s.setChan n x).damage = s.damage := by unfold State.setChan; rfl
@[simp] theorem State.setChan_host (n : Nat) (x : Chan) : (s.setChan n x).host = s.host := by unfold State.setChan; rfl
@[simp] theorem State.setChan_pending (n : Nat) (x : Chan) : (s.setChan n x).pending = s.pending := by unfold State.setChan; rfl
@[simp] theorem State.setChan_free (n : Nat) (x : Chan) : (s.setChan n x).free = s.free := by unfold State.setChan; rfl
@[simp] theorem State.setChan_ticks (n : Nat) (x : Chan) : (s.setChan n x).ticks = s.ticks := by unfold State.setChan; rfl
@[simp] theorem State.setChan_time (n : Nat) (x : Chan) : (s.setChan n x).time = s.time := by unfold State.setChan; rfl
@[simp] theorem State.setChan_answer (n : Nat) (x : Chan) : (s.setChan n x).answer = s.answer := by unfold State.setChan; rfl
@[simp] theorem State.setChan_dater (n : Nat) (x : Chan) : (s.setChan n x).dater = s.dater := by unfold State.setChan; rfl
@[simp] theorem State.setChan_net (n : Nat) (x : Chan) : (s.setChan n x).net = s.net := by unfold State.setChan; rfl
@[simp] theorem State.setChan_bnd (n : Nat) (x : Chan) : (s.setChan n x).bnd = s.bnd := by unfold State.setChan; rfl
@[simp] theorem State.setChan_rgs (n : Nat) (x : Chan) : (s.setChan n x).rgs = s.rgs := by unfold State.setChan; rfl
@[simp] theorem State.setChan_harts (n : Nat) (x : Chan) : (s.setChan n x).harts = s.harts := by unfold State.setChan; rfl
@[simp] theorem State.setChan_engines (n : Nat) (x : Chan) : (s.setChan n x).engines = s.engines := by unfold State.setChan; rfl
@[simp] theorem State.setChan_copyCar (n : Nat) (x : Chan) : (s.setChan n x).copyCar = s.copyCar := by unfold State.setChan; rfl
@[simp] theorem State.setChan_copyScb (n : Nat) (x : Chan) : (s.setChan n x).copyScb = s.copyScb := by unfold State.setChan; rfl
@[simp] theorem State.setChan_mmu (n : Nat) (x : Chan) : (s.setChan n x).mmu = s.mmu := by unfold State.setChan; rfl
@[simp] theorem State.setChan_dma (n : Nat) (x : Chan) : (s.setChan n x).dma = s.dma := by unfold State.setChan; rfl
@[simp] theorem State.setChan_levels (n : Nat) (x : Chan) : (s.setChan n x).levels = s.levels := by unfold State.setChan; rfl
@[simp] theorem State.setChan_queues (n : Nat) (x : Chan) : (s.setChan n x).queues = s.queues := by unfold State.setChan; rfl
@[simp] theorem State.setChan_pools (n : Nat) (x : Chan) : (s.setChan n x).pools = s.pools := by unfold State.setChan; rfl
@[simp] theorem State.setChan_orphans (n : Nat) (x : Chan) : (s.setChan n x).orphans = s.orphans := by unfold State.setChan; rfl
@[simp] theorem State.setChan_scrub (n : Nat) (x : Chan) : (s.setChan n x).scrub = s.scrub := by unfold State.setChan; rfl
@[simp] theorem State.setChan_cat (n : Nat) (x : Chan) : (s.setChan n x).cat = s.cat := by unfold State.setChan; rfl
@[simp] theorem State.setChan_power (n : Nat) (x : Chan) : (s.setChan n x).power = s.power := by unfold State.setChan; rfl
@[simp] theorem State.setChan_keeper (n : Nat) (x : Chan) : (s.setChan n x).keeper = s.keeper := by unfold State.setChan; rfl
@[simp] theorem State.setChan_cons (n : Nat) (x : Chan) : (s.setChan n x).cons = s.cons := by unfold State.setChan; rfl
@[simp] theorem State.setChan_pads (n : Nat) (x : Chan) : (s.setChan n x).pads = s.pads := by unfold State.setChan; rfl
@[simp] theorem State.setChan_rings (n : Nat) (x : Chan) : (s.setChan n x).rings = s.rings := by unfold State.setChan; rfl
@[simp] theorem State.setChan_vecs (n : Nat) (x : Chan) : (s.setChan n x).vecs = s.vecs := by unfold State.setChan; rfl
@[simp] theorem State.setChan_hostFn (n : Nat) (x : Chan) : (s.setChan n x).hostFn = s.hostFn := by unfold State.setChan; rfl
@[simp] theorem State.setChan_streams (n : Nat) (x : Chan) : (s.setChan n x).streams = s.streams := by unfold State.setChan; rfl
@[simp] theorem State.setChan_staged (n : Nat) (x : Chan) : (s.setChan n x).staged = s.staged := by unfold State.setChan; rfl
@[simp] theorem State.setChan_taking (n : Nat) (x : Chan) : (s.setChan n x).taking = s.taking := by unfold State.setChan; rfl
@[simp] theorem State.setChan_tripped (n : Nat) (x : Chan) : (s.setChan n x).tripped = s.tripped := by unfold State.setChan; rfl
@[simp] theorem State.setChan_gone (n : Nat) (x : Chan) : (s.setChan n x).gone = s.gone := by unfold State.setChan; rfl

@[simp] theorem State.setMag_big (n : Nat) (x : Mag) : (s.setMag n x).big = s.big := by unfold State.setMag; rfl
@[simp] theorem State.setMag_regs (n : Nat) (x : Mag) : (s.setMag n x).regs = s.regs := by unfold State.setMag; rfl
@[simp] theorem State.setMag_dram (n : Nat) (x : Mag) : (s.setMag n x).dram = s.dram := by unfold State.setMag; rfl
@[simp] theorem State.setMag_damage (n : Nat) (x : Mag) : (s.setMag n x).damage = s.damage := by unfold State.setMag; rfl
@[simp] theorem State.setMag_host (n : Nat) (x : Mag) : (s.setMag n x).host = s.host := by unfold State.setMag; rfl
@[simp] theorem State.setMag_pending (n : Nat) (x : Mag) : (s.setMag n x).pending = s.pending := by unfold State.setMag; rfl
@[simp] theorem State.setMag_free (n : Nat) (x : Mag) : (s.setMag n x).free = s.free := by unfold State.setMag; rfl
@[simp] theorem State.setMag_ticks (n : Nat) (x : Mag) : (s.setMag n x).ticks = s.ticks := by unfold State.setMag; rfl
@[simp] theorem State.setMag_time (n : Nat) (x : Mag) : (s.setMag n x).time = s.time := by unfold State.setMag; rfl
@[simp] theorem State.setMag_answer (n : Nat) (x : Mag) : (s.setMag n x).answer = s.answer := by unfold State.setMag; rfl
@[simp] theorem State.setMag_dater (n : Nat) (x : Mag) : (s.setMag n x).dater = s.dater := by unfold State.setMag; rfl
@[simp] theorem State.setMag_net (n : Nat) (x : Mag) : (s.setMag n x).net = s.net := by unfold State.setMag; rfl
@[simp] theorem State.setMag_rgs (n : Nat) (x : Mag) : (s.setMag n x).rgs = s.rgs := by unfold State.setMag; rfl
@[simp] theorem State.setMag_harts (n : Nat) (x : Mag) : (s.setMag n x).harts = s.harts := by unfold State.setMag; rfl
@[simp] theorem State.setMag_engines (n : Nat) (x : Mag) : (s.setMag n x).engines = s.engines := by unfold State.setMag; rfl
@[simp] theorem State.setMag_copyCar (n : Nat) (x : Mag) : (s.setMag n x).copyCar = s.copyCar := by unfold State.setMag; rfl
@[simp] theorem State.setMag_copyScb (n : Nat) (x : Mag) : (s.setMag n x).copyScb = s.copyScb := by unfold State.setMag; rfl
@[simp] theorem State.setMag_mmu (n : Nat) (x : Mag) : (s.setMag n x).mmu = s.mmu := by unfold State.setMag; rfl
@[simp] theorem State.setMag_dma (n : Nat) (x : Mag) : (s.setMag n x).dma = s.dma := by unfold State.setMag; rfl
@[simp] theorem State.setMag_levels (n : Nat) (x : Mag) : (s.setMag n x).levels = s.levels := by unfold State.setMag; rfl
@[simp] theorem State.setMag_queues (n : Nat) (x : Mag) : (s.setMag n x).queues = s.queues := by unfold State.setMag; rfl
@[simp] theorem State.setMag_pools (n : Nat) (x : Mag) : (s.setMag n x).pools = s.pools := by unfold State.setMag; rfl
@[simp] theorem State.setMag_orphans (n : Nat) (x : Mag) : (s.setMag n x).orphans = s.orphans := by unfold State.setMag; rfl
@[simp] theorem State.setMag_chans (n : Nat) (x : Mag) : (s.setMag n x).chans = s.chans := by unfold State.setMag; rfl
@[simp] theorem State.setMag_scrub (n : Nat) (x : Mag) : (s.setMag n x).scrub = s.scrub := by unfold State.setMag; rfl
@[simp] theorem State.setMag_cat (n : Nat) (x : Mag) : (s.setMag n x).cat = s.cat := by unfold State.setMag; rfl
@[simp] theorem State.setMag_power (n : Nat) (x : Mag) : (s.setMag n x).power = s.power := by unfold State.setMag; rfl
@[simp] theorem State.setMag_keeper (n : Nat) (x : Mag) : (s.setMag n x).keeper = s.keeper := by unfold State.setMag; rfl
@[simp] theorem State.setMag_cons (n : Nat) (x : Mag) : (s.setMag n x).cons = s.cons := by unfold State.setMag; rfl
@[simp] theorem State.setMag_pads (n : Nat) (x : Mag) : (s.setMag n x).pads = s.pads := by unfold State.setMag; rfl
@[simp] theorem State.setMag_rings (n : Nat) (x : Mag) : (s.setMag n x).rings = s.rings := by unfold State.setMag; rfl
@[simp] theorem State.setMag_vecs (n : Nat) (x : Mag) : (s.setMag n x).vecs = s.vecs := by unfold State.setMag; rfl
@[simp] theorem State.setMag_hostFn (n : Nat) (x : Mag) : (s.setMag n x).hostFn = s.hostFn := by unfold State.setMag; rfl
@[simp] theorem State.setMag_streams (n : Nat) (x : Mag) : (s.setMag n x).streams = s.streams := by unfold State.setMag; rfl
@[simp] theorem State.setMag_staged (n : Nat) (x : Mag) : (s.setMag n x).staged = s.staged := by unfold State.setMag; rfl
@[simp] theorem State.setMag_taking (n : Nat) (x : Mag) : (s.setMag n x).taking = s.taking := by unfold State.setMag; rfl
@[simp] theorem State.setMag_tripped (n : Nat) (x : Mag) : (s.setMag n x).tripped = s.tripped := by unfold State.setMag; rfl
@[simp] theorem State.setMag_gone (n : Nat) (x : Mag) : (s.setMag n x).gone = s.gone := by unfold State.setMag; rfl

@[simp] theorem State.setCatUnit_big (n : Nat) (x : CatUnit) : (s.setCatUnit n x).big = s.big := by unfold State.setCatUnit; rfl
@[simp] theorem State.setCatUnit_regs (n : Nat) (x : CatUnit) : (s.setCatUnit n x).regs = s.regs := by unfold State.setCatUnit; rfl
@[simp] theorem State.setCatUnit_dram (n : Nat) (x : CatUnit) : (s.setCatUnit n x).dram = s.dram := by unfold State.setCatUnit; rfl
@[simp] theorem State.setCatUnit_damage (n : Nat) (x : CatUnit) : (s.setCatUnit n x).damage = s.damage := by unfold State.setCatUnit; rfl
@[simp] theorem State.setCatUnit_host (n : Nat) (x : CatUnit) : (s.setCatUnit n x).host = s.host := by unfold State.setCatUnit; rfl
@[simp] theorem State.setCatUnit_pending (n : Nat) (x : CatUnit) : (s.setCatUnit n x).pending = s.pending := by unfold State.setCatUnit; rfl
@[simp] theorem State.setCatUnit_free (n : Nat) (x : CatUnit) : (s.setCatUnit n x).free = s.free := by unfold State.setCatUnit; rfl
@[simp] theorem State.setCatUnit_ticks (n : Nat) (x : CatUnit) : (s.setCatUnit n x).ticks = s.ticks := by unfold State.setCatUnit; rfl
@[simp] theorem State.setCatUnit_time (n : Nat) (x : CatUnit) : (s.setCatUnit n x).time = s.time := by unfold State.setCatUnit; rfl
@[simp] theorem State.setCatUnit_answer (n : Nat) (x : CatUnit) : (s.setCatUnit n x).answer = s.answer := by unfold State.setCatUnit; rfl
@[simp] theorem State.setCatUnit_dater (n : Nat) (x : CatUnit) : (s.setCatUnit n x).dater = s.dater := by unfold State.setCatUnit; rfl
@[simp] theorem State.setCatUnit_net (n : Nat) (x : CatUnit) : (s.setCatUnit n x).net = s.net := by unfold State.setCatUnit; rfl
@[simp] theorem State.setCatUnit_bnd (n : Nat) (x : CatUnit) : (s.setCatUnit n x).bnd = s.bnd := by unfold State.setCatUnit; rfl
@[simp] theorem State.setCatUnit_rgs (n : Nat) (x : CatUnit) : (s.setCatUnit n x).rgs = s.rgs := by unfold State.setCatUnit; rfl
@[simp] theorem State.setCatUnit_harts (n : Nat) (x : CatUnit) : (s.setCatUnit n x).harts = s.harts := by unfold State.setCatUnit; rfl
@[simp] theorem State.setCatUnit_engines (n : Nat) (x : CatUnit) : (s.setCatUnit n x).engines = s.engines := by unfold State.setCatUnit; rfl
@[simp] theorem State.setCatUnit_copyCar (n : Nat) (x : CatUnit) : (s.setCatUnit n x).copyCar = s.copyCar := by unfold State.setCatUnit; rfl
@[simp] theorem State.setCatUnit_copyScb (n : Nat) (x : CatUnit) : (s.setCatUnit n x).copyScb = s.copyScb := by unfold State.setCatUnit; rfl
@[simp] theorem State.setCatUnit_mmu (n : Nat) (x : CatUnit) : (s.setCatUnit n x).mmu = s.mmu := by unfold State.setCatUnit; rfl
@[simp] theorem State.setCatUnit_dma (n : Nat) (x : CatUnit) : (s.setCatUnit n x).dma = s.dma := by unfold State.setCatUnit; rfl
@[simp] theorem State.setCatUnit_levels (n : Nat) (x : CatUnit) : (s.setCatUnit n x).levels = s.levels := by unfold State.setCatUnit; rfl
@[simp] theorem State.setCatUnit_queues (n : Nat) (x : CatUnit) : (s.setCatUnit n x).queues = s.queues := by unfold State.setCatUnit; rfl
@[simp] theorem State.setCatUnit_pools (n : Nat) (x : CatUnit) : (s.setCatUnit n x).pools = s.pools := by unfold State.setCatUnit; rfl
@[simp] theorem State.setCatUnit_orphans (n : Nat) (x : CatUnit) : (s.setCatUnit n x).orphans = s.orphans := by unfold State.setCatUnit; rfl
@[simp] theorem State.setCatUnit_chans (n : Nat) (x : CatUnit) : (s.setCatUnit n x).chans = s.chans := by unfold State.setCatUnit; rfl
@[simp] theorem State.setCatUnit_scrub (n : Nat) (x : CatUnit) : (s.setCatUnit n x).scrub = s.scrub := by unfold State.setCatUnit; rfl
@[simp] theorem State.setCatUnit_power (n : Nat) (x : CatUnit) : (s.setCatUnit n x).power = s.power := by unfold State.setCatUnit; rfl
@[simp] theorem State.setCatUnit_keeper (n : Nat) (x : CatUnit) : (s.setCatUnit n x).keeper = s.keeper := by unfold State.setCatUnit; rfl
@[simp] theorem State.setCatUnit_cons (n : Nat) (x : CatUnit) : (s.setCatUnit n x).cons = s.cons := by unfold State.setCatUnit; rfl
@[simp] theorem State.setCatUnit_pads (n : Nat) (x : CatUnit) : (s.setCatUnit n x).pads = s.pads := by unfold State.setCatUnit; rfl
@[simp] theorem State.setCatUnit_rings (n : Nat) (x : CatUnit) : (s.setCatUnit n x).rings = s.rings := by unfold State.setCatUnit; rfl
@[simp] theorem State.setCatUnit_vecs (n : Nat) (x : CatUnit) : (s.setCatUnit n x).vecs = s.vecs := by unfold State.setCatUnit; rfl
@[simp] theorem State.setCatUnit_hostFn (n : Nat) (x : CatUnit) : (s.setCatUnit n x).hostFn = s.hostFn := by unfold State.setCatUnit; rfl
@[simp] theorem State.setCatUnit_streams (n : Nat) (x : CatUnit) : (s.setCatUnit n x).streams = s.streams := by unfold State.setCatUnit; rfl
@[simp] theorem State.setCatUnit_staged (n : Nat) (x : CatUnit) : (s.setCatUnit n x).staged = s.staged := by unfold State.setCatUnit; rfl
@[simp] theorem State.setCatUnit_taking (n : Nat) (x : CatUnit) : (s.setCatUnit n x).taking = s.taking := by unfold State.setCatUnit; rfl
@[simp] theorem State.setCatUnit_tripped (n : Nat) (x : CatUnit) : (s.setCatUnit n x).tripped = s.tripped := by unfold State.setCatUnit; rfl
@[simp] theorem State.setCatUnit_gone (n : Nat) (x : CatUnit) : (s.setCatUnit n x).gone = s.gone := by unfold State.setCatUnit; rfl

/-! ### Units -/

@[simp] theorem State.ring_setRing (n : Nat) (x : Ring) : (s.setRing n x).ring n = x := by unfold State.setRing State.ring; exact Tab.get_set_same _ _ _ _
theorem State.ring_setRing_ne {n m : Nat} (x : Ring) (h : m ≠ n) : (s.setRing n x).ring m = s.ring m := by unfold State.setRing State.ring; exact Tab.get_set_other _ _ _ h
@[simp] theorem State.ring_wr (o : Nat) (w : Word) (n : Nat) : (s.wr o w).ring n = s.ring n := by rw [State.ring, State.wr_rings, State.ring]
@[simp] theorem State.ring_put (f : Fld) (v : Nat) (n : Nat) : (s.put f v).ring n = s.ring n := by rw [State.ring, State.put_rings, State.ring]
@[simp] theorem State.ring_add (f : Fld) (k : Nat) (n : Nat) : (s.add f k).ring n = s.ring n := by rw [State.ring, State.add_rings, State.ring]
@[simp] theorem State.ring_bump (f : Fld) (n : Nat) : (s.bump f).ring n = s.ring n := by rw [State.ring, State.bump_rings, State.ring]
@[simp] theorem State.get_setRing (n : Nat) (x : Ring) (f : Fld) : (s.setRing n x).get f = s.get f := State.get_congr (State.setRing_regs ..) (State.setRing_big ..) _
@[simp] theorem State.rd_setRing (n : Nat) (x : Ring) (o : Nat) : (s.setRing n x).rd o = s.rd o := State.rd_congr (State.setRing_regs ..) (State.setRing_big ..) _

@[simp] theorem State.vec_setVec (n : Nat) (x : Vec) : (s.setVec n x).vec n = x := by unfold State.setVec State.vec; exact Tab.get_set_same _ _ _ _
theorem State.vec_setVec_ne {n m : Nat} (x : Vec) (h : m ≠ n) : (s.setVec n x).vec m = s.vec m := by unfold State.setVec State.vec; exact Tab.get_set_other _ _ _ h
@[simp] theorem State.vec_wr (o : Nat) (w : Word) (n : Nat) : (s.wr o w).vec n = s.vec n := by rw [State.vec, State.wr_vecs, State.vec]
@[simp] theorem State.vec_put (f : Fld) (v : Nat) (n : Nat) : (s.put f v).vec n = s.vec n := by rw [State.vec, State.put_vecs, State.vec]
@[simp] theorem State.vec_add (f : Fld) (k : Nat) (n : Nat) : (s.add f k).vec n = s.vec n := by rw [State.vec, State.add_vecs, State.vec]
@[simp] theorem State.vec_bump (f : Fld) (n : Nat) : (s.bump f).vec n = s.vec n := by rw [State.vec, State.bump_vecs, State.vec]
@[simp] theorem State.get_setVec (n : Nat) (x : Vec) (f : Fld) : (s.setVec n x).get f = s.get f := State.get_congr (State.setVec_regs ..) (State.setVec_big ..) _
@[simp] theorem State.rd_setVec (n : Nat) (x : Vec) (o : Nat) : (s.setVec n x).rd o = s.rd o := State.rd_congr (State.setVec_regs ..) (State.setVec_big ..) _

@[simp] theorem State.stream_setStream (n : Nat) (x : Stream) : (s.setStream n x).stream n = x := by unfold State.setStream State.stream; exact Tab.get_set_same _ _ _ _
theorem State.stream_setStream_ne {n m : Nat} (x : Stream) (h : m ≠ n) : (s.setStream n x).stream m = s.stream m := by unfold State.setStream State.stream; exact Tab.get_set_other _ _ _ h
@[simp] theorem State.stream_wr (o : Nat) (w : Word) (n : Nat) : (s.wr o w).stream n = s.stream n := by rw [State.stream, State.wr_streams, State.stream]
@[simp] theorem State.stream_put (f : Fld) (v : Nat) (n : Nat) : (s.put f v).stream n = s.stream n := by rw [State.stream, State.put_streams, State.stream]
@[simp] theorem State.stream_add (f : Fld) (k : Nat) (n : Nat) : (s.add f k).stream n = s.stream n := by rw [State.stream, State.add_streams, State.stream]
@[simp] theorem State.stream_bump (f : Fld) (n : Nat) : (s.bump f).stream n = s.stream n := by rw [State.stream, State.bump_streams, State.stream]
@[simp] theorem State.get_setStream (n : Nat) (x : Stream) (f : Fld) : (s.setStream n x).get f = s.get f := State.get_congr (State.setStream_regs ..) (State.setStream_big ..) _
@[simp] theorem State.rd_setStream (n : Nat) (x : Stream) (o : Nat) : (s.setStream n x).rd o = s.rd o := State.rd_congr (State.setStream_regs ..) (State.setStream_big ..) _

@[simp] theorem State.hart_setHart (n : Nat) (x : Hart) : (s.setHart n x).hart n = x := by unfold State.setHart State.hart; exact Tab.get_set_same _ _ _ _
theorem State.hart_setHart_ne {n m : Nat} (x : Hart) (h : m ≠ n) : (s.setHart n x).hart m = s.hart m := by unfold State.setHart State.hart; exact Tab.get_set_other _ _ _ h
@[simp] theorem State.hart_wr (o : Nat) (w : Word) (n : Nat) : (s.wr o w).hart n = s.hart n := by rw [State.hart, State.wr_harts, State.hart]
@[simp] theorem State.hart_put (f : Fld) (v : Nat) (n : Nat) : (s.put f v).hart n = s.hart n := by rw [State.hart, State.put_harts, State.hart]
@[simp] theorem State.hart_add (f : Fld) (k : Nat) (n : Nat) : (s.add f k).hart n = s.hart n := by rw [State.hart, State.add_harts, State.hart]
@[simp] theorem State.hart_bump (f : Fld) (n : Nat) : (s.bump f).hart n = s.hart n := by rw [State.hart, State.bump_harts, State.hart]
@[simp] theorem State.get_setHart (n : Nat) (x : Hart) (f : Fld) : (s.setHart n x).get f = s.get f := State.get_congr (State.setHart_regs ..) (State.setHart_big ..) _
@[simp] theorem State.rd_setHart (n : Nat) (x : Hart) (o : Nat) : (s.setHart n x).rd o = s.rd o := State.rd_congr (State.setHart_regs ..) (State.setHart_big ..) _

@[simp] theorem State.engine_setEngine (n : Nat) (x : Engine) : (s.setEngine n x).engine n = x := by unfold State.setEngine State.engine; exact Tab.get_set_same _ _ _ _
theorem State.engine_setEngine_ne {n m : Nat} (x : Engine) (h : m ≠ n) : (s.setEngine n x).engine m = s.engine m := by unfold State.setEngine State.engine; exact Tab.get_set_other _ _ _ h
@[simp] theorem State.engine_wr (o : Nat) (w : Word) (n : Nat) : (s.wr o w).engine n = s.engine n := by rw [State.engine, State.wr_engines, State.engine]
@[simp] theorem State.engine_put (f : Fld) (v : Nat) (n : Nat) : (s.put f v).engine n = s.engine n := by rw [State.engine, State.put_engines, State.engine]
@[simp] theorem State.engine_add (f : Fld) (k : Nat) (n : Nat) : (s.add f k).engine n = s.engine n := by rw [State.engine, State.add_engines, State.engine]
@[simp] theorem State.engine_bump (f : Fld) (n : Nat) : (s.bump f).engine n = s.engine n := by rw [State.engine, State.bump_engines, State.engine]
@[simp] theorem State.get_setEngine (n : Nat) (x : Engine) (f : Fld) : (s.setEngine n x).get f = s.get f := State.get_congr (State.setEngine_regs ..) (State.setEngine_big ..) _
@[simp] theorem State.rd_setEngine (n : Nat) (x : Engine) (o : Nat) : (s.setEngine n x).rd o = s.rd o := State.rd_congr (State.setEngine_regs ..) (State.setEngine_big ..) _

@[simp] theorem State.dmaCh_setDmaCh (n : Nat) (x : DmaCh) : (s.setDmaCh n x).dmaCh n = x := by unfold State.setDmaCh State.dmaCh; exact Tab.get_set_same _ _ _ _
theorem State.dmaCh_setDmaCh_ne {n m : Nat} (x : DmaCh) (h : m ≠ n) : (s.setDmaCh n x).dmaCh m = s.dmaCh m := by unfold State.setDmaCh State.dmaCh; exact Tab.get_set_other _ _ _ h
@[simp] theorem State.dmaCh_wr (o : Nat) (w : Word) (n : Nat) : (s.wr o w).dmaCh n = s.dmaCh n := by rw [State.dmaCh, State.wr_dma, State.dmaCh]
@[simp] theorem State.dmaCh_put (f : Fld) (v : Nat) (n : Nat) : (s.put f v).dmaCh n = s.dmaCh n := by rw [State.dmaCh, State.put_dma, State.dmaCh]
@[simp] theorem State.dmaCh_add (f : Fld) (k : Nat) (n : Nat) : (s.add f k).dmaCh n = s.dmaCh n := by rw [State.dmaCh, State.add_dma, State.dmaCh]
@[simp] theorem State.dmaCh_bump (f : Fld) (n : Nat) : (s.bump f).dmaCh n = s.dmaCh n := by rw [State.dmaCh, State.bump_dma, State.dmaCh]
@[simp] theorem State.get_setDmaCh (n : Nat) (x : DmaCh) (f : Fld) : (s.setDmaCh n x).get f = s.get f := State.get_congr (State.setDmaCh_regs ..) (State.setDmaCh_big ..) _
@[simp] theorem State.rd_setDmaCh (n : Nat) (x : DmaCh) (o : Nat) : (s.setDmaCh n x).rd o = s.rd o := State.rd_congr (State.setDmaCh_regs ..) (State.setDmaCh_big ..) _

@[simp] theorem State.queue_setQueue (n : Nat) (x : Queue) : (s.setQueue n x).queue n = x := by unfold State.setQueue State.queue; exact Tab.get_set_same _ _ _ _
theorem State.queue_setQueue_ne {n m : Nat} (x : Queue) (h : m ≠ n) : (s.setQueue n x).queue m = s.queue m := by unfold State.setQueue State.queue; exact Tab.get_set_other _ _ _ h
@[simp] theorem State.queue_wr (o : Nat) (w : Word) (n : Nat) : (s.wr o w).queue n = s.queue n := by rw [State.queue, State.wr_queues, State.queue]
@[simp] theorem State.queue_put (f : Fld) (v : Nat) (n : Nat) : (s.put f v).queue n = s.queue n := by rw [State.queue, State.put_queues, State.queue]
@[simp] theorem State.queue_add (f : Fld) (k : Nat) (n : Nat) : (s.add f k).queue n = s.queue n := by rw [State.queue, State.add_queues, State.queue]
@[simp] theorem State.queue_bump (f : Fld) (n : Nat) : (s.bump f).queue n = s.queue n := by rw [State.queue, State.bump_queues, State.queue]
@[simp] theorem State.get_setQueue (n : Nat) (x : Queue) (f : Fld) : (s.setQueue n x).get f = s.get f := State.get_congr (State.setQueue_regs ..) (State.setQueue_big ..) _
@[simp] theorem State.rd_setQueue (n : Nat) (x : Queue) (o : Nat) : (s.setQueue n x).rd o = s.rd o := State.rd_congr (State.setQueue_regs ..) (State.setQueue_big ..) _

@[simp] theorem State.pool_setPool (n : Nat) (x : Pool) : (s.setPool n x).pool n = x := by unfold State.setPool State.pool; exact Tab.get_set_same _ _ _ _
theorem State.pool_setPool_ne {n m : Nat} (x : Pool) (h : m ≠ n) : (s.setPool n x).pool m = s.pool m := by unfold State.setPool State.pool; exact Tab.get_set_other _ _ _ h
@[simp] theorem State.pool_wr (o : Nat) (w : Word) (n : Nat) : (s.wr o w).pool n = s.pool n := by rw [State.pool, State.wr_pools, State.pool]
@[simp] theorem State.pool_put (f : Fld) (v : Nat) (n : Nat) : (s.put f v).pool n = s.pool n := by rw [State.pool, State.put_pools, State.pool]
@[simp] theorem State.pool_add (f : Fld) (k : Nat) (n : Nat) : (s.add f k).pool n = s.pool n := by rw [State.pool, State.add_pools, State.pool]
@[simp] theorem State.pool_bump (f : Fld) (n : Nat) : (s.bump f).pool n = s.pool n := by rw [State.pool, State.bump_pools, State.pool]
@[simp] theorem State.get_setPool (n : Nat) (x : Pool) (f : Fld) : (s.setPool n x).get f = s.get f := State.get_congr (State.setPool_regs ..) (State.setPool_big ..) _
@[simp] theorem State.rd_setPool (n : Nat) (x : Pool) (o : Nat) : (s.setPool n x).rd o = s.rd o := State.rd_congr (State.setPool_regs ..) (State.setPool_big ..) _

@[simp] theorem State.chan_setChan (n : Nat) (x : Chan) : (s.setChan n x).chan n = x := by unfold State.setChan State.chan; exact Tab.get_set_same _ _ _ _
theorem State.chan_setChan_ne {n m : Nat} (x : Chan) (h : m ≠ n) : (s.setChan n x).chan m = s.chan m := by unfold State.setChan State.chan; exact Tab.get_set_other _ _ _ h
@[simp] theorem State.chan_wr (o : Nat) (w : Word) (n : Nat) : (s.wr o w).chan n = s.chan n := by rw [State.chan, State.wr_chans, State.chan]
@[simp] theorem State.chan_put (f : Fld) (v : Nat) (n : Nat) : (s.put f v).chan n = s.chan n := by rw [State.chan, State.put_chans, State.chan]
@[simp] theorem State.chan_add (f : Fld) (k : Nat) (n : Nat) : (s.add f k).chan n = s.chan n := by rw [State.chan, State.add_chans, State.chan]
@[simp] theorem State.chan_bump (f : Fld) (n : Nat) : (s.bump f).chan n = s.chan n := by rw [State.chan, State.bump_chans, State.chan]
@[simp] theorem State.get_setChan (n : Nat) (x : Chan) (f : Fld) : (s.setChan n x).get f = s.get f := State.get_congr (State.setChan_regs ..) (State.setChan_big ..) _
@[simp] theorem State.rd_setChan (n : Nat) (x : Chan) (o : Nat) : (s.setChan n x).rd o = s.rd o := State.rd_congr (State.setChan_regs ..) (State.setChan_big ..) _

@[simp] theorem State.mag_setMag (n : Nat) (x : Mag) : (s.setMag n x).mag n = x := by unfold State.setMag State.mag; exact Tab.get_set_same _ _ _ _
theorem State.mag_setMag_ne {n m : Nat} (x : Mag) (h : m ≠ n) : (s.setMag n x).mag m = s.mag m := by unfold State.setMag State.mag; exact Tab.get_set_other _ _ _ h
@[simp] theorem State.mag_wr (o : Nat) (w : Word) (n : Nat) : (s.wr o w).mag n = s.mag n := by rw [State.mag, State.wr_bnd, State.mag]
@[simp] theorem State.mag_put (f : Fld) (v : Nat) (n : Nat) : (s.put f v).mag n = s.mag n := by rw [State.mag, State.put_bnd, State.mag]
@[simp] theorem State.mag_add (f : Fld) (k : Nat) (n : Nat) : (s.add f k).mag n = s.mag n := by rw [State.mag, State.add_bnd, State.mag]
@[simp] theorem State.mag_bump (f : Fld) (n : Nat) : (s.bump f).mag n = s.mag n := by rw [State.mag, State.bump_bnd, State.mag]
@[simp] theorem State.get_setMag (n : Nat) (x : Mag) (f : Fld) : (s.setMag n x).get f = s.get f := State.get_congr (State.setMag_regs ..) (State.setMag_big ..) _
@[simp] theorem State.rd_setMag (n : Nat) (x : Mag) (o : Nat) : (s.setMag n x).rd o = s.rd o := State.rd_congr (State.setMag_regs ..) (State.setMag_big ..) _

@[simp] theorem State.catUnit_setCatUnit (n : Nat) (x : CatUnit) : (s.setCatUnit n x).catUnit n = x := by unfold State.setCatUnit State.catUnit; exact Tab.get_set_same _ _ _ _
theorem State.catUnit_setCatUnit_ne {n m : Nat} (x : CatUnit) (h : m ≠ n) : (s.setCatUnit n x).catUnit m = s.catUnit m := by unfold State.setCatUnit State.catUnit; exact Tab.get_set_other _ _ _ h
@[simp] theorem State.catUnit_wr (o : Nat) (w : Word) (n : Nat) : (s.wr o w).catUnit n = s.catUnit n := by rw [State.catUnit, State.wr_cat, State.catUnit]
@[simp] theorem State.catUnit_put (f : Fld) (v : Nat) (n : Nat) : (s.put f v).catUnit n = s.catUnit n := by rw [State.catUnit, State.put_cat, State.catUnit]
@[simp] theorem State.catUnit_add (f : Fld) (k : Nat) (n : Nat) : (s.add f k).catUnit n = s.catUnit n := by rw [State.catUnit, State.add_cat, State.catUnit]
@[simp] theorem State.catUnit_bump (f : Fld) (n : Nat) : (s.bump f).catUnit n = s.catUnit n := by rw [State.catUnit, State.bump_cat, State.catUnit]
@[simp] theorem State.get_setCatUnit (n : Nat) (x : CatUnit) (f : Fld) : (s.setCatUnit n x).get f = s.get f := State.get_congr (State.setCatUnit_regs ..) (State.setCatUnit_big ..) _
@[simp] theorem State.rd_setCatUnit (n : Nat) (x : CatUnit) (o : Nat) : (s.setCatUnit n x).rd o = s.rd o := State.rd_congr (State.setCatUnit_regs ..) (State.setCatUnit_big ..) _

theorem State.get_add_same {f : Fld} (k : Nat) (h : f.lo + f.w ≤ 32) : (s.add f k).get f = satAdd f.w (s.get f) k := by
  unfold State.add
  rw [State.get_put_same _ _ h]
  refine Nat.mod_eq_of_lt ?_
  have := Nat.two_pow_pos f.w
  unfold satAdd
  split <;> omega
theorem State.get_bump_same {f : Fld} (h : f.lo + f.w ≤ 32) : (s.bump f).get f = satAdd f.w (s.get f) 1 := s.get_add_same 1 h
theorem State.get_add_apart {f g : Fld} (k : Nat) (h : g.lo + g.w ≤ 32) (ha : g.apart f) : (s.add f k).get g = s.get g := s.get_put_apart _ h ha
theorem State.get_bump_apart {f g : Fld} (h : g.lo + g.w ≤ 32) (ha : g.apart f) : (s.bump f).get g = s.get g := s.get_put_apart _ h ha

end Sys2Proof.Machine
end

