-- ==== Sys2Proof/Laws/Frame.lean ====
section
/-! SUPPORT. Frames compose: what each update of the state adds to the list of changes. -/
set_option linter.unusedTactic false
set_option linter.unreachableTactic false

namespace Sys2Proof.Machine

variable {s t : State} {ps : List Part} {fs : List Fld}

theorem State.frame.rfl' : s.frame s ps fs := ⟨fun p _ => by cases p <;> simp [Part.same], fun _ _ _ => rfl⟩

theorem State.frame.put (h : s.frame t ps fs) {f : Fld} (v : Nat) (hf : f ∈ fs) : s.frame (t.put f v) ps fs := by
  refine ⟨fun p hp => ?_, fun g hg ha => ?_⟩
  · have := h.1 p hp
    cases p <;> exact this
  · rw [State.get_put_apart _ _ hg (ha f hf)]
    exact h.2 g hg ha

theorem State.frame.wr (h : s.frame t ps fs) {off : Nat} (w : Word) (hf : Fld.whole off ∈ fs) : s.frame (t.wr off w) ps fs := by
  refine ⟨fun p hp => ?_, fun g hg ha => ?_⟩
  · have := h.1 p hp
    cases p <;> exact this
  · rw [State.get_wr_apart _ _ hg (ha _ hf)]
    exact h.2 g hg ha

theorem State.frame.mono {ps' : List Part} {fs' : List Fld} (h : s.frame t ps fs) (hp : ∀ p ∈ ps, p ∈ ps') (hf : ∀ f ∈ fs, f ∈ fs') :
    s.frame t ps' fs' :=
  ⟨fun p hn => h.1 p fun m => hn (hp p m), fun f h32 ha => h.2 f h32 fun g hg => ha g (hf g hg)⟩

theorem State.frame.trans {u : State} (h : s.frame t ps fs) (g : t.frame u ps fs) : s.frame u ps fs := by
  refine ⟨fun p hp => ?_, fun f h32 ha => (g.2 f h32 ha).trans (h.2 f h32 ha)⟩
  have a := h.1 p hp
  have b := g.1 p hp
  cases p <;> first | exact fun x => (b x).trans (a x) | exact Eq.trans b a

theorem State.frame.foldl {α : Type} {g : State → α → State} {l : List α} (h : s.frame t ps fs)
    (hg : ∀ t x, s.frame t ps fs → s.frame (g t x) ps fs) : s.frame (l.foldl g t) ps fs := by
  induction l generalizing t with
  | nil => exact h
  | cons x r ih => exact ih (hg _ _ h)

theorem State.frame.foldl_mem {α : Type} {g : State → α → State} {l : List α} (h : s.frame t ps fs)
    (hg : ∀ t x, x ∈ l → s.frame t ps fs → s.frame (g t x) ps fs) : s.frame (l.foldl g t) ps fs := by
  induction l generalizing t with
  | nil => exact h
  | cons x r ih => exact ih (hg _ _ List.mem_cons_self h) fun t y hy => hg t y (List.mem_cons_of_mem _ hy)

/-- A change of one part only. -/
theorem State.frame.part {u : State} (q : Part) (h : s.frame t ps fs) (hq : q ∈ ps) (hr : u.regs = t.regs) (hb : u.big = t.big)
    (hs : ∀ p, p ≠ q → p.same t u) : s.frame u ps fs :=
  h.trans ⟨fun p hp => hs p fun e => hp (e ▸ hq), fun f _ _ => by unfold State.get State.rd; rw [hr, hb]⟩

/-- `State.frame` of a state given field by field. -/
def FrameF (s : State) (ps : List Part) (fs : List Fld) (big : Bool) (regs : Tab Word) (dram : Tab Byte) (damage : Tab Nat) (host : Tab Byte) (pending : List Instr) (free : Nat) (ticks : Nat) (time : Nat) (answer : List Nat) (dater : Dater) (net : Net) (bnd : Bindery) (rgs : Registrar) (harts : Tab Hart) (engines : Tab Engine) (copyCar : Tab Nat) (copyScb : Tab Nat) (mmu : Mmu) (dma : Tab DmaCh) (levels : List Nat) (queues : Tab Queue) (pools : Tab Pool) (orphans : List Nat) (chans : Tab Chan) (scrub : Scrubber) (cat : Catalogue) (power : Power) (keeper : Keeper) (cons : Conservator) (pads : Pads) (rings : Tab Ring) (vecs : Tab Vec) (hostFn : HostFn) (streams : Tab Stream) (staged : List Staged) (taking : List Staged) (tripped : List Nat) (gone : Nat × Nat) : Prop :=
  s.frame (State.mk big regs dram damage host pending free ticks time answer dater net bnd rgs harts engines copyCar copyScb mmu dma levels queues pools orphans chans scrub cat power keeper cons pads rings vecs hostFn streams staged taking tripped gone) ps fs

theorem State.frame_mk {big regs dram damage host pending free ticks time answer dater net bnd rgs harts engines copyCar copyScb mmu dma levels queues pools orphans chans scrub cat power keeper cons pads rings vecs hostFn streams staged taking tripped gone} : s.frame (State.mk big regs dram damage host pending free ticks time answer dater net bnd rgs harts engines copyCar copyScb mmu dma levels queues pools orphans chans scrub cat power keeper cons pads rings vecs hostFn streams staged taking tripped gone) ps fs ↔ FrameF s ps fs big regs dram damage host pending free ticks time answer dater net bnd rgs harts engines copyCar copyScb mmu dma levels queues pools orphans chans scrub cat power keeper cons pads rings vecs hostFn streams staged taking tripped gone := Iff.rfl

theorem State.frame.free (h : s.frame t ps fs) (x) (hp : Part.free ∈ ps) : s.frame { t with free := x } ps fs :=
  h.part .free hp rfl rfl fun p hn => by cases p <;> first | exact absurd rfl hn | simp [Part.same, State.dramByte, State.queuedWrite, State.chan, State.chanAt, State.hostByte, State.damageOf]
theorem FrameF.u_free (h : s.frame t ps fs) {x} (hp : Part.free ∈ ps) : FrameF s ps fs t.big t.regs t.dram t.damage t.host t.pending x t.ticks t.time t.answer t.dater t.net t.bnd t.rgs t.harts t.engines t.copyCar t.copyScb t.mmu t.dma t.levels t.queues t.pools t.orphans t.chans t.scrub t.cat t.power t.keeper t.cons t.pads t.rings t.vecs t.hostFn t.streams t.staged t.taking t.tripped t.gone := h.free x hp
theorem State.frame.time (h : s.frame t ps fs) (x) (hp : Part.time ∈ ps) : s.frame { t with time := x } ps fs :=
  h.part .time hp rfl rfl fun p hn => by cases p <;> first | exact absurd rfl hn | simp [Part.same, State.dramByte, State.queuedWrite, State.chan, State.chanAt, State.hostByte, State.damageOf]
theorem FrameF.u_time (h : s.frame t ps fs) {x} (hp : Part.time ∈ ps) : FrameF s ps fs t.big t.regs t.dram t.damage t.host t.pending t.free t.ticks x t.answer t.dater t.net t.bnd t.rgs t.harts t.engines t.copyCar t.copyScb t.mmu t.dma t.levels t.queues t.pools t.orphans t.chans t.scrub t.cat t.power t.keeper t.cons t.pads t.rings t.vecs t.hostFn t.streams t.staged t.taking t.tripped t.gone := h.time x hp
theorem State.frame.answer (h : s.frame t ps fs) (x) (hp : Part.answer ∈ ps) : s.frame { t with answer := x } ps fs :=
  h.part .answer hp rfl rfl fun p hn => by cases p <;> first | exact absurd rfl hn | simp [Part.same, State.dramByte, State.queuedWrite, State.chan, State.chanAt, State.hostByte, State.damageOf]
theorem FrameF.u_answer (h : s.frame t ps fs) {x} (hp : Part.answer ∈ ps) : FrameF s ps fs t.big t.regs t.dram t.damage t.host t.pending t.free t.ticks t.time x t.dater t.net t.bnd t.rgs t.harts t.engines t.copyCar t.copyScb t.mmu t.dma t.levels t.queues t.pools t.orphans t.chans t.scrub t.cat t.power t.keeper t.cons t.pads t.rings t.vecs t.hostFn t.streams t.staged t.taking t.tripped t.gone := h.answer x hp
theorem State.frame.dater (h : s.frame t ps fs) (x) (hp : Part.dater ∈ ps) : s.frame { t with dater := x } ps fs :=
  h.part .dater hp rfl rfl fun p hn => by cases p <;> first | exact absurd rfl hn | simp [Part.same, State.dramByte, State.queuedWrite, State.chan, State.chanAt, State.hostByte, State.damageOf]
theorem FrameF.u_dater (h : s.frame t ps fs) {x} (hp : Part.dater ∈ ps) : FrameF s ps fs t.big t.regs t.dram t.damage t.host t.pending t.free t.ticks t.time t.answer x t.net t.bnd t.rgs t.harts t.engines t.copyCar t.copyScb t.mmu t.dma t.levels t.queues t.pools t.orphans t.chans t.scrub t.cat t.power t.keeper t.cons t.pads t.rings t.vecs t.hostFn t.streams t.staged t.taking t.tripped t.gone := h.dater x hp
theorem State.frame.net (h : s.frame t ps fs) (x) (hp : Part.net ∈ ps) : s.frame { t with net := x } ps fs :=
  h.part .net hp rfl rfl fun p hn => by cases p <;> first | exact absurd rfl hn | simp [Part.same, State.dramByte, State.queuedWrite, State.chan, State.chanAt, State.hostByte, State.damageOf]
theorem FrameF.u_net (h : s.frame t ps fs) {x} (hp : Part.net ∈ ps) : FrameF s ps fs t.big t.regs t.dram t.damage t.host t.pending t.free t.ticks t.time t.answer t.dater x t.bnd t.rgs t.harts t.engines t.copyCar t.copyScb t.mmu t.dma t.levels t.queues t.pools t.orphans t.chans t.scrub t.cat t.power t.keeper t.cons t.pads t.rings t.vecs t.hostFn t.streams t.staged t.taking t.tripped t.gone := h.net x hp
theorem State.frame.bnd (h : s.frame t ps fs) (x) (hp : Part.bnd ∈ ps) : s.frame { t with bnd := x } ps fs :=
  h.part .bnd hp rfl rfl fun p hn => by cases p <;> first | exact absurd rfl hn | simp [Part.same, State.dramByte, State.queuedWrite, State.chan, State.chanAt, State.hostByte, State.damageOf]
theorem FrameF.u_bnd (h : s.frame t ps fs) {x} (hp : Part.bnd ∈ ps) : FrameF s ps fs t.big t.regs t.dram t.damage t.host t.pending t.free t.ticks t.time t.answer t.dater t.net x t.rgs t.harts t.engines t.copyCar t.copyScb t.mmu t.dma t.levels t.queues t.pools t.orphans t.chans t.scrub t.cat t.power t.keeper t.cons t.pads t.rings t.vecs t.hostFn t.streams t.staged t.taking t.tripped t.gone := h.bnd x hp
theorem State.frame.rgs (h : s.frame t ps fs) (x) (hp : Part.rgs ∈ ps) : s.frame { t with rgs := x } ps fs :=
  h.part .rgs hp rfl rfl fun p hn => by cases p <;> first | exact absurd rfl hn | simp [Part.same, State.dramByte, State.queuedWrite, State.chan, State.chanAt, State.hostByte, State.damageOf]
theorem FrameF.u_rgs (h : s.frame t ps fs) {x} (hp : Part.rgs ∈ ps) : FrameF s ps fs t.big t.regs t.dram t.damage t.host t.pending t.free t.ticks t.time t.answer t.dater t.net t.bnd x t.harts t.engines t.copyCar t.copyScb t.mmu t.dma t.levels t.queues t.pools t.orphans t.chans t.scrub t.cat t.power t.keeper t.cons t.pads t.rings t.vecs t.hostFn t.streams t.staged t.taking t.tripped t.gone := h.rgs x hp
theorem State.frame.harts (h : s.frame t ps fs) (x) (hp : Part.harts ∈ ps) : s.frame { t with harts := x } ps fs :=
  h.part .harts hp rfl rfl fun p hn => by cases p <;> first | exact absurd rfl hn | simp [Part.same, State.dramByte, State.queuedWrite, State.chan, State.chanAt, State.hostByte, State.damageOf]
theorem FrameF.u_harts (h : s.frame t ps fs) {x} (hp : Part.harts ∈ ps) : FrameF s ps fs t.big t.regs t.dram t.damage t.host t.pending t.free t.ticks t.time t.answer t.dater t.net t.bnd t.rgs x t.engines t.copyCar t.copyScb t.mmu t.dma t.levels t.queues t.pools t.orphans t.chans t.scrub t.cat t.power t.keeper t.cons t.pads t.rings t.vecs t.hostFn t.streams t.staged t.taking t.tripped t.gone := h.harts x hp
theorem State.frame.engines (h : s.frame t ps fs) (x) (hp : Part.engines ∈ ps) : s.frame { t with engines := x } ps fs :=
  h.part .engines hp rfl rfl fun p hn => by cases p <;> first | exact absurd rfl hn | simp [Part.same, State.dramByte, State.queuedWrite, State.chan, State.chanAt, State.hostByte, State.damageOf]
theorem FrameF.u_engines (h : s.frame t ps fs) {x} (hp : Part.engines ∈ ps) : FrameF s ps fs t.big t.regs t.dram t.damage t.host t.pending t.free t.ticks t.time t.answer t.dater t.net t.bnd t.rgs t.harts x t.copyCar t.copyScb t.mmu t.dma t.levels t.queues t.pools t.orphans t.chans t.scrub t.cat t.power t.keeper t.cons t.pads t.rings t.vecs t.hostFn t.streams t.staged t.taking t.tripped t.gone := h.engines x hp
theorem State.frame.copyCar (h : s.frame t ps fs) (x) (hp : Part.copyCar ∈ ps) : s.frame { t with copyCar := x } ps fs :=
  h.part .copyCar hp rfl rfl fun p hn => by cases p <;> first | exact absurd rfl hn | simp [Part.same, State.dramByte, State.queuedWrite, State.chan, State.chanAt, State.hostByte, State.damageOf]
theorem FrameF.u_copyCar (h : s.frame t ps fs) {x} (hp : Part.copyCar ∈ ps) : FrameF s ps fs t.big t.regs t.dram t.damage t.host t.pending t.free t.ticks t.time t.answer t.dater t.net t.bnd t.rgs t.harts t.engines x t.copyScb t.mmu t.dma t.levels t.queues t.pools t.orphans t.chans t.scrub t.cat t.power t.keeper t.cons t.pads t.rings t.vecs t.hostFn t.streams t.staged t.taking t.tripped t.gone := h.copyCar x hp
theorem State.frame.copyScb (h : s.frame t ps fs) (x) (hp : Part.copyScb ∈ ps) : s.frame { t with copyScb := x } ps fs :=
  h.part .copyScb hp rfl rfl fun p hn => by cases p <;> first | exact absurd rfl hn | simp [Part.same, State.dramByte, State.queuedWrite, State.chan, State.chanAt, State.hostByte, State.damageOf]
theorem FrameF.u_copyScb (h : s.frame t ps fs) {x} (hp : Part.copyScb ∈ ps) : FrameF s ps fs t.big t.regs t.dram t.damage t.host t.pending t.free t.ticks t.time t.answer t.dater t.net t.bnd t.rgs t.harts t.engines t.copyCar x t.mmu t.dma t.levels t.queues t.pools t.orphans t.chans t.scrub t.cat t.power t.keeper t.cons t.pads t.rings t.vecs t.hostFn t.streams t.staged t.taking t.tripped t.gone := h.copyScb x hp
theorem State.frame.mmu (h : s.frame t ps fs) (x) (hp : Part.mmu ∈ ps) : s.frame { t with mmu := x } ps fs :=
  h.part .mmu hp rfl rfl fun p hn => by cases p <;> first | exact absurd rfl hn | simp [Part.same, State.dramByte, State.queuedWrite, State.chan, State.chanAt, State.hostByte, State.damageOf]
theorem FrameF.u_mmu (h : s.frame t ps fs) {x} (hp : Part.mmu ∈ ps) : FrameF s ps fs t.big t.regs t.dram t.damage t.host t.pending t.free t.ticks t.time t.answer t.dater t.net t.bnd t.rgs t.harts t.engines t.copyCar t.copyScb x t.dma t.levels t.queues t.pools t.orphans t.chans t.scrub t.cat t.power t.keeper t.cons t.pads t.rings t.vecs t.hostFn t.streams t.staged t.taking t.tripped t.gone := h.mmu x hp
theorem State.frame.dma (h : s.frame t ps fs) (x) (hp : Part.dma ∈ ps) : s.frame { t with dma := x } ps fs :=
  h.part .dma hp rfl rfl fun p hn => by cases p <;> first | exact absurd rfl hn | simp [Part.same, State.dramByte, State.queuedWrite, State.chan, State.chanAt, State.hostByte, State.damageOf]
theorem FrameF.u_dma (h : s.frame t ps fs) {x} (hp : Part.dma ∈ ps) : FrameF s ps fs t.big t.regs t.dram t.damage t.host t.pending t.free t.ticks t.time t.answer t.dater t.net t.bnd t.rgs t.harts t.engines t.copyCar t.copyScb t.mmu x t.levels t.queues t.pools t.orphans t.chans t.scrub t.cat t.power t.keeper t.cons t.pads t.rings t.vecs t.hostFn t.streams t.staged t.taking t.tripped t.gone := h.dma x hp
theorem State.frame.levels (h : s.frame t ps fs) (x) (hp : Part.levels ∈ ps) : s.frame { t with levels := x } ps fs :=
  h.part .levels hp rfl rfl fun p hn => by cases p <;> first | exact absurd rfl hn | simp [Part.same, State.dramByte, State.queuedWrite, State.chan, State.chanAt, State.hostByte, State.damageOf]
theorem FrameF.u_levels (h : s.frame t ps fs) {x} (hp : Part.levels ∈ ps) : FrameF s ps fs t.big t.regs t.dram t.damage t.host t.pending t.free t.ticks t.time t.answer t.dater t.net t.bnd t.rgs t.harts t.engines t.copyCar t.copyScb t.mmu t.dma x t.queues t.pools t.orphans t.chans t.scrub t.cat t.power t.keeper t.cons t.pads t.rings t.vecs t.hostFn t.streams t.staged t.taking t.tripped t.gone := h.levels x hp
theorem State.frame.queues (h : s.frame t ps fs) (x) (hp : Part.queues ∈ ps) : s.frame { t with queues := x } ps fs :=
  h.part .queues hp rfl rfl fun p hn => by cases p <;> first | exact absurd rfl hn | simp [Part.same, State.dramByte, State.queuedWrite, State.chan, State.chanAt, State.hostByte, State.damageOf]
theorem FrameF.u_queues (h : s.frame t ps fs) {x} (hp : Part.queues ∈ ps) : FrameF s ps fs t.big t.regs t.dram t.damage t.host t.pending t.free t.ticks t.time t.answer t.dater t.net t.bnd t.rgs t.harts t.engines t.copyCar t.copyScb t.mmu t.dma t.levels x t.pools t.orphans t.chans t.scrub t.cat t.power t.keeper t.cons t.pads t.rings t.vecs t.hostFn t.streams t.staged t.taking t.tripped t.gone := h.queues x hp
theorem State.frame.pools (h : s.frame t ps fs) (x) (hp : Part.pools ∈ ps) : s.frame { t with pools := x } ps fs :=
  h.part .pools hp rfl rfl fun p hn => by cases p <;> first | exact absurd rfl hn | simp [Part.same, State.dramByte, State.queuedWrite, State.chan, State.chanAt, State.hostByte, State.damageOf]
theorem FrameF.u_pools (h : s.frame t ps fs) {x} (hp : Part.pools ∈ ps) : FrameF s ps fs t.big t.regs t.dram t.damage t.host t.pending t.free t.ticks t.time t.answer t.dater t.net t.bnd t.rgs t.harts t.engines t.copyCar t.copyScb t.mmu t.dma t.levels t.queues x t.orphans t.chans t.scrub t.cat t.power t.keeper t.cons t.pads t.rings t.vecs t.hostFn t.streams t.staged t.taking t.tripped t.gone := h.pools x hp
theorem State.frame.orphans (h : s.frame t ps fs) (x) (hp : Part.orphans ∈ ps) : s.frame { t with orphans := x } ps fs :=
  h.part .orphans hp rfl rfl fun p hn => by cases p <;> first | exact absurd rfl hn | simp [Part.same, State.dramByte, State.queuedWrite, State.chan, State.chanAt, State.hostByte, State.damageOf]
theorem FrameF.u_orphans (h : s.frame t ps fs) {x} (hp : Part.orphans ∈ ps) : FrameF s ps fs t.big t.regs t.dram t.damage t.host t.pending t.free t.ticks t.time t.answer t.dater t.net t.bnd t.rgs t.harts t.engines t.copyCar t.copyScb t.mmu t.dma t.levels t.queues t.pools x t.chans t.scrub t.cat t.power t.keeper t.cons t.pads t.rings t.vecs t.hostFn t.streams t.staged t.taking t.tripped t.gone := h.orphans x hp
theorem State.frame.scrub (h : s.frame t ps fs) (x) (hp : Part.scrub ∈ ps) : s.frame { t with scrub := x } ps fs :=
  h.part .scrub hp rfl rfl fun p hn => by cases p <;> first | exact absurd rfl hn | simp [Part.same, State.dramByte, State.queuedWrite, State.chan, State.chanAt, State.hostByte, State.damageOf]
theorem FrameF.u_scrub (h : s.frame t ps fs) {x} (hp : Part.scrub ∈ ps) : FrameF s ps fs t.big t.regs t.dram t.damage t.host t.pending t.free t.ticks t.time t.answer t.dater t.net t.bnd t.rgs t.harts t.engines t.copyCar t.copyScb t.mmu t.dma t.levels t.queues t.pools t.orphans t.chans x t.cat t.power t.keeper t.cons t.pads t.rings t.vecs t.hostFn t.streams t.staged t.taking t.tripped t.gone := h.scrub x hp
theorem State.frame.cat (h : s.frame t ps fs) (x) (hp : Part.cat ∈ ps) : s.frame { t with cat := x } ps fs :=
  h.part .cat hp rfl rfl fun p hn => by cases p <;> first | exact absurd rfl hn | simp [Part.same, State.dramByte, State.queuedWrite, State.chan, State.chanAt, State.hostByte, State.damageOf]
theorem FrameF.u_cat (h : s.frame t ps fs) {x} (hp : Part.cat ∈ ps) : FrameF s ps fs t.big t.regs t.dram t.damage t.host t.pending t.free t.ticks t.time t.answer t.dater t.net t.bnd t.rgs t.harts t.engines t.copyCar t.copyScb t.mmu t.dma t.levels t.queues t.pools t.orphans t.chans t.scrub x t.power t.keeper t.cons t.pads t.rings t.vecs t.hostFn t.streams t.staged t.taking t.tripped t.gone := h.cat x hp
theorem State.frame.power (h : s.frame t ps fs) (x) (hp : Part.power ∈ ps) : s.frame { t with power := x } ps fs :=
  h.part .power hp rfl rfl fun p hn => by cases p <;> first | exact absurd rfl hn | simp [Part.same, State.dramByte, State.queuedWrite, State.chan, State.chanAt, State.hostByte, State.damageOf]
theorem FrameF.u_power (h : s.frame t ps fs) {x} (hp : Part.power ∈ ps) : FrameF s ps fs t.big t.regs t.dram t.damage t.host t.pending t.free t.ticks t.time t.answer t.dater t.net t.bnd t.rgs t.harts t.engines t.copyCar t.copyScb t.mmu t.dma t.levels t.queues t.pools t.orphans t.chans t.scrub t.cat x t.keeper t.cons t.pads t.rings t.vecs t.hostFn t.streams t.staged t.taking t.tripped t.gone := h.power x hp
theorem State.frame.keeper (h : s.frame t ps fs) (x) (hp : Part.keeper ∈ ps) : s.frame { t with keeper := x } ps fs :=
  h.part .keeper hp rfl rfl fun p hn => by cases p <;> first | exact absurd rfl hn | simp [Part.same, State.dramByte, State.queuedWrite, State.chan, State.chanAt, State.hostByte, State.damageOf]
theorem FrameF.u_keeper (h : s.frame t ps fs) {x} (hp : Part.keeper ∈ ps) : FrameF s ps fs t.big t.regs t.dram t.damage t.host t.pending t.free t.ticks t.time t.answer t.dater t.net t.bnd t.rgs t.harts t.engines t.copyCar t.copyScb t.mmu t.dma t.levels t.queues t.pools t.orphans t.chans t.scrub t.cat t.power x t.cons t.pads t.rings t.vecs t.hostFn t.streams t.staged t.taking t.tripped t.gone := h.keeper x hp
theorem State.frame.cons (h : s.frame t ps fs) (x) (hp : Part.cons ∈ ps) : s.frame { t with cons := x } ps fs :=
  h.part .cons hp rfl rfl fun p hn => by cases p <;> first | exact absurd rfl hn | simp [Part.same, State.dramByte, State.queuedWrite, State.chan, State.chanAt, State.hostByte, State.damageOf]
theorem FrameF.u_cons (h : s.frame t ps fs) {x} (hp : Part.cons ∈ ps) : FrameF s ps fs t.big t.regs t.dram t.damage t.host t.pending t.free t.ticks t.time t.answer t.dater t.net t.bnd t.rgs t.harts t.engines t.copyCar t.copyScb t.mmu t.dma t.levels t.queues t.pools t.orphans t.chans t.scrub t.cat t.power t.keeper x t.pads t.rings t.vecs t.hostFn t.streams t.staged t.taking t.tripped t.gone := h.cons x hp
theorem State.frame.pads (h : s.frame t ps fs) (x) (hp : Part.pads ∈ ps) : s.frame { t with pads := x } ps fs :=
  h.part .pads hp rfl rfl fun p hn => by cases p <;> first | exact absurd rfl hn | simp [Part.same, State.dramByte, State.queuedWrite, State.chan, State.chanAt, State.hostByte, State.damageOf]
theorem FrameF.u_pads (h : s.frame t ps fs) {x} (hp : Part.pads ∈ ps) : FrameF s ps fs t.big t.regs t.dram t.damage t.host t.pending t.free t.ticks t.time t.answer t.dater t.net t.bnd t.rgs t.harts t.engines t.copyCar t.copyScb t.mmu t.dma t.levels t.queues t.pools t.orphans t.chans t.scrub t.cat t.power t.keeper t.cons x t.rings t.vecs t.hostFn t.streams t.staged t.taking t.tripped t.gone := h.pads x hp
theorem State.frame.rings (h : s.frame t ps fs) (x) (hp : Part.rings ∈ ps) : s.frame { t with rings := x } ps fs :=
  h.part .rings hp rfl rfl fun p hn => by cases p <;> first | exact absurd rfl hn | simp [Part.same, State.dramByte, State.queuedWrite, State.chan, State.chanAt, State.hostByte, State.damageOf]
theorem FrameF.u_rings (h : s.frame t ps fs) {x} (hp : Part.rings ∈ ps) : FrameF s ps fs t.big t.regs t.dram t.damage t.host t.pending t.free t.ticks t.time t.answer t.dater t.net t.bnd t.rgs t.harts t.engines t.copyCar t.copyScb t.mmu t.dma t.levels t.queues t.pools t.orphans t.chans t.scrub t.cat t.power t.keeper t.cons t.pads x t.vecs t.hostFn t.streams t.staged t.taking t.tripped t.gone := h.rings x hp
theorem State.frame.vecs (h : s.frame t ps fs) (x) (hp : Part.vecs ∈ ps) : s.frame { t with vecs := x } ps fs :=
  h.part .vecs hp rfl rfl fun p hn => by cases p <;> first | exact absurd rfl hn | simp [Part.same, State.dramByte, State.queuedWrite, State.chan, State.chanAt, State.hostByte, State.damageOf]
theorem FrameF.u_vecs (h : s.frame t ps fs) {x} (hp : Part.vecs ∈ ps) : FrameF s ps fs t.big t.regs t.dram t.damage t.host t.pending t.free t.ticks t.time t.answer t.dater t.net t.bnd t.rgs t.harts t.engines t.copyCar t.copyScb t.mmu t.dma t.levels t.queues t.pools t.orphans t.chans t.scrub t.cat t.power t.keeper t.cons t.pads t.rings x t.hostFn t.streams t.staged t.taking t.tripped t.gone := h.vecs x hp
theorem State.frame.hostFn (h : s.frame t ps fs) (x) (hp : Part.hostFn ∈ ps) : s.frame { t with hostFn := x } ps fs :=
  h.part .hostFn hp rfl rfl fun p hn => by cases p <;> first | exact absurd rfl hn | simp [Part.same, State.dramByte, State.queuedWrite, State.chan, State.chanAt, State.hostByte, State.damageOf]
theorem FrameF.u_hostFn (h : s.frame t ps fs) {x} (hp : Part.hostFn ∈ ps) : FrameF s ps fs t.big t.regs t.dram t.damage t.host t.pending t.free t.ticks t.time t.answer t.dater t.net t.bnd t.rgs t.harts t.engines t.copyCar t.copyScb t.mmu t.dma t.levels t.queues t.pools t.orphans t.chans t.scrub t.cat t.power t.keeper t.cons t.pads t.rings t.vecs x t.streams t.staged t.taking t.tripped t.gone := h.hostFn x hp
theorem State.frame.streams (h : s.frame t ps fs) (x) (hp : Part.streams ∈ ps) : s.frame { t with streams := x } ps fs :=
  h.part .streams hp rfl rfl fun p hn => by cases p <;> first | exact absurd rfl hn | simp [Part.same, State.dramByte, State.queuedWrite, State.chan, State.chanAt, State.hostByte, State.damageOf]
theorem FrameF.u_streams (h : s.frame t ps fs) {x} (hp : Part.streams ∈ ps) : FrameF s ps fs t.big t.regs t.dram t.damage t.host t.pending t.free t.ticks t.time t.answer t.dater t.net t.bnd t.rgs t.harts t.engines t.copyCar t.copyScb t.mmu t.dma t.levels t.queues t.pools t.orphans t.chans t.scrub t.cat t.power t.keeper t.cons t.pads t.rings t.vecs t.hostFn x t.staged t.taking t.tripped t.gone := h.streams x hp
theorem State.frame.staged (h : s.frame t ps fs) (x) (hp : Part.staged ∈ ps) : s.frame { t with staged := x } ps fs :=
  h.part .staged hp rfl rfl fun p hn => by cases p <;> first | exact absurd rfl hn | simp [Part.same, State.dramByte, State.queuedWrite, State.chan, State.chanAt, State.hostByte, State.damageOf]
theorem FrameF.u_staged (h : s.frame t ps fs) {x} (hp : Part.staged ∈ ps) : FrameF s ps fs t.big t.regs t.dram t.damage t.host t.pending t.free t.ticks t.time t.answer t.dater t.net t.bnd t.rgs t.harts t.engines t.copyCar t.copyScb t.mmu t.dma t.levels t.queues t.pools t.orphans t.chans t.scrub t.cat t.power t.keeper t.cons t.pads t.rings t.vecs t.hostFn t.streams x t.taking t.tripped t.gone := h.staged x hp
theorem State.frame.taking (h : s.frame t ps fs) (x) (hp : Part.taking ∈ ps) : s.frame { t with taking := x } ps fs :=
  h.part .taking hp rfl rfl fun p hn => by cases p <;> first | exact absurd rfl hn | simp [Part.same, State.dramByte, State.queuedWrite, State.chan, State.chanAt, State.hostByte, State.damageOf]
theorem FrameF.u_taking (h : s.frame t ps fs) {x} (hp : Part.taking ∈ ps) : FrameF s ps fs t.big t.regs t.dram t.damage t.host t.pending t.free t.ticks t.time t.answer t.dater t.net t.bnd t.rgs t.harts t.engines t.copyCar t.copyScb t.mmu t.dma t.levels t.queues t.pools t.orphans t.chans t.scrub t.cat t.power t.keeper t.cons t.pads t.rings t.vecs t.hostFn t.streams t.staged x t.tripped t.gone := h.taking x hp
theorem State.frame.tripped (h : s.frame t ps fs) (x) (hp : Part.tripped ∈ ps) : s.frame { t with tripped := x } ps fs :=
  h.part .tripped hp rfl rfl fun p hn => by cases p <;> first | exact absurd rfl hn | simp [Part.same, State.dramByte, State.queuedWrite, State.chan, State.chanAt, State.hostByte, State.damageOf]
theorem FrameF.u_tripped (h : s.frame t ps fs) {x} (hp : Part.tripped ∈ ps) : FrameF s ps fs t.big t.regs t.dram t.damage t.host t.pending t.free t.ticks t.time t.answer t.dater t.net t.bnd t.rgs t.harts t.engines t.copyCar t.copyScb t.mmu t.dma t.levels t.queues t.pools t.orphans t.chans t.scrub t.cat t.power t.keeper t.cons t.pads t.rings t.vecs t.hostFn t.streams t.staged t.taking x t.gone := h.tripped x hp
theorem State.frame.gone (h : s.frame t ps fs) (x) (hp : Part.gone ∈ ps) : s.frame { t with gone := x } ps fs :=
  h.part .gone hp rfl rfl fun p hn => by cases p <;> first | exact absurd rfl hn | simp [Part.same, State.dramByte, State.queuedWrite, State.chan, State.chanAt, State.hostByte, State.damageOf]
theorem FrameF.u_gone (h : s.frame t ps fs) {x} (hp : Part.gone ∈ ps) : FrameF s ps fs t.big t.regs t.dram t.damage t.host t.pending t.free t.ticks t.time t.answer t.dater t.net t.bnd t.rgs t.harts t.engines t.copyCar t.copyScb t.mmu t.dma t.levels t.queues t.pools t.orphans t.chans t.scrub t.cat t.power t.keeper t.cons t.pads t.rings t.vecs t.hostFn t.streams t.staged t.taking t.tripped x := h.gone x hp
theorem FrameF.u_staged_taking (h : s.frame t ps fs) {x_staged x_taking} (p_staged : .staged ∈ ps) (p_taking : .taking ∈ ps) : FrameF s ps fs t.big t.regs t.dram t.damage t.host t.pending t.free t.ticks t.time t.answer t.dater t.net t.bnd t.rgs t.harts t.engines t.copyCar t.copyScb t.mmu t.dma t.levels t.queues t.pools t.orphans t.chans t.scrub t.cat t.power t.keeper t.cons t.pads t.rings t.vecs t.hostFn t.streams x_staged x_taking t.tripped t.gone :=
  h.staged x_staged p_staged |>.taking x_taking p_taking
theorem FrameF.u_keeper_cons (h : s.frame t ps fs) {x_keeper x_cons} (p_keeper : .keeper ∈ ps) (p_cons : .cons ∈ ps) : FrameF s ps fs t.big t.regs t.dram t.damage t.host t.pending t.free t.ticks t.time t.answer t.dater t.net t.bnd t.rgs t.harts t.engines t.copyCar t.copyScb t.mmu t.dma t.levels t.queues t.pools t.orphans t.chans t.scrub t.cat t.power x_keeper x_cons t.pads t.rings t.vecs t.hostFn t.streams t.staged t.taking t.tripped t.gone :=
  h.keeper x_keeper p_keeper |>.cons x_cons p_cons
theorem FrameF.u_cat_staged_taking (h : s.frame t ps fs) {x_cat x_staged x_taking} (p_cat : .cat ∈ ps) (p_staged : .staged ∈ ps) (p_taking : .taking ∈ ps) : FrameF s ps fs t.big t.regs t.dram t.damage t.host t.pending t.free t.ticks t.time t.answer t.dater t.net t.bnd t.rgs t.harts t.engines t.copyCar t.copyScb t.mmu t.dma t.levels t.queues t.pools t.orphans t.chans t.scrub x_cat t.power t.keeper t.cons t.pads t.rings t.vecs t.hostFn t.streams x_staged x_taking t.tripped t.gone :=
  h.cat x_cat p_cat |>.staged x_staged p_staged |>.taking x_taking p_taking
theorem FrameF.u_cat_taking (h : s.frame t ps fs) {x_cat x_taking} (p_cat : .cat ∈ ps) (p_taking : .taking ∈ ps) : FrameF s ps fs t.big t.regs t.dram t.damage t.host t.pending t.free t.ticks t.time t.answer t.dater t.net t.bnd t.rgs t.harts t.engines t.copyCar t.copyScb t.mmu t.dma t.levels t.queues t.pools t.orphans t.chans t.scrub x_cat t.power t.keeper t.cons t.pads t.rings t.vecs t.hostFn t.streams t.staged x_taking t.tripped t.gone :=
  h.cat x_cat p_cat |>.taking x_taking p_taking
theorem FrameF.u_power_hostFn (h : s.frame t ps fs) {x_power x_hostFn} (p_power : .power ∈ ps) (p_hostFn : .hostFn ∈ ps) : FrameF s ps fs t.big t.regs t.dram t.damage t.host t.pending t.free t.ticks t.time t.answer t.dater t.net t.bnd t.rgs t.harts t.engines t.copyCar t.copyScb t.mmu t.dma t.levels t.queues t.pools t.orphans t.chans t.scrub t.cat x_power t.keeper t.cons t.pads t.rings t.vecs x_hostFn t.streams t.staged t.taking t.tripped t.gone :=
  h.power x_power p_power |>.hostFn x_hostFn p_hostFn
theorem FrameF.u_harts_copyCar_copyScb_cat_power_keeper (h : s.frame t ps fs) {x_harts x_copyCar x_copyScb x_cat x_power x_keeper} (p_harts : .harts ∈ ps) (p_copyCar : .copyCar ∈ ps) (p_copyScb : .copyScb ∈ ps) (p_cat : .cat ∈ ps) (p_power : .power ∈ ps) (p_keeper : .keeper ∈ ps) : FrameF s ps fs t.big t.regs t.dram t.damage t.host t.pending t.free t.ticks t.time t.answer t.dater t.net t.bnd t.rgs x_harts t.engines x_copyCar x_copyScb t.mmu t.dma t.levels t.queues t.pools t.orphans t.chans t.scrub x_cat x_power x_keeper t.cons t.pads t.rings t.vecs t.hostFn t.streams t.staged t.taking t.tripped t.gone :=
  h.harts x_harts p_harts |>.copyCar x_copyCar p_copyCar |>.copyScb x_copyScb p_copyScb |>.cat x_cat p_cat |>.power x_power p_power |>.keeper x_keeper p_keeper
theorem FrameF.u_copyCar_copyScb (h : s.frame t ps fs) {x_copyCar x_copyScb} (p_copyCar : .copyCar ∈ ps) (p_copyScb : .copyScb ∈ ps) : FrameF s ps fs t.big t.regs t.dram t.damage t.host t.pending t.free t.ticks t.time t.answer t.dater t.net t.bnd t.rgs t.harts t.engines x_copyCar x_copyScb t.mmu t.dma t.levels t.queues t.pools t.orphans t.chans t.scrub t.cat t.power t.keeper t.cons t.pads t.rings t.vecs t.hostFn t.streams t.staged t.taking t.tripped t.gone :=
  h.copyCar x_copyCar p_copyCar |>.copyScb x_copyScb p_copyScb
theorem FrameF.u_cat_keeper (h : s.frame t ps fs) {x_cat x_keeper} (p_cat : .cat ∈ ps) (p_keeper : .keeper ∈ ps) : FrameF s ps fs t.big t.regs t.dram t.damage t.host t.pending t.free t.ticks t.time t.answer t.dater t.net t.bnd t.rgs t.harts t.engines t.copyCar t.copyScb t.mmu t.dma t.levels t.queues t.pools t.orphans t.chans t.scrub x_cat t.power x_keeper t.cons t.pads t.rings t.vecs t.hostFn t.streams t.staged t.taking t.tripped t.gone :=
  h.cat x_cat p_cat |>.keeper x_keeper p_keeper

end Sys2Proof.Machine
end

