-- ==== Sys2Proof/Laws/Kept.lean ====
section
/-! SUPPORT. What every operation keeps: the canonical forms, the grade, the queue of commands, the count of ticks, and every part of the
state that it does not touch, unless a reset is taken. -/
set_option linter.unusedTactic false
set_option linter.unreachableTactic false

namespace Sys2Proof.Machine

/-- The part as the state holds it is in both states the same. -/
def Part.raw (s t : State) : Part → Prop
  | .big => t.big = s.big
  | .dram => t.dram = s.dram
  | .damage => t.damage = s.damage
  | .host => t.host = s.host
  | .pending => t.pending = s.pending
  | .free => t.free = s.free
  | .ticks => t.ticks = s.ticks
  | .time => t.time = s.time
  | .answer => t.answer = s.answer
  | .dater => t.dater = s.dater
  | .net => t.net = s.net
  | .bnd => t.bnd = s.bnd
  | .rgs => t.rgs = s.rgs
  | .harts => t.harts = s.harts
  | .engines => t.engines = s.engines
  | .copyCar => t.copyCar = s.copyCar
  | .copyScb => t.copyScb = s.copyScb
  | .mmu => t.mmu = s.mmu
  | .dma => t.dma = s.dma
  | .levels => t.levels = s.levels
  | .queues => t.queues = s.queues
  | .pools => t.pools = s.pools
  | .orphans => t.orphans = s.orphans
  | .chans => t.chans = s.chans
  | .scrub => t.scrub = s.scrub
  | .cat => t.cat = s.cat
  | .power => t.power = s.power
  | .keeper => t.keeper = s.keeper
  | .cons => t.cons = s.cons
  | .pads => t.pads = s.pads
  | .rings => t.rings = s.rings
  | .vecs => t.vecs = s.vecs
  | .hostFn => t.hostFn = s.hostFn
  | .streams => t.streams = s.streams
  | .staged => t.staged = s.staged
  | .taking => t.taking = s.taking
  | .tripped => t.tripped = s.tripped
  | .gone => t.gone = s.gone

/-- The state s is canonical; beside b0 it has the same grade, queue and ticks, host memory unless P allows it to change, and, unless it
is held in reset, every part that P does not allow to change. -/
def State.Kept (P : Part → Bool) (s b0 : State) : Prop :=
  s.canon = true ∧ (s.big = b0.big ∧ s.pending = b0.pending ∧ s.ticks = b0.ticks ∧ (P .host = false → s.host = b0.host)) ∧
  (s.power.held = true ∨ ∀ p, P p = false → p.raw b0 s)

variable {P : Part → Bool} {b0 : State}

theorem State.Kept.refl {s : State} (h : s.canon = true) : s.Kept P s := ⟨h, ⟨rfl, rfl, rfl, fun _ => rfl⟩, .inr fun p _ => by cases p <;> rfl⟩

/-- `State.Kept` of a state given field by field. -/
def KeptF (P : Part → Bool) (b0 : State) (big : Bool) (regs : Tab Word) (dram : Tab Byte) (damage : Tab Nat) (host : Tab Byte) (pending : List Instr) (free : Nat) (ticks : Nat) (time : Nat) (answer : List Nat) (dater : Dater) (net : Net) (bnd : Bindery) (rgs : Registrar) (harts : Tab Hart) (engines : Tab Engine) (copyCar : Tab Nat) (copyScb : Tab Nat) (mmu : Mmu) (dma : Tab DmaCh) (levels : List Nat) (queues : Tab Queue) (pools : Tab Pool) (orphans : List Nat) (chans : Tab Chan) (scrub : Scrubber) (cat : Catalogue) (power : Power) (keeper : Keeper) (cons : Conservator) (pads : Pads) (rings : Tab Ring) (vecs : Tab Vec) (hostFn : HostFn) (streams : Tab Stream) (staged : List Staged) (taking : List Staged) (tripped : List Nat) (gone : Nat × Nat) : Prop :=
  State.Kept P (State.mk big regs dram damage host pending free ticks time answer dater net bnd rgs harts engines copyCar copyScb mmu dma levels queues pools orphans chans scrub cat power keeper cons pads rings vecs hostFn streams staged taking tripped gone) b0

theorem State.kept_mk {big regs dram damage host pending free ticks time answer dater net bnd rgs harts engines copyCar copyScb mmu dma levels queues pools orphans chans scrub cat power keeper cons pads rings vecs hostFn streams staged taking tripped gone} : (State.mk big regs dram damage host pending free ticks time answer dater net bnd rgs harts engines copyCar copyScb mmu dma levels queues pools orphans chans scrub cat power keeper cons pads rings vecs hostFn streams staged taking tripped gone).Kept P b0 ↔ KeptF P b0 big regs dram damage host pending free ticks time answer dater net bnd rgs harts engines copyCar copyScb mmu dma levels queues pools orphans chans scrub cat power keeper cons pads rings vecs hostFn streams staged taking tripped gone :=
  Iff.rfl

theorem KeptF.of {s : State} (h : s.Kept P b0) : KeptF P b0 s.big s.regs s.dram s.damage s.host s.pending s.free s.ticks s.time s.answer s.dater s.net s.bnd s.rgs s.harts s.engines s.copyCar s.copyScb s.mmu s.dma s.levels s.queues s.pools s.orphans s.chans s.scrub s.cat s.power s.keeper s.cons s.pads s.rings s.vecs s.hostFn s.streams s.staged s.taking s.tripped s.gone := h

/-- A state that is held in reset may have lost everything but host memory. -/
theorem State.Kept.held {P' : Part → Bool} {s : State} (h : s.Kept P' b0) (hh : s.power.held = true) (hp : P .host = false → P' .host = false) :
    s.Kept P b0 := ⟨h.1, ⟨h.2.1.1, h.2.1.2.1, h.2.1.2.2.1, fun e => h.2.1.2.2.2 (hp e)⟩, .inl hh⟩

theorem KeptF.u_rings {s : State} (h : s.Kept P b0) (p_rings : P .rings = true) {x_rings} :
    KeptF P b0 s.big s.regs s.dram s.damage s.host s.pending s.free s.ticks s.time s.answer s.dater s.net s.bnd s.rgs s.harts s.engines s.copyCar s.copyScb s.mmu s.dma s.levels s.queues s.pools s.orphans s.chans s.scrub s.cat s.power s.keeper s.cons s.pads x_rings s.vecs s.hostFn s.streams s.staged s.taking s.tripped s.gone :=
  ⟨h.1, h.2.1, h.2.2.imp id fun g p hp => by cases p <;> first | exact g _ hp | simp_all⟩
theorem KeptF.u_vecs {s : State} (h : s.Kept P b0) (p_vecs : P .vecs = true) {x_vecs} :
    KeptF P b0 s.big s.regs s.dram s.damage s.host s.pending s.free s.ticks s.time s.answer s.dater s.net s.bnd s.rgs s.harts s.engines s.copyCar s.copyScb s.mmu s.dma s.levels s.queues s.pools s.orphans s.chans s.scrub s.cat s.power s.keeper s.cons s.pads s.rings x_vecs s.hostFn s.streams s.staged s.taking s.tripped s.gone :=
  ⟨h.1, h.2.1, h.2.2.imp id fun g p hp => by cases p <;> first | exact g _ hp | simp_all⟩
theorem KeptF.u_streams {s : State} (h : s.Kept P b0) (p_streams : P .streams = true) {x_streams} :
    KeptF P b0 s.big s.regs s.dram s.damage s.host s.pending s.free s.ticks s.time s.answer s.dater s.net s.bnd s.rgs s.harts s.engines s.copyCar s.copyScb s.mmu s.dma s.levels s.queues s.pools s.orphans s.chans s.scrub s.cat s.power s.keeper s.cons s.pads s.rings s.vecs s.hostFn x_streams s.staged s.taking s.tripped s.gone :=
  ⟨h.1, h.2.1, h.2.2.imp id fun g p hp => by cases p <;> first | exact g _ hp | simp_all⟩
theorem KeptF.u_harts {s : State} (h : s.Kept P b0) (p_harts : P .harts = true) {x_harts} :
    KeptF P b0 s.big s.regs s.dram s.damage s.host s.pending s.free s.ticks s.time s.answer s.dater s.net s.bnd s.rgs x_harts s.engines s.copyCar s.copyScb s.mmu s.dma s.levels s.queues s.pools s.orphans s.chans s.scrub s.cat s.power s.keeper s.cons s.pads s.rings s.vecs s.hostFn s.streams s.staged s.taking s.tripped s.gone :=
  ⟨h.1, h.2.1, h.2.2.imp id fun g p hp => by cases p <;> first | exact g _ hp | simp_all⟩
theorem KeptF.u_engines {s : State} (h : s.Kept P b0) (p_engines : P .engines = true) {x_engines} :
    KeptF P b0 s.big s.regs s.dram s.damage s.host s.pending s.free s.ticks s.time s.answer s.dater s.net s.bnd s.rgs s.harts x_engines s.copyCar s.copyScb s.mmu s.dma s.levels s.queues s.pools s.orphans s.chans s.scrub s.cat s.power s.keeper s.cons s.pads s.rings s.vecs s.hostFn s.streams s.staged s.taking s.tripped s.gone :=
  ⟨h.1, h.2.1, h.2.2.imp id fun g p hp => by cases p <;> first | exact g _ hp | simp_all⟩
theorem KeptF.u_dma {s : State} (h : s.Kept P b0) (p_dma : P .dma = true) {x_dma} :
    KeptF P b0 s.big s.regs s.dram s.damage s.host s.pending s.free s.ticks s.time s.answer s.dater s.net s.bnd s.rgs s.harts s.engines s.copyCar s.copyScb s.mmu x_dma s.levels s.queues s.pools s.orphans s.chans s.scrub s.cat s.power s.keeper s.cons s.pads s.rings s.vecs s.hostFn s.streams s.staged s.taking s.tripped s.gone :=
  ⟨h.1, h.2.1, h.2.2.imp id fun g p hp => by cases p <;> first | exact g _ hp | simp_all⟩
theorem KeptF.u_queues {s : State} (h : s.Kept P b0) (p_queues : P .queues = true) {x_queues} :
    KeptF P b0 s.big s.regs s.dram s.damage s.host s.pending s.free s.ticks s.time s.answer s.dater s.net s.bnd s.rgs s.harts s.engines s.copyCar s.copyScb s.mmu s.dma s.levels x_queues s.pools s.orphans s.chans s.scrub s.cat s.power s.keeper s.cons s.pads s.rings s.vecs s.hostFn s.streams s.staged s.taking s.tripped s.gone :=
  ⟨h.1, h.2.1, h.2.2.imp id fun g p hp => by cases p <;> first | exact g _ hp | simp_all⟩
theorem KeptF.u_pools {s : State} (h : s.Kept P b0) (p_pools : P .pools = true) {x_pools} :
    KeptF P b0 s.big s.regs s.dram s.damage s.host s.pending s.free s.ticks s.time s.answer s.dater s.net s.bnd s.rgs s.harts s.engines s.copyCar s.copyScb s.mmu s.dma s.levels s.queues x_pools s.orphans s.chans s.scrub s.cat s.power s.keeper s.cons s.pads s.rings s.vecs s.hostFn s.streams s.staged s.taking s.tripped s.gone :=
  ⟨h.1, h.2.1, h.2.2.imp id fun g p hp => by cases p <;> first | exact g _ hp | simp_all⟩
theorem KeptF.u_chans {s : State} (h : s.Kept P b0) (p_chans : P .chans = true) {x_chans} :
    KeptF P b0 s.big s.regs s.dram s.damage s.host s.pending s.free s.ticks s.time s.answer s.dater s.net s.bnd s.rgs s.harts s.engines s.copyCar s.copyScb s.mmu s.dma s.levels s.queues s.pools s.orphans x_chans s.scrub s.cat s.power s.keeper s.cons s.pads s.rings s.vecs s.hostFn s.streams s.staged s.taking s.tripped s.gone :=
  ⟨h.1, h.2.1, h.2.2.imp id fun g p hp => by cases p <;> first | exact g _ hp | simp_all⟩
theorem KeptF.u_bnd {s : State} (h : s.Kept P b0) (p_bnd : P .bnd = true) {x_bnd} :
    KeptF P b0 s.big s.regs s.dram s.damage s.host s.pending s.free s.ticks s.time s.answer s.dater s.net x_bnd s.rgs s.harts s.engines s.copyCar s.copyScb s.mmu s.dma s.levels s.queues s.pools s.orphans s.chans s.scrub s.cat s.power s.keeper s.cons s.pads s.rings s.vecs s.hostFn s.streams s.staged s.taking s.tripped s.gone :=
  ⟨h.1, h.2.1, h.2.2.imp id fun g p hp => by cases p <;> first | exact g _ hp | simp_all⟩
theorem KeptF.u_cat {s : State} (h : s.Kept P b0) (p_cat : P .cat = true) {x_cat} :
    KeptF P b0 s.big s.regs s.dram s.damage s.host s.pending s.free s.ticks s.time s.answer s.dater s.net s.bnd s.rgs s.harts s.engines s.copyCar s.copyScb s.mmu s.dma s.levels s.queues s.pools s.orphans s.chans s.scrub x_cat s.power s.keeper s.cons s.pads s.rings s.vecs s.hostFn s.streams s.staged s.taking s.tripped s.gone :=
  ⟨h.1, h.2.1, h.2.2.imp id fun g p hp => by cases p <;> first | exact g _ hp | simp_all⟩
theorem KeptF.u_free {s : State} (h : s.Kept P b0) (p_free : P .free = true) {x_free} :
    KeptF P b0 s.big s.regs s.dram s.damage s.host s.pending x_free s.ticks s.time s.answer s.dater s.net s.bnd s.rgs s.harts s.engines s.copyCar s.copyScb s.mmu s.dma s.levels s.queues s.pools s.orphans s.chans s.scrub s.cat s.power s.keeper s.cons s.pads s.rings s.vecs s.hostFn s.streams s.staged s.taking s.tripped s.gone :=
  ⟨h.1, h.2.1, h.2.2.imp id fun g p hp => by cases p <;> first | exact g _ hp | simp_all⟩
theorem KeptF.u_answer {s : State} (h : s.Kept P b0) (p_answer : P .answer = true) {x_answer} :
    KeptF P b0 s.big s.regs s.dram s.damage s.host s.pending s.free s.ticks s.time x_answer s.dater s.net s.bnd s.rgs s.harts s.engines s.copyCar s.copyScb s.mmu s.dma s.levels s.queues s.pools s.orphans s.chans s.scrub s.cat s.power s.keeper s.cons s.pads s.rings s.vecs s.hostFn s.streams s.staged s.taking s.tripped s.gone :=
  ⟨h.1, h.2.1, h.2.2.imp id fun g p hp => by cases p <;> first | exact g _ hp | simp_all⟩
theorem KeptF.u_power {s : State} (h : s.Kept P b0) (p_power : P .power = true) {x_power} (hh : s.power.held = true → x_power.held = true) :
    KeptF P b0 s.big s.regs s.dram s.damage s.host s.pending s.free s.ticks s.time s.answer s.dater s.net s.bnd s.rgs s.harts s.engines s.copyCar s.copyScb s.mmu s.dma s.levels s.queues s.pools s.orphans s.chans s.scrub s.cat x_power s.keeper s.cons s.pads s.rings s.vecs s.hostFn s.streams s.staged s.taking s.tripped s.gone :=
  ⟨h.1, h.2.1, h.2.2.imp hh fun g p hp => by cases p <;> first | exact g _ hp | simp_all⟩
theorem KeptF.u_hostFn {s : State} (h : s.Kept P b0) (p_hostFn : P .hostFn = true) {x_hostFn} :
    KeptF P b0 s.big s.regs s.dram s.damage s.host s.pending s.free s.ticks s.time s.answer s.dater s.net s.bnd s.rgs s.harts s.engines s.copyCar s.copyScb s.mmu s.dma s.levels s.queues s.pools s.orphans s.chans s.scrub s.cat s.power s.keeper s.cons s.pads s.rings s.vecs x_hostFn s.streams s.staged s.taking s.tripped s.gone :=
  ⟨h.1, h.2.1, h.2.2.imp id fun g p hp => by cases p <;> first | exact g _ hp | simp_all⟩
theorem KeptF.u_pads {s : State} (h : s.Kept P b0) (p_pads : P .pads = true) {x_pads} :
    KeptF P b0 s.big s.regs s.dram s.damage s.host s.pending s.free s.ticks s.time s.answer s.dater s.net s.bnd s.rgs s.harts s.engines s.copyCar s.copyScb s.mmu s.dma s.levels s.queues s.pools s.orphans s.chans s.scrub s.cat s.power s.keeper s.cons x_pads s.rings s.vecs s.hostFn s.streams s.staged s.taking s.tripped s.gone :=
  ⟨h.1, h.2.1, h.2.2.imp id fun g p hp => by cases p <;> first | exact g _ hp | simp_all⟩
theorem KeptF.u_rgs {s : State} (h : s.Kept P b0) (p_rgs : P .rgs = true) {x_rgs} :
    KeptF P b0 s.big s.regs s.dram s.damage s.host s.pending s.free s.ticks s.time s.answer s.dater s.net s.bnd x_rgs s.harts s.engines s.copyCar s.copyScb s.mmu s.dma s.levels s.queues s.pools s.orphans s.chans s.scrub s.cat s.power s.keeper s.cons s.pads s.rings s.vecs s.hostFn s.streams s.staged s.taking s.tripped s.gone :=
  ⟨h.1, h.2.1, h.2.2.imp id fun g p hp => by cases p <;> first | exact g _ hp | simp_all⟩
theorem KeptF.u_dater {s : State} (h : s.Kept P b0) (p_dater : P .dater = true) {x_dater} :
    KeptF P b0 s.big s.regs s.dram s.damage s.host s.pending s.free s.ticks s.time s.answer x_dater s.net s.bnd s.rgs s.harts s.engines s.copyCar s.copyScb s.mmu s.dma s.levels s.queues s.pools s.orphans s.chans s.scrub s.cat s.power s.keeper s.cons s.pads s.rings s.vecs s.hostFn s.streams s.staged s.taking s.tripped s.gone :=
  ⟨h.1, h.2.1, h.2.2.imp id fun g p hp => by cases p <;> first | exact g _ hp | simp_all⟩
theorem KeptF.u_mmu {s : State} (h : s.Kept P b0) (p_mmu : P .mmu = true) {x_mmu} :
    KeptF P b0 s.big s.regs s.dram s.damage s.host s.pending s.free s.ticks s.time s.answer s.dater s.net s.bnd s.rgs s.harts s.engines s.copyCar s.copyScb x_mmu s.dma s.levels s.queues s.pools s.orphans s.chans s.scrub s.cat s.power s.keeper s.cons s.pads s.rings s.vecs s.hostFn s.streams s.staged s.taking s.tripped s.gone :=
  ⟨h.1, h.2.1, h.2.2.imp id fun g p hp => by cases p <;> first | exact g _ hp | simp_all⟩
theorem KeptF.u_gone {s : State} (h : s.Kept P b0) (p_gone : P .gone = true) {x_gone} :
    KeptF P b0 s.big s.regs s.dram s.damage s.host s.pending s.free s.ticks s.time s.answer s.dater s.net s.bnd s.rgs s.harts s.engines s.copyCar s.copyScb s.mmu s.dma s.levels s.queues s.pools s.orphans s.chans s.scrub s.cat s.power s.keeper s.cons s.pads s.rings s.vecs s.hostFn s.streams s.staged s.taking s.tripped x_gone :=
  ⟨h.1, h.2.1, h.2.2.imp id fun g p hp => by cases p <;> first | exact g _ hp | simp_all⟩
theorem KeptF.u_scrub {s : State} (h : s.Kept P b0) (p_scrub : P .scrub = true) {x_scrub} :
    KeptF P b0 s.big s.regs s.dram s.damage s.host s.pending s.free s.ticks s.time s.answer s.dater s.net s.bnd s.rgs s.harts s.engines s.copyCar s.copyScb s.mmu s.dma s.levels s.queues s.pools s.orphans s.chans x_scrub s.cat s.power s.keeper s.cons s.pads s.rings s.vecs s.hostFn s.streams s.staged s.taking s.tripped s.gone :=
  ⟨h.1, h.2.1, h.2.2.imp id fun g p hp => by cases p <;> first | exact g _ hp | simp_all⟩
theorem KeptF.u_cons {s : State} (h : s.Kept P b0) (p_cons : P .cons = true) {x_cons} :
    KeptF P b0 s.big s.regs s.dram s.damage s.host s.pending s.free s.ticks s.time s.answer s.dater s.net s.bnd s.rgs s.harts s.engines s.copyCar s.copyScb s.mmu s.dma s.levels s.queues s.pools s.orphans s.chans s.scrub s.cat s.power s.keeper x_cons s.pads s.rings s.vecs s.hostFn s.streams s.staged s.taking s.tripped s.gone :=
  ⟨h.1, h.2.1, h.2.2.imp id fun g p hp => by cases p <;> first | exact g _ hp | simp_all⟩
theorem KeptF.u_levels {s : State} (h : s.Kept P b0) (p_levels : P .levels = true) {x_levels} :
    KeptF P b0 s.big s.regs s.dram s.damage s.host s.pending s.free s.ticks s.time s.answer s.dater s.net s.bnd s.rgs s.harts s.engines s.copyCar s.copyScb s.mmu s.dma x_levels s.queues s.pools s.orphans s.chans s.scrub s.cat s.power s.keeper s.cons s.pads s.rings s.vecs s.hostFn s.streams s.staged s.taking s.tripped s.gone :=
  ⟨h.1, h.2.1, h.2.2.imp id fun g p hp => by cases p <;> first | exact g _ hp | simp_all⟩
theorem KeptF.u_orphans {s : State} (h : s.Kept P b0) (p_orphans : P .orphans = true) {x_orphans} :
    KeptF P b0 s.big s.regs s.dram s.damage s.host s.pending s.free s.ticks s.time s.answer s.dater s.net s.bnd s.rgs s.harts s.engines s.copyCar s.copyScb s.mmu s.dma s.levels s.queues s.pools x_orphans s.chans s.scrub s.cat s.power s.keeper s.cons s.pads s.rings s.vecs s.hostFn s.streams s.staged s.taking s.tripped s.gone :=
  ⟨h.1, h.2.1, h.2.2.imp id fun g p hp => by cases p <;> first | exact g _ hp | simp_all⟩
theorem KeptF.u_staged_taking {s : State} (h : s.Kept P b0) (p_staged : P .staged = true) (p_taking : P .taking = true) {x_staged x_taking} :
    KeptF P b0 s.big s.regs s.dram s.damage s.host s.pending s.free s.ticks s.time s.answer s.dater s.net s.bnd s.rgs s.harts s.engines s.copyCar s.copyScb s.mmu s.dma s.levels s.queues s.pools s.orphans s.chans s.scrub s.cat s.power s.keeper s.cons s.pads s.rings s.vecs s.hostFn s.streams x_staged x_taking s.tripped s.gone :=
  ⟨h.1, h.2.1, h.2.2.imp id fun g p hp => by cases p <;> first | exact g _ hp | simp_all⟩
theorem KeptF.u_net {s : State} (h : s.Kept P b0) (p_net : P .net = true) {x_net} :
    KeptF P b0 s.big s.regs s.dram s.damage s.host s.pending s.free s.ticks s.time s.answer s.dater x_net s.bnd s.rgs s.harts s.engines s.copyCar s.copyScb s.mmu s.dma s.levels s.queues s.pools s.orphans s.chans s.scrub s.cat s.power s.keeper s.cons s.pads s.rings s.vecs s.hostFn s.streams s.staged s.taking s.tripped s.gone :=
  ⟨h.1, h.2.1, h.2.2.imp id fun g p hp => by cases p <;> first | exact g _ hp | simp_all⟩
theorem KeptF.u_time {s : State} (h : s.Kept P b0) (p_time : P .time = true) {x_time} :
    KeptF P b0 s.big s.regs s.dram s.damage s.host s.pending s.free s.ticks x_time s.answer s.dater s.net s.bnd s.rgs s.harts s.engines s.copyCar s.copyScb s.mmu s.dma s.levels s.queues s.pools s.orphans s.chans s.scrub s.cat s.power s.keeper s.cons s.pads s.rings s.vecs s.hostFn s.streams s.staged s.taking s.tripped s.gone :=
  ⟨h.1, h.2.1, h.2.2.imp id fun g p hp => by cases p <;> first | exact g _ hp | simp_all⟩
theorem KeptF.u_tripped {s : State} (h : s.Kept P b0) (p_tripped : P .tripped = true) {x_tripped} :
    KeptF P b0 s.big s.regs s.dram s.damage s.host s.pending s.free s.ticks s.time s.answer s.dater s.net s.bnd s.rgs s.harts s.engines s.copyCar s.copyScb s.mmu s.dma s.levels s.queues s.pools s.orphans s.chans s.scrub s.cat s.power s.keeper s.cons s.pads s.rings s.vecs s.hostFn s.streams s.staged s.taking x_tripped s.gone :=
  ⟨h.1, h.2.1, h.2.2.imp id fun g p hp => by cases p <;> first | exact g _ hp | simp_all⟩
theorem KeptF.u_staged {s : State} (h : s.Kept P b0) (p_staged : P .staged = true) {x_staged} :
    KeptF P b0 s.big s.regs s.dram s.damage s.host s.pending s.free s.ticks s.time s.answer s.dater s.net s.bnd s.rgs s.harts s.engines s.copyCar s.copyScb s.mmu s.dma s.levels s.queues s.pools s.orphans s.chans s.scrub s.cat s.power s.keeper s.cons s.pads s.rings s.vecs s.hostFn s.streams x_staged s.taking s.tripped s.gone :=
  ⟨h.1, h.2.1, h.2.2.imp id fun g p hp => by cases p <;> first | exact g _ hp | simp_all⟩
theorem KeptF.u_keeper_cons {s : State} (h : s.Kept P b0) (p_keeper : P .keeper = true) (p_cons : P .cons = true) {x_keeper x_cons} :
    KeptF P b0 s.big s.regs s.dram s.damage s.host s.pending s.free s.ticks s.time s.answer s.dater s.net s.bnd s.rgs s.harts s.engines s.copyCar s.copyScb s.mmu s.dma s.levels s.queues s.pools s.orphans s.chans s.scrub s.cat s.power x_keeper x_cons s.pads s.rings s.vecs s.hostFn s.streams s.staged s.taking s.tripped s.gone :=
  ⟨h.1, h.2.1, h.2.2.imp id fun g p hp => by cases p <;> first | exact g _ hp | simp_all⟩
theorem KeptF.u_cat_staged_taking {s : State} (h : s.Kept P b0) (p_cat : P .cat = true) (p_staged : P .staged = true) (p_taking : P .taking = true) {x_cat x_staged x_taking} :
    KeptF P b0 s.big s.regs s.dram s.damage s.host s.pending s.free s.ticks s.time s.answer s.dater s.net s.bnd s.rgs s.harts s.engines s.copyCar s.copyScb s.mmu s.dma s.levels s.queues s.pools s.orphans s.chans s.scrub x_cat s.power s.keeper s.cons s.pads s.rings s.vecs s.hostFn s.streams x_staged x_taking s.tripped s.gone :=
  ⟨h.1, h.2.1, h.2.2.imp id fun g p hp => by cases p <;> first | exact g _ hp | simp_all⟩
theorem KeptF.u_cat_taking {s : State} (h : s.Kept P b0) (p_cat : P .cat = true) (p_taking : P .taking = true) {x_cat x_taking} :
    KeptF P b0 s.big s.regs s.dram s.damage s.host s.pending s.free s.ticks s.time s.answer s.dater s.net s.bnd s.rgs s.harts s.engines s.copyCar s.copyScb s.mmu s.dma s.levels s.queues s.pools s.orphans s.chans s.scrub x_cat s.power s.keeper s.cons s.pads s.rings s.vecs s.hostFn s.streams s.staged x_taking s.tripped s.gone :=
  ⟨h.1, h.2.1, h.2.2.imp id fun g p hp => by cases p <;> first | exact g _ hp | simp_all⟩
theorem KeptF.u_keeper {s : State} (h : s.Kept P b0) (p_keeper : P .keeper = true) {x_keeper} :
    KeptF P b0 s.big s.regs s.dram s.damage s.host s.pending s.free s.ticks s.time s.answer s.dater s.net s.bnd s.rgs s.harts s.engines s.copyCar s.copyScb s.mmu s.dma s.levels s.queues s.pools s.orphans s.chans s.scrub s.cat s.power x_keeper s.cons s.pads s.rings s.vecs s.hostFn s.streams s.staged s.taking s.tripped s.gone :=
  ⟨h.1, h.2.1, h.2.2.imp id fun g p hp => by cases p <;> first | exact g _ hp | simp_all⟩
theorem KeptF.u_power_hostFn {s : State} (h : s.Kept P b0) (p_power : P .power = true) (p_hostFn : P .hostFn = true) {x_power x_hostFn} (hh : s.power.held = true → x_power.held = true) :
    KeptF P b0 s.big s.regs s.dram s.damage s.host s.pending s.free s.ticks s.time s.answer s.dater s.net s.bnd s.rgs s.harts s.engines s.copyCar s.copyScb s.mmu s.dma s.levels s.queues s.pools s.orphans s.chans s.scrub s.cat x_power s.keeper s.cons s.pads s.rings s.vecs x_hostFn s.streams s.staged s.taking s.tripped s.gone :=
  ⟨h.1, h.2.1, h.2.2.imp hh fun g p hp => by cases p <;> first | exact g _ hp | simp_all⟩
theorem KeptF.u_harts_copyCar_copyScb_cat_power_keeper {s : State} (h : s.Kept P b0) (p_harts : P .harts = true) (p_copyCar : P .copyCar = true) (p_copyScb : P .copyScb = true) (p_cat : P .cat = true) (p_power : P .power = true) (p_keeper : P .keeper = true) {x_harts x_copyCar x_copyScb x_cat x_power x_keeper} (hh : s.power.held = true → x_power.held = true) :
    KeptF P b0 s.big s.regs s.dram s.damage s.host s.pending s.free s.ticks s.time s.answer s.dater s.net s.bnd s.rgs x_harts s.engines x_copyCar x_copyScb s.mmu s.dma s.levels s.queues s.pools s.orphans s.chans s.scrub x_cat x_power x_keeper s.cons s.pads s.rings s.vecs s.hostFn s.streams s.staged s.taking s.tripped s.gone :=
  ⟨h.1, h.2.1, h.2.2.imp hh fun g p hp => by cases p <;> first | exact g _ hp | simp_all⟩
theorem KeptF.u_copyCar_copyScb {s : State} (h : s.Kept P b0) (p_copyCar : P .copyCar = true) (p_copyScb : P .copyScb = true) {x_copyCar x_copyScb} :
    KeptF P b0 s.big s.regs s.dram s.damage s.host s.pending s.free s.ticks s.time s.answer s.dater s.net s.bnd s.rgs s.harts s.engines x_copyCar x_copyScb s.mmu s.dma s.levels s.queues s.pools s.orphans s.chans s.scrub s.cat s.power s.keeper s.cons s.pads s.rings s.vecs s.hostFn s.streams s.staged s.taking s.tripped s.gone :=
  ⟨h.1, h.2.1, h.2.2.imp id fun g p hp => by cases p <;> first | exact g _ hp | simp_all⟩
theorem KeptF.u_cat_keeper {s : State} (h : s.Kept P b0) (p_cat : P .cat = true) (p_keeper : P .keeper = true) {x_cat x_keeper} :
    KeptF P b0 s.big s.regs s.dram s.damage s.host s.pending s.free s.ticks s.time s.answer s.dater s.net s.bnd s.rgs s.harts s.engines s.copyCar s.copyScb s.mmu s.dma s.levels s.queues s.pools s.orphans s.chans s.scrub x_cat s.power x_keeper s.cons s.pads s.rings s.vecs s.hostFn s.streams s.staged s.taking s.tripped s.gone :=
  ⟨h.1, h.2.1, h.2.2.imp id fun g p hp => by cases p <;> first | exact g _ hp | simp_all⟩
theorem KeptF.u_dater_power {s : State} (h : s.Kept P b0) (p_dater : P .dater = true) (p_power : P .power = true) {x_dater x_power} (hh : s.power.held = true → x_power.held = true) :
    KeptF P b0 s.big s.regs s.dram s.damage s.host s.pending s.free s.ticks s.time s.answer x_dater s.net s.bnd s.rgs s.harts s.engines s.copyCar s.copyScb s.mmu s.dma s.levels s.queues s.pools s.orphans s.chans s.scrub s.cat x_power s.keeper s.cons s.pads s.rings s.vecs s.hostFn s.streams s.staged s.taking s.tripped s.gone :=
  ⟨h.1, h.2.1, h.2.2.imp hh fun g p hp => by cases p <;> first | exact g _ hp | simp_all⟩
theorem KeptF.u_time_dater_rgs_power {s : State} (h : s.Kept P b0) (p_time : P .time = true) (p_dater : P .dater = true) (p_rgs : P .rgs = true) (p_power : P .power = true) {x_time x_dater x_rgs x_power} (hh : s.power.held = true → x_power.held = true) :
    KeptF P b0 s.big s.regs s.dram s.damage s.host s.pending s.free s.ticks x_time s.answer x_dater s.net s.bnd x_rgs s.harts s.engines s.copyCar s.copyScb s.mmu s.dma s.levels s.queues s.pools s.orphans s.chans s.scrub s.cat x_power s.keeper s.cons s.pads s.rings s.vecs s.hostFn s.streams s.staged s.taking s.tripped s.gone :=
  ⟨h.1, h.2.1, h.2.2.imp hh fun g p hp => by cases p <;> first | exact g _ hp | simp_all⟩

/-- Every part may change but host memory, which may where P allows it. -/
def loose (P : Part → Bool) (p : Part) : Bool := p != .host || P p
theorem loose_of {p : Part} (h : P p = true) : loose P p = true := by unfold loose; rw [h, Bool.or_true]
theorem State.Kept.loosen {s : State} (h : s.Kept P b0) : s.Kept (loose P) b0 :=
  ⟨h.1, ⟨h.2.1.1, h.2.1.2.1, h.2.1.2.2.1, fun e => h.2.1.2.2.2 (by simpa [loose] using e)⟩, h.2.2.imp id fun g p hp => g p (by
    cases e : P p
    · rfl
    · rw [loose_of e] at hp; exact absurd hp (by decide))⟩
theorem State.Kept.tight {s : State} (h : s.Kept (loose P) b0) (hh : s.power.held = true) : s.Kept P b0 :=
  h.held hh fun e => by simp [loose, e]

/-- An outcome keeps what its next state keeps. -/
structure OutKept (P : Part → Bool) (b0 : State) (o : Host.Outcome State Fault Refusal) : Prop where
  kept : ∀ t, o = .next t → t.Kept P b0
structure OptKept (P : Part → Bool) (b0 : State) (o : Option (Host.Outcome State Fault Refusal)) : Prop where
  kept : ∀ t, o = some t → OutKept P b0 t
theorem OutKept.next {s : State} (h : s.Kept P b0) : OutKept P b0 (.next s) := ⟨fun _ e => by cases e; exact h⟩
theorem OutKept.fault (f : Fault) : OutKept P b0 (.fault f) := ⟨fun _ e => by cases e⟩
theorem OptKept.some {o} (h : OutKept P b0 o) : OptKept P b0 (some o) := ⟨fun _ e => by cases e; exact h⟩
theorem OptKept.none : OptKept P b0 none := ⟨fun _ e => by cases e⟩
theorem OptKept.get {o t} (h : OptKept P b0 o) (e : o = Option.some t) : OutKept P b0 t := h.kept t e

theorem OptKept.ite {c : Prop} [Decidable c] {x y} (hx : OptKept P b0 x) (hy : OptKept P b0 y) : OptKept P b0 (if c then x else y) := by
  split
  · exact hx
  · exact hy
theorem OutKept.ite {c : Prop} [Decidable c] {x y} (hx : OutKept P b0 x) (hy : OutKept P b0 y) : OutKept P b0 (if c then x else y) := by
  split
  · exact hx
  · exact hy
theorem State.Kept.ite {c : Prop} [Decidable c] {x y : State} (hx : x.Kept P b0) (hy : y.Kept P b0) : (if c then x else y).Kept P b0 := by
  split
  · exact hx
  · exact hy

theorem kept_of_eq1 {β : Type} {p : State × β} {s : State} {y : β} (he : p = (s, y)) (h : p.1.Kept P b0) : s.Kept P b0 := by
  rw [he] at h; exact h
theorem kept_of_eq2 {β : Type} {p : β × State} {s : State} {y : β} (he : p = (y, s)) (h : p.2.Kept P b0) : s.Kept P b0 := by
  rw [he] at h; exact h

/-- Storing a run of bytes. -/
theorem KeptF.dram {s : State} (h : s.Kept P b0) (l : List (Byte × Nat)) (a : Nat) (p_dram : P .dram = true) :
    KeptF P b0 s.big s.regs (l.foldl (fun d q => Tab.set (fun _ => 0#8) d (a + q.2) q.1) s.dram) s.damage s.host s.pending s.free s.ticks s.time s.answer s.dater s.net s.bnd s.rgs s.harts s.engines s.copyCar s.copyScb s.mmu s.dma s.levels s.queues s.pools s.orphans s.chans s.scrub s.cat s.power s.keeper s.cons s.pads s.rings s.vecs s.hostFn s.streams s.staged s.taking s.tripped s.gone := by
  obtain ⟨h1, h2, h3⟩ := h
  refine ⟨?_, h2, h3.imp id fun g p hp => by cases p <;> first | exact g _ hp | simp_all⟩
  simp only [State.canon, Bool.and_eq_true] at h1 ⊢
  exact ⟨⟨⟨h1.1.1.1, Tab.wf_setAll _ _ _ _ h1.1.1.2⟩, h1.1.2⟩, h1.2⟩
theorem KeptF.host {s : State} (h : s.Kept P b0) (l : List (Byte × Nat)) (a : Nat) (p_host : P .host = true) :
    KeptF P b0 s.big s.regs s.dram s.damage (l.foldl (fun d q => Tab.set (fun _ => 0#8) d (a + q.2) q.1) s.host) s.pending s.free s.ticks s.time s.answer s.dater s.net s.bnd s.rgs s.harts s.engines s.copyCar s.copyScb s.mmu s.dma s.levels s.queues s.pools s.orphans s.chans s.scrub s.cat s.power s.keeper s.cons s.pads s.rings s.vecs s.hostFn s.streams s.staged s.taking s.tripped s.gone := by
  obtain ⟨h1, h2, h3⟩ := h
  refine ⟨?_, ⟨h2.1, h2.2.1, h2.2.2.1, fun e => by simp_all⟩, h3.imp id fun g p hp => by cases p <;> first | exact g _ hp | simp_all⟩
  simp only [State.canon, Bool.and_eq_true] at h1 ⊢
  exact ⟨⟨⟨h1.1.1.1, h1.1.1.2⟩, h1.1.2⟩, Tab.wf_setAll _ _ _ _ h1.2⟩
theorem KeptF.damage {s : State} (h : s.Kept P b0) (b m : Nat) (p_damage : P .damage = true) :
    KeptF P b0 s.big s.regs s.dram (Tab.set (fun _ => 0) s.damage b m) s.host s.pending s.free s.ticks s.time s.answer s.dater s.net s.bnd s.rgs s.harts s.engines s.copyCar s.copyScb s.mmu s.dma s.levels s.queues s.pools s.orphans s.chans s.scrub s.cat s.power s.keeper s.cons s.pads s.rings s.vecs s.hostFn s.streams s.staged s.taking s.tripped s.gone := by
  obtain ⟨h1, h2, h3⟩ := h
  refine ⟨?_, h2, h3.imp id fun g p hp => by cases p <;> first | exact g _ hp | simp_all⟩
  simp only [State.canon, Bool.and_eq_true] at h1 ⊢
  exact ⟨⟨⟨h1.1.1.1, h1.1.1.2⟩, Tab.wf_set _ _ _ h1.1.2⟩, h1.2⟩
/-- Leaving out registers. -/
theorem KeptF.keepRegs {s : State} (h : s.Kept P b0) (p : Nat → Bool)  :
    KeptF P b0 s.big (Tab.keep p s.regs) s.dram s.damage s.host s.pending s.free s.ticks s.time s.answer s.dater s.net s.bnd s.rgs s.harts s.engines s.copyCar s.copyScb s.mmu s.dma s.levels s.queues s.pools s.orphans s.chans s.scrub s.cat s.power s.keeper s.cons s.pads s.rings s.vecs s.hostFn s.streams s.staged s.taking s.tripped s.gone := by
  obtain ⟨h1, h2, h3⟩ := h
  refine ⟨?_, h2, h3.imp id fun g p hp => by cases p <;> first | exact g _ hp | simp_all⟩
  simp only [State.canon, Bool.and_eq_true] at h1 ⊢
  exact ⟨⟨⟨Tab.wf_keep _ _ h1.1.1.1, h1.1.1.2⟩, h1.1.2⟩, h1.2⟩
/-- Emptying a part of DRAM. -/
theorem KeptF.keepMem {s : State} (h : s.Kept P b0) (p d : Nat → Bool) (p_dram : P .dram = true) (p_damage : P .damage = true) :
    KeptF P b0 s.big s.regs (Tab.keep p s.dram) (Tab.keep d s.damage) s.host s.pending s.free s.ticks s.time s.answer s.dater s.net s.bnd s.rgs s.harts s.engines s.copyCar s.copyScb s.mmu s.dma s.levels s.queues s.pools s.orphans s.chans s.scrub s.cat s.power s.keeper s.cons s.pads s.rings s.vecs s.hostFn s.streams s.staged s.taking s.tripped s.gone := by
  obtain ⟨h1, h2, h3⟩ := h
  refine ⟨?_, h2, h3.imp id fun g p hp => by cases p <;> first | exact g _ hp | simp_all⟩
  simp only [State.canon, Bool.and_eq_true] at h1 ⊢
  exact ⟨⟨⟨h1.1.1.1, Tab.wf_keep _ _ h1.1.1.2⟩, Tab.wf_keep _ _ h1.1.2⟩, h1.2⟩
theorem KeptF.vault {s : State} (h : s.Kept P b0) (p : Nat → Bool) (p_net : P .net = true) (p_rgs : P .rgs = true) (p_harts : P .harts = true) (p_engines : P .engines = true) (p_mmu : P .mmu = true) (p_dma : P .dma = true) (p_levels : P .levels = true) (p_queues : P .queues = true) (p_pools : P .pools = true) (p_orphans : P .orphans = true) (p_chans : P .chans = true) (p_scrub : P .scrub = true) (p_cat : P .cat = true) (p_cons : P .cons = true) (p_rings : P .rings = true) (p_vecs : P .vecs = true) (p_hostFn : P .hostFn = true) (p_streams : P .streams = true) (p_staged : P .staged = true) (p_taking : P .taking = true) (p_tripped : P .tripped = true) (p_gone : P .gone = true) {x_net x_rgs x_harts x_engines x_mmu x_dma x_levels x_queues x_pools x_orphans x_chans x_scrub x_cat x_cons x_rings x_vecs x_hostFn x_streams x_staged x_taking x_tripped x_gone} :
    KeptF P b0 s.big (Tab.keep p s.regs) s.dram s.damage s.host s.pending s.free s.ticks s.time s.answer s.dater x_net s.bnd x_rgs x_harts x_engines s.copyCar s.copyScb x_mmu x_dma x_levels x_queues x_pools x_orphans x_chans x_scrub x_cat s.power s.keeper x_cons s.pads x_rings x_vecs x_hostFn x_streams x_staged x_taking x_tripped x_gone := by
  obtain ⟨h1, h2, h3⟩ := h
  refine ⟨?_, h2, h3.imp id fun g p hp => by cases p <;> first | exact g _ hp | simp_all⟩
  simp only [State.canon, Bool.and_eq_true] at h1 ⊢
  exact ⟨⟨⟨Tab.wf_keep _ _ h1.1.1.1, h1.1.1.2⟩, h1.1.2⟩, h1.2⟩
/-- A reset: nothing is left but the registers of some offsets, and host memory; the block is held. -/
theorem KeptF.wipe {s : State} (h : s.Kept P b0) (p : Nat → Bool) {x_free x_time x_answer x_dater x_net x_bnd x_rgs x_harts x_engines x_copyCar x_copyScb x_mmu x_dma x_levels x_queues x_pools x_orphans x_chans x_scrub x_cat x_power x_keeper x_cons x_pads x_rings x_vecs x_hostFn x_streams x_staged x_taking x_tripped x_gone} (hh : x_power.held = true) :
    KeptF P b0 s.big (Tab.keep p s.regs) State.reset.dram State.reset.damage s.host s.pending x_free s.ticks x_time x_answer x_dater x_net x_bnd x_rgs x_harts x_engines x_copyCar x_copyScb x_mmu x_dma x_levels x_queues x_pools x_orphans x_chans x_scrub x_cat x_power x_keeper x_cons x_pads x_rings x_vecs x_hostFn x_streams x_staged x_taking x_tripped x_gone := by
  obtain ⟨h1, h2, h3⟩ := h
  refine ⟨?_, h2, .inl hh⟩
  simp only [State.canon, Bool.and_eq_true] at h1 ⊢
  exact ⟨⟨⟨Tab.wf_keep _ _ h1.1.1.1, rfl⟩, rfl⟩, h1.2⟩
theorem KeptF.fresh {s : State} (h : s.Kept P b0) {x_free x_time x_answer x_dater x_net x_bnd x_rgs x_harts x_engines x_copyCar x_copyScb x_mmu x_dma x_levels x_queues x_pools x_orphans x_chans x_scrub x_cat x_power x_keeper x_cons x_pads x_rings x_vecs x_hostFn x_streams x_staged x_taking x_tripped x_gone} (hh : x_power.held = true) :
    KeptF P b0 s.big State.reset.regs State.reset.dram State.reset.damage s.host s.pending x_free s.ticks x_time x_answer x_dater x_net x_bnd x_rgs x_harts x_engines x_copyCar x_copyScb x_mmu x_dma x_levels x_queues x_pools x_orphans x_chans x_scrub x_cat x_power x_keeper x_cons x_pads x_rings x_vecs x_hostFn x_streams x_staged x_taking x_tripped x_gone := by
  obtain ⟨h1, h2, h3⟩ := h
  refine ⟨?_, h2, .inl hh⟩
  simp only [State.canon, Bool.and_eq_true] at h1 ⊢
  exact ⟨⟨⟨rfl, rfl⟩, rfl⟩, h1.2⟩
/-- The release of a reset. -/
theorem KeptF.release {s : State} (h : s.canon = true) (p_power : P .power = true) (p_hostFn : P .hostFn = true) {x_power x_hostFn} :
    KeptF P s s.big s.regs s.dram s.damage s.host s.pending s.free s.ticks s.time s.answer s.dater s.net s.bnd s.rgs s.harts s.engines s.copyCar s.copyScb s.mmu s.dma s.levels s.queues s.pools s.orphans s.chans s.scrub s.cat x_power s.keeper s.cons s.pads s.rings s.vecs x_hostFn s.streams s.staged s.taking s.tripped s.gone :=
  ⟨h, ⟨rfl, rfl, rfl, fun _ => rfl⟩, .inr fun p hp => by cases p <;> first | rfl | simp_all⟩

/-- A pair keeps what its state keeps. -/
structure P1Kept {β : Type} (P : Part → Bool) (b0 : State) (p : State × β) : Prop where
  kept : p.1.Kept P b0
structure P2Kept {β : Type} (P : Part → Bool) (b0 : State) (p : β × State) : Prop where
  kept : p.2.Kept P b0
theorem P1Kept.mk1 {β : Type} {s : State} {y : β} (h : s.Kept P b0) : P1Kept P b0 (s, y) := ⟨h⟩
theorem P2Kept.mk2 {β : Type} {s : State} {y : β} (h : s.Kept P b0) : P2Kept P b0 (y, s) := ⟨h⟩

theorem fst_kept {β : Type} {s : State} {y : β} (h : s.Kept P b0) : (s, y).1.Kept P b0 := h
theorem snd_kept {β : Type} {s : State} {y : β} (h : s.Kept P b0) : (y, s).2.Kept P b0 := h

theorem foldl_kept1 {α β : Type} {f : State × β → α → State × β} {l : List α} {p : State × β} (h : p.1.Kept P b0)
    (hf : ∀ (p : State × β) (x : α), p.1.Kept P b0 → (f p x).1.Kept P b0) : (l.foldl f p).1.Kept P b0 := by
  induction l generalizing p with
  | nil => exact h
  | cons x r ih => exact ih (hf _ _ h)

theorem foldl_kept2 {α β : Type} {f : β × State → α → β × State} {l : List α} {p : β × State} (h : p.2.Kept P b0)
    (hf : ∀ (p : β × State) (x : α), p.2.Kept P b0 → (f p x).2.Kept P b0) : (l.foldl f p).2.Kept P b0 := by
  induction l generalizing p with
  | nil => exact h
  | cons x r ih => exact ih (hf _ _ h)

theorem foldl_kept {α : Type} {f : State → α → State} {l : List α} {s : State} (h : s.Kept P b0)
    (hf : ∀ (s : State) (x : α), s.Kept P b0 → (f s x).Kept P b0) : (l.foldl f s).Kept P b0 := by
  induction l generalizing s with
  | nil => exact h
  | cons x r ih => exact ih (hf _ _ h)

end Sys2Proof.Machine
end

