-- ==== Sys2Proof/Laws/KeptOps.lean ====
section
/-! SUPPORT. What the operations of Machine/Ops.lean keep (Laws/Kept.lean). -/

set_option linter.unusedTactic false
set_option linter.unreachableTactic false

namespace Sys2Proof.Machine

variable {P : Part → Bool} {b0 : State}

theorem State.wr_kept (s : State) (off : Nat) (w : Word)  (h_s : s.Kept P b0) : (State.wr s off w).Kept P b0 := by
  obtain ⟨h1, h2, h3⟩ := h_s
  refine ⟨?_, h2, h3.imp id fun g p hp => by cases p <;> exact g _ hp⟩
  simp only [State.canon, Bool.and_eq_true] at h1 ⊢
  exact ⟨⟨⟨Tab.wf_set _ _ _ h1.1.1.1, h1.1.1.2⟩, h1.1.2⟩, h1.2⟩

theorem State.put_kept (s : State) (f : Fld) (v : Nat)  (h_s : s.Kept P b0) : (State.put s f v).Kept P b0 := by
  rw [State.put.eq_def]
  repeat' first
    | (with_reducible first | assumption | apply State.wr_kept) | dsimp only

theorem State.add_kept (s : State) (f : Fld) (k : Nat)  (h_s : s.Kept P b0) : (State.add s f k).Kept P b0 := by
  rw [State.add.eq_def]
  repeat' first
    | (with_reducible first | assumption | apply State.put_kept) | dsimp only

theorem State.bump_kept (s : State) (f : Fld)  (h_s : s.Kept P b0) : (State.bump s f).Kept P b0 := by
  rw [State.bump.eq_def]
  repeat' first
    | (with_reducible first | assumption | apply State.add_kept) | dsimp only

theorem State.putBit_kept (s : State) (base i : Nat) (v : Bool)  (h_s : s.Kept P b0) : (State.putBit s base i v).Kept P b0 := by
  rw [State.putBit.eq_def]
  repeat' first
    | (with_reducible first | assumption | apply State.put_kept) | split | dsimp only

theorem State.putPair_kept (s : State) (lo hi v : Nat)  (h_s : s.Kept P b0) : (State.putPair s lo hi v).Kept P b0 := by
  rw [State.putPair.eq_def]
  repeat' first
    | (with_reducible first | assumption | apply State.wr_kept) | dsimp only

theorem State.setRing_kept (s : State) (n : Nat) (r : Ring)  (h_s : s.Kept P b0) (p_rings : P .rings = true) : (State.setRing s n r).Kept P b0 := by
  rw [State.setRing.eq_def]
  repeat' first
    | simp only [State.kept_mk]
    | (with_reducible first | assumption | apply KeptF.u_rings) | intro _ | dsimp only

theorem State.setVec_kept (s : State) (n : Nat) (v : Vec)  (h_s : s.Kept P b0) (p_vecs : P .vecs = true) : (State.setVec s n v).Kept P b0 := by
  rw [State.setVec.eq_def]
  repeat' first
    | simp only [State.kept_mk]
    | (with_reducible first | assumption | apply KeptF.u_vecs) | intro _ | dsimp only

theorem State.setStream_kept (s : State) (n : Nat) (x : Stream)  (h_s : s.Kept P b0) (p_streams : P .streams = true) : (State.setStream s n x).Kept P b0 := by
  rw [State.setStream.eq_def]
  repeat' first
    | simp only [State.kept_mk]
    | (with_reducible first | assumption | apply KeptF.u_streams) | intro _ | dsimp only

theorem State.setHart_kept (s : State) (n : Nat) (h : Hart)  (h_s : s.Kept P b0) (p_harts : P .harts = true) : (State.setHart s n h).Kept P b0 := by
  rw [State.setHart.eq_def]
  repeat' first
    | simp only [State.kept_mk]
    | (with_reducible first | assumption | apply KeptF.u_harts) | intro _ | dsimp only

theorem State.setEngine_kept (s : State) (n : Nat) (e : Engine)  (h_s : s.Kept P b0) (p_engines : P .engines = true) : (State.setEngine s n e).Kept P b0 := by
  rw [State.setEngine.eq_def]
  repeat' first
    | simp only [State.kept_mk]
    | (with_reducible first | assumption | apply KeptF.u_engines) | intro _ | dsimp only

theorem State.setDmaCh_kept (s : State) (n : Nat) (c : DmaCh)  (h_s : s.Kept P b0) (p_dma : P .dma = true) : (State.setDmaCh s n c).Kept P b0 := by
  rw [State.setDmaCh.eq_def]
  repeat' first
    | simp only [State.kept_mk]
    | (with_reducible first | assumption | apply KeptF.u_dma) | intro _ | dsimp only

theorem State.setQueue_kept (s : State) (n : Nat) (q : Queue)  (h_s : s.Kept P b0) (p_queues : P .queues = true) : (State.setQueue s n q).Kept P b0 := by
  rw [State.setQueue.eq_def]
  repeat' first
    | simp only [State.kept_mk]
    | (with_reducible first | assumption | apply KeptF.u_queues) | intro _ | dsimp only

theorem State.setPool_kept (s : State) (n : Nat) (p : Pool)  (h_s : s.Kept P b0) (p_pools : P .pools = true) : (State.setPool s n p).Kept P b0 := by
  rw [State.setPool.eq_def]
  repeat' first
    | simp only [State.kept_mk]
    | (with_reducible first | assumption | apply KeptF.u_pools) | intro _ | dsimp only

theorem State.setChan_kept (s : State) (n : Nat) (c : Chan)  (h_s : s.Kept P b0) (p_chans : P .chans = true) : (State.setChan s n c).Kept P b0 := by
  rw [State.setChan.eq_def]
  repeat' first
    | simp only [State.kept_mk]
    | (with_reducible first | assumption | apply KeptF.u_chans) | intro _ | dsimp only

theorem State.setMag_kept (s : State) (n : Nat) (m : Mag)  (h_s : s.Kept P b0) (p_bnd : P .bnd = true) : (State.setMag s n m).Kept P b0 := by
  rw [State.setMag.eq_def]
  repeat' first
    | simp only [State.kept_mk]
    | (with_reducible first | assumption | apply KeptF.u_bnd) | intro _ | dsimp only

theorem State.setCatUnit_kept (s : State) (n : Nat) (c : CatUnit)  (h_s : s.Kept P b0) (p_cat : P .cat = true) : (State.setCatUnit s n c).Kept P b0 := by
  rw [State.setCatUnit.eq_def]
  repeat' first
    | simp only [State.kept_mk]
    | (with_reducible first | assumption | apply KeptF.u_cat) | intro _ | dsimp only

theorem State.draw_kept (s : State)  (h_s : s.Kept P b0) (p_free : P .free = true) : (State.draw s).2.Kept P b0 := by
  refine P2Kept.kept ?_
  rw [State.draw.eq_def]
  repeat' first
    | simp only [State.kept_mk]
    | (with_reducible first | assumption | apply KeptF.u_free | apply P2Kept.mk2) | dsimp only

theorem State.pick_kept {α : Type} (s : State) (l : List α)  (h_s : s.Kept P b0) (p_free : P .free = true) : (State.pick s l).2.Kept P b0 := by
  refine P2Kept.kept ?_
  rw [State.pick.eq_def]
  repeat' first
    | (with_reducible first | assumption | apply State.draw_kept | apply P2Kept.mk2 | apply kept_of_eq2 (he := by assumption)) | dsimp only

theorem State.reply_kept (s : State) (l : List Nat)  (h_s : s.Kept P b0) (p_answer : P .answer = true) : (State.reply s l).Kept P b0 := by
  rw [State.reply.eq_def]
  repeat' first
    | simp only [State.kept_mk]
    | (with_reducible first | assumption | apply KeptF.u_answer) | dsimp only

theorem State.putTime_kept (s : State) (lo hi ns : Nat) (t : DTime)  (h_s : s.Kept P b0) : (State.putTime s lo hi ns t).Kept P b0 := by
  rw [State.putTime.eq_def]
  repeat' first
    | (with_reducible first | assumption | apply State.wr_kept) | dsimp only

theorem State.raise_kept (s : State) (n : Nat)  (h_s : s.Kept P b0) : (State.raise s n).Kept P b0 := by
  rw [State.raise.eq_def]
  repeat' first
    | (with_reducible first | assumption | apply State.put_kept) | split | dsimp only

theorem State.raiseQueue_kept (s : State) (q : Nat)  (h_s : s.Kept P b0) : (State.raiseQueue s q).Kept P b0 := by
  rw [State.raiseQueue.eq_def]
  repeat' first
    | (with_reducible first | assumption | apply State.raise_kept | apply foldl_kept | apply foldl_kept1 | apply foldl_kept2) | intro _ | split | dsimp only

theorem State.showPending_kept (s : State) (n : Nat)  (h_s : s.Kept P b0) : (State.showPending s n).Kept P b0 := by
  rw [State.showPending.eq_def]
  repeat' first
    | (with_reducible first | assumption | apply State.put_kept) | dsimp only

theorem State.postEvent_kept (s : State) (n : Nat) (e : RetSlip)  (h_s : s.Kept P b0) (p_rings : P .rings = true) : (State.postEvent s n e).Kept P b0 := by
  rw [State.postEvent.eq_def]
  repeat' first
    | (with_reducible first | assumption | apply State.bump_kept | apply State.setRing_kept | apply State.showPending_kept) | split | dsimp only

theorem State.streamEvent_kept (s : State) (n : Nat) (status kind extra : Nat) (w : List Nat)  (h_s : s.Kept P b0) (p_rings : P .rings = true) : (State.streamEvent s n status kind extra w).Kept P b0 := by
  rw [State.streamEvent.eq_def]
  repeat' first
    | (with_reducible first | assumption | apply State.postEvent_kept) | split | dsimp only

theorem State.pme_kept (s : State)  (h_s : s.Kept P b0) (p_power : P .power = true) (p_hostFn : P .hostFn = true) : (State.pme s).Kept P b0 := by
  rw [State.pme.eq_def]
  repeat' first
    | simp only [State.kept_mk]
    | (with_reducible first | assumption | apply KeptF.u_power | apply KeptF.u_hostFn | exact fun h => h) | split | dsimp only

theorem State.setVecPending_kept (s : State) (v : Nat) (b : Bool)  (h_s : s.Kept P b0) : (State.setVecPending s v b).Kept P b0 := by
  rw [State.setVecPending.eq_def]
  repeat' first
    | (with_reducible first | assumption | apply State.putBit_kept) | dsimp only

theorem State.keepVec_kept (s : State) (v : Nat)  (h_s : s.Kept P b0) (p_power : P .power = true) (p_vecs : P .vecs = true) (p_hostFn : P .hostFn = true) : (State.keepVec s v).Kept P b0 := by
  rw [State.keepVec.eq_def]
  repeat' first
    | (with_reducible first | assumption | apply State.setVec_kept | apply State.pme_kept | apply State.setVecPending_kept) | split | dsimp only

theorem State.countWaiting_kept (s : State) (v : Nat)  (h_s : s.Kept P b0) (p_power : P .power = true) (p_vecs : P .vecs = true) (p_hostFn : P .hostFn = true) : (State.countWaiting s v).Kept P b0 := by
  rw [State.countWaiting.eq_def]
  repeat' first
    | (with_reducible first | assumption | apply State.setVec_kept | apply State.keepVec_kept) | split | dsimp only

theorem State.complete_kept (s : State) (n : Nat) (r : RetSlip)  (h_s : s.Kept P b0) (p_power : P .power = true) (p_rings : P .rings = true) (p_vecs : P .vecs = true) (p_hostFn : P .hostFn = true) : (State.complete s n r).Kept P b0 := by
  rw [State.complete.eq_def]
  repeat' first
    | (with_reducible first | assumption | apply State.setRing_kept | apply State.countWaiting_kept) | split | dsimp only

theorem State.showBusy_kept (s : State) (n : Nat)  (h_s : s.Kept P b0) : (State.showBusy s n).Kept P b0 := by
  rw [State.showBusy.eq_def]
  repeat' first
    | (with_reducible first | assumption | apply State.put_kept) | intro _ | split | dsimp only

theorem State.finishOne_kept (s : State) (n : Nat) (t : Taken) (status extra : Nat) (w : List Nat)  (h_s : s.Kept P b0) (p_power : P .power = true) (p_rings : P .rings = true) (p_vecs : P .vecs = true) (p_hostFn : P .hostFn = true) : (State.finishOne s n t status extra w).Kept P b0 := by
  rw [State.finishOne.eq_def]
  repeat' first
    | (with_reducible first | assumption | apply State.setRing_kept | apply State.complete_kept | apply State.showBusy_kept) | dsimp only

theorem State.finishDecided_kept (s : State) (n : Nat) (x0 : Nat) (h_s : s.Kept P b0) (p_power : P .power = true) (p_rings : P .rings = true) (p_vecs : P .vecs = true) (p_hostFn : P .hostFn = true) : (State.finishDecided s n x0).Kept P b0 := by
  induction x0 generalizing s with
  | zero => exact h_s
  | succ f ih =>
    unfold State.finishDecided
    split
    · exact ih _ (State.finishOne_kept _ _ _ _ _ _ h_s p_power p_rings p_vecs p_hostFn)
    · exact h_s

theorem State.finish_kept (s : State) (n : Nat) (t : Taken) (status extra : Nat) (w : List Nat)  (h_s : s.Kept P b0) (p_power : P .power = true) (p_rings : P .rings = true) (p_vecs : P .vecs = true) (p_hostFn : P .hostFn = true) : (State.finish s n t status extra w).Kept P b0 := by
  rw [State.finish.eq_def]
  repeat' first
    | (with_reducible first | assumption | apply State.finishOne_kept | apply State.finishDecided_kept) | dsimp only

theorem State.onPic_kept (s : State) (n num : Nat) (f : Pic → Pic)  (h_s : s.Kept P b0) (p_streams : P .streams = true) : (State.onPic s n num f).Kept P b0 := by
  rw [State.onPic.eq_def]
  repeat' first
    | (with_reducible first | assumption | apply State.setStream_kept) | split | dsimp only

theorem State.alertRise_kept (s : State) (i : Nat)  (h_s : s.Kept P b0) (p_pads : P .pads = true) : (State.alertRise s i).Kept P b0 := by
  rw [State.alertRise.eq_def]
  repeat' first
    | simp only [State.kept_mk]
    | (with_reducible first | assumption | apply KeptF.u_pads) | split | dsimp only

theorem State.logMsg_kept (s : State) (u k c : Nat) (detail : Option Nat) (raw addr : Nat) (inj : Bool)  (h_s : s.Kept P b0) (p_rgs : P .rgs = true) (p_pads : P .pads = true) : (State.logMsg s u k c detail raw addr inj).Kept P b0 := by
  rw [State.logMsg.eq_def]
  repeat' first
    | simp only [State.kept_mk]
    | with_reducible first
      | assumption | apply State.bump_kept | apply State.putBit_kept | apply State.raise_kept | apply State.alertRise_kept | apply KeptF.u_rgs |
      exact OutKept.fault _
    | split | dsimp only

theorem State.notice_kept (s : State) (n u c k : Nat) (pic : Option Nat)  (h_s : s.Kept P b0) (p_rings : P .rings = true) (p_streams : P .streams = true) : (State.notice s n u c k pic).Kept P b0 := by
  rw [State.notice.eq_def]
  repeat' first
    | (with_reducible first | assumption | apply State.streamEvent_kept | apply State.onPic_kept) | intro _ | split | dsimp only

theorem State.notices_kept (s : State) (u k : Nat) (detail : Option Nat)  (h_s : s.Kept P b0) (p_rings : P .rings = true) (p_streams : P .streams = true) : (State.notices s u k detail).Kept P b0 := by
  rw [State.notices.eq_def]
  repeat' first
    | (with_reducible first | assumption | apply State.notice_kept) | split | dsimp only

theorem State.disarmOutputs_kept (s : State)  (h_s : s.Kept P b0) (p_dater : P .dater = true) : (State.disarmOutputs s).Kept P b0 := by
  rw [State.disarmOutputs.eq_def]
  repeat' first
    | simp only [State.kept_mk]
    | (with_reducible first | assumption | apply State.put_kept | apply foldl_kept | apply foldl_kept1 | apply foldl_kept2 | apply KeptF.u_dater) | intro _ | split | dsimp only

theorem State.disarmOutputs_power (s : State) : s.disarmOutputs.power = s.power := by
  have h : ∀ (l : List Nat) (s : State), (l.foldl (fun s t => (s.put (DAT.TOUT_STAT_ACTIVE t) 0).put (DAT.TOUT_STAT_PENDING t) 0) s).power = s.power := by
    intro l
    induction l with
    | nil => intro s; rfl
    | cons t l ih => intro s; rw [List.foldl_cons, ih, State.put_power, State.put_power]
  unfold State.disarmOutputs
  extract_lets x y z
  have hy : y.power = s.power := by
    subst y
    rw [State.put_power]
    exact h _ _
  clear_value y z
  exact hy
/-- A reset leaves the block held. -/
theorem State.wiped_held (s : State) (cold : Bool) : (s.wiped cold).power.held = true := by
  unfold State.wiped
  extract_lets f c s1 s2 s3 s4 one two s5 pw d1 d2
  have hp : pw.held = true := rfl
  clear_value two pw d1 d2
  split
  · rw [State.put_power, State.put_power]
    exact hp
  · rw [State.disarmOutputs_power]
    exact hp
theorem State.wiped_kept (s : State) (cold : Bool)  (h_s : s.Kept P b0) : (State.wiped s cold).Kept P b0 := by
  refine State.Kept.tight ?_ (State.wiped_held s cold)
  replace h_s := h_s.loosen
  have p_dater : loose P .dater = true := rfl
  have p1 : loose P .power = true := rfl
  have p2 : loose P .time = true := rfl
  have p3 : loose P .rgs = true := rfl
  unfold State.wiped
  extract_lets f c s1 s2 s3 s4 one two s5 pw d1 d2
  have hp : s5.held = true := rfl
  have h1 : one.Kept (loose P) b0 := by
    clear_value s5 pw d1 d2
    subst one
    rw [State.kept_mk]
    exact KeptF.wipe h_s _ rfl
  have h2 : two.Kept (loose P) b0 := by
    clear_value one
    subst two
    exact State.put_kept _ _ _ (State.put_kept _ _ _ h1)
  clear_value two
  split
  · exact State.put_kept _ _ _ (State.put_kept _ _ _ (State.kept_mk.2 (KeptF.u_dater_power h2 p_dater p1 fun _ => hp)))
  · exact State.disarmOutputs_kept _ (State.kept_mk.2 (KeptF.u_time_dater_rgs_power h2 p2 p_dater p3 p1 fun _ => hp)) p_dater

theorem State.sleepEnd_kept (s : State) (req result src : Nat)  (h_s : s.Kept P b0) (p_pads : P .pads = true) : (State.sleepEnd s req result src).Kept P b0 := by
  rw [State.sleepEnd.eq_def]
  repeat' first
    | (with_reducible first | assumption | apply State.put_kept | apply State.alertRise_kept) | dsimp only

theorem State.takeReset_held (s : State) (cold : Bool) (cause : Nat) (count : Bool) : (s.takeReset cold cause count).power.held = true := by
  unfold State.takeReset
  extract_lets a b c
  have hb : b.power.held = true := by
    subst b
    exact State.wiped_held _ _
  clear_value b
  have hc : c.power.held = true := by
    subst c
    rw [State.put_power, State.put_power]
    exact hb
  clear_value c
  split
  · rw [State.bump_power]
    exact hc
  · exact hc
theorem State.takeReset_kept (s : State) (cold : Bool) (cause : Nat) (count : Bool)  (h_s : s.Kept P b0) : (State.takeReset s cold cause count).Kept P b0 := by
  refine State.Kept.tight ?_ (State.takeReset_held s cold cause count)
  replace h_s := h_s.loosen
  have p_pads : loose P .pads = true := rfl
  rw [State.takeReset.eq_def]
  repeat' first
    | (with_reducible first | assumption | apply State.put_kept | apply State.bump_kept | apply State.wiped_kept | apply State.sleepEnd_kept) | split | dsimp only

theorem State.requestReset_kept (s : State) (rank cause : Nat) (cold : Bool)  (h_s : s.Kept P b0) (p_power : P .power = true) : (State.requestReset s rank cause cold).Kept P b0 := by
  rw [State.requestReset.eq_def]
  repeat' first
    | simp only [State.kept_mk]
    | (with_reducible first | assumption | apply State.takeReset_kept | apply KeptF.u_power | exact fun h => h) | split | dsimp only

theorem State.reportBase_kept (s : State) (u k c : Nat) (detail : Option Nat) (raw addr : Nat) (inj : Bool)  (h_s : s.Kept P b0) (p_rgs : P .rgs = true) (p_power : P .power = true) (p_pads : P .pads = true) (p_rings : P .rings = true) (p_streams : P .streams = true) : (State.reportBase s u k c detail raw addr inj).Kept P b0 := by
  rw [State.reportBase.eq_def]
  repeat' first
    | (with_reducible first | assumption | apply State.logMsg_kept | apply State.notices_kept | apply State.requestReset_kept) | split | dsimp only

theorem State.loseWork_kept (s : State) (u n num j : Nat)  (h_s : s.Kept P b0) (p_rgs : P .rgs = true) (p_power : P .power = true) (p_pads : P .pads = true) (p_rings : P .rings = true) (p_streams : P .streams = true) : (State.loseWork s u n num j).Kept P b0 := by
  rw [State.loseWork.eq_def]
  repeat' first
    | (with_reducible first | assumption | apply State.onPic_kept | apply State.reportBase_kept) | intro _ | split | dsimp only

theorem State.showSpares_kept (s : State)  (h_s : s.Kept P b0) : (State.showSpares s).Kept P b0 := by
  rw [State.showSpares.eq_def]
  repeat' first
    | (with_reducible first | assumption | apply State.put_kept) | dsimp only

theorem State.freeCells_kept (s : State) (banks : List Nat)  (h_s : s.Kept P b0) : (State.freeCells s banks).Kept P b0 := by
  rw [State.freeCells.eq_def]
  repeat' first
    | (with_reducible first | assumption | apply State.put_kept | apply foldl_kept | apply foldl_kept1 | apply foldl_kept2) | intro _ | dsimp only

theorem State.fenceStacks_kept (s : State) (u : Nat)  (h_s : s.Kept P b0) (p_queues : P .queues = true) (p_power : P .power = true) (p_rings : P .rings = true) (p_vecs : P .vecs = true) (p_hostFn : P .hostFn = true) : (State.fenceStacks s u).Kept P b0 := by
  rw [State.fenceStacks.eq_def]
  repeat' first
    | with_reducible first
      | assumption | apply State.bump_kept | apply State.setQueue_kept | apply State.complete_kept | apply State.freeCells_kept | apply foldl_kept |
      apply foldl_kept1 | apply foldl_kept2
    | intro _ | split | dsimp only

theorem State.showFaults_kept (s : State)  (h_s : s.Kept P b0) : (State.showFaults s).Kept P b0 := by
  rw [State.showFaults.eq_def]
  repeat' first
    | (with_reducible first | assumption | apply State.wr_kept | apply State.put_kept) | split | dsimp only

theorem State.refillFaults_kept (s : State)  (h_s : s.Kept P b0) (p_mmu : P .mmu = true) : (State.refillFaults s).Kept P b0 := by
  rw [State.refillFaults.eq_def]
  repeat' first
    | simp only [State.kept_mk]
    | (with_reducible first | assumption | apply State.raise_kept | apply State.showFaults_kept | apply KeptF.u_mmu) | split | dsimp only

theorem State.dropFaults_kept (s : State) (who : Waiter)  (h_s : s.Kept P b0) (p_mmu : P .mmu = true) : (State.dropFaults s who).Kept P b0 := by
  rw [State.dropFaults.eq_def]
  repeat' first
    | simp only [State.kept_mk]
    | (with_reducible first | assumption | apply State.refillFaults_kept | apply KeptF.u_mmu) | dsimp only

theorem State.abandon_kept (s : State) (i : Nat)  (h_s : s.Kept P b0) (p_engines : P .engines = true) : (State.abandon s i).Kept P b0 := by
  rw [State.abandon.eq_def]
  repeat' first
    | (with_reducible first | assumption | apply State.bump_kept | apply State.setEngine_kept) | split | dsimp only

theorem State.loseCapacity_kept (s : State) (i : Nat)  (h_s : s.Kept P b0) (p_gone : P .gone = true) : (State.loseCapacity s i).Kept P b0 := by
  rw [State.loseCapacity.eq_def]
  repeat' first
    | simp only [State.kept_mk]
    | (with_reducible first | assumption | apply State.put_kept | apply KeptF.u_gone) | split | dsimp only

theorem State.fence_kept (s : State) (i : Nat)  (h_s : s.Kept P b0) (p_free : P .free = true) (p_rgs : P .rgs = true) (p_engines : P .engines = true) (p_mmu : P .mmu = true) (p_queues : P .queues = true) (p_power : P .power = true) (p_pads : P .pads = true) (p_rings : P .rings = true) (p_vecs : P .vecs = true) (p_hostFn : P .hostFn = true) (p_streams : P .streams = true) (p_gone : P .gone = true) : (State.fence s i).Kept P b0 := by
  rw [State.fence.eq_def]
  repeat' first
    | with_reducible first
      | assumption | apply State.put_kept | apply State.setEngine_kept | apply State.pick_kept | apply State.onPic_kept |
      apply State.reportBase_kept | apply State.loseWork_kept | apply State.showSpares_kept | apply State.fenceStacks_kept |
      apply State.dropFaults_kept | apply State.abandon_kept | apply State.loseCapacity_kept | apply kept_of_eq2 (he := by assumption)
    | intro _ | split | dsimp only

theorem State.unclaim_kept (s : State) (h : Nat)  (h_s : s.Kept P b0) (p_harts : P .harts = true) : (State.unclaim s h).Kept P b0 := by
  rw [State.unclaim.eq_def]
  repeat' first
    | (with_reducible first | assumption | apply State.put_kept | apply State.setHart_kept | apply foldl_kept | apply foldl_kept1 | apply foldl_kept2) | intro _ | dsimp only

theorem State.checkTimer_kept (s : State) (h : Nat)  (h_s : s.Kept P b0) (p_harts : P .harts = true) : (State.checkTimer s h).Kept P b0 := by
  rw [State.checkTimer.eq_def]
  repeat' first
    | (with_reducible first | assumption | apply State.setHart_kept) | dsimp only

theorem State.trap_kept (s : State) (h cause tval : Nat)  (h_s : s.Kept P b0) (p_harts : P .harts = true) : (State.trap s h cause tval).Kept P b0 := by
  rw [State.trap.eq_def]
  repeat' first
    | (with_reducible first | assumption | apply State.setHart_kept) | split | dsimp only

theorem State.loadSave_kept (s : State) (h : Nat)  (h_s : s.Kept P b0) (p_harts : P .harts = true) : (State.loadSave s h).Kept P b0 := by
  rw [State.loadSave.eq_def]
  repeat' first
    | (with_reducible first | assumption | apply State.putPair_kept | apply State.setHart_kept | apply State.checkTimer_kept) | dsimp only

theorem State.enterCall_kept (s : State) (a : Applet) (c : AppletCall)  (h_s : s.Kept P b0) (p_harts : P .harts = true) : (State.enterCall s a c).Kept P b0 := by
  rw [State.enterCall.eq_def]
  repeat' first
    | (with_reducible first | assumption | apply State.setHart_kept | apply foldl_kept | apply foldl_kept1 | apply foldl_kept2) | intro _ | dsimp only

theorem State.beginCall_kept (s : State) (n : Nat) (a : Applet) (c : AppletCall)  (h_s : s.Kept P b0) (p_harts : P .harts = true) (p_streams : P .streams = true) : (State.beginCall s n a c).Kept P b0 := by
  rw [State.beginCall.eq_def]
  repeat' first
    | (with_reducible first | assumption | apply State.setStream_kept | apply State.enterCall_kept) | split | dsimp only

theorem State.endCall_kept (s : State) (n : Nat)  (h_s : s.Kept P b0) (p_harts : P .harts = true) (p_streams : P .streams = true) : (State.endCall s n).Kept P b0 := by
  rw [State.endCall.eq_def]
  repeat' first
    | (with_reducible first | assumption | apply State.setStream_kept | apply State.setHart_kept | apply State.beginCall_kept) | split | dsimp only

theorem State.callDue_kept (s : State) (n : Nat) (c : AppletCall)  (h_s : s.Kept P b0) (p_harts : P .harts = true) (p_streams : P .streams = true) : (State.callDue s n c).Kept P b0 := by
  rw [State.callDue.eq_def]
  repeat' first
    | (with_reducible first | assumption | apply State.setStream_kept | apply State.beginCall_kept | apply State.endCall_kept) | intro _ | split | dsimp only

theorem State.recall_kept (s : State) (h : Nat)  (h_s : s.Kept P b0) (p_harts : P .harts = true) (p_streams : P .streams = true) : (State.recall s h).Kept P b0 := by
  rw [State.recall.eq_def]
  repeat' first
    | (with_reducible first | assumption | apply State.beginCall_kept | apply foldl_kept | apply foldl_kept1 | apply foldl_kept2) | intro _ | split | dsimp only

theorem State.failover_kept (s : State) (h : Nat)  (h_s : s.Kept P b0) (p_harts : P .harts = true) (p_streams : P .streams = true) : (State.failover s h).Kept P b0 := by
  rw [State.failover.eq_def]
  repeat' first
    | with_reducible first
      | assumption | apply State.put_kept | apply State.setHart_kept | apply State.unclaim_kept | apply State.loadSave_kept |
      apply State.recall_kept | exact OutKept.fault _
    | intro _ | split | dsimp only

theorem State.rewriteUnit_kept (s : State) (u : Nat)  (h_s : s.Kept P b0) (p_cat : P .cat = true) : (State.rewriteUnit s u).Kept P b0 := by
  rw [State.rewriteUnit.eq_def]
  repeat' first
    | (with_reducible first | assumption | apply State.setCatUnit_kept) | dsimp only

theorem State.reportAs_kept (s : State) (u k c : Nat) (detail : Option Nat) (raw addr : Nat) (inj : Bool)  (h_s : s.Kept P b0) (p_free : P .free = true) (p_rgs : P .rgs = true) (p_harts : P .harts = true) (p_engines : P .engines = true) (p_mmu : P .mmu = true) (p_queues : P .queues = true) (p_cat : P .cat = true) (p_power : P .power = true) (p_pads : P .pads = true) (p_rings : P .rings = true) (p_vecs : P .vecs = true) (p_hostFn : P .hostFn = true) (p_streams : P .streams = true) (p_gone : P .gone = true) : (State.reportAs s u k c detail raw addr inj).Kept P b0 := by
  rw [State.reportAs.eq_def]
  repeat' first
    | (with_reducible first | assumption | apply State.reportBase_kept | apply State.fence_kept | apply State.failover_kept | apply State.rewriteUnit_kept) | intro _ | split | dsimp only

theorem State.report_kept (s : State) (u k : Nat) (detail : Option Nat) (addr : Nat)  (h_s : s.Kept P b0) (p_free : P .free = true) (p_rgs : P .rgs = true) (p_harts : P .harts = true) (p_engines : P .engines = true) (p_mmu : P .mmu = true) (p_queues : P .queues = true) (p_cat : P .cat = true) (p_power : P .power = true) (p_pads : P .pads = true) (p_rings : P .rings = true) (p_vecs : P .vecs = true) (p_hostFn : P .hostFn = true) (p_streams : P .streams = true) (p_gone : P .gone = true) : (State.report s u k detail addr).Kept P b0 := by
  rw [State.report.eq_def]
  repeat' first
    | (with_reducible first | assumption | apply State.reportAs_kept) | dsimp only

theorem State.reportStreams_kept (s : State) (u k : Nat) (l : List Nat)  (h_s : s.Kept P b0) (p_free : P .free = true) (p_rgs : P .rgs = true) (p_harts : P .harts = true) (p_engines : P .engines = true) (p_mmu : P .mmu = true) (p_queues : P .queues = true) (p_cat : P .cat = true) (p_power : P .power = true) (p_pads : P .pads = true) (p_rings : P .rings = true) (p_vecs : P .vecs = true) (p_hostFn : P .hostFn = true) (p_streams : P .streams = true) (p_gone : P .gone = true) : (State.reportStreams s u k l).Kept P b0 := by
  rw [State.reportStreams.eq_def]
  repeat' first
    | (with_reducible first | assumption | apply State.notice_kept | apply State.report_kept | apply foldl_kept | apply foldl_kept1 | apply foldl_kept2) | intro _ | split | dsimp only

end Sys2Proof.Machine
end

