-- ==== Sys2Proof/Laws/KeptMemory.lean ====
section
/-! SUPPORT. What the operations of Machine/Memory.lean keep (Laws/Kept.lean). -/

set_option linter.unusedTactic false
set_option linter.unreachableTactic false

namespace Sys2Proof.Machine

variable {P : Part → Bool} {b0 : State}

theorem State.setDamage_kept (s : State) (b m : Nat)  (h_s : s.Kept P b0) (p_damage : P .damage = true) : (State.setDamage s b m).Kept P b0 := by
  rw [State.setDamage.eq_def]
  repeat' first
    | simp only [State.kept_mk]
    | (with_reducible first | assumption | apply KeptF.damage) | intro _ | dsimp only

theorem State.storeBytes_kept (s : State) (a : Nat) (l : List Byte)  (h_s : s.Kept P b0) (p_dram : P .dram = true) : (State.storeBytes s a l).Kept P b0 := by
  rw [State.storeBytes.eq_def]
  repeat' first
    | simp only [State.kept_mk]
    | (with_reducible first | assumption | apply foldl_kept | apply foldl_kept1 | apply foldl_kept2 | apply KeptF.dram) | intro _ | dsimp only

theorem State.storeBlock_kept (s : State) (b : Nat) (l : List Byte)  (h_s : s.Kept P b0) (p_dram : P .dram = true) (p_damage : P .damage = true) (p_chans : P .chans = true) : (State.storeBlock s b l).Kept P b0 := by
  rw [State.storeBlock.eq_def]
  repeat' first
    | (with_reducible first | assumption | apply State.setChan_kept | apply State.setDamage_kept | apply State.storeBytes_kept) | intro _ | split | dsimp only

theorem State.logMend_kept (s : State) (unit addr bit : Nat) (check : Bool)  (h_s : s.Kept P b0) (p_free : P .free = true) (p_rgs : P .rgs = true) (p_harts : P .harts = true) (p_engines : P .engines = true) (p_mmu : P .mmu = true) (p_queues : P .queues = true) (p_cat : P .cat = true) (p_power : P .power = true) (p_pads : P .pads = true) (p_rings : P .rings = true) (p_vecs : P .vecs = true) (p_hostFn : P .hostFn = true) (p_streams : P .streams = true) (p_gone : P .gone = true) : (State.logMend s unit addr bit check).Kept P b0 := by
  rw [State.logMend.eq_def]
  repeat' first
    | (with_reducible first | assumption | apply State.wr_kept | apply State.bump_kept | apply State.report_kept) | intro _ | split | dsimp only

theorem State.noteVerdict_kept (s : State) (unit addr : Nat) (v : Verdict)  (h_s : s.Kept P b0) (p_free : P .free = true) (p_rgs : P .rgs = true) (p_harts : P .harts = true) (p_engines : P .engines = true) (p_mmu : P .mmu = true) (p_queues : P .queues = true) (p_cat : P .cat = true) (p_power : P .power = true) (p_pads : P .pads = true) (p_rings : P .rings = true) (p_vecs : P .vecs = true) (p_hostFn : P .hostFn = true) (p_streams : P .streams = true) (p_gone : P .gone = true) : (State.noteVerdict s unit addr v).Kept P b0 := by
  rw [State.noteVerdict.eq_def]
  repeat' first
    | (with_reducible first | assumption | apply State.bump_kept | apply State.report_kept | apply State.logMend_kept) | split | dsimp only

theorem State.readBlock_kept (s : State) (b : Nat)  (h_s : s.Kept P b0) (p_free : P .free = true) (p_rgs : P .rgs = true) (p_harts : P .harts = true) (p_engines : P .engines = true) (p_mmu : P .mmu = true) (p_queues : P .queues = true) (p_cat : P .cat = true) (p_power : P .power = true) (p_pads : P .pads = true) (p_rings : P .rings = true) (p_vecs : P .vecs = true) (p_hostFn : P .hostFn = true) (p_streams : P .streams = true) (p_gone : P .gone = true) : (State.readBlock s b).1.Kept P b0 := by
  refine P1Kept.kept ?_
  rw [State.readBlock.eq_def]
  repeat' first
    | (with_reducible first | assumption | apply State.bump_kept | apply State.noteVerdict_kept | apply P1Kept.mk1) | split | dsimp only

theorem State.readMem_kept (s : State) (a n : Nat)  (h_s : s.Kept P b0) (p_free : P .free = true) (p_rgs : P .rgs = true) (p_harts : P .harts = true) (p_engines : P .engines = true) (p_mmu : P .mmu = true) (p_queues : P .queues = true) (p_cat : P .cat = true) (p_power : P .power = true) (p_pads : P .pads = true) (p_rings : P .rings = true) (p_vecs : P .vecs = true) (p_hostFn : P .hostFn = true) (p_streams : P .streams = true) (p_gone : P .gone = true) : (State.readMem s a n).1.Kept P b0 := by
  refine P1Kept.kept ?_
  rw [State.readMem.eq_def]
  repeat' first
    | with_reducible first
      | assumption | apply State.readBlock_kept | apply foldl_kept | apply foldl_kept1 | apply foldl_kept2 | apply P1Kept.mk1 |
      apply kept_of_eq1 (he := by assumption)
    | intro _ | split | dsimp only

theorem State.writeInBlock_kept (s : State) (a : Nat) (l : List Byte)  (h_s : s.Kept P b0) (p_dram : P .dram = true) (p_damage : P .damage = true) (p_free : P .free = true) (p_rgs : P .rgs = true) (p_harts : P .harts = true) (p_engines : P .engines = true) (p_mmu : P .mmu = true) (p_queues : P .queues = true) (p_chans : P .chans = true) (p_cat : P .cat = true) (p_power : P .power = true) (p_pads : P .pads = true) (p_rings : P .rings = true) (p_vecs : P .vecs = true) (p_hostFn : P .hostFn = true) (p_streams : P .streams = true) (p_gone : P .gone = true) : (State.writeInBlock s a l).1.Kept P b0 := by
  refine P1Kept.kept ?_
  rw [State.writeInBlock.eq_def]
  repeat' first
    | with_reducible first
      | assumption | apply State.bump_kept | apply State.storeBlock_kept | apply State.readBlock_kept | apply P1Kept.mk1 |
      apply kept_of_eq1 (he := by assumption)
    | split | dsimp only

theorem State.writeMem_kept (s : State) (a : Nat) (l : List Byte)  (h_s : s.Kept P b0) (p_dram : P .dram = true) (p_damage : P .damage = true) (p_free : P .free = true) (p_rgs : P .rgs = true) (p_harts : P .harts = true) (p_engines : P .engines = true) (p_mmu : P .mmu = true) (p_queues : P .queues = true) (p_chans : P .chans = true) (p_cat : P .cat = true) (p_power : P .power = true) (p_pads : P .pads = true) (p_rings : P .rings = true) (p_vecs : P .vecs = true) (p_hostFn : P .hostFn = true) (p_streams : P .streams = true) (p_gone : P .gone = true) : (State.writeMem s a l).1.Kept P b0 := by
  refine P1Kept.kept ?_
  rw [State.writeMem.eq_def]
  repeat' first
    | with_reducible first
      | assumption | apply State.writeInBlock_kept | apply foldl_kept | apply foldl_kept1 | apply foldl_kept2 | apply P1Kept.mk1 |
      apply kept_of_eq1 (he := by assumption)
    | intro _ | split | dsimp only

theorem State.storeHost_kept (s : State) (a : Nat) (l : List Byte)  (h_s : s.Kept P b0) (p_host : P .host = true) : (State.storeHost s a l).Kept P b0 := by
  rw [State.storeHost.eq_def]
  repeat' first
    | simp only [State.kept_mk]
    | (with_reducible first | assumption | apply foldl_kept | apply foldl_kept1 | apply foldl_kept2 | apply KeptF.host) | intro _ | dsimp only

theorem execDramTraining_kept (s : State)  (h_s : s.Kept P b0) (p_pads : P .pads = true) : OutKept P b0 (execDramTraining s) := by
  rw [execDramTraining.eq_def]
  repeat' first
    | simp only [State.kept_mk]
    | (with_reducible first | assumption | apply State.put_kept | apply foldl_kept | apply foldl_kept1 | apply foldl_kept2 | apply KeptF.u_pads | apply OutKept.next) | intro _ | split | dsimp only

theorem State.trainChannel_kept (s : State) (c : Nat) (like : Option Nat) (a b : TrainTry)  (h_s : s.Kept P b0) (p_free : P .free = true) (p_rgs : P .rgs = true) (p_harts : P .harts = true) (p_engines : P .engines = true) (p_mmu : P .mmu = true) (p_queues : P .queues = true) (p_cat : P .cat = true) (p_power : P .power = true) (p_pads : P .pads = true) (p_rings : P .rings = true) (p_vecs : P .vecs = true) (p_hostFn : P .hostFn = true) (p_streams : P .streams = true) (p_gone : P .gone = true) : (State.trainChannel s c like a b).1.Kept P b0 := by
  refine P1Kept.kept ?_
  rw [State.trainChannel.eq_def]
  repeat' first
    | (with_reducible first | assumption | apply State.wr_kept | apply State.put_kept | apply State.report_kept | apply P1Kept.mk1) | split | dsimp only

theorem State.freshChannel_kept (s : State) (c ranks : Nat)  (h_s : s.Kept P b0) (p_chans : P .chans = true) : (State.freshChannel s c ranks).Kept P b0 := by
  rw [State.freshChannel.eq_def]
  repeat' first
    | (with_reducible first | assumption | apply State.put_kept | apply State.add_kept | apply State.setChan_kept) | split | dsimp only

theorem execDramTrainingDone_kept (tries : List (TrainTry × TrainTry)) (s : State)  (h_s : s.Kept P b0) (p_free : P .free = true) (p_rgs : P .rgs = true) (p_harts : P .harts = true) (p_engines : P .engines = true) (p_mmu : P .mmu = true) (p_queues : P .queues = true) (p_chans : P .chans = true) (p_cat : P .cat = true) (p_power : P .power = true) (p_pads : P .pads = true) (p_rings : P .rings = true) (p_vecs : P .vecs = true) (p_hostFn : P .hostFn = true) (p_streams : P .streams = true) (p_gone : P .gone = true) : OutKept P b0 (execDramTrainingDone tries s) := by
  rw [execDramTrainingDone.eq_def]
  repeat' first
    | with_reducible first
      | assumption | apply State.put_kept | apply State.raise_kept | apply State.trainChannel_kept | apply State.freshChannel_kept |
      apply foldl_kept | apply foldl_kept1 | apply foldl_kept2 | apply OutKept.next | apply kept_of_eq1 (he := by assumption)
    | intro _ | split | dsimp only

theorem execMr4Poll_kept (c code : Nat) (hot : Bool) (s : State)  (h_s : s.Kept P b0) (p_free : P .free = true) (p_rgs : P .rgs = true) (p_harts : P .harts = true) (p_engines : P .engines = true) (p_mmu : P .mmu = true) (p_queues : P .queues = true) (p_cat : P .cat = true) (p_power : P .power = true) (p_pads : P .pads = true) (p_rings : P .rings = true) (p_vecs : P .vecs = true) (p_hostFn : P .hostFn = true) (p_streams : P .streams = true) (p_gone : P .gone = true) : OutKept P b0 (execMr4Poll c code hot s) := by
  rw [execMr4Poll.eq_def]
  repeat' first
    | (with_reducible first | assumption | apply State.put_kept | apply State.raise_kept | apply State.report_kept | apply OutKept.next) | split | dsimp only

theorem execZqCalibration_kept (c : Nat) (s : State)  (h_s : s.Kept P b0) (p_chans : P .chans = true) : OutKept P b0 (execZqCalibration c s) := by
  rw [execZqCalibration.eq_def]
  repeat' first
    | (with_reducible first | assumption | apply State.setChan_kept | apply OutKept.next) | split | dsimp only

theorem execRefreshDue_kept (c : Nat) (s : State)  (h_s : s.Kept P b0) (p_chans : P .chans = true) : OutKept P b0 (execRefreshDue c s) := by
  rw [execRefreshDue.eq_def]
  repeat' first
    | (with_reducible first | assumption | apply State.setChan_kept | apply OutKept.next) | split | dsimp only

theorem execTrefwBoundary_kept (c : Nat) (s : State)  (h_s : s.Kept P b0) (p_chans : P .chans = true) : OutKept P b0 (execTrefwBoundary c s) := by
  rw [execTrefwBoundary.eq_def]
  repeat' first
    | (with_reducible first | assumption | apply State.setChan_kept | apply OutKept.next) | split | dsimp only

theorem State.countAct_kept (s : State) (c row : Nat)  (h_s : s.Kept P b0) (p_chans : P .chans = true) : (State.countAct s c row).Kept P b0 := by
  rw [State.countAct.eq_def]
  repeat' first
    | (with_reducible first | assumption | apply State.bump_kept | apply State.setChan_kept) | intro _ | split | dsimp only

theorem State.openRow_kept (s : State) (c pa : Nat)  (h_s : s.Kept P b0) (p_chans : P .chans = true) : (State.openRow s c pa).Kept P b0 := by
  rw [State.openRow.eq_def]
  repeat' first
    | (with_reducible first | assumption | apply State.setChan_kept | apply State.countAct_kept) | intro _ | split | dsimp only

theorem State.noteAge_kept (s : State) (c : Nat) (r : DramReq)  (h_s : s.Kept P b0) : (State.noteAge s c r).Kept P b0 := by
  rw [State.noteAge.eq_def]
  repeat' first
    | (with_reducible first | assumption | apply State.put_kept) | split | dsimp only

theorem State.writeGone_kept (s : State) (engine : Option Nat)  (h_s : s.Kept P b0) (p_engines : P .engines = true) : (State.writeGone s engine).Kept P b0 := by
  rw [State.writeGone.eq_def]
  repeat' first
    | (with_reducible first | assumption | apply State.setEngine_kept) | split | dsimp only

theorem State.landWrite_kept (s : State) (c : Nat) (r : DramReq)  (h_s : s.Kept P b0) (p_dram : P .dram = true) (p_damage : P .damage = true) (p_engines : P .engines = true) (p_chans : P .chans = true) : (State.landWrite s c r).Kept P b0 := by
  rw [State.landWrite.eq_def]
  repeat' first
    | (with_reducible first | assumption | apply State.setChan_kept | apply State.setDamage_kept | apply State.storeBytes_kept | apply State.writeGone_kept) | dsimp only

theorem State.refreshNeighbours_kept (s : State) (c row : Nat)  (h_s : s.Kept P b0) (p_chans : P .chans = true) : (State.refreshNeighbours s c row).Kept P b0 := by
  rw [State.refreshNeighbours.eq_def]
  repeat' first
    | (with_reducible first | assumption | apply State.setChan_kept | apply State.countAct_kept | apply foldl_kept | apply foldl_kept1 | apply foldl_kept2) | intro _ | split | dsimp only

theorem execDramCommandIssue_kept (c : Nat) (s : State)  (h_s : s.Kept P b0) (p_dram : P .dram = true) (p_damage : P .damage = true) (p_engines : P .engines = true) (p_chans : P .chans = true) : OutKept P b0 (execDramCommandIssue c s) := by
  rw [execDramCommandIssue.eq_def]
  repeat' first
    | with_reducible first
      | assumption | apply State.setChan_kept | apply State.openRow_kept | apply State.noteAge_kept | apply State.landWrite_kept |
      apply State.refreshNeighbours_kept | apply OutKept.next
    | split | dsimp only

theorem execDramRead_kept (block : Nat) (engine : Option Nat) (s : State)  (h_s : s.Kept P b0) (p_answer : P .answer = true) (p_chans : P .chans = true) : OutKept P b0 (execDramRead block engine s) := by
  rw [execDramRead.eq_def]
  repeat' first
    | (with_reducible first | assumption | apply State.bump_kept | apply State.setChan_kept | apply State.reply_kept | apply OutKept.next) | split | dsimp only

theorem State.requeue_kept (s : State) (c block : Nat) (data : List Byte) (engine : Option Nat)  (h_s : s.Kept P b0) (p_chans : P .chans = true) : (State.requeue s c block data engine).Kept P b0 := by
  rw [State.requeue.eq_def]
  repeat' first
    | (with_reducible first | assumption | apply State.setChan_kept) | intro _ | split | dsimp only

theorem execDramWrite_kept (block : Nat) (data : List Byte) (engine : Option Nat) (s : State)  (h_s : s.Kept P b0) (p_engines : P .engines = true) (p_chans : P .chans = true) : OutKept P b0 (execDramWrite block data engine s) := by
  rw [execDramWrite.eq_def]
  repeat' first
    | (with_reducible first | assumption | apply State.setChan_kept | apply State.writeGone_kept | apply State.requeue_kept | apply OutKept.next) | split | dsimp only

theorem execNarrowWrite_kept (addr : Nat) (data : List Byte) (s : State)  (h_s : s.Kept P b0) (p_free : P .free = true) (p_answer : P .answer = true) (p_rgs : P .rgs = true) (p_harts : P .harts = true) (p_engines : P .engines = true) (p_mmu : P .mmu = true) (p_queues : P .queues = true) (p_chans : P .chans = true) (p_cat : P .cat = true) (p_power : P .power = true) (p_pads : P .pads = true) (p_rings : P .rings = true) (p_vecs : P .vecs = true) (p_hostFn : P .hostFn = true) (p_streams : P .streams = true) (p_gone : P .gone = true) : OutKept P b0 (execNarrowWrite addr data s) := by
  rw [execNarrowWrite.eq_def]
  repeat' first
    | with_reducible first
      | assumption | apply State.bump_kept | apply State.setChan_kept | apply State.reply_kept | apply State.readBlock_kept |
      apply State.requeue_kept | apply OutKept.next | apply kept_of_eq1 (he := by assumption)
    | split | dsimp only

theorem State.poisonRead_kept (s : State) (i addr : Nat) (again : Bool)  (h_s : s.Kept P b0) (p_free : P .free = true) (p_rgs : P .rgs = true) (p_harts : P .harts = true) (p_engines : P .engines = true) (p_mmu : P .mmu = true) (p_queues : P .queues = true) (p_cat : P .cat = true) (p_power : P .power = true) (p_pads : P .pads = true) (p_rings : P .rings = true) (p_vecs : P .vecs = true) (p_hostFn : P .hostFn = true) (p_streams : P .streams = true) (p_gone : P .gone = true) : (State.poisonRead s i addr again).Kept P b0 := by
  rw [State.poisonRead.eq_def]
  repeat' first
    | with_reducible first
      | assumption | apply State.put_kept | apply State.setEngine_kept | apply State.loseWork_kept | apply State.abandon_kept |
      apply State.report_kept
    | split | dsimp only

theorem execReadDataCheck_kept (unit addr mask : Nat) (engine hart : Option Nat) (again : Bool) (s : State)  (h_s : s.Kept P b0) (p_damage : P .damage = true) (p_free : P .free = true) (p_answer : P .answer = true) (p_rgs : P .rgs = true) (p_harts : P .harts = true) (p_engines : P .engines = true) (p_mmu : P .mmu = true) (p_queues : P .queues = true) (p_cat : P .cat = true) (p_power : P .power = true) (p_pads : P .pads = true) (p_rings : P .rings = true) (p_vecs : P .vecs = true) (p_hostFn : P .hostFn = true) (p_streams : P .streams = true) (p_gone : P .gone = true) : OutKept P b0 (execReadDataCheck unit addr mask engine hart again s) := by
  rw [execReadDataCheck.eq_def]
  repeat' first
    | with_reducible first
      | assumption | apply State.setHart_kept | apply State.reply_kept | apply State.trap_kept | apply State.setDamage_kept |
      apply State.noteVerdict_kept | apply State.poisonRead_kept | apply OutKept.next
    | split | dsimp only

theorem execLogEntryFree_kept (e : Nat) (s : State)  (h_s : s.Kept P b0) : OutKept P b0 (execLogEntryFree e s) := by
  rw [execLogEntryFree.eq_def]
  repeat' first
    | (with_reducible first | assumption | apply State.put_kept | apply OutKept.next) | split | dsimp only

theorem State.endLap_kept (s : State)  (h_s : s.Kept P b0) (p_scrub : P .scrub = true) : (State.endLap s).Kept P b0 := by
  rw [State.endLap.eq_def]
  repeat' first
    | simp only [State.kept_mk]
    | (with_reducible first | assumption | apply State.wr_kept | apply State.put_kept | apply State.bump_kept | apply KeptF.u_scrub) | split | dsimp only

theorem State.scrubBlock_kept (s : State) (b : Nat)  (h_s : s.Kept P b0) (p_dram : P .dram = true) (p_damage : P .damage = true) (p_free : P .free = true) (p_rgs : P .rgs = true) (p_harts : P .harts = true) (p_engines : P .engines = true) (p_mmu : P .mmu = true) (p_queues : P .queues = true) (p_chans : P .chans = true) (p_cat : P .cat = true) (p_power : P .power = true) (p_pads : P .pads = true) (p_rings : P .rings = true) (p_vecs : P .vecs = true) (p_hostFn : P .hostFn = true) (p_streams : P .streams = true) (p_gone : P .gone = true) : (State.scrubBlock s b).Kept P b0 := by
  rw [State.scrubBlock.eq_def]
  repeat' first
    | (with_reducible first | assumption | apply State.storeBlock_kept | apply State.readBlock_kept | apply kept_of_eq1 (he := by assumption)) | split | dsimp only

theorem State.scrubGranule_kept (s : State) (a : Nat)  (h_s : s.Kept P b0) (p_dram : P .dram = true) (p_damage : P .damage = true) (p_free : P .free = true) (p_rgs : P .rgs = true) (p_harts : P .harts = true) (p_engines : P .engines = true) (p_mmu : P .mmu = true) (p_queues : P .queues = true) (p_chans : P .chans = true) (p_scrub : P .scrub = true) (p_cat : P .cat = true) (p_power : P .power = true) (p_pads : P .pads = true) (p_rings : P .rings = true) (p_vecs : P .vecs = true) (p_hostFn : P .hostFn = true) (p_streams : P .streams = true) (p_gone : P .gone = true) : (State.scrubGranule s a).Kept P b0 := by
  rw [State.scrubGranule.eq_def]
  repeat' first
    | simp only [State.kept_mk]
    | with_reducible first
      | assumption | apply State.wr_kept | apply State.put_kept | apply State.scrubBlock_kept | apply foldl_kept | apply foldl_kept1 |
      apply foldl_kept2 | apply KeptF.u_scrub
    | intro _ | split | dsimp only

theorem State.scrubOn_kept (s : State) (pages : Nat)  (h_s : s.Kept P b0) (p_scrub : P .scrub = true) : (State.scrubOn s pages).Kept P b0 := by
  rw [State.scrubOn.eq_def]
  repeat' first
    | simp only [State.kept_mk]
    | (with_reducible first | assumption | apply KeptF.u_scrub) | split | dsimp only

theorem State.scrubStack_kept (s : State)  (h_s : s.Kept P b0) (p_scrub : P .scrub = true) : (State.scrubStack s).Kept P b0 := by
  rw [State.scrubStack.eq_def]
  repeat' first
    | simp only [State.kept_mk]
    | (with_reducible first | assumption | apply State.put_kept | apply KeptF.u_scrub) | dsimp only

theorem State.lapUnless_kept (s : State) (n : Nat)  (h_s : s.Kept P b0) (p_scrub : P .scrub = true) : (State.lapUnless s n).Kept P b0 := by
  rw [State.lapUnless.eq_def]
  repeat' first
    | (with_reducible first | assumption | apply State.endLap_kept) | split | dsimp only

theorem execScrubRead_kept (s : State)  (h_s : s.Kept P b0) (p_dram : P .dram = true) (p_damage : P .damage = true) (p_free : P .free = true) (p_rgs : P .rgs = true) (p_harts : P .harts = true) (p_engines : P .engines = true) (p_mmu : P .mmu = true) (p_queues : P .queues = true) (p_chans : P .chans = true) (p_scrub : P .scrub = true) (p_cat : P .cat = true) (p_power : P .power = true) (p_pads : P .pads = true) (p_rings : P .rings = true) (p_vecs : P .vecs = true) (p_hostFn : P .hostFn = true) (p_streams : P .streams = true) (p_gone : P .gone = true) : OutKept P b0 (execScrubRead s) := by
  rw [execScrubRead.eq_def]
  repeat' first
    | with_reducible first
      | assumption | apply State.put_kept | apply State.endLap_kept | apply State.scrubGranule_kept | apply State.scrubOn_kept |
      apply State.scrubStack_kept | apply State.lapUnless_kept | apply OutKept.next
    | split | simp only []

theorem State.restartLap_kept (s : State)  (h_s : s.Kept P b0) (p_scrub : P .scrub = true) : (State.restartLap s).Kept P b0 := by
  rw [State.restartLap.eq_def]
  repeat' first
    | simp only [State.kept_mk]
    | (with_reducible first | assumption | apply State.put_kept | apply KeptF.u_scrub) | split | dsimp only

theorem execScrubCtlWrite_kept (which value : Nat) (s : State)  (h_s : s.Kept P b0) (p_scrub : P .scrub = true) : OutKept P b0 (execScrubCtlWrite which value s) := by
  rw [execScrubCtlWrite.eq_def]
  repeat' first
    | (with_reducible first | assumption | apply State.put_kept | apply State.restartLap_kept | apply OutKept.next) | split | dsimp only

theorem execDqCentreMove_kept (c lane : Nat) (write : Bool) (s : State)  (h_s : s.Kept P b0) (p_cons : P .cons = true) : OutKept P b0 (execDqCentreMove c lane write s) := by
  rw [execDqCentreMove.eq_def]
  repeat' first
    | simp only [State.kept_mk]
    | (with_reducible first | assumption | apply State.put_kept | apply KeptF.u_cons | apply OutKept.next) | intro _ | split | dsimp only

end Sys2Proof.Machine
end

