-- ==== Sys2Proof/Laws/KeptTranslate.lean ====
section
/-! SUPPORT. What the operations of Machine/Translate.lean keep (Laws/Kept.lean). -/

set_option linter.unusedTactic false
set_option linter.unreachableTactic false

namespace Sys2Proof.Machine

variable {P : Part → Bool} {b0 : State}

theorem State.cacheIn_kept (s : State) (cap : Nat) (l : List (Nat × Nat × Nat × Nat)) (e : Nat × Nat × Nat × Nat)  (h_s : s.Kept P b0) (p_free : P .free = true) : (State.cacheIn s cap l e).2.Kept P b0 := by
  refine P2Kept.kept ?_
  rw [State.cacheIn.eq_def]
  repeat' first
    | (with_reducible first | assumption | apply State.draw_kept | apply P2Kept.mk2 | apply kept_of_eq2 (he := by assumption)) | split | dsimp only

theorem State.cache_kept (s : State) (eng : Option Nat) (e : Nat × Nat × Nat × Nat)  (h_s : s.Kept P b0) (p_free : P .free = true) (p_engines : P .engines = true) (p_mmu : P .mmu = true) : (State.cache s eng e).Kept P b0 := by
  rw [State.cache.eq_def]
  repeat' first
    | simp only [State.kept_mk]
    | (with_reducible first | assumption | apply State.setEngine_kept | apply State.cacheIn_kept | apply KeptF.u_mmu | apply kept_of_eq2 (he := by assumption)) | split | dsimp only

theorem State.deny_kept (s : State) (c pa : Nat)  (h_s : s.Kept P b0) (p_free : P .free = true) (p_rgs : P .rgs = true) (p_harts : P .harts = true) (p_engines : P .engines = true) (p_mmu : P .mmu = true) (p_queues : P .queues = true) (p_cat : P .cat = true) (p_power : P .power = true) (p_pads : P .pads = true) (p_rings : P .rings = true) (p_vecs : P .vecs = true) (p_hostFn : P .hostFn = true) (p_streams : P .streams = true) (p_gone : P .gone = true) : (State.deny s c pa).Kept P b0 := by
  rw [State.deny.eq_def]
  repeat' first
    | (with_reducible first | assumption | apply State.bump_kept | apply State.reportAs_kept) | split | dsimp only

theorem State.protect_kept (s : State) (c pa : Nat) (write ns : Bool)  (h_s : s.Kept P b0) (p_free : P .free = true) (p_rgs : P .rgs = true) (p_harts : P .harts = true) (p_engines : P .engines = true) (p_mmu : P .mmu = true) (p_queues : P .queues = true) (p_cat : P .cat = true) (p_power : P .power = true) (p_pads : P .pads = true) (p_rings : P .rings = true) (p_vecs : P .vecs = true) (p_hostFn : P .hostFn = true) (p_streams : P .streams = true) (p_gone : P .gone = true) : (State.protect s c pa write ns).1.Kept P b0 := by
  refine P1Kept.kept ?_
  rw [State.protect.eq_def]
  repeat' first
    | (with_reducible first | assumption | apply State.deny_kept | apply P1Kept.mk1) | split | dsimp only

theorem State.translate_kept (s : State) (c : Nat) (eng : Option Nat) (asid va : Nat) (write : Bool)  (h_s : s.Kept P b0) (p_free : P .free = true) (p_rgs : P .rgs = true) (p_harts : P .harts = true) (p_engines : P .engines = true) (p_mmu : P .mmu = true) (p_queues : P .queues = true) (p_cat : P .cat = true) (p_power : P .power = true) (p_pads : P .pads = true) (p_rings : P .rings = true) (p_vecs : P .vecs = true) (p_hostFn : P .hostFn = true) (p_streams : P .streams = true) (p_gone : P .gone = true) : (State.translate s c eng asid va write).1.Kept P b0 := by
  refine P1Kept.kept ?_
  rw [State.translate.eq_def]
  repeat' first
    | (with_reducible first | assumption | apply State.cache_kept | apply State.protect_kept | apply P1Kept.mk1 | apply kept_of_eq1 (he := by assumption)) | split | dsimp only

theorem State.readPhys_kept (s : State) (pa n : Nat)  (h_s : s.Kept P b0) (p_free : P .free = true) (p_rgs : P .rgs = true) (p_harts : P .harts = true) (p_engines : P .engines = true) (p_mmu : P .mmu = true) (p_queues : P .queues = true) (p_cat : P .cat = true) (p_power : P .power = true) (p_pads : P .pads = true) (p_rings : P .rings = true) (p_vecs : P .vecs = true) (p_hostFn : P .hostFn = true) (p_streams : P .streams = true) (p_gone : P .gone = true) : (State.readPhys s pa n).1.Kept P b0 := by
  refine P1Kept.kept ?_
  rw [State.readPhys.eq_def]
  repeat' first
    | (with_reducible first | assumption | apply State.readMem_kept | apply P1Kept.mk1 | apply kept_of_eq1 (he := by assumption)) | split | dsimp only

theorem State.writePhys_kept (s : State) (pa : Nat) (l : List Byte)  (h_s : s.Kept P b0) (p_dram : P .dram = true) (p_damage : P .damage = true) (p_host : P .host = true) (p_free : P .free = true) (p_rgs : P .rgs = true) (p_harts : P .harts = true) (p_engines : P .engines = true) (p_mmu : P .mmu = true) (p_queues : P .queues = true) (p_chans : P .chans = true) (p_cat : P .cat = true) (p_power : P .power = true) (p_pads : P .pads = true) (p_rings : P .rings = true) (p_vecs : P .vecs = true) (p_hostFn : P .hostFn = true) (p_streams : P .streams = true) (p_gone : P .gone = true) : (State.writePhys s pa l).1.Kept P b0 := by
  refine P1Kept.kept ?_
  rw [State.writePhys.eq_def]
  repeat' first
    | (with_reducible first | assumption | apply State.writeMem_kept | apply State.storeHost_kept | apply P1Kept.mk1 | apply kept_of_eq1 (he := by assumption)) | split | dsimp only

theorem State.queueFault_kept (s : State) (who : Waiter) (asid va : Nat) (write : Bool) (kind level : Nat)  (h_s : s.Kept P b0) (p_mmu : P .mmu = true) : (State.queueFault s who asid va write kind level).Kept P b0 := by
  rw [State.queueFault.eq_def]
  repeat' first
    | simp only [State.kept_mk]
    | (with_reducible first | assumption | apply State.refillFaults_kept | apply KeptF.u_mmu) | dsimp only

end Sys2Proof.Machine
end

