-- ==== Sys2Proof/Laws/KeptLending.lean ====
section
/-! SUPPORT. What the operations of Machine/Lending.lean keep (Laws/Kept.lean). -/

set_option linter.unusedTactic false
set_option linter.unreachableTactic false

namespace Sys2Proof.Machine

variable {P : Part → Bool} {b0 : State}

theorem State.showPool_kept (s : State) (p : Nat)  (h_s : s.Kept P b0) (p_free : P .free = true) (p_engines : P .engines = true) (p_mmu : P .mmu = true) : (State.showPool s p).Kept P b0 := by
  rw [State.showPool.eq_def]
  repeat' first
    | (with_reducible first | assumption | apply State.put_kept | apply State.cache_kept) | dsimp only

theorem State.noteLow_kept (s : State) (p : Nat)  (h_s : s.Kept P b0) (p_free : P .free = true) (p_engines : P .engines = true) (p_mmu : P .mmu = true) : (State.noteLow s p).Kept P b0 := by
  rw [State.noteLow.eq_def]
  repeat' first
    | (with_reducible first | assumption | apply State.put_kept | apply State.raise_kept | apply State.showPool_kept) | split | dsimp only

theorem State.refill_kept (s : State) (p : Nat)  (h_s : s.Kept P b0) (p_dram : P .dram = true) (p_damage : P .damage = true) (p_free : P .free = true) (p_engines : P .engines = true) (p_mmu : P .mmu = true) (p_pools : P .pools = true) (p_chans : P .chans = true) : (State.refill s p).Kept P b0 := by
  rw [State.refill.eq_def]
  repeat' first
    | with_reducible first
      | assumption | apply State.setPool_kept | apply State.draw_kept | apply State.storeBlock_kept | apply State.cache_kept |
      apply State.showPool_kept | apply kept_of_eq2 (he := by assumption)
    | intro _ | split | dsimp only

theorem execFreeCacheRefill_kept (p : Nat) (s : State)  (h_s : s.Kept P b0) (p_dram : P .dram = true) (p_damage : P .damage = true) (p_free : P .free = true) (p_engines : P .engines = true) (p_mmu : P .mmu = true) (p_pools : P .pools = true) (p_chans : P .chans = true) : OutKept P b0 (execFreeCacheRefill p s) := by
  rw [execFreeCacheRefill.eq_def]
  repeat' first
    | (with_reducible first | assumption | apply State.refill_kept | apply OutKept.next) | dsimp only

theorem execInit_kept (p : Nat) (s : State)  (h_s : s.Kept P b0) : OutKept P b0 (execInit p s) := by
  rw [execInit.eq_def]
  repeat' first
    | (with_reducible first | assumption | apply State.put_kept | apply OutKept.next) | split | dsimp only

theorem execPoolInitDone_kept (p : Nat) (s : State)  (h_s : s.Kept P b0) (p_dram : P .dram = true) (p_damage : P .damage = true) (p_free : P .free = true) (p_engines : P .engines = true) (p_mmu : P .mmu = true) (p_pools : P .pools = true) (p_chans : P .chans = true) : OutKept P b0 (execPoolInitDone p s) := by
  rw [execPoolInitDone.eq_def]
  repeat' first
    | with_reducible first
      | assumption | apply State.put_kept | apply State.setPool_kept | apply State.storeBlock_kept | apply State.showPool_kept | apply foldl_kept |
      apply foldl_kept1 | apply foldl_kept2 | apply OutKept.next
    | intro _ | split | dsimp only

theorem execDisable_kept (p : Nat) (s : State)  (h_s : s.Kept P b0) (p_free : P .free = true) (p_engines : P .engines = true) (p_mmu : P .mmu = true) (p_pools : P .pools = true) : OutKept P b0 (execDisable p s) := by
  rw [execDisable.eq_def]
  repeat' first
    | (with_reducible first | assumption | apply State.put_kept | apply State.setPool_kept | apply State.showPool_kept | apply OutKept.next) | split | dsimp only

theorem State.setLent_kept (s : State) (h : Nat) (v : Lent)  (h_s : s.Kept P b0) (p_pools : P .pools = true) : (State.setLent s h v).Kept P b0 := by
  rw [State.setLent.eq_def]
  repeat' first
    | (with_reducible first | assumption | apply State.setPool_kept) | intro _ | split | dsimp only

theorem State.allocate_kept (s : State) (p u : Nat)  (h_s : s.Kept P b0) (p_dram : P .dram = true) (p_damage : P .damage = true) (p_free : P .free = true) (p_engines : P .engines = true) (p_mmu : P .mmu = true) (p_pools : P .pools = true) (p_chans : P .chans = true) : (State.allocate s p u).1.Kept P b0 := by
  refine P1Kept.kept ?_
  rw [State.allocate.eq_def]
  repeat' first
    | with_reducible first
      | assumption | apply State.bump_kept | apply State.setPool_kept | apply State.pick_kept | apply State.cache_kept | apply State.noteLow_kept |
      apply State.refill_kept | apply State.setLent_kept | apply P1Kept.mk1 | exact OutKept.fault _ | apply kept_of_eq2 (he := by assumption)
    | split | dsimp only

theorem execFolioAllocate_kept (p u : Nat) (s : State)  (h_s : s.Kept P b0) (p_dram : P .dram = true) (p_damage : P .damage = true) (p_free : P .free = true) (p_answer : P .answer = true) (p_engines : P .engines = true) (p_mmu : P .mmu = true) (p_pools : P .pools = true) (p_chans : P .chans = true) : OutKept P b0 (execFolioAllocate p u s) := by
  rw [execFolioAllocate.eq_def]
  repeat' first
    | (with_reducible first | assumption | apply State.reply_kept | apply State.allocate_kept | apply OutKept.next | apply kept_of_eq1 (he := by assumption)) | split | dsimp only

theorem State.giveBack_kept (s : State) (h : Nat)  (h_s : s.Kept P b0) (p_dram : P .dram = true) (p_damage : P .damage = true) (p_free : P .free = true) (p_engines : P .engines = true) (p_mmu : P .mmu = true) (p_pools : P .pools = true) (p_chans : P .chans = true) : (State.giveBack s h).Kept P b0 := by
  rw [State.giveBack.eq_def]
  repeat' first
    | (with_reducible first | assumption | apply State.setPool_kept | apply State.cache_kept | apply State.showPool_kept | apply State.refill_kept) | intro _ | split | dsimp only

theorem State.showOrphans_kept (s : State)  (h_s : s.Kept P b0) : (State.showOrphans s).Kept P b0 := by
  rw [State.showOrphans.eq_def]
  repeat' first
    | (with_reducible first | assumption | apply State.wr_kept | apply State.put_kept) | dsimp only

theorem State.share_kept (s : State) (h u n owner : Nat)  (h_s : s.Kept P b0) (p_pools : P .pools = true) : (State.share s h u n owner).1.Kept P b0 := by
  refine P1Kept.kept ?_
  rw [State.share.eq_def]
  repeat' first
    | (with_reducible first | assumption | apply State.bump_kept | apply State.setLent_kept | apply P1Kept.mk1) | split | dsimp only

theorem State.release_kept (s : State) (h u : Nat)  (h_s : s.Kept P b0) (p_dram : P .dram = true) (p_damage : P .damage = true) (p_free : P .free = true) (p_rgs : P .rgs = true) (p_harts : P .harts = true) (p_engines : P .engines = true) (p_mmu : P .mmu = true) (p_queues : P .queues = true) (p_pools : P .pools = true) (p_orphans : P .orphans = true) (p_chans : P .chans = true) (p_cat : P .cat = true) (p_power : P .power = true) (p_pads : P .pads = true) (p_rings : P .rings = true) (p_vecs : P .vecs = true) (p_hostFn : P .hostFn = true) (p_streams : P .streams = true) (p_gone : P .gone = true) : (State.release s h u).1.Kept P b0 := by
  refine P1Kept.kept ?_
  rw [State.release.eq_def]
  repeat' first
    | simp only [State.kept_mk]
    | with_reducible first
      | assumption | apply State.bump_kept | apply State.raise_kept | apply State.report_kept | apply State.setLent_kept | apply State.giveBack_kept
      | apply State.showOrphans_kept | apply KeptF.u_orphans | apply P1Kept.mk1
    | split | dsimp only

theorem execShare_kept (h u n owner : Nat) (s : State)  (h_s : s.Kept P b0) (p_answer : P .answer = true) (p_pools : P .pools = true) : OutKept P b0 (execShare h u n owner s) := by
  rw [execShare.eq_def]
  repeat' first
    | (with_reducible first | assumption | apply State.reply_kept | apply State.share_kept | apply OutKept.next | apply kept_of_eq1 (he := by assumption)) | split | dsimp only

theorem execRelease_kept (h u : Nat) (s : State)  (h_s : s.Kept P b0) (p_dram : P .dram = true) (p_damage : P .damage = true) (p_free : P .free = true) (p_answer : P .answer = true) (p_rgs : P .rgs = true) (p_harts : P .harts = true) (p_engines : P .engines = true) (p_mmu : P .mmu = true) (p_queues : P .queues = true) (p_pools : P .pools = true) (p_orphans : P .orphans = true) (p_chans : P .chans = true) (p_cat : P .cat = true) (p_power : P .power = true) (p_pads : P .pads = true) (p_rings : P .rings = true) (p_vecs : P .vecs = true) (p_hostFn : P .hostFn = true) (p_streams : P .streams = true) (p_gone : P .gone = true) : OutKept P b0 (execRelease h u s) := by
  rw [execRelease.eq_def]
  repeat' first
    | (with_reducible first | assumption | apply State.reply_kept | apply State.release_kept | apply OutKept.next | apply kept_of_eq1 (he := by assumption)) | split | dsimp only

theorem execReclaim_kept (s : State)  (h_s : s.Kept P b0) (p_dram : P .dram = true) (p_damage : P .damage = true) (p_free : P .free = true) (p_engines : P .engines = true) (p_mmu : P .mmu = true) (p_pools : P .pools = true) (p_orphans : P .orphans = true) (p_chans : P .chans = true) : OutKept P b0 (execReclaim s) := by
  rw [execReclaim.eq_def]
  repeat' first
    | simp only [State.kept_mk]
    | (with_reducible first | assumption | apply State.giveBack_kept | apply State.showOrphans_kept | apply KeptF.u_orphans | apply OutKept.next) | split | dsimp only

end Sys2Proof.Machine
end

