-- ==== Sys2Proof/Laws/KeptWake.lean ====
section
/-! SUPPORT. What the operations of Machine/Wake.lean keep (Laws/Kept.lean). -/

set_option linter.unusedTactic false
set_option linter.unreachableTactic false

namespace Sys2Proof.Machine

variable {P : Part → Bool} {b0 : State}

theorem State.checkWake_kept (s : State)  (h_s : s.Kept P b0) (p_power : P .power = true) : (State.checkWake s).Kept P b0 := by
  rw [State.checkWake.eq_def]
  repeat' first
    | simp only [State.kept_mk]
    | (with_reducible first | assumption | apply State.put_kept | apply KeptF.u_power | exact fun h => h) | split | dsimp only

theorem State.unwind_kept (s : State) (cause : Option Nat)  (h_s : s.Kept P b0) (p_power : P .power = true) : (State.unwind s cause).Kept P b0 := by
  rw [State.unwind.eq_def]
  repeat' first
    | simp only [State.kept_mk]
    | (with_reducible first | assumption | apply State.put_kept | apply KeptF.u_power | exact fun h => h) | split | dsimp only

theorem State.wakeEvent_kept (s : State) (src : Nat)  (h_s : s.Kept P b0) (p_power : P .power = true) : (State.wakeEvent s src).Kept P b0 := by
  rw [State.wakeEvent.eq_def]
  repeat' first
    | (with_reducible first | assumption | apply State.putBit_kept | apply State.checkWake_kept | apply State.unwind_kept) | split | dsimp only

theorem State.linkActivity_kept (s : State)  (h_s : s.Kept P b0) (p_power : P .power = true) : (State.linkActivity s).Kept P b0 := by
  rw [State.linkActivity.eq_def]
  repeat' first
    | (with_reducible first | assumption | apply State.wakeEvent_kept) | split | dsimp only

theorem State.heard_kept (s : State) (byHost : Bool)  (h_s : s.Kept P b0) (p_power : P .power = true) : (State.heard s byHost).Kept P b0 := by
  rw [State.heard.eq_def]
  repeat' first
    | (with_reducible first | assumption | apply State.linkActivity_kept) | split | dsimp only

end Sys2Proof.Machine
end

