-- ==== Sys2Proof/Laws/KeptSlips.lean ====
section
/-! SUPPORT. What the operations of Machine/Slips.lean keep (Laws/Kept.lean). -/

set_option linter.unusedTactic false
set_option linter.unreachableTactic false

namespace Sys2Proof.Machine

variable {P : Part → Bool} {b0 : State}

theorem State.sendVec_kept (s : State) (v : Nat)  (h_s : s.Kept P b0) (p_host : P .host = true) (p_hostFn : P .hostFn = true) : (State.sendVec s v).Kept P b0 := by
  rw [State.sendVec.eq_def]
  repeat' first
    | simp only [State.kept_mk]
    | (with_reducible first | assumption | apply State.storeHost_kept | apply KeptF.u_hostFn) | dsimp only

theorem State.fireVec_kept (s : State) (v : Nat)  (h_s : s.Kept P b0) (p_host : P .host = true) (p_power : P .power = true) (p_vecs : P .vecs = true) (p_hostFn : P .hostFn = true) : (State.fireVec s v).Kept P b0 := by
  rw [State.fireVec.eq_def]
  repeat' first
    | (with_reducible first | assumption | apply State.setVec_kept | apply State.keepVec_kept | apply State.sendVec_kept) | split | dsimp only

theorem State.countVec_kept (s : State) (v : Nat)  (h_s : s.Kept P b0) (p_host : P .host = true) (p_power : P .power = true) (p_vecs : P .vecs = true) (p_hostFn : P .hostFn = true) : (State.countVec s v).Kept P b0 := by
  rw [State.countVec.eq_def]
  repeat' first
    | (with_reducible first | assumption | apply State.setVec_kept | apply State.fireVec_kept) | split | dsimp only

theorem execMsixHoldTimer_kept (v : Nat) (s : State)  (h_s : s.Kept P b0) (p_host : P .host = true) (p_power : P .power = true) (p_vecs : P .vecs = true) (p_hostFn : P .hostFn = true) : OutKept P b0 (execMsixHoldTimer v s) := by
  rw [execMsixHoldTimer.eq_def]
  repeat' first
    | (with_reducible first | assumption | apply State.fireVec_kept | apply OutKept.next) | split | dsimp only

theorem State.sendPending_kept (s : State) (v : Nat)  (h_s : s.Kept P b0) (p_host : P .host = true) (p_hostFn : P .hostFn = true) : (State.sendPending s v).Kept P b0 := by
  rw [State.sendPending.eq_def]
  repeat' first
    | (with_reducible first | assumption | apply State.setVecPending_kept | apply State.sendVec_kept) | split | dsimp only

theorem execMsixUnmask_kept (v : Option Nat) (s : State)  (h_s : s.Kept P b0) (p_host : P .host = true) (p_hostFn : P .hostFn = true) : OutKept P b0 (execMsixUnmask v s) := by
  rw [execMsixUnmask.eq_def]
  repeat' first
    | simp only [State.kept_mk]
    | with_reducible first
      | assumption | apply State.put_kept | apply State.sendPending_kept | apply foldl_kept | apply foldl_kept1 | apply foldl_kept2 |
      apply KeptF.u_hostFn | apply OutKept.next
    | intro _ | split | dsimp only

theorem State.writeSlip_kept (s : State) (n : Nat) (r : RetSlip)  (h_s : s.Kept P b0) (p_host : P .host = true) (p_power : P .power = true) (p_vecs : P .vecs = true) (p_hostFn : P .hostFn = true) : (State.writeSlip s n r).Kept P b0 := by
  rw [State.writeSlip.eq_def]
  repeat' first
    | (with_reducible first | assumption | apply State.put_kept | apply State.storeHost_kept | apply State.countVec_kept) | split | dsimp only

theorem State.takeSlips_kept (s : State) (n : Nat) (x0 : Nat) (h_s : s.Kept P b0) (p_rings : P .rings = true) : (State.takeSlips s n x0).Kept P b0 := by
  induction x0 generalizing s n with
  | zero =>
    unfold State.takeSlips
    repeat' first
      | (with_reducible first | assumption | apply ih | apply State.put_kept | apply State.setRing_kept | apply State.showBusy_kept) | split | dsimp only
  | succ fuel ih =>
    unfold State.takeSlips
    repeat' first
      | (with_reducible first | assumption | apply ih | apply State.put_kept | apply State.setRing_kept | apply State.showBusy_kept) | split | dsimp only

theorem State.takeAll_kept (s : State) (n : Nat)  (h_s : s.Kept P b0) (p_rings : P .rings = true) : (State.takeAll s n).Kept P b0 := by
  rw [State.takeAll.eq_def]
  repeat' first
    | (with_reducible first | assumption | apply State.takeSlips_kept) | dsimp only

theorem execSqTail_kept (n idx : Nat) (s : State)  (h_s : s.Kept P b0) (p_power : P .power = true) (p_rings : P .rings = true) : OutKept P b0 (execSqTail n idx s) := by
  rw [execSqTail.eq_def]
  repeat' first
    | with_reducible first
      | assumption | apply State.put_kept | apply State.bump_kept | apply State.raise_kept | apply State.linkActivity_kept |
      apply State.takeAll_kept | apply OutKept.next
    | split | dsimp only

theorem execRqHead_kept (n idx : Nat) (s : State)  (h_s : s.Kept P b0) (p_power : P .power = true) (p_rings : P .rings = true) : OutKept P b0 (execRqHead n idx s) := by
  rw [execRqHead.eq_def]
  repeat' first
    | with_reducible first
      | assumption | apply State.put_kept | apply State.bump_kept | apply State.raise_kept | apply State.linkActivity_kept |
      apply State.takeAll_kept | apply OutKept.next
    | split | dsimp only

theorem State.keptDoorbells_kept (s : State)  (h_s : s.Kept P b0) (p_rings : P .rings = true) : (State.keptDoorbells s).Kept P b0 := by
  rw [State.keptDoorbells.eq_def]
  repeat' first
    | (with_reducible first | assumption | apply State.put_kept | apply State.takeAll_kept | apply foldl_kept | apply foldl_kept1 | apply foldl_kept2) | intro _ | split | dsimp only

theorem execSlipReread_kept (n : Nat) (s : State)  (h_s : s.Kept P b0) (p_power : P .power = true) (p_rings : P .rings = true) (p_vecs : P .vecs = true) (p_hostFn : P .hostFn = true) : OutKept P b0 (execSlipReread n s) := by
  rw [execSlipReread.eq_def]
  repeat' first
    | with_reducible first
      | assumption | apply State.put_kept | apply State.setRing_kept | apply State.complete_kept | apply State.showBusy_kept |
      apply State.takeAll_kept | apply OutKept.next
    | split | dsimp only

theorem State.putLost_kept (s : State) (n : Nat)  (h_s : s.Kept P b0) (p_rings : P .rings = true) : (State.putLost s n).Kept P b0 := by
  rw [State.putLost.eq_def]
  repeat' first
    | (with_reducible first | assumption | apply State.setRing_kept | apply State.showPending_kept) | split | dsimp only

theorem execLostSlip_kept (n : Nat) (s : State)  (h_s : s.Kept P b0) (p_rings : P .rings = true) : OutKept P b0 (execLostSlip n s) := by
  rw [execLostSlip.eq_def]
  repeat' first
    | (with_reducible first | assumption | apply State.putLost_kept | apply OutKept.next) | dsimp only

theorem State.writeEvents_kept (s : State) (n k : Nat)  (h_s : s.Kept P b0) (p_host : P .host = true) (p_power : P .power = true) (p_rings : P .rings = true) (p_vecs : P .vecs = true) (p_hostFn : P .hostFn = true) : (State.writeEvents s n k).Kept P b0 := by
  rw [State.writeEvents.eq_def]
  repeat' first
    | with_reducible first
      | assumption | apply State.setRing_kept | apply State.showPending_kept | apply State.writeSlip_kept | apply State.putLost_kept |
      apply foldl_kept | apply foldl_kept1 | apply foldl_kept2
    | intro _ | dsimp only

theorem State.drainOn_kept (s : State) (n : Nat)  (h_s : s.Kept P b0) (p_host : P .host = true) (p_power : P .power = true) (p_rings : P .rings = true) (p_vecs : P .vecs = true) (p_hostFn : P .hostFn = true) : (State.drainOn s n).Kept P b0 := by
  rw [State.drainOn.eq_def]
  repeat' first
    | (with_reducible first | assumption | apply State.setRing_kept | apply State.writeEvents_kept) | split | dsimp only

theorem State.beginDrain_kept (s : State) (n : Nat)  (h_s : s.Kept P b0) (p_host : P .host = true) (p_power : P .power = true) (p_rings : P .rings = true) (p_vecs : P .vecs = true) (p_hostFn : P .hostFn = true) : (State.beginDrain s n).Kept P b0 := by
  rw [State.beginDrain.eq_def]
  repeat' first
    | (with_reducible first | assumption | apply State.setRing_kept | apply State.drainOn_kept) | dsimp only

theorem State.startDrain_kept (s : State) (n : Nat)  (h_s : s.Kept P b0) (p_host : P .host = true) (p_power : P .power = true) (p_rings : P .rings = true) (p_vecs : P .vecs = true) (p_hostFn : P .hostFn = true) : (State.startDrain s n).Kept P b0 := by
  rw [State.startDrain.eq_def]
  repeat' first
    | (with_reducible first | assumption | apply State.fireVec_kept | apply State.beginDrain_kept) | dsimp only

theorem execEventGroupWrite_kept (n : Nat) (s : State)  (h_s : s.Kept P b0) (p_host : P .host = true) (p_power : P .power = true) (p_rings : P .rings = true) (p_vecs : P .vecs = true) (p_hostFn : P .hostFn = true) : OutKept P b0 (execEventGroupWrite n s) := by
  rw [execEventGroupWrite.eq_def]
  repeat' first
    | (with_reducible first | assumption | apply State.writeEvents_kept | apply State.drainOn_kept | apply OutKept.next) | split | dsimp only

theorem execEventQueueTimeout_kept (n : Nat) (s : State)  (h_s : s.Kept P b0) (p_host : P .host = true) (p_power : P .power = true) (p_rings : P .rings = true) (p_vecs : P .vecs = true) (p_hostFn : P .hostFn = true) : OutKept P b0 (execEventQueueTimeout n s) := by
  rw [execEventQueueTimeout.eq_def]
  repeat' first
    | (with_reducible first | assumption | apply State.startDrain_kept | apply OutKept.next) | split | dsimp only

theorem execHostD3hotEntry_kept (d3 pmeEn : Bool) (s : State)  (h_s : s.Kept P b0) (p_hostFn : P .hostFn = true) : OutKept P b0 (execHostD3hotEntry d3 pmeEn s) := by
  rw [execHostD3hotEntry.eq_def]
  repeat' first
    | simp only [State.kept_mk]
    | (with_reducible first | assumption | apply KeptF.u_hostFn | apply OutKept.next) | dsimp only

theorem execRpCfgWrite_kept (n v : Nat) (s : State)  (h_s : s.Kept P b0) (p_rings : P .rings = true) : OutKept P b0 (execRpCfgWrite n v s) := by
  rw [execRpCfgWrite.eq_def]
  repeat' first
    | (with_reducible first | assumption | apply State.wr_kept | apply State.put_kept | apply State.setRing_kept | apply OutKept.next) | split | dsimp only

theorem State.startSlip_kept (s : State) (n : Nat) (t : Taken)  (h_s : s.Kept P b0) (p_rings : P .rings = true) : (State.startSlip s n t).Kept P b0 := by
  rw [State.startSlip.eq_def]
  repeat' first
    | (with_reducible first | assumption | apply State.setRing_kept) | intro _ | split | dsimp only

theorem State.finishExtra_kept (s : State) (n k : Nat) (t : Taken) (status extra : Nat) (w : List Nat)  (h_s : s.Kept P b0) (p_power : P .power = true) (p_rings : P .rings = true) (p_vecs : P .vecs = true) (p_hostFn : P .hostFn = true) : (State.finishExtra s n k t status extra w).Kept P b0 := by
  rw [State.finishExtra.eq_def]
  repeat' first
    | (with_reducible first | assumption | apply State.setRing_kept | apply State.finish_kept) | intro _ | split | dsimp only

theorem State.finishInOrder_kept (s : State) (n k : Nat) (t : Taken) (status : Nat) (w : List Nat)  (h_s : s.Kept P b0) (p_power : P .power = true) (p_rings : P .rings = true) (p_vecs : P .vecs = true) (p_hostFn : P .hostFn = true) : (State.finishInOrder s n k t status w).Kept P b0 := by
  rw [State.finishInOrder.eq_def]
  repeat' first
    | (with_reducible first | assumption | apply State.finishExtra_kept) | dsimp only

theorem State.finishByIdX_kept (s : State) (n id status extra : Nat) (w : List Nat)  (h_s : s.Kept P b0) (p_power : P .power = true) (p_rings : P .rings = true) (p_vecs : P .vecs = true) (p_hostFn : P .hostFn = true) : (State.finishByIdX s n id status extra w).Kept P b0 := by
  rw [State.finishByIdX.eq_def]
  repeat' first
    | (with_reducible first | assumption | apply State.finishExtra_kept) | split | dsimp only

theorem State.finishById_kept (s : State) (n id status : Nat) (w : List Nat)  (h_s : s.Kept P b0) (p_power : P .power = true) (p_rings : P .rings = true) (p_vecs : P .vecs = true) (p_hostFn : P .hostFn = true) : (State.finishById s n id status w).Kept P b0 := by
  rw [State.finishById.eq_def]
  repeat' first
    | (with_reducible first | assumption | apply State.finishByIdX_kept) | dsimp only

theorem State.slipPages_kept (s : State) (asid : Nat) (write : Bool) (x0 : Nat) (x1 : Nat) (x2 : Nat) (h_s : s.Kept P b0) (p_free : P .free = true) (p_rgs : P .rgs = true) (p_harts : P .harts = true) (p_engines : P .engines = true) (p_mmu : P .mmu = true) (p_queues : P .queues = true) (p_cat : P .cat = true) (p_power : P .power = true) (p_pads : P .pads = true) (p_rings : P .rings = true) (p_vecs : P .vecs = true) (p_hostFn : P .hostFn = true) (p_streams : P .streams = true) (p_gone : P .gone = true) : (State.slipPages s asid write x0 x1 x2).1.Kept P b0 := by
  induction x0 generalizing s asid write x1 x2 with
  | zero =>
    refine P1Kept.kept ?_
    unfold State.slipPages
    repeat' first
      | (with_reducible first | assumption | apply ih | apply State.translate_kept | apply P1Kept.mk1 | apply kept_of_eq1 (he := by assumption)) | split | dsimp only
  | succ fuel ih =>
    refine P1Kept.kept ?_
    unfold State.slipPages
    repeat' first
      | (with_reducible first | assumption | apply ih | apply State.translate_kept | apply P1Kept.mk1 | apply kept_of_eq1 (he := by assumption)) | split | dsimp only

theorem State.slipPieces_kept (s : State) (n va len : Nat) (write : Bool)  (h_s : s.Kept P b0) (p_free : P .free = true) (p_rgs : P .rgs = true) (p_harts : P .harts = true) (p_engines : P .engines = true) (p_mmu : P .mmu = true) (p_queues : P .queues = true) (p_cat : P .cat = true) (p_power : P .power = true) (p_pads : P .pads = true) (p_rings : P .rings = true) (p_vecs : P .vecs = true) (p_hostFn : P .hostFn = true) (p_streams : P .streams = true) (p_gone : P .gone = true) : (State.slipPieces s n va len write).1.Kept P b0 := by
  refine P1Kept.kept ?_
  rw [State.slipPieces.eq_def]
  repeat' first
    | (with_reducible first | assumption | apply State.slipPages_kept | apply P1Kept.mk1 | apply kept_of_eq1 (he := by assumption)) | dsimp only

theorem State.slipFault_kept (s : State) (n : Nat) (t : Taken) (write : Bool) (kind level va : Nat)  (h_s : s.Kept P b0) (p_mmu : P .mmu = true) (p_power : P .power = true) (p_rings : P .rings = true) (p_vecs : P .vecs = true) (p_hostFn : P .hostFn = true) : (State.slipFault s n t write kind level va).Kept P b0 := by
  rw [State.slipFault.eq_def]
  repeat' first
    | (with_reducible first | assumption | apply State.queueFault_kept | apply State.finishById_kept) | split | dsimp only

theorem State.readPieces_kept (s : State) (x0 : List (Nat × Nat)) (h_s : s.Kept P b0) (p_free : P .free = true) (p_rgs : P .rgs = true) (p_harts : P .harts = true) (p_engines : P .engines = true) (p_mmu : P .mmu = true) (p_queues : P .queues = true) (p_cat : P .cat = true) (p_power : P .power = true) (p_pads : P .pads = true) (p_rings : P .rings = true) (p_vecs : P .vecs = true) (p_hostFn : P .hostFn = true) (p_streams : P .streams = true) (p_gone : P .gone = true) : (State.readPieces s x0).1.Kept P b0 := by
  induction x0 generalizing s with
  | nil =>
    refine P1Kept.kept ?_
    unfold State.readPieces
    repeat' first
      | (with_reducible first | assumption | apply ih | apply State.readPhys_kept | apply P1Kept.mk1 | apply kept_of_eq1 (he := by assumption)) | split | dsimp only
  | cons hd tl ih =>
    refine P1Kept.kept ?_
    unfold State.readPieces
    repeat' first
      | (with_reducible first | assumption | apply ih | apply State.readPhys_kept | apply P1Kept.mk1 | apply kept_of_eq1 (he := by assumption)) | split | dsimp only

theorem State.writePieces_kept (s : State) (x0 : List (Nat × Nat)) (x1 : List Byte) (h_s : s.Kept P b0) (p_dram : P .dram = true) (p_damage : P .damage = true) (p_host : P .host = true) (p_free : P .free = true) (p_rgs : P .rgs = true) (p_harts : P .harts = true) (p_engines : P .engines = true) (p_mmu : P .mmu = true) (p_queues : P .queues = true) (p_chans : P .chans = true) (p_cat : P .cat = true) (p_power : P .power = true) (p_pads : P .pads = true) (p_rings : P .rings = true) (p_vecs : P .vecs = true) (p_hostFn : P .hostFn = true) (p_streams : P .streams = true) (p_gone : P .gone = true) : (State.writePieces s x0 x1).1.Kept P b0 := by
  induction x0 generalizing s x1 with
  | nil =>
    refine P1Kept.kept ?_
    unfold State.writePieces
    repeat' first
      | (with_reducible first | assumption | apply ih | apply State.writePhys_kept | apply P1Kept.mk1 | apply kept_of_eq1 (he := by assumption)) | split | dsimp only
  | cons hd tl ih =>
    refine P1Kept.kept ?_
    unfold State.writePieces
    repeat' first
      | (with_reducible first | assumption | apply ih | apply State.writePhys_kept | apply P1Kept.mk1 | apply kept_of_eq1 (he := by assumption)) | split | dsimp only

theorem execNop_kept (n k : Nat) (s : State)  (h_s : s.Kept P b0) (p_power : P .power = true) (p_rings : P .rings = true) (p_vecs : P .vecs = true) (p_hostFn : P .hostFn = true) : OutKept P b0 (execNop n k s) := by
  rw [execNop.eq_def]
  repeat' first
    | (with_reducible first | assumption | apply State.finish_kept | apply OutKept.next) | split | dsimp only

theorem execUnknownOpcode_kept (n k : Nat) (s : State)  (h_s : s.Kept P b0) (p_power : P .power = true) (p_rings : P .rings = true) (p_vecs : P .vecs = true) (p_hostFn : P .hostFn = true) : OutKept P b0 (execUnknownOpcode n k s) := by
  rw [execUnknownOpcode.eq_def]
  repeat' first
    | (with_reducible first | assumption | apply State.finish_kept | apply OutKept.next) | split | dsimp only

theorem State.query_kept (s : State) (n k what : Nat) (w : List Nat)  (h_s : s.Kept P b0) (p_power : P .power = true) (p_rings : P .rings = true) (p_vecs : P .vecs = true) (p_hostFn : P .hostFn = true) : (State.query s n k what w).Kept P b0 := by
  rw [State.query.eq_def]
  repeat' first
    | (with_reducible first | assumption | apply State.finish_kept) | split | dsimp only

theorem execQueryLedger_kept (n k : Nat) (s : State)  (h_s : s.Kept P b0) (p_power : P .power = true) (p_rings : P .rings = true) (p_vecs : P .vecs = true) (p_hostFn : P .hostFn = true) : OutKept P b0 (execQueryLedger n k s) := by
  rw [execQueryLedger.eq_def]
  repeat' first
    | (with_reducible first | assumption | apply State.query_kept | apply OutKept.next) | dsimp only

theorem execQueryStream_kept (n k : Nat) (s : State)  (h_s : s.Kept P b0) (p_free : P .free = true) (p_power : P .power = true) (p_rings : P .rings = true) (p_vecs : P .vecs = true) (p_hostFn : P .hostFn = true) : OutKept P b0 (execQueryStream n k s) := by
  rw [execQueryStream.eq_def]
  repeat' first
    | (with_reducible first | assumption | apply State.draw_kept | apply State.query_kept | apply OutKept.next | apply kept_of_eq2 (he := by assumption)) | intro _ | split | dsimp only

theorem execQueryDigest_kept (n k : Nat) (s : State)  (h_s : s.Kept P b0) (p_power : P .power = true) (p_rings : P .rings = true) (p_vecs : P .vecs = true) (p_hostFn : P .hostFn = true) : OutKept P b0 (execQueryDigest n k s) := by
  rw [execQueryDigest.eq_def]
  repeat' first
    | (with_reducible first | assumption | apply State.finish_kept | apply State.query_kept | apply OutKept.next) | split | dsimp only

theorem execReturnFolio_kept (n k : Nat) (s : State)  (h_s : s.Kept P b0) (p_dram : P .dram = true) (p_damage : P .damage = true) (p_host : P .host = true) (p_free : P .free = true) (p_rgs : P .rgs = true) (p_harts : P .harts = true) (p_engines : P .engines = true) (p_mmu : P .mmu = true) (p_queues : P .queues = true) (p_pools : P .pools = true) (p_orphans : P .orphans = true) (p_chans : P .chans = true) (p_cat : P .cat = true) (p_power : P .power = true) (p_pads : P .pads = true) (p_rings : P .rings = true) (p_vecs : P .vecs = true) (p_hostFn : P .hostFn = true) (p_streams : P .streams = true) (p_gone : P .gone = true) : OutKept P b0 (execReturnFolio n k s) := by
  rw [execReturnFolio.eq_def]
  repeat' first
    | with_reducible first
      | assumption | apply State.finish_kept | apply State.readMem_kept | apply State.release_kept | apply State.slipPieces_kept |
      apply State.slipFault_kept | apply State.writePieces_kept | apply OutKept.next | apply kept_of_eq1 (he := by assumption)
    | split | dsimp only

end Sys2Proof.Machine
end

