-- ==== Sys2Proof/Laws/KeptPictures.lean ====
section
/-! SUPPORT. What the operations of Machine/Pictures.lean keep (Laws/Kept.lean). -/

set_option linter.unusedTactic false
set_option linter.unreachableTactic false

namespace Sys2Proof.Machine

variable {P : Part → Bool} {b0 : State}

theorem State.postPlan_kept (s : State) (n : Nat) (plan : Option Plan)  (h_s : s.Kept P b0) (p_streams : P .streams = true) : (State.postPlan s n plan).1.Kept P b0 := by
  refine P1Kept.kept ?_
  rw [State.postPlan.eq_def]
  repeat' first
    | (with_reducible first | assumption | apply State.setStream_kept | apply P1Kept.mk1) | intro _ | split | dsimp only

theorem State.fwPost_kept (s : State) (n num : Nat)  (h_s : s.Kept P b0) (p_harts : P .harts = true) (p_streams : P .streams = true) : (State.fwPost s n num).Kept P b0 := by
  rw [State.fwPost.eq_def]
  repeat' first
    | (with_reducible first | assumption | apply State.setStream_kept | apply State.callDue_kept | apply State.postPlan_kept | apply kept_of_eq1 (he := by assumption)) | split | dsimp only

theorem State.takePlan_kept (s : State) (n : Nat) (p : Pic)  (h_s : s.Kept P b0) (p_streams : P .streams = true) : (State.takePlan s n p).1.Kept P b0 := by
  refine P1Kept.kept ?_
  rw [State.takePlan.eq_def]
  repeat' first
    | (with_reducible first | assumption | apply State.setStream_kept | apply P1Kept.mk1) | intro _ | split | dsimp only

theorem State.allocStats_kept (s : State) (n : Nat) (p : Pic)  (h_s : s.Kept P b0) (p_dram : P .dram = true) (p_damage : P .damage = true) (p_free : P .free = true) (p_engines : P .engines = true) (p_mmu : P .mmu = true) (p_pools : P .pools = true) (p_chans : P .chans = true) : (State.allocStats s n p).1.Kept P b0 := by
  refine P1Kept.kept ?_
  rw [State.allocStats.eq_def]
  repeat' first
    | (with_reducible first | assumption | apply State.allocate_kept | apply P1Kept.mk1 | apply kept_of_eq1 (he := by assumption)) | split | dsimp only

theorem State.picSlip_kept (s : State) (n : Nat) (p : Pic)  (h_s : s.Kept P b0) (p_power : P .power = true) (p_rings : P .rings = true) (p_vecs : P .vecs = true) (p_hostFn : P .hostFn = true) (p_streams : P .streams = true) : (State.picSlip s n p).Kept P b0 := by
  rw [State.picSlip.eq_def]
  repeat' first
    | (with_reducible first | assumption | apply State.streamEvent_kept | apply State.finish_kept | apply State.onPic_kept) | intro _ | split | dsimp only

theorem State.settle_kept (s : State) (n : Nat)  (h_s : s.Kept P b0) (p_power : P .power = true) (p_rings : P .rings = true) (p_vecs : P .vecs = true) (p_hostFn : P .hostFn = true) (p_streams : P .streams = true) : (State.settle s n).Kept P b0 := by
  rw [State.settle.eq_def]
  repeat' first
    | (with_reducible first | assumption | apply State.setStream_kept | apply State.picSlip_kept | apply foldl_kept | apply foldl_kept1 | apply foldl_kept2) | intro _ | split | dsimp only

theorem State.dropReader_kept (s : State) (n num who : Nat)  (h_s : s.Kept P b0) (p_power : P .power = true) (p_rings : P .rings = true) (p_vecs : P .vecs = true) (p_hostFn : P .hostFn = true) (p_streams : P .streams = true) : (State.dropReader s n num who).Kept P b0 := by
  rw [State.dropReader.eq_def]
  repeat' first
    | (with_reducible first | assumption | apply State.onPic_kept | apply State.settle_kept) | intro _ | dsimp only

theorem State.leaveSource_kept (s : State) (n : Nat) (p : Pic)  (h_s : s.Kept P b0) (p_power : P .power = true) (p_rings : P .rings = true) (p_vecs : P .vecs = true) (p_hostFn : P .hostFn = true) (p_streams : P .streams = true) : (State.leaveSource s n p).Kept P b0 := by
  rw [State.leaveSource.eq_def]
  repeat' first
    | (with_reducible first | assumption | apply State.dropReader_kept) | split | dsimp only

theorem State.firstPacket_kept (s : State) (d num : Nat) (at' : Option Nat)  (h_s : s.Kept P b0) (p_power : P .power = true) (p_rings : P .rings = true) (p_vecs : P .vecs = true) (p_hostFn : P .hostFn = true) (p_streams : P .streams = true) : (State.firstPacket s d num at').Kept P b0 := by
  rw [State.firstPacket.eq_def]
  repeat' first
    | (with_reducible first | assumption | apply State.onPic_kept | apply State.settle_kept) | intro _ | split | dsimp only

theorem State.developPic_kept (s : State) (n : Nat) (q : Pic) (d : Nat)  (h_s : s.Kept P b0) (p_streams : P .streams = true) : (State.developPic s n q d).Kept P b0 := by
  rw [State.developPic.eq_def]
  repeat' first
    | (with_reducible first | assumption | apply State.setStream_kept) | split | dsimp only

theorem State.beginPic_kept (s : State) (n : Nat) (f : Pic → Pic)  (h_s : s.Kept P b0) (p_streams : P .streams = true) : (State.beginPic s n f).Kept P b0 := by
  rw [State.beginPic.eq_def]
  repeat' first
    | (with_reducible first | assumption | apply State.setStream_kept | apply State.developPic_kept | apply foldl_kept | apply foldl_kept1 | apply foldl_kept2) | intro _ | split | dsimp only

theorem State.planAll_kept (s : State) (n num : Nat)  (h_s : s.Kept P b0) (p_harts : P .harts = true) (p_streams : P .streams = true) : (State.planAll s n num).Kept P b0 := by
  rw [State.planAll.eq_def]
  repeat' first
    | (with_reducible first | assumption | apply State.fwPost_kept | apply foldl_kept | apply foldl_kept1 | apply foldl_kept2) | intro _ | split | dsimp only

theorem State.tryFinish_kept (s : State) (n num : Nat)  (h_s : s.Kept P b0) (p_dram : P .dram = true) (p_damage : P .damage = true) (p_free : P .free = true) (p_rgs : P .rgs = true) (p_harts : P .harts = true) (p_engines : P .engines = true) (p_mmu : P .mmu = true) (p_queues : P .queues = true) (p_pools : P .pools = true) (p_chans : P .chans = true) (p_cat : P .cat = true) (p_power : P .power = true) (p_pads : P .pads = true) (p_rings : P .rings = true) (p_vecs : P .vecs = true) (p_hostFn : P .hostFn = true) (p_streams : P .streams = true) (p_gone : P .gone = true) : (State.tryFinish s n num).Kept P b0 := by
  unfold State.tryFinish
  extract_lets x
  split
  · exact h_s
  split
  · exact h_s
  extract_lets inp rows p1 st m x1 p2
  clear_value inp rows p1 st m x1 p2
  split
  · repeat' first
      | (with_reducible first | assumption | apply State.setStream_kept | apply State.writeMem_kept | apply State.share_kept) | split | dsimp only
  · exact State.setStream_kept _ _ _ h_s p_streams

theorem State.writeOut_kept (s : State) (p : Pic) (data : List Byte)  (h_s : s.Kept P b0) (p_dram : P .dram = true) (p_damage : P .damage = true) (p_host : P .host = true) (p_free : P .free = true) (p_rgs : P .rgs = true) (p_harts : P .harts = true) (p_engines : P .engines = true) (p_mmu : P .mmu = true) (p_queues : P .queues = true) (p_chans : P .chans = true) (p_cat : P .cat = true) (p_power : P .power = true) (p_pads : P .pads = true) (p_rings : P .rings = true) (p_vecs : P .vecs = true) (p_hostFn : P .hostFn = true) (p_streams : P .streams = true) (p_gone : P .gone = true) : (State.writeOut s p data).1.Kept P b0 := by
  refine P1Kept.kept ?_
  rw [State.writeOut.eq_def]
  repeat' first
    | with_reducible first
      | assumption | apply State.queueFault_kept | apply State.slipPieces_kept | apply State.writePieces_kept | apply P1Kept.mk1 |
      apply kept_of_eq1 (he := by assumption)
    | split | dsimp only

theorem State.setReleased_kept (s : State) (n : Nat) (p : Pic)  (h_s : s.Kept P b0) (p_power : P .power = true) (p_rings : P .rings = true) (p_vecs : P .vecs = true) (p_hostFn : P .hostFn = true) (p_streams : P .streams = true) : (State.setReleased s n p).Kept P b0 := by
  rw [State.setReleased.eq_def]
  repeat' first
    | (with_reducible first | assumption | apply State.setStream_kept | apply State.settle_kept | apply State.leaveSource_kept) | split | dsimp only

end Sys2Proof.Machine
end

