-- ==== Sys2Proof/Laws/KeptPlan.lean ====
section
/-! SUPPORT. What the operations of Machine/Plan.lean keep (Laws/Kept.lean). -/

set_option linter.unusedTactic false
set_option linter.unreachableTactic false

namespace Sys2Proof.Machine

variable {P : Part → Bool} {b0 : State}

theorem State.showTarget_kept (s : State)  (h_s : s.Kept P b0) : (State.showTarget s).Kept P b0 := by
  rw [State.showTarget.eq_def]
  repeat' first
    | (with_reducible first | assumption | apply State.put_kept) | split | dsimp only

theorem State.showRamp_kept (s : State)  (h_s : s.Kept P b0) : (State.showRamp s).Kept P b0 := by
  rw [State.showRamp.eq_def]
  repeat' first
    | (with_reducible first | assumption | apply State.put_kept) | split | dsimp only

end Sys2Proof.Machine
end

