-- ==== Sys2Proof/Laws/KeptStreams.lean ====
section
/-! SUPPORT. What the operations of Machine/Streams.lean keep (Laws/Kept.lean). -/

set_option linter.unusedTactic false
set_option linter.unreachableTactic false

namespace Sys2Proof.Machine

variable {P : Part → Bool} {b0 : State}

theorem State.showLedger_kept (s : State)  (h_s : s.Kept P b0) : (State.showLedger s).Kept P b0 := by
  rw [State.showLedger.eq_def]
  repeat' first
    | (with_reducible first | assumption | apply State.put_kept) | dsimp only

theorem State.recharge_kept (s : State)  (h_s : s.Kept P b0) (p_streams : P .streams = true) (p_staged : P .staged = true) (p_taking : P .taking = true) : (State.recharge s).Kept P b0 := by
  rw [State.recharge.eq_def]
  repeat' first
    | simp only [State.kept_mk]
    | with_reducible first
      | assumption | apply State.setStream_kept | apply State.showLedger_kept | apply foldl_kept | apply foldl_kept1 | apply foldl_kept2 |
      apply KeptF.u_staged_taking
    | intro _ | split | dsimp only

theorem State.requestPace_kept (s : State) (v : Nat)  (h_s : s.Kept P b0) (p_streams : P .streams = true) (p_staged : P .staged = true) (p_taking : P .taking = true) : (State.requestPace s v).1.Kept P b0 := by
  refine P1Kept.kept ?_
  rw [State.requestPace.eq_def]
  repeat' first
    | (with_reducible first | assumption | apply State.put_kept | apply State.showTarget_kept | apply State.recharge_kept | apply P1Kept.mk1) | split | dsimp only

theorem State.rampDone_kept (s : State)  (h_s : s.Kept P b0) (p_streams : P .streams = true) (p_staged : P .staged = true) (p_taking : P .taking = true) : (State.rampDone s).Kept P b0 := by
  rw [State.rampDone.eq_def]
  repeat' first
    | (with_reducible first | assumption | apply State.put_kept | apply State.recharge_kept) | split | dsimp only

theorem execPaceCtlWrite_kept (v : Nat) (s : State)  (h_s : s.Kept P b0) (p_streams : P .streams = true) (p_staged : P .staged = true) (p_taking : P .taking = true) : OutKept P b0 (execPaceCtlWrite v s) := by
  rw [execPaceCtlWrite.eq_def]
  repeat' first
    | (with_reducible first | assumption | apply State.requestPace_kept | apply OutKept.next | apply kept_of_eq1 (he := by assumption)) | dsimp only

end Sys2Proof.Machine
end

