-- ==== Sys2Proof/Laws/KeptCompletions.lean ====
section
/-! SUPPORT. What the operations of Machine/Completions.lean keep (Laws/Kept.lean). -/

set_option linter.unusedTactic false
set_option linter.unreachableTactic false

namespace Sys2Proof.Machine

variable {P : Part → Bool} {b0 : State}

theorem State.written_kept (s : State) (r : RetSlip)  (h_s : s.Kept P b0) (p_power : P .power = true) (p_rings : P .rings = true) (p_vecs : P .vecs = true) (p_hostFn : P .hostFn = true) (p_streams : P .streams = true) : (State.written s r).Kept P b0 := by
  rw [State.written.eq_def]
  repeat' first
    | (with_reducible first | assumption | apply State.showLedger_kept | apply State.settle_kept) | split | dsimp only

theorem State.writeCompletion_kept (s : State) (n : Nat)  (h_s : s.Kept P b0) (p_host : P .host = true) (p_power : P .power = true) (p_rings : P .rings = true) (p_vecs : P .vecs = true) (p_hostFn : P .hostFn = true) (p_streams : P .streams = true) : (State.writeCompletion s n).Kept P b0 := by
  rw [State.writeCompletion.eq_def]
  repeat' first
    | (with_reducible first | assumption | apply State.setRing_kept | apply State.showBusy_kept | apply State.writeSlip_kept | apply State.written_kept) | split | dsimp only

theorem execCompletionWrite_kept (n : Nat) (s : State)  (h_s : s.Kept P b0) (p_host : P .host = true) (p_power : P .power = true) (p_rings : P .rings = true) (p_vecs : P .vecs = true) (p_hostFn : P .hostFn = true) (p_streams : P .streams = true) : OutKept P b0 (execCompletionWrite n s) := by
  rw [execCompletionWrite.eq_def]
  repeat' first
    | (with_reducible first | assumption | apply State.takeAll_kept | apply State.writeCompletion_kept | apply OutKept.next) | dsimp only

theorem State.writeWaiting_kept (s : State) (n : Nat) (x0 : Nat) (h_s : s.Kept P b0) (p_host : P .host = true) (p_power : P .power = true) (p_rings : P .rings = true) (p_vecs : P .vecs = true) (p_hostFn : P .hostFn = true) (p_streams : P .streams = true) : (State.writeWaiting s n x0).Kept P b0 := by
  induction x0 generalizing s n with
  | zero =>
    unfold State.writeWaiting
    repeat' first
      | (with_reducible first | assumption | apply ih | apply State.writeCompletion_kept) | dsimp only
  | succ fuel ih =>
    unfold State.writeWaiting
    repeat' first
      | (with_reducible first | assumption | apply ih | apply State.writeCompletion_kept) | dsimp only

theorem State.writeAllWaiting_kept (s : State) (n : Nat)  (h_s : s.Kept P b0) (p_host : P .host = true) (p_power : P .power = true) (p_rings : P .rings = true) (p_vecs : P .vecs = true) (p_hostFn : P .hostFn = true) (p_streams : P .streams = true) : (State.writeAllWaiting s n).Kept P b0 := by
  rw [State.writeAllWaiting.eq_def]
  repeat' first
    | (with_reducible first | assumption | apply State.takeAll_kept | apply State.beginDrain_kept | apply State.writeWaiting_kept) | split | dsimp only

theorem execHostD0Return_kept (fnMask : Bool) (s : State)  (h_s : s.Kept P b0) (p_host : P .host = true) (p_power : P .power = true) (p_rings : P .rings = true) (p_vecs : P .vecs = true) (p_hostFn : P .hostFn = true) (p_streams : P .streams = true) : OutKept P b0 (execHostD0Return fnMask s) := by
  rw [execHostD0Return.eq_def]
  repeat' first
    | simp only [State.kept_mk]
    | with_reducible first
      | assumption | apply State.putBit_kept | apply State.sendPending_kept | apply State.writeAllWaiting_kept | apply foldl_kept |
      apply foldl_kept1 | apply foldl_kept2 | apply KeptF.u_hostFn | apply OutKept.next
    | intro _ | split | dsimp only

end Sys2Proof.Machine
end

