-- ==== Sys2Proof/Laws/KeptBindery.lean ====
section
/-! SUPPORT. What the operations of Machine/Bindery.lean keep (Laws/Kept.lean). -/

set_option linter.unusedTactic false
set_option linter.unreachableTactic false

namespace Sys2Proof.Machine

variable {P : Part → Bool} {b0 : State}

theorem State.setMagState_kept (s : State) (p v : Nat)  (h_s : s.Kept P b0) : (State.setMagState s p v).Kept P b0 := by
  rw [State.setMagState.eq_def]
  repeat' first
    | (with_reducible first | assumption | apply State.put_kept | apply State.raise_kept) | dsimp only

theorem State.setTake_kept (s : State) (t : Take)  (h_s : s.Kept P b0) (p_bnd : P .bnd = true) : (State.setTake s t).Kept P b0 := by
  rw [State.setTake.eq_def]
  repeat' first
    | simp only [State.kept_mk]
    | (with_reducible first | assumption | apply KeptF.u_bnd) | intro _ | split | dsimp only

theorem State.showBnd_kept (s : State)  (h_s : s.Kept P b0) : (State.showBnd s).Kept P b0 := by
  rw [State.showBnd.eq_def]
  repeat' first
    | (with_reducible first | assumption | apply State.put_kept | apply foldl_kept | apply foldl_kept1 | apply foldl_kept2) | intro _ | split | dsimp only

theorem State.issueN_kept (s : State) (p : Nat) (job : MagJob) (admin : Bool) (n : Nat) (seq : Option Nat) (writes : List (Nat × List Byte))  (h_s : s.Kept P b0) (p_bnd : P .bnd = true) : (State.issueN s p job admin n seq writes).Kept P b0 := by
  rw [State.issueN.eq_def]
  repeat' first
    | (with_reducible first | assumption | apply State.setMag_kept) | dsimp only

theorem State.issue_kept (s : State) (p : Nat) (job : MagJob) (admin : Bool) (seq : Option Nat) (writes : List (Nat × List Byte))  (h_s : s.Kept P b0) (p_bnd : P .bnd = true) : (State.issue s p job admin seq writes).Kept P b0 := by
  rw [State.issue.eq_def]
  repeat' first
    | (with_reducible first | assumption | apply State.issueN_kept) | dsimp only

theorem State.issueRead_kept (s : State) (p : Nat) (job : MagJob) (len : Nat)  (h_s : s.Kept P b0) (p_bnd : P .bnd = true) : (State.issueRead s p job len).Kept P b0 := by
  rw [State.issueRead.eq_def]
  repeat' first
    | (with_reducible first | assumption | apply State.issueN_kept) | split | dsimp only

theorem State.startCkpt_kept (s : State) (p : Nat) (w : CkptFor)  (h_s : s.Kept P b0) (p_bnd : P .bnd = true) : (State.startCkpt s p w).Kept P b0 := by
  rw [State.startCkpt.eq_def]
  repeat' first
    | (with_reducible first | assumption | apply State.setMag_kept | apply State.issue_kept) | split | dsimp only

theorem State.journal_kept (s : State) (p : Nat) (job : MagJob) (ty take : Nat) (body : List Byte)  (h_s : s.Kept P b0) (p_bnd : P .bnd = true) : (State.journal s p job ty take body).Kept P b0 := by
  rw [State.journal.eq_def]
  repeat' first
    | (with_reducible first | assumption | apply State.setMag_kept | apply State.issue_kept | apply State.startCkpt_kept) | split | dsimp only

theorem State.takeEvent_kept (s : State) (t : Take) (cause p : Nat)  (h_s : s.Kept P b0) (p_rings : P .rings = true) : (State.takeEvent s t cause p).Kept P b0 := by
  rw [State.takeEvent.eq_def]
  repeat' first
    | (with_reducible first | assumption | apply State.streamEvent_kept) | dsimp only

theorem State.endTake_kept (s : State) (n : Nat)  (h_s : s.Kept P b0) (p_bnd : P .bnd = true) (p_streams : P .streams = true) : (State.endTake s n).Kept P b0 := by
  rw [State.endTake.eq_def]
  repeat' first
    | simp only [State.kept_mk]
    | (with_reducible first | assumption | apply State.setStream_kept | apply State.showBnd_kept | apply KeptF.u_bnd) | dsimp only

theorem State.failTakeSlips_kept (s : State) (t : Take) (st : Nat)  (h_s : s.Kept P b0) (p_power : P .power = true) (p_rings : P .rings = true) (p_vecs : P .vecs = true) (p_hostFn : P .hostFn = true) : (State.failTakeSlips s t st).Kept P b0 := by
  rw [State.failTakeSlips.eq_def]
  repeat' first
    | (with_reducible first | assumption | apply State.finishById_kept | apply foldl_kept | apply foldl_kept1 | apply foldl_kept2) | intro _ | split | dsimp only

theorem State.releaseHeld_kept (s : State) (t : Take)  (h_s : s.Kept P b0) (p_power : P .power = true) (p_rings : P .rings = true) (p_vecs : P .vecs = true) (p_hostFn : P .hostFn = true) (p_streams : P .streams = true) : (State.releaseHeld s t).Kept P b0 := by
  rw [State.releaseHeld.eq_def]
  repeat' first
    | (with_reducible first | assumption | apply State.dropReader_kept | apply foldl_kept | apply foldl_kept1 | apply foldl_kept2) | intro _ | dsimp only

theorem State.stopTake_kept (s : State) (t : Take) (cause p st : Nat)  (h_s : s.Kept P b0) (p_bnd : P .bnd = true) (p_power : P .power = true) (p_rings : P .rings = true) (p_vecs : P .vecs = true) (p_hostFn : P .hostFn = true) (p_streams : P .streams = true) : (State.stopTake s t cause p st).Kept P b0 := by
  rw [State.stopTake.eq_def]
  repeat' first
    | with_reducible first
      | assumption | apply State.settle_kept | apply State.takeEvent_kept | apply State.endTake_kept | apply State.failTakeSlips_kept |
      apply State.releaseHeld_kept
    | dsimp only

theorem State.dropVol_kept (s : State) (n p cause st : Nat)  (h_s : s.Kept P b0) (p_bnd : P .bnd = true) (p_power : P .power = true) (p_rings : P .rings = true) (p_vecs : P .vecs = true) (p_hostFn : P .hostFn = true) (p_streams : P .streams = true) : (State.dropVol s n p cause st).Kept P b0 := by
  rw [State.dropVol.eq_def]
  repeat' first
    | with_reducible first
      | assumption | apply State.dropReader_kept | apply State.written_kept | apply State.setTake_kept | apply State.showBnd_kept |
      apply State.takeEvent_kept | apply State.failTakeSlips_kept | apply State.stopTake_kept | apply foldl_kept | apply foldl_kept1 |
      apply foldl_kept2
    | intro _ | split | dsimp only

theorem State.ensure_kept (s : State) (n p upto : Nat)  (h_s : s.Kept P b0) (p_bnd : P .bnd = true) (p_rings : P .rings = true) : (State.ensure s n p upto).1.Kept P b0 := by
  refine P1Kept.kept ?_
  rw [State.ensure.eq_def]
  repeat' first
    | (with_reducible first | assumption | apply State.setTake_kept | apply State.showBnd_kept | apply State.takeEvent_kept | apply P1Kept.mk1) | split | dsimp only

theorem State.layDown_kept (s : State) (n p off : Nat) (job : MagJob) (bytes : List Byte)  (h_s : s.Kept P b0) (p_free : P .free = true) (p_bnd : P .bnd = true) (p_rgs : P .rgs = true) (p_harts : P .harts = true) (p_engines : P .engines = true) (p_mmu : P .mmu = true) (p_queues : P .queues = true) (p_cat : P .cat = true) (p_power : P .power = true) (p_pads : P .pads = true) (p_rings : P .rings = true) (p_vecs : P .vecs = true) (p_hostFn : P .hostFn = true) (p_streams : P .streams = true) (p_gone : P .gone = true) : (State.layDown s n p off job bytes).Kept P b0 := by
  rw [State.layDown.eq_def]
  repeat' first
    | with_reducible first
      | assumption | apply State.reportStreams_kept | apply State.setTake_kept | apply State.issue_kept | apply State.dropVol_kept |
      apply State.ensure_kept | apply kept_of_eq1 (he := by assumption)
    | split | dsimp only

theorem State.writeRecord_kept (s : State) (n num p off : Nat) (moved : Bool)  (h_s : s.Kept P b0) (p_free : P .free = true) (p_bnd : P .bnd = true) (p_rgs : P .rgs = true) (p_harts : P .harts = true) (p_engines : P .engines = true) (p_mmu : P .mmu = true) (p_queues : P .queues = true) (p_cat : P .cat = true) (p_power : P .power = true) (p_pads : P .pads = true) (p_rings : P .rings = true) (p_vecs : P .vecs = true) (p_hostFn : P .hostFn = true) (p_streams : P .streams = true) (p_gone : P .gone = true) : (State.writeRecord s n num p off moved).Kept P b0 := by
  rw [State.writeRecord.eq_def]
  repeat' first
    | (with_reducible first | assumption | apply State.onPic_kept | apply State.written_kept | apply State.setTake_kept | apply State.layDown_kept) | intro _ | split | dsimp only

theorem State.commitOn_kept (s : State) (n p off : Nat) (run : List RecPic)  (h_s : s.Kept P b0) (p_free : P .free = true) (p_bnd : P .bnd = true) (p_rgs : P .rgs = true) (p_harts : P .harts = true) (p_engines : P .engines = true) (p_mmu : P .mmu = true) (p_queues : P .queues = true) (p_cat : P .cat = true) (p_power : P .power = true) (p_pads : P .pads = true) (p_rings : P .rings = true) (p_vecs : P .vecs = true) (p_hostFn : P .hostFn = true) (p_streams : P .streams = true) (p_gone : P .gone = true) : (State.commitOn s n p off run).Kept P b0 := by
  rw [State.commitOn.eq_def]
  repeat' first
    | (with_reducible first | assumption | apply State.setTake_kept | apply State.layDown_kept) | intro _ | split | dsimp only

theorem State.startCommit_kept (s : State) (n : Nat)  (h_s : s.Kept P b0) (p_free : P .free = true) (p_bnd : P .bnd = true) (p_rgs : P .rgs = true) (p_harts : P .harts = true) (p_engines : P .engines = true) (p_mmu : P .mmu = true) (p_queues : P .queues = true) (p_cat : P .cat = true) (p_power : P .power = true) (p_pads : P .pads = true) (p_rings : P .rings = true) (p_vecs : P .vecs = true) (p_hostFn : P .hostFn = true) (p_streams : P .streams = true) (p_gone : P .gone = true) : (State.startCommit s n).Kept P b0 := by
  rw [State.startCommit.eq_def]
  repeat' first
    | (with_reducible first | assumption | apply State.setTake_kept | apply State.commitOn_kept | apply foldl_kept | apply foldl_kept1 | apply foldl_kept2) | intro _ | split | dsimp only

theorem State.earlyCommit_kept (s : State) (n : Nat)  (h_s : s.Kept P b0) (p_free : P .free = true) (p_bnd : P .bnd = true) (p_rgs : P .rgs = true) (p_harts : P .harts = true) (p_engines : P .engines = true) (p_mmu : P .mmu = true) (p_queues : P .queues = true) (p_cat : P .cat = true) (p_power : P .power = true) (p_pads : P .pads = true) (p_rings : P .rings = true) (p_vecs : P .vecs = true) (p_hostFn : P .hostFn = true) (p_streams : P .streams = true) (p_gone : P .gone = true) : (State.earlyCommit s n).Kept P b0 := by
  rw [State.earlyCommit.eq_def]
  repeat' first
    | (with_reducible first | assumption | apply State.startCommit_kept) | intro _ | split | dsimp only

theorem State.writeCommit_kept (s : State) (n p : Nat)  (h_s : s.Kept P b0) (p_bnd : P .bnd = true) : (State.writeCommit s n p).Kept P b0 := by
  rw [State.writeCommit.eq_def]
  repeat' first
    | (with_reducible first | assumption | apply State.setTake_kept | apply State.journal_kept | apply foldl_kept | apply foldl_kept1 | apply foldl_kept2) | intro _ | split | dsimp only

theorem State.stampCommit_kept (s : State) (n p : Nat)  (h_s : s.Kept P b0) (p_bnd : P .bnd = true) : (State.stampCommit s n p).Kept P b0 := by
  rw [State.stampCommit.eq_def]
  repeat' first
    | (with_reducible first | assumption | apply State.setTake_kept | apply State.writeCommit_kept) | split | dsimp only

theorem State.releaseRecs_kept (s : State) (n : Nat)  (h_s : s.Kept P b0) (p_bnd : P .bnd = true) (p_power : P .power = true) (p_rings : P .rings = true) (p_vecs : P .vecs = true) (p_hostFn : P .hostFn = true) (p_streams : P .streams = true) : (State.releaseRecs s n).Kept P b0 := by
  rw [State.releaseRecs.eq_def]
  repeat' first
    | (with_reducible first | assumption | apply State.dropReader_kept | apply State.setTake_kept | apply foldl_kept | apply foldl_kept1 | apply foldl_kept2) | intro _ | split | dsimp only

theorem State.writeFinal_kept (s : State) (n : Nat)  (h_s : s.Kept P b0) (p_free : P .free = true) (p_bnd : P .bnd = true) (p_rgs : P .rgs = true) (p_harts : P .harts = true) (p_engines : P .engines = true) (p_mmu : P .mmu = true) (p_queues : P .queues = true) (p_cat : P .cat = true) (p_power : P .power = true) (p_pads : P .pads = true) (p_rings : P .rings = true) (p_vecs : P .vecs = true) (p_hostFn : P .hostFn = true) (p_streams : P .streams = true) (p_gone : P .gone = true) : (State.writeFinal s n).Kept P b0 := by
  rw [State.writeFinal.eq_def]
  repeat' first
    | (with_reducible first | assumption | apply State.setTake_kept | apply State.layDown_kept | apply foldl_kept | apply foldl_kept1 | apply foldl_kept2) | intro _ | split | dsimp only

theorem State.writeClose_kept (s : State) (n p : Nat)  (h_s : s.Kept P b0) (p_bnd : P .bnd = true) : (State.writeClose s n p).Kept P b0 := by
  rw [State.writeClose.eq_def]
  repeat' first
    | (with_reducible first | assumption | apply State.setTake_kept | apply State.journal_kept | apply foldl_kept | apply foldl_kept1 | apply foldl_kept2) | intro _ | split | dsimp only

theorem State.openDone_kept (s : State) (n : Nat)  (h_s : s.Kept P b0) (p_bnd : P .bnd = true) (p_power : P .power = true) (p_rings : P .rings = true) (p_vecs : P .vecs = true) (p_hostFn : P .hostFn = true) (p_streams : P .streams = true) : (State.openDone s n).Kept P b0 := by
  rw [State.openDone.eq_def]
  repeat' first
    | (with_reducible first | assumption | apply State.finishById_kept | apply State.settle_kept | apply State.setTake_kept) | split | dsimp only

theorem State.marksDone_kept (s : State) (n : Nat)  (h_s : s.Kept P b0) (p_bnd : P .bnd = true) (p_power : P .power = true) (p_rings : P .rings = true) (p_vecs : P .vecs = true) (p_hostFn : P .hostFn = true) (p_streams : P .streams = true) : (State.marksDone s n).Kept P b0 := by
  rw [State.marksDone.eq_def]
  repeat' first
    | with_reducible first
      | assumption | apply State.finishById_kept | apply State.settle_kept | apply State.setTake_kept | apply foldl_kept | apply foldl_kept1 |
      apply foldl_kept2
    | intro _ | split | dsimp only

theorem State.takeDone_kept (s : State) (n : Nat)  (h_s : s.Kept P b0) (p_free : P .free = true) (p_bnd : P .bnd = true) (p_power : P .power = true) (p_rings : P .rings = true) (p_vecs : P .vecs = true) (p_hostFn : P .hostFn = true) (p_streams : P .streams = true) : (State.takeDone s n).Kept P b0 := by
  rw [State.takeDone.eq_def]
  repeat' first
    | with_reducible first
      | assumption | apply State.draw_kept | apply State.finishByIdX_kept | apply State.finishById_kept | apply State.settle_kept |
      apply State.takeEvent_kept | apply State.endTake_kept | apply State.releaseHeld_kept | apply foldl_kept | apply foldl_kept1 |
      apply foldl_kept2 | apply kept_of_eq2 (he := by assumption)
    | intro _ | split | dsimp only

theorem State.stopClosing_kept (s : State) (n : Nat)  (h_s : s.Kept P b0) (p_bnd : P .bnd = true) : (State.stopClosing s n).Kept P b0 := by
  rw [State.stopClosing.eq_def]
  repeat' first
    | (with_reducible first | assumption | apply State.setTake_kept) | split | dsimp only

theorem State.tryStop_kept (s : State) (n : Nat)  (h_s : s.Kept P b0) (p_free : P .free = true) (p_bnd : P .bnd = true) (p_rgs : P .rgs = true) (p_harts : P .harts = true) (p_engines : P .engines = true) (p_mmu : P .mmu = true) (p_queues : P .queues = true) (p_cat : P .cat = true) (p_power : P .power = true) (p_pads : P .pads = true) (p_rings : P .rings = true) (p_vecs : P .vecs = true) (p_hostFn : P .hostFn = true) (p_streams : P .streams = true) (p_gone : P .gone = true) : (State.tryStop s n).Kept P b0 := by
  rw [State.tryStop.eq_def]
  repeat' first
    | (with_reducible first | assumption | apply State.startCommit_kept | apply State.writeFinal_kept) | intro _ | split | dsimp only

theorem State.commitDone_kept (s : State) (n : Nat)  (h_s : s.Kept P b0) (p_free : P .free = true) (p_bnd : P .bnd = true) (p_rgs : P .rgs = true) (p_harts : P .harts = true) (p_engines : P .engines = true) (p_mmu : P .mmu = true) (p_queues : P .queues = true) (p_cat : P .cat = true) (p_power : P .power = true) (p_pads : P .pads = true) (p_rings : P .rings = true) (p_vecs : P .vecs = true) (p_hostFn : P .hostFn = true) (p_streams : P .streams = true) (p_gone : P .gone = true) : (State.commitDone s n).Kept P b0 := by
  rw [State.commitDone.eq_def]
  repeat' first
    | with_reducible first
      | assumption | apply State.streamEvent_kept | apply State.finishById_kept | apply State.settle_kept | apply State.setTake_kept |
      apply State.startCommit_kept | apply foldl_kept | apply foldl_kept1 | apply foldl_kept2
    | intro _ | split | dsimp only

theorem State.durableOn_kept (s : State) (n p : Nat)  (h_s : s.Kept P b0) (p_free : P .free = true) (p_bnd : P .bnd = true) (p_rgs : P .rgs = true) (p_harts : P .harts = true) (p_engines : P .engines = true) (p_mmu : P .mmu = true) (p_queues : P .queues = true) (p_cat : P .cat = true) (p_power : P .power = true) (p_pads : P .pads = true) (p_rings : P .rings = true) (p_vecs : P .vecs = true) (p_hostFn : P .hostFn = true) (p_streams : P .streams = true) (p_gone : P .gone = true) : (State.durableOn s n p).Kept P b0 := by
  rw [State.durableOn.eq_def]
  repeat' first
    | (with_reducible first | assumption | apply State.add_kept | apply State.written_kept | apply State.setTake_kept | apply State.commitDone_kept) | intro _ | split | dsimp only

theorem State.takeStep_kept (s : State) (n : Nat)  (h_s : s.Kept P b0) (p_free : P .free = true) (p_bnd : P .bnd = true) (p_rgs : P .rgs = true) (p_harts : P .harts = true) (p_engines : P .engines = true) (p_mmu : P .mmu = true) (p_queues : P .queues = true) (p_cat : P .cat = true) (p_power : P .power = true) (p_pads : P .pads = true) (p_rings : P .rings = true) (p_vecs : P .vecs = true) (p_hostFn : P .hostFn = true) (p_streams : P .streams = true) (p_gone : P .gone = true) : (State.takeStep s n).Kept P b0 := by
  rw [State.takeStep.eq_def]
  repeat' first
    | with_reducible first
      | assumption | apply State.releaseRecs_kept | apply State.openDone_kept | apply State.marksDone_kept | apply State.takeDone_kept |
      apply State.stopClosing_kept | apply State.tryStop_kept | apply State.commitDone_kept
    | dsimp only

theorem State.loseTakes_kept (s : State) (p st : Nat)  (h_s : s.Kept P b0) (p_free : P .free = true) (p_bnd : P .bnd = true) (p_rgs : P .rgs = true) (p_harts : P .harts = true) (p_engines : P .engines = true) (p_mmu : P .mmu = true) (p_queues : P .queues = true) (p_cat : P .cat = true) (p_power : P .power = true) (p_pads : P .pads = true) (p_rings : P .rings = true) (p_vecs : P .vecs = true) (p_hostFn : P .hostFn = true) (p_streams : P .streams = true) (p_gone : P .gone = true) : (State.loseTakes s p st).Kept P b0 := by
  rw [State.loseTakes.eq_def]
  repeat' first
    | with_reducible first
      | assumption | apply State.reportStreams_kept | apply State.dropVol_kept | apply State.takeStep_kept | apply foldl_kept | apply foldl_kept1 |
      apply foldl_kept2
    | intro _ | split | dsimp only

end Sys2Proof.Machine
end

