-- ==== Sys2Proof/Laws/KeptConserv.lean ====
section
/-! SUPPORT. What the operations of Machine/Conserv.lean keep (Laws/Kept.lean). -/

set_option linter.unusedTactic false
set_option linter.unreachableTactic false

namespace Sys2Proof.Machine

variable {P : Part → Bool} {b0 : State}

theorem State.noteTj_kept (s : State) (t : Int)  (h_s : s.Kept P b0) (p_cons : P .cons = true) : (State.noteTj s t).Kept P b0 := by
  rw [State.noteTj.eq_def]
  repeat' first
    | simp only [State.kept_mk]
    | (with_reducible first | assumption | apply State.put_kept | apply State.showTarget_kept | apply KeptF.u_cons) | split | dsimp only

theorem State.margin_kept (s : State) (cause id : Nat)  (h_s : s.Kept P b0) (p_free : P .free = true) (p_rgs : P .rgs = true) (p_harts : P .harts = true) (p_engines : P .engines = true) (p_mmu : P .mmu = true) (p_queues : P .queues = true) (p_cat : P .cat = true) (p_power : P .power = true) (p_cons : P .cons = true) (p_pads : P .pads = true) (p_rings : P .rings = true) (p_vecs : P .vecs = true) (p_hostFn : P .hostFn = true) (p_streams : P .streams = true) (p_gone : P .gone = true) : (State.margin s cause id).Kept P b0 := by
  rw [State.margin.eq_def]
  repeat' first
    | simp only [State.kept_mk]
    | (with_reducible first | assumption | apply State.put_kept | apply State.report_kept | apply KeptF.u_cons) | split | dsimp only

theorem State.marginOver_kept (s : State) (cause id : Nat)  (h_s : s.Kept P b0) (p_cons : P .cons = true) : (State.marginOver s cause id).Kept P b0 := by
  rw [State.marginOver.eq_def]
  repeat' first
    | simp only [State.kept_mk]
    | (with_reducible first | assumption | apply KeptF.u_cons) | dsimp only

theorem State.marginIf_kept (s : State) (c : Bool) (cause id : Nat)  (h_s : s.Kept P b0) (p_free : P .free = true) (p_rgs : P .rgs = true) (p_harts : P .harts = true) (p_engines : P .engines = true) (p_mmu : P .mmu = true) (p_queues : P .queues = true) (p_cat : P .cat = true) (p_power : P .power = true) (p_cons : P .cons = true) (p_pads : P .pads = true) (p_rings : P .rings = true) (p_vecs : P .vecs = true) (p_hostFn : P .hostFn = true) (p_streams : P .streams = true) (p_gone : P .gone = true) : (State.marginIf s c cause id).Kept P b0 := by
  rw [State.marginIf.eq_def]
  repeat' first
    | (with_reducible first | assumption | apply State.margin_kept | apply State.marginOver_kept) | split | dsimp only

theorem State.countReplan_kept (s : State)  (h_s : s.Kept P b0) : (State.countReplan s).Kept P b0 := by
  rw [State.countReplan.eq_def]
  repeat' first
    | (with_reducible first | assumption | apply State.bump_kept | apply State.putTime_kept | apply State.raise_kept) | dsimp only

theorem State.checkLimits_kept (s : State)  (h_s : s.Kept P b0) (p_free : P .free = true) (p_rgs : P .rgs = true) (p_harts : P .harts = true) (p_engines : P .engines = true) (p_mmu : P .mmu = true) (p_queues : P .queues = true) (p_cat : P .cat = true) (p_power : P .power = true) (p_cons : P .cons = true) (p_pads : P .pads = true) (p_rings : P .rings = true) (p_vecs : P .vecs = true) (p_hostFn : P .hostFn = true) (p_streams : P .streams = true) (p_gone : P .gone = true) : (State.checkLimits s).Kept P b0 := by
  rw [State.checkLimits.eq_def]
  repeat' first
    | with_reducible first
      | assumption | apply State.put_kept | apply State.raise_kept | apply State.margin_kept | apply State.marginOver_kept |
      apply State.marginIf_kept
    | intro _ | split | dsimp only

theorem State.planTargets_kept (s : State)  (h_s : s.Kept P b0) (p_cons : P .cons = true) : (State.planTargets s).1.Kept P b0 := by
  refine P1Kept.kept ?_
  rw [State.planTargets.eq_def]
  repeat' first
    | simp only [State.kept_mk]
    | (with_reducible first | assumption | apply State.showTarget_kept | apply foldl_kept | apply foldl_kept1 | apply foldl_kept2 | apply KeptF.u_cons | apply P1Kept.mk1) | intro _ | dsimp only

theorem State.planTrims_kept (s : State) (l : List (Nat × Nat))  (h_s : s.Kept P b0) (p_cons : P .cons = true) : (State.planTrims s l).1.Kept P b0 := by
  refine P1Kept.kept ?_
  rw [State.planTrims.eq_def]
  repeat' first
    | simp only [State.kept_mk]
    | (with_reducible first | assumption | apply foldl_kept | apply foldl_kept1 | apply foldl_kept2 | apply KeptF.u_cons | apply P1Kept.mk1) | intro _ | dsimp only

theorem State.planCentres_kept (s : State) (l : List (Nat × Nat × Nat))  (h_s : s.Kept P b0) (p_cons : P .cons = true) : (State.planCentres s l).1.Kept P b0 := by
  refine P1Kept.kept ?_
  rw [State.planCentres.eq_def]
  repeat' first
    | simp only [State.kept_mk]
    | (with_reducible first | assumption | apply foldl_kept | apply foldl_kept1 | apply foldl_kept2 | apply KeptF.u_cons | apply P1Kept.mk1) | intro _ | split | dsimp only

theorem State.showDomain_kept (s : State)  (h_s : s.Kept P b0) : (State.showDomain s).Kept P b0 := by
  rw [State.showDomain.eq_def]
  repeat' first
    | (with_reducible first | assumption | apply State.put_kept) | intro _ | split | dsimp only

theorem State.showSlacks_kept (s : State) (l : List (Nat × Nat))  (h_s : s.Kept P b0) (p_cons : P .cons = true) : (State.showSlacks s l).Kept P b0 := by
  rw [State.showSlacks.eq_def]
  repeat' first
    | simp only [State.kept_mk]
    | with_reducible first
      | assumption | apply State.put_kept | apply State.showDomain_kept | apply foldl_kept | apply foldl_kept1 | apply foldl_kept2 |
      apply KeptF.u_cons
    | intro _ | split | dsimp only

theorem State.showEyes_kept (s : State) (l : List (Nat × Nat × Nat))  (h_s : s.Kept P b0) : (State.showEyes s l).Kept P b0 := by
  rw [State.showEyes.eq_def]
  repeat' first
    | (with_reducible first | assumption | apply State.put_kept | apply foldl_kept | apply foldl_kept1 | apply foldl_kept2) | intro _ | split | dsimp only

theorem State.roundMargins_kept (s : State) (r : RoundIn)  (h_s : s.Kept P b0) (p_free : P .free = true) (p_rgs : P .rgs = true) (p_harts : P .harts = true) (p_engines : P .engines = true) (p_mmu : P .mmu = true) (p_queues : P .queues = true) (p_cat : P .cat = true) (p_power : P .power = true) (p_cons : P .cons = true) (p_pads : P .pads = true) (p_rings : P .rings = true) (p_vecs : P .vecs = true) (p_hostFn : P .hostFn = true) (p_streams : P .streams = true) (p_gone : P .gone = true) : (State.roundMargins s r).Kept P b0 := by
  rw [State.roundMargins.eq_def]
  repeat' first
    | (with_reducible first | assumption | apply State.marginIf_kept | apply foldl_kept | apply foldl_kept1 | apply foldl_kept2) | intro _ | split | dsimp only

theorem execConservatorRound_kept (r : RoundIn) (s : State)  (h_s : s.Kept P b0) (p_free : P .free = true) (p_rgs : P .rgs = true) (p_harts : P .harts = true) (p_engines : P .engines = true) (p_mmu : P .mmu = true) (p_queues : P .queues = true) (p_cat : P .cat = true) (p_power : P .power = true) (p_cons : P .cons = true) (p_pads : P .pads = true) (p_rings : P .rings = true) (p_vecs : P .vecs = true) (p_hostFn : P .hostFn = true) (p_streams : P .streams = true) (p_gone : P .gone = true) : OutKept P b0 (execConservatorRound r s) := by
  rw [execConservatorRound.eq_def]
  repeat' first
    | simp only [State.kept_mk]
    | with_reducible first
      | assumption | apply State.showRamp_kept | apply State.noteTj_kept | apply State.countReplan_kept | apply State.checkLimits_kept |
      apply State.planTargets_kept | apply State.planTrims_kept | apply State.planCentres_kept | apply State.showSlacks_kept |
      apply State.showEyes_kept | apply State.roundMargins_kept | apply foldl_kept | apply foldl_kept1 | apply foldl_kept2 | apply KeptF.u_cons |
      apply OutKept.next | apply kept_of_eq1 (he := by assumption)
    | intro _ | split | dsimp only

theorem execSlackAlarm_kept (d slack : Nat) (needs : List (Nat × Nat)) (s : State)  (h_s : s.Kept P b0) (p_free : P .free = true) (p_rgs : P .rgs = true) (p_harts : P .harts = true) (p_engines : P .engines = true) (p_mmu : P .mmu = true) (p_queues : P .queues = true) (p_cat : P .cat = true) (p_power : P .power = true) (p_cons : P .cons = true) (p_pads : P .pads = true) (p_rings : P .rings = true) (p_vecs : P .vecs = true) (p_hostFn : P .hostFn = true) (p_streams : P .streams = true) (p_gone : P .gone = true) : OutKept P b0 (execSlackAlarm d slack needs s) := by
  rw [execSlackAlarm.eq_def]
  repeat' first
    | simp only [State.kept_mk]
    | with_reducible first
      | assumption | apply State.raise_kept | apply State.showRamp_kept | apply State.marginIf_kept | apply State.countReplan_kept |
      apply State.checkLimits_kept | apply State.planTargets_kept | apply KeptF.u_cons | apply OutKept.next |
      apply kept_of_eq1 (he := by assumption)
    | split | dsimp only

theorem execBaselineTimeout_kept (s : State)  (h_s : s.Kept P b0) (p_free : P .free = true) (p_rgs : P .rgs = true) (p_harts : P .harts = true) (p_engines : P .engines = true) (p_mmu : P .mmu = true) (p_queues : P .queues = true) (p_cat : P .cat = true) (p_power : P .power = true) (p_cons : P .cons = true) (p_pads : P .pads = true) (p_rings : P .rings = true) (p_vecs : P .vecs = true) (p_hostFn : P .hostFn = true) (p_streams : P .streams = true) (p_gone : P .gone = true) : OutKept P b0 (execBaselineTimeout s) := by
  rw [execBaselineTimeout.eq_def]
  repeat' first
    | with_reducible first
      | assumption | apply State.put_kept | apply State.showRamp_kept | apply State.countReplan_kept | apply State.checkLimits_kept |
      apply State.planTargets_kept | apply OutKept.next | apply kept_of_eq1 (he := by assumption)
    | split | dsimp only

theorem State.adopt_kept (s : State) (seq : Nat)  (h_s : s.Kept P b0) (p_keeper : P .keeper = true) (p_cons : P .cons = true) : (State.adopt s seq).Kept P b0 := by
  rw [State.adopt.eq_def]
  repeat' first
    | simp only [State.kept_mk]
    | (with_reducible first | assumption | apply State.put_kept | apply KeptF.u_keeper_cons) | split | dsimp only

theorem State.consStart_kept (s : State) (f : FuseLoad)  (h_s : s.Kept P b0) (p_cons : P .cons = true) : (State.consStart s f).Kept P b0 := by
  rw [State.consStart.eq_def]
  repeat' first
    | simp only [State.kept_mk]
    | with_reducible first
      | assumption | apply State.put_kept | apply State.showTarget_kept | apply State.showRamp_kept | apply State.noteTj_kept | apply foldl_kept |
      apply foldl_kept1 | apply foldl_kept2 | apply KeptF.u_cons
    | intro _ | dsimp only

theorem State.consResume_kept (s : State)  (h_s : s.Kept P b0) (p_cons : P .cons = true) : (State.consResume s).Kept P b0 := by
  rw [State.consResume.eq_def]
  repeat' first
    | simp only [State.kept_mk]
    | (with_reducible first | assumption | apply State.put_kept | apply State.showTarget_kept | apply State.showRamp_kept | apply State.noteTj_kept | apply KeptF.u_cons) | split | dsimp only

theorem State.stepCore_kept (s : State)  (h_s : s.Kept P b0) (p_cons : P .cons = true) : (State.stepCore s).Kept P b0 := by
  rw [State.stepCore.eq_def]
  repeat' first
    | simp only [State.kept_mk]
    | (with_reducible first | assumption | apply State.put_kept | apply KeptF.u_cons) | split | dsimp only

theorem State.stepTrims_kept (s : State) (before : Nat)  (h_s : s.Kept P b0) (p_cons : P .cons = true) : (State.stepTrims s before).Kept P b0 := by
  rw [State.stepTrims.eq_def]
  repeat' first
    | simp only [State.kept_mk]
    | (with_reducible first | assumption | apply foldl_kept | apply foldl_kept1 | apply foldl_kept2 | apply KeptF.u_cons) | intro _ | split | dsimp only

theorem execVoltageStep_kept (s : State)  (h_s : s.Kept P b0) (p_cons : P .cons = true) (p_streams : P .streams = true) (p_staged : P .staged = true) (p_taking : P .taking = true) : OutKept P b0 (execVoltageStep s) := by
  rw [execVoltageStep.eq_def]
  repeat' first
    | with_reducible first
      | assumption | apply State.showTarget_kept | apply State.showRamp_kept | apply State.rampDone_kept | apply State.showDomain_kept |
      apply State.stepCore_kept | apply State.stepTrims_kept | apply OutKept.next
    | split | dsimp only

theorem execBandDwellExpiry_kept (s : State)  (h_s : s.Kept P b0) (p_cons : P .cons = true) : OutKept P b0 (execBandDwellExpiry s) := by
  rw [execBandDwellExpiry.eq_def]
  repeat' first
    | simp only [State.kept_mk]
    | (with_reducible first | assumption | apply KeptF.u_cons | apply OutKept.next) | split | dsimp only

theorem execAvsTransaction_kept (ok : Bool) (mv : Nat) (s : State)  (h_s : s.Kept P b0) (p_free : P .free = true) (p_rgs : P .rgs = true) (p_harts : P .harts = true) (p_engines : P .engines = true) (p_mmu : P .mmu = true) (p_queues : P .queues = true) (p_cat : P .cat = true) (p_power : P .power = true) (p_cons : P .cons = true) (p_pads : P .pads = true) (p_rings : P .rings = true) (p_vecs : P .vecs = true) (p_hostFn : P .hostFn = true) (p_streams : P .streams = true) (p_gone : P .gone = true) : OutKept P b0 (execAvsTransaction ok mv s) := by
  rw [execAvsTransaction.eq_def]
  repeat' first
    | simp only [State.kept_mk]
    | with_reducible first
      | assumption | apply State.put_kept | apply State.showTarget_kept | apply State.showRamp_kept | apply State.margin_kept |
      apply State.marginOver_kept | apply KeptF.u_cons | apply OutKept.next
    | split | dsimp only

end Sys2Proof.Machine
end

