-- ==== Sys2Proof/Laws/KeptStacks.lean ====
section
/-! SUPPORT. What the operations of Machine/Stacks.lean keep (Laws/Kept.lean). -/

set_option linter.unusedTactic false
set_option linter.unreachableTactic false

namespace Sys2Proof.Machine

variable {P : Part → Bool} {b0 : State}

theorem State.setWait_kept (s : State) (i w : Nat)  (h_s : s.Kept P b0) (p_engines : P .engines = true) : (State.setWait s i w).Kept P b0 := by
  rw [State.setWait.eq_def]
  repeat' first
    | (with_reducible first | assumption | apply State.put_kept | apply State.setEngine_kept) | split | dsimp only

theorem State.waitFor_kept (s : State) (u w : Nat)  (h_s : s.Kept P b0) (p_engines : P .engines = true) : (State.waitFor s u w).Kept P b0 := by
  rw [State.waitFor.eq_def]
  repeat' first
    | (with_reducible first | assumption | apply State.setWait_kept) | split | dsimp only

theorem State.waitOver_kept (s : State) (u w : Nat)  (h_s : s.Kept P b0) (p_engines : P .engines = true) : (State.waitOver s u w).Kept P b0 := by
  rw [State.waitOver.eq_def]
  repeat' first
    | (with_reducible first | assumption | apply State.setWait_kept) | split | dsimp only

theorem State.useCells_kept (s : State) (banks : List Nat)  (h_s : s.Kept P b0) : (State.useCells s banks).Kept P b0 := by
  rw [State.useCells.eq_def]
  repeat' first
    | (with_reducible first | assumption | apply State.put_kept | apply foldl_kept | apply foldl_kept1 | apply foldl_kept2) | intro _ | dsimp only

theorem State.refuseDenied_kept (s : State) (u q : Nat) (write : Bool)  (h_s : s.Kept P b0) (p_free : P .free = true) (p_rgs : P .rgs = true) (p_harts : P .harts = true) (p_engines : P .engines = true) (p_mmu : P .mmu = true) (p_queues : P .queues = true) (p_cat : P .cat = true) (p_power : P .power = true) (p_pads : P .pads = true) (p_rings : P .rings = true) (p_vecs : P .vecs = true) (p_hostFn : P .hostFn = true) (p_streams : P .streams = true) (p_gone : P .gone = true) : (State.refuseDenied s u q write).Kept P b0 := by
  rw [State.refuseDenied.eq_def]
  repeat' first
    | (with_reducible first | assumption | apply State.bump_kept | apply State.deny_kept) | split | dsimp only

theorem State.afterDepth_kept (s : State) (n before : Nat) (popped : Bool)  (h_s : s.Kept P b0) (p_queues : P .queues = true) : (State.afterDepth s n before popped).Kept P b0 := by
  rw [State.afterDepth.eq_def]
  repeat' first
    | (with_reducible first | assumption | apply State.setQueue_kept | apply State.raiseQueue_kept) | split | dsimp only

theorem State.beginItem_kept (s : State) (u n ty len : Nat) (single : Option (List Byte))  (h_s : s.Kept P b0) (p_free : P .free = true) (p_answer : P .answer = true) (p_rgs : P .rgs = true) (p_harts : P .harts = true) (p_engines : P .engines = true) (p_mmu : P .mmu = true) (p_queues : P .queues = true) (p_cat : P .cat = true) (p_power : P .power = true) (p_pads : P .pads = true) (p_rings : P .rings = true) (p_vecs : P .vecs = true) (p_hostFn : P .hostFn = true) (p_streams : P .streams = true) (p_gone : P .gone = true) : (State.beginItem s u n ty len single).Kept P b0 := by
  rw [State.beginItem.eq_def]
  repeat' first
    | with_reducible first
      | assumption | apply State.bump_kept | apply State.setQueue_kept | apply State.reply_kept | apply State.complete_kept |
      apply State.waitFor_kept | apply State.waitOver_kept | apply State.useCells_kept | apply State.refuseDenied_kept | apply State.afterDepth_kept
    | split | dsimp only

theorem execBegin_kept (u n ty len : Nat) (s : State)  (h_s : s.Kept P b0) (p_free : P .free = true) (p_answer : P .answer = true) (p_rgs : P .rgs = true) (p_harts : P .harts = true) (p_engines : P .engines = true) (p_mmu : P .mmu = true) (p_queues : P .queues = true) (p_cat : P .cat = true) (p_power : P .power = true) (p_pads : P .pads = true) (p_rings : P .rings = true) (p_vecs : P .vecs = true) (p_hostFn : P .hostFn = true) (p_streams : P .streams = true) (p_gone : P .gone = true) : OutKept P b0 (execBegin u n ty len s) := by
  rw [execBegin.eq_def]
  repeat' first
    | (with_reducible first | assumption | apply State.beginItem_kept | apply OutKept.next) | split | dsimp only

theorem execItemWordWrite_kept (u n : Nat) (data : List Byte) (s : State)  (h_s : s.Kept P b0) (p_queues : P .queues = true) (p_power : P .power = true) (p_rings : P .rings = true) (p_vecs : P .vecs = true) (p_hostFn : P .hostFn = true) : OutKept P b0 (execItemWordWrite u n data s) := by
  rw [execItemWordWrite.eq_def]
  repeat' first
    | (with_reducible first | assumption | apply State.setQueue_kept | apply State.complete_kept | apply OutKept.next) | intro _ | split | dsimp only

theorem execEnd_kept (u n : Nat) (s : State)  (h_s : s.Kept P b0) (p_answer : P .answer = true) (p_queues : P .queues = true) (p_power : P .power = true) (p_rings : P .rings = true) (p_vecs : P .vecs = true) (p_hostFn : P .hostFn = true) : OutKept P b0 (execEnd u n s) := by
  rw [execEnd.eq_def]
  repeat' first
    | (with_reducible first | assumption | apply State.bump_kept | apply State.setQueue_kept | apply State.reply_kept | apply State.complete_kept | apply OutKept.next) | intro _ | split | dsimp only

theorem execSingleOperationPush_kept (u n ty : Nat) (data : List Byte) (s : State)  (h_s : s.Kept P b0) (p_free : P .free = true) (p_answer : P .answer = true) (p_rgs : P .rgs = true) (p_harts : P .harts = true) (p_engines : P .engines = true) (p_mmu : P .mmu = true) (p_queues : P .queues = true) (p_cat : P .cat = true) (p_power : P .power = true) (p_pads : P .pads = true) (p_rings : P .rings = true) (p_vecs : P .vecs = true) (p_hostFn : P .hostFn = true) (p_streams : P .streams = true) (p_gone : P .gone = true) : OutKept P b0 (execSingleOperationPush u n ty data s) := by
  rw [execSingleOperationPush.eq_def]
  repeat' first
    | (with_reducible first | assumption | apply State.beginItem_kept | apply OutKept.next) | split | dsimp only

theorem State.popItem_kept (s : State) (u n : Nat) (claim : Bool)  (h_s : s.Kept P b0) (p_free : P .free = true) (p_answer : P .answer = true) (p_rgs : P .rgs = true) (p_harts : P .harts = true) (p_engines : P .engines = true) (p_mmu : P .mmu = true) (p_queues : P .queues = true) (p_cat : P .cat = true) (p_power : P .power = true) (p_pads : P .pads = true) (p_rings : P .rings = true) (p_vecs : P .vecs = true) (p_hostFn : P .hostFn = true) (p_streams : P .streams = true) (p_gone : P .gone = true) : (State.popItem s u n claim).Kept P b0 := by
  rw [State.popItem.eq_def]
  repeat' first
    | with_reducible first
      | assumption | apply State.bump_kept | apply State.setQueue_kept | apply State.reply_kept | apply State.complete_kept |
      apply State.freeCells_kept | apply State.waitFor_kept | apply State.waitOver_kept | apply State.refuseDenied_kept |
      apply State.afterDepth_kept
    | split | dsimp only

theorem execItemRelease_kept (u n k : Nat) (s : State)  (h_s : s.Kept P b0) (p_queues : P .queues = true) : OutKept P b0 (execItemRelease u n k s) := by
  rw [execItemRelease.eq_def]
  repeat' first
    | (with_reducible first | assumption | apply State.setQueue_kept | apply State.freeCells_kept | apply State.afterDepth_kept | apply OutKept.next) | split | dsimp only

theorem execPopClaim_kept (u n : Nat) (s : State)  (h_s : s.Kept P b0) (p_free : P .free = true) (p_answer : P .answer = true) (p_rgs : P .rgs = true) (p_harts : P .harts = true) (p_engines : P .engines = true) (p_mmu : P .mmu = true) (p_queues : P .queues = true) (p_cat : P .cat = true) (p_power : P .power = true) (p_pads : P .pads = true) (p_rings : P .rings = true) (p_vecs : P .vecs = true) (p_hostFn : P .hostFn = true) (p_streams : P .streams = true) (p_gone : P .gone = true) : OutKept P b0 (execPopClaim u n s) := by
  rw [execPopClaim.eq_def]
  repeat' first
    | (with_reducible first | assumption | apply State.popItem_kept | apply OutKept.next) | dsimp only

theorem State.flushQueue_kept (s : State) (n : Nat)  (h_s : s.Kept P b0) (p_queues : P .queues = true) (p_power : P .power = true) (p_rings : P .rings = true) (p_vecs : P .vecs = true) (p_hostFn : P .hostFn = true) : (State.flushQueue s n).Kept P b0 := by
  rw [State.flushQueue.eq_def]
  repeat' first
    | with_reducible first
      | assumption | apply State.setQueue_kept | apply State.complete_kept | apply State.freeCells_kept | apply State.afterDepth_kept |
      apply foldl_kept | apply foldl_kept1 | apply foldl_kept2
    | intro _ | dsimp only

theorem execFlush_kept (n : Nat) (s : State)  (h_s : s.Kept P b0) (p_queues : P .queues = true) (p_power : P .power = true) (p_rings : P .rings = true) (p_vecs : P .vecs = true) (p_hostFn : P .hostFn = true) : OutKept P b0 (execFlush n s) := by
  rw [execFlush.eq_def]
  repeat' first
    | (with_reducible first | assumption | apply State.flushQueue_kept | apply OutKept.next) | dsimp only

theorem execQueueTimeout_kept (n : Nat) (s : State)  (h_s : s.Kept P b0) (p_queues : P .queues = true) : OutKept P b0 (execQueueTimeout n s) := by
  rw [execQueueTimeout.eq_def]
  repeat' first
    | (with_reducible first | assumption | apply State.setQueue_kept | apply State.raiseQueue_kept | apply OutKept.next) | split | dsimp only

theorem execQueueDisable_kept (n : Nat) (s : State)  (h_s : s.Kept P b0) (p_queues : P .queues = true) : OutKept P b0 (execQueueDisable n s) := by
  rw [execQueueDisable.eq_def]
  repeat' first
    | (with_reducible first | assumption | apply State.setQueue_kept | apply OutKept.next) | split | dsimp only

theorem State.writeQueueReg_kept (s : State) (off v : Nat)  (h_s : s.Kept P b0) (p_queues : P .queues = true) : (State.writeQueueReg s off v).Kept P b0 := by
  rw [State.writeQueueReg.eq_def]
  repeat' first
    | (with_reducible first | assumption | apply State.setQueue_kept) | split | dsimp only

end Sys2Proof.Machine
end

