-- ==== Sys2Proof/Laws/KeptCurators.lean ====
section
/-! SUPPORT. What the operations of Machine/Curators.lean keep (Laws/Kept.lean). -/

set_option linter.unusedTactic false
set_option linter.unreachableTactic false

namespace Sys2Proof.Machine

variable {P : Part → Bool} {b0 : State}

theorem execMclaim_kept (h : Nat) (s : State)  (h_s : s.Kept P b0) (p_answer : P .answer = true) (p_harts : P .harts = true) : OutKept P b0 (execMclaim h s) := by
  rw [execMclaim.eq_def]
  repeat' first
    | (with_reducible first | assumption | apply State.put_kept | apply State.setHart_kept | apply State.reply_kept | apply State.trap_kept | apply OutKept.next) | split | dsimp only

theorem execMcomplete_kept (h n : Nat) (s : State)  (h_s : s.Kept P b0) (p_harts : P .harts = true) : OutKept P b0 (execMcomplete h n s) := by
  rw [execMcomplete.eq_def]
  repeat' first
    | (with_reducible first | assumption | apply State.put_kept | apply State.bump_kept | apply State.setHart_kept | apply State.trap_kept | apply OutKept.next) | split | dsimp only

theorem execSourceConfigWrite_kept (n v : Nat) (s : State)  (h_s : s.Kept P b0) : OutKept P b0 (execSourceConfigWrite n v s) := by
  rw [execSourceConfigWrite.eq_def]
  repeat' first
    | (with_reducible first | assumption | apply State.put_kept | apply State.bump_kept | apply OutKept.next) | split | dsimp only

theorem execSwset_kept (s : State)  (h_s : s.Kept P b0) : OutKept P b0 (execSwset s) := by
  rw [execSwset.eq_def]
  repeat' first
    | (with_reducible first | assumption | apply State.raise_kept | apply OutKept.next) | dsimp only

theorem execTimerCompare_kept (h : Nat) (s : State)  (h_s : s.Kept P b0) (p_harts : P .harts = true) : OutKept P b0 (execTimerCompare h s) := by
  rw [execTimerCompare.eq_def]
  repeat' first
    | (with_reducible first | assumption | apply State.checkTimer_kept | apply OutKept.next) | dsimp only

theorem execLockstepMismatch_kept (p : Nat) (s : State)  (h_s : s.Kept P b0) (p_free : P .free = true) (p_rgs : P .rgs = true) (p_harts : P .harts = true) (p_engines : P .engines = true) (p_mmu : P .mmu = true) (p_queues : P .queues = true) (p_cat : P .cat = true) (p_power : P .power = true) (p_pads : P .pads = true) (p_rings : P .rings = true) (p_vecs : P .vecs = true) (p_hostFn : P .hostFn = true) (p_streams : P .streams = true) (p_gone : P .gone = true) : OutKept P b0 (execLockstepMismatch p s) := by
  rw [execLockstepMismatch.eq_def]
  repeat' first
    | (with_reducible first | assumption | apply State.failover_kept | apply State.reportAs_kept | apply OutKept.next) | intro _ | split | dsimp only

theorem State.reloadWord_kept (s : State) (i a : Nat)  (h_s : s.Kept P b0) (p_engines : P .engines = true) : (State.reloadWord s i a).Kept P b0 := by
  rw [State.reloadWord.eq_def]
  repeat' first
    | (with_reducible first | assumption | apply State.bump_kept | apply State.setEngine_kept) | intro _ | dsimp only

theorem State.loadStore_kept (s : State) (i : Nat)  (h_s : s.Kept P b0) (p_engines : P .engines = true) : (State.loadStore s i).Kept P b0 := by
  rw [State.loadStore.eq_def]
  repeat' first
    | (with_reducible first | assumption | apply State.setEngine_kept) | split | dsimp only

theorem execStoreParityError_kept (i a : Nat) (copyPoisoned : Bool) (s : State)  (h_s : s.Kept P b0) (p_free : P .free = true) (p_rgs : P .rgs = true) (p_harts : P .harts = true) (p_engines : P .engines = true) (p_mmu : P .mmu = true) (p_queues : P .queues = true) (p_cat : P .cat = true) (p_power : P .power = true) (p_pads : P .pads = true) (p_rings : P .rings = true) (p_vecs : P .vecs = true) (p_hostFn : P .hostFn = true) (p_streams : P .streams = true) (p_gone : P .gone = true) : OutKept P b0 (execStoreParityError i a copyPoisoned s) := by
  rw [execStoreParityError.eq_def]
  repeat' first
    | with_reducible first
      | assumption | apply State.bump_kept | apply State.setEngine_kept | apply State.abandon_kept | apply State.report_kept |
      apply State.reloadWord_kept | apply OutKept.next
    | split | dsimp only

theorem execStoreScan_kept (i : Nat) (upsets : List (Nat × Nat)) (s : State)  (h_s : s.Kept P b0) (p_free : P .free = true) (p_rgs : P .rgs = true) (p_harts : P .harts = true) (p_engines : P .engines = true) (p_mmu : P .mmu = true) (p_queues : P .queues = true) (p_cat : P .cat = true) (p_power : P .power = true) (p_pads : P .pads = true) (p_rings : P .rings = true) (p_vecs : P .vecs = true) (p_hostFn : P .hostFn = true) (p_streams : P .streams = true) (p_gone : P .gone = true) : OutKept P b0 (execStoreScan i upsets s) := by
  rw [execStoreScan.eq_def]
  repeat' first
    | with_reducible first
      | assumption | apply State.setEngine_kept | apply State.report_kept | apply State.reloadWord_kept | apply foldl_kept | apply foldl_kept1 |
      apply foldl_kept2 | apply OutKept.next
    | intro _ | split | dsimp only

theorem State.unclaimItems_kept (s : State) (u : Nat)  (h_s : s.Kept P b0) (p_queues : P .queues = true) : (State.unclaimItems s u).Kept P b0 := by
  rw [State.unclaimItems.eq_def]
  repeat' first
    | (with_reducible first | assumption | apply State.setQueue_kept | apply foldl_kept | apply foldl_kept1 | apply foldl_kept2) | intro _ | dsimp only

theorem State.placeAt_kept (s : State) (n p j run i prog e : Nat)  (h_s : s.Kept P b0) (p_engines : P .engines = true) (p_streams : P .streams = true) : (State.placeAt s n p j run i prog e).Kept P b0 := by
  rw [State.placeAt.eq_def]
  repeat' first
    | (with_reducible first | assumption | apply State.put_kept | apply State.setEngine_kept | apply State.onPic_kept) | intro _ | split | dsimp only

theorem State.place_kept (s : State) (n p j run i prog : Nat)  (h_s : s.Kept P b0) (p_engines : P .engines = true) (p_streams : P .streams = true) : (State.place s n p j run i prog).Kept P b0 := by
  rw [State.place.eq_def]
  repeat' first
    | (with_reducible first | assumption | apply State.setStream_kept | apply State.placeAt_kept) | dsimp only

theorem State.unplace_kept (s : State) (i : Nat)  (h_s : s.Kept P b0) (p_engines : P .engines = true) (p_streams : P .streams = true) : (State.unplace s i).Kept P b0 := by
  rw [State.unplace.eq_def]
  repeat' first
    | (with_reducible first | assumption | apply State.setEngine_kept | apply State.onPic_kept) | intro _ | split | dsimp only

theorem State.topSpares_kept (s : State)  (h_s : s.Kept P b0) : (State.topSpares s).Kept P b0 := by
  rw [State.topSpares.eq_def]
  repeat' first
    | (with_reducible first | assumption | apply State.put_kept | apply State.showSpares_kept | apply foldl_kept | apply foldl_kept1 | apply foldl_kept2) | intro _ | split | dsimp only

theorem State.interruptUnit_kept (s : State) (i : Nat)  (h_s : s.Kept P b0) (p_engines : P .engines = true) (p_queues : P .queues = true) : (State.interruptUnit s i).Kept P b0 := by
  rw [State.interruptUnit.eq_def]
  repeat' first
    | (with_reducible first | assumption | apply State.put_kept | apply State.abandon_kept | apply State.unclaimItems_kept) | split | dsimp only

theorem execInterrupt_kept (i : Nat) (s : State)  (h_s : s.Kept P b0) (p_engines : P .engines = true) (p_queues : P .queues = true) : OutKept P b0 (execInterrupt i s) := by
  rw [execInterrupt.eq_def]
  repeat' first
    | (with_reducible first | assumption | apply State.interruptUnit_kept | apply OutKept.next) | dsimp only

theorem execDrop_kept (i : Nat) (byFirmware : Bool) (dest : Nat) (s : State)  (h_s : s.Kept P b0) (p_engines : P .engines = true) (p_queues : P .queues = true) (p_streams : P .streams = true) : OutKept P b0 (execDrop i byFirmware dest s) := by
  rw [execDrop.eq_def]
  repeat' first
    | with_reducible first
      | assumption | apply State.put_kept | apply State.setEngine_kept | apply State.abandon_kept | apply State.unclaimItems_kept |
      apply State.place_kept | apply State.unplace_kept | apply OutKept.next
    | split | dsimp only

theorem execScribeCheckpoint_kept (i : Nat) (state : List Byte) (items : Nat) (s : State)  (h_s : s.Kept P b0) (p_engines : P .engines = true) (p_queues : P .queues = true) : OutKept P b0 (execScribeCheckpoint i state items s) := by
  rw [execScribeCheckpoint.eq_def]
  repeat' first
    | with_reducible first
      | assumption | apply State.setEngine_kept | apply State.setQueue_kept | apply State.freeCells_kept | apply State.waitOver_kept |
      apply foldl_kept | apply foldl_kept1 | apply foldl_kept2 | apply OutKept.next
    | intro _ | split | dsimp only

theorem execHandshakeWatchdog_kept (u : WaitIn) (s : State)  (h_s : s.Kept P b0) (p_free : P .free = true) (p_rgs : P .rgs = true) (p_harts : P .harts = true) (p_engines : P .engines = true) (p_mmu : P .mmu = true) (p_queues : P .queues = true) (p_cat : P .cat = true) (p_power : P .power = true) (p_pads : P .pads = true) (p_rings : P .rings = true) (p_vecs : P .vecs = true) (p_hostFn : P .hostFn = true) (p_streams : P .streams = true) (p_gone : P .gone = true) : OutKept P b0 (execHandshakeWatchdog u s) := by
  rw [execHandshakeWatchdog.eq_def]
  repeat' first
    | (with_reducible first | assumption | apply State.report_kept | apply State.setWait_kept | apply OutKept.next) | split | dsimp only

end Sys2Proof.Machine
end

