-- ==== Sys2Proof/Laws/KeptDma.lean ====
section
/-! SUPPORT. What the operations of Machine/Dma.lean keep (Laws/Kept.lean). -/

set_option linter.unusedTactic false
set_option linter.unreachableTactic false

namespace Sys2Proof.Machine

variable {P : Part → Bool} {b0 : State}

theorem State.setDmaState_kept (s : State) (ch v : Nat)  (h_s : s.Kept P b0) : (State.setDmaState s ch v).Kept P b0 := by
  rw [State.setDmaState.eq_def]
  repeat' first
    | (with_reducible first | assumption | apply State.put_kept | apply State.raise_kept) | split | dsimp only

theorem State.request_kept (s : State) (l : Nat)  (h_s : s.Kept P b0) : (State.request s l).Kept P b0 := by
  rw [State.request.eq_def]
  repeat' first
    | (with_reducible first | assumption | apply State.bump_kept) | split | dsimp only

theorem State.setLevel_kept (s : State) (l : Nat) (v : Bool)  (h_s : s.Kept P b0) (p_levels : P .levels = true) : (State.setLevel s l v).Kept P b0 := by
  rw [State.setLevel.eq_def]
  repeat' first
    | simp only [State.kept_mk]
    | (with_reducible first | assumption | apply KeptF.u_levels) | split | dsimp only

theorem State.writeBack_kept (s : State) (ch status : Nat)  (h_s : s.Kept P b0) (p_dram : P .dram = true) (p_damage : P .damage = true) (p_host : P .host = true) (p_free : P .free = true) (p_rgs : P .rgs = true) (p_harts : P .harts = true) (p_engines : P .engines = true) (p_mmu : P .mmu = true) (p_queues : P .queues = true) (p_chans : P .chans = true) (p_cat : P .cat = true) (p_power : P .power = true) (p_pads : P .pads = true) (p_rings : P .rings = true) (p_vecs : P .vecs = true) (p_hostFn : P .hostFn = true) (p_streams : P .streams = true) (p_gone : P .gone = true) : (State.writeBack s ch status).1.Kept P b0 := by
  refine P1Kept.kept ?_
  rw [State.writeBack.eq_def]
  repeat' first
    | (with_reducible first | assumption | apply State.translate_kept | apply State.writePhys_kept | apply P1Kept.mk1 | apply kept_of_eq1 (he := by assumption)) | split | dsimp only

theorem State.readSlip_kept (s : State) (ch : Nat) (endBad : State → Nat → State)  (h_s : s.Kept P b0) (h_endBad : ∀ (s : State) (i : Nat), s.Kept P b0 → (endBad s i).Kept P b0) (p_free : P .free = true) (p_rgs : P .rgs = true) (p_harts : P .harts = true) (p_engines : P .engines = true) (p_mmu : P .mmu = true) (p_dma : P .dma = true) (p_queues : P .queues = true) (p_cat : P .cat = true) (p_power : P .power = true) (p_pads : P .pads = true) (p_rings : P .rings = true) (p_vecs : P .vecs = true) (p_hostFn : P .hostFn = true) (p_streams : P .streams = true) (p_gone : P .gone = true) : (State.readSlip s ch endBad).Kept P b0 := by
  rw [State.readSlip.eq_def]
  repeat' first
    | with_reducible first
      | assumption | apply h_endBad | apply State.put_kept | apply State.putPair_kept | apply State.setDmaCh_kept | apply State.translate_kept |
      apply State.readPhys_kept | apply State.setDmaState_kept | apply kept_of_eq1 (he := by assumption)
    | intro _ | split | dsimp only

theorem State.endInError_kept (s : State) (ch status : Nat)  (h_s : s.Kept P b0) (p_dram : P .dram = true) (p_damage : P .damage = true) (p_host : P .host = true) (p_free : P .free = true) (p_rgs : P .rgs = true) (p_harts : P .harts = true) (p_engines : P .engines = true) (p_mmu : P .mmu = true) (p_queues : P .queues = true) (p_chans : P .chans = true) (p_cat : P .cat = true) (p_power : P .power = true) (p_pads : P .pads = true) (p_rings : P .rings = true) (p_vecs : P .vecs = true) (p_hostFn : P .hostFn = true) (p_streams : P .streams = true) (p_gone : P .gone = true) : (State.endInError s ch status).Kept P b0 := by
  rw [State.endInError.eq_def]
  repeat' first
    | with_reducible first
      | assumption | apply State.put_kept | apply State.bump_kept | apply State.setDmaState_kept | apply State.writeBack_kept |
      apply kept_of_eq1 (he := by assumption)
    | split | dsimp only

theorem State.endSlip_kept (s : State) (ch status : Nat)  (h_s : s.Kept P b0) (p_dram : P .dram = true) (p_damage : P .damage = true) (p_host : P .host = true) (p_free : P .free = true) (p_rgs : P .rgs = true) (p_harts : P .harts = true) (p_engines : P .engines = true) (p_mmu : P .mmu = true) (p_dma : P .dma = true) (p_queues : P .queues = true) (p_chans : P .chans = true) (p_cat : P .cat = true) (p_power : P .power = true) (p_pads : P .pads = true) (p_rings : P .rings = true) (p_vecs : P .vecs = true) (p_hostFn : P .hostFn = true) (p_streams : P .streams = true) (p_gone : P .gone = true) : (State.endSlip s ch status).Kept P b0 := by
  rw [State.endSlip.eq_def]
  repeat' first
    | with_reducible first
      | assumption | apply State.put_kept | apply State.bump_kept | apply State.putPair_kept | apply State.setDmaCh_kept | apply State.raise_kept |
      apply State.setDmaState_kept | apply State.writeBack_kept | apply State.readSlip_kept | apply State.endInError_kept |
      apply kept_of_eq1 (he := by assumption)
    | intro _ | split | dsimp only

theorem State.dmaFault_kept (s : State) (ch va : Nat) (write : Bool) (kind level : Nat)  (h_s : s.Kept P b0) (p_dram : P .dram = true) (p_damage : P .damage = true) (p_host : P .host = true) (p_free : P .free = true) (p_rgs : P .rgs = true) (p_harts : P .harts = true) (p_engines : P .engines = true) (p_mmu : P .mmu = true) (p_dma : P .dma = true) (p_queues : P .queues = true) (p_chans : P .chans = true) (p_cat : P .cat = true) (p_power : P .power = true) (p_pads : P .pads = true) (p_rings : P .rings = true) (p_vecs : P .vecs = true) (p_hostFn : P .hostFn = true) (p_streams : P .streams = true) (p_gone : P .gone = true) : (State.dmaFault s ch va write kind level).Kept P b0 := by
  rw [State.dmaFault.eq_def]
  repeat' first
    | (with_reducible first | assumption | apply State.queueFault_kept | apply State.setDmaState_kept | apply State.endSlip_kept) | split | dsimp only

theorem State.advance_kept (s : State) (ch n : Nat)  (h_s : s.Kept P b0) : (State.advance s ch n).Kept P b0 := by
  rw [State.advance.eq_def]
  repeat' first
    | (with_reducible first | assumption | apply State.put_kept | apply State.putPair_kept) | split | dsimp only

theorem State.holdBurst_kept (s : State) (ch : Nat)  (h_s : s.Kept P b0) (p_dma : P .dma = true) : (State.holdBurst s ch).Kept P b0 := by
  rw [State.holdBurst.eq_def]
  repeat' first
    | (with_reducible first | assumption | apply State.setDmaCh_kept) | dsimp only

theorem State.noteLast_kept (s : State) (ch pa k : Nat)  (h_s : s.Kept P b0) (p_dma : P .dma = true) : (State.noteLast s ch pa k).Kept P b0 := by
  rw [State.noteLast.eq_def]
  repeat' first
    | (with_reducible first | assumption | apply State.setDmaCh_kept) | split | dsimp only

theorem State.movePiece_kept (s : State) (ch n : Nat)  (h_s : s.Kept P b0) (p_dram : P .dram = true) (p_damage : P .damage = true) (p_host : P .host = true) (p_free : P .free = true) (p_rgs : P .rgs = true) (p_harts : P .harts = true) (p_engines : P .engines = true) (p_mmu : P .mmu = true) (p_dma : P .dma = true) (p_queues : P .queues = true) (p_chans : P .chans = true) (p_cat : P .cat = true) (p_power : P .power = true) (p_pads : P .pads = true) (p_rings : P .rings = true) (p_vecs : P .vecs = true) (p_hostFn : P .hostFn = true) (p_streams : P .streams = true) (p_gone : P .gone = true) : (State.movePiece s ch n).1.Kept P b0 := by
  refine P1Kept.kept ?_
  rw [State.movePiece.eq_def]
  repeat' first
    | with_reducible first
      | assumption | apply State.setDmaCh_kept | apply State.translate_kept | apply State.readPhys_kept | apply State.writePhys_kept |
      apply State.endSlip_kept | apply State.dmaFault_kept | apply State.advance_kept | apply State.holdBurst_kept | apply State.noteLast_kept |
      apply P1Kept.mk1 | apply kept_of_eq1 (he := by assumption)
    | intro _ | split | dsimp only

theorem State.moveBurst_kept (s : State) (ch : Nat) (x0 : Nat) (x1 : Nat) (h_s : s.Kept P b0) (p_dram : P .dram = true) (p_damage : P .damage = true) (p_host : P .host = true) (p_free : P .free = true) (p_rgs : P .rgs = true) (p_harts : P .harts = true) (p_engines : P .engines = true) (p_mmu : P .mmu = true) (p_dma : P .dma = true) (p_queues : P .queues = true) (p_chans : P .chans = true) (p_cat : P .cat = true) (p_power : P .power = true) (p_pads : P .pads = true) (p_rings : P .rings = true) (p_vecs : P .vecs = true) (p_hostFn : P .hostFn = true) (p_streams : P .streams = true) (p_gone : P .gone = true) : (State.moveBurst s ch x0 x1).Kept P b0 := by
  induction x0 generalizing s ch x1 with
  | zero =>
    unfold State.moveBurst
    repeat' first
      | (with_reducible first | assumption | apply ih | apply State.setDmaCh_kept | apply State.movePiece_kept | apply kept_of_eq1 (he := by assumption)) | split | dsimp only
  | succ fuel ih =>
    unfold State.moveBurst
    repeat' first
      | (with_reducible first | assumption | apply ih | apply State.setDmaCh_kept | apply State.movePiece_kept | apply kept_of_eq1 (he := by assumption)) | split | dsimp only

theorem State.startBurst_kept (s : State) (ch : Nat)  (h_s : s.Kept P b0) (p_dram : P .dram = true) (p_damage : P .damage = true) (p_host : P .host = true) (p_free : P .free = true) (p_rgs : P .rgs = true) (p_harts : P .harts = true) (p_engines : P .engines = true) (p_mmu : P .mmu = true) (p_dma : P .dma = true) (p_queues : P .queues = true) (p_chans : P .chans = true) (p_cat : P .cat = true) (p_power : P .power = true) (p_pads : P .pads = true) (p_rings : P .rings = true) (p_vecs : P .vecs = true) (p_hostFn : P .hostFn = true) (p_streams : P .streams = true) (p_gone : P .gone = true) : (State.startBurst s ch).Kept P b0 := by
  rw [State.startBurst.eq_def]
  repeat' first
    | with_reducible first
      | assumption | apply State.put_kept | apply State.setDmaCh_kept | apply State.setDmaState_kept | apply State.moveBurst_kept | apply foldl_kept
      | apply foldl_kept1 | apply foldl_kept2
    | intro _ | split | dsimp only

theorem execDmaBurst_kept (ch : Nat) (s : State)  (h_s : s.Kept P b0) (p_dram : P .dram = true) (p_damage : P .damage = true) (p_host : P .host = true) (p_free : P .free = true) (p_rgs : P .rgs = true) (p_harts : P .harts = true) (p_engines : P .engines = true) (p_mmu : P .mmu = true) (p_dma : P .dma = true) (p_queues : P .queues = true) (p_chans : P .chans = true) (p_cat : P .cat = true) (p_power : P .power = true) (p_pads : P .pads = true) (p_rings : P .rings = true) (p_vecs : P .vecs = true) (p_hostFn : P .hostFn = true) (p_streams : P .streams = true) (p_gone : P .gone = true) : OutKept P b0 (execDmaBurst ch s) := by
  rw [execDmaBurst.eq_def]
  repeat' first
    | with_reducible first
      | assumption | apply State.setDmaState_kept | apply State.readSlip_kept | apply State.endInError_kept | apply State.startBurst_kept |
      apply OutKept.next
    | intro _ | split | dsimp only

theorem execDmaSlipComplete_kept (ch : Nat) (s : State)  (h_s : s.Kept P b0) (p_dram : P .dram = true) (p_damage : P .damage = true) (p_host : P .host = true) (p_free : P .free = true) (p_rgs : P .rgs = true) (p_harts : P .harts = true) (p_engines : P .engines = true) (p_mmu : P .mmu = true) (p_dma : P .dma = true) (p_queues : P .queues = true) (p_chans : P .chans = true) (p_cat : P .cat = true) (p_power : P .power = true) (p_pads : P .pads = true) (p_rings : P .rings = true) (p_vecs : P .vecs = true) (p_hostFn : P .hostFn = true) (p_streams : P .streams = true) (p_gone : P .gone = true) : OutKept P b0 (execDmaSlipComplete ch s) := by
  rw [execDmaSlipComplete.eq_def]
  repeat' first
    | (with_reducible first | assumption | apply State.endSlip_kept | apply OutKept.next) | split | dsimp only

theorem execBarrierComplete_kept (ch : Nat) (s : State)  (h_s : s.Kept P b0) (p_dram : P .dram = true) (p_damage : P .damage = true) (p_host : P .host = true) (p_free : P .free = true) (p_rgs : P .rgs = true) (p_harts : P .harts = true) (p_engines : P .engines = true) (p_mmu : P .mmu = true) (p_dma : P .dma = true) (p_queues : P .queues = true) (p_chans : P .chans = true) (p_cat : P .cat = true) (p_power : P .power = true) (p_pads : P .pads = true) (p_rings : P .rings = true) (p_vecs : P .vecs = true) (p_hostFn : P .hostFn = true) (p_streams : P .streams = true) (p_gone : P .gone = true) : OutKept P b0 (execBarrierComplete ch s) := by
  rw [execBarrierComplete.eq_def]
  repeat' first
    | (with_reducible first | assumption | apply State.endSlip_kept | apply OutKept.next) | split | dsimp only

theorem execReqSw_kept (line : Nat) (s : State)  (h_s : s.Kept P b0) : OutKept P b0 (execReqSw line s) := by
  rw [execReqSw.eq_def]
  repeat' first
    | (with_reducible first | assumption | apply State.request_kept | apply OutKept.next) | split | dsimp only

theorem State.dmaStart_kept (s : State) (ch : Nat)  (h_s : s.Kept P b0) (p_dram : P .dram = true) (p_damage : P .damage = true) (p_host : P .host = true) (p_free : P .free = true) (p_rgs : P .rgs = true) (p_harts : P .harts = true) (p_engines : P .engines = true) (p_mmu : P .mmu = true) (p_dma : P .dma = true) (p_queues : P .queues = true) (p_chans : P .chans = true) (p_cat : P .cat = true) (p_power : P .power = true) (p_pads : P .pads = true) (p_rings : P .rings = true) (p_vecs : P .vecs = true) (p_hostFn : P .hostFn = true) (p_streams : P .streams = true) (p_gone : P .gone = true) : (State.dmaStart s ch).Kept P b0 := by
  rw [State.dmaStart.eq_def]
  repeat' first
    | with_reducible first
      | assumption | apply State.wr_kept | apply State.setDmaCh_kept | apply State.readSlip_kept | apply State.endInError_kept |
      exact OutKept.fault _
    | intro _ | split | dsimp only

theorem State.dmaStop_kept (s : State) (ch : Nat)  (h_s : s.Kept P b0) (p_dram : P .dram = true) (p_damage : P .damage = true) (p_host : P .host = true) (p_free : P .free = true) (p_rgs : P .rgs = true) (p_harts : P .harts = true) (p_engines : P .engines = true) (p_mmu : P .mmu = true) (p_dma : P .dma = true) (p_queues : P .queues = true) (p_chans : P .chans = true) (p_cat : P .cat = true) (p_power : P .power = true) (p_pads : P .pads = true) (p_rings : P .rings = true) (p_vecs : P .vecs = true) (p_hostFn : P .hostFn = true) (p_streams : P .streams = true) (p_gone : P .gone = true) : (State.dmaStop s ch).Kept P b0 := by
  rw [State.dmaStop.eq_def]
  repeat' first
    | (with_reducible first | assumption | apply State.setDmaCh_kept | apply State.dropFaults_kept | apply State.endSlip_kept) | split | dsimp only

theorem State.dmaPause_kept (s : State) (ch : Nat)  (h_s : s.Kept P b0) : (State.dmaPause s ch).Kept P b0 := by
  rw [State.dmaPause.eq_def]
  repeat' first
    | (with_reducible first | assumption | apply State.put_kept | apply State.setDmaState_kept) | split | dsimp only

theorem State.dmaResume_kept (s : State) (ch : Nat)  (h_s : s.Kept P b0) : (State.dmaResume s ch).Kept P b0 := by
  rw [State.dmaResume.eq_def]
  repeat' first
    | (with_reducible first | assumption | apply State.setDmaState_kept) | split | dsimp only

theorem execStart_kept (ch : Nat) (s : State)  (h_s : s.Kept P b0) (p_dram : P .dram = true) (p_damage : P .damage = true) (p_host : P .host = true) (p_free : P .free = true) (p_rgs : P .rgs = true) (p_harts : P .harts = true) (p_engines : P .engines = true) (p_mmu : P .mmu = true) (p_dma : P .dma = true) (p_queues : P .queues = true) (p_chans : P .chans = true) (p_cat : P .cat = true) (p_power : P .power = true) (p_pads : P .pads = true) (p_rings : P .rings = true) (p_vecs : P .vecs = true) (p_hostFn : P .hostFn = true) (p_streams : P .streams = true) (p_gone : P .gone = true) : OutKept P b0 (execStart ch s) := by
  rw [execStart.eq_def]
  repeat' first
    | (with_reducible first | assumption | apply State.dmaStart_kept | apply OutKept.next) | dsimp only

theorem execStop_kept (ch : Nat) (s : State)  (h_s : s.Kept P b0) (p_dram : P .dram = true) (p_damage : P .damage = true) (p_host : P .host = true) (p_free : P .free = true) (p_rgs : P .rgs = true) (p_harts : P .harts = true) (p_engines : P .engines = true) (p_mmu : P .mmu = true) (p_dma : P .dma = true) (p_queues : P .queues = true) (p_chans : P .chans = true) (p_cat : P .cat = true) (p_power : P .power = true) (p_pads : P .pads = true) (p_rings : P .rings = true) (p_vecs : P .vecs = true) (p_hostFn : P .hostFn = true) (p_streams : P .streams = true) (p_gone : P .gone = true) : OutKept P b0 (execStop ch s) := by
  rw [execStop.eq_def]
  repeat' first
    | (with_reducible first | assumption | apply State.dmaStop_kept | apply OutKept.next) | dsimp only

theorem execPause_kept (ch : Nat) (s : State)  (h_s : s.Kept P b0) : OutKept P b0 (execPause ch s) := by
  rw [execPause.eq_def]
  repeat' first
    | (with_reducible first | assumption | apply State.dmaPause_kept | apply OutKept.next) | dsimp only

theorem execDmaResume_kept (ch : Nat) (s : State)  (h_s : s.Kept P b0) : OutKept P b0 (execDmaResume ch s) := by
  rw [execDmaResume.eq_def]
  repeat' first
    | (with_reducible first | assumption | apply State.dmaResume_kept | apply OutKept.next) | dsimp only

theorem execDmaPaused_kept (ch : Nat) (s : State)  (h_s : s.Kept P b0) : OutKept P b0 (execDmaPaused ch s) := by
  rw [execDmaPaused.eq_def]
  repeat' first
    | (with_reducible first | assumption | apply State.put_kept | apply State.setDmaState_kept | apply OutKept.next) | split | dsimp only

end Sys2Proof.Machine
end

