-- ==== Sys2Proof/Laws/KeptGates.lean ====
section
/-! SUPPORT. What the operations of Machine/Gates.lean keep (Laws/Kept.lean). -/

set_option linter.unusedTactic false
set_option linter.unreachableTactic false

namespace Sys2Proof.Machine

variable {P : Part → Bool} {b0 : State}

theorem State.setPort_kept (s : State) (p : Nat) (x : NetPort)  (h_s : s.Kept P b0) (p_net : P .net = true) : (State.setPort s p x).Kept P b0 := by
  rw [State.setPort.eq_def]
  repeat' first
    | simp only [State.kept_mk]
    | (with_reducible first | assumption | apply KeptF.u_net) | intro _ | dsimp only

theorem State.showGates_kept (s : State) (p : Nat)  (h_s : s.Kept P b0) (p_levels : P .levels = true) : (State.showGates s p).Kept P b0 := by
  rw [State.showGates.eq_def]
  repeat' first
    | (with_reducible first | assumption | apply State.setLevel_kept | apply foldl_kept | apply foldl_kept1 | apply foldl_kept2) | intro _ | dsimp only

theorem State.account_kept (s : State) (p : Nat)  (h_s : s.Kept P b0) (p_net : P .net = true) : (State.account s p).Kept P b0 := by
  rw [State.account.eq_def]
  repeat' first
    | (with_reducible first | assumption | apply State.put_kept | apply State.setPort_kept | apply foldl_kept | apply foldl_kept1 | apply foldl_kept2) | intro _ | split | dsimp only

theorem State.alignGates_kept (s : State) (p t0 t1 : Nat)  (h_s : s.Kept P b0) (p_net : P .net = true) : (State.alignGates s p t0 t1).Kept P b0 := by
  rw [State.alignGates.eq_def]
  repeat' first
    | (with_reducible first | assumption | apply State.put_kept | apply State.add_kept | apply State.setPort_kept) | intro _ | split | dsimp only

end Sys2Proof.Machine
end

