-- ==== Sys2Proof/Laws/KeptDater.lean ====
section
/-! SUPPORT. What the operations of Machine/Dater.lean keep (Laws/Kept.lean). -/

set_option linter.unusedTactic false
set_option linter.unreachableTactic false

namespace Sys2Proof.Machine

variable {P : Part → Bool} {b0 : State}

theorem State.setTout_kept (s : State) (t : Nat) (o : Tout)  (h_s : s.Kept P b0) (p_dater : P .dater = true) : (State.setTout s t o).Kept P b0 := by
  rw [State.setTout.eq_def]
  repeat' first
    | simp only [State.kept_mk]
    | (with_reducible first | assumption | apply State.put_kept | apply KeptF.u_dater) | intro _ | split | dsimp only

theorem State.skipEdges_kept (s : State) (t k : Nat)  (h_s : s.Kept P b0) : (State.skipEdges s t k).Kept P b0 := by
  rw [State.skipEdges.eq_def]
  repeat' first
    | (with_reducible first | assumption | apply State.put_kept | apply State.add_kept) | split | dsimp only

theorem State.fireAlarm_kept (s : State) (late : Bool)  (h_s : s.Kept P b0) (p_power : P .power = true) (p_rings : P .rings = true) : (State.fireAlarm s late).Kept P b0 := by
  rw [State.fireAlarm.eq_def]
  repeat' first
    | (with_reducible first | assumption | apply State.put_kept | apply State.raise_kept | apply State.postEvent_kept | apply State.wakeEvent_kept) | split | dsimp only

theorem execAlarmArm_kept (s : State)  (h_s : s.Kept P b0) (p_power : P .power = true) (p_rings : P .rings = true) : OutKept P b0 (execAlarmArm s) := by
  rw [execAlarmArm.eq_def]
  repeat' first
    | (with_reducible first | assumption | apply State.put_kept | apply State.fireAlarm_kept | apply OutKept.next) | split | dsimp only

theorem execAlarmDisarm_kept (s : State)  (h_s : s.Kept P b0) : OutKept P b0 (execAlarmDisarm s) := by
  rw [execAlarmDisarm.eq_def]
  repeat' first
    | (with_reducible first | assumption | apply State.put_kept | apply OutKept.next) | dsimp only

theorem execAlarmFire_kept (s : State)  (h_s : s.Kept P b0) (p_power : P .power = true) (p_rings : P .rings = true) : OutKept P b0 (execAlarmFire s) := by
  rw [execAlarmFire.eq_def]
  repeat' first
    | (with_reducible first | assumption | apply State.fireAlarm_kept | apply OutKept.next) | split | dsimp only

theorem execTimeOutArm_kept (t : Nat) (s : State)  (h_s : s.Kept P b0) (p_dater : P .dater = true) : OutKept P b0 (execTimeOutArm t s) := by
  rw [execTimeOutArm.eq_def]
  repeat' first
    | (with_reducible first | assumption | apply State.put_kept | apply State.setTout_kept | apply OutKept.next) | split | dsimp only

theorem execTimeOutDisarm_kept (t : Nat) (s : State)  (h_s : s.Kept P b0) (p_dater : P .dater = true) : OutKept P b0 (execTimeOutDisarm t s) := by
  rw [execTimeOutDisarm.eq_def]
  repeat' first
    | (with_reducible first | assumption | apply State.setTout_kept | apply OutKept.next) | split | dsimp only

theorem State.noteEdge_kept (s : State) (t ns : Nat)  (h_s : s.Kept P b0) (p_streams : P .streams = true) : (State.noteEdge s t ns).Kept P b0 := by
  rw [State.noteEdge.eq_def]
  repeat' first
    | (with_reducible first | assumption | apply State.setStream_kept | apply foldl_kept | apply foldl_kept1 | apply foldl_kept2) | intro _ | split | dsimp only

theorem execTimeOutEdge_kept (t : Nat) (s : State)  (h_s : s.Kept P b0) (p_dater : P .dater = true) (p_streams : P .streams = true) : OutKept P b0 (execTimeOutEdge t s) := by
  rw [execTimeOutEdge.eq_def]
  repeat' first
    | with_reducible first
      | assumption | apply State.raise_kept | apply State.request_kept | apply State.setTout_kept | apply State.skipEdges_kept |
      apply State.noteEdge_kept | apply OutKept.next
    | split | dsimp only

theorem execTimeOutPulseEnd_kept (t : Nat) (s : State)  (h_s : s.Kept P b0) (p_dater : P .dater = true) : OutKept P b0 (execTimeOutPulseEnd t s) := by
  rw [execTimeOutPulseEnd.eq_def]
  repeat' first
    | (with_reducible first | assumption | apply State.setTout_kept | apply OutKept.next) | split | dsimp only

theorem State.ppsUpdate_kept (s : State)  (h_s : s.Kept P b0) (p_dater : P .dater = true) : (State.ppsUpdate s).Kept P b0 := by
  rw [State.ppsUpdate.eq_def]
  repeat' first
    | simp only [State.kept_mk]
    | (with_reducible first | assumption | apply KeptF.u_dater) | split | dsimp only

theorem execPpsEdge_kept (s : State)  (h_s : s.Kept P b0) (p_dater : P .dater = true) : OutKept P b0 (execPpsEdge s) := by
  rw [execPpsEdge.eq_def]
  repeat' first
    | simp only [State.kept_mk]
    | (with_reducible first | assumption | apply KeptF.u_dater | apply OutKept.next) | split | dsimp only

theorem execPpsPulseEnd_kept (s : State)  (h_s : s.Kept P b0) (p_dater : P .dater = true) : OutKept P b0 (execPpsPulseEnd s) := by
  rw [execPpsPulseEnd.eq_def]
  repeat' first
    | simp only [State.kept_mk]
    | (with_reducible first | assumption | apply KeptF.u_dater | apply OutKept.next) | split | dsimp only

theorem State.alignOut_kept (s : State) (t t0 t1 : Nat)  (h_s : s.Kept P b0) (p_dater : P .dater = true) : (State.alignOut s t t0 t1).Kept P b0 := by
  rw [State.alignOut.eq_def]
  repeat' first
    | (with_reducible first | assumption | apply State.setTout_kept | apply State.skipEdges_kept) | intro _ | split | dsimp only

theorem State.changeTime_kept (s : State) (new : Nat)  (h_s : s.Kept P b0) (p_time : P .time = true) (p_dater : P .dater = true) (p_net : P .net = true) (p_harts : P .harts = true) (p_power : P .power = true) (p_rings : P .rings = true) : (State.changeTime s new).Kept P b0 := by
  rw [State.changeTime.eq_def]
  repeat' first
    | simp only [State.kept_mk]
    | with_reducible first
      | assumption | apply State.put_kept | apply State.bump_kept | apply State.checkTimer_kept | apply State.account_kept |
      apply State.alignGates_kept | apply State.fireAlarm_kept | apply State.alignOut_kept | apply foldl_kept | apply foldl_kept1 |
      apply foldl_kept2 | apply KeptF.u_time | apply KeptF.u_dater
    | intro _ | split | dsimp only

theorem State.snapshot_kept (s : State)  (h_s : s.Kept P b0) : (State.snapshot s).Kept P b0 := by
  rw [State.snapshot.eq_def]
  repeat' first
    | (with_reducible first | assumption | apply State.put_kept | apply State.putTime_kept) | dsimp only

theorem State.noSnapshot_kept (s : State)  (h_s : s.Kept P b0) : (State.noSnapshot s).Kept P b0 := by
  rw [State.noSnapshot.eq_def]
  repeat' first
    | (with_reducible first | assumption | apply State.wr_kept | apply State.put_kept) | dsimp only

theorem State.daterCmd_kept (s : State) (snap set step : Bool)  (h_s : s.Kept P b0) (p_dater : P .dater = true) : (State.daterCmd s snap set step).Kept P b0 := by
  rw [State.daterCmd.eq_def]
  repeat' first
    | simp only [State.kept_mk]
    | (with_reducible first | assumption | apply State.put_kept | apply State.noSnapshot_kept | apply KeptF.u_dater) | split | dsimp only

theorem State.runCmd_kept (s : State) (c : DaterCmd)  (h_s : s.Kept P b0) (p_time : P .time = true) (p_dater : P .dater = true) (p_net : P .net = true) (p_harts : P .harts = true) (p_power : P .power = true) (p_rings : P .rings = true) : (State.runCmd s c).Kept P b0 := by
  rw [State.runCmd.eq_def]
  repeat' first
    | (with_reducible first | assumption | apply State.changeTime_kept | apply State.snapshot_kept) | split | dsimp only

theorem execSnap_kept (s : State)  (h_s : s.Kept P b0) (p_dater : P .dater = true) : OutKept P b0 (execSnap s) := by
  rw [execSnap.eq_def]
  repeat' first
    | (with_reducible first | assumption | apply State.daterCmd_kept | apply OutKept.next) | dsimp only

theorem execSet_kept (snap step : Bool) (s : State)  (h_s : s.Kept P b0) (p_dater : P .dater = true) : OutKept P b0 (execSet snap step s) := by
  rw [execSet.eq_def]
  repeat' first
    | (with_reducible first | assumption | apply State.daterCmd_kept | apply OutKept.next) | dsimp only

theorem execStep_kept (snap : Bool) (s : State)  (h_s : s.Kept P b0) (p_dater : P .dater = true) : OutKept P b0 (execStep snap s) := by
  rw [execStep.eq_def]
  repeat' first
    | (with_reducible first | assumption | apply State.daterCmd_kept | apply OutKept.next) | dsimp only

theorem execIncrWrite_kept (v : Nat) (s : State)  (h_s : s.Kept P b0) : OutKept P b0 (execIncrWrite v s) := by
  rw [execIncrWrite.eq_def]
  repeat' first
    | (with_reducible first | assumption | apply State.put_kept | apply OutKept.next) | split | dsimp only

theorem State.setServo_kept (s : State) (v : Servo)  (h_s : s.Kept P b0) (p_dater : P .dater = true) : (State.setServo s v).Kept P b0 := by
  rw [State.setServo.eq_def]
  repeat' first
    | simp only [State.kept_mk]
    | (with_reducible first | assumption | apply KeptF.u_dater) | dsimp only

theorem State.closeSpan_kept (s : State)  (h_s : s.Kept P b0) (p_dater : P .dater = true) : (State.closeSpan s).Kept P b0 := by
  rw [State.closeSpan.eq_def]
  repeat' first
    | (with_reducible first | assumption | apply State.setServo_kept) | split | dsimp only

theorem State.setIncr_kept (s : State) (v : Nat)  (h_s : s.Kept P b0) (p_dater : P .dater = true) : (State.setIncr s v).Kept P b0 := by
  rw [State.setIncr.eq_def]
  repeat' first
    | (with_reducible first | assumption | apply State.put_kept | apply State.closeSpan_kept) | dsimp only

theorem State.enterServo_kept (s : State) (st : Nat)  (h_s : s.Kept P b0) (p_dater : P .dater = true) : (State.enterServo s st).Kept P b0 := by
  rw [State.enterServo.eq_def]
  repeat' first
    | (with_reducible first | assumption | apply State.put_kept | apply State.ppsUpdate_kept | apply State.setServo_kept | apply State.closeSpan_kept) | split | dsimp only

theorem State.selectMaster_kept (s : State)  (h_s : s.Kept P b0) (p_dater : P .dater = true) : (State.selectMaster s).Kept P b0 := by
  rw [State.selectMaster.eq_def]
  repeat' first
    | (with_reducible first | assumption | apply State.put_kept | apply State.setServo_kept) | split | dsimp only

theorem State.keepMasters_kept (s : State) (p : Master → Bool)  (h_s : s.Kept P b0) (p_dater : P .dater = true) : (State.keepMasters s p).Kept P b0 := by
  rw [State.keepMasters.eq_def]
  repeat' first
    | (with_reducible first | assumption | apply State.setServo_kept | apply State.enterServo_kept | apply State.selectMaster_kept) | split | dsimp only

theorem State.servoPorts_kept (s : State)  (h_s : s.Kept P b0) (p_dater : P .dater = true) : (State.servoPorts s).Kept P b0 := by
  rw [State.servoPorts.eq_def]
  repeat' first
    | (with_reducible first | assumption | apply State.setServo_kept | apply State.enterServo_kept | apply State.keepMasters_kept) | split | dsimp only

theorem execAnnounceTimeout_kept (p : Nat) (s : State)  (h_s : s.Kept P b0) (p_dater : P .dater = true) : OutKept P b0 (execAnnounceTimeout p s) := by
  rw [execAnnounceTimeout.eq_def]
  repeat' first
    | (with_reducible first | assumption | apply State.keepMasters_kept | apply OutKept.next) | intro _ | split | dsimp only

theorem State.slew_kept (s : State)  (h_s : s.Kept P b0) (p_free : P .free = true) (p_dater : P .dater = true) : (State.slew s).Kept P b0 := by
  rw [State.slew.eq_def]
  repeat' first
    | (with_reducible first | assumption | apply State.draw_kept | apply State.setIncr_kept | apply kept_of_eq2 (he := by assumption)) | split | dsimp only

theorem State.measure_kept (s : State) (off : Int)  (h_s : s.Kept P b0) (p_free : P .free = true) (p_time : P .time = true) (p_dater : P .dater = true) (p_net : P .net = true) (p_harts : P .harts = true) (p_power : P .power = true) (p_rings : P .rings = true) : (State.measure s off).Kept P b0 := by
  rw [State.measure.eq_def]
  repeat' first
    | with_reducible first
      | assumption | apply State.put_kept | apply State.changeTime_kept | apply State.setServo_kept | apply State.enterServo_kept |
      apply State.slew_kept
    | intro _ | split | dsimp only

theorem execTimeRefclkLost_kept (s : State)  (h_s : s.Kept P b0) (p_free : P .free = true) (p_dater : P .dater = true) (p_rgs : P .rgs = true) (p_harts : P .harts = true) (p_engines : P .engines = true) (p_mmu : P .mmu = true) (p_queues : P .queues = true) (p_cat : P .cat = true) (p_power : P .power = true) (p_pads : P .pads = true) (p_rings : P .rings = true) (p_vecs : P .vecs = true) (p_hostFn : P .hostFn = true) (p_streams : P .streams = true) (p_gone : P .gone = true) : OutKept P b0 (execTimeRefclkLost s) := by
  rw [execTimeRefclkLost.eq_def]
  repeat' first
    | simp only [State.kept_mk]
    | (with_reducible first | assumption | apply State.put_kept | apply State.report_kept | apply State.enterServo_kept | apply KeptF.u_dater | apply OutKept.next) | split | dsimp only

theorem execTimeRefclkReturn_kept (s : State)  (h_s : s.Kept P b0) (p_dater : P .dater = true) : OutKept P b0 (execTimeRefclkReturn s) := by
  rw [execTimeRefclkReturn.eq_def]
  repeat' first
    | simp only [State.kept_mk]
    | (with_reducible first | assumption | apply State.put_kept | apply KeptF.u_dater | apply OutKept.next) | dsimp only

theorem State.setTin_kept (s : State) (i : Nat) (q : List (Nat × Bool))  (h_s : s.Kept P b0) (p_dater : P .dater = true) : (State.setTin s i q).Kept P b0 := by
  rw [State.setTin.eq_def]
  repeat' first
    | simp only [State.kept_mk]
    | (with_reducible first | assumption | apply State.wr_kept | apply State.put_kept | apply State.putTime_kept | apply KeptF.u_dater) | intro _ | split | dsimp only

theorem execTimeInCapture_kept (i : Nat) (rising : Bool) (s : State)  (h_s : s.Kept P b0) (p_dater : P .dater = true) (p_power : P .power = true) : OutKept P b0 (execTimeInCapture i rising s) := by
  rw [execTimeInCapture.eq_def]
  repeat' first
    | (with_reducible first | assumption | apply State.bump_kept | apply State.raise_kept | apply State.wakeEvent_kept | apply State.setTin_kept | apply OutKept.next) | split | dsimp only

theorem execTimeInPop_kept (i : Nat) (s : State)  (h_s : s.Kept P b0) (p_dater : P .dater = true) : OutKept P b0 (execTimeInPop i s) := by
  rw [execTimeInPop.eq_def]
  repeat' first
    | (with_reducible first | assumption | apply State.put_kept | apply State.setTin_kept | apply OutKept.next) | split | dsimp only

end Sys2Proof.Machine
end

