-- ==== Sys2Proof/Laws/KeptDecoder.lean ====
section
/-! SUPPORT. What the operations of Machine/Decoder.lean keep (Laws/Kept.lean). -/

set_option linter.unusedTactic false
set_option linter.unreachableTactic false

namespace Sys2Proof.Machine

variable {P : Part → Bool} {b0 : State}

theorem State.outPieces_kept (s : State) (n : Nat) (x0 : List (Nat × List Byte)) (h_s : s.Kept P b0) (p_free : P .free = true) (p_rgs : P .rgs = true) (p_harts : P .harts = true) (p_engines : P .engines = true) (p_mmu : P .mmu = true) (p_queues : P .queues = true) (p_cat : P .cat = true) (p_power : P .power = true) (p_pads : P .pads = true) (p_rings : P .rings = true) (p_vecs : P .vecs = true) (p_hostFn : P .hostFn = true) (p_streams : P .streams = true) (p_gone : P .gone = true) : (State.outPieces s n x0).1.Kept P b0 := by
  induction x0 generalizing s n with
  | nil =>
    refine P1Kept.kept ?_
    unfold State.outPieces
    repeat' first
      | (with_reducible first | assumption | apply ih | apply State.slipPieces_kept | apply P1Kept.mk1 | apply kept_of_eq1 (he := by assumption)) | split | dsimp only
  | cons hd tl ih =>
    refine P1Kept.kept ?_
    unfold State.outPieces
    repeat' first
      | (with_reducible first | assumption | apply ih | apply State.slipPieces_kept | apply P1Kept.mk1 | apply kept_of_eq1 (he := by assumption)) | split | dsimp only

theorem State.writeDecoded_kept (s : State) (n : Nat) (t : Taken) (d : Decoded) (s0 : State)  (h_s : s.Kept P b0) (h_s0 : s0.Kept P b0) (p_dram : P .dram = true) (p_damage : P .damage = true) (p_host : P .host = true) (p_free : P .free = true) (p_rgs : P .rgs = true) (p_harts : P .harts = true) (p_engines : P .engines = true) (p_mmu : P .mmu = true) (p_queues : P .queues = true) (p_chans : P .chans = true) (p_cat : P .cat = true) (p_power : P .power = true) (p_pads : P .pads = true) (p_rings : P .rings = true) (p_vecs : P .vecs = true) (p_hostFn : P .hostFn = true) (p_streams : P .streams = true) (p_gone : P .gone = true) : (State.writeDecoded s n t d s0).1.Kept P b0 := by
  refine P1Kept.kept ?_
  rw [State.writeDecoded.eq_def]
  repeat' first
    | with_reducible first
      | assumption | apply State.setStream_kept | apply State.finishById_kept | apply State.slipFault_kept | apply State.writePieces_kept |
      apply State.outPieces_kept | apply foldl_kept | apply foldl_kept1 | apply foldl_kept2 | apply P1Kept.mk1 |
      apply kept_of_eq1 (he := by assumption)
    | intro _ | split | dsimp only

theorem State.unwait_kept (s : State) (m : Nat) (slip : Option (Nat × Nat))  (h_s : s.Kept P b0) (p_streams : P .streams = true) : (State.unwait s m slip).Kept P b0 := by
  rw [State.unwait.eq_def]
  repeat' first
    | (with_reducible first | assumption | apply State.setStream_kept) | intro _ | split | dsimp only

theorem State.bumpOne_kept (s : State) (m : Nat)  (h_s : s.Kept P b0) (p_dram : P .dram = true) (p_damage : P .damage = true) (p_host : P .host = true) (p_free : P .free = true) (p_rgs : P .rgs = true) (p_harts : P .harts = true) (p_engines : P .engines = true) (p_mmu : P .mmu = true) (p_queues : P .queues = true) (p_chans : P .chans = true) (p_cat : P .cat = true) (p_power : P .power = true) (p_pads : P .pads = true) (p_rings : P .rings = true) (p_vecs : P .vecs = true) (p_hostFn : P .hostFn = true) (p_streams : P .streams = true) (p_gone : P .gone = true) : (State.bumpOne s m).1.Kept P b0 := by
  refine P1Kept.kept ?_
  rw [State.bumpOne.eq_def]
  repeat' first
    | with_reducible first
      | assumption | apply State.setStream_kept | apply State.writeDecoded_kept | apply State.unwait_kept | apply P1Kept.mk1 |
      apply kept_of_eq1 (he := by assumption)
    | intro _ | split | dsimp only

theorem State.bumpWhile_kept (s : State) (m : Nat) (p : Decoder → Bool) (x0 : Nat) (h_s : s.Kept P b0) (p_dram : P .dram = true) (p_damage : P .damage = true) (p_host : P .host = true) (p_free : P .free = true) (p_rgs : P .rgs = true) (p_harts : P .harts = true) (p_engines : P .engines = true) (p_mmu : P .mmu = true) (p_queues : P .queues = true) (p_chans : P .chans = true) (p_cat : P .cat = true) (p_power : P .power = true) (p_pads : P .pads = true) (p_rings : P .rings = true) (p_vecs : P .vecs = true) (p_hostFn : P .hostFn = true) (p_streams : P .streams = true) (p_gone : P .gone = true) : (State.bumpWhile s m p x0).1.Kept P b0 := by
  induction x0 generalizing s m p with
  | zero =>
    refine P1Kept.kept ?_
    unfold State.bumpWhile
    repeat' first
      | (with_reducible first | assumption | apply ih | apply State.bumpOne_kept | apply P1Kept.mk1 | apply kept_of_eq1 (he := by assumption)) | split | dsimp only
  | succ fuel ih =>
    refine P1Kept.kept ?_
    unfold State.bumpWhile
    repeat' first
      | (with_reducible first | assumption | apply ih | apply State.bumpOne_kept | apply P1Kept.mk1 | apply kept_of_eq1 (he := by assumption)) | split | dsimp only

theorem State.putOut_kept (s : State) (m : Nat) (p : Decoder → Bool)  (h_s : s.Kept P b0) (p_dram : P .dram = true) (p_damage : P .damage = true) (p_host : P .host = true) (p_free : P .free = true) (p_rgs : P .rgs = true) (p_harts : P .harts = true) (p_engines : P .engines = true) (p_mmu : P .mmu = true) (p_queues : P .queues = true) (p_chans : P .chans = true) (p_cat : P .cat = true) (p_power : P .power = true) (p_pads : P .pads = true) (p_rings : P .rings = true) (p_vecs : P .vecs = true) (p_hostFn : P .hostFn = true) (p_streams : P .streams = true) (p_gone : P .gone = true) : (State.putOut s m p).1.Kept P b0 := by
  refine P1Kept.kept ?_
  rw [State.putOut.eq_def]
  repeat' first
    | (with_reducible first | assumption | apply State.bumpWhile_kept | apply P1Kept.mk1 | apply kept_of_eq1 (he := by assumption)) | dsimp only

theorem State.bumpAll_kept (s : State) (m : Nat)  (h_s : s.Kept P b0) (p_dram : P .dram = true) (p_damage : P .damage = true) (p_host : P .host = true) (p_free : P .free = true) (p_rgs : P .rgs = true) (p_harts : P .harts = true) (p_engines : P .engines = true) (p_mmu : P .mmu = true) (p_queues : P .queues = true) (p_chans : P .chans = true) (p_cat : P .cat = true) (p_power : P .power = true) (p_pads : P .pads = true) (p_rings : P .rings = true) (p_vecs : P .vecs = true) (p_hostFn : P .hostFn = true) (p_streams : P .streams = true) (p_gone : P .gone = true) : (State.bumpAll s m).1.Kept P b0 := by
  refine P1Kept.kept ?_
  rw [State.bumpAll.eq_def]
  repeat' first
    | (with_reducible first | assumption | apply State.putOut_kept | apply P1Kept.mk1 | apply kept_of_eq1 (he := by assumption)) | intro _ | dsimp only

end Sys2Proof.Machine
end

