-- ==== Sys2Proof/Laws/KeptHarts.lean ====
section
/-! SUPPORT. What the operations of Machine/Harts.lean keep (Laws/Kept.lean). -/

set_option linter.unusedTactic false
set_option linter.unreachableTactic false

namespace Sys2Proof.Machine

variable {P : Part → Bool} {b0 : State}

theorem State.writeBackLine_kept (s : State) (l : CacheLine)  (h_s : s.Kept P b0) (p_dram : P .dram = true) (p_damage : P .damage = true) (p_free : P .free = true) (p_rgs : P .rgs = true) (p_harts : P .harts = true) (p_engines : P .engines = true) (p_mmu : P .mmu = true) (p_queues : P .queues = true) (p_chans : P .chans = true) (p_cat : P .cat = true) (p_power : P .power = true) (p_pads : P .pads = true) (p_rings : P .rings = true) (p_vecs : P .vecs = true) (p_hostFn : P .hostFn = true) (p_streams : P .streams = true) (p_gone : P .gone = true) : (State.writeBackLine s l).Kept P b0 := by
  rw [State.writeBackLine.eq_def]
  repeat' first
    | (with_reducible first | assumption | apply State.writeMem_kept | apply kept_of_eq1 (he := by assumption)) | split | dsimp only

theorem State.fillLine_kept (s : State) (h addr : Nat) (instr : Bool)  (h_s : s.Kept P b0) (p_dram : P .dram = true) (p_damage : P .damage = true) (p_free : P .free = true) (p_rgs : P .rgs = true) (p_harts : P .harts = true) (p_engines : P .engines = true) (p_mmu : P .mmu = true) (p_queues : P .queues = true) (p_chans : P .chans = true) (p_cat : P .cat = true) (p_power : P .power = true) (p_pads : P .pads = true) (p_rings : P .rings = true) (p_vecs : P .vecs = true) (p_hostFn : P .hostFn = true) (p_streams : P .streams = true) (p_gone : P .gone = true) : (State.fillLine s h addr instr).1.Kept P b0 := by
  refine P1Kept.kept ?_
  rw [State.fillLine.eq_def]
  repeat' first
    | with_reducible first
      | assumption | apply State.setHart_kept | apply State.readBlock_kept | apply State.cache_kept | apply State.writeBackLine_kept |
      apply foldl_kept | apply foldl_kept1 | apply foldl_kept2 | apply P1Kept.mk1 | apply kept_of_eq1 (he := by assumption)
    | intro _ | split | dsimp only

theorem State.storeLine_kept (s : State) (h : Nat) (l : CacheLine) (addr : Nat) (b : List Byte)  (h_s : s.Kept P b0) (p_harts : P .harts = true) : (State.storeLine s h l addr b).Kept P b0 := by
  rw [State.storeLine.eq_def]
  repeat' first
    | (with_reducible first | assumption | apply State.setHart_kept) | intro _ | split | dsimp only

theorem State.cboClean_kept (s : State) (h addr : Nat)  (h_s : s.Kept P b0) (p_dram : P .dram = true) (p_damage : P .damage = true) (p_free : P .free = true) (p_rgs : P .rgs = true) (p_harts : P .harts = true) (p_engines : P .engines = true) (p_mmu : P .mmu = true) (p_queues : P .queues = true) (p_chans : P .chans = true) (p_cat : P .cat = true) (p_power : P .power = true) (p_pads : P .pads = true) (p_rings : P .rings = true) (p_vecs : P .vecs = true) (p_hostFn : P .hostFn = true) (p_streams : P .streams = true) (p_gone : P .gone = true) : (State.cboClean s h addr).Kept P b0 := by
  rw [State.cboClean.eq_def]
  repeat' first
    | (with_reducible first | assumption | apply State.setHart_kept | apply State.writeBackLine_kept | apply foldl_kept | apply foldl_kept1 | apply foldl_kept2) | intro _ | split | dsimp only

theorem State.cboInval_kept (s : State) (h addr : Nat)  (h_s : s.Kept P b0) (p_harts : P .harts = true) : (State.cboInval s h addr).Kept P b0 := by
  rw [State.cboInval.eq_def]
  repeat' first
    | (with_reducible first | assumption | apply State.setHart_kept) | dsimp only

theorem State.coreCheck_kept (s : State) (h kind addr len : Nat)  (h_s : s.Kept P b0) (p_free : P .free = true) (p_rgs : P .rgs = true) (p_harts : P .harts = true) (p_engines : P .engines = true) (p_mmu : P .mmu = true) (p_queues : P .queues = true) (p_cat : P .cat = true) (p_power : P .power = true) (p_pads : P .pads = true) (p_rings : P .rings = true) (p_vecs : P .vecs = true) (p_hostFn : P .hostFn = true) (p_streams : P .streams = true) (p_gone : P .gone = true) : (State.coreCheck s h kind addr len).1.Kept P b0 := by
  refine P1Kept.kept ?_
  rw [State.coreCheck.eq_def]
  repeat' first
    | (with_reducible first | assumption | apply State.deny_kept | apply P1Kept.mk1) | split | dsimp only

theorem State.poisonTrap_kept (s : State) (h cause block : Nat)  (h_s : s.Kept P b0) (p_harts : P .harts = true) : (State.poisonTrap s h cause block).Kept P b0 := by
  rw [State.poisonTrap.eq_def]
  repeat' first
    | (with_reducible first | assumption | apply State.setHart_kept | apply State.trap_kept) | dsimp only

theorem State.setX_kept (s : State) (h i v : Nat)  (h_s : s.Kept P b0) (p_harts : P .harts = true) : (State.setX s h i v).Kept P b0 := by
  rw [State.setX.eq_def]
  repeat' first
    | (with_reducible first | assumption | apply State.setHart_kept) | split | dsimp only

theorem State.coreLoad_kept (s : State) (h rd addr len : Nat) (signed : Bool)  (h_s : s.Kept P b0) (p_dram : P .dram = true) (p_damage : P .damage = true) (p_free : P .free = true) (p_rgs : P .rgs = true) (p_harts : P .harts = true) (p_engines : P .engines = true) (p_mmu : P .mmu = true) (p_queues : P .queues = true) (p_chans : P .chans = true) (p_cat : P .cat = true) (p_power : P .power = true) (p_pads : P .pads = true) (p_rings : P .rings = true) (p_vecs : P .vecs = true) (p_hostFn : P .hostFn = true) (p_streams : P .streams = true) (p_gone : P .gone = true) : (State.coreLoad s h rd addr len signed).Kept P b0 := by
  rw [State.coreLoad.eq_def]
  repeat' first
    | with_reducible first
      | assumption | apply State.trap_kept | apply State.readPhys_kept | apply State.fillLine_kept | apply State.coreCheck_kept |
      apply State.poisonTrap_kept | apply State.setX_kept | apply kept_of_eq1 (he := by assumption)
    | split | dsimp only

theorem State.coreStore_kept (s : State) (h addr len v : Nat)  (h_s : s.Kept P b0) (p_dram : P .dram = true) (p_damage : P .damage = true) (p_host : P .host = true) (p_free : P .free = true) (p_rgs : P .rgs = true) (p_harts : P .harts = true) (p_engines : P .engines = true) (p_mmu : P .mmu = true) (p_queues : P .queues = true) (p_chans : P .chans = true) (p_cat : P .cat = true) (p_power : P .power = true) (p_pads : P .pads = true) (p_rings : P .rings = true) (p_vecs : P .vecs = true) (p_hostFn : P .hostFn = true) (p_streams : P .streams = true) (p_gone : P .gone = true) : (State.coreStore s h addr len v).Kept P b0 := by
  rw [State.coreStore.eq_def]
  repeat' first
    | with_reducible first
      | assumption | apply State.trap_kept | apply State.writePhys_kept | apply State.fillLine_kept | apply State.storeLine_kept |
      apply State.coreCheck_kept | apply State.poisonTrap_kept | apply kept_of_eq1 (he := by assumption)
    | split | dsimp only

theorem State.coreFetch_kept (s : State) (h addr : Nat)  (h_s : s.Kept P b0) (p_dram : P .dram = true) (p_damage : P .damage = true) (p_free : P .free = true) (p_rgs : P .rgs = true) (p_harts : P .harts = true) (p_engines : P .engines = true) (p_mmu : P .mmu = true) (p_queues : P .queues = true) (p_chans : P .chans = true) (p_cat : P .cat = true) (p_power : P .power = true) (p_pads : P .pads = true) (p_rings : P .rings = true) (p_vecs : P .vecs = true) (p_hostFn : P .hostFn = true) (p_streams : P .streams = true) (p_gone : P .gone = true) : (State.coreFetch s h addr).Kept P b0 := by
  rw [State.coreFetch.eq_def]
  repeat' first
    | with_reducible first
      | assumption | apply State.setHart_kept | apply State.trap_kept | apply State.fillLine_kept | apply State.coreCheck_kept |
      apply State.poisonTrap_kept | apply kept_of_eq1 (he := by assumption)
    | split | dsimp only

theorem State.coreCsr_kept (s : State) (h c v : Nat)  (h_s : s.Kept P b0) (p_harts : P .harts = true) : (State.coreCsr s h c v).Kept P b0 := by
  rw [State.coreCsr.eq_def]
  repeat' first
    | (with_reducible first | assumption | apply State.setHart_kept) | split | dsimp only

theorem State.corePmp_kept (s : State) (h i : Nat) (p : Pmp)  (h_s : s.Kept P b0) (p_harts : P .harts = true) : (State.corePmp s h i p).Kept P b0 := by
  rw [State.corePmp.eq_def]
  repeat' first
    | (with_reducible first | assumption | apply State.setHart_kept) | split | dsimp only

theorem State.coreOp_kept (s : State) (h : Nat) (op : CoreOp)  (h_s : s.Kept P b0) (p_dram : P .dram = true) (p_damage : P .damage = true) (p_host : P .host = true) (p_free : P .free = true) (p_rgs : P .rgs = true) (p_harts : P .harts = true) (p_engines : P .engines = true) (p_mmu : P .mmu = true) (p_queues : P .queues = true) (p_chans : P .chans = true) (p_cat : P .cat = true) (p_power : P .power = true) (p_pads : P .pads = true) (p_rings : P .rings = true) (p_vecs : P .vecs = true) (p_hostFn : P .hostFn = true) (p_streams : P .streams = true) (p_gone : P .gone = true) : (State.coreOp s h op).Kept P b0 := by
  rw [State.coreOp.eq_def]
  repeat' first
    | with_reducible first
      | assumption | apply State.setHart_kept | apply State.trap_kept | apply State.cboClean_kept | apply State.cboInval_kept |
      apply State.setX_kept | apply State.coreLoad_kept | apply State.coreStore_kept | apply State.coreFetch_kept | apply State.coreCsr_kept |
      apply State.corePmp_kept
    | split | dsimp only

theorem State.coreRun_kept (s : State) (h : Nat) (ops : List CoreOp)  (h_s : s.Kept P b0) (p_dram : P .dram = true) (p_damage : P .damage = true) (p_host : P .host = true) (p_free : P .free = true) (p_rgs : P .rgs = true) (p_harts : P .harts = true) (p_engines : P .engines = true) (p_mmu : P .mmu = true) (p_queues : P .queues = true) (p_chans : P .chans = true) (p_cat : P .cat = true) (p_power : P .power = true) (p_pads : P .pads = true) (p_rings : P .rings = true) (p_vecs : P .vecs = true) (p_hostFn : P .hostFn = true) (p_streams : P .streams = true) (p_gone : P .gone = true) : (State.coreRun s h ops).Kept P b0 := by
  rw [State.coreRun.eq_def]
  repeat' first
    | (with_reducible first | assumption | apply State.coreOp_kept | apply foldl_kept | apply foldl_kept1 | apply foldl_kept2) | intro _ | dsimp only

theorem State.checkpoint_kept (s : State) (h : Nat)  (h_s : s.Kept P b0) (p_dram : P .dram = true) (p_damage : P .damage = true) (p_free : P .free = true) (p_rgs : P .rgs = true) (p_harts : P .harts = true) (p_engines : P .engines = true) (p_mmu : P .mmu = true) (p_queues : P .queues = true) (p_chans : P .chans = true) (p_cat : P .cat = true) (p_power : P .power = true) (p_pads : P .pads = true) (p_rings : P .rings = true) (p_vecs : P .vecs = true) (p_hostFn : P .hostFn = true) (p_streams : P .streams = true) (p_gone : P .gone = true) : (State.checkpoint s h).Kept P b0 := by
  rw [State.checkpoint.eq_def]
  repeat' first
    | (with_reducible first | assumption | apply State.setHart_kept | apply State.writeBackLine_kept | apply foldl_kept | apply foldl_kept1 | apply foldl_kept2) | intro _ | dsimp only

theorem execMckpt_kept (h : Nat) (ops : List CoreOp) (s : State)  (h_s : s.Kept P b0) (p_dram : P .dram = true) (p_damage : P .damage = true) (p_host : P .host = true) (p_free : P .free = true) (p_rgs : P .rgs = true) (p_harts : P .harts = true) (p_engines : P .engines = true) (p_mmu : P .mmu = true) (p_queues : P .queues = true) (p_chans : P .chans = true) (p_cat : P .cat = true) (p_power : P .power = true) (p_pads : P .pads = true) (p_rings : P .rings = true) (p_vecs : P .vecs = true) (p_hostFn : P .hostFn = true) (p_streams : P .streams = true) (p_gone : P .gone = true) : OutKept P b0 (execMckpt h ops s) := by
  rw [execMckpt.eq_def]
  repeat' first
    | (with_reducible first | assumption | apply State.trap_kept | apply State.coreRun_kept | apply State.checkpoint_kept | apply OutKept.next) | split | dsimp only

end Sys2Proof.Machine
end

