-- ==== Sys2Proof/Laws/KeptLeaves.lean ====
section
/-! SUPPORT. What the operations of Machine/Leaves.lean keep (Laws/Kept.lean). -/

set_option linter.unusedTactic false
set_option linter.unreachableTactic false

namespace Sys2Proof.Machine

variable {P : Part → Bool} {b0 : State}

theorem State.firstDispatch_kept (s : State) (n : Nat) (p : Pic)  (h_s : s.Kept P b0) (p_dram : P .dram = true) (p_damage : P .damage = true) (p_free : P .free = true) (p_engines : P .engines = true) (p_mmu : P .mmu = true) (p_pools : P .pools = true) (p_chans : P .chans = true) (p_streams : P .streams = true) : (State.firstDispatch s n p).Kept P b0 := by
  rw [State.firstDispatch.eq_def]
  repeat' first
    | (with_reducible first | assumption | apply State.setStream_kept | apply State.takePlan_kept | apply State.allocStats_kept | apply kept_of_eq1 (he := by assumption)) | split | dsimp only

theorem State.placeRuns_kept (s : State) (n num j : Nat) (cars scrs : List Nat) (run0 : Nat)  (h_s : s.Kept P b0) (p_engines : P .engines = true) (p_streams : P .streams = true) : (State.placeRuns s n num j cars scrs run0).Kept P b0 := by
  rw [State.placeRuns.eq_def]
  repeat' first
    | (with_reducible first | assumption | apply State.placeAt_kept | apply State.place_kept | apply foldl_kept | apply foldl_kept1 | apply foldl_kept2) | intro _ | split | dsimp only

theorem State.dispatch_kept (s : State) (n num j : Nat) (cars scrs : List Nat) (early : Bool)  (h_s : s.Kept P b0) (p_dram : P .dram = true) (p_damage : P .damage = true) (p_free : P .free = true) (p_engines : P .engines = true) (p_mmu : P .mmu = true) (p_pools : P .pools = true) (p_chans : P .chans = true) (p_streams : P .streams = true) : (State.dispatch s n num j cars scrs early).Kept P b0 := by
  rw [State.dispatch.eq_def]
  repeat' first
    | (with_reducible first | assumption | apply State.firstDispatch_kept | apply State.placeRuns_kept) | split | dsimp only

theorem execLeafDispatch_kept (n num j : Nat) (cars scrs : List Nat) (s : State)  (h_s : s.Kept P b0) (p_dram : P .dram = true) (p_damage : P .damage = true) (p_free : P .free = true) (p_engines : P .engines = true) (p_mmu : P .mmu = true) (p_pools : P .pools = true) (p_chans : P .chans = true) (p_streams : P .streams = true) : OutKept P b0 (execLeafDispatch n num j cars scrs s) := by
  rw [execLeafDispatch.eq_def]
  repeat' first
    | (with_reducible first | assumption | apply State.dispatch_kept | apply OutKept.next) | dsimp only

theorem execSubframeLeafDispatch_kept (n num j : Nat) (cars scrs : List Nat) (s : State)  (h_s : s.Kept P b0) (p_dram : P .dram = true) (p_damage : P .damage = true) (p_free : P .free = true) (p_engines : P .engines = true) (p_mmu : P .mmu = true) (p_pools : P .pools = true) (p_chans : P .chans = true) (p_streams : P .streams = true) : OutKept P b0 (execSubframeLeafDispatch n num j cars scrs s) := by
  rw [execSubframeLeafDispatch.eq_def]
  repeat' first
    | (with_reducible first | assumption | apply State.dispatch_kept | apply OutKept.next) | split | dsimp only

theorem State.freeEngine_kept (s : State) (i : Nat)  (h_s : s.Kept P b0) (p_engines : P .engines = true) (p_streams : P .streams = true) : (State.freeEngine s i).Kept P b0 := by
  rw [State.freeEngine.eq_def]
  repeat' first
    | (with_reducible first | assumption | apply State.put_kept | apply State.setEngine_kept | apply State.unplace_kept | apply State.topSpares_kept) | split | dsimp only

theorem State.noteMask_kept (s : State) (t : Nat)  (h_s : s.Kept P b0) : (State.noteMask s t).Kept P b0 := by
  rw [State.noteMask.eq_def]
  repeat' first
    | (with_reducible first | assumption | apply State.put_kept) | dsimp only

theorem State.commitUnit_kept (s : State) (n num j : Nat) (c : Coded)  (h_s : s.Kept P b0) (p_dram : P .dram = true) (p_damage : P .damage = true) (p_free : P .free = true) (p_rgs : P .rgs = true) (p_harts : P .harts = true) (p_engines : P .engines = true) (p_mmu : P .mmu = true) (p_queues : P .queues = true) (p_pools : P .pools = true) (p_chans : P .chans = true) (p_cat : P .cat = true) (p_power : P .power = true) (p_pads : P .pads = true) (p_rings : P .rings = true) (p_vecs : P .vecs = true) (p_hostFn : P .hostFn = true) (p_streams : P .streams = true) (p_gone : P .gone = true) : (State.commitUnit s n num j c).Kept P b0 := by
  rw [State.commitUnit.eq_def]
  repeat' first
    | (with_reducible first | assumption | apply State.onPic_kept | apply State.tryFinish_kept | apply State.noteMask_kept) | intro _ | split | dsimp only

theorem State.thirdRun_kept (s : State) (n num j u : Nat)  (h_s : s.Kept P b0) (p_free : P .free = true) (p_rgs : P .rgs = true) (p_engines : P .engines = true) (p_power : P .power = true) (p_pads : P .pads = true) (p_rings : P .rings = true) (p_streams : P .streams = true) : (State.thirdRun s n num j u).Kept P b0 := by
  rw [State.thirdRun.eq_def]
  repeat' first
    | (with_reducible first | assumption | apply State.pick_kept | apply State.loseWork_kept | apply State.placeRuns_kept | apply kept_of_eq2 (he := by assumption)) | split | dsimp only

theorem State.settleUnit_kept (s : State) (n num j : Nat)  (h_s : s.Kept P b0) (p_dram : P .dram = true) (p_damage : P .damage = true) (p_free : P .free = true) (p_rgs : P .rgs = true) (p_harts : P .harts = true) (p_engines : P .engines = true) (p_mmu : P .mmu = true) (p_queues : P .queues = true) (p_pools : P .pools = true) (p_chans : P .chans = true) (p_cat : P .cat = true) (p_power : P .power = true) (p_pads : P .pads = true) (p_rings : P .rings = true) (p_vecs : P .vecs = true) (p_hostFn : P .hostFn = true) (p_streams : P .streams = true) (p_gone : P .gone = true) : (State.settleUnit s n num j).Kept P b0 := by
  rw [State.settleUnit.eq_def]
  repeat' first
    | with_reducible first
      | assumption | apply State.bump_kept | apply State.loseWork_kept | apply State.report_kept | apply State.commitUnit_kept |
      apply State.thirdRun_kept
    | split | dsimp only

theorem State.lateResult_kept (s : State) (i : Nat)  (h_s : s.Kept P b0) (p_engines : P .engines = true) (p_streams : P .streams = true) : (State.lateResult s i).Kept P b0 := by
  rw [State.lateResult.eq_def]
  repeat' first
    | (with_reducible first | assumption | apply State.bump_kept | apply State.freeEngine_kept) | dsimp only

theorem State.drainChunk_kept (s : State) (i n num j : Nat)  (h_s : s.Kept P b0) (p_engines : P .engines = true) (p_streams : P .streams = true) : (State.drainChunk s i n num j).Kept P b0 := by
  rw [State.drainChunk.eq_def]
  repeat' first
    | (with_reducible first | assumption | apply State.put_kept | apply State.setEngine_kept | apply State.onPic_kept) | intro _ | split | dsimp only

theorem State.commitChunk_kept (s : State) (i n num j run : Nat)  (h_s : s.Kept P b0) (p_engines : P .engines = true) (p_streams : P .streams = true) : (State.commitChunk s i n num j run).Kept P b0 := by
  rw [State.commitChunk.eq_def]
  repeat' first
    | (with_reducible first | assumption | apply State.setEngine_kept | apply State.drainChunk_kept) | split | dsimp only

theorem State.carrelEnd_kept (s : State) (i n num j run : Nat) (c : Commit)  (h_s : s.Kept P b0) (p_dram : P .dram = true) (p_damage : P .damage = true) (p_free : P .free = true) (p_rgs : P .rgs = true) (p_harts : P .harts = true) (p_engines : P .engines = true) (p_mmu : P .mmu = true) (p_queues : P .queues = true) (p_pools : P .pools = true) (p_chans : P .chans = true) (p_cat : P .cat = true) (p_power : P .power = true) (p_pads : P .pads = true) (p_rings : P .rings = true) (p_vecs : P .vecs = true) (p_hostFn : P .hostFn = true) (p_streams : P .streams = true) (p_gone : P .gone = true) : (State.carrelEnd s i n num j run c).Kept P b0 := by
  rw [State.carrelEnd.eq_def]
  repeat' first
    | with_reducible first
      | assumption | apply State.put_kept | apply State.onPic_kept | apply State.loseWork_kept | apply State.abandon_kept | apply State.report_kept
      | apply State.freeEngine_kept | apply State.settleUnit_kept | apply State.lateResult_kept | apply State.drainChunk_kept
    | intro _ | split | dsimp only

theorem State.scribeEnd_kept (s : State) (i n num j run : Nat) (c : Commit)  (h_s : s.Kept P b0) (p_dram : P .dram = true) (p_damage : P .damage = true) (p_free : P .free = true) (p_rgs : P .rgs = true) (p_harts : P .harts = true) (p_engines : P .engines = true) (p_mmu : P .mmu = true) (p_queues : P .queues = true) (p_pools : P .pools = true) (p_chans : P .chans = true) (p_cat : P .cat = true) (p_power : P .power = true) (p_pads : P .pads = true) (p_rings : P .rings = true) (p_vecs : P .vecs = true) (p_hostFn : P .hostFn = true) (p_streams : P .streams = true) (p_gone : P .gone = true) : (State.scribeEnd s i n num j run c).Kept P b0 := by
  rw [State.scribeEnd.eq_def]
  repeat' first
    | with_reducible first
      | assumption | apply State.onPic_kept | apply State.freeEngine_kept | apply State.settleUnit_kept | apply State.lateResult_kept |
      apply State.drainChunk_kept
    | intro _ | split | dsimp only

theorem State.wakeLanded_kept (s : State) (n num : Nat)  (h_s : s.Kept P b0) (p_engines : P .engines = true) : (State.wakeLanded s n num).Kept P b0 := by
  rw [State.wakeLanded.eq_def]
  repeat' first
    | (with_reducible first | assumption | apply State.setWait_kept | apply foldl_kept | apply foldl_kept1 | apply foldl_kept2) | intro _ | split | dsimp only

theorem execChunkCommit_kept (i : Nat) (c : Commit) (s : State)  (h_s : s.Kept P b0) (p_dram : P .dram = true) (p_damage : P .damage = true) (p_free : P .free = true) (p_rgs : P .rgs = true) (p_harts : P .harts = true) (p_engines : P .engines = true) (p_mmu : P .mmu = true) (p_queues : P .queues = true) (p_pools : P .pools = true) (p_chans : P .chans = true) (p_cat : P .cat = true) (p_power : P .power = true) (p_pads : P .pads = true) (p_rings : P .rings = true) (p_vecs : P .vecs = true) (p_hostFn : P .hostFn = true) (p_streams : P .streams = true) (p_gone : P .gone = true) : OutKept P b0 (execChunkCommit i c s) := by
  rw [execChunkCommit.eq_def]
  repeat' first
    | with_reducible first
      | assumption | apply State.report_kept | apply State.setWait_kept | apply State.lateResult_kept | apply State.commitChunk_kept |
      apply State.carrelEnd_kept | apply State.scribeEnd_kept | apply OutKept.next
    | split | dsimp only

theorem State.redoAfter_kept (s : State) (n num t : Nat)  (h_s : s.Kept P b0) (p_engines : P .engines = true) (p_streams : P .streams = true) : (State.redoAfter s n num t).Kept P b0 := by
  rw [State.redoAfter.eq_def]
  repeat' first
    | with_reducible first
      | assumption | apply State.add_kept | apply State.onPic_kept | apply State.placeRuns_kept | apply State.freeEngine_kept | apply foldl_kept |
      apply foldl_kept1 | apply foldl_kept2
    | intro _ | split | dsimp only

theorem execGuardEvaluate_kept (n num : Nat) (s : State)  (h_s : s.Kept P b0) (p_dram : P .dram = true) (p_damage : P .damage = true) (p_free : P .free = true) (p_rgs : P .rgs = true) (p_harts : P .harts = true) (p_engines : P .engines = true) (p_mmu : P .mmu = true) (p_queues : P .queues = true) (p_pools : P .pools = true) (p_chans : P .chans = true) (p_cat : P .cat = true) (p_power : P .power = true) (p_pads : P .pads = true) (p_rings : P .rings = true) (p_vecs : P .vecs = true) (p_hostFn : P .hostFn = true) (p_streams : P .streams = true) (p_gone : P .gone = true) : OutKept P b0 (execGuardEvaluate n num s) := by
  rw [execGuardEvaluate.eq_def]
  repeat' first
    | (with_reducible first | assumption | apply State.setStream_kept | apply State.tryFinish_kept | apply State.redoAfter_kept | apply OutKept.next) | intro _ | split | dsimp only

theorem execLeafRelease_kept (n num : Nat) (s : State)  (h_s : s.Kept P b0) (p_dram : P .dram = true) (p_damage : P .damage = true) (p_host : P .host = true) (p_free : P .free = true) (p_rgs : P .rgs = true) (p_harts : P .harts = true) (p_engines : P .engines = true) (p_mmu : P .mmu = true) (p_queues : P .queues = true) (p_pools : P .pools = true) (p_chans : P .chans = true) (p_cat : P .cat = true) (p_power : P .power = true) (p_pads : P .pads = true) (p_rings : P .rings = true) (p_vecs : P .vecs = true) (p_hostFn : P .hostFn = true) (p_streams : P .streams = true) (p_gone : P .gone = true) : OutKept P b0 (execLeafRelease n num s) := by
  rw [execLeafRelease.eq_def]
  repeat' first
    | with_reducible first
      | assumption | apply State.setStream_kept | apply State.tryFinish_kept | apply State.writeOut_kept | apply State.setReleased_kept |
      apply OutKept.next | apply kept_of_eq1 (he := by assumption)
    | split | dsimp only

theorem execPictureRelease_kept (n num : Nat) (s : State)  (h_s : s.Kept P b0) (p_dram : P .dram = true) (p_damage : P .damage = true) (p_host : P .host = true) (p_free : P .free = true) (p_rgs : P .rgs = true) (p_harts : P .harts = true) (p_engines : P .engines = true) (p_mmu : P .mmu = true) (p_queues : P .queues = true) (p_pools : P .pools = true) (p_chans : P .chans = true) (p_cat : P .cat = true) (p_power : P .power = true) (p_pads : P .pads = true) (p_rings : P .rings = true) (p_vecs : P .vecs = true) (p_hostFn : P .hostFn = true) (p_streams : P .streams = true) (p_gone : P .gone = true) : OutKept P b0 (execPictureRelease n num s) := by
  rw [execPictureRelease.eq_def]
  repeat' first
    | with_reducible first
      | assumption | apply State.tryFinish_kept | apply State.writeOut_kept | apply State.setReleased_kept | apply OutKept.next |
      apply kept_of_eq1 (he := by assumption)
    | split | dsimp only

theorem execSearchBlock_kept (n num b : Nat) (s : State)  (h_s : s.Kept P b0) (p_streams : P .streams = true) : OutKept P b0 (execSearchBlock n num b s) := by
  rw [execSearchBlock.eq_def]
  repeat' first
    | (with_reducible first | assumption | apply State.setStream_kept | apply OutKept.next) | intro _ | split | dsimp only

theorem execCoarseCplxPost_kept (n num : Nat) (s : State)  (h_s : s.Kept P b0) (p_harts : P .harts = true) (p_streams : P .streams = true) : OutKept P b0 (execCoarseCplxPost n num s) := by
  rw [execCoarseCplxPost.eq_def]
  repeat' first
    | (with_reducible first | assumption | apply State.setStream_kept | apply State.fwPost_kept | apply OutKept.next) | split | dsimp only

theorem execPlanPost_kept (n : Nat) (rec : List Byte) (s : State)  (h_s : s.Kept P b0) (p_answer : P .answer = true) (p_harts : P .harts = true) (p_streams : P .streams = true) : OutKept P b0 (execPlanPost n rec s) := by
  rw [execPlanPost.eq_def]
  repeat' first
    | with_reducible first
      | assumption | apply State.reply_kept | apply State.endCall_kept | apply State.postPlan_kept | apply OutKept.next |
      apply kept_of_eq1 (he := by assumption)
    | intro _ | split | dsimp only

theorem State.appletCalls_kept (s : State) (n : Nat) (f : State → State × Nat)  (h_s : s.Kept P b0) (h_f : ∀ s : State, s.Kept P b0 → (f s).1.Kept P b0) (p_answer : P .answer = true) (p_harts : P .harts = true) : (State.appletCalls s n f).Kept P b0 := by
  rw [State.appletCalls.eq_def]
  repeat' first
    | (with_reducible first | assumption | apply h_f | apply State.reply_kept | apply State.setX_kept) | intro _ | split | dsimp only

theorem execRcPost_kept (n : Nat) (rec : List Byte) (s : State)  (h_s : s.Kept P b0) (p_answer : P .answer = true) (p_harts : P .harts = true) (p_streams : P .streams = true) : OutKept P b0 (execRcPost n rec s) := by
  rw [execRcPost.eq_def]
  repeat' first
    | (with_reducible first | assumption | apply State.postPlan_kept | apply State.appletCalls_kept | apply OutKept.next | apply kept_of_eq1 (he := by assumption)) | intro _ | dsimp only

theorem execRcCplx_kept (n num : Nat) (s : State)  (h_s : s.Kept P b0) (p_answer : P .answer = true) (p_harts : P .harts = true) : OutKept P b0 (execRcCplx n num s) := by
  rw [execRcCplx.eq_def]
  repeat' first
    | (with_reducible first | assumption | apply State.appletCalls_kept | apply OutKept.next) | intro _ | split | dsimp only

theorem execRcTime_kept (n : Nat) (s : State)  (h_s : s.Kept P b0) (p_answer : P .answer = true) (p_harts : P .harts = true) : OutKept P b0 (execRcTime n s) := by
  rw [execRcTime.eq_def]
  repeat' first
    | (with_reducible first | assumption | apply State.appletCalls_kept | apply OutKept.next) | intro _ | dsimp only

theorem execRcLog_kept (n code value : Nat) (s : State)  (h_s : s.Kept P b0) (p_answer : P .answer = true) (p_harts : P .harts = true) (p_streams : P .streams = true) : OutKept P b0 (execRcLog n code value s) := by
  rw [execRcLog.eq_def]
  repeat' first
    | (with_reducible first | assumption | apply State.setStream_kept | apply State.appletCalls_kept | apply OutKept.next) | intro _ | split | dsimp only

theorem State.returnStats_kept (s : State) (n num : Nat)  (h_s : s.Kept P b0) (p_dram : P .dram = true) (p_damage : P .damage = true) (p_free : P .free = true) (p_rgs : P .rgs = true) (p_harts : P .harts = true) (p_engines : P .engines = true) (p_mmu : P .mmu = true) (p_queues : P .queues = true) (p_pools : P .pools = true) (p_orphans : P .orphans = true) (p_chans : P .chans = true) (p_cat : P .cat = true) (p_power : P .power = true) (p_pads : P .pads = true) (p_rings : P .rings = true) (p_vecs : P .vecs = true) (p_hostFn : P .hostFn = true) (p_streams : P .streams = true) (p_gone : P .gone = true) : (State.returnStats s n num).Kept P b0 := by
  rw [State.returnStats.eq_def]
  repeat' first
    | (with_reducible first | assumption | apply State.setStream_kept | apply State.release_kept | apply State.settle_kept | apply kept_of_eq1 (he := by assumption)) | split | dsimp only

theorem State.appletFails_kept (s : State) (n : Nat)  (h_s : s.Kept P b0) (p_dram : P .dram = true) (p_damage : P .damage = true) (p_free : P .free = true) (p_rgs : P .rgs = true) (p_harts : P .harts = true) (p_engines : P .engines = true) (p_mmu : P .mmu = true) (p_queues : P .queues = true) (p_pools : P .pools = true) (p_orphans : P .orphans = true) (p_chans : P .chans = true) (p_cat : P .cat = true) (p_power : P .power = true) (p_pads : P .pads = true) (p_rings : P .rings = true) (p_vecs : P .vecs = true) (p_hostFn : P .hostFn = true) (p_streams : P .streams = true) (p_gone : P .gone = true) : (State.appletFails s n).Kept P b0 := by
  rw [State.appletFails.eq_def]
  repeat' first
    | with_reducible first
      | assumption | apply State.setStream_kept | apply State.setHart_kept | apply State.report_kept | apply State.returnStats_kept |
      apply foldl_kept | apply foldl_kept1 | apply foldl_kept2
    | intro _ | split | dsimp only

theorem execAppletCallTimeout_kept (n h : Nat) (s : State)  (h_s : s.Kept P b0) (p_dram : P .dram = true) (p_damage : P .damage = true) (p_free : P .free = true) (p_rgs : P .rgs = true) (p_harts : P .harts = true) (p_engines : P .engines = true) (p_mmu : P .mmu = true) (p_queues : P .queues = true) (p_pools : P .pools = true) (p_orphans : P .orphans = true) (p_chans : P .chans = true) (p_cat : P .cat = true) (p_power : P .power = true) (p_pads : P .pads = true) (p_rings : P .rings = true) (p_vecs : P .vecs = true) (p_hostFn : P .hostFn = true) (p_streams : P .streams = true) (p_gone : P .gone = true) : OutKept P b0 (execAppletCallTimeout n h s) := by
  rw [execAppletCallTimeout.eq_def]
  repeat' first
    | (with_reducible first | assumption | apply State.appletFails_kept | apply OutKept.next) | intro _ | split | dsimp only

theorem execAppletTrap_kept (n : Nat) (f : AppletFault) (s : State)  (h_s : s.Kept P b0) (p_dram : P .dram = true) (p_damage : P .damage = true) (p_free : P .free = true) (p_rgs : P .rgs = true) (p_harts : P .harts = true) (p_engines : P .engines = true) (p_mmu : P .mmu = true) (p_queues : P .queues = true) (p_pools : P .pools = true) (p_orphans : P .orphans = true) (p_chans : P .chans = true) (p_cat : P .cat = true) (p_power : P .power = true) (p_pads : P .pads = true) (p_rings : P .rings = true) (p_vecs : P .vecs = true) (p_hostFn : P .hostFn = true) (p_streams : P .streams = true) (p_gone : P .gone = true) : OutKept P b0 (execAppletTrap n f s) := by
  rw [execAppletTrap.eq_def]
  repeat' first
    | (with_reducible first | assumption | apply State.appletFails_kept | apply OutKept.next) | intro _ | split | dsimp only

theorem execStatsFolioArrival_kept (n num : Nat) (s : State)  (h_s : s.Kept P b0) (p_dram : P .dram = true) (p_damage : P .damage = true) (p_free : P .free = true) (p_rgs : P .rgs = true) (p_harts : P .harts = true) (p_engines : P .engines = true) (p_mmu : P .mmu = true) (p_queues : P .queues = true) (p_pools : P .pools = true) (p_orphans : P .orphans = true) (p_chans : P .chans = true) (p_cat : P .cat = true) (p_power : P .power = true) (p_pads : P .pads = true) (p_rings : P .rings = true) (p_vecs : P .vecs = true) (p_hostFn : P .hostFn = true) (p_streams : P .streams = true) (p_gone : P .gone = true) : OutKept P b0 (execStatsFolioArrival n num s) := by
  rw [execStatsFolioArrival.eq_def]
  repeat' first
    | with_reducible first
      | assumption | apply State.setStream_kept | apply State.endCall_kept | apply State.callDue_kept | apply State.returnStats_kept |
      apply OutKept.next
    | intro _ | split | dsimp only

end Sys2Proof.Machine
end

