-- ==== Sys2Proof/Laws/KeptIngest.lean ====
section
/-! SUPPORT. What the operations of Machine/Ingest.lean keep (Laws/Kept.lean). -/

set_option linter.unusedTactic false
set_option linter.unreachableTactic false

namespace Sys2Proof.Machine

variable {P : Part → Bool} {b0 : State}

theorem State.showHold_kept (s : State)  (h_s : s.Kept P b0) (p_tripped : P .tripped = true) : (State.showHold s).Kept P b0 := by
  rw [State.showHold.eq_def]
  repeat' first
    | simp only [State.kept_mk]
    | (with_reducible first | assumption | apply State.put_kept | apply KeptF.u_tripped) | intro _ | split | dsimp only

theorem State.showDepth_kept (s : State) (port : Nat)  (h_s : s.Kept P b0) : (State.showDepth s port).Kept P b0 := by
  rw [State.showDepth.eq_def]
  repeat' first
    | (with_reducible first | assumption | apply State.put_kept | apply foldl_kept | apply foldl_kept1 | apply foldl_kept2) | intro _ | dsimp only

theorem State.showPorts_kept (s : State)  (h_s : s.Kept P b0) : (State.showPorts s).Kept P b0 := by
  rw [State.showPorts.eq_def]
  repeat' first
    | (with_reducible first | assumption | apply State.put_kept | apply State.showDepth_kept | apply foldl_kept | apply foldl_kept1 | apply foldl_kept2) | intro _ | dsimp only

theorem State.showQueues_kept (s : State) (n : Nat)  (h_s : s.Kept P b0) (p_tripped : P .tripped = true) : (State.showQueues s n).Kept P b0 := by
  rw [State.showQueues.eq_def]
  repeat' first
    | (with_reducible first | assumption | apply State.showHold_kept | apply State.showDepth_kept | apply foldl_kept | apply foldl_kept1 | apply foldl_kept2) | intro _ | dsimp only

theorem State.freeRows_kept (s : State) (l : List IngRow)  (h_s : s.Kept P b0) : (State.freeRows s l).Kept P b0 := by
  rw [State.freeRows.eq_def]
  repeat' first
    | (with_reducible first | assumption | apply State.freeCells_kept | apply foldl_kept | apply foldl_kept1 | apply foldl_kept2) | intro _ | split | dsimp only

theorem State.showHs_kept (s : State) (p : Nat)  (h_s : s.Kept P b0) : (State.showHs s p).Kept P b0 := by
  rw [State.showHs.eq_def]
  repeat' first
    | (with_reducible first | assumption | apply State.put_kept) | split | dsimp only

theorem State.closeFrame_kept (s : State) (n : Nat)  (h_s : s.Kept P b0) (p_streams : P .streams = true) (p_tripped : P .tripped = true) : (State.closeFrame s n).Kept P b0 := by
  rw [State.closeFrame.eq_def]
  repeat' first
    | with_reducible first
      | assumption | apply State.setStream_kept | apply State.raise_kept | apply State.onPic_kept | apply State.showQueues_kept |
      apply State.freeRows_kept | apply foldl_kept | apply foldl_kept1 | apply foldl_kept2
    | intro _ | split | dsimp only

theorem State.closeIfDone_kept (s : State) (n : Nat)  (h_s : s.Kept P b0) (p_streams : P .streams = true) (p_tripped : P .tripped = true) : (State.closeIfDone s n).Kept P b0 := by
  rw [State.closeIfDone.eq_def]
  repeat' first
    | (with_reducible first | assumption | apply State.closeFrame_kept) | split | dsimp only

theorem State.hsSeen_kept (s : State) (p : Nat)  (h_s : s.Kept P b0) : (State.hsSeen s p).Kept P b0 := by
  rw [State.hsSeen.eq_def]
  repeat' first
    | (with_reducible first | assumption | apply State.put_kept | apply State.showHs_kept | apply foldl_kept | apply foldl_kept1 | apply foldl_kept2) | intro _ | split | dsimp only

theorem State.header_kept (s : State) (port ecc : Nat)  (h_s : s.Kept P b0) : (State.header s port ecc).1.Kept P b0 := by
  refine P1Kept.kept ?_
  rw [State.header.eq_def]
  repeat' first
    | (with_reducible first | assumption | apply State.bump_kept | apply State.hsSeen_kept | apply P1Kept.mk1) | split | dsimp only

theorem State.openFrame_kept (s : State) (n fnum : Nat)  (h_s : s.Kept P b0) (p_streams : P .streams = true) : (State.openFrame s n fnum).Kept P b0 := by
  rw [State.openFrame.eq_def]
  repeat' first
    | (with_reducible first | assumption | apply State.add_kept | apply State.setStream_kept | apply State.beginPic_kept) | intro _ | split | dsimp only

theorem execFrameStart_kept (port : Nat) (k : PacketHead) (fnum : Nat) (s : State)  (h_s : s.Kept P b0) (p_streams : P .streams = true) (p_tripped : P .tripped = true) : OutKept P b0 (execFrameStart port k fnum s) := by
  rw [execFrameStart.eq_def]
  repeat' first
    | with_reducible first
      | assumption | apply State.bump_kept | apply State.setStream_kept | apply State.closeFrame_kept | apply State.header_kept |
      apply State.openFrame_kept | apply OutKept.next | apply kept_of_eq1 (he := by assumption)
    | split | dsimp only

theorem execMemberFrameStart_kept (port : Nat) (k : PacketHead) (fnum : Nat) (s : State)  (h_s : s.Kept P b0) (p_streams : P .streams = true) : OutKept P b0 (execMemberFrameStart port k fnum s) := by
  rw [execMemberFrameStart.eq_def]
  repeat' first
    | with_reducible first
      | assumption | apply State.bump_kept | apply State.setStream_kept | apply State.header_kept | apply State.openFrame_kept | apply OutKept.next
      | apply kept_of_eq1 (he := by assumption)
    | split | dsimp only

theorem execFrameEnd_kept (port : Nat) (k : PacketHead) (s : State)  (h_s : s.Kept P b0) (p_streams : P .streams = true) (p_tripped : P .tripped = true) : OutKept P b0 (execFrameEnd port k s) := by
  rw [execFrameEnd.eq_def]
  repeat' first
    | with_reducible first
      | assumption | apply State.bump_kept | apply State.setStream_kept | apply State.closeIfDone_kept | apply State.header_kept |
      apply State.openFrame_kept | apply OutKept.next | apply kept_of_eq1 (he := by assumption)
    | split | dsimp only

theorem State.strayPacket_kept (s : State) (n m port : Nat)  (h_s : s.Kept P b0) : (State.strayPacket s n m port).Kept P b0 := by
  rw [State.strayPacket.eq_def]
  repeat' first
    | (with_reducible first | assumption | apply State.bump_kept) | split | dsimp only

theorem State.reserveRow_kept (s : State) (n m l : Nat) (f : Frame)  (h_s : s.Kept P b0) (p_streams : P .streams = true) (p_tripped : P .tripped = true) : (State.reserveRow s n m l f).Kept P b0 := by
  rw [State.reserveRow.eq_def]
  repeat' first
    | (with_reducible first | assumption | apply State.put_kept | apply State.setStream_kept | apply State.useCells_kept | apply State.showQueues_kept) | intro _ | split | dsimp only

theorem State.firstLine_kept (s : State) (n num : Nat)  (h_s : s.Kept P b0) (p_harts : P .harts = true) (p_streams : P .streams = true) : (State.firstLine s n num).Kept P b0 := by
  rw [State.firstLine.eq_def]
  repeat' first
    | (with_reducible first | assumption | apply State.onPic_kept | apply State.planAll_kept) | intro _ | split | dsimp only

theorem execRowHeaderArrival_kept (port vc dt l ecc : Nat) (s : State)  (h_s : s.Kept P b0) (p_harts : P .harts = true) (p_streams : P .streams = true) (p_tripped : P .tripped = true) : OutKept P b0 (execRowHeaderArrival port vc dt l ecc s) := by
  rw [execRowHeaderArrival.eq_def]
  repeat' first
    | with_reducible first
      | assumption | apply State.bump_kept | apply State.header_kept | apply State.openFrame_kept | apply State.strayPacket_kept |
      apply State.reserveRow_kept | apply State.firstLine_kept | apply OutKept.next | apply kept_of_eq1 (he := by assumption)
    | split | dsimp only

theorem State.endRow_kept (s : State) (n m : Nat) (f : Frame) (l : Nat) (samples : Option (List Nat))  (h_s : s.Kept P b0) (p_streams : P .streams = true) (p_tripped : P .tripped = true) : (State.endRow s n m f l samples).Kept P b0 := by
  rw [State.endRow.eq_def]
  repeat' first
    | (with_reducible first | assumption | apply State.setStream_kept | apply State.showQueues_kept | apply State.freeRows_kept) | intro _ | split | dsimp only

theorem State.checkPacket_kept (s : State) (port : Nat) (cut mismatch crcOk : Bool)  (h_s : s.Kept P b0) : (State.checkPacket s port cut mismatch crcOk).Kept P b0 := by
  rw [State.checkPacket.eq_def]
  repeat' first
    | (with_reducible first | assumption | apply State.bump_kept) | split | dsimp only

theorem State.lastRow_kept (s : State) (n m l : Nat)  (h_s : s.Kept P b0) (p_streams : P .streams = true) : (State.lastRow s n m l).Kept P b0 := by
  rw [State.lastRow.eq_def]
  repeat' first
    | (with_reducible first | assumption | apply State.setStream_kept | apply State.onPic_kept | apply State.openFrame_kept) | intro _ | split | dsimp only

theorem execLongPacket_kept (port vc l wc : Nat) (crcOk : Bool) (data : List Byte) (s : State)  (h_s : s.Kept P b0) (p_streams : P .streams = true) (p_tripped : P .tripped = true) : OutKept P b0 (execLongPacket port vc l wc crcOk data s) := by
  rw [execLongPacket.eq_def]
  repeat' first
    | with_reducible first
      | assumption | apply State.closeIfDone_kept | apply State.openFrame_kept | apply State.endRow_kept | apply State.checkPacket_kept |
      apply State.lastRow_kept | apply OutKept.next
    | intro _ | split | dsimp only

theorem execLineTimeout_kept (n : Nat) (s : State)  (h_s : s.Kept P b0) (p_streams : P .streams = true) (p_tripped : P .tripped = true) : OutKept P b0 (execLineTimeout n s) := by
  rw [execLineTimeout.eq_def]
  repeat' first
    | with_reducible first
      | assumption | apply State.setStream_kept | apply State.showQueues_kept | apply State.freeRows_kept | apply State.closeIfDone_kept |
      apply foldl_kept | apply foldl_kept1 | apply foldl_kept2 | apply OutKept.next
    | intro _ | split | dsimp only

theorem execRowEmit_kept (n : Nat) (s : State)  (h_s : s.Kept P b0) (p_streams : P .streams = true) (p_tripped : P .tripped = true) : OutKept P b0 (execRowEmit n s) := by
  rw [execRowEmit.eq_def]
  repeat' first
    | with_reducible first
      | assumption | apply State.bump_kept | apply State.setStream_kept | apply State.onPic_kept | apply State.request_kept |
      apply State.showQueues_kept | apply State.freeRows_kept | apply foldl_kept | apply foldl_kept1 | apply foldl_kept2 | apply OutKept.next
    | intro _ | split | dsimp only

theorem execRowLanded_kept (n : Nat) (s : State)  (h_s : s.Kept P b0) (p_engines : P .engines = true) (p_streams : P .streams = true) : OutKept P b0 (execRowLanded n s) := by
  rw [execRowLanded.eq_def]
  repeat' first
    | (with_reducible first | assumption | apply State.onPic_kept | apply State.wakeLanded_kept | apply OutKept.next) | intro _ | split | dsimp only

theorem execHoldCtlWrite_kept (v : Nat) (s : State)  (h_s : s.Kept P b0) (p_tripped : P .tripped = true) : OutKept P b0 (execHoldCtlWrite v s) := by
  rw [execHoldCtlWrite.eq_def]
  repeat' first
    | (with_reducible first | assumption | apply State.put_kept | apply State.showHold_kept | apply OutKept.next) | dsimp only

theorem execPopRelease_kept (u n : Nat) (s : State)  (h_s : s.Kept P b0) (p_free : P .free = true) (p_answer : P .answer = true) (p_rgs : P .rgs = true) (p_harts : P .harts = true) (p_engines : P .engines = true) (p_mmu : P .mmu = true) (p_queues : P .queues = true) (p_cat : P .cat = true) (p_power : P .power = true) (p_pads : P .pads = true) (p_rings : P .rings = true) (p_vecs : P .vecs = true) (p_hostFn : P .hostFn = true) (p_streams : P .streams = true) (p_tripped : P .tripped = true) (p_gone : P .gone = true) : OutKept P b0 (execPopRelease u n s) := by
  rw [execPopRelease.eq_def]
  repeat' first
    | (with_reducible first | assumption | apply State.popItem_kept | apply State.showHold_kept | apply OutKept.next) | dsimp only

theorem execDeskewSequence_kept (p lanes : Nat) (initial : Bool) (s : State)  (h_s : s.Kept P b0) : OutKept P b0 (execDeskewSequence p lanes initial s) := by
  rw [execDeskewSequence.eq_def]
  repeat' first
    | (with_reducible first | assumption | apply State.put_kept | apply State.showHs_kept | apply OutKept.next) | split | dsimp only

theorem State.portLp_kept (s : State) (p : Nat)  (h_s : s.Kept P b0) : (State.portLp s p).Kept P b0 := by
  rw [State.portLp.eq_def]
  repeat' first
    | (with_reducible first | assumption | apply State.put_kept | apply State.showHs_kept) | dsimp only

theorem execUlpsEntry_kept (p : Nat) (s : State)  (h_s : s.Kept P b0) : OutKept P b0 (execUlpsEntry p s) := by
  rw [execUlpsEntry.eq_def]
  repeat' first
    | (with_reducible first | assumption | apply State.put_kept | apply State.portLp_kept | apply OutKept.next) | split | dsimp only

theorem execUlpsExit_kept (p : Nat) (s : State)  (h_s : s.Kept P b0) : OutKept P b0 (execUlpsExit p s) := by
  rw [execUlpsExit.eq_def]
  repeat' first
    | (with_reducible first | assumption | apply State.put_kept | apply OutKept.next) | dsimp only

theorem State.sensorLoss_kept (s : State) (p lanes : Nat) (clock : Bool)  (h_s : s.Kept P b0) (p_free : P .free = true) (p_rgs : P .rgs = true) (p_harts : P .harts = true) (p_engines : P .engines = true) (p_mmu : P .mmu = true) (p_queues : P .queues = true) (p_cat : P .cat = true) (p_power : P .power = true) (p_pads : P .pads = true) (p_rings : P .rings = true) (p_vecs : P .vecs = true) (p_hostFn : P .hostFn = true) (p_streams : P .streams = true) (p_gone : P .gone = true) : (State.sensorLoss s p lanes clock).Kept P b0 := by
  rw [State.sensorLoss.eq_def]
  repeat' first
    | with_reducible first
      | assumption | apply State.put_kept | apply State.onPic_kept | apply State.reportStreams_kept | apply State.openFrame_kept |
      apply State.portLp_kept | apply foldl_kept | apply foldl_kept1 | apply foldl_kept2
    | intro _ | split | dsimp only

theorem execSensorLinkLoss_kept (p lanes : Nat) (clock : Bool) (s : State)  (h_s : s.Kept P b0) (p_free : P .free = true) (p_rgs : P .rgs = true) (p_harts : P .harts = true) (p_engines : P .engines = true) (p_mmu : P .mmu = true) (p_queues : P .queues = true) (p_cat : P .cat = true) (p_power : P .power = true) (p_pads : P .pads = true) (p_rings : P .rings = true) (p_vecs : P .vecs = true) (p_hostFn : P .hostFn = true) (p_streams : P .streams = true) (p_gone : P .gone = true) : OutKept P b0 (execSensorLinkLoss p lanes clock s) := by
  rw [execSensorLinkLoss.eq_def]
  repeat' first
    | (with_reducible first | assumption | apply State.sensorLoss_kept | apply OutKept.next) | dsimp only

end Sys2Proof.Machine
end

