-- ==== Sys2Proof/Laws/KeptNet.lean ====
section
/-! SUPPORT. What the operations of Machine/Net.lean keep (Laws/Kept.lean). -/

set_option linter.unusedTactic false
set_option linter.unreachableTactic false

namespace Sys2Proof.Machine

variable {P : Part → Bool} {b0 : State}

theorem State.setFlow_kept (s : State) (p f : Nat) (v : Option Flow)  (h_s : s.Kept P b0) (p_net : P .net = true) : (State.setFlow s p f v).Kept P b0 := by
  rw [State.setFlow.eq_def]
  repeat' first
    | (with_reducible first | assumption | apply State.setPort_kept) | intro _ | split | dsimp only

theorem State.showFlows_kept (s : State) (p : Nat)  (h_s : s.Kept P b0) : (State.showFlows s p).Kept P b0 := by
  rw [State.showFlows.eq_def]
  repeat' first
    | (with_reducible first | assumption | apply State.put_kept | apply foldl_kept | apply foldl_kept1 | apply foldl_kept2) | intro _ | split | dsimp only

theorem State.openFlows_kept (s : State) (n : Nat)  (h_s : s.Kept P b0) (p_net : P .net = true) : (State.openFlows s n).Kept P b0 := by
  rw [State.openFlows.eq_def]
  repeat' first
    | (with_reducible first | assumption | apply State.setFlow_kept | apply State.showFlows_kept | apply foldl_kept | apply foldl_kept1 | apply foldl_kept2) | intro _ | split | dsimp only

theorem State.enqueue_kept (s : State) (p c : Nat) (body : FrameBody) (len due : Nat) (late : Bool)  (h_s : s.Kept P b0) (p_net : P .net = true) : (State.enqueue s p c body len due late).Kept P b0 := by
  rw [State.enqueue.eq_def]
  repeat' first
    | (with_reducible first | assumption | apply State.setPort_kept | apply State.account_kept) | dsimp only

theorem State.neverSent_kept (s : State) (p : Nat) (b : FrameBody)  (h_s : s.Kept P b0) (p_power : P .power = true) (p_rings : P .rings = true) (p_vecs : P .vecs = true) (p_hostFn : P .hostFn = true) (p_streams : P .streams = true) : (State.neverSent s p b).Kept P b0 := by
  rw [State.neverSent.eq_def]
  repeat' first
    | (with_reducible first | assumption | apply State.firstPacket_kept) | split | dsimp only

theorem State.unqueue_kept (s : State) (p c : Nat)  (h_s : s.Kept P b0) (p_net : P .net = true) : (State.unqueue s p c).Kept P b0 := by
  rw [State.unqueue.eq_def]
  repeat' first
    | (with_reducible first | assumption | apply State.setPort_kept) | split | dsimp only

theorem State.dropQueue_kept (s : State) (p c : Nat) (x0 : Nat) (h_s : s.Kept P b0) (p_net : P .net = true) (p_power : P .power = true) (p_rings : P .rings = true) (p_vecs : P .vecs = true) (p_hostFn : P .hostFn = true) (p_streams : P .streams = true) : (State.dropQueue s p c x0).Kept P b0 := by
  induction x0 generalizing s p c with
  | zero =>
    unfold State.dropQueue
    repeat' first
      | (with_reducible first | assumption | apply ih | apply State.bump_kept | apply State.neverSent_kept | apply State.unqueue_kept) | split | dsimp only
  | succ fuel ih =>
    unfold State.dropQueue
    repeat' first
      | (with_reducible first | assumption | apply ih | apply State.bump_kept | apply State.neverSent_kept | apply State.unqueue_kept) | split | dsimp only

theorem State.dropQueues_kept (s : State) (p : Nat)  (h_s : s.Kept P b0) (p_net : P .net = true) (p_power : P .power = true) (p_rings : P .rings = true) (p_vecs : P .vecs = true) (p_hostFn : P .hostFn = true) (p_streams : P .streams = true) : (State.dropQueues s p).Kept P b0 := by
  rw [State.dropQueues.eq_def]
  repeat' first
    | (with_reducible first | assumption | apply State.account_kept | apply State.dropQueue_kept | apply foldl_kept | apply foldl_kept1 | apply foldl_kept2) | intro _ | dsimp only

theorem State.flowDone_kept (s : State) (v : Flow) (num : Nat)  (h_s : s.Kept P b0) (p_power : P .power = true) (p_rings : P .rings = true) (p_vecs : P .vecs = true) (p_hostFn : P .hostFn = true) (p_streams : P .streams = true) : (State.flowDone s v num).Kept P b0 := by
  rw [State.flowDone.eq_def]
  repeat' first
    | (with_reducible first | assumption | apply State.dropReader_kept) | dsimp only

theorem State.passOver_kept (s : State) (v : Flow) (num : Nat)  (h_s : s.Kept P b0) (p_power : P .power = true) (p_rings : P .rings = true) (p_vecs : P .vecs = true) (p_hostFn : P .hostFn = true) (p_streams : P .streams = true) : (State.passOver s v num).Kept P b0 := by
  rw [State.passOver.eq_def]
  repeat' first
    | (with_reducible first | assumption | apply State.firstPacket_kept | apply State.flowDone_kept) | split | dsimp only

theorem execAlignmentPoint_kept (p f : Nat) (s : State)  (h_s : s.Kept P b0) (p_net : P .net = true) (p_power : P .power = true) (p_rings : P .rings = true) (p_vecs : P .vecs = true) (p_hostFn : P .hostFn = true) (p_streams : P .streams = true) : OutKept P b0 (execAlignmentPoint p f s) := by
  rw [execAlignmentPoint.eq_def]
  repeat' first
    | with_reducible first
      | assumption | apply State.bump_kept | apply State.setFlow_kept | apply State.passOver_kept | apply foldl_kept | apply foldl_kept1 |
      apply foldl_kept2 | apply OutKept.next
    | intro _ | split | dsimp only

theorem State.sendPacket_kept (s : State) (p f : Nat) (v : Flow) (w : NetP) (pic : Pic) (due : Nat) (late : Bool) (pkt : List Byte × Bool)  (h_s : s.Kept P b0) (p_net : P .net = true) (p_power : P .power = true) (p_rings : P .rings = true) (p_vecs : P .vecs = true) (p_hostFn : P .hostFn = true) (p_streams : P .streams = true) : (State.sendPacket s p f v w pic due late pkt).Kept P b0 := by
  rw [State.sendPacket.eq_def]
  repeat' first
    | with_reducible first
      | assumption | apply State.bump_kept | apply State.setFlow_kept | apply State.enqueue_kept | apply State.neverSent_kept |
      apply State.flowDone_kept
    | split | dsimp only

theorem execPacketRelease_kept (p f : Nat) (s : State)  (h_s : s.Kept P b0) (p_net : P .net = true) (p_power : P .power = true) (p_rings : P .rings = true) (p_vecs : P .vecs = true) (p_hostFn : P .hostFn = true) (p_streams : P .streams = true) : OutKept P b0 (execPacketRelease p f s) := by
  rw [execPacketRelease.eq_def]
  repeat' first
    | (with_reducible first | assumption | apply State.sendPacket_kept | apply OutKept.next) | split | dsimp only

theorem State.endFlows_kept (s : State) (n : Nat)  (h_s : s.Kept P b0) (p_net : P .net = true) (p_power : P .power = true) (p_rings : P .rings = true) (p_vecs : P .vecs = true) (p_hostFn : P .hostFn = true) (p_streams : P .streams = true) : (State.endFlows s n).Kept P b0 := by
  rw [State.endFlows.eq_def]
  repeat' first
    | (with_reducible first | assumption | apply State.setFlow_kept | apply State.passOver_kept | apply foldl_kept | apply foldl_kept1 | apply foldl_kept2) | intro _ | split | dsimp only

theorem State.closeFlows_kept (s : State) (n : Nat)  (h_s : s.Kept P b0) (p_net : P .net = true) (p_power : P .power = true) (p_rings : P .rings = true) (p_vecs : P .vecs = true) (p_hostFn : P .hostFn = true) (p_streams : P .streams = true) : (State.closeFlows s n).Kept P b0 := by
  rw [State.closeFlows.eq_def]
  repeat' first
    | with_reducible first
      | assumption | apply State.setFlow_kept | apply State.passOver_kept | apply State.endFlows_kept | apply foldl_kept | apply foldl_kept1 |
      apply foldl_kept2
    | intro _ | split | dsimp only

theorem State.endClosed_kept (s : State) (p : Nat)  (h_s : s.Kept P b0) (p_net : P .net = true) (p_power : P .power = true) (p_rings : P .rings = true) (p_vecs : P .vecs = true) (p_hostFn : P .hostFn = true) (p_streams : P .streams = true) : (State.endClosed s p).Kept P b0 := by
  rw [State.endClosed.eq_def]
  repeat' first
    | (with_reducible first | assumption | apply State.endFlows_kept | apply foldl_kept | apply foldl_kept1 | apply foldl_kept2) | intro _ | split | dsimp only

theorem State.freeFlows_kept (s : State) (n : Nat)  (h_s : s.Kept P b0) (p_net : P .net = true) (p_power : P .power = true) (p_rings : P .rings = true) (p_vecs : P .vecs = true) (p_hostFn : P .hostFn = true) (p_streams : P .streams = true) : (State.freeFlows s n).Kept P b0 := by
  rw [State.freeFlows.eq_def]
  repeat' first
    | with_reducible first
      | assumption | apply State.setFlow_kept | apply State.showFlows_kept | apply State.passOver_kept | apply foldl_kept | apply foldl_kept1 |
      apply foldl_kept2
    | intro _ | split | dsimp only

theorem State.noteBlocked_kept (s : State) (p c : Nat)  (h_s : s.Kept P b0) (p_net : P .net = true) : (State.noteBlocked s p c).Kept P b0 := by
  rw [State.noteBlocked.eq_def]
  repeat' first
    | (with_reducible first | assumption | apply State.setPort_kept) | split | dsimp only

theorem State.departed_kept (s : State) (p : Nat) (f : NetFrame)  (h_s : s.Kept P b0) (p_answer : P .answer = true) (p_dater : P .dater = true) (p_net : P .net = true) (p_power : P .power = true) (p_rings : P .rings = true) (p_vecs : P .vecs = true) (p_hostFn : P .hostFn = true) (p_streams : P .streams = true) : (State.departed s p f).Kept P b0 := by
  rw [State.departed.eq_def]
  repeat' first
    | with_reducible first
      | assumption | apply State.bump_kept | apply State.reply_kept | apply State.setServo_kept | apply State.firstPacket_kept |
      apply State.enqueue_kept
    | split | dsimp only

theorem execFrameTransmit_kept (p : Nat) (s : State)  (h_s : s.Kept P b0) (p_answer : P .answer = true) (p_dater : P .dater = true) (p_net : P .net = true) (p_power : P .power = true) (p_rings : P .rings = true) (p_vecs : P .vecs = true) (p_hostFn : P .hostFn = true) (p_streams : P .streams = true) : OutKept P b0 (execFrameTransmit p s) := by
  rw [execFrameTransmit.eq_def]
  repeat' first
    | with_reducible first
      | assumption | apply State.put_kept | apply State.bump_kept | apply State.setPort_kept | apply State.account_kept | apply State.unqueue_kept |
      apply State.dropQueues_kept | apply State.endClosed_kept | apply State.noteBlocked_kept | apply State.departed_kept | apply foldl_kept |
      apply foldl_kept1 | apply foldl_kept2 | apply OutKept.next
    | intro _ | split | dsimp only

theorem execGateBlockDrop_kept (p c : Nat) (s : State)  (h_s : s.Kept P b0) (p_net : P .net = true) (p_power : P .power = true) (p_rings : P .rings = true) (p_vecs : P .vecs = true) (p_hostFn : P .hostFn = true) (p_streams : P .streams = true) : OutKept P b0 (execGateBlockDrop p c s) := by
  rw [execGateBlockDrop.eq_def]
  repeat' first
    | with_reducible first
      | assumption | apply State.bump_kept | apply State.account_kept | apply State.neverSent_kept | apply State.unqueue_kept |
      apply State.endClosed_kept | apply State.noteBlocked_kept | apply OutKept.next
    | split | dsimp only

theorem execTelemetrySample_kept (p : Nat) (s : State)  (h_s : s.Kept P b0) (p_free : P .free = true) (p_net : P .net = true) : OutKept P b0 (execTelemetrySample p s) := by
  rw [execTelemetrySample.eq_def]
  repeat' first
    | with_reducible first
      | assumption | apply State.put_kept | apply State.draw_kept | apply State.setPort_kept | apply foldl_kept | apply foldl_kept1 |
      apply foldl_kept2 | apply OutKept.next | apply kept_of_eq2 (he := by assumption)
    | intro _ | split | dsimp only

theorem State.netFall_kept (s : State) (p : Nat)  (h_s : s.Kept P b0) (p_free : P .free = true) (p_net : P .net = true) (p_rgs : P .rgs = true) (p_harts : P .harts = true) (p_engines : P .engines = true) (p_mmu : P .mmu = true) (p_queues : P .queues = true) (p_cat : P .cat = true) (p_power : P .power = true) (p_pads : P .pads = true) (p_rings : P .rings = true) (p_vecs : P .vecs = true) (p_hostFn : P .hostFn = true) (p_streams : P .streams = true) (p_gone : P .gone = true) : (State.netFall s p).Kept P b0 := by
  rw [State.netFall.eq_def]
  repeat' first
    | with_reducible first
      | assumption | apply State.put_kept | apply State.raise_kept | apply State.reportStreams_kept | apply State.dropQueues_kept |
      apply State.endClosed_kept
    | intro _ | split | dsimp only

theorem State.setCage_kept (s : State) (p : CageIn)  (h_s : s.Kept P b0) (p_pads : P .pads = true) : (State.setCage s p).Kept P b0 := by
  rw [State.setCage.eq_def]
  repeat' first
    | simp only [State.kept_mk]
    | (with_reducible first | assumption | apply KeptF.u_pads) | intro _ | dsimp only

theorem execNetLinkDown_kept (p : CageIn) (s : State)  (h_s : s.Kept P b0) (p_free : P .free = true) (p_net : P .net = true) (p_rgs : P .rgs = true) (p_harts : P .harts = true) (p_engines : P .engines = true) (p_mmu : P .mmu = true) (p_queues : P .queues = true) (p_cat : P .cat = true) (p_power : P .power = true) (p_pads : P .pads = true) (p_rings : P .rings = true) (p_vecs : P .vecs = true) (p_hostFn : P .hostFn = true) (p_streams : P .streams = true) (p_gone : P .gone = true) : OutKept P b0 (execNetLinkDown p s) := by
  rw [execNetLinkDown.eq_def]
  repeat' first
    | (with_reducible first | assumption | apply State.netFall_kept | apply State.setCage_kept | apply OutKept.next) | dsimp only

theorem State.skipPassed_kept (s : State) (p f : Nat) (x0 : Nat) (h_s : s.Kept P b0) (p_net : P .net = true) (p_power : P .power = true) (p_rings : P .rings = true) (p_vecs : P .vecs = true) (p_hostFn : P .hostFn = true) (p_streams : P .streams = true) : (State.skipPassed s p f x0).Kept P b0 := by
  induction x0 generalizing s p f with
  | zero =>
    unfold State.skipPassed
    repeat' first
      | (with_reducible first | assumption | apply ih | apply State.bump_kept | apply State.firstPacket_kept | apply State.setFlow_kept | apply State.flowDone_kept) | split | dsimp only
  | succ fuel ih =>
    unfold State.skipPassed
    repeat' first
      | (with_reducible first | assumption | apply ih | apply State.bump_kept | apply State.firstPacket_kept | apply State.setFlow_kept | apply State.flowDone_kept) | split | dsimp only

theorem execNetLinkUp_kept (q : CageIn) (s : State)  (h_s : s.Kept P b0) (p_net : P .net = true) (p_power : P .power = true) (p_pads : P .pads = true) (p_rings : P .rings = true) (p_vecs : P .vecs = true) (p_hostFn : P .hostFn = true) (p_streams : P .streams = true) : OutKept P b0 (execNetLinkUp q s) := by
  rw [execNetLinkUp.eq_def]
  repeat' first
    | with_reducible first
      | assumption | apply State.put_kept | apply State.raise_kept | apply State.setCage_kept | apply State.skipPassed_kept | apply foldl_kept |
      apply foldl_kept1 | apply foldl_kept2 | apply OutKept.next
    | intro _ | split | dsimp only

theorem execPortCfgWrite_kept (p v : Nat) (s : State)  (h_s : s.Kept P b0) (p_net : P .net = true) (p_power : P .power = true) (p_rings : P .rings = true) (p_vecs : P .vecs = true) (p_hostFn : P .hostFn = true) (p_streams : P .streams = true) : OutKept P b0 (execPortCfgWrite p v s) := by
  rw [execPortCfgWrite.eq_def]
  repeat' first
    | (with_reducible first | assumption | apply State.put_kept | apply State.dropQueues_kept | apply State.endClosed_kept | apply OutKept.next) | split | dsimp only

theorem State.startList_kept (s : State) (p : Nat)  (h_s : s.Kept P b0) (p_net : P .net = true) (p_levels : P .levels = true) : (State.startList s p).Kept P b0 := by
  rw [State.startList.eq_def]
  repeat' first
    | with_reducible first
      | assumption | apply State.put_kept | apply State.setPort_kept | apply State.showGates_kept | apply State.account_kept | apply foldl_kept |
      apply foldl_kept1 | apply foldl_kept2
    | intro _ | split | dsimp only

theorem State.startDue_kept (s : State) (p : Nat)  (h_s : s.Kept P b0) (p_net : P .net = true) (p_levels : P .levels = true) : (State.startDue s p).Kept P b0 := by
  rw [State.startDue.eq_def]
  repeat' first
    | (with_reducible first | assumption | apply State.startList_kept) | split | dsimp only

theorem execGclCommit_kept (p : Nat) (s : State)  (h_s : s.Kept P b0) (p_net : P .net = true) (p_levels : P .levels = true) : OutKept P b0 (execGclCommit p s) := by
  rw [execGclCommit.eq_def]
  repeat' first
    | (with_reducible first | assumption | apply State.put_kept | apply State.setPort_kept | apply State.startDue_kept | apply OutKept.next) | split | dsimp only

theorem execGclStart_kept (p : Nat) (s : State)  (h_s : s.Kept P b0) (p_net : P .net = true) (p_levels : P .levels = true) : OutKept P b0 (execGclStart p s) := by
  rw [execGclStart.eq_def]
  repeat' first
    | (with_reducible first | assumption | apply State.startDue_kept | apply OutKept.next) | dsimp only

theorem execGateEntryChange_kept (p : Nat) (s : State)  (h_s : s.Kept P b0) (p_net : P .net = true) (p_levels : P .levels = true) : OutKept P b0 (execGateEntryChange p s) := by
  rw [execGateEntryChange.eq_def]
  repeat' first
    | (with_reducible first | assumption | apply State.setPort_kept | apply State.showGates_kept | apply State.account_kept | apply OutKept.next) | split | dsimp only

theorem execCbsWrite_kept (p c which v : Nat) (s : State)  (h_s : s.Kept P b0) (p_net : P .net = true) : OutKept P b0 (execCbsWrite p c which v s) := by
  rw [execCbsWrite.eq_def]
  repeat' first
    | (with_reducible first | assumption | apply State.put_kept | apply State.setPort_kept | apply State.account_kept | apply OutKept.next) | split | dsimp only

theorem execPsfWrite_kept (p f which v : Nat) (s : State)  (h_s : s.Kept P b0) (p_net : P .net = true) : OutKept P b0 (execPsfWrite p f which v s) := by
  rw [execPsfWrite.eq_def]
  repeat' first
    | (with_reducible first | assumption | apply State.wr_kept | apply State.put_kept | apply State.setPort_kept | apply State.account_kept | apply OutKept.next) | intro _ | split | dsimp only

theorem State.sendPtp_kept (s : State) (p ty seq : Nat) (time : Option Int) (dest : Option Nat)  (h_s : s.Kept P b0) (p_net : P .net = true) : (State.sendPtp s p ty seq time dest).Kept P b0 := by
  rw [State.sendPtp.eq_def]
  repeat' first
    | (with_reducible first | assumption | apply State.enqueue_kept) | dsimp only

theorem execPtpSendTimer_kept (p ty : Nat) (s : State)  (h_s : s.Kept P b0) (p_dater : P .dater = true) (p_net : P .net = true) : OutKept P b0 (execPtpSendTimer p ty s) := by
  rw [execPtpSendTimer.eq_def]
  repeat' first
    | (with_reducible first | assumption | apply State.setServo_kept | apply State.sendPtp_kept | apply OutKept.next) | intro _ | split | dsimp only

theorem State.tryMeasure_kept (s : State)  (h_s : s.Kept P b0) (p_free : P .free = true) (p_time : P .time = true) (p_dater : P .dater = true) (p_net : P .net = true) (p_harts : P .harts = true) (p_power : P .power = true) (p_rings : P .rings = true) : (State.tryMeasure s).Kept P b0 := by
  rw [State.tryMeasure.eq_def]
  repeat' first
    | (with_reducible first | assumption | apply State.setServo_kept | apply State.measure_kept) | split | dsimp only

theorem State.ptpIn_kept (s : State) (p : Nat) (m : PtpMsg)  (h_s : s.Kept P b0) (p_free : P .free = true) (p_time : P .time = true) (p_dater : P .dater = true) (p_net : P .net = true) (p_harts : P .harts = true) (p_power : P .power = true) (p_rings : P .rings = true) : (State.ptpIn s p m).Kept P b0 := by
  rw [State.ptpIn.eq_def]
  repeat' first
    | with_reducible first
      | assumption | apply State.setServo_kept | apply State.selectMaster_kept | apply State.keepMasters_kept | apply State.sendPtp_kept |
      apply State.tryMeasure_kept
    | intro _ | split | dsimp only

theorem State.takeFrame_kept (s : State) (p : Nat) (f : RxFrame)  (h_s : s.Kept P b0) (p_free : P .free = true) (p_time : P .time = true) (p_answer : P .answer = true) (p_dater : P .dater = true) (p_net : P .net = true) (p_harts : P .harts = true) (p_power : P .power = true) (p_rings : P .rings = true) : (State.takeFrame s p f).Kept P b0 := by
  rw [State.takeFrame.eq_def]
  repeat' first
    | (with_reducible first | assumption | apply State.bump_kept | apply State.reply_kept | apply State.raise_kept | apply State.enqueue_kept | apply State.ptpIn_kept) | intro _ | split | dsimp only

theorem execRxFrame_kept (p : Nat) (f : RxFrame) (s : State)  (h_s : s.Kept P b0) (p_free : P .free = true) (p_time : P .time = true) (p_answer : P .answer = true) (p_dater : P .dater = true) (p_net : P .net = true) (p_harts : P .harts = true) (p_power : P .power = true) (p_rings : P .rings = true) : OutKept P b0 (execRxFrame p f s) := by
  rw [execRxFrame.eq_def]
  repeat' first
    | (with_reducible first | assumption | apply State.bump_kept | apply State.setPort_kept | apply State.account_kept | apply State.takeFrame_kept | apply OutKept.next) | intro _ | split | simp only []

theorem execI2cCmd_kept (v : Nat) (s : State)  (h_s : s.Kept P b0) (p_net : P .net = true) : OutKept P b0 (execI2cCmd v s) := by
  rw [execI2cCmd.eq_def]
  repeat' first
    | simp only [State.kept_mk]
    | (with_reducible first | assumption | apply State.put_kept | apply KeptF.u_net | apply OutKept.next) | split | dsimp only

theorem execI2cDone_kept (ack : Bool) (data : Nat) (s : State)  (h_s : s.Kept P b0) (p_net : P .net = true) : OutKept P b0 (execI2cDone ack data s) := by
  rw [execI2cDone.eq_def]
  repeat' first
    | simp only [State.kept_mk]
    | (with_reducible first | assumption | apply State.put_kept | apply KeptF.u_net | apply OutKept.next) | split | dsimp only

end Sys2Proof.Machine
end

