-- ==== Sys2Proof/Laws/KeptOpenClose.lean ====
section
/-! SUPPORT. What the operations of Machine/OpenClose.lean keep (Laws/Kept.lean). -/

set_option linter.unusedTactic false
set_option linter.unreachableTactic false

namespace Sys2Proof.Machine

variable {P : Part → Bool} {b0 : State}

theorem State.slipRead_kept (s : State) (n : Nat) (t : Taken) (va len : Nat)  (h_s : s.Kept P b0) (p_free : P .free = true) (p_rgs : P .rgs = true) (p_harts : P .harts = true) (p_engines : P .engines = true) (p_mmu : P .mmu = true) (p_queues : P .queues = true) (p_cat : P .cat = true) (p_power : P .power = true) (p_pads : P .pads = true) (p_rings : P .rings = true) (p_vecs : P .vecs = true) (p_hostFn : P .hostFn = true) (p_streams : P .streams = true) (p_gone : P .gone = true) : (State.slipRead s n t va len).1.Kept P b0 := by
  refine P1Kept.kept ?_
  rw [State.slipRead.eq_def]
  repeat' first
    | with_reducible first
      | assumption | apply State.slipPieces_kept | apply State.slipFault_kept | apply State.readPieces_kept | apply P1Kept.mk1 |
      apply kept_of_eq1 (he := by assumption)
    | split | dsimp only

theorem State.readTables_kept (s : State) (n : Nat) (t : Taken) (secs : List RawSec)  (h_s : s.Kept P b0) (p_free : P .free = true) (p_rgs : P .rgs = true) (p_harts : P .harts = true) (p_engines : P .engines = true) (p_mmu : P .mmu = true) (p_queues : P .queues = true) (p_cat : P .cat = true) (p_power : P .power = true) (p_pads : P .pads = true) (p_rings : P .rings = true) (p_vecs : P .vecs = true) (p_hostFn : P .hostFn = true) (p_streams : P .streams = true) (p_gone : P .gone = true) : (State.readTables s n t secs).1.Kept P b0 := by
  refine P1Kept.kept ?_
  rw [State.readTables.eq_def]
  repeat' first
    | (with_reducible first | assumption | apply State.slipRead_kept | apply P1Kept.mk1 | apply kept_of_eq1 (he := by assumption)) | split | dsimp only

theorem State.flushStaged_kept (s : State) (p : Staged → Bool)  (h_s : s.Kept P b0) (p_power : P .power = true) (p_rings : P .rings = true) (p_vecs : P .vecs = true) (p_hostFn : P .hostFn = true) (p_streams : P .streams = true) (p_staged : P .staged = true) : (State.flushStaged s p).Kept P b0 := by
  rw [State.flushStaged.eq_def]
  repeat' first
    | simp only [State.kept_mk]
    | with_reducible first
      | assumption | apply State.finishById_kept | apply State.showLedger_kept | apply State.settle_kept | apply foldl_kept | apply foldl_kept1 |
      apply foldl_kept2 | apply KeptF.u_staged
    | intro _ | dsimp only

theorem State.stage_kept (s : State) (n : Nat) (t : Taken) (what : StagedKind)  (h_s : s.Kept P b0) (p_rings : P .rings = true) (p_staged : P .staged = true) : (State.stage s n t what).Kept P b0 := by
  rw [State.stage.eq_def]
  repeat' first
    | simp only [State.kept_mk]
    | (with_reducible first | assumption | apply State.setRing_kept | apply State.showLedger_kept | apply KeptF.u_staged) | intro _ | split | dsimp only

theorem State.openChecked_kept (s : State) (n k : Nat) (t : Taken) (fits : Bool) (secs : List RawSec) (stop : Option (Option Nat)) (lut : List Nat) (taps : List Int)  (h_s : s.Kept P b0) (p_power : P .power = true) (p_rings : P .rings = true) (p_vecs : P .vecs = true) (p_hostFn : P .hostFn = true) (p_streams : P .streams = true) (p_staged : P .staged = true) : (State.openChecked s n k t fits secs stop lut taps).Kept P b0 := by
  rw [State.openChecked.eq_def]
  repeat' first
    | (with_reducible first | assumption | apply State.finishInOrder_kept | apply State.flushStaged_kept | apply State.stage_kept) | intro _ | split | dsimp only

theorem execOpenStream_kept (n k : Nat) (fits : Bool) (s : State)  (h_s : s.Kept P b0) (p_free : P .free = true) (p_rgs : P .rgs = true) (p_harts : P .harts = true) (p_engines : P .engines = true) (p_mmu : P .mmu = true) (p_queues : P .queues = true) (p_cat : P .cat = true) (p_power : P .power = true) (p_pads : P .pads = true) (p_rings : P .rings = true) (p_vecs : P .vecs = true) (p_hostFn : P .hostFn = true) (p_streams : P .streams = true) (p_staged : P .staged = true) (p_gone : P .gone = true) : OutKept P b0 (execOpenStream n k fits s) := by
  rw [execOpenStream.eq_def]
  repeat' first
    | with_reducible first
      | assumption | apply State.finishInOrder_kept | apply State.slipRead_kept | apply State.readTables_kept | apply State.openChecked_kept |
      apply OutKept.next | apply kept_of_eq1 (he := by assumption)
    | intro _ | split | dsimp only

theorem State.setChecked_kept (s : State) (n k : Nat) (t : Taken) (secs : List RawSec) (stop : Option (Option Nat)) (lut : List Nat) (taps : List Int)  (h_s : s.Kept P b0) (p_power : P .power = true) (p_rings : P .rings = true) (p_vecs : P .vecs = true) (p_hostFn : P .hostFn = true) (p_staged : P .staged = true) : (State.setChecked s n k t secs stop lut taps).Kept P b0 := by
  rw [State.setChecked.eq_def]
  repeat' first
    | (with_reducible first | assumption | apply State.finishInOrder_kept | apply State.stage_kept) | split | dsimp only

theorem execSetConfig_kept (n k : Nat) (s : State)  (h_s : s.Kept P b0) (p_free : P .free = true) (p_rgs : P .rgs = true) (p_harts : P .harts = true) (p_engines : P .engines = true) (p_mmu : P .mmu = true) (p_queues : P .queues = true) (p_cat : P .cat = true) (p_power : P .power = true) (p_pads : P .pads = true) (p_rings : P .rings = true) (p_vecs : P .vecs = true) (p_hostFn : P .hostFn = true) (p_streams : P .streams = true) (p_staged : P .staged = true) (p_gone : P .gone = true) : OutKept P b0 (execSetConfig n k s) := by
  rw [execSetConfig.eq_def]
  repeat' first
    | with_reducible first
      | assumption | apply State.finishInOrder_kept | apply State.slipRead_kept | apply State.readTables_kept | apply State.setChecked_kept |
      apply OutKept.next | apply kept_of_eq1 (he := by assumption)
    | split | dsimp only

theorem execSetConfigDevice_kept (n k : Nat) (s : State)  (h_s : s.Kept P b0) (p_free : P .free = true) (p_rgs : P .rgs = true) (p_harts : P .harts = true) (p_engines : P .engines = true) (p_mmu : P .mmu = true) (p_queues : P .queues = true) (p_cat : P .cat = true) (p_power : P .power = true) (p_pads : P .pads = true) (p_rings : P .rings = true) (p_vecs : P .vecs = true) (p_hostFn : P .hostFn = true) (p_streams : P .streams = true) (p_staged : P .staged = true) (p_taking : P .taking = true) (p_gone : P .gone = true) : OutKept P b0 (execSetConfigDevice n k s) := by
  rw [execSetConfigDevice.eq_def]
  repeat' first
    | with_reducible first
      | assumption | apply State.finish_kept | apply State.requestPace_kept | apply State.slipRead_kept | apply OutKept.next |
      apply kept_of_eq1 (he := by assumption)
    | split | dsimp only

theorem State.dropPic_kept (s : State) (n : Nat) (p : Pic)  (h_s : s.Kept P b0) (p_power : P .power = true) (p_rings : P .rings = true) (p_vecs : P .vecs = true) (p_hostFn : P .hostFn = true) (p_streams : P .streams = true) : (State.dropPic s n p).Kept P b0 := by
  rw [State.dropPic.eq_def]
  repeat' first
    | (with_reducible first | assumption | apply State.onPic_kept | apply State.finishById_kept | apply State.settle_kept | apply State.leaveSource_kept) | intro _ | split | dsimp only

theorem State.abortStream_kept (s : State) (n : Nat)  (h_s : s.Kept P b0) (p_power : P .power = true) (p_rings : P .rings = true) (p_vecs : P .vecs = true) (p_hostFn : P .hostFn = true) (p_streams : P .streams = true) (p_tripped : P .tripped = true) : (State.abortStream s n).Kept P b0 := by
  rw [State.abortStream.eq_def]
  repeat' first
    | with_reducible first
      | assumption | apply State.setStream_kept | apply State.showQueues_kept | apply State.freeRows_kept | apply State.dropPic_kept |
      apply foldl_kept | apply foldl_kept1 | apply foldl_kept2
    | intro _ | dsimp only

theorem State.flushWaiting_kept (s : State) (n k : Nat) (t : Taken)  (h_s : s.Kept P b0) (p_power : P .power = true) (p_rings : P .rings = true) (p_vecs : P .vecs = true) (p_hostFn : P .hostFn = true) : (State.flushWaiting s n k t).1.Kept P b0 := by
  refine P1Kept.kept ?_
  rw [State.flushWaiting.eq_def]
  repeat' first
    | (with_reducible first | assumption | apply State.finishById_kept | apply foldl_kept | apply foldl_kept1 | apply foldl_kept2 | apply P1Kept.mk1) | intro _ | dsimp only

theorem State.toClosing_kept (s : State) (n : Nat) (abort : Bool) (slip : Option (Nat × Nat))  (h_s : s.Kept P b0) (p_dram : P .dram = true) (p_damage : P .damage = true) (p_host : P .host = true) (p_free : P .free = true) (p_net : P .net = true) (p_rgs : P .rgs = true) (p_harts : P .harts = true) (p_engines : P .engines = true) (p_mmu : P .mmu = true) (p_queues : P .queues = true) (p_chans : P .chans = true) (p_cat : P .cat = true) (p_power : P .power = true) (p_pads : P .pads = true) (p_rings : P .rings = true) (p_vecs : P .vecs = true) (p_hostFn : P .hostFn = true) (p_streams : P .streams = true) (p_staged : P .staged = true) (p_tripped : P .tripped = true) (p_gone : P .gone = true) : (State.toClosing s n abort slip).Kept P b0 := by
  rw [State.toClosing.eq_def]
  repeat' first
    | with_reducible first
      | assumption | apply State.setStream_kept | apply State.closeFlows_kept | apply State.bumpAll_kept | apply State.flushStaged_kept |
      apply State.abortStream_kept | apply kept_of_eq1 (he := by assumption)
    | intro _ | split | dsimp only

theorem execCloseStream_kept (n k : Nat) (s : State)  (h_s : s.Kept P b0) (p_dram : P .dram = true) (p_damage : P .damage = true) (p_host : P .host = true) (p_free : P .free = true) (p_net : P .net = true) (p_rgs : P .rgs = true) (p_harts : P .harts = true) (p_engines : P .engines = true) (p_mmu : P .mmu = true) (p_queues : P .queues = true) (p_chans : P .chans = true) (p_cat : P .cat = true) (p_power : P .power = true) (p_pads : P .pads = true) (p_rings : P .rings = true) (p_vecs : P .vecs = true) (p_hostFn : P .hostFn = true) (p_streams : P .streams = true) (p_staged : P .staged = true) (p_tripped : P .tripped = true) (p_gone : P .gone = true) : OutKept P b0 (execCloseStream n k s) := by
  rw [execCloseStream.eq_def]
  repeat' first
    | with_reducible first
      | assumption | apply State.startSlip_kept | apply State.finishInOrder_kept | apply State.finishById_kept | apply State.flushStaged_kept |
      apply State.flushWaiting_kept | apply State.toClosing_kept | apply foldl_kept | apply foldl_kept1 | apply foldl_kept2 | apply OutKept.next |
      apply kept_of_eq1 (he := by assumption)
    | intro _ | split | dsimp only

theorem State.holdCharge_kept (s : State) (rp n tag : Nat) (c : Nat × Nat)  (h_s : s.Kept P b0) (p_rings : P .rings = true) : (State.holdCharge s rp n tag c).Kept P b0 := by
  rw [State.holdCharge.eq_def]
  repeat' first
    | (with_reducible first | assumption | apply State.setRing_kept) | intro _ | split | dsimp only

theorem State.closeCall_kept (s : State) (n : Nat) (a : Applet)  (h_s : s.Kept P b0) (p_harts : P .harts = true) (p_streams : P .streams = true) : (State.closeCall s n a).Kept P b0 := by
  rw [State.closeCall.eq_def]
  repeat' first
    | (with_reducible first | assumption | apply State.beginCall_kept) | split | dsimp only

theorem execStreamClosed_kept (n : Nat) (s : State)  (h_s : s.Kept P b0) (p_host : P .host = true) (p_free : P .free = true) (p_net : P .net = true) (p_harts : P .harts = true) (p_power : P .power = true) (p_rings : P .rings = true) (p_vecs : P .vecs = true) (p_hostFn : P .hostFn = true) (p_streams : P .streams = true) (p_tripped : P .tripped = true) : OutKept P b0 (execStreamClosed n s) := by
  rw [execStreamClosed.eq_def]
  repeat' first
    | with_reducible first
      | assumption | apply State.put_kept | apply State.setStream_kept | apply State.setHart_kept | apply State.draw_kept |
      apply State.postEvent_kept | apply State.showBusy_kept | apply State.finish_kept | apply State.showSpares_kept | apply State.beginDrain_kept |
      apply State.showLedger_kept | apply State.showHold_kept | apply State.showPorts_kept | apply State.freeFlows_kept |
      apply State.holdCharge_kept | apply State.closeCall_kept | apply foldl_kept | apply foldl_kept1 | apply foldl_kept2 | apply OutKept.next |
      apply kept_of_eq2 (he := by assumption)
    | intro _ | split | dsimp only

theorem execFlushStream_kept (n k : Nat) (s : State)  (h_s : s.Kept P b0) (p_dram : P .dram = true) (p_damage : P .damage = true) (p_host : P .host = true) (p_free : P .free = true) (p_rgs : P .rgs = true) (p_harts : P .harts = true) (p_engines : P .engines = true) (p_mmu : P .mmu = true) (p_queues : P .queues = true) (p_chans : P .chans = true) (p_cat : P .cat = true) (p_power : P .power = true) (p_pads : P .pads = true) (p_rings : P .rings = true) (p_vecs : P .vecs = true) (p_hostFn : P .hostFn = true) (p_streams : P .streams = true) (p_staged : P .staged = true) (p_gone : P .gone = true) : OutKept P b0 (execFlushStream n k s) := by
  rw [execFlushStream.eq_def]
  repeat' first
    | with_reducible first
      | assumption | apply State.setStream_kept | apply State.finish_kept | apply State.startDrain_kept | apply State.startSlip_kept |
      apply State.finishInOrder_kept | apply State.settle_kept | apply State.bumpAll_kept | apply State.flushStaged_kept |
      apply State.flushWaiting_kept | apply OutKept.next | apply kept_of_eq1 (he := by assumption)
    | intro _ | split | dsimp only

end Sys2Proof.Machine
end

