-- ==== Sys2Proof/Laws/KeptEpochs.lean ====
section
/-! SUPPORT. What the operations of Machine/Epochs.lean keep (Laws/Kept.lean). -/

set_option linter.unusedTactic false
set_option linter.unreachableTactic false

namespace Sys2Proof.Machine

variable {P : Part → Bool} {b0 : State}

theorem State.beginEpoch_kept (s : State)  (h_s : s.Kept P b0) (p_free : P .free = true) (p_cat : P .cat = true) (p_staged : P .staged = true) (p_taking : P .taking = true) : (State.beginEpoch s).Kept P b0 := by
  rw [State.beginEpoch.eq_def]
  repeat' first
    | simp only [State.kept_mk]
    | with_reducible first
      | assumption | apply State.put_kept | apply State.setCatUnit_kept | apply State.draw_kept | apply foldl_kept | apply foldl_kept1 |
      apply foldl_kept2 | apply KeptF.u_cat_staged_taking | apply kept_of_eq2 (he := by assumption)
    | intro _ | split | dsimp only

theorem execEpochBegin_kept (s : State)  (h_s : s.Kept P b0) (p_free : P .free = true) (p_cat : P .cat = true) (p_staged : P .staged = true) (p_taking : P .taking = true) : OutKept P b0 (execEpochBegin s) := by
  rw [execEpochBegin.eq_def]
  repeat' first
    | (with_reducible first | assumption | apply State.beginEpoch_kept | apply OutKept.next) | intro _ | split | dsimp only

theorem State.freshPorts_kept (s : State) (ports : List Nat)  (h_s : s.Kept P b0) : (State.freshPorts s ports).Kept P b0 := by
  rw [State.freshPorts.eq_def]
  repeat' first
    | (with_reducible first | assumption | apply State.put_kept | apply foldl_kept | apply foldl_kept1 | apply foldl_kept2) | intro _ | dsimp only

theorem State.openApplet_kept (s : State) (n : Nat)  (h_s : s.Kept P b0) (p_free : P .free = true) (p_harts : P .harts = true) (p_streams : P .streams = true) : (State.openApplet s n).Kept P b0 := by
  rw [State.openApplet.eq_def]
  repeat' first
    | (with_reducible first | assumption | apply State.draw_kept | apply State.beginCall_kept | apply kept_of_eq2 (he := by assumption)) | intro _ | split | dsimp only

theorem State.applySlip_kept (s : State) (q : Staged) (epoch : Nat)  (h_s : s.Kept P b0) (p_dram : P .dram = true) (p_damage : P .damage = true) (p_host : P .host = true) (p_free : P .free = true) (p_net : P .net = true) (p_rgs : P .rgs = true) (p_harts : P .harts = true) (p_engines : P .engines = true) (p_mmu : P .mmu = true) (p_queues : P .queues = true) (p_chans : P .chans = true) (p_cat : P .cat = true) (p_power : P .power = true) (p_pads : P .pads = true) (p_rings : P .rings = true) (p_vecs : P .vecs = true) (p_hostFn : P .hostFn = true) (p_streams : P .streams = true) (p_staged : P .staged = true) (p_tripped : P .tripped = true) (p_gone : P .gone = true) : (State.applySlip s q epoch).Kept P b0 := by
  rw [State.applySlip.eq_def]
  repeat' first
    | with_reducible first
      | assumption | apply State.setStream_kept | apply State.showBusy_kept | apply State.openFlows_kept | apply State.toClosing_kept |
      apply State.freshPorts_kept | apply State.openApplet_kept
    | split | dsimp only

theorem State.streamRead_kept (s : State) (n va len : Nat)  (h_s : s.Kept P b0) (p_free : P .free = true) (p_rgs : P .rgs = true) (p_harts : P .harts = true) (p_engines : P .engines = true) (p_mmu : P .mmu = true) (p_queues : P .queues = true) (p_cat : P .cat = true) (p_power : P .power = true) (p_pads : P .pads = true) (p_rings : P .rings = true) (p_vecs : P .vecs = true) (p_hostFn : P .hostFn = true) (p_streams : P .streams = true) (p_gone : P .gone = true) : (State.streamRead s n va len).1.Kept P b0 := by
  refine P1Kept.kept ?_
  rw [State.streamRead.eq_def]
  repeat' first
    | (with_reducible first | assumption | apply State.slipPieces_kept | apply State.readPieces_kept | apply P1Kept.mk1 | apply kept_of_eq1 (he := by assumption)) | split | dsimp only

theorem State.readLut_kept (s : State) (n : Nat)  (h_s : s.Kept P b0) (p_free : P .free = true) (p_rgs : P .rgs = true) (p_harts : P .harts = true) (p_engines : P .engines = true) (p_mmu : P .mmu = true) (p_queues : P .queues = true) (p_cat : P .cat = true) (p_power : P .power = true) (p_pads : P .pads = true) (p_rings : P .rings = true) (p_vecs : P .vecs = true) (p_hostFn : P .hostFn = true) (p_streams : P .streams = true) (p_gone : P .gone = true) : (State.readLut s n).Kept P b0 := by
  rw [State.readLut.eq_def]
  repeat' first
    | (with_reducible first | assumption | apply State.setStream_kept | apply State.streamRead_kept | apply kept_of_eq1 (he := by assumption)) | split | dsimp only

theorem State.completeStaged_kept (s : State) (q : Staged) (epoch digest : Nat)  (h_s : s.Kept P b0) (p_power : P .power = true) (p_rings : P .rings = true) (p_vecs : P .vecs = true) (p_hostFn : P .hostFn = true) : (State.completeStaged s q epoch digest).Kept P b0 := by
  rw [State.completeStaged.eq_def]
  repeat' first
    | (with_reducible first | assumption | apply State.finish_kept) | split | dsimp only

theorem State.unitTakes_kept (s : State) (e u : Nat)  (h_s : s.Kept P b0) (p_cat : P .cat = true) : (State.unitTakes s e u).Kept P b0 := by
  rw [State.unitTakes.eq_def]
  repeat' first
    | (with_reducible first | assumption | apply State.setCatUnit_kept) | split | dsimp only

theorem State.takeEpoch_kept (s : State)  (h_s : s.Kept P b0) (p_dram : P .dram = true) (p_damage : P .damage = true) (p_host : P .host = true) (p_free : P .free = true) (p_net : P .net = true) (p_rgs : P .rgs = true) (p_harts : P .harts = true) (p_engines : P .engines = true) (p_mmu : P .mmu = true) (p_queues : P .queues = true) (p_chans : P .chans = true) (p_cat : P .cat = true) (p_power : P .power = true) (p_pads : P .pads = true) (p_rings : P .rings = true) (p_vecs : P .vecs = true) (p_hostFn : P .hostFn = true) (p_streams : P .streams = true) (p_staged : P .staged = true) (p_taking : P .taking = true) (p_tripped : P .tripped = true) (p_gone : P .gone = true) : (State.takeEpoch s).Kept P b0 := by
  rw [State.takeEpoch.eq_def]
  repeat' first
    | simp only [State.kept_mk]
    | with_reducible first
      | assumption | apply State.put_kept | apply State.putTime_kept | apply State.raise_kept | apply State.showLedger_kept |
      apply State.topSpares_kept | apply State.settle_kept | apply State.showHold_kept | apply State.showPorts_kept | apply State.applySlip_kept |
      apply State.readLut_kept | apply State.completeStaged_kept | apply State.unitTakes_kept | apply foldl_kept | apply foldl_kept1 |
      apply foldl_kept2 | apply KeptF.u_cat_taking
    | intro _ | split | dsimp only

theorem execEpochTaken_kept (s : State)  (h_s : s.Kept P b0) (p_dram : P .dram = true) (p_damage : P .damage = true) (p_host : P .host = true) (p_free : P .free = true) (p_net : P .net = true) (p_rgs : P .rgs = true) (p_harts : P .harts = true) (p_engines : P .engines = true) (p_mmu : P .mmu = true) (p_queues : P .queues = true) (p_chans : P .chans = true) (p_cat : P .cat = true) (p_power : P .power = true) (p_pads : P .pads = true) (p_rings : P .rings = true) (p_vecs : P .vecs = true) (p_hostFn : P .hostFn = true) (p_streams : P .streams = true) (p_staged : P .staged = true) (p_taking : P .taking = true) (p_tripped : P .tripped = true) (p_gone : P .gone = true) : OutKept P b0 (execEpochTaken s) := by
  rw [execEpochTaken.eq_def]
  repeat' first
    | (with_reducible first | assumption | apply State.takeEpoch_kept | apply OutKept.next) | dsimp only

theorem execEpochAckTimeout_kept (missing : List Nat) (s : State)  (h_s : s.Kept P b0) (p_dram : P .dram = true) (p_damage : P .damage = true) (p_host : P .host = true) (p_free : P .free = true) (p_net : P .net = true) (p_rgs : P .rgs = true) (p_harts : P .harts = true) (p_engines : P .engines = true) (p_mmu : P .mmu = true) (p_queues : P .queues = true) (p_chans : P .chans = true) (p_cat : P .cat = true) (p_power : P .power = true) (p_pads : P .pads = true) (p_rings : P .rings = true) (p_vecs : P .vecs = true) (p_hostFn : P .hostFn = true) (p_streams : P .streams = true) (p_staged : P .staged = true) (p_taking : P .taking = true) (p_tripped : P .tripped = true) (p_gone : P .gone = true) : OutKept P b0 (execEpochAckTimeout missing s) := by
  rw [execEpochAckTimeout.eq_def]
  repeat' first
    | with_reducible first
      | assumption | apply State.bump_kept | apply State.setCatUnit_kept | apply State.report_kept | apply State.takeEpoch_kept | apply foldl_kept |
      apply foldl_kept1 | apply foldl_kept2 | apply OutKept.next
    | intro _ | split | dsimp only

end Sys2Proof.Machine
end

