-- ==== Sys2Proof/Laws/KeptFaults.lean ====
section
/-! SUPPORT. What the operations of Machine/Faults.lean keep (Laws/Kept.lean). -/

set_option linter.unusedTactic false
set_option linter.unreachableTactic false

namespace Sys2Proof.Machine

variable {P : Part → Bool} {b0 : State}

theorem execFaultMessage_kept (u k : Nat) (detail : Option Nat) (raw addr : Nat) (s : State)  (h_s : s.Kept P b0) (p_free : P .free = true) (p_rgs : P .rgs = true) (p_harts : P .harts = true) (p_engines : P .engines = true) (p_mmu : P .mmu = true) (p_queues : P .queues = true) (p_cat : P .cat = true) (p_power : P .power = true) (p_pads : P .pads = true) (p_rings : P .rings = true) (p_vecs : P .vecs = true) (p_hostFn : P .hostFn = true) (p_streams : P .streams = true) (p_gone : P .gone = true) : OutKept P b0 (execFaultMessage u k detail raw addr s) := by
  rw [execFaultMessage.eq_def]
  repeat' first
    | with_reducible first
      | assumption | apply State.put_kept | apply State.loseWork_kept | apply State.abandon_kept | apply State.reportAs_kept |
      apply State.unplace_kept | apply OutKept.next
    | split | dsimp only

theorem execAck_kept (all : Bool) (c u : Nat) (s : State)  (h_s : s.Kept P b0) (p_rgs : P .rgs = true) : OutKept P b0 (execAck all c u s) := by
  rw [execAck.eq_def]
  repeat' first
    | simp only [State.kept_mk]
    | (with_reducible first | assumption | apply KeptF.u_rgs | apply OutKept.next) | intro _ | split | dsimp only

theorem execInject_kept (c k u : Nat) (s : State)  (h_s : s.Kept P b0) (p_free : P .free = true) (p_rgs : P .rgs = true) (p_harts : P .harts = true) (p_engines : P .engines = true) (p_mmu : P .mmu = true) (p_queues : P .queues = true) (p_cat : P .cat = true) (p_power : P .power = true) (p_pads : P .pads = true) (p_rings : P .rings = true) (p_vecs : P .vecs = true) (p_hostFn : P .hostFn = true) (p_streams : P .streams = true) (p_gone : P .gone = true) : OutKept P b0 (execInject c k u s) := by
  rw [execInject.eq_def]
  repeat' first
    | (with_reducible first | assumption | apply State.reportAs_kept | apply OutKept.next) | split | dsimp only

theorem execFaultNHoldExpiry_kept (s : State)  (h_s : s.Kept P b0) (p_rgs : P .rgs = true) : OutKept P b0 (execFaultNHoldExpiry s) := by
  rw [execFaultNHoldExpiry.eq_def]
  repeat' first
    | simp only [State.kept_mk]
    | (with_reducible first | assumption | apply KeptF.u_rgs | apply OutKept.next) | split | dsimp only

theorem execWriteDrainEmpty_kept (i : Nat) (s : State)  (h_s : s.Kept P b0) (p_engines : P .engines = true) : OutKept P b0 (execWriteDrainEmpty i s) := by
  rw [execWriteDrainEmpty.eq_def]
  repeat' first
    | (with_reducible first | assumption | apply State.setEngine_kept | apply OutKept.next) | split | dsimp only

theorem State.voidWrites_kept (s : State) (i : Nat)  (h_s : s.Kept P b0) (p_chans : P .chans = true) : (State.voidWrites s i).Kept P b0 := by
  rw [State.voidWrites.eq_def]
  repeat' first
    | (with_reducible first | assumption | apply State.setChan_kept | apply foldl_kept | apply foldl_kept1 | apply foldl_kept2) | intro _ | split | dsimp only

theorem execWriteDrainTimeout_kept (i : Nat) (s : State)  (h_s : s.Kept P b0) (p_free : P .free = true) (p_rgs : P .rgs = true) (p_harts : P .harts = true) (p_engines : P .engines = true) (p_mmu : P .mmu = true) (p_queues : P .queues = true) (p_chans : P .chans = true) (p_cat : P .cat = true) (p_power : P .power = true) (p_pads : P .pads = true) (p_rings : P .rings = true) (p_vecs : P .vecs = true) (p_hostFn : P .hostFn = true) (p_streams : P .streams = true) (p_gone : P .gone = true) : OutKept P b0 (execWriteDrainTimeout i s) := by
  rw [execWriteDrainTimeout.eq_def]
  repeat' first
    | (with_reducible first | assumption | apply State.setEngine_kept | apply State.report_kept | apply State.voidWrites_kept | apply OutKept.next) | split | dsimp only

theorem execRedispatch_kept (i dest : Nat) (s : State)  (h_s : s.Kept P b0) (p_engines : P .engines = true) (p_streams : P .streams = true) : OutKept P b0 (execRedispatch i dest s) := by
  rw [execRedispatch.eq_def]
  repeat' first
    | with_reducible first
      | assumption | apply State.put_kept | apply State.bump_kept | apply State.setEngine_kept | apply State.onPic_kept | apply State.place_kept |
      apply State.unplace_kept | apply OutKept.next
    | intro _ | split | dsimp only

theorem State.sweepUnit_kept (s : State) (u : Nat)  (h_s : s.Kept P b0) (p_free : P .free = true) (p_rgs : P .rgs = true) (p_harts : P .harts = true) (p_engines : P .engines = true) (p_mmu : P .mmu = true) (p_queues : P .queues = true) (p_cat : P .cat = true) (p_power : P .power = true) (p_pads : P .pads = true) (p_rings : P .rings = true) (p_vecs : P .vecs = true) (p_hostFn : P .hostFn = true) (p_streams : P .streams = true) (p_gone : P .gone = true) : (State.sweepUnit s u).Kept P b0 := by
  rw [State.sweepUnit.eq_def]
  repeat' first
    | (with_reducible first | assumption | apply State.bump_kept | apply State.setCatUnit_kept | apply State.raise_kept | apply State.reportAs_kept) | split | dsimp only

theorem execDigestSweep_kept (held : List (Nat × Nat × Nat)) (s : State)  (h_s : s.Kept P b0) (p_free : P .free = true) (p_rgs : P .rgs = true) (p_harts : P .harts = true) (p_engines : P .engines = true) (p_mmu : P .mmu = true) (p_queues : P .queues = true) (p_cat : P .cat = true) (p_power : P .power = true) (p_pads : P .pads = true) (p_rings : P .rings = true) (p_vecs : P .vecs = true) (p_hostFn : P .hostFn = true) (p_streams : P .streams = true) (p_gone : P .gone = true) : OutKept P b0 (execDigestSweep held s) := by
  rw [execDigestSweep.eq_def]
  repeat' first
    | with_reducible first
      | assumption | apply State.bump_kept | apply State.setCatUnit_kept | apply State.sweepUnit_kept | apply foldl_kept | apply foldl_kept1 |
      apply foldl_kept2 | apply OutKept.next | exact OutKept.fault _
    | intro _ | split | dsimp only

theorem execPcieLinkDown_kept (linkLost : Bool) (s : State)  (h_s : s.Kept P b0) (p_free : P .free = true) (p_rgs : P .rgs = true) (p_harts : P .harts = true) (p_engines : P .engines = true) (p_mmu : P .mmu = true) (p_queues : P .queues = true) (p_cat : P .cat = true) (p_power : P .power = true) (p_pads : P .pads = true) (p_rings : P .rings = true) (p_vecs : P .vecs = true) (p_hostFn : P .hostFn = true) (p_streams : P .streams = true) (p_gone : P .gone = true) : OutKept P b0 (execPcieLinkDown linkLost s) := by
  rw [execPcieLinkDown.eq_def]
  repeat' first
    | simp only [State.kept_mk]
    | (with_reducible first | assumption | apply State.report_kept | apply KeptF.u_hostFn | apply OutKept.next) | split | dsimp only

theorem execPcieCorrectedError_kept (s : State)  (h_s : s.Kept P b0) (p_free : P .free = true) (p_rgs : P .rgs = true) (p_harts : P .harts = true) (p_engines : P .engines = true) (p_mmu : P .mmu = true) (p_queues : P .queues = true) (p_cat : P .cat = true) (p_power : P .power = true) (p_pads : P .pads = true) (p_rings : P .rings = true) (p_vecs : P .vecs = true) (p_hostFn : P .hostFn = true) (p_streams : P .streams = true) (p_gone : P .gone = true) : OutKept P b0 (execPcieCorrectedError s) := by
  rw [execPcieCorrectedError.eq_def]
  repeat' first
    | (with_reducible first | assumption | apply State.report_kept | apply OutKept.next) | split | dsimp only

end Sys2Proof.Machine
end

