-- ==== Sys2Proof/Laws/KeptRecording.lean ====
section
/-! SUPPORT. What the operations of Machine/Recording.lean keep (Laws/Kept.lean). -/

set_option linter.unusedTactic false
set_option linter.unreachableTactic false

namespace Sys2Proof.Machine

variable {P : Part → Bool} {b0 : State}

theorem execRecordStart_kept (n k : Nat) (s : State)  (h_s : s.Kept P b0) (p_free : P .free = true) (p_bnd : P .bnd = true) (p_power : P .power = true) (p_rings : P .rings = true) (p_vecs : P .vecs = true) (p_hostFn : P .hostFn = true) (p_streams : P .streams = true) : OutKept P b0 (execRecordStart n k s) := by
  rw [execRecordStart.eq_def]
  repeat' first
    | simp only [State.kept_mk]
    | with_reducible first
      | assumption | apply State.setStream_kept | apply State.draw_kept | apply State.startSlip_kept | apply State.finishInOrder_kept |
      apply State.showBnd_kept | apply State.journal_kept | apply foldl_kept | apply foldl_kept1 | apply foldl_kept2 | apply KeptF.u_bnd |
      apply OutKept.next | apply kept_of_eq2 (he := by assumption)
    | intro _ | split | dsimp only

theorem State.openedOn_kept (s : State) (n p : Nat)  (h_s : s.Kept P b0) (p_bnd : P .bnd = true) : (State.openedOn s n p).Kept P b0 := by
  rw [State.openedOn.eq_def]
  repeat' first
    | (with_reducible first | assumption | apply State.setTake_kept) | split | dsimp only

theorem execRecordStop_kept (n k : Nat) (s : State)  (h_s : s.Kept P b0) (p_free : P .free = true) (p_bnd : P .bnd = true) (p_rgs : P .rgs = true) (p_harts : P .harts = true) (p_engines : P .engines = true) (p_mmu : P .mmu = true) (p_queues : P .queues = true) (p_cat : P .cat = true) (p_power : P .power = true) (p_pads : P .pads = true) (p_rings : P .rings = true) (p_vecs : P .vecs = true) (p_hostFn : P .hostFn = true) (p_streams : P .streams = true) (p_gone : P .gone = true) : OutKept P b0 (execRecordStop n k s) := by
  rw [execRecordStop.eq_def]
  repeat' first
    | with_reducible first
      | assumption | apply State.startSlip_kept | apply State.finishInOrder_kept | apply State.setTake_kept | apply State.takeStep_kept |
      apply OutKept.next
    | split | dsimp only

theorem execMark_kept (n k : Nat) (s : State)  (h_s : s.Kept P b0) (p_bnd : P .bnd = true) (p_power : P .power = true) (p_rings : P .rings = true) (p_vecs : P .vecs = true) (p_hostFn : P .hostFn = true) : OutKept P b0 (execMark n k s) := by
  rw [execMark.eq_def]
  repeat' first
    | with_reducible first
      | assumption | apply State.startSlip_kept | apply State.finishInOrder_kept | apply State.setTake_kept | apply State.journal_kept |
      apply foldl_kept | apply foldl_kept1 | apply foldl_kept2 | apply OutKept.next
    | intro _ | split | dsimp only

theorem State.markedOn_kept (s : State) (n p rp id : Nat)  (h_s : s.Kept P b0) (p_bnd : P .bnd = true) : (State.markedOn s n p rp id).Kept P b0 := by
  rw [State.markedOn.eq_def]
  repeat' first
    | (with_reducible first | assumption | apply State.setTake_kept) | intro _ | split | dsimp only

theorem State.skipVerify_kept (s : State) (n num : Nat)  (h_s : s.Kept P b0) (p_bnd : P .bnd = true) (p_power : P .power = true) (p_rings : P .rings = true) (p_vecs : P .vecs = true) (p_hostFn : P .hostFn = true) (p_streams : P .streams = true) : (State.skipVerify s n num).Kept P b0 := by
  rw [State.skipVerify.eq_def]
  repeat' first
    | with_reducible first
      | assumption | apply State.bump_kept | apply State.onPic_kept | apply State.setTake_kept | apply State.releaseRecs_kept | apply foldl_kept |
      apply foldl_kept1 | apply foldl_kept2
    | intro _ | split | dsimp only

theorem State.makeRoom_kept (s : State) (n size : Nat) (x0 : Nat) (h_s : s.Kept P b0) (p_bnd : P .bnd = true) (p_power : P .power = true) (p_rings : P .rings = true) (p_vecs : P .vecs = true) (p_hostFn : P .hostFn = true) (p_streams : P .streams = true) : (State.makeRoom s n size x0).Kept P b0 := by
  induction x0 generalizing s n size with
  | zero =>
    unfold State.makeRoom
    repeat' first
      | (with_reducible first | assumption | apply ih | apply State.skipVerify_kept) | intro _ | split | dsimp only
  | succ fuel ih =>
    unfold State.makeRoom
    repeat' first
      | (with_reducible first | assumption | apply ih | apply State.skipVerify_kept) | intro _ | split | dsimp only

theorem execPictureToBindery_kept (n num : Nat) (s : State)  (h_s : s.Kept P b0) (p_free : P .free = true) (p_bnd : P .bnd = true) (p_rgs : P .rgs = true) (p_harts : P .harts = true) (p_engines : P .engines = true) (p_mmu : P .mmu = true) (p_queues : P .queues = true) (p_cat : P .cat = true) (p_power : P .power = true) (p_pads : P .pads = true) (p_rings : P .rings = true) (p_vecs : P .vecs = true) (p_hostFn : P .hostFn = true) (p_streams : P .streams = true) (p_gone : P .gone = true) : OutKept P b0 (execPictureToBindery n num s) := by
  rw [execPictureToBindery.eq_def]
  repeat' first
    | with_reducible first
      | assumption | apply State.bump_kept | apply State.dropReader_kept | apply State.written_kept | apply State.setTake_kept |
      apply State.writeRecord_kept | apply State.earlyCommit_kept | apply State.takeStep_kept | apply State.makeRoom_kept | apply foldl_kept |
      apply foldl_kept1 | apply foldl_kept2 | apply OutKept.next
    | intro _ | split | dsimp only

theorem execCommitTimer_kept (n : Nat) (s : State)  (h_s : s.Kept P b0) (p_free : P .free = true) (p_bnd : P .bnd = true) (p_rgs : P .rgs = true) (p_harts : P .harts = true) (p_engines : P .engines = true) (p_mmu : P .mmu = true) (p_queues : P .queues = true) (p_cat : P .cat = true) (p_power : P .power = true) (p_pads : P .pads = true) (p_rings : P .rings = true) (p_vecs : P .vecs = true) (p_hostFn : P .hostFn = true) (p_streams : P .streams = true) (p_gone : P .gone = true) : OutKept P b0 (execCommitTimer n s) := by
  rw [execCommitTimer.eq_def]
  repeat' first
    | (with_reducible first | assumption | apply State.setTake_kept | apply State.startCommit_kept | apply State.takeStep_kept | apply OutKept.next) | split | dsimp only

theorem State.recordWritten_kept (s : State) (n num p : Nat) (moved : Bool)  (h_s : s.Kept P b0) (p_free : P .free = true) (p_bnd : P .bnd = true) (p_rgs : P .rgs = true) (p_harts : P .harts = true) (p_engines : P .engines = true) (p_mmu : P .mmu = true) (p_queues : P .queues = true) (p_cat : P .cat = true) (p_power : P .power = true) (p_pads : P .pads = true) (p_rings : P .rings = true) (p_vecs : P .vecs = true) (p_hostFn : P .hostFn = true) (p_streams : P .streams = true) (p_gone : P .gone = true) : (State.recordWritten s n num p moved).Kept P b0 := by
  rw [State.recordWritten.eq_def]
  repeat' first
    | with_reducible first
      | assumption | apply State.onPic_kept | apply State.written_kept | apply State.setTake_kept | apply State.issueRead_kept |
      apply State.takeStep_kept
    | intro _ | split | dsimp only

theorem State.readBack_kept (s : State) (n num p : Nat) (damage : Option (List Byte))  (h_s : s.Kept P b0) (p_bnd : P .bnd = true) (p_streams : P .streams = true) : (State.readBack s n num p damage).Kept P b0 := by
  rw [State.readBack.eq_def]
  repeat' first
    | (with_reducible first | assumption | apply State.onPic_kept | apply State.setTake_kept) | intro _ | split | dsimp only

theorem execVerifyCompareDone_kept (p n num : Nat) (equal : Bool) (s : State)  (h_s : s.Kept P b0) (p_free : P .free = true) (p_bnd : P .bnd = true) (p_rgs : P .rgs = true) (p_harts : P .harts = true) (p_engines : P .engines = true) (p_mmu : P .mmu = true) (p_queues : P .queues = true) (p_cat : P .cat = true) (p_power : P .power = true) (p_pads : P .pads = true) (p_rings : P .rings = true) (p_vecs : P .vecs = true) (p_hostFn : P .hostFn = true) (p_streams : P .streams = true) (p_gone : P .gone = true) : OutKept P b0 (execVerifyCompareDone p n num equal s) := by
  rw [execVerifyCompareDone.eq_def]
  repeat' first
    | with_reducible first
      | assumption | apply State.bump_kept | apply State.onPic_kept | apply State.report_kept | apply State.setTake_kept |
      apply State.writeRecord_kept | apply State.earlyCommit_kept | apply State.takeStep_kept | apply OutKept.next
    | intro _ | split | dsimp only

theorem execVerifyLagExpiry_kept (p n num : Nat) (s : State)  (h_s : s.Kept P b0) (p_free : P .free = true) (p_bnd : P .bnd = true) (p_rgs : P .rgs = true) (p_harts : P .harts = true) (p_engines : P .engines = true) (p_mmu : P .mmu = true) (p_queues : P .queues = true) (p_cat : P .cat = true) (p_power : P .power = true) (p_pads : P .pads = true) (p_rings : P .rings = true) (p_vecs : P .vecs = true) (p_hostFn : P .hostFn = true) (p_streams : P .streams = true) (p_gone : P .gone = true) : OutKept P b0 (execVerifyLagExpiry p n num s) := by
  rw [execVerifyLagExpiry.eq_def]
  repeat' first
    | (with_reducible first | assumption | apply State.bump_kept | apply State.onPic_kept | apply State.setTake_kept | apply State.takeStep_kept | apply OutKept.next) | intro _ | split | dsimp only

theorem State.setExtent_kept (s : State) (e : Extent)  (h_s : s.Kept P b0) (p_bnd : P .bnd = true) : (State.setExtent s e).Kept P b0 := by
  rw [State.setExtent.eq_def]
  repeat' first
    | simp only [State.kept_mk]
    | (with_reducible first | assumption | apply KeptF.u_bnd) | intro _ | split | dsimp only

theorem State.endExtent_kept (s : State) (e : Extent) (st : Nat)  (h_s : s.Kept P b0) (p_bnd : P .bnd = true) (p_power : P .power = true) (p_rings : P .rings = true) (p_vecs : P .vecs = true) (p_hostFn : P .hostFn = true) : (State.endExtent s e st).Kept P b0 := by
  rw [State.endExtent.eq_def]
  repeat' first
    | simp only [State.kept_mk]
    | (with_reducible first | assumption | apply State.finishById_kept | apply KeptF.u_bnd) | intro _ | dsimp only

theorem State.nextRead_kept (s : State) (rp id : Nat)  (h_s : s.Kept P b0) (p_bnd : P .bnd = true) (p_power : P .power = true) (p_rings : P .rings = true) (p_vecs : P .vecs = true) (p_hostFn : P .hostFn = true) : (State.nextRead s rp id).Kept P b0 := by
  rw [State.nextRead.eq_def]
  repeat' first
    | (with_reducible first | assumption | apply State.issueRead_kept | apply State.setExtent_kept | apply State.endExtent_kept) | intro _ | split | dsimp only

theorem execReadExtent_kept (n k : Nat) (s : State)  (h_s : s.Kept P b0) (p_bnd : P .bnd = true) (p_power : P .power = true) (p_rings : P .rings = true) (p_vecs : P .vecs = true) (p_hostFn : P .hostFn = true) : OutKept P b0 (execReadExtent n k s) := by
  rw [execReadExtent.eq_def]
  repeat' first
    | simp only [State.kept_mk]
    | (with_reducible first | assumption | apply State.finish_kept | apply State.startSlip_kept | apply State.nextRead_kept | apply KeptF.u_bnd | apply OutKept.next) | intro _ | split | dsimp only

theorem State.extentRead_kept (s : State) (rp id : Nat) (damage : Option (List Byte))  (h_s : s.Kept P b0) (p_dram : P .dram = true) (p_damage : P .damage = true) (p_host : P .host = true) (p_free : P .free = true) (p_bnd : P .bnd = true) (p_rgs : P .rgs = true) (p_harts : P .harts = true) (p_engines : P .engines = true) (p_mmu : P .mmu = true) (p_queues : P .queues = true) (p_chans : P .chans = true) (p_cat : P .cat = true) (p_power : P .power = true) (p_pads : P .pads = true) (p_rings : P .rings = true) (p_vecs : P .vecs = true) (p_hostFn : P .hostFn = true) (p_streams : P .streams = true) (p_gone : P .gone = true) : (State.extentRead s rp id damage).Kept P b0 := by
  rw [State.extentRead.eq_def]
  repeat' first
    | with_reducible first
      | assumption | apply State.queueFault_kept | apply State.slipPieces_kept | apply State.writePieces_kept | apply State.issueRead_kept |
      apply State.setExtent_kept | apply State.endExtent_kept | apply State.nextRead_kept | apply kept_of_eq1 (he := by assumption)
    | split | dsimp only

end Sys2Proof.Machine
end

