-- ==== Sys2Proof/Laws/KeptMagPorts.lean ====
section
/-! SUPPORT. What the operations of Machine/MagPorts.lean keep (Laws/Kept.lean). -/

set_option linter.unusedTactic false
set_option linter.unreachableTactic false

namespace Sys2Proof.Machine

variable {P : Part → Bool} {b0 : State}

theorem State.bndBit_kept (s : State) (f : Fld) (p : Nat) (v : Bool)  (h_s : s.Kept P b0) : (State.bndBit s f p v).Kept P b0 := by
  rw [State.bndBit.eq_def]
  repeat' first
    | (with_reducible first | assumption | apply State.put_kept) | split | dsimp only

theorem State.endOp_kept (s : State) (p result : Nat)  (h_s : s.Kept P b0) (p_bnd : P .bnd = true) : (State.endOp s p result).Kept P b0 := by
  rw [State.endOp.eq_def]
  repeat' first
    | (with_reducible first | assumption | apply State.put_kept | apply State.setMag_kept | apply State.raise_kept) | split | dsimp only

theorem State.failExtents_kept (s : State) (p st : Nat)  (h_s : s.Kept P b0) (p_bnd : P .bnd = true) (p_power : P .power = true) (p_rings : P .rings = true) (p_vecs : P .vecs = true) (p_hostFn : P .hostFn = true) : (State.failExtents s p st).Kept P b0 := by
  rw [State.failExtents.eq_def]
  repeat' first
    | (with_reducible first | assumption | apply State.endExtent_kept | apply foldl_kept | apply foldl_kept1 | apply foldl_kept2) | intro _ | dsimp only

theorem State.letGo_kept (s : State) (p state st : Nat)  (h_s : s.Kept P b0) (p_free : P .free = true) (p_bnd : P .bnd = true) (p_rgs : P .rgs = true) (p_harts : P .harts = true) (p_engines : P .engines = true) (p_mmu : P .mmu = true) (p_queues : P .queues = true) (p_cat : P .cat = true) (p_power : P .power = true) (p_pads : P .pads = true) (p_rings : P .rings = true) (p_vecs : P .vecs = true) (p_hostFn : P .hostFn = true) (p_streams : P .streams = true) (p_staged : P .staged = true) (p_gone : P .gone = true) : (State.letGo s p state st).Kept P b0 := by
  rw [State.letGo.eq_def]
  repeat' first
    | with_reducible first
      | assumption | apply State.put_kept | apply State.setMag_kept | apply State.stage_kept | apply State.setMagState_kept |
      apply State.showBnd_kept | apply State.loseTakes_kept | apply State.bndBit_kept | apply State.endOp_kept | apply State.failExtents_kept
    | split | dsimp only

theorem State.failPort_kept (s : State) (p : Nat)  (h_s : s.Kept P b0) (p_free : P .free = true) (p_bnd : P .bnd = true) (p_rgs : P .rgs = true) (p_harts : P .harts = true) (p_engines : P .engines = true) (p_mmu : P .mmu = true) (p_queues : P .queues = true) (p_cat : P .cat = true) (p_power : P .power = true) (p_pads : P .pads = true) (p_rings : P .rings = true) (p_vecs : P .vecs = true) (p_hostFn : P .hostFn = true) (p_streams : P .streams = true) (p_staged : P .staged = true) (p_gone : P .gone = true) : (State.failPort s p).Kept P b0 := by
  rw [State.failPort.eq_def]
  repeat' first
    | (with_reducible first | assumption | apply State.letGo_kept) | dsimp only

theorem execMagPresenceFall_kept (p : Nat) (m : Magazine) (s : State)  (h_s : s.Kept P b0) (p_bnd : P .bnd = true) (p_rings : P .rings = true) (p_staged : P .staged = true) : OutKept P b0 (execMagPresenceFall p m s) := by
  rw [execMagPresenceFall.eq_def]
  repeat' first
    | (with_reducible first | assumption | apply State.setMag_kept | apply State.stage_kept | apply OutKept.next) | split | dsimp only

theorem execMagPresenceAccept_kept (p : Nat) (s : State)  (h_s : s.Kept P b0) (p_bnd : P .bnd = true) (p_rings : P .rings = true) (p_staged : P .staged = true) : OutKept P b0 (execMagPresenceAccept p s) := by
  rw [execMagPresenceAccept.eq_def]
  repeat' first
    | (with_reducible first | assumption | apply State.setMag_kept | apply State.stage_kept | apply State.setMagState_kept | apply State.bndBit_kept | apply OutKept.next) | split | dsimp only

theorem execMagPerstRelease_kept (p : Nat) (s : State)  (h_s : s.Kept P b0) (p_bnd : P .bnd = true) (p_rings : P .rings = true) (p_staged : P .staged = true) : OutKept P b0 (execMagPerstRelease p s) := by
  rw [execMagPerstRelease.eq_def]
  repeat' first
    | (with_reducible first | assumption | apply State.setMag_kept | apply State.stage_kept | apply OutKept.next) | split | dsimp only

theorem execMagLinkUp_kept (p speed width : Nat) (s : State)  (h_s : s.Kept P b0) (p_free : P .free = true) (p_bnd : P .bnd = true) (p_rgs : P .rgs = true) (p_harts : P .harts = true) (p_engines : P .engines = true) (p_mmu : P .mmu = true) (p_queues : P .queues = true) (p_cat : P .cat = true) (p_power : P .power = true) (p_pads : P .pads = true) (p_rings : P .rings = true) (p_vecs : P .vecs = true) (p_hostFn : P .hostFn = true) (p_streams : P .streams = true) (p_staged : P .staged = true) (p_gone : P .gone = true) : OutKept P b0 (execMagLinkUp p speed width s) := by
  rw [execMagLinkUp.eq_def]
  repeat' first
    | with_reducible first
      | assumption | apply State.put_kept | apply State.setMag_kept | apply State.stage_kept | apply State.bndBit_kept | apply State.failPort_kept |
      apply OutKept.next
    | split | dsimp only

theorem execMagLinkTimeout_kept (p : Nat) (s : State)  (h_s : s.Kept P b0) (p_free : P .free = true) (p_bnd : P .bnd = true) (p_rgs : P .rgs = true) (p_harts : P .harts = true) (p_engines : P .engines = true) (p_mmu : P .mmu = true) (p_queues : P .queues = true) (p_cat : P .cat = true) (p_power : P .power = true) (p_pads : P .pads = true) (p_rings : P .rings = true) (p_vecs : P .vecs = true) (p_hostFn : P .hostFn = true) (p_streams : P .streams = true) (p_staged : P .staged = true) (p_gone : P .gone = true) : OutKept P b0 (execMagLinkTimeout p s) := by
  rw [execMagLinkTimeout.eq_def]
  repeat' first
    | (with_reducible first | assumption | apply State.setMag_kept | apply State.stage_kept | apply State.failPort_kept | apply OutKept.next) | split | dsimp only

theorem execMagControllerReady_kept (p : Nat) (s : State)  (h_s : s.Kept P b0) (p_free : P .free = true) (p_bnd : P .bnd = true) (p_rgs : P .rgs = true) (p_harts : P .harts = true) (p_engines : P .engines = true) (p_mmu : P .mmu = true) (p_queues : P .queues = true) (p_cat : P .cat = true) (p_power : P .power = true) (p_pads : P .pads = true) (p_rings : P .rings = true) (p_vecs : P .vecs = true) (p_hostFn : P .hostFn = true) (p_streams : P .streams = true) (p_staged : P .staged = true) (p_gone : P .gone = true) : OutKept P b0 (execMagControllerReady p s) := by
  rw [execMagControllerReady.eq_def]
  repeat' first
    | (with_reducible first | assumption | apply State.setMag_kept | apply State.stage_kept | apply State.issue_kept | apply State.failPort_kept | apply OutKept.next) | split | dsimp only

theorem State.resetController_kept (s : State) (p : Nat)  (h_s : s.Kept P b0) (p_free : P .free = true) (p_bnd : P .bnd = true) (p_rgs : P .rgs = true) (p_harts : P .harts = true) (p_engines : P .engines = true) (p_mmu : P .mmu = true) (p_queues : P .queues = true) (p_cat : P .cat = true) (p_power : P .power = true) (p_pads : P .pads = true) (p_rings : P .rings = true) (p_vecs : P .vecs = true) (p_hostFn : P .hostFn = true) (p_streams : P .streams = true) (p_staged : P .staged = true) (p_gone : P .gone = true) : (State.resetController s p).Kept P b0 := by
  rw [State.resetController.eq_def]
  repeat' first
    | (with_reducible first | assumption | apply State.setMag_kept | apply State.stage_kept | apply State.setMagState_kept | apply State.failPort_kept) | intro _ | split | dsimp only

theorem State.cmdFails_kept (s : State) (p k : Nat)  (h_s : s.Kept P b0) (p_free : P .free = true) (p_bnd : P .bnd = true) (p_rgs : P .rgs = true) (p_harts : P .harts = true) (p_engines : P .engines = true) (p_mmu : P .mmu = true) (p_queues : P .queues = true) (p_cat : P .cat = true) (p_power : P .power = true) (p_pads : P .pads = true) (p_rings : P .rings = true) (p_vecs : P .vecs = true) (p_hostFn : P .hostFn = true) (p_streams : P .streams = true) (p_staged : P .staged = true) (p_gone : P .gone = true) : (State.cmdFails s p k).Kept P b0 := by
  rw [State.cmdFails.eq_def]
  repeat' first
    | (with_reducible first | assumption | apply State.setMag_kept | apply State.report_kept | apply State.resetController_kept) | split | dsimp only

theorem execNvmeTimeout_kept (p k : Nat) (s : State)  (h_s : s.Kept P b0) (p_free : P .free = true) (p_bnd : P .bnd = true) (p_rgs : P .rgs = true) (p_harts : P .harts = true) (p_engines : P .engines = true) (p_mmu : P .mmu = true) (p_queues : P .queues = true) (p_cat : P .cat = true) (p_power : P .power = true) (p_pads : P .pads = true) (p_rings : P .rings = true) (p_vecs : P .vecs = true) (p_hostFn : P .hostFn = true) (p_streams : P .streams = true) (p_staged : P .staged = true) (p_gone : P .gone = true) : OutKept P b0 (execNvmeTimeout p k s) := by
  rw [execNvmeTimeout.eq_def]
  repeat' first
    | (with_reducible first | assumption | apply State.bump_kept | apply State.stage_kept | apply State.failPort_kept | apply State.cmdFails_kept | apply OutKept.next) | split | dsimp only

theorem State.volumeUp_kept (s : State) (p : Nat)  (h_s : s.Kept P b0) (p_bnd : P .bnd = true) (p_rings : P .rings = true) (p_staged : P .staged = true) : (State.volumeUp s p).Kept P b0 := by
  rw [State.volumeUp.eq_def]
  repeat' first
    | (with_reducible first | assumption | apply State.setMag_kept | apply State.stage_kept | apply State.setMagState_kept | apply State.showBnd_kept) | dsimp only

theorem State.identified_kept (s : State) (p : Nat)  (h_s : s.Kept P b0) (p_free : P .free = true) (p_bnd : P .bnd = true) (p_rgs : P .rgs = true) (p_harts : P .harts = true) (p_engines : P .engines = true) (p_mmu : P .mmu = true) (p_queues : P .queues = true) (p_cat : P .cat = true) (p_power : P .power = true) (p_pads : P .pads = true) (p_rings : P .rings = true) (p_vecs : P .vecs = true) (p_hostFn : P .hostFn = true) (p_streams : P .streams = true) (p_staged : P .staged = true) (p_gone : P .gone = true) : (State.identified s p).Kept P b0 := by
  rw [State.identified.eq_def]
  repeat' first
    | (with_reducible first | assumption | apply State.issue_kept | apply State.failPort_kept) | split | dsimp only

theorem State.vwcRead_kept (s : State) (p : Nat)  (h_s : s.Kept P b0) (p_bnd : P .bnd = true) : (State.vwcRead s p).Kept P b0 := by
  rw [State.vwcRead.eq_def]
  repeat' first
    | (with_reducible first | assumption | apply State.put_kept | apply State.issueN_kept) | split | dsimp only

theorem State.queuesMade_kept (s : State) (p : Nat)  (h_s : s.Kept P b0) (p_bnd : P .bnd = true) (p_rings : P .rings = true) (p_staged : P .staged = true) : (State.queuesMade s p).Kept P b0 := by
  rw [State.queuesMade.eq_def]
  repeat' first
    | (with_reducible first | assumption | apply State.setMag_kept | apply State.stage_kept | apply State.issue_kept) | split | dsimp only

theorem State.mounted_kept (s : State) (p : Nat)  (h_s : s.Kept P b0) (p_free : P .free = true) (p_bnd : P .bnd = true) (p_rgs : P .rgs = true) (p_harts : P .harts = true) (p_engines : P .engines = true) (p_mmu : P .mmu = true) (p_queues : P .queues = true) (p_cat : P .cat = true) (p_power : P .power = true) (p_pads : P .pads = true) (p_rings : P .rings = true) (p_vecs : P .vecs = true) (p_hostFn : P .hostFn = true) (p_streams : P .streams = true) (p_staged : P .staged = true) (p_gone : P .gone = true) : (State.mounted s p).Kept P b0 := by
  rw [State.mounted.eq_def]
  repeat' first
    | with_reducible first
      | assumption | apply State.put_kept | apply State.setMag_kept | apply State.stage_kept | apply State.setMagState_kept |
      apply State.showBnd_kept | apply State.issue_kept | apply State.startCkpt_kept | apply State.failPort_kept | apply State.volumeUp_kept
    | intro _ | split | dsimp only

theorem State.ckptDone_kept (s : State) (p : Nat) (w : CkptFor)  (h_s : s.Kept P b0) (p_free : P .free = true) (p_bnd : P .bnd = true) (p_rgs : P .rgs = true) (p_harts : P .harts = true) (p_engines : P .engines = true) (p_mmu : P .mmu = true) (p_queues : P .queues = true) (p_cat : P .cat = true) (p_power : P .power = true) (p_pads : P .pads = true) (p_rings : P .rings = true) (p_vecs : P .vecs = true) (p_hostFn : P .hostFn = true) (p_streams : P .streams = true) (p_staged : P .staged = true) (p_gone : P .gone = true) : (State.ckptDone s p w).Kept P b0 := by
  rw [State.ckptDone.eq_def]
  repeat' first
    | with_reducible first
      | assumption | apply State.setMag_kept | apply State.setTake_kept | apply State.takeStep_kept | apply State.endOp_kept |
      apply State.letGo_kept | apply State.volumeUp_kept
    | split | dsimp only

theorem State.ckptHeadDone_kept (s : State) (p : Nat)  (h_s : s.Kept P b0) (p_free : P .free = true) (p_bnd : P .bnd = true) (p_rgs : P .rgs = true) (p_harts : P .harts = true) (p_engines : P .engines = true) (p_mmu : P .mmu = true) (p_queues : P .queues = true) (p_cat : P .cat = true) (p_power : P .power = true) (p_pads : P .pads = true) (p_rings : P .rings = true) (p_vecs : P .vecs = true) (p_hostFn : P .hostFn = true) (p_streams : P .streams = true) (p_staged : P .staged = true) (p_gone : P .gone = true) : (State.ckptHeadDone s p).Kept P b0 := by
  rw [State.ckptHeadDone.eq_def]
  repeat' first
    | with_reducible first
      | assumption | apply State.setMag_kept | apply State.startCkpt_kept | apply State.ckptDone_kept | apply foldl_kept | apply foldl_kept1 |
      apply foldl_kept2
    | intro _ | split | dsimp only

theorem State.newVolume_kept (s : State) (nsze : Nat)  (h_s : s.Kept P b0) (p_bnd : P .bnd = true) : (State.newVolume s nsze).1.Kept P b0 := by
  refine P1Kept.kept ?_
  rw [State.newVolume.eq_def]
  repeat' first
    | simp only [State.kept_mk]
    | (with_reducible first | assumption | apply KeptF.u_bnd | apply P1Kept.mk1) | dsimp only

theorem State.formatStep_kept (s : State) (p step : Nat)  (h_s : s.Kept P b0) (p_bnd : P .bnd = true) (p_rings : P .rings = true) (p_staged : P .staged = true) : (State.formatStep s p step).Kept P b0 := by
  rw [State.formatStep.eq_def]
  repeat' first
    | with_reducible first
      | assumption | apply State.setMag_kept | apply State.stage_kept | apply State.setMagState_kept | apply State.showBnd_kept |
      apply State.issue_kept | apply State.endOp_kept
    | intro _ | split | dsimp only

theorem State.refuseCmd_kept (s : State) (p result : Nat)  (h_s : s.Kept P b0) : (State.refuseCmd s p result).Kept P b0 := by
  rw [State.refuseCmd.eq_def]
  repeat' first
    | (with_reducible first | assumption | apply State.put_kept) | split | dsimp only

theorem State.beginOp_kept (s : State) (p op : Nat)  (h_s : s.Kept P b0) (p_bnd : P .bnd = true) : (State.beginOp s p op).Kept P b0 := by
  rw [State.beginOp.eq_def]
  repeat' first
    | (with_reducible first | assumption | apply State.put_kept | apply State.setMag_kept) | split | dsimp only

theorem State.magCmd_kept (s : State) (p v : Nat)  (h_s : s.Kept P b0) (p_free : P .free = true) (p_bnd : P .bnd = true) (p_rgs : P .rgs = true) (p_harts : P .harts = true) (p_engines : P .engines = true) (p_mmu : P .mmu = true) (p_queues : P .queues = true) (p_cat : P .cat = true) (p_power : P .power = true) (p_pads : P .pads = true) (p_rings : P .rings = true) (p_vecs : P .vecs = true) (p_hostFn : P .hostFn = true) (p_streams : P .streams = true) (p_staged : P .staged = true) (p_gone : P .gone = true) : (State.magCmd s p v).Kept P b0 := by
  rw [State.magCmd.eq_def]
  repeat' first
    | with_reducible first
      | assumption | apply State.put_kept | apply State.setMag_kept | apply State.stage_kept | apply State.setMagState_kept |
      apply State.showBnd_kept | apply State.issue_kept | apply State.startCkpt_kept | apply State.journal_kept | apply State.ckptDone_kept |
      apply State.newVolume_kept | apply State.refuseCmd_kept | apply State.beginOp_kept | apply kept_of_eq1 (he := by assumption)
    | intro _ | split | dsimp only

theorem execFormat_kept (p key : Nat) (s : State)  (h_s : s.Kept P b0) (p_free : P .free = true) (p_bnd : P .bnd = true) (p_rgs : P .rgs = true) (p_harts : P .harts = true) (p_engines : P .engines = true) (p_mmu : P .mmu = true) (p_queues : P .queues = true) (p_cat : P .cat = true) (p_power : P .power = true) (p_pads : P .pads = true) (p_rings : P .rings = true) (p_vecs : P .vecs = true) (p_hostFn : P .hostFn = true) (p_streams : P .streams = true) (p_staged : P .staged = true) (p_gone : P .gone = true) : OutKept P b0 (execFormat p key s) := by
  rw [execFormat.eq_def]
  repeat' first
    | (with_reducible first | assumption | apply State.magCmd_kept | apply OutKept.next) | dsimp only

theorem execEject_kept (p key : Nat) (s : State)  (h_s : s.Kept P b0) (p_free : P .free = true) (p_bnd : P .bnd = true) (p_rgs : P .rgs = true) (p_harts : P .harts = true) (p_engines : P .engines = true) (p_mmu : P .mmu = true) (p_queues : P .queues = true) (p_cat : P .cat = true) (p_power : P .power = true) (p_pads : P .pads = true) (p_rings : P .rings = true) (p_vecs : P .vecs = true) (p_hostFn : P .hostFn = true) (p_streams : P .streams = true) (p_staged : P .staged = true) (p_gone : P .gone = true) : OutKept P b0 (execEject p key s) := by
  rw [execEject.eq_def]
  repeat' first
    | (with_reducible first | assumption | apply State.magCmd_kept | apply OutKept.next) | dsimp only

theorem execRescan_kept (p key : Nat) (s : State)  (h_s : s.Kept P b0) (p_free : P .free = true) (p_bnd : P .bnd = true) (p_rgs : P .rgs = true) (p_harts : P .harts = true) (p_engines : P .engines = true) (p_mmu : P .mmu = true) (p_queues : P .queues = true) (p_cat : P .cat = true) (p_power : P .power = true) (p_pads : P .pads = true) (p_rings : P .rings = true) (p_vecs : P .vecs = true) (p_hostFn : P .hostFn = true) (p_streams : P .streams = true) (p_staged : P .staged = true) (p_gone : P .gone = true) : OutKept P b0 (execRescan p key s) := by
  rw [execRescan.eq_def]
  repeat' first
    | (with_reducible first | assumption | apply State.magCmd_kept | apply OutKept.next) | dsimp only

theorem execDeleteTake_kept (p key : Nat) (s : State)  (h_s : s.Kept P b0) (p_free : P .free = true) (p_bnd : P .bnd = true) (p_rgs : P .rgs = true) (p_harts : P .harts = true) (p_engines : P .engines = true) (p_mmu : P .mmu = true) (p_queues : P .queues = true) (p_cat : P .cat = true) (p_power : P .power = true) (p_pads : P .pads = true) (p_rings : P .rings = true) (p_vecs : P .vecs = true) (p_hostFn : P .hostFn = true) (p_streams : P .streams = true) (p_staged : P .staged = true) (p_gone : P .gone = true) : OutKept P b0 (execDeleteTake p key s) := by
  rw [execDeleteTake.eq_def]
  repeat' first
    | (with_reducible first | assumption | apply State.magCmd_kept | apply OutKept.next) | dsimp only

theorem State.jobDone_kept (s : State) (p : Nat) (c : MagCmd) (reply : List Nat) (damage : Option (List Byte))  (h_s : s.Kept P b0) (p_dram : P .dram = true) (p_damage : P .damage = true) (p_host : P .host = true) (p_free : P .free = true) (p_answer : P .answer = true) (p_bnd : P .bnd = true) (p_rgs : P .rgs = true) (p_harts : P .harts = true) (p_engines : P .engines = true) (p_mmu : P .mmu = true) (p_queues : P .queues = true) (p_chans : P .chans = true) (p_cat : P .cat = true) (p_power : P .power = true) (p_pads : P .pads = true) (p_rings : P .rings = true) (p_vecs : P .vecs = true) (p_hostFn : P .hostFn = true) (p_streams : P .streams = true) (p_staged : P .staged = true) (p_gone : P .gone = true) : (State.jobDone s p c reply damage).Kept P b0 := by
  rw [State.jobDone.eq_def]
  repeat' first
    | with_reducible first
      | assumption | apply State.put_kept | apply State.reply_kept | apply State.issue_kept | apply State.startCkpt_kept |
      apply State.stampCommit_kept | apply State.writeClose_kept | apply State.durableOn_kept | apply State.takeStep_kept |
      apply State.openedOn_kept | apply State.markedOn_kept | apply State.recordWritten_kept | apply State.readBack_kept |
      apply State.extentRead_kept | apply State.identified_kept | apply State.vwcRead_kept | apply State.queuesMade_kept | apply State.mounted_kept
      | apply State.ckptHeadDone_kept | apply State.formatStep_kept
    | split | dsimp only

theorem execNvmeCompletion_kept (p k : Nat) (ok : Bool) (reply : List Nat) (damage : Option (List Byte)) (s : State)  (h_s : s.Kept P b0) (p_dram : P .dram = true) (p_damage : P .damage = true) (p_host : P .host = true) (p_free : P .free = true) (p_answer : P .answer = true) (p_bnd : P .bnd = true) (p_rgs : P .rgs = true) (p_harts : P .harts = true) (p_engines : P .engines = true) (p_mmu : P .mmu = true) (p_queues : P .queues = true) (p_chans : P .chans = true) (p_cat : P .cat = true) (p_power : P .power = true) (p_pads : P .pads = true) (p_rings : P .rings = true) (p_vecs : P .vecs = true) (p_hostFn : P .hostFn = true) (p_streams : P .streams = true) (p_staged : P .staged = true) (p_gone : P .gone = true) : OutKept P b0 (execNvmeCompletion p k ok reply damage s) := by
  rw [execNvmeCompletion.eq_def]
  repeat' first
    | with_reducible first
      | assumption | apply State.bump_kept | apply State.setMag_kept | apply State.reply_kept | apply State.nextRead_kept |
      apply State.cmdFails_kept | apply State.jobDone_kept | apply foldl_kept | apply foldl_kept1 | apply foldl_kept2 | apply OutKept.next
    | intro _ | split | dsimp only

theorem execHealthLogTimer_kept (p : Nat) (s : State)  (h_s : s.Kept P b0) (p_bnd : P .bnd = true) (p_rings : P .rings = true) (p_staged : P .staged = true) : OutKept P b0 (execHealthLogTimer p s) := by
  rw [execHealthLogTimer.eq_def]
  repeat' first
    | (with_reducible first | assumption | apply State.stage_kept | apply State.issue_kept | apply OutKept.next) | intro _ | split | dsimp only

theorem execMagRemoval_kept (p : Nat) (s : State)  (h_s : s.Kept P b0) (p_free : P .free = true) (p_bnd : P .bnd = true) (p_rgs : P .rgs = true) (p_harts : P .harts = true) (p_engines : P .engines = true) (p_mmu : P .mmu = true) (p_queues : P .queues = true) (p_cat : P .cat = true) (p_power : P .power = true) (p_pads : P .pads = true) (p_rings : P .rings = true) (p_vecs : P .vecs = true) (p_hostFn : P .hostFn = true) (p_streams : P .streams = true) (p_staged : P .staged = true) (p_gone : P .gone = true) : OutKept P b0 (execMagRemoval p s) := by
  rw [execMagRemoval.eq_def]
  repeat' first
    | (with_reducible first | assumption | apply State.setMag_kept | apply State.stage_kept | apply State.bndBit_kept | apply State.letGo_kept | apply OutKept.next) | split | dsimp only

theorem execMagLinkLoss_kept (p : Nat) (s : State)  (h_s : s.Kept P b0) (p_free : P .free = true) (p_bnd : P .bnd = true) (p_rgs : P .rgs = true) (p_harts : P .harts = true) (p_engines : P .engines = true) (p_mmu : P .mmu = true) (p_queues : P .queues = true) (p_cat : P .cat = true) (p_power : P .power = true) (p_pads : P .pads = true) (p_rings : P .rings = true) (p_vecs : P .vecs = true) (p_hostFn : P .hostFn = true) (p_streams : P .streams = true) (p_staged : P .staged = true) (p_gone : P .gone = true) : OutKept P b0 (execMagLinkLoss p s) := by
  rw [execMagLinkLoss.eq_def]
  repeat' first
    | (with_reducible first | assumption | apply State.stage_kept | apply State.letGo_kept | apply OutKept.next) | split | dsimp only

theorem State.magSleep_kept (s : State) (p : Nat)  (h_s : s.Kept P b0) (p_free : P .free = true) (p_bnd : P .bnd = true) (p_rgs : P .rgs = true) (p_harts : P .harts = true) (p_engines : P .engines = true) (p_mmu : P .mmu = true) (p_queues : P .queues = true) (p_cat : P .cat = true) (p_power : P .power = true) (p_pads : P .pads = true) (p_rings : P .rings = true) (p_vecs : P .vecs = true) (p_hostFn : P .hostFn = true) (p_streams : P .streams = true) (p_staged : P .staged = true) (p_gone : P .gone = true) : (State.magSleep s p).Kept P b0 := by
  rw [State.magSleep.eq_def]
  repeat' first
    | (with_reducible first | assumption | apply State.setMag_kept | apply State.bndBit_kept | apply State.letGo_kept) | dsimp only

theorem State.magAgain_kept (s : State) (p : Nat)  (h_s : s.Kept P b0) (p_bnd : P .bnd = true) (p_rings : P .rings = true) (p_staged : P .staged = true) : (State.magAgain s p).Kept P b0 := by
  rw [State.magAgain.eq_def]
  repeat' first
    | (with_reducible first | assumption | apply State.setMag_kept | apply State.stage_kept | apply State.setMagState_kept | apply State.bndBit_kept) | split | dsimp only

end Sys2Proof.Machine
end

