-- ==== Sys2Proof/Laws/KeptReset.lean ====
section
/-! SUPPORT. What the operations of Machine/Reset.lean keep (Laws/Kept.lean). -/

set_option linter.unusedTactic false
set_option linter.unreachableTactic false

namespace Sys2Proof.Machine

variable {P : Part → Bool} {b0 : State}

theorem State.safePads_kept (s : State)  (h_s : s.Kept P b0) (p_power : P .power = true) : (State.safePads s).Kept P b0 := by
  rw [State.safePads.eq_def]
  repeat' first
    | simp only [State.kept_mk]
    | (with_reducible first | assumption | apply KeptF.u_power | exact fun h => h) | dsimp only

theorem State.unpowered_kept (s : State) (aon : Bool)  (h_s : s.Kept P b0) : (State.unpowered s aon).Kept P b0 := by
  rw [State.unpowered.eq_def]
  repeat' first
    | simp only [State.kept_mk]
    | (with_reducible first | assumption | apply State.put_kept | apply KeptF.fresh) | rfl | split | dsimp only

theorem execPowerOn_kept (s : State)  (h_s : s.Kept P b0) : OutKept P b0 (execPowerOn s) := by
  rw [execPowerOn.eq_def]
  repeat' first
    | (with_reducible first | assumption | apply State.unpowered_kept | apply OutKept.next) | split | dsimp only

theorem execPowerDown_kept (s : State)  (h_s : s.Kept P b0) : OutKept P b0 (execPowerDown s) := by
  rw [execPowerDown.eq_def]
  repeat' first
    | (with_reducible first | assumption | apply State.unpowered_kept | apply OutKept.next) | dsimp only

theorem execSupplyFault_kept (s : State)  (h_s : s.Kept P b0) (p_power : P .power = true) : OutKept P b0 (execSupplyFault s) := by
  rw [execSupplyFault.eq_def]
  repeat' first
    | simp only [State.kept_mk]
    | (with_reducible first | assumption | apply State.requestReset_kept | apply State.safePads_kept | apply KeptF.u_power | exact fun h => h | apply OutKept.next) | split | dsimp only

theorem State.pulseTaken_kept (s : State) (ns : Nat)  (h_s : s.Kept P b0) (p_free : P .free = true) : (State.pulseTaken s ns).1.Kept P b0 := by
  refine P1Kept.kept ?_
  rw [State.pulseTaken.eq_def]
  repeat' first
    | (with_reducible first | assumption | apply State.draw_kept | apply P1Kept.mk1 | apply kept_of_eq2 (he := by assumption)) | split | dsimp only

theorem execSysResetN_kept (ns : Nat) (s : State)  (h_s : s.Kept P b0) (p_free : P .free = true) (p_power : P .power = true) : OutKept P b0 (execSysResetN ns s) := by
  rw [execSysResetN.eq_def]
  repeat' first
    | simp only [State.kept_mk]
    | with_reducible first
      | assumption | apply State.requestReset_kept | apply State.safePads_kept | apply State.pulseTaken_kept | apply KeptF.u_power |
      exact fun h => h | apply OutKept.next | apply kept_of_eq1 (he := by assumption)
    | split | dsimp only

theorem execPerstN_kept (ns : Nat) (s : State)  (h_s : s.Kept P b0) (p_free : P .free = true) (p_power : P .power = true) : OutKept P b0 (execPerstN ns s) := by
  rw [execPerstN.eq_def]
  repeat' first
    | simp only [State.kept_mk]
    | with_reducible first
      | assumption | apply State.requestReset_kept | apply State.safePads_kept | apply State.pulseTaken_kept | apply KeptF.u_power |
      exact fun h => h | apply OutKept.next | apply kept_of_eq1 (he := by assumption)
    | split | dsimp only

theorem execSysRefclkLost_kept (s : State)  (h_s : s.Kept P b0) (p_power : P .power = true) : OutKept P b0 (execSysRefclkLost s) := by
  rw [execSysRefclkLost.eq_def]
  repeat' first
    | simp only [State.kept_mk]
    | (with_reducible first | assumption | apply State.put_kept | apply KeptF.u_power | exact fun h => h | apply OutKept.next) | dsimp only

theorem execSysRefclkReturn_kept (s : State)  (h_s : s.Kept P b0) (p_power : P .power = true) : OutKept P b0 (execSysRefclkReturn s) := by
  rw [execSysRefclkReturn.eq_def]
  repeat' first
    | simp only [State.kept_mk]
    | (with_reducible first | assumption | apply State.put_kept | apply State.requestReset_kept | apply KeptF.u_power | exact fun h => h | apply OutKept.next) | split | dsimp only

theorem State.showSparePair_kept (s : State)  (h_s : s.Kept P b0) : (State.showSparePair s).Kept P b0 := by
  rw [State.showSparePair.eq_def]
  repeat' first
    | (with_reducible first | assumption | apply State.put_kept) | split | dsimp only

theorem State.beginStart_kept (s : State)  (h_s : s.Kept P b0) (p_keeper : P .keeper = true) (p_pads : P .pads = true) : (State.beginStart s).Kept P b0 := by
  rw [State.beginStart.eq_def]
  repeat' first
    | simp only [State.kept_mk]
    | (with_reducible first | assumption | apply State.put_kept | apply State.alertRise_kept | apply KeptF.u_keeper) | split | dsimp only

theorem State.applyDeny_kept (s : State)  (h_s : s.Kept P b0) : (State.applyDeny s).Kept P b0 := by
  rw [State.applyDeny.eq_def]
  repeat' first
    | (with_reducible first | assumption | apply State.wr_kept | apply foldl_kept | apply foldl_kept1 | apply foldl_kept2) | intro _ | dsimp only

theorem State.warmPace_kept (s : State)  (h_s : s.Kept P b0) (p_streams : P .streams = true) (p_staged : P .staged = true) (p_taking : P .taking = true) : (State.warmPace s).Kept P b0 := by
  rw [State.warmPace.eq_def]
  repeat' first
    | (with_reducible first | assumption | apply State.put_kept | apply State.rampDone_kept) | split | dsimp only

theorem execResetRelease_kept (s : State)  (hc : s.canon = true) (p_power : P .power = true) (p_keeper : P .keeper = true) (p_cons : P .cons = true) (p_pads : P .pads = true) (p_hostFn : P .hostFn = true) (p_streams : P .streams = true) (p_staged : P .staged = true) (p_taking : P .taking = true) : OutKept P s (execResetRelease s) := by
  have h_s : s.Kept P s := .refl hc
  rw [execResetRelease.eq_def]
  repeat' first
    | simp only [State.kept_mk]
    | with_reducible first
      | assumption | apply State.put_kept | apply State.consResume_kept | apply State.safePads_kept | apply State.showSparePair_kept |
      apply State.beginStart_kept | apply State.applyDeny_kept | apply State.warmPace_kept | apply foldl_kept | apply foldl_kept1 |
      apply foldl_kept2 | apply KeptF.release | exact fun h => h | apply OutKept.next
    | intro _ | split | dsimp only

theorem State.keyErr_kept (s : State)  (h_s : s.Kept P b0) (p_power : P .power = true) : (State.keyErr s).Kept P b0 := by
  rw [State.keyErr.eq_def]
  repeat' first
    | simp only [State.kept_mk]
    | (with_reducible first | assumption | apply State.bump_kept | apply KeptF.u_power | exact fun h => h) | split | dsimp only

theorem execRstKey_kept (v : Nat) (s : State)  (h_s : s.Kept P b0) (p_power : P .power = true) : OutKept P b0 (execRstKey v s) := by
  rw [execRstKey.eq_def]
  repeat' first
    | simp only [State.kept_mk]
    | (with_reducible first | assumption | apply State.keyErr_kept | apply KeptF.u_power | exact fun h => h | apply OutKept.next) | intro _ | split | dsimp only

theorem State.rstCmd_kept (s : State) (key2 : Nat)  (h_s : s.Kept P b0) (p_power : P .power = true) : (State.rstCmd s key2).1.Kept P b0 := by
  refine P1Kept.kept ?_
  rw [State.rstCmd.eq_def]
  repeat' first
    | simp only [State.kept_mk]
    | (with_reducible first | assumption | apply State.keyErr_kept | apply KeptF.u_power | exact fun h => h | apply P1Kept.mk1) | split | dsimp only

theorem execColdResetCommand_kept (key2 : Nat) (s : State)  (h_s : s.Kept P b0) (p_power : P .power = true) : OutKept P b0 (execColdResetCommand key2 s) := by
  rw [execColdResetCommand.eq_def]
  repeat' first
    | (with_reducible first | assumption | apply State.requestReset_kept | apply State.rstCmd_kept | apply OutKept.next | apply kept_of_eq1 (he := by assumption)) | split | dsimp only

theorem execWarmResetCommand_kept (key2 : Nat) (s : State)  (h_s : s.Kept P b0) (p_power : P .power = true) : OutKept P b0 (execWarmResetCommand key2 s) := by
  rw [execWarmResetCommand.eq_def]
  repeat' first
    | (with_reducible first | assumption | apply State.requestReset_kept | apply State.rstCmd_kept | apply OutKept.next | apply kept_of_eq1 (he := by assumption)) | split | dsimp only

theorem State.stopUnit_kept (s : State) (u : Nat)  (h_s : s.Kept P b0) (p_free : P .free = true) (p_net : P .net = true) (p_bnd : P .bnd = true) (p_rgs : P .rgs = true) (p_harts : P .harts = true) (p_engines : P .engines = true) (p_mmu : P .mmu = true) (p_queues : P .queues = true) (p_cat : P .cat = true) (p_power : P .power = true) (p_pads : P .pads = true) (p_rings : P .rings = true) (p_vecs : P .vecs = true) (p_hostFn : P .hostFn = true) (p_streams : P .streams = true) (p_staged : P .staged = true) (p_gone : P .gone = true) : (State.stopUnit s u).Kept P b0 := by
  rw [State.stopUnit.eq_def]
  repeat' first
    | with_reducible first
      | assumption | apply State.put_kept | apply State.setEngine_kept | apply State.onPic_kept | apply State.loseWork_kept |
      apply State.fenceStacks_kept | apply State.dropFaults_kept | apply State.abandon_kept | apply State.sensorLoss_kept | apply State.netFall_kept
      | apply State.stage_kept | apply State.letGo_kept | apply State.showSparePair_kept
    | intro _ | split | dsimp only

theorem execUnitReset_kept (key2 u : Nat) (s : State)  (h_s : s.Kept P b0) (p_free : P .free = true) (p_net : P .net = true) (p_bnd : P .bnd = true) (p_rgs : P .rgs = true) (p_harts : P .harts = true) (p_engines : P .engines = true) (p_mmu : P .mmu = true) (p_queues : P .queues = true) (p_cat : P .cat = true) (p_power : P .power = true) (p_pads : P .pads = true) (p_rings : P .rings = true) (p_vecs : P .vecs = true) (p_hostFn : P .hostFn = true) (p_streams : P .streams = true) (p_staged : P .staged = true) (p_gone : P .gone = true) : OutKept P b0 (execUnitReset key2 u s) := by
  rw [execUnitReset.eq_def]
  repeat' first
    | simp only [State.kept_mk]
    | with_reducible first
      | assumption | apply State.put_kept | apply State.report_kept | apply State.rstCmd_kept | apply State.stopUnit_kept | apply KeptF.u_power |
      exact fun h => h | apply OutKept.next | apply kept_of_eq1 (he := by assumption)
    | split | dsimp only

theorem State.returnEngine_kept (s : State) (i : Nat)  (h_s : s.Kept P b0) (p_gone : P .gone = true) : (State.returnEngine s i).Kept P b0 := by
  rw [State.returnEngine.eq_def]
  repeat' first
    | simp only [State.kept_mk]
    | (with_reducible first | assumption | apply State.put_kept | apply State.showSpares_kept | apply State.showLedger_kept | apply KeptF.u_gone) | split | dsimp only

theorem execUnitResetDone_kept (s : State)  (h_s : s.Kept P b0) (p_bnd : P .bnd = true) (p_engines : P .engines = true) (p_power : P .power = true) (p_rings : P .rings = true) (p_staged : P .staged = true) (p_gone : P .gone = true) : OutKept P b0 (execUnitResetDone s) := by
  rw [execUnitResetDone.eq_def]
  repeat' first
    | simp only [State.kept_mk]
    | with_reducible first
      | assumption | apply State.put_kept | apply State.putBit_kept | apply State.loadStore_kept | apply State.topSpares_kept |
      apply State.magAgain_kept | apply State.showSparePair_kept | apply State.returnEngine_kept | apply KeptF.u_power | exact fun h => h |
      apply OutKept.next
    | split | dsimp only

theorem State.setDomain_kept (s : State) (d : Nat) (v : Bool)  (h_s : s.Kept P b0) : (State.setDomain s d v).Kept P b0 := by
  rw [State.setDomain.eq_def]
  repeat' first
    | (with_reducible first | assumption | apply State.bump_kept | apply State.putBit_kept) | split | dsimp only

theorem State.domainOff_kept (s : State) (d : Nat)  (h_s : s.Kept P b0) (p_free : P .free = true) (p_net : P .net = true) (p_bnd : P .bnd = true) (p_rgs : P .rgs = true) (p_harts : P .harts = true) (p_engines : P .engines = true) (p_mmu : P .mmu = true) (p_queues : P .queues = true) (p_cat : P .cat = true) (p_power : P .power = true) (p_pads : P .pads = true) (p_rings : P .rings = true) (p_vecs : P .vecs = true) (p_hostFn : P .hostFn = true) (p_streams : P .streams = true) (p_staged : P .staged = true) (p_gone : P .gone = true) : (State.domainOff s d).Kept P b0 := by
  rw [State.domainOff.eq_def]
  repeat' first
    | with_reducible first
      | assumption | apply State.put_kept | apply State.setEngine_kept | apply State.portLp_kept | apply State.netFall_kept | apply State.stage_kept
      | apply State.magSleep_kept | apply State.setDomain_kept
    | split | dsimp only

theorem State.domainUp_kept (s : State) (d : Nat)  (h_s : s.Kept P b0) (p_engines : P .engines = true) : (State.domainUp s d).Kept P b0 := by
  rw [State.domainUp.eq_def]
  repeat' first
    | (with_reducible first | assumption | apply State.put_kept | apply State.loadStore_kept | apply State.topSpares_kept | apply State.setDomain_kept) | split | dsimp only

theorem State.refuseDomain_kept (s : State) (d reason : Nat)  (h_s : s.Kept P b0) : (State.refuseDomain s d reason).Kept P b0 := by
  rw [State.refuseDomain.eq_def]
  repeat' first
    | (with_reducible first | assumption | apply State.put_kept) | dsimp only

theorem State.requestDomain_kept (s : State) (d : Nat) (v : Bool)  (h_s : s.Kept P b0) (p_free : P .free = true) (p_net : P .net = true) (p_bnd : P .bnd = true) (p_rgs : P .rgs = true) (p_harts : P .harts = true) (p_engines : P .engines = true) (p_mmu : P .mmu = true) (p_queues : P .queues = true) (p_cat : P .cat = true) (p_power : P .power = true) (p_pads : P .pads = true) (p_rings : P .rings = true) (p_vecs : P .vecs = true) (p_hostFn : P .hostFn = true) (p_streams : P .streams = true) (p_staged : P .staged = true) (p_gone : P .gone = true) : (State.requestDomain s d v).Kept P b0 := by
  rw [State.requestDomain.eq_def]
  repeat' first
    | (with_reducible first | assumption | apply State.putBit_kept | apply State.domainOff_kept | apply State.refuseDomain_kept) | split | dsimp only

theorem execPdReqWrite_kept (byHost : Bool) (k v : Nat) (s : State)  (h_s : s.Kept P b0) (p_free : P .free = true) (p_net : P .net = true) (p_bnd : P .bnd = true) (p_rgs : P .rgs = true) (p_harts : P .harts = true) (p_engines : P .engines = true) (p_mmu : P .mmu = true) (p_queues : P .queues = true) (p_cat : P .cat = true) (p_power : P .power = true) (p_pads : P .pads = true) (p_rings : P .rings = true) (p_vecs : P .vecs = true) (p_hostFn : P .hostFn = true) (p_streams : P .streams = true) (p_staged : P .staged = true) (p_gone : P .gone = true) : OutKept P b0 (execPdReqWrite byHost k v s) := by
  rw [execPdReqWrite.eq_def]
  repeat' first
    | (with_reducible first | assumption | apply State.requestDomain_kept | apply foldl_kept | apply foldl_kept1 | apply foldl_kept2 | apply OutKept.next) | intro _ | split | dsimp only

theorem execDomainOnDone_kept (d : Nat) (s : State)  (h_s : s.Kept P b0) (p_engines : P .engines = true) : OutKept P b0 (execDomainOnDone d s) := by
  rw [execDomainOnDone.eq_def]
  repeat' first
    | (with_reducible first | assumption | apply State.domainUp_kept | apply OutKept.next) | split | dsimp only

end Sys2Proof.Machine
end

