-- ==== Sys2Proof/Laws/KeptSleep.lean ====
section
/-! SUPPORT. What the operations of Machine/Sleep.lean keep (Laws/Kept.lean). -/

set_option linter.unusedTactic false
set_option linter.unreachableTactic false

namespace Sys2Proof.Machine

variable {P : Part → Bool} {b0 : State}

theorem State.sleepRequest_kept (s : State) (req key : Nat)  (h_s : s.Kept P b0) (p_power : P .power = true) (p_pads : P .pads = true) : (State.sleepRequest s req key).Kept P b0 := by
  rw [State.sleepRequest.eq_def]
  repeat' first
    | simp only [State.kept_mk]
    | (with_reducible first | assumption | apply State.put_kept | apply State.sleepEnd_kept | apply State.unwind_kept | apply KeptF.u_power | exact fun h => h) | split | dsimp only

theorem execSleepStandby_kept (key : Nat) (s : State)  (h_s : s.Kept P b0) (p_power : P .power = true) (p_pads : P .pads = true) : OutKept P b0 (execSleepStandby key s) := by
  rw [execSleepStandby.eq_def]
  repeat' first
    | (with_reducible first | assumption | apply State.sleepRequest_kept | apply OutKept.next) | dsimp only

theorem execSleepVault_kept (key : Nat) (s : State)  (h_s : s.Kept P b0) (p_power : P .power = true) (p_pads : P .pads = true) : OutKept P b0 (execSleepVault key s) := by
  rw [execSleepVault.eq_def]
  repeat' first
    | (with_reducible first | assumption | apply State.sleepRequest_kept | apply OutKept.next) | dsimp only

theorem State.domainsOff_kept (s : State) (lo n : Nat)  (h_s : s.Kept P b0) (p_free : P .free = true) (p_net : P .net = true) (p_bnd : P .bnd = true) (p_rgs : P .rgs = true) (p_harts : P .harts = true) (p_engines : P .engines = true) (p_mmu : P .mmu = true) (p_queues : P .queues = true) (p_cat : P .cat = true) (p_power : P .power = true) (p_pads : P .pads = true) (p_rings : P .rings = true) (p_vecs : P .vecs = true) (p_hostFn : P .hostFn = true) (p_streams : P .streams = true) (p_staged : P .staged = true) (p_gone : P .gone = true) : (State.domainsOff s lo n).Kept P b0 := by
  rw [State.domainsOff.eq_def]
  repeat' first
    | (with_reducible first | assumption | apply State.domainOff_kept | apply foldl_kept | apply foldl_kept1 | apply foldl_kept2) | intro _ | split | dsimp only

theorem State.domainsBack_kept (s : State) (lo n : Nat)  (h_s : s.Kept P b0) (p_engines : P .engines = true) : (State.domainsBack s lo n).Kept P b0 := by
  rw [State.domainsBack.eq_def]
  repeat' first
    | (with_reducible first | assumption | apply State.domainUp_kept | apply foldl_kept | apply foldl_kept1 | apply foldl_kept2) | intro _ | split | dsimp only

theorem State.portsOff_kept (s : State)  (h_s : s.Kept P b0) (p_free : P .free = true) (p_net : P .net = true) (p_bnd : P .bnd = true) (p_rgs : P .rgs = true) (p_harts : P .harts = true) (p_engines : P .engines = true) (p_mmu : P .mmu = true) (p_queues : P .queues = true) (p_cat : P .cat = true) (p_power : P .power = true) (p_pads : P .pads = true) (p_rings : P .rings = true) (p_vecs : P .vecs = true) (p_hostFn : P .hostFn = true) (p_streams : P .streams = true) (p_staged : P .staged = true) (p_tripped : P .tripped = true) (p_gone : P .gone = true) : (State.portsOff s).Kept P b0 := by
  rw [State.portsOff.eq_def]
  repeat' first
    | with_reducible first
      | assumption | apply State.showHold_kept | apply State.stage_kept | apply State.magSleep_kept | apply State.domainsOff_kept | apply foldl_kept
      | apply foldl_kept1 | apply foldl_kept2
    | intro _ | split | dsimp only

theorem State.haltHart_kept (s : State) (h : Nat) (ops : List CoreOp)  (h_s : s.Kept P b0) (p_dram : P .dram = true) (p_damage : P .damage = true) (p_host : P .host = true) (p_free : P .free = true) (p_rgs : P .rgs = true) (p_harts : P .harts = true) (p_engines : P .engines = true) (p_mmu : P .mmu = true) (p_queues : P .queues = true) (p_chans : P .chans = true) (p_cat : P .cat = true) (p_power : P .power = true) (p_pads : P .pads = true) (p_rings : P .rings = true) (p_vecs : P .vecs = true) (p_hostFn : P .hostFn = true) (p_streams : P .streams = true) (p_gone : P .gone = true) : (State.haltHart s h ops).Kept P b0 := by
  rw [State.haltHart.eq_def]
  repeat' first
    | (with_reducible first | assumption | apply State.setHart_kept | apply State.coreRun_kept | apply State.checkpoint_kept) | split | dsimp only

theorem State.curatorsOff_kept (s : State) (ops : List (List CoreOp))  (h_s : s.Kept P b0) (p_dram : P .dram = true) (p_damage : P .damage = true) (p_host : P .host = true) (p_free : P .free = true) (p_net : P .net = true) (p_bnd : P .bnd = true) (p_rgs : P .rgs = true) (p_harts : P .harts = true) (p_engines : P .engines = true) (p_mmu : P .mmu = true) (p_queues : P .queues = true) (p_chans : P .chans = true) (p_cat : P .cat = true) (p_power : P .power = true) (p_pads : P .pads = true) (p_rings : P .rings = true) (p_vecs : P .vecs = true) (p_hostFn : P .hostFn = true) (p_streams : P .streams = true) (p_staged : P .staged = true) (p_gone : P .gone = true) : (State.curatorsOff s ops).Kept P b0 := by
  rw [State.curatorsOff.eq_def]
  repeat' first
    | (with_reducible first | assumption | apply State.domainsOff_kept | apply State.haltHart_kept | apply foldl_kept | apply foldl_kept1 | apply foldl_kept2) | intro _ | dsimp only

theorem State.selfRefresh_kept (s : State)  (h_s : s.Kept P b0) (p_dram : P .dram = true) (p_damage : P .damage = true) (p_engines : P .engines = true) (p_chans : P .chans = true) (p_cons : P .cons = true) : (State.selfRefresh s).Kept P b0 := by
  rw [State.selfRefresh.eq_def]
  repeat' first
    | simp only [State.kept_mk]
    | with_reducible first
      | assumption | apply State.put_kept | apply State.setChan_kept | apply State.landWrite_kept | apply State.showRamp_kept | apply foldl_kept |
      apply foldl_kept1 | apply foldl_kept2 | apply KeptF.u_cons
    | intro _ | dsimp only

theorem State.vaultWipe_kept (s : State)  (h_s : s.Kept P b0) (p_net : P .net = true) (p_rgs : P .rgs = true) (p_harts : P .harts = true) (p_engines : P .engines = true) (p_mmu : P .mmu = true) (p_dma : P .dma = true) (p_levels : P .levels = true) (p_queues : P .queues = true) (p_pools : P .pools = true) (p_orphans : P .orphans = true) (p_chans : P .chans = true) (p_scrub : P .scrub = true) (p_cat : P .cat = true) (p_cons : P .cons = true) (p_rings : P .rings = true) (p_vecs : P .vecs = true) (p_hostFn : P .hostFn = true) (p_streams : P .streams = true) (p_staged : P .staged = true) (p_taking : P .taking = true) (p_tripped : P .tripped = true) (p_gone : P .gone = true) : (State.vaultWipe s).Kept P b0 := by
  rw [State.vaultWipe.eq_def]
  repeat' first
    | simp only [State.kept_mk]
    | with_reducible first
      | assumption | apply State.put_kept | apply State.putBit_kept | apply State.setHart_kept | apply foldl_kept | apply foldl_kept1 |
      apply foldl_kept2 | apply KeptF.vault
    | intro _ | split | dsimp only

theorem execSleepStepDone_kept (ops : List (List CoreOp)) (s : State)  (h_s : s.Kept P b0) (p_dram : P .dram = true) (p_damage : P .damage = true) (p_host : P .host = true) (p_free : P .free = true) (p_net : P .net = true) (p_bnd : P .bnd = true) (p_rgs : P .rgs = true) (p_harts : P .harts = true) (p_engines : P .engines = true) (p_mmu : P .mmu = true) (p_dma : P .dma = true) (p_levels : P .levels = true) (p_queues : P .queues = true) (p_pools : P .pools = true) (p_orphans : P .orphans = true) (p_chans : P .chans = true) (p_scrub : P .scrub = true) (p_cat : P .cat = true) (p_power : P .power = true) (p_cons : P .cons = true) (p_pads : P .pads = true) (p_rings : P .rings = true) (p_vecs : P .vecs = true) (p_hostFn : P .hostFn = true) (p_streams : P .streams = true) (p_staged : P .staged = true) (p_taking : P .taking = true) (p_tripped : P .tripped = true) (p_gone : P .gone = true) : OutKept P b0 (execSleepStepDone ops s) := by
  rw [execSleepStepDone.eq_def]
  repeat' first
    | simp only [State.kept_mk]
    | with_reducible first
      | assumption | apply State.put_kept | apply State.unwind_kept | apply State.domainsOff_kept | apply State.portsOff_kept |
      apply State.curatorsOff_kept | apply State.selfRefresh_kept | apply State.vaultWipe_kept | apply KeptF.u_power | apply KeptF.u_power_hostFn |
      exact fun h => h | apply OutKept.next
    | intro _ | split | dsimp only

theorem execPmeTurnOff_kept (s : State)  (h_s : s.Kept P b0) (p_power : P .power = true) (p_hostFn : P .hostFn = true) : OutKept P b0 (execPmeTurnOff s) := by
  rw [execPmeTurnOff.eq_def]
  repeat' first
    | simp only [State.kept_mk]
    | (with_reducible first | assumption | apply KeptF.u_power_hostFn | exact fun h => h | apply OutKept.next) | split | dsimp only

theorem execL2Timeout_kept (s : State)  (h_s : s.Kept P b0) (p_power : P .power = true) : OutKept P b0 (execL2Timeout s) := by
  rw [execL2Timeout.eq_def]
  repeat' first
    | (with_reducible first | assumption | apply State.unwind_kept | apply OutKept.next) | split | dsimp only

theorem State.linkBack_kept (s : State)  (h_s : s.Kept P b0) (p_power : P .power = true) (p_hostFn : P .hostFn = true) : (State.linkBack s).Kept P b0 := by
  rw [State.linkBack.eq_def]
  repeat' first
    | simp only [State.kept_mk]
    | (with_reducible first | assumption | apply KeptF.u_power_hostFn | exact fun h => h) | dsimp only

theorem State.tryLink_kept (s : State)  (h_s : s.Kept P b0) (p_power : P .power = true) (p_hostFn : P .hostFn = true) : (State.tryLink s).Kept P b0 := by
  rw [State.tryLink.eq_def]
  repeat' first
    | (with_reducible first | assumption | apply State.linkBack_kept) | split | dsimp only

theorem State.perstUp_kept (s : State)  (h_s : s.Kept P b0) (p_power : P .power = true) (p_hostFn : P .hostFn = true) : (State.perstUp s).Kept P b0 := by
  rw [State.perstUp.eq_def]
  repeat' first
    | simp only [State.kept_mk]
    | (with_reducible first | assumption | apply State.linkBack_kept | apply KeptF.u_power | exact fun h => h) | split | dsimp only

theorem execWakeEvent_kept (src : Nat) (s : State)  (h_s : s.Kept P b0) (p_power : P .power = true) (p_hostFn : P .hostFn = true) : OutKept P b0 (execWakeEvent src s) := by
  rw [execWakeEvent.eq_def]
  repeat' first
    | (with_reducible first | assumption | apply State.wakeEvent_kept | apply State.perstUp_kept | apply OutKept.next) | split | dsimp only

theorem State.hartsBack_kept (s : State)  (h_s : s.Kept P b0) (p_harts : P .harts = true) : (State.hartsBack s).Kept P b0 := by
  rw [State.hartsBack.eq_def]
  repeat' first
    | (with_reducible first | assumption | apply State.setHart_kept | apply State.loadSave_kept | apply foldl_kept | apply foldl_kept1 | apply foldl_kept2) | intro _ | split | dsimp only

theorem State.curatorsOn_kept (s : State)  (h_s : s.Kept P b0) (p_harts : P .harts = true) (p_engines : P .engines = true) : (State.curatorsOn s).Kept P b0 := by
  rw [State.curatorsOn.eq_def]
  repeat' first
    | (with_reducible first | assumption | apply State.showSparePair_kept | apply State.domainsBack_kept | apply State.hartsBack_kept) | dsimp only

theorem State.portsOn_kept (s : State)  (h_s : s.Kept P b0) (p_bnd : P .bnd = true) (p_engines : P .engines = true) (p_rings : P .rings = true) (p_staged : P .staged = true) : (State.portsOn s).Kept P b0 := by
  rw [State.portsOn.eq_def]
  repeat' first
    | with_reducible first
      | assumption | apply State.stage_kept | apply State.magAgain_kept | apply State.domainsBack_kept | apply foldl_kept | apply foldl_kept1 |
      apply foldl_kept2
    | intro _ | split | dsimp only

theorem State.unwound_kept (s : State) (cause : Option Nat) (req : Nat)  (h_s : s.Kept P b0) (p_power : P .power = true) (p_pads : P .pads = true) (p_rings : P .rings = true) : (State.unwound s cause req).Kept P b0 := by
  rw [State.unwound.eq_def]
  repeat' first
    | simp only [State.kept_mk]
    | with_reducible first
      | assumption | apply State.put_kept | apply State.sleepEnd_kept | apply State.unwind_kept | apply State.keptDoorbells_kept |
      apply KeptF.u_power | exact fun h => h
    | split | dsimp only

theorem State.undo_kept (s : State) (cause : Option Nat) (req k : Nat)  (h_s : s.Kept P b0) (p_bnd : P .bnd = true) (p_harts : P .harts = true) (p_engines : P .engines = true) (p_power : P .power = true) (p_pads : P .pads = true) (p_rings : P .rings = true) (p_hostFn : P .hostFn = true) (p_staged : P .staged = true) : (State.undo s cause req k).Kept P b0 := by
  rw [State.undo.eq_def]
  repeat' first
    | simp only [State.kept_mk]
    | with_reducible first
      | assumption | apply State.unwind_kept | apply State.domainsBack_kept | apply State.tryLink_kept | apply State.curatorsOn_kept |
      apply State.portsOn_kept | apply State.unwound_kept | apply KeptF.u_power | exact fun h => h
    | intro _ | split | dsimp only

theorem State.coreBack_kept (s : State)  (h_s : s.Kept P b0) (p_cons : P .cons = true) : (State.coreBack s).Kept P b0 := by
  rw [State.coreBack.eq_def]
  repeat' first
    | (with_reducible first | assumption | apply State.putBit_kept | apply State.consResume_kept | apply foldl_kept | apply foldl_kept1 | apply foldl_kept2) | intro _ | dsimp only

theorem State.secureBytes_kept (s : State)  (h_s : s.Kept P b0) (p_free : P .free = true) (p_rgs : P .rgs = true) (p_harts : P .harts = true) (p_engines : P .engines = true) (p_mmu : P .mmu = true) (p_queues : P .queues = true) (p_cat : P .cat = true) (p_power : P .power = true) (p_pads : P .pads = true) (p_rings : P .rings = true) (p_vecs : P .vecs = true) (p_hostFn : P .hostFn = true) (p_streams : P .streams = true) (p_gone : P .gone = true) : (State.secureBytes s).1.Kept P b0 := by
  refine P1Kept.kept ?_
  rw [State.secureBytes.eq_def]
  repeat' first
    | with_reducible first
      | assumption | apply State.readMem_kept | apply foldl_kept | apply foldl_kept1 | apply foldl_kept2 | apply P1Kept.mk1 |
      apply kept_of_eq1 (he := by assumption)
    | intro _ | dsimp only

theorem State.wakeToStart_kept (s : State) (src : Nat)  (h_s : s.Kept P b0) (p_harts : P .harts = true) (p_copyCar : P .copyCar = true) (p_copyScb : P .copyScb = true) (p_cat : P .cat = true) (p_power : P .power = true) (p_keeper : P .keeper = true) (p_pads : P .pads = true) (p_hostFn : P .hostFn = true) : (State.wakeToStart s src).Kept P b0 := by
  rw [State.wakeToStart.eq_def]
  repeat' first
    | simp only [State.kept_mk]
    | with_reducible first
      | assumption | apply State.put_kept | apply State.putBit_kept | apply State.sleepEnd_kept | apply State.advance_kept |
      apply State.beginStart_kept | apply State.tryLink_kept | apply KeptF.keepRegs | apply KeptF.u_harts_copyCar_copyScb_cat_power_keeper |
      exact fun h => h
    | intro _ | split | dsimp only

theorem State.woken_kept (s : State) (src : Nat) (vault : Bool) (t : Nat)  (h_s : s.Kept P b0) (p_power : P .power = true) (p_pads : P .pads = true) (p_rings : P .rings = true) (p_hostFn : P .hostFn = true) : (State.woken s src vault t).Kept P b0 := by
  rw [State.woken.eq_def]
  repeat' first
    | simp only [State.kept_mk]
    | with_reducible first
      | assumption | apply State.put_kept | apply State.sleepEnd_kept | apply State.keptDoorbells_kept | apply KeptF.u_power_hostFn |
      exact fun h => h
    | split | dsimp only

theorem State.wakeStep_kept (s : State) (src : Nat) (vault : Bool) (k t : Nat)  (h_s : s.Kept P b0) (p_free : P .free = true) (p_bnd : P .bnd = true) (p_rgs : P .rgs = true) (p_harts : P .harts = true) (p_engines : P .engines = true) (p_copyCar : P .copyCar = true) (p_copyScb : P .copyScb = true) (p_mmu : P .mmu = true) (p_queues : P .queues = true) (p_cat : P .cat = true) (p_power : P .power = true) (p_keeper : P .keeper = true) (p_cons : P .cons = true) (p_pads : P .pads = true) (p_rings : P .rings = true) (p_vecs : P .vecs = true) (p_hostFn : P .hostFn = true) (p_streams : P .streams = true) (p_staged : P .staged = true) (p_gone : P .gone = true) : (State.wakeStep s src vault k t).Kept P b0 := by
  rw [State.wakeStep.eq_def]
  repeat' first
    | simp only [State.kept_mk]
    | with_reducible first
      | assumption | apply State.putBit_kept | apply State.domainsBack_kept | apply State.tryLink_kept | apply State.curatorsOn_kept |
      apply State.portsOn_kept | apply State.coreBack_kept | apply State.secureBytes_kept | apply State.wakeToStart_kept | apply State.woken_kept |
      apply KeptF.u_power | exact fun h => h | apply kept_of_eq1 (he := by assumption)
    | intro _ | split | dsimp only

theorem execWakeStepDone_kept (s : State)  (h_s : s.Kept P b0) (p_free : P .free = true) (p_bnd : P .bnd = true) (p_rgs : P .rgs = true) (p_harts : P .harts = true) (p_engines : P .engines = true) (p_copyCar : P .copyCar = true) (p_copyScb : P .copyScb = true) (p_mmu : P .mmu = true) (p_queues : P .queues = true) (p_cat : P .cat = true) (p_power : P .power = true) (p_keeper : P .keeper = true) (p_cons : P .cons = true) (p_pads : P .pads = true) (p_rings : P .rings = true) (p_vecs : P .vecs = true) (p_hostFn : P .hostFn = true) (p_streams : P .streams = true) (p_staged : P .staged = true) (p_gone : P .gone = true) : OutKept P b0 (execWakeStepDone s) := by
  rw [execWakeStepDone.eq_def]
  repeat' first
    | (with_reducible first | assumption | apply State.unwind_kept | apply State.undo_kept | apply State.wakeStep_kept | apply OutKept.next) | split | dsimp only

end Sys2Proof.Machine
end

