-- ==== Sys2Proof/Laws/KeptKeeper.lean ====
section
/-! SUPPORT. What the operations of Machine/Keeper.lean keep (Laws/Kept.lean). -/

set_option linter.unusedTactic false
set_option linter.unreachableTactic false

namespace Sys2Proof.Machine

variable {P : Part → Bool} {b0 : State}

theorem State.putWords_kept (s : State) (base : Nat) (l : List Nat)  (h_s : s.Kept P b0) : (State.putWords s base l).Kept P b0 := by
  rw [State.putWords.eq_def]
  repeat' first
    | (with_reducible first | assumption | apply State.wr_kept | apply foldl_kept | apply foldl_kept1 | apply foldl_kept2) | intro _ | dsimp only

theorem State.showCounter_kept (s : State)  (h_s : s.Kept P b0) : (State.showCounter s).Kept P b0 := by
  rw [State.showCounter.eq_def]
  repeat' first
    | (with_reducible first | assumption | apply State.wr_kept | apply State.putPair_kept) | dsimp only

theorem State.raiseCounter_kept (s : State)  (h_s : s.Kept P b0) (p_keeper : P .keeper = true) : (State.raiseCounter s).Kept P b0 := by
  rw [State.raiseCounter.eq_def]
  repeat' first
    | simp only [State.kept_mk]
    | (with_reducible first | assumption | apply State.put_kept | apply State.advance_kept | apply State.showCounter_kept | apply KeptF.u_keeper) | split | dsimp only

theorem execFuseLoadDone_kept (f : FuseLoad) (s : State)  (h_s : s.Kept P b0) (p_free : P .free = true) (p_rgs : P .rgs = true) (p_harts : P .harts = true) (p_engines : P .engines = true) (p_mmu : P .mmu = true) (p_queues : P .queues = true) (p_cat : P .cat = true) (p_power : P .power = true) (p_keeper : P .keeper = true) (p_cons : P .cons = true) (p_pads : P .pads = true) (p_rings : P .rings = true) (p_vecs : P .vecs = true) (p_hostFn : P .hostFn = true) (p_streams : P .streams = true) (p_gone : P .gone = true) : OutKept P b0 (execFuseLoadDone f s) := by
  rw [execFuseLoadDone.eq_def]
  repeat' first
    | simp only [State.kept_mk]
    | with_reducible first
      | assumption | apply State.wr_kept | apply State.put_kept | apply State.alertRise_kept | apply State.deny_kept | apply State.consStart_kept |
      apply State.safePads_kept | apply State.applyDeny_kept | apply State.putWords_kept | apply State.showCounter_kept | apply KeptF.u_keeper |
      apply OutKept.next
    | intro _ | split | dsimp only

theorem execVddFuseRamp_kept (inRange : Bool) (s : State)  (h_s : s.Kept P b0) (p_keeper : P .keeper = true) : OutKept P b0 (execVddFuseRamp inRange s) := by
  rw [execVddFuseRamp.eq_def]
  repeat' first
    | simp only [State.kept_mk]
    | (with_reducible first | assumption | apply State.put_kept | apply State.raiseCounter_kept | apply KeptF.u_keeper | apply OutKept.next) | split | dsimp only

theorem State.zeroRange_kept (s : State) (a n : Nat)  (h_s : s.Kept P b0) (p_dram : P .dram = true) (p_damage : P .damage = true) (p_chans : P .chans = true) : (State.zeroRange s a n).Kept P b0 := by
  rw [State.zeroRange.eq_def]
  repeat' first
    | simp only [State.kept_mk]
    | (with_reducible first | assumption | apply State.setChan_kept | apply foldl_kept | apply foldl_kept1 | apply foldl_kept2 | apply KeptF.keepMem) | intro _ | dsimp only

theorem execWindowClearDone_kept (s : State)  (h_s : s.Kept P b0) (p_dram : P .dram = true) (p_damage : P .damage = true) (p_chans : P .chans = true) (p_keeper : P .keeper = true) : OutKept P b0 (execWindowClearDone s) := by
  rw [execWindowClearDone.eq_def]
  repeat' first
    | simp only [State.kept_mk]
    | (with_reducible first | assumption | apply State.put_kept | apply State.zeroRange_kept | apply KeptF.u_keeper | apply OutKept.next) | split | dsimp only

theorem execWindowWrite_kept (off : Nat) (data : List Byte) (s : State)  (h_s : s.Kept P b0) (p_dram : P .dram = true) (p_damage : P .damage = true) (p_free : P .free = true) (p_rgs : P .rgs = true) (p_harts : P .harts = true) (p_engines : P .engines = true) (p_mmu : P .mmu = true) (p_queues : P .queues = true) (p_chans : P .chans = true) (p_cat : P .cat = true) (p_power : P .power = true) (p_pads : P .pads = true) (p_rings : P .rings = true) (p_vecs : P .vecs = true) (p_hostFn : P .hostFn = true) (p_streams : P .streams = true) (p_gone : P .gone = true) : OutKept P b0 (execWindowWrite off data s) := by
  rw [execWindowWrite.eq_def]
  repeat' first
    | with_reducible first
      | assumption | apply State.bump_kept | apply State.linkActivity_kept | apply State.writeMem_kept | apply OutKept.next |
      apply kept_of_eq1 (he := by assumption)
    | split | dsimp only

theorem State.mbxCopy_kept (s : State)  (h_s : s.Kept P b0) (p_free : P .free = true) (p_rgs : P .rgs = true) (p_harts : P .harts = true) (p_engines : P .engines = true) (p_mmu : P .mmu = true) (p_queues : P .queues = true) (p_cat : P .cat = true) (p_power : P .power = true) (p_pads : P .pads = true) (p_rings : P .rings = true) (p_vecs : P .vecs = true) (p_hostFn : P .hostFn = true) (p_streams : P .streams = true) (p_gone : P .gone = true) : (State.mbxCopy s).1.Kept P b0 := by
  rw [State.mbxCopy]
  with_reducible apply fst_kept
  with_reducible apply State.readMem_kept
  with_reducible apply State.readMem_kept
  all_goals assumption

theorem State.mbxRespond_kept (s : State) (seq status : Nat) (data : List Byte)  (h_s : s.Kept P b0) (p_dram : P .dram = true) (p_damage : P .damage = true) (p_host : P .host = true) (p_free : P .free = true) (p_rgs : P .rgs = true) (p_harts : P .harts = true) (p_engines : P .engines = true) (p_mmu : P .mmu = true) (p_queues : P .queues = true) (p_chans : P .chans = true) (p_cat : P .cat = true) (p_power : P .power = true) (p_pads : P .pads = true) (p_rings : P .rings = true) (p_vecs : P .vecs = true) (p_hostFn : P .hostFn = true) (p_streams : P .streams = true) (p_gone : P .gone = true) : (State.mbxRespond s seq status data).Kept P b0 := by
  rw [State.mbxRespond]
  repeat' first
    | with_reducible first
      | assumption | apply State.put_kept | apply State.raise_kept | apply State.writeMem_kept | apply State.fireVec_kept |
      apply kept_of_eq1 (he := by assumption)
    | split | dsimp only

theorem State.mbxMode_kept (s : State) (word : Nat)  (h_s : s.Kept P b0) : (State.mbxMode s word).Kept P b0 := by
  rw [State.mbxMode.eq_def]
  repeat' first
    | (with_reducible first | assumption | apply State.put_kept) | dsimp only

theorem State.mbxHold_kept (s : State) (r : MbxReq)  (h_s : s.Kept P b0) (p_keeper : P .keeper = true) : (State.mbxHold s r).Kept P b0 := by
  rw [State.mbxHold.eq_def]
  repeat' first
    | simp only [State.kept_mk]
    | (with_reducible first | assumption | apply State.put_kept | apply KeptF.u_keeper) | split | dsimp only

theorem State.mbxAsk_kept (s : State) (word : Nat)  (h_s : s.Kept P b0) (p_free : P .free = true) (p_rgs : P .rgs = true) (p_harts : P .harts = true) (p_engines : P .engines = true) (p_mmu : P .mmu = true) (p_queues : P .queues = true) (p_cat : P .cat = true) (p_power : P .power = true) (p_keeper : P .keeper = true) (p_pads : P .pads = true) (p_rings : P .rings = true) (p_vecs : P .vecs = true) (p_hostFn : P .hostFn = true) (p_streams : P .streams = true) (p_gone : P .gone = true) : (State.mbxAsk s word).Kept P b0 := by
  rw [State.mbxAsk.eq_def]
  repeat' first
    | with_reducible first
      | assumption | apply State.put_kept | apply State.mbxCopy_kept | apply State.mbxMode_kept | apply State.mbxHold_kept |
      apply kept_of_eq1 (he := by assumption)
    | split | dsimp only

theorem State.mbxGo_kept (s : State) (word : Nat) (p : Nat → Bool) (serve : MbxReq → State → State)  (h_s : s.Kept P b0) (h_serve : ∀ r (s : State), s.Kept P b0 → (serve r s).Kept P b0) (p_free : P .free = true) (p_rgs : P .rgs = true) (p_harts : P .harts = true) (p_engines : P .engines = true) (p_mmu : P .mmu = true) (p_queues : P .queues = true) (p_cat : P .cat = true) (p_power : P .power = true) (p_keeper : P .keeper = true) (p_pads : P .pads = true) (p_rings : P .rings = true) (p_vecs : P .vecs = true) (p_hostFn : P .hostFn = true) (p_streams : P .streams = true) (p_gone : P .gone = true) : (State.mbxGo s word p serve).Kept P b0 := by
  rw [State.mbxGo.eq_def]
  repeat' first
    | simp only [State.kept_mk]
    | with_reducible first
      | assumption | apply h_serve | apply State.put_kept | apply State.mbxCopy_kept | apply State.mbxMode_kept | apply KeptF.u_keeper |
      apply kept_of_eq1 (he := by assumption)
    | intro _ | split | dsimp only

theorem State.mbxServe_kept (s : State) (word op : Nat) (f : MbxReq → State → State × Nat × List Byte)  (h_s : s.Kept P b0) (h_f : ∀ r (s : State), s.Kept P b0 → (f r s).1.Kept P b0) (p_dram : P .dram = true) (p_damage : P .damage = true) (p_host : P .host = true) (p_free : P .free = true) (p_rgs : P .rgs = true) (p_harts : P .harts = true) (p_engines : P .engines = true) (p_mmu : P .mmu = true) (p_queues : P .queues = true) (p_chans : P .chans = true) (p_cat : P .cat = true) (p_power : P .power = true) (p_keeper : P .keeper = true) (p_pads : P .pads = true) (p_rings : P .rings = true) (p_vecs : P .vecs = true) (p_hostFn : P .hostFn = true) (p_streams : P .streams = true) (p_gone : P .gone = true) : (State.mbxServe s word op f).Kept P b0 := by
  rw [State.mbxServe.eq_def]
  repeat' first
    | (with_reducible first | assumption | apply h_f | apply State.mbxRespond_kept | apply State.mbxGo_kept) | intro _ | split | dsimp only

theorem execMailboxUnknownOpcode_kept (word : Nat) (s : State)  (h_s : s.Kept P b0) (p_dram : P .dram = true) (p_damage : P .damage = true) (p_host : P .host = true) (p_free : P .free = true) (p_rgs : P .rgs = true) (p_harts : P .harts = true) (p_engines : P .engines = true) (p_mmu : P .mmu = true) (p_queues : P .queues = true) (p_chans : P .chans = true) (p_cat : P .cat = true) (p_power : P .power = true) (p_keeper : P .keeper = true) (p_pads : P .pads = true) (p_rings : P .rings = true) (p_vecs : P .vecs = true) (p_hostFn : P .hostFn = true) (p_streams : P .streams = true) (p_gone : P .gone = true) : OutKept P b0 (execMailboxUnknownOpcode word s) := by
  rw [execMailboxUnknownOpcode.eq_def]
  repeat' first
    | (with_reducible first | assumption | apply State.mbxRespond_kept | apply State.mbxGo_kept | apply OutKept.next) | intro _ | dsimp only

theorem State.verifyBundle_kept (s : State) (r : MbxReq) (cs : List Crypto)  (h_s : s.Kept P b0) (p_dram : P .dram = true) (p_damage : P .damage = true) (p_free : P .free = true) (p_rgs : P .rgs = true) (p_harts : P .harts = true) (p_engines : P .engines = true) (p_mmu : P .mmu = true) (p_queues : P .queues = true) (p_chans : P .chans = true) (p_cat : P .cat = true) (p_power : P .power = true) (p_keeper : P .keeper = true) (p_pads : P .pads = true) (p_rings : P .rings = true) (p_vecs : P .vecs = true) (p_hostFn : P .hostFn = true) (p_streams : P .streams = true) (p_gone : P .gone = true) : (State.verifyBundle s r cs).Kept P b0 := by
  rw [State.verifyBundle.eq_def]
  repeat' first
    | simp only [State.kept_mk]
    | with_reducible first
      | assumption | apply State.put_kept | apply State.readMem_kept | apply State.writeMem_kept | apply State.advance_kept | apply foldl_kept |
      apply foldl_kept1 | apply foldl_kept2 | apply KeptF.u_keeper | apply kept_of_eq1 (he := by assumption)
    | intro _ | split | dsimp only

theorem execLoad_kept (word : Nat) (cs : List Crypto) (s : State)  (h_s : s.Kept P b0) (p_dram : P .dram = true) (p_damage : P .damage = true) (p_host : P .host = true) (p_free : P .free = true) (p_rgs : P .rgs = true) (p_harts : P .harts = true) (p_engines : P .engines = true) (p_mmu : P .mmu = true) (p_queues : P .queues = true) (p_chans : P .chans = true) (p_cat : P .cat = true) (p_power : P .power = true) (p_keeper : P .keeper = true) (p_pads : P .pads = true) (p_rings : P .rings = true) (p_vecs : P .vecs = true) (p_hostFn : P .hostFn = true) (p_streams : P .streams = true) (p_gone : P .gone = true) : OutKept P b0 (execLoad word cs s) := by
  rw [execLoad.eq_def]
  repeat' first
    | (with_reducible first | assumption | apply State.mbxRespond_kept | apply State.mbxGo_kept | apply State.verifyBundle_kept | apply OutKept.next) | intro _ | split | dsimp only

theorem State.setLaunch_kept (s : State) (d : List Byte)  (h_s : s.Kept P b0) (p_power : P .power = true) : (State.setLaunch s d).Kept P b0 := by
  rw [State.setLaunch.eq_def]
  repeat' first
    | simp only [State.kept_mk]
    | (with_reducible first | assumption | apply KeptF.u_power | exact fun h => h) | split | dsimp only

theorem State.setCopies_kept (s : State) (j : LoadJob) (v0 v1 : Nat)  (h_s : s.Kept P b0) (p_copyCar : P .copyCar = true) (p_copyScb : P .copyScb = true) : (State.setCopies s j v0 v1).Kept P b0 := by
  rw [State.setCopies.eq_def]
  repeat' first
    | simp only [State.kept_mk]
    | (with_reducible first | assumption | apply State.wr_kept | apply KeptF.u_copyCar_copyScb) | dsimp only

theorem State.startUnits_kept (s : State)  (h_s : s.Kept P b0) (p_harts : P .harts = true) (p_engines : P .engines = true) : (State.startUnits s).Kept P b0 := by
  rw [State.startUnits.eq_def]
  repeat' first
    | with_reducible first
      | assumption | apply State.putBit_kept | apply State.setHart_kept | apply State.loadStore_kept | apply State.setDomain_kept | apply foldl_kept
      | apply foldl_kept1 | apply foldl_kept2
    | intro _ | split | dsimp only

theorem State.noteBundle_kept (s : State) (j : LoadJob)  (h_s : s.Kept P b0) (p_cat : P .cat = true) (p_keeper : P .keeper = true) : (State.noteBundle s j).Kept P b0 := by
  rw [State.noteBundle.eq_def]
  repeat' first
    | simp only [State.kept_mk]
    | (with_reducible first | assumption | apply State.advance_kept | apply KeptF.u_cat_keeper) | intro _ | split | dsimp only

theorem State.launch_kept (s : State) (j : LoadJob)  (h_s : s.Kept P b0) (p_free : P .free = true) (p_rgs : P .rgs = true) (p_harts : P .harts = true) (p_engines : P .engines = true) (p_copyCar : P .copyCar = true) (p_copyScb : P .copyScb = true) (p_mmu : P .mmu = true) (p_queues : P .queues = true) (p_cat : P .cat = true) (p_power : P .power = true) (p_keeper : P .keeper = true) (p_pads : P .pads = true) (p_rings : P .rings = true) (p_vecs : P .vecs = true) (p_hostFn : P .hostFn = true) (p_streams : P .streams = true) (p_gone : P .gone = true) : (State.launch s j).Kept P b0 := by
  rw [State.launch]
  repeat' first
    | with_reducible first
      | assumption | apply State.draw_kept | apply State.showSparePair_kept | apply State.secureBytes_kept | apply State.putWords_kept |
      apply State.setLaunch_kept | apply State.setCopies_kept | apply State.startUnits_kept | apply State.noteBundle_kept |
      apply kept_of_eq1 (he := by assumption) | apply kept_of_eq2 (he := by assumption)
    | intro _ | dsimp only

theorem execLoadComplete_kept (s : State)  (h_s : s.Kept P b0) (p_dram : P .dram = true) (p_damage : P .damage = true) (p_host : P .host = true) (p_free : P .free = true) (p_rgs : P .rgs = true) (p_harts : P .harts = true) (p_engines : P .engines = true) (p_copyCar : P .copyCar = true) (p_copyScb : P .copyScb = true) (p_mmu : P .mmu = true) (p_queues : P .queues = true) (p_chans : P .chans = true) (p_cat : P .cat = true) (p_power : P .power = true) (p_keeper : P .keeper = true) (p_pads : P .pads = true) (p_rings : P .rings = true) (p_vecs : P .vecs = true) (p_hostFn : P .hostFn = true) (p_streams : P .streams = true) (p_gone : P .gone = true) : OutKept P b0 (execLoadComplete s) := by
  rw [execLoadComplete.eq_def]
  repeat' first
    | simp only [State.kept_mk]
    | (with_reducible first | assumption | apply State.put_kept | apply State.mbxRespond_kept | apply State.launch_kept | apply KeptF.u_keeper | apply OutKept.next) | split | dsimp only

theorem execAgeingPut_kept (word : Nat) (macOk : Bool) (s : State)  (h_s : s.Kept P b0) (p_dram : P .dram = true) (p_damage : P .damage = true) (p_host : P .host = true) (p_free : P .free = true) (p_rgs : P .rgs = true) (p_harts : P .harts = true) (p_engines : P .engines = true) (p_mmu : P .mmu = true) (p_queues : P .queues = true) (p_chans : P .chans = true) (p_cat : P .cat = true) (p_power : P .power = true) (p_keeper : P .keeper = true) (p_cons : P .cons = true) (p_pads : P .pads = true) (p_rings : P .rings = true) (p_vecs : P .vecs = true) (p_hostFn : P .hostFn = true) (p_streams : P .streams = true) (p_gone : P .gone = true) : OutKept P b0 (execAgeingPut word macOk s) := by
  rw [execAgeingPut.eq_def]
  repeat' first
    | simp only [State.kept_mk]
    | (with_reducible first | assumption | apply State.adopt_kept | apply State.mbxServe_kept | apply KeptF.u_keeper | apply OutKept.next) | intro _ | split | dsimp only

theorem State.ageingRecord_kept (s : State)  (h_s : s.Kept P b0) (p_free : P .free = true) : (State.ageingRecord s).1.Kept P b0 := by
  refine P1Kept.kept ?_
  rw [State.ageingRecord.eq_def]
  repeat' first
    | (with_reducible first | assumption | apply State.draw_kept | apply P1Kept.mk1 | apply kept_of_eq2 (he := by assumption)) | split | dsimp only

theorem execAgeingGet_kept (word : Nat) (s : State)  (h_s : s.Kept P b0) (p_dram : P .dram = true) (p_damage : P .damage = true) (p_host : P .host = true) (p_free : P .free = true) (p_rgs : P .rgs = true) (p_harts : P .harts = true) (p_engines : P .engines = true) (p_mmu : P .mmu = true) (p_queues : P .queues = true) (p_chans : P .chans = true) (p_cat : P .cat = true) (p_power : P .power = true) (p_keeper : P .keeper = true) (p_pads : P .pads = true) (p_rings : P .rings = true) (p_vecs : P .vecs = true) (p_hostFn : P .hostFn = true) (p_streams : P .streams = true) (p_gone : P .gone = true) : OutKept P b0 (execAgeingGet word s) := by
  rw [execAgeingGet.eq_def]
  repeat' first
    | (with_reducible first | assumption | apply State.mbxServe_kept | apply State.ageingRecord_kept | apply OutKept.next | apply kept_of_eq1 (he := by assumption)) | intro _ | split | dsimp only

theorem State.windowResult_kept (s : State) (r : MbxReq) (l : List Byte)  (h_s : s.Kept P b0) (p_dram : P .dram = true) (p_damage : P .damage = true) (p_free : P .free = true) (p_rgs : P .rgs = true) (p_harts : P .harts = true) (p_engines : P .engines = true) (p_mmu : P .mmu = true) (p_queues : P .queues = true) (p_chans : P .chans = true) (p_cat : P .cat = true) (p_power : P .power = true) (p_pads : P .pads = true) (p_rings : P .rings = true) (p_vecs : P .vecs = true) (p_hostFn : P .hostFn = true) (p_streams : P .streams = true) (p_gone : P .gone = true) : (State.windowResult s r l).1.Kept P b0 := by
  refine P1Kept.kept ?_
  rw [State.windowResult.eq_def]
  repeat' first
    | (with_reducible first | assumption | apply State.writeMem_kept | apply P1Kept.mk1 | apply kept_of_eq1 (he := by assumption)) | split | dsimp only

theorem execIdentity_kept (word : Nat) (s : State)  (h_s : s.Kept P b0) (p_dram : P .dram = true) (p_damage : P .damage = true) (p_host : P .host = true) (p_free : P .free = true) (p_rgs : P .rgs = true) (p_harts : P .harts = true) (p_engines : P .engines = true) (p_mmu : P .mmu = true) (p_queues : P .queues = true) (p_chans : P .chans = true) (p_cat : P .cat = true) (p_power : P .power = true) (p_keeper : P .keeper = true) (p_pads : P .pads = true) (p_rings : P .rings = true) (p_vecs : P .vecs = true) (p_hostFn : P .hostFn = true) (p_streams : P .streams = true) (p_gone : P .gone = true) : OutKept P b0 (execIdentity word s) := by
  rw [execIdentity.eq_def]
  repeat' first
    | (with_reducible first | assumption | apply State.mbxServe_kept | apply State.windowResult_kept | apply OutKept.next | apply kept_of_eq1 (he := by assumption)) | intro _ | split | dsimp only

theorem execAttest_kept (word : Nat) (s : State)  (h_s : s.Kept P b0) (p_dram : P .dram = true) (p_damage : P .damage = true) (p_host : P .host = true) (p_free : P .free = true) (p_rgs : P .rgs = true) (p_harts : P .harts = true) (p_engines : P .engines = true) (p_mmu : P .mmu = true) (p_queues : P .queues = true) (p_chans : P .chans = true) (p_cat : P .cat = true) (p_power : P .power = true) (p_keeper : P .keeper = true) (p_pads : P .pads = true) (p_rings : P .rings = true) (p_vecs : P .vecs = true) (p_hostFn : P .hostFn = true) (p_streams : P .streams = true) (p_gone : P .gone = true) : OutKept P b0 (execAttest word s) := by
  rw [execAttest.eq_def]
  repeat' first
    | with_reducible first
      | assumption | apply State.draw_kept | apply State.mbxServe_kept | apply State.windowResult_kept | apply OutKept.next |
      apply kept_of_eq1 (he := by assumption) | apply kept_of_eq2 (he := by assumption)
    | intro _ | split | dsimp only

theorem execAlive_kept (bar0 : Bool) (key : Nat) (s : State)  (h_s : s.Kept P b0) (p_free : P .free = true) (p_cat : P .cat = true) (p_keeper : P .keeper = true) (p_cons : P .cons = true) (p_pads : P .pads = true) (p_staged : P .staged = true) (p_taking : P .taking = true) : OutKept P b0 (execAlive bar0 key s) := by
  rw [execAlive.eq_def]
  repeat' first
    | simp only [State.kept_mk]
    | with_reducible first
      | assumption | apply State.wr_kept | apply State.put_kept | apply State.alertRise_kept | apply State.adopt_kept | apply State.beginEpoch_kept
      | apply State.raiseCounter_kept | apply KeptF.u_keeper | apply OutKept.next
    | split | dsimp only

theorem execStartDeadline_kept (s : State)  (h_s : s.Kept P b0) (p_harts : P .harts = true) (p_power : P .power = true) (p_keeper : P .keeper = true) : OutKept P b0 (execStartDeadline s) := by
  rw [execStartDeadline.eq_def]
  repeat' first
    | simp only [State.kept_mk]
    | with_reducible first
      | assumption | apply State.put_kept | apply State.setHart_kept | apply State.requestReset_kept | apply State.advance_kept | apply foldl_kept |
      apply foldl_kept1 | apply foldl_kept2 | apply KeptF.u_keeper | apply OutKept.next
    | intro _ | split | dsimp only

theorem execKeeperLockstepMismatch_kept (s : State)  (h_s : s.Kept P b0) (p_free : P .free = true) (p_rgs : P .rgs = true) (p_harts : P .harts = true) (p_engines : P .engines = true) (p_mmu : P .mmu = true) (p_queues : P .queues = true) (p_cat : P .cat = true) (p_power : P .power = true) (p_keeper : P .keeper = true) (p_pads : P .pads = true) (p_rings : P .rings = true) (p_vecs : P .vecs = true) (p_hostFn : P .hostFn = true) (p_streams : P .streams = true) (p_gone : P .gone = true) : OutKept P b0 (execKeeperLockstepMismatch s) := by
  rw [execKeeperLockstepMismatch.eq_def]
  repeat' first
    | simp only [State.kept_mk]
    | (with_reducible first | assumption | apply State.put_kept | apply State.reportAs_kept | apply KeptF.u_keeper | apply OutKept.next) | split | dsimp only

end Sys2Proof.Machine
end

