-- ==== Sys2Proof/Laws/KeptMmu.lean ====
section
/-! SUPPORT. What the operations of Machine/Mmu.lean keep (Laws/Kept.lean). -/

set_option linter.unusedTactic false
set_option linter.unreachableTactic false

namespace Sys2Proof.Machine

variable {P : Part → Bool} {b0 : State}

theorem State.failEngine_kept (s : State) (i : Nat)  (h_s : s.Kept P b0) (p_rgs : P .rgs = true) (p_engines : P .engines = true) (p_power : P .power = true) (p_pads : P .pads = true) (p_rings : P .rings = true) (p_streams : P .streams = true) : (State.failEngine s i).Kept P b0 := by
  rw [State.failEngine.eq_def]
  repeat' first
    | (with_reducible first | assumption | apply State.put_kept | apply State.setEngine_kept | apply State.loseWork_kept | apply State.abandon_kept) | split | dsimp only

theorem State.faultFor_kept (s : State) (who : Waiter) (asid va : Nat) (write : Bool) (kind level : Nat)  (h_s : s.Kept P b0) (p_dram : P .dram = true) (p_damage : P .damage = true) (p_host : P .host = true) (p_free : P .free = true) (p_rgs : P .rgs = true) (p_harts : P .harts = true) (p_engines : P .engines = true) (p_mmu : P .mmu = true) (p_dma : P .dma = true) (p_queues : P .queues = true) (p_chans : P .chans = true) (p_cat : P .cat = true) (p_power : P .power = true) (p_pads : P .pads = true) (p_rings : P .rings = true) (p_vecs : P .vecs = true) (p_hostFn : P .hostFn = true) (p_streams : P .streams = true) (p_gone : P .gone = true) : (State.faultFor s who asid va write kind level).Kept P b0 := by
  rw [State.faultFor.eq_def]
  repeat' first
    | with_reducible first
      | assumption | apply State.put_kept | apply State.finish_kept | apply State.abandon_kept | apply State.queueFault_kept |
      apply State.setDmaState_kept | apply State.endSlip_kept | apply State.failEngine_kept
    | split | dsimp only

theorem State.retry_kept (s : State) (r : FltRec)  (h_s : s.Kept P b0) (p_dram : P .dram = true) (p_damage : P .damage = true) (p_host : P .host = true) (p_free : P .free = true) (p_rgs : P .rgs = true) (p_harts : P .harts = true) (p_engines : P .engines = true) (p_mmu : P .mmu = true) (p_dma : P .dma = true) (p_queues : P .queues = true) (p_chans : P .chans = true) (p_cat : P .cat = true) (p_power : P .power = true) (p_pads : P .pads = true) (p_rings : P .rings = true) (p_vecs : P .vecs = true) (p_hostFn : P .hostFn = true) (p_streams : P .streams = true) (p_gone : P .gone = true) : (State.retry s r).Kept P b0 := by
  rw [State.retry.eq_def]
  repeat' first
    | with_reducible first
      | assumption | apply State.put_kept | apply State.translate_kept | apply State.setDmaState_kept | apply State.faultFor_kept |
      exact OutKept.fault _ | apply kept_of_eq1 (he := by assumption)
    | split | dsimp only

theorem State.abortAccess_kept (s : State) (r : FltRec)  (h_s : s.Kept P b0) (p_dram : P .dram = true) (p_damage : P .damage = true) (p_host : P .host = true) (p_free : P .free = true) (p_rgs : P .rgs = true) (p_harts : P .harts = true) (p_engines : P .engines = true) (p_mmu : P .mmu = true) (p_dma : P .dma = true) (p_queues : P .queues = true) (p_chans : P .chans = true) (p_cat : P .cat = true) (p_power : P .power = true) (p_pads : P .pads = true) (p_rings : P .rings = true) (p_vecs : P .vecs = true) (p_hostFn : P .hostFn = true) (p_streams : P .streams = true) (p_gone : P .gone = true) : (State.abortAccess s r).Kept P b0 := by
  rw [State.abortAccess.eq_def]
  repeat' first
    | (with_reducible first | assumption | apply State.finish_kept | apply State.endSlip_kept | apply State.failEngine_kept) | split | dsimp only

theorem State.popFault_kept (s : State)  (h_s : s.Kept P b0) (p_mmu : P .mmu = true) : (State.popFault s).Kept P b0 := by
  rw [State.popFault.eq_def]
  repeat' first
    | simp only [State.kept_mk]
    | (with_reducible first | assumption | apply State.refillFaults_kept | apply KeptF.u_mmu) | dsimp only

theorem execTranslationWalk_kept (who : Requester) (va : Nat) (write : Bool) (s : State)  (h_s : s.Kept P b0) (p_dram : P .dram = true) (p_damage : P .damage = true) (p_host : P .host = true) (p_free : P .free = true) (p_answer : P .answer = true) (p_rgs : P .rgs = true) (p_harts : P .harts = true) (p_engines : P .engines = true) (p_mmu : P .mmu = true) (p_dma : P .dma = true) (p_queues : P .queues = true) (p_chans : P .chans = true) (p_cat : P .cat = true) (p_power : P .power = true) (p_pads : P .pads = true) (p_rings : P .rings = true) (p_vecs : P .vecs = true) (p_hostFn : P .hostFn = true) (p_streams : P .streams = true) (p_gone : P .gone = true) : OutKept P b0 (execTranslationWalk who va write s) := by
  rw [execTranslationWalk.eq_def]
  repeat' first
    | with_reducible first
      | assumption | apply State.setEngine_kept | apply State.reply_kept | apply State.protect_kept | apply State.translate_kept |
      apply State.failEngine_kept | apply State.faultFor_kept | apply OutKept.next | exact OutKept.fault _ | apply kept_of_eq1 (he := by assumption)
    | split | dsimp only

theorem execResume_kept (id : Nat) (s : State)  (h_s : s.Kept P b0) (p_dram : P .dram = true) (p_damage : P .damage = true) (p_host : P .host = true) (p_free : P .free = true) (p_rgs : P .rgs = true) (p_harts : P .harts = true) (p_engines : P .engines = true) (p_mmu : P .mmu = true) (p_dma : P .dma = true) (p_queues : P .queues = true) (p_chans : P .chans = true) (p_cat : P .cat = true) (p_power : P .power = true) (p_pads : P .pads = true) (p_rings : P .rings = true) (p_vecs : P .vecs = true) (p_hostFn : P .hostFn = true) (p_streams : P .streams = true) (p_gone : P .gone = true) : OutKept P b0 (execResume id s) := by
  rw [execResume.eq_def]
  repeat' first
    | (with_reducible first | assumption | apply State.put_kept | apply State.retry_kept | apply State.popFault_kept | apply OutKept.next) | split | dsimp only

theorem execAbort_kept (id : Nat) (s : State)  (h_s : s.Kept P b0) (p_dram : P .dram = true) (p_damage : P .damage = true) (p_host : P .host = true) (p_free : P .free = true) (p_rgs : P .rgs = true) (p_harts : P .harts = true) (p_engines : P .engines = true) (p_mmu : P .mmu = true) (p_dma : P .dma = true) (p_queues : P .queues = true) (p_chans : P .chans = true) (p_cat : P .cat = true) (p_power : P .power = true) (p_pads : P .pads = true) (p_rings : P .rings = true) (p_vecs : P .vecs = true) (p_hostFn : P .hostFn = true) (p_streams : P .streams = true) (p_gone : P .gone = true) : OutKept P b0 (execAbort id s) := by
  rw [execAbort.eq_def]
  repeat' first
    | (with_reducible first | assumption | apply State.put_kept | apply State.abortAccess_kept | apply State.popFault_kept | apply OutKept.next) | split | dsimp only

theorem execFaultRecordTimeout_kept (s : State)  (h_s : s.Kept P b0) (p_dram : P .dram = true) (p_damage : P .damage = true) (p_host : P .host = true) (p_free : P .free = true) (p_rgs : P .rgs = true) (p_harts : P .harts = true) (p_engines : P .engines = true) (p_mmu : P .mmu = true) (p_dma : P .dma = true) (p_queues : P .queues = true) (p_chans : P .chans = true) (p_cat : P .cat = true) (p_power : P .power = true) (p_pads : P .pads = true) (p_rings : P .rings = true) (p_vecs : P .vecs = true) (p_hostFn : P .hostFn = true) (p_streams : P .streams = true) (p_gone : P .gone = true) : OutKept P b0 (execFaultRecordTimeout s) := by
  rw [execFaultRecordTimeout.eq_def]
  repeat' first
    | simp only [State.kept_mk]
    | with_reducible first
      | assumption | apply State.put_kept | apply State.refillFaults_kept | apply State.report_kept | apply State.abortAccess_kept |
      apply KeptF.u_mmu | apply OutKept.next
    | intro _ | split | dsimp only

theorem State.dropCached_kept (s : State) (p : Nat × Nat × Nat × Nat → Bool)  (h_s : s.Kept P b0) (p_engines : P .engines = true) (p_mmu : P .mmu = true) : (State.dropCached s p).Kept P b0 := by
  rw [State.dropCached.eq_def]
  repeat' first
    | simp only [State.kept_mk]
    | (with_reducible first | assumption | apply State.setEngine_kept | apply foldl_kept | apply foldl_kept1 | apply foldl_kept2 | apply KeptF.u_mmu) | intro _ | dsimp only

theorem State.invalidate_kept (s : State) (p : Nat × Nat × Nat × Nat → Bool)  (h_s : s.Kept P b0) (p_engines : P .engines = true) (p_mmu : P .mmu = true) : (State.invalidate s p).Kept P b0 := by
  rw [State.invalidate.eq_def]
  repeat' first
    | (with_reducible first | assumption | apply State.put_kept | apply State.dropCached_kept) | split | dsimp only

theorem execInvalidateAll_kept (s : State)  (h_s : s.Kept P b0) (p_engines : P .engines = true) (p_mmu : P .mmu = true) : OutKept P b0 (execInvalidateAll s) := by
  rw [execInvalidateAll.eq_def]
  repeat' first
    | (with_reducible first | assumption | apply State.invalidate_kept | apply OutKept.next) | intro _ | dsimp only

theorem execInvalidateAsid_kept (asid : Nat) (s : State)  (h_s : s.Kept P b0) (p_engines : P .engines = true) (p_mmu : P .mmu = true) : OutKept P b0 (execInvalidateAsid asid s) := by
  rw [execInvalidateAsid.eq_def]
  repeat' first
    | (with_reducible first | assumption | apply State.invalidate_kept | apply OutKept.next) | intro _ | dsimp only

theorem execInvalidatePage_kept (asid : Nat) (s : State)  (h_s : s.Kept P b0) (p_engines : P .engines = true) (p_mmu : P .mmu = true) : OutKept P b0 (execInvalidatePage asid s) := by
  rw [execInvalidatePage.eq_def]
  repeat' first
    | (with_reducible first | assumption | apply State.invalidate_kept | apply OutKept.next) | intro _ | dsimp only

theorem execInvalidationDone_kept (s : State)  (h_s : s.Kept P b0) : OutKept P b0 (execInvalidationDone s) := by
  rw [execInvalidationDone.eq_def]
  repeat' first
    | (with_reducible first | assumption | apply State.put_kept | apply OutKept.next) | dsimp only

theorem execContextCommit_kept (a hi : Nat) (s : State)  (h_s : s.Kept P b0) (p_engines : P .engines = true) (p_mmu : P .mmu = true) : OutKept P b0 (execContextCommit a hi s) := by
  rw [execContextCommit.eq_def]
  repeat' first
    | (with_reducible first | assumption | apply State.put_kept | apply State.dropCached_kept | apply OutKept.next) | intro _ | dsimp only

theorem execGrantFence_kept (i : Nat) (s : State)  (h_s : s.Kept P b0) (p_free : P .free = true) (p_rgs : P .rgs = true) (p_engines : P .engines = true) (p_mmu : P .mmu = true) (p_queues : P .queues = true) (p_power : P .power = true) (p_pads : P .pads = true) (p_rings : P .rings = true) (p_vecs : P .vecs = true) (p_hostFn : P .hostFn = true) (p_streams : P .streams = true) (p_gone : P .gone = true) : OutKept P b0 (execGrantFence i s) := by
  rw [execGrantFence.eq_def]
  repeat' first
    | (with_reducible first | assumption | apply State.fence_kept | apply OutKept.next) | dsimp only

end Sys2Proof.Machine
end

