-- ==== Sys2Proof/Laws/KeptPictureSlips.lean ====
section
/-! SUPPORT. What the operations of Machine/PictureSlips.lean keep (Laws/Kept.lean). -/

set_option linter.unusedTactic false
set_option linter.unreachableTactic false

namespace Sys2Proof.Machine

variable {P : Part → Bool} {b0 : State}

theorem State.readPlane_kept (s : State) (n : Nat) (t : Taken) (pitch w : Nat) (rule : Nat → Nat) (x0 : Nat) (x1 : Nat) (h_s : s.Kept P b0) (p_free : P .free = true) (p_rgs : P .rgs = true) (p_harts : P .harts = true) (p_engines : P .engines = true) (p_mmu : P .mmu = true) (p_queues : P .queues = true) (p_cat : P .cat = true) (p_power : P .power = true) (p_pads : P .pads = true) (p_rings : P .rings = true) (p_vecs : P .vecs = true) (p_hostFn : P .hostFn = true) (p_streams : P .streams = true) (p_gone : P .gone = true) : (State.readPlane s n t pitch w rule x0 x1).1.Kept P b0 := by
  induction x0 generalizing s n t pitch w rule x1 with
  | zero =>
    refine P1Kept.kept ?_
    unfold State.readPlane
    repeat' first
      | (with_reducible first | assumption | apply ih | apply State.slipRead_kept | apply P1Kept.mk1 | apply kept_of_eq1 (he := by assumption)) | split | dsimp only
  | succ fuel ih =>
    refine P1Kept.kept ?_
    unfold State.readPlane
    repeat' first
      | (with_reducible first | assumption | apply ih | apply State.slipRead_kept | apply P1Kept.mk1 | apply kept_of_eq1 (he := by assumption)) | split | dsimp only

theorem State.readPicture_kept (s : State) (n : Nat) (t : Taken) (x : Stream)  (h_s : s.Kept P b0) (p_free : P .free = true) (p_rgs : P .rgs = true) (p_harts : P .harts = true) (p_engines : P .engines = true) (p_mmu : P .mmu = true) (p_queues : P .queues = true) (p_cat : P .cat = true) (p_power : P .power = true) (p_pads : P .pads = true) (p_rings : P .rings = true) (p_vecs : P .vecs = true) (p_hostFn : P .hostFn = true) (p_streams : P .streams = true) (p_gone : P .gone = true) : (State.readPicture s n t x).1.Kept P b0 := by
  refine P1Kept.kept ?_
  rw [State.readPicture.eq_def]
  repeat' first
    | (with_reducible first | assumption | apply State.readPlane_kept | apply P1Kept.mk1 | apply kept_of_eq1 (he := by assumption)) | split | dsimp only

theorem State.takePicture_kept (s : State) (n : Nat) (t : Taken) (v : Ycc × Nat × Bool)  (h_s : s.Kept P b0) (p_harts : P .harts = true) (p_rings : P .rings = true) (p_streams : P .streams = true) : (State.takePicture s n t v).Kept P b0 := by
  rw [State.takePicture.eq_def]
  repeat' first
    | (with_reducible first | assumption | apply State.startSlip_kept | apply State.beginPic_kept | apply State.planAll_kept) | intro _ | split | dsimp only

theorem execEncodePicture_kept (n k : Nat) (s : State)  (h_s : s.Kept P b0) (p_free : P .free = true) (p_rgs : P .rgs = true) (p_harts : P .harts = true) (p_engines : P .engines = true) (p_mmu : P .mmu = true) (p_queues : P .queues = true) (p_cat : P .cat = true) (p_power : P .power = true) (p_pads : P .pads = true) (p_rings : P .rings = true) (p_vecs : P .vecs = true) (p_hostFn : P .hostFn = true) (p_streams : P .streams = true) (p_gone : P .gone = true) : OutKept P b0 (execEncodePicture n k s) := by
  rw [execEncodePicture.eq_def]
  repeat' first
    | with_reducible first
      | assumption | apply State.finishInOrder_kept | apply State.readPicture_kept | apply State.takePicture_kept | apply OutKept.next |
      apply kept_of_eq1 (he := by assumption)
    | split | dsimp only

theorem State.reportLost_kept (s : State) (n : Nat) (lost : List (Nat × Nat))  (h_s : s.Kept P b0) (p_free : P .free = true) (p_rgs : P .rgs = true) (p_harts : P .harts = true) (p_engines : P .engines = true) (p_mmu : P .mmu = true) (p_queues : P .queues = true) (p_cat : P .cat = true) (p_power : P .power = true) (p_pads : P .pads = true) (p_rings : P .rings = true) (p_vecs : P .vecs = true) (p_hostFn : P .hostFn = true) (p_streams : P .streams = true) (p_gone : P .gone = true) : (State.reportLost s n lost).Kept P b0 := by
  rw [State.reportLost.eq_def]
  repeat' first
    | (with_reducible first | assumption | apply State.report_kept | apply foldl_kept | apply foldl_kept1 | apply foldl_kept2) | intro _ | split | dsimp only

theorem State.decodeKrema_kept (s : State) (n k : Nat) (t : Taken) (input : List Byte) (bad : Bool) (lost : List (Nat × Nat))  (h_s : s.Kept P b0) (p_dram : P .dram = true) (p_damage : P .damage = true) (p_host : P .host = true) (p_free : P .free = true) (p_rgs : P .rgs = true) (p_harts : P .harts = true) (p_engines : P .engines = true) (p_mmu : P .mmu = true) (p_queues : P .queues = true) (p_chans : P .chans = true) (p_cat : P .cat = true) (p_power : P .power = true) (p_pads : P .pads = true) (p_rings : P .rings = true) (p_vecs : P .vecs = true) (p_hostFn : P .hostFn = true) (p_streams : P .streams = true) (p_gone : P .gone = true) : (State.decodeKrema s n k t input bad lost).Kept P b0 := by
  rw [State.decodeKrema.eq_def]
  repeat' first
    | with_reducible first
      | assumption | apply State.setStream_kept | apply State.finishInOrder_kept | apply State.writeDecoded_kept | apply State.reportLost_kept |
      apply kept_of_eq1 (he := by assumption)
    | intro _ | split | dsimp only

theorem State.makeDpbRoom_kept (s : State) (m : Nat) (p : ParamSet) (a : CodecAu)  (h_s : s.Kept P b0) (p_dram : P .dram = true) (p_damage : P .damage = true) (p_host : P .host = true) (p_free : P .free = true) (p_rgs : P .rgs = true) (p_harts : P .harts = true) (p_engines : P .engines = true) (p_mmu : P .mmu = true) (p_queues : P .queues = true) (p_chans : P .chans = true) (p_cat : P .cat = true) (p_power : P .power = true) (p_pads : P .pads = true) (p_rings : P .rings = true) (p_vecs : P .vecs = true) (p_hostFn : P .hostFn = true) (p_streams : P .streams = true) (p_gone : P .gone = true) : (State.makeDpbRoom s m p a).1.Kept P b0 := by
  refine P1Kept.kept ?_
  rw [State.makeDpbRoom.eq_def]
  repeat' first
    | with_reducible first
      | assumption | apply State.finishById_kept | apply State.unwait_kept | apply State.putOut_kept | apply State.bumpAll_kept | apply foldl_kept |
      apply foldl_kept1 | apply foldl_kept2 | apply P1Kept.mk1 | apply kept_of_eq1 (he := by assumption)
    | intro _ | split | dsimp only

theorem State.takeAu_kept (s : State) (n : Nat) (t : Taken) (p : ParamSet) (a : CodecAu) (bad : Bool) (lost : List (Nat × Nat))  (h_s : s.Kept P b0) (p_dram : P .dram = true) (p_damage : P .damage = true) (p_host : P .host = true) (p_free : P .free = true) (p_rgs : P .rgs = true) (p_harts : P .harts = true) (p_engines : P .engines = true) (p_mmu : P .mmu = true) (p_queues : P .queues = true) (p_pools : P .pools = true) (p_orphans : P .orphans = true) (p_chans : P .chans = true) (p_cat : P .cat = true) (p_power : P .power = true) (p_pads : P .pads = true) (p_rings : P .rings = true) (p_vecs : P .vecs = true) (p_hostFn : P .hostFn = true) (p_streams : P .streams = true) (p_gone : P .gone = true) : (State.takeAu s n t p a bad lost).Kept P b0 := by
  rw [State.takeAu.eq_def]
  repeat' first
    | with_reducible first
      | assumption | apply State.setStream_kept | apply State.release_kept | apply State.startSlip_kept | apply State.finishById_kept |
      apply State.putOut_kept | apply State.reportLost_kept | apply kept_of_eq1 (he := by assumption)
    | intro _ | split | dsimp only

theorem State.decodeCodec_kept (s : State) (n k : Nat) (t : Taken) (a : CodecAu) (bad : Bool) (lost : List (Nat × Nat))  (h_s : s.Kept P b0) (p_dram : P .dram = true) (p_damage : P .damage = true) (p_host : P .host = true) (p_free : P .free = true) (p_rgs : P .rgs = true) (p_harts : P .harts = true) (p_engines : P .engines = true) (p_mmu : P .mmu = true) (p_queues : P .queues = true) (p_pools : P .pools = true) (p_orphans : P .orphans = true) (p_chans : P .chans = true) (p_cat : P .cat = true) (p_power : P .power = true) (p_pads : P .pads = true) (p_rings : P .rings = true) (p_vecs : P .vecs = true) (p_hostFn : P .hostFn = true) (p_streams : P .streams = true) (p_gone : P .gone = true) : (State.decodeCodec s n k t a bad lost).Kept P b0 := by
  rw [State.decodeCodec.eq_def]
  repeat' first
    | with_reducible first
      | assumption | apply State.setStream_kept | apply State.finishInOrder_kept | apply State.makeDpbRoom_kept | apply State.takeAu_kept |
      apply kept_of_eq1 (he := by assumption)
    | split | dsimp only

theorem State.decodeOn_kept (s : State) (m : Nat)  (h_s : s.Kept P b0) (p_dram : P .dram = true) (p_damage : P .damage = true) (p_host : P .host = true) (p_free : P .free = true) (p_rgs : P .rgs = true) (p_harts : P .harts = true) (p_engines : P .engines = true) (p_mmu : P .mmu = true) (p_queues : P .queues = true) (p_chans : P .chans = true) (p_cat : P .cat = true) (p_power : P .power = true) (p_pads : P .pads = true) (p_rings : P .rings = true) (p_vecs : P .vecs = true) (p_hostFn : P .hostFn = true) (p_streams : P .streams = true) (p_gone : P .gone = true) : (State.decodeOn s m).Kept P b0 := by
  rw [State.decodeOn.eq_def]
  repeat' first
    | (with_reducible first | assumption | apply State.putOut_kept | apply State.bumpAll_kept | apply kept_of_eq1 (he := by assumption)) | intro _ | split | dsimp only

theorem execDecodePicture_kept (n k : Nat) (lost : List (Nat × Nat)) (au : CodecAu) (s : State)  (h_s : s.Kept P b0) (p_dram : P .dram = true) (p_damage : P .damage = true) (p_host : P .host = true) (p_free : P .free = true) (p_rgs : P .rgs = true) (p_harts : P .harts = true) (p_engines : P .engines = true) (p_mmu : P .mmu = true) (p_queues : P .queues = true) (p_pools : P .pools = true) (p_orphans : P .orphans = true) (p_chans : P .chans = true) (p_cat : P .cat = true) (p_power : P .power = true) (p_pads : P .pads = true) (p_rings : P .rings = true) (p_vecs : P .vecs = true) (p_hostFn : P .hostFn = true) (p_streams : P .streams = true) (p_gone : P .gone = true) : OutKept P b0 (execDecodePicture n k lost au s) := by
  rw [execDecodePicture.eq_def]
  repeat' first
    | with_reducible first
      | assumption | apply State.finishInOrder_kept | apply State.slipRead_kept | apply State.decodeKrema_kept | apply State.decodeCodec_kept |
      apply State.decodeOn_kept | apply OutKept.next | apply kept_of_eq1 (he := by assumption)
    | split | dsimp only

end Sys2Proof.Machine
end

