-- ==== Sys2Proof/Laws/KeptSmbus.lean ====
section
/-! SUPPORT. What the operations of Machine/Smbus.lean keep (Laws/Kept.lean). -/

set_option linter.unusedTactic false
set_option linter.unreachableTactic false

namespace Sys2Proof.Machine

variable {P : Part → Bool} {b0 : State}

theorem State.smb_kept (s : State) (f : State → State)  (h_s : s.Kept P b0) (h_f : ∀ s : State, s.Kept P b0 → (f s).Kept P b0) : OutKept P b0 (State.smb s f) := by
  rw [State.smb.eq_def]
  repeat' first
    | (with_reducible first | assumption | apply h_f | apply State.bump_kept | apply OutKept.next) | intro _ | split | dsimp only

theorem State.smbBlock_kept (s : State) (n : Nat) (data : Option (List Byte))  (h_s : s.Kept P b0) (p_answer : P .answer = true) : (State.smbBlock s n data).Kept P b0 := by
  rw [State.smbBlock.eq_def]
  repeat' first
    | (with_reducible first | assumption | apply State.reply_kept) | split | dsimp only

theorem execStatus_kept (s : State)  (h_s : s.Kept P b0) (p_answer : P .answer = true) : OutKept P b0 (execStatus s) := by
  rw [execStatus.eq_def]
  repeat' first
    | (with_reducible first | assumption | apply State.reply_kept | apply State.smb_kept | apply OutKept.next) | intro _ | dsimp only

theorem execCause_kept (s : State)  (h_s : s.Kept P b0) (p_answer : P .answer = true) : OutKept P b0 (execCause s) := by
  rw [execCause.eq_def]
  repeat' first
    | (with_reducible first | assumption | apply State.reply_kept | apply State.smb_kept | apply OutKept.next) | intro _ | dsimp only

theorem execDeviceId_kept (s : State)  (h_s : s.Kept P b0) (p_answer : P .answer = true) : OutKept P b0 (execDeviceId s) := by
  rw [execDeviceId.eq_def]
  repeat' first
    | (with_reducible first | assumption | apply State.smb_kept | apply State.smbBlock_kept | apply OutKept.next) | intro _ | split | dsimp only

theorem execUid_kept (s : State)  (h_s : s.Kept P b0) (p_answer : P .answer = true) : OutKept P b0 (execUid s) := by
  rw [execUid.eq_def]
  repeat' first
    | (with_reducible first | assumption | apply State.smb_kept | apply State.smbBlock_kept | apply OutKept.next) | intro _ | split | dsimp only

theorem execEpochDigest_kept (s : State)  (h_s : s.Kept P b0) (p_answer : P .answer = true) : OutKept P b0 (execEpochDigest s) := by
  rw [execEpochDigest.eq_def]
  repeat' first
    | (with_reducible first | assumption | apply State.smb_kept | apply State.smbBlock_kept | apply OutKept.next) | intro _ | split | dsimp only

theorem execFaults_kept (s : State)  (h_s : s.Kept P b0) (p_answer : P .answer = true) : OutKept P b0 (execFaults s) := by
  rw [execFaults.eq_def]
  repeat' first
    | (with_reducible first | assumption | apply State.smb_kept | apply State.smbBlock_kept | apply OutKept.next) | intro _ | split | dsimp only

theorem execReset_kept (v : Nat) (pecOk : Bool) (s : State)  (h_s : s.Kept P b0) (p_power : P .power = true) : OutKept P b0 (execReset v pecOk s) := by
  rw [execReset.eq_def]
  repeat' first
    | (with_reducible first | assumption | apply State.bump_kept | apply State.requestReset_kept | apply State.smb_kept | apply OutKept.next) | intro _ | split | dsimp only

theorem execWake_kept (pecOk : Bool) (s : State)  (h_s : s.Kept P b0) (p_power : P .power = true) : OutKept P b0 (execWake pecOk s) := by
  rw [execWake.eq_def]
  repeat' first
    | (with_reducible first | assumption | apply State.bump_kept | apply State.wakeEvent_kept | apply State.smb_kept | apply OutKept.next) | intro _ | split | dsimp only

theorem execAlertResponse_kept (s : State)  (h_s : s.Kept P b0) (p_answer : P .answer = true) (p_pads : P .pads = true) : OutKept P b0 (execAlertResponse s) := by
  rw [execAlertResponse.eq_def]
  repeat' first
    | simp only [State.kept_mk]
    | (with_reducible first | assumption | apply State.reply_kept | apply KeptF.u_pads | apply OutKept.next) | split | dsimp only

theorem execSmbCfgWrite_kept (v : Nat) (s : State)  (h_s : s.Kept P b0) (p_pads : P .pads = true) : OutKept P b0 (execSmbCfgWrite v s) := by
  rw [execSmbCfgWrite.eq_def]
  repeat' first
    | simp only [State.kept_mk]
    | with_reducible first
      | assumption | apply State.put_kept | apply State.bump_kept | apply State.alertRise_kept | apply foldl_kept | apply foldl_kept1 |
      apply foldl_kept2 | apply KeptF.u_pads | apply OutKept.next
    | intro _ | split | dsimp only

theorem execSmbusUnknownCommand_kept (s : State)  (h_s : s.Kept P b0) : OutKept P b0 (execSmbusUnknownCommand s) := by
  rw [execSmbusUnknownCommand.eq_def]
  repeat' first
    | (with_reducible first | assumption | apply State.bump_kept | apply State.smb_kept | apply OutKept.next) | intro _ | dsimp only

end Sys2Proof.Machine
end

