-- ==== Sys2Proof/Laws/KeptRegWrite.lean ====
section
/-! SUPPORT. What the operations of Machine/RegWrite.lean keep (Laws/Kept.lean). -/

set_option linter.unusedTactic false
set_option linter.unreachableTactic false

namespace Sys2Proof.Machine

variable {P : Part → Bool} {b0 : State}

theorem State.writeField_kept (s : State) (off v : Nat) (q : Nat × Nat × Acc)  (h_s : s.Kept P b0) : (State.writeField s off v q).Kept P b0 := by
  rw [State.writeField.eq_def]
  repeat' first
    | (with_reducible first | assumption | apply State.put_kept) | split | dsimp only

theorem State.writeFields_kept (s : State) (off v : Nat)  (h_s : s.Kept P b0) : (State.writeFields s off v).Kept P b0 := by
  rw [State.writeFields.eq_def]
  repeat' first
    | (with_reducible first | assumption | apply State.writeField_kept | apply foldl_kept | apply foldl_kept1 | apply foldl_kept2) | intro _ | split | dsimp only

theorem State.writeRstCmd_kept (s : State) (v : Nat)  (h_s : s.Kept P b0) (p_free : P .free = true) (p_net : P .net = true) (p_bnd : P .bnd = true) (p_rgs : P .rgs = true) (p_harts : P .harts = true) (p_engines : P .engines = true) (p_mmu : P .mmu = true) (p_queues : P .queues = true) (p_cat : P .cat = true) (p_power : P .power = true) (p_pads : P .pads = true) (p_rings : P .rings = true) (p_vecs : P .vecs = true) (p_hostFn : P .hostFn = true) (p_streams : P .streams = true) (p_staged : P .staged = true) (p_gone : P .gone = true) : OutKept P b0 (State.writeRstCmd s v) := by
  rw [State.writeRstCmd.eq_def]
  repeat' first
    | with_reducible first
      | assumption | apply State.keyErr_kept | apply execColdResetCommand_kept | apply execWarmResetCommand_kept | apply execUnitReset_kept |
      apply OutKept.next
    | split | dsimp only

theorem State.writeInvCtl_kept (s : State) (v : Nat)  (h_s : s.Kept P b0) (p_engines : P .engines = true) (p_mmu : P .mmu = true) : OutKept P b0 (State.writeInvCtl s v) := by
  rw [State.writeInvCtl.eq_def]
  repeat' first
    | (with_reducible first | assumption | apply execInvalidateAll_kept | apply execInvalidateAsid_kept | apply execInvalidatePage_kept | apply OutKept.next) | split | dsimp only

theorem State.writeFltCtl_kept (s : State) (v : Nat)  (h_s : s.Kept P b0) (p_dram : P .dram = true) (p_damage : P .damage = true) (p_host : P .host = true) (p_free : P .free = true) (p_rgs : P .rgs = true) (p_harts : P .harts = true) (p_engines : P .engines = true) (p_mmu : P .mmu = true) (p_dma : P .dma = true) (p_queues : P .queues = true) (p_chans : P .chans = true) (p_cat : P .cat = true) (p_power : P .power = true) (p_pads : P .pads = true) (p_rings : P .rings = true) (p_vecs : P .vecs = true) (p_hostFn : P .hostFn = true) (p_streams : P .streams = true) (p_gone : P .gone = true) : OutKept P b0 (State.writeFltCtl s v) := by
  rw [State.writeFltCtl.eq_def]
  repeat' first
    | (with_reducible first | assumption | apply execResume_kept | apply execAbort_kept | apply OutKept.next) | split | dsimp only

theorem State.writePoolCfg_kept (s : State) (p v : Nat)  (h_s : s.Kept P b0) : (State.writePoolCfg s p v).Kept P b0 := by
  rw [State.writePoolCfg.eq_def]
  repeat' first
    | (with_reducible first | assumption | apply State.put_kept) | intro _ | split | dsimp only

theorem State.writeSchedCfg_kept (s : State) (v : Nat)  (h_s : s.Kept P b0) : (State.writeSchedCfg s v).Kept P b0 := by
  rw [State.writeSchedCfg.eq_def]
  repeat' first
    | (with_reducible first | assumption | apply State.put_kept) | split | dsimp only

theorem State.writePortPhy_kept (s : State) (p v : Nat)  (h_s : s.Kept P b0) : (State.writePortPhy s p v).Kept P b0 := by
  rw [State.writePortPhy.eq_def]
  repeat' first
    | (with_reducible first | assumption | apply State.put_kept) | intro _ | split | dsimp only

theorem State.writeUnitCtl_kept (s : State) (byHost : Bool) (i v : Nat)  (h_s : s.Kept P b0) (p_engines : P .engines = true) (p_queues : P .queues = true) (p_streams : P .streams = true) : OutKept P b0 (State.writeUnitCtl s byHost i v) := by
  rw [State.writeUnitCtl.eq_def]
  repeat' first
    | (with_reducible first | assumption | apply State.interruptUnit_kept | apply execDrop_kept | apply OutKept.next) | split | dsimp only

theorem State.writeTinCtl_kept (s : State) (i v : Nat)  (h_s : s.Kept P b0) (p_dater : P .dater = true) : OutKept P b0 (State.writeTinCtl s i v) := by
  rw [State.writeTinCtl.eq_def]
  repeat' first
    | (with_reducible first | assumption | apply State.put_kept | apply execTimeInPop_kept | apply OutKept.next) | split | dsimp only

theorem State.ownLow_kept (s : State) (byHost : Bool) (off v : Nat)  (h_s : s.Kept P b0) (p_dram : P .dram = true) (p_damage : P .damage = true) (p_host : P .host = true) (p_free : P .free = true) (p_net : P .net = true) (p_bnd : P .bnd = true) (p_rgs : P .rgs = true) (p_harts : P .harts = true) (p_engines : P .engines = true) (p_mmu : P .mmu = true) (p_dma : P .dma = true) (p_queues : P .queues = true) (p_chans : P .chans = true) (p_cat : P .cat = true) (p_power : P .power = true) (p_keeper : P .keeper = true) (p_cons : P .cons = true) (p_pads : P .pads = true) (p_rings : P .rings = true) (p_vecs : P .vecs = true) (p_hostFn : P .hostFn = true) (p_streams : P .streams = true) (p_staged : P .staged = true) (p_taking : P .taking = true) (p_gone : P .gone = true) : OptKept P b0 (State.ownLow s byHost off v) := by
  rw [State.ownLow.eq_def]
  repeat' first
    | simp only [State.kept_mk]
    | with_reducible first
      | assumption | apply State.wr_kept | apply State.put_kept | apply execMsixUnmask_kept | apply execRpCfgWrite_kept |
      apply execPaceCtlWrite_kept | apply execSourceConfigWrite_kept | apply execSwset_kept | apply execAck_kept | apply execInject_kept |
      apply execRstKey_kept | apply execPdReqWrite_kept | apply execSleepStandby_kept | apply execSleepVault_kept | apply State.mbxAsk_kept |
      apply execAlive_kept | apply execContextCommit_kept | apply execGrantFence_kept | apply State.writeRstCmd_kept | apply State.writeInvCtl_kept
      | apply State.writeFltCtl_kept | apply KeptF.u_mmu | apply OutKept.next | apply OptKept.some | exact OptKept.none | apply OptKept.ite |
      apply OutKept.ite | apply State.Kept.ite | apply OptKept.get ?_ (by assumption)
    | intro _ | split | dsimp only

theorem State.ownMid_kept (s : State) (off v : Nat)  (h_s : s.Kept P b0) (p_dram : P .dram = true) (p_damage : P .damage = true) (p_host : P .host = true) (p_free : P .free = true) (p_rgs : P .rgs = true) (p_harts : P .harts = true) (p_engines : P .engines = true) (p_mmu : P .mmu = true) (p_dma : P .dma = true) (p_queues : P .queues = true) (p_pools : P .pools = true) (p_orphans : P .orphans = true) (p_chans : P .chans = true) (p_scrub : P .scrub = true) (p_cat : P .cat = true) (p_power : P .power = true) (p_pads : P .pads = true) (p_rings : P .rings = true) (p_vecs : P .vecs = true) (p_hostFn : P .hostFn = true) (p_streams : P .streams = true) (p_gone : P .gone = true) : OptKept P b0 (State.ownMid s off v) := by
  rw [State.ownMid.eq_def]
  repeat' first
    | with_reducible first
      | assumption | apply State.wr_kept | apply execLogEntryFree_kept | apply execScrubCtlWrite_kept | apply execFlush_kept |
      apply execQueueDisable_kept | apply State.writeQueueReg_kept | apply execReqSw_kept | apply State.dmaStart_kept | apply State.dmaStop_kept |
      apply State.dmaPause_kept | apply State.dmaResume_kept | apply execInit_kept | apply execDisable_kept | apply execReclaim_kept |
      apply State.writePoolCfg_kept | apply State.writeSchedCfg_kept | apply OutKept.next | apply OptKept.some | exact OptKept.none |
      apply OptKept.ite | apply OutKept.ite | apply State.Kept.ite | apply OptKept.get ?_ (by assumption)
    | split | dsimp only
  all_goals exact (execDisable_kept _ _ h_s (by assumption) (by assumption) (by assumption) (by assumption)).kept _ (by assumption)

theorem State.ownNet_kept (s : State) (p o v : Nat)  (h_s : s.Kept P b0) (p_net : P .net = true) (p_levels : P .levels = true) (p_power : P .power = true) (p_rings : P .rings = true) (p_vecs : P .vecs = true) (p_hostFn : P .hostFn = true) (p_streams : P .streams = true) : OptKept P b0 (State.ownNet s p o v) := by
  rw [State.ownNet.eq_def]
  repeat' first
    | with_reducible first
      | assumption | apply State.wr_kept | apply execPortCfgWrite_kept | apply execGclCommit_kept | apply execCbsWrite_kept |
      apply execPsfWrite_kept | apply OutKept.next | apply OptKept.some | exact OptKept.none | apply OptKept.ite | apply OutKept.ite |
      apply State.Kept.ite | apply OptKept.get ?_ (by assumption)
    | split | dsimp only

theorem State.ownHigh_kept (s : State) (byHost : Bool) (off v : Nat)  (h_s : s.Kept P b0) (p_free : P .free = true) (p_dater : P .dater = true) (p_net : P .net = true) (p_bnd : P .bnd = true) (p_rgs : P .rgs = true) (p_harts : P .harts = true) (p_engines : P .engines = true) (p_mmu : P .mmu = true) (p_levels : P .levels = true) (p_queues : P .queues = true) (p_cat : P .cat = true) (p_power : P .power = true) (p_pads : P .pads = true) (p_rings : P .rings = true) (p_vecs : P .vecs = true) (p_hostFn : P .hostFn = true) (p_streams : P .streams = true) (p_staged : P .staged = true) (p_tripped : P .tripped = true) (p_gone : P .gone = true) : OptKept P b0 (State.ownHigh s byHost off v) := by
  rw [State.ownHigh.eq_def]
  repeat' first
    | with_reducible first
      | assumption | apply execSqTail_kept | apply execRqHead_kept | apply execAlarmArm_kept | apply execAlarmDisarm_kept |
      apply execTimeOutArm_kept | apply execTimeOutDisarm_kept | apply State.daterCmd_kept | apply execIncrWrite_kept | apply execHoldCtlWrite_kept
      | apply execI2cCmd_kept | apply State.magCmd_kept | apply execSmbCfgWrite_kept | apply State.writeFields_kept | apply State.writePortPhy_kept
      | apply State.writeUnitCtl_kept | apply State.writeTinCtl_kept | apply State.ownNet_kept | apply OutKept.next | apply OptKept.some |
      exact OptKept.none | apply OptKept.ite | apply OutKept.ite | apply State.Kept.ite | apply OptKept.get ?_ (by assumption)
    | split | dsimp only

theorem State.afterWrite_kept (s t : State) (off : Nat)  (h_s : s.Kept P b0) (h_t : t.Kept P b0) (p_dater : P .dater = true) (p_harts : P .harts = true) (p_power : P .power = true) (p_pads : P .pads = true) : (State.afterWrite s t off).Kept P b0 := by
  rw [State.afterWrite.eq_def]
  repeat' first
    | with_reducible first
      | assumption | apply State.alertRise_kept | apply State.checkTimer_kept | apply State.checkWake_kept | apply State.ppsUpdate_kept |
      apply State.servoPorts_kept | apply State.showDomain_kept | exact OutKept.fault _
    | split | dsimp only

theorem execRegisterWrite_kept (byHost : Bool) (off v : Nat) (s : State)  (h_s : s.Kept P b0) (p_dram : P .dram = true) (p_damage : P .damage = true) (p_host : P .host = true) (p_free : P .free = true) (p_dater : P .dater = true) (p_net : P .net = true) (p_bnd : P .bnd = true) (p_rgs : P .rgs = true) (p_harts : P .harts = true) (p_engines : P .engines = true) (p_mmu : P .mmu = true) (p_dma : P .dma = true) (p_levels : P .levels = true) (p_queues : P .queues = true) (p_pools : P .pools = true) (p_orphans : P .orphans = true) (p_chans : P .chans = true) (p_scrub : P .scrub = true) (p_cat : P .cat = true) (p_power : P .power = true) (p_keeper : P .keeper = true) (p_cons : P .cons = true) (p_pads : P .pads = true) (p_rings : P .rings = true) (p_vecs : P .vecs = true) (p_hostFn : P .hostFn = true) (p_streams : P .streams = true) (p_staged : P .staged = true) (p_taking : P .taking = true) (p_tripped : P .tripped = true) (p_gone : P .gone = true) : OutKept P b0 (execRegisterWrite byHost off v s) := by
  rw [execRegisterWrite.eq_def]
  repeat' first
    | with_reducible first
      | assumption | apply State.bump_kept | apply State.heard_kept | apply State.writeFields_kept | apply State.ownLow_kept |
      apply State.ownMid_kept | apply State.ownHigh_kept | apply State.afterWrite_kept | apply OutKept.next | exact OutKept.fault _ |
      apply OptKept.some | exact OptKept.none | apply OptKept.get ?_ (by assumption)
    | split | dsimp only

end Sys2Proof.Machine
end

