-- ==== Sys2Proof/Laws/OpsFrame.lean ====
section
/-! SUPPORT. What the shared operations change, as steps of a frame. -/

set_option linter.unusedTactic false
set_option linter.unreachableTactic false

namespace Sys2Proof.Machine

variable {s t : State} {ps : List Part} {fs : List Fld}

theorem State.frame.add (h : s.frame t ps fs) (f : Fld) (k : Nat)   (f0 : f ∈ fs) :
    s.frame (t.add f k) ps fs := by
  rw [State.add.eq_def]
  repeat' first | (with_reducible first | assumption | apply State.frame.put) | dsimp only

theorem State.frame.bump (h : s.frame t ps fs) (f : Fld)   (f0 : f ∈ fs) :
    s.frame (t.bump f) ps fs := by
  rw [State.bump.eq_def]
  repeat' first | (with_reducible first | assumption | apply State.frame.add) | dsimp only

theorem State.frame.putBit (h : s.frame t ps fs) (base i : Nat) (v : Bool)   (f0 : ⟨base + 4 * (i / 32), i % 32, 1⟩ ∈ fs) :
    s.frame (t.putBit base i v) ps fs := by
  rw [State.putBit.eq_def]
  repeat' first | (with_reducible first | assumption | apply State.frame.put) | split | dsimp only

theorem State.frame.putPair (h : s.frame t ps fs) (lo hi v : Nat)   (f0 : Fld.whole lo ∈ fs) (f1 : Fld.whole hi ∈ fs) :
    s.frame (t.putPair lo hi v) ps fs := by
  rw [State.putPair.eq_def]
  repeat' first | (with_reducible first | assumption | apply State.frame.wr) | dsimp only

theorem State.frame.putTime (h : s.frame t ps fs) (lo hi ns : Nat) (d : DTime)   (f0 : Fld.whole lo ∈ fs) (f1 : Fld.whole hi ∈ fs) (f2 : Fld.whole ns ∈ fs) :
    s.frame (t.putTime lo hi ns d) ps fs := by
  rw [State.putTime.eq_def]
  repeat' first | (with_reducible first | assumption | apply State.frame.wr) | dsimp only

theorem State.frame.setRing (h : s.frame t ps fs) (n : Nat) (r : Ring)  (p_rings : .rings ∈ ps)  :
    s.frame (t.setRing n r) ps fs := by
  rw [State.setRing.eq_def]
  repeat' first | simp only [State.frame_mk] | (with_reducible first | assumption | apply FrameF.u_rings) | intro _ | dsimp only

theorem State.frame.setVec (h : s.frame t ps fs) (n : Nat) (r : Vec)  (p_vecs : .vecs ∈ ps)  :
    s.frame (t.setVec n r) ps fs := by
  rw [State.setVec.eq_def]
  repeat' first | simp only [State.frame_mk] | (with_reducible first | assumption | apply FrameF.u_vecs) | intro _ | dsimp only

theorem State.frame.setStream (h : s.frame t ps fs) (n : Nat) (r : Stream)  (p_streams : .streams ∈ ps)  :
    s.frame (t.setStream n r) ps fs := by
  rw [State.setStream.eq_def]
  repeat' first | simp only [State.frame_mk] | (with_reducible first | assumption | apply FrameF.u_streams) | intro _ | dsimp only

theorem State.frame.setHart (h : s.frame t ps fs) (n : Nat) (r : Hart)  (p_harts : .harts ∈ ps)  :
    s.frame (t.setHart n r) ps fs := by
  rw [State.setHart.eq_def]
  repeat' first | simp only [State.frame_mk] | (with_reducible first | assumption | apply FrameF.u_harts) | intro _ | dsimp only

theorem State.frame.setEngine (h : s.frame t ps fs) (n : Nat) (r : Engine)  (p_engines : .engines ∈ ps)  :
    s.frame (t.setEngine n r) ps fs := by
  rw [State.setEngine.eq_def]
  repeat' first | simp only [State.frame_mk] | (with_reducible first | assumption | apply FrameF.u_engines) | intro _ | dsimp only

theorem State.frame.setDmaCh (h : s.frame t ps fs) (n : Nat) (r : DmaCh)  (p_dma : .dma ∈ ps)  :
    s.frame (t.setDmaCh n r) ps fs := by
  rw [State.setDmaCh.eq_def]
  repeat' first | simp only [State.frame_mk] | (with_reducible first | assumption | apply FrameF.u_dma) | intro _ | dsimp only

theorem State.frame.setQueue (h : s.frame t ps fs) (n : Nat) (r : Queue)  (p_queues : .queues ∈ ps)  :
    s.frame (t.setQueue n r) ps fs := by
  rw [State.setQueue.eq_def]
  repeat' first | simp only [State.frame_mk] | (with_reducible first | assumption | apply FrameF.u_queues) | intro _ | dsimp only

theorem State.frame.setPool (h : s.frame t ps fs) (n : Nat) (r : Pool)  (p_pools : .pools ∈ ps)  :
    s.frame (t.setPool n r) ps fs := by
  rw [State.setPool.eq_def]
  repeat' first | simp only [State.frame_mk] | (with_reducible first | assumption | apply FrameF.u_pools) | intro _ | dsimp only

theorem State.frame.setMag (h : s.frame t ps fs) (n : Nat) (r : Mag)  (p_bnd : .bnd ∈ ps)  :
    s.frame (t.setMag n r) ps fs := by
  rw [State.setMag.eq_def]
  repeat' first | simp only [State.frame_mk] | (with_reducible first | assumption | apply FrameF.u_bnd) | intro _ | dsimp only

theorem State.frame.setCatUnit (h : s.frame t ps fs) (n : Nat) (r : CatUnit)  (p_cat : .cat ∈ ps)  :
    s.frame (t.setCatUnit n r) ps fs := by
  rw [State.setCatUnit.eq_def]
  repeat' first | simp only [State.frame_mk] | (with_reducible first | assumption | apply FrameF.u_cat) | intro _ | dsimp only

theorem State.frame.reply (h : s.frame t ps fs) (l : List Nat)  (p_answer : .answer ∈ ps)  :
    s.frame (t.reply l) ps fs := by
  rw [State.reply.eq_def]
  repeat' first | simp only [State.frame_mk] | (with_reducible first | assumption | apply FrameF.u_answer) | dsimp only

theorem State.frame.raise (h : s.frame t ps fs) (n : Nat)   (f0 : srcPending n ∈ fs) :
    s.frame (t.raise n) ps fs := by
  rw [State.raise.eq_def]
  repeat' first | (with_reducible first | assumption | apply State.frame.put) | split | dsimp only

theorem State.frame.showPending (h : s.frame t ps fs) (n : Nat)   (f0 : HIF.RP_RQ_STAT_PENDING n ∈ fs) :
    s.frame (t.showPending n) ps fs := by
  rw [State.showPending.eq_def]
  repeat' first | (with_reducible first | assumption | apply State.frame.put) | dsimp only

theorem State.frame.postEvent (h : s.frame t ps fs) (n : Nat) (r : RetSlip)  (p_rings : .rings ∈ ps) (f0 : HIF.RP_RQ_STAT_PENDING n ∈ fs) (f1 : HIF.EVT_LOST_COUNT ∈ fs) :
    s.frame (t.postEvent n r) ps fs := by
  rw [State.postEvent.eq_def]
  repeat' first | (with_reducible first | assumption | apply State.frame.bump | apply State.frame.setRing | apply State.frame.showPending) | split | dsimp only

theorem State.frame.streamEvent (h : s.frame t ps fs) (n status kind extra : Nat) (w : List Nat)  (p_rings : .rings ∈ ps) (f0 : HIF.RP_RQ_STAT_PENDING (t.stream n).eventRing ∈ fs) (f1 : HIF.EVT_LOST_COUNT ∈ fs) :
    s.frame (t.streamEvent n status kind extra w) ps fs := by
  rw [State.streamEvent.eq_def]
  repeat' first | (with_reducible first | assumption | apply State.frame.postEvent) | dsimp only

theorem State.frame.pme (h : s.frame t ps fs)   (p_power : .power ∈ ps) (p_hostFn : .hostFn ∈ ps)  :
    s.frame (t.pme) ps fs := by
  rw [State.pme.eq_def]
  repeat' first | simp only [State.frame_mk] | (with_reducible first | assumption | apply FrameF.u_power | apply FrameF.u_hostFn) | split | dsimp only

theorem State.frame.setVecPending (h : s.frame t ps fs) (v : Nat) (b : Bool)   (f0 : ∀ g ∈ vectorBits v, g ∈ fs) :
    s.frame (t.setVecPending v b) ps fs := by
  rw [State.setVecPending.eq_def]
  exact (h.putBit _ _ _ (f0 _ (by simp [vectorBits]))).putBit _ _ _ (f0 _ (by simp [vectorBits]))

theorem State.frame.keepVec (h : s.frame t ps fs) (v : Nat)  (p_power : .power ∈ ps) (p_vecs : .vecs ∈ ps) (p_hostFn : .hostFn ∈ ps) (f0 : ∀ g ∈ vectorBits v, g ∈ fs) :
    s.frame (t.keepVec v) ps fs := by
  rw [State.keepVec.eq_def]
  repeat' first | (with_reducible first | assumption | apply State.frame.setVec | apply State.frame.pme | apply State.frame.setVecPending) | split | dsimp only

theorem State.frame.countWaiting (h : s.frame t ps fs) (v : Nat)  (p_power : .power ∈ ps) (p_vecs : .vecs ∈ ps) (p_hostFn : .hostFn ∈ ps) (f0 : ∀ g ∈ vectorBits v, g ∈ fs) :
    s.frame (t.countWaiting v) ps fs := by
  rw [State.countWaiting.eq_def]
  repeat' first | (with_reducible first | assumption | apply State.frame.setVec | apply State.frame.keepVec) | split | dsimp only

theorem State.frame.complete (h : s.frame t ps fs) (n : Nat) (r : RetSlip)  (p_rings : .rings ∈ ps) (p_power : .power ∈ ps) (p_vecs : .vecs ∈ ps) (p_hostFn : .hostFn ∈ ps) (f0 : ∀ g ∈ vectorBits (t.get (HIF.RP_CFG_VECTOR n)), g ∈ fs) :
    s.frame (t.complete n r) ps fs := by
  rw [State.complete.eq_def]
  dsimp only
  split
  · rw [State.get_setRing]
    exact (h.setRing _ _ p_rings).countWaiting _ p_power p_vecs p_hostFn f0
  · exact h.setRing _ _ p_rings

theorem State.frame.showBusy (h : s.frame t ps fs) (n : Nat)   (f0 : HIF.RP_STAT_BUSY n ∈ fs) :
    s.frame (t.showBusy n) ps fs := by
  rw [State.showBusy.eq_def]
  repeat' first | (with_reducible first | assumption | apply State.frame.put) | intro _ | split | dsimp only

theorem State.frame.finishOne (h : s.frame t ps fs) (n : Nat) (k : Taken) (st x : Nat) (w : List Nat)  (p_rings : .rings ∈ ps) (p_power : .power ∈ ps) (p_vecs : .vecs ∈ ps) (p_hostFn : .hostFn ∈ ps) (f0 : HIF.RP_STAT_BUSY n ∈ fs) (f1 : ∀ g ∈ vectorBits (t.get (HIF.RP_CFG_VECTOR n)), g ∈ fs) :
    s.frame (t.finishOne n k st x w) ps fs := by
  rw [State.finishOne.eq_def]
  exact ((h.setRing _ _ p_rings).complete _ _ p_rings p_power p_vecs p_hostFn (by rw [State.get_setRing]; exact f1)).showBusy _ f0

/-- A completion leaves the pair's vector as it was. -/
theorem State.finishOne_vector (t : State) (n : Nat) (k : Taken) (st x : Nat) (w : List Nat) :
    (t.finishOne n k st x w).get (HIF.RP_CFG_VECTOR n) = t.get (HIF.RP_CFG_VECTOR n) := by
  have h : t.frame (t.finishOne n k st x w) [.rings, .power, .vecs, .hostFn] (HIF.RP_STAT_BUSY n :: vectorBits (t.get (HIF.RP_CFG_VECTOR n))) :=
    State.frame.rfl'.finishOne n k st x w (by simp) (by simp) (by simp) (by simp) (by simp) fun g hg => List.mem_cons_of_mem _ hg
  have hv : t.get (HIF.RP_CFG_VECTOR n) < 64 := t.get_lt (HIF.RP_CFG_VECTOR n)
  refine h.2 _ (by simp [HIF.RP_CFG_VECTOR]) fun g hg => ?_
  generalize t.get (HIF.RP_CFG_VECTOR n) = v at hv hg
  simp only [vectorBits, List.mem_cons, List.not_mem_nil, or_false] at hg
  rcases hg with rfl | rfl | rfl <;> left <;> simp only [HIF.RP_CFG_VECTOR, HIF.RP_CFG, HIF.RP_STAT_BUSY, HIF.RP_STAT, HIF.VEC_PEND, HIF.MSIX_PBA] <;> omega

theorem State.frame.finishDecided (h : s.frame t ps fs) (n g : Nat)  (p_rings : .rings ∈ ps) (p_power : .power ∈ ps) (p_vecs : .vecs ∈ ps) (p_hostFn : .hostFn ∈ ps) (f0 : HIF.RP_STAT_BUSY n ∈ fs) (f1 : ∀ g ∈ vectorBits (t.get (HIF.RP_CFG_VECTOR n)), g ∈ fs) :
    s.frame (t.finishDecided n g) ps fs := by
  induction g generalizing t with
  | zero => exact h
  | succ g ih =>
    unfold State.finishDecided
    split
    · exact ih (State.frame.finishOne h _ _ _ _ _ p_rings p_power p_vecs p_hostFn f0 f1) (by rw [State.finishOne_vector]; exact f1)
    · exact h

theorem State.frame.finish (h : s.frame t ps fs) (n : Nat) (k : Taken) (st x : Nat) (w : List Nat)  (p_rings : .rings ∈ ps) (p_power : .power ∈ ps) (p_vecs : .vecs ∈ ps) (p_hostFn : .hostFn ∈ ps) (f0 : HIF.RP_STAT_BUSY n ∈ fs) (f1 : ∀ g ∈ vectorBits (t.get (HIF.RP_CFG_VECTOR n)), g ∈ fs) :
    s.frame (t.finish n k st x w) ps fs := by
  rw [State.finish.eq_def]
  exact (h.finishOne _ _ _ _ _ p_rings p_power p_vecs p_hostFn f0 f1).finishDecided _ _ p_rings p_power p_vecs p_hostFn f0
    (by rw [State.finishOne_vector]; exact f1)

theorem State.frame.onPic (h : s.frame t ps fs) (n num : Nat) (g : Pic → Pic)  (p_streams : .streams ∈ ps)  :
    s.frame (t.onPic n num g) ps fs := by
  rw [State.onPic.eq_def]
  repeat' first | (with_reducible first | assumption | apply State.frame.setStream) | split | dsimp only

theorem State.frame.setTout (h : s.frame t ps fs) (n : Nat) (o : Tout)  (p_dater : .dater ∈ ps) (f0 : DAT.TOUT_STAT_ACTIVE n ∈ fs) (f1 : DAT.TOUT_STAT_PENDING n ∈ fs) :
    s.frame (t.setTout n o) ps fs := by
  rw [State.setTout.eq_def]
  repeat' first | simp only [State.frame_mk] | (with_reducible first | assumption | apply State.frame.put | apply FrameF.u_dater) | intro _ | split | dsimp only

theorem State.frame.skipEdges (h : s.frame t ps fs) (n k : Nat)   (f0 : DAT.TOUT_STAT_SKIPPED n ∈ fs) (f1 : DAT.TOUT_STAT_LATE n ∈ fs) :
    s.frame (t.skipEdges n k) ps fs := by
  rw [State.skipEdges.eq_def]
  repeat' first | (with_reducible first | assumption | apply State.frame.add | apply State.frame.put) | split | dsimp only

theorem State.frame.alignOut (h : s.frame t ps fs) (n a b : Nat)  (p_dater : .dater ∈ ps) (f0 : DAT.TOUT_STAT_ACTIVE n ∈ fs) (f1 : DAT.TOUT_STAT_PENDING n ∈ fs) (f2 : DAT.TOUT_STAT_SKIPPED n ∈ fs) (f3 : DAT.TOUT_STAT_LATE n ∈ fs) :
    s.frame (t.alignOut n a b) ps fs := by
  rw [State.alignOut.eq_def]
  repeat' first | (with_reducible first | assumption | apply State.frame.setTout | apply State.frame.skipEdges) | intro _ | split | dsimp only

theorem State.frame.setPort (h : s.frame t ps fs) (n : Nat) (r : NetPort)  (p_net : .net ∈ ps)  :
    s.frame (t.setPort n r) ps fs := by
  rw [State.setPort.eq_def]
  repeat' first | simp only [State.frame_mk] | (with_reducible first | assumption | apply FrameF.u_net) | intro _ | dsimp only

theorem State.frame.alignGates (h : s.frame t ps fs) (n a b : Nat)  (p_net : .net ∈ ps) (f0 : NET.GCL_STAT_SKIPPED n ∈ fs) (f1 : NET.GCL_STAT_LATE n ∈ fs) :
    s.frame (t.alignGates n a b) ps fs := by
  rw [State.alignGates.eq_def]
  repeat' first | (with_reducible first | assumption | apply State.frame.add | apply State.frame.setPort | apply State.frame.put) | intro _ | split | dsimp only

theorem State.frame.account (h : s.frame t ps fs) (n : Nat)  (p_net : .net ∈ ps) (f0 : ∀ c, c < 8 → NET.CBS_CREDIT_VALUE n c ∈ fs) :
    s.frame (t.account n) ps fs := by
  rw [State.account.eq_def]
  dsimp only
  apply State.frame.setPort _ _ _ p_net
  split <;>
  · apply State.frame.foldl_mem h
    intro t c hc ht
    split
    · exact (ht.setPort _ _ p_net).put _ (f0 c (List.mem_range.1 hc))
    · exact ht

theorem State.frame.checkTimer (h : s.frame t ps fs) (n : Nat)  (p_harts : .harts ∈ ps)  :
    s.frame (t.checkTimer n) ps fs := by
  rw [State.checkTimer.eq_def]
  repeat' first | (with_reducible first | assumption | apply State.frame.setHart) | dsimp only

theorem State.frame.checkWake (h : s.frame t ps fs)   (p_power : .power ∈ ps) (f0 : PWR.PWR_STAT_STATE ∈ fs) :
    s.frame (t.checkWake) ps fs := by
  rw [State.checkWake.eq_def]
  repeat' first | simp only [State.frame_mk] | (with_reducible first | assumption | apply State.frame.put | apply FrameF.u_power) | split | dsimp only

theorem State.frame.unwind (h : s.frame t ps fs) (c : Option Nat)  (p_power : .power ∈ ps) (f0 : PWR.PWR_STAT_STATE ∈ fs) :
    s.frame (t.unwind c) ps fs := by
  rw [State.unwind.eq_def]
  repeat' first | simp only [State.frame_mk] | (with_reducible first | assumption | apply State.frame.put | apply FrameF.u_power) | split | dsimp only

theorem State.frame.wakeEvent (h : s.frame t ps fs) (n : Nat)  (p_power : .power ∈ ps) (f0 : ⟨PWR.WAKE_PEND + 4 * (n / 32), n % 32, 1⟩ ∈ fs) (f1 : PWR.PWR_STAT_STATE ∈ fs) :
    s.frame (t.wakeEvent n) ps fs := by
  rw [State.wakeEvent.eq_def]
  repeat' first | (with_reducible first | assumption | apply State.frame.putBit | apply State.frame.checkWake | apply State.frame.unwind) | split | dsimp only

theorem State.frame.fireAlarm (h : s.frame t ps fs) (late : Bool)  (p_rings : .rings ∈ ps) (p_power : .power ∈ ps) (f0 : ∀ f ∈ alarmFields, f ∈ fs) :
    s.frame (t.fireAlarm late) ps fs := by
  have k1 := f0 DAT.ALARM_CTL_FIRED (by simp [alarmFields])
  have k2 := f0 DAT.ALARM_CTL_ARMED (by simp [alarmFields])
  have k3 := f0 DAT.ALARM_CTL_LATE (by simp [alarmFields])
  have k4 := f0 (srcPending 5) (by simp [alarmFields])
  have k5 := f0 HIF.EVT_LOST_COUNT (by simp [alarmFields])
  have k6 := f0 ⟨PWR.WAKE_PEND + 4 * (2 / 32), 2 % 32, 1⟩ (by simp [alarmFields])
  have k7 := f0 PWR.PWR_STAT_STATE (by simp [alarmFields])
  have k8 : ∀ n, n < 64 → HIF.RP_RQ_STAT_PENDING n ∈ fs := fun n hn => f0 _ (by
    simp only [alarmFields, List.mem_append, List.mem_map, List.mem_range]
    exact .inr ⟨n, hn, rfl⟩)
  unfold State.fireAlarm
  extract_lets a b c d
  have ha : s.frame a ps fs := (h.put 1 k1).put 0 k2
  clear_value a
  have hb : s.frame b ps fs := by
    subst b
    split
    · exact ha.put 1 k3
    · exact ha
  clear_value b
  have hc : s.frame c ps fs := hb.raise 5 k4
  clear_value c
  have hd : s.frame d ps fs := by
    subst d
    split
    · exact hc.postEvent _ _ p_rings (k8 _ (c.get_lt ICU.ALARM_EVT_RING)) k5
    · exact hc
  clear_value d
  split
  · exact hd.wakeEvent 2 p_power k6 k7
  · exact hd

theorem State.frame.request (h : s.frame t ps fs) (l : Nat)   (f0 : DMA.REQ_COUNT_COUNT l ∈ fs) :
    s.frame (t.request l) ps fs := by
  rw [State.request.eq_def]
  repeat' first | (with_reducible first | assumption | apply State.frame.bump) | split | dsimp only

theorem State.frame.setLevel (h : s.frame t ps fs) (l : Nat) (v : Bool)  (p_levels : .levels ∈ ps)  :
    s.frame (t.setLevel l v) ps fs := by
  rw [State.setLevel.eq_def]
  repeat' first | simp only [State.frame_mk] | (with_reducible first | assumption | apply FrameF.u_levels) | split | dsimp only

theorem State.frame.showGates (h : s.frame t ps fs) (n : Nat)  (p_levels : .levels ∈ ps)  :
    s.frame (t.showGates n) ps fs := by
  rw [State.showGates.eq_def]
  repeat' first | (with_reducible first | assumption | apply State.frame.setLevel | apply State.frame.foldl) | intro _ | dsimp only

theorem State.frame.noteEdge (h : s.frame t ps fs) (n d : Nat)  (p_streams : .streams ∈ ps)  :
    s.frame (t.noteEdge n d) ps fs := by
  rw [State.noteEdge.eq_def]
  repeat' first | (with_reducible first | assumption | apply State.frame.setStream | apply State.frame.foldl) | intro _ | split | dsimp only

theorem State.frame.setTin (h : s.frame t ps fs) (n : Nat) (q : List (Nat × Bool))  (p_dater : .dater ∈ ps) (f0 : DAT.TIN_STAT_COUNT n ∈ fs) (f1 : DAT.TIN_STAT_VALID n ∈ fs) (f2 : DAT.TIN_STAT_HEAD_RISING n ∈ fs) (f3 : Fld.whole (DAT.TIN_CAP_SEC_LO n) ∈ fs) (f4 : Fld.whole (DAT.TIN_CAP_SEC_HI n) ∈ fs) (f5 : Fld.whole (DAT.TIN_CAP_NS n) ∈ fs) :
    s.frame (t.setTin n q) ps fs := by
  rw [State.setTin.eq_def]
  repeat' first | simp only [State.frame_mk] | (with_reducible first | assumption | apply State.frame.putTime | apply State.frame.put | apply State.frame.wr | apply FrameF.u_dater) | intro _ | split | dsimp only


/-- A change of the time (R311, R315): the time is the new one, STEPPED is set, STEPS counts, and beyond that only schedules, gate lists,
timers and the alarm move. -/
theorem State.changeTime_spec (t : State) (v : Nat) : ∃ c : State, c.time = v % timeWrap ∧ c.get DAT.DAT_STAT_STEPPED = 1 ∧
    c.get DAT.DAT_STAT_STEPS = satAdd 8 (t.get DAT.DAT_STAT_STEPS) 1 ∧
    t.frame c [.net, .time] ([DAT.DAT_STAT_STEPPED, DAT.DAT_STAT_STEPS] ++ (List.range 2).flatMap (fun p => (List.range 8).map (NET.CBS_CREDIT_VALUE p))) ∧
    c.frame (t.changeTime v) [.dater, .net, .harts, .rings, .power] scheduleFields := by
  have tm : ∀ {s t : State} {ps fs}, .dater ∈ ps → (∀ f ∈ scheduleFields, f ∈ fs) → s.frame t ps fs → ∀ k, k < 8 → ∀ a b, s.frame (t.alignOut k a b) ps fs :=
    fun p f0 h k hk a b => by
      refine h.alignOut k a b p (f0 _ ?_) (f0 _ ?_) (f0 _ ?_) (f0 _ ?_) <;>
      · simp only [scheduleFields, List.mem_append, List.mem_flatMap, List.mem_range]
        exact .inl (.inl (.inl ⟨k, hk, by simp⟩))
  have tg : ∀ {s t : State} {ps fs}, .net ∈ ps → (∀ f ∈ scheduleFields, f ∈ fs) → s.frame t ps fs → ∀ k, k < 2 → ∀ a b, s.frame (t.alignGates k a b) ps fs :=
    fun p f0 h k hk a b => by
      refine h.alignGates k a b p (f0 _ ?_) (f0 _ ?_) <;>
      · simp only [scheduleFields, List.mem_append, List.mem_flatMap, List.mem_range]
        exact .inl (.inl (.inr ⟨k, hk, by simp⟩))
  have tf : ∀ {s t : State} {ps fs}, .rings ∈ ps → .power ∈ ps → (∀ f ∈ scheduleFields, f ∈ fs) → s.frame t ps fs → ∀ l, s.frame (t.fireAlarm l) ps fs :=
    fun p1 p2 f0 h l => by
      refine h.fireAlarm l p1 p2 fun f hf => f0 f ?_
      simp only [scheduleFields, List.mem_append]
      exact .inr hf
  have all : ∀ f ∈ scheduleFields, f ∈ scheduleFields := fun _ h => h
  unfold State.changeTime
  extract_lets t0 a b t1 c d g i0 i j
  have ha : t.frame a [.net, .time] ([DAT.DAT_STAT_STEPPED, DAT.DAT_STAT_STEPS] ++ (List.range 2).flatMap (fun p => (List.range 8).map (NET.CBS_CREDIT_VALUE p))) :=
    State.frame.rfl'.foldl_mem fun t k hk ht => ht.account k (by simp) fun c hc => by
      simp only [List.mem_append, List.mem_flatMap, List.mem_map]
      exact .inr ⟨k, hk, c, List.mem_range.2 hc, rfl⟩
  have hs0 : t.frame a [.net] ((List.range 2).flatMap (fun p => (List.range 8).map (NET.CBS_CREDIT_VALUE p))) :=
    by
      subst a
      refine State.frame.foldl_mem State.frame.rfl' fun t k hk ht => ht.account k (List.mem_singleton.2 rfl) fun c hc => ?_
      simp only [List.mem_flatMap, List.mem_map]
      exact ⟨k, hk, c, List.mem_range.2 hc, rfl⟩
  have hs : a.get DAT.DAT_STAT_STEPS = t.get DAT.DAT_STAT_STEPS := hs0.2 _ (by decide) (by decide)
  clear_value a
  have hb : b.time = v % timeWrap := rfl
  have hb2 : t.frame b _ _ := ha.time (v % timeWrap) (by simp)
  have hb3 : b.get DAT.DAT_STAT_STEPS = t.get DAT.DAT_STAT_STEPS := (State.get_congr (s := a) rfl rfl _).trans hs
  clear_value b t1
  refine ⟨c, by subst c; rw [State.bump_time, State.put_time, hb], ?_, ?_, ?_, ?_⟩
  · subst c
    rw [State.bump, State.add, State.get_put_apart _ _ (by decide) (by decide), State.get_put_same _ _ (by decide)]
    decide
  · subst c
    have e : (b.put DAT.DAT_STAT_STEPPED 1).get DAT.DAT_STAT_STEPS = t.get DAT.DAT_STAT_STEPS := by
      rw [State.get_put_apart _ _ (by decide) (by decide), hb3]
    rw [State.bump, State.add, State.get_put_same _ _ (by decide), e]
    refine Nat.mod_eq_of_lt ?_
    show satAdd 8 _ _ < 2 ^ 8
    unfold satAdd
    split <;> omega
  · exact (hb2.put _ (by simp)).bump _ (by simp)
  · clear_value c
    have hd : c.frame d [.dater, .net, .harts, .rings, .power] scheduleFields := State.frame.rfl'.foldl_mem fun t k hk ht => by
      split
      · exact ht
      · exact tm (by simp) all ht k (List.mem_range.1 hk) _ _
    clear_value d
    have hg : c.frame g [.dater, .net, .harts, .rings, .power] scheduleFields := hd.foldl_mem fun t k hk ht =>
      tg (by simp) all ht k (List.mem_range.1 hk) _ _
    clear_value g
    have hi : c.frame i [.dater, .net, .harts, .rings, .power] scheduleFields := hg.dater _ (by simp)
    clear_value i
    have hj : c.frame j [.dater, .net, .harts, .rings, .power] scheduleFields := by
      subst j
      split
      · split
        · exact tf (by simp) (by simp) all hi true
        · split
          · exact tf (by simp) (by simp) all hi false
          · exact hi
      · exact hi
    clear_value j
    exact hj.foldl fun t k ht => ht.checkTimer k (by simp)

/-- A wake source's event sets its bit (R501). -/
theorem State.wakeEvent_pend (t : State) (n : Nat) (hn : n < 32) : (t.wakeEvent n).bitOn PWR.WAKE_PEND n = true := by
  have f : ∀ x : State, x.get ⟨PWR.WAKE_PEND + 4 * (n / 32), n % 32, 1⟩ = 1 → x.bitOn PWR.WAKE_PEND n = true := by
    intro x h
    unfold State.bitOn State.on
    rw [h]
    rfl
  apply f
  have ap : Fld.apart ⟨PWR.WAKE_PEND + 4 * (n / 32), n % 32, 1⟩ PWR.PWR_STAT_STATE := by
    left
    simp only [PWR.WAKE_PEND, PWR.PWR_STAT_STATE, PWR.PWR_STAT]
    omega
  have w : (⟨PWR.WAKE_PEND + 4 * (n / 32), n % 32, 1⟩ : Fld).lo + (⟨PWR.WAKE_PEND + 4 * (n / 32), n % 32, 1⟩ : Fld).w ≤ 32 := by
    show n % 32 + 1 ≤ 32
    omega
  have a : (t.putBit PWR.WAKE_PEND n true).get ⟨PWR.WAKE_PEND + 4 * (n / 32), n % 32, 1⟩ = 1 := by
    unfold State.putBit
    rw [State.get_put_same _ _ w]
    rfl
  unfold State.wakeEvent
  extract_lets s
  have hs : s.get ⟨PWR.WAKE_PEND + 4 * (n / 32), n % 32, 1⟩ = 1 := a
  clear_value s
  have hf : s.frame (if bitAt (s.get PWR.WAKE_EN_SOURCES) n then (if s.power.sleep.isSome then s.unwind s.wakeSources.head? else s.checkWake) else s)
      [.power] [PWR.PWR_STAT_STATE] := by
    split
    · split
      · exact State.frame.rfl'.unwind _ (by simp) (by simp)
      · exact State.frame.rfl'.checkWake (by simp) (by simp)
    · exact State.frame.rfl'
  rw [hf.2 _ w (fun g hg => by rw [List.mem_singleton.1 hg]; exact ap), hs]

/-- The alarm fires (R326). -/
theorem State.fireAlarm_spec (t : State) (late : Bool) :
    (t.fireAlarm late).get DAT.ALARM_CTL_FIRED = 1 ∧ (t.fireAlarm late).get DAT.ALARM_CTL_ARMED = 0 ∧
    (t.fireAlarm late).get DAT.ALARM_CTL_LATE = (if late then 1 else t.get DAT.ALARM_CTL_LATE) ∧
    (t.fireAlarm late).get (srcPending 5) = 1 ∧ (t.on DAT.ALARM_CTL_WAKE → (t.fireAlarm late).bitOn PWR.WAKE_PEND 2 = true) := by
  have on : ∀ {x y : State} {f : Fld}, y.get f = x.get f → y.on f = x.on f := fun h => by unfold State.on; rw [h]
  unfold State.fireAlarm
  extract_lets a b c d
  have a1 : a.get DAT.ALARM_CTL_FIRED = 1 := by
    subst a
    rw [State.get_put_apart _ _ (by decide) (by decide), State.get_put_same _ _ (by decide)]
    decide
  have a2 : a.get DAT.ALARM_CTL_ARMED = 0 := by
    subst a
    rw [State.get_put_same _ _ (by decide)]
    decide
  have a3 : a.get DAT.ALARM_CTL_LATE = t.get DAT.ALARM_CTL_LATE := by
    subst a
    rw [State.get_put_apart _ _ (by decide) (by decide), State.get_put_apart _ _ (by decide) (by decide)]
  have a4 : a.get DAT.ALARM_CTL_WAKE = t.get DAT.ALARM_CTL_WAKE := by
    subst a
    rw [State.get_put_apart _ _ (by decide) (by decide), State.get_put_apart _ _ (by decide) (by decide)]
  clear_value a
  have hb : a.frame b [] [DAT.ALARM_CTL_LATE] := by
    subst b
    split
    · exact State.frame.rfl'.put _ (by simp)
    · exact State.frame.rfl'
  have b3 : b.get DAT.ALARM_CTL_LATE = (if late then 1 else t.get DAT.ALARM_CTL_LATE) := by
    subst b
    split
    · rw [State.get_put_same _ _ (by decide)]
      decide
    · exact a3
  rw [← hb.2 _ (by decide) (by decide)] at a1 a2 a4
  clear_value b
  have hc : b.frame c [] [srcPending 5] := by
    subst c
    exact State.frame.rfl'.raise 5 (by simp)
  have c5 : c.get (srcPending 5) = 1 := by
    subst c
    unfold State.raise
    rw [if_pos (by decide), State.get_put_same _ _ (by decide)]
    decide
  rw [← hc.2 _ (by decide) (by decide)] at a1 a2 a4 b3
  clear_value c
  have hd : c.frame d [.rings] (HIF.EVT_LOST_COUNT :: (List.range 64).map HIF.RP_RQ_STAT_PENDING) := by
    subst d
    split
    · exact State.frame.rfl'.postEvent _ _ (by simp) (by
        refine List.mem_cons_of_mem _ (List.mem_map.2 ⟨_, List.mem_range.2 (c.get_lt ICU.ALARM_EVT_RING), rfl⟩)) (by simp)
    · exact State.frame.rfl'
  rw [← hd.2 _ (by decide) (by decide)] at a1 a2 a4 b3 c5
  clear_value d
  have hw : d.frame (d.wakeEvent 2) [.power] [⟨PWR.WAKE_PEND + 4 * (2 / 32), 2 % 32, 1⟩, PWR.PWR_STAT_STATE] :=
    State.frame.rfl'.wakeEvent 2 (by simp) (by simp) (by simp)
  split
  next h =>
    rw [← hw.2 _ (by decide) (by decide)] at a1 a2 b3 c5
    exact ⟨a1, a2, b3, c5, fun _ => d.wakeEvent_pend 2 (by decide)⟩
  next h =>
    refine ⟨a1, a2, b3, c5, fun g => ?_⟩
    rw [on a4] at h
    exact absurd g h

theorem State.frame.changeTime (h : s.frame t ps fs) (v : Nat) (p_time : .time ∈ ps) (p_dater : .dater ∈ ps) (p_net : .net ∈ ps)
    (p_harts : .harts ∈ ps) (p_rings : .rings ∈ ps) (p_power : .power ∈ ps) (f0 : ∀ f ∈ timeFields, f ∈ fs) : s.frame (t.changeTime v) ps fs := by
  obtain ⟨c, -, -, -, h1, h2⟩ := State.changeTime_spec t v
  refine h.trans ((h1.mono (fun p hp => ?_) fun f hf => f0 f ?_).trans (h2.mono (fun p hp => ?_) fun f hf => f0 f ?_))
  · simp only [List.mem_cons, List.not_mem_nil, or_false] at hp
    rcases hp with rfl | rfl <;> assumption
  · simp only [timeFields, scheduleFields, List.mem_append] at hf ⊢
    rcases hf with hf | hf
    · exact .inl hf
    · exact .inr (.inl (.inr hf))
  · simp only [List.mem_cons, List.not_mem_nil, or_false] at hp
    rcases hp with rfl | rfl | rfl | rfl | rfl <;> assumption
  · simp only [timeFields, List.mem_append]
    exact .inr hf

end Sys2Proof.Machine
end

