-- ==== Sys2Proof/WellFormed.lean ====
section
/-! DEFINITION. Well-formed commands: operands that name things the block has (R1 to R7 and the layouts of each chapter). -/
namespace Sys2Proof

open Machine

/-- A 32-bit word. -/
def wordOk (v : Nat) : Bool := decide (v < 2 ^ 32)
/-- A unit ID (R18). -/
def unitOk (u : Nat) : Bool := decide (u < 4096)
/-- A ring pair (R190). -/
def ringOk (n : Nat) : Bool := decide (n < 64)
/-- A stream number (R213). -/
def streamOk (n : Nat) : Bool := decide (n < 256)
/-- A sensor port (R226). -/
def portOk (p : Nat) : Bool := decide (p < 6)
/-- A virtual channel (R226). -/
def vcOk (v : Nat) : Bool := decide (v < 16)
/-- A magazine port (R246). -/
def magOk (p : Nat) : Bool := decide (p < 2)
/-- An Ethernet port (R284). -/
def netOk (p : Nat) : Bool := decide (p < 2)
/-- A flow of a port (R289). -/
def flowOk (f : Nat) : Bool := decide (f < 16)
/-- A hart (R408). -/
def hartOk (h : Nat) : Bool := decide (h < 4)
/-- An engine: carrels 0 to 67, scribes 68 to 85 (R425, R370). -/
def engineOk (i : Nat) : Bool := decide (i < 86)
/-- A DRAM channel (R328). -/
def chanOk (c : Nat) : Bool := decide (c < 8)
/-- A DMA channel (R373). -/
def dmaOk (c : Nat) : Bool := decide (c < 32)
/-- A queue of the Stacks (R386). -/
def queueOk (n : Nat) : Bool := decide (n < 4096)
/-- A pool (R397). -/
def poolOk (p : Nat) : Bool := decide (p < 16)
/-- An MSI-X vector (R211). -/
def vectorOk (v : Nat) : Bool := decide (v < 64)

/-- An output pin that exists (R457). -/
def pinOk : OutPin → Bool
  | .timeOut t => decide (t < 8)
  | .pps => true
  | .ingHold h => decide (h < 2)
  | .magPerst m => magOk m
  | .lpReset => true
  | .txDis n => netOk n

/-- A requester that exists (R357). -/
def requesterOk : Requester → Bool
  | .engine i => engineOk i
  | .dma ch => dmaOk ch
  | .slip rp k => ringOk rp && decide (k < 65536)
  | .phys _ unit => unitOk unit

/-- A well-formed command. -/
def WellFormed : Instr → Bool
  | .registerWrite _ off v => decide (off < 2 ^ 24 ∧ off % 4 = 0) && wordOk v
  | .handshakeWatchdog u => unitOk u.unit && decide (u.cond < 64)
  | .paceCtlWrite v => wordOk v
  | .leafDispatch n _ j cars scrs => streamOk n && decide (j < 65536) && cars.all (fun i => decide (i < 68)) && scrs.all (fun i => decide (68 ≤ i ∧ i < 86))
  | .subframeLeafDispatch n _ j cars scrs => streamOk n && decide (j < 65536) && cars.all (fun i => decide (i < 68)) && scrs.all (fun i => decide (68 ≤ i ∧ i < 86))
  | .chunkCommit i _ => engineOk i
  | .leafRelease n num => streamOk n && wordOk num
  | .pictureRelease n num => streamOk n && wordOk num
  | .searchBlock n num b => streamOk n && wordOk num && decide (b < 2 ^ 20)
  | .coarseCplxPost n num => streamOk n && wordOk num
  | .planPost n _ => streamOk n
  | .guardEvaluate n num => streamOk n && wordOk num
  | .statsFolioArrival n num => streamOk n && wordOk num
  | .rcPost n _ => streamOk n
  | .rcCplx n num => streamOk n && wordOk num
  | .rcTime n => streamOk n
  | .rcLog n code value => streamOk n && wordOk code && wordOk value
  | .appletCallTimeout n h => streamOk n && hartOk h
  | .appletTrap n _ => streamOk n
  | .sqTail n idx => ringOk n && decide (idx < 65536)
  | .rqHead n idx => ringOk n && decide (idx < 65536)
  | .slipReread n => ringOk n
  | .nopSlip n k => ringOk n && decide (k < 65536)
  | .openStream n k _ => ringOk n && decide (k < 65536)
  | .closeStream n k => ringOk n && decide (k < 65536)
  | .streamClosed n => streamOk n
  | .setConfig n k => ringOk n && decide (k < 65536)
  | .setConfigDevice n k => ringOk n && decide (k < 65536)
  | .encodePicture n k => ringOk n && decide (k < 65536)
  | .decodePicture n k _ _ => ringOk n && decide (k < 65536)
  | .flushStream n k => ringOk n && decide (k < 65536)
  | .recordStart n k => ringOk n && decide (k < 65536)
  | .recordStop n k => ringOk n && decide (k < 65536)
  | .markTake n k => ringOk n && decide (k < 65536)
  | .readExtent n k => ringOk n && decide (k < 65536)
  | .queryLedger n k => ringOk n && decide (k < 65536)
  | .queryStream n k => ringOk n && decide (k < 65536)
  | .queryDigest n k => ringOk n && decide (k < 65536)
  | .returnFolio n k => ringOk n && decide (k < 65536)
  | .unknownOpcode n k => ringOk n && decide (k < 65536)
  | .completionWrite n => ringOk n
  | .eventGroupWrite n => ringOk n
  | .eventQueueTimeout n => ringOk n
  | .lostSlip n => ringOk n
  | .msixHoldTimer v => vectorOk v
  | .msixUnmask v => match v with | some v => vectorOk v | none => true
  | .hostD3hotEntry _ _ => true
  | .hostD0Return _ => true
  | .rpCfgWrite n v => ringOk n && wordOk v
  | .epochBegin => true
  | .epochTaken => true
  | .epochAckTimeout missing => missing.all unitOk
  | .frameStart port k fnum => portOk port && vcOk k.vc && decide (fnum < 65536)
  | .memberFrameStart port k fnum => portOk port && vcOk k.vc && decide (fnum < 65536)
  | .frameEnd port k => portOk port && vcOk k.vc
  | .rowHeaderArrival port vc dt l _ => portOk port && vcOk vc && decide (dt < 64 ∧ l < 65536)
  | .longPacket port vc l wc _ _ => portOk port && vcOk vc && decide (l < 65536 ∧ wc < 65536)
  | .lineTimeout n => streamOk n
  | .rowEmit n => streamOk n
  | .rowLanded n => streamOk n
  | .holdCtlWrite v => wordOk v
  | .deskewSequence p lanes _ => portOk p && decide (lanes < 16)
  | .ulpsEntry p => portOk p
  | .ulpsExit p => portOk p
  | .sensorLinkLoss p lanes _ => portOk p && decide (lanes < 16)
  | .magPresenceFall p _ => magOk p
  | .magPresenceAccept p => magOk p
  | .magPerstRelease p => magOk p
  | .magLinkUp p speed width => magOk p && decide (1 ≤ speed ∧ speed ≤ 5) && (width == 1 || width == 2 || width == 4)
  | .magLinkTimeout p => magOk p
  | .magControllerReady p => magOk p
  | .nvmeCompletion p _ _ _ _ => magOk p
  | .nvmeTimeout p _ => magOk p
  | .commitTimer n => streamOk n
  | .pictureToBindery n num => streamOk n && wordOk num
  | .verifyCompareDone p n num _ => magOk p && streamOk n && wordOk num
  | .verifyLagExpiry p n num => magOk p && streamOk n && wordOk num
  | .healthLogTimer p => magOk p
  | .magRemoval p => magOk p
  | .magLinkLoss p => magOk p
  | .formatMagazine p key => magOk p && decide (key < 65536)
  | .ejectMagazine p key => magOk p && decide (key < 65536)
  | .rescanMagazine p key => magOk p && decide (key < 65536)
  | .deleteTake p key => magOk p && decide (key < 65536)
  | .alignmentPoint p f => netOk p && flowOk f
  | .packetRelease p f => netOk p && flowOk f
  | .frameTransmit p => netOk p
  | .gateBlockDrop p c => netOk p && decide (c < 8)
  | .netLinkDown p => netOk p.port
  | .netLinkUp p => netOk p.port
  | .rxFrame p f => netOk p && decide (f.mac < 2 ^ 48 ∧ f.vid < 4096 ∧ f.pcp < 8)
  | .announceTimeout p => netOk p
  | .ptpSendTimer p ty => netOk p && decide (ty ≤ 11)
  | .gclCommit p => netOk p
  | .gclStart p => netOk p
  | .gateEntryChange p => netOk p
  | .cbsWrite p c which v => netOk p && decide (c < 8 ∧ which < 3) && wordOk v
  | .psfWrite p f which v => netOk p && decide (f < 16 ∧ which < 3) && wordOk v
  | .telemetrySample p => netOk p
  | .portCfgWrite p v => netOk p && wordOk v
  | .i2cCmd v => wordOk v
  | .i2cDone _ data => wordOk data
  | .snapTime => true
  | .setTime _ _ => true
  | .stepTime _ => true
  | .incrWrite v => wordOk v
  | .timeRefclkLost => true
  | .timeRefclkReturn => true
  | .timeOutArm t => decide (t < 8)
  | .timeOutDisarm t => decide (t < 8)
  | .timeOutEdge t => decide (t < 8)
  | .timeOutPulseEnd t => decide (t < 8)
  | .ppsEdge => true
  | .ppsPulseEnd => true
  | .timeInCapture i _ => decide (i < 4)
  | .timeInPop i => decide (i < 4)
  | .alarmArm => true
  | .alarmDisarm => true
  | .alarmFire => true
  | .dramTraining => true
  | .dramTrainingDone tries => decide (tries.length ≤ 8)
  | .mr4Poll c code _ => chanOk c && decide (code < 32)
  | .zqCalibration c => chanOk c
  | .refreshDue c => chanOk c
  | .trefwBoundary c => chanOk c
  | .dramCommandIssue c => chanOk c
  | .dramRead block _ => decide (block < 2 ^ 43)
  | .dramWrite block data _ => decide (block < 2 ^ 43 ∧ data.length = 32)
  | .narrowWrite addr data => decide (addr < 2 ^ 48 ∧ data.length ≤ 32)
  | .readDataCheck unit addr mask _ _ _ => unitOk unit && decide (addr < 2 ^ 48 ∧ mask < 2 ^ 272)
  | .logEntryFree e => decide (e < 16)
  | .scrubRead => true
  | .scrubCtlWrite which value => decide (which ≤ 16) && wordOk value
  | .dqCentreMove c lane _ => chanOk c && decide (lane < 2)
  | .translationWalk who va _ => requesterOk who && decide (va < 2 ^ 48)
  | .resumeFault id => decide (id < 256)
  | .abortFault id => decide (id < 256)
  | .faultRecordTimeout => true
  | .invalidateAll => true
  | .invalidateAsid asid => decide (asid < 256)
  | .invalidatePage asid => decide (asid < 256)
  | .invalidationDone => true
  | .contextCommit a hi => decide (a < 256 ∧ hi < 65536)
  | .grantFence i => engineOk i
  | .startDma ch => dmaOk ch
  | .stopDma ch => dmaOk ch
  | .pauseDma ch => dmaOk ch
  | .dmaResume ch => dmaOk ch
  | .dmaPaused ch => dmaOk ch
  | .dmaBurst ch => dmaOk ch
  | .dmaSlipComplete ch => dmaOk ch
  | .barrierComplete ch => dmaOk ch
  | .reqSw line => decide (line < 64)
  | .beginItem u n ty len => unitOk u && queueOk n && decide (1 ≤ ty ∧ ty < 256 ∧ 1 ≤ len ∧ len ≤ 1048576)
  | .itemWordWrite u n data => unitOk u && queueOk n && decide (data.length ≤ 32)
  | .endItem u n => unitOk u && queueOk n
  | .singleOperationPush u n ty data => unitOk u && queueOk n && decide (1 ≤ ty ∧ ty < 256 ∧ 1 ≤ data.length ∧ data.length ≤ 256)
  | .popRelease u n => unitOk u && queueOk n
  | .popClaim u n => unitOk u && queueOk n
  | .itemRelease u n k => unitOk u && queueOk n && decide (k < 16)
  | .flushQueue n => queueOk n
  | .queueTimeout n => queueOk n
  | .queueDisable n => queueOk n
  | .folioAllocate p u => poolOk p && unitOk u
  | .shareFolio h u _ owner => wordOk h && unitOk u && unitOk owner
  | .releaseFolio h u => wordOk h && unitOk u
  | .reclaimOrphans => true
  | .initPool p => poolOk p
  | .poolInitDone p => poolOk p
  | .disablePool p => poolOk p
  | .freeCacheRefill p => poolOk p
  | .mckpt h _ => hartOk h
  | .lockstepMismatch p => decide (p < 5)
  | .mclaim h => hartOk h
  | .mcomplete h n => hartOk h && wordOk n
  | .sourceConfigWrite n v => decide (1 ≤ n ∧ n < 256) && wordOk v
  | .swset => true
  | .timerCompare h => hartOk h
  | .storeParityError i a _ => engineOk i && decide (a < 65536)
  | .storeScan i _ => engineOk i
  | .interruptUnit i => engineOk i
  | .dropWork i _ dest => engineOk i && engineOk dest
  | .scribeCheckpoint i _ _ => engineOk i
  | .faultMessage u k _ _ _ => unitOk u && decide (k < 256)
  | .ackFault _ c u => decide (c < 4) && unitOk u
  | .injectFault c k u => decide (c < 4 ∧ k < 256) && unitOk u
  | .faultNHoldExpiry => true
  | .writeDrainEmpty i => engineOk i
  | .writeDrainTimeout i => engineOk i
  | .redispatch i dest => engineOk i && engineOk dest
  | .digestSweep held => held.all fun q => unitOk q.1
  | .pinCheck p _ => pinOk p
  | .keeperLockstepMismatch => true
  | .fuseLoadDone _ => true
  | .windowClearDone => true
  | .windowWrite off data => decide (off + data.length ≤ 2 ^ 26)
  | .loadBundle word _ => wordOk word
  | .loadComplete => true
  | .ageingPut word _ => wordOk word
  | .ageingGet word => wordOk word
  | .keeperAttest word => wordOk word
  | .keeperIdentity word => wordOk word
  | .keeperAlive _ key => wordOk key
  | .startDeadline => true
  | .powerOn => true
  | .supplyFault => true
  | .sysResetN _ => true
  | .perstN _ => true
  | .resetRelease => true
  | .sysRefclkLost => true
  | .sysRefclkReturn => true
  | .rstKey v => wordOk v
  | .coldResetCommand key2 => decide (key2 < 65536)
  | .warmResetCommand key2 => decide (key2 < 65536)
  | .unitReset key2 u => decide (key2 < 65536) && unitOk u
  | .unitResetDone => true
  | .pdReqWrite _ k v => decide (k < 4) && wordOk v
  | .domainOnDone d => decide (d < 112)
  | .sleepStandby key => decide (key < 65536)
  | .sleepVault key => decide (key < 65536)
  | .sleepStepDone _ => true
  | .pmeTurnOff => true
  | .l2Timeout => true
  | .wakeEvent src => decide (src < 6)
  | .wakeStepDone => true
  | .smbStatus => true
  | .smbCause => true
  | .smbDeviceId => true
  | .smbUid => true
  | .smbEpochDigest => true
  | .smbFaults => true
  | .resetMessage v _ => wordOk v
  | .wakeMessage _ => true
  | .alertResponse => true
  | .smbCfgWrite v => wordOk v
  | .thermAssert => true
  | .thermRelease => true
  | .conservatorRound _ => true
  | .slackAlarm d _ _ => decide (d ≤ 112)
  | .voltageStep => true
  | .bandDwellExpiry => true
  | .baselineTimeout => true
  | .avsTransaction _ mv => decide (mv < 65536)
  | .pcieLinkDown _ => true
  | .pcieCorrectedError => true
  | .mailboxUnknownOpcode word => wordOk word
  | .smbusUnknownCommand => true
  | .vddFuseRamp _ => true
  | .powerDown => true

end Sys2Proof
end

