-- ==== Sys2Proof/Tests/Slice0.lean ====
section
/-! SUPPORT. Tests: a state and operands that meet each statement's premises, ill-formed commands that are refused, and single steps. -/

set_option Elab.async false

namespace Sys2Proof.Tests
open Sys2Proof Sys2Proof.Machine

/-! ### States to start from -/

def running : State := { State.reset with power := { Power.init with held := false, refclk := true, suppliesOk := true, padsSafe := false } }
def st (l : List (Fld × Nat)) : State := l.foldl (fun s f => s.put f.1 f.2) running
def slip (id : Nat) (w : List Nat) : Taken := { id, words := w, started := false, staged := false, verdict := none }
def withRing (s : State) (n : Nat) (l : List Taken) : State := s.setRing n { Ring.init with taken := l, count := l.length }
def rawHost (flags : Nat) : Stream := { Stream.init with kind := 2, prot := 2, secs := { Sections.empty with geo := some { Geometry.zero with depth := 12, width := 512, height := 256, period := 2, phaseTable := 0x16000000, keyInterval := 30, flags, rateNum := 25, rateDen := 1 } } }
def eventsSec : List Byte := [5, 0, 12, 0, 5, 0, 100, 0, 1, 0, 0, 0]
def openSt (n : Nat) (l : List Taken) (b : List Byte) : State :=
  { withRing (st [(DRC.DRC_CFG_USABLE_MIB, 8192), (HIF.RP_CFG_ASID n, 9)]) n l with
    mmu := { Mmu.init with tlb := [(9, 7, 12, 0x5700D)] }, dram := (b.zipIdx.filter fun q => q.1 != 0).map fun q => (0x57000 + q.2, q.1) }
def words (a : Nat) (l : List Nat) : Tab Byte := ((l.flatMap (leBytes 4)).zipIdx.filter fun q => q.1 != 0).map fun q => (a + q.2, q.1)
def bytesAt (a : Nat) (l : List Byte) : Tab Byte := (l.zipIdx.filter fun q => q.1 != 0).map fun q => (a + q.2, q.1)
def mbxBase : Nat := 7872 * 2 ^ 20
def mbxSt (op seq len arg0 : Nat) (data : List Byte) (l : List (Fld × Nat)) : State :=
  { st ([(DRC.DRC_CFG_USABLE_MIB, 8192), (DRC.DRC_STAT_READY, 1)] ++ l) with
    keeper := { Keeper.init with opened := true }, dram := words (mbxBase + requestOff) [op, seq, len, arg0] ++ bytesAt (mbxBase + requestOff + 64) data }
def mbxReq (op seq len arg0 : Nat) (data : List Byte) : MbxReq := { op, seq, len, arg0, data }
def tiny : Stream := { (rawHost 0) with rp := 5, state := .opened, nextPic := 7, secs := { Sections.empty with geo := some { Geometry.zero with depth := 12, width := 2, height := 2, keyInterval := 1, rateNum := 25, rateDen := 1 } } }
def tinyDec : Stream := { Stream.init with kind := 6, prot := 2, rp := 5, state := .opened, nextPic := 7, dec := { Decoder.init with started := true }, secs := { Sections.empty with geo := some { Geometry.zero with codec := 2, tierLevel := 30, width := 64, height := 64, rateNum := 25, rateDen := 1 } } }
def sps0 : ParamSet := { kind := 1, id := 0, names := 0, ok := true, unsupported := false, high := false, level := 10, width := 1, height := 1, depth := 8, chroma := 2, ctu := 64, dpbSize := 1, reorder := 0, latency := 0 }
def pps0 : ParamSet := { sps0 with kind := 2 }
def vps0 : ParamSet := { sps0 with kind := 0 }
def au0 : CodecAu := { sets := [vps0, sps0, pps0], point := .none, rasl := false, poc := 0, shown := true, isRef := true, dropPrior := false, keeps := [], slices := [{ parsed := true, pps := 0, ended := true, inRange := true, inter := false, ctus := [0], list0 := [], uses := [] }], y := [[9]], cb := [], cr := [], hashBad := false }
def decSt : State := { ((openSt 5 [slip 7 [0x12340005, 3, 0x7000, 0, 0, 0x8000, 0, 1024, 64, 0x8100, 0, 16]] []).setStream 3 tinyDec).put MMU.HWIN_SIZE_GIB 1 with mmu := { Mmu.init with tlb := [(9, 7, 12, 0x5700D), (9, 8, 12, 0x40000000300D)] } }
def tinySeq : KSeq := tiny.geo.seq
def vol0 : Volume := { id := List.replicate 16 1#8, nsze := 2000000, shelves := 100, made := DTime.none, slots := [], shelf := [], seq := 1, since := 0, gen := 1, copyB := false, ckptSeq := 1 }
def mgz : Magazine := { single := true, cls := 0x010802, msix := true, nvm := true, mpsmin := 0, mqes := 63, capTo := 10, mdts := 0, active := true, lbaData := 4096, lbaMeta := 0, protect := false, nsze := 2000000, vwc := false, pairs := 8, blocks := [] }
def mag0 : Mag := { Mag.init with stage := .up, refclk := true, perst := false, inserted := some mgz, vol := some vol0 }
def tv0 : TakeVol := { port := 0, stripe := 0, length := 4096, durable := 0, chain := [5], fresh := [], aids := [], moves := [], commit := none, opened := true, aidWritten := none, closed := false, finished := false }
def tk0 : Take := { stream := 3, number := 1, layout := 0, verify := true, name := [], codec := 0, digest := 0, seqId := 0, slip := none, first := 5, start := DTime.none, fin := DTime.none, lastGood := none, vols := [tv0], partners := [], pics := [], next := 7, from' := 7, gapping := false, degraded := false, gaps := false, verifyFailed := false, incomplete := false, marks := [], marked := [], loadNum := 1, loadDen := 1, tailMs := 200, lagMs := 1000, bufMib := 64, commitTick := 0, commitNext := false, stop := none, closing := false }
def aid7 : AidEntry := { num := 7, flags := 1, off := 0, len := 1, epoch := 0, digest := 0, stamps := List.replicate 6 DTime.none, sha := [], mark := 0, note := [] }
def rec7 : RecPic := { num := 7, key := true, gap := false, held := true, data := [1#8], aid := aid7, offs := [(0, 0)], written := [0], verify := [0], moved := [], failed := [], back := [], givenTick := 0, writtenTick := 0, committed := [] }
def bndSt (l : List (Fld × Nat)) (m : Mag) (tk : List Take) : State :=
  let s := ((openSt 5 [] []).setStream 3 { tiny with recorded := !tk.isEmpty, nextPic := 9 }).setMag 0 m
  l.foldl (fun s f => s.put f.1 f.2) { s with bnd := { s.bnd with takes := tk } }
def readyFields : List (Fld × Nat) := [(BND.MG_STATE_STATE 0, msReady), (BND.MG_STATE_LINK_SPEED 0, 5), (BND.MG_STATE_LINK_WIDTH 0, 4), (BND.MG_WRITE_RATE_RATE 0, 2000)]
def e1 : TakeEntry := { number := 9, state := 2, layout := 0, stripe := 0, codec := 0, name := [], partner := [], first := 0, last := 1, pictures := 2, firstShelf := 4, shelves := 1, length := 8192, aidOff := 0, aidLen := 0, start := DTime.none, fin := DTime.none, digest := 0, seqId := 0, flags := 0 }
def capIng : IngestP := { portMask := 3, stripe := false, vc := 1, dataType := 0x2C, lanes := 4, hold := 0, trigger := 0xFF, frameBuffers := 2, laneRate := 1000, ingLines := 4, high := 1, low := 0, lineTimeout := 10, useFrameNumber := true }
def cap : Stream := { (rawHost 0) with kind := 1, rp := 5, state := .opened, nextPic := 7, secs := { Sections.empty with ingest := some capIng, geo := some { Geometry.zero with depth := 12, width := 8, height := 3, keyInterval := 1, rateNum := 25, rateDen := 1 } } }
def fr0 : Frame := { num := 6, frameNumber := 9, startTick := 0, members := [{ started := true, ended := false, next := 0, got := 0, rows := [] }, { started := false, ended := false, next := 0, got := 0, rows := [] }], emitted := 0, emitTick := 0, lastParts := 0, closed := false }
def row0 (l : Nat) (r : RowState) : IngRow := { line := l, st := r, cells := [1] }
def onPorts : List (Fld × Nat) := (List.range 6).map fun p => (⟨PWR.PD_STAT0 + 4 * (domainOf (0x140 + p) / 32), domainOf (0x140 + p) % 32, 1⟩, 1)
def capSt (l : List Frame) : State := (st (onPorts ++ [(STK.STK_STAT_CELLS, 80)] ++ (List.range 8).map fun k => (STK.BANK_FREE_CELLS k, 10))).setStream 3 { cap with frames := l, joined := [0], pics := l.map fun f => Pic.fresh f.num true 1 1 }
def kv : Stream := { Stream.init with kind := 2, prot := 2, rp := 5, state := .opened, nextPic := 2, secs := { Sections.empty with geo := some { Geometry.zero with codec := 1, depth := 12, width := 8, height := 130, period := 2, keyInterval := 1, rateNum := 25, rateDen := 1 }, rate := some { RateP.zero with quantMax := 63 } } }
def kvS : Stream := { kv with kind := 1, secs := { kv.secs with geo := some { Geometry.zero with codec := 1, depth := 12, width := 8, height := 66, period := 2, keyInterval := 1, rateNum := 25, rateDen := 1 } } }
def plan0 : Plan := { stream := 3, guardOff := false, pic := 1, target := 1000, reserve := 10, allot := [50, 50, 50], cap := [100, 100, 100], quant := [5, 5, 5] }
def unit0 (k : Nat) (b : List Nat) : UnitRec := { UnitRec.init with committed := true, code := { Coded.init with bytes := List.replicate k 7#8, gbits := b } }
def pic1 : Pic := { Pic.fresh 1 true 3 3 with input := List.replicate 130 (List.replicate 8 9), lands := List.range 130, dispatched := true, plan := some plan0 }
def engOn (l : List Nat) : List (Fld × Nat) := l.flatMap fun i => [(⟨PWR.PD_STAT0 + 4 * (i / 32), i % 32, 1⟩, 1), (engState i, stIdle)]
def kvSt (x : Stream) (l : List (Fld × Nat)) : State := (st (engOn [1, 2, 70, 71] ++ l)).setStream 3 x
def cmt : Commit := { last := false, signOk := true, reconOk := true, residueOk := true, read := [], choice := [], retry := [], units := [], wrong := none }
def runSt (i : Nat) (p : Pic) (x : Stream) (run : Nat) : State :=
  (kvSt { x with pics := [{ p with units := [(1, { p.unit 1 with runs := (p.unit 1).runs ++ [(unitOfEngine i, 4)] })] }] } [(engState i, stRunning), (engEpoch i, 4), (engProg i, 2)]).setEngine i { Engine.init with work := some (3, p.num, 1, run) }
def netw : NetP := { ports := 1, media := 0, sender := 0, tc := 5, vlan := false, ipv6 := false, pcp := 0, vid := 0, dscp := 0, hops := 1, maxPayload := 1000, ssrc := 9, pt := 96, mediaDelay := 0, tro := 0, paths := [] }
def nw (m : Nat) (l : List Pic) : Stream := { Stream.init with kind := 7, prot := 2, rp := 5, state := .opened, pics := l, secs := { Sections.empty with network := some { netw with media := m }, geo := some { Geometry.zero with depth := 8, codec := 2, width := 32, height := 40, rateNum := 25, rateDen := 1 } } }
def npic (num k : Nat) : Pic := { Pic.fresh num true 1 0 with released := true, releasedUnits := 1, slipWritten := true, readers := [256], stamps := (List.replicate 6 DTime.none).set 0 (dtOf 0), units := [(0, unit0 k [])] }
def flow0 : Flow := { stream := 4, path := 0, seq := 65535, period := 0, sending := [], j := 0, nextPic := 3, lastStart := 0, lastLen := 0, closing := false }
def nsSt (m : Nat) (l : List Pic) (v : Flow) (now : Nat) (r : List (Fld × Nat)) : State :=
  { (((st ((List.range 2).flatMap (fun p => [(NET.PORT_CFG_ENABLE p, 1), (NET.PORT_STAT_LINK_UP p, 1)]) ++ r)).setStream 4 (nw m l)).setFlow 1 2 (some v)) with time := now * 2 ^ 28 }
def frm (b : FrameBody) : NetFrame := { body := b, len := 64, queued := 5, due := 5, late := false }
def nqSt (now : Nat) (q : List (Nat × List NetFrame)) (r : List (Fld × Nat)) : State :=
  let s := nsSt 0 [npic 3 2560] flow0 now r
  s.setPort 1 (q.foldl (fun x e => x.setCls e.1 { NetClass.init with queue := e.2 }) (s.port 1))

def call0 (e : AppletEntry) : AppletCall := { entry := e, picture := 1, args := [0x1000, 1], argLen := 64, writable := true, tick := 0 }
def app0 : Applet := { active := true, log := [], image := { id := 7, magic := 0, abi := 1, entries := [0, 4, 8, 12], dataSize := 4096, addr := 0x8000, len := 4096 }, hart := 2, dataAt := 0x1000, argsAt := 0x2000, call := some (call0 .rcOpen), queue := [] }
/-! ### Premises that are met -/

theorem witness_AnEmptyQueueIsOneTick : ∃ (s : State), (s.pending = []) ∧ (s.dater.cmds = []) :=
  ⟨State.reset, by decide +kernel, by decide +kernel⟩

theorem witness_StepsKeepTheCanonicalForm : ∃ (s : State) (t : State), (s.canon = true) ∧ (step s = .next t) :=
  ⟨{ running with pending := [.swset] }, running.put (srcPending 255) 1, by decide +kernel, rfl⟩

theorem witness_CommandsTouchOnlyTheirParts : ∃ (c : Instr) (s : State) (t : State), (s.canon = true) ∧ (exec c s = .next t) :=
  ⟨.swset, running, running.put (srcPending 255) 1, by decide +kernel, rfl⟩

theorem witness_CommandsLeaveGradeQueueAndTicks : ∃ (c : Instr) (s : State) (t : State), (exec c s = .next t) :=
  ⟨.swset, running, running.put (srcPending 255) 1, rfl⟩

theorem witness_OnlyAnOffsetOutsideBar0Stops_1 : ∃ (c : Instr), (∀ h off v, c = .registerWrite h off v → off < 2 ^ 24) :=
  ⟨.registerWrite true (2 ^ 24 - 4) 0, (fun _ _ _ e => by cases e; decide)⟩

theorem witness_OnlyAnOffsetOutsideBar0Stops_2 : ∃ (off : Nat), (2 ^ 24 ≤ off) :=
  ⟨2 ^ 24, by decide +kernel⟩

theorem witness_RegisterWritesFollowTheirAccessCodes_1 : ∃ (s : State) (off : Nat) (d : RegDesc), (s.bar0Up = true) ∧ (off < 2 ^ 24) ∧ (regDesc off = some d) ∧ (d.plain = true) ∧ (off ∉ sideRegs) ∧ (s.lacks off = false) :=
  ⟨st [(⟨RST.RST_STAT, 14, 1⟩, 1)], RST.RST_STAT, ⟨0x30000, 0x4, 1, 0x4, 1, [(16, 16, .ro), (15, 1, .ro), (14, 1, .w1c), (12, 2, .ro), (0, 8, .ro)]⟩, by decide +kernel, by decide +kernel, by decide +kernel, by decide +kernel, by decide +kernel, by decide +kernel⟩

theorem witness_RegisterWritesFollowTheirAccessCodes_2 : ∃ (s : State) (off : Nat), (s.bar0Up = true) ∧ (off < 2 ^ 24) ∧ (regDesc off = none) :=
  ⟨st [(HIF.ERR_COUNT_UNASSIGNED, 65535)], 0x170000, by decide +kernel, by decide +kernel, by decide +kernel⟩

theorem witness_RegisterWritesFollowTheirAccessCodes_3 : ∃ (off : Nat), (regDesc off = none) :=
  ⟨0x170000, by decide +kernel⟩

theorem witness_RegisterWritesFollowTheirAccessCodes_4 : ∃ (s : State) (off : Nat), (s.bar0Up = true) ∧ (off < 2 ^ 24) ∧ ((regDesc off).isSome = true) ∧ (s.lacks off = true) :=
  ⟨{ running with big := false, regs := [] }, NET.PORT_CFG 1, by decide +kernel, by decide +kernel, by decide +kernel, by decide +kernel⟩

theorem witness_RegisterWritesFollowTheirAccessCodes_5 : ∃ (s : State) (off : Nat), (s.bar0Up = false) ∧ (off < 2 ^ 24) :=
  ⟨State.reset, DAT.SET_NS, by decide +kernel, by decide +kernel⟩

theorem witness_RegisterWritesFollowTheirAccessCodes_6 : ∃ (s : State) (off : Nat) (d : RegDesc), (s.bar0Up = true) ∧ (off = PWR.WAKE_EN ∨ off = RGS.RGS_CFG ∨ off = DAT.PPS_CTL ∨ off = CNS.DOMAIN_SEL ∧ s.big = true) ∧ (regDesc off = some d) :=
  ⟨st [(⟨PWR.WAKE_PEND, 2, 1⟩, 1), (PWR.PWR_STAT_STATE, pwStandby)], PWR.WAKE_EN, (regDesc PWR.WAKE_EN).getD ⟨0, 0, 0, 0, 0, []⟩, by decide +kernel, by decide +kernel, by decide +kernel⟩

theorem witness_RegisterWritesFollowTheirAccessCodes_7 : ∃ (s : State), (s.bar0Up = true) ∧ (s.big = false) :=
  ⟨{ running with big := false, regs := [] }, by decide +kernel, by decide +kernel⟩

theorem witness_RegisterWritesFollowTheirAccessCodes_8 : ∃ (s : State) (i : Nat), (s.bar0Up = true) ∧ (i < 8) :=
  ⟨running, 7, by decide +kernel, by decide +kernel⟩

theorem witness_RegistersWithRulesRunTheirCommands_1 : ∃ (s : State), (s.bar0Up = true) :=
  ⟨running, by decide +kernel⟩

theorem witness_RegistersWithRulesRunTheirCommands_2 : ∃ (s : State), (s.bar0Up = true) :=
  ⟨running, by decide +kernel⟩

theorem witness_RegistersWithRulesRunTheirCommands_3 : ∃ (s : State), (s.bar0Up = true) :=
  ⟨running, by decide +kernel⟩

theorem witness_RegistersWithRulesRunTheirCommands_4 : ∃ (s : State) (v : Nat), (s.bar0Up = true) ∧ (bits v 12 2 = 0) :=
  ⟨running, 0, by decide +kernel, by decide +kernel⟩

theorem witness_RegistersWithRulesRunTheirCommands_5 : ∃ (s : State) (v : Nat), (s.bar0Up = true) ∧ (bits v 12 2 = 1) :=
  ⟨running, 4096, by decide +kernel, by decide +kernel⟩

theorem witness_RegistersWithRulesRunTheirCommands_6 : ∃ (s : State) (v : Nat), (s.bar0Up = true) ∧ (bits v 12 2 = 2) :=
  ⟨running, 8192, by decide +kernel, by decide +kernel⟩

theorem witness_RegistersWithRulesRunTheirCommands_7 : ∃ (s : State) (v : Nat), (s.bar0Up = true) ∧ (bits v 0 2 = 1) :=
  ⟨running, 1, by decide +kernel, by decide +kernel⟩

theorem witness_RegistersWithRulesRunTheirCommands_8 : ∃ (s : State) (v : Nat), (s.bar0Up = true) ∧ (bits v 0 2 = 2) :=
  ⟨running, 2, by decide +kernel, by decide +kernel⟩

theorem witness_RegistersWithRulesRunTheirCommands_9 : ∃ (s : State) (i : Nat), (s.bar0Up = true) ∧ (i < 4) :=
  ⟨running, 3, by decide +kernel, by decide +kernel⟩

theorem witness_RegistersWithRulesRunTheirCommands_10 : ∃ (s : State), (s.bar0Up = true) :=
  ⟨running, by decide +kernel⟩

theorem witness_RegistersWithRulesRunTheirCommands_11 : ∃ (s : State), (s.bar0Up = true) :=
  ⟨running, by decide +kernel⟩

theorem witness_RegistersWithRulesRunTheirCommands_12 : ∃ (s : State) (i : Nat), (s.bar0Up = true) ∧ (i < 64) :=
  ⟨running, 63, by decide +kernel, by decide +kernel⟩

theorem witness_RegistersWithRulesRunTheirCommands_13 : ∃ (s : State) (v : Nat) (i : Nat), (s.bar0Up = true) ∧ (i < 64) ∧ (bitAt v 0 = false) :=
  ⟨running, 0, 63, by decide +kernel, by decide +kernel, by decide +kernel⟩

theorem witness_RegistersWithRulesRunTheirCommands_14 : ∃ (s : State) (v : Nat), (s.bar0Up = true) ∧ (bitAt v 0 = true) :=
  ⟨running, 1, by decide +kernel, by decide +kernel⟩

theorem witness_RegistersWithRulesRunTheirCommands_15 : ∃ (s : State) (i : Nat), (s.bar0Up = true) ∧ (1 ≤ i ∧ i ≤ 255) :=
  ⟨running, 255, by decide +kernel, by decide +kernel⟩

theorem witness_RegistersWithRulesRunTheirCommands_16 : ∃ (s : State) (v : Nat), (s.bar0Up = true) ∧ (bits v 0 2 = 0) :=
  ⟨running, 0, by decide +kernel, by decide +kernel⟩

theorem witness_RegistersWithRulesRunTheirCommands_17 : ∃ (s : State) (v : Nat), (s.bar0Up = true) ∧ (bits v 0 2 = 1) :=
  ⟨running, 1, by decide +kernel, by decide +kernel⟩

theorem witness_RegistersWithRulesRunTheirCommands_18 : ∃ (s : State) (v : Nat), (s.bar0Up = true) ∧ (bits v 0 2 = 2) :=
  ⟨running, 2, by decide +kernel, by decide +kernel⟩

theorem witness_RegistersWithRulesRunTheirCommands_19 : ∃ (s : State) (v : Nat), (s.bar0Up = true) ∧ (bits v 30 2 = 1) :=
  ⟨running, 1073741824, by decide +kernel, by decide +kernel⟩

theorem witness_RegistersWithRulesRunTheirCommands_20 : ∃ (s : State) (v : Nat), (s.bar0Up = true) ∧ (bits v 30 2 = 2) :=
  ⟨running, 2147483648, by decide +kernel, by decide +kernel⟩

theorem witness_RegistersWithRulesRunTheirCommands_21 : ∃ (s : State) (i : Nat), (s.bar0Up = true) ∧ (i < 256) :=
  ⟨running, 255, by decide +kernel, by decide +kernel⟩

theorem witness_RegistersWithRulesRunTheirCommands_22 : ∃ (s : State), (s.bar0Up = true) :=
  ⟨running, by decide +kernel⟩

theorem witness_RegistersWithRulesRunTheirCommands_23 : ∃ (s : State) (v : Nat), (s.bar0Up = true) ∧ (bitAt v 0 = true) :=
  ⟨running, 1, by decide +kernel, by decide +kernel⟩

theorem witness_RegistersWithRulesRunTheirCommands_24 : ∃ (s : State) (v : Nat), (s.bar0Up = true) ∧ (bitAt v 0 = true) :=
  ⟨running, 1, by decide +kernel, by decide +kernel⟩

theorem witness_RegistersWithRulesRunTheirCommands_25 : ∃ (s : State), (s.bar0Up = true) :=
  ⟨running, by decide +kernel⟩

theorem witness_RegistersWithRulesRunTheirCommands_26 : ∃ (s : State) (i : Nat), (s.bar0Up = true) ∧ (i < 8) :=
  ⟨running, 7, by decide +kernel, by decide +kernel⟩

theorem witness_RegistersWithRulesRunTheirCommands_27 : ∃ (s : State) (i : Nat), (s.bar0Up = true) ∧ (i < 8) :=
  ⟨running, 7, by decide +kernel, by decide +kernel⟩

theorem witness_RegistersWithRulesRunTheirCommands_28 : ∃ (s : State) (v : Nat) (i : Nat), (s.bar0Up = true) ∧ (i < 16) ∧ (bitAt v 31 = true) :=
  ⟨running, 2147483648, 15, by decide +kernel, by decide +kernel, by decide +kernel⟩

theorem witness_RegistersWithRulesRunTheirCommands_29 : ∃ (s : State), (s.bar0Up = true) :=
  ⟨running, by decide +kernel⟩

theorem witness_RegistersWithRulesRunTheirCommands_30 : ∃ (s : State), (s.bar0Up = true) :=
  ⟨running, by decide +kernel⟩

theorem witness_RegistersWithRulesRunTheirCommands_31 : ∃ (s : State) (i : Nat), (s.bar0Up = true) ∧ (i < 2) ∧ (i = 1 → s.big = true) :=
  ⟨running, 1, by decide +kernel, by decide +kernel, by decide +kernel⟩

theorem witness_RegistersWithRulesRunTheirCommands_32 : ∃ (s : State), (s.bar0Up = true) :=
  ⟨running, by decide +kernel⟩

theorem witness_RegistersWithRulesRunTheirCommands_33 : ∃ (s : State), (s.bar0Up = true) :=
  ⟨running, by decide +kernel⟩

theorem witness_RegistersWithRulesRunTheirCommands_34 : ∃ (s : State) (i : Nat), (s.bar0Up = true) ∧ (i < 64) :=
  ⟨running, 63, by decide +kernel, by decide +kernel⟩

theorem witness_RegistersWithRulesRunTheirCommands_35 : ∃ (s : State) (i : Nat), (s.bar0Up = true) ∧ (i < 64) :=
  ⟨running, 63, by decide +kernel, by decide +kernel⟩

theorem witness_WritesOfWholeBlocksAreQueued_1 : ∃ (s : State) (block : Nat) (engine : Option Nat) (c : Nat), (s.get DRC.DRC_STAT_READY = 1) ∧ (∀ i, engine = some i → s.get (MMU.GRANT_FENCED i) = 0) ∧ (c = s.chanAt (32 * block)) ∧ (∃ q ∈ (s.chan c).writeQ, q.block = block) :=
  ⟨(st [(DRC.DRC_STAT_READY, 1)]).setChan 0 { Chan.init with writeQ := [{ block := 0, data := [1#8], engine := none, tick := 0, isRead := false }] }, 0, some 3, 0, by decide +kernel, by decide +kernel, by decide +kernel, by decide +kernel⟩

theorem witness_WritesOfWholeBlocksAreQueued_2 : ∃ (s : State) (block : Nat) (engine : Option Nat) (c : Nat), (s.get DRC.DRC_STAT_READY = 1) ∧ (∀ i, engine = some i → s.get (MMU.GRANT_FENCED i) = 0) ∧ (c = s.chanAt (32 * block)) ∧ (∀ q ∈ (s.chan c).writeQ, q.block ≠ block) ∧ ((s.chan c).writeQ.length < 64) :=
  ⟨st [(DRC.DRC_STAT_READY, 1)], 0, none, 0, by decide +kernel, by decide +kernel, by decide +kernel, by decide +kernel, by decide +kernel⟩

theorem witness_SourcesArePendingMergedAndDelivered_1 : ∃ (n : Nat), (1 ≤ n ∧ n ≤ 255) :=
  ⟨255, by decide +kernel⟩

theorem witness_SourcesArePendingMergedAndDelivered_2 : ∃ (s : State) (n : Nat), (s.canon = true) ∧ (s.get (srcPending n) = 1) :=
  ⟨st [(srcPending 7, 1)], 7, by decide +kernel, by decide +kernel⟩

theorem witness_SourcesArePendingMergedAndDelivered_3 : ∃ (s : State) (n : Nat), (1 ≤ n) ∧ (s.get (srcPriority n) = 0 ∨ s.get (srcClaimed n) = 1) :=
  ⟨st [(srcPending 7, 1), (srcClaimed 7, 1), (srcPriority 7, 3)], 7, by decide +kernel, by decide +kernel⟩

theorem witness_SourcesArePendingMergedAndDelivered_4 : ∃ (s : State) (h : Nat) (n : Nat) (r : List Nat), (1 ≤ n ∧ n ≤ 255) ∧ (s.hartRuns h = true) ∧ ((s.hart h).user = false) ∧ ((s.hart h).claims = n :: r) ∧ (s.get (srcClaimed n) = 1) :=
  ⟨(st [(srcClaimed 9, 1), (srcPriority 9, 2)]).setHart 0 { Hart.init with claims := [9] }, 0, 9, [], by decide +kernel, by decide +kernel, by decide +kernel, by decide +kernel, by decide +kernel⟩

theorem witness_SourceTargetsAreStatic_1 : ∃ (s : State) (n : Nat) (v : Nat), (1 ≤ n ∧ n ≤ 255) ∧ (s.get (srcPending n) = 1 ∨ s.get (srcClaimed n) = 1) ∧ (bits v 8 2 ≠ s.get (srcTarget n)) :=
  ⟨st [(srcClaimed 255, 1), (srcTarget 255, 2)], 255, 0x107, by decide +kernel, by decide +kernel, by decide +kernel⟩

theorem witness_SourceTargetsAreStatic_2 : ∃ (s : State) (n : Nat) (v : Nat), (1 ≤ n ∧ n ≤ 255) ∧ ((s.get (srcPending n) = 0 ∧ s.get (srcClaimed n) = 0) ∨ bits v 8 2 = s.get (srcTarget n)) :=
  ⟨st [(srcPending 1, 1), (srcTarget 1, 2)], 1, 0x207, by decide +kernel, by decide +kernel⟩

theorem witness_SourceTargetsAreStatic_3 : ∃ (s : State) (h : Nat), (s.bar0Up = true) ∧ (h < 4) :=
  ⟨running, 3, by decide +kernel, by decide +kernel⟩

theorem witness_CounterCommandsFollowTheirRules_1 : ∃ (s : State), (s.pending = []) ∧ (s.dater.cmds = []) :=
  ⟨{ st [(DAT.INCR_VALUE, 0x40000000)] with time := 7 * secUnits + 5 * 2 ^ 28 + 4097 }, by decide +kernel, by decide +kernel⟩

theorem witness_CounterCommandsFollowTheirRules_2 : ∃ (s : State), (s.pending = []) ∧ (s.dater.cmds = []) ∧ (s.get DAT.SERVO_STAT_STATE = 0) ∧ (s.get DAT.SET_NS_VALUE < 1000000000) :=
  ⟨st [(DAT.SET_NS_VALUE, 999999999), (.whole DAT.SET_SEC_LO, 7)], by decide +kernel, by decide +kernel, by decide +kernel, by decide +kernel⟩

theorem witness_CounterCommandsFollowTheirRules_3 : ∃ (s : State), (s.pending = []) ∧ (s.dater.cmds = []) ∧ (s.get DAT.SERVO_STAT_STATE = 0) ∧ (s.time < 2 ^ 47 * secUnits) :=
  ⟨{ st [(.whole DAT.STEP_NS, 2 ^ 32 - 5)] with time := 100 * 2 ^ 28 }, by decide +kernel, by decide +kernel, by decide +kernel, by decide +kernel⟩

theorem witness_CounterCommandsFollowTheirRules_4 : ∃ (s : State) (c : Instr), (c = .setTime false false ∨ c = .setTime false true ∨ c = .stepTime false) ∧ (s.get DAT.SERVO_STAT_STATE ≠ 0) :=
  ⟨st [(DAT.SERVO_STAT_STATE, 1)], .stepTime false, by decide +kernel, by decide +kernel⟩

theorem witness_CounterCommandsFollowTheirRules_5 : ∃ (s : State), (s.get DAT.SERVO_STAT_STATE ≠ 0) :=
  ⟨st [(DAT.SERVO_STAT_STATE, 1)], by decide +kernel⟩

theorem witness_CounterCommandsFollowTheirRules_6 : ∃ (s : State) (c : Instr), (c = .setTime true false ∨ c = .setTime true true ∨ c = .stepTime true) ∧ (s.get DAT.SERVO_STAT_STATE ≠ 0) :=
  ⟨st [(DAT.SERVO_STAT_STATE, 1)], .setTime true true, by decide +kernel, by decide +kernel⟩

theorem witness_CounterCommandsFollowTheirRules_7 : ∃ (s : State), (s.get DAT.SERVO_STAT_STATE = 0) ∧ (1000000000 ≤ s.get DAT.SET_NS_VALUE) :=
  ⟨st [(DAT.SET_NS_VALUE, 1000000000)], by decide +kernel, by decide +kernel⟩

theorem witness_CounterCommandsFollowTheirRules_8 : ∃ (s : State) (v : Nat), (s.get DAT.SERVO_STAT_STATE = 0) ∧ (0x3FF7CED9 ≤ v) ∧ (v ≤ 0x40083127) :=
  ⟨State.reset, 0x40083127, by decide +kernel, by decide +kernel, by decide +kernel⟩

theorem witness_CounterCommandsFollowTheirRules_9 : ∃ (s : State) (v : Nat), (s.get DAT.SERVO_STAT_STATE = 0) ∧ (v < 0x3FF7CED9 ∨ 0x40083127 < v) :=
  ⟨State.reset, 0x40083128, by decide +kernel, by decide +kernel⟩

theorem witness_AlarmPulseAndTimeInputs_1 : ∃ (s : State), (s.time < s.alarmTime) :=
  ⟨st [(.whole DAT.ALARM_SEC_LO, 1)], by decide +kernel⟩

theorem witness_AlarmPulseAndTimeInputs_2 : ∃ (s : State), (s.alarmTime ≤ s.time) :=
  ⟨{ st [(DAT.ALARM_CTL_WAKE, 1)] with time := 9 }, by decide +kernel⟩

theorem witness_AlarmPulseAndTimeInputs_3 : ∃ (s : State), (s.on DAT.ALARM_CTL_ARMED) ∧ (s.alarmTime ≤ s.time) ∧ (s.on DAT.ALARM_CTL_WAKE = false) ∧ (s.on ICU.ALARM_EVT_EN = false) :=
  ⟨st [(DAT.ALARM_CTL_ARMED, 1)], by decide +kernel, by decide +kernel, by decide +kernel, by decide +kernel⟩

theorem witness_AlarmPulseAndTimeInputs_4 : ∃ (s : State), (s.on DAT.ALARM_CTL_ARMED) ∧ (s.alarmTime ≤ s.time) :=
  ⟨st [(DAT.ALARM_CTL_ARMED, 1), (DAT.ALARM_CTL_WAKE, 1)], by decide +kernel, by decide +kernel⟩

theorem witness_AlarmPulseAndTimeInputs_5 : ∃ (s : State), (s.on DAT.PPS_CTL_ENABLE) ∧ (s.on DAT.PPS_CTL_LOCK_GATE = false ∨ s.get DAT.SERVO_STAT_STATE = 3) ∧ (s.time % secUnits < s.get DAT.INCR_VALUE) ∧ (s.dater.ppsFrom ≤ s.nowNs / 1000000000 * 1000000000) :=
  ⟨{ st [(DAT.PPS_CTL_ENABLE, 1), (DAT.PPS_CTL_WIDTH_MS, 10)] with time := secUnits + 5 }, by decide +kernel, by decide +kernel, by decide +kernel, by decide +kernel⟩

theorem witness_AlarmPulseAndTimeInputs_6 : ∃ (s : State), (s.on DAT.PPS_CTL_ENABLE = false ∨ s.on DAT.PPS_CTL_LOCK_GATE = true ∧ s.get DAT.SERVO_STAT_STATE ≠ 3) :=
  ⟨st [(DAT.PPS_CTL_ENABLE, 1), (DAT.PPS_CTL_LOCK_GATE, 1)], by decide +kernel⟩

theorem witness_AlarmPulseAndTimeInputs_7 : ∃ (s : State) (e : Nat), (s.dater.pps = some e) ∧ (e ≤ s.nowNs) :=
  ⟨{ State.reset with dater := { Dater.init with pps := some 5 }, time := 2 ^ 40 }, 5, by decide +kernel, by decide +kernel⟩

theorem witness_AlarmPulseAndTimeInputs_8 : ∃ (s : State) (i : Nat) (rising : Bool), (i < 4) ∧ (bitAt (s.get (DAT.TIN_CTL_EDGE i)) (if rising then 0 else 1) = true) ∧ ((s.tin i).length < 16) ∧ (s.on (DAT.TIN_CTL_WAKE i) = false) :=
  ⟨{ st [(DAT.TIN_CTL_EDGE 3, 2)] with time := 2 ^ 40 + 77 }, 3, false, by decide +kernel, by decide +kernel, by decide +kernel, by decide +kernel⟩

theorem witness_AlarmPulseAndTimeInputs_9 : ∃ (s : State) (i : Nat) (rising : Bool), (bitAt (s.get (DAT.TIN_CTL_EDGE i)) (if rising then 0 else 1) = true) ∧ (16 ≤ (s.tin i).length) :=
  ⟨(st [(DAT.TIN_CTL_EDGE 3, 2)]).setTin 3 (List.replicate 16 (5, true)), 3, false, by decide +kernel, by decide +kernel⟩

theorem witness_AlarmPulseAndTimeInputs_10 : ∃ (s : State) (i : Nat) (a : Nat × Bool) (r : List (Nat × Bool)), (r.length < 16) ∧ (s.tin i = a :: r) :=
  ⟨(st []).setTin 3 [(5, true)], 3, (5, true), [], by decide +kernel, by decide +kernel⟩

theorem witness_TimeOutputsFollowTheirSchedules_1 : ∃ (s : State) (n : Nat), ((s.schedOf n).ok (s.get (DAT.TOUT_START_NS_VALUE n)) = false) :=
  ⟨State.reset, 7, by decide +kernel⟩

theorem witness_TimeOutputsFollowTheirSchedules_2 : ∃ (s : State) (n : Nat) (k : Nat), ((s.schedOf n).ok (s.get (DAT.TOUT_START_NS_VALUE n)) = true) ∧ (s.leadNs ≤ (s.schedOf n).edge k) ∧ (∀ i, i < k → (s.schedOf n).edge i < s.leadNs) ∧ (k = 0 ∨ (s.schedOf n).num ≠ 0) :=
  ⟨st [(.whole (DAT.TOUT_START_SEC_LO 7), 5), (DAT.TOUT_RATE_NUM_VALUE 7, 1000), (DAT.TOUT_RATE_DEN_VALUE 7, 1), (DAT.TOUT_WIDTH_NS_VALUE 7, 100)], 7, 0, by decide +kernel, by decide +kernel, by decide +kernel, by decide +kernel⟩

theorem witness_TimeOutputsFollowTheirSchedules_3 : ∃ (s : State) (n : Nat), ((s.schedOf n).ok (s.get (DAT.TOUT_START_NS_VALUE n)) = true) ∧ ((s.schedOf n).num = 0) ∧ ((s.schedOf n).start < s.leadNs) :=
  ⟨{ st [(DAT.TOUT_WIDTH_NS_VALUE 3, 100)] with time := 10 ^ 9 * 2 ^ 28 }, 3, by decide +kernel, by decide +kernel, by decide +kernel⟩

theorem witness_TimeOutputsFollowTheirSchedules_4 : ∃ (s : State) (n : Nat) (d : Nat) (c : Sched), (n < 8) ∧ ((s.tout n).running = some c) ∧ ((s.tout n).pending = none) ∧ (d = c.next) ∧ (d ≤ s.nowNs) ∧ ((s.tout n).pulse.all (· ≤ d) = true) :=
  ⟨({ st [] with time := 10 ^ 9 * 2 ^ 28 }).setTout 7 { Tout.init with running := some { start := 1000, num := 1000, den := 1, width := 100, n := 0 } }, 7, 1000, { start := 1000, num := 1000, den := 1, width := 100, n := 0 }, by decide +kernel, by decide +kernel, by decide +kernel, by decide +kernel, by decide +kernel, by decide +kernel⟩

theorem witness_TimeOutputsFollowTheirSchedules_5 : ∃ (s : State) (n : Nat) (d : Nat) (e : Nat) (c : Sched), (n < 8) ∧ ((s.tout n).running = some c) ∧ ((s.tout n).pending = none) ∧ (d = c.next) ∧ (d ≤ s.nowNs) ∧ ((s.tout n).pulse = some e) ∧ (d < e) :=
  ⟨({ st [] with time := 10 ^ 9 * 2 ^ 28 }).setTout 7 { Tout.init with running := some { start := 1000, num := 1000, den := 1, width := 100, n := 0 }, pulse := some 2000 }, 7, 1000, 2000, { start := 1000, num := 1000, den := 1, width := 100, n := 0 }, by decide +kernel, by decide +kernel, by decide +kernel, by decide +kernel, by decide +kernel, by decide +kernel, by decide +kernel⟩

theorem witness_TimeOutputsFollowTheirSchedules_6 : ∃ (s : State) (n : Nat) (e : Nat), ((s.tout n).pulse = some e) ∧ (e ≤ s.nowNs) :=
  ⟨({ st [] with time := 10 ^ 9 * 2 ^ 28 }).setTout 7 { Tout.init with pulse := some 2000 }, 7, 2000, by decide +kernel, by decide +kernel⟩

theorem witness_ServoLosesItsClockOrItsMaster_1 : ∃ (s : State), (s.dater.refclk = true) ∧ (s.rgs.raises 0x150 3 = false) ∧ (s.servoState = 0) :=
  ⟨st [(DAT.DAT_STAT_REFCLK_OK, 1)], by decide +kernel, by decide +kernel, by decide +kernel⟩

theorem witness_ServoLosesItsClockOrItsMaster_2 : ∃ (s : State), (s.dater.refclk = true) ∧ (s.rgs.raises 0x150 3 = false) ∧ (s.servoState ≠ 0) :=
  ⟨st [(DAT.DAT_STAT_REFCLK_OK, 1), (DAT.SERVO_STAT_STATE, 3)], by decide +kernel, by decide +kernel, by decide +kernel⟩

theorem witness_ServoLosesItsClockOrItsMaster_3 : ∃ (s : State) (p : Nat) (m : Master), (s.servoRuns = true) ∧ (m ∈ s.servo.masters) ∧ (∀ k ∈ s.servo.masters, k.port = p) ∧ (s.servoState ≠ 0) :=
  ⟨(st [(DAT.SERVO_STAT_STATE, 3), (DAT.SERVO_STAT_PORT, 1)]).setServo { Servo.init with masters := [{ port := 1, id := 7, data := [2] }] }, 1, { port := 1, id := 7, data := [2] }, by decide +kernel, by decide +kernel, by decide +kernel, by decide +kernel⟩

theorem witness_ServoLosesItsClockOrItsMaster_4 : ∃ (s : State) (p : Nat) (m : Master) (k : Master), (s.servoRuns = true) ∧ (m ∈ s.servo.masters) ∧ (m.port = p) ∧ (k ∈ s.servo.masters) ∧ (k.port = 1 - p) ∧ (p < 2) ∧ (∀ i ∈ s.servo.masters, i.port ≠ p → i = k ∨ betterData k.data i.data = true ∧ betterData i.data k.data = false) :=
  ⟨(st [(DAT.SERVO_STAT_STATE, 3), (DAT.SERVO_STAT_PORT, 1)]).setServo { Servo.init with masters := [{ port := 1, id := 7, data := [2, 5] }, { port := 0, id := 9, data := [2, 7] }] }, 1, { port := 1, id := 7, data := [2, 5] }, { port := 0, id := 9, data := [2, 7] }, by decide +kernel, by decide +kernel, by decide +kernel, by decide +kernel, by decide +kernel, by decide +kernel, by decide +kernel⟩

theorem witness_ServoLosesItsClockOrItsMaster_5 : ∃ (s : State), (s.servoRuns = false) :=
  ⟨(st [(PWR.PWR_STAT_STATE, pwStandby), (DAT.SERVO_STAT_STATE, 3)]).setServo { Servo.init with masters := [{ port := 1, id := 7, data := [2, 5] }] }, by decide +kernel⟩

theorem witness_CuratorsClaimSourcesAndFailOver_1 : ∃ (s : State) (h : Nat) (n : Nat), (1 ≤ n) ∧ (n ≤ 255) ∧ (s.hartRuns h = true) ∧ ((s.hart h).user = false) ∧ (s.deliverable h n = true) ∧ (∀ m, m < 256 → 1 ≤ m → s.deliverable h m = true → s.get (srcPriority m) < s.get (srcPriority n) ∨ s.get (srcPriority m) = s.get (srcPriority n) ∧ n ≤ m) :=
  ⟨st [(srcPending 255, 1), (srcPriority 255, 3), (srcTarget 255, 2), (srcPending 1, 1), (srcPriority 1, 2), (srcTarget 1, 2)], 2, 255, by decide +kernel, by decide +kernel, by decide +kernel, by decide +kernel, by decide +kernel, by decide +kernel⟩

theorem witness_CuratorsClaimSourcesAndFailOver_2 : ∃ (s : State) (h : Nat), (s.hartRuns h = true) ∧ ((s.hart h).user = false) ∧ (∀ m, m < 256 → 1 ≤ m → s.deliverable h m = false) :=
  ⟨st [(srcPending 255, 1), (srcPriority 255, 3), (srcTarget 255, 2)], 0, by decide +kernel, by decide +kernel, by decide +kernel⟩

theorem witness_CuratorsClaimSourcesAndFailOver_3 : ∃ (s : State) (h : Nat) (n : Nat) (r : List Nat), (s.hartRuns h = true) ∧ ((s.hart h).user = false) ∧ ((s.hart h).claims = n :: r) :=
  ⟨(st [(srcClaimed 9, 1)]).setHart 3 { Hart.init with claims := [9, 4] }, 3, 9, [4], by decide +kernel, by decide +kernel, by decide +kernel⟩

theorem witness_CuratorsClaimSourcesAndFailOver_4 : ∃ (s : State) (h : Nat) (n : Nat), (s.hartRuns h = true) ∧ ((s.hart h).user = false) ∧ ((s.hart h).claims.head? ≠ some n) :=
  ⟨(st [(srcClaimed 9, 1)]).setHart 3 { Hart.init with claims := [9, 4] }, 3, 4, by decide +kernel, by decide +kernel, by decide +kernel⟩

theorem witness_CuratorsClaimSourcesAndFailOver_5 : ∃ (s : State) (h : Nat) (c : Instr), (s.hartRuns h = true) ∧ ((s.hart h).user = true) ∧ (c = .mclaim h ∨ c = .mcomplete h 0) :=
  ⟨running.setHart 2 { Hart.init with user := true, mtvec := 0x103, claims := [7] }, 2, .mclaim 2, by decide +kernel, by decide +kernel, by decide +kernel⟩

theorem witness_CuratorsClaimSourcesAndFailOver_6 : ∃ (s : State) (c : State) (h : Nat) (ops : List CoreOp), (s.hartRuns h = true) ∧ (c = s.coreRun h ops) ∧ (c.power.held = false) ∧ ((c.hart h).user = false) ∧ (∀ l ∈ (c.hart h).dcache, l.dirty = false) :=
  ⟨st [(.whole (ICU.MTIMECMP_HI 2), 9)], (st [(.whole (ICU.MTIMECMP_HI 2), 9)]).coreRun 2 [.setReg 5 77, .fetch 64], 2, [.setReg 5 77, .fetch 64], by decide +kernel, by decide +kernel, by decide +kernel, by decide +kernel, by decide +kernel⟩

theorem witness_CuratorsClaimSourcesAndFailOver_7 : ∃ (s : State) (c : State) (h : Nat) (ops : List CoreOp), (s.hartRuns h = true) ∧ (c = s.coreRun h ops) ∧ (c.power.held = false) ∧ ((c.hart h).user = false) :=
  ⟨st [(DRC.DRC_STAT_READY, 1)], (st [(DRC.DRC_STAT_READY, 1)]).coreRun 2 [.store 64 8 5], 2, [.store 64 8 5], by decide +kernel, by decide +kernel, by decide +kernel, by decide +kernel⟩

theorem witness_CuratorsClaimSourcesAndFailOver_8 : ∃ (s : State) (h : Nat), (s.hartRuns h = true) ∧ ((s.hart h).user = false) :=
  ⟨running, 3, by decide +kernel, by decide +kernel⟩

theorem witness_CuratorsClaimSourcesAndFailOver_9 : ∃ (s : State) (p : Nat) (h : Nat) (q : Nat), (h < 4) ∧ (p < 5) ∧ (s.get (hartPair h) = p) ∧ (∀ g, g < 4 → g ≠ h → s.get (hartPair g) ≠ p) ∧ ((s.hart h).stopped = false) ∧ (s.get ICU.ICU_STAT_SPARE_LEFT = 1) ∧ (s.rgs.raises (0xC0 + 2 * p) 2 = false) ∧ (q < 5) ∧ (s.pairsInUse.contains q = false) ∧ (s.faulty (0xC0 + 2 * q) = false) ∧ (∀ r, r < q → s.pairsInUse.contains r = true ∨ s.faulty (0xC0 + 2 * r) = true) :=
  ⟨(st [(hartPair 0, 0), (hartPair 1, 1), (hartPair 2, 2), (hartPair 3, 3), (ICU.ICU_STAT_SPARE_LEFT, 1), (srcClaimed 7, 1)]).setHart 2 { Hart.init with claims := [7] }, 2, 2, 4, by decide +kernel, by decide +kernel, by decide +kernel, by decide +kernel, by decide +kernel, by decide +kernel, by decide +kernel, by decide +kernel, by decide +kernel, by decide +kernel, by decide +kernel⟩

theorem witness_CuratorsClaimSourcesAndFailOver_10 : ∃ (s : State) (p : Nat) (h : Nat), (h < 4) ∧ (p < 5) ∧ (s.get (hartPair h) = p) ∧ (∀ g, g < 4 → g ≠ h → s.get (hartPair g) ≠ p) ∧ ((s.hart h).stopped = false) ∧ (s.get ICU.ICU_STAT_SPARE_LEFT = 0) ∧ (s.power.held = false) ∧ (s.rgs.raises (0xC0 + 2 * p) 3 = false) :=
  ⟨(st [(hartPair 0, 0), (hartPair 1, 1), (hartPair 2, 2), (hartPair 3, 3), (ICU.ICU_STAT_SPARE_LEFT, 0), (srcClaimed 7, 1)]).setHart 2 { Hart.init with claims := [7] }, 2, 2, by decide +kernel, by decide +kernel, by decide +kernel, by decide +kernel, by decide +kernel, by decide +kernel, by decide +kernel, by decide +kernel⟩

theorem witness_CuratorsClaimSourcesAndFailOver_11 : ∃ (s : State) (p : Nat), (∀ h, h < 4 → s.get (hartPair h) = p → (s.hart h).stopped = true) :=
  ⟨st [(hartPair 0, 0), (hartPair 1, 1), (hartPair 2, 2), (hartPair 3, 3)], 4, by decide +kernel⟩

theorem witness_CuratorsClaimSourcesAndFailOver_12 : ∃ (s : State) (u : Nat), (s.unitEnabled u = true) ∧ (engineOf u = none) ∧ (kindClass 1 u = 3) ∧ (s.rgs.raises u 3 = false) :=
  ⟨State.reset, 0x1F2, by decide +kernel, by decide +kernel, by decide +kernel, by decide +kernel⟩

theorem witness_CuratorsClaimSourcesAndFailOver_13 : ∃ (s : State) (i : Nat) (w : Nat), (i < 86) ∧ (s.unitEnabled (unitOfEngine i) = true) ∧ ((s.engine i).work.isSome = true) ∧ (s.get (engState i) = stRunning ∨ s.get (engState i) = stWaiting) ∧ (waitWatched w = true) ∧ (s.rgs.raises (unitOfEngine i) 2 = false) :=
  ⟨(st [(engState 67, stRunning)]).setEngine 67 { Engine.init with work := some (1, 2, 3, 0) }, 67, 63, by decide +kernel, by decide +kernel, by decide +kernel, by decide +kernel, by decide +kernel, by decide +kernel⟩

theorem witness_CuratorsClaimSourcesAndFailOver_14 : ∃ (s : State) (i : Nat) (w : Nat), (i < 86) ∧ ((s.engine i).work.isSome = true) ∧ (s.get (engState i) = stRunning ∨ s.get (engState i) = stWaiting) ∧ (w = 2 ∨ w = 3 ∨ w = 4 ∨ w = 5) :=
  ⟨(st [(engState 67, stRunning)]).setEngine 67 { Engine.init with work := some (1, 2, 3, 0) }, 67, 2, by decide +kernel, by decide +kernel, by decide +kernel, by decide +kernel⟩

theorem witness_ControlStoresAndRoutines_1 : ∃ (s : State) (i : Nat), (s.engineEnabled i = true) ∧ ((s.engine i).work = none) ∧ ((s.engine i).parity = none) ∧ (s.rgs.raises (unitOfEngine i) 1 = false) :=
  ⟨{ State.reset with copyScb := [(4, 12)], ticks := 77 }, 85, by decide +kernel, by decide +kernel, by decide +kernel, by decide +kernel⟩

theorem witness_ControlStoresAndRoutines_2 : ∃ (s : State) (i : Nat) (upsets : List (Nat × Nat)) (a : Nat) (bad : List Nat), (s.engineEnabled i = true) ∧ (s.get (engState i) = stIdle) ∧ (((upsets.foldl (fun t q => Tab.set (fun _ => 0) t q.1 (Nat.xor (Tab.get (fun _ => 0) t q.1) q.2)) (s.engine i).store).filter fun q => !parityOk q.2).map (·.1) = a :: bad) ∧ (s.rgs.raises (unitOfEngine i) 0 = false) :=
  ⟨{ st [(engState 3, 1)] with copyCar := [(4, 12)] }.setEngine 3 { Engine.init with store := [(4, 12)] }, 3, [(4, 1), (9, 2)], 4, [9], by decide +kernel, by decide +kernel, by decide +kernel, by decide +kernel⟩

theorem witness_ControlStoresAndRoutines_3 : ∃ (s : State) (i : Nat) (upsets : List (Nat × Nat)), (s.get (engState i) = stIdle) ∧ ((upsets.foldl (fun t q => Tab.set (fun _ => 0) t q.1 (Nat.xor (Tab.get (fun _ => 0) t q.1) q.2)) (s.engine i).store).all (fun q => parityOk q.2) = true) :=
  ⟨(st [(engState 3, 1)]).setEngine 3 { Engine.init with store := [(4, 12)] }, 3, [], by decide +kernel, by decide +kernel⟩

theorem witness_ControlStoresAndRoutines_4 : ∃ (s : State) (i : Nat), (s.get (engState i) ≠ stIdle) :=
  ⟨st [(engState 3, 2)], 3, by decide +kernel⟩

theorem witness_ControlStoresAndRoutines_5 : ∃ (s : State) (i : Nat), (i < 68) ∧ ((s.engine i).work.isSome = true) ∧ (s.get (engState i) ≠ stFenced) :=
  ⟨(st [(engState 67, 3)]).setEngine 67 { Engine.init with work := some (1, 2, 3, 0), staging := [[7#8]] }, 67, by decide +kernel, by decide +kernel, by decide +kernel⟩

theorem witness_ControlStoresAndRoutines_6 : ∃ (s : State) (i : Nat), (68 ≤ i) ∧ (i < 86) ∧ ((s.engine i).work.isSome = true) ∧ (s.get (engState i) ≠ stFenced) :=
  ⟨((st [(engState 70, 3)]).setEngine 70 { Engine.init with work := some (1, 2, 3, 0), staging := [[7#8]] }).setQueue 5 { Queue.init with claimed := [(0x82, { ty := 1, len := 4, producer := 3, data := [], complete := true, work := none, epoch := 0, chunk := 0, banks := [1] })] }, 70, by decide +kernel, by decide +kernel, by decide +kernel, by decide +kernel⟩

theorem witness_ControlStoresAndRoutines_7 : ∃ (s : State) (i : Nat), ((s.engine i).work.isSome = true) ∧ (s.get (engState i) ≠ stFenced) :=
  ⟨(st [(engState 67, 3)]).setEngine 67 { Engine.init with work := some (1, 2, 3, 0), staging := [[7#8]] }, 67, by decide +kernel, by decide +kernel⟩

theorem witness_ControlStoresAndRoutines_8 : ∃ (s : State) (i : Nat) (dest : Nat) (n : Nat) (p : Nat) (j : Nat) (run : Nat), (i < 68) ∧ (dest < 68) ∧ (i ≠ dest) ∧ ((s.engine i).work = some (n, p, j, run)) ∧ (s.get (engState i) ≠ stFenced) ∧ (s.engineFree dest = true) :=
  ⟨(st [(engState 60, 3), (engProg 60, 5), (engState 3, 1)]).setEngine 60 { Engine.init with work := some (1, 2, 3, 0), staging := [[7#8]] }, 60, 3, 1, 2, 3, 0, by decide +kernel, by decide +kernel, by decide +kernel, by decide +kernel, by decide +kernel, by decide +kernel⟩

theorem witness_ControlStoresAndRoutines_9 : ∃ (s : State) (i : Nat) (n : Nat) (q : Queue), (s.queues = [(n, q)]) ∧ (q.claimed.all (fun c => c.1 == unitOfEngine i) = true) :=
  ⟨{ State.reset with queues := [(5, { Queue.init with claimed := [(0x82, { ty := 1, len := 4, producer := 3, data := [], complete := true, work := none, epoch := 0, chunk := 0, banks := [1] })] })] }, 70, 5, { Queue.init with claimed := [(0x82, { ty := 1, len := 4, producer := 3, data := [], complete := true, work := none, epoch := 0, chunk := 0, banks := [1] })] }, by decide +kernel, by decide +kernel⟩

theorem witness_FaultMessagesActByTheirClass_1 : ∃ (s : State) (u : Nat) (k : Nat) (c : Nat), (kindFits k u = true) ∧ (s.unitEnabled u = true) ∧ (kindClass k u = c) ∧ (c ≤ 1) ∧ (k ≠ 0x05 ∧ k ≠ 0x08 ∨ s.workOf u = none) ∧ (s.rgs.raises u c = false) :=
  ⟨running, 0x180, 0x1A, 0, by decide +kernel, by decide +kernel, by decide +kernel, by decide +kernel, by decide +kernel, by decide +kernel⟩

theorem witness_FaultMessagesActByTheirClass_2 : ∃ (s : State) (u : Nat) (k : Nat), (kindFits k u = true) ∧ (s.unitEnabled u = true) ∧ (kindClass k u = 2) ∧ (k ≠ 0x20) ∧ (engineOf u = none) ∧ (u < 0xC0 ∨ 0xC9 < u) ∧ (s.rgs.raises u 2 = false) :=
  ⟨running.setCatUnit 0x1F2 { CatUnit.init with expect := 9 }, 0x1F2, 0x48, by decide +kernel, by decide +kernel, by decide +kernel, by decide +kernel, by decide +kernel, by decide +kernel, by decide +kernel⟩

theorem witness_FaultMessagesActByTheirClass_3 : ∃ (s : State) (u : Nat) (k : Nat) (i : Nat), (kindFits k u = true) ∧ (s.unitEnabled u = true) ∧ (kindClass k u = 2) ∧ (k ≠ 0x20) ∧ (engineOf u = some i) ∧ (s.on (MMU.GRANT_FENCED i) = false) ∧ ((s.engine i).work = none) ∧ (s.get (engSpare i) = 0) ∧ (s.sparesOf i ≠ []) ∧ (s.rgs.raises u 2 = false) :=
  ⟨st [(engState 2, 1), (engState 85, 1), (engState 84, 1), (engSpare 84, 1)], 0x91, 0x0A, 85, by decide +kernel, by decide +kernel, by decide +kernel, by decide +kernel, by decide +kernel, by decide +kernel, by decide +kernel, by decide +kernel, by decide +kernel, by decide +kernel⟩

theorem witness_FaultMessagesActByTheirClass_4 : ∃ (s : State) (u : Nat) (k : Nat), (kindFits k u = true) ∧ (s.unitEnabled u = true) ∧ (kindClass k u = 3) ∧ (k ≠ 0x20) ∧ (s.workOf u = none) ∧ (s.rgs.raises u 3 = false) :=
  ⟨running, 0x111, 0x12, by decide +kernel, by decide +kernel, by decide +kernel, by decide +kernel, by decide +kernel, by decide +kernel⟩

theorem witness_FaultMessagesActByTheirClass_5 : ∃ (s : State) (u : Nat) (k : Nat), (kindFits k u = true) ∧ (s.unitEnabled u = true) ∧ (kindClass k u = 4) ∧ (s.power.held = false) ∧ (s.power.refclk = true) :=
  ⟨running, 0x180, 1, by decide +kernel, by decide +kernel, by decide +kernel, by decide +kernel, by decide +kernel⟩

theorem witness_FaultMessagesActByTheirClass_6 : ∃ (s : State) (u : Nat) (k : Nat), (kindFits k u = false ∨ s.unitEnabled u = false) :=
  ⟨running, 0x180, 0x38, by decide +kernel⟩

theorem witness_TheRegistrarActsAndWorkMigrates_1 : ∃ (c : Nat), (c < 4) :=
  ⟨2, by decide +kernel⟩

theorem witness_TheRegistrarActsAndWorkMigrates_2 : ∃ (c : Nat), (4 ≤ c) :=
  ⟨4, by decide +kernel⟩

theorem witness_TheRegistrarActsAndWorkMigrates_3 : ∃ (s : State) (c : Nat) (k : Nat) (u : Nat), (c ≤ 1) ∧ (kindKnown k = true) ∧ (s.unitEnabled u = true) ∧ (s.rgs.raises u c = false) :=
  ⟨running, 1, 0x20, 0, by decide +kernel, by decide +kernel, by decide +kernel, by decide +kernel⟩

theorem witness_TheRegistrarActsAndWorkMigrates_4 : ∃ (s : State) (c : Nat) (k : Nat) (u : Nat), (4 ≤ c ∨ kindKnown k = false ∨ s.unitEnabled u = false) :=
  ⟨running, 4, 1, 0, by decide +kernel⟩

theorem witness_TheRegistrarActsAndWorkMigrates_5 : ∃ (s : State) (d : Nat), (s.rgs.hold = some d) ∧ (d ≤ s.ticks) :=
  ⟨{ running with rgs := { Registrar.init with hold := some 5 }, ticks := 5 }, 5, by decide +kernel, by decide +kernel⟩

theorem witness_TheRegistrarActsAndWorkMigrates_6 : ∃ (s : State) (i : Nat) (d : Nat), ((s.engine i).drain = some d) ∧ ((s.engine i).writes = 0) :=
  ⟨running.setEngine 9 { Engine.init with drain := some 4 }, 9, 4, by decide +kernel, by decide +kernel⟩

theorem witness_TheRegistrarActsAndWorkMigrates_7 : ∃ (s : State) (i : Nat) (d : Nat), ((s.engine i).drain = some d) ∧ (20 ≤ s.usSince d) ∧ ((s.engine i).writes ≠ 0) ∧ (s.rgs.raises 0x180 0 = false) :=
  ⟨{ running.setEngine 9 { Engine.init with drain := some 4, writes := 3 } with ticks := 5004 }, 9, 4, by decide +kernel, by decide +kernel, by decide +kernel, by decide +kernel⟩

theorem witness_TheRegistrarActsAndWorkMigrates_8 : ∃ (s : State) (i : Nat) (dest : Nat) (n : Nat) (p : Nat) (j : Nat) (run : Nat), (i < 68) ∧ ((s.engine i).drain = none) ∧ ((s.engine i).work = some (n, p, j, run)) ∧ ((s.engine i).heir = some dest ∨ (s.engine i).heir = none) ∧ (i ≠ dest) ∧ (dest < 68) ∧ (s.engineFree dest = true) :=
  ⟨(st [(engState 60, 5), (engProg 60, 5), (engState 3, 1)]).setEngine 60 { Engine.init with work := some (1, 2, 3, 0), heir := some 3 }, 60, 3, 1, 2, 3, 0, by decide +kernel, by decide +kernel, by decide +kernel, by decide +kernel, by decide +kernel, by decide +kernel, by decide +kernel⟩

theorem witness_SweepsPinsAndTheThermalSensor_1 : ∃ (s : State), (s.on CAT.CAT_STAT_EPOCH_VALID = true) ∧ (s.power.held = false) ∧ (∀ u ∈ s.digestUnits, s.powered u = true → s.faulty u = false → s.expected (s.catUnit u) = some (s.catUnit u).digest) :=
  ⟨st [(CAT.CAT_STAT_EPOCH_VALID, 1)], by decide +kernel, by decide +kernel, by decide +kernel⟩

theorem witness_SweepsPinsAndTheThermalSensor_2 : ∃ (s : State) (u : Nat) (e : Nat) (d : Nat), (s.on CAT.CAT_STAT_EPOCH_VALID = true) ∧ (s.power.held = false) ∧ (u ∈ s.digestUnits) ∧ (s.powered u = true) ∧ (s.faulty u = false) ∧ (engineOf u = none) ∧ (u < 0xC0 ∨ 0xC9 < u) ∧ ((s.catUnit u).rewritten = false) ∧ (s.expected { s.catUnit u with epoch := e, digest := d } ≠ some d) ∧ (s.rgs.raises u 2 = false) ∧ (∀ v ∈ s.digestUnits, v ≠ u → s.powered v = true → s.faulty v = false → s.expected (s.catUnit v) = some (s.catUnit v).digest) :=
  ⟨st [(CAT.CAT_STAT_EPOCH_VALID, 1)], 0x104, 0, 99, by decide +kernel, by decide +kernel, by decide +kernel, by decide +kernel, by decide +kernel, by decide +kernel, by decide +kernel, by decide +kernel, by decide +kernel, by decide +kernel, by decide +kernel⟩

theorem witness_SweepsPinsAndTheThermalSensor_3 : ∃ (s : State), (s.on CAT.CAT_STAT_EPOCH_VALID = false) :=
  ⟨running, by decide +kernel⟩

theorem witness_SweepsPinsAndTheThermalSensor_4 : ∃ (s : State), (s.rgs.raises 0x120 3 = false) :=
  ⟨running, by decide +kernel⟩

theorem witness_SweepsPinsAndTheThermalSensor_5 : ∃ (s : State), (s.rgs.raises 0x120 0 = false) :=
  ⟨running, by decide +kernel⟩

theorem witness_SweepsPinsAndTheThermalSensor_6 : ∃ (s : State) (p : OutPin) (l : Bool), (s.pinLevel p = some l) ∧ (p.exists = true) ∧ (s.unitEnabled p.owner = true) ∧ (s.power.held = false) ∧ (s.rgs.raises p.owner 3 = false) :=
  ⟨running, .timeOut 7, false, by decide +kernel, by decide +kernel, by decide +kernel, by decide +kernel, by decide +kernel⟩

theorem witness_SweepsPinsAndTheThermalSensor_7 : ∃ (s : State) (p : OutPin) (l : Bool), (s.pinLevel p = some l ∨ s.pinLevel p = none) :=
  ⟨running, .magPerst 1, false, by decide +kernel⟩

theorem witness_SweepsPinsAndTheThermalSensor_8 : ∃ (s : State), (s.power.aon = true) ∧ (s.pads.therm = false) ∧ (s.on KPR.BOOT_STAT_ALIVE = true) ∧ (s.pwState ≠ pwVault) ∧ (s.rgs.raises 0x1F2 3 = false) :=
  ⟨st [(KPR.BOOT_STAT_ALIVE, 1)], by decide +kernel, by decide +kernel, by decide +kernel, by decide +kernel, by decide +kernel⟩

theorem witness_SweepsPinsAndTheThermalSensor_9 : ∃ (s : State), (s.power.aon = true) ∧ (s.on KPR.BOOT_STAT_ALIVE = false) :=
  ⟨running, by decide +kernel, by decide +kernel⟩

theorem witness_ResetsAreTakenAndReleased_1 : ∃ (s : State), (s.power.aon = false) :=
  ⟨{ running with power := { Power.init with aon := false }, host := [(5, 3#8)] }, by decide +kernel⟩

theorem witness_ResetsAreTakenAndReleased_2 : ∃ (s : State), (s.power.aon = true) :=
  ⟨running, by decide +kernel⟩

theorem witness_ResetsAreTakenAndReleased_3 : ∃ (s : State), (s.power.aon = true) ∧ (s.power.refclk = true) ∧ (s.power.held = false) :=
  ⟨running, by decide +kernel, by decide +kernel, by decide +kernel⟩

theorem witness_ResetsAreTakenAndReleased_4 : ∃ (s : State) (ns : Nat), (1000 ≤ ns) ∧ (s.power.refclk = true) ∧ (s.power.held = false) :=
  ⟨running, 1000, by decide +kernel, by decide +kernel, by decide +kernel⟩

theorem witness_ResetsAreTakenAndReleased_5 : ∃ (s : State) (ns : Nat), (1000 ≤ ns) ∧ (s.power.refclk = true) ∧ (s.power.held = false) ∧ (s.pwState ≠ pwVault) :=
  ⟨running, 1000, by decide +kernel, by decide +kernel, by decide +kernel, by decide +kernel⟩

theorem witness_ResetsAreTakenAndReleased_6 : ∃ (ns : Nat) (c : Instr), (ns < 100) ∧ (c = .sysResetN ns ∨ c = .perstN ns) :=
  ⟨99, .perstN 99, by decide +kernel, by decide +kernel⟩

theorem witness_ResetsAreTakenAndReleased_7 : ∃ (s : State) (ns : Nat), (1000 ≤ ns) ∧ (s.pwState = pwVault) ∧ (s.on RST.RST_CFG_PERST_IN_VAULT = true) :=
  ⟨st [(PWR.PWR_STAT_STATE, 4), (RST.RST_CFG_PERST_IN_VAULT, 1)], 1000, by decide +kernel, by decide +kernel, by decide +kernel⟩

theorem witness_ResetsAreTakenAndReleased_8 : ∃ (s : State), (s.power.held = true) ∧ (s.power.refclk = true) ∧ (s.power.aon = true) ∧ (s.power.cold = true) :=
  ⟨{ st [] with power := { Power.init with held := true, cold := true, refclk := true }, big := false }, by decide +kernel, by decide +kernel, by decide +kernel, by decide +kernel⟩

theorem witness_ResetsAreTakenAndReleased_9 : ∃ (s : State), (s.power.held = true) ∧ (s.power.refclk = true) ∧ (s.power.aon = true) ∧ (s.power.cold = false) ∧ (s.get FUS.FUS_STAT_FUSE_FAIL = 0) ∧ (s.on FUS.FUS_STAT_LOADED = true) :=
  ⟨{ st [(FUS.FUS_STAT_LOADED, 1)] with power := { Power.init with held := true, cold := false, refclk := true, pace := 2 } }, by decide +kernel, by decide +kernel, by decide +kernel, by decide +kernel, by decide +kernel, by decide +kernel⟩

theorem witness_ResetsAreTakenAndReleased_10 : ∃ (s : State), (s.power.held = false) :=
  ⟨running, by decide +kernel⟩

theorem witness_ResetsAreTakenAndReleased_11 : ∃ (s : State), (s.power.latched = []) :=
  ⟨running, by decide +kernel⟩

theorem witness_ResetsAreTakenAndReleased_12 : ∃ (s : State) (r : Nat) (c : Nat) (cold : Bool), ((r, c, cold) ∈ s.power.latched) ∧ (∀ e ∈ s.power.latched, e = (r, c, cold) ∨ r < e.1) ∧ (c < 8) ∧ (s.power.held = false) :=
  ⟨{ running with power := { running.power with refclk := false, latched := [(7, 4, false), (6, 5, true)] } }, 6, 5, true, by decide +kernel, by decide +kernel, by decide +kernel, by decide +kernel⟩

theorem witness_KeyedResetsUnitsAndDomains_1 : ∃ (s : State), (s.bar0Up = true) ∧ (s.power.key = none) :=
  ⟨{ running with ticks := 9 }, by decide +kernel, by decide +kernel⟩

theorem witness_KeyedResetsUnitsAndDomains_2 : ∃ (s : State) (d : Nat), (s.bar0Up = true) ∧ (s.power.key = some d) ∧ (s.usSince d ≤ 1000) :=
  ⟨{ running with power := { running.power with key := some 3 } }, 3, by decide +kernel, by decide +kernel, by decide +kernel⟩

theorem witness_KeyedResetsUnitsAndDomains_3 : ∃ (s : State) (d : Nat), (s.bar0Up = true) ∧ (s.power.key = some d) ∧ (s.usSince d ≤ 1000) ∧ (s.power.refclk = true) ∧ (s.power.held = false) :=
  ⟨{ running with power := { running.power with key := some 3 } }, 3, by decide +kernel, by decide +kernel, by decide +kernel, by decide +kernel, by decide +kernel⟩

theorem witness_KeyedResetsUnitsAndDomains_4 : ∃ (s : State) (key2 : Nat) (u : Nat) (c : Instr), (c = .coldResetCommand key2 ∨ c = .warmResetCommand key2 ∨ c = .unitReset key2 u) ∧ (s.bar0Up = true) ∧ (s.power.key = none ∨ s.keyStale = true ∨ key2 ≠ 0x3C5A) :=
  ⟨{ running with power := { running.power with key := some 3 }, ticks := 250 * 1001 + 3 }, 0x3C5A, 0, .unitReset 0x3C5A 0, by decide +kernel, by decide +kernel, by decide +kernel⟩

theorem witness_KeyedResetsUnitsAndDomains_5 : ∃ (s : State) (v : Nat) (key2 : Nat) (u : Nat) (c : Instr), (c = .rstKey v ∨ c = .coldResetCommand key2 ∨ c = .warmResetCommand key2 ∨ c = .unitReset key2 u) ∧ (s.bar0Up = false) :=
  ⟨{ State.reset with power := { State.reset.power with key := some 0 } }, 0xA5C3, 0x3C5A, 0, .coldResetCommand 0x3C5A, by decide +kernel, by decide +kernel⟩

theorem witness_KeyedResetsUnitsAndDomains_6 : ∃ (s : State) (u : Nat) (i : Nat) (d : Nat), (s.bar0Up = true) ∧ (s.power.key = some d) ∧ (s.usSince d ≤ 1000) ∧ (s.unitAccepted u = true) ∧ (s.unitIdle u = true) ∧ (engineOf u = some i) ∧ (s.power.held = false) :=
  ⟨{ st [(engState 70, 1), (⟨PWR.PD_STAT0 + 8, 6, 1⟩, 1)] with power := { running.power with key := some 3 } }, 0x82, 70, 3, by decide +kernel, by decide +kernel, by decide +kernel, by decide +kernel, by decide +kernel, by decide +kernel, by decide +kernel⟩

theorem witness_KeyedResetsUnitsAndDomains_7 : ∃ (s : State) (u : Nat) (d : Nat), (s.bar0Up = true) ∧ (s.power.key = some d) ∧ (s.usSince d ≤ 1000) ∧ (s.unitAccepted u = false) ∧ (u < 4096) :=
  ⟨{ running with power := { running.power with key := some 3 } }, 0x1F0, 3, by decide +kernel, by decide +kernel, by decide +kernel, by decide +kernel, by decide +kernel⟩

theorem witness_KeyedResetsUnitsAndDomains_8 : ∃ (s : State) (u : Nat) (i : Nat) (d : Nat) (busy : Bool), (s.power.unit = some (u, d, busy)) ∧ (engineOf u = some i) ∧ (s.on (MMU.GRANT_FENCED i) = false) :=
  ⟨{ st [(engState 70, 0), (⟨PWR.PD_STAT0 + 8, 6, 1⟩, 1)] with power := { running.power with unit := some (0x82, 3, true) }, copyScb := [(1, 2)] }, 0x82, 70, 3, true, by decide +kernel, by decide +kernel, by decide +kernel⟩

theorem witness_KeyedResetsUnitsAndDomains_9 : ∃ (s : State) (k : Nat) (i : Nat) (v : Nat), (k < 4) ∧ (i < 32) ∧ (s.power.held = false) ∧ (∀ j, j < 32 → j ≠ i → bitAt v j = s.bitOn PWR.PD_REQ0 (32 * k + j)) ∧ (bitAt v i = true) ∧ (s.bitOn PWR.PD_REQ0 (32 * k + i) = false) ∧ (32 * k + i < 91 ∨ 104 < 32 * k + i ∧ 32 * k + i < 112) ∧ (s.heldOff (32 * k + i) = false) ∧ (s.on KPR.BOOT_STAT_RECOVERY = false) :=
  ⟨running, 3, 15, 0x8000 + (running.rd (PWR.PD_REQ0 + 12)).toNat, by decide +kernel, by decide +kernel, by decide +kernel, by decide +kernel, by decide +kernel, by decide +kernel, by decide +kernel, by decide +kernel, by decide +kernel⟩

theorem witness_KeyedResetsUnitsAndDomains_10 : ∃ (s : State) (k : Nat) (i : Nat) (v : Nat), (k < 4) ∧ (i < 32) ∧ (s.power.held = false) ∧ (∀ j, j < 32 → j ≠ i → bitAt v j = s.bitOn PWR.PD_REQ0 (32 * k + j)) ∧ (bitAt v i = false) ∧ (s.bitOn PWR.PD_REQ0 (32 * k + i) = true) ∧ (32 * k + i < 86) ∧ (s.heldOff (32 * k + i) = false) ∧ (s.engineEnabled (32 * k + i) = true) ∧ (s.domainSpare (32 * k + i) = false) ∧ (s.domainIdle (32 * k + i) = true) :=
  ⟨st [(⟨PWR.PD_REQ0 + 8, 21, 1⟩, 1), (⟨PWR.PD_STAT0 + 8, 21, 1⟩, 1), (engState 85, 1)], 2, 21, 0xF8000000, by decide +kernel, by decide +kernel, by decide +kernel, by decide +kernel, by decide +kernel, by decide +kernel, by decide +kernel, by decide +kernel, by decide +kernel, by decide +kernel, by decide +kernel⟩

theorem witness_KeyedResetsUnitsAndDomains_11 : ∃ (s : State) (d : Nat), (d ∈ s.ramping) ∧ (s.pwState = pwActive) ∧ (d < 86) ∧ (s.on (MMU.GRANT_FENCED d) = false) :=
  ⟨{ st [(⟨PWR.PD_REQ0 + 8, 21, 1⟩, 1)] with copyScb := [(1, 2)] }, 85, by decide +kernel, by decide +kernel, by decide +kernel, by decide +kernel⟩

theorem witness_SleepsAndWakesFollowTheirRules_1 : ∃ (s : State), (s.power.held = false) ∧ (s.power.sleep = none) ∧ (s.power.unwind = none) ∧ (s.pwState = pwActive) ∧ (s.sleepRefusal = none) :=
  ⟨st [(PWR.WAKE_EN_SOURCES, 63), (PWR.WAKE_PEND_SOURCES, 3)], by decide +kernel, by decide +kernel, by decide +kernel, by decide +kernel, by decide +kernel⟩

theorem witness_SleepsAndWakesFollowTheirRules_2 : ∃ (s : State) (r : Nat), (s.power.held = false) ∧ (s.power.sleep = none) ∧ (s.power.unwind = none) ∧ (s.pwState = pwActive) ∧ (s.sleepRefusal = some r) :=
  ⟨st [(PWR.WAKE_EN_SOURCES, 0)], 3, by decide +kernel, by decide +kernel, by decide +kernel, by decide +kernel, by decide +kernel⟩

theorem witness_SleepsAndWakesFollowTheirRules_3 : ∃ (s : State) (req : Nat) (d : Nat), (s.power.sleep = some (req, 1, d)) :=
  ⟨{ (st [(⟨PWR.PD_STAT0 + 8, 21, 1⟩, 1), (engState 85, 1)]).setEngine 85 { Engine.init with writes := 2 } with power := { running.power with sleep := some (1, 1, 0) } }, 1, 0, by decide +kernel⟩

theorem witness_SleepsAndWakesFollowTheirRules_4 : ∃ (s : State) (d : Nat), (s.power.sleep = some (1, 4, d)) ∧ (s.wakeSources = []) :=
  ⟨{ st [(DRC.DRC_STAT_READY, 1), (PWR.PWR_STAT_STATE, 1)] with power := { running.power with sleep := some (1, 4, 0) } }, 0, by decide +kernel, by decide +kernel⟩

theorem witness_SleepsAndWakesFollowTheirRules_5 : ∃ (s : State) (req : Nat) (k : Nat) (d : Nat), (s.power.sleep = some (req, k, d)) ∧ (k = 4 ∨ k = 6) ∧ (s.wakeSources ≠ []) :=
  ⟨{ st [(PWR.PWR_STAT_STATE, 1), (PWR.WAKE_EN_SOURCES, 8), (PWR.WAKE_PEND_SOURCES, 8)] with power := { running.power with sleep := some (2, 6, 0) } }, 2, 6, 0, by decide +kernel, by decide +kernel, by decide +kernel⟩

theorem witness_SleepsAndWakesFollowTheirRules_6 : ∃ (s : State) (d : Nat), (s.power.sleep = some (2, 6, d)) ∧ (s.wakeSources = []) :=
  ⟨{ st [(PWR.PWR_STAT_STATE, 2)] with power := { running.power with sleep := some (2, 6, 0) }, dram := [(3, 4#8)], time := 77 }, 0, by decide +kernel, by decide +kernel⟩

theorem witness_SleepsAndWakesFollowTheirRules_7 : ∃ (s : State) (d : Nat), (s.power.sleep = some (2, 5, d)) :=
  ⟨{ running with power := { running.power with sleep := some (2, 5, 0) } }, 0, by decide +kernel⟩

theorem witness_SleepsAndWakesFollowTheirRules_8 : ∃ (s : State) (d : Nat), (s.power.sleep = some (2, 5, d)) ∧ (1000000 ≤ s.usSince d) :=
  ⟨{ running with power := { running.power with sleep := some (2, 5, 0) }, ticks := 250 * 1000000 }, 0, by decide +kernel, by decide +kernel⟩

theorem witness_SleepsAndWakesFollowTheirRules_9 : ∃ (s : State) (src : Nat), (s.power.held = false) ∧ (1 ≤ src) ∧ (src < 6) ∧ (bitAt (s.get PWR.WAKE_EN_SOURCES) src = false) :=
  ⟨st [(PWR.WAKE_EN_SOURCES, 31)], 5, by decide +kernel, by decide +kernel, by decide +kernel, by decide +kernel⟩

theorem witness_SleepsAndWakesFollowTheirRules_10 : ∃ (s : State) (src : Nat), (s.power.held = false) ∧ (1 ≤ src) ∧ (src < 6) ∧ (bitAt (s.get PWR.WAKE_EN_SOURCES) src = true) ∧ (s.wakeSources = [] ∨ s.wakeSources = [src]) ∧ (s.power.sleep = none) ∧ (s.pwState = pwStandby) :=
  ⟨st [(PWR.WAKE_EN_SOURCES, 32), (PWR.PWR_STAT_STATE, 2), (PWR.WAKE_PEND_SOURCES, 2)], 5, by decide +kernel, by decide +kernel, by decide +kernel, by decide +kernel, by decide +kernel, by decide +kernel, by decide +kernel⟩

theorem witness_SleepsAndWakesFollowTheirRules_11 : ∃ (s : State) (src : Nat) (req : Nat) (k : Nat) (d : Nat), (s.power.held = false) ∧ (1 ≤ src) ∧ (src < 6) ∧ (bitAt (s.get PWR.WAKE_EN_SOURCES) src = true) ∧ (s.wakeSources = []) ∧ (s.power.sleep = some (req, k, d)) :=
  ⟨{ st [(PWR.WAKE_EN_SOURCES, 32), (PWR.PWR_STAT_STATE, 1)] with power := { running.power with sleep := some (2, 3, 0) } }, 5, 2, 3, 0, by decide +kernel, by decide +kernel, by decide +kernel, by decide +kernel, by decide +kernel, by decide +kernel⟩

theorem witness_SleepsAndWakesFollowTheirRules_12 : ∃ (s : State) (off : Nat) (req : Nat) (k : Nat) (d : Nat), (s.bar0Up = true) ∧ (off < 2 ^ 24) ∧ (regDesc off = none) ∧ (bitAt (s.get PWR.WAKE_EN_SOURCES) 0 = true) ∧ (s.power.sleep = some (req, k, d)) :=
  ⟨{ st [(PWR.PWR_STAT_STATE, 1)] with power := { running.power with sleep := some (1, 3, 0) } }, 0x170000, 1, 3, 0, by decide +kernel, by decide +kernel, by decide +kernel, by decide +kernel, by decide +kernel⟩

theorem witness_SleepsAndWakesFollowTheirRules_13 : ∃ (s : State) (n : Nat) (idx : Nat), (n < 64) ∧ (s.doorbellOk n (s.sqSize n) idx = true) ∧ (bitAt (s.get PWR.WAKE_EN_SOURCES) 0 = true) ∧ (s.power.sleep = none) ∧ (s.pwState = pwStandby) :=
  ⟨st [(HIF.HIF_STAT_READY, 1), (HIF.RP_CFG_ENABLE 63, 1), (HIF.RP_CFG_SQ_LOG2 63, 4), (PWR.PWR_STAT_STATE, pwStandby)], 63, 15, by decide +kernel, by decide +kernel, by decide +kernel, by decide +kernel, by decide +kernel⟩

theorem witness_SleepsAndWakesFollowTheirRules_14 : ∃ (s : State) (src : Nat) (d : Nat), (s.power.unwind = none) ∧ (s.power.wake = some (src, false, 1, d)) :=
  ⟨{ st [(DRC.DRC_STAT_READY, 1)] with power := { running.power with wake := some (3, false, 1, 0) } }, 3, 0, by decide +kernel, by decide +kernel⟩

theorem witness_SleepsAndWakesFollowTheirRules_15 : ∃ (s : State) (src : Nat) (d : Nat), (s.power.unwind = none) ∧ (s.power.wake = some (src, true, 6, d)) ∧ (src < 6) :=
  ⟨{ st [(PWR.PWR_STAT_STATE, 3)] with power := { running.power with wake := some (5, true, 6, 0) }, ticks := 250 * 777 }, 5, 0, by decide +kernel, by decide +kernel, by decide +kernel⟩

theorem witness_SleepsAndWakesFollowTheirRules_16 : ∃ (s : State) (cause : Option Nat) (req : Nat), (s.power.unwind = some (cause, req, 5)) ∧ (s.on DRC.DRC_STAT_READY = true) :=
  ⟨{ st [(DRC.DRC_STAT_READY, 1)] with power := { running.power with unwind := some (none, 2, 5) } }, none, 2, by decide +kernel, by decide +kernel⟩

theorem witness_SmbusMessagesAreAnsweredInEveryPowerState_1 : ∃ (s : State), (s.power.aon = true) :=
  ⟨st [(KPR.BOOT_STAT_ALIVE, 1)], by decide +kernel⟩

theorem witness_SmbusMessagesAreAnsweredInEveryPowerState_2 : ∃ (s : State), (s.power.aon = true) :=
  ⟨running, by decide +kernel⟩

theorem witness_SmbusMessagesAreAnsweredInEveryPowerState_3 : ∃ (s : State), (s.power.aon = true) :=
  ⟨st [(FUS.FUS_STAT_LOADED, 1)], by decide +kernel⟩

theorem witness_SmbusMessagesAreAnsweredInEveryPowerState_4 : ∃ (s : State), (s.power.aon = true) :=
  ⟨st [(FUS.FUS_STAT_LOADED, 1)], by decide +kernel⟩

theorem witness_SmbusMessagesAreAnsweredInEveryPowerState_5 : ∃ (s : State), (s.power.aon = true) :=
  ⟨st [(CAT.EPOCH_VALUE, 1)], by decide +kernel⟩

theorem witness_SmbusMessagesAreAnsweredInEveryPowerState_6 : ∃ (s : State) (m : Msg), (s.power.aon = true) ∧ (s.rgs.head.head? = some m) :=
  ⟨{ running with rgs := { Registrar.init with head := [⟨1, 2, 3, false, 4, true, 5, 6, 7, false, 8⟩] } }, ⟨1, 2, 3, false, 4, true, 5, 6, 7, false, 8⟩, by decide +kernel, by decide +kernel⟩

theorem witness_SmbusMessagesAreAnsweredInEveryPowerState_7 : ∃ (s : State), (s.power.aon = true) ∧ (s.power.refclk = true) ∧ (s.power.held = false) ∧ (s.on SMB.SMB_CFG_RESET_EN = true) :=
  ⟨st [(SMB.SMB_CFG_RESET_EN, 1)], by decide +kernel, by decide +kernel, by decide +kernel, by decide +kernel⟩

theorem witness_SmbusMessagesAreAnsweredInEveryPowerState_8 : ∃ (s : State), (s.power.aon = true) ∧ (s.on SMB.SMB_CFG_RESET_EN = false) :=
  ⟨st [(SMB.SMB_CFG_RESET_EN, 0)], by decide +kernel, by decide +kernel⟩

theorem witness_SmbusMessagesAreAnsweredInEveryPowerState_9 : ∃ (s : State) (v : Nat) (c : Instr), (s.power.aon = true) ∧ (c = .resetMessage v false ∨ c = .wakeMessage false ∨ c = .smbusUnknownCommand) :=
  ⟨running, 0xC01D, .smbusUnknownCommand, by decide +kernel, by decide +kernel⟩

theorem witness_SmbusMessagesAreAnsweredInEveryPowerState_10 : ∃ (s : State), (s.power.aon = true) :=
  ⟨st [(PWR.WAKE_EN_SOURCES, 32), (PWR.PWR_STAT_STATE, 4)], by decide +kernel⟩

theorem witness_SmbusMessagesAreAnsweredInEveryPowerState_11 : ∃ (s : State), (s.power.aon = true) ∧ (s.alertN = true) :=
  ⟨st [(SMB.SMB_CFG_ALERT_MASK, 8), (PWR.SLEEP_STAT_DONE, 1)], by decide +kernel, by decide +kernel⟩

theorem witness_SmbusMessagesAreAnsweredInEveryPowerState_12 : ∃ (s : State), (s.alertN = false) :=
  ⟨running, by decide +kernel⟩

theorem witness_SmbusMessagesAreAnsweredInEveryPowerState_13 : ∃ (s : State), (s.power.held = false) ∧ (s.pwState ≠ pwVault) ∧ (s.pads.locked = false) :=
  ⟨running, by decide +kernel, by decide +kernel, by decide +kernel⟩

theorem witness_SmbusMessagesAreAnsweredInEveryPowerState_14 : ∃ (s : State), (s.power.held = false) ∧ (s.pwState ≠ pwVault) ∧ (s.pads.locked = true) :=
  ⟨{ running with pads := { Pads.init with locked := true } }, by decide +kernel, by decide +kernel, by decide +kernel⟩

theorem witness_PaceRequestsAreCheckedAndCharged_1 : ∃ (v : Nat), (v % 4 = 3) :=
  ⟨7, by decide +kernel⟩

theorem witness_PaceRequestsAreCheckedAndCharged_2 : ∃ (s : State) (v : Nat), (v ≤ 2) ∧ ((v = 1 ∧ s.on CNS.CNS_STAT_PACE_LIMITED = true) ∨ (paceFactor v < s.factor ∧ ((s.capacity s.sparesHeld).1 < (s.chargesAt (paceFactor v)).1 ∨ (s.capacity s.sparesHeld).2 < (s.chargesAt (paceFactor v)).2))) :=
  ⟨st [(CNS.CNS_STAT_PACE_LIMITED, 1)], 1, by decide +kernel, by decide +kernel⟩

theorem witness_PaceRequestsAreCheckedAndCharged_3 : ∃ (s : State) (v : Nat), (v ≤ 2) ∧ (v ≠ 1 ∨ s.on CNS.CNS_STAT_PACE_LIMITED = false) ∧ (s.factor ≤ paceFactor v) :=
  ⟨st [(TOP.PACE_CTL_PACE, 2), (TOP.RATE_FACTOR_FACTOR, paceFactor 2)], 1, by decide +kernel, by decide +kernel, by decide +kernel⟩

theorem witness_PaceRequestsAreCheckedAndCharged_4 : ∃ (s : State) (v : Nat), (v ≤ 2) ∧ (v ≠ 1 ∨ s.on CNS.CNS_STAT_PACE_LIMITED = false) ∧ (paceFactor v < s.factor) ∧ ((s.chargesAt (paceFactor v)).1 ≤ (s.capacity s.sparesHeld).1) ∧ ((s.chargesAt (paceFactor v)).2 ≤ (s.capacity s.sparesHeld).2) ∧ (Tab.risesFrom 0 s.streams = true) :=
  ⟨(st [(TOP.PACE_CTL_PACE, 1), (TOP.RATE_FACTOR_FACTOR, paceFactor 1)]).setStream 3 { Stream.init with state := .opened, kind := 1, secs := { Stream.init.secs with geo := some { Geometry.zero with width := 64, height := 64, rateNum := 30 } } }, 2, by decide +kernel, by decide +kernel, by decide +kernel, by decide +kernel, by decide +kernel, by decide +kernel⟩

theorem witness_RoundsPlanAndVoltageMoves_1 : ∃ (s : State) (r : RoundIn), (s.consRuns = true) ∧ (s.power.held = false) ∧ (s.consState = csPlanned) ∧ (s.cons.seen = []) ∧ (s.cons.first = false) ∧ (r.temps = [] ∧ r.slacks = [] ∧ r.trims = [] ∧ r.eyes = []) ∧ (∀ pace, pace < 3 → ∀ b, b < 30 → targetOf [r.needs] pace b ≤ paceLimit pace) :=
  ⟨{ st [(CNS.CNS_STAT_STATE, 1)] with cons := { Conservator.init with started := true, plan := [(planKey 0 3, 800), (planKey 0 4, 810)] } }, { temps := [], slacks := [], needs := [(planKey 0 5, 803001), (planKey 1 29, 700000)], trims := [], eyes := [], aged := [] }, by decide +kernel, by decide +kernel, by decide +kernel, by decide +kernel, by decide +kernel, by decide +kernel, by decide +kernel⟩

theorem witness_RoundsPlanAndVoltageMoves_2 : ∃ (s : State) (d : Nat) (slack : Nat) (needs : List (Nat × Nat)), (s.consRuns = true) ∧ (slack < 50) ∧ (s.measurable d = true) ∧ (s.cons.rail < 900) ∧ (s.power.held = false) ∧ (s.consState = csPlanned) ∧ (s.cons.seen = []) ∧ (s.cons.first = false) ∧ (∀ pace, pace < 3 → ∀ b, b < 30 → targetOf [needs] pace b ≤ paceLimit pace) :=
  ⟨{ st [(CNS.CNS_STAT_STATE, 1)] with cons := { Conservator.init with started := true, plan := [(planKey 0 3, 800), (planKey 0 4, 810)] } }, 112, 49, [(planKey 0 5, 803001), (planKey 2 0, 700000)], by decide +kernel, by decide +kernel, by decide +kernel, by decide +kernel, by decide +kernel, by decide +kernel, by decide +kernel, by decide +kernel, by decide +kernel⟩

theorem witness_RoundsPlanAndVoltageMoves_3 : ∃ (s : State) (d : Nat) (slack : Nat), (s.consRuns = true) ∧ (slack < 50) ∧ (s.measurable d = true) ∧ (s.cons.rail < 900) ∧ (s.consState = csBaseline) :=
  ⟨{ running with cons := { Conservator.init with started := true } }, 112, 0, by decide +kernel, by decide +kernel, by decide +kernel, by decide +kernel, by decide +kernel⟩

theorem witness_RoundsPlanAndVoltageMoves_4 : ∃ (s : State) (c : Instr) (r : RoundIn) (d : Nat) (slack : Nat) (needs : List (Nat × Nat)), (c = .conservatorRound r ∧ s.consRuns = false ∨ c = .slackAlarm d slack needs ∧ (s.consRuns = false ∨ 50 ≤ slack ∨ s.measurable d = false)) :=
  ⟨{ running with cons := { Conservator.init with started := true } }, .slackAlarm 112 50 [], { temps := [], slacks := [], needs := [], trims := [], eyes := [], aged := [] }, 112, 50, [], by decide +kernel⟩

theorem witness_RoundsPlanAndVoltageMoves_5 : ∃ (s : State), (s.cons.started = true) ∧ (s.power.held = false) ∧ (s.consState ≠ csHeld) ∧ (s.planned (s.get TOP.PACE_CTL_PACE) < 1024) ∧ (s.cons.rail < s.planned (s.get TOP.PACE_CTL_PACE)) ∧ (s.on TOP.PACE_STAT_RAMPING = false) :=
  ⟨{ st [(CNS.CNS_STAT_STATE, 1)] with cons := { Conservator.init with started := true, plan := [(planKey 0 0, 801)] } }, by decide +kernel, by decide +kernel, by decide +kernel, by decide +kernel, by decide +kernel, by decide +kernel⟩

theorem witness_RoundsPlanAndVoltageMoves_6 : ∃ (s : State), (s.cons.started = true) ∧ (s.power.held = false) ∧ (s.consState ≠ csHeld) ∧ (s.cons.rail < 1024) ∧ (0 < s.planned (s.get TOP.PACE_CTL_PACE)) ∧ (s.planned (s.get TOP.PACE_CTL_PACE) < s.cons.rail) ∧ (s.on TOP.PACE_STAT_RAMPING = false) :=
  ⟨{ st [(CNS.CNS_STAT_STATE, 1)] with cons := { Conservator.init with started := true, plan := [(planKey 0 0, 799)] } }, by decide +kernel, by decide +kernel, by decide +kernel, by decide +kernel, by decide +kernel, by decide +kernel, by decide +kernel⟩

theorem witness_RoundsPlanAndVoltageMoves_7 : ∃ (s : State) (d : Nat), (s.cons.dwell = some d) ∧ (1000000 ≤ s.usSince d) :=
  ⟨{ running with cons := { Conservator.init with dwell := some 0 }, ticks := 250000000 }, 0, by decide +kernel, by decide +kernel⟩

theorem witness_RoundsPlanAndVoltageMoves_8 : ∃ (s : State) (d : Nat), (s.keeper.aliveTick = some d) ∧ (s.consRuns = true) ∧ (s.consState = csBaseline) ∧ (60000000 ≤ s.usSince d) ∧ (s.power.held = false) ∧ (s.needsNow = []) :=
  ⟨{ running with cons := { Conservator.init with started := true }, keeper := { Keeper.init with aliveTick := some 0 }, ticks := 250 * 60000000 }, 0, by decide +kernel, by decide +kernel, by decide +kernel, by decide +kernel, by decide +kernel, by decide +kernel⟩

theorem witness_RoundsPlanAndVoltageMoves_9 : ∃ (s : State) (mv : Nat), (s.cons.started = true) ∧ (s.power.held = false) ∧ (s.consState ≠ csHeld) ∧ (mv ≤ s.cons.rail + 10) ∧ (s.cons.rail ≤ mv + 10) :=
  ⟨{ running with cons := { Conservator.init with started := true, fails := 2 } }, 790, by decide +kernel, by decide +kernel, by decide +kernel, by decide +kernel, by decide +kernel⟩

theorem witness_RoundsPlanAndVoltageMoves_10 : ∃ (s : State) (ok : Bool) (mv : Nat), (s.cons.started = true) ∧ (s.power.held = false) ∧ (s.consState ≠ csHeld) ∧ ((ok = true ∧ (s.cons.rail + 10 < mv ∨ mv + 10 < s.cons.rail)) ∨ (ok = false ∧ s.cons.fails = 2)) ∧ (s.cons.margins.contains (2, 112) = false) ∧ (s.rgs.raises 0x1F2 3 = false) :=
  ⟨{ running with cons := { Conservator.init with started := true, fails := 2 } }, false, 0, by decide +kernel, by decide +kernel, by decide +kernel, by decide +kernel, by decide +kernel, by decide +kernel⟩

theorem witness_RoundsPlanAndVoltageMoves_11 : ∃ (s : State) (mv : Nat), (s.cons.started = true) ∧ (s.power.held = false) ∧ (s.consState = csHeld) ∧ (mv ≤ s.cons.rail + 10) ∧ (s.cons.rail ≤ mv + 10) :=
  ⟨{ st [(CNS.CNS_STAT_STATE, 2), (CNS.CNS_STAT_AVS_ERR, 1)] with cons := { Conservator.init with started := true } }, 800, by decide +kernel, by decide +kernel, by decide +kernel, by decide +kernel, by decide +kernel⟩

theorem witness_ChannelsAreTrainedMaintainedAndIssueCommands_1 : ∃ (s : State), (s.trainable = true) :=
  ⟨st [(FUS.FUS_STAT_LOADED, 1), (DRC.CH_STAT_TRAINED 7, 1)], by decide +kernel⟩

theorem witness_ChannelsAreTrainedMaintainedAndIssueCommands_2 : ∃ (s : State), (s.trainable = false) :=
  ⟨running, by decide +kernel⟩

theorem witness_ChannelsAreTrainedMaintainedAndIssueCommands_3 : ∃ (s : State) (tries : List (TrainTry × TrainTry)) (n : Nat), (s.on DRC.DRC_STAT_TRAINING = true) ∧ (tries.length = s.chanCount) ∧ (∀ p ∈ tries, trainPasses s.dramProfile.2 (some n) p.1 = true) :=
  ⟨st [(DRC.DRC_STAT_TRAINING, 1), (KPR.BOOT_STAT_STAGE, 1)], List.replicate 8 ({ mr8 := [(1, 16)], stepsOk := true, rd0 := 0x1FFFF0, rd1 := 0xFFFF, wr0 := 0x3FFFF, wr1 := 0xFFFF }, { mr8 := [], stepsOk := false, rd0 := 0, rd1 := 0, wr0 := 0, wr1 := 0 }), 1, by decide +kernel, by decide +kernel, by decide +kernel⟩

theorem witness_ChannelsAreTrainedMaintainedAndIssueCommands_4 : ∃ (s : State) (tries : List (TrainTry × TrainTry)) (c : Nat) (n : Nat), (s.on DRC.DRC_STAT_TRAINING = true) ∧ (tries.length = s.chanCount) ∧ (c < s.chanCount) ∧ (tries[c]?.all (fun p => !trainPasses s.dramProfile.2 none p.1 && !trainPasses s.dramProfile.2 none p.2) = true) ∧ (∀ d, d < s.chanCount → d ≠ c → tries[d]?.all (fun p => trainPasses s.dramProfile.2 (some n) p.1) = true) ∧ (s.rgs.raises (0x110 + c) 3 = false) :=
  ⟨st [(DRC.DRC_STAT_TRAINING, 1)], List.replicate 7 ({ mr8 := [(1, 16)], stepsOk := true, rd0 := 0x1FFFF0, rd1 := 0xFFFF, wr0 := 0x3FFFF, wr1 := 0xFFFF }, { mr8 := [], stepsOk := false, rd0 := 0, rd1 := 0, wr0 := 0, wr1 := 0 }) ++ [({ mr8 := [(1, 16)], stepsOk := true, rd0 := 0, rd1 := 0, wr0 := 0, wr1 := 0 }, { mr8 := [], stepsOk := false, rd0 := 0, rd1 := 0, wr0 := 0, wr1 := 0 })], 7, 1, by decide +kernel, by decide +kernel, by decide +kernel, by decide +kernel, by decide +kernel, by decide +kernel⟩

theorem witness_ChannelsAreTrainedMaintainedAndIssueCommands_5 : ∃ (s : State), (s.on DRC.DRC_STAT_TRAINING = false) :=
  ⟨running, by decide +kernel⟩

theorem witness_ChannelsAreTrainedMaintainedAndIssueCommands_6 : ∃ (s : State) (c : Nat) (code : Nat), (c < s.chanCount) ∧ (code < 2 ^ (DRC.CH_STAT_REFRESH_RATE c).w) :=
  ⟨st [(DRC.CH_STAT_HOT 7, 1)], 7, 5, by decide +kernel, by decide +kernel⟩

theorem witness_ChannelsAreTrainedMaintainedAndIssueCommands_7 : ∃ (s : State) (c : Nat) (code : Nat), (c < s.chanCount) ∧ (code < 2 ^ (DRC.CH_STAT_REFRESH_RATE c).w) ∧ (s.rgs.raises (0x110 + c) 3 = false) :=
  ⟨running, 7, 5, by decide +kernel, by decide +kernel, by decide +kernel⟩

theorem witness_ChannelsAreTrainedMaintainedAndIssueCommands_8 : ∃ (s : State) (c : Nat), (c < s.chanCount) :=
  ⟨running, 7, by decide +kernel⟩

theorem witness_ChannelsAreTrainedMaintainedAndIssueCommands_9 : ∃ (s : State) (c : Nat), (c < s.chanCount) :=
  ⟨running, 7, by decide +kernel⟩

theorem witness_ChannelsAreTrainedMaintainedAndIssueCommands_10 : ∃ (s : State) (c : Nat), (c < s.chanCount) :=
  ⟨running, 7, by decide +kernel⟩

theorem witness_ChannelsAreTrainedMaintainedAndIssueCommands_11 : ∃ (s : State) (c : Nat), (c < s.chanCount) ∧ (s.power.refclk = true) ∧ ((s.chan c).refresh ≠ 0) :=
  ⟨running.setChan 7 { Chan.init with refresh := 2, readQ := [{ block := 5, data := [], engine := none, tick := 0, isRead := true }] }, 7, by decide +kernel, by decide +kernel, by decide +kernel⟩

theorem witness_ChannelsAreTrainedMaintainedAndIssueCommands_12 : ∃ (s : State) (c : Nat) (r : DramReq), (c < s.chanCount) ∧ (s.power.refclk = true) ∧ ((s.chan c).refresh = 0) ∧ ((s.chan c).neighbours = []) ∧ ((s.chan c).rfm = []) ∧ ((s.chan c).readQ = [r]) ∧ ((s.chan c).writeQ = []) ∧ (r.isRead = true) :=
  ⟨running.setChan 7 { Chan.init with readQ := [{ block := 5, data := [], engine := none, tick := 0, isRead := true }] }, 7, { block := 5, data := [], engine := none, tick := 0, isRead := true }, by decide +kernel, by decide +kernel, by decide +kernel, by decide +kernel, by decide +kernel, by decide +kernel, by decide +kernel, by decide +kernel⟩

theorem witness_ChannelsAreTrainedMaintainedAndIssueCommands_13 : ∃ (s : State) (c : Nat) (r : DramReq), (c < s.chanCount) ∧ (s.power.refclk = true) ∧ ((s.chan c).refresh = 0) ∧ ((s.chan c).neighbours = []) ∧ ((s.chan c).rfm = []) ∧ ((s.chan c).readQ = []) ∧ ((s.chan c).writeQ = [r]) ∧ (r.isRead = false) ∧ (r.data.length = 32) ∧ (s.chanAt (32 * r.block) = c) ∧ (r.engine = none) :=
  ⟨{ running.setChan 1 { Chan.init with writeQ := [{ block := 8, data := List.replicate 32 7#8, engine := none, tick := 0, isRead := false }] } with damage := [(8, 5)] }, 1, { block := 8, data := List.replicate 32 7#8, engine := none, tick := 0, isRead := false }, by decide +kernel, by decide +kernel, by decide +kernel, by decide +kernel, by decide +kernel, by decide +kernel, by decide +kernel, by decide +kernel, by decide +kernel, by decide +kernel, by decide +kernel⟩

theorem witness_ChannelsAreTrainedMaintainedAndIssueCommands_14 : ∃ (s : State) (c : Nat) (code : Nat) (hot : Bool) (i : Instr), (i = .mr4Poll c code hot ∨ i = .zqCalibration c ∨ i = .refreshDue c ∨ i = .trefwBoundary c ∨ i = .dramCommandIssue c) ∧ (s.chanCount ≤ c ∨ s.power.refclk = false ∧ i = .dramCommandIssue c) :=
  ⟨{ running with big := false, regs := [] }, 4, 3, true, .mr4Poll 4 3 true, by decide +kernel, by decide +kernel⟩

theorem witness_ChannelsAreTrainedMaintainedAndIssueCommands_15 : ∃ (s : State) (c : Nat) (lane : Nat) (p : Nat) (write : Bool), (c < 8) ∧ (Tab.get (fun _ => none) s.cons.centres (4 * c + 2 * (lane % 2) + (if write then 1 else 0)) = some p) ∧ (p < 128) ∧ (s.get ⟨if write then DRC.CH_WR_CENTRE c else DRC.CH_RD_CENTRE c, 8 * (lane % 2), 8⟩ < 128) :=
  ⟨{ st [(⟨DRC.CH_WR_CENTRE 7, 8, 8⟩, 20)] with cons := { Conservator.init with centres := [(31, some 18)] } }, 7, 1, 18, true, by decide +kernel, by decide +kernel, by decide +kernel, by decide +kernel⟩

theorem witness_MemoryReadsWhatWasWrittenLast_1 : ∃ (s : State), (s.on DRC.DRC_STAT_READY = false) :=
  ⟨running, by decide +kernel⟩

theorem witness_MemoryReadsWhatWasWrittenLast_2 : ∃ (s : State) (block : Nat), (s.on DRC.DRC_STAT_READY = true) ∧ (s.queuedWrite block = none) ∧ ((s.chan (s.chanAt (32 * block))).readQ.length < 64) :=
  ⟨st [(DRC.DRC_STAT_READY, 1)], 3, by decide +kernel, by decide +kernel, by decide +kernel⟩

theorem witness_MemoryReadsWhatWasWrittenLast_3 : ∃ (s : State) (block : Nat) (q : DramReq), (s.on DRC.DRC_STAT_READY = true) ∧ (s.queuedWrite block = some q) :=
  ⟨(st [(DRC.DRC_STAT_READY, 1)]).setChan 1 { Chan.init with writeQ := [{ block := 8, data := List.replicate 32 7#8, engine := none, tick := 0, isRead := false }] }, 8, { block := 8, data := List.replicate 32 7#8, engine := none, tick := 0, isRead := false }, by decide +kernel, by decide +kernel⟩

theorem witness_MemoryReadsWhatWasWrittenLast_4 : ∃ (s : State) (block : Nat) (data : List Byte), (s.on DRC.DRC_STAT_READY = true) ∧ (data.length = 32) ∧ (s.queuedWrite block = none) ∧ ((s.chan (s.chanAt (32 * block))).writeQ.length < 64) :=
  ⟨st [(DRC.DRC_STAT_READY, 1)], 8, List.replicate 32 7#8, by decide +kernel, by decide +kernel, by decide +kernel, by decide +kernel⟩

theorem witness_MemoryReadsWhatWasWrittenLast_5 : ∃ (s : State), (s.on DRC.DRC_STAT_READY = false) :=
  ⟨running, by decide +kernel⟩

theorem witness_MemoryReadsWhatWasWrittenLast_6 : ∃ (s : State) (addr : Nat) (data : List Byte), (s.on DRC.DRC_STAT_READY = true) ∧ (data ≠ []) ∧ (data.length + addr % 32 ≤ 32) ∧ (s.queuedWrite (addr / 32) = none) ∧ ((s.chan (s.chanAt addr)).writeQ.length < 64) ∧ (s.damageOf (addr / 32) = 0) :=
  ⟨st [(DRC.DRC_STAT_READY, 1)], 265, [8#8, 9#8], by decide +kernel, by decide +kernel, by decide +kernel, by decide +kernel, by decide +kernel, by decide +kernel⟩

theorem witness_MemoryReadsWhatWasWrittenLast_7 : ∃ (s : State) (addr : Nat) (data : List Byte), (s.on DRC.DRC_STAT_READY = true) ∧ (data ≠ []) ∧ (data.length + addr % 32 < 32) ∧ (s.queuedWrite (addr / 32) = none) ∧ ((s.chan (s.chanAt addr)).writeQ.length < 64) ∧ (judge (s.damageOf (addr / 32)) = .bad) ∧ (s.rgs.raises (0x110 + s.chanAt (32 * (addr / 32))) 3 = false) :=
  ⟨{ st [(DRC.DRC_STAT_READY, 1)] with damage := [(8, 3)] }, 265, [8#8, 9#8], by decide +kernel, by decide +kernel, by decide +kernel, by decide +kernel, by decide +kernel, by decide +kernel, by decide +kernel⟩

theorem witness_MemoryReadsWhatWasWrittenLast_8 : ∃ (s : State) (addr : Nat), (s.on DRC.DRC_STAT_READY = true) ∧ (s.queuedWrite (addr / 32) = none) ∧ (64 ≤ (s.chan (s.chanAt addr)).writeQ.length) :=
  ⟨(st [(DRC.DRC_STAT_READY, 1)]).setChan 1 { Chan.init with writeQ := List.replicate 64 { block := 9, data := [], engine := none, tick := 0, isRead := false } }, 265, by decide +kernel, by decide +kernel, by decide +kernel⟩

theorem witness_ReadsAreMendedLoggedAndPoisoned_1 : ∃ (s : State) (unit : Nat) (addr : Nat), (0x110 ≤ unit) ∧ (unit ≤ 0x117) ∧ (s.unitEnabled unit = true) ∧ (s.damageOf (addr / 32) = 0) :=
  ⟨running, 0x117, 99, by decide +kernel, by decide +kernel, by decide +kernel, by decide +kernel⟩

theorem witness_ReadsAreMendedLoggedAndPoisoned_2 : ∃ (s : State) (unit : Nat) (addr : Nat) (bit : Nat) (e : Nat), (0x110 ≤ unit) ∧ (unit ≤ 0x117) ∧ (s.unitEnabled unit = true) ∧ (addr < 2 ^ 48) ∧ (bit < 256) ∧ (s.damageOf (addr / 32) = 0) ∧ (e < 16) ∧ (∀ k, k < 16 → s.logMatches k unit (32 * (addr / 32)) bit false = false) ∧ (s.logValid e = false) ∧ (∀ k, k < e → s.logValid k = true) :=
  ⟨st [(MPR.LOG_ADDR_HI_VALID 0, 1)], 0x117, 0x123456789AB, 255, 1, by decide +kernel, by decide +kernel, by decide +kernel, by decide +kernel, by decide +kernel, by decide +kernel, by decide +kernel, by decide +kernel, by decide +kernel, by decide +kernel⟩

theorem witness_ReadsAreMendedLoggedAndPoisoned_3 : ∃ (s : State) (unit : Nat) (addr : Nat) (mask : Nat), (0x110 ≤ unit) ∧ (unit ≤ 0x117) ∧ (s.unitEnabled unit = true) ∧ (s.damageOf (addr / 32) = 0) ∧ (judge mask = .bad) ∧ (s.rgs.raises unit 3 = false) :=
  ⟨running, 0x117, 99, 3, by decide +kernel, by decide +kernel, by decide +kernel, by decide +kernel, by decide +kernel, by decide +kernel⟩

theorem witness_ReadsAreMendedLoggedAndPoisoned_4 : ∃ (s : State) (unit : Nat), (s.unitEnabled unit = false) :=
  ⟨{ running with big := false, regs := [] }, 0x114, by decide +kernel⟩

theorem witness_ReadsAreMendedLoggedAndPoisoned_5 : ∃ (s : State) (e : Nat) (n : Nat), (e < 16) ∧ (s.logValid e = true) ∧ (s.get ⟨MPR.MPR_STAT, 0, 5⟩ = n + 1) :=
  ⟨st [(MPR.LOG_ADDR_HI_VALID 15, 1), (⟨MPR.MPR_STAT, 0, 5⟩, 1), (MPR.MPR_STAT_OVERFLOW, 1)], 15, 0, by decide +kernel, by decide +kernel, by decide +kernel⟩

theorem witness_ReadsAreMendedLoggedAndPoisoned_6 : ∃ (s : State) (e : Nat), (s.logValid e = false) :=
  ⟨running, 3, by decide +kernel⟩

theorem witness_TheScrubberMendsWhatItReads_1 : ∃ (s : State) (base : Nat) (pages : Nat) (b : Nat) (bit : Nat), (s.scrubRanges[s.scrub.range]? = some (base, pages)) ∧ (s.scrubDue = true) ∧ (8 * (16 * base + s.scrub.pos) ≤ b) ∧ (b < 8 * (16 * base + s.scrub.pos) + 8) ∧ (bit < 256) ∧ (s.damageOf b = 2 ^ bit) ∧ (∀ d, d < 8 → 8 * (16 * base + s.scrub.pos) + d ≠ b → s.damageOf (8 * (16 * base + s.scrub.pos) + d) = 0) ∧ (∀ d, d < 8 → s.queuedWrite (8 * (16 * base + s.scrub.pos) + d) = none) :=
  ⟨{ st [(MPR.SCRUB_CTL_DRAM, 1), (DRC.DRC_CFG_USABLE_MIB, 8192), (MPR.SCRUB_RANGE_BASE_PAGES 0, 3), (MPR.SCRUB_RANGE_PAGES_PAGES 0, 2)] with damage := [(390, 16)] }, 3, 2, 390, 4, by decide +kernel, by decide +kernel, by decide +kernel, by decide +kernel, by decide +kernel, by decide +kernel, by decide +kernel, by decide +kernel⟩

theorem witness_TheScrubberMendsWhatItReads_2 : ∃ (s : State), ((s.scrubRanges[s.scrub.range]?).isSome = true) ∧ (s.scrubDue = false) :=
  ⟨{ st [(MPR.SCRUB_CTL_DRAM, 1), (DRC.DRC_CFG_USABLE_MIB, 8192), (MPR.SCRUB_RANGE_BASE_PAGES 0, 3), (MPR.SCRUB_RANGE_PAGES_PAGES 0, 2), (MPR.SCRUB_CTL_MAX_MBPS, 1000)] with scrub := { Scrubber.init with last := some 0 }, ticks := 63 }, by decide +kernel, by decide +kernel⟩

theorem witness_TheScrubberMendsWhatItReads_3 : ∃ (s : State), (s.scrubRanges = []) ∧ (s.stackBlocks ≤ s.scrub.stackPos) :=
  ⟨running, by decide +kernel, by decide +kernel⟩

theorem witness_TheScrubberMendsWhatItReads_4 : ∃ (r : Nat) (v : Nat), (r < 8) ∧ (v < 2 ^ (MPR.SCRUB_RANGE_BASE_PAGES r).w) :=
  ⟨7, 77, by decide +kernel, by decide +kernel⟩

theorem witness_TheScrubberMendsWhatItReads_5 : ∃ (r : Nat) (v : Nat), (r < 8) ∧ (v < 2 ^ (MPR.SCRUB_RANGE_PAGES_PAGES r).w) :=
  ⟨7, 77, by decide +kernel, by decide +kernel⟩

theorem witness_TranslationsWalkTheTables_1 : ∃ (s : State) (ch : Nat) (va : Nat) (r : Nat) (e3 : Nat) (e2 : Nat) (e1 : Nat) (e0 : Nat) (write : Bool), (r = s.get (MMU.CTX_LO_ROOT (s.get (DMA.CFG_ASID ch))) * 4096 + s.get (MMU.CTX_HI_ROOT (s.get (DMA.CFG_ASID ch))) * 2 ^ 32) ∧ (s.mmu.tlb = []) ∧ (s.on (MMU.CTX_LO_VALID (s.get (DMA.CFG_ASID ch))) = true) ∧ (s.aperture r = some 0 ∧ s.pte (r + 8 * bits va 39 9) = (e3, false)) ∧ (s.aperture (pteAddr e3) = some 0 ∧ s.pte (pteAddr e3 + 8 * bits va 30 9) = (e2, false)) ∧ (s.aperture (pteAddr e2) = some 0 ∧ s.pte (pteAddr e2 + 8 * bits va 21 9) = (e1, false)) ∧ (s.aperture (pteAddr e1) = some 0 ∧ s.pte (pteAddr e1 + 8 * bits va 12 9) = (e0, false)) ∧ (∀ e ∈ [e3, e2, e1], bitAt e 0 = true ∧ bitAt e 1 = true ∧ bitAt e 4 = false ∧ pteReservedOk e = true) ∧ (bitAt e0 0 = true ∧ bitAt e0 1 = false ∧ bitAt e0 4 = false ∧ pteReservedOk e0 = true) ∧ ((if write then bitAt e0 3 else bitAt e0 2) = true) ∧ (s.refusedBy 4 (pteAddr e0 + va % 4096) write = none) :=
  ⟨{ st [(DMA.CFG_ASID 31, 5), (.whole (MMU.CTX_LO 5), 0x10001), (DRC.DRC_CFG_USABLE_MIB, 8192)] with dram := [(0x10FF8, 3#8), (0x10FF9, 0#8), (0x10FFA, 2#8), (0x20000, 3#8), (0x20002, 3#8), (0x30FF8, 3#8), (0x30FFA, 4#8), (0x40008, 0xD#8), (0x40009, 0x70#8), (0x4000A, 5#8)] }, 31, 0xFF803FE01ABC, 0x10000, 0x20003, 0x30003, 0x40003, 0x5700D, true, by decide +kernel, by decide +kernel, by decide +kernel, by decide +kernel, by decide +kernel, by decide +kernel, by decide +kernel, by decide +kernel, by decide +kernel, by decide +kernel, by decide +kernel⟩

theorem witness_TranslationsWalkTheTables_2 : ∃ (s : State) (c : Nat) (pa : Nat) (write : Bool), (s.refusedBy c pa write = none) :=
  ⟨st [(DRC.DRC_CFG_USABLE_MIB, 8192)], 0, 0x1000, false, by decide +kernel⟩

theorem witness_TranslationsWalkTheTables_3 : ∃ (s : State) (c : Nat) (pa : Nat) (write : Bool), (s.refusedBy c pa write = some fltDenied) ∧ (s.rgs.raises 0x180 3 = false) :=
  ⟨st [(DRC.DRC_CFG_USABLE_MIB, 8192), (.whole (MMU.PMAP 6), 0)], 6, 0x1000, true, by decide +kernel, by decide +kernel⟩

theorem witness_TranslationsWalkTheTables_4 : ∃ (s : State) (i : Nat) (va : Nat) (pa : Nat) (write : Bool), (s.on (MMU.GRANT_FENCED i) = false) ∧ (s.on (MMU.GRANT_VALID i) = true) ∧ (s.mapped 3 (some i) (s.get (MMU.GRANT_ASID i)) va write pa = true) :=
  ⟨{ st [(DRC.DRC_CFG_USABLE_MIB, 8192), (MMU.GRANT_VALID 85, 1), (MMU.GRANT_ASID 85, 9)] with mmu := { Mmu.init with tlb := [(9, 7, 12, 0x5700D)] } }, 85, 0x7123, 0x57123, true, by decide +kernel, by decide +kernel, by decide +kernel⟩

theorem witness_TranslationsWalkTheTables_5 : ∃ (s : State) (i : Nat) (va : Nat) (k : Nat) (l : Nat), (s.on (MMU.GRANT_FENCED i) = false) ∧ (s.on (MMU.GRANT_VALID i) = true) ∧ ((match s.leafFor (some i) (s.get (MMU.GRANT_ASID i)) va with | .error e => e == (k, l) | .ok _ => false) = true) ∧ (k ≤ 7) ∧ ((s.engine i).work = none) ∧ (s.mmu.outside = []) ∧ (s.mmu.queue.length < 64) :=
  ⟨{ st [(MMU.GRANT_VALID 85, 1), (MMU.GRANT_ASID 85, 9)] with mmu := { Mmu.init with nextId := 255 } }, 85, 0x7123, 6, 3, by decide +kernel, by decide +kernel, by decide +kernel, by decide +kernel, by decide +kernel, by decide +kernel, by decide +kernel⟩

theorem witness_FaultRecordsAreResolvedAbortedOrTimedOut_1 : ∃ (s : State) (id : Nat) (c : Instr), (c = .resumeFault id ∨ c = .abortFault id) ∧ (s.mmu.queue.head?.all (fun r => r.id != id) = true) :=
  ⟨running, 3, .abortFault 3, by decide +kernel, by decide +kernel⟩

theorem witness_FaultRecordsAreResolvedAbortedOrTimedOut_2 : ∃ (s : State) (r : FltRec) (q : List FltRec) (ch : Nat) (pa : Nat), (s.mmu.queue = r :: q) ∧ (s.mmu.outside = []) ∧ (r.who = .dma ch) ∧ (ch < 32) ∧ (s.get (dmaState ch) = dmaFaulted) ∧ (s.mapped 4 none r.asid r.va r.write pa = true) :=
  ⟨{ st [(DRC.DRC_CFG_USABLE_MIB, 8192), (dmaState 31, 3)] with mmu := { Mmu.init with tlb := [(9, 7, 12, 0x5700D)], queue := [⟨3, .dma 31, 9, 0x7123, true, 1, 0, 0⟩] } }, ⟨3, .dma 31, 9, 0x7123, true, 1, 0, 0⟩, [], 31, 0x57123, by decide +kernel, by decide +kernel, by decide +kernel, by decide +kernel, by decide +kernel, by decide +kernel⟩

theorem witness_FaultRecordsAreResolvedAbortedOrTimedOut_3 : ∃ (s : State) (r : FltRec) (q : List FltRec) (ch : Nat), (s.mmu.queue = r :: q) ∧ (r.who = .dma ch) ∧ (ch < 32) :=
  ⟨{ st [(dmaState 31, 3)] with mmu := { Mmu.init with queue := [⟨3, .dma 31, 9, 0x7123, true, 1, 0, 0⟩] } }, ⟨3, .dma 31, 9, 0x7123, true, 1, 0, 0⟩, [], 31, by decide +kernel, by decide +kernel, by decide +kernel⟩

theorem witness_FaultRecordsAreResolvedAbortedOrTimedOut_4 : ∃ (s : State) (r : FltRec) (q : List FltRec) (i : Nat), (s.mmu.queue = r :: q) ∧ (s.mmu.outside = []) ∧ (s.get MMU.FLT_CFG_TIMEOUT_US ≤ s.usSince r.tick) ∧ (r.who = .engine i) ∧ ((s.engine i).work = none) ∧ (s.rgs.raises 0x180 3 = false) :=
  ⟨{ running with mmu := { Mmu.init with queue := [⟨3, .engine 31, 9, 0x7123, true, 1, 0, 0⟩] }, ticks := 250 * 70000 }, ⟨3, .engine 31, 9, 0x7123, true, 1, 0, 0⟩, [], 31, by decide +kernel, by decide +kernel, by decide +kernel, by decide +kernel, by decide +kernel, by decide +kernel⟩

theorem witness_FaultRecordsAreResolvedAbortedOrTimedOut_5 : ∃ (s : State) (i : Nat), (i < 86) ∧ (s.on (MMU.GRANT_FENCED i) = false) ∧ ((s.engine i).work = none) ∧ (s.get (engSpare i) = 0) ∧ (s.sparesOf i ≠ []) :=
  ⟨st [(engState 85, 1), (engState 84, 1), (engSpare 84, 1)], 85, by decide +kernel, by decide +kernel, by decide +kernel, by decide +kernel, by decide +kernel⟩

theorem witness_FaultRecordsAreResolvedAbortedOrTimedOut_6 : ∃ (s : State) (i : Nat), (s.on (MMU.GRANT_FENCED i) = true) :=
  ⟨st [(MMU.GRANT_FENCED 85, 1)], 85, by decide +kernel⟩

theorem witness_InvalidationsDropCachedEntries_1 : ∃ (s : State), (s.on MMU.MMU_STAT_INV_BUSY = false) :=
  ⟨{ (st [(MMU.INV_VA_LO_VA, 7)]).setEngine 4 { Engine.init with utlb := [(9, 7, 12, 13), (9, 8, 12, 13)] } with mmu := { Mmu.init with tlb := [(9, 7, 12, 13), (8, 7, 12, 13)] } }, by decide +kernel⟩

theorem witness_InvalidationsDropCachedEntries_2 : ∃ (s : State), (s.on MMU.MMU_STAT_INV_BUSY = false) :=
  ⟨{ (st [(MMU.INV_VA_LO_VA, 7)]).setEngine 4 { Engine.init with utlb := [(9, 7, 12, 13), (9, 8, 12, 13)] } with mmu := { Mmu.init with tlb := [(9, 7, 12, 13), (8, 7, 12, 13)] } }, by decide +kernel⟩

theorem witness_InvalidationsDropCachedEntries_3 : ∃ (s : State), (s.on MMU.MMU_STAT_INV_BUSY = false) :=
  ⟨{ (st [(MMU.INV_VA_LO_VA, 7)]).setEngine 4 { Engine.init with utlb := [(9, 7, 12, 13), (9, 8, 12, 13)] } with mmu := { Mmu.init with tlb := [(9, 7, 12, 13), (8, 7, 12, 13)] } }, by decide +kernel⟩

theorem witness_InvalidationsDropCachedEntries_4 : ∃ (s : State) (a : Nat) (c : Instr), (s.on MMU.MMU_STAT_INV_BUSY = true) ∧ (c = .invalidateAll ∨ c = .invalidateAsid a ∨ c = .invalidatePage a) :=
  ⟨st [(MMU.MMU_STAT_INV_BUSY, 1)], 3, .invalidateAsid 3, by decide +kernel, by decide +kernel⟩

theorem witness_InvalidationsDropCachedEntries_5 : ∃ (s : State) (a : Nat) (hi : Nat) (lo : Nat), (a < 256) ∧ (hi < 2 ^ 16) ∧ (lo = Tab.get (fun _ => (s.rd (MMU.CTX_LO a)).toNat) s.mmu.staged a) :=
  ⟨{ running with mmu := { Mmu.init with staged := [(255, 0x12345001)], tlb := [(255, 7, 12, 13), (8, 7, 12, 13)] } }, 255, 0xABCD, 0x12345001, by decide +kernel, by decide +kernel, by decide +kernel⟩

theorem witness_DmaChannelsRunTheirSlips_1 : ∃ (s : State) (ch : Nat) (pa : Nat) (w : List Nat), (ch < 32) ∧ (s.dmaActive ch = false) ∧ (s.faulty 0x170 = false) ∧ (s.mapped 4 none (s.get (DMA.CFG_ASID ch)) (s.pair (DMA.HEAD_LO ch) (DMA.HEAD_HI ch)) false pa = true) ∧ (s.sound pa 64 = true) ∧ (w = (List.range 16).map fun i => leAt (s.dramBytes pa 64) (4 * i) 4) ∧ (({ DmaCh.init with slip := w } : DmaCh).slipOk = true) ∧ (({ DmaCh.init with slip := w } : DmaCh).paced = false) :=
  ⟨{ st [(DRC.DRC_CFG_USABLE_MIB, 8192), (DMA.CFG_ASID 31, 9), (.whole (DMA.HEAD_LO 31), 0x7000)] with mmu := { Mmu.init with tlb := [(9, 7, 12, 0x5700D)] }, dram := [(0x57000, 1#8), (0x57001, 2#8), (0x57004, 64#8), (0x57009, 0x70#8), (0x57011, 0x80#8)] }, 31, 0x57000, [0x201, 64, 0x7000, 0, 0x8000, 0, 0, 0, 0, 0, 0, 0, 0, 0, 0, 0], by decide +kernel, by decide +kernel, by decide +kernel, by decide +kernel, by decide +kernel, by decide +kernel, by decide +kernel, by decide +kernel⟩

theorem witness_DmaChannelsRunTheirSlips_2 : ∃ (s : State) (ch : Nat), (s.dmaActive ch = true ∨ s.faulty 0x170 = true) :=
  ⟨st [(dmaState 4, 1)], 4, by decide +kernel⟩

theorem witness_DmaChannelsRunTheirSlips_3 : ∃ (s : State) (ch : Nat), (s.get (dmaState ch) = dmaRunning ∨ s.get (dmaState ch) = dmaWaiting ∨ s.get (dmaState ch) = dmaFaulted) ∧ (s.on (DMA.STAT_PAUSING ch) = false) :=
  ⟨st [(dmaState 31, 2)], 31, by decide +kernel, by decide +kernel⟩

theorem witness_DmaChannelsRunTheirSlips_4 : ∃ (s : State) (ch : Nat), (s.get (dmaState ch) = dmaRunning ∨ s.get (dmaState ch) = dmaWaiting) :=
  ⟨st [(dmaState 31, 2)], 31, by decide +kernel⟩

theorem witness_DmaChannelsRunTheirSlips_5 : ∃ (s : State) (ch : Nat), (ch < 32) ∧ (s.get (dmaState ch) = dmaFaulted) :=
  ⟨st [(dmaState 31, 3)], 31, by decide +kernel, by decide +kernel⟩

theorem witness_DmaChannelsRunTheirSlips_6 : ∃ (s : State) (ch : Nat), (ch < 32) ∧ (s.get (dmaState ch) = dmaPaused) ∧ (((s.mmu.queue ++ s.mmu.outside).any fun r => r.who == .dma ch) = false) :=
  ⟨st [(dmaState 31, 4)], 31, by decide +kernel, by decide +kernel, by decide +kernel⟩

theorem witness_DmaChannelsRunTheirSlips_7 : ∃ (s : State) (ch : Nat), (ch < 32) ∧ (s.on (DMA.STAT_PAUSING ch) = true) :=
  ⟨st [(dmaState 31, 1), (DMA.STAT_PAUSING 31, 1)], 31, by decide +kernel, by decide +kernel⟩

theorem witness_DmaChannelsRunTheirSlips_8 : ∃ (l : Nat), (42 ≤ l) ∧ (l ≤ 63) :=
  ⟨63, by decide +kernel, by decide +kernel⟩

theorem witness_DmaChannelsRunTheirSlips_9 : ∃ (l : Nat), (l < 42 ∨ 63 < l) :=
  ⟨64, by decide +kernel⟩

theorem witness_DmaChannelsRunTheirSlips_10 : ∃ (s : State) (ch : Nat) (pa : Nat) (n : Nat), (ch < 32) ∧ (s.get (dmaState ch) = dmaRunning) ∧ (s.on (DMA.STAT_PAUSING ch) = false) ∧ (s.get (DMA.REMAIN_COUNT ch) = n) ∧ (1 ≤ n) ∧ (n ≤ toPageEnd (s.dmaDst ch)) ∧ (n ≤ (s.dmaCh ch).word 1) ∧ ((s.dmaCh ch).mismatch = none) ∧ ((s.dmaCh ch).op = 1) ∧ ((s.dmaCh ch).paced = false) ∧ (s.mapped 4 none (s.get (DMA.CFG_ASID ch)) (s.dmaDst ch) true pa = true) ∧ (s.sound pa n = true) ∧ (s.dmaDst ch + n < 2 ^ 48) ∧ ((s.dmaCh ch).burst = 0) ∧ ((s.dmaCh ch).held = false ∨ s.hostFn.open = true) ∧ (s.dmaTurn ch = true) :=
  ⟨{ (st [(dmaState 31, 1), (DRC.DRC_CFG_USABLE_MIB, 8192), (DMA.CFG_ASID 31, 9), (.whole (DMA.SRC_LO 31), 0x04030201), (.whole (DMA.SRC_HI 31), 0x08070605), (.whole (DMA.DST_LO 31), 0x7FE0), (DMA.REMAIN_COUNT 31, 30)]).setDmaCh 31 { DmaCh.init with slip := [0x201, 33] } with mmu := { Mmu.init with tlb := [(9, 7, 12, 0x5700D)] } }, 31, 0x57FE0, 30, by decide +kernel, by decide +kernel, by decide +kernel, by decide +kernel, by decide +kernel, by decide +kernel, by decide +kernel, by decide +kernel, by decide +kernel, by decide +kernel, by decide +kernel, by decide +kernel, by decide +kernel, by decide +kernel, by decide +kernel, by decide +kernel⟩

theorem witness_DmaChannelsRunTheirSlips_11 : ∃ (s : State) (ch : Nat), (ch < 32) ∧ (s.get (dmaState ch) = dmaRunning ∨ s.get (dmaState ch) = dmaWaiting) ∧ (s.on (DMA.STAT_PAUSING ch) = false) ∧ (s.get (DMA.REMAIN_COUNT ch) ≠ 0) ∧ ((s.dmaCh ch).mismatch = none) ∧ ((s.dmaCh ch).op ≠ 3) ∧ ((s.dmaCh ch).paced = true) ∧ (s.requested (s.dmaCh ch).line = false) ∧ ((s.dmaCh ch).burst = 0) :=
  ⟨(st [(dmaState 31, 1), (DMA.REMAIN_COUNT 31, 64)]).setDmaCh 31 { DmaCh.init with slip := [0x3F0600, 64] }, 31, by decide +kernel, by decide +kernel, by decide +kernel, by decide +kernel, by decide +kernel, by decide +kernel, by decide +kernel, by decide +kernel, by decide +kernel⟩

theorem witness_DmaChannelsRunTheirSlips_12 : ∃ (s : State) (ch : Nat), ((s.dmaCh ch).slip ≠ []) ∧ ((s.dmaCh ch).paced = false) ∧ (s.dmaTurn ch = false) :=
  ⟨((st [(dmaState 31, 1), (DMA.REMAIN_COUNT 31, 64), (dmaState 4, 1), (DMA.REMAIN_COUNT 4, 64), (DMA.CFG_PRIORITY 4, 1)]).setDmaCh 31 { DmaCh.init with slip := [0x201, 64] }).setDmaCh 4 { DmaCh.init with slip := [0x201, 64] }, 31, by decide +kernel, by decide +kernel, by decide +kernel⟩

theorem witness_DmaChannelsRunTheirSlips_13 : ∃ (s : State) (ch : Nat) (pa : Nat) (c : Instr), (c = .dmaSlipComplete ch ∧ (s.dmaCh ch).op ≠ 3 ∧ s.get (DMA.REMAIN_COUNT ch) = 0 ∨ c = .barrierComplete ch ∧ (s.dmaCh ch).op = 3) ∧ (ch < 32) ∧ (s.get (dmaState ch) = dmaRunning) ∧ (s.on (DMA.STAT_PAUSING ch) = false) ∧ (c = .barrierComplete ch → s.barrierReads ch = true) ∧ ((s.dmaCh ch).mismatch = none) ∧ ((s.dmaCh ch).isLast = true) ∧ (s.mapped 4 none (s.get (DMA.CFG_ASID ch)) (s.dmaCur ch) true pa = true) ∧ (s.dmaCur ch % 64 = 0) ∧ (s.sound pa 64 = true) :=
  ⟨{ (st [(dmaState 31, 1), (DRC.DRC_CFG_USABLE_MIB, 8192), (DMA.CFG_ASID 31, 9), (.whole (DMA.CUR_LO 31), 0x7FC0)]).setDmaCh 31 { DmaCh.init with slip := [0x301, 33] } with mmu := { Mmu.init with tlb := [(9, 7, 12, 0x5700D)] } }, 31, 0x57FC0, .dmaSlipComplete 31, by decide +kernel, by decide +kernel, by decide +kernel, by decide +kernel, by decide +kernel, by decide +kernel, by decide +kernel, by decide +kernel, by decide +kernel, by decide +kernel⟩

theorem witness_StacksQueuesTakeHandOutAndFlush_1 : ∃ (s : State) (u : Nat) (n : Nat) (len : Nat) (banks : List Nat), ((match s.beginResult u n len false with | .ok b => b == banks | .error _ => false) = true) ∧ ((s.queue n).cls = 0) ∧ ((s.queue n).disabling = false) :=
  ⟨(st []).setQueue 9 { Queue.init with cfg := 0x8001, limit := 2, grant := 5 * 65536 + 6 }, 5, 9, 300, [0, 0, 0, 0, 0, 0, 0, 2], by decide +kernel, by decide +kernel, by decide +kernel⟩

theorem witness_StacksQueuesTakeHandOutAndFlush_2 : ∃ (s : State) (u : Nat) (n : Nat) (data : List Byte) (banks : List Nat), ((match s.beginResult u n (min data.length 256) true with | .ok b => b == banks | .error _ => false) = true) ∧ ((s.queue n).cls = 0) ∧ ((s.queue n).disabling = false) :=
  ⟨(st []).setQueue 9 { Queue.init with cfg := 0x8001, limit := 2, grant := 0xFFF * 65536 + 6 }, 5, 9, [1#8, 2#8], [0, 0, 0, 0, 0, 0, 0, 1], by decide +kernel, by decide +kernel, by decide +kernel⟩

theorem witness_StacksQueuesTakeHandOutAndFlush_3 : ∃ (s : State) (u : Nat) (n : Nat) (len : Nat) (k : Nat), ((match s.beginResult u n len false with | .ok _ => false | .error e => e == k) = true) ∧ (k ≠ ansDenied) :=
  ⟨(st []).setQueue 9 { Queue.init with cfg := 0x8001, limit := 0, grant := 5 * 65536 + 6 }, 5, 9, 300, 1, by decide +kernel, by decide +kernel⟩

theorem witness_StacksQueuesTakeHandOutAndFlush_4 : ∃ (s : State) (u : Nat) (n : Nat) (it : Item) (l : List Item), ((s.queue n).items = l ++ [it]) ∧ (it.producer = u ∧ it.complete = false) ∧ (∀ j ∈ l, ¬(j.producer = u ∧ j.complete = false)) :=
  ⟨(st []).setQueue 9 { Queue.init with items := [{ ty := 1, len := 3, producer := 3, data := [1#8, 2#8], complete := false, work := none, epoch := 0, chunk := 0, banks := [1] }] }, 3, 9, { ty := 1, len := 3, producer := 3, data := [1#8, 2#8], complete := false, work := none, epoch := 0, chunk := 0, banks := [1] }, [], by decide +kernel, by decide +kernel, by decide +kernel⟩

theorem witness_StacksQueuesTakeHandOutAndFlush_5 : ∃ (s : State) (u : Nat) (n : Nat) (it : Item) (l : List Item), ((s.queue n).items = l ++ [it]) ∧ (it.producer = u ∧ it.complete = false) ∧ (∀ j ∈ l, ¬(j.producer = u ∧ j.complete = false)) ∧ ((s.queue n).truncated.contains u = false) :=
  ⟨(st []).setQueue 9 { Queue.init with items := [{ ty := 1, len := 3, producer := 3, data := [1#8, 2#8], complete := false, work := none, epoch := 0, chunk := 0, banks := [1] }] }, 3, 9, { ty := 1, len := 3, producer := 3, data := [1#8, 2#8], complete := false, work := none, epoch := 0, chunk := 0, banks := [1] }, [], by decide +kernel, by decide +kernel, by decide +kernel, by decide +kernel⟩

theorem witness_StacksQueuesTakeHandOutAndFlush_6 : ∃ (s : State) (u : Nat) (n : Nat), ((s.queue n).truncated.contains u = true) :=
  ⟨(st []).setQueue 9 { Queue.init with truncated := [3] }, 3, 9, by decide +kernel⟩

theorem witness_StacksQueuesTakeHandOutAndFlush_7 : ∃ (s : State) (u : Nat) (n : Nat) (it : Item) (l : List Item), ((s.queue n).enabled = true) ∧ (s.mayPop u n = true) ∧ (((s.queue n).claimed.filter (fun c => c.1 == u)).length < 16) ∧ ((s.queue n).items = it :: l) ∧ (it.complete = true) ∧ (s.itemCurrent it = true) ∧ ((s.queue n).cls = 0) ∧ ((s.queue n).disabling = false) :=
  ⟨(st []).setQueue 9 { Queue.init with cfg := 1, grant := 3, items := [{ ty := 1, len := 3, producer := 3, data := [1#8, 2#8], complete := true, work := none, epoch := 0, chunk := 0, banks := [1] }] }, 3, 9, { ty := 1, len := 3, producer := 3, data := [1#8, 2#8], complete := true, work := none, epoch := 0, chunk := 0, banks := [1] }, [], by decide +kernel, by decide +kernel, by decide +kernel, by decide +kernel, by decide +kernel, by decide +kernel, by decide +kernel, by decide +kernel⟩

theorem witness_StacksQueuesTakeHandOutAndFlush_8 : ∃ (s : State) (u : Nat) (n : Nat), ((s.queue n).enabled = true) ∧ (s.mayPop u n = true) ∧ (((s.queue n).claimed.filter (fun c => c.1 == u)).length < 16) ∧ ((s.queue n).items = []) :=
  ⟨(st []).setQueue 9 { Queue.init with cfg := 1, grant := 3 }, 3, 9, by decide +kernel, by decide +kernel, by decide +kernel, by decide +kernel⟩

theorem witness_StacksQueuesTakeHandOutAndFlush_9 : ∃ (s : State) (u : Nat) (n : Nat) (it : Item) (l : List Item), ((s.queue n).enabled = true) ∧ (s.mayPop u n = true) ∧ (((s.queue n).claimed.filter (fun c => c.1 == u)).length < 16) ∧ ((s.queue n).items = it :: l) ∧ (it.complete = true) ∧ (s.itemCurrent it = false) :=
  ⟨(st []).setQueue 9 { Queue.init with cfg := 1, grant := 3, items := [{ ty := 1, len := 3, producer := 3, data := [1#8, 2#8], complete := true, work := some (1, 2, 3), epoch := 0, chunk := 0, banks := [1] }] }, 3, 9, { ty := 1, len := 3, producer := 3, data := [1#8, 2#8], complete := true, work := some (1, 2, 3), epoch := 0, chunk := 0, banks := [1] }, [], by decide +kernel, by decide +kernel, by decide +kernel, by decide +kernel, by decide +kernel, by decide +kernel⟩

theorem witness_StacksQueuesTakeHandOutAndFlush_10 : ∃ (s : State) (u : Nat) (n : Nat) (k : Nat) (c : Nat × Item), (((s.queue n).claimed.filter (fun c => c.1 == u))[k]? = some c) ∧ ((s.queue n).cls = 0) ∧ ((s.queue n).disabling = false) ∧ (c.2.banks.length ≤ 8) ∧ (c.2.banks.sum < 1024) ∧ (∀ i, i < 8 → s.get (STK.BANK_FREE_CELLS i) < 200000) ∧ (s.get STK.STK_STAT_CELLS < 200000) :=
  ⟨(st [(STK.STK_STAT_CELLS, 100), (STK.BANK_FREE_CELLS 0, 7), (STK.BANK_FREE_CELLS 1, 7), (STK.BANK_FREE_CELLS 2, 7), (STK.BANK_FREE_CELLS 3, 7), (STK.BANK_FREE_CELLS 4, 7), (STK.BANK_FREE_CELLS 5, 7), (STK.BANK_FREE_CELLS 6, 7), (STK.BANK_FREE_CELLS 7, 7)]).setQueue 9 { Queue.init with claimed := [(4, { ty := 1, len := 3, producer := 3, data := [], complete := true, work := none, epoch := 0, chunk := 0, banks := [1, 2] })] }, 4, 9, 0, (4, { ty := 1, len := 3, producer := 3, data := [], complete := true, work := none, epoch := 0, chunk := 0, banks := [1, 2] }), by decide +kernel, by decide +kernel, by decide +kernel, by decide +kernel, by decide +kernel, by decide +kernel, by decide +kernel⟩

theorem witness_StacksQueuesTakeHandOutAndFlush_11 : ∃ (s : State) (n : Nat), ((s.queue n).cls = 0) ∧ ((s.queue n).disabling = false) :=
  ⟨(st []).setQueue 9 { Queue.init with items := [{ ty := 1, len := 3, producer := 3, data := [1#8, 2#8], complete := false, work := none, epoch := 0, chunk := 0, banks := [1] }] }, 9, by decide +kernel, by decide +kernel⟩

theorem witness_StacksQueuesTakeHandOutAndFlush_12 : ∃ (s : State) (n : Nat) (d : Nat), ((s.queue n).timer = some d) ∧ ((s.queue n).cls = 2) ∧ ((s.queue n).items ≠ []) ∧ ((s.queue n).tmo ≤ s.usSince d) :=
  ⟨{ (st [(ICU.QSRC_EN 127, 1), (ICU.QSRC_QUEUE 127, 9)]).setQueue 9 { Queue.init with timer := some 0, cfg := 5, items := [{ ty := 1, len := 3, producer := 3, data := [1#8, 2#8], complete := false, work := none, epoch := 0, chunk := 0, banks := [1] }] } with ticks := 25000 }, 9, 0, by decide +kernel, by decide +kernel, by decide +kernel, by decide +kernel⟩

theorem witness_StacksQueuesTakeHandOutAndFlush_13 : ∃ (s : State) (n : Nat), ((s.queue n).timer.all (fun d => decide (s.usSince d < (s.queue n).tmo)) = true) :=
  ⟨{ running.setQueue 9 { Queue.init with timer := some 0 } with ticks := 24999 }, 9, by decide +kernel⟩

theorem witness_StacksQueuesTakeHandOutAndFlush_14 : ∃ (s : State) (n : Nat), ((s.queue n).holdsNone = true) :=
  ⟨(st []).setQueue 9 { Queue.init with cfg := 0x305 }, 9, by decide +kernel⟩

theorem witness_StacksQueuesTakeHandOutAndFlush_15 : ∃ (s : State) (n : Nat), ((s.queue n).holdsNone = false) :=
  ⟨(st []).setQueue 9 { Queue.init with cfg := 0x305, items := [{ ty := 1, len := 3, producer := 3, data := [1#8, 2#8], complete := false, work := none, epoch := 0, chunk := 0, banks := [1] }] }, 9, by decide +kernel⟩

theorem witness_FoliosAndTheirPools_1 : ∃ (s : State) (p : Nat), (p < 16) ∧ (s.faulty 0x160 = false) ∧ (s.poolEnabled p = true) ∧ (s.poolFree p ≠ 0) ∧ ((s.pool p).cache ≠ []) ∧ (∀ h ∈ (s.pool p).cache, handlePool h = p) :=
  ⟨(st [(LND.POOL_STAT_ENABLED 15, 1), (LND.POOL_FREE_COUNT 15, 2)]).setPool 15 { Pool.init with cache := [handleOf 15 3, handleOf 15 4] }, 15, by decide +kernel, by decide +kernel, by decide +kernel, by decide +kernel, by decide +kernel, by decide +kernel⟩

theorem witness_FoliosAndTheirPools_2 : ∃ (s : State) (p : Nat), (p < 16) ∧ (s.faulty 0x160 = false) ∧ (s.lender 16 p = none) :=
  ⟨running, 15, by decide +kernel, by decide +kernel, by decide +kernel⟩

theorem witness_FoliosAndTheirPools_3 : ∃ (s : State), (s.faulty 0x160 = true) :=
  ⟨st [(⟨RGS.FAULT_MAP 0 + 4 * (0x160 / 32), 0x160 % 32, 1⟩, 1)], by decide +kernel⟩

theorem witness_FoliosAndTheirPools_4 : ∃ (s : State) (h : Nat) (u : Nat) (n : Nat), (s.isLent h = true) ∧ ((s.lent h).count = 1) ∧ ((s.lent h).owner = borrower u) ∧ (2 ≤ n) ∧ (n ≤ 255) :=
  ⟨(st []).setPool 15 { Pool.init with lent := [(3, { count := 1, owner := 7 })] }, handleOf 15 3, 7, 255, by decide +kernel, by decide +kernel, by decide +kernel, by decide +kernel, by decide +kernel⟩

theorem witness_FoliosAndTheirPools_5 : ∃ (s : State) (h : Nat) (u : Nat) (n : Nat), (s.isLent h = false ∨ (s.lent h).count ≠ 1 ∨ (s.lent h).owner ≠ borrower u ∨ n < 2 ∨ 255 < n) :=
  ⟨(st []).setPool 15 { Pool.init with lent := [(3, { count := 1, owner := 7 })] }, handleOf 15 3, 7, 1, by decide +kernel⟩

theorem witness_FoliosAndTheirPools_6 : ∃ (s : State) (h : Nat), (s.isLent h = true) ∧ (1 < (s.lent h).count) :=
  ⟨(st []).setPool 15 { Pool.init with lent := [(3, { count := 3, owner := 7 })] }, handleOf 15 3, by decide +kernel, by decide +kernel⟩

theorem witness_FoliosAndTheirPools_7 : ∃ (s : State) (h : Nat) (u : Nat), (s.isLent h = true) ∧ ((s.lent h).count = 1) ∧ ((s.lent h).owner = borrower u) ∧ ((s.pool (handlePool h)).cache.length < 32) :=
  ⟨(st []).setPool 15 { Pool.init with lent := [(3, { count := 1, owner := 7 })] }, handleOf 15 3, 7, by decide +kernel, by decide +kernel, by decide +kernel, by decide +kernel⟩

theorem witness_FoliosAndTheirPools_8 : ∃ (s : State) (h : Nat) (u : Nat), (s.isLent h = true) ∧ ((s.lent h).count = 1) ∧ ((s.lent h).owner ≠ borrower u) ∧ (s.rgs.raises 0x160 3 = false) :=
  ⟨(st []).setPool 15 { Pool.init with lent := [(3, { count := 1, owner := 7 })] }, handleOf 15 3, 8, by decide +kernel, by decide +kernel, by decide +kernel, by decide +kernel⟩

theorem witness_FoliosAndTheirPools_9 : ∃ (s : State) (h : Nat), (s.isLent h = false) ∧ (s.rgs.raises 0x160 3 = false) :=
  ⟨running, handleOf 15 3, by decide +kernel, by decide +kernel⟩

theorem witness_FoliosAndTheirPools_10 : ∃ (s : State) (h : Nat) (r : List Nat), (s.orphans = h :: r) ∧ ((s.pool (handlePool h)).cache.length < 32) :=
  ⟨{ st [] with orphans := [handleOf 15 3] }, handleOf 15 3, [], by decide +kernel, by decide +kernel⟩

theorem witness_FoliosAndTheirPools_11 : ∃ (s : State) (p : Nat), (s.poolEnabled p = false) ∧ (s.on (LND.POOL_STAT_INIT_BUSY p) = false) ∧ (s.poolOk p = true) :=
  ⟨st [(DRC.DRC_CFG_USABLE_MIB, 8192), (LND.POOL_CFG_SIZE_LOG2 15, 12), (LND.POOL_COUNT_COUNT 15, 16), (.whole (LND.POOL_RING_LO 15), 0x100020), (.whole (LND.POOL_BASE_LO 15), 0x200000)], 15, by decide +kernel, by decide +kernel, by decide +kernel⟩

theorem witness_FoliosAndTheirPools_12 : ∃ (s : State) (p : Nat), (s.poolEnabled p = false) ∧ (s.on (LND.POOL_STAT_INIT_BUSY p) = false) ∧ (s.poolOk p = false) :=
  ⟨st [(DRC.DRC_CFG_USABLE_MIB, 8192), (LND.POOL_CFG_SIZE_LOG2 15, 12), (LND.POOL_COUNT_COUNT 15, 15)], 15, by decide +kernel, by decide +kernel, by decide +kernel⟩

theorem witness_FoliosAndTheirPools_13 : ∃ (s : State) (p : Nat), (p < 16) ∧ (s.on (LND.POOL_STAT_INIT_BUSY p) = true) ∧ (s.poolRing p % 32 = 0) ∧ (s.poolCount p % 8 = 0) :=
  ⟨st [(LND.POOL_STAT_INIT_BUSY 15, 1), (LND.POOL_COUNT_COUNT 15, 16), (.whole (LND.POOL_RING_LO 15), 0x100020)], 15, by decide +kernel, by decide +kernel, by decide +kernel, by decide +kernel⟩

theorem witness_FoliosAndTheirPools_14 : ∃ (s : State) (p : Nat), (p < 16) ∧ (s.poolEnabled p = true) ∧ (s.poolFree p = s.poolCount p) :=
  ⟨(st [(LND.POOL_STAT_ENABLED 15, 1), (LND.POOL_FREE_COUNT 15, 16), (LND.POOL_COUNT_COUNT 15, 16)]).setPool 15 { Pool.init with ringFill := 16 }, 15, by decide +kernel, by decide +kernel, by decide +kernel⟩

theorem witness_FoliosAndTheirPools_15 : ∃ (s : State) (p : Nat), (s.poolEnabled p = false ∨ s.poolFree p ≠ s.poolCount p) :=
  ⟨running, 15, by decide +kernel⟩

theorem witness_FoliosAndTheirPools_16 : ∃ (s : State) (p : Nat), (p < 16) ∧ ((s.pool p).cache.length < 8) ∧ ((s.pool p).ringFill ≠ 0) :=
  ⟨{ (st [(LND.POOL_COUNT_COUNT 15, 16), (.whole (LND.POOL_RING_LO 15), 0x100020)]).setPool 15 { Pool.init with ringFill := 9, ringHead := 12 } with dram := [(0x100054, 7#8)] }, 15, by decide +kernel, by decide +kernel, by decide +kernel⟩

theorem witness_DoorbellsLetSlipsBeTakenInOrder_1 : ∃ (s0 : State) (s : State) (n : Nat) (idx : Nat), (s = s0.linkActivity) ∧ (s.doorbellOk n (s.sqSize n) idx = false) :=
  ⟨st [(HIF.HIF_STAT_READY, 1), (HIF.RP_CFG_ENABLE 63, 1), (HIF.RP_CFG_SQ_LOG2 63, 4)], (st [(HIF.HIF_STAT_READY, 1), (HIF.RP_CFG_ENABLE 63, 1), (HIF.RP_CFG_SQ_LOG2 63, 4)]).linkActivity, 63, 16, by decide +kernel, by decide +kernel⟩

theorem witness_DoorbellsLetSlipsBeTakenInOrder_2 : ∃ (s0 : State) (s : State) (n : Nat) (idx : Nat), (s = s0.linkActivity) ∧ (s.doorbellOk n (s.rqSize n) idx = false) :=
  ⟨st [(HIF.HIF_STAT_READY, 1), (HIF.RP_CFG_RQ_LOG2 63, 4)], (st [(HIF.HIF_STAT_READY, 1), (HIF.RP_CFG_RQ_LOG2 63, 4)]).linkActivity, 63, 0, by decide +kernel, by decide +kernel⟩

theorem witness_DoorbellsLetSlipsBeTakenInOrder_3 : ∃ (s0 : State) (s : State) (n : Nat) (idx : Nat), (s = s0.linkActivity) ∧ (n < 64) ∧ (s.doorbellOk n (s.sqSize n) idx = true) ∧ (s.pwState = pwStandby ∨ s.pwState = pwWaking) :=
  ⟨st [(HIF.HIF_STAT_READY, 1), (HIF.RP_CFG_ENABLE 63, 1), (HIF.RP_CFG_SQ_LOG2 63, 4), (PWR.PWR_STAT_STATE, pwStandby)], (st [(HIF.HIF_STAT_READY, 1), (HIF.RP_CFG_ENABLE 63, 1), (HIF.RP_CFG_SQ_LOG2 63, 4), (PWR.PWR_STAT_STATE, pwStandby)]).linkActivity, 63, 15, by decide +kernel, by decide +kernel, by decide +kernel, by decide +kernel⟩

theorem witness_DoorbellsLetSlipsBeTakenInOrder_4 : ∃ (s0 : State) (s : State) (n : Nat) (idx : Nat), (s = s0.linkActivity) ∧ (n < 64) ∧ (s.doorbellOk n (s.rqSize n) idx = true) ∧ (s.pwState = pwStandby ∨ s.pwState = pwWaking) :=
  ⟨st [(HIF.HIF_STAT_READY, 1), (HIF.RP_CFG_ENABLE 63, 1), (HIF.RP_CFG_RQ_LOG2 63, 4), (PWR.PWR_STAT_STATE, pwStandby)], (st [(HIF.HIF_STAT_READY, 1), (HIF.RP_CFG_ENABLE 63, 1), (HIF.RP_CFG_RQ_LOG2 63, 4), (PWR.PWR_STAT_STATE, pwStandby)]).linkActivity, 63, 15, by decide +kernel, by decide +kernel, by decide +kernel, by decide +kernel⟩

theorem witness_DoorbellsLetSlipsBeTakenInOrder_5 : ∃ (s0 : State) (s : State) (n : Nat) (idx : Nat), (s = s0.linkActivity) ∧ (n < 64) ∧ (s.doorbellOk n (s.sqSize n) idx = true) ∧ (s.pwState ≠ pwStandby) ∧ (s.pwState ≠ pwWaking) ∧ (idx = s.get (HIF.RP_STAT_SQ_HEAD n) ∨ (s.headSlot n).getD 15 0 / 2 ^ 31 ≠ s.get (HIF.RP_STAT_SQ_PHASE n) ∨ s.stalled n = true) :=
  ⟨st [(HIF.HIF_STAT_READY, 1), (HIF.RP_CFG_ENABLE 63, 1), (HIF.RP_CFG_SQ_LOG2 63, 4), (HIF.RP_STAT_SQ_PHASE 63, 1), (HIF.RP_STAT_NOT_VISIBLE 63, 1)], (st [(HIF.HIF_STAT_READY, 1), (HIF.RP_CFG_ENABLE 63, 1), (HIF.RP_CFG_SQ_LOG2 63, 4), (HIF.RP_STAT_SQ_PHASE 63, 1), (HIF.RP_STAT_NOT_VISIBLE 63, 1)]).linkActivity, 63, 15, by decide +kernel, by decide +kernel, by decide +kernel, by decide +kernel, by decide +kernel, by decide +kernel⟩

theorem witness_DoorbellsLetSlipsBeTakenInOrder_6 : ∃ (s0 : State) (s : State) (n : Nat) (idx : Nat), (s = s0.linkActivity) ∧ (n < 64) ∧ (s.doorbellOk n (s.sqSize n) idx = true) ∧ (s.pwState ≠ pwStandby) ∧ (s.pwState ≠ pwWaking) ∧ (idx = (s.get (HIF.RP_STAT_SQ_HEAD n) + 1) % s.sqSize n) ∧ (s.get (HIF.RP_STAT_SQ_HEAD n) < s.sqSize n) ∧ (idx ≠ s.get (HIF.RP_STAT_SQ_HEAD n)) ∧ ((s.headSlot n).getD 15 0 / 2 ^ 31 = s.get (HIF.RP_STAT_SQ_PHASE n)) ∧ (s.stalled n = false) :=
  ⟨(st [(HIF.HIF_STAT_READY, 1), (HIF.RP_CFG_ENABLE 63, 1), (HIF.RP_CFG_SQ_LOG2 63, 4), (HIF.RP_STAT_SQ_PHASE 63, 1), (HIF.RP_STAT_SQ_HEAD 63, 15), (HIF.RP_SQ_BASE_LO_ADDR 63, 128)]).storeHost (128 + 64 * 15 + 60) [0, 0, 0, 0x80], ((st [(HIF.HIF_STAT_READY, 1), (HIF.RP_CFG_ENABLE 63, 1), (HIF.RP_CFG_SQ_LOG2 63, 4), (HIF.RP_STAT_SQ_PHASE 63, 1), (HIF.RP_STAT_SQ_HEAD 63, 15), (HIF.RP_SQ_BASE_LO_ADDR 63, 128)]).storeHost (128 + 64 * 15 + 60) [0, 0, 0, 0x80]).linkActivity, 63, 0, by decide +kernel, by decide +kernel, by decide +kernel, by decide +kernel, by decide +kernel, by decide +kernel, by decide +kernel, by decide +kernel, by decide +kernel, by decide +kernel⟩

theorem witness_DoorbellsLetSlipsBeTakenInOrder_7 : ∃ (s0 : State) (s : State) (n : Nat) (idx : Nat), (s = s0.linkActivity) ∧ (n < 64) ∧ (s.doorbellOk n (s.rqSize n) idx = true) ∧ (s.pwState ≠ pwStandby) ∧ (s.pwState ≠ pwWaking) ∧ (s.get (DBL.SQ_TAIL_INDEX n) = s.get (HIF.RP_STAT_SQ_HEAD n)) :=
  ⟨st [(HIF.HIF_STAT_READY, 1), (HIF.RP_CFG_ENABLE 0, 1), (HIF.RP_CFG_RQ_LOG2 0, 16)], (st [(HIF.HIF_STAT_READY, 1), (HIF.RP_CFG_ENABLE 0, 1), (HIF.RP_CFG_RQ_LOG2 0, 16)]).linkActivity, 0, 65535, by decide +kernel, by decide +kernel, by decide +kernel, by decide +kernel, by decide +kernel, by decide +kernel⟩

theorem witness_DoorbellsLetSlipsBeTakenInOrder_8 : ∃ (s : State) (n : Nat), (s.ringOn n = true) ∧ (s.stalled n = false) ∧ (s.on (HIF.RP_STAT_NOT_VISIBLE n) = false) ∧ (s.get (HIF.RP_STAT_SQ_HEAD n) ≠ s.get (DBL.SQ_TAIL_INDEX n)) ∧ ((s.headSlot n).getD 15 0 / 2 ^ 31 ≠ s.get (HIF.RP_STAT_SQ_PHASE n)) ∧ ((s.ring n).rereads < 7) :=
  ⟨st [(HIF.RP_CFG_ENABLE 63, 1), (HIF.RP_STAT_SQ_PHASE 63, 1), (DBL.SQ_TAIL_INDEX 63, 1)], 63, by decide +kernel, by decide +kernel, by decide +kernel, by decide +kernel, by decide +kernel, by decide +kernel⟩

theorem witness_DoorbellsLetSlipsBeTakenInOrder_9 : ∃ (s : State) (n : Nat), (n < 64) ∧ (s.ringOn n = true) ∧ (s.stalled n = false) ∧ (s.on (HIF.RP_STAT_NOT_VISIBLE n) = false) ∧ (s.get (HIF.RP_STAT_SQ_HEAD n) ≠ s.get (DBL.SQ_TAIL_INDEX n)) ∧ ((s.headSlot n).getD 15 0 / 2 ^ 31 ≠ s.get (HIF.RP_STAT_SQ_PHASE n)) ∧ (7 ≤ (s.ring n).rereads) :=
  ⟨(st [(HIF.RP_CFG_ENABLE 63, 1), (HIF.RP_STAT_SQ_PHASE 63, 1), (DBL.SQ_TAIL_INDEX 63, 1)]).setRing 63 { Ring.init with rereads := 7 }, 63, by decide +kernel, by decide +kernel, by decide +kernel, by decide +kernel, by decide +kernel, by decide +kernel, by decide +kernel⟩

theorem witness_DoorbellsLetSlipsBeTakenInOrder_10 : ∃ (s : State) (n : Nat), (n < 64) ∧ (s.ringOn n = true) ∧ (s.stalled n = false) ∧ (s.on (HIF.RP_STAT_NOT_VISIBLE n) = false) ∧ (s.get (DBL.SQ_TAIL_INDEX n) = (s.get (HIF.RP_STAT_SQ_HEAD n) + 1) % s.sqSize n) ∧ (s.get (HIF.RP_STAT_SQ_HEAD n) < s.sqSize n) ∧ (s.get (HIF.RP_STAT_SQ_HEAD n) ≠ s.get (DBL.SQ_TAIL_INDEX n)) ∧ ((s.headSlot n).getD 15 0 / 2 ^ 31 = s.get (HIF.RP_STAT_SQ_PHASE n)) :=
  ⟨(st [(HIF.RP_CFG_ENABLE 63, 1), (HIF.RP_CFG_SQ_LOG2 63, 4), (HIF.RP_STAT_SQ_PHASE 63, 1), (DBL.SQ_TAIL_INDEX 63, 1)]).storeHost 60 [0, 0, 0, 0x80], 63, by decide +kernel, by decide +kernel, by decide +kernel, by decide +kernel, by decide +kernel, by decide +kernel, by decide +kernel, by decide +kernel⟩

theorem witness_SlipsWithoutAStreamComplete_1 : ∃ (s : State) (n : Nat) (k : Nat) (u : Taken), (s.slipAt n k 0x00 = some u) ∧ (s.earlier n k = []) :=
  ⟨withRing running 5 [slip 0 [0x12340100]], 5, 0, slip 0 [0x12340100], by decide +kernel, by decide +kernel⟩

theorem witness_SlipsWithoutAStreamComplete_2 : ∃ (s : State) (n : Nat) (k : Nat) (u : Taken), ((s.ring n).taken[k]? = some u) ∧ (0x0C < u.op) ∧ (s.mayStart n k u = true) :=
  ⟨withRing running 5 [slip 0 [0x01], slip 1 [0x1234000D]], 5, 1, slip 1 [0x1234000D], by decide +kernel, by decide +kernel, by decide +kernel⟩

theorem witness_SlipsWithoutAStreamComplete_3 : ∃ (s : State) (n : Nat) (k : Nat) (u : Taken), (s.slipAt n k 0x0B = some u) ∧ (bits (u.word 1) 8 8 = 0) ∧ (u.reservedOk = true) :=
  ⟨withRing running 5 [slip 0 [0x02], slip 1 [0x1234000B]], 5, 1, slip 1 [0x1234000B], by decide +kernel, by decide +kernel, by decide +kernel⟩

theorem witness_SlipsWithoutAStreamComplete_4 : ∃ (s : State) (n : Nat) (k : Nat) (last : Nat) (u : Taken), (s.slipAt n k 0x0B = some u) ∧ (bits (u.word 1) 8 8 = 1) ∧ (u.reservedOk = true) ∧ ((s.stream u.streamField).lastReleased = some last) :=
  ⟨(withRing running 5 [slip 1 [0x1234000B, 0x107]]).setStream 7 { Stream.init with state := .opened, kind := 2, rp := 9, lastReleased := some 41 }, 5, 0, 41, slip 1 [0x1234000B, 0x107], by decide +kernel, by decide +kernel, by decide +kernel, by decide +kernel⟩

theorem witness_SlipsWithoutAStreamComplete_5 : ∃ (s : State) (n : Nat) (k : Nat) (u : Taken), (s.slipAt n k 0x0B = some u) ∧ (bits (u.word 1) 8 8 = 1) ∧ (u.reservedOk = true) ∧ ((s.stream u.streamField).lastReleased = none) :=
  ⟨withRing running 5 [slip 1 [0x1234000B, 0x107]], 5, 0, slip 1 [0x1234000B, 0x107], by decide +kernel, by decide +kernel, by decide +kernel, by decide +kernel⟩

theorem witness_SlipsWithoutAStreamComplete_6 : ∃ (s : State) (n : Nat) (k : Nat) (u : Taken), (s.slipAt n k 0x0B = some u) ∧ (bits (u.word 1) 8 8 = 2) ∧ (u.reservedOk = true) :=
  ⟨withRing running 5 [slip 1 [0x1234000B, 0x200]], 5, 0, slip 1 [0x1234000B, 0x200], by decide +kernel, by decide +kernel, by decide +kernel⟩

theorem witness_SlipsWithoutAStreamComplete_7 : ∃ (s : State) (n : Nat) (k : Nat) (u : Taken), (s.slipAt n k 0x0B = some u) ∧ (2 < bits (u.word 1) 8 8 ∨ bits (u.word 1) 8 8 = 2 ∧ u.reservedOk = false) :=
  ⟨withRing running 5 [slip 1 [0x1234000B, 0x300]], 5, 0, slip 1 [0x1234000B, 0x300], by decide +kernel, by decide +kernel⟩

theorem witness_SlipsWithoutAStreamComplete_8 : ∃ (s : State) (n : Nat) (k : Nat) (u : Taken), (s.slipAt n k 0x0C = some u) ∧ (s.slipWaits n u = false) ∧ (u.reservedOk = true) ∧ (s.hostHolds (u.word 2) = false) :=
  ⟨withRing running 5 [slip 1 [0x1234000C, 0, 0xF0000003]], 5, 0, slip 1 [0x1234000C, 0, 0xF0000003], by decide +kernel, by decide +kernel, by decide +kernel, by decide +kernel⟩

theorem witness_SlipsWithoutAStreamComplete_9 : ∃ (s : State) (n : Nat) (k : Nat) (u : Taken), (s.slipAt n k 0x0C = some u) ∧ (s.slipWaits n u = false) ∧ (u.reservedOk = false) :=
  ⟨withRing running 5 [slip 1 [0x1234000C, 1, 0xF0000003]], 5, 0, slip 1 [0x1234000C, 1, 0xF0000003], by decide +kernel, by decide +kernel, by decide +kernel⟩

theorem witness_SlipsWithoutAStreamComplete_10 : ∃ (s : State) (n : Nat) (k : Nat) (u : Taken), (s.slipAt n k 0x0C = some u) ∧ (s.slipWaits n u = false) ∧ (u.reservedOk = true) ∧ (s.hostHolds (u.word 2) = true) ∧ (bitAt (u.word 1) 8 = true) ∧ (s.poolSize (handlePool (u.word 2)) < u.word 3 + u.word 4) :=
  ⟨(withRing running 5 [slip 1 [0x1234000C, 0x100, handleOf 15 3, 1, 0xFFFFFFFF]]).setPool 15 { Pool.init with lent := [(3, { count := 2, owner := 0x120 })] }, 5, 0, slip 1 [0x1234000C, 0x100, handleOf 15 3, 1, 0xFFFFFFFF], by decide +kernel, by decide +kernel, by decide +kernel, by decide +kernel, by decide +kernel, by decide +kernel⟩

theorem witness_SlipsWithoutAStreamComplete_11 : ∃ (s : State) (n : Nat) (k : Nat) (u : Taken), (s.slipAt n k 0x0C = some u) ∧ (s.slipWaits n u = false) ∧ (u.reservedOk = true) ∧ (s.hostHolds (u.word 2) = true) ∧ (bitAt (u.word 1) 8 = false) ∧ (bitAt (u.word 1) 9 = true) :=
  ⟨(withRing running 5 [slip 1 [0x1234000C, 0x200, handleOf 15 3]]).setPool 15 { Pool.init with lent := [(3, { count := 2, owner := 0x120 })] }, 5, 0, slip 1 [0x1234000C, 0x200, handleOf 15 3], by decide +kernel, by decide +kernel, by decide +kernel, by decide +kernel, by decide +kernel, by decide +kernel⟩

theorem witness_SlipsWithoutAStreamComplete_12 : ∃ (s : State) (n : Nat) (k : Nat) (u : Taken), (s.slipAt n k 0x0C = some u) ∧ (s.slipWaits n u = false) ∧ (u.reservedOk = true) ∧ (s.hostHolds (u.word 2) = true) ∧ (bitAt (u.word 1) 8 = false) ∧ (bitAt (u.word 1) 9 = false) ∧ (1 < (s.lent (u.word 2)).count) :=
  ⟨(withRing running 5 [slip 1 [0x1234000C, 0, handleOf 15 3]]).setPool 15 { Pool.init with lent := [(3, { count := 2, owner := 0x120 })] }, 5, 0, slip 1 [0x1234000C, 0, handleOf 15 3], by decide +kernel, by decide +kernel, by decide +kernel, by decide +kernel, by decide +kernel, by decide +kernel, by decide +kernel⟩

theorem witness_ReturnSlipsAreWrittenAndVectorsFire_1 : ∃ (s : State) (n : Nat) (r : RetSlip) (l : List RetSlip), (n < 64) ∧ ((s.ring n).compl = r :: l) ∧ (r.frees = (0, 0)) ∧ (r.opcode ≠ 0x07) ∧ (r.noIrq = true ∨ r.counted = true) ∧ (s.mayWrite n = true) ∧ (0 < s.rqFree n) ∧ (s.get (HIF.RP_RQ_STAT_RQ_TAIL n) < s.rqSize n) ∧ (s.get (DBL.SQ_TAIL_INDEX n) = s.get (HIF.RP_STAT_SQ_HEAD n)) :=
  ⟨{ (st [(HIF.RP_CFG_ENABLE 63, 1), (HIF.RP_CFG_RQ_LOG2 63, 4), (HIF.RP_RQ_STAT_RQ_TAIL 63, 15), (DBL.RQ_HEAD_INDEX 63, 15), (HIF.RP_RQ_STAT_RQ_PHASE 63, 1)]).setRing 63 { Ring.init with compl := [(slip 0 [0x12340102, 7]).completion 0 0 [5, 6]] } with hostFn := { HostFn.init with busMaster := true } }, 63, (slip 0 [0x12340102, 7]).completion 0 0 [5, 6], [], by decide +kernel, by decide +kernel, by decide +kernel, by decide +kernel, by decide +kernel, by decide +kernel, by decide +kernel, by decide +kernel, by decide +kernel⟩

theorem witness_ReturnSlipsAreWrittenAndVectorsFire_2 : ∃ (s : State) (n : Nat) (r : RetSlip) (l : List RetSlip), (n < 64) ∧ ((s.ring n).compl = r :: l) ∧ (r.frees = (0, 0)) ∧ (r.opcode ≠ 0x07) ∧ (r.noIrq = false) ∧ (r.counted = false) ∧ (s.mayWrite n = true) ∧ (0 < s.rqFree n) ∧ ((s.vec (s.get (HIF.RP_CFG_VECTOR n))).count + 1 < s.get (HIF.MSIX_MOD_COUNT (s.get (HIF.RP_CFG_VECTOR n)))) ∧ (s.get (HIF.MSIX_MOD_HOLD (s.get (HIF.RP_CFG_VECTOR n))) ≠ 0) :=
  ⟨{ (st [(HIF.RP_CFG_ENABLE 63, 1), (HIF.RP_CFG_VECTOR 63, 9), (HIF.MSIX_MOD_COUNT 9, 2), (HIF.MSIX_MOD_HOLD 9, 50), (HIF.RP_CFG_RQ_LOG2 63, 4), (HIF.RP_RQ_STAT_RQ_TAIL 63, 15), (DBL.RQ_HEAD_INDEX 63, 15), (HIF.RP_RQ_STAT_RQ_PHASE 63, 1)]).setRing 63 { Ring.init with compl := [(slip 0 [0x12340002, 7]).completion 0 0 [5, 6]] } with hostFn := { HostFn.init with busMaster := true } }, 63, (slip 0 [0x12340002, 7]).completion 0 0 [5, 6], [], by decide +kernel, by decide +kernel, by decide +kernel, by decide +kernel, by decide +kernel, by decide +kernel, by decide +kernel, by decide +kernel, by decide +kernel, by decide +kernel⟩

theorem witness_ReturnSlipsAreWrittenAndVectorsFire_3 : ∃ (s : State) (n : Nat) (r : RetSlip) (l : List RetSlip), (n < 64) ∧ ((s.ring n).compl = r :: l) ∧ (r.frees = (0, 0)) ∧ (r.opcode ≠ 0x07) ∧ (r.noIrq = false) ∧ (r.counted = false) ∧ (s.mayWrite n = true) ∧ (0 < s.rqFree n) ∧ (s.get (HIF.MSIX_MOD_COUNT (s.get (HIF.RP_CFG_VECTOR n))) ≤ (s.vec (s.get (HIF.RP_CFG_VECTOR n))).count + 1) ∧ (s.hostFn.fnMask = false) ∧ (s.on (HIF.MSIX_CTL_MASK (s.get (HIF.RP_CFG_VECTOR n))) = false) :=
  ⟨{ (st [(HIF.RP_CFG_ENABLE 63, 1), (HIF.RP_CFG_VECTOR 63, 9), (HIF.MSIX_CTL_MASK 9, 0), (HIF.MSIX_MOD_COUNT 9, 1), (HIF.MSIX_MOD_HOLD 9, 50), (HIF.MSIX_ADDR_LO_ADDR 9, 0x1000), (HIF.MSIX_DATA_DATA 9, 77), (HIF.RP_CFG_RQ_LOG2 63, 4), (HIF.RP_RQ_STAT_RQ_TAIL 63, 15), (DBL.RQ_HEAD_INDEX 63, 15), (HIF.RP_RQ_STAT_RQ_PHASE 63, 1)]).setRing 63 { Ring.init with compl := [(slip 0 [0x12340002, 7]).completion 0 0 [5, 6]] } with hostFn := { HostFn.init with busMaster := true } }, 63, (slip 0 [0x12340002, 7]).completion 0 0 [5, 6], [], by decide +kernel, by decide +kernel, by decide +kernel, by decide +kernel, by decide +kernel, by decide +kernel, by decide +kernel, by decide +kernel, by decide +kernel, by decide +kernel, by decide +kernel⟩

theorem witness_ReturnSlipsAreWrittenAndVectorsFire_4 : ∃ (s : State) (n : Nat) (r : RetSlip) (l : List RetSlip), (n < 64) ∧ ((s.ring n).compl = r :: l) ∧ (r.frees ≠ (0, 0)) ∧ (r.opcode ≠ 0x07) ∧ (r.noIrq = true ∨ r.counted = true) ∧ (s.mayWrite n = true) ∧ (0 < s.rqFree n) ∧ (s.get (DBL.SQ_TAIL_INDEX n) = s.get (HIF.RP_STAT_SQ_HEAD n)) :=
  ⟨{ (st [(HIF.RP_CFG_ENABLE 63, 1), (HIF.RP_CFG_RQ_LOG2 63, 4), (HIF.RP_RQ_STAT_RQ_TAIL 63, 15), (DBL.RQ_HEAD_INDEX 63, 15), (HIF.RP_RQ_STAT_RQ_PHASE 63, 1), (HIF.LEDGER_CU_USED_UNITS, 40)]).setRing 63 { Ring.init with compl := [{ (slip 0 [0x12340102, 7]).completion 0 0 [5, 6] with frees := (40, 50) }] } with hostFn := { HostFn.init with busMaster := true } }, 63, { (slip 0 [0x12340102, 7]).completion 0 0 [5, 6] with frees := (40, 50) }, [], by decide +kernel, by decide +kernel, by decide +kernel, by decide +kernel, by decide +kernel, by decide +kernel, by decide +kernel, by decide +kernel⟩

theorem witness_ReturnSlipsAreWrittenAndVectorsFire_5 : ∃ (s : State) (n : Nat) (m : Nat) (r : RetSlip) (l : List RetSlip), (n < 64) ∧ ((s.ring n).compl = r :: l) ∧ (r.frees = (0, 0)) ∧ (r.opcode = 0x07) ∧ (r.stream = some m) ∧ ((s.stream m).pics = []) ∧ (r.noIrq = true ∨ r.counted = true) ∧ (s.mayWrite n = true) ∧ (0 < s.rqFree n) ∧ (s.get (DBL.SQ_TAIL_INDEX n) = s.get (HIF.RP_STAT_SQ_HEAD n)) :=
  ⟨{ (st [(HIF.RP_CFG_ENABLE 63, 1), (HIF.RP_CFG_RQ_LOG2 63, 4), (HIF.RP_RQ_STAT_RQ_TAIL 63, 15), (DBL.RQ_HEAD_INDEX 63, 15), (HIF.RP_RQ_STAT_RQ_PHASE 63, 1)]).setRing 63 { Ring.init with compl := [(slip 0 [0x12340107, 7]).completion 0 0 [5, 6]] } with hostFn := { HostFn.init with busMaster := true } }, 63, 7, (slip 0 [0x12340107, 7]).completion 0 0 [5, 6], [], by decide +kernel, by decide +kernel, by decide +kernel, by decide +kernel, by decide +kernel, by decide +kernel, by decide +kernel, by decide +kernel, by decide +kernel, by decide +kernel⟩

theorem witness_ReturnSlipsAreWrittenAndVectorsFire_6 : ∃ (s : State) (n : Nat), ((s.ring n).compl = [] ∨ s.mayWrite n = false ∨ s.rqFree n = 0) ∧ (s.get (DBL.SQ_TAIL_INDEX n) = s.get (HIF.RP_STAT_SQ_HEAD n)) :=
  ⟨running, 3, by decide +kernel, by decide +kernel⟩

theorem witness_ReturnSlipsAreWrittenAndVectorsFire_7 : ∃ (s : State) (n : Nat), (n < 64) ∧ ((s.ring n).drain = 0) ∧ ((s.ring n).compl = []) ∧ ((s.ring n).lost = 0) ∧ (8 ≤ (s.ring n).events.length) ∧ (s.mayWrite n = true) ∧ (8 ≤ s.rqFree n) ∧ (s.get (HIF.RP_RQ_STAT_RQ_TAIL n) + 8 < s.rqSize n) ∧ (s.rqSize n ≤ 65536) ∧ ((s.vec (s.get (HIF.RP_CFG_VECTOR n))).count + 8 < s.get (HIF.MSIX_MOD_COUNT (s.get (HIF.RP_CFG_VECTOR n)))) ∧ (s.get (HIF.MSIX_MOD_HOLD (s.get (HIF.RP_CFG_VECTOR n))) ≠ 0) :=
  ⟨{ (st [(HIF.RP_CFG_ENABLE 63, 1), (HIF.RP_CFG_VECTOR 63, 9), (HIF.MSIX_MOD_COUNT 9, 20), (HIF.MSIX_MOD_HOLD 9, 50), (HIF.RP_CFG_RQ_LOG2 63, 4), (HIF.RP_RQ_STAT_RQ_TAIL 63, 7), (DBL.RQ_HEAD_INDEX 63, 7), (HIF.RP_RQ_STAT_RQ_PHASE 63, 1)]).setRing 63 { Ring.init with events := (List.range 9).map fun i => eventSlip 0 (some 3) 1 0 [i] } with hostFn := { HostFn.init with busMaster := true } }, 63, by decide +kernel, by decide +kernel, by decide +kernel, by decide +kernel, by decide +kernel, by decide +kernel, by decide +kernel, by decide +kernel, by decide +kernel, by decide +kernel, by decide +kernel⟩

theorem witness_ReturnSlipsAreWrittenAndVectorsFire_8 : ∃ (s : State) (n : Nat), (n < 64) ∧ ((s.ring n).drain = 0) ∧ ((s.ring n).compl = []) ∧ ((s.ring n).lost = 0) ∧ ((s.ring n).events ≠ []) ∧ ((s.ring n).events.length < 8) ∧ (s.ringTimeout n ≤ s.usSince (s.ring n).evTick) ∧ (s.mayWrite n = true) ∧ ((s.ring n).events.length ≤ s.rqFree n) ∧ ((s.vec (s.get (HIF.RP_CFG_VECTOR n))).count + 8 < s.get (HIF.MSIX_MOD_COUNT (s.get (HIF.RP_CFG_VECTOR n)))) ∧ (s.get (HIF.MSIX_MOD_HOLD (s.get (HIF.RP_CFG_VECTOR n))) ≠ 0) ∧ (s.hostFn.fnMask = false) ∧ (s.on (HIF.MSIX_CTL_MASK (s.get (HIF.RP_CFG_VECTOR n))) = false) :=
  ⟨{ (st [(HIF.RP_CFG_ENABLE 63, 1), (HIF.RP_CFG_VECTOR 63, 9), (HIF.MSIX_CTL_MASK 9, 0), (HIF.MSIX_MOD_COUNT 9, 20), (HIF.MSIX_MOD_HOLD 9, 50), (HIF.RP_CFG_RQ_LOG2 63, 4), (HIF.RP_RQ_STAT_RQ_TAIL 63, 12), (DBL.RQ_HEAD_INDEX 63, 12), (HIF.RP_RQ_STAT_RQ_PHASE 63, 1)]).setRing 63 { Ring.init with events := (List.range 7).map fun i => eventSlip 0 (some 3) 1 0 [i] } with hostFn := { HostFn.init with busMaster := true }, ticks := 1000000 }, 63, by decide +kernel, by decide +kernel, by decide +kernel, by decide +kernel, by decide +kernel, by decide +kernel, by decide +kernel, by decide +kernel, by decide +kernel, by decide +kernel, by decide +kernel, by decide +kernel, by decide +kernel⟩

theorem witness_ReturnSlipsAreWrittenAndVectorsFire_9 : ∃ (s : State) (n : Nat), ((s.ring n).lost ≠ 0) ∧ ((s.ring n).events.length < 1024) :=
  ⟨running.setRing 63 { Ring.init with lost := 5 }, 63, by decide +kernel, by decide +kernel⟩

theorem witness_ReturnSlipsAreWrittenAndVectorsFire_10 : ∃ (s : State) (v : Nat) (start : Nat), (v < 64) ∧ ((s.vec v).timer = some start) ∧ (s.get (HIF.MSIX_MOD_HOLD v) ≤ s.usSince start) ∧ (s.hostFn.fnMask = false) ∧ (s.on (HIF.MSIX_CTL_MASK v) = false) ∧ (s.hostFn.open = true) :=
  ⟨{ (st [(HIF.MSIX_MOD_HOLD 63, 3), (HIF.MSIX_CTL_MASK 63, 0), (HIF.MSIX_ADDR_LO_ADDR 63, 0x400), (HIF.MSIX_DATA_DATA 63, 0xABCD)]).setVec 63 { count := 1, timer := some 0 } with hostFn := { HostFn.init with busMaster := true }, ticks := 1000 }, 63, 0, by decide +kernel, by decide +kernel, by decide +kernel, by decide +kernel, by decide +kernel, by decide +kernel⟩

theorem witness_ReturnSlipsAreWrittenAndVectorsFire_11 : ∃ (s : State) (v : Nat) (start : Nat), (v < 64) ∧ ((s.vec v).timer = some start) ∧ (s.get (HIF.MSIX_MOD_HOLD v) ≤ s.usSince start) ∧ (s.hostFn.fnMask = true ∨ s.on (HIF.MSIX_CTL_MASK v) = true) :=
  ⟨{ (st [(HIF.MSIX_MOD_HOLD 63, 3), (HIF.MSIX_CTL_MASK 63, 1)]).setVec 63 { count := 1, timer := some 0 } with ticks := 1000 }, 63, 0, by decide +kernel, by decide +kernel, by decide +kernel, by decide +kernel⟩

theorem witness_ReturnSlipsAreWrittenAndVectorsFire_12 : ∃ (s : State) (v : Nat) (start : Nat), (v < 64) ∧ ((s.vec v).timer = some start) ∧ (s.get (HIF.MSIX_MOD_HOLD v) ≤ s.usSince start) ∧ (s.hostFn.fnMask = false) ∧ (s.on (HIF.MSIX_CTL_MASK v) = false) ∧ (s.hostFn.open = false) :=
  ⟨{ (st [(HIF.MSIX_MOD_HOLD 63, 3), (HIF.MSIX_CTL_MASK 63, 0)]).setVec 63 { count := 1, timer := some 0 } with ticks := 1000, hostFn := { HostFn.init with d3 := true, busMaster := true, pmeEn := true } }, 63, 0, by decide +kernel, by decide +kernel, by decide +kernel, by decide +kernel, by decide +kernel, by decide +kernel⟩

theorem witness_ReturnSlipsAreWrittenAndVectorsFire_13 : ∃ (s : State) (v : Nat), (v < 64) ∧ (s.vecPending v = true) ∧ (s.hostFn.fnMask = false) ∧ (s.hostFn.open = true) :=
  ⟨{ (st [(HIF.MSIX_CTL_MASK 63, 1), (HIF.VEC_PEND_VECTOR 1, 2 ^ 31), (HIF.MSIX_DATA_DATA 63, 9)]) with hostFn := { HostFn.init with busMaster := true } }, 63, by decide +kernel, by decide +kernel, by decide +kernel, by decide +kernel⟩

theorem witness_ReturnSlipsAreWrittenAndVectorsFire_14 : ∃ (s : State) (v : Nat), (v < 64) ∧ (s.vecPending v = false ∨ s.hostFn.fnMask = true ∨ s.hostFn.open = false) :=
  ⟨st [(HIF.MSIX_CTL_MASK 63, 1)], 63, by decide +kernel, by decide +kernel⟩

theorem witness_ReturnSlipsAreWrittenAndVectorsFire_15 : ∃ (s : State), (s.hostFn.open = true) :=
  ⟨{ (st [(HIF.MSIX_CTL_MASK 63, 1), (HIF.MSIX_CTL_MASK 62, 0), (HIF.VEC_PEND_VECTOR 1, 0xC0000000), (HIF.MSIX_DATA_DATA 63, 9)]) with hostFn := { HostFn.init with busMaster := true, fnMask := true } }, by decide +kernel⟩

theorem witness_TheHostFunctionSleepsAndRingsAreSetUp_1 : ∃ (s : State), (∀ n, n < 64 → s.ringOn n = false) :=
  ⟨{ (st [(HIF.MSIX_CTL_MASK 63, 1), (HIF.MSIX_CTL_MASK 62, 0), (HIF.VEC_PEND_VECTOR 1, 0xC0000000), (HIF.MSIX_DATA_DATA 63, 9)]) with hostFn := { HostFn.init with d3 := true, busMaster := true, pmes := 3 } }, by decide +kernel⟩

theorem witness_TheHostFunctionSleepsAndRingsAreSetUp_2 : ∃ (s : State) (n : Nat) (r : RetSlip), (n < 64) ∧ (∀ m, m < 64 → (s.ringOn m = true ↔ m = n)) ∧ (∀ v, v < 64 → s.vecPending v = false) ∧ ((s.ring n).compl = [r]) ∧ ((s.ring n).events = []) ∧ ((s.ring n).lost = 0) ∧ (r.frees = (0, 0)) ∧ (r.opcode ≠ 0x07) ∧ (r.noIrq = true ∨ r.counted = true) ∧ (0 < s.rqFree n) ∧ (s.get (DBL.SQ_TAIL_INDEX n) = s.get (HIF.RP_STAT_SQ_HEAD n)) :=
  ⟨{ (st [(HIF.RP_CFG_ENABLE 63, 1), (HIF.RP_CFG_RQ_LOG2 63, 4), (HIF.RP_RQ_STAT_RQ_TAIL 63, 15), (DBL.RQ_HEAD_INDEX 63, 15), (HIF.RP_RQ_STAT_RQ_PHASE 63, 1)]).setRing 63 { Ring.init with compl := [(slip 0 [0x12340102, 7]).completion 0 0 [5, 6]] } with hostFn := { HostFn.init with d3 := true, busMaster := true } }, 63, (slip 0 [0x12340102, 7]).completion 0 0 [5, 6], by decide +kernel, by decide +kernel, by decide +kernel, by decide +kernel, by decide +kernel, by decide +kernel, by decide +kernel, by decide +kernel, by decide +kernel, by decide +kernel, by decide +kernel⟩

theorem witness_TheHostFunctionSleepsAndRingsAreSetUp_3 : ∃ (s : State) (n : Nat) (v : Nat), (n < 64) ∧ (s.ringOn n = false) ∧ (bitAt v 0 = true) ∧ (4 ≤ bits v 1 5 ∧ bits v 1 5 ≤ 16 ∧ 4 ≤ bits v 6 5 ∧ bits v 6 5 ≤ 16) :=
  ⟨st [(DBL.SQ_TAIL_INDEX 63, 5)], 63, 1 + 2 * 16 + 64 * 4, by decide +kernel, by decide +kernel, by decide +kernel, by decide +kernel⟩

theorem witness_TheHostFunctionSleepsAndRingsAreSetUp_4 : ∃ (s : State) (n : Nat) (v : Nat), (s.ringOn n = false) ∧ (bitAt v 0 = true) ∧ (¬(4 ≤ bits v 1 5 ∧ bits v 1 5 ≤ 16 ∧ 4 ≤ bits v 6 5 ∧ bits v 6 5 ≤ 16)) :=
  ⟨running, 63, 1 + 2 * 17 + 64 * 4, by decide +kernel, by decide +kernel, by decide +kernel⟩

theorem witness_TheHostFunctionSleepsAndRingsAreSetUp_5 : ∃ (s : State) (n : Nat) (v : Nat), (s.ringOn n = true) ∧ (bitAt v 0 = true ∨ s.on (HIF.RP_STAT_BUSY n) = true) :=
  ⟨st [(HIF.RP_CFG_ENABLE 63, 1), (HIF.RP_STAT_BUSY 63, 1)], 63, 0, by decide +kernel, by decide +kernel⟩

theorem witness_TheHostFunctionSleepsAndRingsAreSetUp_6 : ∃ (s : State) (n : Nat) (v : Nat), (s.ringOn n = true) ∧ (bitAt v 0 = false) ∧ (s.on (HIF.RP_STAT_BUSY n) = false) :=
  ⟨st [(HIF.RP_CFG_ENABLE 63, 1)], 63, 0, by decide +kernel, by decide +kernel, by decide +kernel⟩

theorem witness_TheHostFunctionSleepsAndRingsAreSetUp_7 : ∃ (s : State) (n : Nat) (v : Nat), (s.ringOn n = false) ∧ (bitAt v 0 = false) :=
  ⟨running, 63, 2 * 16 + 64 * 4, by decide +kernel, by decide +kernel⟩

theorem witness_StreamsAreOpenedChangedAndClosedBySlips_1 : ∃ (s : State) (n : Nat) (k : Nat) (pa : Nat) (fits : Bool) (u : Taken) (l : List Byte) (secs : List RawSec), (s.slipAt n k 0x01 = some u) ∧ (s.slipWaits n u = false) ∧ (u.reservedOk = true) ∧ (1 ≤ bits (u.word 1) 8 8 ∧ bits (u.word 1) 8 8 ≤ 7) ∧ (bits (u.word 1) 16 2 ≠ 3) ∧ ((s.stream u.streamField).state = .closed) ∧ ((s.taking.any fun q => q.stream == u.streamField) = false) ∧ ((s.staged.any fun q => q.stream == u.streamField) = false) ∧ (l.length = u.word 4) ∧ (s.buffer n (u.addr 2) pa l = true) ∧ (splitDescriptor (l.length / 4 + 1) l = (secs, none)) ∧ (secOf secs tyProofing = none) ∧ ((descriptorRefusal (bits (u.word 1) 8 8) (u.asks n secs).geo.codec (sectionsRequired (bits (u.word 1) 8 8) (u.asks n secs).geo.codec) secs none (s.fieldRefusals u.streamField (u.asks n secs) true secs)).isNone = true) ∧ ((!s.big && ((u.asks n secs).secs.network.any fun w => bitAt w.ports 1)) = false) ∧ (s.netRefusal u.streamField (bits (u.word 1) 8 8) (u.asks n secs).secs = none) ∧ (bits (u.word 1) 8 8 = 1 → (s.openStreams.filter fun e => e.2.kind == 1).length + (s.opening.filter fun e => e.2.1 == 1).length < 16) ∧ (s.appletOk (u.asks n secs).secs = true) ∧ (fits = true) ∧ (s.holdsIngest (u.asks n secs) = true) ∧ (s.charges.1 + ((u.asks n secs).charge s.factor).1 ≤ (s.capacity (s.sparesHeld || bits (u.word 1) 16 2 != 2)).1) ∧ (s.charges.2 + ((u.asks n secs).charge s.factor).2 ≤ (s.capacity (s.sparesHeld || bits (u.word 1) 16 2 != 2)).2) :=
  ⟨openSt 5 [slip 7 [0x12340001, 0x20203, 0x7000, 0, 48]] (rawHost 0).geo.bytes, 5, 0, 0x57000, true, slip 7 [0x12340001, 0x20203, 0x7000, 0, 48], (rawHost 0).geo.bytes, [{ ty := 1, bytes := (rawHost 0).geo.bytes }], by decide +kernel, by decide +kernel, by decide +kernel, by decide +kernel, by decide +kernel, by decide +kernel, by decide +kernel, by decide +kernel, by decide +kernel, by decide +kernel, by decide +kernel, by decide +kernel, by decide +kernel, by decide +kernel, by decide +kernel, by decide +kernel, by decide +kernel, by decide +kernel, by decide +kernel, by decide +kernel, by decide +kernel⟩

theorem witness_StreamsAreOpenedChangedAndClosedBySlips_2 : ∃ (s : State) (n : Nat) (k : Nat) (u : Taken), (s.slipAt n k 0x01 = some u) ∧ (s.slipWaits n u = false) ∧ (u.reservedOk = true) ∧ (1 ≤ bits (u.word 1) 8 8 ∧ bits (u.word 1) 8 8 ≤ 7) ∧ (bits (u.word 1) 16 2 ≠ 3) ∧ ((s.stream u.streamField).state ≠ .closed) ∧ (s.mayComplete n k u = true) :=
  ⟨(openSt 5 [slip 7 [0x12340001, 0x20203, 0x7000, 0, 48]] []).setStream 3 { Stream.init with state := .closing, kind := 2, rp := 9 }, 5, 0, slip 7 [0x12340001, 0x20203, 0x7000, 0, 48], by decide +kernel, by decide +kernel, by decide +kernel, by decide +kernel, by decide +kernel, by decide +kernel, by decide +kernel⟩

theorem witness_StreamsAreOpenedChangedAndClosedBySlips_3 : ∃ (s : State) (n : Nat) (k : Nat) (pa : Nat) (u : Taken) (l : List Byte) (secs : List RawSec) (f : Nat × Nat), (s.slipAt n k 0x01 = some u) ∧ (s.slipWaits n u = false) ∧ (u.reservedOk = true) ∧ (1 ≤ bits (u.word 1) 8 8 ∧ bits (u.word 1) 8 8 ≤ 7) ∧ (bits (u.word 1) 16 2 ≠ 3) ∧ ((s.stream u.streamField).state = .closed) ∧ ((s.taking.any fun q => q.stream == u.streamField) = false) ∧ (l.length = u.word 4) ∧ (s.buffer n (u.addr 2) pa l = true) ∧ (splitDescriptor (l.length / 4 + 1) l = (secs, none)) ∧ (secOf secs tyProofing = none) ∧ (descriptorRefusal (bits (u.word 1) 8 8) (u.asks n secs).geo.codec (sectionsRequired (bits (u.word 1) 8 8) (u.asks n secs).geo.codec) secs none (s.fieldRefusals u.streamField (u.asks n secs) true secs) = some f) ∧ (s.mayComplete n k u = true) :=
  ⟨openSt 5 [slip 7 [0x12340001, 0x20203, 0x7000, 0, 48]] (rawHost 3).geo.bytes, 5, 0, 0x57000, slip 7 [0x12340001, 0x20203, 0x7000, 0, 48], (rawHost 3).geo.bytes, [{ ty := 1, bytes := (rawHost 3).geo.bytes }], (1, 23), by decide +kernel, by decide +kernel, by decide +kernel, by decide +kernel, by decide +kernel, by decide +kernel, by decide +kernel, by decide +kernel, by decide +kernel, by decide +kernel, by decide +kernel, by decide +kernel, by decide +kernel⟩

theorem witness_StreamsAreOpenedChangedAndClosedBySlips_4 : ∃ (s : State) (n : Nat) (k : Nat) (pa : Nat) (fits : Bool) (u : Taken) (l : List Byte) (secs : List RawSec), (s.slipAt n k 0x01 = some u) ∧ (s.slipWaits n u = false) ∧ (u.reservedOk = true) ∧ (1 ≤ bits (u.word 1) 8 8 ∧ bits (u.word 1) 8 8 ≤ 7) ∧ (bits (u.word 1) 8 8 = 1 → (s.openStreams.filter fun e => e.2.kind == 1).length + (s.opening.filter fun e => e.2.1 == 1).length < 16) ∧ (bits (u.word 1) 16 2 ≠ 3) ∧ ((s.stream u.streamField).state = .closed) ∧ ((s.taking.any fun q => q.stream == u.streamField) = false) ∧ (l.length = u.word 4) ∧ (s.buffer n (u.addr 2) pa l = true) ∧ (splitDescriptor (l.length / 4 + 1) l = (secs, none)) ∧ (secOf secs tyProofing = none) ∧ ((descriptorRefusal (bits (u.word 1) 8 8) (u.asks n secs).geo.codec (sectionsRequired (bits (u.word 1) 8 8) (u.asks n secs).geo.codec) secs none (s.fieldRefusals u.streamField (u.asks n secs) true secs)).isNone = true) ∧ ((!s.big && ((u.asks n secs).secs.network.any fun w => bitAt w.ports 1)) = false) ∧ (s.netRefusal u.streamField (bits (u.word 1) 8 8) (u.asks n secs).secs = none) ∧ (s.appletOk (u.asks n secs).secs = true) ∧ (fits = true) ∧ (s.holdsIngest (u.asks n secs) = true) ∧ ((s.capacity (s.sparesHeld || bits (u.word 1) 16 2 != 2)).1 < s.charges.1 + ((u.asks n secs).charge s.factor).1 ∨ (s.capacity (s.sparesHeld || bits (u.word 1) 16 2 != 2)).2 < s.charges.2 + ((u.asks n secs).charge s.factor).2) ∧ (s.mayComplete n k u = true) :=
  ⟨{ openSt 5 [slip 7 [0x12340001, 0x20203, 0x7000, 0, 48]] (rawHost 0).geo.bytes with gone := (68, 0) }, 5, 0, 0x57000, true, slip 7 [0x12340001, 0x20203, 0x7000, 0, 48], (rawHost 0).geo.bytes, [{ ty := 1, bytes := (rawHost 0).geo.bytes }], by decide +kernel, by decide +kernel, by decide +kernel, by decide +kernel, by decide +kernel, by decide +kernel, by decide +kernel, by decide +kernel, by decide +kernel, by decide +kernel, by decide +kernel, by decide +kernel, by decide +kernel, by decide +kernel, by decide +kernel, by decide +kernel, by decide +kernel, by decide +kernel, by decide +kernel, by decide +kernel⟩

theorem witness_StreamsAreOpenedChangedAndClosedBySlips_5 : ∃ (s : State) (n : Nat) (k : Nat) (pa : Nat) (u : Taken) (l : List Byte) (secs : List RawSec) (x : Stream), (s.slipAt n k 0x03 = some u) ∧ (bitAt (u.word 1) 8 = false) ∧ (s.slipWaits n u = false) ∧ (u.reservedOk = true) ∧ (s.streamFor n u [1, 2, 3, 4, 5, 6, 7] = true) ∧ ((s.taking ++ s.staged).all (fun q => q.stream != u.streamField) = true) ∧ (x = s.stream u.streamField) ∧ (l.length = u.word 4) ∧ (s.buffer n (u.addr 2) pa l = true) ∧ (splitDescriptor (l.length / 4 + 1) l = (secs, none)) ∧ (secOf secs tyProofing = none) ∧ (fixedChanged x.kind x { x with secs := x.secs.withSecs secs [] [] } secs = false) ∧ ((descriptorRefusal x.kind x.geo.codec [] secs none (s.fieldRefusals u.streamField { x with secs := x.secs.withSecs secs [] [] } false secs)).isNone = true) ∧ ({ x with secs := x.secs.withSecs secs [] [] }.charge s.factor = (x.cu, x.su) ∨ (s.charges.1 + ({ x with secs := x.secs.withSecs secs [] [] }.charge s.factor).1 ≤ (s.capacity s.sparesHeld).1 + x.cu ∧ s.charges.2 + ({ x with secs := x.secs.withSecs secs [] [] }.charge s.factor).2 ≤ (s.capacity s.sparesHeld).2 + x.su)) :=
  ⟨(openSt 5 [slip 7 [0x12340003, 3, 0x7000, 0, 12]] eventsSec).setStream 3 { (rawHost 0) with rp := 5, state := .opened, cu := 10000000, su := 10000000 }, 5, 0, 0x57000, slip 7 [0x12340003, 3, 0x7000, 0, 12], eventsSec, [{ ty := 5, bytes := eventsSec }], { (rawHost 0) with rp := 5, state := .opened, cu := 10000000, su := 10000000 }, by decide +kernel, by decide +kernel, by decide +kernel, by decide +kernel, by decide +kernel, by decide +kernel, by decide +kernel, by decide +kernel, by decide +kernel, by decide +kernel, by decide +kernel, by decide +kernel, by decide +kernel, by decide +kernel⟩

theorem witness_StreamsAreOpenedChangedAndClosedBySlips_6 : ∃ (s : State) (n : Nat) (k : Nat) (pa : Nat) (u : Taken) (l : List Byte) (secs : List RawSec) (x : Stream), (s.slipAt n k 0x03 = some u) ∧ (bitAt (u.word 1) 8 = false) ∧ (s.slipWaits n u = false) ∧ (u.reservedOk = true) ∧ (s.streamFor n u [1, 2, 3, 4, 5, 6, 7] = true) ∧ ((s.taking ++ s.staged).all (fun q => q.stream != u.streamField) = true) ∧ (x = s.stream u.streamField) ∧ (l.length = u.word 4) ∧ (s.buffer n (u.addr 2) pa l = true) ∧ (splitDescriptor (l.length / 4 + 1) l = (secs, none)) ∧ (secOf secs tyProofing = none) ∧ ((typeRefusal x.kind x.geo.codec secs none).isNone = true) ∧ (fixedChanged x.kind x { x with secs := x.secs.withSecs secs [] [] } secs = true) ∧ (s.mayComplete n k u = true) :=
  ⟨(openSt 5 [slip 7 [0x12340003, 3, 0x7000, 0, 48]] (rawHost 1).geo.bytes).setStream 3 { (rawHost 0) with rp := 5, state := .opened, cu := 10000000, su := 10000000 }, 5, 0, 0x57000, slip 7 [0x12340003, 3, 0x7000, 0, 48], (rawHost 1).geo.bytes, [{ ty := 1, bytes := (rawHost 1).geo.bytes }], { (rawHost 0) with rp := 5, state := .opened, cu := 10000000, su := 10000000 }, by decide +kernel, by decide +kernel, by decide +kernel, by decide +kernel, by decide +kernel, by decide +kernel, by decide +kernel, by decide +kernel, by decide +kernel, by decide +kernel, by decide +kernel, by decide +kernel, by decide +kernel, by decide +kernel⟩

theorem witness_StreamsAreOpenedChangedAndClosedBySlips_7 : ∃ (s : State) (n : Nat) (k : Nat) (u : Taken), (s.slipAt n k 0x03 = some u) ∧ (bitAt (u.word 1) 8 = false) ∧ (s.slipWaits n u = false) ∧ (u.reservedOk = true) ∧ (s.streamFor n u [1, 2, 3, 4, 5, 6, 7] = false) ∧ (s.mayComplete n k u = true) :=
  ⟨(openSt 5 [slip 7 [0x12340003, 3, 0x7000, 0, 12]] []).setStream 3 { (rawHost 0) with rp := 6, state := .opened }, 5, 0, slip 7 [0x12340003, 3, 0x7000, 0, 12], by decide +kernel, by decide +kernel, by decide +kernel, by decide +kernel, by decide +kernel, by decide +kernel⟩

theorem witness_StreamsAreOpenedChangedAndClosedBySlips_8 : ∃ (s : State) (n : Nat) (k : Nat) (pa : Nat) (v : Nat) (u : Taken), (s.slipAt n k 0x03 = some u) ∧ (bitAt (u.word 1) 8 = true) ∧ (s.slipWaits n u = false) ∧ (u.reservedOk = true) ∧ (u.word 4 = 8) ∧ (s.buffer n (u.addr 2) pa [0x20, 0, 8, 0, BitVec.ofNat 8 v, 0, 0, 0] = true) ∧ (v ≤ 2) ∧ (s.factor ≤ paceFactor v) ∧ (v = 1 → s.on CNS.CNS_STAT_PACE_LIMITED = false) :=
  ⟨openSt 5 [slip 7 [0x12340003, 0x100, 0x7000, 0, 8]] [0x20, 0, 8, 0, 0, 0, 0, 0], 5, 0, 0x57000, 0, slip 7 [0x12340003, 0x100, 0x7000, 0, 8], by decide +kernel, by decide +kernel, by decide +kernel, by decide +kernel, by decide +kernel, by decide +kernel, by decide +kernel, by decide +kernel, by decide +kernel⟩

theorem witness_StreamsAreOpenedChangedAndClosedBySlips_9 : ∃ (s : State) (n : Nat) (k : Nat) (m : Nat) (u : Taken), (s.slipAt n k 0x02 = some u) ∧ (u.reservedOk = true) ∧ (bitAt (u.word 1) 8 = false) ∧ (u.streamField = m) ∧ (s.streamFor n u [1, 2, 3, 4, 5, 6, 7] = true) ∧ (s.flowsOf m = []) ∧ ((s.stream m).dec.waiting = []) ∧ (s.staged.all (fun q => q.stream != m && !q.developsFrom m) = true) ∧ ((s.openStreams.any fun e => e.2.isDeveloped && e.2.geo.source == m && e.2.state == .opened && e.1 != m) = false) :=
  ⟨(openSt 5 [slip 7 [0x12340002, 3]] []).setStream 3 { (rawHost 0) with rp := 5, state := .opened }, 5, 0, 3, slip 7 [0x12340002, 3], by decide +kernel, by decide +kernel, by decide +kernel, by decide +kernel, by decide +kernel, by decide +kernel, by decide +kernel, by decide +kernel, by decide +kernel⟩

theorem witness_StreamsAreOpenedChangedAndClosedBySlips_10 : ∃ (s : State) (n : Nat) (k : Nat) (m : Nat) (u : Taken), (s.slipAt n k 0x02 = some u) ∧ (u.reservedOk = true) ∧ (bitAt (u.word 1) 8 = true) ∧ (u.streamField = m) ∧ (s.streamFor n u [2, 3, 5, 6] = true) ∧ ((s.stream m).pics = []) ∧ (s.earlier n k = []) ∧ (s.flowsOf m = []) ∧ ((s.stream m).dec.waiting = []) ∧ (s.staged.all (fun q => q.stream != m && !q.developsFrom m) = true) ∧ ((s.openStreams.any fun e => e.2.isDeveloped && e.2.geo.source == m && e.2.state == .opened && e.1 != m) = false) :=
  ⟨(openSt 5 [slip 7 [0x12340002, 0x103]] []).setStream 3 { (rawHost 0) with rp := 5, state := .opened }, 5, 0, 3, slip 7 [0x12340002, 0x103], by decide +kernel, by decide +kernel, by decide +kernel, by decide +kernel, by decide +kernel, by decide +kernel, by decide +kernel, by decide +kernel, by decide +kernel, by decide +kernel, by decide +kernel⟩

theorem witness_StreamsAreOpenedChangedAndClosedBySlips_11 : ∃ (s : State) (n : Nat) (e : Nat) (last : Nat) (rp : Nat) (id : Nat) (u : Taken), ((s.stream n).closeEpoch = some e) ∧ ((s.stream n).state = .closing) ∧ ((s.stream n).toClose = none) ∧ ((s.stream n).lastReleased = some last) ∧ ((s.stream n).closeSlip = some (rp, id)) ∧ ((s.ring rp).byId id = some u) ∧ (u.op = 0x02) ∧ (u.streamField = n) ∧ (s.flowsOf n = []) ∧ (s.stateDue n = false) ∧ ((s.openStreams.any fun d => d.2.isDeveloped && d.2.geo.source == n && d.1 != n) = false) :=
  ⟨(openSt 5 [slip 7 [0x12340002, 3]] []).setStream 3 { (rawHost 0) with rp := 5, state := .closing, cu := 40, su := 50, closeEpoch := some 9, lastReleased := some 41, closeSlip := some (5, 7) }, 3, 9, 41, 5, 7, slip 7 [0x12340002, 3], by decide +kernel, by decide +kernel, by decide +kernel, by decide +kernel, by decide +kernel, by decide +kernel, by decide +kernel, by decide +kernel, by decide +kernel, by decide +kernel, by decide +kernel⟩

theorem witness_StreamsAreOpenedChangedAndClosedBySlips_12 : ∃ (s : State) (n : Nat) (e : Nat) (last : Nat) (x : Stream), (s.stream n = x) ∧ (x.closeEpoch = some e) ∧ (x.state = .closing) ∧ (x.toClose = none) ∧ (x.lastReleased = some last) ∧ (x.closeSlip = none) ∧ (x.isDeveloped = true) ∧ (s.flowsOf n = []) ∧ (s.stateDue n = false) ∧ ((s.openStreams.any fun d => d.2.isDeveloped && d.2.geo.source == n && d.1 != n) = false) ∧ ((s.ring x.eventRing).lost = 0) ∧ ((s.ring x.eventRing).events.length < 1024) ∧ (s.mayWrite x.eventRing = false ∨ (s.ring x.eventRing).compl ≠ []) :=
  ⟨running.setStream 3 { (rawHost 0) with kind := 7, rp := 5, state := .closing, closeEpoch := some 9, lastReleased := some 41 }, 3, 9, 41, { (rawHost 0) with kind := 7, rp := 5, state := .closing, closeEpoch := some 9, lastReleased := some 41 }, by decide +kernel, by decide +kernel, by decide +kernel, by decide +kernel, by decide +kernel, by decide +kernel, by decide +kernel, by decide +kernel, by decide +kernel, by decide +kernel, by decide +kernel, by decide +kernel, by decide +kernel⟩

theorem witness_StreamsAreOpenedChangedAndClosedBySlips_13 : ∃ (s : State) (n : Nat) (e : Nat) (last : Nat) (x : Stream), (s.stream n = x) ∧ (x.closeEpoch = some e) ∧ (x.state = .closing) ∧ (x.toClose = none) ∧ (x.lastReleased = some last) ∧ (x.closeSlip = none) ∧ (x.isDeveloped = true) ∧ (s.flowsOf n = []) ∧ (s.stateDue n = false) ∧ ((s.openStreams.any fun d => d.2.isDeveloped && d.2.geo.source == n && d.1 != n) = false) ∧ ((s.ring x.eventRing).lost = 0) ∧ ((s.ring x.eventRing).compl = []) ∧ ((s.ring x.eventRing).events.length < 1024) ∧ (s.mayWrite x.eventRing = true) ∧ ((s.ring x.eventRing).events.length < s.rqFree x.eventRing) :=
  ⟨{ running.setStream 3 { (rawHost 0) with kind := 7, rp := 5, state := .closing, closeEpoch := some 9, lastReleased := some 41 } |>.put (HIF.RP_CFG_ENABLE 5) 1 |>.put (HIF.RP_CFG_RQ_LOG2 5) 4 with hostFn := { HostFn.init with busMaster := true } }, 3, 9, 41, { (rawHost 0) with kind := 7, rp := 5, state := .closing, closeEpoch := some 9, lastReleased := some 41 }, by decide +kernel, by decide +kernel, by decide +kernel, by decide +kernel, by decide +kernel, by decide +kernel, by decide +kernel, by decide +kernel, by decide +kernel, by decide +kernel, by decide +kernel, by decide +kernel, by decide +kernel, by decide +kernel, by decide +kernel⟩

theorem witness_StreamsAreOpenedChangedAndClosedBySlips_14 : ∃ (s : State) (n : Nat) (e : Nat) (a : Applet), ((s.stream n).closeEpoch = some e) ∧ ((s.stream n).state = .closing) ∧ ((s.stream n).toClose = some a) ∧ (s.flowsIdle n = true) ∧ (s.stateDue n = false) ∧ ((s.openStreams.any fun d => d.2.isDeveloped && d.2.geo.source == n && d.1 != n) = false) :=
  ⟨running.setStream 3 { (rawHost 0) with rp := 5, state := .closing, closeEpoch := some 9, applet := some { active := true, log := [], image := { id := 9, magic := 0, abi := 1, addr := 0x4000, len := 64, entries := [0, 8, 16, 24], dataSize := 4096 }, hart := 2, dataAt := 8192, argsAt := 4096, call := none, queue := [] } }, 3, 9, { active := true, log := [], image := { id := 9, magic := 0, abi := 1, addr := 0x4000, len := 64, entries := [0, 8, 16, 24], dataSize := 4096 }, hart := 2, dataAt := 8192, argsAt := 4096, call := none, queue := [] }, by decide +kernel, by decide +kernel, by decide +kernel, by decide +kernel, by decide +kernel, by decide +kernel⟩

theorem witness_StreamsAreOpenedChangedAndClosedBySlips_15 : ∃ (s : State) (n : Nat) (k : Nat) (m : Nat) (u : Taken), (s.slipAt n k 0x06 = some u) ∧ (u.verdict = none) ∧ (u.reservedOk = true) ∧ (bitAt (u.word 1) 8 = false) ∧ (u.streamField = m) ∧ (s.streamFor n u [1, 2, 3, 4, 5, 6, 7] = true) ∧ (((s.earlier n k).any fun e => sameStream u e && e.op == 0x06) = false) ∧ ((s.stream m).dec.waiting = []) :=
  ⟨(openSt 5 [slip 7 [0x12340006, 3]] []).setStream 3 { (rawHost 0) with rp := 5, state := .opened, nextPic := 8 }, 5, 0, 3, slip 7 [0x12340006, 3], by decide +kernel, by decide +kernel, by decide +kernel, by decide +kernel, by decide +kernel, by decide +kernel, by decide +kernel, by decide +kernel⟩

theorem witness_StreamsAreOpenedChangedAndClosedBySlips_16 : ∃ (s : State) (n : Nat) (k : Nat) (m : Nat) (u : Taken) (e : Taken), ((s.ring n).taken[k]? = some u) ∧ (u.op = 0x06) ∧ (u.started = false ∧ u.verdict = none) ∧ (u.reservedOk = true) ∧ (u.flags = 0) ∧ (bitAt (u.word 1) 8 = true) ∧ (u.streamField = m) ∧ (s.streamFor n u [1, 2, 3, 4, 5, 6, 7] = true) ∧ (s.earlier n k = [e]) ∧ (sameStream u e = true) ∧ (e.op ≠ 0x06) ∧ (e.started = false ∧ e.verdict = none) ∧ (e.id ≠ u.id) ∧ (s.staged.all (fun q => q.stream != m) = true) ∧ ((s.stream m).dec.waiting = []) :=
  ⟨(openSt 5 [slip 6 [0x12340008, 3], slip 7 [0x12340006, 0x103]] []).setStream 3 { (rawHost 0) with rp := 5, state := .opened, nextPic := 8 }, 5, 1, 3, slip 7 [0x12340006, 0x103], slip 6 [0x12340008, 3], by decide +kernel, by decide +kernel, by decide +kernel, by decide +kernel, by decide +kernel, by decide +kernel, by decide +kernel, by decide +kernel, by decide +kernel, by decide +kernel, by decide +kernel, by decide +kernel, by decide +kernel, by decide +kernel, by decide +kernel⟩

theorem witness_StreamsAreOpenedChangedAndClosedBySlips_17 : ∃ (s : State) (n : Nat) (k : Nat) (m : Nat) (c : Nat) (upto : Nat) (r : Nat) (u : Taken), ((s.ring n).taken[k]? = some u) ∧ (u.op = 0x06) ∧ (u.started = true ∧ u.verdict = none) ∧ (u.streamField = m) ∧ ((s.stream m).flush = some (c, upto)) ∧ (s.mayComplete n k u = true) ∧ ((s.stream m).flushDone upto = true) ∧ ((s.stream m).pics = []) ∧ ((s.stream m).eventRing = r) ∧ (r ≠ n) ∧ (r < 64) ∧ ((s.ring r).compl = []) ∧ ((s.ring r).lost = 0) ∧ (s.mayWrite r = true) ∧ ((s.ring r).events.length ≤ s.rqFree r) ∧ (s.hostFn.fnMask = false) ∧ (s.on (HIF.MSIX_CTL_MASK (s.get (HIF.RP_CFG_VECTOR r))) = false) :=
  ⟨{ ((openSt 5 [{ slip 7 [0x12340006, 3] with started := true }] []).setStream 3 { (rawHost 0) with rp := 5, state := .opened, nextPic := 8, flush := some (0, 8), secs := { (rawHost 0).secs with events := some { ring := 6, readTimeout := 100, pictureEvents := 1 } } }).setRing 6 { Ring.init with events := [eventSlip 0 (some 3) 1 0 []] } |>.put (HIF.RP_CFG_ENABLE 6) 1 |>.put (HIF.RP_CFG_RQ_LOG2 6) 4 |>.put (HIF.MSIX_CTL_MASK 0) 0 with hostFn := { HostFn.init with busMaster := true } }, 5, 0, 3, 0, 8, 6, { slip 7 [0x12340006, 3] with started := true }, by decide +kernel, by decide +kernel, by decide +kernel, by decide +kernel, by decide +kernel, by decide +kernel, by decide +kernel, by decide +kernel, by decide +kernel, by decide +kernel, by decide +kernel, by decide +kernel, by decide +kernel, by decide +kernel, by decide +kernel, by decide +kernel, by decide +kernel⟩

theorem witness_EpochsBeginAndAreTaken_1 : ∃ (s : State), (s.cat.taking = none) ∧ (s.on HIF.HIF_STAT_READY = true) ∧ ((s.staged.all fun q => match q.what with | .setS _ _ _ => (s.stream q.stream).atBoundary | _ => true) = true) ∧ (s.staged ≠ [] ∨ s.closings ≠ []) :=
  ⟨{ (st [(HIF.HIF_STAT_READY, 1), (CAT.EPOCH_VALUE, 0xFFFFFFFF)]).setStream 3 { (rawHost 0) with rp := 5, state := .opened } with staged := [{ rp := 5, id := 7, stream := 3, what := .setS Sections.empty 1 2 }] }, by decide +kernel, by decide +kernel, by decide +kernel, by decide +kernel⟩

theorem witness_EpochsBeginAndAreTaken_2 : ∃ (s : State), (s.cat.taking.isSome = true ∨ s.on HIF.HIF_STAT_READY = false ∨ (s.staged = [] ∧ s.closings = []) ∨ (s.staged.any fun q => match q.what with | .setS _ _ _ => !(s.stream q.stream).atBoundary | _ => false) = true) :=
  ⟨running, by decide +kernel⟩

theorem witness_EpochsBeginAndAreTaken_3 : ∃ (s : State) (e : Nat) (tk : Nat) (cu : Nat) (su : Nat) (kind : Nat) (prot : Nat) (sub : Bool) (secs : Sections) (lim : TileLimit) (q : Staged) (u : Taken), (s.cat.taking = some (e, tk)) ∧ (s.taking = [q]) ∧ (q.what = .openS kind prot sub secs lim cu su) ∧ (2 ≤ kind) ∧ (secs.network = none) ∧ (secs.proof = none) ∧ ((s.openStreams.all fun x => x.2.secs.proof.isNone) = true) ∧ ((s.ring q.rp).byId q.id = some u) ∧ (∀ r, secs.rate = some r → r.applet = 0) ∧ ((openedStream kind prot q.rp s.freeSlot sub secs lim cu su).isDeveloped = true → (s.stream (openedStream kind prot q.rp s.freeSlot sub secs lim cu su).geo.source).state = .opened) :=
  ⟨{ openSt 5 [slip 7 [0x12340001, 0x20203, 0x7000, 0, 48]] [] with cat := { Catalogue.init with taking := some (9, 0) }, taking := [{ rp := 5, id := 7, stream := 3, what := .openS 2 2 false (rawHost 0).secs { cols := 1, rows := 1 } 12 34 }] }, 9, 0, 12, 34, 2, 2, false, (rawHost 0).secs, { cols := 1, rows := 1 }, { rp := 5, id := 7, stream := 3, what := .openS 2 2 false (rawHost 0).secs { cols := 1, rows := 1 } 12 34 }, slip 7 [0x12340001, 0x20203, 0x7000, 0, 48], by decide +kernel, by decide +kernel, by decide +kernel, by decide +kernel, by decide +kernel, by decide +kernel, by decide +kernel, by decide +kernel, by decide +kernel, by decide +kernel⟩

theorem witness_EpochsBeginAndAreTaken_4 : ∃ (s : State) (e : Nat) (tk : Nat) (cu : Nat) (su : Nat) (secs : Sections) (q : Staged) (u : Taken), (s.cat.taking = some (e, tk)) ∧ (s.taking = [q]) ∧ (q.what = .setS secs cu su) ∧ ((s.stream q.stream).pics = []) ∧ (secs.proof = none) ∧ ((s.openStreams.all fun x => x.2.secs.proof.isNone) = true) ∧ ((s.ring q.rp).byId q.id = some u) :=
  ⟨{ (openSt 5 [slip 7 [0x12340003, 3, 0x7000, 0, 48]] []).setStream 3 { (rawHost 0) with rp := 5, state := .opened } with cat := { Catalogue.init with taking := some (9, 0) }, taking := [{ rp := 5, id := 7, stream := 3, what := .setS (rawHost 0).secs 12 34 }] }, 9, 0, 12, 34, (rawHost 0).secs, { rp := 5, id := 7, stream := 3, what := .setS (rawHost 0).secs 12 34 }, slip 7 [0x12340003, 3, 0x7000, 0, 48], by decide +kernel, by decide +kernel, by decide +kernel, by decide +kernel, by decide +kernel, by decide +kernel, by decide +kernel⟩

theorem witness_EpochsBeginAndAreTaken_5 : ∃ (s : State) (e : Nat) (tk : Nat) (cu : Nat) (su : Nat) (secs : Sections) (q : Staged), (s.cat.taking = some (e, tk)) ∧ (s.taking = [q]) ∧ (q.what = .setS secs cu su) ∧ (secs.proof = none) ∧ ((s.openStreams.all fun x => x.2.secs.proof.isNone) = true) :=
  ⟨{ (openSt 5 [slip 7 [0x12340003, 3, 0x7000, 0, 48]] []).setStream 3 { (rawHost 0) with rp := 5, state := .opened, pics := [Pic.fresh 6 true 4 0] } with cat := { Catalogue.init with taking := some (9, 0) }, taking := [{ rp := 5, id := 7, stream := 3, what := .setS (rawHost 0).secs 12 34 }] }, 9, 0, 12, 34, (rawHost 0).secs, { rp := 5, id := 7, stream := 3, what := .setS (rawHost 0).secs 12 34 }, by decide +kernel, by decide +kernel, by decide +kernel, by decide +kernel, by decide +kernel⟩

theorem witness_EpochsBeginAndAreTaken_6 : ∃ (s : State) (e : Nat) (tk : Nat) (q : Staged), (s.cat.taking = some (e, tk)) ∧ (s.taking = [q]) ∧ (q.what = .closeS) ∧ ((s.stream q.stream).pics = []) ∧ ((s.openStreams.all fun x => x.2.secs.proof.isNone) = true) :=
  ⟨{ running.setStream 3 { (rawHost 0) with rp := 5, state := .closing } with cat := { Catalogue.init with taking := some (9, 0) }, taking := [{ rp := 5, id := 7, stream := 3, what := .closeS }] }, 9, 0, { rp := 5, id := 7, stream := 3, what := .closeS }, by decide +kernel, by decide +kernel, by decide +kernel, by decide +kernel, by decide +kernel⟩

theorem witness_EpochsBeginAndAreTaken_7 : ∃ (s : State) (e : Nat) (tk : Nat) (u : Nat), (s.cat.taking = some (e, tk)) ∧ (1000 ≤ s.usSince tk) ∧ ((s.catUnit u).waiting = true) ∧ (s.rgs.raises u 2 = false) ∧ (s.power.held = false) ∧ (s.taking = []) ∧ (s.unitEnabled u = true) ∧ (0x100 ≤ u ∧ u < 0x140) :=
  ⟨{ running.setCatUnit 0x100 { CatUnit.init with waiting := true } with ticks := 250000, cat := { (running.setCatUnit 0x100 { CatUnit.init with waiting := true }).cat with taking := some (9, 0) } }, 9, 0, 0x100, by decide +kernel, by decide +kernel, by decide +kernel, by decide +kernel, by decide +kernel, by decide +kernel, by decide +kernel, by decide +kernel⟩

theorem witness_FusesLoadAndTheWindowOpens_1 : ∃ (s : State) (f : FuseLoad), (s.power.held = false) ∧ (s.on FUS.FUS_STAT_LOADED = false) ∧ (s.on FUS.FUS_STAT_FUSE_FAIL = false) ∧ (f.failed % 256 ≠ 0) ∧ (s.get FUS.FUS_STAT_ATTEMPTS < 2) :=
  ⟨st [(FUS.FUS_STAT_ATTEMPTS, 1)], { failed := 0x81, uid := [], slots := [], profile := 0, debug := 0, deny := [], counter := 0, baseline := [], tj := 0 }, by decide +kernel, by decide +kernel, by decide +kernel, by decide +kernel, by decide +kernel⟩

theorem witness_FusesLoadAndTheWindowOpens_2 : ∃ (s : State) (f : FuseLoad), (s.power.held = false) ∧ (s.on FUS.FUS_STAT_LOADED = false) ∧ (s.on FUS.FUS_STAT_FUSE_FAIL = false) ∧ (f.failed % 256 ≠ 0) ∧ (s.get FUS.FUS_STAT_ATTEMPTS = 2) :=
  ⟨st [(FUS.FUS_STAT_ATTEMPTS, 2)], { failed := 0x80, uid := [], slots := [], profile := 0, debug := 0, deny := [], counter := 0, baseline := [], tj := 0 }, by decide +kernel, by decide +kernel, by decide +kernel, by decide +kernel, by decide +kernel⟩

theorem witness_FusesLoadAndTheWindowOpens_3 : ∃ (s : State) (f : FuseLoad), (s.power.held = false) ∧ (s.on FUS.FUS_STAT_LOADED = false) ∧ (s.on FUS.FUS_STAT_FUSE_FAIL = false) ∧ (f.failed % 256 = 0) ∧ (f.uid.length = 4) :=
  ⟨running, { failed := 0, uid := [1, 2, 3, 2 ^ 32 - 1], slots := [List.replicate 12 5, List.replicate 12 6], profile := 7, debug := 1, deny := [1, 7], counter := 5, baseline := [], tj := 300 }, by decide +kernel, by decide +kernel, by decide +kernel, by decide +kernel, by decide +kernel⟩

theorem witness_FusesLoadAndTheWindowOpens_4 : ∃ (s : State), (s.power.held = false) ∧ (s.get KPR.BOOT_STAT_STAGE = 2) ∧ (s.on DRC.DRC_STAT_READY = true) ∧ (s.keeperOut = false) :=
  ⟨{ st [(KPR.BOOT_STAT_STAGE, 2), (DRC.DRC_STAT_READY, 1), (DRC.DRC_CFG_USABLE_MIB, 8192)] with dram := [(7872 * 2 ^ 20 + 5, 3#8)] }, by decide +kernel, by decide +kernel, by decide +kernel, by decide +kernel⟩

theorem witness_FusesLoadAndTheWindowOpens_5 : ∃ (s0 : State) (s : State) (off : Nat) (data : List Byte), (s = s0.linkActivity) ∧ (s0.power.held = false) ∧ (s0.pwState ≠ pwVault) ∧ (s.windowTakes off data.length = true) ∧ (s.sound (s.downloadBase + off) data.length = true) :=
  ⟨st [(KPR.BOOT_STAT_WINDOW_OPEN, 1), (DRC.DRC_STAT_READY, 1), (DRC.DRC_CFG_USABLE_MIB, 8192)], (st [(KPR.BOOT_STAT_WINDOW_OPEN, 1), (DRC.DRC_STAT_READY, 1), (DRC.DRC_CFG_USABLE_MIB, 8192)]).linkActivity, 62, [1#8, 2#8, 3#8], by decide +kernel, by decide +kernel, by decide +kernel, by decide +kernel, by decide +kernel⟩

theorem witness_FusesLoadAndTheWindowOpens_6 : ∃ (s0 : State) (s : State) (off : Nat) (data : List Byte), (s = s0.linkActivity) ∧ (s0.power.held = false) ∧ (s0.pwState ≠ pwVault) ∧ (s.windowTakes off data.length = false) :=
  ⟨st [(KPR.BOOT_STAT_WINDOW_OPEN, 1)], (st [(KPR.BOOT_STAT_WINDOW_OPEN, 1)]).linkActivity, 0x03FFE000, [1#8], by decide +kernel, by decide +kernel, by decide +kernel, by decide +kernel⟩

theorem witness_FusesLoadAndTheWindowOpens_7 : ∃ (s : State), (s.on KPR.BOOT_STAT_COUNTER_PENDING = false) :=
  ⟨running, by decide +kernel⟩

theorem witness_FusesLoadAndTheWindowOpens_8 : ∃ (s : State) (svn : Nat), (s.on KPR.BOOT_STAT_COUNTER_PENDING = true) ∧ (s.keeper.advance = some svn) ∧ (s.counter < svn) :=
  ⟨{ st [(KPR.BOOT_STAT_COUNTER_PENDING, 1)] with keeper := { Keeper.init with blown := 5, advance := some 3 } }, 3, by decide +kernel, by decide +kernel, by decide +kernel⟩

theorem witness_MailboxRequestsAreAnswered_1 : ∃ (s : State) (word : Nat), (s.power.held = false) ∧ (s.pwState ≠ pwVault) ∧ (bitAt word 31 = true) ∧ (s.on KPR.MBX_STAT_BUSY = true) :=
  ⟨st [(KPR.MBX_STAT_BUSY, 1)], 0x80000105, by decide +kernel, by decide +kernel, by decide +kernel, by decide +kernel⟩

theorem witness_MailboxRequestsAreAnswered_2 : ∃ (s : State) (h : Bool) (word : Nat) (r : MbxReq), (s.bar0Up = true) ∧ ((s.heard h).mailbox word r 0 = true) :=
  ⟨mbxSt 6 0x12345 0 0 [] [], true, 2 ^ 31, mbxReq 6 0x12345 0 0 [], by decide +kernel, by decide +kernel⟩

theorem witness_MailboxRequestsAreAnswered_3 : ∃ (s : State) (word : Nat) (r : MbxReq), (s.power.held = false) ∧ (s.pwState ≠ pwVault) ∧ (bitAt word 31 = false) ∧ (bitAt word 8 = false) ∧ (s.keeper.asked = some r) ∧ (s.sound (responseOff + s.downloadBase) 64 = true) ∧ (r.op = 0 ∨ 5 < r.op) :=
  ⟨{ st [(DRC.DRC_CFG_USABLE_MIB, 8192), (KPR.MBX_STAT_BUSY, 1)] with keeper := { Keeper.init with asked := some (mbxReq 6 0x12345 0 0 []) } }, 0, mbxReq 6 0x12345 0 0 [], by decide +kernel, by decide +kernel, by decide +kernel, by decide +kernel, by decide +kernel, by decide +kernel, by decide +kernel⟩

theorem witness_MailboxRequestsAreAnswered_4 : ∃ (s : State) (word : Nat) (r : MbxReq), (s.mailbox word r 0 = true) ∧ (r.op = 0 ∨ 5 < r.op) :=
  ⟨mbxSt 6 0x12345 0 0 [] [], 2 ^ 31, mbxReq 6 0x12345 0 0 [], by decide +kernel, by decide +kernel⟩

theorem witness_MailboxRequestsAreAnswered_5 : ∃ (s : State) (word : Nat) (r : MbxReq), (s.mailbox word r 0 = true) ∧ (1 ≤ r.op ∧ r.op ≤ 5) :=
  ⟨mbxSt 5 0x12345 0 0 [] [], 2 ^ 31, mbxReq 5 0x12345 0 0 [], by decide +kernel, by decide +kernel⟩

theorem witness_MailboxRequestsAreAnswered_6 : ∃ (s : State) (word : Nat) (r : MbxReq), (s.mailbox word r 0 = true) ∧ (r.op = 5) ∧ (s.keeperOut = true) :=
  ⟨(mbxSt 5 7 0 0 [] []).putBit (RGS.FAULT_MAP 0) 0xD0 true, 2 ^ 31, mbxReq 5 7 0 0 [], by decide +kernel, by decide +kernel, by decide +kernel⟩

theorem witness_MailboxRequestsAreAnswered_7 : ∃ (s : State) (word : Nat) (r : MbxReq) (cs : List Crypto) (b : Loading), (s.mailbox word r 0 = true) ∧ (r.op = 1) ∧ (s.keeperOut = false) ∧ (s.on KPR.BOOT_STAT_WINDOW_OPEN = true) ∧ (s.keeper.launched = none) ∧ (1 ≤ r.arg0 ∧ r.arg0 ≤ windowLen) ∧ (s.sound s.downloadBase r.arg0 = true) ∧ (b = s.verifyFrom 18 (s.dramBytes s.downloadBase r.arg0) cs { done := [], plains := [], core := [], advance := none, applets := [], next := s.secureBase }) :=
  ⟨mbxSt 1 7 0 64 [] [(KPR.BOOT_STAT_WINDOW_OPEN, 1)], 2 ^ 31, mbxReq 1 7 0 64 [], [], { done := [{ kind := 0, slot := 0, result := mbBadHeader, svn := 0, applet := 0, version := 0, hash := sha384 [] }], plains := [], core := [], advance := none, applets := [], next := 7936 * 2 ^ 20 }, by decide +kernel, by decide +kernel, by decide +kernel, by decide +kernel, by decide +kernel, by decide +kernel, by decide +kernel, by decide +kernel⟩

theorem witness_MailboxRequestsAreAnswered_8 : ∃ (s : State) (word : Nat) (r : MbxReq), (s.mailbox word r 0 = true) ∧ (r.op = 1) ∧ (s.keeperOut = false) ∧ (s.on KPR.BOOT_STAT_WINDOW_OPEN = false ∨ s.keeper.launched.isSome = true) :=
  ⟨mbxSt 1 7 0 64 [] [], 2 ^ 31, mbxReq 1 7 0 64 [], by decide +kernel, by decide +kernel, by decide +kernel, by decide +kernel⟩

theorem witness_MailboxRequestsAreAnswered_9 : ∃ (s : State) (word : Nat) (r : MbxReq), (s.mailbox word r 0 = true) ∧ (r.op = 1) ∧ (s.keeperOut = false) ∧ (s.on KPR.BOOT_STAT_WINDOW_OPEN = true) ∧ (s.keeper.launched = none) ∧ (r.arg0 = 0 ∨ windowLen < r.arg0) :=
  ⟨mbxSt 1 7 0 0 [] [(KPR.BOOT_STAT_WINDOW_OPEN, 1)], 2 ^ 31, mbxReq 1 7 0 0 [], by decide +kernel, by decide +kernel, by decide +kernel, by decide +kernel, by decide +kernel, by decide +kernel⟩

theorem witness_MailboxRequestsAreAnswered_10 : ∃ (s : State) (word : Nat) (r : MbxReq) (macOk : Bool), (s.mailbox word r 0 = true) ∧ (r.op = 2) ∧ (s.keeperOut = false) ∧ (s.puttable = true) ∧ (r.len ≤ 8128) ∧ (s.recordOk r.data = true ∧ macOk = true) ∧ (s.on KPR.BOOT_STAT_ALIVE = false) :=
  ⟨mbxSt 2 7 108 0 (beBytes 4 0x41475244 ++ beBytes 2 1 ++ beBytes 2 108 ++ List.replicate 23 0#8 ++ [9#8] ++ List.replicate 76 1#8) [(CNS.CNS_STAT_STATE, csBaseline)], 2 ^ 31, mbxReq 2 7 108 0 (beBytes 4 0x41475244 ++ beBytes 2 1 ++ beBytes 2 108 ++ List.replicate 23 0#8 ++ [9#8] ++ List.replicate 76 1#8), true, by decide +kernel, by decide +kernel, by decide +kernel, by decide +kernel, by decide +kernel, by decide +kernel, by decide +kernel⟩

theorem witness_MailboxRequestsAreAnswered_11 : ∃ (s : State) (word : Nat) (r : MbxReq) (macOk : Bool), (s.mailbox word r 0 = true) ∧ (r.op = 2) ∧ (s.keeperOut = false) ∧ (s.puttable = true) ∧ (r.len ≤ 8128) ∧ (s.recordOk r.data = true ∧ macOk = true) ∧ (s.on KPR.BOOT_STAT_ALIVE = true) :=
  ⟨mbxSt 2 7 108 0 (beBytes 4 0x41475244 ++ beBytes 2 1 ++ beBytes 2 108 ++ List.replicate 23 0#8 ++ [9#8] ++ List.replicate 76 1#8) [(CNS.CNS_STAT_STATE, csBaseline), (KPR.BOOT_STAT_ALIVE, 1)], 2 ^ 31, mbxReq 2 7 108 0 (beBytes 4 0x41475244 ++ beBytes 2 1 ++ beBytes 2 108 ++ List.replicate 23 0#8 ++ [9#8] ++ List.replicate 76 1#8), true, by decide +kernel, by decide +kernel, by decide +kernel, by decide +kernel, by decide +kernel, by decide +kernel, by decide +kernel⟩

theorem witness_MailboxRequestsAreAnswered_12 : ∃ (s : State) (word : Nat) (r : MbxReq) (macOk : Bool), (s.mailbox word r 0 = true) ∧ (r.op = 2) ∧ (s.keeperOut = false) ∧ (s.puttable = true) ∧ (r.len ≤ 8128) ∧ (s.recordOk r.data = false ∨ macOk = false) :=
  ⟨mbxSt 2 7 0 0 [] [(CNS.CNS_STAT_STATE, csBaseline)], 2 ^ 31, mbxReq 2 7 0 0 [], true, by decide +kernel, by decide +kernel, by decide +kernel, by decide +kernel, by decide +kernel, by decide +kernel⟩

theorem witness_MailboxRequestsAreAnswered_13 : ∃ (s : State) (word : Nat) (r : MbxReq), (s.mailbox word r 4096 = true) ∧ (r.op = 3) ∧ (s.keeperOut = false) ∧ (s.on KPR.BOOT_STAT_ALIVE = true) :=
  ⟨mbxSt 3 7 0 0 [] [(KPR.BOOT_STAT_ALIVE, 1)], 2 ^ 31, mbxReq 3 7 0 0 [], by decide +kernel, by decide +kernel, by decide +kernel, by decide +kernel⟩

theorem witness_MailboxRequestsAreAnswered_14 : ∃ (s : State) (word : Nat) (r : MbxReq), (s.mailbox word r 0 = true) ∧ (r.op = 3) ∧ (s.keeperOut = false) ∧ (s.on KPR.BOOT_STAT_ALIVE = false) :=
  ⟨mbxSt 3 7 0 0 [] [], 2 ^ 31, mbxReq 3 7 0 0 [], by decide +kernel, by decide +kernel, by decide +kernel, by decide +kernel⟩

theorem witness_MailboxRequestsAreAnswered_15 : ∃ (s : State) (word : Nat) (r : MbxReq), (s.mailbox word r 0 = true) ∧ (r.op = 4) ∧ (s.keeperOut = false) ∧ (s.on KPR.BOOT_STAT_ALIVE = true) ∧ (r.len = 32) ∧ (r.arg0 % 64 = 0 ∧ r.arg0 + (s.reportBody r.data).length + 16608 ≤ windowLen) ∧ (s.sound (s.downloadBase + r.arg0) ((s.reportBody r.data).length + 16608) = true) :=
  ⟨mbxSt 4 7 32 64 (List.replicate 32 5#8) [(KPR.BOOT_STAT_ALIVE, 1)], 2 ^ 31, mbxReq 4 7 32 64 (List.replicate 32 5#8), by decide +kernel, by decide +kernel, by decide +kernel, by decide +kernel, by decide +kernel, by decide +kernel, by decide +kernel⟩

theorem witness_MailboxRequestsAreAnswered_16 : ∃ (s : State) (word : Nat) (r : MbxReq), (s.mailbox word r 0 = true) ∧ (r.op = 4) ∧ (s.keeperOut = false) ∧ (s.on KPR.BOOT_STAT_ALIVE = true) ∧ (r.len ≠ 32) :=
  ⟨mbxSt 4 7 0 64 [] [(KPR.BOOT_STAT_ALIVE, 1)], 2 ^ 31, mbxReq 4 7 0 64 [], by decide +kernel, by decide +kernel, by decide +kernel, by decide +kernel, by decide +kernel⟩

theorem witness_MailboxRequestsAreAnswered_17 : ∃ (s : State) (word : Nat) (r : MbxReq), (s.mailbox word r 0 = true) ∧ (r.op = 5) ∧ (s.keeperOut = false) ∧ (s.on KPR.BOOT_STAT_ALIVE = true) ∧ (r.arg0 % 64 = 0 ∧ r.arg0 + 452 ≤ windowLen) ∧ (s.sound (s.downloadBase + r.arg0) 452 = true) :=
  ⟨mbxSt 5 7 0 64 [] [(KPR.BOOT_STAT_ALIVE, 1)], 2 ^ 31, mbxReq 5 7 0 64 [], by decide +kernel, by decide +kernel, by decide +kernel, by decide +kernel, by decide +kernel, by decide +kernel⟩

theorem witness_MailboxRequestsAreAnswered_18 : ∃ (s : State) (word : Nat) (r : MbxReq), (s.mailbox word r 0 = true) ∧ (r.op = 5) ∧ (s.keeperOut = false) ∧ (s.on KPR.BOOT_STAT_ALIVE = true) ∧ (r.arg0 % 64 ≠ 0 ∨ windowLen < r.arg0 + 452) :=
  ⟨mbxSt 5 7 0 63 [] [(KPR.BOOT_STAT_ALIVE, 1)], 2 ^ 31, mbxReq 5 7 0 63 [], by decide +kernel, by decide +kernel, by decide +kernel, by decide +kernel, by decide +kernel⟩

theorem witness_FirmwareIsLaunchedAndComesAlive_1 : ∃ (s : State) (j : LoadJob) (seq : Nat), (s.keeper.load = some j) ∧ (s.keeper.req = some seq) ∧ (j.status ≠ mbOk) ∧ (s.power.held = false) ∧ (s.keeperOut = false) ∧ (s.on KPR.MBX_CTL_IRQ = false) ∧ (s.sound (responseOff + s.downloadBase) (64 + (loadReport j.containers).length) = true) :=
  ⟨{ st [(DRC.DRC_CFG_USABLE_MIB, 8192)] with keeper := { Keeper.init with req := some 7, load := some { containers := [{ kind := 1, slot := 0, result := 0x10, svn := 3, applet := 0, version := 0, hash := [] }], status := 0x10, advance := none, measurement := [], plains := [], applets := [], car := [], scb := [] } } }, { containers := [{ kind := 1, slot := 0, result := 0x10, svn := 3, applet := 0, version := 0, hash := [] }], status := 0x10, advance := none, measurement := [], plains := [], applets := [], car := [], scb := [] }, 7, by decide +kernel, by decide +kernel, by decide +kernel, by decide +kernel, by decide +kernel, by decide +kernel, by decide +kernel⟩

theorem witness_FirmwareIsLaunchedAndComesAlive_2 : ∃ (s : State) (j : LoadJob) (seq : Nat), (s.keeper.load = some j) ∧ (s.keeper.req = some seq) ∧ (j.status = mbOk) ∧ (s.power.held = false) ∧ (s.keeperOut = false) ∧ (s.on KPR.MBX_CTL_IRQ = false) ∧ (s.sound (responseOff + s.downloadBase) (64 + (loadReport j.containers).length) = true) ∧ (j.plains = []) :=
  ⟨{ st [(DRC.DRC_CFG_USABLE_MIB, 8192)] with keeper := { Keeper.init with req := some 7, load := some { containers := [{ kind := 1, slot := 0, result := 0, svn := 3, applet := 0, version := 0, hash := [] }], status := 0, advance := none, measurement := [1#8], plains := [], applets := [], car := [(3, 7)], scb := [] } } }, { containers := [{ kind := 1, slot := 0, result := 0, svn := 3, applet := 0, version := 0, hash := [] }], status := 0, advance := none, measurement := [1#8], plains := [], applets := [], car := [(3, 7)], scb := [] }, 7, by decide +kernel, by decide +kernel, by decide +kernel, by decide +kernel, by decide +kernel, by decide +kernel, by decide +kernel, by decide +kernel⟩

theorem witness_FirmwareIsLaunchedAndComesAlive_3 : ∃ (s : State) (key : Nat), (key % 65536 = 0x5A17) ∧ (s.power.held = false) ∧ (s.keeper.launched.isSome = true) ∧ (s.on KPR.BOOT_STAT_ALIVE = false) ∧ (s.keeper.record = none) :=
  ⟨{ st [(KPR.BOOT_STAT_FAILED_STARTS, 3), (KPR.BOOT_STAT_RECOVERY, 1)] with keeper := { Keeper.init with launched := some 0 }, ticks := 500000 }, 0x5A17, by decide +kernel, by decide +kernel, by decide +kernel, by decide +kernel, by decide +kernel⟩

theorem witness_FirmwareIsLaunchedAndComesAlive_4 : ∃ (s : State), (s.power.held = false) ∧ (s.power.refclk = true) ∧ (s.on KPR.BOOT_STAT_ALIVE = false) ∧ (s.on FUS.FUS_STAT_FUSE_FAIL = false) ∧ (s.pwState ≠ pwVault) ∧ (s.on KPR.BOOT_STAT_RECOVERY = false) ∧ (3000000 ≤ s.usSince s.keeper.startTick) :=
  ⟨{ running with ticks := 800000000 }, by decide +kernel, by decide +kernel, by decide +kernel, by decide +kernel, by decide +kernel, by decide +kernel, by decide +kernel⟩

theorem witness_FirmwareIsLaunchedAndComesAlive_5 : ∃ (s : State) (tk : Nat), (s.power.held = false) ∧ (s.on KPR.BOOT_STAT_ALIVE = false) ∧ (s.on FUS.FUS_STAT_FUSE_FAIL = false) ∧ (s.pwState ≠ pwVault) ∧ (s.on KPR.BOOT_STAT_RECOVERY = true) ∧ (s.keeper.launched = some tk) ∧ (3000000 ≤ s.usSince tk) :=
  ⟨{ st [(KPR.BOOT_STAT_RECOVERY, 1)] with ticks := 800000000, keeper := { Keeper.init with launched := some 0 } }, 0, by decide +kernel, by decide +kernel, by decide +kernel, by decide +kernel, by decide +kernel, by decide +kernel, by decide +kernel⟩

theorem witness_FirmwareIsLaunchedAndComesAlive_6 : ∃ (s : State), (s.power.held = false) ∧ (s.keeperOut = false) ∧ (s.pwState ≠ pwVault) ∧ ((match s.keeper.mismatch with | some t => decide (s.usSince t < 1000000) | none => false) = false) ∧ (s.rgs.raises 0xD0 1 = false) :=
  ⟨running, by decide +kernel, by decide +kernel, by decide +kernel, by decide +kernel, by decide +kernel⟩

theorem witness_FirmwareIsLaunchedAndComesAlive_7 : ∃ (s : State) (tk : Nat), (s.power.held = false) ∧ (s.keeperOut = false) ∧ (s.pwState ≠ pwVault) ∧ (s.keeper.mismatch = some tk) ∧ (s.usSince tk < 1000000) ∧ (s.rgs.raises 0xD0 3 = false) :=
  ⟨{ running with keeper := { Keeper.init with mismatch := some 5 }, ticks := 9 }, 5, by decide +kernel, by decide +kernel, by decide +kernel, by decide +kernel, by decide +kernel, by decide +kernel⟩

theorem witness_HostPicturesAreTakenInAndDecoded_1 : ∃ (s : State) (n : Nat) (k : Nat) (m : Nat) (u : Taken) (x : Stream) (v : Ycc × Nat × Bool), (s.slipAt n k 0x04 = some u) ∧ (s.slipWaits n u = false) ∧ (u.reservedOk = true) ∧ (s.streamFor n u [2, 5] = true) ∧ (u.streamField = m) ∧ (s.stream m = x) ∧ (u.word 4 % 64 = 0 ∧ 2 * x.geo.width ≤ u.word 4) ∧ (x.nextPic < 2 ^ 32) ∧ ((s.readPicture n u x).2 = some v) ∧ ((s.readPicture n u x).1.streams = s.streams ∧ (s.readPicture n u x).1.rings = s.rings) ∧ (s.developed m = []) ∧ ((s.openStreams.all fun e => e.2.pics.all fun p => p.src != some (m, x.nextPic)) = true) ∧ (x.nextPic = 0 ∨ x.rated = false) :=
  ⟨(openSt 5 [slip 7 [0x12340004, 3, 0x7000, 0, 64, 0, 0, 0, 0xFFFFFFFF, 0xFFFFFFFF, 0xFFFFFFFF]] [0xFF#8, 0xFF#8]).setStream 3 tiny, 5, 0, 3, slip 7 [0x12340004, 3, 0x7000, 0, 64, 0, 0, 0, 0xFFFFFFFF, 0xFFFFFFFF, 0xFFFFFFFF], tiny, ({ y := [[4095, 0], [0, 0]], cb := [], cr := [] }, 1, false), by decide +kernel, by decide +kernel, by decide +kernel, by decide +kernel, by decide +kernel, by decide +kernel, by decide +kernel, by decide +kernel, by decide +kernel, by decide +kernel, by decide +kernel, by decide +kernel, by decide +kernel⟩

theorem witness_HostPicturesAreTakenInAndDecoded_2 : ∃ (s : State) (n : Nat) (k : Nat) (u : Taken), (s.slipAt n k 0x04 = some u) ∧ (s.slipWaits n u = false) ∧ (u.reservedOk = true) ∧ (s.streamFor n u [2, 5] = true) ∧ (u.word 4 % 64 ≠ 0 ∨ u.word 4 < 2 * (s.stream u.streamField).geo.width) ∧ (s.mayComplete n k u = true) :=
  ⟨(openSt 5 [slip 7 [0x12340004, 3, 0x7000, 0, 63]] []).setStream 3 tiny, 5, 0, slip 7 [0x12340004, 3, 0x7000, 0, 63], by decide +kernel, by decide +kernel, by decide +kernel, by decide +kernel, by decide +kernel, by decide +kernel⟩

theorem witness_HostPicturesAreTakenInAndDecoded_3 : ∃ (s : State) (n : Nat) (k : Nat) (u : Taken), (s.slipAt n k 0x04 = some u) ∧ (s.slipWaits n u = false) ∧ (u.reservedOk = true) ∧ (s.streamFor n u [2, 5] = true) ∧ (u.word 4 % 64 = 0 ∧ 2 * (s.stream u.streamField).geo.width ≤ u.word 4) ∧ (2 ^ 32 ≤ (s.stream u.streamField).nextPic) ∧ (s.mayComplete n k u = true) :=
  ⟨(openSt 5 [slip 7 [0x12340004, 3, 0x7000, 0, 64]] []).setStream 3 { tiny with nextPic := 2 ^ 32 }, 5, 0, slip 7 [0x12340004, 3, 0x7000, 0, 64], by decide +kernel, by decide +kernel, by decide +kernel, by decide +kernel, by decide +kernel, by decide +kernel, by decide +kernel⟩

theorem witness_HostPicturesAreTakenInAndDecoded_4 : ∃ (s : State) (n : Nat) (k : Nat) (u : Taken), (s.slipAt n k 0x04 = some u) ∧ (s.slipWaits n u = false) ∧ (u.reservedOk = true) ∧ (s.streamFor n u [2, 5] = false) ∧ (s.mayComplete n k u = true) :=
  ⟨(openSt 5 [slip 7 [0x12340004, 3, 0x7000, 0, 64]] []).setStream 3 { tiny with kind := 1 }, 5, 0, slip 7 [0x12340004, 3, 0x7000, 0, 64], by decide +kernel, by decide +kernel, by decide +kernel, by decide +kernel, by decide +kernel⟩

theorem witness_HostPicturesAreTakenInAndDecoded_5 : ∃ (s : State) (s1 : State) (n : Nat) (k : Nat) (m : Nat) (u : Taken) (x : Stream) (au : CodecAu) (input : List Byte) (bad : Bool) (p : ParamSet) (d : Decoder), (s.slipAt n k 0x05 = some u) ∧ (s.slipWaits n u = false) ∧ (u.reservedOk = true) ∧ (s.streamFor n u [6] = true) ∧ (u.streamField = m) ∧ (s.stream m = x) ∧ (s.touched m = false) ∧ (s.slipRead n u (u.addr 2) (u.word 4) = (s1, some (input, bad))) ∧ (s1.streams = s.streams ∧ s1.rings = s.rings ∧ s1.mmu.queue = s.mmu.queue ∧ s1.mmu.outside = s.mmu.outside) ∧ (d = ((x.dec.receive au.sets).release au).enter au) ∧ ((x.dec.receive au.sets).active x.geo.codec au = some p) ∧ (p.refused x.geo = false) ∧ (x.dec.started = true ∨ startsAt (bitAt x.geo.flags 0) au = true) ∧ (au.rasl = false ∨ ((x.dec.receive au.sets).enter au).dropRasl = false) ∧ (2 * p.width ≤ u.word 8) ∧ (x.dec.waiting = []) ∧ (au.shown = true ∧ d.from' = none) ∧ (s1.power.held = false) ∧ (1 ≤ p.reorder) :=
  ⟨decSt, decSt, 5, 0, 3, slip 7 [0x12340005, 3, 0x7000, 0, 0, 0x8000, 0, 1024, 64, 0x8100, 0, 16], tinyDec, { au0 with sets := [vps0, { sps0 with reorder := 1 }, pps0] }, [], false, { sps0 with reorder := 1 }, ((tinyDec.dec.receive [vps0, { sps0 with reorder := 1 }, pps0]).release { au0 with sets := [vps0, { sps0 with reorder := 1 }, pps0] }).enter { au0 with sets := [vps0, { sps0 with reorder := 1 }, pps0] }, by decide +kernel, by decide +kernel, by decide +kernel, by decide +kernel, by decide +kernel, by decide +kernel, by decide +kernel, by decide +kernel, by decide +kernel, by decide +kernel, by decide +kernel, by decide +kernel, by decide +kernel, by decide +kernel, by decide +kernel, by decide +kernel, by decide +kernel, by decide +kernel, by decide +kernel⟩

theorem witness_HostPicturesAreTakenInAndDecoded_6 : ∃ (s : State) (s1 : State) (s2 : State) (n : Nat) (k : Nat) (m : Nat) (u : Taken) (x : Stream) (au : CodecAu) (input : List Byte) (bad : Bool) (p : ParamSet) (d : Decoder) (q : DpbPic) (rows : Rows) (ps : List (List (Nat × Nat) × List Byte)), (s.slipAt n k 0x05 = some u) ∧ (s.slipWaits n u = false) ∧ (u.reservedOk = true) ∧ (s.streamFor n u [6] = true) ∧ (u.streamField = m) ∧ (s.stream m = x) ∧ (s.touched m = false) ∧ (s.slipRead n u (u.addr 2) (u.word 4) = (s1, some (input, bad))) ∧ (s1.streams = s.streams ∧ s1.rings = s.rings ∧ s1.mmu.queue = s.mmu.queue ∧ s1.mmu.outside = s.mmu.outside) ∧ (d = ((x.dec.receive au.sets).release au).enter au) ∧ ((x.dec.receive au.sets).active x.geo.codec au = some p) ∧ (p.refused x.geo = false) ∧ (x.dec.started = true ∨ startsAt (bitAt x.geo.flags 0) au = true) ∧ (au.rasl = false ∨ ((x.dec.receive au.sets).enter au).dropRasl = false) ∧ (2 * p.width ≤ u.word 8) ∧ (x.dec.waiting = []) ∧ (au.shown = true ∧ d.from' = none) ∧ (s1.power.held = false) ∧ (p.reorder = 0) ∧ (bad = false) ∧ (q = d.decode p au [] 0) ∧ (rows = q.y ++ q.cb ++ q.cr) ∧ (outputLen (u.word 8) rows.length ((rows.getLast?.getD []).length) ≤ u.word 7) ∧ (q.map.length ≤ u.word 11) ∧ (q.map ≠ []) ∧ (au.hashBad = false) ∧ ((s.ring n).byId u.id = some u ∧ (s.ring n).placeOf u.id = some k) ∧ ((match ((s1.setStream m { x with dec := Decoder.tidy { d with dpb := { d.decode p au [] (if bad then 2 ^ 11 else 0) with slip := some (n, u.id) } :: d.dpb.map fun v => if v.slip.isSome then { v with age := v.age + 1 } else v } }).startSlip n u).outPieces n (fitRows (u.addr 5) (u.word 8) (u.word 7) rows ++ [(u.addr 9, q.map.take (u.word 11))]) with | (q, .ok l) => decide (q = s2) && decide (l = ps) | (_, .error _) => false) = true) ∧ ((ps.all fun q => q.1.all fun r => s2.aperture r.1 == some 8) = true) ∧ (s.mayComplete n k u = true) :=
  ⟨decSt, decSt, (((decSt.setStream 3 { tinyDec with dec := Decoder.tidy { (((tinyDec.dec.receive au0.sets).release au0).enter au0) with dpb := [{ (((tinyDec.dec.receive au0.sets).release au0).enter au0).decode sps0 au0 [] 0 with slip := some (5, 7) }] } }).startSlip 5 (slip 7 [0x12340005, 3, 0x7000, 0, 0, 0x8000, 0, 1024, 64, 0x8100, 0, 16])).outPieces 5 [(0x8000, [9#8, 0#8]), (0x8100, [0#8])]).1, 5, 0, 3, slip 7 [0x12340005, 3, 0x7000, 0, 0, 0x8000, 0, 1024, 64, 0x8100, 0, 16], tinyDec, au0, [], false, sps0, ((tinyDec.dec.receive au0.sets).release au0).enter au0, (((tinyDec.dec.receive au0.sets).release au0).enter au0).decode sps0 au0 [] 0, [[9]], [([(0x400000003000, 2)], [9#8, 0#8]), ([(0x400000003100, 1)], [0#8])], by decide +kernel, by decide +kernel, by decide +kernel, by decide +kernel, by decide +kernel, by decide +kernel, by decide +kernel, by decide +kernel, by decide +kernel, by decide +kernel, by decide +kernel, by decide +kernel, by decide +kernel, by decide +kernel, by decide +kernel, by decide +kernel, by decide +kernel, by decide +kernel, by decide +kernel, by decide +kernel, by decide +kernel, by decide +kernel, by decide +kernel, by decide +kernel, by decide +kernel, by decide +kernel, by decide +kernel, by decide +kernel, by decide +kernel, by decide +kernel⟩

theorem witness_HostPicturesAreTakenInAndDecoded_7 : ∃ (s : State) (s1 : State) (n : Nat) (k : Nat) (m : Nat) (u : Taken) (x : Stream) (au : CodecAu) (input : List Byte) (bad : Bool) (p : ParamSet) (d : Decoder) (q : DpbPic) (rows : Rows), (s.slipAt n k 0x05 = some u) ∧ (s.slipWaits n u = false) ∧ (u.reservedOk = true) ∧ (s.streamFor n u [6] = true) ∧ (u.streamField = m) ∧ (s.stream m = x) ∧ (s.touched m = false) ∧ (s.slipRead n u (u.addr 2) (u.word 4) = (s1, some (input, bad))) ∧ (s1.streams = s.streams ∧ s1.rings = s.rings ∧ s1.mmu.queue = s.mmu.queue ∧ s1.mmu.outside = s.mmu.outside) ∧ (d = ((x.dec.receive au.sets).release au).enter au) ∧ ((x.dec.receive au.sets).active x.geo.codec au = some p) ∧ (p.refused x.geo = false) ∧ (x.dec.started = true ∨ startsAt (bitAt x.geo.flags 0) au = true) ∧ (au.rasl = false ∨ ((x.dec.receive au.sets).enter au).dropRasl = false) ∧ (2 * p.width ≤ u.word 8) ∧ (x.dec.waiting = []) ∧ (au.shown = true ∧ d.from' = none) ∧ (s1.power.held = false) ∧ (p.reorder = 0) ∧ (q = d.decode p au [] (if bad then 2 ^ 11 else 0)) ∧ (rows = q.y ++ q.cb ++ q.cr) ∧ (u.word 7 = 0 ∧ u.word 11 = 0) ∧ (q.map ≠ []) ∧ ((s.ring n).byId u.id = some u ∧ (s.ring n).placeOf u.id = some k) ∧ (s.mayComplete n k u = true) :=
  ⟨decSt.setRing 5 { Ring.init with taken := [slip 7 [0x12340005, 3, 0x7000, 0, 0, 0x8000, 0, 0, 64]] }, decSt.setRing 5 { Ring.init with taken := [slip 7 [0x12340005, 3, 0x7000, 0, 0, 0x8000, 0, 0, 64]] }, 5, 0, 3, slip 7 [0x12340005, 3, 0x7000, 0, 0, 0x8000, 0, 0, 64], tinyDec, au0, [], false, sps0, ((tinyDec.dec.receive au0.sets).release au0).enter au0, (((tinyDec.dec.receive au0.sets).release au0).enter au0).decode sps0 au0 [] 0, [[9]], by decide +kernel, by decide +kernel, by decide +kernel, by decide +kernel, by decide +kernel, by decide +kernel, by decide +kernel, by decide +kernel, by decide +kernel, by decide +kernel, by decide +kernel, by decide +kernel, by decide +kernel, by decide +kernel, by decide +kernel, by decide +kernel, by decide +kernel, by decide +kernel, by decide +kernel, by decide +kernel, by decide +kernel, by decide +kernel, by decide +kernel, by decide +kernel, by decide +kernel⟩

theorem witness_HostPicturesAreTakenInAndDecoded_8 : ∃ (s : State) (s1 : State) (n : Nat) (k : Nat) (m : Nat) (u : Taken) (x : Stream) (au : CodecAu) (input : List Byte) (bad : Bool), (s.slipAt n k 0x05 = some u) ∧ (s.slipWaits n u = false) ∧ (u.reservedOk = true) ∧ (s.streamFor n u [6] = true) ∧ (u.streamField = m) ∧ (s.stream m = x) ∧ (s.touched m = false) ∧ (s.slipRead n u (u.addr 2) (u.word 4) = (s1, some (input, bad))) ∧ (s1.streams = s.streams ∧ s1.rings = s.rings ∧ s1.mmu.queue = s.mmu.queue ∧ s1.mmu.outside = s.mmu.outside) ∧ ((match (x.dec.receive au.sets).active x.geo.codec au with | none => true | some p => !p.refused x.geo && ((!x.dec.started && !startsAt (bitAt x.geo.flags 0) au) || (au.rasl && ((x.dec.receive au.sets).enter au).dropRasl))) = true) ∧ (s.mayComplete n k u = true) :=
  ⟨decSt.setStream 3 { tinyDec with dec := Decoder.init }, decSt.setStream 3 { tinyDec with dec := Decoder.init }, 5, 0, 3, slip 7 [0x12340005, 3, 0x7000, 0, 0, 0x8000, 0, 1024, 64, 0x8100, 0, 16], { tinyDec with dec := Decoder.init }, au0, [], false, by decide +kernel, by decide +kernel, by decide +kernel, by decide +kernel, by decide +kernel, by decide +kernel, by decide +kernel, by decide +kernel, by decide +kernel, by decide +kernel, by decide +kernel⟩

theorem witness_HostPicturesAreTakenInAndDecoded_9 : ∃ (s : State) (s1 : State) (n : Nat) (k : Nat) (m : Nat) (u : Taken) (x : Stream) (au : CodecAu) (input : List Byte) (bad : Bool) (p : ParamSet), (s.slipAt n k 0x05 = some u) ∧ (s.slipWaits n u = false) ∧ (u.reservedOk = true) ∧ (s.streamFor n u [6] = true) ∧ (u.streamField = m) ∧ (s.stream m = x) ∧ (s.touched m = false) ∧ (s.slipRead n u (u.addr 2) (u.word 4) = (s1, some (input, bad))) ∧ (s1.streams = s.streams ∧ s1.rings = s.rings ∧ s1.mmu.queue = s.mmu.queue ∧ s1.mmu.outside = s.mmu.outside) ∧ ((x.dec.receive au.sets).active x.geo.codec au = some p) ∧ (p.refused x.geo = true) ∧ (s.mayComplete n k u = true) :=
  ⟨decSt, decSt, 5, 0, 3, slip 7 [0x12340005, 3, 0x7000, 0, 0, 0x8000, 0, 1024, 64, 0x8100, 0, 16], tinyDec, { au0 with sets := [vps0, { sps0 with depth := 12 }, pps0] }, [], false, { sps0 with depth := 12 }, by decide +kernel, by decide +kernel, by decide +kernel, by decide +kernel, by decide +kernel, by decide +kernel, by decide +kernel, by decide +kernel, by decide +kernel, by decide +kernel, by decide +kernel, by decide +kernel⟩

theorem witness_HostPicturesAreTakenInAndDecoded_10 : ∃ (s : State) (s1 : State) (n : Nat) (k : Nat) (m : Nat) (u : Taken) (x : Stream) (lost : List (Nat × Nat)) (input : List Byte) (bad : Bool), (s.slipAt n k 0x05 = some u) ∧ (s.slipWaits n u = false) ∧ (u.reservedOk = true) ∧ (s.streamFor n u [3] = true) ∧ (u.streamField = m) ∧ (s.stream m = x) ∧ (s.touched m = false) ∧ (x.kind = 3) ∧ (s.slipRead n u (u.addr 2) (u.word 4) = (s1, some (input, bad))) ∧ (s1.streams = s.streams ∧ s1.rings = s.rings) ∧ ((x.kdec.decode input (lost.map (·.1))).2.isNone = true) ∧ (s.mayComplete n k u = true) :=
  ⟨decSt.setStream 3 { tinyDec with kind := 3 }, decSt.setStream 3 { tinyDec with kind := 3 }, 5, 0, 3, slip 7 [0x12340005, 3, 0x7000, 0, 0, 0x8000, 0, 1024, 64, 0x8100, 0, 16], { tinyDec with kind := 3 }, [], [], false, by decide +kernel, by decide +kernel, by decide +kernel, by decide +kernel, by decide +kernel, by decide +kernel, by decide +kernel, by decide +kernel, by decide +kernel, by decide +kernel, by decide +kernel, by decide +kernel⟩

theorem witness_HostPicturesAreTakenInAndDecoded_11 : ∃ (s : State) (s1 : State) (n : Nat) (k : Nat) (m : Nat) (u : Taken) (x : Stream) (input : List Byte) (d : KDec) (o : KDecOut), (s.slipAt n k 0x05 = some u) ∧ (s.slipWaits n u = false) ∧ (u.reservedOk = true) ∧ (s.streamFor n u [3] = true) ∧ (u.streamField = m) ∧ (s.stream m = x) ∧ (s.touched m = false) ∧ (x.kind = 3) ∧ (s.slipRead n u (u.addr 2) (u.word 4) = (s1, some (input, false))) ∧ (s1.streams = s.streams ∧ s1.rings = s.rings) ∧ (x.kdec.decode input [] = (d, some o)) ∧ (s1.power.held = false) ∧ (2 * o.seq.width ≤ u.word 8) ∧ (u.word 7 = 0 ∧ u.word 11 = 0) ∧ (o.map ≠ []) ∧ ((s.ring n).byId u.id = some u ∧ (s.ring n).placeOf u.id = some k) ∧ (s.mayComplete n k u = true) :=
  ⟨(decSt.setStream 3 { tinyDec with kind := 3, kdec := { KDec.init with seq := some tinySeq } }).setRing 5 { Ring.init with taken := [slip 7 [0x12340005, 3, 0x7000, 0, 0, 0x8000, 0, 0, 64]] }, (decSt.setStream 3 { tinyDec with kind := 3, kdec := { KDec.init with seq := some tinySeq } }).setRing 5 { Ring.init with taken := [slip 7 [0x12340005, 3, 0x7000, 0, 0, 0x8000, 0, 0, 64]] }, 5, 0, 3, slip 7 [0x12340005, 3, 0x7000, 0, 0, 0x8000, 0, 0, 64], { tinyDec with kind := 3, kdec := { KDec.init with seq := some tinySeq } }, [], (({ KDec.init with seq := some tinySeq } : KDec).decode [] []).1, (({ KDec.init with seq := some tinySeq } : KDec).decode [] []).2.get (by decide +kernel), by decide +kernel, by decide +kernel, by decide +kernel, by decide +kernel, by decide +kernel, by decide +kernel, by decide +kernel, by decide +kernel, by decide +kernel, by decide +kernel, by decide +kernel, by decide +kernel, by decide +kernel, by decide +kernel, by decide +kernel, by decide +kernel, by decide +kernel⟩

theorem witness_TakesAreOpenedMarkedAndStopped_1 : ∃ (s : State) (n : Nat) (k : Nat) (m : Nat) (u : Taken), (s.slipAt n k 0x07 = some u) ∧ (u.streamField = m) ∧ (recordFieldsOk u = true) ∧ (s.recordRefusal n u = none) :=
  ⟨(bndSt readyFields mag0 []).setRing 5 { Ring.init with taken := [slip 7 [0x12340007, 3, 9, 0x41, 0, 0, 0, 0xFFFFFFFF, 0]] }, 5, 0, 3, slip 7 [0x12340007, 3, 9, 0x41, 0, 0, 0, 0xFFFFFFFF, 0], by decide +kernel, by decide +kernel, by decide +kernel, by decide +kernel⟩

theorem witness_TakesAreOpenedMarkedAndStopped_2 : ∃ (s : State) (n : Nat) (k : Nat) (st : Nat) (u : Taken), (s.slipAt n k 0x07 = some u) ∧ (recordFieldsOk u = true) ∧ (s.recordRefusal n u = some st) ∧ (s.mayComplete n k u = true) :=
  ⟨(bndSt [] mag0 []).setRing 5 { Ring.init with taken := [slip 7 [0x12340007, 3, 9, 0x41, 0, 0, 0, 0xFFFFFFFF, 0]] }, 5, 0, 0x0100, slip 7 [0x12340007, 3, 9, 0x41, 0, 0, 0, 0xFFFFFFFF, 0], by decide +kernel, by decide +kernel, by decide +kernel, by decide +kernel⟩

theorem witness_TakesAreOpenedMarkedAndStopped_3 : ∃ (s : State) (n : Nat) (k : Nat) (m : Nat) (u : Taken) (tk : Take), (s.slipAt n k 0x08 = some u) ∧ (u.streamField = m) ∧ (u.reservedOk = true) ∧ (s.streamFor n u [1, 2, 4, 5] = true) ∧ (s.take m = some tk) ∧ (tk.steady = true) ∧ (tk.stop = none) ∧ (tk.closing = false) ∧ (tk.pics = []) ∧ (u.word 2 ≠ ones32) ∧ (tk.next ≤ u.word 2) :=
  ⟨(bndSt readyFields mag0 [tk0]).setRing 5 { Ring.init with taken := [slip 7 [0x12340008, 3, 20]] }, 5, 0, 3, slip 7 [0x12340008, 3, 20], tk0, by decide +kernel, by decide +kernel, by decide +kernel, by decide +kernel, by decide +kernel, by decide +kernel, by decide +kernel, by decide +kernel, by decide +kernel, by decide +kernel, by decide +kernel⟩

theorem witness_TakesAreOpenedMarkedAndStopped_4 : ∃ (s : State) (n : Nat) (k : Nat) (u : Taken), (s.slipAt n k 0x08 = some u) ∧ (u.reservedOk = true) ∧ (s.streamFor n u [1, 2, 4, 5] = true) ∧ (s.take u.streamField = none) ∧ (s.mayComplete n k u = true) :=
  ⟨(bndSt readyFields mag0 []).setRing 5 { Ring.init with taken := [slip 7 [0x12340008, 3, 20]] }, 5, 0, slip 7 [0x12340008, 3, 20], by decide +kernel, by decide +kernel, by decide +kernel, by decide +kernel, by decide +kernel⟩

theorem witness_TakesAreOpenedMarkedAndStopped_5 : ∃ (s : State) (n : Nat) (k : Nat) (m : Nat) (u : Taken) (tk : Take), (s.slipAt n k 0x09 = some u) ∧ (u.streamField = m) ∧ (u.reservedOk = true) ∧ (s.streamFor n u [1, 2, 4, 5] = true) ∧ (u.word 3 ≠ 0) ∧ (s.take m = some tk) ∧ (u.word 2 ≠ ones32) ∧ (tk.first ≤ u.word 2 ∧ tk.from' ≤ u.word 2) ∧ (tk.stop = none) ∧ (tk.closing = false) ∧ ((tk.vols.any fun v => v.commit.isSome) = false) :=
  ⟨(bndSt readyFields mag0 [tk0]).setRing 5 { Ring.init with taken := [slip 7 [0x12340009, 3, 20, 0x99]] }, 5, 0, 3, slip 7 [0x12340009, 3, 20, 0x99], tk0, by decide +kernel, by decide +kernel, by decide +kernel, by decide +kernel, by decide +kernel, by decide +kernel, by decide +kernel, by decide +kernel, by decide +kernel, by decide +kernel, by decide +kernel⟩

theorem witness_TakesAreOpenedMarkedAndStopped_6 : ∃ (s : State) (n : Nat) (k : Nat) (u : Taken), (s.slipAt n k 0x09 = some u) ∧ (u.reservedOk = true) ∧ (s.streamFor n u [1, 2, 4, 5] = true) ∧ (u.word 3 ≠ 0) ∧ (s.take u.streamField = none) ∧ (s.mayComplete n k u = true) :=
  ⟨(bndSt readyFields mag0 []).setRing 5 { Ring.init with taken := [slip 7 [0x12340009, 3, 20, 0x99]] }, 5, 0, slip 7 [0x12340009, 3, 20, 0x99], by decide +kernel, by decide +kernel, by decide +kernel, by decide +kernel, by decide +kernel, by decide +kernel⟩

theorem witness_TakesAreOpenedMarkedAndStopped_7 : ∃ (s : State) (n : Nat) (k : Nat) (p : Nat) (u : Taken) (want : List AidEntry), (s.slipAt n k 0x0A = some u) ∧ (u.reservedOk = true) ∧ (bits (u.word 1) 8 1 = p) ∧ (s.magState p = msReady) ∧ (s.takeUsed p (u.word 2) = true) ∧ (s.layoutOn p (u.word 2) ≠ 2) ∧ (((s.entriesOn p (u.word 2)).any fun e => e.num == u.word 3) = true) ∧ (want = ((s.entriesOn p (u.word 2)).filter fun e => decide (u.word 3 ≤ e.num)).take (u.word 4)) ∧ ((want.filter fun e => !e.gap).head?.any (·.key) = true) ∧ (((want.filter fun e => !e.gap).head?.map (·.len)).getD 0 ≤ u.word 7) ∧ (s.mayRead p = true) ∧ (s.extent n u.id = none) ∧ (((s.mag p).cmds.any fun c => c.job == .extent n u.id) = false) :=
  ⟨(bndSt readyFields mag0 [{ tk0 with from' := 8, vols := [{ tv0 with aids := [aid7] }] }]).setRing 5 { Ring.init with taken := [slip 7 [0x1234000A, 0, 1, 7, 3, 0x8000, 0, 4096]] }, 5, 0, 0, slip 7 [0x1234000A, 0, 1, 7, 3, 0x8000, 0, 4096], [aid7], by decide +kernel, by decide +kernel, by decide +kernel, by decide +kernel, by decide +kernel, by decide +kernel, by decide +kernel, by decide +kernel, by decide +kernel, by decide +kernel, by decide +kernel, by decide +kernel, by decide +kernel⟩

theorem witness_TakesAreOpenedMarkedAndStopped_8 : ∃ (s : State) (n : Nat) (k : Nat) (p : Nat) (u : Taken), (s.slipAt n k 0x0A = some u) ∧ (u.reservedOk = true) ∧ (bits (u.word 1) 8 1 = p) ∧ (s.magState p ≠ msReady) :=
  ⟨(bndSt [] mag0 []).setRing 5 { Ring.init with taken := [slip 7 [0x1234000A, 0x100, 1, 7, 3, 0x8000, 0, 4096]] }, 5, 0, 1, slip 7 [0x1234000A, 0x100, 1, 7, 3, 0x8000, 0, 4096], by decide +kernel, by decide +kernel, by decide +kernel, by decide +kernel⟩

theorem witness_TakesAreOpenedMarkedAndStopped_9 : ∃ (s : State) (n : Nat) (k : Nat) (p : Nat) (u : Taken), (s.slipAt n k 0x0A = some u) ∧ (u.reservedOk = true) ∧ (bits (u.word 1) 8 1 = p) ∧ (s.magState p = msReady) ∧ (s.takeUsed p (u.word 2) = false) :=
  ⟨(bndSt readyFields mag0 []).setRing 5 { Ring.init with taken := [slip 7 [0x1234000A, 0, 1, 7, 3, 0x8000, 0, 4096]] }, 5, 0, 0, slip 7 [0x1234000A, 0, 1, 7, 3, 0x8000, 0, 4096], by decide +kernel, by decide +kernel, by decide +kernel, by decide +kernel, by decide +kernel⟩

theorem witness_PicturesAreLaidDownCommittedAndVerified_1 : ∃ (s : State) (n : Nat) (num : Nat) (p : Nat) (tk : Take) (tv : TakeVol) (pc : Pic), (((s.stream n).pics.filter fun q => q.released && q.readers.contains 512 && !(match s.take n with | some t => (t.pic q.num).isSome | none => false)).head? = some pc) ∧ (pc.num = num) ∧ (s.take n = some tk) ∧ (tk.steady = true) ∧ (tk.stop = none) ∧ (tk.first ≤ num) ∧ (tk.gapping = false) ∧ (tk.pics = []) ∧ (tk.layout = 0 ∧ tk.vols = [tv] ∧ tv.port = p) ∧ ((s.mag p).vol.isSome = true) ∧ ((pc.coded (s.stream n)).length ≤ tk.bufMib * 2 ^ 20) ∧ (ceilDiv (tv.length + recSpan (pc.coded (s.stream n)).length) shelfBytes ≤ tv.chain.length + tv.fresh.length) ∧ (tv.fresh.length < 1000) ∧ ((s.stream n).state = .opened) ∧ (tk.closing = false) :=
  ⟨(bndSt readyFields mag0 [tk0]).setStream 3 { tiny with recorded := true, nextPic := 9, pics := [{ Pic.fresh 7 true 0 0 with released := true, dispatched := true, finished := true, slipWritten := true, readers := [512] }] }, 3, 7, 0, tk0, tv0, { Pic.fresh 7 true 0 0 with released := true, dispatched := true, finished := true, slipWritten := true, readers := [512] }, by decide +kernel, by decide +kernel, by decide +kernel, by decide +kernel, by decide +kernel, by decide +kernel, by decide +kernel, by decide +kernel, by decide +kernel, by decide +kernel, by decide +kernel, by decide +kernel, by decide +kernel, by decide +kernel, by decide +kernel⟩

theorem witness_PicturesAreLaidDownCommittedAndVerified_2 : ∃ (s : State) (n : Nat) (num : Nat) (p : Nat) (tk : Take) (tv : TakeVol) (pc : Pic), (((s.stream n).pics.filter fun q => q.released && q.readers.contains 512 && !(match s.take n with | some t => (t.pic q.num).isSome | none => false)).head? = some pc) ∧ (pc.num = num) ∧ (s.take n = some tk) ∧ (tk.steady = true) ∧ (tk.stop = none) ∧ (tk.first ≤ num) ∧ (tk.pics = []) ∧ (tk.layout = 0 ∧ tk.vols = [tv] ∧ tv.port = p) ∧ (tk.bufMib * 2 ^ 20 < (pc.coded (s.stream n)).length) :=
  ⟨(bndSt readyFields mag0 [{ tk0 with bufMib := 0 }]).setStream 3 { tiny with recorded := true, nextPic := 9, pics := [{ Pic.fresh 7 true 0 0 with released := true, dispatched := true, finished := true, slipWritten := true, readers := [512] }] }, 3, 7, 0, { tk0 with bufMib := 0 }, tv0, { Pic.fresh 7 true 0 0 with released := true, dispatched := true, finished := true, slipWritten := true, readers := [512] }, by decide +kernel, by decide +kernel, by decide +kernel, by decide +kernel, by decide +kernel, by decide +kernel, by decide +kernel, by decide +kernel, by decide +kernel⟩

theorem witness_PicturesAreLaidDownCommittedAndVerified_3 : ∃ (s : State) (n : Nat) (tk : Take), (s.take n = some tk) ∧ (tk.closing = true ∨ s.ticks - tk.commitTick < msTicks tk.tailMs / 4) :=
  ⟨bndSt readyFields mag0 [tk0], 3, tk0, by decide +kernel, by decide +kernel⟩

theorem witness_PicturesAreLaidDownCommittedAndVerified_4 : ∃ (s : State) (n : Nat) (tk : Take), (s.take n = some tk) ∧ (tk.steady = true) ∧ (tk.closing = false) ∧ (msTicks tk.tailMs / 4 ≤ s.ticks - tk.commitTick) ∧ (tk.pics = []) ∧ (tk.stop = none) ∧ (tk.quiet = true) ∧ (tk.vols.all (fun v => v.moves.isEmpty) = true) ∧ ((s.stream n).state = .opened) :=
  ⟨{ bndSt readyFields mag0 [tk0] with ticks := 12500000 }, 3, tk0, by decide +kernel, by decide +kernel, by decide +kernel, by decide +kernel, by decide +kernel, by decide +kernel, by decide +kernel, by decide +kernel, by decide +kernel⟩

theorem witness_PicturesAreLaidDownCommittedAndVerified_5 : ∃ (s : State) (n : Nat) (p : Nat) (tk : Take) (tv : TakeVol) (r : RecPic), (s.take n = some tk) ∧ (tk.steady = true) ∧ (tk.closing = false) ∧ (msTicks tk.tailMs / 4 ≤ s.ticks - tk.commitTick) ∧ (tk.pics = [r]) ∧ (tk.from' ≤ r.num ∧ tk.laid r = true ∧ r.verify ≠ []) ∧ (tk.layout = 0 ∧ tk.vols = [tv] ∧ tv.port = p) ∧ (tv.commit = none) ∧ (tk.stop = none) ∧ ((s.mag p).vol.isSome = true) ∧ (ceilDiv (tv.length + recSpan (s.aidFor tk p r).bytes.length) shelfBytes ≤ tv.chain.length + tv.fresh.length) ∧ ((s.stream n).state = .opened) :=
  ⟨{ bndSt readyFields mag0 [{ tk0 with pics := [rec7] }] with ticks := 12500000 }, 3, 0, { tk0 with pics := [rec7] }, tv0, rec7, by decide +kernel, by decide +kernel, by decide +kernel, by decide +kernel, by decide +kernel, by decide +kernel, by decide +kernel, by decide +kernel, by decide +kernel, by decide +kernel, by decide +kernel, by decide +kernel⟩

theorem witness_PicturesAreLaidDownCommittedAndVerified_6 : ∃ (s : State) (p : Nat) (n : Nat) (num : Nat) (tk : Take) (r : RecPic), (s.take n = some tk) ∧ (tk.steady = true) ∧ (tk.pic num = some r) ∧ (tk.pics = [r]) ∧ (r.verify = [p] ∧ r.back = [(p, r.data)] ∧ r.held = false) ∧ (tk.stop = none ∧ tk.closing = false) ∧ ((s.stream n).state = .opened) :=
  ⟨bndSt readyFields mag0 [{ tk0 with pics := [{ rec7 with held := false, back := [(0, [1#8])] }] }], 0, 3, 7, { tk0 with pics := [{ rec7 with held := false, back := [(0, [1#8])] }] }, { rec7 with held := false, back := [(0, [1#8])] }, by decide +kernel, by decide +kernel, by decide +kernel, by decide +kernel, by decide +kernel, by decide +kernel, by decide +kernel⟩

theorem witness_PicturesAreLaidDownCommittedAndVerified_7 : ∃ (s : State) (p : Nat) (n : Nat) (num : Nat) (tk : Take) (r : RecPic) (d : List Byte) (equal : Bool), (s.take n = some tk) ∧ (tk.pic num = some r) ∧ (r.verify = [p] ∧ r.back = [(p, d)]) ∧ (decide (d = r.data) ≠ equal) :=
  ⟨bndSt readyFields mag0 [{ tk0 with pics := [{ rec7 with back := [(0, [9#8])] }] }], 0, 3, 7, { tk0 with pics := [{ rec7 with back := [(0, [9#8])] }] }, { rec7 with back := [(0, [9#8])] }, [9#8], true, by decide +kernel, by decide +kernel, by decide +kernel, by decide +kernel⟩

theorem witness_PicturesAreLaidDownCommittedAndVerified_8 : ∃ (s : State) (p : Nat) (n : Nat) (num : Nat) (tk : Take) (tv : TakeVol) (r : RecPic) (d : List Byte), (s.take n = some tk) ∧ (tk.steady = true) ∧ (tk.pic num = some r) ∧ (tk.pics = [r]) ∧ (r.verify = [p] ∧ r.moved = [] ∧ r.back = [(p, d)]) ∧ (d ≠ r.data) ∧ (tk.layout = 0 ∧ tk.vols = [tv] ∧ tv.port = p) ∧ ((s.mag p).vol.isSome = true) ∧ (ceilDiv (tv.length + recSpan r.data.length) shelfBytes ≤ tv.chain.length + tv.fresh.length) ∧ (tv.fresh.length < 1000) ∧ (tk.stop = none ∧ tk.closing = false) ∧ ((s.stream n).state = .opened) :=
  ⟨bndSt readyFields mag0 [{ tk0 with pics := [{ rec7 with back := [(0, [9#8])] }] }], 0, 3, 7, { tk0 with pics := [{ rec7 with back := [(0, [9#8])] }] }, tv0, { rec7 with back := [(0, [9#8])] }, [9#8], by decide +kernel, by decide +kernel, by decide +kernel, by decide +kernel, by decide +kernel, by decide +kernel, by decide +kernel, by decide +kernel, by decide +kernel, by decide +kernel, by decide +kernel, by decide +kernel⟩

theorem witness_PicturesAreLaidDownCommittedAndVerified_9 : ∃ (s : State) (p : Nat) (n : Nat) (num : Nat) (tk : Take) (r : RecPic) (d : List Byte), (s.take n = some tk) ∧ (tk.steady = true) ∧ (tk.pic num = some r) ∧ (tk.pics = [r]) ∧ (r.verify = [p] ∧ r.moved = [p] ∧ r.back = [(p, d)] ∧ r.held = false) ∧ (d ≠ r.data) ∧ (tk.layout = 0) ∧ ((tk.vol p).isSome = true) ∧ (p < 2) ∧ (tk.stop = none ∧ tk.closing = false) ∧ ((s.stream n).state = .opened) ∧ (s.rgs.raises (magUnit p) 3 = false) :=
  ⟨bndSt readyFields mag0 [{ tk0 with pics := [{ rec7 with back := [(0, [9#8])], moved := [0], held := false }] }], 0, 3, 7, { tk0 with pics := [{ rec7 with back := [(0, [9#8])], moved := [0], held := false }] }, { rec7 with back := [(0, [9#8])], moved := [0], held := false }, [9#8], by decide +kernel, by decide +kernel, by decide +kernel, by decide +kernel, by decide +kernel, by decide +kernel, by decide +kernel, by decide +kernel, by decide +kernel, by decide +kernel, by decide +kernel, by decide +kernel⟩

theorem witness_PicturesAreLaidDownCommittedAndVerified_10 : ∃ (s : State) (p : Nat) (n : Nat) (num : Nat) (tk : Take) (r : RecPic), (s.take n = some tk) ∧ (tk.steady = true) ∧ (tk.pic num = some r) ∧ (tk.pics = [r]) ∧ (r.verify = [p] ∧ r.held = false) ∧ (msTicks tk.lagMs ≤ s.ticks - r.writtenTick) ∧ (tk.stop = none ∧ tk.closing = false) ∧ ((s.stream n).state = .opened) :=
  ⟨{ bndSt readyFields mag0 [{ tk0 with pics := [{ rec7 with held := false }] }] with ticks := 250000000 }, 0, 3, 7, { tk0 with pics := [{ rec7 with held := false }] }, { rec7 with held := false }, by decide +kernel, by decide +kernel, by decide +kernel, by decide +kernel, by decide +kernel, by decide +kernel, by decide +kernel, by decide +kernel⟩

theorem witness_MagazinesAreBroughtUpAndLost_1 : ∃ (s : State) (p : Nat), (p < 2) ∧ ((s.mag p).inserted = none) ∧ ((s.mag p).stage = .empty) :=
  ⟨running, 1, by decide +kernel, by decide +kernel, by decide +kernel⟩

theorem witness_MagazinesAreBroughtUpAndLost_2 : ∃ (s : State) (p : Nat) (tk : Nat), (p < 2) ∧ ((s.mag p).stage = .settling tk) ∧ (msTicks 50 ≤ s.ticks - tk) ∧ (s.powered (magUnit p) = true) :=
  ⟨{ (running.setMag 1 { Mag.init with stage := .settling 0, inserted := some mgz }).putBit PWR.PD_STAT0 106 true with ticks := 12500000 }, 1, 0, by decide +kernel, by decide +kernel, by decide +kernel, by decide +kernel⟩

theorem witness_MagazinesAreBroughtUpAndLost_3 : ∃ (s : State) (p : Nat) (tk : Nat), ((s.mag p).stage = .powering tk) ∧ (msTicks 100 ≤ s.ticks - tk) :=
  ⟨{ running.setMag 1 { Mag.init with stage := .powering 0, inserted := some mgz } with ticks := 25000000 }, 1, 0, by decide +kernel, by decide +kernel⟩

theorem witness_MagazinesAreBroughtUpAndLost_4 : ∃ (s : State) (p : Nat) (tk : Nat), ((s.mag p).stage = .pulsing tk) ∧ (msTicks 1 ≤ s.ticks - tk) :=
  ⟨{ running.setMag 1 { Mag.init with stage := .pulsing 0, inserted := some mgz } with ticks := 250000 }, 1, 0, by decide +kernel, by decide +kernel⟩

theorem witness_MagazinesAreBroughtUpAndLost_5 : ∃ (s : State) (p : Nat) (speed : Nat) (width : Nat) (tk : Nat) (again : Bool), (p < 2) ∧ ((s.mag p).stage = .linking tk again) ∧ (1 ≤ speed ∧ speed ≤ 5) ∧ (width = 1 ∨ width = 2 ∨ width = 4) ∧ (s.magMeets p Magazine.endpointOk = true) :=
  ⟨running.setMag 1 { Mag.init with stage := .linking 0 false, inserted := some mgz }, 1, 5, 4, 0, false, by decide +kernel, by decide +kernel, by decide +kernel, by decide +kernel, by decide +kernel⟩

theorem witness_MagazinesAreBroughtUpAndLost_6 : ∃ (s : State) (p : Nat) (tk : Nat), ((s.mag p).stage = .linking tk false) ∧ (msTicks 100 ≤ s.ticks - tk) :=
  ⟨{ running.setMag 1 { Mag.init with stage := .linking 0 false, inserted := some mgz } with ticks := 25000000 }, 1, 0, by decide +kernel, by decide +kernel⟩

theorem witness_MagazinesAreBroughtUpAndLost_7 : ∃ (s : State) (p : Nat) (tk : Nat), (p < 2) ∧ ((s.mag p).stage = .linking tk true) ∧ (msTicks 100 ≤ s.ticks - tk) ∧ ((s.mag p).op = none) ∧ (s.bnd.takes = [] ∧ s.bnd.extents = []) ∧ (s.power.held = false) :=
  ⟨{ running.setMag 1 { Mag.init with stage := .linking 0 true, inserted := some mgz } with ticks := 25000000 }, 1, 0, by decide +kernel, by decide +kernel, by decide +kernel, by decide +kernel, by decide +kernel, by decide +kernel⟩

theorem witness_MagazinesAreBroughtUpAndLost_8 : ∃ (s : State) (p : Nat) (tk : Nat) (reset : Bool), ((s.mag p).stage = .enabling tk reset) ∧ (s.magMeets p Magazine.controllerOk = true) :=
  ⟨running.setMag 1 { Mag.init with stage := .enabling 0 true, inserted := some mgz }, 1, 0, true, by decide +kernel, by decide +kernel⟩

theorem witness_MagazinesAreBroughtUpAndLost_9 : ∃ (s : State) (p : Nat) (tk : Nat) (reset : Bool), (p < 2) ∧ ((s.mag p).stage = .enabling tk reset) ∧ (s.magMeets p Magazine.controllerOk = false) ∧ ((s.mag p).op = none) ∧ (s.bnd.takes = [] ∧ s.bnd.extents = []) ∧ (s.power.held = false) :=
  ⟨running.setMag 1 { Mag.init with stage := .enabling 0 false, inserted := some { mgz with mqes := 62 } }, 1, 0, false, by decide +kernel, by decide +kernel, by decide +kernel, by decide +kernel, by decide +kernel, by decide +kernel⟩

theorem witness_MagazinesAreBroughtUpAndLost_10 : ∃ (s : State) (p : Nat) (k : Nat) (c : MagCmd), ((s.mag p).cmds[k]? = some c) ∧ ((s.mag p).mayComplete c = true) ∧ (s.cmdBlocked p c = false) ∧ (1 < c.left) :=
  ⟨running.setMag 1 { mag0 with cmds := [{ job := .jMove, left := 2, retried := true, admin := false, tick := 0, seq := none, writes := [] }] }, 1, 0, { job := .jMove, left := 2, retried := true, admin := false, tick := 0, seq := none, writes := [] }, by decide +kernel, by decide +kernel, by decide +kernel, by decide +kernel⟩

theorem witness_MagazinesAreBroughtUpAndLost_11 : ∃ (s : State) (p : Nat) (k : Nat) (c : MagCmd), ((s.mag p).cmds[k]? = some c) ∧ ((s.mag p).mayComplete c = true) ∧ (s.cmdBlocked p c = false) ∧ (c.left ≤ 1) ∧ (c.job = .health) ∧ (c.writes = []) ∧ (s.bnd.extents = []) ∧ (s.power.held = false) :=
  ⟨running.setMag 1 { mag0 with cmds := [{ job := .health, left := 1, retried := true, admin := true, tick := 0, seq := none, writes := [] }] }, 1, 0, { job := .health, left := 1, retried := true, admin := true, tick := 0, seq := none, writes := [] }, by decide +kernel, by decide +kernel, by decide +kernel, by decide +kernel, by decide +kernel, by decide +kernel, by decide +kernel, by decide +kernel⟩

theorem witness_MagazinesAreBroughtUpAndLost_12 : ∃ (s : State) (p : Nat) (k : Nat) (c : MagCmd), ((s.mag p).cmds[k]? = some c) ∧ ((s.mag p).mayComplete c = true) ∧ (s.cmdBlocked p c = false) ∧ (c.retried = false) ∧ (p < 2) ∧ (s.rgs.raises (magUnit p) 1 = false) :=
  ⟨running.setMag 1 { mag0 with cmds := [{ job := .health, left := 1, retried := false, admin := true, tick := 0, seq := none, writes := [] }] }, 1, 0, { job := .health, left := 1, retried := false, admin := true, tick := 0, seq := none, writes := [] }, by decide +kernel, by decide +kernel, by decide +kernel, by decide +kernel, by decide +kernel, by decide +kernel⟩

theorem witness_MagazinesAreBroughtUpAndLost_13 : ∃ (s : State) (p : Nat) (k : Nat) (c : MagCmd), ((s.mag p).cmds[k]? = some c) ∧ ((s.mag p).stage = .up) ∧ (msTicks (if c.admin then 5000 else 2000) ≤ s.ticks - c.tick) ∧ (c.retried = false) ∧ (p < 2) ∧ (s.rgs.raises (magUnit p) 1 = false) :=
  ⟨{ running.setMag 1 { mag0 with cmds := [{ job := .jMove, left := 1, retried := false, admin := false, tick := 0, seq := none, writes := [] }] } with ticks := 500000000 }, 1, 0, { job := .jMove, left := 1, retried := false, admin := false, tick := 0, seq := none, writes := [] }, by decide +kernel, by decide +kernel, by decide +kernel, by decide +kernel, by decide +kernel, by decide +kernel⟩

theorem witness_MagazinesAreBroughtUpAndLost_14 : ∃ (s : State) (p : Nat) (k : Nat) (c : MagCmd), ((s.mag p).cmds[k]? = some c) ∧ ((s.mag p).stage = .up) ∧ (msTicks (if c.admin then 5000 else 2000) ≤ s.ticks - c.tick) ∧ (c.retried = true) ∧ (p < 2) :=
  ⟨{ running.setMag 1 { mag0 with cmds := [{ job := .jMove, left := 1, retried := true, admin := false, tick := 0, seq := none, writes := [] }] } with ticks := 500000000 }, 1, 0, { job := .jMove, left := 1, retried := true, admin := false, tick := 0, seq := none, writes := [] }, by decide +kernel, by decide +kernel, by decide +kernel, by decide +kernel, by decide +kernel⟩

theorem witness_MagazinesAreBroughtUpAndLost_15 : ∃ (s : State) (p : Nat), ((s.mag p).stage = .up) ∧ (((s.mag p).cmds.any fun c => c.job == .health) = false) :=
  ⟨running.setMag 1 mag0, 1, by decide +kernel, by decide +kernel⟩

theorem witness_MagazinesAreBroughtUpAndLost_16 : ∃ (s : State) (p : Nat) (tk : Nat), ((s.mag p).inserted.isSome = true) ∧ ((s.mag p).stage = .settling tk) :=
  ⟨running.setMag 1 { Mag.init with stage := .settling 0, inserted := some mgz }, 1, 0, by decide +kernel, by decide +kernel⟩

theorem witness_MagazinesAreBroughtUpAndLost_17 : ∃ (s : State) (p : Nat), (p < 2) ∧ ((s.mag p).inserted.isSome = true) ∧ ((s.mag p).stage = .up) ∧ ((s.mag p).op = none) ∧ (s.bnd.takes = [] ∧ s.bnd.extents = []) ∧ (s.power.held = false) :=
  ⟨((running.setMag 1 mag0).put (BND.MG_STATE_STATE 1) msReady).put (linkUpBit 1) 1, 1, by decide +kernel, by decide +kernel, by decide +kernel, by decide +kernel, by decide +kernel, by decide +kernel⟩

theorem witness_MagazinesAreBroughtUpAndLost_18 : ∃ (s : State) (p : Nat), (p < 2) ∧ ((s.mag p).stage = .up) ∧ ((s.mag p).op = none) ∧ (s.bnd.takes = [] ∧ s.bnd.extents = []) ∧ (s.power.held = false) :=
  ⟨((running.setMag 1 mag0).put (BND.MG_STATE_STATE 1) msReady).put (linkUpBit 1) 1, 1, by decide +kernel, by decide +kernel, by decide +kernel, by decide +kernel, by decide +kernel⟩

theorem witness_MagazinesAreBroughtUpAndLost_19 : ∃ (s : State) (p : Nat) (key : Nat) (m : Magazine), (p < 2) ∧ (key % 65536 = 0x5E1F) ∧ ((s.mag p).op = none) ∧ (s.magState p = msReady ∨ s.magState p = msNoVolume) ∧ (s.takesOn p = false) ∧ ((s.mag p).inserted = some m) ∧ (16 ≤ shelfCount m.nsze) :=
  ⟨(running.setMag 1 mag0).put (BND.MG_STATE_STATE 1) msReady, 1, 0x5E1F, mgz, by decide +kernel, by decide +kernel, by decide +kernel, by decide +kernel, by decide +kernel, by decide +kernel, by decide +kernel⟩

theorem witness_MagazinesAreBroughtUpAndLost_20 : ∃ (s : State) (p : Nat) (key : Nat), ((s.mag p).op = none) ∧ (key % 65536 ≠ 0x5E1F) :=
  ⟨running, 1, 0, by decide +kernel, by decide +kernel⟩

theorem witness_MagazinesAreBroughtUpAndLost_21 : ∃ (s : State) (p : Nat) (key : Nat) (v : Volume), (p < 2) ∧ (key % 65536 = 0x5E1F) ∧ ((s.mag p).op = none) ∧ (s.magState p = msReady) ∧ (s.takesOn p = false) ∧ ((s.mag p).vol = some v) ∧ ((s.mag p).ckpt = none) :=
  ⟨(running.setMag 1 mag0).put (BND.MG_STATE_STATE 1) msReady, 1, 0x5E1F, vol0, by decide +kernel, by decide +kernel, by decide +kernel, by decide +kernel, by decide +kernel, by decide +kernel, by decide +kernel⟩

theorem witness_MagazinesAreBroughtUpAndLost_22 : ∃ (s : State) (p : Nat) (key : Nat), (p < 2) ∧ (key % 65536 = 0x5E1F) ∧ ((s.mag p).op = none) ∧ (s.magState p = msFailed ∨ s.magState p = msEjected) :=
  ⟨(running.setMag 1 { mag0 with stage := .empty, vol := none }).put (BND.MG_STATE_STATE 1) msEjected, 1, 0x5E1F, by decide +kernel, by decide +kernel, by decide +kernel, by decide +kernel⟩

theorem witness_MagazinesAreBroughtUpAndLost_23 : ∃ (s : State) (p : Nat) (key : Nat) (v : Volume) (e : TakeEntry), (p < 2) ∧ (key % 65536 = 0x5E1F) ∧ ((s.mag p).op = none) ∧ (s.magState p = msReady) ∧ ((s.mag p).vol = some v) ∧ (v.take (s.get (BND.MG_CMD_ARG_TAKE p)) = some e) ∧ (e.state ≠ 1) :=
  ⟨((running.setMag 1 { mag0 with vol := some { vol0 with slots := [(0, some e1)] } }).put (BND.MG_STATE_STATE 1) msReady).put (BND.MG_CMD_ARG_TAKE 1) 9, 1, 0x5E1F, { vol0 with slots := [(0, some e1)] }, e1, by decide +kernel, by decide +kernel, by decide +kernel, by decide +kernel, by decide +kernel, by decide +kernel, by decide +kernel⟩

theorem witness_MagazinesAreBroughtUpAndLost_24 : ∃ (s : State) (p : Nat) (key : Nat) (v : Volume), (key % 65536 = 0x5E1F) ∧ ((s.mag p).op = none) ∧ (s.magState p = msReady) ∧ ((s.mag p).vol = some v) ∧ (v.take (s.get (BND.MG_CMD_ARG_TAKE p)) = none) :=
  ⟨(running.setMag 1 mag0).put (BND.MG_STATE_STATE 1) msReady, 1, 0x5E1F, vol0, by decide +kernel, by decide +kernel, by decide +kernel, by decide +kernel, by decide +kernel⟩

theorem witness_FramesOpenJoinAndClose_1 : ∃ (s : State) (port : Nat) (vc : Nat) (n : Nat) (ecc : Nat), (s.portDecodes port = true) ∧ (ecc < 2) ∧ (s.captureOf port vc = some (n, 0)) ∧ ((s.stream n).openFrame = none) ∧ ((s.stream n).state = .opened) ∧ ((s.stream n).buffersFree ≠ 0) ∧ ((s.stream n).nextPic < 2 ^ 32) ∧ ((s.stream n).edges = []) ∧ ((s.developed n).all (fun e => e.1 != n) = true) :=
  ⟨capSt [], 0, 1, 3, 1, by decide +kernel, by decide +kernel, by decide +kernel, by decide +kernel, by decide +kernel, by decide +kernel, by decide +kernel, by decide +kernel, by decide +kernel⟩

theorem witness_FramesOpenJoinAndClose_2 : ∃ (s : State) (port : Nat) (vc : Nat) (n : Nat) (ecc : Nat) (e : Nat × DTime) (l : List (Nat × DTime)), (s.portDecodes port = true) ∧ (ecc < 2) ∧ (s.captureOf port vc = some (n, 0)) ∧ ((s.stream n).openFrame = none) ∧ ((s.stream n).state = .opened) ∧ ((s.stream n).buffersFree ≠ 0) ∧ ((s.stream n).nextPic < 2 ^ 32) ∧ ((s.stream n).edges = e :: l) ∧ ((s.developed n).all (fun d => d.1 != n) = true) :=
  ⟨(capSt []).setStream 3 { (capSt []).stream 3 with edges := [(1, dtOf 77), (1, dtOf 66)] }, 0, 1, 3, 1, (1, dtOf 77), [(1, dtOf 66)], by decide +kernel, by decide +kernel, by decide +kernel, by decide +kernel, by decide +kernel, by decide +kernel, by decide +kernel, by decide +kernel, by decide +kernel⟩

theorem witness_FramesOpenJoinAndClose_3 : ∃ (s : State) (port : Nat) (vc : Nat) (n : Nat) (ecc : Nat) (f : Frame), (s.portDecodes port = true) ∧ (ecc < 2) ∧ (s.captureOf port vc = some (n, 0)) ∧ ((s.stream n).openFrame = some f) ∧ (f.quiet = true) ∧ ((s.stream n).state = .opened) ∧ ((s.stream n).buffersFree = 0 ∨ 2 ^ 32 ≤ (s.stream n).nextPic) :=
  ⟨(capSt [fr0]).setStream 3 { (capSt [fr0]).stream 3 with pics := [Pic.fresh 5 true 1 1, Pic.fresh 6 true 1 1] }, 0, 1, 3, 1, fr0, by decide +kernel, by decide +kernel, by decide +kernel, by decide +kernel, by decide +kernel, by decide +kernel, by decide +kernel⟩

theorem witness_FramesOpenJoinAndClose_4 : ∃ (s : State) (port : Nat) (vc : Nat) (ecc : Nat), (s.portDecodes port = true) ∧ (ecc < 2) ∧ (s.captureOf port vc = none) ∧ (port < 6) :=
  ⟨capSt [], 5, 1, 1, by decide +kernel, by decide +kernel, by decide +kernel, by decide +kernel⟩

theorem witness_FramesOpenJoinAndClose_5 : ∃ (s : State) (port : Nat) (vc : Nat) (fnum : Nat) (n : Nat) (m : Nat) (ecc : Nat) (f : Frame), (s.portDecodes port = true) ∧ (ecc < 2) ∧ (s.captureOf port vc = some (n, m)) ∧ (m ≠ 0) ∧ ((s.stream n).openFrame = some f) ∧ ((f.member m).started = false) ∧ ((s.stream n).ing.useFrameNumber = true → f.frameNumber = fnum) :=
  ⟨capSt [fr0], 1, 1, 9, 3, 1, 1, fr0, by decide +kernel, by decide +kernel, by decide +kernel, by decide +kernel, by decide +kernel, by decide +kernel, by decide +kernel⟩

theorem witness_FramesOpenJoinAndClose_6 : ∃ (s : State) (port : Nat) (vc : Nat) (fnum : Nat) (n : Nat) (m : Nat) (ecc : Nat) (f : Frame), (s.portDecodes port = true) ∧ (ecc < 2) ∧ (s.captureOf port vc = some (n, m)) ∧ (m ≠ 0) ∧ ((s.stream n).openFrame = some f) ∧ ((f.member m).started = true ∨ (s.stream n).ing.useFrameNumber = true ∧ f.frameNumber ≠ fnum) :=
  ⟨capSt [fr0], 1, 1, 8, 3, 1, 1, fr0, by decide +kernel, by decide +kernel, by decide +kernel, by decide +kernel, by decide +kernel, by decide +kernel⟩

theorem witness_FramesOpenJoinAndClose_7 : ∃ (s : State) (port : Nat) (vc : Nat) (n : Nat) (m : Nat) (ecc : Nat) (f : Frame) (g : Frame), (s.portDecodes port = true) ∧ (ecc < 2) ∧ (s.captureOf port vc = some (n, m)) ∧ ((s.stream n).openFrame = some f) ∧ ((s.stream n).joined.contains m = true) ∧ ((f.member m).started = true) ∧ (g = f.setMember m { f.member m with ended := true, next := (s.stream n).linesOf m }) ∧ (((s.stream n).setFrame g).frameDone g = false) :=
  ⟨capSt [fr0], 0, 1, 3, 0, 1, fr0, fr0.setMember 0 { started := true, ended := true, next := 2, got := 0, rows := [] }, by decide +kernel, by decide +kernel, by decide +kernel, by decide +kernel, by decide +kernel, by decide +kernel, by decide +kernel, by decide +kernel⟩

theorem witness_FramesOpenJoinAndClose_8 : ∃ (s : State) (port : Nat) (vc : Nat) (n : Nat) (m : Nat) (ecc : Nat) (f : Frame) (g : Frame) (p : Pic), (s.portDecodes port = true) ∧ (ecc < 2) ∧ (s.captureOf port vc = some (n, m)) ∧ ((s.stream n).openFrame = some f) ∧ ((s.stream n).joined.contains m = true) ∧ ((f.member m).started = true) ∧ (g = f.setMember m { f.member m with ended := true, next := (s.stream n).linesOf m }) ∧ (((s.stream n).setFrame g).frameDone g = true) ∧ (g.quiet = true) ∧ ((s.stream n).pic f.num = some p) ∧ (p.stamps.length = 6) :=
  ⟨capSt [fr0.setMember 1 { started := true, ended := true, next := 1, got := 1, rows := [row0 0 (.whole [1, 2, 3, 4, 5, 6, 7, 8])] }], 0, 1, 3, 0, 1, fr0.setMember 1 { started := true, ended := true, next := 1, got := 1, rows := [row0 0 (.whole [1, 2, 3, 4, 5, 6, 7, 8])] }, (fr0.setMember 1 { started := true, ended := true, next := 1, got := 1, rows := [row0 0 (.whole [1, 2, 3, 4, 5, 6, 7, 8])] }).setMember 0 { started := true, ended := true, next := 2, got := 0, rows := [] }, Pic.fresh 6 true 1 1, by decide +kernel, by decide +kernel, by decide +kernel, by decide +kernel, by decide +kernel, by decide +kernel, by decide +kernel, by decide +kernel, by decide +kernel, by decide +kernel, by decide +kernel⟩

theorem witness_RowsAreReservedCheckedAndEmitted_1 : ∃ (s : State) (port : Nat) (vc : Nat) (dt : Nat) (l : Nat) (n : Nat) (m : Nat) (ecc : Nat) (f : Frame) (b : List Nat), (s.portDecodes port = true) ∧ (ecc < 2) ∧ (s.captureOf port vc = some (n, m)) ∧ (m < (s.stream n).ports.length) ∧ ((s.stream n).state = .opened) ∧ (dt = (s.stream n).ing.dataType) ∧ ((s.stream n).openFrame = some f) ∧ ((f.member m).started = true) ∧ ((s.stream n).joined.contains m = true) ∧ ((f.member m).ended = false) ∧ (l < (s.stream n).linesOf m) ∧ ((f.member m).next ≤ l) ∧ ((s.stream n).rowOf m l ≠ 0) ∧ ((s.stream n).queueDepth m < (s.stream n).ing.ingLines) ∧ (takeCells 0xFF s.bankFree 0 (cellsOf (2 * (s.stream n).lineWidth)) = some b) :=
  ⟨let z := capSt [fr0.setMember 1 { started := true, ended := false, next := 0, got := 0, rows := [] }]; z.setStream 3 { z.stream 3 with joined := [0, 1] }, 1, 1, 0x2C, 0, 3, 1, 1, fr0.setMember 1 { started := true, ended := false, next := 0, got := 0, rows := [] }, [1, 0, 0, 0, 0, 0, 0, 0], by decide +kernel, by decide +kernel, by decide +kernel, by decide +kernel, by decide +kernel, by decide +kernel, by decide +kernel, by decide +kernel, by decide +kernel, by decide +kernel, by decide +kernel, by decide +kernel, by decide +kernel, by decide +kernel, by decide +kernel⟩

theorem witness_RowsAreReservedCheckedAndEmitted_2 : ∃ (s : State) (port : Nat) (vc : Nat) (dt : Nat) (l : Nat) (n : Nat) (m : Nat) (ecc : Nat) (f : Frame), (s.portDecodes port = true) ∧ (ecc < 2) ∧ (s.captureOf port vc = some (n, m)) ∧ (dt = (s.stream n).ing.dataType) ∧ ((s.stream n).openFrame = some f) ∧ ((f.member m).started = true) ∧ ((s.stream n).joined.contains m = true) ∧ ((f.member m).ended = false) ∧ (l < (s.stream n).linesOf m) ∧ ((f.member m).next ≤ l) ∧ ((s.stream n).rowOf m l ≠ 0) ∧ ((s.stream n).ing.ingLines ≤ (s.stream n).queueDepth m ∨ takeCells 0xFF s.bankFree 0 (cellsOf (2 * (s.stream n).lineWidth)) = none) :=
  ⟨(capSt [fr0]).setStream 3 { (capSt [fr0]).stream 3 with secs := { ((capSt [fr0]).stream 3).secs with ingest := some { capIng with ingLines := 0 } } }, 0, 1, 0x2C, 1, 3, 0, 1, fr0, by decide +kernel, by decide +kernel, by decide +kernel, by decide +kernel, by decide +kernel, by decide +kernel, by decide +kernel, by decide +kernel, by decide +kernel, by decide +kernel, by decide +kernel, by decide +kernel⟩

theorem witness_RowsAreReservedCheckedAndEmitted_3 : ∃ (s : State) (port : Nat) (vc : Nat) (n : Nat) (m : Nat) (ecc : Nat), (s.portDecodes port = true) ∧ (ecc < 2) ∧ (s.captureOf port vc = some (n, m)) ∧ (m ≠ 0) ∧ ((s.stream n).joined.contains m = false) :=
  ⟨capSt [fr0.setMember 1 { started := true, ended := false, next := 0, got := 0, rows := [] }], 1, 1, 3, 1, 1, by decide +kernel, by decide +kernel, by decide +kernel, by decide +kernel, by decide +kernel⟩

theorem witness_RowsAreReservedCheckedAndEmitted_4 : ∃ (s : State) (port : Nat) (vc : Nat) (dt : Nat) (l : Nat) (n : Nat) (m : Nat) (ecc : Nat) (f : Frame) (p : Pic), (s.portDecodes port = true) ∧ (ecc < 2) ∧ (s.captureOf port vc = some (n, m)) ∧ (dt = (s.stream n).ing.dataType) ∧ ((s.stream n).openFrame = some f) ∧ ((f.member m).started = true) ∧ ((s.stream n).joined.contains m = true) ∧ ((f.member m).ended = false) ∧ (l < (s.stream n).linesOf m) ∧ ((f.member m).next ≤ l) ∧ ((s.stream n).rowOf m l = 0) ∧ ((s.stream n).pic f.num = some p) ∧ (p.stamps.length = 6) :=
  ⟨capSt [fr0], 0, 1, 0x2C, 0, 3, 0, 1, fr0, Pic.fresh 6 true 1 1, by decide +kernel, by decide +kernel, by decide +kernel, by decide +kernel, by decide +kernel, by decide +kernel, by decide +kernel, by decide +kernel, by decide +kernel, by decide +kernel, by decide +kernel, by decide +kernel, by decide +kernel⟩

theorem witness_RowsAreReservedCheckedAndEmitted_5 : ∃ (s : State) (port : Nat) (ecc : Nat) (c : Instr), (s.portDecodes port = true) ∧ (2 ≤ ecc) ∧ (port < 6) ∧ ((match c with | .frameStart q k _ => decide (q = port ∧ k.ecc = ecc) | .memberFrameStart q k _ => decide (q = port ∧ k.ecc = ecc) | .frameEnd q k => decide (q = port ∧ k.ecc = ecc) | .rowHeaderArrival q _ _ _ n => decide (q = port ∧ n = ecc) | _ => false) = true) :=
  ⟨capSt [fr0], 1, 2, .memberFrameStart 1 ⟨1, 2⟩ 9, by decide +kernel, by decide +kernel, by decide +kernel, by decide +kernel⟩

theorem witness_RowsAreReservedCheckedAndEmitted_6 : ∃ (s : State) (port : Nat) (vc : Nat) (l : Nat) (wc : Nat) (n : Nat) (m : Nat) (data : List Byte) (f : Frame) (g : Frame), (s.portDecodes port = true) ∧ (s.captureOf port vc = some (n, m)) ∧ ((s.stream n).openFrame = some f) ∧ ((f.member m).rows.any (fun r => r.line == l) = true) ∧ (wc ≤ data.length) ∧ (wc = rawBytes (s.stream n).ing.dataType (s.stream n).lineWidth) ∧ ((s.stream n).rowOf m l + 1 ≠ (s.stream n).geo.height) ∧ (g = f.setMember m { f.member m with rows := (f.member m).rows.map fun r => if r.line = l ∧ r.st = .receiving then { r with st := .whole ((rawSamples (s.stream n).ing.dataType data).take (s.stream n).lineWidth) } else r }) ∧ (((s.stream n).setFrame g).frameDone g = false) :=
  ⟨capSt [fr0.setMember 0 { started := true, ended := false, next := 1, got := 1, rows := [row0 0 .receiving] }], 0, 1, 0, 12, 3, 0, [0x12#8, 0x34#8, 0x56#8, 0x12#8, 0x34#8, 0x56#8, 0x12#8, 0x34#8, 0x56#8, 0x12#8, 0x34#8, 0x56#8], fr0.setMember 0 { started := true, ended := false, next := 1, got := 1, rows := [row0 0 .receiving] }, fr0.setMember 0 { started := true, ended := false, next := 1, got := 1, rows := [row0 0 (.whole [0x126, 0x345, 0x126, 0x345, 0x126, 0x345, 0x126, 0x345])] }, by decide +kernel, by decide +kernel, by decide +kernel, by decide +kernel, by decide +kernel, by decide +kernel, by decide +kernel, by decide +kernel, by decide +kernel⟩

theorem witness_RowsAreReservedCheckedAndEmitted_7 : ∃ (s : State) (port : Nat) (vc : Nat) (l : Nat) (wc : Nat) (n : Nat) (m : Nat) (data : List Byte) (f : Frame) (g : Frame) (p : Pic), (s.portDecodes port = true) ∧ (s.captureOf port vc = some (n, m)) ∧ ((s.stream n).openFrame = some f) ∧ ((f.member m).rows.any (fun r => r.line == l) = true) ∧ (wc ≤ data.length) ∧ (wc = rawBytes (s.stream n).ing.dataType (s.stream n).lineWidth) ∧ ((s.stream n).rowOf m l + 1 = (s.stream n).geo.height) ∧ (g = { f.setMember m { f.member m with rows := (f.member m).rows.map fun r => if r.line = l ∧ r.st = .receiving then { r with st := .whole ((rawSamples (s.stream n).ing.dataType data).take (s.stream n).lineWidth) } else r } with lastParts := f.lastParts + 1 }) ∧ (((s.stream n).setFrame g).frameDone g = false) ∧ ((s.stream n).pic f.num = some p) :=
  ⟨capSt [fr0.setMember 0 { started := true, ended := false, next := 2, got := 1, rows := [row0 1 .receiving] }], 0, 1, 1, 12, 3, 0, [0x12#8, 0x34#8, 0x56#8, 0x12#8, 0x34#8, 0x56#8, 0x12#8, 0x34#8, 0x56#8, 0x12#8, 0x34#8, 0x56#8], fr0.setMember 0 { started := true, ended := false, next := 2, got := 1, rows := [row0 1 .receiving] }, { fr0.setMember 0 { started := true, ended := false, next := 2, got := 1, rows := [row0 1 (.whole [0x126, 0x345, 0x126, 0x345, 0x126, 0x345, 0x126, 0x345])] } with lastParts := 1 }, Pic.fresh 6 true 1 1, by decide +kernel, by decide +kernel, by decide +kernel, by decide +kernel, by decide +kernel, by decide +kernel, by decide +kernel, by decide +kernel, by decide +kernel, by decide +kernel⟩

theorem witness_RowsAreReservedCheckedAndEmitted_8 : ∃ (s : State) (port : Nat) (vc : Nat), (s.portDecodes port = true) ∧ (s.captureOf port vc = none) :=
  ⟨capSt [], 5, 1, by decide +kernel, by decide +kernel⟩

theorem witness_RowsAreReservedCheckedAndEmitted_9 : ∃ (s : State) (port : Nat) (vc : Nat) (l : Nat) (wc : Nat) (n : Nat) (m : Nat) (data : List Byte) (f : Frame) (g : Frame) (r : IngRow), (s.portDecodes port = true) ∧ (s.captureOf port vc = some (n, m)) ∧ ((s.stream n).openFrame = some f) ∧ ((f.member m).rows.filter (fun q => q.line == l && q.st == .receiving) = [r]) ∧ (r.cells.length ≤ 8) ∧ (wc ≤ data.length) ∧ (wc = rawBytes (s.stream n).ing.dataType (s.stream n).lineWidth) ∧ ((s.stream n).rowOf m l + 1 ≠ (s.stream n).geo.height) ∧ (g = f.setMember m { f.member m with rows := (f.member m).rows.map fun q => if q.line = l ∧ q.st = .receiving then { line := l, st := .dropped, cells := [] } else q }) ∧ (((s.stream n).setFrame g).frameDone g = false) :=
  ⟨capSt [fr0.setMember 0 { started := true, ended := false, next := 1, got := 1, rows := [row0 0 .receiving] }], 0, 1, 0, 12, 3, 0, [0x12#8, 0x34#8, 0x56#8, 0x12#8, 0x34#8, 0x56#8, 0x12#8, 0x34#8, 0x56#8, 0x12#8, 0x34#8, 0x56#8], fr0.setMember 0 { started := true, ended := false, next := 1, got := 1, rows := [row0 0 .receiving] }, fr0.setMember 0 { started := true, ended := false, next := 1, got := 1, rows := [{ line := 0, st := .dropped, cells := [] }] }, row0 0 .receiving, by decide +kernel, by decide +kernel, by decide +kernel, by decide +kernel, by decide +kernel, by decide +kernel, by decide +kernel, by decide +kernel, by decide +kernel, by decide +kernel⟩

theorem witness_RowsAreReservedCheckedAndEmitted_10 : ∃ (s : State) (n : Nat) (f : Frame), ((s.stream n).emitting = some f) ∧ ((s.stream n).state ≠ .closed) ∧ ((s.stream n).ing.lineTimeout ≤ s.usSince f.emitTick) ∧ (((s.stream n).partsOf f.emitted).any (fun q => (f.part q.1 q.2).isNone) = true) ∧ (((s.stream n).partsOf f.emitted).all (fun q => decide (q.1 < f.members.length)) = true) :=
  ⟨{ capSt [fr0] with ticks := 100000 }, 3, fr0, by decide +kernel, by decide +kernel, by decide +kernel, by decide +kernel, by decide +kernel⟩

theorem witness_RowsAreReservedCheckedAndEmitted_11 : ∃ (s : State) (n : Nat) (f : Frame), ((s.stream n).emitting = some f) ∧ (s.usSince f.emitTick < (s.stream n).ing.lineTimeout) :=
  ⟨capSt [fr0], 3, fr0, by decide +kernel, by decide +kernel⟩

theorem witness_RowsAreReservedCheckedAndEmitted_12 : ∃ (s : State) (n : Nat) (f : Frame) (p : Pic) (rows : List (List Nat)), ((s.stream n).emitting = some f) ∧ ((s.stream n).state ≠ .closed) ∧ (((s.stream n).partsOf f.emitted).map (fun q => f.part q.1 q.2) = rows.map (fun v => some (.whole v))) ∧ ((s.stream n).pic f.num = some p) :=
  ⟨capSt [fr0.setMember 0 { started := true, ended := false, next := 1, got := 1, rows := [row0 0 (.whole [1, 2, 3, 4, 5, 6, 7, 8])] }], 3, fr0.setMember 0 { started := true, ended := false, next := 1, got := 1, rows := [row0 0 (.whole [1, 2, 3, 4, 5, 6, 7, 8])] }, Pic.fresh 6 true 1 1, [[1, 2, 3, 4, 5, 6, 7, 8]], by decide +kernel, by decide +kernel, by decide +kernel, by decide +kernel⟩

theorem witness_RowsAreReservedCheckedAndEmitted_13 : ∃ (s : State) (n : Nat) (f : Frame) (p : Pic), ((s.stream n).emitting = some f) ∧ ((s.stream n).state ≠ .closed) ∧ (((s.stream n).partsOf f.emitted).all (fun q => (f.part q.1 q.2).isSome) = true) ∧ (((s.stream n).partsOf f.emitted).any (fun q => f.part q.1 q.2 == some .dropped || f.part q.1 q.2 == some .missing) = true) ∧ ((s.stream n).pic f.num = some p) :=
  ⟨capSt [fr0.setMember 0 { started := true, ended := false, next := 1, got := 1, rows := [{ line := 0, st := .dropped, cells := [] }] }], 3, fr0.setMember 0 { started := true, ended := false, next := 1, got := 1, rows := [{ line := 0, st := .dropped, cells := [] }] }, Pic.fresh 6 true 1 1, by decide +kernel, by decide +kernel, by decide +kernel, by decide +kernel, by decide +kernel⟩

theorem witness_RowsAreReservedCheckedAndEmitted_14 : ∃ (s : State) (n : Nat) (p : Pic), ((s.stream n).kind = 1) ∧ ((s.stream n).pics.find? (fun q => decide (q.lands.length < q.input.length)) = some p) ∧ (Tab.risesFrom 0 s.engines = true) :=
  ⟨{ (capSt []).setStream 3 { cap with pics := [{ Pic.fresh 6 true 1 1 with input := [[1], [2]], lands := [4] }] } with ticks := 50 }, 3, { Pic.fresh 6 true 1 1 with input := [[1], [2]], lands := [4] }, by decide +kernel, by decide +kernel, by decide +kernel⟩

theorem witness_HoldOutputsAndSensorPortsFollow_1 : ∃ (v : Nat), (v < 4) :=
  ⟨3, by decide +kernel⟩

theorem witness_HoldOutputsAndSensorPortsFollow_2 : ∃ (s : State) (u : Nat) (n : Nat) (it : Item) (l : List Item), ((s.queue n).enabled = true) ∧ (s.mayPop u n = true) ∧ ((s.queue n).items = it :: l) ∧ (it.complete = true) ∧ (s.itemCurrent it = true) ∧ ((s.queue n).cls = 0) ∧ ((s.queue n).disabling = false) ∧ (it.banks.length ≤ 8) :=
  ⟨(capSt []).setQueue 9 { Queue.init with cfg := 1, grant := 3, items := [{ ty := 1, len := 3, producer := 3, data := [1#8, 2#8], complete := true, work := none, epoch := 0, chunk := 0, banks := [1] }] }, 3, 9, { ty := 1, len := 3, producer := 3, data := [1#8, 2#8], complete := true, work := none, epoch := 0, chunk := 0, banks := [1] }, [], by decide +kernel, by decide +kernel, by decide +kernel, by decide +kernel, by decide +kernel, by decide +kernel, by decide +kernel, by decide +kernel⟩

theorem witness_HoldOutputsAndSensorPortsFollow_3 : ∃ (s : State) (u : Nat) (n : Nat), ((s.queue n).enabled = true) ∧ (s.mayPop u n = true) ∧ ((s.queue n).items = []) :=
  ⟨(capSt []).setQueue 9 { Queue.init with cfg := 1, grant := 3 }, 3, 9, by decide +kernel, by decide +kernel, by decide +kernel⟩

theorem witness_HoldOutputsAndSensorPortsFollow_4 : ∃ (s : State) (p : Nat) (lanes : Nat), (s.powered (sensorUnit p) = true) ∧ (s.on (ACC.PORT_STAT_ULPS p) = false) ∧ (p < 6) ∧ (lanes < 16) :=
  ⟨capSt [], 5, 15, by decide +kernel, by decide +kernel, by decide +kernel, by decide +kernel⟩

theorem witness_HoldOutputsAndSensorPortsFollow_5 : ∃ (s : State) (p : Nat) (lanes : Nat), (s.powered (sensorUnit p) = true) ∧ (s.on (ACC.PORT_STAT_ULPS p) = false) ∧ (p < 6) ∧ (lanes < 16) :=
  ⟨st (onPorts ++ [(ACC.PORT_STAT_DESKEW_DONE 5, 1)]), 5, 3, by decide +kernel, by decide +kernel, by decide +kernel, by decide +kernel⟩

theorem witness_HoldOutputsAndSensorPortsFollow_6 : ∃ (s : State) (p : Nat), (s.powered (sensorUnit p) = true) ∧ (p < 6) :=
  ⟨st (onPorts ++ [(ACC.PORT_STAT_DESKEW_DONE 5, 1), (ACC.PORT_STAT_CLK_ACTIVE 5, 1), (⟨ACC.ACC_STAT, 7, 1⟩, 1)]), 5, by decide +kernel, by decide +kernel⟩

theorem witness_HoldOutputsAndSensorPortsFollow_7 : ∃ (s : State) (p : Nat), ((s.portStreams p).all (fun e => e.2.openFrame.isNone) = true) :=
  ⟨st [(ACC.PORT_STAT_LANE_SYNC 5, 15)], 5, by decide +kernel⟩

theorem witness_HoldOutputsAndSensorPortsFollow_8 : ∃ (s : State) (p : Nat), ((s.portStreams p).all (fun e => e.2.openFrame.isNone) = true) ∧ (p < 6) :=
  ⟨st [(ACC.PORT_STAT_LANE_SYNC 5, 15), (ACC.PORT_STAT_CLK_ACTIVE 5, 1)], 5, by decide +kernel, by decide +kernel⟩

theorem witness_HoldOutputsAndSensorPortsFollow_9 : ∃ (s : State) (p : Nat) (n : Nat) (x : Stream) (f : Frame), ((s.portStreams p).filter (fun e => e.2.openFrame.isSome) = [(n, x)]) ∧ (x.openFrame = some f) ∧ (((s.stream n).pic f.num).isSome = true) ∧ (s.rgs.raises (sensorUnit p) 3 = false) ∧ (s.unitEnabled (sensorUnit p) = true) ∧ (s.power.held = false) ∧ (p < 6) :=
  ⟨capSt [fr0], 1, 3, (capSt [fr0]).stream 3, fr0, by decide +kernel, by decide +kernel, by decide +kernel, by decide +kernel, by decide +kernel, by decide +kernel, by decide +kernel⟩

theorem witness_UnitsOfWorkAreDispatched_1 : ∃ (s : State) (n : Nat) (num : Nat) (j : Nat) (cars : List Nat) (scrs : List Nat) (p : Pic), ((s.stream n).pic num = some p) ∧ (p.dispatched = true) ∧ (s.dispatchable n num j false = true) ∧ (s.enginesFit (s.stream n) cars scrs = true) :=
  ⟨kvSt { kv with prot := 1, pics := [pic1] } [], 3, 1, 2, [1, 2], [71, 70], pic1, by decide +kernel, by decide +kernel, by decide +kernel, by decide +kernel⟩

theorem witness_UnitsOfWorkAreDispatched_2 : ∃ (s : State) (n : Nat) (num : Nat) (j : Nat) (cars : List Nat) (scrs : List Nat) (p : Pic), ((s.stream n).pic num = some p) ∧ (p.dispatched = true) ∧ ((s.stream n).isKrema = true ∧ (s.stream n).subFrame = true) ∧ (s.dispatchable n num j true = true) ∧ (s.enginesFit (s.stream n) cars scrs = true) :=
  ⟨kvSt { kv with subFrame := true, pics := [{ pic1 with lands := List.range 65 }] } [], 3, 1, 1, [1], [70], { pic1 with lands := List.range 65 }, by decide +kernel, by decide +kernel, by decide +kernel, by decide +kernel, by decide +kernel⟩

theorem witness_UnitsOfWorkAreDispatched_3 : ∃ (s : State) (n : Nat) (num : Nat) (j : Nat) (cars : List Nat) (scrs : List Nat), (s.dispatchable n num j false = false ∨ s.enginesFit (s.stream n) cars scrs = false) :=
  ⟨kvSt { kv with pics := [{ pic1 with lands := [] }] } [], 3, 1, 1, [1], [70], by decide +kernel⟩

theorem witness_UnitsOfWorkAreDispatched_4 : ∃ (s : State) (n : Nat) (num : Nat) (j : Nat) (cars : List Nat) (scrs : List Nat), ((s.stream n).isKrema = false ∨ (s.stream n).subFrame = false ∨ s.dispatchable n num j true = false ∨ s.enginesFit (s.stream n) cars scrs = false) :=
  ⟨kvSt { kv with pics := [pic1] } [], 3, 1, 1, [1], [70], by decide +kernel⟩

theorem witness_UnitsOfWorkAreDispatched_5 : ∃ (s : State) (n : Nat) (num : Nat) (j : Nat) (cars : List Nat) (scrs : List Nat) (p : Pic), ((s.stream n).pic num = some p) ∧ (p.dispatched = false) ∧ (p.stamps.length = 6) ∧ ((s.stream n).statsP.sections = 0) ∧ (s.dispatchable n num j false = true) ∧ (s.enginesFit (s.stream n) cars scrs = true) :=
  ⟨kvSt { kv with pics := [{ pic1 with dispatched := false }], plans := [plan0] } [(CAT.EPOCH_VALUE, 6)], 3, 1, 1, [1], [70], { pic1 with dispatched := false }, by decide +kernel, by decide +kernel, by decide +kernel, by decide +kernel, by decide +kernel, by decide +kernel⟩

theorem witness_UnitsOfWorkAreDispatched_6 : ∃ (s : State) (n : Nat) (num : Nat) (j : Nat) (cars : List Nat) (scrs : List Nat) (p : Pic), ((s.stream n).pic num = some p) ∧ (p.dispatched = false) ∧ ((s.stream n).rated = true) ∧ ((s.stream n).statsP.sections = 0) ∧ (s.dispatchable n num j false = true) ∧ (s.enginesFit (s.stream n) cars scrs = true) :=
  ⟨kvSt { kv with pics := [{ pic1 with dispatched := false, plan := none }] } [], 3, 1, 1, [1], [70], { pic1 with dispatched := false, plan := none }, by decide +kernel, by decide +kernel, by decide +kernel, by decide +kernel, by decide +kernel, by decide +kernel⟩

theorem witness_ChunksAreCheckedAndCommitted_1 : ∃ (s : State) (i : Nat) (n : Nat) (num : Nat) (j : Nat) (run : Nat) (c : Commit) (p : Pic), ((s.engine i).work = some (n, num, j, run)) ∧ (s.get (engState i) = stRunning) ∧ ((s.stream n).pic num = some p) ∧ ((p.unit j).committed = false) ∧ ((p.unit j).runs.contains (unitOfEngine i, s.get (engEpoch i)) = true) ∧ (c.signOk = true ∧ c.residueOk = true ∧ (isCarrel i = true → c.reconOk = true)) ∧ (c.last = false) ∧ (s.get (engProg i) < 65535) ∧ (s.otherRun i n num j run = none) ∧ (i < 86) :=
  ⟨runSt 70 pic1 kv 0, 70, 3, 1, 1, 0, { cmt with reconOk := false }, { pic1 with units := [(1, { UnitRec.init with runs := [(0x82, 4)] })] }, by decide +kernel, by decide +kernel, by decide +kernel, by decide +kernel, by decide +kernel, by decide +kernel, by decide +kernel, by decide +kernel, by decide +kernel, by decide +kernel⟩

theorem witness_ChunksAreCheckedAndCommitted_2 : ∃ (s : State) (i : Nat) (n : Nat) (num : Nat) (j : Nat) (run : Nat) (p : Pic), ((s.engine i).work = some (n, num, j, run)) ∧ (s.get (engState i) = stRunning) ∧ ((s.stream n).pic num = some p) ∧ ((p.unit j).committed = true ∨ (p.unit j).runs.contains (unitOfEngine i, s.get (engEpoch i)) = false) ∧ (i < 86) :=
  ⟨(runSt 70 pic1 kv 0).put (engEpoch 70) 5, 70, 3, 1, 1, 0, { pic1 with units := [(1, { UnitRec.init with runs := [(0x82, 4)] })] }, by decide +kernel, by decide +kernel, by decide +kernel, by decide +kernel, by decide +kernel⟩

theorem witness_ChunksAreCheckedAndCommitted_3 : ∃ (s : State) (i : Nat) (n : Nat) (num : Nat) (j : Nat) (run : Nat) (c : Commit) (p : Pic), ((s.engine i).work = some (n, num, j, run)) ∧ (s.get (engState i) = stRunning) ∧ ((s.stream n).pic num = some p) ∧ ((p.unit j).committed = false) ∧ ((p.unit j).runs.contains (unitOfEngine i, s.get (engEpoch i)) = true) ∧ (c.signOk = false) ∧ (s.engineEnabled i = true ∧ i < 86) ∧ (s.rgs.raises (unitOfEngine i) 2 = false) ∧ (s.rgs.raises 0x1F0 3 = false) ∧ (s.power.held = false) :=
  ⟨runSt 70 pic1 kv 0, 70, 3, 1, 1, 0, { cmt with signOk := false }, { pic1 with units := [(1, { UnitRec.init with runs := [(0x82, 4)] })] }, by decide +kernel, by decide +kernel, by decide +kernel, by decide +kernel, by decide +kernel, by decide +kernel, by decide +kernel, by decide +kernel, by decide +kernel, by decide +kernel⟩

theorem witness_ChunksAreCheckedAndCommitted_4 : ∃ (s : State) (i : Nat) (n : Nat) (num : Nat) (j : Nat) (run : Nat) (k : Nat) (c : Commit) (p : Pic), ((s.engine i).work = some (n, num, j, run)) ∧ (s.get (engState i) = stRunning) ∧ ((s.stream n).pic num = some p) ∧ ((p.unit j).committed = false) ∧ ((p.unit j).runs.contains (unitOfEngine i, s.get (engEpoch i)) = true) ∧ (c.signOk = true ∧ c.residueOk = true ∧ (isCarrel i = true → c.reconOk = true)) ∧ (c.last = false) ∧ (s.otherRun i n num j run = some k) ∧ (s.get (engProg k) ≤ s.get (engProg i)) ∧ (s.get (engProg k) ≠ s.get (engProg i) ∨ (s.engine k).offer ≠ some (s.get (engProg i))) :=
  ⟨(let z := kvSt { kv with prot := 1, pics := [{ pic1 with units := [(1, { UnitRec.init with runs := [(1, 4), (2, 5)] })] }] } [(engState 1, stRunning), (engEpoch 1, 4), (engProg 1, 2), (engState 2, stRunning), (engEpoch 2, 5), (engProg 2, 2)]; (z.setEngine 1 { Engine.init with work := some (3, 1, 1, 0) }).setEngine 2 { Engine.init with work := some (3, 1, 1, 1), offer := none }), 1, 3, 1, 1, 0, 2, cmt, { pic1 with units := [(1, { UnitRec.init with runs := [(1, 4), (2, 5)] })] }, by decide +kernel, by decide +kernel, by decide +kernel, by decide +kernel, by decide +kernel, by decide +kernel, by decide +kernel, by decide +kernel, by decide +kernel, by decide +kernel⟩

theorem witness_ChunksAreCheckedAndCommitted_5 : ∃ (s : State) (i : Nat) (n : Nat) (num : Nat) (j : Nat) (run : Nat) (k : Nat) (c : Commit) (p : Pic), ((s.engine i).work = some (n, num, j, run)) ∧ (s.get (engState i) = stRunning) ∧ ((s.stream n).pic num = some p) ∧ ((p.unit j).committed = false) ∧ ((p.unit j).runs.contains (unitOfEngine i, s.get (engEpoch i)) = true) ∧ (c.signOk = true ∧ c.residueOk = true ∧ (isCarrel i = true → c.reconOk = true)) ∧ (c.last = false) ∧ (s.otherRun i n num j run = some k) ∧ (s.get (engProg k) = s.get (engProg i)) ∧ ((s.engine k).offer = some (s.get (engProg i))) ∧ (k ≠ i ∧ i < 86 ∧ k < 86 ∧ s.get (engProg i) < 65535) :=
  ⟨(let z := kvSt { kv with prot := 1, pics := [{ pic1 with units := [(1, { UnitRec.init with runs := [(1, 4), (2, 5)] })] }] } [(engState 1, stRunning), (engEpoch 1, 4), (engProg 1, 2), (engState 2, stRunning), (engEpoch 2, 5), (engProg 2, 2)]; (z.setEngine 1 { Engine.init with work := some (3, 1, 1, 0) }).setEngine 2 { Engine.init with work := some (3, 1, 1, 1), offer := some 2 }), 1, 3, 1, 1, 0, 2, cmt, { pic1 with units := [(1, { UnitRec.init with runs := [(1, 4), (2, 5)] })] }, by decide +kernel, by decide +kernel, by decide +kernel, by decide +kernel, by decide +kernel, by decide +kernel, by decide +kernel, by decide +kernel, by decide +kernel, by decide +kernel, by decide +kernel⟩

theorem witness_ChunksAreCheckedAndCommitted_6 : ∃ (s : State) (i : Nat) (n : Nat) (num : Nat) (j : Nat) (run : Nat) (c : Commit) (p : Pic), ((s.engine i).work = some (n, num, j, run)) ∧ (s.get (engState i) = stRunning) ∧ ((s.stream n).pic num = some p) ∧ ((p.unit j).committed = false) ∧ ((p.unit j).runs.contains (unitOfEngine i, s.get (engEpoch i)) = true) ∧ (c.signOk = true ∧ c.reconOk = true ∧ c.residueOk = true ∧ c.last = true) ∧ (isCarrel i = true) ∧ (s.leafWhole (s.stream n) p j = false) :=
  ⟨runSt 1 { pic1 with lands := List.range 100 } kv 0, 1, 3, 1, 1, 0, { cmt with last := true }, { pic1 with lands := List.range 100, units := [(1, { UnitRec.init with runs := [(1, 4)] })] }, by decide +kernel, by decide +kernel, by decide +kernel, by decide +kernel, by decide +kernel, by decide +kernel, by decide +kernel, by decide +kernel⟩

theorem witness_ChunksAreCheckedAndCommitted_7 : ∃ (s : State) (i : Nat) (n : Nat) (num : Nat) (j : Nat) (run : Nat) (c : Commit) (p : Pic), ((s.engine i).work = some (n, num, j, run)) ∧ (s.get (engState i) = stRunning) ∧ ((s.stream n).pic num = some p) ∧ ((p.unit j).committed = false) ∧ ((p.unit j).runs.contains (unitOfEngine i, s.get (engEpoch i)) = true) ∧ (c.signOk = true ∧ c.reconOk = true ∧ c.residueOk = true ∧ c.last = true) ∧ (s.leafWhole (s.stream n) p j = true) ∧ (isCarrel i = true) ∧ ((s.stream n).kind ≠ 1 ∨ p.crcs.getD j none = some (inputCrc (leafSamples (readWith ((s.stream n).seq.leaf j) c.read p.input) ((s.stream n).seq.leaf j)))) ∧ (s.engines.any (fun e => e.1 != i && (s.engine e.1).work == e.2.work && (match e.2.work with | some (a, b, d, _) => a == n && b == num && d == j | none => false)) = true) :=
  ⟨(runSt 1 { pic1 with crcs := [none, some (inputCrc (leafSamples pic1.input (kvS.seq.leaf 1))), none] } kvS 0).setEngine 70 { Engine.init with work := some (3, 1, 1, 0) }, 1, 3, 1, 1, 0, { cmt with last := true }, { pic1 with crcs := [none, some (inputCrc (leafSamples pic1.input (kvS.seq.leaf 1))), none], units := [(1, { UnitRec.init with runs := [(1, 4)] })] }, by decide +kernel, by decide +kernel, by decide +kernel, by decide +kernel, by decide +kernel, by decide +kernel, by decide +kernel, by decide +kernel, by decide +kernel, by decide +kernel⟩

theorem witness_ChunksAreCheckedAndCommitted_8 : ∃ (s : State) (i : Nat) (n : Nat) (num : Nat) (j : Nat) (run : Nat) (v : Nat) (c : Commit) (p : Pic), ((s.engine i).work = some (n, num, j, run)) ∧ (s.get (engState i) = stRunning) ∧ ((s.stream n).pic num = some p) ∧ ((p.unit j).committed = false) ∧ ((p.unit j).runs.contains (unitOfEngine i, s.get (engEpoch i)) = true) ∧ (c.signOk = true ∧ c.reconOk = true ∧ c.residueOk = true ∧ c.last = true) ∧ (s.leafWhole (s.stream n) p j = true) ∧ (isCarrel i = true) ∧ ((s.stream n).kind = 1) ∧ ((s.stream n).prot ≠ 2) ∧ (p.crcs.getD j none = some v) ∧ (v ≠ inputCrc (leafSamples (readWith ((s.stream n).seq.leaf j) c.read p.input) ((s.stream n).seq.leaf j))) ∧ ((p.unit j).crcMiss = []) ∧ (s.engineEnabled i = true ∧ i < 86) ∧ (s.rgs.raises (unitOfEngine i) 1 = false) ∧ (s.power.held = false) :=
  ⟨runSt 1 { pic1 with crcs := [none, some 77, none] } { kvS with prot := 0 } 0, 1, 3, 1, 1, 0, 77, { cmt with last := true }, { pic1 with crcs := [none, some 77, none], units := [(1, { UnitRec.init with runs := [(1, 4)] })] }, by decide +kernel, by decide +kernel, by decide +kernel, by decide +kernel, by decide +kernel, by decide +kernel, by decide +kernel, by decide +kernel, by decide +kernel, by decide +kernel, by decide +kernel, by decide +kernel, by decide +kernel, by decide +kernel, by decide +kernel, by decide +kernel⟩

theorem witness_ChunksAreCheckedAndCommitted_9 : ∃ (s : State) (i : Nat) (n : Nat) (num : Nat) (j : Nat) (k : Nat) (run : Nat) (c : Commit) (p : Pic) (r : Nat × Nat × Coded), ((s.engine i).work = some (n, num, j, run)) ∧ (s.get (engState i) = stRunning) ∧ ((s.stream n).pic num = some p) ∧ ((p.unit j).committed = false) ∧ ((p.unit j).runs.contains (unitOfEngine i, s.get (engEpoch i)) = true) ∧ (c.signOk = true ∧ c.residueOk = true ∧ c.last = true ∧ c.wrong = none) ∧ (isCarrel i = false) ∧ (i < 86) ∧ ((s.stream n).prot ≠ 1) ∧ ((p.unit j).results = [r]) ∧ (r.1 = run) ∧ ((p.unit j).redoTick = none) ∧ (s.engines.all (fun e => e.1 == i || (match e.2.work with | some (a, b, d, _) => !(a == n && b == num && d == j) | none => true)) = true) ∧ (k < p.unitCount ∧ k ≠ j ∧ (p.unit k).committed = false) :=
  ⟨{ (runSt 70 { pic1 with units := [(1, { UnitRec.init with results := [(0, 1, { Coded.init with quant := 5 })] })] } kv 0) with ticks := 60 }, 70, 3, 1, 1, 0, 0, { cmt with last := true, reconOk := false }, { pic1 with units := [(1, { UnitRec.init with results := [(0, 1, { Coded.init with quant := 5 })], runs := [(0x82, 4)] })] }, (0, 1, { Coded.init with quant := 5 }), by decide +kernel, by decide +kernel, by decide +kernel, by decide +kernel, by decide +kernel, by decide +kernel, by decide +kernel, by decide +kernel, by decide +kernel, by decide +kernel, by decide +kernel, by decide +kernel, by decide +kernel, by decide +kernel⟩

theorem witness_TheGuardTripsAndReleasesFollowInOrder_1 : ∃ (s : State) (n : Nat) (num : Nat) (g : Nat) (k : Nat) (p : Pic) (plan : Plan), ((s.stream n).pic num = some p) ∧ (p.plan = some plan) ∧ ((s.stream n).rated = true ∧ p.dispatched = true) ∧ (p.evaluated = g) ∧ (g < (p.knownBits (s.stream n)).length) ∧ (p.trip ≠ none ∨ guardTrip plan (s.stream n).constQ ((p.knownBits (s.stream n)).take (g + 1)) ≠ some g) ∧ ((s.stream n).isV = false ∨ p.floorAt g = false ∨ p.floor2 ≠ none ∨ (p.knownBits (s.stream n)).getD g 0 ≤ plan.allot.getD g 0) ∧ (k < p.unitCount ∧ (p.unit k).committed = false) :=
  ⟨kvSt { kv with pics := [{ pic1 with units := [(0, unit0 3 [60])] }] } [], 3, 1, 0, 1, { pic1 with units := [(0, unit0 3 [60])] }, plan0, by decide +kernel, by decide +kernel, by decide +kernel, by decide +kernel, by decide +kernel, by decide +kernel, by decide +kernel, by decide +kernel⟩

theorem witness_TheGuardTripsAndReleasesFollowInOrder_2 : ∃ (s : State) (n : Nat) (num : Nat) (g : Nat) (k : Nat) (j : Nat) (p : Pic) (plan : Plan), ((s.stream n).pic num = some p) ∧ (p.plan = some plan) ∧ ((s.stream n).rated = true ∧ p.dispatched = true) ∧ (p.evaluated = g) ∧ (g < (p.knownBits (s.stream n)).length) ∧ (p.trip = none) ∧ (guardTrip plan (s.stream n).constQ ((p.knownBits (s.stream n)).take (g + 1)) = some g) ∧ (Tab.risesFrom 0 s.engines = true) ∧ ((List.range p.unitCount).find? (fun i => decide (((s.stream n).guardsOf i).1 ≤ g ∧ g < ((s.stream n).guardsOf i).1 + ((s.stream n).guardsOf i).2)) = some j) ∧ (k < p.unitCount ∧ k < (s.stream n).unitCount ∧ (p.unit k).lost = false ∧ ((p.unit k).committed = false ∨ g + 1 < ((s.stream n).guardsOf k).1 + ((s.stream n).guardsOf k).2)) :=
  ⟨kvSt { kv with pics := [{ pic1 with units := [(0, { unit0 3 [61] with commitTick := 8 }), (2, unit0 3 [4])] }] } [], 3, 1, 0, 1, 0, { pic1 with units := [(0, { unit0 3 [61] with commitTick := 8 }), (2, unit0 3 [4])] }, plan0, by decide +kernel, by decide +kernel, by decide +kernel, by decide +kernel, by decide +kernel, by decide +kernel, by decide +kernel, by decide +kernel, by decide +kernel, by decide +kernel⟩

theorem witness_TheGuardTripsAndReleasesFollowInOrder_3 : ∃ (s : State) (n : Nat) (num : Nat) (p : Pic), ((s.stream n).pic num = some p) ∧ ((p.knownBits (s.stream n)).length ≤ p.evaluated) :=
  ⟨kvSt { kv with pics := [pic1] } [], 3, 1, pic1, by decide +kernel, by decide +kernel⟩

theorem witness_TheGuardTripsAndReleasesFollowInOrder_4 : ∃ (s : State) (s1 : State) (n : Nat) (num : Nat) (j : Nat) (p : Pic) (p1 : Pic) (bound : Option Nat), ((s.stream n).pic num = some p) ∧ ((s.stream n).subFrame = true) ∧ ((s.stream n).inTurn num = true) ∧ (p.releasedUnits = j) ∧ (j + 1 < p.unitCount) ∧ ((p.unit j).committed = true) ∧ (p.finished = true ∨ p.allCommitted = false) ∧ ((s.stream n).rated = false ∨ ((s.stream n).guardsOf j).1 + ((s.stream n).guardsOf j).2 ≤ p.evaluated + 1) ∧ ((match s.writeOut p (p.releaseBytes (s.stream n)) with | (a, b, c) => decide (a = s1) && decide (b = p1) && c) = true) ∧ (bound = s1.releaseBound (s.stream n) p1 j) :=
  ⟨kvSt { kv with subFrame := true, pics := [{ pic1 with evaluated := 1, units := [(0, unit0 3 [61])] }] } [], kvSt { kv with subFrame := true, pics := [{ pic1 with evaluated := 1, units := [(0, unit0 3 [61])] }] } [], 3, 1, 0, { pic1 with evaluated := 1, units := [(0, unit0 3 [61])] }, { pic1 with evaluated := 1, units := [(0, unit0 3 [61])] }, some 10063, by decide +kernel, by decide +kernel, by decide +kernel, by decide +kernel, by decide +kernel, by decide +kernel, by decide +kernel, by decide +kernel, by decide +kernel, by decide +kernel⟩

theorem witness_TheGuardTripsAndReleasesFollowInOrder_5 : ∃ (s : State) (n : Nat) (num : Nat) (j : Nat) (rp : Nat) (id : Nat) (pa : Nat) (p : Pic) (u : Taken) (data : List Byte), ((s.stream n).pic num = some p) ∧ ((s.stream n).subFrame = true) ∧ ((s.stream n).inTurn num = true) ∧ (p.releasedUnits = j) ∧ (j + 1 < p.unitCount) ∧ ((p.unit j).committed = true) ∧ (p.finished = true ∨ p.allCommitted = false) ∧ ((s.stream n).rated = false ∨ ((s.stream n).guardsOf j).1 + ((s.stream n).guardsOf j).2 ≤ p.evaluated + 1) ∧ (p.slip = some (rp, id)) ∧ ((s.ring rp).byId id = some u) ∧ (s.slipWaits rp u = false) ∧ (p.addrFault = false) ∧ (data = p.releaseBytes (s.stream n)) ∧ (data ≠ []) ∧ (p.outLen + data.length ≤ u.word 7) ∧ (s.mapped 7 none (s.get (HIF.RP_CFG_ASID rp)) (u.addr 5 + p.outLen) true pa = true) ∧ ((u.addr 5 + p.outLen) % 4096 + data.length ≤ 4096) ∧ (s.aperture pa = some 8) :=
  ⟨{ ((openSt 5 [slip 7 [0x12340004, 3, 0, 0, 64, 0x8000, 0, 1024]] []).setStream 3 { kv with subFrame := true, pics := [{ pic1 with evaluated := 1, slip := some (5, 7), outLen := 2, units := [(0, unit0 3 [61])] }] }).put MMU.HWIN_SIZE_GIB 1 with mmu := { Mmu.init with tlb := [(9, 8, 12, 0x40000000300D)] } }, 3, 1, 0, 5, 7, 0x400000003002, { pic1 with evaluated := 1, slip := some (5, 7), outLen := 2, units := [(0, unit0 3 [61])] }, slip 7 [0x12340004, 3, 0, 0, 64, 0x8000, 0, 1024], ({ pic1 with evaluated := 1, slip := some (5, 7), outLen := 2, units := [(0, unit0 3 [61])] } : Pic).releaseBytes { kv with subFrame := true }, by decide +kernel, by decide +kernel, by decide +kernel, by decide +kernel, by decide +kernel, by decide +kernel, by decide +kernel, by decide +kernel, by decide +kernel, by decide +kernel, by decide +kernel, by decide +kernel, by decide +kernel, by decide +kernel, by decide +kernel, by decide +kernel, by decide +kernel, by decide +kernel⟩

theorem witness_TheGuardTripsAndReleasesFollowInOrder_6 : ∃ (s : State) (n : Nat) (num : Nat) (p : Pic), ((s.stream n).pic num = some p) ∧ (p.finished = true ∨ p.allCommitted = false) ∧ ((s.stream n).subFrame = false ∨ (s.stream n).inTurn num = false ∨ (p.unit p.releasedUnits).committed = false) :=
  ⟨kvSt { kv with subFrame := true, pics := [pic1] } [], 3, 1, pic1, by decide +kernel, by decide +kernel, by decide +kernel⟩

theorem witness_TheGuardTripsAndReleasesFollowInOrder_7 : ∃ (s : State) (n : Nat) (num : Nat) (p : Pic), ((s.stream n).pics = [p]) ∧ (p.num = num) ∧ ((s.stream n).subFrame = false) ∧ (p.finished = true ∧ p.released = false ∧ p.readers = [] ∧ p.statsHeld = false ∧ p.slip = none ∧ p.netStream = none ∧ p.src = none) ∧ ((s.stream n).recorded = false) ∧ (s.recordWaits n num = false) ∧ ((s.stream n).kind ≠ 1 ∨ (s.stream n).pictureEventsOn = 0) :=
  ⟨kvSt { kv with pics := [{ pic1 with finished := true }] } [], 3, 1, { pic1 with finished := true }, by decide +kernel, by decide +kernel, by decide +kernel, by decide +kernel, by decide +kernel, by decide +kernel, by decide +kernel⟩

theorem witness_TheGuardTripsAndReleasesFollowInOrder_8 : ∃ (s : State) (s1 : State) (n : Nat) (num : Nat) (rp : Nat) (id : Nat) (k : Nat) (p : Pic) (p1 : Pic) (u : Taken), ((s.stream n).pics = [p]) ∧ (p.num = num) ∧ ((s.stream n).subFrame = false) ∧ (p.finished = true ∧ p.released = false ∧ p.netStream = none ∧ p.slipWritten = false ∧ p.src = none) ∧ (p.slip = some (rp, id)) ∧ ((s.stream n).statsP.toHost = false ∨ p.statsHeld = false) ∧ ((match s.writeOut p (p.coded (s.stream n)) with | (a, b, c) => decide (a = s1) && decide (b = p1) && c) = true) ∧ (p1.addrFault = false) ∧ (s1.stream n = s.stream n ∧ (s1.ring rp).byId id = some u ∧ (s1.ring rp).placeOf id = some k ∧ s1.mayComplete rp k u = true) :=
  ⟨{ ((openSt 5 [slip 7 [0x12340004, 3, 0, 0, 64, 0x8000, 0, 1024]] []).setStream 3 { kv with pics := [{ pic1 with finished := true, slip := some (5, 7), addrFault := false, unitCount := 0 }] }).put MMU.HWIN_SIZE_GIB 1 with mmu := { Mmu.init with tlb := [(9, 8, 12, 0x40000000300D)] } }, (State.writeOut { ((openSt 5 [slip 7 [0x12340004, 3, 0, 0, 64, 0x8000, 0, 1024]] []).setStream 3 { kv with pics := [{ pic1 with finished := true, slip := some (5, 7), addrFault := false, unitCount := 0 }] }).put MMU.HWIN_SIZE_GIB 1 with mmu := { Mmu.init with tlb := [(9, 8, 12, 0x40000000300D)] } } { pic1 with finished := true, slip := some (5, 7), addrFault := false, unitCount := 0 } (Pic.coded { pic1 with finished := true, slip := some (5, 7), addrFault := false, unitCount := 0 } kv)).1, 3, 1, 5, 7, 0, { pic1 with finished := true, slip := some (5, 7), addrFault := false, unitCount := 0 }, { pic1 with finished := true, slip := some (5, 7), addrFault := false, unitCount := 0, outLen := (Pic.coded { pic1 with finished := true, slip := some (5, 7), addrFault := false, unitCount := 0 } kv).length }, slip 7 [0x12340004, 3, 0, 0, 64, 0x8000, 0, 1024], by decide +kernel, by decide +kernel, by decide +kernel, by decide +kernel, by decide +kernel, by decide +kernel, by decide +kernel, by decide +kernel, by decide +kernel⟩

theorem witness_TheGuardTripsAndReleasesFollowInOrder_9 : ∃ (s : State) (n : Nat) (num : Nat) (p : Pic), ((s.stream n).pic num = some p) ∧ (p.finished = true ∨ p.allCommitted = false) ∧ ((s.stream n).subFrame = true ∨ p.finished = false ∨ p.released = true ∨ (s.stream n).inTurn num = false) :=
  ⟨kvSt { kv with pics := [pic1] } [], 3, 1, pic1, by decide +kernel, by decide +kernel, by decide +kernel⟩

theorem witness_SearchPlansStatisticsAndAppletCalls_1 : ∃ (s : State) (n : Nat) (num : Nat) (b : Nat) (p : Pic), ((s.stream n).pic num = some p) ∧ ((s.stream n).searches num = true ∧ (s.stream n).kind ≠ 7) ∧ (s.blockLanded (s.stream n) (p.fixed (s.stream n)) b = true) ∧ (p.dispatched = true ∨ s.touched n = false) :=
  ⟨kvSt { kv with secs := { kv.secs with geo := some { (kv.geo) with keyInterval := 9 } }, pics := [{ pic1 with lands := List.range 64 }] } [], 3, 1, 0, { pic1 with lands := List.range 64 }, by decide +kernel, by decide +kernel, by decide +kernel, by decide +kernel⟩

theorem witness_SearchPlansStatisticsAndAppletCalls_2 : ∃ (s : State) (n : Nat) (num : Nat) (b : Nat) (p : Pic), ((s.stream n).pic num = some p) ∧ ((s.stream n).searches num = false ∨ (s.stream n).kind = 7 ∨ s.blockLanded (s.stream n) (p.fixed (s.stream n)) b = false ∨ (p.dispatched = false ∧ s.touched n = true)) :=
  ⟨kvSt { kv with pics := [pic1] } [], 3, 1, 0, pic1, by decide +kernel, by decide +kernel⟩

theorem witness_SearchPlansStatisticsAndAppletCalls_3 : ∃ (s : State) (n : Nat) (num : Nat) (p : Pic), ((s.stream n).pic num = some p) ∧ ((s.stream n).state ≠ .closed ∧ (s.stream n).kind ≠ 7) ∧ (p.coarse = none) ∧ (s.allLanded (s.stream n) p = true) ∧ (num ≠ 0) :=
  ⟨kvSt { kv with pics := [pic1] } [], 3, 1, pic1, by decide +kernel, by decide +kernel, by decide +kernel, by decide +kernel, by decide +kernel⟩

theorem witness_SearchPlansStatisticsAndAppletCalls_4 : ∃ (s : State) (n : Nat) (bs : List Byte) (p : Plan), ((s.stream n).planning = false) ∧ (parsePlan bs = some p) ∧ ((s.stream n).state ≠ .closed ∧ (s.stream n).rated = true) ∧ (((s.stream n).planReq n).valid p = true) ∧ ((match (s.stream n).pic p.pic with | some q => q.dispatched | none => decide (p.pic < (s.stream n).nextPic)) = false) ∧ ((s.stream n).plans.all (fun q => q.pic != p.pic) = true) ∧ ((s.stream n).plans.length < 2) :=
  ⟨kvSt { kv with nextPic := 1 } [], 3, leBytes 4 0x52504C4E ++ [3#8, 0#8] ++ leBytes 2 3 ++ leBytes 4 1 ++ leBytes 4 1000 ++ leBytes 4 10 ++ List.replicate 12 0#8 ++ (List.range 3).flatMap fun _ => leBytes 4 50 ++ leBytes 4 100 ++ [5#8, 0#8, 0#8, 0#8], plan0, by decide +kernel, by decide +kernel, by decide +kernel, by decide +kernel, by decide +kernel, by decide +kernel, by decide +kernel⟩

theorem witness_SearchPlansStatisticsAndAppletCalls_5 : ∃ (s : State) (n : Nat) (bs : List Byte) (p : Plan), ((s.stream n).planning = false) ∧ (parsePlan bs = some p) ∧ ((s.stream n).state ≠ .closed ∧ (s.stream n).rated = true) ∧ (((s.stream n).planReq n).valid p = true) ∧ ((match (s.stream n).pic p.pic with | some q => q.dispatched | none => decide (p.pic < (s.stream n).nextPic)) = false) ∧ ((s.stream n).plans.any (fun q => q.pic == p.pic) = true) :=
  ⟨kvSt { kv with nextPic := 1, plans := [{ plan0 with target := 0 }, { plan0 with pic := 9 }] } [], 3, leBytes 4 0x52504C4E ++ [3#8, 0#8] ++ leBytes 2 3 ++ leBytes 4 1 ++ leBytes 4 1000 ++ leBytes 4 10 ++ List.replicate 12 0#8 ++ (List.range 3).flatMap fun _ => leBytes 4 50 ++ leBytes 4 100 ++ [5#8, 0#8, 0#8, 0#8], plan0, by decide +kernel, by decide +kernel, by decide +kernel, by decide +kernel, by decide +kernel, by decide +kernel⟩

theorem witness_SearchPlansStatisticsAndAppletCalls_6 : ∃ (s : State) (n : Nat) (bs : List Byte) (p : Plan), ((s.stream n).planning = false) ∧ (parsePlan bs = some p) ∧ ((s.stream n).state ≠ .closed ∧ (s.stream n).rated = true) ∧ (((s.stream n).planReq n).valid p = true) ∧ ((match (s.stream n).pic p.pic with | some q => q.dispatched | none => decide (p.pic < (s.stream n).nextPic)) = false) ∧ ((s.stream n).plans.all (fun q => q.pic != p.pic) = true) ∧ (2 ≤ (s.stream n).plans.length) :=
  ⟨kvSt { kv with nextPic := 1, plans := [{ plan0 with pic := 8 }, { plan0 with pic := 9 }] } [], 3, leBytes 4 0x52504C4E ++ [3#8, 0#8] ++ leBytes 2 3 ++ leBytes 4 1 ++ leBytes 4 1000 ++ leBytes 4 10 ++ List.replicate 12 0#8 ++ (List.range 3).flatMap fun _ => leBytes 4 50 ++ leBytes 4 100 ++ [5#8, 0#8, 0#8, 0#8], plan0, by decide +kernel, by decide +kernel, by decide +kernel, by decide +kernel, by decide +kernel, by decide +kernel, by decide +kernel⟩

theorem witness_SearchPlansStatisticsAndAppletCalls_7 : ∃ (s : State) (n : Nat) (bs : List Byte) (p : Plan), ((s.stream n).planning = false) ∧ (parsePlan bs = some p) ∧ ((s.stream n).state ≠ .closed ∧ (s.stream n).rated = true) ∧ (((s.stream n).planReq n).valid p = true) ∧ ((match (s.stream n).pic p.pic with | some q => q.dispatched | none => decide (p.pic < (s.stream n).nextPic)) = true) :=
  ⟨kvSt kv [], 3, leBytes 4 0x52504C4E ++ [3#8, 0#8] ++ leBytes 2 3 ++ leBytes 4 1 ++ leBytes 4 1000 ++ leBytes 4 10 ++ List.replicate 12 0#8 ++ (List.range 3).flatMap fun _ => leBytes 4 50 ++ leBytes 4 100 ++ [5#8, 0#8, 0#8, 0#8], plan0, by decide +kernel, by decide +kernel, by decide +kernel, by decide +kernel, by decide +kernel⟩

theorem witness_SearchPlansStatisticsAndAppletCalls_8 : ∃ (s : State) (n : Nat) (bs : List Byte), ((s.stream n).planning = false) ∧ ((match parsePlan bs with | some p => !(((s.stream n).planReq n).valid p) | none => true) = true) :=
  ⟨kvSt kv [], 3, leBytes 4 0x52504C4F, by decide +kernel, by decide +kernel⟩

theorem witness_SearchPlansStatisticsAndAppletCalls_9 : ∃ (s : State) (n : Nat) (bs : List Byte) (p : Plan) (a : Applet), ((s.stream n).applet = some a ∧ a.active = true ∧ a.call ≠ none) ∧ (parsePlan bs = some p) ∧ ((s.stream n).state ≠ .closed ∧ (s.stream n).rated = true) ∧ (((s.stream n).planReq n).valid p = true) ∧ ((match (s.stream n).pic p.pic with | some q => q.dispatched | none => decide (p.pic < (s.stream n).nextPic)) = false) ∧ ((s.stream n).plans.all (fun q => q.pic != p.pic) = true) ∧ ((s.stream n).plans.length < 2) :=
  ⟨kvSt { kv with nextPic := 1, applet := some app0 } [], 3, leBytes 4 0x52504C4E ++ [3#8, 0#8] ++ leBytes 2 3 ++ leBytes 4 1 ++ leBytes 4 1000 ++ leBytes 4 10 ++ List.replicate 12 0#8 ++ (List.range 3).flatMap fun _ => leBytes 4 50 ++ leBytes 4 100 ++ [5#8, 0#8, 0#8, 0#8], plan0, app0, by decide +kernel, by decide +kernel, by decide +kernel, by decide +kernel, by decide +kernel, by decide +kernel, by decide +kernel⟩

theorem witness_SearchPlansStatisticsAndAppletCalls_10 : ∃ (s : State) (n : Nat) (bs : List Byte) (p : Plan) (a : Applet), ((s.stream n).applet = some a) ∧ (a.call.any (fun c => c.entry == .rcPlan) = true ∧ a.queue = []) ∧ (parsePlan bs = some p) ∧ ((s.stream n).state ≠ .closed ∧ (s.stream n).rated = true) ∧ (((s.stream n).planReq n).valid p = true) ∧ ((match (s.stream n).pic p.pic with | some q => q.dispatched | none => decide (p.pic < (s.stream n).nextPic)) = false) ∧ ((s.stream n).plans.all (fun q => q.pic != p.pic) = true) ∧ ((s.stream n).plans.length < 2) :=
  ⟨kvSt { kv with nextPic := 1, applet := some { app0 with call := some (call0 .rcPlan) } } [], 3, leBytes 4 0x52504C4E ++ [3#8, 0#8] ++ leBytes 2 3 ++ leBytes 4 1 ++ leBytes 4 1000 ++ leBytes 4 10 ++ List.replicate 12 0#8 ++ (List.range 3).flatMap fun _ => leBytes 4 50 ++ leBytes 4 100 ++ [5#8, 0#8, 0#8, 0#8], plan0, { app0 with call := some (call0 .rcPlan) }, by decide +kernel, by decide +kernel, by decide +kernel, by decide +kernel, by decide +kernel, by decide +kernel, by decide +kernel, by decide +kernel⟩

theorem witness_SearchPlansStatisticsAndAppletCalls_11 : ∃ (s : State) (n : Nat), ((match (s.stream n).applet with | some a => a.active && a.call.isSome | none => false) = false) :=
  ⟨kvSt kv [], 3, by decide +kernel⟩

theorem witness_SearchPlansStatisticsAndAppletCalls_12 : ∃ (s : State) (n : Nat) (num : Nat) (v : Nat) (a : Applet), ((s.stream n).applet = some a ∧ a.active = true ∧ a.call ≠ none) ∧ (v = match (s.stream n).coarse.find? (fun q => q.1 == num) with | some q => q.2 | none => statusWord (-1)) :=
  ⟨kvSt { kv with applet := some app0 } [], 3, 1, 2 ^ 64 - 1, app0, by decide +kernel, by decide +kernel⟩

theorem witness_SearchPlansStatisticsAndAppletCalls_13 : ∃ (s : State) (n : Nat) (a : Applet), ((s.stream n).applet = some a ∧ a.active = true ∧ a.call ≠ none) :=
  ⟨{ kvSt { kv with applet := some app0 } [] with time := 5 * 2 ^ 60 + 2 ^ 30 }, 3, app0, by decide +kernel⟩

theorem witness_SearchPlansStatisticsAndAppletCalls_14 : ∃ (s : State) (n : Nat) (a : Applet), ((s.stream n).applet = some a) ∧ (a.active = true ∧ a.call ≠ none) :=
  ⟨kvSt { kv with applet := some { app0 with log := List.replicate 64 (3, 4) } } [], 3, { app0 with log := List.replicate 64 (3, 4) }, by decide +kernel, by decide +kernel⟩

theorem witness_SearchPlansStatisticsAndAppletCalls_15 : ∃ (s : State) (n : Nat) (num : Nat) (h : Nat) (x : Stream) (p : Pic) (q : StatsFolio), (s.stream n = x) ∧ (x.pic num = some p) ∧ (p.statsHeld = true ∧ p.folio = some h) ∧ ((match x.applet with | some a => !a.active | none => true) = true) ∧ (s.isLent h = true ∧ 1 < (s.lent h).count) ∧ (x.pics.all (fun k => !k.released) = true) ∧ (s.statsOf n p = q) :=
  ⟨((kvSt { kv with pics := [{ pic1 with unitCount := 0, statsHeld := true, folio := some 0x88000000 }] } []).setPool 1 { Pool.init with lent := [(0, { owner := 0xC0, count := 2 })] }), 3, 1, 0x88000000, { kv with pics := [{ pic1 with unitCount := 0, statsHeld := true, folio := some 0x88000000 }] }, { pic1 with unitCount := 0, statsHeld := true, folio := some 0x88000000 }, (((kvSt { kv with pics := [{ pic1 with unitCount := 0, statsHeld := true, folio := some 0x88000000 }] } []).setPool 1 { Pool.init with lent := [(0, { owner := 0xC0, count := 2 })] })).statsOf 3 { pic1 with unitCount := 0, statsHeld := true, folio := some 0x88000000 }, by decide +kernel, by decide +kernel, by decide +kernel, by decide +kernel, by decide +kernel, by decide +kernel, rfl⟩

theorem witness_SearchPlansStatisticsAndAppletCalls_16 : ∃ (s : State) (n : Nat) (num : Nat) (h : Nat) (x : Stream) (p : Pic) (a : Applet), (s.stream n = x) ∧ (x.pic num = some p) ∧ (p.statsHeld = true ∧ p.folio = some h) ∧ (x.applet = some a ∧ a.active = true ∧ a.call = none ∧ a.queue = []) :=
  ⟨((kvSt { kv with applet := some { app0 with call := none }, pics := [{ pic1 with unitCount := 0, statsHeld := true, folio := some 0x88000000 }] } []).setPool 1 { Pool.init with lent := [(0, { owner := 0xC0, count := 2 })] }), 3, 1, 0x88000000, { kv with applet := some { app0 with call := none }, pics := [{ pic1 with unitCount := 0, statsHeld := true, folio := some 0x88000000 }] }, { pic1 with unitCount := 0, statsHeld := true, folio := some 0x88000000 }, { app0 with call := none }, by decide +kernel, by decide +kernel, by decide +kernel, by decide +kernel⟩

theorem witness_SearchPlansStatisticsAndAppletCalls_17 : ∃ (s : State) (n : Nat) (a : Applet) (c : AppletCall), ((s.stream n).applet = some a) ∧ (a.active = true ∧ a.call = some c) ∧ ((c :: a.queue).all (fun d => d.entry != .rcResult) = true) ∧ (s.get (hartPair a.hart) < 5) ∧ (s.power.held = false) ∧ (c.entry.limit < s.ticks - c.tick) :=
  ⟨{ kvSt { kv with applet := some app0 } [] with ticks := 250001 }, 3, app0, call0 .rcOpen, by decide +kernel, by decide +kernel, by decide +kernel, by decide +kernel, by decide +kernel, by decide +kernel⟩

theorem witness_SearchPlansStatisticsAndAppletCalls_18 : ∃ (s : State) (n : Nat) (f : AppletFault) (a : Applet) (c : AppletCall), ((s.stream n).applet = some a) ∧ (a.active = true ∧ a.call = some c) ∧ ((c :: a.queue).all (fun d => d.entry != .rcResult) = true) ∧ (s.get (hartPair a.hart) < 5) ∧ (s.power.held = false) ∧ (trapsOf f ((s.hart a.hart).regs.pmp.take 5 ++ a.regions c) = true) :=
  ⟨kvSt { kv with applet := some app0 } [], 3, .access 0 0x9000 8, app0, call0 .rcOpen, by decide +kernel, by decide +kernel, by decide +kernel, by decide +kernel, by decide +kernel, by decide +kernel⟩

theorem witness_SearchPlansStatisticsAndAppletCalls_19 : ∃ (s : State) (n : Nat) (a : Applet) (c : AppletCall), ((s.stream n).applet = some a) ∧ (a.call = some c) :=
  ⟨kvSt { kv with applet := some app0 } [], 3, app0, call0 .rcOpen, by decide +kernel, by decide +kernel⟩

theorem witness_SearchPlansStatisticsAndAppletCalls_20 : ∃ (s : State) (n : Nat), ((s.stream n).appletOn = false) :=
  ⟨kvSt kv [], 3, by decide +kernel⟩

theorem witness_FlowsPaceAndQueueTheirPackets_1 : ∃ (s : State) (p : Nat) (f : Nat) (k : Nat) (v : Flow) (w : NetP) (q : Pic), (s.flow p f = some v) ∧ ((s.stream v.stream).secs.network = some w) ∧ (w.media = 0 ∧ v.closing = false) ∧ (s.periodOf (s.stream v.stream) = k) ∧ (v.period < k) ∧ ((s.fitAt v w k).getLast? = some q) ∧ ((s.stream v.stream).pics.all (fun r => !(decide (v.nextPic ≤ r.num ∧ r.num < q.num))) = true) :=
  ⟨nsSt 0 [npic 3 2560, npic 2 9] flow0 80000000 [], 1, 2, 2, flow0, netw, npic 3 2560, by decide +kernel, by decide +kernel, by decide +kernel, by decide +kernel, by decide +kernel, by decide +kernel, by decide +kernel⟩

theorem witness_FlowsPaceAndQueueTheirPackets_2 : ∃ (s : State) (p : Nat) (f : Nat) (k : Nat) (v : Flow) (w : NetP) (q : Pic) (old : List Nat), (s.flow p f = some v) ∧ ((s.stream v.stream).secs.network = some w) ∧ (w.media = 0 ∧ v.closing = false) ∧ (s.periodOf (s.stream v.stream) = k) ∧ (v.period < k) ∧ ((s.fitAt v w k).getLast? = some q) ∧ (old = ((s.stream v.stream).pics.filter fun r => decide (v.nextPic ≤ r.num ∧ r.num < q.num)).map (fun r => r.num)) :=
  ⟨nsSt 0 [npic 3 2560, npic 4 9, npic 5 9] flow0 80000000 [], 1, 2, 2, flow0, netw, npic 5 9, [3, 4], by decide +kernel, by decide +kernel, by decide +kernel, by decide +kernel, by decide +kernel, by decide +kernel, by decide +kernel⟩

theorem witness_FlowsPaceAndQueueTheirPackets_3 : ∃ (s : State) (p : Nat) (f : Nat) (k : Nat) (v : Flow) (w : NetP), (s.flow p f = some v) ∧ ((s.stream v.stream).secs.network = some w) ∧ (w.media = 0 ∧ v.closing = false) ∧ (s.periodOf (s.stream v.stream) = k) ∧ (v.period < k) ∧ (s.fitAt v w k = []) :=
  ⟨nsSt 0 [] flow0 80000000 [], 1, 2, 2, flow0, netw, by decide +kernel, by decide +kernel, by decide +kernel, by decide +kernel, by decide +kernel, by decide +kernel⟩

theorem witness_FlowsPaceAndQueueTheirPackets_4 : ∃ (s : State) (p : Nat) (f : Nat) (v : Flow), (s.flow p f = some v) ∧ (s.periodOf (s.stream v.stream) ≤ v.period) :=
  ⟨nsSt 0 [npic 3 2560] flow0 39999998 [], 1, 2, flow0, by decide +kernel, by decide +kernel⟩

theorem witness_FlowsPaceAndQueueTheirPackets_5 : ∃ (s : State) (p : Nat) (f : Nat) (k : Nat) (num : Nat) (due : Nat) (v : Flow) (w : NetP) (q : Pic) (pkt : List Byte × Bool) (l : List (Nat × Nat)), (s.flow p f = some v) ∧ ((s.stream v.stream).secs.network = some w) ∧ (w.media = 0) ∧ (v.sending = (k, num) :: l) ∧ ((s.stream v.stream).pic num = some q) ∧ (due = (s.stream v.stream).dueAt w k v.j) ∧ (due ≤ s.nowNs) ∧ ((s.stream v.stream).packetAt w q v.j = some pkt) ∧ (pkt.2 = false) ∧ (s.linkUp p = true) :=
  ⟨nsSt 0 [npic 3 2560] { flow0 with sending := [(2, 3)], j := 1 } 200000000 [], 1, 2, 2, 3, (nw 0 []).dueAt netw 2 1, { flow0 with sending := [(2, 3)], j := 1 }, netw, npic 3 2560, ((nw 0 []).rowHeaders 1 ++ List.replicate 1260 7#8, false), [], by decide +kernel, by decide +kernel, by decide +kernel, by decide +kernel, by decide +kernel, by decide +kernel, by decide +kernel, by decide +kernel, by decide +kernel, by decide +kernel⟩

theorem witness_FlowsPaceAndQueueTheirPackets_6 : ∃ (s : State) (p : Nat) (f : Nat) (k : Nat) (num : Nat) (due : Nat) (v : Flow) (w : NetP) (q : Pic) (pkt : List Byte × Bool) (l : List (Nat × Nat)), (s.flow p f = some v) ∧ ((s.stream v.stream).secs.network = some w) ∧ (w.media = 0) ∧ (v.sending = (k, num) :: l) ∧ ((s.stream v.stream).pic num = some q) ∧ (due = (s.stream v.stream).dueAt w k v.j) ∧ (due ≤ s.nowNs) ∧ ((s.stream v.stream).packetAt w q v.j = some pkt) ∧ (pkt.2 = true) ∧ (s.linkUp p = true) ∧ (q.num = num ∧ q.readers.length = 1) :=
  ⟨nsSt 0 [npic 3 2560] { flow0 with sending := [(2, 3), (3, 4)], j := 2 } 200000000 [], 1, 2, 2, 3, (nw 0 []).dueAt netw 2 2, { flow0 with sending := [(2, 3), (3, 4)], j := 2 }, netw, npic 3 2560, ((nw 0 []).rowHeaders 2 ++ List.replicate 40 7#8, true), [(3, 4)], by decide +kernel, by decide +kernel, by decide +kernel, by decide +kernel, by decide +kernel, by decide +kernel, by decide +kernel, by decide +kernel, by decide +kernel, by decide +kernel, by decide +kernel⟩

theorem witness_FlowsPaceAndQueueTheirPackets_7 : ∃ (s : State) (p : Nat) (f : Nat) (k : Nat) (num : Nat) (v : Flow) (w : NetP) (q : Pic) (l : List (Nat × Nat)), (s.flow p f = some v) ∧ ((s.stream v.stream).secs.network = some w) ∧ (w.media = 0) ∧ (v.sending = (k, num) :: l) ∧ ((s.stream v.stream).pic num = some q) ∧ (s.nowNs < (s.stream v.stream).dueAt w k v.j ∨ (s.stream v.stream).packetAt w q v.j = none) :=
  ⟨nsSt 0 [npic 3 2560] { flow0 with sending := [(2, 3)] } 80000000 [], 1, 2, 2, 3, { flow0 with sending := [(2, 3)] }, netw, npic 3 2560, [], by decide +kernel, by decide +kernel, by decide +kernel, by decide +kernel, by decide +kernel, by decide +kernel⟩

theorem witness_FlowsPaceAndQueueTheirPackets_8 : ∃ (s : State) (p : Nat) (f : Nat) (k : Nat) (num : Nat) (v : Flow) (w : NetP) (q : Pic) (pkt : List Byte × Bool) (l : List (Nat × Nat)), (s.flow p f = some v) ∧ ((s.stream v.stream).secs.network = some w) ∧ (w.media = 0) ∧ (v.sending = (k, num) :: l) ∧ (v.j ≠ 0) ∧ ((s.stream v.stream).pic num = some q) ∧ ((s.stream v.stream).dueAt w k v.j ≤ s.nowNs) ∧ ((s.stream v.stream).packetAt w q v.j = some pkt) ∧ (pkt.2 = false) ∧ (s.linkUp p = false) :=
  ⟨(nsSt 0 [npic 3 2560] { flow0 with sending := [(2, 3)], j := 1 } 200000000 []).put (NET.PORT_STAT_LINK_UP 1) 0, 1, 2, 2, 3, { flow0 with sending := [(2, 3)], j := 1 }, netw, npic 3 2560, ((nw 0 []).rowHeaders 1 ++ List.replicate 1260 7#8, false), [], by decide +kernel, by decide +kernel, by decide +kernel, by decide +kernel, by decide +kernel, by decide +kernel, by decide +kernel, by decide +kernel, by decide +kernel, by decide +kernel⟩

theorem witness_FlowsPaceAndQueueTheirPackets_9 : ∃ (s : State) (p : Nat) (f : Nat) (v : Flow) (w : NetP) (q : Pic) (pkt : List Byte × Bool), (s.flow p f = some v) ∧ ((s.stream v.stream).secs.network = some w) ∧ (w.media ≠ 0) ∧ (v.sending = [] ∧ v.closing = false ∧ v.lastLen = 0) ∧ ((s.stream v.stream).nextToSend v = some q) ∧ ((s.stream v.stream).pic q.num = some q) ∧ ((s.stream v.stream).packetAt w q 0 = some pkt) ∧ (pkt.2 = false) ∧ (s.linkUp p = true) :=
  ⟨nsSt 1 [{ npic 3 0 with units := [(0, { UnitRec.init with code := { Coded.init with bytes := [0#8, 0#8, 1#8, 2#8, 3#8, 0#8, 0#8, 1#8, 4#8] } })] }] flow0 7 [], 1, 2, flow0, { netw with media := 1 }, { npic 3 0 with units := [(0, { UnitRec.init with code := { Coded.init with bytes := [0#8, 0#8, 1#8, 2#8, 3#8, 0#8, 0#8, 1#8, 4#8] } })] }, ([2#8, 3#8], false), by decide +kernel, by decide +kernel, by decide +kernel, by decide +kernel, by decide +kernel, by decide +kernel, by decide +kernel, by decide +kernel, by decide +kernel⟩

theorem witness_FlowsPaceAndQueueTheirPackets_10 : ∃ (s : State) (p : Nat) (f : Nat) (k : Nat) (num : Nat) (v : Flow) (w : NetP) (q : Pic) (l : List (Nat × Nat)), (s.flow p f = some v) ∧ ((s.stream v.stream).secs.network = some w) ∧ (w.media ≠ 0) ∧ (v.sending = (k, num) :: l) ∧ ((s.stream v.stream).pic num = some q) ∧ (v.lastLen ≠ 0) ∧ (s.nowNs < v.lastStart + ceilDiv ((v.lastLen + 81 + w.extra) * 8 * 1000000000) (max 1 (s.stream v.stream).secs.flowRate)) :=
  ⟨nsSt 1 [npic 3 1] { flow0 with sending := [(0, 3)], lastLen := 9, lastStart := 4 } 7 [], 1, 2, 0, 3, { flow0 with sending := [(0, 3)], lastLen := 9, lastStart := 4 }, { netw with media := 1 }, npic 3 1, [], by decide +kernel, by decide +kernel, by decide +kernel, by decide +kernel, by decide +kernel, by decide +kernel, by decide +kernel⟩

theorem witness_FramesLeaveByClassGateAndCredit_1 : ∃ (s : State) (p : Nat) (c : Nat) (ty : Nat) (f : NetFrame) (l : List NetFrame), (s.netPresent p = true) ∧ (s.linkUp p = true) ∧ ((match (s.port p).busy with | some (_, e) => decide (s.nowNs < e) | none => false) = false) ∧ (c < 8) ∧ ((s.account p).classReady p c = true) ∧ (∀ d, d < 8 → c < d → (s.account p).classReady p d = false) ∧ (s.netQueue p c = f :: l) ∧ (f.body = .reply ty) ∧ ((List.range 16).all (fun i => match s.flow p i with | some r => !r.closing | none => true) = true) :=
  ⟨nqSt 1000 [(3, [frm (.reply 1), frm (.reply 2)]), (6, [frm (.reply 0)])] [(NET.CBS_IDLE_VALUE 1 6, 100), (NET.CBS_LO_VALUE 1 6, 1000), (NET.CBS_HI_VALUE 1 6, 1000)], 1, 6, 0, frm (.reply 0), [], by decide +kernel, by decide +kernel, by decide +kernel, by decide +kernel, by decide +kernel, by decide +kernel, by decide +kernel, by decide +kernel, by decide +kernel⟩

theorem witness_FramesLeaveByClassGateAndCredit_2 : ∃ (s : State) (p : Nat) (c : Nat) (g : Nat) (num : Nat) (j : Nat) (seq : Nat) (ts : Nat) (mk : Bool) (pay : List Byte) (f : NetFrame) (l : List NetFrame), (s.netPresent p = true) ∧ (s.linkUp p = true) ∧ ((match (s.port p).busy with | some (_, e) => decide (s.nowNs < e) | none => false) = false) ∧ (c < 8) ∧ ((s.account p).classReady p c = true) ∧ (∀ d, d < 8 → c < d → (s.account p).classReady p d = false) ∧ (s.netQueue p c = f :: l) ∧ (f.body = .media g num j seq ts mk pay) ∧ (j ≠ 0 ∧ g < 16) ∧ ((List.range 16).all (fun i => match s.flow p i with | some r => !r.closing | none => true) = true) :=
  ⟨nqSt 2000 [(7, [frm (.media 2 3 1 0 0 false [])])] [], 1, 7, 2, 3, 1, 0, 0, false, [], frm (.media 2 3 1 0 0 false []), [], by decide +kernel, by decide +kernel, by decide +kernel, by decide +kernel, by decide +kernel, by decide +kernel, by decide +kernel, by decide +kernel, by decide +kernel, by decide +kernel⟩

theorem witness_FramesLeaveByClassGateAndCredit_3 : ∃ (s : State) (p : Nat) (c : Nat) (g : Nat) (num : Nat) (seq : Nat) (ts : Nat) (m : Nat) (k : Nat) (mk : Bool) (pay : List Byte) (f : NetFrame) (l : List NetFrame) (v : Flow) (q : Pic), (s.netPresent p = true) ∧ (s.linkUp p = true) ∧ ((match (s.port p).busy with | some (_, e) => decide (s.nowNs < e) | none => false) = false) ∧ (c < 8) ∧ ((s.account p).classReady p c = true) ∧ (∀ d, d < 8 → c < d → (s.account p).classReady p d = false) ∧ (s.netQueue p c = f :: l) ∧ (f.body = .media g num 0 seq ts mk pay) ∧ (s.flow p g = some v) ∧ (v.path = 0) ∧ ((List.range 16).all (fun i => match s.flow p i with | some r => !r.closing | none => true) = true) ∧ (((s.stream v.stream).pic num).bind (fun r => r.src) = some (m, k)) ∧ ((s.stream m).pic k = some q) ∧ (q.netStream = some v.stream ∧ q.depart = none ∧ q.notSent = false ∧ q.released = false) :=
  ⟨((nqSt 2000 [(7, [frm (.media 2 3 0 0 0 false [])])] []).setStream 4 (nw 0 [{ npic 3 2560 with src := some (3, 1) }])).setStream 3 { kv with pics := [{ pic1 with netStream := some 4 }] }, 1, 7, 2, 3, 0, 0, 3, 1, false, [], frm (.media 2 3 0 0 0 false []), [], flow0, { pic1 with netStream := some 4 }, by decide +kernel, by decide +kernel, by decide +kernel, by decide +kernel, by decide +kernel, by decide +kernel, by decide +kernel, by decide +kernel, by decide +kernel, by decide +kernel, by decide +kernel, by decide +kernel, by decide +kernel, by decide +kernel⟩

theorem witness_FramesLeaveByClassGateAndCredit_4 : ∃ (s : State) (p : Nat), (s.netPresent p = true) ∧ (s.linkUp p = true) ∧ ((match (s.port p).busy with | some (_, e) => decide (s.nowNs < e) | none => false) = true ∨ ∀ d, d < 8 → (s.account p).classReady p d = false) :=
  ⟨let s := nqSt 2000 [(7, [frm (.reply 0)])] []; s.setPort 1 { s.port 1 with oper := some { base := 0, cycle := 1000, entries := [(0x7F, 1000)] } }, 1, by decide +kernel, by decide +kernel, by decide +kernel⟩

theorem witness_FramesLeaveByClassGateAndCredit_5 : ∃ (s : State) (p : Nat), (s.netPresent p = true) ∧ (s.linkUp p = false) ∧ ((match (s.port p).busy with | some (_, e) => decide (s.nowNs < e) | none => false) = false) ∧ (p < 2) :=
  ⟨(nqSt 2000 [(7, [frm (.reply 0)]), (0, [frm (.reply 0), frm (.reply 0)])] []).put (NET.PORT_STAT_LINK_UP 1) 0, 1, by decide +kernel, by decide +kernel, by decide +kernel, by decide +kernel⟩

theorem witness_FramesLeaveByClassGateAndCredit_6 : ∃ (s : State) (p : Nat) (c : Nat) (b : Nat) (g : GateList) (f : NetFrame) (l : List NetFrame), (((((s.account p).noteBlocked p c).port p).cls c).blocked = some b) ∧ ((s.port p).oper = some g) ∧ (s.netQueue p c = f :: l) ∧ (g.cycle ≤ s.nowNs - b) ∧ (g.fits c (wireNs f.len) = false) ∧ (f.body.leads s p = none) ∧ ((List.range 16).all (fun i => match s.flow p i with | some r => !r.closing | none => true) = true) :=
  ⟨let s := nqSt 2000 [] []; s.setPort 1 ({ s.port 1 with oper := some { base := 0, cycle := 1000, entries := [(0x7F, 1), (0xEF, 999)] } }.setCls 4 { NetClass.init with queue := [frm (.reply 0)], blocked := some 1000 }), 1, 4, 1000, { base := 0, cycle := 1000, entries := [(0x7F, 1), (0xEF, 999)] }, frm (.reply 0), [], by decide +kernel, by decide +kernel, by decide +kernel, by decide +kernel, by decide +kernel, by decide +kernel, by decide +kernel⟩

theorem witness_FramesLeaveByClassGateAndCredit_7 : ∃ (s : State) (p : Nat) (c : Nat) (b : Nat) (g : GateList) (f : NetFrame) (l : List NetFrame), (((((s.account p).noteBlocked p c).port p).cls c).blocked = some b) ∧ ((s.port p).oper = some g) ∧ (s.netQueue p c = f :: l) ∧ (s.nowNs - b < g.cycle ∨ g.fits c (wireNs f.len) = true) :=
  ⟨let s := nqSt 2000 [] []; s.setPort 1 ({ s.port 1 with oper := some { base := 0, cycle := 1000, entries := [(0x7F, 1), (0xEF, 999)] } }.setCls 4 { NetClass.init with queue := [frm (.reply 0)], blocked := some 1001 }), 1, 4, 1001, { base := 0, cycle := 1000, entries := [(0x7F, 1), (0xEF, 999)] }, frm (.reply 0), [], by decide +kernel, by decide +kernel, by decide +kernel, by decide +kernel⟩

theorem witness_FramesLeaveByClassGateAndCredit_8 : ∃ (s : State) (p : Nat), (s.netPresent p = false ∨ s.usSince (s.port p).sampled < s.get (NET.TEL_CFG_SAMPLE_US p)) :=
  ⟨nqSt 2000 [] [(NET.TEL_CFG_SAMPLE_US 1, 100)], 1, by decide +kernel⟩

theorem witness_FramesLeaveByClassGateAndCredit_9 : ∃ (s : State) (p : Nat) (c : Nat), (s.netPresent p = true) ∧ (c < 8) ∧ (((s.port p).cls c).n ≠ 0) ∧ (s.get (NET.TEL_CFG_SAMPLE_US p) ≤ s.usSince (s.port p).sampled) :=
  ⟨let s := { nqSt 2000 [] [(NET.TEL_CFG_SAMPLE_US 1, 100)] with ticks := 25000 }; s.setPort 1 ((s.port 1).setCls 4 { NetClass.init with queue := [frm (.reply 0), frm (.reply 0)], sum := 700, n := 2 }), 1, 4, by decide +kernel, by decide +kernel, by decide +kernel, by decide +kernel⟩

theorem witness_FramesLeaveByClassGateAndCredit_10 : ∃ (s : State) (p : Nat), (s.linkUp p = true) ∧ (∀ f, f < 16 → s.flow p f = none) ∧ (p < 2) :=
  ⟨(nqSt 2000 [(7, [frm (.reply 0)])] []).setFlow 1 2 none, 1, by decide +kernel, by decide +kernel, by decide +kernel⟩

theorem witness_FramesLeaveByClassGateAndCredit_11 : ∃ (s : State) (p : Nat) (f : Nat) (v : Flow), (s.linkUp p = true) ∧ (s.flow p f = some v) ∧ (f < 16) ∧ ((List.range 16).all (fun i => match s.flow p i with | some r => !r.closing | none => true) = true) ∧ (s.rgs.raises (netUnit p) 3 = false) ∧ (s.power.held = false) ∧ (p < 2) :=
  ⟨nqSt 2000 [(7, [frm (.reply 0)])] [], 1, 2, flow0, by decide +kernel, by decide +kernel, by decide +kernel, by decide +kernel, by decide +kernel, by decide +kernel, by decide +kernel⟩

theorem witness_FramesLeaveByClassGateAndCredit_12 : ∃ (s : State) (p : Nat), (s.linkUp p = false) :=
  ⟨State.reset, 1, by decide +kernel⟩

theorem witness_FramesLeaveByClassGateAndCredit_13 : ∃ (s : State) (p : Nat), (s.netPresent p = true) ∧ (s.on (NET.PORT_CFG_ENABLE p) = true) ∧ (s.linkUp p = false) ∧ (∀ f, f < 16 → (match s.flow p f with | some v => decide (v.sending = []) | none => true) = true) :=
  ⟨(nqSt 2000 [] []).put (NET.PORT_STAT_LINK_UP 1) 0, 1, by decide +kernel, by decide +kernel, by decide +kernel, by decide +kernel⟩

theorem witness_FramesLeaveByClassGateAndCredit_14 : ∃ (s : State) (p : Nat) (f : Nat) (k : Nat) (num : Nat) (v : Flow) (w : NetP), (s.netPresent p = true) ∧ (s.on (NET.PORT_CFG_ENABLE p) = true) ∧ (s.linkUp p = false) ∧ (s.flow p f = some v) ∧ (f < 16 ∧ ∀ i, i < 16 → i ≠ f → s.flow p i = none) ∧ ((s.stream v.stream).secs.network = some w) ∧ (w.media = 0) ∧ (v.sending = [(k, num)]) ∧ (v.j ≠ 0) ∧ (v.j + 2 = (s.stream v.stream).packetCount) ∧ ((s.stream v.stream).dueAt w k v.j < s.nowNs) ∧ (s.nowNs ≤ (s.stream v.stream).dueAt w k (v.j + 1)) :=
  ⟨(nsSt 0 [npic 3 2560] { flow0 with sending := [(2, 3)], j := 1 } ((nw 0 []).dueAt netw 2 1 + 1) []).put (NET.PORT_STAT_LINK_UP 1) 0, 1, 2, 2, 3, { flow0 with sending := [(2, 3)], j := 1 }, netw, by decide +kernel, by decide +kernel, by decide +kernel, by decide +kernel, by decide +kernel, by decide +kernel, by decide +kernel, by decide +kernel, by decide +kernel, by decide +kernel, by decide +kernel, by decide +kernel⟩

theorem witness_FramesLeaveByClassGateAndCredit_15 : ∃ (s : State) (p : Nat) (v : Nat), (s.netPresent p = true) ∧ (bitAt v 0 = true) ∧ (s.on (NET.PORT_CFG_ENABLE p) = false) ∧ (bits v 1 2 ≠ 3) :=
  ⟨running, 1, 0x735, by decide +kernel, by decide +kernel, by decide +kernel, by decide +kernel⟩

theorem witness_FramesLeaveByClassGateAndCredit_16 : ∃ (s : State) (p : Nat) (v : Nat), (s.netPresent p = true) ∧ (bitAt v 0 = false) :=
  ⟨nqSt 2000 [(7, [frm (.reply 0)])] [], 1, 0, by decide +kernel, by decide +kernel⟩

theorem witness_GatesShapersFiltersAndTheModuleBus_1 : ∃ (s : State) (p : Nat), (s.netPresent p = true) ∧ ((s.port p).pending = none ∨ s.nowNs < (s.port p).start) ∧ (s.adminOk p = false) :=
  ⟨running, 1, by decide +kernel, by decide +kernel, by decide +kernel⟩

theorem witness_GatesShapersFiltersAndTheModuleBus_2 : ∃ (s : State) (p : Nat) (m : Nat), (s.netPresent p = true) ∧ ((s.port p).pending = none ∨ s.nowNs < (s.port p).start) ∧ (s.adminOk p = true) ∧ ((s.adminList p).firstAt s.leadNs = m) :=
  ⟨st [(NET.ADMIN_LENGTH_VALUE 1, 1), (NET.ADMIN_CYCLE_NS_VALUE 1, 4000), (NET.GCL_ADMIN_INTERVAL_INTERVAL 1 0, 4000)], 1, 3, by decide +kernel, by decide +kernel, by decide +kernel, by decide +kernel⟩

theorem witness_GatesShapersFiltersAndTheModuleBus_3 : ∃ (s : State) (p : Nat) (l : GateList), ((s.port p).pending = some l) ∧ ((s.port p).start ≤ s.nowNs) ∧ (p < 2) :=
  ⟨(nqSt 5000 [] []).setPort 1 { NetPort.init with pending := some { base := 0, cycle := 2000, entries := [(0x81, 500), (0x10, 700)] }, start := 5000 }, 1, { base := 0, cycle := 2000, entries := [(0x81, 500), (0x10, 700)] }, by decide +kernel, by decide +kernel, by decide +kernel⟩

theorem witness_GatesShapersFiltersAndTheModuleBus_4 : ∃ (s : State) (p : Nat), ((s.port p).pending = none ∨ s.nowNs < (s.port p).start) :=
  ⟨(nqSt 5000 [] []).setPort 1 { NetPort.init with pending := some { base := 0, cycle := 2000, entries := [(0x81, 500), (0x10, 700)] }, start := 5001 }, 1, by decide +kernel⟩

theorem witness_GatesShapersFiltersAndTheModuleBus_5 : ∃ (s : State) (p : Nat) (l : GateList), (s.netPresent p = true) ∧ ((s.port p).oper = some l) ∧ ((s.port p).hold = none ∨ (match (s.port p).hold with | some (_, u) => decide (u ≤ s.nowNs) | none => true) = true) :=
  ⟨(nqSt 5600 [] []).setPort 1 { NetPort.init with oper := some { base := 0, cycle := 2000, entries := [(0x81, 500), (0x10, 700)] }, hold := some (0xFF, 5600) }, 1, { base := 0, cycle := 2000, entries := [(0x81, 500), (0x10, 700)] }, by decide +kernel, by decide +kernel, by decide +kernel⟩

theorem witness_GatesShapersFiltersAndTheModuleBus_6 : ∃ (s : State) (p : Nat) (c : Nat) (which : Nat) (v : Nat) (f : Fld), (s.netPresent p = true) ∧ (c < 8) ∧ ((which = 0 ∧ f = NET.CBS_IDLE_VALUE p c) ∨ (which = 1 ∧ f = NET.CBS_HI_VALUE p c) ∨ (which = 2 ∧ f = NET.CBS_LO_VALUE p c)) ∧ (v < 2 ^ f.w) :=
  ⟨let s := nqSt 2000 [] [(NET.CBS_IDLE_VALUE 1 4, 9)]; s.setPort 1 ((s.port 1).setCls 4 { NetClass.init with queue := [frm (.reply 0)], credit := 700 }), 1, 4, 2, 1048575, NET.CBS_LO_VALUE 1 4, by decide +kernel, by decide +kernel, by decide +kernel, by decide +kernel⟩

theorem witness_GatesShapersFiltersAndTheModuleBus_7 : ∃ (s : State) (p : Nat) (f : Nat) (which : Nat) (v : Nat) (r : Fld), (s.netPresent p = true) ∧ (f < 16) ∧ ((which = 0 ∧ r = ⟨NET.PSF_CTL p f, 0, 7⟩) ∨ (which = 1 ∧ r = NET.PSF_CIR_KBPS p f) ∨ (which = 2 ∧ r = NET.PSF_CBS_BYTES p f)) ∧ (v < 2 ^ r.w) :=
  ⟨let s := nqSt 2000 [] [(NET.PSF_CBS_BYTES 1 15, 100)]; s.setPort 1 { s.port 1 with tokens := [(15, some 7)] }, 1, 15, 1, 33554431, NET.PSF_CIR_KBPS 1 15, by decide +kernel, by decide +kernel, by decide +kernel, by decide +kernel⟩

theorem witness_GatesShapersFiltersAndTheModuleBus_8 : ∃ (s : State) (p : Nat) (f : RxFrame), (s.linkUp p = true) ∧ (f.good = false ∨ 1522 < f.len ∨ f.body = .pause ∨ s.filterFor p f = none) :=
  ⟨nqSt 2000 [] [], 1, { mac := 1, vid := 0, pcp := 0, len := 64, good := false, body := .other }, by decide +kernel, by decide +kernel⟩

theorem witness_GatesShapersFiltersAndTheModuleBus_9 : ∃ (s : State) (p : Nat) (i : Nat) (f : RxFrame), (s.linkUp p = true) ∧ (f.good = true ∧ f.len ≤ 1522 ∧ f.body ≠ .pause) ∧ (s.filterFor p f = some i) ∧ ((s.account p).bucket p i < creditUnit * f.len) :=
  ⟨nqSt 2000 [] [(NET.PSF_CTL_ENABLE 1 0, 0), (⟨NET.PSF_CTL 1 15, 0, 7⟩, 1), (NET.PSF_CBS_BYTES 1 15, 63)], 1, 15, { mac := 1, vid := 0, pcp := 0, len := 64, good := true, body := .other }, by decide +kernel, by decide +kernel, by decide +kernel, by decide +kernel⟩

theorem witness_GatesShapersFiltersAndTheModuleBus_10 : ∃ (s : State) (p : Nat) (i : Nat) (a : Nat) (f : RxFrame), (s.linkUp p = true) ∧ (f.good = true ∧ f.len ≤ 1522) ∧ (f.body = .arp a) ∧ (a = (s.rd (NET.IPV4_ADDR p)).toNat ∧ a ≠ 0) ∧ (s.filterFor p f = some i) ∧ (creditUnit * f.len ≤ (s.account p).bucket p i) :=
  ⟨nqSt 2000 [] [(NET.PSF_CTL_ENABLE 1 0, 0), (⟨NET.PSF_CTL 1 15, 0, 7⟩, 1), (NET.PSF_CBS_BYTES 1 15, 64), (.whole (NET.IPV4_ADDR 1), 0x0A000001), (NET.PORT_CFG_MGMT_TC 1, 3)], 1, 15, 0x0A000001, { mac := 1, vid := 0, pcp := 0, len := 64, good := true, body := .arp 0x0A000001 }, by decide +kernel, by decide +kernel, by decide +kernel, by decide +kernel, by decide +kernel, by decide +kernel⟩

theorem witness_GatesShapersFiltersAndTheModuleBus_11 : ∃ (s : State) (p : Nat) (i : Nat) (id : Nat) (seq : Nat) (corr : Int) (origin : Int) (f : RxFrame), (s.linkUp p = true) ∧ (f.good = true ∧ f.len ≤ 1522) ∧ (f.body = .ptp (s.get DAT.PTP_CFG_TRANSPORT) (s.get DAT.PTP_CFG_DOMAIN) (.sync id seq true corr origin)) ∧ (bitAt (s.get DAT.PTP_CFG_PORTS) p = true) ∧ (s.get DAT.SERVO_STAT_PORT = p ∧ s.servo.master = some id) ∧ (s.filterFor p f = some i) ∧ (creditUnit * f.len ≤ (s.account p).bucket p i) ∧ (p < 2) :=
  ⟨{ nqSt 2000 [] [(NET.PSF_CTL_ENABLE 1 0, 0), (⟨NET.PSF_CTL 1 15, 0, 7⟩, 1), (NET.PSF_CBS_BYTES 1 15, 64), (DAT.PTP_CFG_PORTS, 2), (DAT.PTP_CFG_TRANSPORT, 0), (DAT.PTP_CFG_DOMAIN, 0), (DAT.SERVO_STAT_PORT, 1)] with dater := { Dater.init with servo := { Servo.init with master := some 9 } } }, 1, 15, 9, 3, 5, 6, { mac := 1, vid := 0, pcp := 0, len := 64, good := true, body := .ptp 0 0 (.sync 9 3 true 5 6) }, by decide +kernel, by decide +kernel, by decide +kernel, by decide +kernel, by decide +kernel, by decide +kernel, by decide +kernel, by decide +kernel⟩

theorem witness_GatesShapersFiltersAndTheModuleBus_12 : ∃ (s : State) (p : Nat) (i : Nat) (id : Nat) (seq : Nat) (f : RxFrame), (s.linkUp p = true) ∧ (f.good = true ∧ f.len ≤ 1522) ∧ (f.body = .ptp (s.get DAT.PTP_CFG_TRANSPORT) (s.get DAT.PTP_CFG_DOMAIN) (.delayReq id seq)) ∧ (bitAt (s.get DAT.PTP_CFG_PORTS) p = true) ∧ (s.isMaster = true ∧ p = s.activePort) ∧ (s.filterFor p f = some i) ∧ (creditUnit * f.len ≤ (s.account p).bucket p i) ∧ (p < 2) :=
  ⟨nqSt 2000 [] [(NET.PSF_CTL_ENABLE 1 0, 0), (⟨NET.PSF_CTL 1 15, 0, 7⟩, 1), (NET.PSF_CBS_BYTES 1 15, 64), (DAT.PTP_CFG_PORTS, 2), (DAT.PTP_CFG_SLAVE_ONLY, 0)], 1, 15, 9, 3, { mac := 1, vid := 0, pcp := 0, len := 64, good := true, body := .ptp (State.reset.get DAT.PTP_CFG_TRANSPORT) (State.reset.get DAT.PTP_CFG_DOMAIN) (.delayReq 9 3) }, by decide +kernel, by decide +kernel, by decide +kernel, by decide +kernel, by decide +kernel, by decide +kernel, by decide +kernel, by decide +kernel⟩

theorem witness_GatesShapersFiltersAndTheModuleBus_13 : ∃ (s : State) (p : Nat) (ty : Nat), (bitAt (s.get DAT.PTP_CFG_PORTS) p = true) ∧ (s.linkUp p = true) ∧ (ty = 0 ∨ ty = 0xB ∨ ty = 0xD) ∧ (s.isMaster = true) ∧ (p = s.activePort ∧ s.ptpDue ty = true) :=
  ⟨nqSt 2000 [] [(DAT.PTP_CFG_PORTS, 2), (DAT.PTP_CFG_SLAVE_ONLY, 0)], 1, 0xB, by decide +kernel, by decide +kernel, by decide +kernel, by decide +kernel, by decide +kernel⟩

theorem witness_GatesShapersFiltersAndTheModuleBus_14 : ∃ (s : State) (p : Nat) (m : Nat), (bitAt (s.get DAT.PTP_CFG_PORTS) p = true) ∧ (s.linkUp p = true) ∧ (s.servo.master = some m) ∧ (s.get DAT.SERVO_STAT_PORT = p) :=
  ⟨{ nqSt 2000 [] [(DAT.PTP_CFG_PORTS, 2), (DAT.PTP_CFG_TRANSPORT, 0), (DAT.PTP_CFG_DOMAIN, 0), (DAT.SERVO_STAT_PORT, 1)] with dater := { Dater.init with servo := { Servo.init with master := some 9 } } }, 1, 9, by decide +kernel, by decide +kernel, by decide +kernel, by decide +kernel⟩

theorem witness_GatesShapersFiltersAndTheModuleBus_15 : ∃ (s : State) (p : Nat) (ty : Nat), (bitAt (s.get DAT.PTP_CFG_PORTS) p = false ∨ s.linkUp p = false ∨ p ≠ s.activePort ∨ (ty = 1 ∧ s.servo.master = none) ∨ (ty ≠ 1 ∧ (s.isMaster = false ∨ s.ptpDue ty = false))) :=
  ⟨nqSt 2000 [] [(DAT.PTP_CFG_PORTS, 1)], 1, 0, by decide +kernel⟩

theorem witness_GatesShapersFiltersAndTheModuleBus_16 : ∃ (s : State), (s.on NET.I2C_STAT_BUSY = false) :=
  ⟨running, by decide +kernel⟩

theorem witness_GatesShapersFiltersAndTheModuleBus_17 : ∃ (s : State), (s.on NET.I2C_STAT_BUSY = true) :=
  ⟨st [(NET.I2C_STAT_BUSY, 1)], by decide +kernel⟩

theorem witness_GatesShapersFiltersAndTheModuleBus_18 : ∃ (s : State) (data : Nat) (a : Nat) (r : Nat) (w : Nat) (read : Bool), (s.net.i2c = some (a, read, r, w)) ∧ (data < 256) :=
  ⟨{ st [(NET.I2C_STAT_BUSY, 1)] with net := { Net.init with i2c := some (0x50, true, 1, 0) } }, 255, 0x50, 1, 0, true, by decide +kernel, by decide +kernel⟩

/-! ### Ill-formed commands: each check refuses one -/

theorem test_wf_register : WellFormed (.registerWrite true 0x150028 7) = true ∧ WellFormed (.registerWrite true 0x150029 7) = false ∧
    WellFormed (.registerWrite true 0x1000000 7) = false ∧ WellFormed (.registerWrite true 0x150028 0x100000000) = false := by decide
theorem test_wf_word : WellFormed (.incrWrite 0x40000000) = true ∧ WellFormed (.incrWrite 0x100000000) = false := by decide
theorem test_wf_unit : WellFormed (.handshakeWatchdog ⟨0xFFF, 63⟩) = true ∧ WellFormed (.handshakeWatchdog ⟨0x1000, 63⟩) = false ∧
    WellFormed (.handshakeWatchdog ⟨0xFFF, 64⟩) = false := by decide
theorem test_wf_item : WellFormed (.beginItem 3 9 1 1) = true ∧ WellFormed (.beginItem 3 9 0 1) = false ∧ WellFormed (.singleOperationPush 3 9 1 []) = false := by decide
theorem test_wf_window : WellFormed (.windowWrite 0x3FFFFFF [1#8]) = true ∧ WellFormed (.windowWrite 0x3FFFFFF [1#8, 2#8]) = false := by decide
theorem test_wf_ring : WellFormed (.slipReread 63) = true ∧ WellFormed (.slipReread 64) = false := by decide
theorem test_wf_stream : WellFormed (.rowEmit 255) = true ∧ WellFormed (.rowEmit 256) = false := by decide
theorem test_wf_port : WellFormed (.ulpsEntry 5) = true ∧ WellFormed (.ulpsEntry 6) = false := by decide
theorem test_wf_vc : WellFormed (.frameEnd 0 ⟨15, 0⟩) = true ∧ WellFormed (.frameEnd 0 ⟨16, 0⟩) = false := by decide
theorem test_wf_mag : WellFormed (.magRemoval 1) = true ∧ WellFormed (.magRemoval 2) = false := by decide
theorem test_wf_net : WellFormed (.gclCommit 1) = true ∧ WellFormed (.gclCommit 2) = false := by decide
theorem test_wf_flow : WellFormed (.packetRelease 0 15) = true ∧ WellFormed (.packetRelease 0 16) = false := by decide
theorem test_wf_hart : WellFormed (.mclaim 3) = true ∧ WellFormed (.mclaim 4) = false := by decide
theorem test_wf_engine : WellFormed (.interruptUnit 85) = true ∧ WellFormed (.interruptUnit 86) = false := by decide
theorem test_wf_chan : WellFormed (.zqCalibration 7) = true ∧ WellFormed (.zqCalibration 8) = false := by decide
theorem test_wf_dma : WellFormed (.startDma 31) = true ∧ WellFormed (.startDma 32) = false := by decide
theorem test_wf_queue : WellFormed (.flushQueue 4095) = true ∧ WellFormed (.flushQueue 4096) = false := by decide
theorem test_wf_pool : WellFormed (.initPool 15) = true ∧ WellFormed (.initPool 16) = false := by decide
theorem test_wf_vector : WellFormed (.msixHoldTimer 63) = true ∧ WellFormed (.msixHoldTimer 64) = false := by decide
theorem test_wf_pin : WellFormed (.pinCheck (.ingHold 1) true) = true ∧ WellFormed (.pinCheck (.ingHold 2) true) = false ∧ WellFormed (.pinCheck (.timeOut 8) true) = false := by decide
theorem test_wf_requester : WellFormed (.translationWalk (.engine 85) 0 false) = true ∧ WellFormed (.translationWalk (.engine 86) 0 false) = false ∧
    WellFormed (.translationWalk (.dma 32) 0 false) = false ∧ WellFormed (.translationWalk (.dma 31) (2 ^ 48) false) = false := by decide
theorem test_wf_engines_of_a_dispatch : WellFormed (.leafDispatch 0 1 0 [0, 67] [68, 85]) = true ∧ WellFormed (.leafDispatch 0 1 0 [68] [68]) = false ∧
    WellFormed (.leafDispatch 0 1 0 [0] [67]) = false := by decide

/-! ### Single steps -/

/-- A step takes the command in front and leaves the rest waiting. -/
theorem test_step_takes_the_front :
    (match step { running with pending := [.swset, .alarmDisarm] } with | .next t => t.pending == [.alarmDisarm] && t.get (srcPending 255) == 1 | _ => false) = true := by
  decide +kernel
/-- On an empty queue a tick adds INCR, 4 ns at reset, to the time (R310). -/
theorem test_idle_tick : (match step running with | .next t => t.time == 2 ^ 30 && t.ticks == 1 | _ => false) = true := by decide +kernel
/-- The registers that a host reads first (R31). -/
theorem test_reset_words : State.reset.readReg TOP.DEVICE_ID = 0xDDA14816 ∧ State.reset.readReg 0x170000 = 0 := by decide +kernel
/-- A write of 1 to a W1C bit clears that bit; the other bits of the register are left untouched (R6, its example). -/
theorem test_w1c_clears_one_bit :
    (match exec (.registerWrite true PWR.WAKE_PEND 8) (st [(⟨PWR.WAKE_PEND, 0, 6⟩, 0x2A)]) with
     | .next t => t.get ⟨PWR.WAKE_PEND, 0, 6⟩ == 0x22 | _ => false) = true := by decide +kernel
/-- A write of RO fields leaves them (R6). -/
theorem test_ro_is_ignored :
    (match exec (.registerWrite true TOP.DEVICE_ID 0) running with | .next t => t.readReg TOP.DEVICE_ID == 0xDDA14816 | _ => false) = true := by decide +kernel
/-- An offset that no block assigns is counted (R23). -/
theorem test_unassigned_is_counted :
    (match exec (.registerWrite true 0x170000 5) running with | .next t => t.get HIF.ERR_COUNT_UNASSIGNED == 1 | _ => false) = true := by decide +kernel
/-- Outside BAR0. -/
theorem test_outside_bar0 : exec (.registerWrite true 0x1000000 5) running = .fault (.outsideBar0 0x1000000) := rfl
/-- The CRC-32C of "123456789" is 0xE3069283 (R62's parameters: the check value that they have in every publication). -/
theorem test_crc32c : crc32c [0x31#8, 0x32#8, 0x33#8, 0x34#8, 0x35#8, 0x36#8, 0x37#8, 0x38#8, 0x39#8] = 0xE3069283 := by decide +kernel
/-- A word of no row spells no command: the table gives no bits. -/
theorem test_no_bits : decodeTableWord 32 0 = none ∧ (running.withFetchWord 32 0).pending = [] := by decide +kernel

end Sys2Proof.Tests
end

/-! PROOFS of the statements of 00_scope.md. -/

/-! ### What a command keeps -/

namespace Sys2Proof.Machine

/-- The parts of a command's row, as the laws of Laws/Kept.lean take them. -/
def mayTouch (c : Instr) (p : Part) : Bool := decide (p ∈ touches c)

theorem mayTouch_eq_false {c : Instr} {p : Part} : mayTouch c p = false ↔ p ∉ touches c := decide_eq_false_iff_not

/-- From a canonical state a command answers a canonical one that keeps every part outside its row: the law of its meaning, for every
command. The premises `rfl` are that the parts which the law names stand in the row. -/
theorem exec_kept (c : Instr) {s : State} (h : s.canon = true) : OutKept (mayTouch c) s (exec c s) := by
  have hk {P : Part → Bool} : s.Kept P s := .refl h
  cases c with
  | registerWrite _ _ _ => apply execRegisterWrite_kept _ _ _ s hk <;> rfl
  | handshakeWatchdog _ => apply execHandshakeWatchdog_kept _ s hk <;> rfl
  | paceCtlWrite _ => apply execPaceCtlWrite_kept _ s hk <;> rfl
  | leafDispatch _ _ _ _ _ => apply execLeafDispatch_kept _ _ _ _ _ s hk <;> rfl
  | subframeLeafDispatch _ _ _ _ _ => apply execSubframeLeafDispatch_kept _ _ _ _ _ s hk <;> rfl
  | chunkCommit _ _ => apply execChunkCommit_kept _ _ s hk <;> rfl
  | leafRelease _ _ => apply execLeafRelease_kept _ _ s hk <;> rfl
  | pictureRelease _ _ => apply execPictureRelease_kept _ _ s hk <;> rfl
  | searchBlock _ _ _ => exact execSearchBlock_kept _ _ _ s hk rfl
  | coarseCplxPost _ _ => apply execCoarseCplxPost_kept _ _ s hk <;> rfl
  | planPost _ _ => apply execPlanPost_kept _ _ s hk <;> rfl
  | guardEvaluate _ _ => apply execGuardEvaluate_kept _ _ s hk <;> rfl
  | statsFolioArrival _ _ => apply execStatsFolioArrival_kept _ _ s hk <;> rfl
  | rcPost _ _ => apply execRcPost_kept _ _ s hk <;> rfl
  | rcCplx _ _ => apply execRcCplx_kept _ _ s hk <;> rfl
  | rcTime _ => apply execRcTime_kept _ s hk <;> rfl
  | rcLog _ _ _ => apply execRcLog_kept _ _ _ s hk <;> rfl
  | appletCallTimeout _ _ => apply execAppletCallTimeout_kept _ _ s hk <;> rfl
  | appletTrap _ _ => apply execAppletTrap_kept _ _ s hk <;> rfl
  | sqTail _ _ => apply execSqTail_kept _ _ s hk <;> rfl
  | rqHead _ _ => apply execRqHead_kept _ _ s hk <;> rfl
  | slipReread _ => apply execSlipReread_kept _ s hk <;> rfl
  | nopSlip _ _ => apply execNop_kept _ _ s hk <;> rfl
  | openStream _ _ _ => apply execOpenStream_kept _ _ _ s hk <;> rfl
  | closeStream _ _ => apply execCloseStream_kept _ _ s hk <;> rfl
  | streamClosed _ => apply execStreamClosed_kept _ s hk <;> rfl
  | setConfig _ _ => apply execSetConfig_kept _ _ s hk <;> rfl
  | setConfigDevice _ _ => apply execSetConfigDevice_kept _ _ s hk <;> rfl
  | encodePicture _ _ => apply execEncodePicture_kept _ _ s hk <;> rfl
  | decodePicture _ _ _ _ => apply execDecodePicture_kept _ _ _ _ s hk <;> rfl
  | flushStream _ _ => apply execFlushStream_kept _ _ s hk <;> rfl
  | recordStart _ _ => apply execRecordStart_kept _ _ s hk <;> rfl
  | recordStop _ _ => apply execRecordStop_kept _ _ s hk <;> rfl
  | markTake _ _ => apply execMark_kept _ _ s hk <;> rfl
  | readExtent _ _ => apply execReadExtent_kept _ _ s hk <;> rfl
  | queryLedger _ _ => apply execQueryLedger_kept _ _ s hk <;> rfl
  | queryStream _ _ => apply execQueryStream_kept _ _ s hk <;> rfl
  | queryDigest _ _ => apply execQueryDigest_kept _ _ s hk <;> rfl
  | returnFolio _ _ => apply execReturnFolio_kept _ _ s hk <;> rfl
  | unknownOpcode _ _ => apply execUnknownOpcode_kept _ _ s hk <;> rfl
  | completionWrite _ => apply execCompletionWrite_kept _ s hk <;> rfl
  | eventGroupWrite _ => apply execEventGroupWrite_kept _ s hk <;> rfl
  | eventQueueTimeout _ => apply execEventQueueTimeout_kept _ s hk <;> rfl
  | lostSlip _ => exact execLostSlip_kept _ s hk rfl
  | msixHoldTimer _ => apply execMsixHoldTimer_kept _ s hk <;> rfl
  | msixUnmask _ => apply execMsixUnmask_kept _ s hk <;> rfl
  | hostD3hotEntry _ _ => exact execHostD3hotEntry_kept _ _ s hk rfl
  | hostD0Return _ => apply execHostD0Return_kept _ s hk <;> rfl
  | rpCfgWrite _ _ => exact execRpCfgWrite_kept _ _ s hk rfl
  | epochBegin => apply execEpochBegin_kept s hk <;> rfl
  | epochTaken => apply execEpochTaken_kept s hk <;> rfl
  | epochAckTimeout _ => apply execEpochAckTimeout_kept _ s hk <;> rfl
  | frameStart _ _ _ => apply execFrameStart_kept _ _ _ s hk <;> rfl
  | memberFrameStart _ _ _ => exact execMemberFrameStart_kept _ _ _ s hk rfl
  | frameEnd _ _ => apply execFrameEnd_kept _ _ s hk <;> rfl
  | rowHeaderArrival _ _ _ _ _ => apply execRowHeaderArrival_kept _ _ _ _ _ s hk <;> rfl
  | longPacket _ _ _ _ _ _ => apply execLongPacket_kept _ _ _ _ _ _ s hk <;> rfl
  | lineTimeout _ => apply execLineTimeout_kept _ s hk <;> rfl
  | rowEmit _ => apply execRowEmit_kept _ s hk <;> rfl
  | rowLanded _ => apply execRowLanded_kept _ s hk <;> rfl
  | holdCtlWrite _ => exact execHoldCtlWrite_kept _ s hk rfl
  | deskewSequence _ _ _ => exact execDeskewSequence_kept _ _ _ s hk
  | ulpsEntry _ => exact execUlpsEntry_kept _ s hk
  | ulpsExit _ => exact execUlpsExit_kept _ s hk
  | sensorLinkLoss _ _ _ => apply execSensorLinkLoss_kept _ _ _ s hk <;> rfl
  | magPresenceFall _ _ => apply execMagPresenceFall_kept _ _ s hk <;> rfl
  | magPresenceAccept _ => apply execMagPresenceAccept_kept _ s hk <;> rfl
  | magPerstRelease _ => apply execMagPerstRelease_kept _ s hk <;> rfl
  | magLinkUp _ _ _ => apply execMagLinkUp_kept _ _ _ s hk <;> rfl
  | magLinkTimeout _ => apply execMagLinkTimeout_kept _ s hk <;> rfl
  | magControllerReady _ => apply execMagControllerReady_kept _ s hk <;> rfl
  | nvmeCompletion _ _ _ _ _ => apply execNvmeCompletion_kept _ _ _ _ _ s hk <;> rfl
  | nvmeTimeout _ _ => apply execNvmeTimeout_kept _ _ s hk <;> rfl
  | commitTimer _ => apply execCommitTimer_kept _ s hk <;> rfl
  | pictureToBindery _ _ => apply execPictureToBindery_kept _ _ s hk <;> rfl
  | verifyCompareDone _ _ _ _ => apply execVerifyCompareDone_kept _ _ _ _ s hk <;> rfl
  | verifyLagExpiry _ _ _ => apply execVerifyLagExpiry_kept _ _ _ s hk <;> rfl
  | healthLogTimer _ => apply execHealthLogTimer_kept _ s hk <;> rfl
  | magRemoval _ => apply execMagRemoval_kept _ s hk <;> rfl
  | magLinkLoss _ => apply execMagLinkLoss_kept _ s hk <;> rfl
  | formatMagazine _ _ => apply execFormat_kept _ _ s hk <;> rfl
  | ejectMagazine _ _ => apply execEject_kept _ _ s hk <;> rfl
  | rescanMagazine _ _ => apply execRescan_kept _ _ s hk <;> rfl
  | deleteTake _ _ => apply execDeleteTake_kept _ _ s hk <;> rfl
  | alignmentPoint _ _ => apply execAlignmentPoint_kept _ _ s hk <;> rfl
  | packetRelease _ _ => apply execPacketRelease_kept _ _ s hk <;> rfl
  | frameTransmit _ => apply execFrameTransmit_kept _ s hk <;> rfl
  | gateBlockDrop _ _ => apply execGateBlockDrop_kept _ _ s hk <;> rfl
  | netLinkDown _ => apply execNetLinkDown_kept _ s hk <;> rfl
  | netLinkUp _ => apply execNetLinkUp_kept _ s hk <;> rfl
  | rxFrame _ _ => apply execRxFrame_kept _ _ s hk <;> rfl
  | announceTimeout _ => exact execAnnounceTimeout_kept _ s hk rfl
  | ptpSendTimer _ _ => apply execPtpSendTimer_kept _ _ s hk <;> rfl
  | gclCommit _ => apply execGclCommit_kept _ s hk <;> rfl
  | gclStart _ => apply execGclStart_kept _ s hk <;> rfl
  | gateEntryChange _ => apply execGateEntryChange_kept _ s hk <;> rfl
  | cbsWrite _ _ _ _ => exact execCbsWrite_kept _ _ _ _ s hk rfl
  | psfWrite _ _ _ _ => exact execPsfWrite_kept _ _ _ _ s hk rfl
  | telemetrySample _ => apply execTelemetrySample_kept _ s hk <;> rfl
  | portCfgWrite _ _ => apply execPortCfgWrite_kept _ _ s hk <;> rfl
  | i2cCmd _ => exact execI2cCmd_kept _ s hk rfl
  | i2cDone _ _ => exact execI2cDone_kept _ _ s hk rfl
  | snapTime => exact execSnap_kept s hk rfl
  | setTime _ _ => exact execSet_kept _ _ s hk rfl
  | stepTime _ => exact execStep_kept _ s hk rfl
  | incrWrite _ => exact execIncrWrite_kept _ s hk
  | timeRefclkLost => apply execTimeRefclkLost_kept s hk <;> rfl
  | timeRefclkReturn => exact execTimeRefclkReturn_kept s hk rfl
  | timeOutArm _ => exact execTimeOutArm_kept _ s hk rfl
  | timeOutDisarm _ => exact execTimeOutDisarm_kept _ s hk rfl
  | timeOutEdge _ => apply execTimeOutEdge_kept _ s hk <;> rfl
  | timeOutPulseEnd _ => exact execTimeOutPulseEnd_kept _ s hk rfl
  | ppsEdge => exact execPpsEdge_kept s hk rfl
  | ppsPulseEnd => exact execPpsPulseEnd_kept s hk rfl
  | timeInCapture _ _ => apply execTimeInCapture_kept _ _ s hk <;> rfl
  | timeInPop _ => exact execTimeInPop_kept _ s hk rfl
  | alarmArm => apply execAlarmArm_kept s hk <;> rfl
  | alarmDisarm => exact execAlarmDisarm_kept s hk
  | alarmFire => apply execAlarmFire_kept s hk <;> rfl
  | dramTraining => exact execDramTraining_kept s hk rfl
  | dramTrainingDone _ => apply execDramTrainingDone_kept _ s hk <;> rfl
  | mr4Poll _ _ _ => apply execMr4Poll_kept _ _ _ s hk <;> rfl
  | zqCalibration _ => exact execZqCalibration_kept _ s hk rfl
  | refreshDue _ => exact execRefreshDue_kept _ s hk rfl
  | trefwBoundary _ => exact execTrefwBoundary_kept _ s hk rfl
  | dramCommandIssue _ => apply execDramCommandIssue_kept _ s hk <;> rfl
  | dramRead _ _ => apply execDramRead_kept _ _ s hk <;> rfl
  | dramWrite _ _ _ => apply execDramWrite_kept _ _ _ s hk <;> rfl
  | narrowWrite _ _ => apply execNarrowWrite_kept _ _ s hk <;> rfl
  | readDataCheck _ _ _ _ _ _ => apply execReadDataCheck_kept _ _ _ _ _ _ s hk <;> rfl
  | logEntryFree _ => exact execLogEntryFree_kept _ s hk
  | scrubRead => apply execScrubRead_kept s hk <;> rfl
  | scrubCtlWrite _ _ => exact execScrubCtlWrite_kept _ _ s hk rfl
  | dqCentreMove _ _ _ => exact execDqCentreMove_kept _ _ _ s hk rfl
  | translationWalk _ _ _ => apply execTranslationWalk_kept _ _ _ s hk <;> rfl
  | resumeFault _ => apply execResume_kept _ s hk <;> rfl
  | abortFault _ => apply execAbort_kept _ s hk <;> rfl
  | faultRecordTimeout => apply execFaultRecordTimeout_kept s hk <;> rfl
  | invalidateAll => apply execInvalidateAll_kept s hk <;> rfl
  | invalidateAsid _ => apply execInvalidateAsid_kept _ s hk <;> rfl
  | invalidatePage _ => apply execInvalidatePage_kept _ s hk <;> rfl
  | invalidationDone => exact execInvalidationDone_kept s hk
  | contextCommit _ _ => apply execContextCommit_kept _ _ s hk <;> rfl
  | grantFence _ => apply execGrantFence_kept _ s hk <;> rfl
  | startDma _ => apply execStart_kept _ s hk <;> rfl
  | stopDma _ => apply execStop_kept _ s hk <;> rfl
  | pauseDma _ => exact execPause_kept _ s hk
  | dmaResume _ => exact execDmaResume_kept _ s hk
  | dmaPaused _ => exact execDmaPaused_kept _ s hk
  | dmaBurst _ => apply execDmaBurst_kept _ s hk <;> rfl
  | dmaSlipComplete _ => apply execDmaSlipComplete_kept _ s hk <;> rfl
  | barrierComplete _ => apply execBarrierComplete_kept _ s hk <;> rfl
  | reqSw _ => exact execReqSw_kept _ s hk
  | beginItem _ _ _ _ => apply execBegin_kept _ _ _ _ s hk <;> rfl
  | itemWordWrite _ _ _ => apply execItemWordWrite_kept _ _ _ s hk <;> rfl
  | endItem _ _ => apply execEnd_kept _ _ s hk <;> rfl
  | singleOperationPush _ _ _ _ => apply execSingleOperationPush_kept _ _ _ _ s hk <;> rfl
  | popRelease _ _ => apply execPopRelease_kept _ _ s hk <;> rfl
  | popClaim _ _ => apply execPopClaim_kept _ _ s hk <;> rfl
  | itemRelease _ _ _ => exact execItemRelease_kept _ _ _ s hk rfl
  | flushQueue _ => apply execFlush_kept _ s hk <;> rfl
  | queueTimeout _ => exact execQueueTimeout_kept _ s hk rfl
  | queueDisable _ => exact execQueueDisable_kept _ s hk rfl
  | folioAllocate _ _ => apply execFolioAllocate_kept _ _ s hk <;> rfl
  | shareFolio _ _ _ _ => apply execShare_kept _ _ _ _ s hk <;> rfl
  | releaseFolio _ _ => apply execRelease_kept _ _ s hk <;> rfl
  | reclaimOrphans => apply execReclaim_kept s hk <;> rfl
  | initPool _ => exact execInit_kept _ s hk
  | poolInitDone _ => apply execPoolInitDone_kept _ s hk <;> rfl
  | disablePool _ => apply execDisable_kept _ s hk <;> rfl
  | freeCacheRefill _ => apply execFreeCacheRefill_kept _ s hk <;> rfl
  | mckpt _ _ => apply execMckpt_kept _ _ s hk <;> rfl
  | lockstepMismatch _ => apply execLockstepMismatch_kept _ s hk <;> rfl
  | mclaim _ => apply execMclaim_kept _ s hk <;> rfl
  | mcomplete _ _ => exact execMcomplete_kept _ _ s hk rfl
  | sourceConfigWrite _ _ => exact execSourceConfigWrite_kept _ _ s hk
  | swset => exact execSwset_kept s hk
  | timerCompare _ => exact execTimerCompare_kept _ s hk rfl
  | storeParityError _ _ _ => apply execStoreParityError_kept _ _ _ s hk <;> rfl
  | storeScan _ _ => apply execStoreScan_kept _ _ s hk <;> rfl
  | interruptUnit _ => apply execInterrupt_kept _ s hk <;> rfl
  | dropWork _ _ _ => apply execDrop_kept _ _ _ s hk <;> rfl
  | scribeCheckpoint _ _ _ => apply execScribeCheckpoint_kept _ _ _ s hk <;> rfl
  | faultMessage _ _ _ _ _ => apply execFaultMessage_kept _ _ _ _ _ s hk <;> rfl
  | ackFault _ _ _ => exact execAck_kept _ _ _ s hk rfl
  | injectFault _ _ _ => apply execInject_kept _ _ _ s hk <;> rfl
  | faultNHoldExpiry => exact execFaultNHoldExpiry_kept s hk rfl
  | writeDrainEmpty _ => exact execWriteDrainEmpty_kept _ s hk rfl
  | writeDrainTimeout _ => apply execWriteDrainTimeout_kept _ s hk <;> rfl
  | redispatch _ _ => apply execRedispatch_kept _ _ s hk <;> rfl
  | digestSweep _ => apply execDigestSweep_kept _ s hk <;> rfl
  | pinCheck _ _ => apply execPinCheck_kept _ _ s hk <;> rfl
  | keeperLockstepMismatch => apply execKeeperLockstepMismatch_kept s hk <;> rfl
  | fuseLoadDone _ => apply execFuseLoadDone_kept _ s hk <;> rfl
  | windowClearDone => apply execWindowClearDone_kept s hk <;> rfl
  | windowWrite _ _ => apply execWindowWrite_kept _ _ s hk <;> rfl
  | loadBundle _ _ => apply execLoad_kept _ _ s hk <;> rfl
  | loadComplete => apply execLoadComplete_kept s hk <;> rfl
  | ageingPut _ _ => apply execAgeingPut_kept _ _ s hk <;> rfl
  | ageingGet _ => apply execAgeingGet_kept _ s hk <;> rfl
  | keeperAttest _ => apply execAttest_kept _ s hk <;> rfl
  | keeperIdentity _ => apply execIdentity_kept _ s hk <;> rfl
  | keeperAlive _ _ => apply execAlive_kept _ _ s hk <;> rfl
  | startDeadline => apply execStartDeadline_kept s hk <;> rfl
  | powerOn => exact execPowerOn_kept s hk
  | supplyFault => exact execSupplyFault_kept s hk rfl
  | sysResetN _ => apply execSysResetN_kept _ s hk <;> rfl
  | perstN _ => apply execPerstN_kept _ s hk <;> rfl
  | resetRelease => apply execResetRelease_kept s h <;> rfl
  | sysRefclkLost => exact execSysRefclkLost_kept s hk rfl
  | sysRefclkReturn => exact execSysRefclkReturn_kept s hk rfl
  | rstKey _ => exact execRstKey_kept _ s hk rfl
  | coldResetCommand _ => exact execColdResetCommand_kept _ s hk rfl
  | warmResetCommand _ => exact execWarmResetCommand_kept _ s hk rfl
  | unitReset _ _ => apply execUnitReset_kept _ _ s hk <;> rfl
  | unitResetDone => apply execUnitResetDone_kept s hk <;> rfl
  | pdReqWrite _ _ _ => apply execPdReqWrite_kept _ _ _ s hk <;> rfl
  | domainOnDone _ => exact execDomainOnDone_kept _ s hk rfl
  | sleepStandby _ => apply execSleepStandby_kept _ s hk <;> rfl
  | sleepVault _ => apply execSleepVault_kept _ s hk <;> rfl
  | sleepStepDone _ => apply execSleepStepDone_kept _ s hk <;> rfl
  | pmeTurnOff => apply execPmeTurnOff_kept s hk <;> rfl
  | l2Timeout => exact execL2Timeout_kept s hk rfl
  | wakeEvent _ => apply execWakeEvent_kept _ s hk <;> rfl
  | wakeStepDone => apply execWakeStepDone_kept s hk <;> rfl
  | smbStatus => exact execStatus_kept s hk rfl
  | smbCause => exact execCause_kept s hk rfl
  | smbDeviceId => exact execDeviceId_kept s hk rfl
  | smbUid => exact execUid_kept s hk rfl
  | smbEpochDigest => exact execEpochDigest_kept s hk rfl
  | smbFaults => exact execFaults_kept s hk rfl
  | resetMessage _ _ => exact execReset_kept _ _ s hk rfl
  | wakeMessage _ => exact execWake_kept _ s hk rfl
  | alertResponse => apply execAlertResponse_kept s hk <;> rfl
  | smbCfgWrite _ => exact execSmbCfgWrite_kept _ s hk rfl
  | thermAssert => apply execThermAssert_kept s hk <;> rfl
  | thermRelease => exact execThermRelease_kept s hk rfl
  | conservatorRound _ => apply execConservatorRound_kept _ s hk <;> rfl
  | slackAlarm _ _ _ => apply execSlackAlarm_kept _ _ _ s hk <;> rfl
  | voltageStep => apply execVoltageStep_kept s hk <;> rfl
  | bandDwellExpiry => exact execBandDwellExpiry_kept s hk rfl
  | baselineTimeout => apply execBaselineTimeout_kept s hk <;> rfl
  | avsTransaction _ _ => apply execAvsTransaction_kept _ _ s hk <;> rfl
  | pcieLinkDown _ => apply execPcieLinkDown_kept _ s hk <;> rfl
  | pcieCorrectedError => apply execPcieCorrectedError_kept s hk <;> rfl
  | mailboxUnknownOpcode _ => apply execMailboxUnknownOpcode_kept _ s hk <;> rfl
  | smbusUnknownCommand => exact execSmbusUnknownCommand_kept s hk
  | vddFuseRamp _ => exact execVddFuseRamp_kept _ s hk rfl
  | powerDown => exact execPowerDown_kept s hk

/-- A row that names the channels' queues names the bytes of DRAM, which are read through them (R337). -/
theorem dram_mem_touches (c : Instr) : Part.chans ∈ touches c → Part.dram ∈ touches c := by
  have h : decide (Part.chans ∈ touches c → Part.dram ∈ touches c) = true := by cases c <;> rfl
  exact of_decide_eq_true h

theorem State.dramByte_congr {s t : State} (hb : t.big = s.big) (hc : t.chans = s.chans) (hd : t.dram = s.dram) (a : Nat) :
    t.dramByte a = s.dramByte a := by
  simp only [State.dramByte, State.queuedWrite, State.chan, State.chanAt, hb, hc, hd]

/-- Parts that are held unchanged are read unchanged. -/
theorem Part.same_of_raw {s t : State} {ps : List Part} (hb : t.big = s.big) (hd : Part.chans ∈ ps → Part.dram ∈ ps)
    (h : ∀ p, p ∉ ps → p.raw s t) {p : Part} (hp : p ∉ ps) : p.same s t := by
  have hr := h p hp
  cases p with
  | dram => exact State.dramByte_congr hb (h .chans (mt hd hp)) hr
  | damage => intro b; unfold State.damageOf; rw [show t.damage = s.damage from hr]
  | host => intro a; unfold State.hostByte; rw [show t.host = s.host from hr]
  | _ => exact hr

/-- The commands that wait for a tick of the Dater keep the canonical form. -/
theorem foldl_runCmd_canon (l : List DaterCmd) {s : State} (h : s.canon = true) : (l.foldl State.runCmd s).canon = true := by
  have hk : s.Kept (fun _ => true) s := .refl h
  exact (foldl_kept hk fun u d hu => State.runCmd_kept u d hu rfl rfl rfl rfl rfl rfl).1

/-- A tick of the Dater changes the time and the count of ticks, then runs the commands that wait for it (R310, R311). -/
theorem State.tick_canon {s : State} (h : s.canon = true) : s.tick.canon = true := foldl_runCmd_canon _ h

end Sys2Proof.Machine

section
open Sys2Proof Sys2Proof.Machine

/-- Settles O4: a tick keeps the canonical form (`State.tick_canon`), and so does the command in front (`exec_kept`). -/
theorem stepsKeepTheCanonicalForm : Obligations.StepsKeepTheCanonicalForm := by
  unfold Obligations.StepsKeepTheCanonicalForm
  intro s t h ht
  unfold step at ht
  split at ht
  next => cases ht; exact State.tick_canon h
  next c r _ => exact ((exec_kept c (s := { s with pending := r }) h).kept t ht).1

/-- Settles O5: what `exec_kept` says of the parts as they are held, said of them as they are read. -/
theorem commandsTouchOnlyTheirParts : Obligations.CommandsTouchOnlyTheirParts := by
  unfold Obligations.CommandsTouchOnlyTheirParts
  intro c s t h ht
  obtain ⟨-, ⟨hbig, -, -, hhost⟩, hparts⟩ := (exec_kept c h).kept t ht
  refine ⟨hparts.imp_right fun hraw p hp => ?_, fun hp a => ?_⟩
  · exact Part.same_of_raw hbig (dram_mem_touches c) (fun q hq => hraw q (mayTouch_eq_false.2 hq)) hp
  · unfold State.hostByte
    rw [hhost (mayTouch_eq_false.2 hp)]

end

/-! ### What every command leaves: the grade, the queue of commands and the count of ticks -/

namespace Sys2Proof.Machine

/-- The grade, the queue of commands and the count of ticks are those of `b0`. `State.Kept` says so of canonical states only, and O6 speaks of
every state; so what each operation leaves is said here once more without the canonical form, one law for each operation, in the order of
the model's files: its branches lead to operations whose laws stand before it. -/
def State.Fixed (s b0 : State) : Prop := s.big = b0.big ∧ s.pending = b0.pending ∧ s.ticks = b0.ticks

/-- `State.Fixed` of the three fields. -/
def FixedF (b0 : State) (big : Bool) (pending : List Instr) (ticks : Nat) : Prop := big = b0.big ∧ pending = b0.pending ∧ ticks = b0.ticks

variable {b0 : State}

theorem State.fixed_mk {big regs dram damage host pending free ticks time answer dater net bnd rgs harts engines copyCar copyScb mmu dma levels queues pools
    orphans chans scrub cat power keeper cons pads rings vecs hostFn streams staged taking tripped gone} :
    (State.mk big regs dram damage host pending free ticks time answer dater net bnd rgs harts engines copyCar copyScb mmu dma levels queues pools
      orphans chans scrub cat power keeper cons pads rings vecs hostFn streams staged taking tripped gone).Fixed b0 ↔ FixedF b0 big pending ticks :=
  Iff.rfl
theorem FixedF.of {s : State} (h : s.Fixed b0) : FixedF b0 s.big s.pending s.ticks := h

/-- The same of an outcome, of an outcome that may be wanting, and of a state in a pair. -/
structure OutFixed (b0 : State) (o : Host.Outcome State Fault Refusal) : Prop where
  fixed : ∀ t, o = .next t → t.Fixed b0
structure OptFixed (b0 : State) (o : Option (Host.Outcome State Fault Refusal)) : Prop where
  fixed : ∀ t, o = some t → OutFixed b0 t
structure P1Fixed {β : Type} (b0 : State) (p : State × β) : Prop where
  fixed : p.1.Fixed b0
structure P2Fixed {β : Type} (b0 : State) (p : β × State) : Prop where
  fixed : p.2.Fixed b0

theorem OutFixed.next {s : State} (h : s.Fixed b0) : OutFixed b0 (.next s) := ⟨fun _ e => by cases e; exact h⟩
theorem OutFixed.fault (f : Fault) : OutFixed b0 (.fault f) := ⟨fun _ e => by cases e⟩
theorem OptFixed.some {o} (h : OutFixed b0 o) : OptFixed b0 (some o) := ⟨fun _ e => by cases e; exact h⟩
theorem OptFixed.none : OptFixed b0 none := ⟨fun _ e => by cases e⟩
theorem OptFixed.get {o t} (h : OptFixed b0 o) (e : o = Option.some t) : OutFixed b0 t := h.fixed t e
theorem P1Fixed.mk1 {β : Type} {s : State} {y : β} (h : s.Fixed b0) : P1Fixed b0 (s, y) := ⟨h⟩
theorem P2Fixed.mk2 {β : Type} {s : State} {y : β} (h : s.Fixed b0) : P2Fixed b0 (y, s) := ⟨h⟩
theorem fst_fixed {β : Type} {s : State} {y : β} (h : s.Fixed b0) : (s, y).1.Fixed b0 := h

theorem OptFixed.ite {c : Prop} [Decidable c] {x y} (hx : OptFixed b0 x) (hy : OptFixed b0 y) : OptFixed b0 (if c then x else y) := by
  split <;> assumption
theorem OutFixed.ite {c : Prop} [Decidable c] {x y} (hx : OutFixed b0 x) (hy : OutFixed b0 y) : OutFixed b0 (if c then x else y) := by
  split <;> assumption
theorem State.Fixed.ite {c : Prop} [Decidable c] {x y : State} (hx : x.Fixed b0) (hy : y.Fixed b0) : (if c then x else y).Fixed b0 := by
  split <;> assumption

theorem fixed_of_eq1 {β : Type} {p : State × β} {s : State} {y : β} (he : p = (s, y)) (h : p.1.Fixed b0) : s.Fixed b0 := by rwa [he] at h

/-- A fold whose every step keeps them. -/
theorem foldl_fixed {α : Type} {f : State → α → State} {l : List α} {s : State} (h : s.Fixed b0)
    (hf : ∀ (s : State) (x : α), s.Fixed b0 → (f s x).Fixed b0) : (l.foldl f s).Fixed b0 := by
  induction l generalizing s with
  | nil => exact h
  | cons x r ih => exact ih (hf _ _ h)
theorem foldl_fixed1 {α β : Type} {f : State × β → α → State × β} {l : List α} {p : State × β} (h : p.1.Fixed b0)
    (hf : ∀ (p : State × β) (x : α), p.1.Fixed b0 → (f p x).1.Fixed b0) : (l.foldl f p).1.Fixed b0 := by
  induction l generalizing p with
  | nil => exact h
  | cons x r ih => exact ih (hf _ _ h)
theorem foldl_fixed2 {α β : Type} {f : β × State → α → β × State} {l : List α} {p : β × State} (h : p.2.Fixed b0)
    (hf : ∀ (p : β × State) (x : α), p.2.Fixed b0 → (f p x).2.Fixed b0) : (l.foldl f p).2.Fixed b0 := by
  induction l generalizing p with
  | nil => exact h
  | cons x r ih => exact ih (hf _ _ h)

variable {s : State} (hs : s.Fixed b0)
include hs

/-! The operations of Machine/Ops.lean. -/

theorem State.wr_fixed (off w) : (s.wr off w).Fixed b0 := hs
theorem State.put_fixed (f v) : (s.put f v).Fixed b0 := by
  rw [State.put.eq_def]; repeat' (with_reducible first | assumption | apply State.wr_fixed)
theorem State.add_fixed (f k) : (s.add f k).Fixed b0 := by
  rw [State.add.eq_def]; repeat' (with_reducible first | assumption | apply State.put_fixed)
theorem State.bump_fixed (f) : (s.bump f).Fixed b0 := by
  rw [State.bump.eq_def]; repeat' (with_reducible first | assumption | apply State.add_fixed)
theorem State.putBit_fixed (base i v) : (s.putBit base i v).Fixed b0 := by
  rw [State.putBit.eq_def]; repeat' (with_reducible first | assumption | apply State.put_fixed)
theorem State.putPair_fixed (lo hi v) : (s.putPair lo hi v).Fixed b0 := by
  rw [State.putPair.eq_def]; repeat' (with_reducible first | assumption | apply State.wr_fixed)
theorem State.setRing_fixed (n r) : (s.setRing n r).Fixed b0 := hs
theorem State.setVec_fixed (n v) : (s.setVec n v).Fixed b0 := hs
theorem State.setStream_fixed (n x) : (s.setStream n x).Fixed b0 := hs
theorem State.setHart_fixed (n h) : (s.setHart n h).Fixed b0 := hs
theorem State.setEngine_fixed (n e) : (s.setEngine n e).Fixed b0 := hs
theorem State.setDmaCh_fixed (n c) : (s.setDmaCh n c).Fixed b0 := hs
theorem State.setQueue_fixed (n q) : (s.setQueue n q).Fixed b0 := hs
theorem State.setPool_fixed (n p) : (s.setPool n p).Fixed b0 := hs
theorem State.setChan_fixed (n c) : (s.setChan n c).Fixed b0 := hs
theorem State.setMag_fixed (n m) : (s.setMag n m).Fixed b0 := hs
theorem State.setCatUnit_fixed (n c) : (s.setCatUnit n c).Fixed b0 := hs
theorem State.draw_fixed : s.draw.2.Fixed b0 := hs
theorem State.pick_fixed {α : Type} (l : List α) : (s.pick l).2.Fixed b0 := by
  refine P2Fixed.fixed ?_; rw [State.pick.eq_def]; repeat' (with_reducible first | assumption | apply State.draw_fixed | apply P2Fixed.mk2)
theorem State.reply_fixed (l) : (s.reply l).Fixed b0 := hs
theorem State.putTime_fixed (lo hi ns t) : (s.putTime lo hi ns t).Fixed b0 := by
  rw [State.putTime.eq_def]; repeat' (with_reducible first | assumption | apply State.wr_fixed)
theorem State.raise_fixed (n) : (s.raise n).Fixed b0 := by
  rw [State.raise.eq_def]; repeat' first | (with_reducible first | assumption | apply State.put_fixed) | split
theorem State.raiseQueue_fixed (q) : (s.raiseQueue q).Fixed b0 := by
  rw [State.raiseQueue.eq_def]; repeat' first | (with_reducible first | assumption | apply State.raise_fixed | apply foldl_fixed) | intro _ | split
theorem State.showPending_fixed (n) : (s.showPending n).Fixed b0 := by
  rw [State.showPending.eq_def]; repeat' (with_reducible first | assumption | apply State.put_fixed)
theorem State.postEvent_fixed (n e) : (s.postEvent n e).Fixed b0 := by
  rw [State.postEvent.eq_def]
  repeat' first
    | with_reducible first
        | assumption | apply State.bump_fixed | apply State.setRing_fixed | apply State.showPending_fixed
    | split | dsimp only
theorem State.streamEvent_fixed (n status kind extra w) : (s.streamEvent n status kind extra w).Fixed b0 := by
  rw [State.streamEvent.eq_def]; repeat' (with_reducible first | assumption | apply State.postEvent_fixed)
theorem State.pme_fixed : s.pme.Fixed b0 := by
  rw [State.pme.eq_def]; repeat' first | simp only [State.fixed_mk] | (with_reducible first | assumption | apply FixedF.of) | split
theorem State.setVecPending_fixed (v b) : (s.setVecPending v b).Fixed b0 := by
  rw [State.setVecPending.eq_def]; repeat' (with_reducible first | assumption | apply State.putBit_fixed)
theorem State.keepVec_fixed (v) : (s.keepVec v).Fixed b0 := by
  rw [State.keepVec.eq_def]
  repeat' first
    | with_reducible first
        | assumption | apply State.setVec_fixed | apply State.pme_fixed | apply State.setVecPending_fixed
    | split | dsimp only
theorem State.countWaiting_fixed (v) : (s.countWaiting v).Fixed b0 := by
  rw [State.countWaiting.eq_def]
  repeat' first | (with_reducible first | assumption | apply State.setVec_fixed | apply State.keepVec_fixed) | split | dsimp only
theorem State.complete_fixed (n r) : (s.complete n r).Fixed b0 := by
  rw [State.complete.eq_def]
  repeat' first | (with_reducible first | assumption | apply State.setRing_fixed | apply State.countWaiting_fixed) | split | dsimp only
theorem State.showBusy_fixed (n) : (s.showBusy n).Fixed b0 := by
  rw [State.showBusy.eq_def]; repeat' (with_reducible first | assumption | apply State.put_fixed)
theorem State.finishOne_fixed (n t status extra w) : (s.finishOne n t status extra w).Fixed b0 := by
  rw [State.finishOne.eq_def]
  repeat' (with_reducible first | assumption | apply State.setRing_fixed | apply State.complete_fixed | apply State.showBusy_fixed)
theorem State.finishDecided_fixed (n x0) : (s.finishDecided n x0).Fixed b0 := by
  induction x0 generalizing s with
  | zero => exact hs
  | succ f ih =>
    unfold State.finishDecided
    split
    · exact ih (State.finishOne_fixed hs _ _ _ _ _)
    · exact hs
theorem State.finish_fixed (n t status extra w) : (s.finish n t status extra w).Fixed b0 := by
  rw [State.finish.eq_def]; repeat' (with_reducible first | assumption | apply State.finishOne_fixed | apply State.finishDecided_fixed)
theorem State.onPic_fixed (n num f) : (s.onPic n num f).Fixed b0 := by
  rw [State.onPic.eq_def]; repeat' first | (with_reducible first | assumption | apply State.setStream_fixed) | split
theorem State.alertRise_fixed (i) : (s.alertRise i).Fixed b0 := hs
theorem State.logMsg_fixed (u k c detail raw addr inj) : (s.logMsg u k c detail raw addr inj).Fixed b0 := by
  rw [State.logMsg.eq_def]
  repeat' first
    | simp only [State.fixed_mk]
    | with_reducible first
        | assumption | apply State.bump_fixed | apply State.putBit_fixed | apply State.raise_fixed | apply State.alertRise_fixed | apply FixedF.of
    | split
theorem State.notice_fixed (n u c k pic) : (s.notice n u c k pic).Fixed b0 := by
  rw [State.notice.eq_def]; repeat' first | (with_reducible first | assumption | apply State.streamEvent_fixed | apply State.onPic_fixed) | split
theorem State.notices_fixed (u k detail) : (s.notices u k detail).Fixed b0 := by
  rw [State.notices.eq_def]; repeat' first | (with_reducible first | assumption | apply State.notice_fixed) | split | dsimp only
theorem State.disarmOutputs_fixed : s.disarmOutputs.Fixed b0 := by
  rw [State.disarmOutputs.eq_def]
  repeat' first | simp only [State.fixed_mk] | (with_reducible first | assumption | apply State.put_fixed | apply foldl_fixed | apply FixedF.of) | intro _
theorem State.wiped_fixed (cold) : (s.wiped cold).Fixed b0 := by
  unfold State.wiped
  extract_lets f c s1 s2 s3 s4 one two s5 pw d1 d2
  have h1 : one.Fixed b0 := by
    clear_value s5 pw d1 d2
    subst one
    exact State.fixed_mk.2 (FixedF.of hs)
  have h2 : two.Fixed b0 := by
    clear_value one
    subst two
    exact State.put_fixed (State.put_fixed h1 _ _) _ _
  clear_value two
  split
  · exact State.put_fixed (State.put_fixed (State.fixed_mk.2 (FixedF.of h2)) _ _) _ _
  · exact State.disarmOutputs_fixed (State.fixed_mk.2 (FixedF.of h2))
theorem State.sleepEnd_fixed (req result src) : (s.sleepEnd req result src).Fixed b0 := by
  rw [State.sleepEnd.eq_def]; repeat' (with_reducible first | assumption | apply State.put_fixed | apply State.alertRise_fixed)
theorem State.takeReset_fixed (cold cause count) : (s.takeReset cold cause count).Fixed b0 := by
  rw [State.takeReset.eq_def]
  repeat' first
    | with_reducible first
        | assumption | apply State.put_fixed | apply State.bump_fixed | apply State.wiped_fixed | apply State.sleepEnd_fixed
    | split
theorem State.requestReset_fixed (rank cause cold) : (s.requestReset rank cause cold).Fixed b0 := by
  rw [State.requestReset.eq_def]
  repeat' first | simp only [State.fixed_mk] | (with_reducible first | assumption | apply State.takeReset_fixed | apply FixedF.of) | split
theorem State.reportBase_fixed (u k c detail raw addr inj) : (s.reportBase u k c detail raw addr inj).Fixed b0 := by
  rw [State.reportBase.eq_def]
  repeat' first
    | with_reducible first
        | assumption | apply State.logMsg_fixed | apply State.notices_fixed | apply State.requestReset_fixed
    | split | dsimp only
theorem State.loseWork_fixed (u n num j) : (s.loseWork u n num j).Fixed b0 := by
  rw [State.loseWork.eq_def]; repeat' (with_reducible first | assumption | apply State.onPic_fixed | apply State.reportBase_fixed)
theorem State.showSpares_fixed : s.showSpares.Fixed b0 := by
  rw [State.showSpares.eq_def]; repeat' (with_reducible first | assumption | apply State.put_fixed)
theorem State.freeCells_fixed (banks) : (s.freeCells banks).Fixed b0 := by
  rw [State.freeCells.eq_def]; repeat' first | (with_reducible first | assumption | apply State.put_fixed | apply foldl_fixed) | intro _
theorem State.fenceStacks_fixed (u) : (s.fenceStacks u).Fixed b0 := by
  rw [State.fenceStacks.eq_def]
  repeat' first
    | with_reducible first
        | assumption | apply State.bump_fixed | apply State.setQueue_fixed | apply State.complete_fixed | apply State.freeCells_fixed | apply foldl_fixed
    | intro _ | split
theorem State.showFaults_fixed : s.showFaults.Fixed b0 := by
  rw [State.showFaults.eq_def]; repeat' first | (with_reducible first | assumption | apply State.wr_fixed | apply State.put_fixed) | split | dsimp only
theorem State.refillFaults_fixed : s.refillFaults.Fixed b0 := by
  rw [State.refillFaults.eq_def]
  repeat' first
    | simp only [State.fixed_mk]
    | with_reducible first
        | assumption | apply State.raise_fixed | apply State.showFaults_fixed | apply FixedF.of
    | split
theorem State.dropFaults_fixed (who) : (s.dropFaults who).Fixed b0 := by
  rw [State.dropFaults.eq_def]
  repeat' first | simp only [State.fixed_mk] | (with_reducible first | assumption | apply State.refillFaults_fixed | apply FixedF.of)
theorem State.abandon_fixed (i) : (s.abandon i).Fixed b0 := by
  rw [State.abandon.eq_def]; repeat' (with_reducible first | assumption | apply State.bump_fixed | apply State.setEngine_fixed)
theorem State.loseCapacity_fixed (i) : (s.loseCapacity i).Fixed b0 := by
  rw [State.loseCapacity.eq_def]; repeat' first | simp only [State.fixed_mk] | (with_reducible first | assumption | apply State.put_fixed | apply FixedF.of)
theorem State.fence_fixed (i) : (s.fence i).Fixed b0 := by
  rw [State.fence.eq_def]
  repeat' first
    | with_reducible first
        | assumption | apply State.put_fixed | apply State.setEngine_fixed | apply State.pick_fixed | apply State.onPic_fixed | apply State.reportBase_fixed
        | apply State.loseWork_fixed | apply State.showSpares_fixed | apply State.fenceStacks_fixed | apply State.dropFaults_fixed | apply State.abandon_fixed
        | apply State.loseCapacity_fixed
    | split | dsimp only
theorem State.unclaim_fixed (h) : (s.unclaim h).Fixed b0 := by
  rw [State.unclaim.eq_def]
  repeat' first | (with_reducible first | assumption | apply State.put_fixed | apply State.setHart_fixed | apply foldl_fixed) | intro _
theorem State.checkTimer_fixed (h) : (s.checkTimer h).Fixed b0 := by
  rw [State.checkTimer.eq_def]; repeat' (with_reducible first | assumption | apply State.setHart_fixed)
theorem State.trap_fixed (h cause tval) : (s.trap h cause tval).Fixed b0 := by
  rw [State.trap.eq_def]; repeat' (with_reducible first | assumption | apply State.setHart_fixed)
theorem State.loadSave_fixed (h) : (s.loadSave h).Fixed b0 := by
  rw [State.loadSave.eq_def]
  repeat' (with_reducible first | assumption | apply State.putPair_fixed | apply State.setHart_fixed | apply State.checkTimer_fixed)
theorem State.enterCall_fixed (a c) : (s.enterCall a c).Fixed b0 := by
  rw [State.enterCall.eq_def]; repeat' (with_reducible first | assumption | apply State.setHart_fixed)
theorem State.beginCall_fixed (n a c) : (s.beginCall n a c).Fixed b0 := by
  rw [State.beginCall.eq_def]; repeat' (with_reducible first | assumption | apply State.setStream_fixed | apply State.enterCall_fixed)
theorem State.endCall_fixed (n) : (s.endCall n).Fixed b0 := by
  rw [State.endCall.eq_def]
  repeat' first | (with_reducible first | assumption | apply State.setStream_fixed | apply State.setHart_fixed | apply State.beginCall_fixed) | split
theorem State.callDue_fixed (n c) : (s.callDue n c).Fixed b0 := by
  rw [State.callDue.eq_def]
  repeat' first
    | with_reducible first
        | assumption | apply State.setStream_fixed | apply State.beginCall_fixed | apply State.endCall_fixed
    | split | dsimp only
theorem State.recall_fixed (h) : (s.recall h).Fixed b0 := by
  rw [State.recall.eq_def]; repeat' first | (with_reducible first | assumption | apply State.beginCall_fixed | apply foldl_fixed) | intro _ | split
theorem State.failover_fixed (h) : (s.failover h).Fixed b0 := by
  rw [State.failover.eq_def]
  repeat' first
    | with_reducible first
        | assumption | apply State.put_fixed | apply State.setHart_fixed | apply State.unclaim_fixed | apply State.loadSave_fixed | apply State.recall_fixed
    | split | dsimp only
theorem State.rewriteUnit_fixed (u) : (s.rewriteUnit u).Fixed b0 := by
  rw [State.rewriteUnit.eq_def]; repeat' (with_reducible first | assumption | apply State.setCatUnit_fixed)
theorem State.reportAs_fixed (u k c detail raw addr inj) : (s.reportAs u k c detail raw addr inj).Fixed b0 := by
  rw [State.reportAs.eq_def]
  repeat' first
    | with_reducible first
        | assumption | apply State.reportBase_fixed | apply State.fence_fixed | apply State.failover_fixed | apply State.rewriteUnit_fixed
    | split | dsimp only
theorem State.report_fixed (u k detail addr) : (s.report u k detail addr).Fixed b0 := by
  rw [State.report.eq_def]; repeat' (with_reducible first | assumption | apply State.reportAs_fixed)
theorem State.reportStreams_fixed (u k l) : (s.reportStreams u k l).Fixed b0 := by
  rw [State.reportStreams.eq_def]
  repeat' first | (with_reducible first | assumption | apply State.notice_fixed | apply State.report_fixed | apply foldl_fixed) | intro _ | split | dsimp only

/-! The operations of Machine/Memory.lean. -/

theorem State.setDamage_fixed (b m) : (s.setDamage b m).Fixed b0 := hs
theorem State.storeBytes_fixed (a l) : (s.storeBytes a l).Fixed b0 := hs
theorem State.storeBlock_fixed (b l) : (s.storeBlock b l).Fixed b0 := by
  rw [State.storeBlock.eq_def]
  repeat' (with_reducible first | assumption | apply State.setChan_fixed | apply State.setDamage_fixed | apply State.storeBytes_fixed)
theorem State.logMend_fixed (unit addr bit check) : (s.logMend unit addr bit check).Fixed b0 := by
  rw [State.logMend.eq_def]
  repeat' first | (with_reducible first | assumption | apply State.wr_fixed | apply State.bump_fixed | apply State.report_fixed) | split | dsimp only
theorem State.noteVerdict_fixed (unit addr v) : (s.noteVerdict unit addr v).Fixed b0 := by
  rw [State.noteVerdict.eq_def]
  repeat' first | (with_reducible first | assumption | apply State.bump_fixed | apply State.report_fixed | apply State.logMend_fixed) | split
theorem State.readBlock_fixed (b) : (s.readBlock b).1.Fixed b0 := by
  refine P1Fixed.fixed ?_; rw [State.readBlock.eq_def]
  repeat' first | (with_reducible first | assumption | apply State.bump_fixed | apply State.noteVerdict_fixed | apply P1Fixed.mk1) | split
theorem State.readMem_fixed (a n) : (s.readMem a n).1.Fixed b0 := by
  refine P1Fixed.fixed ?_; rw [State.readMem.eq_def]
  repeat' first | (with_reducible first | assumption | apply State.readBlock_fixed | apply foldl_fixed1 | apply P1Fixed.mk1) | intro _
theorem State.writeInBlock_fixed (a l) : (s.writeInBlock a l).1.Fixed b0 := by
  refine P1Fixed.fixed ?_; rw [State.writeInBlock.eq_def]
  repeat' first
    | with_reducible first
        | assumption | apply State.bump_fixed | apply State.storeBlock_fixed | apply State.readBlock_fixed | apply P1Fixed.mk1
        | apply fixed_of_eq1 (he := by assumption)
    | split
theorem State.writeMem_fixed (a l) : (s.writeMem a l).1.Fixed b0 := by
  refine P1Fixed.fixed ?_; rw [State.writeMem.eq_def]
  repeat' first | (with_reducible first | assumption | apply State.writeInBlock_fixed | apply foldl_fixed1 | apply P1Fixed.mk1) | intro _ | split
theorem State.storeHost_fixed (a l) : (s.storeHost a l).Fixed b0 := hs
theorem execDramTraining_fixed : OutFixed b0 (execDramTraining s) := by
  rw [execDramTraining.eq_def]
  repeat' first
    | simp only [State.fixed_mk]
    | with_reducible first
        | assumption | apply State.put_fixed | apply foldl_fixed | apply OutFixed.next | apply FixedF.of
    | intro _ | split
theorem State.trainChannel_fixed (c like a b) : (s.trainChannel c like a b).1.Fixed b0 := by
  refine P1Fixed.fixed ?_; rw [State.trainChannel.eq_def]
  repeat' first | (with_reducible first | assumption | apply State.wr_fixed | apply State.put_fixed | apply State.report_fixed | apply P1Fixed.mk1) | split
theorem State.freshChannel_fixed (c ranks) : (s.freshChannel c ranks).Fixed b0 := by
  rw [State.freshChannel.eq_def]
  repeat' first | (with_reducible first | assumption | apply State.put_fixed | apply State.add_fixed | apply State.setChan_fixed) | split
theorem execDramTrainingDone_fixed (tries) : OutFixed b0 (execDramTrainingDone tries s) := by
  rw [execDramTrainingDone.eq_def]
  repeat' first
    | with_reducible first
        | assumption | apply State.put_fixed | apply State.raise_fixed | apply State.trainChannel_fixed | apply State.freshChannel_fixed | apply foldl_fixed
        | apply foldl_fixed1 | apply OutFixed.next
    | intro _ | split | dsimp only
theorem execMr4Poll_fixed (c code hot) : OutFixed b0 (execMr4Poll c code hot s) := by
  rw [execMr4Poll.eq_def]
  repeat' first
    | with_reducible first
        | assumption | apply State.put_fixed | apply State.raise_fixed | apply State.report_fixed | apply OutFixed.next
    | split
theorem execZqCalibration_fixed (c) : OutFixed b0 (execZqCalibration c s) := by
  rw [execZqCalibration.eq_def]; repeat' first | (with_reducible first | assumption | apply State.setChan_fixed | apply OutFixed.next) | split
theorem execRefreshDue_fixed (c) : OutFixed b0 (execRefreshDue c s) := by
  rw [execRefreshDue.eq_def]; repeat' first | (with_reducible first | assumption | apply State.setChan_fixed | apply OutFixed.next) | split
theorem execTrefwBoundary_fixed (c) : OutFixed b0 (execTrefwBoundary c s) := by
  rw [execTrefwBoundary.eq_def]; repeat' first | (with_reducible first | assumption | apply State.setChan_fixed | apply OutFixed.next) | split
theorem State.countAct_fixed (c row) : (s.countAct c row).Fixed b0 := by
  rw [State.countAct.eq_def]; repeat' first | (with_reducible first | assumption | apply State.bump_fixed | apply State.setChan_fixed) | split | dsimp only
theorem State.openRow_fixed (c pa) : (s.openRow c pa).Fixed b0 := by
  rw [State.openRow.eq_def]; repeat' first | (with_reducible first | assumption | apply State.setChan_fixed | apply State.countAct_fixed) | split | dsimp only
theorem State.noteAge_fixed (c r) : (s.noteAge c r).Fixed b0 := by
  rw [State.noteAge.eq_def]; repeat' first | (with_reducible first | assumption | apply State.put_fixed) | split | dsimp only
theorem State.writeGone_fixed (engine) : (s.writeGone engine).Fixed b0 := by
  rw [State.writeGone.eq_def]; repeat' first | (with_reducible first | assumption | apply State.setEngine_fixed) | split
theorem State.landWrite_fixed (c r) : (s.landWrite c r).Fixed b0 := by
  rw [State.landWrite.eq_def]
  repeat' first
    | with_reducible first
        | assumption | apply State.setChan_fixed | apply State.setDamage_fixed | apply State.storeBytes_fixed | apply State.writeGone_fixed
theorem State.refreshNeighbours_fixed (c row) : (s.refreshNeighbours c row).Fixed b0 := by
  rw [State.refreshNeighbours.eq_def]
  repeat' first | (with_reducible first | assumption | apply State.setChan_fixed | apply State.countAct_fixed | apply foldl_fixed) | intro _
theorem execDramCommandIssue_fixed (c) : OutFixed b0 (execDramCommandIssue c s) := by
  rw [execDramCommandIssue.eq_def]
  repeat' first
    | with_reducible first
        | assumption | apply State.setChan_fixed | apply State.openRow_fixed | apply State.noteAge_fixed | apply State.landWrite_fixed
        | apply State.refreshNeighbours_fixed | apply OutFixed.next
    | split | dsimp only
theorem execDramRead_fixed (block engine) : OutFixed b0 (execDramRead block engine s) := by
  rw [execDramRead.eq_def]
  repeat' first
    | with_reducible first
        | assumption | apply State.bump_fixed | apply State.setChan_fixed | apply State.reply_fixed | apply OutFixed.next
    | split | dsimp only
theorem State.requeue_fixed (c block data engine) : (s.requeue c block data engine).Fixed b0 := by
  rw [State.requeue.eq_def]; repeat' (with_reducible first | assumption | apply State.setChan_fixed)
theorem execDramWrite_fixed (block data engine) : OutFixed b0 (execDramWrite block data engine s) := by
  rw [execDramWrite.eq_def]
  repeat' first
    | with_reducible first
        | assumption | apply State.setChan_fixed | apply State.writeGone_fixed | apply State.requeue_fixed | apply OutFixed.next
    | split | dsimp only
theorem execNarrowWrite_fixed (addr data) : OutFixed b0 (execNarrowWrite addr data s) := by
  rw [execNarrowWrite.eq_def]
  repeat' first
    | with_reducible first
        | assumption | apply State.bump_fixed | apply State.setChan_fixed | apply State.reply_fixed | apply State.readBlock_fixed | apply State.requeue_fixed
        | apply OutFixed.next
    | split | dsimp only
theorem State.poisonRead_fixed (i addr again) : (s.poisonRead i addr again).Fixed b0 := by
  rw [State.poisonRead.eq_def]
  repeat' first
    | with_reducible first
        | assumption | apply State.put_fixed | apply State.setEngine_fixed | apply State.loseWork_fixed | apply State.abandon_fixed | apply State.report_fixed
    | split | dsimp only
theorem execReadDataCheck_fixed (unit addr mask engine hart again) : OutFixed b0 (execReadDataCheck unit addr mask engine hart again s) := by
  rw [execReadDataCheck.eq_def]
  repeat' first
    | with_reducible first
        | assumption | apply State.setHart_fixed | apply State.reply_fixed | apply State.trap_fixed | apply State.setDamage_fixed
        | apply State.noteVerdict_fixed | apply State.poisonRead_fixed | apply OutFixed.next
    | split | dsimp only
theorem execLogEntryFree_fixed (e) : OutFixed b0 (execLogEntryFree e s) := by
  rw [execLogEntryFree.eq_def]; repeat' first | (with_reducible first | assumption | apply State.put_fixed | apply OutFixed.next) | split
theorem State.endLap_fixed : s.endLap.Fixed b0 := by
  rw [State.endLap.eq_def]
  repeat' first
    | simp only [State.fixed_mk]
    | with_reducible first
        | assumption | apply State.wr_fixed | apply State.put_fixed | apply State.bump_fixed | apply FixedF.of
    | split
theorem State.scrubBlock_fixed (b) : (s.scrubBlock b).Fixed b0 := by
  rw [State.scrubBlock.eq_def]
  repeat' first
    | with_reducible first
        | assumption | apply State.storeBlock_fixed | apply State.readBlock_fixed | apply fixed_of_eq1 (he := by assumption)
    | split | dsimp only
theorem State.scrubGranule_fixed (a) : (s.scrubGranule a).Fixed b0 := by
  rw [State.scrubGranule.eq_def]
  repeat' first
    | simp only [State.fixed_mk]
    | with_reducible first
        | assumption | apply State.wr_fixed | apply State.put_fixed | apply State.scrubBlock_fixed | apply foldl_fixed | apply FixedF.of
    | intro _
theorem State.scrubOn_fixed (pages) : (s.scrubOn pages).Fixed b0 := hs
theorem State.scrubStack_fixed : s.scrubStack.Fixed b0 := by
  rw [State.scrubStack.eq_def]; repeat' first | simp only [State.fixed_mk] | (with_reducible first | assumption | apply State.put_fixed | apply FixedF.of)
theorem State.lapUnless_fixed (n) : (s.lapUnless n).Fixed b0 := by
  rw [State.lapUnless.eq_def]; repeat' first | (with_reducible first | assumption | apply State.endLap_fixed) | split
theorem execScrubRead_fixed : OutFixed b0 (execScrubRead s) := by
  rw [execScrubRead.eq_def]
  repeat' first
    | with_reducible first
        | assumption | apply State.put_fixed | apply State.endLap_fixed | apply State.scrubGranule_fixed | apply State.scrubOn_fixed
        | apply State.scrubStack_fixed | apply State.lapUnless_fixed | apply OutFixed.next
    | split
theorem State.restartLap_fixed : s.restartLap.Fixed b0 := by
  rw [State.restartLap.eq_def]; repeat' first | simp only [State.fixed_mk] | (with_reducible first | assumption | apply State.put_fixed | apply FixedF.of)
theorem execScrubCtlWrite_fixed (which value) : OutFixed b0 (execScrubCtlWrite which value s) := by
  rw [execScrubCtlWrite.eq_def]
  repeat' first | (with_reducible first | assumption | apply State.put_fixed | apply State.restartLap_fixed | apply OutFixed.next) | split
theorem execDqCentreMove_fixed (c lane write) : OutFixed b0 (execDqCentreMove c lane write s) := by
  rw [execDqCentreMove.eq_def]
  repeat' first | simp only [State.fixed_mk] | (with_reducible first | assumption | apply State.put_fixed | apply OutFixed.next | apply FixedF.of) | split

/-! The operations of Machine/Translate.lean. -/

theorem State.cacheIn_fixed (cap l e) : (s.cacheIn cap l e).2.Fixed b0 := by
  refine P2Fixed.fixed ?_; rw [State.cacheIn.eq_def]; repeat' first | (with_reducible first | assumption | apply State.draw_fixed | apply P2Fixed.mk2) | split
theorem State.cache_fixed (eng e) : (s.cache eng e).Fixed b0 := by
  rw [State.cache.eq_def]
  repeat' first
    | simp only [State.fixed_mk]
    | with_reducible first
        | assumption | apply State.setEngine_fixed | apply State.cacheIn_fixed | apply FixedF.of
    | split
theorem State.deny_fixed (c pa) : (s.deny c pa).Fixed b0 := by
  rw [State.deny.eq_def]; repeat' (with_reducible first | assumption | apply State.bump_fixed | apply State.reportAs_fixed)
theorem State.protect_fixed (c pa write ns) : (s.protect c pa write ns).1.Fixed b0 := by
  refine P1Fixed.fixed ?_; rw [State.protect.eq_def]; repeat' first | (with_reducible first | assumption | apply State.deny_fixed | apply P1Fixed.mk1) | split
theorem State.translate_fixed (c eng asid va write) : (s.translate c eng asid va write).1.Fixed b0 := by
  refine P1Fixed.fixed ?_; rw [State.translate.eq_def]
  repeat' first | (with_reducible first | assumption | apply State.cache_fixed | apply State.protect_fixed | apply P1Fixed.mk1) | split
theorem State.readPhys_fixed (pa n) : (s.readPhys pa n).1.Fixed b0 := by
  refine P1Fixed.fixed ?_; rw [State.readPhys.eq_def]
  repeat' first | (with_reducible first | assumption | apply State.readMem_fixed | apply P1Fixed.mk1) | split
theorem State.writePhys_fixed (pa l) : (s.writePhys pa l).1.Fixed b0 := by
  refine P1Fixed.fixed ?_; rw [State.writePhys.eq_def]
  repeat' first | (with_reducible first | assumption | apply State.writeMem_fixed | apply State.storeHost_fixed | apply P1Fixed.mk1) | split
theorem State.queueFault_fixed (who asid va write kind level) : (s.queueFault who asid va write kind level).Fixed b0 := by
  rw [State.queueFault.eq_def]
  repeat' first | simp only [State.fixed_mk] | (with_reducible first | assumption | apply State.refillFaults_fixed | apply FixedF.of)

/-! The operations of Machine/Lending.lean. -/

theorem State.showPool_fixed (p) : (s.showPool p).Fixed b0 := by
  rw [State.showPool.eq_def]; repeat' (with_reducible first | assumption | apply State.put_fixed)
theorem State.noteLow_fixed (p) : (s.noteLow p).Fixed b0 := by
  rw [State.noteLow.eq_def]
  repeat' first | (with_reducible first | assumption | apply State.put_fixed | apply State.raise_fixed | apply State.showPool_fixed) | split | dsimp only
theorem State.refill_fixed (p) : (s.refill p).Fixed b0 := by
  rw [State.refill.eq_def]
  repeat' first
    | with_reducible first
        | assumption | apply State.setPool_fixed | apply State.draw_fixed | apply State.storeBlock_fixed | apply State.cache_fixed
        | apply State.showPool_fixed
    | split | dsimp only
theorem execFreeCacheRefill_fixed (p) : OutFixed b0 (execFreeCacheRefill p s) := by
  rw [execFreeCacheRefill.eq_def]; repeat' (with_reducible first | assumption | apply State.refill_fixed | apply OutFixed.next)
theorem execInit_fixed (p) : OutFixed b0 (execInit p s) := by
  rw [execInit.eq_def]; repeat' first | (with_reducible first | assumption | apply State.put_fixed | apply OutFixed.next) | split
theorem execPoolInitDone_fixed (p) : OutFixed b0 (execPoolInitDone p s) := by
  rw [execPoolInitDone.eq_def]
  repeat' first
    | with_reducible first
        | assumption | apply State.put_fixed | apply State.setPool_fixed | apply State.storeBlock_fixed | apply State.showPool_fixed | apply foldl_fixed
        | apply OutFixed.next
    | intro _ | split
theorem execDisable_fixed (p) : OutFixed b0 (execDisable p s) := by
  rw [execDisable.eq_def]
  repeat' first
    | with_reducible first
        | assumption | apply State.put_fixed | apply State.setPool_fixed | apply State.showPool_fixed | apply OutFixed.next
    | split
theorem State.setLent_fixed (h v) : (s.setLent h v).Fixed b0 := by
  rw [State.setLent.eq_def]; repeat' (with_reducible first | assumption | apply State.setPool_fixed)
theorem State.allocate_fixed (p u) : (s.allocate p u).1.Fixed b0 := by
  refine P1Fixed.fixed ?_; rw [State.allocate.eq_def]
  repeat' first
    | with_reducible first
        | assumption | apply State.bump_fixed | apply State.setPool_fixed | apply State.pick_fixed | apply State.cache_fixed | apply State.noteLow_fixed
        | apply State.refill_fixed | apply State.setLent_fixed | apply P1Fixed.mk1
    | split | dsimp only
theorem execFolioAllocate_fixed (p u) : OutFixed b0 (execFolioAllocate p u s) := by
  rw [execFolioAllocate.eq_def]; repeat' (with_reducible first | assumption | apply State.reply_fixed | apply State.allocate_fixed | apply OutFixed.next)
theorem State.giveBack_fixed (h) : (s.giveBack h).Fixed b0 := by
  rw [State.giveBack.eq_def]
  repeat' first
    | with_reducible first
        | assumption | apply State.setPool_fixed | apply State.cache_fixed | apply State.showPool_fixed | apply State.refill_fixed
    | split
theorem State.showOrphans_fixed : s.showOrphans.Fixed b0 := by
  rw [State.showOrphans.eq_def]; repeat' (with_reducible first | assumption | apply State.wr_fixed | apply State.put_fixed)
theorem State.share_fixed (h u n owner) : (s.share h u n owner).1.Fixed b0 := by
  refine P1Fixed.fixed ?_; rw [State.share.eq_def]
  repeat' first | (with_reducible first | assumption | apply State.bump_fixed | apply State.setLent_fixed | apply P1Fixed.mk1) | split
theorem State.release_fixed (h u) : (s.release h u).1.Fixed b0 := by
  refine P1Fixed.fixed ?_; rw [State.release.eq_def]
  repeat' first
    | simp only [State.fixed_mk]
    | with_reducible first
        | assumption | apply State.bump_fixed | apply State.raise_fixed | apply State.report_fixed | apply State.setLent_fixed | apply State.giveBack_fixed
        | apply State.showOrphans_fixed | apply P1Fixed.mk1 | apply FixedF.of
    | split
theorem execShare_fixed (h u n owner) : OutFixed b0 (execShare h u n owner s) := by
  rw [execShare.eq_def]; repeat' (with_reducible first | assumption | apply State.reply_fixed | apply State.share_fixed | apply OutFixed.next)
theorem execRelease_fixed (h u) : OutFixed b0 (execRelease h u s) := by
  rw [execRelease.eq_def]; repeat' (with_reducible first | assumption | apply State.reply_fixed | apply State.release_fixed | apply OutFixed.next)
theorem execReclaim_fixed : OutFixed b0 (execReclaim s) := by
  rw [execReclaim.eq_def]
  repeat' first
    | simp only [State.fixed_mk]
    | with_reducible first
        | assumption | apply State.giveBack_fixed | apply State.showOrphans_fixed | apply OutFixed.next | apply FixedF.of
    | split

/-! The operations of Machine/Wake.lean. -/

theorem State.checkWake_fixed : s.checkWake.Fixed b0 := by
  rw [State.checkWake.eq_def]
  repeat' first | simp only [State.fixed_mk] | (with_reducible first | assumption | apply State.put_fixed | apply FixedF.of) | split
theorem State.unwind_fixed (cause) : (s.unwind cause).Fixed b0 := by
  rw [State.unwind.eq_def]; repeat' first | simp only [State.fixed_mk] | (with_reducible first | assumption | apply State.put_fixed | apply FixedF.of) | split
theorem State.wakeEvent_fixed (src) : (s.wakeEvent src).Fixed b0 := by
  rw [State.wakeEvent.eq_def]
  repeat' first | (with_reducible first | assumption | apply State.putBit_fixed | apply State.checkWake_fixed | apply State.unwind_fixed) | split | dsimp only
theorem State.linkActivity_fixed : s.linkActivity.Fixed b0 := by
  rw [State.linkActivity.eq_def]; repeat' first | (with_reducible first | assumption | apply State.wakeEvent_fixed) | split
theorem State.heard_fixed (byHost) : (s.heard byHost).Fixed b0 := by
  rw [State.heard.eq_def]; repeat' first | (with_reducible first | assumption | apply State.linkActivity_fixed) | split

/-! The operations of Machine/Slips.lean. -/

theorem State.sendVec_fixed (v) : (s.sendVec v).Fixed b0 := by
  rw [State.sendVec.eq_def]; repeat' first | simp only [State.fixed_mk] | (with_reducible first | assumption | apply State.storeHost_fixed | apply FixedF.of)
theorem State.fireVec_fixed (v) : (s.fireVec v).Fixed b0 := by
  rw [State.fireVec.eq_def]
  repeat' first | (with_reducible first | assumption | apply State.setVec_fixed | apply State.keepVec_fixed | apply State.sendVec_fixed) | split
theorem State.countVec_fixed (v) : (s.countVec v).Fixed b0 := by
  rw [State.countVec.eq_def]; repeat' first | (with_reducible first | assumption | apply State.setVec_fixed | apply State.fireVec_fixed) | split | dsimp only
theorem execMsixHoldTimer_fixed (v) : OutFixed b0 (execMsixHoldTimer v s) := by
  rw [execMsixHoldTimer.eq_def]; repeat' first | (with_reducible first | assumption | apply State.fireVec_fixed | apply OutFixed.next) | split
theorem State.sendPending_fixed (v) : (s.sendPending v).Fixed b0 := by
  rw [State.sendPending.eq_def]; repeat' first | (with_reducible first | assumption | apply State.setVecPending_fixed | apply State.sendVec_fixed) | split
theorem execMsixUnmask_fixed (v) : OutFixed b0 (execMsixUnmask v s) := by
  rw [execMsixUnmask.eq_def]
  repeat' first
    | simp only [State.fixed_mk]
    | with_reducible first
        | assumption | apply State.put_fixed | apply State.sendPending_fixed | apply foldl_fixed | apply OutFixed.next | apply FixedF.of
    | intro _ | split
theorem State.writeSlip_fixed (n r) : (s.writeSlip n r).Fixed b0 := by
  rw [State.writeSlip.eq_def]
  repeat' first | (with_reducible first | assumption | apply State.put_fixed | apply State.storeHost_fixed | apply State.countVec_fixed) | split
theorem State.takeSlips_fixed (n x0) : (s.takeSlips n x0).Fixed b0 := by
  induction x0 generalizing s n with
  | zero => exact hs
  | succ fuel ih =>
    unfold State.takeSlips
    repeat' first
      | with_reducible first
          | assumption | apply ih | apply State.put_fixed | apply State.setRing_fixed | apply State.showBusy_fixed
      | split | dsimp only
theorem State.takeAll_fixed (n) : (s.takeAll n).Fixed b0 := by
  rw [State.takeAll.eq_def]; repeat' (with_reducible first | assumption | apply State.takeSlips_fixed)
theorem execSqTail_fixed (n idx) : OutFixed b0 (execSqTail n idx s) := by
  rw [execSqTail.eq_def]
  repeat' first
    | with_reducible first
        | assumption | apply State.put_fixed | apply State.bump_fixed | apply State.raise_fixed | apply State.linkActivity_fixed | apply State.takeAll_fixed
        | apply OutFixed.next
    | split | dsimp only
theorem execRqHead_fixed (n idx) : OutFixed b0 (execRqHead n idx s) := by
  rw [execRqHead.eq_def]
  repeat' first
    | with_reducible first
        | assumption | apply State.put_fixed | apply State.bump_fixed | apply State.raise_fixed | apply State.linkActivity_fixed | apply State.takeAll_fixed
        | apply OutFixed.next
    | split | dsimp only
theorem State.keptDoorbells_fixed : s.keptDoorbells.Fixed b0 := by
  rw [State.keptDoorbells.eq_def]
  repeat' first | (with_reducible first | assumption | apply State.put_fixed | apply State.takeAll_fixed | apply foldl_fixed) | intro _ | split
theorem execSlipReread_fixed (n) : OutFixed b0 (execSlipReread n s) := by
  rw [execSlipReread.eq_def]
  repeat' first
    | with_reducible first
        | assumption | apply State.put_fixed | apply State.setRing_fixed | apply State.complete_fixed | apply State.showBusy_fixed | apply State.takeAll_fixed
        | apply OutFixed.next
    | split | dsimp only
theorem State.putLost_fixed (n) : (s.putLost n).Fixed b0 := by
  rw [State.putLost.eq_def]
  repeat' first | (with_reducible first | assumption | apply State.setRing_fixed | apply State.showPending_fixed) | split | dsimp only
theorem execLostSlip_fixed (n) : OutFixed b0 (execLostSlip n s) := by
  rw [execLostSlip.eq_def]; repeat' (with_reducible first | assumption | apply State.putLost_fixed | apply OutFixed.next)
theorem State.writeEvents_fixed (n k) : (s.writeEvents n k).Fixed b0 := by
  rw [State.writeEvents.eq_def]
  repeat' first
    | with_reducible first
        | assumption | apply State.setRing_fixed | apply State.showPending_fixed | apply State.writeSlip_fixed | apply State.putLost_fixed | apply foldl_fixed
    | intro _
theorem State.drainOn_fixed (n) : (s.drainOn n).Fixed b0 := by
  rw [State.drainOn.eq_def]
  repeat' first | (with_reducible first | assumption | apply State.setRing_fixed | apply State.writeEvents_fixed) | split | dsimp only
theorem State.beginDrain_fixed (n) : (s.beginDrain n).Fixed b0 := by
  rw [State.beginDrain.eq_def]; repeat' (with_reducible first | assumption | apply State.setRing_fixed | apply State.drainOn_fixed)
theorem State.startDrain_fixed (n) : (s.startDrain n).Fixed b0 := by
  rw [State.startDrain.eq_def]; repeat' (with_reducible first | assumption | apply State.fireVec_fixed | apply State.beginDrain_fixed)
theorem execEventGroupWrite_fixed (n) : OutFixed b0 (execEventGroupWrite n s) := by
  rw [execEventGroupWrite.eq_def]
  repeat' first | (with_reducible first | assumption | apply State.writeEvents_fixed | apply State.drainOn_fixed | apply OutFixed.next) | split | dsimp only
theorem execEventQueueTimeout_fixed (n) : OutFixed b0 (execEventQueueTimeout n s) := by
  rw [execEventQueueTimeout.eq_def]
  repeat' first | (with_reducible first | assumption | apply State.startDrain_fixed | apply OutFixed.next) | split | dsimp only
theorem execHostD3hotEntry_fixed (d3 pmeEn) : OutFixed b0 (execHostD3hotEntry d3 pmeEn s) := by
  rw [execHostD3hotEntry.eq_def]; repeat' first | simp only [State.fixed_mk] | (with_reducible first | assumption | apply OutFixed.next | apply FixedF.of)
theorem execRpCfgWrite_fixed (n v) : OutFixed b0 (execRpCfgWrite n v s) := by
  rw [execRpCfgWrite.eq_def]
  repeat' first
    | with_reducible first
        | assumption | apply State.wr_fixed | apply State.put_fixed | apply State.setRing_fixed | apply OutFixed.next
    | split | dsimp only
theorem State.startSlip_fixed (n t) : (s.startSlip n t).Fixed b0 := by
  rw [State.startSlip.eq_def]; repeat' (with_reducible first | assumption | apply State.setRing_fixed)
theorem State.finishExtra_fixed (n k t status extra w) : (s.finishExtra n k t status extra w).Fixed b0 := by
  rw [State.finishExtra.eq_def]; repeat' first | (with_reducible first | assumption | apply State.setRing_fixed | apply State.finish_fixed) | split
theorem State.finishInOrder_fixed (n k t status w) : (s.finishInOrder n k t status w).Fixed b0 := by
  rw [State.finishInOrder.eq_def]; repeat' (with_reducible first | assumption | apply State.finishExtra_fixed)
theorem State.finishByIdX_fixed (n id status extra w) : (s.finishByIdX n id status extra w).Fixed b0 := by
  rw [State.finishByIdX.eq_def]; repeat' first | (with_reducible first | assumption | apply State.finishExtra_fixed) | split
theorem State.finishById_fixed (n id status w) : (s.finishById n id status w).Fixed b0 := by
  rw [State.finishById.eq_def]; repeat' (with_reducible first | assumption | apply State.finishByIdX_fixed)
theorem State.slipPages_fixed (asid write x0 x1 x2) : (s.slipPages asid write x0 x1 x2).1.Fixed b0 := by
  induction x0 generalizing s asid write x1 x2 with
  | zero => exact hs
  | succ fuel ih =>
    refine P1Fixed.fixed ?_
    unfold State.slipPages
    repeat' first
      | with_reducible first
          | assumption | apply ih | apply State.translate_fixed | apply P1Fixed.mk1 | apply fixed_of_eq1 (he := by assumption)
      | split | dsimp only
theorem State.slipPieces_fixed (n va len write) : (s.slipPieces n va len write).1.Fixed b0 := by
  refine P1Fixed.fixed ?_; rw [State.slipPieces.eq_def]; repeat' (with_reducible first | assumption | apply State.slipPages_fixed | apply P1Fixed.mk1)
theorem State.slipFault_fixed (n t write kind level va) : (s.slipFault n t write kind level va).Fixed b0 := by
  rw [State.slipFault.eq_def]; repeat' first | (with_reducible first | assumption | apply State.queueFault_fixed | apply State.finishById_fixed) | split
theorem State.readPieces_fixed (x0) : (s.readPieces x0).1.Fixed b0 := by
  induction x0 generalizing s with
  | nil => exact hs
  | cons hd tl ih =>
    refine P1Fixed.fixed ?_
    unfold State.readPieces; repeat' (with_reducible first | assumption | apply ih | apply State.readPhys_fixed | apply P1Fixed.mk1)
theorem State.writePieces_fixed (x0 x1) : (s.writePieces x0 x1).1.Fixed b0 := by
  induction x0 generalizing s x1 with
  | nil => exact hs
  | cons hd tl ih =>
    refine P1Fixed.fixed ?_
    unfold State.writePieces; repeat' (with_reducible first | assumption | apply ih | apply State.writePhys_fixed | apply P1Fixed.mk1)
theorem execNop_fixed (n k) : OutFixed b0 (execNop n k s) := by
  rw [execNop.eq_def]; repeat' first | (with_reducible first | assumption | apply State.finish_fixed | apply OutFixed.next) | split
theorem execUnknownOpcode_fixed (n k) : OutFixed b0 (execUnknownOpcode n k s) := by
  rw [execUnknownOpcode.eq_def]; repeat' first | (with_reducible first | assumption | apply State.finish_fixed | apply OutFixed.next) | split
theorem State.query_fixed (n k what w) : (s.query n k what w).Fixed b0 := by
  rw [State.query.eq_def]; repeat' first | (with_reducible first | assumption | apply State.finish_fixed) | split
theorem execQueryLedger_fixed (n k) : OutFixed b0 (execQueryLedger n k s) := by
  rw [execQueryLedger.eq_def]; repeat' (with_reducible first | assumption | apply State.query_fixed | apply OutFixed.next)
theorem execQueryStream_fixed (n k) : OutFixed b0 (execQueryStream n k s) := by
  rw [execQueryStream.eq_def]
  repeat' first | (with_reducible first | assumption | apply State.draw_fixed | apply State.query_fixed | apply OutFixed.next) | split
theorem execQueryDigest_fixed (n k) : OutFixed b0 (execQueryDigest n k s) := by
  rw [execQueryDigest.eq_def]
  repeat' first | (with_reducible first | assumption | apply State.finish_fixed | apply State.query_fixed | apply OutFixed.next) | split
theorem execReturnFolio_fixed (n k) : OutFixed b0 (execReturnFolio n k s) := by
  rw [execReturnFolio.eq_def]
  repeat' first
    | with_reducible first
        | assumption | apply State.finish_fixed | apply State.readMem_fixed | apply State.release_fixed | apply State.slipPieces_fixed
        | apply State.slipFault_fixed | apply State.writePieces_fixed | apply OutFixed.next | apply fixed_of_eq1 (he := by assumption)
    | split | dsimp only

/-! The operations of Machine/Pictures.lean. -/

theorem State.postPlan_fixed (n plan) : (s.postPlan n plan).1.Fixed b0 := by
  refine P1Fixed.fixed ?_; rw [State.postPlan.eq_def]
  repeat' first | (with_reducible first | assumption | apply State.setStream_fixed | apply P1Fixed.mk1) | split | dsimp only
theorem State.fwPost_fixed (n num) : (s.fwPost n num).Fixed b0 := by
  rw [State.fwPost.eq_def]
  repeat' first
    | with_reducible first
        | assumption | apply State.setStream_fixed | apply State.callDue_fixed | apply State.postPlan_fixed
    | split | dsimp only
theorem State.takePlan_fixed (n p) : (s.takePlan n p).1.Fixed b0 := by
  refine P1Fixed.fixed ?_; rw [State.takePlan.eq_def]
  repeat' first | (with_reducible first | assumption | apply State.setStream_fixed | apply P1Fixed.mk1) | split
theorem State.allocStats_fixed (n p) : (s.allocStats n p).1.Fixed b0 := by
  refine P1Fixed.fixed ?_; rw [State.allocStats.eq_def]
  repeat' first | (with_reducible first | assumption | apply State.allocate_fixed | apply P1Fixed.mk1 | apply fixed_of_eq1 (he := by assumption)) | split
theorem State.picSlip_fixed (n p) : (s.picSlip n p).Fixed b0 := by
  rw [State.picSlip.eq_def]
  repeat' first
    | with_reducible first
        | assumption | apply State.streamEvent_fixed | apply State.finish_fixed | apply State.onPic_fixed
    | split | dsimp only
theorem State.settle_fixed (n) : (s.settle n).Fixed b0 := by
  rw [State.settle.eq_def]
  repeat' first | (with_reducible first | assumption | apply State.setStream_fixed | apply State.picSlip_fixed | apply foldl_fixed) | intro _ | split
theorem State.dropReader_fixed (n num who) : (s.dropReader n num who).Fixed b0 := by
  rw [State.dropReader.eq_def]; repeat' (with_reducible first | assumption | apply State.onPic_fixed | apply State.settle_fixed)
theorem State.leaveSource_fixed (n p) : (s.leaveSource n p).Fixed b0 := by
  rw [State.leaveSource.eq_def]; repeat' first | (with_reducible first | assumption | apply State.dropReader_fixed) | split
theorem State.firstPacket_fixed (d num at') : (s.firstPacket d num at').Fixed b0 := by
  rw [State.firstPacket.eq_def]; repeat' first | (with_reducible first | assumption | apply State.onPic_fixed | apply State.settle_fixed) | split
theorem State.developPic_fixed (n q d) : (s.developPic n q d).Fixed b0 := by
  rw [State.developPic.eq_def]; repeat' (with_reducible first | assumption | apply State.setStream_fixed)
theorem State.beginPic_fixed (n f) : (s.beginPic n f).Fixed b0 := by
  rw [State.beginPic.eq_def]
  repeat' first | (with_reducible first | assumption | apply State.setStream_fixed | apply State.developPic_fixed | apply foldl_fixed) | intro _
theorem State.planAll_fixed (n num) : (s.planAll n num).Fixed b0 := by
  rw [State.planAll.eq_def]; repeat' first | (with_reducible first | assumption | apply State.fwPost_fixed | apply foldl_fixed) | intro _ | split | dsimp only
theorem State.tryFinish_fixed (n num) : (s.tryFinish n num).Fixed b0 := by
  unfold State.tryFinish
  extract_lets x
  split
  · exact hs
  split
  · exact hs
  extract_lets inp rows p1 st m x1 p2
  clear_value inp rows p1 st m x1 p2
  split
  · repeat' first | (with_reducible first | assumption | apply State.setStream_fixed | apply State.writeMem_fixed | apply State.share_fixed) | split
  · exact State.setStream_fixed hs _ _
theorem State.writeOut_fixed (p data) : (s.writeOut p data).1.Fixed b0 := by
  refine P1Fixed.fixed ?_; rw [State.writeOut.eq_def]
  repeat' first
    | with_reducible first
        | assumption | apply State.queueFault_fixed | apply State.slipPieces_fixed | apply State.writePieces_fixed | apply P1Fixed.mk1
        | apply fixed_of_eq1 (he := by assumption)
    | split | dsimp only
theorem State.setReleased_fixed (n p) : (s.setReleased n p).Fixed b0 := by
  rw [State.setReleased.eq_def]
  repeat' (with_reducible first | assumption | apply State.setStream_fixed | apply State.settle_fixed | apply State.leaveSource_fixed)

/-! The operations of Machine/Plan.lean. -/

theorem State.showTarget_fixed : s.showTarget.Fixed b0 := by
  rw [State.showTarget.eq_def]; repeat' first | (with_reducible first | assumption | apply State.put_fixed) | split
theorem State.showRamp_fixed : s.showRamp.Fixed b0 := by
  rw [State.showRamp.eq_def]; repeat' (with_reducible first | assumption | apply State.put_fixed)

/-! The operations of Machine/Streams.lean. -/

theorem State.showLedger_fixed : s.showLedger.Fixed b0 := by
  rw [State.showLedger.eq_def]; repeat' (with_reducible first | assumption | apply State.put_fixed)
theorem State.recharge_fixed : s.recharge.Fixed b0 := by
  rw [State.recharge.eq_def]
  repeat' first
    | simp only [State.fixed_mk]
    | with_reducible first
        | assumption | apply State.setStream_fixed | apply State.showLedger_fixed | apply foldl_fixed | apply FixedF.of
    | intro _
theorem State.requestPace_fixed (v) : (s.requestPace v).1.Fixed b0 := by
  refine P1Fixed.fixed ?_; rw [State.requestPace.eq_def]
  repeat' first
    | with_reducible first
        | assumption | apply State.put_fixed | apply State.showTarget_fixed | apply State.recharge_fixed | apply P1Fixed.mk1
    | split | dsimp only
theorem State.rampDone_fixed : s.rampDone.Fixed b0 := by
  rw [State.rampDone.eq_def]; repeat' first | (with_reducible first | assumption | apply State.put_fixed | apply State.recharge_fixed) | split | dsimp only
theorem execPaceCtlWrite_fixed (v) : OutFixed b0 (execPaceCtlWrite v s) := by
  rw [execPaceCtlWrite.eq_def]; repeat' (with_reducible first | assumption | apply State.requestPace_fixed | apply OutFixed.next)

/-! The operations of Machine/Completions.lean. -/

theorem State.written_fixed (r) : (s.written r).Fixed b0 := by
  rw [State.written.eq_def]; repeat' first | (with_reducible first | assumption | apply State.showLedger_fixed | apply State.settle_fixed) | split
theorem State.writeCompletion_fixed (n) : (s.writeCompletion n).Fixed b0 := by
  rw [State.writeCompletion.eq_def]
  repeat' first
    | with_reducible first
        | assumption | apply State.setRing_fixed | apply State.showBusy_fixed | apply State.writeSlip_fixed | apply State.written_fixed
    | split
theorem execCompletionWrite_fixed (n) : OutFixed b0 (execCompletionWrite n s) := by
  rw [execCompletionWrite.eq_def]
  repeat' (with_reducible first | assumption | apply State.takeAll_fixed | apply State.writeCompletion_fixed | apply OutFixed.next)
theorem State.writeWaiting_fixed (n x0) : (s.writeWaiting n x0).Fixed b0 := by
  induction x0 generalizing s n with
  | zero => exact hs
  | succ fuel ih =>
    unfold State.writeWaiting; repeat' (with_reducible first | assumption | apply ih | apply State.writeCompletion_fixed)
theorem State.writeAllWaiting_fixed (n) : (s.writeAllWaiting n).Fixed b0 := by
  rw [State.writeAllWaiting.eq_def]
  repeat' first
    | with_reducible first
        | assumption | apply State.takeAll_fixed | apply State.beginDrain_fixed | apply State.writeWaiting_fixed
    | split | dsimp only
theorem execHostD0Return_fixed (fnMask) : OutFixed b0 (execHostD0Return fnMask s) := by
  rw [execHostD0Return.eq_def]
  repeat' first
    | simp only [State.fixed_mk]
    | with_reducible first
        | assumption | apply State.putBit_fixed | apply State.sendPending_fixed | apply State.writeAllWaiting_fixed | apply foldl_fixed | apply OutFixed.next
        | apply FixedF.of
    | intro _ | split

/-! The operations of Machine/Bindery.lean. -/

theorem State.setMagState_fixed (p v) : (s.setMagState p v).Fixed b0 := by
  rw [State.setMagState.eq_def]; repeat' (with_reducible first | assumption | apply State.put_fixed | apply State.raise_fixed)
theorem State.setTake_fixed (t) : (s.setTake t).Fixed b0 := hs
theorem State.showBnd_fixed : s.showBnd.Fixed b0 := by
  rw [State.showBnd.eq_def]; repeat' first | (with_reducible first | assumption | apply State.put_fixed | apply foldl_fixed) | intro _
theorem State.issueN_fixed (p job admin n seq writes) : (s.issueN p job admin n seq writes).Fixed b0 := by
  rw [State.issueN.eq_def]; repeat' (with_reducible first | assumption | apply State.setMag_fixed)
theorem State.issue_fixed (p job admin seq writes) : (s.issue p job admin seq writes).Fixed b0 := by
  rw [State.issue.eq_def]; repeat' (with_reducible first | assumption | apply State.issueN_fixed)
theorem State.issueRead_fixed (p job len) : (s.issueRead p job len).Fixed b0 := by
  rw [State.issueRead.eq_def]; repeat' (with_reducible first | assumption | apply State.issueN_fixed)
theorem State.startCkpt_fixed (p w) : (s.startCkpt p w).Fixed b0 := by
  rw [State.startCkpt.eq_def]; repeat' first | (with_reducible first | assumption | apply State.setMag_fixed | apply State.issue_fixed) | split | dsimp only
theorem State.journal_fixed (p job ty take body) : (s.journal p job ty take body).Fixed b0 := by
  rw [State.journal.eq_def]
  repeat' first | (with_reducible first | assumption | apply State.setMag_fixed | apply State.issue_fixed | apply State.startCkpt_fixed) | split | dsimp only
theorem State.takeEvent_fixed (t cause p) : (s.takeEvent t cause p).Fixed b0 := by
  rw [State.takeEvent.eq_def]; repeat' (with_reducible first | assumption | apply State.streamEvent_fixed)
theorem State.endTake_fixed (n) : (s.endTake n).Fixed b0 := by
  rw [State.endTake.eq_def]
  repeat' first | simp only [State.fixed_mk] | (with_reducible first | assumption | apply State.setStream_fixed | apply State.showBnd_fixed | apply FixedF.of)
theorem State.failTakeSlips_fixed (t st) : (s.failTakeSlips t st).Fixed b0 := by
  rw [State.failTakeSlips.eq_def]; repeat' first | (with_reducible first | assumption | apply State.finishById_fixed | apply foldl_fixed) | intro _ | split
theorem State.releaseHeld_fixed (t) : (s.releaseHeld t).Fixed b0 := by
  rw [State.releaseHeld.eq_def]; repeat' first | (with_reducible first | assumption | apply State.dropReader_fixed | apply foldl_fixed) | intro _
theorem State.stopTake_fixed (t cause p st) : (s.stopTake t cause p st).Fixed b0 := by
  rw [State.stopTake.eq_def]
  repeat' first
    | with_reducible first
        | assumption | apply State.settle_fixed | apply State.takeEvent_fixed | apply State.endTake_fixed | apply State.failTakeSlips_fixed
        | apply State.releaseHeld_fixed
theorem State.dropVol_fixed (n p cause st) : (s.dropVol n p cause st).Fixed b0 := by
  rw [State.dropVol.eq_def]
  repeat' first
    | with_reducible first
        | assumption | apply State.dropReader_fixed | apply State.written_fixed | apply State.setTake_fixed | apply State.showBnd_fixed
        | apply State.takeEvent_fixed | apply State.failTakeSlips_fixed | apply State.stopTake_fixed | apply foldl_fixed
    | intro _ | split | dsimp only
theorem State.ensure_fixed (n p upto) : (s.ensure n p upto).1.Fixed b0 := by
  refine P1Fixed.fixed ?_; rw [State.ensure.eq_def]
  repeat' first
    | with_reducible first
        | assumption | apply State.setTake_fixed | apply State.showBnd_fixed | apply State.takeEvent_fixed | apply P1Fixed.mk1
    | split | dsimp only
theorem State.layDown_fixed (n p off job bytes) : (s.layDown n p off job bytes).Fixed b0 := by
  rw [State.layDown.eq_def]
  repeat' first
    | with_reducible first
        | assumption | apply State.reportStreams_fixed | apply State.setTake_fixed | apply State.issue_fixed | apply State.dropVol_fixed
        | apply State.ensure_fixed | apply fixed_of_eq1 (he := by assumption)
    | split
theorem State.writeRecord_fixed (n num p off moved) : (s.writeRecord n num p off moved).Fixed b0 := by
  rw [State.writeRecord.eq_def]
  repeat' first
    | with_reducible first
        | assumption | apply State.onPic_fixed | apply State.written_fixed | apply State.setTake_fixed | apply State.layDown_fixed
    | split
theorem State.commitOn_fixed (n p off run) : (s.commitOn n p off run).Fixed b0 := by
  rw [State.commitOn.eq_def]; repeat' first | (with_reducible first | assumption | apply State.setTake_fixed | apply State.layDown_fixed) | split | dsimp only
theorem State.startCommit_fixed (n) : (s.startCommit n).Fixed b0 := by
  rw [State.startCommit.eq_def]
  repeat' first | (with_reducible first | assumption | apply State.setTake_fixed | apply State.commitOn_fixed | apply foldl_fixed) | intro _ | split
theorem State.earlyCommit_fixed (n) : (s.earlyCommit n).Fixed b0 := by
  rw [State.earlyCommit.eq_def]; repeat' first | (with_reducible first | assumption | apply State.startCommit_fixed) | split
theorem State.writeCommit_fixed (n p) : (s.writeCommit n p).Fixed b0 := by
  rw [State.writeCommit.eq_def]
  repeat' first | (with_reducible first | assumption | apply State.setTake_fixed | apply State.journal_fixed | apply foldl_fixed) | intro _ | split
theorem State.stampCommit_fixed (n p) : (s.stampCommit n p).Fixed b0 := by
  rw [State.stampCommit.eq_def]; repeat' first | (with_reducible first | assumption | apply State.setTake_fixed | apply State.writeCommit_fixed) | split
theorem State.releaseRecs_fixed (n) : (s.releaseRecs n).Fixed b0 := by
  rw [State.releaseRecs.eq_def]
  repeat' first | (with_reducible first | assumption | apply State.dropReader_fixed | apply State.setTake_fixed | apply foldl_fixed) | intro _ | split
theorem State.writeFinal_fixed (n) : (s.writeFinal n).Fixed b0 := by
  rw [State.writeFinal.eq_def]
  repeat' first | (with_reducible first | assumption | apply State.setTake_fixed | apply State.layDown_fixed | apply foldl_fixed) | intro _ | split
theorem State.writeClose_fixed (n p) : (s.writeClose n p).Fixed b0 := by
  rw [State.writeClose.eq_def]
  repeat' first | (with_reducible first | assumption | apply State.setTake_fixed | apply State.journal_fixed | apply foldl_fixed) | intro _ | split
theorem State.openDone_fixed (n) : (s.openDone n).Fixed b0 := by
  rw [State.openDone.eq_def]
  repeat' first | (with_reducible first | assumption | apply State.finishById_fixed | apply State.settle_fixed | apply State.setTake_fixed) | split
theorem State.marksDone_fixed (n) : (s.marksDone n).Fixed b0 := by
  rw [State.marksDone.eq_def]
  repeat' first
    | with_reducible first
        | assumption | apply State.finishById_fixed | apply State.settle_fixed | apply State.setTake_fixed | apply foldl_fixed
    | intro _ | split | dsimp only
theorem State.takeDone_fixed (n) : (s.takeDone n).Fixed b0 := by
  rw [State.takeDone.eq_def]
  repeat' first
    | with_reducible first
        | assumption | apply State.draw_fixed | apply State.finishByIdX_fixed | apply State.finishById_fixed | apply State.settle_fixed
        | apply State.takeEvent_fixed | apply State.endTake_fixed | apply State.releaseHeld_fixed | apply foldl_fixed
    | intro _ | split
theorem State.stopClosing_fixed (n) : (s.stopClosing n).Fixed b0 := by
  rw [State.stopClosing.eq_def]; repeat' first | (with_reducible first | assumption | apply State.setTake_fixed) | split
theorem State.tryStop_fixed (n) : (s.tryStop n).Fixed b0 := by
  rw [State.tryStop.eq_def]
  repeat' first | (with_reducible first | assumption | apply State.startCommit_fixed | apply State.writeFinal_fixed) | split | dsimp only
theorem State.commitDone_fixed (n) : (s.commitDone n).Fixed b0 := by
  rw [State.commitDone.eq_def]
  repeat' first
    | with_reducible first
        | assumption | apply State.streamEvent_fixed | apply State.finishById_fixed | apply State.settle_fixed | apply State.setTake_fixed
        | apply State.startCommit_fixed | apply foldl_fixed
    | intro _ | split | dsimp only
theorem State.durableOn_fixed (n p) : (s.durableOn n p).Fixed b0 := by
  rw [State.durableOn.eq_def]
  repeat' first
    | with_reducible first
        | assumption | apply State.add_fixed | apply State.written_fixed | apply State.setTake_fixed | apply State.commitDone_fixed
    | split
theorem State.takeStep_fixed (n) : (s.takeStep n).Fixed b0 := by
  rw [State.takeStep.eq_def]
  repeat' first
    | with_reducible first
        | assumption | apply State.releaseRecs_fixed | apply State.openDone_fixed | apply State.marksDone_fixed | apply State.takeDone_fixed
        | apply State.stopClosing_fixed | apply State.tryStop_fixed | apply State.commitDone_fixed
theorem State.loseTakes_fixed (p st) : (s.loseTakes p st).Fixed b0 := by
  rw [State.loseTakes.eq_def]
  repeat' first
    | with_reducible first
        | assumption | apply State.reportStreams_fixed | apply State.dropVol_fixed | apply State.takeStep_fixed | apply foldl_fixed
    | intro _ | split | dsimp only

/-! The operations of Machine/Conserv.lean. -/

theorem State.noteTj_fixed (t) : (s.noteTj t).Fixed b0 := by
  rw [State.noteTj.eq_def]
  repeat' first | simp only [State.fixed_mk] | (with_reducible first | assumption | apply State.put_fixed | apply State.showTarget_fixed | apply FixedF.of)
theorem State.margin_fixed (cause id) : (s.margin cause id).Fixed b0 := by
  rw [State.margin.eq_def]
  repeat' first
    | simp only [State.fixed_mk]
    | with_reducible first
        | assumption | apply State.put_fixed | apply State.report_fixed | apply FixedF.of
    | split
theorem State.marginOver_fixed (cause id) : (s.marginOver cause id).Fixed b0 := hs
theorem State.marginIf_fixed (c cause id) : (s.marginIf c cause id).Fixed b0 := by
  rw [State.marginIf.eq_def]; repeat' first | (with_reducible first | assumption | apply State.margin_fixed | apply State.marginOver_fixed) | split
theorem State.countReplan_fixed : s.countReplan.Fixed b0 := by
  rw [State.countReplan.eq_def]; repeat' (with_reducible first | assumption | apply State.bump_fixed | apply State.putTime_fixed | apply State.raise_fixed)
theorem State.checkLimits_fixed : s.checkLimits.Fixed b0 := by
  rw [State.checkLimits.eq_def]
  repeat' first
    | with_reducible first
        | assumption | apply State.put_fixed | apply State.raise_fixed | apply State.margin_fixed | apply State.marginOver_fixed | apply State.marginIf_fixed
    | split | dsimp only
theorem State.planTargets_fixed : s.planTargets.1.Fixed b0 := by
  refine P1Fixed.fixed ?_; rw [State.planTargets.eq_def]
  repeat' first | simp only [State.fixed_mk] | (with_reducible first | assumption | apply State.showTarget_fixed | apply P1Fixed.mk1 | apply FixedF.of)
theorem State.planTrims_fixed (l) : (s.planTrims l).1.Fixed b0 := hs
theorem State.planCentres_fixed (l) : (s.planCentres l).1.Fixed b0 := hs
theorem State.showDomain_fixed : s.showDomain.Fixed b0 := by
  rw [State.showDomain.eq_def]; repeat' first | (with_reducible first | assumption | apply State.put_fixed) | split
theorem State.showSlacks_fixed (l) : (s.showSlacks l).Fixed b0 := by
  rw [State.showSlacks.eq_def]
  repeat' first
    | simp only [State.fixed_mk]
    | with_reducible first
        | assumption | apply State.put_fixed | apply State.showDomain_fixed | apply FixedF.of
    | split
theorem State.showEyes_fixed (l) : (s.showEyes l).Fixed b0 := by
  rw [State.showEyes.eq_def]; repeat' first | (with_reducible first | assumption | apply State.put_fixed | apply foldl_fixed) | intro _ | split
theorem State.roundMargins_fixed (r) : (s.roundMargins r).Fixed b0 := by
  rw [State.roundMargins.eq_def]; repeat' first | (with_reducible first | assumption | apply State.marginIf_fixed | apply foldl_fixed) | intro _ | split
theorem execConservatorRound_fixed (r) : OutFixed b0 (execConservatorRound r s) := by
  rw [execConservatorRound.eq_def]
  repeat' first
    | simp only [State.fixed_mk]
    | with_reducible first
        | assumption | apply State.showRamp_fixed | apply State.noteTj_fixed | apply State.countReplan_fixed | apply State.checkLimits_fixed
        | apply State.planTargets_fixed | apply State.planTrims_fixed | apply State.planCentres_fixed | apply State.showSlacks_fixed
        | apply State.showEyes_fixed | apply State.roundMargins_fixed | apply foldl_fixed | apply foldl_fixed1 | apply foldl_fixed2 | apply OutFixed.next
        | apply fixed_of_eq1 (he := by assumption) | apply FixedF.of
    | intro _ | split
theorem execSlackAlarm_fixed (d slack needs) : OutFixed b0 (execSlackAlarm d slack needs s) := by
  rw [execSlackAlarm.eq_def]
  repeat' first
    | simp only [State.fixed_mk]
    | with_reducible first
        | assumption | apply State.raise_fixed | apply State.showRamp_fixed | apply State.marginIf_fixed | apply State.countReplan_fixed
        | apply State.checkLimits_fixed | apply State.planTargets_fixed | apply OutFixed.next | apply FixedF.of
    | split
theorem execBaselineTimeout_fixed : OutFixed b0 (execBaselineTimeout s) := by
  rw [execBaselineTimeout.eq_def]
  repeat' first
    | with_reducible first
        | assumption | apply State.put_fixed | apply State.showRamp_fixed | apply State.countReplan_fixed | apply State.checkLimits_fixed
        | apply State.planTargets_fixed | apply OutFixed.next
    | split | dsimp only
theorem State.adopt_fixed (seq) : (s.adopt seq).Fixed b0 := by
  rw [State.adopt.eq_def]; repeat' first | simp only [State.fixed_mk] | (with_reducible first | assumption | apply State.put_fixed | apply FixedF.of)
theorem State.consStart_fixed (f) : (s.consStart f).Fixed b0 := by
  rw [State.consStart.eq_def]
  repeat' first
    | simp only [State.fixed_mk]
    | with_reducible first
        | assumption | apply State.put_fixed | apply State.showTarget_fixed | apply State.showRamp_fixed | apply State.noteTj_fixed | apply FixedF.of
theorem State.consResume_fixed : s.consResume.Fixed b0 := by
  rw [State.consResume.eq_def]
  repeat' first
    | simp only [State.fixed_mk]
    | with_reducible first
        | assumption | apply State.put_fixed | apply State.showTarget_fixed | apply State.showRamp_fixed | apply State.noteTj_fixed | apply FixedF.of
    | split
theorem State.stepCore_fixed : s.stepCore.Fixed b0 := by
  rw [State.stepCore.eq_def]
  repeat' first | simp only [State.fixed_mk] | (with_reducible first | assumption | apply State.put_fixed | apply FixedF.of) | split
theorem State.stepTrims_fixed (before) : (s.stepTrims before).Fixed b0 := by
  rw [State.stepTrims.eq_def]
  repeat' first | simp only [State.fixed_mk] | (with_reducible first | assumption | apply foldl_fixed | apply FixedF.of) | intro _ | split
theorem execVoltageStep_fixed : OutFixed b0 (execVoltageStep s) := by
  rw [execVoltageStep.eq_def]
  repeat' first
    | with_reducible first
        | assumption | apply State.showTarget_fixed | apply State.showRamp_fixed | apply State.rampDone_fixed | apply State.showDomain_fixed
        | apply State.stepCore_fixed | apply State.stepTrims_fixed | apply OutFixed.next
    | split
theorem execBandDwellExpiry_fixed : OutFixed b0 (execBandDwellExpiry s) := by
  rw [execBandDwellExpiry.eq_def]
  repeat' first | simp only [State.fixed_mk] | (with_reducible first | assumption | apply OutFixed.next | apply FixedF.of) | split
theorem execAvsTransaction_fixed (ok mv) : OutFixed b0 (execAvsTransaction ok mv s) := by
  rw [execAvsTransaction.eq_def]
  repeat' first
    | simp only [State.fixed_mk]
    | with_reducible first
        | assumption | apply State.put_fixed | apply State.showTarget_fixed | apply State.showRamp_fixed | apply State.margin_fixed
        | apply State.marginOver_fixed | apply OutFixed.next | apply FixedF.of
    | split

/-! The operations of Machine/Stacks.lean. -/

theorem State.setWait_fixed (i w) : (s.setWait i w).Fixed b0 := by
  rw [State.setWait.eq_def]; repeat' first | (with_reducible first | assumption | apply State.put_fixed | apply State.setEngine_fixed) | split
theorem State.waitFor_fixed (u w) : (s.waitFor u w).Fixed b0 := by
  rw [State.waitFor.eq_def]; repeat' first | (with_reducible first | assumption | apply State.setWait_fixed) | split
theorem State.waitOver_fixed (u w) : (s.waitOver u w).Fixed b0 := by
  rw [State.waitOver.eq_def]; repeat' first | (with_reducible first | assumption | apply State.setWait_fixed) | split
theorem State.useCells_fixed (banks) : (s.useCells banks).Fixed b0 := by
  rw [State.useCells.eq_def]; repeat' first | (with_reducible first | assumption | apply State.put_fixed | apply foldl_fixed) | intro _
theorem State.refuseDenied_fixed (u q write) : (s.refuseDenied u q write).Fixed b0 := by
  rw [State.refuseDenied.eq_def]; repeat' first | (with_reducible first | assumption | apply State.bump_fixed | apply State.deny_fixed) | split | dsimp only
theorem State.afterDepth_fixed (n before popped) : (s.afterDepth n before popped).Fixed b0 := by
  rw [State.afterDepth.eq_def]
  repeat' first | (with_reducible first | assumption | apply State.setQueue_fixed | apply State.raiseQueue_fixed) | split | dsimp only
theorem State.beginItem_fixed (u n ty len single) : (s.beginItem u n ty len single).Fixed b0 := by
  rw [State.beginItem.eq_def]
  repeat' first
    | with_reducible first
        | assumption | apply State.bump_fixed | apply State.setQueue_fixed | apply State.reply_fixed | apply State.complete_fixed | apply State.waitFor_fixed
        | apply State.waitOver_fixed | apply State.useCells_fixed | apply State.refuseDenied_fixed | apply State.afterDepth_fixed
    | split
theorem execBegin_fixed (u n ty len) : OutFixed b0 (execBegin u n ty len s) := by
  rw [execBegin.eq_def]; repeat' (with_reducible first | assumption | apply State.beginItem_fixed | apply OutFixed.next)
theorem execItemWordWrite_fixed (u n data) : OutFixed b0 (execItemWordWrite u n data s) := by
  rw [execItemWordWrite.eq_def]; repeat' (with_reducible first | assumption | apply State.setQueue_fixed | apply State.complete_fixed | apply OutFixed.next)
theorem execEnd_fixed (u n) : OutFixed b0 (execEnd u n s) := by
  rw [execEnd.eq_def]
  repeat' first
    | with_reducible first
        | assumption | apply State.bump_fixed | apply State.setQueue_fixed | apply State.reply_fixed | apply State.complete_fixed | apply OutFixed.next
    | split | dsimp only
theorem execSingleOperationPush_fixed (u n ty data) : OutFixed b0 (execSingleOperationPush u n ty data s) := by
  rw [execSingleOperationPush.eq_def]; repeat' (with_reducible first | assumption | apply State.beginItem_fixed | apply OutFixed.next)
theorem State.popItem_fixed (u n claim) : (s.popItem u n claim).Fixed b0 := by
  rw [State.popItem.eq_def]
  repeat' first
    | with_reducible first
        | assumption | apply State.bump_fixed | apply State.setQueue_fixed | apply State.reply_fixed | apply State.complete_fixed
        | apply State.freeCells_fixed | apply State.waitFor_fixed | apply State.waitOver_fixed | apply State.refuseDenied_fixed | apply State.afterDepth_fixed
    | split | dsimp only
theorem execItemRelease_fixed (u n k) : OutFixed b0 (execItemRelease u n k s) := by
  rw [execItemRelease.eq_def]
  repeat' first
    | with_reducible first
        | assumption | apply State.setQueue_fixed | apply State.freeCells_fixed | apply State.afterDepth_fixed | apply OutFixed.next
    | split | dsimp only
theorem execPopClaim_fixed (u n) : OutFixed b0 (execPopClaim u n s) := by
  rw [execPopClaim.eq_def]; repeat' (with_reducible first | assumption | apply State.popItem_fixed | apply OutFixed.next)
theorem State.flushQueue_fixed (n) : (s.flushQueue n).Fixed b0 := by
  rw [State.flushQueue.eq_def]
  repeat' first
    | with_reducible first
        | assumption | apply State.setQueue_fixed | apply State.complete_fixed | apply State.freeCells_fixed | apply State.afterDepth_fixed
        | apply foldl_fixed
    | intro _
theorem execFlush_fixed (n) : OutFixed b0 (execFlush n s) := by
  rw [execFlush.eq_def]; repeat' (with_reducible first | assumption | apply State.flushQueue_fixed | apply OutFixed.next)
theorem execQueueTimeout_fixed (n) : OutFixed b0 (execQueueTimeout n s) := by
  rw [execQueueTimeout.eq_def]
  repeat' first | (with_reducible first | assumption | apply State.setQueue_fixed | apply State.raiseQueue_fixed | apply OutFixed.next) | split | dsimp only
theorem execQueueDisable_fixed (n) : OutFixed b0 (execQueueDisable n s) := by
  rw [execQueueDisable.eq_def]; repeat' (with_reducible first | assumption | apply State.setQueue_fixed | apply OutFixed.next)
theorem State.writeQueueReg_fixed (off v) : (s.writeQueueReg off v).Fixed b0 := by
  rw [State.writeQueueReg.eq_def]; repeat' first | (with_reducible first | assumption | apply State.setQueue_fixed) | split | dsimp only

/-! The operations of Machine/Curators.lean. -/

theorem execMclaim_fixed (h) : OutFixed b0 (execMclaim h s) := by
  rw [execMclaim.eq_def]
  repeat' first
    | with_reducible first
        | assumption | apply State.put_fixed | apply State.setHart_fixed | apply State.reply_fixed | apply State.trap_fixed | apply OutFixed.next
    | split | dsimp only
theorem execMcomplete_fixed (h n) : OutFixed b0 (execMcomplete h n s) := by
  rw [execMcomplete.eq_def]
  repeat' first
    | with_reducible first
        | assumption | apply State.put_fixed | apply State.bump_fixed | apply State.setHart_fixed | apply State.trap_fixed | apply OutFixed.next
    | split
theorem execSourceConfigWrite_fixed (n v) : OutFixed b0 (execSourceConfigWrite n v s) := by
  rw [execSourceConfigWrite.eq_def]
  repeat' first | (with_reducible first | assumption | apply State.put_fixed | apply State.bump_fixed | apply OutFixed.next) | split
theorem execSwset_fixed : OutFixed b0 (execSwset s) := by
  rw [execSwset.eq_def]; repeat' (with_reducible first | assumption | apply State.raise_fixed | apply OutFixed.next)
theorem execTimerCompare_fixed (h) : OutFixed b0 (execTimerCompare h s) := by
  rw [execTimerCompare.eq_def]; repeat' (with_reducible first | assumption | apply State.checkTimer_fixed | apply OutFixed.next)
theorem execLockstepMismatch_fixed (p) : OutFixed b0 (execLockstepMismatch p s) := by
  rw [execLockstepMismatch.eq_def]
  repeat' first | (with_reducible first | assumption | apply State.failover_fixed | apply State.reportAs_fixed | apply OutFixed.next) | split
theorem State.reloadWord_fixed (i a) : (s.reloadWord i a).Fixed b0 := by
  rw [State.reloadWord.eq_def]; repeat' (with_reducible first | assumption | apply State.bump_fixed | apply State.setEngine_fixed)
theorem State.loadStore_fixed (i) : (s.loadStore i).Fixed b0 := by
  rw [State.loadStore.eq_def]; repeat' (with_reducible first | assumption | apply State.setEngine_fixed)
theorem execStoreParityError_fixed (i a copyPoisoned) : OutFixed b0 (execStoreParityError i a copyPoisoned s) := by
  rw [execStoreParityError.eq_def]
  repeat' first
    | with_reducible first
        | assumption | apply State.bump_fixed | apply State.setEngine_fixed | apply State.abandon_fixed | apply State.report_fixed
        | apply State.reloadWord_fixed | apply OutFixed.next
    | split | dsimp only
theorem execStoreScan_fixed (i upsets) : OutFixed b0 (execStoreScan i upsets s) := by
  rw [execStoreScan.eq_def]
  repeat' first
    | with_reducible first
        | assumption | apply State.setEngine_fixed | apply State.report_fixed | apply State.reloadWord_fixed | apply foldl_fixed | apply OutFixed.next
    | intro _ | split
theorem State.unclaimItems_fixed (u) : (s.unclaimItems u).Fixed b0 := by
  rw [State.unclaimItems.eq_def]; repeat' first | (with_reducible first | assumption | apply State.setQueue_fixed | apply foldl_fixed) | intro _
theorem State.placeAt_fixed (n p j run i prog e) : (s.placeAt n p j run i prog e).Fixed b0 := by
  rw [State.placeAt.eq_def]; repeat' (with_reducible first | assumption | apply State.put_fixed | apply State.setEngine_fixed | apply State.onPic_fixed)
theorem State.place_fixed (n p j run i prog) : (s.place n p j run i prog).Fixed b0 := by
  rw [State.place.eq_def]; repeat' (with_reducible first | assumption | apply State.setStream_fixed | apply State.placeAt_fixed)
theorem State.unplace_fixed (i) : (s.unplace i).Fixed b0 := by
  rw [State.unplace.eq_def]; repeat' first | (with_reducible first | assumption | apply State.setEngine_fixed | apply State.onPic_fixed) | split
theorem State.topSpares_fixed : s.topSpares.Fixed b0 := by
  rw [State.topSpares.eq_def]
  repeat' first | (with_reducible first | assumption | apply State.put_fixed | apply State.showSpares_fixed | apply foldl_fixed) | intro _ | split
theorem State.interruptUnit_fixed (i) : (s.interruptUnit i).Fixed b0 := by
  rw [State.interruptUnit.eq_def]
  repeat' first | (with_reducible first | assumption | apply State.put_fixed | apply State.abandon_fixed | apply State.unclaimItems_fixed) | split
theorem execInterrupt_fixed (i) : OutFixed b0 (execInterrupt i s) := by
  rw [execInterrupt.eq_def]; repeat' (with_reducible first | assumption | apply State.interruptUnit_fixed | apply OutFixed.next)
theorem execDrop_fixed (i byFirmware dest) : OutFixed b0 (execDrop i byFirmware dest s) := by
  rw [execDrop.eq_def]
  repeat' first
    | with_reducible first
        | assumption | apply State.put_fixed | apply State.setEngine_fixed | apply State.abandon_fixed | apply State.unclaimItems_fixed
        | apply State.place_fixed | apply State.unplace_fixed | apply OutFixed.next
    | split
theorem execScribeCheckpoint_fixed (i state items) : OutFixed b0 (execScribeCheckpoint i state items s) := by
  rw [execScribeCheckpoint.eq_def]
  repeat' first
    | with_reducible first
        | assumption | apply State.setEngine_fixed | apply State.setQueue_fixed | apply State.freeCells_fixed | apply State.waitOver_fixed | apply foldl_fixed
        | apply OutFixed.next
    | intro _
theorem execHandshakeWatchdog_fixed (u) : OutFixed b0 (execHandshakeWatchdog u s) := by
  rw [execHandshakeWatchdog.eq_def]
  repeat' first | (with_reducible first | assumption | apply State.report_fixed | apply State.setWait_fixed | apply OutFixed.next) | split

/-! The operations of Machine/Dma.lean. -/

theorem State.setDmaState_fixed (ch v) : (s.setDmaState ch v).Fixed b0 := by
  rw [State.setDmaState.eq_def]; repeat' first | (with_reducible first | assumption | apply State.put_fixed | apply State.raise_fixed) | split
theorem State.request_fixed (l) : (s.request l).Fixed b0 := by
  rw [State.request.eq_def]; repeat' first | (with_reducible first | assumption | apply State.bump_fixed) | split
theorem State.setLevel_fixed (l v) : (s.setLevel l v).Fixed b0 := hs
theorem State.writeBack_fixed (ch status) : (s.writeBack ch status).1.Fixed b0 := by
  refine P1Fixed.fixed ?_; rw [State.writeBack.eq_def]
  repeat' first | (with_reducible first | assumption | apply State.translate_fixed | apply State.writePhys_fixed | apply P1Fixed.mk1) | split
theorem State.readSlip_fixed (ch) (endBad) (h_endBad : ∀ (s : State) (i : Nat), s.Fixed b0 → (endBad s i).Fixed b0) : (s.readSlip ch endBad).Fixed b0 := by
  rw [State.readSlip.eq_def]
  repeat' first
    | with_reducible first
        | assumption | apply h_endBad | apply State.put_fixed | apply State.putPair_fixed | apply State.setDmaCh_fixed | apply State.translate_fixed
        | apply State.readPhys_fixed | apply State.setDmaState_fixed | apply fixed_of_eq1 (he := by assumption)
    | split | dsimp only
theorem State.endInError_fixed (ch status) : (s.endInError ch status).Fixed b0 := by
  rw [State.endInError.eq_def]
  repeat' (with_reducible first | assumption | apply State.put_fixed | apply State.bump_fixed | apply State.setDmaState_fixed | apply State.writeBack_fixed)
theorem State.endSlip_fixed (ch status) : (s.endSlip ch status).Fixed b0 := by
  rw [State.endSlip.eq_def]
  repeat' first
    | with_reducible first
        | assumption | apply State.put_fixed | apply State.bump_fixed | apply State.putPair_fixed | apply State.setDmaCh_fixed | apply State.raise_fixed
        | apply State.setDmaState_fixed | apply State.writeBack_fixed | apply State.readSlip_fixed | apply State.endInError_fixed
        | apply fixed_of_eq1 (he := by assumption)
    | intro _ | split | dsimp only
theorem State.dmaFault_fixed (ch va write kind level) : (s.dmaFault ch va write kind level).Fixed b0 := by
  rw [State.dmaFault.eq_def]
  repeat' first | (with_reducible first | assumption | apply State.queueFault_fixed | apply State.setDmaState_fixed | apply State.endSlip_fixed) | split
theorem State.advance_fixed (ch n) : (s.advance ch n).Fixed b0 := by
  rw [State.advance.eq_def]; repeat' first | (with_reducible first | assumption | apply State.put_fixed | apply State.putPair_fixed) | split
theorem State.holdBurst_fixed (ch) : (s.holdBurst ch).Fixed b0 := by
  rw [State.holdBurst.eq_def]; repeat' (with_reducible first | assumption | apply State.setDmaCh_fixed)
theorem State.noteLast_fixed (ch pa k) : (s.noteLast ch pa k).Fixed b0 := by
  rw [State.noteLast.eq_def]; repeat' first | (with_reducible first | assumption | apply State.setDmaCh_fixed) | split
theorem State.movePiece_fixed (ch n) : (s.movePiece ch n).1.Fixed b0 := by
  refine P1Fixed.fixed ?_; rw [State.movePiece.eq_def]
  repeat' first
    | with_reducible first
        | assumption | apply State.setDmaCh_fixed | apply State.translate_fixed | apply State.readPhys_fixed | apply State.writePhys_fixed
        | apply State.endSlip_fixed | apply State.dmaFault_fixed | apply State.advance_fixed | apply State.holdBurst_fixed | apply State.noteLast_fixed
        | apply P1Fixed.mk1 | apply fixed_of_eq1 (he := by assumption)
    | split | dsimp only
theorem State.moveBurst_fixed (ch x0 x1) : (s.moveBurst ch x0 x1).Fixed b0 := by
  induction x0 generalizing s ch x1 with
  | zero => exact hs
  | succ fuel ih =>
    unfold State.moveBurst
    repeat' first
      | with_reducible first
          | assumption | apply ih | apply State.setDmaCh_fixed | apply State.movePiece_fixed | apply fixed_of_eq1 (he := by assumption)
      | split
theorem State.startBurst_fixed (ch) : (s.startBurst ch).Fixed b0 := by
  rw [State.startBurst.eq_def]
  repeat' first
    | with_reducible first
        | assumption | apply State.put_fixed | apply State.setDmaCh_fixed | apply State.setDmaState_fixed | apply State.moveBurst_fixed
    | split
theorem execDmaBurst_fixed (ch) : OutFixed b0 (execDmaBurst ch s) := by
  rw [execDmaBurst.eq_def]
  repeat' first
    | with_reducible first
        | assumption | apply State.setDmaState_fixed | apply State.readSlip_fixed | apply State.endInError_fixed | apply State.startBurst_fixed
        | apply OutFixed.next
    | intro _ | split | dsimp only
theorem execDmaSlipComplete_fixed (ch) : OutFixed b0 (execDmaSlipComplete ch s) := by
  rw [execDmaSlipComplete.eq_def]; repeat' first | (with_reducible first | assumption | apply State.endSlip_fixed | apply OutFixed.next) | split | dsimp only
theorem execBarrierComplete_fixed (ch) : OutFixed b0 (execBarrierComplete ch s) := by
  rw [execBarrierComplete.eq_def]; repeat' first | (with_reducible first | assumption | apply State.endSlip_fixed | apply OutFixed.next) | split
theorem execReqSw_fixed (line) : OutFixed b0 (execReqSw line s) := by
  rw [execReqSw.eq_def]; repeat' first | (with_reducible first | assumption | apply State.request_fixed | apply OutFixed.next) | split
theorem State.dmaStart_fixed (ch) : (s.dmaStart ch).Fixed b0 := by
  rw [State.dmaStart.eq_def]
  repeat' first
    | with_reducible first
        | assumption | apply State.wr_fixed | apply State.setDmaCh_fixed | apply State.readSlip_fixed | apply State.endInError_fixed
    | intro _ | split
theorem State.dmaStop_fixed (ch) : (s.dmaStop ch).Fixed b0 := by
  rw [State.dmaStop.eq_def]
  repeat' first
    | with_reducible first
        | assumption | apply State.setDmaCh_fixed | apply State.dropFaults_fixed | apply State.endSlip_fixed
    | split | dsimp only
theorem State.dmaPause_fixed (ch) : (s.dmaPause ch).Fixed b0 := by
  rw [State.dmaPause.eq_def]; repeat' first | (with_reducible first | assumption | apply State.put_fixed | apply State.setDmaState_fixed) | split | dsimp only
theorem State.dmaResume_fixed (ch) : (s.dmaResume ch).Fixed b0 := by
  rw [State.dmaResume.eq_def]; repeat' first | (with_reducible first | assumption | apply State.setDmaState_fixed) | split
theorem execStart_fixed (ch) : OutFixed b0 (execStart ch s) := by
  rw [execStart.eq_def]; repeat' (with_reducible first | assumption | apply State.dmaStart_fixed | apply OutFixed.next)
theorem execStop_fixed (ch) : OutFixed b0 (execStop ch s) := by
  rw [execStop.eq_def]; repeat' (with_reducible first | assumption | apply State.dmaStop_fixed | apply OutFixed.next)
theorem execPause_fixed (ch) : OutFixed b0 (execPause ch s) := by
  rw [execPause.eq_def]; repeat' (with_reducible first | assumption | apply State.dmaPause_fixed | apply OutFixed.next)
theorem execDmaResume_fixed (ch) : OutFixed b0 (execDmaResume ch s) := by
  rw [execDmaResume.eq_def]; repeat' (with_reducible first | assumption | apply State.dmaResume_fixed | apply OutFixed.next)
theorem execDmaPaused_fixed (ch) : OutFixed b0 (execDmaPaused ch s) := by
  rw [execDmaPaused.eq_def]
  repeat' first | (with_reducible first | assumption | apply State.put_fixed | apply State.setDmaState_fixed | apply OutFixed.next) | split

/-! The operations of Machine/Gates.lean. -/

theorem State.setPort_fixed (p x) : (s.setPort p x).Fixed b0 := hs
theorem State.showGates_fixed (p) : (s.showGates p).Fixed b0 := by
  rw [State.showGates.eq_def]; repeat' first | (with_reducible first | assumption | apply State.setLevel_fixed | apply foldl_fixed) | intro _
theorem State.account_fixed (p) : (s.account p).Fixed b0 := by
  rw [State.account.eq_def]
  repeat' first | (with_reducible first | assumption | apply State.put_fixed | apply State.setPort_fixed | apply foldl_fixed) | intro _ | split
theorem State.alignGates_fixed (p t0 t1) : (s.alignGates p t0 t1).Fixed b0 := by
  rw [State.alignGates.eq_def]
  repeat' first | (with_reducible first | assumption | apply State.put_fixed | apply State.add_fixed | apply State.setPort_fixed) | split | dsimp only

/-! The operations of Machine/Dater.lean. -/

theorem State.setTout_fixed (t o) : (s.setTout t o).Fixed b0 := by
  rw [State.setTout.eq_def]; repeat' first | simp only [State.fixed_mk] | (with_reducible first | assumption | apply State.put_fixed | apply FixedF.of)
theorem State.skipEdges_fixed (t k) : (s.skipEdges t k).Fixed b0 := by
  rw [State.skipEdges.eq_def]; repeat' first | (with_reducible first | assumption | apply State.put_fixed | apply State.add_fixed) | split
theorem State.fireAlarm_fixed (late) : (s.fireAlarm late).Fixed b0 := by
  rw [State.fireAlarm.eq_def]
  repeat' first
    | with_reducible first
        | assumption | apply State.put_fixed | apply State.raise_fixed | apply State.postEvent_fixed | apply State.wakeEvent_fixed
    | split | dsimp only
theorem execAlarmArm_fixed : OutFixed b0 (execAlarmArm s) := by
  rw [execAlarmArm.eq_def]
  repeat' first | (with_reducible first | assumption | apply State.put_fixed | apply State.fireAlarm_fixed | apply OutFixed.next) | split
theorem execAlarmDisarm_fixed : OutFixed b0 (execAlarmDisarm s) := by
  rw [execAlarmDisarm.eq_def]; repeat' (with_reducible first | assumption | apply State.put_fixed | apply OutFixed.next)
theorem execAlarmFire_fixed : OutFixed b0 (execAlarmFire s) := by
  rw [execAlarmFire.eq_def]; repeat' first | (with_reducible first | assumption | apply State.fireAlarm_fixed | apply OutFixed.next) | split
theorem execTimeOutArm_fixed (t) : OutFixed b0 (execTimeOutArm t s) := by
  rw [execTimeOutArm.eq_def]
  repeat' first | (with_reducible first | assumption | apply State.put_fixed | apply State.setTout_fixed | apply OutFixed.next) | split | dsimp only
theorem execTimeOutDisarm_fixed (t) : OutFixed b0 (execTimeOutDisarm t s) := by
  rw [execTimeOutDisarm.eq_def]; repeat' (with_reducible first | assumption | apply State.setTout_fixed | apply OutFixed.next)
theorem State.noteEdge_fixed (t ns) : (s.noteEdge t ns).Fixed b0 := by
  rw [State.noteEdge.eq_def]; repeat' first | (with_reducible first | assumption | apply State.setStream_fixed | apply foldl_fixed) | intro _ | split
theorem execTimeOutEdge_fixed (t) : OutFixed b0 (execTimeOutEdge t s) := by
  rw [execTimeOutEdge.eq_def]
  repeat' first
    | with_reducible first
        | assumption | apply State.raise_fixed | apply State.request_fixed | apply State.setTout_fixed | apply State.skipEdges_fixed
        | apply State.noteEdge_fixed | apply OutFixed.next
    | split | dsimp only
theorem execTimeOutPulseEnd_fixed (t) : OutFixed b0 (execTimeOutPulseEnd t s) := by
  rw [execTimeOutPulseEnd.eq_def]; repeat' first | (with_reducible first | assumption | apply State.setTout_fixed | apply OutFixed.next) | split
theorem State.ppsUpdate_fixed : s.ppsUpdate.Fixed b0 := by
  rw [State.ppsUpdate.eq_def]; repeat' first | simp only [State.fixed_mk] | (with_reducible first | assumption | apply FixedF.of) | split
theorem execPpsEdge_fixed : OutFixed b0 (execPpsEdge s) := by
  rw [execPpsEdge.eq_def]; repeat' first | simp only [State.fixed_mk] | (with_reducible first | assumption | apply OutFixed.next | apply FixedF.of) | split
theorem execPpsPulseEnd_fixed : OutFixed b0 (execPpsPulseEnd s) := by
  rw [execPpsPulseEnd.eq_def]
  repeat' first | simp only [State.fixed_mk] | (with_reducible first | assumption | apply OutFixed.next | apply FixedF.of) | split
theorem State.alignOut_fixed (t t0 t1) : (s.alignOut t t0 t1).Fixed b0 := by
  rw [State.alignOut.eq_def]; repeat' (with_reducible first | assumption | apply State.setTout_fixed | apply State.skipEdges_fixed)
theorem State.changeTime_fixed (new) : (s.changeTime new).Fixed b0 := by
  rw [State.changeTime.eq_def]
  repeat' first
    | simp only [State.fixed_mk]
    | with_reducible first
        | assumption | apply State.put_fixed | apply State.bump_fixed | apply State.checkTimer_fixed | apply State.account_fixed
        | apply State.alignGates_fixed | apply State.fireAlarm_fixed | apply State.alignOut_fixed | apply foldl_fixed | apply FixedF.of
    | intro _ | split
theorem State.snapshot_fixed : s.snapshot.Fixed b0 := by
  rw [State.snapshot.eq_def]; repeat' (with_reducible first | assumption | apply State.put_fixed | apply State.putTime_fixed)
theorem State.noSnapshot_fixed : s.noSnapshot.Fixed b0 := by
  rw [State.noSnapshot.eq_def]; repeat' (with_reducible first | assumption | apply State.wr_fixed | apply State.put_fixed)
theorem State.daterCmd_fixed (snap set step) : (s.daterCmd snap set step).Fixed b0 := by
  rw [State.daterCmd.eq_def]
  repeat' first
    | simp only [State.fixed_mk]
    | with_reducible first
        | assumption | apply State.put_fixed | apply State.noSnapshot_fixed | apply FixedF.of
    | split
theorem State.runCmd_fixed (c) : (s.runCmd c).Fixed b0 := by
  rw [State.runCmd.eq_def]; repeat' first | (with_reducible first | assumption | apply State.changeTime_fixed | apply State.snapshot_fixed) | split
theorem execSnap_fixed : OutFixed b0 (execSnap s) := by
  rw [execSnap.eq_def]; repeat' (with_reducible first | assumption | apply State.daterCmd_fixed | apply OutFixed.next)
theorem execSet_fixed (snap step) : OutFixed b0 (execSet snap step s) := by
  rw [execSet.eq_def]; repeat' (with_reducible first | assumption | apply State.daterCmd_fixed | apply OutFixed.next)
theorem execStep_fixed (snap) : OutFixed b0 (execStep snap s) := by
  rw [execStep.eq_def]; repeat' (with_reducible first | assumption | apply State.daterCmd_fixed | apply OutFixed.next)
theorem execIncrWrite_fixed (v) : OutFixed b0 (execIncrWrite v s) := by
  rw [execIncrWrite.eq_def]; repeat' first | (with_reducible first | assumption | apply State.put_fixed | apply OutFixed.next) | split
theorem State.setServo_fixed (v) : (s.setServo v).Fixed b0 := hs
theorem State.closeSpan_fixed : s.closeSpan.Fixed b0 := by
  rw [State.closeSpan.eq_def]; repeat' (with_reducible first | assumption | apply State.setServo_fixed)
theorem State.setIncr_fixed (v) : (s.setIncr v).Fixed b0 := by
  rw [State.setIncr.eq_def]; repeat' (with_reducible first | assumption | apply State.put_fixed | apply State.closeSpan_fixed)
theorem State.enterServo_fixed (st) : (s.enterServo st).Fixed b0 := by
  rw [State.enterServo.eq_def]
  repeat' first
    | with_reducible first
        | assumption | apply State.put_fixed | apply State.ppsUpdate_fixed | apply State.setServo_fixed | apply State.closeSpan_fixed
    | split
theorem State.selectMaster_fixed : s.selectMaster.Fixed b0 := by
  rw [State.selectMaster.eq_def]
  repeat' first | (with_reducible first | assumption | apply State.put_fixed | apply State.setServo_fixed) | split | dsimp only
theorem State.keepMasters_fixed (p) : (s.keepMasters p).Fixed b0 := by
  rw [State.keepMasters.eq_def]
  repeat' first
    | with_reducible first
        | assumption | apply State.setServo_fixed | apply State.enterServo_fixed | apply State.selectMaster_fixed
    | split | dsimp only
theorem State.servoPorts_fixed : s.servoPorts.Fixed b0 := by
  rw [State.servoPorts.eq_def]
  repeat' first
    | with_reducible first
        | assumption | apply State.setServo_fixed | apply State.enterServo_fixed | apply State.keepMasters_fixed
    | split | dsimp only
theorem execAnnounceTimeout_fixed (p) : OutFixed b0 (execAnnounceTimeout p s) := by
  rw [execAnnounceTimeout.eq_def]; repeat' first | (with_reducible first | assumption | apply State.keepMasters_fixed | apply OutFixed.next) | split
theorem State.slew_fixed : s.slew.Fixed b0 := by
  rw [State.slew.eq_def]; repeat' (with_reducible first | assumption | apply State.draw_fixed | apply State.setIncr_fixed)
theorem State.measure_fixed (off) : (s.measure off).Fixed b0 := by
  rw [State.measure.eq_def]
  repeat' first
    | with_reducible first
        | assumption | apply State.put_fixed | apply State.changeTime_fixed | apply State.setServo_fixed | apply State.enterServo_fixed
        | apply State.slew_fixed
    | intro _ | split | dsimp only
theorem execTimeRefclkLost_fixed : OutFixed b0 (execTimeRefclkLost s) := by
  rw [execTimeRefclkLost.eq_def]
  repeat' first
    | simp only [State.fixed_mk]
    | with_reducible first
        | assumption | apply State.put_fixed | apply State.report_fixed | apply State.enterServo_fixed | apply OutFixed.next | apply FixedF.of
    | split
theorem execTimeRefclkReturn_fixed : OutFixed b0 (execTimeRefclkReturn s) := by
  rw [execTimeRefclkReturn.eq_def]
  repeat' first | simp only [State.fixed_mk] | (with_reducible first | assumption | apply State.put_fixed | apply OutFixed.next | apply FixedF.of)
theorem State.setTin_fixed (i q) : (s.setTin i q).Fixed b0 := by
  rw [State.setTin.eq_def]
  repeat' first
    | simp only [State.fixed_mk]
    | with_reducible first
        | assumption | apply State.wr_fixed | apply State.put_fixed | apply State.putTime_fixed | apply FixedF.of
    | split
theorem execTimeInCapture_fixed (i rising) : OutFixed b0 (execTimeInCapture i rising s) := by
  rw [execTimeInCapture.eq_def]
  repeat' first
    | with_reducible first
        | assumption | apply State.bump_fixed | apply State.raise_fixed | apply State.wakeEvent_fixed | apply State.setTin_fixed | apply OutFixed.next
    | split
theorem execTimeInPop_fixed (i) : OutFixed b0 (execTimeInPop i s) := by
  rw [execTimeInPop.eq_def]
  repeat' first | (with_reducible first | assumption | apply State.put_fixed | apply State.setTin_fixed | apply OutFixed.next) | split

/-! The operations of Machine/Decoder.lean. -/

theorem State.outPieces_fixed (n x0) : (s.outPieces n x0).1.Fixed b0 := by
  induction x0 generalizing s n with
  | nil => exact hs
  | cons hd tl ih =>
    refine P1Fixed.fixed ?_
    unfold State.outPieces
    repeat' first
      | with_reducible first
          | assumption | apply ih | apply State.slipPieces_fixed | apply P1Fixed.mk1 | apply fixed_of_eq1 (he := by assumption)
      | split
theorem State.writeDecoded_fixed (n t d) {s0 : State} (h_s0 : s0.Fixed b0) : (s.writeDecoded n t d s0).1.Fixed b0 := by
  refine P1Fixed.fixed ?_; rw [State.writeDecoded.eq_def]
  repeat' first
    | with_reducible first
        | assumption | apply State.setStream_fixed | apply State.finishById_fixed | apply State.slipFault_fixed | apply State.writePieces_fixed
        | apply State.outPieces_fixed | apply foldl_fixed1 | apply P1Fixed.mk1 | apply fixed_of_eq1 (he := by assumption)
    | intro _ | split
theorem State.unwait_fixed (m slip) : (s.unwait m slip).Fixed b0 := by
  rw [State.unwait.eq_def]; repeat' (with_reducible first | assumption | apply State.setStream_fixed)
theorem State.bumpOne_fixed (m) : (s.bumpOne m).1.Fixed b0 := by
  refine P1Fixed.fixed ?_; rw [State.bumpOne.eq_def]
  repeat' first
    | with_reducible first
        | assumption | apply State.setStream_fixed | apply State.writeDecoded_fixed | apply State.unwait_fixed | apply P1Fixed.mk1
        | apply fixed_of_eq1 (he := by assumption)
    | split
theorem State.bumpWhile_fixed (m p x0) : (s.bumpWhile m p x0).1.Fixed b0 := by
  induction x0 generalizing s m p with
  | zero => exact hs
  | succ fuel ih =>
    refine P1Fixed.fixed ?_
    unfold State.bumpWhile
    repeat' first
      | with_reducible first
          | assumption | apply ih | apply State.bumpOne_fixed | apply P1Fixed.mk1 | apply fixed_of_eq1 (he := by assumption)
      | split
theorem State.putOut_fixed (m p) : (s.putOut m p).1.Fixed b0 := by
  refine P1Fixed.fixed ?_; rw [State.putOut.eq_def]; repeat' (with_reducible first | assumption | apply State.bumpWhile_fixed | apply P1Fixed.mk1)
theorem State.bumpAll_fixed (m) : (s.bumpAll m).1.Fixed b0 := by
  refine P1Fixed.fixed ?_; rw [State.bumpAll.eq_def]; repeat' (with_reducible first | assumption | apply State.putOut_fixed | apply P1Fixed.mk1)

/-! The operations of Machine/Harts.lean. -/

theorem State.writeBackLine_fixed (l) : (s.writeBackLine l).Fixed b0 := by
  rw [State.writeBackLine.eq_def]; repeat' first | (with_reducible first | assumption | apply State.writeMem_fixed) | split
theorem State.fillLine_fixed (h addr instr) : (s.fillLine h addr instr).1.Fixed b0 := by
  refine P1Fixed.fixed ?_; rw [State.fillLine.eq_def]
  repeat' first
    | with_reducible first
        | assumption | apply State.setHart_fixed | apply State.readBlock_fixed | apply State.cache_fixed | apply State.writeBackLine_fixed | apply foldl_fixed
        | apply P1Fixed.mk1 | apply fixed_of_eq1 (he := by assumption)
    | intro _ | split
theorem State.storeLine_fixed (h l addr b) : (s.storeLine h l addr b).Fixed b0 := by
  rw [State.storeLine.eq_def]; repeat' (with_reducible first | assumption | apply State.setHart_fixed)
theorem State.cboClean_fixed (h addr) : (s.cboClean h addr).Fixed b0 := by
  rw [State.cboClean.eq_def]
  repeat' first | (with_reducible first | assumption | apply State.setHart_fixed | apply State.writeBackLine_fixed | apply foldl_fixed) | intro _
theorem State.cboInval_fixed (h addr) : (s.cboInval h addr).Fixed b0 := by
  rw [State.cboInval.eq_def]; repeat' (with_reducible first | assumption | apply State.setHart_fixed)
theorem State.coreCheck_fixed (h kind addr len) : (s.coreCheck h kind addr len).1.Fixed b0 := by
  refine P1Fixed.fixed ?_; rw [State.coreCheck.eq_def]
  repeat' first | (with_reducible first | assumption | apply State.deny_fixed | apply P1Fixed.mk1) | split
theorem State.poisonTrap_fixed (h cause block) : (s.poisonTrap h cause block).Fixed b0 := by
  rw [State.poisonTrap.eq_def]; repeat' (with_reducible first | assumption | apply State.setHart_fixed | apply State.trap_fixed)
theorem State.setX_fixed (h i v) : (s.setX h i v).Fixed b0 := by
  rw [State.setX.eq_def]; repeat' first | (with_reducible first | assumption | apply State.setHart_fixed) | split
theorem State.coreLoad_fixed (h rd addr len signed) : (s.coreLoad h rd addr len signed).Fixed b0 := by
  rw [State.coreLoad.eq_def]
  repeat' first
    | with_reducible first
        | assumption | apply State.trap_fixed | apply State.readPhys_fixed | apply State.fillLine_fixed | apply State.coreCheck_fixed
        | apply State.poisonTrap_fixed | apply State.setX_fixed | apply fixed_of_eq1 (he := by assumption)
    | split
theorem State.coreStore_fixed (h addr len v) : (s.coreStore h addr len v).Fixed b0 := by
  rw [State.coreStore.eq_def]
  repeat' first
    | with_reducible first
        | assumption | apply State.trap_fixed | apply State.writePhys_fixed | apply State.fillLine_fixed | apply State.storeLine_fixed
        | apply State.coreCheck_fixed | apply State.poisonTrap_fixed | apply fixed_of_eq1 (he := by assumption)
    | split
theorem State.coreFetch_fixed (h addr) : (s.coreFetch h addr).Fixed b0 := by
  rw [State.coreFetch.eq_def]
  repeat' first
    | with_reducible first
        | assumption | apply State.setHart_fixed | apply State.trap_fixed | apply State.fillLine_fixed | apply State.coreCheck_fixed
        | apply State.poisonTrap_fixed | apply fixed_of_eq1 (he := by assumption)
    | split
theorem State.coreCsr_fixed (h c v) : (s.coreCsr h c v).Fixed b0 := by
  rw [State.coreCsr.eq_def]; repeat' first | (with_reducible first | assumption | apply State.setHart_fixed) | split
theorem State.corePmp_fixed (h i p) : (s.corePmp h i p).Fixed b0 := by
  rw [State.corePmp.eq_def]; repeat' first | (with_reducible first | assumption | apply State.setHart_fixed) | split | dsimp only
theorem State.coreOp_fixed (h op) : (s.coreOp h op).Fixed b0 := by
  rw [State.coreOp.eq_def]
  repeat' first
    | with_reducible first
        | assumption | apply State.setHart_fixed | apply State.trap_fixed | apply State.cboClean_fixed | apply State.cboInval_fixed | apply State.setX_fixed
        | apply State.coreLoad_fixed | apply State.coreStore_fixed | apply State.coreFetch_fixed | apply State.coreCsr_fixed | apply State.corePmp_fixed
    | split | dsimp only
theorem State.coreRun_fixed (h ops) : (s.coreRun h ops).Fixed b0 := by
  rw [State.coreRun.eq_def]; repeat' first | (with_reducible first | assumption | apply State.coreOp_fixed | apply foldl_fixed) | intro _
theorem State.checkpoint_fixed (h) : (s.checkpoint h).Fixed b0 := by
  rw [State.checkpoint.eq_def]
  repeat' first | (with_reducible first | assumption | apply State.setHart_fixed | apply State.writeBackLine_fixed | apply foldl_fixed) | intro _
theorem execMckpt_fixed (h ops) : OutFixed b0 (execMckpt h ops s) := by
  rw [execMckpt.eq_def]
  repeat' first
    | with_reducible first
        | assumption | apply State.trap_fixed | apply State.coreRun_fixed | apply State.checkpoint_fixed | apply OutFixed.next
    | split | dsimp only

/-! The operations of Machine/Leaves.lean. -/

theorem State.firstDispatch_fixed (n p) : (s.firstDispatch n p).Fixed b0 := by
  rw [State.firstDispatch.eq_def]
  repeat' (with_reducible first | assumption | apply State.setStream_fixed | apply State.takePlan_fixed | apply State.allocStats_fixed)
theorem State.placeRuns_fixed (n num j cars scrs run0) : (s.placeRuns n num j cars scrs run0).Fixed b0 := by
  rw [State.placeRuns.eq_def]
  repeat' first | (with_reducible first | assumption | apply State.placeAt_fixed | apply State.place_fixed | apply foldl_fixed) | intro _ | split
theorem State.dispatch_fixed (n num j cars scrs early) : (s.dispatch n num j cars scrs early).Fixed b0 := by
  rw [State.dispatch.eq_def]
  repeat' first | (with_reducible first | assumption | apply State.firstDispatch_fixed | apply State.placeRuns_fixed) | split | dsimp only
theorem execLeafDispatch_fixed (n num j cars scrs) : OutFixed b0 (execLeafDispatch n num j cars scrs s) := by
  rw [execLeafDispatch.eq_def]; repeat' (with_reducible first | assumption | apply State.dispatch_fixed | apply OutFixed.next)
theorem execSubframeLeafDispatch_fixed (n num j cars scrs) : OutFixed b0 (execSubframeLeafDispatch n num j cars scrs s) := by
  rw [execSubframeLeafDispatch.eq_def]; repeat' first | (with_reducible first | assumption | apply State.dispatch_fixed | apply OutFixed.next) | split
theorem State.freeEngine_fixed (i) : (s.freeEngine i).Fixed b0 := by
  rw [State.freeEngine.eq_def]
  repeat' (with_reducible first | assumption | apply State.put_fixed | apply State.setEngine_fixed | apply State.unplace_fixed | apply State.topSpares_fixed)
theorem State.noteMask_fixed (t) : (s.noteMask t).Fixed b0 := by
  rw [State.noteMask.eq_def]; repeat' (with_reducible first | assumption | apply State.put_fixed)
theorem State.commitUnit_fixed (n num j c) : (s.commitUnit n num j c).Fixed b0 := by
  rw [State.commitUnit.eq_def]
  repeat' first | (with_reducible first | assumption | apply State.onPic_fixed | apply State.tryFinish_fixed | apply State.noteMask_fixed) | split
theorem State.thirdRun_fixed (n num j u) : (s.thirdRun n num j u).Fixed b0 := by
  rw [State.thirdRun.eq_def]
  repeat' first | (with_reducible first | assumption | apply State.pick_fixed | apply State.loseWork_fixed | apply State.placeRuns_fixed) | split | dsimp only
theorem State.settleUnit_fixed (n num j) : (s.settleUnit n num j).Fixed b0 := by
  rw [State.settleUnit.eq_def]
  repeat' first
    | with_reducible first
        | assumption | apply State.bump_fixed | apply State.loseWork_fixed | apply State.report_fixed | apply State.commitUnit_fixed
        | apply State.thirdRun_fixed
    | split | dsimp only
theorem State.lateResult_fixed (i) : (s.lateResult i).Fixed b0 := by
  rw [State.lateResult.eq_def]; repeat' (with_reducible first | assumption | apply State.bump_fixed | apply State.freeEngine_fixed)
theorem State.drainChunk_fixed (i n num j) : (s.drainChunk i n num j).Fixed b0 := by
  rw [State.drainChunk.eq_def]; repeat' (with_reducible first | assumption | apply State.put_fixed | apply State.setEngine_fixed | apply State.onPic_fixed)
theorem State.commitChunk_fixed (i n num j run) : (s.commitChunk i n num j run).Fixed b0 := by
  rw [State.commitChunk.eq_def]
  repeat' first | (with_reducible first | assumption | apply State.setEngine_fixed | apply State.drainChunk_fixed) | split | dsimp only
theorem State.carrelEnd_fixed (i n num j run c) : (s.carrelEnd i n num j run c).Fixed b0 := by
  rw [State.carrelEnd.eq_def]
  repeat' first
    | with_reducible first
        | assumption | apply State.put_fixed | apply State.onPic_fixed | apply State.loseWork_fixed | apply State.abandon_fixed | apply State.report_fixed
        | apply State.freeEngine_fixed | apply State.settleUnit_fixed | apply State.lateResult_fixed | apply State.drainChunk_fixed
    | split | dsimp only
theorem State.scribeEnd_fixed (i n num j run c) : (s.scribeEnd i n num j run c).Fixed b0 := by
  rw [State.scribeEnd.eq_def]
  repeat' first
    | with_reducible first
        | assumption | apply State.onPic_fixed | apply State.freeEngine_fixed | apply State.settleUnit_fixed | apply State.lateResult_fixed
        | apply State.drainChunk_fixed
    | split
theorem State.wakeLanded_fixed (n num) : (s.wakeLanded n num).Fixed b0 := by
  rw [State.wakeLanded.eq_def]; repeat' first | (with_reducible first | assumption | apply State.setWait_fixed | apply foldl_fixed) | intro _ | split
theorem execChunkCommit_fixed (i c) : OutFixed b0 (execChunkCommit i c s) := by
  rw [execChunkCommit.eq_def]
  repeat' first
    | with_reducible first
        | assumption | apply State.report_fixed | apply State.setWait_fixed | apply State.lateResult_fixed | apply State.commitChunk_fixed
        | apply State.carrelEnd_fixed | apply State.scribeEnd_fixed | apply OutFixed.next
    | split | dsimp only
theorem State.redoAfter_fixed (n num t) : (s.redoAfter n num t).Fixed b0 := by
  rw [State.redoAfter.eq_def]
  repeat' first
    | with_reducible first
        | assumption | apply State.add_fixed | apply State.onPic_fixed | apply State.placeRuns_fixed | apply State.freeEngine_fixed | apply foldl_fixed
    | intro _ | split | dsimp only
theorem execGuardEvaluate_fixed (n num) : OutFixed b0 (execGuardEvaluate n num s) := by
  rw [execGuardEvaluate.eq_def]
  repeat' first
    | with_reducible first
        | assumption | apply State.setStream_fixed | apply State.tryFinish_fixed | apply State.redoAfter_fixed | apply OutFixed.next
    | split | dsimp only
theorem execLeafRelease_fixed (n num) : OutFixed b0 (execLeafRelease n num s) := by
  rw [execLeafRelease.eq_def]
  repeat' first
    | with_reducible first
        | assumption | apply State.setStream_fixed | apply State.tryFinish_fixed | apply State.writeOut_fixed | apply State.setReleased_fixed
        | apply OutFixed.next
    | split | dsimp only
theorem execPictureRelease_fixed (n num) : OutFixed b0 (execPictureRelease n num s) := by
  rw [execPictureRelease.eq_def]
  repeat' first
    | with_reducible first
        | assumption | apply State.tryFinish_fixed | apply State.writeOut_fixed | apply State.setReleased_fixed | apply OutFixed.next
    | split | dsimp only
theorem execSearchBlock_fixed (n num b) : OutFixed b0 (execSearchBlock n num b s) := by
  rw [execSearchBlock.eq_def]; repeat' first | (with_reducible first | assumption | apply State.setStream_fixed | apply OutFixed.next) | split | dsimp only
theorem execCoarseCplxPost_fixed (n num) : OutFixed b0 (execCoarseCplxPost n num s) := by
  rw [execCoarseCplxPost.eq_def]
  repeat' first | (with_reducible first | assumption | apply State.setStream_fixed | apply State.fwPost_fixed | apply OutFixed.next) | split | dsimp only
theorem execPlanPost_fixed (n rec) : OutFixed b0 (execPlanPost n rec s) := by
  rw [execPlanPost.eq_def]
  repeat' first
    | with_reducible first
        | assumption | apply State.reply_fixed | apply State.endCall_fixed | apply State.postPlan_fixed | apply OutFixed.next
    | split
theorem State.appletCalls_fixed (n f) (h_f : ∀ s : State, s.Fixed b0 → (f s).1.Fixed b0) : (s.appletCalls n f).Fixed b0 := by
  rw [State.appletCalls.eq_def]; repeat' first | (with_reducible first | assumption | apply h_f | apply State.reply_fixed | apply State.setX_fixed) | split
theorem execRcPost_fixed (n rec) : OutFixed b0 (execRcPost n rec s) := by
  rw [execRcPost.eq_def]
  repeat' first | (with_reducible first | assumption | apply State.postPlan_fixed | apply State.appletCalls_fixed | apply OutFixed.next) | intro _
theorem execRcCplx_fixed (n num) : OutFixed b0 (execRcCplx n num s) := by
  rw [execRcCplx.eq_def]; repeat' first | (with_reducible first | assumption | apply State.appletCalls_fixed | apply OutFixed.next) | intro _
theorem execRcTime_fixed (n) : OutFixed b0 (execRcTime n s) := by
  rw [execRcTime.eq_def]; repeat' first | (with_reducible first | assumption | apply State.appletCalls_fixed | apply OutFixed.next) | intro _
theorem execRcLog_fixed (n code value) : OutFixed b0 (execRcLog n code value s) := by
  rw [execRcLog.eq_def]
  repeat' first | (with_reducible first | assumption | apply State.setStream_fixed | apply State.appletCalls_fixed | apply OutFixed.next) | intro _ | split
theorem State.returnStats_fixed (n num) : (s.returnStats n num).Fixed b0 := by
  rw [State.returnStats.eq_def]
  repeat' first | (with_reducible first | assumption | apply State.setStream_fixed | apply State.release_fixed | apply State.settle_fixed) | split
theorem State.appletFails_fixed (n) : (s.appletFails n).Fixed b0 := by
  rw [State.appletFails.eq_def]
  repeat' first
    | with_reducible first
        | assumption | apply State.setStream_fixed | apply State.setHart_fixed | apply State.report_fixed | apply State.returnStats_fixed | apply foldl_fixed
    | intro _ | split | dsimp only
theorem execAppletCallTimeout_fixed (n h) : OutFixed b0 (execAppletCallTimeout n h s) := by
  rw [execAppletCallTimeout.eq_def]; repeat' first | (with_reducible first | assumption | apply State.appletFails_fixed | apply OutFixed.next) | split
theorem execAppletTrap_fixed (n f) : OutFixed b0 (execAppletTrap n f s) := by
  rw [execAppletTrap.eq_def]; repeat' first | (with_reducible first | assumption | apply State.appletFails_fixed | apply OutFixed.next) | split
theorem execStatsFolioArrival_fixed (n num) : OutFixed b0 (execStatsFolioArrival n num s) := by
  rw [execStatsFolioArrival.eq_def]
  repeat' first
    | with_reducible first
        | assumption | apply State.setStream_fixed | apply State.endCall_fixed | apply State.callDue_fixed | apply State.returnStats_fixed
        | apply OutFixed.next
    | split | dsimp only

/-! The operations of Machine/Ingest.lean. -/

theorem State.showHold_fixed : s.showHold.Fixed b0 := by
  rw [State.showHold.eq_def]; repeat' first | simp only [State.fixed_mk] | (with_reducible first | assumption | apply State.put_fixed | apply FixedF.of)
theorem State.showDepth_fixed (port) : (s.showDepth port).Fixed b0 := by
  rw [State.showDepth.eq_def]; repeat' (with_reducible first | assumption | apply State.put_fixed)
theorem State.showPorts_fixed : s.showPorts.Fixed b0 := by
  rw [State.showPorts.eq_def]
  repeat' first | (with_reducible first | assumption | apply State.put_fixed | apply State.showDepth_fixed | apply foldl_fixed) | intro _
theorem State.showQueues_fixed (n) : (s.showQueues n).Fixed b0 := by
  rw [State.showQueues.eq_def]
  repeat' first | (with_reducible first | assumption | apply State.showHold_fixed | apply State.showDepth_fixed | apply foldl_fixed) | intro _
theorem State.freeRows_fixed (l) : (s.freeRows l).Fixed b0 := by
  rw [State.freeRows.eq_def]; repeat' first | (with_reducible first | assumption | apply State.freeCells_fixed | apply foldl_fixed) | intro _ | split
theorem State.showHs_fixed (p) : (s.showHs p).Fixed b0 := by
  rw [State.showHs.eq_def]; repeat' (with_reducible first | assumption | apply State.put_fixed)
theorem State.closeFrame_fixed (n) : (s.closeFrame n).Fixed b0 := by
  rw [State.closeFrame.eq_def]
  repeat' first
    | with_reducible first
        | assumption | apply State.setStream_fixed | apply State.raise_fixed | apply State.onPic_fixed | apply State.showQueues_fixed
        | apply State.freeRows_fixed | apply foldl_fixed
    | intro _ | split | dsimp only
theorem State.closeIfDone_fixed (n) : (s.closeIfDone n).Fixed b0 := by
  rw [State.closeIfDone.eq_def]; repeat' first | (with_reducible first | assumption | apply State.closeFrame_fixed) | split
theorem State.hsSeen_fixed (p) : (s.hsSeen p).Fixed b0 := by
  rw [State.hsSeen.eq_def]; repeat' first | (with_reducible first | assumption | apply State.put_fixed | apply State.showHs_fixed) | split
theorem State.header_fixed (port ecc) : (s.header port ecc).1.Fixed b0 := by
  refine P1Fixed.fixed ?_; rw [State.header.eq_def]
  repeat' first | (with_reducible first | assumption | apply State.bump_fixed | apply State.hsSeen_fixed | apply P1Fixed.mk1) | split
theorem State.openFrame_fixed (n fnum) : (s.openFrame n fnum).Fixed b0 := by
  rw [State.openFrame.eq_def]; repeat' (with_reducible first | assumption | apply State.add_fixed | apply State.setStream_fixed | apply State.beginPic_fixed)
theorem execFrameStart_fixed (port k fnum) : OutFixed b0 (execFrameStart port k fnum s) := by
  rw [execFrameStart.eq_def]
  repeat' first
    | with_reducible first
        | assumption | apply State.bump_fixed | apply State.setStream_fixed | apply State.closeFrame_fixed | apply State.header_fixed
        | apply State.openFrame_fixed | apply OutFixed.next | apply fixed_of_eq1 (he := by assumption)
    | split | dsimp only
theorem execMemberFrameStart_fixed (port k fnum) : OutFixed b0 (execMemberFrameStart port k fnum s) := by
  rw [execMemberFrameStart.eq_def]
  repeat' first
    | with_reducible first
        | assumption | apply State.bump_fixed | apply State.setStream_fixed | apply State.header_fixed | apply State.openFrame_fixed | apply OutFixed.next
        | apply fixed_of_eq1 (he := by assumption)
    | split | dsimp only
theorem execFrameEnd_fixed (port k) : OutFixed b0 (execFrameEnd port k s) := by
  rw [execFrameEnd.eq_def]
  repeat' first
    | with_reducible first
        | assumption | apply State.bump_fixed | apply State.setStream_fixed | apply State.closeIfDone_fixed | apply State.header_fixed
        | apply State.openFrame_fixed | apply OutFixed.next | apply fixed_of_eq1 (he := by assumption)
    | split | dsimp only
theorem State.strayPacket_fixed (n m port) : (s.strayPacket n m port).Fixed b0 := by
  rw [State.strayPacket.eq_def]; repeat' first | (with_reducible first | assumption | apply State.bump_fixed) | split
theorem State.reserveRow_fixed (n m l f) : (s.reserveRow n m l f).Fixed b0 := by
  rw [State.reserveRow.eq_def]
  repeat' first
    | with_reducible first
        | assumption | apply State.put_fixed | apply State.setStream_fixed | apply State.useCells_fixed | apply State.showQueues_fixed
    | split | dsimp only
theorem State.firstLine_fixed (n num) : (s.firstLine n num).Fixed b0 := by
  rw [State.firstLine.eq_def]; repeat' first | (with_reducible first | assumption | apply State.onPic_fixed | apply State.planAll_fixed) | split
theorem execRowHeaderArrival_fixed (port vc dt l ecc) : OutFixed b0 (execRowHeaderArrival port vc dt l ecc s) := by
  rw [execRowHeaderArrival.eq_def]
  repeat' first
    | with_reducible first
        | assumption | apply State.bump_fixed | apply State.header_fixed | apply State.openFrame_fixed | apply State.strayPacket_fixed
        | apply State.reserveRow_fixed | apply State.firstLine_fixed | apply OutFixed.next | apply fixed_of_eq1 (he := by assumption)
    | split | dsimp only
theorem State.endRow_fixed (n m f l samples) : (s.endRow n m f l samples).Fixed b0 := by
  rw [State.endRow.eq_def]
  repeat' (with_reducible first | assumption | apply State.setStream_fixed | apply State.showQueues_fixed | apply State.freeRows_fixed)
theorem State.checkPacket_fixed (port cut mismatch crcOk) : (s.checkPacket port cut mismatch crcOk).Fixed b0 := by
  rw [State.checkPacket.eq_def]; repeat' first | (with_reducible first | assumption | apply State.bump_fixed) | split
theorem State.lastRow_fixed (n m l) : (s.lastRow n m l).Fixed b0 := by
  rw [State.lastRow.eq_def]
  repeat' first
    | with_reducible first
        | assumption | apply State.setStream_fixed | apply State.onPic_fixed | apply State.openFrame_fixed
    | split | dsimp only
theorem execLongPacket_fixed (port vc l wc crcOk data) : OutFixed b0 (execLongPacket port vc l wc crcOk data s) := by
  rw [execLongPacket.eq_def]
  repeat' first
    | with_reducible first
        | assumption | apply State.closeIfDone_fixed | apply State.openFrame_fixed | apply State.endRow_fixed | apply State.checkPacket_fixed
        | apply State.lastRow_fixed | apply OutFixed.next
    | split | dsimp only
theorem execLineTimeout_fixed (n) : OutFixed b0 (execLineTimeout n s) := by
  rw [execLineTimeout.eq_def]
  repeat' first
    | with_reducible first
        | assumption | apply State.setStream_fixed | apply State.showQueues_fixed | apply State.freeRows_fixed | apply State.closeIfDone_fixed
        | apply OutFixed.next
    | split | dsimp only
theorem execRowEmit_fixed (n) : OutFixed b0 (execRowEmit n s) := by
  rw [execRowEmit.eq_def]
  repeat' first
    | with_reducible first
        | assumption | apply State.bump_fixed | apply State.setStream_fixed | apply State.onPic_fixed | apply State.request_fixed
        | apply State.showQueues_fixed | apply State.freeRows_fixed | apply foldl_fixed | apply OutFixed.next
    | intro _ | split | dsimp only
theorem execRowLanded_fixed (n) : OutFixed b0 (execRowLanded n s) := by
  rw [execRowLanded.eq_def]
  repeat' first | (with_reducible first | assumption | apply State.onPic_fixed | apply State.wakeLanded_fixed | apply OutFixed.next) | split | dsimp only
theorem execHoldCtlWrite_fixed (v) : OutFixed b0 (execHoldCtlWrite v s) := by
  rw [execHoldCtlWrite.eq_def]; repeat' (with_reducible first | assumption | apply State.put_fixed | apply State.showHold_fixed | apply OutFixed.next)
theorem execPopRelease_fixed (u n) : OutFixed b0 (execPopRelease u n s) := by
  rw [execPopRelease.eq_def]; repeat' (with_reducible first | assumption | apply State.popItem_fixed | apply State.showHold_fixed | apply OutFixed.next)
theorem execDeskewSequence_fixed (p lanes initial) : OutFixed b0 (execDeskewSequence p lanes initial s) := by
  rw [execDeskewSequence.eq_def]
  repeat' first | (with_reducible first | assumption | apply State.put_fixed | apply State.showHs_fixed | apply OutFixed.next) | split
theorem State.portLp_fixed (p) : (s.portLp p).Fixed b0 := by
  rw [State.portLp.eq_def]; repeat' (with_reducible first | assumption | apply State.put_fixed | apply State.showHs_fixed)
theorem execUlpsEntry_fixed (p) : OutFixed b0 (execUlpsEntry p s) := by
  rw [execUlpsEntry.eq_def]
  repeat' first | (with_reducible first | assumption | apply State.put_fixed | apply State.portLp_fixed | apply OutFixed.next) | split
theorem execUlpsExit_fixed (p) : OutFixed b0 (execUlpsExit p s) := by
  rw [execUlpsExit.eq_def]; repeat' (with_reducible first | assumption | apply State.put_fixed | apply OutFixed.next)
theorem State.sensorLoss_fixed (p lanes clock) : (s.sensorLoss p lanes clock).Fixed b0 := by
  rw [State.sensorLoss.eq_def]
  repeat' first
    | with_reducible first
        | assumption | apply State.put_fixed | apply State.onPic_fixed | apply State.reportStreams_fixed | apply State.openFrame_fixed
        | apply State.portLp_fixed | apply foldl_fixed
    | intro _ | split | dsimp only
theorem execSensorLinkLoss_fixed (p lanes clock) : OutFixed b0 (execSensorLinkLoss p lanes clock s) := by
  rw [execSensorLinkLoss.eq_def]; repeat' (with_reducible first | assumption | apply State.sensorLoss_fixed | apply OutFixed.next)

/-! The operations of Machine/Net.lean. -/

theorem State.setFlow_fixed (p f v) : (s.setFlow p f v).Fixed b0 := by
  rw [State.setFlow.eq_def]; repeat' (with_reducible first | assumption | apply State.setPort_fixed)
theorem State.showFlows_fixed (p) : (s.showFlows p).Fixed b0 := by
  rw [State.showFlows.eq_def]; repeat' first | (with_reducible first | assumption | apply State.put_fixed | apply foldl_fixed) | intro _ | split
theorem State.openFlows_fixed (n) : (s.openFlows n).Fixed b0 := by
  rw [State.openFlows.eq_def]
  repeat' first | (with_reducible first | assumption | apply State.setFlow_fixed | apply State.showFlows_fixed | apply foldl_fixed) | intro _ | split
theorem State.enqueue_fixed (p c body len due late) : (s.enqueue p c body len due late).Fixed b0 := by
  rw [State.enqueue.eq_def]; repeat' (with_reducible first | assumption | apply State.setPort_fixed | apply State.account_fixed)
theorem State.neverSent_fixed (p b) : (s.neverSent p b).Fixed b0 := by
  rw [State.neverSent.eq_def]; repeat' first | (with_reducible first | assumption | apply State.firstPacket_fixed) | split
theorem State.unqueue_fixed (p c) : (s.unqueue p c).Fixed b0 := by
  rw [State.unqueue.eq_def]; repeat' (with_reducible first | assumption | apply State.setPort_fixed)
theorem State.dropQueue_fixed (p c x0) : (s.dropQueue p c x0).Fixed b0 := by
  induction x0 generalizing s p c with
  | zero => exact hs
  | succ fuel ih =>
    unfold State.dropQueue
    repeat' first | (with_reducible first | assumption | apply ih | apply State.bump_fixed | apply State.neverSent_fixed | apply State.unqueue_fixed) | split
theorem State.dropQueues_fixed (p) : (s.dropQueues p).Fixed b0 := by
  rw [State.dropQueues.eq_def]
  repeat' first | (with_reducible first | assumption | apply State.account_fixed | apply State.dropQueue_fixed | apply foldl_fixed) | intro _
theorem State.flowDone_fixed (v num) : (s.flowDone v num).Fixed b0 := by
  rw [State.flowDone.eq_def]; repeat' (with_reducible first | assumption | apply State.dropReader_fixed)
theorem State.passOver_fixed (v num) : (s.passOver v num).Fixed b0 := by
  rw [State.passOver.eq_def]; repeat' first | (with_reducible first | assumption | apply State.firstPacket_fixed | apply State.flowDone_fixed) | split
theorem execAlignmentPoint_fixed (p f) : OutFixed b0 (execAlignmentPoint p f s) := by
  rw [execAlignmentPoint.eq_def]
  repeat' first
    | with_reducible first
        | assumption | apply State.bump_fixed | apply State.setFlow_fixed | apply State.passOver_fixed | apply foldl_fixed | apply OutFixed.next
    | intro _ | split | dsimp only
theorem State.sendPacket_fixed (p f v w pic due late pkt) : (s.sendPacket p f v w pic due late pkt).Fixed b0 := by
  rw [State.sendPacket.eq_def]
  repeat' first
    | with_reducible first
        | assumption | apply State.bump_fixed | apply State.setFlow_fixed | apply State.enqueue_fixed | apply State.neverSent_fixed
        | apply State.flowDone_fixed
    | split | dsimp only
theorem execPacketRelease_fixed (p f) : OutFixed b0 (execPacketRelease p f s) := by
  rw [execPacketRelease.eq_def]; repeat' first | (with_reducible first | assumption | apply State.sendPacket_fixed | apply OutFixed.next) | split | dsimp only
theorem State.endFlows_fixed (n) : (s.endFlows n).Fixed b0 := by
  rw [State.endFlows.eq_def]
  repeat' first | (with_reducible first | assumption | apply State.setFlow_fixed | apply State.passOver_fixed | apply foldl_fixed) | intro _ | split
theorem State.closeFlows_fixed (n) : (s.closeFlows n).Fixed b0 := by
  rw [State.closeFlows.eq_def]
  repeat' first
    | with_reducible first
        | assumption | apply State.setFlow_fixed | apply State.passOver_fixed | apply State.endFlows_fixed | apply foldl_fixed
    | intro _
theorem State.endClosed_fixed (p) : (s.endClosed p).Fixed b0 := by
  rw [State.endClosed.eq_def]; repeat' first | (with_reducible first | assumption | apply State.endFlows_fixed | apply foldl_fixed) | intro _
theorem State.freeFlows_fixed (n) : (s.freeFlows n).Fixed b0 := by
  rw [State.freeFlows.eq_def]
  repeat' first
    | with_reducible first
        | assumption | apply State.setFlow_fixed | apply State.showFlows_fixed | apply State.passOver_fixed | apply foldl_fixed
    | intro _
theorem State.noteBlocked_fixed (p c) : (s.noteBlocked p c).Fixed b0 := by
  rw [State.noteBlocked.eq_def]; repeat' first | (with_reducible first | assumption | apply State.setPort_fixed) | split | dsimp only
theorem State.departed_fixed (p f) : (s.departed p f).Fixed b0 := by
  rw [State.departed.eq_def]
  repeat' first
    | with_reducible first
        | assumption | apply State.bump_fixed | apply State.reply_fixed | apply State.setServo_fixed | apply State.firstPacket_fixed
        | apply State.enqueue_fixed
    | split | dsimp only
theorem execFrameTransmit_fixed (p) : OutFixed b0 (execFrameTransmit p s) := by
  rw [execFrameTransmit.eq_def]
  repeat' first
    | with_reducible first
        | assumption | apply State.put_fixed | apply State.bump_fixed | apply State.setPort_fixed | apply State.account_fixed | apply State.unqueue_fixed
        | apply State.dropQueues_fixed | apply State.endClosed_fixed | apply State.noteBlocked_fixed | apply State.departed_fixed | apply foldl_fixed
        | apply OutFixed.next
    | intro _ | split | dsimp only
theorem execGateBlockDrop_fixed (p c) : OutFixed b0 (execGateBlockDrop p c s) := by
  rw [execGateBlockDrop.eq_def]
  repeat' first
    | with_reducible first
        | assumption | apply State.bump_fixed | apply State.account_fixed | apply State.neverSent_fixed | apply State.unqueue_fixed
        | apply State.endClosed_fixed | apply State.noteBlocked_fixed | apply OutFixed.next
    | split | dsimp only
theorem execTelemetrySample_fixed (p) : OutFixed b0 (execTelemetrySample p s) := by
  rw [execTelemetrySample.eq_def]
  repeat' first
    | with_reducible first
        | assumption | apply State.put_fixed | apply State.draw_fixed | apply State.setPort_fixed | apply foldl_fixed | apply OutFixed.next
    | intro _ | split
theorem State.netFall_fixed (p) : (s.netFall p).Fixed b0 := by
  rw [State.netFall.eq_def]
  repeat' first
    | with_reducible first
        | assumption | apply State.put_fixed | apply State.raise_fixed | apply State.reportStreams_fixed | apply State.dropQueues_fixed
        | apply State.endClosed_fixed
    | split
theorem State.setCage_fixed (p) : (s.setCage p).Fixed b0 := hs
theorem execNetLinkDown_fixed (p) : OutFixed b0 (execNetLinkDown p s) := by
  rw [execNetLinkDown.eq_def]; repeat' (with_reducible first | assumption | apply State.netFall_fixed | apply State.setCage_fixed | apply OutFixed.next)
theorem State.skipPassed_fixed (p f x0) : (s.skipPassed p f x0).Fixed b0 := by
  induction x0 generalizing s p f with
  | zero => exact hs
  | succ fuel ih =>
    unfold State.skipPassed
    repeat' first
      | with_reducible first
          | assumption | apply ih | apply State.bump_fixed | apply State.firstPacket_fixed | apply State.setFlow_fixed | apply State.flowDone_fixed
      | split | dsimp only
theorem execNetLinkUp_fixed (q) : OutFixed b0 (execNetLinkUp q s) := by
  rw [execNetLinkUp.eq_def]
  repeat' first
    | with_reducible first
        | assumption | apply State.put_fixed | apply State.raise_fixed | apply State.setCage_fixed | apply State.skipPassed_fixed | apply foldl_fixed
        | apply OutFixed.next
    | intro _ | split | dsimp only
theorem execPortCfgWrite_fixed (p v) : OutFixed b0 (execPortCfgWrite p v s) := by
  rw [execPortCfgWrite.eq_def]
  repeat' first
    | with_reducible first
        | assumption | apply State.put_fixed | apply State.dropQueues_fixed | apply State.endClosed_fixed | apply OutFixed.next
    | split
theorem State.startList_fixed (p) : (s.startList p).Fixed b0 := by
  rw [State.startList.eq_def]
  repeat' first
    | with_reducible first
        | assumption | apply State.put_fixed | apply State.setPort_fixed | apply State.showGates_fixed | apply State.account_fixed | apply foldl_fixed
    | intro _ | split
theorem State.startDue_fixed (p) : (s.startDue p).Fixed b0 := by
  rw [State.startDue.eq_def]; repeat' first | (with_reducible first | assumption | apply State.startList_fixed) | split
theorem execGclCommit_fixed (p) : OutFixed b0 (execGclCommit p s) := by
  rw [execGclCommit.eq_def]
  repeat' first
    | with_reducible first
        | assumption | apply State.put_fixed | apply State.setPort_fixed | apply State.startDue_fixed | apply OutFixed.next
    | split | dsimp only
theorem execGclStart_fixed (p) : OutFixed b0 (execGclStart p s) := by
  rw [execGclStart.eq_def]; repeat' (with_reducible first | assumption | apply State.startDue_fixed | apply OutFixed.next)
theorem execGateEntryChange_fixed (p) : OutFixed b0 (execGateEntryChange p s) := by
  rw [execGateEntryChange.eq_def]
  repeat' first
    | with_reducible first
        | assumption | apply State.setPort_fixed | apply State.showGates_fixed | apply State.account_fixed | apply OutFixed.next
    | split
theorem execCbsWrite_fixed (p c which v) : OutFixed b0 (execCbsWrite p c which v s) := by
  rw [execCbsWrite.eq_def]
  repeat' first
    | with_reducible first
        | assumption | apply State.put_fixed | apply State.setPort_fixed | apply State.account_fixed | apply OutFixed.next
    | split
theorem execPsfWrite_fixed (p f which v) : OutFixed b0 (execPsfWrite p f which v s) := by
  rw [execPsfWrite.eq_def]
  repeat' first
    | with_reducible first
        | assumption | apply State.wr_fixed | apply State.put_fixed | apply State.setPort_fixed | apply State.account_fixed | apply OutFixed.next
    | split
theorem State.sendPtp_fixed (p ty seq time dest) : (s.sendPtp p ty seq time dest).Fixed b0 := by
  rw [State.sendPtp.eq_def]; repeat' (with_reducible first | assumption | apply State.enqueue_fixed)
theorem execPtpSendTimer_fixed (p ty) : OutFixed b0 (execPtpSendTimer p ty s) := by
  rw [execPtpSendTimer.eq_def]
  repeat' first | (with_reducible first | assumption | apply State.setServo_fixed | apply State.sendPtp_fixed | apply OutFixed.next) | split | dsimp only
theorem State.tryMeasure_fixed : s.tryMeasure.Fixed b0 := by
  rw [State.tryMeasure.eq_def]
  repeat' first | (with_reducible first | assumption | apply State.setServo_fixed | apply State.measure_fixed) | split
theorem State.ptpIn_fixed (p m) : (s.ptpIn p m).Fixed b0 := by
  rw [State.ptpIn.eq_def]
  repeat' first
    | with_reducible first
        | assumption | apply State.setServo_fixed | apply State.selectMaster_fixed | apply State.keepMasters_fixed | apply State.sendPtp_fixed
        | apply State.tryMeasure_fixed
    | split | dsimp only
theorem State.takeFrame_fixed (p f) : (s.takeFrame p f).Fixed b0 := by
  rw [State.takeFrame.eq_def]
  repeat' first
    | with_reducible first
        | assumption | apply State.bump_fixed | apply State.reply_fixed | apply State.raise_fixed | apply State.enqueue_fixed | apply State.ptpIn_fixed
    | split | dsimp only
theorem execRxFrame_fixed (p f) : OutFixed b0 (execRxFrame p f s) := by
  rw [execRxFrame.eq_def]
  repeat' first
    | with_reducible first
        | assumption | apply State.bump_fixed | apply State.setPort_fixed | apply State.account_fixed | apply State.takeFrame_fixed | apply OutFixed.next
    | split | simp only []
theorem execI2cCmd_fixed (v) : OutFixed b0 (execI2cCmd v s) := by
  rw [execI2cCmd.eq_def]
  repeat' first | simp only [State.fixed_mk] | (with_reducible first | assumption | apply State.put_fixed | apply OutFixed.next | apply FixedF.of) | split
theorem execI2cDone_fixed (ack data) : OutFixed b0 (execI2cDone ack data s) := by
  rw [execI2cDone.eq_def]
  repeat' first | simp only [State.fixed_mk] | (with_reducible first | assumption | apply State.put_fixed | apply OutFixed.next | apply FixedF.of) | split

/-! The operations of Machine/OpenClose.lean. -/

theorem State.slipRead_fixed (n t va len) : (s.slipRead n t va len).1.Fixed b0 := by
  refine P1Fixed.fixed ?_; rw [State.slipRead.eq_def]
  repeat' first
    | with_reducible first
        | assumption | apply State.slipPieces_fixed | apply State.slipFault_fixed | apply State.readPieces_fixed | apply P1Fixed.mk1
        | apply fixed_of_eq1 (he := by assumption)
    | split
theorem State.readTables_fixed (n t secs) : (s.readTables n t secs).1.Fixed b0 := by
  refine P1Fixed.fixed ?_; rw [State.readTables.eq_def]
  repeat' first | (with_reducible first | assumption | apply State.slipRead_fixed | apply P1Fixed.mk1 | apply fixed_of_eq1 (he := by assumption)) | split
theorem State.flushStaged_fixed (p) : (s.flushStaged p).Fixed b0 := by
  rw [State.flushStaged.eq_def]
  repeat' first
    | simp only [State.fixed_mk]
    | with_reducible first
        | assumption | apply State.finishById_fixed | apply State.showLedger_fixed | apply State.settle_fixed | apply foldl_fixed | apply FixedF.of
    | intro _
theorem State.stage_fixed (n t what) : (s.stage n t what).Fixed b0 := by
  rw [State.stage.eq_def]
  repeat' first
    | simp only [State.fixed_mk]
    | with_reducible first
        | assumption | apply State.setRing_fixed | apply State.showLedger_fixed | apply FixedF.of
theorem State.openChecked_fixed (n k t fits secs stop lut taps) : (s.openChecked n k t fits secs stop lut taps).Fixed b0 := by
  rw [State.openChecked.eq_def]
  repeat' first
    | with_reducible first
        | assumption | apply State.finishInOrder_fixed | apply State.flushStaged_fixed | apply State.stage_fixed
    | split | dsimp only
theorem execOpenStream_fixed (n k fits) : OutFixed b0 (execOpenStream n k fits s) := by
  rw [execOpenStream.eq_def]
  repeat' first
    | with_reducible first
        | assumption | apply State.finishInOrder_fixed | apply State.slipRead_fixed | apply State.readTables_fixed | apply State.openChecked_fixed
        | apply OutFixed.next | apply fixed_of_eq1 (he := by assumption)
    | split | dsimp only
theorem State.setChecked_fixed (n k t secs stop lut taps) : (s.setChecked n k t secs stop lut taps).Fixed b0 := by
  rw [State.setChecked.eq_def]
  repeat' first | (with_reducible first | assumption | apply State.finishInOrder_fixed | apply State.stage_fixed) | split | dsimp only
theorem execSetConfig_fixed (n k) : OutFixed b0 (execSetConfig n k s) := by
  rw [execSetConfig.eq_def]
  repeat' first
    | with_reducible first
        | assumption | apply State.finishInOrder_fixed | apply State.slipRead_fixed | apply State.readTables_fixed | apply State.setChecked_fixed
        | apply OutFixed.next | apply fixed_of_eq1 (he := by assumption)
    | split | dsimp only
theorem execSetConfigDevice_fixed (n k) : OutFixed b0 (execSetConfigDevice n k s) := by
  rw [execSetConfigDevice.eq_def]
  repeat' first
    | with_reducible first
        | assumption | apply State.finish_fixed | apply State.requestPace_fixed | apply State.slipRead_fixed | apply OutFixed.next
        | apply fixed_of_eq1 (he := by assumption)
    | split | dsimp only
theorem State.dropPic_fixed (n p) : (s.dropPic n p).Fixed b0 := by
  rw [State.dropPic.eq_def]
  repeat' first
    | with_reducible first
        | assumption | apply State.onPic_fixed | apply State.finishById_fixed | apply State.settle_fixed | apply State.leaveSource_fixed
    | split
theorem State.abortStream_fixed (n) : (s.abortStream n).Fixed b0 := by
  rw [State.abortStream.eq_def]
  repeat' first
    | with_reducible first
        | assumption | apply State.setStream_fixed | apply State.showQueues_fixed | apply State.freeRows_fixed | apply State.dropPic_fixed | apply foldl_fixed
    | intro _
theorem State.flushWaiting_fixed (n k t) : (s.flushWaiting n k t).1.Fixed b0 := by
  refine P1Fixed.fixed ?_; rw [State.flushWaiting.eq_def]
  repeat' first | (with_reducible first | assumption | apply State.finishById_fixed | apply foldl_fixed | apply P1Fixed.mk1) | intro _
theorem State.toClosing_fixed (n abort slip) : (s.toClosing n abort slip).Fixed b0 := by
  rw [State.toClosing.eq_def]
  repeat' first
    | with_reducible first
        | assumption | apply State.setStream_fixed | apply State.closeFlows_fixed | apply State.bumpAll_fixed | apply State.flushStaged_fixed
        | apply State.abortStream_fixed
    | split
theorem execCloseStream_fixed (n k) : OutFixed b0 (execCloseStream n k s) := by
  rw [execCloseStream.eq_def]
  repeat' first
    | with_reducible first
        | assumption | apply State.startSlip_fixed | apply State.finishInOrder_fixed | apply State.finishById_fixed | apply State.flushStaged_fixed
        | apply State.flushWaiting_fixed | apply State.toClosing_fixed | apply foldl_fixed | apply OutFixed.next
    | intro _ | split | dsimp only
theorem State.holdCharge_fixed (rp n tag c) : (s.holdCharge rp n tag c).Fixed b0 := by
  rw [State.holdCharge.eq_def]; repeat' (with_reducible first | assumption | apply State.setRing_fixed)
theorem State.closeCall_fixed (n a) : (s.closeCall n a).Fixed b0 := by
  rw [State.closeCall.eq_def]; repeat' (with_reducible first | assumption | apply State.beginCall_fixed)
theorem execStreamClosed_fixed (n) : OutFixed b0 (execStreamClosed n s) := by
  rw [execStreamClosed.eq_def]
  repeat' first
    | with_reducible first
        | assumption | apply State.put_fixed | apply State.setStream_fixed | apply State.setHart_fixed | apply State.draw_fixed | apply State.postEvent_fixed
        | apply State.showBusy_fixed | apply State.finish_fixed | apply State.showSpares_fixed | apply State.beginDrain_fixed | apply State.showLedger_fixed
        | apply State.showHold_fixed | apply State.showPorts_fixed | apply State.freeFlows_fixed | apply State.holdCharge_fixed | apply State.closeCall_fixed
        | apply foldl_fixed | apply OutFixed.next
    | intro _ | split | dsimp only
theorem execFlushStream_fixed (n k) : OutFixed b0 (execFlushStream n k s) := by
  rw [execFlushStream.eq_def]
  repeat' first
    | with_reducible first
        | assumption | apply State.setStream_fixed | apply State.finish_fixed | apply State.startDrain_fixed | apply State.startSlip_fixed
        | apply State.finishInOrder_fixed | apply State.settle_fixed | apply State.bumpAll_fixed | apply State.flushStaged_fixed
        | apply State.flushWaiting_fixed | apply OutFixed.next
    | split | dsimp only

/-! The operations of Machine/Epochs.lean. -/

theorem State.beginEpoch_fixed : s.beginEpoch.Fixed b0 := by
  rw [State.beginEpoch.eq_def]
  repeat' first
    | simp only [State.fixed_mk]
    | with_reducible first
        | assumption | apply State.put_fixed | apply State.setCatUnit_fixed | apply State.draw_fixed | apply foldl_fixed | apply FixedF.of
    | intro _
theorem execEpochBegin_fixed : OutFixed b0 (execEpochBegin s) := by
  rw [execEpochBegin.eq_def]; repeat' first | (with_reducible first | assumption | apply State.beginEpoch_fixed | apply OutFixed.next) | split | dsimp only
theorem State.freshPorts_fixed (ports) : (s.freshPorts ports).Fixed b0 := by
  rw [State.freshPorts.eq_def]; repeat' first | (with_reducible first | assumption | apply State.put_fixed | apply foldl_fixed) | intro _
theorem State.openApplet_fixed (n) : (s.openApplet n).Fixed b0 := by
  rw [State.openApplet.eq_def]; repeat' first | (with_reducible first | assumption | apply State.draw_fixed | apply State.beginCall_fixed) | split
theorem State.applySlip_fixed (q epoch) : (s.applySlip q epoch).Fixed b0 := by
  rw [State.applySlip.eq_def]
  repeat' first
    | with_reducible first
        | assumption | apply State.setStream_fixed | apply State.showBusy_fixed | apply State.openFlows_fixed | apply State.toClosing_fixed
        | apply State.freshPorts_fixed | apply State.openApplet_fixed
    | split | dsimp only
theorem State.streamRead_fixed (n va len) : (s.streamRead n va len).1.Fixed b0 := by
  refine P1Fixed.fixed ?_; rw [State.streamRead.eq_def]
  repeat' first
    | with_reducible first
        | assumption | apply State.slipPieces_fixed | apply State.readPieces_fixed | apply P1Fixed.mk1 | apply fixed_of_eq1 (he := by assumption)
    | split
theorem State.readLut_fixed (n) : (s.readLut n).Fixed b0 := by
  rw [State.readLut.eq_def]; repeat' first | (with_reducible first | assumption | apply State.setStream_fixed | apply State.streamRead_fixed) | split
theorem State.completeStaged_fixed (q epoch digest) : (s.completeStaged q epoch digest).Fixed b0 := by
  rw [State.completeStaged.eq_def]; repeat' first | (with_reducible first | assumption | apply State.finish_fixed) | split
theorem State.unitTakes_fixed (e u) : (s.unitTakes e u).Fixed b0 := by
  rw [State.unitTakes.eq_def]; repeat' (with_reducible first | assumption | apply State.setCatUnit_fixed)
theorem State.takeEpoch_fixed : s.takeEpoch.Fixed b0 := by
  rw [State.takeEpoch.eq_def]
  repeat' first
    | simp only [State.fixed_mk]
    | with_reducible first
        | assumption | apply State.put_fixed | apply State.putTime_fixed | apply State.raise_fixed | apply State.showLedger_fixed
        | apply State.topSpares_fixed | apply State.settle_fixed | apply State.showHold_fixed | apply State.showPorts_fixed | apply State.applySlip_fixed
        | apply State.readLut_fixed | apply State.completeStaged_fixed | apply State.unitTakes_fixed | apply foldl_fixed | apply FixedF.of
    | intro _ | split
theorem execEpochTaken_fixed : OutFixed b0 (execEpochTaken s) := by
  rw [execEpochTaken.eq_def]; repeat' (with_reducible first | assumption | apply State.takeEpoch_fixed | apply OutFixed.next)
theorem execEpochAckTimeout_fixed (missing) : OutFixed b0 (execEpochAckTimeout missing s) := by
  rw [execEpochAckTimeout.eq_def]
  repeat' first
    | with_reducible first
        | assumption | apply State.bump_fixed | apply State.setCatUnit_fixed | apply State.report_fixed | apply State.takeEpoch_fixed | apply foldl_fixed
        | apply OutFixed.next
    | intro _ | split | dsimp only

/-! The operations of Machine/Faults.lean. -/

theorem execFaultMessage_fixed (u k detail raw addr) : OutFixed b0 (execFaultMessage u k detail raw addr s) := by
  rw [execFaultMessage.eq_def]
  repeat' first
    | with_reducible first
        | assumption | apply State.put_fixed | apply State.loseWork_fixed | apply State.abandon_fixed | apply State.reportAs_fixed | apply State.unplace_fixed
        | apply OutFixed.next
    | split | dsimp only
theorem execAck_fixed (all c u) : OutFixed b0 (execAck all c u s) := by
  rw [execAck.eq_def]; repeat' first | simp only [State.fixed_mk] | (with_reducible first | assumption | apply OutFixed.next | apply FixedF.of) | split
theorem execInject_fixed (c k u) : OutFixed b0 (execInject c k u s) := by
  rw [execInject.eq_def]; repeat' first | (with_reducible first | assumption | apply State.reportAs_fixed | apply OutFixed.next) | split
theorem execFaultNHoldExpiry_fixed : OutFixed b0 (execFaultNHoldExpiry s) := by
  rw [execFaultNHoldExpiry.eq_def]
  repeat' first | simp only [State.fixed_mk] | (with_reducible first | assumption | apply OutFixed.next | apply FixedF.of) | split
theorem execWriteDrainEmpty_fixed (i) : OutFixed b0 (execWriteDrainEmpty i s) := by
  rw [execWriteDrainEmpty.eq_def]; repeat' first | (with_reducible first | assumption | apply State.setEngine_fixed | apply OutFixed.next) | split
theorem State.voidWrites_fixed (i) : (s.voidWrites i).Fixed b0 := by
  rw [State.voidWrites.eq_def]; repeat' first | (with_reducible first | assumption | apply State.setChan_fixed | apply foldl_fixed) | intro _
theorem execWriteDrainTimeout_fixed (i) : OutFixed b0 (execWriteDrainTimeout i s) := by
  rw [execWriteDrainTimeout.eq_def]
  repeat' first
    | with_reducible first
        | assumption | apply State.setEngine_fixed | apply State.report_fixed | apply State.voidWrites_fixed | apply OutFixed.next
    | split | dsimp only
theorem execRedispatch_fixed (i dest) : OutFixed b0 (execRedispatch i dest s) := by
  rw [execRedispatch.eq_def]
  repeat' first
    | with_reducible first
        | assumption | apply State.put_fixed | apply State.bump_fixed | apply State.setEngine_fixed | apply State.onPic_fixed | apply State.place_fixed
        | apply State.unplace_fixed | apply OutFixed.next
    | split | dsimp only
theorem State.sweepUnit_fixed (u) : (s.sweepUnit u).Fixed b0 := by
  rw [State.sweepUnit.eq_def]
  repeat' first
    | with_reducible first
        | assumption | apply State.bump_fixed | apply State.setCatUnit_fixed | apply State.raise_fixed | apply State.reportAs_fixed
    | split | dsimp only
theorem execDigestSweep_fixed (held) : OutFixed b0 (execDigestSweep held s) := by
  rw [execDigestSweep.eq_def]
  repeat' first
    | with_reducible first
        | assumption | apply State.bump_fixed | apply State.setCatUnit_fixed | apply State.sweepUnit_fixed | apply foldl_fixed | apply OutFixed.next
    | intro _ | split
theorem execPcieLinkDown_fixed (linkLost) : OutFixed b0 (execPcieLinkDown linkLost s) := by
  rw [execPcieLinkDown.eq_def]
  repeat' first | simp only [State.fixed_mk] | (with_reducible first | assumption | apply State.report_fixed | apply OutFixed.next | apply FixedF.of) | split
theorem execPcieCorrectedError_fixed : OutFixed b0 (execPcieCorrectedError s) := by
  rw [execPcieCorrectedError.eq_def]; repeat' (with_reducible first | assumption | apply State.report_fixed | apply OutFixed.next)

/-! The operations of Machine/Recording.lean. -/

theorem execRecordStart_fixed (n k) : OutFixed b0 (execRecordStart n k s) := by
  rw [execRecordStart.eq_def]
  repeat' first
    | simp only [State.fixed_mk]
    | with_reducible first
        | assumption | apply State.setStream_fixed | apply State.draw_fixed | apply State.startSlip_fixed | apply State.finishInOrder_fixed
        | apply State.showBnd_fixed | apply State.journal_fixed | apply foldl_fixed | apply OutFixed.next | apply FixedF.of
    | intro _ | split
theorem State.openedOn_fixed (n p) : (s.openedOn n p).Fixed b0 := by
  rw [State.openedOn.eq_def]; repeat' first | (with_reducible first | assumption | apply State.setTake_fixed) | split
theorem execRecordStop_fixed (n k) : OutFixed b0 (execRecordStop n k s) := by
  rw [execRecordStop.eq_def]
  repeat' first
    | with_reducible first
        | assumption | apply State.startSlip_fixed | apply State.finishInOrder_fixed | apply State.setTake_fixed | apply State.takeStep_fixed
        | apply OutFixed.next
    | split | dsimp only
theorem execMark_fixed (n k) : OutFixed b0 (execMark n k s) := by
  rw [execMark.eq_def]
  repeat' first
    | with_reducible first
        | assumption | apply State.startSlip_fixed | apply State.finishInOrder_fixed | apply State.setTake_fixed | apply State.journal_fixed
        | apply foldl_fixed | apply OutFixed.next
    | intro _ | split | dsimp only
theorem State.markedOn_fixed (n p rp id) : (s.markedOn n p rp id).Fixed b0 := by
  rw [State.markedOn.eq_def]; repeat' first | (with_reducible first | assumption | apply State.setTake_fixed) | split
theorem State.skipVerify_fixed (n num) : (s.skipVerify n num).Fixed b0 := by
  rw [State.skipVerify.eq_def]
  repeat' first
    | with_reducible first
        | assumption | apply State.bump_fixed | apply State.onPic_fixed | apply State.setTake_fixed | apply State.releaseRecs_fixed | apply foldl_fixed
    | intro _ | split
theorem State.makeRoom_fixed (n size x0) : (s.makeRoom n size x0).Fixed b0 := by
  induction x0 generalizing s n size with
  | zero => exact hs
  | succ fuel ih =>
    unfold State.makeRoom; repeat' first | (with_reducible first | assumption | apply ih | apply State.skipVerify_fixed) | split
theorem execPictureToBindery_fixed (n num) : OutFixed b0 (execPictureToBindery n num s) := by
  rw [execPictureToBindery.eq_def]
  repeat' first
    | with_reducible first
        | assumption | apply State.bump_fixed | apply State.dropReader_fixed | apply State.written_fixed | apply State.setTake_fixed
        | apply State.writeRecord_fixed | apply State.earlyCommit_fixed | apply State.takeStep_fixed | apply State.makeRoom_fixed | apply foldl_fixed
        | apply OutFixed.next
    | intro _ | split | dsimp only
theorem execCommitTimer_fixed (n) : OutFixed b0 (execCommitTimer n s) := by
  rw [execCommitTimer.eq_def]
  repeat' first
    | with_reducible first
        | assumption | apply State.setTake_fixed | apply State.startCommit_fixed | apply State.takeStep_fixed | apply OutFixed.next
    | split
theorem State.recordWritten_fixed (n num p moved) : (s.recordWritten n num p moved).Fixed b0 := by
  rw [State.recordWritten.eq_def]
  repeat' first
    | with_reducible first
        | assumption | apply State.onPic_fixed | apply State.written_fixed | apply State.setTake_fixed | apply State.issueRead_fixed
        | apply State.takeStep_fixed
    | split
theorem State.readBack_fixed (n num p damage) : (s.readBack n num p damage).Fixed b0 := by
  rw [State.readBack.eq_def]; repeat' first | (with_reducible first | assumption | apply State.onPic_fixed | apply State.setTake_fixed) | split
theorem execVerifyCompareDone_fixed (p n num equal) : OutFixed b0 (execVerifyCompareDone p n num equal s) := by
  rw [execVerifyCompareDone.eq_def]
  repeat' first
    | with_reducible first
        | assumption | apply State.bump_fixed | apply State.onPic_fixed | apply State.report_fixed | apply State.setTake_fixed | apply State.writeRecord_fixed
        | apply State.earlyCommit_fixed | apply State.takeStep_fixed | apply OutFixed.next
    | split
theorem execVerifyLagExpiry_fixed (p n num) : OutFixed b0 (execVerifyLagExpiry p n num s) := by
  rw [execVerifyLagExpiry.eq_def]
  repeat' first
    | with_reducible first
        | assumption | apply State.bump_fixed | apply State.onPic_fixed | apply State.setTake_fixed | apply State.takeStep_fixed | apply OutFixed.next
    | split
theorem State.setExtent_fixed (e) : (s.setExtent e).Fixed b0 := hs
theorem State.endExtent_fixed (e st) : (s.endExtent e st).Fixed b0 := by
  rw [State.endExtent.eq_def]
  repeat' first | simp only [State.fixed_mk] | (with_reducible first | assumption | apply State.finishById_fixed | apply FixedF.of)
theorem State.nextRead_fixed (rp id) : (s.nextRead rp id).Fixed b0 := by
  rw [State.nextRead.eq_def]
  repeat' first
    | with_reducible first
        | assumption | apply State.issueRead_fixed | apply State.setExtent_fixed | apply State.endExtent_fixed
    | split | dsimp only
theorem execReadExtent_fixed (n k) : OutFixed b0 (execReadExtent n k s) := by
  rw [execReadExtent.eq_def]
  repeat' first
    | simp only [State.fixed_mk]
    | with_reducible first
        | assumption | apply State.finish_fixed | apply State.startSlip_fixed | apply State.nextRead_fixed | apply OutFixed.next | apply FixedF.of
    | split
theorem State.extentRead_fixed (rp id damage) : (s.extentRead rp id damage).Fixed b0 := by
  rw [State.extentRead.eq_def]
  repeat' first
    | with_reducible first
        | assumption | apply State.queueFault_fixed | apply State.slipPieces_fixed | apply State.writePieces_fixed | apply State.issueRead_fixed
        | apply State.setExtent_fixed | apply State.endExtent_fixed | apply State.nextRead_fixed | apply fixed_of_eq1 (he := by assumption)
    | split | dsimp only

/-! The operations of Machine/MagPorts.lean. -/

theorem State.bndBit_fixed (f p v) : (s.bndBit f p v).Fixed b0 := by
  rw [State.bndBit.eq_def]; repeat' (with_reducible first | assumption | apply State.put_fixed)
theorem State.endOp_fixed (p result) : (s.endOp p result).Fixed b0 := by
  rw [State.endOp.eq_def]; repeat' (with_reducible first | assumption | apply State.put_fixed | apply State.setMag_fixed | apply State.raise_fixed)
theorem State.failExtents_fixed (p st) : (s.failExtents p st).Fixed b0 := by
  rw [State.failExtents.eq_def]; repeat' first | (with_reducible first | assumption | apply State.endExtent_fixed | apply foldl_fixed) | intro _
theorem State.letGo_fixed (p state st) : (s.letGo p state st).Fixed b0 := by
  rw [State.letGo.eq_def]
  repeat' first
    | with_reducible first
        | assumption | apply State.put_fixed | apply State.setMag_fixed | apply State.stage_fixed | apply State.setMagState_fixed | apply State.showBnd_fixed
        | apply State.loseTakes_fixed | apply State.bndBit_fixed | apply State.endOp_fixed | apply State.failExtents_fixed
    | split | dsimp only
theorem State.failPort_fixed (p) : (s.failPort p).Fixed b0 := by
  rw [State.failPort.eq_def]; repeat' (with_reducible first | assumption | apply State.letGo_fixed)
theorem execMagPresenceFall_fixed (p m) : OutFixed b0 (execMagPresenceFall p m s) := by
  rw [execMagPresenceFall.eq_def]
  repeat' first | (with_reducible first | assumption | apply State.setMag_fixed | apply State.stage_fixed | apply OutFixed.next) | split | dsimp only
theorem execMagPresenceAccept_fixed (p) : OutFixed b0 (execMagPresenceAccept p s) := by
  rw [execMagPresenceAccept.eq_def]
  repeat' first
    | with_reducible first
        | assumption | apply State.setMag_fixed | apply State.stage_fixed | apply State.setMagState_fixed | apply State.bndBit_fixed | apply OutFixed.next
    | split
theorem execMagPerstRelease_fixed (p) : OutFixed b0 (execMagPerstRelease p s) := by
  rw [execMagPerstRelease.eq_def]
  repeat' first | (with_reducible first | assumption | apply State.setMag_fixed | apply State.stage_fixed | apply OutFixed.next) | split
theorem execMagLinkUp_fixed (p speed width) : OutFixed b0 (execMagLinkUp p speed width s) := by
  rw [execMagLinkUp.eq_def]
  repeat' first
    | with_reducible first
        | assumption | apply State.put_fixed | apply State.setMag_fixed | apply State.stage_fixed | apply State.bndBit_fixed | apply State.failPort_fixed
        | apply OutFixed.next
    | split
theorem execMagLinkTimeout_fixed (p) : OutFixed b0 (execMagLinkTimeout p s) := by
  rw [execMagLinkTimeout.eq_def]
  repeat' first
    | with_reducible first
        | assumption | apply State.setMag_fixed | apply State.stage_fixed | apply State.failPort_fixed | apply OutFixed.next
    | split
theorem execMagControllerReady_fixed (p) : OutFixed b0 (execMagControllerReady p s) := by
  rw [execMagControllerReady.eq_def]
  repeat' first
    | with_reducible first
        | assumption | apply State.setMag_fixed | apply State.stage_fixed | apply State.issue_fixed | apply State.failPort_fixed | apply OutFixed.next
    | split
theorem State.resetController_fixed (p) : (s.resetController p).Fixed b0 := by
  rw [State.resetController.eq_def]
  repeat' first
    | with_reducible first
        | assumption | apply State.setMag_fixed | apply State.stage_fixed | apply State.setMagState_fixed | apply State.failPort_fixed
    | split | dsimp only
theorem State.cmdFails_fixed (p k) : (s.cmdFails p k).Fixed b0 := by
  rw [State.cmdFails.eq_def]
  repeat' first | (with_reducible first | assumption | apply State.setMag_fixed | apply State.report_fixed | apply State.resetController_fixed) | split
theorem execNvmeTimeout_fixed (p k) : OutFixed b0 (execNvmeTimeout p k s) := by
  rw [execNvmeTimeout.eq_def]
  repeat' first
    | with_reducible first
        | assumption | apply State.bump_fixed | apply State.stage_fixed | apply State.failPort_fixed | apply State.cmdFails_fixed | apply OutFixed.next
    | split | dsimp only
theorem State.volumeUp_fixed (p) : (s.volumeUp p).Fixed b0 := by
  rw [State.volumeUp.eq_def]
  repeat' (with_reducible first | assumption | apply State.setMag_fixed | apply State.stage_fixed | apply State.setMagState_fixed | apply State.showBnd_fixed)
theorem State.identified_fixed (p) : (s.identified p).Fixed b0 := by
  rw [State.identified.eq_def]; repeat' first | (with_reducible first | assumption | apply State.issue_fixed | apply State.failPort_fixed) | split
theorem State.vwcRead_fixed (p) : (s.vwcRead p).Fixed b0 := by
  rw [State.vwcRead.eq_def]; repeat' first | (with_reducible first | assumption | apply State.put_fixed | apply State.issueN_fixed) | split
theorem State.queuesMade_fixed (p) : (s.queuesMade p).Fixed b0 := by
  rw [State.queuesMade.eq_def]
  repeat' first | (with_reducible first | assumption | apply State.setMag_fixed | apply State.stage_fixed | apply State.issue_fixed) | split | dsimp only
theorem State.mounted_fixed (p) : (s.mounted p).Fixed b0 := by
  rw [State.mounted.eq_def]
  repeat' first
    | with_reducible first
        | assumption | apply State.put_fixed | apply State.setMag_fixed | apply State.stage_fixed | apply State.setMagState_fixed | apply State.showBnd_fixed
        | apply State.issue_fixed | apply State.startCkpt_fixed | apply State.failPort_fixed | apply State.volumeUp_fixed
    | split | dsimp only
theorem State.ckptDone_fixed (p w) : (s.ckptDone p w).Fixed b0 := by
  rw [State.ckptDone.eq_def]
  repeat' first
    | with_reducible first
        | assumption | apply State.setMag_fixed | apply State.setTake_fixed | apply State.takeStep_fixed | apply State.endOp_fixed | apply State.letGo_fixed
        | apply State.volumeUp_fixed
    | split
theorem State.ckptHeadDone_fixed (p) : (s.ckptHeadDone p).Fixed b0 := by
  rw [State.ckptHeadDone.eq_def]
  repeat' first
    | with_reducible first
        | assumption | apply State.setMag_fixed | apply State.startCkpt_fixed | apply State.ckptDone_fixed | apply foldl_fixed
    | intro _ | split | dsimp only
theorem State.newVolume_fixed (nsze) : (s.newVolume nsze).1.Fixed b0 := hs
theorem State.formatStep_fixed (p step) : (s.formatStep p step).Fixed b0 := by
  rw [State.formatStep.eq_def]
  repeat' first
    | with_reducible first
        | assumption | apply State.setMag_fixed | apply State.stage_fixed | apply State.setMagState_fixed | apply State.showBnd_fixed
        | apply State.issue_fixed | apply State.endOp_fixed
    | split | dsimp only
theorem State.refuseCmd_fixed (p result) : (s.refuseCmd p result).Fixed b0 := by
  rw [State.refuseCmd.eq_def]; repeat' first | (with_reducible first | assumption | apply State.put_fixed) | split
theorem State.beginOp_fixed (p op) : (s.beginOp p op).Fixed b0 := by
  rw [State.beginOp.eq_def]; repeat' (with_reducible first | assumption | apply State.put_fixed | apply State.setMag_fixed)
theorem State.magCmd_fixed (p v) : (s.magCmd p v).Fixed b0 := by
  rw [State.magCmd.eq_def]
  repeat' first
    | with_reducible first
        | assumption | apply State.put_fixed | apply State.setMag_fixed | apply State.stage_fixed | apply State.setMagState_fixed | apply State.showBnd_fixed
        | apply State.issue_fixed | apply State.startCkpt_fixed | apply State.journal_fixed | apply State.ckptDone_fixed | apply State.newVolume_fixed
        | apply State.refuseCmd_fixed | apply State.beginOp_fixed | apply fixed_of_eq1 (he := by assumption)
    | intro _ | split | dsimp only
theorem execFormat_fixed (p key) : OutFixed b0 (execFormat p key s) := by
  rw [execFormat.eq_def]; repeat' first | (with_reducible first | assumption | apply State.magCmd_fixed | apply OutFixed.next)
theorem execEject_fixed (p key) : OutFixed b0 (execEject p key s) := by
  rw [execEject.eq_def]; repeat' first | (with_reducible first | assumption | apply State.magCmd_fixed | apply OutFixed.next)
theorem execRescan_fixed (p key) : OutFixed b0 (execRescan p key s) := by
  rw [execRescan.eq_def]; repeat' first | (with_reducible first | assumption | apply State.magCmd_fixed | apply OutFixed.next)
theorem execDeleteTake_fixed (p key) : OutFixed b0 (execDeleteTake p key s) := by
  rw [execDeleteTake.eq_def]; repeat' first | (with_reducible first | assumption | apply State.magCmd_fixed | apply OutFixed.next)
theorem State.jobDone_fixed (p c reply damage) : (s.jobDone p c reply damage).Fixed b0 := by
  rw [State.jobDone.eq_def]
  repeat' first
    | with_reducible first
        | assumption | apply State.put_fixed | apply State.reply_fixed | apply State.issue_fixed | apply State.startCkpt_fixed | apply State.stampCommit_fixed
        | apply State.writeClose_fixed | apply State.durableOn_fixed | apply State.takeStep_fixed | apply State.openedOn_fixed | apply State.markedOn_fixed
        | apply State.recordWritten_fixed | apply State.readBack_fixed | apply State.extentRead_fixed | apply State.identified_fixed
        | apply State.vwcRead_fixed | apply State.queuesMade_fixed | apply State.mounted_fixed | apply State.ckptHeadDone_fixed | apply State.formatStep_fixed
    | split
theorem execNvmeCompletion_fixed (p k ok reply damage) : OutFixed b0 (execNvmeCompletion p k ok reply damage s) := by
  rw [execNvmeCompletion.eq_def]
  repeat' first
    | with_reducible first
        | assumption | apply State.bump_fixed | apply State.setMag_fixed | apply State.reply_fixed | apply State.nextRead_fixed | apply State.cmdFails_fixed
        | apply State.jobDone_fixed | apply foldl_fixed | apply OutFixed.next
    | intro _ | split | dsimp only
theorem execHealthLogTimer_fixed (p) : OutFixed b0 (execHealthLogTimer p s) := by
  rw [execHealthLogTimer.eq_def]
  repeat' first | (with_reducible first | assumption | apply State.stage_fixed | apply State.issue_fixed | apply OutFixed.next) | split
theorem execMagRemoval_fixed (p) : OutFixed b0 (execMagRemoval p s) := by
  rw [execMagRemoval.eq_def]
  repeat' first
    | with_reducible first
        | assumption | apply State.setMag_fixed | apply State.stage_fixed | apply State.bndBit_fixed | apply State.letGo_fixed | apply OutFixed.next
    | split | dsimp only
theorem execMagLinkLoss_fixed (p) : OutFixed b0 (execMagLinkLoss p s) := by
  rw [execMagLinkLoss.eq_def]
  repeat' first | (with_reducible first | assumption | apply State.stage_fixed | apply State.letGo_fixed | apply OutFixed.next) | split
theorem State.magSleep_fixed (p) : (s.magSleep p).Fixed b0 := by
  rw [State.magSleep.eq_def]; repeat' (with_reducible first | assumption | apply State.setMag_fixed | apply State.bndBit_fixed | apply State.letGo_fixed)
theorem State.magAgain_fixed (p) : (s.magAgain p).Fixed b0 := by
  rw [State.magAgain.eq_def]
  repeat' first
    | with_reducible first
        | assumption | apply State.setMag_fixed | apply State.stage_fixed | apply State.setMagState_fixed | apply State.bndBit_fixed
    | split

/-! The operations of Machine/Reset.lean. -/

theorem State.safePads_fixed : s.safePads.Fixed b0 := hs
theorem State.unpowered_fixed (aon) : (s.unpowered aon).Fixed b0 := by
  rw [State.unpowered.eq_def]; repeat' first | simp only [State.fixed_mk] | (with_reducible first | assumption | apply State.put_fixed | apply FixedF.of)
theorem execPowerOn_fixed : OutFixed b0 (execPowerOn s) := by
  rw [execPowerOn.eq_def]; repeat' first | (with_reducible first | assumption | apply State.unpowered_fixed | apply OutFixed.next) | split
theorem execPowerDown_fixed : OutFixed b0 (execPowerDown s) := by
  rw [execPowerDown.eq_def]; repeat' (with_reducible first | assumption | apply State.unpowered_fixed | apply OutFixed.next)
theorem execSupplyFault_fixed : OutFixed b0 (execSupplyFault s) := by
  rw [execSupplyFault.eq_def]
  repeat' first
    | simp only [State.fixed_mk]
    | with_reducible first
        | assumption | apply State.requestReset_fixed | apply State.safePads_fixed | apply OutFixed.next | apply FixedF.of
    | split
theorem State.pulseTaken_fixed (ns) : (s.pulseTaken ns).1.Fixed b0 := by
  refine P1Fixed.fixed ?_; rw [State.pulseTaken.eq_def]
  repeat' first | (with_reducible first | assumption | apply State.draw_fixed | apply P1Fixed.mk1) | split
theorem execSysResetN_fixed (ns) : OutFixed b0 (execSysResetN ns s) := by
  rw [execSysResetN.eq_def]
  repeat' first
    | simp only [State.fixed_mk]
    | with_reducible first
        | assumption | apply State.requestReset_fixed | apply State.safePads_fixed | apply State.pulseTaken_fixed | apply OutFixed.next | apply FixedF.of
    | split
theorem execPerstN_fixed (ns) : OutFixed b0 (execPerstN ns s) := by
  rw [execPerstN.eq_def]
  repeat' first
    | simp only [State.fixed_mk]
    | with_reducible first
        | assumption | apply State.requestReset_fixed | apply State.safePads_fixed | apply State.pulseTaken_fixed | apply OutFixed.next | apply FixedF.of
    | split
theorem execSysRefclkLost_fixed : OutFixed b0 (execSysRefclkLost s) := by
  rw [execSysRefclkLost.eq_def]
  repeat' first | simp only [State.fixed_mk] | (with_reducible first | assumption | apply State.put_fixed | apply OutFixed.next | apply FixedF.of)
theorem execSysRefclkReturn_fixed : OutFixed b0 (execSysRefclkReturn s) := by
  rw [execSysRefclkReturn.eq_def]
  repeat' first
    | simp only [State.fixed_mk]
    | with_reducible first
        | assumption | apply State.put_fixed | apply State.requestReset_fixed | apply OutFixed.next | apply FixedF.of
    | split
theorem State.showSparePair_fixed : s.showSparePair.Fixed b0 := by
  rw [State.showSparePair.eq_def]; repeat' (with_reducible first | assumption | apply State.put_fixed)
theorem State.beginStart_fixed : s.beginStart.Fixed b0 := by
  rw [State.beginStart.eq_def]
  repeat' first
    | simp only [State.fixed_mk]
    | with_reducible first
        | assumption | apply State.put_fixed | apply State.alertRise_fixed | apply FixedF.of
    | split
theorem State.applyDeny_fixed : s.applyDeny.Fixed b0 := by
  rw [State.applyDeny.eq_def]; repeat' first | (with_reducible first | assumption | apply State.wr_fixed | apply foldl_fixed) | intro _
theorem State.warmPace_fixed : s.warmPace.Fixed b0 := by
  rw [State.warmPace.eq_def]; repeat' first | (with_reducible first | assumption | apply State.put_fixed | apply State.rampDone_fixed) | split | dsimp only
theorem execResetRelease_fixed : OutFixed b0 (execResetRelease s) := by
  rw [execResetRelease.eq_def]
  repeat' first
    | simp only [State.fixed_mk]
    | with_reducible first
        | assumption | apply State.put_fixed | apply State.consResume_fixed | apply State.safePads_fixed | apply State.showSparePair_fixed
        | apply State.beginStart_fixed | apply State.applyDeny_fixed | apply State.warmPace_fixed | apply foldl_fixed | apply OutFixed.next | apply FixedF.of
    | intro _ | split
theorem State.keyErr_fixed : s.keyErr.Fixed b0 := by
  rw [State.keyErr.eq_def]; repeat' first | simp only [State.fixed_mk] | (with_reducible first | assumption | apply State.bump_fixed | apply FixedF.of)
theorem execRstKey_fixed (v) : OutFixed b0 (execRstKey v s) := by
  rw [execRstKey.eq_def]
  repeat' first | simp only [State.fixed_mk] | (with_reducible first | assumption | apply State.keyErr_fixed | apply OutFixed.next | apply FixedF.of) | split
theorem State.rstCmd_fixed (key2) : (s.rstCmd key2).1.Fixed b0 := by
  refine P1Fixed.fixed ?_; rw [State.rstCmd.eq_def]
  repeat' first | simp only [State.fixed_mk] | (with_reducible first | assumption | apply State.keyErr_fixed | apply P1Fixed.mk1 | apply FixedF.of) | split
theorem execColdResetCommand_fixed (key2) : OutFixed b0 (execColdResetCommand key2 s) := by
  rw [execColdResetCommand.eq_def]
  repeat' first | (with_reducible first | assumption | apply State.requestReset_fixed | apply State.rstCmd_fixed | apply OutFixed.next) | split
theorem execWarmResetCommand_fixed (key2) : OutFixed b0 (execWarmResetCommand key2 s) := by
  rw [execWarmResetCommand.eq_def]
  repeat' first | (with_reducible first | assumption | apply State.requestReset_fixed | apply State.rstCmd_fixed | apply OutFixed.next) | split
theorem State.stopUnit_fixed (u) : (s.stopUnit u).Fixed b0 := by
  rw [State.stopUnit.eq_def]
  repeat' first
    | with_reducible first
        | assumption | apply State.put_fixed | apply State.setEngine_fixed | apply State.onPic_fixed | apply State.loseWork_fixed
        | apply State.fenceStacks_fixed | apply State.dropFaults_fixed | apply State.abandon_fixed | apply State.sensorLoss_fixed | apply State.netFall_fixed
        | apply State.stage_fixed | apply State.letGo_fixed | apply State.showSparePair_fixed
    | split | dsimp only
theorem execUnitReset_fixed (key2 u) : OutFixed b0 (execUnitReset key2 u s) := by
  rw [execUnitReset.eq_def]
  repeat' first
    | simp only [State.fixed_mk]
    | with_reducible first
        | assumption | apply State.put_fixed | apply State.report_fixed | apply State.rstCmd_fixed | apply State.stopUnit_fixed | apply OutFixed.next
        | apply FixedF.of
    | split
theorem State.returnEngine_fixed (i) : (s.returnEngine i).Fixed b0 := by
  rw [State.returnEngine.eq_def]
  repeat' first
    | simp only [State.fixed_mk]
    | with_reducible first
        | assumption | apply State.put_fixed | apply State.showSpares_fixed | apply State.showLedger_fixed | apply FixedF.of
    | split
theorem execUnitResetDone_fixed : OutFixed b0 (execUnitResetDone s) := by
  rw [execUnitResetDone.eq_def]
  repeat' first
    | simp only [State.fixed_mk]
    | with_reducible first
        | assumption | apply State.put_fixed | apply State.putBit_fixed | apply State.loadStore_fixed | apply State.topSpares_fixed
        | apply State.magAgain_fixed | apply State.showSparePair_fixed | apply State.returnEngine_fixed | apply OutFixed.next | apply FixedF.of
    | split
theorem State.setDomain_fixed (d v) : (s.setDomain d v).Fixed b0 := by
  rw [State.setDomain.eq_def]; repeat' first | (with_reducible first | assumption | apply State.bump_fixed | apply State.putBit_fixed) | split
theorem State.domainOff_fixed (d) : (s.domainOff d).Fixed b0 := by
  rw [State.domainOff.eq_def]
  repeat' first
    | with_reducible first
        | assumption | apply State.put_fixed | apply State.setEngine_fixed | apply State.portLp_fixed | apply State.netFall_fixed | apply State.stage_fixed
        | apply State.magSleep_fixed | apply State.setDomain_fixed
    | split
theorem State.domainUp_fixed (d) : (s.domainUp d).Fixed b0 := by
  rw [State.domainUp.eq_def]
  repeat' first
    | with_reducible first
        | assumption | apply State.put_fixed | apply State.loadStore_fixed | apply State.topSpares_fixed | apply State.setDomain_fixed
    | split
theorem State.refuseDomain_fixed (d reason) : (s.refuseDomain d reason).Fixed b0 := by
  rw [State.refuseDomain.eq_def]; repeat' (with_reducible first | assumption | apply State.put_fixed)
theorem State.requestDomain_fixed (d v) : (s.requestDomain d v).Fixed b0 := by
  rw [State.requestDomain.eq_def]
  repeat' first | (with_reducible first | assumption | apply State.putBit_fixed | apply State.domainOff_fixed | apply State.refuseDomain_fixed) | split
theorem execPdReqWrite_fixed (byHost k v) : OutFixed b0 (execPdReqWrite byHost k v s) := by
  rw [execPdReqWrite.eq_def]
  repeat' first | (with_reducible first | assumption | apply State.requestDomain_fixed | apply foldl_fixed | apply OutFixed.next) | intro _ | split
theorem execDomainOnDone_fixed (d) : OutFixed b0 (execDomainOnDone d s) := by
  rw [execDomainOnDone.eq_def]; repeat' first | (with_reducible first | assumption | apply State.domainUp_fixed | apply OutFixed.next) | split

/-! The operations of Machine/Sleep.lean. -/

theorem State.sleepRequest_fixed (req key) : (s.sleepRequest req key).Fixed b0 := by
  rw [State.sleepRequest.eq_def]
  repeat' first
    | simp only [State.fixed_mk]
    | with_reducible first
        | assumption | apply State.put_fixed | apply State.sleepEnd_fixed | apply State.unwind_fixed | apply FixedF.of
    | split
theorem execSleepStandby_fixed (key) : OutFixed b0 (execSleepStandby key s) := by
  rw [execSleepStandby.eq_def]; repeat' (with_reducible first | assumption | apply State.sleepRequest_fixed | apply OutFixed.next)
theorem execSleepVault_fixed (key) : OutFixed b0 (execSleepVault key s) := by
  rw [execSleepVault.eq_def]; repeat' (with_reducible first | assumption | apply State.sleepRequest_fixed | apply OutFixed.next)
theorem State.domainsOff_fixed (lo n) : (s.domainsOff lo n).Fixed b0 := by
  rw [State.domainsOff.eq_def]; repeat' first | (with_reducible first | assumption | apply State.domainOff_fixed | apply foldl_fixed) | intro _ | split
theorem State.domainsBack_fixed (lo n) : (s.domainsBack lo n).Fixed b0 := by
  rw [State.domainsBack.eq_def]; repeat' first | (with_reducible first | assumption | apply State.domainUp_fixed | apply foldl_fixed) | intro _ | split
theorem State.portsOff_fixed : s.portsOff.Fixed b0 := by
  rw [State.portsOff.eq_def]
  repeat' first
    | with_reducible first
        | assumption | apply State.showHold_fixed | apply State.stage_fixed | apply State.magSleep_fixed | apply State.domainsOff_fixed | apply foldl_fixed
    | intro _ | split
theorem State.haltHart_fixed (h ops) : (s.haltHart h ops).Fixed b0 := by
  rw [State.haltHart.eq_def]
  repeat' first
    | with_reducible first
        | assumption | apply State.setHart_fixed | apply State.coreRun_fixed | apply State.checkpoint_fixed
    | split | dsimp only
theorem State.curatorsOff_fixed (ops) : (s.curatorsOff ops).Fixed b0 := by
  rw [State.curatorsOff.eq_def]
  repeat' first | (with_reducible first | assumption | apply State.domainsOff_fixed | apply State.haltHart_fixed | apply foldl_fixed) | intro _
theorem State.selfRefresh_fixed : s.selfRefresh.Fixed b0 := by
  rw [State.selfRefresh.eq_def]
  repeat' first
    | simp only [State.fixed_mk]
    | with_reducible first
        | assumption | apply State.put_fixed | apply State.setChan_fixed | apply State.landWrite_fixed | apply State.showRamp_fixed | apply foldl_fixed
        | apply FixedF.of
    | intro _
theorem State.vaultWipe_fixed : s.vaultWipe.Fixed b0 := by
  rw [State.vaultWipe.eq_def]
  repeat' first
    | simp only [State.fixed_mk]
    | with_reducible first
        | assumption | apply State.put_fixed | apply State.putBit_fixed | apply State.setHart_fixed | apply foldl_fixed | apply FixedF.of
    | intro _ | split
theorem execSleepStepDone_fixed (ops) : OutFixed b0 (execSleepStepDone ops s) := by
  rw [execSleepStepDone.eq_def]
  repeat' first
    | simp only [State.fixed_mk]
    | with_reducible first
        | assumption | apply State.put_fixed | apply State.unwind_fixed | apply State.domainsOff_fixed | apply State.portsOff_fixed
        | apply State.curatorsOff_fixed | apply State.selfRefresh_fixed | apply State.vaultWipe_fixed | apply OutFixed.next | apply FixedF.of
    | split
theorem execPmeTurnOff_fixed : OutFixed b0 (execPmeTurnOff s) := by
  rw [execPmeTurnOff.eq_def]; repeat' first | simp only [State.fixed_mk] | (with_reducible first | assumption | apply OutFixed.next | apply FixedF.of) | split
theorem execL2Timeout_fixed : OutFixed b0 (execL2Timeout s) := by
  rw [execL2Timeout.eq_def]; repeat' first | (with_reducible first | assumption | apply State.unwind_fixed | apply OutFixed.next) | split
theorem State.linkBack_fixed : s.linkBack.Fixed b0 := hs
theorem State.tryLink_fixed : s.tryLink.Fixed b0 := by
  rw [State.tryLink.eq_def]; repeat' first | (with_reducible first | assumption | apply State.linkBack_fixed) | split
theorem State.perstUp_fixed : s.perstUp.Fixed b0 := by
  rw [State.perstUp.eq_def]
  repeat' first | simp only [State.fixed_mk] | (with_reducible first | assumption | apply State.linkBack_fixed | apply FixedF.of) | split
theorem execWakeEvent_fixed (src) : OutFixed b0 (execWakeEvent src s) := by
  rw [execWakeEvent.eq_def]
  repeat' first | (with_reducible first | assumption | apply State.wakeEvent_fixed | apply State.perstUp_fixed | apply OutFixed.next) | split
theorem State.hartsBack_fixed : s.hartsBack.Fixed b0 := by
  rw [State.hartsBack.eq_def]
  repeat' first | (with_reducible first | assumption | apply State.setHart_fixed | apply State.loadSave_fixed | apply foldl_fixed) | intro _ | split
theorem State.curatorsOn_fixed : s.curatorsOn.Fixed b0 := by
  rw [State.curatorsOn.eq_def]
  repeat' (with_reducible first | assumption | apply State.showSparePair_fixed | apply State.domainsBack_fixed | apply State.hartsBack_fixed)
theorem State.portsOn_fixed : s.portsOn.Fixed b0 := by
  rw [State.portsOn.eq_def]
  repeat' first
    | with_reducible first
        | assumption | apply State.stage_fixed | apply State.magAgain_fixed | apply State.domainsBack_fixed | apply foldl_fixed
    | intro _ | split
theorem State.unwound_fixed (cause req) : (s.unwound cause req).Fixed b0 := by
  rw [State.unwound.eq_def]
  repeat' first
    | simp only [State.fixed_mk]
    | with_reducible first
        | assumption | apply State.put_fixed | apply State.sleepEnd_fixed | apply State.unwind_fixed | apply State.keptDoorbells_fixed | apply FixedF.of
theorem State.undo_fixed (cause req k) : (s.undo cause req k).Fixed b0 := by
  rw [State.undo.eq_def]
  repeat' first
    | simp only [State.fixed_mk]
    | with_reducible first
        | assumption | apply State.unwind_fixed | apply State.domainsBack_fixed | apply State.tryLink_fixed | apply State.curatorsOn_fixed
        | apply State.portsOn_fixed | apply State.unwound_fixed | apply FixedF.of
    | split
theorem State.coreBack_fixed : s.coreBack.Fixed b0 := by
  rw [State.coreBack.eq_def]
  repeat' first | (with_reducible first | assumption | apply State.putBit_fixed | apply State.consResume_fixed | apply foldl_fixed) | intro _
theorem State.secureBytes_fixed : s.secureBytes.1.Fixed b0 := by
  refine P1Fixed.fixed ?_; rw [State.secureBytes.eq_def]
  repeat' first | (with_reducible first | assumption | apply State.readMem_fixed | apply foldl_fixed1 | apply P1Fixed.mk1) | intro _
theorem State.wakeToStart_fixed (src) : (s.wakeToStart src).Fixed b0 := by
  rw [State.wakeToStart.eq_def]
  repeat' first
    | simp only [State.fixed_mk]
    | with_reducible first
        | assumption | apply State.put_fixed | apply State.putBit_fixed | apply State.sleepEnd_fixed | apply State.advance_fixed
        | apply State.beginStart_fixed | apply State.tryLink_fixed | apply FixedF.of
theorem State.woken_fixed (src vault t) : (s.woken src vault t).Fixed b0 := by
  rw [State.woken.eq_def]
  repeat' first
    | simp only [State.fixed_mk]
    | with_reducible first
        | assumption | apply State.put_fixed | apply State.sleepEnd_fixed | apply State.keptDoorbells_fixed | apply FixedF.of
    | split
theorem State.wakeStep_fixed (src vault k t) : (s.wakeStep src vault k t).Fixed b0 := by
  rw [State.wakeStep.eq_def]
  repeat' first
    | simp only [State.fixed_mk]
    | with_reducible first
        | assumption | apply State.putBit_fixed | apply State.domainsBack_fixed | apply State.tryLink_fixed | apply State.curatorsOn_fixed
        | apply State.portsOn_fixed | apply State.coreBack_fixed | apply State.secureBytes_fixed | apply State.wakeToStart_fixed | apply State.woken_fixed
        | apply FixedF.of
    | split
theorem execWakeStepDone_fixed : OutFixed b0 (execWakeStepDone s) := by
  rw [execWakeStepDone.eq_def]
  repeat' first
    | with_reducible first
        | assumption | apply State.unwind_fixed | apply State.undo_fixed | apply State.wakeStep_fixed | apply OutFixed.next
    | split

/-! The operations of Machine/Keeper.lean. -/

theorem State.putWords_fixed (base l) : (s.putWords base l).Fixed b0 := by
  rw [State.putWords.eq_def]; repeat' first | (with_reducible first | assumption | apply State.wr_fixed | apply foldl_fixed) | intro _
theorem State.showCounter_fixed : s.showCounter.Fixed b0 := by
  rw [State.showCounter.eq_def]; repeat' (with_reducible first | assumption | apply State.wr_fixed | apply State.putPair_fixed)
theorem State.raiseCounter_fixed : s.raiseCounter.Fixed b0 := by
  rw [State.raiseCounter.eq_def]
  repeat' first
    | simp only [State.fixed_mk]
    | with_reducible first
        | assumption | apply State.put_fixed | apply State.advance_fixed | apply State.showCounter_fixed | apply FixedF.of
    | split
theorem execFuseLoadDone_fixed (f) : OutFixed b0 (execFuseLoadDone f s) := by
  rw [execFuseLoadDone.eq_def]
  repeat' first
    | simp only [State.fixed_mk]
    | with_reducible first
        | assumption | apply State.wr_fixed | apply State.put_fixed | apply State.alertRise_fixed | apply State.deny_fixed | apply State.consStart_fixed
        | apply State.safePads_fixed | apply State.applyDeny_fixed | apply State.putWords_fixed | apply State.showCounter_fixed | apply OutFixed.next
        | apply FixedF.of
    | split
theorem execVddFuseRamp_fixed (inRange) : OutFixed b0 (execVddFuseRamp inRange s) := by
  rw [execVddFuseRamp.eq_def]
  repeat' first
    | simp only [State.fixed_mk]
    | with_reducible first
        | assumption | apply State.put_fixed | apply State.raiseCounter_fixed | apply OutFixed.next | apply FixedF.of
    | split
theorem State.zeroRange_fixed (a n) : (s.zeroRange a n).Fixed b0 := by
  rw [State.zeroRange.eq_def]
  repeat' first | simp only [State.fixed_mk] | (with_reducible first | assumption | apply State.setChan_fixed | apply foldl_fixed | apply FixedF.of) | intro _
theorem execWindowClearDone_fixed : OutFixed b0 (execWindowClearDone s) := by
  rw [execWindowClearDone.eq_def]
  repeat' first
    | simp only [State.fixed_mk]
    | with_reducible first
        | assumption | apply State.put_fixed | apply State.zeroRange_fixed | apply OutFixed.next | apply FixedF.of
    | split
theorem execWindowWrite_fixed (off data) : OutFixed b0 (execWindowWrite off data s) := by
  rw [execWindowWrite.eq_def]
  repeat' first
    | with_reducible first
        | assumption | apply State.bump_fixed | apply State.linkActivity_fixed | apply State.writeMem_fixed | apply OutFixed.next
    | split | dsimp only
theorem State.mbxCopy_fixed : s.mbxCopy.1.Fixed b0 := by
  rw [State.mbxCopy]
  with_reducible apply fst_fixed
  with_reducible apply State.readMem_fixed
  with_reducible apply State.readMem_fixed
  all_goals assumption
theorem State.mbxRespond_fixed (seq status data) : (s.mbxRespond seq status data).Fixed b0 := by
  rw [State.mbxRespond]
  repeat' first
    | with_reducible first
        | assumption | apply State.put_fixed | apply State.raise_fixed | apply State.writeMem_fixed | apply State.fireVec_fixed
    | split
theorem State.mbxMode_fixed (word) : (s.mbxMode word).Fixed b0 := by
  rw [State.mbxMode.eq_def]; repeat' (with_reducible first | assumption | apply State.put_fixed)
theorem State.mbxHold_fixed (r) : (s.mbxHold r).Fixed b0 := by
  rw [State.mbxHold.eq_def]; repeat' first | simp only [State.fixed_mk] | (with_reducible first | assumption | apply State.put_fixed | apply FixedF.of)
theorem State.mbxAsk_fixed (word) : (s.mbxAsk word).Fixed b0 := by
  rw [State.mbxAsk.eq_def]
  repeat' first
    | with_reducible first
        | assumption | apply State.put_fixed | apply State.mbxCopy_fixed | apply State.mbxMode_fixed | apply State.mbxHold_fixed
    | split | dsimp only
theorem State.mbxGo_fixed (word p serve) (h_serve : ∀ r (s : State), s.Fixed b0 → (serve r s).Fixed b0) : (s.mbxGo word p serve).Fixed b0 := by
  rw [State.mbxGo.eq_def]
  repeat' first
    | simp only [State.fixed_mk]
    | with_reducible first
        | assumption | apply h_serve | apply State.put_fixed | apply State.mbxCopy_fixed | apply State.mbxMode_fixed | apply FixedF.of
    | split
theorem State.mbxServe_fixed (word op f) (h_f : ∀ r (s : State), s.Fixed b0 → (f r s).1.Fixed b0) : (s.mbxServe word op f).Fixed b0 := by
  rw [State.mbxServe.eq_def]
  repeat' first | (with_reducible first | assumption | apply h_f | apply State.mbxRespond_fixed | apply State.mbxGo_fixed) | intro _ | split
theorem execMailboxUnknownOpcode_fixed (word) : OutFixed b0 (execMailboxUnknownOpcode word s) := by
  rw [execMailboxUnknownOpcode.eq_def]
  repeat' first | (with_reducible first | assumption | apply State.mbxRespond_fixed | apply State.mbxGo_fixed | apply OutFixed.next) | intro _
theorem State.verifyBundle_fixed (r cs) : (s.verifyBundle r cs).Fixed b0 := by
  rw [State.verifyBundle.eq_def]
  repeat' first
    | simp only [State.fixed_mk]
    | with_reducible first
        | assumption | apply State.put_fixed | apply State.readMem_fixed | apply State.writeMem_fixed | apply State.advance_fixed | apply foldl_fixed
        | apply FixedF.of
    | intro _
theorem execLoad_fixed (word cs) : OutFixed b0 (execLoad word cs s) := by
  rw [execLoad.eq_def]
  repeat' first
    | with_reducible first
        | assumption | apply State.mbxRespond_fixed | apply State.mbxGo_fixed | apply State.verifyBundle_fixed | apply OutFixed.next
    | intro _ | split
theorem State.setLaunch_fixed (d) : (s.setLaunch d).Fixed b0 := hs
theorem State.setCopies_fixed (j v0 v1) : (s.setCopies j v0 v1).Fixed b0 := by
  rw [State.setCopies.eq_def]; repeat' first | simp only [State.fixed_mk] | (with_reducible first | assumption | apply State.wr_fixed | apply FixedF.of)
theorem State.startUnits_fixed : s.startUnits.Fixed b0 := by
  rw [State.startUnits.eq_def]
  repeat' first
    | with_reducible first
        | assumption | apply State.putBit_fixed | apply State.setHart_fixed | apply State.loadStore_fixed | apply State.setDomain_fixed | apply foldl_fixed
    | intro _ | split
theorem State.noteBundle_fixed (j) : (s.noteBundle j).Fixed b0 := by
  rw [State.noteBundle.eq_def]; repeat' first | simp only [State.fixed_mk] | (with_reducible first | assumption | apply State.advance_fixed | apply FixedF.of)
theorem State.launch_fixed (j) : (s.launch j).Fixed b0 := by
  rw [State.launch]
  repeat' first
    | with_reducible first
        | assumption | apply State.draw_fixed | apply State.showSparePair_fixed | apply State.secureBytes_fixed | apply State.putWords_fixed
        | apply State.setLaunch_fixed | apply State.setCopies_fixed | apply State.startUnits_fixed | apply State.noteBundle_fixed
theorem execLoadComplete_fixed : OutFixed b0 (execLoadComplete s) := by
  rw [execLoadComplete.eq_def]
  repeat' first
    | simp only [State.fixed_mk]
    | with_reducible first
        | assumption | apply State.put_fixed | apply State.mbxRespond_fixed | apply State.launch_fixed | apply OutFixed.next | apply FixedF.of
    | split
theorem execAgeingPut_fixed (word macOk) : OutFixed b0 (execAgeingPut word macOk s) := by
  rw [execAgeingPut.eq_def]
  repeat' first
    | simp only [State.fixed_mk]
    | with_reducible first
        | assumption | apply State.adopt_fixed | apply State.mbxServe_fixed | apply OutFixed.next | apply FixedF.of
    | intro _ | split
theorem State.ageingRecord_fixed : s.ageingRecord.1.Fixed b0 := by
  refine P1Fixed.fixed ?_; rw [State.ageingRecord.eq_def]; repeat' (with_reducible first | assumption | apply State.draw_fixed | apply P1Fixed.mk1)
theorem execAgeingGet_fixed (word) : OutFixed b0 (execAgeingGet word s) := by
  rw [execAgeingGet.eq_def]
  repeat' first | (with_reducible first | assumption | apply State.mbxServe_fixed | apply State.ageingRecord_fixed | apply OutFixed.next) | intro _ | split
theorem State.windowResult_fixed (r l) : (s.windowResult r l).1.Fixed b0 := by
  refine P1Fixed.fixed ?_; rw [State.windowResult.eq_def]
  repeat' first | (with_reducible first | assumption | apply State.writeMem_fixed | apply P1Fixed.mk1) | split
theorem execIdentity_fixed (word) : OutFixed b0 (execIdentity word s) := by
  rw [execIdentity.eq_def]
  repeat' first | (with_reducible first | assumption | apply State.mbxServe_fixed | apply State.windowResult_fixed | apply OutFixed.next) | intro _ | split
theorem execAttest_fixed (word) : OutFixed b0 (execAttest word s) := by
  rw [execAttest.eq_def]
  repeat' first
    | with_reducible first
        | assumption | apply State.draw_fixed | apply State.mbxServe_fixed | apply State.windowResult_fixed | apply OutFixed.next
    | intro _ | split
theorem execAlive_fixed (bar0 key) : OutFixed b0 (execAlive bar0 key s) := by
  rw [execAlive.eq_def]
  repeat' first
    | simp only [State.fixed_mk]
    | with_reducible first
        | assumption | apply State.wr_fixed | apply State.put_fixed | apply State.alertRise_fixed | apply State.adopt_fixed | apply State.beginEpoch_fixed
        | apply State.raiseCounter_fixed | apply OutFixed.next | apply FixedF.of
    | split
theorem execStartDeadline_fixed : OutFixed b0 (execStartDeadline s) := by
  rw [execStartDeadline.eq_def]
  repeat' first
    | simp only [State.fixed_mk]
    | with_reducible first
        | assumption | apply State.put_fixed | apply State.setHart_fixed | apply State.requestReset_fixed | apply State.advance_fixed | apply foldl_fixed
        | apply OutFixed.next | apply FixedF.of
    | intro _ | split
theorem execKeeperLockstepMismatch_fixed : OutFixed b0 (execKeeperLockstepMismatch s) := by
  rw [execKeeperLockstepMismatch.eq_def]
  repeat' first
    | simp only [State.fixed_mk]
    | with_reducible first
        | assumption | apply State.put_fixed | apply State.reportAs_fixed | apply OutFixed.next | apply FixedF.of
    | split

/-! The operations of Machine/Mmu.lean. -/

theorem State.failEngine_fixed (i) : (s.failEngine i).Fixed b0 := by
  rw [State.failEngine.eq_def]
  repeat' first
    | with_reducible first
        | assumption | apply State.put_fixed | apply State.setEngine_fixed | apply State.loseWork_fixed | apply State.abandon_fixed
    | split
theorem State.faultFor_fixed (who asid va write kind level) : (s.faultFor who asid va write kind level).Fixed b0 := by
  rw [State.faultFor.eq_def]
  repeat' first
    | with_reducible first
        | assumption | apply State.put_fixed | apply State.finish_fixed | apply State.abandon_fixed | apply State.queueFault_fixed
        | apply State.setDmaState_fixed | apply State.endSlip_fixed | apply State.failEngine_fixed
    | split
theorem State.retry_fixed (r) : (s.retry r).Fixed b0 := by
  rw [State.retry.eq_def]
  repeat' first
    | with_reducible first
        | assumption | apply State.put_fixed | apply State.translate_fixed | apply State.setDmaState_fixed | apply State.faultFor_fixed
        | apply fixed_of_eq1 (he := by assumption)
    | split
theorem State.abortAccess_fixed (r) : (s.abortAccess r).Fixed b0 := by
  rw [State.abortAccess.eq_def]
  repeat' first | (with_reducible first | assumption | apply State.finish_fixed | apply State.endSlip_fixed | apply State.failEngine_fixed) | split
theorem State.popFault_fixed : s.popFault.Fixed b0 := by
  rw [State.popFault.eq_def]
  repeat' first | simp only [State.fixed_mk] | (with_reducible first | assumption | apply State.refillFaults_fixed | apply FixedF.of)
theorem execTranslationWalk_fixed (who va write) : OutFixed b0 (execTranslationWalk who va write s) := by
  rw [execTranslationWalk.eq_def]
  repeat' first
    | with_reducible first
        | assumption | apply State.setEngine_fixed | apply State.reply_fixed | apply State.protect_fixed | apply State.translate_fixed
        | apply State.failEngine_fixed | apply State.faultFor_fixed | apply OutFixed.next | apply fixed_of_eq1 (he := by assumption)
    | split | dsimp only
theorem execResume_fixed (id) : OutFixed b0 (execResume id s) := by
  rw [execResume.eq_def]
  repeat' first
    | with_reducible first
        | assumption | apply State.put_fixed | apply State.retry_fixed | apply State.popFault_fixed | apply OutFixed.next
    | split
theorem execAbort_fixed (id) : OutFixed b0 (execAbort id s) := by
  rw [execAbort.eq_def]
  repeat' first
    | with_reducible first
        | assumption | apply State.put_fixed | apply State.abortAccess_fixed | apply State.popFault_fixed | apply OutFixed.next
    | split
theorem execFaultRecordTimeout_fixed : OutFixed b0 (execFaultRecordTimeout s) := by
  rw [execFaultRecordTimeout.eq_def]
  repeat' first
    | simp only [State.fixed_mk]
    | with_reducible first
        | assumption | apply State.put_fixed | apply State.refillFaults_fixed | apply State.report_fixed | apply State.abortAccess_fixed | apply OutFixed.next
        | apply FixedF.of
    | split
theorem State.dropCached_fixed (p) : (s.dropCached p).Fixed b0 := by
  rw [State.dropCached.eq_def]
  repeat' first
    | simp only [State.fixed_mk]
    | with_reducible first
        | assumption | apply State.setEngine_fixed | apply foldl_fixed | apply FixedF.of
    | intro _
theorem State.invalidate_fixed (p) : (s.invalidate p).Fixed b0 := by
  rw [State.invalidate.eq_def]; repeat' first | (with_reducible first | assumption | apply State.put_fixed | apply State.dropCached_fixed) | split
theorem execInvalidateAll_fixed : OutFixed b0 (execInvalidateAll s) := by
  rw [execInvalidateAll.eq_def]; repeat' (with_reducible first | assumption | apply State.invalidate_fixed | apply OutFixed.next)
theorem execInvalidateAsid_fixed (asid) : OutFixed b0 (execInvalidateAsid asid s) := by
  rw [execInvalidateAsid.eq_def]; repeat' (with_reducible first | assumption | apply State.invalidate_fixed | apply OutFixed.next)
theorem execInvalidatePage_fixed (asid) : OutFixed b0 (execInvalidatePage asid s) := by
  rw [execInvalidatePage.eq_def]; repeat' (with_reducible first | assumption | apply State.invalidate_fixed | apply OutFixed.next)
theorem execInvalidationDone_fixed : OutFixed b0 (execInvalidationDone s) := by
  rw [execInvalidationDone.eq_def]; repeat' (with_reducible first | assumption | apply State.put_fixed | apply OutFixed.next)
theorem execContextCommit_fixed (a hi) : OutFixed b0 (execContextCommit a hi s) := by
  rw [execContextCommit.eq_def]; repeat' (with_reducible first | assumption | apply State.put_fixed | apply State.dropCached_fixed | apply OutFixed.next)
theorem execGrantFence_fixed (i) : OutFixed b0 (execGrantFence i s) := by
  rw [execGrantFence.eq_def]; repeat' (with_reducible first | assumption | apply State.fence_fixed | apply OutFixed.next)

/-! The operations of Machine/PictureSlips.lean. -/

theorem State.readPlane_fixed (n t pitch w rule x0 x1) : (s.readPlane n t pitch w rule x0 x1).1.Fixed b0 := by
  induction x0 generalizing s n t pitch w rule x1 with
  | zero => exact hs
  | succ fuel ih =>
    refine P1Fixed.fixed ?_
    unfold State.readPlane
    repeat' first
      | with_reducible first
          | assumption | apply ih | apply State.slipRead_fixed | apply P1Fixed.mk1 | apply fixed_of_eq1 (he := by assumption)
      | split
theorem State.readPicture_fixed (n t x) : (s.readPicture n t x).1.Fixed b0 := by
  refine P1Fixed.fixed ?_; rw [State.readPicture.eq_def]
  repeat' first
    | with_reducible first
        | assumption | apply State.readPlane_fixed | apply P1Fixed.mk1 | apply fixed_of_eq1 (he := by assumption)
    | split | dsimp only
theorem State.takePicture_fixed (n t v) : (s.takePicture n t v).Fixed b0 := by
  rw [State.takePicture.eq_def]
  repeat' (with_reducible first | assumption | apply State.startSlip_fixed | apply State.beginPic_fixed | apply State.planAll_fixed)
theorem execEncodePicture_fixed (n k) : OutFixed b0 (execEncodePicture n k s) := by
  rw [execEncodePicture.eq_def]
  repeat' first
    | with_reducible first
        | assumption | apply State.finishInOrder_fixed | apply State.readPicture_fixed | apply State.takePicture_fixed | apply OutFixed.next
        | apply fixed_of_eq1 (he := by assumption)
    | split | dsimp only
theorem State.reportLost_fixed (n lost) : (s.reportLost n lost).Fixed b0 := by
  rw [State.reportLost.eq_def]; repeat' first | (with_reducible first | assumption | apply State.report_fixed | apply foldl_fixed) | intro _ | split
theorem State.decodeKrema_fixed (n k t input bad lost) : (s.decodeKrema n k t input bad lost).Fixed b0 := by
  rw [State.decodeKrema.eq_def]
  repeat' first
    | with_reducible first
        | assumption | apply State.setStream_fixed | apply State.finishInOrder_fixed | apply State.writeDecoded_fixed | apply State.reportLost_fixed
    | split | dsimp only
theorem State.makeDpbRoom_fixed (m p a) : (s.makeDpbRoom m p a).1.Fixed b0 := by
  refine P1Fixed.fixed ?_; rw [State.makeDpbRoom.eq_def]
  repeat' first
    | with_reducible first
        | assumption | apply State.finishById_fixed | apply State.unwait_fixed | apply State.putOut_fixed | apply State.bumpAll_fixed | apply foldl_fixed
        | apply P1Fixed.mk1
    | intro _ | split
theorem State.takeAu_fixed (n t p a bad lost) : (s.takeAu n t p a bad lost).Fixed b0 := by
  rw [State.takeAu.eq_def]
  repeat' first
    | with_reducible first
        | assumption | apply State.setStream_fixed | apply State.release_fixed | apply State.startSlip_fixed | apply State.finishById_fixed
        | apply State.putOut_fixed | apply State.reportLost_fixed
    | split | dsimp only
theorem State.decodeCodec_fixed (n k t a bad lost) : (s.decodeCodec n k t a bad lost).Fixed b0 := by
  rw [State.decodeCodec.eq_def]
  repeat' first
    | with_reducible first
        | assumption | apply State.setStream_fixed | apply State.finishInOrder_fixed | apply State.makeDpbRoom_fixed | apply State.takeAu_fixed
    | split | dsimp only
theorem State.decodeOn_fixed (m) : (s.decodeOn m).Fixed b0 := by
  rw [State.decodeOn.eq_def]; repeat' first | (with_reducible first | assumption | apply State.putOut_fixed | apply State.bumpAll_fixed) | split | dsimp only
theorem execDecodePicture_fixed (n k lost au) : OutFixed b0 (execDecodePicture n k lost au s) := by
  rw [execDecodePicture.eq_def]
  repeat' first
    | with_reducible first
        | assumption | apply State.finishInOrder_fixed | apply State.slipRead_fixed | apply State.decodeKrema_fixed | apply State.decodeCodec_fixed
        | apply State.decodeOn_fixed | apply OutFixed.next | apply fixed_of_eq1 (he := by assumption)
    | split

/-! The operations of Machine/Pins.lean. -/

theorem execPinCheck_fixed (p level) : OutFixed b0 (execPinCheck p level s) := by
  rw [execPinCheck.eq_def]; repeat' first | (with_reducible first | assumption | apply State.report_fixed | apply OutFixed.next) | split
theorem execThermAssert_fixed : OutFixed b0 (execThermAssert s) := by
  rw [execThermAssert.eq_def]
  repeat' first | simp only [State.fixed_mk] | (with_reducible first | assumption | apply State.report_fixed | apply OutFixed.next | apply FixedF.of) | split
theorem execThermRelease_fixed : OutFixed b0 (execThermRelease s) := by
  rw [execThermRelease.eq_def]; repeat' first | simp only [State.fixed_mk] | (with_reducible first | assumption | apply OutFixed.next | apply FixedF.of)

/-! The operations of Machine/Smbus.lean. -/

theorem State.smb_fixed (f) (h_f : ∀ s : State, s.Fixed b0 → (f s).Fixed b0) : OutFixed b0 (s.smb f) := by
  rw [State.smb.eq_def]; repeat' first | (with_reducible first | assumption | apply h_f | apply State.bump_fixed | apply OutFixed.next) | split
theorem State.smbBlock_fixed (n data) : (s.smbBlock n data).Fixed b0 := by
  rw [State.smbBlock.eq_def]; repeat' first | (with_reducible first | assumption | apply State.reply_fixed) | split
theorem execStatus_fixed : OutFixed b0 (execStatus s) := by
  rw [execStatus.eq_def]
  repeat' first | (with_reducible first | assumption | apply State.reply_fixed | apply State.smb_fixed | apply OutFixed.next) | intro _
theorem execCause_fixed : OutFixed b0 (execCause s) := by
  rw [execCause.eq_def]; repeat' first | (with_reducible first | assumption | apply State.reply_fixed | apply State.smb_fixed | apply OutFixed.next) | intro _
theorem execDeviceId_fixed : OutFixed b0 (execDeviceId s) := by
  rw [execDeviceId.eq_def]
  repeat' first | (with_reducible first | assumption | apply State.smb_fixed | apply State.smbBlock_fixed | apply OutFixed.next) | intro _
theorem execUid_fixed : OutFixed b0 (execUid s) := by
  rw [execUid.eq_def]
  repeat' first | (with_reducible first | assumption | apply State.smb_fixed | apply State.smbBlock_fixed | apply OutFixed.next) | intro _
theorem execEpochDigest_fixed : OutFixed b0 (execEpochDigest s) := by
  rw [execEpochDigest.eq_def]
  repeat' first | (with_reducible first | assumption | apply State.smb_fixed | apply State.smbBlock_fixed | apply OutFixed.next) | intro _
theorem execFaults_fixed : OutFixed b0 (execFaults s) := by
  rw [execFaults.eq_def]
  repeat' first | (with_reducible first | assumption | apply State.smb_fixed | apply State.smbBlock_fixed | apply OutFixed.next) | intro _
theorem execReset_fixed (v pecOk) : OutFixed b0 (execReset v pecOk s) := by
  rw [execReset.eq_def]
  repeat' first
    | with_reducible first
        | assumption | apply State.bump_fixed | apply State.requestReset_fixed | apply State.smb_fixed | apply OutFixed.next
    | intro _ | split
theorem execWake_fixed (pecOk) : OutFixed b0 (execWake pecOk s) := by
  rw [execWake.eq_def]
  repeat' first
    | with_reducible first
        | assumption | apply State.bump_fixed | apply State.wakeEvent_fixed | apply State.smb_fixed | apply OutFixed.next
    | intro _ | split
theorem execAlertResponse_fixed : OutFixed b0 (execAlertResponse s) := by
  rw [execAlertResponse.eq_def]
  repeat' first | simp only [State.fixed_mk] | (with_reducible first | assumption | apply State.reply_fixed | apply OutFixed.next | apply FixedF.of) | split
theorem execSmbCfgWrite_fixed (v) : OutFixed b0 (execSmbCfgWrite v s) := by
  rw [execSmbCfgWrite.eq_def]
  repeat' first
    | simp only [State.fixed_mk]
    | with_reducible first
        | assumption | apply State.put_fixed | apply State.bump_fixed | apply State.alertRise_fixed | apply foldl_fixed | apply OutFixed.next
        | apply FixedF.of
    | intro _ | split
theorem execSmbusUnknownCommand_fixed : OutFixed b0 (execSmbusUnknownCommand s) := by
  rw [execSmbusUnknownCommand.eq_def]
  repeat' first | (with_reducible first | assumption | apply State.bump_fixed | apply State.smb_fixed | apply OutFixed.next) | intro _

/-! The operations of Machine/RegWrite.lean. -/

theorem State.writeField_fixed (off v q) : (s.writeField off v q).Fixed b0 := by
  rw [State.writeField.eq_def]; repeat' first | (with_reducible first | assumption | apply State.put_fixed) | split | dsimp only
theorem State.writeFields_fixed (off v) : (s.writeFields off v).Fixed b0 := by
  rw [State.writeFields.eq_def]; repeat' first | (with_reducible first | assumption | apply State.writeField_fixed | apply foldl_fixed) | intro _ | split
theorem State.writeRstCmd_fixed (v) : OutFixed b0 (s.writeRstCmd v) := by
  rw [State.writeRstCmd.eq_def]
  repeat' first
    | with_reducible first
        | assumption | apply State.keyErr_fixed | apply execColdResetCommand_fixed | apply execWarmResetCommand_fixed | apply execUnitReset_fixed
        | apply OutFixed.next
    | split
theorem State.writeInvCtl_fixed (v) : OutFixed b0 (s.writeInvCtl v) := by
  rw [State.writeInvCtl.eq_def]
  repeat' first
    | with_reducible first
        | assumption | apply execInvalidateAll_fixed | apply execInvalidateAsid_fixed | apply execInvalidatePage_fixed | apply OutFixed.next
    | split
theorem State.writeFltCtl_fixed (v) : OutFixed b0 (s.writeFltCtl v) := by
  rw [State.writeFltCtl.eq_def]
  repeat' first | (with_reducible first | assumption | apply execResume_fixed | apply execAbort_fixed | apply OutFixed.next) | split
theorem State.writePoolCfg_fixed (p v) : (s.writePoolCfg p v).Fixed b0 := by
  rw [State.writePoolCfg.eq_def]; repeat' first | (with_reducible first | assumption | apply State.put_fixed) | split | dsimp only
theorem State.writeSchedCfg_fixed (v) : (s.writeSchedCfg v).Fixed b0 := by
  rw [State.writeSchedCfg.eq_def]; repeat' first | (with_reducible first | assumption | apply State.put_fixed) | split | dsimp only
theorem State.writePortPhy_fixed (p v) : (s.writePortPhy p v).Fixed b0 := by
  rw [State.writePortPhy.eq_def]; repeat' first | (with_reducible first | assumption | apply State.put_fixed) | split | dsimp only
theorem State.writeUnitCtl_fixed (byHost i v) : OutFixed b0 (s.writeUnitCtl byHost i v) := by
  rw [State.writeUnitCtl.eq_def]
  repeat' first | (with_reducible first | assumption | apply State.interruptUnit_fixed | apply execDrop_fixed | apply OutFixed.next) | split
theorem State.writeTinCtl_fixed (i v) : OutFixed b0 (s.writeTinCtl i v) := by
  rw [State.writeTinCtl.eq_def]
  repeat' first | (with_reducible first | assumption | apply State.put_fixed | apply execTimeInPop_fixed | apply OutFixed.next) | split
theorem State.ownLow_fixed (byHost off v) : OptFixed b0 (s.ownLow byHost off v) := by
  rw [State.ownLow.eq_def]
  repeat' first
    | simp only [State.fixed_mk]
    | with_reducible first
        | assumption | apply State.wr_fixed | apply State.put_fixed | apply execMsixUnmask_fixed | apply execRpCfgWrite_fixed | apply execPaceCtlWrite_fixed
        | apply execSourceConfigWrite_fixed | apply execSwset_fixed | apply execAck_fixed | apply execInject_fixed | apply execRstKey_fixed
        | apply execPdReqWrite_fixed | apply execSleepStandby_fixed | apply execSleepVault_fixed | apply State.mbxAsk_fixed | apply execAlive_fixed
        | apply execContextCommit_fixed | apply execGrantFence_fixed | apply State.writeRstCmd_fixed | apply State.writeInvCtl_fixed
        | apply State.writeFltCtl_fixed | apply OutFixed.next | apply OptFixed.some | exact OptFixed.none | apply OptFixed.ite | apply OutFixed.ite
        | apply State.Fixed.ite | apply FixedF.of
theorem State.ownMid_fixed (off v) : OptFixed b0 (s.ownMid off v) := by
  rw [State.ownMid.eq_def]
  repeat' first
    | with_reducible first
        | assumption | apply State.wr_fixed | apply execLogEntryFree_fixed | apply execScrubCtlWrite_fixed | apply execFlush_fixed
        | apply execQueueDisable_fixed | apply State.writeQueueReg_fixed | apply execReqSw_fixed | apply State.dmaStart_fixed | apply State.dmaStop_fixed
        | apply State.dmaPause_fixed | apply State.dmaResume_fixed | apply execInit_fixed | apply execDisable_fixed | apply execReclaim_fixed
        | apply State.writePoolCfg_fixed | apply State.writeSchedCfg_fixed | apply OutFixed.next | apply OptFixed.some | exact OptFixed.none
        | apply OptFixed.ite
    | split
  all_goals exact (execDisable_fixed hs _).fixed _ (by assumption)
theorem State.ownNet_fixed (p o v) : OptFixed b0 (s.ownNet p o v) := by
  rw [State.ownNet.eq_def]
  repeat' first
    | with_reducible first
        | assumption | apply State.wr_fixed | apply execPortCfgWrite_fixed | apply execGclCommit_fixed | apply execCbsWrite_fixed | apply execPsfWrite_fixed
        | apply OutFixed.next | apply OptFixed.some | exact OptFixed.none | apply OptFixed.ite | apply OutFixed.ite | apply State.Fixed.ite
theorem State.ownHigh_fixed (byHost off v) : OptFixed b0 (s.ownHigh byHost off v) := by
  rw [State.ownHigh.eq_def]
  repeat' first
    | with_reducible first
        | assumption | apply execSqTail_fixed | apply execRqHead_fixed | apply execAlarmArm_fixed | apply execAlarmDisarm_fixed | apply execTimeOutArm_fixed
        | apply execTimeOutDisarm_fixed | apply State.daterCmd_fixed | apply execIncrWrite_fixed | apply execHoldCtlWrite_fixed | apply execI2cCmd_fixed
        | apply State.magCmd_fixed | apply execSmbCfgWrite_fixed | apply State.writeFields_fixed | apply State.writePortPhy_fixed
        | apply State.writeUnitCtl_fixed | apply State.writeTinCtl_fixed | apply State.ownNet_fixed | apply OutFixed.next | apply OptFixed.some
        | exact OptFixed.none | apply OptFixed.ite | apply OutFixed.ite

omit hs in
theorem State.afterWrite_fixed {t : State} (ht : t.Fixed b0) (off) : (s.afterWrite t off).Fixed b0 := by
  rw [State.afterWrite.eq_def]
  repeat' first
    | with_reducible first
        | assumption | apply State.alertRise_fixed | apply State.checkTimer_fixed | apply State.checkWake_fixed | apply State.ppsUpdate_fixed
        | apply State.servoPorts_fixed | apply State.showDomain_fixed
    | split
theorem execRegisterWrite_fixed (byHost off v) : OutFixed b0 (execRegisterWrite byHost off v s) := by
  rw [execRegisterWrite.eq_def]
  repeat' first
    | with_reducible first
        | assumption | apply State.bump_fixed | apply State.heard_fixed | apply State.writeFields_fixed | apply State.ownLow_fixed | apply State.ownMid_fixed
        | apply State.ownHigh_fixed | apply State.afterWrite_fixed | apply OutFixed.next | exact OutFixed.fault _ | apply OptFixed.get ?_ (by assumption)
    | split | dsimp only

/-- Every command leaves the grade, the queue and the count of ticks: by the law of its meaning. -/
theorem exec_fixed (c : Instr) : OutFixed b0 (exec c s) := by
  cases c with
  | registerWrite _ _ _ => exact execRegisterWrite_fixed hs _ _ _
  | handshakeWatchdog _ => exact execHandshakeWatchdog_fixed hs _
  | paceCtlWrite _ => exact execPaceCtlWrite_fixed hs _
  | leafDispatch _ _ _ _ _ => exact execLeafDispatch_fixed hs _ _ _ _ _
  | subframeLeafDispatch _ _ _ _ _ => exact execSubframeLeafDispatch_fixed hs _ _ _ _ _
  | chunkCommit _ _ => exact execChunkCommit_fixed hs _ _
  | leafRelease _ _ => exact execLeafRelease_fixed hs _ _
  | pictureRelease _ _ => exact execPictureRelease_fixed hs _ _
  | searchBlock _ _ _ => exact execSearchBlock_fixed hs _ _ _
  | coarseCplxPost _ _ => exact execCoarseCplxPost_fixed hs _ _
  | planPost _ _ => exact execPlanPost_fixed hs _ _
  | guardEvaluate _ _ => exact execGuardEvaluate_fixed hs _ _
  | statsFolioArrival _ _ => exact execStatsFolioArrival_fixed hs _ _
  | rcPost _ _ => exact execRcPost_fixed hs _ _
  | rcCplx _ _ => exact execRcCplx_fixed hs _ _
  | rcTime _ => exact execRcTime_fixed hs _
  | rcLog _ _ _ => exact execRcLog_fixed hs _ _ _
  | appletCallTimeout _ _ => exact execAppletCallTimeout_fixed hs _ _
  | appletTrap _ _ => exact execAppletTrap_fixed hs _ _
  | sqTail _ _ => exact execSqTail_fixed hs _ _
  | rqHead _ _ => exact execRqHead_fixed hs _ _
  | slipReread _ => exact execSlipReread_fixed hs _
  | nopSlip _ _ => exact execNop_fixed hs _ _
  | openStream _ _ _ => exact execOpenStream_fixed hs _ _ _
  | closeStream _ _ => exact execCloseStream_fixed hs _ _
  | streamClosed _ => exact execStreamClosed_fixed hs _
  | setConfig _ _ => exact execSetConfig_fixed hs _ _
  | setConfigDevice _ _ => exact execSetConfigDevice_fixed hs _ _
  | encodePicture _ _ => exact execEncodePicture_fixed hs _ _
  | decodePicture _ _ _ _ => exact execDecodePicture_fixed hs _ _ _ _
  | flushStream _ _ => exact execFlushStream_fixed hs _ _
  | recordStart _ _ => exact execRecordStart_fixed hs _ _
  | recordStop _ _ => exact execRecordStop_fixed hs _ _
  | markTake _ _ => exact execMark_fixed hs _ _
  | readExtent _ _ => exact execReadExtent_fixed hs _ _
  | queryLedger _ _ => exact execQueryLedger_fixed hs _ _
  | queryStream _ _ => exact execQueryStream_fixed hs _ _
  | queryDigest _ _ => exact execQueryDigest_fixed hs _ _
  | returnFolio _ _ => exact execReturnFolio_fixed hs _ _
  | unknownOpcode _ _ => exact execUnknownOpcode_fixed hs _ _
  | completionWrite _ => exact execCompletionWrite_fixed hs _
  | eventGroupWrite _ => exact execEventGroupWrite_fixed hs _
  | eventQueueTimeout _ => exact execEventQueueTimeout_fixed hs _
  | lostSlip _ => exact execLostSlip_fixed hs _
  | msixHoldTimer _ => exact execMsixHoldTimer_fixed hs _
  | msixUnmask _ => exact execMsixUnmask_fixed hs _
  | hostD3hotEntry _ _ => exact execHostD3hotEntry_fixed hs _ _
  | hostD0Return _ => exact execHostD0Return_fixed hs _
  | rpCfgWrite _ _ => exact execRpCfgWrite_fixed hs _ _
  | epochBegin => exact execEpochBegin_fixed hs
  | epochTaken => exact execEpochTaken_fixed hs
  | epochAckTimeout _ => exact execEpochAckTimeout_fixed hs _
  | frameStart _ _ _ => exact execFrameStart_fixed hs _ _ _
  | memberFrameStart _ _ _ => exact execMemberFrameStart_fixed hs _ _ _
  | frameEnd _ _ => exact execFrameEnd_fixed hs _ _
  | rowHeaderArrival _ _ _ _ _ => exact execRowHeaderArrival_fixed hs _ _ _ _ _
  | longPacket _ _ _ _ _ _ => exact execLongPacket_fixed hs _ _ _ _ _ _
  | lineTimeout _ => exact execLineTimeout_fixed hs _
  | rowEmit _ => exact execRowEmit_fixed hs _
  | rowLanded _ => exact execRowLanded_fixed hs _
  | holdCtlWrite _ => exact execHoldCtlWrite_fixed hs _
  | deskewSequence _ _ _ => exact execDeskewSequence_fixed hs _ _ _
  | ulpsEntry _ => exact execUlpsEntry_fixed hs _
  | ulpsExit _ => exact execUlpsExit_fixed hs _
  | sensorLinkLoss _ _ _ => exact execSensorLinkLoss_fixed hs _ _ _
  | magPresenceFall _ _ => exact execMagPresenceFall_fixed hs _ _
  | magPresenceAccept _ => exact execMagPresenceAccept_fixed hs _
  | magPerstRelease _ => exact execMagPerstRelease_fixed hs _
  | magLinkUp _ _ _ => exact execMagLinkUp_fixed hs _ _ _
  | magLinkTimeout _ => exact execMagLinkTimeout_fixed hs _
  | magControllerReady _ => exact execMagControllerReady_fixed hs _
  | nvmeCompletion _ _ _ _ _ => exact execNvmeCompletion_fixed hs _ _ _ _ _
  | nvmeTimeout _ _ => exact execNvmeTimeout_fixed hs _ _
  | commitTimer _ => exact execCommitTimer_fixed hs _
  | pictureToBindery _ _ => exact execPictureToBindery_fixed hs _ _
  | verifyCompareDone _ _ _ _ => exact execVerifyCompareDone_fixed hs _ _ _ _
  | verifyLagExpiry _ _ _ => exact execVerifyLagExpiry_fixed hs _ _ _
  | healthLogTimer _ => exact execHealthLogTimer_fixed hs _
  | magRemoval _ => exact execMagRemoval_fixed hs _
  | magLinkLoss _ => exact execMagLinkLoss_fixed hs _
  | formatMagazine _ _ => exact execFormat_fixed hs _ _
  | ejectMagazine _ _ => exact execEject_fixed hs _ _
  | rescanMagazine _ _ => exact execRescan_fixed hs _ _
  | deleteTake _ _ => exact execDeleteTake_fixed hs _ _
  | alignmentPoint _ _ => exact execAlignmentPoint_fixed hs _ _
  | packetRelease _ _ => exact execPacketRelease_fixed hs _ _
  | frameTransmit _ => exact execFrameTransmit_fixed hs _
  | gateBlockDrop _ _ => exact execGateBlockDrop_fixed hs _ _
  | netLinkDown _ => exact execNetLinkDown_fixed hs _
  | netLinkUp _ => exact execNetLinkUp_fixed hs _
  | rxFrame _ _ => exact execRxFrame_fixed hs _ _
  | announceTimeout _ => exact execAnnounceTimeout_fixed hs _
  | ptpSendTimer _ _ => exact execPtpSendTimer_fixed hs _ _
  | gclCommit _ => exact execGclCommit_fixed hs _
  | gclStart _ => exact execGclStart_fixed hs _
  | gateEntryChange _ => exact execGateEntryChange_fixed hs _
  | cbsWrite _ _ _ _ => exact execCbsWrite_fixed hs _ _ _ _
  | psfWrite _ _ _ _ => exact execPsfWrite_fixed hs _ _ _ _
  | telemetrySample _ => exact execTelemetrySample_fixed hs _
  | portCfgWrite _ _ => exact execPortCfgWrite_fixed hs _ _
  | i2cCmd _ => exact execI2cCmd_fixed hs _
  | i2cDone _ _ => exact execI2cDone_fixed hs _ _
  | snapTime => exact execSnap_fixed hs
  | setTime _ _ => exact execSet_fixed hs _ _
  | stepTime _ => exact execStep_fixed hs _
  | incrWrite _ => exact execIncrWrite_fixed hs _
  | timeRefclkLost => exact execTimeRefclkLost_fixed hs
  | timeRefclkReturn => exact execTimeRefclkReturn_fixed hs
  | timeOutArm _ => exact execTimeOutArm_fixed hs _
  | timeOutDisarm _ => exact execTimeOutDisarm_fixed hs _
  | timeOutEdge _ => exact execTimeOutEdge_fixed hs _
  | timeOutPulseEnd _ => exact execTimeOutPulseEnd_fixed hs _
  | ppsEdge => exact execPpsEdge_fixed hs
  | ppsPulseEnd => exact execPpsPulseEnd_fixed hs
  | timeInCapture _ _ => exact execTimeInCapture_fixed hs _ _
  | timeInPop _ => exact execTimeInPop_fixed hs _
  | alarmArm => exact execAlarmArm_fixed hs
  | alarmDisarm => exact execAlarmDisarm_fixed hs
  | alarmFire => exact execAlarmFire_fixed hs
  | dramTraining => exact execDramTraining_fixed hs
  | dramTrainingDone _ => exact execDramTrainingDone_fixed hs _
  | mr4Poll _ _ _ => exact execMr4Poll_fixed hs _ _ _
  | zqCalibration _ => exact execZqCalibration_fixed hs _
  | refreshDue _ => exact execRefreshDue_fixed hs _
  | trefwBoundary _ => exact execTrefwBoundary_fixed hs _
  | dramCommandIssue _ => exact execDramCommandIssue_fixed hs _
  | dramRead _ _ => exact execDramRead_fixed hs _ _
  | dramWrite _ _ _ => exact execDramWrite_fixed hs _ _ _
  | narrowWrite _ _ => exact execNarrowWrite_fixed hs _ _
  | readDataCheck _ _ _ _ _ _ => exact execReadDataCheck_fixed hs _ _ _ _ _ _
  | logEntryFree _ => exact execLogEntryFree_fixed hs _
  | scrubRead => exact execScrubRead_fixed hs
  | scrubCtlWrite _ _ => exact execScrubCtlWrite_fixed hs _ _
  | dqCentreMove _ _ _ => exact execDqCentreMove_fixed hs _ _ _
  | translationWalk _ _ _ => exact execTranslationWalk_fixed hs _ _ _
  | resumeFault _ => exact execResume_fixed hs _
  | abortFault _ => exact execAbort_fixed hs _
  | faultRecordTimeout => exact execFaultRecordTimeout_fixed hs
  | invalidateAll => exact execInvalidateAll_fixed hs
  | invalidateAsid _ => exact execInvalidateAsid_fixed hs _
  | invalidatePage _ => exact execInvalidatePage_fixed hs _
  | invalidationDone => exact execInvalidationDone_fixed hs
  | contextCommit _ _ => exact execContextCommit_fixed hs _ _
  | grantFence _ => exact execGrantFence_fixed hs _
  | startDma _ => exact execStart_fixed hs _
  | stopDma _ => exact execStop_fixed hs _
  | pauseDma _ => exact execPause_fixed hs _
  | dmaResume _ => exact execDmaResume_fixed hs _
  | dmaPaused _ => exact execDmaPaused_fixed hs _
  | dmaBurst _ => exact execDmaBurst_fixed hs _
  | dmaSlipComplete _ => exact execDmaSlipComplete_fixed hs _
  | barrierComplete _ => exact execBarrierComplete_fixed hs _
  | reqSw _ => exact execReqSw_fixed hs _
  | beginItem _ _ _ _ => exact execBegin_fixed hs _ _ _ _
  | itemWordWrite _ _ _ => exact execItemWordWrite_fixed hs _ _ _
  | endItem _ _ => exact execEnd_fixed hs _ _
  | singleOperationPush _ _ _ _ => exact execSingleOperationPush_fixed hs _ _ _ _
  | popRelease _ _ => exact execPopRelease_fixed hs _ _
  | popClaim _ _ => exact execPopClaim_fixed hs _ _
  | itemRelease _ _ _ => exact execItemRelease_fixed hs _ _ _
  | flushQueue _ => exact execFlush_fixed hs _
  | queueTimeout _ => exact execQueueTimeout_fixed hs _
  | queueDisable _ => exact execQueueDisable_fixed hs _
  | folioAllocate _ _ => exact execFolioAllocate_fixed hs _ _
  | shareFolio _ _ _ _ => exact execShare_fixed hs _ _ _ _
  | releaseFolio _ _ => exact execRelease_fixed hs _ _
  | reclaimOrphans => exact execReclaim_fixed hs
  | initPool _ => exact execInit_fixed hs _
  | poolInitDone _ => exact execPoolInitDone_fixed hs _
  | disablePool _ => exact execDisable_fixed hs _
  | freeCacheRefill _ => exact execFreeCacheRefill_fixed hs _
  | mckpt _ _ => exact execMckpt_fixed hs _ _
  | lockstepMismatch _ => exact execLockstepMismatch_fixed hs _
  | mclaim _ => exact execMclaim_fixed hs _
  | mcomplete _ _ => exact execMcomplete_fixed hs _ _
  | sourceConfigWrite _ _ => exact execSourceConfigWrite_fixed hs _ _
  | swset => exact execSwset_fixed hs
  | timerCompare _ => exact execTimerCompare_fixed hs _
  | storeParityError _ _ _ => exact execStoreParityError_fixed hs _ _ _
  | storeScan _ _ => exact execStoreScan_fixed hs _ _
  | interruptUnit _ => exact execInterrupt_fixed hs _
  | dropWork _ _ _ => exact execDrop_fixed hs _ _ _
  | scribeCheckpoint _ _ _ => exact execScribeCheckpoint_fixed hs _ _ _
  | faultMessage _ _ _ _ _ => exact execFaultMessage_fixed hs _ _ _ _ _
  | ackFault _ _ _ => exact execAck_fixed hs _ _ _
  | injectFault _ _ _ => exact execInject_fixed hs _ _ _
  | faultNHoldExpiry => exact execFaultNHoldExpiry_fixed hs
  | writeDrainEmpty _ => exact execWriteDrainEmpty_fixed hs _
  | writeDrainTimeout _ => exact execWriteDrainTimeout_fixed hs _
  | redispatch _ _ => exact execRedispatch_fixed hs _ _
  | digestSweep _ => exact execDigestSweep_fixed hs _
  | pinCheck _ _ => exact execPinCheck_fixed hs _ _
  | keeperLockstepMismatch => exact execKeeperLockstepMismatch_fixed hs
  | fuseLoadDone _ => exact execFuseLoadDone_fixed hs _
  | windowClearDone => exact execWindowClearDone_fixed hs
  | windowWrite _ _ => exact execWindowWrite_fixed hs _ _
  | loadBundle _ _ => exact execLoad_fixed hs _ _
  | loadComplete => exact execLoadComplete_fixed hs
  | ageingPut _ _ => exact execAgeingPut_fixed hs _ _
  | ageingGet _ => exact execAgeingGet_fixed hs _
  | keeperAttest _ => exact execAttest_fixed hs _
  | keeperIdentity _ => exact execIdentity_fixed hs _
  | keeperAlive _ _ => exact execAlive_fixed hs _ _
  | startDeadline => exact execStartDeadline_fixed hs
  | powerOn => exact execPowerOn_fixed hs
  | supplyFault => exact execSupplyFault_fixed hs
  | sysResetN _ => exact execSysResetN_fixed hs _
  | perstN _ => exact execPerstN_fixed hs _
  | resetRelease => exact execResetRelease_fixed hs
  | sysRefclkLost => exact execSysRefclkLost_fixed hs
  | sysRefclkReturn => exact execSysRefclkReturn_fixed hs
  | rstKey _ => exact execRstKey_fixed hs _
  | coldResetCommand _ => exact execColdResetCommand_fixed hs _
  | warmResetCommand _ => exact execWarmResetCommand_fixed hs _
  | unitReset _ _ => exact execUnitReset_fixed hs _ _
  | unitResetDone => exact execUnitResetDone_fixed hs
  | pdReqWrite _ _ _ => exact execPdReqWrite_fixed hs _ _ _
  | domainOnDone _ => exact execDomainOnDone_fixed hs _
  | sleepStandby _ => exact execSleepStandby_fixed hs _
  | sleepVault _ => exact execSleepVault_fixed hs _
  | sleepStepDone _ => exact execSleepStepDone_fixed hs _
  | pmeTurnOff => exact execPmeTurnOff_fixed hs
  | l2Timeout => exact execL2Timeout_fixed hs
  | wakeEvent _ => exact execWakeEvent_fixed hs _
  | wakeStepDone => exact execWakeStepDone_fixed hs
  | smbStatus => exact execStatus_fixed hs
  | smbCause => exact execCause_fixed hs
  | smbDeviceId => exact execDeviceId_fixed hs
  | smbUid => exact execUid_fixed hs
  | smbEpochDigest => exact execEpochDigest_fixed hs
  | smbFaults => exact execFaults_fixed hs
  | resetMessage _ _ => exact execReset_fixed hs _ _
  | wakeMessage _ => exact execWake_fixed hs _
  | alertResponse => exact execAlertResponse_fixed hs
  | smbCfgWrite _ => exact execSmbCfgWrite_fixed hs _
  | thermAssert => exact execThermAssert_fixed hs
  | thermRelease => exact execThermRelease_fixed hs
  | conservatorRound _ => exact execConservatorRound_fixed hs _
  | slackAlarm _ _ _ => exact execSlackAlarm_fixed hs _ _ _
  | voltageStep => exact execVoltageStep_fixed hs
  | bandDwellExpiry => exact execBandDwellExpiry_fixed hs
  | baselineTimeout => exact execBaselineTimeout_fixed hs
  | avsTransaction _ _ => exact execAvsTransaction_fixed hs _ _
  | pcieLinkDown _ => exact execPcieLinkDown_fixed hs _
  | pcieCorrectedError => exact execPcieCorrectedError_fixed hs
  | mailboxUnknownOpcode _ => exact execMailboxUnknownOpcode_fixed hs _
  | smbusUnknownCommand => exact execSmbusUnknownCommand_fixed hs
  | vddFuseRamp _ => exact execVddFuseRamp_fixed hs _
  | powerDown => exact execPowerDown_fixed hs

end Sys2Proof.Machine

section
open Sys2Proof Sys2Proof.Machine

/-- Settles O6: what `exec_fixed` says, beside the state in which the command is taken. -/
theorem commandsLeaveGradeQueueAndTicks : Obligations.CommandsLeaveGradeQueueAndTicks := by
  unfold Obligations.CommandsLeaveGradeQueueAndTicks
  intro c s t ht
  have hs : s.Fixed s := ⟨rfl, rfl, rfl⟩
  exact (exec_fixed hs c).fixed t ht

end

/-! ### Writes of registers -/

namespace Sys2Proof.Machine

section
variable {s : State} {b : Bool} {off v : Nat}

/-- The three meanings of registers with rules of their own, in the order in which a write asks them: `o` is what the register's rule
answers. -/
def State.Rule (s : State) (b : Bool) (off v : Nat) (o : Host.Outcome State Fault Refusal) : Prop :=
  s.ownLow b off v = some o ∨
  (s.ownLow b off v = none ∧ (s.ownMid off v = some o ∨ (s.ownMid off v = none ∧ s.ownHigh b off v = some o)))

/-- No rule of its own bears on a write of the register. -/
def State.NoRule (s : State) (b : Bool) (off v : Nat) : Prop :=
  s.ownLow b off v = none ∧ s.ownMid off v = none ∧ s.ownHigh b off v = none

/-- A register of BAR0 that both grades have. -/
def assigned (off : Nat) : Bool := decide (off < 2 ^ 24) && (regDesc off).isSome && !gradeReg off

theorem assigned_iff : assigned off = true ↔ off < 2 ^ 24 ∧ (regDesc off).isSome = true ∧ gradeReg off = false := by
  simp [assigned, and_assoc]

theorem State.lacks_of_gradeReg (h : gradeReg off = false) : s.lacks off = false := by rw [State.lacks, h, Bool.and_false]
theorem State.lacks_of_big (h : s.big = true) : s.lacks off = false := by rw [State.lacks, h]; rfl

theorem State.heard_big : (s.heard b).big = s.big := (State.heard_fixed ⟨rfl, rfl, rfl⟩ b).1
theorem State.heard_lacks : (s.heard b).lacks off = s.lacks off := by rw [State.lacks, State.heard_big, State.lacks]

/-- A write of a register with a rule of its own is link activity and then the rule. -/
theorem exec_registerWrite_of_rule {o : Host.Outcome State Fault Refusal} (up : s.bar0Up = true) (h24 : off < 2 ^ 24)
    (hd : (regDesc off).isSome = true) (hl : s.lacks off = false) (hr : (s.heard b).Rule b off v o) :
    exec (.registerWrite b off v) s = o := by
  show execRegisterWrite b off v s = o
  have hn : (regDesc off).isNone = false := by rw [← Option.not_isSome, hd]; rfl
  rw [execRegisterWrite, if_neg (by omega), if_neg (by simp [up])]
  obtain h | ⟨h1, h | ⟨h2, h⟩⟩ := hr
  · simp [hn, State.heard_lacks, hl, h]
  · simp [hn, State.heard_lacks, hl, h1, h]
  · simp [hn, State.heard_lacks, hl, h1, h2, h]

theorem exec_registerWrite_of_assigned {o : Host.Outcome State Fault Refusal} (up : s.bar0Up = true) (h : assigned off = true)
    (hr : (s.heard b).Rule b off v o) : exec (.registerWrite b off v) s = o := by
  obtain ⟨h24, hd, hg⟩ := assigned_iff.1 h
  exact exec_registerWrite_of_rule up h24 hd (State.lacks_of_gradeReg hg) hr

theorem exec_registerWrite_low {o : Host.Outcome State Fault Refusal} (up : s.bar0Up = true) (ha : assigned off = true)
    (hr : (s.heard b).ownLow b off v = some o) : exec (.registerWrite b off v) s = o := exec_registerWrite_of_assigned up ha (.inl hr)
theorem exec_registerWrite_mid {o : Host.Outcome State Fault Refusal} (up : s.bar0Up = true) (ha : assigned off = true)
    (h1 : (s.heard b).ownLow b off v = none) (hr : (s.heard b).ownMid off v = some o) : exec (.registerWrite b off v) s = o :=
  exec_registerWrite_of_assigned up ha (.inr ⟨h1, .inl hr⟩)
theorem exec_registerWrite_high {o : Host.Outcome State Fault Refusal} (up : s.bar0Up = true) (ha : assigned off = true)
    (h1 : (s.heard b).ownLow b off v = none) (h2 : (s.heard b).ownMid off v = none) (hr : (s.heard b).ownHigh b off v = some o) :
    exec (.registerWrite b off v) s = o := exec_registerWrite_of_assigned up ha (.inr ⟨h1, .inr ⟨h2, hr⟩⟩)

/-! The registers whose rule depends on the word written. -/

theorem exec_write_rstCmd (up : s.bar0Up = true) : exec (.registerWrite b RST.RST_CMD v) s = (s.heard b).writeRstCmd v :=
  exec_registerWrite_low up (by decide +kernel) rfl
theorem exec_write_sleepCtl (up : s.bar0Up = true) : exec (.registerWrite b PWR.SLEEP_CTL v) s =
    (if bits v 0 2 = 1 then execSleepStandby (bits v 16 16) (s.heard b)
     else if bits v 0 2 = 2 then execSleepVault (bits v 16 16) (s.heard b) else .next (s.heard b)) :=
  exec_registerWrite_low up (by decide +kernel) rfl
theorem exec_write_invCtl (up : s.bar0Up = true) : exec (.registerWrite b MMU.INV_CTL v) s = (s.heard b).writeInvCtl v :=
  exec_registerWrite_low up (by decide +kernel) rfl
theorem exec_write_fltCtl (up : s.bar0Up = true) : exec (.registerWrite b MMU.FLT_CTL v) s = (s.heard b).writeFltCtl v :=
  exec_registerWrite_low up (by decide +kernel) rfl
theorem exec_write_swset (up : s.bar0Up = true) : exec (.registerWrite b ICU.SWSET v) s =
    (if bitAt v 0 then execSwset (s.heard b) else .next (s.heard b)) :=
  exec_registerWrite_low up (by decide +kernel) rfl
theorem exec_write_qCtl (up : s.bar0Up = true) : exec (.registerWrite b STK.Q_CTL v) s =
    (if bitAt v 0 then execFlush ((s.heard b).get STK.QSEL_QUEUE) (s.heard b) else .next (s.heard b)) :=
  exec_registerWrite_mid up (by decide +kernel) rfl rfl
theorem exec_write_orphanCtl (up : s.bar0Up = true) : exec (.registerWrite b LND.ORPHAN_CTL v) s =
    (if bitAt v 0 then execReclaim (s.heard b) else .next (s.heard b)) :=
  exec_registerWrite_mid up (by decide +kernel) rfl rfl

/-! The registers that stand in arrays: at each index the offset is a numeral, and the tests of the rules evaluate. -/

theorem State.rule_pdReq {i : Nat} (hi : i < 4) : s.Rule b (PWR.PD_REQ0 + 4 * i) v (exec (.pdReqWrite b i v) s) := by
  interval_cases i <;> exact .inl rfl
theorem State.rule_rpCfg {i : Nat} (hi : i < 64) : s.Rule b (HIF.RP_CFG i) v (exec (.rpCfgWrite i v) s) := by
  interval_cases i <;> exact .inl rfl
theorem State.rule_msixCtl {i : Nat} (hi : i < 64) (hv : bitAt v 0 = false) : s.Rule b (HIF.MSIX_CTL i) v (exec (.msixUnmask (some i)) s) := by
  have h : s.Rule b (HIF.MSIX_CTL i) v (if bitAt v 0 then .next (s.put (HIF.MSIX_CTL_MASK i) 1) else execMsixUnmask (some i) s) := by
    interval_cases i <;> exact .inl rfl
  rwa [if_neg (by simp [hv])] at h
theorem State.rule_srcReg {i : Nat} (hi : 1 ≤ i ∧ i ≤ 255) : s.Rule b (srcReg i) v (exec (.sourceConfigWrite i v) s) := by
  obtain ⟨h1, h2⟩ := hi
  interval_cases i <;> exact .inl rfl
theorem State.rule_ctxHi {i : Nat} (hi : i < 256) : s.Rule b (MMU.CTX_HI i) v (exec (.contextCommit i (bits v 0 16)) s) := by
  interval_cases i <;> exact .inl rfl
theorem State.rule_scrubBase {i : Nat} (hi : i < 8) : s.Rule b (MPR.SCRUB_RANGE_BASE i) v (exec (.scrubCtlWrite (1 + i) v) s) := by
  interval_cases i <;> exact .inr ⟨rfl, .inl rfl⟩
theorem State.rule_scrubPages {i : Nat} (hi : i < 8) : s.Rule b (MPR.SCRUB_RANGE_PAGES i) v (exec (.scrubCtlWrite (9 + i) v) s) := by
  interval_cases i <;> exact .inr ⟨rfl, .inl rfl⟩
theorem State.rule_portCfg {i : Nat} (hi : i < 2) : s.Rule b (NET.PORT_CFG i) v (exec (.portCfgWrite i v) s) := by
  interval_cases i <;> exact .inr ⟨rfl, .inr ⟨rfl, rfl⟩⟩
theorem State.rule_sqTail {i : Nat} (hi : i < 64) : s.Rule b (DBL.SQ_TAIL i) v (exec (.sqTail i (bits v 0 16)) s) := by
  have h : s.Rule b (DBL.SQ_TAIL i) v
      (if DBL.SQ_TAIL i = DBL.SQ_TAIL i then execSqTail i (bits v 0 16) s else execRqHead i (bits v 0 16) s) := by
    interval_cases i <;> exact .inr ⟨rfl, .inr ⟨rfl, rfl⟩⟩
  rwa [if_pos rfl] at h
theorem State.rule_rqHead {i : Nat} (hi : i < 64) : s.Rule b (DBL.RQ_HEAD i) v (exec (.rqHead i (bits v 0 16)) s) := by
  have h : s.Rule b (DBL.RQ_HEAD i) v
      (if DBL.RQ_HEAD i = DBL.SQ_TAIL i then execSqTail i (bits v 0 16) s else execRqHead i (bits v 0 16) s) := by
    interval_cases i <;> exact .inr ⟨rfl, .inr ⟨rfl, rfl⟩⟩
  rwa [if_neg (by simp [DBL.RQ_HEAD, DBL.SQ_TAIL])] at h
theorem State.rule_logAddrHi {i : Nat} (hi : i < 16) (hv : bitAt v 31 = true) : s.Rule b (MPR.LOG_ADDR_HI i) v (exec (.logEntryFree i) s) := by
  have h : s.Rule b (MPR.LOG_ADDR_HI i) v
      (if MPR.LOG_ADDR_HI i = MPR.LOG_ADDR_HI i ∧ bitAt v 31 = true then execLogEntryFree i s else .next s) := by
    interval_cases i <;> exact .inr ⟨rfl, .inl rfl⟩
  rwa [if_pos ⟨rfl, hv⟩] at h

end
end Sys2Proof.Machine

section
open Sys2Proof Sys2Proof.Machine

/-- Settles O9: a write of a register with a rule is that rule (`exec_registerWrite_of_rule`), register by register. -/
theorem registersWithRulesRunTheirCommands : Obligations.RegistersWithRulesRunTheirCommands := by
  unfold Obligations.RegistersWithRulesRunTheirCommands
  refine ⟨?paceCtl, ?alive, ?rstKey, ?cold, ?warm, ?unit, ?standby, ?vault, ?pdReq, ?ack, ?inject, ?rpCfg, ?msixCtl, ?swset, ?srcReg, ?invAll,
    ?invAsid, ?invPage, ?resume, ?abort, ?ctxHi, ?reqSw, ?flush, ?orphans, ?scrubCtl, ?scrubBase, ?scrubPages, ?logFree, ?holdCtl, ?i2c, ?portCfg,
    ?incr, ?smbCfg, ?sqTail, ?rqHead⟩
  case paceCtl => intro s h v up; exact exec_registerWrite_low up (by decide +kernel) rfl
  case alive => intro s h v up; exact exec_registerWrite_low up (by decide +kernel) rfl
  case rstKey => intro s h v up; exact exec_registerWrite_low up (by decide +kernel) rfl
  case cold => intro s h v up hv; rw [exec_write_rstCmd up, State.writeRstCmd, hv]; rfl
  case warm => intro s h v up hv; rw [exec_write_rstCmd up, State.writeRstCmd, hv]; rfl
  case unit => intro s h v up hv; rw [exec_write_rstCmd up, State.writeRstCmd, hv]; rfl
  case standby => intro s h v up hv; rw [exec_write_sleepCtl up, if_pos hv]; rfl
  case vault => intro s h v up hv; rw [exec_write_sleepCtl up, if_neg (by omega), if_pos hv]; rfl
  case pdReq =>
    have ha : ∀ i < 4, assigned (PWR.PD_REQ0 + 4 * i) = true := by decide +kernel
    exact fun s h v i up hi => exec_registerWrite_of_assigned up (ha i hi) (State.rule_pdReq hi)
  case ack => intro s h v up; exact exec_registerWrite_low up (by decide +kernel) rfl
  case inject => intro s h v up; exact exec_registerWrite_low up (by decide +kernel) rfl
  case rpCfg =>
    have ha : ∀ i < 64, assigned (HIF.RP_CFG i) = true := by decide +kernel
    exact fun s h v i up hi => exec_registerWrite_of_assigned up (ha i hi) (State.rule_rpCfg hi)
  case msixCtl =>
    have ha : ∀ i < 64, assigned (HIF.MSIX_CTL i) = true := by decide +kernel
    exact fun s h v i up hi hv => exec_registerWrite_of_assigned up (ha i hi) (State.rule_msixCtl hi hv)
  case swset => intro s h v up hv; rw [exec_write_swset up, if_pos hv]; rfl
  case srcReg =>
    have ha : ∀ i ≤ 255, 1 ≤ i → assigned (srcReg i) = true := by decide +kernel
    exact fun s h v i up hi => exec_registerWrite_of_assigned up (ha i hi.2 hi.1) (State.rule_srcReg hi)
  case invAll => intro s h v up hv; rw [exec_write_invCtl up, State.writeInvCtl, hv]; rfl
  case invAsid => intro s h v up hv; rw [exec_write_invCtl up, State.writeInvCtl, hv]; rfl
  case invPage => intro s h v up hv; rw [exec_write_invCtl up, State.writeInvCtl, hv]; rfl
  case resume => intro s h v up hv; rw [exec_write_fltCtl up, State.writeFltCtl, hv]; rfl
  case abort => intro s h v up hv; rw [exec_write_fltCtl up, State.writeFltCtl, hv]; rfl
  case ctxHi =>
    have ha : ∀ i < 256, assigned (MMU.CTX_HI i) = true := by decide +kernel
    exact fun s h v i up hi => exec_registerWrite_of_assigned up (ha i hi) (State.rule_ctxHi hi)
  case reqSw => intro s h v up; exact exec_registerWrite_mid up (by decide +kernel) rfl rfl
  case flush => intro s h v up hv; rw [exec_write_qCtl up, if_pos hv]; rfl
  case orphans => intro s h v up hv; rw [exec_write_orphanCtl up, if_pos hv]; rfl
  case scrubCtl => intro s h v up; exact exec_registerWrite_mid up (by decide +kernel) rfl rfl
  case scrubBase =>
    have ha : ∀ i < 8, assigned (MPR.SCRUB_RANGE_BASE i) = true := by decide +kernel
    exact fun s h v i up hi => exec_registerWrite_of_assigned up (ha i hi) (State.rule_scrubBase hi)
  case scrubPages =>
    have ha : ∀ i < 8, assigned (MPR.SCRUB_RANGE_PAGES i) = true := by decide +kernel
    exact fun s h v i up hi => exec_registerWrite_of_assigned up (ha i hi) (State.rule_scrubPages hi)
  case logFree =>
    have ha : ∀ i < 16, assigned (MPR.LOG_ADDR_HI i) = true := by decide +kernel
    exact fun s h v i up hi hv => exec_registerWrite_of_assigned up (ha i hi) (State.rule_logAddrHi hi hv)
  case holdCtl => intro s h v up; exact exec_registerWrite_high up (by decide +kernel) rfl rfl rfl
  case i2c => intro s h v up; exact exec_registerWrite_high up (by decide +kernel) rfl rfl rfl
  case portCfg =>
    have hd : ∀ i < 2, (regDesc (NET.PORT_CFG i)).isSome = true := by decide +kernel
    have h24 : ∀ i < 2, NET.PORT_CFG i < 2 ^ 24 := by decide +kernel
    intro s h v i up hi hbig
    have hl : s.lacks (NET.PORT_CFG i) = false := by
      obtain rfl | rfl : i = 0 ∨ i = 1 := by omega
      · exact State.lacks_of_gradeReg (by decide +kernel)
      · exact State.lacks_of_big (hbig rfl)
    exact exec_registerWrite_of_rule up (h24 i hi) (hd i hi) hl (State.rule_portCfg hi)
  case incr => intro s h v up; exact exec_registerWrite_high up (by decide +kernel) rfl rfl rfl
  case smbCfg => intro s h v up; exact exec_registerWrite_high up (by decide +kernel) rfl rfl rfl
  case sqTail =>
    have ha : ∀ i < 64, assigned (DBL.SQ_TAIL i) = true := by decide +kernel
    exact fun s h v i up hi => exec_registerWrite_of_assigned up (ha i hi) (State.rule_sqTail hi)
  case rqHead =>
    have ha : ∀ i < 64, assigned (DBL.RQ_HEAD i) = true := by decide +kernel
    exact fun s h v i up hi => exec_registerWrite_of_assigned up (ha i hi) (State.rule_rqHead hi)

end

/-! ### The access codes -/

namespace Sys2Proof.Machine

section
variable {s t : State} {b : Bool} {off v : Nat} {d : RegDesc}

/-- The fields of a register lie in its word and share no bit. -/
def RegDesc.FieldsOk (d : RegDesc) : Prop :=
  (∀ q ∈ d.fields, q.1 + q.2.1 ≤ 32) ∧ d.fields.Pairwise fun q r => q.1 + q.2.1 ≤ r.1 ∨ r.1 + r.2.1 ≤ q.1

/-- The whole map is so. -/
theorem descsOf_fieldsOk (off : Nat) : ∀ d ∈ descsOf off, d.FieldsOk := by
  unfold descsOf RegDesc.FieldsOk
  split
  · decide +kernel
  · split <;> decide +kernel

theorem fieldsOk_of_regDesc (h : regDesc off = some d) : d.FieldsOk := descsOf_fieldsOk off d (List.mem_of_find?_eq_some h)

theorem bits_lt (n lo w : Nat) : bits n lo w < 2 ^ w := Nat.mod_lt _ (Nat.two_pow_pos _)

/-- What a write leaves in a field. -/
theorem State.get_writeField_same (s : State) (off v : Nat) {q : Nat × Nat × Acc} (hq : q.1 + q.2.1 ≤ 32) :
    (s.writeField off v q).get ⟨off, q.1, q.2.1⟩ = q.2.2.written (s.get ⟨off, q.1, q.2.1⟩) (bits v q.1 q.2.1) := by
  obtain ⟨lo, w, a⟩ := q
  cases a with
  | rw m n =>
    simp only [State.writeField, Acc.written]
    split
    · rw [State.get_put_same _ _ hq]; exact Nat.mod_eq_of_lt (bits_lt _ _ _)
    · rfl
  | ro => rfl
  | w1c =>
    simp only [State.writeField, Acc.written]
    rw [State.get_put_same _ _ hq]
    exact Nat.mod_eq_of_lt (lt_of_le_of_lt (Nat.sub_le _ _) (State.get_lt _ _))
  | own => rfl

/-- A write of a field leaves everything else. -/
theorem State.frame.writeField {ps : List Part} {fs : List Fld} (h : s.frame t ps fs) {q : Nat × Nat × Acc} (hf : ⟨off, q.1, q.2.1⟩ ∈ fs) :
    s.frame (t.writeField off v q) ps fs := by
  unfold State.writeField
  dsimp only
  split
  · split
    · exact h.put _ hf
    · exact h
  · exact h
  · exact h.put _ hf
  · exact h

theorem State.frame_foldl_writeField (s : State) (off v : Nat) (l : List (Nat × Nat × Acc)) :
    s.frame (l.foldl (fun s q => s.writeField off v q) s) [] (l.map fun q => ⟨off, q.1, q.2.1⟩) :=
  State.frame.rfl'.foldl_mem fun _ q hq h => h.writeField (List.mem_map.2 ⟨q, hq, rfl⟩)

/-- Each field of a list of fields that share no bit, under its code: the fields before and after it in the list leave it. -/
theorem State.get_foldl_writeField (s : State) (off v : Nat) {l : List (Nat × Nat × Acc)} (hw : ∀ q ∈ l, q.1 + q.2.1 ≤ 32)
    (ha : l.Pairwise fun q r => q.1 + q.2.1 ≤ r.1 ∨ r.1 + r.2.1 ≤ q.1) : ∀ q ∈ l,
    (l.foldl (fun s q => s.writeField off v q) s).get ⟨off, q.1, q.2.1⟩ = q.2.2.written (s.get ⟨off, q.1, q.2.1⟩) (bits v q.1 q.2.1) := by
  induction l generalizing s with
  | nil => intro q hq; cases hq
  | cons x r ih =>
    obtain ⟨hx, hr⟩ := List.pairwise_cons.1 ha
    intro q hq
    rw [List.foldl_cons]
    obtain rfl | hq' := List.mem_cons.1 hq
    · rw [(State.frame_foldl_writeField _ off v r).2 _ (hw q hq), State.get_writeField_same s off v (hw q hq)]
      intro g hg
      obtain ⟨y, hy, rfl⟩ := List.mem_map.1 hg
      exact .inr (hx y hy)
    · rw [ih _ (fun y hy => hw y (List.mem_cons_of_mem _ hy)) hr q hq']
      congr 1
      refine (State.frame.rfl'.writeField (ps := []) (fs := [⟨off, x.1, x.2.1⟩]) List.mem_cons_self).2 _ (hw q hq) fun g hg => ?_
      rw [List.mem_singleton.1 hg]
      exact .inr (hx q hq').symm

theorem State.writeFields_of_regDesc (h : regDesc off = some d) : s.writeFields off v = d.fields.foldl (fun s q => s.writeField off v q) s := by
  rw [State.writeFields, h]

theorem State.frame_writeFields (h : regDesc off = some d) : s.frame (s.writeFields off v) [] (d.flds off) := by
  rw [State.writeFields_of_regDesc h]
  exact State.frame_foldl_writeField s off v d.fields

theorem State.get_writeFields (h : regDesc off = some d) : ∀ q ∈ d.fields,
    (s.writeFields off v).get ⟨off, q.1, q.2.1⟩ = q.2.2.written (s.get ⟨off, q.1, q.2.1⟩) (bits v q.1 q.2.1) := by
  obtain ⟨hw, ha⟩ := fieldsOk_of_regDesc h
  rw [State.writeFields_of_regDesc h]
  exact State.get_foldl_writeField s off v hw ha

/-! Which registers have a rule of their own is a matter of the offset alone. -/

theorem State.ownLow_isNone (s s' : State) (b b' : Bool) (off v v' : Nat) : (s.ownLow b off v).isNone = (s'.ownLow b' off v').isNone := by
  unfold State.ownLow
  simp only [apply_ite Option.isNone, Option.isNone_some, Option.isNone_none]
theorem State.ownMid_isNone (s s' : State) (off v v' : Nat) : (s.ownMid off v).isNone = (s'.ownMid off v').isNone := by
  unfold State.ownMid
  simp only [apply_ite Option.isNone, Option.isNone_some, Option.isNone_none]
theorem State.ownHigh_isNone (s s' : State) (b b' : Bool) (off v v' : Nat) : (s.ownHigh b off v).isNone = (s'.ownHigh b' off v').isNone := by
  unfold State.ownHigh State.ownNet
  simp only [apply_ite Option.isNone, Option.isNone_some, Option.isNone_none]

/-- No rule of its own bears on the register, and no timer follows it (asked of the state after reset). -/
def ruleFree (off : Nat) : Bool :=
  (State.reset.ownLow false off 0).isNone && (State.reset.ownMid off 0).isNone && (State.reset.ownHigh false off 0).isNone &&
  !(decide (ICU.MTIMECMP_LO 0 ≤ off) && decide (off ≤ ICU.MTIMECMP_HI 3))

/-- A register of the error log but LOG_ADDR_HI, whose rule is to change nothing. -/
def logRead (off : Nat) : Bool :=
  (State.reset.ownLow false off 0).isNone && decide (MPR.LOG_ADDR_LO 0 ≤ off) && decide (off ≤ MPR.LOG_FIRST 15) && off % 16 != 4

theorem State.noRule_of_ruleFree (h : ruleFree off = true) : s.NoRule b off v := by
  simp only [ruleFree, Bool.and_eq_true] at h
  obtain ⟨⟨⟨h1, h2⟩, h3⟩, -⟩ := h
  rw [State.ownLow_isNone _ s _ b _ _ v] at h1
  rw [State.ownMid_isNone _ s _ _ v] at h2
  rw [State.ownHigh_isNone _ s _ b _ _ v] at h3
  exact ⟨Option.isNone_iff_eq_none.1 h1, Option.isNone_iff_eq_none.1 h2, Option.isNone_iff_eq_none.1 h3⟩

theorem State.rule_of_logRead (h : logRead off = true) : s.Rule b off v (.next s) := by
  simp only [logRead, Bool.and_eq_true, decide_eq_true_eq, bne_iff_ne] at h
  obtain ⟨⟨⟨h1, h2⟩, h3⟩, h4⟩ := h
  rw [State.ownLow_isNone _ s _ b _ _ v] at h1
  refine .inr ⟨Option.isNone_iff_eq_none.1 h1, .inl ?_⟩
  have hne : ∀ e, off ≠ MPR.LOG_ADDR_HI e := by unfold MPR.LOG_ADDR_HI; omega
  unfold MPR.LOG_ADDR_LO at h2
  unfold MPR.LOG_FIRST at h3
  rw [State.ownMid, if_neg (by unfold DMA.REQ_SW; omega), if_neg (by unfold DMA.CFG DMA.SLIPS; omega), if_neg (by unfold STK.Q_CFG STK.Q_GRANT; omega),
    if_neg (by unfold STK.Q_CTL; omega), if_neg (by unfold LND.ORPHAN_CTL; omega), if_neg (by unfold LND.POOL_CFG LND.POOL_EMPTY; omega),
    if_neg (by unfold DRC.SCHED_CFG; omega), if_neg (by unfold MPR.SCRUB_CTL; omega),
    if_neg (by unfold MPR.SCRUB_RANGE_BASE MPR.SCRUB_RANGE_PAGES; omega), if_pos (by unfold MPR.LOG_ADDR_LO MPR.LOG_FIRST; omega)]
  exact congrArg some (if_neg fun e => hne _ e.1)

/-- The offsets of a register array. -/
def RegDesc.offsets (d : RegDesc) : List Nat :=
  (List.range d.pcount).flatMap fun p => (List.range d.count).map fun k => d.base + d.pstride * p + d.stride * k

theorem RegDesc.mem_offsets (h : d.covers off = true) : off ∈ d.offsets := by
  simp only [RegDesc.covers, List.any_eq_true, List.mem_range, Bool.and_eq_true, decide_eq_true_eq, beq_iff_eq] at h
  obtain ⟨p, hp, ⟨hle, hmod⟩, hk⟩ := h
  refine List.mem_flatMap.2 ⟨p, List.mem_range.2 hp, List.mem_map.2 ⟨_, List.mem_range.2 hk, ?_⟩⟩
  have := Nat.div_add_mod (off - (d.base + d.pstride * p)) d.stride
  omega

/-- The map's check: a register with the plain codes has no rule, or only one that changes nothing, or stands among the registers of which
`sideRegs` says that their writing bears on something else. -/
def RegDesc.ruled (d : RegDesc) : Bool :=
  d.offsets.all fun off => ruleFree off || (logRead off && d.fields.all fun q => q.2.2 == .ro) || sideRegs.contains off

theorem descsOf_ruled (off : Nat) : ∀ d ∈ descsOf off, d.plain = true → d.ruled = true := by
  unfold descsOf
  split
  · decide +kernel
  · split <;> decide +kernel

theorem rule_cases (hd : regDesc off = some d) (hp : d.plain = true) (hs : off ∉ sideRegs) :
    ruleFree off = true ∨ (logRead off = true ∧ ∀ q ∈ d.fields, q.2.2 = .ro) := by
  have hc : d.covers off = true := List.find?_some (p := fun d : RegDesc => d.covers off) hd
  have h := List.all_eq_true.1 (descsOf_ruled off d (List.mem_of_find?_eq_some hd) hp) off (RegDesc.mem_offsets hc)
  simpa [hs] using h

/-! The write of such a register, and what follows it. -/

theorem exec_registerWrite_of_noRule (up : s.bar0Up = true) (h24 : off < 2 ^ 24) (hd : (regDesc off).isSome = true) (hl : s.lacks off = false)
    (hr : (s.heard b).NoRule b off v) :
    exec (.registerWrite b off v) s = .next ((s.heard b).afterWrite ((s.heard b).writeFields off v) off) := by
  show execRegisterWrite b off v s = _
  have hn : (regDesc off).isNone = false := by rw [← Option.not_isSome, hd]; rfl
  obtain ⟨h1, h2, h3⟩ := hr
  rw [execRegisterWrite, if_neg (by omega), if_neg (by simp [up])]
  simp [hn, State.heard_lacks, hl, h1, h2, h3]

theorem State.afterWrite_of_ruleFree (h : ruleFree off = true) (hs : off ∉ sideRegs) : s.afterWrite t off = t := by
  have hm : ¬(ICU.MTIMECMP_LO 0 ≤ off ∧ off ≤ ICU.MTIMECMP_HI 3) := by
    simp only [ruleFree, Bool.and_eq_true, Bool.not_eq_true', Bool.and_eq_false_iff, decide_eq_false_iff_not] at h
    tauto
  have side : ∀ o ∈ sideRegs, off ≠ o := fun o ho e => hs (e ▸ ho)
  rw [State.afterWrite, if_neg (side _ (by decide +kernel)), if_neg (side _ (by decide +kernel)), if_neg (side _ (by decide +kernel)), if_neg hm,
    if_neg (side _ (by decide +kernel)), if_neg (side _ (by decide +kernel))]

/-- A write of fields by their codes and then a change of other registers and parts. -/
theorem State.written_then {u : State} {ps : List Part} {fs : List Fld} (hd : regDesc off = some d)
    (hu : (s.writeFields off v).frame u ps fs) (hf : ∀ g ∈ fs, off ≠ g.off) :
    (∀ q ∈ d.fields, u.get ⟨off, q.1, q.2.1⟩ = q.2.2.written (s.get ⟨off, q.1, q.2.1⟩) (bits v q.1 q.2.1)) ∧ s.frame u ps (d.flds off ++ fs) := by
  refine ⟨fun q hq => ?_, ?_⟩
  · rw [hu.2 _ ((fieldsOk_of_regDesc hd).1 q hq) fun g hg => .inl (hf g hg)]
    exact State.get_writeFields hd q hq
  · have h1 : s.frame (s.writeFields off v) ps (d.flds off ++ fs) :=
      (State.frame_writeFields hd).mono (fun _ h => absurd h List.not_mem_nil) fun _ h => List.mem_append_left _ h
    exact h1.trans (hu.mono (fun _ h => h) fun _ h => List.mem_append_right _ h)

theorem State.written_ro (hw : ∀ q ∈ d.fields, q.2.2 = .ro) :
    ∀ q ∈ d.fields, s.get ⟨off, q.1, q.2.1⟩ = q.2.2.written (s.get ⟨off, q.1, q.2.1⟩) (bits v q.1 q.2.1) := by
  intro q hq
  rw [hw q hq, Acc.written]

/-- A write by the access codes alone (R6, R7). -/
theorem registerWrite_plain (up : s.bar0Up = true) (h24 : off < 2 ^ 24) (hd : regDesc off = some d) (hp : d.plain = true) (hs : off ∉ sideRegs)
    (hl : s.lacks off = false) : Answers (.registerWrite b off v) s fun t =>
      (∀ q ∈ d.fields, t.get ⟨off, q.1, q.2.1⟩ = q.2.2.written ((s.heard b).get ⟨off, q.1, q.2.1⟩) (bits v q.1 q.2.1)) ∧
      (s.heard b).frame t [] (d.flds off) := by
  have hd' : (regDesc off).isSome = true := by rw [hd]; rfl
  obtain hfree | ⟨hlog, hro⟩ := rule_cases hd hp hs
  · refine ⟨_, exec_registerWrite_of_noRule up h24 hd' hl (State.noRule_of_ruleFree hfree), ?_⟩
    rw [State.afterWrite_of_ruleFree hfree hs]
    exact ⟨State.get_writeFields hd, State.frame_writeFields hd⟩
  · refine ⟨_, exec_registerWrite_of_rule up h24 hd' hl (State.rule_of_logRead hlog), State.written_ro hro, State.frame.rfl'⟩

/-- An offset that no block assigns is counted (R23). -/
theorem registerWrite_unassigned (up : s.bar0Up = true) (h24 : off < 2 ^ 24) (hd : regDesc off = none) :
    exec (.registerWrite b off v) s = .next ((s.heard b).bump HIF.ERR_COUNT_UNASSIGNED) := by
  show execRegisterWrite b off v s = _
  rw [execRegisterWrite, if_neg (by omega), if_neg (by simp [up])]
  simp [hd]

theorem registerWrite_lacking (up : s.bar0Up = true) (h24 : off < 2 ^ 24) (hd : (regDesc off).isSome = true) (hl : s.lacks off = true) :
    exec (.registerWrite b off v) s = .next (s.heard b) := by
  show execRegisterWrite b off v s = _
  have hn : (regDesc off).isNone = false := by rw [← Option.not_isSome, hd]; rfl
  rw [execRegisterWrite, if_neg (by omega), if_neg (by simp [up])]
  simp [hn, State.heard_lacks, hl]

theorem registerWrite_down (hdown : s.bar0Up = false) (h24 : off < 2 ^ 24) : exec (.registerWrite b off v) s = .next s := by
  show execRegisterWrite b off v s = _
  rw [execRegisterWrite, if_neg (by omega), if_pos hdown]

theorem State.readReg_unassigned (h : regDesc off = none) : s.readReg off = 0 := by simp [State.readReg, h]
theorem State.readReg_lacking (h : s.lacks off = true) : s.readReg off = 0 := by simp [State.readReg, h]

/-! The registers with plain codes whose writing bears on something else. -/

theorem State.frame_wakeEn : s.frame (t.afterWrite s PWR.WAKE_EN) [.power] [PWR.PWR_STAT_STATE] := by
  rw [State.afterWrite, if_pos rfl]
  exact State.frame.rfl'.checkWake (by simp) (by simp)
theorem State.frame_rgsCfg : s.frame (t.afterWrite s RGS.RGS_CFG) [.pads] [] := by
  have e : t.afterWrite s RGS.RGS_CFG = (if !t.faultN && s.faultN then s.alertRise 0 else s) := rfl
  rw [e]
  split
  · exact State.frame.rfl'.pads _ (by simp)
  · exact State.frame.rfl'
theorem State.frame_ppsCtl : s.frame (t.afterWrite s DAT.PPS_CTL) [.dater] [] := by
  have e : t.afterWrite s DAT.PPS_CTL = s.ppsUpdate := rfl
  rw [e, State.ppsUpdate]
  split
  · exact State.frame.rfl'
  · exact State.frame.rfl'.dater _ (by simp)
theorem State.frame_domainSel : s.frame (t.afterWrite s CNS.DOMAIN_SEL) [] [CNS.DOMAIN_STAT_VALID, CNS.DOMAIN_STAT_TRIM_MV, CNS.DOMAIN_STAT_SLACK] := by
  have e : t.afterWrite s CNS.DOMAIN_SEL = s.showDomain := rfl
  rw [e, State.showDomain]
  split
  · exact ((State.frame.rfl'.put _ (by simp)).put _ (by simp)).put _ (by simp)
  · exact State.frame.rfl'

/-- A write of such a register: the fields under their codes, and what bears on them. -/
theorem registerWrite_side {ps : List Part} {fs : List Fld} (up : s.bar0Up = true) (h24 : off < 2 ^ 24) (hd : regDesc off = some d)
    (hl : s.lacks off = false) (hr : (s.heard b).NoRule b off v) (ha : ∀ t u : State, u.frame (t.afterWrite u off) ps fs)
    (hf : ∀ g ∈ fs, off ≠ g.off) : Answers (.registerWrite b off v) s fun t =>
      (∀ q ∈ d.fields, t.get ⟨off, q.1, q.2.1⟩ = q.2.2.written ((s.heard b).get ⟨off, q.1, q.2.1⟩) (bits v q.1 q.2.1)) ∧
      (s.heard b).frame t ps (d.flds off ++ fs) :=
  ⟨_, exec_registerWrite_of_noRule up h24 (by rw [hd]; rfl) hl hr, State.written_then hd (ha _ _) hf⟩

/-- The timers' compare registers: the word is taken, and MTIP follows it (R416). -/
theorem registerWrite_mtimecmp {i : Nat} (up : s.bar0Up = true) (hi : i < 8) :
    exec (.registerWrite b (ICU.MTIMECMP_LO 0 + 4 * i) v) s =
      exec (.timerCompare (i / 2)) ((s.heard b).put (.whole (ICU.MTIMECMP_LO 0 + 4 * i)) v) := by
  have ha : ∀ i < 8, assigned (ICU.MTIMECMP_LO 0 + 4 * i) = true := by decide +kernel
  have hdesc : ∀ i < 8, (regDesc (ICU.MTIMECMP_LO 0 + 4 * i)).map (·.fields) = some [(0, 32, .rw 0 0xFFFFFFFF)] := by decide +kernel
  have hr : (s.heard b).NoRule b (ICU.MTIMECMP_LO 0 + 4 * i) v := by interval_cases i <;> exact ⟨rfl, rfl, rfl⟩
  obtain ⟨h24, hs, hg⟩ := assigned_iff.1 (ha i hi)
  obtain ⟨d, hd, hf⟩ := Option.map_eq_some_iff.1 (hdesc i hi)
  have hput : (s.heard b).put ⟨ICU.MTIMECMP_LO 0 + 4 * i, 0, 32⟩ (bits v 0 32) = (s.heard b).put (.whole (ICU.MTIMECMP_LO 0 + 4 * i)) v := by
    simp [State.put, Fld.whole, setBits, bits]
  have hb : bits v 0 32 ≤ 0xFFFFFFFF := by have := bits_lt v 0 32; omega
  have hw : (s.heard b).writeFields (ICU.MTIMECMP_LO 0 + 4 * i) v = (s.heard b).put (.whole (ICU.MTIMECMP_LO 0 + 4 * i)) v := by
    rw [State.writeFields_of_regDesc hd, hf, ← hput]
    exact if_pos ⟨Nat.zero_le _, hb⟩
  have hafter : ∀ t : State, (s.heard b).afterWrite t (ICU.MTIMECMP_LO 0 + 4 * i) = t.checkTimer (i / 2) := by
    intro t; interval_cases i <;> rfl
  rw [exec_registerWrite_of_noRule up h24 hs (State.lacks_of_gradeReg hg) hr, hw, hafter]
  rfl

end
end Sys2Proof.Machine

section
open Sys2Proof Sys2Proof.Machine

/-- Settles O8, clause by clause. -/
theorem registerWritesFollowTheirAccessCodes : Obligations.RegisterWritesFollowTheirAccessCodes := by
  unfold Obligations.RegisterWritesFollowTheirAccessCodes
  refine ⟨?plain, ?unassigned, ?readUnassigned, ?lacking, ?down, ?side, ?domainSel, ?mtimecmp⟩
  case plain => exact fun s h off v d up h24 hd hp hs hl => registerWrite_plain up h24 hd hp hs hl
  case unassigned =>
    exact fun s h off v up h24 hd => ⟨_, registerWrite_unassigned up h24 hd, State.get_bump_same _ (by decide), State.frame.rfl'.bump _ (by simp)⟩
  case readUnassigned => exact fun s off hd => State.readReg_unassigned hd
  case lacking =>
    exact fun s h off v up h24 hd hl =>
      ⟨_, registerWrite_lacking up h24 hd hl, State.frame.rfl', State.readReg_lacking hl, State.readReg_lacking (by rwa [State.heard_lacks])⟩
  case down => exact fun s h off v hdown h24 => ⟨_, registerWrite_down hdown h24, State.frame.rfl'⟩
  case side =>
    intro s h off v d up ho hd
    obtain rfl | rfl | rfl | ⟨rfl, hbig⟩ := ho
    · exact registerWrite_side up (by decide) hd (State.lacks_of_gradeReg (by decide +kernel)) ⟨rfl, rfl, rfl⟩ (fun _ _ => State.frame_wakeEn) (by decide)
    · exact registerWrite_side up (by decide) hd (State.lacks_of_gradeReg (by decide +kernel)) ⟨rfl, rfl, rfl⟩ (fun _ _ => State.frame_rgsCfg) (by decide)
    · exact registerWrite_side up (by decide) hd (State.lacks_of_gradeReg (by decide +kernel)) ⟨rfl, rfl, rfl⟩ (fun _ _ => State.frame_ppsCtl) (by decide)
    · exact registerWrite_side up (by decide) hd (State.lacks_of_big hbig) ⟨rfl, rfl, rfl⟩ (fun _ _ => State.frame_domainSel) (by decide)
  case domainSel =>
    intro s h v up hsmall
    have hl : s.lacks CNS.DOMAIN_SEL = true := by rw [State.lacks, hsmall]; rfl
    exact ⟨_, registerWrite_lacking up (by decide) (by decide +kernel) hl, State.frame.rfl'⟩
  case mtimecmp => exact fun s h i v up hi => registerWrite_mtimecmp up hi

end

/-! PROOFS of the statements of 01_device_organisation.md. -/

/-! ### Reset -/
section
set_option Elab.async false
open Sys2Proof Sys2Proof.Machine

/-- Settles O3: after reset every table is empty, so that each register, stream and ring pair reads as its table's default. -/
theorem resetLeavesTheMapsValues : Obligations.ResetLeavesTheMapsValues := by
  unfold Obligations.ResetLeavesTheMapsValues
  exact ⟨rfl, rfl, rfl, rfl, fun off => Tab.get_nil _ off, fun n => by rw [State.stream, State.reset, Tab.get_nil]; rfl,
    fun n => Tab.get_nil _ n, rfl⟩

end

namespace Sys2Proof.Machine
set_option Elab.async false

/-! ### Every command answers a next state -/

section
set_option linter.unusedTactic false
set_option linter.unreachableTactic false

/-- The outcome is a next state. -/
def Goes (o : Host.Outcome State Fault Refusal) : Prop := ∃ t, o = .next t

theorem Goes.next {t : State} : Goes (.next t) := ⟨t, rfl⟩
theorem Goes.ite {c : Prop} [Decidable c] {x y} (hx : Goes x) (hy : Goes y) : Goes (if c then x else y) := by
  split
  · exact hx
  · exact hy

/-- Where a register has a rule of its own, the rule answers a next state. -/
def OptGoes (x : Option (Host.Outcome State Fault Refusal)) : Prop := ∀ o, x = some o → Goes o

theorem OptGoes.some {o} (h : Goes o) : OptGoes (some o) := fun _ e => by cases e; exact h
theorem OptGoes.none : OptGoes none := fun _ e => by cases e
theorem OptGoes.ite {c : Prop} [Decidable c] {x y} (hx : OptGoes x) (hy : OptGoes y) : OptGoes (if c then x else y) := by
  split
  · exact hx
  · exact hy

variable (s : State)

theorem execDramTraining_goes : Goes (execDramTraining s) := by unfold execDramTraining; exact .ite .next .next
theorem execDramTrainingDone_goes (tries) : Goes (execDramTrainingDone tries s) := by
  unfold execDramTrainingDone; repeat' first | with_reducible exact .next | split | extract_lets
theorem execMr4Poll_goes (c code hot) : Goes (execMr4Poll c code hot s) := by unfold execMr4Poll; exact .ite .next .next
theorem execDramCommandIssue_goes (c) : Goes (execDramCommandIssue c s) := by
  unfold execDramCommandIssue; repeat' first | with_reducible exact .next | split | extract_lets
theorem execDramRead_goes (block engine) : Goes (execDramRead block engine s) := by
  unfold execDramRead; repeat' first | with_reducible exact .next | split | extract_lets
theorem execDramWrite_goes (block data engine) : Goes (execDramWrite block data engine s) := by
  unfold execDramWrite; repeat' first | with_reducible exact .next | split | extract_lets
theorem execNarrowWrite_goes (addr data) : Goes (execNarrowWrite addr data s) := by
  unfold execNarrowWrite; repeat' first | with_reducible exact .next | split | extract_lets
theorem execReadDataCheck_goes (unit addr mask engine hart again) : Goes (execReadDataCheck unit addr mask engine hart again s) := by
  unfold execReadDataCheck; repeat' first | with_reducible exact .next | split | extract_lets
theorem execLogEntryFree_goes (e) : Goes (execLogEntryFree e s) := by unfold execLogEntryFree; exact .ite .next .next
theorem execScrubRead_goes : Goes (execScrubRead s) := by unfold execScrubRead; repeat' first | with_reducible exact .next | split
theorem execScrubCtlWrite_goes (which value) : Goes (execScrubCtlWrite which value s) := by
  unfold execScrubCtlWrite; repeat' first | with_reducible exact .next | split
theorem execDqCentreMove_goes (c lane write) : Goes (execDqCentreMove c lane write s) := by
  unfold execDqCentreMove; repeat' first | with_reducible exact .next | split | extract_lets
theorem execDmaBurst_goes (ch) : Goes (execDmaBurst ch s) := by
  unfold execDmaBurst; repeat' first | with_reducible exact .next | split | extract_lets
theorem execDmaSlipComplete_goes (ch) : Goes (execDmaSlipComplete ch s) := by unfold execDmaSlipComplete; exact .ite .next .next
theorem execBarrierComplete_goes (ch) : Goes (execBarrierComplete ch s) := by unfold execBarrierComplete; exact .ite .next .next
theorem execInit_goes (p) : Goes (execInit p s) := by unfold execInit; repeat' first | with_reducible exact .next | split
theorem execPoolInitDone_goes (p) : Goes (execPoolInitDone p s) := by unfold execPoolInitDone; exact .ite .next .next
theorem execDisable_goes (p) : Goes (execDisable p s) := by unfold execDisable; exact .ite .next .next
theorem execReclaim_goes : Goes (execReclaim s) := by unfold execReclaim; split <;> exact .next
theorem execMsixUnmask_goes (v) : Goes (execMsixUnmask v s) := by unfold execMsixUnmask; split <;> exact .next
theorem execSqTail_goes (n idx) : Goes (execSqTail n idx s) := by
  unfold execSqTail; repeat' first | with_reducible exact .next | split | extract_lets
theorem execRqHead_goes (n idx) : Goes (execRqHead n idx s) := by
  unfold execRqHead; repeat' first | with_reducible exact .next | split | extract_lets
theorem execSlipReread_goes (n) : Goes (execSlipReread n s) := by
  unfold execSlipReread; repeat' first | with_reducible exact .next | split | extract_lets
theorem execEventGroupWrite_goes (n) : Goes (execEventGroupWrite n s) := by
  unfold execEventGroupWrite; repeat' first | with_reducible exact .next | split | extract_lets
theorem execEventQueueTimeout_goes (n) : Goes (execEventQueueTimeout n s) := by unfold execEventQueueTimeout; exact .ite .next .next
theorem execRpCfgWrite_goes (n v) : Goes (execRpCfgWrite n v s) := by
  unfold execRpCfgWrite; repeat' first | with_reducible exact .next | split | extract_lets
theorem execNop_goes (n k) : Goes (execNop n k s) := by unfold execNop; repeat' first | with_reducible exact .next | split
theorem execUnknownOpcode_goes (n k) : Goes (execUnknownOpcode n k s) := by
  unfold execUnknownOpcode; repeat' first | with_reducible exact .next | split
theorem execQueryStream_goes (n k) : Goes (execQueryStream n k s) := by unfold execQueryStream; split <;> exact .next
theorem execQueryDigest_goes (n k) : Goes (execQueryDigest n k s) := by unfold execQueryDigest; repeat' first | with_reducible exact .next | split
theorem execReturnFolio_goes (n k) : Goes (execReturnFolio n k s) := by
  unfold execReturnFolio; repeat' first | with_reducible exact .next | split | extract_lets
theorem execEnd_goes (u n) : Goes (execEnd u n s) := by unfold execEnd; exact .ite .next .next
theorem execItemRelease_goes (u n k) : Goes (execItemRelease u n k s) := by
  unfold execItemRelease; repeat' first | with_reducible exact .next | split | extract_lets
theorem execQueueTimeout_goes (n) : Goes (execQueueTimeout n s) := by
  unfold execQueueTimeout; repeat' first | with_reducible exact .next | split | extract_lets
theorem execMclaim_goes (h) : Goes (execMclaim h s) := by
  unfold execMclaim; repeat' first | with_reducible exact .next | split | extract_lets
theorem execMcomplete_goes (h n) : Goes (execMcomplete h n s) := by unfold execMcomplete; repeat' first | with_reducible exact .next | split
theorem execSourceConfigWrite_goes (n v) : Goes (execSourceConfigWrite n v s) := by
  unfold execSourceConfigWrite; repeat' first | with_reducible exact .next | split
theorem execLockstepMismatch_goes (p) : Goes (execLockstepMismatch p s) := by unfold execLockstepMismatch; split <;> exact .next
theorem execStoreParityError_goes (i a copyPoisoned) : Goes (execStoreParityError i a copyPoisoned s) := by
  unfold execStoreParityError; exact .ite .next .next
theorem execStoreScan_goes (i upsets) : Goes (execStoreScan i upsets s) := by unfold execStoreScan; exact .ite .next .next
theorem execDrop_goes (i byFirmware dest) : Goes (execDrop i byFirmware dest s) := by
  unfold execDrop; repeat' first | with_reducible exact .next | split
theorem execHandshakeWatchdog_goes (u) : Goes (execHandshakeWatchdog u s) := by unfold execHandshakeWatchdog; split <;> exact .next
theorem execTimeOutArm_goes (t) : Goes (execTimeOutArm t s) := by
  unfold execTimeOutArm; repeat' first | with_reducible exact .next | split | extract_lets
theorem execTimeOutEdge_goes (t) : Goes (execTimeOutEdge t s) := by
  unfold execTimeOutEdge; repeat' first | with_reducible exact .next | split | extract_lets
theorem execIncrWrite_goes (v) : Goes (execIncrWrite v s) := by unfold execIncrWrite; repeat' first | with_reducible exact .next | split
theorem execTimeRefclkLost_goes : Goes (execTimeRefclkLost s) := by unfold execTimeRefclkLost; exact .ite .next .next
theorem execTimeInCapture_goes (i rising) : Goes (execTimeInCapture i rising s) := by
  unfold execTimeInCapture; repeat' first | with_reducible exact .next | split
theorem execTimeInPop_goes (i) : Goes (execTimeInPop i s) := by unfold execTimeInPop; split <;> exact .next
theorem execMckpt_goes (h ops) : Goes (execMckpt h ops s) := by
  unfold execMckpt; repeat' first | with_reducible exact .next | split | extract_lets
theorem execChunkCommit_goes (i c) : Goes (execChunkCommit i c s) := by
  unfold execChunkCommit; repeat' first | with_reducible exact .next | split | extract_lets
theorem execGuardEvaluate_goes (n num) : Goes (execGuardEvaluate n num s) := by
  unfold execGuardEvaluate; repeat' first | with_reducible exact .next | split | extract_lets
theorem execLeafRelease_goes (n num) : Goes (execLeafRelease n num s) := by
  unfold execLeafRelease; repeat' first | with_reducible exact .next | split | extract_lets
theorem execPictureRelease_goes (n num) : Goes (execPictureRelease n num s) := by
  unfold execPictureRelease; repeat' first | with_reducible exact .next | split | extract_lets
theorem execSearchBlock_goes (n num b) : Goes (execSearchBlock n num b s) := by
  unfold execSearchBlock; repeat' first | with_reducible exact .next | split | extract_lets
theorem execCoarseCplxPost_goes (n num) : Goes (execCoarseCplxPost n num s) := by
  unfold execCoarseCplxPost; repeat' first | with_reducible exact .next | split | extract_lets
theorem execAppletCallTimeout_goes (n h) : Goes (execAppletCallTimeout n h s) := by unfold execAppletCallTimeout; split <;> exact .next
theorem execAppletTrap_goes (n f) : Goes (execAppletTrap n f s) := by unfold execAppletTrap; split <;> exact .next
theorem execStatsFolioArrival_goes (n num) : Goes (execStatsFolioArrival n num s) := by
  unfold execStatsFolioArrival; repeat' first | with_reducible exact .next | split | extract_lets
theorem execFrameStart_goes (port k fnum) : Goes (execFrameStart port k fnum s) := by
  unfold execFrameStart; repeat' first | with_reducible exact .next | split | extract_lets
theorem execMemberFrameStart_goes (port k fnum) : Goes (execMemberFrameStart port k fnum s) := by
  unfold execMemberFrameStart; repeat' first | with_reducible exact .next | split | extract_lets
theorem execFrameEnd_goes (port k) : Goes (execFrameEnd port k s) := by
  unfold execFrameEnd; repeat' first | with_reducible exact .next | split | extract_lets
theorem execRowHeaderArrival_goes (port vc dt l ecc) : Goes (execRowHeaderArrival port vc dt l ecc s) := by
  unfold execRowHeaderArrival; repeat' first | with_reducible exact .next | split | extract_lets
theorem execLongPacket_goes (port vc l wc crcOk data) : Goes (execLongPacket port vc l wc crcOk data s) := by
  unfold execLongPacket; repeat' first | with_reducible exact .next | split | extract_lets
theorem execLineTimeout_goes (n) : Goes (execLineTimeout n s) := by
  unfold execLineTimeout; repeat' first | with_reducible exact .next | split | extract_lets
theorem execRowEmit_goes (n) : Goes (execRowEmit n s) := by
  unfold execRowEmit; repeat' first | with_reducible exact .next | split | extract_lets
theorem execRowLanded_goes (n) : Goes (execRowLanded n s) := by
  unfold execRowLanded; repeat' first | with_reducible exact .next | split | extract_lets
theorem execDeskewSequence_goes (p lanes initial) : Goes (execDeskewSequence p lanes initial s) := by
  unfold execDeskewSequence; exact .ite .next .next
theorem execAlignmentPoint_goes (p f) : Goes (execAlignmentPoint p f s) := by
  unfold execAlignmentPoint; repeat' first | with_reducible exact .next | split | extract_lets
theorem execPacketRelease_goes (p f) : Goes (execPacketRelease p f s) := by
  unfold execPacketRelease; repeat' first | with_reducible exact .next | split | extract_lets
theorem execFrameTransmit_goes (p) : Goes (execFrameTransmit p s) := by
  unfold execFrameTransmit; repeat' first | with_reducible exact .next | split | extract_lets
theorem execGateBlockDrop_goes (p c) : Goes (execGateBlockDrop p c s) := by
  unfold execGateBlockDrop; repeat' first | with_reducible exact .next | split | extract_lets
theorem execTelemetrySample_goes (p) : Goes (execTelemetrySample p s) := by unfold execTelemetrySample; exact .ite .next .next
theorem execNetLinkUp_goes (q) : Goes (execNetLinkUp q s) := by unfold execNetLinkUp; exact .ite .next .next
theorem execPortCfgWrite_goes (p v) : Goes (execPortCfgWrite p v s) := by unfold execPortCfgWrite; exact .ite .next .next
theorem execGclCommit_goes (p) : Goes (execGclCommit p s) := by
  unfold execGclCommit; repeat' first | with_reducible exact .next | split | extract_lets
theorem execGateEntryChange_goes (p) : Goes (execGateEntryChange p s) := by unfold execGateEntryChange; exact .ite .next .next
theorem execCbsWrite_goes (p c which v) : Goes (execCbsWrite p c which v s) := by unfold execCbsWrite; exact .ite .next .next
theorem execPsfWrite_goes (p f which v) : Goes (execPsfWrite p f which v s) := by unfold execPsfWrite; exact .ite .next .next
theorem execPtpSendTimer_goes (p ty) : Goes (execPtpSendTimer p ty s) := by
  unfold execPtpSendTimer; repeat' first | with_reducible exact .next | split | extract_lets
theorem execI2cCmd_goes (v) : Goes (execI2cCmd v s) := by unfold execI2cCmd; exact .ite .next .next
theorem execI2cDone_goes (ack data) : Goes (execI2cDone ack data s) := by unfold execI2cDone; split <;> exact .next
theorem execOpenStream_goes (n k fits) : Goes (execOpenStream n k fits s) := by
  unfold execOpenStream; repeat' first | with_reducible exact .next | split | extract_lets
theorem execSetConfig_goes (n k) : Goes (execSetConfig n k s) := by
  unfold execSetConfig; repeat' first | with_reducible exact .next | split | extract_lets
theorem execSetConfigDevice_goes (n k) : Goes (execSetConfigDevice n k s) := by
  unfold execSetConfigDevice; repeat' first | with_reducible exact .next | split | extract_lets
theorem execCloseStream_goes (n k) : Goes (execCloseStream n k s) := by
  unfold execCloseStream; repeat' first | with_reducible exact .next | split | extract_lets
theorem execStreamClosed_goes (n) : Goes (execStreamClosed n s) := by
  unfold execStreamClosed; repeat' first | with_reducible exact .next | split | extract_lets
theorem execFlushStream_goes (n k) : Goes (execFlushStream n k s) := by
  unfold execFlushStream; repeat' first | with_reducible exact .next | split | extract_lets
theorem execConservatorRound_goes (r) : Goes (execConservatorRound r s) := by
  unfold execConservatorRound; repeat' first | with_reducible exact .next | split | extract_lets
theorem execSlackAlarm_goes (d slack needs) : Goes (execSlackAlarm d slack needs s) := by
  unfold execSlackAlarm; repeat' first | with_reducible exact .next | split | extract_lets
theorem execBaselineTimeout_goes : Goes (execBaselineTimeout s) := by
  unfold execBaselineTimeout; repeat' first | with_reducible exact .next | split | extract_lets
theorem execVoltageStep_goes : Goes (execVoltageStep s) := by unfold execVoltageStep; exact .ite .next .next
theorem execBandDwellExpiry_goes : Goes (execBandDwellExpiry s) := by unfold execBandDwellExpiry; split <;> exact .next
theorem execAvsTransaction_goes (ok mv) : Goes (execAvsTransaction ok mv s) := by
  unfold execAvsTransaction; repeat' first | with_reducible exact .next | split | extract_lets
theorem execFaultMessage_goes (u k detail raw addr) : Goes (execFaultMessage u k detail raw addr s) := by
  unfold execFaultMessage; repeat' first | with_reducible exact .next | split | extract_lets
theorem execAck_goes (all c u) : Goes (execAck all c u s) := by unfold execAck; exact .ite .next .next
theorem execInject_goes (c k u) : Goes (execInject c k u s) := by unfold execInject; exact .ite .next .next
theorem execFaultNHoldExpiry_goes : Goes (execFaultNHoldExpiry s) := by unfold execFaultNHoldExpiry; split <;> exact .next
theorem execWriteDrainTimeout_goes (i) : Goes (execWriteDrainTimeout i s) := by
  unfold execWriteDrainTimeout; repeat' first | with_reducible exact .next | split | extract_lets
theorem execRedispatch_goes (i dest) : Goes (execRedispatch i dest s) := by
  unfold execRedispatch; repeat' first | with_reducible exact .next | split | extract_lets
theorem execDigestSweep_goes (held) : Goes (execDigestSweep held s) := by unfold execDigestSweep; exact .ite .next .next
theorem execEpochBegin_goes : Goes (execEpochBegin s) := by unfold execEpochBegin; exact .ite .next .next
theorem execEpochAckTimeout_goes (missing) : Goes (execEpochAckTimeout missing s) := by
  unfold execEpochAckTimeout; repeat' first | with_reducible exact .next | split | extract_lets
theorem execRecordStart_goes (n k) : Goes (execRecordStart n k s) := by unfold execRecordStart; repeat' first | with_reducible exact .next | split
theorem execRecordStop_goes (n k) : Goes (execRecordStop n k s) := by
  unfold execRecordStop; repeat' first | with_reducible exact .next | split | extract_lets
theorem execMark_goes (n k) : Goes (execMark n k s) := by
  unfold execMark; repeat' first | with_reducible exact .next | split | extract_lets
theorem execPictureToBindery_goes (n num) : Goes (execPictureToBindery n num s) := by
  unfold execPictureToBindery; repeat' first | with_reducible exact .next | split | extract_lets
theorem execCommitTimer_goes (n) : Goes (execCommitTimer n s) := by unfold execCommitTimer; repeat' first | with_reducible exact .next | split
theorem execVerifyCompareDone_goes (p n num equal) : Goes (execVerifyCompareDone p n num equal s) := by
  unfold execVerifyCompareDone; repeat' first | with_reducible exact .next | split
theorem execVerifyLagExpiry_goes (p n num) : Goes (execVerifyLagExpiry p n num s) := by
  unfold execVerifyLagExpiry; repeat' first | with_reducible exact .next | split
theorem execReadExtent_goes (n k) : Goes (execReadExtent n k s) := by
  unfold execReadExtent; repeat' first | with_reducible exact .next | split | extract_lets
theorem execMagPresenceFall_goes (p m) : Goes (execMagPresenceFall p m s) := by unfold execMagPresenceFall; exact .ite .next .next
theorem execMagPresenceAccept_goes (p) : Goes (execMagPresenceAccept p s) := by
  unfold execMagPresenceAccept; repeat' first | with_reducible exact .next | split
theorem execMagPerstRelease_goes (p) : Goes (execMagPerstRelease p s) := by
  unfold execMagPerstRelease; repeat' first | with_reducible exact .next | split
theorem execMagLinkUp_goes (p speed width) : Goes (execMagLinkUp p speed width s) := by
  unfold execMagLinkUp; repeat' first | with_reducible exact .next | split
theorem execMagLinkTimeout_goes (p) : Goes (execMagLinkTimeout p s) := by
  unfold execMagLinkTimeout; repeat' first | with_reducible exact .next | split
theorem execMagControllerReady_goes (p) : Goes (execMagControllerReady p s) := by unfold execMagControllerReady; split <;> exact .next
theorem execNvmeTimeout_goes (p k) : Goes (execNvmeTimeout p k s) := by
  unfold execNvmeTimeout; repeat' first | with_reducible exact .next | split | extract_lets
theorem execNvmeCompletion_goes (p k ok reply damage) : Goes (execNvmeCompletion p k ok reply damage s) := by
  unfold execNvmeCompletion; repeat' first | with_reducible exact .next | split | extract_lets
theorem execHealthLogTimer_goes (p) : Goes (execHealthLogTimer p s) := by unfold execHealthLogTimer; exact .ite .next .next
theorem execMagRemoval_goes (p) : Goes (execMagRemoval p s) := by
  unfold execMagRemoval; repeat' first | with_reducible exact .next | split | extract_lets
theorem execMagLinkLoss_goes (p) : Goes (execMagLinkLoss p s) := by unfold execMagLinkLoss; split <;> exact .next
theorem execSupplyFault_goes : Goes (execSupplyFault s) := by unfold execSupplyFault; exact .ite .next .next
theorem execSysResetN_goes (ns) : Goes (execSysResetN ns s) := by unfold execSysResetN; exact .ite .next .next
theorem execPerstN_goes (ns) : Goes (execPerstN ns s) := by unfold execPerstN; exact .ite .next .next
theorem execSysRefclkReturn_goes : Goes (execSysRefclkReturn s) := by
  unfold execSysRefclkReturn; repeat' first | with_reducible exact .next | split | extract_lets
theorem execResetRelease_goes : Goes (execResetRelease s) := by
  unfold execResetRelease; repeat' first | with_reducible exact .next | split | extract_lets
theorem execRstKey_goes (v) : Goes (execRstKey v s) := by unfold execRstKey; repeat' first | with_reducible exact .next | split
theorem execUnitReset_goes (key2 u) : Goes (execUnitReset key2 u s) := by unfold execUnitReset; repeat' first | with_reducible exact .next | split
theorem execUnitResetDone_goes : Goes (execUnitResetDone s) := by unfold execUnitResetDone; repeat' first | with_reducible exact .next | split
theorem execPdReqWrite_goes (byHost k v) : Goes (execPdReqWrite byHost k v s) := by unfold execPdReqWrite; exact .ite .next .next
theorem execSleepStepDone_goes (ops) : Goes (execSleepStepDone ops s) := by
  unfold execSleepStepDone; repeat' first | with_reducible exact .next | split
theorem execPmeTurnOff_goes : Goes (execPmeTurnOff s) := by unfold execPmeTurnOff; split <;> exact .next
theorem execL2Timeout_goes : Goes (execL2Timeout s) := by unfold execL2Timeout; split <;> exact .next
theorem execWakeEvent_goes (src) : Goes (execWakeEvent src s) := by unfold execWakeEvent; repeat' first | with_reducible exact .next | split
theorem execWakeStepDone_goes : Goes (execWakeStepDone s) := by unfold execWakeStepDone; split <;> exact .next
theorem execFuseLoadDone_goes (f) : Goes (execFuseLoadDone f s) := by unfold execFuseLoadDone; repeat' first | with_reducible exact .next | split
theorem execWindowClearDone_goes : Goes (execWindowClearDone s) := by unfold execWindowClearDone; exact .ite .next .next
theorem execWindowWrite_goes (off data) : Goes (execWindowWrite off data s) := by
  unfold execWindowWrite; repeat' first | with_reducible exact .next | split | extract_lets
theorem execLoadComplete_goes : Goes (execLoadComplete s) := by unfold execLoadComplete; repeat' first | with_reducible exact .next | split
theorem execAlive_goes (bar0 key) : Goes (execAlive bar0 key s) := by unfold execAlive; exact .ite .next .next
theorem execStartDeadline_goes : Goes (execStartDeadline s) := by unfold execStartDeadline; repeat' first | with_reducible exact .next | split
theorem execKeeperLockstepMismatch_goes : Goes (execKeeperLockstepMismatch s) := by unfold execKeeperLockstepMismatch; exact .ite .next .next
theorem execTranslationWalk_goes (who va write) : Goes (execTranslationWalk who va write s) := by
  unfold execTranslationWalk; repeat' first | with_reducible exact .next | split | extract_lets
theorem execResume_goes (id) : Goes (execResume id s) := by unfold execResume; repeat' first | with_reducible exact .next | split
theorem execAbort_goes (id) : Goes (execAbort id s) := by unfold execAbort; repeat' first | with_reducible exact .next | split
theorem execFaultRecordTimeout_goes : Goes (execFaultRecordTimeout s) := by unfold execFaultRecordTimeout; split <;> exact .next
theorem execEncodePicture_goes (n k) : Goes (execEncodePicture n k s) := by
  unfold execEncodePicture; repeat' first | with_reducible exact .next | split | extract_lets
theorem execDecodePicture_goes (n k lost au) : Goes (execDecodePicture n k lost au s) := by
  unfold execDecodePicture; repeat' first | with_reducible exact .next | split
theorem execStatus_goes : Goes (execStatus s) := by unfold execStatus; exact .ite .next .next
theorem execCause_goes : Goes (execCause s) := by unfold execCause; exact .ite .next .next
theorem execDeviceId_goes : Goes (execDeviceId s) := by unfold execDeviceId; exact .ite .next .next
theorem execUid_goes : Goes (execUid s) := by unfold execUid; exact .ite .next .next
theorem execEpochDigest_goes : Goes (execEpochDigest s) := by unfold execEpochDigest; exact .ite .next .next
theorem execFaults_goes : Goes (execFaults s) := by unfold execFaults; exact .ite .next .next
theorem execReset_goes (v pecOk) : Goes (execReset v pecOk s) := by unfold execReset; exact .ite .next .next
theorem execWake_goes (pecOk) : Goes (execWake pecOk s) := by unfold execWake; exact .ite .next .next
theorem execAlertResponse_goes : Goes (execAlertResponse s) := by unfold execAlertResponse; exact .ite .next .next
theorem execSmbCfgWrite_goes (v) : Goes (execSmbCfgWrite v s) := by
  unfold execSmbCfgWrite; repeat' first | with_reducible exact .next | split | extract_lets
theorem execSmbusUnknownCommand_goes : Goes (execSmbusUnknownCommand s) := by unfold execSmbusUnknownCommand; exact .ite .next .next
theorem execPinCheck_goes (p level) : Goes (execPinCheck p level s) := by unfold execPinCheck; split <;> exact .next
theorem execThermAssert_goes : Goes (execThermAssert s) := by unfold execThermAssert; exact .ite .next .next
theorem execRxFrame_goes (p f) : Goes (execRxFrame p f s) := by
  unfold execRxFrame
  refine .ite .next (.ite .next ?_)
  split
  · exact .next
  · exact .ite .next .next

/-! The registers with rules of their own, and REGISTER_WRITE. -/

theorem State.writeRstCmd_goes (v) : Goes (s.writeRstCmd v) := by
  unfold State.writeRstCmd
  split
  · exact ⟨_, rfl⟩
  · exact ⟨_, rfl⟩
  · exact execUnitReset_goes s _ _
  · exact .next

theorem State.writeInvCtl_goes (v) : Goes (s.writeInvCtl v) := by unfold State.writeInvCtl; split <;> exact ⟨_, rfl⟩

theorem State.writeFltCtl_goes (v) : Goes (s.writeFltCtl v) := by
  unfold State.writeFltCtl
  split
  · exact execResume_goes s _
  · exact execAbort_goes s _
  · exact .next

theorem State.ownLow_goes (byHost off v) : OptGoes (s.ownLow byHost off v) := by
  unfold State.ownLow
  repeat' first
    | with_reducible first
        | apply Goes.next | apply OptGoes.some | exact OptGoes.none | apply OptGoes.ite | apply Goes.ite | apply execAlive_goes
        | apply execRstKey_goes | apply execPdReqWrite_goes | apply execAck_goes | apply execInject_goes | apply execRpCfgWrite_goes
        | apply execSourceConfigWrite_goes | apply State.writeRstCmd_goes | apply State.writeInvCtl_goes | apply State.writeFltCtl_goes
    | exact ⟨_, rfl⟩
    | extract_lets

theorem State.writeUnitCtl_goes (byHost i v) : Goes (s.writeUnitCtl byHost i v) := by
  unfold State.writeUnitCtl
  extract_lets t
  exact .ite (execDrop_goes t _ _ _) .next

theorem State.writeTinCtl_goes (i v) : Goes (s.writeTinCtl i v) := by
  unfold State.writeTinCtl
  extract_lets t
  exact .ite (execTimeInPop_goes t _) .next

theorem State.ownMid_goes (off v) : OptGoes (s.ownMid off v) := by
  unfold State.ownMid
  repeat' first
    | with_reducible first
        | apply Goes.next | apply OptGoes.some | exact OptGoes.none | apply OptGoes.ite | apply Goes.ite | apply execReclaim_goes
        | apply execInit_goes | apply execScrubCtlWrite_goes | apply execLogEntryFree_goes
    | exact ⟨_, rfl⟩
    | extract_lets
  -- POOL_CTL with DISABLE and INIT: the one, then the other.
  obtain ⟨t, ht⟩ := execDisable_goes s (regIndex off (LND.POOL_CFG 0) 0x40)
  rw [ht]
  exact .ite (execInit_goes t _) .next

theorem State.ownNet_goes (p o v) : OptGoes (s.ownNet p o v) := by
  unfold State.ownNet
  repeat' first
    | with_reducible first
        | apply Goes.next | apply OptGoes.some | exact OptGoes.none | apply OptGoes.ite | apply Goes.ite | apply execPortCfgWrite_goes
        | apply execGclCommit_goes | apply execCbsWrite_goes | apply execPsfWrite_goes
    | extract_lets

theorem State.ownHigh_goes (byHost off v) : OptGoes (s.ownHigh byHost off v) := by
  unfold State.ownHigh
  repeat' first
    | with_reducible first
        | apply Goes.next | apply OptGoes.some | exact OptGoes.none | apply OptGoes.ite | apply Goes.ite | apply State.ownNet_goes
        | apply State.writeUnitCtl_goes | apply State.writeTinCtl_goes | apply execI2cCmd_goes | apply execIncrWrite_goes
        | apply execTimeOutArm_goes | apply execSmbCfgWrite_goes | apply execSqTail_goes | apply execRqHead_goes
    | exact ⟨_, rfl⟩
    | extract_lets

/-- Within BAR0 a register write goes on, whatever rule its register has (R23). -/
theorem execRegisterWrite_goes (byHost v) {off : Nat} (h : off < 2 ^ 24) : Goes (execRegisterWrite byHost off v s) := by
  unfold execRegisterWrite
  rw [if_neg (Nat.not_le.2 h)]
  refine .ite .next ?_
  extract_lets t
  refine .ite .next (.ite .next ?_)
  split
  case h_1 o e => exact t.ownLow_goes byHost off v o e
  split
  case h_1 o e => exact t.ownMid_goes off v o e
  split
  case h_1 o e => exact t.ownHigh_goes byHost off v o e
  exact .next

/-- Every command answers a next state: a register write within BAR0 by the lemma above, each other one by its meaning. -/
theorem exec_goes (c : Instr) (h : ∀ b off v, c = .registerWrite b off v → off < 2 ^ 24) : Goes (exec c s) := by
  cases c with
  | registerWrite b off v => exact execRegisterWrite_goes s b v (h b off v rfl)
  | handshakeWatchdog _ => exact execHandshakeWatchdog_goes s _
  | chunkCommit _ _ => exact execChunkCommit_goes s _ _
  | leafRelease _ _ => exact execLeafRelease_goes s _ _
  | pictureRelease _ _ => exact execPictureRelease_goes s _ _
  | searchBlock _ _ _ => exact execSearchBlock_goes s _ _ _
  | coarseCplxPost _ _ => exact execCoarseCplxPost_goes s _ _
  | guardEvaluate _ _ => exact execGuardEvaluate_goes s _ _
  | statsFolioArrival _ _ => exact execStatsFolioArrival_goes s _ _
  | appletCallTimeout _ _ => exact execAppletCallTimeout_goes s _ _
  | appletTrap _ _ => exact execAppletTrap_goes s _ _
  | sqTail _ _ => exact execSqTail_goes s _ _
  | rqHead _ _ => exact execRqHead_goes s _ _
  | slipReread _ => exact execSlipReread_goes s _
  | nopSlip _ _ => exact execNop_goes s _ _
  | openStream _ _ _ => exact execOpenStream_goes s _ _ _
  | closeStream _ _ => exact execCloseStream_goes s _ _
  | streamClosed _ => exact execStreamClosed_goes s _
  | setConfig _ _ => exact execSetConfig_goes s _ _
  | setConfigDevice _ _ => exact execSetConfigDevice_goes s _ _
  | encodePicture _ _ => exact execEncodePicture_goes s _ _
  | decodePicture _ _ _ _ => exact execDecodePicture_goes s _ _ _ _
  | flushStream _ _ => exact execFlushStream_goes s _ _
  | recordStart _ _ => exact execRecordStart_goes s _ _
  | recordStop _ _ => exact execRecordStop_goes s _ _
  | markTake _ _ => exact execMark_goes s _ _
  | readExtent _ _ => exact execReadExtent_goes s _ _
  | queryStream _ _ => exact execQueryStream_goes s _ _
  | queryDigest _ _ => exact execQueryDigest_goes s _ _
  | returnFolio _ _ => exact execReturnFolio_goes s _ _
  | unknownOpcode _ _ => exact execUnknownOpcode_goes s _ _
  | eventGroupWrite _ => exact execEventGroupWrite_goes s _
  | eventQueueTimeout _ => exact execEventQueueTimeout_goes s _
  | msixUnmask _ => exact execMsixUnmask_goes s _
  | rpCfgWrite _ _ => exact execRpCfgWrite_goes s _ _
  | epochBegin => exact execEpochBegin_goes s
  | epochAckTimeout _ => exact execEpochAckTimeout_goes s _
  | frameStart _ _ _ => exact execFrameStart_goes s _ _ _
  | memberFrameStart _ _ _ => exact execMemberFrameStart_goes s _ _ _
  | frameEnd _ _ => exact execFrameEnd_goes s _ _
  | rowHeaderArrival _ _ _ _ _ => exact execRowHeaderArrival_goes s _ _ _ _ _
  | longPacket _ _ _ _ _ _ => exact execLongPacket_goes s _ _ _ _ _ _
  | lineTimeout _ => exact execLineTimeout_goes s _
  | rowEmit _ => exact execRowEmit_goes s _
  | rowLanded _ => exact execRowLanded_goes s _
  | deskewSequence _ _ _ => exact execDeskewSequence_goes s _ _ _
  | magPresenceFall _ _ => exact execMagPresenceFall_goes s _ _
  | magPresenceAccept _ => exact execMagPresenceAccept_goes s _
  | magPerstRelease _ => exact execMagPerstRelease_goes s _
  | magLinkUp _ _ _ => exact execMagLinkUp_goes s _ _ _
  | magLinkTimeout _ => exact execMagLinkTimeout_goes s _
  | magControllerReady _ => exact execMagControllerReady_goes s _
  | nvmeCompletion _ _ _ _ _ => exact execNvmeCompletion_goes s _ _ _ _ _
  | nvmeTimeout _ _ => exact execNvmeTimeout_goes s _ _
  | commitTimer _ => exact execCommitTimer_goes s _
  | pictureToBindery _ _ => exact execPictureToBindery_goes s _ _
  | verifyCompareDone _ _ _ _ => exact execVerifyCompareDone_goes s _ _ _ _
  | verifyLagExpiry _ _ _ => exact execVerifyLagExpiry_goes s _ _ _
  | healthLogTimer _ => exact execHealthLogTimer_goes s _
  | magRemoval _ => exact execMagRemoval_goes s _
  | magLinkLoss _ => exact execMagLinkLoss_goes s _
  | alignmentPoint _ _ => exact execAlignmentPoint_goes s _ _
  | packetRelease _ _ => exact execPacketRelease_goes s _ _
  | frameTransmit _ => exact execFrameTransmit_goes s _
  | gateBlockDrop _ _ => exact execGateBlockDrop_goes s _ _
  | netLinkUp _ => exact execNetLinkUp_goes s _
  | rxFrame _ _ => exact execRxFrame_goes s _ _
  | ptpSendTimer _ _ => exact execPtpSendTimer_goes s _ _
  | gclCommit _ => exact execGclCommit_goes s _
  | gateEntryChange _ => exact execGateEntryChange_goes s _
  | cbsWrite _ _ _ _ => exact execCbsWrite_goes s _ _ _ _
  | psfWrite _ _ _ _ => exact execPsfWrite_goes s _ _ _ _
  | telemetrySample _ => exact execTelemetrySample_goes s _
  | portCfgWrite _ _ => exact execPortCfgWrite_goes s _ _
  | i2cCmd _ => exact execI2cCmd_goes s _
  | i2cDone _ _ => exact execI2cDone_goes s _ _
  | incrWrite _ => exact execIncrWrite_goes s _
  | timeRefclkLost => exact execTimeRefclkLost_goes s
  | timeOutArm _ => exact execTimeOutArm_goes s _
  | timeOutEdge _ => exact execTimeOutEdge_goes s _
  | timeInCapture _ _ => exact execTimeInCapture_goes s _ _
  | timeInPop _ => exact execTimeInPop_goes s _
  | dramTraining => exact execDramTraining_goes s
  | dramTrainingDone _ => exact execDramTrainingDone_goes s _
  | mr4Poll _ _ _ => exact execMr4Poll_goes s _ _ _
  | dramCommandIssue _ => exact execDramCommandIssue_goes s _
  | dramRead _ _ => exact execDramRead_goes s _ _
  | dramWrite _ _ _ => exact execDramWrite_goes s _ _ _
  | narrowWrite _ _ => exact execNarrowWrite_goes s _ _
  | readDataCheck _ _ _ _ _ _ => exact execReadDataCheck_goes s _ _ _ _ _ _
  | logEntryFree _ => exact execLogEntryFree_goes s _
  | scrubRead => exact execScrubRead_goes s
  | scrubCtlWrite _ _ => exact execScrubCtlWrite_goes s _ _
  | dqCentreMove _ _ _ => exact execDqCentreMove_goes s _ _ _
  | translationWalk _ _ _ => exact execTranslationWalk_goes s _ _ _
  | resumeFault _ => exact execResume_goes s _
  | abortFault _ => exact execAbort_goes s _
  | faultRecordTimeout => exact execFaultRecordTimeout_goes s
  | dmaBurst _ => exact execDmaBurst_goes s _
  | dmaSlipComplete _ => exact execDmaSlipComplete_goes s _
  | barrierComplete _ => exact execBarrierComplete_goes s _
  | endItem _ _ => exact execEnd_goes s _ _
  | itemRelease _ _ _ => exact execItemRelease_goes s _ _ _
  | queueTimeout _ => exact execQueueTimeout_goes s _
  | reclaimOrphans => exact execReclaim_goes s
  | initPool _ => exact execInit_goes s _
  | poolInitDone _ => exact execPoolInitDone_goes s _
  | disablePool _ => exact execDisable_goes s _
  | mckpt _ _ => exact execMckpt_goes s _ _
  | lockstepMismatch _ => exact execLockstepMismatch_goes s _
  | mclaim _ => exact execMclaim_goes s _
  | mcomplete _ _ => exact execMcomplete_goes s _ _
  | sourceConfigWrite _ _ => exact execSourceConfigWrite_goes s _ _
  | storeParityError _ _ _ => exact execStoreParityError_goes s _ _ _
  | storeScan _ _ => exact execStoreScan_goes s _ _
  | dropWork _ _ _ => exact execDrop_goes s _ _ _
  | faultMessage _ _ _ _ _ => exact execFaultMessage_goes s _ _ _ _ _
  | ackFault _ _ _ => exact execAck_goes s _ _ _
  | injectFault _ _ _ => exact execInject_goes s _ _ _
  | faultNHoldExpiry => exact execFaultNHoldExpiry_goes s
  | writeDrainTimeout _ => exact execWriteDrainTimeout_goes s _
  | redispatch _ _ => exact execRedispatch_goes s _ _
  | digestSweep _ => exact execDigestSweep_goes s _
  | pinCheck _ _ => exact execPinCheck_goes s _ _
  | keeperLockstepMismatch => exact execKeeperLockstepMismatch_goes s
  | fuseLoadDone _ => exact execFuseLoadDone_goes s _
  | windowClearDone => exact execWindowClearDone_goes s
  | windowWrite _ _ => exact execWindowWrite_goes s _ _
  | loadComplete => exact execLoadComplete_goes s
  | keeperAlive _ _ => exact execAlive_goes s _ _
  | startDeadline => exact execStartDeadline_goes s
  | supplyFault => exact execSupplyFault_goes s
  | sysResetN _ => exact execSysResetN_goes s _
  | perstN _ => exact execPerstN_goes s _
  | resetRelease => exact execResetRelease_goes s
  | sysRefclkReturn => exact execSysRefclkReturn_goes s
  | rstKey _ => exact execRstKey_goes s _
  | unitReset _ _ => exact execUnitReset_goes s _ _
  | unitResetDone => exact execUnitResetDone_goes s
  | pdReqWrite _ _ _ => exact execPdReqWrite_goes s _ _ _
  | sleepStepDone _ => exact execSleepStepDone_goes s _
  | pmeTurnOff => exact execPmeTurnOff_goes s
  | l2Timeout => exact execL2Timeout_goes s
  | wakeEvent _ => exact execWakeEvent_goes s _
  | wakeStepDone => exact execWakeStepDone_goes s
  | smbStatus => exact execStatus_goes s
  | smbCause => exact execCause_goes s
  | smbDeviceId => exact execDeviceId_goes s
  | smbUid => exact execUid_goes s
  | smbEpochDigest => exact execEpochDigest_goes s
  | smbFaults => exact execFaults_goes s
  | resetMessage _ _ => exact execReset_goes s _ _
  | wakeMessage _ => exact execWake_goes s _
  | alertResponse => exact execAlertResponse_goes s
  | smbCfgWrite _ => exact execSmbCfgWrite_goes s _
  | thermAssert => exact execThermAssert_goes s
  | conservatorRound _ => exact execConservatorRound_goes s _
  | slackAlarm _ _ _ => exact execSlackAlarm_goes s _ _ _
  | voltageStep => exact execVoltageStep_goes s
  | bandDwellExpiry => exact execBandDwellExpiry_goes s
  | baselineTimeout => exact execBaselineTimeout_goes s
  | avsTransaction _ _ => exact execAvsTransaction_goes s _ _
  | smbusUnknownCommand => exact execSmbusUnknownCommand_goes s
  | _ => exact ⟨_, rfl⟩

end
end Sys2Proof.Machine

section
set_option Elab.async false
open Sys2Proof Sys2Proof.Machine

/-- Settles O7: `exec_goes`, and the one test that REGISTER_WRITE makes first. -/
theorem onlyAnOffsetOutsideBar0Stops : Obligations.OnlyAnOffsetOutsideBar0Stops := by
  unfold Obligations.OnlyAnOffsetOutsideBar0Stops
  exact ⟨fun c s h => exec_goes s c h, fun s h off v hoff => if_pos hoff⟩

end

/-! ### Frames of the operations that this family of statements uses -/

namespace Sys2Proof
set_option Elab.async false

/-- The keys of a table that rises come in strictly rising order. -/
theorem Tab.pairwise_of_risesFrom {V : Type} {t : Tab V} : ∀ {a : Nat}, Tab.risesFrom a t = true →
    (∀ e ∈ t, a ≤ e.1) ∧ t.Pairwise fun x y => x.1 < y.1 := by
  induction t with
  | nil => intro a _; exact ⟨fun _ he => (nomatch he), .nil⟩
  | cons x r ih =>
    obtain ⟨c, v⟩ := x
    intro a h
    simp only [Tab.risesFrom, Bool.and_eq_true, decide_eq_true_eq] at h
    obtain ⟨hle, hlt⟩ := ih h.2
    refine ⟨fun e he => ?_, .cons hle hlt⟩
    obtain rfl | he := List.mem_cons.1 he
    · exact h.1
    · exact Nat.le_trans (Nat.le_succ_of_le h.1) (hle e he)

end Sys2Proof

namespace Sys2Proof.Machine
set_option Elab.async false

variable {s t : State} {ps : List Part} {fs : List Fld}

theorem State.frame.ite {u : State} {c : Prop} [Decidable c] (ht : s.frame t ps fs) (hu : s.frame u ps fs) : s.frame (if c then t else u) ps fs := by
  split
  · exact ht
  · exact hu

/-- What a frame says of one register field. -/
theorem State.frame.get (h : s.frame t ps fs) (f : Fld) (hw : f.lo + f.w ≤ 32) (ha : ∀ g ∈ fs, f.apart g) : t.get f = s.get f := h.2 f hw ha

theorem State.frame.showTarget (h : s.frame t ps fs) (hf : CNS.VOLTAGE_TARGET_MV ∈ fs) : s.frame t.showTarget ps fs := (h.put _ hf).ite h

theorem State.frame.showLedger (h : s.frame t ps fs) (hf : ∀ f ∈ ledgerFields, f ∈ fs) : s.frame t.showLedger ps fs :=
  (((h.put _ (hf _ (by decide))).put _ (hf _ (by decide))).put _ (hf _ (by decide))).put _ (hf _ (by decide))

/-! ### Charges at a factor (R222, R224) -/

/-- A stream context charged at a factor. -/
def State.chargeAt (f : Nat) (s : State) (e : Nat × Stream) : State :=
  s.setStream e.1 { s.stream e.1 with cu := (e.2.charge f).1, su := (e.2.charge f).2 }

theorem State.chargeAt_other {f n : Nat} {e : Nat × Stream} (h : n ≠ e.1) : (s.chargeAt f e).stream n = s.stream n :=
  State.stream_setStream_ne _ _ h

theorem State.foldl_chargeAt_other {f n : Nat} {l : List (Nat × Stream)} (h : ∀ e ∈ l, n ≠ e.1) :
    (l.foldl (State.chargeAt f) s).stream n = s.stream n := by
  induction l generalizing s with
  | nil => rfl
  | cons x r ih =>
    rw [List.foldl_cons, ih fun e he => h e (List.mem_cons_of_mem _ he), State.chargeAt_other (h x List.mem_cons_self)]

/-- Contexts charged one after another each end with their own charge. -/
theorem State.foldl_chargeAt {f : Nat} {l : List (Nat × Stream)} (hl : l.Pairwise fun x y => x.1 < y.1) : ∀ e ∈ l,
    ((l.foldl (State.chargeAt f) s).stream e.1).cu = (e.2.charge f).1 ∧ ((l.foldl (State.chargeAt f) s).stream e.1).su = (e.2.charge f).2 := by
  induction l generalizing s with
  | nil => intro e he; cases he
  | cons x r ih =>
    obtain ⟨hx, hr⟩ := List.pairwise_cons.1 hl
    intro e he
    obtain rfl | he := List.mem_cons.1 he
    · rw [List.foldl_cons, State.foldl_chargeAt_other fun y hy => (hx y hy).ne, State.chargeAt, State.stream_setStream]
      exact ⟨rfl, rfl⟩
    · exact ih hr e he

theorem State.showLedger_streams (s : State) : s.showLedger.streams = s.streams := by simp only [State.showLedger, State.put_streams]

theorem State.recharge_streams (s : State) : s.recharge.streams = (s.openStreams.foldl (State.chargeAt s.factor) s).streams := by
  unfold State.recharge
  exact State.showLedger_streams _

/-- After a recharge every open stream is charged at the factor in force. -/
theorem State.recharge_charges (hr : Tab.risesFrom 0 s.streams = true) : ∀ e ∈ s.openStreams,
    (s.recharge.stream e.1).cu = (e.2.charge s.factor).1 ∧ (s.recharge.stream e.1).su = (e.2.charge s.factor).2 := by
  unfold State.stream
  rw [State.recharge_streams]
  exact State.foldl_chargeAt ((Tab.pairwise_of_risesFrom hr).2.filter _)

theorem State.frame.recharge (h : s.frame t ps fs) (p_streams : .streams ∈ ps) (p_staged : .staged ∈ ps) (p_taking : .taking ∈ ps)
    (hf : ∀ f ∈ ledgerFields, f ∈ fs) : s.frame t.recharge ps fs := by
  unfold State.recharge
  extract_lets f u redo
  have hu : s.frame u ps fs := h.foldl fun t e ht => ht.setStream _ _ p_streams
  clear_value u
  exact State.frame.showLedger (FrameF.u_staged_taking hu p_staged p_taking) hf

/-! ### A pace request (R17, R224) -/

/-- A request is refused: the Conservator's limit forbids the pace, or the ledger cannot carry its lower factor. -/
def State.paceRefused (s : State) (v : Nat) : Prop :=
  (v = 1 ∧ s.on CNS.CNS_STAT_PACE_LIMITED = true) ∨ (paceFactor v < s.factor ∧
    ((s.capacity s.sparesHeld).1 < (s.chargesAt (paceFactor v)).1 ∨ (s.capacity s.sparesHeld).2 < (s.chargesAt (paceFactor v)).2))

/-- The registers of an accepted pace: the pace, its factor as the target, and the voltage target. -/
def State.pacePut (s : State) (v : Nat) : State := ((s.put TOP.PACE_CTL_PACE v).put TOP.RATE_FACTOR_TARGET (paceFactor v)).showTarget
/-- A lower factor charged at once. -/
def State.paceLower (s : State) (v : Nat) : State := ((s.put TOP.RATE_FACTOR_FACTOR (paceFactor v)).put TOP.PACE_STAT_CURRENT v).recharge
/-- RAMPING is set where the pace is new. -/
def State.paceRamp (s t : State) (v : Nat) : State := if s.get TOP.PACE_CTL_PACE == v then t else t.put TOP.PACE_STAT_RAMPING 1

theorem State.requestPace_three : s.requestPace 3 = (s, false) := rfl

theorem State.requestPace_refused {v : Nat} (hv : v ≤ 2) (h : s.paceRefused v) : s.requestPace v = (s.put TOP.PACE_STAT_REFUSED 1, false) := by
  unfold State.requestPace
  exact (if_neg (Nat.not_lt.2 hv)).trans (if_pos h)

theorem State.pacePut_frame (v : Nat) : s.frame (s.pacePut v) [] [TOP.PACE_CTL_PACE, TOP.RATE_FACTOR_TARGET, CNS.VOLTAGE_TARGET_MV] :=
  ((State.frame.rfl'.put _ (by simp)).put _ (by simp)).showTarget (by simp)

theorem State.pacePut_factor (v : Nat) : (s.pacePut v).factor = s.factor := (State.pacePut_frame v).get _ (by decide) (by decide)

theorem State.requestPace_accepted {v : Nat} (hv : v ≤ 2) (h : ¬ s.paceRefused v) :
    s.requestPace v = (s.paceRamp (if paceFactor v < s.factor then (s.pacePut v).paceLower v else s.pacePut v) v, true) := by
  have hf := s.pacePut_factor v
  unfold State.requestPace
  refine (if_neg (Nat.not_lt.2 hv)).trans ((if_neg h).trans ?_)
  rw [← hf]
  rfl

theorem State.frame.paceRamp {u : State} (h : s.frame t ps fs) (v : Nat) (hf : TOP.PACE_STAT_RAMPING ∈ fs) : s.frame (u.paceRamp t v) ps fs :=
  h.ite (h.put _ hf)

theorem exec_paceCtlWrite {v : Nat} (hv : v ≤ 2) : exec (.paceCtlWrite v) s = .next (s.requestPace v).1 := by
  show Host.Outcome.next (s.requestPace (v % 4)).1 = _
  rw [Nat.mod_eq_of_lt (by omega)]

/-- An accepted pace is stored, with its factor as the target. -/
theorem State.pacePut_stored {v : Nat} (hv : v ≤ 2) :
    (s.pacePut v).get TOP.PACE_CTL_PACE = v ∧ (s.pacePut v).get TOP.RATE_FACTOR_TARGET = paceFactor v := by
  have h : ∀ u : State, u.frame u.showTarget [] [CNS.VOLTAGE_TARGET_MV] := fun u => State.frame.rfl'.showTarget (by simp)
  have hp : paceFactor v < 2 ^ 12 := by unfold paceFactor; split <;> decide
  constructor
  · rw [State.pacePut, (h _).get _ (by decide) (by decide), State.get_put_apart _ _ (by decide) (by decide), State.get_put_same _ _ (by decide)]
    exact Nat.mod_eq_of_lt (Nat.lt_of_le_of_lt hv (by decide))
  · rw [State.pacePut, (h _).get _ (by decide) (by decide), State.get_put_same _ _ (by decide)]
    exact Nat.mod_eq_of_lt hp

end Sys2Proof.Machine

namespace Sys2Proof.Machine
set_option Elab.async false

variable {s : State} {v : Nat}

theorem State.paceRamp_ramping {u t : State} (h : u.get TOP.PACE_CTL_PACE ≠ v) : (u.paceRamp t v).get TOP.PACE_STAT_RAMPING = 1 := by
  rw [State.paceRamp, if_neg (by simpa using h), State.get_put_same _ _ (by decide)]
  rfl

/-- A factor that is not lower than the one charged is only stored as the target. -/
theorem State.requestPace_higher (hv : v ≤ 2) (hl : v ≠ 1 ∨ s.on CNS.CNS_STAT_PACE_LIMITED = false) (hf : s.factor ≤ paceFactor v) :
    s.requestPace v = (s.paceRamp (s.pacePut v) v, true) := by
  have hn : ¬ s.paceRefused v := by
    rintro (⟨h1, h2⟩ | ⟨h, -⟩)
    · simp [h1, h2] at hl
    · omega
  rw [State.requestPace_accepted hv hn, if_neg (Nat.not_lt.2 hf)]

/-- A lower factor that the ledger can carry is charged at once. -/
theorem State.requestPace_lower (hv : v ≤ 2) (hl : v ≠ 1 ∨ s.on CNS.CNS_STAT_PACE_LIMITED = false) (hf : paceFactor v < s.factor)
    (h1 : (s.chargesAt (paceFactor v)).1 ≤ (s.capacity s.sparesHeld).1) (h2 : (s.chargesAt (paceFactor v)).2 ≤ (s.capacity s.sparesHeld).2) :
    s.requestPace v = (s.paceRamp ((s.pacePut v).paceLower v) v, true) := by
  have hn : ¬ s.paceRefused v := by
    rintro (⟨h1, h2⟩ | ⟨-, h⟩)
    · simp [h1, h2] at hl
    · omega
  rw [State.requestPace_accepted hv hn, if_pos hf]

/-- The fields that charging a lower factor writes. -/
def lowerFields : List Fld := [TOP.RATE_FACTOR_FACTOR, TOP.PACE_STAT_CURRENT] ++ ledgerFields

theorem State.paceLower_frame (s : State) (v : Nat) : s.frame (s.paceLower v) [.streams, .staged, .taking] lowerFields :=
  ((State.frame.rfl'.put _ (by decide)).put _ (by decide)).recharge (by decide) (by decide) (by decide) (by decide)

/-- The state in which `paceLower` recharges: its factor and the pace shown are the new ones. -/
theorem State.paceLower_put (s : State) (hv : v ≤ 2) :
    ((s.put TOP.RATE_FACTOR_FACTOR (paceFactor v)).put TOP.PACE_STAT_CURRENT v).factor = paceFactor v ∧
    ((s.put TOP.RATE_FACTOR_FACTOR (paceFactor v)).put TOP.PACE_STAT_CURRENT v).get TOP.PACE_STAT_CURRENT = v := by
  have hp : paceFactor v < 2 ^ 12 := by unfold paceFactor; split <;> decide
  constructor
  · rw [State.factor, State.get_put_apart _ _ (by decide) (by decide), State.get_put_same _ _ (by decide)]
    exact Nat.mod_eq_of_lt hp
  · rw [State.get_put_same _ _ (by decide)]
    exact Nat.mod_eq_of_lt (Nat.lt_of_le_of_lt hv (by decide))

/-- After a lower factor is charged: the factor, the pace shown, and every open stream's charge are the new ones. -/
theorem State.paceLower_charged (hv : v ≤ 2) (hr : Tab.risesFrom 0 s.streams = true) :
    (s.paceLower v).factor = paceFactor v ∧ (s.paceLower v).get TOP.PACE_STAT_CURRENT = v ∧
    ∀ e ∈ s.openStreams, ((s.paceLower v).stream e.1).cu = (e.2.charge (paceFactor v)).1 ∧
      ((s.paceLower v).stream e.1).su = (e.2.charge (paceFactor v)).2 := by
  obtain ⟨hf, hc⟩ := s.paceLower_put hv
  have hfr : ∀ u : State, u.frame u.recharge [.streams, .staged, .taking] ledgerFields := fun u =>
    State.frame.rfl'.recharge (by decide) (by decide) (by decide) (by decide)
  refine ⟨((hfr _).get _ (by decide) (by decide)).trans hf, ((hfr _).get _ (by decide) (by decide)).trans hc, fun e he => ?_⟩
  rw [← hf]
  exact State.recharge_charges (by simpa only [State.put_streams] using hr) e (by simpa only [State.openStreams, State.put_streams] using he)

end Sys2Proof.Machine

section
set_option Elab.async false
open Sys2Proof Sys2Proof.Machine

/-- Settles O26: a request is refused, or stored with its factor to be charged later, or charged at once (`State.requestPace_refused`,
`State.requestPace_higher`, `State.requestPace_lower`). -/
theorem paceRequestsAreCheckedAndCharged : Obligations.PaceRequestsAreCheckedAndCharged := by
  unfold Obligations.PaceRequestsAreCheckedAndCharged
  refine ⟨?three, ?refused, ?higher, ?lower⟩
  case three =>
    intro s v hv
    refine ⟨s, ?_, rfl⟩
    show Host.Outcome.next (s.requestPace (v % 4)).1 = _
    rw [hv, State.requestPace_three]
  case refused =>
    intro s v hv h
    refine ⟨_, exec_paceCtlWrite hv, ?_⟩
    rw [State.requestPace_refused hv h]
    exact ⟨State.get_put_same _ _ (by decide), State.frame.rfl'.put _ (by simp)⟩
  case higher =>
    intro s v hv hl hf
    refine ⟨_, exec_paceCtlWrite hv, ?_⟩
    rw [State.requestPace_higher hv hl hf]
    obtain ⟨hpace, htarget⟩ := s.pacePut_stored hv
    have hr : (s.pacePut v).frame (s.paceRamp (s.pacePut v) v) [] [TOP.PACE_STAT_RAMPING] := State.frame.rfl'.paceRamp v (by simp)
    refine ⟨(hr.get _ (by decide) (by decide)).trans hpace, (hr.get _ (by decide) (by decide)).trans htarget, State.paceRamp_ramping,
      (hr.get _ (by decide) (by decide)).trans (s.pacePut_factor v), ?_⟩
    exact ((State.pacePut_frame v).mono (by simp) (by decide)).trans (hr.mono (by simp) (by decide))
  case lower =>
    intro s v hv hl hf h1 h2 hrise
    refine ⟨_, exec_paceCtlWrite hv, ?_⟩
    rw [State.requestPace_lower hv hl hf h1 h2]
    obtain ⟨hpace, htarget⟩ := s.pacePut_stored hv
    have hput := State.pacePut_frame (s := s) v
    have hstr : (s.pacePut v).streams = s.streams := hput.1 .streams (by simp)
    obtain ⟨hfac, hcur, hch⟩ := State.paceLower_charged (s := s.pacePut v) hv (by rw [hstr]; exact hrise)
    have hlow := (s.pacePut v).paceLower_frame v
    have hr : ((s.pacePut v).paceLower v).frame (s.paceRamp ((s.pacePut v).paceLower v) v) [] [TOP.PACE_STAT_RAMPING] :=
      State.frame.rfl'.paceRamp v (by simp)
    have hrs : (s.paceRamp ((s.pacePut v).paceLower v) v).streams = ((s.pacePut v).paceLower v).streams := hr.1 .streams (by simp)
    refine ⟨?pace, ?target, ?factor, ?current, ?charges, ?frame⟩
    case pace => rw [hr.get _ (by decide) (by decide), hlow.get _ (by decide) (by decide), hpace]
    case target => rw [hr.get _ (by decide) (by decide), hlow.get _ (by decide) (by decide), htarget]
    case factor => exact (hr.get _ (by decide) (by decide)).trans hfac
    case current => rw [hr.get _ (by decide) (by decide), hcur]
    case charges =>
      intro e he
      rw [State.stream, hrs]
      exact hch e (by rwa [State.openStreams, hstr])
    case frame =>
      exact ((hput.mono (by simp) (by decide)).trans (hlow.mono (by decide) (by decide))).trans (hr.mono (by simp) (by decide))

end

/-! ### Resets: what one leaves (R487) -/

namespace Sys2Proof.Machine
set_option Elab.async false

variable {s t : State} {ps : List Part} {fs : List Fld}

/-- A register that is kept where others are left out reads as before. -/
theorem State.get_of_kept {p : Nat → Bool} (hb : t.big = s.big) (hr : t.regs = Tab.keep p s.regs) (f : Fld) (hp : p f.off = true) :
    t.get f = s.get f := by
  rw [State.get, State.get, State.rd, State.rd, hb, hr, Tab.get_keep, if_pos hp]

/-- The fields that disarming the outputs writes (R323, R324). -/
def disarmFields : List Fld := DAT.PPS_CTL_ENABLE :: (List.range 8).flatMap fun k => [DAT.TOUT_STAT_ACTIVE k, DAT.TOUT_STAT_PENDING k]

theorem State.frame_disarmOutputs (s : State) : s.frame s.disarmOutputs [.dater] disarmFields := by
  have hf : ∀ k ∈ List.range 8, DAT.TOUT_STAT_ACTIVE k ∈ disarmFields ∧ DAT.TOUT_STAT_PENDING k ∈ disarmFields := by decide
  unfold State.disarmOutputs
  extract_lets u
  have hu : s.frame u [.dater] disarmFields :=
    State.frame.rfl'.foldl_mem fun t k hk ht => (ht.put _ (hf k hk).1).put _ (hf k hk).2
  exact (hu.put 0 (by decide)).dater _ (by decide)

theorem foldl_keeps {α β : Type} {π : State → β} {g : State → α → State} (hg : ∀ t x, π (g t x) = π t) (l : List α) (s : State) :
    π (l.foldl g s) = π s := by
  induction l generalizing s with
  | nil => rfl
  | cons x r ih => exact (ih _).trans (hg s x)

theorem State.disarmOutputs_dram (s : State) : s.disarmOutputs.dram = s.dram := by
  unfold State.disarmOutputs
  extract_lets u
  have hu : u.dram = s.dram := foldl_keeps (π := State.dram) (fun t k => by rw [State.put_dram, State.put_dram]) _ _
  clear_value u
  show (u.put DAT.PPS_CTL_ENABLE 0).dram = _
  rw [State.put_dram, hu]

/-- The power controller after a reset of a scope. -/
def Power.wiped (p : Power) (cold : Bool) (pace : Nat) : Power :=
  { Power.init with
    refclk := p.refclk, suppliesOk := p.suppliesOk, sysResetLow := p.sysResetLow, perstLow := p.perstLow,
    cold, aon := p.aon, pace := if cold then 0 else pace, launch := if cold then none else p.launch }

/-- After a reset the power controller is held, the count of resets stands, and device memory and the streams are empty. -/
theorem State.wiped_spec (s : State) (cold : Bool) : (s.wiped cold).power = s.power.wiped cold (s.get TOP.PACE_STAT_CURRENT) ∧
    (s.wiped cold).dram = [] ∧ (s.wiped cold).streams = [] ∧ (s.wiped cold).get RST.RST_STAT_RESETS = s.get RST.RST_STAT_RESETS := by
  unfold State.wiped
  extract_lets f c r k cs pd u w pi pw di ri
  have hu : u.get RST.RST_STAT_RESETS = s.get RST.RST_STAT_RESETS :=
    State.get_of_kept (s := s) (t := u) (p := if cold then coldKeeps else warmKeeps) rfl rfl RST.RST_STAT_RESETS (by cases cold <;> decide)
  have hd : u.dram = [] ∧ u.streams = [] := ⟨rfl, rfl⟩
  clear_value u
  have hw : u.frame w [] [KPR.BOOT_STAT_FAILED_STARTS, FUS.FUS_STAT_VFUSE_OK] := (State.frame.rfl'.put _ (by simp)).put _ (by simp)
  have hwd : w.dram = [] := by simp only [w, State.put_dram, hd]
  have hws : w.streams = [] := by simp only [w, State.put_streams, hd]
  have hwr : w.get RST.RST_STAT_RESETS = s.get RST.RST_STAT_RESETS := (hw.get _ (by decide) (by decide)).trans hu
  clear_value w
  split
  case isTrue hc =>
    subst hc
    refine ⟨?_, ?_, ?_, ?_⟩
    · simp only [State.put_power]; rfl
    · simp only [State.put_dram]; exact hwd
    · simp only [State.put_streams]; exact hws
    · rw [State.get_put_apart _ _ (by decide) (by decide), State.get_put_apart _ _ (by decide) (by decide)]
      have hx : w.frame { w with power := pw, dater := { Dater.init with refclk := s.dater.refclk } } [.power, .dater] [] :=
        (State.frame.rfl'.power pw (by simp)).dater _ (by simp)
      exact (hx.get _ (by decide) (by decide)).trans hwr
  case isFalse hc =>
    obtain rfl : cold = false := by simpa using hc
    have hx : w.frame { w with power := pw, time := s.time, dater := s.dater, rgs := { Registrar.init with head := s.rgs.head, seq := s.rgs.seq } }
        [.power, .time, .dater, .rgs] [] :=
      (((State.frame.rfl'.power pw (by simp)).time s.time (by simp)).dater s.dater (by simp)).rgs _ (by simp)
    have h := State.frame_disarmOutputs { w with power := pw, time := s.time, dater := s.dater, rgs := { Registrar.init with head := s.rgs.head, seq := s.rgs.seq } }
    refine ⟨h.1 .power (by decide), ?_, (h.1 .streams (by decide)).trans hws, ?_⟩
    · rw [State.disarmOutputs_dram]; exact hwd
    · exact (h.get _ (by decide) (by decide)).trans ((hx.get _ (by decide) (by decide)).trans hwr)

theorem State.frame_sleepEnd (s : State) (req result src : Nat) : s.frame (s.sleepEnd req result src) [.pads]
    [PWR.SLEEP_STAT_DONE, PWR.SLEEP_STAT_RESULT, PWR.SLEEP_STAT_WAKE_SRC, PWR.SLEEP_STAT_REQUESTED] :=
  ((((State.frame.rfl'.pads _ (by simp)).put _ (by simp)).put _ (by simp)).put _ (by simp)).put _ (by simp)

/-- A reset that is taken (R487, R488): the power controller, the cause and the scope, the count. -/
theorem State.takeReset_spec (s : State) (cold : Bool) {cause : Nat} (hc : cause < 2 ^ 8) :
    (s.takeReset cold cause true).power.held = true ∧ (s.takeReset cold cause true).power.cold = cold ∧
    (s.takeReset cold cause true).power.padsSafe = true ∧ (s.takeReset cold cause true).power.key = none ∧
    (s.takeReset cold cause true).power.latched = [] ∧ (s.takeReset cold cause true).get RST.RST_STAT_LAST_CAUSE = cause ∧
    (s.takeReset cold cause true).get RST.RST_STAT_LAST_SCOPE = (if cold then 0 else 1) ∧
    (s.takeReset cold cause true).get RST.RST_STAT_RESETS = satAdd RST.RST_STAT_RESETS.w (s.get RST.RST_STAT_RESETS) 1 ∧
    (s.takeReset cold cause true).dram = [] ∧ (s.takeReset cold cause true).streams = [] := by
  unfold State.takeReset
  extract_lets u w v
  have hu : u.get RST.RST_STAT_RESETS = s.get RST.RST_STAT_RESETS := by
    have h : ∀ req src, (s.sleepEnd req 6 src).get RST.RST_STAT_RESETS = s.get RST.RST_STAT_RESETS := fun req src =>
      (State.frame_sleepEnd s req 6 src).get _ (by decide) (by decide)
    subst u
    split
    · rfl
    · split
      · exact h _ _
      · exact h _ _
      · rfl
  clear_value u
  obtain ⟨hp, hd, hs, hr⟩ := u.wiped_spec cold
  simp only [if_true, v, w, State.bump_power, State.bump_dram, State.bump_streams, State.put_power, State.put_dram, State.put_streams]
  rw [hp]
  refine ⟨rfl, rfl, rfl, rfl, rfl, ?_, ?_, ?_, hd, hs⟩
  · rw [State.get_bump_apart _ (by decide) (by decide), State.get_put_apart _ _ (by decide) (by decide), State.get_put_same _ _ (by decide)]
    exact Nat.mod_eq_of_lt hc
  · rw [State.get_bump_apart _ (by decide) (by decide), State.get_put_same _ _ (by decide)]
    cases cold <;> rfl
  · rw [State.get_bump_same _ (by decide), State.get_put_apart _ _ (by decide) (by decide), State.get_put_apart _ _ (by decide) (by decide), hr, hu]

end Sys2Proof.Machine

/-! ### Reset sources, and the release of reset (R486 to R492) -/

namespace Sys2Proof.Machine
set_option Elab.async false

variable {s t : State} {ps : List Part} {fs : List Fld}

theorem State.requestReset_taken (rank cause : Nat) (cold : Bool) (hr : s.power.refclk = true) (hh : s.power.held = false) :
    s.requestReset rank cause cold = s.takeReset cold cause true := by
  rw [State.requestReset, if_neg (by simp [hr]), if_neg (by simp [hh])]

/-- Without VDD_AON's contents: the power controller, the cause and the failed starts, what is empty and what stays. -/
theorem State.unpowered_spec (s : State) (aon : Bool) :
    (s.unpowered aon).power = { Power.init with aon, refclk := s.power.refclk } ∧
    (s.unpowered aon).get RST.RST_STAT_LAST_CAUSE = 0 ∧ (s.unpowered aon).get KPR.BOOT_STAT_FAILED_STARTS = 0 ∧
    (s.unpowered aon).dram = [] ∧ (s.unpowered aon).streams = [] ∧ (s.unpowered aon).rgs = Registrar.init ∧ (s.unpowered aon).host = s.host ∧
    (s.unpowered aon).keeper.blown = s.keeper.blown ∧ (s.unpowered aon).big = s.big ∧ (s.unpowered aon).pending = s.pending := by
  unfold State.unpowered
  extract_lets r k p d pd u w
  have hreg : ∀ f, u.get f = bits (resetWord s.big f.off).toNat f.lo f.w := fun f => rfl
  have hu : u.power = { Power.init with aon, refclk := s.power.refclk } ∧ u.dram = [] ∧ u.streams = [] ∧ u.rgs = Registrar.init ∧ u.host = s.host ∧
    u.keeper.blown = s.keeper.blown ∧ u.big = s.big ∧ u.pending = s.pending := ⟨rfl, rfl, rfl, rfl, rfl, rfl, rfl, rfl⟩
  clear_value u
  obtain ⟨hpower, hdram, hstreams, hrgs, hhost, hkeeper, hbig, hpending⟩ := hu
  refine ⟨?_, ?_, ?_, ?_⟩
  · rw [State.put_power, State.put_power, State.put_power, hpower]
  · rw [State.get_put_apart _ _ (by decide) (by decide), State.get_put_apart _ _ (by decide) (by decide), State.get_put_apart _ _ (by decide) (by decide), hreg]
    cases s.big <;> decide
  · rw [State.get_put_apart _ _ (by decide) (by decide), State.get_put_apart _ _ (by decide) (by decide), State.get_put_apart _ _ (by decide) (by decide), hreg]
    cases s.big <;> decide
  · simp only [State.put_dram, State.put_streams, State.put_rgs, State.put_host, State.put_keeper, State.put_big, State.put_pending, w]
    exact ⟨hdram, hstreams, hrgs, hhost, hkeeper, hbig, hpending⟩

/-! The pulse of a reset pin. -/

theorem State.pulseTaken_short {ns : Nat} (h : ns < 100) : s.pulseTaken ns = (s, false) := if_pos h
theorem State.pulseTaken_long {ns : Nat} (h : 1000 ≤ ns) : s.pulseTaken ns = (s, true) := by
  rw [State.pulseTaken, if_neg (by omega), if_pos h]

/-- Requests that are taken together make one: of a rank and a cause among them, of no greater rank than any, and cold where any is. -/
theorem resolveRequests_spec : ∀ {l : List (Nat × Nat × Bool)}, l ≠ [] → ∃ x, resolveRequests l = some x ∧
    (∃ e ∈ l, e.1 = x.1 ∧ e.2.1 = x.2.1) ∧ (∀ e ∈ l, x.1 ≤ e.1) ∧ x.2.2 = l.any fun e => e.2.2
  | [(r, c, w)], _ => ⟨(r, c, w), rfl, by simp⟩
  | (r, c, w) :: y :: l, _ => by
    obtain ⟨⟨r', c', w'⟩, hx, ⟨e, he, hr, hc⟩, hle, hw⟩ := resolveRequests_spec (List.cons_ne_nil y l)
    dsimp only at hr hc hle hw
    rw [resolveRequests, hx]
    dsimp only
    rw [List.any_cons, ← hw]
    split
    case isTrue h =>
      refine ⟨_, rfl, ⟨_, List.mem_cons_self, rfl, rfl⟩, fun f hf => ?_, rfl⟩
      obtain rfl | hf := List.mem_cons.1 hf
      · exact Nat.le_refl _
      · exact Nat.le_trans h (hle f hf)
    case isFalse h =>
      refine ⟨_, rfl, ⟨e, List.mem_cons_of_mem _ he, hr, hc⟩, fun f hf => ?_, rfl⟩
      obtain rfl | hf := List.mem_cons.1 hf
      · exact Nat.le_of_not_le h
      · exact hle f hf

theorem resolveRequests_of_least {l : List (Nat × Nat × Bool)} {r c : Nat} {cold : Bool} (hm : (r, c, cold) ∈ l)
    (hl : ∀ e ∈ l, e = (r, c, cold) ∨ r < e.1) : resolveRequests l = some (r, c, l.any fun e => e.2.2) := by
  obtain ⟨⟨r', c', w'⟩, hx, ⟨e, he, hr, hc⟩, hle, hw⟩ := resolveRequests_spec (List.ne_nil_of_mem hm)
  dsimp only at hr hc hle hw
  obtain rfl | hlt := hl e he
  · rw [hx, hw, ← hr, ← hc]
  · have := hle _ hm
    dsimp only at this
    omega

/-! The release. -/

theorem State.engineEnabled_congr (h : t.big = s.big) (i : Nat) : t.engineEnabled i = s.engineEnabled i := by
  rw [State.engineEnabled, State.engineEnabled, h]

/-- Registers of two engines are apart (R435). -/
theorem engReg_ne {i j r q : Nat} (h : i ≠ j) (hr : r < 16) (hq : q < 16) : engReg i r ≠ engReg j q := by
  unfold engReg
  split <;> split <;> omega

theorem engState_apart {i j : Nat} (h : i ≠ j) : (engState i).apart (engState j) := .inl (engReg_ne h (by decide) (by decide))

/-- Registers of the engines stand in their two ranges (R435). -/
theorem engReg_ne_of {n i r : Nat} (hi : i < 86) (hr : r < 16) (h : n < 0x110100 ∨ 0x110660 ≤ n ∧ n < 0x120100 ∨ 0x120220 ≤ n) : engReg i r ≠ n := by
  unfold engReg
  split <;> omega

theorem engState_apart_of {f : Fld} {i : Nat} (hi : i < 86) (h : f.off < 0x110100 ∨ 0x110660 ≤ f.off ∧ f.off < 0x120100 ∨ 0x120220 ≤ f.off) :
    (engState i).apart f := .inl (engReg_ne_of hi (by decide) h)

theorem engState_le (i : Nat) : (engState i).lo + (engState i).w ≤ 32 := by show 0 + 3 ≤ 32; omega

/-- The engines that the grade does not enable are shown ABSENT. -/
def State.showAbsent (s : State) : State :=
  (List.range 86).foldl (fun (s : State) i => if s.engineEnabled i then s else s.put (engState i) stAbsent) s

theorem State.frame_showAbsent (s : State) : s.frame s.showAbsent [] ((List.range 86).map engState) :=
  State.frame.rfl'.foldl_mem fun _ _ hi ht => ht.ite (ht.put _ (List.mem_map_of_mem hi))

/-- What one step of a fold brings about and every step keeps holds after the fold. -/
theorem foldl_establishes {α : Type} {P Q : State → Prop} {g : State → α → State} {x : α} (hQ : ∀ t y, Q t → Q (g t y)) (hx : ∀ t, Q t → P (g t x))
    (hP : ∀ t y, P t → P (g t y)) {l : List α} (hl : x ∈ l) (hs : Q s) : P (l.foldl g s) := by
  induction l generalizing s with
  | nil => cases hl
  | cons y r ih =>
    obtain rfl | hl := List.mem_cons.1 hl
    · exact List.foldlRecOn r g (hx s hs) fun t ht y _ => hP t y ht
    · exact ih hl (hQ s y hs)

theorem State.showAbsent_absent {i : Nat} (hi : i < 86) (he : s.engineEnabled i = false) : s.showAbsent.get (engState i) = stAbsent := by
  refine foldl_establishes (x := i) (P := fun t => t.get (engState i) = stAbsent) (Q := fun t => t.big = s.big) (fun t y ht => ?_) (fun t ht => ?_) (fun t y ht => ?_)
    (List.mem_range.2 hi) rfl
  · split
    · exact ht
    · rw [State.put_big]; exact ht
  · rw [State.engineEnabled_congr ht, he, if_neg (by decide), State.get_put_same _ _ (engState_le i)]
    rfl
  · split
    · exact ht
    · obtain rfl | hne := eq_or_ne i y
      · rw [State.get_put_same _ _ (engState_le i)]; rfl
      · rw [State.get_put_apart _ _ (engState_le i) (engState_apart hne)]; exact ht

theorem State.frame_showSparePair (s : State) : s.frame s.showSparePair [] [ICU.ICU_STAT_SPARE_LEFT, RGS.SPARE_STAT_PAIR] :=
  (State.frame.rfl'.put _ (by simp)).put _ (by simp)

/-- A start begins (R477, R478). -/
theorem State.beginStart_spec (s : State) :
    s.frame s.beginStart [.keeper, .pads] [KPR.BOOT_STAT_RECOVERY, HIF.HIF_STAT_RECOVERY] ∧ s.beginStart.keeper.startTick = s.ticks ∧
    s.beginStart.keeper.atStart = s.get KPR.BOOT_STAT_FAILED_STARTS ∧
    (s.get KPR.BOOT_STAT_FAILED_STARTS = 3 → s.beginStart.get KPR.BOOT_STAT_RECOVERY = 1) := by
  unfold State.beginStart
  extract_lets f k u
  have hu : s.frame u [.keeper, .pads] [KPR.BOOT_STAT_RECOVERY, HIF.HIF_STAT_RECOVERY] := State.frame.rfl'.keeper _ (by simp)
  have hk : u.keeper.startTick = s.ticks ∧ u.keeper.atStart = s.get KPR.BOOT_STAT_FAILED_STARTS := ⟨rfl, rfl⟩
  clear_value u
  split
  · refine ⟨((hu.pads _ (by simp)).put 1 (by simp)).put 1 (by simp), ?_, ?_, fun _ => ?_⟩
    · simp only [State.put_keeper]; exact hk.1
    · simp only [State.put_keeper]; exact hk.2
    · rw [State.get_put_apart _ _ (by decide) (by decide), State.get_put_same _ _ (by decide)]
      rfl
  case isFalse h => exact ⟨hu, hk.1, hk.2, fun e => absurd e h⟩

end Sys2Proof.Machine

/-! ### What a warm release does beside a cold one, and the commands of the sources (R486 to R492) -/

namespace Sys2Proof.Machine
set_option Elab.async false

variable {s t : State} {ps : List Part} {fs : List Fld}

/-! The Conservator and the pace from a warm release on (R17 rule 6, R359, R516). -/

/-- The fields of the Conservator's temperature and targets. -/
def tjFields : List Fld := [CNS.TEMP_TJ, CNS.TEMP_BAND, CNS.VOLTAGE_TARGET_MV]
/-- The fields that a warm release writes beside those of a cold one. -/
def warmFields : List Fld :=
  (List.range 8).map (fun c => Fld.whole (MMU.PMAP c)) ++ [CNS.CNS_STAT_STATE, CNS.CNS_STAT_RECORD, KPR.BOOT_STAT_AGEING_ADOPTED, CNS.CNS_STAT_RAMPING,
    TOP.PACE_STAT_CURRENT, TOP.RATE_FACTOR_FACTOR, TOP.PACE_STAT_RAMPING] ++ tjFields ++ ledgerFields

theorem State.frame.noteTj (h : s.frame t ps fs) (d : Int) (p_cons : .cons ∈ ps) (hf : ∀ f ∈ tjFields, f ∈ fs) : s.frame (t.noteTj d) ps fs := by
  unfold State.noteTj
  extract_lets old b fresh u v
  have hu : s.frame u ps fs := (h.put _ (hf _ (by decide))).put _ (hf _ (by decide))
  clear_value u
  exact State.frame.showTarget (hu.cons _ p_cons) (hf _ (by decide))

theorem State.frame.showRamp (h : s.frame t ps fs) (hf : CNS.CNS_STAT_RAMPING ∈ fs) : s.frame t.showRamp ps fs := h.put _ hf

theorem State.frame.rampDone (h : s.frame t ps fs) (p_streams : .streams ∈ ps) (p_staged : .staged ∈ ps) (p_taking : .taking ∈ ps)
    (hf : ∀ f ∈ [TOP.PACE_STAT_CURRENT, TOP.RATE_FACTOR_FACTOR, TOP.PACE_STAT_RAMPING] ++ ledgerFields, f ∈ fs) : s.frame t.rampDone ps fs := by
  unfold State.rampDone
  extract_lets v u
  have hu : s.frame u ps fs := h.put _ (hf _ (by decide))
  clear_value u
  refine State.frame.ite ?_ (hu.put _ (hf _ (by decide)))
  exact State.frame.recharge ((hu.put _ (hf _ (by decide))).put _ (hf _ (by decide))) p_streams p_staged p_taking
    fun f h => hf f (List.mem_append_right _ h)

theorem State.frame_applyDeny (s : State) : s.frame s.applyDeny [] warmFields := by
  refine State.frame.foldl_mem State.frame.rfl' fun t c hc ht => ht.wr _ ?_
  simp only [warmFields, List.append_assoc]
  exact List.mem_append_left _ (List.mem_map_of_mem hc)

theorem State.frame_consResume (s : State) : s.frame s.consResume [.cons] warmFields := by
  unfold State.consResume
  extract_lets k u v
  have hu : s.frame u [.cons] warmFields := State.frame.rfl'.cons _ (by simp)
  clear_value u
  have hv : s.frame v [.cons] warmFields := ((hu.put _ (by decide)).put _ (by decide)).put _ (by decide)
  clear_value v
  refine State.frame.showRamp (State.frame.showTarget ?_ (by decide)) (by decide)
  split
  · exact hv.noteTj _ (by simp) (by decide)
  · exact hv

theorem State.frame_warmPace (s : State) : s.frame s.warmPace [.streams, .staged, .taking] warmFields := by
  unfold State.warmPace
  extract_lets v u
  have hu : s.frame u [.streams, .staged, .taking] warmFields := ((State.frame.rfl'.put _ (by decide)).put _ (by decide)).put _ (by decide)
  clear_value u
  exact State.frame.ite (hu.rampDone (by simp) (by simp) (by simp) (by decide)) hu

theorem State.safePads_power (s : State) : s.safePads.power = { s.power with padsSafe := true } := rfl
theorem State.frame_safePads (s : State) : s.frame s.safePads [.power] [] := State.frame.rfl'.power _ (by simp)

/-- What a warm release does beside a cold one. -/
theorem State.frame_warm (s : State) : s.frame s.applyDeny.consResume.warmPace [.cons, .streams, .staged, .taking] warmFields :=
  ((s.frame_applyDeny.mono (by simp) fun _ h => h).trans (s.applyDeny.frame_consResume.mono (by simp) fun _ h => h)).trans
    (s.applyDeny.consResume.frame_warmPace.mono (by simp) fun _ h => h)

/-! The sources. -/

/-- The power controller set to p. -/
def State.withPower (s : State) (p : Power) : State := { s with power := p }
theorem State.withPower_power (s : State) (p : Power) : (s.withPower p).power = p := rfl
theorem State.withPower_dram (s : State) (p : Power) : (s.withPower p).dram = s.dram := rfl
theorem State.withPower_get (s : State) (p : Power) (f : Fld) : (s.withPower p).get f = s.get f := State.get_congr (s := s) (t := s.withPower p) rfl rfl f

/-- A cold reset that is taken, with a note of its source in the power controller. -/
theorem State.coldReset_noted (s : State) {cause : Nat} (hc : cause < 2 ^ 8) {note : Power → Power}
    (hn : ∀ p, (note p).held = p.held ∧ (note p).cold = p.cold ∧ (note p).padsSafe = p.padsSafe) :
    ∃ q t, t = (s.takeReset true cause true).withPower (note (s.takeReset true cause true).power) ∧ t.power = note q ∧ t.power.held = true ∧
      t.power.cold = true ∧ t.power.padsSafe = true ∧ t.get RST.RST_STAT_LAST_CAUSE = cause ∧ t.get RST.RST_STAT_LAST_SCOPE = 0 ∧
      t.get RST.RST_STAT_RESETS = satAdd RST.RST_STAT_RESETS.w (s.get RST.RST_STAT_RESETS) 1 ∧ t.dram = [] := by
  have hspec := s.takeReset_spec true hc
  generalize s.takeReset true cause true = v at hspec ⊢
  obtain ⟨hheld, hcold, hpads, -, -, hcause, hscope, hcount, hdram, -⟩ := hspec
  obtain ⟨h1, h2, h3⟩ := hn v.power
  refine ⟨v.power, v.withPower (note v.power), rfl, ?_⟩
  rw [State.withPower_power, State.withPower_get, State.withPower_get, State.withPower_get, State.withPower_dram, h1, h2, h3]
  exact ⟨rfl, hheld, hcold, hpads, hcause, hscope, hcount, hdram⟩

/-- A supply has failed: the pads are safe. -/
def State.failSupplies (s : State) : State := { s with power := { s.power with suppliesOk := false, padsSafe := true } }
theorem State.failSupplies_power (s : State) : s.failSupplies.power = { s.power with suppliesOk := false, padsSafe := true } := rfl
theorem State.frame_failSupplies (s : State) : s.frame s.failSupplies [.power] [] := State.frame.rfl'.power _ (by simp)
theorem execSupplyFault_eq (ha : s.power.aon = true) : exec .supplyFault s =
    .next ((s.failSupplies.requestReset 2 7 true).withPower { (s.failSupplies.requestReset 2 7 true).power with suppliesOk := false }) := by
  show execSupplyFault s = _
  rw [execSupplyFault, if_pos ha]
  rfl

theorem execSysResetN_eq {ns : Nat} (h : 1000 ≤ ns) : exec (.sysResetN ns) s =
    .next ((s.safePads.requestReset 3 2 true).withPower { (s.safePads.requestReset 3 2 true).power with sysResetLow := true }) := by
  show execSysResetN ns s = _
  rw [execSysResetN, State.pulseTaken_long h]
  rfl

theorem execPerstN_eq {ns : Nat} (h : 1000 ≤ ns) (hv : ¬ (s.pwState = pwVault ∧ s.on RST.RST_CFG_PERST_IN_VAULT = true)) : exec (.perstN ns) s =
    .next ((s.safePads.requestReset 4 1 true).withPower { (s.safePads.requestReset 4 1 true).power with perstLow := true }) := by
  show execPerstN ns s = _
  rw [execPerstN, State.pulseTaken_long h]
  dsimp only
  rw [if_pos rfl, if_neg hv]
  rfl

theorem execPerstN_vault {ns : Nat} (h : 1000 ≤ ns) (hv : s.pwState = pwVault ∧ s.on RST.RST_CFG_PERST_IN_VAULT = true) :
    exec (.perstN ns) s = .next (s.withPower { s.power with perstLow := true }) := by
  show execPerstN ns s = _
  rw [execPerstN, State.pulseTaken_long h]
  dsimp only
  rw [if_pos rfl, if_pos hv]
  rfl

theorem execSysResetN_short {ns : Nat} (h : ns < 100) : exec (.sysResetN ns) s = .next s := by
  show execSysResetN ns s = _
  rw [execSysResetN, State.pulseTaken_short h]
  dsimp only
  rw [if_neg Bool.false_ne_true]

theorem execPerstN_short {ns : Nat} (h : ns < 100) : exec (.perstN ns) s = .next s := by
  show execPerstN ns s = _
  rw [execPerstN, State.pulseTaken_short h]
  dsimp only
  rw [if_neg Bool.false_ne_true]

/-- SYS_REFCLK runs again. -/
def State.clockBack (s : State) : State := ({ s with power := { s.power with refclk := true, latched := [] } }).put RST.RST_STAT_REFCLK_OK 1
theorem State.clockBack_power (s : State) : s.clockBack.power = { s.power with refclk := true, latched := [] } := by rw [State.clockBack, State.put_power]
theorem State.clockBack_refclk (s : State) : s.clockBack.get RST.RST_STAT_REFCLK_OK = 1 := by rw [State.clockBack, State.get_put_same _ _ (by decide)]; rfl
theorem State.frame_clockBack (s : State) : s.frame s.clockBack [.power] [RST.RST_STAT_REFCLK_OK] := (State.frame.rfl'.power _ (by simp)).put _ (by simp)
theorem execSysRefclkReturn_eq : exec .sysRefclkReturn s = match resolveRequests s.power.latched with
    | some (r, c, cold) => .next (s.clockBack.requestReset r c cold)
    | none => .next s.clockBack := rfl

/-! RESET_RELEASE, up to where its scopes part. -/

/-- The device as its reset ends. -/
def State.unheld (s : State) : State :=
  { s with
    power := { s.power with held := false, suppliesOk := true, sysResetLow := false, perstLow := false, padsSafe := false }, hostFn := { s.hostFn with link := 0 } }
/-- The start that the release of reset begins. -/
def State.released (s : State) : State := s.unheld.showAbsent.showSparePair.beginStart

/-- The fields that the release of reset writes. -/
def releaseFields : List Fld :=
  [ICU.ICU_STAT_SPARE_LEFT, RGS.SPARE_STAT_PAIR, KPR.BOOT_STAT_RECOVERY, HIF.HIF_STAT_RECOVERY] ++ (List.range 86).map engState

theorem State.frame_unheld (s : State) : s.frame s.unheld [.power, .hostFn] [] := FrameF.u_power_hostFn State.frame.rfl' (by simp) (by simp)

theorem State.frame_released (s : State) : s.frame s.released [.power, .keeper, .pads, .hostFn] releaseFields :=
  (((s.frame_unheld.mono (by decide) (by simp)).trans (s.unheld.frame_showAbsent.mono (by simp) fun f h => List.mem_append_right _ h)).trans
    (s.unheld.showAbsent.frame_showSparePair.mono (by simp) (by decide))).trans (s.unheld.showAbsent.showSparePair.beginStart_spec.1.mono (by decide) (by decide))

theorem State.released_power (s : State) :
    s.released.power = { s.power with held := false, suppliesOk := true, sysResetLow := false, perstLow := false, padsSafe := false } :=
  calc s.released.power = s.unheld.showAbsent.showSparePair.power := State.beginStart_spec _ |>.1.1 .power (by decide)
    _ = s.unheld.showAbsent.power := (State.frame_showSparePair _).1 .power (by decide)
    _ = s.unheld.power := (State.frame_showAbsent _).1 .power (by decide)

theorem execResetRelease_held (hh : s.power.held = true) (hr : s.power.refclk = true) (ha : s.power.aon = true) :
    exec .resetRelease s = .next (if s.power.cold then s.released
      else if s.released.on FUS.FUS_STAT_FUSE_FAIL then s.released.safePads.put KPR.BOOT_STAT_STAGE 7
      else if s.released.on FUS.FUS_STAT_LOADED then (s.released.put KPR.BOOT_STAT_STAGE 1).applyDeny.consResume.warmPace
      else s.released.put FUS.FUS_STAT_ATTEMPTS 0) := by
  show execResetRelease s = _
  unfold execResetRelease
  rw [if_pos ⟨hh, hr, ha⟩]
  show (if s.power.cold then Host.Outcome.next s.released
    else if s.released.on FUS.FUS_STAT_FUSE_FAIL then Host.Outcome.next (s.released.safePads.put KPR.BOOT_STAT_STAGE 7)
    else if s.released.on FUS.FUS_STAT_LOADED then Host.Outcome.next (s.released.put KPR.BOOT_STAT_STAGE 1).applyDeny.consResume.warmPace
    else Host.Outcome.next (s.released.put FUS.FUS_STAT_ATTEMPTS 0)) = _
  split
  · rfl
  · split
    · rfl
    · split <;> rfl

end Sys2Proof.Machine

section
set_option Elab.async false
open Sys2Proof Sys2Proof.Machine

/-- Settles O22: the sources take the reset of `State.takeReset_spec`, the release is `State.released`. -/
theorem resetsAreTakenAndReleased : Obligations.ResetsAreTakenAndReleased := by
  unfold Obligations.ResetsAreTakenAndReleased
  refine ⟨?powerOn, ?poweredAlready, ?powerDown, ?supplyFault, ?sysReset, ?perst, ?short, ?perstInVault, ?cold, ?warm, ?notHeld, ?lost, ?return_, ?latched⟩
  case powerOn =>
    intro s ha
    obtain ⟨hp, hc, hf, hrest⟩ := s.unpowered_spec true
    refine ⟨s.unpowered true, ?_, ?_⟩
    · show Host.Outcome.next (if s.power.aon then s else s.unpowered true) = _
      rw [ha, if_neg (by decide)]
    · obtain ⟨hd, hs, hr, hrest⟩ := hrest
      rw [hp]
      exact ⟨rfl, rfl, rfl, hc, hf, hd, hs, hr, hrest⟩
  case poweredAlready =>
    intro s ha
    refine ⟨s, ?_, rfl⟩
    show Host.Outcome.next (if s.power.aon then s else s.unpowered true) = _
    rw [if_pos ha]
  case powerDown =>
    intro s
    obtain ⟨hp, -, -, -, -, -, hh, hk, -⟩ := s.unpowered_spec false
    refine ⟨s.unpowered false, rfl, ?_, ?_, fun p => ?_, hh, hk⟩
    · rw [hp]; rfl
    · rw [hp]
    · rw [State.pinLevel, if_pos (by rw [hp])]
  case supplyFault =>
    intro s ha hr hh
    obtain ⟨q, t, ht, hp, hheld, hcold, hpads, hcause, hscope, hcount, hdram⟩ :=
      s.failSupplies.coldReset_noted (cause := 7) (note := fun p => { p with suppliesOk := false }) (by decide) fun _ => ⟨rfl, rfl, rfl⟩
    rw [s.frame_failSupplies.get _ (by decide) (by simp)] at hcount
    refine ⟨t, ?_, hheld, hcold, hpads, by rw [hp], hcause, hscope, hcount, hdram⟩
    rw [ht, execSupplyFault_eq ha, State.requestReset_taken 2 7 true (by rw [s.failSupplies_power]; exact hr) (by rw [s.failSupplies_power]; exact hh)]
  case sysReset =>
    intro s ns hns hr hh
    obtain ⟨q, t, ht, hp, hheld, hcold, hpads, hcause, hscope, hcount, hdram⟩ :=
      s.safePads.coldReset_noted (cause := 2) (note := fun p => { p with sysResetLow := true }) (by decide) fun _ => ⟨rfl, rfl, rfl⟩
    rw [s.frame_safePads.get _ (by decide) (by simp)] at hcount
    refine ⟨t, ?_, hheld, hcold, hpads, by rw [hp], hcause, hscope, hcount, hdram⟩
    rw [ht, execSysResetN_eq hns, State.requestReset_taken 3 2 true (by rw [s.safePads_power]; exact hr) (by rw [s.safePads_power]; exact hh)]
  case perst =>
    intro s ns hns hr hh hv
    obtain ⟨q, t, ht, hp, hheld, hcold, hpads, hcause, hscope, hcount, hdram⟩ :=
      s.safePads.coldReset_noted (cause := 1) (note := fun p => { p with perstLow := true }) (by decide) fun _ => ⟨rfl, rfl, rfl⟩
    rw [s.frame_safePads.get _ (by decide) (by simp)] at hcount
    refine ⟨t, ?_, hheld, hcold, hpads, by rw [hp], hcause, hscope, hcount, hdram⟩
    rw [ht, execPerstN_eq hns fun h => hv h.1,
      State.requestReset_taken 4 1 true (by rw [s.safePads_power]; exact hr) (by rw [s.safePads_power]; exact hh)]
  case short =>
    rintro s ns c hns (rfl | rfl)
    · exact ⟨s, execSysResetN_short hns, rfl⟩
    · exact ⟨s, execPerstN_short hns, rfl⟩
  case perstInVault =>
    intro s ns hns hv hp
    exact ⟨s.withPower { s.power with perstLow := true }, execPerstN_vault hns ⟨hv, hp⟩, rfl, State.frame.rfl'.power _ (by simp)⟩
  case cold =>
    intro s hh hr ha hc
    refine ⟨s.released, ?_, ?_⟩
    · rw [execResetRelease_held hh hr ha, if_pos hc]
    have hfr := s.frame_released
    obtain ⟨-, htick, hstart, hrec⟩ := s.unheld.showAbsent.showSparePair.beginStart_spec
    have habs : s.frame s.unheld.showAbsent.showSparePair [.power, .hostFn] ([ICU.ICU_STAT_SPARE_LEFT, RGS.SPARE_STAT_PAIR] ++ (List.range 86).map engState) :=
      ((s.frame_unheld.mono (by simp) (by simp)).trans (s.unheld.frame_showAbsent.mono (by simp) fun _ h => List.mem_append_right _ h)).trans
        (s.unheld.showAbsent.frame_showSparePair.mono (by simp) (by decide))
    have hfailed := habs.get KPR.BOOT_STAT_FAILED_STARTS (by decide) (by decide)
    refine ⟨?_, ?_, ?_, ?_, ?_, htick.trans (habs.1 .ticks (by decide)), hstart.trans hfailed, fun i hi he => ?_, fun h3 => hrec (hfailed.trans h3), ?_, hfr⟩
    iterate 5 rw [s.released_power]
    · have hb : ∀ g ∈ [KPR.BOOT_STAT_RECOVERY, HIF.HIF_STAT_RECOVERY], (engState i).apart g := fun g hg =>
        engState_apart_of hi (by revert g; decide)
      have hp : ∀ g ∈ [ICU.ICU_STAT_SPARE_LEFT, RGS.SPARE_STAT_PAIR], (engState i).apart g := fun g hg =>
        engState_apart_of hi (by revert g; decide)
      rw [State.released, (State.beginStart_spec _).1.get _ (engState_le i) hb, (State.frame_showSparePair _).get _ (engState_le i) hp]
      exact State.showAbsent_absent hi he
    · exact hfr.get _ (by decide) (by decide)
  case warm =>
    intro s hh hr ha hc hff hl
    have hfr := s.frame_released
    refine ⟨(s.released.put KPR.BOOT_STAT_STAGE 1).applyDeny.consResume.warmPace, ?_, ?_, ?_⟩
    · rw [execResetRelease_held hh hr ha, if_neg (by rw [hc]; decide), if_neg, if_pos]
      · rw [State.on, hfr.get _ (by decide) (by decide)]; exact hl
      · rw [State.on, hfr.get _ (by decide) (by decide), hff]; decide
    · rw [(State.frame_warm _).1 .power (by decide), State.put_power, s.released_power]
    · rw [(State.frame_warm _).get _ (by decide) (by decide), State.get_put_same _ _ (by decide)]; rfl
  case notHeld =>
    intro s hh
    refine ⟨s, ?_, rfl⟩
    show execResetRelease s = _
    rw [execResetRelease, if_neg (by simp [hh])]
  case lost =>
    intro s
    refine ⟨_, rfl, ?_, ?_, ?_, ?_⟩
    · rw [State.put_power, State.put_power]
    · rw [State.get_put_apart _ _ (by decide) (by decide), State.get_put_same _ _ (by decide)]; rfl
    · rw [State.get_put_same _ _ (by decide)]; rfl
    · exact ((State.frame.rfl'.power _ (by simp)).put _ (by simp)).put _ (by simp)
  case return_ =>
    intro s hl
    refine ⟨s.clockBack, ?_, ?_, s.clockBack_refclk, s.frame_clockBack⟩
    · rw [execSysRefclkReturn_eq, hl]; rfl
    · rw [s.clockBack_power, ← hl]
  case latched =>
    intro s r c cold hm hl hc hh
    obtain ⟨hheld, hcold, -, -, hlatched, hcause, -⟩ := s.clockBack.takeReset_spec (s.power.latched.any fun e => e.2.2) (cause := c) (by omega)
    refine ⟨_, ?_, hheld, hcold, hcause, hlatched⟩
    rw [execSysRefclkReturn_eq, resolveRequests_of_least hm hl]
    dsimp only
    rw [State.requestReset_taken r c _ (by rw [s.clockBack_power]) (by rw [s.clockBack_power]; exact hh)]

end

/-! ### Bit maps, spares and stores -/

namespace Sys2Proof.Machine
set_option Elab.async false

variable {s t : State} {ps : List Part} {fs : List Fld}

/-- Bit i of the bit map that begins at a register. -/
def bitFld (base i : Nat) : Fld := ⟨base + 4 * (i / 32), i % 32, 1⟩

theorem State.bitOn_eq (s : State) (base i : Nat) : s.bitOn base i = s.on (bitFld base i) := rfl
theorem State.putBit_eq (s : State) (base i : Nat) (v : Bool) : s.putBit base i v = s.put (bitFld base i) (if v then 1 else 0) := rfl

theorem bitFld_le (base i : Nat) : (bitFld base i).lo + (bitFld base i).w ≤ 32 := by
  have := Nat.mod_lt i (show 0 < 32 by decide)
  show i % 32 + 1 ≤ 32
  omega

theorem bitFld_apart (base : Nat) {i j : Nat} (h : i ≠ j) : (bitFld base i).apart (bitFld base j) := by
  show base + 4 * (i / 32) ≠ base + 4 * (j / 32) ∨ i % 32 + 1 ≤ j % 32 ∨ j % 32 + 1 ≤ i % 32
  omega

theorem Fld.apart_comm {f g : Fld} (h : f.apart g) : g.apart f := h.imp Ne.symm Or.symm

/-- A field of a register outside the first n registers of a bit map is apart from the bits in them. -/
theorem bitFld_apart_of {base i : Nat} {f : Fld} (n : Nat) (hi : i < 32 * n) (h : f.off < base ∨ base + 4 * n ≤ f.off) : (bitFld base i).apart f := by
  refine .inl ?_
  show base + 4 * (i / 32) ≠ f.off
  omega

theorem State.on_eq_of_get {f : Fld} (h : t.get f = s.get f) : t.on f = s.on f := by rw [State.on, State.on, h]

theorem State.on_put_same {f : Fld} (h : f.lo + f.w ≤ 32) (hw : f.w = 1) (v : Bool) : (s.put f (if v then 1 else 0)).on f = v := by
  rw [State.on, State.get_put_same _ _ h, hw]
  cases v <;> rfl

theorem State.bitOn_putBit_same (base i : Nat) (v : Bool) : (s.putBit base i v).bitOn base i = v := State.on_put_same (bitFld_le base i) rfl v

theorem State.bitOn_congr {base i : Nat} (h : t.get (bitFld base i) = s.get (bitFld base i)) : t.bitOn base i = s.bitOn base i := State.on_eq_of_get h

theorem State.bitOn_of_frame {base i : Nat} (h : s.frame t ps fs) (hf : ∀ g ∈ fs, (bitFld base i).apart g) : t.bitOn base i = s.bitOn base i :=
  State.on_eq_of_get (h.get _ (bitFld_le base i) hf)

/-! Engines: state fields, spares, stores. -/

theorem engSpare_le (i : Nat) : (engSpare i).lo + (engSpare i).w ≤ 32 := by show 3 + 1 ≤ 32; omega

theorem engState_apart_engSpare (i j : Nat) : (engState i).apart (engSpare j) := .inr (.inl (Nat.le_refl 3))

/-- Registers of the engines stand above every register below their block. -/
theorem engReg_ge (i r : Nat) : 0x110100 ≤ engReg i r := by
  unfold engReg
  split <;> omega

theorem engSpare_apart_low {i : Nat} {f : Fld} (h : f.off < 0x110100) : (engSpare i).apart f :=
  .inl (Nat.ne_of_gt (Nat.lt_of_lt_of_le h (engReg_ge i 4)))

theorem mem_spareChoice {i k : Nat} (h : k ∈ s.spareChoice i) : k < 86 := by
  have := List.mem_reverse.1 (List.mem_of_mem_take h)
  exact List.mem_range.1 (List.mem_of_mem_filter this)

theorem State.frame_topSpares (s : State) : s.frame s.topSpares [] spareFields := by
  have hf : ∀ k < 86, engSpare k ∈ spareFields := fun k hk => List.mem_append_right _ (List.mem_map_of_mem (List.mem_range.2 hk))
  unfold State.topSpares
  refine State.frame.ite (State.frame.put (State.frame.put (State.frame.foldl_mem State.frame.rfl' fun t k hk ht => ht.put 1 (hf k ?_)) _ (by decide)) _ (by decide))
    State.frame.rfl'
  obtain hk | hk := List.mem_append.1 hk <;> exact mem_spareChoice hk

/-- Where no open stream keeps spares, none is chosen. -/
theorem State.topSpares_of_plain (h : ∀ e ∈ s.openStreams, e.2.prot = 2) : s.topSpares = s := by
  rw [State.topSpares, if_neg]
  rw [Bool.not_eq_true, List.any_eq_false]
  intro e he
  rw [h e he]
  decide

/-- A field of a register outside the spares' registers keeps its value when spares are chosen. -/
theorem spareFields_apart {f : Fld} (h : f.off ≠ RGS.SPARE_STAT_CARRELS.off) (he : ∀ k < 86, f.apart (engSpare k)) : ∀ g ∈ spareFields, f.apart g := by
  intro g hg
  obtain hg | hg := List.mem_append.1 hg
  · refine .inl ?_
    obtain rfl | rfl := List.mem_pair.1 hg
    · exact h
    · exact h
  · obtain ⟨k, hk, rfl⟩ := List.mem_map.1 hg
    exact he k (List.mem_range.1 hk)

theorem engState_apart_spareFields {i : Nat} (hi : i < 86) : ∀ g ∈ spareFields, (engState i).apart g :=
  spareFields_apart (engReg_ne_of hi (by decide) (.inl (by decide))) fun _ _ => engState_apart_engSpare _ _

theorem State.get_loadStore (s : State) (i : Nat) (f : Fld) : (s.loadStore i).get f = s.get f := State.get_setEngine ..
theorem State.frame_loadStore (s : State) (i : Nat) : s.frame (s.loadStore i) [.engines] [] := State.frame.rfl'.setEngine _ _ (by simp)

/-! Faults that wait at the MMU. -/

/-- The fields that the fault queue shows. -/
def faultFields : List Fld := [MMU.MMU_STAT_FLT_COUNT, Fld.whole MMU.FLT_INFO, Fld.whole MMU.FLT_VA_LO, Fld.whole MMU.FLT_VA_HI, srcPending 4]

theorem State.frame.showFaults (h : s.frame t ps fs) (hf : ∀ f ∈ faultFields, f ∈ fs) : s.frame t.showFaults ps fs := by
  unfold State.showFaults
  have h := h.put (f := MMU.MMU_STAT_FLT_COUNT) t.mmu.queue.length (hf _ (by decide))
  extract_lets u
  split
  · exact ((h.wr _ (hf _ (by decide))).wr _ (hf _ (by decide))).wr _ (hf _ (by decide))
  · exact ((h.wr _ (hf _ (by decide))).wr _ (hf _ (by decide))).wr _ (hf _ (by decide))

theorem State.frame.refillFaults (h : s.frame t ps fs) (p_mmu : .mmu ∈ ps) (hf : ∀ f ∈ faultFields, f ∈ fs) : s.frame t.refillFaults ps fs := by
  unfold State.refillFaults
  extract_lets n moved m u
  have hu : s.frame u ps fs := h.mmu _ p_mmu
  clear_value u
  refine State.frame.showFaults ?_ hf
  split
  · exact hu
  · exact hu.raise 4 (hf _ (by decide))

theorem State.frame.dropFaults (h : s.frame t ps fs) (who : Waiter) (p_mmu : .mmu ∈ ps) (hf : ∀ f ∈ faultFields, f ∈ fs) :
    s.frame (t.dropFaults who) ps fs :=
  State.frame.refillFaults (h.mmu _ p_mmu) p_mmu hf

/-- A unit without an open item gives back what it claims, and nothing is truncated. -/
theorem State.frame_fenceStacks {u : Nat} (h : (s.queues.any fun q => q.2.items.any fun it => it.producer == u && !it.complete) = false) :
    s.frame (s.fenceStacks u) [.queues] [] := by
  unfold State.fenceStacks
  refine State.frame.foldl_mem State.frame.rfl' fun t e he ht => ?_
  have hopen : (e.2.items.any fun it => it.producer == u && !it.complete) = false := by
    rw [List.any_eq_false] at h
    simpa using h e he
  have hgone : (e.2.items.filter fun it => it.producer == u && !it.complete) = [] := by
    rw [List.filter_eq_nil_iff]
    rwa [List.any_eq_false] at hopen
  dsimp only [Queue.fenceUnit]
  rw [hgone, hopen]
  exact ht.setQueue _ _ (by simp)

end Sys2Proof.Machine

/-! ### Keyed resets, unit resets, power domains -/

namespace Sys2Proof.Machine
set_option Elab.async false

variable {s t : State} {ps : List Part} {fs : List Fld}

/-! RST_KEY and RST_CMD. -/

theorem State.keyErr_spec (s : State) : s.keyErr.power = { s.power with key := none } ∧
    s.keyErr.get RST.RST_ERR_KEY_ERR = satAdd RST.RST_ERR_KEY_ERR.w (s.get RST.RST_ERR_KEY_ERR) 1 ∧ s.frame s.keyErr [.power] [RST.RST_ERR_KEY_ERR] := by
  unfold State.keyErr
  have hu : s.frame { s with power := { s.power with key := none } } [.power] [RST.RST_ERR_KEY_ERR] := State.frame.rfl'.power _ (by simp)
  refine ⟨by rw [State.bump_power], ?_, hu.bump _ (by simp)⟩
  rw [State.get_bump_same _ (by decide), State.get_congr (s := s) (t := { s with power := { s.power with key := none } }) rfl rfl]

/-- The key that a completed sequence ends. -/
def State.keyTaken (s : State) : State := s.withPower { s.power with key := none }

theorem State.rstCmd_down (h : s.bar0Up = false) (k : Nat) : s.rstCmd k = (s, false) := if_pos h

theorem State.rstCmd_wrong {k : Nat} (h : s.bar0Up = true) (hk : s.power.key = none ∨ s.keyStale = true ∨ k ≠ 0x3C5A) : s.rstCmd k = (s.keyErr, false) := by
  rw [State.rstCmd, if_neg (by simp [h]), if_pos (hk.imp_left fun e => by simp [e])]

theorem State.keyStale_of {d : Nat} (hk : s.power.key = some d) (hd : s.usSince d ≤ 1000) : s.keyStale = false := by
  rw [State.keyStale, hk]
  exact decide_eq_false (by omega)

theorem State.rstCmd_right {d : Nat} (h : s.bar0Up = true) (hk : s.power.key = some d) (hd : s.usSince d ≤ 1000) :
    s.rstCmd 0x3C5A = (s.keyTaken, true) := by
  rw [State.rstCmd, if_neg (by simp [h]), if_neg (by simp [hk, s.keyStale_of hk hd])]
  rfl

/-- A reset that the host commands (R489). -/
theorem execResetCommand_taken {d : Nat} (cold : Bool) (h : s.bar0Up = true) (hk : s.power.key = some d) (hd : s.usSince d ≤ 1000)
    (hr : s.power.refclk = true) (hh : s.power.held = false) :
    exec (if cold then .coldResetCommand 0x3C5A else .warmResetCommand 0x3C5A) s = .next (s.keyTaken.takeReset cold 5 true) := by
  have hreq : ∀ c, s.keyTaken.requestReset 6 5 c = s.keyTaken.takeReset c 5 true := fun c =>
    State.requestReset_taken 6 5 c (by rw [State.keyTaken, State.withPower_power]; exact hr) (by rw [State.keyTaken, State.withPower_power]; exact hh)
  cases cold
  · show execWarmResetCommand 0x3C5A s = _
    rw [execWarmResetCommand, State.rstCmd_right h hk hd]
    dsimp only
    rw [if_pos rfl, hreq]
  · show execColdResetCommand 0x3C5A s = _
    rw [execColdResetCommand, State.rstCmd_right h hk hd]
    dsimp only
    rw [if_pos rfl, hreq]

/-- A command of RST_CMD whose sequence is not complete leaves what the sequence leaves. -/
theorem execRstCmd_incomplete {k u : Nat} {c : Instr} (hc : c = .coldResetCommand k ∨ c = .warmResetCommand k ∨ c = .unitReset k u)
    (h : s.rstCmd k = (t, false)) : exec c s = .next t := by
  obtain rfl | rfl | rfl := hc
  · show execColdResetCommand k s = _
    rw [execColdResetCommand, h]
    rfl
  · show execWarmResetCommand k s = _
    rw [execWarmResetCommand, h]
    rfl
  · show execUnitReset k u s = _
    rw [execUnitReset, h]
    rfl

/-! UNIT_RESET. -/

theorem engineOf_lt {u i : Nat} (h : engineOf u = some i) : i < 86 := by
  unfold engineOf at h
  split at h
  · obtain rfl := Option.some.inj h
    omega
  · split at h
    · obtain rfl := Option.some.inj h
      omega
    · cases h

theorem engineOf_unit_lt {u i : Nat} (h : engineOf u = some i) : u < 0x92 := by
  unfold engineOf at h
  split at h
  · omega
  · split at h
    · omega
    · cases h

theorem domainOf_engine {u i : Nat} (h : engineOf u = some i) : domainOf u = i := by rw [domainOf, h]

theorem State.powered_engine {u i : Nat} (h : engineOf u = some i) (s : State) : s.powered u = s.bitOn PWR.PD_STAT0 i := by
  rw [State.powered, domainOf_engine h]
  have := engineOf_lt h
  rw [beq_eq_false_iff_ne.2 (by omega), Bool.false_or]

/-- What an idle carrel or scribe is without. -/
theorem State.idle_engine {u i : Nat} (hi : engineOf u = some i) (h : s.unitIdle u = true) : (s.engine i).work = none ∧ (s.engine i).writes = 0 ∧
    (s.queues.any fun q => q.2.items.any fun it => it.producer == u && !it.complete) = false := by
  rw [State.unitIdle, hi] at h
  dsimp only at h
  simp only [Bool.and_eq_true] at h
  obtain ⟨⟨⟨⟨⟨hwork, hwrites⟩, -⟩, hopen⟩, -⟩, -⟩ := h
  refine ⟨by simpa using hwork, by simpa using hwrites, ?_⟩
  rw [List.any_eq_false]
  rw [Bool.not_eq_true', List.any_eq_false] at hopen
  intro q hq e
  exact hopen q hq (by rw [e, Bool.or_true])

/-- An engine that a unit reset has stopped. -/
def Engine.stopped (e : Engine) : Engine := { e with writes := 0, drain := none, utlb := [] }
def State.stopEngine (s : State) (i : Nat) : State := (s.setEngine i (s.engine i).stopped).put (engState i) stOff

theorem State.stopEngine_engine (s : State) (i : Nat) : (s.stopEngine i).engine i = (s.engine i).stopped := by
  rw [State.stopEngine, State.engine, State.put_engines]
  exact State.engine_setEngine _ _ _

theorem State.stopUnit_free {u i : Nat} (hi : engineOf u = some i) (hw : (((s.fenceStacks u).dropFaults (.engine i)).engine i).work = none) :
    s.stopUnit u = ((s.fenceStacks u).dropFaults (.engine i)).stopEngine i := by
  unfold State.stopUnit
  rw [hi]
  dsimp only
  generalize (s.fenceStacks u).dropFaults (.engine i) = v at hw ⊢
  rw [if_neg (by simp [State.routineHeld, hw])]
  have hwork : ((v.stopEngine i).engine i).work = none := by rw [v.stopEngine_engine]; exact hw
  split
  next e => exact nomatch (hwork.symm.trans e)
  next => rfl

/-- The reset of an idle engine stops it, and touches only the engine, the queues and the MMU's faults. -/
theorem State.stopUnit_idle {u i : Nat} (hi : engineOf u = some i) (hw : (s.engine i).work = none)
    (ho : (s.queues.any fun q => q.2.items.any fun it => it.producer == u && !it.complete) = false) :
    (s.stopUnit u).get (engState i) = 0 ∧ ((s.stopUnit u).engine i).writes = 0 ∧ ((s.stopUnit u).engine i).work = none ∧
    s.frame (s.stopUnit u) [.queues, .mmu, .engines] (engState i :: faultFields) := by
  have hd : s.frame ((s.fenceStacks u).dropFaults (.engine i)) [.queues, .mmu] faultFields :=
    ((State.frame_fenceStacks ho).mono (by simp) (by simp)).dropFaults (.engine i) (by simp) fun f h => h
  have hwork : (((s.fenceStacks u).dropFaults (.engine i)).engine i).work = none := by
    rw [State.engine, show ((s.fenceStacks u).dropFaults (.engine i)).engines = s.engines from hd.1 .engines (by simp)]
    exact hw
  rw [State.stopUnit_free hi hwork, State.stopEngine_engine]
  refine ⟨?_, rfl, hwork, ((hd.mono (by simp) fun f h => List.mem_cons_of_mem _ h).setEngine _ _ (by simp)).put _ (by simp)⟩
  rw [State.stopEngine, State.get_put_same _ _ (engState_le i)]
  rfl

end Sys2Proof.Machine

/-! ### Power domains -/

namespace Sys2Proof.Machine
set_option Elab.async false

variable {s t : State} {ps : List Part} {fs : List Fld}

/-- The bits of PD_REQ and of PD_STAT. -/
theorem pdReq_apart {i : Nat} {f : Fld} (hi : i < 128) (h : f.off < PWR.PD_REQ0 ∨ PWR.PD_STAT0 ≤ f.off) : (bitFld PWR.PD_REQ0 i).apart f :=
  bitFld_apart_of 4 (by omega) h
theorem pdStat_apart {i : Nat} {f : Fld} (hi : i < 128) (h : f.off < PWR.PD_STAT0 ∨ PWR.PD_STAT0 + 16 ≤ f.off) : (bitFld PWR.PD_STAT0 i).apart f :=
  bitFld_apart_of 4 (by omega) h
theorem pdStat_apart_engReg {i : Nat} (hi : i < 128) (j r lo w : Nat) : (bitFld PWR.PD_STAT0 i).apart ⟨engReg j r, lo, w⟩ :=
  pdStat_apart hi (.inr (Nat.le_trans (by decide) (engReg_ge j r)))

/-- The fields that a switched domain shows. -/
def domainFields (d : Nat) : List Fld := [bitFld PWR.PD_STAT0 d, PWR.PD_SWITCHES_COUNT]

theorem domainFields_low {d : Nat} (hd : d < 128) : ∀ g ∈ domainFields d, PWR.PD_STAT0 ≤ g.off ∧ g.off < 0x40080 := by
  intro g hg
  obtain rfl | rfl := List.mem_pair.1 hg
  · have : PWR.PD_STAT0 = 0x40030 := rfl
    show PWR.PD_STAT0 ≤ PWR.PD_STAT0 + 4 * (d / 32) ∧ PWR.PD_STAT0 + 4 * (d / 32) < 0x40080
    omega
  · decide

theorem State.setDomain_spec (s : State) {d : Nat} (hd : d < 128) (v : Bool) : (s.setDomain d v).bitOn PWR.PD_STAT0 d = v ∧
    s.frame (s.setDomain d v) [] (domainFields d) := by
  unfold State.setDomain
  split
  case isTrue h => exact ⟨h, State.frame.rfl'⟩
  case isFalse h =>
    refine ⟨?_, (State.frame.rfl'.putBit _ _ _ (List.mem_cons_self ..)).bump _ (List.mem_cons_of_mem _ (List.mem_cons_self ..))⟩
    rw [State.bitOn_of_frame (State.frame.rfl'.bump (ps := []) (fs := [PWR.PD_SWITCHES_COUNT]) _ (by simp)) (by simpa using pdStat_apart hd (.inr (by decide))),
      State.bitOn_putBit_same]

/-- The domain of a carrel or scribe that is switched off: the engine's state is lost (R496). -/
theorem State.domainOff_engine {d : Nat} (hd : d < 86) (he : s.engineEnabled d = true) : (s.domainOff d).bitOn PWR.PD_STAT0 d = false ∧
    (s.domainOff d).get (engState d) = 0 ∧ (∀ e, e ≠ d → (s.domainOff d).engine e = s.engine e) ∧
    s.frame (s.domainOff d) [.engines] (engState d :: domainFields d) := by
  rw [State.domainOff, if_pos hd, he, if_pos rfl]
  obtain ⟨hbit, hframe⟩ := ((s.setEngine d Engine.init).put (engState d) stOff).setDomain_spec (d := d) (by omega) false
  refine ⟨hbit, ?_, fun e hne => ?_, ?_⟩
  · rw [hframe.get _ (engState_le d) fun g hg => engState_apart_of hd (.inl (Nat.lt_trans (domainFields_low (by omega) g hg).2 (by decide))), State.get_put_same _ _ (engState_le d)]
    rfl
  · rw [State.engine, show State.engines _ = _ from hframe.1 .engines (by simp), State.put_engines]
    exact State.engine_setEngine_ne _ _ hne
  · exact ((State.frame.rfl'.setEngine _ _ (by simp)).put _ (by simp)).trans (hframe.mono (by simp) fun f h => List.mem_cons_of_mem _ h)

/-! One bit of a PD_REQ write. -/

theorem State.requestDomain_same {d : Nat} {v : Bool} (h : s.bitOn PWR.PD_REQ0 d = v) : s.requestDomain d v = s := if_pos (.inr h)

theorem State.requestDomain_on {d : Nat} (hd : d < 91 ∨ 104 < d ∧ d < 112) (h : s.bitOn PWR.PD_REQ0 d = false) (hh : s.heldOff d = false)
    (hr : s.on KPR.BOOT_STAT_RECOVERY = false) : s.requestDomain d true = s.putBit PWR.PD_REQ0 d true := by
  rw [State.requestDomain, if_neg (by rw [h]; simp; omega), if_neg (by omega), if_neg (by simp [hh, hr]), if_pos rfl]

theorem State.requestDomain_off {d : Nat} (hd : d < 86) (h : s.bitOn PWR.PD_REQ0 d = true) (hh : s.heldOff d = false)
    (hs : s.domainSpare d = false) (hi : s.domainIdle d = true) : s.requestDomain d false = (s.putBit PWR.PD_REQ0 d false).domainOff d := by
  rw [State.requestDomain, if_neg (by rw [h]; simp; omega), if_neg (by omega), if_neg (by simp [hh]), if_neg (by decide), hs, if_neg (by decide), hi,
    if_neg (by decide)]

/-- A fold in which one element acts once, and no other does anything. -/
theorem foldl_single {α : Type} [DecidableEq α] {g : State → α → State} {x : α} (hx : g s x = t) :
    ∀ {l : List α}, (∀ y ∈ l, y ≠ x → g s y = s) → (∀ y ∈ l, g t y = t) → x ∈ l → l.foldl g s = t
  | y :: l, h0, h1, hl => by
    rw [List.foldl_cons]
    by_cases hy : y = x
    · rw [hy, hx]
      exact List.foldlRecOn (motive := fun u => u = t) l g rfl fun u hu z hz => by rw [hu, h1 z (List.mem_cons_of_mem _ hz)]
    · rw [h0 y (List.mem_cons_self ..) hy]
      exact foldl_single hx (fun z hz => h0 z (List.mem_cons_of_mem _ hz)) (fun z hz => h1 z (List.mem_cons_of_mem _ hz))
        ((List.mem_cons.1 hl).resolve_left (Ne.symm hy))

/-- Firmware's write of PD_REQ that changes one bit makes one request. -/
theorem execPdReqWrite_single {k i v : Nat} (hk : k < 4) (hi : i < 32) (hh : s.power.held = false)
    (hj : ∀ j, j < 32 → j ≠ i → bitAt v j = s.bitOn PWR.PD_REQ0 (32 * k + j)) (hr : s.requestDomain (32 * k + i) (bitAt v i) = t)
    (hth : t.power.held = false) (hbit : ∀ j, j < 32 → t.bitOn PWR.PD_REQ0 (32 * k + j) = bitAt v j) : exec (.pdReqWrite false k v) s = .next t := by
  show execPdReqWrite false k v s = _
  rw [execPdReqWrite, if_neg (by simp; omega), foldl_single (x := i) (t := t) _ (fun j hm hne => ?_) (fun j hm => ?_) (List.mem_range.2 hi)]
  · rw [hh, if_neg (by decide), hr]
  · rw [hh, if_neg (by decide), State.requestDomain_same (hj j (List.mem_range.1 hm) hne).symm]
  · rw [hth, if_neg (by decide), State.requestDomain_same (hbit j (List.mem_range.1 hm))]

/-! A domain that is up. -/

theorem State.mem_ramping {d : Nat} (h : d ∈ s.ramping) : d < 112 ∧ s.bitOn PWR.PD_STAT0 d = false := by
  have h := List.mem_filter.1 (List.mem_of_mem_take h)
  exact ⟨List.mem_range.1 h.1, by simpa using (Bool.and_eq_true_iff.1 h.2).2⟩

theorem State.setDomain_count {d : Nat} {v : Bool} (hd : d < 128) (h : s.bitOn PWR.PD_STAT0 d ≠ v) :
    (s.setDomain d v).get PWR.PD_SWITCHES_COUNT = satAdd PWR.PD_SWITCHES_COUNT.w (s.get PWR.PD_SWITCHES_COUNT) 1 := by
  rw [State.setDomain, if_neg h, State.get_bump_same _ (by decide), State.putBit_eq,
    State.get_put_apart _ _ (by decide) (Fld.apart_comm (pdStat_apart hd (.inr (by decide))))]

/-- A carrel or scribe whose domain is on: its store is loaded and it is IDLE (R431, R496). -/
def State.engineUp (s : State) (d : Nat) : State := ((s.setDomain d true).loadStore d).put (engState d) stIdle

theorem State.domainUp_engine {d : Nat} (hd : d < 86) (hf : s.on (MMU.GRANT_FENCED d) = false) : s.domainUp d = (s.engineUp d).topSpares := by
  have hg : (s.setDomain d true).on (MMU.GRANT_FENCED d) = false := by
    rw [State.on_eq_of_get ((s.setDomain_spec (d := d) (by omega) true).2.get (MMU.GRANT_FENCED d) (Nat.le_refl 32) fun g hg => .inl ?_), hf]
    exact Nat.ne_of_gt (Nat.lt_of_lt_of_le (domainFields_low (by omega) g hg).2 (Nat.le_trans (by decide) (Nat.le_add_right 0xA0400 _)))
  rw [State.domainUp, if_pos hd, hg, if_neg (by decide)]
  rfl

theorem State.engineUp_spec {d : Nat} (hd : d < 86) : s.frame (s.engineUp d) [.engines] (engState d :: domainFields d) ∧
    (s.engineUp d).bitOn PWR.PD_STAT0 d = true ∧ (s.engineUp d).get (engState d) = 1 ∧ ((s.engineUp d).engine d).store = s.copyOf d ∧
    (s.bitOn PWR.PD_STAT0 d = false →
      (s.engineUp d).get PWR.PD_SWITCHES_COUNT = satAdd PWR.PD_SWITCHES_COUNT.w (s.get PWR.PD_SWITCHES_COUNT) 1) ∧
    (∀ e, e ≠ d → (s.engineUp d).engine e = s.engine e) := by
  obtain ⟨hbit, hframe⟩ := s.setDomain_spec (d := d) (by omega) true
  have hcount := fun h : s.bitOn PWR.PD_STAT0 d = false => s.setDomain_count (d := d) (v := true) (by omega) (by simp [h])
  have hcopy : (s.setDomain d true).copyOf d = s.copyOf d := by
    rw [State.copyOf, State.copyOf, show State.copyCar _ = _ from hframe.1 .copyCar (by simp), show State.copyScb _ = _ from hframe.1 .copyScb (by simp)]
  have heng : ∀ e, (s.setDomain d true).engine e = s.engine e := fun e => by
    rw [State.engine, show State.engines _ = _ from hframe.1 .engines (by simp)]
    rfl
  unfold State.engineUp
  generalize s.setDomain d true = u at *
  refine ⟨?_, ?_, ?_, ?_, ?_, ?_⟩
  · exact (((hframe.mono (by simp) fun f h => List.mem_cons_of_mem _ h).setEngine _ _ (by simp)).put _ (by simp))
  · rw [State.bitOn_of_frame (State.frame.rfl'.put (ps := []) (fs := [engState d]) _ (by simp)) ?_, State.bitOn_congr (State.get_loadStore ..), hbit]
    intro g hg
    obtain rfl := List.mem_singleton.1 hg
    exact pdStat_apart_engReg (by omega) d 4 0 3
  · rw [State.get_put_same _ _ (engState_le d)]
    rfl
  · rw [State.engine, State.put_engines, ← hcopy]
    exact congrArg Engine.store (State.engine_setEngine _ _ _)
  · intro h
    rw [State.get_put_apart _ _ (by decide) (Fld.apart_comm (engState_apart_of hd (.inl (by decide)))), State.get_loadStore]
    exact hcount h
  · intro e hne
    rw [State.engine, State.put_engines, ← heng e]
    exact State.engine_setEngine_ne _ _ hne

end Sys2Proof.Machine

/-! ### UNIT_RESET, its end, and the keyed commands (R456, R489, R495) -/

namespace Sys2Proof.Machine
set_option Elab.async false

variable {s t : State} {ps : List Part} {fs : List Fld}

theorem State.withPower_unitAccepted (s : State) (p : Power) (u : Nat) : (s.withPower p).unitAccepted u = s.unitAccepted u := rfl
theorem State.withPower_unitIdle (s : State) (p : Power) (u : Nat) : (s.withPower p).unitIdle u = s.unitIdle u := rfl

/-- A unit reset that begins: its unit is shown RUNNING. -/
def State.unitResetBegun (s : State) (u : Nat) : State :=
  (s.withPower { s.power with key := none, unit := some (u, s.ticks, false) }).put RST.RST_UNIT_RUNNING 1

/-- UNIT_RESET of an idle unit that the command is accepted for (R456). -/
theorem execUnitReset_idle {u d : Nat} (h : s.bar0Up = true) (hk : s.power.key = some d) (hd : s.usSince d ≤ 1000) (ha : s.unitAccepted u = true)
    (hi : s.unitIdle u = true) (hh : s.power.held = false) : exec (.unitReset 0x3C5A u) s = .next ((s.unitResetBegun u).stopUnit u) := by
  show execUnitReset 0x3C5A u s = _
  rw [execUnitReset, State.rstCmd_right h hk hd]
  dsimp only
  rw [if_neg (by decide), State.keyTaken, State.withPower_unitAccepted, ha, if_neg (by decide), State.withPower_unitIdle, hi]
  show Host.Outcome.next (if (s.unitResetBegun u).power.held = true then s.unitResetBegun u else (s.unitResetBegun u).stopUnit u) = _
  rw [if_neg (by rw [State.unitResetBegun, State.put_power]; exact Bool.eq_false_iff.1 hh)]

/-- UNIT_RESET of a unit that the command is not accepted for is REFUSED. -/
theorem execUnitReset_refused {u d : Nat} (h : s.bar0Up = true) (hk : s.power.key = some d) (hd : s.usSince d ≤ 1000) (ha : s.unitAccepted u = false) :
    exec (.unitReset 0x3C5A u) s = .next ((s.keyTaken.put RST.RST_UNIT_REFUSED 1).put RST.RST_UNIT_UNIT u) := by
  show execUnitReset 0x3C5A u s = _
  rw [execUnitReset, State.rstCmd_right h hk hd]
  dsimp only
  rw [if_neg (by decide), State.keyTaken, State.withPower_unitAccepted, ha, if_pos rfl]

/-! UNIT_RESET_DONE. -/

/-- What RST_UNIT and the fault map show when a unit reset ends. -/
def State.unitResetShown (s : State) (u : Nat) (busy : Bool) : State :=
  let v := (((s.withPower { s.power with unit := none }).put RST.RST_UNIT_RUNNING 0).put RST.RST_UNIT_DONE 1).put RST.RST_UNIT_UNIT u
  (if busy then v.put RST.RST_UNIT_BUSY_AT_RESET 1 else v).putBit (RGS.FAULT_MAP 0) u false

/-- The fields of RST_UNIT. -/
def rstUnitFields : List Fld := [RST.RST_UNIT_RUNNING, RST.RST_UNIT_DONE, RST.RST_UNIT_UNIT, RST.RST_UNIT_BUSY_AT_RESET]

theorem faultMap_apart {u : Nat} {f : Fld} (hu : u < 512) (h : f.off < RGS.FAULT_MAP 0 ∨ RGS.FAULT_MAP 0 + 64 ≤ f.off) :
    (bitFld (RGS.FAULT_MAP 0) u).apart f := bitFld_apart_of 16 (by omega) h

theorem State.unitResetShown_spec (s : State) {u : Nat} (hu : u < 512) (busy : Bool) :
    s.frame (s.unitResetShown u busy) [.power] (bitFld (RGS.FAULT_MAP 0) u :: rstUnitFields) ∧
    (s.unitResetShown u busy).power = { s.power with unit := none } ∧ (s.unitResetShown u busy).faulty u = false ∧
    (s.unitResetShown u busy).get RST.RST_UNIT_RUNNING = 0 ∧ (s.unitResetShown u busy).get RST.RST_UNIT_DONE = 1 ∧
    (s.unitResetShown u busy).get RST.RST_UNIT_UNIT = u ∧ (busy = true → (s.unitResetShown u busy).get RST.RST_UNIT_BUSY_AT_RESET = 1) := by
  unfold State.unitResetShown
  extract_lets q v
  have hv : s.frame v [.power] (bitFld (RGS.FAULT_MAP 0) u :: rstUnitFields) :=
    (((State.frame.rfl'.power _ (by simp)).put _ (by simp [rstUnitFields])).put _ (by simp [rstUnitFields])).put _ (by simp [rstUnitFields])
  have hp : v.power = { s.power with unit := none } := by simp only [v, State.put_power]; rfl
  have hr : v.get RST.RST_UNIT_RUNNING = 0 := by
    rw [State.get_put_apart _ _ (by decide) (by decide), State.get_put_apart _ _ (by decide) (by decide), State.get_put_same _ _ (by decide)]; rfl
  have hd : v.get RST.RST_UNIT_DONE = 1 := by rw [State.get_put_apart _ _ (by decide) (by decide), State.get_put_same _ _ (by decide)]; rfl
  have hun : v.get RST.RST_UNIT_UNIT = u := by
    rw [State.get_put_same _ _ (by decide)]
    exact Nat.mod_eq_of_lt (Nat.lt_of_lt_of_le hu (by decide))
  clear_value v
  have hw : v.frame (if busy then v.put RST.RST_UNIT_BUSY_AT_RESET 1 else v) [] [RST.RST_UNIT_BUSY_AT_RESET] :=
    State.frame.ite (State.frame.rfl'.put _ (by simp)) State.frame.rfl'
  have hb : busy = true → (if busy then v.put RST.RST_UNIT_BUSY_AT_RESET 1 else v).get RST.RST_UNIT_BUSY_AT_RESET = 1 := fun e => by
    rw [if_pos e, State.get_put_same _ _ (by decide)]
    rfl
  generalize (if busy then v.put RST.RST_UNIT_BUSY_AT_RESET 1 else v) = w at hw hb ⊢
  have hf : ∀ f ∈ rstUnitFields, (w.putBit (RGS.FAULT_MAP 0) u false).get f = w.get f := fun f hf =>
    State.get_put_apart _ _ (by revert f; decide) (Fld.apart_comm (faultMap_apart hu (.inl (by revert f; decide))))
  refine ⟨(hv.trans (hw.mono (by simp) (by simp [rstUnitFields]))).putBit _ _ _ (by simp [bitFld]), ?_, State.bitOn_putBit_same _ _ _, ?_, ?_, ?_, fun e => ?_⟩
  · rw [State.putBit_power, show w.power = v.power from hw.1 .power (by simp), hp]
  · rw [hf _ (by decide), hw.get _ (by decide) (by decide), hr]
  · rw [hf _ (by decide), hw.get _ (by decide) (by decide), hd]
  · rw [hf _ (by decide), hw.get _ (by decide) (by decide), hun]
  · rw [hf _ (by decide), hb e]

/-- An engine that was not fenced leaves its unit reset with its store loaded. -/
def State.engineReset (s : State) (u i : Nat) : State :=
  let v := (s.put (MMU.GRANT_FENCED i) 0).loadStore i
  v.put (engState i) (if v.powered u then stIdle else stOff)

theorem State.engineReset_spec (s : State) {u i : Nat} (hi : engineOf u = some i) :
    s.frame (s.engineReset u i) [.engines] [MMU.GRANT_FENCED i, engState i] ∧ (s.engineReset u i).get (engState i) = (if s.powered u then 1 else 0) ∧
    ((s.engineReset u i).engine i).store = s.copyOf i := by
  have hp : ((s.put (MMU.GRANT_FENCED i) 0).loadStore i).powered u = s.powered u := by
    rw [State.powered_engine hi, State.powered_engine hi, State.bitOn_congr (State.get_loadStore ..)]
    exact State.bitOn_congr (State.get_put_apart _ _ (bitFld_le _ _) (pdStat_apart (Nat.lt_trans (engineOf_lt hi) (by decide))
      (.inr (Nat.le_trans (by decide) (Nat.le_add_right 0xA0400 _)))))
  unfold State.engineReset
  dsimp only
  rw [hp]
  refine ⟨((State.frame.rfl'.put _ (by simp)).setEngine _ _ (by simp)).put _ (by simp), ?_, ?_⟩
  · rw [State.get_put_same _ _ (engState_le i)]
    cases s.powered u <;> rfl
  · rw [State.engine, State.put_engines]
    refine (congrArg Engine.store (State.engine_setEngine _ _ _)).trans ?_
    show (s.put (MMU.GRANT_FENCED i) 0).copyOf i = _
    rw [State.copyOf, State.put_copyCar, State.put_copyScb]
    rfl

theorem State.engineReset_topSpares_low {u i : Nat} (hi : engineOf u = some i) {f : Fld} (h1 : f.off < 0xA0400)
    (h2 : f.off ≠ RGS.SPARE_STAT_CARRELS.off) (hle : f.lo + f.w ≤ 32) : ((s.engineReset u i).topSpares).get f = s.get f := by
  rw [(s.engineReset u i).frame_topSpares.get _ hle (spareFields_apart h2 fun k _ => Fld.apart_comm (engSpare_apart_low (by omega))),
    (s.engineReset_spec hi).1.get _ hle fun g hg => ?_]
  obtain rfl | rfl := List.mem_pair.1 hg
  · exact .inl (Nat.ne_of_lt (Nat.lt_of_lt_of_le h1 (Nat.le_add_right _ _)))
  · exact Fld.apart_comm (engState_apart_of (engineOf_lt hi) (.inl (by omega)))

theorem execUnitResetDone_engine {u i d : Nat} {busy : Bool} (hu : s.power.unit = some (u, d, busy)) (hi : engineOf u = some i)
    (hf : s.on (MMU.GRANT_FENCED i) = false) : exec .unitResetDone s = .next ((s.unitResetShown u busy).engineReset u i).topSpares := by
  have hfr := (s.unitResetShown_spec (Nat.lt_trans (engineOf_unit_lt hi) (by decide)) busy).1
  have hg : (s.unitResetShown u busy).on (MMU.GRANT_FENCED i) = false := by
    rw [State.on_eq_of_get (hfr.get (MMU.GRANT_FENCED i) (Nat.le_refl 32) fun g hg => .inl ?_), hf]
    have hlow : g.off < 0xA0400 := by
      obtain rfl | hg := List.mem_cons.1 hg
      · have := engineOf_unit_lt hi
        have : RGS.FAULT_MAP 0 = 0x60080 := rfl
        show RGS.FAULT_MAP 0 + 4 * (u / 32) < 0xA0400
        omega
      · exact (by decide : ∀ g ∈ rstUnitFields, g.off < 0xA0400) g hg
    exact Nat.ne_of_gt (Nat.lt_of_lt_of_le hlow (Nat.le_add_right _ _))
  show execUnitResetDone s = _
  rw [execUnitResetDone, hu]
  dsimp only
  rw [hi]
  dsimp only
  change Host.Outcome.next (if (s.unitResetShown u busy).on (MMU.GRANT_FENCED i) = true then _ else (s.unitResetShown u busy).engineReset u i).topSpares = _
  rw [hg, if_neg (by decide)]

end Sys2Proof.Machine

section
set_option Elab.async false
open Sys2Proof Sys2Proof.Machine

/-- Settles O23: the keyed commands by `State.rstCmd`, unit resets by `State.stopUnit_idle`, domains by `State.domainOff_engine` and `State.engineUp_spec`. -/
theorem keyedResetsUnitsAndDomains : Obligations.KeyedResetsUnitsAndDomains := by
  unfold Obligations.KeyedResetsUnitsAndDomains
  refine ⟨?opened, ?discarded, ?commanded, ?incomplete, ?down, ?unitReset, ?refused, ?unitDone, ?byHost, ?domainOn, ?domainOff, ?onDone⟩
  case opened =>
    intro s hb hk
    refine ⟨s.withPower { s.power with key := some s.ticks }, ?_, rfl, State.frame.rfl'.power _ (by simp)⟩
    show execRstKey 0xA5C3 s = _
    rw [execRstKey, if_neg (by simp [hb]), if_pos (by simp [hk])]
    dsimp only
    rw [if_pos (by decide)]
    rfl
  case discarded =>
    intro s v d hb hk hd
    refine ⟨s.keyErr, ?_, s.keyErr_spec⟩
    show execRstKey v s = _
    rw [execRstKey, if_neg (by simp [hb]), if_neg (by simp [hk]), if_neg (by simp [State.keyStale_of hk hd])]
  case commanded =>
    intro s d cold hb hk hd hr hh
    obtain ⟨hheld, hcold, -, hkey, -, hcause, hscope, hcount, hdram, hstreams⟩ := s.keyTaken.takeReset_spec cold (cause := 5) (by decide)
    rw [show s.keyTaken.get RST.RST_STAT_RESETS = _ from s.withPower_get _ _] at hcount
    exact ⟨_, execResetCommand_taken cold hb hk hd hr hh, hheld, hcold, hkey, hcause, hscope, hcount, hdram, hstreams⟩
  case incomplete =>
    intro s k u c hc hb hk
    exact ⟨s.keyErr, execRstCmd_incomplete hc (State.rstCmd_wrong hb hk), s.keyErr_spec⟩
  case down =>
    intro s v k u c hc hb
    refine ⟨s, ?_, rfl⟩
    obtain rfl | hc := hc
    · show execRstKey v s = _
      rw [execRstKey, if_pos hb]
    · exact execRstCmd_incomplete hc (State.rstCmd_down hb k)
  case unitReset =>
    intro s u i d hb hk hd ha hid hi hh
    obtain ⟨hwork, hwrites, hopen⟩ := State.idle_engine hi hid
    have hv : s.frame (s.unitResetBegun u) [.power] [RST.RST_UNIT_RUNNING] := (State.frame.rfl'.power _ (by simp)).put _ (by simp)
    have hstop := State.stopUnit_idle (s := s.unitResetBegun u) hi
      (by rw [State.engine, show State.engines _ = s.engines from hv.1 .engines (by simp)]; exact hwork)
      (by rw [show State.queues _ = s.queues from hv.1 .queues (by simp)]; exact hopen)
    obtain ⟨hst, hw, hn, hfr⟩ := hstop
    refine ⟨_, execUnitReset_idle hb hk hd ha hid hh, hst, ?_, ?_, hw, hn⟩
    · rw [hfr.get _ (by decide) fun g hg => ?_, State.unitResetBegun, State.get_put_same _ _ (by decide)]
      · rfl
      · obtain rfl | hg := List.mem_cons.1 hg
        · exact Fld.apart_comm (engState_apart_of (engineOf_lt hi) (.inl (by decide)))
        · exact (by decide : ∀ g ∈ faultFields, RST.RST_UNIT_RUNNING.apart g) g hg
    · rw [show State.power _ = _ from hfr.1 .power (by simp), State.unitResetBegun, State.put_power, State.withPower_power]
  case refused =>
    intro s u d hb hk hd ha hu
    refine ⟨_, execUnitReset_refused hb hk hd ha, ?_, ?_, ((State.frame.rfl'.power _ (by simp)).put _ (by simp)).put _ (by simp)⟩
    · rw [State.get_put_apart _ _ (by decide) (by decide), State.get_put_same _ _ (by decide)]
      rfl
    · rw [State.get_put_same _ _ (by decide)]
      exact Nat.mod_eq_of_lt hu
  case unitDone =>
    intro s u i d busy hu hi hf
    have hlt := engineOf_lt hi
    have hult := engineOf_unit_lt hi
    obtain ⟨hshown, hp, hfault, hr, hdone, hun, hbusy⟩ := s.unitResetShown_spec (u := u) (by omega) busy
    obtain ⟨hfr, hst, hstore⟩ := (s.unitResetShown u busy).engineReset_spec hi
    have htop := ((s.unitResetShown u busy).engineReset u i).frame_topSpares
    have hlow := fun f => State.engineReset_topSpares_low (s := s.unitResetShown u busy) hi (f := f)
    refine ⟨_, execUnitResetDone_engine hu hi hf, ?_, ?_, ?_, ?_, fun e => ?_, ?_, ?_, ?_⟩
    · rw [show State.power _ = _ from htop.1 .power (by simp), show State.power _ = _ from hfr.1 .power (by simp), hp]
    · rw [hlow _ (by decide) (by decide) (by decide), hr]
    · rw [hlow _ (by decide) (by decide) (by decide), hdone]
    · rw [hlow _ (by decide) (by decide) (by decide), hun]
    · rw [hlow _ (by decide) (by decide) (by decide), hbusy e]
    · have hm : RGS.FAULT_MAP 0 = 0x60080 := rfl
      exact (State.bitOn_congr (hlow (bitFld (RGS.FAULT_MAP 0) u) (show RGS.FAULT_MAP 0 + 4 * (u / 32) < _ by omega)
        (show RGS.FAULT_MAP 0 + 4 * (u / 32) ≠ 0x60058 by omega) (bitFld_le _ _))).trans hfault
    · rw [State.engine, show State.engines _ = _ from htop.1 .engines (by simp)]
      refine hstore.trans ?_
      rw [State.copyOf, State.copyOf, show State.copyCar _ = _ from hshown.1 .copyCar (by simp), show State.copyScb _ = _ from hshown.1 .copyScb (by simp)]
    · rw [htop.get _ (engState_le i) (engState_apart_spareFields hlt), hst, State.powered_engine hi, State.powered_engine hi,
        State.bitOn_of_frame hshown fun g hg => pdStat_apart (by omega) ?_]
      obtain rfl | hg := List.mem_cons.1 hg
      · exact .inr (Nat.le_trans (by decide) (Nat.le_add_right (RGS.FAULT_MAP 0) _))
      · exact .inl ((by decide : ∀ g ∈ rstUnitFields, g.off < PWR.PD_STAT0) g hg)
  case byHost =>
    intro s k v
    refine ⟨s, ?_, rfl⟩
    show execPdReqWrite true k v s = _
    rw [execPdReqWrite, if_pos (.inl rfl)]
  case domainOn =>
    intro s k i v hk hi hh hj hv hb hd hho hr
    refine ⟨s.putBit PWR.PD_REQ0 (32 * k + i) true, execPdReqWrite_single hk hi hh hj ?_ ?_ fun j hjl => ?_, State.bitOn_putBit_same _ _ _, ?_⟩
    · rw [hv, State.requestDomain_on hd hb hho hr]
    · rw [State.putBit_power, hh]
    · by_cases hne : j = i
      · rw [hne, hv, State.bitOn_putBit_same]
      · rw [hj j hjl hne]
        exact State.bitOn_congr (State.get_put_apart _ _ (bitFld_le _ _) (bitFld_apart _ (by omega)))
    · refine State.frame.rfl'.putBit _ _ _ ?_
      rw [List.mem_singleton]
      congr 1 <;> omega
  case domainOff =>
    intro s k i v hk hi hh hj hv hb hd hho he hs hid
    have hput : s.frame (s.putBit PWR.PD_REQ0 (32 * k + i) false) [] [bitFld PWR.PD_REQ0 (32 * k + i)] := State.frame.rfl'.putBit _ _ _ (by simp [bitFld])
    obtain ⟨hbit, hst, heng, hfr⟩ := (s.putBit PWR.PD_REQ0 (32 * k + i) false).domainOff_engine hd (by rw [State.engineEnabled_congr (State.putBit_big ..), he])
    have hreq : ∀ j, j < 32 → ((s.putBit PWR.PD_REQ0 (32 * k + i) false).domainOff (32 * k + i)).bitOn PWR.PD_REQ0 (32 * k + j) = bitAt v j := fun j hjl => by
      rw [State.bitOn_of_frame hfr fun g hg => pdReq_apart (by omega) (.inr ?_)]
      · by_cases hne : j = i
        · rw [hne, hv, State.bitOn_putBit_same]
        · rw [hj j hjl hne]
          exact State.bitOn_congr (State.get_put_apart _ _ (bitFld_le _ _) (bitFld_apart _ (by omega)))
      · obtain rfl | hg := List.mem_cons.1 hg
        · exact Nat.le_trans (by decide) (engReg_ge _ _)
        · exact (domainFields_low (by omega) g hg).1
    refine ⟨_, execPdReqWrite_single hk hi hh hj ?_ ?_ hreq, (hreq i hi).trans hv, hbit, hst, fun e hne => ?_⟩
    · rw [hv, State.requestDomain_off hd hb hho hs hid]
    · rw [show State.power _ = _ from hfr.1 .power (by simp), State.putBit_power, hh]
    · rw [heng e hne, State.engine, State.putBit_engines]
      rfl
  case onDone =>
    intro s d hd ha hlt hf
    obtain ⟨-, hoff⟩ := State.mem_ramping hd
    obtain ⟨hfr, hbit, hst, hstore, hcount, heng⟩ := s.engineUp_spec hlt
    have htop := (s.engineUp d).frame_topSpares
    have hengs : ∀ e, (s.engineUp d).topSpares.engine e = (s.engineUp d).engine e := fun e => by
      rw [State.engine, show State.engines _ = _ from htop.1 .engines (by simp)]
      rfl
    refine ⟨(s.engineUp d).topSpares, ?_, ?_, ?_, ?_, ?_, fun e hne => ?_, fun hplain k => ?_, ?_⟩
    · show Host.Outcome.next (if s.ramping.contains d && s.pwState == pwActive then s.domainUp d else s) = _
      rw [if_pos (by simp [hd, ha]), State.domainUp_engine hlt hf]
    · rw [State.bitOn_of_frame htop (spareFields_apart (Nat.ne_of_lt ?_) fun k hk => pdStat_apart_engReg (by omega) _ _ _ _), hbit]
      have : PWR.PD_STAT0 = 0x40030 := rfl
      show PWR.PD_STAT0 + 4 * (d / 32) < 0x60058
      omega
    · rw [htop.get _ (engState_le d) (engState_apart_spareFields hlt), hst]
    · rw [hengs, hstore]
    · rw [htop.get _ (by decide) (spareFields_apart (by decide) fun k hk => Fld.apart_comm (engSpare_apart_low (by decide))), hcount hoff]
    · rw [hengs, heng e hne]
    · rw [State.topSpares_of_plain, hfr.get _ (engSpare_le k) fun g hg => ?_]
      · obtain rfl | hg := List.mem_cons.1 hg
        · exact Fld.apart_comm (engState_apart_engSpare _ _)
        · exact engSpare_apart_low (Nat.lt_trans (domainFields_low (by omega) g hg).2 (by decide))
      · rw [State.openStreams, show State.streams _ = _ from hfr.1 .streams (by simp)]
        exact hplain
    · refine (hfr.mono (by simp) fun f h => ?_).trans (htop.mono (by simp) fun f h => List.mem_append_right _ h)
      obtain rfl | h := List.mem_cons.1 h
      · exact List.mem_append_left _ (by simp)
      · obtain rfl | rfl := List.mem_pair.1 h
        · exact List.mem_append_left _ (by simp [bitFld])
        · exact List.mem_append_left _ (by simp)

end

/-! ### The epoch that a reset overtakes -/

namespace Sys2Proof.Tests
set_option Elab.async false

open Sys2Proof Sys2Proof.Machine

/-- A developed stream whose LUT lies in a page that the protection map closes to the host interface. -/
def closedLut : Stream :=
  { rawHost 0 with
    kind := 4, rp := 5, state := .opened,
    secs := { (rawHost 0).secs with proof := some (readProofing (List.replicate 61 0#8 ++ [0x70#8] ++ List.replicate 14 0#8) [] []) } }

/-- An epoch is being taken, a DRAM channel has not acknowledged it, and an earlier C3 message of the MMU waits to be acknowledged. -/
def overtaken : State :=
  let s := ((st [(DRC.DRC_CFG_USABLE_MIB, 8192), (.whole (MMU.PMAP 7), 0)]).setStream 3 closedLut).setCatUnit 0x100 { CatUnit.init with waiting := true }
  { s with
    ticks := 250000, cat := { s.cat with taking := some (9, 0) }, mmu := { Mmu.init with tlb := [(0, 7, 12, 0x5700D)] },
    rgs := { Registrar.init with unack := [{ unit := 0x180, cls := 3, escalates := true }] } }

/-- The read of the LUT is denied, its report is raised to C4, and the reset that C4 takes empties the log. -/
theorem overtaken_log : (match exec (.epochAckTimeout [0x100]) overtaken with | .next t => t.rgs.log.isEmpty | _ => false) = true := by decide +kernel

end Sys2Proof.Tests

section
set_option Elab.async false
open Sys2Proof Sys2Proof.Machine

/-- Refutes O43, its last part: the read of a LUT for the epoch may be denied, and where the MMU's earlier C3 message waits to be acknowledged the denial is
raised to C4 (R441), whose reset empties the log that holds the unit's message 0x49. -/
theorem not_epochsBeginAndAreTaken : ¬ Obligations.EpochsBeginAndAreTaken := by
  unfold Obligations.EpochsBeginAndAreTaken
  rintro ⟨-, -, -, -, -, -, htimeout⟩
  obtain ⟨t, ht, ⟨⟨m, hm, -⟩, -⟩, -⟩ := htimeout Tests.overtaken 9 0 0x100 (by decide +kernel) (by decide +kernel) (by decide +kernel) (by decide +kernel)
    (by decide +kernel) (by decide +kernel) (by decide +kernel) (by decide)
  have hlog := Tests.overtaken_log
  rw [ht] at hlog
  rw [List.isEmpty_iff.1 hlog] at hm
  exact List.not_mem_nil hm

end

/-! ### The loss of work that a reset overtakes -/

namespace Sys2Proof.Tests
set_option Elab.async false

open Sys2Proof Sys2Proof.Machine

/-- A scribe at work on an Open stream's leaf, an earlier C3 message of which waits to be acknowledged. -/
def lastStraw : State := { runSt 70 pic1 kv 0 with rgs := { Registrar.init with unack := [{ unit := 0x82, cls := 3, escalates := true }] } }

/-- The work lost with the fence is reported, the report is raised to C4, and the reset that C4 takes empties the log. -/
theorem lastStraw_log : (match exec (.chunkCommit 70 { cmt with signOk := false }) lastStraw with | .next t => t.rgs.log.isEmpty | _ => false) = true := by
  decide +kernel

end Sys2Proof.Tests

section
set_option Elab.async false
open Sys2Proof Sys2Proof.Machine

/-- Refutes O55, its third part: the fence of an engine that works for an Open stream loses that work (R455), and where an earlier C3 message of the engine
waits to be acknowledged the report of the loss is raised to C4 (R441), whose reset empties the log that holds the engine's message 0x04. -/
theorem not_chunksAreCheckedAndCommitted : ¬ Obligations.ChunksAreCheckedAndCommitted := by
  unfold Obligations.ChunksAreCheckedAndCommitted
  rintro ⟨-, -, hsign, -⟩
  obtain ⟨t, ht, ⟨⟨m, hm, -⟩, -⟩, -⟩ := hsign Tests.lastStraw 70 3 1 1 0 { Tests.cmt with signOk := false }
    { Tests.pic1 with units := [(1, { UnitRec.init with runs := [(0x82, 4)] })] } (by decide +kernel) (by decide +kernel) (by decide +kernel) (by decide +kernel)
    (by decide +kernel) (by decide +kernel) (by decide +kernel) (by decide +kernel) (by decide +kernel) (by decide +kernel)
  have hlog := Tests.lastStraw_log
  rw [ht] at hlog
  rw [List.isEmpty_iff.1 hlog] at hm
  exact List.not_mem_nil hm

end

/-! ### Runs of a unit of work as they are placed (R24, R28, R451) -/

namespace Sys2Proof.Machine
set_option Elab.async false

variable {s t : State} {ps : List Part} {fs : List Fld}

/-! A picture of a stream. -/

theorem Stream.pic_num {x : Stream} {num : Nat} {p : Pic} (h : x.pic num = some p) : p.num = num := by
  have := List.find?_some h
  simpa using this

/-- The pictures of a list, one of them replaced. -/
theorem find_pic_map {q : Pic} {num : Nat} (hq : q.num = num) {l : List Pic} {p : Pic} (h : l.find? (·.num == num) = some p) :
    (l.map fun y => if y.num = q.num then q else y).find? (·.num == num) = some q := by
  induction l with
  | nil => cases h
  | cons y l ih =>
    rw [List.map_cons]
    by_cases hy : y.num = num
    · rw [if_pos (hy.trans hq.symm)]
      exact List.find?_cons_of_pos (by simp [hq])
    · rw [if_neg (fun e => hy (e.trans hq)), List.find?_cons_of_neg (by simpa using hy)]
      rw [List.find?_cons_of_neg (by simpa using hy)] at h
      exact ih h

theorem Stream.pic_setPic {x : Stream} {num : Nat} {p q : Pic} (h : x.pic num = some p) (hq : q.num = num) : (x.setPic q).pic num = some q :=
  find_pic_map hq h

theorem State.onPic_of {n num : Nat} {p : Pic} (h : (s.stream n).pic num = some p) (f : Pic → Pic) :
    s.onPic n num f = s.setStream n ((s.stream n).setPic (f p)) := by
  rw [State.onPic, h]

/-! Fields of engines. -/

/-- The fields that a placement writes. -/
def engFields (i : Nat) : List Fld := [engState i, engEpoch i, engProg i]

theorem engFields_le {i : Nat} : ∀ f ∈ engFields i, f.lo + f.w ≤ 32 := by
  intro f hf
  obtain rfl | rfl | rfl : f = engState i ∨ f = engEpoch i ∨ f = engProg i := by simpa [engFields] using hf
  · exact engState_le i
  · show 16 + 16 ≤ 32
    omega
  · show 0 + 16 ≤ 32
    omega

theorem engFields_apart {i k : Nat} (h : i ≠ k) : ∀ f ∈ engFields i, ∀ g ∈ engFields k, f.apart g := by
  have hoff : ∀ i, ∀ f ∈ engFields i, ∃ r < 16, f.off = engReg i r := fun i f hf => by
    obtain rfl | rfl | rfl : f = engState i ∨ f = engEpoch i ∨ f = engProg i := by simpa [engFields] using hf
    · exact ⟨4, by decide, rfl⟩
    · exact ⟨4, by decide, rfl⟩
    · exact ⟨8, by decide, rfl⟩
  intro f hf g hg
  obtain ⟨r, hr, hfr⟩ := hoff i f hf
  obtain ⟨q, hq, hgq⟩ := hoff k g hg
  exact .inl (by rw [hfr, hgq]; exact engReg_ne h hr hq)

theorem engProg_apart_engState (i : Nat) : (engState i).apart (engProg i) := .inl (by show engReg i 4 ≠ engReg i 8; unfold engReg; split <;> omega)
theorem engProg_apart_engEpoch (i : Nat) : (engEpoch i).apart (engProg i) := .inl (by show engReg i 4 ≠ engReg i 8; unfold engReg; split <;> omega)
theorem engEpoch_apart_engState (i : Nat) : (engState i).apart (engEpoch i) := .inr (.inl (by show 0 + 3 ≤ 16; omega))

/-! One placement. -/

/-- A picture that differs from another in its units of work and in the search results alone. -/
def Pic.alike (p q : Pic) : Prop := q = { p with units := q.units, vectors := q.vectors }

theorem Pic.alike_refl (p : Pic) : p.alike p := rfl
theorem Pic.alike_trans {p q r : Pic} (h : p.alike q) (g : q.alike r) : p.alike r := by
  unfold Pic.alike at *
  rw [h] at g
  exact g

/-- A picture one unit of which runs on one more engine. -/
def Pic.running (p : Pic) (x : Stream) (j i e : Nat) : Pic :=
  (p.setUnit j { p.unit j with runs := (p.unit j).runs ++ [(unitOfEngine i, e)] }).dropSearch x j

theorem Pic.running_alike (p : Pic) (x : Stream) (j i e : Nat) : p.alike (p.running x j i e) := rfl
theorem Pic.running_unit (p : Pic) (x : Stream) (j i e : Nat) :
    (p.running x j i e).unit j = { p.unit j with runs := (p.unit j).runs ++ [(unitOfEngine i, e)] } := Tab.get_set_same ..

/-- What placements of a unit of work, each an engine, a run and a placement epoch, have left of a state. -/
structure State.Placed (s t : State) (n num j : Nat) (p : Pic) (l : List (Nat × Nat × Nat)) : Prop where
  frame : s.frame t [.engines, .streams] (l.flatMap fun e => engFields e.1)
  runs : ∀ e ∈ l, (t.engine e.1).work = some (n, num, j, e.2.1) ∧ t.get (engState e.1) = stRunning ∧ t.get (engEpoch e.1) = e.2.2 % 65536 ∧
    t.get (engProg e.1) = 0
  others : ∀ i, i ∉ l.map (·.1) → t.engine i = s.engine i
  streams : ∀ m, m ≠ n → t.stream m = s.stream m
  plans : (t.stream n).plans = (s.stream n).plans ∧ (t.stream n).lastPlan = (s.stream n).lastPlan
  pic : ∃ q, (t.stream n).pic num = some q ∧ p.alike q ∧ (q.unit j).runs.length = (p.unit j).runs.length + l.length

variable {n num j : Nat} {p : Pic} {l : List (Nat × Nat × Nat)}

theorem State.Placed.refl (h : (s.stream n).pic num = some p) : s.Placed s n num j p [] where
  frame := State.frame.rfl'
  runs := fun _ he => nomatch he
  others := fun _ _ => rfl
  streams := fun _ _ => rfl
  plans := ⟨rfl, rfl⟩
  pic := ⟨p, h, p.alike_refl, rfl⟩

/-- The count of a stream's placement epochs goes on. -/
theorem State.Placed.count (h : s.Placed t n num j p l) (e : Nat) : s.Placed (t.setStream n { t.stream n with place := e }) n num j p l := by
  obtain ⟨hframe, hruns, hothers, hstreams, hplans, hpic⟩ := h
  refine ⟨hframe.setStream _ _ (by simp), fun e he => ?_, fun i hi => (hothers i hi), fun m hm => ?_, ?_, ?_⟩
  · rw [State.get_setStream, State.get_setStream, State.get_setStream]
    exact hruns e he
  · rw [State.stream_setStream_ne _ _ hm]
    exact hstreams m hm
  · rw [State.stream_setStream]
    exact hplans
  · rw [State.stream_setStream]
    exact hpic

/-- An engine that starts on a run of a unit of work. -/
def State.startEngine (s : State) (i : Nat) (w : Nat × Nat × Nat × Nat) (e : Nat) : State :=
  (((s.setEngine i { s.engine i with work := some w, staging := [], wait := 0, offer := none }).put (engState i) stRunning).put (engEpoch i) e).put (engProg i) 0

theorem State.startEngine_spec (s : State) (i : Nat) (w : Nat × Nat × Nat × Nat) (e : Nat) : s.frame (s.startEngine i w e) [.engines] (engFields i) ∧
    ((s.startEngine i w e).engine i).work = some w ∧ (∀ m, m ≠ i → (s.startEngine i w e).engine m = s.engine m) ∧
    (s.startEngine i w e).get (engState i) = stRunning ∧ (s.startEngine i w e).get (engEpoch i) = e % 65536 ∧ (s.startEngine i w e).get (engProg i) = 0 := by
  unfold State.startEngine
  refine ⟨(((State.frame.rfl'.setEngine _ _ (by simp)).put _ (by simp [engFields])).put _ (by simp [engFields])).put _ (by simp [engFields]), ?_, fun m hm => ?_,
    ?_, ?_, ?_⟩
  · rw [State.engine_put, State.engine_put, State.engine_put, State.engine_setEngine]
  · rw [State.engine_put, State.engine_put, State.engine_put, State.engine_setEngine_ne _ _ hm]
  · rw [State.get_put_apart _ _ (engState_le i) (engProg_apart_engState i), State.get_put_apart _ _ (engState_le i) (engEpoch_apart_engState i),
      State.get_put_same _ _ (engState_le i)]
    rfl
  · have hle : (engEpoch i).lo + (engEpoch i).w ≤ 32 := Nat.le_refl 32
    rw [State.get_put_apart _ _ hle (engProg_apart_engEpoch i), State.get_put_same _ _ hle]
    rfl
  · rw [State.get_put_same _ _ (by show 0 + 16 ≤ 32; omega)]
    rfl

theorem State.placeAt_eq {i run e : Nat} (h : (s.stream n).pic num = some p) : s.placeAt n num j run i 0 e =
    (s.setStream n ((s.stream n).setPic (p.running (s.stream n) j i e))).startEngine i (n, num, j, run) e := by
  rw [State.placeAt, State.onPic_of h]
  rfl

theorem State.Placed.placeAt (h : s.Placed t n num j p l) {i : Nat} (hi : i ∉ l.map (·.1)) (run e : Nat) :
    s.Placed (t.placeAt n num j run i 0 e) n num j p (l ++ [(i, run, e)]) ∧ ((t.placeAt n num j run i 0 e).stream n).place = (t.stream n).place := by
  obtain ⟨hframe, hruns, hothers, hstreams, hplans, q, hq, halike, hlen⟩ := h
  rw [State.placeAt_eq hq]
  obtain ⟨hfr, hwork, hengs, hst, hep, hpr⟩ :=
    (t.setStream n ((t.stream n).setPic (q.running (t.stream n) j i e))).startEngine_spec i (n, num, j, run) e
  generalize hv : (t.setStream n ((t.stream n).setPic (q.running (t.stream n) j i e))).startEngine i (n, num, j, run) e = v at *
  have hstr : ∀ m, v.stream m = (t.setStream n ((t.stream n).setPic (q.running (t.stream n) j i e))).stream m := fun m => by
    rw [State.stream, State.stream, show v.streams = _ from hfr.1 .streams (by simp)]
  have hn : v.stream n = (t.stream n).setPic (q.running (t.stream n) j i e) := by rw [hstr, State.stream_setStream]
  refine ⟨⟨?_, fun f hf => ?_, fun m hm => ?_, fun m hm => ?_, ?_, q.running (t.stream n) j i e, ?_, ?_, ?_⟩, ?_⟩
  · have hfields : ∀ f ∈ engFields i, f ∈ (l ++ [(i, run, e)]).flatMap fun e => engFields e.1 := fun f hf => by simp [hf]
    refine ((hframe.setStream _ _ (by simp)).mono (fun _ h => h) fun f hf => ?_).trans (hfr.mono (by simp) hfields)
    rw [List.flatMap_append]
    exact List.mem_append_left _ hf
  · obtain hf | hf := List.mem_append.1 hf
    · have hne : f.1 ≠ i := fun e => hi (e ▸ List.mem_map_of_mem hf)
      have hget : ∀ g ∈ engFields f.1, v.get g = t.get g := fun g hg => by
        rw [hfr.get g (engFields_le g hg) (engFields_apart hne g hg), State.get_setStream]
      rw [hengs _ hne, hget _ (by simp [engFields]), hget _ (by simp [engFields]), hget _ (by simp [engFields])]
      exact hruns f hf
    · obtain rfl := List.mem_singleton.1 hf
      exact ⟨hwork, hst, hep, hpr⟩
  · rw [List.map_append, List.mem_append, not_or] at hm
    obtain ⟨hl, hne⟩ := hm
    rw [hengs m (by simpa using hne)]
    exact hothers m hl
  · rw [hstr, State.stream_setStream_ne _ _ hm]
    exact hstreams m hm
  · rw [hn]
    exact hplans
  · rw [hn]
    exact Stream.pic_setPic hq (show (q.running (t.stream n) j i e).num = num from (Stream.pic_num hq : q.num = num))
  · exact Pic.alike_trans halike (q.running_alike _ _ _ _)
  · rw [q.running_unit, List.length_append, List.length_append, hlen]
    rfl
  · rw [hn]
    rfl

/-- A run of a unit of work on a carrel, and on a scribe where there is one. -/
def State.placeRun (s : State) (n num j run i : Nat) (o : Option Nat) : State :=
  match o with
  | some b => (s.place n num j run i 0).placeAt n num j run b 0 ((s.place n num j run i 0).stream n).place
  | none => s.place n num j run i 0

theorem State.Placed.placeRun (h : s.Placed t n num j p l) {i e : Nat} {o : Option Nat} (hi : i ∉ l.map (·.1)) (ho : ∀ b, o = some b → b ≠ i ∧ b ∉ l.map (·.1))
    (he : e = ((t.stream n).place + 1) % 65536) (run : Nat) :
    s.Placed (t.placeRun n num j run i o) n num j p (l ++ [(i, run, e)] ++ o.toList.map fun b => (b, run, e)) ∧
    ((t.placeRun n num j run i o).stream n).place = e := by
  obtain ⟨hp, hpl⟩ := (h.count e).placeAt hi run e
  have heq : t.place n num j run i 0 = (t.setStream n { t.stream n with place := e }).placeAt n num j run i 0 e := by rw [State.place, State.nextPlace, ← he]
  rw [← heq] at hp hpl
  have hcount : ((t.place n num j run i 0).stream n).place = e := by rw [hpl, State.stream_setStream]
  cases o with
  | none => exact ⟨by simpa [State.placeRun] using hp, hcount⟩
  | some b =>
    obtain ⟨hne, hb⟩ := ho b rfl
    have hp2 := hp.placeAt (i := b) (by simp [hne, hb]) run e
    unfold State.placeRun
    dsimp only
    rw [hcount]
    exact ⟨by simpa using hp2.1, hp2.2.trans hcount⟩

/-- The lists of engines that a dispatch may name: one run or two, all engines different, each run with a scribe or none with one. -/
def dispatchShape (cars scrs : List Nat) : Prop :=
  (cars ++ scrs).Nodup ∧ ((∃ a, cars = [a]) ∨ ∃ a c, cars = [a, c]) ∧ (scrs = [] ∨ scrs.length = cars.length)

theorem nodup_of_eraseDups {l : List Nat} {k : Nat} (hk : k = 1 ∨ k = 2) (hl : l.length = k) (hd : l.eraseDups.length = k) : l.Nodup := by
  obtain rfl | rfl := hk
  · obtain ⟨a, rfl⟩ := List.length_eq_one_iff.1 hl
    exact List.nodup_singleton a
  · obtain ⟨a, b, rfl⟩ := List.length_eq_two.1 hl
    rw [List.nodup_cons, List.mem_singleton]
    refine ⟨fun e => ?_, List.nodup_singleton b⟩
    subst e
    simp [List.eraseDups_cons] at hd

theorem dispatchShape_of_fit {x : Stream} {cars scrs : List Nat} (h : s.enginesFit x cars scrs = true) : dispatchShape cars scrs := by
  have hk : protFactor x.prot = 1 ∨ protFactor x.prot = 2 := by
    unfold protFactor
    split
    · exact .inr rfl
    · exact .inl rfl
  unfold State.enginesFit at h
  simp only [Bool.and_eq_true, beq_iff_eq, List.all_eq_true] at h
  generalize protFactor x.prot = k at h hk
  obtain ⟨⟨⟨hcl, hcd⟩, hcar⟩, ⟨hsl, hsd⟩, hscr⟩ := h
  refine ⟨List.nodup_append.2 ⟨nodup_of_eraseDups hk hcl hcd, ?_, fun a ha b hb e => ?_⟩, ?_, ?_⟩
  · split at hsl
    · rw [List.length_eq_zero_iff.1 hsl]
      exact List.nodup_nil
    · rename_i hx
      rw [if_neg hx] at hsd
      exact nodup_of_eraseDups hk hsl hsd
  · have h1 := (hcar a ha).1.1
    have h2 := (hscr b hb).1.1
    rw [e, h2] at h1
    cases h1
  · obtain rfl | rfl := hk
    · exact .inl (List.length_eq_one_iff.1 hcl)
    · exact .inr (List.length_eq_two.1 hcl)
  · split at hsl
    · exact .inl (List.length_eq_zero_iff.1 hsl)
    · exact .inr (hsl.trans hcl.symm)

/-- The placements that a dispatch asks for, the stream's count of epochs being e. -/
def placements (cars scrs : List Nat) (e : Nat) : List (Nat × Nat × Nat) :=
  cars.zipIdx.flatMap fun c => (c.1, c.2, (e + c.2 + 1) % 65536) :: (scrs[c.2]?).toList.map fun b => (b, c.2, (e + c.2 + 1) % 65536)

/-- The runs of a dispatch are placed as it names the engines. -/
theorem State.placeRuns_placed {cars scrs : List Nat} (hs : dispatchShape cars scrs) (hp : (s.stream n).pic num = some p) :
    s.Placed (s.placeRuns n num j cars scrs 0) n num j p (placements cars scrs (s.stream n).place) := by
  obtain ⟨hnd, hcars, -⟩ := hs
  have hmem : ∀ {k b : Nat}, scrs[k]? = some b → ∀ a ∈ cars, b ≠ a := fun {k b} hb a ha e =>
    (List.nodup_append.1 hnd).2.2 a ha b (List.mem_of_getElem? hb) e.symm
  obtain ⟨a, rfl⟩ | ⟨a, c, rfl⟩ := hcars
  · have ho : ∀ b, scrs[0]? = some b → b ≠ a ∧ b ∉ [] := fun b hb => ⟨hmem hb a (by simp), by simp⟩
    obtain ⟨hl, -⟩ := (State.Placed.refl hp (j := j)).placeRun (i := a) (o := scrs[0]?) (by simp) ho rfl 0
    have heq : s.placeRuns n num j [a] scrs 0 = s.placeRun n num j 0 a scrs[0]? := by
      cases h : scrs[0]? <;> simp [State.placeRuns, State.placeRun, h]
    rw [heq]
    simpa [placements] using hl
  · have hac : a ≠ c := fun e => by simp [e] at hnd
    have ho : ∀ b, scrs[0]? = some b → b ≠ a ∧ b ∉ [] := fun b hb => ⟨hmem hb a (by simp), by simp⟩
    obtain ⟨hl, hcount⟩ := (State.Placed.refl hp (j := j)).placeRun (i := a) (o := scrs[0]?) (by simp) ho rfl 0
    have hc : c ∉ ([] ++ [(a, 0, ((s.stream n).place + 1) % 65536)] ++ scrs[0]?.toList.map fun b => (b, 0, ((s.stream n).place + 1) % 65536)).map fun e : Nat × Nat × Nat => e.1 := by
      have h0 : ∀ b, scrs[0]? = some b → c ≠ b := fun b hb e => hmem hb c (by simp) e.symm
      cases h : scrs[0]? with
      | none => simpa using hac.symm
      | some b => simpa using ⟨hac.symm, h0 b h⟩
    have hd : ∀ b, scrs[1]? = some b → b ≠ c ∧
        b ∉ ([] ++ [(a, 0, ((s.stream n).place + 1) % 65536)] ++ scrs[0]?.toList.map fun b => (b, 0, ((s.stream n).place + 1) % 65536)).map fun e : Nat × Nat × Nat => e.1 := fun b hb => by
      refine ⟨hmem hb c (by simp), ?_⟩
      have ha := hmem hb a (by simp)
      cases h : scrs[0]? with
      | none => simpa using ha
      | some d =>
        have hlen := (List.getElem?_eq_some_iff.1 h).1
        have hne : b ≠ d := fun e =>
          absurd ((List.getElem?_inj (j := 1) hlen (List.nodup_append.1 hnd).2.1).1 ((h.trans (congrArg some e.symm)).trans hb.symm)) (by decide)
        simpa using ⟨ha, hne⟩
    obtain ⟨hl2, -⟩ := hl.placeRun (i := c) (o := scrs[1]?) hc hd (by rw [hcount]) 1
    have heq : s.placeRuns n num j [a, c] scrs 0 = (s.placeRun n num j 0 a scrs[0]?).placeRun n num j 1 c scrs[1]? := by
      cases h : scrs[0]? <;> cases h1 : scrs[1]? <;> simp [State.placeRuns, State.placeRun, h, h1]
    rw [heq]
    have hcnt : (((s.stream n).place + 1) % 65536 + 1) % 65536 = ((s.stream n).place + 1 + 1) % 65536 := by omega
    simpa [placements, hcnt] using hl2

/-- Each engine named is placed for the run of its place in its list. -/
theorem mem_placements {cars scrs : List Nat} (hs : dispatchShape cars scrs) {e k i : Nat} :
    (cars[k]? = some i → (i, k, (e + k + 1) % 65536) ∈ placements cars scrs e) ∧ (scrs[k]? = some i → (i, k, (e + k + 1) % 65536) ∈ placements cars scrs e) := by
  obtain ⟨-, -, hlen⟩ := hs
  refine ⟨fun h => ?_, fun h => ?_⟩
  · exact List.mem_flatMap.2 ⟨(i, k), List.mk_mem_zipIdx_iff_getElem?.2 h, List.mem_cons_self ..⟩
  · obtain rfl | hlen := hlen
    · cases h
    · have hk : k < cars.length := hlen ▸ (List.getElem?_eq_some_iff.1 h).1
      refine List.mem_flatMap.2 ⟨(cars[k], k), List.mk_mem_zipIdx_iff_getElem?.2 (List.getElem?_eq_getElem hk), List.mem_cons_of_mem _ ?_⟩
      dsimp only
      rw [h]
      exact List.mem_singleton_self _

theorem placements_engines {cars scrs : List Nat} {e : Nat} : ∀ q ∈ placements cars scrs e, q.1 ∈ cars ++ scrs := by
  intro q hq
  obtain ⟨⟨a, k⟩, hc, hq⟩ := List.mem_flatMap.1 hq
  obtain rfl | hq := List.mem_cons.1 hq
  · exact List.mem_append_left _ (List.mem_of_getElem? (List.mk_mem_zipIdx_iff_getElem?.1 hc))
  · obtain ⟨b, hb, rfl⟩ := List.mem_map.1 hq
    exact List.mem_append_right _ (List.mem_of_getElem? (Option.mem_toList.1 hb))

theorem placements_length {cars scrs : List Nat} (hs : dispatchShape cars scrs) {e : Nat} : (placements cars scrs e).length = cars.length + scrs.length := by
  obtain ⟨-, ⟨a, rfl⟩ | ⟨a, c, rfl⟩, rfl | hlen⟩ := hs
  · rfl
  · obtain ⟨b, rfl⟩ := List.length_eq_one_iff.1 hlen
    rfl
  · rfl
  · obtain ⟨b, d, rfl⟩ := List.length_eq_two.1 hlen
    rfl

end Sys2Proof.Machine

/-! ### Dispatch, and what a picture's first one fixes (R24, R25, R168, R169) -/

namespace Sys2Proof.Machine
set_option Elab.async false

variable {s t : State} {n num j : Nat} {p q : Pic}

/-- The plan that a picture of a rated stream is given, as its stream stands. -/
structure Stream.Planned (x y : Stream) (p q : Pic) : Prop where
  posted : ∀ r, x.plans.find? (fun z => z.pic == p.num) = some r →
    q.plan = some (x.govern r) ∧ q.planStale = p.planStale ∧ q.planFallback = p.planFallback
  again : x.plans.find? (fun z => z.pic == p.num) = none → ∀ r, x.lastPlan = some r → q.plan = some (x.govern { r with pic := p.num }) ∧ q.planStale = true
  fallback : x.plans.find? (fun z => z.pic == p.num) = none → x.lastPlan = none → q.planFallback = true ∧ q.plan = y.lastPlan ∧
    (q.plan.map fun r => (r.target, r.reserve, r.quant)) =
      some (8 * x.targetBytes, 8 * x.targetBytes / 8, x.guardSamples.map fun _ => x.rateP.quantInit)
  left : y.plans = x.plans.filter fun z => z.pic != p.num

/-- A picture but for its plan. -/
def Pic.planless (p q : Pic) : Prop := q = { p with plan := q.plan, planStale := q.planStale, planFallback := q.planFallback }

/-- A state of the stream n of which only the plans have changed, to a stream y. -/
structure State.PlansSet (s t : State) (n : Nat) (y : Stream) : Prop where
  frame : s.frame t [.streams] []
  others : ∀ m, m ≠ n → t.stream m = s.stream m
  stream : t.stream n = y
  plans : ∃ l k, y = { s.stream n with plans := l, lastPlan := k }

theorem State.PlansSet.refl (s : State) (n : Nat) : s.PlansSet s n (s.stream n) := ⟨State.frame.rfl', fun _ _ => rfl, rfl, _, _, rfl⟩

theorem State.PlansSet.setStream {n : Nat} {y : Stream} (hy : ∃ l k, y = { s.stream n with plans := l, lastPlan := k }) : s.PlansSet (s.setStream n y) n y :=
  ⟨State.frame.rfl'.setStream _ _ (by simp), fun _ hm => State.stream_setStream_ne _ _ hm, State.stream_setStream .., hy⟩

/-- Taking a plan changes the stream's plans and the picture's plan. -/
theorem State.takePlan_spec (s : State) (n : Nat) (p : Pic) : ∃ t y q, s.takePlan n p = (t, q) ∧ s.PlansSet t n y ∧ p.planless q ∧
    ((s.stream n).rated = true → Stream.Planned (s.stream n) y p q) := by
  unfold State.takePlan
  extract_lets x
  split
  case isTrue hr => exact ⟨s, _, p, rfl, State.PlansSet.refl s n, rfl, fun h => absurd (hr.symm.trans h) (by decide)⟩
  case isFalse hr =>
    cases hf : x.plans.find? (·.pic == p.num) with
    | some r =>
      refine ⟨_, _, _, rfl, State.PlansSet.setStream ⟨_, _, rfl⟩, rfl, fun _ => ⟨fun r' h => ?_, fun h => ?_, fun h => ?_, rfl⟩⟩
      · obtain rfl := Option.some.inj (hf.symm.trans h)
        exact ⟨rfl, rfl, rfl⟩
      · exact nomatch hf.symm.trans h
      · exact nomatch hf.symm.trans h
    | none =>
      have hleft : x.plans = x.plans.filter fun z => z.pic != p.num := by
        refine (List.filter_eq_self.2 fun z hz => ?_).symm
        have := List.find?_eq_none.1 hf z hz
        simpa using this
      cases hl : x.lastPlan with
      | some r =>
        refine ⟨_, _, _, rfl, State.PlansSet.setStream ⟨_, _, rfl⟩, rfl, fun _ => ⟨fun r' h => ?_, fun _ r' h => ?_, fun _ h => ?_, hleft⟩⟩
        · exact nomatch hf.symm.trans h
        · obtain rfl := Option.some.inj (hl.symm.trans h)
          exact ⟨rfl, rfl⟩
        · exact nomatch hl.symm.trans h
      | none =>
        refine ⟨_, _, _, rfl, State.PlansSet.setStream ⟨_, _, rfl⟩, rfl, fun _ => ⟨fun r' h => ?_, fun _ r' h => ?_, fun _ _ => ⟨rfl, rfl, rfl⟩, hleft⟩⟩
        · exact nomatch hf.symm.trans h
        · exact nomatch hl.symm.trans h

/-- The picture as its first dispatch stamps it, before its plan. -/
def State.stamped (s : State) (n : Nat) (p : Pic) : Pic :=
  { (p.setStamp 3 s.now).fixed (s.stream n) with
    dispatched := true, epoch := s.get CAT.EPOCH_VALUE, digest := s.get CAT.DIGEST_HI_VALUE * 2 ^ 32 + s.get CAT.DIGEST_LO_VALUE }

/-- The first dispatch of a picture of a stream without statistics. -/
theorem State.firstDispatch_spec (hp : (s.stream n).pic num = some p) (h : (s.stream n).statsP.sections = 0) : ∃ q,
    s.frame (s.firstDispatch n p) [.streams] [] ∧ (∀ m, m ≠ n → (s.firstDispatch n p).stream m = s.stream m) ∧
    ((s.firstDispatch n p).stream n).pic num = some q ∧ ((s.firstDispatch n p).stream n).place = (s.stream n).place ∧
    (s.stamped n p).planless q ∧ ((s.stream n).rated = true → Stream.Planned (s.stream n) ((s.firstDispatch n p).stream n) p q) := by
  obtain ⟨t, y, q, ht, ⟨hframe, hothers, hstream, l, k, rfl⟩, hq, hplan⟩ := s.takePlan_spec n (s.stamped n p)
  have halloc : t.allocStats n q = (t, q) := by rw [State.allocStats, if_pos (by rw [hstream]; exact h)]
  have heq : s.firstDispatch n p = t.setStream n ((t.stream n).setPic q) := by
    show (let (s, p) := s.takePlan n (s.stamped n p); let (s, p) := s.allocStats n p; s.setStream n ((s.stream n).setPic p)) = _
    rw [ht]
    dsimp only
    rw [halloc]
  have hnum : q.num = num := by
    rw [hq]
    exact (Stream.pic_num hp : p.num = num)
  rw [heq, hstream]
  refine ⟨q, hframe.setStream _ _ (by simp), fun m hm => ?_, ?_, ?_, hq, fun hr => ?_⟩
  · rw [State.stream_setStream_ne _ _ hm, hothers m hm]
  · rw [State.stream_setStream]
    exact Stream.pic_setPic (p := p) hp hnum
  · rw [State.stream_setStream]
    rfl
  · rw [State.stream_setStream]
    obtain ⟨hposted, hagain, hfallback, hleft⟩ := hplan hr
    exact ⟨hposted, hagain, hfallback, hleft⟩

/-- A unit of work that may be dispatched runs nowhere. -/
theorem State.dispatchable_runs {early : Bool} (hp : (s.stream n).pic num = some p) (h : s.dispatchable n num j early = true) : (p.unit j).runs = [] := by
  rw [State.dispatchable, hp] at h
  simp only [Bool.and_eq_true, List.isEmpty_iff] at h
  tauto

theorem State.dispatch_eq {early : Bool} {cars scrs : List Nat} (hp : (s.stream n).pic num = some p) (hd : s.dispatchable n num j early = true)
    (hf : s.enginesFit (s.stream n) cars scrs = true) :
    s.dispatch n num j cars scrs early = (if p.dispatched then s else s.firstDispatch n p).placeRuns n num j cars scrs 0 := by
  rw [State.dispatch, hd, hf, Bool.and_true, if_pos rfl, hp]

theorem State.dispatch_none {early : Bool} {cars scrs : List Nat} (h : s.dispatchable n num j early = false ∨ s.enginesFit (s.stream n) cars scrs = false) :
    s.dispatch n num j cars scrs early = s := by
  rw [State.dispatch, if_neg]
  obtain h | h := h <;> simp [h]

end Sys2Proof.Machine

section
set_option Elab.async false
open Sys2Proof Sys2Proof.Machine

/-- What `State.Placed` says of a dispatch, in the words of O54. -/
theorem placements_dispatched {s t : State} {n num j : Nat} {p : Pic} {cars scrs : List Nat} (hs : dispatchShape cars scrs)
    (hr : (p.unit j).runs = []) (h : s.Placed t n num j p (placements cars scrs (s.stream n).place)) :
    (∀ k i, cars[k]? = some i → (t.engine i).work = some (n, num, j, k) ∧ t.get (engState i) = stRunning ∧
      t.get (engEpoch i) = ((s.stream n).place + k + 1) % 65536 ∧ t.get (engProg i) = 0) ∧
    (∀ k i, scrs[k]? = some i → (t.engine i).work = some (n, num, j, k) ∧ t.get (engState i) = stRunning ∧
      t.get (engEpoch i) = ((s.stream n).place + k + 1) % 65536 ∧ t.get (engProg i) = 0) ∧
    ((t.stream n).pic num).map (fun q => (q.unit j).runs.length) = some (cars.length + scrs.length) ∧
    (∀ i, cars.contains i = false → scrs.contains i = false → t.engine i = s.engine i) ∧ (∀ m, m ≠ n → t.stream m = s.stream m) ∧
    s.frame t [.engines, .streams] ((cars ++ scrs).flatMap fun i => [engState i, engEpoch i, engProg i]) := by
  obtain ⟨hframe, hruns, hothers, hstreams, hplans, q, hq, halike, hlen⟩ := h
  have hrun : ∀ {i k}, (i, k, ((s.stream n).place + k + 1) % 65536) ∈ placements cars scrs (s.stream n).place → (t.engine i).work = some (n, num, j, k) ∧
      t.get (engState i) = stRunning ∧ t.get (engEpoch i) = ((s.stream n).place + k + 1) % 65536 ∧ t.get (engProg i) = 0 := fun hm => by
    have := hruns _ hm
    rwa [Nat.mod_mod] at this
  refine ⟨fun k i h => hrun ((mem_placements hs).1 h), fun k i h => hrun ((mem_placements hs).2 h), ?_, fun i hc hd => hothers i fun hm => ?_, hstreams,
    hframe.mono (fun _ h => h) fun f hf => ?_⟩
  · rw [hq, Option.map_some, hlen, hr, placements_length hs, List.length_nil, Nat.zero_add]
  · obtain ⟨e, he, rfl⟩ := List.mem_map.1 hm
    obtain h | h := List.mem_append.1 (placements_engines e he)
    · simp [h] at hc
    · simp [h] at hd
  · obtain ⟨e, he, hf⟩ := List.mem_flatMap.1 hf
    exact List.mem_flatMap.2 ⟨e.1, placements_engines e he, hf⟩

/-- Settles O54: the runs are placed as the dispatch names the engines (`State.placeRuns_placed`), after what the first dispatch fixes
(`State.firstDispatch_spec`). -/
theorem unitsOfWorkAreDispatched : Obligations.UnitsOfWorkAreDispatched := by
  unfold Obligations.UnitsOfWorkAreDispatched
  refine ⟨?leaf, ?early, ?leafRefused, ?earlyRefused, ?first, ?plan⟩
  case leaf =>
    intro s n num j cars scrs p hp hd hdisp hfit
    have hs := dispatchShape_of_fit hfit
    have heq := State.dispatch_eq hp hdisp hfit
    rw [hd, if_pos rfl] at heq
    exact ⟨_, rfl, heq ▸ placements_dispatched hs (State.dispatchable_runs hp hdisp) (State.placeRuns_placed hs hp)⟩
  case early =>
    intro s n num j cars scrs p hp hd hk hdisp hfit
    have hs := dispatchShape_of_fit hfit
    have heq := State.dispatch_eq hp hdisp hfit
    rw [hd, if_pos rfl] at heq
    refine ⟨_, ?_, heq ▸ placements_dispatched hs (State.dispatchable_runs hp hdisp) (State.placeRuns_placed hs hp)⟩
    show Host.Outcome.next (if (s.stream n).isKrema && (s.stream n).subFrame then _ else s) = _
    rw [hk.1, hk.2, Bool.and_true, if_pos rfl]
  case leafRefused =>
    intro s n num j cars scrs h
    refine ⟨s, ?_, State.frame.rfl'⟩
    show Host.Outcome.next (s.dispatch n num j cars scrs false) = _
    rw [State.dispatch_none h]
  case earlyRefused =>
    intro s n num j cars scrs h
    refine ⟨s, ?_, State.frame.rfl'⟩
    show Host.Outcome.next (if (s.stream n).isKrema && (s.stream n).subFrame then s.dispatch n num j cars scrs true else s) = _
    obtain h | h | h := h
    · rw [h, Bool.false_and, if_neg (by decide)]
    · rw [h, Bool.and_false, if_neg (by decide)]
    · rw [State.dispatch_none h, ite_self]
  case first =>
    intro s n num j cars scrs p hp hd hst hsec hdisp hfit
    have hs := dispatchShape_of_fit hfit
    have heq := State.dispatch_eq hp hdisp hfit
    rw [hd, if_neg (by decide)] at heq
    obtain ⟨q, hframe, hothers, hq, hplace, hless, -⟩ := State.firstDispatch_spec hp hsec
    have hpl := State.placeRuns_placed (j := j) hs hq
    obtain ⟨q', hq', halike, -⟩ := hpl.pic
    have hruns : (q.unit j).runs = [] := by
      rw [hless]
      exact (State.dispatchable_runs hp hdisp : (p.unit j).runs = [])
    obtain ⟨hcars, -, -, -, hstreams, hfr⟩ := placements_dispatched hs hruns hpl
    refine ⟨_, rfl, ?_⟩
    rw [heq]
    dsimp only
    rw [hq']
    refine ⟨fun r hr => ?_, rfl, fun k i h => (hcars k i h).1, fun m hm => (hstreams m hm).trans (hothers m hm),
      (hframe.mono (by simp) (by simp)).trans hfr⟩
    obtain rfl := Option.some.inj hr
    rw [halike, hless]
    refine ⟨rfl, ?_, rfl, rfl, rfl, rfl⟩
    show (p.stamps.set 3 s.now).getD 3 DTime.none = s.now
    rw [List.getD_eq_getElem?_getD, List.getElem?_set_self (by omega)]
    rfl
  case plan =>
    intro s n num j cars scrs p hp hd hr hsec hdisp hfit
    have hs := dispatchShape_of_fit hfit
    have heq := State.dispatch_eq hp hdisp hfit
    rw [hd, if_neg (by decide)] at heq
    obtain ⟨q, -, -, hq, -, -, hplan⟩ := State.firstDispatch_spec hp hsec
    obtain ⟨-, -, -, -, hplans, q', hq', halike, -⟩ := State.placeRuns_placed (j := j) hs hq
    obtain ⟨hposted, hagain, hfallback, hleft⟩ := hplan hr
    refine ⟨_, rfl, ?_⟩
    rw [heq]
    dsimp only
    rw [hq']
    have hplan' : q'.plan = q.plan ∧ q'.planStale = q.planStale ∧ q'.planFallback = q.planFallback := by
      rw [halike]
      exact ⟨rfl, rfl, rfl⟩
    obtain ⟨h1, h2, h3⟩ := hplan'
    refine ⟨fun r hr z hz => ?_, fun r hr hz z hl => ?_, fun r hr hz hl => ?_, hplans.1.trans hleft⟩
    · obtain rfl := Option.some.inj hr
      rw [h1, h2, h3]
      exact hposted z hz
    · obtain rfl := Option.some.inj hr
      rw [h1, h2]
      exact hagain hz z hl
    · obtain rfl := Option.some.inj hr
      rw [h1, h3, hplans.2]
      exact hfallback hz hl

end

/-! ### A table of rings out of its canonical form -/

namespace Sys2Proof.Tests
set_option Elab.async false

open Sys2Proof Sys2Proof.Machine

/-- The OPEN_STREAM slip of a host stream, and the sections of its descriptor. -/
def openSlip : Taken := slip 7 [0x12340001, 0x20203, 0x7000, 0, 48]
def hostSecs : List RawSec := [{ ty := 1, bytes := (rawHost 0).geo.bytes }]

/-- The slip has been taken on ring pair 5, and a second entry of the table for that pair holds the charge of a stream closed. -/
def twiceListed : State :=
  let s := openSt 5 [openSlip] (rawHost 0).geo.bytes
  { s with rings := s.rings ++ [(5, { Ring.init with compl := [{ eventSlip 0 none 0 0 [] with frees := (7, 0) }] })] }

/-- Staging the slip writes the ring, and the second entry is gone with the charge that it held. -/
theorem twiceListed_used : (match exec (.openStream 5 0 true) twiceListed with
    | .next t => t.get HIF.LEDGER_CU_USED_UNITS != (twiceListed.charges.1 + ((openSlip.asks 5 hostSecs).charge twiceListed.factor).1) % 2 ^ 24
    | _ => false) = true := by decide +kernel

end Sys2Proof.Tests

section
set_option Elab.async false
open Sys2Proof Sys2Proof.Machine

/-- Refutes O42, its first part: no premise says that the keys of the table of rings rise. Where ring pair n is listed twice, `State.charges` counts what both
entries hold, and the write of the ring that stages the slip leaves one of them, so that the ledger falls short of the sum. -/
theorem not_streamsAreOpenedChangedAndClosedBySlips : ¬ Obligations.StreamsAreOpenedChangedAndClosedBySlips := by
  unfold Obligations.StreamsAreOpenedChangedAndClosedBySlips
  rintro ⟨hopen, -⟩
  obtain ⟨t, ht, -, -, -, hused, -⟩ := hopen Tests.twiceListed 5 0 0x57000 true Tests.openSlip (Tests.rawHost 0).geo.bytes Tests.hostSecs
    (by decide +kernel) (by decide +kernel) (by decide +kernel) (by decide +kernel) (by decide +kernel) (by decide +kernel) (by decide +kernel)
    (by decide +kernel) (by decide +kernel) (by decide +kernel) (by decide +kernel) (by decide +kernel) (by decide +kernel) (by decide +kernel)
    (by decide +kernel) (by decide +kernel) (by decide +kernel) (by decide +kernel) (by decide +kernel) (by decide +kernel) (by decide +kernel)
  have h := Tests.twiceListed_used
  rw [ht] at h
  exact bne_iff_ne.1 h hused

end

/-! ### A capture stream whose request line is no line of the DMA (R376) -/

namespace Sys2Proof.Tests
set_option Elab.async false

open Sys2Proof Sys2Proof.Machine

/-- Row 0, come whole and holding one cell of bank 0, and the frame that has it. -/
def wholeRow : IngRow := row0 0 (.whole [1, 2, 3, 4, 5, 6, 7, 8])
def wholeFrame : Frame := fr0.setMember 0 { started := true, ended := false, next := 1, got := 1, rows := [wholeRow] }

/-- The ingest slot whose count of requests would stand where the register BANK_FREE of bank 0 does. -/
def farSlot : Nat := (STK.BANK_FREE 0 - DMA.REQ_COUNT 0) / 4

/-- The frame's stream has that slot; every bank has 10 free cells. -/
def farSlotted : State := (capSt [wholeFrame]).setStream 3 { (capSt [wholeFrame]).stream 3 with slot := farSlot }

/-- Emitting the row gives its cell back, and the request counts one more in the same register: 12 in place of 11. -/
theorem farSlotted_bankFree : (match exec (.rowEmit 3) farSlotted with
    | .next t => t.get (STK.BANK_FREE_CELLS 0) != (farSlotted.get (STK.BANK_FREE_CELLS 0) + wholeRow.cells.getD 0 0) % 2 ^ 18
    | _ => false) = true := by decide +kernel

end Sys2Proof.Tests

section
set_option Elab.async false
open Sys2Proof Sys2Proof.Machine

/-- Refutes O52, its part on the emission of a whole row: what it says of the cells given back has no premise that the stream's request line is one of the 16
of Accession, and the count of a line beyond them may be the very register that shows a bank's free cells, where the request then counts as well. -/
theorem not_rowsAreReservedCheckedAndEmitted : ¬ Obligations.RowsAreReservedCheckedAndEmitted := by
  unfold Obligations.RowsAreReservedCheckedAndEmitted
  rintro ⟨-, -, -, -, -, -, -, -, -, -, -, hemit, -⟩
  obtain ⟨t, ht, -, -, -, hback, -⟩ := hemit Tests.farSlotted 3 Tests.wholeFrame (Pic.fresh 6 true 1 1) [[1, 2, 3, 4, 5, 6, 7, 8]]
    (by decide +kernel) (by decide +kernel) (by decide +kernel) (by decide +kernel)
  obtain ⟨hfree, -⟩ := hback Tests.wholeRow (by decide +kernel) rfl (by decide)
  have h := Tests.farSlotted_bankFree
  rw [ht] at h
  exact bne_iff_ne.1 h (hfree 0 (by decide))

end

namespace Sys2Proof.Machine
set_option Elab.async false

variable {s t : State} {ps : List Part} {fs : List Fld}

/-! ### Completions (R199, R202, R208, R212) -/

/-- The parts of the completion of a slip. -/
theorem State.complParts_congr (h : t.hostFn = s.hostFn) : t.complParts = s.complParts := by rw [State.complParts, h, State.complParts]
theorem State.complFields_congr (h : t.hostFn = s.hostFn) {n : Nat} (hv : t.get (HIF.RP_CFG_VECTOR n) = s.get (HIF.RP_CFG_VECTOR n)) :
    t.complFields n = s.complFields n := by rw [State.complFields, h, hv, State.complFields]

theorem State.complParts_of_open (h : s.hostFn.open = true) : s.complParts = [.rings] := by rw [State.complParts, h]; rfl
theorem State.complParts_of_shut (h : s.hostFn.open = false) : s.complParts = [.rings, .power, .vecs, .hostFn] := by rw [State.complParts, h]; rfl
theorem State.complFields_of_open (h : s.hostFn.open = true) (n : Nat) : s.complFields n = [HIF.RP_STAT_BUSY n] := by rw [State.complFields, h]; rfl
theorem State.complFields_of_shut (h : s.hostFn.open = false) (n : Nat) :
    s.complFields n = HIF.RP_STAT_BUSY n :: vectorBits (s.get (HIF.RP_CFG_VECTOR n)) := by rw [State.complFields, h]; rfl

/-- While the function is open no completion has to wait for its vector (R212). -/
theorem State.complete_of_open (h : s.hostFn.open = true) (n : Nat) (r : RetSlip) :
    s.complete n r = s.setRing n { s.ring n with compl := (s.ring n).compl ++ [s.waiting n r] } := by
  rw [State.complete, State.waiting, h]
  rfl

theorem State.frame.finishOne_open (h : s.frame t ps fs) (ho : t.hostFn.open = true) (n : Nat) (u : Taken) (st x : Nat) (w : List Nat)
    (p_rings : .rings ∈ ps) (hf : HIF.RP_STAT_BUSY n ∈ fs) : s.frame (t.finishOne n u st x w) ps fs := by
  rw [State.finishOne, State.complete_of_open (by rw [State.setRing_hostFn, ho])]
  exact ((h.setRing _ _ p_rings).setRing _ _ p_rings).showBusy _ hf

theorem State.frame.finishDecided_open (h : s.frame t ps fs) (ho : t.hostFn.open = true) (n g : Nat) (p_rings : .rings ∈ ps)
    (hf : HIF.RP_STAT_BUSY n ∈ fs) : s.frame (t.finishDecided n g) ps fs := by
  induction g generalizing t with
  | zero => exact h
  | succ g ih =>
    rw [State.finishDecided]
    split
    next u st x w _ =>
      have hone : t.frame (t.finishOne n u st x w) [.rings] [HIF.RP_STAT_BUSY n] := State.frame.rfl'.finishOne_open ho _ _ _ _ _ (by simp) (by simp)
      exact ih (h.finishOne_open ho _ _ _ _ _ p_rings hf) (by rw [show (t.finishOne n u st x w).hostFn = t.hostFn from hone.1 .hostFn (by simp), ho])
    next => exact h

/-- What a completion, with those that waited for it, may change: `State.complParts` and `State.complFields`. -/
theorem State.frame_finish (s : State) (n : Nat) (u : Taken) (st x : Nat) (w : List Nat) :
    s.frame (s.finish n u st x w) s.complParts (s.complFields n) := by
  cases ho : s.hostFn.open with
  | true =>
    have hone : s.frame (s.finishOne n u st x w) [.rings] [HIF.RP_STAT_BUSY n] := State.frame.rfl'.finishOne_open ho _ _ _ _ _ (by simp) (by simp)
    rw [State.complParts_of_open ho, State.complFields_of_open ho, State.finish]
    exact hone.finishDecided_open (by rw [show (s.finishOne n u st x w).hostFn = s.hostFn from hone.1 .hostFn (by simp), ho]) _ _ (by simp) (by simp)
  | false =>
    rw [State.complParts_of_shut ho, State.complFields_of_shut ho]
    exact State.frame.rfl'.finish _ _ _ _ _ (by simp) (by simp) (by simp) (by simp) (by simp) fun g hg => List.mem_cons_of_mem _ hg

/-! The ring that a completion leaves. -/

theorem State.ring_of_rings (h : t.rings = s.rings) (n : Nat) : t.ring n = s.ring n := by rw [State.ring, h, State.ring]
theorem State.stream_of_streams (h : t.streams = s.streams) (n : Nat) : t.stream n = s.stream n := by rw [State.stream, h, State.stream]

theorem State.rings_countWaiting (s : State) (v : Nat) : (s.countWaiting v).rings = s.rings :=
  (State.frame.rfl' (s := s) (ps := [.power, .vecs, .hostFn])).countWaiting v (by simp) (by simp) (by simp) (fun _ h => h) |>.1 .rings (by simp)

theorem State.rings_complete (s : State) (n : Nat) (r : RetSlip) :
    (s.complete n r).rings = (s.setRing n { s.ring n with compl := (s.ring n).compl ++ [s.waiting n r] }).rings := by
  rw [State.complete]
  dsimp only
  split
  · rw [State.rings_countWaiting]
    rfl
  · rfl

/-- A ring after a slip of it has completed. -/
def Ring.finished (r : Ring) (id : Nat) (c : RetSlip) : Ring := { r with taken := r.taken.filter (·.id != id), compl := r.compl ++ [c] }

theorem State.rings_showBusy (s : State) (n : Nat) : (s.showBusy n).rings = s.rings := State.put_rings ..

theorem State.rings_finishOne (s : State) (n : Nat) (u : Taken) (st x : Nat) (w : List Nat) : (s.finishOne n u st x w).rings =
    ((s.setRing n { s.ring n with taken := (s.ring n).taken.filter (·.id != u.id) }).setRing n
      ((s.ring n).finished u.id (s.waiting n (u.completion st x w)))).rings := by
  rw [State.finishOne, State.rings_showBusy, State.rings_complete, State.ring_setRing]
  rw [show (s.setRing n { s.ring n with taken := (s.ring n).taken.filter (·.id != u.id) }).waiting n (u.completion st x w) =
    s.waiting n (u.completion st x w) by rw [State.waiting, State.waiting, State.on, State.get_setRing, State.setRing_hostFn, State.on]]
  rfl

theorem State.ring_finishOne (s : State) (n : Nat) (u : Taken) (st x : Nat) (w : List Nat) :
    (s.finishOne n u st x w).ring n = (s.ring n).finished u.id (s.waiting n (u.completion st x w)) := by
  rw [State.ring_of_rings (State.rings_finishOne ..), State.ring_setRing]
theorem State.ring_finishOne_ne {n m : Nat} (h : m ≠ n) (u : Taken) (st x : Nat) (w : List Nat) : (s.finishOne n u st x w).ring m = s.ring m := by
  rw [State.ring_of_rings (State.rings_finishOne ..), State.ring_setRing_ne _ _ h, State.ring_setRing_ne _ _ h]

/-- Slips that are decided and complete take places behind the completions, and no slip is taken anew. -/
theorem State.finishDecided_spec (s : State) (n g : Nat) : (∃ l, ((s.finishDecided n g).ring n).compl = (s.ring n).compl ++ l) ∧
    ((s.finishDecided n g).ring n).taken ⊆ (s.ring n).taken ∧ ∀ m, m ≠ n → (s.finishDecided n g).ring m = s.ring m := by
  induction g generalizing s with
  | zero => exact ⟨⟨[], (List.append_nil _).symm⟩, List.Subset.refl _, fun _ _ => rfl⟩
  | succ g ih =>
    rw [State.finishDecided]
    split
    next u st x w _ =>
      obtain ⟨⟨l, hl⟩, htaken, hother⟩ := ih (s.finishOne n u st x w)
      rw [State.ring_finishOne] at hl htaken
      refine ⟨⟨_, hl.trans (List.append_assoc ..)⟩, fun e he => (List.mem_filter.1 (htaken he)).1, fun m hm => ?_⟩
      rw [hother m hm, State.ring_finishOne_ne hm]
    next => exact ⟨⟨[], (List.append_nil _).symm⟩, List.Subset.refl _, fun _ _ => rfl⟩

theorem firstDecided_eq_none {l : List Taken} (h : ∀ e ∈ l, e.verdict = none) (before : List Taken) : firstDecided before l = none := by
  induction l generalizing before with
  | nil => rfl
  | cons e l ih =>
    rw [firstDecided, h e List.mem_cons_self]
    exact ih (fun v hv => h v (List.mem_cons_of_mem _ hv)) _

theorem State.finishDecided_eq_self {n : Nat} (h : ∀ e ∈ (s.ring n).taken, e.verdict = none) (g : Nat) : s.finishDecided n g = s := by
  cases g with
  | zero => rfl
  | succ g => rw [State.finishDecided, firstDecided_eq_none h]

/-- A slip that is finished has completed. -/
theorem State.completes_finish (s : State) (n : Nat) (u : Taken) (st x : Nat) (w : List Nat) : s.completes (s.finish n u st x w) n u st x w := by
  obtain ⟨⟨l, hl⟩, htaken, hother⟩ := (s.finishOne n u st x w).finishDecided_spec n (s.ring n).taken.length
  rw [State.ring_finishOne] at hl htaken
  refine ⟨⟨⟨l, ?_⟩, ?_⟩, fun m hm => ?_, fun hv => ?_⟩
  · rw [State.finish, hl]
    simp [Ring.finished]
  · rw [Ring.byId, List.find?_eq_none]
    intro e he
    simpa using (List.mem_filter.1 (htaken he)).2
  · rw [State.finish, hother m hm, State.ring_finishOne_ne hm]
  · rw [State.finish, State.finishDecided_eq_self, State.ring_finishOne]
    · rfl
    · rw [State.ring_finishOne]
      exact fun e he => hv e (List.mem_filter.1 he).1

/-- What a completion is said to leave depends on the state through the rings, the function and the enabling of the pair. -/
theorem State.completes_congr {v : State} {n : Nat} {u : Taken} {st x : Nat} {w : List Nat} (hr : t.rings = s.rings) (hh : t.hostFn = s.hostFn)
    (he : t.get (HIF.RP_CFG_ENABLE n) = s.get (HIF.RP_CFG_ENABLE n)) (h : t.completes v n u st x w) : s.completes v n u st x w := by
  have hring := State.ring_of_rings hr
  have hwait : ∀ r, t.waiting n r = s.waiting n r := fun r => by rw [State.waiting, State.waiting, hh, State.on, he, State.on]
  simpa only [State.completes, State.answered, hring, hwait] using h

/-! ### Slips that start (R194, R208) -/

/-- A ring a slip of which has started. -/
def Ring.start (r : Ring) (id : Nat) : Ring := { r with taken := r.taken.map fun e => if e.id = id then { e with started := true } else e }

theorem State.startSlip_eq (s : State) (n : Nat) (u : Taken) : s.startSlip n u = s.setRing n ((s.ring n).start u.id) := rfl

theorem Ring.start_taken_filter (r : Ring) (id : Nat) : (r.start id).taken.filter (·.id != id) = r.taken.filter (·.id != id) := by
  show (r.taken.map _).filter _ = _
  induction r.taken with
  | nil => rfl
  | cons e l ih => by_cases h : e.id = id <;> simp [h, ih]

theorem Ring.start_undecided {r : Ring} (id : Nat) (h : ∀ e ∈ r.taken, e.verdict = none) : ∀ e ∈ (r.start id).taken, e.verdict = none := by
  intro e he
  obtain ⟨v, hv, rfl⟩ := List.mem_map.1 he
  split <;> exact h v hv

theorem Ring.byId_start {r : Ring} {u : Taken} (h : r.byId u.id = some u) : (r.start u.id).byId u.id = some { u with started := true } := by
  unfold Ring.byId Ring.start at *
  rw [List.find?_map]
  have hcomp : ((fun e : Taken => e.id == u.id) ∘ fun e => if e.id = u.id then { e with started := true } else e) = fun e => e.id == u.id := by
    funext e
    by_cases he : e.id = u.id <;> simp [he]
  rw [hcomp, h]
  simp

theorem Ring.placeOf_start (r : Ring) (id : Nat) : (r.start id).placeOf id = r.placeOf id := by
  unfold Ring.placeOf Ring.start
  rw [List.findIdx?_map]
  congr 1
  funext e
  by_cases he : e.id = id <;> simp [he]

theorem State.mayComplete_congr {n k : Nat} {u : Taken} (h : t.ring n = s.ring n) : t.mayComplete n k u = s.mayComplete n k u := by
  rw [State.mayComplete, State.earlier, h, State.mayComplete, State.earlier]

/-- The slip's own start holds nothing back. -/
theorem State.mayComplete_start {n k : Nat} {u : Taken} (hr : t.ring n = (s.ring n).start u.id) (h : s.mayComplete n k u = true) :
    t.mayComplete n k { u with started := true } = true := by
  unfold State.mayComplete State.earlier at *
  rw [hr]
  rw [List.all_eq_true] at h ⊢
  intro e he
  rw [Ring.start, ← List.map_take] at he
  obtain ⟨v, hv, rfl⟩ := List.mem_map.1 he
  have hsame : sameStream { u with started := true } (if v.id = u.id then { v with started := true } else v) = sameStream u v := by split <;> rfl
  rw [hsame]
  exact h v hv

/-- A slip that started and then completed has completed, as the state before its start saw it. -/
theorem State.completes_of_started {v : State} {n : Nat} {u : Taken} {st x : Nat} {w : List Nat}
    (h : (s.startSlip n u).completes v n { u with started := true } st x w) : s.completes v n u st x w := by
  obtain ⟨⟨⟨l, hl⟩, hid⟩, hother, hone⟩ := h
  have hwait : ∀ r, (s.startSlip n u).waiting n r = s.waiting n r := fun r => by
    rw [State.startSlip_eq, State.waiting, State.waiting, State.on, State.get_setRing, State.setRing_hostFn, State.on]
  rw [hwait] at hl hone
  rw [State.startSlip_eq, State.ring_setRing] at hl hone
  refine ⟨⟨⟨l, hl⟩, hid⟩, fun m hm => ?_, fun hv => ?_⟩
  · rw [hother m hm, State.startSlip_eq, State.ring_setRing_ne _ _ hm]
  · rw [hone (Ring.start_undecided _ hv)]
    show Ring.finished ((s.ring n).start u.id) u.id _ = _
    rw [Ring.finished, Ring.start_taken_filter]
    rfl

end Sys2Proof.Machine

namespace Sys2Proof
set_option Elab.async false

/-! ### The entries of a table after a write -/

theorem Tab.mem_erase {V : Type} {l : Tab V} {k : Nat} {e : Nat × V} (h : e ∈ Tab.erase l k) : e ∈ l := by
  induction l with
  | nil => exact h
  | cons a l ih =>
    rw [Tab.erase] at h
    split at h
    · exact List.mem_cons_of_mem _ (ih h)
    · obtain rfl | h := List.mem_cons.1 h
      · exact List.mem_cons_self
      · exact List.mem_cons_of_mem _ (ih h)

theorem Tab.mem_insert {V : Type} {l : Tab V} {k : Nat} {v : V} {e : Nat × V} (h : e ∈ Tab.insert l k v) : e = (k, v) ∨ e ∈ l := by
  induction l with
  | nil => exact .inl (List.mem_singleton.1 h)
  | cons a l ih =>
    rw [Tab.insert] at h
    split at h
    · exact List.mem_cons.1 h
    · obtain rfl | h := List.mem_cons.1 h
      · exact .inr List.mem_cons_self
      · exact (ih h).imp_right (List.mem_cons_of_mem _)

theorem Tab.mem_set {V : Type} [DecidableEq V] {d : Nat → V} {l : Tab V} {k : Nat} {v : V} {e : Nat × V} (h : e ∈ Tab.set d l k v) :
    e = (k, v) ∨ e ∈ l := by
  rw [Tab.set] at h
  split at h
  · exact .inr (Tab.mem_erase h)
  · exact (Tab.mem_insert h).imp_right Tab.mem_erase

/-- What a table reads at a key is what an unlisted key reads as, or listed. -/
theorem Tab.get_mem {V : Type} (d : Nat → V) (l : Tab V) (k : Nat) : Tab.get d l k = d k ∨ (k, Tab.get d l k) ∈ l := by
  induction l with
  | nil => exact .inl rfl
  | cons a l ih =>
    obtain ⟨j, v⟩ := a
    rw [Tab.get]
    split
    next h => exact .inr (h ▸ List.mem_cons_self)
    next => exact ih.imp_right (List.mem_cons_of_mem _)

end Sys2Proof

namespace Sys2Proof.Machine
set_option Elab.async false

variable {s t : State} {ps : List Part} {fs : List Fld}

/-! ### Slips of pictures as they are taken up (R194, R203, R208) -/

theorem State.slipAt_spec {n k op : Nat} {u : Taken} (h : s.slipAt n k op = some u) :
    (s.ring n).taken[k]? = some u ∧ u.op = op ∧ u.started = false := by
  rw [State.slipAt] at h
  split at h
  next v hv =>
    split at h
    next hc =>
      obtain rfl := Option.some.inj h
      exact ⟨hv, hc.1, hc.2.1⟩
    next => exact nomatch h
  next => exact nomatch h

/-- The stream of a slip is one that takes it. -/
theorem State.streamFor_iff {n : Nat} {u : Taken} {kinds : List Nat} : s.streamFor n u kinds = true ↔
    (s.stream u.streamField).state = .opened ∧ (s.stream u.streamField).rp = n ∧ (s.stream u.streamField).kind ∈ kinds := by
  simp [State.streamFor, and_assoc]

/-- A slip that may complete is finished at once. -/
theorem State.finishInOrder_eq {n k : Nat} {u : Taken} (h : s.mayComplete n k u = true) (st : Nat) (w : List Nat) :
    s.finishInOrder n k u st w = s.finish n u st 0 w := by rw [State.finishInOrder, State.finishExtra, if_pos h]

/-- A slip that is refused completes, and nothing else changes. -/
theorem State.finishInOrder_spec {n k : Nat} {u : Taken} (h : s.mayComplete n k u = true) (st : Nat) (w : List Nat) :
    s.completes (s.finishInOrder n k u st w) n u st 0 w ∧ s.frame (s.finishInOrder n k u st w) s.complParts (s.complFields n) := by
  rw [State.finishInOrder_eq h]
  exact ⟨s.completes_finish .., s.frame_finish ..⟩

/-- A slip completes after a change of its stream. -/
theorem State.setStream_finish_spec (s : State) (n m : Nat) (y : Stream) (u : Taken) (st : Nat) (w : List Nat) :
    s.completes ((s.setStream m y).finish n u st 0 w) n u st 0 w ∧ ((s.setStream m y).finish n u st 0 w).stream m = y ∧
    s.frame ((s.setStream m y).finish n u st 0 w) (.streams :: s.complParts) (s.complFields n) := by
  have hparts := State.complParts_congr (s := s) (t := s.setStream m y) (State.setStream_hostFn ..)
  have hfields := State.complFields_congr (s := s) (t := s.setStream m y) (State.setStream_hostFn ..) (n := n) (State.get_setStream ..)
  have hfr := (s.setStream m y).frame_finish n u st 0 w
  rw [hparts, hfields] at hfr
  refine ⟨State.completes_congr (State.setStream_rings ..) (State.setStream_hostFn ..) (State.get_setStream ..) (State.completes_finish ..), ?_,
    (State.frame.rfl'.setStream _ _ (by simp)).trans (hfr.mono (fun p hp => List.mem_cons_of_mem _ hp) fun _ h => h)⟩
  rw [State.stream_of_streams (hfr.1 .streams _), State.stream_setStream]
  rw [State.complParts]
  split <;> simp

/-! ### ENCODE_PICTURE (R127, R204, R207) -/

section Encode
variable {n k : Nat} {u : Taken}

/-- What ENCODE_PICTURE comes to once its slip has been taken up. -/
theorem execEncodePicture_eq (hu : s.slipAt n k 0x04 = some u) (hw : s.slipWaits n u = false) (hr : u.reservedOk = true) :
    execEncodePicture n k s =
      if s.streamFor n u [2, 5] = false then .next (s.finishInOrder n k u stBadStream [])
      else if u.word 4 % 64 ≠ 0 ∨ u.word 4 < 2 * (s.stream u.streamField).geo.width then .next (s.finishInOrder n k u stBadField [])
      else if 2 ^ 32 ≤ (s.stream u.streamField).nextPic then .next (s.finishInOrder n k u 0x000B [])
      else match s.readPicture n u (s.stream u.streamField) with
      | (s, none) => .next s
      | (s, some v) => .next (s.takePicture n u v) := by
  rw [execEncodePicture, hu]
  dsimp only
  rw [hw, hr, if_neg (by decide), if_neg (by decide)] <;> rfl

end Encode

/-- The picture that an ENCODE_PICTURE brings, before the stream gives it its number. -/
def State.hostInput (s : State) (n : Nat) (u : Taken) (v : Ycc × Nat × Bool) (p : Pic) : Pic :=
  let own := decide (u.time 8 = DTime.none)
  { p.setStamp 0 (if own then s.now else u.time 8) with
    input := v.1.y, chromaB := v.1.cb, chromaR := v.1.cr, clamped := v.2.1, unmasked := v.2.2,
    lands := List.replicate (s.stream u.streamField).geo.height s.ticks, expSrc := if own then 3 else 2, slip := some (n, u.id) }

/-- The next picture of a stream as it begins, and the stream with it. -/
def Stream.newPic (x : Stream) : Pic := Pic.fresh x.nextPic (x.isKey x.nextPic) x.unitCount (if x.isKrema then x.seq.leafCount else 0)
def Stream.withPic (x : Stream) (f : Pic → Pic) : Stream := { x with nextPic := x.nextPic + 1, pics := x.pics ++ [f x.newPic] }

theorem Stream.rated_withPic (x : Stream) (f : Pic → Pic) : (x.withPic f).rated = x.rated := rfl

/-- A picture begins of a stream from which none is developed. -/
theorem State.beginPic_undeveloped {m : Nat} (h : s.developed m = []) (f : Pic → Pic) :
    s.beginPic m f = s.setStream m ((s.stream m).withPic f) := by
  rw [State.beginPic]
  simp only [h, ite_self]
  rfl

/-- Nothing is planned for a stream without rates. -/
theorem State.fwPost_unrated {m : Nat} (h : (s.stream m).rated = false) (num : Nat) : s.fwPost m num = s := by
  rw [State.fwPost, h]
  rfl

/-- No plan is posted for picture 0, nor in a stream without rates, where no picture is developed from it. -/
theorem State.planAll_eq_self {m num : Nat} (hn : num = 0 ∨ (s.stream m).rated = false)
    (hsrc : ∀ e ∈ s.openStreams, ∀ p ∈ e.2.pics, p.src ≠ some (m, num)) : s.planAll m num = s := by
  have hown : (if num = 0 then s else s.fwPost m num) = s := by
    obtain h | h := hn
    · rw [if_pos h]
    · rw [State.fwPost_unrated h, ite_self]
  rw [State.planAll]
  dsimp only
  rw [hown]
  have hfold : ∀ l : List (Nat × Stream), (∀ e ∈ l, ∀ p ∈ e.2.pics, p.src ≠ some (m, num)) →
      l.foldl (fun s e => match e.2.pics.find? fun p => p.src == some (m, num) with
        | some p => if p.num = 0 then s else s.fwPost e.1 p.num
        | none => s) s = s := by
    intro l hl
    induction l with
    | nil => rfl
    | cons e l ih =>
      rw [List.foldl_cons, List.find?_eq_none.2 (by simpa using hl e List.mem_cons_self)]
      exact ih fun v hv => hl v (List.mem_cons_of_mem _ hv)
  exact hfold _ hsrc

/-! The streams that are not closed. -/

theorem State.mem_openStreams {m : Nat} (h : (s.stream m).state = .opened) : (m, s.stream m) ∈ s.openStreams := by
  refine List.mem_filter.2 ⟨(Tab.get_mem _ s.streams m).resolve_left fun hd => ?_, by rw [h]; rfl⟩
  rw [State.stream, hd] at h
  cases h

theorem State.mem_openStreams_setStream {m : Nat} {y : Stream} {e : Nat × Stream} (h : e ∈ (s.setStream m y).openStreams) :
    e = (m, y) ∨ e ∈ s.openStreams := by
  obtain ⟨hmem, hopen⟩ := List.mem_filter.1 h
  exact (Tab.mem_set (show e ∈ Tab.set (fun _ => Stream.init) s.streams m y from hmem)).imp_right fun hs => List.mem_filter.2 ⟨hs, hopen⟩

/-- A host picture of a stream from which none is developed is taken in: the slip has started, and the stream has the picture. -/
theorem State.takePicture_eq {n m : Nat} {u : Taken} (v : Ycc × Nat × Bool) (hm : u.streamField = m) (hopen : (s.stream m).state = .opened)
    (hdev : s.developed m = []) (hsrc : ∀ e ∈ s.openStreams, ∀ p ∈ e.2.pics, p.src ≠ some (m, (s.stream m).nextPic))
    (hrate : (s.stream m).nextPic = 0 ∨ (s.stream m).rated = false) :
    s.takePicture n u v = (s.startSlip n u).setStream m ((s.stream m).withPic (s.hostInput n u v)) := by
  subst hm
  have hstr : (s.startSlip n u).stream u.streamField = s.stream u.streamField := State.stream_of_streams (State.setRing_streams ..) _
  rw [State.takePicture]
  show ((s.startSlip n u).beginPic u.streamField (s.hostInput n u v)).planAll u.streamField (s.stream u.streamField).nextPic = _
  rw [State.beginPic_undeveloped (s := s.startSlip n u) hdev, hstr]
  refine State.planAll_eq_self ?_ fun e he p hp => ?_
  · rwa [State.stream_setStream, Stream.rated_withPic]
  · obtain rfl | he := State.mem_openStreams_setStream he
    · obtain hp | hp := List.mem_append.1 hp
      · exact hsrc _ (State.mem_openStreams hopen) p hp
      · rw [List.mem_singleton.1 hp]
        exact nofun
    · exact hsrc e he p hp

/-- The exposure stamp of a host picture: its slip's, or the time at which it was taken in. -/
theorem State.hostInput_stamp (s : State) (n : Nat) (u : Taken) (v : Ycc × Nat × Bool) {p : Pic} (h : 0 < p.stamps.length) :
    (s.hostInput n u v p).stamp 0 = (if u.time 8 = DTime.none then s.now else u.time 8) := by
  have hset : ∀ d : DTime, (p.stamps.set 0 d).getD 0 DTime.none = d := fun d => by
    rw [List.getD_eq_getElem?_getD, List.getElem?_set_self h]
    rfl
  unfold State.hostInput Pic.stamp Pic.setStamp
  dsimp only
  rw [hset]
  simp only [decide_eq_true_eq]

/-- The picture that has been taken in. -/
theorem Stream.withPic_hostInput (x : Stream) (s : State) (n : Nat) (u : Taken) (v : Ycc × Nat × Bool) :
    ∃ p, (x.withPic (s.hostInput n u v)).pics = x.pics ++ [p] ∧ p.num = x.nextPic ∧ p.input = v.1.y ∧ p.chromaB = v.1.cb ∧ p.chromaR = v.1.cr ∧
      p.clamped = v.2.1 ∧ p.slip = some (n, u.id) ∧ p.key = x.isKey x.nextPic ∧ p.unitCount = x.unitCount ∧ p.dispatched = false ∧
      p.stamp 0 = (if u.time 8 = DTime.none then s.now else u.time 8) :=
  ⟨s.hostInput n u v x.newPic, rfl, rfl, rfl, rfl, rfl, rfl, rfl, rfl, rfl, rfl, s.hostInput_stamp n u v (Nat.succ_pos 5)⟩

end Sys2Proof.Machine

namespace Sys2Proof.Machine
set_option Elab.async false

variable {s t : State} {ps : List Part} {fs : List Fld}

/-! ### Decoded pictures that wait (R135) -/

/-- No picture waits exactly where no picture held has a slip. -/
theorem Decoder.waiting_eq_nil {d : Decoder} : d.waiting = [] ↔ ∀ q ∈ d.dpb, q.slip = none := by
  simp [Decoder.waiting, List.filter_eq_nil_iff, Option.isSome_iff_ne_none]

theorem Decoder.mem_tidy {d : Decoder} {q : DpbPic} (h : q ∈ d.tidy.dpb) : q ∈ d.dpb := by
  rw [Decoder.tidy] at h
  dsimp only at h
  split at h
  next v l hd =>
    rw [hd]
    obtain rfl | h := List.mem_cons.1 h
    · exact List.mem_cons_self
    · exact List.mem_cons_of_mem _ (List.mem_filter.1 h).1
  next => exact nomatch h

theorem Decoder.receive_started (d : Decoder) (l : List ParamSet) : (d.receive l).started = d.started := rfl

/-- The decoder that meets an access unit (R135 to R138). -/
def Decoder.meets (d : Decoder) (a : CodecAu) : Decoder := ((d.receive a.sets).release a).enter a

theorem Decoder.meets_waiting {d : Decoder} (h : d.waiting = []) (a : CodecAu) : (d.meets a).waiting = [] := by
  rw [Decoder.waiting_eq_nil] at h ⊢
  intro q hq
  obtain ⟨v, hv, rfl⟩ := List.mem_map.1 (Decoder.mem_tidy (show q ∈ ((d.receive a.sets).release a).dpb from hq))
  split <;> exact h v hv

/-- The decoder with one more picture, the pictures that waited before one older. -/
def Decoder.hold (d : Decoder) (q : DpbPic) : Decoder :=
  Decoder.tidy { d with dpb := q :: d.dpb.map fun v => if v.slip.isSome then { v with age := v.age + 1 } else v }

theorem Decoder.hold_waiting {d : Decoder} (h : d.waiting = []) {q : DpbPic} (hq : q.slip.isSome = true) : (d.hold q).waiting = [q] := by
  rw [Decoder.waiting_eq_nil] at h
  have hmap : d.dpb.map (fun v => if v.slip.isSome then { v with age := v.age + 1 } else v) = d.dpb :=
    (List.map_congr_left fun v hv => by rw [h v hv]; rfl).trans (List.map_id _)
  rw [Decoder.hold, hmap, Decoder.waiting, Decoder.tidy]
  dsimp only
  rw [List.filter_cons_of_pos (p := fun v : DpbPic => v.slip.isSome) hq, List.filter_eq_nil_iff.2]
  intro v hv
  rw [h v (List.mem_filter.1 hv).1]
  exact nofun

/-- One picture that has not waited yet is put out where none may be reordered. -/
theorem Decoder.bumps_of_waiting {d : Decoder} {q : DpbPic} (h : d.waiting = [q]) (ha : q.age = 0) (p : ParamSet) : d.bumps p = decide (p.reorder = 0) := by
  rw [Decoder.bumps, h]
  cases p.latency <;> simp [ha]

theorem Decoder.first_of_waiting {d : Decoder} {q : DpbPic} (h : d.waiting = [q]) : d.first = some q := by
  rw [Decoder.first, h]
  rfl

/-! Pictures are put out. -/

theorem State.bumpWhile_idle {m : Nat} {f : Decoder → Bool} (h : f (s.stream m).dec = false ∨ (s.stream m).dec.waiting = []) (g : Nat) :
    s.bumpWhile m f g = (s, true) := by
  cases g with
  | zero => rfl
  | succ g =>
    rw [State.bumpWhile, if_neg]
    obtain h | h := h <;> simp [h]

theorem State.putOut_idle {m : Nat} {f : Decoder → Bool} (h : f (s.stream m).dec = false ∨ (s.stream m).dec.waiting = []) :
    s.putOut m f = (s, true) := State.bumpWhile_idle h _

/-- The one picture that waits is put out, and no other after it. -/
theorem State.putOut_one {m : Nat} {f : Decoder → Bool} {q : DpbPic} (hw : (s.stream m).dec.waiting = [q]) (hf : f (s.stream m).dec = true)
    (hb : s.bumpOne m = (t, true)) (ht : (t.stream m).dec.waiting = []) : s.putOut m f = (t, true) := by
  have hmem : q ∈ (s.stream m).dec.waiting := hw ▸ List.mem_cons_self
  obtain ⟨g, hg⟩ := Nat.exists_eq_succ_of_ne_zero (List.length_pos_of_mem (List.mem_filter.1 hmem).1).ne'
  rw [State.putOut, hg, State.bumpWhile, if_pos (by simp [hf, hw]), hb]
  exact State.bumpWhile_idle (.inr ht) g

/-- A buffer in which no picture waits has room for the next. -/
theorem State.makeDpbRoom_idle {m : Nat} (h : (s.stream m).dec.waiting = []) (p : ParamSet) (a : CodecAu) : s.makeDpbRoom m p a = (s, true) := by
  rw [State.makeDpbRoom, h]
  dsimp only [List.foldl_nil]
  rw [State.bumpAll, State.putOut_idle (.inr h), State.putOut_idle (.inr h), ite_self, ite_self]

/-! ### DECODE_PICTURE (R127, R135 to R140, R204) -/

section Decode
variable {n k : Nat} {u : Taken}

/-- What DECODE_PICTURE comes to once its slip has been taken up and its input read. -/
theorem execDecodePicture_eq {s1 : State} {input : List Byte} {bad : Bool} (hu : s.slipAt n k 0x05 = some u) (hw : s.slipWaits n u = false)
    (hr : u.reservedOk = true) (hs : s.streamFor n u [3, 6] = true) (ht : s.touched u.streamField = false)
    (hread : s.slipRead n u (u.addr 2) (u.word 4) = (s1, some (input, bad))) (lost : List (Nat × Nat)) (au : CodecAu) :
    execDecodePicture n k lost au s = .next (if (s1.stream u.streamField).kind = 3 then s1.decodeKrema n k u input bad lost else s1.decodeCodec n k u au bad lost) := by
  obtain ⟨hk, hop, hstart⟩ := State.slipAt_spec hu
  rw [execDecodePicture, hk]
  dsimp only
  rw [if_neg (by rw [hstart]; exact fun h => nomatch h.2.1), hu]
  dsimp only
  rw [hw, hr, hs, ht, hread]
  rfl

/-- The picture that an access unit gives. -/
def Decoder.shownPic (d : Decoder) (p : ParamSet) (a : CodecAu) (bad : Bool) (slip : Nat × Nat) : DpbPic :=
  { d.decode p a [] (if bad then 2 ^ 11 else 0) with slip := some slip }

/-- A stream's decoder, in which no picture waits, takes an access unit and shows its picture. -/
structure Stream.TakesAu (x : Stream) (u : Taken) (a : CodecAu) (p : ParamSet) : Prop where
  active : (x.dec.receive a.sets).active x.geo.codec a = some p
  supported : p.refused x.geo = false
  starts : x.dec.started = true ∨ startsAt (bitAt x.geo.flags 0) a = true
  kept : a.rasl = false ∨ ((x.dec.receive a.sets).enter a).dropRasl = false
  pitch : 2 * p.width ≤ u.word 8
  idle : x.dec.waiting = []
  shown : a.shown = true ∧ (x.dec.meets a).from' = none

/-- An access unit that a decoder in which no picture waits takes is decoded. -/
theorem State.decodeCodec_taken {p : ParamSet} {a : CodecAu} (h : (s.stream u.streamField).TakesAu u a p) (bad : Bool) (lost : List (Nat × Nat)) :
    s.decodeCodec n k u a bad lost = s.takeAu n u p a bad lost := by
  rw [State.decodeCodec]
  dsimp only
  rw [h.active]
  dsimp only
  rw [h.supported, if_neg Bool.false_ne_true, if_neg, if_neg, if_neg (Nat.not_lt.2 h.pitch), State.makeDpbRoom_idle h.idle]
  · rfl
  · obtain h | h := h.kept <;> simp [h]
  · obtain h | h := h.starts
    · simp [Decoder.receive_started, h]
    · simp [h]

/-- The state once an access unit has been decoded and its slip has started. -/
def State.heldAu (s : State) (n : Nat) (u : Taken) (p : ParamSet) (a : CodecAu) (bad : Bool) : State :=
  let m := u.streamField
  let d := (s.stream m).dec.meets a
  (s.setStream m { s.stream m with dec := d.hold (d.shownPic p a bad (n, u.id)) }).startSlip n u

/-- An access unit whose picture is shown: it is held, and then what must leave the buffer is put out. -/
theorem State.takeAu_shown {p : ParamSet} {a : CodecAu} (h : (s.stream u.streamField).TakesAu u a p) (hh : s.power.held = false) (bad : Bool) :
    s.takeAu n u p a bad [] = ((s.heldAu n u p a bad).putOut u.streamField fun d => d.bumps p).1 := by
  obtain ⟨ha, hf⟩ := h.shown
  have hfrom : (a.shown && (((((s.stream u.streamField).dec.receive a.sets).release a).enter a).from').isNone) = true := by
    rw [Decoder.meets] at hf
    rw [ha, hf]
    rfl
  rw [State.takeAu]
  dsimp only
  rw [hfrom, show ∀ v : State, v.reportLost u.streamField [] = v from fun _ => rfl, State.setStream_power, hh]
  simp only [if_true, Bool.false_eq_true, if_false, List.isEmpty_nil, Bool.not_true, Bool.or_false]
  rfl

theorem State.stream_heldAu (s : State) (n : Nat) (u : Taken) (p : ParamSet) (a : CodecAu) (bad : Bool) : (s.heldAu n u p a bad).stream u.streamField =
    { s.stream u.streamField with
      dec := ((s.stream u.streamField).dec.meets a).hold (((s.stream u.streamField).dec.meets a).shownPic p a bad (n, u.id)) } :=
  (State.stream_of_streams (State.setRing_streams ..) _).trans (State.stream_setStream ..)

theorem State.ring_heldAu (s : State) (n : Nat) (u : Taken) (p : ParamSet) (a : CodecAu) (bad : Bool) :
    (s.heldAu n u p a bad).ring n = (s.ring n).start u.id := State.ring_setRing ..

theorem State.frame_heldAu (s : State) (n : Nat) (u : Taken) (p : ParamSet) (a : CodecAu) (bad : Bool) :
    s.frame (s.heldAu n u p a bad) [.rings, .streams] [] := (State.frame.rfl'.setStream _ _ (by simp)).setRing _ _ (by simp)

/-- The one picture that waits then is that of the access unit. -/
theorem State.heldAu_waiting {p : ParamSet} {a : CodecAu} (h : (s.stream u.streamField).TakesAu u a p) (n : Nat) (bad : Bool) :
    ((s.heldAu n u p a bad).stream u.streamField).dec.waiting = [((s.stream u.streamField).dec.meets a).shownPic p a bad (n, u.id)] := by
  rw [State.stream_heldAu]
  exact Decoder.hold_waiting (Decoder.meets_waiting h.idle a) rfl

end Decode

end Sys2Proof.Machine

namespace Sys2Proof.Machine
set_option Elab.async false

variable {s t : State} {ps : List Part} {fs : List Fld}

/-! ### Buffers that are reached (R194, R362 to R367) -/

/-- A page that translates costs a place in the TLB, and no more. -/
theorem State.frame_cacheIn (s : State) (cap : Nat) (l : List (Nat × Nat × Nat × Nat)) (e : Nat × Nat × Nat × Nat) :
    s.frame (s.cacheIn cap l e).2 [.free] [] := by
  rw [State.cacheIn]
  split
  · exact State.frame.rfl'
  · split
    · exact State.frame.rfl'
    · exact State.frame.rfl'.free _ (by simp)

theorem State.frame_cache (s : State) (e : Nat × Nat × Nat × Nat) : s.frame (s.cache none e) [.free, .mmu] [] :=
  ((s.frame_cacheIn 2048 s.mmu.tlb e).mono (ps' := [.free, .mmu]) (by simp) (fun _ h => h)).mmu _ (by simp)

/-- An access that the protection map lets through leaves the state as it is. -/
theorem State.protect_ok {c pa pa' : Nat} {write ns ns' : Bool} (h : s.protect c pa write ns = (t, .ok pa' ns')) : t = s := by
  rw [State.protect] at h
  split at h
  · exact (Prod.mk.inj h).1.symm
  · exact nomatch (Prod.mk.inj h).2

theorem State.frame_translate_ok {c asid va pa : Nat} {write ns : Bool} (h : s.translate c none asid va write = (t, .ok pa ns)) :
    s.frame t [.free, .mmu] [] := by
  rw [State.translate] at h
  split at h
  · exact nomatch (Prod.mk.inj h).2
  · dsimp only at h
    split at h
    · exact nomatch (Prod.mk.inj h).2
    · split at h
      · exact nomatch (Prod.mk.inj h).2
      · rw [State.protect_ok h]
        exact s.frame_cache _

theorem State.frame_slipPages_ok {asid va len f : Nat} {write : Bool} {l : List (Nat × Nat)} (h : s.slipPages asid write f va len = (t, .ok l)) :
    s.frame t [.free, .mmu] [] := by
  induction f generalizing s va len l with
  | zero =>
    obtain ⟨rfl, -⟩ := Prod.mk.inj h
    exact State.frame.rfl'
  | succ f ih =>
    rw [State.slipPages] at h
    split at h
    · obtain ⟨rfl, -⟩ := Prod.mk.inj h
      exact State.frame.rfl'
    · dsimp only at h
      split at h
      · exact nomatch (Prod.mk.inj h).2
      next hx =>
        split at h
        · exact nomatch (Prod.mk.inj h).2
        next hr =>
          obtain ⟨rfl, -⟩ := Prod.mk.inj h
          exact (State.frame_translate_ok (Prod.ext rfl hx)).trans (ih (Prod.ext rfl hr))

/-- Parts of an output all of which are reached: what that changes. -/
theorem State.frame_outPieces_ok {n : Nat} {l : List (Nat × List Byte)} {q : List (List (Nat × Nat) × List Byte)} (h : s.outPieces n l = (t, .ok q)) :
    s.frame t [.free, .mmu] [] := by
  induction l generalizing s q with
  | nil =>
    obtain ⟨rfl, -⟩ := Prod.mk.inj h
    exact State.frame.rfl'
  | cons e l ih =>
    rw [State.outPieces] at h
    split at h
    · exact nomatch (Prod.mk.inj h).2
    next hx =>
      split at h
      · exact nomatch (Prod.mk.inj h).2
      next hr =>
        obtain ⟨rfl, -⟩ := Prod.mk.inj h
        exact (State.frame_slipPages_ok hx).trans (ih hr)

/-! ### Output through the host window (R204, R366) -/

/-- Pieces that all lie in the host window are all written, to host memory. -/
theorem State.writePieces_host {l : List (Nat × Nat)} (h : ∀ r ∈ l, s.aperture r.1 = some 8) (b : List Byte) :
    ∃ m, s.writePieces l b = ({ s with host := m }, true) := by
  induction l generalizing s b with
  | nil => exact ⟨s.host, rfl⟩
  | cons r l ih =>
    have hphys : s.writePhys r.1 (b.take r.2) = (s.storeHost (s.hostAddr r.1) (b.take r.2), true) := by
      rw [State.writePhys, if_pos (h r List.mem_cons_self)]
    obtain ⟨m, hm⟩ := ih (s := s.storeHost (s.hostAddr r.1) (b.take r.2)) (fun v hv => h v (List.mem_cons_of_mem _ hv)) (b.drop r.2)
    refine ⟨m, ?_⟩
    rw [State.writePieces]
    simp only [hphys, hm]
    rfl

/-- The parts of an output, each written over its pieces. -/
def State.writeParts (s : State) (l : List (List (Nat × Nat) × List Byte)) : State := l.foldl (fun s q => (s.writePieces q.1 q.2).1) s

theorem State.writeParts_host {l : List (List (Nat × Nat) × List Byte)} (h : ∀ q ∈ l, ∀ r ∈ q.1, s.aperture r.1 = some 8) :
    (∃ m, s.writeParts l = { s with host := m }) ∧
    l.foldl (fun (a : State × Bool) q => ((a.1.writePieces q.1 q.2).1, a.2 && (a.1.writePieces q.1 q.2).2)) (s, true) = (s.writeParts l, true) := by
  induction l generalizing s with
  | nil => exact ⟨⟨s.host, rfl⟩, rfl⟩
  | cons q l ih =>
    obtain ⟨m, hm⟩ := State.writePieces_host (h q List.mem_cons_self) q.2
    obtain ⟨⟨m', hm'⟩, hfold⟩ := ih (s := { s with host := m }) fun v hv => h v (List.mem_cons_of_mem _ hv)
    have hcons : s.writeParts (q :: l) = ({ s with host := m } : State).writeParts l := by
      rw [State.writeParts, List.foldl_cons, hm]
      rfl
    refine ⟨⟨m', hcons.trans hm'⟩, ?_⟩
    rw [List.foldl_cons, hcons, ← hfold, hm]
    rfl

/-! ### A decoded picture is written out (R200, R204) -/

/-- The full length of an output. -/
def Decoded.length (d : Decoded) (u : Taken) : Nat := outputLen (u.word 8) d.rows.length ((d.rows.getLast?.getD []).length)
/-- What of an output lies within the buffers of a slip. -/
def Decoded.parts (d : Decoded) (u : Taken) : List (Nat × List Byte) :=
  fitRows (u.addr 5) (u.word 8) (u.word 7) d.rows ++ if (d.map.take (u.word 11)).isEmpty then [] else [(u.addr 9, d.map.take (u.word 11))]
/-- Words 2 to 6 of the completion. -/
def Decoded.words (d : Decoded) (u : Taken) : List Nat := [d.num, d.length u, 0, min (d.map.filter (· != 0#8)).length 65535, d.flags + 0xFFFF0000]
/-- The status of the completion, where everything could be written. -/
def Decoded.status (d : Decoded) (u : Taken) : Nat :=
  if u.word 7 < d.length u ∨ u.word 11 < d.map.length then 0x0013 else if bitAt d.flags 11 then stUnmasked else stSuccess

/-- The picture is out: the stream has released it, and its slip completes. -/
def State.outputDone (s : State) (n : Nat) (u : Taken) (d : Decoded) : State :=
  (s.setStream u.streamField { s.stream u.streamField with lastReleased := some d.num }).finish n u (d.status u) 0 (d.words u)

theorem State.finishById_eq {n k id : Nat} {u : Taken} (hid : (s.ring n).byId id = some u) (hk : (s.ring n).placeOf id = some k)
    (hm : s.mayComplete n k u = true) (st : Nat) (w : List Nat) : s.finishById n id st w = s.finish n u st 0 w := by
  rw [State.finishById, State.finishByIdX, hid, hk]
  dsimp only
  rw [State.finishExtra, if_pos hm]

/-- An output all of whose parts lie in the host window is written, and its slip completes. -/
theorem State.writeDecoded_eq {v : State} {n k : Nat} {u : Taken} {d : Decoded} {l : List (List (Nat × Nat) × List Byte)}
    (h : s.outPieces n (d.parts u) = (v, .ok l)) (hap : ∀ q ∈ l, ∀ r ∈ q.1, v.aperture r.1 = some 8) (hid : (v.ring n).byId u.id = some u)
    (hk : (v.ring n).placeOf u.id = some k) (hm : v.mayComplete n k u = true) (s0 : State) :
    s.writeDecoded n u d s0 = ((v.writeParts l).outputDone n u d, true) := by
  obtain ⟨⟨m, hhost⟩, hfold⟩ := State.writeParts_host hap
  rw [State.writeDecoded]
  dsimp only
  rw [show (fitRows (u.addr 5) (u.word 8) (u.word 7) d.rows ++ if (d.map.take (u.word 11)).isEmpty then [] else [(u.addr 9, d.map.take (u.word 11))]) =
    d.parts u from rfl, h]
  dsimp only
  rw [hfold]
  dsimp only
  rw [if_pos rfl, State.finishById_eq (u := u) (k := k)]
  · rfl
  all_goals rw [hhost]
  · exact hid
  · exact hk
  · exact hm

/-- Where the buffers have no room for anything nothing is written. -/
theorem Decoded.parts_eq_nil {d : Decoded} {u : Taken} (h : u.word 7 = 0 ∧ u.word 11 = 0) : d.parts u = [] := by
  rw [Decoded.parts, h.1, h.2, fitRows]
  simp

theorem Decoded.status_truncated {d : Decoded} {u : Taken} (h : u.word 7 = 0 ∧ u.word 11 = 0) (hm : d.map ≠ []) : d.status u = 0x0013 := by
  rw [Decoded.status, if_pos]
  rw [h.2]
  exact .inr (List.length_pos_iff.2 hm)

/-- A map that its buffer has room for is written out whole. -/
theorem Decoded.parts_of_map {d : Decoded} {u : Taken} (hm : d.map ≠ []) (hl : d.map.length ≤ u.word 11) :
    d.parts u = fitRows (u.addr 5) (u.word 8) (u.word 7) d.rows ++ [(u.addr 9, d.map.take (u.word 11))] := by
  rw [Decoded.parts, if_neg]
  rw [List.take_of_length_le hl]
  simpa using hm

/-- An output that fits, of which no flag but REF_SUBST is raised. -/
theorem Decoded.status_success {d : Decoded} {u : Taken} (hl : d.length u ≤ u.word 7) (hm : d.map.length ≤ u.word 11) (hf : d.flags = substFlag d.map) :
    d.status u = stSuccess := by
  rw [Decoded.status, if_neg (by omega), hf, substFlag]
  split <;> rfl

theorem Decoder.decode_flags (d : Decoder) (p : ParamSet) (a : CodecAu) (lost : List Nat) (flags : Nat) :
    (d.decode p a lost flags).flags = flags + (if a.hashBad then 2 ^ 9 else 0) + substFlag (d.decode p a lost flags).map := rfl

/-- What the output of a picture leaves of the state in which it has been written. -/
theorem State.outputDone_spec (s : State) (n : Nat) (u : Taken) (d : Decoded) :
    s.completes (s.outputDone n u d) n u (d.status u) 0 (d.words u) ∧
    (s.outputDone n u d).stream u.streamField = { s.stream u.streamField with lastReleased := some d.num } ∧
    s.frame (s.outputDone n u d) (.streams :: s.complParts) (s.complFields n) := s.setStream_finish_spec ..

/-! ### The bumping process puts a picture out (R135) -/

/-- The decoder in which the picture of a slip waits no longer. -/
def Decoder.unwait (d : Decoder) (slip : Option (Nat × Nat)) : Decoder :=
  Decoder.tidy { d with dpb := d.dpb.map fun q => if q.slip = slip then { q with slip := none } else q }

theorem State.unwait_eq (s : State) (m : Nat) (slip : Option (Nat × Nat)) :
    s.unwait m slip = s.setStream m { s.stream m with dec := (s.stream m).dec.unwait slip } := rfl

theorem Decoder.unwait_waiting {d : Decoder} {q : DpbPic} (h : d.waiting = [q]) : (d.unwait q.slip).waiting = [] := by
  rw [Decoder.waiting_eq_nil]
  intro v hv
  obtain ⟨w, hw, rfl⟩ := List.mem_map.1 (Decoder.mem_tidy hv)
  split
  next => rfl
  next hne =>
    by_contra hs
    have hmem : w ∈ d.waiting := List.mem_filter.2 ⟨hw, Option.isSome_iff_ne_none.2 hs⟩
    rw [h, List.mem_singleton] at hmem
    exact hne (hmem ▸ rfl)

/-- What the output of the waiting picture is to be. -/
def DpbPic.output (q : DpbPic) (num : Nat) : Decoded := { num := num % 2 ^ 32, rows := q.y ++ q.cb ++ q.cr, map := q.map, flags := q.flags }

/-- A picture is out: it has its number, and waits no longer. -/
def State.bumped (s : State) (m : Nat) (slip : Option (Nat × Nat)) : State :=
  (s.setStream m { s.stream m with nextPic := (s.stream m).nextPic + 1 }).unwait m slip

theorem State.bumped_eq (s : State) (m : Nat) (slip : Option (Nat × Nat)) : ∃ y, s.bumped m slip = (s.setStream m { s.stream m with nextPic := (s.stream m).nextPic + 1 }).setStream m y ∧
    y.nextPic = (s.stream m).nextPic + 1 ∧ y.lastReleased = (s.stream m).lastReleased ∧ y.dec = (s.stream m).dec.unwait slip := by
  refine ⟨_, rfl, ?_⟩
  rw [State.stream_setStream]
  exact ⟨rfl, rfl, rfl⟩

theorem State.bumpOne_eq {v : State} {m n : Nat} {u : Taken} {q : DpbPic} (hq : (s.stream m).dec.first = some q) (hs : q.slip = some (n, u.id))
    (hid : (s.ring n).byId u.id = some u) (hw : s.slipWaits n u = false) (hd : s.writeDecoded n u (q.output (s.stream m).nextPic) s = (v, true)) :
    s.bumpOne m = (v.bumped m q.slip, true) := by
  rw [State.bumpOne]
  dsimp only
  rw [hq]
  dsimp only
  rw [hs, Option.bind_some]
  dsimp only
  rw [hid, Option.map_some]
  dsimp only
  rw [hw, if_neg Bool.false_ne_true]
  rw [show ({ num := (s.stream m).nextPic % 2 ^ 32, rows := q.y ++ q.cb ++ q.cr, map := q.map, flags := q.flags } : Decoded) = q.output (s.stream m).nextPic from rfl, hd]
  rfl

end Sys2Proof.Machine

namespace Sys2Proof.Machine
set_option Elab.async false

variable {s t : State} {ps : List Part} {fs : List Fld}

section Output
variable {n k : Nat} {u : Taken}

/-- Only the rings matter of a state in which a slip has completed. -/
theorem State.completes_of_rings {v : State} {st x : Nat} {w : List Nat} (h : s.completes t n u st x w) (hr : v.rings = t.rings) :
    s.completes v n u st x w := by
  have hring := State.ring_of_rings hr
  simpa only [State.completes, State.answered, hring] using h

theorem State.frame_host (s : State) (m : Tab Byte) : s.frame { s with host := m } [.host] [] := by
  refine ⟨fun p hp => ?_, fun _ _ _ => rfl⟩
  cases p
  case host => exact absurd (List.mem_singleton.2 rfl) hp
  all_goals simp [Part.same, State.dramByte, State.queuedWrite, State.chan, State.chanAt, State.damageOf]

/-- A completion after changes of rings, streams and host memory, as the state before them sees it. -/
theorem State.frame.completion {v : State} {qs : List Part} (h : s.frame t qs []) (g : t.frame v (.streams :: t.complParts) (t.complFields n))
    (hqs : Part.hostFn ∉ qs) (hin : ∀ p ∈ qs, p ∈ ps) (hps : ∀ p ∈ Part.streams :: s.complParts, p ∈ ps) : s.frame v ps (s.complFields n) := by
  have hfn : t.hostFn = s.hostFn := h.1 .hostFn hqs
  rw [State.complParts_congr hfn, State.complFields_congr hfn (h.get _ (by simp [HIF.RP_CFG_VECTOR]) (fun _ hg => nomatch hg))] at g
  exact (h.mono hin (fun _ hf => nomatch hf)).trans (g.mono hps fun _ hf => hf)

/-- What the output of the waiting picture leaves: its slip has completed, the picture has its number, and nothing else has changed. -/
theorem State.bumped_outputDone_spec (s : State) (n : Nat) (u : Taken) (d : Decoded) (slip : Option (Nat × Nat)) :
    let t := (s.outputDone n u d).bumped u.streamField slip
    s.completes t n u (d.status u) 0 (d.words u) ∧ (t.stream u.streamField).nextPic = (s.stream u.streamField).nextPic + 1 ∧
    (t.stream u.streamField).lastReleased = some d.num ∧ (t.stream u.streamField).dec = (s.stream u.streamField).dec.unwait slip ∧
    s.frame t (.streams :: s.complParts) (s.complFields n) := by
  obtain ⟨hcompl, hstr, hfr⟩ := s.outputDone_spec n u d
  obtain ⟨y, hy, hnext, hlast, hdec⟩ := (s.outputDone n u d).bumped_eq u.streamField slip
  rw [hstr] at hnext hlast hdec
  dsimp only
  rw [hy, State.stream_setStream]
  exact ⟨State.completes_of_rings hcompl (by rw [State.setStream_rings, State.setStream_rings]), hnext, hlast, hdec,
    (hfr.setStream _ _ (by simp)).setStream _ _ (by simp)⟩

theorem State.slipWaits_congr (hq : t.mmu.queue = s.mmu.queue) (ho : t.mmu.outside = s.mmu.outside) {v : Taken} (hid : v.id = u.id) :
    t.slipWaits n v = s.slipWaits n u := by rw [State.slipWaits, hq, ho, hid, State.slipWaits]

/-- The waiting picture, where none may be reordered and all that its slip's buffers hold of it lies in the host window, is put out. -/
theorem State.putOut_written {m num : Nat} {v : State} {q : DpbPic} {p : ParamSet} {l : List (List (Nat × Nat) × List Byte)} (hm : u.streamField = m)
    (hwait : (s.stream m).dec.waiting = [q]) (hage : q.age = 0) (hslip : q.slip = some (n, u.id)) (hnum : (s.stream m).nextPic = num)
    (hid : (s.ring n).byId u.id = some u) (hk : (s.ring n).placeOf u.id = some k) (hmay : s.mayComplete n k u = true) (hw : s.slipWaits n u = false)
    (hp : p.reorder = 0) (hout : s.outPieces n ((q.output num).parts u) = (v, .ok l)) (hap : ∀ q ∈ l, ∀ r ∈ q.1, v.aperture r.1 = some 8) :
    s.putOut m (fun d => d.bumps p) = (((v.writeParts l).outputDone n u (q.output num)).bumped m q.slip, true) := by
  subst hm hnum
  have hfr := State.frame_outPieces_ok hout
  have hring : v.ring n = s.ring n := State.ring_of_rings (hfr.1 .rings (by simp)) n
  obtain ⟨⟨h, hhost⟩, -⟩ := State.writeParts_host hap
  have hstr : (v.writeParts l).stream u.streamField = s.stream u.streamField := by
    rw [hhost]
    exact State.stream_of_streams (hfr.1 .streams (by simp)) _
  have hwrite := State.writeDecoded_eq (s := s) (k := k) hout hap (by rw [hring, hid]) (by rw [hring, hk])
    (by rw [State.mayComplete_congr hring, hmay]) s
  refine State.putOut_one hwait ?_ (State.bumpOne_eq (Decoder.first_of_waiting hwait) hslip hid hw hwrite) ?_
  · rw [Decoder.bumps_of_waiting hwait hage, hp]
    rfl
  · obtain ⟨-, -, -, hdec, -⟩ := (v.writeParts l).bumped_outputDone_spec n u (q.output (s.stream u.streamField).nextPic) q.slip
    rw [hdec, hstr]
    exact Decoder.unwait_waiting hwait

/-- The slip of an access unit that has been decoded, where it may complete. -/
theorem State.heldAu_slip {p : ParamSet} {a : CodecAu} {bad : Bool} {s0 : State} (hr : s.rings = s0.rings) (hid : (s0.ring n).byId u.id = some u)
    (hk : (s0.ring n).placeOf u.id = some k) (hmay : s0.mayComplete n k u = true) :
    ((s.heldAu n u p a bad).ring n).byId u.id = some { u with started := true } ∧ ((s.heldAu n u p a bad).ring n).placeOf u.id = some k ∧
    (s.heldAu n u p a bad).mayComplete n k { u with started := true } = true := by
  have hring : (s.heldAu n u p a bad).ring n = (s0.ring n).start u.id := by rw [State.ring_heldAu, State.ring_of_rings hr]
  exact ⟨by rw [hring, Ring.byId_start hid], by rw [hring, Ring.placeOf_start, hk], State.mayComplete_start hring hmay⟩

/-- An access unit whose picture need not wait is put out at once, as far as the buffers of its slip hold it. -/
theorem State.heldAu_putOut {v s0 : State} {p : ParamSet} {a : CodecAu} {bad : Bool} {d : Decoded} {l : List (List (Nat × Nat) × List Byte)}
    (h : (s.stream u.streamField).TakesAu u a p) (hr : s.rings = s0.rings) (hid : (s0.ring n).byId u.id = some u)
    (hk : (s0.ring n).placeOf u.id = some k) (hmay : s0.mayComplete n k u = true) (hw : s.slipWaits n u = false) (hp : p.reorder = 0)
    (hd : d = (((s.stream u.streamField).dec.meets a).shownPic p a bad (n, u.id)).output (s.stream u.streamField).nextPic)
    (hout : (s.heldAu n u p a bad).outPieces n (d.parts u) = (v, .ok l)) (hap : ∀ q ∈ l, ∀ r ∈ q.1, v.aperture r.1 = some 8) :
    ∃ t, (s.heldAu n u p a bad).putOut u.streamField (fun d => d.bumps p) = (t, true) ∧
      (v.writeParts l).completes t n u (d.status u) 0 (d.words u) ∧ (t.stream u.streamField).nextPic = (s.stream u.streamField).nextPic + 1 ∧
      (t.stream u.streamField).lastReleased = some d.num ∧ (t.stream u.streamField).dec.waiting = [] ∧
      (v.writeParts l).frame t (.streams :: (v.writeParts l).complParts) ((v.writeParts l).complFields n) := by
  subst hd
  obtain ⟨hid', hk', hmay'⟩ := State.heldAu_slip (p := p) (a := a) (bad := bad) hr hid hk hmay
  have hwait := State.heldAu_waiting h n bad
  have hstr : (v.writeParts l).stream u.streamField = (s.heldAu n u p a bad).stream u.streamField := by
    obtain ⟨⟨m, hm⟩, -⟩ := State.writeParts_host hap
    rw [hm]
    exact State.stream_of_streams ((State.frame_outPieces_ok hout).1 .streams (by simp)) _
  obtain ⟨hcompl, hnext, hlast, hdec, hfr⟩ := (v.writeParts l).bumped_outputDone_spec n { u with started := true }
    ((((s.stream u.streamField).dec.meets a).shownPic p a bad (n, u.id)).output (s.stream u.streamField).nextPic) (some (n, u.id))
  refine ⟨_, State.putOut_written (u := { u with started := true }) rfl hwait rfl rfl (by rw [State.stream_heldAu]) hid' hk' hmay' hw hp hout hap,
    hcompl, hnext.trans ?_, hlast, ?_, hfr⟩
  · show ((v.writeParts l).stream u.streamField).nextPic + 1 = _
    rw [hstr, State.stream_heldAu]
  · refine (congrArg Decoder.waiting (hdec.trans ?_)).trans (Decoder.unwait_waiting hwait)
    show ((v.writeParts l).stream u.streamField).dec.unwait _ = _
    rw [hstr]
    rfl

/-- A slip whose picture was held and put out has completed, as the state before it was held sees it. -/
theorem State.completes_of_heldAu {v : State} {p : ParamSet} {a : CodecAu} {bad : Bool} {st x : Nat} {w : List Nat}
    (h : (s.heldAu n u p a bad).completes v n u st x w) : s.completes v n u st x w :=
  State.completes_congr (State.setStream_rings ..) (State.setStream_hostFn ..) (State.get_setStream ..) (State.completes_of_started h)

/-- Parts of an output that are written through the host window change host memory alone. -/
theorem State.frame_writeParts_host {l : List (List (Nat × Nat) × List Byte)} (h : ∀ q ∈ l, ∀ r ∈ q.1, s.aperture r.1 = some 8) :
    s.frame (s.writeParts l) [.host] [] ∧ ∀ {v : State} {st x : Nat} {w : List Nat}, (s.writeParts l).completes v n u st x w → s.completes v n u st x w := by
  obtain ⟨⟨m, hm⟩, -⟩ := State.writeParts_host h
  rw [hm]
  exact ⟨s.frame_host m, State.completes_congr rfl rfl rfl⟩

/-- A picture held under its slip, where pictures may be reordered, waits. -/
theorem State.heldAu_waits {p : ParamSet} {a : CodecAu} (h : (s.stream u.streamField).TakesAu u a p) (hp : 1 ≤ p.reorder) (n : Nat) (bad : Bool) :
    (s.heldAu n u p a bad).putOut u.streamField (fun d => d.bumps p) = (s.heldAu n u p a bad, true) := by
  refine State.putOut_idle (.inl ?_)
  rw [Decoder.bumps_of_waiting (State.heldAu_waiting h n bad) rfl]
  exact decide_eq_false (by omega)

end Output

/-! ### What the slips of pictures come to -/

section Slips
variable {n k m : Nat} {u : Taken}

/-- DECODE_PICTURE for a decoder of a standard codec. -/
theorem exec_decodePicture_codec {s1 : State} {input : List Byte} {bad : Bool} (hu : s.slipAt n k 0x05 = some u) (hw : s.slipWaits n u = false)
    (hr : u.reservedOk = true) (hs : s.streamFor n u [6] = true) (ht : s.touched u.streamField = false)
    (hread : s.slipRead n u (u.addr 2) (u.word 4) = (s1, some (input, bad))) (h1 : s1.streams = s.streams) (lost : List (Nat × Nat)) (au : CodecAu) :
    exec (.decodePicture n k lost au) s = .next (s1.decodeCodec n k u au bad lost) := by
  obtain ⟨hopen, hrp, hkind⟩ := State.streamFor_iff.1 hs
  have hs' : s.streamFor n u [3, 6] = true := State.streamFor_iff.2 ⟨hopen, hrp, List.mem_cons_of_mem _ hkind⟩
  refine (execDecodePicture_eq hu hw hr hs' ht hread lost au).trans ?_
  rw [if_neg]
  rw [State.stream_of_streams h1, List.mem_singleton.1 hkind]
  decide

/-- DECODE_PICTURE for a Krema decoder. -/
theorem exec_decodePicture_krema {s1 : State} {input : List Byte} {bad : Bool} (hu : s.slipAt n k 0x05 = some u) (hw : s.slipWaits n u = false)
    (hr : u.reservedOk = true) (hs : s.streamFor n u [3] = true) (ht : s.touched u.streamField = false)
    (hread : s.slipRead n u (u.addr 2) (u.word 4) = (s1, some (input, bad))) (h1 : s1.streams = s.streams) (lost : List (Nat × Nat)) (au : CodecAu) :
    exec (.decodePicture n k lost au) s = .next (s1.decodeKrema n k u input bad lost) := by
  obtain ⟨hopen, hrp, hkind⟩ := State.streamFor_iff.1 hs
  have hs' : s.streamFor n u [3, 6] = true := State.streamFor_iff.2 ⟨hopen, hrp, List.mem_cons.2 (.inl (List.mem_singleton.1 hkind))⟩
  refine (execDecodePicture_eq hu hw hr hs' ht hread lost au).trans ?_
  rw [if_pos]
  rw [State.stream_of_streams h1, List.mem_singleton.1 hkind]

/-- An access unit that a decoder in which no picture waits takes and shows. -/
theorem exec_decodePicture_shown {s1 : State} {bad : Bool} {au : CodecAu} {p : ParamSet}
    (hexec : ∀ lost, exec (.decodePicture n k lost au) s = .next (s1.decodeCodec n k u au bad lost)) (h : (s1.stream u.streamField).TakesAu u au p)
    (hh : s1.power.held = false) :
    exec (.decodePicture n k [] au) s = .next ((s1.heldAu n u p au bad).putOut u.streamField fun d => d.bumps p).1 := by
  rw [hexec, State.decodeCodec_taken h, State.takeAu_shown h hh]

/-- An access unit that is not decoded leaves its parameter sets and completes its slip. -/
theorem State.decodeCodec_refused {st : Nat} {x : Stream} {au : CodecAu} {bad : Bool} {lost : List (Nat × Nat)} {s0 : State}
    (hr : s.rings = s0.rings) (hmay : s0.mayComplete n k u = true)
    (h : s.decodeCodec n k u au bad lost = (s.setStream u.streamField x).finishInOrder n k u st []) :
    s.completes (s.decodeCodec n k u au bad lost) n u st 0 [] ∧ (s.decodeCodec n k u au bad lost).stream u.streamField = x ∧
    s.frame (s.decodeCodec n k u au bad lost) (.streams :: s.complParts) (s.complFields n) := by
  have hmay' : (s.setStream u.streamField x).mayComplete n k u = true := by
    rw [State.mayComplete_congr (State.ring_of_rings ((State.setStream_rings ..).trans hr) n), hmay]
  rw [h, State.finishInOrder_eq hmay']
  exact s.setStream_finish_spec ..

theorem State.decodeCodec_unsupported {au : CodecAu} {p : ParamSet}
    (hp : ((s.stream u.streamField).dec.receive au.sets).active (s.stream u.streamField).geo.codec au = some p)
    (hr : p.refused (s.stream u.streamField).geo = true) (bad : Bool) (lost : List (Nat × Nat)) : s.decodeCodec n k u au bad lost =
    (s.setStream u.streamField { s.stream u.streamField with dec := (s.stream u.streamField).dec.receive au.sets }).finishInOrder n k u 0x0008 [] := by
  rw [State.decodeCodec]
  dsimp only
  rw [hp]
  dsimp only
  rw [if_pos hr]

/-- An access unit is skipped whose parameter sets have not come, before the start point, or left out at it. -/
def Stream.skips (x : Stream) (au : CodecAu) : Bool :=
  match (x.dec.receive au.sets).active x.geo.codec au with
  | none => true
  | some p => !p.refused x.geo && ((!x.dec.started && !startsAt (bitAt x.geo.flags 0) au) || (au.rasl && ((x.dec.receive au.sets).enter au).dropRasl))

theorem State.decodeCodec_skipped {au : CodecAu} (h : (s.stream u.streamField).skips au = true) (bad : Bool) (lost : List (Nat × Nat)) :
    s.decodeCodec n k u au bad lost =
    (s.setStream u.streamField { s.stream u.streamField with dec := (s.stream u.streamField).dec.receive au.sets }).finishInOrder n k u 0x000A [] := by
  rw [Stream.skips] at h
  rw [State.decodeCodec]
  dsimp only
  revert h
  cases ((s.stream u.streamField).dec.receive au.sets).active (s.stream u.streamField).geo.codec au with
  | none => exact fun _ => rfl
  | some p =>
    intro h
    dsimp only at h ⊢
    rw [Bool.and_eq_true, Bool.not_eq_true'] at h
    obtain ⟨hsup, h⟩ := h
    rw [hsup, if_neg Bool.false_ne_true, Decoder.receive_started]
    by_cases hstart : (!(s.stream u.streamField).dec.started && !startsAt (bitAt (s.stream u.streamField).geo.flags 0) au) = true
    · rw [if_pos hstart]
    · rw [if_neg hstart, if_pos (((Bool.or_eq_true ..).mp h).resolve_left hstart)]

/-- What a Krema picture that was decoded whole is to be written as. -/
def KDecOut.output (o : KDecOut) : Decoded :=
  { num := o.number, rows := o.rows, map := o.map,
    flags := (if o.colophonUnverified then 2 ^ 7 else 0) + (if o.shaMismatch then 2 ^ 8 else 0) + substFlag o.map }

/-- A Krema picture for which the buffers of its slip have no room. -/
theorem State.decodeKrema_truncated {input : List Byte} {d : KDec} {o : KDecOut}
    (hdec : (s.stream u.streamField).kdec.decode input [] = (d, some o)) (hh : s.power.held = false) (hp : 2 * o.seq.width ≤ u.word 8)
    (hcap : u.word 7 = 0 ∧ u.word 11 = 0) (hid : (s.ring n).byId u.id = some u) (hk : (s.ring n).placeOf u.id = some k) (hmay : s.mayComplete n k u = true) :
    s.decodeKrema n k u input false [] = (s.setStream u.streamField { s.stream u.streamField with kdec := d }).outputDone n u o.output := by
  have hring : (s.setStream u.streamField { s.stream u.streamField with kdec := d }).ring n = s.ring n := State.ring_of_rings (State.setStream_rings ..) n
  have hwrite := State.writeDecoded_eq (s := s.setStream u.streamField { s.stream u.streamField with kdec := d }) (n := n) (u := u) (k := k) (d := o.output)
    (l := []) (by rw [Decoded.parts_eq_nil hcap]; rfl) (fun _ h => nomatch h) (by rw [hring, hid]) (by rw [hring, hk])
    (by rw [State.mayComplete_congr hring, hmay]) s
  rw [State.decodeKrema]
  dsimp only
  rw [List.map_nil, hdec]
  dsimp only
  rw [if_neg (Nat.not_lt.2 hp), show ∀ v : State, v.reportLost u.streamField (List.filter _ []) = v from fun _ => rfl, State.setStream_power, hh,
    if_neg Bool.false_ne_true]
  exact congrArg Prod.fst hwrite

theorem State.decodeKrema_unsequenced {input : List Byte} {lost : List (Nat × Nat)}
    (hdec : ((s.stream u.streamField).kdec.decode input (lost.map (·.1))).2.isNone = true) (bad : Bool) :
    ∃ x, s.decodeKrema n k u input bad lost = (s.setStream u.streamField x).finishInOrder n k u 0x0009 [] := by
  rw [State.decodeKrema]
  dsimp only
  split
  next d h => exact ⟨_, rfl⟩
  next d o h =>
    rw [h] at hdec
    exact nomatch hdec

end Slips
end Sys2Proof.Machine

section
set_option Elab.async false
open Sys2Proof Sys2Proof.Machine

/-- Settles O47: a host picture is taken in by `State.takePicture_eq`; an access unit is held by `State.heldAu`, where it waits (`State.heldAu_waits`) or is put
out at once (`State.heldAu_putOut`); what is refused or skipped completes by `State.finishInOrder_spec` and `State.decodeCodec_refused`. -/
theorem hostPicturesAreTakenInAndDecoded : Obligations.HostPicturesAreTakenInAndDecoded := by
  unfold Obligations.HostPicturesAreTakenInAndDecoded
  refine ⟨?taken, ?badPitch, ?exhausted, ?badStream, ?held, ?written, ?truncated, ?skipped, ?unsupported, ?noSequence, ?kremaTruncated⟩
  case taken =>
    intro s n k m u x v hu hw hr hs hm hx hpitch hnum hread hsame hdev hsrc hrate
    subst hm hx
    obtain ⟨hstreams, hrings⟩ := hsame
    obtain ⟨hopen, -, -⟩ := State.streamFor_iff.1 hs
    generalize hs1 : (s.readPicture n u (s.stream u.streamField)).1 = s1 at *
    have hread' : s.readPicture n u (s.stream u.streamField) = (s1, some v) := Prod.ext hs1 hread
    have hstr := State.stream_of_streams hstreams
    have hopens : s1.openStreams = s.openStreams := by rw [State.openStreams, hstreams, State.openStreams]
    have htake := State.takePicture_eq (s := s1) (n := n) v rfl (by rw [hstr, hopen]) (by rw [State.developed, hopens]; exact hdev)
      (by simpa [hopens, hstr] using hsrc) (by rw [hstr]; exact hrate)
    rw [hstr] at htake
    have hexec : exec (.encodePicture n k) s = .next (s1.takePicture n u v) := by
      refine (execEncodePicture_eq hu hw hr).trans ?_
      rw [if_neg (by rw [hs]; decide), if_neg (by omega), if_neg (by omega), hread']
    refine ⟨_, hexec, ?_⟩
    dsimp only
    rw [htake, State.stream_setStream]
    refine ⟨rfl, Stream.withPic_hostInput .., fun j hj => ?_, (State.frame.rfl'.setRing _ _ (by simp)).setStream _ _ (by simp)⟩
    rw [State.stream_setStream_ne _ _ hj, ← hstr]
    exact State.stream_of_streams (State.setRing_streams ..) _
  case badPitch =>
    intro s n k u hu hw hr hs hpitch hmay
    refine ⟨_, (execEncodePicture_eq hu hw hr).trans ?_, State.finishInOrder_spec hmay ..⟩
    rw [if_neg (by rw [hs]; decide), if_pos hpitch]
  case exhausted =>
    intro s n k u hu hw hr hs hpitch hnum hmay
    refine ⟨_, (execEncodePicture_eq hu hw hr).trans ?_, State.finishInOrder_spec hmay ..⟩
    rw [if_neg (by rw [hs]; decide), if_neg (by omega), if_pos hnum]
  case badStream =>
    intro s n k u hu hw hr hs hmay
    refine ⟨_, (execEncodePicture_eq hu hw hr).trans ?_, State.finishInOrder_spec hmay ..⟩
    rw [if_pos hs]
  case held =>
    intro s s1 n k m u x au input bad p d hu hw hr hs hm hx ht hread hsame hd hact hsup hstart hkept hpitch hidle hshown hh hp
    subst hm hx hd
    obtain ⟨hstreams, hrings, -, -⟩ := hsame
    have hstr := State.stream_of_streams hstreams u.streamField
    have htakes : (s1.stream u.streamField).TakesAu u au p := hstr ▸ ⟨hact, hsup, hstart, hkept, hpitch, hidle, hshown⟩
    refine ⟨_, exec_decodePicture_shown (exec_decodePicture_codec hu hw hr hs ht hread hstreams · au) htakes hh, ?_⟩
    rw [State.heldAu_waits htakes hp]
    dsimp only
    rw [State.stream_heldAu, State.ring_heldAu, hstr, State.ring_of_rings hrings]
    refine ⟨rfl, rfl, fun j hj => ?_, rfl, State.frame_heldAu ..⟩
    rw [State.heldAu, State.startSlip_eq, State.stream_of_streams (State.setRing_streams ..), State.stream_setStream_ne _ _ hj,
      State.stream_of_streams hstreams]
  case written =>
    intro s s1 s2 n k m u x au input bad p d q rows l hu hw hr hs hm hx ht hread hsame hd hact hsup hstart hkept hpitch hidle hshown hh hp hbad hq hrows
      hlen hmap hne hhash hplace hout hap hmay
    subst hm hx hd hbad hrows
    obtain ⟨hstreams, hrings, hqueue, hout'⟩ := hsame
    have hstr := State.stream_of_streams hstreams u.streamField
    obtain ⟨hid, hk⟩ := hplace
    have htakes : (s1.stream u.streamField).TakesAu u au p := hstr ▸ ⟨hact, hsup, hstart, hkept, hpitch, hidle, hshown⟩
    have hpieces : (s1.heldAu n u p au false).outPieces n
        (fitRows (u.addr 5) (u.word 8) (u.word 7) (q.y ++ q.cb ++ q.cr) ++ [(u.addr 9, q.map.take (u.word 11))]) = (s2, .ok l) := by
      rw [State.heldAu, hstr]
      split at hout
      next v l' hv =>
        rw [Bool.and_eq_true, decide_eq_true_eq, decide_eq_true_eq] at hout
        obtain ⟨rfl, rfl⟩ := hout
        exact hv
      next => exact nomatch hout
    have hap' : ∀ q ∈ l, ∀ r ∈ q.1, s2.aperture r.1 = some 8 := by simpa using hap
    have hflags : q.flags = substFlag q.map := by
      rw [hq, Decoder.decode_flags, hhash]
      simp
    obtain ⟨t, hput, hcompl, hnext, hlast, hwait, hfr⟩ := State.heldAu_putOut (d := q.output (s.stream u.streamField).nextPic) htakes hrings hid hk hmay
      ((State.slipWaits_congr hqueue hout' rfl).trans hw) hp (by rw [hstr, hq]; rfl) ((congrArg _ (Decoded.parts_of_map hne hmap)).trans hpieces) hap'
    obtain ⟨hfrHost, hback⟩ := State.frame_writeParts_host (n := n) (u := u) hap'
    rw [hstr] at hnext
    rw [Decoded.status_success (d := q.output _) hlen hmap hflags] at hcompl
    refine ⟨t, by rw [exec_decodePicture_shown (exec_decodePicture_codec hu hw hr hs ht hread hstreams · au) htakes hh, hput], ?_, hnext, hlast, hwait,
      hfr.1 .host (by simp [State.complParts]), hfrHost.completion hfr (by simp) (by simp) fun p hp => List.mem_cons_of_mem _ hp⟩
    rw [← hflags]
    exact hback hcompl
  case truncated =>
    intro s s1 n k m u x au input bad p d q rows hu hw hr hs hm hx ht hread hsame hd hact hsup hstart hkept hpitch hidle hshown hh hp hq hrows
      hcap hne hplace hmay
    subst hm hx hd hrows
    obtain ⟨hstreams, hrings, hqueue, hout'⟩ := hsame
    obtain ⟨hid, hk⟩ := hplace
    have hstr := State.stream_of_streams hstreams u.streamField
    have htakes : (s1.stream u.streamField).TakesAu u au p := hstr ▸ ⟨hact, hsup, hstart, hkept, hpitch, hidle, hshown⟩
    obtain ⟨t, hput, hcompl, hnext, -, hwait, hfr⟩ := State.heldAu_putOut (bad := bad) (l := []) (d := q.output (s.stream u.streamField).nextPic)
      htakes hrings hid hk hmay ((State.slipWaits_congr hqueue hout' rfl).trans hw) hp (by rw [hstr, hq]; rfl) (by rw [Decoded.parts_eq_nil hcap]; rfl)
      (fun _ h => nomatch h)
    rw [hstr] at hnext
    rw [Decoded.status_truncated hcap hne] at hcompl
    exact ⟨t, by rw [exec_decodePicture_shown (exec_decodePicture_codec hu hw hr hs ht hread hstreams · au) htakes hh, hput], State.completes_of_heldAu hcompl,
      hnext, hwait, (State.frame_heldAu ..).completion hfr (by simp) (by simp [State.complParts]) fun _ h => h⟩
  case skipped =>
    intro s s1 n k m u x au lost input bad hu hw hr hs hm hx ht hread hsame hskip hmay
    subst hm hx
    obtain ⟨hstreams, hrings, -, -⟩ := hsame
    have hstr := State.stream_of_streams hstreams u.streamField
    rw [← hstr] at hskip ⊢
    exact ⟨_, exec_decodePicture_codec hu hw hr hs ht hread hstreams lost au, State.decodeCodec_refused hrings hmay (State.decodeCodec_skipped hskip bad lost)⟩
  case unsupported =>
    intro s s1 n k m u x au lost input bad p hu hw hr hs hm hx ht hread hsame hact hsup hmay
    subst hm hx
    obtain ⟨hstreams, hrings, -, -⟩ := hsame
    have hstr := State.stream_of_streams hstreams u.streamField
    rw [← hstr] at hact hsup ⊢
    exact ⟨_, exec_decodePicture_codec hu hw hr hs ht hread hstreams lost au, State.decodeCodec_refused hrings hmay (State.decodeCodec_unsupported hact hsup bad lost)⟩
  case noSequence =>
    intro s s1 n k m u x au lost input bad hu hw hr hs hm hx ht hkind hread hsame hdec hmay
    subst hm hx
    obtain ⟨hstreams, hrings⟩ := hsame
    rw [← State.stream_of_streams hstreams] at hdec
    obtain ⟨y, hy⟩ := State.decodeKrema_unsequenced (n := n) (k := k) hdec bad
    refine ⟨_, exec_decodePicture_krema hu hw hr hs ht hread hstreams lost au, ?_⟩
    rw [hy, State.finishInOrder_eq]
    · obtain ⟨hcompl, -, hfr⟩ := s1.setStream_finish_spec n u.streamField y u 0x0009 []
      exact ⟨hcompl, hfr⟩
    · rw [State.mayComplete_congr (State.ring_of_rings ((State.setStream_rings ..).trans hrings) n), hmay]
  case kremaTruncated =>
    intro s s1 n k m u x au input d o hu hw hr hs hm hx ht hkind hread hsame hdec hh hpitch hcap hmap hplace hmay
    subst hm hx
    obtain ⟨hstreams, hrings⟩ := hsame
    obtain ⟨hid, hk⟩ := hplace
    have hring := State.ring_of_rings hrings n
    rw [← hring] at hid hk
    rw [← State.stream_of_streams hstreams] at hdec
    refine ⟨_, exec_decodePicture_krema hu hw hr hs ht hread hstreams [] au, ?_⟩
    rw [State.decodeKrema_truncated hdec hh hpitch hcap hid hk ((State.mayComplete_congr hring).trans hmay)]
    obtain ⟨hcompl, hstr, hfr⟩ := (s1.setStream u.streamField { s1.stream u.streamField with kdec := d }).outputDone_spec n u o.output
    rw [State.stream_setStream] at hstr
    rw [Decoded.status_truncated hcap hmap] at hcompl
    rw [hstr]
    exact ⟨State.completes_congr (State.setStream_rings ..) (State.setStream_hostFn ..) (State.get_setStream ..) hcompl, rfl, rfl,
      (State.frame.rfl'.setStream (ps := [.streams]) _ _ (by simp)).completion hfr (by simp) (by simp) fun _ h => h⟩

end

/-! PROOFS of the statements of 07_call_slips_and_streams.md. -/

/-! ### Slips that use no stream (R204 to R207) -/

namespace Sys2Proof.Machine
set_option Elab.async false

variable {s t : State} {ps : List Part} {fs : List Fld}

/-- A slip finishes after a change that the rings, the function and the registers do not see. -/
theorem State.finish_of_unseen {p : Part} (h : s.frame t [p] []) (hp : p ≠ .rings) (hq : p ≠ .hostFn) (n : Nat) (u : Taken) (st x : Nat) (w : List Nat) :
    s.completes (t.finish n u st x w) n u st x w ∧ s.frame (t.finish n u st x w) (p :: s.complParts) (s.complFields n) := by
  have hrings : t.rings = s.rings := h.1 .rings (by simpa using hp.symm)
  have hfn : t.hostFn = s.hostFn := h.1 .hostFn (by simpa using hq.symm)
  have hfin := t.frame_finish n u st x w
  rw [State.complParts_congr hfn, State.complFields_congr hfn (h.get _ (by show 11 + 6 ≤ 32; decide) (by simp))] at hfin
  exact ⟨State.completes_congr hrings hfn (h.get _ (by show 0 + 1 ≤ 32; decide) (by simp)) (t.completes_finish ..),
    (h.mono (by simp) (by simp)).trans (hfin.mono (fun _ hm => List.mem_cons_of_mem _ hm) fun _ hm => hm)⟩

/-- A slip that is finished at once completes, and nothing else changes. -/
theorem State.finish_spec (s : State) (n : Nat) (u : Taken) (st x : Nat) (w : List Nat) :
    s.completes (s.finish n u st x w) n u st x w ∧ s.frame (s.finish n u st x w) s.complParts (s.complFields n) :=
  ⟨s.completes_finish .., s.frame_finish ..⟩

theorem State.mayStart_congr (h : t.rings = s.rings) (n k : Nat) (u : Taken) : t.mayStart n k u = s.mayStart n k u := by
  rw [State.mayStart, State.earlier, State.ring_of_rings h, State.mayStart, State.earlier]

theorem State.slipAt_congr (h : t.rings = s.rings) (n k op : Nat) : t.slipAt n k op = s.slipAt n k op := by
  rw [State.slipAt, State.slipAt, State.ring_of_rings h]
  simp only [State.mayStart_congr h]

theorem State.query_eq {n k what : Nat} {u : Taken} (h : s.slipAt n k 0x0B = some u) (hw : bits (u.word 1) 8 8 = what) (w : List Nat) :
    s.query n k what w = s.finish n u (if u.reservedOk then stSuccess else stBadField) 0 (if u.reservedOk then w else []) := by
  simp only [State.query, h, hw, if_true]

/-- A share is given back where it is not the last one (R402). -/
theorem State.release_shared {h u : Nat} (hl : s.isLent h = true) (hc : 1 < (s.lent h).count) :
    (s.release h u).1 = s.setLent h { s.lent h with count := (s.lent h).count - 1 } := by
  simp [State.release, hl, hc]

theorem State.lent_setLent (s : State) (h : Nat) (v : Lent) : (s.setLent h v).lent h = v := by
  rw [State.lent, State.setLent, State.pool_setPool]
  exact Tab.get_set_same ..

theorem State.lent_of_pools (h : t.pools = s.pools) (k : Nat) : t.lent k = s.lent k := by rw [State.lent, State.pool, h, State.lent, State.pool]

/-! RETURN_FOLIO of a slip that does not wait for its buffer (R205). -/

section ReturnFolio
variable {n k : Nat} {u : Taken} (h : s.slipAt n k 0x0C = some u) (hw : s.slipWaits n u = false)
include h hw

theorem execReturnFolio_reserved (hr : u.reservedOk = false) : exec (.returnFolio n k) s = .next (s.finish n u stBadField 0 []) := by
  show execReturnFolio n k s = _
  simp only [execReturnFolio, h, hw, hr, Bool.false_eq_true, if_false, if_true]

variable (hr : u.reservedOk = true)
include hr

theorem execReturnFolio_unheld (hh : s.hostHolds (u.word 2) = false) : exec (.returnFolio n k) s = .next (s.finish n u 0x0012 0 []) := by
  show execReturnFolio n k s = _
  simp only [execReturnFolio, h, hw, hr, hh, Bool.false_eq_true, Bool.true_eq_false, if_false, if_true]

variable (hh : s.hostHolds (u.word 2) = true)
include hh

theorem execReturnFolio_long (hc : bitAt (u.word 1) 8 = true) (hlen : s.poolSize (handlePool (u.word 2)) < u.word 3 + u.word 4) :
    exec (.returnFolio n k) s = .next (s.finish n u stBadField 0 []) := by
  show execReturnFolio n k s = _
  simp only [execReturnFolio, h, hw, hr, hh, hc, hlen, Bool.false_eq_true, Bool.true_eq_false, if_false, if_true]

theorem execReturnFolio_release (hc : bitAt (u.word 1) 8 = false) :
    exec (.returnFolio n k) s = .next ((if !bitAt (u.word 1) 9 then (s.release (u.word 2) 0x120).1 else s).finish n u stSuccess 0 [0]) := by
  show execReturnFolio n k s = _
  simp only [execReturnFolio, h, hw, hr, hh, hc, Bool.false_eq_true, Bool.true_eq_false, if_false, if_true]

end ReturnFolio

end Sys2Proof.Machine

section
set_option Elab.async false
open Sys2Proof Sys2Proof.Machine

/-- Settles O39: each of these slips comes to one `State.finish`, which completes it (`State.finish_spec`); a query that draws its answer and the release of a
share finish it after a change that the rings do not see (`State.finish_of_unseen`). -/
theorem slipsWithoutAStreamComplete : Obligations.SlipsWithoutAStreamComplete := by
  unfold Obligations.SlipsWithoutAStreamComplete
  refine ⟨?nop, ?unknown, ?ledger, ?stream, ?unreleased, ?digest, ?other, ?unheld, ?reserved, ?long, ?keep, ?share⟩
  case nop =>
    intro s n k u h he
    refine ⟨_, ?_, s.finish_spec n u _ 0 []⟩
    show execNop n k s = _
    simp only [execNop, h, he, List.isEmpty_nil, if_true]
  case unknown =>
    intro s n k u h hop hm
    refine ⟨_, ?_, s.finish_spec n u _ 0 []⟩
    show execUnknownOpcode n k s = _
    simp only [execUnknownOpcode, h, hop, hm, and_self, if_true]
  case ledger =>
    intro s n k u h hw hr
    refine ⟨_, ?_, s.finish_spec n u _ 0 _⟩
    show execQueryLedger n k s = _
    rw [execQueryLedger, State.query_eq h hw, hr]
    rfl
  case stream =>
    intro s n k last u h hw hr hl
    refine ⟨_, ?_, s.finish_spec n u _ 0 _⟩
    show execQueryStream n k s = _
    simp only [execQueryStream, (State.slipAt_spec h).1, hl, State.query_eq h hw, hr, if_true]
  case unreleased =>
    intro s n k u h hw hr hl
    have hdraw : s.frame s.draw.2 [.free] [] := State.frame.rfl'.free _ (by simp)
    have hslip : s.draw.2.slipAt n k 0x0B = some u := (State.slipAt_congr rfl n k _).trans h
    obtain ⟨hcompl, hfr⟩ := State.finish_of_unseen hdraw (by decide) (by decide) n u stSuccess 0 [(s.stream u.streamField).state.code, (s.stream u.streamField).cu,
      (s.stream u.streamField).su, s.draw.1 % 2 ^ 32, (s.rings.map fun e => (e.2.events.filter fun v => v.stream == some u.streamField).length).sum]
    refine ⟨_, ?_, ⟨_, hcompl⟩, hfr⟩
    show execQueryStream n k s = _
    simp only [execQueryStream, (State.slipAt_spec h).1, hl, State.query_eq hslip hw, hr, if_true]
  case digest =>
    intro s n k u h hw hr
    refine ⟨_, ?_, s.finish_spec n u _ 0 _⟩
    show execQueryDigest n k s = _
    simp only [execQueryDigest, h, hw, State.query_eq h hw, hr, if_true]
    rfl
  case other =>
    intro s n k u h hbad
    refine ⟨_, ?_, s.finish_spec n u _ 0 []⟩
    show execQueryDigest n k s = _
    obtain hw | ⟨hw, hr⟩ := hbad
    · simp only [execQueryDigest, h, hw, if_true]
    · simp only [execQueryDigest, h, hw, State.query_eq h hw, hr]
      rfl
  case unheld =>
    intro s n k u h hw hr hh
    exact ⟨_, execReturnFolio_unheld h hw hr hh, s.finish_spec ..⟩
  case reserved =>
    intro s n k u h hw hr
    exact ⟨_, execReturnFolio_reserved h hw hr, s.finish_spec ..⟩
  case long =>
    intro s n k u h hw hr hh hc hlen
    exact ⟨_, execReturnFolio_long h hw hr hh hc hlen, s.finish_spec ..⟩
  case keep =>
    intro s n k u h hw hr hh hc hk
    refine ⟨_, execReturnFolio_release h hw hr hh hc, ?_⟩
    rw [hk]
    exact s.finish_spec n u stSuccess 0 [0]
  case share =>
    intro s n k u h hw hr hh hc hk hcount
    have hlent : s.isLent (u.word 2) = true := (Bool.and_eq_true_iff.1 hh).1
    have hset : s.frame (s.setLent (u.word 2) { s.lent (u.word 2) with count := (s.lent (u.word 2)).count - 1 }) [.pools] [] :=
      State.frame.rfl'.setPool _ _ (by simp)
    obtain ⟨hcompl, hfr⟩ := State.finish_of_unseen hset (by decide) (by decide) n u stSuccess 0 [0]
    refine ⟨_, execReturnFolio_release h hw hr hh hc, ?_⟩
    rw [hk, show (if (!false) = true then (s.release (u.word 2) 0x120).1 else s) = _ from State.release_shared hlent hcount]
    have hpools := (State.frame_finish (s.setLent (u.word 2) { s.lent (u.word 2) with count := (s.lent (u.word 2)).count - 1 }) n u stSuccess 0 [0]).1 .pools
    refine ⟨hcompl, ?_, hfr⟩
    rw [State.lent_of_pools (hpools ?_), State.lent_setLent]
    rw [State.complParts]
    split <;> simp

end

/-! ### Registers of the host interface that taking and writing slips leaves (R190, R210, R225) -/

namespace Sys2Proof.Machine
set_option Elab.async false

variable {s t : State} {ps : List Part} {fs : List Fld} {n v : Nat}

/-- The registers that set up vectors and ring pairs: MSIX_MOD; RP_CFG and the bases of the rings; the MSI-X table. -/
def hostSet (off : Nat) : Prop :=
  (0x80800 ≤ off ∧ off < 0x80900) ∨ (0x81000 ≤ off ∧ off < 0x82000 ∧ off % 0x40 < 0x14) ∨ (0x84000 ≤ off ∧ off < 0x85000)

theorem hostSet_rp {c : Nat} (hn : n < 64) (hc : c < 0x14) : hostSet (0x81000 + c + 0x40 * n) := .inr (.inl (by omega))
theorem hostSet_rpCfg (hn : n < 64) : hostSet (HIF.RP_CFG n) := hostSet_rp (c := 0x10) hn (by decide)
theorem hostSet_mod (hv : v < 64) : hostSet (HIF.MSIX_MOD v) := .inl (by unfold HIF.MSIX_MOD; omega)
theorem hostSet_table {c : Nat} (hv : v < 64) (hc : c < 0x10) : hostSet (0x84000 + c + 0x10 * v) := .inr (.inr (by omega))
theorem not_hostSet_rpStat (hn : n < 64) : ¬ hostSet (HIF.RP_STAT n) := by unfold hostSet HIF.RP_STAT; omega
theorem not_hostSet_rqStat (hn : n < 64) : ¬ hostSet (HIF.RP_RQ_STAT n) := by unfold hostSet HIF.RP_RQ_STAT; omega
theorem not_hostSet_sqTail (n : Nat) : ¬ hostSet (DBL.SQ_TAIL n) := by unfold hostSet DBL.SQ_TAIL; omega
theorem not_hostSet_source (hn : n < 64) : ¬ hostSet (srcReg (29 + n)) := by unfold hostSet srcReg; omega

/-! Registers that are not the same. -/

theorem rqHead_ge (n : Nat) : 0x800000 ≤ DBL.RQ_HEAD n := by unfold DBL.RQ_HEAD; omega
theorem sqTail_ne_rqHead (n m : Nat) : DBL.SQ_TAIL n ≠ DBL.RQ_HEAD m := by unfold DBL.SQ_TAIL DBL.RQ_HEAD; omega
theorem sqTail_ne_rpStat (hn : n < 64) : DBL.SQ_TAIL n ≠ HIF.RP_STAT n := by unfold DBL.SQ_TAIL HIF.RP_STAT; omega
theorem rpStat_ne_source (hn : n < 64) : HIF.RP_STAT n ≠ srcReg (29 + n) := by unfold HIF.RP_STAT srcReg; omega
theorem sqTail_ne_source (n : Nat) : DBL.SQ_TAIL n ≠ srcReg (29 + n) := by unfold DBL.SQ_TAIL srcReg; omega
theorem rqHead_ne_source (n : Nat) : DBL.RQ_HEAD n ≠ srcReg (29 + n) := by unfold DBL.RQ_HEAD srcReg; omega
theorem rqHead_ne_rpStat (hn : n < 64) : DBL.RQ_HEAD n ≠ HIF.RP_STAT n := by unfold DBL.RQ_HEAD HIF.RP_STAT; omega

/-- Such a register is unchanged where none is written. -/
theorem State.frame.get_hostSet (h : s.frame t ps fs) (hfs : ∀ g ∈ fs, ¬ hostSet g.off) {f : Fld} (hf : hostSet f.off) (hw : f.lo + f.w ≤ 32) :
    t.get f = s.get f := h.2 f hw fun g hg => .inl fun e => hfs g hg (e ▸ hf)

section Kept
variable (h : s.frame t ps fs) (hfs : ∀ g ∈ fs, ¬ hostSet g.off)
include h hfs

theorem State.frame.get_rpCfg (hn : n < 64) (lo w : Nat) (hw : lo + w ≤ 32) : t.get ⟨HIF.RP_CFG n, lo, w⟩ = s.get ⟨HIF.RP_CFG n, lo, w⟩ :=
  h.get_hostSet hfs (hostSet_rpCfg hn) hw
theorem State.frame.ringOn (hn : n < 64) : t.ringOn n = s.ringOn n := State.on_eq_of_get (h.get_rpCfg hfs hn 0 1 (by decide))
theorem State.frame.sqSize (hn : n < 64) : t.sqSize n = s.sqSize n := congrArg (2 ^ ·) (h.get_rpCfg hfs hn 1 5 (by decide))
theorem State.frame.rqSize (hn : n < 64) : t.rqSize n = s.rqSize n := congrArg (2 ^ ·) (h.get_rpCfg hfs hn 6 5 (by decide))
theorem State.frame.sqBase (hn : n < 64) : t.sqBase n = s.sqBase n := by
  rw [State.sqBase, h.get_hostSet hfs (hostSet_rp (c := 0) hn (by decide)) (Nat.le_of_ble_eq_true rfl),
    h.get_hostSet hfs (hostSet_rp (c := 4) hn (by decide)) (Nat.le_of_ble_eq_true rfl), State.sqBase]
theorem State.frame.rqBase (hn : n < 64) : t.rqBase n = s.rqBase n := by
  rw [State.rqBase, h.get_hostSet hfs (hostSet_rp (c := 8) hn (by decide)) (Nat.le_of_ble_eq_true rfl),
    h.get_hostSet hfs (hostSet_rp (c := 12) hn (by decide)) (Nat.le_of_ble_eq_true rfl), State.rqBase]
theorem State.frame.vector (hn : n < 64) : t.get (HIF.RP_CFG_VECTOR n) = s.get (HIF.RP_CFG_VECTOR n) := h.get_rpCfg hfs hn 11 6 (by decide)
theorem State.frame.headSlot (hn : n < 64) (hp : .host ∉ ps) (hhead : t.get (HIF.RP_STAT_SQ_HEAD n) = s.get (HIF.RP_STAT_SQ_HEAD n)) :
    t.headSlot n = s.headSlot n := by
  have hbyte : t.hostByte = s.hostByte := funext (h.1 .host hp)
  have hword : t.hostWord = s.hostWord := funext fun a => by rw [State.hostWord, State.hostBytes, hbyte, State.hostWord, State.hostBytes]
  rw [State.headSlot, h.sqBase hfs hn, hhead, hword, State.headSlot]
theorem State.frame.rqFree (hn : n < 64) (htail : t.get (HIF.RP_RQ_STAT_RQ_TAIL n) = s.get (HIF.RP_RQ_STAT_RQ_TAIL n))
    (hhead : t.get (DBL.RQ_HEAD_INDEX n) = s.get (DBL.RQ_HEAD_INDEX n)) : t.rqFree n = s.rqFree n := by
  rw [State.rqFree, h.rqSize hfs hn, htail, hhead, State.rqFree]

end Kept

/-! ### Slips are taken (R192 to R197) -/

/-- A slip is to be taken: the ring is on, no completion holds it up, and the slot at the head, below SQ_TAIL, is visible. -/
def State.takes (s : State) (n : Nat) : Prop :=
  ¬(s.ringOn n = false ∨ s.stalled n ∨ s.on (HIF.RP_STAT_NOT_VISIBLE n) ∨ s.get (HIF.RP_STAT_SQ_HEAD n) = s.get (DBL.SQ_TAIL_INDEX n)) ∧
  (s.headSlot n).getD 15 0 / 2 ^ 31 = s.get (HIF.RP_STAT_SQ_PHASE n)

/-- A ring after the words of a slot have been taken. -/
def Ring.takes (r : Ring) (w : List Nat) : Ring :=
  { r with taken := r.taken ++ [{ id := r.count, words := w, started := false, staged := false, verdict := none }], count := r.count + 1, rereads := 0 }

/-- The head moves on, and the phase inverts at the wrap. -/
def State.moveHead (s : State) (n : Nat) : State :=
  let wrap := decide (s.get (HIF.RP_STAT_SQ_HEAD n) + 1 = s.sqSize n)
  (s.put (HIF.RP_STAT_SQ_HEAD n) (if wrap then 0 else s.get (HIF.RP_STAT_SQ_HEAD n) + 1)).put (HIF.RP_STAT_SQ_PHASE n)
    (if wrap then 1 - s.get (HIF.RP_STAT_SQ_PHASE n) else s.get (HIF.RP_STAT_SQ_PHASE n))

/-- The slip at the head is taken. -/
def State.takeHead (s : State) (n : Nat) : State := ((s.setRing n ((s.ring n).takes (s.headSlot n))).moveHead n).showBusy n

theorem State.takeSlips_stop (h : ¬ s.takes n) (f : Nat) : s.takeSlips n f = s := by
  cases f with
  | zero => rfl
  | succ f =>
    rw [State.takeSlips]
    dsimp only
    split
    · rfl
    next hon => exact if_neg fun hp => h ⟨hon, hp⟩

theorem State.takeSlips_succ (h : s.takes n) (f : Nat) : s.takeSlips n (f + 1) = (s.takeHead n).takeSlips n f := by
  rw [State.takeSlips]
  dsimp only
  rw [if_neg h.1, if_pos h.2, ← State.get_setRing s n ((s.ring n).takes (s.headSlot n)) (HIF.RP_STAT_SQ_HEAD n),
    ← State.get_setRing s n ((s.ring n).takes (s.headSlot n)) (HIF.RP_STAT_SQ_PHASE n)]
  rfl

theorem State.takeAll_stop (h : ¬ s.takes n) : s.takeAll n = s := State.takeSlips_stop h _

/-- With every slip below SQ_TAIL taken none is taken. -/
theorem State.takeAll_idle (h : s.get (DBL.SQ_TAIL_INDEX n) = s.get (HIF.RP_STAT_SQ_HEAD n)) : s.takeAll n = s :=
  State.takeAll_stop fun hs => hs.1 (.inr (.inr (.inr h.symm)))

/-- Where the slip taken is the last one below SQ_TAIL, it is all that is taken. -/
theorem State.takeAll_one (h : s.takes n) (hlast : ¬ (s.takeHead n).takes n) : s.takeAll n = s.takeHead n := by
  obtain ⟨f, hf⟩ := Nat.exists_eq_succ_of_ne_zero (Nat.two_pow_pos (s.get (HIF.RP_CFG_SQ_LOG2 n))).ne'
  rw [State.takeAll, State.sqSize, hf, State.takeSlips_succ h, State.takeSlips_stop hlast]

/-- What taking slips may write. -/
def takeFields (n : Nat) : List Fld := [HIF.RP_STAT_SQ_HEAD n, HIF.RP_STAT_SQ_PHASE n, HIF.RP_STAT_BUSY n]

theorem takeFields_apart {f : Fld} (h : f.off ≠ HIF.RP_STAT n) : ∀ g ∈ takeFields n, f.apart g := by
  simpa [takeFields] using ⟨.inl h, .inl h, .inl h⟩

theorem State.frame_takeHead (s : State) (n : Nat) : s.frame (s.takeHead n) [.rings] (takeFields n) :=
  (((State.frame.rfl'.setRing _ _ (by simp)).put _ (by simp [takeFields])).put _ (by simp [takeFields])).showBusy _ (by simp [takeFields])

theorem State.rings_takeHead (s : State) (n : Nat) : (s.takeHead n).rings = (s.setRing n ((s.ring n).takes (s.headSlot n))).rings := by
  rw [State.takeHead, State.rings_showBusy, State.moveHead, State.put_rings, State.put_rings]

theorem State.ring_takeHead (s : State) (n : Nat) : (s.takeHead n).ring n = (s.ring n).takes (s.headSlot n) := by
  rw [State.ring_of_rings (s.rings_takeHead n), State.ring_setRing]
theorem State.ring_takeHead_ne {m : Nat} (h : m ≠ n) : (s.takeHead n).ring m = s.ring m := by
  rw [State.ring_of_rings (s.rings_takeHead n), State.ring_setRing_ne _ _ h]

/-- Taking slips leaves the completions. -/
theorem State.takeSlips_spec (s : State) (n f : Nat) :
    s.frame (s.takeSlips n f) [.rings] (takeFields n) ∧ ((s.takeSlips n f).ring n).compl = (s.ring n).compl := by
  induction f generalizing s with
  | zero => exact ⟨State.frame.rfl', rfl⟩
  | succ f ih =>
    by_cases h : s.takes n
    · obtain ⟨hfr, hcompl⟩ := ih (s.takeHead n)
      rw [State.takeSlips_succ h, hcompl, State.ring_takeHead]
      exact ⟨(s.frame_takeHead n).trans hfr, rfl⟩
    · rw [State.takeSlips_stop h]
      exact ⟨State.frame.rfl', rfl⟩

theorem State.takeAll_spec (s : State) (n : Nat) :
    s.frame (s.takeAll n) [.rings] (takeFields n) ∧ ((s.takeAll n).ring n).compl = (s.ring n).compl := s.takeSlips_spec n _

theorem State.showBusy_busy (h : (s.ring n).taken ≠ []) : (s.showBusy n).get (HIF.RP_STAT_BUSY n) = 1 := by
  have hne : (s.ring n).taken.isEmpty = false := by simpa using h
  rw [State.showBusy, State.get_put_same _ _ (Nat.le_of_ble_eq_true rfl), hne]
  simp [HIF.RP_STAT_BUSY]

/-- What a slip taken leaves in the registers. -/
theorem State.takeHead_get (s : State) (n : Nat) :
    (s.takeHead n).get (HIF.RP_STAT_SQ_HEAD n) =
      (if s.get (HIF.RP_STAT_SQ_HEAD n) + 1 = s.sqSize n then 0 else s.get (HIF.RP_STAT_SQ_HEAD n) + 1) % 2 ^ 16 ∧
    (s.takeHead n).get (HIF.RP_STAT_SQ_PHASE n) =
      (if s.get (HIF.RP_STAT_SQ_HEAD n) + 1 = s.sqSize n then 1 - s.get (HIF.RP_STAT_SQ_PHASE n) else s.get (HIF.RP_STAT_SQ_PHASE n)) ∧
    (s.takeHead n).get (HIF.RP_STAT_BUSY n) = 1 := by
  have hbusy : ∀ (u : State) {f : Fld}, f.lo + f.w ≤ 32 → f.apart (HIF.RP_STAT_BUSY n) → (u.showBusy n).get f = u.get f := fun u f hw ha => u.get_put_apart _ hw ha
  have hsize : ∀ x, (s.setRing n x).sqSize n = s.sqSize n := fun x => congrArg (2 ^ ·) (State.get_setRing ..)
  refine ⟨?_, ?_, State.showBusy_busy ?_⟩
  · rw [State.takeHead, hbusy _ (Nat.le_of_ble_eq_true rfl) (.inr (.inl (Nat.le_of_ble_eq_true rfl))), State.moveHead,
      State.get_put_apart _ _ (Nat.le_of_ble_eq_true rfl) (.inr (.inl (Nat.le_of_ble_eq_true rfl))), State.get_put_same _ _ (Nat.le_of_ble_eq_true rfl), hsize,
      State.get_setRing]
    simp only [decide_eq_true_eq]
    rfl
  · rw [State.takeHead, hbusy _ (Nat.le_of_ble_eq_true rfl) (.inr (.inl (Nat.le_of_ble_eq_true rfl))), State.moveHead,
      State.get_put_same _ _ (Nat.le_of_ble_eq_true rfl), hsize, State.get_setRing, State.get_setRing]
    have hlt : s.get (HIF.RP_STAT_SQ_PHASE n) < 2 := s.get_lt (HIF.RP_STAT_SQ_PHASE n)
    simp only [decide_eq_true_eq]
    refine Nat.mod_eq_of_lt (show _ < 2 from ?_)
    split <;> omega
  · rw [State.moveHead, State.ring_put, State.ring_put, State.ring_setRing, Ring.takes]
    exact List.append_ne_nil_of_right_ne_nil _ (List.cons_ne_nil _ _)

/-- The slot after the head. -/
theorem next_mod {h z : Nat} (hlt : h < z) : (h + 1) % z = if h + 1 = z then 0 else h + 1 := by
  split
  next e => rw [e, Nat.mod_self]
  · exact Nat.mod_eq_of_lt (by omega)

/-- The last slip below SQ_TAIL is taken, and the head has reached SQ_TAIL. -/
theorem State.takeAll_last (hn : n < 64) (h : s.takes n) (hlt : s.get (HIF.RP_STAT_SQ_HEAD n) < s.sqSize n)
    (htail : s.get (DBL.SQ_TAIL_INDEX n) = (s.get (HIF.RP_STAT_SQ_HEAD n) + 1) % s.sqSize n % 2 ^ 16) :
    s.takeAll n = s.takeHead n ∧ (s.takeHead n).get (HIF.RP_STAT_SQ_HEAD n) = s.get (DBL.SQ_TAIL_INDEX n) := by
  have hhead : (s.takeHead n).get (HIF.RP_STAT_SQ_HEAD n) = s.get (DBL.SQ_TAIL_INDEX n) := by rw [(s.takeHead_get n).1, htail, next_mod hlt]
  have hkept : (s.takeHead n).get (DBL.SQ_TAIL_INDEX n) = s.get (DBL.SQ_TAIL_INDEX n) :=
    (s.frame_takeHead n).get _ (Nat.le_of_ble_eq_true rfl) (takeFields_apart (sqTail_ne_rpStat hn))
  exact ⟨State.takeAll_one h fun hs => hs.1 (.inr (.inr (.inr (hhead.trans hkept.symm)))), hhead⟩

/-! ### Doorbells (R191 to R193, R501) -/

/-- SQ_TAIL is stored and acted on: NOT_VISIBLE is cleared, and the pair's ICU source raised (R192). -/
def State.rungSq (s : State) (n idx : Nat) : State := ((s.put (DBL.SQ_TAIL_INDEX n) idx).put (HIF.RP_STAT_NOT_VISIBLE n) 0).raise (29 + n)

def ringFields (n : Nat) : List Fld := [DBL.SQ_TAIL_INDEX n, HIF.RP_STAT_NOT_VISIBLE n, srcPending (29 + n)]

theorem State.raise_ring (s : State) (hn : n < 64) : s.raise (29 + n) = s.put (srcPending (29 + n)) 1 := if_pos (by omega)

theorem State.frame_rungSq (s : State) (n idx : Nat) : s.frame (s.rungSq n idx) [] (ringFields n) :=
  ((State.frame.rfl'.put _ (by simp [ringFields])).put _ (by simp [ringFields])).raise _ (by simp [ringFields])

theorem State.rungSq_get (s : State) (idx : Nat) (hn : n < 64) : (s.rungSq n idx).get (DBL.SQ_TAIL_INDEX n) = idx % 65536 ∧
    (s.rungSq n idx).get (HIF.RP_STAT_NOT_VISIBLE n) = 0 ∧ (s.rungSq n idx).get (srcPending (29 + n)) = 1 := by
  rw [State.rungSq, State.raise_ring _ hn]
  refine ⟨?_, ?_, ?_⟩
  · rw [State.get_put_apart _ _ (Nat.le_of_ble_eq_true rfl) (.inl (sqTail_ne_source n)), State.get_put_apart _ _ (Nat.le_of_ble_eq_true rfl) (.inl (sqTail_ne_rpStat hn)),
      State.get_put_same _ _ (Nat.le_of_ble_eq_true rfl)]
    rfl
  · rw [State.get_put_apart _ _ (Nat.le_of_ble_eq_true rfl) (.inl (rpStat_ne_source hn)), State.get_put_same _ _ (Nat.le_of_ble_eq_true rfl)]
    rfl
  · rw [State.get_put_same _ _ (Nat.le_of_ble_eq_true rfl)]
    rfl

/-- The fields of a ring pair's own registers, but for NOT_VISIBLE, outlast the doorbell. -/
theorem ringFields_apart (hn : n < 64) {c lo w : Nat} (hc : c < 0x40) (h : c ≠ 0x14 ∨ lo + w ≤ 18) : ∀ g ∈ ringFields n, (⟨0x81000 + c + 0x40 * n, lo, w⟩ : Fld).apart g := by
  simp only [ringFields, List.forall_mem_cons, List.not_mem_nil, false_imp_iff, implies_true, and_true, Fld.apart, DBL.SQ_TAIL_INDEX, DBL.SQ_TAIL,
    HIF.RP_STAT_NOT_VISIBLE, HIF.RP_STAT, srcPending, srcReg]
  omega

theorem ringFields_not_hostSet (hn : n < 64) : ∀ g ∈ ringFields n, ¬ hostSet g.off := by
  simpa [ringFields] using ⟨not_hostSet_sqTail n, not_hostSet_rpStat hn, not_hostSet_source hn⟩

theorem State.rungSq_head (s : State) (idx : Nat) (hn : n < 64) : (s.rungSq n idx).get (HIF.RP_STAT_SQ_HEAD n) = s.get (HIF.RP_STAT_SQ_HEAD n) ∧
    (s.rungSq n idx).get (HIF.RP_STAT_SQ_PHASE n) = s.get (HIF.RP_STAT_SQ_PHASE n) :=
  ⟨(s.frame_rungSq n idx).get _ (Nat.le_of_ble_eq_true rfl) (ringFields_apart hn (c := 0x14) (by decide) (.inr (by decide))),
    (s.frame_rungSq n idx).get _ (Nat.le_of_ble_eq_true rfl) (ringFields_apart hn (c := 0x14) (by decide) (.inr (by decide)))⟩

/-- What is taken after a doorbell is what stands below the new SQ_TAIL and was visible before. -/
theorem State.rungSq_takes (hn : n < 64) {idx : Nat} : (s.rungSq n idx).takes n ↔ s.ringOn n = true ∧ s.stalled n = false ∧
    s.get (HIF.RP_STAT_SQ_HEAD n) ≠ idx % 65536 ∧ (s.headSlot n).getD 15 0 / 2 ^ 31 = s.get (HIF.RP_STAT_SQ_PHASE n) := by
  have h := s.frame_rungSq n idx
  have hfs := ringFields_not_hostSet hn
  obtain ⟨htail, hvis, -⟩ := s.rungSq_get idx hn
  obtain ⟨hhead, hphase⟩ := s.rungSq_head idx hn
  have hfree : (s.rungSq n idx).rqFree n = s.rqFree n := h.rqFree hfs hn
    (h.get _ (Nat.le_of_ble_eq_true rfl) (ringFields_apart hn (c := 0x18) (by decide) (.inl (by decide))))
    (h.get _ (Nat.le_of_ble_eq_true rfl) (by
      simpa [ringFields] using ⟨.inl (sqTail_ne_rqHead n n).symm, .inl (rqHead_ne_rpStat hn), .inl (rqHead_ne_source n)⟩))
  have hslot := h.headSlot hfs hn (by simp) hhead
  have hstall : (s.rungSq n idx).stalled n = s.stalled n := by
    rw [State.stalled, hfree, State.ring_of_rings (h.1 .rings (by simp)), State.stalled]
  rw [State.takes, h.ringOn hfs hn, hstall, State.on, hvis, hhead, htail, hphase, hslot]
  simp [and_assoc]

theorem State.pwState_put_doorbell (s : State) {f : Fld} (hf : 0x800000 ≤ f.off) (v : Nat) : (s.put f v).pwState = s.pwState :=
  s.get_put_apart _ (by decide) (.inl (Nat.ne_of_lt (Nat.lt_of_lt_of_le (by decide) hf)))

theorem notVisible_apart_takeFields (n : Nat) : ∀ g ∈ takeFields n, (HIF.RP_STAT_NOT_VISIBLE n).apart g := by
  simp [takeFields, Fld.apart, HIF.RP_STAT_NOT_VISIBLE, HIF.RP_STAT_SQ_HEAD, HIF.RP_STAT_SQ_PHASE, HIF.RP_STAT_BUSY]

section Doorbell
variable {s0 : State} {idx : Nat} (hs : s = s0.linkActivity)
include hs

theorem exec_sqTail_ignored (h : s.doorbellOk n (s.sqSize n) idx = false) : exec (.sqTail n idx) s0 = .next (s.bump HIF.ERR_COUNT_DOORBELL) := by
  subst hs
  exact if_pos h
theorem exec_rqHead_ignored (h : s.doorbellOk n (s.rqSize n) idx = false) : exec (.rqHead n idx) s0 = .next (s.bump HIF.ERR_COUNT_DOORBELL) := by
  subst hs
  exact if_pos h

theorem exec_sqTail_stored (h : s.doorbellOk n (s.sqSize n) idx = true) (hp : s.pwState = pwStandby ∨ s.pwState = pwWaking) :
    exec (.sqTail n idx) s0 = .next (s.put (DBL.SQ_TAIL_INDEX n) idx) := by
  subst hs
  rw [← State.pwState_put_doorbell _ (f := DBL.SQ_TAIL_INDEX n) (Nat.le_add_right ..) idx] at hp
  exact (if_neg (by rw [h]; decide)).trans (if_pos hp)
theorem exec_rqHead_stored (h : s.doorbellOk n (s.rqSize n) idx = true) (hp : s.pwState = pwStandby ∨ s.pwState = pwWaking) :
    exec (.rqHead n idx) s0 = .next (s.put (DBL.RQ_HEAD_INDEX n) idx) := by
  subst hs
  rw [← State.pwState_put_doorbell _ (f := DBL.RQ_HEAD_INDEX n) (rqHead_ge n) idx] at hp
  exact (if_neg (by rw [h]; decide)).trans (if_pos hp)

theorem exec_sqTail_rung (h : s.doorbellOk n (s.sqSize n) idx = true) (hp : ¬(s.pwState = pwStandby ∨ s.pwState = pwWaking)) :
    exec (.sqTail n idx) s0 = .next ((s.rungSq n idx).takeAll n) := by
  subst hs
  rw [← State.pwState_put_doorbell _ (f := DBL.SQ_TAIL_INDEX n) (Nat.le_add_right ..) idx] at hp
  exact (if_neg (by rw [h]; decide)).trans (if_neg hp)
theorem exec_rqHead_rung (h : s.doorbellOk n (s.rqSize n) idx = true) (hp : ¬(s.pwState = pwStandby ∨ s.pwState = pwWaking)) :
    exec (.rqHead n idx) s0 = .next (((s.put (DBL.RQ_HEAD_INDEX n) idx).raise (29 + n)).takeAll n) := by
  subst hs
  rw [← State.pwState_put_doorbell _ (f := DBL.RQ_HEAD_INDEX n) (rqHead_ge n) idx] at hp
  exact (if_neg (by rw [h]; decide)).trans (if_neg hp)

end Doorbell

/-! ### Slots that are read again (R197) -/

theorem State.mayRead_of (hon : s.ringOn n = true) (hstall : s.stalled n = false) (hvis : s.on (HIF.RP_STAT_NOT_VISIBLE n) = false)
    (hhead : s.get (HIF.RP_STAT_SQ_HEAD n) ≠ s.get (DBL.SQ_TAIL_INDEX n)) :
    ¬(s.ringOn n = false ∨ s.stalled n ∨ s.on (HIF.RP_STAT_NOT_VISIBLE n) ∨ s.get (HIF.RP_STAT_SQ_HEAD n) = s.get (DBL.SQ_TAIL_INDEX n)) := by
  simp [hon, hstall, hvis, hhead]

/-- The slot at the head is given up: it is posted as SLIP_NOT_VISIBLE. -/
def State.slipUnseen (s : State) (n : Nat) : State :=
  (((s.setRing n { s.ring n with rereads := 0 }).put (HIF.RP_STAT_NOT_VISIBLE n) 1).complete n
    { tag := 0, status := 1, stream := none, opcode := 0, kind := 0, extra := 0, w := [s.get (HIF.RP_STAT_SQ_HEAD n)], noIrq := false }).showBusy n

theorem exec_slipReread_seen (h : ¬(s.ringOn n = false ∨ s.stalled n ∨ s.on (HIF.RP_STAT_NOT_VISIBLE n) ∨
      s.get (HIF.RP_STAT_SQ_HEAD n) = s.get (DBL.SQ_TAIL_INDEX n)))
    (hphase : (s.headSlot n).getD 15 0 / 2 ^ 31 = s.get (HIF.RP_STAT_SQ_PHASE n)) : exec (.slipReread n) s = .next (s.takeAll n) :=
  (if_neg h).trans (if_pos hphase)
theorem exec_slipReread_unseen (h : ¬(s.ringOn n = false ∨ s.stalled n ∨ s.on (HIF.RP_STAT_NOT_VISIBLE n) ∨
      s.get (HIF.RP_STAT_SQ_HEAD n) = s.get (DBL.SQ_TAIL_INDEX n)))
    (hphase : (s.headSlot n).getD 15 0 / 2 ^ 31 ≠ s.get (HIF.RP_STAT_SQ_PHASE n)) : exec (.slipReread n) s =
      .next (if (s.ring n).rereads < 7 then s.setRing n { s.ring n with rereads := (s.ring n).rereads + 1 } else s.slipUnseen n) := by
  refine (if_neg h).trans ((if_neg hphase).trans ?_)
  by_cases hr : (s.ring n).rereads < 7
  · exact (if_pos hr).trans (by rw [if_pos hr])
  · exact (if_neg hr).trans (by rw [if_neg hr]; rfl)

/-- What a completion that joins a ring may change. -/
theorem State.frame_complete (s : State) (n : Nat) (r : RetSlip) : s.frame (s.complete n r) s.complParts (s.complFields n) := by
  cases ho : s.hostFn.open with
  | true =>
    rw [State.complParts_of_open ho, State.complete_of_open ho]
    exact State.frame.rfl'.setRing _ _ (by simp)
  | false =>
    rw [State.complParts_of_shut ho, State.complFields_of_shut ho]
    exact State.frame.rfl'.complete _ _ (by simp) (by simp) (by simp) (by simp) fun g hg => List.mem_cons_of_mem _ hg

/-- No pending bit of a vector lies among the registers of the ring pairs. -/
theorem vectorBits_apart_rp {c lo w : Nat} (hn : n < 64) (hc : c < 0x40) (hv : v < 64) : ∀ g ∈ vectorBits v, (⟨0x81000 + c + 0x40 * n, lo, w⟩ : Fld).apart g := by
  simp only [vectorBits, List.forall_mem_cons, List.not_mem_nil, false_imp_iff, implies_true, and_true, Fld.apart, HIF.VEC_PEND, HIF.MSIX_PBA]
  omega

theorem State.vector_lt (s : State) (n : Nat) : s.get (HIF.RP_CFG_VECTOR n) < 64 := s.get_lt (HIF.RP_CFG_VECTOR n)

theorem State.complFields_apart_notVisible (s : State) (hn : n < 64) : ∀ g ∈ s.complFields n, (HIF.RP_STAT_NOT_VISIBLE n).apart g := by
  intro g hg
  obtain rfl | hg := List.mem_cons.1 hg
  · exact .inr (.inl (Nat.le_of_ble_eq_true rfl))
  · split at hg
    · simp at hg
    · exact vectorBits_apart_rp (c := 0x14) hn (by decide) (s.vector_lt n) g hg

/-- What a slot given up leaves. -/
theorem State.slipUnseen_spec (s : State) (hn : n < 64) : (s.slipUnseen n).get (HIF.RP_STAT_NOT_VISIBLE n) = 1 ∧
    (s.slipUnseen n).ring n = { s.ring n with rereads := 0, compl := (s.ring n).compl ++
      [s.waiting n { tag := 0, status := 1, stream := none, opcode := 0, kind := 0, extra := 0, w := [s.get (HIF.RP_STAT_SQ_HEAD n)], noIrq := false }] } ∧
    (∀ m, m ≠ n → (s.slipUnseen n).ring m = s.ring m) ∧ s.frame (s.slipUnseen n) s.complParts (HIF.RP_STAT_NOT_VISIBLE n :: s.complFields n) := by
  generalize hr : ({ tag := 0, status := 1, stream := none, opcode := 0, kind := 0, extra := 0, w := [s.get (HIF.RP_STAT_SQ_HEAD n)], noIrq := false } : RetSlip) = r
  generalize hq : (s.setRing n { s.ring n with rereads := 0 }).put (HIF.RP_STAT_NOT_VISIBLE n) 1 = q
  have hu : s.slipUnseen n = (q.complete n r).showBusy n := by rw [State.slipUnseen, hr, hq]
  have hfr : s.frame q [.rings] [HIF.RP_STAT_NOT_VISIBLE n] := hq ▸ (State.frame.rfl'.setRing _ _ (by simp)).put _ (by simp)
  have hfn : q.hostFn = s.hostFn := hfr.1 .hostFn (by simp)
  have hset : ∀ g ∈ [HIF.RP_STAT_NOT_VISIBLE n], ¬ hostSet g.off := List.forall_mem_singleton.2 (not_hostSet_rpStat hn)
  have hon : q.on (HIF.RP_CFG_ENABLE n) = s.on (HIF.RP_CFG_ENABLE n) := hfr.ringOn hset hn
  have hwait : q.waiting n r = s.waiting n r := by
    rw [State.waiting, hfn, hon, State.waiting]
  have hrings : (s.slipUnseen n).rings = (q.setRing n { q.ring n with compl := (q.ring n).compl ++ [s.waiting n r] }).rings := by
    rw [hu, State.rings_showBusy, State.rings_complete, hwait]
  have hq' : q.rings = (s.setRing n { s.ring n with rereads := 0 }).rings := by rw [← hq, State.put_rings]
  have hfr' : q.frame (s.slipUnseen n) s.complParts (s.complFields n) := by
    have h := q.frame_complete n r
    rw [State.complParts_congr hfn, State.complFields_congr hfn (hfr.vector hset hn)] at h
    rw [hu]
    exact h.showBusy n (by simp [State.complFields])
  refine ⟨?_, ?_, fun m hm => ?_, ?_⟩
  · rw [hfr'.get _ (Nat.le_of_ble_eq_true rfl) (s.complFields_apart_notVisible hn), ← hq, State.get_put_same _ _ (Nat.le_of_ble_eq_true rfl)]
    rfl
  · rw [State.ring_of_rings hrings, State.ring_setRing, State.ring_of_rings hq', State.ring_setRing]
  · rw [State.ring_of_rings hrings, State.ring_setRing_ne _ _ hm, State.ring_of_rings hq', State.ring_setRing_ne _ _ hm]
  · exact (hfr.mono (by simp [State.complParts]) (by simp)).trans (hfr'.mono (fun _ hp => hp) fun _ hg => List.mem_cons_of_mem _ hg)

end Sys2Proof.Machine

section
set_option Elab.async false
open Sys2Proof Sys2Proof.Machine

/-- Settles O38: a doorbell is ignored, stored, or rung (`State.rungSq`); what it lets be taken is `State.takes`, read after the doorbell as before it
(`State.rungSq_takes`), and the last slip below SQ_TAIL is `State.takeAll_last`. -/
theorem doorbellsLetSlipsBeTakenInOrder : Obligations.DoorbellsLetSlipsBeTakenInOrder := by
  unfold Obligations.DoorbellsLetSlipsBeTakenInOrder
  refine ⟨?sqIgnored, ?rqIgnored, ?sqStored, ?rqStored, ?sqNone, ?sqTaken, ?rqRung, ?reread, ?unseen, ?seen⟩
  case sqIgnored =>
    intro s0 s n idx hs h
    exact ⟨_, exec_sqTail_ignored hs h, State.get_bump_same _ (by decide), State.frame.rfl'.bump _ (by simp)⟩
  case rqIgnored =>
    intro s0 s n idx hs h
    exact ⟨_, exec_rqHead_ignored hs h, State.get_bump_same _ (by decide), State.frame.rfl'.bump _ (by simp)⟩
  case sqStored =>
    intro s0 s n idx hs hn h hp
    exact ⟨_, exec_sqTail_stored hs h hp, State.get_put_same _ _ (Nat.le_of_ble_eq_true rfl), State.frame.rfl'.put _ (by simp)⟩
  case rqStored =>
    intro s0 s n idx hs hn h hp
    exact ⟨_, exec_rqHead_stored hs h hp, State.get_put_same _ _ (Nat.le_of_ble_eq_true rfl), State.frame.rfl'.put _ (by simp)⟩
  case sqNone =>
    intro s0 s n idx hs hn h hb hw hnone
    have hstop : ¬ (s.rungSq n idx).takes n := by
      rw [State.rungSq_takes hn]
      rintro ⟨-, hstall, hhead, hphase⟩
      obtain rfl | hnone | hnone := hnone
      · exact hhead (Nat.mod_eq_of_lt (s.get_lt (HIF.RP_STAT_SQ_HEAD n))).symm
      · exact hnone hphase
      · rw [hstall] at hnone
        exact Bool.false_ne_true hnone
    obtain ⟨htail, hvis, hsrc⟩ := s.rungSq_get idx hn
    refine ⟨_, exec_sqTail_rung hs h (not_or.2 ⟨hb, hw⟩), ?_⟩
    rw [State.takeAll_stop hstop]
    exact ⟨htail, hvis, hsrc, s.frame_rungSq n idx⟩
  case sqTaken =>
    intro s0 s n idx hs hn h hb hw hidx hlt hne hphase hstall
    have hon : s.ringOn n = true := (Bool.and_eq_true_iff.1 (Bool.and_eq_true_iff.1 h).1).2
    have hfr := s.frame_rungSq n idx
    have hsize := hfr.sqSize (ringFields_not_hostSet hn) hn
    obtain ⟨htail, hvis, hsrc⟩ := s.rungSq_get idx hn
    obtain ⟨hhead, hph⟩ := s.rungSq_head idx hn
    have hnext := hidx.trans (next_mod hlt)
    have hbelow : s.get (HIF.RP_STAT_SQ_HEAD n) ≠ idx % 65536 := by
      have h16 : s.get (HIF.RP_STAT_SQ_HEAD n) < 65536 := s.get_lt (HIF.RP_STAT_SQ_HEAD n)
      split at hnext <;> omega
    have htakes : (s.rungSq n idx).takes n := (State.rungSq_takes hn).2 ⟨hon, hstall, hbelow, hphase⟩
    obtain ⟨hall, hlast⟩ := State.takeAll_last hn htakes (by rw [hhead, hsize]; exact hlt) (by rw [htail, hhead, hsize, ← hidx]; rfl)
    have hfr' := (s.rungSq n idx).frame_takeHead n
    obtain ⟨-, hphase', hbusy⟩ := (s.rungSq n idx).takeHead_get n
    have hslot := hfr.headSlot (ringFields_not_hostSet hn) hn (by simp) hhead
    have hrings : (s.rungSq n idx).rings = s.rings := hfr.1 .rings (by simp)
    refine ⟨_, exec_sqTail_rung hs h (not_or.2 ⟨hb, hw⟩), ?_⟩
    rw [hall]
    refine ⟨?_, ?_, ?_, hlast.trans htail, ?_, hbusy, ?_, fun m hm => ?_, ?_⟩
    · rw [hfr'.get _ (Nat.le_of_ble_eq_true rfl) (takeFields_apart (sqTail_ne_rpStat hn)), htail]
    · rw [hfr'.get _ (Nat.le_of_ble_eq_true rfl) (notVisible_apart_takeFields n), hvis]
    · rw [hfr'.get _ (Nat.le_of_ble_eq_true rfl) (takeFields_apart (rpStat_ne_source hn).symm), hsrc]
    · rw [hphase', hhead, hsize, hph]
      refine if_congr ?_ rfl rfl
      split at hnext <;> omega
    · rw [State.ring_takeHead, hslot, State.ring_of_rings hrings]
      rfl
    · rw [State.ring_takeHead_ne hm, State.ring_of_rings hrings]
    · exact (hfr.mono (by simp) (by simp [ringFields])).trans (hfr'.mono (fun _ hp => hp) (by simp [takeFields]))
  case rqRung =>
    intro s0 s n idx hs hn h hb hw hidle
    have hidle' : ((s.put (DBL.RQ_HEAD_INDEX n) idx).raise (29 + n)).get (DBL.SQ_TAIL_INDEX n) =
        ((s.put (DBL.RQ_HEAD_INDEX n) idx).raise (29 + n)).get (HIF.RP_STAT_SQ_HEAD n) := by
      rw [State.raise_ring _ hn, State.get_put_apart _ _ (Nat.le_of_ble_eq_true rfl) (.inl (sqTail_ne_source n)),
        State.get_put_apart _ _ (Nat.le_of_ble_eq_true rfl) (.inl (sqTail_ne_rqHead n n)), hidle,
        State.get_put_apart _ _ (Nat.le_of_ble_eq_true rfl) (.inl (rpStat_ne_source hn)),
        State.get_put_apart _ _ (Nat.le_of_ble_eq_true rfl) (.inl (rqHead_ne_rpStat hn).symm)]
    refine ⟨_, exec_rqHead_rung hs h (not_or.2 ⟨hb, hw⟩), ?_⟩
    rw [State.takeAll_idle hidle', State.raise_ring _ hn]
    refine ⟨?_, ?_, (State.frame.rfl'.put _ (by simp)).put _ (by simp)⟩
    · rw [State.get_put_apart _ _ (Nat.le_of_ble_eq_true rfl) (.inl (rqHead_ne_source n)), State.get_put_same _ _ (Nat.le_of_ble_eq_true rfl)]
      rfl
    · rw [State.get_put_same _ _ (Nat.le_of_ble_eq_true rfl)]
      rfl
  case reread =>
    intro s n hon hstall hvis hhead hphase hr
    refine ⟨_, exec_slipReread_unseen (State.mayRead_of hon hstall hvis hhead) hphase, ?_⟩
    rw [if_pos hr]
    exact ⟨State.ring_setRing .., fun m hm => State.ring_setRing_ne _ _ hm, State.frame.rfl'.setRing _ _ (by simp)⟩
  case unseen =>
    intro s n hn hon hstall hvis hhead hphase hr
    refine ⟨_, exec_slipReread_unseen (State.mayRead_of hon hstall hvis hhead) hphase, ?_⟩
    rw [if_neg (Nat.not_lt.2 hr)]
    exact s.slipUnseen_spec hn
  case seen =>
    intro s n hn hon hstall hvis htail hlt hhead hphase
    have hread := State.mayRead_of hon hstall hvis hhead
    obtain ⟨hall, hlast⟩ := State.takeAll_last hn ⟨hread, hphase⟩ hlt (by rw [← htail]; exact (Nat.mod_eq_of_lt (s.get_lt (DBL.SQ_TAIL_INDEX n))).symm)
    refine ⟨_, exec_slipReread_seen hread hphase, ?_⟩
    rw [hall]
    exact ⟨hlast, State.ring_takeHead .., s.frame_takeHead n⟩

end

/-! ### Words stored in host memory (R366) -/

namespace Sys2Proof.Machine
set_option Elab.async false

variable {s t u : State} {ps : List Part} {fs : List Fld} {n v : Nat} {r : RetSlip}

/-- Entries written one after another, from the k-th place behind a. -/
theorem Tab.get_foldl_zipIdx {V : Type} [DecidableEq V] (d : Nat → V) (a b : Nat) (l : List V) (x : Tab V) (k : Nat) :
    Tab.get d ((l.zipIdx k).foldl (fun x q => Tab.set d x (a + q.2) q.1) x) b =
      if a + k ≤ b ∧ b < a + k + l.length then l.getD (b - (a + k)) (d b) else Tab.get d x b := by
  induction l generalizing x k with
  | nil => exact (if_neg (by rw [List.length_nil]; omega)).symm
  | cons e l ih =>
    rw [List.zipIdx_cons, List.foldl_cons, ih, List.length_cons]
    by_cases hb : b = a + k
    · subst hb
      rw [if_neg (by omega), if_pos (by omega), Tab.get_set_same, Nat.sub_self, List.getD_cons_zero]
    · rw [Tab.get_set_other _ _ _ hb]
      refine if_ctx_congr (by omega) (fun h => ?_) fun _ => rfl
      obtain ⟨j, hj⟩ : ∃ j, b = a + (k + 1) + j := ⟨b - (a + (k + 1)), by omega⟩
      rw [show b - (a + (k + 1)) = j by omega, show b - (a + k) = j + 1 by omega, List.getD_cons_succ]

theorem State.hostByte_storeHost (s : State) (a b : Nat) (l : List Byte) :
    (s.storeHost a l).hostByte b = if a ≤ b ∧ b < a + l.length then l.getD (b - a) 0#8 else s.hostByte b :=
  Tab.get_foldl_zipIdx (fun _ => 0#8) a b l s.host 0

theorem State.hostBytes_storeHost (s : State) (a : Nat) (l : List Byte) : (s.storeHost a l).hostBytes a l.length = l := by
  refine List.ext_getElem (by simp [State.hostBytes]) fun i hi hl => ?_
  simp [State.hostBytes, State.hostByte_storeHost, hl]

theorem length_leBytes (k x : Nat) : (leBytes k x).length = k := by
  induction k generalizing x with
  | zero => rfl
  | succ k ih => rw [leBytes, List.length_cons, ih]

theorem length_flatMap_leBytes (w : List Nat) : (w.flatMap (leBytes 4)).length = 4 * w.length := by
  rw [List.length_flatMap, List.map_congr_left fun x _ => length_leBytes 4 x, List.map_const', List.sum_replicate, smul_eq_mul, Nat.mul_comm]

theorem State.hostHas_storeHost (s : State) (a : Nat) (w : List Nat) : (s.storeHost a (w.flatMap (leBytes 4))).hostHas a w = true := by
  rw [State.hostHas, ← length_flatMap_leBytes, State.hostBytes_storeHost, beq_self_eq_true]

/-- Words in host memory are read from their own bytes. -/
theorem State.hostHas_congr {a : Nat} {w : List Nat} (h : ∀ b, a ≤ b → b < a + 4 * w.length → t.hostByte b = s.hostByte b) : t.hostHas a w = s.hostHas a w := by
  have hbytes : t.hostBytes a (4 * w.length) = s.hostBytes a (4 * w.length) :=
    List.map_congr_left fun i hi => h _ (Nat.le_add_right ..) (Nat.add_lt_add_left (List.mem_range.1 hi) a)
  rw [State.hostHas, hbytes, State.hostHas]
theorem State.frame.hostHas (h : s.frame t ps fs) (hp : .host ∉ ps) (a : Nat) (w : List Nat) : t.hostHas a w = s.hostHas a w :=
  State.hostHas_congr fun b _ _ => h.1 .host hp b

/-! ### A return slip is written (R196, R198, R199) -/

/-- The words of the slip stand at the tail, and the tail moves on. -/
def State.slipPut (s : State) (n : Nat) (r : RetSlip) : State :=
  let tail := s.get (HIF.RP_RQ_STAT_RQ_TAIL n)
  let phase := s.get (HIF.RP_RQ_STAT_RQ_PHASE n)
  let s := s.storeHost (s.rqBase n + 32 * tail) ((r.words (s.get (HIF.RP_STAT_SQ_HEAD n)) phase).flatMap (leBytes 4))
  let wrap := decide (tail + 1 = s.rqSize n)
  (s.put (HIF.RP_RQ_STAT_RQ_TAIL n) (if wrap then 0 else tail + 1)).put (HIF.RP_RQ_STAT_RQ_PHASE n) (if wrap then 1 - phase else phase)

def slipFields (n : Nat) : List Fld := [HIF.RP_RQ_STAT_RQ_TAIL n, HIF.RP_RQ_STAT_RQ_PHASE n]

theorem State.writeSlip_uncounted (h : r.noIrq = true ∨ r.counted = true) : s.writeSlip n r = s.slipPut n r := by
  rw [State.writeSlip, State.slipPut]
  exact if_pos (Bool.or_eq_true_iff.2 h)
theorem State.frame_writeSlip_silent (s : State) (n : Nat) (h : r.noIrq = true ∨ r.counted = true) : (s.slipPut n r).frame (s.writeSlip n r) [] [] := by
  rw [State.writeSlip_uncounted h]
  exact State.frame.rfl'
theorem State.writeSlip_counted (h : r.noIrq = false) (h' : r.counted = false) :
    s.writeSlip n r = (s.slipPut n r).countVec ((s.slipPut n r).get (HIF.RP_CFG_VECTOR n)) := by
  rw [State.writeSlip, State.slipPut]
  exact if_neg (by rw [h, h']; decide)

theorem State.frame_slipPut (s : State) (n : Nat) (r : RetSlip) : s.frame (s.slipPut n r) [.host] (slipFields n) :=
  (((State.frame_host s _).mono (fun _ h => h) (by simp)).put _ (by simp [slipFields])).put _ (by simp [slipFields])

theorem slipFields_not_hostSet (hn : n < 64) : ∀ g ∈ slipFields n, ¬ hostSet g.off := by
  simpa [slipFields] using ⟨not_hostSet_rqStat hn, not_hostSet_rqStat hn⟩

theorem RetSlip.length_words (r : RetSlip) (head phase : Nat) : (r.words head phase).length = 8 := rfl

theorem State.hostByte_put (s : State) (f : Fld) (x a : Nat) : (s.put f x).hostByte a = s.hostByte a := by
  rw [State.hostByte, State.put_host, State.hostByte]

theorem State.slipPut_hostByte (s : State) (n : Nat) (r : RetSlip) (a : Nat) : (s.slipPut n r).hostByte a =
    (s.storeHost (s.rqBase n + 32 * s.get (HIF.RP_RQ_STAT_RQ_TAIL n))
      ((r.words (s.get (HIF.RP_STAT_SQ_HEAD n)) (s.get (HIF.RP_RQ_STAT_RQ_PHASE n))).flatMap (leBytes 4))).hostByte a := by
  rw [State.slipPut, State.hostByte_put, State.hostByte_put]

/-- The words are written, and no byte around them. -/
theorem State.slipPut_host (s : State) (n : Nat) (r : RetSlip) :
    (s.slipPut n r).hostHas (s.rqBase n + 32 * s.get (HIF.RP_RQ_STAT_RQ_TAIL n)) (r.words (s.get (HIF.RP_STAT_SQ_HEAD n)) (s.get (HIF.RP_RQ_STAT_RQ_PHASE n))) = true ∧
    ∀ a, a < s.rqBase n + 32 * s.get (HIF.RP_RQ_STAT_RQ_TAIL n) ∨ s.rqBase n + 32 * s.get (HIF.RP_RQ_STAT_RQ_TAIL n) + 32 ≤ a →
      (s.slipPut n r).hostByte a = s.hostByte a := by
  refine ⟨(State.hostHas_congr fun b _ _ => s.slipPut_hostByte n r b).trans (State.hostHas_storeHost ..), fun a ha => ?_⟩
  rw [State.slipPut_hostByte, State.hostByte_storeHost, length_flatMap_leBytes, RetSlip.length_words]
  exact if_neg (by omega)

/-- The tail moves on, and the phase inverts at the wrap (R198). -/
theorem State.slipPut_get (s : State) (n : Nat) (r : RetSlip) :
    (s.slipPut n r).get (HIF.RP_RQ_STAT_RQ_TAIL n) =
      (if s.get (HIF.RP_RQ_STAT_RQ_TAIL n) + 1 = s.rqSize n then 0 else s.get (HIF.RP_RQ_STAT_RQ_TAIL n) + 1) % 65536 ∧
    (s.slipPut n r).get (HIF.RP_RQ_STAT_RQ_PHASE n) =
      if s.get (HIF.RP_RQ_STAT_RQ_TAIL n) + 1 = s.rqSize n then 1 - s.get (HIF.RP_RQ_STAT_RQ_PHASE n) else s.get (HIF.RP_RQ_STAT_RQ_PHASE n) := by
  have hsize : ∀ a l, (s.storeHost a l).rqSize n = s.rqSize n := fun _ _ => rfl
  simp only [State.slipPut, hsize, decide_eq_true_eq]
  refine ⟨?_, ?_⟩
  · rw [State.get_put_apart _ _ (Nat.le_of_ble_eq_true rfl) (.inr (.inl (Nat.le_of_ble_eq_true rfl))), State.get_put_same _ _ (Nat.le_of_ble_eq_true rfl)]
    rfl
  · have hlt : s.get (HIF.RP_RQ_STAT_RQ_PHASE n) < 2 := s.get_lt (HIF.RP_RQ_STAT_RQ_PHASE n)
    rw [State.get_put_same _ _ (Nat.le_of_ble_eq_true rfl)]
    refine Nat.mod_eq_of_lt (show _ < 2 from ?_)
    split <;> omega

/-! ### Vectors (R210 to R212) -/

/-- Where the message of a vector goes (R210). -/
def State.vecAddr (s : State) (v : Nat) : Nat := s.get (HIF.MSIX_ADDR_LO_ADDR v) * 4 + s.get (HIF.MSIX_ADDR_HI_ADDR v) * 2 ^ 32

theorem State.frame.vecAddr (h : s.frame t ps fs) (hfs : ∀ g ∈ fs, ¬ hostSet g.off) (hv : v < 64) : t.vecAddr v = s.vecAddr v := by
  rw [State.vecAddr, h.get_hostSet hfs (hostSet_table (c := 0) hv (by decide)) (Nat.le_of_ble_eq_true rfl),
    h.get_hostSet hfs (hostSet_table (c := 4) hv (by decide)) (Nat.le_of_ble_eq_true rfl), State.vecAddr]
theorem State.frame.vecData (h : s.frame t ps fs) (hfs : ∀ g ∈ fs, ¬ hostSet g.off) (hv : v < 64) :
    t.get (HIF.MSIX_DATA_DATA v) = s.get (HIF.MSIX_DATA_DATA v) :=
  h.get_hostSet hfs (hostSet_table (c := 8) hv (by decide)) (Nat.le_of_ble_eq_true rfl)
theorem State.frame.vecMask (h : s.frame t ps fs) (hfs : ∀ g ∈ fs, ¬ hostSet g.off) (hv : v < 64) :
    t.on (HIF.MSIX_CTL_MASK v) = s.on (HIF.MSIX_CTL_MASK v) :=
  State.on_eq_of_get (h.get_hostSet hfs (hostSet_table (c := 12) hv (by decide)) (Nat.le_of_ble_eq_true rfl))

theorem State.frame_hostFn (s : State) (x : HostFn) : s.frame { s with hostFn := x } [.hostFn] [] := by
  refine State.frame.rfl'.part .hostFn (by simp) rfl rfl fun p hp => ?_
  cases p
  case hostFn => exact absurd rfl hp
  all_goals simp [Part.same, State.dramByte, State.queuedWrite, State.chan, State.chanAt, State.damageOf, State.hostByte]

theorem State.frame_sendVec (s : State) (v : Nat) : s.frame (s.sendVec v) [.host, .hostFn] [] :=
  ((State.frame_host s _).mono (by simp) fun _ h => h).trans ((State.frame_hostFn _ _).mono (by simp) fun _ h => h)

/-- The message of a vector is sent: its data word, at its address, and no byte around it. -/
theorem State.sendVec_spec (s : State) (v : Nat) : (s.sendVec v).hostFn = { s.hostFn with messages := s.hostFn.messages + 1 } ∧
    (s.sendVec v).hostHas (s.vecAddr v) [s.get (HIF.MSIX_DATA_DATA v)] = true ∧
    ∀ a, a < s.vecAddr v ∨ s.vecAddr v + 4 ≤ a → (s.sendVec v).hostByte a = s.hostByte a := by
  have hbyte : ∀ a, (s.sendVec v).hostByte a = (s.storeHost (s.vecAddr v) ([s.get (HIF.MSIX_DATA_DATA v)].flatMap (leBytes 4))).hostByte a := fun a => by
    rw [List.flatMap_singleton]
    rfl
  refine ⟨rfl, (State.hostHas_congr fun a _ _ => hbyte a).trans (State.hostHas_storeHost ..), fun a ha => ?_⟩
  rw [hbyte, State.hostByte_storeHost, length_flatMap_leBytes]
  exact if_neg (by rw [List.length_singleton]; omega)

/-- A vector that fires and may be sent: its count and timer are cleared, and its message is sent. -/
theorem State.fireVec_sent (hf : s.hostFn.fnMask = false) (hm : s.on (HIF.MSIX_CTL_MASK v) = false) (ho : s.hostFn.open = true) :
    s.fireVec v = (s.setVec v Vec.init).sendVec v := if_neg (by rw [hf, hm, ho]; decide)
theorem State.vec_sendVec (s : State) (u : Nat) : (s.sendVec v).vec u = s.vec u := rfl
theorem State.vecAddr_setVec (x : Vec) : (s.setVec n x).vecAddr v = s.vecAddr v := by
  rw [State.vecAddr, State.get_setVec, State.get_setVec, State.vecAddr]

/-- What a vector that fires and may be sent leaves. -/
theorem State.fireVec_spec (hf : s.hostFn.fnMask = false) (hm : s.on (HIF.MSIX_CTL_MASK v) = false) (ho : s.hostFn.open = true) :
    (s.fireVec v).vec v = Vec.init ∧ (∀ u, u ≠ v → (s.fireVec v).vec u = s.vec u) ∧
    (s.fireVec v).hostFn = { s.hostFn with messages := s.hostFn.messages + 1 } ∧
    (s.fireVec v).hostHas (s.vecAddr v) [s.get (HIF.MSIX_DATA_DATA v)] = true ∧
    (∀ a, a < s.vecAddr v ∨ s.vecAddr v + 4 ≤ a → (s.fireVec v).hostByte a = s.hostByte a) ∧
    s.frame (s.fireVec v) [.host, .vecs, .hostFn] [] := by
  obtain ⟨hfn, hhas, hrest⟩ := (s.setVec v Vec.init).sendVec_spec v
  rw [State.vecAddr_setVec] at hhas hrest
  rw [State.get_setVec] at hhas
  rw [State.fireVec_sent hf hm ho]
  exact ⟨(State.vec_sendVec ..).trans (State.vec_setVec ..), fun u hu => (State.vec_sendVec ..).trans (State.vec_setVec_ne _ _ hu), hfn, hhas, hrest,
    (State.frame.rfl'.setVec _ _ (by simp)).trans (((s.setVec v Vec.init).frame_sendVec v).mono (by simp) fun _ h => h)⟩

/-- The vector can take k slips more without firing. -/
def State.room (s : State) (v k : Nat) : Prop := (s.vec v).count + k < s.get (HIF.MSIX_MOD_COUNT v) ∧ s.get (HIF.MSIX_MOD_HOLD v) ≠ 0

/-- A vector once a slip has counted. -/
def Vec.counts (x : Vec) (now : Nat) : Vec := { count := x.count + 1, timer := x.timer <|> some now }

theorem State.countVec_room (h : s.room v 1) : s.countVec v = s.setVec v ((s.vec v).counts s.ticks) := by
  obtain ⟨hcount, hhold⟩ := h
  exact if_neg (by rw [State.get_setVec, State.get_setVec]; exact not_or.2 ⟨Nat.not_le.2 hcount, hhold⟩)
theorem State.countVec_full (h : s.get (HIF.MSIX_MOD_COUNT v) ≤ (s.vec v).count + 1) :
    s.countVec v = (s.setVec v ((s.vec v).counts s.ticks)).fireVec v :=
  if_pos (.inl (by rw [State.get_setVec]; exact h))

theorem State.frame.vec (h : s.frame t ps fs) (hp : .vecs ∉ ps) (v : Nat) : t.vec v = s.vec v := by
  have hvecs : t.vecs = s.vecs := h.1 .vecs hp
  rw [State.vec, hvecs, State.vec]

theorem State.frame.room (h : s.frame t ps fs) (hfs : ∀ g ∈ fs, ¬ hostSet g.off) (hp : .vecs ∉ ps) (hv : v < 64) {k : Nat} : t.room v k ↔ s.room v k := by
  rw [State.room, h.vec hp, h.get_hostSet hfs (f := HIF.MSIX_MOD_COUNT v) (hostSet_mod hv) (Nat.le_of_ble_eq_true rfl),
    h.get_hostSet hfs (f := HIF.MSIX_MOD_HOLD v) (hostSet_mod hv) (Nat.le_of_ble_eq_true rfl), State.room]

theorem State.vector_slipPut (s : State) (hn : n < 64) (r : RetSlip) : (s.slipPut n r).get (HIF.RP_CFG_VECTOR n) = s.get (HIF.RP_CFG_VECTOR n) :=
  (s.frame_slipPut n r).vector (slipFields_not_hostSet hn) hn

theorem State.vec_slipPut (s : State) (n : Nat) (r : RetSlip) (v : Nat) : (s.slipPut n r).vec v = s.vec v :=
  (s.frame_slipPut n r).vec (by simp) v

/-- A slip that its vector has room for counts, if at all, and its vector has room for one less. -/
theorem State.writeSlip_room (hn : n < 64) {k : Nat} (h : s.room (s.get (HIF.RP_CFG_VECTOR n)) (k + 1)) :
    (s.slipPut n r).frame (s.writeSlip n r) [.vecs] [] ∧ (s.writeSlip n r).room (s.get (HIF.RP_CFG_VECTOR n)) k := by
  have hput : (s.slipPut n r).room (s.get (HIF.RP_CFG_VECTOR n)) (k + 1) :=
    ((s.frame_slipPut n r).room (slipFields_not_hostSet hn) (by simp) (s.vector_lt n)).2 h
  obtain ⟨hcount, hhold⟩ := hput
  by_cases hc : r.noIrq = true ∨ r.counted = true
  · rw [State.writeSlip_uncounted hc]
    exact ⟨State.frame.rfl', by omega, hhold⟩
  · rw [not_or, Bool.not_eq_true, Bool.not_eq_true] at hc
    rw [State.writeSlip_counted hc.1 hc.2, s.vector_slipPut hn r, State.countVec_room ⟨by omega, hhold⟩]
    refine ⟨State.frame.rfl'.setVec _ _ (by simp), ?_⟩
    rw [State.room, State.vec_setVec, State.get_setVec, State.get_setVec]
    exact ⟨show ((s.slipPut n r).vec _).count + 1 + k < _ by omega, hhold⟩

theorem State.frame_writeSlip_room (hn : n < 64) {k : Nat} (h : s.room (s.get (HIF.RP_CFG_VECTOR n)) (k + 1)) :
    s.frame (s.writeSlip n r) [.host, .vecs] (slipFields n) :=
  ((s.frame_slipPut n r).mono (by simp) fun _ h => h).trans ((State.writeSlip_room hn h).1.mono (by simp) (by simp))

/-! ### Slips written one after another (R209) -/

def State.writeSlips (s : State) (n : Nat) (l : List RetSlip) : State := l.foldl (fun s e => s.writeSlip n e) s

/-- Slips that their vector has room for. -/
theorem State.frame_writeSlips (hn : n < 64) {l : List RetSlip} (h : s.room (s.get (HIF.RP_CFG_VECTOR n)) l.length) :
    s.frame (s.writeSlips n l) [.host, .vecs] (slipFields n) := by
  induction l generalizing s with
  | nil => exact State.frame.rfl'
  | cons e l ih =>
    obtain ⟨-, hroom⟩ := State.writeSlip_room (r := e) hn h
    have hone := State.frame_writeSlip_room (r := e) hn h
    rw [← hone.vector (slipFields_not_hostSet hn) hn] at hroom
    exact hone.trans (ih hroom)

/-- Slips that do not reach the end of the ring stand one behind another, and no byte before them changes. -/
theorem State.writeSlips_host (hn : n < 64) {l : List RetSlip} (h : s.room (s.get (HIF.RP_CFG_VECTOR n)) l.length)
    (hlt : s.get (HIF.RP_RQ_STAT_RQ_TAIL n) + l.length < s.rqSize n) (hsize : s.rqSize n ≤ 65536) :
    (s.writeSlips n l).get (HIF.RP_RQ_STAT_RQ_TAIL n) = s.get (HIF.RP_RQ_STAT_RQ_TAIL n) + l.length ∧
    (∀ i e, l[i]? = some e → (s.writeSlips n l).hostHas (s.rqBase n + 32 * (s.get (HIF.RP_RQ_STAT_RQ_TAIL n) + i))
      (e.words (s.get (HIF.RP_STAT_SQ_HEAD n)) (s.get (HIF.RP_RQ_STAT_RQ_PHASE n))) = true) ∧
    ∀ a, a < s.rqBase n + 32 * s.get (HIF.RP_RQ_STAT_RQ_TAIL n) → (s.writeSlips n l).hostByte a = s.hostByte a := by
  induction l generalizing s with
  | nil => exact ⟨rfl, fun i e hi => by simp at hi, fun _ _ => rfl⟩
  | cons e l ih =>
    obtain ⟨hw, hroom⟩ := State.writeSlip_room (r := e) hn h
    have hone := State.frame_writeSlip_room (r := e) hn h
    have hset := slipFields_not_hostSet hn
    rw [List.length_cons] at hlt
    obtain ⟨htail, hphase⟩ := s.slipPut_get n e
    obtain ⟨hhas, hrest⟩ := s.slipPut_host n e
    rw [if_neg (by omega), Nat.mod_eq_of_lt (by omega), ← hw.get _ (Nat.le_of_ble_eq_true rfl) (by simp)] at htail
    rw [if_neg (by omega), ← hw.get _ (Nat.le_of_ble_eq_true rfl) (by simp)] at hphase
    have hhead : (s.writeSlip n e).get (HIF.RP_STAT_SQ_HEAD n) = s.get (HIF.RP_STAT_SQ_HEAD n) :=
      hone.get _ (Nat.le_of_ble_eq_true rfl) (by simp [slipFields, Fld.apart, HIF.RP_STAT_SQ_HEAD, HIF.RP_RQ_STAT_RQ_TAIL, HIF.RP_RQ_STAT_RQ_PHASE, HIF.RP_STAT, HIF.RP_RQ_STAT])
    rw [← hone.vector hset hn] at hroom
    obtain ⟨htail', hhas', hrest'⟩ := ih hroom (by rw [htail, hone.rqSize hset hn]; omega) (by rwa [hone.rqSize hset hn])
    rw [htail, hone.rqBase hset hn] at hhas' hrest'
    rw [hhead, hphase] at hhas'
    refine ⟨htail'.trans (by rw [htail, List.length_cons]; omega), fun i x hi => ?_, fun a ha => ?_⟩
    · cases i with
      | zero =>
        obtain rfl : e = x := by simpa using hi
        refine (State.hostHas_congr fun b _ hb => ?_).trans hhas
        rw [RetSlip.length_words] at hb
        exact (hrest' b (by omega)).trans (hw.1 .host (by simp) b)
      | succ i =>
        rw [show s.get (HIF.RP_RQ_STAT_RQ_TAIL n) + (i + 1) = s.get (HIF.RP_RQ_STAT_RQ_TAIL n) + 1 + i by omega]
        exact hhas' i x (by simpa using hi)
    · exact (hrest' a (by omega)).trans ((hw.1 .host (by simp) a).trans (hrest a (.inl ha)))

/-! ### Completions are written (R196, R199, R208, R209) -/

/-- The completions of a ring but for the oldest. -/
def State.leaveCompl (s : State) (n : Nat) (l : List RetSlip) : State := s.setRing n { s.ring n with compl := l }

theorem State.get_leaveCompl (s : State) (n : Nat) (l : List RetSlip) (f : Fld) : (s.leaveCompl n l).get f = s.get f := State.get_setRing ..

/-- The oldest completion of a ring has been written, and what waits for it not yet been set free. -/
def State.oldestOut (s : State) (n : Nat) (r : RetSlip) (l : List RetSlip) : State := ((s.leaveCompl n l).writeSlip n r).showBusy n

theorem State.writeCompletion_eq {l : List RetSlip} (h : (s.ring n).compl = r :: l) (hw : s.mayWrite n = true) (hf : 0 < s.rqFree n) :
    s.writeCompletion n = (s.oldestOut n r l).written r := by
  rw [State.writeCompletion, h]
  exact if_pos (by rw [hw, decide_eq_true hf]; rfl)

theorem State.writeCompletion_none (h : (s.ring n).compl = [] ∨ s.mayWrite n = false ∨ s.rqFree n = 0) : s.writeCompletion n = s := by
  rw [State.writeCompletion]
  split
  · rfl
  next hc =>
    obtain h | h | h := h
    · rw [hc] at h
      exact nomatch h
    · exact if_neg (by rw [h, Bool.false_and]; exact Bool.false_ne_true)
    · exact if_neg (by rw [h]; simp)

theorem State.written_same (hf : r.frees = (0, 0)) (ho : r.opcode ≠ 0x07) : s.written r = s := by
  rw [State.written, if_pos hf]
  split
  · exact if_neg ho
  · rfl

def complOutFields (n : Nat) : List Fld := [HIF.RP_RQ_STAT_RQ_TAIL n, HIF.RP_RQ_STAT_RQ_PHASE n, HIF.RP_STAT_BUSY n]

theorem State.mayWrite_open (h : s.mayWrite n = true) : s.hostFn.open = true := (Bool.and_eq_true_iff.1 h).2

theorem rqStat_ne_rpStat (n : Nat) : HIF.RP_RQ_STAT n ≠ HIF.RP_STAT n := by unfold HIF.RP_RQ_STAT HIF.RP_STAT; omega

section Oldest
variable {l : List RetSlip} {qs : List Part} (h : ((s.leaveCompl n l).slipPut n r).frame ((s.leaveCompl n l).writeSlip n r) qs [])
include h

theorem State.frame_oldestOut : s.frame (s.oldestOut n r l) (.host :: .rings :: qs) (complOutFields n) := by
  have hring : s.frame (s.leaveCompl n l) (.host :: .rings :: qs) (complOutFields n) := State.frame.rfl'.setRing _ _ (by simp)
  have hput := (hring.trans ((State.frame_slipPut _ n r).mono (by simp) (by simp [slipFields, complOutFields]))).trans
    (h.mono (fun _ h => List.mem_cons_of_mem _ (List.mem_cons_of_mem _ h)) (by simp))
  exact hput.showBusy _ (by simp [complOutFields])

theorem State.oldestOut_ring (hq : .rings ∉ qs) : (s.oldestOut n r l).ring n = { s.ring n with compl := l } ∧ ∀ m, m ≠ n → (s.oldestOut n r l).ring m = s.ring m := by
  have hrings : (s.oldestOut n r l).rings = (s.leaveCompl n l).rings := by
    rw [State.oldestOut, State.rings_showBusy, show _ = _ from h.1 .rings hq]
    exact (State.frame_slipPut _ n r).1 .rings (by simp)
  exact ⟨(State.ring_of_rings hrings n).trans (State.ring_setRing ..), fun m hm => (State.ring_of_rings hrings m).trans (State.ring_setRing_ne _ _ hm)⟩

/-- The completion stands where the tail was, and the tail has moved on. -/
theorem State.oldestOut_host (hn : n < 64) (hq : .host ∉ qs) :
    (s.oldestOut n r l).hostHas (s.rqBase n + 32 * s.get (HIF.RP_RQ_STAT_RQ_TAIL n)) (r.words (s.get (HIF.RP_STAT_SQ_HEAD n)) (s.get (HIF.RP_RQ_STAT_RQ_PHASE n))) = true ∧
    (∀ a, a < s.rqBase n + 32 * s.get (HIF.RP_RQ_STAT_RQ_TAIL n) ∨ s.rqBase n + 32 * s.get (HIF.RP_RQ_STAT_RQ_TAIL n) + 32 ≤ a →
      (s.oldestOut n r l).hostByte a = s.hostByte a) ∧
    (s.oldestOut n r l).get (HIF.RP_RQ_STAT_RQ_TAIL n) =
      (if s.get (HIF.RP_RQ_STAT_RQ_TAIL n) + 1 = s.rqSize n then 0 else s.get (HIF.RP_RQ_STAT_RQ_TAIL n) + 1) % 65536 ∧
    (s.oldestOut n r l).get (HIF.RP_RQ_STAT_RQ_PHASE n) =
      if s.get (HIF.RP_RQ_STAT_RQ_TAIL n) + 1 = s.rqSize n then 1 - s.get (HIF.RP_RQ_STAT_RQ_PHASE n) else s.get (HIF.RP_RQ_STAT_RQ_PHASE n) := by
  have hout : ((s.leaveCompl n l).slipPut n r).frame (s.oldestOut n r l) qs [HIF.RP_STAT_BUSY n] :=
    (h.mono (fun _ h => h) (by simp)).showBusy _ (by simp)
  obtain ⟨hhas, hrest⟩ := (s.leaveCompl n l).slipPut_host n r
  obtain ⟨htail, hphase⟩ := (s.leaveCompl n l).slipPut_get n r
  have hring : s.frame (s.leaveCompl n l) [.rings] [] := State.frame.rfl'.setRing _ _ (by simp)
  rw [hring.rqBase (by simp) hn] at hhas hrest
  rw [hring.rqSize (by simp) hn] at htail hphase
  simp only [State.get_leaveCompl] at hhas hrest htail hphase
  refine ⟨(hout.hostHas hq _ _).trans hhas, fun a ha => (hout.1 .host hq a).trans (hrest a ha), ?_, ?_⟩
  · rw [hout.get _ (Nat.le_of_ble_eq_true rfl) (by simpa using .inl (rqStat_ne_rpStat n)), htail]
  · rw [hout.get _ (Nat.le_of_ble_eq_true rfl) (by simpa using .inl (rqStat_ne_rpStat n)), hphase]

end Oldest

end Sys2Proof.Machine

/-! ### Completions that find their vector as the statements have it (R209, R211, R214) -/

namespace Sys2Proof.Machine
set_option Elab.async false

variable {s t u : State} {ps : List Part} {fs : List Fld} {n v : Nat} {r : RetSlip} {l : List RetSlip}

/-- What the writing of a ring's slips may write. -/
def writtenFields (n : Nat) : List Fld := complOutFields n ++ HIF.RP_RQ_STAT_PENDING n :: ledgerFields

theorem ledger_written : ∀ g ∈ complOutFields n ++ ledgerFields, g ∈ writtenFields n := fun _ hg =>
  (List.mem_append.1 hg).elim (List.mem_append_left _) fun h => List.mem_append_right _ (List.mem_cons_of_mem _ h)

/-- SQ_HEAD and SQ_TAIL outlast the writing of a ring's slips. -/
theorem writtenFields_apart (hn : n < 64) : ∀ g ∈ writtenFields n, (HIF.RP_STAT_SQ_HEAD n).apart g ∧ (DBL.SQ_TAIL_INDEX n).apart g := by
  simp only [writtenFields, complOutFields, ledgerFields, List.cons_append, List.nil_append, List.forall_mem_cons, List.not_mem_nil, false_imp_iff, implies_true, and_true, Fld.apart,
    HIF.RP_STAT_SQ_HEAD, DBL.SQ_TAIL_INDEX, DBL.SQ_TAIL, HIF.RP_RQ_STAT_RQ_TAIL, HIF.RP_RQ_STAT_RQ_PHASE, HIF.RP_RQ_STAT_PENDING, HIF.RP_STAT_BUSY, HIF.RP_STAT, HIF.RP_RQ_STAT,
    HIF.LEDGER_CU_CAP_UNITS, HIF.LEDGER_CU_CAP, HIF.LEDGER_CU_USED_UNITS, HIF.LEDGER_CU_USED, HIF.LEDGER_SU_CAP_UNITS, HIF.LEDGER_SU_CAP,
    HIF.LEDGER_SU_USED_UNITS, HIF.LEDGER_SU_USED]
  omega

/-- With every slip below SQ_TAIL taken, none is taken after a completion is written. -/
theorem State.frame.takeAll_same (hn : n < 64) (h : s.frame t ps fs) (hfs : ∀ g ∈ fs, g ∈ writtenFields n)
    (hidle : s.get (DBL.SQ_TAIL_INDEX n) = s.get (HIF.RP_STAT_SQ_HEAD n)) : t.takeAll n = t := by
  refine State.takeAll_idle ?_
  rw [h.get _ (Nat.le_of_ble_eq_true rfl) fun g hg => (writtenFields_apart hn g (hfs g hg)).2, hidle,
    h.get _ (Nat.le_of_ble_eq_true rfl) fun g hg => (writtenFields_apart hn g (hfs g hg)).1]

theorem State.writeSlip_counts (hn : n < 64) (hq : r.noIrq = false) (hc : r.counted = false) (h : s.room (s.get (HIF.RP_CFG_VECTOR n)) 1) :
    s.writeSlip n r = (s.slipPut n r).setVec (s.get (HIF.RP_CFG_VECTOR n)) ((s.vec (s.get (HIF.RP_CFG_VECTOR n))).counts s.ticks) := by
  have hfr := s.frame_slipPut n r
  have hticks : (s.slipPut n r).ticks = s.ticks := hfr.1 .ticks (by simp)
  rw [State.writeSlip_counted hq hc, s.vector_slipPut hn r,
    State.countVec_room ((hfr.room (slipFields_not_hostSet hn) (by simp) (s.vector_lt n)).2 h), s.vec_slipPut, hticks]

/-- A completion that fills its vector: the slip is put, and the vector fires. -/
theorem State.writeSlip_fires (hn : n < 64) (hq : r.noIrq = false) (hc : r.counted = false)
    (h : s.get (HIF.MSIX_MOD_COUNT (s.get (HIF.RP_CFG_VECTOR n))) ≤ (s.vec (s.get (HIF.RP_CFG_VECTOR n))).count + 1) :
    s.writeSlip n r = ((s.slipPut n r).setVec (s.get (HIF.RP_CFG_VECTOR n)) ((s.vec (s.get (HIF.RP_CFG_VECTOR n))).counts s.ticks)).fireVec
      (s.get (HIF.RP_CFG_VECTOR n)) := by
  have hfr := s.frame_slipPut n r
  have hticks : (s.slipPut n r).ticks = s.ticks := hfr.1 .ticks (by simp)
  rw [State.writeSlip_counted hq hc, s.vector_slipPut hn r, State.countVec_full, s.vec_slipPut, hticks]
  rwa [s.vec_slipPut, hfr.get_hostSet (slipFields_not_hostSet hn) (f := HIF.MSIX_MOD_COUNT _) (hostSet_mod (s.vector_lt n)) (Nat.le_of_ble_eq_true rfl)]

theorem State.leaveCompl_room (l : List RetSlip) {k : Nat} : (s.leaveCompl n l).room v k ↔ s.room v k := by
  rw [State.room, State.room, State.get_leaveCompl, State.get_leaveCompl]
  rfl

theorem State.vec_oldestOut (s : State) (n : Nat) (r : RetSlip) (l : List RetSlip) (v : Nat) :
    (s.oldestOut n r l).vec v = ((s.leaveCompl n l).writeSlip n r).vec v := by
  rw [State.oldestOut, State.showBusy, State.vec, State.put_vecs, State.vec]

theorem State.written_closed (hf : r.frees ≠ (0, 0)) (ho : r.opcode ≠ 0x07) : s.written r = s.showLedger := by
  rw [State.written, if_neg hf]
  split
  · exact if_neg ho
  · rfl

/-- The ledger shows the charges of the state it is shown in (R214). -/
theorem State.showLedger_used (s : State) : s.showLedger.get HIF.LEDGER_CU_USED_UNITS = s.showLedger.charges.1 % 2 ^ 24 ∧
    s.showLedger.get HIF.LEDGER_SU_USED_UNITS = s.showLedger.charges.2 % 2 ^ 24 := by
  have hc : s.showLedger.charges = s.charges := by
    simp only [State.charges, State.openStreams, State.showLedger, State.put_streams, State.put_staged, State.put_taking, State.put_rings]
  rw [hc, State.showLedger]
  refine ⟨?_, ?_⟩
  · rw [State.get_put_apart _ _ (by decide) (by decide), State.get_put_apart _ _ (by decide) (by decide), State.get_put_same _ _ (by decide)]
    rfl
  · rw [State.get_put_same _ _ (by decide)]
    rfl

/-- A stream without pictures has none to settle. -/
theorem State.settle_none {m : Nat} (h : (s.stream m).pics = []) : s.settle m = s.setStream m (s.stream m) := by
  rw [State.settle, h, List.foldl_nil]
  have hx : { s.stream m with pics := [] } = s.stream m := by rw [← h]
  rw [h, List.filter_nil, hx]

/-- The oldest completion fills its vector, which fires: its count is cleared, and its message sent. -/
theorem State.oldestOut_fires (hn : n < 64) (hq : r.noIrq = false) (hc : r.counted = false)
    (h : s.get (HIF.MSIX_MOD_COUNT (s.get (HIF.RP_CFG_VECTOR n))) ≤ (s.vec (s.get (HIF.RP_CFG_VECTOR n))).count + 1)
    (hf : s.hostFn.fnMask = false) (hm : s.on (HIF.MSIX_CTL_MASK (s.get (HIF.RP_CFG_VECTOR n))) = false) (ho : s.hostFn.open = true) :
    (s.oldestOut n r l).vec (s.get (HIF.RP_CFG_VECTOR n)) = Vec.init ∧ (s.oldestOut n r l).hostFn = { s.hostFn with messages := s.hostFn.messages + 1 } ∧
    (s.oldestOut n r l).hostHas (s.vecAddr (s.get (HIF.RP_CFG_VECTOR n))) [s.get (HIF.MSIX_DATA_DATA (s.get (HIF.RP_CFG_VECTOR n)))] = true ∧
    ((s.leaveCompl n l).slipPut n r).frame ((s.leaveCompl n l).writeSlip n r) [.host, .vecs, .hostFn] [] := by
  have hv := s.vector_lt n
  generalize hvec : s.get (HIF.RP_CFG_VECTOR n) = v at *
  have hslip := State.writeSlip_fires (s := s.leaveCompl n l) (r := r) hn hq hc (by rw [State.get_leaveCompl, State.get_leaveCompl, hvec]; exact h)
  rw [State.get_leaveCompl, hvec] at hslip
  generalize ((s.leaveCompl n l).vec v).counts (s.leaveCompl n l).ticks = x at hslip
  have hput : s.frame (((s.leaveCompl n l).slipPut n r).setVec v x) [.host, .rings, .vecs] (slipFields n) :=
    ((State.frame.rfl'.setRing _ _ (by simp)).trans (((s.leaveCompl n l).frame_slipPut n r).mono (by simp) fun _ h => h)).setVec _ _ (by simp)
  have hset := slipFields_not_hostSet hn
  have hfn : (((s.leaveCompl n l).slipPut n r).setVec v x).hostFn = s.hostFn := hput.1 .hostFn (by simp)
  obtain ⟨hinit, -, hsent, hhas, -, hfr⟩ := State.fireVec_spec (s := ((s.leaveCompl n l).slipPut n r).setVec v x) (v := v) (by rw [hfn, hf])
    (by rw [hput.vecMask hset hv, hm]) (by rw [hfn, ho])
  rw [hput.vecAddr hset hv, hput.vecData hset hv] at hhas
  have hout : ((((s.leaveCompl n l).slipPut n r).setVec v x).fireVec v).frame (s.oldestOut n r l) [] [HIF.RP_STAT_BUSY n] := by
    rw [State.oldestOut, hslip]
    exact State.frame.rfl'.showBusy _ (by simp)
  refine ⟨(hout.vec (by simp) v).trans hinit, (show _ = _ from hout.1 .hostFn (by simp)).trans (hsent.trans (by rw [hfn])), (hout.hostHas (by simp) _ _).trans hhas, ?_⟩
  rw [hslip]
  exact (State.frame.rfl'.setVec _ _ (by simp)).trans (hfr.mono (by simp) fun _ h => h)

/-! ### Events are written (R209) -/

/-- The event queue without its first k slips. -/
def State.leaveEvents (s : State) (n k : Nat) : State := s.setRing n { s.ring n with events := (s.ring n).events.drop k, evTick := s.ticks }

def eventFields (n : Nat) : List Fld := [HIF.RP_RQ_STAT_RQ_TAIL n, HIF.RP_RQ_STAT_RQ_PHASE n, HIF.RP_RQ_STAT_PENDING n]

theorem eventFields_not_hostSet (hn : n < 64) : ∀ g ∈ eventFields n, ¬ hostSet g.off := by
  simpa [eventFields] using ⟨not_hostSet_rqStat hn, not_hostSet_rqStat hn, not_hostSet_rqStat hn⟩

theorem State.frame_leaveEvents (s : State) (n k : Nat) : s.frame (s.leaveEvents n k) [.rings] [] := State.frame.rfl'.setRing _ _ (by simp)

theorem State.room_le {j k : Nat} (h : s.room v k) (hj : j ≤ k) : s.room v j := ⟨by have := h.1; omega, h.2⟩

theorem State.putLost_none (h : (s.ring n).lost = 0) : s.putLost n = s := if_neg fun h' => h'.1 h

/-- The first k slips of a queue that its vector has room for are written, and the queue goes on behind them. -/
theorem State.writeEvents_spec (hn : n < 64) {k : Nat} (hk : k ≤ (s.ring n).events.length) (hl : (s.ring n).lost = 0)
    (h : s.room (s.get (HIF.RP_CFG_VECTOR n)) k) :
    ((s.leaveEvents n k).writeSlips n ((s.ring n).events.take k)).frame (s.writeEvents n k) [] [HIF.RP_RQ_STAT_PENDING n] ∧
    s.frame (s.writeEvents n k) [.host, .rings, .vecs] (eventFields n) ∧
    (s.writeEvents n k).ring n = { s.ring n with events := (s.ring n).events.drop k, evTick := s.ticks } := by
  have hless := s.frame_leaveEvents n k
  have hroom : (s.leaveEvents n k).room ((s.leaveEvents n k).get (HIF.RP_CFG_VECTOR n)) ((s.ring n).events.take k).length := by
    rw [List.length_take_of_le hk, hless.vector (by simp) hn]
    exact (hless.room (by simp) (by simp) (s.vector_lt n)).2 h
  have hfr := State.frame_writeSlips hn hroom
  have hring : (((s.leaveEvents n k).writeSlips n ((s.ring n).events.take k)).showPending n).ring n =
      { s.ring n with events := (s.ring n).events.drop k, evTick := s.ticks } := by
    rw [State.showPending, State.ring_put, State.ring_of_rings (hfr.1 .rings (by simp))]
    exact State.ring_setRing ..
  have hlost : (((s.leaveEvents n k).writeSlips n ((s.ring n).events.take k)).showPending n).putLost n =
      ((s.leaveEvents n k).writeSlips n ((s.ring n).events.take k)).showPending n := State.putLost_none (by rw [hring]; exact hl)
  rw [show s.writeEvents n k = _ from hlost, hring]
  exact ⟨State.frame.rfl'.showPending _ (by simp), ((hless.mono (by simp) (by simp)).trans (hfr.mono (by simp) (by simp [slipFields, eventFields]))).showPending _ (by simp [eventFields]), rfl⟩

/-- A queue whose drain is over, its slips not yet written. -/
def State.drained (s : State) (n : Nat) : State :=
  (s.setRing n { s.ring n with drain := (s.ring n).events.length }).setRing n { s.ring n with drain := 0 }

theorem State.frame_drained (s : State) (n : Nat) : s.frame (s.drained n) [.rings] [] := (State.frame.rfl'.setRing _ _ (by simp)).setRing _ _ (by simp)
theorem State.ring_drained (s : State) (n : Nat) : (s.drained n).ring n = { s.ring n with drain := 0 } := State.ring_setRing ..

/-- A drain that finds room in the ring writes the whole queue. -/
theorem State.beginDrain_eq (hc : (s.ring n).compl = []) (hm : s.mayWrite n = true) (hf : (s.ring n).events.length ≤ s.rqFree n) :
    s.beginDrain n = (s.drained n).writeEvents n (s.ring n).events.length := by
  have hq := State.ring_setRing (s := s) n { s.ring n with drain := (s.ring n).events.length }
  have hmay : (s.setRing n { s.ring n with drain := (s.ring n).events.length }).mayWrite n = true := hm
  have hfree : (s.setRing n { s.ring n with drain := (s.ring n).events.length }).rqFree n = s.rqFree n := rfl
  have hempty : (s.ring n).compl.isEmpty = true := by rw [hc]; rfl
  rw [State.beginDrain, State.drained]
  generalize s.setRing n { s.ring n with drain := (s.ring n).events.length } = q at *
  rw [State.drainOn]
  simp only [hmay, hq, hempty, hfree, Nat.min_self, Nat.min_eq_left hf, Nat.sub_self, Bool.and_self, if_true]

/-- A queue with room in the ring and in its vector is drained whole. -/
theorem State.beginDrain_spec (hn : n < 64) (hc : (s.ring n).compl = []) (hl : (s.ring n).lost = 0) (hm : s.mayWrite n = true)
    (hf : (s.ring n).events.length ≤ s.rqFree n) (h : s.room (s.get (HIF.RP_CFG_VECTOR n)) (s.ring n).events.length) :
    s.frame (s.beginDrain n) [.host, .rings, .vecs] (eventFields n) ∧
    (s.beginDrain n).ring n = { s.ring n with drain := 0, events := [], evTick := s.ticks } := by
  have hp := s.frame_drained n
  obtain ⟨-, hfr, hring⟩ := State.writeEvents_spec (s := s.drained n) (k := (s.ring n).events.length) hn (by rw [s.ring_drained]) (by rw [s.ring_drained]; exact hl)
    (by rw [hp.vector (by simp) hn]; exact (hp.room (by simp) (by simp) (s.vector_lt n)).2 h)
  have hticks : (s.drained n).ticks = s.ticks := hp.1 .ticks (by simp)
  rw [State.beginDrain_eq hc hm hf]
  exact ⟨(hp.mono (by simp) (by simp)).trans hfr, by rw [hring, s.ring_drained, hticks, List.drop_length]⟩

/-! ### Vectors stay pending (R211, R212) -/

/-- A hold timer that has run out fires its vector. -/
theorem exec_msixHoldTimer {start : Nat} (ht : (s.vec v).timer = some start) (hh : s.get (HIF.MSIX_MOD_HOLD v) ≤ s.usSince start) :
    exec (.msixHoldTimer v) s = .next (s.fireVec v) := by
  show execMsixHoldTimer v s = _
  rw [execMsixHoldTimer, ht]
  exact congrArg Host.Outcome.next (if_pos hh)

theorem State.fireVec_shut (h : s.hostFn.fnMask = true ∨ s.on (HIF.MSIX_CTL_MASK v) = true ∨ s.hostFn.open = false) : s.fireVec v = s.keepVec v :=
  if_pos (by obtain h | h | h := h <;> simp [h])

theorem vectorBits_not_hostSet (hv : v < 64) : ∀ g ∈ vectorBits v, ¬ hostSet g.off := by
  simp only [vectorBits, List.forall_mem_cons, List.not_mem_nil, false_imp_iff, implies_true, and_true, hostSet, HIF.VEC_PEND, HIF.MSIX_PBA]
  omega

theorem State.frame_setVecPending (s : State) (v : Nat) (b : Bool) : s.frame (s.setVecPending v b) [] (vectorBits v) :=
  State.frame.rfl'.setVecPending _ _ fun _ h => h

theorem State.vecPending_setVecPending {w : Nat} (hw : w < 64) (b : Bool) : (s.setVecPending v b).vecPending w = if w = v then b else s.vecPending w := by
  have hpba : ∀ {u : State}, (u.putBit (HIF.MSIX_PBA 0) v b).vecPending w = u.vecPending w := fun {u} =>
    State.bitOn_congr (State.get_put_apart _ _ (bitFld_le _ _) (bitFld_apart_of 2 (by omega) (.inr (by show 0x80028 ≤ 0x85000 + 4 * (v / 32); omega))))
  rw [State.setVecPending, hpba]
  split
  next h => rw [h]; exact State.bitOn_putBit_same ..
  next h => exact State.bitOn_congr (State.get_put_apart _ _ (bitFld_le _ _) (bitFld_apart _ h))

/-- A vector that fires and cannot be sent: its count and timer are cleared, and it pends. -/
def State.vecKept (s : State) (v : Nat) : State := (s.setVec v Vec.init).setVecPending v true

theorem State.frame_vecKept (s : State) (v : Nat) : s.frame (s.vecKept v) [.vecs] (vectorBits v) :=
  (State.frame.rfl'.setVec _ _ (by simp)).setVecPending _ _ fun _ h => h

theorem State.vecKept_spec (s : State) (hv : v < 64) : (s.vecKept v).vec v = Vec.init ∧ (∀ u, u ≠ v → (s.vecKept v).vec u = s.vec u) ∧
    (s.vecKept v).vecPending v = true ∧ ∀ u, u < 64 → u ≠ v → (s.vecKept v).vecPending u = s.vecPending u := by
  have hvecs := ((s.setVec v Vec.init).frame_setVecPending v true).vec (by simp)
  refine ⟨(hvecs v).trans (State.vec_setVec ..), fun u hu => (hvecs u).trans (State.vec_setVec_ne _ _ hu), ?_, fun u hu hne => ?_⟩
  · rw [State.vecKept, State.vecPending_setVecPending hv, if_pos rfl]
  · rw [State.vecKept, State.vecPending_setVecPending hu, if_neg hne]
    exact State.bitOn_congr (State.get_setVec ..)

/-- A PME asks for the host where its power state is all that keeps the vector. -/
theorem State.keepVec_eq (s : State) (hv : v < 64) :
    s.keepVec v = if (!s.hostFn.fnMask && !s.on (HIF.MSIX_CTL_MASK v) && s.hostFn.pmeEn) = true then (s.vecKept v).pme else s.vecKept v := by
  have hfr := s.frame_vecKept v
  have hfn : (s.vecKept v).hostFn = s.hostFn := hfr.1 .hostFn (by simp)
  rw [← hfr.vecMask (vectorBits_not_hostSet hv) hv, ← hfn]
  rfl

theorem State.frame_pme (s : State) : s.frame s.pme [.hostFn, .power] [] := State.frame.rfl'.pme (by simp) (by simp)

theorem State.pme_spec (s : State) : s.pme.hostFn = { s.hostFn with pmes := s.hostFn.pmes + if s.power.linkL2 = false then 1 else 0 } ∧
    s.pme.power = { s.power with wakeN := s.power.wakeN || s.power.linkL2 } := by
  rw [State.pme]
  by_cases hl : s.power.linkL2 = true
  · rw [if_pos hl, if_neg (by simp [hl])]
    exact ⟨rfl, by rw [show (s.power.wakeN || s.power.linkL2) = true by rw [hl, Bool.or_true]]⟩
  · rw [if_neg hl, if_pos (by simpa using hl)]
    exact ⟨rfl, by rw [show (s.power.wakeN || s.power.linkL2) = s.power.wakeN by rw [eq_false_of_ne_true hl, Bool.or_false]]⟩

theorem State.keepVec_masked (hv : v < 64) (h : s.hostFn.fnMask = true ∨ s.on (HIF.MSIX_CTL_MASK v) = true) : s.keepVec v = s.vecKept v := by
  rw [State.keepVec_eq _ hv]
  exact if_neg (by obtain h | h := h <;> simp [h])

/-- What a vector that only the host's power state keeps leaves (R212). -/
theorem State.keepVec_shut (hv : v < 64) (hf : s.hostFn.fnMask = false) (hm : s.on (HIF.MSIX_CTL_MASK v) = false) :
    (s.keepVec v).vec v = Vec.init ∧ (s.keepVec v).vecPending v = true ∧
    (s.keepVec v).hostFn = { s.hostFn with pmes := s.hostFn.pmes + if s.hostFn.pmeEn = true ∧ s.power.linkL2 = false then 1 else 0 } ∧
    (s.keepVec v).power = { s.power with wakeN := s.power.wakeN || (s.hostFn.pmeEn && s.power.linkL2) } ∧
    s.frame (s.keepVec v) [.vecs, .hostFn, .power] (vectorBits v) := by
  have hfr := s.frame_vecKept v
  have hfn : (s.vecKept v).hostFn = s.hostFn := hfr.1 .hostFn (by simp)
  have hpw : (s.vecKept v).power = s.power := hfr.1 .power (by simp)
  obtain ⟨hvec, -, hpend, -⟩ := s.vecKept_spec hv
  by_cases hp : s.hostFn.pmeEn = true
  · rw [State.keepVec_eq _ hv, if_pos (by simp [hf, hm, hp])]
    have hpme := (s.vecKept v).frame_pme
    obtain ⟨hsent, hwake⟩ := (s.vecKept v).pme_spec
    rw [hfn, hpw] at hsent
    rw [hpw] at hwake
    refine ⟨(hpme.vec (by simp) v).trans hvec, (State.bitOn_of_frame hpme (by simp)).trans hpend, ?_, ?_, (hfr.mono (by simp) fun _ h => h).trans (hpme.mono (by simp) (by simp))⟩
    · simp only [hsent, hp, true_and]
    · simp only [hwake, hp, Bool.true_and]
  · rw [State.keepVec_eq _ hv, if_neg (by simp [hp])]
    refine ⟨hvec, hpend, ?_, ?_, hfr.mono (by simp) fun _ h => h⟩
    · rw [hfn, if_neg fun h => hp h.1]
      rfl
    · rw [hpw, eq_false_of_ne_true hp, Bool.false_and, Bool.or_false]

/-! ### Pending vectors are sent (R211, R212) -/

/-- A change of single bits, told of the registers they lie in. -/
theorem State.frame.cover {fs' : List Fld} (h : s.frame t ps fs) (hc : ∀ g ∈ fs, ∃ off, g.off = off ∧ g.lo + g.w ≤ 32 ∧ Fld.whole off ∈ fs') : s.frame t ps fs' := by
  refine ⟨h.1, fun f hf ha => h.2 f hf fun g hg => ?_⟩
  obtain ⟨off, rfl, hg32, hin⟩ := hc g hg
  have hap : f.off ≠ g.off ∨ f.lo + f.w ≤ 0 ∨ 0 + 32 ≤ f.lo := ha _ hin
  exact hap.imp_right (Or.imp (by omega) (by omega))

/-- The pending vector may be sent. -/
def State.sendable (s : State) (v : Nat) : Bool := s.vecPending v && !s.hostFn.fnMask && !s.on (HIF.MSIX_CTL_MASK v) && s.hostFn.open

/-- What the sending of vectors may write; `late`: VEC_LATE too (R212). -/
def sendFields (late : Bool) : List Fld :=
  [HIF.VEC_PEND_VECTOR 0, HIF.VEC_PEND_VECTOR 1, HIF.MSIX_PBA_PENDING 0, HIF.MSIX_PBA_PENDING 1] ++
    if late then [HIF.VEC_LATE_VECTOR 0, HIF.VEC_LATE_VECTOR 1] else []

/-- From s to t the pending vectors of a list are sent, and marked as late where that is asked for. -/
structure State.Sends (late : Bool) (l : List Nat) (s t : State) : Prop where
  hostFn : t.hostFn = { s.hostFn with messages := s.hostFn.messages + l.length }
  pending : ∀ u, u < 64 → t.vecPending u = (s.vecPending u && !l.contains u)
  lates : ∀ u, u < 64 → t.bitOn (HIF.VEC_LATE 0) u = (s.bitOn (HIF.VEC_LATE 0) u || (late && l.contains u))
  frame : s.frame t [.host, .hostFn] (sendFields late)

variable {late : Bool} {k : List Nat}

theorem State.Sends.none (late : Bool) (s : State) : State.Sends late [] s s := ⟨rfl, fun _ _ => by simp, fun _ _ => by simp, State.frame.rfl'⟩

theorem State.Sends.trans {l : List Nat} (h : State.Sends late l s t) (g : State.Sends late k t u) : State.Sends late (l ++ k) s u := by
  refine ⟨?_, fun v hv => ?_, fun v hv => ?_, h.frame.trans g.frame⟩
  · rw [g.hostFn, h.hostFn, List.length_append, Nat.add_assoc]
  · rw [g.pending v hv, h.pending v hv, List.contains_append, Bool.not_or, Bool.and_assoc]
  · rw [g.lates v hv, h.lates v hv, List.contains_append, Bool.and_or_distrib_left, Bool.or_assoc]

theorem sendFields_not_hostSet (late : Bool) : ∀ g ∈ sendFields late, ¬ hostSet g.off := by
  cases late <;> simp [sendFields, hostSet, HIF.VEC_PEND_VECTOR, HIF.VEC_PEND, HIF.MSIX_PBA_PENDING, HIF.MSIX_PBA, HIF.VEC_LATE_VECTOR, HIF.VEC_LATE]

theorem State.frame_setVecPending_send (s : State) (hv : v < 64) (b : Bool) (late : Bool) : s.frame (s.setVecPending v b) [] (sendFields late) := by
  have h2 : v / 32 = 0 ∨ v / 32 = 1 := by omega
  refine (s.frame_setVecPending v b).cover fun g hg => ⟨_, rfl, ?_, ?_⟩
  · obtain rfl | rfl : g = _ ∨ g = _ := by simpa [vectorBits] using hg
    · exact bitFld_le _ _
    · exact bitFld_le _ _
  · obtain rfl | rfl : g = _ ∨ g = _ := by simpa [vectorBits] using hg
    · obtain h | h := h2 <;> simp [sendFields, h, Fld.whole, HIF.VEC_PEND_VECTOR, HIF.VEC_PEND]
    · obtain h | h := h2 <;> simp [sendFields, h, Fld.whole, HIF.MSIX_PBA_PENDING, HIF.MSIX_PBA]


/-- A pending vector after it has been sent. -/
def State.sent (s : State) (v : Nat) : State := (s.setVecPending v false).sendVec v

theorem State.sendPending_of (h : s.sendable v = true) : s.sendPending v = s.sent v := if_pos h
theorem State.sendPending_not (h : s.sendable v = false) : s.sendPending v = s := if_neg fun h' => Bool.false_ne_true (h.symm.trans h')

theorem State.vecPending_bits {w : Nat} (h : w < 64) {f : Fld} (hf : f.off < HIF.VEC_PEND 0 ∨ HIF.VEC_LATE 0 ≤ f.off) (x : Nat) :
    (s.put f x).vecPending w = s.vecPending w :=
  State.bitOn_congr (State.get_put_apart _ _ (bitFld_le _ _) (bitFld_apart_of 2 (by omega) hf))

/-- The bits of VEC_LATE are none of those that make a vector pending. -/
theorem late_apart (hv : v < 64) {w : Nat} (hw : w < 64) : ∀ g ∈ vectorBits w, (bitFld (HIF.VEC_LATE 0) v).apart g := by
  simp only [vectorBits, List.forall_mem_cons, List.not_mem_nil, false_imp_iff, implies_true, and_true, Fld.apart, bitFld, HIF.VEC_PEND, HIF.VEC_LATE, HIF.MSIX_PBA]
  omega

theorem State.sent_sends (hv : v < 64) : State.Sends false [v] s (s.sent v) := by
  have hpend := s.frame_setVecPending v false
  have hsend := (s.setVecPending v false).frame_sendVec v
  refine ⟨?_, fun w hw => ?_, fun w hw => ?_, ((s.frame_setVecPending_send hv false false).mono (by simp) fun _ h => h).trans (hsend.mono (fun _ h => h) (by simp))⟩
  · rw [State.sent, (State.sendVec_spec _ v).1, show (s.setVecPending v false).hostFn = s.hostFn from hpend.1 .hostFn (by simp)]
    rfl
  · rw [State.sent, State.vecPending, State.bitOn_of_frame hsend (by simp), ← State.vecPending, State.vecPending_setVecPending hw]
    by_cases h : w = v <;> simp [h]
  · rw [State.sent, State.bitOn_of_frame hsend (by simp), State.bitOn_of_frame hpend (late_apart hw hv)]
    simp

/-- A vector that is sent late: its VEC_LATE is set. -/
theorem State.sentLate_sends (hv : v < 64) : State.Sends true [v] s ((s.sent v).putBit (HIF.VEC_LATE 0) v true) := by
  have h := State.sent_sends (s := s) hv
  have h2 : v / 32 = 0 ∨ v / 32 = 1 := by omega
  refine ⟨?_, fun w hw => ?_, fun w hw => ?_, ?_⟩
  · rw [State.putBit_eq, State.put_hostFn, h.hostFn]
  · rw [State.putBit_eq, State.vecPending_bits hw (.inr (Nat.le_add_right ..)), h.pending w hw]
  · by_cases hwv : w = v
    · rw [hwv, State.bitOn_putBit_same]
      simp
    · rw [State.putBit_eq, State.bitOn_congr (State.get_put_apart _ _ (bitFld_le _ _) (bitFld_apart _ hwv)), h.lates w hw]
      simp [hwv]
  · have hput : (s.sent v).frame ((s.sent v).putBit (HIF.VEC_LATE 0) v true) [.host, .hostFn] [bitFld (HIF.VEC_LATE 0) v] :=
      State.frame.rfl'.putBit _ _ _ (List.mem_singleton.2 rfl)
    refine (h.frame.mono (fun _ h => h) (by simp [sendFields])).trans (hput.cover (List.forall_mem_singleton.2 ⟨_, rfl, bitFld_le _ _, ?_⟩))
    obtain h | h := h2 <;> simp [sendFields, bitFld, h, Fld.whole, HIF.VEC_LATE_VECTOR, HIF.VEC_LATE]

/-- Vectors sent one after another: those that are sendable to begin with. -/
theorem State.sends_foldl {g : State → Nat → State} (hg : ∀ (s : State) (v : Nat), v < 64 → s.hostFn.open = true → State.Sends late ([v].filter s.sendable) s (g s v))
    {l : List Nat} (hl : ∀ v ∈ l, v < 64) (hnd : l.Nodup) (ho : s.hostFn.open = true) : State.Sends late (l.filter s.sendable) s (l.foldl g s) := by
  induction l generalizing s with
  | nil => exact .none ..
  | cons v l ih =>
    obtain ⟨hvl, hnd⟩ := List.nodup_cons.1 hnd
    have hv := hg s v (hl v List.mem_cons_self) ho
    have hfn := hv.hostFn
    have hopen : (g s v).hostFn.open = s.hostFn.open := by rw [hfn]; rfl
    have hsame : ∀ u ∈ l, (g s v).sendable u = s.sendable u := fun u hu => by
      have hu64 := hl u (List.mem_cons_of_mem _ hu)
      have hne : ([v].filter s.sendable).contains u = false := by
        have hne : u ≠ v := fun e => hvl (e ▸ hu)
        simp [hne]
      rw [State.sendable, hv.pending u hu64, hne, hv.frame.vecMask (sendFields_not_hostSet late) hu64, hopen, hfn, Bool.not_false, Bool.and_true, State.sendable]
    have hrest := ih (s := g s v) (fun u hu => hl u (List.mem_cons_of_mem _ hu)) hnd (hopen.trans ho)
    rw [List.filter_congr hsame] at hrest
    have h := hv.trans hrest
    rwa [← List.filter_append, List.singleton_append] at h

/-! ### A vector is unmasked (R211) -/

theorem State.vecPending_unmask (s : State) (hv : v < 64) : (s.put (HIF.MSIX_CTL_MASK v) 0).vecPending v = s.vecPending v :=
  State.vecPending_bits hv (.inr (by show 0x80028 ≤ 0x8400C + 0x10 * v; omega)) 0

theorem State.get_unmask (s : State) (v : Nat) : (s.put (HIF.MSIX_CTL_MASK v) 0).get (HIF.MSIX_CTL_MASK v) = 0 :=
  State.get_put_same _ _ (Nat.le_of_ble_eq_true rfl)

theorem State.sendable_unmask (s : State) (hv : v < 64) :
    (s.put (HIF.MSIX_CTL_MASK v) 0).sendable v = (s.vecPending v && !s.hostFn.fnMask && s.hostFn.open) := by
  rw [State.sendable, s.vecPending_unmask hv, State.on, s.get_unmask, State.put_hostFn]
  simp

theorem State.message_unmask (s : State) (v : Nat) : (s.put (HIF.MSIX_CTL_MASK v) 0).vecAddr v = s.vecAddr v ∧
    (s.put (HIF.MSIX_CTL_MASK v) 0).get (HIF.MSIX_DATA_DATA v) = s.get (HIF.MSIX_DATA_DATA v) := by
  have hkeep : ∀ {f : Fld}, f.lo + f.w ≤ 32 → f.off ≠ HIF.MSIX_CTL v → (s.put (HIF.MSIX_CTL_MASK v) 0).get f = s.get f := fun hw ho => State.get_put_apart _ _ hw (.inl ho)
  refine ⟨?_, hkeep (Nat.le_of_ble_eq_true rfl) (by show 0x84008 + 0x10 * v ≠ 0x8400C + 0x10 * v; omega)⟩
  rw [State.vecAddr, hkeep (Nat.le_of_ble_eq_true rfl) (by show 0x84000 + 0x10 * v ≠ 0x8400C + 0x10 * v; omega),
    hkeep (Nat.le_of_ble_eq_true rfl) (by show 0x84004 + 0x10 * v ≠ 0x8400C + 0x10 * v; omega), State.vecAddr]

theorem State.frame_sent (s : State) (v : Nat) : s.frame (s.sent v) [.host, .hostFn] (vectorBits v) :=
  ((s.frame_setVecPending v false).mono (by simp) fun _ h => h).trans (((s.setVecPending v false).frame_sendVec v).mono (fun _ h => h) (by simp))

/-- The message of a pending vector that is sent. -/
theorem State.sent_message (s : State) (hv : v < 64) : (s.sent v).hostHas (s.vecAddr v) [s.get (HIF.MSIX_DATA_DATA v)] = true := by
  have hfr := s.frame_setVecPending v false
  have h := ((s.setVecPending v false).sendVec_spec v).2.1
  rwa [hfr.vecAddr (vectorBits_not_hostSet hv) hv, hfr.vecData (vectorBits_not_hostSet hv) hv] at h

end Sys2Proof.Machine

section
set_option Elab.async false
open Sys2Proof Sys2Proof.Machine

/-- Settles O40: the oldest completion is `State.oldestOut`, a group or a drain of events `State.writeEvents_spec`, a vector that fires
`State.fireVec_spec` where it may be sent and `State.vecKept` where not, and unmasking sends what is `State.sendable`. -/
theorem returnSlipsAreWrittenAndVectorsFire : Obligations.ReturnSlipsAreWrittenAndVectorsFire := by
  unfold Obligations.ReturnSlipsAreWrittenAndVectorsFire
  refine ⟨?silent, ?counts, ?fires, ?frees, ?settles, ?none, ?group, ?drains, ?lost, ?timer, ?timerMasked, ?timerShut, ?unmask, ?unmaskKept, ?unmaskAll⟩
  case silent =>
    intro s n r l hn hcompl hfrees hop hsilent hmay hfree hlt hidle
    have hfr := (s.leaveCompl n l).frame_writeSlip_silent n hsilent
    have hout := State.frame_oldestOut hfr
    obtain ⟨hhas, hrest, htail, hphase⟩ := State.oldestOut_host hfr hn (by simp)
    obtain ⟨hring, hother⟩ := State.oldestOut_ring hfr (by simp)
    refine ⟨_, rfl, ?_⟩
    rw [State.writeCompletion_eq hcompl hmay hfree, State.written_same hfrees hop,
      hout.takeAll_same hn (fun g hg => List.mem_append_left _ hg) hidle]
    exact ⟨hhas, hrest, by rw [htail, next_mod hlt], hphase, hring, hother, hout⟩
  case counts =>
    intro s n r l hn hcompl hfrees hop hirq hcounted hmay hfree hcount hhold
    have hroom : (s.leaveCompl n l).room (s.get (HIF.RP_CFG_VECTOR n)) 1 := (State.leaveCompl_room l).2 ⟨hcount, hhold⟩
    rw [← s.get_leaveCompl n l] at hroom
    have hslip := State.writeSlip_counts (r := r) hn hirq hcounted hroom
    have hfr : ((s.leaveCompl n l).slipPut n r).frame ((s.leaveCompl n l).writeSlip n r) [.vecs] [] := by
      rw [hslip]
      exact State.frame.rfl'.setVec _ _ (by simp)
    have hout := State.frame_oldestOut hfr
    obtain ⟨hhas, -⟩ := State.oldestOut_host hfr hn (by simp)
    obtain ⟨hring, -⟩ := State.oldestOut_ring hfr (by simp)
    obtain ⟨htake, htaken⟩ := (s.oldestOut n r l).takeAll_spec n
    have hvec : ((s.oldestOut n r l).takeAll n).vec (s.get (HIF.RP_CFG_VECTOR n)) = (s.vec (s.get (HIF.RP_CFG_VECTOR n))).counts s.ticks := by
      rw [htake.vec (by simp), State.vec_oldestOut, hslip, State.get_leaveCompl, State.vec_setVec]
      rfl
    refine ⟨_, rfl, ?_⟩
    rw [State.writeCompletion_eq hcompl hmay hfree, State.written_same hfrees hop]
    refine ⟨(htake.hostHas (by simp) _ _).trans hhas, ?_, ?_, ?_, ?_⟩
    · exact htaken.trans (by rw [hring])
    · rw [hvec]; rfl
    · rw [hvec]; rfl
    · exact (hout.mono (by simp) (by simp [complOutFields])).trans (htake.mono (by simp) (by simp [takeFields]))
  case fires =>
    intro s n r l hn hcompl hfrees hop hirq hcounted hmay hfree hcount hmask hvmask
    have hopen := State.mayWrite_open hmay
    obtain ⟨hvec, hfn, hhas, hfr⟩ := State.oldestOut_fires (l := l) hn hirq hcounted hcount hmask hvmask hopen
    have hout := State.frame_oldestOut hfr
    obtain ⟨hring, -⟩ := State.oldestOut_ring hfr (by simp)
    obtain ⟨htake, htaken⟩ := (s.oldestOut n r l).takeAll_spec n
    refine ⟨_, rfl, ?_⟩
    rw [State.writeCompletion_eq hcompl hmay hfree, State.written_same hfrees hop]
    refine ⟨htaken.trans (by rw [hring]), (htake.vec (by simp) _).trans hvec, (show _ = _ from htake.1 .hostFn (by simp)).trans hfn,
      (htake.hostHas (by simp) _ _).trans hhas, ?_⟩
    exact (hout.mono (by simp) (by simp [complOutFields])).trans (htake.mono (by simp) (by simp [takeFields]))
  case frees =>
    intro s n r l hn hcompl hfrees hop hsilent hmay hfree hidle
    have hfr := (s.leaveCompl n l).frame_writeSlip_silent n hsilent
    have hout : s.frame (s.oldestOut n r l).showLedger [.host, .rings] (complOutFields n ++ ledgerFields) :=
      ((State.frame_oldestOut hfr).mono (fun _ h => h) fun _ h => List.mem_append_left _ h).showLedger fun _ h => List.mem_append_right _ h
    obtain ⟨hring, hother⟩ := State.oldestOut_ring hfr (by simp)
    have hrings : ∀ m, (s.oldestOut n r l).showLedger.ring m = (s.oldestOut n r l).ring m :=
      State.ring_of_rings ((State.frame.rfl'.showLedger fun _ h => h : (s.oldestOut n r l).frame _ [] ledgerFields).1 .rings (by simp))
    refine ⟨_, rfl, ?_⟩
    rw [State.writeCompletion_eq hcompl hmay hfree, State.written_closed hfrees hop, hout.takeAll_same hn ledger_written hidle]
    exact ⟨by rw [hrings, hring], fun m hm => (hrings m).trans (hother m hm), (State.showLedger_used _).1, (State.showLedger_used _).2, hout⟩
  case settles =>
    intro s n m r l hn hcompl hfrees hop hstream hpics hsilent hmay hfree hidle
    have hfr := (s.leaveCompl n l).frame_writeSlip_silent n hsilent
    have hout := State.frame_oldestOut hfr
    obtain ⟨hring, hother⟩ := State.oldestOut_ring hfr (by simp)
    have hstreams := State.stream_of_streams (hout.1 .streams (by simp))
    have hwritten : (s.oldestOut n r l).written r = (s.oldestOut n r l).setStream m (s.stream m) := by
      rw [State.written, if_pos hfrees, hstream]
      dsimp only
      rw [if_pos hop, State.settle_none (by rw [hstreams]; exact hpics), hstreams]
    have hout' : s.frame ((s.oldestOut n r l).setStream m (s.stream m)) [.host, .rings, .streams] (complOutFields n) :=
      (hout.mono (by simp) fun _ h => h).setStream _ _ (by simp)
    refine ⟨_, rfl, ?_⟩
    rw [State.writeCompletion_eq hcompl hmay hfree, hwritten, hout'.takeAll_same hn (fun g hg => List.mem_append_left _ hg) hidle]
    have hrings := State.ring_of_rings (State.setStream_rings (s := s.oldestOut n r l) m (s.stream m))
    refine ⟨(hrings n).trans hring, fun k hk => (hrings k).trans (hother k hk), fun k => ?_, hout'⟩
    by_cases hk : k = m
    · rw [hk, State.stream_setStream]
    · rw [State.stream_setStream_ne _ _ hk, hstreams]
  case none =>
    intro s n hnone hidle
    refine ⟨_, rfl, ?_⟩
    rw [State.writeCompletion_none hnone, State.takeAll_idle hidle]
    exact State.frame.rfl'
  case group =>
    intro s n hn hdrain hcompl hlost hlen hmay hfree htail hsize hcount hhold
    obtain ⟨hshow, hfr, hring⟩ := State.writeEvents_spec hn hlen hlost ⟨hcount, hhold⟩
    have hless := s.frame_leaveEvents n 8
    have h8 : ((s.ring n).events.take 8).length = 8 := List.length_take_of_le hlen
    obtain ⟨htail', hhas, -⟩ := State.writeSlips_host (s := s.leaveEvents n 8) (l := (s.ring n).events.take 8) hn
      (by rw [h8, hless.vector (by simp) hn]; exact (hless.room (by simp) (by simp) (s.vector_lt n)).2 ⟨hcount, hhold⟩)
      (by rw [h8, hless.rqSize (by simp) hn]; exact htail) (by rw [hless.rqSize (by simp) hn]; exact hsize)
    have hexec : execEventGroupWrite n s = .next (s.writeEvents n 8) := by
      rw [execEventGroupWrite]
      exact (if_neg (not_not.2 hdrain)).trans (if_pos (by simp [hmay, hcompl, hlen, hfree]))
    refine ⟨_, hexec, by rw [hring], by rw [hring], ?_, fun i hi e he => (hshow.hostHas (by simp) _ _).trans ?_, hfr⟩
    · rw [hshow.get _ (Nat.le_of_ble_eq_true rfl) (List.forall_mem_singleton.2 (.inr (.inl (Nat.le_of_ble_eq_true rfl)))), htail', h8]
      rfl
    · have hi := hhas i e (by rw [List.getElem?_take_of_lt hi, he])
      rw [hless.rqBase (by simp) hn] at hi
      exact hi
  case drains =>
    intro s n hn hdrain hcompl hlost hne hlen htime hmay hfree hcount hhold hmask hvmask
    obtain ⟨hfr, hring⟩ := State.beginDrain_spec hn hcompl hlost hmay hfree (State.room_le (k := 8) ⟨hcount, hhold⟩ hlen.le)
    have hset := eventFields_not_hostSet hn
    have hfn : (s.beginDrain n).hostFn = s.hostFn := hfr.1 .hostFn (by simp)
    obtain ⟨hvec, -, hsent, hhas, -, hfr'⟩ := State.fireVec_spec (s := s.beginDrain n) (v := s.get (HIF.RP_CFG_VECTOR n)) (by rw [hfn, hmask])
      (by rw [hfr.vecMask hset (s.vector_lt n), hvmask]) (by rw [hfn]; exact State.mayWrite_open hmay)
    rw [hfr.vecAddr hset (s.vector_lt n), hfr.vecData hset (s.vector_lt n)] at hhas
    have hexec : execEventQueueTimeout n s = .next ((s.beginDrain n).fireVec (s.get (HIF.RP_CFG_VECTOR n))) := by
      rw [execEventQueueTimeout, ← hfr.vector hset hn]
      exact if_pos ⟨hne, hlen, hdrain, htime⟩
    refine ⟨_, hexec, ?_, hvec, hsent.trans (by rw [hfn]), hhas, (hfr.mono (by simp) fun _ h => h).trans (hfr'.mono (by simp) (by simp))⟩
    rw [State.ring_of_rings (hfr'.1 .rings (by simp)), hring]
  case lost =>
    intro s n hlost hlen
    have hexec : execLostSlip n s = .next ((s.setRing n { s.ring n with events := (s.ring n).events ++ [lostSlip (s.ring n).lost], lost := 0 }).showPending n) :=
      congrArg Host.Outcome.next (if_pos ⟨hlost, hlen⟩)
    refine ⟨_, hexec, ?_, fun m hm => ?_, ?_, (State.frame.rfl'.setRing _ _ (by simp)).showPending _ (by simp)⟩
    · rw [State.showPending, State.ring_put, State.ring_setRing]
      rfl
    · rw [State.showPending, State.ring_put, State.ring_setRing_ne _ _ hm]
    · rw [State.showPending, State.get_put_same _ _ (Nat.le_of_ble_eq_true rfl), State.ring_setRing, List.length_append]
      exact Nat.mod_eq_of_lt (show (s.ring n).events.length + 1 < 2 ^ 11 by omega)
  case timer =>
    intro s v start hv htimer hhold hmask hvmask hopen
    exact ⟨_, exec_msixHoldTimer htimer hhold, State.fireVec_spec hmask hvmask hopen⟩
  case timerMasked =>
    intro s v start hv htimer hhold hmask
    refine ⟨_, exec_msixHoldTimer htimer hhold, ?_⟩
    rw [State.fireVec_shut (by tauto), State.keepVec_masked hv hmask]
    obtain ⟨hvec, hother, hpend, hpends⟩ := s.vecKept_spec hv
    exact ⟨hvec, hother, hpend, hpends, s.frame_vecKept v⟩
  case timerShut =>
    intro s v start hv htimer hhold hmask hvmask hopen
    refine ⟨_, exec_msixHoldTimer htimer hhold, ?_⟩
    rw [State.fireVec_shut (.inr (.inr hopen))]
    exact State.keepVec_shut hv hmask hvmask
  case unmask =>
    intro s v hv hpend hmask hopen
    have hsend : (s.put (HIF.MSIX_CTL_MASK v) 0).sendable v = true := by rw [s.sendable_unmask hv, hpend, hmask, hopen]; rfl
    have hfr := (s.put (HIF.MSIX_CTL_MASK v) 0).frame_sent v
    have hsent := State.sent_sends (s := s.put (HIF.MSIX_CTL_MASK v) 0) hv
    obtain ⟨haddr, hdata⟩ := s.message_unmask v
    refine ⟨_, congrArg Host.Outcome.next (State.sendPending_of hsend), ?_, ?_, ?_, ?_, ?_⟩
    · rw [hfr.get_hostSet (vectorBits_not_hostSet hv) (f := HIF.MSIX_CTL_MASK v) (hostSet_table (c := 12) hv (by decide)) (Nat.le_of_ble_eq_true rfl), s.get_unmask]
    · rw [hsent.pending v hv]
      simp
    · rw [hsent.hostFn, State.put_hostFn]
      rfl
    · have hhas := (s.put (HIF.MSIX_CTL_MASK v) 0).sent_message hv
      rwa [haddr, hdata] at hhas
    · exact (State.frame.rfl'.put _ (by simp)).trans (hfr.mono (fun _ h => h) fun _ h => List.mem_cons_of_mem _ h)
  case unmaskKept =>
    intro s v hv hkept
    have hsend : (s.put (HIF.MSIX_CTL_MASK v) 0).sendable v = false := by
      rw [s.sendable_unmask hv]
      obtain h | h | h := hkept <;> simp [h]
    exact ⟨_, congrArg Host.Outcome.next (State.sendPending_not hsend), s.get_unmask v, State.frame.rfl'.put _ (by simp)⟩
  case unmaskAll =>
    intro s hopen
    have hstep : ∀ (s : State) (v : Nat), v < 64 → s.hostFn.open = true → State.Sends false ([v].filter s.sendable) s (s.sendPending v) := by
      intro s v hv _
      cases hs : s.sendable v with
      | true => rw [State.sendPending_of hs, List.filter_singleton, hs]; exact State.sent_sends hv
      | false => rw [State.sendPending_not hs, List.filter_singleton, hs]; exact .none ..
    generalize hq : ({ s with hostFn := { s.hostFn with fnMask := false } } : State) = q
    have hqf : s.frame q [.host, .hostFn] (sendFields false) := hq ▸ (State.frame_hostFn s _).mono (by simp) (by simp)
    have hqfn : q.hostFn = { s.hostFn with fnMask := false } := by rw [← hq]
    have h := State.sends_foldl (s := q) hstep (l := List.range 64) (fun v hv => List.mem_range.1 hv) List.nodup_range (by rw [hqfn]; exact hopen)
    have hpend : ∀ v, q.vecPending v = s.vecPending v := fun v => by rw [← hq]; rfl
    have hsendable : q.sendable = fun v => s.vecPending v && !s.on (HIF.MSIX_CTL_MASK v) := funext fun v => by
      have hmask : q.on (HIF.MSIX_CTL_MASK v) = s.on (HIF.MSIX_CTL_MASK v) := by rw [← hq]; rfl
      rw [State.sendable, hpend, hmask, hqfn, show HostFn.open { s.hostFn with fnMask := false } = true from hopen]
      simp
    have hexec : execMsixUnmask none s = .next ((List.range 64).foldl (fun s v => s.sendPending v) q) := by rw [← hq]; rfl
    refine ⟨_, hexec, ?_, fun v hv => ?_, ?_, hqf.trans h.frame⟩
    · rw [h.hostFn, hqfn]
    · rw [h.pending v hv, hpend, hsendable]
      cases hp : s.vecPending v <;> simp [hp, hv]
    · rw [h.hostFn, hqfn, hsendable]

end

/-! ### Registers written one after another (R225) -/

namespace Sys2Proof.Machine
set_option Elab.async false

variable {s t u : State} {ps : List Part} {fs : List Fld} {n v : Nat} {r : RetSlip}

def State.putAll (s : State) (l : List (Fld × Nat)) : State := l.foldl (fun s q => s.put q.1 q.2) s

theorem State.frame_putAll (s : State) (l : List (Fld × Nat)) : s.frame (s.putAll l) [] (l.map (·.1)) :=
  State.frame.rfl'.foldl_mem fun _ _ hq h => h.put _ (List.mem_map_of_mem hq)

/-- Fields that share no bit read what each was given. -/
theorem State.get_putAll {l : List (Fld × Nat)} (h : l.Pairwise fun p q => p.1.apart q.1) {f : Fld} {x : Nat} (hf : (f, x) ∈ l) (hw : f.lo + f.w ≤ 32) :
    (s.putAll l).get f = x % 2 ^ f.w := by
  induction l generalizing s with
  | nil => exact nomatch hf
  | cons p l ih =>
    obtain ⟨hp, hl⟩ := List.pairwise_cons.1 h
    obtain rfl | hf := List.mem_cons.1 hf
    · have hrest := ((s.put f x).frame_putAll l).get f hw (by simpa using fun g y hg => hp (g, y) hg)
      exact hrest.trans (State.get_put_same _ _ hw)
    · exact ih hl hf

theorem State.rd_putAll {l : List (Fld × Nat)} {off : Nat} (h : ∀ q ∈ l, off ≠ q.1.off) : (s.putAll l).rd off = s.rd off := by
  induction l generalizing s with
  | nil => rfl
  | cons q l ih =>
    obtain ⟨hq, hl⟩ := List.forall_mem_cons.1 h
    exact (ih hl).trans (State.rd_put_ne _ _ hq)

/-! ### A ring pair is set up (R225) -/

/-- The indexes of a ring pair that is enabled, and its valid phases. -/
def ringStart (n : Nat) : List (Fld × Nat) :=
  [(HIF.RP_STAT_SQ_HEAD n, 0), (HIF.RP_STAT_SQ_PHASE n, 1), (HIF.RP_STAT_NOT_VISIBLE n, 0), (HIF.RP_RQ_STAT_RQ_TAIL n, 0),
   (HIF.RP_RQ_STAT_RQ_PHASE n, 1), (DBL.SQ_TAIL_INDEX n, 0), (DBL.RQ_HEAD_INDEX n, 0)]

theorem ringStart_apart (hn : n < 64) : (ringStart n).Pairwise fun p q => p.1.apart q.1 := by
  simp only [ringStart, List.pairwise_cons, List.forall_mem_cons, List.not_mem_nil, false_imp_iff, implies_true, and_true, List.Pairwise.nil, Fld.apart,
    HIF.RP_STAT_SQ_HEAD, HIF.RP_STAT_SQ_PHASE, HIF.RP_STAT_NOT_VISIBLE, HIF.RP_STAT, HIF.RP_RQ_STAT_RQ_TAIL, HIF.RP_RQ_STAT_RQ_PHASE, HIF.RP_RQ_STAT,
    DBL.SQ_TAIL_INDEX, DBL.SQ_TAIL, DBL.RQ_HEAD_INDEX, DBL.RQ_HEAD]
  omega

theorem ringStart_rpCfg (hn : n < 64) : ∀ q ∈ ringStart n, HIF.RP_CFG n ≠ q.1.off := by
  simp only [ringStart, List.forall_mem_cons, List.not_mem_nil, false_imp_iff, implies_true, and_true, HIF.RP_CFG,
    HIF.RP_STAT_SQ_HEAD, HIF.RP_STAT_SQ_PHASE, HIF.RP_STAT_NOT_VISIBLE, HIF.RP_STAT, HIF.RP_RQ_STAT_RQ_TAIL, HIF.RP_RQ_STAT_RQ_PHASE, HIF.RP_RQ_STAT,
    DBL.SQ_TAIL_INDEX, DBL.SQ_TAIL, DBL.RQ_HEAD_INDEX, DBL.RQ_HEAD]
  omega

/-- RP_CFG is stored, without its Reserved bits. -/
def State.storeRpCfg (s : State) (n v : Nat) : State := s.wr (HIF.RP_CFG n) (BitVec.ofNat 32 (v % 2 ^ 25))

theorem State.storeRpCfg_rd (s : State) (n v : Nat) : ((s.storeRpCfg n v).rd (HIF.RP_CFG n)).toNat = v % 2 ^ 25 := by
  rw [State.storeRpCfg, State.rd_wr_same, BitVec.toNat_ofNat]
  omega
theorem State.frame_storeRpCfg (s : State) (n v : Nat) : s.frame (s.storeRpCfg n v) [] [Fld.whole (HIF.RP_CFG n)] := State.frame.rfl'.wr _ (by simp)

/-- A ring pair that has been enabled. -/
def State.ringStarted (s : State) (n v : Nat) : State := ((s.storeRpCfg n v).putAll (ringStart n)).setRing n { s.ring n with rereads := 0 }

theorem ringStart_fits (n : Nat) : ∀ q ∈ ringStart n, q.1.lo + q.1.w ≤ 32 ∧ q.2 < 2 ^ q.1.w := by
  simp [ringStart, HIF.RP_STAT_SQ_HEAD, HIF.RP_STAT_SQ_PHASE, HIF.RP_STAT_NOT_VISIBLE, HIF.RP_RQ_STAT_RQ_TAIL, HIF.RP_RQ_STAT_RQ_PHASE, DBL.SQ_TAIL_INDEX,
    DBL.RQ_HEAD_INDEX]

theorem State.ringStarted_get (s : State) (hn : n < 64) (v : Nat) : ∀ q ∈ ringStart n, (s.ringStarted n v).get q.1 = q.2 := by
  intro q hq
  obtain ⟨hw, hx⟩ := ringStart_fits n q hq
  rw [State.ringStarted, State.get_setRing, State.get_putAll (ringStart_apart hn) hq hw, Nat.mod_eq_of_lt hx]

theorem State.ringStarted_rpCfg (s : State) (hn : n < 64) (v : Nat) : ((s.ringStarted n v).rd (HIF.RP_CFG n)).toNat = v % 2 ^ 25 := by
  have hring : (s.ringStarted n v).rd (HIF.RP_CFG n) = ((s.storeRpCfg n v).putAll (ringStart n)).rd (HIF.RP_CFG n) :=
    State.rd_congr (State.setRing_regs ..) (State.setRing_big ..) _
  rw [hring, State.rd_putAll (ringStart_rpCfg hn), State.storeRpCfg_rd]

theorem State.ringStarted_ring (s : State) (n v : Nat) : (s.ringStarted n v).ring n = { s.ring n with rereads := 0 } ∧
    ∀ m, m ≠ n → (s.ringStarted n v).ring m = s.ring m := by
  have hrings : ∀ m, ((s.storeRpCfg n v).putAll (ringStart n)).ring m = s.ring m := State.ring_of_rings
    ((((s.frame_storeRpCfg n v).mono (fun _ h => h) fun _ h => List.mem_cons.2 (.inl (List.mem_singleton.1 h))).trans
      (((s.storeRpCfg n v).frame_putAll (ringStart n)).mono (fun _ h => h) fun _ h => List.mem_cons_of_mem _ h)).1 .rings (by simp))
  exact ⟨State.ring_setRing .., fun m hm => (State.ring_setRing_ne _ _ hm).trans (hrings m)⟩

theorem State.frame_ringStarted (s : State) (n v : Nat) : s.frame (s.ringStarted n v) [.rings] (Fld.whole (HIF.RP_CFG n) :: (ringStart n).map (·.1)) :=
  (((s.frame_storeRpCfg n v).mono (by simp) (by simp)).trans (((s.storeRpCfg n v).frame_putAll (ringStart n)).mono (by simp)
    fun _ h => List.mem_cons_of_mem _ h)).setRing _ _ (by simp)

section RpCfg
variable (hon : s.ringOn n = false)
include hon

theorem exec_rpCfgWrite_starts (he : bitAt v 0 = true) (hz : 4 ≤ bits v 1 5 ∧ bits v 1 5 ≤ 16 ∧ 4 ≤ bits v 6 5 ∧ bits v 6 5 ≤ 16) :
    exec (.rpCfgWrite n v) s = .next (s.ringStarted n v) := by
  show execRpCfgWrite n v s = _
  rw [execRpCfgWrite, hon, if_neg (by decide), if_pos he, if_pos (decide_eq_true hz), State.ringStarted, State.putAll, ringStart]
  simp only [List.foldl_cons, List.foldl_nil, State.storeRpCfg, State.ring_put, State.ring_wr]
theorem exec_rpCfgWrite_refused (he : bitAt v 0 = true) (hz : ¬(4 ≤ bits v 1 5 ∧ bits v 1 5 ≤ 16 ∧ 4 ≤ bits v 6 5 ∧ bits v 6 5 ≤ 16)) :
    exec (.rpCfgWrite n v) s = .next s := by
  show execRpCfgWrite n v s = _
  rw [execRpCfgWrite, hon, if_neg (by decide), if_pos he, if_neg (by rw [decide_eq_false hz]; decide)]
theorem exec_rpCfgWrite_off (he : bitAt v 0 = false) : exec (.rpCfgWrite n v) s = .next (s.storeRpCfg n v) := by
  show execRpCfgWrite n v s = _
  rw [execRpCfgWrite, hon, if_neg (by decide), he, if_neg (by decide)]
  rfl

end RpCfg

theorem exec_rpCfgWrite_busy (hon : s.ringOn n = true) (h : bitAt v 0 = true ∨ s.on (HIF.RP_STAT_BUSY n) = true) : exec (.rpCfgWrite n v) s = .next s := by
  show execRpCfgWrite n v s = _
  rw [execRpCfgWrite, if_pos hon, if_pos h]
theorem exec_rpCfgWrite_stops (hon : s.ringOn n = true) (he : bitAt v 0 = false) (hb : s.on (HIF.RP_STAT_BUSY n) = false) :
    exec (.rpCfgWrite n v) s = .next (s.put (HIF.RP_CFG_ENABLE n) 0) := by
  show execRpCfgWrite n v s = _
  rw [execRpCfgWrite, if_pos hon, if_neg (by rw [he, hb]; decide)]

/-! ### The function returns to D0 (R212) -/

theorem foldl_of_fixed {α : Type} {g : State → α → State} {l : List α} (h : ∀ x ∈ l, g s x = s) : l.foldl g s = s :=
  List.foldlRecOn (motive := fun u => u = s) l g rfl fun u hu x hx => by rw [hu, h x hx]

/-- A fold in which one element acts, and no other does anything before or after it. -/
theorem foldl_of_one {g : State → Nat → State} {x : Nat} {l : List Nat} (hnd : l.Nodup) (hx : x ∈ l) (hbefore : ∀ y ∈ l, y ≠ x → g s y = s)
    (hafter : ∀ y ∈ l, y ≠ x → g (g s x) y = g s x) : l.foldl g s = g s x := by
  induction l with
  | nil => exact nomatch hx
  | cons y l ih =>
    obtain ⟨hyl, hnd⟩ := List.nodup_cons.1 hnd
    rw [List.foldl_cons]
    by_cases hy : y = x
    · rw [hy]
      exact foldl_of_fixed fun z hz => hafter z (List.mem_cons_of_mem _ hz) fun e => hyl (hy ▸ e ▸ hz)
    · rw [hbefore y List.mem_cons_self hy]
      exact ih hnd ((List.mem_cons.1 hx).resolve_left (Ne.symm hy)) (fun z hz => hbefore z (List.mem_cons_of_mem _ hz)) fun z hz => hafter z (List.mem_cons_of_mem _ hz)

theorem contains_filter_range {p : Nat → Bool} {m : Nat} (hv : v < m) : ((List.range m).filter p).contains v = p v := by
  cases h : p v <;> simp [hv, h]

theorem unsent_pending : ∀ p f m : Bool, (p && !(p && !f && !m)) = (p && (f || m)) := by decide

/-- The function in D0 with bus mastering, under a function mask. -/
def State.awake (s : State) (fnMask : Bool) : State := { s with hostFn := { s.hostFn with d3 := false, busMaster := true, fnMask } }

/-- A vector that is pending as the function returns to D0 is sent, and marked as late. -/
def State.sendLate (s : State) (v : Nat) : State :=
  if s.vecPending v && !s.hostFn.fnMask && !s.on (HIF.MSIX_CTL_MASK v) then (s.sendPending v).putBit (HIF.VEC_LATE 0) v true else s

/-- The function returns to D0: what waits on the rings is written while it is masked, and then the pending vectors are sent. -/
theorem exec_hostD0Return {fnMask : Bool} (h : (List.range 64).foldl (fun s n => s.writeAllWaiting n) (s.awake true) = t) :
    exec (.hostD0Return fnMask) s = .next ((List.range 64).foldl State.sendLate { t with hostFn := { t.hostFn with fnMask } }) := by
  rw [← h]
  rfl

theorem State.frame_awake (s : State) (m : Bool) : s.frame (s.awake m) [.hostFn] [] := s.frame_hostFn _

theorem State.writeAllWaiting_off (h : s.ringOn n = false) : s.writeAllWaiting n = s := if_neg (by rw [h]; decide)

theorem State.sendLate_sends (hv : v < 64) (ho : s.hostFn.open = true) : State.Sends true ([v].filter s.sendable) s (s.sendLate v) := by
  have hsame : s.sendable v = (s.vecPending v && !s.hostFn.fnMask && !s.on (HIF.MSIX_CTL_MASK v)) := by rw [State.sendable, ho, Bool.and_true]
  rw [State.sendLate, ← hsame, List.filter_singleton]
  cases hs : s.sendable v with
  | true => rw [State.sendPending_of hs]; exact State.sentLate_sends hv
  | false => exact .none ..

theorem State.sendLate_idle (h : s.vecPending v = false) : s.sendLate v = s := if_neg (by rw [h, Bool.false_and, Bool.false_and]; exact Bool.false_ne_true)

/-- Pending vectors outlast what is written to the registers of a ring pair. -/
theorem State.frame.vecPending_rings (h : s.frame t ps fs) (hn : n < 64) (hfs : ∀ g ∈ fs, g.off = HIF.RP_STAT n ∨ g.off = HIF.RP_RQ_STAT n) (hv : v < 64) :
    t.vecPending v = s.vecPending v :=
  State.bitOn_of_frame h fun g hg => bitFld_apart_of 2 (by omega) (.inr (by
    have := hfs g hg
    unfold HIF.RP_STAT HIF.RP_RQ_STAT at this
    show 0x80028 ≤ g.off
    omega))

/-- A drain of an empty queue writes no slip. -/
theorem State.beginDrain_none (hc : (s.ring n).compl = []) (he : (s.ring n).events = []) (hl : (s.ring n).lost = 0) (hm : s.mayWrite n = true) :
    s.frame (s.beginDrain n) [.rings] [HIF.RP_RQ_STAT_PENDING n] ∧ ((s.beginDrain n).ring n).compl = [] := by
  have hring : (((s.drained n).leaveEvents n 0).showPending n).ring n = { s.ring n with drain := 0, evTick := s.ticks } := by
    rw [State.showPending, State.ring_put, State.leaveEvents, State.ring_setRing, s.ring_drained, List.drop_zero]
    rfl
  have hdrain : s.beginDrain n = ((s.drained n).leaveEvents n 0).showPending n := by
    rw [State.beginDrain_eq hc hm (by rw [he]; exact Nat.zero_le _), he]
    exact State.putLost_none ((congrArg Ring.lost hring).trans hl)
  rw [hdrain, hring]
  exact ⟨(((s.frame_drained n).trans ((s.drained n).frame_leaveEvents n 0)).mono (fun _ h => h) (by simp)).showPending _ (by simp), hc⟩

/-- A ring on which one completion waits, and nothing else, is written. -/
theorem State.writeAllWaiting_one (hn : n < 64) (hc : (s.ring n).compl = [r]) (he : (s.ring n).events = []) (hl : (s.ring n).lost = 0) (hf : r.frees = (0, 0))
    (hop : r.opcode ≠ 0x07) (hs : r.noIrq = true ∨ r.counted = true) (hm : s.mayWrite n = true) (hfree : 0 < s.rqFree n)
    (hidle : s.get (DBL.SQ_TAIL_INDEX n) = s.get (HIF.RP_STAT_SQ_HEAD n)) :
    ((s.writeAllWaiting n).ring n).compl = [] ∧
    (s.writeAllWaiting n).hostHas (s.rqBase n + 32 * s.get (HIF.RP_RQ_STAT_RQ_TAIL n)) (r.words (s.get (HIF.RP_STAT_SQ_HEAD n)) (s.get (HIF.RP_RQ_STAT_RQ_PHASE n))) = true ∧
    s.frame (s.writeAllWaiting n) [.host, .rings] [HIF.RP_RQ_STAT_RQ_TAIL n, HIF.RP_RQ_STAT_RQ_PHASE n, HIF.RP_RQ_STAT_PENDING n, HIF.RP_STAT_BUSY n] := by
  have hslip := (s.leaveCompl n []).frame_writeSlip_silent n hs
  have hout := State.frame_oldestOut hslip
  obtain ⟨hhas, -⟩ := State.oldestOut_host hslip hn (by simp)
  obtain ⟨hring, -⟩ := State.oldestOut_ring hslip (by simp)
  have hset : ∀ g ∈ complOutFields n, ¬ hostSet g.off := by
    simpa [complOutFields] using ⟨not_hostSet_rqStat hn, not_hostSet_rqStat hn, not_hostSet_rpStat hn⟩
  have hon : s.ringOn n = true := (Bool.and_eq_true_iff.1 hm).1
  have hfn : (s.oldestOut n r []).hostFn = s.hostFn := hout.1 .hostFn (by simp)
  have hmay : (s.oldestOut n r []).mayWrite n = true := by rw [State.mayWrite, hout.ringOn hset hn, hfn, ← State.mayWrite, hm]
  obtain ⟨hdrain, hcompl⟩ := State.beginDrain_none (s := s.oldestOut n r []) (n := n) (by rw [hring]) (by rw [hring]; exact he) (by rw [hring]; exact hl) hmay
  have hall : s.frame ((s.oldestOut n r []).beginDrain n) [.host, .rings]
      [HIF.RP_RQ_STAT_RQ_TAIL n, HIF.RP_RQ_STAT_RQ_PHASE n, HIF.RP_RQ_STAT_PENDING n, HIF.RP_STAT_BUSY n] :=
    (hout.mono (fun _ h => h) (by simp [complOutFields])).trans (hdrain.mono (by simp) (by simp))
  have hwritten : s.writeAllWaiting n = (s.oldestOut n r []).beginDrain n := by
    have hwait : s.writeWaiting n (s.ring n).compl.length = s.oldestOut n r [] := by
      rw [hc]
      exact (State.writeCompletion_eq hc hm hfree).trans (State.written_same hf hop)
    rw [State.writeAllWaiting, if_pos hon, hwait]
    dsimp only
    rw [hring, hall.takeAll_same hn (by simp [writtenFields, complOutFields]) hidle]
    exact if_pos rfl
  rw [hwritten]
  exact ⟨hcompl, (hdrain.hostHas (by simp) _ _).trans hhas, hall⟩

end Sys2Proof.Machine

section
set_option Elab.async false
open Sys2Proof Sys2Proof.Machine

/-- Settles O41: a return to D0 sends and marks what is pending (`State.sends_foldl`) after a ring's one completion is written
(`State.writeAllWaiting_one`); a ring pair enabled is `State.ringStarted`. -/
theorem theHostFunctionSleepsAndRingsAreSetUp : Obligations.TheHostFunctionSleepsAndRingsAreSetUp := by
  unfold Obligations.TheHostFunctionSleepsAndRingsAreSetUp
  refine ⟨?d3, ?noMaster, ?quiet, ?waiting, ?starts, ?refused, ?busy, ?stops, ?off⟩
  case d3 =>
    intro s pme
    refine ⟨_, rfl, ?_, s.frame_hostFn _⟩
    simp
  case noMaster =>
    intro s pme
    refine ⟨_, rfl, ?_, s.frame_hostFn _⟩
    simp
  case quiet =>
    intro s mask hoff
    have hwrite : (List.range 64).foldl (fun s n => s.writeAllWaiting n) (s.awake true) = s.awake true :=
      foldl_of_fixed fun n hn => State.writeAllWaiting_off (hoff n (List.mem_range.1 hn))
    have h := State.sends_foldl (late := true) (s := s.awake mask) (g := State.sendLate) (fun s v hv ho => State.sendLate_sends hv ho) (l := List.range 64)
      (fun v hv => List.mem_range.1 hv) List.nodup_range rfl
    have hsendable : (s.awake mask).sendable = fun v => s.vecPending v && !mask && !s.on (HIF.MSIX_CTL_MASK v) := funext fun v => Bool.and_true _
    refine ⟨_, exec_hostD0Return hwrite, ?_, ?_, ?_, fun v hv => ⟨?_, ?_⟩, ?_⟩
    · exact congrArg HostFn.d3 h.hostFn
    · exact congrArg HostFn.busMaster h.hostFn
    · exact congrArg HostFn.fnMask h.hostFn
    · refine (h.pending v hv).trans ?_
      rw [hsendable, contains_filter_range hv]
      exact unsent_pending ..
    · refine (h.lates v hv).trans ?_
      rw [hsendable, contains_filter_range hv]
      rfl
    · exact ((s.frame_awake mask).mono (by simp) (by simp)).trans h.frame
  case waiting =>
    intro s mask n r hn honly hpend hcompl hevents hlost hfrees hop hsilent hfree hidle
    have hon : s.ringOn n = true := (honly n hn).2 rfl
    have hoff : ∀ m ∈ List.range 64, m ≠ n → s.ringOn m = false := fun m hm hne =>
      eq_false_of_ne_true fun h => hne ((honly m (List.mem_range.1 hm)).1 h)
    have hmay : (s.awake true).mayWrite n = true := (Bool.and_true _).trans hon
    obtain ⟨hdone, hhas, hfr⟩ := State.writeAllWaiting_one (s := s.awake true) hn hcompl hevents hlost hfrees hop hsilent hmay hfree hidle
    have hset : ∀ g ∈ [HIF.RP_RQ_STAT_RQ_TAIL n, HIF.RP_RQ_STAT_RQ_PHASE n, HIF.RP_RQ_STAT_PENDING n, HIF.RP_STAT_BUSY n], ¬ hostSet g.off := by
      simpa using ⟨not_hostSet_rqStat hn, not_hostSet_rqStat hn, not_hostSet_rqStat hn, not_hostSet_rpStat hn⟩
    have hwrite : (List.range 64).foldl (fun s n => s.writeAllWaiting n) (s.awake true) = (s.awake true).writeAllWaiting n :=
      foldl_of_one List.nodup_range (List.mem_range.2 hn) (fun m hm hne => State.writeAllWaiting_off (hoff m hm hne))
        fun m hm hne => State.writeAllWaiting_off ((hfr.ringOn hset (List.mem_range.1 hm)).trans (hoff m hm hne))
    generalize (s.awake true).writeAllWaiting n = q at *
    have hfn : q.hostFn = (s.awake true).hostFn := hfr.1 .hostFn (by simp)
    have hq := q.frame_hostFn { q.hostFn with fnMask := mask }
    have hall : s.frame { q with hostFn := { q.hostFn with fnMask := mask } } [.host, .rings, .hostFn]
        [HIF.RP_RQ_STAT_RQ_TAIL n, HIF.RP_RQ_STAT_RQ_PHASE n, HIF.RP_RQ_STAT_PENDING n, HIF.RP_STAT_BUSY n] :=
      (((s.frame_awake true).mono (by simp) (by simp)).trans (hfr.mono (by simp) fun _ h => h)).trans (hq.mono (by simp) (by simp))
    have hlate : (List.range 64).foldl State.sendLate { q with hostFn := { q.hostFn with fnMask := mask } } = { q with hostFn := { q.hostFn with fnMask := mask } } :=
      foldl_of_fixed fun v hv => State.sendLate_idle ((hall.vecPending_rings hn (by simpa using ⟨.inr rfl, .inr rfl, .inr rfl, .inl rfl⟩) (List.mem_range.1 hv)).trans (hpend v (List.mem_range.1 hv)))
    refine ⟨_, exec_hostD0Return hwrite, ?_⟩
    rw [hlate]
    exact ⟨(congrArg Ring.compl (State.ring_of_rings (hq.1 .rings (by simp)) n)).trans hdone, congrArg HostFn.d3 hfn, (hq.hostHas (by simp) _ _).trans hhas, hall⟩
  case starts =>
    intro s n v hn hon he hz
    have hget := s.ringStarted_get hn v
    simp only [ringStart, List.forall_mem_cons, List.not_mem_nil, false_imp_iff, implies_true, and_true] at hget
    obtain ⟨hhead, hphase, hvis, htail, hrphase, hsq, hrq⟩ := hget
    obtain ⟨hring, hother⟩ := s.ringStarted_ring n v
    exact ⟨_, exec_rpCfgWrite_starts hon he hz, s.ringStarted_rpCfg hn v, hhead, hphase, hvis, htail, hrphase, hsq, hrq, hring, hother, s.frame_ringStarted n v⟩
  case refused =>
    intro s n v hon he hz
    exact ⟨_, exec_rpCfgWrite_refused hon he hz, State.frame.rfl'⟩
  case busy =>
    intro s n v hon h
    exact ⟨_, exec_rpCfgWrite_busy hon h, State.frame.rfl'⟩
  case stops =>
    intro s n v hon he hb
    exact ⟨_, exec_rpCfgWrite_stops hon he hb, State.get_put_same _ _ (Nat.le_of_ble_eq_true rfl), State.frame.rfl'.put _ (by simp)⟩
  case off =>
    intro s n v hon he
    exact ⟨_, exec_rpCfgWrite_off hon he, s.storeRpCfg_rd n v, s.frame_storeRpCfg n v⟩

end

/-! ### A flow slot beyond the sixteen of a port (R289) -/

namespace Sys2Proof.Tests
set_option Elab.async false

open Sys2Proof Sys2Proof.Machine

/-- Port 1 has its one flow in a slot that no port has, and the first packet of that flow's picture waits in class queue 7. -/
def strayFlow : State :=
  let s := ((nqSt 2000 [(7, [frm (.media 16 3 0 0 0 false [])])] []).setFlow 1 2 none).setFlow 1 16 (some flow0)
  (s.setStream 4 (nw 0 [{ npic 3 2560 with src := some (3, 1) }])).setStream 3 { kv with pics := [{ pic1 with netStream := some 4 }] }

/-- As the link falls the packet is dropped, and the picture that it would have begun is marked as not sent. -/
theorem strayFlow_marked : (match exec (.netLinkDown ⟨1, false, false⟩) strayFlow with | .next t => t.streams != strayFlow.streams | _ => false) = true := by
  decide +kernel

end Sys2Proof.Tests

section
set_option Elab.async false
open Sys2Proof Sys2Proof.Machine

/-- Refutes O59, its part on a link that falls with no flow open: the premise speaks of the 16 slots of a port, and a table that lists a flow in a slot beyond
them still leads from a dropped first packet to a picture, which is marked as not sent, so that the streams are not as before. -/
theorem not_framesLeaveByClassGateAndCredit : ¬ Obligations.FramesLeaveByClassGateAndCredit := by
  unfold Obligations.FramesLeaveByClassGateAndCredit
  rintro ⟨-, -, -, -, -, -, -, -, -, hdown, -⟩
  obtain ⟨t, ht, -, -, -, -, -, hstreams, -⟩ := hdown Tests.strayFlow 1 false false (by decide +kernel) (by decide +kernel) (by decide)
  have h := Tests.strayFlow_marked
  rw [ht] at h
  exact bne_iff_ne.1 h hstreams

end

/-! PROOFS of the statements of 08_accession.md. -/

/-! ### A picture listed twice, and the close of its frame (R232, R233) -/

namespace Sys2Proof.Tests
set_option Elab.async false

open Sys2Proof Sys2Proof.Machine

/-- The open frame's picture 6 is listed twice, as released and as not, and with picture 5 both frame buffers are in use. -/
def twiceNumbered : State :=
  (capSt [fr0]).setStream 3 { (capSt [fr0]).stream 3 with
    pics := [{ Pic.fresh 6 true 1 1 with released := true }, Pic.fresh 6 true 1 1, Pic.fresh 5 true 1 1] }

/-- The close of the frame writes the picture, as it is found first, over both entries: a buffer falls free, and the frame start takes a number. -/
theorem twiceNumbered_nextPic : (match exec (.frameStart 0 ⟨1, 0⟩ 9) twiceNumbered with
    | .next t => (t.stream 3).nextPic != (twiceNumbered.stream 3).nextPic
    | _ => false) = true := by decide +kernel

end Sys2Proof.Tests

section
set_option Elab.async false
open Sys2Proof Sys2Proof.Machine

/-- Refutes O51, its part on a frame that is dropped: that no buffer is free is its premise before the open frame closes, and no premise says that a stream's
pictures have numbers of their own. Where the frame's picture is listed twice, first as released, its close leaves two released entries and a free buffer, so that
the frame start is accepted. -/
theorem not_framesOpenJoinAndClose : ¬ Obligations.FramesOpenJoinAndClose := by
  unfold Obligations.FramesOpenJoinAndClose
  rintro ⟨-, -, hdropped, -⟩
  obtain ⟨t, ht, -, hnext, -⟩ := hdropped Tests.twiceNumbered 0 1 9 3 0 Tests.fr0 (by decide +kernel) (by decide) (by decide +kernel) (by decide +kernel)
    (by decide +kernel) (by decide +kernel) (.inl (by decide +kernel))
  have h := Tests.twiceNumbered_nextPic
  rw [ht] at h
  exact bne_iff_ne.1 h hnext

end

/-! ### Sensor ports in HS mode (R226, R245) -/

namespace Sys2Proof.Machine
set_option Elab.async false

variable {s t : State} {ps : List Part} {fs : List Fld} {p : Nat}

/-- A port's bit of ACC_STAT.PORT_HS. -/
def hsBit (p : Nat) : Fld := ⟨ACC.ACC_STAT, 2 + p, 1⟩

theorem hsBit_le (hp : p < 6) : (hsBit p).lo + (hsBit p).w ≤ 32 := by show 2 + p + 1 ≤ 32; omega

theorem accStat_ne_portStat (p : Nat) : ACC.ACC_STAT ≠ ACC.PORT_STAT p := by unfold ACC.ACC_STAT ACC.PORT_STAT; omega

/-- PORT_HS is the product of the two bits that it follows. -/
theorem State.showHs_get (s : State) (hp : p < 6) :
    (s.showHs p).get (hsBit p) = s.get (ACC.PORT_STAT_CLK_ACTIVE p) * s.get (ACC.PORT_STAT_DESKEW_DONE p) := by
  have hclk : s.get (ACC.PORT_STAT_CLK_ACTIVE p) < 2 := s.get_lt _
  have hdone : s.get (ACC.PORT_STAT_DESKEW_DONE p) < 2 := s.get_lt _
  rw [State.showHs, State.on, State.on]
  refine (State.get_put_same _ _ (hsBit_le hp)).trans ?_
  generalize s.get (ACC.PORT_STAT_CLK_ACTIVE p) = a at *
  generalize s.get (ACC.PORT_STAT_DESKEW_DONE p) = b at *
  interval_cases a <;> interval_cases b <;> rfl

theorem State.frame_showHs (s : State) (p : Nat) : s.frame (s.showHs p) [] [hsBit p] := State.frame.rfl'.put _ (by simp [hsBit])

/-- Fields of PORT_STAT of port p are written one after another, and PORT_HS follows. -/
def State.portPut (s : State) (p : Nat) (l : List (Fld × Nat)) : State := (s.putAll l).showHs p

section
variable {l : List (Fld × Nat)}

theorem State.frame_portPut (s : State) (p : Nat) (l : List (Fld × Nat)) : s.frame (s.portPut p l) [] (l.map (·.1) ++ [hsBit p]) :=
  ((s.frame_putAll l).mono (by simp) fun _ h => List.mem_append_left _ h).trans
    (((s.putAll l).frame_showHs p).mono (by simp) fun _ h => List.mem_append_right _ h)

/-- PORT_HS is no field of PORT_STAT. -/
theorem State.portStat_portPut (s : State) {f : Fld} (hf : f.off = ACC.PORT_STAT p) (hw : f.lo + f.w ≤ 32) :
    (s.portPut p l).get f = (s.putAll l).get f :=
  ((s.putAll l).frame_showHs p).get f hw (by simpa [hsBit, Fld.apart, hf] using .inl (accStat_ne_portStat p).symm)

theorem State.get_portPut (s : State) (h : l.Pairwise fun p q => p.1.apart q.1) {f : Fld} {x : Nat} (hl : (f, x) ∈ l) (hf : f.off = ACC.PORT_STAT p)
    (hw : f.lo + f.w ≤ 32) : (s.portPut p l).get f = x % 2 ^ f.w :=
  (s.portStat_portPut hf hw).trans (State.get_putAll h hl hw)

theorem State.hsBit_portPut (s : State) (hp : p < 6) : (s.portPut p l).get (hsBit p) =
    (s.portPut p l).get (ACC.PORT_STAT_CLK_ACTIVE p) * (s.portPut p l).get (ACC.PORT_STAT_DESKEW_DONE p) := by
  rw [s.portStat_portPut (f := ACC.PORT_STAT_CLK_ACTIVE p) rfl (by simp [ACC.PORT_STAT_CLK_ACTIVE]),
    s.portStat_portPut (f := ACC.PORT_STAT_DESKEW_DONE p) rfl (by simp [ACC.PORT_STAT_DESKEW_DONE])]
  exact State.showHs_get _ hp

end

/-- What a deskew sequence writes of PORT_STAT. -/
def deskewWrites (p lanes : Nat) (initial : Bool) : List (Fld × Nat) :=
  [(ACC.PORT_STAT_CLK_ACTIVE p, 1), (ACC.PORT_STAT_LANE_SYNC p, lanes)] ++ if initial then [(ACC.PORT_STAT_DESKEW_DONE p, 1)] else []

/-- What the LP state of the lanes and the clock writes of it. -/
def lpWrites (p : Nat) : List (Fld × Nat) :=
  [(ACC.PORT_STAT_LANE_SYNC p, 0), (ACC.PORT_STAT_CLK_ACTIVE p, 0), (ACC.PORT_STAT_DESKEW_DONE p, 0)]

theorem deskewWrites_apart (p lanes : Nat) (initial : Bool) : (deskewWrites p lanes initial).Pairwise fun a b => a.1.apart b.1 := by
  cases initial <;> simp [deskewWrites, Fld.apart, ACC.PORT_STAT_CLK_ACTIVE, ACC.PORT_STAT_LANE_SYNC, ACC.PORT_STAT_DESKEW_DONE]

theorem lpWrites_apart (p : Nat) : (lpWrites p).Pairwise fun a b => a.1.apart b.1 := by
  simp [lpWrites, Fld.apart, ACC.PORT_STAT_CLK_ACTIVE, ACC.PORT_STAT_LANE_SYNC, ACC.PORT_STAT_DESKEW_DONE]

/-- A deskew sequence shows the clock active and the lanes in sync, an initial one DESKEW_DONE; PORT_HS then follows DESKEW_DONE. -/
theorem State.portPut_deskew (s : State) {lanes : Nat} (hp : p < 6) (hl : lanes < 16) (initial : Bool) :
    (s.portPut p (deskewWrites p lanes initial)).get (ACC.PORT_STAT_CLK_ACTIVE p) = 1 ∧
    (s.portPut p (deskewWrites p lanes initial)).get (ACC.PORT_STAT_LANE_SYNC p) = lanes ∧
    (s.portPut p (deskewWrites p lanes initial)).get (hsBit p) = (s.portPut p (deskewWrites p lanes initial)).get (ACC.PORT_STAT_DESKEW_DONE p) ∧
    (s.portPut p (deskewWrites p lanes initial)).get (ACC.PORT_STAT_DESKEW_DONE p) = if initial then 1 else s.get (ACC.PORT_STAT_DESKEW_DONE p) := by
  have hget : ∀ {f : Fld} {x : Nat}, (f, x) ∈ deskewWrites p lanes initial → f.off = ACC.PORT_STAT p → f.lo + f.w ≤ 32 →
      (s.portPut p (deskewWrites p lanes initial)).get f = x % 2 ^ f.w := s.get_portPut (deskewWrites_apart p lanes initial)
  have hclk : (s.portPut p (deskewWrites p lanes initial)).get (ACC.PORT_STAT_CLK_ACTIVE p) = 1 :=
    hget (x := 1) (by simp [deskewWrites]) rfl (by simp [ACC.PORT_STAT_CLK_ACTIVE])
  refine ⟨hclk, ?_, by rw [s.hsBit_portPut hp, hclk, Nat.one_mul], ?_⟩
  · exact (hget (x := lanes) (by simp [deskewWrites]) rfl (by simp [ACC.PORT_STAT_LANE_SYNC])).trans (Nat.mod_eq_of_lt hl)
  · cases initial with
    | true => exact hget (x := 1) (by simp [deskewWrites]) rfl (by simp [ACC.PORT_STAT_DESKEW_DONE])
    | false =>
      refine (s.frame_portPut p _).get _ (by simp [ACC.PORT_STAT_DESKEW_DONE]) ?_
      have hacc := (accStat_ne_portStat p).symm
      simp [deskewWrites, Fld.apart, hsBit, ACC.PORT_STAT_CLK_ACTIVE, ACC.PORT_STAT_LANE_SYNC, ACC.PORT_STAT_DESKEW_DONE, hacc]

theorem exec_deskewSequence {lanes : Nat} {initial : Bool} (hon : s.powered (sensorUnit p) = true) (hu : s.on (ACC.PORT_STAT_ULPS p) = false) :
    exec (.deskewSequence p lanes initial) s = .next (s.portPut p (deskewWrites p lanes initial)) := by
  show execDeskewSequence p lanes initial s = _
  rw [execDeskewSequence, hon, hu]
  cases initial <;> rfl

theorem State.portLp_eq (s : State) (p : Nat) : s.portLp p = s.portPut p (lpWrites p) := rfl

/-- In LP state the port shows no clock, no lane, no deskew and no HS mode. -/
theorem State.portLp_get (s : State) (hp : p < 6) : (s.portLp p).get (ACC.PORT_STAT_CLK_ACTIVE p) = 0 ∧ (s.portLp p).get (ACC.PORT_STAT_LANE_SYNC p) = 0 ∧
    (s.portLp p).get (ACC.PORT_STAT_DESKEW_DONE p) = 0 ∧ (s.portLp p).get (hsBit p) = 0 := by
  rw [State.portLp_eq]
  have hget : ∀ {f : Fld}, (f, 0) ∈ lpWrites p → f.off = ACC.PORT_STAT p → f.lo + f.w ≤ 32 → (s.portPut p (lpWrites p)).get f = 0 :=
    fun hl hf hw => (s.get_portPut (lpWrites_apart p) hl hf hw).trans (Nat.zero_mod _)
  have hclk := hget (f := ACC.PORT_STAT_CLK_ACTIVE p) (by simp [lpWrites]) rfl (by simp [ACC.PORT_STAT_CLK_ACTIVE])
  exact ⟨hclk, hget (by simp [lpWrites]) rfl (by simp [ACC.PORT_STAT_LANE_SYNC]), hget (by simp [lpWrites]) rfl (by simp [ACC.PORT_STAT_DESKEW_DONE]),
    by rw [s.hsBit_portPut hp, hclk, Nat.zero_mul]⟩

/-- The fields that the LP state writes. -/
def lpFields (p : Nat) : List Fld := [ACC.PORT_STAT_CLK_ACTIVE p, ACC.PORT_STAT_LANE_SYNC p, ACC.PORT_STAT_DESKEW_DONE p, hsBit p]

theorem State.frame_portLp (s : State) (p : Nat) : s.frame (s.portLp p) [] (lpFields p) :=
  (s.frame_portPut p (lpWrites p)).mono (by simp) (by simp [lpWrites, lpFields])

theorem ulps_apart_lpFields (p : Nat) : ∀ g ∈ lpFields p, (ACC.PORT_STAT_ULPS p).apart g := by
  have hacc := (accStat_ne_portStat p).symm
  simp [lpFields, Fld.apart, hsBit, ACC.PORT_STAT_ULPS, ACC.PORT_STAT_CLK_ACTIVE, ACC.PORT_STAT_LANE_SYNC, ACC.PORT_STAT_DESKEW_DONE, hacc]

theorem exec_ulpsEntry (hon : s.powered (sensorUnit p) = true) : exec (.ulpsEntry p) s = .next ((s.put (ACC.PORT_STAT_ULPS p) 1).portLp p) :=
  congrArg Host.Outcome.next (if_pos hon)

end Sys2Proof.Machine

/-! ### Lanes that lose HS mode, and the report of it (R226, R437 to R439) -/

namespace Sys2Proof.Machine
set_option Elab.async false

variable {s t : State} {ps : List Part} {fs : List Fld} {p lanes : Nat}

theorem bitAt_eq_testBit (n i : Nat) : bitAt n i = n.testBit i := by rw [bitAt, Nat.testBit_eq_decide_div_mod_eq]; rfl

/-- The number whose bits below n are those of b. -/
def sumBits (b : Nat → Bool) (n : Nat) : Nat := (List.range n).foldl (fun a i => if b i then a + 2 ^ i else a) 0

theorem sumBits_succ (b : Nat → Bool) (n : Nat) : sumBits b (n + 1) = if b n then sumBits b n + 2 ^ n else sumBits b n := by
  rw [sumBits, List.range_succ, List.foldl_append]; rfl

theorem sumBits_spec (b : Nat → Bool) (n : Nat) : sumBits b n < 2 ^ n ∧ ∀ i < n, (sumBits b n).testBit i = b i := by
  induction n with
  | zero => exact ⟨Nat.one_pos, fun i hi => absurd hi (Nat.not_lt_zero i)⟩
  | succ n ih =>
    obtain ⟨hlt, hbit⟩ := ih
    have htop : (sumBits b n).testBit n = false := Nat.testBit_lt_two_pow hlt
    rw [sumBits_succ]
    cases hb : b n with
    | false =>
      refine ⟨Nat.lt_trans hlt (Nat.pow_lt_pow_succ (by decide)), fun i hi => ?_⟩
      obtain rfl | hi := Nat.eq_or_lt_of_le (Nat.le_of_lt_succ hi)
      · exact htop.trans hb.symm
      · exact hbit i hi
    | true =>
      rw [if_pos rfl, Nat.add_comm]
      refine ⟨by rw [Nat.pow_succ]; omega, fun i hi => ?_⟩
      obtain rfl | hi := Nat.eq_or_lt_of_le (Nat.le_of_lt_succ hi)
      · rw [Nat.testBit_two_pow_add_eq, htop, hb]; rfl
      · rw [Nat.testBit_two_pow_add_gt hi]; exact hbit i hi

/-- The lanes, of the four that a port shows in sync, that are left as those of a mask lose HS mode. -/
def State.lanesLeft (s : State) (p lanes : Nat) : Nat := sumBits (fun i => bitAt (s.get (ACC.PORT_STAT_LANE_SYNC p)) i && !bitAt lanes i) 4

/-- The lanes of a mask have lost HS mode. -/
def State.loseLanes (s : State) (p lanes : Nat) : State := s.put (ACC.PORT_STAT_LANE_SYNC p) (s.lanesLeft p lanes)

theorem State.frame_loseLanes (s : State) (p lanes : Nat) : s.frame (s.loseLanes p lanes) [] [ACC.PORT_STAT_LANE_SYNC p] := State.frame.rfl'.put _ (by simp)

theorem State.bitAt_loseLanes (s : State) (p lanes : Nat) {i : Nat} (hi : i < 4) :
    bitAt ((s.loseLanes p lanes).get (ACC.PORT_STAT_LANE_SYNC p)) i = (bitAt (s.get (ACC.PORT_STAT_LANE_SYNC p)) i && !bitAt lanes i) := by
  obtain ⟨hlt, hbit⟩ := sumBits_spec (fun i => bitAt (s.get (ACC.PORT_STAT_LANE_SYNC p)) i && !bitAt lanes i) 4
  have hget : (s.loseLanes p lanes).get (ACC.PORT_STAT_LANE_SYNC p) = s.lanesLeft p lanes :=
    (State.get_put_same _ _ (by simp [ACC.PORT_STAT_LANE_SYNC])).trans (Nat.mod_eq_of_lt hlt)
  rw [hget, bitAt_eq_testBit]
  exact hbit i hi

/-- What the port shows once lanes of a mask, or the clock, have lost HS mode. -/
def State.lossShown (s : State) (p lanes : Nat) (clock : Bool) : State := if clock then (s.loseLanes p lanes).portLp p else s.loseLanes p lanes

theorem State.portStreams_lossShown (s : State) (p lanes : Nat) (clock : Bool) : (s.lossShown p lanes clock).portStreams p = s.portStreams p := by
  cases clock <;> rfl

/-- Outside a frame nothing is reported. -/
theorem exec_sensorLinkLoss_idle {clock : Bool} (h : (s.portStreams p).all (fun e => e.2.openFrame.isNone) = true) :
    exec (.sensorLinkLoss p lanes clock) s = .next (s.lossShown p lanes clock) := by
  have hnone : ((s.lossShown p lanes clock).portStreams p).filter (fun e => e.2.openFrame.isSome) = [] := by
    rw [State.portStreams_lossShown]
    refine List.filter_eq_nil_iff.2 fun e he => ?_
    have := List.all_eq_true.1 h e he
    simp only [Option.isNone_iff_eq_none] at this
    simp [this]
  exact congrArg Host.Outcome.next (if_pos (congrArg List.isEmpty hnone))

/-- The picture flagged UNMASKED. -/
def Pic.unmask (q : Pic) : Pic := { q with unmasked := true }

/-- Within a frame of one stream its picture is flagged, and SENSOR_LINK reported for the stream. -/
theorem exec_sensorLinkLoss_one {clock : Bool} {n : Nat} {x : Stream} {f : Frame} (h : (s.portStreams p).filter (fun e => e.2.openFrame.isSome) = [(n, x)])
    (hf : x.openFrame = some f) : exec (.sensorLinkLoss p lanes clock) s =
      .next (((s.lossShown p lanes clock).onPic n f.num Pic.unmask).reportStreams (sensorUnit p) 0x36 [n]) := by
  have hone : ((s.lossShown p lanes clock).portStreams p).filter (fun e => e.2.openFrame.isSome) = [(n, x)] := by
    rw [State.portStreams_lossShown, h]
  show Host.Outcome.next (s.sensorLoss p lanes clock) = _
  unfold State.sensorLoss
  extract_lets l u v hit
  have hhit : hit = [(n, x)] := hone
  rw [hhit, if_neg (by simp)]
  simp only [List.foldl_cons, List.foldl_nil, hf]
  rfl

/-- The flag reaches the picture of the stream, and no other stream. -/
theorem State.onPic_unmask {n num : Nat} (h : ((s.stream n).pic num).isSome = true) :
    (((s.onPic n num Pic.unmask).stream n).pic num).map (fun q => q.unmasked) = some true ∧ ∀ k, k ≠ n → (s.onPic n num Pic.unmask).stream k = s.stream k := by
  obtain ⟨q, hq⟩ := Option.isSome_iff_exists.1 h
  rw [State.onPic_of hq, State.stream_setStream, Stream.pic_setPic hq (q := q.unmask) (Stream.pic_num (p := q) hq)]
  exact ⟨rfl, fun k hk => State.stream_setStream_ne _ _ hk⟩

/-! Messages of class C3 of a unit that is no engine. -/

/-- The fields that logging a message writes. -/
def State.logFields (s : State) (u k c : Nat) : List Fld :=
  [bitFld (RGS.FAULT_MAP 0) u, RGS.ESCALATIONS_COUNT, RGS.CLASS_COUNT_COUNT (s.classAsLogged u k c), srcPending 1]

/-- A message logged heads the log with the class that it is logged with, under the next SEQ, and source 1 is pending. -/
theorem State.logMsg_logged (s : State) (u k c : Nat) (d : Option Nat) (raw addr : Nat) (inj : Bool) :
    s.logged (s.logMsg u k c d raw addr inj) u k (s.classAsLogged u k c) addr ∧ s.frame (s.logMsg u k c d raw addr inj) [.rgs, .pads] (s.logFields u k c) := by
  unfold State.logMsg
  extract_lets c' now a m r b e g
  have ha : s.frame a [.rgs, .pads] (s.logFields u k c) := State.frame.ite (State.frame.rfl'.pads _ (by simp)) State.frame.rfl'
  have harg : a.rgs = s.rgs := by
    unfold a
    split <;> rfl
  have hm : m ∈ b.rgs.log := by
    show m ∈ (m :: a.rgs.log).take 512
    exact List.mem_cons_self
  have hb : s.frame b [.rgs, .pads] (s.logFields u k c) := ha.rgs _ (by simp)
  clear_value b
  have he : b.frame e [] (s.logFields u k c) := State.frame.ite (State.frame.rfl'.bump _ (by simp [State.logFields])) State.frame.rfl'
  have hg : b.frame g [] (s.logFields u k c) := State.frame.ite (he.putBit _ _ _ (by simp [State.logFields, bitFld])) he
  have hlast : b.frame ((g.bump (RGS.CLASS_COUNT_COUNT c')).raise 1) [] (s.logFields u k c) :=
    (hg.bump _ (by simp [State.logFields, c'])).raise _ (by simp [State.logFields])
  refine ⟨⟨⟨m, ?_, rfl, rfl, rfl, rfl, ?_⟩, ?_⟩, hb.trans (hlast.mono (by simp) fun _ h => h)⟩
  · rw [show ((g.bump (RGS.CLASS_COUNT_COUNT c')).raise 1).rgs = b.rgs from hlast.1 .rgs (by simp)]
    exact hm
  · exact congrArg (fun r : Registrar => r.seq % 2 ^ 31) harg
  · exact State.get_put_same _ _ (by decide)

theorem State.frame.notice_stream {n u c k : Nat} (h : s.frame t ps fs) (p_rings : .rings ∈ ps) (f0 : HIF.RP_RQ_STAT_PENDING (t.stream n).eventRing ∈ fs)
    (f1 : HIF.EVT_LOST_COUNT ∈ fs) : s.frame (t.notice n u c k none) ps fs := by
  unfold State.notice
  exact h.ite (h.streamEvent _ _ _ _ _ p_rings f0 f1)

/-- A report of class C3 for one stream, of a unit that is no engine and has no earlier C3 message that escalates: the message, and the stream's notice. -/
theorem State.reportStreams_c3 {u k n : Nat} (he : engineOf u = none) (hk : kindClass k u = 3) (hu : s.unitEnabled u = true) (hr : s.rgs.raises u 3 = false) :
    s.reportStreams u k [n] = (s.logMsg u k 3 (some n) 0xFF 0 false).notice n u 3 k none := by
  have hc : s.classAsLogged u k 3 = 3 := by rw [State.classAsLogged, hr, Bool.and_false]; rfl
  have hw : ∀ t : State, t.workOf u = none := fun t => by rw [State.workOf, he]
  have hbase : s.reportBase u k 3 (some n) 0xFF 0 false = (s.logMsg u k 3 (some n) 0xFF 0 false).notice n u 3 k none := by
    rw [State.reportBase, hc]
    show State.notices _ _ _ _ = _
    simp only [State.notices, hw]
  have hreport : s.report u k (some n) 0 = s.reportBase u k 3 (some n) 0xFF 0 false := by
    rw [State.report, State.reportAs, hk, hu, hc, he]
    rfl
  rw [State.reportStreams]
  show ite _ _ _ = _
  rw [← hbase, ← hreport]
  exact ite_self _

/-- What such a report leaves: the message is logged, and beside the log only the stream's event ring has changed. -/
theorem State.reportStreams_c3_spec {u k n : Nat} (he : engineOf u = none) (hk : kindClass k u = 3) (hu : s.unitEnabled u = true)
    (hr : s.rgs.raises u 3 = false) : s.logged (s.reportStreams u k [n]) u k 3 0 ∧
      s.frame (s.reportStreams u k [n]) [.rgs, .pads, .rings] (s.logFields u k 3 ++ [HIF.RP_RQ_STAT_PENDING (s.stream n).eventRing, HIF.EVT_LOST_COUNT]) := by
  have hc : s.classAsLogged u k 3 = 3 := by rw [State.classAsLogged, hr, Bool.and_false]; rfl
  rw [State.reportStreams_c3 he hk hu hr]
  obtain ⟨⟨hlog, hsrc⟩, hfr⟩ := s.logMsg_logged u k 3 (some n) 0xFF 0 false
  rw [hc] at hlog
  generalize s.logMsg u k 3 (some n) 0xFF 0 false = t at *
  have hstream : t.stream n = s.stream n := State.stream_of_streams (hfr.1 .streams (by simp)) n
  have hnotice : t.frame (t.notice n u 3 k none) [.rings] [HIF.RP_RQ_STAT_PENDING (s.stream n).eventRing, HIF.EVT_LOST_COUNT] :=
    State.frame.rfl'.notice_stream (by simp) (by simp [hstream]) (by simp)
  have happart : ∀ g ∈ [HIF.RP_RQ_STAT_PENDING (s.stream n).eventRing, HIF.EVT_LOST_COUNT], (srcPending 1).apart g := by
    simp only [List.forall_mem_cons, List.not_mem_nil, false_imp_iff, implies_true, and_true]
    exact ⟨.inl (by simp only [srcPending, srcReg, HIF.RP_RQ_STAT_PENDING, HIF.RP_RQ_STAT]; omega), .inl (by decide)⟩
  refine ⟨⟨?_, ?_⟩, ?_⟩
  · rw [show (t.notice n u 3 k none).rgs = t.rgs from hnotice.1 .rgs (by simp)]
    exact hlog
  · exact (hnotice.get _ (by decide) happart).trans hsrc
  · exact (hfr.mono (by simp) fun _ h => List.mem_append_left _ h).trans (hnotice.mono (by simp) fun _ h => List.mem_append_right _ h)

/-! The report of SENSOR_LINK. -/

theorem engineOf_sensorUnit (p : Nat) : engineOf (sensorUnit p) = none := by
  unfold engineOf sensorUnit
  rw [if_neg (by omega), if_neg (by omega)]

theorem State.unitEnabled_congr (h : t.big = s.big) (u : Nat) : t.unitEnabled u = s.unitEnabled u := by
  simp only [State.unitEnabled, State.engineEnabled, h]

theorem kindClass_sensorLink (p : Nat) : kindClass 0x36 (sensorUnit p) = 3 := rfl

/-- The registers that the report writes are none of the port's. -/
theorem portStat_apart_report {f : Fld} (hf : f.off = ACC.PORT_STAT p) (hp : p < 6) (r : Nat) :
    ∀ g ∈ s.logFields (sensorUnit p) 0x36 3 ++ [HIF.RP_RQ_STAT_PENDING r, HIF.EVT_LOST_COUNT], f.apart g := by
  have hc : s.classAsLogged (sensorUnit p) 0x36 3 ≤ 4 := by
    unfold State.classAsLogged
    split <;> omega
  simp only [State.logFields, List.cons_append, List.nil_append, List.forall_mem_cons, List.not_mem_nil, false_imp_iff, implies_true, and_true]
  generalize s.classAsLogged (sensorUnit p) 0x36 3 = c at hc
  simp only [Fld.apart, hf, bitFld, RGS.FAULT_MAP, RGS.ESCALATIONS_COUNT, RGS.ESCALATIONS, RGS.CLASS_COUNT_COUNT, RGS.CLASS_COUNT, srcPending, srcReg,
    HIF.RP_RQ_STAT_PENDING, HIF.RP_RQ_STAT, HIF.EVT_LOST_COUNT, HIF.EVT_LOST, ACC.PORT_STAT, sensorUnit]
  omega

end Sys2Proof.Machine

/-! ### ING_HOLD (R241) -/

namespace Sys2Proof.Machine
set_option Elab.async false

variable {s t : State} {ps : List Part} {fs : List Fld} {u n i w : Nat}

theorem State.frame_showHold (s : State) : s.frame s.showHold [.tripped] [ACC.ACC_STAT_HOLD] :=
  (State.frame.rfl'.tripped _ (by simp)).put _ (by simp)

/-- No open capture stream names output h. -/
def State.unnamed (s : State) (h : Nat) : Bool := s.openStreams.all fun e => !(e.2.kind == 1 && e.2.ing.hold == h)

/-- An output that is forced, or that no stream names, is shown asserted. -/
theorem State.showHold_held {h : Nat} (hh : h < 2) (held : bitAt (s.get ACC.HOLD_CTL_FORCE) h = true ∨ s.unnamed h = true) :
    bitAt (s.showHold.get ACC.ACC_STAT_HOLD) h = true := by
  unfold State.showHold
  extract_lets names trip l out
  have hnone : s.unnamed h = true → (names h).isEmpty = true := fun hu => by
    rw [List.isEmpty_iff]
    refine List.map_eq_nil_iff.2 (List.filter_eq_nil_iff.2 fun e he => ?_)
    have hne := List.all_eq_true.1 hu e he
    rwa [Bool.not_eq_true', ← Bool.not_eq_true] at hne
  have hout : out h = true := by
    unfold out
    obtain hf | hu := held
    · rw [hf, Bool.or_true, Bool.true_or]
    · rw [hnone hu, Bool.true_or, Bool.true_or]
  have hget : ∀ v, (({ s with tripped := l } : State).put ACC.ACC_STAT_HOLD v).get ACC.ACC_STAT_HOLD = v % 2 ^ 2 := fun v => State.get_put_same _ v (by decide)
  rw [hget]
  clear_value out
  interval_cases h
  · rw [hout]; cases out 1 <;> rfl
  · rw [hout]; cases out 0 <;> rfl

/-! ### What a routine waits on (R425, R427, R435) -/

theorem State.frame_setWait (s : State) (i w : Nat) : s.frame (s.setWait i w) [.engines] [engState i] := by
  unfold State.setWait
  exact State.frame.rfl'.ite <| .ite (.ite ((State.frame.rfl'.setEngine _ _ (by simp)).put _ (by simp)) State.frame.rfl')
    (.ite ((State.frame.rfl'.setEngine _ _ (by simp)).put _ (by simp)) State.frame.rfl')

/-- The field that shows the state of a unit's routine, where the unit runs any. -/
def waitFields (u : Nat) : List Fld := (engineOf u).toList.map engState

theorem State.frame_waitFor (s : State) (u w : Nat) : s.frame (s.waitFor u w) [.engines] (waitFields u) := by
  unfold State.waitFor waitFields
  cases engineOf u with
  | some i => exact s.frame_setWait i w
  | none => exact State.frame.rfl'

theorem State.frame_waitOver (s : State) (u w : Nat) : s.frame (s.waitOver u w) [.engines] (waitFields u) := by
  unfold State.waitOver waitFields
  cases engineOf u with
  | some i => exact State.frame.ite (s.frame_setWait i 0) State.frame.rfl'
  | none => exact State.frame.rfl'

/-- A routine begins to wait. -/
theorem State.waitFor_running (hi : engineOf u = some i) (hw : w ≠ 0) (hwork : (s.engine i).work.isSome = true) (hrun : s.get (engState i) = stRunning) :
    ((s.waitFor u w).engine i).wait = w ∧ (s.waitFor u w).get (engState i) = stWaiting := by
  have heq : s.waitFor u w = (s.setEngine i { s.engine i with wait := w }).put (engState i) stWaiting := by
    rw [State.waitFor, hi]
    show s.setWait i w = _
    rw [State.setWait, if_neg (by simpa using Option.isSome_iff_ne_none.1 hwork), if_neg hw, if_pos (.inl hrun)]
  rw [heq]
  exact ⟨by simp, State.get_put_same _ _ (engState_le i)⟩

/-- The condition that a routine waits on has come about. -/
theorem State.waitOver_waiting (hi : engineOf u = some i) (hwork : (s.engine i).work.isSome = true) (hwait : (s.engine i).wait = w)
    (hst : s.get (engState i) = stWaiting) : ((s.waitOver u w).engine i).wait = 0 ∧ (s.waitOver u w).get (engState i) = stRunning := by
  have heq : s.waitOver u w = (s.setEngine i { s.engine i with wait := 0 }).put (engState i) stRunning := by
    rw [State.waitOver, hi]
    show ite _ (s.setWait i 0) s = _
    rw [if_pos hwait, State.setWait, if_neg (by simpa using Option.isSome_iff_ne_none.1 hwork), if_pos rfl, if_pos hst]
  rw [heq]
  exact ⟨by simp, State.get_put_same _ _ (engState_le i)⟩

/-! ### Cells given back (R386) -/

theorem bankFree_le (k : Nat) : (STK.BANK_FREE_CELLS k).lo + (STK.BANK_FREE_CELLS k).w ≤ 32 := by show 0 + 18 ≤ 32; omega

theorem bankFree_apart {k j : Nat} (h : k ≠ j) : (STK.BANK_FREE_CELLS k).apart (STK.BANK_FREE_CELLS j) :=
  .inl (by show STK.BANK_FREE k ≠ STK.BANK_FREE j; unfold STK.BANK_FREE; omega)

theorem stkStat_apart_bankFree (k : Nat) : STK.STK_STAT_CELLS.apart (STK.BANK_FREE_CELLS k) :=
  .inl (by show STK.STK_STAT ≠ STK.BANK_FREE k; unfold STK.STK_STAT STK.BANK_FREE; omega)

/-- Cells are added to the free count of one bank. -/
def State.bankAdd (s : State) (q : Nat × Nat) : State := s.put (STK.BANK_FREE_CELLS q.2) (s.get (STK.BANK_FREE_CELLS q.2) + q.1)

theorem State.freeCells_eq (s : State) (l : List Nat) :
    s.freeCells l = (l.zipIdx.foldl State.bankAdd s).put STK.STK_STAT_CELLS ((l.zipIdx.foldl State.bankAdd s).get STK.STK_STAT_CELLS + l.sum) := rfl

theorem State.frame_bankAdds (s : State) (l : List Nat) (j : Nat) :
    s.frame ((l.zipIdx j).foldl State.bankAdd s) [] ((List.range' j l.length).map STK.BANK_FREE_CELLS) :=
  State.frame.rfl'.foldl_mem fun t q hq ht => ht.put _ (List.mem_map_of_mem (by
    obtain ⟨hge, hlt, -⟩ := List.mem_zipIdx (x := q.1) (i := q.2) hq
    exact List.mem_range'_1.2 ⟨hge, hlt⟩))

/-- Each bank from j on has gained its cells of the list. -/
theorem State.get_bankAdds (s : State) (l : List Nat) {j k : Nat} (hk : j ≤ k) :
    ((l.zipIdx j).foldl State.bankAdd s).get (STK.BANK_FREE_CELLS k) = (s.get (STK.BANK_FREE_CELLS k) + l.getD (k - j) 0) % 2 ^ 18 := by
  induction l generalizing s j with
  | nil => exact (Nat.mod_eq_of_lt (s.get_lt _)).symm
  | cons c l ih =>
    rw [List.zipIdx_cons, List.foldl_cons]
    obtain rfl | hlt := Nat.eq_or_lt_of_le hk
    · have hrest := ((s.bankAdd (c, j)).frame_bankAdds l (j + 1)).get (STK.BANK_FREE_CELLS j) (bankFree_le j) fun g hg => by
        obtain ⟨i, hi, rfl⟩ := List.mem_map.1 hg
        have := (List.mem_range'_1.1 hi).1
        exact bankFree_apart (by omega)
      rw [hrest, Nat.sub_self]
      exact State.get_put_same _ _ (bankFree_le j)
    · rw [ih (s.bankAdd (c, j)) hlt, show (s.bankAdd (c, j)).get (STK.BANK_FREE_CELLS k) = s.get (STK.BANK_FREE_CELLS k) from
        State.get_put_apart _ _ (bankFree_le k) (bankFree_apart (by show k ≠ j; omega)), show k - j = k - (j + 1) + 1 by omega]
      rfl

theorem State.frame_freeCells (s : State) (l : List Nat) : s.frame (s.freeCells l) [] (cellFields l) := by
  have h := s.frame_bankAdds l 0
  rw [← List.range_eq_range'] at h
  exact (h.mono (by simp) fun _ hf => List.mem_cons_of_mem _ hf).put _ List.mem_cons_self

theorem State.freeCells_back (s : State) (l : List Nat) : s.cellsBack (s.freeCells l) l := by
  rw [State.freeCells_eq]
  refine ⟨fun k _ => ?_, ?_⟩
  · rw [State.get_put_apart _ _ (bankFree_le k) (Fld.apart_comm (stkStat_apart_bankFree k))]
    exact s.get_bankAdds l (Nat.zero_le k)
  · have h := (s.frame_bankAdds l 0).get STK.STK_STAT_CELLS (by decide) fun g hg => by
      obtain ⟨i, -, rfl⟩ := List.mem_map.1 hg
      exact stkStat_apart_bankFree i
    rw [State.get_put_same _ _ (by decide), h]
    rfl

/-! ### Items handed out (R389) -/

theorem State.queue_of_queues (h : t.queues = s.queues) (n : Nat) : t.queue n = s.queue n := by rw [State.queue, h, State.queue]
theorem State.engine_of_engines (h : t.engines = s.engines) (i : Nat) : t.engine i = s.engine i := by rw [State.engine, h, State.engine]

/-- A change of depth bears on nothing of a PLAIN queue that is not being disabled. -/
theorem State.afterDepth_plain {m before : Nat} {popped : Bool} (hc : (t.queue m).cls = 0) (hd : (t.queue m).disabling = false) :
    t.afterDepth m before popped = t := by
  simp [State.afterDepth, hc, hd]

section
variable (hon : (s.queue n).enabled = true) (hpop : s.mayPop u n = true)
include hon hpop

theorem State.popItem_empty (h : (s.queue n).items = []) : s.popItem u n false = (s.waitFor u waitItem).reply [0, 0] := by
  simp [State.popItem, hon, hpop, h]

theorem State.popItem_item {it : Item} {l : List Item} (h : (s.queue n).items = it :: l) (hcomplete : it.complete = true) (hcur : s.itemCurrent it = true)
    (hc : (s.queue n).cls = 0) (hd : (s.queue n).disabling = false) : s.popItem u n false =
      (((s.setQueue n { s.queue n with items := l }).freeCells it.banks).waitOver u waitItem).reply it.answer := by
  have hq : ((s.setQueue n { s.queue n with items := l }).freeCells it.banks).queue n = { s.queue n with items := l } :=
    (State.queue_of_queues (((State.frame_freeCells _ _).1 .queues (by simp))) n).trans (State.queue_setQueue ..)
  have hafter : ((s.setQueue n { s.queue n with items := l }).freeCells it.banks).afterDepth n (s.queue n).depth true =
      (s.setQueue n { s.queue n with items := l }).freeCells it.banks :=
    State.afterDepth_plain (by rw [hq]; exact hc) (by rw [hq]; exact hd)
  simp [State.popItem, hon, hpop, h, hcomplete, hcur, hafter]

end

/-! What follows a pop: the answer, and ING_HOLD (R241). -/

theorem State.frame.popEnd (h : s.frame t [.engines] (waitFields u)) (a : List Nat) :
    s.frame (t.reply a).showHold [.answer, .tripped, .engines] (ACC.ACC_STAT_HOLD :: waitFields u) :=
  ((h.mono (by simp) fun _ hf => List.mem_cons_of_mem _ hf).reply a (by simp)).trans ((t.reply a).frame_showHold.mono (by simp) (by simp))

theorem State.popEnd_answer (t : State) (a : List Nat) : (t.reply a).showHold.answer = a := (t.reply a).frame_showHold.1 .answer (by simp)

theorem State.popEnd_engine (t : State) (a : List Nat) {i : Nat} (hi : i < 86) :
    (t.reply a).showHold.engine i = t.engine i ∧ (t.reply a).showHold.get (engState i) = t.get (engState i) := by
  have h : t.frame (t.reply a).showHold [.answer, .tripped] [ACC.ACC_STAT_HOLD] :=
    (State.frame.rfl'.reply a (by simp)).trans ((t.reply a).frame_showHold.mono (by simp) (by simp))
  exact ⟨State.engine_of_engines (h.1 .engines (by simp)) i,
    h.get _ (engState_le i) (by simpa using engState_apart_of hi (f := ACC.ACC_STAT_HOLD) (.inl (by decide)))⟩

/-- Registers below those of the engines do not show what a routine waits on. -/
theorem popEnd_apart {f : Fld} (h : f.off < ACC.ACC_STAT) : ∀ g ∈ ACC.ACC_STAT_HOLD :: waitFields u, f.apart g := by
  refine List.forall_mem_cons.2 ⟨.inl (Nat.ne_of_lt h), fun g hg => ?_⟩
  obtain ⟨i, -, rfl⟩ := List.mem_map.1 hg
  have hreg : 0x110100 ≤ (engState i).off := engReg_ge i 4
  have hacc : ACC.ACC_STAT < 0x110100 := by decide
  exact .inl (by omega)

/-- Eight banks' registers are none of an engine's. -/
theorem engState_apart_cellFields {l : List Nat} (hi : i < 86) (hl : l.length ≤ 8) : ∀ g ∈ cellFields l, (engState i).apart g := by
  refine List.forall_mem_cons.2 ⟨engState_apart_of hi (.inl (by decide)), fun g hg => ?_⟩
  obtain ⟨k, hk, rfl⟩ := List.mem_map.1 hg
  have hlt := List.mem_range.1 hk
  exact engState_apart_of hi (.inl (by show 0xC0020 + 4 * k < 0x110100; omega))

/-- What a pop does with an item that has left its queue: the cells go back, the consumer's wait for an item is over, and the item is the answer. -/
def State.handOver (s : State) (u : Nat) (it : Item) : State := (((s.freeCells it.banks).waitOver u waitItem).reply it.answer).showHold

theorem State.frame_handOver (s : State) (u : Nat) (it : Item) :
    s.frame (s.handOver u it) [.answer, .tripped, .engines] (ACC.ACC_STAT_HOLD :: waitFields u ++ cellFields it.banks) :=
  ((s.frame_freeCells it.banks).mono (List.nil_subset _) fun _ hf => List.mem_append_right _ hf).trans
    ((((s.freeCells it.banks).frame_waitOver u waitItem).popEnd it.answer).mono (fun _ hp => hp) fun _ hf => List.mem_append_left _ hf)

theorem State.handOver_back (s : State) (u : Nat) (it : Item) : s.cellsBack (s.handOver u it) it.banks := by
  obtain ⟨hbanks, hstat⟩ := s.freeCells_back it.banks
  have hend := ((s.freeCells it.banks).frame_waitOver u waitItem).popEnd it.answer
  refine ⟨fun k hk => (hend.get _ (bankFree_le k) (popEnd_apart ?_)).trans (hbanks k hk), (hend.get _ (by decide) (popEnd_apart (by decide))).trans hstat⟩
  show 0xC0020 + 4 * k < 0x100000
  omega

theorem State.handOver_engine {it : Item} (hlen : it.banks.length ≤ 8) (hi : engineOf u = some i) (hwork : (s.engine i).work.isSome = true)
    (hwait : (s.engine i).wait = waitItem) (hst : s.get (engState i) = stWaiting) :
    ((s.handOver u it).engine i).wait = 0 ∧ (s.handOver u it).get (engState i) = stRunning := by
  have hlt := engineOf_lt hi
  have hcells := s.frame_freeCells it.banks
  have heng : (s.freeCells it.banks).engine i = s.engine i := State.engine_of_engines (hcells.1 .engines (by simp)) i
  have hstate : (s.freeCells it.banks).get (engState i) = s.get (engState i) := hcells.get _ (engState_le i) (engState_apart_cellFields hlt hlen)
  obtain ⟨he, hg⟩ := ((s.freeCells it.banks).waitOver u waitItem).popEnd_engine it.answer hlt
  rw [State.handOver, he, hg]
  exact State.waitOver_waiting hi (by rw [heng]; exact hwork) (by rw [heng]; exact hwait) (hstate.trans hst)

end Sys2Proof.Machine

section
set_option Elab.async false
open Sys2Proof Sys2Proof.Machine

/-- Settles O53: ING_HOLD by `State.showHold_held`, pops by `State.popItem_item` and `State.popItem_empty`, the ports by what is put into PORT_STAT
(`State.get_portPut`) and into the lanes left (`State.bitAt_loseLanes`), the report by `State.reportStreams_c3_spec`. -/
theorem holdOutputsAndSensorPortsFollow : Obligations.HoldOutputsAndSensorPortsFollow := by
  unfold Obligations.HoldOutputsAndSensorPortsFollow
  refine ⟨?force, ?item, ?empty, ?initial, ?periodic, ?ulps, ?ulpsExit, ?lanes, ?clock, ?report⟩
  case force =>
    intro s v hv
    have hforce : (s.put ACC.HOLD_CTL_FORCE v).get ACC.HOLD_CTL_FORCE = v := (State.get_put_same _ _ (by decide)).trans (Nat.mod_eq_of_lt hv)
    have hshow := (s.put ACC.HOLD_CTL_FORCE v).frame_showHold
    refine ⟨_, rfl, (hshow.get _ (by decide) (by decide)).trans hforce, fun h hh held => ?_, ?_⟩
    · exact State.showHold_held hh (held.imp_left fun hb => by rw [hforce]; exact hb)
    · exact (State.frame.rfl'.put _ (by simp)).trans (hshow.mono (by simp) (by simp))
  case item =>
    intro s u n it l hon hpop hitems hcomplete hcur hc hd hlen
    have hset : s.frame (s.setQueue n { s.queue n with items := l }) [.queues] [] := State.frame.rfl'.setQueue _ _ (by simp)
    have hover := (s.setQueue n { s.queue n with items := l }).frame_handOver u it
    have hq := State.queue_of_queues (hover.1 .queues (by simp))
    have hn := (hq n).trans (State.queue_setQueue ..)
    have hback := (s.setQueue n { s.queue n with items := l }).handOver_back u it
    simp only [State.cellsBack, State.get_setQueue] at hback
    refine ⟨_, congrArg (fun t : State => Host.Outcome.next t.showHold) (State.popItem_item hon hpop hitems hcomplete hcur hc hd), State.popEnd_answer _ _,
      (congrArg Queue.items hn :), (congrArg Queue.claimed hn :), fun m hm => (hq m).trans (State.queue_setQueue_ne _ _ hm), hback,
      fun i hi hwork hwait hst => ?_, (hset.mono (by simp) (by simp)).trans (hover.mono (by simp) fun _ hf => hf)⟩
    have heng := State.engine_of_engines (hset.1 .engines (by simp)) i
    exact State.handOver_engine hlen hi (by rw [heng]; exact hwork) (by rw [heng]; exact hwait) ((State.get_setQueue ..).trans hst)
  case empty =>
    intro s u n hon hpop hitems
    refine ⟨_, congrArg (fun t : State => Host.Outcome.next t.showHold) (State.popItem_empty hon hpop hitems), State.popEnd_answer _ _,
      fun i hi hwork hrun => ?_, (s.frame_waitFor u waitItem).popEnd _⟩
    obtain ⟨he, hg⟩ := (s.waitFor u waitItem).popEnd_engine [0, 0] (engineOf_lt hi)
    rw [he, hg]
    exact State.waitFor_running hi (by decide) hwork hrun
  case initial =>
    intro s p lanes hon hu hp hl
    obtain ⟨hclk, hsync, hhs, hdone⟩ := s.portPut_deskew hp hl true
    exact ⟨_, exec_deskewSequence hon hu, hclk, hsync, hdone, hhs.trans hdone, (s.frame_portPut p _).mono (by simp) (by simp [deskewWrites, hsBit])⟩
  case periodic =>
    intro s p lanes hon hu hp hl
    obtain ⟨hclk, hsync, hhs, hdone⟩ := s.portPut_deskew hp hl false
    exact ⟨_, exec_deskewSequence hon hu, hclk, hsync, hhs.trans hdone, (s.frame_portPut p _).mono (by simp) (by simp [deskewWrites, hsBit])⟩
  case ulps =>
    intro s p hon hp
    have hlp := (s.put (ACC.PORT_STAT_ULPS p) 1).frame_portLp p
    obtain ⟨hclk, hsync, hdone, hhs⟩ := (s.put (ACC.PORT_STAT_ULPS p) 1).portLp_get hp
    refine ⟨_, exec_ulpsEntry hon, ?_, hclk, hsync, hdone, hhs, ?_⟩
    · exact (hlp.get _ (by simp [ACC.PORT_STAT_ULPS]) (ulps_apart_lpFields p)).trans (State.get_put_same _ _ (by simp [ACC.PORT_STAT_ULPS]))
    · exact (State.frame.rfl'.put _ List.mem_cons_self).trans (hlp.mono (by simp) (by simp [lpFields, hsBit]))
  case ulpsExit =>
    intro s p
    exact ⟨_, rfl, State.get_put_same _ _ (by simp [ACC.PORT_STAT_ULPS]), State.frame.rfl'.put _ (by simp)⟩
  case lanes =>
    intro s p lanes h
    exact ⟨_, exec_sensorLinkLoss_idle h, fun i hi => s.bitAt_loseLanes p lanes hi, s.frame_loseLanes p lanes⟩
  case clock =>
    intro s p lanes h hp
    obtain ⟨hclk, hsync, hdone, hhs⟩ := (s.loseLanes p lanes).portLp_get hp
    exact ⟨_, exec_sensorLinkLoss_idle h, hclk, hsync, hdone, hhs,
      ((s.frame_loseLanes p lanes).mono (by simp) (by simp)).trans ((s.loseLanes p lanes).frame_portLp p)⟩
  case report =>
    intro s p lanes n x f h hf hpic hr hu _ hp
    refine ⟨_, exec_sensorLinkLoss_one h hf, ?_⟩
    have hlost := s.frame_loseLanes p lanes
    have hstream : ∀ k, (s.loseLanes p lanes).stream k = s.stream k := State.stream_of_streams (hlost.1 .streams (by simp))
    rw [← hstream] at hpic
    obtain ⟨hflag, hother⟩ := State.onPic_unmask hpic
    have hpicked := (State.frame.rfl' (s := s.loseLanes p lanes) (fs := [])).onPic n f.num Pic.unmask (List.mem_singleton.2 rfl)
    have hrgs : ((s.loseLanes p lanes).onPic n f.num Pic.unmask).rgs = s.rgs := (hpicked.1 .rgs (by simp)).trans (hlost.1 .rgs (by simp))
    have hbig : ((s.loseLanes p lanes).onPic n f.num Pic.unmask).big = s.big := (hpicked.1 .big (by simp)).trans (hlost.1 .big (by simp))
    obtain ⟨hlog, hfr⟩ := State.reportStreams_c3_spec (n := n) (engineOf_sensorUnit p) (kindClass_sensorLink p)
      ((State.unitEnabled_congr hbig _).trans hu) (by rw [hrgs]; exact hr)
    have hreported := State.stream_of_streams (hfr.1 .streams (by simp))
    have hsync := (hfr.get (ACC.PORT_STAT_LANE_SYNC p) (by simp [ACC.PORT_STAT_LANE_SYNC]) (portStat_apart_report rfl hp _)).trans
      (hpicked.get _ (by simp [ACC.PORT_STAT_LANE_SYNC]) (by simp))
    refine ⟨fun i hi => ?_, ?_, ?_, fun k hk => ?_⟩
    · exact (congrArg (bitAt · i) hsync).trans (s.bitAt_loseLanes p lanes hi)
    · rwa [State.logged, hrgs] at hlog
    · exact (congrArg (fun y : Stream => (y.pic f.num).map fun q => q.unmasked) (hreported n)).trans hflag
    · exact (hreported k).trans ((hother k hk).trans (hstream k))
end

/-! PROOFS of the statements of 09_bindery_and_panor.md. -/

/-! ### Steps of one magazine port (R246, R250, R283) -/

namespace Sys2Proof.Machine
set_option Elab.async false

variable {s t u : State} {p : Nat} {m m' : Mag} {fs gs : List Fld}

/-- From s to t, port p's magazine has become m, and beside it only the register fields fs have changed, and of the Bindery the VOLUME_IDs given. -/
structure State.PortStep (s t : State) (p : Nat) (m : Mag) (fs : List Fld) : Prop where
  mag : t.mag p = m
  only : s.portOnly t p
  frame : s.frame t [.bnd] fs

theorem State.PortStep.refl (s : State) (p : Nat) : s.PortStep s p (s.mag p) [] := ⟨rfl, ⟨fun _ _ => rfl, rfl, rfl⟩, .rfl'⟩

theorem State.PortStep.mono (h : s.PortStep t p m fs) (hf : ∀ f ∈ fs, f ∈ gs) : s.PortStep t p m gs := ⟨h.mag, h.only, h.frame.mono (fun _ h => h) hf⟩

theorem State.PortStep.trans (h : s.PortStep t p m fs) (g : t.PortStep u p m' fs) : s.PortStep u p m' fs := by
  obtain ⟨hq, htakes, hext⟩ := h.only
  obtain ⟨gq, gtakes, gext⟩ := g.only
  exact ⟨g.mag, ⟨fun q hne => (gq q hne).trans (hq q hne), gtakes.trans htakes, gext.trans hext⟩, h.frame.trans g.frame⟩

theorem State.mag_congr (h : t.bnd = s.bnd) (q : Nat) : t.mag q = s.mag q := congrArg (fun b : Bindery => Tab.get (fun _ => Mag.init) b.mags q) h

theorem State.portOnly.of_bnd (h : s.portOnly t p) (hb : u.bnd = t.bnd) : s.portOnly u p := by
  obtain ⟨hq, htakes, hext⟩ := h
  exact ⟨fun q hne => (State.mag_congr hb q).trans (hq q hne), (congrArg Bindery.takes hb).trans htakes, (congrArg Bindery.extents hb).trans hext⟩

/-- A change that keeps the Bindery. -/
theorem State.PortStep.of_frame (h : s.frame t [] fs) : s.PortStep t p (s.mag p) fs := by
  have hb : t.bnd = s.bnd := h.1 .bnd (by simp)
  exact ⟨State.mag_congr hb p, (State.PortStep.refl s p).only.of_bnd hb, h.mono (by simp) fun _ h => h⟩

/-- Such a change after others. -/
theorem State.PortStep.transKept (h : s.PortStep t p m fs) (g : t.frame u [] fs) : s.PortStep u p m fs := by
  have hu := h.trans (.of_frame g)
  rwa [h.mag] at hu

theorem State.PortStep.setMag (h : s.PortStep t p m fs) (m' : Mag) : s.PortStep (t.setMag p m') p m' fs :=
  h.trans ⟨State.mag_setMag .., ⟨fun _ hq => State.mag_setMag_ne _ _ hq, rfl, rfl⟩, State.frame.rfl'.setMag _ _ (by simp)⟩

theorem State.PortStep.put (h : s.PortStep t p m fs) {f : Fld} (v : Nat) (hf : f ∈ fs) : s.PortStep (t.put f v) p m fs := h.transKept (State.frame.rfl'.put _ hf)

theorem State.portStep_setMag (s : State) (p : Nat) (m : Mag) : s.PortStep (s.setMag p m) p m [] := (State.PortStep.refl s p).setMag m

/-- A command that changes the port's magazine and nothing else. -/
theorem answers_setMag {c : Instr} (h : exec c s = .next (s.setMag p m)) : Answers c s fun t => t.mag p = m ∧ s.portOnly t p ∧ s.frame t [.bnd] [] := by
  obtain ⟨hmag, honly, hfr⟩ := s.portStep_setMag p m
  exact ⟨_, h, hmag, honly, hfr⟩

/-- The commands that are issued for a job. -/
def State.cmdOf (s : State) (job : MagJob) (admin : Bool) (n : Nat) (seq : Option Nat) (writes : List (Nat × List Byte)) : MagCmd :=
  { job, left := max 1 n, retried := false, admin, tick := s.ticks, seq, writes }

@[simp] theorem State.cmdOf_writes (s : State) (job : MagJob) (admin : Bool) (n : Nat) (seq : Option Nat) (writes : List (Nat × List Byte)) :
    (s.cmdOf job admin n seq writes).writes = writes := rfl

theorem State.PortStep.issueN (h : s.PortStep t p m fs) (job : MagJob) (admin : Bool) (n : Nat) (seq : Option Nat) (writes : List (Nat × List Byte)) :
    s.PortStep (t.issueN p job admin n seq writes) p { m with cmds := m.cmds ++ [t.cmdOf job admin n seq writes] } fs := by
  rw [← h.mag]
  exact h.setMag _

/-- A command is issued: one more job, with the data that it writes. -/
theorem State.PortStep.issue (h : s.PortStep t p m fs) (job : MagJob) (admin : Bool) (seq : Option Nat) (writes : List (Nat × List Byte)) :
    s.PortStep (t.issue p job admin seq writes) p { m with cmds := m.cmds ++ [t.cmdOf job admin (t.transfers p writes.length) seq writes] } fs :=
  h.issueN ..

@[simp] theorem State.get_issue (s : State) (p : Nat) (job : MagJob) (admin : Bool) (seq : Option Nat) (writes : List (Nat × List Byte)) (f : Fld) :
    (s.issue p job admin seq writes).get f = s.get f := State.get_setMag ..

/-! The registers that follow. -/

theorem State.frame_showBnd (s : State) : s.frame s.showBnd [] volumeFields := by
  have hmem : ∀ q ∈ List.range 2, ∀ f ∈ [BND.MG_SHELF_TOTAL_SHELVES q, BND.MG_SHELF_FREE_SHELVES q, BND.MG_VOLUME_ID0_ID q, BND.MG_VOLUME_ID1_ID q,
      BND.MG_VOLUME_ID2_ID q, BND.MG_VOLUME_ID3_ID q, BND.MG_STATE_TAKES_OPEN q], f ∈ volumeFields := fun q hq f hf =>
    List.mem_cons_of_mem _ (List.mem_flatMap.2 ⟨q, hq, hf⟩)
  refine State.frame.put (State.frame.rfl'.foldl_mem fun t q hq ht => ?_) _ List.mem_cons_self
  have hput : ∀ {u : State} {f : Fld} (v : Nat), s.frame u [] volumeFields → f ∈ [BND.MG_SHELF_TOTAL_SHELVES q, BND.MG_SHELF_FREE_SHELVES q,
      BND.MG_VOLUME_ID0_ID q, BND.MG_VOLUME_ID1_ID q, BND.MG_VOLUME_ID2_ID q, BND.MG_VOLUME_ID3_ID q, BND.MG_STATE_TAKES_OPEN q] →
      s.frame (u.put f v) [] volumeFields := fun v h hf => h.put v (hmem q hq _ hf)
  exact hput _ (hput _ (hput _ (hput _ (hput _ (hput _ (hput _ ht (by simp)) (by simp)) (by simp)) (by simp)) (by simp)) (by simp)) (by simp)

theorem State.PortStep.showBnd (h : s.PortStep t p m fs) (hf : ∀ f ∈ volumeFields, f ∈ fs) : s.PortStep t.showBnd p m fs :=
  h.transKept (t.frame_showBnd.mono (fun _ h => h) hf)

/-- The register fields of a port that its commands write, but those that follow the volumes and the counts of errors. -/
def magFields (p : Nat) : List Fld :=
  [BND.MG_STATE_STATE p, BND.MG_STATE_VWC p, BND.MG_STATE_LINK_SPEED p, BND.MG_STATE_LINK_WIDTH p, presentBit p, linkUpBit p, srcPending (19 + p),
   BND.MG_CMD_STAT_BUSY p, BND.MG_CMD_STAT_RESULT p, BND.MG_CMD_STAT_DONE p]

/-- What a port enters a state with: MGn_STATE, and ICU source 19 or 20. -/
def stateWrites (p v : Nat) : List (Fld × Nat) := [(BND.MG_STATE_STATE p, v), (srcPending (19 + p), 1)]

theorem State.raise_port (s : State) (hp : p < 2) : s.raise (19 + p) = s.put (srcPending (19 + p)) 1 := if_pos (by omega)

theorem State.setMagState_eq (s : State) (hp : p < 2) (v : Nat) : s.setMagState p v = s.putAll (stateWrites p v) := State.raise_port _ hp

theorem State.PortStep.putAll (h : s.PortStep t p m fs) (l : List (Fld × Nat)) (hl : ∀ q ∈ l, q.1 ∈ fs) : s.PortStep (t.putAll l) p m fs :=
  h.transKept ((t.frame_putAll l).mono (fun _ h => h) (by simpa using fun f x hq => hl (f, x) hq))

theorem State.PortStep.setMagState (h : s.PortStep t p m fs) (hp : p < 2) (v : Nat) (hst : BND.MG_STATE_STATE p ∈ fs) (hsrc : srcPending (19 + p) ∈ fs) :
    s.PortStep (t.setMagState p v) p m fs := by
  rw [State.setMagState_eq _ hp]
  exact h.putAll _ (by simp [stateWrites, hst, hsrc])

theorem State.bndBit_linkUp (s : State) (p : Nat) (v : Bool) : s.bndBit BND.BND_STAT_LINK_UP p v = s.put (linkUpBit p) (if v then 1 else 0) := rfl

theorem State.bndBit_present (s : State) (p : Nat) (v : Bool) : s.bndBit BND.BND_STAT_PRESENT p v = s.put (presentBit p) (if v then 1 else 0) := by
  rw [State.bndBit, presentBit, show BND.BND_STAT_PRESENT.lo + p = p from Nat.zero_add p]
  rfl

theorem magFields_le (hp : p < 2) : ∀ f ∈ magFields p, f.lo + f.w ≤ 32 := by
  revert p; decide

/-- Presence shares no bit with the port's state, its link, or its source. -/
theorem presentBit_apart (hp : p < 2) : ∀ f ∈ [BND.MG_STATE_STATE p, linkUpBit p, srcPending (19 + p)], f.apart (presentBit p) := by
  revert p; decide

/-- They are none of the fields that follow the volumes. -/
theorem magFields_apart_volumeFields (hp : p < 2) : ∀ f ∈ magFields p, ∀ g ∈ volumeFields, f.apart g := by
  revert p; decide

theorem State.showBnd_get (s : State) (hp : p < 2) {f : Fld} (hf : f ∈ magFields p) : s.showBnd.get f = s.get f :=
  s.frame_showBnd.get f (magFields_le hp f hf) (magFields_apart_volumeFields hp f hf)

theorem State.frame_setMagState (s : State) (hp : p < 2) (v : Nat) : s.frame (s.setMagState p v) [] [BND.MG_STATE_STATE p, srcPending (19 + p)] := by
  rw [State.setMagState_eq _ hp]
  exact s.frame_putAll _

theorem State.setMagState_get_apart (s : State) (hp : p < 2) (v : Nat) {f : Fld} (hw : f.lo + f.w ≤ 32) (hst : f.apart (BND.MG_STATE_STATE p))
    (hsrc : f.apart (srcPending (19 + p))) : (s.setMagState p v).get f = s.get f :=
  (s.frame_setMagState hp v).get f hw (by simpa using ⟨hst, hsrc⟩)

/-- Of what writes its state, a port reads the state, and its source is pending. -/
theorem State.setMagState_get (s : State) (hp : p < 2) {v : Nat} (hv : v < 16) :
    (s.setMagState p v).magState p = v ∧ (s.setMagState p v).get (srcPending (19 + p)) = 1 := by
  rw [State.setMagState_eq _ hp, State.magState]
  have hap : (stateWrites p v).Pairwise fun a b => a.1.apart b.1 := by
    simp [stateWrites, Fld.apart, BND.MG_STATE_STATE, BND.MG_STATE, srcPending, srcReg]
  exact ⟨(State.get_putAll hap (x := v) List.mem_cons_self (Nat.le_of_ble_eq_true rfl)).trans (Nat.mod_eq_of_lt hv),
    State.get_putAll hap (x := 1) (List.mem_cons_of_mem _ List.mem_cons_self) (Nat.le_of_ble_eq_true rfl)⟩

end Sys2Proof.Machine

/-! ### A port lets go of its magazine (R249, R250, R275) -/

namespace Sys2Proof.Machine
set_option Elab.async false

variable {s : State} {p : Nat}

/-- A port that has let go: its commands, queues, volume and checkpoint are gone, and no housekeeping runs. -/
def Mag.released (m : Mag) : Mag := { m with stage := .empty, queues := [], cmds := [], vol := none, ckpt := none, ckptNext := [], op := none }

/-- The registers of its volume and link that a port shows no more, and the state v that it enters. -/
def letGoWrites (p v : Nat) : List (Fld × Nat) :=
  [(BND.MG_STATE_VWC p, 0), (BND.MG_STATE_LINK_SPEED p, 0), (BND.MG_STATE_LINK_WIDTH p, 0), (linkUpBit p, 0)] ++ stateWrites p v

/-- The fields that letting go writes. -/
def letGoFields (p : Nat) : List Fld :=
  volumeFields ++ [BND.MG_STATE_STATE p, BND.MG_STATE_VWC p, BND.MG_STATE_LINK_SPEED p, BND.MG_STATE_LINK_WIDTH p, linkUpBit p, srcPending (19 + p)]

theorem letGoWrites_apart (hp : p < 2) (v : Nat) : (letGoWrites p v).Pairwise fun a b => a.1.apart b.1 := by
  have hf : ((letGoWrites p v).map (·.1)).Pairwise Fld.apart := by
    show [BND.MG_STATE_VWC p, BND.MG_STATE_LINK_SPEED p, BND.MG_STATE_LINK_WIDTH p, linkUpBit p, BND.MG_STATE_STATE p, srcPending (19 + p)].Pairwise Fld.apart
    revert p; decide
  exact List.pairwise_map.1 hf

section Idle
variable (hp : p < 2) (hop : (s.mag p).op = none) (hbnd : s.bnd.takes = [] ∧ s.bnd.extents = []) (hheld : s.power.held = false)
include hp hop hbnd hheld

/-- Where no housekeeping runs and no take or READ_EXTENT is open, nothing else comes of it. -/
theorem State.letGo_idle (v st : Nat) : s.letGo p v st = ((s.setMag p (s.mag p).released).putAll (letGoWrites p v)).showBnd := by
  have hlose : s.loseTakes p st = s := by
    unfold State.loseTakes
    rw [hbnd.1]
    rfl
  have hext : s.failExtents p st = s := by
    unfold State.failExtents
    rw [hbnd.2]
    rfl
  simp only [State.letGo, hop, hlose, hheld, hext, Option.isSome_none, Bool.false_eq_true, if_false,
    State.setMagState, State.raise_port _ hp]
  rfl

/-- What letting go leaves: the port, the state that it has entered, no link. -/
theorem State.letGo_spec {v : Nat} (hv : v < 16) (st : Nat) : s.PortStep (s.letGo p v st) p (s.mag p).released (letGoFields p) ∧
    (s.letGo p v st).magState p = v ∧ (s.letGo p v st).get (linkUpBit p) = 0 ∧ (s.letGo p v st).get (srcPending (19 + p)) = 1 := by
  rw [State.letGo_idle hp hop hbnd hheld]
  have hget : ∀ {f : Fld} {x : Nat}, (f, x) ∈ letGoWrites p v → f ∈ magFields p →
      ((s.setMag p (s.mag p).released).putAll (letGoWrites p v)).showBnd.get f = x % 2 ^ f.w := fun hl hf =>
    (State.showBnd_get _ hp hf).trans (State.get_putAll (letGoWrites_apart hp v) hl (magFields_le hp _ hf))
  refine ⟨?_, ?_, hget (x := 0) (by simp [letGoWrites]) (by simp [magFields]),
    hget (x := 1) (by simp [letGoWrites, stateWrites]) (by simp [magFields])⟩
  · exact (((s.portStep_setMag p _).mono (by simp)).putAll _ (by simp [letGoWrites, stateWrites, letGoFields])).showBnd fun f hf => List.mem_append_left _ hf
  · exact (hget (x := v) (by simp [letGoWrites, stateWrites]) (by simp [magFields])).trans (Nat.mod_eq_of_lt hv)

end Idle

end Sys2Proof.Machine

/-! ### Messages of the classes C0 and C1 (R436, R437, R443) -/

namespace Sys2Proof.Machine
set_option Elab.async false

variable {s : State} {u k c : Nat}

theorem State.classAsLogged_of_not_raises (hr : s.rgs.raises u c = false) (k : Nat) : s.classAsLogged u k c = c := by
  rw [State.classAsLogged, hr, Bool.and_false]
  rfl

/-- Logged with such a class, a message changes the log, the pins that follow it, its class's count, and source 1. -/
theorem State.frame_logMsg_low (hc : c ≤ 1) (hr : s.rgs.raises u c = false) (d : Option Nat) (raw addr : Nat) (inj : Bool) :
    s.frame (s.logMsg u k c d raw addr inj) lowParts (lowFields c) := by
  unfold State.logMsg
  extract_lets c' now a m r b e g
  have hcls : c' = c := State.classAsLogged_of_not_raises hr k
  have ha : s.frame a lowParts (lowFields c) := State.frame.ite (State.frame.rfl'.pads _ (by simp [lowParts])) State.frame.rfl'
  have hb : s.frame b lowParts (lowFields c) := ha.rgs _ (by simp [lowParts])
  have he : e = b := if_neg (by simp [hcls])
  have hg : g = e := if_neg (by omega)
  rw [hg, he, hcls]
  exact (hb.bump _ (by simp [lowFields])).raise _ (by simp [lowFields])

/-- A report of such a class only logs: no stream is told of it, no engine fenced and no unit rewritten. -/
theorem State.report_low (hk : kindClass k u = c) (hc : c ≤ 1) (hu : s.unitEnabled u = true) (hr : s.rgs.raises u c = false) (d : Option Nat) (addr : Nat) :
    s.report u k d addr = s.logMsg u k c d 0xFF addr false := by
  have hcls : s.classAsLogged u k c = c := State.classAsLogged_of_not_raises hr k
  have hbase : s.reportBase u k c d 0xFF addr false = s.logMsg u k c d 0xFF addr false := by
    rw [State.reportBase, hcls]
    exact (if_neg (by omega)).trans (if_neg (by omega))
  rw [State.report, State.reportAs, hk, hcls, hbase]
  refine (if_neg (by simp [hu])).trans ((if_neg (by omega)).trans ?_)
  cases engineOf u with
  | none => exact if_neg (by omega)
  | some i => exact if_neg (by omega)

theorem State.report_low_spec (hk : kindClass k u = c) (hc : c ≤ 1) (hu : s.unitEnabled u = true) (hr : s.rgs.raises u c = false) (d : Option Nat) (addr : Nat) :
    s.logged (s.report u k d addr) u k c addr ∧ s.frame (s.report u k d addr) lowParts (lowFields c) := by
  have hlog := (s.logMsg_logged u k c d 0xFF addr false).1
  rw [State.classAsLogged_of_not_raises hr] at hlog
  rw [State.report_low hk hc hu hr]
  exact ⟨hlog, State.frame_logMsg_low hc hr ..⟩

end Sys2Proof.Machine

/-! ### Commands that fail (R249, R438) -/

namespace Sys2Proof.Machine
set_option Elab.async false

variable {s t u : State} {p k : Nat} {c : MagCmd} {f : Fld}

theorem kindClass_magCommand (p : Nat) : kindClass 0x32 (magUnit p) = 1 := rfl

theorem State.unitEnabled_magUnit (s : State) (hp : p < 2) : s.unitEnabled (magUnit p) = true := by
  obtain rfl | rfl : p = 0 ∨ p = 1 := by omega
  · simp [State.unitEnabled, engineOf, magUnit]
  · simp [State.unitEnabled, engineOf, magUnit]

/-- The port's commands with the kth retried. -/
def State.retriedMag (s : State) (p k : Nat) (c : MagCmd) : Mag :=
  { s.mag p with cmds := (s.mag p).cmds.set k { c with retried := true, tick := s.ticks } }

/-- A command's first failure: it is retried, and reported. -/
theorem State.cmdFails_first (hk : (s.mag p).cmds[k]? = some c) (hret : c.retried = false) :
    s.cmdFails p k = (s.setMag p (s.retriedMag p k c)).report (magUnit p) 0x32 none 0 := by
  simp only [State.cmdFails, hk, hret]
  rfl

/-- It is counted in the field f of MGn_ERR beside. -/
theorem State.firstFailure_spec (hk : (s.mag p).cmds[k]? = some c) (hret : c.retried = false) (hp : p < 2) (hr : s.rgs.raises (magUnit p) 1 = false)
    (ho : f.off = BND.MG_ERR p) (hw : f.lo + f.w ≤ 32) :
    s.logged ((s.bump f).cmdFails p k) (magUnit p) 0x32 1 0 ∧ ((s.bump f).cmdFails p k).get f = satAdd f.w (s.get f) 1 ∧
    ((s.bump f).cmdFails p k).mag p = s.retriedMag p k c ∧ s.portOnly ((s.bump f).cmdFails p k) p ∧
    s.frame ((s.bump f).cmdFails p k) (.bnd :: lowParts) (f :: lowFields 1) := by
  have hstep : s.PortStep ((s.bump f).setMag p (s.retriedMag p k c)) p (s.retriedMag p k c) [f] :=
    (State.PortStep.of_frame (State.frame.rfl'.bump f (by simp))).setMag _
  have heq : (s.bump f).cmdFails p k = ((s.bump f).setMag p (s.retriedMag p k c)).report (magUnit p) 0x32 none 0 := by
    rw [State.cmdFails_first (by rwa [State.mag_bump]) hret, State.retriedMag, State.mag_bump, State.bump_ticks]
    rfl
  have hget : ((s.bump f).setMag p (s.retriedMag p k c)).get f = satAdd f.w (s.get f) 1 := (State.get_setMag ..).trans (State.get_bump_same _ hw)
  rw [heq]
  have hrgs : ((s.bump f).setMag p (s.retriedMag p k c)).rgs = s.rgs := hstep.frame.1 .rgs (by simp)
  generalize (s.bump f).setMag p (s.retriedMag p k c) = v at *
  obtain ⟨hlog, hfr⟩ := State.report_low_spec (s := v) (kindClass_magCommand p) (Nat.le_refl 1) (v.unitEnabled_magUnit hp) (by rwa [hrgs]) none 0
  have hb : (v.report (magUnit p) 0x32 none 0).bnd = v.bnd := hfr.1 .bnd (by simp [lowParts])
  refine ⟨by rwa [State.logged, hrgs] at hlog, (hfr.get f hw ?_).trans hget, (State.mag_congr hb p).trans hstep.mag, hstep.only.of_bnd hb,
    (hstep.frame.mono (by simp) (by simp)).trans (hfr.mono (fun _ h => List.mem_cons_of_mem _ h) fun _ h => List.mem_cons_of_mem _ h)⟩
  simp only [lowFields, List.forall_mem_cons, List.not_mem_nil, false_imp_iff, implies_true, and_true, Fld.apart, ho, BND.MG_ERR, RGS.CLASS_COUNT_COUNT,
    RGS.CLASS_COUNT, srcPending, srcReg]
  omega

theorem exec_nvmeCompletion_failed {reply : List Nat} (hk : (s.mag p).cmds[k]? = some c) (hmay : (s.mag p).mayComplete c = true)
    (hb : s.cmdBlocked p c = false) : exec (.nvmeCompletion p k false reply none) s = .next ((s.bump (BND.MG_ERR_CMD_ERR p)).cmdFails p k) := by
  show execNvmeCompletion p k false reply none s = _
  simp only [execNvmeCompletion, hk]
  exact (if_neg (by simp [hmay, hb])).trans (if_pos trivial)

theorem exec_nvmeCompletion_more {reply : List Nat} (hk : (s.mag p).cmds[k]? = some c) (hmay : (s.mag p).mayComplete c = true)
    (hb : s.cmdBlocked p c = false) (hleft : 1 < c.left) : exec (.nvmeCompletion p k true reply none) s =
      .next (s.setMag p { s.mag p with cmds := (s.mag p).cmds.set k { c with left := c.left - 1, retried := false, tick := s.ticks } }) := by
  show execNvmeCompletion p k true reply none s = _
  simp only [execNvmeCompletion, hk]
  exact (if_neg (by simp [hmay, hb])).trans ((if_neg (by simp)).trans (if_pos hleft))

/-- A health log that has come back is shown. -/
def healthWrites (p a b d : Nat) : List (Fld × Nat) :=
  [(BND.MG_HEALTH_TEMPERATURE p, a), (BND.MG_HEALTH_CRITICAL_WARNING p, b), (BND.MG_HEALTH_PERCENT_USED p, d)]

theorem healthWrites_apart (p a b d : Nat) : (healthWrites p a b d).Pairwise fun x y => x.1.apart y.1 := by
  simp [healthWrites, Fld.apart, BND.MG_HEALTH_TEMPERATURE, BND.MG_HEALTH_CRITICAL_WARNING, BND.MG_HEALTH_PERCENT_USED]

theorem State.jobDone_health {a b d : Nat} (t : State) (hjob : c.job = .health) : t.jobDone p c [a, b, d] none = t.putAll (healthWrites p a b d) := by
  rw [State.jobDone, hjob]
  rfl

/-- The port once its kth command has completed. -/
def State.completedMag (s : State) (p k : Nat) : Mag := { s.mag p with cmds := (s.mag p).cmds.eraseIdx k }

/-- The last completion of a job that has written nothing, where no READ_EXTENT goes on after it. -/
theorem exec_nvmeCompletion_last {reply : List Nat} (hk : (s.mag p).cmds[k]? = some c) (hmay : (s.mag p).mayComplete c = true)
    (hb : s.cmdBlocked p c = false) (hleft : c.left ≤ 1) (hw : c.writes = [])
    (hext : ((s.setMag p (s.completedMag p k)).jobDone p c reply none).bnd.extents = []) :
    exec (.nvmeCompletion p k true reply none) s = .next ((s.setMag p (s.completedMag p k)).jobDone p c reply none) := by
  show execNvmeCompletion p k true reply none s = _
  simp only [execNvmeCompletion, hk]
  refine (if_neg (by simp [hmay, hb])).trans ((if_neg (by simp)).trans ((if_neg (by omega)).trans (congrArg Host.Outcome.next ?_)))
  rw [hw]
  change ite _ _ (List.foldl _ _ (List.filter _ ((s.setMag p (s.completedMag p k)).jobDone p c reply none).bnd.extents)) = _
  rw [hext]
  exact ite_self _

theorem exec_nvmeTimeout_up (hk : (s.mag p).cmds[k]? = some c) (hst : (s.mag p).stage = .up)
    (ht : msTicks (if c.admin then 5000 else 2000) ≤ s.ticks - c.tick) : exec (.nvmeTimeout p k) s = .next ((s.bump (BND.MG_ERR_TIMEOUT p)).cmdFails p k) := by
  show execNvmeTimeout p k s = _
  have hmay : (s.mag p).mayComplete c = true := by rw [Mag.mayComplete, hst]
  simp only [execNvmeTimeout, hst, hk]
  exact if_neg (by simp [hmay, ht])

/-- A port whose controller is being reset, what it has to do with data being held. -/
def State.resettingMag (s : State) (p : Nat) : Mag :=
  { s.mag p with
    stage := .enabling s.ticks true, queues := [],
    cmds := ((s.mag p).cmds.filter fun c => !c.admin).map fun c => { c with retried := false } }

/-- A command that fails again: the controller is reset. -/
theorem State.cmdFails_again (hk : (s.mag p).cmds[k]? = some c) (hret : c.retried = true) (hst : (s.mag p).stage = .up) :
    s.cmdFails p k = (s.setMag p (s.resettingMag p)).setMagState p msStarting := by
  simp only [State.cmdFails, hk, hret, State.resetController, hst]
  rfl

end Sys2Proof.Machine

/-! ### Journal records and checkpoints (R260, R262) -/

namespace Sys2Proof.Machine
set_option Elab.async false

variable {s t : State} {p key op : Nat} {m : Mag} {v : Volume} {fs : List Fld}

/-- A checkpoint that starts on a mounted volume: its tables are written to the copy with the lower GENERATION. -/
theorem State.startCkpt_idle (hv : (s.mag p).vol = some v) (hc : (s.mag p).ckpt = none) (w : CkptFor) :
    s.startCkpt p w = (s.setMag p { s.mag p with ckpt := some ([w], v.seq) }).issue p .ckptBody false none (blocksFrom (invLba (!v.copyB) + 1) v.body) := by
  simp only [State.startCkpt, hv, hc]
  rfl

/-- It leaves the commands that there are, and the housekeeping that runs. -/
theorem State.PortStep.startCkpt (h : s.PortStep t p m fs) (w : CkptFor) :
    ∃ m', s.PortStep (t.startCkpt p w) p m' fs ∧ m'.op = m.op ∧ ∀ c ∈ m.cmds, c ∈ m'.cmds := by
  obtain rfl := h.mag
  cases hv : (t.mag p).vol with
  | none =>
    have he : t.startCkpt p w = t := by rw [State.startCkpt, hv]
    rw [he]
    exact ⟨_, h, rfl, fun _ hc => hc⟩
  | some v =>
    by_cases hc : (t.mag p).ckpt.isSome = true
    · have he : t.startCkpt p w = t.setMag p { t.mag p with ckptNext := (t.mag p).ckptNext ++ [w] } := by
        simp only [State.startCkpt, hv]
        exact if_pos hc
      rw [he]
      exact ⟨_, h.setMag _, rfl, fun _ hc => hc⟩
    · rw [State.startCkpt_idle hv (by simpa using hc)]
      exact ⟨_, (h.setMag _).issue .., rfl, fun _ hc => List.mem_append_left _ hc⟩

/-- A volume with one more journal record. -/
def Volume.recorded (v : Volume) (b : List Byte) : Volume := { v.apply b with seq := v.seq + 1, since := v.since + 1 }

/-- A port whose volume has one more journal record, its write being issued. -/
def State.recordIssued (s : State) (p : Nat) (v : Volume) (job : MagJob) (b : List Byte) : State :=
  (s.setMag p { s.mag p with vol := some (v.recorded b) }).issue p job false (some v.seq) [(journalLba v.seq, b)]

/-- A journal record is one more command with the volume's next sequence number. -/
theorem State.PortStep.journal (h : s.PortStep t p m fs) (hv : m.vol = some v) (job : MagJob) (ty take : Nat) (body : List Byte) :
    ∃ m', s.PortStep (t.journal p job ty take body) p m' fs ∧ m'.op = m.op ∧ ∃ c ∈ m'.cmds, c.job = job ∧ c.seq = some v.seq := by
  obtain rfl := h.mag
  have he : t.journal p job ty take body =
      if 1024 ≤ v.since + 1 ∧ (t.mag p).ckpt.isNone then (t.recordIssued p v job (jrnBlock ty v.seq take t.now body)).startCkpt p .routine
      else t.recordIssued p v job (jrnBlock ty v.seq take t.now body) := by
    simp only [State.journal, hv]
    rfl
  obtain ⟨m', hrec, hop, c, hc, hjob, hseq⟩ : ∃ m', s.PortStep (t.recordIssued p v job (jrnBlock ty v.seq take t.now body)) p m' fs ∧ m'.op = (t.mag p).op ∧
      ∃ c ∈ m'.cmds, c.job = job ∧ c.seq = some v.seq :=
    ⟨_, (h.setMag _).issue .., rfl, _, List.mem_append_right _ (List.mem_singleton.2 rfl), rfl, rfl⟩
  rw [he]
  split
  · obtain ⟨n, hn, hnop, hcmds⟩ := hrec.startCkpt .routine
    exact ⟨n, hn, hnop.trans hop, c, hcmds c hc, hjob, hseq⟩
  · exact ⟨m', hrec, hop, c, hc, hjob, hseq⟩

/-! ### Housekeeping commands (R282) -/

theorem bits_cmdKey (key : Nat) (h : op < 65536) : bits (key % 65536 * 65536 + op) 16 16 = key % 65536 := by
  unfold bits
  omega

/-- What a command that ends at once leaves in MGn_CMD_STAT. -/
def resultWrites (p r : Nat) : List (Fld × Nat) := [(BND.MG_CMD_STAT_RESULT p, r), (BND.MG_CMD_STAT_DONE p, 1)]

theorem resultWrites_apart (p r : Nat) : (resultWrites p r).Pairwise fun x y => x.1.apart y.1 := by
  simp [resultWrites, Fld.apart, BND.MG_CMD_STAT_RESULT, BND.MG_CMD_STAT_DONE]

theorem State.resultWrites_get (s : State) (p : Nat) {r : Nat} (hr : r < 256) :
    (s.putAll (resultWrites p r)).get (BND.MG_CMD_STAT_RESULT p) = r ∧ (s.putAll (resultWrites p r)).get (BND.MG_CMD_STAT_DONE p) = 1 :=
  ⟨(State.get_putAll (resultWrites_apart p r) (x := r) List.mem_cons_self (Nat.le_of_ble_eq_true rfl)).trans (Nat.mod_eq_of_lt hr),
    State.get_putAll (resultWrites_apart p r) (x := 1) (List.mem_cons_of_mem _ List.mem_cons_self) (Nat.le_of_ble_eq_true rfl)⟩

theorem State.refuseCmd_eq (s : State) (p : Nat) {r : Nat} (hr : r ≠ 6) : s.refuseCmd p r = s.putAll (resultWrites p r) := if_neg hr

section Idle
variable (hop : (s.mag p).op = none)
include hop

/-- A wrong KEY. -/
theorem State.magCmd_badKey (hkey : key % 65536 ≠ 0x5E1F) (h : op < 16) : s.magCmd p (key % 65536 * 65536 + op) = s.putAll (resultWrites p 5) := by
  simp only [State.magCmd, hop, bits_cmdKey key (Nat.lt_trans h (by decide))]
  exact (if_neg (by simp)).trans ((if_pos (.inl hkey)).trans (s.refuseCmd_eq p (by decide)))

variable (hkey : key % 65536 = 0x5E1F)
include hkey

/-- FORMAT has begun, and the port has the new volume in hand. -/
def State.newVolumeSet (s : State) (p nsze : Nat) : State :=
  ((s.beginOp p 1).newVolume nsze).1.setMag p { ((s.beginOp p 1).newVolume nsze).1.mag p with
    vol := some ((s.beginOp p 1).newVolume nsze).2, ckpt := none, ckptNext := [] }

/-- The state in which FORMAT's first blocks are written. -/
def State.formatBegun (s : State) (p nsze : Nat) : State := ((s.newVolumeSet p nsze).setMagState p msFormatting).showBnd

theorem State.magCmd_format {g : Magazine} (hst : s.magState p = msReady ∨ s.magState p = msNoVolume) (ht : s.takesOn p = false)
    (hg : (s.mag p).inserted = some g) (hn : 16 ≤ shelfCount g.nsze) : s.magCmd p (key % 65536 * 65536 + 1) =
      (s.formatBegun p g.nsze).issue p (.format 1) false none (formatWrites ((s.beginOp p 1).newVolume g.nsze).2 1) := by
  have hready : ¬(s.magState p ≠ msReady ∧ s.magState p ≠ msNoVolume) := fun h => hst.elim h.1 h.2
  simp only [State.magCmd, hop, hkey, if_neg hready, ht, hg,
    if_neg (Nat.not_lt.2 hn)]
  rfl

theorem State.magCmd_eject (hst : s.magState p = msReady) (ht : s.takesOn p = false) :
    s.magCmd p (key % 65536 * 65536 + 2) = (s.beginOp p 2).startCkpt p .eject := by
  simp only [State.magCmd, hop, hkey, hst, ht]
  rfl

theorem State.magCmd_rescan (hst : s.magState p = msFailed ∨ s.magState p = msEjected) : s.magCmd p (key % 65536 * 65536 + 3) =
    ((s.setMag p { s.mag p with stage := .linking s.ticks false, perst := false }).setMagState p msStarting).putAll (resultWrites p 0) := by
  have hidle : ¬(s.magState p ≠ msFailed ∧ s.magState p ≠ msEjected) := fun h => hst.elim h.1 h.2
  simp only [State.magCmd, hop, hkey, if_neg hidle]
  rfl

variable (hst : s.magState p = msReady) (hv : (s.mag p).vol = some v)
include hst hv

theorem State.magCmd_delete {e : TakeEntry} (he : v.take (s.get (BND.MG_CMD_ARG_TAKE p)) = some e) (hne : e.state ≠ 1) :
    s.magCmd p (key % 65536 * 65536 + 4) = ((s.beginOp p 4).journal p (.jDelete (s.get (BND.MG_CMD_ARG_TAKE p))) 6 (s.get (BND.MG_CMD_ARG_TAKE p)) []).showBnd := by
  simp only [State.magCmd, hop, hkey, hst, hv, Option.bind_some, he]
  exact if_neg hne

theorem State.magCmd_deleteUnknown (he : v.take (s.get (BND.MG_CMD_ARG_TAKE p)) = none) :
    s.magCmd p (key % 65536 * 65536 + 4) = s.putAll (resultWrites p 3) := by
  simp only [State.magCmd, hop, hkey, hst, hv, Option.bind_some, he]
  rfl

end Idle

/-- BUSY is set as an operation begins. -/
theorem State.beginOp_spec (s : State) (p op : Nat) : s.PortStep (s.beginOp p op) p { s.mag p with op := some op } [BND.MG_CMD_STAT_BUSY p] ∧
    (s.beginOp p op).get (BND.MG_CMD_STAT_BUSY p) = 1 :=
  ⟨((s.portStep_setMag p _).mono (by simp)).put 1 (by simp), State.get_put_same _ _ (Nat.le_of_ble_eq_true rfl)⟩

theorem State.newVolumeSet_spec (s : State) (p nsze : Nat) :
    s.PortStep (s.newVolumeSet p nsze) p { s.mag p with op := some 1, vol := some ((s.beginOp p 1).newVolume nsze).2, ckpt := none, ckptNext := [] }
      [BND.MG_CMD_STAT_BUSY p] ∧ (s.newVolumeSet p nsze).get (BND.MG_CMD_STAT_BUSY p) = 1 ∧
    (s.newVolumeSet p nsze).bnd.ids = (s.beginOp p 1).freshVolumeId :: s.bnd.ids := by
  obtain ⟨hbegin, hbusy⟩ := s.beginOp_spec p 1
  have hnew : s.PortStep ((s.beginOp p 1).newVolume nsze).1 p { s.mag p with op := some 1 } [BND.MG_CMD_STAT_BUSY p] :=
    hbegin.trans ⟨hbegin.mag, ⟨fun _ _ => rfl, rfl, rfl⟩, State.frame.rfl'.bnd _ (by simp)⟩
  obtain ⟨hmag, honly, hfr⟩ := hnew.setMag { ((s.beginOp p 1).newVolume nsze).1.mag p with
    vol := some ((s.beginOp p 1).newVolume nsze).2, ckpt := none, ckptNext := [] }
  exact ⟨⟨hmag.trans (by rw [hnew.mag]), honly, hfr⟩, hbusy, rfl⟩

/-- FORMAT has begun: BUSY, the state, and the new volume, which is not mounted yet. -/
theorem State.formatBegun_spec (s : State) (hp : p < 2) (nsze : Nat) :
    s.PortStep (s.formatBegun p nsze) p { s.mag p with op := some 1, vol := some ((s.beginOp p 1).newVolume nsze).2, ckpt := none, ckptNext := [] }
      ([BND.MG_STATE_STATE p, BND.MG_CMD_STAT_BUSY p, srcPending (19 + p)] ++ volumeFields) ∧
    (s.formatBegun p nsze).magState p = msFormatting ∧ (s.formatBegun p nsze).get (BND.MG_CMD_STAT_BUSY p) = 1 ∧
    (s.formatBegun p nsze).bnd.ids = (s.beginOp p 1).freshVolumeId :: s.bnd.ids := by
  obtain ⟨hset, hbusy, hids⟩ := s.newVolumeSet_spec p nsze
  rw [State.formatBegun]
  generalize s.newVolumeSet p nsze = t at *
  have hframe := t.frame_setMagState hp msFormatting
  have hbnd : (t.setMagState p msFormatting).showBnd.bnd = t.bnd := ((t.setMagState p msFormatting).frame_showBnd.1 .bnd (by simp)).trans (hframe.1 .bnd (by simp))
  refine ⟨((hset.mono (by simp)).setMagState hp _ (by simp) (by simp)).showBnd fun f hf => List.mem_append_right _ hf, ?_, ?_, (congrArg Bindery.ids hbnd).trans hids⟩
  · exact (State.showBnd_get _ hp (by simp [magFields])).trans (t.setMagState_get hp (by decide)).1
  · refine (State.showBnd_get _ hp (by simp [magFields])).trans ((t.setMagState_get_apart hp _ (Nat.le_of_ble_eq_true rfl) ?_ ?_).trans hbusy)
    · simp [Fld.apart, BND.MG_CMD_STAT_BUSY, BND.MG_CMD_STAT, BND.MG_STATE_STATE, BND.MG_STATE]
    · simp [Fld.apart, BND.MG_CMD_STAT_BUSY, srcPending]

/-- MGn_CMD_STAT bears on no part of a new VOLUME_ID. -/
theorem State.freshVolumeId_beginOp (s : State) (p op : Nat) : (s.beginOp p op).freshVolumeId = s.freshVolumeId := by
  have hrd : ∀ i, i < 4 → (s.beginOp p op).rd (FUS.DEVICE_UID i) = s.rd (FUS.DEVICE_UID i) := fun i hi =>
    (State.rd_put_ne _ _ (by simp only [FUS.DEVICE_UID, BND.MG_CMD_STAT_BUSY, BND.MG_CMD_STAT]; omega)).trans (State.rd_setMag ..)
  have huid : ((List.range 4).map fun i => ((s.beginOp p op).rd (FUS.DEVICE_UID i)).toNat) = (List.range 4).map fun i => (s.rd (FUS.DEVICE_UID i)).toNat :=
    List.map_congr_left fun i hi => congrArg BitVec.toNat (hrd i (List.mem_range.1 hi))
  rw [State.freshVolumeId, huid]
  rfl

end Sys2Proof.Machine

/-! ### Bring-up, and loss (R246, R247, R251, R275) -/

namespace Sys2Proof.Machine
set_option Elab.async false

variable {s : State} {p tk : Nat}

theorem exec_magPresenceAccept (hst : (s.mag p).stage = .settling tk) (ht : msTicks 50 ≤ s.ticks - tk) (hon : s.powered (magUnit p) = true) :
    exec (.magPresenceAccept p) s =
      .next (((s.setMag p { s.mag p with stage := .powering s.ticks, refclk := true, perst := true }).put (presentBit p) 1).setMagState p msStarting) := by
  show execMagPresenceAccept p s = _
  simp only [execMagPresenceAccept, hst, State.bndBit_present]
  exact if_neg (by simp [hon, ht])

theorem exec_magPerstRelease_powering (hst : (s.mag p).stage = .powering tk) (ht : msTicks 100 ≤ s.ticks - tk) :
    exec (.magPerstRelease p) s = .next (s.setMag p { s.mag p with stage := .linking s.ticks false, perst := false }) := by
  show execMagPerstRelease p s = _
  simp only [execMagPerstRelease, hst]
  exact if_neg (Nat.not_lt.2 ht)

theorem exec_magPerstRelease_pulsing (hst : (s.mag p).stage = .pulsing tk) (ht : msTicks 1 ≤ s.ticks - tk) :
    exec (.magPerstRelease p) s = .next (s.setMag p { s.mag p with stage := .linking s.ticks true, perst := false }) := by
  show execMagPerstRelease p s = _
  simp only [execMagPerstRelease, hst]
  exact if_neg (Nat.not_lt.2 ht)

/-- What a link that has trained shows. -/
def linkWrites (p speed width : Nat) : List (Fld × Nat) :=
  [(BND.MG_STATE_LINK_SPEED p, speed), (BND.MG_STATE_LINK_WIDTH p, width), (linkUpBit p, 1)]

theorem linkWrites_apart (p speed width : Nat) : (linkWrites p speed width).Pairwise fun x y => x.1.apart y.1 := by
  simp [linkWrites, Fld.apart, BND.MG_STATE_LINK_SPEED, BND.MG_STATE_LINK_WIDTH, linkUpBit, BND.MG_STATE, BND.BND_STAT]
  omega

/-- An endpoint that R247 accepts goes on to its controller. -/
theorem exec_magLinkUp {speed width : Nat} {again : Bool} (hst : (s.mag p).stage = .linking tk again) (hspeed : 1 ≤ speed ∧ speed ≤ 5)
    (hwidth : width = 1 ∨ width = 2 ∨ width = 4) (hok : s.magMeets p Magazine.endpointOk = true) :
    exec (.magLinkUp p speed width) s =
      .next ((s.setMag p { s.mag p with stage := .enabling s.ticks false }).putAll (linkWrites p speed width)) := by
  have hmeets : ((s.setMag p { s.mag p with stage := .enabling s.ticks false }).putAll (linkWrites p speed width)).magMeets p Magazine.endpointOk = true := by
    have hmag : ((s.setMag p { s.mag p with stage := .enabling s.ticks false }).putAll (linkWrites p speed width)).mag p =
        { s.mag p with stage := .enabling s.ticks false } := State.mag_setMag ..
    rw [State.magMeets, hmag]
    exact hok
  show execMagLinkUp p speed width s = _
  simp only [execMagLinkUp, hst]
  exact (if_pos ⟨hspeed.1, hspeed.2, hwidth⟩).trans (congrArg Host.Outcome.next (if_pos hmeets))

theorem exec_magLinkTimeout_first (hst : (s.mag p).stage = .linking tk false) (ht : msTicks 100 ≤ s.ticks - tk) :
    exec (.magLinkTimeout p) s = .next (s.setMag p { s.mag p with stage := .pulsing s.ticks, perst := true }) := by
  show execMagLinkTimeout p s = _
  simp only [execMagLinkTimeout, hst]
  exact (if_neg (Nat.not_lt.2 ht)).trans (if_neg (by decide))

theorem exec_magLinkTimeout_again (hst : (s.mag p).stage = .linking tk true) (ht : msTicks 100 ≤ s.ticks - tk) :
    exec (.magLinkTimeout p) s = .next (s.failPort p) := by
  show execMagLinkTimeout p s = _
  simp only [execMagLinkTimeout, hst]
  exact (if_neg (Nat.not_lt.2 ht)).trans (if_pos trivial)

theorem exec_magControllerReady {reset : Bool} (hst : (s.mag p).stage = .enabling tk reset) :
    exec (.magControllerReady p) s = .next (if s.magMeets p Magazine.controllerOk then
      (s.setMag p { s.mag p with stage := .identifying reset }).issue p .identify true none [] else s.failPort p) := by
  show execMagControllerReady p s = _
  rw [execMagControllerReady, hst]

theorem exec_magRemoval_settling (hin : (s.mag p).inserted.isSome = true) (hst : (s.mag p).stage = .settling tk) :
    exec (.magRemoval p) s = .next (s.setMag p { s.mag p with stage := .empty, inserted := none, media := [] }) := by
  show execMagRemoval p s = _
  simp only [execMagRemoval, hst]
  exact if_neg (by simpa [Option.ne_none_iff_isSome] using hin)

/-- The fields that a removal writes. -/
def removeFields (p : Nat) : List Fld :=
  volumeFields ++ [BND.MG_STATE_STATE p, BND.MG_STATE_VWC p, BND.MG_STATE_LINK_SPEED p, BND.MG_STATE_LINK_WIDTH p, linkUpBit p, presentBit p, srcPending (19 + p)]

theorem letGoFields_subset_removeFields (p : Nat) : ∀ f ∈ letGoFields p, f ∈ removeFields p := by
  refine fun f hf => (List.mem_append.1 hf).elim (List.mem_append_left _) fun h => List.mem_append_right _ ?_
  simp only [List.mem_cons, List.not_mem_nil, or_false] at h ⊢
  tauto

theorem exec_magRemoval_up (hin : (s.mag p).inserted.isSome = true) (hst : (s.mag p).stage = .up) :
    exec (.magRemoval p) s = .next (((s.letGo p msAbsent stMagazineAbsent).setMag p { (s.letGo p msAbsent stMagazineAbsent).mag p with
      inserted := none, media := [], refclk := false, perst := true }).put (presentBit p) 0) := by
  show execMagRemoval p s = _
  simp only [execMagRemoval, hst, State.bndBit_present]
  exact if_neg (by simpa [Option.ne_none_iff_isSome] using hin)

theorem exec_magLinkLoss_up (hst : (s.mag p).stage = .up) : exec (.magLinkLoss p) s = .next (s.letGo p msFailed stMagazineAbsent) := by
  show execMagLinkLoss p s = _
  rw [execMagLinkLoss, hst]

end Sys2Proof.Machine

section
set_option Elab.async false
open Sys2Proof Sys2Proof.Machine

/-- Settles O50: what a command does of one port is a `State.PortStep`, composed of the steps of its operations, and the fields that it shows are read after
`State.putAll`; failures and losses go by `State.letGo_spec`, reports by `State.firstFailure_spec`. -/
theorem magazinesAreBroughtUpAndLost : Obligations.MagazinesAreBroughtUpAndLost := by
  unfold Obligations.MagazinesAreBroughtUpAndLost
  refine ⟨?inserted, ?accepted, ?powered, ?pulsed, ?linked, ?pulse, ?unlinked, ?ready, ?unfit, ?more, ?health, ?failure, ?timeout, ?again, ?timer, ?unsettled,
    ?removed, ?lost, ?format, ?badKey, ?eject, ?rescan, ?delete, ?unknown⟩
  case inserted => exact fun s p m hp hin hst => answers_setMag (if_pos ⟨hp, by simp [hin], hst⟩)
  case accepted =>
    intro s p tk hp hst ht hon
    have hput := ((s.portStep_setMag p { s.mag p with stage := .powering s.ticks, refclk := true, perst := true }).mono
      (gs := [presentBit p, BND.MG_STATE_STATE p, srcPending (19 + p)]) (by simp)).put (f := presentBit p) 1 (by simp)
    have hpresent : ((s.setMag p { s.mag p with stage := .powering s.ticks, refclk := true, perst := true }).put (presentBit p) 1).get (presentBit p) = 1 :=
      State.get_put_same _ _ (magFields_le hp _ (by simp [magFields]))
    refine ⟨_, exec_magPresenceAccept hst ht hon, ?_⟩
    generalize (s.setMag p _).put (presentBit p) 1 = t at *
    obtain ⟨hstate, hsrc⟩ := t.setMagState_get hp (v := msStarting) (by decide)
    obtain ⟨hmag, honly, hfr⟩ := hput.setMagState hp msStarting (by simp) (by simp)
    have hkeep := t.setMagState_get_apart hp msStarting (magFields_le hp _ (by simp [magFields])) (Fld.apart_comm (presentBit_apart hp _ (by simp)))
      (Fld.apart_comm (presentBit_apart hp _ (by simp)))
    exact ⟨hmag, hkeep.trans hpresent, hstate, hsrc, honly, hfr⟩
  case powered => exact fun s p tk hst ht => answers_setMag (exec_magPerstRelease_powering hst ht)
  case pulsed => exact fun s p tk hst ht => answers_setMag (exec_magPerstRelease_pulsing hst ht)
  case linked =>
    intro s p speed width tk again hp hst hspeed hwidth hok
    have hget : ∀ {f : Fld} {x : Nat}, (f, x) ∈ linkWrites p speed width → f ∈ magFields p → x < 2 ^ f.w →
        ((s.setMag p { s.mag p with stage := .enabling s.ticks false }).putAll (linkWrites p speed width)).get f = x := fun hl hf hx =>
      (State.get_putAll (linkWrites_apart p speed width) hl (magFields_le hp _ hf)).trans (Nat.mod_eq_of_lt hx)
    obtain ⟨hmag, honly, hfr⟩ := ((s.portStep_setMag p { s.mag p with stage := .enabling s.ticks false }).mono
      (gs := [BND.MG_STATE_LINK_SPEED p, BND.MG_STATE_LINK_WIDTH p, linkUpBit p]) (by simp)).putAll (linkWrites p speed width) (by simp [linkWrites])
    refine ⟨_, exec_magLinkUp hst hspeed hwidth hok, hmag, hget (by simp [linkWrites]) (by simp [magFields]) ?_,
      hget (by simp [linkWrites]) (by simp [magFields]) ?_, hget (by simp [linkWrites]) (by simp [magFields]) ?_, honly, hfr⟩
    · show speed < 8
      omega
    · show width < 8
      omega
    · show 1 < 2
      decide
  case pulse => exact fun s p tk hst ht => answers_setMag (exec_magLinkTimeout_first hst ht)
  case unlinked =>
    intro s p tk hp hst ht hop hbnd hheld
    obtain ⟨⟨hmag, honly, hfr⟩, hstate, _, hsrc⟩ := State.letGo_spec hp hop hbnd hheld (v := msFailed) (by decide) stMagazineError
    exact ⟨_, exec_magLinkTimeout_again hst ht, hstate, congrArg Mag.stage hmag, (congrArg Mag.inserted hmag :), congrArg Mag.vol hmag, hsrc, honly, hfr⟩
  case ready =>
    intro s p tk reset hst hok
    obtain ⟨hmag, honly, hfr⟩ := (s.portStep_setMag p { s.mag p with stage := .identifying reset }).issue .identify true none []
    exact ⟨_, (exec_magControllerReady hst).trans (congrArg Host.Outcome.next (if_pos hok)), congrArg Mag.stage hmag,
      ⟨_, congrArg Mag.cmds hmag, rfl, rfl⟩, honly, hfr⟩
  case unfit =>
    intro s p tk reset hp hst hbad hop hbnd hheld
    obtain ⟨⟨hmag, honly, hfr⟩, hstate, _, _⟩ := State.letGo_spec hp hop hbnd hheld (v := msFailed) (by decide) stMagazineError
    exact ⟨_, (exec_magControllerReady hst).trans (congrArg Host.Outcome.next (if_neg (by simp [hbad]))), hstate, congrArg Mag.stage hmag,
      congrArg Mag.vol hmag, honly, hfr⟩
  case more => exact fun s p k c reply hk hmay hb hleft => answers_setMag (exec_nvmeCompletion_more hk hmay hb hleft)
  case health =>
    intro s p k c a b d hk hmay hb hleft hjob hw hext _
    have hdone := (s.setMag p (s.completedMag p k)).jobDone_health (p := p) (a := a) (b := b) (d := d) hjob
    obtain ⟨hmag, honly, hfr⟩ := ((s.portStep_setMag p (s.completedMag p k)).mono (gs := [BND.MG_HEALTH_TEMPERATURE p, BND.MG_HEALTH_CRITICAL_WARNING p,
      BND.MG_HEALTH_PERCENT_USED p]) (by simp)).putAll (healthWrites p a b d) (by simp [healthWrites])
    have hget : ∀ {f : Fld} {x : Nat}, (f, x) ∈ healthWrites p a b d → f.lo + f.w ≤ 32 →
        ((s.setMag p (s.completedMag p k)).putAll (healthWrites p a b d)).get f = x % 2 ^ f.w := State.get_putAll (healthWrites_apart p a b d)
    have ⟨_, _, hnone⟩ := honly
    rw [← hdone] at hmag honly hfr hget hnone
    exact ⟨_, exec_nvmeCompletion_last hk hmay hb hleft hw (hnone.trans hext),
      hget (x := a) (by simp [healthWrites]) (Nat.le_of_ble_eq_true rfl), hget (x := b) (by simp [healthWrites]) (Nat.le_of_ble_eq_true rfl),
      hget (x := d) (by simp [healthWrites]) (Nat.le_of_ble_eq_true rfl), hmag, honly, hfr⟩
  case failure =>
    intro s p k c reply hk hmay hb hret hp hr
    exact ⟨_, exec_nvmeCompletion_failed hk hmay hb, State.firstFailure_spec hk hret hp hr rfl (Nat.le_of_ble_eq_true rfl)⟩
  case timeout =>
    intro s p k c hk hst ht hret hp hr
    exact ⟨_, exec_nvmeTimeout_up hk hst ht, State.firstFailure_spec hk hret hp hr rfl (Nat.le_of_ble_eq_true rfl)⟩
  case again =>
    intro s p k c hk hst ht hret hp
    have hle : (BND.MG_ERR_TIMEOUT p).lo + (BND.MG_ERR_TIMEOUT p).w ≤ 32 := Nat.le_of_ble_eq_true rfl
    have hfail : (s.bump (BND.MG_ERR_TIMEOUT p)).cmdFails p k = ((s.bump (BND.MG_ERR_TIMEOUT p)).setMag p (s.resettingMag p)).setMagState p msStarting := by
      rw [State.cmdFails_again (by rwa [State.mag_bump]) hret (by rwa [State.mag_bump]), State.resettingMag, State.mag_bump, State.bump_ticks]
      rfl
    have hset : s.PortStep ((s.bump (BND.MG_ERR_TIMEOUT p)).setMag p (s.resettingMag p)) p (s.resettingMag p)
        [BND.MG_ERR_TIMEOUT p, BND.MG_STATE_STATE p, srcPending (19 + p)] :=
      (State.PortStep.of_frame (State.frame.rfl'.bump _ (by simp))).setMag _
    have hcount : ((s.bump (BND.MG_ERR_TIMEOUT p)).setMag p (s.resettingMag p)).get (BND.MG_ERR_TIMEOUT p) =
        satAdd (BND.MG_ERR_TIMEOUT p).w (s.get (BND.MG_ERR_TIMEOUT p)) 1 := (State.get_setMag ..).trans (State.get_bump_same _ hle)
    refine ⟨_, (exec_nvmeTimeout_up hk hst ht).trans (congrArg Host.Outcome.next hfail), ?_⟩
    generalize (s.bump (BND.MG_ERR_TIMEOUT p)).setMag p (s.resettingMag p) = t at *
    obtain ⟨hmag, honly, hfr⟩ := hset.setMagState hp msStarting (by simp) (by simp)
    have hkeep := t.setMagState_get_apart hp msStarting hle (.inl (by simp [BND.MG_ERR_TIMEOUT, BND.MG_ERR, BND.MG_STATE_STATE, BND.MG_STATE]))
      (.inl (by simp only [BND.MG_ERR_TIMEOUT, BND.MG_ERR, srcPending, srcReg]; omega))
    exact ⟨congrArg Mag.stage hmag, congrArg Mag.queues hmag, (t.setMagState_get hp (by decide)).1, hkeep.trans hcount, congrArg Mag.cmds hmag,
      (congrArg Mag.vol hmag :), honly, hfr⟩
  case timer =>
    intro s p hst hnone
    obtain ⟨hmag, honly, hfr⟩ := ((State.PortStep.refl s p).issue .health true none []).issue .errorLog true none []
    exact ⟨_, if_pos ⟨hst, hnone⟩, ⟨_, _, (congrArg Mag.cmds hmag).trans (List.append_assoc ..), rfl, rfl, rfl, rfl⟩, honly, hfr⟩
  case unsettled => exact fun s p tk hin hst => answers_setMag (exec_magRemoval_settling hin hst)
  case removed =>
    intro s p hp hin hst hop hbnd hheld
    obtain ⟨hgone, hstate, hlink, hsrc⟩ := State.letGo_spec hp hop hbnd hheld (v := msAbsent) (by decide) stMagazineAbsent
    refine ⟨_, exec_magRemoval_up hin hst, ?_⟩
    generalize s.letGo p msAbsent stMagazineAbsent = t at *
    rw [hgone.mag]
    obtain ⟨hmag, honly, hfr⟩ := (((hgone.mono (letGoFields_subset_removeFields p)).setMag { (s.mag p).released with
      inserted := none, media := [], refclk := false, perst := true }).put (f := presentBit p) 0 (by simp [removeFields]))
    have hget : ∀ {f : Fld}, f ∈ magFields p → f ∈ [BND.MG_STATE_STATE p, linkUpBit p, srcPending (19 + p)] → ((t.setMag p { (s.mag p).released with
        inserted := none, media := [], refclk := false, perst := true }).put (presentBit p) 0).get f = t.get f := fun hf ha =>
      (State.get_put_apart _ _ (magFields_le hp _ hf) (presentBit_apart hp _ ha)).trans (State.get_setMag ..)
    exact ⟨(hget (by simp [magFields]) (by simp)).trans hstate, hmag, State.get_put_same _ _ (magFields_le hp _ (by simp [magFields])),
      (hget (by simp [magFields]) (by simp)).trans hlink, (hget (by simp [magFields]) (by simp)).trans hsrc, honly, hfr⟩
  case lost =>
    intro s p hp hst hop hbnd hheld
    obtain ⟨⟨hmag, honly, hfr⟩, hstate, hlink, _⟩ := State.letGo_spec hp hop hbnd hheld (v := msFailed) (by decide) stMagazineAbsent
    exact ⟨_, exec_magLinkLoss_up hst, hstate, congrArg Mag.stage hmag, congrArg Mag.vol hmag, congrArg Mag.cmds hmag, (congrArg Mag.inserted hmag :), hlink,
      honly, hfr⟩
  case format =>
    intro s p key g hp hkey hop hst ht hg hn
    obtain ⟨hbegun, hstate, hbusy, hids⟩ := s.formatBegun_spec hp g.nsze
    obtain ⟨hmag, honly, hfr⟩ := hbegun.issue (.format 1) false none (formatWrites ((s.beginOp p 1).newVolume g.nsze).2 1)
    refine ⟨_, congrArg Host.Outcome.next (State.magCmd_format hop hkey hst ht hg hn), (State.get_issue ..).trans hstate, (State.get_issue ..).trans hbusy,
      (congrArg Mag.op hmag :), ⟨_, (congrArg Mag.vol hmag :), congrArg (beBytes 16) (s.freshVolumeId_beginOp p 1), rfl, rfl, rfl, rfl, rfl⟩,
      ⟨_, congrArg Mag.cmds hmag, rfl⟩, hids.trans (by rw [s.freshVolumeId_beginOp p 1]), honly, hfr⟩
  case badKey =>
    intro s p key hop hkey
    obtain ⟨hresult, hdone⟩ := s.resultWrites_get p (r := 5) (by decide)
    exact ⟨_, congrArg Host.Outcome.next (State.magCmd_badKey hop hkey (op := 1) (by decide)), hresult, hdone, s.frame_putAll _⟩
  case eject =>
    intro s p key v hp hkey hop hst ht hv hc
    obtain ⟨hbegun, hbusy⟩ := s.beginOp_spec p 2
    have hvol : ((s.beginOp p 2).mag p).vol = some v := by rw [hbegun.mag, hv]
    have hidle : ((s.beginOp p 2).mag p).ckpt = none := by rw [hbegun.mag, hc]
    have hstart := (State.magCmd_eject hop hkey hst ht).trans (State.startCkpt_idle hvol hidle .eject)
    rw [hbegun.mag] at hstart
    obtain ⟨hmag, honly, hfr⟩ := (hbegun.setMag { s.mag p with op := some 2, ckpt := some ([.eject], v.seq) }).issue .ckptBody false none
      (blocksFrom (invLba (!v.copyB) + 1) v.body)
    exact ⟨_, congrArg Host.Outcome.next hstart, (State.get_issue ..).trans ((State.get_setMag ..).trans hbusy), (congrArg Mag.op hmag :),
      (congrArg Mag.ckpt hmag :), ⟨_, congrArg Mag.cmds hmag, rfl, State.cmdOf_writes ..⟩, honly, hfr⟩
  case rescan =>
    intro s p key hp hkey hop hst
    have hset := (((s.portStep_setMag p { s.mag p with stage := .linking s.ticks false, perst := false }).mono
      (gs := [BND.MG_STATE_STATE p, BND.MG_CMD_STAT_RESULT p, BND.MG_CMD_STAT_DONE p, srcPending (19 + p)]) (by simp)).setMagState hp msStarting
        (by simp) (by simp))
    obtain ⟨hmag, honly, hfr⟩ := hset.putAll (resultWrites p 0) (by simp [resultWrites])
    obtain ⟨hresult, hdone⟩ := State.resultWrites_get ((s.setMag p { s.mag p with stage := .linking s.ticks false, perst := false }).setMagState p msStarting) p
      (r := 0) (by decide)
    have hstate := ((s.setMag p { s.mag p with stage := .linking s.ticks false, perst := false }).setMagState_get hp (v := msStarting) (by decide)).1
    refine ⟨_, congrArg Host.Outcome.next (State.magCmd_rescan hop hkey hst), ?_, hmag, hresult, hdone, honly, hfr⟩
    refine ((State.frame_putAll _ _).get _ (Nat.le_of_ble_eq_true rfl) ?_).trans hstate
    simp [resultWrites, Fld.apart, BND.MG_CMD_STAT_RESULT, BND.MG_CMD_STAT_DONE, BND.MG_CMD_STAT, BND.MG_STATE_STATE, BND.MG_STATE]
  case delete =>
    intro s p key v e hp hkey hop hst hv he hne
    obtain ⟨hbegun, hbusy⟩ := s.beginOp_spec p 4
    have hvol : ((s.beginOp p 4).mag p).vol = some v := by rw [hbegun.mag, hv]
    obtain ⟨m', hrec, hmop, c, hc, hjob, hseq⟩ := (State.PortStep.refl (s.beginOp p 4) p).journal hvol (.jDelete (s.get (BND.MG_CMD_ARG_TAKE p))) 6
      (s.get (BND.MG_CMD_ARG_TAKE p)) []
    have hkept := hrec.frame.get (BND.MG_CMD_STAT_BUSY p) (Nat.le_of_ble_eq_true rfl) (by simp)
    obtain ⟨hmag, honly, hfr⟩ := ((hbegun.mono (gs := BND.MG_CMD_STAT_BUSY p :: volumeFields) (by simp)).trans (hrec.mono (by simp))).showBnd fun f hf =>
      List.mem_cons_of_mem _ hf
    exact ⟨_, congrArg Host.Outcome.next (State.magCmd_delete hop hkey hst hv he hne),
      (State.showBnd_get _ hp (by simp [magFields])).trans (hkept.trans hbusy), (congrArg Mag.op hmag).trans (hmop.trans (congrArg Mag.op hbegun.mag)),
      ⟨c, by rwa [hmag], hjob, hseq⟩, honly, hfr⟩
  case unknown =>
    intro s p key v hkey hop hst hv he
    obtain ⟨hresult, hdone⟩ := s.resultWrites_get p (r := 3) (by decide)
    exact ⟨_, congrArg Host.Outcome.next (State.magCmd_deleteUnknown hop hkey hst hv he), hresult, hdone, s.frame_putAll _⟩

end

/-! PROOFS of the statements of 10_circulation.md. -/

/-! ### Steps of one Ethernet port (R284, R298) -/

namespace Sys2Proof.Machine
set_option Elab.async false

variable {s t u : State} {p c d : Nat} {x y z : NetPort} {ps : List Part} {fs gs : List Fld} {f : Fld}

theorem State.port_setPort (s : State) (p : Nat) (x : NetPort) : (s.setPort p x).port p = x := Tab.get_set_same ..
theorem State.port_setPort_ne {i : Nat} (h : i ≠ p) : (s.setPort p x).port i = s.port i := Tab.get_set_other _ _ _ h
theorem State.get_setPort (s : State) (p : Nat) (x : NetPort) (f : Fld) : (s.setPort p x).get f = s.get f := rfl
theorem State.port_of_net (h : t.net = s.net) (i : Nat) : t.port i = s.port i := congrArg (fun n : Net => Tab.get (fun _ => NetPort.init) n.ports i) h

theorem NetPort.cls_setCls (x : NetPort) (c : Nat) (k : NetClass) : (x.setCls c k).cls c = k := Tab.get_set_same ..
theorem NetPort.cls_setCls_ne (x : NetPort) (k : NetClass) (h : d ≠ c) : (x.setCls c k).cls d = x.cls d := Tab.get_set_other _ _ _ h

/-- A word is the one field that fills it. -/
theorem State.frame.rd (h : s.frame t ps fs) {off : Nat} (ha : ∀ g ∈ fs, off ≠ g.off) : t.rd off = s.rd off := by
  have hw := h.get (Fld.whole off) (Nat.le_refl 32) fun g hg => .inl (ha g hg)
  simp only [State.get, Fld.whole, bits, Nat.pow_zero, Nat.div_one, Nat.mod_eq_of_lt (BitVec.isLt _)] at hw
  exact BitVec.eq_of_toNat_eq hw

theorem State.frame.nowNs (h : s.frame t ps fs) (hp : .time ∉ ps) : t.nowNs = s.nowNs := congrArg (· / 2 ^ 28) (h.1 .time hp)

theorem State.netPresent_lt (h : s.netPresent p = true) : p < 2 := by
  simp only [State.netPresent, Bool.or_eq_true, Bool.and_eq_true, beq_iff_eq] at h
  omega

theorem State.netPresent_of_linkUp (h : s.linkUp p = true) : s.netPresent p = true := (Bool.and_eq_true_iff.1 h).1

/-- From s to t, port p has become x, the other ports are as before, and beside the ports only the parts ps and the register fields fs have changed. -/
structure State.NetStep (s t : State) (p : Nat) (x : NetPort) (ps : List Part) (fs : List Fld) : Prop where
  port : t.port p = x
  others : ∀ i, i ≠ p → t.port i = s.port i
  frame : s.frame t (.net :: ps) fs

namespace State.NetStep

theorem refl (s : State) (p : Nat) : s.NetStep s p (s.port p) ps fs := ⟨rfl, fun _ _ => rfl, .rfl'⟩

theorem mono (h : s.NetStep t p x ps fs) (hf : ∀ f ∈ fs, f ∈ gs) : s.NetStep t p x ps gs := ⟨h.port, h.others, h.frame.mono (fun _ hq => hq) hf⟩

/-- A step of the ports alone, among steps that change other parts too. -/
theorem also (h : s.NetStep t p x [] fs) (ps : List Part) : s.NetStep t p x ps fs := ⟨h.port, h.others, h.frame.mono (by simp) fun _ hf => hf⟩

theorem trans (h : s.NetStep t p x ps fs) (g : t.NetStep u p y ps fs) : s.NetStep u p y ps fs :=
  ⟨g.port, fun i hi => (g.others i hi).trans (h.others i hi), h.frame.trans g.frame⟩

/-- A change that keeps the ports. -/
theorem keep (h : s.NetStep t p x ps fs) (g : t.frame u ps fs) (hn : .net ∉ ps) : s.NetStep u p x ps fs := by
  have hnet : u.net = t.net := g.1 .net hn
  exact ⟨(State.port_of_net hnet p).trans h.port, fun i hi => (State.port_of_net hnet i).trans (h.others i hi),
    h.frame.trans (g.mono (fun _ hq => List.mem_cons_of_mem _ hq) fun _ hf => hf)⟩

theorem setPort (h : s.NetStep t p x ps fs) (y : NetPort) : s.NetStep (t.setPort p y) p y ps fs :=
  h.trans ⟨State.port_setPort .., fun _ hi => State.port_setPort_ne hi, State.frame.rfl'.setPort _ _ List.mem_cons_self⟩

theorem put (h : s.NetStep t p x ps fs) (v : Nat) (hf : f ∈ fs) : s.NetStep (t.put f v) p x ps fs :=
  h.trans ⟨(State.port_of_net (State.put_net ..) p).trans h.port, fun i _ => State.port_of_net (State.put_net ..) i, State.frame.rfl'.put v hf⟩

theorem bump (h : s.NetStep t p x ps fs) (hf : f ∈ fs) : s.NetStep (t.bump f) p x ps fs := h.put _ hf

theorem putAll (h : s.NetStep t p x ps fs) (l : List (Fld × Nat)) (hl : ∀ q ∈ l, q.1 ∈ fs) : s.NetStep (t.putAll l) p x ps fs := by
  induction l generalizing t with
  | nil => exact h
  | cons q l ih =>
    obtain ⟨hq, hl⟩ := List.forall_mem_cons.1 hl
    exact ih (h.put _ hq) hl

theorem queue (h : s.NetStep t p x ps fs) (c : Nat) : t.netQueue p c = (x.cls c).queue := by rw [State.netQueue, h.port]
theorem flow (h : s.NetStep t p x ps fs) (f : Nat) : t.flow p f = x.flow f := by rw [State.flow, h.port]

end State.NetStep

/-! ### Credits and tokens brought up to date (R302, R304) -/

/-- Port y is port x with other accounts: its frames, its flows and its gates are the same. -/
structure NetPort.Accounted (x y : NetPort) : Prop where
  rest : y = { x with classes := y.classes, tokens := y.tokens, upto := y.upto }
  queue : ∀ c, (y.cls c).queue = (x.cls c).queue

namespace NetPort.Accounted

theorem refl (x : NetPort) : x.Accounted x := ⟨rfl, fun _ => rfl⟩

theorem trans (h : x.Accounted y) (g : y.Accounted z) : x.Accounted z :=
  ⟨by rw [g.rest, h.rest], fun c => (g.queue c).trans (h.queue c)⟩

theorem setCls (h : x.Accounted y) {k : NetClass} (hk : k.queue = (y.cls c).queue) : x.Accounted (y.setCls c k) := by
  refine h.trans ⟨rfl, fun d => ?_⟩
  by_cases hd : d = c
  · rw [hd, NetPort.cls_setCls, hk]
  · rw [NetPort.cls_setCls_ne _ _ hd]

theorem tokens (h : x.Accounted y) (tab : Tab (Option Nat)) (t : Nat) : x.Accounted { y with tokens := tab, upto := t } := h.trans ⟨rfl, fun _ => rfl⟩

theorem oper (h : x.Accounted y) : y.oper = x.oper := by rw [h.rest]
theorem pending (h : x.Accounted y) : y.pending = x.pending := by rw [h.rest]
theorem hold (h : x.Accounted y) : y.hold = x.hold := by rw [h.rest]
theorem flow (h : x.Accounted y) (f : Nat) : y.flow f = x.flow f := by rw [h.rest]; rfl

end NetPort.Accounted

/-- The credit of class c of port p over the time up to e, in which the MAC sends class k, and on from there (R302). -/
def State.recredit (p k e now : Nat) (s : State) (c : Nat) : State :=
  if s.on (NET.CBS_IDLE_VALUE p c) then
    let x := s.port p
    let a := { x.cls c with credit := s.credit p c (x.cls c) (k == c) (x.openTime c x.upto e) }
    let b := { a with credit := s.credit p c a false (x.openTime c e now) }
    (s.setPort p (x.setCls c b)).put (NET.CBS_CREDIT_VALUE p c) (ofSigned 32 (b.credit / (creditUnit : Nat)))
  else s

/-- What a filter's bucket has after dt ns: nothing is listed for one that is full (R304). -/
def State.bucketAfter (s : State) (p dt i : Nat) (o : Option Nat) : Option Nat :=
  o.bind fun v =>
    if creditUnit * s.get (NET.PSF_CBS_BYTES p i) ≤ v + s.get (NET.PSF_CIR_KBPS p i) * dt then none else some (v + s.get (NET.PSF_CIR_KBPS p i) * dt)

/-- The buckets' table with bucket i brought up to date. -/
def State.refillTab (s : State) (p dt : Nat) (tab : Tab (Option Nat)) (i : Nat) : Tab (Option Nat) :=
  match Tab.get (fun _ => none) tab i with
  | none => tab
  | some v => Tab.set (fun _ => none) tab i
      (if creditUnit * s.get (NET.PSF_CBS_BYTES p i) ≤ v + s.get (NET.PSF_CIR_KBPS p i) * dt then none else some (v + s.get (NET.PSF_CIR_KBPS p i) * dt))

/-- A port's accounts: its classes one after another, then its filters. -/
theorem State.account_eq (s : State) (p : Nat) : ∃ k e, s.account p =
    ((List.range 8).foldl (State.recredit p k e s.nowNs) s).setPort p
      { ((List.range 8).foldl (State.recredit p k e s.nowNs) s).port p with
        tokens := (List.range 16).foldl (((List.range 8).foldl (State.recredit p k e s.nowNs) s).refillTab p
          (s.nowNs - (((List.range 8).foldl (State.recredit p k e s.nowNs) s).port p).upto))
          (((List.range 8).foldl (State.recredit p k e s.nowNs) s).port p).tokens,
        upto := max (((List.range 8).foldl (State.recredit p k e s.nowNs) s).port p).upto s.nowNs } := by
  unfold State.account
  cases (s.port p).busy with
  | none => exact ⟨_, _, rfl⟩
  | some q => exact ⟨_, _, rfl⟩

theorem mem_creditFields (hc : c < 8) : NET.CBS_CREDIT_VALUE p c ∈ creditFields p := List.mem_map_of_mem (List.mem_range.2 hc)

/-- The credits stand in the fourth word of each class of the port's shaper. -/
theorem creditFields_apart (h : f.off < 0x140100 + 0x8000 * p ∨ 0x140180 + 0x8000 * p ≤ f.off ∨ f.off % 16 ≠ 12) :
    ∀ g ∈ creditFields p, f.off ≠ g.off := by
  simp only [creditFields, List.mem_map, List.mem_range, forall_exists_index, and_imp, forall_apply_eq_imp_iff₂, NET.CBS_CREDIT_VALUE, NET.CBS_CREDIT]
  omega

/-- What bringing the credits up to date keeps of the port. -/
theorem State.recredit_step (s : State) (p k e now : Nat) (l : List Nat) (hl : ∀ c ∈ l, c < 8) :
    s.NetStep (l.foldl (State.recredit p k e now) s) p ((l.foldl (State.recredit p k e now) s).port p) [] (creditFields p) ∧
    (s.port p).Accounted ((l.foldl (State.recredit p k e now) s).port p) ∧
    ((l.foldl (State.recredit p k e now) s).port p).tokens = (s.port p).tokens ∧ ((l.foldl (State.recredit p k e now) s).port p).upto = (s.port p).upto := by
  refine List.foldlRecOn l (State.recredit p k e now)
    (motive := fun u => s.NetStep u p (u.port p) [] (creditFields p) ∧ (s.port p).Accounted (u.port p) ∧ (u.port p).tokens = (s.port p).tokens ∧
      (u.port p).upto = (s.port p).upto) ⟨.refl s p, .refl _, rfl, rfl⟩ fun u hu c hc => ?_
  obtain ⟨hstep, hacc, htok, hupto⟩ := hu
  unfold State.recredit
  split
  case isFalse => exact ⟨hstep, hacc, htok, hupto⟩
  case isTrue =>
    extract_lets x k a b
    have hnew := (hstep.setPort (x.setCls c b)).put (ofSigned 32 (b.credit / (creditUnit : Nat))) (mem_creditFields (hl c hc))
    have hport := hnew.port
    rw [hport]
    exact ⟨hnew, hacc.setCls rfl, htok, hupto⟩

theorem State.get_refillTab (s : State) (p dt : Nat) (tab : Tab (Option Nat)) (i k : Nat) :
    Tab.get (fun _ => none) (s.refillTab p dt tab i) k =
      if k = i then s.bucketAfter p dt i (Tab.get (fun _ => none) tab i) else Tab.get (fun _ => none) tab k := by
  unfold State.refillTab State.bucketAfter
  by_cases hk : k = i
  · subst hk
    rw [if_pos rfl]
    cases h : Tab.get (fun _ => none) tab k with
    | none => exact h
    | some v => exact Tab.get_set_same ..
  · rw [if_neg hk]
    cases Tab.get (fun _ => none) tab i with
    | none => rfl
    | some v => exact Tab.get_set_other _ _ _ hk

theorem State.get_foldl_refillTab (s : State) (p dt : Nat) (tab : Tab (Option Nat)) (n k : Nat) :
    Tab.get (fun _ => none) ((List.range n).foldl (s.refillTab p dt) tab) k =
      if k < n then s.bucketAfter p dt k (Tab.get (fun _ => none) tab k) else Tab.get (fun _ => none) tab k := by
  induction n generalizing k with
  | zero => rfl
  | succ n ih =>
    rw [List.range_succ, List.foldl_append, List.foldl_cons, List.foldl_nil, State.get_refillTab, ih, ih]
    rcases Nat.lt_trichotomy k n with h | h | h
    · rw [if_neg (by omega), if_pos h, if_pos (by omega)]
    · subst h
      simp
    · rw [if_neg (by omega), if_neg (by omega), if_neg (by omega)]

/-- What an account keeps, and what it makes of the buckets. -/
theorem State.account_spec (s : State) (p : Nat) :
    s.NetStep (s.account p) p ((s.account p).port p) [] (creditFields p) ∧ (s.port p).Accounted ((s.account p).port p) ∧
    ((s.account p).port p).upto = max (s.port p).upto s.nowNs ∧
    ∀ i, i < 16 → Tab.get (fun _ => none) ((s.account p).port p).tokens i =
      s.bucketAfter p (s.nowNs - (s.port p).upto) i (Tab.get (fun _ => none) (s.port p).tokens i) := by
  obtain ⟨k, e, h⟩ := s.account_eq p
  obtain ⟨hstep, hacc, htok, hupto⟩ := s.recredit_step p k e s.nowNs (List.range 8) fun c hc => List.mem_range.1 hc
  rw [h]
  generalize (List.range 8).foldl (State.recredit p k e s.nowNs) s = u at *
  rw [State.port_setPort, hupto, htok]
  refine ⟨hstep.setPort _, hacc.tokens _ _, rfl, fun i hi => ?_⟩
  have hkept : ∀ f : Fld, f.lo + f.w ≤ 32 → f.off = NET.PSF_CBS p i ∨ f.off = NET.PSF_CIR p i → u.get f = s.get f := fun f hw ho =>
    hstep.frame.get f hw fun g hg => .inl (creditFields_apart (f := f) (by simp only [NET.PSF_CBS, NET.PSF_CIR] at ho; omega) g hg)
  rw [State.get_foldl_refillTab, if_pos hi, State.bucketAfter, hkept _ (Nat.le_of_ble_eq_true rfl) (.inl rfl), hkept _ (Nat.le_of_ble_eq_true rfl) (.inr rfl)]
  rfl

theorem State.account_step (s : State) (p : Nat) : s.NetStep (s.account p) p ((s.account p).port p) [] (creditFields p) := (s.account_spec p).1
theorem State.account_accounted (s : State) (p : Nat) : (s.port p).Accounted ((s.account p).port p) := (s.account_spec p).2.1

/-- Fields outside the credits read as before. -/
theorem State.get_account (s : State) (hw : f.lo + f.w ≤ 32) (h : f.off < 0x140100 + 0x8000 * p ∨ 0x140180 + 0x8000 * p ≤ f.off ∨ f.off % 16 ≠ 12) :
    (s.account p).get f = s.get f :=
  (s.account_step p).frame.get f hw fun g hg => .inl (creditFields_apart h g hg)

theorem State.account_queue (s : State) (p c : Nat) : (s.account p).netQueue p c = s.netQueue p c := (s.account_accounted p).queue c

theorem State.account_nowNs (s : State) (p : Nat) : (s.account p).nowNs = s.nowNs := (s.account_step p).frame.nowNs (by simp)

/-- The tokens listed for a bucket are fewer than it can hold. -/
def State.bucketLow (s : State) (p i : Nat) : Prop :=
  ∀ v, Tab.get (fun _ => none) (s.port p).tokens i = some v → v < creditUnit * s.get (NET.PSF_CBS_BYTES p i)

theorem State.get_psfCbs_account (s : State) (p i : Nat) : (s.account p).get (NET.PSF_CBS_BYTES p i) = s.get (NET.PSF_CBS_BYTES p i) :=
  s.get_account (Nat.le_of_ble_eq_true rfl) (by simp only [NET.PSF_CBS_BYTES, NET.PSF_CBS]; omega)

theorem State.bucketLow_account (s : State) {i : Nat} (hi : i < 16) : (s.account p).bucketLow p i := by
  intro v hv
  obtain ⟨-, -, -, htok⟩ := s.account_spec p
  rw [htok i hi, State.bucketAfter, Option.bind_eq_some_iff] at hv
  obtain ⟨w, -, hv⟩ := hv
  split at hv
  case isTrue => cases hv
  case isFalse h =>
    cases hv
    rw [State.get_psfCbs_account]
    omega

theorem State.bucketLow.bucket_le {i : Nat} (h : s.bucketLow p i) : s.bucket p i ≤ creditUnit * s.get (NET.PSF_CBS_BYTES p i) := by
  unfold State.bucket
  cases hv : Tab.get (fun _ => none) (s.port p).tokens i with
  | none => exact Nat.le_refl _
  | some v => exact Nat.le_of_lt (h v hv)

/-- An account at the time of the last leaves a bucket as it is. -/
theorem State.bucket_account_again {i : Nat} (hi : i < 16) (h : s.bucketLow p i) (hu : s.nowNs ≤ (s.port p).upto) : (s.account p).bucket p i = s.bucket p i := by
  obtain ⟨-, -, -, htok⟩ := s.account_spec p
  rw [State.bucket, State.get_psfCbs_account, htok i hi, Nat.sub_eq_zero_of_le hu, State.bucket, State.bucketAfter]
  cases hv : Tab.get (fun _ => none) (s.port p).tokens i with
  | none => rfl
  | some v =>
    have := h v hv
    simp only [Option.bind_some, Nat.mul_zero, Nat.add_zero, if_neg (Nat.not_le.2 this)]

/-! ### A frame joins a class queue (R298) -/

/-- The accounted port with one more frame in class c. -/
def State.joined (s : State) (p c : Nat) (fr : NetFrame) : NetPort :=
  ((s.account p).port p).setCls c { ((s.account p).port p).cls c with queue := (((s.account p).port p).cls c).queue ++ [fr] }

theorem State.enqueue_step (s : State) (p c : Nat) (body : FrameBody) (len due : Nat) (late : Bool) :
    s.NetStep (s.enqueue p c body len due late) p (s.joined p c { body, len := max len 64, queued := s.nowNs, due, late }) [] (creditFields p) := by
  have h := (s.account_step p).setPort (s.joined p c { body, len := max len 64, queued := (s.account p).nowNs, due, late })
  rw [State.account_nowNs] at h
  rw [← State.account_nowNs s p] at h ⊢
  exact h

theorem State.joined_queue (s : State) (p c : Nat) (fr : NetFrame) : ((s.joined p c fr).cls c).queue = s.netQueue p c ++ [fr] := by
  rw [State.joined, NetPort.cls_setCls, ← State.account_queue]
  rfl

theorem State.joined_queue_ne (s : State) (p : Nat) (fr : NetFrame) (h : d ≠ c) : ((s.joined p c fr).cls d).queue = s.netQueue p d := by
  rw [State.joined, NetPort.cls_setCls_ne _ _ h, ← State.account_queue]
  rfl

theorem State.joined_flow (s : State) (p c : Nat) (fr : NetFrame) (f : Nat) : (s.joined p c fr).flow f = s.flow p f := (s.account_accounted p).flow f

end Sys2Proof.Machine

/-! ### Gate lists (R299 to R301) -/

namespace Sys2Proof.Machine
set_option Elab.async false

variable {s t u : State} {p c d i : Nat} {x y : NetPort} {l : GateList} {ps : List Part} {fs gs : List Fld}

/-- A list whose start has not come waits on. -/
theorem State.startDue_early (h : (s.port p).pending = none ∨ s.nowNs < (s.port p).start) : s.startDue p = s := by
  refine if_neg ?_
  rintro ⟨hsome, hle⟩
  rcases h with h | h
  · rw [h] at hsome
    cases hsome
  · omega

theorem exec_gclCommit_refused (hp : s.netPresent p = true) (h : (s.port p).pending = none ∨ s.nowNs < (s.port p).start) (hok : s.adminOk p = false) :
    exec (.gclCommit p) s = .next (s.put (NET.GCL_STAT_REFUSED p) 1) := by
  show execGclCommit p s = _
  rw [execGclCommit, State.startDue_early h]
  exact (if_neg (by simp [hp])).trans (if_pos hok)

/-- A port whose admin list is pending from its mth cycle on. -/
def State.committedPort (s : State) (p m : Nat) : NetPort :=
  { s.port p with pending := some (s.adminList p), start := (s.adminList p).base + m * (s.adminList p).cycle }

/-- What GCL_STAT shows of a list that waits, m of whose cycles have been passed over. -/
def commitWrites (p m : Nat) : List (Fld × Nat) :=
  [(NET.GCL_STAT_PENDING p, 1), (NET.GCL_STAT_SKIPPED p, min m 65535)] ++ if m = 0 then [] else [(NET.GCL_STAT_LATE p, 1)]

theorem commitWrites_apart (p m : Nat) : (commitWrites p m).Pairwise fun a b => a.1.apart b.1 := by
  unfold commitWrites
  split <;> simp [Fld.apart, NET.GCL_STAT_PENDING, NET.GCL_STAT_SKIPPED, NET.GCL_STAT_LATE]

theorem exec_gclCommit_accepted {m : Nat} (hp : s.netPresent p = true) (h : (s.port p).pending = none ∨ s.nowNs < (s.port p).start) (hok : s.adminOk p = true)
    (hm : (s.adminList p).firstAt s.leadNs = m) : exec (.gclCommit p) s = .next ((s.setPort p (s.committedPort p m)).putAll (commitWrites p m)) := by
  show execGclCommit p s = _
  rw [execGclCommit, State.startDue_early h]
  refine (if_neg (by simp [hp])).trans ((if_neg (by simp [hok])).trans (congrArg Host.Outcome.next ?_))
  rw [hm, commitWrites]
  by_cases hz : m = 0
  · rw [if_pos hz, if_pos hz]
    rfl
  · rw [if_neg hz, if_neg hz]
    rfl

theorem State.contains_setLevel (s : State) (l : Nat) (v : Bool) (k : Nat) : (s.setLevel l v).levels.contains k = if k = l then v else s.levels.contains k := by
  rw [Bool.eq_iff_iff]
  unfold State.setLevel
  cases v with
  | false =>
    simp only [Bool.false_eq_true, if_false, List.contains_iff_mem, List.mem_filter, bne_iff_ne, ne_eq]
    split <;> simp_all
  | true =>
    simp only [if_true]
    by_cases hl : s.levels.contains l = true
    · rw [if_pos hl]
      split <;> simp_all
    · rw [if_neg hl, List.contains_cons]
      split <;> simp_all

/-- The request lines of the first n classes follow the gates. -/
theorem State.showGates_foldl (s : State) (p n : Nat) :
    let v := (List.range n).foldl (fun s c => s.setLevel (18 + 8 * p + c) (bitAt ((s.port p).gates s.nowNs) c)) s
    v.net = s.net ∧ v.time = s.time ∧ ∀ c, c < n → v.levels.contains (18 + 8 * p + c) = bitAt ((s.port p).gates s.nowNs) c := by
  induction n with
  | zero => exact ⟨rfl, rfl, fun c hc => absurd hc (Nat.not_lt_zero c)⟩
  | succ n ih =>
    rw [List.range_succ, List.foldl_append, List.foldl_cons, List.foldl_nil]
    obtain ⟨hnet, htime, hlev⟩ := ih
    generalize (List.range n).foldl _ s = v at *
    refine ⟨hnet, htime, fun c hc => ?_⟩
    rw [State.contains_setLevel]
    by_cases hcn : c = n
    · rw [if_pos (by rw [hcn]), State.port_of_net hnet, State.nowNs, htime, hcn]
      rfl
    · rw [if_neg (by omega), hlev c (by omega)]

theorem State.showGates_levels (s : State) (p : Nat) (hc : c < 8) : (s.showGates p).levels.contains (18 + 8 * p + c) = bitAt ((s.port p).gates s.nowNs) c :=
  (s.showGates_foldl p 8).2.2 c hc

theorem State.frame_showGates (s : State) (p : Nat) : s.frame (s.showGates p) [.levels] [] := State.frame.rfl'.showGates _ (by simp)

theorem State.NetStep.showGates (h : s.NetStep t p x ps fs) (hp : .levels ∈ ps) (hn : .net ∉ ps) : s.NetStep (t.showGates p) p x ps fs :=
  h.keep ((t.frame_showGates p).mono (by simpa using hp) (by simp)) hn

/-- The lines follow the gates that a list without a hold gives. -/
theorem State.NetStep.showGates_levels (h : s.NetStep t p x ps fs) (ht : .time ∉ ps) (hhold : x.hold = none) (hoper : x.oper = some l) (hc : c < 8) :
    (t.showGates p).levels.contains (18 + 8 * p + c) = bitAt (l.at s.nowNs) c := by
  rw [State.showGates_levels _ _ hc, h.port, h.frame.nowNs (by simpa using ht), NetPort.gates, hhold, hoper]

/-- The port, brought up to date, with list l in operation. -/
def State.startedPort (s : State) (p : Nat) (l : GateList) : NetPort := { (s.account p).port p with oper := some l, pending := none, hold := none }

/-- What is shown of a list that starts: GCL_STAT, and the 128 entries of the operating bank. -/
def startWrites (p : Nat) (l : GateList) : List (Fld × Nat) :=
  [(NET.GCL_STAT_PENDING p, 0), (NET.GCL_STAT_OPER_VALID p, 1)] ++ (List.range 128).flatMap fun i =>
    [(NET.GCL_OPER_GATES_GATES p i, (l.entries.getD i (0, 0)).1), (NET.GCL_OPER_INTERVAL_INTERVAL p i, (l.entries.getD i (0, 0)).2)]

theorem startWrites_apart (p : Nat) (l : GateList) : (startWrites p l).Pairwise fun a b => a.1.apart b.1 := by
  refine List.pairwise_append.2 ⟨by simp [Fld.apart, NET.GCL_STAT_PENDING, NET.GCL_STAT_OPER_VALID],
    List.pairwise_flatMap.2 ⟨fun i _ => ?_, List.nodup_range.imp fun {i j} hij => ?_⟩, fun a ha b hb => ?_⟩
  · simp [Fld.apart, NET.GCL_OPER_GATES_GATES, NET.GCL_OPER_INTERVAL_INTERVAL, NET.GCL_OPER_GATES, NET.GCL_OPER_INTERVAL]
  · simp only [List.forall_mem_cons, List.not_mem_nil, false_imp_iff, implies_true, and_true, Fld.apart, NET.GCL_OPER_GATES_GATES,
      NET.GCL_OPER_INTERVAL_INTERVAL, NET.GCL_OPER_GATES, NET.GCL_OPER_INTERVAL]
    omega
  · left
    obtain ⟨i, -, hb⟩ := List.mem_flatMap.1 hb
    simp only [List.mem_cons, List.not_mem_nil, or_false] at ha hb
    rcases ha with rfl | rfl <;> rcases hb with rfl | rfl <;>
      simp only [NET.GCL_STAT_PENDING, NET.GCL_STAT_OPER_VALID, NET.GCL_STAT, NET.GCL_OPER_GATES_GATES, NET.GCL_OPER_INTERVAL_INTERVAL, NET.GCL_OPER_GATES,
        NET.GCL_OPER_INTERVAL] <;> omega

theorem mem_startWrites_gates (p : Nat) (l : GateList) (hi : i < 128) : (NET.GCL_OPER_GATES_GATES p i, (l.entries.getD i (0, 0)).1) ∈ startWrites p l :=
  List.mem_append_right _ (List.mem_flatMap.2 ⟨i, List.mem_range.2 hi, List.mem_cons_self⟩)
theorem mem_startWrites_interval (p : Nat) (l : GateList) (hi : i < 128) : (NET.GCL_OPER_INTERVAL_INTERVAL p i, (l.entries.getD i (0, 0)).2) ∈ startWrites p l :=
  List.mem_append_right _ (List.mem_flatMap.2 ⟨i, List.mem_range.2 hi, List.mem_cons_of_mem _ List.mem_cons_self⟩)

theorem exec_gclStart_early (h : (s.port p).pending = none ∨ s.nowNs < (s.port p).start) : exec (.gclStart p) s = .next s :=
  congrArg Host.Outcome.next (State.startDue_early h)

theorem exec_gclStart_due (hl : (s.port p).pending = some l) (h : (s.port p).start ≤ s.nowNs) :
    exec (.gclStart p) s = .next ((((s.account p).setPort p (s.startedPort p l)).putAll (startWrites p l)).showGates p) := by
  refine congrArg Host.Outcome.next ((if_pos ⟨by rw [hl]; rfl, h⟩).trans ?_)
  simp only [State.startList, hl, State.putAll, startWrites, List.foldl_append, List.foldl_flatMap]
  rfl

/-- The port, brought up to date, with no gates held. -/
def State.unheldPort (s : State) (p : Nat) : NetPort := { (s.account p).port p with hold := none }

/-- Gates that were held until now, or not at all, are held no longer. -/
def State.endHold (s : State) (p : Nat) : State :=
  match (s.port p).hold with
  | some (_, v) => if v ≤ s.nowNs then s.setPort p { s.port p with hold := none } else s
  | none => s

theorem exec_gateEntryChange (hp : s.netPresent p = true) : exec (.gateEntryChange p) s = .next (((s.account p).endHold p).showGates p) := if_neg (by simp [hp])

theorem State.endHold_step (h : (s.port p).hold = none ∨ (match (s.port p).hold with | some (_, u) => decide (u ≤ s.nowNs) | none => true) = true) :
    s.NetStep ((s.account p).endHold p) p (s.unheldPort p) [] (creditFields p) := by
  have hstep := s.account_step p
  have hhold := (s.account_accounted p).hold
  unfold State.endHold State.unheldPort
  rw [State.account_nowNs]
  cases hx : (s.port p).hold with
  | none =>
    have heq : { (s.account p).port p with hold := none } = (s.account p).port p := by rw [← hhold.trans hx]
    rw [hhold, hx, heq]
    exact hstep
  | some q =>
    have hq : q.2 ≤ s.nowNs := by simpa [hx] using h
    rw [hhold, hx]
    dsimp only
    rw [if_pos hq]
    exact hstep.setPort _

/-! ### Shapers and filters (R303 to R305) -/

/-- The port, brought up to date, with the credit of class c at 0. -/
def State.uncreditedPort (s : State) (p c : Nat) : NetPort :=
  ((s.account p).port p).setCls c { ((s.account p).port p).cls c with credit := 0 }

theorem exec_cbsWrite {which v : Nat} {f : Fld} (hp : s.netPresent p = true)
    (hf : (which = 0 ∧ f = NET.CBS_IDLE_VALUE p c) ∨ (which = 1 ∧ f = NET.CBS_HI_VALUE p c) ∨ (which = 2 ∧ f = NET.CBS_LO_VALUE p c)) :
    exec (.cbsWrite p c which v) s = .next ((((s.account p).setPort p (s.uncreditedPort p c)).put f v).put (NET.CBS_CREDIT_VALUE p c) 0) := by
  refine (if_neg (by simp [hp]) : execCbsWrite p c which v s = _).trans ?_
  rcases hf with ⟨rfl, rfl⟩ | ⟨rfl, rfl⟩ | ⟨rfl, rfl⟩ <;> rfl

theorem State.uncreditedPort_queue (s : State) (p c d : Nat) : ((s.uncreditedPort p c).cls d).queue = s.netQueue p d :=
  ((s.account_accounted p).setCls (c := c) (k := { ((s.account p).port p).cls c with credit := 0 }) rfl).queue d

/-- The port, brought up to date, with filter f's bucket full. -/
def State.refilledPort (s : State) (p f : Nat) : NetPort :=
  { (s.account p).port p with tokens := Tab.set (fun _ => none) ((s.account p).port p).tokens f none }

theorem State.refilledPort_queue (s : State) (p f d : Nat) : ((s.refilledPort p f).cls d).queue = s.netQueue p d := (s.account_accounted p).queue d

theorem State.NetStep.bucket_refilled {f : Nat} (h : s.NetStep t p (u.refilledPort p f) ps fs) : t.bucket p f = creditUnit * t.get (NET.PSF_CBS_BYTES p f) := by
  rw [State.bucket, h.port]
  exact congrArg (Option.getD · _) (Tab.get_set_same (fun _ => none) _ f (none : Option Nat))

theorem exec_psfWrite_ctl {f v : Nat} (hp : s.netPresent p = true) : exec (.psfWrite p f 0 v) s =
    .next (((s.account p).wr (NET.PSF_CTL p f) (BitVec.ofNat 32 (v % 128))).setPort p (s.refilledPort p f)) := if_neg (by simp [hp])

theorem exec_psfWrite_rate {f which v : Nat} {r : Fld} (hp : s.netPresent p = true)
    (hr : (which = 1 ∧ r = NET.PSF_CIR_KBPS p f) ∨ (which = 2 ∧ r = NET.PSF_CBS_BYTES p f)) :
    exec (.psfWrite p f which v) s = .next (((s.account p).put r v).setPort p (s.refilledPort p f)) := by
  have hport : ∀ g, ((s.account p).put g v).port p = (s.account p).port p := fun g => State.port_of_net (State.put_net ..) p
  refine (if_neg (by simp [hp]) : execPsfWrite p f which v s = _).trans (congrArg Host.Outcome.next ?_)
  rcases hr with ⟨rfl, rfl⟩ | ⟨rfl, rfl⟩
  · rw [if_neg (by decide), if_pos rfl, hport]
    rfl
  · rw [if_neg (by decide), if_neg (by decide), hport]
    rfl

end Sys2Proof.Machine

/-! ### Frames received (R284, R288, R304) -/

namespace Sys2Proof.Machine
set_option Elab.async false

variable {s t u : State} {p c d i : Nat} {x y : NetPort} {f : RxFrame} {ps : List Part} {fs gs : List Fld}

/-- A frame has come, and is counted. -/
def State.counted (s : State) (p : Nat) : State := (s.account p).bump (NET.RX_FRAMES_COUNT p)

theorem State.counted_step (s : State) (p : Nat) : s.NetStep (s.counted p) p ((s.account p).port p) [] (NET.RX_FRAMES_COUNT p :: creditFields p) :=
  ((s.account_step p).mono fun _ hf => List.mem_cons_of_mem _ hf).bump List.mem_cons_self

theorem State.counted_queue (s : State) (p c : Nat) : (s.counted p).netQueue p c = s.netQueue p c := ((s.counted_step p).queue c).trans (s.account_queue p c)

theorem State.counted_frames (s : State) (p : Nat) : (s.counted p).get (NET.RX_FRAMES_COUNT p) = satAdd 32 (s.get (NET.RX_FRAMES_COUNT p)) 1 := by
  rw [State.counted, State.get_bump_same _ (Nat.le_of_ble_eq_true rfl), s.get_account (Nat.le_of_ble_eq_true rfl)]
  · rfl
  · simp only [NET.RX_FRAMES_COUNT, NET.RX_FRAMES]
    omega

/-- The registers of the filters, and RX_DROPS, lie apart from what the count of a frame writes. -/
theorem State.counted_apart {off : Nat} (h : 0x140400 + 0x8000 * p ≤ off ∨ off = NET.RX_DROPS p) :
    ∀ g ∈ NET.RX_FRAMES_COUNT p :: creditFields p, off ≠ g.off := by
  refine List.forall_mem_cons.2 ⟨?_, creditFields_apart (f := ⟨off, 0, 32⟩) ?_⟩
  · simp only [NET.RX_FRAMES_COUNT, NET.RX_FRAMES, NET.RX_DROPS] at h ⊢
    omega
  · simp only [NET.RX_DROPS] at h ⊢
    omega

theorem State.get_counted {g : Fld} (hw : g.lo + g.w ≤ 32) (h : 0x140400 + 0x8000 * p ≤ g.off ∨ g.off = NET.RX_DROPS p) : (s.counted p).get g = s.get g :=
  (s.counted_step p).frame.get g hw fun g' hg => .inl (State.counted_apart h g' hg)

theorem State.filterFor_counted (s : State) (p : Nat) (f : RxFrame) : (s.counted p).filterFor p f = s.filterFor p f := by
  have hrd : ∀ off, 0x140400 + 0x8000 * p ≤ off → (s.counted p).rd off = s.rd off := fun off h =>
    (s.counted_step p).frame.rd (State.counted_apart (.inl h))
  have hctl : ∀ i, (s.counted p).rd (NET.PSF_CTL p i) = s.rd (NET.PSF_CTL p i) := fun i => hrd _ (by simp only [NET.PSF_CTL]; omega)
  have hlo : ∀ i, (s.counted p).rd (NET.PSF_MAC_LO p i) = s.rd (NET.PSF_MAC_LO p i) := fun i => hrd _ (by simp only [NET.PSF_MAC_LO]; omega)
  have hhi : ∀ i, (s.counted p).rd (NET.PSF_MAC_HI p i) = s.rd (NET.PSF_MAC_HI p i) := fun i => hrd _ (by simp only [NET.PSF_MAC_HI]; omega)
  have hmac : ∀ i, (s.counted p).get (NET.PSF_MAC_HI_MAC p i) = s.get (NET.PSF_MAC_HI_MAC p i) := fun i =>
    congrArg (fun w : Word => bits w.toNat 0 16) (hhi i)
  have hvid : ∀ i, (s.counted p).get (NET.PSF_MAC_HI_VID p i) = s.get (NET.PSF_MAC_HI_VID p i) := fun i =>
    congrArg (fun w : Word => bits w.toNat 16 12) (hhi i)
  simp only [State.filterFor, hctl, hlo, hmac, hvid]

theorem State.filterFor_lt (h : s.filterFor p f = some i) : i < 16 := List.mem_range.1 (List.mem_of_find?_eq_some h)

theorem State.bucket_counted (s : State) (p i : Nat) : (s.counted p).bucket p i = (s.account p).bucket p i := by
  rw [State.bucket, (s.counted_step p).port, State.get_counted (Nat.le_of_ble_eq_true rfl) (.inl (by simp only [NET.PSF_CBS_BYTES, NET.PSF_CBS]; omega)),
    State.bucket, State.get_psfCbs_account]

theorem exec_rxFrame_dropped (hl : s.linkUp p = true) (h : f.good = false ∨ 1522 < f.len ∨ f.body = .pause ∨ s.filterFor p f = none) :
    exec (.rxFrame p f) s = .next ((s.counted p).bump (NET.RX_DROPS_COUNT p)) := by
  refine (if_neg (by simp [hl]) : execRxFrame p f s = _).trans ?_
  by_cases hbad : (!f.good || decide (1522 < f.len) || f.body == .pause) = true
  · exact if_pos hbad
  · refine (if_neg hbad).trans ?_
    have hnone : (s.counted p).filterFor p f = none := by
      rw [State.filterFor_counted]
      simp only [Bool.or_eq_true, Bool.not_eq_true', decide_eq_true_eq, beq_iff_eq, not_or] at hbad
      tauto
    rw [← State.counted, hnone]

section Filtered
variable (hl : s.linkUp p = true) (hgood : f.good = true ∧ f.len ≤ 1522) (hbody : f.body ≠ .pause) (hi : s.filterFor p f = some i)
include hl hgood hbody hi

theorem exec_rxFrame_over (h : (s.account p).bucket p i < creditUnit * f.len) : exec (.rxFrame p f) s = .next ((s.counted p).bump (NET.PSF_DROP_COUNT p i)) := by
  obtain ⟨hg, hlen⟩ := hgood
  refine (if_neg (by simp [hl]) : execRxFrame p f s = _).trans ((if_neg (by simp [hg, hbody, hlen])).trans ?_)
  rw [← State.counted, State.filterFor_counted, hi]
  exact if_pos (by rwa [← State.bucket_counted] at h)

/-- What a bucket is listed with that holds n. -/
def State.listed (s : State) (p i n : Nat) : Option Nat := if creditUnit * s.get (NET.PSF_CBS_BYTES p i) ≤ n then none else some n

/-- The port, brought up to date, after a frame of len bytes has passed filter i. -/
def State.chargedPort (s : State) (p i len : Nat) : NetPort :=
  { (s.account p).port p with
    tokens := Tab.set (fun _ => none) ((s.account p).port p).tokens i (s.listed p i ((s.account p).bucket p i - creditUnit * len)) }

/-- A frame has passed its filter, which is counted. -/
def State.passed (s : State) (p i len : Nat) : State := ((s.counted p).setPort p (s.chargedPort p i len)).bump (NET.PSF_PASS_COUNT p i)

theorem exec_rxFrame_passed (h : creditUnit * f.len ≤ (s.account p).bucket p i) : exec (.rxFrame p f) s = .next ((s.passed p i f.len).takeFrame p f) := by
  obtain ⟨hg, hlen⟩ := hgood
  refine (if_neg (by simp [hl]) : execRxFrame p f s = _).trans ((if_neg (by simp [hg, hbody, hlen])).trans ?_)
  rw [← State.counted, State.filterFor_counted, hi]
  refine (if_neg (by rw [← State.bucket_counted] at h; exact Nat.not_lt.2 h)).trans (congrArg (fun v : State => Host.Outcome.next (v.takeFrame p f)) ?_)
  rw [State.passed, State.chargedPort, State.listed, ← State.bucket_counted, ← (s.counted_step p).port,
    ← s.get_counted (p := p) (g := NET.PSF_CBS_BYTES p i) (Nat.le_of_ble_eq_true rfl) (.inl (by simp only [NET.PSF_CBS_BYTES, NET.PSF_CBS]; omega))]
  rfl

end Filtered

/-- The register fields that a frame which passes filter i may write before it is handled. -/
def passFields (p i : Nat) : List Fld := [NET.RX_FRAMES_COUNT p, NET.PSF_PASS_COUNT p i] ++ creditFields p

theorem creditFields_subset_passFields (p i : Nat) : ∀ g ∈ creditFields p, g ∈ passFields p i := fun _ hg => List.mem_append_right _ hg

/-- The port's settings, the filter's burst size and the Dater's registers are none of them. -/
theorem passFields_apart {off : Nat} (hp : p < 2) (hi : i < 16)
    (h : off = NET.PORT_CFG p ∨ off = NET.IPV4_ADDR p ∨ off = NET.PSF_CBS p i ∨ 0x150000 ≤ off) : ∀ g ∈ passFields p i, off ≠ g.off := by
  simp only [NET.PORT_CFG, NET.IPV4_ADDR, NET.PSF_CBS] at h
  refine List.forall_mem_append.2 ⟨?_, creditFields_apart (f := ⟨off, 0, 32⟩) ?_⟩
  · simp only [List.forall_mem_cons, List.not_mem_nil, false_imp_iff, implies_true, and_true, NET.RX_FRAMES_COUNT, NET.RX_FRAMES, NET.PSF_PASS_COUNT, NET.PSF_PASS]
    omega
  · show off < _ ∨ _ ≤ off ∨ _
    omega

theorem State.passed_step (s : State) (p i len : Nat) : s.NetStep (s.passed p i len) p (s.chargedPort p i len) [] (passFields p i) :=
  (((s.counted_step p).mono (by simp only [passFields, List.forall_mem_cons]; exact ⟨by simp, fun _ hg => List.mem_append_right _ hg⟩)).setPort _).bump
    (by simp [passFields])

theorem State.passed_queue (s : State) (p i len c : Nat) : ((s.chargedPort p i len).cls c).queue = s.netQueue p c := (s.account_accounted p).queue c

theorem State.passed_count (s : State) (p len : Nat) (hi : i < 16) : (s.passed p i len).get (NET.PSF_PASS_COUNT p i) = satAdd 32 (s.get (NET.PSF_PASS_COUNT p i)) 1 := by
  rw [State.passed, State.get_bump_same _ (Nat.le_of_ble_eq_true rfl), State.get_setPort,
    State.get_counted (Nat.le_of_ble_eq_true rfl) (.inl (by simp only [NET.PSF_PASS_COUNT, NET.PSF_PASS]; omega))]
  rfl

theorem State.get_psfCbs_passed (s : State) (len : Nat) (hp : p < 2) (hi : i < 16) :
    (s.passed p i len).get (NET.PSF_CBS_BYTES p i) = s.get (NET.PSF_CBS_BYTES p i) :=
  (s.passed_step p i len).frame.get _ (Nat.le_of_ble_eq_true rfl) fun g hg => .inl (passFields_apart hp hi (.inr (.inr (.inl rfl))) g hg)

/-- The bucket has paid for the frame. -/
theorem State.bucket_passed {len : Nat} (hp : p < 2) (hi : i < 16) :
    (s.passed p i len).bucket p i = (s.account p).bucket p i - creditUnit * len ∧ (s.passed p i len).bucketLow p i := by
  have hle := (s.bucketLow_account (p := p) hi).bucket_le
  rw [State.get_psfCbs_account] at hle
  have htok : Tab.get (fun _ => none) ((s.passed p i len).port p).tokens i = s.listed p i ((s.account p).bucket p i - creditUnit * len) := by
    rw [(s.passed_step p i len).port]
    exact Tab.get_set_same ..
  rw [State.bucket, State.bucketLow, htok, s.get_psfCbs_passed len hp hi, State.listed]
  split
  case isTrue h => exact ⟨by simp only [Option.getD_none]; omega, fun v hv => nomatch hv⟩
  case isFalse h => exact ⟨rfl, fun v hv => by cases hv; omega⟩

/-- A frame joins a class queue after steps that left the queues alone. -/
theorem State.NetStep.enqueue (h : s.NetStep t p x ps fs) (hq : ∀ c, (x.cls c).queue = s.netQueue p c) (hc : ∀ g ∈ creditFields p, g ∈ fs) (ht : .time ∉ ps)
    (c : Nat) (body : FrameBody) (len due : Nat) (late : Bool) :
    s.NetStep (t.enqueue p c body len due late) p (t.joined p c { body, len := max len 64, queued := s.nowNs, due, late }) ps fs ∧
    (t.enqueue p c body len due late).netQueue p c = s.netQueue p c ++ [{ body, len := max len 64, queued := s.nowNs, due, late }] ∧
    ∀ d, d ≠ c → (t.enqueue p c body len due late).netQueue p d = s.netQueue p d := by
  have henq := t.enqueue_step p c body len due late
  rw [h.frame.nowNs (by simpa using ht)] at henq
  refine ⟨h.trans ((henq.mono hc).also ps), ?_, fun d hd => ?_⟩
  · rw [henq.queue, State.joined_queue, h.queue, hq]
  · rw [henq.queue, State.joined_queue_ne _ _ _ hd, h.queue, hq]

theorem State.bucket_enqueue (s : State) (p c : Nat) (body : FrameBody) (len due : Nat) (late : Bool) (i : Nat) :
    (s.enqueue p c body len due late).bucket p i = (s.account p).bucket p i := by
  have h := s.enqueue_step p c body len due late
  rw [State.bucket, h.port, State.bucket, State.get_psfCbs_account]
  refine congrArg (fun n => Option.getD _ (creditUnit * n)) (h.frame.get _ (Nat.le_of_ble_eq_true rfl) fun g hg => .inl (creditFields_apart ?_ g hg))
  simp only [NET.PSF_CBS_BYTES, NET.PSF_CBS]
  omega

end Sys2Proof.Machine

/-! ### PTP at the ports (R316 to R320) -/

namespace Sys2Proof.Machine
set_option Elab.async false

variable {s t u : State} {p c d i : Nat} {x y : NetPort} {f : RxFrame} {ps : List Part} {fs gs : List Fld}

/-- What the Dater's settings and its time are read from is the same. -/
structure State.SameDater (s t : State) : Prop where
  big : t.big = s.big
  time : t.time = s.time
  get : ∀ f : Fld, f.lo + f.w ≤ 32 → 0x150000 ≤ f.off → t.get f = s.get f

theorem State.frame.sameDater (h : s.frame t ps fs) (hb : .big ∉ ps) (ht : .time ∉ ps) (ha : ∀ off, 0x150000 ≤ off → ∀ g ∈ fs, off ≠ g.off) : s.SameDater t :=
  ⟨h.1 .big hb, h.1 .time ht, fun f hw hf => h.get f hw fun g hg => .inl (ha _ hf g hg)⟩

namespace State.SameDater
variable (h : s.SameDater t)
include h

theorem on (f : Fld) (hw : f.lo + f.w ≤ 32) (hf : 0x150000 ≤ f.off) : t.on f = s.on f := State.on_eq_of_get (h.get f hw hf)

theorem ptpPort (p : Nat) : t.ptpPort p = s.ptpPort p := by rw [State.ptpPort, h.big, h.get _ (by decide) (by decide), State.ptpPort]

theorem activePort : t.activePort = s.activePort := by
  rw [State.activePort, h.ptpPort, h.ptpPort, h.get _ (by decide) (by decide), State.activePort]

theorem ptpLen (ty : Nat) : t.ptpLen ty = s.ptpLen ty := by
  rw [State.ptpLen, h.get _ (by decide) (by decide), h.on _ (by decide) (by decide), State.ptpLen]

theorem portLat (f : Fld) (hw : f.lo + f.w ≤ 32) (hf : 0x150000 ≤ f.off) : t.portLat f = s.portLat f := by rw [State.portLat, h.get f hw hf, State.portLat]

theorem ingress (p : Nat) : t.ingress p = s.ingress p := by
  rw [State.ingress, State.portStamp, h.time, h.portLat _ (Nat.le_of_ble_eq_true rfl), State.ingress, State.portStamp]
  simp only [DAT.PORT_INGRESS_LAT_VALUE, DAT.PORT_INGRESS_LAT]
  omega

theorem isMaster (hs : t.servo = s.servo) : t.isMaster = s.isMaster := by rw [State.isMaster, hs, h.on _ (by decide) (by decide), State.isMaster]

end State.SameDater

/-- PTP runs on a port with its link up that PTP_CFG names. -/
theorem State.ptpPort_of_linkUp (hl : s.linkUp p = true) (hb : bitAt (s.get DAT.PTP_CFG_PORTS) p = true) : s.ptpPort p = true := by
  have hp := State.netPresent_of_linkUp hl
  simp only [State.netPresent, Bool.or_eq_true, Bool.and_eq_true, beq_iff_eq] at hp
  simp only [State.ptpPort, hb, Bool.true_and, Bool.or_eq_true, beq_iff_eq]
  tauto

theorem State.activePort_of_stat (hp : s.ptpPort p = true) (h : s.get DAT.SERVO_STAT_PORT = p) : s.activePort = p := by rw [State.activePort, h, if_pos hp]

theorem State.raise_netPort (s : State) (hp : p < 2) : s.raise (21 + p) = s.put (srcPending (21 + p)) 1 := if_pos (by omega)

theorem srcPending_netPort_lt (hp : p < 2) : (srcPending (21 + p)).off < 0x140000 := by
  simp only [srcPending, srcReg]
  omega

end Sys2Proof.Machine

/-! ### Frames that are handled (R288, R316 to R319) -/

namespace Sys2Proof.Machine
set_option Elab.async false

variable {s t u : State} {p c d i : Nat} {x y : NetPort} {f : RxFrame} {ps : List Part} {fs gs : List Fld}

theorem State.passed_get (s : State) (len : Nat) {g : Fld} (hp : p < 2) (hi : i < 16) (hw : g.lo + g.w ≤ 32)
    (h : g.off = NET.PORT_CFG p ∨ g.off = NET.IPV4_ADDR p ∨ g.off = NET.PSF_CBS p i ∨ 0x150000 ≤ g.off) : (s.passed p i len).get g = s.get g :=
  (s.passed_step p i len).frame.get g hw fun _ hg => .inl (passFields_apart hp hi h _ hg)

theorem State.passed_upto (s : State) (p i len : Nat) : (s.passed p i len).nowNs ≤ ((s.passed p i len).port p).upto := by
  obtain ⟨-, -, hupto, -⟩ := s.account_spec p
  rw [(s.passed_step p i len).frame.nowNs (by simp), (s.passed_step p i len).port, State.chargedPort, hupto]
  exact Nat.le_max_right _ _

theorem State.takeFrame_arp {a : Nat} (hb : f.body = .arp a) (ha : a = s.ipv4 p ∧ a ≠ 0) :
    s.takeFrame p f = s.enqueue p (s.get (NET.PORT_CFG_MGMT_TC p)) (.reply 0) 64 s.nowNs false := by
  rw [State.takeFrame, hb]
  exact if_pos ha

/-- A PTP message of the port's transport and domain is taken, on a port that PTP runs on, and raises the port's source. -/
theorem State.takeFrame_ptp {m : PtpMsg} (hp : p < 2) (hb : f.body = .ptp (s.get DAT.PTP_CFG_TRANSPORT) (s.get DAT.PTP_CFG_DOMAIN) m) (hport : s.ptpPort p = true) :
    s.takeFrame p f = (s.put (srcPending (21 + p)) 1).ptpIn p m := by
  have hs : s.SameDater (s.put (srcPending (21 + p)) 1) :=
    (State.frame.rfl'.put (ps := []) (fs := [srcPending (21 + p)]) 1 List.mem_cons_self).sameDater (by simp) (by simp) fun off ho => by
      have := srcPending_netPort_lt hp
      simp only [List.forall_mem_cons, List.not_mem_nil, false_imp_iff, implies_true, and_true]
      omega
  rw [State.takeFrame, hb]
  dsimp only
  rw [s.raise_netPort hp, hs.ptpPort, hport, hs.get DAT.PTP_CFG_TRANSPORT (by decide) (by decide), hs.get DAT.PTP_CFG_DOMAIN (by decide) (by decide)]
  simp

/-- A frame that has passed, with the port's source raised. -/
def State.messaged (s : State) (p i len : Nat) : State := (s.passed p i len).put (srcPending (21 + p)) 1

def messageFields (p i : Nat) : List Fld := [NET.RX_FRAMES_COUNT p, NET.PSF_PASS_COUNT p i, srcPending (21 + p)] ++ creditFields p

theorem creditFields_subset_messageFields (p i : Nat) : ∀ g ∈ creditFields p, g ∈ messageFields p i := fun _ hg => List.mem_append_right _ hg

theorem State.messaged_step (s : State) (p i len : Nat) : s.NetStep (s.messaged p i len) p (s.chargedPort p i len) [] (messageFields p i) :=
  ((s.passed_step p i len).mono (List.forall_mem_append.2 ⟨by simp [messageFields], creditFields_subset_messageFields p i⟩)).put _ (by simp [messageFields])

theorem messageFields_apart {off : Nat} (hp : p < 2) (hi : i < 16) (h : off = NET.PORT_CFG p ∨ 0x150000 ≤ off) : ∀ g ∈ messageFields p i, off ≠ g.off := by
  have hpass := passFields_apart (off := off) hp hi (by tauto)
  have hsrc := srcPending_netPort_lt hp
  simp only [NET.PORT_CFG] at h
  simp only [passFields, messageFields, List.forall_mem_append, List.forall_mem_cons, List.not_mem_nil, false_imp_iff, implies_true, and_true] at hpass ⊢
  obtain ⟨⟨h1, h2⟩, h3⟩ := hpass
  exact ⟨⟨h1, h2, by omega⟩, h3⟩

theorem State.messaged_sameDater (s : State) (len : Nat) (hp : p < 2) (hi : i < 16) : s.SameDater (s.messaged p i len) :=
  (s.messaged_step p i len).frame.sameDater (by simp) (by simp) fun _ ho => messageFields_apart hp hi (.inr ho)

theorem State.messaged_servo (s : State) (p i len : Nat) : (s.messaged p i len).servo = s.servo :=
  congrArg Dater.servo ((s.messaged_step p i len).frame.1 .dater (by simp))

theorem State.messaged_source (s : State) (p i len : Nat) : (s.messaged p i len).get (srcPending (21 + p)) = 1 := State.get_put_same _ _ (Nat.le_of_ble_eq_true rfl)

section Message
variable {m : PtpMsg} (hl : s.linkUp p = true) (hgood : f.good = true ∧ f.len ≤ 1522)
  (hbody : f.body = .ptp (s.get DAT.PTP_CFG_TRANSPORT) (s.get DAT.PTP_CFG_DOMAIN) m) (hb : bitAt (s.get DAT.PTP_CFG_PORTS) p = true)
  (hi : s.filterFor p f = some i) (h : creditUnit * f.len ≤ (s.account p).bucket p i)
include hl hgood hbody hb hi h

/-- A PTP message for the port that its filter lets pass. -/
theorem exec_rxFrame_ptp : exec (.rxFrame p f) s = .next ((s.messaged p i f.len).ptpIn p m) := by
  have hp := State.netPresent_lt (State.netPresent_of_linkUp hl)
  have hpass : s.SameDater (s.passed p i f.len) := (s.passed_step p i f.len).frame.sameDater (by simp) (by simp) fun _ ho =>
    passFields_apart hp (State.filterFor_lt hi) (.inr (.inr (.inr ho)))
  refine (exec_rxFrame_passed hl hgood (by simp [hbody]) hi h).trans (congrArg Host.Outcome.next (State.takeFrame_ptp hp ?_ ?_))
  · rw [hpass.get _ (by decide) (by decide), hpass.get _ (by decide) (by decide), hbody]
  · rw [hpass.ptpPort, State.ptpPort_of_linkUp hl hb]

end Message

theorem State.ptpIn_sync {id seq : Nat} {corr origin : Int} (hstat : s.get DAT.SERVO_STAT_PORT = p) (hm : s.servo.master = some id) :
    s.ptpIn p (.sync id seq true corr origin) =
      s.setServo { s.servo with sync := some (seq, s.ingress p - corr - s.portLat (DAT.PORT_ASYM_VALUE p)), down := none } := by
  simp [State.ptpIn, hstat, hm]

theorem State.ptpIn_delayReq {id seq : Nat} (hm : s.isMaster = true) (hp : p = s.activePort) :
    s.ptpIn p (.delayReq id seq) = s.sendPtp p 9 seq (some (s.ingress p)) (some id) := if_pos ⟨hm, hp⟩

theorem State.servo_setServo (s : State) (v : Servo) : (s.setServo v).servo = v := rfl
theorem State.get_setServo (s : State) (v : Servo) (g : Fld) : (s.setServo v).get g = s.get g := rfl

theorem State.NetStep.setServo (h : s.NetStep t p x ps fs) (v : Servo) (hd : .dater ∈ ps) (hn : .net ∉ ps) : s.NetStep (t.setServo v) p x ps fs :=
  h.keep (State.frame.rfl'.dater { t.dater with servo := v } hd) hn

/-- A PTP message joins the queue of its class after steps that left the queues and the Dater's settings alone. -/
theorem State.NetStep.sendPtp (h : s.NetStep t p x ps fs) (hq : ∀ c, (x.cls c).queue = s.netQueue p c) (hc : ∀ g ∈ creditFields p, g ∈ fs) (ht : .time ∉ ps)
    (hd : s.SameDater t) (htc : t.get (NET.PORT_CFG_PTP_TC p) = s.get (NET.PORT_CFG_PTP_TC p)) (ty seq : Nat) (time : Option Int) (dest : Option Nat) :
    (t.sendPtp p ty seq time dest).netQueue p (s.get (NET.PORT_CFG_PTP_TC p)) = s.netQueue p (s.get (NET.PORT_CFG_PTP_TC p)) ++
      [{ body := .ptp ty seq time dest, len := max (s.ptpLen ty) 64, queued := s.nowNs, due := s.nowNs, late := false }] ∧
    s.frame (t.sendPtp p ty seq time dest) (.net :: ps) fs := by
  obtain ⟨hstep, hqueue, -⟩ := h.enqueue hq hc ht (s.get (NET.PORT_CFG_PTP_TC p)) (.ptp ty seq time dest) (s.ptpLen ty) s.nowNs false
  rw [State.sendPtp, htc, hd.ptpLen, h.frame.nowNs (by simpa using ht)]
  exact ⟨hqueue, hstep.frame⟩

theorem State.sendPtp_servo (s : State) (p ty seq : Nat) (time : Option Int) (dest : Option Nat) : (s.sendPtp p ty seq time dest).servo = s.servo :=
  congrArg Dater.servo ((s.enqueue_step ..).frame.1 .dater (by simp))

/-! ### Messages that are sent by their timer (R316, R318) -/

/-- The servo has numbered one more message. -/
def Servo.next (v : Servo) : Servo := { v with seq := (v.seq + 1) % 65536 }

/-- What a message that the timer sends leaves. -/
theorem State.timerSent_spec (v : Servo) (ty seq : Nat) :
    ((s.setServo v).sendPtp p ty seq none none).servo = v ∧
    ((s.setServo v).sendPtp p ty seq none none).netQueue p (s.get (NET.PORT_CFG_PTP_TC p)) = s.netQueue p (s.get (NET.PORT_CFG_PTP_TC p)) ++
      [{ body := .ptp ty seq none none, len := max (s.ptpLen ty) 64, queued := s.nowNs, due := s.nowNs, late := false }] ∧
    s.frame ((s.setServo v).sendPtp p ty seq none none) [.net, .dater] (creditFields p) :=
  ⟨State.sendPtp_servo .., ((State.NetStep.refl s p).setServo v (List.mem_singleton.2 rfl) (by simp)).sendPtp (fun _ => rfl) (fun _ hg => hg) (by simp)
    ⟨rfl, rfl, fun _ _ _ => rfl⟩ rfl ty seq none none⟩

section Timer
variable (hb : bitAt (s.get DAT.PTP_CFG_PORTS) p = true) (hl : s.linkUp p = true)
include hb hl

theorem exec_ptpSendTimer_slave {m : Nat} (hm : s.servo.master = some m) (hstat : s.get DAT.SERVO_STAT_PORT = p) : exec (.ptpSendTimer p 1) s =
    .next ((s.setServo { s.servo.next with req := some (s.servo.seq, none) }).sendPtp p 1 s.servo.seq none none) := by
  have hport := State.ptpPort_of_linkUp hl hb
  refine (if_neg (by simp [hport, hl, State.activePort_of_stat hport hstat]) : execPtpSendTimer p 1 s = _).trans ((if_pos rfl).trans (if_pos ?_))
  rw [hm]
  rfl

theorem exec_ptpSendTimer_master {ty : Nat} (hty : ty = 0 ∨ ty = 0xB ∨ ty = 0xD) (hm : s.isMaster = true) (ha : p = s.activePort) (hdue : s.ptpDue ty = true) :
    exec (.ptpSendTimer p ty) s =
      .next ((s.setServo { s.servo.next with sent := (ty, s.ticks) :: s.servo.sent.filter fun q => q.1 != ty }).sendPtp p ty s.servo.seq none none) := by
  have hport := State.ptpPort_of_linkUp hl hb
  exact (if_neg (by simp [hport, hl, ← ha]) : execPtpSendTimer p ty s = _).trans ((if_neg (by omega)).trans (if_pos ⟨hty, hm, hdue⟩))

end Timer

theorem exec_ptpSendTimer_idle {ty : Nat} (h : bitAt (s.get DAT.PTP_CFG_PORTS) p = false ∨ s.linkUp p = false ∨ p ≠ s.activePort ∨
    (ty = 1 ∧ s.servo.master = none) ∨ (ty ≠ 1 ∧ (s.isMaster = false ∨ s.ptpDue ty = false))) : exec (.ptpSendTimer p ty) s = .next s := by
  show execPtpSendTimer p ty s = _
  rw [execPtpSendTimer]
  by_cases hoff : (!s.ptpPort p || !s.linkUp p || p != s.activePort) = true
  · exact if_pos hoff
  · refine (if_neg hoff).trans ?_
    simp only [State.ptpPort, Bool.or_eq_true, Bool.not_eq_true', Bool.and_eq_false_iff, bne_iff_ne, ne_eq, not_or, Bool.not_eq_false] at hoff
    obtain ⟨⟨⟨hbit, -⟩, hlink⟩, hact⟩ := hoff
    rcases h with h | h | h | ⟨rfl, h⟩ | ⟨hty, h⟩
    · exact absurd h (by simp [hbit])
    · exact absurd h (by simp [hlink])
    · exact absurd h (by simpa using hact)
    · exact (if_pos rfl).trans (if_neg (by simp [h]))
    · refine (if_neg hty).trans (if_neg ?_)
      rintro ⟨-, hm, hdue⟩
      simp [hm, hdue] at h

/-! ### The module bus (R285, R309) -/

theorem exec_i2cCmd_idle {v : Nat} (h : s.on NET.I2C_STAT_BUSY = false) : exec (.i2cCmd v) s =
    .next { s.put NET.I2C_STAT_BUSY 1 with net := { s.net with i2c := some (bits v 24 7, bitAt v 23, bits v 8 8, bits v 0 8) } } := if_neg (by simp [h])

/-- What I2C_STAT shows of a transaction that has ended. -/
def i2cWrites (ack read : Bool) (data : Nat) : List (Fld × Nat) :=
  [(NET.I2C_STAT_BUSY, 0), (NET.I2C_STAT_DONE, 1), (NET.I2C_STAT_NACK, if ack then 0 else 1)] ++ if read && ack then [(NET.I2C_STAT_DATA, data)] else []

theorem i2cWrites_apart (ack read : Bool) (data : Nat) : (i2cWrites ack read data).Pairwise fun a b => a.1.apart b.1 := by
  unfold i2cWrites
  cases read && ack <;> simp [Fld.apart, NET.I2C_STAT_BUSY, NET.I2C_STAT_DONE, NET.I2C_STAT_NACK, NET.I2C_STAT_DATA]

theorem exec_i2cDone {ack read : Bool} {data a r w : Nat} (h : s.net.i2c = some (a, read, r, w)) :
    exec (.i2cDone ack data) s = .next ({ s with net := { s.net with i2c := none } }.putAll (i2cWrites ack read data)) := by
  show execI2cDone ack data s = _
  simp only [execI2cDone, h, i2cWrites]
  split <;> rfl

end Sys2Proof.Machine

section
set_option Elab.async false
open Sys2Proof Sys2Proof.Machine

/-- Settles O60: what a command does of a port is a `State.NetStep`; received frames go by `State.counted` and `State.passed`, their handling by
`State.takeFrame_arp` and `State.takeFrame_ptp`, and what is sent joins its class by `State.NetStep.enqueue`. -/
theorem gatesShapersFiltersAndTheModuleBus : Obligations.GatesShapersFiltersAndTheModuleBus := by
  unfold Obligations.GatesShapersFiltersAndTheModuleBus
  refine ⟨?refused, ?committed, ?start, ?early, ?entry, ?shaper, ?filter, ?dropped, ?short, ?arp, ?sync, ?delayReq, ?master, ?slave, ?idle, ?i2c, ?i2cBusy,
    ?i2cDone⟩
  case refused =>
    intro s p hp hwait hok
    exact ⟨_, exec_gclCommit_refused hp hwait hok, State.get_put_same _ _ (Nat.le_of_ble_eq_true rfl), State.frame.rfl'.put _ (by simp)⟩
  case committed =>
    intro s p m hp hwait hok hm
    have hstep := ((State.NetStep.refl s p (ps := []) (fs := [NET.GCL_STAT_PENDING p, NET.GCL_STAT_SKIPPED p, NET.GCL_STAT_LATE p])).setPort
      (s.committedPort p m)).putAll (commitWrites p m) (by unfold commitWrites; split <;> simp)
    have hget : ∀ {f : Fld} {x : Nat}, (f, x) ∈ commitWrites p m → f.lo + f.w ≤ 32 →
        ((s.setPort p (s.committedPort p m)).putAll (commitWrites p m)).get f = x % 2 ^ f.w := State.get_putAll (commitWrites_apart p m)
    refine ⟨_, exec_gclCommit_accepted hp hwait hok hm, congrArg NetPort.pending hstep.port, congrArg NetPort.start hstep.port,
      (congrArg NetPort.oper hstep.port :), hget (x := 1) (by simp [commitWrites]) (Nat.le_of_ble_eq_true rfl), ?_, fun hne => ?_, hstep.others, hstep.frame⟩
    · refine (hget (x := min m 65535) (by simp [commitWrites]) (Nat.le_of_ble_eq_true rfl)).trans (Nat.mod_eq_of_lt ?_)
      show min m 65535 < 65536
      omega
    · exact hget (x := 1) (by simp [commitWrites, hne]) (Nat.le_of_ble_eq_true rfl)
  case start =>
    intro s p l hl hdue _
    have hput := (((s.account_step p).mono (gs := creditFields p ++ (startWrites p l).map (·.1)) fun _ hf => List.mem_append_left _ hf).setPort
      (s.startedPort p l)).putAll (startWrites p l) fun q hq => List.mem_append_right _ (List.mem_map_of_mem hq)
    have hget : ∀ {f : Fld} {x : Nat}, (f, x) ∈ startWrites p l → f.lo + f.w ≤ 32 →
        ((((s.account p).setPort p (s.startedPort p l)).putAll (startWrites p l)).showGates p).get f = x % 2 ^ f.w := fun hf hw =>
      ((State.frame_showGates _ p).get _ hw (by simp)).trans (State.get_putAll (startWrites_apart p l) hf hw)
    have hshow := (hput.also [.levels]).showGates (by simp) (by simp)
    refine ⟨_, exec_gclStart_due hl hdue, congrArg NetPort.oper hshow.port, congrArg NetPort.pending hshow.port,
      hget (x := 1) (by simp [startWrites]) (Nat.le_of_ble_eq_true rfl), hget (x := 0) (by simp [startWrites]) (Nat.le_of_ble_eq_true rfl),
      fun i hi => ⟨hget (mem_startWrites_gates p l hi) (Nat.le_of_ble_eq_true rfl), hget (mem_startWrites_interval p l hi) (Nat.le_of_ble_eq_true rfl)⟩,
      fun c hc => hput.showGates_levels (by simp) rfl rfl hc, fun c => (hshow.queue c).trans ((s.account_accounted p).queue c)⟩
  case early => exact fun s p h => ⟨_, exec_gclStart_early h, State.frame.rfl'⟩
  case entry =>
    intro s p l hp hoper hhold
    have hend := s.endHold_step hhold
    have hshow := (hend.also [.levels]).showGates (by simp) (by simp)
    have holds : (s.unheldPort p).oper = some l := (s.account_accounted p).oper.trans hoper
    exact ⟨_, exec_gateEntryChange hp, fun c hc => hend.showGates_levels (by simp) rfl holds hc, congrArg NetPort.hold hshow.port,
      (congrArg NetPort.oper hshow.port).trans holds, fun c => (hshow.queue c).trans ((s.account_accounted p).queue c), hshow.others, hshow.frame⟩
  case shaper =>
    intro s p c which v f hp hc hf hv
    have hw : f.lo + f.w ≤ 32 ∧ f.off % 16 ≠ 12 := by
      rcases hf with ⟨-, rfl⟩ | ⟨-, rfl⟩ | ⟨-, rfl⟩ <;> refine ⟨Nat.le_of_ble_eq_true rfl, ?_⟩ <;>
        simp only [NET.CBS_IDLE_VALUE, NET.CBS_IDLE, NET.CBS_HI_VALUE, NET.CBS_HI, NET.CBS_LO_VALUE, NET.CBS_LO] <;> omega
    obtain ⟨hw, hoff⟩ := hw
    have hstep := ((((s.account_step p).mono (gs := f :: creditFields p) fun _ hf => List.mem_cons_of_mem _ hf).setPort (s.uncreditedPort p c)).put v
      List.mem_cons_self).put 0 (List.mem_cons_of_mem _ (mem_creditFields hc))
    refine ⟨_, exec_cbsWrite hp hf, ?_, ?_, State.get_put_same _ _ (Nat.le_of_ble_eq_true rfl), fun d => (hstep.queue d).trans (s.uncreditedPort_queue p c d),
      hstep.others, hstep.frame⟩
    · rw [State.get_put_apart _ _ hw (.inl (creditFields_apart (.inr (.inr hoff)) _ (mem_creditFields hc))), State.get_put_same _ _ hw, Nat.mod_eq_of_lt hv]
    · rw [hstep.port, State.uncreditedPort, NetPort.cls_setCls]
  case filter =>
    intro s p f which v r hp _ hr hv
    rcases hr with ⟨rfl, rfl⟩ | hr
    · have hstep := (((s.account_step p).mono (gs := .whole (NET.PSF_CTL p f) :: creditFields p) fun _ hf => List.mem_cons_of_mem _ hf).keep
        (State.frame.rfl'.wr (BitVec.ofNat 32 (v % 128)) List.mem_cons_self) (by simp)).setPort (s.refilledPort p f)
      refine ⟨_, exec_psfWrite_ctl hp, ?_, hstep.bucket_refilled, fun d => (hstep.queue d).trans (s.refilledPort_queue p f d), hstep.others, hstep.frame⟩
      have hlt : v < 128 := hv
      rw [State.get_setPort, State.get, State.rd_wr_same, BitVec.toNat_ofNat, bits]
      show v % 128 % 2 ^ 32 / 2 ^ 0 % 2 ^ 7 = v
      omega
    · have hw : r.lo + r.w ≤ 32 := by rcases hr with ⟨-, rfl⟩ | ⟨-, rfl⟩ <;> exact Nat.le_of_ble_eq_true rfl
      have hstep := (((s.account_step p).mono (gs := r :: creditFields p) fun _ hf => List.mem_cons_of_mem _ hf).put v List.mem_cons_self).setPort
        (s.refilledPort p f)
      rw [if_neg (show which ≠ 0 by omega)]
      exact ⟨_, exec_psfWrite_rate hp hr, (State.get_setPort ..).trans ((State.get_put_same _ _ hw).trans (Nat.mod_eq_of_lt hv)), hstep.bucket_refilled,
        fun d => (hstep.queue d).trans (s.refilledPort_queue p f d), hstep.others, hstep.frame⟩
  case dropped =>
    intro s p f hl h
    have hstep := ((s.counted_step p).mono (gs := [NET.RX_FRAMES_COUNT p, NET.RX_DROPS_COUNT p] ++ creditFields p)
      (List.forall_mem_cons.2 ⟨by simp, fun _ hg => List.mem_append_right _ hg⟩)).bump (f := NET.RX_DROPS_COUNT p) (by simp)
    refine ⟨_, exec_rxFrame_dropped hl h, ?_, ?_, fun c => (hstep.queue c).trans (s.account_queue p c), hstep.frame⟩
    · rw [State.get_bump_apart _ (Nat.le_of_ble_eq_true rfl), State.counted_frames]
      exact .inl (by simp only [NET.RX_FRAMES_COUNT, NET.RX_FRAMES, NET.RX_DROPS_COUNT, NET.RX_DROPS]; omega)
    · rw [State.get_bump_same _ (Nat.le_of_ble_eq_true rfl), State.get_counted (Nat.le_of_ble_eq_true rfl) (.inr rfl)]
      rfl
  case short =>
    intro s p i f hl ⟨hgood, hlen, hbody⟩ hi h
    have hstep := ((s.counted_step p).mono (gs := [NET.RX_FRAMES_COUNT p, NET.PSF_DROP_COUNT p i] ++ creditFields p)
      (List.forall_mem_cons.2 ⟨by simp, fun _ hg => List.mem_append_right _ hg⟩)).bump (f := NET.PSF_DROP_COUNT p i) (by simp)
    refine ⟨_, exec_rxFrame_over hl ⟨hgood, hlen⟩ hbody hi h, ?_, ?_, ?_, fun c => (hstep.queue c).trans (s.account_queue p c), hstep.frame⟩
    · rw [State.get_bump_apart _ (Nat.le_of_ble_eq_true rfl), State.counted_frames]
      exact .inl (by simp only [NET.RX_FRAMES_COUNT, NET.RX_FRAMES, NET.PSF_DROP_COUNT, NET.PSF_DROP]; omega)
    · rw [State.get_bump_same _ (Nat.le_of_ble_eq_true rfl), State.get_counted (Nat.le_of_ble_eq_true rfl)]
      · rfl
      · exact .inl (by simp only [NET.PSF_DROP_COUNT, NET.PSF_DROP]; omega)
    · rw [← State.bucket_counted, State.bucket, State.bucket, State.get_bump_apart _ (Nat.le_of_ble_eq_true rfl), hstep.port, (s.counted_step p).port]
      exact .inl (by simp only [NET.PSF_CBS_BYTES, NET.PSF_CBS, NET.PSF_DROP_COUNT, NET.PSF_DROP]; omega)
  case arp =>
    intro s p i a f hl hgood hbody ⟨ha, hne⟩ hi h
    have hp := State.netPresent_lt (State.netPresent_of_linkUp hl)
    have hlt := State.filterFor_lt hi
    have hstep := s.passed_step p i f.len
    have hip : (s.passed p i f.len).ipv4 p = s.ipv4 p := congrArg BitVec.toNat (hstep.frame.rd (passFields_apart hp hlt (.inr (.inl rfl))))
    have htc : (s.passed p i f.len).get (NET.PORT_CFG_MGMT_TC p) = s.get (NET.PORT_CFG_MGMT_TC p) :=
      s.passed_get f.len hp hlt (Nat.le_of_ble_eq_true rfl) (.inl rfl)
    have hexec := (exec_rxFrame_passed hl hgood (by simp [hbody]) hi h).trans (congrArg Host.Outcome.next (State.takeFrame_arp hbody ⟨ha.trans hip.symm, hne⟩))
    rw [htc, hstep.frame.nowNs (by simp)] at hexec
    obtain ⟨hall, hqueue, -⟩ := hstep.enqueue (s.passed_queue p i f.len) (creditFields_subset_passFields p i) (by simp)
      (s.get (NET.PORT_CFG_MGMT_TC p)) (.reply 0) 64 s.nowNs false
    obtain ⟨hbucket, hlow⟩ := s.bucket_passed (len := f.len) hp hlt
    refine ⟨_, hexec, ?_, ?_, hqueue, hall.frame⟩
    · rw [((s.passed p i f.len).enqueue_step p _ _ _ _ _).frame.get _ (Nat.le_of_ble_eq_true rfl), s.passed_count p f.len hlt]
      refine fun g hg => .inl (creditFields_apart (.inr (.inl ?_)) g hg)
      simp only [NET.PSF_PASS_COUNT, NET.PSF_PASS]
      omega
    · rw [State.bucket_enqueue, State.bucket_account_again hlt hlow (s.passed_upto p i f.len), hbucket]
  case sync =>
    intro s p i id seq corr origin f hl hgood hbody hb ⟨hstat, hm⟩ hi h hp
    have hlt := State.filterFor_lt hi
    have hstep := (s.messaged_step p i f.len).also [.dater]
    have hd := s.messaged_sameDater f.len hp hlt
    have hexec := (exec_rxFrame_ptp hl hgood hbody hb hi h).trans (congrArg Host.Outcome.next
      (State.ptpIn_sync (by rw [hd.get _ (by decide) (by decide), hstat]) (by rw [State.messaged_servo, hm])))
    have hasym : (s.messaged p i f.len).portLat (DAT.PORT_ASYM_VALUE p) = s.portLat (DAT.PORT_ASYM_VALUE p) := hd.portLat _ (Nat.le_of_ble_eq_true rfl) (by
      simp only [DAT.PORT_ASYM_VALUE, DAT.PORT_ASYM]
      omega)
    rw [State.messaged_servo, hd.ingress, hasym] at hexec
    have hset := hstep.setServo { s.servo with sync := some (seq, s.ingress p - corr - s.portLat (DAT.PORT_ASYM_VALUE p)), down := none }
      (List.mem_singleton.2 rfl) (by simp)
    exact ⟨_, hexec, (State.get_setServo ..).trans (s.messaged_source p i f.len), State.servo_setServo ..,
      fun c => (hset.queue c).trans (s.passed_queue p i f.len c), hset.frame⟩
  case delayReq =>
    intro s p i id seq f hl hgood hbody hb ⟨hm, ha⟩ hi h hp
    have hlt := State.filterFor_lt hi
    have hstep := s.messaged_step p i f.len
    have hd := s.messaged_sameDater f.len hp hlt
    have hexec := (exec_rxFrame_ptp hl hgood hbody hb hi h).trans (congrArg Host.Outcome.next
      (State.ptpIn_delayReq (by rw [hd.isMaster (s.messaged_servo p i f.len), hm]) (by rw [hd.activePort, ← ha])))
    rw [hd.ingress] at hexec
    have htc : (s.messaged p i f.len).get (NET.PORT_CFG_PTP_TC p) = s.get (NET.PORT_CFG_PTP_TC p) :=
      hstep.frame.get _ (Nat.le_of_ble_eq_true rfl) fun g hg => .inl (messageFields_apart hp hlt (.inl rfl) g hg)
    obtain ⟨hqueue, hframe⟩ := hstep.sendPtp (s.passed_queue p i f.len) (creditFields_subset_messageFields p i) (by simp) hd htc 9 seq (some (s.ingress p)) (some id)
    refine ⟨_, hexec, ?_, hqueue, hframe⟩
    refine (((s.messaged p i f.len).enqueue_step ..).frame.get _ (Nat.le_of_ble_eq_true rfl) fun g hg => .inl (creditFields_apart (.inl ?_) g hg)).trans
      (s.messaged_source p i f.len)
    have := srcPending_netPort_lt hp
    omega
  case master =>
    intro s p ty hb hl hty hm ⟨ha, hdue⟩
    exact ⟨_, exec_ptpSendTimer_master hb hl hty hm ha hdue, State.timerSent_spec _ ty _⟩
  case slave =>
    intro s p m hb hl hm hstat
    exact ⟨_, exec_ptpSendTimer_slave hb hl hm hstat, State.timerSent_spec _ 1 _⟩
  case idle => exact fun s p ty h => ⟨_, exec_ptpSendTimer_idle h, State.frame.rfl'⟩
  case i2c =>
    intro s v h
    refine ⟨_, exec_i2cCmd_idle h, State.get_put_same s 1 (by decide), rfl, rfl, (State.frame.rfl'.put 1 (by simp)).net _ (by simp)⟩
  case i2cBusy => exact fun s v h => ⟨_, if_pos h, State.frame.rfl'⟩
  case i2cDone =>
    intro s ack data a r w read h hdata
    have hget : ∀ {f : Fld} {x : Nat}, (f, x) ∈ i2cWrites ack read data → f.lo + f.w ≤ 32 →
        ({ s with net := { s.net with i2c := none } }.putAll (i2cWrites ack read data)).get f = x % 2 ^ f.w := State.get_putAll (i2cWrites_apart ack read data)
    have hput := State.frame_putAll { s with net := { s.net with i2c := none } } (i2cWrites ack read data)
    have hnet : _ = _ := hput.1 .net (by simp)
    refine ⟨_, exec_i2cDone h, congrArg Net.i2c hnet, (congrArg Net.ports hnet :), hget (x := 0) (by simp [i2cWrites]) (by decide),
      hget (x := 1) (by simp [i2cWrites]) (by decide), ?_, ?_, ?_⟩
    · refine (hget (x := if ack then 0 else 1) (by simp [i2cWrites]) (by decide)).trans ?_
      cases ack <;> rfl
    · split
      case isTrue hra =>
        exact (hget (x := data) (by simp [i2cWrites, hra]) (by decide)).trans (Nat.mod_eq_of_lt hdata)
      case isFalse hra =>
        refine (hput.get _ (by decide) ?_).trans rfl
        simp [i2cWrites, hra, Fld.apart, NET.I2C_STAT_BUSY, NET.I2C_STAT_DONE, NET.I2C_STAT_NACK, NET.I2C_STAT_DATA]
    · refine (State.frame.rfl'.net _ (by simp)).trans (hput.mono (by simp) ?_)
      unfold i2cWrites
      cases read && ack <;> simp

end

/-! ### Pictures keep their readers as their slips are written (R163, R200, R232) -/

namespace Sys2Proof.Machine
set_option Elab.async false

variable {s t u : State} {l l' l'' : List Pic} {n d k num who : Nat} {ps : List Part} {fs : List Fld}

/-- What becomes of a list of pictures as slips are written and spent pictures go: every picture has the readers of one of its number before, and one that is
found and has readers is still found, with the same. -/
structure ReadersKept (l l' : List Pic) : Prop where
  each : ∀ q' ∈ l', ∃ q ∈ l, q.num = q'.num ∧ q.readers = q'.readers
  found : ∀ num q, l.find? (·.num == num) = some q → q.readers ≠ [] → ∃ q', l'.find? (·.num == num) = some q' ∧ q'.readers = q.readers

theorem ReadersKept.refl (l : List Pic) : ReadersKept l l := ⟨fun q hq => ⟨q, hq, rfl, rfl⟩, fun _ q hq _ => ⟨q, hq, rfl⟩⟩

theorem ReadersKept.trans (h : ReadersKept l l') (g : ReadersKept l' l'') : ReadersKept l l'' := by
  refine ⟨fun q'' hq'' => ?_, fun num q hq hne => ?_⟩
  · obtain ⟨q', hq', hnum', hread'⟩ := g.each q'' hq''
    obtain ⟨q, hq, hnum, hread⟩ := h.each q' hq'
    exact ⟨q, hq, hnum.trans hnum', hread.trans hread'⟩
  · obtain ⟨q', hq', hread⟩ := h.found num q hq hne
    obtain ⟨q'', hq'', hread'⟩ := g.found num q' hq' (by rwa [hread])
    exact ⟨q'', hq'', hread'.trans hread⟩

/-- Pictures of other numbers are found as before where one is replaced. -/
theorem find_pic_map_ne {q : Pic} (h : num ≠ q.num) (l : List Pic) :
    (l.map fun y => if y.num = q.num then q else y).find? (·.num == num) = l.find? (·.num == num) := by
  induction l with
  | nil => rfl
  | cons y l ih =>
    rw [List.map_cons, List.find?_cons, List.find?_cons, ih]
    by_cases hy : y.num = q.num
    · rw [if_pos hy, hy, beq_eq_false_iff_ne.2 h.symm]
    · rw [if_neg hy]

theorem ReadersKept.replace {p q : Pic} (hp : l.find? (·.num == p.num) = some p) (hnum : q.num = p.num) (hread : q.readers = p.readers) :
    ReadersKept l (l.map fun y => if y.num = q.num then q else y) := by
  refine ⟨fun q' hq' => ?_, fun num r hr hne => ?_⟩
  · obtain ⟨y, hy, rfl⟩ := List.mem_map.1 hq'
    split
    · exact ⟨p, List.mem_of_find?_eq_some hp, hnum.symm, hread.symm⟩
    · exact ⟨y, hy, rfl, rfl⟩
  · by_cases h : num = q.num
    · subst h
      rw [hnum, hp, Option.some_inj] at hr
      exact ⟨q, find_pic_map rfl (hnum ▸ hp), by rw [hread, hr]⟩
    · exact ⟨r, (find_pic_map_ne h l).trans hr, rfl⟩

/-- Spent pictures have no readers. -/
theorem ReadersKept.spent (l : List Pic) : ReadersKept l (l.filter fun p => !p.spent) := by
  refine ⟨fun q hq => ⟨q, List.mem_of_mem_filter hq, rfl, rfl⟩, fun num q hq hne => ⟨q, ?_, rfl⟩⟩
  have hstays : (!q.spent) = true := by simp [Pic.spent, hne]
  induction l with
  | nil => cases hq
  | cons y l ih =>
    by_cases hy : y.num = num
    · rw [List.find?_cons_of_pos (by simpa using hy), Option.some_inj] at hq
      rw [hq, List.filter_cons_of_pos (p := fun p : Pic => !p.spent) hstays]
      exact List.find?_cons_of_pos (by simpa [hq] using hy)
    · rw [List.find?_cons_of_neg (by simpa using hy)] at hq
      by_cases hs : (!y.spent) = true
      · rw [List.filter_cons_of_pos (p := fun p : Pic => !p.spent) hs, List.find?_cons_of_neg (by simpa using hy), ih hq]
      · rw [List.filter_cons_of_neg (p := fun p : Pic => !p.spent) hs, ih hq]

/-- From s to t slips have been written and spent pictures have gone: the ports are the same, and so is every register in the fourth word of its group of 16
bytes, where no ring and no vector has one that is written. -/
structure State.Settled (s t : State) : Prop where
  net : t.net = s.net
  get : ∀ f : Fld, f.lo + f.w ≤ 32 → f.off % 16 = 12 → t.get f = s.get f
  readers : ∀ d, ReadersKept (s.stream d).pics (t.stream d).pics

namespace State.Settled

theorem refl (s : State) : s.Settled s := ⟨rfl, fun _ _ _ => rfl, fun _ => .refl _⟩

theorem trans (h : s.Settled t) (g : t.Settled u) : s.Settled u :=
  ⟨g.net.trans h.net, fun f hw hf => (g.get f hw hf).trans (h.get f hw hf), fun d => (h.readers d).trans (g.readers d)⟩

theorem of_frame (h : s.frame t ps fs) (hn : .net ∉ ps) (hs : .streams ∉ ps) (hf : ∀ g ∈ fs, g.off % 16 ≠ 12) : s.Settled t :=
  ⟨h.1 .net hn, fun f hw ho => h.get f hw fun g hg => .inl fun e => hf g hg (e ▸ ho), fun d => by rw [State.stream_of_streams (h.1 .streams hs)]; exact .refl _⟩

theorem setStream {x : Stream} (h : ReadersKept (s.stream n).pics x.pics) : s.Settled (s.setStream n x) := by
  refine ⟨rfl, fun _ _ _ => rfl, fun d => ?_⟩
  by_cases hd : d = n
  · subst hd
    rwa [State.stream_setStream]
  · rw [State.stream_setStream_ne _ _ hd]
    exact .refl _

theorem onPic {f : Pic → Pic} (hnum : ∀ q, (f q).num = q.num) (hread : ∀ q, (f q).readers = q.readers) : s.Settled (s.onPic n num f) := by
  cases h : (s.stream n).pic num with
  | none =>
    rw [State.onPic, h]
    exact .refl s
  | some p =>
    rw [State.onPic_of h]
    exact .setStream (.replace ((Stream.pic_num h).symm ▸ h) (hnum p) (hread p))

theorem finish (s : State) (n : Nat) (v : Taken) (st x : Nat) (w : List Nat) : s.Settled (s.finish n v st x w) := by
  have hv := s.vector_lt n
  refine .of_frame (s.frame_finish n v st x w) (by rw [State.complParts]; split <;> simp) (by rw [State.complParts]; split <;> simp) ?_
  rw [State.complFields]
  refine List.forall_mem_cons.2 ⟨by simp only [HIF.RP_STAT_BUSY, HIF.RP_STAT]; omega, ?_⟩
  split
  · simp
  · simp only [vectorBits, HIF.VEC_PEND, HIF.MSIX_PBA, List.forall_mem_cons, List.not_mem_nil, false_imp_iff, implies_true, and_true]
    omega

theorem streamEvent (s : State) (n st kind extra : Nat) (w : List Nat) : s.Settled (s.streamEvent n st kind extra w) := by
  refine .of_frame (State.frame.rfl'.streamEvent (ps := [.rings]) (fs := [HIF.RP_RQ_STAT_PENDING (s.stream n).eventRing, HIF.EVT_LOST_COUNT]) n st kind extra w
    (by simp) (by simp) (by simp)) (by simp) (by simp) ?_
  simp only [HIF.RP_RQ_STAT_PENDING, HIF.RP_RQ_STAT, HIF.EVT_LOST_COUNT, HIF.EVT_LOST, List.forall_mem_cons, List.not_mem_nil, false_imp_iff, implies_true, and_true]
  omega

theorem foldl {α : Type} {g : State → α → State} (hg : ∀ (t : State) x, t.Settled (g t x)) (l : List α) (s : State) : s.Settled (l.foldl g s) := by
  induction l generalizing s with
  | nil => exact .refl s
  | cons x l ih => exact (hg s x).trans (ih _)

theorem picSlip (s : State) (n : Nat) (p : Pic) : s.Settled (s.picSlip n p) := by
  have hdone : s.Settled (s.onPic n p.num fun q => { q with slipWritten := true }) := .onPic (fun _ => rfl) fun _ => rfl
  unfold State.picSlip
  extract_lets x w extra done
  split
  · exact .refl s
  · split
    · split
      · extract_lets cap st
        split
        · exact hdone.trans (.finish ..)
        · exact .refl s
      · exact hdone
    · split
      · exact .refl s
      · split
        · exact hdone.trans (.streamEvent ..)
        · exact hdone

theorem settle (s : State) (n : Nat) : s.Settled (s.settle n) := by
  refine (Settled.foldl (fun t p => ?_) (s.stream n).pics s).trans (.setStream (.spent _))
  split
  · exact .picSlip ..
  · exact .refl t

theorem firstPacket (s : State) (d num : Nat) (time : Option Nat) : s.Settled (s.firstPacket d num time) := by
  unfold State.firstPacket
  split
  · refine (Settled.onPic (fun q => ?_) fun q => ?_).trans (.settle ..)
    · repeat' split
      all_goals rfl
    · repeat' split
      all_goals rfl
  · exact .refl s

end State.Settled

/-! ### A flow lets go of its pictures (R232, R296) -/

/-- What holds of the readers of every picture of a number in a stream. -/
def State.eachReads (s : State) (d num : Nat) (P : List Nat → Prop) : Prop := ∀ q ∈ (s.stream d).pics, q.num = num → P q.readers

theorem State.Settled.eachReads {P : List Nat → Prop} (h : s.Settled t) (hs : s.eachReads d num P) : t.eachReads d num P := fun q' hq' hnum' => by
  obtain ⟨q, hq, hnum, hread⟩ := (h.readers d).each q' hq'
  exact hread ▸ hs q hq (hnum.trans hnum')

theorem State.eachReads.pic {P : List Nat → Prop} {q : Pic} (h : s.eachReads d num P) (hq : (s.stream d).pic num = some q) : P q.readers :=
  h q (List.mem_of_find?_eq_some hq) (Stream.pic_num hq)

/-- A reader's picture before its slip is written. -/
def State.unread (s : State) (n num who : Nat) : State := s.onPic n num fun q => { q with readers := q.readers.erase who }

theorem State.dropReader_unread (s : State) (n num who : Nat) : (s.unread n num who).Settled (s.dropReader n num who) := .settle ..

theorem State.unread_of {p : Pic} (h : (s.stream n).pic num = some p) :
    s.unread n num who = s.setStream n ((s.stream n).setPic { p with readers := p.readers.erase who }) := State.onPic_of h _

theorem State.unread_none (h : (s.stream n).pic num = none) : s.unread n num who = s := by rw [State.unread, State.onPic, h]

theorem State.unread_frame (s : State) (n num who : Nat) : s.frame (s.unread n num who) [.streams] [] := State.frame.rfl'.onPic _ _ _ (by simp)

/-- Letting go of a picture keeps the ports, and the registers that settling keeps. -/
theorem State.dropReader_net (s : State) (n num who : Nat) : (s.dropReader n num who).net = s.net :=
  (s.dropReader_unread n num who).net.trans ((s.unread_frame n num who).1 .net (by simp))

theorem State.dropReader_get (s : State) (n num who : Nat) {f : Fld} (hw : f.lo + f.w ≤ 32) (hf : f.off % 16 = 12) : (s.dropReader n num who).get f = s.get f :=
  ((s.dropReader_unread n num who).get f hw hf).trans ((s.unread_frame n num who).get f hw (by simp))

/-- Every picture of the number is without the reader that its first one has lost. -/
theorem State.dropReader_same {p : Pic} (h : (s.stream n).pic num = some p) :
    (s.dropReader n num who).eachReads n num fun r => r = p.readers.erase who := by
  refine (s.dropReader_unread n num who).eachReads ?_
  rw [State.unread_of h]
  intro q hq hnum
  rw [State.stream_setStream] at hq
  obtain ⟨y, -, rfl⟩ := List.mem_map.1 hq
  by_cases hy : y.num = p.num
  · rw [if_pos hy]
  · rw [if_neg hy] at hnum
    exact absurd (hnum.trans (Stream.pic_num h).symm) hy

/-- A picture that does not have the reader does not get it. -/
theorem State.dropReader_absent {who' : Nat} (h : s.eachReads n k fun r => who ∉ r) : (s.dropReader n num who').eachReads n k fun r => who ∉ r := by
  refine (s.dropReader_unread n num who').eachReads ?_
  cases hp : (s.stream n).pic num with
  | none => rwa [State.unread_none hp]
  | some p =>
    rw [State.unread_of hp]
    intro q hq hnum
    rw [State.stream_setStream] at hq
    obtain ⟨y, hy, rfl⟩ := List.mem_map.1 hq
    by_cases hn : y.num = p.num
    · rw [if_pos hn] at hnum ⊢
      exact fun hm => h p (List.mem_of_find?_eq_some hp) hnum (List.mem_of_mem_erase hm)
    · rw [if_neg hn] at hnum ⊢
      exact h y hy hnum

/-- A picture of another number that has readers keeps them. -/
theorem State.dropReader_found {q : Pic} (hk : k ≠ num) (h : (s.stream n).pic k = some q) (hne : q.readers ≠ []) :
    ∃ q', ((s.dropReader n num who).stream n).pic k = some q' ∧ q'.readers = q.readers := by
  refine ((s.dropReader_unread n num who).readers n).found k q ?_ hne
  cases hp : (s.stream n).pic num with
  | none => rwa [State.unread_none hp]
  | some p =>
    rw [State.unread_of hp, State.stream_setStream]
    exact (find_pic_map_ne (by rw [Stream.pic_num hp]; exact hk) _).trans h

section PassOver
variable {v : Flow}

/-- The first packet's fate is told before a flow lets go of a picture. -/
theorem State.passOver_eq (s : State) (v : Flow) (num : Nat) :
    ∃ u, s.Settled u ∧ s.passOver v num = u.dropReader v.stream num (256 + v.path) := by
  by_cases hp : v.path = 0
  · exact ⟨_, .firstPacket s v.stream num none, by rw [State.passOver, if_pos hp]; rfl⟩
  · exact ⟨s, .refl s, by rw [State.passOver, if_neg hp]; rfl⟩

theorem State.passOver_net (s : State) (v : Flow) (num : Nat) : (s.passOver v num).net = s.net := by
  obtain ⟨u, hu, h⟩ := s.passOver_eq v num
  rw [h, State.dropReader_net, hu.net]

theorem State.passOver_get (s : State) (v : Flow) (num : Nat) {f : Fld} (hw : f.lo + f.w ≤ 32) (hf : f.off % 16 = 12) : (s.passOver v num).get f = s.get f := by
  obtain ⟨u, hu, h⟩ := s.passOver_eq v num
  rw [h, State.dropReader_get _ _ _ _ hw hf, hu.get f hw hf]

theorem State.passOver_absent (h : s.eachReads v.stream k fun r => who ∉ r) : (s.passOver v num).eachReads v.stream k fun r => who ∉ r := by
  obtain ⟨u, hu, heq⟩ := s.passOver_eq v num
  rw [heq]
  exact State.dropReader_absent (hu.eachReads h)

/-- The picture loses the flow, where it had it once. -/
theorem State.passOver_gone {q : Pic} (h : (s.stream v.stream).pic num = some q) (hone : q.readers.count (256 + v.path) = 1) :
    (s.passOver v num).eachReads v.stream num fun r => 256 + v.path ∉ r := by
  obtain ⟨u, hu, heq⟩ := s.passOver_eq v num
  obtain ⟨q', hq', hread⟩ := (hu.readers v.stream).found num q h fun he => by simp [he] at hone
  rw [heq]
  intro r hr hnum
  rw [State.dropReader_same hq' r hr hnum, hread, ← List.count_eq_zero, List.count_erase_self, hone]

theorem State.passOver_found {q : Pic} (hk : k ≠ num) (h : (s.stream v.stream).pic k = some q) (hne : q.readers ≠ []) :
    ∃ q', ((s.passOver v num).stream v.stream).pic k = some q' ∧ q'.readers = q.readers := by
  obtain ⟨u, hu, heq⟩ := s.passOver_eq v num
  obtain ⟨r, hr, hread⟩ := (hu.readers v.stream).found k q h hne
  obtain ⟨q', hq', hread'⟩ := State.dropReader_found (num := num) (who := 256 + v.path) hk hr (by rwa [hread])
  exact ⟨q', by rw [heq, hq'], hread'.trans hread⟩

/-- A picture is passed over at an alignment point, which is counted in the field c (R296). -/
def State.dropPeriod (v : Flow) (c : Fld) (s : State) (num : Nat) : State := (s.passOver v num).bump c

theorem satAdd_satAdd (w x a b : Nat) : satAdd w (satAdd w x a) b = satAdd w x (a + b) := by
  have := Nat.two_pow_pos w
  unfold satAdd
  split <;> split <;> split <;> omega

/-- Pictures passed over leave the ports alone, and each is counted. -/
theorem State.dropPeriods_spec (v : Flow) {c : Fld} (hw : c.lo + c.w ≤ 32) (hc : c.off % 16 = 12) (l : List Nat) (s : State) :
    (l.foldl (State.dropPeriod v c) s).net = s.net ∧ (l.foldl (State.dropPeriod v c) s).get c = satAdd c.w (s.get c) l.length := by
  induction l generalizing s with
  | nil =>
    refine ⟨rfl, ?_⟩
    rw [List.foldl_nil, List.length_nil, satAdd, if_pos (by have := s.get_lt c; omega), Nat.add_zero]
  | cons n l ih =>
    obtain ⟨hnet, hget⟩ := ih (State.dropPeriod v c s n)
    refine ⟨hnet.trans ((State.bump_net ..).trans (s.passOver_net v n)), hget.trans ?_⟩
    rw [State.dropPeriod, State.get_bump_same _ hw, s.passOver_get v n hw hc, satAdd_satAdd, List.length_cons, Nat.add_comm]

theorem State.eachReads_bump {P : List Nat → Prop} (h : s.eachReads d num P) (c : Fld) : (s.bump c).eachReads d num P := by
  rw [State.eachReads, State.stream_of_streams (State.bump_streams ..)]
  exact h

theorem State.dropPeriods_absent {c : Fld} (l : List Nat) (h : s.eachReads v.stream num fun r => who ∉ r) :
    (l.foldl (State.dropPeriod v c) s).eachReads v.stream num fun r => who ∉ r := by
  induction l generalizing s with
  | nil => exact h
  | cons n l ih => exact ih (State.eachReads_bump (State.passOver_absent h) c)

/-- Each of the pictures passed over loses the flow, where it had it once. -/
theorem State.dropPeriods_gone {c : Fld} {l : List Nat} {q : Pic} (hmem : num ∈ l) (h : (s.stream v.stream).pic num = some q)
    (hone : q.readers.count (256 + v.path) = 1) : (l.foldl (State.dropPeriod v c) s).eachReads v.stream num fun r => 256 + v.path ∉ r := by
  induction l generalizing s q with
  | nil => cases hmem
  | cons n l ih =>
    by_cases hn : num = n
    · subst hn
      exact State.dropPeriods_absent l (State.eachReads_bump (State.passOver_gone h hone) c)
    · obtain ⟨q', hq', hread⟩ := State.passOver_found (v := v) hn h fun he => by simp [he] at hone
      refine ih ((List.mem_cons.1 hmem).resolve_left hn) (q := q') ?_ (by rw [hread, hone])
      rw [State.dropPeriod, State.stream_of_streams (State.bump_streams ..), hq']

end PassOver

end Sys2Proof.Machine

/-! ### Alignment points of a flow (R296) -/

namespace Sys2Proof.Machine
set_option Elab.async false

variable {s t u : State} {p f k num : Nat} {v v' : Flow} {w : NetP} {q : Pic} {pkt : List Byte × Bool} {o : Option Flow}

/-- The port with flow slot f holding o. -/
def State.flowPort (s : State) (p f : Nat) (o : Option Flow) : NetPort := { s.port p with flows := Tab.set (fun _ => none) (s.port p).flows f o }

theorem State.setFlow_step (s : State) (p f : Nat) (o : Option Flow) : s.NetStep (s.setFlow p f o) p (s.flowPort p f o) [] [] :=
  (State.NetStep.refl s p).setPort _

theorem State.flowPort_flow (s : State) (p f : Nat) (o : Option Flow) : (s.flowPort p f o).flow f = o := Tab.get_set_same ..

theorem State.flowPort_flow_ne {i : Nat} (h : i ≠ f) : (s.flowPort p f o).flow i = s.flow p i := Tab.get_set_other _ _ _ h

/-- A flow that has gone on to alignment point k with picture num. -/
def Flow.chose (v : Flow) (k num : Nat) : Flow := { v with period := k, sending := v.sending ++ [(k, num)], nextPic := num + 1 }

/-- The pictures that are passed over where one is chosen. -/
def Stream.passedOver (x : Stream) (v : Flow) (num : Nat) : List Nat := (x.pics.filter fun r => decide (v.nextPic ≤ r.num ∧ r.num < num)).map (·.num)

theorem Stream.passedOver_nil {x : Stream} (h : (x.pics.all fun r => !(decide (v.nextPic ≤ r.num ∧ r.num < num))) = true) : x.passedOver v num = [] := by
  rw [Stream.passedOver, List.filter_eq_nil_iff.2, List.map_nil]
  intro r hr
  have hall := List.all_eq_true.1 h r hr
  simpa only [Bool.not_eq_true', decide_eq_true_eq, decide_eq_false_iff_not] using hall

section Point
variable (hf : s.flow p f = some v) (hw : (s.stream v.stream).secs.network = some w) (hm : w.media = 0 ∧ v.closing = false)
  (hk : s.periodOf (s.stream v.stream) = k) (hp : v.period < k)
include hf hw hm hk hp

/-- At a point that it has passed a flow chooses among the pictures that are fit. -/
theorem exec_alignmentPoint_passed : exec (.alignmentPoint p f) s = .next (match (s.fitAt v w k).getLast? with
    | none => (s.setFlow p f (some { v with period := k })).bump (NET.FLOW_PERIODS_SKIPPED p f)
    | some q => ((s.stream v.stream).passedOver v q.num).foldl (State.dropPeriod v (NET.FLOW_PERIODS_DROPPED p f)) (s.setFlow p f (some (v.chose k q.num)))) := by
  obtain ⟨hmedia, hopen⟩ := hm
  show execAlignmentPoint p f s = _
  simp only [execAlignmentPoint, hf, hw, hk]
  rw [if_neg (by rw [hmedia, hopen]; simp; omega), ← State.fitAt]
  cases (s.fitAt v w k).getLast? with
  | none => rfl
  | some q => rfl

theorem exec_alignmentPoint_chosen (hq : (s.fitAt v w k).getLast? = some q) : exec (.alignmentPoint p f) s =
    .next (((s.stream v.stream).passedOver v q.num).foldl (State.dropPeriod v (NET.FLOW_PERIODS_DROPPED p f)) (s.setFlow p f (some (v.chose k q.num)))) := by
  rw [exec_alignmentPoint_passed hf hw hm hk hp, hq]

theorem exec_alignmentPoint_skipped (hq : s.fitAt v w k = []) : exec (.alignmentPoint p f) s =
    .next ((s.setFlow p f (some { v with period := k })).bump (NET.FLOW_PERIODS_SKIPPED p f)) := by
  rw [exec_alignmentPoint_passed hf hw hm hk hp, hq]
  rfl

end Point

theorem exec_alignmentPoint_waits (hf : s.flow p f = some v) (hk : s.periodOf (s.stream v.stream) ≤ v.period) : exec (.alignmentPoint p f) s = .next s := by
  show execAlignmentPoint p f s = _
  simp only [execAlignmentPoint, hf]
  cases (s.stream v.stream).secs.network with
  | none => rfl
  | some w => exact if_pos (.inr (.inl hk))

theorem flowPeriods_word (p f : Nat) : (NET.FLOW_PERIODS_DROPPED p f).off % 16 = 12 := by
  simp only [NET.FLOW_PERIODS_DROPPED, NET.FLOW_PERIODS]
  omega

/-- One reader of a picture is counted once where the filter finds it once. -/
theorem count_of_filter_length {l : List Nat} {who : Nat} (h : (l.filter fun z => z == who).length = 1) : l.count who = 1 := by
  rwa [List.count, List.countP_eq_length_filter]

/-! ### Packets of a flow (R294 to R297) -/

/-- A packet's frame joins the queue of its class, or, with the link down, is dropped and counted. -/
def State.packetOut (s : State) (p f : Nat) (v : Flow) (w : NetP) (q : Pic) (due : Nat) (late : Bool) (pkt : List Byte × Bool) : State :=
  let t := s.setFlow p f (some (v.after pkt.2 s.nowNs pkt.1.length))
  let fr := s.mediaFrame f v w q due late pkt
  if s.linkUp p then t.enqueue p w.tc fr.body (58 + w.extra + ((if w.media = 0 then beBytes 2 (v.seq / 65536) else []) ++ pkt.1).length) due late
  else (t.neverSent p fr.body).bump (NET.TX_DROPS_COUNT p)

/-- The flow lets go of a picture with the packet that ends it. -/
theorem State.sendPacket_eq (s : State) (p f : Nat) (v : Flow) (w : NetP) (q : Pic) (due : Nat) (late : Bool) (pkt : List Byte × Bool) :
    s.sendPacket p f v w q due late pkt =
      if pkt.2 then (s.packetOut p f v w q due late pkt).dropReader v.stream q.num (256 + v.path) else s.packetOut p f v w q due late pkt := rfl

theorem State.sendPacket_more (hlast : pkt.2 = false) (due : Nat) (late : Bool) :
    s.sendPacket p f v w q due late pkt = s.packetOut p f v w q due late pkt := by
  rw [State.sendPacket_eq, if_neg (by simp [hlast])]

theorem State.sendPacket_last (hlast : pkt.2 = true) (due : Nat) (late : Bool) :
    s.sendPacket p f v w q due late pkt = (s.packetOut p f v w q due late pkt).dropReader v.stream q.num (256 + v.path) := by
  rw [State.sendPacket_eq, if_pos hlast]

/-- With the link down a packet that is not its picture's first is only counted. -/
theorem State.packetOut_down (hl : s.linkUp p = false) (hj : v.j ≠ 0) (due : Nat) (late : Bool) : s.packetOut p f v w q due late pkt =
    (s.setFlow p f (some (v.after pkt.2 s.nowNs pkt.1.length))).bump (NET.TX_DROPS_COUNT p) := by
  have hleads : ∀ t : State, (s.mediaFrame f v w q due late pkt).body.leads t p = none := fun t => by
    obtain ⟨j, hj⟩ := Nat.exists_eq_succ_of_ne_zero hj
    rw [State.mediaFrame, hj]
    rfl
  refine (if_neg (by simp [hl]) : s.packetOut p f v w q due late pkt = _).trans ?_
  rw [State.neverSent, hleads]

/-- The flow and the queues once a packet's frame has joined its class. -/
theorem State.packetOut_up (hl : s.linkUp p = true) (due : Nat) (late : Bool) :
    (s.packetOut p f v w q due late pkt).flow p f = some (v.after pkt.2 s.nowNs pkt.1.length) ∧
    (s.packetOut p f v w q due late pkt).netQueue p w.tc = s.netQueue p w.tc ++ [s.mediaFrame f v w q due late pkt] ∧
    (∀ c, c ≠ w.tc → (s.packetOut p f v w q due late pkt).netQueue p c = s.netQueue p c) ∧
    (∀ i, i ≠ f → (s.packetOut p f v w q due late pkt).flow p i = s.flow p i) ∧ (∀ i, i ≠ p → (s.packetOut p f v w q due late pkt).port i = s.port i) ∧
    s.frame (s.packetOut p f v w q due late pkt) [.net] (creditFields p) := by
  have hset := s.setFlow_step p f (some (v.after pkt.2 s.nowNs pkt.1.length))
  obtain ⟨hstep, hqueue, hothers⟩ := (hset.mono (gs := creditFields p) (by simp)).enqueue (fun _ => rfl) (fun _ hg => hg) (by simp) w.tc
    (s.mediaFrame f v w q due late pkt).body (58 + w.extra + ((if w.media = 0 then beBytes 2 (v.seq / 65536) else []) ++ pkt.1).length) due late
  have hflow := fun i => (hstep.flow i).trans ((State.joined_flow ..).trans (hset.flow i))
  rw [State.packetOut, if_pos hl]
  exact ⟨(hflow f).trans (s.flowPort_flow p f _), hqueue, hothers, fun i hi => (hflow i).trans (State.flowPort_flow_ne hi), hstep.others, hstep.frame⟩

section Release
variable (hf : s.flow p f = some v) (hw : (s.stream v.stream).secs.network = some w)
include hf hw

/-- The packet in turn of a -20 flow's picture goes once it is due and its data is there (R295, R296). -/
theorem exec_packetRelease_timed {l : List (Nat × Nat)} (hm : w.media = 0) (hs : v.sending = (k, num) :: l) (hq : (s.stream v.stream).pic num = some q) :
    exec (.packetRelease p f) s =
      if s.nowNs < (s.stream v.stream).dueAt w k v.j then .next s
      else match (s.stream v.stream).packetAt w q v.j with
        | none => .next s
        | some pkt => .next (s.sendPacket p f v w q ((s.stream v.stream).dueAt w k v.j)
            (decide (4 * (s.ticks - q.writtenTick ((s.stream v.stream).packetSpan v.j).2) < s.nowNs - (s.stream v.stream).dueAt w k v.j)) pkt) := by
  show execPacketRelease p f s = _
  simp only [execPacketRelease, hf, hw, hs, hq]
  exact (if_pos hm).trans rfl

theorem exec_packetRelease_due {l : List (Nat × Nat)} (hm : w.media = 0) (hs : v.sending = (k, num) :: l) (hq : (s.stream v.stream).pic num = some q)
    (hdue : (s.stream v.stream).dueAt w k v.j ≤ s.nowNs) (hpkt : (s.stream v.stream).packetAt w q v.j = some pkt) :
    exec (.packetRelease p f) s = .next (s.sendPacket p f v w q ((s.stream v.stream).dueAt w k v.j)
      (decide (4 * (s.ticks - q.writtenTick ((s.stream v.stream).packetSpan v.j).2) < s.nowNs - (s.stream v.stream).dueAt w k v.j)) pkt) := by
  rw [exec_packetRelease_timed hf hw hm hs hq, if_neg (Nat.not_lt.2 hdue), hpkt]

theorem exec_packetRelease_waits {l : List (Nat × Nat)} (hm : w.media = 0) (hs : v.sending = (k, num) :: l) (hq : (s.stream v.stream).pic num = some q)
    (h : s.nowNs < (s.stream v.stream).dueAt w k v.j ∨ (s.stream v.stream).packetAt w q v.j = none) : exec (.packetRelease p f) s = .next s := by
  rw [exec_packetRelease_timed hf hw hm hs hq]
  rcases h with h | h
  · exact if_pos h
  · rw [h]
    exact ite_self _

/-- A -22 flow with nothing in hand takes up the next picture with something released (R297). -/
theorem exec_packetRelease_next (hm : w.media ≠ 0) (hv : v.sending = [] ∧ v.closing = false ∧ v.lastLen = 0) (hn : (s.stream v.stream).nextToSend v = some q)
    (hq : (s.stream v.stream).pic q.num = some q) (hpkt : (s.stream v.stream).packetAt w q 0 = some pkt) : exec (.packetRelease p f) s =
      .next (s.sendPacket p f { v with sending := [(0, q.num)], j := 0, nextPic := q.num + 1 } w q s.nowNs false pkt) := by
  obtain ⟨hs, hopen, hlast⟩ := hv
  show execPacketRelease p f s = _
  simp only [execPacketRelease, hf, hw, hs, hn, hopen, Bool.false_eq_true, if_false, hq, hpkt, hlast]
  exact (if_neg hm).trans (if_neg (Nat.not_lt_zero _))

/-- Its next packet waits for the gap after the last. -/
theorem exec_packetRelease_gap {l : List (Nat × Nat)} (hm : w.media ≠ 0) (hs : v.sending = (k, num) :: l) (hq : (s.stream v.stream).pic num = some q)
    (hlast : v.lastLen ≠ 0)
    (h : s.nowNs < v.lastStart + ceilDiv ((v.lastLen + 81 + w.extra) * 8 * 1000000000) (max 1 (s.stream v.stream).secs.flowRate)) :
    exec (.packetRelease p f) s = .next s := by
  show execPacketRelease p f s = _
  simp only [execPacketRelease, hf, hw, hs, hq]
  refine (if_neg hm).trans ?_
  cases (s.stream v.stream).packetAt w q v.j with
  | none => rfl
  | some pkt => exact if_pos (by rw [if_neg hlast]; exact h)

end Release

end Sys2Proof.Machine

section
set_option Elab.async false
open Sys2Proof Sys2Proof.Machine

/-- Settles O58: at an alignment point the pictures that are passed over lose the flow one after another (`State.dropPeriods_gone`), in steps that settle slips
and leave the ports alone; a packet goes by `State.packetOut_up` or
`State.packetOut_down`, and with the marker its picture by `State.dropReader_same`. -/
theorem flowsPaceAndQueueTheirPackets : Obligations.FlowsPaceAndQueueTheirPackets := by
  unfold Obligations.FlowsPaceAndQueueTheirPackets
  refine ⟨?chosen, ?passedOver, ?skipped, ?early, ?released, ?marked, ?waits, ?linkDown, ?nal, ?gap⟩
  case chosen =>
    intro s p f k v w q hf hw hm hk hp hq hnone
    have hexec := exec_alignmentPoint_chosen hf hw hm hk hp hq
    rw [Stream.passedOver_nil hnone] at hexec
    have hset := s.setFlow_step p f (some (v.chose k q.num))
    exact ⟨_, hexec, (hset.flow f).trans (s.flowPort_flow p f _), fun i hi => (hset.flow i).trans (State.flowPort_flow_ne hi), hset.others, hset.frame⟩
  case passedOver =>
    intro s p f k v w q old hf hw hm hk hp hq hold
    have hset := s.setFlow_step p f (some (v.chose k q.num))
    obtain ⟨hnet, hcount⟩ := State.dropPeriods_spec v (c := NET.FLOW_PERIODS_DROPPED p f) (Nat.le_of_ble_eq_true rfl) (flowPeriods_word p f) old
      (s.setFlow p f (some (v.chose k q.num)))
    have hexec := exec_alignmentPoint_chosen hf hw hm hk hp hq
    rw [Stream.passedOver, ← hold] at hexec
    refine ⟨_, hexec, ?_, hcount, fun n hn => ?_⟩
    · exact (congrArg (fun x : NetPort => x.flow f) (State.port_of_net hnet p)).trans ((hset.flow f).trans (s.flowPort_flow p f _))
    · have hmem : n ∈ old := List.contains_iff_mem.1 hn
      obtain ⟨r, hr⟩ : ∃ r, (s.stream v.stream).pic n = some r := by
        rw [hold] at hmem
        obtain ⟨y, hy, hyn⟩ := List.mem_map.1 hmem
        exact Option.isSome_iff_exists.1 (List.find?_isSome.2 ⟨y, List.mem_of_mem_filter hy, by simpa using hyn⟩)
      by_cases hone : (r.readers.filter fun z => z == 256 + v.path).length = 1
      · have hgone := State.dropPeriods_gone (s := s.setFlow p f (some (v.chose k q.num))) (c := NET.FLOW_PERIODS_DROPPED p f) hmem hr (count_of_filter_length hone)
        left
        rw [Option.all_eq_true]
        exact fun y hy => by simpa using hgone.pic hy
      · right
        rw [hr, Option.any_some]
        exact decide_eq_true hone
  case skipped =>
    intro s p f k v w hf hw hm hk hp hq
    have hset := s.setFlow_step p f (some { v with period := k })
    have hstep := (hset.mono (gs := [NET.FLOW_PERIODS_SKIPPED p f]) (by simp)).bump List.mem_cons_self
    exact ⟨_, exec_alignmentPoint_skipped hf hw hm hk hp hq, (hstep.flow f).trans (s.flowPort_flow p f _), State.get_bump_same _ (Nat.le_of_ble_eq_true rfl),
      fun i hi => (hstep.flow i).trans (State.flowPort_flow_ne hi), hstep.others, hstep.frame⟩
  case early => exact fun s p f v hf hk => ⟨_, exec_alignmentPoint_waits hf hk, State.frame.rfl'⟩
  case released =>
    intro s p f k num due v w q pkt l hf hw hm hs hq hdue hle hpkt hlast hl
    subst hdue
    have hout := State.packetOut_up (f := f) (v := v) (w := w) (q := q) (pkt := pkt) hl ((s.stream v.stream).dueAt w k v.j)
      (decide (4 * (s.ticks - q.writtenTick ((s.stream v.stream).packetSpan v.j).2) < s.nowNs - (s.stream v.stream).dueAt w k v.j))
    rw [hlast] at hout
    exact ⟨_, (exec_packetRelease_due hf hw hm hs hq hle hpkt).trans (congrArg Host.Outcome.next (State.sendPacket_more hlast ..)), hout⟩
  case marked =>
    intro s p f k num due v w q pkt l hf hw hm hs hq hdue hle hpkt hlast hl ⟨hnum, _⟩
    subst hdue
    have hexec := (exec_packetRelease_due hf hw hm hs hq hle hpkt).trans (congrArg Host.Outcome.next (State.sendPacket_last hlast ..))
    obtain ⟨hflow, hqueue, -, -, -, hfr⟩ := State.packetOut_up (f := f) (v := v) (w := w) (q := q) (pkt := pkt) hl ((s.stream v.stream).dueAt w k v.j)
      (decide (4 * (s.ticks - q.writtenTick ((s.stream v.stream).packetSpan v.j).2) < s.nowNs - (s.stream v.stream).dueAt w k v.j))
    rw [hlast] at hflow
    rw [hnum] at hexec
    refine ⟨_, hexec, ?_⟩
    generalize s.packetOut p f v w q _ _ pkt = t at *
    have hport := State.port_of_net (t.dropReader_net v.stream num (256 + v.path)) p
    have hpic : (t.stream v.stream).pic num = some q := by rw [State.stream_of_streams (hfr.1 .streams (by simp)), hq]
    refine ⟨(congrArg (fun x : NetPort => x.flow f) hport).trans hflow, (congrArg (fun x : NetPort => (x.cls w.tc).queue) hport).trans hqueue, ?_⟩
    rw [Option.all_eq_true]
    exact fun y hy => beq_iff_eq.2 ((State.dropReader_same hpic).pic hy)
  case waits => exact fun s p f k num v w q l hf hw hm hs hq h => ⟨_, exec_packetRelease_waits hf hw hm hs hq h, State.frame.rfl'⟩
  case linkDown =>
    intro s p f k num v w q pkt l hf hw hm hs hj hq hle hpkt hlast hl
    have hset := s.setFlow_step p f (some (v.after pkt.2 s.nowNs pkt.1.length))
    rw [← hlast]
    have hstep := (hset.mono (gs := [NET.TX_DROPS_COUNT p]) (by simp)).bump List.mem_cons_self
    exact ⟨_, (exec_packetRelease_due hf hw hm hs hq hle hpkt).trans (congrArg Host.Outcome.next ((State.sendPacket_more hlast ..).trans (State.packetOut_down hl hj ..))),
      (hstep.flow f).trans (s.flowPort_flow p f _), State.get_bump_same _ (Nat.le_of_ble_eq_true rfl), fun c => hstep.queue c, hstep.others, hstep.frame⟩
  case nal =>
    intro s p f v w q pkt hf hw hm hv hn hq hpkt hlast hl
    obtain ⟨hflow, hqueue, -, -, hothers, hfr⟩ := State.packetOut_up (f := f) (v := { v with sending := [(0, q.num)], j := 0, nextPic := q.num + 1 }) (w := w) (q := q)
      (pkt := pkt) hl s.nowNs false
    rw [hlast] at hflow
    exact ⟨_, (exec_packetRelease_next hf hw hm hv hn hq hpkt).trans (congrArg Host.Outcome.next (State.sendPacket_more hlast ..)), hflow, hqueue, hothers, hfr⟩
  case gap => exact fun s p f k num v w q l hf hw hm hs hq hlast h => ⟨_, exec_packetRelease_gap hf hw hm hs hq hlast h, State.frame.rfl'⟩

end

/-! PROOFS of the statements of 11_dater.md. -/

/-! ### A tick, and the commands that wait for it (R310, R311) -/

namespace Sys2Proof.Machine
set_option Elab.async false

variable {s t u : State} {ps : List Part} {fs : List Fld}

/-- A part that is the same after all need not be listed. -/
theorem State.frame.unlist {p : Part} (h : s.frame t (p :: ps) fs) (hs : p.same s t) : s.frame t ps fs := by
  refine ⟨fun q hq => ?_, h.2⟩
  by_cases e : q = p
  · exact e ▸ hs
  · exact h.1 q (by simp [e, hq])

/-- The counter has gone up by INCR, one tick is counted, and the commands that waited for it are taken out. -/
def State.ticked (s : State) : State :=
  { s with time := (s.time + s.get DAT.INCR_VALUE) % timeWrap, ticks := s.ticks + 1, dater := { s.dater with cmds := [] } }

theorem State.frame_ticked (s : State) : s.frame s.ticked [.dater, .time, .ticks] [] := by
  refine ⟨fun p hp => ?_, fun _ _ _ => rfl⟩
  cases p with
  | dater | time | ticks => simp at hp
  | dram | damage | host => exact fun _ => rfl
  | _ => rfl

theorem step_tick {l : List DaterCmd} (hp : s.pending = []) (hc : s.dater.cmds = l) : step s = .next (l.foldl State.runCmd s.ticked) := by
  subst hc
  simp only [step, hp]
  rfl

end Sys2Proof.Machine

section
set_option Elab.async false
open Sys2Proof Sys2Proof.Machine

/-- Settles O2: with no command of the Dater waiting, a tick is the counter's advance alone (`step_tick`). -/
theorem anEmptyQueueIsOneTick : Obligations.AnEmptyQueueIsOneTick := by
  unfold Obligations.AnEmptyQueueIsOneTick
  intro s hp hc
  have hsame : s.ticked.dater = s.dater := by
    change { s.dater with cmds := [] } = s.dater
    rw [← hc]
  exact ⟨_, step_tick hp hc, rfl, rfl, s.frame_ticked.unlist hsame⟩

end

/-! ### SNAP, SET, STEP and INCR (R310 to R312) -/

namespace Sys2Proof.Machine
set_option Elab.async false

variable {s t u : State} {ps : List Part} {fs : List Fld}

/-- The registers that a SNAP shows the time in. -/
def snapWords : List Fld := [.whole DAT.SNAP_SEC_LO, .whole DAT.SNAP_SEC_HI, .whole DAT.SNAP_NS]

theorem State.rd_putTime_lo {lo hi ns : Nat} (d : DTime) (h1 : lo ≠ hi) (h2 : lo ≠ ns) : (s.putTime lo hi ns d).rd lo = BitVec.ofNat 32 d.sec.toNat := by
  rw [State.putTime, State.rd_wr_ne _ _ h2, State.rd_wr_ne _ _ h1, State.rd_wr_same]

theorem State.rd_putTime_hi {lo hi ns : Nat} (d : DTime) (h : hi ≠ ns) :
    (s.putTime lo hi ns d).rd hi = BitVec.ofNat 32 (d.sec.toNat / 2 ^ 32 % 65536 + d.frac.toNat * 65536) := by
  rw [State.putTime, State.rd_wr_ne _ _ h, State.rd_wr_same]

theorem State.rd_putTime_ns {lo hi ns : Nat} (d : DTime) : (s.putTime lo hi ns d).rd ns = BitVec.ofNat 32 d.ns.toNat := State.rd_wr_same ..

/-- No snapshot shows while a SNAP waits for its tick. -/
theorem State.noSnapshot_spec (s : State) : s.noSnapshot.get DAT.DAT_STAT_SNAP_VALID = 0 ∧
    (∀ o ∈ [DAT.SNAP_SEC_LO, DAT.SNAP_SEC_HI, DAT.SNAP_NS], (s.noSnapshot.rd o).toNat = 2 ^ 32 - 1) ∧
    s.frame s.noSnapshot [] (snapWords ++ [DAT.DAT_STAT_SNAP_VALID]) := by
  unfold State.noSnapshot
  refine ⟨?_, ?_, (((State.frame.rfl'.put _ ?_).wr _ ?_).wr _ ?_).wr _ ?_⟩
  · rw [State.get_wr_apart _ _ (by decide) (by decide), State.get_wr_apart _ _ (by decide) (by decide), State.get_wr_apart _ _ (by decide) (by decide),
      State.get_put_same _ _ (by decide)]
    rfl
  · simp [State.rd_wr]
  all_goals simp [snapWords]

/-- What a snapshot shows (R311, R327). -/
theorem State.snapshot_spec (s : State) (ht : s.time < timeWrap) :
    (s.snapshot.rd DAT.SNAP_SEC_LO).toNat = s.time / secUnits % 2 ^ 32 ∧
    (s.snapshot.rd DAT.SNAP_SEC_HI).toNat = s.time / secUnits / 2 ^ 32 % 2 ^ 16 + s.time % 2 ^ 28 / 2 ^ 12 * 2 ^ 16 ∧
    (s.snapshot.rd DAT.SNAP_NS).toNat = s.time % secUnits / 2 ^ 28 ∧
    s.snapshot.get DAT.DAT_STAT_SNAP_VALID = 1 ∧ s.snapshot.get DAT.DAT_STAT_SNAP_SEQ = (s.get DAT.DAT_STAT_SNAP_SEQ + 1) % 64 ∧
    s.frame s.snapshot [] (snapWords ++ [DAT.DAT_STAT_SNAP_VALID, DAT.DAT_STAT_SNAP_SEQ]) := by
  have htime : s.frame (s.putTime DAT.SNAP_SEC_LO DAT.SNAP_SEC_HI DAT.SNAP_NS s.now) [] snapWords :=
    State.frame.rfl'.putTime _ _ _ _ (by simp [snapWords]) (by simp [snapWords]) (by simp [snapWords])
  have hrd : ∀ off ≠ DAT.DAT_STAT, s.snapshot.rd off = (s.putTime DAT.SNAP_SEC_LO DAT.SNAP_SEC_HI DAT.SNAP_NS s.now).rd off := fun off h =>
    (State.rd_put_ne _ _ h).trans (State.rd_put_ne _ _ h)
  have hsec : s.time / secUnits < 2 ^ 48 := Nat.div_lt_of_lt_mul (by rwa [Nat.mul_comm])
  have hns : s.time % secUnits / 2 ^ 28 < 2 ^ 32 := by simp only [secUnits]; omega
  refine ⟨?_, ?_, ?_, ?_, ?_, ((htime.mono (fun _ h => h) fun _ h => List.mem_append_left _ h).put _ (by simp)).put _ (by simp)⟩
  · rw [hrd _ (by decide), State.rd_putTime_lo _ (by decide) (by decide)]
    simp only [State.now, dtOf, BitVec.toNat_ofNat, Nat.mod_eq_of_lt hsec]
  · rw [hrd _ (by decide), State.rd_putTime_hi _ (by decide)]
    simp only [State.now, dtOf, BitVec.toNat_ofNat, Nat.mod_eq_of_lt hsec]
    omega
  · rw [hrd _ (by decide), State.rd_putTime_ns]
    simp only [State.now, dtOf, BitVec.toNat_ofNat, Nat.mod_eq_of_lt hns]
  · exact (State.get_put_apart _ _ (by decide) (by decide)).trans (State.get_put_same _ _ (by decide))
  · refine (State.get_put_same _ _ (by decide)).trans (congrArg (fun n => (n + 1) % 64) ?_)
    exact (htime.get DAT.DAT_STAT_SNAP_SEQ (by decide) (by decide))

/-- A command joins those that wait for the next tick. -/
def State.await (s : State) (c : DaterCmd) : State := { s with dater := { s.dater with cmds := s.dater.cmds ++ [c] } }

theorem State.rd_await (s : State) (c : DaterCmd) (off : Nat) : (s.await c).rd off = s.rd off := State.rd_congr rfl rfl off
theorem State.get_await (s : State) (c : DaterCmd) (f : Fld) : (s.await c).get f = s.get f := State.get_congr rfl rfl f

theorem State.frame.await (h : s.frame t ps fs) (c : DaterCmd) (hp : .dater ∈ ps) : s.frame (t.await c) ps fs := h.dater _ hp

theorem State.changeOf_none (s : State) : s.changeOf false false = none := by
  unfold State.changeOf
  split <;> rfl

theorem State.changeOf_servo (h : s.get DAT.SERVO_STAT_STATE ≠ 0) (set step : Bool) : s.changeOf set step = none := if_pos h

theorem State.daterCmd_snap (s : State) : s.daterCmd true false false = s.noSnapshot.await ⟨true, none⟩ := by
  simp only [State.daterCmd, s.changeOf_none]
  rfl

/-- A change that is taken waits for the tick. -/
theorem State.daterCmd_change {set step : Bool} {c : TimeChange} (h : s.changeOf set step = some c) (snap : Bool) :
    s.daterCmd snap set step = (if snap then s.noSnapshot else s).await ⟨snap, some c⟩ := by
  simp [State.daterCmd, h, State.await]

/-- A change that is not taken sets WRITE_IGNORED. -/
theorem State.daterCmd_ignored {set step : Bool} (h : s.changeOf set step = none) (hw : (set || step) = true) :
    s.daterCmd false set step = s.put DAT.DAT_STAT_WRITE_IGNORED 1 := by
  simp [State.daterCmd, h, hw]

/-- A SNAP beside a change that is not taken is as it is alone. -/
theorem State.daterCmd_ignored_snap {set step : Bool} (h : s.changeOf set step = none) (hw : (set || step) = true) :
    s.daterCmd true set step = (s.put DAT.DAT_STAT_WRITE_IGNORED 1).daterCmd true false false := by
  rw [State.daterCmd_snap]
  simp [State.daterCmd, h, hw, State.await]

theorem timeWrap_pos : 0 < timeWrap := Nat.mul_pos (Nat.two_pow_pos _) (Nat.mul_pos (by decide) (Nat.two_pow_pos _))

/-- The time that a change makes of one. -/
def TimeChange.of (t : Nat) : TimeChange → Nat
  | .set v => v
  | .step ns => stepped t ns

theorem State.runCmd_snap (s : State) : s.runCmd ⟨true, none⟩ = s.snapshot := by simp [State.runCmd]

theorem State.runCmd_change (s : State) (snap : Bool) (c : TimeChange) :
    s.runCmd ⟨snap, some c⟩ = (if snap then s.snapshot else s).changeTime (c.of (if snap then s.snapshot else s).time) := by
  cases c <;> rfl

/-- What follows the time lies in other registers than the state of the counter. -/
theorem datStat_ne_scheduleFields : ∀ g ∈ scheduleFields, DAT.DAT_STAT ≠ g.off := by decide +kernel

theorem State.changeTime_counts (s : State) (v : Nat) : (s.changeTime v).time = v % timeWrap ∧ (s.changeTime v).get DAT.DAT_STAT_STEPPED = 1 ∧
    (s.changeTime v).get DAT.DAT_STAT_STEPS = min (s.get DAT.DAT_STAT_STEPS + 1) 255 := by
  obtain ⟨c, htime, hstepped, hsteps, -, hframe⟩ := s.changeTime_spec v
  have hstat : ∀ f : Fld, f.off = DAT.DAT_STAT → f.lo + f.w ≤ 32 → (s.changeTime v).get f = c.get f := fun f hf hw =>
    hframe.get f hw fun g hg => .inl (hf ▸ datStat_ne_scheduleFields g hg)
  refine ⟨(hframe.1 .time (by simp)).trans htime, (hstat _ rfl (by decide)).trans hstepped, (hstat _ rfl (by decide)).trans (hsteps.trans ?_)⟩
  unfold satAdd
  split <;> omega

/-- What a SNAP alone leaves, and the tick after it. -/
theorem State.daterCmd_snap_tick (s : State) (hp : s.pending = []) (hcmds : s.dater.cmds = []) :
    ((s.daterCmd true false false).get DAT.DAT_STAT_SNAP_VALID = 0 ∧
      (∀ o ∈ [DAT.SNAP_SEC_LO, DAT.SNAP_SEC_HI, DAT.SNAP_NS], ((s.daterCmd true false false).rd o).toNat = 2 ^ 32 - 1) ∧
      s.frame (s.daterCmd true false false) [.dater] (snapWords ++ [DAT.DAT_STAT_SNAP_VALID])) ∧
    ∃ u, step (s.daterCmd true false false) = .next u ∧ u.time = (s.time + s.get DAT.INCR_VALUE) % timeWrap ∧
      (u.rd DAT.SNAP_SEC_LO).toNat = u.time / secUnits % 2 ^ 32 ∧
      (u.rd DAT.SNAP_SEC_HI).toNat = u.time / secUnits / 2 ^ 32 % 2 ^ 16 + u.time % 2 ^ 28 / 2 ^ 12 * 2 ^ 16 ∧
      (u.rd DAT.SNAP_NS).toNat = u.time % secUnits / 2 ^ 28 ∧
      u.get DAT.DAT_STAT_SNAP_VALID = 1 ∧ u.get DAT.DAT_STAT_SNAP_SEQ = (s.get DAT.DAT_STAT_SNAP_SEQ + 1) % 64 ∧
      s.frame u [.time, .ticks] (snapWords ++ [DAT.DAT_STAT_SNAP_VALID, DAT.DAT_STAT_SNAP_SEQ]) := by
  rw [State.daterCmd_snap]
  obtain ⟨hvalid, hones, hno⟩ := s.noSnapshot_spec
  have hawait : s.frame (s.noSnapshot.await ⟨true, none⟩) [.dater] (snapWords ++ [DAT.DAT_STAT_SNAP_VALID]) :=
    (hno.mono (by simp) fun _ h => h).await _ (by simp)
  have hdater : (s.noSnapshot.await ⟨true, none⟩).dater = { s.dater with cmds := [⟨true, none⟩] } := by
    rw [State.await, hno.1 .dater (by simp), hcmds]
    rfl
  refine ⟨⟨(State.get_await ..).trans hvalid, fun o ho => (congrArg BitVec.toNat (State.rd_await ..)).trans (hones o ho), hawait⟩, ?_⟩
  generalize s.noSnapshot.await ⟨true, none⟩ = t at *
  have hstep : step t = .next t.ticked.snapshot := by
    rw [step_tick ((hawait.1 .pending (by simp)).trans hp) (l := [⟨true, none⟩]) (by rw [hdater]), List.foldl_cons, List.foldl_nil, State.runCmd_snap]
  have htime : t.ticked.time = (s.time + s.get DAT.INCR_VALUE) % timeWrap := by
    rw [← hawait.1 .time (by simp), ← hawait.get DAT.INCR_VALUE (by decide) (by decide)]
    rfl
  obtain ⟨hlo, hhi, hns, hshown, hseq, hsnap⟩ := t.ticked.snapshot_spec (htime ▸ Nat.mod_lt _ timeWrap_pos)
  have hstay : t.ticked.snapshot.time = t.ticked.time := hsnap.1 .time (by simp)
  have hsame : t.ticked.snapshot.dater = s.dater := by
    rw [hsnap.1 .dater (by simp), State.ticked, hdater, ← hcmds]
  have hframe : s.frame t.ticked.snapshot [.dater, .time, .ticks] (snapWords ++ [DAT.DAT_STAT_SNAP_VALID, DAT.DAT_STAT_SNAP_SEQ]) :=
    ((hawait.mono (by simp) (by simp [snapWords])).trans (t.frame_ticked.mono (by simp) (by simp))).trans (hsnap.mono (by simp) fun _ h => h)
  rw [← hstay] at hlo hhi hns
  refine ⟨_, hstep, hstay.trans htime, hlo, hhi, hns, hshown, ?_, hframe.unlist hsame⟩
  rw [hseq, t.frame_ticked.get _ (by decide) (by simp), hawait.get _ (by decide) (by decide)]

/-- What a write that changes the time leaves, and the tick after it. -/
theorem State.daterCmd_tick {set step' : Bool} {c : TimeChange} (hp : s.pending = []) (hcmds : s.dater.cmds = []) (h : s.changeOf set step' = some c)
    (snap : Bool) : (s.daterCmd snap set step').time = s.time ∧ (s.daterCmd snap set step').get DAT.DAT_STAT_STEPS = s.get DAT.DAT_STAT_STEPS ∧
      ∃ u, step (s.daterCmd snap set step') = .next u ∧ u.time = c.of ((s.time + s.get DAT.INCR_VALUE) % timeWrap) % timeWrap ∧
        u.get DAT.DAT_STAT_STEPPED = 1 ∧ u.get DAT.DAT_STAT_STEPS = min (s.get DAT.DAT_STAT_STEPS + 1) 255 := by
  rw [State.daterCmd_change h]
  have hno : s.frame (if snap then s.noSnapshot else s) [] (snapWords ++ [DAT.DAT_STAT_SNAP_VALID]) := State.frame.ite s.noSnapshot_spec.2.2 State.frame.rfl'
  have hawait := (hno.mono (ps' := [.dater]) (by simp) fun _ h => h).await ⟨snap, some c⟩ (by simp)
  have hdater : ((if snap then s.noSnapshot else s).await ⟨snap, some c⟩).dater.cmds = [⟨snap, some c⟩] := by
    change (if snap then s.noSnapshot else s).dater.cmds ++ _ = _
    rw [hno.1 .dater (by simp), hcmds]
    rfl
  generalize (if snap then s.noSnapshot else s).await ⟨snap, some c⟩ = t at *
  refine ⟨hawait.1 .time (by simp), hawait.get _ (by decide) (by decide), _, step_tick ((hawait.1 .pending (by simp)).trans hp) hdater, ?_⟩
  have htime : t.ticked.time = (s.time + s.get DAT.INCR_VALUE) % timeWrap := by
    rw [← hawait.1 .time (by simp), ← hawait.get DAT.INCR_VALUE (by decide) (by decide)]
    rfl
  have hlt : t.ticked.time < timeWrap := htime ▸ Nat.mod_lt _ timeWrap_pos
  have hsnap : t.ticked.frame (if snap then t.ticked.snapshot else t.ticked) [] (snapWords ++ [DAT.DAT_STAT_SNAP_VALID, DAT.DAT_STAT_SNAP_SEQ]) :=
    State.frame.ite (t.ticked.snapshot_spec hlt).2.2.2.2.2 State.frame.rfl'
  rw [List.foldl_cons, List.foldl_nil, State.runCmd_change]
  generalize (if snap then t.ticked.snapshot else t.ticked) = w at *
  obtain ⟨hnew, hstepped, hsteps⟩ := w.changeTime_counts (c.of w.time)
  refine ⟨?_, hstepped, ?_⟩
  · rw [hnew, hsnap.1 .time (by simp), htime]
  · rw [hsteps, hsnap.get _ (by decide) (by decide), t.frame_ticked.get _ (by decide) (by simp), hawait.get _ (by decide) (by decide)]

theorem State.rd_lt (s : State) (off : Nat) : (s.rd off).toNat < 2 ^ 32 := BitVec.isLt _

theorem timeOf_lt {lo hi ns : Nat} (hlo : lo < 2 ^ 32) (hns : ns < 1000000000) : timeOf lo hi ns < timeWrap := by
  simp only [timeOf, timeWrap, secUnits]
  omega

theorem timeOf_eq {lo hi ns : Nat} (hhi : hi < 2 ^ 32) : timeOf lo hi ns = (lo + 2 ^ 32 * (hi % 2 ^ 16)) * secUnits + ns * 2 ^ 28 + hi / 2 ^ 16 * 2 ^ 12 := by
  simp only [timeOf, secUnits]
  omega

theorem toSigned_toNat (w : Word) : toSigned 32 w.toNat = w.toInt := by
  have := w.isLt
  simp only [toSigned, BitVec.toInt_eq_toNat_cond, Nat.mod_eq_of_lt this, Int.ofNat_eq_natCast]
  split <;> split <;> omega

/-- A step from a time within the counter's first half does not wrap. -/
theorem stepped_lt {t : Nat} {ns : Int} (ht : t < 2 ^ 47 * secUnits + 2 ^ 32) (hns : ns < 2 ^ 31) : stepped t ns < timeWrap := by
  simp only [stepped, timeWrap, secUnits, Int.ofNat_eq_natCast] at *
  omega

theorem ofNat_stepped (t : Nat) (ns : Int) : Int.ofNat (stepped t ns) = max 0 (Int.ofNat t + ns * 2 ^ 28) := by
  simp only [stepped, Int.ofNat_eq_natCast, Int.ofNat_toNat, Int.max_comm]

end Sys2Proof.Machine

section
set_option Elab.async false
open Sys2Proof Sys2Proof.Machine

/-- Settles O13: what a write of DAT_CMD leaves is said by `State.daterCmd_snap`, `State.daterCmd_ignored` and, for a change of the time with the tick
that it waits for, `State.daterCmd_tick`. -/
theorem counterCommandsFollowTheirRules : Obligations.CounterCommandsFollowTheirRules := by
  unfold Obligations.CounterCommandsFollowTheirRules
  refine ⟨?snap, ?set, ?step, ?servo, ?servoIncr, ?servoSnap, ?range, ?incr, ?incrRange⟩
  case snap =>
    intro s hp hcmds
    obtain ⟨hwritten, hticked⟩ := s.daterCmd_snap_tick hp hcmds
    obtain ⟨hvalid, hones, hframe⟩ := hwritten
    exact ⟨_, rfl, hvalid, hones, hframe, hticked⟩
  case set =>
    intro s snap step' hp hcmds hservo hns
    have hchange : s.changeOf true step' = some (.set (s.timeAt DAT.SET_SEC_LO DAT.SET_SEC_HI DAT.SET_NS)) := by
      simp [State.changeOf, hservo, hns]
    obtain ⟨htime, hsteps, u, hstep, hu, hcounts⟩ := State.daterCmd_tick hp hcmds hchange snap
    refine ⟨_, rfl, htime, hsteps, u, hstep, ?_, hcounts⟩
    rw [hu]
    exact (Nat.mod_eq_of_lt (timeOf_lt (s.rd_lt _) hns)).trans (timeOf_eq (s.rd_lt _))
  case step =>
    intro s snap hp hcmds hservo hlt
    have hchange : s.changeOf false true = some (.step (s.rd DAT.STEP_NS).toInt) := by
      have hget : s.get DAT.STEP_NS_VALUE = (s.rd DAT.STEP_NS).toNat := by
        have hlt32 := s.rd_lt DAT.STEP_NS
        simp only [State.get, bits, DAT.STEP_NS_VALUE]
        omega
      simp [State.changeOf, hservo, hget, toSigned_toNat]
    obtain ⟨htime, -, u, hstep, hu, hcounts⟩ := State.daterCmd_tick hp hcmds hchange snap
    refine ⟨_, rfl, htime, u, hstep, ?_, hcounts⟩
    have hincr : s.get DAT.INCR_VALUE < 2 ^ 32 := s.get_lt _
    have htick : s.time + s.get DAT.INCR_VALUE < 2 ^ 47 * secUnits + 2 ^ 32 := by omega
    have hwrap : 2 ^ 47 * secUnits + 2 ^ 32 ≤ timeWrap := by decide
    have hnew : u.time = stepped (s.time + s.get DAT.INCR_VALUE) (s.rd DAT.STEP_NS).toInt := by
      rw [hu, Nat.mod_eq_of_lt (Nat.lt_of_lt_of_le htick hwrap)]
      exact Nat.mod_eq_of_lt (stepped_lt htick (BitVec.toInt_lt ..))
    rw [hnew, ofNat_stepped]
  case servo =>
    rintro s c (rfl | rfl | rfl) hservo <;>
      exact ⟨_, congrArg Host.Outcome.next (State.daterCmd_ignored (State.changeOf_servo hservo _ _) rfl), State.get_put_same _ _ (by decide),
        State.frame.rfl'.put _ (by simp)⟩
  case servoIncr =>
    intro s v hservo
    exact ⟨_, if_pos hservo, State.get_put_same _ _ (by decide), State.frame.rfl'.put _ (by simp)⟩
  case servoSnap =>
    rintro s c (rfl | rfl | rfl) hservo <;>
      exact congrArg Host.Outcome.next (State.daterCmd_ignored_snap (State.changeOf_servo hservo _ _) rfl)
  case range =>
    intro s step hservo hns
    have hnone : s.changeOf true step = none := by simp [State.changeOf, hns]
    exact ⟨_, congrArg Host.Outcome.next (State.daterCmd_ignored hnone rfl), State.get_put_same _ _ (by decide), State.frame.rfl'.put _ (by simp)⟩
  case incr =>
    intro s v hservo hlo hhi
    have hok : incrOk v = true := decide_eq_true ⟨hlo, hhi⟩
    have hlt : v < 2 ^ 32 := Nat.lt_of_le_of_lt hhi (by decide)
    exact ⟨_, (if_neg (by simp [hservo])).trans (if_pos hok), (State.get_put_same _ _ (by decide)).trans (Nat.mod_eq_of_lt hlt),
      State.frame.rfl'.put _ (by simp)⟩
  case incrRange =>
    intro s v hservo hout
    have hok : incrOk v = false := decide_eq_false (by omega)
    exact ⟨_, (if_neg (by simp [hservo])).trans (if_neg (by simp [hok])), rfl⟩

end

/-! ### The alarm (R326) -/

namespace Sys2Proof.Machine
set_option Elab.async false

variable {s t u : State} {ps : List Part} {fs : List Fld}

theorem State.alarmTime_put {f : Fld} (v : Nat) (hf : f.off = DAT.ALARM_CTL) : (s.put f v).alarmTime = s.alarmTime := by
  have hrd : ∀ off ≠ DAT.ALARM_CTL, (s.put f v).rd off = s.rd off := fun off h => State.rd_put_ne _ _ (hf ▸ h)
  simp only [State.alarmTime, State.timeAt, hrd DAT.ALARM_SEC_LO (by decide), hrd DAT.ALARM_SEC_HI (by decide), hrd DAT.ALARM_NS (by decide)]

theorem exec_alarmArm_before (h : s.time < s.alarmTime) : exec .alarmArm s = .next (s.put DAT.ALARM_CTL_ARMED 1) := by
  show execAlarmArm s = _
  rw [execAlarmArm, State.alarmTime_put _ rfl, State.put_time, if_neg (by omega), if_neg (by omega)]

/-- Armed at its time or after it, the alarm fires at once, late after it. -/
theorem exec_alarmArm_reached (h : s.alarmTime ≤ s.time) :
    exec .alarmArm s = .next ((s.put DAT.ALARM_CTL_ARMED 1).fireAlarm (decide (s.alarmTime < s.time))) := by
  show execAlarmArm s = _
  rw [execAlarmArm, State.alarmTime_put _ rfl, State.put_time]
  by_cases hlate : s.alarmTime < s.time
  · rw [if_pos hlate, decide_eq_true hlate]
  · rw [if_neg hlate, if_pos (by omega), decide_eq_false hlate]

theorem exec_alarmFire_due (harmed : s.on DAT.ALARM_CTL_ARMED = true) (h : s.alarmTime ≤ s.time) : exec .alarmFire s = .next (s.fireAlarm false) :=
  congrArg Host.Outcome.next (if_pos (by rw [harmed, decide_eq_true h]; rfl))

/-- An alarm that wakes nobody and posts no event is its own two flags and its source. -/
theorem State.fireAlarm_quiet (hwake : s.on DAT.ALARM_CTL_WAKE = false) (hevt : s.on ICU.ALARM_EVT_EN = false) :
    s.fireAlarm false = ((s.put DAT.ALARM_CTL_FIRED 1).put DAT.ALARM_CTL_ARMED 0).raise 5 := by
  have hframe : s.frame (((s.put DAT.ALARM_CTL_FIRED 1).put DAT.ALARM_CTL_ARMED 0).raise 5) [] [DAT.ALARM_CTL_FIRED, DAT.ALARM_CTL_ARMED, srcPending 5] :=
    ((State.frame.rfl'.put _ (by simp)).put _ (by simp)).raise _ (by simp)
  rw [← State.on_eq_of_get (hframe.get _ (by decide) (by decide))] at hwake hevt
  unfold State.fireAlarm
  simp [hwake, hevt]

/-! ### The pulse per second (R324) -/

theorem State.ppsOpen_iff : s.ppsOpen = true ↔
    s.on DAT.PPS_CTL_ENABLE = true ∧ (s.on DAT.PPS_CTL_LOCK_GATE = false ∨ s.get DAT.SERVO_STAT_STATE = 3) := by
  simp [State.ppsOpen]

theorem exec_ppsEdge_open (hopen : s.ppsOpen = true) (hsec : s.time % secUnits < s.get DAT.INCR_VALUE)
    (hfrom : s.dater.ppsFrom ≤ s.nowNs / 1000000000 * 1000000000) : exec .ppsEdge s =
      .next { s with dater := { s.dater with pps := some (s.nowNs / 1000000000 * 1000000000 + s.get DAT.PPS_CTL_WIDTH_MS * 1000000) } } :=
  congrArg Host.Outcome.next (if_pos (by rw [hopen, decide_eq_true hsec, decide_eq_true hfrom]; rfl))

theorem exec_ppsEdge_shut (h : s.ppsOpen = false) : exec .ppsEdge s = .next s :=
  congrArg Host.Outcome.next (if_neg (by rw [h]; simp))

theorem exec_ppsPulseEnd_due {e : Nat} (hpps : s.dater.pps = some e) (he : e ≤ s.nowNs) :
    exec .ppsPulseEnd s = .next { s with dater := { s.dater with pps := none } } := by
  show execPpsPulseEnd s = _
  rw [execPpsPulseEnd, hpps]
  exact congrArg Host.Outcome.next (if_pos he)

/-! ### Captures of the time inputs (R325) -/

theorem State.tin_of_dater (h : t.dater = s.dater) (i : Nat) : t.tin i = s.tin i := by rw [State.tin, h, State.tin]

/-- The registers that show a capture queue. -/
def tinFields (i : Nat) : List Fld :=
  [DAT.TIN_STAT_COUNT i, DAT.TIN_STAT_VALID i, DAT.TIN_STAT_HEAD_RISING i, .whole (DAT.TIN_CAP_SEC_LO i), .whole (DAT.TIN_CAP_SEC_HI i),
    .whole (DAT.TIN_CAP_NS i)]

theorem State.frame_setTin (s : State) (i : Nat) (q : List (Nat × Bool)) : s.frame (s.setTin i q) [.dater] (tinFields i) :=
  State.frame.rfl'.setTin i q (by simp) (by simp [tinFields]) (by simp [tinFields]) (by simp [tinFields]) (by simp [tinFields]) (by simp [tinFields])
    (by simp [tinFields])

theorem State.setTin_dater (s : State) (i : Nat) (q : List (Nat × Bool)) :
    (s.setTin i q).dater = { s.dater with ins := Tab.set (fun _ => []) s.dater.ins i q } := by
  cases q <;> simp [State.setTin]

theorem State.tin_setTin (s : State) (i : Nat) (q : List (Nat × Bool)) : (s.setTin i q).tin i = q := by
  rw [State.tin, State.setTin_dater]
  exact Tab.get_set_same ..

/-- The capture queue stored, with what the registers show of its length. -/
def State.tinCounted (s : State) (i : Nat) (q : List (Nat × Bool)) : State :=
  ({ s with dater := { s.dater with ins := Tab.set (fun _ => []) s.dater.ins i q } }.put (DAT.TIN_STAT_COUNT i) q.length).put (DAT.TIN_STAT_VALID i)
    (if q = [] then 0 else 1)

/-- The registers that show the head of a capture queue. -/
def tinHeadFields (i : Nat) : List Fld :=
  [DAT.TIN_STAT_HEAD_RISING i, .whole (DAT.TIN_CAP_SEC_LO i), .whole (DAT.TIN_CAP_SEC_HI i), .whole (DAT.TIN_CAP_NS i)]

theorem State.frame_tinCounted (s : State) (i : Nat) (q : List (Nat × Bool)) : (s.tinCounted i q).frame (s.setTin i q) [] (tinHeadFields i) := by
  have hrising : ∀ (t : State) (v : Nat), t.frame (t.put (DAT.TIN_STAT_HEAD_RISING i) v) [] (tinHeadFields i) := fun t v =>
    State.frame.rfl'.put v (by simp [tinHeadFields])
  cases q with
  | nil => exact (((hrising _ 0).wr _ (by simp [tinHeadFields])).wr _ (by simp [tinHeadFields])).wr _ (by simp [tinHeadFields])
  | cons a r => exact (hrising _ (if a.2 then 1 else 0)).putTime _ _ _ _ (by simp [tinHeadFields]) (by simp [tinHeadFields]) (by simp [tinHeadFields])

/-- What the registers show of a capture queue. -/
theorem State.setTin_shown (s : State) (i : Nat) (q : List (Nat × Bool)) (hq : q.length < 32) :
    (s.setTin i q).get (DAT.TIN_STAT_COUNT i) = q.length ∧ (s.setTin i q).get (DAT.TIN_STAT_VALID i) = (if q = [] then 0 else 1) ∧
      (q = [] → ((s.setTin i q).rd (DAT.TIN_CAP_NS i)).toNat = 2 ^ 32 - 1) := by
  have hhead : ∀ f : Fld, f.off = DAT.TIN_STAT i → f.lo + f.w ≤ 32 → f.apart (DAT.TIN_STAT_HEAD_RISING i) →
      (s.setTin i q).get f = (s.tinCounted i q).get f := fun f hoff hw hrising =>
    (s.frame_tinCounted i q).get f hw (by
      simp only [tinHeadFields, List.forall_mem_cons, List.not_mem_nil, false_imp_iff, implies_true, and_true]
      refine ⟨hrising, ?_, ?_, ?_⟩ <;> exact .inl (by simp [hoff, Fld.whole, DAT.TIN_STAT, DAT.TIN_CAP_SEC_LO, DAT.TIN_CAP_SEC_HI, DAT.TIN_CAP_NS]))
  refine ⟨?_, ?_, ?_⟩
  · rw [hhead _ rfl (Nat.le_of_ble_eq_true rfl) (.inr (.inr (Nat.le_of_ble_eq_true rfl))), State.tinCounted,
      State.get_put_apart _ _ (Nat.le_of_ble_eq_true rfl) (.inr (.inl (Nat.le_of_ble_eq_true rfl))), State.get_put_same _ _ (Nat.le_of_ble_eq_true rfl)]
    exact Nat.mod_eq_of_lt hq
  · rw [hhead _ rfl (Nat.le_of_ble_eq_true rfl) (.inr (.inr (Nat.le_of_ble_eq_true rfl))), State.tinCounted,
      State.get_put_same _ _ (Nat.le_of_ble_eq_true rfl)]
    split <;> rfl
  · rintro rfl
    exact congrArg BitVec.toNat (State.rd_wr_same ..)

theorem tinCtl_apart (i : Nat) : ∀ g ∈ srcPending (6 + i) :: tinFields i, (DAT.TIN_CTL_WAKE i).apart g := by
  simp only [tinFields, List.forall_mem_cons, List.not_mem_nil, false_imp_iff, implies_true, and_true, Fld.apart, Fld.whole, DAT.TIN_CTL_WAKE, DAT.TIN_CTL,
    DAT.TIN_STAT_COUNT, DAT.TIN_STAT_VALID, DAT.TIN_STAT_HEAD_RISING, DAT.TIN_STAT, DAT.TIN_CAP_SEC_LO, DAT.TIN_CAP_SEC_HI, DAT.TIN_CAP_NS, srcPending, srcReg]
  omega

/-- An edge that is selected joins the queue of captures and raises the input's source. -/
theorem exec_timeInCapture_taken {i : Nat} {rising : Bool} (hsel : bitAt (s.get (DAT.TIN_CTL_EDGE i)) (if rising then 0 else 1) = true)
    (hroom : (s.tin i).length < 16) (hwake : s.on (DAT.TIN_CTL_WAKE i) = false) :
    exec (.timeInCapture i rising) s = .next ((s.setTin i (s.tin i ++ [(s.time / 2 ^ 26 * 2 ^ 26, rising)])).raise (6 + i)) := by
  refine ((if_neg (by simp [hsel]) : execTimeInCapture i rising s = _).trans (if_neg (by omega))).trans (congrArg Host.Outcome.next ?_)
  generalize s.tin i ++ [(s.time / 2 ^ 26 * 2 ^ 26, rising)] = q
  have hframe : s.frame ((s.setTin i q).raise (6 + i)) [.dater] (srcPending (6 + i) :: tinFields i) :=
    ((s.frame_setTin i q).mono (fun _ h => h) fun _ h => List.mem_cons_of_mem _ h).raise _ (by simp)
  rw [← State.on_eq_of_get (hframe.get (DAT.TIN_CTL_WAKE i) (Nat.le_of_ble_eq_true rfl) (tinCtl_apart i))] at hwake
  exact if_neg (by rw [hwake]; decide)

theorem exec_timeInCapture_full {i : Nat} {rising : Bool} (hsel : bitAt (s.get (DAT.TIN_CTL_EDGE i)) (if rising then 0 else 1) = true)
    (hfull : 16 ≤ (s.tin i).length) : exec (.timeInCapture i rising) s = .next (s.bump (DAT.TIN_STAT_OVERFLOW i)) :=
  (if_neg (by simp [hsel]) : execTimeInCapture i rising s = _).trans (if_pos hfull)

theorem exec_timeInPop_cons {i : Nat} {a : Nat × Bool} {r : List (Nat × Bool)} (h : s.tin i = a :: r) :
    exec (.timeInPop i) s = .next ((s.setTin i r).put (DAT.TIN_STAT_SEQ i) (s.get (DAT.TIN_STAT_SEQ i) + 1)) := by
  show execTimeInPop i s = _
  rw [execTimeInPop, h]

end Sys2Proof.Machine

section
set_option Elab.async false
open Sys2Proof Sys2Proof.Machine

/-- Settles O14: the alarm fires as `State.fireAlarm_spec` says, and a capture queue is shown as `State.setTin_shown` says. -/
theorem alarmPulseAndTimeInputs : Obligations.AlarmPulseAndTimeInputs := by
  unfold Obligations.AlarmPulseAndTimeInputs
  refine ⟨?before, ?reached, ?quiet, ?fire, ?disarm, ?pps, ?ppsShut, ?ppsEnd, ?capture, ?full, ?pop⟩
  case before =>
    intro s h
    exact ⟨_, exec_alarmArm_before h, State.get_put_same _ _ (by decide), State.frame.rfl'.put _ (by simp)⟩
  case reached =>
    intro s h
    obtain ⟨hfired, harmed, hlate, hsrc, hwake⟩ := (s.put DAT.ALARM_CTL_ARMED 1).fireAlarm_spec (decide (s.alarmTime < s.time))
    rw [State.on_eq_of_get (State.get_put_apart (f := DAT.ALARM_CTL_ARMED) (g := DAT.ALARM_CTL_WAKE) s 1 (by decide) (by decide))] at hwake
    exact ⟨_, exec_alarmArm_reached h, hfired, harmed, fun hlt => hlate.trans (if_pos (decide_eq_true hlt)), hsrc, hwake⟩
  case quiet =>
    intro s harmed h hwake hevt
    have hquiet := s.fireAlarm_quiet hwake hevt
    obtain ⟨hfired, hdisarmed, -, hsrc, -⟩ := s.fireAlarm_spec false
    refine ⟨_, exec_alarmFire_due harmed h, hfired, hdisarmed, hsrc, ?_⟩
    rw [hquiet]
    exact ((State.frame.rfl'.put _ (by simp)).put _ (by simp)).raise _ (by simp)
  case fire =>
    intro s harmed h
    exact ⟨_, exec_alarmFire_due harmed h, s.fireAlarm_spec false⟩
  case disarm =>
    intro s
    exact ⟨_, rfl, State.get_put_same _ _ (by decide), State.frame.rfl'.put _ (by simp)⟩
  case pps =>
    intro s hon hgate hsec hfrom
    exact ⟨_, exec_ppsEdge_open (State.ppsOpen_iff.2 ⟨hon, hgate⟩) hsec hfrom, rfl, State.frame.rfl'.dater _ (by simp)⟩
  case ppsShut =>
    intro s h
    refine ⟨_, exec_ppsEdge_shut (Bool.eq_false_iff.2 fun hopen => ?_), rfl⟩
    obtain ⟨hon, hgate⟩ := State.ppsOpen_iff.1 hopen
    rcases h with h | ⟨hlock, hstate⟩
    · simp [h] at hon
    · simp [hlock, hstate] at hgate
  case ppsEnd =>
    intro s e hpps he
    exact ⟨_, exec_ppsPulseEnd_due hpps he, rfl, State.frame.rfl'.dater _ (by simp)⟩
  case capture =>
    intro s i rising hi hsel hroom hwake
    have hexec := exec_timeInCapture_taken hsel hroom hwake
    generalize (s.time / 2 ^ 26 * 2 ^ 26, rising) = c at *
    obtain ⟨hcount, hvalid, -⟩ := s.setTin_shown i (s.tin i ++ [c]) (by simp; omega)
    have hqueue := s.tin_setTin i (s.tin i ++ [c])
    refine ⟨_, hexec, ?_⟩
    generalize s.setTin i (s.tin i ++ [c]) = t at *
    have hraise : t.frame (t.raise (6 + i)) [] [srcPending (6 + i)] := State.frame.rfl'.raise _ (by simp)
    have hstat : ∀ f : Fld, f.off = DAT.TIN_STAT i → f.lo + f.w ≤ 32 → (t.raise (6 + i)).get f = t.get f := fun f hoff hw =>
      hraise.get f hw (by simp only [List.forall_mem_singleton]; exact .inl (by simp only [hoff, srcPending, srcReg, DAT.TIN_STAT]; omega))
    refine ⟨(State.tin_of_dater (hraise.1 .dater (by simp)) i).trans hqueue, ?_, ?_, ?_⟩
    · rw [hstat _ rfl (Nat.le_of_ble_eq_true rfl), hcount]
      simp
    · rw [hstat _ rfl (Nat.le_of_ble_eq_true rfl), hvalid]
      simp
    · rw [State.raise, if_pos (by omega), State.get_put_same _ _ (Nat.le_of_ble_eq_true rfl)]
      rfl
  case full =>
    intro s i rising hsel hfull
    refine ⟨_, exec_timeInCapture_full hsel hfull, (State.get_bump_same _ (Nat.le_of_ble_eq_true rfl)).trans ?_, State.frame.rfl'.bump _ (by simp)⟩
    show satAdd 12 _ 1 = _
    unfold satAdd
    split <;> omega
  case pop =>
    intro s i a r hr h
    obtain ⟨hcount, hvalid, hns⟩ := s.setTin_shown i r (by omega)
    have hqueue := s.tin_setTin i r
    have hframe := s.frame_setTin i r
    refine ⟨_, exec_timeInPop_cons h, ?_⟩
    generalize s.setTin i r = t at *
    refine ⟨(State.tin_of_dater (State.put_dater ..) i).trans hqueue, State.get_put_same _ _ (Nat.le_of_ble_eq_true rfl), ?_, fun hnil => ⟨?_, ?_⟩, ?_⟩
    · rw [State.get_put_apart _ _ (Nat.le_of_ble_eq_true rfl) (.inr (.inl (Nat.le_of_ble_eq_true rfl))), hcount]
    · rw [State.get_put_apart _ _ (Nat.le_of_ble_eq_true rfl) (.inr (.inr (Nat.le_of_ble_eq_true rfl))), hvalid, if_pos hnil]
    · rw [State.rd_put_ne, hns hnil]
      simp only [DAT.TIN_STAT_SEQ, DAT.TIN_STAT, DAT.TIN_CAP_NS]
      omega
    · exact (hframe.mono (fun _ h => h) (by simp [tinFields])).put _ (by simp)

end

/-! ### The first edge of a schedule that may still be taken (R321, R322) -/

namespace Sys2Proof.Machine
set_option Elab.async false

/-- The nth edge of a rate lies at or after an instant from the index on that the ceiling names. -/
theorem ceilDiv_eq_of_least {a n p k : Nat} (hn : 0 < n) (hp : 0 < p) (hle : a ≤ k * p / n) (hlt : ∀ i < k, i * p / n < a) :
    ceilDiv (a * n) p = k := by
  have hup : a * n ≤ k * p := (Nat.le_div_iff_mul_le hn).1 hle
  have hlow : ∀ i < k, i * p < a * n := fun i hi => (Nat.div_lt_iff_lt_mul hn).1 (hlt i hi)
  have hdiv := Nat.div_add_mod' (a * n) p
  have hmod := Nat.mod_lt (a * n) hp
  rw [ceilDiv, if_neg (Nat.ne_of_gt hp)]
  split
  case isTrue h =>
    refine Nat.le_antisymm (Nat.div_le_of_le_mul (by rwa [Nat.mul_comm p k])) (Nat.le_of_not_lt fun hk => ?_)
    have := hlow _ hk
    omega
  case isFalse h =>
    refine Nat.le_antisymm (Nat.lt_of_mul_lt_mul_right (a := p) (by omega)) (Nat.le_of_not_lt fun hk => ?_)
    have := hlow _ hk
    rw [Nat.add_mul] at this
    omega

theorem Sched.edge_zero (c : Sched) : c.edge 0 = c.start := by simp [Sched.edge]

theorem Sched.edge_rate {c : Sched} (h : c.num ≠ 0) (n : Nat) : c.edge n = c.start + n * (1000000000 * c.den) / c.num := by
  rw [Sched.edge, if_neg h, Nat.mul_assoc]

theorem Sched.den_pos {c : Sched} {ns : Nat} (hok : c.ok ns = true) (h : c.num ≠ 0) : 0 < c.den := by
  simp only [Sched.ok, h, if_false, Bool.and_eq_true, bne_iff_ne, ne_eq] at hok
  obtain ⟨-, ⟨⟨hden, -⟩, -⟩, -⟩ := hok
  exact Nat.pos_of_ne_zero hden

/-- The least edge at or after an instant is the one that ARM takes. -/
theorem Sched.firstAt_of_least {c : Sched} {ns t k : Nat} (hok : c.ok ns = true) (hle : t ≤ c.edge k) (hlt : ∀ i < k, c.edge i < t)
    (hk : k = 0 ∨ c.num ≠ 0) : c.firstAt t = some k := by
  unfold Sched.firstAt
  by_cases hstart : t ≤ c.start
  · have hzero : k = 0 := by
      by_contra hne
      have := hlt 0 (Nat.pos_of_ne_zero hne)
      rw [c.edge_zero] at this
      omega
    rw [if_pos hstart, hzero]
  · have hnum : c.num ≠ 0 := hk.resolve_left (by
      rintro rfl
      rw [c.edge_zero] at hle
      omega)
    rw [if_neg hstart, if_neg hnum]
    simp only [Sched.edge_rate hnum] at hle hlt
    exact congrArg some (ceilDiv_eq_of_least (Nat.pos_of_ne_zero hnum) (Nat.mul_pos (by decide) (Sched.den_pos hok hnum)) (by omega)
      fun i hi => by have := hlt i hi; omega)

theorem Sched.firstAt_past {c : Sched} {t : Nat} (hnum : c.num = 0) (h : c.start < t) : c.firstAt t = none :=
  (if_neg (by omega)).trans (if_pos hnum)

end Sys2Proof.Machine

/-! ### Time outputs (R321 to R323) -/

namespace Sys2Proof.Machine
set_option Elab.async false

variable {s t u : State} {ps : List Part} {fs : List Fld} {n m : Nat}

theorem State.tout_of_dater (h : t.dater = s.dater) (n : Nat) : t.tout n = s.tout n := by rw [State.tout, h, State.tout]

theorem State.setTout_dater (s : State) (n : Nat) (o : Tout) :
    (s.setTout n o).dater = { s.dater with outs := Tab.set (fun _ => Tout.init) s.dater.outs n o } := by
  simp [State.setTout]

theorem State.tout_setTout (s : State) (n : Nat) (o : Tout) : (s.setTout n o).tout n = o := by
  rw [State.tout, State.setTout_dater]
  exact Tab.get_set_same ..

theorem State.tout_setTout_ne (s : State) (o : Tout) (h : m ≠ n) : (s.setTout n o).tout m = s.tout m := by
  rw [State.tout, State.setTout_dater]
  exact Tab.get_set_other _ _ _ h

/-- The registers that show an output's schedules. -/
def toutFields (n : Nat) : List Fld := [DAT.TOUT_STAT_ACTIVE n, DAT.TOUT_STAT_PENDING n]

theorem State.frame_setTout (s : State) (n : Nat) (o : Tout) : s.frame (s.setTout n o) [.dater] (toutFields n) :=
  State.frame.rfl'.setTout n o (by simp) (by simp [toutFields]) (by simp [toutFields])

/-- ACTIVE and PENDING follow the schedules. -/
theorem State.setTout_shown (s : State) (n : Nat) (o : Tout) : (s.setTout n o).get (DAT.TOUT_STAT_ACTIVE n) = (if o.running.isSome then 1 else 0) ∧
    (s.setTout n o).get (DAT.TOUT_STAT_PENDING n) = (if o.pending.isSome then 1 else 0) := by
  have hbit : ∀ b : Bool, (if b then 1 else 0) % 2 ^ 1 = if b then 1 else 0 := by decide
  refine ⟨?_, (State.get_put_same _ _ (Nat.le_of_ble_eq_true rfl)).trans (hbit _)⟩
  exact (State.get_put_apart _ _ (Nat.le_of_ble_eq_true rfl) (.inr (.inl (Nat.le_of_ble_eq_true rfl)))).trans
    ((State.get_put_same _ _ (Nat.le_of_ble_eq_true rfl)).trans (hbit _))

/-- The count of edges passed over, and LATE where there are any, as ARM writes them. -/
def State.armCounts (s : State) (n k : Nat) : State :=
  if k = 0 then s.put (DAT.TOUT_STAT_SKIPPED n) (min k 65535) else (s.put (DAT.TOUT_STAT_SKIPPED n) (min k 65535)).put (DAT.TOUT_STAT_LATE n) 1

def lateFields (n : Nat) : List Fld := [DAT.TOUT_STAT_SKIPPED n, DAT.TOUT_STAT_LATE n]

theorem lateFields_apart (n : Nat) : ∀ f ∈ lateFields n, f.lo + f.w ≤ 32 ∧ ∀ g ∈ toutFields n, f.apart g := by
  simp [lateFields, toutFields, Fld.apart, DAT.TOUT_STAT_SKIPPED, DAT.TOUT_STAT_LATE, DAT.TOUT_STAT_ACTIVE, DAT.TOUT_STAT_PENDING]

/-- Storing an output leaves the counts of its passed edges. -/
theorem State.setTout_late (s : State) (n : Nat) (o : Tout) {f : Fld} (hf : f ∈ lateFields n) : (s.setTout n o).get f = s.get f :=
  (s.frame_setTout n o).get f (lateFields_apart n f hf).1 (lateFields_apart n f hf).2

theorem State.frame_armCounts (s : State) (n k : Nat) : s.frame (s.armCounts n k) [] (lateFields n) :=
  State.frame.ite (State.frame.rfl'.put _ (by simp [lateFields])) ((State.frame.rfl'.put _ (by simp [lateFields])).put _ (by simp [lateFields]))

theorem State.armCounts_get (s : State) (n k : Nat) : (s.armCounts n k).get (DAT.TOUT_STAT_SKIPPED n) = min k 65535 ∧
    (k ≠ 0 → (s.armCounts n k).get (DAT.TOUT_STAT_LATE n) = 1) := by
  have hcount : (s.put (DAT.TOUT_STAT_SKIPPED n) (min k 65535)).get (DAT.TOUT_STAT_SKIPPED n) = min k 65535 :=
    (State.get_put_same _ _ (Nat.le_of_ble_eq_true rfl)).trans (Nat.mod_eq_of_lt (show min k 65535 < 65536 by omega))
  unfold State.armCounts
  split
  case isTrue h => exact ⟨hcount, fun hk => absurd h hk⟩
  case isFalse h => exact ⟨(State.get_put_apart _ _ (Nat.le_of_ble_eq_true rfl) (.inr (.inr (Nat.le_of_ble_eq_true rfl)))).trans hcount,
    fun _ => State.get_put_same _ _ (Nat.le_of_ble_eq_true rfl)⟩

theorem exec_timeOutArm_refused (h : (s.schedOf n).ok (s.get (DAT.TOUT_START_NS_VALUE n)) = false) :
    exec (.timeOutArm n) s = .next (s.put (DAT.TOUT_STAT_REFUSED n) 1) := (if_pos h : execTimeOutArm n s = _)

/-- A schedule that passes its check is pending from its first edge that is far enough ahead. -/
theorem exec_timeOutArm_taken {k : Nat} (hok : (s.schedOf n).ok (s.get (DAT.TOUT_START_NS_VALUE n)) = true) (hfirst : (s.schedOf n).firstAt s.leadNs = some k) :
    exec (.timeOutArm n) s =
      .next ((s.armCounts n k).setTout n { s.tout n with pending := some { s.schedOf n with n := k }, configured := true }) := by
  have htout : (s.armCounts n k).tout n = s.tout n := State.tout_of_dater ((s.frame_armCounts n k).1 .dater (by simp)) n
  rw [← htout]
  refine (if_neg (by simp [hok]) : execTimeOutArm n s = _).trans ?_
  rw [hfirst]
  rfl

/-- A single edge that is past is dropped, counted and late. -/
theorem exec_timeOutArm_past (hok : (s.schedOf n).ok (s.get (DAT.TOUT_START_NS_VALUE n)) = true) (hfirst : (s.schedOf n).firstAt s.leadNs = none) :
    exec (.timeOutArm n) s = .next ((s.armCounts n 1).setTout n { s.tout n with pending := none, configured := true }) := by
  refine (if_neg (by simp [hok]) : execTimeOutArm n s = _).trans ?_
  rw [hfirst]
  rfl

/-! An edge falls due. -/

section Edge
variable {c : Sched} (hrun : (s.tout n).running = some c) (hpend : (s.tout n).pending = none) (hdue : c.next ≤ s.nowNs)
include hrun hpend hdue

/-- Beyond the previous pulse an edge starts its own, with a request and the output's source. -/
theorem exec_timeOutEdge_emitted (hfree : (s.tout n).pulse.all (· ≤ c.next) = true) : exec (.timeOutEdge n) s =
    .next ((((s.setTout n { s.tout n with running := c.after, pending := none, pulse := some (c.next + c.width) }).request (34 + n)).raise (10 + n)).noteEdge
      n c.next) := by
  show execTimeOutEdge n s = _
  have hnot : ¬ s.nowNs < c.next := by omega
  unfold execTimeOutEdge
  simp only [Tout.due, hrun, hpend, hnot, if_false, Option.bind_some]
  cases hpulse : (s.tout n).pulse with
  | none => rfl
  | some e =>
    have he : e ≤ c.next := by simpa [hpulse] using hfree
    have hlt : decide (c.next < e) = false := decide_eq_false (by omega)
    simp [hlt]

/-- Within the previous pulse it is passed over. -/
theorem exec_timeOutEdge_busy {e : Nat} (hpulse : (s.tout n).pulse = some e) (hbusy : c.next < e) : exec (.timeOutEdge n) s =
    .next ((s.setTout n { s.tout n with running := c.after, pending := none, pulse := some e }).skipEdges n 1) := by
  show execTimeOutEdge n s = _
  have hnot : ¬ s.nowNs < c.next := by omega
  unfold execTimeOutEdge
  simp [Tout.due, hrun, hpend, hnot, hpulse, hbusy]

end Edge

theorem State.frame_edgeOut (s : State) (n d : Nat) :
    s.frame (((s.request (34 + n)).raise (10 + n)).noteEdge n d) [.streams] [DMA.REQ_COUNT_COUNT (34 + n), srcPending (10 + n)] :=
  ((State.frame.rfl'.request _ (by simp)).raise _ (by simp)).noteEdge _ _ (by simp)

theorem State.edgeOut_source (s : State) (d : Nat) (hn : n < 8) : (((s.request (34 + n)).raise (10 + n)).noteEdge n d).get (srcPending (10 + n)) = 1 := by
  have hnote : ((s.request (34 + n)).raise (10 + n)).frame (((s.request (34 + n)).raise (10 + n)).noteEdge n d) [.streams] [] :=
    State.frame.rfl'.noteEdge n d (by simp)
  rw [hnote.get _ (Nat.le_of_ble_eq_true rfl) (by simp), State.raise, if_pos (by omega), State.get_put_same _ _ (Nat.le_of_ble_eq_true rfl)]
  rfl

theorem State.skipEdges_one (s : State) (n : Nat) : s.skipEdges n 1 = (s.bump (DAT.TOUT_STAT_SKIPPED n)).put (DAT.TOUT_STAT_LATE n) 1 := rfl

theorem State.skipEdges_one_get (s : State) (n : Nat) :
    (s.skipEdges n 1).get (DAT.TOUT_STAT_SKIPPED n) = min (s.get (DAT.TOUT_STAT_SKIPPED n) + 1) 65535 ∧ (s.skipEdges n 1).get (DAT.TOUT_STAT_LATE n) = 1 := by
  rw [State.skipEdges_one]
  refine ⟨?_, State.get_put_same _ _ (Nat.le_of_ble_eq_true rfl)⟩
  rw [State.get_put_apart _ _ (Nat.le_of_ble_eq_true rfl) (.inr (.inr (Nat.le_of_ble_eq_true rfl))), State.get_bump_same _ (Nat.le_of_ble_eq_true rfl)]
  show satAdd 16 _ 1 = _
  unfold satAdd
  split <;> omega

theorem exec_timeOutPulseEnd_due {e : Nat} (hpulse : (s.tout n).pulse = some e) (he : e ≤ s.nowNs) :
    exec (.timeOutPulseEnd n) s = .next (s.setTout n { s.tout n with pulse := none }) := by
  show execTimeOutPulseEnd n s = _
  rw [execTimeOutPulseEnd, hpulse]
  exact congrArg Host.Outcome.next (if_pos he)

end Sys2Proof.Machine

section
set_option Elab.async false
open Sys2Proof Sys2Proof.Machine

/-- Settles O15: ARM takes the first edge that is far enough ahead (`Sched.firstAt_of_least`), and an edge that falls due is emitted or passed over
(`exec_timeOutEdge_emitted`, `exec_timeOutEdge_busy`). -/
theorem timeOutputsFollowTheirSchedules : Obligations.TimeOutputsFollowTheirSchedules := by
  unfold Obligations.TimeOutputsFollowTheirSchedules
  refine ⟨?refused, ?taken, ?past, ?disarm, ?emitted, ?busy, ?pulseEnd⟩
  case refused =>
    intro s n h
    exact ⟨_, exec_timeOutArm_refused h, State.get_put_same _ _ (Nat.le_of_ble_eq_true rfl), State.frame.rfl'.put _ (by simp)⟩
  case taken =>
    intro s n k hok hle hlt hk
    obtain ⟨hskipped, hlate⟩ := s.armCounts_get n k
    have hcounts := s.frame_armCounts n k
    refine ⟨_, exec_timeOutArm_taken hok (Sched.firstAt_of_least hok hle hlt hk), ?_⟩
    generalize s.armCounts n k = t at *
    rw [t.tout_setTout]
    refine ⟨rfl, rfl, (t.setTout_shown n _).2, ?_, fun hne => ?_, fun m hm => ?_,
      (hcounts.mono (by simp) (by simp [lateFields])).trans ((t.frame_setTout n _).mono (by simp) (by simp [toutFields]))⟩
    · rw [t.setTout_late n _ (by simp [lateFields]), hskipped]
    · rw [t.setTout_late n _ (by simp [lateFields]), hlate hne]
    · rw [t.tout_setTout_ne _ hm, State.tout_of_dater (hcounts.1 .dater (by simp))]
  case past =>
    intro s n hok hnum hlt
    obtain ⟨hskipped, hlate⟩ := s.armCounts_get n 1
    refine ⟨_, exec_timeOutArm_past hok (Sched.firstAt_past hnum hlt), ?_⟩
    generalize s.armCounts n 1 = t at *
    rw [t.tout_setTout]
    refine ⟨rfl, rfl, ?_, ?_, (t.setTout_shown n _).2⟩
    · rw [t.setTout_late n _ (by simp [lateFields]), hskipped]
      rfl
    · rw [t.setTout_late n _ (by simp [lateFields]), hlate Nat.one_ne_zero]
  case disarm =>
    intro s n
    obtain ⟨hactive, hpending⟩ := s.setTout_shown n { s.tout n with running := none, pending := none }
    refine ⟨_, rfl, ?_⟩
    beta_reduce
    rw [s.tout_setTout]
    exact ⟨rfl, rfl, rfl, hactive, hpending, fun m hm => s.tout_setTout_ne _ hm, s.frame_setTout n _⟩
  case emitted =>
    intro s n d c hn hrun hpend hd hdue hfree
    subst hd
    have htout := s.tout_setTout n { s.tout n with running := c.after, pending := none, pulse := some (c.next + c.width) }
    refine ⟨_, exec_timeOutEdge_emitted hrun hpend hdue hfree, ?_⟩
    generalize s.setTout n _ = t at *
    rw [State.tout_of_dater ((t.frame_edgeOut n c.next).1 .dater (by simp)), htout]
    exact ⟨rfl, rfl, t.edgeOut_source c.next hn⟩
  case busy =>
    intro s n d e c hn hrun hpend hd hdue hpulse hbusy
    subst hd
    have htout := s.tout_setTout n { s.tout n with running := c.after, pending := none, pulse := some e }
    have hlate := fun f (hf : f ∈ lateFields n) => s.setTout_late n { s.tout n with running := c.after, pending := none, pulse := some e } hf
    have hframe := s.frame_setTout n { s.tout n with running := c.after, pending := none, pulse := some e }
    refine ⟨_, exec_timeOutEdge_busy hrun hpend hdue hpulse hbusy, ?_⟩
    generalize s.setTout n _ = t at *
    obtain ⟨hskipped, hset⟩ := t.skipEdges_one_get n
    have hskip : t.frame (t.skipEdges n 1) [] (lateFields n) := State.frame.rfl'.skipEdges n 1 (by simp [lateFields]) (by simp [lateFields])
    rw [State.tout_of_dater (hskip.1 .dater (by simp)), htout]
    refine ⟨rfl, rfl, ?_, hset, (hframe.mono (by simp) (by simp [toutFields])).trans (hskip.mono (by simp) (by simp [lateFields]))⟩
    rw [hskipped, hlate _ (by simp [lateFields])]
  case pulseEnd =>
    intro s n e hpulse he
    exact ⟨_, exec_timeOutPulseEnd_due hpulse he, s.tout_setTout n _, fun m hm => s.tout_setTout_ne _ hm, s.frame_setTout n _⟩

end

/-! ### Messages of class C3 that touch no stream (R437 to R439) -/

namespace Sys2Proof.Machine
set_option Elab.async false

variable {s t u : State} {k n : Nat}

/-- A message of a kind without a fault state, logged with class C3, changes the log, the pins that follow it, its class's count, and source 1. -/
theorem State.frame_logMsg_c3 (hr : s.rgs.raises n 3 = false) (hf : kindFaults k = false) (d : Option Nat) (raw addr : Nat) (inj : Bool) :
    s.frame (s.logMsg n k 3 d raw addr inj) lowParts (lowFields 3) := by
  unfold State.logMsg
  extract_lets c now a m r b e g
  have hcls : c = 3 := State.classAsLogged_of_not_raises hr k
  have ha : s.frame a lowParts (lowFields 3) := State.frame.ite (State.frame.rfl'.pads _ (by simp [lowParts])) State.frame.rfl'
  have hb : s.frame b lowParts (lowFields 3) := ha.rgs _ (by simp [lowParts])
  have he : e = b := if_neg (by simp [hcls])
  have hg : g = e := if_neg (by simp [hcls, hf])
  rw [hg, he, hcls]
  exact (hb.bump _ (by simp [lowFields])).raise _ (by simp [lowFields])

/-- A report of class C3 that names no stream, of a unit that is no engine, only logs. -/
theorem State.report_c3 (he : engineOf n = none) (hk : kindClass k n = 3) (hu : s.unitEnabled n = true) (hr : s.rgs.raises n 3 = false) (addr : Nat) :
    s.report n k none addr = s.logMsg n k 3 none 0xFF addr false := by
  have hcls : s.classAsLogged n k 3 = 3 := State.classAsLogged_of_not_raises hr k
  rw [State.report, State.reportAs, State.reportBase, hk, hu, hcls, he]
  simp [State.notices, State.workOf, he]

theorem State.report_c3_spec (he : engineOf n = none) (hk : kindClass k n = 3) (hf : kindFaults k = false) (hu : s.unitEnabled n = true)
    (hr : s.rgs.raises n 3 = false) (addr : Nat) :
    s.logged (s.report n k none addr) n k 3 addr ∧ s.frame (s.report n k none addr) lowParts (lowFields 3) := by
  have hlog := (s.logMsg_logged n k 3 none 0xFF addr false).1
  rw [State.classAsLogged_of_not_raises hr] at hlog
  rw [State.report_c3 he hk hu hr]
  exact ⟨hlog, State.frame_logMsg_c3 hr hf ..⟩

/-- What was logged since a state was logged since an earlier one with the same log. -/
theorem State.logged_of_rgs {c addr : Nat} (h : t.rgs = s.rgs) (hlog : t.logged u n k c addr) : s.logged u n k c addr := by
  unfold State.logged at *
  rwa [← h]

end Sys2Proof.Machine

/-! ### The servo's states (R313, R316 to R318) -/

namespace Sys2Proof.Machine
set_option Elab.async false

variable {s t u : State} {st : Nat}

theorem State.servo_of_dater (h : t.dater = s.dater) : t.servo = s.servo := congrArg Dater.servo h

theorem State.frame_setServo (s : State) (v : Servo) : s.frame (s.setServo v) [.dater] [] := State.frame.rfl'.dater { s.dater with servo := v } (by simp)

theorem State.setServo_setServo (s : State) (v w : Servo) : (s.setServo v).setServo w = s.setServo w := rfl
theorem State.servoState_setServo (s : State) (v : Servo) : (s.setServo v).servoState = s.servoState := State.get_setServo ..

theorem State.frame_ppsUpdate (s : State) : s.frame s.ppsUpdate [.dater] [] := State.frame.ite State.frame.rfl' (State.frame.rfl'.dater _ (by simp))

theorem State.servo_ppsUpdate (s : State) : s.ppsUpdate.servo = s.servo := by
  unfold State.ppsUpdate
  split <;> rfl

/-- Entering a state writes it, and INCR with HOLDOVER. -/
theorem State.frame_enterServo (s : State) (st : Nat) : s.frame (s.enterServo st) [.dater] [DAT.SERVO_STAT_STATE, DAT.INCR_VALUE] := by
  unfold State.enterServo
  extract_lets a from_ v b c
  have hb : s.frame b [.dater] [DAT.SERVO_STAT_STATE, DAT.INCR_VALUE] := ((s.frame_setServo _).trans (a.frame_setServo _)).mono (fun _ h => h) (by simp)
  have hc : s.frame c [.dater] [DAT.SERVO_STAT_STATE, DAT.INCR_VALUE] := State.frame.ite (hb.put _ (by simp)) hb
  exact (hc.put st (by simp)).trans ((State.frame_ppsUpdate _).mono (fun _ h => h) (by simp))

theorem State.enterServo_state (s : State) (hst : st < 8) : (s.enterServo st).servoState = st := by
  unfold State.enterServo
  extract_lets a from_ v b c
  exact ((State.frame_ppsUpdate _).get _ (by decide) (by simp)).trans ((State.get_put_same _ _ (by decide)).trans (Nat.mod_eq_of_lt hst))

/-- The masters stay in every state. -/
theorem State.enterServo_masters (s : State) (st : Nat) :
    (s.enterServo st).servo.masters = s.servo.masters ∧ (s.enterServo st).servo.master = s.servo.master := by
  unfold State.enterServo
  extract_lets a from_ v b c
  have hc : c.servo = b.servo := by
    unfold c
    split
    · exact State.servo_of_dater (State.put_dater ..)
    · rfl
  rw [State.servo_ppsUpdate, State.servo_of_dater (State.put_dater ..), hc]
  exact ⟨rfl, rfl⟩

/-! TIME_REFCLK (R314). -/

/-- The clock is gone, and DAT_STAT shows it. -/
def State.clockLost (s : State) : State :=
  ({ s with dater := { s.dater with refclk := false } }.put DAT.DAT_STAT_REFCLK_LOST 1).put DAT.DAT_STAT_REFCLK_OK 0

theorem State.frame_clockLost (s : State) : s.frame s.clockLost [.dater] [DAT.DAT_STAT_REFCLK_LOST, DAT.DAT_STAT_REFCLK_OK] :=
  ((State.frame.rfl'.dater _ (by simp)).put _ (by simp)).put _ (by simp)

theorem State.clockLost_dater (s : State) : s.clockLost.dater = { s.dater with refclk := false } := by
  rw [State.clockLost, State.put_dater, State.put_dater]

theorem State.clockLost_shown (s : State) : s.clockLost.get DAT.DAT_STAT_REFCLK_LOST = 1 ∧ s.clockLost.get DAT.DAT_STAT_REFCLK_OK = 0 :=
  ⟨(State.get_put_apart _ _ (by decide) (by decide)).trans (State.get_put_same _ _ (by decide)), State.get_put_same _ _ (by decide)⟩

theorem State.clockLost_servoState (s : State) : s.clockLost.servoState = s.servoState := s.frame_clockLost.get _ (by decide) (by decide)

theorem exec_timeRefclkLost_off (hclk : s.dater.refclk = true) (hoff : s.servoState = 0) :
    exec .timeRefclkLost s = .next (s.clockLost.report 0x150 0x40 none 0) :=
  (if_neg (by simp [hclk]) : execTimeRefclkLost s = _).trans
    (congrArg (fun t : State => Host.Outcome.next (t.report 0x150 0x40 none 0)) (if_pos (s.clockLost_servoState.trans hoff)))

/-- A servo that runs listens anew. -/
theorem exec_timeRefclkLost_on (hclk : s.dater.refclk = true) (hon : s.servoState ≠ 0) :
    exec .timeRefclkLost s = .next ((s.clockLost.enterServo 1).report 0x150 0x40 none 0) :=
  (if_neg (by simp [hclk]) : execTimeRefclkLost s = _).trans
    (congrArg (fun t : State => Host.Outcome.next (t.report 0x150 0x40 none 0)) (if_neg (s.clockLost_servoState.trans_ne hon)))

/-- The report of a lost clock. -/
theorem State.reportClock_spec (h : t.rgs = s.rgs) (hr : s.rgs.raises 0x150 3 = false) :
    s.logged (t.report 0x150 0x40 none 0) 0x150 0x40 3 0 ∧ t.frame (t.report 0x150 0x40 none 0) lowParts (lowFields 3) := by
  obtain ⟨hlog, hframe⟩ := State.report_c3_spec (s := t) (n := 0x150) (k := 0x40) rfl rfl rfl (by simp [State.unitEnabled, engineOf]) (h ▸ hr) 0
  exact ⟨State.logged_of_rgs h hlog, hframe⟩

end Sys2Proof.Machine

/-! ### The masters that the servo hears (R316, R317) -/

namespace Sys2Proof.Machine
set_option Elab.async false

variable {s t : State} {m k : Master} {l : List Master} {p : Master → Bool}

/-- The better of the best master so far and another. -/
def betterMaster (b : Option Master) (m : Master) : Option Master :=
  match b with
  | none => some m
  | some a => if betterData m.data a.data then some m else some a

theorem bestMaster_eq (l : List Master) : bestMaster l = l.foldl betterMaster none := rfl

/-- The master k is better than another, which is not better than k, or it is k. -/
def Master.leads (k i : Master) : Prop := i = k ∨ betterData k.data i.data = true ∧ betterData i.data k.data = false

/-- Beside masters that k leads, the better of two is one of them, and it is k where one of the two is. -/
theorem betterMaster_spec {b : Option Master} (hb : ∀ a ∈ b, k.leads a) (hm : k.leads m) :
    (∀ a ∈ betterMaster b m, k.leads a) ∧ (k = m ∨ b = some k → betterMaster b m = some k) := by
  cases b with
  | none => exact ⟨by simpa [betterMaster] using hm, by simp +contextual [betterMaster]⟩
  | some a =>
    have ha := hb a rfl
    by_cases hbetter : betterData m.data a.data = true
    · have hnext : betterMaster (some a) m = some m := if_pos hbetter
      refine ⟨by simpa [hnext] using hm, fun hk => hnext.trans ?_⟩
      rcases hk with rfl | hk
      · rfl
      · obtain rfl := Option.some.inj hk
        rcases hm with rfl | ⟨-, hm⟩
        · rfl
        · simp [hm] at hbetter
    · have hnext : betterMaster (some a) m = some a := if_neg hbetter
      refine ⟨by simpa [hnext] using ha, fun hk => hnext.trans ?_⟩
      rcases hk with rfl | hk
      · rcases ha with rfl | ⟨ha, -⟩
        · rfl
        · exact absurd ha hbetter
      · exact hk

/-- A master that leads them all is the best one, once it has been met. -/
theorem foldl_betterMaster (hl : ∀ i ∈ l, k.leads i) {b : Option Master} (hb : ∀ a ∈ b, k.leads a) (hk : k ∈ l ∨ b = some k) :
    l.foldl betterMaster b = some k := by
  induction l generalizing b with
  | nil => exact hk.resolve_left List.not_mem_nil
  | cons x l ih =>
    obtain ⟨hx, hl⟩ := List.forall_mem_cons.1 hl
    obtain ⟨hleads, hmet⟩ := betterMaster_spec hb hx
    refine ih hl hleads ?_
    rw [List.mem_cons, or_assoc] at hk
    rcases hk with hk | hk | hk
    · exact .inr (hmet (.inl hk))
    · exact .inl hk
    · exact .inr (hmet (.inr hk))

theorem bestMaster_of_leads (hk : k ∈ l) (hl : ∀ i ∈ l, k.leads i) : bestMaster l = some k :=
  (bestMaster_eq l).trans (foldl_betterMaster hl (by simp) (.inl hk))

theorem State.selectMaster_eq (h : bestMaster s.servo.masters = some k) : s.selectMaster =
    if s.servo.master = some k.id then s.put DAT.SERVO_STAT_PORT k.port else (s.put DAT.SERVO_STAT_PORT k.port).setServo
      { s.servo with master := some k.id, sync := none, down := none, up := none, req := none } := by
  unfold State.selectMaster
  simp only [h]

/-- The best master's port becomes the active one, and the servo takes time from it. -/
theorem State.selectMaster_spec (h : bestMaster s.servo.masters = some k) (hport : k.port < 2) :
    s.selectMaster.get DAT.SERVO_STAT_PORT = k.port ∧ s.selectMaster.servo.master = some k.id ∧ s.frame s.selectMaster [.dater] [DAT.SERVO_STAT_PORT] := by
  have hget : (s.put DAT.SERVO_STAT_PORT k.port).get DAT.SERVO_STAT_PORT = k.port := (State.get_put_same _ _ (by decide)).trans (Nat.mod_eq_of_lt hport)
  have hput : s.frame (s.put DAT.SERVO_STAT_PORT k.port) [.dater] [DAT.SERVO_STAT_PORT] := State.frame.rfl'.put _ (by simp)
  rw [State.selectMaster_eq h]
  by_cases hsame : s.servo.master = some k.id
  · rw [if_pos hsame]
    exact ⟨hget, (congrArg Servo.master (State.servo_of_dater (State.put_dater ..))).trans hsame, hput⟩
  · rw [if_neg hsame, State.get_setServo, State.servo_setServo]
    exact ⟨hget, rfl, hput.trans ((State.frame_setServo _ _).mono (fun _ h => h) (by simp))⟩

/-- Without any master left the servo holds over. -/
theorem State.keepMasters_none (hm : m ∈ s.servo.masters) (hp : ∀ i ∈ s.servo.masters, p i = false) (hon : s.servoState ≠ 0) : s.keepMasters p =
    (s.setServo { s.servo with masters := [], master := none, sync := none, down := none, up := none, req := none }).enterServo 4 := by
  have hall : s.servo.masters.all p = false := List.all_eq_false.2 ⟨m, hm, by simp [hp m hm]⟩
  have hleft : s.servo.masters.filter p = [] := List.filter_eq_nil_iff.2 fun i hi => by simp [hp i hi]
  unfold State.keepMasters
  simp [hall, hleft, State.servo_setServo, State.servoState_setServo, State.setServo_setServo, hon]

/-- The best of the masters left takes over. -/
theorem State.keepMasters_some (hm : m ∈ s.servo.masters) (hp : p m = false) (hk : k ∈ s.servo.masters) (hpk : p k = true) :
    s.keepMasters p = (s.setServo { s.servo with masters := s.servo.masters.filter p }).selectMaster := by
  have hall : s.servo.masters.all p = false := List.all_eq_false.2 ⟨m, hm, by simp [hp]⟩
  have hleft : (s.servo.masters.filter p).isEmpty = false := List.isEmpty_eq_false_iff_exists_mem.2 ⟨k, List.mem_filter.2 ⟨hk, hpk⟩⟩
  unfold State.keepMasters
  simp [hall, hleft]

theorem exec_announceTimeout_on (n : Nat) (h : s.servoRuns = true) : exec (.announceTimeout n) s = .next (s.keepMasters fun m => m.port != n) :=
  congrArg Host.Outcome.next (if_pos h)

theorem exec_announceTimeout_off (n : Nat) (h : s.servoRuns = false) : exec (.announceTimeout n) s = .next s :=
  congrArg Host.Outcome.next (if_neg (by simp [h]))

end Sys2Proof.Machine

section
set_option Elab.async false
open Sys2Proof Sys2Proof.Machine

/-- Settles O16: the clock's loss is `State.clockLost`, the servo's new state and a report (`State.reportClock_spec`), and without its port's masters the
servo holds over (`State.keepMasters_none`) or follows the best of the others (`State.selectMaster_spec`, `bestMaster_of_leads`). -/
theorem servoLosesItsClockOrItsMaster : Obligations.ServoLosesItsClockOrItsMaster := by
  unfold Obligations.ServoLosesItsClockOrItsMaster
  refine ⟨?lostOff, ?lostOn, ?back, ?holdover, ?other, ?off⟩
  case lostOff =>
    intro s hclk hr hoff
    obtain ⟨hlost, hok⟩ := s.clockLost_shown
    have hframe := s.frame_clockLost
    have hdater := s.clockLost_dater
    refine ⟨_, exec_timeRefclkLost_off hclk hoff, ?_⟩
    generalize s.clockLost = t at *
    obtain ⟨hlog, hreport⟩ := State.reportClock_spec (hframe.1 .rgs (by simp)) hr
    refine ⟨(hreport.1 .dater (by simp [lowParts])).trans hdater, (hreport.get _ (by decide) (by decide)).trans hlost,
      (hreport.get _ (by decide) (by decide)).trans hok, hlog,
      (hframe.mono (by simp) (by simp)).trans (hreport.mono (by simp [lowParts]) (by simp [lowFields]))⟩
  case lostOn =>
    intro s hclk hr hon
    obtain ⟨hlost, hok⟩ := s.clockLost_shown
    have hframe := s.frame_clockLost
    refine ⟨_, exec_timeRefclkLost_on hclk hon, ?_⟩
    generalize s.clockLost = t at *
    have henter := t.frame_enterServo 1
    obtain ⟨hlog, hreport⟩ := State.reportClock_spec ((henter.1 .rgs (by simp)).trans (hframe.1 .rgs (by simp))) hr
    refine ⟨(hreport.get _ (by decide) (by decide)).trans (t.enterServo_state (by decide)), ?_, ?_, hlog⟩
    · rw [hreport.get _ (by decide) (by decide), henter.get _ (by decide) (by decide), hlost]
    · rw [hreport.get _ (by decide) (by decide), henter.get _ (by decide) (by decide), hok]
  case back =>
    intro s
    exact ⟨_, rfl, State.put_dater .., State.get_put_same _ _ (by decide), (State.frame.rfl'.dater _ (by simp)).put _ (by simp)⟩
  case holdover =>
    intro s p m hrun hm hport hon
    have hgone : ∀ i ∈ s.servo.masters, (i.port != p) = false := fun i hi => by simp [hport i hi]
    have hkeep := State.keepMasters_none (p := fun i => i.port != p) hm hgone hon
    refine ⟨_, (exec_announceTimeout_on p hrun).trans (congrArg Host.Outcome.next hkeep), State.enterServo_state _ (by decide),
      (State.enterServo_masters _ 4).1, (State.enterServo_masters _ 4).2, ?_⟩
    exact ((State.frame_setServo _ _).mono (fun _ h => h) (by simp)).trans (State.frame_enterServo _ 4)
  case other =>
    intro s p m k hrun hm hmp hk hkp hp hlead
    have hne : (k.port != p) = true := by simp; omega
    have hmem : k ∈ s.servo.masters.filter fun i => i.port != p := List.mem_filter.2 ⟨hk, hne⟩
    have hbest : bestMaster (s.servo.masters.filter fun i => i.port != p) = some k := bestMaster_of_leads hmem fun i hi => by
      obtain ⟨hi, hip⟩ := List.mem_filter.1 hi
      exact hlead i hi (by simpa using hip)
    obtain ⟨hport, hmaster, hframe⟩ :=
      State.selectMaster_spec (s := s.setServo { s.servo with masters := s.servo.masters.filter fun i => i.port != p }) hbest (by omega)
    have hkeep := State.keepMasters_some (p := fun i => i.port != p) hm (by simp [hmp]) hk hne
    exact ⟨_, (exec_announceTimeout_on p hrun).trans (congrArg Host.Outcome.next hkeep), hport.trans hkp, hmaster,
      ((State.frame_setServo _ _).mono (fun _ h => h) (by simp)).trans hframe⟩
  case off =>
    intro s p hrun
    exact ⟨_, exec_announceTimeout_off p hrun, rfl⟩

end
